-- ==== Sys2Proof/Word.lean ====
section
/-! DEFINITION. The word types of the device: bytes, general-register words (R130) and instruction words (R132). -/

namespace Sys2Proof

/-- A byte of memory or of a frame. -/
abbrev Byte := BitVec 8

/-- A general register of a compute core (R126), a partition address or an RDTIME value (R33). -/
abbrev Word := BitVec 64

end Sys2Proof
end

