-- ==== Sys2Proof/Syntax.lean ====
section
/-! DEFINITION. The commands of the block: one constructor of Instr per row of spec/opcode_table.json, in the table's
order, with the operands the spec gives the row; what the environment decides (a sample, a received frame, an order that
R26 leaves to the arbiter) is an operand too. -/

namespace Sys2Proof

/-- The register pages of R38. -/
inductive PageKind where
  | glob | rset | host | qmgr | core | sigc | code | msid | hbmc | bulk | aqzl | fabr | ethp | part | rasp | mgmt
  | time | shap | polc
  deriving DecidableEq, Repr

/-- One page of the control window: its kind and its instance number (R12, R38). -/
structure Page where
  kind : PageKind
  inst : Nat
  deriving DecidableEq, Repr

/-- Who makes a register access: the Nymav controller (R41) or a PCIe function (R40), where 0 is the physical
function and 1 to 255 are virtual functions. A request that `clear` makes for a function does not arrive on the IDE stream of its TDI
with the T bit set (R413). -/
inductive Requester where
  | controller
  | function (fn : Fin 256)
  | clear (fn : Fin 256)
  deriving DecidableEq, Repr

/-- The rails of R601. -/
inductive Rail where
  | vdd1v8 | vdd1v2 | vddaSer | vddIod | vddMsd | vppHbm | vddHbm | vddqHbm
  | vddCore (die : Fin 4)
  deriving DecidableEq, Repr

/-- A logical compute core or signal core with a wave-rate monitor (R28). -/
inductive MonitorUnit where
  | core (c : Fin 160)
  | sigc (k : Fin 64)
  deriving DecidableEq, Repr

/-- One repair of the fuse map (R530): spare row of a group, or spare column. -/
structure ArrayRepair where
  core : Nat
  array : Nat
  isColumn : Bool
  index : Nat
  target : Nat
  deriving DecidableEq, Repr

/-- What bring-up finds: the conditions of step 1; the cores that the fuse map fuses out (die × 44 + position, die × 17 +
position) and its array repairs (R530); the arrays of physical cores that fail the probe of step 4; the stacks that fail
step 7; and each CXL port that trains in step 8 with its module's capacity in MiB, width and speed codes. -/
structure BringEnv where
  refclk : Bool
  cool : Bool
  fusedCores : List Nat
  fusedSigcs : List Nat
  repairs : List ArrayRepair
  probeFails : List (Nat × Nat)
  hbmFailed : BitVec 20
  bulkModules : List (Nat × Nat × Nat × Nat)
  deriving DecidableEq, Repr

/-- Second operand of a scalar instruction: a register or an immediate (R132 and the opcode table of "The compute core"). -/
inductive ScalarSrc where
  | reg (r : Fin 32)
  | imm (v : BitVec 64)
  deriving DecidableEq, Repr

/-- Two-operand scalar arithmetic (major opcodes 0x00 to 0x0F). -/
inductive ScalarOp where
  | add | sub | and | or | xor | shl | shr | sar | mul | divS | divU | remS | remU | cmpEq | cmpLtS | cmpLtU
  deriving DecidableEq, Repr

/-- A scalar arithmetic instruction; illegal carries a word that R135 refuses. -/
inductive ScalarInsn where
  | op (o : ScalarOp) (rd ra : Fin 32) (b : ScalarSrc)
  | select (rd rc ra : Fin 32) (b : ScalarSrc)
  | clz (rd ra : Fin 32)
  | illegal (word : BitVec 32)
  deriving DecidableEq, Repr

/-- Conditions of a conditional branch on a register compare (major opcodes 0x10 to 0x17). -/
inductive BranchCond where
  | eq | ne | ltS | geS | ltU | geU
  deriving DecidableEq, Repr

/-- A branch, jump, jump and link or indirect jump; illegal carries a word that R135 refuses. -/
inductive BranchInsn where
  | cond (c : BranchCond) (ra rb : Fin 32) (target : BitVec 18)
  | jump (target : BitVec 18)
  | jumpLink (rd : Fin 32) (target : BitVec 18)
  | indirect (ra : Fin 32)
  | illegal (word : BitVec 32)
  deriving DecidableEq, Repr

/-- Access width of LD and ST: 8, 16, 32 or 64 bits. -/
inductive ScalarWidth where
  | b8 | b16 | b32 | b64
  deriving DecidableEq, Repr

/-- Where LD and ST access: ra + offset in a compute core's scratchpad (R133), or aN of a signal core in its data memory, modified by a step
after the access or before it (R198). -/
inductive ScalarPlace where
  | core (c : Fin 160) (ra : Fin 32) (offset : BitVec 64)
  | post (k : Fin 64) (a : Fin 16) (step : BitVec 64)
  | pre (k : Fin 64) (a : Fin 16) (step : BitVec 64)
  deriving DecidableEq, Repr

/-- Lane codes of R148. -/
inductive Lane where
  | z8 | z4 | z16b16 | z16b24 | z16b32 | i8 | i16 | i32
  deriving DecidableEq, Repr

/-- The registers of a vector operation: vd, va and vb of a compute core under a lane code (R148, R150), or d registers of a signal core,
whose view is a Z16 block of 32 (R193). -/
inductive VecRegs where
  | core (c : Fin 160) (vd va vb : Fin 32) (lane : Lane)
  | sigc (k : Fin 64) (dd da db : Fin 64)
  deriving DecidableEq, Repr

/-- Elementwise operations of class 0x24 (R150). -/
inductive VecElem where
  | add | sub | mul | madd | abs | neg
  deriving DecidableEq, Repr

/-- Operations of class 0x25 (R150). -/
inductive VecShiftCmp where
  | shl | shrRound | cmpEq | cmpLt | cmpLe | select | min | max
  deriving DecidableEq, Repr

/-- Reductions of class 0x26 (R150). -/
inductive VecRed where
  | sum | max | min
  deriving DecidableEq, Repr

/-- Where a reduction's result goes (R150): lane 0 of vd or a general register. -/
inductive RedDest where
  | lane0 (vd : Fin 32)
  | gpr (gd : Fin 32)
  deriving DecidableEq, Repr

/-- The registers of a reduction: as above, with the destination of a compute core's; a signal core's goes to lane 0 of dd. -/
inductive RedRegs where
  | core (c : Fin 160) (dest : RedDest) (va : Fin 32) (lane : Lane)
  | sigc (k : Fin 64) (dd da : Fin 64)
  deriving DecidableEq, Repr

/-- Operations of class 0x27 (R150); each converts from the instruction's lane code to a target lane code. -/
inductive VecConv where
  | requantize | convert | widen | narrow
  deriving DecidableEq, Repr

/-- Operations of class 0x29 (R150). -/
inductive VecPerm where
  | permute | broadcast | interleave | deinterleave
  deriving DecidableEq, Repr

/-- Operations of class 0x2A (R150): a general register into a lane, or a lane into a general register. -/
inductive VecMove where
  | toLane (vd : Fin 32) (ga : Fin 32) (index : Nat)
  | fromLane (gd : Fin 32) (va : Fin 32) (index : Nat)
  deriving DecidableEq, Repr

/-- The fields of an ISSUE word after its opcode and ENGINE (R136). -/
structure IssueWord where
  gs : Fin 32
  unit : Fin 32
  tag : Fin 256
  notag : Bool
  rsvd : Fin 8
  deriving DecidableEq, Repr

/-- An executing agent that uses semaphores: a compute core or a signal core (R164). -/
inductive Agent where
  | core (c : Fin 160)
  | sigc (k : Fin 64)
  deriving DecidableEq, Repr

/-- A compute core's register numbers and CP of a synchronization word (R168). -/
structure SyncWord where
  gd : Fin 32
  gs : Fin 32
  gt : Fin 32
  cp : Fin 1024
  rsvd : Bool
  deriving DecidableEq, Repr

/-- The multiply-accumulate instructions of R194. -/
inductive MacOp where
  | cmac | cmacj | rmac
  deriving DecidableEq, Repr

/-- The two forms of SST (R196). -/
inductive SstForm where
  | fixed (shift : Fin 41)
  | norm
  deriving DecidableEq, Repr

/-- The count of LOOP: an immediate or an a register (R202). -/
inductive LoopCount where
  | imm (n : BitVec 16)
  | reg (a : Fin 16)
  deriving DecidableEq, Repr

/-- A coding engine: LDPC decoder, LDPC encoder or polar unit, by number (R213, R235). -/
inductive CodingEngine where
  | decoder (e : Fin 24)
  | encoder (e : Fin 24)
  | polar (u : Fin 8)
  deriving DecidableEq, Repr

/-- The cache hints of R156 and R250. -/
inductive CacheHint where
  | allocate | stream | keep
  deriving DecidableEq, Repr

/-- Who makes a memory access: a stream slot, a signal core's DMA channel, the host window, a coding engine, the
device's own engines, or a fabric peer. -/
inductive MemAgent where
  | stream (c : Fin 160) (slot : Fin 16)
  | dma (k : Fin 64) (ch : Fin 2)
  | hostWindow
  | coding (e : CodingEngine)
  | device
  | fabric (peer : BitVec 12)
  deriving DecidableEq, Repr

/-- What replica a re-sourcing reads (R272). -/
inductive ReplicaSource where
  | twin | host
  deriving DecidableEq, Repr

/-- A submission queue: the PF admin SQ or a numbered one (R388). -/
inductive SqRef where
  | admin
  | num (q : Fin 1048576)
  deriving DecidableEq, Repr

/-- A completion queue: the PF admin CQ or a numbered one. -/
inductive CqRef where
  | admin
  | num (q : Fin 262144)
  deriving DecidableEq, Repr

/-- A fetched command, named by its SQ and the CMD_ID of its entry (R396). -/
structure CmdRef where
  sq : SqRef
  id : BitVec 16
  deriving DecidableEq, Repr

/-- What reading a command's data or a host buffer met (R398, R411). -/
inductive DataStatus where
  | ok | fault | uncorrectable
  deriving DecidableEq, Repr

/-- A buffer in host memory: I/O virtual address, PASID if valid, and what reaching it met. -/
structure HostBuffer where
  iova : BitVec 64
  pasid : Option (BitVec 20)
  status : DataStatus
  deriving DecidableEq, Repr

/-- What LOAD_OBJECT loads (R133, R190, R255): an object's bytes, a core's or a signal core's instruction memory. -/
inductive LoadKind where
  | object (id : BitVec 16)
  | coreProgram (c : Fin 160)
  | sigcProgram (k : Fin 64)
  deriving DecidableEq, Repr

/-- The target of FILL (R276). -/
inductive FillTarget where
  | range (addr len : BitVec 64)
  | core (c : Fin 160)
  | sigc (k : Fin 64)
  deriving DecidableEq, Repr

/-- The AtomicOps of the memory window (R383, R387). -/
inductive WindowAtomicOp where
  | fetchAdd | swap | compareAndSwap
  deriving DecidableEq, Repr

/-- TDISP messages that move a TDI (R413), and an error that moves it to ERROR. -/
inductive TdispMsg where
  | lock | start | stop | error
  deriving DecidableEq, Repr

/-- IDE_KM messages (R412): set a key of a stream, or go over to the key set. -/
inductive IdeKmMsg where
  | keyProg (key : BitVec 256)
  | setGo
  | setStop
  deriving DecidableEq, Repr

/-- Command data or a host buffer's content as the device reads it: what the read met and the bytes it gave. -/
structure HostData where
  status : DataStatus
  bytes : List Byte
  deriving DecidableEq, Repr

/-- What a task of a slot command runs on (R292). -/
inductive TaskPlace where
  | core (c : Fin 160)
  | surge
  | sigc (k : Fin 64)
  | coding
  deriving DecidableEq, Repr

/-- One entry of a slot command's task list (R292; the entry's format is that of the Jexonalin reference): direction, stage of the
pipeline, place, the partition addresses and lengths of its inputs and outputs, waves at the budget rate, tidemark in RDTIME form, last
downlink symbol, and its transport blocks, each by the STATUS_ADDR of its coding descriptor. -/
structure SlotTask where
  uplink : Bool
  stage : Fin 8
  place : TaskPlace
  inputs : List (BitVec 64 × Nat)
  outputs : List (BitVec 64 × Nat)
  waves : Nat
  tidemark : BitVec 64
  symbol : Nat
  blocks : List (BitVec 64)
  deriving DecidableEq, Repr

/-- A block of 24 of a downlink symbol as the egress path reads it (R90): its eAxC by position, PRB, block exponent, elements. -/
structure EgressBlock where
  eaxc : Fin 128
  prb : Fin 273
  exp : BitVec 8
  elems : List (BitVec 16)
  deriving DecidableEq, Repr

/-- A soak record (R305): lowest window per logical core and signal core, coolant inlet in 0.1 °C, VDD_CORE of each die
in mV, the SERIAL of the device that made it, whether its stepping is B0, and the signature of the device identity key. -/
structure SoakRecord where
  cores : List (Nat × Nat)
  sigcs : List (Nat × Nat)
  inlet : Nat
  vdd : List Nat
  serial : BitVec 64
  steppingB0 : Bool
  signature : BitVec 912
  deriving DecidableEq, Repr

/-- Results of one class of SELFTEST (R305, R552): tests run, tests failed by name of unit, and for a soak its readings. -/
structure SelftestEnv where
  total : Nat
  failedArrays : List (Nat × Nat)
  failedOthers : Nat
  deriving DecidableEq, Repr

/-- One logit row as the output head delivers it (R338, R347): elements with their block exponents, token order. -/
structure LogitRow where
  stream : Nat
  poisoned : Bool
  lostWeight : Bool
  logits : List (Int × Int)
  deriving DecidableEq, Repr

/-- Which step of a serving group ends: a prefill step or the decode step of a microbatch. -/
inductive ServeStep where
  | prefill
  | decode (mb : Fin 64)
  deriving DecidableEq, Repr

/-- A fabric packet (R445): header fields and data. ext is bytes 24 to 31: member mask, DMA length or RETRY_AFTER. -/
structure Packet where
  op : BitVec 8
  size : Fin 8
  src : BitVec 12
  dest : BitVec 12
  part : Fin 64
  retry : Bool
  func : Fin 16
  core : BitVec 8
  req : BitVec 8
  index : BitVec 12
  contributors : BitVec 13
  status : BitVec 8
  addr : BitVec 64
  ext : BitVec 64
  data : List Byte
  deriving DecidableEq, Repr

/-- A 256-byte flit (R433). A packet is carried by its first flit; its further flits carry none. -/
structure Flit where
  fseq : BitVec 12
  vc : Fin 8
  null : Bool
  packet : Option Packet
  deriving DecidableEq, Repr

/-- Why a port trains (R429). -/
inductive TrainCause where
  | enable | retrainWrite | retryLimit | levelDrift | partner
  deriving DecidableEq, Repr

/-- What the phase that ends has learned (R429): the partner's serial number, kind and mode, the lanes kept, the
partner's device number (R443) and the partner's division of its receive buffer (R436); and where the link loops back, the port of this device
at its other end. -/
structure TrainInfo where
  serial : BitVec 64
  loop : Option (Fin 9)
  samePortKind : Bool
  sameMode : Bool
  lanes : BitVec 4
  peer : BitVec 12
  peerBuffers : List Nat
  gains : List Nat
  residuals : List Nat
  deriving DecidableEq, Repr

/-- Outcome of FEC on one codeword (R428): symbols corrected, or not correctable. -/
inductive FecResult where
  | corrected (symbols : Fin 11)
  | uncorrectable
  deriving DecidableEq, Repr

/-- One eCPRI message of a frame (R475) with its U-plane PRBs: PRB number, exponent X, 24 mantissas. -/
structure EcpriMsg where
  msgType : Nat
  action : Nat
  eaxc : BitVec 16
  seqid : BitVec 8
  frame : Nat
  slot : Nat
  symbol : Nat
  prbs : List (Nat × Nat × List Int)
  deriving DecidableEq, Repr

/-- A received Ethernet frame: FCS check, bytes from the destination address through the last before the FCS, the UDP
destination port if it is UDP over IP, and its eCPRI messages as parsed, in order (several where they are concatenated); with the RS-FEC symbols that the port has corrected since the last frame, and the lanes of codewords that it could not correct (R496). -/
structure EthFrame where
  fcsOk : Bool
  fecCorrected : Nat
  fecLost : List (Fin 64)
  bytes : List Byte
  udpPort : Option Nat
  ecpri : List EcpriMsg
  rxTime : BitVec 96
  deriving DecidableEq, Repr

/-- How a post-package repair ends (R532). -/
inductive PprOutcome where
  | done | failed | noSpareRow
  deriving DecidableEq, Repr

/-- A firmware image as the boot ROM meets it (R562): bytes it reads; empty where the flash or the host gave none. -/
structure ImageData where
  bytes : List Byte
  deriving DecidableEq, Repr

/-- A salinometer message (R547): sending member, score, sequence number, vote mask, STALE. -/
structure SaltMessage where
  member : Fin 64
  score : BitVec 10
  seq : BitVec 32
  votes : BitVec 64
  stale : Bool
  deriving DecidableEq, Repr

/-- What an announcement to the members of a span says of one of them (R549, R550, R552). -/
inductive SaltNews where
  | expelled | kept | admitted
  deriving DecidableEq, Repr

/-- One 1 ms sample of the telemetry sensors of R561. Temperatures of dies in half degrees, in the order C0-C3, M0-M3,
IOA, IOB; of stacks in degrees; inlet in 0.1 °C, absent where the card's sensor gave no reading (R606). -/
structure SensorEnv where
  dies : List Nat
  stackTemps : List Nat
  inlet : Option Nat
  watts : Nat
  dieWatts : List Nat
  deriving DecidableEq, Repr

/-- Where a sideband or SPDM request comes from (R559, R573): the PF's transports (MCTP or DOE), or a VF's DOE. -/
inductive MgmtSource where
  | i3c | smbus | pcieVdm | pfDoe
  | vfDoe (fn : Fin 256)
  deriving DecidableEq, Repr

/-- A PLDM PDR repository request of DSP0248: read the repository, or collect a pending platform event (R559). -/
inductive PdrRequest where
  | getPdr | pollEvent
  deriving DecidableEq, Repr

/-- The PLDM discovery requests of DSP0240 (R559). -/
inductive PldmDiscovery where
  | getTid | getTypes | getCommands | getVersion
  deriving DecidableEq, Repr

/-- A numeric or state sensor of R561 with its instance. -/
inductive SensorId where
  | junction (die : Fin 10)
  | stackTemp (s : Fin 20)
  | inlet
  | vddCore (die : Fin 4)
  | power
  | diePower (die : Fin 4)
  | lowestWave (die : Fin 4)
  | score
  | throttle
  | corrected
  | uncorrected
  | linkState (port : Fin 82)
  | missed (k : Fin 64)
  deriving DecidableEq, Repr

/-- The commands of the block. Each constructor's comment gives its row's rule and summary. DESIGN CHOICE: log entry 107. -/
inductive Instr where
  /-- POWER_ON, R588: All rails become good, and the device accepts a power-on reset, which is stretched and counted
  as an RST_N reset. Operands: every rail has become good; vbatHeld tells whether the VBAT domain kept its
  contents (R608). -/
  | powerOn (vbatHeld : Bool)
  /-- SUPPLY_DROP, R603: A running rail falls below its threshold for 1 µs and starts a power-on reset with
  SUPPLY_DROP set. Operands: a rail is below its threshold for ns nanoseconds. -/
  | supplyDrop (rail : Rail) (ns : Nat)
  /-- RESET_ACCEPT, R590: A filtered low pulse on RST_N is accepted; the device sends FAIL to its twin, stops issue
  and egress, pulls RST_N low and holds every block in reset. Operands: a low pulse of lowNs; sinceReleaseNs
  counts from the device's own release if it has released; arb is the filter's or arbiter's choice where R589
  and R591 leave one. -/
  | resetAccept (lowNs : Nat) (sinceReleaseNs : Option Nat) (arb : Bool)
  /-- RESET_RELEASE, R590: 2.0–2.2 ms after acceptance the device releases RST_N, and the internal reset ends when
  the net also reads high. Operands: the device's release, with the level the net then shows. -/
  | resetRelease (netHigh : Bool)
  /-- BRINGUP_START, R593: Bring-up begins after reset release and runs its steps: fuses, PLL, probes, PCIe detect,
  controller release, HBM and CXL training. Operands: bring-up begins, finding env. -/
  | bringupStart (env : BringEnv)
  /-- BRINGUP_DONE, R593: Steps 1–8 are complete and the controller is running or awaiting recovery, so DONE sets
  and BRINGUP_DONE is raised. Operands: steps 1 to 8 are complete. -/
  | bringupDone
  /-- REFCLK_A_LOSS, R37: The clock monitor detects loss of REFCLK_A; the device stops core issue, radio egress and
  PHYs, drives the host LTSSM to Detect and holds until RST_N. Operands: the clock monitor detects the loss. -/
  | refclkALoss
  /-- THERMAL_TRIP, R585: A junction reaches 115 °C; THERM_N asserts, FAIL goes to the twin, and core issue and
  radio egress stop until RST_N. Operands: a junction sample. -/
  | thermalTrip (die : Fin 10) (degrees : Nat)
  /-- WAVE_WINDOW_END, R30: A wave-rate monitor completes its 1 µs window and updates WAVE_RATE and WAVE_RATE_MIN; a
  window below 1,550 sets WAVE_LOW, counts an error and reports to the controller. Operands: the window's count;
  readMeets: a read clears WAVE_RATE_MIN in the same access (R14). -/
  | waveWindowEnd (unit : MonitorUnit) (rate : BitVec 16) (readMeets : Bool)
  /-- VDD_CORE_STEP_UP, R30: Within 1 ms of a low-window report, the controller raises the die's VDD_CORE by one
  AVSBus step. Operands: the controller's answer to a low-window report. -/
  | vddCoreStepUp (die : Fin 4)
  /-- VDD_CORE_POLICY, R584: Every 1 ms, the controller sets each compute die's VDD_CORE within power, floor and
  maximum-rate limits. Operands: highest value within power, highest value within 2.3 G waves/s, lowest value
  that keeps the floor (all mV). -/
  | vddCorePolicy (die : Fin 4) (mvPower : Nat) (mvRate : Nat) (mvFloor : Nat)
  /-- AVS_TRANSACTION, R604: An AVSBus request to a regulator completes or fails; three failures in a row set
  AVS_FAULT. Operands: one request and whether the regulator confirmed it. -/
  | avsTransaction (die : Fin 4) (mv : Nat) (ok : Bool)
  /-- REGISTER_WRITE, R13: A host or controller write to a register with no behaviour of its own stores, ignores or
  rejects the value under the access code and the rules for access width and visibility. Operands: size in
  bytes, window offset, data. -/
  | registerWrite (who : Requester) (bytes : Nat) (offset : Nat) (value : BitVec 64)
  /-- REGISTER_READ_CLEAR, R14: A read of an RC register returns its value and clears it, with a concurrent event
  kept. Operands: event: a value that arrives during the read (R14). -/
  | registerReadClear (who : Requester) (bytes : Nat) (offset : Nat) (event : Option (BitVec 32))
  /-- COUNTER_LATCH_READ, R130: A read of the lower half of a 64-bit counter latches the upper half for the next
  read. Operands: a 32-bit read of one half of a 64-bit counter. -/
  | counterLatchRead (who : Requester) (offset : Nat)
  /-- INT_STATUS_CLEAR, R409: A W1C write to INT_STATUS clears event bits, and the interrupt message is sent again
  if the condition still holds. Operands: event: bits the device sets in the same access (R14). -/
  | intStatusClear (who : Requester) (page : Page) (value : BitVec 32) (event : BitVec 32)
  /-- INT_FORCE_WRITE, R51: A write to INT_FORCE sets the matching INT_STATUS bits as though the events had
  occurred. -/
  | intForceWrite (who : Requester) (page : Page) (value : BitVec 32)
  /-- SOFT_RESET, R47: A write of SOFT_RESET resets the block's own registers, clears ENABLE, FREEZE and INT_STATUS,
  and discards the block's work, or is refused under the block's conditions. Operands: the value written to
  CONTROL, bit 0 set. -/
  | softReset (who : Requester) (page : Page) (value : BitVec 32)
  /-- SOFT_RESET_DONE, R47: The block's reset completes, and the device clears SOFT_RESET. -/
  | softResetDone (page : Page)
  /-- ENABLE_WRITE, R627: A write of CONTROL.ENABLE asks the block to start or stop operating. -/
  | enableWrite (who : Requester) (page : Page) (on : Bool)
  /-- BLOCK_OPERATING, R627: After any start-up work, the block operates and STATUS.ENABLED reads 1. -/
  | blockOperating (page : Page)
  /-- BLOCK_STOPPED, R627: The block has stopped taking work after ENABLE was cleared, and ENABLED reads 0. -/
  | blockStopped (page : Page)
  /-- FREEZE_WRITE, R627: A write of CONTROL.FREEZE asks the block to hold after its current unit of work, or
  resumes it at once. -/
  | freezeWrite (who : Requester) (page : Page) (on : Bool)
  /-- BLOCK_FROZEN, R628: The block has finished its unit of work, abandoned blocked waits and stopped its slots,
  and FROZEN reads 1. -/
  | blockFrozen (page : Page)
  /-- SCALAR_INSTRUCTION, R135: The control processor executes a scalar arithmetic instruction, trapping on illegal
  encodings or a divide by zero. -/
  | scalarInstruction (c : Fin 160) (insn : ScalarInsn)
  /-- BRANCH_INSTRUCTION, R132: The control processor executes a branch, a jump or an indirect jump. -/
  | branchInstruction (c : Fin 160) (insn : BranchInsn)
  /-- LD, R152: A scalar load reads the scratchpad and traps DATA_UE on an unwritten or uncorrectable word.
  A signal core's raw load reads its data memory (R191, R198). -/
  | ld (place : ScalarPlace) (width : ScalarWidth) (signed : Bool) (rd : Fin 32)
  /-- ST, R162: A scalar store writes the scratchpad; a partial ECC word over unwritten data traps DATA_UE. A signal core's raw store writes
  its data memory (R198). -/
  | st (place : ScalarPlace) (width : ScalarWidth) (rs : Fin 32)
  /-- VLD, R152: A vector load moves a register and its scale companion from the scratchpad, delivering
  uncorrectable Z blocks poisoned. -/
  | vld (c : Fin 160) (vd : Fin 32) (ga gb : Fin 32) (lane : Lane) (rsvd : BitVec 8)
  /-- VST, R152: A vector store writes a register and its companion to the scratchpad. -/
  | vst (c : Fin 160) (vs : Fin 32) (ga gb : Fin 32) (lane : Lane) (rsvd : BitVec 8)
  /-- VECTOR_ELEMENTWISE, R149: A class 0x24 elementwise vector operation forms result blocks exactly and stores
  them by R81. -/
  | vectorElementwise (op : VecElem) (regs : VecRegs)
  /-- VECTOR_SHIFT_COMPARE, R150: A class 0x25 vector shift, compare, select, min or max runs. -/
  | vectorShiftCompare (op : VecShiftCmp) (regs : VecRegs)
  /-- VECTOR_REDUCE, R151: A class 0x26 in-register reduction adds in a fixed pairwise tree. -/
  | vectorReduce (op : VecRed) (regs : RedRegs)
  /-- VECTOR_REQUANTIZE, R149: A class 0x27 requantize, convert, widen or narrow runs. -/
  | vectorRequantize (c : Fin 160) (op : VecConv) (vd va vb : Fin 32) (lane : Lane) (target : Lane)
  /-- VPOLY, R153: VPOLY evaluates a piecewise polynomial on each I32 lane from a scratchpad table. -/
  | vpoly (c : Fin 160) (vd va : Fin 32) (gb : Fin 32)
  /-- VECTOR_PERMUTE, R150: A class 0x29 permute, broadcast, interleave or de-interleave runs. -/
  | vectorPermute (op : VecPerm) (regs : VecRegs)
  /-- VECTOR_MOVE, R150: A class 0x2A move between general registers and lanes runs. -/
  | vectorMove (c : Fin 160) (op : VecMove) (lane : Lane)
  /-- ISSUE_ARRAY_PASS, R137: ISSUE copies and checks an array-pass descriptor and queues it, trapping on the first
  failed check. -/
  | issueArrayPass (c : Fin 160) (w : IssueWord)
  /-- ISSUE_TILE_LOAD, R147: ISSUE copies and checks a tile-load descriptor and queues it on the array. -/
  | issueTileLoad (c : Fin 160) (w : IssueWord)
  /-- ISSUE_STREAM, R156: ISSUE queues a stream descriptor on a stream slot. -/
  | issueStream (c : Fin 160) (w : IssueWord)
  /-- ISSUE_FABRIC, R447: ISSUE queues a fabric descriptor on the core's fabric engine. -/
  | issueFabric (c : Fin 160) (w : IssueWord)
  /-- ISSUE_CODING, R213: ISSUE queues a coding descriptor, trapping if the partition owns no engine of its kind. -/
  | issueCoding (c : Fin 160) (w : IssueWord)
  /-- ARRAY_PASS_START, R95: An array pass reaches its wave 0: the KINDEX order is tested, SWAP takes effect and
  rows enter the array. Operands: the next pass whose lowest member is array reaches wave 0; defects are the
  cells (array × 8,192 + row × 64 + column) with a defect that nothing has found yet (R630). -/
  | arrayPassStart (c : Fin 160) (array : Fin 4) (defects : List Nat)
  /-- ARRAY_PASS_DONE, R96: The last output of the pass is written, and its tag becomes done and the counters
  advance. Operands: its last output is written; stalls holds each array's own waits, in ns (R97). -/
  | arrayPassDone (c : Fin 160) (array : Fin 4) (stalls : List Nat)
  /-- TILE_LOAD_START, R100: The weight feeder begins writing the shadow tile once any pending swap has taken
  effect. -/
  | tileLoadStart (c : Fin 160) (array : Fin 4)
  /-- TILE_LOAD_DONE, R100: The shadow tile is loaded with the load's pairing, and the command completes. -/
  | tileLoadDone (c : Fin 160) (array : Fin 4)
  /-- ARRAY_FENCE, R114: An array or weight feeder is fenced; passes in flight complete poisoned, and the forced
  gang is recomputed. Operands: the cells of an array, or its weight feeder. -/
  | arrayFence (c : Fin 160) (array : Fin 4) (feeder : Bool)
  /-- SKEW_PROBE_START, R123: A write of SKEW_PROBE.START on a frozen core starts a probe of the selected arrays, or
  is rejected. Operands: the value written to SKEW_PROBE. -/
  | skewProbeStart (who : Requester) (c : Fin 160) (value : BitVec 32)
  /-- SKEW_PROBE_DONE, R121: A probe completes, leaving tiles and banks empty, fencing arrays that failed, and
  setting PROBE_DONE. Operands: arrays that failed and the first mismatching output. -/
  | skewProbeDone (c : Fin 160) (failed : BitVec 4) (detail : BitVec 32)
  /-- ROW_REPAIR_WRITE, R123: A write to ROW_REPAIR on a frozen core changes volatile row repairs and starts a
  probe, or is rejected. -/
  | rowRepairWrite (who : Requester) (c : Fin 160) (array : Fin 4) (value : BitVec 32)
  /-- COL_REPAIR_WRITE, R128: A write to COL_REPAIR on a frozen core changes volatile column repairs and starts a
  probe, or is rejected. -/
  | colRepairWrite (who : Requester) (c : Fin 160) (array : Fin 4) (value : BitVec 32)
  /-- STREAM_SLOT_START, R155: A stream slot begins running its next queued descriptor. -/
  | streamSlotStart (c : Fin 160) (slot : Fin 16)
  /-- STREAM_LINE_MOVED, R157: A slot moves one 64-byte line between memory and its ring once ring space or a
  released line allows. -/
  | streamLineMoved (c : Fin 160) (slot : Fin 16)
  /-- STREAM_SLOT_DONE, R141: The slot writes its last line, and its tag completes OK. -/
  | streamSlotDone (c : Fin 160) (slot : Fin 16)
  /-- STREAM_HALT, R158: An uncorrectable raw read or a translation or access fault halts the slot, records the
  cause and completes the tag with ENGINE_ERROR. -/
  | streamHalt (c : Fin 160) (slot : Fin 16)
  /-- SEMACQ, R164: SEMACQ takes a free lock or a counter above 0, or blocks until grant or deadline, trapping on
  owner or limit errors. -/
  | semacq (a : Agent) (w : SyncWord)
  /-- SEMREL, R164: SEMREL frees a lock held by its owner or adds COUNT to a counter. -/
  | semrel (a : Agent) (gd gs : Fin 32) (count : BitVec 8) (rsvd : BitVec 8)
  /-- SEMTRY, R164: SEMTRY acquires without waiting and returns BUSY if not granted. -/
  | semtry (a : Agent) (w : SyncWord)
  /-- SEMSET, R164: SEMSET sets a semaphore's kind and count, or returns VALUE_RANGE or BUSY. -/
  | semset (a : Agent) (w : SyncWord)
  /-- SEMAPHORE_GRANT, R164: A blocked acquirer is granted a lock or count in arrival order, with OWNER_ABORTED
  after an abort. Operands: the grant to the waiter in front; arb: the grant comes before the waiter's deadline
  where both meet (R172). -/
  | semaphoreGrant (sem : Fin 65536) (arb : Bool)
  /-- WAIT, R169: WAIT completes at once if its tag, range or stream threshold event has arrived, or blocks. -/
  | wait (a : Agent) (w : SyncWord)
  /-- WAIT_EVENT_ARRIVAL, R172: The awaited event reaches a blocked wait, which completes OK if granted first by the
  arbiter. -/
  | waitEventArrival (a : Agent)
  /-- WAIT_DEADLINE, R172: A blocked wait's deadline passes and the wait completes with TIMEOUT or
  TIMEOUT_LATE_ARRIVAL, as the event has not or has arrived (R170). -/
  | waitDeadline (a : Agent)
  /-- FENCE, R171: FENCE blocks until earlier accesses are complete to its scope. -/
  | fence (a : Agent) (gd : Fin 32) (scope : Fin 8) (gt : Fin 32) (cp : Fin 1024) (rsvd : BitVec 3)
  /-- FENCE_COMPLETE, R463: The fence's conditions hold, including zero counts and returned seals for FABRIC scope,
  and it completes OK. -/
  | fenceComplete (a : Agent)
  /-- SREL, R157: SREL returns ring lines to a stream slot or signal-core channel. -/
  | srel (a : Agent) (w : SyncWord)
  /-- CPMARK, R178: CPMARK is a no-op, or with a preemption pending the core stops issue, stops streams and starts
  the save of its live state. -/
  | cpmark (c : Fin 160) (id : BitVec 16) (rsvd : BitVec 6)
  /-- CHEAP_SAVE_DONE, R178: The save engine has spilled the live state, sets SAVE_DONE and releases the core. -/
  | cheapSaveDone (c : Fin 160)
  /-- RDTIME, R186: RDTIME writes device time as nanoseconds to a register. -/
  | rdtime (c : Agent) (rd : Fin 32)
  /-- RDFLAGS, R186: RDFLAGS reads CORE.ARITH_FLAGS into a register. -/
  | rdflags (c : Agent) (rd : Fin 32)
  /-- CLRFLAGS, R186: CLRFLAGS clears selected arithmetic flags. -/
  | clrflags (c : Agent) (imm : BitVec 16)
  /-- BRK, R186: BRK traps with cause BREAK. -/
  | brk (c : Agent) (imm : BitVec 16)
  /-- HALT, R186: HALT stops the core once its commands complete and frees its locks; the context ends when all its
  cores have halted. -/
  | halt (c : Agent)
  /-- RDWAVE, R186: RDWAVE reads the core's WAVE_RATE into a register. -/
  | rdwave (c : Agent) (rd : Fin 32)
  /-- DEFERRED_TRAP, R183: An engine detects a cause after issue; the core stops at the next boundary, and queued
  commands of that engine complete with ENGINE_ERROR. Operands: the first recorded deferred cause stops the core
  at its instruction boundary. -/
  | deferredTrap (c : Fin 160)
  /-- TRAP_RESUME, R185: TRAP_ACTION RESUME reruns the trapping instruction or continues at TRAP_STOP_PC. -/
  | trapResume (who : Requester) (c : Fin 160)
  /-- TRAP_SKIP, R185: TRAP_ACTION SKIP continues after the trapping instruction. -/
  | trapSkip (who : Requester) (c : Fin 160)
  /-- TRAP_ABORT, R185: TRAP_ACTION ABORT ends the context on all its cores and frees its locks. -/
  | trapAbort (who : Requester) (c : Fin 160)
  /-- SIGC_ENABLE, R190: Setting SIGC ENABLE starts the signal core's program at address 0, and clearing it ends the
  program at the next boundary. -/
  | sigcEnable (who : Requester) (k : Fin 64) (on : Bool)
  /-- CMAC, R194: CMAC, CMACJ or RMAC multiply d registers lane by lane into an accumulator with alignment and
  saturation. -/
  | cmac (k : Fin 64) (op : MacOp) (acc : Fin 8) (da db : Fin 64)
  /-- TAPM, R199: TAPM or TAPMB performs one filter tap and moves the delay-line sample. Operands: lane0 tells
  TAPMB. -/
  | tapm (k : Fin 64) (lane0 : Bool) (acc : Fin 8) (ac ax : Fin 16)
  /-- SST, R196: SST writes an accumulator into a d register by a fixed shift or normalized. -/
  | sst (k : Fin 64) (acc : Fin 8) (dd : Fin 64) (form : SstForm)
  /-- ACLR, R194: ACLR empties an accumulator and clears its poison bit. -/
  | aclr (k : Fin 64) (acc : Fin 8)
  /-- ZLD, R193: ZLD loads a line and its tag into a d register, poisoned if unwritten or uncorrectable. Operands:
  post-modify step. -/
  | zld (k : Fin 64) (dd : Fin 64) (a : Fin 16) (post : BitVec 64)
  /-- ZST, R193: ZST stores a d register and its exponent as a line and tag. -/
  | zst (k : Fin 64) (ds : Fin 64) (a : Fin 16) (post : BitVec 64)
  /-- LOOP, R202: LOOP opens a hardware loop level, trapping LOOP_NEST on bad nesting. -/
  | loop (k : Fin 64) (level : Fin 3) (count : LoopCount) (last : BitVec 16)
  /-- LSAVE, R206: LSAVE writes the 48-byte loop image and clears loop state and LOOPHOLD. -/
  | lsave (k : Fin 64) (a : Fin 16)
  /-- LRESTORE, R206: LRESTORE reads the loop image back and sets LOOPHOLD, trapping LOOP_STATE on a bad image. -/
  | lrestore (k : Fin 64) (a : Fin 16)
  /-- RETI, R206: RETI restores priority, clears LOOPHOLD, sets IE and resumes at ipc. -/
  | reti (k : Fin 64)
  /-- EI, R207: EI sets IE to let higher-priority events in. -/
  | ei (k : Fin 64)
  /-- DI, R207: DI clears IE. -/
  | di (k : Fin 64)
  /-- ALARM, R209: ALARM arms an alarm of the signal core for a device time. -/
  | alarm (k : Fin 64) (n : Fin 2) (a : Fin 16)
  /-- ALARM_FIRE, R203: Device time reaches an armed alarm, which raises its event source. -/
  | alarmFire (k : Fin 64) (n : Fin 2)
  /-- DOORBELL_RING, R211: A write of 1 to SIGC.DOORBELL raises event source 4. -/
  | doorbellRing (who : Requester) (k : Fin 64) (value : BitVec 32)
  /-- INTERRUPT_TAKEN, R205: A pending event of higher priority is taken at a boundary: ipc and iprio are saved, IE
  clears, LOOPHOLD sets and the handler is entered. -/
  | interruptTaken (k : Fin 64)
  /-- SIGC_DMA_START, R192: A signal-core DMA channel begins a descriptor, halting with DESCRIPTOR on a bad block
  size. Operands: data-memory address of the 64-byte descriptor. -/
  | sigcDmaStart (k : Fin 64) (ch : Fin 2) (addr : BitVec 19)
  /-- SIGC_DMA_LINE, R192: A DMA channel moves one line between memory and the data-memory ring. -/
  | sigcDmaLine (k : Fin 64) (ch : Fin 2)
  /-- SIGC_DMA_DONE, R203: A DMA channel completes and raises its event source. -/
  | sigcDmaDone (k : Fin 64) (ch : Fin 2)
  /-- SIGC_DMA_HALT, R192: A DMA channel halts on an error, records it and raises its event source. -/
  | sigcDmaHalt (k : Fin 64) (ch : Fin 2)
  /-- SIGC_TRAP_RESUME, R210: SIGC.TRAP_ACTION RESUME reruns the signal core's trapping instruction. -/
  | sigcTrapResume (who : Requester) (k : Fin 64)
  /-- SIGC_TRAP_SKIP, R210: SIGC.TRAP_ACTION SKIP continues after the trapping instruction. -/
  | sigcTrapSkip (who : Requester) (k : Fin 64)
  /-- SIGC_TRAP_ABORT, R210: SIGC.TRAP_ACTION ABORT frees the program's locks and ends it as HALT does. -/
  | sigcTrapAbort (who : Requester) (k : Fin 64)
  /-- CODING_QUEUE_ADMIT, R214: A coding descriptor drains from a core's queue into its partition's coding queue
  once it has room. -/
  | codingQueueAdmit (c : Fin 160)
  /-- CODING_DESCRIPTOR_START, R215: A free engine takes the earliest-tidemark descriptor of its kind, or completes
  it LATE if the tidemark has passed. Operands: ownerWriteFirst: an owner write that meets the start is taken
  first (R218, R26). -/
  | codingDescriptorStart (engine : CodingEngine) (ownerWriteFirst : Bool)
  /-- CODING_DESCRIPTOR_DONE, R217: The engine writes outputs, HARQ buffers and status, and the tag completes by
  outcome. -/
  | codingDescriptorDone (engine : CodingEngine)
  /-- CODE_OWNER_WRITE, R218: A write to a coding-engine owner register takes effect at the engine's next descriptor
  boundary. -/
  | codeOwnerWrite (who : Requester) (engine : CodingEngine) (value : BitVec 32)
  /-- MEMORY_READ, R237: A read reaches its home memory-side die, is translated, and is served from cache, HBM or
  bulk tier, delivered poisoned if uncorrectable. Operands: a 64-byte read. -/
  | memoryRead (part : Fin 64) (addr : BitVec 64) (hint : CacheHint) (agent : MemAgent)
  /-- MEMORY_WRITE, R631: A write reaches its home and is performed, partial codewords by read, merge and write. -/
  | memoryWrite (part : Fin 64) (addr : BitVec 64) (data : List Byte) (agent : MemAgent)
  /-- BULK_LINK_DOWN, R245: A bulk port in the set leaves link-up; its units become unreachable and LINK_DOWN sets. -/
  | bulkLinkDown (p : Fin 8)
  /-- BUFFER_WAYS_WRITE, R251: A write to MSID.BUFFER_WAYS changes buffer ways, or is rejected with BUFFER_IN_USE. -/
  | bufferWaysWrite (who : Requester) (m : Fin 4) (value : BitVec 32)
  /-- OBJECT_DECLARE, R254: The command checks and maps a new object within its partition's allotment. -/
  | objectDeclare (q : CmdRef) (data : HostData)
  /-- OBJECT_RELEASE, R256: The command unmaps an object unless a running sluice list or FILL uses it. -/
  | objectRelease (q : CmdRef) (object : BitVec 16)
  /-- OBJECT_MOVE, R256: The command starts copying an object to another tier page by page. -/
  | objectMove (q : CmdRef) (object : BitVec 16) (tier : Fin 4)
  /-- OBJECT_PAGE_MOVED, R256: The copy of one 2 MiB page finishes, and its translation entry switches. -/
  | objectPageMoved (part : Fin 64)
  /-- LOAD_OBJECT, R255: The long operation loads data into an object, such as a compressed object's coded units. -/
  | loadObject (q : CmdRef) (kind : LoadKind) (data : HostData)
  /-- LOAD_OBJECT_STATE, R381: LOAD_OBJECT of kind partition state imports a state blob into a disabled partition
  and enables it. -/
  | loadObjectState (q : CmdRef) (data : HostData)
  /-- FILL, R276: The long operation writes a pattern with valid check bits over a range or a core memory. -/
  | fill (q : CmdRef) (target : FillTarget) (pattern : BitVec 64)
  /-- LONG_OP_CHUNK, R405: One chunk of a long operation completes; the progress word is written and an interim
  completion may be posted. Operands: the next chunk of a long operation ends, covering bytes. -/
  | longOpChunk (part : Fin 64) (sq : Nat) (cmd : BitVec 16) (bytes : Nat)
  /-- HEAT_EPOCH, R258: At the end of each heat epoch, every HEAT value is halved. -/
  | heatEpoch (part : Fin 64)
  /-- HEAT_MOVE, R258: A heat candidate or victim page begins moving between HBM and the bulk tier. -/
  | heatMove (part : Fin 64)
  /-- HEAT_MOVE_DONE, R258: A heat-placement move completes and HEAT_MOVES counts it. -/
  | heatMoveDone (part : Fin 64)
  /-- SLUICE_START, R266: The command starts a sluice list on a free engine, or fails for limits or a radio
  partition. -/
  | sluiceStart (q : CmdRef) (list : BitVec 64)
  /-- SLUICE_STOP, R267: The command stops a list at its next entry boundary, abandoning any fill in progress. -/
  | sluiceStop (q : CmdRef) (list : BitVec 64)
  /-- SLUICE_PREFETCH, R267: After acquiring PACE, a sluice engine brings a prefetch entry's range into the cache
  with the keep hint. -/
  | sluicePrefetch (engine : Fin 64)
  /-- SLUICE_FILL_START, R267: After acquiring a slot's free semaphore, a sluice engine starts copying and decoding
  a layer into the slot. -/
  | sluiceFillStart (engine : Fin 64)
  /-- SLUICE_FILL_DONE, R268: Every unit of a fill is present and valid, so the gate is released with CONSUMERS
  counts. -/
  | sluiceFillDone (engine : Fin 64)
  /-- RESOURCE_DONE, R272: A replica delivers a poisoned unit, which is written back, and the held reads receive
  good data. Operands: the replica's 4 KiB; whether the write-back fails again (R274). -/
  | resourceDone (part : Fin 64) (unit : BitVec 64) (source : ReplicaSource) (data : List Byte) (writeFails : Bool)
  /-- RESOURCE_TIMEOUT, R273: The replica fails to deliver within 10 ms; the unit is lost and held reads are
  delivered poisoned. Operand: the replica has delivered the unit with its own error. -/
  | resourceTimeout (part : Fin 64) (unit : BitVec 64) (error : Bool)
  /-- CELL_START, R285: The command checks a cell record and starts the cell, or fails with CELL_PARAM or CELL_BUSY. -/
  | cellStart (q : CmdRef)
  /-- CELL_STOP, R286: The command stops a cell at its next slot boundary. -/
  | cellStop (q : CmdRef) (cell : Fin 384)
  /-- SLOT, R289: A slot command arrives and is accepted if it meets the acceptance limit, or completes
  SLOT_CMD_LATE. Operands: the 32-byte header where DATA_LOC is 0, the task list, and R26's order at the
  acceptance limit. -/
  | slot (q : CmdRef) (data : HostData) (tasks : List SlotTask) (arb : Bool)
  /-- SLOT_BOUNDARY, R287: A cell's slot boundary is reached in device time; stops, drains and standby holds take
  effect. -/
  | slotBoundary (k : Fin 64) (cell : Fin 384)
  /-- CAL_COOLANT_STALE, R307: The inlet has exceeded the soak inlet by 5 °C for 10 s, and the partition enters
  CAL_STALE. -/
  | calCoolantStale (k : Fin 64)
  /-- CAL_IMPORT, R305: The command verifies and imports a soak record, entering SOAKED or failing
  CAL_RECORD_INVALID. -/
  | calImport (q : CmdRef) (k : Fin 64) (record : SoakRecord)
  /-- TIDEMARK_MISS, R310: A task's tidemark passes before it completes; RADIO_MISS is raised, blocks are reported
  as CRC failures, and symbols are not sent. -/
  | tidemarkMiss (k : Fin 64) (cell : Fin 384) (frame : Nat) (slot : Nat) (task : Nat)
  /-- SLOT_COMPLETE, R290: A slot command's tasks are done, and it completes with the first applicable status.
  Operands: device time its tasks took and poisoned uplink PRBs met. -/
  | slotComplete (k : Fin 64) (cell : Fin 384) (frame : Nat) (slot : Nat) (taskNs : Nat) (poisonPrbs : Nat)
  /-- UPLANE_HANDOFF, R297: At air(n, s) − T1A_MAX_UP, a downlink symbol's U-plane is handed to the traffic manager.
  Operands: whether the symbol is ready, and its blocks as the downlink stages left them. -/
  | uplaneHandoff (k : Fin 64) (cell : Fin 384) (frame : Nat) (slot : Nat) (symbol : Fin 14) (ready : Bool) (blocks : List EgressBlock)
  /-- UPLANE_WINDOW_CLOSE, R298: The uplink arrival window closes; missing PRBs are erased, and the ingress event is
  raised. Operands: the eAxC by position, and the PRBs the C-plane named for it. -/
  | uplaneWindowClose (k : Fin 64) (cell : Fin 384) (frame : Nat) (slot : Nat) (symbol : Fin 14) (eaxc : Fin 128) (named : List Nat)
  /-- SURGE_CLAIM, R300: The scheduler issues a claim for a surge core from the donor candidates. -/
  | surgeClaim (k : Fin 64) (cell : Fin 384) (frame : Nat) (slot : Nat)
  /-- SURGE_CORE_READY, R301: A claimed core has spilled its donor context and loaded the radio program. -/
  | surgeCoreReady (c : Fin 160)
  /-- CLAIM_LATE, R302: A claim is not ready after 60 µs; it is counted, and a second candidate is claimed. -/
  | claimLate (c : Fin 160)
  /-- SURGE_RETURN, R303: A surge core's last task of the slot completes, and it returns to its donor. -/
  | surgeReturn (c : Fin 160)
  /-- SELFTEST_ADMIT, R552: SELFTEST class ADMIT probes and tests every array, memory, engine and PCS, and leaves
  memories zeroed. -/
  | selftestAdmit (q : CmdRef) (env : SelftestEnv)
  /-- SELFTEST_SOAK, R305: SELFTEST class SOAK loads all cores at the power limit and returns a signed soak record.
  Operands: the readings of the soak. -/
  | selftestSoak (q : CmdRef) (seconds : Nat) (record : SoakRecord)
  /-- SERVE_GROUP, R327: The command declares or changes a serving group with its core sets and mappings. -/
  | serveGroup (q : CmdRef) (data : HostData)
  /-- STREAM_OPEN, R319: The command checks a stream record and moves a FREE stream to QUEUED. -/
  | streamOpen (q : CmdRef) (data : HostData)
  /-- STREAM_CLOSE, R323: The command ends a stream at its next step boundary, keeping prefix pages if asked. -/
  | streamClose (q : CmdRef)
  /-- STREAM_HOLD, R319: The command sets the stream's HOST hold at its next step boundary. -/
  | streamHold (q : CmdRef)
  /-- STREAM_RELEASE, R319: The command clears the stream's HOST hold at its next step boundary. -/
  | streamRelease (q : CmdRef)
  /-- STREAM_QUERY, R320: The command returns the stream record as read at one step boundary. -/
  | streamQuery (q : CmdRef)
  /-- KV_BIND, R324: The command ties the partition's KV range to a page pool object. -/
  | kvBind (q : CmdRef) (object : BitVec 16) (layerBytes layers : Nat)
  /-- KV_RELEASE, R326: The command frees a shared KV page. -/
  | kvRelease (q : CmdRef) (entry : Nat)
  /-- RESHARD, R337: The long operation moves a DECODE stream's pages to another group or layout. -/
  | reshard (q : CmdRef) (stream : BitVec 16) (group : Fin 8)
  /-- PREFILL_STEP_COMPOSE, R331: At a prefill boundary, the composer admits QUEUED and PREFILL streams in ADMIT
  order within the token budget. -/
  | prefillStepCompose (k : Fin 64) (g : Fin 8)
  /-- DECODE_STEP_COMPOSE, R331: At a decode microbatch boundary, the composer builds the batch and allocates KV
  pages or sets KV holds. -/
  | decodeStepCompose (k : Fin 64) (g : Fin 8) (mb : Fin 64)
  /-- SERVE_STEP_DONE, R321: A serving step completes; STEP and POSITION advance, tokens are sampled, records
  emitted and streams end or move to RESHARD. -/
  | serveStepDone (k : Fin 64) (g : Fin 8) (step : ServeStep) (rows : List LogitRow)
  /-- RESHARD_PAGE, R334: A reshard engine copies one page from the wide to the deep layout, taking a new entry and
  freeing the old. -/
  | reshardPage (k : Fin 64) (stream : Fin 65536)
  /-- RESHARD_DONE, R334: A stream's reshard completes with its hidden row moved, and it enters DECODE. -/
  | reshardDone (k : Fin 64) (stream : Fin 65536)
  /-- TOKEN_RECORD_ACCEPTED, R346: A token record's completion entry is written or its frame queued, clearing the
  stream's OUTPUT hold. Operand: the address of the record's CQ translates (R411). -/
  | tokenRecordAccepted (stream : Fin 65536) (translates : Bool)
  /-- PART_ENABLE, R352: A write of PART ENABLE = 1 checks the partition against all others and enables it or
  records the fault. -/
  | partEnable (who : Requester) (k : Fin 64)
  /-- CTX_ACTIVATE, R359: ACTIVATE checks an EMPTY context's record and makes it READY. -/
  | ctxActivate (who : Requester) (k : Fin 64) (ctx : Fin 256)
  /-- CTX_SUSPEND, R359: SUSPEND makes a context SUSPENDED, or SUSPENDING until its cores stop. -/
  | ctxSuspend (who : Requester) (k : Fin 64) (ctx : Fin 256)
  /-- CTX_RESUME, R359: RESUME makes a SUSPENDED context READY, with its VTIME raised. -/
  | ctxResume (who : Requester) (k : Fin 64) (ctx : Fin 256)
  /-- CTX_DESTROY, R359: DESTROY ends a context as ABORT does and makes it EMPTY. -/
  | ctxDestroy (who : Requester) (k : Fin 64) (ctx : Fin 256)
  /-- SLICE_END, R366: A context's slice expires, and the scheduler chooses again and may request preemption. -/
  | sliceEnd (k : Fin 64) (ctx : Fin 256)
  /-- PREEMPT_DELIVERED, R369: A preemption request reaches a core and is taken at its next cheap point. -/
  | preemptDelivered (c : Fin 160)
  /-- FORCED_PREEMPT, R367: No cheap point is taken 100 µs after delivery, so the core stops its engines and saves
  its full state. -/
  | forcedPreempt (c : Fin 160)
  /-- FORCED_SAVE_DONE, R367: The full state is saved, the core is released, and PREEMPT_FORCED counts it. -/
  | forcedSaveDone (c : Fin 160)
  /-- CONTEXT_START, R361: A context starts on its released cores, loading instruction memory and registers and
  restoring any saved state. -/
  | contextStart (k : Fin 64) (ctx : Fin 256)
  /-- CONTEXT_RESTORE_DONE, R368: The context's restore or first start completes, and it runs. -/
  | contextRestoreDone (c : Fin 160)
  /-- DONATION_START, R370: A context blocks on a lock of a force-preempted owner, which then runs a donated slice.
  Operands: the core that blocks in SEMACQ. -/
  | donationStart (c : Fin 160)
  /-- RESIZE_START, R376: A write of RESIZE.START refuses or begins changing the partition's cores and signal cores. -/
  | resizeStart (who : Requester) (k : Fin 64)
  /-- RESIZE_DONE, R376: Removed cores have been saved or returned, and the resize completes with RESIZE_DONE. -/
  | resizeDone (k : Fin 64)
  /-- ALLOT_WRITE, R377: A write to HBM_ALLOT or BULK_ALLOT changes the allotment or is refused. -/
  | allotWrite (who : Requester) (k : Fin 64) (bulk : Bool) (value : BitVec 32)
  /-- DIRTY_ATOMIC_COMPLETION, R379: A dirty-log CompareAndSwap completes; a failure stops logging and sets
  ATOMIC_FAIL. -/
  | dirtyAtomicCompletion (k : Fin 64) (ok : Bool)
  /-- EXPORT_STATE, R380: The long operation stops a partition and writes its encrypted state blob to host memory. -/
  | exportState (q : CmdRef)
  /-- PCIE_LINK_DOWN, R384: The host link goes down; work continues while completions and interrupts wait. -/
  | pcieLinkDown
  /-- PCIE_LINK_UP, R384: The host link trains, and LINK_CHANGE sets. -/
  | pcieLinkUp (speed : Fin 4) (width : Fin 17) (flit : Bool)
  /-- PCIE_CONFIG_REQUEST, R593: A configuration request is completed, or retried before L0. -/
  | pcieConfigRequest (fn : Fin 256) (register : Nat)
  /-- SQ_TAIL_DOORBELL, R399: A doorbell write with TAIL_VALID advances an SQ tail and stamps arrival, or is ignored
  as a fault. -/
  | sqTailDoorbell (fn : Fin 256) (sq : SqRef) (low : BitVec 32) (secure : Bool)
  /-- CQ_HEAD_DOORBELL, R401: A doorbell write with HEAD_VALID advances a CQ head, freeing room for waiting
  completions. -/
  | cqHeadDoorbell (fn : Fin 256) (sq : SqRef) (high : BitVec 32) (secure : Bool)
  /-- WINDOW_READ, R386: A host read through the memory window is translated and served, or completes UR or
  poisoned. Operands: secure: arrives on the TDI's IDE stream with the T bit set (R413). -/
  | windowRead (fn : Fin 256) (off : Nat) (len : Nat) (secure : Bool)
  /-- WINDOW_WRITE, R387: A posted host write through the memory window is translated and written, or discarded. -/
  | windowWrite (fn : Fin 256) (off : Nat) (data : List Byte) (secure : Bool)
  /-- WINDOW_ATOMIC, R387: A host AtomicOp through the memory window is performed at the word's home. -/
  | windowAtomic (fn : Fin 256) (off : Nat) (op : WindowAtomicOp) (wide : Bool) (operand compare : BitVec 64) (secure : Bool)
  /-- SQ_ENTRY_FETCH, R392: The queue manager fetches a submission entry by class and weighted round robin and
  dispatches it. Operands: admin: the admin SQ is served where it and numbered SQs have entries; entry: the 64
  bytes fetched. -/
  | sqEntryFetch (admin : Bool) (entry : BitVec 512)
  /-- NOP, R398: NOP completes with success. -/
  | nop (q : CmdRef)
  /-- CANCEL, R407: CANCEL stops a long operation of the same SQ at its next chunk boundary. Operands: cancelFirst:
  R26's order where the operation ends at the same moment. -/
  | cancel (q : CmdRef) (cancelFirst : Bool)
  /-- CREATE_SQ, R390: The command creates a submission queue, or fails with QUEUE_PARAM or QUEUE_BUSY. -/
  | createSq (q : CmdRef)
  /-- CREATE_CQ, R390: The command creates a completion queue. -/
  | createCq (q : CmdRef)
  /-- DELETE_SQ, R391: The command stops fetching, discards unfetched entries and cancels long operations. -/
  | deleteSq (q : CmdRef)
  /-- DELETE_CQ, R391: The command deletes a CQ unless an SQ or stream uses it. -/
  | deleteCq (q : CmdRef)
  /-- COMPLETION_WRITE, R402: A completion entry is written to its CQ once the CQ has room. -/
  | completionWrite (cq : CqRef) (translates : Bool)
  /-- CQ_COALESCE_TIMER, R408: COALESCE_TIME expires on a CQ with unsignalled entries, and its MSI-X message is
  sent. -/
  | cqCoalesceTimer (cq : CqRef)
  /-- MSIX_VECTOR_UNMASK, R410: A masked vector with its pending bit set is unmasked and sends its message. -/
  | msixVectorUnmask (fn : Fin 256) (vector : Fin 4096)
  /-- ROUTE_WRITE, R409: A write to HOST.ROUTE sets a page's interrupt route, or is refused with ROUTE_REJECTED. -/
  | routeWrite (who : Requester) (value : BitVec 32)
  /-- ADMIN_QUEUE_ENABLE, R419: A write of ADMIN_CONTROL.ENABLE starts the PF admin pair, or deletes it when
  cleared. -/
  | adminQueueEnable (who : Requester) (on : Bool)
  /-- ATS_INVALIDATE, R411: An ATS invalidation request completes after accesses that used the translation finish. -/
  | atsInvalidate (fn : Fin 256) (pasid : Option (BitVec 20)) (addr size : BitVec 64)
  /-- IDE_KM_REQUEST, R412: An IDE_KM message over SPDM sets or changes IDE stream keys without losing a TLP.
  Operands: stream 0 is the link stream, 1 to 8 the selective ones. -/
  | ideKmRequest (stream : Fin 9) (msg : IdeKmMsg)
  /-- TDISP_REQUEST, R413: A TDISP message moves a VF's TDI between states, with a ZEROIZE before it leaves locked
  states. -/
  | tdispRequest (fn : Fin 256) (msg : TdispMsg)
  /-- FLR_VF, R414: An FLR of a VF deletes its queues, cancels long operations, suspends contexts and resets MSI-X. -/
  | flrVf (fn : Fin 256)
  /-- FLR_PF, R415: An FLR of the PF does R414 for every VF, deletes PF queues and stops PF-mapped cells. -/
  | flrPf
  /-- FORWARDED_ENTRY_ARRIVE, R416: A forwarded submission entry reaches a member and acts on its REMOTE_SQ. -/
  | forwardedEntryArrive (remoteSq : Fin 1048576) (entry : BitVec 512) (lead : BitVec 12)
  /-- MEMBER_COMPLETION_ARRIVE, R416: A member's completion reaches the lead and is written to the forwarding SQ's
  CQ. -/
  | memberCompletionArrive (sq : Fin 1048576) (id : BitVec 16) (status : BitVec 16) (result : BitVec 128)
  /-- FORWARD_TIMEOUT, R417: A forwarded command has had no completion for 10 ms, so it completes
  MEMBER_UNREACHABLE. -/
  | forwardTimeout (sq : Fin 1048576) (id : BitVec 16)
  /-- MEMBER_READ, R418: The command reads a member's register and returns the value. Operands: the value the
  member's register returns. -/
  | memberRead (q : CmdRef) (value : BitVec 32) (reachable : Bool)
  /-- MEMBER_WRITE, R418: The command writes a member's register. -/
  | memberWrite (q : CmdRef) (reachable : Bool)
  /-- MEMBER_EVENT, R418: An interrupt condition on a member page sets its bit in MEMBER_EVENTS on the lead. -/
  | memberEvent (m : Fin 64)
  /-- TRAIN_START, R429: An Aqzer port enters training phase 0 on enable, retrain, retry limit or level drift. -/
  | trainStart (p : Fin 9) (cause : TrainCause)
  /-- RETRAIN_WRITE, R441: A write of LINK_CONTROL.RETRAIN requests training. -/
  | retrainWrite (who : Requester) (p : Fin 9)
  /-- LEVEL_DRIFT, R429: A lane's received level leaves the frozen level by 3 dB for 1 ms, which starts training. -/
  | levelDrift (p : Fin 9) (lane : Fin 4)
  /-- TRAIN_PHASE_DONE, R429: A training phase meets its exit condition and the next begins; phase 5 brings link up. -/
  | trainPhaseDone (p : Fin 9) (info : TrainInfo)
  /-- TRAIN_PHASE_TIMEOUT, R431: A phase runs past its maximum; training restarts, or fails after three restarts. -/
  | trainPhaseTimeout (p : Fin 9)
  /-- CODEWORD_RX, R428: A lane receives a codeword: FEC corrects or discards it, and its GATE and flit area pass
  on. -/
  | codewordRx (p : Fin 9) (lane : Fin 4) (seq : BitVec 10) (fec : FecResult)
  /-- FLIT_RX, R434: A flit is received: CRC-checked, accepted in FSEQ order, or triggers a NAK. -/
  | flitRx (p : Fin 9) (flit : Flit) (crcOk : Bool)
  /-- FLIT_TX, R435: A port chooses and sends its next flit by VC priority and credits, or a NULL flit. -/
  | flitTx (p : Fin 9)
  /-- FLOW, R437: A FLOW message sets XOFF or XON for a VC at the sender. -/
  | flow (p : Fin 9) (vc : Fin 8) (xoff : Bool)
  /-- QUENCH, R464: A QUENCH message quenches or releases a partition by learning. -/
  | quench (p : Fin 9) (part : Fin 64) (on : Bool)
  /-- SEAL, R460: A SEAL is applied after preceding flits and forwarded along the old path. -/
  | seal (p : Fin 9) (tag : Fin 64) (dest : BitVec 12) (fseq : BitVec 12)
  /-- SEAL_RETURN, R460: A SEAL_RETURN frees its tag and releases flits held at the new output. -/
  | sealReturn (p : Fin 9) (tag : Fin 64) (dest : BitVec 12) (fseq : BitVec 12)
  /-- ACK, R434: An ACK frees replay-buffer flits up to its FSEQ. -/
  | ack (p : Fin 9) (fseq : BitVec 12)
  /-- NAK, R434: A NAK makes the sender go back and resend from its FSEQ, with seals issued after it. -/
  | nak (p : Fin 9) (fseq : BitVec 12)
  /-- CREDIT, R436: A CREDIT message returns link credits for a VC. -/
  | credit (p : Fin 9) (vc : Fin 8) (count : BitVec 10)
  /-- TIME, R468: A TIME message carries transmit or receive times for the span time exchange. Operands: localTime:
  arrival of the codeword's SYNC symbol, same units. -/
  | time (p : Fin 9) (kind : BitVec 6) (value : BitVec 50) (localTime : BitVec 50)
  /-- POWER, R438: A POWER message carries a sleep mask and effective SEQ, or a wake. -/
  | power (p : Fin 9) (mask : BitVec 4) (wake : Bool) (seq : BitVec 10)
  /-- ACK_TIMER, R434: 500 ns or 32 flits pass without an ACK sent, and the receiver sends one. -/
  | ackTimer (p : Fin 9)
  /-- RETRY_LIMIT, R434: A flit has been sent 8 times without an ACK; RETRY_LIMIT is recorded and the port retrains. -/
  | retryLimit (p : Fin 9)
  /-- GATE_STATE_RESEND, R427: Every 256 ns the port resends the state of quenched partitions and XOFF VCs. -/
  | gateStateResend (p : Fin 9)
  /-- LANE_SLEEP, R438: At the effective SEQ, a lane stops carrying flits and ramps off. -/
  | laneSleep (p : Fin 9) (lane : Fin 4)
  /-- LANE_WAKE, R438: A woken lane carries flits again. Operands: errors: the pre-FEC error ratio exceeds 10⁻⁵
  after the wake. -/
  | laneWake (p : Fin 9) (lane : Fin 4) (errors : Bool)
  /-- LANE_REFRESH, R438: A lane asleep 100 ms wakes for 20 µs to refresh its canceller. -/
  | laneRefresh (p : Fin 9) (lane : Fin 4)
  /-- TIME_EXCHANGE_TX, R467: Every 1 µs, lane 0 of each link sends TIME messages. -/
  | timeExchangeTx (p : Fin 9)
  /-- LOAD, R446: A fabric LOAD request is performed at its home and returns data. -/
  | load (pkt : Packet)
  /-- STORE, R446: A fabric STORE is performed or absorbed at its home and answered. -/
  | store (pkt : Packet)
  /-- ATOMIC, R446: A fabric ATOMIC is performed at the word's home and returns the old value. -/
  | atomic (pkt : Packet)
  /-- ATOMIC_NR, R446: A fabric ATOMIC_NR is performed at the home without return. -/
  | atomicNr (pkt : Packet)
  /-- REDUCE, R446: A REDUCE combines a Z-format line into memory, or is gathered by fixed tree in strict mode. -/
  | reduce (pkt : Packet)
  /-- MCAST_STORE, R446: A multicast store is performed at each target member. -/
  | mcastStore (pkt : Packet)
  /-- DMA_READ, R446: A fabric DMA read returns data. -/
  | dmaRead (pkt : Packet)
  /-- DMA_WRITE, R446: A fabric DMA write is performed at the home. -/
  | dmaWrite (pkt : Packet)
  /-- READ_S, R453: A coherence shared read is served by the directory. Operands: grantE: the home answers a READ_S
  of an I line with E r rather than S r (R453). -/
  | readS (pkt : Packet) (grantE : Bool)
  /-- READ_X, R453: A coherence exclusive read is served by the directory after invalidations or recall. -/
  | readX (pkt : Packet)
  /-- WRITEBACK, R453: An owner writes back a line, which answers a recall if one meets it. -/
  | writeback (pkt : Packet)
  /-- EVICT, R453: A holder removes itself from a directory entry. -/
  | evict (pkt : Packet)
  /-- INVALIDATE, R453: A holder drops its copy or replica and answers the home. -/
  | invalidate (pkt : Packet)
  /-- RECALL, R453: An owner writes back if dirty and downgrades or invalidates its copy. -/
  | recall (pkt : Packet)
  /-- DRAINED, R461: A DRAINED message releases flits held after a link went down. -/
  | drained (p : Fin 8)
  /-- FABRIC_INJECT, R374: A core's fabric engine injects a request, taking a partition credit. -/
  | fabricInject (c : Fin 160)
  /-- FABRIC_RESPONSE, R448: A response reaches the source, returning data, counting answers, or recording faults. -/
  | fabricResponse (pkt : Packet)
  /-- FABRIC_COMMAND_DONE, R448: A fabric command completes once its results are in place or its requests are
  injected. -/
  | fabricCommandDone (c : Fin 160)
  /-- REFUSED_RETRY, R451: After its hint, a refused request is resent with RETRY = 1 in original order. -/
  | refusedRetry (c : Fin 160)
  /-- REQ_TIMEOUT, R450: A request unanswered after REQ_TIMEOUT is answered locally as FAULT. -/
  | reqTimeout (c : Fin 160) (req : BitVec 8)
  /-- GATHER_TIMEOUT, R466: A strict reduction line still missing contributions after REQ_TIMEOUT is written
  poisoned. -/
  | gatherTimeout (part : Fin 64) (addr : BitVec 64)
  /-- ABSORBER_WRITEBACK, R454: An absorber entry idle for 1 µs writes its line back to memory. -/
  | absorberWriteback (m : Fin 4) (line : Nat)
  /-- ROUTE_MOVE, R460: An output gives no credit for ADAPT_TIME, so a destination moves with a seal. -/
  | routeMove (dest : BitVec 12) (output : Fin 8)
  /-- ROUTE_RETURN, R459: A default output uncongested for 1 ms takes back its destination. -/
  | routeReturn (dest : BitVec 12)
  /-- OUTPUT_DOWN, R461: A fabric output leaves link-up; its destinations move and held flits wait for DRAINED. -/
  | outputDown (p : Fin 8)
  /-- DRAIN_TIMEOUT, R461: DRAIN_TIMEOUT expires, releasing held flits and taking the far end as failed. -/
  | drainTimeout (p : Fin 8)
  /-- QUENCH_WRITE, R464: A write of FABR.QUENCH quenches or releases partitions locally. -/
  | quenchWrite (who : Requester) (value : BitVec 64)
  /-- TIME_UPSTREAM_LOSS, R468: No TIME message arrives from upstream for 10 µs; the member changes upstream or
  enters holdover. Operands: another port toward the master, if one remains. -/
  | timeUpstreamLoss (next : Option (Fin 8))
  /-- GROUP_MODE_WRITE, R470: A write of GROUP_MODE reconfigures a lane group, or is rejected with MODE_BUSY. -/
  | groupModeWrite (who : Requester) (g : Fin 8) (value : BitVec 32)
  /-- ETH_LINK_CHANGE, R471: An Ethernet port links up or down. -/
  | ethLinkChange (p : Fin 64) (up : Bool)
  /-- ETH_FRAME_RX, R473: A received frame is classified and dropped, timestamped for PTP, passed to ESMC, eCPRI or
  inference ingress. -/
  | ethFrameRx (p : Fin 64) (frame : EthFrame)
  /-- ETH_FRAME_TX, R480: An idle port chooses and starts a frame by management queue, committed and peak DWRR
  passes. -/
  | ethFrameTx (p : Fin 64)
  /-- TXTS_ENTRY, R487: A timestamped frame's entry enters the transmit timestamp queue, or is dropped when full. -/
  | txtsEntry (p : Fin 64) (tag : BitVec 16) (time : BitVec 96)
  /-- TXTS_POP_READ, R487: A read of TXTS_POP removes the oldest entry and latches its time. -/
  | txtsPopRead (who : Requester) (p : Fin 64)
  /-- SERVO_SAMPLE, R492: A phase sample is refused, stepped or slewed into the frequency correction. Operands: in
  2⁻¹⁶ ns. -/
  | servoSample (t1 t2 : BitVec 96) (exchange : Option (BitVec 96 × BitVec 96)) (across : Bool)
  /-- STEP_FORCE_WRITE, R493: A write of TIME.STEP_FORCE steps device time at the next tick. -/
  | stepForceWrite (who : Requester) (value : BitVec 64)
  /-- OFFSET_IN_WRITE, R493: A write of TIME.OFFSET_IN feeds a software sample, or records SOURCE_MISMATCH. -/
  | offsetInWrite (who : Requester) (value : BitVec 64)
  /-- HOLDOVER_ENTRY, R494: No accepted sample arrives for HOLD_TIME, so the servo enters HOLDOVER. -/
  | holdoverEntry
  /-- FREQ_SOURCE_LOSS, R494: The frequency source is lost; FREQ_LOSS is raised and y_f freezes in holdover.
  Operands: average of y_f over the last 100 s, in 2⁻⁴⁸. -/
  | freqSourceLoss (average : Int)
  /-- PPS_IN_EDGE, R619: A qualified PPS_IN rising edge is timestamped and fed to the servo when it is the phase
  source. Operands: the low level before, the high level after, and device time at the edge. -/
  | ppsInEdge (lowNs highNs : Nat) (edge : BitVec 96)
  /-- PPS_OUT_EDGE, R491: At each whole second plus offset, PPS_OUT rises. -/
  | ppsOutEdge
  /-- TIME_NOW_READ, R497: A read of TIME.NOW latches all 96 bits of device time from one tick. -/
  | timeNowRead (who : Requester)
  /-- NODE_READ, R498: NODE_COMMAND read loads a traffic-manager node record into NODE_DATA. -/
  | nodeRead (who : Requester)
  /-- NODE_WRITE, R498: NODE_COMMAND write stores a node record, or refuses it with NODE_PARAM. -/
  | nodeWrite (who : Requester)
  /-- POLICER_READ, R500: POLC.COMMAND read loads a policer record into POLC.DATA. -/
  | policerRead (who : Requester)
  /-- POLICER_WRITE, R500: POLC.COMMAND write stores a policer record, or refuses it. -/
  | policerWrite (who : Requester)
  /-- STRICT_WRITE, R504: A write of GLOB.MODE.STRICT changes determinism mode, taking effect per REDUCE and step
  boundary. -/
  | strictWrite (who : Requester) (value : BitVec 32)
  /-- RECORD_BOUNDARY, R516: At each boundary, held inputs are applied and recorded, the digest is written, or in
  replay compared. Operands: R26's order for an input that meets the boundary; whether LOAD_OBJECT data of this
  boundary match the record. -/
  | recordBoundary (k : Fin 64) (inputsFirst : Bool) (loadDataOk : Bool)
  /-- RAKE, R525: The long operation scrubs a range, a core or a signal core and writes a summary. -/
  | rake (q : CmdRef)
  /-- FLIP_ARM, R528: A write of FLIP_CONTROL.ARM arms an error injection on the next matching write. -/
  | flipArm (who : Requester) (value : BitVec 32)
  /-- CORE_RETIRE_WRITE, R531: A write to CORE_RETIRE with no partition enabled renumbers and probes cores, or is
  rejected. -/
  | coreRetireWrite (who : Requester) (die : Fin 4) (value : BitVec 64)
  /-- PPR_START, R532: A write of PPR_CONTROL.START holds the pseudo channel and runs post-package repair, or is
  refused. -/
  | pprStart (who : Requester) (value : BitVec 32)
  /-- PPR_DONE, R532: The repair sequence ends, the lines are written back and the accesses are released. -/
  | pprDone (outcome : PprOutcome)
  /-- CORE_FENCE_WRITE, R533: A write of RASP.CORE_FENCE fences a logical core. -/
  | coreFenceWrite (who : Requester) (value : BitVec 32)
  /-- CORE_CHECK_FAIL, R533: A core's internal state check fails and the core is fenced. -/
  | coreCheckFail (c : Fin 160)
  /-- SPARE_REPLACE_DONE, R535: A spare core has been probed and copied and resumes the context at the last cheap
  point, or the context is aborted. Operands: whether the copy met no uncorrectable error and the spare passed
  its probe. -/
  | spareReplaceDone (c : Fin 160) (copyOk : Bool) (probeOk : Bool)
  /-- SIGC_REPLACE_DONE, R537: A failed signal core is replaced by the die's spare and its program restarts. -/
  | sigcReplaceDone (k : Fin 64)
  /-- TWIN_PULSE_TX, R538: The device drives TWIN_ALIVE low for 1 µs on its cadence. -/
  | twinPulseTx
  /-- TWIN_PULSE_RX, R538: A low interval the device did not drive is taken as a twin pulse. -/
  | twinPulseRx
  /-- TWIN_PIN_FAULT, R538: The line stays low for more than 3 µs, setting PIN_FAULT. -/
  | twinPinFault
  /-- TWIN_FAIL_TIMEOUT, R541: 30 µs pass without TW lock or a twin pulse, and the twin is judged failed. -/
  | twinFailTimeout
  /-- TWIN_FAIL_MSG, R541: A FAIL message on TW VC0 makes the twin be judged failed at once. -/
  | twinFailMsg
  /-- TWIN_TAKEOVER, R542: The standby activates the twin's cells, claims surge cores and starts C-plane. -/
  | twinTakeover
  /-- MIRROR_BATCH, R539: A slot's mirror batch is applied whole on the twin when its end marker arrives. Operands:
  local partition, partition addresses and bytes. -/
  | mirrorBatch (k : Fin 64) (writes : List (BitVec 64 × List Byte))
  /-- DRAIN_WRITE, R545: A write of TWIN_CONTROL.DRAIN schedules handover of each twinned cell. -/
  | drainWrite (who : Requester) (value : BitVec 32)
  /-- DRAIN_HANDOVER, R545: At the handover slot boundary, a cell ends after a final mirror batch and goes active on
  the twin. -/
  | drainHandover (k : Fin 64) (cell : Fin 384)
  /-- SALT_SCORE, R546: Every 1 ms the controller computes the salinometer score. Operands: inputs C, R, the lowest
  window and the hottest reading of R546. -/
  | saltScore
  /-- SALT_MESSAGE_TX, R547: Every 1 ms the hardware sends the score, sequence and votes to span members. -/
  | saltMessageTx
  /-- SALT_MESSAGE_RX, R548: A salinometer message is received and votes are updated. -/
  | saltMessageRx (msg : SaltMessage)
  /-- EXPEL_ANNOUNCE, R550: An expulsion announcement quenches spanning partitions and sets EXPELLED. Operands:
  kept: the announcement is DEGRADED_KEPT (R549). -/
  | expelAnnounce (member : Fin 64) (news : SaltNews)
  /-- ISOLATION, R551: No message from more than half the members for 5 ms quenches own partitions and raises
  ISOLATED. -/
  | isolation
  /-- ADMIT_WRITE, R552: A write of RASP.ADMIT on the lead announces a member's admission. -/
  | admitWrite (who : Requester) (value : BitVec 32)
  /-- WATCHDOG_EXPIRY, R554: The controller's 100 ms watchdog expires; it restarts and re-verifies firmware. -/
  | watchdogExpiry
  /-- BOOT_START, R563: The controller is released and the boot ROM reads and verifies the firmware image. -/
  | bootStart
  /-- BOOT_DONE, R563: Verification ends with the firmware RUNNING, or AWAITING_RECOVERY with BOOT_CODE. Operands:
  what the boot ROM read. -/
  | bootDone (image : ImageData)
  /-- RECOVERY_GO, R565: A write of RECOVERY_CONTROL.GO reads an image from host memory and verifies it. -/
  | recoveryGo (who : Requester) (value : BitVec 32) (image : HostData)
  /-- SVN_COMMIT, R567: A confirmed write raises the fused SVN to the running image's, or is refused. -/
  | svnCommit (who : Requester) (value : BitVec 32)
  /-- OWNER_COMMIT, R568: A confirmed write fuses the staged owner hash, or is refused. -/
  | ownerCommit (who : Requester) (value : BitVec 32)
  /-- SENSOR_SAMPLE, R561: Every 1 ms the controller samples sensors and sends events on threshold crossings. -/
  | sensorSample (env : SensorEnv)
  /-- GET_SENSOR_READING, R561: A PLDM GetSensorReading returns the latest sample. -/
  | getSensorReading (src : MgmtSource) (sensor : SensorId)
  /-- PLDM_DISCOVERY, R559: A PLDM base or type discovery request is answered. -/
  | pldmDiscovery (src : MgmtSource) (req : PldmDiscovery)
  /-- PLDM_FRU_READ, R559: A PLDM FRU data request returns part, stepping, serial and SVN. -/
  | pldmFruRead (src : MgmtSource)
  /-- FIRMWARE_UPDATE, R566: A PLDM firmware update verifies the image and replaces the flash image. -/
  | firmwareUpdate (src : MgmtSource) (image : ImageData)
  /-- ACTIVATE_FIRMWARE, R566: ActivateFirmware restarts the controller on the new image. -/
  | activateFirmware (src : MgmtSource)
  /-- GET_VERSION, R573: The SPDM GET_VERSION request is answered. -/
  | getVersion (src : MgmtSource)
  /-- GET_CAPABILITIES, R573: The SPDM GET_CAPABILITIES request is answered. -/
  | getCapabilities (src : MgmtSource)
  /-- NEGOTIATE_ALGORITHMS, R573: The SPDM NEGOTIATE_ALGORITHMS request is answered. Operands: whether the requester
  offers the algorithms of R573. -/
  | negotiateAlgorithms (src : MgmtSource) (supported : Bool)
  /-- GET_DIGESTS, R573: The SPDM GET_DIGESTS request is answered. -/
  | getDigests (src : MgmtSource)
  /-- GET_CERTIFICATE, R573: The SPDM GET_CERTIFICATE request returns slot 0. -/
  | getCertificate (src : MgmtSource) (slot : Fin 8) (offset length : Nat)
  /-- CHALLENGE, R573: The SPDM CHALLENGE is answered with an IDK-signed CHALLENGE_AUTH. -/
  | challenge (src : MgmtSource) (slot : Fin 8) (nonce : BitVec 256)
  /-- GET_MEASUREMENTS, R574: The SPDM GET_MEASUREMENTS returns the measurement blocks. Operands: index 0 asks for
  the number of blocks, 0xFF for all. -/
  | getMeasurements (src : MgmtSource) (index : BitVec 8) (signed : Bool) (nonce : BitVec 256)
  /-- KEY_EXCHANGE, R573: The SPDM KEY_EXCHANGE starts a secured session. -/
  | keyExchange (src : MgmtSource) (exchange : BitVec 768)
  /-- FINISH, R573: The SPDM FINISH completes the session handshake. -/
  | finish (src : MgmtSource) (verifies : Bool)
  /-- KEY_UPDATE, R573: The SPDM KEY_UPDATE updates session keys. -/
  | keyUpdate (src : MgmtSource)
  /-- HEARTBEAT, R573: The SPDM HEARTBEAT keeps the session alive. -/
  | heartbeat (src : MgmtSource)
  /-- END_SESSION, R573: The SPDM END_SESSION ends a secured session. -/
  | endSession (src : MgmtSource)
  /-- CHUNK_SEND, R573: The SPDM CHUNK_SEND carries part of a large request. -/
  | chunkSend (src : MgmtSource) (chunk : BitVec 16) (last : Bool) (data : List Byte)
  /-- CHUNK_GET, R573: The SPDM CHUNK_GET returns part of a large response. -/
  | chunkGet (src : MgmtSource) (chunk : BitVec 16)
  /-- PARTITION_REPORT, R575: The vendor request returns a signed isolation report of a partition. -/
  | partitionReport (src : MgmtSource) (k : Fin 64) (nonce : BitVec 256)
  /-- SET_MIGRATION_KEY, R576: The vendor request writes a migration key slot. -/
  | setMigrationKey (src : MgmtSource) (slot : Fin 8) (key : BitVec 256) (peer : BitVec 456)
  /-- ZEROIZE_PARTITION, R577: ZEROIZE with SCOPE 0 stops and clears a partition and returns its resources. -/
  | zeroizePartition (q : CmdRef)
  /-- ZEROIZE_DEVICE, R578: ZEROIZE with SCOPE 1 clears every partition and all device memory. -/
  | zeroizeDevice (q : CmdRef)
  /-- POWER_ESTIMATE, R581: Every 10 µs the estimator forms P and P0, and the limiter adjusts the throttle fraction.
  Operands: watts, and the smallest fraction × 1,000 that keeps P at or below SUSTAINED. -/
  | powerEstimate (p p0 : Nat) (f : Fin 1001)
  /-- POWER_ALLOWANCE_EXPIRY, R581: P0 has exceeded SUSTAINED for 10 ms, so the throttle begins. -/
  | powerAllowanceExpiry
  /-- COOLANT_HIGH, R585: The inlet stays above 50 °C for 1 s; COOLANT_HIGH is raised and SUSTAINED is lowered.
  Operands: in 0.1 °C. -/
  | coolantHigh (inlet : Nat)
  /-- INLET_SENSOR_LOSS, R606: No inlet reading arrives for 1 s; the inlet is taken as 55 °C and INLET_SENSOR
  recorded. -/
  | inletSensorLoss
  /-- TIME_LOAD, R596: A write of RSET.TIME_LOAD sets device time seconds once per reset, or is rejected. -/
  | timeLoad (who : Requester) (seconds : BitVec 48)
  /-- REFCLK_A_PRESENT, R593: REFCLK_A becomes present while step 1 of bring-up waits for it, so bring-up proceeds
  and REFCLK_OK sets. Operands: the clock is present while step 1 waits. -/
  | refclkAPresent
  /-- HOT_WAIT_END, R593: Every junction falls below 110 °C while step 1 waits under HOT_WAIT, so bring-up proceeds.
  Operands: every junction is below 110 °C while step 1 waits. -/
  | hotWaitEnd
  /-- CODEWORD_LOCK_LOSS, R425: A lane's receiver misses 8 consecutive SYNC symbols and loses codeword lock. -/
  | codewordLockLoss (p : Fin 9) (lane : Fin 4)
  /-- BULK_LINK_UP, R248: A CXL bulk port trains and returns to link-up, setting PORT_STATUS.LINK_UP. -/
  | bulkLinkUp (p : Fin 8) (width speed : Fin 4)
  /-- VBAT_LOW, R609: VBAT falls below 1.9 V, setting SUPPLY_STATUS.VBAT_LOW and its interrupt. Operands: VBAT below
  1.9 V, or back at or above it. -/
  | vbatLow (low : Bool)
  /-- FREQ_SOURCE_VALID, R494: The SyncE or FREQ_IN frequency source returns, FREQ_VALID sets and y_f follows the
  source again. Operands: y_f as measured, in 2⁻⁴⁸. -/
  | freqSourceValid (y : Int)
  /-- PTP_FRAME_HANDOFF, R472: The Nymav controller hands a PTP or ESMC frame, such as Delay_Req, Announce or an
  ESMC message, to a port for transmission. Operands: tag: a transmit timestamp is requested. -/
  | ptpFrameHandoff (p : Fin 64) (subscriber : Option (Fin 65536)) (bytes : Nat) (tag : Option (BitVec 16)) (oneStep : Bool)
  /-- SALT_USED_EXPIRY, R549: An announced expulsion leaves the 3,600 s window, USED falls below BUDGET, and a
  DEGRADED_KEPT device still voted against is expelled at that moment. -/
  | saltUsedExpiry
  /-- TWIN_COPY_STALE, R539: The twin has not applied a LOAD_OBJECT's mirrored bytes within 10 ms, so LOAD_OBJECT
  completes and the twin copy is marked stale. -/
  | twinCopyStale (k : Fin 64) (object : BitVec 16) (q : CmdRef)
  /-- CONTROLLER_NOT_SERVING, R541: The Nymav controller is not serving 1 s after a watchdog restart, so FAIL is
  sent to the twin. -/
  | controllerNotServing
  /-- PDR_REPOSITORY_REQUEST, R559: A PLDM request reads the PDR repository or collects a pending platform event. -/
  | pdrRepositoryRequest (src : MgmtSource) (req : PdrRequest)
  /-- DYNAMIC_ADDRESS, R559: The management I3C bus controller assigns the device its dynamic target address. -/
  | dynamicAddress (addr : BitVec 7)
  deriving DecidableEq, Repr

end Sys2Proof
end

