-- ==== Sys2Proof/Decode.lean ====
section
/-! DEFINITION. The words of the opcode table: its rows are commands that come from outside and give no bits. -/

namespace Sys2Proof

/-- The command that a word spells by the table's bits: none, since no row of the table gives bits. DESIGN CHOICE: log entry 107. -/
def decodeTableWord (_nbits _w : Nat) : Option Instr := none

end Sys2Proof
end

