-- ==== Sys2Proof/Config.lean ====
section
/-! DEFINITION. What the spec leaves open: free values (opaque constants that nothing in Lean can evaluate) and the functions
whose values the spec takes from a standard or leaves unstated. No proof can see a value of any of them. -/

namespace Sys2Proof.Config

/-- A fresh value of w bits where the spec leaves one open: applied to State.freeIx, which then advances. DESIGN CHOICE: log entry 7. -/
opaque freeValue (w : Nat) (ix : Nat) : BitVec w

/-- Whether a memory word keeps its old value across the reset of that number (R595); where not, it reads as uncorrectable. DESIGN CHOICE:
log entry 22. -/
opaque survivesReset (reset region word : Nat) : Bool

/-- The result of an operation of the scalar group whose value the spec does not state: a shift by 64 or more, the signed quotient and
remainder of the most negative number by −1. DESIGN CHOICE: log entry 40. -/
opaque scalarOpen : ScalarOp → Word → Word → Word

/-- The values that a vector compare writes for true and for false, and the exponent with which a raw lane of 8 or 16 bits enters a
Z-format: "Vector unit" names the operations and not these codes. DESIGN CHOICE: log entry 41. -/
opaque compareTrue : Lane → Int
opaque compareFalse : Lane → Int
opaque rawExponent : Lane → Int

/-- The integer that a Z-format value gives in a raw lane of 8 or 16 bits. DESIGN CHOICE: log entry 41. -/
opaque zToRaw : Lane → Int → Int → Int

/-- The element that a permute writes where its index names no lane. DESIGN CHOICE: log entry 41. -/
opaque permuteOutside : Lane → Nat → Int

/-- The bytes of a spill area that a save writes, from the registers and the scratchpad bytes it holds: the layout of the area is the save
engine's own (R178). DEDUCED: log entry 45. -/
opaque spillImage (words : List Nat) (bytes : List (Nat × Byte)) : List Byte

/-- The set of a memory-side die's cache in which a line lies, of its 131,072 (R249): how a line's address chooses it is not stated. DESIGN
CHOICE: log entry 28. -/
opaque cacheSet (line : Nat) : Nat

/-- The content of a bulk module's byte, by port × 2⁴⁴ + port address, that nothing has written (R247). DESIGN CHOICE: log entry 31. -/
opaque bulkContent (key : Nat) : Byte

/-- The element and scale bytes of a coded unit, from the numbers of its code tables and its payload: the format of the code tables is the
Jexonalin reference's (R263). DESIGN CHOICE: log entry 8. -/
opaque decodeUnit (elemTable scaleTable : Nat) (payload : List Byte) : List Byte

/-- The hard decisions of a code block after so many iterations, from its descriptor, the layers of an iteration and its working buffer: the
bit-exact model is Jexonalin's (R225). DESIGN CHOICE: log entries 8, 53. -/
opaque ldpcDecode (desc : BitVec 512) (layers iterations : Nat) (buffer : List Int) : List Bool

/-- The codeword of a code block: base graph, lifting size and its K' bits, of TS 38.212 §5.3.2 (R219). DESIGN CHOICE: log entry 8. -/
opaque ldpcEncode (bg z : Nat) (bits : List Bool) : List Bool

/-- The N mother-code bits of a polar code over a segment's K bits, from TS 38.212 §5.3.1: whether the input is interleaved, N, the E of its
rate matching and the parity-check bits (R219, R228). DESIGN CHOICE: log entry 8. -/
opaque polarMother (interleave : Bool) (n e parity wide : Nat) (bits : List Bool) : List Bool

/-- The K bits, its CRC's among them, that the list decoder chooses from a segment's mother-code LLRs, and the descriptor's best path metric
(R228). DESIGN CHOICE: log entries 8, 53. -/
opaque polarDecode (desc : BitVec 512) (segment k : Nat) (llrs : List Int) : List Bool
opaque polarMetric (desc : BitVec 512) (llrs : List Int) : Nat

/-- The E bits of a block code over 1 to 11 bits, of TS 38.212 §5.3.3, and the bits that maximum likelihood finds (R219, R228). DESIGN
CHOICE: log entry 8. -/
opaque blockEncode (e : Nat) (bits : List Bool) : List Bool
opaque blockDecode (a : Nat) (llrs : List Int) : List Bool

/-- The 4,096 bytes of a soak record, whose layout the spec does not give (R305). DESIGN CHOICE: log entry 8. -/
opaque soakBytes (record : SoakRecord) : List Byte

/-- The IDK signature of the device with a UDS (R570) over a message of a domain of R571 (0 SPDM, 1 soak record, 2 partition report, 3 state
blob), and whether a signature verifies with it. DESIGN CHOICE: log entry 8. -/
opaque idkSign (uds : BitVec 256) (domain : Nat) (message : List Byte) : BitVec 912
opaque idkVerifies (uds : BitVec 256) (domain : Nat) (message : List Byte) (signature : BitVec 912) : Bool

/-- Which of the values within 2 units of 2^f Jexonalin's table gives at a fraction of 1 to 65,535 sixteenth-bits (R153, R338). DESIGN
CHOICE: log entry 8. -/
opaque exp2Table (f : Nat) : Nat

/-- KV heads of the model whose descriptor lies at a partition address (R327, R330). DESIGN CHOICE: log entry 8. -/
opaque kvHeads (model : Nat) : Nat

/-- Whether an HBM line lies in the row that a post-package repair names by stack, channel, pseudo channel, bank and row (R532): the map
from rows to lines is not stated. DESIGN CHOICE: log entry 8. -/
opaque inRow (repair : BitVec 64) (line : Nat) : Bool

/-- The frames, from the destination address through the last byte before the FCS, that carry a downlink symbol's C-plane (for a category B
cell) and U-plane (R294, R297), by the value of State.freeIx at the hand-off and the PRBs (eAxC, PRB, X, mantissas): how a symbol is cut
into frames, and the O-RAN headers, follow standards. DESIGN CHOICE: log entries 8, 97. -/
opaque cplaneFrames (ix cell slot symbol : Nat) : List (List Byte)
opaque uplaneFrames (ix cell slot symbol : Nat) (prbs : List (Nat × Nat × Nat × List Int)) : List (List Byte)

/-- The frame that answers an eCPRI delay-measurement request (R475), from its frame and receive timestamp. DESIGN CHOICE: log entry 8. -/
opaque delayResponse (frame : List Byte) (time : BitVec 96) : List Byte

/-- SHAKE256 with 512-bit output, SHA3-512, and whether an Ed448 signature of a message verifies with a public key and a context string
(R558, R562, R573, R574): functions of their standards. DESIGN CHOICE: log entry 8. -/
opaque shake256 (message : List Byte) : BitVec 512
opaque sha3 (message : List Byte) : BitVec 512
opaque edVerifies (key : List Byte) (owner : Bool) (digest : BitVec 512) (signature : List Byte) : Bool

/-- The boot ROM (R556), the certificate chain in one-time memory of the device with a SERIAL (R570), and the layout of measurement 3
(R574). DESIGN CHOICE: log entry 8. -/
opaque bootRom : List Byte
opaque certChain (serial : BitVec 64) : List Byte
opaque securityState (fusedSvn imageSvn : Nat) (ownerHash : BitVec 512) : List Byte

/-- Answers whose bytes the management standards fix (R559, R573): a PLDM discovery answer by its number (0 TID, 1 types, 2 commands, 3
version), FRU data, a PDR repository, and SPDM answers by their number with the value that makes each fresh. DESIGN CHOICE: log entry 8. -/
opaque pldmAnswer (request : Nat) : List Byte
opaque fruData (serial : BitVec 64) (svn : Nat) : List Byte
opaque pdrRepository : List Byte
opaque spdmAnswer (request ix : Nat) : List Byte

/-- Bytes of a chunk of a large SPDM response on a transport. -/
opaque chunkBytes (transport : Nat) : Nat

end Sys2Proof.Config
end

