-- ==== Sys2Proof/Machine/Registers.lean ====
section
/-! DEFINITION. The control window: the register pages and every register field of the spec's tables
(R38, R42-R53 and each chapter's register table), with access code (R13) and reset value (R16). -/

namespace Sys2Proof.Machine

/-- Access codes of R13. -/
inductive Access where
  | rw | ro | wo | w1c | w1s | rc
  deriving DecidableEq, Repr

/-- One field of a register: page offset of element 0, stride and count of an indexed register, lowest bit and
width (a field of more than 32 bits runs on into the next registers, lower address first, R39), access, reset. -/
structure RegField where
  off : Nat
  stride : Nat
  count : Nat
  lo : Nat
  len : Nat
  acc : Access
  reset : Nat
  deriving DecidableEq, Repr

namespace Rg

/-- R43: PAGE.PAGE_ID.MNEMONIC. -/
def pagePageIdMnemonic : RegField := ⟨0x0, 0, 1, 0, 32, .ro, 0⟩
/-- R44: PAGE.PAGE_VERSION.INSTANCE. -/
def pagePageVersionInstance : RegField := ⟨0x4, 0, 1, 0, 16, .ro, 0⟩
/-- R44: PAGE.PAGE_VERSION.MINOR. -/
def pagePageVersionMinor : RegField := ⟨0x4, 0, 1, 16, 8, .ro, 0⟩
/-- R44: PAGE.PAGE_VERSION.MAJOR. -/
def pagePageVersionMajor : RegField := ⟨0x4, 0, 1, 24, 8, .ro, 1⟩
/-- R46: PAGE.CONTROL.SOFT_RESET. -/
def pageControlSoftReset : RegField := ⟨0x10, 0, 1, 0, 1, .w1s, 0⟩
/-- R46: PAGE.CONTROL.ENABLE. -/
def pageControlEnable : RegField := ⟨0x10, 0, 1, 1, 1, .rw, 0⟩
/-- R46: PAGE.CONTROL.FREEZE. -/
def pageControlFreeze : RegField := ⟨0x10, 0, 1, 2, 1, .rw, 0⟩
/-- R50: PAGE.STATUS.RESET_BUSY. -/
def pageStatusResetBusy : RegField := ⟨0x14, 0, 1, 0, 1, .ro, 0⟩
/-- R50: PAGE.STATUS.ENABLED. -/
def pageStatusEnabled : RegField := ⟨0x14, 0, 1, 1, 1, .ro, 0⟩
/-- R50: PAGE.STATUS.FROZEN. -/
def pageStatusFrozen : RegField := ⟨0x14, 0, 1, 2, 1, .ro, 0⟩
/-- R50: PAGE.STATUS.FENCED. -/
def pageStatusFenced : RegField := ⟨0x14, 0, 1, 3, 1, .ro, 0⟩
/-- R50: PAGE.STATUS.BLOCK. -/
def pageStatusBlock : RegField := ⟨0x14, 0, 1, 16, 16, .ro, 0⟩
/-- R51: PAGE.INT_STATUS. -/
def pageIntStatus : RegField := ⟨0x20, 0, 1, 0, 32, .w1c, 0⟩
/-- R51: PAGE.INT_ENABLE. -/
def pageIntEnable : RegField := ⟨0x24, 0, 1, 0, 32, .rw, 0⟩
/-- R51: PAGE.INT_FORCE. -/
def pageIntForce : RegField := ⟨0x28, 0, 1, 0, 32, .wo, 0⟩
/-- R53: PAGE.ERROR_COUNT.COUNT. -/
def pageErrorCountCount : RegField := ⟨0x30, 0, 1, 0, 32, .rc, 0⟩
/-- R53: PAGE.ERROR_FIRST[0].CODE. -/
def pageErrorFirst0Code : RegField := ⟨0x34, 0, 1, 0, 16, .ro, 0⟩
/-- R53: PAGE.ERROR_FIRST[0].UNIT. -/
def pageErrorFirst0Unit : RegField := ⟨0x34, 0, 1, 16, 15, .ro, 0⟩
/-- R53: PAGE.ERROR_FIRST[0].VALID. -/
def pageErrorFirst0Valid : RegField := ⟨0x34, 0, 1, 31, 1, .w1c, 0⟩
/-- R53: PAGE.ERROR_FIRST[1].DETAIL. -/
def pageErrorFirst1Detail : RegField := ⟨0x38, 0, 1, 0, 32, .ro, 0⟩
/-- R53: PAGE.ERROR_FIRST[2].WHEN. -/
def pageErrorFirst2When : RegField := ⟨0x3c, 0, 1, 0, 32, .ro, 0⟩
/-- R502: GLOB.MODE.STRICT. -/
def globModeStrict : RegField := ⟨0x40, 0, 1, 0, 1, .rw, 0⟩
/-- R609: RSET.RESET_COUNT.COUNT. -/
def rsetResetCountCount : RegField := ⟨0x40, 0, 1, 0, 32, .ro, 0⟩
/-- R609: RSET.RESET_CAUSE.CAUSE. -/
def rsetResetCauseCause : RegField := ⟨0x44, 0, 1, 0, 2, .ro, 0⟩
/-- R609: RSET.RESET_CAUSE.DURING_BRINGUP. -/
def rsetResetCauseDuringBringup : RegField := ⟨0x44, 0, 1, 2, 1, .ro, 0⟩
/-- R609: RSET.RESET_CAUSE.THERMAL_HOLD. -/
def rsetResetCauseThermalHold : RegField := ⟨0x44, 0, 1, 3, 1, .ro, 0⟩
/-- R609: RSET.RESET_CAUSE.CLOCK_HOLD. -/
def rsetResetCauseClockHold : RegField := ⟨0x44, 0, 1, 4, 1, .ro, 0⟩
/-- R609: RSET.RESET_CAUSE.VBAT_FRESH. -/
def rsetResetCauseVbatFresh : RegField := ⟨0x44, 0, 1, 5, 1, .ro, 0⟩
/-- R609: RSET.RESET_CAUSE.SUPPLY_DROP. -/
def rsetResetCauseSupplyDrop : RegField := ⟨0x44, 0, 1, 6, 1, .ro, 0⟩
/-- R609: RSET.BRINGUP.DONE. -/
def rsetBringupDone : RegField := ⟨0x48, 0, 1, 0, 1, .ro, 0⟩
/-- R609: RSET.BRINGUP.STEP. -/
def rsetBringupStep : RegField := ⟨0x48, 0, 1, 1, 4, .ro, 0⟩
/-- R609: RSET.BRINGUP.REFCLK_OK. -/
def rsetBringupRefclkOk : RegField := ⟨0x48, 0, 1, 8, 1, .ro, 0⟩
/-- R609: RSET.BRINGUP.HOT_WAIT. -/
def rsetBringupHotWait : RegField := ⟨0x48, 0, 1, 9, 1, .ro, 0⟩
/-- R609: RSET.HBM_READY.STACKS. -/
def rsetHbmReadyStacks : RegField := ⟨0x4c, 0, 1, 0, 20, .ro, 0⟩
/-- R609: RSET.TIME_LOAD.SECONDS. -/
def rsetTimeLoadSeconds : RegField := ⟨0x50, 0, 1, 0, 48, .wo, 0⟩
/-- R609: RSET.SUPPLY_STATUS.VBAT_LOW. -/
def rsetSupplyStatusVbatLow : RegField := ⟨0x58, 0, 1, 0, 1, .ro, 0⟩
/-- R609: RSET.SUPPLY_STATUS.AVS_FAULT. -/
def rsetSupplyStatusAvsFault : RegField := ⟨0x58, 0, 1, 4, 4, .ro, 0⟩
/-- R419: HOST.LINK_STATUS.SPEED. -/
def hostLinkStatusSpeed : RegField := ⟨0x40, 0, 1, 0, 2, .ro, 0⟩
/-- R419: HOST.LINK_STATUS.WIDTH. -/
def hostLinkStatusWidth : RegField := ⟨0x40, 0, 1, 8, 5, .ro, 0⟩
/-- R419: HOST.LINK_STATUS.FLIT. -/
def hostLinkStatusFlit : RegField := ⟨0x40, 0, 1, 13, 1, .ro, 0⟩
/-- R419: HOST.ADMIN_SQ_ADDR.ADDRESS. -/
def hostAdminSqAddrAddress : RegField := ⟨0x48, 0, 1, 0, 64, .rw, 0⟩
/-- R419: HOST.ADMIN_CQ_ADDR.ADDRESS. -/
def hostAdminCqAddrAddress : RegField := ⟨0x50, 0, 1, 0, 64, .rw, 0⟩
/-- R419: HOST.ADMIN_SIZE.SQ_DEPTH. -/
def hostAdminSizeSqDepth : RegField := ⟨0x58, 0, 1, 0, 12, .rw, 0⟩
/-- R419: HOST.ADMIN_SIZE.CQ_DEPTH. -/
def hostAdminSizeCqDepth : RegField := ⟨0x58, 0, 1, 16, 12, .rw, 0⟩
/-- R419: HOST.ADMIN_CONTROL.ENABLE. -/
def hostAdminControlEnable : RegField := ⟨0x5c, 0, 1, 0, 1, .rw, 0⟩
/-- R419: HOST.ADMIN_CONTROL.READY. -/
def hostAdminControlReady : RegField := ⟨0x5c, 0, 1, 1, 1, .ro, 0⟩
/-- R419: HOST.ADMIN_DOORBELL.DOORBELL. -/
def hostAdminDoorbellDoorbell : RegField := ⟨0x60, 0, 1, 0, 64, .wo, 0⟩
/-- R419: HOST.WIN_SELECT.FUNCTION. -/
def hostWinSelectFunction : RegField := ⟨0x68, 0, 1, 0, 8, .rw, 0⟩
/-- R419: HOST.WIN_PART.PARTITION. -/
def hostWinPartPartition : RegField := ⟨0x6c, 0, 1, 0, 6, .rw, 0⟩
/-- R419: HOST.WIN_PART.VALID. -/
def hostWinPartValid : RegField := ⟨0x6c, 0, 1, 7, 1, .rw, 0⟩
/-- R419: HOST.WIN_BASE.ADDRESS. -/
def hostWinBaseAddress : RegField := ⟨0x70, 0, 1, 0, 64, .rw, 0⟩
/-- R419: HOST.ROUTE_SELECT.PAGE. -/
def hostRouteSelectPage : RegField := ⟨0x78, 0, 1, 0, 14, .rw, 0⟩
/-- R419: HOST.ROUTE.FUNCTION. -/
def hostRouteFunction : RegField := ⟨0x7c, 0, 1, 0, 8, .rw, 0⟩
/-- R419: HOST.ROUTE.VECTOR. -/
def hostRouteVector : RegField := ⟨0x7c, 0, 1, 8, 12, .rw, 0⟩
/-- R419: HOST.ROUTE.VALID. -/
def hostRouteValid : RegField := ⟨0x7c, 0, 1, 31, 1, .rw, 0⟩
/-- R419: HOST.DOORBELL_FAULT.COUNT. -/
def hostDoorbellFaultCount : RegField := ⟨0x80, 0, 1, 0, 32, .rc, 0⟩
/-- R419: HOST.WIN_FAULT.COUNT. -/
def hostWinFaultCount : RegField := ⟨0x84, 0, 1, 0, 32, .rc, 0⟩
/-- R419: HOST.ATC_INVALIDATIONS.COUNT. -/
def hostAtcInvalidationsCount : RegField := ⟨0x88, 0, 1, 0, 64, .ro, 0⟩
/-- R419: HOST.MEMBER_EVENTS.MEMBERS. -/
def hostMemberEventsMembers : RegField := ⟨0x90, 0, 1, 0, 64, .w1c, 0⟩
/-- R420: QMGR.SQ_SELECT.SQ. -/
def qmgrSqSelectSq : RegField := ⟨0x40, 0, 1, 0, 20, .rw, 0⟩
/-- R420: QMGR.SQ_STATE.HEAD. -/
def qmgrSqStateHead : RegField := ⟨0x44, 0, 1, 0, 16, .ro, 0⟩
/-- R420: QMGR.SQ_STATE.TAIL. -/
def qmgrSqStateTail : RegField := ⟨0x44, 0, 1, 16, 16, .ro, 0⟩
/-- R420: QMGR.SQ_INFO.CQ. -/
def qmgrSqInfoCq : RegField := ⟨0x48, 0, 1, 0, 18, .ro, 0⟩
/-- R420: QMGR.SQ_INFO.CLASS. -/
def qmgrSqInfoClass : RegField := ⟨0x48, 0, 1, 19, 2, .ro, 0⟩
/-- R420: QMGR.SQ_INFO.EXISTS. -/
def qmgrSqInfoExists : RegField := ⟨0x48, 0, 1, 31, 1, .ro, 0⟩
/-- R420: QMGR.CQ_SELECT.CQ. -/
def qmgrCqSelectCq : RegField := ⟨0x50, 0, 1, 0, 18, .rw, 0⟩
/-- R420: QMGR.CQ_STATE.HEAD. -/
def qmgrCqStateHead : RegField := ⟨0x54, 0, 1, 0, 16, .ro, 0⟩
/-- R420: QMGR.CQ_STATE.TAIL. -/
def qmgrCqStateTail : RegField := ⟨0x54, 0, 1, 16, 16, .ro, 0⟩
/-- R420: QMGR.CQ_WAITING.COUNT. -/
def qmgrCqWaitingCount : RegField := ⟨0x58, 0, 1, 0, 32, .ro, 0⟩
/-- R420: QMGR.FETCHED.COUNT. -/
def qmgrFetchedCount : RegField := ⟨0x60, 0, 1, 0, 64, .ro, 0⟩
/-- R29: CORE.WAVE_RATE.RATE. -/
def coreWaveRateRate : RegField := ⟨0x40, 0, 1, 0, 16, .ro, 0⟩
/-- R29: CORE.WAVE_RATE.LOW. -/
def coreWaveRateLow : RegField := ⟨0x40, 0, 1, 31, 1, .ro, 0⟩
/-- R29: CORE.WAVE_RATE_MIN.RATE. -/
def coreWaveRateMinRate : RegField := ⟨0x44, 0, 1, 0, 16, .rc, 65535⟩
/-- R87: CORE.ARITH_FLAGS.SAT. -/
def coreArithFlagsSat : RegField := ⟨0x48, 0, 1, 0, 1, .w1c, 0⟩
/-- R87: CORE.ARITH_FLAGS.ACC_OVF. -/
def coreArithFlagsAccOvf : RegField := ⟨0x48, 0, 1, 1, 1, .w1c, 0⟩
/-- R87: CORE.ARITH_FLAGS.TERNARY_CODE. -/
def coreArithFlagsTernaryCode : RegField := ⟨0x48, 0, 1, 2, 1, .w1c, 0⟩
/-- R87: CORE.ARITH_FLAGS.POISON. -/
def coreArithFlagsPoison : RegField := ⟨0x48, 0, 1, 3, 1, .w1c, 0⟩
/-- R125: CORE.ARRAY_STATE.ARRAY_FENCED. -/
def coreArrayStateArrayFenced : RegField := ⟨0x200, 0, 1, 0, 4, .ro, 0⟩
/-- R125: CORE.ARRAY_STATE.FEEDER_FENCED. -/
def coreArrayStateFeederFenced : RegField := ⟨0x200, 0, 1, 4, 4, .ro, 0⟩
/-- R125: CORE.ARRAY_STATE.FORCED_GANG. -/
def coreArrayStateForcedGang : RegField := ⟨0x200, 0, 1, 8, 2, .ro, 0⟩
/-- R126: CORE.SKEW_PROBE.SELECT. -/
def coreSkewProbeSelect : RegField := ⟨0x204, 0, 1, 0, 4, .rw, 15⟩
/-- R126: CORE.SKEW_PROBE.START. -/
def coreSkewProbeStart : RegField := ⟨0x204, 0, 1, 4, 1, .w1s, 0⟩
/-- R126: CORE.SKEW_PROBE.BUSY. -/
def coreSkewProbeBusy : RegField := ⟨0x204, 0, 1, 5, 1, .ro, 0⟩
/-- R126: CORE.SKEW_PROBE.DONE. -/
def coreSkewProbeDone : RegField := ⟨0x204, 0, 1, 8, 4, .ro, 0⟩
/-- R126: CORE.SKEW_PROBE.FAILED. -/
def coreSkewProbeFailed : RegField := ⟨0x204, 0, 1, 12, 4, .ro, 0⟩
/-- R127: CORE.ROW_REPAIR.ROW0. -/
def coreRowRepairRow0 : RegField := ⟨0x210, 4, 4, 0, 5, .rw, 0⟩
/-- R127: CORE.ROW_REPAIR.ROW1. -/
def coreRowRepairRow1 : RegField := ⟨0x210, 4, 4, 8, 5, .rw, 0⟩
/-- R127: CORE.ROW_REPAIR.ROW2. -/
def coreRowRepairRow2 : RegField := ⟨0x210, 4, 4, 16, 5, .rw, 0⟩
/-- R127: CORE.ROW_REPAIR.ROW3. -/
def coreRowRepairRow3 : RegField := ⟨0x210, 4, 4, 24, 5, .rw, 0⟩
/-- R127: CORE.ROW_REPAIR.VALID0. -/
def coreRowRepairValid0 : RegField := ⟨0x210, 4, 4, 5, 1, .rw, 0⟩
/-- R127: CORE.ROW_REPAIR.VALID1. -/
def coreRowRepairValid1 : RegField := ⟨0x210, 4, 4, 13, 1, .rw, 0⟩
/-- R127: CORE.ROW_REPAIR.VALID2. -/
def coreRowRepairValid2 : RegField := ⟨0x210, 4, 4, 21, 1, .rw, 0⟩
/-- R127: CORE.ROW_REPAIR.VALID3. -/
def coreRowRepairValid3 : RegField := ⟨0x210, 4, 4, 29, 1, .rw, 0⟩
/-- R127: CORE.ROW_REPAIR.VOLATILE0. -/
def coreRowRepairVolatile0 : RegField := ⟨0x210, 4, 4, 6, 1, .ro, 0⟩
/-- R127: CORE.ROW_REPAIR.VOLATILE1. -/
def coreRowRepairVolatile1 : RegField := ⟨0x210, 4, 4, 14, 1, .ro, 0⟩
/-- R127: CORE.ROW_REPAIR.VOLATILE2. -/
def coreRowRepairVolatile2 : RegField := ⟨0x210, 4, 4, 22, 1, .ro, 0⟩
/-- R127: CORE.ROW_REPAIR.VOLATILE3. -/
def coreRowRepairVolatile3 : RegField := ⟨0x210, 4, 4, 30, 1, .ro, 0⟩
/-- R128: CORE.COL_REPAIR.COLUMN0. -/
def coreColRepairColumn0 : RegField := ⟨0x220, 4, 4, 0, 6, .rw, 0⟩
/-- R128: CORE.COL_REPAIR.COLUMN1. -/
def coreColRepairColumn1 : RegField := ⟨0x220, 4, 4, 8, 6, .rw, 0⟩
/-- R128: CORE.COL_REPAIR.VALID0. -/
def coreColRepairValid0 : RegField := ⟨0x220, 4, 4, 6, 1, .rw, 0⟩
/-- R128: CORE.COL_REPAIR.VALID1. -/
def coreColRepairValid1 : RegField := ⟨0x220, 4, 4, 14, 1, .rw, 0⟩
/-- R128: CORE.COL_REPAIR.VOLATILE0. -/
def coreColRepairVolatile0 : RegField := ⟨0x220, 4, 4, 7, 1, .ro, 0⟩
/-- R128: CORE.COL_REPAIR.VOLATILE1. -/
def coreColRepairVolatile1 : RegField := ⟨0x220, 4, 4, 15, 1, .ro, 0⟩
/-- R129: CORE.OFFSET_SELECT.ARRAY. -/
def coreOffsetSelectArray : RegField := ⟨0x230, 0, 1, 0, 2, .rw, 0⟩
/-- R129: CORE.OFFSET_SELECT.TABLE. -/
def coreOffsetSelectTable : RegField := ⟨0x230, 0, 1, 2, 1, .rw, 0⟩
/-- R129: CORE.OFFSET_SELECT.PHYSICAL. -/
def coreOffsetSelectPhysical : RegField := ⟨0x230, 0, 1, 8, 8, .rw, 0⟩
/-- R129: CORE.OFFSET_DATA.LOGICAL. -/
def coreOffsetDataLogical : RegField := ⟨0x234, 0, 1, 0, 8, .ro, 0⟩
/-- R129: CORE.OFFSET_DATA.OFFSET. -/
def coreOffsetDataOffset : RegField := ⟨0x234, 0, 1, 8, 8, .ro, 0⟩
/-- R129: CORE.OFFSET_DATA.IN_USE. -/
def coreOffsetDataInUse : RegField := ⟨0x234, 0, 1, 16, 1, .ro, 0⟩
/-- R130: CORE.ARRAY_WAVES. -/
def coreArrayWaves : RegField := ⟨0x240, 8, 4, 0, 64, .ro, 0⟩
/-- R130: CORE.ARRAY_STALL. -/
def coreArrayStall : RegField := ⟨0x260, 8, 4, 0, 64, .ro, 0⟩
/-- R130: CORE.ARRAY_PASSES. -/
def coreArrayPasses : RegField := ⟨0x280, 4, 4, 0, 32, .ro, 0⟩
/-- R187: CORE.EXEC_CONTROL.CHECKED. -/
def coreExecControlChecked : RegField := ⟨0x50, 0, 1, 0, 1, .rw, 0⟩
/-- R187: CORE.CHEAP_POINT_LIMIT.LIMIT. -/
def coreCheapPointLimitLimit : RegField := ⟨0x54, 0, 1, 0, 16, .rw, 20⟩
/-- R187: CORE.CHEAP_GAP_MAX.GAP. -/
def coreCheapGapMaxGap : RegField := ⟨0x58, 0, 1, 0, 32, .rc, 0⟩
/-- R187: CORE.CHEAP_LATE_COUNT.COUNT. -/
def coreCheapLateCountCount : RegField := ⟨0x5c, 0, 1, 0, 32, .rc, 0⟩
/-- R187: CORE.TRAP_CAUSE.CAUSE. -/
def coreTrapCauseCause : RegField := ⟨0x60, 0, 1, 0, 8, .ro, 0⟩
/-- R187: CORE.TRAP_CAUSE.DEFERRED. -/
def coreTrapCauseDeferred : RegField := ⟨0x60, 0, 1, 8, 1, .ro, 0⟩
/-- R187: CORE.TRAP_CAUSE.UNIT. -/
def coreTrapCauseUnit : RegField := ⟨0x60, 0, 1, 16, 8, .ro, 0⟩
/-- R187: CORE.TRAP_CAUSE.VALID. -/
def coreTrapCauseValid : RegField := ⟨0x60, 0, 1, 31, 1, .ro, 0⟩
/-- R187: CORE.TRAP_PC.PC. -/
def coreTrapPcPc : RegField := ⟨0x64, 0, 1, 0, 18, .ro, 0⟩
/-- R187: CORE.TRAP_DETAIL.DETAIL. -/
def coreTrapDetailDetail : RegField := ⟨0x68, 0, 1, 0, 64, .ro, 0⟩
/-- R187: CORE.TRAP_ACTION.ACTION. -/
def coreTrapActionAction : RegField := ⟨0x70, 0, 1, 0, 2, .wo, 0⟩
/-- R187: CORE.LOCKS_HELD.COUNT. -/
def coreLocksHeldCount : RegField := ⟨0x74, 0, 1, 0, 8, .ro, 0⟩
/-- R187: CORE.CHEAP_TABLE.ADDRESS. -/
def coreCheapTableAddress : RegField := ⟨0x78, 0, 1, 0, 64, .rw, 0⟩
/-- R187: CORE.CHEAP_TABLE_COUNT.COUNT. -/
def coreCheapTableCountCount : RegField := ⟨0x80, 0, 1, 0, 16, .rw, 0⟩
/-- R187: CORE.TRAP_STOP_PC.PC. -/
def coreTrapStopPcPc : RegField := ⟨0x84, 0, 1, 0, 18, .ro, 0⟩
/-- R187: CORE.SPAD_WAIT.TIME. -/
def coreSpadWaitTime : RegField := ⟨0x88, 0, 1, 0, 64, .ro, 0⟩
/-- R187: CORE.CHEAP_SKIPPED.COUNT. -/
def coreCheapSkippedCount : RegField := ⟨0x90, 0, 1, 0, 32, .rc, 0⟩
/-- R187: CORE.STREAM_STATUS.STATE. -/
def coreStreamStatusState : RegField := ⟨0x100, 4, 16, 0, 2, .ro, 0⟩
/-- R187: CORE.STREAM_STATUS.ERROR. -/
def coreStreamStatusError : RegField := ⟨0x100, 4, 16, 8, 8, .ro, 0⟩
/-- R187: CORE.STREAM_ERROR_ADDR.ADDRESS. -/
def coreStreamErrorAddrAddress : RegField := ⟨0x140, 8, 16, 0, 64, .ro, 0⟩
/-- R509: CORE.RNG_STEP.STEP. -/
def coreRngStepStep : RegField := ⟨0x98, 0, 1, 0, 64, .ro, 0⟩
/-- R509: CORE.RNG_SEED.SEED. -/
def coreRngSeedSeed : RegField := ⟨0xa0, 4, 4, 0, 32, .ro, 0⟩
/-- R211: SIGC.ARITH_FLAGS.SAT. -/
def sigcArithFlagsSat : RegField := ⟨0x48, 0, 1, 0, 1, .w1c, 0⟩
/-- R211: SIGC.ARITH_FLAGS.POISON. -/
def sigcArithFlagsPoison : RegField := ⟨0x48, 0, 1, 1, 1, .w1c, 0⟩
/-- R211: SIGC.TRAP_CAUSE.CAUSE. -/
def sigcTrapCauseCause : RegField := ⟨0x50, 0, 1, 0, 8, .ro, 0⟩
/-- R211: SIGC.TRAP_CAUSE.VALID. -/
def sigcTrapCauseValid : RegField := ⟨0x50, 0, 1, 31, 1, .ro, 0⟩
/-- R211: SIGC.TRAP_PC.PC. -/
def sigcTrapPcPc : RegField := ⟨0x54, 0, 1, 0, 16, .ro, 0⟩
/-- R211: SIGC.TRAP_DETAIL.DETAIL. -/
def sigcTrapDetailDetail : RegField := ⟨0x58, 0, 1, 0, 64, .ro, 0⟩
/-- R211: SIGC.TRAP_ACTION.ACTION. -/
def sigcTrapActionAction : RegField := ⟨0x60, 0, 1, 0, 2, .wo, 0⟩
/-- R211: SIGC.DOORBELL.RING. -/
def sigcDoorbellRing : RegField := ⟨0x64, 0, 1, 0, 1, .wo, 0⟩
/-- R211: SIGC.EVENT_PRIO.PRIO0. -/
def sigcEventPrioPrio0 : RegField := ⟨0x68, 0, 1, 0, 3, .rw, 0⟩
/-- R211: SIGC.EVENT_PRIO.PRIO1. -/
def sigcEventPrioPrio1 : RegField := ⟨0x68, 0, 1, 4, 3, .rw, 0⟩
/-- R211: SIGC.EVENT_PRIO.PRIO2. -/
def sigcEventPrioPrio2 : RegField := ⟨0x68, 0, 1, 8, 3, .rw, 0⟩
/-- R211: SIGC.EVENT_PRIO.PRIO3. -/
def sigcEventPrioPrio3 : RegField := ⟨0x68, 0, 1, 12, 3, .rw, 0⟩
/-- R211: SIGC.EVENT_PRIO.PRIO4. -/
def sigcEventPrioPrio4 : RegField := ⟨0x68, 0, 1, 16, 3, .rw, 0⟩
/-- R211: SIGC.EVENT_PRIO.PRIO5. -/
def sigcEventPrioPrio5 : RegField := ⟨0x68, 0, 1, 20, 3, .rw, 0⟩
/-- R211: SIGC.MEM_WAIT.TIME. -/
def sigcMemWaitTime : RegField := ⟨0x70, 0, 1, 0, 64, .ro, 0⟩
/-- R211: SIGC.DMA_STATUS.STATE. -/
def sigcDmaStatusState : RegField := ⟨0x78, 4, 2, 0, 2, .ro, 0⟩
/-- R211: SIGC.DMA_STATUS.ERROR. -/
def sigcDmaStatusError : RegField := ⟨0x78, 4, 2, 8, 8, .ro, 0⟩
/-- R211: SIGC.DMA_ERROR_ADDR.ADDRESS. -/
def sigcDmaErrorAddrAddress : RegField := ⟨0x80, 8, 2, 0, 64, .ro, 0⟩
/-- R211: SIGC.INGRESS_PRODUCED.COUNT. -/
def sigcIngressProducedCount : RegField := ⟨0x90, 0, 1, 0, 32, .ro, 0⟩
/-- R234: CODE.CAPS.LDPC_DECODERS. -/
def codeCapsLdpcDecoders : RegField := ⟨0x8, 0, 1, 0, 8, .ro, 24⟩
/-- R234: CODE.CAPS.LDPC_ENCODERS. -/
def codeCapsLdpcEncoders : RegField := ⟨0x8, 0, 1, 8, 8, .ro, 24⟩
/-- R234: CODE.CAPS.POLAR_UNITS. -/
def codeCapsPolarUnits : RegField := ⟨0x8, 0, 1, 16, 8, .ro, 8⟩
/-- R235: CODE.DEC_OWNER.PARTITION. -/
def codeDecOwnerPartition : RegField := ⟨0x40, 4, 24, 0, 6, .rw, 0⟩
/-- R235: CODE.DEC_OWNER.VALID. -/
def codeDecOwnerValid : RegField := ⟨0x40, 4, 24, 7, 1, .rw, 0⟩
/-- R235: CODE.ENC_OWNER.PARTITION. -/
def codeEncOwnerPartition : RegField := ⟨0xa0, 4, 24, 0, 6, .rw, 0⟩
/-- R235: CODE.ENC_OWNER.VALID. -/
def codeEncOwnerValid : RegField := ⟨0xa0, 4, 24, 7, 1, .rw, 0⟩
/-- R235: CODE.POLAR_OWNER.PARTITION. -/
def codePolarOwnerPartition : RegField := ⟨0x100, 4, 8, 0, 6, .rw, 0⟩
/-- R235: CODE.POLAR_OWNER.VALID. -/
def codePolarOwnerValid : RegField := ⟨0x100, 4, 8, 7, 1, .rw, 0⟩
/-- R235: CODE.QUEUE_DEPTH.COUNT. -/
def codeQueueDepthCount : RegField := ⟨0x200, 4, 64, 0, 11, .ro, 0⟩
/-- R235: CODE.LATE_COUNT.COUNT. -/
def codeLateCountCount : RegField := ⟨0x300, 4, 64, 0, 32, .rc, 0⟩
/-- R235: CODE.DEC_BUSY.TIME. -/
def codeDecBusyTime : RegField := ⟨0x400, 8, 24, 0, 64, .ro, 0⟩
/-- R235: CODE.ENC_BUSY.TIME. -/
def codeEncBusyTime : RegField := ⟨0x4c0, 8, 24, 0, 64, .ro, 0⟩
/-- R235: CODE.POLAR_BUSY.TIME. -/
def codePolarBusyTime : RegField := ⟨0x580, 8, 8, 0, 64, .ro, 0⟩
/-- R252: MSID.BUFFER_WAYS.WAYS. -/
def msidBufferWaysWays : RegField := ⟨0x40, 0, 1, 0, 16, .rw, 0⟩
/-- R252: MSID.DECODE_BUSY.TIME. -/
def msidDecodeBusyTime : RegField := ⟨0x48, 0, 1, 0, 64, .ro, 0⟩
/-- R252: MSID.TABLE_MISS.COUNT. -/
def msidTableMissCount : RegField := ⟨0x50, 0, 1, 0, 32, .rc, 0⟩
/-- R252: MSID.WAY_MASK.WAYS. -/
def msidWayMaskWays : RegField := ⟨0x100, 4, 64, 0, 16, .rw, 65535⟩
/-- R248: BULK.PORT_STATUS.LINK_UP. -/
def bulkPortStatusLinkUp : RegField := ⟨0x40, 0, 1, 0, 1, .ro, 0⟩
/-- R248: BULK.PORT_STATUS.IN_SET. -/
def bulkPortStatusInSet : RegField := ⟨0x40, 0, 1, 1, 1, .ro, 0⟩
/-- R248: BULK.PORT_STATUS.WIDTH. -/
def bulkPortStatusWidth : RegField := ⟨0x40, 0, 1, 2, 2, .ro, 0⟩
/-- R248: BULK.PORT_STATUS.SPEED. -/
def bulkPortStatusSpeed : RegField := ⟨0x40, 0, 1, 4, 2, .ro, 0⟩
/-- R248: BULK.CAPACITY.USED. -/
def bulkCapacityUsed : RegField := ⟨0x44, 0, 1, 0, 16, .ro, 0⟩
/-- R248: BULK.CAPACITY.MODULE. -/
def bulkCapacityModule : RegField := ⟨0x44, 0, 1, 16, 16, .ro, 0⟩
/-- R248: BULK.POISON_COUNT.COUNT. -/
def bulkPoisonCountCount : RegField := ⟨0x48, 0, 1, 0, 32, .rc, 0⟩
/-- R248: BULK.READ_BYTES.BYTES. -/
def bulkReadBytesBytes : RegField := ⟨0x50, 0, 1, 0, 64, .ro, 0⟩
/-- R441: AQZL.LINK_CONTROL.MODE. -/
def aqzlLinkControlMode : RegField := ⟨0x40, 0, 1, 0, 1, .rw, 0⟩
/-- R441: AQZL.LINK_CONTROL.RETRAIN. -/
def aqzlLinkControlRetrain : RegField := ⟨0x40, 0, 1, 1, 1, .w1s, 0⟩
/-- R441: AQZL.LINK_STATUS.STATE. -/
def aqzlLinkStatusState : RegField := ⟨0x44, 0, 1, 0, 3, .ro, 0⟩
/-- R441: AQZL.LINK_STATUS.ROLE. -/
def aqzlLinkStatusRole : RegField := ⟨0x44, 0, 1, 3, 1, .ro, 0⟩
/-- R441: AQZL.LINK_STATUS.ACTIVE. -/
def aqzlLinkStatusActive : RegField := ⟨0x44, 0, 1, 4, 4, .ro, 0⟩
/-- R441: AQZL.LINK_STATUS.ASLEEP. -/
def aqzlLinkStatusAsleep : RegField := ⟨0x44, 0, 1, 8, 4, .ro, 0⟩
/-- R441: AQZL.LINK_STATUS.RETIRED. -/
def aqzlLinkStatusRetired : RegField := ⟨0x44, 0, 1, 12, 4, .ro, 0⟩
/-- R441: AQZL.LINK_STATUS.PHASE. -/
def aqzlLinkStatusPhase : RegField := ⟨0x44, 0, 1, 16, 3, .ro, 0⟩
/-- R441: AQZL.PARTNER_ID.SERIAL. -/
def aqzlPartnerIdSerial : RegField := ⟨0x48, 0, 1, 0, 64, .ro, 0⟩
/-- R441: AQZL.FEC_CORRECTED.COUNT. -/
def aqzlFecCorrectedCount : RegField := ⟨0x50, 0, 1, 0, 64, .ro, 0⟩
/-- R441: AQZL.FEC_UNCORRECTED.COUNT. -/
def aqzlFecUncorrectedCount : RegField := ⟨0x58, 0, 1, 0, 32, .rc, 0⟩
/-- R441: AQZL.CRC_ERRORS.COUNT. -/
def aqzlCrcErrorsCount : RegField := ⟨0x5c, 0, 1, 0, 32, .rc, 0⟩
/-- R441: AQZL.RETRIES.COUNT. -/
def aqzlRetriesCount : RegField := ⟨0x60, 0, 1, 0, 32, .rc, 0⟩
/-- R441: AQZL.RETRAINS.COUNT. -/
def aqzlRetrainsCount : RegField := ⟨0x64, 0, 1, 0, 32, .rc, 0⟩
/-- R441: AQZL.VC_BUFFER.FLITS. -/
def aqzlVcBufferFlits : RegField := ⟨0x80, 4, 8, 0, 11, .rw, 0⟩
/-- R441: AQZL.VC_WEIGHT.WEIGHT. -/
def aqzlVcWeightWeight : RegField := ⟨0xa0, 4, 8, 0, 8, .rw, 1⟩
/-- R441: AQZL.POWER.IDLE_TIME. -/
def aqzlPowerIdleTime : RegField := ⟨0xc0, 0, 1, 0, 16, .rw, 50⟩
/-- R441: AQZL.POWER.ALLOW_SLEEP. -/
def aqzlPowerAllowSleep : RegField := ⟨0xc0, 0, 1, 16, 1, .rw, 0⟩
/-- R441: AQZL.LANE_SELECT.LANE. -/
def aqzlLaneSelectLane : RegField := ⟨0xc8, 0, 1, 0, 2, .rw, 0⟩
/-- R441: AQZL.LANE_STATUS.GAIN. -/
def aqzlLaneStatusGain : RegField := ⟨0xcc, 0, 1, 0, 8, .ro, 0⟩
/-- R441: AQZL.LANE_STATUS.RESIDUAL. -/
def aqzlLaneStatusResidual : RegField := ⟨0xcc, 0, 1, 8, 8, .ro, 0⟩
/-- R441: AQZL.LANE_STATUS.STATE. -/
def aqzlLaneStatusState : RegField := ⟨0xcc, 0, 1, 16, 2, .ro, 0⟩
/-- R441: AQZL.LANE_ERRORS.COUNT. -/
def aqzlLaneErrorsCount : RegField := ⟨0xd0, 0, 1, 0, 32, .rc, 0⟩
/-- R469: FABR.DEVICE_ID.DEVICE. -/
def fabrDeviceIdDevice : RegField := ⟨0x40, 0, 1, 0, 12, .rw, 0⟩
/-- R469: FABR.DEVICE_ID.VALID. -/
def fabrDeviceIdValid : RegField := ⟨0x40, 0, 1, 31, 1, .rw, 0⟩
/-- R469: FABR.SPAN_SHAPE.X. -/
def fabrSpanShapeX : RegField := ⟨0x44, 0, 1, 0, 2, .rw, 0⟩
/-- R469: FABR.SPAN_SHAPE.Y. -/
def fabrSpanShapeY : RegField := ⟨0x44, 0, 1, 2, 2, .rw, 0⟩
/-- R469: FABR.SPAN_SHAPE.Z. -/
def fabrSpanShapeZ : RegField := ⟨0x44, 0, 1, 4, 2, .rw, 0⟩
/-- R469: FABR.SPAN_SHAPE.LEAD. -/
def fabrSpanShapeLead : RegField := ⟨0x44, 0, 1, 8, 6, .rw, 0⟩
/-- R469: FABR.GROUP_MEMBERS.MEMBER0. -/
def fabrGroupMembersMember0 : RegField := ⟨0x48, 0, 1, 0, 6, .rw, 0⟩
/-- R469: FABR.GROUP_MEMBERS.MEMBER1. -/
def fabrGroupMembersMember1 : RegField := ⟨0x48, 0, 1, 8, 6, .rw, 0⟩
/-- R469: FABR.GROUP_MEMBERS.MEMBER2. -/
def fabrGroupMembersMember2 : RegField := ⟨0x48, 0, 1, 16, 6, .rw, 0⟩
/-- R469: FABR.GROUP_MEMBERS.MEMBER3. -/
def fabrGroupMembersMember3 : RegField := ⟨0x48, 0, 1, 24, 6, .rw, 0⟩
/-- R469: FABR.GROUP_MEMBERS.MEMBER4. -/
def fabrGroupMembersMember4 : RegField := ⟨0x48, 0, 1, 32, 6, .rw, 0⟩
/-- R469: FABR.GROUP_MEMBERS.MEMBER5. -/
def fabrGroupMembersMember5 : RegField := ⟨0x48, 0, 1, 40, 6, .rw, 0⟩
/-- R469: FABR.GROUP_MEMBERS.MEMBER6. -/
def fabrGroupMembersMember6 : RegField := ⟨0x48, 0, 1, 48, 6, .rw, 0⟩
/-- R469: FABR.GROUP_MEMBERS.MEMBER7. -/
def fabrGroupMembersMember7 : RegField := ⟨0x48, 0, 1, 56, 6, .rw, 0⟩
/-- R469: FABR.GROUP_MEMBERS.VALID0. -/
def fabrGroupMembersValid0 : RegField := ⟨0x48, 0, 1, 7, 1, .rw, 0⟩
/-- R469: FABR.GROUP_MEMBERS.VALID1. -/
def fabrGroupMembersValid1 : RegField := ⟨0x48, 0, 1, 15, 1, .rw, 0⟩
/-- R469: FABR.GROUP_MEMBERS.VALID2. -/
def fabrGroupMembersValid2 : RegField := ⟨0x48, 0, 1, 23, 1, .rw, 0⟩
/-- R469: FABR.GROUP_MEMBERS.VALID3. -/
def fabrGroupMembersValid3 : RegField := ⟨0x48, 0, 1, 31, 1, .rw, 0⟩
/-- R469: FABR.GROUP_MEMBERS.VALID4. -/
def fabrGroupMembersValid4 : RegField := ⟨0x48, 0, 1, 39, 1, .rw, 0⟩
/-- R469: FABR.GROUP_MEMBERS.VALID5. -/
def fabrGroupMembersValid5 : RegField := ⟨0x48, 0, 1, 47, 1, .rw, 0⟩
/-- R469: FABR.GROUP_MEMBERS.VALID6. -/
def fabrGroupMembersValid6 : RegField := ⟨0x48, 0, 1, 55, 1, .rw, 0⟩
/-- R469: FABR.GROUP_MEMBERS.VALID7. -/
def fabrGroupMembersValid7 : RegField := ⟨0x48, 0, 1, 63, 1, .rw, 0⟩
/-- R469: FABR.ADAPT_CONTROL.ENABLE. -/
def fabrAdaptControlEnable : RegField := ⟨0x50, 0, 1, 0, 1, .rw, 1⟩
/-- R469: FABR.ADAPT_CONTROL.ADAPT_TIME. -/
def fabrAdaptControlAdaptTime : RegField := ⟨0x50, 0, 1, 8, 8, .rw, 2⟩
/-- R469: FABR.REQ_TIMEOUT.MICROS. -/
def fabrReqTimeoutMicros : RegField := ⟨0x54, 0, 1, 0, 16, .rw, 1000⟩
/-- R469: FABR.DRAIN_TIMEOUT.MICROS. -/
def fabrDrainTimeoutMicros : RegField := ⟨0x58, 0, 1, 0, 16, .rw, 1000⟩
/-- R469: FABR.REPL_CONTROL.ENABLE. -/
def fabrReplControlEnable : RegField := ⟨0x5c, 0, 1, 0, 1, .rw, 1⟩
/-- R469: FABR.REPL_CONTROL.READERS. -/
def fabrReplControlReaders : RegField := ⟨0x5c, 0, 1, 8, 4, .rw, 4⟩
/-- R469: FABR.TIME_CONTROL.MASTER. -/
def fabrTimeControlMaster : RegField := ⟨0x60, 0, 1, 0, 1, .rw, 0⟩
/-- R469: FABR.TIME_CONTROL.UPSTREAM. -/
def fabrTimeControlUpstream : RegField := ⟨0x60, 0, 1, 8, 4, .ro, 0⟩
/-- R469: FABR.TIME_OFFSET.OFFSET. -/
def fabrTimeOffsetOffset : RegField := ⟨0x68, 0, 1, 0, 64, .ro, 0⟩
/-- R469: FABR.PORT_PEER.DEVICE. -/
def fabrPortPeerDevice : RegField := ⟨0x70, 4, 8, 0, 12, .ro, 0⟩
/-- R469: FABR.PORT_PEER.VALID. -/
def fabrPortPeerValid : RegField := ⟨0x70, 4, 8, 31, 1, .ro, 0⟩
/-- R469: FABR.REACHABLE.MEMBERS. -/
def fabrReachableMembers : RegField := ⟨0x90, 0, 1, 0, 64, .ro, 0⟩
/-- R469: FABR.QUENCH.PARTITIONS. -/
def fabrQuenchPartitions : RegField := ⟨0x98, 0, 1, 0, 64, .rw, 0⟩
/-- R469: FABR.QUENCH_STATE.PARTITIONS. -/
def fabrQuenchStatePartitions : RegField := ⟨0xa0, 0, 1, 0, 64, .ro, 0⟩
/-- R469: FABR.SEALS_OPEN.COUNT. -/
def fabrSealsOpenCount : RegField := ⟨0xa8, 0, 1, 0, 7, .ro, 0⟩
/-- R469: FABR.REROUTES.COUNT. -/
def fabrReroutesCount : RegField := ⟨0xac, 0, 1, 0, 32, .rc, 0⟩
/-- R469: FABR.ABSORBED.COUNT. -/
def fabrAbsorbedCount : RegField := ⟨0xb0, 0, 1, 0, 64, .ro, 0⟩
/-- R469: FABR.REFUSED.COUNT. -/
def fabrRefusedCount : RegField := ⟨0xb8, 0, 1, 0, 32, .rc, 0⟩
/-- R469: FABR.COMBINED.COUNT. -/
def fabrCombinedCount : RegField := ⟨0xc0, 0, 1, 0, 64, .ro, 0⟩
/-- R469: FABR.SPAN_ROUTE.GATEWAY. -/
def fabrSpanRouteGateway : RegField := ⟨0x100, 4, 64, 0, 6, .rw, 0⟩
/-- R469: FABR.SPAN_ROUTE.PORT. -/
def fabrSpanRoutePort : RegField := ⟨0x100, 4, 64, 6, 1, .rw, 0⟩
/-- R469: FABR.SPAN_ROUTE.VALID. -/
def fabrSpanRouteValid : RegField := ⟨0x100, 4, 64, 7, 1, .rw, 0⟩
/-- R469: FABR.PEER_RANGE.LOW. -/
def fabrPeerRangeLow : RegField := ⟨0x200, 4, 64, 0, 12, .rw, 0⟩
/-- R469: FABR.PEER_RANGE.HIGH. -/
def fabrPeerRangeHigh : RegField := ⟨0x200, 4, 64, 16, 12, .rw, 0⟩
/-- R469: FABR.PEER_RANGE.VALID. -/
def fabrPeerRangeValid : RegField := ⟨0x200, 4, 64, 31, 1, .rw, 0⟩
/-- R496: ETHP.CONFIG.GROUP_MODE. -/
def ethpConfigGroupMode : RegField := ⟨0x40, 0, 1, 0, 2, .rw, 3⟩
/-- R496: ETHP.CONFIG.INTERFACE. -/
def ethpConfigInterface : RegField := ⟨0x40, 0, 1, 2, 2, .rw, 0⟩
/-- R496: ETHP.CONFIG.AUTONEG. -/
def ethpConfigAutoneg : RegField := ⟨0x40, 0, 1, 4, 1, .rw, 1⟩
/-- R496: ETHP.CONFIG.MAX_FRAME. -/
def ethpConfigMaxFrame : RegField := ⟨0x40, 0, 1, 16, 14, .rw, 9216⟩
/-- R496: ETHP.MAC_ADDR.ADDRESS. -/
def ethpMacAddrAddress : RegField := ⟨0x48, 0, 1, 0, 48, .rw, 0⟩
/-- R496: ETHP.PORT_STATUS.LINK_UP. -/
def ethpPortStatusLinkUp : RegField := ⟨0x50, 0, 1, 0, 1, .ro, 0⟩
/-- R496: ETHP.PORT_STATUS.IN_USE. -/
def ethpPortStatusInUse : RegField := ⟨0x50, 0, 1, 1, 1, .ro, 0⟩
/-- R496: ETHP.PORT_STATUS.SPEED. -/
def ethpPortStatusSpeed : RegField := ⟨0x50, 0, 1, 2, 3, .ro, 0⟩
/-- R496: ETHP.TX_DELAY.DELAY. -/
def ethpTxDelayDelay : RegField := ⟨0x54, 0, 1, 0, 32, .rw, 0⟩
/-- R496: ETHP.RX_DELAY.DELAY. -/
def ethpRxDelayDelay : RegField := ⟨0x58, 0, 1, 0, 32, .rw, 0⟩
/-- R496: ETHP.RX_FRAMES.COUNT. -/
def ethpRxFramesCount : RegField := ⟨0x60, 0, 1, 0, 64, .ro, 0⟩
/-- R496: ETHP.TX_FRAMES.COUNT. -/
def ethpTxFramesCount : RegField := ⟨0x68, 0, 1, 0, 64, .ro, 0⟩
/-- R496: ETHP.FEC_CORRECTED.COUNT. -/
def ethpFecCorrectedCount : RegField := ⟨0x70, 0, 1, 0, 64, .ro, 0⟩
/-- R496: ETHP.FCS_ERRORS.COUNT. -/
def ethpFcsErrorsCount : RegField := ⟨0x78, 0, 1, 0, 32, .rc, 0⟩
/-- R496: ETHP.DROP_UNMATCHED.COUNT. -/
def ethpDropUnmatchedCount : RegField := ⟨0x7c, 0, 1, 0, 32, .rc, 0⟩
/-- R496: ETHP.DROP_POLICE.COUNT. -/
def ethpDropPoliceCount : RegField := ⟨0x80, 0, 1, 0, 32, .rc, 0⟩
/-- R496: ETHP.DROP_RING.COUNT. -/
def ethpDropRingCount : RegField := ⟨0x84, 0, 1, 0, 32, .rc, 0⟩
/-- R496: ETHP.DROP_QUEUE.COUNT. -/
def ethpDropQueueCount : RegField := ⟨0x88, 0, 1, 0, 32, .rc, 0⟩
/-- R496: ETHP.FEC_UNCORRECTED.COUNT. -/
def ethpFecUncorrectedCount : RegField := ⟨0x8c, 0, 1, 0, 32, .rc, 0⟩
/-- R496: ETHP.PAUSE_RX.COUNT. -/
def ethpPauseRxCount : RegField := ⟨0x90, 0, 1, 0, 32, .rc, 0⟩
/-- R496: ETHP.ECPRI_SEQ_GAPS.COUNT. -/
def ethpEcpriSeqGapsCount : RegField := ⟨0x94, 0, 1, 0, 32, .rc, 0⟩
/-- R496: ETHP.TXTS_DROPPED.COUNT. -/
def ethpTxtsDroppedCount : RegField := ⟨0x98, 0, 1, 0, 32, .rc, 0⟩
/-- R496: ETHP.TXTS_POP.TAG. -/
def ethpTxtsPopTag : RegField := ⟨0xa0, 0, 1, 0, 16, .ro, 0⟩
/-- R496: ETHP.TXTS_POP.VALID. -/
def ethpTxtsPopValid : RegField := ⟨0xa0, 0, 1, 31, 1, .ro, 0⟩
/-- R496: ETHP.TXTS_SECONDS.SECONDS. -/
def ethpTxtsSecondsSeconds : RegField := ⟨0xa8, 0, 1, 0, 48, .ro, 0⟩
/-- R496: ETHP.TXTS_NANO.NANO. -/
def ethpTxtsNanoNano : RegField := ⟨0xb0, 0, 1, 0, 30, .ro, 0⟩
/-- R496: ETHP.TXTS_FRAC.FRACTION. -/
def ethpTxtsFracFraction : RegField := ⟨0xb4, 0, 1, 0, 16, .ro, 0⟩
/-- R496: ETHP.TXTS_LEVEL.COUNT. -/
def ethpTxtsLevelCount : RegField := ⟨0xb8, 0, 1, 0, 8, .ro, 0⟩
/-- R271: PART.HEAT_CONTROL.ENABLE. -/
def partHeatControlEnable : RegField := ⟨0x200, 0, 1, 0, 1, .rw, 0⟩
/-- R271: PART.HEAT_CONTROL.THRESHOLD. -/
def partHeatControlThreshold : RegField := ⟨0x200, 0, 1, 8, 8, .rw, 64⟩
/-- R271: PART.HEAT_CONTROL.EPOCH. -/
def partHeatControlEpoch : RegField := ⟨0x200, 0, 1, 16, 16, .rw, 1000⟩
/-- R271: PART.STALL_TIME.TIME. -/
def partStallTimeTime : RegField := ⟨0x208, 8, 5, 0, 64, .ro, 0⟩
/-- R271: PART.RESOURCE_COUNT.RESOURCED. -/
def partResourceCountResourced : RegField := ⟨0x230, 0, 1, 0, 16, .rc, 0⟩
/-- R271: PART.RESOURCE_COUNT.LOST. -/
def partResourceCountLost : RegField := ⟨0x230, 0, 1, 16, 16, .rc, 0⟩
/-- R271: PART.HEAT_MOVES.COUNT. -/
def partHeatMovesCount : RegField := ⟨0x234, 0, 1, 0, 32, .rc, 0⟩
/-- R313: PART.RADIO_STATUS.CAL_STATE. -/
def partRadioStatusCalState : RegField := ⟨0x300, 0, 1, 0, 2, .ro, 0⟩
/-- R313: PART.RADIO_STATUS.FLOOR_CORES. -/
def partRadioStatusFloorCores : RegField := ⟨0x300, 0, 1, 8, 8, .ro, 0⟩
/-- R313: PART.RADIO_STATUS.SURGE_CORES. -/
def partRadioStatusSurgeCores : RegField := ⟨0x300, 0, 1, 16, 8, .ro, 0⟩
/-- R313: PART.BUDGET_RATE.RATE. -/
def partBudgetRateRate : RegField := ⟨0x304, 0, 1, 0, 16, .ro, 0⟩
/-- R313: PART.BUDGET_RATE.SOAK_RATE. -/
def partBudgetRateSoakRate : RegField := ⟨0x304, 0, 1, 16, 16, .ro, 0⟩
/-- R313: PART.SURGE_CONTROL.MAX_SURGE. -/
def partSurgeControlMaxSurge : RegField := ⟨0x308, 0, 1, 0, 8, .rw, 0⟩
/-- R313: PART.SURGE_CONTROL.CLAIM_LEAD. -/
def partSurgeControlClaimLead : RegField := ⟨0x308, 0, 1, 8, 8, .rw, 120⟩
/-- R313: PART.SURGE_DONORS.MASK. -/
def partSurgeDonorsMask : RegField := ⟨0x310, 0, 1, 0, 64, .rw, 0⟩
/-- R313: PART.CELL_SELECT.CELL. -/
def partCellSelectCell : RegField := ⟨0x318, 0, 1, 0, 9, .rw, 0⟩
/-- R313: PART.CELL_MISS.COUNT. -/
def partCellMissCount : RegField := ⟨0x31c, 0, 1, 0, 32, .rc, 0⟩
/-- R313: PART.CELL_UPLANE_LATE.COUNT. -/
def partCellUplaneLateCount : RegField := ⟨0x320, 0, 1, 0, 32, .rc, 0⟩
/-- R313: PART.CELL_POISON_PRB.COUNT. -/
def partCellPoisonPrbCount : RegField := ⟨0x324, 0, 1, 0, 32, .rc, 0⟩
/-- R313: PART.MISS_TOTAL.COUNT. -/
def partMissTotalCount : RegField := ⟨0x328, 0, 1, 0, 32, .rc, 0⟩
/-- R313: PART.CAL_RATIO.RATIO. -/
def partCalRatioRatio : RegField := ⟨0x32c, 0, 1, 0, 16, .ro, 0⟩
/-- R313: PART.CLAIM_LATE.COUNT. -/
def partClaimLateCount : RegField := ⟨0x330, 0, 1, 0, 32, .rc, 0⟩
/-- R313: PART.SLOT_CMD_LATE.COUNT. -/
def partSlotCmdLateCount : RegField := ⟨0x334, 0, 1, 0, 32, .rc, 0⟩
/-- R348: PART.SERVE_SELECT.GROUP. -/
def partServeSelectGroup : RegField := ⟨0x240, 0, 1, 0, 3, .rw, 0⟩
/-- R348: PART.SERVE_STEPS.COUNT. -/
def partServeStepsCount : RegField := ⟨0x248, 0, 1, 0, 64, .ro, 0⟩
/-- R348: PART.SERVE_TOKENS.COUNT. -/
def partServeTokensCount : RegField := ⟨0x250, 0, 1, 0, 64, .ro, 0⟩
/-- R348: PART.SERVE_BATCH.LAST. -/
def partServeBatchLast : RegField := ⟨0x258, 0, 1, 0, 14, .ro, 0⟩
/-- R348: PART.SERVE_BATCH.HELD. -/
def partServeBatchHeld : RegField := ⟨0x258, 0, 1, 16, 14, .ro, 0⟩
/-- R348: PART.KV_FREE.COUNT. -/
def partKvFreeCount : RegField := ⟨0x25c, 0, 1, 0, 22, .ro, 0⟩
/-- R348: PART.KV_STARVED.COUNT. -/
def partKvStarvedCount : RegField := ⟨0x260, 0, 1, 0, 32, .rc, 0⟩
/-- R348: PART.OUTPUT_HELD.COUNT. -/
def partOutputHeldCount : RegField := ⟨0x264, 0, 1, 0, 32, .rc, 0⟩
/-- R348: PART.RESHARD_BYTES.BYTES. -/
def partReshardBytesBytes : RegField := ⟨0x268, 0, 1, 0, 64, .ro, 0⟩
/-- R382: PART.CONFIG.KIND. -/
def partConfigKind : RegField := ⟨0x40, 0, 1, 0, 2, .rw, 0⟩
/-- R382: PART.CONFIG.FUNCTION. -/
def partConfigFunction : RegField := ⟨0x40, 0, 1, 8, 8, .rw, 0⟩
/-- R382: PART.CORE_MASK.CORES. -/
def partCoreMaskCores : RegField := ⟨0x48, 4, 5, 0, 32, .ro, 0⟩
/-- R382: PART.CORE_TARGET.CORES. -/
def partCoreTargetCores : RegField := ⟨0x60, 4, 5, 0, 32, .rw, 0⟩
/-- R382: PART.SIGC_MASK.CORES. -/
def partSigcMaskCores : RegField := ⟨0x78, 4, 2, 0, 32, .ro, 0⟩
/-- R382: PART.SIGC_TARGET.CORES. -/
def partSigcTargetCores : RegField := ⟨0x80, 4, 2, 0, 32, .rw, 0⟩
/-- R382: PART.RESIZE.START. -/
def partResizeStart : RegField := ⟨0x88, 0, 1, 0, 1, .w1s, 0⟩
/-- R382: PART.RESIZE.BUSY. -/
def partResizeBusy : RegField := ⟨0x88, 0, 1, 1, 1, .ro, 0⟩
/-- R382: PART.RESIZE.RESULT. -/
def partResizeResult : RegField := ⟨0x88, 0, 1, 16, 16, .ro, 0⟩
/-- R382: PART.HBM_ALLOT.UNITS. -/
def partHbmAllotUnits : RegField := ⟨0x90, 0, 1, 0, 19, .rw, 0⟩
/-- R382: PART.BULK_ALLOT.UNITS. -/
def partBulkAllotUnits : RegField := ⟨0x94, 0, 1, 0, 24, .rw, 0⟩
/-- R382: PART.HBM_USED.UNITS. -/
def partHbmUsedUnits : RegField := ⟨0x98, 0, 1, 0, 19, .ro, 0⟩
/-- R382: PART.BULK_USED.UNITS. -/
def partBulkUsedUnits : RegField := ⟨0x9c, 0, 1, 0, 24, .ro, 0⟩
/-- R382: PART.SQ_BASE.BASE. -/
def partSqBaseBase : RegField := ⟨0xa0, 0, 1, 0, 20, .rw, 0⟩
/-- R382: PART.SQ_COUNT.COUNT. -/
def partSqCountCount : RegField := ⟨0xa4, 0, 1, 0, 21, .rw, 0⟩
/-- R382: PART.CQ_BASE.BASE. -/
def partCqBaseBase : RegField := ⟨0xa8, 0, 1, 0, 18, .rw, 0⟩
/-- R382: PART.CQ_COUNT.COUNT. -/
def partCqCountCount : RegField := ⟨0xac, 0, 1, 0, 19, .rw, 0⟩
/-- R382: PART.SEM_BASE.BASE. -/
def partSemBaseBase : RegField := ⟨0xb0, 0, 1, 0, 16, .rw, 0⟩
/-- R382: PART.SEM_COUNT.COUNT. -/
def partSemCountCount : RegField := ⟨0xb4, 0, 1, 0, 17, .rw, 0⟩
/-- R382: PART.STREAM_BASE.BASE. -/
def partStreamBaseBase : RegField := ⟨0xb8, 0, 1, 0, 16, .rw, 0⟩
/-- R382: PART.STREAM_COUNT.COUNT. -/
def partStreamCountCount : RegField := ⟨0xbc, 0, 1, 0, 17, .rw, 0⟩
/-- R382: PART.KV_BASE.BASE. -/
def partKvBaseBase : RegField := ⟨0xc0, 0, 1, 0, 21, .rw, 0⟩
/-- R382: PART.KV_COUNT.COUNT. -/
def partKvCountCount : RegField := ⟨0xc4, 0, 1, 0, 22, .rw, 0⟩
/-- R382: PART.FABRIC_QUOTA.QUOTA. -/
def partFabricQuotaQuota : RegField := ⟨0xc8, 4, 6, 0, 15, .rw, 0⟩
/-- R382: PART.SLICE.MICROS. -/
def partSliceMicros : RegField := ⟨0x100, 0, 1, 0, 16, .rw, 2000⟩
/-- R382: PART.CTX_TABLE.ADDRESS. -/
def partCtxTableAddress : RegField := ⟨0x108, 0, 1, 0, 64, .rw, 0⟩
/-- R382: PART.CTX_CONTROL.CONTEXT. -/
def partCtxControlContext : RegField := ⟨0x110, 0, 1, 0, 8, .wo, 0⟩
/-- R382: PART.CTX_CONTROL.ACTION. -/
def partCtxControlAction : RegField := ⟨0x110, 0, 1, 8, 3, .wo, 0⟩
/-- R382: PART.CTX_RESULT.CODE. -/
def partCtxResultCode : RegField := ⟨0x114, 0, 1, 0, 16, .ro, 0⟩
/-- R382: PART.CTX_RESULT.DONE. -/
def partCtxResultDone : RegField := ⟨0x114, 0, 1, 31, 1, .ro, 1⟩
/-- R382: PART.CTX_SELECT.CONTEXT. -/
def partCtxSelectContext : RegField := ⟨0x118, 0, 1, 0, 8, .rw, 0⟩
/-- R382: PART.CTX_STATE.STATE. -/
def partCtxStateState : RegField := ⟨0x11c, 0, 1, 0, 3, .ro, 0⟩
/-- R382: PART.CTX_TIME.TIME. -/
def partCtxTimeTime : RegField := ⟨0x120, 0, 1, 0, 64, .ro, 0⟩
/-- R382: PART.CTX_VTIME.VTIME. -/
def partCtxVtimeVtime : RegField := ⟨0x128, 0, 1, 0, 64, .ro, 0⟩
/-- R382: PART.PREEMPT_CHEAP.COUNT. -/
def partPreemptCheapCount : RegField := ⟨0x130, 0, 1, 0, 32, .rc, 0⟩
/-- R382: PART.PREEMPT_FORCED.COUNT. -/
def partPreemptForcedCount : RegField := ⟨0x134, 0, 1, 0, 32, .rc, 0⟩
/-- R382: PART.DONATED_TIME.TIME. -/
def partDonatedTimeTime : RegField := ⟨0x138, 0, 1, 0, 64, .ro, 0⟩
/-- R382: PART.DIRTY_CONTROL.ENABLE. -/
def partDirtyControlEnable : RegField := ⟨0x280, 0, 1, 0, 1, .rw, 0⟩
/-- R382: PART.DIRTY_CONTROL.ATOMIC_FAIL. -/
def partDirtyControlAtomicFail : RegField := ⟨0x280, 0, 1, 1, 1, .w1c, 0⟩
/-- R382: PART.DIRTY_BITMAP.ADDRESS. -/
def partDirtyBitmapAddress : RegField := ⟨0x288, 0, 1, 0, 64, .rw, 0⟩
/-- R382: PART.DIRTY_PASID.PASID. -/
def partDirtyPasidPasid : RegField := ⟨0x290, 0, 1, 0, 20, .rw, 0⟩
/-- R382: PART.DIRTY_BASE.ADDRESS. -/
def partDirtyBaseAddress : RegField := ⟨0x298, 0, 1, 0, 64, .rw, 0⟩
/-- R382: PART.DIRTY_LENGTH.BYTES. -/
def partDirtyLengthBytes : RegField := ⟨0x2a0, 0, 1, 0, 64, .rw, 0⟩
/-- R519: PART.RECORD_CONTROL.MODE. -/
def partRecordControlMode : RegField := ⟨0x340, 0, 1, 0, 2, .rw, 0⟩
/-- R519: PART.RECORD_CONTROL.SUPPRESS_EGRESS. -/
def partRecordControlSuppressEgress : RegField := ⟨0x340, 0, 1, 2, 1, .rw, 1⟩
/-- R519: PART.RECORD_CONTROL.STOP_ON_DIVERGE. -/
def partRecordControlStopOnDiverge : RegField := ⟨0x340, 0, 1, 3, 1, .rw, 1⟩
/-- R519: PART.RECORD_STATUS.STATE. -/
def partRecordStatusState : RegField := ⟨0x344, 0, 1, 0, 3, .ro, 0⟩
/-- R519: PART.RECORD_BASE.ADDRESS. -/
def partRecordBaseAddress : RegField := ⟨0x348, 0, 1, 0, 64, .rw, 0⟩
/-- R519: PART.RECORD_BYTES.BYTES. -/
def partRecordBytesBytes : RegField := ⟨0x350, 0, 1, 0, 64, .rw, 0⟩
/-- R519: PART.RECORD_HEAD.BYTES. -/
def partRecordHeadBytes : RegField := ⟨0x358, 0, 1, 0, 64, .ro, 0⟩
/-- R519: PART.REPLAY_SET.LOW. -/
def partReplaySetLow : RegField := ⟨0x360, 0, 1, 0, 12, .rw, 0⟩
/-- R519: PART.REPLAY_SET.HIGH. -/
def partReplaySetHigh : RegField := ⟨0x360, 0, 1, 16, 12, .rw, 0⟩
/-- R519: PART.REPLAY_SET.VALID. -/
def partReplaySetValid : RegField := ⟨0x360, 0, 1, 31, 1, .rw, 0⟩
/-- R519: PART.BOUNDARY.COUNT. -/
def partBoundaryCount : RegField := ⟨0x368, 0, 1, 0, 64, .ro, 0⟩
/-- R519: PART.DIVERGE_BOUNDARY.COUNT. -/
def partDivergeBoundaryCount : RegField := ⟨0x370, 0, 1, 0, 64, .ro, 0⟩
/-- R519: PART.DIVERGE_INFO.KIND. -/
def partDivergeInfoKind : RegField := ⟨0x378, 0, 1, 0, 4, .ro, 0⟩
/-- R519: PART.DIVERGE_INFO.VALID. -/
def partDivergeInfoValid : RegField := ⟨0x378, 0, 1, 31, 1, .ro, 0⟩
/-- R555: RASP.FLIP_SELECT.TARGET. -/
def raspFlipSelectTarget : RegField := ⟨0x40, 0, 1, 0, 4, .rw, 0⟩
/-- R555: RASP.FLIP_SELECT.UNIT. -/
def raspFlipSelectUnit : RegField := ⟨0x40, 0, 1, 8, 8, .rw, 0⟩
/-- R555: RASP.FLIP_SELECT.POSITION. -/
def raspFlipSelectPosition : RegField := ⟨0x40, 0, 1, 16, 6, .rw, 0⟩
/-- R555: RASP.FLIP_SELECT.MATCH. -/
def raspFlipSelectMatch : RegField := ⟨0x40, 0, 1, 31, 1, .rw, 0⟩
/-- R555: RASP.FLIP_ADDRESS.ADDRESS. -/
def raspFlipAddressAddress : RegField := ⟨0x48, 0, 1, 0, 64, .rw, 0⟩
/-- R555: RASP.FLIP_MASK.MASK. -/
def raspFlipMaskMask : RegField := ⟨0x50, 0, 1, 0, 72, .rw, 0⟩
/-- R555: RASP.FLIP_CONTROL.ARM. -/
def raspFlipControlArm : RegField := ⟨0x5c, 0, 1, 0, 1, .w1s, 0⟩
/-- R555: RASP.FLIP_CONTROL.FIRED. -/
def raspFlipControlFired : RegField := ⟨0x5c, 0, 1, 1, 1, .w1c, 0⟩
/-- R555: RASP.FLIP_HIT.ADDRESS. -/
def raspFlipHitAddress : RegField := ⟨0x60, 0, 1, 0, 64, .ro, 0⟩
/-- R555: RASP.CORE_FENCE.CORE. -/
def raspCoreFenceCore : RegField := ⟨0x68, 0, 1, 0, 8, .wo, 0⟩
/-- R555: RASP.CORE_FENCE.FENCE. -/
def raspCoreFenceFence : RegField := ⟨0x68, 0, 1, 31, 1, .wo, 0⟩
/-- R555: RASP.REPLACE_COUNT.COUNT. -/
def raspReplaceCountCount : RegField := ⟨0x6c, 0, 1, 0, 32, .rc, 0⟩
/-- R555: RASP.CORE_RETIRE.PHYSICAL. -/
def raspCoreRetirePhysical : RegField := ⟨0x70, 8, 4, 0, 44, .rw, 0⟩
/-- R555: RASP.SPARES.FREE_CORES0. -/
def raspSparesFreeCores0 : RegField := ⟨0x90, 0, 1, 0, 4, .ro, 0⟩
/-- R555: RASP.SPARES.FREE_CORES1. -/
def raspSparesFreeCores1 : RegField := ⟨0x90, 0, 1, 4, 4, .ro, 0⟩
/-- R555: RASP.SPARES.FREE_CORES2. -/
def raspSparesFreeCores2 : RegField := ⟨0x90, 0, 1, 8, 4, .ro, 0⟩
/-- R555: RASP.SPARES.FREE_CORES3. -/
def raspSparesFreeCores3 : RegField := ⟨0x90, 0, 1, 12, 4, .ro, 0⟩
/-- R555: RASP.SPARES.FREE_SIGC0. -/
def raspSparesFreeSigc0 : RegField := ⟨0x90, 0, 1, 16, 1, .ro, 0⟩
/-- R555: RASP.SPARES.FREE_SIGC1. -/
def raspSparesFreeSigc1 : RegField := ⟨0x90, 0, 1, 17, 1, .ro, 0⟩
/-- R555: RASP.SPARES.FREE_SIGC2. -/
def raspSparesFreeSigc2 : RegField := ⟨0x90, 0, 1, 18, 1, .ro, 0⟩
/-- R555: RASP.SPARES.FREE_SIGC3. -/
def raspSparesFreeSigc3 : RegField := ⟨0x90, 0, 1, 19, 1, .ro, 0⟩
/-- R555: RASP.PPR_CONTROL.STACK. -/
def raspPprControlStack : RegField := ⟨0x98, 0, 1, 0, 5, .rw, 0⟩
/-- R555: RASP.PPR_CONTROL.CHANNEL. -/
def raspPprControlChannel : RegField := ⟨0x98, 0, 1, 5, 4, .rw, 0⟩
/-- R555: RASP.PPR_CONTROL.PSEUDO. -/
def raspPprControlPseudo : RegField := ⟨0x98, 0, 1, 9, 1, .rw, 0⟩
/-- R555: RASP.PPR_CONTROL.BANK. -/
def raspPprControlBank : RegField := ⟨0x98, 0, 1, 10, 6, .rw, 0⟩
/-- R555: RASP.PPR_CONTROL.HARD. -/
def raspPprControlHard : RegField := ⟨0x98, 0, 1, 16, 1, .rw, 0⟩
/-- R555: RASP.PPR_CONTROL.START. -/
def raspPprControlStart : RegField := ⟨0x98, 0, 1, 17, 1, .w1s, 0⟩
/-- R555: RASP.PPR_CONTROL.BUSY. -/
def raspPprControlBusy : RegField := ⟨0x98, 0, 1, 18, 1, .ro, 0⟩
/-- R555: RASP.PPR_ROW.ROW. -/
def raspPprRowRow : RegField := ⟨0x9c, 0, 1, 0, 18, .rw, 0⟩
/-- R555: RASP.PPR_STATUS.RESULT. -/
def raspPprStatusResult : RegField := ⟨0xa0, 0, 1, 0, 16, .ro, 0⟩
/-- R555: RASP.TWIN_CONTROL.ENABLE. -/
def raspTwinControlEnable : RegField := ⟨0xb0, 0, 1, 0, 1, .rw, 0⟩
/-- R555: RASP.TWIN_CONTROL.AUTO. -/
def raspTwinControlAuto : RegField := ⟨0xb0, 0, 1, 1, 1, .rw, 1⟩
/-- R555: RASP.TWIN_CONTROL.TAKEOVER. -/
def raspTwinControlTakeover : RegField := ⟨0xb0, 0, 1, 2, 1, .w1s, 0⟩
/-- R555: RASP.TWIN_CONTROL.DRAIN. -/
def raspTwinControlDrain : RegField := ⟨0xb0, 0, 1, 3, 1, .w1s, 0⟩
/-- R555: RASP.TWIN_STATUS.STATE. -/
def raspTwinStatusState : RegField := ⟨0xb4, 0, 1, 0, 3, .ro, 0⟩
/-- R555: RASP.TWIN_STATUS.ROLE. -/
def raspTwinStatusRole : RegField := ⟨0xb4, 0, 1, 3, 1, .ro, 0⟩
/-- R555: RASP.TWIN_STATUS.LINK_OK. -/
def raspTwinStatusLinkOk : RegField := ⟨0xb4, 0, 1, 4, 1, .ro, 0⟩
/-- R555: RASP.TWIN_STATUS.PULSES_OK. -/
def raspTwinStatusPulsesOk : RegField := ⟨0xb4, 0, 1, 5, 1, .ro, 0⟩
/-- R555: RASP.TWIN_STATUS.PIN_FAULT. -/
def raspTwinStatusPinFault : RegField := ⟨0xb4, 0, 1, 6, 1, .ro, 0⟩
/-- R555: RASP.TWIN_PEER.SERIAL. -/
def raspTwinPeerSerial : RegField := ⟨0xb8, 0, 1, 0, 64, .ro, 0⟩
/-- R555: RASP.SALT_SCORE.SCORE. -/
def raspSaltScoreScore : RegField := ⟨0xc0, 0, 1, 0, 10, .ro, 1000⟩
/-- R555: RASP.SALT_SCORE.STALE. -/
def raspSaltScoreStale : RegField := ⟨0xc0, 0, 1, 10, 1, .ro, 0⟩
/-- R555: RASP.SALT_PARTS.MEM. -/
def raspSaltPartsMem : RegField := ⟨0xc4, 0, 1, 0, 8, .ro, 0⟩
/-- R555: RASP.SALT_PARTS.LINK. -/
def raspSaltPartsLink : RegField := ⟨0xc4, 0, 1, 8, 8, .ro, 0⟩
/-- R555: RASP.SALT_PARTS.WAVE. -/
def raspSaltPartsWave : RegField := ⟨0xc4, 0, 1, 16, 8, .ro, 0⟩
/-- R555: RASP.SALT_PARTS.THERMAL. -/
def raspSaltPartsThermal : RegField := ⟨0xc4, 0, 1, 24, 8, .ro, 0⟩
/-- R555: RASP.SALT_CONTROL.EXPEL_THRESHOLD. -/
def raspSaltControlExpelThreshold : RegField := ⟨0xc8, 0, 1, 0, 10, .rw, 400⟩
/-- R555: RASP.SALT_CONTROL.LOW_THRESHOLD. -/
def raspSaltControlLowThreshold : RegField := ⟨0xc8, 0, 1, 16, 10, .rw, 200⟩
/-- R555: RASP.SALT_CONTROL.ENABLE. -/
def raspSaltControlEnable : RegField := ⟨0xc8, 0, 1, 31, 1, .rw, 0⟩
/-- R555: RASP.SALT_BUDGET.BUDGET. -/
def raspSaltBudgetBudget : RegField := ⟨0xcc, 0, 1, 0, 8, .rw, 2⟩
/-- R555: RASP.SALT_BUDGET.USED. -/
def raspSaltBudgetUsed : RegField := ⟨0xcc, 0, 1, 8, 8, .ro, 0⟩
/-- R555: RASP.SALT_BUDGET.SPARE_POOL. -/
def raspSaltBudgetSparePool : RegField := ⟨0xcc, 0, 1, 16, 8, .rw, 0⟩
/-- R555: RASP.SALT_BUDGET.SPARE_RESERVE. -/
def raspSaltBudgetSpareReserve : RegField := ⟨0xcc, 0, 1, 24, 8, .rw, 0⟩
/-- R555: RASP.EXPELLED.MEMBERS. -/
def raspExpelledMembers : RegField := ⟨0xd0, 0, 1, 0, 64, .ro, 0⟩
/-- R555: RASP.DEGRADED_KEPT.MEMBERS. -/
def raspDegradedKeptMembers : RegField := ⟨0xd8, 0, 1, 0, 64, .ro, 0⟩
/-- R555: RASP.SALT_PEER_SELECT.MEMBER. -/
def raspSaltPeerSelectMember : RegField := ⟨0xe0, 0, 1, 0, 6, .rw, 0⟩
/-- R555: RASP.SALT_PEER.SCORE. -/
def raspSaltPeerScore : RegField := ⟨0xe4, 0, 1, 0, 10, .ro, 0⟩
/-- R555: RASP.SALT_PEER.STALE. -/
def raspSaltPeerStale : RegField := ⟨0xe4, 0, 1, 10, 1, .ro, 0⟩
/-- R555: RASP.SALT_PEER.VOTE. -/
def raspSaltPeerVote : RegField := ⟨0xe4, 0, 1, 11, 1, .ro, 0⟩
/-- R555: RASP.SALT_PEER.VALID. -/
def raspSaltPeerValid : RegField := ⟨0xe4, 0, 1, 12, 1, .ro, 0⟩
/-- R555: RASP.ADMIT.MEMBER. -/
def raspAdmitMember : RegField := ⟨0xe8, 0, 1, 0, 6, .wo, 0⟩
/-- R555: RASP.ADMIT.GO. -/
def raspAdmitGo : RegField := ⟨0xe8, 0, 1, 31, 1, .wo, 0⟩
/-- R555: RASP.CORRECTED.COUNT. -/
def raspCorrectedCount : RegField := ⟨0xf0, 0, 1, 0, 64, .ro, 0⟩
/-- R555: RASP.UNCORRECTED.COUNT. -/
def raspUncorrectedCount : RegField := ⟨0xf8, 0, 1, 0, 64, .ro, 0⟩
/-- R555: RASP.TWIN_MAP.PARTITION. -/
def raspTwinMapPartition : RegField := ⟨0x100, 4, 64, 0, 6, .rw, 0⟩
/-- R555: RASP.TWIN_MAP.VALID. -/
def raspTwinMapValid : RegField := ⟨0x100, 4, 64, 7, 1, .rw, 0⟩
/-- R586: MGMT.BOOT_STATUS.STATE. -/
def mgmtBootStatusState : RegField := ⟨0x40, 0, 1, 0, 3, .ro, 0⟩
/-- R586: MGMT.BOOT_STATUS.IMAGE_SVN. -/
def mgmtBootStatusImageSvn : RegField := ⟨0x40, 0, 1, 8, 8, .ro, 0⟩
/-- R586: MGMT.BOOT_CODE.CODE. -/
def mgmtBootCodeCode : RegField := ⟨0x44, 0, 1, 0, 16, .ro, 0⟩
/-- R586: MGMT.FW_BUILD.BUILD. -/
def mgmtFwBuildBuild : RegField := ⟨0x48, 0, 1, 0, 64, .ro, 0⟩
/-- R586: MGMT.RECOVERY_ADDR.ADDRESS. -/
def mgmtRecoveryAddrAddress : RegField := ⟨0x50, 0, 1, 0, 64, .rw, 0⟩
/-- R586: MGMT.RECOVERY_LEN.BYTES. -/
def mgmtRecoveryLenBytes : RegField := ⟨0x58, 0, 1, 0, 21, .rw, 0⟩
/-- R586: MGMT.RECOVERY_CONTROL.GO. -/
def mgmtRecoveryControlGo : RegField := ⟨0x5c, 0, 1, 0, 1, .w1s, 0⟩
/-- R586: MGMT.RECOVERY_CONTROL.PERSIST. -/
def mgmtRecoveryControlPersist : RegField := ⟨0x5c, 0, 1, 1, 1, .rw, 1⟩
/-- R586: MGMT.RECOVERY_CONTROL.BUSY. -/
def mgmtRecoveryControlBusy : RegField := ⟨0x5c, 0, 1, 2, 1, .ro, 0⟩
/-- R586: MGMT.SVN_COMMIT.CONFIRM. -/
def mgmtSvnCommitConfirm : RegField := ⟨0x60, 0, 1, 0, 8, .wo, 0⟩
/-- R586: MGMT.SVN_COMMIT.COMMIT. -/
def mgmtSvnCommitCommit : RegField := ⟨0x60, 0, 1, 8, 1, .wo, 0⟩
/-- R586: MGMT.FUSE_STATE.FUSED_SVN. -/
def mgmtFuseStateFusedSvn : RegField := ⟨0x64, 0, 1, 0, 7, .ro, 0⟩
/-- R586: MGMT.FUSE_STATE.OWNER_SET. -/
def mgmtFuseStateOwnerSet : RegField := ⟨0x64, 0, 1, 8, 1, .ro, 0⟩
/-- R586: MGMT.OWNER_COMMIT.CONFIRM. -/
def mgmtOwnerCommitConfirm : RegField := ⟨0x68, 0, 1, 0, 8, .wo, 0⟩
/-- R586: MGMT.OWNER_COMMIT.COMMIT. -/
def mgmtOwnerCommitCommit : RegField := ⟨0x68, 0, 1, 8, 1, .wo, 0⟩
/-- R586: MGMT.POWER_LIMIT.SUSTAINED. -/
def mgmtPowerLimitSustained : RegField := ⟨0x70, 0, 1, 0, 12, .rw, 2200⟩
/-- R586: MGMT.POWER_NOW.WATTS. -/
def mgmtPowerNowWatts : RegField := ⟨0x74, 0, 1, 0, 12, .ro, 0⟩
/-- R586: MGMT.POWER_NOW.FRACTION. -/
def mgmtPowerNowFraction : RegField := ⟨0x74, 0, 1, 16, 10, .ro, 0⟩
/-- R586: MGMT.THERMAL.HOTTEST. -/
def mgmtThermalHottest : RegField := ⟨0x78, 0, 1, 0, 8, .ro, 0⟩
/-- R586: MGMT.THERMAL.INLET. -/
def mgmtThermalInlet : RegField := ⟨0x78, 0, 1, 8, 8, .ro, 0⟩
/-- R586: MGMT.THERMAL.WARN. -/
def mgmtThermalWarn : RegField := ⟨0x78, 0, 1, 16, 1, .ro, 0⟩
/-- R586: MGMT.THERMAL.HOT_THROTTLE. -/
def mgmtThermalHotThrottle : RegField := ⟨0x78, 0, 1, 17, 1, .ro, 0⟩
/-- R586: MGMT.THERMAL.COOLANT. -/
def mgmtThermalCoolant : RegField := ⟨0x78, 0, 1, 18, 1, .ro, 0⟩
/-- R586: MGMT.THROTTLE_TIME.TIME. -/
def mgmtThrottleTimeTime : RegField := ⟨0x80, 0, 1, 0, 64, .ro, 0⟩
/-- R586: MGMT.WATCHDOG_COUNT.COUNT. -/
def mgmtWatchdogCountCount : RegField := ⟨0x88, 0, 1, 0, 32, .rc, 0⟩
/-- R586: MGMT.ZEROIZE_STATUS.PENDING. -/
def mgmtZeroizeStatusPending : RegField := ⟨0x8c, 0, 1, 0, 1, .ro, 0⟩
/-- R586: MGMT.ZEROIZE_STATUS.ACTIVE. -/
def mgmtZeroizeStatusActive : RegField := ⟨0x8c, 0, 1, 1, 1, .ro, 0⟩
/-- R586: MGMT.ZEROIZE_STATUS.PARTITION. -/
def mgmtZeroizeStatusPartition : RegField := ⟨0x8c, 0, 1, 8, 6, .ro, 0⟩
/-- R586: MGMT.SIDEBAND.SMB_ADDR. -/
def mgmtSidebandSmbAddr : RegField := ⟨0x90, 0, 1, 0, 7, .rw, 98⟩
/-- R586: MGMT.SIDEBAND.SMB_ENABLE. -/
def mgmtSidebandSmbEnable : RegField := ⟨0x90, 0, 1, 8, 1, .rw, 1⟩
/-- R586: MGMT.SIDEBAND.I3C_ENABLE. -/
def mgmtSidebandI3cEnable : RegField := ⟨0x90, 0, 1, 9, 1, .rw, 1⟩
/-- R586: MGMT.OWNER_STAGE.HASH. -/
def mgmtOwnerStageHash : RegField := ⟨0x100, 4, 16, 0, 32, .rw, 0⟩
/-- R497: TIME.SOURCE_CONTROL.PHASE_SOURCE. -/
def timeSourceControlPhaseSource : RegField := ⟨0x40, 0, 1, 0, 3, .rw, 0⟩
/-- R497: TIME.SOURCE_CONTROL.FREQ_SOURCE. -/
def timeSourceControlFreqSource : RegField := ⟨0x40, 0, 1, 3, 2, .rw, 0⟩
/-- R497: TIME.SOURCE_CONTROL.FREQ_OPTION. -/
def timeSourceControlFreqOption : RegField := ⟨0x40, 0, 1, 5, 1, .rw, 0⟩
/-- R497: TIME.SOURCE_CONTROL.RECOV_PORT. -/
def timeSourceControlRecovPort : RegField := ⟨0x40, 0, 1, 8, 6, .rw, 0⟩
/-- R497: TIME.SOURCE_CONTROL.FREQ_OUT. -/
def timeSourceControlFreqOut : RegField := ⟨0x40, 0, 1, 16, 2, .rw, 0⟩
/-- R497: TIME.SERVO_STATUS.STATE. -/
def timeServoStatusState : RegField := ⟨0x44, 0, 1, 0, 2, .ro, 0⟩
/-- R497: TIME.SERVO_STATUS.FREQ_VALID. -/
def timeServoStatusFreqValid : RegField := ⟨0x44, 0, 1, 2, 1, .ro, 0⟩
/-- R497: TIME.NOW.SECONDS. -/
def timeNowSeconds : RegField := ⟨0x48, 0, 1, 0, 64, .ro, 0⟩
/-- R497: TIME.NOW_NANO.NANO. -/
def timeNowNanoNano : RegField := ⟨0x50, 0, 1, 0, 32, .ro, 0⟩
/-- R497: TIME.NOW_FRAC.FRACTION. -/
def timeNowFracFraction : RegField := ⟨0x54, 0, 1, 0, 16, .ro, 0⟩
/-- R497: TIME.STEP_LIMIT.NANO. -/
def timeStepLimitNano : RegField := ⟨0x58, 0, 1, 0, 32, .rw, 500⟩
/-- R497: TIME.SLEW_LIMIT.NANO. -/
def timeSlewLimitNano : RegField := ⟨0x5c, 0, 1, 0, 32, .rw, 100⟩
/-- R497: TIME.SERVO_GAIN.KP. -/
def timeServoGainKp : RegField := ⟨0x60, 0, 1, 0, 16, .rw, 16384⟩
/-- R497: TIME.SERVO_GAIN.KI. -/
def timeServoGainKi : RegField := ⟨0x60, 0, 1, 16, 16, .rw, 4096⟩
/-- R497: TIME.HOLD_TIME.MILLIS. -/
def timeHoldTimeMillis : RegField := ⟨0x64, 0, 1, 0, 16, .rw, 1000⟩
/-- R497: TIME.OFFSET_IN.OFFSET. -/
def timeOffsetInOffset : RegField := ⟨0x68, 0, 1, 0, 64, .wo, 0⟩
/-- R497: TIME.STEP_FORCE.OFFSET. -/
def timeStepForceOffset : RegField := ⟨0x70, 0, 1, 0, 64, .wo, 0⟩
/-- R497: TIME.LAST_OFFSET.OFFSET. -/
def timeLastOffsetOffset : RegField := ⟨0x78, 0, 1, 0, 64, .ro, 0⟩
/-- R497: TIME.FREQ_ADJ.Y. -/
def timeFreqAdjY : RegField := ⟨0x80, 0, 1, 0, 64, .ro, 0⟩
/-- R497: TIME.STEPS_REFUSED.COUNT. -/
def timeStepsRefusedCount : RegField := ⟨0x88, 0, 1, 0, 32, .rc, 0⟩
/-- R497: TIME.STEPS.COUNT. -/
def timeStepsCount : RegField := ⟨0x8c, 0, 1, 0, 32, .rc, 0⟩
/-- R497: TIME.PPS_OUT.ENABLE. -/
def timePpsOutEnable : RegField := ⟨0x90, 0, 1, 0, 1, .rw, 0⟩
/-- R497: TIME.PPS_OUT.WIDTH. -/
def timePpsOutWidth : RegField := ⟨0x90, 0, 1, 8, 8, .rw, 100⟩
/-- R497: TIME.PPS_OUT_OFFSET.NANO. -/
def timePpsOutOffsetNano : RegField := ⟨0x94, 0, 1, 0, 32, .rw, 0⟩
/-- R497: TIME.PPS_IN_DELAY.DELAY. -/
def timePpsInDelayDelay : RegField := ⟨0x98, 0, 1, 0, 32, .rw, 0⟩
/-- R497: TIME.MASTER_ID.CLOCK_ID. -/
def timeMasterIdClockId : RegField := ⟨0xa0, 0, 1, 0, 64, .rw, 0⟩
/-- R497: TIME.PTP_PORT.MASTER_PORT. -/
def timePtpPortMasterPort : RegField := ⟨0xa8, 0, 1, 0, 16, .rw, 0⟩
/-- R497: TIME.PTP_PORT.DOMAIN. -/
def timePtpPortDomain : RegField := ⟨0xa8, 0, 1, 16, 8, .rw, 24⟩
/-- R497: TIME.PTP_PORT.SLAVE_PORT. -/
def timePtpPortSlavePort : RegField := ⟨0xa8, 0, 1, 24, 6, .rw, 0⟩
/-- R497: TIME.MEAN_PATH.DELAY. -/
def timeMeanPathDelay : RegField := ⟨0xb0, 0, 1, 0, 64, .ro, 0⟩
/-- R498: SHAP.NODE_SELECT.LEVEL. -/
def shapNodeSelectLevel : RegField := ⟨0x40, 0, 1, 0, 2, .rw, 0⟩
/-- R498: SHAP.NODE_SELECT.INDEX. -/
def shapNodeSelectIndex : RegField := ⟨0x40, 0, 1, 4, 19, .rw, 0⟩
/-- R498: SHAP.NODE_COMMAND.OP. -/
def shapNodeCommandOp : RegField := ⟨0x44, 0, 1, 0, 2, .wo, 0⟩
/-- R498: SHAP.NODE_COMMAND.BUSY. -/
def shapNodeCommandBusy : RegField := ⟨0x44, 0, 1, 8, 1, .ro, 0⟩
/-- R498: SHAP.NODE_COMMAND.RESULT. -/
def shapNodeCommandResult : RegField := ⟨0x44, 0, 1, 16, 16, .ro, 0⟩
/-- R498: SHAP.DESC_USED.COUNT. -/
def shapDescUsedCount : RegField := ⟨0x48, 0, 1, 0, 21, .ro, 0⟩
/-- R498: SHAP.NODE_DATA.DATA. -/
def shapNodeDataData : RegField := ⟨0x80, 4, 16, 0, 32, .rw, 0⟩
/-- R500: POLC.SELECT.POLICER. -/
def polcSelectPolicer : RegField := ⟨0x40, 0, 1, 0, 16, .rw, 0⟩
/-- R500: POLC.COMMAND.OP. -/
def polcCommandOp : RegField := ⟨0x44, 0, 1, 0, 2, .wo, 0⟩
/-- R500: POLC.COMMAND.BUSY. -/
def polcCommandBusy : RegField := ⟨0x44, 0, 1, 8, 1, .ro, 0⟩
/-- R500: POLC.COMMAND.RESULT. -/
def polcCommandResult : RegField := ⟨0x44, 0, 1, 16, 16, .ro, 0⟩
/-- R500: POLC.DATA.DATA. -/
def polcData : RegField := ⟨0x80, 4, 5, 0, 32, .rw, 0⟩
/-- R500: POLC.GREEN.COUNT. -/
def polcGreenCount : RegField := ⟨0xc0, 0, 1, 0, 32, .rc, 0⟩
/-- R500: POLC.YELLOW.COUNT. -/
def polcYellowCount : RegField := ⟨0xc4, 0, 1, 0, 32, .rc, 0⟩
/-- R500: POLC.RED.COUNT. -/
def polcRedCount : RegField := ⟨0xc8, 0, 1, 0, 32, .rc, 0⟩

end Rg

/-- The fields of the common header (R42), in table order. -/
def pageFields : List RegField :=
  [Rg.pagePageIdMnemonic, Rg.pagePageVersionInstance, Rg.pagePageVersionMinor, Rg.pagePageVersionMajor, Rg.pageControlSoftReset, Rg.pageControlEnable, Rg.pageControlFreeze, Rg.pageStatusResetBusy, Rg.pageStatusEnabled, Rg.pageStatusFrozen, Rg.pageStatusFenced, Rg.pageStatusBlock] ++
  [Rg.pageIntStatus, Rg.pageIntEnable, Rg.pageIntForce, Rg.pageErrorCountCount, Rg.pageErrorFirst0Code, Rg.pageErrorFirst0Unit, Rg.pageErrorFirst0Valid, Rg.pageErrorFirst1Detail, Rg.pageErrorFirst2When]

/-- The fields of the GLOB page, in table order. -/
def globFields : List RegField :=
  [Rg.globModeStrict]

/-- The fields of the RSET page, in table order. -/
def rsetFields : List RegField :=
  [Rg.rsetResetCountCount, Rg.rsetResetCauseCause, Rg.rsetResetCauseDuringBringup, Rg.rsetResetCauseThermalHold, Rg.rsetResetCauseClockHold, Rg.rsetResetCauseVbatFresh, Rg.rsetResetCauseSupplyDrop, Rg.rsetBringupDone, Rg.rsetBringupStep, Rg.rsetBringupRefclkOk, Rg.rsetBringupHotWait, Rg.rsetHbmReadyStacks] ++
  [Rg.rsetTimeLoadSeconds, Rg.rsetSupplyStatusVbatLow, Rg.rsetSupplyStatusAvsFault]

/-- The fields of the HOST page, in table order. -/
def hostFields : List RegField :=
  [Rg.hostLinkStatusSpeed, Rg.hostLinkStatusWidth, Rg.hostLinkStatusFlit, Rg.hostAdminSqAddrAddress, Rg.hostAdminCqAddrAddress, Rg.hostAdminSizeSqDepth, Rg.hostAdminSizeCqDepth, Rg.hostAdminControlEnable, Rg.hostAdminControlReady, Rg.hostAdminDoorbellDoorbell, Rg.hostWinSelectFunction, Rg.hostWinPartPartition] ++
  [Rg.hostWinPartValid, Rg.hostWinBaseAddress, Rg.hostRouteSelectPage, Rg.hostRouteFunction, Rg.hostRouteVector, Rg.hostRouteValid, Rg.hostDoorbellFaultCount, Rg.hostWinFaultCount, Rg.hostAtcInvalidationsCount, Rg.hostMemberEventsMembers]

/-- The fields of the QMGR page, in table order. -/
def qmgrFields : List RegField :=
  [Rg.qmgrSqSelectSq, Rg.qmgrSqStateHead, Rg.qmgrSqStateTail, Rg.qmgrSqInfoCq, Rg.qmgrSqInfoClass, Rg.qmgrSqInfoExists, Rg.qmgrCqSelectCq, Rg.qmgrCqStateHead, Rg.qmgrCqStateTail, Rg.qmgrCqWaitingCount, Rg.qmgrFetchedCount]

/-- The fields of the CORE page, in table order. -/
def coreFields : List RegField :=
  [Rg.coreWaveRateRate, Rg.coreWaveRateLow, Rg.coreWaveRateMinRate, Rg.coreArithFlagsSat, Rg.coreArithFlagsAccOvf, Rg.coreArithFlagsTernaryCode, Rg.coreArithFlagsPoison, Rg.coreArrayStateArrayFenced, Rg.coreArrayStateFeederFenced, Rg.coreArrayStateForcedGang, Rg.coreSkewProbeSelect, Rg.coreSkewProbeStart] ++
  [Rg.coreSkewProbeBusy, Rg.coreSkewProbeDone, Rg.coreSkewProbeFailed, Rg.coreRowRepairRow0, Rg.coreRowRepairRow1, Rg.coreRowRepairRow2, Rg.coreRowRepairRow3, Rg.coreRowRepairValid0, Rg.coreRowRepairValid1, Rg.coreRowRepairValid2, Rg.coreRowRepairValid3, Rg.coreRowRepairVolatile0] ++
  [Rg.coreRowRepairVolatile1, Rg.coreRowRepairVolatile2, Rg.coreRowRepairVolatile3, Rg.coreColRepairColumn0, Rg.coreColRepairColumn1, Rg.coreColRepairValid0, Rg.coreColRepairValid1, Rg.coreColRepairVolatile0, Rg.coreColRepairVolatile1, Rg.coreOffsetSelectArray, Rg.coreOffsetSelectTable, Rg.coreOffsetSelectPhysical] ++
  [Rg.coreOffsetDataLogical, Rg.coreOffsetDataOffset, Rg.coreOffsetDataInUse, Rg.coreArrayWaves, Rg.coreArrayStall, Rg.coreArrayPasses, Rg.coreExecControlChecked, Rg.coreCheapPointLimitLimit, Rg.coreCheapGapMaxGap, Rg.coreCheapLateCountCount, Rg.coreTrapCauseCause, Rg.coreTrapCauseDeferred] ++
  [Rg.coreTrapCauseUnit, Rg.coreTrapCauseValid, Rg.coreTrapPcPc, Rg.coreTrapDetailDetail, Rg.coreTrapActionAction, Rg.coreLocksHeldCount, Rg.coreCheapTableAddress, Rg.coreCheapTableCountCount, Rg.coreTrapStopPcPc, Rg.coreSpadWaitTime, Rg.coreCheapSkippedCount, Rg.coreStreamStatusState] ++
  [Rg.coreStreamStatusError, Rg.coreStreamErrorAddrAddress, Rg.coreRngStepStep, Rg.coreRngSeedSeed]

/-- The fields of the SIGC page, in table order. -/
def sigcFields : List RegField :=
  [Rg.sigcArithFlagsSat, Rg.sigcArithFlagsPoison, Rg.sigcTrapCauseCause, Rg.sigcTrapCauseValid, Rg.sigcTrapPcPc, Rg.sigcTrapDetailDetail, Rg.sigcTrapActionAction, Rg.sigcDoorbellRing, Rg.sigcEventPrioPrio0, Rg.sigcEventPrioPrio1, Rg.sigcEventPrioPrio2, Rg.sigcEventPrioPrio3] ++
  [Rg.sigcEventPrioPrio4, Rg.sigcEventPrioPrio5, Rg.sigcMemWaitTime, Rg.sigcDmaStatusState, Rg.sigcDmaStatusError, Rg.sigcDmaErrorAddrAddress, Rg.sigcIngressProducedCount]

/-- The fields of the CODE page, in table order. -/
def codeFields : List RegField :=
  [Rg.codeCapsLdpcDecoders, Rg.codeCapsLdpcEncoders, Rg.codeCapsPolarUnits, Rg.codeDecOwnerPartition, Rg.codeDecOwnerValid, Rg.codeEncOwnerPartition, Rg.codeEncOwnerValid, Rg.codePolarOwnerPartition, Rg.codePolarOwnerValid, Rg.codeQueueDepthCount, Rg.codeLateCountCount, Rg.codeDecBusyTime] ++
  [Rg.codeEncBusyTime, Rg.codePolarBusyTime]

/-- The fields of the MSID page, in table order. -/
def msidFields : List RegField :=
  [Rg.msidBufferWaysWays, Rg.msidDecodeBusyTime, Rg.msidTableMissCount, Rg.msidWayMaskWays]

/-- The fields of the HBMC page, in table order. -/
def hbmcFields : List RegField :=
  []

/-- The fields of the BULK page, in table order. -/
def bulkFields : List RegField :=
  [Rg.bulkPortStatusLinkUp, Rg.bulkPortStatusInSet, Rg.bulkPortStatusWidth, Rg.bulkPortStatusSpeed, Rg.bulkCapacityUsed, Rg.bulkCapacityModule, Rg.bulkPoisonCountCount, Rg.bulkReadBytesBytes]

/-- The fields of the AQZL page, in table order. -/
def aqzlFields : List RegField :=
  [Rg.aqzlLinkControlMode, Rg.aqzlLinkControlRetrain, Rg.aqzlLinkStatusState, Rg.aqzlLinkStatusRole, Rg.aqzlLinkStatusActive, Rg.aqzlLinkStatusAsleep, Rg.aqzlLinkStatusRetired, Rg.aqzlLinkStatusPhase, Rg.aqzlPartnerIdSerial, Rg.aqzlFecCorrectedCount, Rg.aqzlFecUncorrectedCount, Rg.aqzlCrcErrorsCount] ++
  [Rg.aqzlRetriesCount, Rg.aqzlRetrainsCount, Rg.aqzlVcBufferFlits, Rg.aqzlVcWeightWeight, Rg.aqzlPowerIdleTime, Rg.aqzlPowerAllowSleep, Rg.aqzlLaneSelectLane, Rg.aqzlLaneStatusGain, Rg.aqzlLaneStatusResidual, Rg.aqzlLaneStatusState, Rg.aqzlLaneErrorsCount]

/-- The fields of the FABR page, in table order. -/
def fabrFields : List RegField :=
  [Rg.fabrDeviceIdDevice, Rg.fabrDeviceIdValid, Rg.fabrSpanShapeX, Rg.fabrSpanShapeY, Rg.fabrSpanShapeZ, Rg.fabrSpanShapeLead, Rg.fabrGroupMembersMember0, Rg.fabrGroupMembersMember1, Rg.fabrGroupMembersMember2, Rg.fabrGroupMembersMember3, Rg.fabrGroupMembersMember4, Rg.fabrGroupMembersMember5] ++
  [Rg.fabrGroupMembersMember6, Rg.fabrGroupMembersMember7, Rg.fabrGroupMembersValid0, Rg.fabrGroupMembersValid1, Rg.fabrGroupMembersValid2, Rg.fabrGroupMembersValid3, Rg.fabrGroupMembersValid4, Rg.fabrGroupMembersValid5, Rg.fabrGroupMembersValid6, Rg.fabrGroupMembersValid7, Rg.fabrAdaptControlEnable, Rg.fabrAdaptControlAdaptTime] ++
  [Rg.fabrReqTimeoutMicros, Rg.fabrDrainTimeoutMicros, Rg.fabrReplControlEnable, Rg.fabrReplControlReaders, Rg.fabrTimeControlMaster, Rg.fabrTimeControlUpstream, Rg.fabrTimeOffsetOffset, Rg.fabrPortPeerDevice, Rg.fabrPortPeerValid, Rg.fabrReachableMembers, Rg.fabrQuenchPartitions, Rg.fabrQuenchStatePartitions] ++
  [Rg.fabrSealsOpenCount, Rg.fabrReroutesCount, Rg.fabrAbsorbedCount, Rg.fabrRefusedCount, Rg.fabrCombinedCount, Rg.fabrSpanRouteGateway, Rg.fabrSpanRoutePort, Rg.fabrSpanRouteValid, Rg.fabrPeerRangeLow, Rg.fabrPeerRangeHigh, Rg.fabrPeerRangeValid]

/-- The fields of the ETHP page, in table order. -/
def ethpFields : List RegField :=
  [Rg.ethpConfigGroupMode, Rg.ethpConfigInterface, Rg.ethpConfigAutoneg, Rg.ethpConfigMaxFrame, Rg.ethpMacAddrAddress, Rg.ethpPortStatusLinkUp, Rg.ethpPortStatusInUse, Rg.ethpPortStatusSpeed, Rg.ethpTxDelayDelay, Rg.ethpRxDelayDelay, Rg.ethpRxFramesCount, Rg.ethpTxFramesCount] ++
  [Rg.ethpFecCorrectedCount, Rg.ethpFcsErrorsCount, Rg.ethpDropUnmatchedCount, Rg.ethpDropPoliceCount, Rg.ethpDropRingCount, Rg.ethpDropQueueCount, Rg.ethpFecUncorrectedCount, Rg.ethpPauseRxCount, Rg.ethpEcpriSeqGapsCount, Rg.ethpTxtsDroppedCount, Rg.ethpTxtsPopTag, Rg.ethpTxtsPopValid] ++
  [Rg.ethpTxtsSecondsSeconds, Rg.ethpTxtsNanoNano, Rg.ethpTxtsFracFraction, Rg.ethpTxtsLevelCount]

/-- The fields of the PART page, in table order. -/
def partFields : List RegField :=
  [Rg.partHeatControlEnable, Rg.partHeatControlThreshold, Rg.partHeatControlEpoch, Rg.partStallTimeTime, Rg.partResourceCountResourced, Rg.partResourceCountLost, Rg.partHeatMovesCount, Rg.partRadioStatusCalState, Rg.partRadioStatusFloorCores, Rg.partRadioStatusSurgeCores, Rg.partBudgetRateRate, Rg.partBudgetRateSoakRate] ++
  [Rg.partSurgeControlMaxSurge, Rg.partSurgeControlClaimLead, Rg.partSurgeDonorsMask, Rg.partCellSelectCell, Rg.partCellMissCount, Rg.partCellUplaneLateCount, Rg.partCellPoisonPrbCount, Rg.partMissTotalCount, Rg.partCalRatioRatio, Rg.partClaimLateCount, Rg.partSlotCmdLateCount, Rg.partServeSelectGroup] ++
  [Rg.partServeStepsCount, Rg.partServeTokensCount, Rg.partServeBatchLast, Rg.partServeBatchHeld, Rg.partKvFreeCount, Rg.partKvStarvedCount, Rg.partOutputHeldCount, Rg.partReshardBytesBytes, Rg.partConfigKind, Rg.partConfigFunction, Rg.partCoreMaskCores, Rg.partCoreTargetCores] ++
  [Rg.partSigcMaskCores, Rg.partSigcTargetCores, Rg.partResizeStart, Rg.partResizeBusy, Rg.partResizeResult, Rg.partHbmAllotUnits, Rg.partBulkAllotUnits, Rg.partHbmUsedUnits, Rg.partBulkUsedUnits, Rg.partSqBaseBase, Rg.partSqCountCount, Rg.partCqBaseBase] ++
  [Rg.partCqCountCount, Rg.partSemBaseBase, Rg.partSemCountCount, Rg.partStreamBaseBase, Rg.partStreamCountCount, Rg.partKvBaseBase, Rg.partKvCountCount, Rg.partFabricQuotaQuota, Rg.partSliceMicros, Rg.partCtxTableAddress, Rg.partCtxControlContext, Rg.partCtxControlAction] ++
  [Rg.partCtxResultCode, Rg.partCtxResultDone, Rg.partCtxSelectContext, Rg.partCtxStateState, Rg.partCtxTimeTime, Rg.partCtxVtimeVtime, Rg.partPreemptCheapCount, Rg.partPreemptForcedCount, Rg.partDonatedTimeTime, Rg.partDirtyControlEnable, Rg.partDirtyControlAtomicFail, Rg.partDirtyBitmapAddress] ++
  [Rg.partDirtyPasidPasid, Rg.partDirtyBaseAddress, Rg.partDirtyLengthBytes, Rg.partRecordControlMode, Rg.partRecordControlSuppressEgress, Rg.partRecordControlStopOnDiverge, Rg.partRecordStatusState, Rg.partRecordBaseAddress, Rg.partRecordBytesBytes, Rg.partRecordHeadBytes, Rg.partReplaySetLow, Rg.partReplaySetHigh] ++
  [Rg.partReplaySetValid, Rg.partBoundaryCount, Rg.partDivergeBoundaryCount, Rg.partDivergeInfoKind, Rg.partDivergeInfoValid]

/-- The fields of the RASP page, in table order. -/
def raspFields : List RegField :=
  [Rg.raspFlipSelectTarget, Rg.raspFlipSelectUnit, Rg.raspFlipSelectPosition, Rg.raspFlipSelectMatch, Rg.raspFlipAddressAddress, Rg.raspFlipMaskMask, Rg.raspFlipControlArm, Rg.raspFlipControlFired, Rg.raspFlipHitAddress, Rg.raspCoreFenceCore, Rg.raspCoreFenceFence, Rg.raspReplaceCountCount] ++
  [Rg.raspCoreRetirePhysical, Rg.raspSparesFreeCores0, Rg.raspSparesFreeCores1, Rg.raspSparesFreeCores2, Rg.raspSparesFreeCores3, Rg.raspSparesFreeSigc0, Rg.raspSparesFreeSigc1, Rg.raspSparesFreeSigc2, Rg.raspSparesFreeSigc3, Rg.raspPprControlStack, Rg.raspPprControlChannel, Rg.raspPprControlPseudo] ++
  [Rg.raspPprControlBank, Rg.raspPprControlHard, Rg.raspPprControlStart, Rg.raspPprControlBusy, Rg.raspPprRowRow, Rg.raspPprStatusResult, Rg.raspTwinControlEnable, Rg.raspTwinControlAuto, Rg.raspTwinControlTakeover, Rg.raspTwinControlDrain, Rg.raspTwinStatusState, Rg.raspTwinStatusRole] ++
  [Rg.raspTwinStatusLinkOk, Rg.raspTwinStatusPulsesOk, Rg.raspTwinStatusPinFault, Rg.raspTwinPeerSerial, Rg.raspSaltScoreScore, Rg.raspSaltScoreStale, Rg.raspSaltPartsMem, Rg.raspSaltPartsLink, Rg.raspSaltPartsWave, Rg.raspSaltPartsThermal, Rg.raspSaltControlExpelThreshold, Rg.raspSaltControlLowThreshold] ++
  [Rg.raspSaltControlEnable, Rg.raspSaltBudgetBudget, Rg.raspSaltBudgetUsed, Rg.raspSaltBudgetSparePool, Rg.raspSaltBudgetSpareReserve, Rg.raspExpelledMembers, Rg.raspDegradedKeptMembers, Rg.raspSaltPeerSelectMember, Rg.raspSaltPeerScore, Rg.raspSaltPeerStale, Rg.raspSaltPeerVote, Rg.raspSaltPeerValid] ++
  [Rg.raspAdmitMember, Rg.raspAdmitGo, Rg.raspCorrectedCount, Rg.raspUncorrectedCount, Rg.raspTwinMapPartition, Rg.raspTwinMapValid]

/-- The fields of the MGMT page, in table order. -/
def mgmtFields : List RegField :=
  [Rg.mgmtBootStatusState, Rg.mgmtBootStatusImageSvn, Rg.mgmtBootCodeCode, Rg.mgmtFwBuildBuild, Rg.mgmtRecoveryAddrAddress, Rg.mgmtRecoveryLenBytes, Rg.mgmtRecoveryControlGo, Rg.mgmtRecoveryControlPersist, Rg.mgmtRecoveryControlBusy, Rg.mgmtSvnCommitConfirm, Rg.mgmtSvnCommitCommit, Rg.mgmtFuseStateFusedSvn] ++
  [Rg.mgmtFuseStateOwnerSet, Rg.mgmtOwnerCommitConfirm, Rg.mgmtOwnerCommitCommit, Rg.mgmtPowerLimitSustained, Rg.mgmtPowerNowWatts, Rg.mgmtPowerNowFraction, Rg.mgmtThermalHottest, Rg.mgmtThermalInlet, Rg.mgmtThermalWarn, Rg.mgmtThermalHotThrottle, Rg.mgmtThermalCoolant, Rg.mgmtThrottleTimeTime] ++
  [Rg.mgmtWatchdogCountCount, Rg.mgmtZeroizeStatusPending, Rg.mgmtZeroizeStatusActive, Rg.mgmtZeroizeStatusPartition, Rg.mgmtSidebandSmbAddr, Rg.mgmtSidebandSmbEnable, Rg.mgmtSidebandI3cEnable, Rg.mgmtOwnerStageHash]

/-- The fields of the TIME page, in table order. -/
def timeFields : List RegField :=
  [Rg.timeSourceControlPhaseSource, Rg.timeSourceControlFreqSource, Rg.timeSourceControlFreqOption, Rg.timeSourceControlRecovPort, Rg.timeSourceControlFreqOut, Rg.timeServoStatusState, Rg.timeServoStatusFreqValid, Rg.timeNowSeconds, Rg.timeNowNanoNano, Rg.timeNowFracFraction, Rg.timeStepLimitNano, Rg.timeSlewLimitNano] ++
  [Rg.timeServoGainKp, Rg.timeServoGainKi, Rg.timeHoldTimeMillis, Rg.timeOffsetInOffset, Rg.timeStepForceOffset, Rg.timeLastOffsetOffset, Rg.timeFreqAdjY, Rg.timeStepsRefusedCount, Rg.timeStepsCount, Rg.timePpsOutEnable, Rg.timePpsOutWidth, Rg.timePpsOutOffsetNano] ++
  [Rg.timePpsInDelayDelay, Rg.timeMasterIdClockId, Rg.timePtpPortMasterPort, Rg.timePtpPortDomain, Rg.timePtpPortSlavePort, Rg.timeMeanPathDelay]

/-- The fields of the SHAP page, in table order. -/
def shapFields : List RegField :=
  [Rg.shapNodeSelectLevel, Rg.shapNodeSelectIndex, Rg.shapNodeCommandOp, Rg.shapNodeCommandBusy, Rg.shapNodeCommandResult, Rg.shapDescUsedCount, Rg.shapNodeDataData]

/-- The fields of the POLC page, in table order. -/
def polcFields : List RegField :=
  [Rg.polcSelectPolicer, Rg.polcCommandOp, Rg.polcCommandBusy, Rg.polcCommandResult, Rg.polcData, Rg.polcGreenCount, Rg.polcYellowCount, Rg.polcRedCount]

end Sys2Proof.Machine
end

