-- ==== Sys2Proof/Machine/Table.lean ====
section
/-! DEFINITION. Sparse tables: a list of key and value pairs with strictly rising keys. The register file, the memories and
every table that the spec indexes by a number are kept in this form, so that equal tables are equal data. -/

namespace Sys2Proof.Machine

/-- A sparse table keyed by a number. -/
abbrev Table (α : Type) := List (Nat × α)

/-- The entry at k, if one is listed. -/
def tabFind {α : Type} (k : Nat) : Table α → Option α
  | [] => none
  | (j, v) :: m => if j = k then some v else tabFind k m

/-- The value at k, d where none is listed. -/
def tabGet {α : Type} (d : α) (k : Nat) (m : Table α) : α := (tabFind k m).getD d

/-- The table without its entry at k. -/
def tabDel {α : Type} (k : Nat) : Table α → Table α
  | [] => []
  | (j, v) :: m => if j = k then tabDel k m else (j, v) :: tabDel k m

/-- Put an entry before the first larger key. -/
def tabIns {α : Type} (k : Nat) (v : α) : Table α → Table α
  | [] => [(k, v)]
  | (j, w) :: m => if k < j then (k, v) :: (j, w) :: m else (j, w) :: tabIns k v m

/-- Set the entry at k. -/
def tabSet {α : Type} (k : Nat) (v : α) (m : Table α) : Table α := tabIns k v (tabDel k m)

/-- Set the value at k in a table that reads as d where nothing is listed: writing d removes the entry. -/
def tabPut {α : Type} [DecidableEq α] (d : α) (k : Nat) (v : α) (m : Table α) : Table α :=
  if v = d then tabDel k m else tabSet k v m

/-- Apply f to the value at k, which reads as d where nothing is listed. -/
def tabMod {α : Type} [DecidableEq α] (d : α) (k : Nat) (f : α → α) (m : Table α) : Table α :=
  tabPut d k (f (tabGet d k m)) m

/-- The keys rise strictly from one entry to the next and are all at least lo. -/
def tabSorted {α : Type} (lo : Nat) : Table α → Bool
  | [] => true
  | (k, _) :: m => decide (lo ≤ k) && tabSorted (k + 1) m

/-- The canonical form of a table: strictly rising keys. -/
abbrev tabWf {α : Type} (m : Table α) : Bool := tabSorted 0 m

/-- Put x before the first element that it comes before. -/
def insertBy {α : Type} (before : α → α → Bool) (x : α) : List α → List α
  | [] => [x]
  | y :: ys => if before x y then x :: y :: ys else y :: insertBy before x ys

/-- Sort a list by an order. -/
def sortBy {α : Type} (before : α → α → Bool) (l : List α) : List α := l.foldr (insertBy before) []

end Sys2Proof.Machine
end

