-- ==== Sys2Proof/Machine/Fields.lean ====
section
/-! DEFINITION. Where a register field stands in the control window (R38, R39), what it resets to (R16), and the register
file: one value per field that software has changed from its reset value. -/

namespace Sys2Proof.Machine

/-- Control-window offset of a page (R38). -/
def pageBase (p : Page) : Nat :=
  match p.kind with
  | .glob => 0x00000000
  | .rset => 0x00001000
  | .host => 0x00010000
  | .qmgr => 0x00020000
  | .core => 0x00100000 + p.inst * 0x1000
  | .sigc => 0x001A0000 + p.inst * 0x1000
  | .code => 0x001E0000
  | .msid => 0x00200000 + p.inst * 0x1000
  | .hbmc => 0x00204000 + p.inst * 0x1000
  | .bulk => 0x00240000 + p.inst * 0x1000
  | .aqzl => 0x00280000 + p.inst * 0x1000
  | .fabr => 0x00289000
  | .ethp => 0x002C0000 + p.inst * 0x1000
  | .part => 0x00300000 + p.inst * 0x1000
  | .rasp => 0x00340000
  | .mgmt => 0x00380000
  | .time => 0x003C0000
  | .shap => 0x003C1000
  | .polc => 0x003C2000

/-- How many pages of a kind there are (R38). -/
def pageCount : PageKind → Nat
  | .core => 160
  | .sigc => 64
  | .msid => 4
  | .hbmc => 20
  | .bulk => 8
  | .aqzl => 9
  | .ethp => 64
  | .part => 64
  | _ => 1

/-- The kinds of R38, in the order of its table. -/
def pageKinds : List PageKind :=
  [.glob, .rset, .host, .qmgr, .core, .sigc, .code, .msid, .hbmc, .bulk, .aqzl, .fabr, .ethp, .part, .rasp, .mgmt,
   .time, .shap, .polc]

/-- The page that holds a control-window offset; none where the window is unoccupied (R38). -/
def pageAt (off : Nat) : Option Page :=
  pageKinds.findSome? fun k =>
    let b := pageBase ⟨k, 0⟩
    if b ≤ off ∧ off < b + pageCount k * 0x1000 then some ⟨k, (off - b) / 0x1000⟩ else none

/-- The page exists (R38). -/
def pageOk (p : Page) : Bool := decide (p.inst < pageCount p.kind)

/-- The mnemonic of a page in ASCII, first letter in bits [31:24] (R43). -/
def pageMnemonic : PageKind → Nat
  | .glob => 0x474C4F42
  | .rset => 0x52534554
  | .host => 0x484F5354
  | .qmgr => 0x514D4752
  | .core => 0x434F5245
  | .sigc => 0x53494743
  | .code => 0x434F4445
  | .msid => 0x4D534944
  | .hbmc => 0x48424D43
  | .bulk => 0x42554C4B
  | .aqzl => 0x41515A4C
  | .fabr => 0x46414252
  | .ethp => 0x45544850
  | .part => 0x50415254
  | .rasp => 0x52415350
  | .mgmt => 0x4D474D54
  | .time => 0x54494D45
  | .shap => 0x53484150
  | .polc => 0x504F4C43

/-- The pages whose ENABLE reads 1 and ignores writes (R46). -/
def enableFixed : PageKind → Bool
  | .glob | .rset | .host | .qmgr | .time | .mgmt => true
  | _ => false

/-- The block-specific fields of a page. The monitor registers of R29 stand in CORE and SIGC pages alike. -/
def blockFields : PageKind → List RegField
  | .glob => globFields
  | .rset => rsetFields
  | .host => hostFields
  | .qmgr => qmgrFields
  | .core => coreFields
  | .sigc => [Rg.coreWaveRateRate, Rg.coreWaveRateLow, Rg.coreWaveRateMinRate] ++ sigcFields
  | .code => codeFields
  | .msid => msidFields
  | .hbmc => []
  | .bulk => bulkFields
  | .aqzl => aqzlFields
  | .fabr => fabrFields
  | .ethp => ethpFields
  | .part => partFields
  | .rasp => raspFields
  | .mgmt => mgmtFields
  | .time => timeFields
  | .shap => shapFields
  | .polc => polcFields

/-- The fields of a page, common header (R42) included. -/
def fieldsOf (k : PageKind) : List RegField := pageFields ++ blockFields k

/-- The reset division of a port's receive buffer among VC0 to VC7 (register table of "The Aqzer link"). -/
def vcBufferReset (vc : Nat) : Nat := [64, 256, 256, 384, 384, 256, 384, 64].getD vc 0

/-- The reset value of a field (R16): its table's, with the values that R43, R44, R46 and R50 give per page. DESIGN CHOICE: log entry 5. -/
def resetAt (p : Page) (f : RegField) (i : Nat) : Nat :=
  if f = Rg.pagePageIdMnemonic then pageMnemonic p.kind
  else if f = Rg.pagePageVersionInstance then p.inst
  else if f = Rg.pageControlEnable ∨ f = Rg.pageStatusEnabled then (if enableFixed p.kind then 1 else 0)
  else if f = Rg.aqzlVcBufferFlits then vcBufferReset i
  else f.reset

/-- The position in the control window, in bits, of a field's lowest bit: the field's key in the register file. -/
def fieldBit (p : Page) (f : RegField) (i : Nat) : Nat := (pageBase p + f.off + f.stride * i) * 8 + f.lo

/-- The register file: the values of the fields that differ from their reset values, keyed by position. -/
abbrev RegFile := Table Nat

/-- The value of a field. -/
def fieldGet (m : RegFile) (p : Page) (f : RegField) (i : Nat) : Nat := tabGet (resetAt p f i) (fieldBit p f i) m

/-- Set a field to the low bits of v that its width holds. -/
def fieldSet (p : Page) (f : RegField) (i v : Nat) (m : RegFile) : RegFile :=
  tabPut (resetAt p f i) (fieldBit p f i) (v % 2 ^ f.len) m

/-- Which element of an indexed field stands at page offset o, if the field's register there covers any of the 32 bits
from o. -/
def fieldIndexAt (f : RegField) (o : Nat) : Option Nat :=
  let i := if f.stride = 0 then 0 else (o - f.off) / f.stride
  let b := (f.off + f.stride * i) * 8 + f.lo
  if i < f.count ∧ b < (o + 4) * 8 ∧ o * 8 < b + f.len then some i else none

/-- The part of a field's value v that stands in the 32-bit register at page offset o, at its bits. -/
def fieldPart (f : RegField) (o i v : Nat) : Nat :=
  let b := (f.off + f.stride * i) * 8 + f.lo
  (if o * 8 ≤ b then v * 2 ^ (b - o * 8) else v / 2 ^ (o * 8 - b)) % 2 ^ 32

/-- A field's value after the part of it in the 32-bit register at page offset o takes its bits from w. -/
def fieldMerge (f : RegField) (o i old w : Nat) : Nat :=
  let b := (f.off + f.stride * i) * 8 + f.lo
  if o * 8 ≤ b then
    let n := min f.len ((o + 4) * 8 - b)
    old / 2 ^ n * 2 ^ n + w / 2 ^ (b - o * 8) % 2 ^ n
  else
    let k := o * 8 - b
    let n := min (f.len - k) 32
    old % 2 ^ k + (w % 2 ^ n) * 2 ^ k + old / 2 ^ (k + n) * 2 ^ (k + n)

end Sys2Proof.Machine
end

