-- ==== Sys2Proof/Machine/State.lean ====
section
/-! DEFINITION. The state of the block: every register, memory, queue, table and mode that the spec names, as plain data;
what a step can answer; and the state right after reset. -/

namespace Sys2Proof.Machine

/-- What a management response carries (R559 to R576). -/
inductive MgmtReply where
  /-- A completion code of PLDM or an SPDM ERROR code. -/
  | code (c : Nat)
  /-- One numeric value: a sensor reading in the sensor's unit and resolution, or a count. -/
  | value (v : Nat)
  /-- The bytes of the answer, in the layout of its standard or of this spec. -/
  | bytes (b : List Byte)
  deriving DecidableEq, Repr

/-- Output pins that commands drive (R538, R600). -/
inductive OutPin where
  | twinAlive | ppsOut
  deriving DecidableEq, Repr

/-- What the block sends out: the model's own record of it, in order. Nothing reads it. -/
inductive Emission where
  /-- An MSI-X message of a function's vector (R408, R409). -/
  | msix (fn vector : Nat)
  /-- A completion entry written to a CQ (R401); the 32 bytes as one word. -/
  | completion (cq : CqRef) (entry : BitVec 256)
  /-- Bytes written to host memory at an I/O virtual address. -/
  | hostWrite (addr : BitVec 64) (data : List Byte)
  /-- A bit of a partition's dirty bitmap to be set by CompareAndSwap: partition, 64-bit word and bit (R378, R379). -/
  | dirtyBit (part word bit : Nat)
  /-- Bytes that a read of the control or memory window returns; none for an Error/Poisoned completion. -/
  | readData (data : Option (List Byte))
  /-- An unsupported-request completion of a PCIe request. -/
  | unsupportedRequest
  /-- A completer-abort completion of a PCIe request. -/
  | completerAbort
  /-- Configuration Request Retry Status (R593). -/
  | retryStatus
  /-- A completed configuration request. -/
  | configDone (fn register : Nat)
  /-- The PF or a VF answers an ATS invalidation (R411). -/
  | atsInvalidated (fn : Nat)
  /-- A TDISP or IDE_KM response. -/
  | security (fn : Nat) (ok : Bool)
  /-- A FAIL message to the twin on TW VC0 (R541). -/
  | fail
  /-- A flit sent by an Aqzer port (R433). -/
  | flit (port : Nat) (flit : Flit)
  /-- A gate message sent by an Aqzer port (R432): its code and value. -/
  | gate (port code value : Nat)
  /-- A write of a partition into a peer's memory: peer device, partition, partition address on the peer, bytes. -/
  | remoteWrite (device part addr : Nat) (data : List Byte)
  /-- DRAINED sent on VC0 to a device (R461). -/
  | drained (device : Nat)
  /-- A submission entry forwarded to a member: member, SQ number there, entry (R416). -/
  | forward (member sq : Nat) (entry : BitVec 512)
  /-- A completion returned to the lead that forwarded the command: lead, SQ, CMD_ID, status, result (R416). -/
  | memberCompletion (lead sq : Nat) (id : BitVec 16) (status : Nat) (result : BitVec 128)
  /-- A stream record for a CQ of the lead (R416): lead, CQ, record, status. -/
  | memberRecord (lead cq : Nat) (record : BitVec 128) (status : Nat)
  /-- A register access sent to a member: member, control-window offset, value of a write (R418). -/
  | memberAccess (member offset : Nat) (value : Option (BitVec 32))
  /-- A member's interrupt condition told to the lead (R418). -/
  | memberEvent (lead : Nat)
  /-- A frame sent by an Ethernet port (R480): its length through the FCS, and its bytes before the FCS where the block formed them. -/
  | frame (port len : Nat) (data : List Byte)
  /-- A PTP frame with its receive timestamp, or an ESMC frame, handed to the controller (R473). -/
  | toController (port : Nat) (time : Option (BitVec 96)) (data : List Byte)
  /-- Transport blocks of a task reported as CRC failures (R310): partition, cell, frame, slot, blocks. -/
  | blocksFailed (part cell frame slot : Nat) (blocks : List Nat)
  /-- The result records that a slot command writes (R290): partition, cell, frame, slot; the status address and the outcome of each
  transport block, CRC_FAIL for a block without a valid result in time; where its last uplink stages put the records. -/
  | slotResults (part cell frame slot : Nat) (results : List (Nat × Nat)) (places : List (BitVec 64 × Nat))
  /-- A low pulse or an edge on an output pin. -/
  | pin (p : OutPin)
  /-- A VDD_CORE request over AVSBus (R604). -/
  | avs (die mv : Nat)
  /-- A mirror batch to the twin on TW VC6 (R539). -/
  | mirror (part : Nat) (writes : List (BitVec 64 × List Byte))
  /-- A cell handed over to the twin (R545). -/
  | handover (part cell : Nat)
  /-- A salinometer message to the members of the span on VC7 (R547). -/
  | salt (msg : SaltMessage)
  /-- An announcement to the members: expulsion, DEGRADED_KEPT or admission (R548, R549, R552). -/
  | announce (member : Nat) (news : SaltNews)
  /-- A management response (R559). -/
  | mgmt (src : MgmtSource) (reply : MgmtReply)
  /-- A PLDM platform event for a sensor that crossed a threshold (R561). -/
  | platformEvent (sensor : SensorId) (value : Nat)
  /-- An image written to the boot flash (R565, R566). -/
  | flashWrite (image : List Byte)
  deriving DecidableEq, Repr

/-- Where the device stands between supplies, reset and service (R588 to R593). -/
inductive Phase where
  /-- A rail is below its threshold: power-on reset (R588). -/
  | railsDown
  /-- A reset has been accepted and the device pulls RST_N low (R590). -/
  | inReset
  /-- The device has released RST_N and the net has not been seen high. -/
  | netLow
  /-- The internal reset is over and bring-up has not begun. -/
  | released
  /-- Bring-up runs (R593). -/
  | bringup
  /-- RSET.BRINGUP.DONE reads 1. -/
  | running
  deriving DecidableEq, Repr

/-- The platform: supplies, reset, clock, operating point and the physical places behind logical numbers. -/
structure Plat where
  /-- Supply, reset and bring-up phase. -/
  phase : Phase := .inReset
  /-- The rails fell under R603, which the next reset's SUPPLY_DROP tells. -/
  dropped : Bool := false
  /-- A bring-up has completed since the last reset (R594). -/
  broughtUp : Bool := false
  /-- Step 1 still waits for REFCLK_A (R593). -/
  waitRefclk : Bool := false
  /-- Step 1 still waits for every junction to fall below 110 °C (R593). -/
  waitHot : Bool := false
  /-- What bring-up finds, while it runs. -/
  env : Option BringEnv := none
  /-- The hold of R37 after loss of REFCLK_A. -/
  clockHold : Bool := false
  /-- The hold of R585 after a trip at 115 °C. -/
  thermalHold : Bool := false
  /-- THERM_N is asserted (R607). -/
  thermN : Bool := false
  /-- The last junction sample of each die, in °C; 0 where there was none. -/
  junctions : Table Nat := []
  /-- VDD_CORE of each die as last confirmed, in mV; 750 where nothing is listed (R602, R604). -/
  vddCore : Table Nat := []
  /-- VDD_CORE of each die as last requested, in mV. -/
  vddRequest : Table Nat := []
  /-- Device time in ns at which VDD_CORE of each die was last lowered (R27). -/
  loweredAt : Table Nat := []
  /-- AVSBus transactions of each die that failed in a row (R604). -/
  avsFails : Table Nat := []
  /-- Reports of a window below floor that wait for their VDD_CORE step, by die (R30). -/
  stepDue : List Nat := []
  /-- Windows below floor in a row while VDD_CORE is at 0.85 V, by monitor (R533): core c at c, signal core k at 160 + k. -/
  floorRun : Table Nat := []
  /-- Physical core, die × 44 + position, behind a logical core number (R20, R530). -/
  corePhysical : Table Nat := []
  /-- Physical signal core, die × 17 + position, behind a logical number. -/
  sigcPhysical : Table Nat := []
  /-- Spare physical cores that stand free, die × 44 + position (R530). -/
  freeCores : List Nat := []
  /-- Spare physical signal cores that stand free, die × 17 + position. -/
  freeSigcs : List Nat := []
  /-- Array repairs of the fuse map, and the cores it fuses out (R118, R530). -/
  fuseRepairs : List ArrayRepair := []
  fusedCores : List Nat := []
  fusedSigcs : List Nat := []
  /-- Arrays that failed their last probe, by physical core and array (R120). -/
  probeFails : List (Nat × Nat) := []
  deriving DecidableEq, Repr

/-- What the part carries from manufacture and what its fuses hold (R558, R570). -/
structure Fuses where
  /-- ROOT_HASH. -/
  rootHash : BitVec 512 := 0
  /-- OWNER_HASH; all zeros for no owner. -/
  ownerHash : BitVec 512 := 0
  /-- The fused SVN, 0 to 64. -/
  svn : Nat := 0
  /-- SERIAL. -/
  serial : BitVec 64 := 0
  /-- UDS, which only the key engine reads (R558, R570). -/
  uds : BitVec 256 := 0
  deriving DecidableEq, Repr

/-- The six operand pairings of R92, in its row order. -/
inductive Pairing where
  | z8z8 | z8z4 | z8t2 | z16 | cplx4 | cplx3
  deriving DecidableEq, Repr

/-- A tile register file of one array (R91): empty (R629), or loaded with a pairing. A cell holds its exponent in bits
[39:32] and its weights in [31:0]; a cell not listed holds exponent 0x80. A cell in badParity fails the parity of R520. -/
structure Tile where
  pairing : Option Pairing := none
  cells : Table (BitVec 40) := []
  badParity : List Nat := []
  deriving DecidableEq, Repr

/-- A row of an accumulator bank (R103): the KINDEX recorded in it (R107), its 64 partial-result records (R77), and the bits that an
injection has flipped in a record's codeword (R520, R528), by record. -/
structure BankRow where
  kindex : Nat
  records : List (BitVec 64)
  flips : Table Nat := []
  deriving DecidableEq, Repr

/-- One array with its tiles and its accumulator bank; a bank row not listed is empty (R108). -/
structure ArrayState where
  resident : Tile := {}
  shadow : Tile := {}
  bank : Table BankRow := []
  deriving DecidableEq, Repr

/-- An array command as its core's queues hold it (R138): a pass or a tile load, the copy of its descriptor (R137),
the arrays it runs on, the address of its ISSUE and its tag. -/
structure ArrayCmd where
  pass : Bool
  desc : BitVec 512
  members : List Nat
  pc : BitVec 18
  tag : Option Nat
  /-- The generator key as it stood at issue (R508). -/
  seed : BitVec 128
  step : BitVec 64
  /-- It has started: a pass has reached wave 0, a load has begun. -/
  started : Bool := false
  /-- A member or the feeder in use was fenced while it ran (R116). -/
  spoiled : Bool := false
  /-- What the pass delivers, formed when it starts, by activation row. -/
  rows : List (List (BitVec 64)) := []
  /-- The sticky flags that it sets when it completes. -/
  flags : Nat := 0
  /-- What a tile load writes, formed when it starts. -/
  tile : Tile := {}
  /-- Rows of a member's share that the pass had completed when a forced preemption last cut it short (R131, R367). -/
  completed : Nat := 0
  deriving DecidableEq, Repr

/-- A completion tag that is not free (R140). -/
inductive TagState where
  | pending
  | done (error : Bool)
  deriving DecidableEq, Repr

/-- A command in a stream slot, the fabric queue or a coding queue: its descriptor, the address of its ISSUE, its tag. -/
structure QueuedCmd where
  desc : BitVec 512
  pc : BitVec 18
  tag : Option Nat
  deriving DecidableEq, Repr

/-- A stream slot, or a DMA channel of a signal core (R155 to R158, R192). -/
structure StreamSlot where
  /-- The running command, if any, and the one queued behind it. -/
  queue : List QueuedCmd := []
  /-- The front command has started. -/
  started : Bool := false
  /-- Lines of the pattern that the front command has moved. -/
  moved : Nat := 0
  /-- Lines produced into the ring, or for DIR = 1 taken from it, since the context started (R157). -/
  produced : Nat := 0
  /-- Lines that the program has returned or released with SREL since the context started (R157). -/
  returned : Nat := 0
  deriving DecidableEq, Repr

/-- What a core waits in (R168). -/
inductive WaitKind where
  /-- SEMACQ of a semaphore of the device. -/
  | sem (s : Nat)
  /-- WAIT on an event selector (R169). -/
  | event (sel : BitVec 64)
  /-- FENCE to a scope (R171). -/
  | fence (scope : Nat)
  deriving DecidableEq, Repr

/-- A blocked SEMACQ, WAIT or FENCE: its register for the status, its deadline (none for g0) and its cheap point. -/
structure Blocked where
  kind : WaitKind
  gd : Fin 32
  deadline : Option (BitVec 64)
  cp : Nat
  deriving DecidableEq, Repr

/-- A context of a partition. -/
structure CtxRef where
  part : Nat
  ctx : Nat
  deriving DecidableEq, Repr

/-- What a logical core does. A trapped core is one whose TRAP_CAUSE.VALID reads 1. -/
inductive CoreRun where
  /-- It holds no context. -/
  | idle
  /-- It executes instructions of its context. -/
  | running
  /-- It is blocked in a wait. -/
  | blocked (b : Blocked)
  /-- It has executed HALT (R186). -/
  | halted
  /-- It takes a cheap point (R178): the live state is being saved. -/
  | cheapSave
  /-- A forced save is in progress (R367). -/
  | forcedSave
  /-- A context is being restored (R178, R367). -/
  | restoring
  /-- Its context has ended while engine commands still run; it is free once they have completed (R185). -/
  | ending
  deriving DecidableEq, Repr

/-- A vector register with its scale companion of 16 exponent bytes (R148). -/
structure VReg where
  data : BitVec 2048 := 0
  scale : BitVec 128 := 0
  deriving DecidableEq, Repr

/-- What an entry of the live-range table names (R180): register masks and scratchpad ranges, first line and line count. -/
structure LiveSet where
  gMask : BitVec 32
  vMask : BitVec 32
  ranges : List (Nat × Nat)
  deriving DecidableEq, Repr

/-- The state formed at a cheap point for a later restart (R534). -/
structure Shadow where
  gpr : Table (BitVec 64)
  vreg : Table VReg
  flags : Nat
  tags : Table TagState
  streams : Table StreamSlot
  rngStep : Nat
  pc : BitVec 18
  /-- Live scratchpad ranges of the entry: first line and line count. -/
  ranges : List (Nat × Nat)
  deriving DecidableEq, Repr

/-- A fabric request of a core that has been injected and not answered (R447 to R451). -/
structure FabReq where
  req : Nat
  /-- Serial number of its command. -/
  cmd : Nat
  dest : Nat
  vc : Nat
  posted : Bool
  sentAt : Nat
  /-- The command's item that it carries. -/
  item : Nat
  packet : Packet
  /-- Place in the order of injection of the device's requests. -/
  order : Nat
  /-- Answers still to come: one for each member of a multicast. -/
  left : Nat := 1
  /-- Refused: device time in ns before which it is not resent (R451). -/
  refusedUntil : Option Nat := none
  deriving DecidableEq, Repr

/-- A fabric command of a core (R447, R448): its items not yet injected, and whether a request failed. -/
structure FabricCmd where
  cmd : QueuedCmd
  serial : Nat
  injected : Nat := 0
  error : Bool := false
  deriving DecidableEq, Repr

/-- A logical compute core: what the spec gives it beyond its page registers, its scratchpad and its instruction memory. -/
structure Core where
  /-- g1 to g31 (R132). -/
  gpr : Table (BitVec 64) := []
  /-- v0 to v31 (R148). -/
  vreg : Table VReg := []
  /-- The program counter (R132). -/
  pc : BitVec 18 := 0
  /-- The context it holds. -/
  ctx : Option CtxRef := none
  run : CoreRun := .idle
  /-- Completion tags that are not free (R140). -/
  tags : Table TagState := []
  /-- Arrays A to D. -/
  arrays : Table ArrayState := []
  /-- Array commands of the core, in issue order (R138, R139). -/
  arrayQueue : List ArrayCmd := []
  streams : Table StreamSlot := []
  fabricQueue : List FabricCmd := []
  codingQueue : List QueuedCmd := []
  /-- Coding descriptors of the core that have left its queue and are not complete. -/
  codingOut : Nat := 0
  /-- A preemption has been requested and not yet delivered (R366, R369). -/
  asked : Bool := false
  /-- A preemption is pending: it has been delivered (R178). -/
  preempt : Bool := false
  /-- Device time in ns since which it has been pending. -/
  preemptAt : Option Nat := none
  /-- Device time in ns up to which the holding context's engine time has been accounted (R363). -/
  heldSince : Option Nat := none
  /-- The first recorded deferred cause (R183): cause, unit, detail, address of the ISSUE. -/
  deferred : Option (Nat × Nat × Nat × BitVec 18) := none
  /-- Device time in ns at which the last cheap point was passed (R176), the time since then to leave out of the gap, and
  device time in ns since which the core does not run (R175). -/
  cheapAt : Option Nat := none
  blockedNs : Nat := 0
  pausedAt : Option Nat := none
  /-- The state formed at the last cheap point, and the NONIDEM flag (R534). -/
  shadow : Option Shadow := none
  nonidem : Bool := false
  /-- Semaphore grants that a SEMACQ reporting TIMEOUT_LATE_ARRIVAL left with the context (R172). -/
  lateGrants : List Nat := []
  /-- What the cheap point in progress saves (R178). -/
  live : Option LiveSet := none
  /-- The context's STEP as this core counts it (R508). -/
  ctxStep : Nat := 0
  /-- The generator key is a serving step's (R508). -/
  serving : Bool := false
  /-- A radio claim has taken the core and waits for its release (R300): partition, cell and device time in ns. -/
  surgeFor : Option (Nat × Nat × Nat) := none
  /-- The core is lent under radio surge to this partition. -/
  lentTo : Option Nat := none
  /-- Requests injected and not answered, in injection order. -/
  requests : List FabReq := []
  /-- Fabric commands issued so far, which numbers them. -/
  fabricSerial : Nat := 0
  /-- Destinations that have answered MERGED since the last FABRIC fence (R463). -/
  merged : List Nat := []
  /-- Seals that the present FABRIC fence waits for, and the destinations it concerns (R463). -/
  fenceSeals : List Nat := []
  sentTo : List Nat := []
  deriving DecidableEq, Repr

/-- A d register of a signal core (R192): 32 elements of 16 bits and their exponent. -/
structure DReg where
  data : BitVec 512 := 0
  exp : BitVec 8 := 0
  deriving DecidableEq, Repr

/-- An accumulator of a signal core (R192): 16 complex lanes, real part before imaginary part. -/
structure SAcc where
  parts : List Int := []
  scale : Int := 0
  empty : Bool := true
  poison : Bool := false
  deriving DecidableEq, Repr

/-- A loop level (R202). -/
structure LoopLevel where
  active : Bool := false
  start : BitVec 16 := 0
  last : BitVec 16 := 0
  count : BitVec 32 := 0
  deriving DecidableEq, Repr

/-- What a signal core does. A trapped one is one whose TRAP_CAUSE.VALID reads 1. -/
inductive SigcRun where
  /-- No program runs. -/
  | idle
  | running
  | blocked (b : Blocked)
  /-- HALT has ended the program. -/
  | halted
  deriving DecidableEq, Repr

/-- A logical signal core (R189 to R192, R202 to R209). -/
structure Sigc where
  d : Table DReg := []
  acc : Table SAcc := []
  a : Table (BitVec 64) := []
  k : Table (BitVec 64) := []
  loops : List LoopLevel := [{}, {}, {}]
  ipc : BitVec 16 := 0
  iprio : Nat := 0
  ie : Bool := false
  loopHold : Bool := false
  prio : Nat := 0
  pc : BitVec 16 := 0
  run : SigcRun := .idle
  /-- Pending event sources (R203). -/
  events : List Nat := []
  /-- Armed alarms (R209). -/
  alarms : Table (BitVec 64) := []
  /-- DMA channels 0 and 1. -/
  dma : Table StreamSlot := []
  /-- Lines of the ingress ring that the program has returned (R192). -/
  ingressReturned : Nat := 0
  /-- Locks that the program holds (R165). -/
  locks : Nat := 0
  lateGrants : List Nat := []
  deriving DecidableEq, Repr

/-- Who waits for a semaphore: a core in SEMACQ, or a sluice engine (R164, R267). -/
inductive Waiter where
  | agent (a : Agent)
  | sluice (e : Nat)
  deriving DecidableEq, Repr

/-- A semaphore (R163 to R167): a lock or a counter, with its waiters in arrival order. -/
structure Sem where
  lock : Bool := false
  count : Nat := 0
  /-- The owner tag of a held lock (R164). -/
  owner : Option (BitVec 24) := none
  /-- The next acquirer receives OWNER_ABORTED (R167). -/
  aborted : Bool := false
  waiters : List Waiter := []
  deriving DecidableEq, Repr

/-- What a context saved of one core (R178, R367): the core's state, the registers of R188 and R509, and scratchpad bytes; full
tells a forced save. -/
structure SavedCore where
  core : Core
  regs : List Nat
  /-- The scratchpad ranges that the save holds, by first line and line count, and their bytes that could be read. -/
  lines : List (Nat × Nat)
  spad : List Host.Cell
  full : Bool
  deriving DecidableEq, Repr

/-- A context of a partition (R358 to R365): what its record held when it was last read, and the fields the device keeps. -/
structure Ctx where
  /-- 0 EMPTY, 1 READY, 2 RUNNING, 3 SUSPENDING, 4 SUSPENDED, 5 TRAPPED. -/
  state : Nat := 0
  priority : Nat := 0
  checked : Bool := false
  weight : Nat := 1
  mask : BitVec 160 := 0
  binary : Nat := 0
  entry : BitVec 18 := 0
  cheapTable : Nat := 0
  cheapCount : Nat := 0
  cheapLimit : Nat := 20
  spill : Nat := 0
  seed : BitVec 128 := 0
  step : Nat := 0
  time : Nat := 0
  vtime : Nat := 0
  /-- Saved cores, by logical core; empty for a context that has not run. -/
  saved : Table SavedCore := []
  /-- The scheduler has claimed its cores and it waits for them (R365). -/
  claiming : Bool := false
  /-- Device time in ns at which its slice began. -/
  sliceAt : Nat := 0
  /-- Its slice has ended (R365). -/
  sliceOver : Bool := false
  /-- A donated slice runs it (R370): the blocked contexts' numbers and the locks they wait for. -/
  donors : List (Nat × Nat) := []
  deriving DecidableEq, Repr

/-- A coding descriptor on its way (R214, R215): the core and context that issued it. -/
structure CodingItem where
  core : Nat
  ctx : CtxRef
  cmd : QueuedCmd
  deriving DecidableEq, Repr

/-- The coding engines, by number: decoder e, encoder 32 + e, polar unit 64 + u (R213 to R218). -/
structure CodingState where
  /-- Queues of the partitions, in order of arrival. -/
  queues : Table (List CodingItem) := []
  /-- Running descriptors with the device time in ns at which they started. -/
  running : Table (CodingItem × Nat) := []
  /-- The owner that a write replaced, and the device time in ns of the write (R218). -/
  replaced : Table (Nat × Option Nat) := []
  deriving DecidableEq, Repr

/-- A memory (R520): the bytes of its valid codewords, and the bits that injected or stored errors have flipped in a
codeword since it was written, keyed by codeword. A byte not listed belongs to a codeword that reads as uncorrectable; in
the bulk tier it reads as the module's content. -/
structure Memory where
  cells : List Host.Cell := []
  flips : Table Nat := []
  deriving DecidableEq, Repr

/-- The memories of the device. Scratchpads are keyed by core × 2²² + address, instruction memories by core × 2¹⁸ +
address, accumulator banks stand in the cores, signal-core memories are keyed by signal core × 2¹⁹ + address and their line tags by signal core × 2¹³ + line, HBM by
physical byte, the memory-side cache's buffer ways by die × 2²⁷ + byte, the bulk tier by port × 2⁴⁴ + byte. -/
structure MemState where
  spad : Memory := {}
  imem : Memory := {}
  dmem : Memory := {}
  simem : Memory := {}
  tags : Memory := {}
  hbm : Memory := {}
  buf : Memory := {}
  bulk : Memory := {}
  deriving DecidableEq, Repr

/-- A level-2 translation entry (R239): a mapped 2 MiB page. frame is the number of its 2 MiB frame in its tier; for a
compressed object, of the frame that holds its stored bytes. -/
structure PageEntry where
  writable : Bool
  tier : Nat
  pinned : Bool
  compressed : Bool
  migrating : Bool := false
  heat : Nat := 0
  frame : Nat
  device : Nat := 0
  object : Nat
  index : Nat
  deriving DecidableEq, Repr

/-- An object record (R253). -/
structure ObjectRec where
  hint : Nat
  tier : Nat
  pinned : Bool
  compressed : Bool
  writable : Bool
  replica : Nat
  base : Nat
  size : Nat
  indexAddr : Nat
  replicaAddr : BitVec 64
  pasid : BitVec 20
  elemTable : Nat
  scaleTable : Nat
  blockBytes : Nat
  deriving DecidableEq, Repr

/-- A page on its way to another tier (R256, R258): the object whose move it is part of and that move's command, or heat
placement's own; the page number, the target tier and the frame it goes to. -/
structure PageMove where
  object : Nat
  tier : Nat
  heat : Bool
  page : Nat
  frame : Nat
  deriving DecidableEq, Repr

/-- A running sluice list (R265 to R268): its partition, the list's address, the next entry, the fill entries completed, and
whether a prefetch or fill of the entry has started. -/
structure SluiceRun where
  part : Nat
  list : Nat
  entry : Nat := 0
  fills : Nat := 0
  filling : Bool := false
  /-- The semaphore that it waits for, and whether its turn has come and the count is its own (R164, R267). -/
  waits : Option Nat := none
  granted : Bool := false
  /-- Device time at which the fill in progress started, and its oldest incomplete unit (R270). -/
  fillAt : Nat := 0
  unit : Nat := 0
  deriving DecidableEq, Repr

/-- A 4 KiB unit of an object with a replica (R272 to R274): awaited from the replica since a device time, or lost. -/
inductive UnitState where
  | awaited (since : Nat)
  | lost
  /-- Good data for held reads, whose write-back failed, and the 64-byte lines of it that no read has taken (R274). -/
  | ready (data : List Byte) (left : List Nat)
  deriving DecidableEq, Repr

/-- A line that a memory-side cache holds (R249, R250): its number, the partition that brought it in, and its keep mark. -/
structure CacheLine where
  line : Nat
  part : Nat
  keep : Bool
  deriving DecidableEq, Repr

/-- Translation, objects, moves, sluice lists and units (ch. "Memory tiers"). -/
structure TierState where
  /-- Level-2 entries, keyed by partition × 2²⁵ + page number. -/
  pages : Table PageEntry := []
  /-- Objects, keyed by partition × 65,536 + OBJECT_ID. -/
  objects : Table ObjectRec := []
  /-- The page move in flight of each partition, with the command that started an object's move. -/
  moves : Table (PageMove × Option (Nat × Nat)) := []
  /-- Sluice engines 0 to 63, 16 on each memory-side die. -/
  sluices : Table SluiceRun := []
  /-- Units, keyed by partition × 2³⁴ + partition address / 4,096. -/
  units : Table UnitState := []
  /-- Code tables that each memory-side die holds (R263), newest first. -/
  codeTables : Table (List Nat) := []
  /-- 2 MiB frames that each port of the bulk set contributes (R244). -/
  bulkFrames : Nat := 0
  /-- Bulk ports of the set that have left link-up: their units are unreachable until the next reset (R245, R598). -/
  lostPorts : List Nat := []
  /-- Lines of the memory-side caches, keyed by (die × 2¹⁷ + set) × 16 + way (R249). -/
  cache : Table CacheLine := []
  /-- Where a partition's tables lie in HBM (R239, R240, R279, R317), by 32 KiB: keyed by partition × 65,536 + part of its tables (0 and 1
  the level-1 table, 2 + i the level-2 table of its entry i, from 16,384 on stream records, from 32,768 on KV entries). -/
  tables : Table Nat := []
  deriving DecidableEq, Repr

/-- What a partition does beside its registers. -/
structure PartRun where
  /-- The masks that the resize in progress ends with: cores and signal cores (R376). -/
  resize : Option (BitVec 160 × BitVec 64) := none
  /-- EXPORT_STATE has stopped its queues and contexts (R380). -/
  exported : Bool := false
  /-- Strict mode (R510): the compositions of the present round still to come, as group and 0 for prefill, 1 + m for microbatch m. -/
  round : List (Nat × Nat) := []
  /-- Device time at which the heat epoch in progress began (R258). -/
  heatAt : Nat := 0
  deriving DecidableEq, Repr

/-- The interrupt route of a page (R409). -/
structure Route where
  fn : Nat
  vector : Nat
  deriving DecidableEq, Repr

/-- A completion entry on its way to a CQ (R402). -/
structure CqEntry where
  result : BitVec 128
  sqId : Nat
  cmdId : Nat
  status : Nat
  sqHead : Nat
  interim : Bool := false
  unsolicited : Bool := false
  deriving DecidableEq, Repr

/-- A submission queue (R389): its parameters, head and tail, and the arrival time of each entry not yet fetched (R395). -/
structure SqState where
  cls : Nat
  admin : Bool
  remote : Option (Nat × Nat)
  weight : Nat
  cq : CqRef
  depth : Nat
  pasid : Option (BitVec 20)
  base : Nat
  progress : Nat
  head : Nat := 0
  tail : Nat := 0
  arrivals : List Nat := []
  deriving DecidableEq, Repr

/-- A completion queue (R389, R401, R408). -/
structure CqState where
  vector : Nat
  coalesceCount : Nat
  coalesceTime : Nat
  depth : Nat
  pasid : Option (BitVec 20)
  base : Nat
  head : Nat := 0
  tail : Nat := 0
  /-- PHASE of the next entry. -/
  phase : Bool := true
  waiting : List CqEntry := []
  /-- Entries counted towards the next message, the index up to which entries have been signalled, and the device time in ns
  from which COALESCE_TIME runs. -/
  unsignalled : Nat := 0
  signalled : Nat := 0
  oldest : Nat := 0
  deriving DecidableEq, Repr

/-- A fetched command (R396). -/
structure Cmd where
  sq : SqRef
  /-- The CQ bound to its SQ. -/
  cq : CqRef
  id : BitVec 16
  part : Nat
  entry : BitVec 512
  /-- SQ head after the fetch. -/
  sqHead : Nat
  /-- Its arrival in ns of device time (R395). -/
  arrival : Nat
  started : Bool := false
  /-- The lead that forwarded it (R416). -/
  lead : Option Nat := none
  /-- A ZEROIZE that the device started itself for a TDI: its function, and whether the TDI goes to ERROR (R580). -/
  forTdi : Option (Nat × Bool) := none
  /-- A recorded partition's input (R513): the boundary that applied it and its device time of arrival; written to the ring when its
  data are known. -/
  recorded : Option (Nat × BitVec 96) := none
  /-- In replay, its command data from the record (R517). -/
  replay : Option (List Byte) := none
  deriving DecidableEq, Repr

/-- A long operation that runs (R405): units done and in all, chunks, the device time of its last interim completion, and
whether it stops at its next chunk boundary. -/
structure LongOp where
  cmd : Cmd
  done : Nat := 0
  total : Nat
  seq : Nat := 0
  interimAt : Option Nat := none
  cancelled : Bool := false
  /-- Command data that it has read; for FILL its pattern. -/
  data : List Byte := []
  /-- What it works on: a kind (for FILL and LOAD_OBJECT 0 range or object, 1 core, 2 signal core), a unit and a start address. -/
  kind : Nat := 0
  unit : Nat := 0
  start : Nat := 0
  /-- Bytes of a FILL's chunk that has been written but for lines whose holders must answer first (R277, R453). -/
  writing : Nat := 0
  /-- Counts that its summary holds (R526, R552): corrected, uncorrectable; first and last failing address. -/
  corrected : Nat := 0
  bad : Nat := 0
  first : Option (Nat × Bool) := none
  last : Option (Nat × Bool) := none
  startedAt : Nat := 0
  deriving DecidableEq, Repr

/-- A forwarded command that waits for its member's completion (R416, R417). -/
structure Forwarded where
  sq : Nat
  cq : CqRef
  id : BitVec 16
  member : Nat
  sqHead : Nat
  at_ : Nat
  deriving DecidableEq, Repr

/-- States of a TDI (R413). -/
inductive Tdi where
  | unlocked | locked | run | error
  deriving DecidableEq, Repr

/-- The keys of an IDE stream (R412): the one in force and the one to go over to. -/
structure IdeKeys where
  active : Option (BitVec 256) := none
  next : Option (BitVec 256) := none
  deriving DecidableEq, Repr

/-- The memory window of a function (R386). -/
structure Window where
  part : Nat := 0
  valid : Bool := false
  base : Nat := 0
  deriving DecidableEq, Repr

/-- The host interface (R383 to R420). -/
structure HostState where
  /-- The valid route of each page, keyed by page index. -/
  routes : Table Route := []
  /-- The last accepted vector of each page for each function, keyed by page index × 256 + function. -/
  routesOf : Table Nat := []
  /-- MSI-X table entries (R385), keyed by function × 4,096 + vector: bit 96 is the vector's mask, which an entry not listed
  has set. -/
  msix : Table (BitVec 128) := []
  /-- Masked vectors whose pending bit is set. -/
  vectorPending : List Nat := []
  /-- The PCIe link is at L0. -/
  linkUp : Bool := false
  /-- Queues that exist: numbered ones by number, the PF admin pair at 1,048,576 and 262,144. -/
  sqs : Table SqState := []
  cqs : Table CqState := []
  /-- Commands that have been fetched and are not complete, oldest first. -/
  cmds : List Cmd := []
  /-- Long operations that run. -/
  longs : List LongOp := []
  /-- The queue that each class serves and how many entries of its turn remain (R392). -/
  turns : Table (Nat × Nat) := []
  forwarded : List Forwarded := []
  windows : Table Window := []
  tdis : Table Tdi := []
  ide : Table IdeKeys := []
  deriving DecidableEq, Repr

/-- An external input that a recorded partition holds until its next boundary (R513). -/
inductive HeldInput where
  | cmd (c : Cmd)
  | window (addr : Nat) (data : List Byte)
  | frame (port subscriber : Nat) (data : List Byte)
  | packet (pkt : Packet)
  deriving DecidableEq, Repr

/-- Recording or replay of a partition (R512 to R518). -/
structure RecordRun where
  /-- 0 off, 1 recording, 2 replaying. -/
  mode : Nat := 0
  /-- Inputs held, with their device time of arrival in the layout of R32. -/
  held : List (HeldInput × BitVec 96) := []
  /-- The digest and count of each output kind of the present interval (R516). -/
  crc : List (BitVec 64) := [0, 0, 0, 0]
  counts : List Nat := [0, 0, 0, 0]
  /-- A context's boundary has been reached and not yet taken (R511). -/
  due : Bool := false
  /-- Replay has stopped applying entries (R518). -/
  stopped : Bool := false
  /-- Byte of the ring up to which replay has applied entries, and up to which it has used responses (R517). -/
  at_ : Nat := 0
  respAt : Nat := 0
  deriving DecidableEq, Repr

/-- A cell record (R285) with its tables as CELL_START read them: e_ref per eAxC (R89) and ingress targets (R293). -/
structure CellRec where
  cell : Nat
  mu : Nat
  categoryB : Bool
  prb : Nat
  txAnt : Nat
  rxAnt : Nat
  dlLayers : Nat
  ulLayers : Nat
  frameOffset : Int
  port : Nat
  subscriber : Nat
  eaxcBase : Nat
  eaxcCount : Nat
  compDl : Nat × Nat
  compUl : Nat × Nat
  t1aMaxUp : Nat
  t1aMinUp : Nat
  ta4Min : Nat
  ta4Max : Nat
  txMargin : Nat
  ulTide : Nat
  harqObject : Nat
  eref : List Int
  /-- Valid entries of INGRESS_MAP, by position: signal core, RING_BASE, RING_BYTES. -/
  ingress : Table (Nat × Nat × Nat)
  deriving DecidableEq, Repr

/-- A running cell (R285 to R287): the last slot whose boundary it has passed, counted from the frames' origin, and the CELL_STOP
that takes effect at the next one. -/
structure Cell where
  info : CellRec
  slot : Int
  stopping : Option Cmd := none
  /-- The stop is an FLR's: it posts nothing (R415). -/
  flr : Bool := false
  /-- It stands by (R540). -/
  standby : Bool := false
  deriving DecidableEq, Repr

/-- An accepted slot command (R288 to R290). -/
structure SlotRun where
  cmd : Cmd
  cq : CqRef
  cell : Nat
  frame : Nat
  slot : Nat
  /-- Its slot, counted from the frames' origin. -/
  index : Int
  predicted : Nat
  tasks : List SlotTask
  /-- Tasks that have missed their tidemarks, and downlink symbols that are not sent (R310). -/
  missed : List Nat := []
  withheld : List Nat := []
  /-- Status addresses of the blocks reported as CRC failures: a result that becomes valid later is discarded (R310). -/
  failed : List Nat := []
  /-- Downlink symbols that have been handed to the traffic manager (R297). -/
  handed : List Nat := []
  /-- PRBs that are erased, or were dropped: symbol, position of the eAxC, PRB (R293, R298). -/
  erased : List (Nat × Nat × Nat) := []
  /-- A claim for its surge cores has been served (R292). -/
  served : Bool := false
  /-- Held by a standby cell (R540). -/
  held : Bool := false
  deriving DecidableEq, Repr

/-- A claim for a surge core (R300 to R303): the slot command that it serves, the cores claimed and when the last of them was, and the
core that has become ready. -/
structure Claim where
  cell : Nat
  index : Int
  cores : List Nat
  at_ : Nat
  ready : Option Nat := none
  deriving DecidableEq, Repr

/-- An uplink PRB that has arrived (R293): its cell, slot counted from the frames' origin, symbol, position of its eAxC, number within
the carrier, and whether it was written to a ring and not dropped. -/
structure ArrivedPrb where
  cell : Nat
  index : Int
  symbol : Nat
  eaxc : Nat
  prb : Nat
  written : Bool
  deriving DecidableEq, Repr

/-- A radio partition (R285 to R312). -/
structure RadioPart where
  cells : Table Cell := []
  slots : List SlotRun := []
  claims : List Claim := []
  /-- The last slot commands that ended, newest first, at most 1,000: when, the time their tasks took, PREDICTED (R306). -/
  window : List (Nat × Nat × Nat) := []
  /-- The soak record that has been imported. -/
  soak : Option SoakRecord := none
  /-- Per-cell counters of R313: missed tidemarks, late and poisoned PRBs. -/
  miss : Table Nat := []
  uplaneLate : Table Nat := []
  poison : Table Nat := []
  /-- Uplink PRBs that have arrived: cell, slot, symbol, position of the eAxC, PRB, and whether it was written to a ring (R293, R298). -/
  arrived : List ArrivedPrb := []
  /-- Symbols of an eAxC whose window has closed: cell, slot, symbol, position of the eAxC (R298). -/
  closed : List (Nat × Int × Nat × Nat) := []
  /-- Slots of a cell whose slot command was late: their uplink is discarded and no downlink is sent (R289). -/
  discarded : List (Nat × Int) := []
  /-- Outcomes of coding descriptors that have ended, by status address (R217, R299, R310). -/
  results : Table Nat := []
  /-- Soak records that have been imported since reset: one that leaves CAL_STALE is none of them (R306). -/
  imported : List SoakRecord := []
  /-- Device time, in ns, since which the inlet has been more than 5 °C above the soak record's (R307). -/
  warmSince : Option Nat := none
  deriving DecidableEq, Repr

/-- Radio service: the partitions, and the wave-rate windows of the cores. -/
structure RadioState where
  parts : Table RadioPart := []
  /-- Windows of each monitor, core c at c and signal core k at 160 + k, that no later one falls below: end in device-time ns and rate,
  oldest first. -/
  lows : Table (List (Nat × Nat)) := []
  /-- The lowest of each core's first windows, and how many there were (R304). -/
  boot : Table (Nat × Nat) := []
  deriving DecidableEq, Repr

/-- A token record that its route has not accepted (R343, R346): the 16 bytes, the completion status, whether it ends the stream, and
the decode step of the group that formed it. -/
structure TokenRec where
  word : BitVec 128
  status : Nat
  last : Bool
  step : Option Nat
  deriving DecidableEq, Repr

/-- A RESHARD long operation on a stream (R337): the group it goes to, and the list positions still to copy. -/
structure ReshardOp where
  group : Nat
  left : List Nat
  deriving DecidableEq, Repr

/-- A stream that is not FREE (R316 to R347): the record as STREAM_OPEN gave it, and what the device keeps. -/
structure StreamRun where
  part : Nat
  image : BitVec 2048
  group : Nat
  /-- 1 QUEUED, 2 PREFILL, 3 RESHARD, 4 DECODE, 5 ENDED. -/
  state : Nat := 1
  /-- The HOLD causes. -/
  host : Bool := false
  kv : Bool := false
  output : Bool := false
  /-- A STREAM_HOLD or STREAM_RELEASE that the next step boundary applies (R319). -/
  hostNext : Option Bool := none
  position : Nat := 0
  step : Nat := 0
  /-- The page list: KV entry indices (R324). -/
  pages : List Nat := []
  admitNo : Nat
  endReason : Nat := 0
  /-- Its microbatch while it decodes (R329). -/
  mb : Nat := 0
  /-- It takes part in a step that runs. -/
  inStep : Bool := false
  /-- Tokens that it has generated; its first decode step is still to come (R334). -/
  made : Nat := 0
  first : Bool := false
  /-- Its hidden row has been moved but a hold keeps it in RESHARD (R318). -/
  resharded : Bool := false
  /-- List positions that the reshard engine has still to copy (R334). -/
  left : List Nat := []
  /-- STREAM_CLOSE commands that wait for its step boundary, and KEEP_PREFIX of the first (R323). -/
  closing : List Cmd := []
  keep : Nat := 0
  records : List TokenRec := []
  op : Option ReshardOp := none
  /-- Its pages stand in the deep layout (R330). -/
  deep : Bool := false
  /-- The lead to which a member without its own host link sends its records (R416). -/
  lead : Option Nat := none
  deriving DecidableEq, Repr

/-- A serving group (R327): its record as declared, its counters (R348), and the batches of the steps that run: for prefill
with each stream's tokens, for decode by microbatch. -/
structure ServeGroup where
  image : BitVec 1024
  steps : Nat := 0
  tokens : Nat := 0
  last : Nat := 0
  prefill : Option (List (Nat × Nat)) := none
  decode : Table (List Nat) := []
  deriving DecidableEq, Repr

/-- A KV entry in use (R279): a free entry is not listed, and PAGE_ADDR follows from the binding (R324). -/
structure KvEntry where
  shared : Bool
  owner : Nat
  /-- PAGE_ADDR × 4,096. -/
  addr : Nat
  deriving DecidableEq, Repr

/-- A partition's KV binding (R324): object, LAYER_BYTES and layers. -/
structure KvPool where
  object : Nat
  layerBytes : Nat
  layers : Nat
  /-- The range's first entry, and its PAGE_ADDR × 4,096: those of the others follow (R324). -/
  first : Nat := 0
  base : Nat := 0
  deriving DecidableEq, Repr

/-- Inference serving. -/
structure ServeState where
  streams : Table StreamRun := []
  /-- Groups, keyed by partition × 8 + GROUP. -/
  groups : Table ServeGroup := []
  kvs : Table KvEntry := []
  pools : Table KvPool := []
  /-- ADMIT of the last STREAM_OPEN that was accepted (R317). -/
  admits : Nat := 0
  /-- Sequence numbers of the frames to subscribers (R345). -/
  seqs : Table Nat := []
  deriving DecidableEq, Repr

/-- What sent a seal (R460, R461, R463): a fence, a move of a destination, or a port whose link has gone down. -/
inductive SealKind where
  | fence
  | move
  | drain (port : Nat)
  deriving DecidableEq, Repr

/-- A seal that this device has sent and whose return is outstanding (R460, R463): its destination, and what sent it. -/
structure Seal where
  dest : Nat
  kind : SealKind
  deriving DecidableEq, Repr

/-- A packet at an output: flits sent so far, the input port whose buffer still holds it (none for a packet of this device or one that
has left that buffer), and whether it lies in the store of a quenched partition (R464). -/
structure QPacket where
  pkt : Packet
  sent : Nat := 0
  src : Option Nat := none
  stored : Bool := false
  deriving DecidableEq, Repr

/-- A SEAL or SEAL_RETURN on its way (R426). -/
structure GateSeal where
  ret : Bool
  tag : Nat
  dest : Nat
  fseq : Nat
  deriving DecidableEq, Repr

/-- A seal that waits at an output behind the packets for its destination: how many of each VC are still ahead of it (R460). -/
structure WaitingSeal where
  msg : GateSeal
  ahead : List Nat
  deriving DecidableEq, Repr

/-- A flit in the replay buffer (R434): how often it was sent, and the packet that it completes, if it completes one. -/
structure ReplayFlit where
  flit : Flit
  sends : Nat
  ends : Option Packet
  deriving DecidableEq, Repr

/-- What a move holds back (R460): packets and seals for the destination. -/
inductive HeldItem where
  | packet (p : QPacket)
  | gate (m : GateSeal)
  deriving DecidableEq, Repr

/-- An Aqzer port beyond its registers. -/
structure Link where
  /-- Lanes in codeword lock (R425). -/
  locked : List Nat := []
  /-- Restarts of training in a row (R431). -/
  restarts : Nat := 0
  /-- Device time in ns at which the phase in progress began (R431). -/
  phaseAt : Nat := 0
  /-- The port has been up; and the next link up keeps the replay buffer and FSEQ (R434). -/
  wasUp : Bool := false
  keepSeq : Bool := false
  /-- MODE as the training in progress, or the last one, took it (R422). -/
  simplex : Bool := false
  /-- Lanes that still train (R423). -/
  kept : Nat := 0
  /-- Gain and echo suppression of each lane, and its pre-FEC symbol errors since they were last read. -/
  gains : List Nat := []
  residuals : List Nat := []
  errors : Table Nat := []
  /-- Device time in ns since which a lane has been asleep (R438), and the far end's wanted sleep mask and the SEQ that it named. -/
  sleptAt : Table Nat := []
  peerMask : Nat := 0
  peerSeq : Nat := 0
  /-- The division of the receive buffer in force, and the partner's (R436). -/
  division : List Nat := []
  peerDivision : List Nat := []
  /-- Next FSEQ to send, the replay buffer, oldest first, and the place in it from which flits are sent again (R434). -/
  txSeq : Nat := 0
  replay : List ReplayFlit := []
  resend : Option Nat := none
  /-- Next FSEQ expected; flits are being discarded until it comes; flits accepted since the last ACK; device time in ns of that ACK;
  a flit has been accepted since FSEQ was reset. -/
  rxSeq : Nat := 0
  discarding : Bool := false
  unacked : Nat := 0
  ackedAt : Nat := 0
  rxAny : Bool := false
  /-- Flits of each VC that the partner's buffer holds as far as this end knows, and the running count it last told (R436). -/
  inFlight : List Nat := [0, 0, 0, 0, 0, 0, 0, 0]
  told : List Nat := [0, 0, 0, 0, 0, 0, 0, 0]
  /-- The running count of flits freed here, by VC. -/
  freed : List Nat := [0, 0, 0, 0, 0, 0, 0, 0]
  /-- Device time in ns of the last credit received, and at which a packet last waited for want of one (R459). -/
  creditAt : Nat := 0
  starvedAt : Nat := 0
  /-- VCs in XOFF (R437). -/
  xoff : List Nat := []
  /-- Packets at this output, by VC, oldest first. -/
  queues : Table (List QPacket) := []
  /-- The VC whose turn it is, and the flits of its weight that are left (R435). -/
  turn : Nat × Nat := (1, 0)
  /-- The packet of each VC that is being received, and its flits still to come. -/
  partials : Table (Packet × Nat) := []
  /-- Packets received for this device, oldest first. -/
  rx : List Packet := []
  /-- Seals that wait behind packets here; those sent, until the flits before them are acknowledged; those received that wait for flits;
  those applied. -/
  sealsOut : List WaitingSeal := []
  sealsSent : List GateSeal := []
  sealsIn : List GateSeal := []
  sealsSeen : List GateSeal := []
  /-- TIME (R467): when this end last sent kind 0, the partner's last kind 0 and when it arrived, in 2⁻¹⁶ ns; device time in ns of the
  last TIME message. -/
  timeSent : Option Nat := none
  timeGot : Option (Nat × Nat) := none
  timeHeard : Nat := 0
  /-- The fabric has moved the destinations of this output since it left link-up (R461). -/
  downHandled : Bool := false
  /-- The output has left link-up, and the destinations that have returned to it since (R459). -/
  away : Bool := false
  back : List Nat := []
  deriving DecidableEq, Repr

/-- A destination that has moved from its default output (R459, R460): its output, the seal that is still to return, what is held until
then, and whether it moves back. -/
structure MoveEntry where
  output : Nat
  tag : Option Nat := none
  held : List HeldItem := []
  back : Bool := false
  deriving DecidableEq, Repr

/-- An output that has left link-up (R461): since when, the partner, the destinations that had moved to it, what is held for its
destinations, and whether DRAINED is still to be sent to the partner. -/
structure DrainEntry where
  since : Nat
  peer : Option Nat
  dests : List Nat := []
  held : List HeldItem := []
  owes : Bool := true
  deriving DecidableEq, Repr

/-- What waits for a busy line of the directory, or a replicated page (R453, R457): a request, with the exclusive grant that it may have,
or a write of the home's own. -/
inductive DirWait where
  | request (pkt : Packet) (grantE : Bool)
  | write (part addr : Nat) (bytes : List Byte)
  deriving DecidableEq, Repr

/-- A directory entry (R453): sharers or an owner, the members whose answers it awaits, whether their copies end with the answer, what
waits for it, and device time in ns of its last use. -/
structure DirEntry where
  sharers : List Nat := []
  owner : Option Nat := none
  awaits : List Nat := []
  ending : Bool := false
  waiting : List DirWait := []
  used : Nat := 0
  deriving DecidableEq, Repr

/-- A line of another member's memory in this device's caches (R452): its bytes once they have come, exclusive, dirty, bytes of stores
that wait for it, a request outstanding, and an answer that gave no data. -/
structure CopyLine where
  data : Option (List Byte) := none
  excl : Bool := false
  dirty : Bool := false
  pend : List (Nat × Byte) := []
  asked : Bool := false
  bad : Bool := false
  deriving DecidableEq, Repr

/-- A 4 KiB page of the home as replication sees it (R457): recent readers with device time in ns, the last write, the members that may
hold a replica, and those whose answers a write awaits. -/
structure RepPage where
  readers : Table Nat := []
  wroteAt : Option Nat := none
  mask : List Nat := []
  awaits : List Nat := []
  waiting : List DirWait := []
  deriving DecidableEq, Repr

/-- A gathering line of a strict reduction (R466): contributors, the place of its exponents, format and block length, the contributions
by index, and when the first one came. -/
structure Gather where
  count : Nat
  scaleAddr : Nat
  func : Nat
  got : Table Packet := []
  since : Nat
  deriving DecidableEq, Repr

/-- Requests that a combining buffer merged into one (R456): the survivor as source, core and request, and each merged request with the
sum of the operands before its own. -/
structure MergedPair where
  src : Nat
  core : Nat
  req : Nat
  others : List (Packet × Nat)
  deriving DecidableEq, Repr

/-- The memory-semantic fabric of this device. -/
structure FabricState where
  /-- Seals by tag. -/
  seals : Table Seal := []
  /-- Seals of fences to go out, by tag and destination, oldest first; drain seals that wait for a free tag, by port and destination. -/
  sent : List (Nat × Nat) := []
  wanted : List (Nat × Nat) := []
  /-- Packets formed by this device and not yet at an output. -/
  out : List Packet := []
  links : Table Link := []
  moves : Table MoveEntry := []
  draining : Table DrainEntry := []
  /-- The directory, keyed by partition × 2⁴⁰ + address / 64: a line of a partition has one place. -/
  dir : Table DirEntry := []
  /-- Lines of other members, keyed by (device × 64 + partition) × 2⁵⁸ + address / 64. -/
  copies : Table CopyLine := []
  /-- Entries of each home agent's absorber, least recently written first: line, keyed as in the directory, and device time in ns of the last
  write (R454). -/
  absorber : Table (List (Nat × Nat)) := []
  /-- Sources and VCs whose later requests are refused (R451). -/
  refusing : List (Nat × Nat) := []
  /-- Pages of the replication table, keyed by partition × 2³⁴ + address / 4096. -/
  reps : Table RepPage := []
  /-- Gathering lines, keyed by partition × 2⁶⁴ + address. -/
  gathers : Table Gather := []
  pairs : List MergedPair := []
  /-- Partitions quenched by learning, and device time in ns until which quench messages for one are ignored (R464, R465). -/
  learned : BitVec 64 := 0
  ignoreUntil : Table Nat := []
  /-- Sum and number of the offsets of the average in progress, in 2⁻¹⁶ ns × 2 (R468). -/
  offsetSum : Int := 0
  offsetCount : Nat := 0
  /-- Requests injected so far, which orders them (R451). -/
  serial : Nat := 0
  deriving DecidableEq, Repr

/-- A frame that a traffic-manager queue holds (R477): its length from the destination address through the FCS; its bytes before the FCS
(none listed where the controller formed them); the timestamp tag that its sender asked for; and the partition and cell whose U-plane it
carries. -/
structure TxFrame where
  len : Nat
  data : List Byte := []
  tag : Option (BitVec 16) := none
  oneStep : Bool := false
  cell : Option (Nat × Nat) := none
  deriving DecidableEq, Repr

/-- A node of the traffic manager (R477 to R480, R499): its 16-word record, its buckets in 10⁻⁶ bytes with the device time in ns of their
last fill, the queue of a class node or the management queue of a port node, and the deficit of a subscriber. -/
structure Node where
  words : List (BitVec 32) := List.replicate 16 0
  c : Int := 0
  p : Int := 0
  at_ : Nat := 0
  queue : List TxFrame := []
  deficit : Int := 0
  deriving DecidableEq, Repr

/-- A policer (R482, R483, R500): its 5-word record, its buckets in 10⁻⁶ bytes, and its counts. -/
structure Policer where
  words : List (BitVec 32) := List.replicate 5 0
  tc : Int := 0
  tp : Int := 0
  at_ : Nat := 0
  green : Nat := 0
  yellow : Nat := 0
  red : Nat := 0
  deriving DecidableEq, Repr

/-- An Ethernet port's state that no register shows: transmit timestamps (R487), oldest first; timestamps of frames that have been sent
and whose entries have not been placed (a one-step frame asks for none unless it could not be updated); and the subscriber served last
(R480). -/
structure EthPort where
  stamps : List (BitVec 16 × BitVec 96) := []
  awaited : List (Option (BitVec 16)) := []
  last : Option Nat := none
  deriving DecidableEq, Repr

/-- Ethernet ports and the traffic manager. -/
structure EthState where
  ports : Table EthPort := []
  /-- Nodes that are not as reset left them, keyed by level × 2²⁰ + index (R477). -/
  nodes : Table Node := []
  policers : Table Policer := []
  /-- Frames written to each subscriber's ring since its record was written (R476). -/
  rings : Table Nat := []
  /-- The last eCPRI sequence number of each eAxC, keyed by subscriber × 65,536 + eAxC (R475). -/
  seqids : Table (BitVec 8) := []
  deriving DecidableEq, Repr

/-- The time unit (R32 to R36). -/
structure TimeUnit where
  /-- Seconds of device time. -/
  sec : Nat := 0
  /-- Device time within the second, in units of 2⁻⁴⁸ / 5 ns, so that a tick of 0.8 ns × (1 + y), y in 2⁻⁴⁸, is
  a whole number of them. -/
  sub : Nat := 0
  /-- Seconds that a write of RSET.TIME_LOAD loads at the next tick (R596). -/
  loadSec : Option Nat := none
  /-- TIME_LOAD has been accepted since the reset (R596). -/
  loaded : Bool := false
  /-- A phase step that the next tick takes, in 2⁻¹⁶ ns, and whether a forced step is part of it (R492, R493). -/
  step : Int := 0
  forced : Bool := false
  /-- The integral of the servo and the frequency term y_f, in 2⁻⁴⁸ (R490, R492). -/
  integ : Int := 0
  yf : Int := 0
  /-- Device time in ns of the last sample, and of the last accepted one or of the choice of the source (R492, R494). -/
  sampleAt : Option Nat := none
  acceptedAt : Nat := 0
  /-- The mean path delays of the last exchanges of the PTP engine, newest first, at most 16, in 2⁻¹⁷ ns (R489). -/
  paths : List Int := []
  /-- Accepted samples in a row within SLEW_LIMIT / 4 (R494). -/
  good : Nat := 0
  /-- Time in 2⁻¹⁶ ns of the last accepted edge of PPS_IN (R619). -/
  ppsIn : Option Nat := none
  /-- The last second whose PPS_OUT edge has been produced (R491). -/
  ppsOut : Option Int := none
  deriving DecidableEq, Repr

/-- The salinometer (R546 to R552). -/
structure Salt where
  /-- Sequence number of this device's messages. -/
  seq : BitVec 32 := 0
  /-- Device time in ns of the controller's last score; none before the first. -/
  scoredAt : Option Nat := none
  /-- The last scores received from each member, newest first, at most three. -/
  scores : Table (List Nat) := []
  /-- Device time in ns of each member's last message. -/
  heardAt : Table Nat := []
  /-- Members whose last message was STALE. -/
  staleFrom : List Nat := []
  /-- The vote mask that each member last sent. -/
  votes : Table (BitVec 64) := []
  /-- Device times in ns of the expulsions announced (R549). -/
  expulsions : List Nat := []
  /-- Aqzer trainings after the first link up and Ethernet link-down events, over all ports (R546). -/
  trainings : Nat := 0
  /-- The scores of the last 60 s and the newest one before, newest first: when, with RASP.CORRECTED and trainings then (R546). -/
  marks : List (Nat × Nat × Nat) := []
  /-- Device time in ns since which the salinometer is enabled: the moment from which silence counts. -/
  enabledAt : Nat := 0
  deriving DecidableEq, Repr

/-- A cell whose handover is scheduled (R545): partition, cell and the slot boundary, in device-time ns. -/
structure Handover where
  part : Nat
  cell : Nat
  due : Nat
  deriving DecidableEq, Repr

/-- The twin (R538 to R545). -/
structure Twin where
  /-- Device time in ns of the last pulse this device drove. -/
  pulsedAt : Option Nat := none
  /-- Device time in ns of the last twin pulse detected. -/
  heardAt : Option Nat := none
  /-- Device time in ns at which the pulse due after a leader's pulse starts (R538). -/
  pulseDue : Option Nat := none
  /-- The twin has been judged failed (R541). -/
  failed : Bool := false
  /-- The device has sent FAIL since it last served. -/
  failSent : Bool := false
  /-- Handovers that a drain has scheduled. -/
  handovers : List Handover := []
  /-- Local partitions that the twin has mirrored into (R539). -/
  mapped : List Nat := []
  /-- Writes of each partition that the next mirror batch takes to the twin: address there and bytes (R539). -/
  toMirror : Table (List (BitVec 64 × List Byte)) := []
  /-- Copies of objects on the twin that are stale (R539): partition × 65,536 + object. -/
  stale : List Nat := []
  deriving DecidableEq, Repr

/-- The injection of R528 needs no state beyond its registers; a repair sequence in progress is this: the value of
PPR_CONTROL that started it, with PPR_ROW above it (R532). -/
structure Ras where
  /-- Post-package repairs in progress. -/
  ppr : Option (BitVec 64) := none
  /-- Soft post-package repairs in force (R531): stack, channel, pseudo channel, bank and row as one number. -/
  softRepairs : List Nat := []
  /-- Hard post-package repairs, which are permanent. -/
  hardRepairs : List Nat := []
  deriving DecidableEq, Repr

/-- What starts a verification of firmware (R563, R565, R569). -/
inductive BootKind where
  /-- The boot of a reset, from the flash. -/
  | cold
  /-- A recovery from host memory; the image is written to the flash too where PERSIST is 1. -/
  | recovery (persist : Bool)
  /-- A restart of the controller: the image in SRAM first, then the flash (R569). -/
  | restart
  /-- A restart by ActivateFirmware: the updated image in the flash (R566). -/
  | activate
  deriving DecidableEq, Repr

/-- A secured SPDM session of a transport (R573). -/
inductive Session where
  | handshake
  | established
  deriving DecidableEq, Repr

/-- A migration key slot (R576): key, peer's IDK public key, and the counter of its nonces. -/
structure KeySlot where
  key : BitVec 256
  peer : BitVec 456
  nonce : Nat
  deriving DecidableEq, Repr

/-- The Nymav controller (R556 to R586). -/
structure Mgmt where
  /-- The image held in SRAM; empty where none has been verified. -/
  sram : List Byte := []
  /-- The verification in progress. -/
  booting : Option BootKind := none
  /-- The image that a recovery read from host memory. -/
  recovered : List Byte := []
  /-- Device time in ns at which the latest watchdog restart began. -/
  restartAt : Option Nat := none
  /-- The latest sample of the sensors (R561). -/
  sample : Option SensorEnv := none
  /-- What every sensor read in it. -/
  readings : List (SensorId × Nat) := []
  /-- Platform events that no request has collected yet (R559). -/
  events : List (SensorId × Nat) := []
  /-- Sessions, by transport: 0 I3C, 1 SMBus, 2 PCIe vendor-defined, 3 DOE of the PF, 256 + f DOE of function f. -/
  sessions : Table Session := []
  /-- How far each transport's SPDM connection has come: 1 version, 2 capabilities, 3 algorithms (R573). -/
  spdm : Table Nat := []
  /-- Large messages sent in chunks so far, by transport: chunks and bytes. -/
  chunks : Table (Nat × List Byte) := []
  /-- Large responses that CHUNK_GET collects, by transport. -/
  large : Table (List Byte) := []
  /-- Migration key slots (R576). -/
  keySlots : Table KeySlot := []
  /-- A firmware update has replaced the image in the flash and has not been activated (R566). -/
  updated : Bool := false
  /-- PENDING has stood since the reset, so that only a ZEROIZE of SCOPE 1 clears it (R579). -/
  stale : Bool := false
  /-- Dynamic address on the management I3C bus (R559). -/
  dynAddr : Option (BitVec 7) := none
  deriving DecidableEq, Repr

/-- The power limiter and the thermal policy (R581 to R585). -/
structure Power where
  /-- P of the latest estimate, in W. -/
  p : Nat := 0
  /-- P of the last 100 estimates, newest first (POWER_NOW). -/
  recent : List Nat := []
  /-- P0 of the latest estimate, in W. -/
  p0 : Nat := 0
  /-- The throttle fraction × 1,000. -/
  fraction : Nat := 0
  /-- A throttle of R581 holds. -/
  throttling : Bool := false
  /-- Device time in ns since which P0 has been above SUSTAINED without a break. -/
  overSince : Option Nat := none
  /-- Device time in ns since which P0 has been at or below SUSTAINED. -/
  underSince : Option Nat := none
  /-- The 10 ms allowance is available (R581). -/
  allowance : Bool := true
  /-- Device time in ns since which every inference core has been held at f = 1 with P0 above SUSTAINED (R583). -/
  fullSince : Option Nat := none
  /-- The present episode of R583 has been reported. -/
  overrun : Bool := false
  /-- The inlet has been above 50 °C for 1 s (R585); its reading in 0.1 °C. -/
  inletHigh : Option Nat := none
  /-- Device time in ns since which the inlet has read above 50 °C. -/
  inletSince : Option Nat := none
  /-- A junction has reached 100 °C and not every junction is below 98 °C since (R585). -/
  warm : Bool := false
  /-- The dies that the 105 °C throttle holds (R585). -/
  hotDies : List Nat := []
  /-- The stacks whose refresh is doubled (R585). -/
  hotStacks : List Nat := []
  /-- Device time in ns of the last inlet reading. -/
  inletAt : Nat := 0
  /-- The inlet sensor gives no reading, so the inlet counts as 55 °C (R606). -/
  inletLost : Bool := false
  deriving DecidableEq, Repr

/-- Why a run stops. No command of this block stops it: what goes wrong is an error record, a trap, a status or an answer of a bus, all of
them effects. The one constructor keeps the type inhabited. -/
inductive Fault where
  /-- Raised by nothing (safe: no run ends in it). -/
  | none
  deriving DecidableEq, Repr

/-- Why a command has no meaning. -/
inductive Refusal where
  /-- Raised by the arms of exec whose command has no meaning yet (safe: the run stops). -/
  | notModelled (mnemonic : String)
  deriving DecidableEq, Repr

/-- The state of the block. -/
structure State where
  /-- Commands that wait, first in first out. -/
  pending : List Instr := []
  /-- What the block has sent out, oldest first. -/
  out : List Emission := []
  /-- How many free values the run has used: the model's own field. -/
  freeIx : Nat := 0
  /-- The register file (R42 to R53 and every register table). -/
  regs : RegFile := []
  /-- Upper halves latched by reads of 64-bit counters (R130), keyed by the control-window offset of the upper register. -/
  latches : Table Nat := []
  /-- Resets accepted since the model began, which survivesReset counts. -/
  resets : Nat := 0
  plat : Plat := {}
  fuses : Fuses := {}
  time : TimeUnit := {}
  cores : Table Core := []
  fabric : FabricState := {}
  sigcs : Table Sigc := []
  sems : Table Sem := []
  /-- Contexts that are not EMPTY, keyed by partition × 256 + number. -/
  ctxs : Table Ctx := []
  tier : TierState := {}
  coding : CodingState := {}
  parts : Table PartRun := []
  radio : RadioState := {}
  serve : ServeState := {}
  /-- Recordings and replays, by partition. -/
  records : Table RecordRun := []
  eth : EthState := {}
  mem : MemState := {}
  host : HostState := {}
  mgmt : Mgmt := {}
  power : Power := {}
  ras : Ras := {}
  twin : Twin := {}
  salt : Salt := {}
  deriving DecidableEq, Repr

/-- The machine right after its first power-on reset has been accepted, the VBAT domain having started without its contents (R588, R595,
R608): RESET_COUNT 1, CAUSE power-on, VBAT_FRESH, and PENDING of R579 set. DESIGN CHOICE: log entries 3, 4, 5. -/
def State.reset : State :=
  { regs :=
      (([] : RegFile)
        |> fieldSet ⟨.rset, 0⟩ Rg.rsetResetCountCount 0 1
        |> fieldSet ⟨.rset, 0⟩ Rg.rsetResetCauseCause 0 1
        |> fieldSet ⟨.rset, 0⟩ Rg.rsetResetCauseVbatFresh 0 1
        |> fieldSet ⟨.mgmt, 0⟩ Rg.mgmtZeroizeStatusPending 0 1)
    resets := 1
    mgmt := { stale := true } }

end Sys2Proof.Machine
end

