-- ==== Sys2Proof/Machine/Ops.lean ====
section
/-! DEFINITION. The named operations over the state that many commands share: register fields, device time, interrupts and
their messages (R51, R52, R409, R410), error records (R53, R54), free values and what leaves the block. -/

namespace Sys2Proof.Machine

/-- The single pages, by short names. -/
abbrev globPage : Page := ⟨.glob, 0⟩
abbrev rsetPage : Page := ⟨.rset, 0⟩
abbrev hostPage : Page := ⟨.host, 0⟩
abbrev qmgrPage : Page := ⟨.qmgr, 0⟩
abbrev codePage : Page := ⟨.code, 0⟩
abbrev fabrPage : Page := ⟨.fabr, 0⟩
abbrev raspPage : Page := ⟨.rasp, 0⟩
abbrev mgmtPage : Page := ⟨.mgmt, 0⟩
abbrev timePage : Page := ⟨.time, 0⟩
abbrev shapPage : Page := ⟨.shap, 0⟩
abbrev polcPage : Page := ⟨.polc, 0⟩
abbrev corePage (c : Nat) : Page := ⟨.core, c⟩
abbrev sigcPage (k : Nat) : Page := ⟨.sigc, k⟩
abbrev partPage (k : Nat) : Page := ⟨.part, k⟩
abbrev aqzlPage (p : Nat) : Page := ⟨.aqzl, p⟩
abbrev ethpPage (p : Nat) : Page := ⟨.ethp, p⟩
abbrev msidPage (m : Nat) : Page := ⟨.msid, m⟩
abbrev hbmcPage (x : Nat) : Page := ⟨.hbmc, x⟩
abbrev bulkPage (p : Nat) : Page := ⟨.bulk, p⟩

/-- The value of a register field. -/
def State.reg (s : State) (p : Page) (f : RegField) (i : Nat := 0) : Nat := fieldGet s.regs p f i

/-- A one-bit field reads 1. -/
def State.flag (s : State) (p : Page) (f : RegField) (i : Nat := 0) : Bool := s.reg p f i != 0

/-- Set a register field, whoever sets it. -/
def State.setReg (s : State) (p : Page) (f : RegField) (v : Nat) (i : Nat := 0) : State :=
  { s with regs := fieldSet p f i v s.regs }

/-- A truth value as a field's bit. -/
def bit (b : Bool) : Nat := if b then 1 else 0

/-- Count an event in a counter that saturates at its width. -/
def State.bump (s : State) (p : Page) (f : RegField) (n : Nat := 1) (i : Nat := 0) : State :=
  s.setReg p f (min (s.reg p f i + n) (2 ^ f.len - 1)) i

/-- Add to a counter that wraps at its width. -/
def State.addReg (s : State) (p : Page) (f : RegField) (n : Nat) (i : Nat := 0) : State :=
  s.setReg p f (s.reg p f i + n) i

/-- Do f where b holds. -/
def State.when (s : State) (b : Bool) (f : State → State) : State := bif b then f s else s

/-- Do f for each entry of a list, in order. -/
def State.each {α : Type} (s : State) (l : List α) (f : α → State → State) : State := l.foldl (fun t x => f x t) s

/-- Units of TimeUnit.sub in a nanosecond. DESIGN CHOICE: log entry 108. -/
def unitsPerNs : Nat := 5 * 2 ^ 48

/-- The whole nanoseconds of device time within its second. -/
def State.subNs (s : State) : Nat := s.time.sub / unitsPerNs

/-- Device time in whole nanoseconds. DESIGN CHOICE: log entry 109. -/
def State.now (s : State) : Nat := s.time.sec * 1000000000 + s.subNs

/-- Device time in the form RDTIME returns (R186). -/
def State.rdtime (s : State) : BitVec 64 := BitVec.ofNat 64 s.now

/-- Device time in the 96-bit layout of R32. DESIGN CHOICE: log entry 108. -/
def State.timeBits (s : State) : BitVec 96 :=
  BitVec.ofNat 96 (s.time.sec * 2 ^ 48 + s.time.sub * 2 ^ 16 / unitsPerNs)

/-- Record what the block sends out. DESIGN CHOICE: log entry 9. -/
def State.emit (s : State) (e : Emission) : State := { s with out := s.out ++ [e] }

/-- A free value of w bits: the one that the n-th next use of freeIx gives. DESIGN CHOICE: log entry 7. -/
def State.free (s : State) (w : Nat) (n : Nat := 0) : BitVec w := Config.freeValue w (s.freeIx + n)

/-- Pass over n used free values. DESIGN CHOICE: log entry 7. -/
def State.usedFree (s : State) (n : Nat := 1) : State := { s with freeIx := s.freeIx + n }

/-- The page's interrupt condition of R52. -/
def intCondition (m : RegFile) (p : Page) : Bool := fieldGet m p Rg.pageIntStatus 0 &&& fieldGet m p Rg.pageIntEnable 0 != 0

/-- The partition that a lent core works for, if the page is that core's (R409). DEDUCED: log entry 76. -/
def lentPart (s : State) (p : Page) : Option Nat :=
  if p.kind = .core then (tabGet {} p.inst s.cores).lentTo else none

/-- The function and vector that a page's interrupt signals: its route; for a lent core's page the radio partition's route for that page; PF
vector 0 where there is none (R409). DEDUCED: log entry 106. -/
def routeOf (s : State) (p : Page) : Nat × Nat :=
  let ix := pageBase p / 4096
  match lentPart s p with
  | some k =>
    let fn := s.reg (partPage k) Rg.partConfigFunction
    match tabFind (ix * 256 + fn) s.host.routesOf with
    | some v => (fn, v)
    | none => (0, 0)
  | none =>
    match tabFind ix s.host.routes with
    | some r => (r.fn, r.vector)
    | none => (0, 0)

/-- The key of a function's vector. -/
def msixKey (fn vector : Nat) : Nat := fn * 4096 + vector

/-- A vector is masked (R410): bit 96 of its table entry, which is set until the host clears it. PRESUMED: log entry 63. -/
def vectorMasked (s : State) (key : Nat) : Bool := (tabGet (1#128 <<< 96) key s.host.msix).getLsbD 96

/-- Signal a vector where b holds: send its message, or set its pending bit where it is masked (R410) or the link is down, so that the
message waits (R384). DEDUCED: log entries 14, 106. -/
def State.signal (s : State) (b : Bool) (fn vector : Nat) : State :=
  let key := msixKey fn vector
  let held := vectorMasked s key || !s.host.linkUp
  { s with
    out := if b && !held then s.out ++ [.msix fn vector] else s.out
    host := { s.host with
      vectorPending := if b && held && !s.host.vectorPending.contains key then s.host.vectorPending ++ [key]
        else s.host.vectorPending } }

/-- Tell the lead of the span that an interrupt condition stands on a page of this member, where b holds (R418). -/
def State.tellLead (s : State) (b : Bool) : State :=
  let lead := s.reg fabrPage Rg.fabrSpanShapeLead
  { s with out := if b && s.flag fabrPage Rg.fabrDeviceIdValid && lead != s.reg fabrPage Rg.fabrDeviceIdDevice % 64
      then s.out ++ [.memberEvent lead] else s.out }

/-- Set bits of a page's INT_STATUS; the message is sent when the condition of R52 becomes true (R51, R409). -/
def State.raiseBits (s : State) (p : Page) (bits : Nat) : State :=
  let t := s.setReg p Rg.pageIntStatus (s.reg p Rg.pageIntStatus ||| bits)
  let r := routeOf s p
  let b := !intCondition s.regs p && intCondition t.regs p
  (t.signal b r.1 r.2).tellLead b

/-- Set one bit of a page's INT_STATUS. DEDUCED: log entry 106. -/
def State.raise (s : State) (p : Page) (b : Nat) : State := s.raiseBits p (2 ^ b)

/-- An Aqzer training after the first link up, or an Ethernet link-down event, for the score of R546. -/
def noteTraining (s : State) : State := { s with salt := { s.salt with trainings := s.salt.trainings + 1 } }

/-- Count n errors in a page's ERROR_COUNT; bit 0 is ERROR on every page but CORE and SIGC (R51, R53). -/
def State.countErrors (s : State) (p : Page) (n : Nat) : State :=
  (s.bump p Rg.pageErrorCountCount n).raiseBits p (if n = 0 ∨ p.kind = .core ∨ p.kind = .sigc then 0 else 1)

/-- Capture an error that is counted already, where the page's record is empty (R53, R54). -/
def State.capture (s : State) (p : Page) (code unit detail : Nat) : State :=
  let m := s.regs
  { s with regs := if s.flag p Rg.pageErrorFirst0Valid then m
    else m
      |> fieldSet p Rg.pageErrorFirst0Code 0 code |> fieldSet p Rg.pageErrorFirst0Unit 0 unit
      |> fieldSet p Rg.pageErrorFirst0Valid 0 1 |> fieldSet p Rg.pageErrorFirst1Detail 0 detail
      |> fieldSet p Rg.pageErrorFirst2When 0 s.subNs }

/-- Record an error: count it, and capture it where the page's record is empty (R53, R54). -/
def State.error (s : State) (p : Page) (code unit detail : Nat) : State := (s.capture p code unit detail).countErrors p 1

/-- A core's state. -/
def State.core (s : State) (c : Nat) : Core := tabGet {} c s.cores

/-- Set a core's state. -/
def State.setCore (s : State) (c : Nat) (x : Core) : State := { s with cores := tabPut {} c x s.cores }

/-- Change a core's state. -/
def State.modCore (s : State) (c : Nat) (f : Core → Core) : State := s.setCore c (f (s.core c))

/-- A signal core's state. -/
def State.sigc (s : State) (k : Nat) : Sigc := tabGet {} k s.sigcs

/-- Set a signal core's state. -/
def State.setSigc (s : State) (k : Nat) (x : Sigc) : State := { s with sigcs := tabPut {} k x s.sigcs }

/-- A semaphore's state. -/
def State.sem (s : State) (n : Nat) : Sem := tabGet {} n s.sems

/-- Set a semaphore's state. -/
def State.setSem (s : State) (n : Nat) (x : Sem) : State := { s with sems := tabPut {} n x s.sems }

/-- A context's state, and setting it. -/
def ctxKey (k c : Nat) : Nat := k * 256 + c
def State.ctx (s : State) (k c : Nat) : Ctx := tabGet {} (ctxKey k c) s.ctxs
def State.setCtx (s : State) (k c : Nat) (x : Ctx) : State := { s with ctxs := tabPut {} (ctxKey k c) x s.ctxs }

/-- A ZEROIZE of a partition runs (R577): SCOPE, PARAMS byte 0x18 bit 0, 1 covers all. -/
def zeroizing (s : State) (k : Nat) : Bool :=
  s.host.longs.any fun l => l.cmd.entry.extractLsb' 0 8 == 0x43#8 && (l.cmd.part == k || l.cmd.entry.getLsbD 192)

/-- The block's registers are reachable: bring-up runs or is complete, and REFCLK_A has not been lost. -/
def State.alive (s : State) : Bool :=
  (s.plat.phase == .bringup || s.plat.phase == .running) && !s.plat.waitRefclk && !s.plat.waitHot && !s.plat.clockHold

/-- Data-plane work proceeds: the block is alive and no thermal hold stops it (R37, R585). -/
def State.working (s : State) : Bool := s.alive && !s.plat.thermalHold

/-- The firmware runs (R563). -/
def State.firmware (s : State) : Bool := s.alive && s.reg mgmtPage Rg.mgmtBootStatusState == 2

/-- A page's FREEZE keeps its block from new work (R46, R627). -/
def State.frozen (s : State) (p : Page) : Bool := s.flag p Rg.pageControlFreeze

/-- A page's block takes new work: it operates, and FREEZE does not hold it (R46, R50, R627). DESIGN CHOICE: log entry 15. -/
def State.serves (s : State) (p : Page) : Bool := s.flag p Rg.pageStatusEnabled && !s.frozen p

/-- A partition is enabled. -/
def State.partOn (s : State) (k : Nat) : Bool := s.flag (partPage k) Rg.pageStatusEnabled

/-- Some partition is enabled. -/
def State.anyPart (s : State) : Bool := (List.range 64).any s.partOn

/-- Some radio partition is enabled (KIND 2 is radio, R382). -/
def State.anyRadio (s : State) : Bool :=
  (List.range 64).any fun k => s.partOn k && s.reg (partPage k) Rg.partConfigKind == 2

/-- The physical function or the controller makes the access. -/
def Requester.privileged : Requester → Bool
  | .controller => true
  | .function fn => fn.val == 0
  | .clear fn => fn.val == 0

end Sys2Proof.Machine
end

