-- ==== Sys2Proof/Machine/Access.lean ====
section
/-! DEFINITION. Who may reach which register page (R40, R41, R47, R355 to R357), and what a refused access does. -/

namespace Sys2Proof.Machine

/-- Bit i of a mask that stands in 32-bit registers. -/
def maskBit (s : State) (p : Page) (f : RegField) (i : Nat) : Bool := (s.reg p f (i / 32)).testBit (i % 32)

/-- The partition that owns a logical core (R350). -/
def ownerOfCore (s : State) (c : Nat) : Option Nat :=
  (List.range 64).find? fun k => maskBit s (partPage k) Rg.partCoreMaskCores c

/-- The partition that owns a logical signal core (R350). -/
def ownerOfSigc (s : State) (n : Nat) : Option Nat :=
  (List.range 64).find? fun k => maskBit s (partPage k) Rg.partSigcMaskCores n

/-- The PCIe function that a partition maps to (R355). -/
def functionOf (s : State) (k : Nat) : Nat := s.reg (partPage k) Rg.partConfigFunction

/-- A function sees a page (R40, R355, R357). -/
def functionSees (s : State) (fn : Nat) (p : Page) : Bool :=
  fn == 0 ||
    match p.kind with
    | .part => functionOf s p.inst == fn
    | .core =>
      match (s.core p.inst).lentTo with
      | some k => functionOf s k == fn
      | none =>
        match ownerOfCore s p.inst with
        | some k => functionOf s k == fn
        | none => false
    | .sigc =>
      match ownerOfSigc s p.inst with
      | some k => functionOf s k == fn
      | none => false
    | _ => false

/-- A requester sees a page. DEDUCED: log entry 11. -/
def canSee (s : State) (who : Requester) (p : Page) : Bool :=
  match who with
  | .controller => true
  | .function fn => functionSees s fn.val p
  | .clear fn => functionSees s fn.val p

/-- A TDI in RUN takes a request to its BARs only on its IDE stream with the T bit set (R413). -/
def turnedAway (s : State) (who : Requester) : Bool :=
  match who with
  | .clear fn => tabFind fn.val s.host.tdis == some .run
  | _ => false

/-- The requester's path to the registers is up: the controller's own path (R41), the host's while the link is up (R384) and TDISP lets the
request through (R413). -/
def pathUp (s : State) (who : Requester) : Bool :=
  s.alive && !turnedAway s who && match who with
    | .controller => true
    | _ => s.host.linkUp

/-- The function number of a requester, 0 for the controller. -/
def Requester.fnNat : Requester → Nat
  | .controller => 0
  | .function fn => fn.val
  | .clear fn => fn.val

/-- The registers of a PART page that a virtual function may write (R356). -/
def partWritable (off : Nat) : Bool :=
  (decide (0x100 ≤ off) && decide (off < 0x140)) || (decide (0x240 ≤ off) && decide (off < 0x280)) || off == 0x200

/-- A virtual function's write that R356 refuses. -/
def partRefused (who : Requester) (p : Page) (off : Nat) : Bool :=
  p.kind == .part && !Requester.privileged who && !partWritable off

/-- A TDI that R413 locks. DEDUCED: log entry 19. -/
def tdiLocked (s : State) (fn : Nat) : Bool :=
  match tabFind fn s.host.tdis with
  | some .locked => true
  | some .run => true
  | _ => false

/-- The physical function's writes to the PART pages of a locked TDI's partitions are ignored (R413). DEDUCED: log entry 19. -/
def lockedWrite (s : State) (who : Requester) (p : Page) : Bool :=
  match who with
  | .controller => false
  | .function fn => fn.val == 0 && p.kind == .part && tdiLocked s (functionOf s p.inst)
  | .clear fn => fn.val == 0 && p.kind == .part && tdiLocked s (functionOf s p.inst)

/-- What a read by a requester whose path is not up leaves: a TDI in RUN answers it with Unsupported Request (R413), a link that is down does
not carry it (R384). -/
def readRefused (who : Requester) (s : State) : State :=
  if s.alive && s.host.linkUp && turnedAway s who then s.emit .unsupportedRequest else s

/-- A write by a requester to the register at a page offset: hidden pages are counted (R40), registers of a PART page that a virtual
function may not write are ignored and counted (R356), and a page in SOFT_RESET takes no write from 0x040 up (R47). DEDUCED: log entry 11. -/
def writeAccess (who : Requester) (p : Page) (off : Nat) (f : State → State) (s : State) : State :=
  if !pathUp s who then s
  else if !canSee s who p then s.error hostPage 0x0124 (Requester.fnNat who) (pageBase p + off)
  else if partRefused who p off then s.countErrors hostPage 1
  else if lockedWrite s who p then s
  else if s.flag p Rg.pageControlSoftReset ∧ off ≥ 0x40 then s
  else f s

/-- A write is taken: none of the refusals of writeAccess applies. DEDUCED: log entry 11. -/
def writeTaken (s : State) (who : Requester) (p : Page) (off : Nat) : Bool :=
  pathUp s who && canSee s who p && !partRefused who p off && !lockedWrite s who p && !(s.flag p Rg.pageControlSoftReset && decide (off ≥ 0x40))

end Sys2Proof.Machine
end

