-- ==== Sys2Proof/Machine/Arith.lean ====
section
/-! DEFINITION. The arithmetic of "Integer arithmetic with shared scales": rounding, accumulators (R65 to R78), stores
(R79 to R84), the generator (R507) and fronthaul block floating point (R89, R90). -/

namespace Sys2Proof.Machine

/-- x / 2ⁿ rounded half to even. -/
def roundEven (x : Int) (n : Nat) : Int :=
  let q := x / 2 ^ n
  let r := x - q * 2 ^ n
  if 2 * r < 2 ^ n ∨ (2 * r = 2 ^ n ∧ q % 2 = 0) then q else q + 1

/-- x × 2^sh, rounded half to even where sh is negative. -/
def scaleEven (x sh : Int) : Int := if 0 ≤ sh then x * 2 ^ sh.toNat else roundEven x (-sh).toNat

/-- The number of binary digits of n, 0 for 0 (R81). -/
def bitlen (n : Nat) : Nat := if n = 0 then 0 else n.log2 + 1

/-- How many of the low w bits of n are 1. -/
def popcount (w n : Nat) : Nat := (List.range w).foldl (fun t i => if n.testBit i then t + 1 else t) 0

/-- Sign-extend the low w bits of n. -/
def signed (w n : Nat) : Int := if n % 2 ^ w < 2 ^ (w - 1) then (n % 2 ^ w : Nat) else (n % 2 ^ w : Nat) - (2 ^ w : Nat)

/-- The overflow state of an accumulator (R66). -/
inductive Ovf where
  | none | pos | neg
  deriving DecidableEq, Repr

/-- A partial result (R65, R66, R77): A in 48 bits with 8 fraction bits, the pass scale r, overflow state, poison. -/
structure Acc where
  value : BitVec 48
  scale : Int
  ovf : Ovf
  poison : Bool
  deriving DecidableEq, Repr

/-- A poisoned output: no value is formed (R70). -/
def accPoison : Acc := ⟨0, 0, .none, true⟩

/-- The direction in which a sum leaves the range of R65, if it does (R66, R67). -/
def ovfOf (x : Int) : Ovf := if x > 2 ^ 47 - 1 then .pos else if x < -(2 ^ 47) then .neg else .none

/-- The contribution of one product to a pass of scale r (R70). -/
def alignProduct (r e prod : Int) : Int :=
  let sh := (r - e).toNat
  if sh > 39 then 0 else roundEven (prod * 256) sh

/-- One output of a pass (R70): its terms are the exponent sum and the exact product of each operand pair. -/
def accForm (poisoned : Bool) (terms : List (Int × Int)) : Acc :=
  match poisoned, terms with
  | true, _ => accPoison
  | false, [] => ⟨0, 0, .none, false⟩
  | false, t :: ts =>
    let r := ts.foldl (fun m x => max m x.1) t.1
    let sum := (t :: ts).foldl (fun a x => a + alignProduct r x.1 x.2) 0
    ⟨BitVec.ofInt 48 sum, r, ovfOf sum, false⟩

/-- An accumulator's register shifted to a larger scale (R75). -/
def accAlign (r : Int) (a : Acc) : Int :=
  let sh := (r - a.scale).toNat
  if sh ≥ 48 then 0 else roundEven a.value.toInt sh

/-- The combination of two partial results; a is the earlier operand by its role (R75). -/
def accCombine (a b : Acc) : Acc :=
  let pois := a.poison || b.poison
  let r := max a.scale b.scale
  let sum := accAlign r a + accAlign r b
  let ovf :=
    match a.ovf, b.ovf with
    | .none, .none => if pois then Ovf.none else ovfOf sum
    | .none, o => o
    | o, _ => o
  if pois then ⟨0, 0, ovf, true⟩ else ⟨BitVec.ofInt 48 sum, r, ovf, false⟩

/-- The combination set ACC_OVF: the addition itself overflowed (R66). -/
def accCombineOvf (a b : Acc) : Bool :=
  let r := max a.scale b.scale
  !(a.poison || b.poison) && decide (ovfOf (accAlign r a + accAlign r b) ≠ .none)

/-- The code of an overflow state (R77). -/
def ovfCode : Ovf → Nat
  | .none => 0
  | .pos => 1
  | .neg => 2

/-- A partial-result record (R77). Of a poisoned record the spec states no VALUE, which is free, and no OVF, which is the accumulator's
overflow state. DESIGN CHOICE: log entry 114. -/
def accPack (free : BitVec 48) (a : Acc) : BitVec 64 :=
  let v := if a.poison then free.toNat else a.value.toNat
  let sc := if a.poison then 0 else (BitVec.ofInt 9 a.scale).toNat
  BitVec.ofNat 64 (v + sc * 2 ^ 48 + ovfCode a.ovf * 2 ^ 57 + (if a.poison then 2 ^ 59 else 0))

/-- A partial-result record as an engine reads it; OVF = 0b11 reads as poisoned (R78), with no overflow state. DESIGN CHOICE: log entry 114. -/
def accUnpack (w : BitVec 64) : Acc :=
  let n := w.toNat
  let o := n / 2 ^ 57 % 4
  if n.testBit 59 || o == 3 then ⟨0, 0, (if o = 1 then .pos else if o = 2 then .neg else .none), true⟩
  else ⟨BitVec.ofNat 48 n, signed 9 (n / 2 ^ 48), (if o = 1 then .pos else if o = 2 then .neg else .none), false⟩

/-- Rotate a 64-bit word left. -/
def rotl64 (x : BitVec 64) (n : Nat) : BitVec 64 := x.rotateLeft n

/-- The rounds of the generator (R507). -/
def genRounds : Nat → BitVec 64 → BitVec 64 → BitVec 64 → BitVec 64 → BitVec 64
  | 0, a, b, _, _ => a ^^^ b
  | n + 1, a, b, k0, k1 =>
    let a := rotl64 (a + b + k0) 23
    let b := rotl64 (b ^^^ a) 41 + k1
    let k0 := k0 + 0x9E3779B97F4A7C15#64
    genRounds n a b k0 (k1 ^^^ rotl64 k0 17)

/-- The counter-based generator: a 64-bit word from seed, step, tag and index (R507). -/
def gen (seed : BitVec 128) (step : BitVec 64) (tag index : BitVec 32) : BitVec 64 :=
  genRounds 10 step (tag ++ index) (seed.extractLsb' 0 64) (seed.extractLsb' 64 64)

/-- How a store rounds (R83): half to even, or stochastic with the 16 bits of each element. -/
inductive StoreMode where
  | even
  | stochastic (bits : List Nat)
  deriving DecidableEq, Repr

/-- One element on its way into a block (R81): its partial result, q and s; a channel whose entry cannot be read is poisoned. -/
structure StoreIn where
  acc : Acc
  q : Nat
  s : Nat
  deriving DecidableEq, Repr

/-- A block that a store forms: exponent byte, elements, and the flags it sets. -/
structure StoreOut where
  exp : BitVec 8
  elems : List Int
  sat : Bool
  poison : Bool
  deriving DecidableEq, Repr

/-- x[i] of R81. -/
def storeX (e : StoreIn) : Int :=
  match e.acc.ovf with
  | .none => e.acc.value.toInt * e.q
  | .pos => (2 ^ 47 - 1) * e.q
  | .neg => -((2 ^ 47 - 1) * e.q)

/-- p[i] of R81. -/
def storeP (e : StoreIn) : Int := e.acc.scale - 8 - e.s

/-- |x × 2^sh| rounded up (the fit of a stochastic store, R81). -/
def ceilMag (x sh : Int) : Int :=
  if 0 ≤ sh then (x.natAbs : Int) * 2 ^ sh.toNat else -((-(x.natAbs : Int)) / 2 ^ (-sh).toNat)

/-- fit_magnitude of R81. -/
def fitMagnitude (mode : StoreMode) (x sh : Int) : Int :=
  match mode with
  | .even => scaleEven x.natAbs sh
  | .stochastic _ => ceilMag x sh

/-- Stochastic rounding of x × 2^sh with 16 random bits (R83). -/
def roundStochastic (x sh : Int) (bits : Nat) : Int :=
  if 0 ≤ sh then x * 2 ^ sh.toNat
  else
    let k := (-sh).toNat
    let u := if k ≤ 16 then bits / 2 ^ (16 - k) else bits * 2 ^ (k - 16)
    (x + u) / 2 ^ k

/-- Clamp to ±lim. -/
def clampSym (lim x : Int) : Int := if x > lim then lim else if x < -lim then -lim else x

/-- One block of a store at element width b (R81). -/
def storeBlock (b : Nat) (mode : StoreMode) (ins : List StoreIn) : StoreOut :=
  if ins.any (·.acc.poison) then ⟨0x80, ins.map (fun _ => 0), false, true⟩
  else
    let lim : Int := 2 ^ (b - 1) - 1
    let xs := ins.map fun e => (storeX e, storeP e)
    let sat0 := ins.any (·.acc.ovf ≠ .none)
    match xs.filter (fun x => x.1 ≠ 0) with
    | [] => ⟨0x81, ins.map (fun _ => 0), sat0, false⟩
    | y :: ys =>
      let need := fun (x : Int × Int) => x.2 + bitlen x.1.natAbs - (b - 1 : Nat)
      let e0 := ys.foldl (fun m x => max m (need x)) (need y)
      let e1 := if xs.any (fun x => fitMagnitude mode x.1 (x.2 - e0) > lim) then e0 + 1 else e0
      let e2 := max e1 (-127)
      let e := min e2 127
      let rnd := fun (i : Nat) (x : Int × Int) =>
        match mode with
        | .even => scaleEven x.1 (x.2 - e)
        | .stochastic bits => roundStochastic x.1 (x.2 - e) (bits.getD i 0)
      let ms := xs.mapIdx rnd
      ⟨BitVec.ofInt 8 e, ms.map (clampSym lim), sat0 || decide (e2 > 127) || ms.any (fun m => decide (m.natAbs > lim.natAbs)), false⟩

/-- A value with q = 1, s = 0: what a vector instruction or a signal core stores (R149, R196): x × 2^p exactly. -/
def storeExact (b : Nat) (poisoned : Bool) (xs : List (Int × Int)) : StoreOut :=
  if poisoned then ⟨0x80, xs.map (fun _ => 0), false, true⟩
  else
    let lim : Int := 2 ^ (b - 1) - 1
    match xs.filter (fun x => x.1 ≠ 0) with
    | [] => ⟨0x81, xs.map (fun _ => 0), false, false⟩
    | y :: ys =>
      let need := fun (x : Int × Int) => x.2 + bitlen x.1.natAbs - (b - 1 : Nat)
      let e0 := ys.foldl (fun m x => max m (need x)) (need y)
      let e1 := if xs.any (fun x => scaleEven x.1.natAbs (x.2 - e0) > lim) then e0 + 1 else e0
      let e2 := max e1 (-127)
      let e := min e2 127
      let ms := xs.map fun x => scaleEven x.1 (x.2 - e)
      ⟨BitVec.ofInt 8 e, ms.map (clampSym lim), decide (e2 > 127) || ms.any (fun m => decide (m.natAbs > lim.natAbs)), false⟩

/-- Fronthaul ingress of one PRB (R89): w-bit mantissas and X into a complex Z16 block of 24. -/
def ingressPrb (w : Nat) (eRef : Int) (x : Nat) (mant : List Int) : Int × List Int :=
  ((x : Int) + w - 16 + eRef, mant.map (fun m => m * 2 ^ (16 - w)))

/-- The mantissas of a block of exponent e at egress exponent X (R90). -/
def egressAt (w : Nat) (eRef e : Int) (x : Nat) (elems : List Int) : List Int :=
  elems.map fun m => scaleEven m (e - ((x : Int) + w - 16 + eRef))

/-- Fronthaul egress of one block of 24 (R90): X, mantissas, and whether SAT is set; a poisoned block gives zeros. -/
def egressPrb (w : Nat) (eRef : Int) (exp : BitVec 8) (elems : List Int) : Nat × List Int × Bool :=
  if exp = 0x80 then (0, elems.map (fun _ => 0), false)
  else
    let lim : Int := 2 ^ (w - 1) - 1
    let fits := fun x => (egressAt w eRef exp.toInt x elems).all (fun m => decide (-lim ≤ m ∧ m ≤ lim))
    match (List.range 16).find? fits with
    | some x => (x, egressAt w eRef exp.toInt x elems, false)
    | none => (15, (egressAt w eRef exp.toInt 15 elems).map (clampSym lim), true)

end Sys2Proof.Machine
end

