-- ==== Sys2Proof/Machine/Mem.lean ====
section
/-! DEFINITION. Memories and their codes (R520 to R523, R631): reading, partial and whole writes, counts of corrected and
uncorrectable words, and the injection of R528. -/

namespace Sys2Proof.Machine

/-- The memories that hold bytes (R520). -/
inductive Region where
  | spad | imem | dmem | simem | tag | hbm | buf | bulk
  deriving DecidableEq, Repr

/-- Bytes of data in a codeword (R520): 8 under SECDED, a 64-byte line in HBM and the bulk tier; a line tag has a code of its own (R189). -/
def cwBytes : Region → Nat
  | .tag => 1
  | .hbm => 64
  | .bulk => 64
  | _ => 8

/-- Flipped 16-bit symbols of an HBM line's 35 (R520). PRESUMED: log entry 30. -/
def badSymbols (mask : Nat) : Nat :=
  (List.range 35).foldl (fun t i => if mask / 2 ^ (16 * i) % 2 ^ 16 = 0 then t else t + 1) 0

/-- Whether the flipped bits of a codeword are beyond what its code corrects (R520). PRESUMED: log entry 30. -/
def flipsBad (r : Region) (mask : Nat) : Bool :=
  match r with
  | .hbm => decide (badSymbols mask ≥ 2)
  | .bulk => decide (mask ≠ 0)
  | _ => decide (popcount 72 mask ≥ 2)

/-- A codeword that a read cannot correct: unwritten (R162, R275) or with too many flipped bits. A bulk line that has never been written is
the module's content, and no error (R247). PRESUMED: log entry 30. -/
def cwBad (r : Region) (m : Memory) (w : Nat) : Bool :=
  flipsBad r (tabGet 0 w m.flips) ||
    (r != .bulk && (List.range (cwBytes r)).any fun i => (tabFind (w * cwBytes r + i) m.cells).isNone)

/-- The canonical form of a memory: bytes and flips by strictly rising key, and no codeword listed without a flipped bit. -/
def Memory.wf (m : Memory) : Bool := tabWf m.cells && tabWf m.flips && m.flips.all fun e => e.2 != 0

/-- The canonical form of all memories. -/
def MemState.wf (x : MemState) : Bool :=
  x.spad.wf && x.imem.wf && x.dmem.wf && x.simem.wf && x.tags.wf && x.hbm.wf && x.buf.wf && x.bulk.wf

/-- The byte that a read delivers at a key; none where its codeword is uncorrectable. DESIGN CHOICE: log entry 31. -/
def readByte (r : Region) (m : Memory) (a : Nat) : Option Byte :=
  if cwBad r m (a / cwBytes r) then none
  else if r = .bulk then some ((tabFind a m.cells).getD (Config.bulkContent a))
  else tabFind a m.cells

/-- The bytes that a read of n bytes delivers. PRESUMED: log entry 30. -/
def readBytes (r : Region) (m : Memory) (a n : Nat) : List (Option Byte) :=
  (List.range n).map fun i => readByte r m (a + i)

/-- The bytes of a range, if every one can be read. -/
def readAll (r : Region) (m : Memory) (a n : Nat) : Option (List Byte) :=
  (List.range n).mapM fun i => readByte r m (a + i)

/-- Bytes as a number, lowest address first. -/
def leNat : List Byte → Nat
  | [] => 0
  | b :: bs => b.toNat + 256 * leNat bs

/-- The n low bytes of a number, lowest address first. -/
def toBytes (n v : Nat) : List Byte := (List.range n).map fun i => BitVec.ofNat 8 (v / 256 ^ i)

/-- The codewords that a range of n bytes touches. -/
def wordsOf (r : Region) (a n : Nat) : List Nat :=
  if n = 0 then [] else (List.range ((a + n - 1) / cwBytes r - a / cwBytes r + 1)).map (· + a / cwBytes r)

/-- Write bytes one by one. -/
def writeCells (a : Nat) : List Byte → List Host.Cell → List Host.Cell
  | [], m => m
  | b :: bs, m => writeCells (a + 1) bs (tabSet a b m)

/-- Remove n bytes. -/
def clearCells (a : Nat) : Nat → List Host.Cell → List Host.Cell
  | 0, m => m
  | n + 1, m => clearCells (a + 1) n (tabDel a m)

/-- A codeword in the form that every later read detects as uncorrectable; a bulk line is poisoned. -/
def spoilWord (r : Region) (m : Memory) (w : Nat) : Memory :=
  if r = .bulk then { m with flips := tabSet w 1 m.flips }
  else { m with cells := clearCells (w * cwBytes r) (cwBytes r) m.cells, flips := tabDel w m.flips }

/-- The part of a write that falls into one codeword (R631): a codeword that is wholly covered, or whose read half can be
corrected, is written valid; otherwise it is left in a form that every later read detects as uncorrectable. -/
def writeWord (r : Region) (a : Nat) (bytes : List Byte) (m : Memory) (w : Nat) : Memory :=
  let lo := max a (w * cwBytes r)
  let hi := min (a + bytes.length) ((w + 1) * cwBytes r)
  let part := (bytes.drop (lo - a)).take (hi - lo)
  let flips := tabDel w m.flips
  if part.length = cwBytes r ∨ !cwBad r m w then { m with cells := writeCells lo part m.cells, flips := flips }
  else spoilWord r m w

/-- A write of bytes at a key. -/
def writeBytes (r : Region) (a : Nat) (bytes : List Byte) (m : Memory) : Memory :=
  (wordsOf r a bytes.length).foldl (writeWord r a bytes) m

/-- Make the codewords of a range read as uncorrectable: a line written poisoned (R523), or contents lost. -/
def spoilBytes (r : Region) (a n : Nat) (m : Memory) : Memory := (wordsOf r a n).foldl (spoilWord r) m

/-- One of the memories. -/
def State.memory (s : State) : Region → Memory
  | .spad => s.mem.spad
  | .imem => s.mem.imem
  | .dmem => s.mem.dmem
  | .simem => s.mem.simem
  | .tag => s.mem.tags
  | .hbm => s.mem.hbm
  | .buf => s.mem.buf
  | .bulk => s.mem.bulk

/-- Set one of the memories. -/
def setRegion (r : Region) (m : Memory) (x : MemState) : MemState :=
  match r with
  | .spad => { x with spad := m }
  | .imem => { x with imem := m }
  | .dmem => { x with dmem := m }
  | .simem => { x with simem := m }
  | .tag => { x with tags := m }
  | .hbm => { x with hbm := m }
  | .buf => { x with buf := m }
  | .bulk => { x with bulk := m }

/-- The key of a scratchpad byte (R159), an instruction byte, a byte of a signal core's two memories, and the tag of the line of
a data-memory address (R186, R189). -/
def spadKey (c a : Nat) : Nat := c * 2 ^ 22 + a
def imemKey (c a : Nat) : Nat := c * 2 ^ 18 + a
def dmemKey (k a : Nat) : Nat := k * 2 ^ 19 + a
def simemKey (k a : Nat) : Nat := k * 2 ^ 16 + a
def tagKey (k a : Nat) : Nat := k * 2 ^ 13 + a / 64
def bufKey (m a : Nat) : Nat := m * 2 ^ 27 + a
def bulkKey (p a : Nat) : Nat := p * 2 ^ 44 + a

/-- The HBM stack that serves a physical byte: 4 KiB units go round all 20 stacks (R243). -/
def stackOf (a : Nat) : Nat := a / 4096 % 20

/-- The channel of its stack that serves a physical byte (R243). -/
def channelOf (a : Nat) : Nat := a / 4096 / 20 % 16

/-- The memory-side die of a stack (R18). -/
def dieOfStack (x : Nat) : Nat := x / 5

/-- The TARGET code, the UNIT and the local address of R528 for a byte of a memory; no TARGET names the line tags. DEDUCED: log entry 78. -/
def flipTarget (r : Region) (a : Nat) : Nat × Nat × Nat :=
  match r with
  | .spad => (1, a / 2 ^ 22, a % 2 ^ 22)
  | .imem => (2, a / 2 ^ 18, a % 2 ^ 18)
  | .dmem => (5, a / 2 ^ 19, a % 2 ^ 19)
  | .simem => (6, a / 2 ^ 16, a % 2 ^ 16)
  | .tag => (16, 0, 0)
  | .hbm => (8, stackOf a, a)
  | .buf => (7, a / 2 ^ 27, a % 2 ^ 27)
  | .bulk => (9, a / 2 ^ 44, a % 2 ^ 44)

/-- The flipped bits that an injection leaves in an HBM line: 64 mask bits over the symbols from POSITION on (R528). DEDUCED: log entry 78. -/
def hbmFlips (position mask : Nat) : Nat :=
  (List.range 4).foldl (fun t i => t ^^^ (mask / 2 ^ (16 * i) % 2 ^ 16 * 2 ^ (16 * ((position + i) % 35)))) 0

/-- Whether an armed injection takes a write to the codewords ws, and to which (R528, R529). PRESUMED: log entry 30. DEDUCED: log entry 78. -/
def flipHit (r : Region) (ws : List Nat) (s : State) : Option Nat :=
  if !s.flag raspPage Rg.raspFlipControlArm then none
  else ws.find? fun w =>
    let (t, u, la) := flipTarget r (w * cwBytes r)
    let addr := s.reg raspPage Rg.raspFlipAddressAddress
    let unit := s.reg raspPage Rg.raspFlipSelectUnit
    let tgt := s.reg raspPage Rg.raspFlipSelectTarget
    let here := (tgt == t && unit == u) || (tgt == 7 && r == .hbm && unit == dieOfStack (stackOf (w * 64)))
    here && (!s.flag raspPage Rg.raspFlipSelectMatch || (decide (la ≤ addr) && decide (addr < la + cwBytes r)))

/-- The injection has fired: ARM clears, FIRED sets, FLIP_HIT holds the address and FLIP_FIRED is raised (R529). -/
def flipFired (addr : Nat) (s : State) : State :=
  (s.setReg raspPage Rg.raspFlipControlArm 0 |>.setReg raspPage Rg.raspFlipControlFired 1
    |>.setReg raspPage Rg.raspFlipHitAddress addr).raise raspPage 1

/-- The page of the block that detects an error in a memory (R522). DESIGN CHOICE: log entry 28. -/
def regionPage (r : Region) (a : Nat) : Page :=
  match r with
  | .spad => corePage (a / 2 ^ 22)
  | .imem => corePage (a / 2 ^ 18)
  | .dmem => sigcPage (a / 2 ^ 19)
  | .simem => sigcPage (a / 2 ^ 16)
  | .tag => sigcPage (a / 2 ^ 13)
  | .hbm => hbmcPage (stackOf a)
  | .buf => msidPage (a / 2 ^ 27)
  | .bulk => bulkPage (a / 2 ^ 44)

/-- An uncorrectable codeword is counted by the block that detects it (R522); a poisoned read of a bulk port is counted and
recorded on its page (R248). -/
def detectBad (r : Region) (w : Nat) (s : State) : State :=
  let a := w * cwBytes r
  let p := regionPage r a
  match r with
  | .bulk => ((s.error p 0x0221 0 (a % 2 ^ 32)).bump p Rg.bulkPoisonCountCount).raise p 2
  | _ => s.countErrors p 1

/-- What a read of codewords does to the state: corrected words are counted and written back (R521, R522), and uncorrectable
ones are counted in RASP.UNCORRECTED and by the block that detects them. -/
def State.readWords (s : State) (r : Region) (ws : List Nat) : State :=
  let m := s.memory r
  let fixed := ws.filter fun w => tabGet 0 w m.flips != 0 && !cwBad r m w
  let bad := ws.filter (cwBad r m)
  let t := { s with
    mem := setRegion r { m with flips := fixed.foldl (fun f w => tabDel w f) m.flips } s.mem
    regs := s.regs
      |> fieldSet raspPage Rg.raspCorrectedCount 0 (s.reg raspPage Rg.raspCorrectedCount + fixed.length)
      |> fieldSet raspPage Rg.raspUncorrectedCount 0 (s.reg raspPage Rg.raspUncorrectedCount + bad.length) }
  t.each bad (detectBad r)

/-- What a read of a range does to the state. -/
def State.readEffect (s : State) (r : Region) (a n : Nat) : State := s.readWords r (wordsOf r a n)

/-- The partly covered codewords of a write whose read half cannot be corrected (R631): each counts as an error (R522). -/
def badHalves (r : Region) (a n : Nat) (m : Memory) : List Nat :=
  (wordsOf r a n).filter fun w => cwBad r m w && decide (w * cwBytes r < a ∨ a + n < (w + 1) * cwBytes r)

/-- The flipped bits that an armed injection leaves in a codeword of a memory (R528). DEDUCED: log entry 78. -/
def injected (r : Region) (s : State) : Nat :=
  let mask := s.reg raspPage Rg.raspFlipMaskMask
  if s.reg raspPage Rg.raspFlipSelectTarget = 7 ∧ r = .hbm then (if popcount 72 mask ≥ 2 then 3 * 2 ^ 15 else bit (mask != 0))
  else
    match r with
    | .hbm => hbmFlips (s.reg raspPage Rg.raspFlipSelectPosition) mask
    | .bulk => 1
    | _ => mask

/-- A write to a memory, with the injection that it may meet. -/
def State.store (s : State) (r : Region) (a : Nat) (bytes : List Byte) : State :=
  let s := s.readWords r (badHalves r a bytes.length (s.memory r))
  let m := writeBytes r a bytes (s.memory r)
  match flipHit r (wordsOf r a bytes.length) s with
  | none => { s with mem := setRegion r m s.mem }
  | some w =>
    flipFired (flipTarget r (w * cwBytes r)).2.2
      { s with mem := setRegion r { m with flips := tabPut 0 w (injected r s) m.flips } s.mem }

/-- Read a little-endian number of n bytes, if its words can be read. -/
def State.loadNat (s : State) (r : Region) (a n : Nat) : Option Nat := (readAll r (s.memory r) a n).map leNat

/-- A read of a core's scratchpad. -/
def State.spadRead (s : State) (c a n : Nat) : Option (List Byte) := readAll .spad s.mem.spad (spadKey c a) n

/-- A write to a core's scratchpad. -/
def State.spadWrite (s : State) (c a : Nat) (bytes : List Byte) : State := s.store .spad (spadKey c a) bytes

end Sys2Proof.Machine
end

