-- ==== Sys2Proof/Machine/Lines.lean ====
section
/-! DEFINITION. Lines that several devices share: the packets that a device forms by itself (R445), the coherence group (R452), the
home's directory and replicas as its own reads and writes meet them (R453, R457), and the lines of other members in this device's caches. -/

namespace Sys2Proof.Machine

/-- The device number of this device (R442). -/
def selfDevice (s : State) : Nat := s.reg fabrPage Rg.fabrDeviceIdDevice

/-- The device numbers of the coherence group that GROUP_MEMBERS lists, without members that have been expelled (R452, R550). -/
def memberFields : List (RegField × RegField) :=
  [(Rg.fabrGroupMembersMember0, Rg.fabrGroupMembersValid0), (Rg.fabrGroupMembersMember1, Rg.fabrGroupMembersValid1),
   (Rg.fabrGroupMembersMember2, Rg.fabrGroupMembersValid2), (Rg.fabrGroupMembersMember3, Rg.fabrGroupMembersValid3),
   (Rg.fabrGroupMembersMember4, Rg.fabrGroupMembersValid4), (Rg.fabrGroupMembersMember5, Rg.fabrGroupMembersValid5),
   (Rg.fabrGroupMembersMember6, Rg.fabrGroupMembersValid6), (Rg.fabrGroupMembersMember7, Rg.fabrGroupMembersValid7)]
def groupDevices (s : State) : List Nat :=
  (memberFields.filter fun f => s.flag fabrPage f.2 && !(s.reg raspPage Rg.raspExpelledMembers).testBit (s.reg fabrPage f.1)).map fun f =>
    selfDevice s / 64 * 64 + s.reg fabrPage f.1

/-- A device and this one are members of one coherence group. -/
def inGroup (s : State) (d : Nat) : Bool := (groupDevices s).contains d && (groupDevices s).contains (selfDevice s)

/-- Operation codes of R446. -/
abbrev opLoad : BitVec 8 := 0x01
abbrev opStore : BitVec 8 := 0x02
abbrev opAtomic : BitVec 8 := 0x03
abbrev opAtomicNr : BitVec 8 := 0x04
abbrev opReduce : BitVec 8 := 0x05
abbrev opMcast : BitVec 8 := 0x06
abbrev opDmaRead : BitVec 8 := 0x07
abbrev opDmaWrite : BitVec 8 := 0x08
abbrev opReadS : BitVec 8 := 0x10
abbrev opReadX : BitVec 8 := 0x11
abbrev opWriteback : BitVec 8 := 0x12
abbrev opEvict : BitVec 8 := 0x13
abbrev opInvalidate : BitVec 8 := 0x18
abbrev opRecall : BitVec 8 := 0x19

/-- A request about a line that the device itself makes: CORE 255 names no core. DESIGN CHOICE: log entry 84. -/
def linePacket (s : State) (op : BitVec 8) (dest part addr func : Nat) : Packet :=
  { op := op, size := 3, src := BitVec.ofNat 12 (selfDevice s), dest := BitVec.ofNat 12 dest, part := Fin.ofNat 64 part
    retry := false, func := Fin.ofNat 16 func, core := 255, req := 0, index := 0, contributors := 0, status := 0
    addr := BitVec.ofNat 64 addr, ext := 0, data := [] }

/-- Hand packets to the fabric's routers. -/
def State.sendPackets (s : State) (l : List Packet) : State := { s with fabric := { s.fabric with out := s.fabric.out ++ l } }

/-- The keys of a line and of a page of a partition, and the partition and address that a key names. -/
def dirKey (k a : Nat) : Nat := k * 2 ^ 40 + a / 64
def repKey (k a : Nat) : Nat := k * 2 ^ 34 + a / 4096
def dirPart (dk : Nat) : Nat := dk / 2 ^ 40
def dirAddr (dk : Nat) : Nat := dk % 2 ^ 40 * 64

/-- A directory entry, and setting it; an entry without holder, answer and waiter is state I, which is not listed. -/
def dirFind (s : State) (dk : Nat) : Option DirEntry := tabFind dk s.fabric.dir
def setDir (dk : Nat) (e : DirEntry) (s : State) : State :=
  { s with fabric := { s.fabric with
    dir := if e.sharers.isEmpty ∧ e.owner.isNone ∧ e.awaits.isEmpty ∧ e.waiting.isEmpty then tabDel dk s.fabric.dir
      else tabSet dk e s.fabric.dir } }

/-- The home asks the holders of a line for it (R453): sharers other than `keep` are invalidated; an owner is recalled, with
FUNC = 1 where its copy ends. The entry is busy until they have answered. -/
def dirAsk (dk : Nat) (e : DirEntry) (keep : Option Nat) (ending : Bool) (s : State) : State :=
  match e.owner with
  | some o => (setDir dk { e with awaits := [o], ending := ending } s).sendPackets [linePacket s opRecall o (dirPart dk) (dirAddr dk) (bit ending)]
  | none =>
    let dests := e.sharers.filter fun d => some d != keep
    (setDir dk { e with awaits := dests, ending := true } s).sendPackets (dests.map fun d => linePacket s opInvalidate d (dirPart dk) (dirAddr dk) 0)

/-- A read of the home's own must wait: another member owns the line, or it is busy. -/
def dirHolds (s : State) (k a : Nat) : Bool :=
  match dirFind s (dirKey k a) with
  | none => false
  | some e => e.owner.isSome || !e.awaits.isEmpty

/-- A read of the home's own meets a line that another member owns: it is recalled and stays shared (R453). -/
def dirRead (k a : Nat) (s : State) : State :=
  match dirFind s (dirKey k a) with
  | none => s
  | some e => if e.owner.isSome ∧ e.awaits.isEmpty then dirAsk (dirKey k a) e none false s else s

/-- A page's replication entry, and setting it. -/
def repOf (s : State) (rk : Nat) : RepPage := tabGet {} rk s.fabric.reps
def setRep (rk : Nat) (e : RepPage) (s : State) : State := { s with fabric := { s.fabric with reps := tabPut {} rk e s.fabric.reps } }

/-- A page has been written: replication takes 10 ms to come back (R457). -/
def noteWrite (k a : Nat) (s : State) : State :=
  if s.flag fabrPage Rg.fabrDeviceIdValid ∧ s.flag fabrPage Rg.fabrReplControlEnable then
    setRep (repKey k a) { repOf s (repKey k a) with wroteAt := some s.now, readers := [] } s
  else s

/-- A write to a replicated page invalidates every replica first (R457); FUNC = 2 marks the page's INVALIDATE, which goes on VC5. -/
def repAsk (rk : Nat) (e : RepPage) (s : State) : State :=
  (setRep rk { e with awaits := e.mask, mask := [] } s).sendPackets (e.mask.map fun d =>
    linePacket s opInvalidate d (rk / 2 ^ 34) (rk % 2 ^ 34 * 4096) 2)

/-- What stands between a home and the bytes of a line: replicas of its page where it is to be written, and copies that other members hold;
`ends` tells that they must all end, and otherwise only an owner is recalled (R453, R457). -/
inductive LineBlock where
  | none
  | page
  | line
  deriving DecidableEq, Repr
def lineBlock (s : State) (k a : Nat) (writes ends : Bool) : LineBlock :=
  let p := repOf s (repKey k a)
  if writes && !(p.mask.isEmpty && p.awaits.isEmpty) then .page
  else
    match dirFind s (dirKey k a) with
    | some e => if ends || e.owner.isSome || !e.awaits.isEmpty then .line else .none
    | none => .none

/-- Wait for a line, and ask its holders where that has not been done. -/
def lineWait (k a : Nat) (writes ends : Bool) (w : DirWait) (s : State) : State :=
  let rk := repKey k a
  let p := repOf s rk
  let dk := dirKey k a
  match lineBlock s k a writes ends with
  | .page =>
    let q := { p with waiting := p.waiting ++ [w] }
    if p.awaits.isEmpty then repAsk rk q s else setRep rk q s
  | _ =>
    match dirFind s dk with
    | some e =>
      let e := { e with waiting := e.waiting ++ [w] }
      if e.awaits.isEmpty then dirAsk dk e none ends s else setDir dk e s
    | none => s

/-- A write of the home's own to a line: it waits while replicas of the page or copies of the line are removed (R453, R457). -/
def State.storeHome (s : State) (k a : Nat) (r : Region) (key : Nat) (bytes : List Byte) : State :=
  if lineBlock s k a true true = .none then (noteWrite k a s).store r key bytes else lineWait k a true true (.write k a bytes) s

/-- The key of another member's line in this device's caches, and setting it. -/
def copyKey (d k addr : Nat) : Nat := (d * 64 + k) * 2 ^ 58 + addr / 64
def copyOf (s : State) (ck : Nat) : CopyLine := tabGet {} ck s.fabric.copies
def setCopy (ck : Nat) (x : CopyLine) (s : State) : State := { s with fabric := { s.fabric with copies := tabPut {} ck x s.fabric.copies } }

/-- A read of another member's line must wait for it. -/
def copyWaits (x : CopyLine) : Bool := !x.bad && (x.data.isNone || !x.pend.isEmpty)

/-- The bytes that a copy delivers; none where the home gave no data. -/
def copyBytes (x : CopyLine) (addr n : Nat) : List (Option Byte) :=
  match x.data with
  | some b => if x.bad then List.replicate n none else ((b.drop (addr % 64)).take n).map some
  | none => List.replicate n none

/-- A load takes the line with READ_S (R452); an answer without data is given once, and the next read asks again. -/
def copyRead (d k addr : Nat) (s : State) : State :=
  let x := copyOf s (copyKey d k addr)
  if x.bad then setCopy (copyKey d k addr) {} s
  else if x.data.isNone ∧ !x.asked then
    (setCopy (copyKey d k addr) { x with asked := true } s).sendPackets [linePacket s opReadS d k (addr / 64 * 64) 0]
  else s

/-- Put bytes into a line. -/
def overlay (b : List Byte) (l : List (Nat × Byte)) : List Byte := l.foldl (fun (t : List Byte) e => t.set e.1 e.2) b

/-- A store takes the line with READ_X and is performed in the cache (R452). -/
def copyWrite (d k addr : Nat) (bytes : List Byte) (s : State) : State :=
  let ck := copyKey d k addr
  let x := copyOf s ck
  let l := bytes.mapIdx fun i b => (addr % 64 + i, b)
  match x.data, x.excl with
  | some b, true => setCopy ck { x with data := some (overlay b l), dirty := true } s
  | _, _ =>
    let t := setCopy ck { x with pend := x.pend ++ l, asked := true, bad := false } s
    if x.asked then t else t.sendPackets [linePacket s opReadX d k (addr / 64 * 64) 0]

end Sys2Proof.Machine
end

