-- ==== Sys2Proof/Machine/Tier.lean ====
section
/-! DEFINITION. Partition addresses (R238 to R245): translation, placement in the tiers, reads with poison and re-sourcing
(R260 to R264, R272 to R275), writes (R256, R631), and heat (R257, R258). -/

namespace Sys2Proof.Machine

/-- A 2 MiB page. -/
def pageBytes : Nat := 2 ^ 21

/-- The key of a partition's page number. -/
def pageKey (k page : Nat) : Nat := k * 2 ^ 25 + page

/-- The entry that maps a partition address (R238). -/
def State.pageOf (s : State) (k a : Nat) : Option PageEntry :=
  if a ≥ 2 ^ 46 then none else tabFind (pageKey k (a / pageBytes)) s.tier.pages

/-- The key of an object. -/
def objKey (k id : Nat) : Nat := k * 65536 + id

/-- The key of the 4 KiB unit of a partition address. -/
def unitKey (k a : Nat) : Nat := k * 2 ^ 34 + a / 4096

/-- The bulk ports of the interleave set, ascending (R244). -/
def bulkSet (s : State) : List Nat := (List.range 8).filter fun p => s.flag (bulkPage p) Rg.bulkPortStatusInSet

/-- Where a physical byte lies. -/
inductive Place where
  /-- A byte of a memory of this device, by its key. -/
  | here (r : Region) (key : Nat)
  /-- A unit of a bulk port that has left link-up (R245). -/
  | unreachable (port : Nat)
  /-- Decoded byte of a compressed object (R261). -/
  | coded (object : Nat) (off : Nat)
  /-- Memory of a peer device (TIER 3). -/
  | remote (device addr : Nat)
  deriving DecidableEq, Repr

/-- The place of a bulk physical byte (R244, R245). -/
def bulkPlace (s : State) (a : Nat) : Place :=
  let set := bulkSet s
  let n := a / 4096
  match set[n % max 1 set.length]? with
  | none => .unreachable 0
  | some p =>
    if s.flag (bulkPage p) Rg.bulkPortStatusLinkUp && !s.tier.lostPorts.contains p then .here .bulk (bulkKey p (n / set.length * 4096 + a % 4096))
    else .unreachable p

/-- The place of a byte at a partition address that an entry maps (R239, R243, R244, R249). -/
def placeOf (s : State) (e : PageEntry) (a : Nat) : Place :=
  let off := a % pageBytes
  let pa := e.frame * pageBytes + off
  if e.compressed then .coded e.object (e.index * pageBytes + off)
  else if e.tier = 0 then .here .hbm pa
  else if e.tier = 1 then bulkPlace s pa
  else if e.tier = 2 then .here .buf pa
  else .remote e.device pa

/-- A device is within a partition's fabric permissions (R442). -/
def peerAllowed (s : State) (k device : Nat) : Bool :=
  s.flag fabrPage Rg.fabrPeerRangeValid k && decide (s.reg fabrPage Rg.fabrPeerRangeLow k ≤ device) &&
    decide (device ≤ s.reg fabrPage Rg.fabrPeerRangeHigh k)

/-- The memory-side die that homes a line of HBM or of a bulk port (R243, R244). -/
def homeOfLine (r : Region) (key : Nat) : Nat := if r = .bulk then key / 2 ^ 44 / 2 else dieOfStack (stackOf key)

/-- The number of a line that the memory-side caches tell it by: those of the bulk ports follow HBM's (R249). -/
def lineNo (r : Region) (key : Nat) : Nat := if r = .bulk then 2 ^ 41 + key / 64 else key / 64

/-- The key of a way of the set in which a line lies (R249). -/
def wayKey (r : Region) (key w : Nat) : Nat :=
  (homeOfLine r key * 2 ^ 17 + Config.cacheSet (lineNo r key) % 2 ^ 17) * 16 + w

/-- The way that holds a line of HBM or of a bulk port, if it is cached (R249). -/
def cachedIn (s : State) (r : Region) (key : Nat) : Option Nat :=
  if r = .hbm ∨ r = .bulk then
    (List.range 16).find? fun w => ((tabFind (wayKey r key w) s.tier.cache).map (·.line)) == some (lineNo r key)
  else none

/-- The place is a line that a memory-side cache holds: an access to it reaches neither HBM nor a bulk port (R237, R258). -/
def placeCached (s : State) (p : Place) : Bool :=
  match p with
  | .here r key => (cachedIn s r key).isSome
  | _ => false

/-- The ways of a die in which a partition may allocate (R250). -/
def allowedWays (s : State) (m k : Nat) : List Nat :=
  (List.range 16).filter fun w =>
    (s.reg (msidPage m) Rg.msidWayMaskWays k).testBit w && !(s.reg (msidPage m) Rg.msidBufferWaysWays).testBit w

/-- What a read of a line of HBM or of a bulk port leaves in its die's cache (R250): with the stream hint nothing is allocated; a keep line
gives way to keep lines of its partition alone, and of a set a partition's keep lines take at most half of its allowed ways, a request
beyond that being a normal one. Which of the ways that may give way does so is open, and a line that cannot be corrected is not allocated.
DESIGN CHOICE: log entry 28. -/
def cacheFill (k : Nat) (hint : CacheHint) (r : Region) (key : Nat) (s : State) : State :=
  let ways := allowedWays s (homeOfLine r key) k
  let held := fun w => tabFind (wayKey r key w) s.tier.cache
  let kept := ways.filter fun w => ((held w).map fun c => c.keep && c.part == k).getD false
  let keep := hint == .keep && decide (2 * (kept.length + 1) ≤ ways.length)
  let put := fun w => { s with tier := { s.tier with cache := tabSet (wayKey r key w) ⟨lineNo r key, k, keep⟩ s.tier.cache } }
  match cachedIn s r key with
  | some w => if keep ∧ ways.contains w ∧ !kept.contains w then put w else s
  | none =>
    if hint = .stream ∨ cwBad r (s.memory r) (key / cwBytes r) then s
    else
      let room := ways.filter fun w => ((held w).map fun c => !c.keep || (keep && c.part == k)).getD true
      match room[(s.free 8).toNat % max 1 room.length]? with
      | some w => (put w).usedFree
      | none => s

/-- A read of n bytes of a line of a memory: errors are corrected and counted (R521, R522); a bulk port counts the payload that it returns
(R248), and the line is placed in its die's cache by the hint (R250). -/
def fetchLine (k : Nat) (hint : CacheHint) (r : Region) (key n : Nat) (s : State) : State :=
  let t := s.readEffect r key n
  if r = .hbm ∨ r = .bulk then
    cacheFill k hint r key
      (t.when (decide (r = .bulk) && (cachedIn s r key).isNone) fun t => t.addReg (bulkPage (key / 2 ^ 44)) Rg.bulkReadBytesBytes n)
  else t

/-! ### The tables in HBM

A partition's tables lie in HBM (R239, R240, R279, R317), by 32 KiB where TierState.tables says. What they hold is a function of the state
(structWord), so the cells of HBM do not list it; the flipped bits of their codewords stand with HBM's own. -/

/-- The parts of a partition's tables by number. -/
def streamPart : Nat := 16384
def kvPart : Nat := 32768

/-- A level-2 entry (R239). -/
def entryWord (e : PageEntry) : Nat :=
  1 + 2 * bit e.writable + 4 * e.tier + 16 * bit e.pinned + 32 * bit e.compressed + 64 * bit e.migrating +
    (if e.compressed then 2 ^ 8 * e.object + 2 ^ 24 * e.index else 2 ^ 8 * e.heat + 2 ^ 21 * e.frame) + 2 ^ 48 * e.device

/-- A level-1 entry (R239): the address of its level-2 table, with VALID. -/
def levelOneWord (s : State) (k i : Nat) : Nat :=
  match tabFind (k * 65536 + 2 + i) s.tier.tables with
  | some t => t * 2 ^ 15 + 1
  | none => 0

/-- A stream's record (R317): the fields of the host, and those that the device sets. -/
def streamRecord (x : StreamRun) : Nat :=
  (x.image.toNat - (x.image.toNat / 2 ^ 8 % 2 ^ 3) * 2 ^ 8) + 2 ^ 8 * x.group + x.state +
    2 ^ 4 * (bit x.host + 2 * bit x.kv + 4 * bit x.output) + 2 ^ 32 * x.position + 2 ^ (8 * 0x10) * x.step +
    2 ^ (8 * 0x38) * x.pages.length + 2 ^ (8 * 0x60) * x.admitNo + 2 ^ (8 * 0x68) * x.endReason

/-- A KV page-table entry (R279). -/
def kvWord (e : KvEntry) : Nat := 1 + 2 * bit e.shared + e.addr / 4096 % 2 ^ 36 * 2 ^ 12 + e.owner % 65536 * 2 ^ 48

/-- The 8-byte word x of a part of a partition's tables. DESIGN CHOICE: log entry 29. -/
def structWord (s : State) (k u x : Nat) : Nat :=
  if u < 2 then levelOneWord s k (u * 4096 + x)
  else if u < streamPart then ((tabFind (pageKey k ((u - 2) * 4096 + x)) s.tier.pages).map entryWord).getD 0
  else if u < kvPart then
    let n := s.reg (partPage k) Rg.partStreamBaseBase + (u - streamPart) * 128 + x / 32
    ((tabFind n s.serve.streams).map fun r => streamRecord r / 2 ^ (64 * (x % 32)) % 2 ^ 64).getD 0
  else ((tabFind (s.reg (partPage k) Rg.partKvBaseBase + (u - kvPart) * 4096 + x) s.serve.kvs).map kvWord).getD 0

/-- The HBM line that holds word x of a part of a partition's tables. -/
def structLine (s : State) (k u x : Nat) : Option Nat := (tabFind (k * 65536 + u) s.tier.tables).map fun t => t * 512 + x / 8

/-- That line is uncorrectable (R523). -/
def structBad (s : State) (k u x : Nat) : Bool :=
  match structLine s k u x with
  | some w => flipsBad .hbm (tabGet 0 w s.mem.hbm.flips)
  | none => false

/-- A read of a word of a partition's tables that is uncorrectable is counted and recorded; UNIT is the partition (R522, R523). DESIGN
CHOICE: log entry 29. -/
def structTouch (k u x detail : Nat) (s : State) : State :=
  match structLine s k u x with
  | some w => if structBad s k u x then
      ((s.addReg raspPage Rg.raspUncorrectedCount 1).countErrors (hbmcPage (stackOf (w * 64))) 1).error raspPage 0x0702 k (detail % 2 ^ 32)
    else s
  | none => s

/-- The device writes a word of a partition's tables (R241): its line's check symbols are formed anew, unless the rest of the line cannot be
corrected (R631), and an armed injection may take it (R529). -/
def structWrite (k u x : Nat) (s : State) : State :=
  match structLine s k u x with
  | none => s
  | some w =>
    if structBad s k u x then s
    else
      let t := { s with mem := { s.mem with hbm := { s.mem.hbm with flips := tabDel w s.mem.hbm.flips } } }
      if (flipHit .hbm [w] s).isNone then t
      else flipFired (w * 64) { t with mem := { t.mem with hbm := { t.mem.hbm with flips := tabPut 0 w (injected .hbm s) t.mem.hbm.flips } } }

/-- The device writes the level-2 entry of a page. -/
def writePageEntry (k page : Nat) (s : State) : State := structWrite k (2 + page / 4096) (page % 4096) s

/-- The words of a partition's tables that translate an address, as part and word (R238). -/
def tableWalk (a : Nat) : List (Nat × Nat) := [(a / 2 ^ 33 / 4096, a / 2 ^ 33 % 4096), (2 + a / 2 ^ 33, a / pageBytes % 4096)]

/-- The translation of an address meets an uncorrectable table entry (R523). -/
def tableBad (s : State) (k a : Nat) : Bool := (tableWalk a).any fun w => structBad s k w.1 w.2

/-- What stops an access (R242): translation fault or access denied. -/
inductive AccessError where
  | fault
  | denied
  deriving DecidableEq, Repr

/-- Translate one byte of an access (R238, R242, R523). -/
def translate (s : State) (k a : Nat) (write : Bool) : PageEntry ⊕ AccessError :=
  match s.pageOf k a with
  | none => .inr .fault
  | some e =>
    if tableBad s k a then .inr .fault
    else if write && (!e.writable || e.compressed) then .inr .denied
    else if e.tier = 3 && !peerAllowed s k e.device then .inr .denied
    else .inl e

/-- A range cut at the boundaries of 64-byte lines: start and length of each part. -/
def linesOf (a n : Nat) : List (Nat × Nat) :=
  if n = 0 then []
  else (List.range ((a + n - 1) / 64 - a / 64 + 1)).map fun i =>
    let lo := max a ((a / 64 + i) * 64)
    (lo, min (a + n) ((a / 64 + i + 1) * 64) - lo)

/-- The first part of a range that fails translation. -/
def accessError (s : State) (k a n : Nat) (write : Bool) : Option (AccessError × Nat) :=
  (linesOf a n).findSome? fun l =>
    match translate s k l.1 write with
    | .inl _ => none
    | .inr e => some (e, l.1)

/-- What an access that fails translation leaves: an uncorrectable table entry is recorded (R523). -/
def State.faultTouch (s : State) (k a n : Nat) (write : Bool) : State :=
  match accessError s k a n write with
  | some (.fault, at_) => if at_ ≥ 2 ^ 46 then s else s.each (tableWalk at_) fun w => structTouch k w.1 w.2 at_
  | _ => s

/-- CRC-32 of bytes, one bit at a time (R260; the polynomial of IEEE 802.3). PRESUMED: log entry 32. -/
def crcBit (c : BitVec 32) : BitVec 32 := if c.getLsbD 0 then (c >>> 1) ^^^ 0xEDB88320 else c >>> 1
def crcByte (c : BitVec 32) (b : Byte) : BitVec 32 := (List.range 8).foldl (fun c _ => crcBit c) (c ^^^ b.setWidth 32)
def crc32 (bs : List Byte) : BitVec 32 := ~~~(bs.foldl crcByte 0xFFFFFFFF)

/-- The stored bytes of a compressed object from an offset of its stored form on: its frames are its pages' frames, in order.
None where one of them cannot be read. -/
def storedBytes (s : State) (k : Nat) (o : ObjectRec) (off n : Nat) : Option (List Byte) :=
  (List.range n).mapM fun i =>
    match s.pageOf k (o.base + off + i) with
    | none => none
    | some e =>
      match bulkPlace s (e.frame * pageBytes + (o.base + off + i) % pageBytes) with
      | .here r key => readByte r (s.memory r) key
      | _ => none

/-- Read an HBM or bulk number at a partition address that maps plain memory. -/
def plainNat (s : State) (k a n : Nat) : Option Nat :=
  ((List.range n).mapM fun i =>
    match translate s k (a + i) false with
    | .inl e =>
      match placeOf s e (a + i) with
      | .here r key => readByte r (s.memory r) key
      | _ => none
    | .inr _ => none).map leNat

/-- Where the stored form of a coded unit begins, from the object's BASE (R261); none where its index entry cannot be read. -/
def unitOffset (s : State) (k : Nat) (o : ObjectRec) (u : Nat) : Option Nat :=
  (plainNat s k (o.indexAddr + 4 * u) 4).map fun ix => ix % 2 ^ 28 * 64

/-- The stored form of a coded unit: its header tells its lines (R260); none where a line of it cannot be read. -/
def unitStored (s : State) (k : Nat) (o : ObjectRec) (u : Nat) : Option (List Byte) :=
  (unitOffset s k o u).bind fun off => (storedBytes s k o off 16).bind fun h => storedBytes s k o off (64 * (h.getD 3 0).toNat)

/-- What the stored form of a coded unit decodes to (R260, R263): 4,096 element bytes and the scale bytes; none where its header or CRC does
not hold. DEDUCED: log entry 33. -/
def decodeStored (o : ObjectRec) (st : List Byte) : Option (List Byte) :=
  let lines := (st.getD 3 0).toNat
  let want := 4096 + 4096 / max 1 o.blockBytes
  let out := if (st.getD 2 0).getLsbD 0 then (st.drop 16).take want
    else Config.decodeUnit o.elemTable o.scaleTable ((st.take (64 * lines)).drop 16)
  let ok := leNat (st.take 2) = 0x5A55 ∧ 1 ≤ lines ∧ lines ≤ 73 ∧ out.length = want ∧ (crc32 out).toNat = leNat ((st.drop 4).take 4)
  if ok then some out else none

/-- A decoded unit (R260 to R263); none where its index entry, header, bytes or CRC do not hold. DEDUCED: log entry 33. -/
def decodedUnit (s : State) (k : Nat) (o : ObjectRec) (u : Nat) : Option (List Byte) := (unitStored s k o u).bind (decodeStored o)

/-- The unit that serves an offset of a compressed object's two ranges, and where in the decoded unit the byte lies: element bytes first, then
the scale bytes (R261). -/
def codedAt (o : ObjectRec) (off : Nat) : Nat × Nat :=
  if off < o.size then (off / 4096, off % 4096)
  else
    let y := off - o.size
    let u := y * o.blockBytes / 4096
    (u, 4096 + (y - u * 4096 / max 1 o.blockBytes))

/-- A byte of a compressed object at an offset of its range: decoded element bytes first, then, from SIZE on, the scale bytes of its second
range (R261). DEDUCED: log entry 33. -/
def codedByte (s : State) (k : Nat) (o : ObjectRec) (off : Nat) : Option Byte :=
  (decodedUnit s k o (codedAt o off).1).bind fun b => b[(codedAt o off).2]?

/-- The bytes that a line part delivers; none for a byte of an uncorrectable codeword. Those of a member of the coherence group come from
the line that this device has taken (R452); bytes of another peer's memory are free values from index fr on. -/
def placeBytes (s : State) (k : Nat) (p : Place) (n fr : Nat) : List (Option Byte) :=
  match p with
  | .here r key => readBytes r (s.memory r) key n
  | .unreachable _ => List.replicate n none
  | .coded id off =>
    match tabFind (objKey k id) s.tier.objects with
    | some o => (List.range n).map fun i => codedByte s k o (off + i)
    | none => List.replicate n none
  | .remote d addr =>
    if inGroup s d then copyBytes (copyOf s (copyKey d k addr)) addr n else (List.range n).map fun i => some (s.free 8 (fr + i))

/-- A place is served by a block that takes no work now: its die, and its stack's controller or its bulk port (R46, R243, R244). DESIGN
CHOICE: log entry 15. -/
def placeHeld (s : State) (p : Place) : Bool :=
  match p with
  | .here .hbm key => !s.serves (hbmcPage (stackOf key)) || !s.serves (msidPage (dieOfStack (stackOf key)))
  | .here .bulk key => !s.serves (bulkPage (key / 2 ^ 44)) || !s.serves (msidPage (key / 2 ^ 44 / 2))
  | .here .buf key => !s.serves (msidPage (key / 2 ^ 27))
  | _ => false

/-- A read must wait for another device: a line of this device's memory that a member owns, or a line of a member that has not come
(R452, R453). -/
def fabricHeld (s : State) (k a : Nat) (p : Place) : Bool :=
  match p with
  | .here _ _ => dirHolds s k a
  | .remote d addr => inGroup s d && copyWaits (copyOf s (copyKey d k addr))
  | _ => false

/-- What a read that meets the fabric leaves: the request that it waits for. -/
def fabricTouch (k a : Nat) (p : Place) (s : State) : State :=
  match p with
  | .here _ _ => dirRead k a s
  | .remote d addr => if inGroup s d then copyRead d k addr s else s
  | _ => s

/-- The object of a partition address, if one is declared there. -/
def objectAt (s : State) (k a : Nat) : Option (Nat × ObjectRec) :=
  (s.pageOf k a).bind fun e => (tabFind (objKey k e.object) s.tier.objects).map fun o => (e.object, o)

/-- A unit of an object with a replica, which an uncorrectable error makes the device re-source (R272). -/
def replicated (s : State) (k a : Nat) : Bool :=
  match objectAt s k a with
  | some (_, o) => o.replica != 0
  | none => false

/-- The key of the unit that an address belongs to (R272): of a compressed object the coded unit that serves it, with its scale bytes
(R261), by the address of its element bytes. -/
def unitOf (s : State) (k a : Nat) : Nat :=
  match objectAt s k a with
  | some (_, o) => if o.compressed then unitKey k (o.base + 4096 * (codedAt o (a - o.base)).1) else unitKey k a
  | none => unitKey k a

/-- Where in a unit's data an address lies. -/
def unitAt (s : State) (k a : Nat) : Nat :=
  match objectAt s k a with
  | some (_, o) => if o.compressed then (codedAt o (a - o.base)).2 else a % 4096
  | none => a % 4096

/-- The state of the unit of an address (R272, R273), and setting it. -/
def unitState (s : State) (k a : Nat) : Option UnitState := tabFind (unitOf s k a) s.tier.units
def setUnit (k a : Nat) (x : Option UnitState) (s : State) : State :=
  { s with tier := { s.tier with units := match x with
    | some v => tabSet (unitOf s k a) v s.tier.units
    | none => tabDel (unitOf s k a) s.tier.units } }

/-- The unit of an address is awaited from its replica. -/
def awaited (s : State) (k a : Nat) : Bool :=
  match unitState s k a with
  | some (.awaited _) => true
  | _ => false

/-- What a read of a range answers. -/
inductive ReadResult where
  /-- The bytes; none where the byte is delivered poisoned. -/
  | data (b : List (Option Byte))
  /-- The read is held until the unit at this address is re-sourced (R272), or until a line has come (R452, R453). -/
  | held (unit : Nat)
  | error (e : AccessError) (addr : Nat)
  deriving DecidableEq, Repr

/-- A part of a read is held for its replica: its unit is awaited, or it meets an error and has a replica that has not been lost. -/
def unitHeld (s : State) (k : Nat) (l : Nat × Nat) : Bool :=
  match translate s k l.1 false with
  | .inr _ => false
  | .inl e =>
    awaited s k l.1 ||
      (replicated s k l.1 && unitState s k l.1 == none && (placeBytes s k (placeOf s e l.1) l.2 0).any Option.isNone)

/-- A part of a read waits for its data: for another device, or for its replica. -/
def awaitsPart (s : State) (k : Nat) (l : Nat × Nat) : Bool :=
  match translate s k l.1 false with
  | .inr _ => false
  | .inl e => fabricHeld s k l.1 (placeOf s e l.1) || unitHeld s k l

/-- A part of a read is held: it waits for its data, or for the block that serves it. -/
def heldPart (s : State) (k : Nat) (l : Nat × Nat) : Bool :=
  awaitsPart s k l ||
    match translate s k l.1 false with
    | .inr _ => false
    | .inl e => placeHeld s (placeOf s e l.1)

/-- The bytes of one part of a read: those of a lost unit are poisoned at once (R273). -/
def partBytes (s : State) (k : Nat) (l : Nat × Nat) (fr : Nat) : List (Option Byte) :=
  match translate s k l.1 false with
  | .inr _ => List.replicate l.2 none
  | .inl e =>
    match unitState s k l.1 with
    | some .lost => List.replicate l.2 none
    | some (.ready d _) => ((d.drop (unitAt s k l.1)).take l.2).map some
    | _ => placeBytes s k (placeOf s e l.1) l.2 fr

/-- A read of a range of partition addresses. -/
def State.partRead (s : State) (k a n : Nat) : ReadResult :=
  match accessError s k a n false with
  | some (e, at_) => .error e at_
  | none =>
    match (linesOf a n).find? (heldPart s k) with
    | some l => .held (l.1 / 4096 * 4096)
    | none => .data ((linesOf a n).map fun l => partBytes s k l (l.1 - a)).flatten

/-- Heat placement runs for a partition (R257). -/
def heatRuns (s : State) (k : Nat) : Bool :=
  s.flag (partPage k) Rg.partHeatControlEnable && !s.flag globPage Rg.globModeStrict &&
    s.reg (partPage k) Rg.partConfigKind != 2

/-- An access that reaches HBM or the bulk tier adds to the heat of a covered page (R258). -/
def warm (k a : Nat) (s : State) : State :=
  match s.pageOf k a with
  | none => s
  | some e =>
    if heatRuns s k ∧ !e.pinned ∧ !e.compressed ∧ e.tier ≤ 1 then
      { s with tier := { s.tier with
        pages := tabSet (pageKey k (a / pageBytes)) { e with heat := min 8191 (e.heat + 1) } s.tier.pages } }
    else s

/-- Where the line at an offset of a compressed object's stored form lies. -/
def storedAt (s : State) (k : Nat) (o : ObjectRec) (off : Nat) : Option Place :=
  (s.pageOf k (o.base + off)).map fun e => bulkPlace s (e.frame * pageBytes + (o.base + off) % pageBytes)

/-- The memory-side die that decodes a unit: the home of the bulk port that holds its first line. -/
def decodeDie (s : State) (k : Nat) (o : ObjectRec) (u : Nat) : Nat :=
  match storedAt s k o ((unitOffset s k o u).getD 0) with
  | some (.here _ key) => key / 2 ^ 44 / 2
  | some (.unreachable p) => p / 2
  | _ => 0

/-- An unreachable unit of a bulk port is read: an uncorrectable error, which the port counts (R245, R522). -/
def touchLost (p : Nat) (s : State) : State := (s.addReg raspPage Rg.raspUncorrectedCount 1).countErrors (bulkPage p) 1

/-- A coded unit's stored lines are read (R248, R264): the lines that its header names, or its first where that cannot be read. -/
def fetchStored (k : Nat) (hint : CacheHint) (o : ObjectRec) (u : Nat) (s : State) : State :=
  match unitOffset s k o u with
  | none => s
  | some off =>
    let lines := match storedBytes s k o off 16 with
      | some h => min 73 (h.getD 3 0).toNat
      | none => 1
    s.each (List.range lines) fun i t =>
      match storedAt s k o (off + 64 * i) with
      | some (.here r key) => fetchLine k hint r key 64 t
      | some (.unreachable p) => touchLost p t
      | _ => t

/-- A decoder of a die uses a code table: one that the die does not hold is loaded and counted, the oldest giving way (R263). DEDUCED: log
entry 33. -/
def useTable (die table : Nat) (s : State) : State :=
  let held := tabGet [] die s.tier.codeTables
  if held.contains table then s
  else ({ s with tier := { s.tier with codeTables := tabSet die ((table :: held).take 1024) s.tier.codeTables } }).bump
    (msidPage die) Rg.msidTableMissCount

/-- What decoding a unit leaves: its stored lines are read; table loads; the decoders' busy time, which the spec bounds and does not fix;
and where the lines can be read and do not decode to what CHECK says, an uncorrectable error of the unit, counted by the die (R263, R522).
DEDUCED: log entry 33. -/
def decodeEffect (k : Nat) (hint : CacheHint) (o : ObjectRec) (u : Nat) (s : State) : State :=
  let d := decodeDie s k o u
  let t := useTable d o.scaleTable (useTable d o.elemTable (fetchStored k hint o u s))
  let t := (t.addReg (msidPage d) Rg.msidDecodeBusyTime (t.free 8).toNat).usedFree
  if (unitStored s k o u).isSome && (decodedUnit s k o u).isNone then (t.addReg raspPage Rg.raspUncorrectedCount 1).countErrors (msidPage d) 1
  else t

/-- What a read of one part leaves: errors counted and corrected (R521, R522), read payload of a bulk port (R248), the memory-side cache by
the hint (R250), decoding, and a unit that becomes awaited where re-sourcing starts (R272). Good data of a unit whose write-back failed is
kept until every line of it has been read (R274). -/
def touchPart (hint : CacheHint) (k : Nat) (l : Nat × Nat) (s : State) : State :=
  match translate s k l.1 false with
  | .inr _ => s
  | .inl e =>
    let p := placeOf s e l.1
    if placeHeld s p then s
    else if fabricHeld s k l.1 p then fabricTouch k l.1 p s
    else
    let t := s.when (!placeCached s p) (warm k l.1)
    match unitState s k l.1 with
    | some .lost => t
    | some (.awaited _) => t
    | some (.ready d left) =>
      let rest := left.filter (· != unitAt s k l.1 / 64)
      setUnit k l.1 (if rest.isEmpty then none else some (.ready d rest)) t
    | none =>
      let start := unitHeld s k l
      let t := match p with
        | .here r key => fetchLine k hint r key l.2 t
        | .unreachable p => touchLost p t
        | .coded id off =>
          match tabFind (objKey k id) s.tier.objects with
          | some o => decodeEffect k hint o (codedAt o off).1 t
          | none => t
        | .remote d addr => if inGroup s d then copyRead d k addr t else t.usedFree l.2
      if start then setUnit k l.1 (some (.awaited s.now)) t else t

/-- What a read of a range leaves. Of a read that fails translation only an uncorrectable table entry is recorded. -/
def State.partTouch (s : State) (k a n : Nat) (hint : CacheHint := .allocate) : State :=
  match accessError s k a n false with
  | some _ => s.faultTouch k a n false
  | none => s.each (linesOf a n) (touchPart hint k)

/-- Read bytes of a range if every one can be delivered. A block that holds work serves the device's own reads of tables all the same.
DESIGN CHOICE: log entry 15. -/
def State.partBytesAll (s : State) (k a n : Nat) : Option (List Byte) :=
  match accessError s k a n false with
  | some _ => none
  | none =>
    if (linesOf a n).any (awaitsPart s k) then none
    else ((linesOf a n).map fun l => partBytes s k l (l.1 - a)).flatten.mapM id

/-- Read a little-endian number at a partition address. -/
def State.partNat (s : State) (k a n : Nat) : Option Nat := (s.partBytesAll k a n).map leNat

/-- A write of a twinned radio partition to an object that the mirror covers joins the slot's batch (R539). -/
def logMirror (k a : Nat) (bytes : List Byte) (s : State) : State :=
  match objectAt s k a with
  | none => s
  | some (_, o) =>
    if o.replica = 1 ∧ o.hint ≠ 4 ∧ s.flag raspPage Rg.raspTwinMapValid k ∧ s.reg (partPage k) Rg.partConfigKind = 2 then
      { s with twin := { s.twin with
        toMirror := tabMod [] k (fun l => l ++ [(o.replicaAddr + BitVec.ofNat 64 (a - o.base), bytes)]) s.twin.toMirror } }
    else s

/-- Write one part of a range to where it lies, allocating no line: a write to an unreachable bulk unit is discarded and counted (R245), one
to a peer is sent (ch. "Memory-semantic fabric"). DESIGN CHOICE: log entry 28. -/
def writePart (k a : Nat) (bytes : List Byte) (s : State) : State :=
  match s.pageOf k a with
  | none => s
  | some e =>
    let t := logMirror k a bytes (s.when (!placeCached s (placeOf s e a)) (warm k a))
    match placeOf s e a with
    | .here r key => t.storeHome k a r key bytes
    | .unreachable p => t.countErrors (bulkPage p) 1
    | .coded _ _ => t
    | .remote d addr => if inGroup s d then copyWrite d k addr bytes t else t.emit (.remoteWrite d k addr bytes)

/-- A page of a range is under copy, so that a write waits until its entry switches (R256). -/
def copyWaitsFor (s : State) (k a n : Nat) : Bool :=
  (linesOf a n).any fun l => match s.pageOf k l.1 with
    | some e => e.migrating
    | none => false

/-- A write waits: for a page under copy, or for the block that serves a place of its range. -/
def writeWaits (s : State) (k a n : Nat) : Bool :=
  copyWaitsFor s k a n || (linesOf a n).any fun l => match s.pageOf k l.1 with
    | some e => placeHeld s (placeOf s e l.1)
    | none => false

/-- A write of bytes to a range that translates. -/
def State.partStore (s : State) (k a : Nat) (bytes : List Byte) : State :=
  s.each (linesOf a bytes.length) fun l t => writePart k l.1 ((bytes.drop (l.1 - a)).take l.2) t

/-- What a write answers. -/
inductive WriteResult where
  | done
  | waits
  | error (e : AccessError) (addr : Nat)
  deriving DecidableEq, Repr

/-- Whether a write of n bytes can be made. -/
def State.partWriteCheck (s : State) (k a n : Nat) : WriteResult :=
  match accessError s k a n true with
  | some (e, at_) => .error e at_
  | none => if writeWaits s k a n then .waits else .done

/-- The device's own write to a range can be made: a block that holds work serves it all the same. DESIGN CHOICE: log entry 15. -/
def mayStore (s : State) (k a n : Nat) : Bool := (accessError s k a n true).isNone && !copyWaitsFor s k a n

/-- A write of bytes to a range; where it fails translation or waits for a copy, nothing is written. -/
def State.partWrite (s : State) (k a : Nat) (bytes : List Byte) : State :=
  if mayStore s k a bytes.length then s.partStore k a bytes else s

/-- Make the codewords of a range read as uncorrectable: lines written poisoned (R523). -/
def State.partSpoil (s : State) (k a n : Nat) : State :=
  s.each (linesOf a n) fun l t =>
    match t.pageOf k l.1 with
    | none => t
    | some e =>
      match placeOf t e l.1 with
      | .here r key => { t with mem := setRegion r (spoilBytes r key l.2 (t.memory r)) t.mem }
      | _ => t

/-- Write bytes of which some are poisoned: a part with a poisoned byte is written poisoned. -/
def State.partWriteOpt (s : State) (k a : Nat) (bytes : List (Option Byte)) : State :=
  if mayStore s k a bytes.length then
    s.each (linesOf a bytes.length) fun l t =>
      match ((bytes.drop (l.1 - a)).take l.2).mapM id with
      | some b => writePart k l.1 b t
      | none => t.partSpoil k l.1 l.2
  else s

end Sys2Proof.Machine
end

