-- ==== Sys2Proof/Machine/CtxRec.lean ====
section
/-! DEFINITION. Context records (R358): the fields that the device keeps, written to the record as they change, and the device
time that a core's context runs between cheap points (R175, R176). -/

namespace Sys2Proof.Machine

/-- The partition address of a context's record. -/
def ctxAddr (s : State) (k c : Nat) : Nat := s.reg (partPage k) Rg.partCtxTableAddress + 128 * c

/-- Set a context and write the fields that the device sets into its record: STATE, STEP, TIME and VTIME (R358). -/
def State.writeCtx (s : State) (k c : Nat) (x : Ctx) : State :=
  let t := s.setCtx k c x
  (t.partStore k (ctxAddr s k c) (toBytes 1 (x.state + 16 * x.priority))).partStore k (ctxAddr s k c + 0x58)
    (toBytes 24 (x.step % 2 ^ 64 + 2 ^ 64 * (x.time % 2 ^ 64) + 2 ^ 128 * (x.vtime % 2 ^ 64)))

/-- A context's fields as its record holds them (R358): none where the record cannot be read. -/
def readCtx (s : State) (k c : Nat) (old : Ctx) : Option (Ctx × List Byte) :=
  (s.partBytesAll k (ctxAddr s k c) 128).map fun b =>
    let n := fun off len => leNat ((b.drop off).take len)
    ({ old with
      priority := n 0 1 / 16 % 8
      checked := n 1 1 % 2 = 1
      weight := n 2 2
      mask := BitVec.ofNat 160 (n 0x08 20)
      binary := n 0x20 8
      entry := BitVec.ofNat 18 (n 0x28 4)
      cheapTable := n 0x30 8
      cheapCount := n 0x38 2
      cheapLimit := n 0x3C 2
      spill := n 0x40 8
      seed := BitVec.ofNat 128 (n 0x48 16) }, b)

/-- Whether a core runs for its gap of R176: the device time during which it does not is left out of the gap. -/
def gapRuns (runs : Bool) (now : Nat) (x : Core) : Core :=
  match runs, x.pausedAt with
  | true, some t => { x with pausedAt := none, blockedNs := x.blockedNs + (now - t) }
  | false, none => { x with pausedAt := some now }
  | _, _ => x

/-- The context of a core has trapped: a RUNNING context becomes TRAPPED and CONTEXT_TRAP is raised (R360, R182). -/
def ctxTrapped (c : Nat) (s : State) : State :=
  match (s.core c).ctx with
  | none => s
  | some r =>
    let x := s.ctx r.part r.ctx
    let t := if x.state = 2 then s.writeCtx r.part r.ctx { x with state := 5 } else s
    t.raise (partPage r.part) 2

end Sys2Proof.Machine
end

