-- ==== Sys2Proof/Machine/Exec.lean ====
section
/-! DEFINITION. What every instruction of a compute core shares: when a core executes, fetch (R133), general registers
(R132), precise traps (R182, R184) and the sticky flags (R87). -/

namespace Sys2Proof.Machine

/-- A core of an inference partition that is not lent (R582). -/
def inferenceCore (s : State) (c : Nat) : Bool :=
  (s.core c).lentTo.isNone &&
    match ownerOfCore s c with
    | some k => s.reg (partPage k) Rg.partConfigKind == 1
    | none => false

/-- A throttle with f = 1, of the device or of the core's die, holds the core (R582, R585). -/
def heldWhole (s : State) (c : Nat) : Bool := (s.power.fraction == 1000 || s.power.hotDies.contains (c / 40)) && inferenceCore s c

/-- The core executes instructions: it is enabled, not frozen or about to freeze, not fenced, not trapped or about to
trap, and holds a running context (R132, R182, R533, R628), and no throttle holds it whole (R582). -/
def coreReady (s : State) (c : Nat) : Bool :=
  let p := corePage c
  s.working && !heldWhole s c && s.flag p Rg.pageStatusEnabled && !s.flag p Rg.pageControlFreeze && !s.flag p Rg.pageStatusFenced &&
    !s.flag p Rg.coreTrapCauseValid && (s.core c).run == .running && (s.core c).ctx.isSome && (s.core c).deferred.isNone

/-- A general register; g0 reads 0 (R132). -/
def getG (x : Core) (r : Fin 32) : BitVec 64 := if r = 0 then 0 else tabGet 0 r.val x.gpr

/-- Write a general register; a write to g0 is discarded (R132). -/
def setG (r : Fin 32) (v : BitVec 64) (x : Core) : Core := if r = 0 then x else { x with gpr := tabPut 0 r.val v x.gpr }

/-- Go on to the next instruction. -/
def advance (x : Core) : Core := { x with pc := x.pc + 4 }

/-- The core runs, for its gap of R176: it is not blocked, halted, trapped, frozen or held whole by a throttle (R175). -/
def gapCounts (s : State) (c : Nat) : Bool :=
  let p := corePage c
  (s.core c).run == .running && !s.flag p Rg.coreTrapCauseValid && !s.flag p Rg.pageControlFreeze && !heldWhole s c

/-- Account a core's gap after what may have stopped it or let it run again (R175, R176). -/
def settleGap (c : Nat) (s : State) : State :=
  match (s.core c).ctx with
  | none => s
  | some _ => s.modCore c (gapRuns (gapCounts s c) s.now)

/-- Account the gap of every core that holds a context. -/
def settleGaps (s : State) : State := s.each (s.cores.map Prod.fst) settleGap

/-- Write the trap registers of a core, raise TRAP and notify the scheduler: the context becomes TRAPPED (R182, R183, R360). -/
def recordTrap (c cause unit detail : Nat) (deferred : Bool) (pc stop : BitVec 18) (s : State) : State :=
  let p := corePage c
  ctxTrapped c <| settleGap c <| (s.setReg p Rg.coreTrapCauseCause cause |>.setReg p Rg.coreTrapCauseDeferred (bit deferred)
    |>.setReg p Rg.coreTrapCauseUnit unit |>.setReg p Rg.coreTrapCauseValid 1 |>.setReg p Rg.coreTrapPcPc pc.toNat
    |>.setReg p Rg.coreTrapDetailDetail detail |>.setReg p Rg.coreTrapStopPcPc stop.toNat).raise p 1

/-- A precise trap: the instruction at the program counter has had no effect (R182). -/
def trap (c cause detail : Nat) (s : State) : State :=
  recordTrap c cause 0 detail false (s.core c).pc (s.core c).pc s

/-- The trap DATA_UE with its error record (R184, error code 0x0102); the read has counted the error. -/
def trapDataUe (c addr : Nat) (s : State) : State := trap c 0x05 addr (s.capture (corePage c) 0x0102 0 addr)

/-- The instruction word at a core's program counter (R133). -/
def wordAt (s : State) (c : Nat) : Nat := (s.loadNat .imem (imemKey c (s.core c).pc.toNat) 4).getD 0

/-- The bits [hi:lo] of an instruction word. -/
def wordField (w hi lo : Nat) : Nat := w / 2 ^ lo % 2 ^ (hi + 1 - lo)

/-- The major opcode (R134), and whether it lies in a group. -/
def majorOf (w : Nat) : Nat := wordField w 31 26
def inGroupOf (lo hi w : Nat) : Bool := decide (lo ≤ majorOf w ∧ majorOf w ≤ hi)

/-- A word that can trap ILLEGAL by its codes (R135): a reserved major opcode, a reserved ENGINE or SUBOP, or a word of a group whose
function codes the spec leaves to the assembler reference. DEDUCED: log entry 116. -/
def mayBeReserved (w : Nat) : Bool :=
  let m := majorOf w
  if m ≤ 0x0F ∨ (0x18 ≤ m ∧ m ≤ 0x1B) ∨ (0x24 ≤ m ∧ m ≤ 0x2A) then true
  else if m = 0x20 then decide (wordField w 20 17 ≥ 5)
  else if m = 0x38 then decide (wordField w 25 22 ≥ 7)
  else !((0x10 ≤ m && m ≤ 0x17) || (0x1C ≤ m && m ≤ 0x1D) || (0x30 ≤ m && m ≤ 0x36))

/-- Run one instruction of a core: the fetch reads its word from instruction memory, and an uncorrectable word traps with FETCH_UE (R133,
R184). spells tells whether a word spells the instruction, by the encodings of this chapter (R134 to R136, R150, R152, R168, R174, R186):
the core runs the instruction that its memory holds, and no other. A core that does not execute is left as it is. DEDUCED: log entry 116. -/
def runInsn (c : Nat) (spells : Nat → Bool) (body : State → State) (s : State) : State :=
  if coreReady s c then
    let a := imemKey c (s.core c).pc.toNat
    if cwBad .imem s.mem.imem (a / 8) then
      trap c 0x01 (s.core c).pc.toNat ((s.readEffect .imem a 4).capture (corePage c) 0x0101 0 (s.core c).pc.toNat)
    else if spells (wordAt s c) then body (s.readEffect .imem a 4) else s
  else s

/-- A request of the control processor, the vector unit or the stream engine to the scratchpad: its waits for banks, of which the spec
bounds each and fixes none, are counted in SPAD_WAIT, in ns (R160, R161). DESIGN CHOICE: log entry 118. -/
def spadWait (c : Nat) (s : State) : State := (s.addReg (corePage c) Rg.coreSpadWaitTime (s.free 8).toNat).usedFree

/-- The trap ILLEGAL (R135). -/
def trapIllegal (c word : Nat) (s : State) : State := trap c 0x02 word s

/-- The sticky flags of a core: SAT 1, ACC_OVF 2, T2_CODE 4, POISON 8 (R87). -/
def getFlags (s : State) (c : Nat) : Nat :=
  let p := corePage c
  s.reg p Rg.coreArithFlagsSat + 2 * s.reg p Rg.coreArithFlagsAccOvf + 4 * s.reg p Rg.coreArithFlagsTernaryCode +
    8 * s.reg p Rg.coreArithFlagsPoison

/-- Write all four sticky flags. -/
def putFlags (c f : Nat) (s : State) : State :=
  let p := corePage c
  s.setReg p Rg.coreArithFlagsSat (f % 2) |>.setReg p Rg.coreArithFlagsAccOvf (f / 2 % 2)
    |>.setReg p Rg.coreArithFlagsTernaryCode (f / 4 % 2) |>.setReg p Rg.coreArithFlagsPoison (f / 8 % 2)

/-- Set the sticky flags of f, leaving the others (R87, R88). -/
def orFlags (c f : Nat) (s : State) : State := putFlags c (getFlags s c ||| f) s

end Sys2Proof.Machine
end

