-- ==== Sys2Proof/Machine/Issue.lean ====
section
/-! DEFINITION. ISSUE (R136, R137), completion tags (R140), deferred causes (R183), and the descriptors' fields. -/

namespace Sys2Proof.Machine

/-- A field of a 64-byte descriptor: n bits from bit lo of the byte at off. -/
def dField (d : BitVec 512) (off lo n : Nat) : Nat := (d.extractLsb' (8 * off + lo) n).toNat

/-- A reserved range of bits, of the descriptor's bits lo to hi − 1: the bytes in which it is not 0. -/
def reservedErrs (d : BitVec 512) (ranges : List (Nat × Nat)) : List Nat :=
  (ranges.map fun r => (List.range (r.2 - r.1)).filterMap fun i => if d.getLsbD (r.1 + i) then some ((r.1 + i) / 8) else none).flatten

/-- The least of a list of byte offsets. DEDUCED: log entry 44. -/
def leastOf (l : List Nat) : Option Nat :=
  match l with
  | [] => none
  | x :: xs => some (xs.foldl min x)

/-- A tag's state; none for a free tag (R140). -/
def tagOf (x : Core) (t : Nat) : Option TagState := tabFind t x.tags

/-- Complete a command's tag, if it has one (R140). -/
def finishTag (tag : Option Nat) (error : Bool) (x : Core) : Core :=
  match tag with
  | none => x
  | some t => { x with tags := tabSet t (.done error) x.tags }

/-- The instruction word of an ISSUE (R136). -/
def issueWord (engine : Nat) (w : IssueWord) : Nat :=
  0x20 * 2 ^ 26 + w.gs.val * 2 ^ 21 + engine * 2 ^ 17 + w.unit.val * 2 ^ 12 + w.tag.val * 16 + bit w.notag * 8 + w.rsvd.val

/-- The word itself is illegal: a reserved bit, a unit that the engine has not, or a tag beside NOTAG (R135, R136). -/
def issueIllegal (engine : Nat) (w : IssueWord) : Bool :=
  w.rsvd.val != 0 || (w.notag && w.tag.val != 0) || (if engine = 2 then decide (w.unit.val ≥ 16) else w.unit.val != 0)

/-- The first word of the descriptor that cannot be read (R137). -/
def firstBadWord (s : State) (c a : Nat) : Option Nat :=
  (List.range 8).findSome? fun i => if cwBad .spad s.mem.spad ((spadKey c a + 8 * i) / 8) then some (a + 8 * i) else none

/-- The descriptor at a scratchpad address. DEDUCED: log entry 44. -/
def readDesc (s : State) (c a : Nat) : BitVec 512 := BitVec.ofNat 512 (leNat ((s.spadRead c a 64).getD []))

/-- The command tag that an ISSUE names. -/
def issueTag (w : IssueWord) : Option Nat := if w.notag then none else some w.tag.val

/-- ISSUE (R137): the word, the address, the tag, the copy, the contents, the engine's state, in that order; then the command goes into its
queue, its tag is pending and the core goes on. contents answers the byte offset of the first failure; engine answers the array of
ARRAY_FENCED; a full queue makes ISSUE wait (R138). DEDUCED: log entry 44. -/
def issueBody (c : Nat) (engine : Nat) (w : IssueWord) (contents : BitVec 512 → State → Option Nat)
    (fenced : BitVec 512 → State → Option Nat) (full : BitVec 512 → State → Bool)
    (enqueue : QueuedCmd → Core → State → Core) (s : State) : State :=
  let x := s.core c
  let a := (getG x w.gs).toNat
  if issueIllegal engine w then trapIllegal c (issueWord engine w) s
  else if a % 64 ≠ 0 then trap c 0x03 a s
  else if a ≥ 2 ^ 22 then trap c 0x04 a s
  else if !w.notag ∧ (tagOf x w.tag.val).isSome then trap c 0x08 w.tag.val s
  else
    let t := s.readEffect .spad (spadKey c a) 64
    match firstBadWord s c a with
    | some b => trapDataUe c b t
    | none =>
      let d := readDesc s c a
      match contents d s with
      | some off => trap c 0x07 (a + off * 2 ^ 56) t
      | none =>
        match fenced d s with
        | some ar => recordTrap c 0x0A ar ar false x.pc x.pc t
        | none =>
          if full d s then s
          else
            let q : QueuedCmd := ⟨d, x.pc, issueTag w⟩
            let y := enqueue q (t.core c) t
            let y := if w.notag then y else { y with tags := tabSet w.tag.val .pending y.tags }
            (spadWait c t).setCore c (advance y)

/-- Record a deferred cause: the first one stops the core at its next instruction boundary, a later one is counted in
ERROR_COUNT only (R183). -/
def deferCause (c cause unit detail : Nat) (pc : BitVec 18) (s : State) : State :=
  if (s.core c).deferred.isNone ∧ !s.flag (corePage c) Rg.coreTrapCauseValid then
    s.modCore c fun x => { x with deferred := some (cause, unit, detail, pc) }
  else s.countErrors (corePage c) 1

end Sys2Proof.Machine
end

