-- ==== Sys2Proof/Machine/Platform.lean ====
section
/-! DEFINITION. Reset, bring-up, the reference clock, junction trips and VDD_CORE: the commands of "Reset, power and cooling"
(R587 to R604) and of R27 to R30, R37, R584, R585 that change the platform. -/

namespace Sys2Proof.Machine

/-- A memory after a reset: each codeword keeps its old bytes or reads as uncorrectable (R595). DESIGN CHOICE: log entry 22. -/
def memAfterReset (resets region width : Nat) (m : Memory) : Memory :=
  { m with cells := m.cells.filter fun e => Config.survivesReset resets region (e.1 / width) }

/-- Every memory after a reset (R595). DESIGN CHOICE: log entry 22. -/
def memoriesAfterReset (resets : Nat) (m : MemState) : MemState :=
  { spad := memAfterReset resets 0 8 m.spad
    imem := memAfterReset resets 1 8 m.imem
    dmem := memAfterReset resets 2 8 m.dmem
    simem := memAfterReset resets 3 8 m.simem
    tags := memAfterReset resets 6 1 m.tags
    hbm := memAfterReset resets 4 64 m.hbm
    buf := memAfterReset resets 5 8 m.buf
    bulk := m.bulk }

/-- An accepted reset (R588, R590, R594, R595): every register and all state at their reset values but the VBAT domain, the fuses and what
lies outside the block. cause is 1 for power-on and 2 for RST_N; vbat tells that the VBAT domain held its contents. FAIL goes to the twin
where pairing is on and the TW PHY runs (R37, R541, R590). The regulators keep VDD_CORE but over a power-on, at which each starts at 750 mV
(R602). DESIGN CHOICE: log entry 3. DEDUCED: log entry 21. -/
def acceptReset (cause : Nat) (vbat : Bool) (s : State) : State :=
  let count := if vbat then (s.reg rsetPage Rg.rsetResetCountCount + 1) % 2 ^ 32 else 1
  let pend := if vbat then s.reg mgmtPage Rg.mgmtZeroizeStatusPending else 1
  let hot := s.plat.junctions.any fun e => decide (e.2 ≥ 115)
  let r := State.reset
  { r with
    pending := s.pending
    out := s.out ++ (if s.flag raspPage Rg.raspTwinControlEnable && !s.plat.clockHold then [.fail] else [])
    freeIx := s.freeIx
    resets := s.resets + 1
    regs :=
      ([] : RegFile)
        |> fieldSet rsetPage Rg.rsetResetCountCount 0 count
        |> fieldSet rsetPage Rg.rsetResetCauseCause 0 cause
        |> fieldSet rsetPage Rg.rsetResetCauseDuringBringup 0 (bit (vbat && !s.plat.broughtUp))
        |> fieldSet rsetPage Rg.rsetResetCauseThermalHold 0 (bit (vbat && s.plat.thermalHold))
        |> fieldSet rsetPage Rg.rsetResetCauseClockHold 0 (bit (vbat && s.plat.clockHold))
        |> fieldSet rsetPage Rg.rsetResetCauseVbatFresh 0 (bit (!vbat))
        |> fieldSet rsetPage Rg.rsetResetCauseSupplyDrop 0 (bit (vbat && s.plat.dropped))
        |> fieldSet mgmtPage Rg.mgmtZeroizeStatusPending 0 pend
    fuses := s.fuses
    mgmt := { stale := pend == 1 }
    mem := if cause = 1 then { r.mem with bulk := s.mem.bulk } else memoriesAfterReset s.resets s.mem
    ras := { r.ras with
      hardRepairs := s.ras.hardRepairs ++
        (match s.ras.ppr with
         | some v => if (s.free 1) = 1 ∧ v.getLsbD 16 then [v.toNat] else []
         | none => []) }
    plat := { r.plat with thermN := s.plat.thermN && hot, junctions := s.plat.junctions, vddCore := if cause = 2 then s.plat.vddCore else [] } }

/-- POWER_ON (R588): the reset of power-on is accepted when every rail has become good. -/
def execPowerOn (vbatHeld : Bool) (s : State) : Host.Outcome State Fault Refusal :=
  .next (if s.plat.phase = .railsDown then (acceptReset 1 vbatHeld s).usedFree else s)

/-- SUPPLY_DROP (R603): a rail below 90 % of nominal for 1 µs (0.55 V for VDD_CORE) starts a power-on reset. -/
def execSupplyDrop (_rail : Rail) (ns : Nat) (s : State) : Host.Outcome State Fault Refusal :=
  .next (if ns ≥ 1000 ∧ s.plat.phase ≠ .railsDown then
      { s with plat := { s.plat with phase := .railsDown, dropped := true }, host := { s.host with linkUp := false } }
    else s)

/-- Whether a low pulse on RST_N is accepted as a new reset (R589, R591). -/
def resetAccepted (lowNs : Nat) (sinceReleaseNs : Option Nat) (arb : Bool) (s : State) : Bool :=
  let filtered := decide (lowNs ≥ 1500) || (decide (lowNs ≥ 1000) && arb)
  let fresh :=
    match sinceReleaseNs with
    | none => true
    | some t => decide (t > 10000) || (decide (t = 10000) && arb)
  filtered && fresh && s.plat.phase != .railsDown && s.plat.phase != .inReset && s.plat.phase != .netLow

/-- RESET_ACCEPT (R590): the filter accepts a low pulse on RST_N. DEDUCED: log entry 21. -/
def execResetAccept (lowNs : Nat) (sinceReleaseNs : Option Nat) (arb : Bool) (s : State) :
    Host.Outcome State Fault Refusal :=
  .next (if resetAccepted lowNs sinceReleaseNs arb s then (acceptReset 2 true s).usedFree else s)

/-- RESET_RELEASE (R590): the device releases RST_N, and the internal reset lasts until the net reads high too. DEDUCED: log entry 21. -/
def execResetRelease (netHigh : Bool) (s : State) : Host.Outcome State Fault Refusal :=
  .next (if s.plat.phase = .inReset ∨ s.plat.phase = .netLow then
      { s with plat := { s.plat with phase := if netHigh then .released else .netLow } }
    else s)

/-- The logical cores of a die (R122, R530): n of its physical cores in ascending order, those with a failed array only where fewer than n
pass; the rest stand as spares. DEDUCED: log entry 25. -/
def pickLogical (n : Nat) (usable : List Nat) (failed : Nat → Bool) : List Nat × List Nat :=
  let good := (usable.filter fun p => !failed p).take n
  let fill := (usable.filter failed).take (n - good.length)
  (usable.filter fun p => good.contains p || fill.contains p,
   usable.filter fun p => !(good.contains p || fill.contains p))

/-- Give logical numbers to physical compute cores and signal cores, and count the spares (R530). DEDUCED: log entry 25. -/
def assignNumbers (s : State) : State :=
  let usable := fun d => (List.range 44).filterMap fun j =>
    let ph := d * 44 + j
    if s.plat.fusedCores.contains ph ∨ (s.reg raspPage Rg.raspCoreRetirePhysical d).testBit j then none else some ph
  let failed := fun ph => s.plat.probeFails.any fun e => e.1 == ph
  let per : List (List Nat × List Nat) := (List.range 4).map fun d => pickLogical 40 (usable d) failed
  let sig : List (List Nat × List Nat) := (List.range 4).map fun d =>
    pickLogical 16 ((List.range 17).filterMap fun j =>
      let ph := d * 17 + j
      if s.plat.fusedSigcs.contains ph then none else some ph) (fun _ => false)
  let number := fun (w : Nat) (l : List (List Nat)) =>
    ((l.mapIdx fun d ps => ps.mapIdx fun i ph => (d * w + i, ph)).flatten : Table Nat)
  let cores := number 40 (per.map Prod.fst)
  let sigcs := number 16 (sig.map Prod.fst)
  let spares := (per.map Prod.snd).flatten
  let sspares := (sig.map Prod.snd).flatten
  let t := { s with plat := { s.plat with
    corePhysical := cores, sigcPhysical := sigcs,
    freeCores := spares, freeSigcs := sspares } }
  let cnt := fun d => (spares.filter fun ph => ph / 44 == d).length
  let scnt := fun d => (sspares.filter fun ph => ph / 17 == d).length
  t.setReg raspPage Rg.raspSparesFreeCores0 (cnt 0) |>.setReg raspPage Rg.raspSparesFreeCores1 (cnt 1)
    |>.setReg raspPage Rg.raspSparesFreeCores2 (cnt 2) |>.setReg raspPage Rg.raspSparesFreeCores3 (cnt 3)
    |>.setReg raspPage Rg.raspSparesFreeSigc0 (scnt 0) |>.setReg raspPage Rg.raspSparesFreeSigc1 (scnt 1)
    |>.setReg raspPage Rg.raspSparesFreeSigc2 (scnt 2) |>.setReg raspPage Rg.raspSparesFreeSigc3 (scnt 3)

/-- The row repair fields of group g (R127). -/
def rowRepairFields (g : Nat) : RegField × RegField × RegField :=
  match g with
  | 0 => (Rg.coreRowRepairRow0, Rg.coreRowRepairValid0, Rg.coreRowRepairVolatile0)
  | 1 => (Rg.coreRowRepairRow1, Rg.coreRowRepairValid1, Rg.coreRowRepairVolatile1)
  | 2 => (Rg.coreRowRepairRow2, Rg.coreRowRepairValid2, Rg.coreRowRepairVolatile2)
  | _ => (Rg.coreRowRepairRow3, Rg.coreRowRepairValid3, Rg.coreRowRepairVolatile3)

/-- The column repair fields of spare j (R128). -/
def colRepairFields (j : Nat) : RegField × RegField × RegField :=
  if j = 0 then (Rg.coreColRepairColumn0, Rg.coreColRepairValid0, Rg.coreColRepairVolatile0)
  else (Rg.coreColRepairColumn1, Rg.coreColRepairValid1, Rg.coreColRepairVolatile1)

/-- Write one repair of the fuse map into the registers of the logical core that its physical core stands behind. DESIGN CHOICE: log entry
26. -/
def applyFuseRepair (r : ArrayRepair) (s : State) : State :=
  match s.plat.corePhysical.find? fun e => e.2 == r.core with
  | none => s
  | some (c, _) =>
    let f := if r.isColumn then colRepairFields r.index else rowRepairFields r.index
    (s.setReg (corePage c) f.1 r.target (r.array % 4)).setReg (corePage c) f.2.1 1 (r.array % 4)

/-- The forced gang that the fences of a core leave (R114): 0, 1 for a pair, 2 for all. -/
def forcedGangOf (arrays feeders : Nat) : Nat :=
  if arrays != 0 then 2
  else
    let pair0 := popcount 2 (feeders % 4)
    let pair1 := popcount 2 (feeders / 4 % 4)
    if pair0 + pair1 = 0 then 0 else if pair0 = 2 ∨ pair1 = 2 ∨ (pair0 ≥ 1 ∧ pair1 ≥ 1) then 2 else 1

/-- Set the fence bits of a core's arrays and weight feeders, and FORCED_GANG with them (R114, R125). -/
def setArrayState (c arrays feeders : Nat) (s : State) : State :=
  s.setReg (corePage c) Rg.coreArrayStateArrayFenced arrays
    |>.setReg (corePage c) Rg.coreArrayStateFeederFenced feeders
    |>.setReg (corePage c) Rg.coreArrayStateForcedGang (forcedGangOf arrays feeders)

/-- Step 1 of bring-up has ended: steps 2 and 3 follow, the fuse map and numbers (R530) and device time from 0, and step 4 is the lowest
incomplete one (R593, R609). DESIGN CHOICE: log entry 5. -/
def afterStep1 (s : State) : State :=
  if s.plat.waitRefclk || s.plat.waitHot then s
  else
    let env := s.plat.env.getD ⟨true, true, [], [], [], [], 0, []⟩
    let t := { s with
      plat := { s.plat with
        fusedCores := env.fusedCores, fusedSigcs := env.fusedSigcs, fuseRepairs := env.repairs, probeFails := env.probeFails }
      time := {} }
    ((assignNumbers t).each env.repairs applyFuseRepair).setReg rsetPage Rg.rsetBringupStep 4
      |>.setReg mgmtPage Rg.mgmtFuseStateFusedSvn s.fuses.svn
      |>.setReg mgmtPage Rg.mgmtFuseStateOwnerSet (bit (s.fuses.ownerHash != 0))

/-- BRINGUP_START (R593): bring-up begins and step 1 waits for REFCLK_A and for every junction to be below 110 °C. DESIGN CHOICE: log entry
5. -/
def execBringupStart (env : BringEnv) (s : State) : Host.Outcome State Fault Refusal :=
  .next (if s.plat.phase = .released then
      let t := { s with plat := { s.plat with
        phase := .bringup, env := some env, waitRefclk := !env.refclk, waitHot := !env.cool } }
      afterStep1 (t.setReg rsetPage Rg.rsetBringupStep 1
        |>.setReg rsetPage Rg.rsetBringupRefclkOk (bit env.refclk)
        |>.setReg rsetPage Rg.rsetBringupHotWait (bit (!env.cool)))
    else s)

/-- REFCLK_A_PRESENT (R593): the clock that step 1 waits for is present. -/
def execRefclkAPresent (s : State) : Host.Outcome State Fault Refusal :=
  .next (if s.plat.phase = .bringup ∧ s.plat.waitRefclk then
      afterStep1 ({ s with plat := { s.plat with waitRefclk := false } }.setReg rsetPage Rg.rsetBringupRefclkOk 1)
    else s)

/-- HOT_WAIT_END (R593): every junction is below 110 °C while step 1 waits for that. -/
def execHotWaitEnd (s : State) : Host.Outcome State Fault Refusal :=
  .next (if s.plat.phase = .bringup ∧ s.plat.waitHot then
      afterStep1 ({ s with plat := { s.plat with waitHot := false } }.setReg rsetPage Rg.rsetBringupHotWait 0)
    else s)

/-- A CXL port can serve a module at a width and speed (R246): x8 at 64 GT/s, or x8 or x4 at 32 GT/s. -/
def bulkLinkOk (width speed : Nat) : Bool := (width == 2 && speed == 2) || ((width == 1 || width == 2) && speed == 1)
def bulkModuleOk (m : Nat × Nat × Nat × Nat) : Bool := bulkLinkOk m.2.2.1 m.2.2.2

/-- One CXL port that trained in step 8 joins the interleave set with its module's capacity in MiB, which its register shows in GiB (R245,
R248). -/
def joinBulkPort (m : Nat × Nat × Nat × Nat) (s : State) : State :=
  let p := bulkPage m.1
  s.setReg p Rg.bulkPortStatusLinkUp 1 |>.setReg p Rg.bulkPortStatusInSet 1
    |>.setReg p Rg.bulkCapacityModule (min (m.2.1 / 1024) 65535) |>.setReg p Rg.bulkPortStatusWidth m.2.2.1
    |>.setReg p Rg.bulkPortStatusSpeed m.2.2.2

/-- The ports that trained, with modules of the given capacities in MiB, form the interleave set (R244, R245): each brings the smallest
module's capacity rounded down to 2 MiB, at most 2 TiB, which USED shows in whole GiB. DEDUCED: log entry 34. -/
def formBulkSet (modules : List (Nat × Nat × Nat × Nat)) (s : State) : State :=
  match modules.filter bulkModuleOk with
  | [] => s
  | m :: ms =>
    let frames := min (ms.foldl (fun v e => min v e.2.1) m.2.1 / 2) (2 ^ 20)
    let t := s.each (m :: ms) joinBulkPort
    { t with tier := { t.tier with bulkFrames := frames } }.each (m :: ms) fun e u =>
      u.setReg (bulkPage e.1) Rg.bulkCapacityUsed (frames / 512)

/-- REFCLK_A_LOSS (R37): device time and the controller stop, radio egress and core issue stop, HBM contents are lost and
the device takes the host link down; it holds until RST_N. While step 1 waits there is nothing to hold. -/
def execRefclkALoss (s : State) : Host.Outcome State Fault Refusal :=
  .next (if s.alive then
      { s with
        plat := { s.plat with clockHold := true }
        mem := { s.mem with hbm := {} }
        host := { s.host with linkUp := false } }.setReg rsetPage Rg.rsetBringupRefclkOk 0
    else if s.plat.phase = .bringup ∧ !s.plat.clockHold then
      { s with plat := { s.plat with waitRefclk := true } }.setReg rsetPage Rg.rsetBringupRefclkOk 0
    else s)

/-- THERMAL_TRIP (R585, R607): a junction sample; at 115 °C or above THERM_N asserts in every state, and a device that has
begun service sends FAIL, stops core issue and radio egress and holds until RST_N. -/
def execThermalTrip (die : Fin 10) (degrees : Nat) (s : State) : Host.Outcome State Fault Refusal :=
  let t := { s with plat := { s.plat with junctions := tabPut 0 die.val degrees s.plat.junctions } }
  .next (if degrees ≥ 115 ∧ s.plat.phase ≠ .railsDown then
      let hold := s.working
      { t with
        plat := { t.plat with thermN := true, thermalHold := t.plat.thermalHold || hold }
        out := t.out ++ (if hold && s.flag raspPage Rg.raspTwinControlEnable then [.fail] else [])
        twin := { t.twin with failSent := t.twin.failSent || (hold && s.flag raspPage Rg.raspTwinControlEnable) } }
    else t)

/-- The last confirmed VDD_CORE of a die in mV; 750 where nothing was confirmed (R602). PRESUMED: log entry 23. -/
def vddOf (s : State) (d : Nat) : Nat := tabGet 750 d s.plat.vddCore

/-- The last requested VDD_CORE of a die in mV. PRESUMED: log entry 23. -/
def vddRequested (s : State) (d : Nat) : Nat := tabGet (vddOf s d) d s.plat.vddRequest

/-- Request a VDD_CORE over AVSBus: in steps of 5 mV within 600 to 850 mV, and none before the firmware runs (R604). -/
def requestVdd (d mv : Nat) (s : State) : State :=
  let v := max 600 (min 850 (mv / 5 * 5))
  if s.firmware then
    { s with plat := { s.plat with vddRequest := tabSet d v s.plat.vddRequest }, out := s.out ++ [.avs d v] }
  else s

/-- VDD_CORE_STEP_UP (R30): the controller raises the die's VDD_CORE by one AVSBus step for a reported low window. -/
def execVddCoreStepUp (die : Fin 4) (s : State) : Host.Outcome State Fault Refusal :=
  .next (if s.plat.stepDue.contains die.val ∧ s.firmware then
      requestVdd die.val (vddRequested s die.val + 5)
        { s with plat := { s.plat with stepDue := s.plat.stepDue.erase die.val } }
    else s)

/-- The cores and signal cores of a compute die, by monitor number (R18, R20): core c at c, signal core k at 160 + k. -/
def monitorsOf (d : Nat) : List Nat := (List.range 40).map (40 * d + ·) ++ (List.range 16).map (160 + 16 * d + ·)

/-- The wave-rate windows of a monitor that ended in the last 1 ms and that no later one falls below (R28). -/
def recentLows (s : State) (i : Nat) : List Nat :=
  ((tabGet [] i s.radio.lows).filter fun e => decide (e.1 + 1000000 ≥ s.now)).map (·.2)

/-- A VDD_CORE below 0.68 V may be requested (R27): the die's last junction sample is below 95 °C, and every window of its cores and signal
cores over the last 1 ms is at least 1,600. A die without a sample or a window does not qualify. DEDUCED: log entry 24. -/
def belowFloorAllowed (s : State) (d : Nat) : Bool :=
  let lows := ((monitorsOf d).map (recentLows s)).flatten
  (match tabFind d s.plat.junctions with
   | some j => decide (j < 95)
   | none => false) && !lows.isEmpty && lows.all fun r => decide (r ≥ 1600)

/-- The value that the policy of R584 and R27 sets: the highest within power and 2.3 G waves/s, not below the floor's value, below 680 mV
only where that is allowed, and lower than now by at most one step, and only where the last lowering is 1 ms ago. -/
def vddTarget (cur mvPower mvRate mvFloor : Nat) (low lowerNow : Bool) : Nat :=
  let want := max mvFloor (min 850 (min mvPower mvRate))
  let want := if want < 680 ∧ !low then 680 else want
  if want < cur then (if lowerNow then max want (cur - 5) else cur) else want

/-- VDD_CORE_POLICY (R27, R584): the controller's millisecond decision for one die. -/
def execVddCorePolicy (die : Fin 4) (mvPower mvRate mvFloor : Nat) (s : State) : Host.Outcome State Fault Refusal :=
  let d := die.val
  let cur := vddRequested s d
  let lowerNow := match tabFind d s.plat.loweredAt with
    | some at_ => decide (s.now ≥ at_ + 1000000)
    | none => true
  let v := vddTarget cur mvPower mvRate mvFloor (belowFloorAllowed s d) lowerNow
  let t := requestVdd d v s
  .next (if v < cur ∧ s.firmware then { t with plat := { t.plat with loweredAt := tabSet d s.now t.plat.loweredAt } } else t)

/-- AVS_TRANSACTION (R604): the regulator confirms the value, or the transaction fails; the third failure in a row sets
AVS_FAULT, records 0x0904 and leaves the last confirmed value assumed. -/
def execAvsTransaction (die : Fin 4) (mv : Nat) (ok : Bool) (s : State) : Host.Outcome State Fault Refusal :=
  let d := die.val
  let faults := s.reg rsetPage Rg.rsetSupplyStatusAvsFault
  let fails := tabGet 0 d s.plat.avsFails + 1
  .next (if !s.firmware then s
    else if ok then
      { s with plat := { s.plat with
        vddCore := tabSet d mv s.plat.vddCore, avsFails := tabDel d s.plat.avsFails } }.setReg rsetPage
          Rg.rsetSupplyStatusAvsFault (faults - (if faults.testBit d then 2 ^ d else 0))
    else if fails < 3 then { s with plat := { s.plat with avsFails := tabSet d fails s.plat.avsFails } }
    else
      (({ s with plat := { s.plat with
        avsFails := tabDel d s.plat.avsFails, vddRequest := tabSet d (vddOf s d) s.plat.vddRequest } }.setReg rsetPage
          Rg.rsetSupplyStatusAvsFault (faults ||| 2 ^ d)).error rsetPage 0x0904 d 0).raise rsetPage 3)

/-- VBAT_LOW (R609): VBAT falls below 1.9 V, or is back at or above it. -/
def execVbatLow (low : Bool) (s : State) : Host.Outcome State Fault Refusal :=
  .next (if s.alive then
      let was := s.flag rsetPage Rg.rsetSupplyStatusVbatLow
      (s.setReg rsetPage Rg.rsetSupplyStatusVbatLow (bit low)).raiseBits rsetPage (if low && !was then 4 else 0)
    else s)

end Sys2Proof.Machine
end

