-- ==== Sys2Proof/Machine/Arrays.lean ====
section
/-! DEFINITION. The matrix arrays: descriptors and their checks (R99, R104, R142 to R147), passes (R70, R95 to R111), tile
loads (R100), gangs (R112 to R116), probes and repairs (R117 to R128). -/

namespace Sys2Proof.Machine

/-- PAIRING codes of R146. -/
def pairingOf : Nat → Option Pairing
  | 0 => some .z8z8
  | 1 => some .z8z4
  | 2 => some .z8t2
  | 3 => some .z16
  | 4 => some .cplx4
  | 5 => some .cplx3
  | _ => none

/-- A complex pairing. -/
def isCplx : Pairing → Bool
  | .cplx4 | .cplx3 => true
  | _ => false

/-- Elements packed into one cell along the reduction (R92). -/
def packOf : Pairing → Nat
  | .z8z4 => 2
  | .z8t2 => 4
  | _ => 1

/-- Waves per row (R92, R109). -/
def wavesPerRow (p : Pairing) (transposed : Bool) : Nat :=
  match p with
  | .z8z8 => 1
  | .z8z4 => if transposed then 2 else 1
  | .z8t2 => if transposed then 4 else 1
  | .z16 => 4
  | .cplx4 => 16
  | .cplx3 => 12

/-- FORMAT code of the activations and of the weights (R142). -/
def actFormat : Pairing → Nat
  | .z8z8 | .z8z4 | .z8t2 => 0
  | _ => 3
def weightFormat : Pairing → Nat
  | .z8z8 => 0
  | .z8z4 => 1
  | .z8t2 => 2
  | _ => 3

/-- Outputs per activation row, a complex output counting once (R92, R109). -/
def outputsPerRow (p : Pairing) (transposed : Bool) : Nat := if transposed then 128 * packOf p else 64

/-- Records, and elements of a stored row, per activation row (R103, R106). -/
def recordsPerRow (p : Pairing) (transposed : Bool) : Nat :=
  outputsPerRow p transposed * (if isCplx p then 2 else 1)

/-- Elements of an activation row (R92, R109): reduction elements, real and imaginary counting two. -/
def actElements (p : Pairing) (transposed : Bool) : Nat :=
  (if transposed then 64 else 128 * packOf p) * (if isCplx p then 2 else 1)

/-- A tensor descriptor (R142). -/
structure TDesc where
  elemAddr : Nat
  format : Nat
  blockLen : Nat
  alongX : Bool
  scaleAddr : Nat
  first : Nat
  lineStride : Nat
  scaleStride : Nat
  deriving DecidableEq, Repr

/-- The tensor descriptor at a byte offset of a command descriptor. -/
def tensorAt (d : BitVec 512) (off : Nat) : TDesc :=
  { elemAddr := dField d off 0 22
    format := dField d off 22 2
    blockLen := match dField d off 24 2 with
      | 0 => 16
      | 1 => 24
      | _ => 32
    alongX := dField d off 26 1 = 1
    scaleAddr := dField d (off + 4) 0 22
    first := dField d (off + 4) 22 5
    lineStride := dField d (off + 8) 0 22
    scaleStride := dField d (off + 12) 0 22 }

/-- Element width in bits of a FORMAT code. -/
def formatBits : Nat → Nat
  | 0 => 8
  | 1 => 4
  | 2 => 2
  | _ => 16

/-- The bit position of element y of item x within the element plane, and its exponent's byte (R143). -/
def elemPlace (t : TDesc) (q x y : Nat) : Nat × Nat :=
  let w := formatBits t.format
  if t.alongX then
    (8 * (t.elemAddr + y / q * t.lineStride) + w * (t.first + q * x + y % q),
     t.scaleAddr + y / q * t.scaleStride + (t.first + q * x) / t.blockLen)
  else
    (8 * (t.elemAddr + x * t.lineStride) + w * (t.first + y),
     t.scaleAddr + x * t.scaleStride + (t.first + y) / t.blockLen)

/-- The reserved bits of a tensor descriptor at a byte offset. -/
def tensorReserved (off : Nat) : List (Nat × Nat) :=
  [(8 * off + 27, 8 * off + 32), (8 * off + 59, 8 * off + 64), (8 * off + 86, 8 * off + 96), (8 * off + 118, 8 * off + 128)]

/-- The failures of a tensor descriptor (R144), as byte offsets: those of one field at its lowest byte, those of several at
the lowest byte of any of them (R137). fmtOk tells whether FORMAT suits the command; a mismatch with PAIRING or ACTION is
reported at fmtAt. -/
def tensorErrs (d : BitVec 512) (off fmtAt : Nat) (fmtOk cplx output weight : Bool) : List Nat :=
  let t := tensorAt d off
  let bl := dField d off 24 2
  reservedErrs d (tensorReserved off)
    ++ (if fmtOk then [] else [fmtAt])
    ++ (if t.format = 3 then (if bl = 3 then [off + 3] else []) else if bl = 2 then [] else [off + 2])
    ++ (if t.first < t.blockLen then [] else [off + 3])
    ++ (if cplx ∧ t.first % 2 = 1 then [0] else [])
    ++ (if output ∧ t.first ≠ 0 then [off + 6] else [])
    ++ (if weight ∧ (t.format = 1 ∨ t.format = 2) ∧ !t.alongX then [off + 2] else [])

/-- The furthest element bit and exponent byte that an operand of xs items and ys elements reaches lie within 4 MiB. -/
def tensorInSpad (t : TDesc) (q xs ys : Nat) : Bool :=
  let e := elemPlace t q (xs - 1) (ys - 1)
  decide (e.1 + formatBits t.format ≤ 2 ^ 25) && decide (e.2 < 2 ^ 22)

/-- The output's last block, filled to its length (R145), lies within 4 MiB. -/
def outputInSpad (t : TDesc) (q xs ys : Nat) : Bool :=
  let w := formatBits t.format
  let lines := if t.alongX then ys / q else xs
  let len := if t.alongX then q * xs else ys
  let blocks := (len + t.blockLen - 1) / t.blockLen
  decide (8 * (t.elemAddr + (lines - 1) * t.lineStride) + w * blocks * t.blockLen ≤ 2 ^ 25) &&
    decide (t.scaleAddr + (lines - 1) * t.scaleStride + blocks ≤ 2 ^ 22)

/-- The fields of the array-pass descriptor (R146). -/
structure PassDesc where
  array : Nat
  gang : Nat
  pairing : Pairing
  transpose : Bool
  swap : Bool
  action : Nat
  stochastic : Bool
  rows : Nat
  kindex : Nat
  bankRow : Nat
  tag : BitVec 32
  act : TDesc
  out : TDesc
  requant : Nat
  deriving DecidableEq, Repr

/-- Read an array-pass descriptor. -/
def passDesc (d : BitVec 512) : PassDesc :=
  { array := dField d 0 0 2
    gang := dField d 0 2 2
    pairing := (pairingOf (dField d 0 4 3)).getD .z8z8
    transpose := dField d 0 7 1 = 1
    swap := dField d 0 8 1 = 1
    action := dField d 0 9 3
    stochastic := dField d 0 12 1 = 1
    rows := dField d 4 0 14 + 1
    kindex := dField d 4 16 16
    bankRow := dField d 8 0 11
    tag := d.extractLsb' 96 32
    act := tensorAt d 0x10
    out := tensorAt d 0x20
    requant := dField d 0x30 0 22 }

/-- What an ACTION does (R105): store blocks, write records, read the bank, write the bank. -/
def actStores (a : Nat) : Bool := a == 0 || a == 4
def actRecords (a : Nat) : Bool := a == 1 || a == 5
def actReadsBank (a : Nat) : Bool := a == 3 || a == 4 || a == 5
def actWritesBank (a : Nat) : Bool := a == 2 || a == 3

/-- The arrays of a core whose cells are in service. -/
def arraysInService (s : State) (c : Nat) : List Nat :=
  let f := s.reg (corePage c) Rg.coreArrayStateArrayFenced
  (List.range 4).filter fun a => !f.testBit a

/-- The arrays that a command runs on (R99, R112): its own, its pair, or every array in service. -/
def membersOf (s : State) (c array gang : Nat) : List Nat :=
  if gang = 0 then [array] else if gang = 1 then [array, array + 1] else arraysInService s c

/-- The pairing of the resident and shadow tiles that the queued commands of an array leave (R147). -/
def queuedPairings (x : Core) (a : Nat) : Option Pairing × Option Pairing :=
  let st := tabGet {} a x.arrays
  let start := (st.resident.pairing, st.shadow.pairing)
  x.arrayQueue.foldl (fun p q =>
    if !q.members.contains a then p
    else if q.pass then (if (passDesc q.desc).swap && !q.started then (p.2, p.1) else p)
    else (p.1, pairingOf (dField q.desc 0 4 3))) start

/-- The members' own share of a gang's rows (R112). -/
def shareOf (rows g : Nat) : Nat := (rows + g - 1) / g

/-- The failures of a pass descriptor, as byte offsets (R99, R104, R137, R144, R146, R147). DEDUCED: log entry 43. -/
def passErrs (c : Nat) (d : BitVec 512) (s : State) : List Nat :=
  let p := passDesc d
  let gangBad := p.gang = 3 ∨ (p.gang = 1 ∧ p.array % 2 = 1) ∨
    (p.gang = 2 ∧ (arraysInService s c).contains p.array ∧ (arraysInService s c).head? ≠ some p.array)
  let ms := membersOf s c p.array p.gang
  let f := recordsPerRow p.pairing p.transpose / 64
  let q := if isCplx p.pairing then 2 else 1
  let usesOut := actStores p.action || actRecords p.action
  let usesBank := actReadsBank p.action || actWritesBank p.action
  let outs := outputsPerRow p.pairing p.transpose
  let pairBad := ms.any fun a =>
    let qp := queuedPairings (s.core c) a
    match if p.swap then qp.2 else qp.1 with
    | some t => t != p.pairing
    | none => false
  reservedErrs d ([(13, 32), (46, 48), (75, 96), (0x34 * 8, 0x40 * 8)]
      ++ (if usesOut then [] else [(0x20 * 8, 0x30 * 8)])
      ++ (if actStores p.action then [(0x30 * 8 + 22, 0x34 * 8)] else [(0x30 * 8, 0x34 * 8)]))
    ++ (if gangBad ∨ (pairingOf (dField d 0 4 3)).isNone ∨ pairBad then [0] else [])
    ++ (if p.action ≥ 6 then [1] else [])
    ++ tensorErrs d 0x10 0 (p.act.format == actFormat p.pairing) (isCplx p.pairing) false false
    ++ (if tensorInSpad p.act q p.rows (actElements p.pairing p.transpose) then [] else [0])
    ++ (if actStores p.action then
        (if p.out.format = 2 then [0x22] else []) ++ tensorErrs d 0x20 0x22 true (isCplx p.pairing) true false
          ++ (if outputInSpad p.out q p.rows (recordsPerRow p.pairing p.transpose) then [] else [0])
          ++ (if p.requant + 4 * outs ≤ 2 ^ 22 then [] else [0])
      else if actRecords p.action then
        tensorErrs d 0x20 1 (p.out.format == 3 && dField d 0x20 24 2 == 2 && !p.out.alongX) (isCplx p.pairing) true false
          ++ (if p.out.elemAddr + (p.rows - 1) * p.out.lineStride + 8 * recordsPerRow p.pairing p.transpose ≤ 2 ^ 22 then []
            else [0])
      else [])
    ++ (if usesBank ∧ p.bankRow + f * shareOf p.rows (max 1 ms.length) > 2048 then [0] else [])

/-- The failures of a tile-load descriptor (R99, R144, R147). -/
def loadErrs (c : Nat) (d : BitVec 512) (s : State) : List Nat :=
  let array := dField d 0 0 2
  let gang := dField d 0 2 2
  let pr := (pairingOf (dField d 0 4 3)).getD .z8z8
  let gangBad := gang = 3 ∨ (gang = 1 ∧ array % 2 = 1) ∨
    (gang = 2 ∧ (arraysInService s c).contains array ∧ (arraysInService s c).head? ≠ some array)
  let t := tensorAt d 0x10
  let q := if isCplx pr then 2 else 1
  reservedErrs d [(7, 128), (0x20 * 8, 512)]
    ++ (if gangBad ∨ (pairingOf (dField d 0 4 3)).isNone then [0] else [])
    ++ tensorErrs d 0x10 0 (t.format == weightFormat pr) (isCplx pr) false true
    ++ (if tensorInSpad t q (128 * packOf pr) (64 * q) then [] else [0])

/-- ARRAY_FENCED at issue (R112, R115): a fenced array is named, or the forced gang forbids the command's gang. -/
def arrayFencedBy (c : Nat) (d : BitVec 512) (s : State) : Option Nat :=
  let array := dField d 0 0 2
  let gang := dField d 0 2 2
  let p := corePage c
  let forced := s.reg p Rg.coreArrayStateForcedGang
  let feeders := s.reg p Rg.coreArrayStateFeederFenced
  let ms := membersOf s c array gang
  let fencedCells := s.reg p Rg.coreArrayStateArrayFenced
  if fencedCells.testBit array ∨ ms.any fencedCells.testBit then some array
  else if forced = 2 ∧ gang ≠ 2 then some array
  else if forced = 1 ∧ gang = 0 ∧ (feeders.testBit array ∨ feeders.testBit (if array % 2 = 0 then array + 1 else array - 1)) then
    some array
  else none

/-- An array's queue is full: eight commands outstanding (R138). -/
def arrayFull (c : Nat) (d : BitVec 512) (s : State) : Bool :=
  (membersOf s c (dField d 0 0 2) (dField d 0 2 2)).any fun a =>
    decide (((s.core c).arrayQueue.filter fun q => q.members.contains a).length ≥ 8)

/-- The generator key of a core (R508, R509). DEDUCED: log entry 70. -/
def rngSeed (s : State) (c : Nat) : BitVec 128 :=
  BitVec.ofNat 128 ((List.range 4).foldl (fun t i => t + s.reg (corePage c) Rg.coreRngSeedSeed i * 2 ^ (32 * i)) 0)
def rngStep (s : State) (c : Nat) : BitVec 64 := BitVec.ofNat 64 (s.reg (corePage c) Rg.coreRngStepStep)

/-- Put an array command at the end of the core's array commands. -/
def enqueueArray (c : Nat) (pass : Bool) (q : QueuedCmd) (x : Core) (s : State) : Core :=
  { x with arrayQueue := x.arrayQueue ++ [
      { pass := pass, desc := q.desc, members := membersOf s c (dField q.desc 0 0 2) (dField q.desc 0 2 2), pc := q.pc,
        tag := q.tag, seed := rngSeed s c, step := rngStep s c }] }

/-- ISSUE_ARRAY_PASS (R136, R137, R146). -/
def execIssueArrayPass (c : Fin 160) (w : IssueWord) (s : State) : Host.Outcome State Fault Refusal :=
  .next (runInsn c (· == issueWord 0 w) (issueBody c 0 w (fun d t => leastOf (passErrs c d t)) (arrayFencedBy c) (arrayFull c)
    (enqueueArray c true)) s)

/-- ISSUE_TILE_LOAD (R136, R137, R147). -/
def execIssueTileLoad (c : Fin 160) (w : IssueWord) (s : State) : Host.Outcome State Fault Refusal :=
  .next (runInsn c (· == issueWord 1 w) (issueBody c 1 w (fun d t => leastOf (loadErrs c d t)) (arrayFencedBy c) (arrayFull c)
    (enqueueArray c false)) s)

/-- The signed value of an element's code: two's complement, and for T2 the codes of R58. -/
def elemValue (w code : Nat) : Int :=
  if w = 2 then (if code = 1 then 1 else if code = 3 then -1 else 0) else signed w code

/-- Read the element at a bit position of a core's scratchpad. -/
def spadElem (s : State) (c w pos : Nat) : Option Nat :=
  match (readAll .spad s.mem.spad (spadKey c (pos / 8)) ((pos % 8 + w + 7) / 8)) with
  | none => none
  | some bs => some (leNat bs / 2 ^ (pos % 8) % 2 ^ w)

/-- The elements of a line that an operand of xs items and ys elements uses, from FIRST on (R143). -/
def lineLength (t : TDesc) (q xs ys : Nat) : Nat := if t.alongX then q * xs else ys

/-- The bytes of the element plane that hold the elements which an operand of len elements a line uses of the block of element y of item x:
first byte and length (R56, R57, R143, R162). -/
def blockPlace (t : TDesc) (q len x y : Nat) : Nat × Nat :=
  let line := if t.alongX then t.elemAddr + y / q * t.lineStride else t.elemAddr + x * t.lineStride
  let pos := if t.alongX then t.first + q * x + y % q else t.first + y
  let w := formatBits t.format
  let lo := max t.first (pos / t.blockLen * t.blockLen)
  let hi := min (t.first + len) ((pos / t.blockLen + 1) * t.blockLen)
  (line + w * lo / 8, (w * hi + 7) / 8 - w * lo / 8)

/-- The codewords of a core's scratchpad that the feeder takes for an operand of xs items and ys elements: those that hold elements it uses
or the exponents of their blocks (R162). -/
def operandWords (c : Nat) (t : TDesc) (q xs ys : Nat) : List Nat :=
  let places := ((List.range xs).map fun x => (List.range ys).map fun y =>
    (blockPlace t q (lineLength t q xs ys) x y, (elemPlace t q x y).2)).flatten.eraseDups
  let all := (places.map fun e => (spadKey c e.2 / 8) :: wordsOf .spad (spadKey c e.1.1) e.1.2).flatten
  (all.foldl (fun m w => tabSet w () m) ([] : Table Unit)).map Prod.fst

/-- The parity errors that a pass meets in the resident tiles of its members are counted (R94, R522). -/
def countParity (c : Nat) (members : List Nat) (s : State) : State :=
  let n := members.foldl (fun n a => n + (tabGet {} a (s.core c).arrays).resident.badParity.length) 0
  (s.addReg raspPage Rg.raspUncorrectedCount n).bump (corePage c) Rg.pageErrorCountCount n

/-- The exponent byte of an element's block as the feeder delivers it: 0x80 too where the exponent or an element that the operand uses of the
block lies in a codeword that cannot be corrected (R62, R94, R162, R523); len counts the elements used of each line. -/
def operandExp (s : State) (c : Nat) (t : TDesc) (q len x y : Nat) : Byte :=
  let b := blockPlace t q len x y
  if (wordsOf .spad (spadKey c b.1) b.2).any (cwBad .spad s.mem.spad) then 0x80
  else (readByte .spad s.mem.spad (spadKey c (elemPlace t q x y).2)).getD 0x80

/-- An element of an operand as the feeder delivers it: exponent and code; none for an element of a poisoned block (R61, R523). -/
def operandElem (s : State) (c : Nat) (t : TDesc) (q len x y : Nat) : Option (Int × Nat) :=
  let e := operandExp s c t q len x y
  if e = 0x80 then none
  else (spadElem s c (formatBits t.format) (elemPlace t q x y).1).map fun v => (e.toInt, v)

/-- The elements of activation row m; none where any block of it is poisoned, which poisons every output of the row (R85). -/
def actRow (s : State) (c : Nat) (p : PassDesc) (m : Nat) : Option (List (Int × Int)) :=
  let q := if isCplx p.pairing then 2 else 1
  let n := actElements p.pairing p.transpose
  (List.range n).mapM fun y =>
    (operandElem s c p.act q (lineLength p.act q p.rows n) m y).map fun e => (e.1, elemValue (formatBits p.act.format) e.2)

/-- Cell (k, n) of a tile: exponent and weight field; none for a poisoned cell (R94, R520, R629). -/
def tileCell (t : Tile) (k n : Nat) : Option (Int × Nat) :=
  if t.pairing.isNone ∨ t.badParity.contains (k * 64 + n) then none
  else
    let v := tabGet (0x8000000000#40) (k * 64 + n) t.cells
    let e : BitVec 8 := v.extractLsb' 32 8
    if e = 0x80 then none else some (e.toInt, (v.extractLsb' 0 32).toNat)

/-- A weight of a cell: the i-th packed element, or for a complex pairing the real (0) or imaginary (1) part (R91). -/
def cellWeight (p : Pairing) (field i : Nat) : Int :=
  match p with
  | .z8z8 => signed 8 field
  | .z8z4 => signed 4 (field / 16 ^ i)
  | .z8t2 => elemValue 2 (field / 4 ^ i % 4)
  | .z16 => signed 16 field
  | .cplx4 | .cplx3 => signed 16 (field / 65536 ^ i)

/-- A term of an output: exponent sum and exact product; part is 0 for a real output or the real part, 1 for the imaginary
part. The three-product method gives the same components (R72 to R74). -/
def passTerm (p : Pairing) (row : List (Int × Int)) (j : Nat) (cell : Int × Nat) (sub part : Nat) : Int × Int :=
  let at_ := fun i => row.getD i (0, 0)
  if isCplx p then
    let a := (at_ (2 * j)).2
    let b := (at_ (2 * j + 1)).2
    let cr := cellWeight p cell.2 0
    let di := cellWeight p cell.2 1
    ((at_ (2 * j)).1 + cell.1, if part = 0 then a * cr - b * di else a * di + b * cr)
  else ((at_ j).1 + cell.1, (at_ j).2 * cellWeight p cell.2 sub)

/-- Output y of an activation row on a tile, y counting parts for a complex pairing (R70, R94, R109). -/
def passOutput (p : PassDesc) (tile : Tile) (row : Option (List (Int × Int))) (y : Nat) : Acc :=
  let cx := isCplx p.pairing
  let n := if cx then y / 2 else y
  let part := if cx then y % 2 else 0
  let pk := packOf p.pairing
  match row with
  | none => accPoison
  | some r =>
    let cells := if p.transpose then (List.range 64).mapM fun j => (tileCell tile (n / pk) j).map fun c => (j, c, n % pk)
      else (List.range (128 * pk)).mapM fun j => (tileCell tile (j / pk) n).map fun c => (j, c, j % pk)
    match cells with
    | none => accPoison
    | some cs => accForm false (cs.map fun e => passTerm p.pairing r e.1 e.2.1 e.2.2 part)

/-- A T2 weight of a cell that is not poisoned has the code 0b10 (R58). A pass decodes its resident tile, whatever its rows hold, and a tile
load decodes nothing. DESIGN CHOICE: log entry 114. -/
def tileHasBadCode (t : Tile) : Bool :=
  t.pairing == some .z8t2 && (List.range 8192).any fun i =>
    match tileCell t (i / 64) (i % 64) with
    | none => false
    | some c => (List.range 4).any fun j => c.2 / 4 ^ j % 4 == 2

/-- The accumulators that an ACTION leaves for one activation row, the bank's records being the earlier operands (R75), and the flags:
ACC_OVF and POISON. The pass's own sum sets ACC_OVF (R67) even where the bank's record is poisoned. DESIGN CHOICE: log entry 114. -/
def rowResult (p : PassDesc) (outs : List Acc) (bank : List (BitVec 64)) : List Acc × Nat :=
  let own := outs.any fun a => a.ovf ≠ .none
  if actReadsBank p.action then
    let pairs := bank.zip outs
    let rs := pairs.map fun e => accCombine (accUnpack e.1) e.2
    (rs, (if own || pairs.any (fun e => accCombineOvf (accUnpack e.1) e.2) then 2 else 0) + (if rs.any (·.poison) then 8 else 0))
  else (outs, (if own then 2 else 0) + (if outs.any (·.poison) then 8 else 0))

/-- Which member forms activation row m, and the row's position in its share (R112). -/
def memberOfRow (members : List Nat) (rows m : Nat) : Nat × Nat :=
  let sh := shareOf rows (max 1 members.length)
  (members.getD (m / sh) 0, m % sh)

/-- The bank rows of position i of a share (R103). -/
def bankRowsOf (p : PassDesc) (i : Nat) : List Nat :=
  let f := recordsPerRow p.pairing p.transpose / 64
  (List.range f).map fun j => p.bankRow + f * i + j

/-- The records of a bank row as a pass reads them: one that its code cannot correct reads as poisoned (R520, R523). -/
def rowRecords (b : BankRow) : List (BitVec 64) :=
  b.records.mapIdx fun i r => if popcount 72 (tabGet 0 i b.flips) ≥ 2 then 2 ^ 59 else r

/-- The records that the bank of an array holds at a row's positions. -/
def bankRecords (x : Core) (a : Nat) (rows : List Nat) : List (BitVec 64) :=
  (rows.map fun r => ((tabFind r (tabGet {} a x.arrays).bank).map rowRecords).getD []).flatten

/-- The injected errors in the bank rows of an array: flipped bits of each record that a read meets. -/
def bankErrors (x : Core) (a : Nat) (rows : List Nat) : List Nat :=
  (rows.map fun r => match tabFind r (tabGet {} a x.arrays).bank with
    | some b => b.flips.map fun e => popcount 72 e.2
    | none => []).flatten

/-- The lowest bank row at which a chained pass breaks the order of KINDEX (R107), with its array. -/
def orderFault (x : Core) (p : PassDesc) (members : List Nat) : Option (Nat × Nat) :=
  if !actReadsBank p.action then none
  else
    let bad := ((List.range p.rows).map fun m =>
      let mi := memberOfRow members p.rows m
      (bankRowsOf p mi.2).filterMap fun r =>
        match tabFind r (tabGet {} mi.1 x.arrays).bank with
        | some b => if b.kindex + 1 = p.kindex then none else some (r, mi.1)
        | none => some (r, mi.1)).flatten
    match bad with
    | [] => none
    | e :: es => some (es.foldl (fun m y => if y.1 < m.1 then y else m) e)

/-- Discard commands of a queue, their tags completing with ENGINE_ERROR (R183). -/
def dropCmds (drop : ArrayCmd → Bool) (x : Core) : Core :=
  let gone := x.arrayQueue.filter drop
  gone.foldl (fun y q => finishTag q.tag true y) { x with arrayQueue := x.arrayQueue.filter fun q => !drop q }

/-- Commands that share an array. -/
def shareArray (a b : ArrayCmd) : Bool := a.members.any b.members.contains

/-- An array command fails before it starts: it and the commands behind it on its arrays are discarded with ENGINE_ERROR, and
its deferred cause is recorded (R183). -/
def failArrayCmd (c : Nat) (i : Nat) (q : ArrayCmd) (cause unit detail : Nat) (s : State) : State :=
  let x := s.core c
  let later := (x.arrayQueue.drop i).filter fun r => shareArray q r
  let y := later.foldl (fun y r => finishTag r.tag true y)
    { x with arrayQueue := x.arrayQueue.take i ++ (x.arrayQueue.drop i).filter fun r => !shareArray q r }
  deferCause c cause unit detail q.pc (s.setCore c y)

/-- Whether the command at position i may start (R100, R101, R112, R113, R139): earlier commands of its arrays have started; a
gang waits for all of them to end; a pass waits for earlier passes, and with SWAP for earlier loads; a load waits for
earlier loads. -/
def mayStart (x : Core) (i : Nat) (q : ArrayCmd) : Bool :=
  let earlier := (x.arrayQueue.take i).filter (shareArray q)
  let gang := dField q.desc 0 2 2 ≠ 0
  let swap := q.pass && (passDesc q.desc).swap
  !q.started && earlier.all fun r =>
    r.started && !gang && (if q.pass then !r.pass && !swap else r.pass)

/-- The position of the first command that has not started, of a kind, whose lowest member is the array. -/
def nextCmd (x : Core) (pass : Bool) (array : Nat) : Option (Nat × ArrayCmd) :=
  (x.arrayQueue.mapIdx fun i q => (i, q)).find? fun e => e.2.pass == pass && !e.2.started && e.2.members.head? == some array

/-- An array command runs now on the core: it is working, not held by a preemption's own stop, and its arrays are alive. -/
def enginesRun (s : State) (c : Nat) : Bool :=
  s.working && !s.flag (corePage c) Rg.pageStatusFrozen && !s.flag (corePage c) Rg.pageStatusFenced &&
    !s.flag (corePage c) Rg.coreSkewProbeBusy &&
    (s.core c).run != .forcedSave && (s.core c).run != .restoring

/-- Exchange the resident and the shadow tile of an array (R101). -/
def swapTiles (a : Nat) (x : Core) : Core :=
  let st := tabGet {} a x.arrays
  { x with arrays := tabPut {} a { st with resident := st.shadow, shadow := st.resident } x.arrays }

/-- Output i of a member's row is reduced through one of the cells given, array × 8,192 + row × 64 + column (R109, R630). -/
def throughCell (p : PassDesc) (member : Nat) (cells : List Nat) (i : Nat) : Bool :=
  let n := if isCplx p.pairing then i / 2 else i
  cells.any fun d => d / 8192 == member && (if p.transpose then d % 8192 / 64 == n / packOf p.pairing else d % 64 == n)

/-- Form what a pass delivers: its rows of records, poisoned records having free VALUE bits, and its flags. The VALUE of a record that is
reduced through a stage with an undetected defect is free too, with no other sign (R630). -/
def formPass (s : State) (c : Nat) (p : PassDesc) (members defects : List Nat) : List (List (BitVec 64)) × Nat :=
  let x := s.core c
  let y := recordsPerRow p.pairing p.transpose
  let rows := (List.range p.rows).map fun m =>
    let mi := memberOfRow members p.rows m
    let tile := (tabGet {} mi.1 x.arrays).resident
    let outs := (List.range y).map (passOutput p tile (actRow s c p m))
    rowResult p outs (bankRecords x mi.1 (bankRowsOf p mi.2))
  let code := members.any fun a => tileHasBadCode (tabGet {} a x.arrays).resident
  (rows.mapIdx fun m r => r.1.mapIdx fun i a =>
     let v := accPack (s.free 48 (m * y + i)) a
     if !a.poison && throughCell p (memberOfRow members p.rows m).1 defects i then (v.extractLsb' 48 16) ++ s.free 48 (m * y + i) else v,
   rows.foldl (fun f r => f ||| r.2) (if code then 4 else 0))

/-- A pass that reads the bank counts its corrected and uncorrectable records (R522). -/
def countBank (c : Nat) (p : PassDesc) (members : List Nat) (s : State) : State :=
  let x := s.core c
  let errs := if actReadsBank p.action then ((List.range p.rows).map fun m =>
      let mi := memberOfRow members p.rows m
      bankErrors x mi.1 (bankRowsOf p mi.2)).flatten
    else []
  let bad := (errs.filter fun n => decide (n ≥ 2)).length
  (s.addReg raspPage Rg.raspCorrectedCount (errs.length - bad) |>.addReg raspPage Rg.raspUncorrectedCount bad).bump
    (corePage c) Rg.pageErrorCountCount bad

/-- ARRAY_PASS_START (R95, R101, R107, R112): the pass reaches wave 0; a member fenced meanwhile, or a KINDEX out of order, fails it with no
effect. A forced gang that has come to hold since it was issued (R115) does not. DESIGN CHOICE: log entry 114. -/
def execArrayPassStart (c : Fin 160) (array : Fin 4) (defects : List Nat) (s : State) : Host.Outcome State Fault Refusal :=
  let x := s.core c
  .next (match nextCmd x true array.val with
    | none => s
    | some (i, q) =>
      if !(enginesRun s c && mayStart x i q) then s
      else
        let p := passDesc q.desc
        let fenced := s.reg (corePage c) Rg.coreArrayStateArrayFenced
        if q.members.any fenced.testBit then failArrayCmd c i q 0x0A ((q.members.find? fenced.testBit).getD 0) ((q.members.find? fenced.testBit).getD 0) s
        else
          match orderFault x p q.members with
          | some (row, a) => failArrayCmd c i q 0x09 a row s
          | none =>
            let y := if p.swap then q.members.foldl (fun y a => swapTiles a y) x else x
            let t := s.setCore c y
            let r := formPass t c p q.members defects
            let q' := { q with started := true, rows := r.1, flags := r.2 }
            let ws := operandWords c p.act (if isCplx p.pairing then 2 else 1) p.rows (actElements p.pairing p.transpose)
            countBank c p q.members <| countParity c q.members (((t.setCore c { y with arrayQueue := y.arrayQueue.set i q' }).usedFree
              (p.rows * recordsPerRow p.pairing p.transpose)).readWords .spad ws))

/-- A requantization entry (R79): q and s; none where it cannot be read, which poisons its channel. -/
def requantEntry (s : State) (c a : Nat) : Option (Nat × Nat) :=
  (s.spadRead c a 4).map fun b => (leNat b % 2 ^ 16, leNat b / 2 ^ 16 % 64)

/-- What enters a block for element y of row m (R79, R81). -/
def storeElem (s : State) (c : Nat) (p : PassDesc) (rows : List (List (BitVec 64))) (m y : Nat) : StoreIn :=
  let a := accUnpack ((rows.getD m []).getD y 0)
  match requantEntry s c (p.requant + 4 * (if isCplx p.pairing then y / 2 else y)) with
  | some (q, sh) => ⟨a, q, sh⟩
  | none => ⟨{ a with poison := true }, 0, 0⟩

/-- The value that stands for the missing elements of a line's last block (R145). -/
def zeroElem : StoreIn := ⟨⟨0, 0, .none, false⟩, 0, 0⟩

/-- Bytes of a stored block: elements packed by R57. -/
def blockBytes (w : Nat) (elems : List Int) : List Byte :=
  toBytes (w * elems.length / 8) (elems.foldr (fun x t => (BitVec.ofInt w x).toNat + 2 ^ w * t) 0)

/-- The blocks of a store, each with its line, number and elements as (m, y), none where the line has ended (R145). -/
def storeBlocks (p : PassDesc) : List (Nat × Nat × List (Option (Nat × Nat))) :=
  let q := if isCplx p.pairing then 2 else 1
  let y := recordsPerRow p.pairing p.transpose
  let len := if p.out.alongX then q * p.rows else y
  let lines := if p.out.alongX then y / q else p.rows
  ((List.range lines).map fun l => (List.range ((len + p.out.blockLen - 1) / p.out.blockLen)).map fun b =>
    (l, b, (List.range p.out.blockLen).map fun i =>
      let z := b * p.out.blockLen + i
      if z < len then some (if p.out.alongX then (z / q, l * q + z % q) else (l, z)) else none)).flatten

/-- Store the results of a pass as Z-format blocks and set the flags (R81, R106). -/
def storePass (c : Nat) (q : ArrayCmd) (p : PassDesc) (rows : List (List (BitVec 64))) (s : State) : State :=
  let y := recordsPerRow p.pairing p.transpose
  let w := formatBits p.out.format
  s.each (storeBlocks p) fun (l, b, els) t =>
    let ins := els.map fun e => match e with
      | some (m, i) => storeElem s c p rows m i
      | none => zeroElem
    let bits := els.map fun e => match e with
      | some (m, i) => (gen q.seed q.step p.tag (BitVec.ofNat 32 (m * y + i))).toNat % 2 ^ 16
      | none => 0
    let o := storeBlock w (if p.stochastic then .stochastic bits else .even) ins
    let ws := (els.filterMap fun e => e.map fun mi =>
      spadKey c (p.requant + 4 * (if isCplx p.pairing then mi.2 / 2 else mi.2)) / 8).eraseDups
    let u := (t.readWords .spad ws).spadWrite c (p.out.elemAddr + l * p.out.lineStride + b * (w * p.out.blockLen / 8)) (blockBytes w o.elems)
    orFlags c (bit o.sat + 8 * bit o.poison)
      (u.spadWrite c (p.out.scaleAddr + l * p.out.scaleStride + b) [o.exp])

/-- Write the results of a pass as partial-result records (R77, R146). -/
def recordPass (c : Nat) (p : PassDesc) (rows : List (List (BitVec 64))) (s : State) : State :=
  s.each (rows.mapIdx fun m r => (m, r)) fun (m, r) t =>
    t.spadWrite c (p.out.elemAddr + m * p.out.lineStride) (r.map fun v => toBytes 8 v.toNat).flatten

/-- Write the results of a pass into the members' banks, or empty the rows it read (R105, R107). -/
def bankPass (p : PassDesc) (members : List Nat) (rows : List (List (BitVec 64))) (x : Core) : Core :=
  (rows.mapIdx fun m r => (m, r)).foldl (fun y (e : Nat × List (BitVec 64)) =>
    let mi := memberOfRow members p.rows e.1
    let st := tabGet {} mi.1 y.arrays
    let bank := ((bankRowsOf p mi.2).mapIdx fun j b => (j, b)).foldl (fun bk (jb : Nat × Nat) =>
      if actWritesBank p.action then tabSet jb.2 ⟨p.kindex, (e.2.drop (64 * jb.1)).take 64, []⟩ bk
      else if actReadsBank p.action then tabDel jb.2 bk else bk) st.bank
    { y with arrays := tabPut {} mi.1 { st with bank := bank } y.arrays }) x

/-- An armed injection into an accumulator bank (R528, target 3) fires on a pass that writes the bank: the bits of the record it
names are flipped until the record is read or written again. -/
def bankFlip (c : Nat) (p : PassDesc) (members : List Nat) (s : State) : State :=
  let addr := s.reg raspPage Rg.raspFlipAddressAddress
  let hit := (members.map fun a => a * 2 ^ 20 + p.bankRow * 512).head?.getD 0
  let at_ := if s.flag raspPage Rg.raspFlipSelectMatch then addr / 8 * 8 else hit
  let a := at_ / 2 ^ 20
  let row := at_ / 512 % 2048
  let inPass := members.contains a && (List.range (shareOf p.rows (max 1 members.length))).any fun i => (bankRowsOf p i).contains row
  if s.flag raspPage Rg.raspFlipControlArm ∧ s.reg raspPage Rg.raspFlipSelectTarget = 3 ∧
      s.reg raspPage Rg.raspFlipSelectUnit = c ∧ actWritesBank p.action ∧ inPass then
    let x := s.core c
    let st := tabGet {} a x.arrays
    let bank := match tabFind row st.bank with
      | some b => tabSet row { b with flips := tabPut 0 (at_ / 8 % 64) (s.reg raspPage Rg.raspFlipMaskMask) b.flips } st.bank
      | none => st.bank
    flipFired at_ (s.setCore c { x with arrays := tabPut {} a { st with bank := bank } x.arrays })
  else s

/-- The records of a pass whose array or feeder was fenced while it ran: every output poisoned (R116). -/
def spoiledRows (s : State) (rows : List (List (BitVec 64))) : List (List (BitVec 64)) :=
  rows.mapIdx fun m r => r.mapIdx fun i _ => accPack (s.free 48 (m * r.length + i)) accPoison

/-- Count a pass's waves and completion on every member, and each member's own waits (R97, R112, R130). -/
def countPass (c waves : Nat) (stalls members : List Nat) (s : State) : State :=
  s.each members fun a t =>
    t.addReg (corePage c) Rg.coreArrayWaves waves a |>.addReg (corePage c) Rg.coreArrayStall (stalls.getD a 0) a
      |>.addReg (corePage c) Rg.coreArrayPasses 1 a

/-- The waves of n rows of a pass from its start or its continuation, which fills and drains the array (R96, R131). -/
def rowWaves (u n : Nat) : Nat := if n = 0 then 0 else u * n + 192

/-- The rows of a member's share that an array command has still to complete, and the waves of its rows (R112, R131). -/
def rowsLeft (q : ArrayCmd) : Nat :=
  let p := passDesc q.desc
  shareOf p.rows (max 1 q.members.length) - q.completed
def wavesOf (q : ArrayCmd) : Nat := wavesPerRow (passDesc q.desc).pairing (passDesc q.desc).transpose

/-- A forced preemption stops the passes of a core at an activation-row boundary once their rows in flight have drained (R131, R367): the
rows that each has completed, at least the first, depend on its progress, and their waves are counted. DESIGN CHOICE: log entry 114. -/
def cutPasses (c : Nat) (s : State) : State :=
  let x := s.core c
  let rows := fun (i : Nat) (q : ArrayCmd) => if q.pass && q.started then min (rowsLeft q) (1 + (s.free 14 i).toNat % max 1 (rowsLeft q)) else 0
  let t := s.each (x.arrayQueue.mapIdx fun i q => (i, q)) fun e u =>
    u.each e.2.members fun a v => v.addReg (corePage c) Rg.coreArrayWaves (rowWaves (wavesOf e.2) (rows e.1 e.2)) a
  (t.setCore c { x with arrayQueue := x.arrayQueue.mapIdx fun i q => { q with completed := q.completed + rows i q } }).usedFree
    x.arrayQueue.length

/-- The passes that run on a core are cut short by its fence, and end there: they count the waves that they ran (R131). -/
def cutByFence (c : Nat) (s : State) : State :=
  let x := s.core c
  let t := s.each (x.arrayQueue.mapIdx fun i q => (i, q)) fun e u =>
    if e.2.pass && e.2.started then
      u.each e.2.members fun a v =>
        v.addReg (corePage c) Rg.coreArrayWaves ((s.free 32 e.1).toNat % (rowWaves (wavesOf e.2) (rowsLeft e.2) + 1)) a
    else u
  t.usedFree x.arrayQueue.length

/-- ARRAY_PASS_DONE (R105, R107, R116, R130, R131, R141): the pass's results are written, its flags are set, its waves and waits are
counted and its tag is done. A pass that a fence met ran some of its waves. -/
def execArrayPassDone (c : Fin 160) (array : Fin 4) (stalls : List Nat) (s : State) : Host.Outcome State Fault Refusal :=
  let x := s.core c
  let found := (x.arrayQueue.mapIdx fun i q => (i, q)).find? fun e => e.2.pass && e.2.started && e.2.members.head? == some array.val
  .next (match found with
    | none => s
    | some (i, q) =>
      if !s.working then s
      else
        let p := passDesc q.desc
        let rows := if q.spoiled then spoiledRows s q.rows else q.rows
        let flags := if q.spoiled then 8 else q.flags
        let y := bankPass p q.members rows { x with arrayQueue := x.arrayQueue.eraseIdx i }
        let t := s.setCore c (finishTag q.tag false y)
        let t := if actStores p.action then storePass c q p rows t else if actRecords p.action then recordPass c p rows t else t
        let t := bankFlip c p q.members (orFlags c flags t)
        let t := t.usedFree (if q.spoiled then p.rows * recordsPerRow p.pairing p.transpose else 0)
        let full := rowWaves (wavesOf q) (rowsLeft q)
        (countPass c (if q.spoiled then (t.free 32).toNat % (full + 1) else full) stalls q.members t).usedFree)

/-- The tile that a load writes (R91, R93, R100): each cell's packed weights and its block's exponent. A cell of a poisoned block has the
weight bits that lie there and exponent 0x80; bits of a codeword that cannot be corrected are free. Where FIRST makes the elements of a cell
straddle two blocks, the cell has the first one's exponent. DESIGN CHOICE: log entry 114. -/
def formTile (s : State) (c : Nat) (d : BitVec 512) : Tile :=
  let pr := (pairingOf (dField d 0 4 3)).getD .z8z8
  let t := tensorAt d 0x10
  let q := if isCplx pr then 2 else 1
  let pk := packOf pr
  let w := formatBits t.format
  let cell : Nat → BitVec 40 := fun i =>
    let k := i / 64
    let n := i % 64
    let els : List (Nat × Nat) := if isCplx pr then [(k, 2 * n), (k, 2 * n + 1)] else (List.range pk).map fun j => (pk * k + j, n)
    let exps := els.map fun e => operandExp s c t q (lineLength t q (128 * pk) (64 * q)) e.1 e.2
    let field := els.mapIdx fun j e => ((spadElem s c w (elemPlace t q e.1 e.2).1).getD ((s.free 32 i).toNat / 2 ^ (w * j) % 2 ^ w))
    let e : Byte := if exps.contains 0x80 then 0x80 else exps.headD 0x80
    BitVec.ofNat 40 (e.toNat * 2 ^ 32 + field.foldr (fun x v => x + 2 ^ w * v) 0)
  { pairing := some pr
    cells := ((List.range 8192).map fun i => (i, cell i)).filter fun e => e.2 != 0x8000000000#40
    badParity := [] }

/-- TILE_LOAD_START (R100, R101): the weight feeder begins to write the shadow tile. -/
def execTileLoadStart (c : Fin 160) (array : Fin 4) (s : State) : Host.Outcome State Fault Refusal :=
  let x := s.core c
  .next (match nextCmd x false array.val with
    | none => s
    | some (i, q) =>
      if !(enginesRun s c && mayStart x i q) then s
      else
        let fenced := s.reg (corePage c) Rg.coreArrayStateArrayFenced
        if q.members.any fenced.testBit then failArrayCmd c i q 0x0A ((q.members.find? fenced.testBit).getD 0) ((q.members.find? fenced.testBit).getD 0) s
        else
          let pr := (pairingOf (dField q.desc 0 4 3)).getD .z8z8
          let n := if isCplx pr then 2 else 1
          ((s.setCore c { x with arrayQueue := x.arrayQueue.set i { q with started := true, tile := formTile s c q.desc } }).readWords
            .spad (operandWords c (tensorAt q.desc 0x10) n (128 * packOf pr) (64 * n))).usedFree 8192)

/-- An armed injection into a tile register (R528, target 4): its cell's bits flip on the load, and an odd number of flipped
bits breaks the cell's parity. -/
def tileFlip (c : Nat) (members : List Nat) (s : State) : State :=
  let addr := s.reg raspPage Rg.raspFlipAddressAddress
  let cellNo := if s.flag raspPage Rg.raspFlipSelectMatch then addr else (members.head?.getD 0) * 8192
  let a := cellNo / 8192
  if s.flag raspPage Rg.raspFlipControlArm ∧ s.reg raspPage Rg.raspFlipSelectTarget = 4 ∧
      s.reg raspPage Rg.raspFlipSelectUnit = c ∧ members.contains a then
    let x := s.core c
    let st := tabGet {} a x.arrays
    let i := cellNo % 8192
    let mask := s.reg raspPage Rg.raspFlipMaskMask % 2 ^ 40
    let old := tabGet (0x8000000000#40) i st.shadow.cells
    let tile := { st.shadow with
      cells := tabSet i (old ^^^ BitVec.ofNat 40 mask) st.shadow.cells
      badParity := if popcount 40 mask % 2 = 1 then i :: st.shadow.badParity else st.shadow.badParity }
    flipFired cellNo (s.setCore c { x with arrays := tabPut {} a { st with shadow := tile } x.arrays })
  else s

/-- TILE_LOAD_DONE (R100, R116): the shadow tile is loaded on every member; a load that a fence met leaves every cell at
exponent 0x80. -/
def execTileLoadDone (c : Fin 160) (array : Fin 4) (s : State) : Host.Outcome State Fault Refusal :=
  let x := s.core c
  let found := (x.arrayQueue.mapIdx fun i q => (i, q)).find? fun e => !e.2.pass && e.2.started && e.2.members.head? == some array.val
  .next (match found with
    | none => s
    | some (i, q) =>
      if !s.working then s
      else
        let tile := if q.spoiled then { q.tile with cells := [] } else q.tile
        let y := q.members.foldl (fun y a =>
          let st := tabGet {} a y.arrays
          { y with arrays := tabPut {} a { st with shadow := tile } y.arrays }) { x with arrayQueue := x.arrayQueue.eraseIdx i }
        tileFlip c q.members (s.setCore c (finishTag q.tag false y)))

/-- Empty tiles and banks of an array (R108, R629). -/
def clearArray (a : Nat) (x : Core) : Core := { x with arrays := tabDel a x.arrays }

/-- A probe begins on the arrays of a mask: BUSY sets and START clears; it overwrites both tiles and the bank of each (R121, R126). DEDUCED:
log entry 27. -/
def startProbe (c mask : Nat) (s : State) : State :=
  let p := corePage c
  (s.setReg p Rg.coreSkewProbeStart 0 |>.setReg p Rg.coreSkewProbeBusy 1 |>.setReg p Rg.coreSkewProbeDone mask
    |>.setReg p Rg.coreSkewProbeFailed 0).modCore c
    fun x => ((List.range 4).filter mask.testBit).foldl (fun y a => clearArray a y) x

/-- A write of repairs or a probe start is taken: the core is frozen and no probe runs (R123). -/
def repairTaken (s : State) (c : Nat) : Bool :=
  s.flag (corePage c) Rg.pageStatusFrozen && !s.flag (corePage c) Rg.coreSkewProbeBusy

/-- SKEW_PROBE_START (R123, R126): a write of CORE.SKEW_PROBE. DEDUCED: log entry 27. -/
def execSkewProbeStart (who : Requester) (c : Fin 160) (value : BitVec 32) (s : State) : Host.Outcome State Fault Refusal :=
  .next (writeAccess who (corePage c) 0x204 (fun t =>
    let u := t.setReg (corePage c) Rg.coreSkewProbeSelect (value.toNat % 16)
    if !value.getLsbD 4 then u
    else if repairTaken t c then startProbe c (value.toNat % 16) u
    else t.error (corePage c) 0x0303 0 0x204) s)

/-- SKEW_PROBE_DONE (R120 to R122, R126): the arrays that failed are fenced with 0x0301, those that passed return to service, FORCED_GANG is
recomputed and PROBE_DONE is raised. An array that another cause had fenced returns too. A core whose every array failed is replaced by
"Faults". DEDUCED: log entry 27. DESIGN CHOICE: log entry 114. -/
def probeDone (c failed detail : Nat) (s : State) : State :=
  let p := corePage c
  let mask := s.reg p Rg.coreSkewProbeDone
  let bad := failed &&& mask
  let old := s.reg p Rg.coreArrayStateArrayFenced
  let arrays := (old - (old &&& mask)) ||| bad
  let ph := tabGet 0 c s.plat.corePhysical
  let fails := s.plat.probeFails.filter (fun e => !(e.1 == ph && mask.testBit e.2)) ++
    ((List.range 4).filter bad.testBit).map fun a => (ph, a)
  let t := { s with plat := { s.plat with probeFails := fails } }
  let t := setArrayState c arrays (t.reg p Rg.coreArrayStateFeederFenced) t
  let t := t.setReg p Rg.coreSkewProbeBusy 0 |>.setReg p Rg.coreSkewProbeFailed bad
  let t := t.each ((List.range 4).filter bad.testBit) fun a u => u.error p 0x0301 a detail
  t.raiseBits p (2 ^ 8 + (if (bad &&& (15 - old)) = 0 then 0 else 2 ^ 9))

/-- A field that the fuse map set cannot be changed (R124). -/
def fuseSet (s : State) (c array : Nat) (isColumn : Bool) (index : Nat) : Bool :=
  let f := if isColumn then colRepairFields index else rowRepairFields index
  s.flag (corePage c) f.2.1 array && !s.flag (corePage c) f.2.2 array

/-- Write one repair field of a repair register (R124, R127, R128): w is its byte of the written value. -/
def writeRepair (c array : Nat) (isColumn : Bool) (index w : Nat) (s : State) : State :=
  if fuseSet s c array isColumn index then s
  else
    let f := if isColumn then colRepairFields index else rowRepairFields index
    let n := if isColumn then 6 else 5
    let valid := w / 2 ^ n % 2
    s.setReg (corePage c) f.1 (w % 2 ^ n) array |>.setReg (corePage c) f.2.1 valid array
      |>.setReg (corePage c) f.2.2 valid array

/-- The repairs in force of an array: the replaced row of each group, or column of each spare. -/
def repairsOf (s : State) (c array : Nat) (isColumn : Bool) : List (Option Nat) :=
  (List.range (if isColumn then 2 else 4)).map fun g =>
    let f := if isColumn then colRepairFields g else rowRepairFields g
    if s.flag (corePage c) f.2.1 array then some (s.reg (corePage c) f.1 array) else none

/-- A write of a repair register of a frozen core starts a probe of the array where it changes its repairs (R123). -/
def repairWrite (c array : Nat) (isColumn : Bool) (value : Nat) (s : State) : State :=
  let n := if isColumn then 2 else 4
  let t := s.each (List.range n) fun g u => writeRepair c array isColumn g (value / 256 ^ g % 256) u
  if repairsOf t c array isColumn = repairsOf s c array isColumn then t else startProbe c (2 ^ array) t

/-- ROW_REPAIR_WRITE (R123, R127). DEDUCED: log entry 27. -/
def execRowRepairWrite (who : Requester) (c : Fin 160) (array : Fin 4) (value : BitVec 32) (s : State) :
    Host.Outcome State Fault Refusal :=
  .next (writeAccess who (corePage c) (0x210 + 4 * array.val) (fun t =>
    if repairTaken t c then repairWrite c array.val false value.toNat t
    else t.error (corePage c) 0x0302 0 (0x210 + 4 * array.val)) s)

/-- The column repairs that a write would leave name one column twice (R128). -/
def columnsClash (s : State) (c array value : Nat) : Bool :=
  let t := s.each (List.range 2) fun g u => writeRepair c array true g (value / 256 ^ g % 256) u
  let p := corePage c
  t.flag p Rg.coreColRepairValid0 array && t.flag p Rg.coreColRepairValid1 array &&
    t.reg p Rg.coreColRepairColumn0 array == t.reg p Rg.coreColRepairColumn1 array

/-- COL_REPAIR_WRITE (R123, R128). DEDUCED: log entry 27. -/
def execColRepairWrite (who : Requester) (c : Fin 160) (array : Fin 4) (value : BitVec 32) (s : State) :
    Host.Outcome State Fault Refusal :=
  .next (writeAccess who (corePage c) (0x220 + 4 * array.val) (fun t =>
    if repairTaken t c ∧ !columnsClash t c array.val value.toNat then repairWrite c array.val true value.toNat t
    else t.error (corePage c) 0x0302 0 (0x220 + 4 * array.val)) s)

/-- The physical row or column behind a logical one and back (R118, R119): whether the position is a stage, and its logical
number, which is its token offset. -/
def offsetEntry (s : State) (c array : Nat) (column : Bool) (pos : Nat) : Option Nat :=
  let p := corePage c
  if column then
    let bad := (List.range 2).filterMap fun j =>
      let f := colRepairFields j
      if s.flag p f.2.1 array then some (s.reg p f.1 array) else none
    let used := (List.range 66).filter (fun x => !bad.contains x)
    let used := used.take 64
    if used.contains pos then some (used.findIdx (· == pos)) else none
  else
    let g := pos / 33
    let f := rowRepairFields g
    let fixed := s.flag p f.2.1 array
    let r := s.reg p f.1 array
    let i := pos % 33
    if pos ≥ 132 then none
    else if fixed then (if i = r then none else some (32 * g + (if i < r then i else i - 1)))
    else if i = 32 then none else some (32 * g + i)

end Sys2Proof.Machine
end

