-- ==== Sys2Proof/Machine/Record.lean ====
section
/-! DEFINITION. What recording and replay share (R512 to R518): a partition's outputs and their digests, ring entries, and the inputs
that wait for a boundary. -/

namespace Sys2Proof.Machine

/-- A partition's recording or replay. -/
def recordOf (s : State) (k : Nat) : RecordRun := tabGet {} k s.records
def setRecord (k : Nat) (x : RecordRun) (s : State) : State := { s with records := tabPut {} k x s.records }

/-- A partition records, or replays. -/
def recording (s : State) (k : Nat) : Bool := (recordOf s k).mode == 1
def replaying (s : State) (k : Nat) : Bool := (recordOf s k).mode == 2

/-- One byte into a CRC-64 with the polynomial of R516, most significant bit first, from 0. -/
def crc64Byte (c : BitVec 64) (b : Byte) : BitVec 64 :=
  (List.range 8).foldl (fun c _ => if c.getMsbD 0 then (c <<< 1) ^^^ 0x42F0E1EBA9EA3693#64 else c <<< 1) (c ^^^ (b.setWidth 64 <<< 56))
def crc64 (c : BitVec 64) (bs : List Byte) : BitVec 64 := bs.foldl crc64Byte c

/-- A partition that records or replays has formed an output of a kind (R516). -/
def noteOutput (k kind : Nat) (bytes : List Byte) (s : State) : State :=
  let x := recordOf s k
  if x.mode = 0 then s
  else setRecord k { x with
    crc := x.crc.set kind (crc64 (x.crc.getD kind 0) bytes), counts := x.counts.set kind (x.counts.getD kind 0 + 1) } s

/-- An entry of the record ring (R514). -/
def recordEntry (kind boundary : Nat) (time : BitVec 96) (payload : List Byte) : List Byte :=
  let b := toBytes 2 0x5243 ++ toBytes 1 kind ++ toBytes 1 0 ++ toBytes 4 payload.length ++ toBytes 8 boundary ++
    toBytes 12 time.toNat ++ toBytes 4 0 ++ payload
  b ++ List.replicate ((64 - b.length % 64) % 64) 0

/-- Write an entry to the ring of a partition that records: one that does not fit ends the writing (R515). -/
def putEntry (k kind boundary : Nat) (time : BitVec 96) (payload : List Byte) (s : State) : State :=
  let p := partPage k
  let b := recordEntry kind boundary time payload
  let head := s.reg p Rg.partRecordHeadBytes
  if !recording s k ∨ s.reg p Rg.partRecordStatusState ≠ 2 then s
  else if head + b.length > s.reg p Rg.partRecordBytesBytes then (s.setReg p Rg.partRecordStatusState 3).raise p 5
  else (s.partStore k (s.reg p Rg.partRecordBaseAddress + head) b).setReg p Rg.partRecordHeadBytes (head + b.length)

/-- An input of a recorded partition arrives and waits for its next boundary (R513). -/
def holdInput (k : Nat) (i : HeldInput) (s : State) : State :=
  let x := recordOf s k
  setRecord k { x with held := x.held ++ [(i, s.timeBits)] } s

/-- A context's or a stream's seed enters the record (R513). DEDUCED: log entry 70. -/
def recordSeed (k kind number : Nat) (seed : BitVec 128) (s : State) : State :=
  putEntry k 6 (s.reg (partPage k) Rg.partBoundaryCount) s.timeBits
    (toBytes 1 kind ++ toBytes 3 0 ++ toBytes 4 number ++ toBytes 16 seed.toNat) s

/-- A CPMARK on the rank-0 core of context 0 is the boundary of a partition without serving groups (R511). -/
def noteMark (c : Nat) (s : State) : State :=
  match (s.core c).ctx with
  | none => s
  | some r =>
    let x := recordOf s r.part
    if x.mode ≠ 0 ∧ r.ctx = 0 ∧ (List.range 160).find? (s.ctx r.part 0).mask.getLsbD = some c ∧
        (s.serve.groups.all fun e => e.1 / 8 != r.part) = true then setRecord r.part { x with due := true } s
    else s

/-- A core of a serving group is not the scheduler's (R327). -/
def groupImage (s : State) (k g : Nat) : Option ServeGroup := tabFind (k * 8 + g) s.serve.groups
def groupBit (g : ServeGroup) (decode : Bool) (c : Nat) : Bool := g.image.getLsbD (8 * (if decode then 0x34 else 0x20) + c)
def groupCore (s : State) (k c : Nat) : Bool :=
  s.serve.groups.any fun e => e.1 / 8 == k && (groupBit e.2 false c || groupBit e.2 true c)

/-- A device of a partition's replay set (R519): with VALID = 0 this device alone. -/
def inReplaySet (s : State) (k d : Nat) : Bool :=
  let p := partPage k
  if s.flag p Rg.partReplaySetValid then decide (s.reg p Rg.partReplaySetLow ≤ d) && decide (d ≤ s.reg p Rg.partReplaySetHigh)
  else d == s.reg fabrPage Rg.fabrDeviceIdDevice

/-- The bytes of a packet (R445): its header, and its data. -/
def packetBytes (p : Packet) (flits : Nat) : List Byte :=
  toBytes 1 p.op.toNat ++ toBytes 1 ((flits - 1) % 32 + 32 * p.size.val) ++ toBytes 2 p.src.toNat ++ toBytes 2 p.dest.toNat ++
    toBytes 1 (p.part.val + 64 * bit p.retry) ++ toBytes 1 p.func.val ++ toBytes 1 p.core.toNat ++ toBytes 1 p.req.toNat ++
    toBytes 2 p.index.toNat ++ toBytes 2 p.contributors.toNat ++ toBytes 2 p.status.toNat ++ toBytes 8 p.addr.toNat ++
    toBytes 8 p.ext.toNat ++ p.data

/-- The packet that its bytes give. -/
def packetOf (b : List Byte) : Packet :=
  let f := fun off n => leNat ((b.drop off).take n)
  { op := BitVec.ofNat 8 (f 0 1), size := Fin.ofNat 8 (f 1 1 / 32), src := BitVec.ofNat 12 (f 2 2), dest := BitVec.ofNat 12 (f 4 2)
    part := Fin.ofNat 64 (f 6 1), retry := (f 6 1).testBit 6, func := Fin.ofNat 16 (f 7 1), core := BitVec.ofNat 8 (f 8 1)
    req := BitVec.ofNat 8 (f 9 1), index := BitVec.ofNat 12 (f 10 2), contributors := BitVec.ofNat 13 (f 12 2)
    status := BitVec.ofNat 8 (f 14 1), addr := BitVec.ofNat 64 (f 16 8), ext := BitVec.ofNat 64 (f 24 8), data := b.drop 32 }

/-- Flits of a packet (R445): the first carries up to 216 bytes of data, each further one 248. -/
def packetFlits (p : Packet) : Nat := 1 + (p.data.length - 216 + 247) / 248

/-- An entry of the ring at a byte offset (R514): its kind, boundary and payload, and the offset of the next one. -/
structure RingEntry where
  kind : Nat
  boundary : Nat
  time : BitVec 96
  payload : List Byte
  next : Nat
  deriving DecidableEq, Repr

/-- Read an entry of a partition's ring; none past its end or where it cannot be read. -/
def ringEntry (s : State) (k off : Nat) : Option RingEntry :=
  let p := partPage k
  if off + 64 > s.reg p Rg.partRecordBytesBytes then none
  else
    let a := s.reg p Rg.partRecordBaseAddress + off
    match s.partBytesAll k a 32 with
    | none => none
    | some h =>
      let len := leNat ((h.drop 4).take 4)
      if leNat (h.take 2) ≠ 0x5243 ∨ off + 32 + len > s.reg p Rg.partRecordBytesBytes then none
      else (s.partBytesAll k (a + 32) len).map fun b =>
        ⟨(h.getD 2 0).toNat, leNat ((h.drop 8).take 8),
          BitVec.ofNat 96 (leNat ((h.drop 16).take 12)), b, off + (32 + len + 63) / 64 * 64⟩

/-- The next entry of a kind from an offset on, among at most n entries. -/
def findEntry (s : State) (k kind : Nat) : Nat → Nat → Option RingEntry
  | 0, _ => none
  | n + 1, off =>
    match ringEntry s k off with
    | none => none
    | some e => if e.kind = kind then some e else findEntry s k kind n e.next

/-- A replay diverges (R518): only the first divergence is recorded. -/
def diverge (k kind : Nat) (s : State) : State :=
  let p := partPage k
  if s.flag p Rg.partDivergeInfoValid then s
  else
    let t := s.setReg p Rg.partDivergeBoundaryCount (s.reg p Rg.partBoundaryCount) |>.setReg p Rg.partDivergeInfoKind kind
      |>.setReg p Rg.partDivergeInfoValid 1
    let t := (t.setReg p Rg.partRecordStatusState 6).raise p 6
    if s.flag p Rg.partRecordControlStopOnDiverge then setRecord k { recordOf t k with stopped := true } t else t

end Sys2Proof.Machine
end

