-- ==== Sys2Proof/Machine/Sched.lean ====
section
/-! DEFINITION. The scheduler of a partition (R362 to R366), engine time (R363), releasing cores, saving and ending contexts
(R178, R185, R359, R367), locks of ended contexts (R167), and donation (R370 to R373). -/

namespace Sys2Proof.Machine

/-- The cores of a context's mask, ascending. -/
def maskCores (m : BitVec 160) : List Nat := (List.range 160).filter m.getLsbD

/-- The cores that a context holds. -/
def coresHeld (s : State) (k n : Nat) : List Nat :=
  (maskCores (s.ctx k n).mask).filter fun c => (s.core c).ctx == some ⟨k, n⟩

/-- The numbers of a partition's contexts that are not EMPTY. -/
def ctxsOf (s : State) (k : Nat) : List Nat := (s.ctxs.filter fun e => e.1 / 256 == k).map fun e => e.1 % 256

/-- A context's priority where a donated slice runs it: the highest of the contexts blocked on its locks (R370, R371); depth
bounds the chain of owners at 8. -/
def ctxPriority (s : State) (k : Nat) : Nat → Nat → Nat
  | 0, n => (s.ctx k n).priority
  | d + 1, n => (s.ctx k n).donors.foldl (fun p e => max p (ctxPriority s k d e.1)) (s.ctx k n).priority

/-- Every engine command that a core has issued has completed, stream commands apart. -/
def enginesIdle (x : Core) : Bool :=
  x.arrayQueue.isEmpty && x.fabricQueue.isEmpty && x.codingQueue.isEmpty && x.codingOut == 0

/-- Every stream command of a core has completed. -/
def streamsIdle (x : Core) : Bool := x.streams.all fun e => e.2.queue.isEmpty

/-- A core is free for the scheduler: nothing runs on it, no radio claim takes it, it is not lent and not fenced (R362, R533). -/
def coreFree (s : State) (c : Nat) : Bool :=
  let x := s.core c
  (x.run == .idle || (x.run == .ending && enginesIdle x && streamsIdle x)) && x.surgeFor.isNone && x.lentTo.isNone &&
    !s.flag (corePage c) Rg.pageStatusFenced

/-- The context to which engine time is added: the owner, or in a donated slice the blocked context of highest priority (R373). -/
def payer (s : State) (k n : Nat) : Nat :=
  match (s.ctx k n).donors with
  | [] => n
  | e :: es => (es.foldl (fun b d => if ctxPriority s k 8 d.1 > ctxPriority s k 8 b.1 then d else b) e).1

/-- Add the engine time of a context's cores since they were last accounted (R363, R373). DEDUCED: log entry 46. -/
def accountCtx (k n : Nat) (s : State) : State :=
  let held := (coresHeld s k n).filter fun c => (s.core c).heldSince.isSome
  let d := held.foldl (fun t c => t + (s.now - ((s.core c).heldSince).getD s.now)) 0
  let t := s.each held fun c u => u.modCore c fun x => { x with heldSince := some s.now }
  if d = 0 then t
  else
    let rcv := payer s k n
    let x := t.ctx k rcv
    let y := { x with time := x.time + d, vtime := x.vtime + (d * 65536 + x.weight - 1) / max 1 x.weight }
    let t := t.writeCtx k rcv y
    if rcv = n then t else t.addReg (partPage k) Rg.partDonatedTimeTime d

/-- Request preemption of a context on every core it holds (R366): the request is delivered by PREEMPT_DELIVERED. -/
def askPreempt (k n : Nat) (s : State) : State :=
  s.each (coresHeld s k n) fun c t => t.modCore c fun x =>
    if x.preempt ∨ x.run = .cheapSave ∨ x.run = .forcedSave ∨ x.run = .ending then x else { x with asked := true }

/-- A context is on its way out: a preemption of it has been requested or is under way. -/
def leaving (s : State) (k n : Nat) : Bool :=
  (coresHeld s k n).any fun c =>
    let x := s.core c
    x.asked || x.preempt || x.run == .cheapSave || x.run == .forcedSave

/-- The contexts of a partition that the scheduler considers, highest priority first, then ascending VTIME, then number (R365). DEDUCED: log
entry 46. -/
def candidates (s : State) (k : Nat) : List Nat :=
  let ns := if (tabGet {} k s.parts).exported then [] else (ctxsOf s k).filter fun n =>
    let x := s.ctx k n
    x.state == 1 || (x.state == 4 && !x.donors.isEmpty) || (x.state == 2 && !leaving s k n)
  let before := fun a b =>
    let pa := ctxPriority s k 8 a
    let pb := ctxPriority s k 8 b
    let va := (s.ctx k a).vtime
    let vb := (s.ctx k b).vtime
    decide (pa > pb) || (pa == pb && (decide (va < vb) || (va == vb && decide (a ≤ b))))
  sortBy before ns

/-- A context sits at the cheap point of a SEMACQ that waits for a lock of context n, to which it donates: it yields its cores (R372). -/
def yieldsTo (s : State) (k m n : Nat) : Bool :=
  (s.ctx k n).donors.any (·.1 == m) && (coresHeld s k m).any fun c => match (s.core c).run with
    | .blocked b => b.cp != 0
    | _ => false

/-- A core may be claimed by context n at priority p: idle, or held by a context of lower priority, or of priority p whose slice has ended
(R365), or by one that donates to n at a cheap point (R372). The scheduler preempts no context of a radio partition (R353). -/
def mayClaim (s : State) (k n p c : Nat) (taken : List Nat) : Bool :=
  !taken.contains c && (s.core c).surgeFor.isNone && (s.core c).lentTo.isNone &&
    !s.flag (corePage c) Rg.pageStatusFenced && !groupCore s k c &&
    match (s.core c).ctx with
    | none => true
    | some r =>
      let y := s.ctx k r.ctx
      (s.core c).run == .ending || leaving s k r.ctx || (s.reg (partPage k) Rg.partConfigKind != 2 &&
        (decide (ctxPriority s k 8 r.ctx < p) || (ctxPriority s k 8 r.ctx == p && y.sliceOver) || yieldsTo s k r.ctx n))

/-- One candidate's turn: a running context keeps its cores and begins its next slice; a ready one claims them, and their
holders are preempted (R365, R366). -/
def chooseOne (k : Nat) (r : State × List Nat) (n : Nat) : State × List Nat :=
  let s := r.1
  let x := s.ctx k n
  let cs := maskCores x.mask
  if x.state = 2 ∨ !(coresHeld s k n).isEmpty then
    if cs.any r.2.contains then r
    else
      let t := if x.sliceOver then s.setCtx k n { x with sliceOver := false, sliceAt := s.now } else s
      (t, cs ++ r.2)
  else if !cs.isEmpty ∧ cs.all (fun c => mayClaim s k n (ctxPriority s k 8 n) c r.2) then
    let holders := ((cs.filterMap fun c => (s.core c).ctx).map (·.ctx)).eraseDups.filter (· != n)
    (holders.foldl (fun t h => askPreempt k h t) (s.setCtx k n { x with claiming := true }), cs ++ r.2)
  else r

/-- The scheduler makes a choice (R365); none while the partition's page is frozen (R46). DESIGN CHOICE: log entry 15. DEDUCED: log entry
46. -/
def choose (k : Nat) (s : State) : State :=
  if s.frozen (partPage k) then s
  else
    let s := s.each (ctxsOf s k) fun n t => t.setCtx k n { t.ctx k n with claiming := false }
    ((candidates s k).foldl (chooseOne k) (s, [])).1

/-- The owner tag of a core in a context, and of a signal core's program (R164). -/
def coreTag (k n c : Nat) : BitVec 24 := BitVec.ofNat 24 (k * 2 ^ 18 + n * 2 ^ 10 + c)
def sigcTag (k u : Nat) : BitVec 24 := BitVec.ofNat 24 (k * 2 ^ 18 + 2 ^ 8 + u)

/-- Free every lock held under a tag that satisfies p: the next acquirer receives OWNER_ABORTED (R167). -/
def freeLocks (p : BitVec 24 → Bool) (s : State) : State :=
  { s with sems := s.sems.map fun e =>
      (e.1, if (e.2.owner.map p).getD false then { e.2 with owner := none, aborted := true } else e.2) }

/-- A waiter leaves every semaphore's queue. -/
def leaveWaits (a : Agent) (s : State) : State :=
  { s with sems := s.sems.map fun e =>
      (e.1, if e.2.waiters.contains (.agent a) then { e.2 with waiters := e.2.waiters.filter (· != .agent a) } else e.2) }

/-- Core number as an agent. -/
def coreAgent (c : Nat) : Agent := .core (Fin.ofNat 160 c)

/-- The registers of a core that belong to its context (R188, R509), in the order in which a save holds them. -/
def ctxFields : List RegField :=
  [Rg.coreCheapPointLimitLimit, Rg.coreCheapTableAddress, Rg.coreCheapTableCountCount, Rg.coreExecControlChecked,
   Rg.coreLocksHeldCount, Rg.coreTrapCauseCause, Rg.coreTrapCauseDeferred, Rg.coreTrapCauseUnit, Rg.coreTrapCauseValid,
   Rg.coreTrapPcPc, Rg.coreTrapDetailDetail, Rg.coreTrapStopPcPc, Rg.coreArithFlagsSat, Rg.coreArithFlagsAccOvf,
   Rg.coreArithFlagsTernaryCode, Rg.coreArithFlagsPoison, Rg.coreRngStepStep]

/-- The registers that show a context's stream slots (R158, R187). -/
def slotFields : List RegField := [Rg.coreStreamStatusState, Rg.coreStreamStatusError, Rg.coreStreamErrorAddrAddress]

/-- Every register that a save holds, with its index: the fields, the seed words, the slots. -/
def savedFields : List (RegField × Nat) :=
  (ctxFields.map fun f => (f, 0)) ++ ((List.range 4).map fun i => (Rg.coreRngSeedSeed, i)) ++
    ((List.range 16).map fun i => slotFields.map fun f => (f, i)).flatten

/-- What a save holds of those registers. -/
def saveRegs (s : State) (c : Nat) : List Nat := savedFields.map fun f => s.reg (corePage c) f.1 f.2

/-- Write them back. -/
def loadRegs (c : Nat) (v : List Nat) (s : State) : State :=
  s.each (savedFields.zip v) fun e u => u.setReg (corePage c) e.1.1 e.2 e.1.2

/-- The registers of a core that belong to a context at their reset values. -/
def clearRegs (c : Nat) (s : State) : State :=
  s.each savedFields fun f u => u.setReg (corePage c) f.1 (resetAt (corePage c) f.1 0) f.2

/-- A context's state once its last core has been released: RUNNING becomes READY, SUSPENDING and TRAPPED become SUSPENDED. -/
def afterRelease (k n : Nat) (s : State) : State :=
  let x := s.ctx k n
  if (coresHeld s k n).isEmpty then
    if x.state = 2 then s.writeCtx k n { x with state := 1, sliceOver := false }
    else if x.state = 3 ∨ x.state = 5 then s.writeCtx k n { x with state := 4, sliceOver := false }
    else s
  else s

/-- Release a core: its context's time is accounted, and it is idle; a lent core or a claimed one keeps that mark. -/
def releaseCore (c : Nat) (s : State) : State :=
  match (s.core c).ctx with
  | none => s
  | some r =>
    let t := accountCtx r.part r.ctx s
    let x := t.core c
    let t := clearRegs c (t.setCore c { surgeFor := x.surgeFor, lentTo := x.lentTo })
    afterRelease r.part r.ctx t

/-- A scratchpad address lies in one of the ranges, by first line and line count. -/
def inRanges (rs : List (Nat × Nat)) (a : Nat) : Bool := rs.any fun r => decide (r.1 * 64 ≤ a) && decide (a < (r.1 + r.2) * 64)

/-- The bytes of scratchpad ranges that can be read, with their core's key removed. -/
def spadRanges (s : State) (c : Nat) (rs : List (Nat × Nat)) : List Host.Cell :=
  (s.mem.spad.cells.filter fun e => e.1 / 2 ^ 22 == c && inRanges rs (e.1 % 2 ^ 22) && !cwBad .spad s.mem.spad (e.1 / 8)).map fun e =>
    (e.1 % 2 ^ 22, e.2)

/-- The words of scratchpad ranges that hold errors: the save engine's read of them counts and corrects (R521, R522). -/
def flippedWords (s : State) (c : Nat) (rs : List (Nat × Nat)) : List Nat :=
  (s.mem.spad.flips.filter fun e => 8 * e.1 / 2 ^ 22 == c && inRanges rs (8 * e.1 % 2 ^ 22)).map Prod.fst

/-- The registers and companions that a save holds. -/
def saveWords (v : SavedCore) : List Nat :=
  v.regs ++ [v.core.pc.toNat] ++ (v.core.gpr.map fun e => e.2.toNat) ++ v.core.vreg.map fun e => e.2.data.toNat + 2 ^ 2048 * e.2.scale.toNat

/-- Where a core's part of a context's spill area begins (R358). -/
def spillAt (x : Ctx) (c : Nat) : Nat := x.spill + 9 * 2 ^ 20 * (maskCores x.mask).findIdx (· == c)

/-- Store what a core saves with its context, and write its image into its 9 MiB of the spill area (R178, R358, R367); the context's STEP is
what the core has counted (R508, R509). DEDUCED: log entry 45. -/
def saveCore (c : Nat) (v : SavedCore) (s : State) : State :=
  match (s.core c).ctx with
  | none => s
  | some r =>
    let x := s.ctx r.part r.ctx
    ((s.readWords .spad (flippedWords s c v.lines)).partWrite r.part (spillAt x c) ((Config.spillImage (saveWords v) (v.spad.map fun e => (e.1, e.2))).take (9 * 2 ^ 20))).writeCtx r.part r.ctx { x with saved := tabSet c v x.saved, step := max x.step (s.core c).ctxStep }

/-- End a context as ABORT does (R167, R185, R359): its locks are freed, its saved state is discarded, it becomes EMPTY; each of
its cores stops at its next instruction boundary while engine commands already issued run to completion. -/
def endContext (k n : Nat) (s : State) : State :=
  let s := accountCtx k n s
  let cs := coresHeld s k n
  let t := freeLocks (fun g => g.toNat / 2 ^ 8 == k * 2 ^ 10 + n * 4) s
  let t := t.each cs fun c u => clearRegs c ((leaveWaits (coreAgent c) u).modCore c fun x =>
    { x with run := .ending, asked := false, preempt := false, preemptAt := none, deferred := none, heldSince := none,
             lateGrants := [], shadow := none })
  (t.writeCtx k n { t.ctx k n with state := 0 }).setCtx k n {}

/-- A donation of one blocked context over one lock ends; with its last donor the owner returns to the ordinary choice
(R370, R373). -/
def endDonation (k n : Nat) (gone : Nat × Nat → Bool) (s : State) : State :=
  let x := s.ctx k n
  if x.donors.any gone then
    let s := accountCtx k n s
    let x := s.ctx k n
    let left := x.donors.filter fun e => !gone e
    let t := s.setCtx k n { x with donors := left }
    if left.isEmpty then askPreempt k n t else t
  else s

end Sys2Proof.Machine
end

