-- ==== Sys2Proof/Machine/Cheap.lean ====
section
/-! DEFINITION. Cheap points (R174 to R181, R369, R534): the gap between them, the live-range table, the shadow, taking one, and
the saves that end a preemption (R178, R367). -/

namespace Sys2Proof.Machine

/-- The bound between cheap points in ns; 0 acts as 1 µs (R187). -/
def cheapLimitNs (s : State) (c : Nat) : Nat := 1000 * max 1 (s.reg (corePage c) Rg.coreCheapPointLimitLimit)

/-- A cheap point has been reached: the gap since the last one is measured (R176). DEDUCED: log entry 45. -/
def cheapPassed (c : Nat) (s : State) : State :=
  let x := s.core c
  let p := corePage c
  let t := s.setCore c { x with cheapAt := some s.now, blockedNs := 0 }
  match x.cheapAt with
  | none => t
  | some at_ =>
    let gap := s.now - at_ - x.blockedNs
    let t := t.setReg p Rg.coreCheapGapMaxGap (max (s.reg p Rg.coreCheapGapMaxGap) (min gap (2 ^ 32 - 1)))
    if gap > cheapLimitNs s c then (t.bump p Rg.coreCheapLateCountCount).raise p 2 else t

/-- The live-range entry of an ID at an instruction address (R180): none where it cannot be taken (R181). -/
def cheapEntry (s : State) (c id : Nat) (pc : BitVec 18) : Option LiveSet :=
  match (s.core c).ctx with
  | none => none
  | some r =>
    let base := s.reg (corePage c) Rg.coreCheapTableAddress
    if id ≥ s.reg (corePage c) Rg.coreCheapTableCountCount then none
    else
      match s.partBytesAll r.part (base + 24 * id) 24 with
      | none => none
      | some b =>
        let n := fun off len => leNat ((b.drop off).take len)
        if n 0 2 ≠ id ∨ n 4 4 ≠ pc.toNat then none
        else
          match s.partBytesAll r.part (base + n 16 4) (8 * n 2 1) with
          | none => none
          | some l =>
            let ranges := (List.range (n 2 1)).map fun i =>
              let v := leNat ((l.drop (8 * i)).take 8)
              (v % 2 ^ 16, v / 2 ^ 16 % 2 ^ 17)
            some ⟨BitVec.ofNat 32 (n 8 4), BitVec.ofNat 32 (n 12 4), ranges⟩

/-- The registers of a table that a mask names. -/
def maskTable {α : Type} (m : BitVec 32) (t : Table α) : Table α := t.filter fun e => m.getLsbD e.1

/-- Form or discard the shadow at a CPMARK (R534). -/
def formShadow (c : Nat) (live : Option LiveSet) (resume : BitVec 18) (s : State) : State :=
  s.modCore c fun x =>
    match live with
    | none => { x with shadow := none, nonidem := true }
    | some l => { x with
        nonidem := false
        shadow := some ⟨maskTable l.gMask x.gpr, maskTable l.vMask x.vreg, getFlags s c, x.tags, x.streams,
          s.reg (corePage c) Rg.coreRngStepStep, resume, l.ranges⟩ }

/-- Take a cheap point with a preemption pending: with a usable entry the live state is saved (R178); otherwise the preemption proceeds by
forced full save and the entry's fault is recorded (R181). DEDUCED: log entry 45. -/
def takeCheap (c id : Nat) (live : Option LiveSet) (s : State) : State :=
  match live with
  | some l => s.modCore c fun x => { x with run := .cheapSave, live := some l }
  | none => (s.error (corePage c) 0x0104 0 id).modCore c fun x => { x with run := .forcedSave }

/-- A cheap point is reached while the core holds locks and CHECKED is 0: it is skipped and counted (R177). -/
def skipCheap (c : Nat) (s : State) : State := (s.bump (corePage c) Rg.coreCheapSkippedCount).raise (corePage c) 3

/-- The locks of the running context on a core (R165). -/
def locksHeld (s : State) (c : Nat) : Nat := s.reg (corePage c) Rg.coreLocksHeldCount

/-- The instruction word of CPMARK (R174). -/
def cpmarkWord (id : BitVec 16) (rsvd : BitVec 6) : Nat := 0x38 * 2 ^ 26 + rsvd.toNat * 2 ^ 16 + id.toNat

/-- CPMARK (R174 to R178, R181, R508, R534). DEDUCED: log entry 45. -/
def cpmarkBody (c : Nat) (id : BitVec 16) (rsvd : BitVec 6) (s : State) : State :=
  let x := s.core c
  if rsvd ≠ 0 ∨ id = 0 then trapIllegal c (cpmarkWord id rsvd) s
  else if locksHeld s c ≠ 0 ∧ s.flag (corePage c) Rg.coreExecControlChecked then trap c 0x0D id.toNat s
  else
    let live := cheapEntry s c id.toNat x.pc
    let t := s.modCore c fun y => { advance y with ctxStep := y.ctxStep + 1 }
    let t := if x.serving then t else t.addReg (corePage c) Rg.coreRngStepStep 1
    let t := noteMark c (formShadow c live (x.pc + 4) (cheapPassed c t))
    if locksHeld s c ≠ 0 then skipCheap c t else if x.preempt then takeCheap c id.toNat live t else t

/-- CPMARK (R174 to R178). -/
def execCpmark (c : Fin 160) (id : BitVec 16) (rsvd : BitVec 6) (s : State) : Host.Outcome State Fault Refusal :=
  .next (runInsn c (· == cpmarkWord id rsvd) (cpmarkBody c id rsvd) s)

/-- What a cheap point saves: the live registers, the flags, tags, stream slots and the resume address, and the live scratchpad ranges;
tiles and banks are dead (R178). DEDUCED: log entry 45. -/
def liveSave (s : State) (c : Nat) (l : LiveSet) : SavedCore :=
  let x := s.core c
  ⟨{ gpr := maskTable l.gMask x.gpr, vreg := maskTable l.vMask x.vreg, pc := x.pc, tags := x.tags, streams := x.streams,
     shadow := x.shadow, nonidem := x.nonidem, lateGrants := x.lateGrants, ctxStep := x.ctxStep, merged := x.merged,
     sentTo := x.sentTo, fabricSerial := x.fabricSerial },
   saveRegs s c, l.ranges, spadRanges s c l.ranges, false⟩

/-- What a forced save holds: everything, with array passes and loads that continue on resume (R367). DEDUCED: log entry 45. -/
def fullSave (s : State) (c : Nat) : SavedCore :=
  let x := s.core c
  ⟨{ x with
      ctx := none, run := if x.run = .halted then .halted else .idle, asked := false, preempt := false, preemptAt := none
      heldSince := none, surgeFor := none, lentTo := none, pausedAt := some (x.pausedAt.getD s.now) },
   saveRegs s c, [(0, 65536)], spadRanges s c [(0, 65536)], true⟩

/-- The choice that follows the release of a core of a partition (R365). -/
def chooseFor (r : Option CtxRef) (s : State) : State :=
  match r with
  | none => s
  | some r => choose r.part s

/-- CHEAP_SAVE_DONE (R178, R363, R365): every issued command other than stream commands has completed, the live state is spilled, SAVE_DONE
is raised, and the core is released. DEDUCED: log entry 45. -/
def execCheapSaveDone (c : Fin 160) (s : State) : Host.Outcome State Fault Refusal :=
  let x := s.core c
  .next (match x.ctx, x.live with
    | some r, some l =>
      if s.working ∧ !s.frozen (corePage c) ∧ x.run = .cheapSave ∧ enginesIdle x ∧ x.deferred.isNone then
        let t := saveCore c (liveSave s c l) s
        let t := (t.raise (corePage c) 5).bump (partPage r.part) Rg.partPreemptCheapCount
        choose r.part (releaseCore c t)
      else s
    | _, _ => s)

/-- FORCED_PREEMPT (R181, R185, R367): 100 µs after delivery without a cheap point, or at once where the core is trapped, the
control processor stops at the next instruction boundary and a blocked wait is abandoned. -/
def execForcedPreempt (c : Fin 160) (s : State) : Host.Outcome State Fault Refusal :=
  let x := s.core c
  let due : Bool := match x.preemptAt with
    | some t => decide (s.now ≥ t + 100000)
    | none => false
  let stoppable : Bool := match x.run with
    | .running | .blocked _ | .halted => true
    | _ => false
  .next (if s.working ∧ !s.frozen (corePage c) ∧ x.preempt ∧ stoppable ∧ (due ∨ s.flag (corePage c) Rg.coreTrapCauseValid) then
      (leaveWaits (coreAgent c) s).modCore c fun x => { x with run := .forcedSave }
    else s)

/-- FORCED_SAVE_DONE (R367, R375): the engines have stopped, requests already injected and coding commands in flight have
completed, the full state is saved, PREEMPT_FORCED counts it and FORCED_SAVE is raised, and the core is released. -/
def execForcedSaveDone (c : Fin 160) (s : State) : Host.Outcome State Fault Refusal :=
  let x := s.core c
  .next (match x.ctx with
    | some r =>
      if s.working ∧ !s.frozen (corePage c) ∧ x.run = .forcedSave ∧ x.codingOut = 0 ∧ x.requests.isEmpty then
        let t := cutPasses c s
        let t := saveCore c (fullSave t c) t
        let t := (t.bump (partPage r.part) Rg.partPreemptForcedCount).raise (partPage r.part) 3
        choose r.part (releaseCore c t)
      else s
    | none => s)

/-- PREEMPT_DELIVERED (R366, R369): the request reaches the core; a core that is blocked at a cheap-point wait takes it there. -/
def execPreemptDelivered (c : Fin 160) (s : State) : Host.Outcome State Fault Refusal :=
  let x := s.core c
  .next (if s.working ∧ x.asked ∧ x.ctx.isSome then
      let t := s.setCore c { x with asked := false, preempt := true, preemptAt := some s.now }
      match x.run with
      | .blocked b =>
        if b.cp ≠ 0 then takeCheap c b.cp (cheapEntry s c b.cp x.pc) (leaveWaits (coreAgent c) t) else t
      | _ => t
    else s)

end Sys2Proof.Machine
end

