-- ==== Sys2Proof/Machine/SigcBase.lean ====
section
/-! DEFINITION. What every instruction of a signal core shares (R189 to R191, R202, R203, R210): when it executes, its
registers, the loop-end test, and precise traps. -/

namespace Sys2Proof.Machine

/-- The signal core executes instructions: it operates, is not frozen, fenced or trapped, and its program runs (R190, R210). -/
def sigcReady (s : State) (k : Nat) : Bool :=
  let p := sigcPage k
  s.working && s.flag p Rg.pageStatusEnabled && !s.flag p Rg.pageControlFreeze && !s.flag p Rg.pageStatusFenced &&
    !s.flag p Rg.sigcTrapCauseValid && (s.sigc k).run == .running

/-- An a register, a modifier register, a d register and an accumulator, and setting them (R192). -/
def getA (x : Sigc) (r : Nat) : BitVec 64 := tabGet 0 r x.a
def setA (r : Nat) (v : BitVec 64) (x : Sigc) : Sigc := { x with a := tabPut 0 r v x.a }
def getK (x : Sigc) (r : Nat) : BitVec 64 := tabGet 0 r x.k
def getD (x : Sigc) (r : Nat) : DReg := tabGet {} r x.d
def setD (r : Nat) (v : DReg) (x : Sigc) : Sigc := { x with d := tabPut {} r v x.d }
def getAcc (x : Sigc) (r : Nat) : SAcc := tabGet {} r x.acc
def setAcc (r : Nat) (v : SAcc) (x : Sigc) : Sigc := { x with acc := tabPut {} r v x.acc }

/-- A loop level. -/
def levelOf (x : Sigc) (n : Nat) : LoopLevel := x.loops.getD n {}

/-- The loop-end test at an address, from the innermost level outward (R203): the levels, and where the program goes on. -/
def loopEnd (pc : BitVec 16) (ls : List LoopLevel) : Nat → List LoopLevel × BitVec 16
  | 0 => (ls, pc + 4)
  | n + 1 =>
    let l := ls.getD n {}
    if l.active ∧ l.last = pc then
      if l.count - 1 ≠ 0 then (ls.set n { l with count := l.count - 1 }, l.start)
      else loopEnd pc (ls.set n { l with active := false, count := 0 }) n
    else loopEnd pc ls n

/-- Complete the instruction at the program counter: the loop-end test applies unless LOOPHOLD is 1 (R203, R205). DEDUCED: log entry 49. -/
def sNext (x : Sigc) : Sigc :=
  if x.loopHold then { x with pc := x.pc + 4 }
  else
    let r := loopEnd x.pc x.loops 3
    { x with loops := r.1, pc := r.2 }

/-- A precise trap of a signal core (R210). -/
def strap (k cause detail : Nat) (s : State) : State :=
  let p := sigcPage k
  (s.setReg p Rg.sigcTrapCauseCause cause |>.setReg p Rg.sigcTrapCauseValid 1
    |>.setReg p Rg.sigcTrapPcPc (s.sigc k).pc.toNat |>.setReg p Rg.sigcTrapDetailDetail detail).raise p 1

/-- The trap ILLEGAL of a signal core: its detail is the word at the program counter (R210). -/
def sIllegal (k : Nat) (s : State) : State :=
  strap k 0x02 ((s.loadNat .simem (simemKey k (s.sigc k).pc.toNat) 4).getD 0) s

/-- Run one instruction of a signal core: an uncorrectable instruction word traps with FETCH_UE (R191, R210). -/
def runSInsn (k : Nat) (body : State → State) (s : State) : State :=
  if sigcReady s k then
    let a := simemKey k (s.sigc k).pc.toNat
    if cwBad .simem s.mem.simem (a / 8) then
      strap k 0x01 (s.sigc k).pc.toNat ((s.readEffect .simem a 4).capture (sigcPage k) 0x0501 0 (s.sigc k).pc.toNat)
    else body (s.readEffect .simem a 4)
  else s

/-- The trap DATA_UE of a signal core with its error record. -/
def strapDataUe (k addr : Nat) (s : State) : State := strap k 0x05 addr (s.capture (sigcPage k) 0x0502 0 addr)

/-- Set the sticky flags SAT and POISON of a signal core (R211). -/
def sFlags (k : Nat) (sat poison : Bool) (s : State) : State :=
  let p := sigcPage k
  s.setReg p Rg.sigcArithFlagsSat (s.reg p Rg.sigcArithFlagsSat ||| bit sat)
    |>.setReg p Rg.sigcArithFlagsPoison (s.reg p Rg.sigcArithFlagsPoison ||| bit poison)

/-- Register numbers that a signal core does not have: it has a0 to a15 (R192). -/
def noReg (rs : List (Fin 32)) : Bool := rs.any fun r => decide (r.val ≥ 16)

/-- The 32 elements of a d register (R193). -/
def dElems (v : DReg) : List Int := (List.range 32).map fun i => (v.data.extractLsb' (16 * i) 16).toInt

/-- 32 elements as a d register's data. -/
def dPack (l : List Int) : BitVec 512 :=
  BitVec.ofNat 512 (l.foldr (fun x n => (BitVec.ofInt 16 x).toNat + 2 ^ 16 * n) 0)

/-- A d register is poisoned (R62, R191). -/
def dPoison (v : DReg) : Bool := v.exp == 0x80

/-- The instruction at the program counter completes (R203). -/
def sDone (k : Nat) (s : State) : State := s.setSigc k (sNext (s.sigc k))

/-- Fields of a modifier register (R197). -/
def kBase (m : BitVec 64) : Nat := (m.extractLsb' 0 19).toNat
def kLength (m : BitVec 64) : Nat := (m.extractLsb' 20 20).toNat
def kMode (m : BitVec 64) : Nat := (m.extractLsb' 40 2).toNat
def kBits (m : BitVec 64) : Nat := (m.extractLsb' 42 5).toNat

/-- rev_R of R198: the low r bits in reverse order. -/
def revBits (r n : Nat) : Nat := (List.range r).foldl (fun t i => if n.testBit i then t + 2 ^ (r - 1 - i) else t) 0

/-- The post-modify of an a register (R198): none where it traps with ILLEGAL. free stands for the address that a modulo region of length 0
gives, which the spec does not state. DEDUCED: log entry 49. DESIGN CHOICE: log entry 50. -/
def postModify (m a free : BitVec 64) (u : Nat) (step : Int) : Option (BitVec 64) :=
  let mode := kMode m
  let base := kBase m
  if mode = 0 then some (a + BitVec.ofInt 64 step)
  else if mode = 1 then
    if step.natAbs > kLength m then none
    else if kLength m = 0 then some free
    else some (BitVec.ofInt 64 ((base : Int) + ((a.toNat : Int) - base + step) % (kLength m : Int)))
  else if mode = 2 then
    if step % (u : Int) ≠ 0 then none
    else
      let r := kBits m
      let o := (((a.toNat : Int) - base) / (u : Int) % 2 ^ r).toNat
      let o := revBits r ((((revBits r o : Nat) : Int) + step / (u : Int)) % 2 ^ r).toNat
      some (BitVec.ofNat 64 (base + o * u))
  else none

/-- The bank of a data-memory address (R189). DESIGN CHOICE: log entry 118. -/
def bankOf (a : BitVec 64) : Nat := a.toNat / 64 % 16

/-- Another requester takes lines of the data memory: a DMA channel that runs, or an ingress ring of the core (R192, R293). DESIGN CHOICE:
log entry 118. -/
def dmemShared (s : State) (k : Nat) : Bool :=
  (s.sigc k).dma.any (fun e => e.2.started) || s.radio.parts.any fun p => p.2.cells.any fun c => c.2.info.ingress.any fun e => e.2.1 == k

/-- The time that an access of the program waits for banks, counted in MEM_WAIT (R200, R211): lines of one bank always wait, and an access
may wait for another requester's. The spec states no length of a wait. DESIGN CHOICE: log entry 118. -/
def dmemWait (k : Nat) (conflict : Bool) (s : State) : State :=
  (s.addReg (sigcPage k) Rg.sigcMemWaitTime (bit conflict + if conflict || dmemShared s k then (s.free 8).toNat else 0)).usedFree

/-- The registers that LD and ST of a signal core name: a0 to a15, and k0 to k15 after them. DEDUCED: log entry 119. -/
def getAK (x : Sigc) (r : Fin 32) : BitVec 64 := if r.val < 16 then getA x r.val else getK x (r.val - 16)
def setAK (r : Fin 32) (v : BitVec 64) (x : Sigc) : Sigc :=
  if r.val < 16 then setA r.val v x else { x with k := tabPut 0 (r.val - 16) v x.k }

/-- A raw access of n bytes to the data memory at aN, modified by a step under kN after the access or before it (R198): f gets the modified
register and the address. There is no raw access of one byte. DEDUCED: log entry 119. -/
def rawInsn (k a n : Nat) (pre : Bool) (step : Int) (f : BitVec 64 → Nat → State → State) (s : State) : State :=
  let x := s.sigc k
  match postModify (getK x a) (getA x a) (s.free 64 1) n step with
  | none => sIllegal k s
  | some next =>
    let at_ := (if pre then next else getA x a).toNat
    if n = 1 then sIllegal k s
    else if at_ % n ≠ 0 then strap k 0x03 at_ s
    else if at_ ≥ 2 ^ 19 then strap k 0x04 at_ s
    else f next at_ (s.usedFree 2)

/-- An event source is raised: it stays pending until it is taken (R203, R204). -/
def sEvent (k src : Nat) (s : State) : State :=
  let x := s.sigc k
  if x.events.contains src then s else s.setSigc k { x with events := x.events ++ [src] }

end Sys2Proof.Machine
end

