-- ==== Sys2Proof/Machine/Stream.lean ====
section
/-! DEFINITION. The stream engine (R155 to R158): descriptors, their checks at issue, and the moves of single lines. The DMA
channels of the signal cores use the same descriptors (R192). -/

namespace Sys2Proof.Machine

/-- A stream descriptor (R156). -/
structure StreamDesc where
  out : Bool
  gather : Bool
  zblocks : Bool
  indexWidth : Nat
  hint : Nat
  run : Nat
  count1 : Nat
  count2 : Nat
  count3 : Nat
  mem : Nat
  scaleMem : Nat
  stride1 : Int
  stride2 : Int
  stride3 : Int
  blockBytes : Nat
  spad : Nat
  ring : Nat
  scaleSpad : Nat
  index : Nat
  deriving DecidableEq, Repr

/-- Read a stream descriptor. -/
def streamDesc (d : BitVec 512) : StreamDesc :=
  { out := dField d 0 0 1 = 1
    gather := dField d 0 1 1 = 1
    zblocks := dField d 0 2 1 = 1
    indexWidth := 2 * 2 ^ dField d 0 3 2
    hint := dField d 0 5 2
    run := dField d 0 8 10
    count1 := dField d 4 0 16
    count2 := dField d 4 16 16
    count3 := dField d 8 0 16
    mem := dField d 0x10 0 64
    scaleMem := dField d 0x18 0 64
    stride1 := signed 32 (dField d 0x20 0 32)
    stride2 := signed 32 (dField d 0x24 0 32)
    stride3 := signed 32 (dField d 0x28 0 32)
    blockBytes := dField d 0x2C 0 8
    spad := dField d 0x30 0 22
    ring := dField d 0x34 0 22
    scaleSpad := dField d 0x38 0 22
    index := dField d 0x3C 0 22 }

/-- The block sizes of ZBLOCKS (R156). -/
def blockSizes : List Nat := [8, 16, 32, 48, 64]

/-- The failures of a stream descriptor that are common to stream slots and DMA channels, as byte offsets (R137, R156). DEDUCED: log entry
43. -/
def streamFieldErrs (d : BitVec 512) (sizes : List Nat) (memBytes : Nat) : List Nat :=
  let p := streamDesc d
  reservedErrs d [(18, 32), (80, 96), (96, 128), (0x2C * 8 + 8, 0x30 * 8), (0x30 * 8 + 22, 0x34 * 8),
      (0x34 * 8 + 22, 0x38 * 8), (0x38 * 8 + 22, 0x3C * 8), (0x3C * 8 + 22, 0x40 * 8)]
    ++ (if dField d 0 3 2 = 3 ∨ p.hint = 3 then [0] else [])
    ++ (if p.count1 = 0 then [4] else []) ++ (if p.count2 = 0 then [6] else []) ++ (if p.count3 = 0 then [8] else [])
    ++ (if p.zblocks ∧ !sizes.contains p.blockBytes then [0x2C] else [])
    ++ (if p.spad % 64 ≠ 0 then [0x30] else [])
    ++ (if p.ring = 0 ∨ p.ring % 64 ≠ 0 then [0x34] else [])
    ++ (if p.spad + p.ring > memBytes then [0x30] else [])
    ++ (if p.gather ∧ p.index + p.count1 * p.indexWidth > memBytes then [0] else [])
    ++ (if p.zblocks ∧ sizes.contains p.blockBytes ∧
          ((64 * (p.run + 1)) % p.blockBytes ≠ 0 ∨ p.stride1 % p.blockBytes ≠ 0 ∨ p.stride2 % p.blockBytes ≠ 0 ∨
            p.stride3 % p.blockBytes ≠ 0) then [0] else [])

/-- The failures of a stream descriptor at issue. DEDUCED: log entry 43. -/
def streamErrs (d : BitVec 512) : List Nat :=
  let p := streamDesc d
  streamFieldErrs d blockSizes (2 ^ 22)
    ++ (if p.zblocks ∧ blockSizes.contains p.blockBytes ∧ p.scaleSpad + p.ring / p.blockBytes > 2 ^ 22 then [0] else [])

/-- A stream slot of a core, and setting it. -/
def slotOf (x : Core) (n : Nat) : StreamSlot := tabGet {} n x.streams
def setSlot (n : Nat) (v : StreamSlot) (x : Core) : Core := { x with streams := tabPut {} n v x.streams }

/-- ISSUE_STREAM (R136, R137, R156). -/
def execIssueStream (c : Fin 160) (w : IssueWord) (s : State) : Host.Outcome State Fault Refusal :=
  .next (runInsn c (· == issueWord 2 w) (issueBody c 2 w (fun d _ => leastOf (streamErrs d)) (fun _ _ => none)
    (fun _ t => decide ((slotOf (t.core c) w.unit.val).queue.length ≥ 2))
    (fun q x _ => setSlot w.unit.val { slotOf x w.unit.val with queue := (slotOf x w.unit.val).queue ++ [q] } x)) s)

/-- Lines of a descriptor's pattern. -/
def streamLines (p : StreamDesc) : Nat := (p.run + 1) * p.count1 * p.count2 * p.count3

/-- The dimensions of a line: position in its run, and i1, i2, i3, with i1 innermost. -/
def lineDims (p : StreamDesc) (n : Nat) : Nat × Nat × Nat × Nat :=
  let r := n / (p.run + 1)
  (n % (p.run + 1), r % p.count1, r / p.count1 % p.count2, r / (p.count1 * p.count2))

/-- The offset of a line from MEM_ADDR; i1 is the index list's entry in a gather. -/
def lineOffset (p : StreamDesc) (n : Nat) (i1 : Nat) : Int :=
  let d := lineDims p n
  (i1 : Int) * p.stride1 + (d.2.2.1 : Int) * p.stride2 + (d.2.2.2 : Int) * p.stride3 + 64 * (d.1 : Int)

/-- A base address with a signed offset, modulo 2⁶⁴. -/
def addrAt (base : Nat) (off : Int) : Nat := (((base : Int) + off) % 2 ^ 64).toNat

/-- The scratchpad bytes of a gather's index entry for a line. DEDUCED: log entry 43. -/
def indexPlace (p : StreamDesc) (n : Nat) : Nat := p.index + (lineDims p n).2.1 * p.indexWidth

/-- What a line's index is: its i1, or the entry of the index list; none where the entry cannot be read. -/
def lineIndex (s : State) (r : Region) (base : Nat) (p : StreamDesc) (n : Nat) : Option Nat :=
  if p.gather then s.loadNat r (base + indexPlace p n) p.indexWidth else some (lineDims p n).2.1

/-- The blocks that begin in line n of the pattern, by number, and those that it overlaps. -/
def lineBlocks (bb n : Nat) : List Nat :=
  (List.range ((64 * n + 63) / bb + 1 - (64 * n + bb - 1) / bb)).map (· + (64 * n + bb - 1) / bb)
def lineOverlap (bb n : Nat) : List Nat := (List.range ((64 * n + 63) / bb + 1 - 64 * n / bb)).map (· + 64 * n / bb)

/-- What the next line of a slot meets. -/
inductive LineMeets where
  /-- It can move. -/
  | moves
  /-- It waits: a held unit or a page under copy. -/
  | waits
  /-- It halts the slot with an error code of R187 at an address. -/
  | halts (code addr : Nat)
  deriving DecidableEq, Repr

/-- The error code of a translation failure (R187, R242). -/
def accessCode : AccessError → Nat
  | .fault => 2
  | .denied => 3

/-- What a read of a plane meets: raw data with an uncorrectable byte halt (R158). -/
def readMeets (s : State) (k a n : Nat) (raw : Bool) : LineMeets :=
  match s.partRead k a n with
  | .error e at_ => .halts (accessCode e) at_
  | .held _ => .waits
  | .data b => if raw && b.any Option.isNone then .halts 1 a else .moves

/-- What a write of a plane meets. -/
def writeMeets (s : State) (k a n : Nat) : LineMeets :=
  match s.partWriteCheck k a n with
  | .error e at_ => .halts (accessCode e) at_
  | .waits => .waits
  | .done => .moves

/-- The first of two that does not move. -/
def meetBoth (a b : LineMeets) : LineMeets := if a = .moves then b else a

/-- Where a line's scale bytes lie in memory: the address for the first block that begins in it, and their number. -/
def scalePlace (p : StreamDesc) (off : Int) (n : Nat) : Nat × Nat :=
  let bl := lineBlocks p.blockBytes n
  let j := (lineDims p n).1
  -- the line's run begins 64·j bytes before its offset and on a block boundary
  let first := (bl.head?.getD 0) * p.blockBytes - (64 * n - 64 * j)
  (addrAt p.scaleMem ((off - 64 * j + first) / (p.blockBytes : Int)), bl.length)

/-- The ring address of the line that follows base earlier lines and n lines of the descriptor, and of a block's exponent. A slot's count of
lines goes on from one descriptor to the next, so that no line is used again before the program has returned it (R157). DEDUCED: log entry
117. -/
def ringLine (p : StreamDesc) (base n : Nat) : Nat := p.spad + 64 * ((base + n) % max 1 (p.ring / 64))
def ringScale (p : StreamDesc) (base b : Nat) : Nat :=
  p.scaleSpad + (64 * base / max 1 p.blockBytes + b) % max 1 (p.ring / max 1 p.blockBytes)

/-- The lines that a slot produced before its running descriptor (R157). DEDUCED: log entry 117. -/
def ringBase (v : StreamSlot) : Nat := v.produced - v.moved

/-- The scale-plane address of a block that line n, at offset off, overlaps (R156). -/
def blockScaleAt (p : StreamDesc) (off : Int) (n blk : Nat) : Nat :=
  let j := (lineDims p n).1
  addrAt p.scaleMem ((off - 64 * j + ((blk * p.blockBytes : Nat) : Int) - ((64 * n - 64 * j : Nat) : Int)) / (p.blockBytes : Int))

/-- What the line n of a stream slot meets (R158). -/
def lineMeets (s : State) (k c : Nat) (p : StreamDesc) (base n : Nat) : LineMeets :=
  match lineIndex s .spad (spadKey c 0) p n with
  | none => .halts 1 (indexPlace p n)
  | some i1 =>
    let off := lineOffset p n i1
    let a := addrAt p.mem off
    if p.out then
      let raw := if !p.zblocks && (s.spadRead c (ringLine p base n) 64).isNone then LineMeets.halts 1 a else .moves
      let sc := scalePlace p off n
      meetBoth raw (meetBoth (writeMeets s k a 64) (if p.zblocks then writeMeets s k sc.1 sc.2 else .moves))
    else
      let sc := scalePlace p off n
      meetBoth (readMeets s k a 64 (!p.zblocks)) (if p.zblocks then readMeets s k sc.1 sc.2 false else .moves)

/-- The cache hint of a descriptor (R156). -/
def StreamDesc.cacheHint (p : StreamDesc) : CacheHint := if p.hint = 1 then .stream else if p.hint = 2 then .keep else .allocate

/-- The bytes of a read that does not halt. -/
def readOpt (s : State) (k a n : Nat) : List (Option Byte) :=
  match s.partRead k a n with
  | .data b => b
  | _ => List.replicate n none

/-- Move line n of a stream slot into the ring: elements, and with ZBLOCKS the exponents of the blocks that begin in it, 0x80 for
every block of which a byte cannot be read (R62, R158). -/
def moveIn (k c : Nat) (p : StreamDesc) (base n : Nat) (s : State) : State :=
  let i1 := (lineIndex s .spad (spadKey c 0) p n).getD 0
  let off := lineOffset p n i1
  let a := addrAt p.mem off
  let b := readOpt s k a 64
  let data := b.mapIdx fun i o => o.getD ((s.free 512).extractLsb' (8 * i) 8)
  let t := ((s.partTouch k a 64 p.cacheHint).spadWrite c (ringLine p base n) data).usedFree
  if !p.zblocks then t
  else
    let sc := scalePlace p off n
    let es := readOpt s k sc.1 sc.2
    let t := t.partTouch k sc.1 sc.2 p.cacheHint
    let bad := fun blk => (List.range 64).any fun i => (64 * n + i) / p.blockBytes == blk && (b.getD i none).isNone
    let t := t.each ((lineBlocks p.blockBytes n).mapIdx fun i blk => (i, blk)) fun (i, blk) u =>
      u.spadWrite c (ringScale p base blk) [if bad blk then 0x80 else (es.getD i none).getD 0x80]
    t.each ((lineOverlap p.blockBytes n).filter fun blk => bad blk && !(lineBlocks p.blockBytes n).contains blk) fun blk u =>
      u.spadWrite c (ringScale p base blk) [0x80]

/-- Move line n of a stream slot out of the ring (R155, R158): a block of which a byte cannot be read is written poisoned, also where it began
in the line before (R62). -/
def moveOut (k c : Nat) (p : StreamDesc) (base n : Nat) (s : State) : State :=
  let i1 := (lineIndex s .spad (spadKey c 0) p n).getD 0
  let off := lineOffset p n i1
  let a := addrAt p.mem off
  let b := readBytes .spad s.mem.spad (spadKey c (ringLine p base n)) 64
  let t := s.readEffect .spad (spadKey c (ringLine p base n)) 64
  let data := b.mapIdx fun i o => o.getD ((s.free 512).extractLsb' (8 * i) 8)
  let t := (t.partStore k a data).usedFree
  if !p.zblocks then t
  else
    let sc := scalePlace p off n
    let bad := fun blk => (List.range 64).any fun i => (64 * n + i) / p.blockBytes == blk && (b.getD i none).isNone
    let es := (lineBlocks p.blockBytes n).map fun blk =>
      if bad blk then (0x80 : Byte) else (readByte .spad s.mem.spad (spadKey c (ringScale p base blk))).getD 0x80
    (t.partStore k sc.1 es).each ((lineOverlap p.blockBytes n).filter fun blk => bad blk && !(lineBlocks p.blockBytes n).contains blk) fun blk u =>
      u.partWrite k (blockScaleAt p off n blk) [0x80]

/-- The slots of a core move lines: the core is not frozen, fenced, saved or stopped for a save (R155, R178, R367, R628). -/
def slotsRun (s : State) (c : Nat) : Bool :=
  s.working && !s.flag (corePage c) Rg.pageControlFreeze && !s.flag (corePage c) Rg.pageStatusFenced &&
    (s.core c).ctx.isSome && (s.core c).run != .cheapSave && (s.core c).run != .forcedSave &&
    (s.core c).run != .restoring

/-- The ring has room for the next line, or for DIR = 1 a released line waits (R157). -/
def ringAllows (p : StreamDesc) (v : StreamSlot) : Bool :=
  if p.out then decide (v.produced < v.returned) else decide (v.produced < v.returned + p.ring / 64)

/-- Set the state and the halt cause of a slot in CORE.STREAM_STATUS. -/
def slotStatus (c n state err : Nat) (s : State) : State :=
  s.setReg (corePage c) Rg.coreStreamStatusState state n |>.setReg (corePage c) Rg.coreStreamStatusError err n

/-- STREAM_SLOT_START (R139, R155): the next queued descriptor begins. -/
def execStreamSlotStart (c : Fin 160) (slot : Fin 16) (s : State) : Host.Outcome State Fault Refusal :=
  let v := slotOf (s.core c) slot
  .next (if slotsRun s c ∧ !v.started ∧ !v.queue.isEmpty then
      slotStatus c slot 1 0 (s.setCore c (setSlot slot { v with started := true, moved := 0 } (s.core c)))
    else s)

/-- The running descriptor of a slot and its context's partition. -/
def runningSlot (s : State) (c n : Nat) : Option (StreamSlot × QueuedCmd × StreamDesc × Nat) :=
  let v := slotOf (s.core c) n
  match v.queue, (s.core c).ctx with
  | q :: _, some ctx => if v.started && slotsRun s c then some (v, q, streamDesc q.desc, ctx.part) else none
  | _, _ => none

/-- STREAM_LINE_MOVED (R155 to R158): one line moves; a read that is held only starts its unit's re-sourcing (R272). -/
def execStreamLineMoved (c : Fin 160) (slot : Fin 16) (s : State) : Host.Outcome State Fault Refusal :=
  .next (match runningSlot s c slot with
    | none => s
    | some (v, _, p, k) =>
      if v.moved < streamLines p ∧ ringAllows p v then
        match lineMeets s k c p (ringBase v) v.moved with
        | .moves =>
          let t := spadWait c (if p.out then moveOut k c p (ringBase v) v.moved s else moveIn k c p (ringBase v) v.moved s)
          t.setCore c (setSlot slot { v with moved := v.moved + 1, produced := v.produced + 1 } (t.core c))
        | .waits =>
          if p.out then s
          else
            let off := lineOffset p v.moved ((lineIndex s .spad (spadKey c 0) p v.moved).getD 0)
            let sc := scalePlace p off v.moved
            let t := s.partTouch k (addrAt p.mem off) 64 p.cacheHint
            if p.zblocks then t.partTouch k sc.1 sc.2 p.cacheHint else t
        | .halts _ _ => s
      else s)

/-- STREAM_SLOT_DONE (R140, R141): the last line has moved. -/
def execStreamSlotDone (c : Fin 160) (slot : Fin 16) (s : State) : Host.Outcome State Fault Refusal :=
  .next (match runningSlot s c slot with
    | none => s
    | some (v, q, p, _) =>
      if v.moved = streamLines p then
        slotStatus c slot 2 0 (s.setCore c (finishTag q.tag false
          (setSlot slot { v with queue := v.queue.drop 1, started := false, moved := 0 } (s.core c))))
      else s)

/-- STREAM_HALT (R158): the next line meets an uncorrectable raw read or a translation or access fault. -/
def execStreamHalt (c : Fin 160) (slot : Fin 16) (s : State) : Host.Outcome State Fault Refusal :=
  .next (match runningSlot s c slot with
    | none => s
    | some (v, q, p, k) =>
      if v.moved < streamLines p ∧ ringAllows p v then
        match lineMeets s k c p (ringBase v) v.moved with
        | .halts code addr =>
          let off := lineOffset p v.moved ((lineIndex s .spad (spadKey c 0) p v.moved).getD 0)
          let t := if code = 2 then s.faultTouch k addr 1 p.out
            else if code = 1 ∧ !p.out then s.partTouch k (addrAt p.mem off) 64 p.cacheHint else s
          let t := if code = 1 then t.error (corePage c) 0x0103 slot addr else t
          let t := t.setCore c (finishTag q.tag true
            (setSlot slot { v with queue := v.queue.drop 1, started := false, moved := 0 } (t.core c)))
          ((slotStatus c slot 3 code t).setReg (corePage c) Rg.coreStreamErrorAddrAddress addr slot).raise (corePage c) 4
        | _ => s
      else s)

end Sys2Proof.Machine
end

