-- ==== Sys2Proof/Machine/Sync.lean ====
section
/-! DEFINITION. Semaphores, waits and fences of compute cores and signal cores (R163 to R173, R179, R208, R209, R370 to
R373, R463), and SREL (R157). -/

namespace Sys2Proof.Machine

/-- Whether the agent is a signal core. -/
def isSigc : Agent → Bool
  | .core _ => false
  | .sigc _ => true

/-- The partition for which an agent executes: its context's, or the signal core's owner (R190). -/
def agentPart (s : State) : Agent → Option Nat
  | .core c => (s.core c).ctx.map (·.part)
  | .sigc k => ownerOfSigc s k

/-- The owner tag of an agent (R164). -/
def agentTag (s : State) : Agent → BitVec 24
  | .core c =>
    match (s.core c).ctx with
    | some r => coreTag r.part r.ctx c
    | none => 0
  | .sigc k => sigcTag ((ownerOfSigc s k).getD 0) k

/-- Run an instruction of an agent. The encodings of a signal core are not given (R186). -/
def runAgent (a : Agent) (spells : Nat → Bool) (body : State → State) (s : State) : State :=
  match a with
  | .core c => runInsn c spells body s
  | .sigc k => runSInsn k body s

/-- A register of an agent: g0 to g31, or a0 to a15 (R209). -/
def agentReg (s : State) (a : Agent) (r : Fin 32) : BitVec 64 :=
  match a with
  | .core c => getG (s.core c) r
  | .sigc k => getA (s.sigc k) r

/-- Write a register of an agent and complete the instruction. -/
def agentDone (a : Agent) (r : Fin 32) (v : BitVec 64) (s : State) : State :=
  match a with
  | .core c => s.modCore c fun x => advance (setG r v x)
  | .sigc k => s.setSigc k (sNext (setA r v (s.sigc k)))

/-- A trap of an agent. -/
def agentTrap (a : Agent) (cause detail : Nat) (s : State) : State :=
  match a with
  | .core c => trap c cause detail s
  | .sigc k => if cause = 0x02 then sIllegal k s else strap k cause detail s

/-- An agent has not the registers that an instruction names. -/
def lacks (a : Agent) (rs : List (Fin 32)) : Bool := isSigc a && noReg rs

/-- Locks that the agent's program holds (R165), and changing their number. -/
def agentLocks (s : State) : Agent → Nat
  | .core c => locksHeld s c
  | .sigc k => (s.sigc k).locks
def setLocks (a : Agent) (n : Nat) (s : State) : State :=
  match a with
  | .core c => s.setReg (corePage c) Rg.coreLocksHeldCount n
  | .sigc k => s.setSigc k { s.sigc k with locks := n }

/-- Grants that a SEMACQ reporting TIMEOUT_LATE_ARRIVAL left (R172). -/
def lateOf (s : State) : Agent → List Nat
  | .core c => (s.core c).lateGrants
  | .sigc k => (s.sigc k).lateGrants
def setLate (a : Agent) (l : List Nat) (s : State) : State :=
  match a with
  | .core c => s.modCore c fun x => { x with lateGrants := l }
  | .sigc k => s.setSigc k { s.sigc k with lateGrants := l }

/-- The semaphore that an index of the agent's partition names; none outside its range (R163). -/
def semOf (s : State) (a : Agent) (ix : BitVec 64) : Option Nat :=
  match agentPart s a with
  | none => none
  | some k =>
    if ix.toNat < s.reg (partPage k) Rg.partSemCountCount then some (s.reg (partPage k) Rg.partSemBaseBase + ix.toNat) else none

/-- The instruction word of the synchronization group (R168). -/
def syncWord (op : Nat) (w : SyncWord) : Nat :=
  op * 2 ^ 26 + w.gd.val * 2 ^ 21 + w.gs.val * 2 ^ 16 + w.gt.val * 2 ^ 11 + bit w.rsvd * 2 ^ 10 + w.cp.val

/-- The deadline that a register number names; none for register 0 of a compute core (R168). -/
def deadlineOf (s : State) (a : Agent) (gt : Fin 32) : Option (BitVec 64) :=
  if gt = 0 then none else some (agentReg s a gt)

/-- SEMACQ, SEMREL or SEMSET of a counter makes the work of a core not repeatable (R534). -/
def markCounter (a : Agent) (n : Nat) (s : State) : State :=
  match a with
  | .core c => if (s.sem n).lock then s else s.modCore c fun x => { x with nonidem := true }
  | .sigc _ => s

/-- A lock that the agent owns (R164). -/
def ownsSem (s : State) (a : Agent) (n : Nat) : Bool := (s.sem n).lock && (s.sem n).owner == some (agentTag s a)

/-- A free lock or a count above 0. -/
def grantable (m : Sem) : Bool := if m.lock then m.owner.isNone else decide (m.count > 0)

/-- The status of a grant (R167, R170). -/
def grantStatus (m : Sem) : BitVec 64 := if m.lock ∧ m.aborted then 5 else 0

/-- Take a grantable semaphore (R164, R165). -/
def takeSem (a : Agent) (n : Nat) (s : State) : State :=
  let m := s.sem n
  if m.lock then setLocks a (agentLocks s a + 1) (s.setSem n { m with owner := some (agentTag s a), aborted := false })
  else s.setSem n { m with count := m.count - 1 }

/-- A wait of a core that would block traps with SEM_AT_CHEAP: it is a cheap point, and locks are held in checked mode (R177). -/
def cheapTraps (s : State) (a : Agent) (cp : Nat) : Bool :=
  match a with
  | .sigc _ => false
  | .core c => cp != 0 && locksHeld s c != 0 && s.flag (corePage c) Rg.coreExecControlChecked

/-- Block an agent in a wait. A wait of a compute core with nonzero CP is a cheap point (R174): one that traps under R177 leaves the state
from before the instruction; otherwise it is skipped while locks are held, and a pending preemption takes it. -/
def blockIn (a : Agent) (kind : WaitKind) (gd : Fin 32) (dl : Option (BitVec 64)) (cp : Nat) (before s : State) : State :=
  if cheapTraps before a cp then agentTrap a 0x0D cp before
  else
    match a with
    | .sigc k => s.setSigc k { s.sigc k with run := .blocked ⟨kind, gd, dl, 0⟩ }
    | .core c =>
      let x := s.core c
      let locked := locksHeld s c != 0
      let t := if cp ≠ 0 then cheapPassed c s else s
      let t := if cp ≠ 0 ∧ locked then skipCheap c t else t
      if cp ≠ 0 ∧ !locked ∧ x.preempt then takeCheap c cp (cheapEntry s c cp x.pc) t
      else settleGap c (t.modCore c fun y => { y with run := .blocked ⟨kind, gd, dl, if locked then 0 else cp⟩ })

/-- A semaphore's waiter queues behind the earlier ones, unless it did not block. -/
def queueWaiter (a : Agent) (n : Nat) (s : State) : State :=
  let blocked : Bool := match a with
    | .core c => match (s.core c).run with
      | .blocked _ => true
      | _ => false
    | .sigc _ => true
  if blocked then s.setSem n { s.sem n with waiters := (s.sem n).waiters ++ [.agent a] } else s

/-- SEMACQ (R163 to R165, R172). -/
def semacqBody (a : Agent) (w : SyncWord) (s : State) : State :=
  let ix := agentReg s a w.gs
  if w.rsvd ∨ lacks a [w.gd, w.gs, w.gt] ∨ (isSigc a ∧ w.cp ≠ 0) then
    agentTrap a 0x02 (syncWord 0x30 w) s
  else
    match semOf s a ix with
    | none => agentTrap a 0x0B ix.toNat s
    | some n =>
      let m := s.sem n
      if (lateOf s a).contains n then
        agentDone a w.gd 0 (setLate a ((lateOf s a).erase n) (markCounter a n s))
      else if ownsSem s a n then agentTrap a 0x0C ix.toNat s
      else if m.lock ∧ agentLocks s a ≥ 255 then agentTrap a 0x0E ix.toNat s
      else
        let t := markCounter a n s
        if grantable m ∧ m.waiters.isEmpty then agentDone a w.gd (grantStatus m) (takeSem a n t)
        else queueWaiter a n (blockIn a (.sem n) w.gd (deadlineOf s a w.gt) w.cp s t)

/-- SEMACQ. -/
def execSemacq (a : Agent) (w : SyncWord) (s : State) : Host.Outcome State Fault Refusal :=
  .next (runAgent a (· == syncWord 0x30 w) (semacqBody a w) s)

/-- SEMTRY: as SEMACQ without waiting; BUSY if not granted (R165, R168). -/
def semtryBody (a : Agent) (w : SyncWord) (s : State) : State :=
  let ix := agentReg s a w.gs
  if w.rsvd ∨ lacks a [w.gd, w.gs] ∨ (isSigc a ∧ w.cp ≠ 0) then
    agentTrap a 0x02 (syncWord 0x32 w) s
  else
    match semOf s a ix with
    | none => agentTrap a 0x0B ix.toNat s
    | some n =>
      let m := s.sem n
      if ownsSem s a n then agentTrap a 0x0C ix.toNat s
      else if m.lock ∧ agentLocks s a ≥ 255 then agentTrap a 0x0E ix.toNat s
      else if grantable m ∧ m.waiters.isEmpty then agentDone a w.gd (grantStatus m) (takeSem a n s)
      else agentDone a w.gd 4 s

/-- SEMTRY. -/
def execSemtry (a : Agent) (w : SyncWord) (s : State) : Host.Outcome State Fault Refusal :=
  .next (runAgent a (· == syncWord 0x32 w) (semtryBody a w) s)

/-- The end of a donated slice at the owner's release of a lock (R370). -/
def releaseDonation (a : Agent) (n : Nat) (s : State) : State :=
  match a with
  | .core c =>
    match (s.core c).ctx with
    | some r => endDonation r.part r.ctx (fun e => e.2 == n) s
    | none => s
  | .sigc _ => s

/-- The instruction word of SEMREL (R168). -/
def semrelWord (gd gs : Fin 32) (count rsvd : BitVec 8) : Nat :=
  0x31 * 2 ^ 26 + gd.val * 2 ^ 21 + gs.val * 2 ^ 16 + rsvd.toNat * 256 + count.toNat

/-- SEMREL (R164, R165): by the owner it frees a lock; it adds COUNT, 0 meaning 1, to a counter, saturating. The status OK goes to gd as for
every instruction of the group (R168). DEDUCED: log entry 47. -/
def semrelBody (a : Agent) (gd gs : Fin 32) (count rsvd : BitVec 8) (s : State) : State :=
  let ix := agentReg s a gs
  if rsvd ≠ 0 ∨ lacks a [gd, gs] then
    agentTrap a 0x02 (semrelWord gd gs count rsvd) s
  else
    match semOf s a ix with
    | none => agentTrap a 0x0B ix.toNat s
    | some n =>
      let m := s.sem n
      if m.lock then
        if ownsSem s a n then
          let t := setLocks a (agentLocks s a - 1) (s.setSem n { m with owner := none })
          let t := setLate a ((lateOf t a).erase n) t
          releaseDonation a n (agentDone a gd 0 t)
        else agentTrap a 0x0C ix.toNat s
      else
        let add := if count = 0 then 1 else count.toNat
        agentDone a gd 0 (markCounter a n (s.setSem n { m with count := min (m.count + add) (2 ^ 32 - 1) }))

/-- SEMREL. -/
def execSemrel (a : Agent) (gd gs : Fin 32) (count : BitVec 8) (rsvd : BitVec 8) (s : State) :
    Host.Outcome State Fault Refusal :=
  .next (runAgent a (· == semrelWord gd gs count rsvd) (semrelBody a gd gs count rsvd) s)

/-- SEMSET (R164): the value is checked first; then the semaphore must have no waiter and, as a lock, be free. DEDUCED: log entry 47. -/
def semsetBody (a : Agent) (w : SyncWord) (s : State) : State :=
  let ix := agentReg s a w.gs
  let v := agentReg s a w.gt
  let lock := v.getLsbD 63
  let count := v.toNat % 2 ^ 63
  if w.rsvd ∨ lacks a [w.gd, w.gs, w.gt] ∨ (isSigc a ∧ w.cp ≠ 0) then
    agentTrap a 0x02 (syncWord 0x36 w) s
  else
    match semOf s a ix with
    | none => agentTrap a 0x0B ix.toNat s
    | some n =>
      let m := s.sem n
      if (lock ∧ count ≠ 0) ∨ count > 2 ^ 32 - 1 then agentDone a w.gd 6 s
      else if !m.waiters.isEmpty ∨ (m.lock ∧ m.owner.isSome) then agentDone a w.gd 4 s
      else
        let t := s.setSem n { lock := lock, count := count, owner := none, aborted := false, waiters := [] }
        agentDone a w.gd 0 (markCounter a n t)

/-- SEMSET. -/
def execSemset (a : Agent) (w : SyncWord) (s : State) : Host.Outcome State Fault Refusal :=
  .next (runAgent a (· == syncWord 0x36 w) (semsetBody a w) s)

/-- The wait in which an agent is blocked. -/
def blockedOf (s : State) : Agent → Option Blocked
  | .core c => match (s.core c).run with
    | .blocked b => if s.flag (corePage c) Rg.pageControlFreeze ∨ s.flag (corePage c) Rg.pageStatusFenced then none else some b
    | _ => none
  | .sigc k => match (s.sigc k).run with
    | .blocked b => if s.flag (sigcPage k) Rg.pageControlFreeze ∨ s.flag (sigcPage k) Rg.pageStatusFenced then none else some b
    | _ => none

/-- A blocked wait completes with a status: the agent runs again (R168). DEDUCED: log entry 47. -/
def wake (a : Agent) (b : Blocked) (status : BitVec 64) (s : State) : State :=
  match a with
  | .core c => settleGap c (s.modCore c fun x => advance (setG b.gd status { x with run := .running }))
  | .sigc k => s.setSigc k (sNext (setA b.gd.val status { s.sigc k with run := .running }))

/-- The wait's deadline has passed: device time is past it, or at it where the arbiter lets the timeout come first (R172). -/
def passed (s : State) (b : Blocked) (atDeadline : Bool) : Bool :=
  match b.deadline with
  | none => false
  | some d => decide (s.now % 2 ^ 64 > d.toNat) || (decide (s.now % 2 ^ 64 = d.toNat) && atDeadline)

/-- SEMAPHORE_GRANT (R164, R167, R172, R267): the waiter in front takes the lock or a count. DEDUCED: log entry 47. -/
def execSemaphoreGrant (sem : Fin 65536) (arb : Bool) (s : State) : Host.Outcome State Fault Refusal :=
  let m := s.sem sem
  .next (match m.waiters with
    | [] => s
    | .sluice e :: rest =>
      if s.working ∧ !m.lock ∧ m.count > 0 then
        { s with tier := { s.tier with sluices := s.tier.sluices.map fun (v : Nat × SluiceRun) =>
            if v.1 = e then (e, { v.2 with waits := none, granted := true }) else v } }.setSem sem { m with count := m.count - 1, waiters := rest }
      else s
    | .agent a :: rest =>
      match blockedOf s a with
      | some b =>
        if s.working ∧ b.kind = .sem sem ∧ grantable m ∧ !passed s b (!arb) then
          wake a b (grantStatus m) (takeSem a sem (s.setSem sem { m with waiters := rest }))
        else s
      | none => s)

/-- Every tag of a range is done (R169). -/
def tagsDone (x : Core) (first count : Nat) : Bool :=
  (List.range count).all fun i => match tagOf x (first + i) with
    | some (.done _) => true
    | _ => false

/-- The event of a selector has arrived (R169, R209). -/
def eventArrived (s : State) (a : Agent) (sel : BitVec 64) : Bool :=
  let kind := (sel >>> 60).toNat
  let n := sel.toNat
  match a with
  | .core c =>
    let x := s.core c
    if kind = 0 then tagsDone x (n % 256) 1
    else if kind = 1 then tagsDone x (n % 256) (n / 256 % 256 + 1)
    else decide ((slotOf x (n % 16)).produced ≥ n / 65536 % 2 ^ 32)
  | .sigc k =>
    let x := s.sigc k
    if kind = 2 then
      let made := if n % 16 = 2 then s.reg (sigcPage k) Rg.sigcIngressProducedCount else (tabGet {} (n % 16) x.dma).produced
      decide (made ≥ n / 65536 % 2 ^ 32)
    else
      let v := tabGet {} (n % 2) x.dma
      let st := s.reg (sigcPage k) Rg.sigcDmaStatusState (n % 2)
      v.queue.isEmpty && (st == 2 || st == 3)

/-- The selector is illegal (R169, R209). -/
def selectorIllegal (a : Agent) (sel : BitVec 64) : Bool :=
  let kind := (sel >>> 60).toNat
  let n := sel.toNat
  match a with
  | .core _ => decide (kind > 2) || (kind == 1 && decide (n % 256 + n / 256 % 256 > 255))
  | .sigc _ => !(kind == 2 || kind == 3) || (kind == 2 && decide (n % 16 > 2))

/-- Consume the tags of an event that has arrived, and its status: ENGINE_ERROR with the lowest such tag (R140, R170). -/
def consume (s : State) (a : Agent) (sel : BitVec 64) : State × BitVec 64 :=
  let kind := (sel >>> 60).toNat
  let n := sel.toNat
  match a with
  | .sigc _ => (s, 0)
  | .core c =>
    if kind > 1 then (s, 0)
    else
      let x := s.core c
      let tags := (List.range (if kind = 0 then 1 else n / 256 % 256 + 1)).map (· + n % 256)
      let bad := tags.find? fun t => tagOf x t == some (.done true)
      let y := tags.foldl (fun (y : Core) t => { y with tags := tabDel t y.tags }) x
      (s.setCore c y, match bad with
        | some t => BitVec.ofNat 64 (3 + 256 * t)
        | none => 0)

/-- WAIT (R168, R169, R172). DEDUCED: log entry 48. -/
def waitBody (a : Agent) (w : SyncWord) (s : State) : State :=
  let sel := agentReg s a w.gs
  if w.rsvd ∨ lacks a [w.gd, w.gs, w.gt] ∨ (isSigc a ∧ w.cp ≠ 0) ∨ selectorIllegal a sel then
    agentTrap a 0x02 (syncWord 0x33 w) s
  else if eventArrived s a sel then
    let r := consume s a sel
    agentDone a w.gd r.2 r.1
  else blockIn a (.event sel) w.gd (deadlineOf s a w.gt) w.cp s s

/-- WAIT. -/
def execWait (a : Agent) (w : SyncWord) (s : State) : Host.Outcome State Fault Refusal :=
  .next (runAgent a (· == syncWord 0x33 w) (waitBody a w) s)

/-- WAIT_EVENT_ARRIVAL (R170, R172): the arbiter grants the event first, and the wait completes with it. -/
def execWaitEventArrival (a : Agent) (s : State) : Host.Outcome State Fault Refusal :=
  .next (match blockedOf s a with
    | some b =>
      match b.kind with
      | .event sel =>
        if s.working ∧ eventArrived s a sel ∧ !passed s b false then
          let r := consume s a sel
          wake a b r.2 r.1
        else s
      | _ => s
    | none => s)

/-- What a fence of a compute core requires of its fabric traffic (R463): no posted request unanswered, and every seal back. -/
def fabricQuiet (x : Core) : Bool := x.requests.isEmpty && x.merged.isEmpty && x.fenceSeals.isEmpty

/-- The conditions of a fence hold (R171, R463): earlier engine commands are complete; beyond LOCAL, every request that the core has injected,
posted writes among them, has been answered, so that its writes have been made and are visible. -/
def fenceHolds (s : State) (a : Agent) (scope : Nat) : Bool :=
  match a with
  | .core c => enginesIdle (s.core c) && streamsIdle (s.core c) && (scope == 0 || (s.core c).requests.isEmpty) &&
      (scope != 3 || fabricQuiet (s.core c))
  | .sigc k => (s.sigc k).dma.all fun e => e.2.queue.isEmpty

/-- A fence that completes with scope FABRIC begins a new account of destinations (R463). -/
def fenceClears (a : Agent) (scope : Nat) (s : State) : State :=
  match a with
  | .core c => if scope = 3 then s.modCore c fun x => { x with sentTo := [], merged := [] } else s
  | .sigc _ => s

/-- Send the seals of a FABRIC fence toward the destinations that have answered MERGED, as far as seal tags are free (R460,
R463). -/
def sendSeals (c : Nat) (s : State) : State :=
  s.each (s.core c).merged fun d t =>
    match (List.range 64).find? fun g => (tabFind g t.fabric.seals).isNone with
    | none => t
    | some g =>
      let t := { t with fabric := { t.fabric with seals := tabSet g ⟨d, .fence⟩ t.fabric.seals, sent := t.fabric.sent ++ [(g, d)] } }
      let t := t.addReg fabrPage Rg.fabrSealsOpenCount 1
      t.modCore c fun x => { x with merged := x.merged.erase d, fenceSeals := x.fenceSeals ++ [g] }

/-- The instruction word of FENCE. -/
def fenceWord (gd : Fin 32) (scope : Fin 8) (gt : Fin 32) (cp : Fin 1024) (rsvd : BitVec 3) : Nat :=
  0x34 * 2 ^ 26 + gd.val * 2 ^ 21 + rsvd.toNat / 2 * 2 ^ 19 + scope.val * 2 ^ 16 + gt.val * 2 ^ 11 + rsvd.toNat % 2 * 2 ^ 10 + cp.val

/-- FENCE (R168, R171, R463). -/
def fenceBody (a : Agent) (gd : Fin 32) (scope : Fin 8) (gt : Fin 32) (cp : Fin 1024) (rsvd : BitVec 3) (s : State) : State :=
  if rsvd ≠ 0 ∨ scope.val > 3 ∨ lacks a [gd, gt] ∨ (isSigc a ∧ cp ≠ 0) then
    agentTrap a 0x02 (fenceWord gd scope gt cp rsvd) s
  else
    let t := match a with
      | .core c => if scope.val = 3 then sendSeals c s else s
      | .sigc _ => s
    if fenceHolds t a scope then agentDone a gd 0 (fenceClears a scope t)
    else blockIn a (.fence scope) gd (deadlineOf s a gt) cp s t

/-- FENCE. -/
def execFence (a : Agent) (gd : Fin 32) (scope : Fin 8) (gt : Fin 32) (cp : Fin 1024) (rsvd : BitVec 3) (s : State) :
    Host.Outcome State Fault Refusal :=
  .next (runAgent a (· == fenceWord gd scope gt cp rsvd) (fenceBody a gd scope gt cp rsvd) s)

/-- FENCE_COMPLETE (R171, R463): the conditions hold, and the fence completes OK. -/
def execFenceComplete (a : Agent) (s : State) : Host.Outcome State Fault Refusal :=
  .next (match blockedOf s a with
    | some b =>
      match b.kind with
      | .fence scope =>
        if s.working ∧ fenceHolds s a scope ∧ !passed s b false then wake a b 0 (fenceClears a scope s) else s
      | _ => s
    | none => s)

/-- What the wait waits for has arrived. -/
def waitArrived (s : State) (a : Agent) (k : WaitKind) : Bool :=
  match k with
  | .sem n => grantable (s.sem n) && (s.sem n).waiters.head? == some (.agent a)
  | .event sel => eventArrived s a sel
  | .fence scope => fenceHolds s a scope

/-- A blocked SEMACQ that times out ends its part in a donation (R373). -/
def timeoutDonation (a : Agent) (n : Nat) (s : State) : State :=
  match a with
  | .core c =>
    match (s.core c).ctx, (s.sem n).owner with
    | some r, some g =>
      if g.toNat / 2 ^ 8 % 2 = 0 then
        endDonation r.part (g.toNat / 2 ^ 10 % 2 ^ 8) (fun e => e.1 == r.ctx && e.2 == n) s
      else s
    | _, _ => s
  | .sigc _ => s

/-- WAIT_DEADLINE (R170, R172): the timeout is granted first; an event that has arrived when the wait completes makes it
TIMEOUT_LATE_ARRIVAL, and a grant so taken stays with the program. -/
def execWaitDeadline (a : Agent) (s : State) : Host.Outcome State Fault Refusal :=
  .next (match blockedOf s a with
    | some b =>
      if s.working ∧ passed s b true then
        let late := waitArrived s a b.kind
        match b.kind with
        | .sem n =>
          let t := leaveWaits a s
          if late then wake a b 2 (setLate a (lateOf t a ++ [n]) (takeSem a n t))
          else timeoutDonation a n (wake a b 1 t)
        | _ => wake a b (if late then 2 else 1) s
      else s
    | none => s)

/-- SREL (R157, R168, R209): return lines to a slot's ring; CP is reserved. -/
def srelBody (a : Agent) (w : SyncWord) (s : State) : State :=
  let n := (agentReg s a w.gs).toNat
  let lines := (agentReg s a w.gt).toNat
  let limit := match a with
    | .core _ => 16
    | .sigc _ => 3
  if w.rsvd ∨ w.cp ≠ 0 ∨ lacks a [w.gd, w.gs, w.gt] ∨ n ≥ limit then agentTrap a 0x02 (syncWord 0x35 w) s
  else
    let t := match a with
      | .core c => s.modCore c fun x => setSlot n { slotOf x n with returned := (slotOf x n).returned + lines } x
      | .sigc k =>
        let x := s.sigc k
        let v := tabGet {} n x.dma
        s.setSigc k (if n = 2 then { x with ingressReturned := x.ingressReturned + lines }
          else { x with dma := tabPut {} n { v with returned := v.returned + lines } x.dma })
    agentDone a w.gd 0 t

/-- SREL. -/
def execSrel (a : Agent) (w : SyncWord) (s : State) : Host.Outcome State Fault Refusal :=
  .next (runAgent a (· == syncWord 0x35 w) (srelBody a w) s)

/-- A context of the owner tag of a lock: force-preempted, so that its saved state holds the lock, and not trapped (R370,
R371). -/
def donee (s : State) (k : Nat) (g : BitVec 24) : Option Nat :=
  let n := g.toNat / 2 ^ 10 % 2 ^ 8
  let x := s.ctx k n
  let forced : Bool := ((tabFind (g.toNat % 2 ^ 8) x.saved).map (·.full)).getD false
  if (g.toNat / 2 ^ 18 == k && g.toNat / 2 ^ 8 % 2 == 0 && forced && (x.state == 1 || x.state == 3 || x.state == 4)) = true
  then some n else none

/-- Owners that a donation has passed through on its way to a context (R371). DEDUCED: log entry 46. -/
def donationDepth (s : State) (k : Nat) : Nat → Nat → Nat
  | 0, _ => 0
  | d + 1, n => (s.ctx k n).donors.foldl (fun m e => max m (1 + donationDepth s k d e.1)) 0

/-- DONATION_START (R370 to R373): a core that blocks on a lock of a force-preempted owner gives the owner a slice at its context's
priority, to a depth of 8 owners. DEDUCED: log entry 46. -/
def execDonationStart (c : Fin 160) (s : State) : Host.Outcome State Fault Refusal :=
  let x := s.core c
  .next (match x.ctx, x.run with
    | some r, .blocked b =>
      match b.kind with
      | .sem n =>
        match (s.sem n).owner with
        | some g =>
          match donee s r.part g with
          | some m =>
            let y := s.ctx r.part m
            if s.working ∧ (s.sem n).lock ∧ !y.donors.contains (r.ctx, n) ∧ donationDepth s r.part 8 r.ctx < 8 then
              choose r.part (s.setCtx r.part m { y with donors := y.donors ++ [(r.ctx, n)] })
            else s
          | none => s
        | none => s
      | _ => s
    | _, _ => s)

end Sys2Proof.Machine
end

