-- ==== Sys2Proof/Machine/Agents.lean ====
section
/-! DEFINITION. System instructions of compute cores and signal cores (R186, R209), traps of deferred causes and the ends of
traps (R183, R185, R210). -/

namespace Sys2Proof.Machine

/-- The page of an agent. -/
def agentPage : Agent → Page
  | .core c => corePage c
  | .sigc k => sigcPage k

/-- A word of the system group with its SUBOP, and its register or immediate where the instruction has one (R186). DEDUCED: log entry 116. -/
def sysSpelled (sub : Nat) (rd : Option (Fin 32)) (imm : Option (BitVec 16)) (w : Nat) : Bool :=
  majorOf w == 0x38 && wordField w 25 22 == sub && (rd.map fun r => wordField w 21 17 == r.val).getD true &&
    (imm.map fun v => wordField w 15 0 == v.toNat).getD true

/-- A system instruction that writes one register. -/
def sysRead (sub : Nat) (a : Agent) (rd : Fin 32) (v : State → BitVec 64) (s : State) : State :=
  runAgent a (sysSpelled sub (some rd) none) (fun t => if lacks a [rd] then agentTrap a 0x02 0 t else agentDone a rd (v t) t) s

/-- RDTIME (R186): device time in ns, modulo 2⁶⁴. -/
def execRdtime (a : Agent) (rd : Fin 32) (s : State) : Host.Outcome State Fault Refusal :=
  .next (sysRead 1 a rd State.rdtime s)

/-- The sticky flags as ARITH_FLAGS holds them (R87, R211). -/
def agentFlags (s : State) : Agent → Nat
  | .core c => getFlags s c
  | .sigc k => s.reg (sigcPage k) Rg.sigcArithFlagsSat + 2 * s.reg (sigcPage k) Rg.sigcArithFlagsPoison

/-- RDFLAGS (R186). -/
def execRdflags (a : Agent) (rd : Fin 32) (s : State) : Host.Outcome State Fault Refusal :=
  .next (sysRead 2 a rd (fun t => BitVec.ofNat 64 (agentFlags t a)) s)

/-- The next instruction of an agent, nothing else having changed. -/
def agentSkip (a : Agent) (s : State) : State :=
  match a with
  | .core c => s.modCore c advance
  | .sigc k => s.setSigc k (sNext (s.sigc k))

/-- The flags that remain after a write-1-to-clear of m. -/
def clearMask (f m : Nat) : Nat := (List.range 4).foldl (fun t i => if f.testBit i && !m.testBit i then t + 2 ^ i else t) 0

/-- CLRFLAGS (R186): clears the selected flags. -/
def clrflagsBody (a : Agent) (imm : BitVec 16) (s : State) : State :=
  let f := clearMask (agentFlags s a) imm.toNat
  agentSkip a (match a with
    | .core c => putFlags c f s
    | .sigc k => s.setReg (sigcPage k) Rg.sigcArithFlagsSat (f % 2) |>.setReg (sigcPage k) Rg.sigcArithFlagsPoison (f / 2 % 2))

/-- CLRFLAGS. -/
def execClrflags (a : Agent) (imm : BitVec 16) (s : State) : Host.Outcome State Fault Refusal :=
  .next (runAgent a (sysSpelled 3 none (some imm)) (clrflagsBody a imm) s)

/-- BRK (R186): the trap BREAK with the immediate. -/
def execBrk (a : Agent) (imm : BitVec 16) (s : State) : Host.Outcome State Fault Refusal :=
  .next (runAgent a (sysSpelled 4 none (some imm)) (agentTrap a 0x0F imm.toNat) s)

/-- RDWAVE (R186): the last completed window of the agent's monitor. -/
def execRdwave (a : Agent) (rd : Fin 32) (s : State) : Host.Outcome State Fault Refusal :=
  .next (sysRead 6 a rd (fun t => BitVec.ofNat 64 (t.reg (agentPage a) Rg.coreWaveRateRate)) s)

/-- Every core of a context's mask has executed HALT. -/
def allHalted (s : State) (r : CtxRef) : Bool :=
  (maskCores (s.ctx r.part r.ctx).mask).all fun c => (s.core c).ctx == some r && (s.core c).run == .halted

/-- HALT of a compute core (R186): once its issued commands are complete it frees the core's locks and stops the core; the last
core's HALT ends the context. -/
def haltCore (c : Nat) (s : State) : State :=
  let x := s.core c
  match x.ctx with
  | none => s
  | some r =>
    if enginesIdle x && streamsIdle x then
      let g := coreTag r.part r.ctx c
      let t := (freeLocks (· == g) s).setReg (corePage c) Rg.coreLocksHeldCount 0
      let t := settleGap c (t.modCore c fun x => { x with run := .halted, lateGrants := [] })
      if allHalted t r then choose r.part (endContext r.part r.ctx t) else t
    else s

/-- The program of a signal core has ended (R190, R210): its locks are freed (R167), and it waits in nothing. -/
def endProgram (k : Nat) (s : State) : State :=
  let g := sigcTag ((ownerOfSigc s k).getD 0) k
  let t := leaveWaits (.sigc (Fin.ofNat 64 k)) (freeLocks (· == g) s)
  t.setSigc k { t.sigc k with run := .halted, locks := 0, lateGrants := [] }

/-- HALT (R186, R190). DEDUCED: log entry 48. -/
def haltBody (a : Agent) (s : State) : State :=
  match a with
  | .core c => haltCore c s
  | .sigc k => (endProgram k s).raise (sigcPage k) 3

/-- HALT. -/
def execHalt (a : Agent) (s : State) : Host.Outcome State Fault Refusal := .next (runAgent a (sysSpelled 5 none none) (haltBody a) s)

/-- DEFERRED_TRAP (R183): the core stops with TRAP_PC at the failing command's ISSUE and TRAP_STOP_PC at the first instruction that has not
executed; a wait that is blocked has not. A cheap point that was being taken is not: the preemption proceeds under R185. DEDUCED: log entry
48. -/
def execDeferredTrap (c : Fin 160) (s : State) : Host.Outcome State Fault Refusal :=
  let x := s.core c
  .next (match x.deferred with
    | some (cause, unit, detail, pc) =>
      if s.working ∧ !s.flag (corePage c) Rg.coreTrapCauseValid ∧ x.ctx.isSome ∧ x.run ≠ .ending then
        let t := s.setCore c { x with deferred := none }
        let t := match x.run with
          | .blocked _ | .cheapSave => (leaveWaits (.core c) t).modCore c fun x => { x with run := .running, live := none }
          | _ => t
        recordTrap c cause unit detail true pc x.pc t
      else s
    | none => s)

/-- A trapped context with no trapped core left runs again (R360). -/
def ctxUntrapped (r : CtxRef) (s : State) : State :=
  let x := s.ctx r.part r.ctx
  let held := coresHeld s r.part r.ctx
  if x.state = 5 ∧ held.all (fun c => !s.flag (corePage c) Rg.coreTrapCauseValid) then
    s.writeCtx r.part r.ctx { x with state := 2 }
  else s

/-- End a core's trap with f applied to the core (R185). A write while the core is not trapped is ignored. -/
def endTrap (who : Requester) (c : Nat) (f : Core → Core) (s : State) : State :=
  writeAccess who (corePage c) 0x70 (fun s =>
    if s.flag (corePage c) Rg.coreTrapCauseValid then
      let t := settleGap c ((s.modCore c f).setReg (corePage c) Rg.coreTrapCauseValid 0)
      match (s.core c).ctx with
      | some r => ctxUntrapped r t
      | none => t
    else s) s

/-- TRAP_RESUME (R185): the trapping instruction runs again; after a deferred trap the core continues at TRAP_STOP_PC. -/
def execTrapResume (who : Requester) (c : Fin 160) (s : State) : Host.Outcome State Fault Refusal :=
  .next (endTrap who c id s)

/-- TRAP_SKIP (R185): the core continues after the trapping instruction; after a deferred trap, at TRAP_STOP_PC. -/
def execTrapSkip (who : Requester) (c : Fin 160) (s : State) : Host.Outcome State Fault Refusal :=
  let deferred := s.flag (corePage c) Rg.coreTrapCauseDeferred
  .next (endTrap who c (fun x => if deferred then x else advance x) s)

/-- TRAP_ABORT (R185): the whole context ends on every core. -/
def execTrapAbort (who : Requester) (c : Fin 160) (s : State) : Host.Outcome State Fault Refusal :=
  .next (writeAccess who (corePage c) 0x70 (fun s =>
    match (s.core c).ctx with
    | some r => if s.flag (corePage c) Rg.coreTrapCauseValid then choose r.part (endContext r.part r.ctx s) else s
    | none => s) s)

/-- End a signal core's trap (R210, R185). -/
def endSTrap (who : Requester) (k : Nat) (f : State → State) (s : State) : State :=
  writeAccess who (sigcPage k) 0x60 (fun s =>
    if s.flag (sigcPage k) Rg.sigcTrapCauseValid then f (s.setReg (sigcPage k) Rg.sigcTrapCauseValid 0) else s) s

/-- SIGC_TRAP_RESUME (R210, R185). -/
def execSigcTrapResume (who : Requester) (k : Fin 64) (s : State) : Host.Outcome State Fault Refusal :=
  .next (endSTrap who k id s)

/-- SIGC_TRAP_SKIP (R210, R185): the next word; the skipped instruction has not completed, so the loop-end test of R203 does not apply to
it. DEDUCED: log entry 49. -/
def execSigcTrapSkip (who : Requester) (k : Fin 64) (s : State) : Host.Outcome State Fault Refusal :=
  .next (endSTrap who k (fun t => t.setSigc k { t.sigc k with pc := (t.sigc k).pc + 4 }) s)

/-- SIGC_TRAP_ABORT (R210): the locks are freed and the program ends as HALT ends it. -/
def execSigcTrapAbort (who : Requester) (k : Fin 64) (s : State) : Host.Outcome State Fault Refusal :=
  .next (endSTrap who k (fun t => (endProgram k t).raise (sigcPage k) 3) s)

end Sys2Proof.Machine
end

