-- ==== Sys2Proof/Machine/Coding.lean ====
section
/-! DEFINITION. The coding engines (R212 to R235): descriptors, queues and owners, segmentation, dematching and HARQ buffers. What
the bit-exact reference models decide (hard decisions, iterations, polar codes) is Config's. -/

namespace Sys2Proof.Machine

/-- The engine's number in CodingState, its number and its kind: 0 decoder, 1 encoder, 2 polar (R231). -/
def engineKey : CodingEngine → Nat
  | .decoder e => e.val
  | .encoder e => 32 + e.val
  | .polar u => 64 + u.val

/-- The fields of a coding descriptor (R229). -/
structure CodingDesc where
  op : Nat
  bg : Nat
  rv : Nat
  qm : Nat
  maxIter : Nat
  earlyStop : Bool
  combine : Bool
  lbrm : Bool
  channel : Nat
  size : Nat
  layers : Nat
  g : Nat
  cbgti : Nat
  cbgMax : Nat
  harqShift : Nat
  lbrmSize : Nat
  cInit : Nat
  scramble : Bool
  tidemark : Nat
  inAddr : Nat
  outAddr : Nat
  harqAddr : Nat
  statusAddr : Nat
  deriving DecidableEq, Repr

/-- Read a coding descriptor. -/
def codingDesc (d : BitVec 512) : CodingDesc :=
  { op := dField d 0 0 4
    bg := dField d 0 4 1
    rv := dField d 0 5 2
    qm := [1, 2, 4, 6, 8, 10].getD (dField d 0 7 3) 1
    maxIter := dField d 0 10 4
    earlyStop := dField d 0 14 1 = 1
    combine := dField d 0 15 1 = 1
    lbrm := dField d 0 16 1 = 1
    channel := dField d 0 17 2
    size := dField d 4 0 21
    layers := dField d 4 21 3 + 1
    g := dField d 8 0 32
    cbgti := dField d 0x0C 0 8
    cbgMax := dField d 0x0C 8 4
    harqShift := dField d 0x0C 12 3
    lbrmSize := dField d 0x10 0 21
    cInit := dField d 0x14 0 31
    scramble := dField d 0x14 31 1 = 1
    tidemark := dField d 0x18 0 64
    inAddr := dField d 0x20 0 64
    outAddr := dField d 0x28 0 64
    harqAddr := dField d 0x30 0 64
    statusAddr := dField d 0x38 0 64 }

/-- The kind of engine that an OP runs on. -/
def opKind (op : Nat) : Nat := if op = 0 then 0 else if op = 1 then 1 else 2

/-- The owner that an engine's register names (R235). -/
def ownerReg (s : State) (key : Nat) : Option Nat :=
  let f := fun (p v : RegField) (i : Nat) => if s.flag codePage v i then some (s.reg codePage p i) else none
  if key < 32 then f Rg.codeDecOwnerPartition Rg.codeDecOwnerValid key
  else if key < 64 then f Rg.codeEncOwnerPartition Rg.codeEncOwnerValid (key - 32)
  else f Rg.codePolarOwnerPartition Rg.codePolarOwnerValid (key - 64)

/-- A partition owns an engine of a kind. -/
def ownsKind (s : State) (k kind : Nat) : Bool :=
  (List.range (if kind = 2 then 8 else 24)).any fun i => ownerReg s (32 * kind + i) == some k

/-- The failures of a coding descriptor at issue (R137, R213, R229): reserved bits and values, fields of its operation out of range, and a
partition that owns no engine of its kind. DEDUCED: log entry 52. -/
def codingErrs (c : Nat) (d : BitVec 512) (s : State) : List Nat :=
  let p := codingDesc d
  let ldpc := p.op < 2
  reservedErrs d [(19, 32), (32 + 24, 64), (0x0C * 8 + 15, 0x10 * 8), (0x10 * 8 + 21, 0x14 * 8)]
    ++ (if p.op > 3 then [0] else [])
    ++ (if ldpc ∧ dField d 0 7 3 > 5 then [0] else [])
    ++ (if (p.op = 0 ∨ p.op = 2) ∧ p.maxIter = 0 then [1] else [])
    ++ (if !ldpc ∧ p.channel = 3 then [2] else [])
    ++ (if ldpc ∧ (p.size < 24 ∨ p.size > 1277992) then [4] else [])
    ++ (if ldpc ∧ p.layers > 4 then [6] else [])
    ++ (if ldpc ∧ !([0, 2, 4, 6, 8] : List Nat).contains p.cbgMax then [0x0D] else [])
    ++ (if (p.op = 0 ∨ p.op = 2) ∧ p.harqShift > 4 then [0x0D] else [])
    ++ (if p.statusAddr % 32 ≠ 0 then [0x38] else [])
    ++ (match (s.core c).ctx with
        | some r => if p.op ≤ 3 ∧ !ownsKind s r.part (opKind p.op) then [0] else []
        | none => [])

/-- ISSUE_CODING (R136, R137, R138, R213): the core's depth of 16 counts the descriptors that are not complete. COMBINE makes the
core's work not repeatable (R534). -/
def execIssueCoding (c : Fin 160) (w : IssueWord) (s : State) : Host.Outcome State Fault Refusal :=
  .next (runInsn c (· == issueWord 4 w) (issueBody c 4 w (fun d t => leastOf (codingErrs c d t)) (fun _ _ => none)
    (fun _ t => decide ((t.core c).codingQueue.length + (t.core c).codingOut ≥ 16))
    (fun q x _ => { x with codingQueue := x.codingQueue ++ [q], nonidem := x.nonidem || (codingDesc q.desc).combine })) s)

/-- A page's block operates: enabled, not frozen, not fenced, not in SOFT_RESET. -/
def blockOn (s : State) (p : Page) : Bool :=
  s.working && s.flag p Rg.pageStatusEnabled && !s.flag p Rg.pageControlFreeze && !s.flag p Rg.pageStatusFenced &&
    !s.flag p Rg.pageControlSoftReset

/-- The queue of a partition, and setting it with its depth register (R214, R235). -/
def codingQueueOf (s : State) (k : Nat) : List CodingItem := tabGet [] k s.coding.queues
def setCodingQueue (k : Nat) (l : List CodingItem) (s : State) : State :=
  { s with coding := { s.coding with queues := tabPut [] k l s.coding.queues } }.setReg codePage Rg.codeQueueDepthCount l.length k

/-- CODING_QUEUE_ADMIT (R214): the core's oldest descriptor enters its partition's queue, which holds 1,024. -/
def execCodingQueueAdmit (c : Fin 160) (s : State) : Host.Outcome State Fault Refusal :=
  let x := s.core c
  .next (match x.codingQueue, x.ctx with
    | q :: rest, some r =>
      let l := codingQueueOf s r.part
      if s.working ∧ l.length < 1024 ∧ x.run ≠ .forcedSave ∧ x.run ≠ .restoring then
        setCodingQueue r.part (l ++ [⟨c, r, q⟩])
          (s.setCore c { x with codingQueue := rest, codingOut := x.codingOut + 1 })
      else s
    | _, _ => s)

/-- The descriptor that an engine of a kind takes from a queue, by position (R215): the earliest tidemark, those without one last,
equals in order of arrival. -/
def earliest (kind : Nat) (l : List CodingItem) : Option (Nat × CodingItem) :=
  let own := (l.mapIdx fun i e => (i, e)).filter fun e => opKind (codingDesc e.2.cmd.desc).op == kind
  let key := fun (e : Nat × CodingItem) =>
    let t := (codingDesc e.2.cmd.desc).tidemark
    if t = 0 then 2 ^ 64 else t
  match own with
  | [] => none
  | e :: es => some (es.foldl (fun b d => if key d < key b then d else b) e)

/-- Bits of the status word's first bytes (R231). -/
structure CodingStatus where
  outcome : Nat
  tbOk : Bool := false
  harqUe : Bool := false
  harqReset : Bool := false
  lateDone : Bool := false
  blocks : Nat := 0
  failed : Nat := 0
  firstFailed : Nat := 0xFF
  cbgOk : Nat := 0
  iterWord : Nat := 0
  start : Nat := 0
  stop : Nat := 0
  deriving DecidableEq, Repr

/-- The 32-byte status word of an engine (R231). -/
def statusBytes (key : Nat) (v : CodingStatus) : List Byte :=
  toBytes 4 (v.outcome + 256 * bit v.tbOk + 512 * bit v.harqUe + 1024 * bit v.harqReset + 2048 * bit v.lateDone) ++
    toBytes 1 v.blocks ++ toBytes 1 v.failed ++ toBytes 1 v.firstFailed ++ toBytes 1 v.cbgOk ++ toBytes 4 v.iterWord ++
    toBytes 4 (key % 32 + 32 * (key / 32)) ++ toBytes 8 v.start ++ toBytes 8 v.stop

/-- The first address of a range that does not lie in the partition's HBM (R229). DEDUCED: log entry 52. -/
def notHbm (s : State) (k a n : Nat) (write : Bool) : Option Nat :=
  (linesOf a n).findSome? fun l =>
    match translate s k l.1 write with
    | .inl e =>
      match placeOf s e l.1 with
      | .here .hbm _ => none
      | _ => some l.1
    | .inr _ => some l.1

/-- The outcome of a descriptor of a radio partition, by its status address (R299, R310). -/
def noteResult (k a outcome : Nat) (s : State) : State :=
  if s.reg (partPage k) Rg.partConfigKind = 2 then
    { s with radio := { s.radio with parts := tabMod {} k (fun (x : RadioPart) => { x with results := tabSet a outcome x.results }) s.radio.parts } }
  else s

/-- Complete a descriptor (R217, R231): its status word where STATUS_ADDR translates, its tag by outcome, its place in the core's depth, and
what the slot command of a radio partition learns of it (R299, R310). DEDUCED: log entry 52. -/
def completeCoding (key : Nat) (e : CodingItem) (v : CodingStatus) (s : State) : State :=
  let a := (codingDesc e.cmd.desc).statusAddr
  let t : State := match notHbm s e.ctx.part a 32 true with
    | none => s.partStore e.ctx.part a (statusBytes key v)
    | some bad => s.error codePage 0x0514 key (bad % 4294967296)
  let t := noteResult e.ctx.part a v.outcome t
  let t := if v.outcome = 2 then (t.bump codePage Rg.codeLateCountCount 1 e.ctx.part).raise codePage 1 else t
  if (t.core e.core).ctx = some e.ctx then
    t.modCore e.core fun x => finishTag e.cmd.tag (decide (v.outcome > 1)) { x with codingOut := x.codingOut - 1 }
  else t

/-- CODING_DESCRIPTOR_START (R215, R216, R218): an idle engine takes a descriptor from its owner's queue, or completes it LATE where
its tidemark has come. A start that comes before an owner write of the same moment takes the old owner's. -/
def execCodingDescriptorStart (engine : CodingEngine) (ownerWriteFirst : Bool) (s : State) :
    Host.Outcome State Fault Refusal :=
  let key := engineKey engine
  let owner := match tabFind key s.coding.replaced with
    | some (t, old) => if t = s.now ∧ !ownerWriteFirst then old else ownerReg s key
    | none => ownerReg s key
  .next (match owner with
    | none => s
    | some k =>
      if blockOn s codePage ∧ (tabFind key s.coding.running).isNone then
        let l := codingQueueOf s k
        match earliest (key / 32) l with
        | none => s
        | some (i, e) =>
          let t := setCodingQueue k (l.eraseIdx i) s
          let tm := (codingDesc e.cmd.desc).tidemark
          if tm ≠ 0 ∧ tm ≤ s.now % 2 ^ 64 then completeCoding key e { outcome := 2 } t
          else { t with coding := { t.coding with running := tabSet key (e, s.now) t.coding.running } }
      else s)

/-- The 51 lifting sizes of TS 38.212 §5.3.2, ascending. PRESUMED: log entry 54. -/
def liftingSizes : List Nat :=
  (List.range 385).filter fun z => [2, 3, 5, 7, 9, 11, 13, 15].any fun a => (List.range 8).any fun j => a * 2 ^ j == z

/-- The segmentation of a transport block (R222, TS 38.212 §5.2.2): C, K', Z, the columns of K, N_cb and the bits of the CRC of
each code block. -/
structure Segments where
  c : Nat
  kp : Nat
  z : Nat
  cols : Nat
  ncb : Nat
  cbCrc : Nat
  deriving DecidableEq, Repr

/-- CRC bits of the transport block (R220). -/
def tbCrcBits (tbs : Nat) : Nat := if tbs > 3824 then 24 else 16

/-- Segment a transport block. PRESUMED: log entry 54. -/
def segments (p : CodingDesc) : Segments :=
  let b := p.size + tbCrcBits p.size
  let kcb := if p.bg = 0 then 8448 else 3840
  let c := if b ≤ kcb then 1 else (b + kcb - 25) / (kcb - 24)
  let crc := if c = 1 then 0 else 24
  let kp := (b + c * crc + c - 1) / c
  let kb := if p.bg = 0 then 22 else if b > 640 then 10 else if b > 560 then 9 else if b > 192 then 8 else 6
  let z := (liftingSizes.find? fun z => decide (kb * z ≥ kp)).getD 384
  let n := if p.bg = 0 then 66 * z else 50 * z
  let nref := 3 * p.lbrmSize / (2 * c)
  ⟨c, kp, z, if p.bg = 0 then 22 else 10, if p.lbrm then min n nref else n, crc⟩

/-- The code blocks that the CBGs of CBGTI select (R222, TS 38.214 §5.1.7), and the CBG of a block. -/
def cbgOf (p : CodingDesc) (c r : Nat) : Nat :=
  if p.cbgMax = 0 then 0
  else
    let m := min p.cbgMax c
    let k1 := (c + m - 1) / m
    let m1 := c % m
    if r < m1 * k1 then r / k1 else m1 + (r - m1 * k1) / (c / m)
def selected (p : CodingDesc) (c : Nat) : List Nat :=
  (List.range c).filter fun r => p.cbgMax == 0 || p.cbgti.testBit (cbgOf p c r)

/-- E of the j-th of n transmitted blocks (TS 38.212 §5.4.2.1). -/
def blockE (p : CodingDesc) (n j : Nat) : Nat :=
  let u := p.layers * p.qm
  let q := p.g / u
  if j + q % n < n then u * (q / n) else u * ((q + n - 1) / n)

/-- k0 of a redundancy version (TS 38.212 §5.4.2.1). PRESUMED: log entry 54. -/
def startPos (p : CodingDesc) (v : Segments) : Nat :=
  let n := if p.bg = 0 then 66 else 50
  let q := if p.bg = 0 then [0, 17, 33, 56].getD p.rv 0 else [0, 13, 25, 43].getD p.rv 0
  q * v.ncb / (n * v.z) * v.z

/-- A filler position of the circular buffer, which leaves out the first 2·Z columns. -/
def isFiller (v : Segments) (pos : Nat) : Bool := decide (v.kp ≤ pos + 2 * v.z) && decide (pos + 2 * v.z < v.cols * v.z)

/-- The circular-buffer positions of E bits, in order: fillers are passed over. -/
def bitPositions (p : CodingDesc) (v : Segments) (e : Nat) : List Nat :=
  let round := ((List.range v.ncb).map fun j => (startPos p v + j) % v.ncb).filter fun pos => !isFiller v pos
  (List.range e).map fun i => round.getD (i % max 1 round.length) 0

/-- The place among E interleaved bits of the i-th bit of the buffer's order (TS 38.212 §5.4.2.2). -/
def interleaved (qm e i : Nat) : Nat :=
  let cols := e / qm
  i % max 1 cols * qm + i / max 1 cols

/-- n bits of the scrambling sequence (TS 38.211 §5.2.1). PRESUMED: log entry 54. -/
def goldStep (x : Nat × Nat) : Nat × Nat :=
  let b1 := (x.1 / 8 + x.1) % 2
  let b2 := (x.2 / 8 + x.2 / 4 + x.2 / 2 + x.2) % 2
  (x.1 / 2 + 2 ^ 30 * b1, x.2 / 2 + 2 ^ 30 * b2)
def goldFrom : Nat → Nat × Nat → List Bool
  | 0, _ => []
  | n + 1, x => ((x.1 + x.2) % 2 == 1) :: goldFrom n (goldStep x)
def goldSkip : Nat → Nat × Nat → Nat × Nat
  | 0, x => x
  | n + 1, x => goldSkip n (goldStep x)
def scrambling (cInit n : Nat) : List Bool := goldFrom n (goldSkip 1600 (1, cInit))

/-- Bits packed with the first bit in bit 7 of the first byte (R221), and unpacked. -/
def packBits (l : List Bool) : List Byte :=
  (List.range ((l.length + 7) / 8)).map fun i =>
    BitVec.ofNat 8 ((List.range 8).foldl (fun t j => 2 * t + bit (l.getD (8 * i + j) false)) 0)
def unpackBits (n : Nat) (b : List Byte) : List Bool :=
  (List.range n).map fun i => (b.getD (i / 8) 0).getLsbD (7 - i % 8)

/-- The remainder of a CRC of w bits with a generator's low bits (TS 38.212 §5.1), over bits, first bit first. -/
def crcRemainder (w poly : Nat) (l : List Bool) : Nat :=
  l.foldl (fun r b =>
    let top := (r / 2 ^ (w - 1)) % 2 == 1
    let r := 2 * r % 2 ^ w
    if top != b then r ^^^ poly else r) 0

/-- The generators of R220: CRC24A, CRC24B, CRC24C, CRC16, CRC11 and CRC6. PRESUMED: log entry 54. -/
def crc24a : Nat := 0x864CFB
def crc24b : Nat := 0x800063
def crc24c : Nat := 0xB2B117
def crc16 : Nat := 0x1021
def crc11 : Nat := 0x621
def crc6 : Nat := 0x21

/-- A block of bits with its CRC after it holds. -/
def crcHolds (w poly : Nat) (l : List Bool) : Bool :=
  crcRemainder w poly (l.take (l.length - w)) == (l.drop (l.length - w)).foldl (fun t b => 2 * t + bit b) 0

/-- Add a CRC to bits. -/
def withCrc (w poly : Nat) (l : List Bool) : List Bool :=
  let r := crcRemainder w poly l
  l ++ (List.range w).map fun i => r.testBit (w - 1 - i)

/-- Saturation to ±127 (R223). -/
def sat127 (x : Int) : Int := clampSym 127 x

/-- Bytes of a HARQ buffer (R224). -/
def harqBytes (ncb : Nat) : Nat := 64 + (ncb + 127) / 128 * 64

/-- The check word of a HARQ buffer (R224). -/
def harqCheck (p : CodingDesc) (v : Segments) : Nat := v.ncb % 2 ^ 20 + v.z % 2 ^ 9 * 2 ^ 20 + p.bg * 2 ^ 31

/-- What loading the stored buffer of a block gives (R223, R224): FILL_HI, the working values, and whether HARQ_UE or HARQ_RESET
is set. -/
def loadHarq (s : State) (k : Nat) (p : CodingDesc) (v : Segments) (a : Nat) : Nat × List Int × Bool × Bool :=
  let empty := List.replicate v.ncb (0 : Int)
  if !p.combine then (0, empty, false, false)
  else
    match s.partBytesAll k a (harqBytes v.ncb) with
    | none => (0, empty, true, false)
    | some b =>
      if leNat ((b.drop 4).take 4) ≠ harqCheck p v then (0, empty, false, true)
      else
        (leNat (b.take 4), (List.range v.ncb).map fun i =>
          signed 4 ((b.getD (64 + i / 2) 0).toNat / 16 ^ (i % 2)) * 2 ^ p.harqShift, false, false)

/-- Dematch one block (R221, R223): its LLRs into the working buffer, with fillers at +127, and FILL_HI. -/
def dematch (p : CodingDesc) (v : Segments) (fill : Nat) (b : List Int) (llrs : List Int) : Nat × List Int :=
  let e := llrs.length
  let pos := bitPositions p v e
  let upd := fun (b : List Int) (i : Nat) =>
    let q := pos.getD i 0
    b.set q (sat127 (b.getD q 0 + llrs.getD (interleaved p.qm e i) 0))
  let b := (List.range e).foldl upd b
  (pos.foldl (fun m q => max m (q + 1)) fill, b.mapIdx fun q x => if isFiller v q then 127 else x)

/-- The stored form of a buffer (R223, R224). -/
def harqImage (p : CodingDesc) (v : Segments) (fill : Nat) (b : List Int) : List Byte :=
  let q := b.map fun x => max (-7) (min 7 (roundEven x p.harqShift))
  toBytes 4 fill ++ toBytes 4 (harqCheck p v) ++ toBytes 56 0 ++
    (List.range (harqBytes v.ncb - 64)).map fun i =>
      BitVec.ofNat 8 ((BitVec.ofInt 4 (q.getD (2 * i) 0)).toNat + 16 * (BitVec.ofInt 4 (q.getD (2 * i + 1) 0)).toNat)

/-- Layers of an iteration (R225). -/
def iterLayers (v : Segments) (fill : Nat) : Nat := max 4 ((fill + v.z - 1) / v.z + 2 - v.cols)

/-- What decoding one block gives: its buffer's image, its bits, whether it passed, its iterations and HARQ flags. -/
structure BlockResult where
  block : Nat
  image : List Byte
  bits : List Bool
  pass : Bool
  iters : Nat
  harqUe : Bool
  harqReset : Bool
  deriving DecidableEq, Repr

/-- Where an LLR stream's j-th transmitted block begins. -/
def blockStart (p : CodingDesc) (n j : Nat) : Nat := (List.range j).foldl (fun t i => t + blockE p n i) 0

/-- The hard decisions of a block after so many iterations, as its K' bits, and whether they pass: CRC24B, or for the only block of a
transport block the transport block's CRC (R220, R225). DESIGN CHOICE: log entry 53. -/
def hardBits (d : BitVec 512) (v : Segments) (layers iters : Nat) (b : List Int) : List Bool :=
  let raw := Config.ldpcDecode d layers iters b
  (List.range v.kp).map fun i => raw.getD i false
def blockPasses (p : CodingDesc) (v : Segments) (bits : List Bool) : Bool :=
  if v.c = 1 then crcHolds (tbCrcBits p.size) (if p.size > 3824 then crc24a else crc16) bits else crcHolds 24 crc24b bits

/-- The iterations that a block runs (R225): with EARLY_STOP it stops after the first whose hard decisions pass, and at MAX_ITER without one. -/
def itersRun (p : CodingDesc) (passes : Nat → Bool) : Nat :=
  if p.earlyStop then (((List.range p.maxIter).map (· + 1)).find? passes).getD p.maxIter else p.maxIter

/-- Decode the j-th transmitted block, code block r (R223 to R225). DESIGN CHOICE: log entry 53. -/
def decodeBlock (s : State) (k : Nat) (d : BitVec 512) (p : CodingDesc) (v : Segments) (llrs : List Int) (n j r : Nat) :
    BlockResult :=
  let h := loadHarq s k p v (p.harqAddr + r * harqBytes v.ncb)
  let m := dematch p v h.1 h.2.1 ((llrs.drop (blockStart p n j)).take (blockE p n j))
  let ly := iterLayers v m.1
  let iters := itersRun p fun n => blockPasses p v (hardBits d v ly n m.2)
  let bits := hardBits d v ly iters m.2
  ⟨r, harqImage p v m.1 m.2, bits, blockPasses p v bits, iters, h.2.2.1, h.2.2.2⟩

/-- The LLRs of a descriptor (R221): −128 reads as −127, and scrambling inverts signs. -/
def llrsOf (p : CodingDesc) (b : List Byte) : List Int :=
  let seq := if p.scramble then scrambling p.cInit b.length else []
  b.mapIdx fun i x =>
    let v := max (-127) x.toInt
    if seq.getD i false then -v else v

/-- A combination that R219 does not support (a decoder's Qm of 10, combining for a polar code), a G too small for the blocks, or A outside
its channel's range (R230). DEDUCED: log entry 52. -/
def paramFails (p : CodingDesc) : Bool :=
  if p.op < 2 then
    let v := segments p
    let n := (selected p v.c).length
    (p.op == 0 && p.qm == 10) || n == 0 || decide (p.g < p.layers * p.qm * n) || v.ncb == 0
  else
    (p.op == 2 && p.combine) || p.g % 65536 == 0 || (p.channel == 0 && (p.size != 32 || p.g % 65536 != 864)) || (p.channel == 1 && (decide (p.size < 12) || decide (p.size > 140))) ||
      (p.channel == 2 && (decide (p.size < 1) || decide (p.size > 1706)))

/-- Bytes that a descriptor reads and writes: input, output. -/
def codingSpan (p : CodingDesc) : Nat × Nat :=
  let bytes := (p.size + 7) / 8
  match p.op with
  | 0 => (p.g, bytes)
  | 1 => (bytes, (p.g + 7) / 8)
  | 2 => (p.g % 65536, bytes)
  | _ => (bytes, (p.g % 65536 + 7) / 8)

/-- The ranges that a descriptor needs in HBM: address, bytes, write. -/
def codingRanges (p : CodingDesc) : List (Nat × Nat × Bool) :=
  let n := codingSpan p
  let v := segments p
  [(p.inAddr, n.1, false), (p.outAddr, n.2, true)] ++
    (if p.op = 0 then (selected p v.c).map fun r => (p.harqAddr + r * harqBytes v.ncb, harqBytes v.ncb, true) else []) ++
    [(p.statusAddr, 32, true)]

/-- What a descriptor leaves: memory writes, in order, and its status without times. -/
structure CodingResult where
  writes : List (Nat × List Byte)
  status : CodingStatus
  deriving DecidableEq, Repr

/-- The bits of the transport block (R222): those of blocks that were not transmitted stay as the output holds them; a bit that
cannot be read there is free. -/
def tbBits (s : State) (k : Nat) (p : CodingDesc) (v : Segments) (rs : List BlockResult) : List Bool :=
  let per := max 1 (v.kp - v.cbCrc)
  let old := (List.range ((p.size + 7) / 8)).map fun i =>
    if rs.length = v.c then 0 else ((s.partBytesAll k (p.outAddr + i) 1).bind (·.head?)).getD (s.free 8 i)
  (List.range p.size).map fun i =>
    match rs.find? fun x => x.block == i / per with
    | some x => x.bits.getD (i % per) false
    | none => (unpackBits p.size old).getD i false

/-- LDPC decode (R221 to R225, R231). DESIGN CHOICE: log entry 53. -/
def ldpcDecodeResult (s : State) (k : Nat) (d : BitVec 512) (input : List Byte) : CodingResult :=
  let p := codingDesc d
  let v := segments p
  let sel := selected p v.c
  let llrs := llrsOf p input
  let rs := sel.mapIdx fun j r => decodeBlock s k d p v llrs sel.length j r
  let bits := tbBits s k p v rs
  let all := (rs.map fun x => x.bits.take (v.kp - v.cbCrc)).flatten
  let tbOk := decide (rs.length = v.c) &&
    crcHolds (tbCrcBits p.size) (if p.size > 3824 then crc24a else crc16) (all.take (p.size + tbCrcBits p.size))
  let bad := rs.filter fun x => !x.pass
  let okCbg := (List.range 8).foldl (fun t m =>
    let inM := rs.filter fun x => cbgOf p v.c x.block == m
    if !inM.isEmpty && inM.all (·.pass) then t + 2 ^ m else t) 0
  { writes := (p.outAddr, packBits bits) :: rs.map fun x => (p.harqAddr + x.block * harqBytes v.ncb, x.image)
    status := {
      outcome := if bad.isEmpty && (tbOk || rs.length != v.c) then 0 else 1
      tbOk := tbOk, harqUe := rs.any (·.harqUe), harqReset := rs.any (·.harqReset), blocks := v.c, failed := bad.length
      firstFailed := (bad.head?.map (·.block)).getD 0xFF, cbgOk := okCbg
      iterWord := rs.foldl (fun m x => max m x.iters) 0 + 65536 * rs.foldl (fun t x => t + x.iters) 0 } }

/-- LDPC encode (R220, R227). -/
def ldpcEncodeResult (p : CodingDesc) (input : List Byte) : CodingResult :=
  let v := segments p
  let sel := selected p v.c
  let tb := withCrc (tbCrcBits p.size) (if p.size > 3824 then crc24a else crc16) (unpackBits p.size input)
  let per := v.kp - v.cbCrc
  let block := fun j r =>
    let c := (List.range per).map fun i => tb.getD (r * per + i) false
    let c := if v.c = 1 then c else withCrc 24 crc24b c
    let w := Config.ldpcEncode p.bg v.z c
    let e := blockE p sel.length j
    let pos := bitPositions p v e
    let f := (List.range e).foldl (fun (f : List Bool) i => f.set (interleaved p.qm e i) (w.getD (pos.getD i 0) false))
      (List.replicate e false)
    f
  let g := (sel.mapIdx block).flatten
  let seq := if p.scramble then scrambling p.cInit g.length else []
  { writes := [(p.outAddr, packBits (g.mapIdx fun i b => b != seq.getD i false))], status := { outcome := 0, blocks := v.c } }

/-- Segments of a polar descriptor (R219, TS 38.212 §5.2.1, §6.3.1.2.1): two for long UCI, of which the first takes a leading zero where A
is odd. PRESUMED: log entry 54. -/
def polarSegs (p : CodingDesc) : Nat :=
  if p.channel = 2 ∧ (p.size ≥ 1013 ∨ (p.size ≥ 360 ∧ p.g % 65536 ≥ 1088)) then 2 else 1

/-- A payload that a block code carries: UCI of 1 to 11 bits (R219, R228). -/
def blockCoded (p : CodingDesc) : Bool := p.channel == 2 && decide (p.size ≤ 11)

/-- CRC bits and generator of each segment (R220): CRC24C for BCH and DCI, CRC11 for UCI of 20 bits or more, CRC6 for 12 to 19. -/
def polarCrc (p : CodingDesc) : Nat × Nat :=
  if p.channel < 2 then (24, crc24c) else if p.size ≥ 20 then (11, crc11) else (6, crc6)

/-- The mask that RNTI puts on the last 16 CRC bits of a DCI (R220). -/
def rntiMask (p : CodingDesc) : Nat := if p.channel = 1 then p.g / 65536 else 0

/-- The CRC of a segment: 24 ones stand before a DCI's bits (R220). -/
def polarCrcOf (p : CodingDesc) (bits : List Bool) : Nat :=
  let c := polarCrc p
  crcRemainder c.1 c.2 ((if p.channel = 1 then List.replicate 24 true else []) ++ bits) ^^^ rntiMask p

/-- Bits of a payload in each segment, before its CRC. -/
def segBits (p : CodingDesc) : Nat := (p.size + polarSegs p - 1) / polarSegs p

/-- The segments of a payload with their CRCs (R219, R220). -/
def polarParts (p : CodingDesc) (payload : List Bool) : List (List Bool) :=
  let a := segBits p
  let l := List.replicate (a * polarSegs p - p.size) false ++ payload
  (List.range (polarSegs p)).map fun j =>
    let b := (List.range a).map fun i => l.getD (a * j + i) false
    b ++ (List.range (polarCrc p).1).map fun i => (polarCrcOf p b).testBit ((polarCrc p).1 - 1 - i)

/-- The mother code of K bits at an E (TS 38.212 §5.3.1): log2 of its length, at most n_max of R228. PRESUMED: log entry 54. -/
def polarLog (p : CodingDesc) (k e : Nat) : Nat :=
  let l := bitlen (e - 1)
  let n1 := if 8 * e ≤ 9 * 2 ^ (l - 1) ∧ 16 * k < 9 * e then l - 1 else l
  max 5 (min (min n1 (bitlen (8 * k - 1))) (if p.channel = 2 then 10 else 9))

/-- The sub-block interleaver's pattern (TS 38.212 §5.4.1.1), and the mother-code bit at a place after it. PRESUMED: log entry 54. -/
def subBlocks : List Nat :=
  [0, 1, 2, 4, 3, 5, 6, 7, 8, 16, 9, 17, 10, 18, 11, 19, 12, 20, 13, 21, 14, 22, 15, 23, 24, 25, 26, 28, 27, 29, 30, 31]
def subBlockPos (n i : Nat) : Nat := subBlocks.getD (32 * i / n) 0 * (n / 32) + i % max 1 (n / 32)

/-- The mother-code place of each of E bits before the interleaving of coded bits (TS 38.212 §5.4.1.2): repeated, punctured or shortened. -/
def polarPick (n k e : Nat) : List Nat :=
  (List.range e).map fun i => subBlockPos n (if e ≥ n then i % n else if 16 * k ≤ 7 * e then i + n - e else i)

/-- The order in which the triangular interleaver of UCI sends E bits (TS 38.212 §5.4.1.3). PRESUMED: log entry 54. -/
def triangleOrder (e : Nat) : List Nat :=
  let t := ((List.range (e + 1)).find? fun t => decide (2 * e ≤ t * (t + 1))).getD 0
  ((List.range t).map fun j => (List.range (t - j)).filterMap fun i =>
    let at_ := i * t - i * (i - 1) / 2 + j
    if at_ < e then some at_ else none).flatten

/-- The mother-code place of each of a segment's E bits in the order sent (R228). -/
def polarOrder (p : CodingDesc) (n k e : Nat) : List Nat :=
  let l := polarPick n k e
  if p.channel = 2 then (triangleOrder e).map fun i => l.getD i 0 else l

/-- Parity-check bits of a mother code, and whether one goes by row weight (TS 38.212 §6.3.1.3.1). PRESUMED: log entry 54. -/
def polarParity (p : CodingDesc) (k e : Nat) : Nat × Nat :=
  if p.channel = 2 ∧ p.size < 20 then (3, bit (decide (e + 3 > k + 192))) else (0, 0)

/-- Encode the segments of a polar descriptor (R219, R220, R228): mother code, rate matching, interleaving of UCI's coded bits, concatenation. -/
def polarCoded (p : CodingDesc) (payload : List Bool) : List Bool :=
  let e := p.g % 65536 / polarSegs p
  ((polarParts p payload).map fun b =>
    let n := 2 ^ polarLog p b.length e
    let pc := polarParity p b.length e
    let w := Config.polarMother (p.channel != 2) n e pc.1 pc.2 b
    (polarOrder p n b.length e).map fun i => w.getD i false).flatten

/-- The LLRs of a segment by mother-code place: repeated places accumulate, and a place that was not sent has 0. -/
def polarLlrs (p : CodingDesc) (k e : Nat) (l : List Int) : List Int :=
  let n := 2 ^ polarLog p k e
  ((polarOrder p n k e).mapIdx fun i at_ => (at_, l.getD i 0)).foldl (fun b x => b.set x.1 (b.getD x.1 0 + x.2)) (List.replicate n 0)

/-- Decode the segments of a polar descriptor: the bits of each, and whether its CRC holds (R220, R228). -/
def polarSegments (d : BitVec 512) (p : CodingDesc) (l : List Int) : List (List Bool × Bool) :=
  let e := p.g % 65536 / polarSegs p
  let a := segBits p
  let k := a + (polarCrc p).1
  (List.range (polarSegs p)).map fun j =>
    let raw := Config.polarDecode d j k (polarLlrs p k e ((l.drop (e * j)).take e))
    let b := (List.range k).map fun i => raw.getD i false
    (b.take a, polarCrcOf p (b.take a) == (b.drop a).foldl (fun t x => 2 * t + bit x) 0)

/-- Polar and block codes (R219, R220, R228, R231). A block code has one block and no CRC. DESIGN CHOICE: log entry 53. -/
def polarResult (d : BitVec 512) (input : List Byte) : CodingResult :=
  let p := codingDesc d
  let e := p.g % 65536
  if p.op = 2 then
    let l := llrsOf p input
    let segs := if blockCoded p then [(Config.blockDecode p.size l, true)] else polarSegments d p l
    let bad := (List.range segs.length).filter fun j => !((segs.getD j ([], true)).2)
    let bits := (segs.map (·.1)).flatten
    let bits := bits.drop (if blockCoded p then 0 else segBits p * polarSegs p - p.size)
    { writes := [(p.outAddr, packBits ((List.range p.size).map fun i => bits.getD i false))]
      status := { outcome := if bad.isEmpty then 0 else 1, tbOk := bad.isEmpty, blocks := segs.length, failed := bad.length,
                  firstFailed := bad.headD 0xFF, iterWord := min (Config.polarMetric d l) 65535 } }
  else
    let payload := unpackBits p.size input
    let raw := if blockCoded p then Config.blockEncode e payload else polarCoded p payload
    let seq := if p.scramble then scrambling p.cInit e else []
    { writes := [(p.outAddr, packBits ((List.range e).map fun i => raw.getD i false != seq.getD i false))]
      status := { outcome := 0, blocks := polarSegs p } }

/-- The result of a descriptor whose ranges hold and whose input has been read. -/
def codingResult (s : State) (k : Nat) (d : BitVec 512) (input : List Byte) : CodingResult :=
  let p := codingDesc d
  if p.op = 0 then ldpcDecodeResult s k d input else if p.op = 1 then ldpcEncodeResult p input else polarResult d input

/-- The busy counter of an engine (R235). -/
def addBusy (key ns : Nat) (s : State) : State :=
  if key < 32 then s.addReg codePage Rg.codeDecBusyTime ns key
  else if key < 64 then s.addReg codePage Rg.codeEncBusyTime ns (key - 32)
  else s.addReg codePage Rg.codePolarBusyTime ns (key - 64)

/-- A write of the descriptor's waits: a page that it writes to is under copy (R256). -/
def codingWaits (s : State) (k : Nat) (p : CodingDesc) : Bool :=
  (codingRanges p).any fun r => r.2.2 && writeWaits s k r.1 r.2.1

/-- Finish the running descriptor of an engine with a status. -/
def finishCoding (key : Nat) (e : CodingItem) (start : Nat) (v : CodingStatus) (s : State) : State :=
  let tm := (codingDesc e.cmd.desc).tidemark
  let t := addBusy key (s.now - start) { s with coding := { s.coding with running := tabDel key s.coding.running } }
  completeCoding key e { v with
    start := start % 2 ^ 64, stop := s.now % 2 ^ 64
    lateDone := decide (tm ≠ 0 ∧ tm < s.now % 2 ^ 64) && decide (v.outcome ≤ 1) } t

/-- CODING_DESCRIPTOR_DONE (R216, R217, R224, R229 to R231): a range that is not the partition's HBM, the status word's among them, gives
ADDR_FAULT; of the status word's the completion records 0x0514. DEDUCED: log entry 52. -/
def execCodingDescriptorDone (engine : CodingEngine) (s : State) : Host.Outcome State Fault Refusal :=
  let key := engineKey engine
  .next (match tabFind key s.coding.running with
    | none => s
    | some (e, start) =>
      let k := e.ctx.part
      let p := codingDesc e.cmd.desc
      if !s.working ∨ s.flag codePage Rg.pageControlSoftReset then s
      else if paramFails p then finishCoding key e start { outcome := 5 } s
      else
        match (codingRanges p).findSome? fun r => (notHbm s k r.1 r.2.1 r.2.2).map fun a => (r.1 == p.statusAddr && r.2.1 == 32, a) with
        | some (status, bad) =>
          finishCoding key e start { outcome := 4 } ((if status then s else s.error codePage 0x0511 key (bad % 2 ^ 32)).faultTouch k bad 1 false)
        | none =>
          if codingWaits s k p then s
          else
            let t := s.partTouch k p.inAddr (codingSpan p).1
            match s.partRead k p.inAddr (codingSpan p).1 with
            | .data b =>
              match b.mapM id with
              | none =>
                finishCoding key e start { outcome := 3 } (t.error codePage 0x0512 key
                  ((p.inAddr + (b.findIdx fun o => o.isNone)) % 2 ^ 32))
              | some input =>
                let r := codingResult s k e.cmd.desc input
                let t := if p.op = 0 ∧ p.combine then
                    t.each (selected p (segments p).c) fun i u =>
                      u.partTouch k (p.harqAddr + i * harqBytes (segments p).ncb) (harqBytes (segments p).ncb)
                  else t
                let t := (t.each r.writes fun w u => u.partStore k w.1 w.2).usedFree ((p.size + 7) / 8)
                let t := if r.status.harqUe then t.error codePage 0x0513 key (p.harqAddr % 2 ^ 32) else t
                finishCoding key e start r.status t
            | _ => t)

/-- The fields of an engine's owner register. -/
def ownerFields (key : Nat) : RegField × RegField × Nat :=
  if key < 32 then (Rg.codeDecOwnerPartition, Rg.codeDecOwnerValid, key)
  else if key < 64 then (Rg.codeEncOwnerPartition, Rg.codeEncOwnerValid, key - 32)
  else (Rg.codePolarOwnerPartition, Rg.codePolarOwnerValid, key - 64)

/-- CODE_OWNER_WRITE (R213, R218, R235): it takes effect at the engine's next descriptor boundary, since an engine reads its owner when it
takes a descriptor. DEDUCED: log entry 52. -/
def execCodeOwnerWrite (who : Requester) (engine : CodingEngine) (value : BitVec 32) (s : State) :
    Host.Outcome State Fault Refusal :=
  let key := engineKey engine
  let f := ownerFields key
  .next (writeAccess who codePage (f.1.off + 4 * f.2.2) (fun t =>
    let old := ownerReg t key
    ({ t with coding := { t.coding with replaced := tabSet key (t.now, old) t.coding.replaced } }.setReg codePage f.1
      value.toNat f.2.2).setReg codePage f.2.1 (value.toNat / 128) f.2.2) s)

/-- The descriptors that wait in the cores' coding queues (R214) leave them, to be completed: as items of the cores' contexts. -/
def coreItems (s : State) : List CodingItem :=
  (s.cores.map fun e => match e.2.ctx with
    | some r => e.2.codingQueue.map fun q => ⟨e.1, r, q⟩
    | none => []).flatten
def drainCores (s : State) : State :=
  s.each s.cores fun e t => t.modCore e.1 fun x => { x with codingQueue := [], codingOut := x.codingOut + x.codingQueue.length }

/-- Complete descriptors that have not started ABORTED (R218). -/
def abortItems (l : List CodingItem) (s : State) : State :=
  s.each l fun e u => completeCoding (32 * opKind (codingDesc e.cmd.desc).op) e { outcome := 6 } u

/-- Every descriptor that is queued, in a partition's queue or a core's, or running completes ABORTED (R218). -/
def abortCoding (s : State) : State :=
  let run := s.coding.running
  let waiting := coreItems s
  let s := drainCores s
  let t := { s with coding := { s.coding with running := [] } }
  let t := t.each run fun r u => completeCoding r.1 r.2.1 { outcome := 6, start := r.2.2 % 2 ^ 64, stop := s.now % 2 ^ 64 } u
  let t := t.each s.coding.queues fun q u => setCodingQueue q.1 [] (abortItems q.2 u)
  abortItems waiting t

end Sys2Proof.Machine
end

