-- ==== Sys2Proof/Machine/Contexts.lean ====
section
/-! DEFINITION. Contexts (R358 to R366): the actions of CTX_CONTROL, starts and restores, and slices. -/

namespace Sys2Proof.Machine

/-- The action of a write of CTX_CONTROL: f answers the new state or the code that refuses it (R359). -/
def ctxAction (who : Requester) (k c : Nat) (f : State → State ⊕ Nat) (s : State) : State :=
  let p := partPage k
  writeAccess who p 0x110 (fun s =>
    if !s.flag p Rg.partCtxResultDone then s.error p 0x060B 0 c
    else
      match f s with
      | .inl t => (t.setReg p Rg.partCtxResultCode 0).setReg p Rg.partCtxResultDone 1
      | .inr code => ((s.error p code 0 c).setReg p Rg.partCtxResultCode code).setReg p Rg.partCtxResultDone 1) s

/-- Bits of a context record that R358 gives no field: they are reserved. -/
def recordReserved (b : List Byte) : Bool :=
  let n := fun off len => leNat ((b.drop off).take len)
  (n 0 1 / 8 % 2 != 0) || (n 0 1 / 128 != 0) || (n 1 1 / 2 != 0) || n 4 4 != 0 || n 0x1C 4 != 0 || n 0x28 8 / 2 ^ 18 != 0 ||
    n 0x3A 2 != 0 || n 0x3E 2 != 0 || n 0x70 16 != 0

/-- What R359 finds wrong in a record that has been read; the mask is checked apart. -/
def recordWrong (x : Ctx) (b : List Byte) : Bool :=
  maskCores x.mask == [] || x.weight == 0 || decide (x.cheapLimit > 1000) || recordReserved b

/-- The partition's cores include the mask's. -/
def maskOwned (s : State) (k : Nat) (x : Ctx) : Bool := (maskCores x.mask).all fun c => maskBit s (partPage k) Rg.partCoreMaskCores c

/-- A core of the mask is lost: it stays fenced with no spare (R536), or is not the partition's (R376). -/
def maskLost (s : State) (k : Nat) (x : Ctx) : Bool :=
  !maskOwned s k x || (maskCores x.mask).any fun c => s.flag (corePage c) Rg.pageStatusFenced

/-- Raise VTIME to the smallest of the partition's READY and RUNNING contexts of the same priority (R364). -/
def raiseVtime (s : State) (k n : Nat) (x : Ctx) : Ctx :=
  let vs := ((ctxsOf s k).filter fun m => m != n && ((s.ctx k m).state == 1 || (s.ctx k m).state == 2) &&
    (s.ctx k m).priority == x.priority).map fun m => (s.ctx k m).vtime
  match vs with
  | [] => x
  | v :: vs => { x with vtime := max x.vtime (vs.foldl min v) }

/-- CTX_ACTIVATE (R359, R364). The step counter is what the record holds (R508). -/
def execCtxActivate (who : Requester) (k : Fin 64) (ctx : Fin 256) (s : State) : Host.Outcome State Fault Refusal :=
  .next (ctxAction who k ctx (fun s =>
    let x := s.ctx k ctx
    if x.state ≠ 0 then .inr 0x0607
    else
      match readCtx s k ctx {} with
      | none => .inr 0x060C
      | some (y, b) =>
        if recordWrong y b ∨ !maskOwned s k y then .inr 0x0606
        else
          let y := { y with
            state := 1, step := leNat ((b.drop 0x58).take 8), cheapLimit := if y.cheapLimit = 0 then 20 else y.cheapLimit }
          .inl (choose k (recordSeed k 0 ctx y.seed (s.writeCtx k ctx (raiseVtime s k ctx y))))) s)

/-- Save every core of a context at once by forced full save (R185, R359). -/
def forceSave (k n : Nat) (s : State) : State :=
  s.each (coresHeld s k n) fun c t =>
    match (t.core c).run with
    | .running | .blocked _ | .halted =>
      (leaveWaits (coreAgent c) t).modCore c fun x => { x with run := .forcedSave, asked := false }
    | .restoring => t.modCore c fun x => { x with asked := true }
    | _ => t

/-- SUSPEND of a context that is READY, RUNNING or TRAPPED (R359). -/
def suspend (k n : Nat) (s : State) : State :=
  let x := s.ctx k n
  if x.state = 1 then s.writeCtx k n { x with state := 4, claiming := false, donors := [] }
  else if x.state = 2 then askPreempt k n (s.writeCtx k n { x with state := 3 })
  else if x.state = 5 then forceSave k n (s.writeCtx k n { x with state := 3 })
  else s

/-- CTX_SUSPEND (R359, R360). -/
def execCtxSuspend (who : Requester) (k : Fin 64) (ctx : Fin 256) (s : State) : Host.Outcome State Fault Refusal :=
  .next (ctxAction who k ctx (fun s =>
    let st := (s.ctx k ctx).state
    if st = 1 ∨ st = 2 ∨ st = 5 then .inl (choose k (suspend k ctx s)) else .inr 0x0607) s)

/-- A context's saved cores under a new mask: the state of rank i goes to the core of rank i. -/
def reranked (old new : Ctx) : Table SavedCore :=
  let a := maskCores old.mask
  let b := maskCores new.mask
  (old.saved.filterMap fun e =>
    match a.idxOf? e.1 with
    | some i => (b[i]?).map fun c => (c, e.2)
    | none => none).foldl (fun t e => tabSet e.1 e.2 t) []

/-- CTX_RESUME (R359, R364, R376, R536): the record, which the runtime may have rewritten, is read again. -/
def execCtxResume (who : Requester) (k : Fin 64) (ctx : Fin 256) (s : State) : Host.Outcome State Fault Refusal :=
  .next (ctxAction who k ctx (fun s =>
    let x := s.ctx k ctx
    if x.state ≠ 4 then .inr 0x0607
    else
      match readCtx s k ctx x with
      | none => .inr 0x060C
      | some (y, b) =>
        if recordWrong y b then .inr 0x0606
        else if maskLost s k y then .inr 0x0607
        else
          let y := { y with state := 1, saved := reranked x y, cheapLimit := if y.cheapLimit = 0 then 20 else y.cheapLimit }
          .inl (choose k (s.writeCtx k ctx (raiseVtime s k ctx y)))) s)

/-- CTX_DESTROY (R359). -/
def execCtxDestroy (who : Requester) (k : Fin 64) (ctx : Fin 256) (s : State) : Host.Outcome State Fault Refusal :=
  .next (ctxAction who k ctx (fun s =>
    if (s.ctx k ctx).state = 0 then .inr 0x0607 else .inl (choose k (endContext k ctx s))) s)

/-- PART.SLICE in ns; values below 100 act as 100 (R382). -/
def sliceNs (s : State) (k : Nat) : Nat := 1000 * max 100 (s.reg (partPage k) Rg.partSliceMicros)

/-- SLICE_END (R365, R366): it is ignored for a radio partition (R353). -/
def execSliceEnd (k : Fin 64) (ctx : Fin 256) (s : State) : Host.Outcome State Fault Refusal :=
  let x := s.ctx k ctx
  .next (if s.working ∧ x.state = 2 ∧ !x.sliceOver ∧ s.now ≥ x.sliceAt + sliceNs s k ∧
        s.reg (partPage k) Rg.partConfigKind ≠ 2 then
      let t := accountCtx k ctx s
      choose k (t.setCtx k ctx { t.ctx k ctx with sliceOver := true })
    else s)

/-- CONTEXT_START (R361 to R363, R366): the cores that the scheduler has claimed for a context are released, and the context starts on them:
engine time counts from here. A SUSPENDED owner that runs a donated slice shows SUSPENDING and is SUSPENDED again after it (R371). DEDUCED:
log entry 46. -/
def execContextStart (k : Fin 64) (ctx : Fin 256) (s : State) : Host.Outcome State Fault Refusal :=
  let x := s.ctx k ctx
  let cs := maskCores x.mask
  .next (if s.working ∧ x.claiming ∧ (x.state = 1 ∨ (x.state = 4 ∧ !x.donors.isEmpty)) ∧ cs.all (coreFree s) then
      let t := s.each cs fun c u => clearRegs c (u.setCore c
        { ctx := some ⟨k, ctx⟩, run := .restoring, heldSince := some s.now })
      t.writeCtx k ctx { x with state := if x.state = 4 then 3 else 2, claiming := false, sliceAt := s.now, sliceOver := false }
    else s)

/-- Load a core's instruction memory from an image of the partition (R361): a line that cannot be read leaves its words
uncorrectable. -/
def loadImage (k c base : Nat) (s : State) : State :=
  s.each (List.range 4096) fun i t =>
    match t.partRead k (base + 64 * i) 64 with
    | .data b =>
      let u := t.partTouch k (base + 64 * i) 64
      match b.mapM id with
      | some bytes => u.store .imem (imemKey c (64 * i)) bytes
      | none => { u with mem := { u.mem with imem := spoilBytes .imem (imemKey c (64 * i)) 64 u.mem.imem } }
    | _ => { t with mem := { t.mem with imem := spoilBytes .imem (imemKey c (64 * i)) 64 t.mem.imem } }

/-- The spill area of a core cannot be read (R523, R359): a page of its 9 MiB does not translate, or a codeword is uncorrectable. DEDUCED:
log entry 45. -/
def spillBad (s : State) (k : Nat) (x : Ctx) (c : Nat) : Bool :=
  let base := x.spill + (maskCores x.mask).idxOf c * (9 * 2 ^ 20)
  (List.range 6).any fun i =>
    let a := min (base + i * pageBytes) (base + 9 * 2 ^ 20 - 1)
    match translate s k a false with
    | .inr _ => true
    | .inl e =>
      match placeOf s e a with
      | .here r key => (s.memory r).flips.any fun w =>
          decide (key / pageBytes = w.1 * cwBytes r / pageBytes) && flipsBad r w.2
      | _ => true

/-- Replace the bytes of a core's scratchpad that a save holds: a full save replaces all of it, a live save only its ranges. DEDUCED: log
entry 45. -/
def restoreSpad (c : Nat) (v : SavedCore) (s : State) : State :=
  let m := s.mem.spad
  let gone := fun (a : Nat) => a / 2 ^ 22 == c && (v.full || inRanges v.lines (a % 2 ^ 22))
  let cells := m.cells.filter fun e => !gone e.1
  let flips := m.flips.filter fun e => !gone (8 * e.1)
  { s with mem := { s.mem with spad := {
      cells := v.spad.foldl (fun t e => tabSet (spadKey c e.1) e.2 t) cells, flips := flips } } }

/-- A context holds a trap record on some core: it is TRAPPED (R360). -/
def holdsTrap (s : State) (k n : Nat) : Bool := (coresHeld s k n).any fun c => s.flag (corePage c) Rg.coreTrapCauseValid

/-- A first start (R361, R508): every register 0 and the record's values in the registers of R188. DESIGN CHOICE: log entry 114. -/
def firstStart (k c : Nat) (x : Ctx) (s : State) : State :=
  let y : Core := { ctx := (s.core c).ctx, run := .running, pc := x.entry &&& 0x3FFFC, heldSince := (s.core c).heldSince, ctxStep := x.step
                    asked := (s.core c).asked, preempt := (s.core c).preempt, preemptAt := (s.core c).preemptAt
                    cheapAt := some s.now }
  let t := clearRegs c (s.setCore c y)
  let p := corePage c
  let t := t.setReg p Rg.coreExecControlChecked (bit x.checked) |>.setReg p Rg.coreCheapPointLimitLimit x.cheapLimit
    |>.setReg p Rg.coreCheapTableAddress x.cheapTable |>.setReg p Rg.coreCheapTableCountCount x.cheapCount
    |>.setReg p Rg.coreRngStepStep x.step
  let t := t.each (List.range 4) fun i u => u.setReg p Rg.coreRngSeedSeed (x.seed.toNat / 2 ^ (32 * i)) i
  settleGap c (loadImage k c x.binary t)

/-- Restore a saved core (R178, R361, R367): registers, queues and memories as saved; a halted core stays halted. A forced save is no cheap
point: the gap goes on where it stood (R176). -/
def restoreCore (k c : Nat) (x : Ctx) (v : SavedCore) (s : State) : State :=
  let old := s.core c
  let run := if v.core.run = .halted then CoreRun.halted else .running
  let t := loadRegs c v.regs (s.setCore c { v.core with
    ctx := old.ctx, run := run, asked := old.asked, preempt := old.preempt, preemptAt := old.preemptAt
    heldSince := old.heldSince, live := none
    cheapAt := if v.full then v.core.cheapAt else some s.now
    blockedNs := if v.full then v.core.blockedNs else 0
    pausedAt := if v.full then v.core.pausedAt else none })
  settleGap c (loadImage k c x.binary (restoreSpad c v t))

/-- CONTEXT_RESTORE_DONE (R361, R368): the core's restore or first start completes and it runs. A spill area that cannot be read
ends the context as DESTROY does, with CONTEXT_TRAP and 0x0703 (R523). -/
def execContextRestoreDone (c : Fin 160) (s : State) : Host.Outcome State Fault Refusal :=
  .next (match (s.core c).ctx with
    | none => s
    | some r =>
      if s.working ∧ (s.core c).run = .restoring then
        let x := s.ctx r.part r.ctx
        match tabFind c.val x.saved with
        | none => firstStart r.part c x s
        | some v =>
          if spillBad s r.part x c then
            choose r.part (endContext r.part r.ctx ((s.error raspPage 0x0703 r.part r.ctx).raise (partPage r.part) 2))
          else
            let t := restoreCore r.part c x v s
            let y := { t.ctx r.part r.ctx with saved := tabDel c.val x.saved }
            if holdsTrap t r.part r.ctx then t.writeCtx r.part r.ctx { y with state := 5 } else t.setCtx r.part r.ctx y
      else s)

end Sys2Proof.Machine
end

