-- ==== Sys2Proof/Machine/HostBase.lean ====
section
/-! DEFINITION. What every host command shares (R388, R396 to R407): queues and their owners, commands that have been fetched and
may start, their data, completions, long operations, and writes to host memory with the dirty log (R378). -/

namespace Sys2Proof.Machine

/-- The key of a queue: the PF admin pair stands behind the numbered queues. -/
def sqKey : SqRef → Nat
  | .admin => 1048576
  | .num q => q.val
def cqKey : CqRef → Nat
  | .admin => 262144
  | .num q => q.val

/-- A queue that exists. -/
def State.sq (s : State) (q : SqRef) : Option SqState := tabFind (sqKey q) s.host.sqs
def State.cq (s : State) (q : CqRef) : Option CqState := tabFind (cqKey q) s.host.cqs
def State.setSq (s : State) (q : SqRef) (x : SqState) : State :=
  { s with host := { s.host with sqs := tabSet (sqKey q) x s.host.sqs } }
def State.setCq (s : State) (q : CqRef) (x : CqState) : State :=
  { s with host := { s.host with cqs := tabSet (cqKey q) x s.host.cqs } }

/-- A number lies in a partition's range (R350). -/
def inRange (s : State) (k : Nat) (base count : RegField) (n : Nat) : Bool :=
  decide (s.reg (partPage k) base ≤ n) && decide (n < s.reg (partPage k) base + s.reg (partPage k) count)

/-- The partition whose range holds an SQ or a CQ: an enabled one, or the first whose registers name it. -/
def ownerIn (s : State) (base count : RegField) (n : Nat) : Option Nat :=
  match (List.range 64).find? fun k => s.partOn k && inRange s k base count n with
  | some k => some k
  | none => (List.range 64).find? fun k => inRange s k base count n
def sqPart (s : State) (n : Nat) : Option Nat := ownerIn s Rg.partSqBaseBase Rg.partSqCountCount n
def cqPart (s : State) (n : Nat) : Option Nat := ownerIn s Rg.partCqBaseBase Rg.partCqCountCount n

/-- The function that a queue belongs to: its partition's, 0 for the admin pair and for a number of no partition. -/
def sqFn (s : State) : SqRef → Nat
  | .admin => 0
  | .num q => ((sqPart s q).map (functionOf s)).getD 0
def cqFn (s : State) : CqRef → Nat
  | .admin => 0
  | .num q => ((cqPart s q).map (functionOf s)).getD 0

/-- Fields of a submission entry (R396). -/
def Cmd.field (c : Cmd) (off lo n : Nat) : Nat := dField c.entry off lo n
def cmdOp (c : Cmd) : Nat := c.field 0 0 8
def cmdFence (c : Cmd) : Bool := c.field 0 8 1 == 1
def cmdProgress (c : Cmd) : Bool := c.field 0 9 1 == 1
def cmdLocal (c : Cmd) : Bool := c.field 0 10 1 == 1
def cmdAddr (c : Cmd) : Nat := c.field 8 0 64
def cmdLen (c : Cmd) : Nat := c.field 0x10 0 32

/-- The long operations of R398. -/
def longOps : List Nat := [0x13, 0x14, 0x26, 0x40, 0x41, 0x42, 0x43]
def isLong (c : Cmd) : Bool := longOps.contains (cmdOp c)

/-- The partition whose CQ it is. -/
def cqPartOf (s : State) : CqRef → Option Nat
  | .admin => none
  | .num q => cqPart s q

/-- A completion joins those that wait for their CQ, in order of formation (R401); a CQ that does not exist takes none. -/
def formCompletion (q : CqRef) (e : CqEntry) (s : State) : State :=
  match s.cq q with
  | none => s
  | some x =>
    let t := s.setCq q { x with waiting := x.waiting ++ [e] }
    match cqPartOf s q with
    | some k => noteOutput k 0
        (toBytes 16 e.result.toNat ++ toBytes 4 e.sqId ++ toBytes 2 e.cmdId ++ toBytes 2 e.status ++
          toBytes 8 (2 ^ 17 * bit e.interim + 2 ^ 18 * bit e.unsolicited)) t
    | none => t

/-- The SQ number that a completion carries: that of the admin SQ is 0. -/
def sqNumber : SqRef → Nat
  | .admin => 0
  | .num q => q.val

/-- Post the completion of a command; one that a lead forwarded returns to it (R416). -/
def postCompletion (c : Cmd) (status : Nat) (result : BitVec 128) (s : State) : State :=
  match c.forTdi, c.lead with
  | some _, _ => s
  | none, some l => s.emit (.memberCompletion l (sqNumber c.sq) c.id status result)
  | none, none => formCompletion c.cq ⟨result, sqNumber c.sq, c.id.toNat, status, c.sqHead, false, false⟩ s

/-- A command is complete (R402): it leaves the device and its completion is formed. -/
def complete (c : Cmd) (status : Nat) (result : BitVec 128 := 0) (s : State) : State :=
  postCompletion c status result { s with host := { s.host with cmds := s.host.cmds.filter fun d => !(d.sq == c.sq && d.id == c.id && d.sqHead == c.sqHead && d.entry == c.entry) } }

/-- A long operation of an SQ runs. -/
def longRunning (s : State) (q : SqRef) : Bool := s.host.longs.any fun l => l.cmd.sq == q && l.cmd.forTdi.isNone

/-- The command may start (R396, R397, R405): earlier ones of its SQ have started, long ones that wait their turn apart; with FENCE they are
complete; and a long one finds no other of its SQ before it. DESIGN CHOICE: log entry 59. -/
def mayStartCmd (s : State) (earlier : List Cmd) (c : Cmd) : Bool :=
  let mine := earlier.filter fun d => d.sq == c.sq
  !c.started &&
    (if cmdFence c then mine.isEmpty
     else mine.all fun d => d.started || (isLong d && longRunning s c.sq && !cmdFence d)) &&
    (!isLong c || (!longRunning s c.sq && mine.all fun d => d.started || !isLong d))

/-- The first fetched command that a reference names, has one of the opcodes and may start. DESIGN CHOICE: log entry 59. -/
def findCmd (s : State) (q : CmdRef) (ops : List Nat) : Nat → List Cmd → Option Cmd
  | _, [] => none
  | i, c :: cs =>
    if c.sq == q.sq && c.id == q.id && ops.contains (cmdOp c) && mayStartCmd s (s.host.cmds.take i) c then some c
    else findCmd s q ops (i + 1) cs

/-- Opcodes whose commands read data; LOAD_OBJECT is recorded with the CRC-64 of its data in their place (R513). -/
def dataOps : List Nat := [0x10, 0x13, 0x20, 0x21]

/-- Write a recorded command to the ring with its data (R513). DEDUCED: log entry 100. -/
def recordCmd (c : Cmd) (data : List Byte) (s : State) : State :=
  match c.recorded with
  | none => s
  | some (b, at_) =>
    putEntry c.part 1 b at_
      (toBytes 64 c.entry.toNat ++ (if cmdOp c = 0x13 then toBytes 8 (crc64 0 data).toNat else data)) s

/-- Start a command that may start: a PF command that names a locked TDI's partition completes with TDI_LOCKED (R413), one that names a
partition being cleared with ZEROIZE_ACTIVE (R577); f gives the rest of its effect. A reference that names no such command changes nothing.
DESIGN CHOICE: log entry 59. DEDUCED: log entry 100. -/
def startCmd (q : CmdRef) (ops : List Nat) (named : Bool) (f : Cmd → State → State) (s : State) : State :=
  if !s.alive then s
  else
    match findCmd s q ops 0 s.host.cmds with
    | none => s
    | some c =>
      if named && c.sq == .admin && tdiLocked s (functionOf s c.part) then complete c 0x0501 0 s
      else if named && zeroizing s c.part then complete c 0x0502 0 s
      else f c (if dataOps.contains (cmdOp c) then s else recordCmd c [] s)

/-- The parameter bits of an entry that a list of fields (offset, lowest bit, width) does not name are 0. -/
def paramsClean (c : Cmd) (used : List (Nat × Nat × Nat)) : Bool :=
  let mask := used.foldl (fun m f => m ||| (2 ^ f.2.2 - 1) * 2 ^ (8 * f.1 + f.2.1)) 0
  let all := (2 ^ 320 - 1) * 2 ^ 192
  c.entry.toNat &&& (all - (mask &&& all)) == 0

/-- What reading a command's data gives. -/
inductive CmdData where
  | ok (b : List Byte)
  | fails (status : Nat)
  | waits
  deriving DecidableEq, Repr

/-- The data of a command from byte off on (R396, R398): from the partition where DATA_LOC is 1, else what the host's memory holds; a byte
beyond the operand's is 0. DESIGN CHOICE: log entry 60. -/
def readData (s : State) (c : Cmd) (data : HostData) (n : Nat) : CmdData :=
  if c.replay.isSome ∧ cmdOp c ≠ 0x13 then .ok ((List.range n).map fun i => (c.replay.getD []).getD i 0)
  else if cmdLocal c then
    match s.partRead c.part (cmdAddr c) n with
    | .error _ _ => .fails 0x0103
    | .held _ => .waits
    | .data b => match b.mapM id with
      | some b => .ok b
      | none => .fails 0x0106
  else
    match data.status with
    | .fault => .fails 0x0103
    | .uncorrectable => .fails 0x0106
    | .ok => .ok ((List.range n).map fun i => data.bytes.getD i 0)

/-- What reading it leaves. -/
def touchData (c : Cmd) (n : Nat) (s : State) : State := if cmdLocal c then s.partTouch c.part (cmdAddr c) n else s

/-- Go on with a command's data, or complete it with DATA_FAULT or DATA_UE. DESIGN CHOICE: log entry 60. -/
def withData (c : Cmd) (data : HostData) (n : Nat) (f : List Byte → State → State) (s : State) : State :=
  let t := touchData c n s
  match readData s c data n with
  | .ok b => f b (recordCmd c b t)
  | .fails e => complete c e 0 (recordCmd c [] t)
  | .waits => t

/-- A long operation begins: its command has started. -/
def startLong (c : Cmd) (total : Nat) (data : List Byte) (s : State) (kind unit start : Nat := 0) : State :=
  let d := { c with started := true }
  { s with host := { s.host with
    cmds := s.host.cmds.map fun x => if x = c then d else x
    longs := s.host.longs ++
      [{ cmd := d, total := total, data := data, kind := kind, unit := unit, start := start, startedAt := s.now }] } }

/-- A command has started and is not complete. -/
def markStarted (c : Cmd) (s : State) : State :=
  { s with host := { s.host with cmds := s.host.cmds.map fun x => if x = c then { c with started := true } else x } }

/-- The long operation of an SQ with a CMD_ID. -/
def longOf (s : State) (q : SqRef) (id : BitVec 16) : Option LongOp :=
  s.host.longs.find? fun l => l.cmd.sq == q && l.cmd.id == id && l.cmd.forTdi.isNone

/-- Replace the long operation of an SQ. -/
def setLong (l : LongOp) (s : State) : State :=
  { s with host := { s.host with longs := s.host.longs.map fun m => if m.cmd = l.cmd then l else m } }

/-- A long operation ends with a status: its completion carries DONE and TOTAL (R405). -/
def endLong (l : LongOp) (status : Nat) (s : State) : State :=
  complete l.cmd status (BitVec.ofNat 128 (l.done % 2 ^ 64 + 2 ^ 64 * l.total))
    { s with host := { s.host with longs := s.host.longs.filter fun m => m.cmd != l.cmd } }

/-- The dirty log of a partition (R378): while it runs, the bit of each 4 KiB page of the logged range that a write to host memory
touches is set first; writes to the bitmap itself are not logged. -/
def logDirty (k addr n : Nat) (s : State) : State :=
  let p := partPage k
  let base := s.reg p Rg.partDirtyBaseAddress
  let len := s.reg p Rg.partDirtyLengthBytes
  let bitmap := s.reg p Rg.partDirtyBitmapAddress
  let pages := if n = 0 then []
    else (List.range ((addr + n - 1) / 4096 - addr / 4096 + 1)).map fun i => (addr / 4096 + i) * 4096
  let logged := pages.filter fun a =>
    s.flag p Rg.partDirtyControlEnable && decide (base ≤ a) && decide (a < base + len) &&
      !(decide (bitmap ≤ addr) && decide (addr < bitmap + len / 4096 / 8))
  s.each logged fun a u => u.emit (.dirtyBit k ((a - base) / 4096 / 64) ((a - base) / 4096 % 64))

/-- Bytes that the device writes to host memory on behalf of a partition. -/
def hostWrite (k addr : Nat) (data : List Byte) (s : State) : State :=
  (logDirty k addr data.length s).emit (.hostWrite (BitVec.ofNat 64 addr) data)

/-- The partition on whose behalf an SQ's host memory is written. -/
def hostWriteFor (k : Option Nat) (addr : Nat) (data : List Byte) (s : State) : State :=
  match k with
  | some k => hostWrite k addr data s
  | none => s.emit (.hostWrite (BitVec.ofNat 64 addr) data)

/-- Write a command's data area (R396): a partition address or host memory. -/
def writeData (c : Cmd) (b : List Byte) (s : State) : State :=
  if cmdLocal c then s.partWrite c.part (cmdAddr c) b else hostWrite c.part (cmdAddr c) b s

/-- The progress word of a long operation (R406), written while the link is up (R384). -/
def writeProgress (l : LongOp) (s : State) : State :=
  match s.sq l.cmd.sq with
  | none => s
  | some x =>
    if x.progress = 0 ∨ !s.host.linkUp then s
    else hostWrite l.cmd.part x.progress
      (toBytes 2 l.cmd.id.toNat ++ toBytes 1 (cmdOp l.cmd) ++ toBytes 1 0 ++ toBytes 4 l.seq ++ toBytes 8 l.done) s

/-- One chunk of a long operation is complete (R405 to R407): n more units are done; the progress word is written, an interim
completion posted at most once in 10 ms, and the operation ends when all is done or it has been cancelled. -/
def chunkDone (l : LongOp) (n : Nat) (s : State) : State :=
  let l := { l with done := min l.total (l.done + n), seq := (l.seq + 1) % 2 ^ 32 }
  let t := writeProgress l s
  if l.done ≥ l.total then endLong l 0 t
  else if l.cancelled then endLong l 0x0107 t
  else
    let due := match l.interimAt with
      | none => true
      | some at_ => decide (t.now ≥ at_ + 10000000)
    if cmdProgress l.cmd && due then
      formCompletion l.cmd.cq ⟨BitVec.ofNat 128 (l.done % 2 ^ 64 + 2 ^ 64 * l.total), sqNumber l.cmd.sq, l.cmd.id.toNat, 1,
        l.cmd.sqHead, true, false⟩ (setLong { l with interimAt := some t.now } t)
    else setLong l t

end Sys2Proof.Machine
end

