-- ==== Sys2Proof/Machine/Queues.lean ====
section
/-! DEFINITION. Submission and completion queues (R388 to R402): creation, doorbells, fetching, NOP and CANCEL, completions and
their messages (R408, R410), and the PF admin pair (R419). -/

namespace Sys2Proof.Machine

/-- A doorbell write that R400 ignores: counted and recorded with the queue number. DEDUCED: log entry 61. -/
def doorbellFault (q : Nat) (s : State) : State :=
  (s.bump hostPage Rg.hostDoorbellFaultCount).error hostPage 0x0122 0 q

/-- Where a doorbell write may act (R385, R419): through the window of the function that its SQ's partition maps to; the admin
pair's is a register of the HOST page. A TDI in RUN takes only a write on its IDE stream with the T bit set (R413). -/
def ring (fn : Nat) (q : SqRef) (secure : Bool) (f : SqState → State → State) (s : State) : State :=
  let go := fun s => match State.sq s q with
    | none => doorbellFault (sqNumber q) s
    | some x => f x s
  match q with
  | .admin => writeAccess (.function (Fin.ofNat 256 fn)) hostPage 0x060 go s
  | .num _ =>
    if !s.alive || !s.host.linkUp then s
    else if tabFind fn s.host.tdis == some .run && !secure then s.emit .unsupportedRequest
    else if sqFn s q ≠ fn then s.bump hostPage Rg.hostDoorbellFaultCount
    else go s

/-- SQ_TAIL_DOORBELL (R395, R399, R400): the lower half of a doorbell advances the tail, and every entry that it newly covers arrives now.
DEDUCED: log entry 61. -/
def execSqTailDoorbell (fn : Fin 256) (sq : SqRef) (low : BitVec 32) (secure : Bool) (s : State) : Host.Outcome State Fault Refusal :=
  .next (ring fn.val sq secure (fun x s =>
    let tail := low.toNat % 65536
    if low.getLsbD 31 then
      if tail ≥ x.depth then doorbellFault (sqNumber sq) s
      else s.setSq sq { x with
        tail := tail, arrivals := x.arrivals ++ List.replicate ((tail + x.depth - x.tail) % x.depth) s.now }
    else s) s)

/-- CQ_HEAD_DOORBELL (R399 to R401, R408): the upper half advances the head of the bound CQ; consuming every signalled entry restarts both
coalescing counts. DEDUCED: log entry 61. -/
def execCqHeadDoorbell (fn : Fin 256) (sq : SqRef) (high : BitVec 32) (secure : Bool) (s : State) : Host.Outcome State Fault Refusal :=
  .next (ring fn.val sq secure (fun x s =>
    let head := high.toNat % 65536
    if high.getLsbD 31 then
      match s.cq x.cq with
      | none => doorbellFault (sqNumber sq) s
      | some y =>
        let step := (head + y.depth - y.head) % y.depth
        if head ≥ y.depth ∨ step > (y.tail + y.depth - y.head) % y.depth then doorbellFault (sqNumber sq) s
        else if step > 0 ∧ (y.signalled + y.depth - y.head) % y.depth ≤ step then
          s.setCq x.cq { y with head := head, unsignalled := 0, oldest := s.now }
        else s.setCq x.cq { y with head := head }
    else s) s)

/-- The queues that accept an opcode (R398). -/
def accepts (s : State) (q : SqRef) (part : Option Nat) (op : Nat) : Bool :=
  let pf := q == .admin
  let radio := match part with
    | some k => s.reg (partPage k) Rg.partConfigKind == 2
    | none => false
  let admin := match s.sq q with
    | some x => x.admin
    | none => false
  if op ≤ 0x01 then true
  else if op ≤ 0x05 then pf || admin
  else if op ≤ 0x26 then pf || part.isSome
  else if op ≤ 0x32 then pf || radio
  else pf

/-- The opcodes of R398. -/
def opcodes : List Nat :=
  [0x00, 0x01, 0x02, 0x03, 0x04, 0x05, 0x10, 0x11, 0x12, 0x13, 0x14, 0x15, 0x16, 0x17, 0x18, 0x20, 0x21, 0x22, 0x23, 0x24, 0x25,
   0x26, 0x30, 0x31, 0x32, 0x33, 0x40, 0x41, 0x42, 0x43, 0x70, 0x71]

/-- The parameter fields of the commands of this chapter without a status of their own for reserved bits. -/
def plainParams (op : Nat) : Option (List (Nat × Nat × Nat)) :=
  match op with
  | 0x00 => some []
  | 0x01 => some [(0x18, 0, 16)]
  | 0x04 => some [(0x18, 0, 20)]
  | 0x05 => some [(0x18, 0, 18)]
  | 0x70 => some [(0x18, 0, 6), (0x1C, 0, 32)]
  | 0x71 => some [(0x18, 0, 6), (0x1C, 0, 32), (0x20, 0, 32)]
  | _ => none

/-- What a fetched entry completes with at once (R396, R398). DEDUCED: log entry 58. -/
def entryFault (s : State) (c : Cmd) (part : Option Nat) : Option Nat :=
  if !opcodes.contains (cmdOp c) then some 0x0101
  else if !accepts s c.sq part (cmdOp c) then some 0x0104
  else if c.field 0 11 5 ≠ 0 ∨ c.field 4 6 26 ≠ 0 ∨ c.field 0x14 0 32 ≠ 0 ∨ (c.sq ≠ .admin ∧ c.field 4 0 6 ≠ 0) then some 0x0102
  else
    match plainParams (cmdOp c) with
    | some used => if paramsClean c used then none else some 0x0102
    | none => none

/-- A fetched command joins those in the device, or completes at once. DEDUCED: log entry 58. -/
def dispatchCmd (c : Cmd) (part : Option Nat) (s : State) : State :=
  match entryFault s c part with
  | some e => postCompletion c e 0 (recordCmd c [] s)
  | none => { s with host := { s.host with cmds := s.host.cmds ++ [c] } }

/-- The numbered SQ that the queue manager serves next and the turn it leaves (R392): the first class with entries pending, in
it weighted round robin. -/
def pickSq (s : State) : Option (Nat × Nat × Nat) :=
  [0, 1, 2].findSome? fun cls =>
    let qs := (s.host.sqs.filter fun e => decide (e.1 < 1048576) && e.2.cls == cls && !e.2.arrivals.isEmpty && !(((sqPart s e.1).map fun k => replaying s k || (tabGet {} k s.parts).exported).getD false)).map Prod.fst
    match qs with
    | [] => none
    | q0 :: _ =>
      match tabFind cls s.host.turns with
      | none => some (cls, q0, ((tabFind q0 s.host.sqs).map (·.weight - 1)).getD 0)
      | some (cur, left) =>
        if qs.contains cur ∧ left > 0 then some (cls, cur, left - 1)
        else
          let q := (qs.find? fun q => decide (q > cur)).getD q0
          some (cls, q, ((tabFind q s.host.sqs).map (·.weight - 1)).getD 0)

/-- A member of the span (R442), and one that the fabric reports reachable (R417, R462). -/
def memberKnown (s : State) (m : Nat) : Bool :=
  decide (m < (s.reg fabrPage Rg.fabrSpanShapeX + 1) * (s.reg fabrPage Rg.fabrSpanShapeY + 1) * (s.reg fabrPage Rg.fabrSpanShapeZ + 1))
def memberUp (s : State) (m : Nat) : Bool := (s.reg fabrPage Rg.fabrReachableMembers).testBit m

/-- Fetch the entry at the head of an SQ: it acts here, or goes to a member (R416, R417). -/
def fetchFrom (q : SqRef) (x : SqState) (entry : BitVec 512) (s : State) : State :=
  let head := (x.head + 1) % x.depth
  let arrival := x.arrivals.headD s.now
  let t := (s.setSq q { x with head := head, arrivals := x.arrivals.drop 1 }).addReg qmgrPage Rg.qmgrFetchedCount 1
  let part := match q with
    | .admin => some (entry.extractLsb' 32 6).toNat
    | .num n => sqPart s n.val
  let c : Cmd :=
    { sq := q, cq := x.cq, id := entry.extractLsb' 16 16, part := part.getD 0, entry := entry, sqHead := head, arrival := arrival }
  match x.remote with
  | none => if q ≠ .admin ∧ recording s c.part = true then holdInput c.part (.cmd c) t else dispatchCmd c part t
  | some (m, rsq) =>
    if !memberUp s m then postCompletion c 0x0301 0 t
    else
      { t with host := { t.host with forwarded := t.host.forwarded ++ [Forwarded.mk (sqNumber q) x.cq c.id m head t.now] } }.emit
        (.forward m rsq entry)

/-- SQ_ENTRY_FETCH (R392, R395): the queue manager fetches one entry of the admin SQ, or of the numbered SQ that R392 chooses. DEDUCED: log
entry 58. -/
def execSqEntryFetch (admin : Bool) (entry : BitVec 512) (s : State) : Host.Outcome State Fault Refusal :=
  .next (if !s.working || !s.host.linkUp || s.frozen qmgrPage then s
    else if admin then
      match s.sq .admin with
      | some x => if x.arrivals.isEmpty then s else fetchFrom .admin x entry s
      | none => s
    else
      match pickSq s with
      | none => s
      | some (cls, q, left) =>
        match tabFind q s.host.sqs with
        | none => s
        | some x =>
          fetchFrom (.num (Fin.ofNat 1048576 q)) x entry
            { s with host := { s.host with turns := tabSet cls (q, left) s.host.turns } })

/-- NOP (R398). -/
def execNop (q : CmdRef) (s : State) : Host.Outcome State Fault Refusal :=
  .next (startCmd q [0x00] false (fun c s => complete c 0 0 s) s)

/-- CANCEL (R407): it stops a long operation of its SQ at the next chunk boundary, one that waits at once; where the operation ends at the
same moment the arbiter decides. DEDUCED: log entry 65. -/
def execCancel (q : CmdRef) (cancelFirst : Bool) (s : State) : Host.Outcome State Fault Refusal :=
  .next (startCmd q [0x01] false (fun c s =>
    let id := BitVec.ofNat 16 (c.field 0x18 0 16)
    let stays := fun (d : Cmd) => cmdOp d == 0x43 || cmdOp d == 0x40
    match longOf s c.sq id with
    | some l =>
      if stays l.cmd then complete c 0x0104 0 s
      else if cancelFirst then complete c 0 0 (setLong { l with cancelled := true } s)
      else complete c 0x010A 0 s
    | none =>
      match s.host.cmds.find? fun d => d.sq == c.sq && d.id == id && isLong d && !d.started with
      | some d => if stays d then complete c 0x0104 0 s else complete c 0 0 (complete d 0x0107 0 s)
      | none => complete c 0x010A 0 s) s)

/-- A queue command on a queue may name that number (R388): the PF admin SQ any, another admin SQ those of its function's
partitions. -/
def mayName (s : State) (c : Cmd) (base count : RegField) (n : Nat) : Bool :=
  c.sq == .admin || (List.range 64).any fun k => functionOf s k == sqFn s c.sq && inRange s k base count n

/-- The queue command names a queue of a locked TDI (R413). -/
def lockedQueue (s : State) (c : Cmd) (fn : Nat) : Bool := c.sq == .admin && tdiLocked s fn

/-- CREATE_SQ (R388 to R390). DEDUCED: log entry 58. -/
def execCreateSq (q : CmdRef) (s : State) : Host.Outcome State Fault Refusal :=
  .next (startCmd q [0x02] false (fun c s =>
    let n := c.field 0x18 0 20
    let cq := c.field 0x1C 0 18
    let cls := c.field 0x18 20 2
    let depth := c.field 0x20 0 17
    let member := c.field 0x38 0 6
    let sqr := SqRef.num (Fin.ofNat 1048576 n)
    let cqr := CqRef.num (Fin.ofNat 262144 cq)
    let used := [(0x18, 0, 32), (0x1C, 0, 18), (0x20, 0, 17), (0x24, 0, 20), (0x24, 31, 1), (0x28, 0, 64), (0x30, 0, 64),
      (0x38, 0, 6), (0x3C, 0, 20)]
    let radio := match sqPart s n with
      | some k => s.reg (partPage k) Rg.partConfigKind == 2
      | none => false
    if lockedQueue s c (sqFn s sqr) then complete c 0x0501 0 s
    else if (c.field 0x18 22 1 = 1 ∧ c.sq ≠ .admin) ∨ !mayName s c Rg.partSqBaseBase Rg.partSqCountCount n ∨
        !mayName s c Rg.partCqBaseBase Rg.partCqCountCount cq then complete c 0x0104 0 s
    else if !paramsClean c used ∨ cls = 3 ∨ c.field 0x18 24 8 = 0 ∨ depth < 2 ∨ depth > 65536 ∨ c.field 0x28 0 12 ≠ 0 ∨
        c.field 0x30 0 4 ≠ 0 then complete c 0x0108 0 s
    else if (s.sq sqr).isSome ∨ (s.cq cqr).isNone ∨ cqFn s cqr ≠ sqFn s sqr then complete c 0x0109 0 s
    else if cls = 0 ∧ !radio then complete c 0x0108 0 s
    else if c.field 0x18 23 1 = 1 ∧ !memberKnown s member then complete c 0x0302 0 s
    else
      let x : SqState :=
        { cls := cls, admin := c.field 0x18 22 1 == 1
          remote := if c.field 0x18 23 1 = 1 then some (member, c.field 0x3C 0 20) else none
          weight := c.field 0x18 24 8, cq := cqr, depth := depth
          pasid := if c.field 0x24 31 1 = 1 then some (BitVec.ofNat 20 (c.field 0x24 0 20)) else none
          base := c.field 0x28 0 64, progress := c.field 0x30 0 64 }
      complete c 0 0 (s.setSq sqr x)) s)

/-- CREATE_CQ (R388 to R390). DEDUCED: log entry 58. -/
def execCreateCq (q : CmdRef) (s : State) : Host.Outcome State Fault Refusal :=
  .next (startCmd q [0x03] false (fun c s =>
    let n := c.field 0x18 0 18
    let depth := c.field 0x20 0 17
    let cqr := CqRef.num (Fin.ofNat 262144 n)
    let used := [(0x18, 0, 18), (0x1C, 0, 12), (0x1C, 16, 16), (0x20, 0, 17), (0x24, 0, 20), (0x24, 31, 1), (0x28, 0, 64)]
    if lockedQueue s c (cqFn s cqr) then complete c 0x0501 0 s
    else if !mayName s c Rg.partCqBaseBase Rg.partCqCountCount n then complete c 0x0104 0 s
    else if !paramsClean c used ∨ depth < 2 ∨ depth > 65536 ∨ c.field 0x28 0 12 ≠ 0 then complete c 0x0108 0 s
    else if (s.cq cqr).isSome then complete c 0x0109 0 s
    else
      let x : CqState :=
        { vector := c.field 0x1C 0 12, coalesceCount := c.field 0x1C 16 8, coalesceTime := c.field 0x1C 24 8, depth := depth
          pasid := if c.field 0x24 31 1 = 1 then some (BitVec.ofNat 20 (c.field 0x24 0 20)) else none
          base := c.field 0x28 0 64 }
      complete c 0 0 (s.setCq cqr x)) s)

/-- Delete an SQ (R391): unfetched entries go; its long operations are cancelled at their next boundary, those that have not started end
without a completion; a ZEROIZE stays. DEDUCED: log entry 58. -/
def deleteSqState (q : SqRef) (s : State) : State :=
  { s with host := { s.host with
    sqs := tabDel (sqKey q) s.host.sqs
    longs := s.host.longs.map fun l => if l.cmd.sq == q && cmdOp l.cmd != 0x43 then { l with cancelled := true } else l
    cmds := s.host.cmds.filter fun d => !(d.sq == q && isLong d && cmdOp d != 0x43 && !d.started) } }

/-- Delete a CQ with the completions that wait for it. -/
def deleteCqState (q : CqRef) (s : State) : State := { s with host := { s.host with cqs := tabDel (cqKey q) s.host.cqs } }

/-- DELETE_SQ (R388, R391). DEDUCED: log entry 58. -/
def execDeleteSq (q : CmdRef) (s : State) : Host.Outcome State Fault Refusal :=
  .next (startCmd q [0x04] false (fun c s =>
    let n := c.field 0x18 0 20
    let sqr := SqRef.num (Fin.ofNat 1048576 n)
    if lockedQueue s c (sqFn s sqr) then complete c 0x0501 0 s
    else if !mayName s c Rg.partSqBaseBase Rg.partSqCountCount n then complete c 0x0104 0 s
    else if (s.sq sqr).isNone then complete c 0x010A 0 s
    else complete c 0 0 (deleteSqState sqr s)) s)

/-- A completion entry as its 32 bytes (R402). -/
def cqEntryBits (e : CqEntry) (phase : Bool) : BitVec 256 :=
  BitVec.ofNat 256 (e.result.toNat + 2 ^ 128 * (e.sqId % 2 ^ 20) + 2 ^ 160 * (e.cmdId % 2 ^ 16) + 2 ^ 176 * (e.status % 2 ^ 16) +
    2 ^ 192 * (e.sqHead % 2 ^ 16) + 2 ^ 208 * bit phase + 2 ^ 209 * bit e.interim + 2 ^ 210 * bit e.unsolicited)

/-- A message of a CQ: its vector is signalled and both counts start again (R408). -/
def signalCq (q : CqRef) (y : CqState) (s : State) : State :=
  (s.setCq q { y with unsignalled := 0, signalled := y.tail }).signal true (cqFn s q) y.vector

/-- A CQ that takes no further entry (R401). -/
def cqFull (y : CqState) : Bool := (y.tail + 1) % y.depth == y.head

/-- Write an entry at the tail of a CQ and signal its vector where it is time (R401, R402, R408). -/
def writeEntry (cq : CqRef) (y : CqState) (e : CqEntry) (s : State) : State :=
  let next := (y.tail + 1) % y.depth
  let z := { y with
    tail := next, phase := if next = 0 then !y.phase else y.phase
    unsignalled := y.unsignalled + 1, oldest := if y.signalled = y.tail then s.now else y.oldest }
  let t := match cqPartOf s cq with
    | some k => logDirty k (y.base + 32 * y.tail) 32 s
    | none => s
  let t := t.emit (.completion cq (cqEntryBits e y.phase))
  if z.unsignalled ≥ max 1 y.coalesceCount then signalCq cq z t else t.setCq cq z

/-- COMPLETION_WRITE (R401, R402, R408, R411): the first completion that waits for a CQ is written where the CQ has room; one
whose CQ fails translation is dropped and recorded. -/
def execCompletionWrite (cq : CqRef) (translates : Bool) (s : State) : Host.Outcome State Fault Refusal :=
  .next (if !s.alive || !s.host.linkUp || s.frozen qmgrPage then s
    else
      match s.cq cq with
      | none => s
      | some y =>
        match y.waiting with
        | [] => s
        | e :: rest =>
          if cqFull y then s
          else if !translates then (s.setCq cq { y with waiting := rest }).error hostPage 0x0122 0 (cqKey cq)
          else writeEntry cq { y with waiting := rest } e s)

/-- CQ_COALESCE_TIMER (R408): COALESCE_TIME has passed since the oldest entry not signalled. -/
def execCqCoalesceTimer (cq : CqRef) (s : State) : Host.Outcome State Fault Refusal :=
  .next (match s.cq cq with
    | none => s
    | some y =>
      if s.alive ∧ y.signalled ≠ y.tail ∧ s.now ≥ y.oldest + 1000 * max 1 y.coalesceTime then signalCq cq y s else s)

/-- Send the messages of vectors whose pending bit is set and that nothing holds any longer (R384, R410). -/
def sendPending (s : State) : State :=
  let go := s.host.vectorPending.filter fun key => s.host.linkUp && !vectorMasked s key
  { s with
    out := s.out ++ go.map fun key => Emission.msix (key / 4096) (key % 4096)
    host := { s.host with vectorPending := s.host.vectorPending.filter fun key => !go.contains key } }

/-- MSIX_VECTOR_UNMASK (R410): the host clears a vector's mask in the MSI-X table. -/
def execMsixVectorUnmask (fn : Fin 256) (vector : Fin 4096) (s : State) : Host.Outcome State Fault Refusal :=
  let key := msixKey fn.val vector.val
  .next (if s.alive ∧ s.host.linkUp then
      sendPending { s with host := { s.host with
        msix := tabMod (1#128 <<< 96) key (fun v => v &&& ~~~(1#128 <<< 96)) s.host.msix } }
    else s)

/-- ADMIN_QUEUE_ENABLE (R419): a write of ADMIN_CONTROL.ENABLE starts the PF admin pair, or deletes it as R391 states. DEDUCED: log entry
58. -/
def execAdminQueueEnable (who : Requester) (on : Bool) (s : State) : Host.Outcome State Fault Refusal :=
  .next (writeAccess who hostPage 0x05C (fun s =>
    let t := s.setReg hostPage Rg.hostAdminControlEnable (bit on)
    let sd := s.reg hostPage Rg.hostAdminSizeSqDepth
    let cd := s.reg hostPage Rg.hostAdminSizeCqDepth
    if !on then
      ((deleteCqState .admin (deleteSqState .admin t))).setReg hostPage Rg.hostAdminControlReady 0
    else if (s.sq .admin).isSome ∨ sd = 0 ∨ cd = 0 then t
    else
      let x : SqState :=
        { cls := 1, admin := true, remote := none, weight := 1, cq := .admin, depth := sd + 1, pasid := none
          base := s.reg hostPage Rg.hostAdminSqAddrAddress, progress := 0 }
      let y : CqState :=
        { vector := 0, coalesceCount := 0, coalesceTime := 0, depth := cd + 1, pasid := none
          base := s.reg hostPage Rg.hostAdminCqAddrAddress }
      ((t.setSq .admin x).setCq .admin y).setReg hostPage Rg.hostAdminControlReady 1) s)

end Sys2Proof.Machine
end

