-- ==== Sys2Proof/Machine/HostIface.lean ====
section
/-! DEFINITION. The PCIe link and configuration requests (R383, R384, R593), the memory window (R385 to R387), interrupt routes
(R409), ATS (R411), IDE and TDISP (R412, R413, R580), and span forwarding (R416 to R418). -/

namespace Sys2Proof.Machine

/-- PCIE_LINK_DOWN (R384): host accesses, completions and messages wait while the link is down. -/
def execPcieLinkDown (s : State) : Host.Outcome State Fault Refusal :=
  .next (if s.alive ∧ s.host.linkUp then
      ({ s with host := { s.host with linkUp := false } }.setReg hostPage Rg.hostLinkStatusSpeed 0
        |>.setReg hostPage Rg.hostLinkStatusWidth 0 |>.setReg hostPage Rg.hostLinkStatusFlit 0).raise hostPage 1
    else s)

/-- PCIE_LINK_UP (R383, R384): the link trains at a rate and width of R383; a change sets LINK_CHANGE, progress words are written
again and messages that waited are sent. -/
def execPcieLinkUp (speed : Fin 4) (width : Fin 17) (flit : Bool) (s : State) : Host.Outcome State Fault Refusal :=
  .next (if s.alive ∧ speed.val ≠ 0 ∧ (width.val = 4 ∨ width.val = 8 ∨ width.val = 16) ∧ (flit || speed.val == 1) = true then
      let changed := s.reg hostPage Rg.hostLinkStatusSpeed ≠ speed.val ∨ s.reg hostPage Rg.hostLinkStatusWidth ≠ width.val
      let t := { s with host := { s.host with linkUp := true } }.setReg hostPage Rg.hostLinkStatusSpeed speed
        |>.setReg hostPage Rg.hostLinkStatusWidth width |>.setReg hostPage Rg.hostLinkStatusFlit (bit flit)
      let t := if s.host.linkUp then t else sendPending (t.each (t.host.longs.filter fun l => l.seq != 0) writeProgress)
      t.raiseBits hostPage (if changed then 2 else 0)
    else s)

/-- PCIE_CONFIG_REQUEST (R593): completed once the link has reached L0, answered with retry status before. -/
def execPcieConfigRequest (fn : Fin 256) (register : Nat) (s : State) : Host.Outcome State Fault Refusal :=
  .next (if !s.alive then s else if s.host.linkUp then s.emit (.configDone fn register) else s.emit .retryStatus)

/-- The memory window of a function (R386). -/
def windowOf (s : State) (fn : Nat) : Window :=
  let w : Window := tabGet {} fn s.host.windows
  if zeroizing s w.part then { w with valid := false } else w

/-- A failed window access: counted and recorded (R386). DEDUCED: log entry 64. -/
def winFault (fn off : Nat) (s : State) : State :=
  (s.bump hostPage Rg.hostWinFaultCount).error hostPage 0x0121 fn (off % 2 ^ 32)

/-- TDISP refuses a window access (R413): a TDI in RUN takes only what arrives on its IDE stream with the T bit; the PF does not reach the
partitions of a locked TDI. DEDUCED: log entry 19. -/
def windowLocked (s : State) (fn off : Nat) (secure : Bool) : Bool :=
  (tabFind fn s.host.tdis == some .run && !secure) ||
    (fn == 0 && decide (off ≥ 0x100000) && (windowOf s fn).valid && tdiLocked s (functionOf s (windowOf s fn).part))

/-- A byte of the MSI-X table or the pending-bit array in the first MiB of a memory window (R386). -/
def msixByte (s : State) (fn off : Nat) : Byte :=
  if off < 0x10000 then ((tabGet (1#128 <<< 96) (msixKey fn (off / 16)) s.host.msix).extractLsb' (8 * (off % 16)) 8)
  else if off < 0x10200 then
    BitVec.ofNat 8 ((List.range 8).foldl (fun v i =>
      if s.host.vectorPending.contains (msixKey fn ((off - 0x10000) * 8 + i)) then v + 2 ^ i else v) 0)
  else 0

/-- The partition address of a window offset (R386). -/
def windowAddr (w : Window) (off : Nat) : Nat := (w.base + (off - 0x100000)) % 2 ^ 64

/-- WINDOW_READ (R385 to R387). A read that waits for a unit to be re-sourced (R272) starts that and gives no answer yet. DEDUCED: log entry
64. -/
def execWindowRead (fn : Fin 256) (off len : Nat) (secure : Bool) (s : State) : Host.Outcome State Fault Refusal :=
  let f := fn.val
  let w := windowOf s f
  let a := windowAddr w off
  .next (if !s.alive || !s.host.linkUp || s.frozen hostPage then s
    else if windowLocked s f off secure then s.emit .unsupportedRequest
    else if off < 0x100000 then s.emit (.readData (some ((List.range len).map fun i => msixByte s f (off + i))))
    else if !w.valid then (winFault f off s).emit .unsupportedRequest
    else
      match s.partRead w.part a len with
      | .error _ _ => (winFault f off (s.faultTouch w.part a len false)).emit .unsupportedRequest
      | .held _ => s.partTouch w.part a len
      | .data b =>
        match b.mapM id with
        | some b => (s.partTouch w.part a len).emit (.readData (some b))
        | none => (winFault f off (s.partTouch w.part a len)).emit (.readData none))

/-- Write one byte of the MSI-X table; the pending-bit array and the rest of the first MiB ignore writes. -/
def msixWrite (f off : Nat) (b : Byte) (s : State) : State :=
  if off < 0x10000 then
    { s with host := { s.host with
      msix := tabMod (1#128 <<< 96) (msixKey f (off / 16)) (fun v =>
        (v &&& ~~~(0xFF#128 <<< (8 * (off % 16)))) ||| (b.setWidth 128 <<< (8 * (off % 16)))) s.host.msix } }
  else s

/-- WINDOW_WRITE (R386): a posted write; one that fails is discarded and counted, one to a page under copy waits. -/
def execWindowWrite (fn : Fin 256) (off : Nat) (data : List Byte) (secure : Bool) (s : State) : Host.Outcome State Fault Refusal :=
  let f := fn.val
  let w := windowOf s f
  let a := windowAddr w off
  .next (if !s.alive || !s.host.linkUp || s.frozen hostPage then s
    else if windowLocked s f off secure then s.emit .unsupportedRequest
    else if off < 0x100000 then
      sendPending (s.each ((List.range data.length).zip data) fun e t => msixWrite f (off + e.1) e.2 t)
    else if !w.valid then winFault f off s
    else
      match s.partWriteCheck w.part a data.length with
      | .done => if recording s w.part then holdInput w.part (.window a data) s else s.partStore w.part a data
      | .waits => s
      | .error _ _ => winFault f off (s.faultTouch w.part a data.length true))

/-- The new value of an AtomicOp (R383). -/
def windowOp (op : WindowAtomicOp) (old operand compare : Nat) : Nat :=
  match op with
  | .fetchAdd => old + operand
  | .swap => operand
  | .compareAndSwap => if old = compare then operand else old

/-- WINDOW_ATOMIC (R387): an AtomicOp at the word's home returns the old value. One below 1 MiB or not naturally aligned is not a request of
the window. DEDUCED: log entry 64. -/
def execWindowAtomic (fn : Fin 256) (off : Nat) (op : WindowAtomicOp) (wide : Bool) (operand compare : BitVec 64) (secure : Bool)
    (s : State) : Host.Outcome State Fault Refusal :=
  let f := fn.val
  let w := windowOf s f
  let a := windowAddr w off
  let n := if wide then 8 else 4
  .next (if !s.alive || !s.host.linkUp || s.frozen hostPage then s
    else if windowLocked s f off secure || decide (off < 0x100000) || off % n != 0 then s.emit .unsupportedRequest
    else if !w.valid then (winFault f off s).emit .unsupportedRequest
    else
      match s.partWriteCheck w.part a n with
      | .error _ _ => (winFault f off (s.faultTouch w.part a n true)).emit .unsupportedRequest
      | .waits => s
      | .done =>
        match s.partRead w.part a n with
        | .error _ _ => (winFault f off s).emit .unsupportedRequest
        | .held _ => s.partTouch w.part a n
        | .data b =>
          let t := s.partTouch w.part a n
          match b.mapM id with
          | none => (winFault f off t).emit (.readData none)
          | some b =>
            (t.partStore w.part a (toBytes n (windowOp op (leNat b) (operand.toNat % 2 ^ (8 * n)) (compare.toNat % 2 ^ (8 * n))))).emit
              (.readData (some b)))

/-- The partition that a page belongs to (R350, R355). -/
def pageOwner (s : State) (p : Page) : Option Nat :=
  match p.kind with
  | .part => some p.inst
  | .core => ownerOfCore s p.inst
  | .sigc => ownerOfSigc s p.inst
  | _ => none

/-- The page belongs to a partition of a locked TDI (R413). -/
def pageLocked (s : State) (p : Page) : Bool :=
  match pageOwner s p with
  | some k => tdiLocked s (functionOf s k)
  | none => false

/-- ROUTE_WRITE (R409): a write of HOST.ROUTE for the page that ROUTE_SELECT names; a function that cannot see the page is refused, and the
previous route stays. UNIT and DETAIL of that record are not stated. DESIGN CHOICE: log entry 62. -/
def execRouteWrite (who : Requester) (value : BitVec 32) (s : State) : Host.Outcome State Fault Refusal :=
  .next (writeAccess who hostPage 0x07C (fun s =>
    let ix := s.reg hostPage Rg.hostRouteSelectPage
    let fn := value.toNat % 256
    let vec := value.toNat / 256 % 4096
    match pageAt (ix * 4096) with
    | none => (s.error hostPage 0x0125 (s.free 15).toNat (s.free 32 1).toNat).usedFree 2
    | some p =>
      if pageLocked s p then s
      else if !functionSees s fn p then (s.error hostPage 0x0125 (s.free 15).toNat (s.free 32 1).toNat).usedFree 2
      else if value.getLsbD 31 then
        { s with host := { s.host with
          routes := tabSet ix ⟨fn, vec⟩ s.host.routes, routesOf := tabSet (ix * 256 + fn) vec s.host.routesOf } }
      else { s with host := { s.host with routes := tabDel ix s.host.routes, routesOf := tabDel (ix * 256 + fn) s.host.routesOf } }) s)

/-- ATS_INVALIDATE (R411): accesses that used the translation are complete between two commands, so the request completes. -/
def execAtsInvalidate (fn : Fin 256) (_pasid : Option (BitVec 20)) (_addr _size : BitVec 64) (s : State) :
    Host.Outcome State Fault Refusal :=
  .next (if s.alive ∧ s.host.linkUp then (s.addReg hostPage Rg.hostAtcInvalidationsCount 1).emit (.atsInvalidated fn) else s)

/-- IDE_KM (R412): a key is programmed for a stream and taken by the next set-go, so no TLP is lost or repeated. DEDUCED: log entry 103. -/
def execIdeKmRequest (stream : Fin 9) (msg : IdeKmMsg) (s : State) : Host.Outcome State Fault Refusal :=
  let k := tabGet {} stream.val s.host.ide
  let put := fun (x : IdeKeys) => { s with host := { s.host with ide := tabPut {} stream.val x s.host.ide } }
  .next (if !s.firmware then s
    else
      match msg with
      | .keyProg key => (put { k with next := some key }).emit (.security 0 true)
      | .setGo =>
        if k.next.isSome then (put { active := k.next, next := none }).emit (.security 0 true) else s.emit (.security 0 false)
      | .setStop => (put {}).emit (.security 0 true))

/-- FORWARDED_ENTRY_ARRIVE (R395, R416): an entry that a lead forwarded acts here as a command of the remote SQ. -/
def execForwardedEntryArrive (remoteSq : Fin 1048576) (entry : BitVec 512) (lead : BitVec 12) (s : State) :
    Host.Outcome State Fault Refusal :=
  let part := sqPart s remoteSq.val
  .next (if s.working then
      dispatchCmd
        { sq := .num remoteSq, cq := .admin, id := entry.extractLsb' 16 16, part := part.getD 0, entry := entry, sqHead := 0
          arrival := s.now, lead := some lead.toNat } part s
    else s)

/-- The forwarded command of an SQ with a CMD_ID. -/
def forwardedOf (s : State) (sq : Nat) (id : BitVec 16) : Option Forwarded := s.host.forwarded.find? fun f => f.sq == sq && f.id == id

/-- End a forwarded command with a status. -/
def endForwarded (f : Forwarded) (status : Nat) (result : BitVec 128) (s : State) : State :=
  formCompletion f.cq ⟨result, f.sq, f.id.toNat, status, f.sqHead, false, false⟩
    { s with host := { s.host with forwarded := s.host.forwarded.erase f } }

/-- MEMBER_COMPLETION_ARRIVE (R416, R417): a member's completion reaches the lead; a late one is discarded. -/
def execMemberCompletionArrive (sq : Fin 1048576) (id : BitVec 16) (status : BitVec 16) (result : BitVec 128) (s : State) :
    Host.Outcome State Fault Refusal :=
  .next (match forwardedOf s sq.val id with
    | some f => if s.alive then endForwarded f status.toNat result s else s
    | none => s)

/-- FORWARD_TIMEOUT (R417): 10 ms of device time have passed since the command was forwarded. -/
def execForwardTimeout (sq : Fin 1048576) (id : BitVec 16) (s : State) : Host.Outcome State Fault Refusal :=
  .next (match forwardedOf s sq.val id with
    | some f => if s.alive ∧ s.now ≥ f.at_ + 10000000 then endForwarded f 0x0301 0 s else s
    | none => s)

/-- What a register access to a member meets first (R416, R417). -/
def memberFault (s : State) (c : Cmd) (reachable : Bool) : Option Nat :=
  if !memberKnown s (c.field 0x18 0 6) then some 0x0302
  else if !memberUp s (c.field 0x18 0 6) || !reachable then some 0x0301
  else none

/-- MEMBER_READ (R418): value is what the member's register holds. -/
def execMemberRead (q : CmdRef) (value : BitVec 32) (reachable : Bool) (s : State) : Host.Outcome State Fault Refusal :=
  .next (startCmd q [0x70] false (fun c s =>
    match memberFault s c reachable with
    | some e => complete c e 0 s
    | none => complete c 0 (value.setWidth 128) (s.emit (.memberAccess (c.field 0x18 0 6) (c.field 0x1C 0 32) none))) s)

/-- MEMBER_WRITE (R418). -/
def execMemberWrite (q : CmdRef) (reachable : Bool) (s : State) : Host.Outcome State Fault Refusal :=
  .next (startCmd q [0x71] false (fun c s =>
    match memberFault s c reachable with
    | some e => complete c e 0 s
    | none =>
      complete c 0 0
        (s.emit (.memberAccess (c.field 0x18 0 6) (c.field 0x1C 0 32) (some (BitVec.ofNat 32 (c.field 0x20 0 32)))))) s)

/-- MEMBER_EVENT (R418): an interrupt condition on a member's page reaches the lead. -/
def execMemberEvent (m : Fin 64) (s : State) : Host.Outcome State Fault Refusal :=
  .next (if s.alive then
      (s.setReg hostPage Rg.hostMemberEventsMembers (s.reg hostPage Rg.hostMemberEventsMembers ||| 2 ^ m.val)).raise hostPage 2
    else s)

end Sys2Proof.Machine
end

