-- ==== Sys2Proof/Machine/Objects.lean ====
section
/-! DEFINITION. The commands of "Memory tiers": line accesses (R237, R631), bulk ports and buffer ways (R245, R251), objects and
their moves (R253 to R256), heat placement (R257 to R259), sluice lists (R265 to R270), re-sourcing (R272 to R274), LOAD_OBJECT and
FILL (R276, R277). -/

namespace Sys2Proof.Machine

/-- MEMORY_READ (R237, R250): a 64-byte read with its cache hint; a poisoned line is delivered as such. A read that fails translation
delivers nothing: its engine's own command tells what follows (R242). DESIGN CHOICE: log entry 39. -/
def execMemoryRead (part : Fin 64) (addr : BitVec 64) (hint : CacheHint) (_agent : MemAgent) (s : State) :
    Host.Outcome State Fault Refusal :=
  .next (if !s.working then s
    else
      match s.partRead part.val addr.toNat 64 with
      | .error _ _ => s.faultTouch part.val addr.toNat 64 false
      | .held _ => s.partTouch part.val addr.toNat 64 hint
      | .data b => (s.partTouch part.val addr.toNat 64 hint).emit (.readData (b.mapM id)))

/-- MEMORY_WRITE (R631). DESIGN CHOICE: log entry 39. -/
def execMemoryWrite (part : Fin 64) (addr : BitVec 64) (data : List Byte) (_agent : MemAgent) (s : State) :
    Host.Outcome State Fault Refusal :=
  .next (if s.working then
      match s.partWriteCheck part.val addr.toNat data.length with
      | .done => s.partStore part.val addr.toNat data
      | .error _ _ => s.faultTouch part.val addr.toNat data.length true
      | .waits => s
    else s)

/-- A bulk port leaves link-up (R245): LINK_DOWN sets for a port of the set, whose units are unreachable until the next reset. DEDUCED: log
entry 18. -/
def bulkDown (p : Nat) (s : State) : State :=
  let g := bulkPage p
  if !s.flag g Rg.bulkPortStatusLinkUp then s
  else
    let t := s.setReg g Rg.bulkPortStatusLinkUp 0 |>.setReg g Rg.bulkPortStatusWidth 0 |>.setReg g Rg.bulkPortStatusSpeed 0
    if s.flag g Rg.bulkPortStatusInSet then
      { t with tier := { t.tier with lostPorts := t.tier.lostPorts.filter (· != p) ++ [p] } }.raise g 1
    else t

/-- BULK_LINK_DOWN (R245). DEDUCED: log entry 18. -/
def execBulkLinkDown (p : Fin 8) (s : State) : Host.Outcome State Fault Refusal := .next (if s.alive then bulkDown p s else s)

/-- BULK_LINK_UP (R245, R246, R248): the port trains again; the set stays as it is until the next reset. DEDUCED: log entry 18. -/
def execBulkLinkUp (p : Fin 8) (width speed : Fin 4) (s : State) : Host.Outcome State Fault Refusal :=
  let g := bulkPage p
  .next (if s.alive ∧ bulkLinkOk width speed then
      s.setReg g Rg.bulkPortStatusLinkUp 1 |>.setReg g Rg.bulkPortStatusWidth width |>.setReg g Rg.bulkPortStatusSpeed speed
    else s)

/-- Forget what a range of keys of a memory held. -/
def forgetRange (r : Region) (lo n : Nat) (m : Memory) : Memory :=
  { cells := m.cells.filter fun e => !(decide (lo ≤ e.1) && decide (e.1 < lo + n))
    flips := m.flips.filter fun e => !(decide (lo / cwBytes r ≤ e.1) && decide (e.1 < (lo + n) / cwBytes r)) }

/-- Frames of a way of a die's buffer space: four of 2 MiB from m × 64 + w × 4 on (R249). -/
def wayFrames (m w : Nat) : List Nat := (List.range 4).map fun i => m * 64 + w * 4 + i

/-- Frames of a tier that are in use: mapped, the target of a move, or, in HBM, with tables of a partition (R240). -/
def usedFrames (s : State) (tier : Nat) : List Nat :=
  ((s.tier.pages.filter fun e => e.2.tier == tier).map fun e => e.2.frame) ++
    ((s.tier.moves.filter fun e => e.2.1.tier == tier).map fun e => e.2.1.frame) ++
    (if tier = 0 then (s.tier.tables.map fun e => e.2 / 64).eraseDups else [])

/-- BUFFER_WAYS (R249, R251): a way with a mapped frame cannot stop being a buffer way; a way that becomes one or stops being one holds
nothing, no cached line either. DESIGN CHOICE: log entry 28. -/
def execBufferWaysWrite (who : Requester) (m : Fin 4) (value : BitVec 32) (s : State) : Host.Outcome State Fault Refusal :=
  let g := msidPage m
  .next (writeAccess who g 0x040 (fun s =>
    let old := s.reg g Rg.msidBufferWaysWays
    let new := value.toNat % 65536
    let gone := (List.range 16).filter fun w => old.testBit w && !new.testBit w
    match gone.find? fun w => (wayFrames m w).any (usedFrames s 2).contains with
    | some w => s.error g 0x0231 0 w
    | none =>
      let changed := (List.range 16).filter fun w => old.testBit w != new.testBit w
      let t := s.setReg g Rg.msidBufferWaysWays new
      { t with
        tier := { t.tier with cache := t.tier.cache.filter fun e => !(e.1 / 2 ^ 21 == m.val && new.testBit (e.1 % 16)) }
        mem := { t.mem with
        buf := changed.foldl (fun b w => forgetRange .buf (bufKey m (w * 2 ^ 23)) (2 ^ 23) b) t.mem.buf } }) s)

/-- Frames of a tier (R243, R244, R249): HBM's 368,640, the set's usable capacity, the buffer ways. DEDUCED: log entry 34. -/
def tierFrames (s : State) (tier : Nat) : List (Nat × Nat) :=
  match tier with
  | 0 => [(0, 368640)]
  | 1 => [(0, (bulkSet s).length * s.tier.bulkFrames)]
  | 2 =>
    ((List.range 4).map fun m => ((List.range 16).filter fun w => (s.reg (msidPage m) Rg.msidBufferWaysWays).testBit w).map fun w =>
      (m * 64 + w * 4, 4)).flatten
  | _ => []

/-- The n lowest free frames of a tier; fewer where there are not so many. DESIGN CHOICE: log entry 29. -/
def freeFrames (s : State) (tier n : Nat) : List Nat :=
  let used := usedFrames s tier
  ((tierFrames s tier).map fun r =>
    ((List.range (min r.2 (n + used.length))).map (· + r.1)).filter fun f => !used.contains f).flatten.take n

/-- The tier and frame of a cached line (R243, R244). -/
def lineFrame (s : State) (line : Nat) : Nat × Nat :=
  if line < 2 ^ 41 then (0, line * 64 / pageBytes)
  else
    let set := bulkSet s
    (1, (line % 2 ^ 38 * 64 / 4096 * set.length + set.idxOf (line / 2 ^ 38 - 8)) / 512)

/-- A frame that is given out holds no valid words in HBM and in a buffer way (R255), and no line of it is cached. -/
def clearFrame (tier f : Nat) (s : State) : State :=
  let s := { s with tier := { s.tier with cache := s.tier.cache.filter fun e => lineFrame s e.2.line != (tier, f) } }
  match tier with
  | 0 => { s with mem := { s.mem with hbm := forgetRange .hbm (f * pageBytes) pageBytes s.mem.hbm } }
  | 2 => { s with mem := { s.mem with buf := forgetRange .buf (f * pageBytes) pageBytes s.mem.buf } }
  | _ => s

/-- Page numbers that a partition maps. -/
def partPages (s : State) (k : Nat) : Table PageEntry := s.tier.pages.filter fun e => e.1 / 2 ^ 25 == k

/-- Level-2 tables of a list of page numbers: one for each 8 GiB (R238). -/
def levelTwo (pages : List Nat) : Nat := (pages.map (· / 4096)).eraseDups.length

/-- Bytes of the structures held for a partition, with further pages mapped (R240, R351). DESIGN CHOICE: log entry 29. -/
def structBytes (s : State) (k : Nat) (more : List Nat) : Nat :=
  let l2 := levelTwo ((partPages s k).map (fun e => e.1 % 2 ^ 25) ++ more)
  let p := partPage k
  (if s.partOn k then 65536 + 256 * s.reg p Rg.partStreamCountCount + 8 * s.reg p Rg.partKvCountCount else 0) + 32768 * l2

/-- Pages of a partition in a tier, with those that a move takes. DESIGN CHOICE: log entry 29. -/
def pagesIn (s : State) (k tier : Nat) : Nat :=
  ((partPages s k).filter fun e => e.2.tier == tier).length +
    (match tabFind k s.tier.moves with
     | some (m, _) => if m.tier = tier then 1 else 0
     | none => 0)

/-- The parts of a partition's tables that it needs now (R240, R351): the level-1 table, a level-2 table for each 8 GiB with a page, and the
records of its stream and KV ranges. -/
def structUnits (s : State) (k : Nat) : List Nat :=
  let l2 := ((partPages s k).map fun e => 2 + e.1 % 2 ^ 25 / 4096).eraseDups
  if s.partOn k then
    [0, 1] ++ l2 ++ (List.range ((s.reg (partPage k) Rg.partStreamCountCount + 127) / 128)).map (· + streamPart) ++
      (List.range ((s.reg (partPage k) Rg.partKvCountCount + 4095) / 4096)).map (· + kvPart)
  else l2

/-- Give the parts of a partition's tables their places in HBM: those that it no longer needs go, and the others fill whole frames of its
own, 64 to a frame, so that no frame is held for want of order. Level-1 entries of tables that come or go are written. DESIGN CHOICE: log
entry 29. -/
def placeStructs (k : Nat) (s : State) : State :=
  let need := structUnits s k
  let mine := s.tier.tables.filter fun e => e.1 / 65536 == k
  let was := mine.filter fun e => need.contains (e.1 % 65536)
  if was.length = mine.length ∧ was.length = need.length then s
  else
    let frames := (mine.map fun e => e.2 / 64).eraseDups
    let fresh := freeFrames s 0 ((need.length + 63) / 64 - frames.length)
    let slots := ((frames ++ fresh).map fun f => (List.range 64).map (f * 64 + ·)).flatten.take need.length
    let stay := was.filter fun e => slots.contains e.2
    let move := (need.filter fun u => !stay.any fun e => e.1 % 65536 == u).zip (slots.filter fun t => !stay.any fun e => e.2 == t)
    let t := s.each fresh (clearFrame 0)
    let t := { t with
      tier := { t.tier with
        tables := (stay ++ move.map fun (e : Nat × Nat) => (k * 65536 + e.1, e.2)).foldl (fun l (e : Nat × Nat) => tabSet e.1 e.2 l)
          (t.tier.tables.filter fun e => e.1 / 65536 != k) }
      mem := { t.mem with hbm := { t.mem.hbm with
        flips := t.mem.hbm.flips.filter fun e => !move.any fun v => v.2 == e.1 / 512 } } }
    let changed := move.map (·.1) ++ (mine.map fun e => e.1 % 65536).filter fun u => !need.contains u
    t.each (changed.filter fun u => decide (2 ≤ u ∧ u < streamPart)) fun u => structWrite k ((u - 2) / 4096) ((u - 2) % 4096)

/-- HBM_USED and BULK_USED of a partition (R351), and the places of its tables. DESIGN CHOICE: log entry 29. -/
def recount (k : Nat) (s : State) : State :=
  (placeStructs k s).setReg (partPage k) Rg.partHbmUsedUnits (pagesIn s k 0 + (structBytes s k [] + pageBytes - 1) / pageBytes)
    |>.setReg (partPage k) Rg.partBulkUsedUnits (pagesIn s k 1)

/-- Whether n more pages of a tier, at these page numbers, pass the partition's allotment (R254, R351). Buffer space has none: only the
buffer ways bound it. DEDUCED: log entry 34. -/
def allotExceeded (s : State) (k tier n : Nat) (more : List Nat) : Bool :=
  let hbm := (pagesIn s k 0 + (if tier = 0 then n else 0)) * pageBytes + structBytes s k more
  let on := s.partOn k
  !on || decide (hbm > s.reg (partPage k) Rg.partHbmAllotUnits * pageBytes) ||
    (tier == 1 && decide (pagesIn s k 1 + n > s.reg (partPage k) Rg.partBulkAllotUnits)) ||
    decide ((freeFrames s tier n).length < n)

/-- An object record of 64 bytes (R253). -/
def objectRec (d : BitVec 512) : ObjectRec :=
  { hint := dField d 0 16 4, tier := dField d 0 20 2, pinned := dField d 0 22 1 == 1, compressed := dField d 0 23 1 == 1
    writable := dField d 0 24 1 == 1, replica := dField d 0 25 2, base := dField d 8 0 64, size := dField d 0x10 0 64
    indexAddr := dField d 0x18 0 64, replicaAddr := BitVec.ofNat 64 (dField d 0x20 0 64), pasid := BitVec.ofNat 20 (dField d 0x28 0 20)
    elemTable := dField d 0x2C 0 16, scaleTable := dField d 0x2C 16 16, blockBytes := dField d 0x30 0 8 }

/-- Pages of an object's range: a compressed object has a second range, with its scale bytes (R261). -/
def objectPages (o : ObjectRec) : Nat :=
  o.size / pageBytes + (if o.compressed then (o.size / max 1 o.blockBytes + pageBytes - 1) / pageBytes else 0)

/-- What R254 forbids for an object in a tier, whatever its number and range. -/
def tierForbidden (s : State) (k : Nat) (o : ObjectRec) : Bool :=
  let kind := s.reg (partPage k) Rg.partConfigKind
  (o.compressed && !(o.tier == 1 && o.hint == 0 && !o.writable)) ||
    ((o.hint == 3 || o.hint == 4) && o.tier != 0) ||
    ((o.hint == 4 || o.replica != 0) && !o.pinned) ||
    (kind == 2 && !(o.tier == 0 && o.pinned)) ||
    (o.replica == 1 && !s.flag raspPage Rg.raspTwinMapValid k) ||
    (o.replica == 1 && kind == 1 && o.writable)

/-- A declaration's record is wrong (R254): a reserved value, a misaligned field, a range beyond the address space, or what the rule
forbids. DESIGN CHOICE: log entry 35. -/
def objectWrong (s : State) (k : Nat) (d : BitVec 512) (o : ObjectRec) (id : Nat) : Bool :=
  o.hint > 5 || o.tier == 3 || o.replica == 3 || dField d 0 27 5 != 0 || dField d 4 0 32 != 0 || dField d 0x28 20 12 != 0 ||
    dField d 0x31 0 120 != 0 || o.base % pageBytes != 0 || o.size % pageBytes != 0 ||
    decide (o.base + objectPages o * pageBytes > 2 ^ 46) || (o.compressed && !blockSizes.contains o.blockBytes) ||
    tierForbidden s k o || (tabFind (objKey k id) s.tier.objects).isSome

/-- Map an object's pages to frames. -/
def mapPages (k id : Nat) (o : ObjectRec) (frames : List Nat) (s : State) : State :=
  s.each ((List.range frames.length).zip frames) fun e t =>
    let t := clearFrame o.tier e.2 t
    { t with tier := { t.tier with
      pages := tabSet (pageKey k (o.base / pageBytes + e.1))
        { writable := o.writable, tier := o.tier, pinned := o.pinned, compressed := o.compressed, frame := e.2, object := id
          index := e.1 } t.tier.pages } }

/-- Declare an object: its status and, with SUCCESS, the state that maps it. DESIGN CHOICE: log entry 35. -/
def declareObject (k : Nat) (d : BitVec 512) (s : State) : Nat × State :=
  let o := objectRec d
  let id := dField d 0 0 16
  let n := objectPages o
  let pages := (List.range n).map (· + o.base / pageBytes)
  if objectWrong s k d o id then (0x0201, s)
  else if allotExceeded s k o.tier n pages then (0x0202, s)
  else if pages.any fun p => (tabFind (pageKey k p) s.tier.pages).isSome then (0x0203, s)
  else
    let t := mapPages k id o (freeFrames s o.tier n) s
    (0, (recount k { t with tier := { t.tier with objects := tabSet (objKey k id) o t.tier.objects } }).each pages (writePageEntry k))

/-- OBJECT_DECLARE (R253 to R255): its data is the object record. DESIGN CHOICE: log entry 35. -/
def execObjectDeclare (q : CmdRef) (data : HostData) (s : State) : Host.Outcome State Fault Refusal :=
  .next (startCmd q [0x10] true (fun c s =>
    if cmdLen c < 64 then complete c 0x0201 0 s
    else withData c data 64 (fun b s =>
      let r := declareObject c.part (BitVec.ofNat 512 (leNat b)) s
      complete c r.1 0 r.2) s) s)

/-- A range of partition addresses meets an object's pages. -/
def meetsObject (o : ObjectRec) (a n : Nat) : Bool := decide (a < o.base + objectPages o * pageBytes) && decide (o.base < a + n)

/-- The header of a sluice list (R265). -/
structure SluiceHead where
  entries : Nat
  slots : Nat
  consumers : Nat
  gateBase : Nat
  freeBase : Nat
  pace : Nat
  slotBase : Nat
  slotBytes : Nat
  deriving DecidableEq, Repr

/-- Read the header; none where it cannot be read. -/
def sluiceHead (s : State) (k list : Nat) : Option SluiceHead :=
  (s.partBytesAll k list 64).map fun b =>
    let n := fun off len => leNat ((b.drop off).take len)
    ⟨n 0 2, n 2 1, n 3 1, n 4 2, n 6 2, n 8 2, n 0x10 8, n 0x18 8⟩

/-- An entry of a sluice list: kind, source and length (R265). -/
def sluiceEntry (s : State) (k list i : Nat) : Option (Nat × Nat × Nat) :=
  (s.partBytesAll k (list + 64 + 32 * i) 32).map fun b =>
    (((b.headD 0).toNat) % 4, leNat ((b.drop 8).take 8), leNat ((b.drop 0x10).take 8))

/-- A running sluice list names an object (R256): it lies in it, or an entry or slot does. -/
def sluiceNames (s : State) (k : Nat) (o : ObjectRec) : Bool :=
  s.tier.sluices.any fun e =>
    e.2.part == k &&
      match sluiceHead s k e.2.list with
      | none => meetsObject o e.2.list 64
      | some h =>
        meetsObject o e.2.list (64 + 32 * h.entries) ||
          (h.slots != 0 && meetsObject o h.slotBase (h.slots * h.slotBytes)) ||
          (List.range h.entries).any fun i =>
            match sluiceEntry s k e.2.list i with
            | some (_, src, len) => meetsObject o src len
            | none => false

/-- A running FILL's target has a part of an object (R256). -/
def fillNames (s : State) (k : Nat) (o : ObjectRec) : Bool :=
  s.host.longs.any fun l => cmdOp l.cmd == 0x14 && l.cmd.part == k && l.kind == 0 && meetsObject o l.start l.total

/-- Unmap an object: its pages go, its frames are free, and its units with them. -/
def dropObject (k id : Nat) (o : ObjectRec) (s : State) : State :=
  let lo := unitKey k o.base
  let gone := ((partPages s k).filter fun e => e.2.object == id).map fun e => e.1 % 2 ^ 25
  recount k (State.each (l := gone) (f := writePageEntry k) { s with tier := { s.tier with
    pages := s.tier.pages.filter fun e => !(e.1 / 2 ^ 25 == k && e.2.object == id)
    objects := tabDel (objKey k id) s.tier.objects
    units := s.tier.units.filter fun e => !(decide (lo ≤ e.1) && decide (e.1 < lo + objectPages o * 512)) } })

/-- A page of the object is on its way (R256). -/
def movingObject (s : State) (k id : Nat) : Bool :=
  match tabFind k s.tier.moves with
  | some (m, _) => m.object == id
  | none => false

/-- OBJECT_RELEASE (R254, R256). A release of an object whose pages are being moved waits for the move. DEDUCED: log entry 36. -/
def execObjectRelease (q : CmdRef) (object : BitVec 16) (s : State) : Host.Outcome State Fault Refusal :=
  .next (startCmd q [0x11] true (fun c s =>
    let id := object.toNat
    match tabFind (objKey c.part id) s.tier.objects with
    | none => complete c 0x0204 0 s
    | some o =>
      if sluiceNames s c.part o ∨ fillNames s c.part o then complete c 0x0205 0 s
      else if movingObject s c.part id then s
      else complete c 0 0 (dropObject c.part id o s)) s)

/-- Start the copy of one page: its entry is MIGRATING and a frame of the target is taken (R256). DEDUCED: log entry 36. -/
def startMove (k page tier : Nat) (heat : Bool) (cmd : Option (Nat × Nat)) (s : State) : State :=
  match tabFind (pageKey k page) s.tier.pages, freeFrames s tier 1 with
  | some e, f :: _ =>
    let t := clearFrame tier f s
    recount k (writePageEntry k page { t with tier := { t.tier with
      pages := tabSet (pageKey k page) { e with migrating := true } t.tier.pages
      moves := tabSet k (⟨e.object, tier, heat, page, f⟩, cmd) t.tier.moves } })
  | _, _ => s

/-- The next page of an object that is not yet in a tier. DEDUCED: log entry 36. -/
def nextToMove (s : State) (k id tier : Nat) : Option Nat :=
  ((partPages s k).find? fun e => e.2.object == id && e.2.tier != tier).map fun e => e.1 % 2 ^ 25

/-- OBJECT_MOVE (R254, R256): checked as a declaration in the target tier; it then copies page by page. A partition has one page on
its way at a time, and a move waits for that. -/
def execObjectMove (q : CmdRef) (object : BitVec 16) (tier : Fin 4) (s : State) : Host.Outcome State Fault Refusal :=
  .next (startCmd q [0x12] true (fun c s =>
    let k := c.part
    let id := object.toNat
    match tabFind (objKey k id) s.tier.objects with
    | none => complete c 0x0204 0 s
    | some o =>
      if sluiceNames s k o then complete c 0x0205 0 s
      else if tier.val = 3 ∨ tierForbidden s k { o with tier := tier.val } then complete c 0x0201 0 s
      else if tier.val = o.tier then complete c 0 0 s
      else
        let n := ((partPages s k).filter fun e => e.2.object == id && e.2.tier != tier.val).length
        if allotExceeded s k tier.val n [] then complete c 0x0202 0 s
        else if (tabFind k s.tier.moves).isSome then s
        else
          match nextToMove s k id tier.val with
          | some page => startMove k page tier.val false (some (sqKey c.sq, c.id.toNat)) (markStarted c s)
          | none =>
            complete c 0 0
              { s with tier := { s.tier with objects := tabSet (objKey k id) { o with tier := tier.val } s.tier.objects } }) s)

/-- Copy a page from where it lies to a frame of a tier, line by line: a line that cannot be read is copied as such, and a bulk port counts
the payload that it returns (R248). -/
def copyPage (k page tier frame : Nat) (e : PageEntry) (s : State) : State :=
  let new := { e with tier := tier, frame := frame }
  s.each (List.range 32768) fun i t =>
    let a := page * pageBytes + 64 * i
    match placeOf t e a, placeOf t new a with
    | .here r key, .here r' key' =>
      let u := (t.readEffect r key 64).when (r == .bulk) fun t => t.addReg (bulkPage (key / 2 ^ 44)) Rg.bulkReadBytesBytes 64
      (match readAll r (t.memory r) key 64 with
       | some b => u.store r' key' b
       | none => { u with mem := setRegion r' (spoilBytes r' key' 64 (u.memory r')) u.mem })
    | .unreachable p, .here r' key' =>
      let u := touchLost p t
      { u with mem := setRegion r' (spoilBytes r' key' 64 (u.memory r')) u.mem }
    | _, .unreachable p => t.countErrors (bulkPage p) 1
    | _, _ => t

/-- A page's copy is complete: its entry switches as one write (R241, R256). -/
def finishPage (k : Nat) (m : PageMove) (s : State) : State :=
  match tabFind (pageKey k m.page) s.tier.pages with
  | none => { s with tier := { s.tier with moves := tabDel k s.tier.moves } }
  | some e =>
    let t := copyPage k m.page m.tier m.frame e s
    let e := (tabFind (pageKey k m.page) t.tier.pages).getD e
    recount k (writePageEntry k m.page { t with tier := { t.tier with
      pages := tabSet (pageKey k m.page) { e with migrating := false, tier := m.tier, frame := m.frame } t.tier.pages
      moves := tabDel k t.tier.moves } })

/-- The addresses of a page's lines that keep its copy waiting: a unit of an object with a replica that an uncorrectable error meets is
re-sourced first (R272). -/
def copyHeld (s : State) (k page : Nat) : List (Nat × Nat) :=
  if (tabFind (pageKey k page) s.tier.pages).any fun e => (tabFind (objKey k e.object) s.tier.objects).any fun o => o.replica != 0 then
    (linesOf (page * pageBytes) pageBytes).filter (unitHeld s k)
  else []

/-- The command of a move that is complete. -/
def moveComplete (cmd : Option (Nat × Nat)) (s : State) : State :=
  match cmd with
  | none => s
  | some (sq, id) =>
    match s.host.cmds.find? fun c => sqKey c.sq == sq && c.id.toNat == id && c.started && cmdOp c == 0x12 with
    | some c => complete c 0 0 s
    | none => s

/-- OBJECT_PAGE_MOVED (R256, R272): the copy of the page on its way ends, when no unit of it is to be re-sourced; the next page of the object
follows, or the move is complete. -/
def execObjectPageMoved (part : Fin 64) (s : State) : Host.Outcome State Fault Refusal :=
  let k := part.val
  .next (match tabFind k s.tier.moves with
    | some (m, cmd) =>
      if s.working ∧ !m.heat then
        match copyHeld s k m.page with
        | l :: ls => s.each (l :: ls) (touchPart .allocate k)
        | [] =>
        let t := finishPage k m s
        match nextToMove t k m.object m.tier with
        | some page => startMove k page m.tier false cmd t
        | none =>
          moveComplete cmd { t with tier := { t.tier with
            objects := match tabFind (objKey k m.object) t.tier.objects with
              | some o => tabSet (objKey k m.object) { o with tier := m.tier } t.tier.objects
              | none => t.tier.objects } }
      else s
    | none => s)

/-- The length of a partition's heat epoch in ns (R271): smaller values of EPOCH act as 100. -/
def heatEpochNs (s : State) (k : Nat) : Nat := 1000 * max 100 (s.reg (partPage k) Rg.partHeatControlEpoch)

/-- HEAT_EPOCH (R258): at the end of the epoch in progress every HEAT of the covered pages is halved. -/
def execHeatEpoch (part : Fin 64) (s : State) : Host.Outcome State Fault Refusal :=
  let k := part.val
  .next (if s.working ∧ heatRuns s k ∧ s.now ≥ (tabGet {} k s.parts).heatAt + heatEpochNs s k then
      { s with
        parts := tabMod {} k (fun x => { x with heatAt := x.heatAt + heatEpochNs s k }) s.parts
        tier := { s.tier with
          pages := s.tier.pages.map fun e =>
            if e.1 / 2 ^ 25 = k ∧ !e.2.pinned ∧ !e.2.compressed then (e.1, { e.2 with heat := e.2.heat / 2 }) else e } }
    else s)

/-- A page's object may lie in the bulk tier (R254, R256). -/
def mayLeaveHbm (s : State) (k : Nat) (e : PageEntry) : Bool :=
  match tabFind (objKey k e.object) s.tier.objects with
  | some o => !tierForbidden s k { o with tier := 1 }
  | none => true

/-- The covered pages of a partition in a tier (R257). -/
def coveredPages (s : State) (k tier : Nat) : Table PageEntry :=
  (partPages s k).filter fun e => e.2.tier == tier && !e.2.pinned && !e.2.compressed

/-- The page of a list that comes first by an order of heats; of equal ones the lowest. DEDUCED: log entry 36. -/
def pickPage (before : Nat → Nat → Bool) (l : Table PageEntry) : Option (Nat × PageEntry) :=
  match l with
  | [] => none
  | e :: es => some (es.foldl (fun b x => if before x.2.heat b.2.heat then x else b) e)

/-- HEAT_MOVE (R258): the hottest candidate goes to HBM where the allotment has a frame; otherwise the coldest covered page of HBM goes to
the bulk tier first, if its HEAT is below half the candidate's. A page that R254 keeps out of the bulk tier stays (R256). DEDUCED: log entry
36. -/
def execHeatMove (part : Fin 64) (s : State) : Host.Outcome State Fault Refusal :=
  let k := part.val
  .next (if s.working ∧ heatRuns s k ∧ (tabFind k s.tier.moves).isNone then
      let least := 16 * s.reg (partPage k) Rg.partHeatControlThreshold
      match pickPage (fun a b => decide (a > b)) ((coveredPages s k 1).filter fun e => decide (e.2.heat ≥ least)) with
      | none => s
      | some (ck, c) =>
        if !allotExceeded s k 0 1 [] then startMove k (ck % 2 ^ 25) 0 true none s
        else
          match pickPage (fun a b => decide (a < b)) ((coveredPages s k 0).filter fun e => mayLeaveHbm s k e.2) with
          | none => s
          | some (vk, v) =>
            if 2 * v.heat < c.heat ∧ !allotExceeded s k 1 1 [] then startMove k (vk % 2 ^ 25) 1 true none s else s
    else s)

/-- HEAT_MOVE_DONE (R258, R259). -/
def execHeatMoveDone (part : Fin 64) (s : State) : Host.Outcome State Fault Refusal :=
  let k := part.val
  .next (match tabFind k s.tier.moves with
    | some (m, _) =>
      if s.working ∧ m.heat = true then (finishPage k m s).bump (partPage k) Rg.partHeatMovesCount else s
    | none => s)

/-- The lowest free sluice engine (R266). -/
def freeEngine (s : State) : Option Nat := (List.range 64).find? fun e => (tabFind e s.tier.sluices).isNone

/-- SLUICE_START (R266, R269). A list whose header breaks R265 does not start. DEDUCED: log entry 37. -/
def execSluiceStart (q : CmdRef) (list : BitVec 64) (s : State) : Host.Outcome State Fault Refusal :=
  .next (startCmd q [0x15] true (fun c s =>
    let k := c.part
    if s.reg (partPage k) Rg.partConfigKind = 2 then complete c 0x0201 0 s
    else if (s.tier.sluices.filter fun e => e.2.part == k).length ≥ 4 then complete c 0x0208 0 s
    else
      match freeEngine s, sluiceHead s k list.toNat with
      | none, _ => complete c 0x0209 0 s
      | some _, none => complete c 0x0201 0 (s.partTouch k list.toNat 64)
      | some e, some h =>
        let t := s.partTouch k list.toNat 64
        if h.entries = 0 ∨ h.slots = 1 ∨ h.slots > 64 ∨ h.consumers = 0 ∨ h.slotBase % 4096 ≠ 0 ∨ h.slotBytes % 4096 ≠ 0 then
          complete c 0x0201 0 t
        else
          complete c 0 0 { t with tier := { t.tier with sluices := tabSet e { part := k, list := list.toNat } t.tier.sluices } }) s)

/-- Write a range whatever its entries allow: for the device's own writes into a slot or an object. -/
def ownWrite (k a : Nat) (b : List Byte) (s : State) : State :=
  s.each (linesOf a b.length) fun l t =>
    match t.pageOf k l.1 with
    | none => t
    | some e =>
      match placeOf t { e with compressed := false } l.1 with
      | .here r key => t.storeHome k l.1 r key ((b.drop (l.1 - a)).take l.2)
      | .unreachable p => t.countErrors (bulkPage p) 1
      | _ => t

/-- The slot that the fill in progress of an engine writes. -/
def fillSlot (h : SluiceHead) (r : SluiceRun) : Nat := h.slotBase + r.fills % max 1 h.slots * h.slotBytes

/-- Sluice lists end: their engines are free and leave the queues in which they wait (R164). -/
def dropSluices (p : Nat → SluiceRun → Bool) (s : State) : State :=
  { s with
    tier := { s.tier with sluices := s.tier.sluices.filter fun e => !p e.1 e.2 }
    sems := s.sems.map fun m => (m.1, { m.2 with waiters := m.2.waiters.filter fun w => match w with
      | .sluice e => !((tabFind e s.tier.sluices).any (p e))
      | .agent _ => true }) }

/-- SLUICE_STOP (R267): the list stops and its engine is free; a fill in progress is abandoned, so that any part of its slot may have been
written, and its gate is not released. DEDUCED: log entry 37. -/
def execSluiceStop (q : CmdRef) (list : BitVec 64) (s : State) : Host.Outcome State Fault Refusal :=
  .next (startCmd q [0x16] true (fun c s =>
    let k := c.part
    match s.tier.sluices.find? fun e => e.2.part == k && e.2.list == list.toNat with
    | none => complete c 0x010A 0 s
    | some (e, r) =>
      let t :=
        match r.filling, sluiceHead s k r.list, sluiceEntry s k r.list r.entry with
        | true, some h, some (_, src, len) =>
          s.each (List.range (len / 4096)) fun i t =>
            let u := t.usedFree
            if t.free 1 = 1 then
              match t.partBytesAll k (src + 4096 * i) 4096 with
              | some b => u.partWrite k (fillSlot h r + 4096 * i) b
              | none => u
            else u
        | _, _, _ => s
      complete c 0 0 (dropSluices (fun n _ => n == e) t)) s)

/-- The semaphore of a partition's range that an engine names. -/
def partSem (s : State) (k ix : Nat) : Option Nat :=
  if ix < s.reg (partPage k) Rg.partSemCountCount then some (s.reg (partPage k) Rg.partSemBaseBase + ix) else none

/-- Change a sluice engine's list. -/
def setSluice (e : Nat) (r : SluiceRun) (s : State) : State := { s with tier := { s.tier with sluices := tabSet e r s.tier.sluices } }

/-- SEMACQ of a counter by a sluice engine (R164, R267): f follows at once where the count is positive and no agent waits before the engine,
or when its turn has come; otherwise it waits in its place. A semaphore out of the partition's range or a lock is never acquired. -/
def sluiceAcquire (e : Nat) (r : SluiceRun) (ix : Nat) (f : SluiceRun → State → State) (s : State) : State :=
  if r.granted then f { r with granted := false } s
  else
    match partSem s r.part ix with
    | none => s
    | some n =>
      let m := s.sem n
      if m.lock ∨ r.waits.isSome then s
      else if m.count > 0 ∧ m.waiters.isEmpty then f r (s.setSem n { m with count := m.count - 1 })
      else (setSluice e { r with waits := some n } s).setSem n { m with waiters := m.waiters ++ [.sluice e] }

/-- Release a counter by a number, saturating (R164). -/
def addCount (n add : Nat) (s : State) : State := s.setSem n { s.sem n with count := min ((s.sem n).count + add) (2 ^ 32 - 1) }

/-- A running engine takes no new entry while its die's page is frozen; a fill that it has begun goes on (R46, R627). DEDUCED: log entry 37. -/
def sluiceRuns (s : State) (e : Nat) : Option SluiceRun :=
  if s.working then (tabFind e s.tier.sluices).filter fun r => r.filling || !s.frozen (msidPage (e / 16)) else none

/-- Go on with an entry of an engine's list. -/
def nextEntry (e : Nat) (r : SluiceRun) (h : SluiceHead) (s : State) : State :=
  setSluice e { r with entry := (r.entry + 1) % max 1 h.entries, filling := false, unit := 0 } s

/-- SLUICE_PREFETCH (R267): PACE is acquired and the range is brought into the caches with the keep hint; or the engine waits for PACE. -/
def execSluicePrefetch (engine : Fin 64) (s : State) : Host.Outcome State Fault Refusal :=
  let e := engine.val
  .next (match sluiceRuns s e with
    | none => s
    | some r =>
      match sluiceHead s r.part r.list, sluiceEntry s r.part r.list r.entry with
      | some h, some (0, src, len) =>
        sluiceAcquire e r h.pace (fun r t => nextEntry e r h (t.partTouch r.part src len .keep)) s
      | _, _ => s)

/-- SLUICE_FILL_START (R267): the slot's free semaphore is acquired and the copy begins; units that meet an error are re-sourced. Until then
the engine waits for it. DEDUCED: log entry 37. -/
def execSluiceFillStart (engine : Fin 64) (s : State) : Host.Outcome State Fault Refusal :=
  let e := engine.val
  .next (match sluiceRuns s e with
    | none => s
    | some r =>
      match sluiceHead s r.part r.list, sluiceEntry s r.part r.list r.entry with
      | some h, some (1, src, len) =>
        if r.filling ∨ h.slots = 0 ∨ len > h.slotBytes then s
        else
          sluiceAcquire e r (h.freeBase + r.fills % h.slots)
            (fun r t => setSluice e { r with filling := true, fillAt := s.now, unit := 0 } (t.partTouch r.part src len)) s
      | _, _ => s)

/-- No line of a range waits for its holders or replicas: a write of it is done at once (R453, R457). -/
def rangeClear (s : State) (k a n : Nat) : Bool :=
  (linesOf a n).all fun l =>
    match (s.pageOf k l.1).map fun e => placeOf s e l.1 with
    | some (.here _ _) => lineBlock s k l.1 true true == .none
    | _ => true

/-- SLUICE_FILL_DONE (R267, R268): every unit of the layer is in the slot and none is poisoned; the gate is released. Where lines of the slot
have other holders, they are asked first. -/
def execSluiceFillDone (engine : Fin 64) (s : State) : Host.Outcome State Fault Refusal :=
  let e := engine.val
  .next (match sluiceRuns s e with
    | none => s
    | some r =>
      match sluiceHead s r.part r.list, sluiceEntry s r.part r.list r.entry with
      | some h, some (1, src, len) =>
        match s.partBytesAll r.part src len, partSem s r.part (h.gateBase + r.fills % max 1 h.slots) with
        | some b, some gate =>
          if r.filling = true ∧ s.partWriteCheck r.part (fillSlot h r) len = .done then
            let t := s.partStore r.part (fillSlot h r) b
            if rangeClear s r.part (fillSlot h r) len then nextEntry e { r with fills := r.fills + 1 } h (addCount gate h.consumers t) else t
          else s
        | _, _ => s
      | _, _ => s)

/-- Where the stored form of an awaited unit lies: the unit itself, or a coded unit's lines (R260, R272). -/
def storedPlace (s : State) (k a : Nat) (o : ObjectRec) : Nat :=
  if o.compressed then o.base + (unitOffset s k o (codedAt o (a - o.base)).1).getD 0 else a / 4096 * 4096

/-- A unit is lost and counted (R273). -/
def loseUnit (k a : Nat) (s : State) : State := setUnit k a (some .lost) (s.bump (partPage k) Rg.partResourceCountLost)

/-- RESOURCE_DONE (R272, R274): the replica has delivered the unit in its stored form; it is written back. Where that fails again the good
data, decoded where the object is compressed, is still delivered to the held reads, and later reads meet the error again. Stored data that
does not decode is the replica's own error (R273). -/
def execResourceDone (part : Fin 64) (unit : BitVec 64) (source : ReplicaSource) (data : List Byte) (writeFails : Bool)
    (s : State) : Host.Outcome State Fault Refusal :=
  let k := part.val
  let a := unit.toNat
  .next (if s.working ∧ awaited s k a then
      match objectAt s k a with
      | none => s
      | some (id, o) =>
        if o.replica ≠ (if source = .twin then 1 else 2) ∨ (source = .twin ∧ s.twin.stale.contains (objKey k id)) then s
        else
          match if o.compressed then decodeStored o data else some (data.take 4096) with
          | none => loseUnit k a s
          | some good =>
            let t := s.bump (partPage k) Rg.partResourceCountResourced
            if writeFails then setUnit k a (some (.ready good (List.range ((good.length + 63) / 64)))) t
            else setUnit k a none (ownWrite k (storedPlace t k a o) (if o.compressed then data else data.take 4096) t)
    else s)

/-- RESOURCE_TIMEOUT (R273): the replica has not delivered the unit within 10 ms of device time, or has delivered it with its own error: the
unit is lost and counted, and its reads are delivered poisoned. -/
def execResourceTimeout (part : Fin 64) (unit : BitVec 64) (error : Bool) (s : State) : Host.Outcome State Fault Refusal :=
  let k := part.val
  .next (match unitState s k unit.toNat with
    | some (.awaited since) => if s.working ∧ (error ∨ s.now ≥ since + 10000000) then loseUnit k unit.toNat s else s
    | _ => s)

/-- LOAD_OBJECT (R133, R190, R255, R273): a long operation that loads its data into an object, from its BASE on and in stored form, or into
an instruction memory. A core of another partition and data beyond the object or memory are not parameters of it; a signal core with ENABLE
1 and a core that holds a context are busy. DEDUCED: log entry 38. -/
def execLoadObject (q : CmdRef) (kind : LoadKind) (data : HostData) (s : State) : Host.Outcome State Fault Refusal :=
  .next (startCmd q [0x13] true (fun c s =>
    let k := c.part
    let go := fun (kd unit : Nat) (s : State) =>
      withData c data (cmdLen c) (fun b s => startLong c (cmdLen c) b s kd unit) s
    match kind with
    | .object id =>
      match tabFind (objKey k id.toNat) s.tier.objects with
      | none => complete c 0x0204 0 s
      | some o => if cmdLen c > objectPages o * pageBytes then complete c 0x0201 0 s else go 0 id.toNat s
    | .coreProgram n =>
      if !maskBit s (partPage k) Rg.partCoreMaskCores n.val ∨ cmdLen c > 2 ^ 18 then complete c 0x0201 0 s
      else if (s.core n.val).ctx.isSome then complete c 0x0205 0 s
      else go 1 n.val s
    | .sigcProgram n =>
      if !maskBit s (partPage k) Rg.partSigcMaskCores n.val ∨ cmdLen c > 2 ^ 16 then complete c 0x0201 0 s
      else if s.flag (sigcPage n.val) Rg.pageControlEnable then complete c 0x0205 0 s
      else go 2 n.val s) s)

/-- Write the next n bytes of a LOAD_OBJECT; units of the object that were lost are whole again (R273). -/
def loadBytes (l : LongOp) (n : Nat) (s : State) : State :=
  let b := (l.data.drop l.done).take n
  match l.kind with
  | 1 => s.store .imem (imemKey l.unit l.done) b
  | 2 => s.store .simem (simemKey l.unit l.done) b
  | _ =>
    match tabFind (objKey l.cmd.part l.unit) s.tier.objects with
    | none => s
    | some o =>
      let lo := unitKey l.cmd.part (o.base + l.done)
      let u := ownWrite l.cmd.part (o.base + l.done) b s
      { u with tier := { u.tier with
        units := u.tier.units.filter fun e =>
          !(e.2 == .lost && (decide (lo ≤ e.1) && decide (e.1 < lo + (n + 4095) / 4096) ||
            (o.compressed && decide (e.1 / 2 ^ 34 = l.cmd.part) && meetsObject o (e.1 % 2 ^ 34 * 4096) 4096))) } }

/-- The object of a LOAD_OBJECT, if its bytes also go to the twin's copy (R539): where that lies, and the twin's partition. -/
def twinCopy (s : State) (l : LongOp) : Option (BitVec 64 × Nat) :=
  match tabFind (objKey l.cmd.part l.unit) s.tier.objects with
  | some o =>
    if l.kind = 0 ∧ o.replica = 1 ∧ o.hint ≠ 4 ∧ s.flag raspPage Rg.raspTwinMapValid l.cmd.part ∧
        s.reg (partPage l.cmd.part) Rg.partConfigKind ≠ 2 then
      some (o.replicaAddr, s.reg raspPage Rg.raspTwinMapPartition l.cmd.part)
    else none
  | none => none

/-- One chunk of a LOAD_OBJECT. With a copy on the twin the same bytes go there, and the operation ends with the chunk that follows the
last, when the twin has applied them (R539). DEDUCED: log entry 38. -/
def loadChunk (l : LongOp) (bytes : Nat) (s : State) : State :=
  let n := min bytes (l.total - l.done)
  match twinCopy s l with
  | none => chunkDone l n (loadBytes l n s)
  | some (addr, part) =>
    if l.done ≥ l.total then
      endLong l 0 { s with twin := { s.twin with stale := s.twin.stale.filter (· != objKey l.cmd.part l.unit) } }
    else
      let t := (loadBytes l n s).emit (.mirror part [(addr + BitVec.ofNat 64 l.done, (l.data.drop l.done).take n)])
      if l.done + n < l.total ∨ l.cancelled then chunkDone l n t
      else
        let m := { l with done := l.total, seq := (l.seq + 1) % 2 ^ 32, startedAt := s.now }
        writeProgress m (setLong m t)

/-- TWIN_COPY_STALE (R539): the twin has not applied the bytes within 10 ms; the LOAD_OBJECT completes and the copy is stale. -/
def execTwinCopyStale (k : Fin 64) (object : BitVec 16) (q : CmdRef) (s : State) : Host.Outcome State Fault Refusal :=
  .next (match longOf s q.sq q.id with
    | some l =>
      if s.alive ∧ cmdOp l.cmd = 0x13 ∧ l.kind = 0 ∧ l.unit = object.toNat ∧ l.cmd.part = k.val ∧ (twinCopy s l).isSome ∧
          l.done ≥ l.total ∧ s.now ≥ l.startedAt + 10000000 then
        endLong l 0 { s with twin := { s.twin with stale := s.twin.stale ++ [objKey k object.toNat] } }
      else s
    | none => s)

/-- A core or signal core that FILL may clear: the partition's, without a context and with ENABLE 0 (R276). -/
def fillBusy (s : State) (p : Page) (held : Bool) : Bool := held || s.flag p Rg.pageControlEnable

/-- A range that FILL may write: aligned, mapped, writable, and of HBM or buffer pages (R276). DEDUCED: log entry 36. -/
def fillRangeOk (s : State) (k a n : Nat) : Bool :=
  a % 64 == 0 && n % 64 == 0 && (accessError s k a n true).isNone &&
    (n == 0 || (List.range ((a + n - 1) / pageBytes - a / pageBytes + 1)).all fun i =>
      match tabFind (pageKey k (a / pageBytes + i)) s.tier.pages with
      | some e => e.tier == 0 || e.tier == 2
      | none => false)

/-- FILL (R276). -/
def execFill (q : CmdRef) (target : FillTarget) (pattern : BitVec 64) (s : State) : Host.Outcome State Fault Refusal :=
  .next (startCmd q [0x14] true (fun c s =>
    let k := c.part
    let pat := toBytes 8 pattern.toNat
    match target with
    | .range a n =>
      if a.toNat % 64 ≠ 0 ∨ n.toNat % 64 ≠ 0 then complete c 0x0206 0 s
      else if n = 0 then complete c 0 0 s
      else if !fillRangeOk s k a.toNat n.toNat then complete c 0x0206 0 s
      else startLong c n.toNat pat s 0 0 a.toNat
    | .core m =>
      if !maskBit s (partPage k) Rg.partCoreMaskCores m.val then complete c 0x0206 0 s
      else if fillBusy s (corePage m.val) (s.core m.val).ctx.isSome then complete c 0x0205 0 s
      else startLong c (2 ^ 22) pat s 1 m.val
    | .sigc m =>
      if !maskBit s (partPage k) Rg.partSigcMaskCores m.val then complete c 0x0206 0 s
      else if fillBusy s (sigcPage m.val) ((s.sigc m.val).run == .running) then complete c 0x0205 0 s
      else startLong c (2 ^ 19) pat s 2 m.val) s)

/-- The pattern of a FILL over n bytes. DEDUCED: log entry 36. -/
def fillBytes (l : LongOp) (n : Nat) : List Byte := (List.range n).map fun i => l.data.getD (i % 8) 0

/-- A write to a line of a range waits for the line's holders or replicas (R453, R457). -/
def writesPending (s : State) (k a n : Nat) : Bool :=
  let writes := fun (w : DirWait) (l : Nat) => match w with
    | .write k' a' _ => k' == k && a' / 64 == l / 64
    | .request _ _ => false
  (linesOf a n).any fun l =>
    (((dirFind s (dirKey k l.1)).map (·.waiting)).getD []).any (writes · l.1) || (repOf s (repKey k l.1)).waiting.any (writes · l.1)

/-- One chunk of a FILL (R276, R277): a scratchpad takes two and a data memory one, whose line tags become valid with values that the
spec does not state; a chunk that meets a word that fails translation
ends the operation. A chunk is complete when every write of it has been performed. -/
def fillChunk (l : LongOp) (bytes : Nat) (s : State) : State :=
  match l.kind with
  | 1 => chunkDone l (2 ^ 21) (s.spadWrite l.unit l.done (fillBytes l (2 ^ 21)))
  | 2 =>
    let t := s.store .dmem (dmemKey l.unit 0) (fillBytes l (2 ^ 19))
    let tags := (List.range 8192).map fun i => t.free 8 i
    chunkDone l (2 ^ 19) ((t.store .tag (tagKey l.unit 0) tags).usedFree 8192)
  | _ =>
    let k := l.cmd.part
    let a := l.start + l.done
    if l.writing ≠ 0 then
      if writesPending s k a l.writing then s else chunkDone { l with writing := 0 } l.writing s
    else
      let n := min (min (bytes / 64 * 64) (768 * 2 ^ 20)) (l.total - l.done)
      match s.partWriteCheck k a n with
      | .error _ _ => endLong l 0x0206 (s.faultTouch k a n true)
      | .waits => s
      | .done =>
        let t := s.partStore k a (fillBytes l n)
        if writesPending t k a n then setLong { l with writing := n } t else chunkDone l n t

end Sys2Proof.Machine
end

