-- ==== Sys2Proof/Machine/Radio.lean ====
section
/-! DEFINITION. Radio service (R282 to R315): cells and air time, slot commands, tidemarks, the uplink windows, radio surge and
calibration; standby cells of the twin (R540). -/

namespace Sys2Proof.Machine

/-- A radio partition's state. -/
def State.radioOf (s : State) (k : Nat) : RadioPart := tabGet {} k s.radio.parts
def State.setRadio (s : State) (k : Nat) (x : RadioPart) : State :=
  { s with radio := { s.radio with parts := tabPut {} k x s.radio.parts } }
def State.modRadio (s : State) (k : Nat) (f : RadioPart → RadioPart) : State := s.setRadio k (f (s.radioOf k))

/-- A partition is a radio partition (R382). -/
def isRadio (s : State) (k : Nat) : Bool := s.reg (partPage k) Rg.partConfigKind == 2

/-- The GPS epoch in device time, in ns (R287). -/
def tGps : Int := 694656019 * 1000000000

/-- Where the frames of a cell begin, in ns of device time. -/
def frameBase (c : CellRec) : Int := tGps + c.frameOffset

/-- Slots of a frame (TS 38.211). -/
def slotsPerFrame (mu : Nat) : Nat := 10 * 2 ^ mu

/-- The start of symbol s of slot n of the frames' origin, as a numerator over 96 × 2^mu ns: symbols have 2,192 units of 1 / (30.72 MHz ×
2^mu), and the first of each half of a subframe 16 × 2^mu more (TS 38.211 §5.3.1, R287). PRESUMED: log entry 74. -/
def airNum (c : CellRec) (n : Int) (sym : Nat) : Int :=
  let p : Nat := 2 ^ c.mu
  let sub := n / (p : Int)
  let l := (n % (p : Int)).toNat * 14 + sym
  let u := l * 2192 + (if l > 0 then 16 * p else 0) + (if l > 7 * p then 16 * p else 0)
  (frameBase c + sub * 1000000) * (96 * p : Nat) + (3125 * u : Nat)

/-- The same in whole ns, rounded up: the first whole ns at or after it. PRESUMED: log entry 74. -/
def airNs (c : CellRec) (n : Int) (sym : Nat) : Int :=
  let d : Int := (96 * 2 ^ c.mu : Nat)
  (airNum c n sym + d - 1) / d

/-- The slot, counted from the frames' origin, in which a device time in ns falls. -/
def slotAt (c : CellRec) (t : Int) : Int :=
  let frame := (t - frameBase c) / 10000000
  let n0 := frame * (slotsPerFrame c.mu : Int)
  n0 + (((List.range (slotsPerFrame c.mu)).filter fun (i : Nat) => decide (airNs c (n0 + (i : Int)) 0 ≤ t)).length : Int) - 1

/-- The slot that a FRAME and SLOT name: their occurrence nearest a time, within 512 frames. DEDUCED: log entry 73. -/
def slotNamed (c : CellRec) (t : Int) (frame slot : Nat) : Int :=
  let cur := (t - frameBase c) / 10000000
  let d := (frame - cur) % 1024
  (cur + (if d ≥ 512 then d - 1024 else d)) * (slotsPerFrame c.mu : Int) + slot

/-- A byte string's little-endian field. -/
def leAt (b : List Byte) (off n : Nat) : Nat := leNat ((b.drop off).take n)

/-- The record's fields (R285). -/
def cellFields (b : List Byte) : CellRec :=
  let w := fun off => leAt b off 4
  { cell := w 0 % 512, mu := w 0 / 512 % 8, categoryB := (w 0).testBit 12, prb := w 4 % 512, txAnt := w 4 / 2 ^ 16 % 128
    rxAnt := w 4 / 2 ^ 24 % 128, dlLayers := w 8 % 32, ulLayers := w 8 / 256 % 16, frameOffset := signed 32 (w 0xC)
    port := w 0x10 % 64, subscriber := w 0x10 / 2 ^ 16, eaxcBase := w 0x14 % 2 ^ 16, eaxcCount := w 0x14 / 2 ^ 16 % 256
    compDl := (w 0x18 % 8, w 0x18 / 8 % 32), compUl := (w 0x18 / 2 ^ 16 % 8, w 0x18 / 2 ^ 19 % 32)
    t1aMaxUp := w 0x28 % 2 ^ 16, t1aMinUp := w 0x28 / 2 ^ 16, ta4Min := w 0x2C % 2 ^ 16, ta4Max := w 0x2C / 2 ^ 16
    txMargin := w 0x30 % 64, ulTide := w 0x30 / 2 ^ 16 % 4096, harqObject := leAt b 0x40 2, eref := [], ingress := [] }

/-- Bits of a cell record that its table does not name. -/
def cellReserved (b : List Byte) : Bool :=
  let w := fun off => leAt b off 4
  w 0 / 2 ^ 13 != 0 || w 4 / 2 ^ 9 % 2 ^ 7 != 0 || (w 4).testBit 23 || (w 4).testBit 31 || w 8 / 2 ^ 5 % 8 != 0 || w 8 / 2 ^ 12 != 0 ||
    w 0x10 / 2 ^ 6 % 2 ^ 10 != 0 || w 0x14 / 2 ^ 24 != 0 || w 0x18 / 2 ^ 8 % 2 ^ 8 != 0 || w 0x18 / 2 ^ 24 != 0 || w 0x1C != 0 ||
    w 0x30 / 2 ^ 6 % 2 ^ 10 != 0 || w 0x30 / 2 ^ 28 != 0 || w 0x34 != 0 || leAt b 0x42 2 != 0 ||
    (b.drop 0x44).any (· != 0)

/-- A value of a cell record outside its range (R282, R284, R285). DEDUCED: log entry 73. -/
def cellRangeBad (c : CellRec) : Bool :=
  c.cell > 383 || !(c.mu == 0 || c.mu == 1 || c.mu == 3) || c.prb == 0 || c.prb > 273 || (c.mu == 3 && decide (c.prb > 264)) ||
    c.txAnt == 0 || c.txAnt > 64 || c.rxAnt == 0 || c.rxAnt > 64 || c.dlLayers == 0 || c.dlLayers > 16 || c.ulLayers == 0 ||
    c.ulLayers > 8 || decide (c.frameOffset < -5000000) || decide (c.frameOffset > 5000000) || c.eaxcCount == 0 ||
    c.eaxcCount > 128 || decide (c.eaxcBase + c.eaxcCount > 65536) ||
    !(c.compDl.1 == 0 || c.compDl.1 == 1 || c.compDl.1 == 4) || !(c.compUl.1 == 0 || c.compUl.1 == 1) ||
    c.compDl.2 == 0 || c.compDl.2 > 16 || c.compUl.2 == 0 || c.compUl.2 > 16 ||
    c.t1aMaxUp > 1000 || decide (c.t1aMinUp ≥ c.t1aMaxUp) || c.ta4Max > 1000 || decide (c.ta4Min ≥ c.ta4Max) ||
    c.txMargin == 0 || c.txMargin > 50 || c.ulTide < 100 || c.ulTide > 4000

/-- The entries of INGRESS_MAP that are valid; none where an entry breaks R293. -/
def ingressMap (s : State) (k : Nat) (b : List Byte) (n : Nat) : Option (Table (Nat × Nat × Nat)) :=
  ((List.range n).mapM fun i =>
    let e := leAt b (8 * i) 8
    let core := e % 64
    let base := e / 2 ^ 8 % 2 ^ 19
    let len := e / 2 ^ 32 % 2 ^ 19
    if (e / 64 % 2 ≠ 0) ∨ e / 2 ^ 27 % 32 ≠ 0 ∨ e / 2 ^ 51 ≠ 0 then none
    else if !e.testBit 7 then some none
    else if base % 64 ≠ 0 ∨ len % 64 ≠ 0 ∨ len = 0 ∨ base + len > 2 ^ 19 ∨ !maskBit s (partPage k) Rg.partSigcMaskCores core then none
    else some (some (i, (core, base, len)))).map fun l => l.filterMap id

/-- Every entry of any running cell that names one signal core gives the same ring (R293). -/
def ringsAgree (s : State) (mine : Table (Nat × Nat × Nat)) : Bool :=
  let others := (s.radio.parts.map fun p => (p.2.cells.map fun c => c.2.info.ingress).flatten).flatten
  let all := mine ++ others
  mine.all fun e => all.all fun f => e.2.1 != f.2.1 || e.2.2 == f.2.2

/-- HARQ_OBJECT names a pinned HBM object of HINT 4 of the partition (R285, R291). DEDUCED: log entry 73. -/
def harqOk (s : State) (k id : Nat) : Bool :=
  match tabFind (objKey k id) s.tier.objects with
  | some o => o.hint == 4 && o.pinned && o.tier == 0
  | none => false

/-- A cell started now stands by (R540): pairing is on, the twin serves, and it mirrors into the partition. DEDUCED: log entry 77. -/
def standsBy (s : State) (k : Nat) : Bool :=
  let st := s.reg raspPage Rg.raspTwinStatusState
  s.flag raspPage Rg.raspTwinControlEnable && (st == 1 || st == 2) && s.twin.mapped.contains k

/-- CELL_START (R285, R286, R293, R540): the record is a partition's 256 bytes; what breaks a range completes with CELL_PARAM, a cell that
runs with CELL_BUSY. DEDUCED: log entry 73. -/
def execCellStart (q : CmdRef) (s : State) : Host.Outcome State Fault Refusal :=
  .next (startCmd q [0x30] true (fun c s =>
    let k := c.part
    if !cmdLocal c ∨ cmdLen c ≠ 256 then complete c 0x0102 0 s
    else if !isRadio s k then complete c 0x0403 0 s
    else withData c ⟨.ok, []⟩ 256 (fun b s =>
      let r := cellFields b
      if cellReserved b ∨ cellRangeBad r ∨ !harqOk s k r.harqObject then complete c 0x0403 0 s
      else if (tabFind r.cell (s.radioOf k).cells).isSome then complete c 0x0408 0 s
      else
        match s.partBytesAll k (leAt b 0x38 8) (8 * r.eaxcCount), s.partBytesAll k (leAt b 0x20 8) r.eaxcCount with
        | some m, some e =>
          let eref := e.map fun x => x.toInt
          (match ingressMap s k m r.eaxcCount with
           | some t =>
             if !ringsAgree s t ∨ eref.any fun x => decide (x < -64) || decide (x > 64) then complete c 0x0403 0 s
             else
               let r := { r with eref := eref, ingress := t }
               let x := s.radioOf k
               let u := (s.partTouch k (leAt b 0x38 8) (8 * r.eaxcCount)).partTouch k (leAt b 0x20 8) r.eaxcCount
               complete c 0 0 (u.setRadio k { x with
                 cells := tabSet r.cell { info := r, slot := slotAt r s.now, standby := standsBy s k } x.cells })
           | none => complete c 0x0403 0 s)
        | _, _ => complete c 0x0403 0 s) s) s)

/-- CELL_STOP (R286): it takes effect, and completes, at the cell's next slot boundary. DEDUCED: log entry 73. -/
def execCellStop (q : CmdRef) (cell : Fin 384) (s : State) : Host.Outcome State Fault Refusal :=
  .next (startCmd q [0x31] true (fun c s =>
    let x := s.radioOf c.part
    match tabFind cell.val x.cells with
    | none => complete c 0x0403 0 s
    | some y =>
      if y.stopping.isSome then s
      else (markStarted c s).setRadio c.part { x with cells := tabSet cell.val { y with stopping := some c } x.cells }) s)

/-- A slot's completion goes to the CQ of its header (R288). DEDUCED: log entry 75. -/
def completeSlot (r : SlotRun) (status : Nat) (s : State) : State := complete { r.cmd with cq := r.cq } status 0 s

/-- A slot command is refused or dropped as late under R289: it is counted and SLOT_CMD_LATE is raised. -/
def slotLate (k : Nat) (s : State) : State := (s.bump (partPage k) Rg.partSlotCmdLateCount).raise (partPage k) 19

/-- The task list fits its header (R288, R291, R292). DEDUCED: log entry 73. -/
def tasksOk (s : State) (k dir n : Nat) (ts : List SlotTask) : Bool :=
  decide (dir < 3) && decide (1 ≤ n) && decide (n ≤ 4096) && ts.length == n && ts.all fun t =>
    (if t.uplink then dir != 0 else dir != 1) && t.stage != 0 && (t.uplink || decide (t.stage.val ≤ 5)) &&
      match t.place with
      | .core c => maskBit s (partPage k) Rg.partCoreMaskCores c.val
      | .sigc u => maskBit s (partPage k) Rg.partSigcMaskCores u.val
      | _ => true

/-- Forget the outcomes of the coding descriptors of tasks' blocks. -/
def forgetBlocks (k : Nat) (ts : List SlotTask) (s : State) : State :=
  s.modRadio k fun x => { x with results := x.results.filter fun e => !ts.any fun t => t.blocks.any fun b => b.toNat == e.1 }

/-- SLOT (R288, R289): a command for slot n is accepted up to the start of slot n − 1, of slot n − 2 at μ = 3; at that limit the arbiter
decides; a slot whose command is late is discarded. DEDUCED: log entry 73. -/
def execSlot (q : CmdRef) (data : HostData) (tasks : List SlotTask) (arb : Bool) (s : State) : Host.Outcome State Fault Refusal :=
  .next (startCmd q [0x32] true (fun c s =>
    let k := c.part
    if cmdLen c ≠ 32 then complete c 0x0102 0 s
    else withData c data 32 (fun b s =>
      let w := fun off => leAt b off 4
      if w 0 / 2 ^ 9 % 2 ^ 7 ≠ 0 ∨ w 0 / 2 ^ 18 ≠ 0 ∨ w 4 / 2 ^ 10 % 2 ^ 6 ≠ 0 ∨ w 4 / 2 ^ 23 ≠ 0 ∨ w 8 / 2 ^ 13 ≠ 0 ∨
          w 0xC / 2 ^ 18 ≠ 0 then complete c 0x0102 0 s
      else
        let cq := CqRef.num (Fin.ofNat 262144 (w 0xC))
        let d := { c with cq := cq }
        let slot := w 4 / 2 ^ 16 % 128
        match tabFind (w 0 % 512) (s.radioOf k).cells with
        | none => complete d 0x0403 0 s
        | some y =>
          let r := y.info
          let n := slotNamed r c.arrival (w 4 % 1024) slot
          let limit := airNum r (n - if r.mu = 3 then 2 else 1) 0
          let at_ : Int := (c.arrival * (96 * 2 ^ r.mu) : Nat)
          if slot ≥ slotsPerFrame r.mu then complete d 0x0403 0 s
          else if at_ > limit ∨ (at_ = limit ∧ !arb) then complete d 0x0402 0 ((slotLate k s).modRadio k fun x =>
            { x with discarded := (r.cell, n) :: x.discarded.filter (· != (r.cell, n)) })
          else if !tasksOk s k (w 0 / 2 ^ 16 % 4) (w 8) tasks then complete d 0x0403 0 s
          else
            (forgetBlocks k tasks (markStarted c s)).modRadio k fun x => { x with
              slots := x.slots ++ [{ cmd := { c with started := true }, cq := cq, cell := r.cell, frame := w 4 % 1024, slot := slot
                                     index := n, predicted := leAt b 0x10 8, tasks := tasks, held := y.standby }] }) s) s)

/-- The accepted slot command of a cell for a frame and slot. -/
def slotOfCell (x : RadioPart) (cell frame slot : Nat) : Option SlotRun :=
  x.slots.find? fun r => r.cell == cell && r.frame == frame && r.slot == slot

/-- Replace a slot command. -/
def setSlotRun (k : Nat) (old new : SlotRun) (s : State) : State :=
  let x := s.radioOf k
  s.setRadio k { x with slots := x.slots.map fun r => if r = old then new else r }

/-- Remove a slot command. -/
def dropSlotRun (k : Nat) (r : SlotRun) (s : State) : State :=
  let x := s.radioOf k
  s.setRadio k { x with slots := x.slots.filter (· != r) }

/-- Add to a per-cell counter that saturates at 32 bits. -/
def addCell (n cell : Nat) (t : Table Nat) : Table Nat := tabMod 0 cell (fun v => min (v + n) (2 ^ 32 - 1)) t

/-- The blocks of a task that have no valid result (R310): their descriptors have not ended, or have ended without one. -/
def blocksOpen (x : RadioPart) (t : SlotTask) : List Nat :=
  (t.blocks.map (·.toNat)).filter fun b => tabFind b x.results != some 0

/-- What a missed tidemark does (R310), once for a task: it is counted; an uplink task's blocks without a valid result are reported as CRC
failures, a downlink task's symbol is not sent. -/
def missTask (k : Nat) (r : SlotRun) (i : Nat) (t : SlotTask) (s : State) : State :=
  let bad := if t.uplink then blocksOpen (s.radioOf k) t else []
  let s := setSlotRun k r { r with
    missed := r.missed ++ [i], failed := r.failed ++ bad, withheld := if t.uplink then r.withheld else r.withheld ++ [t.symbol] } s
  let s := (s.modRadio k fun x => { x with miss := addCell 1 r.cell x.miss }).bump (partPage k) Rg.partMissTotalCount
  let s := s.raise (partPage k) 16
  if t.uplink then s.emit (.blocksFailed k r.cell r.frame r.slot bad) else s

/-- Miss a task of an accepted slot command that has not missed yet, where a test of it holds. -/
def missWhere (k cell frame slot i : Nat) (p : SlotTask → Bool) (s : State) : State :=
  match slotOfCell (s.radioOf k) cell frame slot with
  | none => s
  | some r =>
    match r.tasks[i]? with
    | none => s
    | some t => if !r.held ∧ !r.missed.contains i ∧ p t then missTask k r i t s else s

/-- A coding descriptor of a task has ended LATE (R299). -/
def hasLate (x : RadioPart) (t : SlotTask) : Bool := t.blocks.any fun b => tabFind b.toNat x.results == some 2

/-- TIDEMARK_MISS (R310): a task's tidemark has passed and it is not complete. DEDUCED: log entry 77. -/
def execTidemarkMiss (k : Fin 64) (cell : Fin 384) (frame slot task : Nat) (s : State) : Host.Outcome State Fault Refusal :=
  .next (if s.alive then missWhere k.val cell.val frame slot task (fun t => decide (s.now ≥ t.tidemark.toNat)) s else s)

/-- The cores whose rates count for a partition's budget: its floor cores and its donors' cores (R304). -/
def budgetCores (s : State) (k : Nat) : List Nat :=
  let donors := s.reg (partPage k) Rg.partSurgeDonorsMask
  (List.range 160).filter fun c =>
    (List.range 64).any fun j => (j == k || donors.testBit j) && maskBit s (partPage j) Rg.partCoreMaskCores c

/-- The least of a list, d where it is empty. -/
def leastNat (d : Nat) : List Nat → Nat
  | [] => d
  | x :: xs => xs.foldl min x

/-- A core's rate where no window has been read: it is open. DEDUCED: log entry 75. -/
def openRate (s : State) (c : Nat) : Nat := (s.free 16 c).toNat

/-- A core's lowest window since a time (R304). -/
def lowSince (s : State) (c t : Nat) : Nat :=
  match ((tabGet [] c s.radio.lows).filter fun e => decide (e.1 ≥ t)).head? with
  | some e => e.2
  | none => openRate s c

/-- The rate of a core in the partition's calibration state other than CAL_STALE (R304). DEDUCED: log entry 75. -/
def freshRate (s : State) (k c : Nat) : Nat :=
  match (s.radioOf k).soak with
  | some r => max 1550 (((r.cores.find? fun e => e.1 == c).map (·.2)).getD 0)
  | none =>
    let boot := match tabFind c s.radio.boot with
      | some e => e.2
      | none => openRate s c
    max 1550 (boot * 86 / 100)

/-- The time since which windows count for CAL_STALE: the oldest of the last 1,000 slots. -/
def windowStart (x : RadioPart) : Nat := (x.window.getLast?.map (·.1)).getD 0

/-- The budget rate of CAL_STALE (R304), which does not rise while that state holds (R306). -/
def staleRate (s : State) (k : Nat) : Nat :=
  let since := windowStart (s.radioOf k)
  let rate := leastNat 1550 ((budgetCores s k).map fun c => max 1550 (lowSince s c since * 97 / 100))
  if s.reg (partPage k) Rg.partRadioStatusCalState = 3 then min rate (s.reg (partPage k) Rg.partBudgetRateRate) else rate

/-- BUDGET_RATE and SOAK_RATE over the cores that now count (R304, R313). -/
def setBudget (k : Nat) (s : State) : State :=
  let p := partPage k
  let cs := budgetCores s k
  let soak := match (s.radioOf k).soak with
    | some r => leastNat 0 (cs.map fun c => ((r.cores.find? fun e => e.1 == c).map (·.2)).getD 0)
    | none => 0
  if !isRadio s k ∨ !s.partOn k then s
  else if s.reg p Rg.partRadioStatusCalState = 3 then
    ((s.setReg p Rg.partBudgetRateRate (staleRate s k)).setReg p Rg.partBudgetRateSoakRate soak).usedFree 160
  else
    ((s.setReg p Rg.partRadioStatusCalState (if (s.radioOf k).soak.isSome then 2 else 1)
      |>.setReg p Rg.partBudgetRateRate (leastNat 1550 (cs.map (freshRate s k)))).setReg p Rg.partBudgetRateSoakRate soak).usedFree 160

/-- The budgets of the radio partitions, once cores have changed hands (R304). -/
def setBudgets (s : State) : State := s.each (List.range 64) fun k t => setBudget k t

/-- CAL_STALE is entered, or its rate recomputed (R304, R306). -/
def goStale (k : Nat) (s : State) : State :=
  let p := partPage k
  ((s.setReg p Rg.partBudgetRateRate (staleRate s k) |>.setReg p Rg.partRadioStatusCalState 3).usedFree 160).raise p 17

/-- The sliding test of R306 with one more slot. DEDUCED: log entry 75. -/
def calWindow (k taskNs predicted : Nat) (s : State) : State :=
  let p := partPage k
  let x := s.radioOf k
  let w := ((s.now, taskNs, predicted) :: x.window).take 1000
  let sa := w.foldl (fun t e => t + e.2.1) 0
  let sp := w.foldl (fun t e => t + e.2.2) 0
  let rate := s.reg p Rg.partBudgetRateRate
  let t := s.setRadio k { x with window := w }
  if sp = 0 then t
  else
    let t := t.setReg p Rg.partCalRatioRatio (min 65535 (sa * rate / sp))
    if 100 * sa * rate > 105 * 1000 * sp then goStale k t else t

/-- The batch of a slot's writes to mirrored objects goes to the twin (R539). -/
def sendMirror (k : Nat) (s : State) : State :=
  match tabGet [] k s.twin.toMirror with
  | [] => s
  | ws =>
    { s with twin := { s.twin with toMirror := tabDel k s.twin.toMirror } }.emit
      (.mirror (s.reg raspPage Rg.raspTwinMapPartition k) ws)

/-- Accepted slot commands of a partition whose slots begin during that of r: they share its surge cores. -/
def slotMates (x : RadioPart) (r : SlotRun) : List SlotRun :=
  x.slots.filter fun q =>
    match tabFind r.cell x.cells, tabFind q.cell x.cells with
    | some y, some z =>
      let a := airNs z.info q.index 0
      !q.held && decide (airNs y.info r.index 0 ≤ a) && decide (a < airNs y.info (r.index + 1) 0)
    | _, _ => q == r

/-- The tasks of a slot command that run on surge cores and have not missed. -/
def surgeTasks (r : SlotRun) : List SlotTask :=
  ((List.range r.tasks.length).filter fun i => !r.missed.contains i).filterMap fun i => r.tasks[i]?.filter fun t => t.place == .surge

/-- A claim that is made for one of some slot commands. -/
def claimsFor (x : RadioPart) (rs : List SlotRun) : List Claim :=
  x.claims.filter fun m => rs.any fun q => q.cell == m.cell && q.index == m.index

/-- A surge core has become ready for a slot, so the surge tasks that share it may run (R292). -/
def surgeServed (k cell : Nat) (index : Int) (s : State) : State :=
  s.modRadio k fun x =>
    match x.slots.find? fun r => r.cell == cell && r.index == index with
    | none => x
    | some r => let l := slotMates x r; { x with slots := x.slots.map fun q => if l.contains q then { q with served := true } else q }

/-- The outcomes of a slot command's uplink blocks (R290): what a block without a valid result in time gets is CRC_FAIL. -/
def slotOutcomes (x : RadioPart) (r : SlotRun) : List (Nat × Nat) :=
  ((r.tasks.filter (·.uplink)).map fun t => t.blocks.map fun b =>
    (b.toNat, if r.failed.contains b.toNat then 1 else (tabFind b.toNat x.results).getD 1)).flatten

/-- Where a slot command's result records go (R290): the outputs of its uplink tasks of stage 7. -/
def slotPlaces (r : SlotRun) : List (BitVec 64 × Nat) :=
  ((r.tasks.filter fun t => t.uplink && t.stage == 7).map (·.outputs)).flatten

/-- SLOT_COMPLETE (R290, R299, R306, R312): the slot command's tasks are done or missed. A task with a descriptor that ended LATE misses; a
task on a surge core is done only once a claim has been served. DEDUCED: log entry 77. -/
def execSlotComplete (k : Fin 64) (cell : Fin 384) (frame slot taskNs poisonPrbs : Nat) (s : State) :
    Host.Outcome State Fault Refusal :=
  .next (match slotOfCell (s.radioOf k.val) cell.val frame slot with
    | none => s
    | some r =>
      let x := s.radioOf k.val
      if !s.working ∨ r.held ∨ (!(surgeTasks r).isEmpty ∧ !r.served ∧
          !(claimsFor x (slotMates x r)).any fun m => m.ready.isSome) then s
      else
        let s := s.each (List.range r.tasks.length) fun i t => missWhere k.val cell.val frame slot i (hasLate x) t
        match slotOfCell (s.radioOf k.val) cell.val frame slot with
        | none => s
        | some r =>
          let s := s.modRadio k.val fun x => { x with poison := addCell poisonPrbs cell.val x.poison }
          let status :=
            if !r.missed.isEmpty then 0x0401
            else if !r.erased.isEmpty then 0x0404
            else if poisonPrbs ≠ 0 then 0x0405
            else if s.reg (partPage k) Rg.partRadioStatusCalState = 1 then 0x0010
            else 0
          let s := s.emit (.slotResults k.val cell.val frame slot (slotOutcomes (s.radioOf k.val) r) (slotPlaces r))
          calWindow k.val taskNs r.predicted
            (sendMirror k.val (completeSlot r status (dropSlotRun k.val r (forgetBlocks k.val r.tasks s)))))

/-- The time since which the inlet has been more than 5 °C above a partition's soak record, from one reading in 0.1 °C (R307). -/
def warmFrom (now v : Nat) (x : RadioPart) : Option Nat :=
  match x.soak with
  | some r => if v > r.inlet + 50 then some (x.warmSince.getD now) else none
  | none => none

/-- CAL_COOLANT_STALE (R307): the inlet has been more than 5 °C above the soak record's for 10 s. -/
def execCalCoolantStale (k : Fin 64) (s : State) : Host.Outcome State Fault Refusal :=
  .next (match (s.radioOf k.val).warmSince with
    | some t => if s.firmware ∧ s.partOn k ∧ isRadio s k ∧ s.now ≥ t + 10000000000 then goStale k.val s else s
    | none => s)

/-- CAL_IMPORT (R304, R305, R306, R572): a record that verifies is imported and the partition is SOAKED; a record that was imported before
does not end CAL_STALE, which only a new soak does. DEDUCED: log entry 75. -/
def execCalImport (q : CmdRef) (k : Fin 64) (record : SoakRecord) (s : State) : Host.Outcome State Fault Refusal :=
  .next (startCmd q [0x33] true (fun c s =>
    if c.part ≠ k.val then s
    else if !isRadio s k.val ∨ record.serial ≠ s.fuses.serial ∨ !record.steppingB0 ∨
        !Config.idkVerifies s.fuses.uds 1 (Config.soakBytes { record with signature := 0 }) record.signature then complete c 0x0406 0 s
    else if s.reg (partPage k) Rg.partRadioStatusCalState = 3 ∧ (s.radioOf k.val).imported.contains record then complete c 0 0 s
    else
      let t := s.modRadio k.val fun x => { x with
        soak := some record, warmSince := none, imported := record :: x.imported.filter (· != record) }
      complete c 0 0 (setBudget k.val (t.setReg (partPage k) Rg.partRadioStatusCalState 2))) s)

/-- UPLANE_WINDOW_CLOSE (R289, R293, R298): the arrival window of a symbol closes for an eAxC, or every PRB that the C-plane named for it
has been written; those that have not arrived are erased, and event source 5 of the eAxC's signal core is raised, once. DEDUCED: log entry
96. -/
def execUplaneWindowClose (k : Fin 64) (cell : Fin 384) (frame slot : Nat) (symbol : Fin 14) (eaxc : Fin 128) (named : List Nat) (s : State) :
    Host.Outcome State Fault Refusal :=
  let x := s.radioOf k.val
  .next (match tabFind cell.val x.cells with
    | none => s
    | some y =>
      let n := slotNamed y.info s.now frame slot
      let close : Int := airNs y.info n symbol + 1000 * (y.info.ta4Max : Int)
      let mine := x.arrived.filter fun e => e.cell == cell.val && e.index == n && e.symbol == symbol.val && e.eaxc == eaxc.val
      let unwritten := named.eraseDups.filter fun p => !mine.any fun e => e.prb == p && e.written
      let missing := unwritten.filter fun p => !mine.any fun e => e.prb == p
      let key := (cell.val, n, symbol.val, eaxc.val)
      if !s.alive ∨ y.standby ∨ eaxc.val ≥ y.info.eaxcCount ∨ x.discarded.contains (cell.val, n) ∨ x.closed.contains key ∨
          ((s.now : Int) < close ∧ !unwritten.isEmpty) then s
      else
        let t := s.setRadio k.val { x with uplaneLate := addCell missing.length cell.val x.uplaneLate, closed := key :: x.closed }
        let t : State := match slotOfCell x cell.val frame slot with
          | some r => setSlotRun k.val r { r with erased := r.erased ++ unwritten.map fun p => (symbol.val, eaxc.val, p) } t
          | none => t
        match tabFind eaxc.val y.info.ingress with
        | some e => sEvent e.1 5 t
        | none => t)

/-- Frames of a partition's egress are counted and not sent: a replay with SUPPRESS_EGRESS runs (ch. "Determinism"). -/
def egressSuppressed (s : State) (k : Nat) : Bool :=
  s.reg (partPage k) Rg.partRecordControlMode == 2 && s.flag (partPage k) Rg.partRecordControlSuppressEgress

/-- End the slot commands of a cell that a stop cuts off: those for the slot that begins and for later ones complete with SLOT_CMD_LATE (R286); an FLR's complete
into no queue and are counted (R415). -/
def cutSlots (k cell : Nat) (now : Int) (flr : Bool) (s : State) : State :=
  s.each ((s.radioOf k).slots.filter fun r => r.cell == cell && (flr || decide (r.index ≥ now))) fun r t =>
    let t := dropSlotRun k r t
    if flr then
      ({ t with host := { t.host with cmds := t.host.cmds.filter fun d => !(d.sq == r.cmd.sq && d.id == r.cmd.id && d.sqHead == r.cmd.sqHead) } }).bump
        (partPage k) Rg.partSlotCmdLateCount
    else completeSlot r 0x0402 t

/-- A cell is gone. -/
def removeCell (k cell : Nat) (s : State) : State :=
  let x := s.radioOf k
  s.setRadio k { x with
    cells := tabDel cell x.cells, arrived := x.arrived.filter fun e => e.cell != cell
    closed := x.closed.filter fun e => e.1 != cell, discarded := x.discarded.filter fun e => e.1 != cell }

/-- Forget what is kept of a cell's slots that are over. DESIGN CHOICE: log entry 122. -/
def forgetSlots (cell : Nat) (n : Int) (x : RadioPart) : RadioPart :=
  { x with
    arrived := x.arrived.filter fun e => e.cell != cell || decide (e.index + 16 ≥ n)
    closed := x.closed.filter fun e => e.1 != cell || decide (e.2.1 + 16 ≥ n)
    discarded := x.discarded.filter fun e => e.1 != cell || decide (e.2 + 16 ≥ n) }

/-- SLOT_BOUNDARY (R286, R287, R540): the cell's slot that device time stands in has begun; a stop takes effect, and a standby
completes the commands whose slot has passed. -/
def execSlotBoundary (k : Fin 64) (cell : Fin 384) (s : State) : Host.Outcome State Fault Refusal :=
  let x := s.radioOf k.val
  .next (match tabFind cell.val x.cells with
    | none => s
    | some y =>
      let n := slotAt y.info s.now
      if !s.alive ∨ n ≤ y.slot then s
      else
        let t := s.setRadio k.val (forgetSlots cell.val n { x with cells := tabSet cell.val { y with slot := n } x.cells })
        let t := t.each (x.slots.filter fun r => r.cell == cell.val && r.held && decide (r.index < n)) fun r u =>
          completeSlot r 0x0011 (dropSlotRun k.val r u)
        if y.flr then
          let t := removeCell k.val cell.val (cutSlots k.val cell.val n true t)
          match y.stopping with
          | some c => complete c 0x0105 0 t
          | none => t
        else
          match y.stopping with
          | some c => complete c 0 0 (removeCell k.val cell.val (cutSlots k.val cell.val n false t))
          | none => t)

/-- The donors of a radio partition (R300): enabled partitions of its mask that are not radio partitions, ascending. -/
def donorsOf (s : State) (k : Nat) : List Nat :=
  (List.range 64).filter fun j => (s.reg (partPage k) Rg.partSurgeDonorsMask).testBit j && s.partOn j && !isRadio s j

/-- A donor's core may be claimed: in service, not lent and not claimed already. -/
def claimable (s : State) (c : Nat) : Bool :=
  (s.core c).surgeFor.isNone && (s.core c).lentTo.isNone && !s.flag (corePage c) Rg.pageStatusFenced && !s.frozen (corePage c)

/-- The candidates of R300 in order: idle cores, cores of checked contexts with a limit of 20 µs or less, the others. -/
def surgeGroups (s : State) (k : Nat) : List (List Nat) :=
  let cs := ((donorsOf s k).map fun j => (List.range 160).filter fun c => maskBit s (partPage j) Rg.partCoreMaskCores c && claimable s c).flatten
  let quick := fun c => s.flag (corePage c) Rg.coreExecControlChecked && decide (s.reg (corePage c) Rg.coreCheapPointLimitLimit ≤ 20)
  [cs.filter fun c => (s.core c).ctx.isNone, cs.filter fun c => (s.core c).ctx.isSome && quick c,
   cs.filter fun c => (s.core c).ctx.isSome && !quick c]

/-- Claim a core (R300, R366): a context on it is preempted on every core it holds. DEDUCED: log entry 76. -/
def claimCore (k cell c : Nat) (s : State) : State :=
  let t := s.modCore c fun x => { x with surgeFor := some (k, cell, s.now) }
  match (s.core c).ctx with
  | some r => askPreempt r.part r.ctx t
  | none => t

/-- Surge cores that a partition holds or has claimed. -/
def surgeHeld (s : State) (k : Nat) : Nat :=
  ((List.range 160).filter fun c => (s.core c).lentTo == some k || ((s.core c).surgeFor.map (·.1)) == some k).length

/-- SURGE_CORES of a partition (R313). -/
def countSurge (k : Nat) (s : State) : State :=
  s.setReg (partPage k) Rg.partRadioStatusSurgeCores ((List.range 160).filter fun c => (s.core c).lentTo == some k).length

/-- MAX_SURGE; 159 cores at most (R313). DEDUCED: log entry 76. -/
def maxSurge (s : State) (k : Nat) : Nat := min 159 (s.reg (partPage k) Rg.partSurgeControlMaxSurge)

/-- Claim one core for a cell's slot from groups of candidates, within MAX_SURGE (R300, R303). DEDUCED: log entry 76. -/
def claimFrom (k cell : Nat) (groups : List (List Nat)) (s : State) : Option (Nat × State) :=
  if surgeHeld s k ≥ maxSurge s k then none
  else
    match groups.flatten with
    | [] => none
    | c :: _ => some (c, claimCore k cell c s)

/-- A lent core that no claim for a slot still to come names yet (R303). -/
def idleSurge (s : State) (k : Nat) (n : Int) : Option Nat :=
  let x := s.radioOf k
  (List.range 160).find? fun c =>
    (s.core c).lentTo == some k && !x.claims.any fun m => m.ready == some c && decide (m.index ≥ n)

/-- CLAIM_LEAD in ns: 60 to 250 µs (R313). -/
def claimLeadNs (s : State) (k : Nat) : Nat := 1000 * min 250 (max 60 (s.reg (partPage k) Rg.partSurgeControlClaimLead))

/-- Device time of waves at the budget rate, in ns, rounded up (R296, R304). -/
def wavesNs (s : State) (k waves : Nat) : Nat :=
  let rate := max 1 (s.reg (partPage k) Rg.partBudgetRateRate)
  (1000 * waves + rate - 1) / rate

/-- A claim for a slot may still be issued (R300): CLAIM_LEAD before the latest start of each of its surge tasks. DEDUCED: log entry 76. -/
def claimInTime (s : State) (k : Nat) (r : SlotRun) : Bool :=
  (surgeTasks r).all fun t => decide (s.now + claimLeadNs s k + wavesNs s k t.waves ≤ t.tidemark.toNat)

/-- Surge cores that the waves of the accepted commands of a slot need at the budget rate, each loaded to 0.85 of the slot (R308, R309).
DEDUCED: log entry 76. -/
def surgeNeed (s : State) (k : Nat) (r : SlotRun) : Nat :=
  let x := s.radioOf k
  let ts := ((slotMates x r).map surgeTasks).flatten
  let slotNs := 1000000 / 2 ^ ((tabFind r.cell x.cells).map (·.info.mu)).getD 0
  let ns := ts.foldl (fun n t => n + wavesNs s k t.waves) 0
  if ts.isEmpty then 0 else max 1 ((100 * ns + 85 * slotNs - 1) / (85 * slotNs))

/-- SURGE_CLAIM (R300, R303, R308): a claim for a slot that an accepted command needs, CLAIM_LEAD ahead of its tasks; a core held for an
earlier slot is named again. -/
def execSurgeClaim (k : Fin 64) (cell : Fin 384) (frame slot : Nat) (s : State) : Host.Outcome State Fault Refusal :=
  let x := s.radioOf k.val
  .next (match slotOfCell x cell.val frame slot with
    | none => s
    | some r =>
      if !s.working ∨ r.held ∨ !claimInTime s k.val r ∨ (claimsFor x (slotMates x r)).length ≥ surgeNeed s k.val r then s
      else
        match idleSurge s k.val r.index with
        | some c =>
          surgeServed k.val cell.val r.index
            (s.setRadio k.val { x with claims := x.claims ++ [⟨cell.val, r.index, [c], s.now, some c⟩] })
        | none =>
          match claimFrom k.val cell.val (surgeGroups s k.val) s with
          | some (c, t) => t.setRadio k.val { x with claims := x.claims ++ [⟨cell.val, r.index, [c], s.now, none⟩] }
          | none => s)

/-- The claim, not yet served, that a core is claimed for. -/
def claimOf (x : RadioPart) (c : Nat) : Option Claim := x.claims.find? fun m => m.cores.contains c && m.ready.isNone

/-- A claimed core that is not needed, or whose work is done, goes back to its donor, which chooses again (R303, R365). -/
def giveBack (c : Nat) (s : State) : State :=
  let t := s.modCore c fun x => { x with surgeFor := none, lentTo := none }
  match ownerOfCore t c with
  | some j => choose j t
  | none => t

/-- Keys of a memory from lo to lo + n hold what those from src on hold. -/
def copyRange (r : Region) (src lo n : Nat) (m : Memory) : Memory :=
  { cells := (m.cells.filter fun e => decide (e.1 < lo)) ++
      ((m.cells.filter fun e => decide (src ≤ e.1) && decide (e.1 < src + n)).map fun e => (e.1 - src + lo, e.2)) ++
      m.cells.filter fun e => decide (lo + n ≤ e.1)
    flips := (m.flips.filter fun e => decide (e.1 < lo / cwBytes r)) ++
      ((m.flips.filter fun e => decide (src / cwBytes r ≤ e.1) && decide (e.1 < (src + n) / cwBytes r)).map fun e =>
        (e.1 - src / cwBytes r + lo / cwBytes r, e.2)) ++
      m.flips.filter fun e => decide ((lo + n) / cwBytes r ≤ e.1) }

/-- The radio program and its tables are loaded into a core (R301): what the partition's lowest floor core holds. DESIGN CHOICE: log entry
121. -/
def loadRadio (k c : Nat) (s : State) : State :=
  match ((List.range 160).filter (maskBit s (partPage k) Rg.partCoreMaskCores)).head? with
  | none => s
  | some f =>
    if f = c then s
    else { s with mem := { s.mem with
      spad := copyRange .spad (spadKey f 0) (spadKey c 0) (2 ^ 22) s.mem.spad
      imem := copyRange .imem (imemKey f 0) (imemKey c 0) (2 ^ 18) s.mem.imem } }

/-- SURGE_CORE_READY (R301, R302, R357): the donor's context is off the core and the radio program is loaded, so the core is lent; a core
whose claim another core has served returns. DEDUCED: log entry 76. -/
def execSurgeCoreReady (c : Fin 160) (s : State) : Host.Outcome State Fault Refusal :=
  let n := c.val
  let x := s.core n
  .next (match x.surgeFor with
    | none => s
    | some (k, _, _) =>
      if !s.working ∨ x.ctx.isSome ∨ !enginesIdle x ∨ !streamsIdle x then s
      else
        let y := s.radioOf k
        match claimOf y n with
        | none => giveBack n s
        | some m =>
          let t := s.modCore n fun x => { x with surgeFor := none, lentTo := some k }
          let t := (loadRadio k n t).setRadio k { y with claims := y.claims.map fun d => if d = m then { m with ready := some n } else d }
          countSurge k (surgeServed k m.cell m.index t))

/-- CLAIM_LATE (R302): a claimed core is not ready after 60 µs; the next candidate of the first two groups is claimed at once. -/
def execClaimLate (c : Fin 160) (s : State) : Host.Outcome State Fault Refusal :=
  let n := c.val
  .next (match (s.core n).surgeFor with
    | none => s
    | some (k, cell, since) =>
      let x := s.radioOf k
      match claimOf x n with
      | none => s
      | some m =>
        if !s.working ∨ s.now < since + 60000 ∨ m.cores.head? ≠ some n ∨ m.cores.length ≠ 1 then s
        else
          let t := (s.bump (partPage k) Rg.partClaimLateCount).raise (partPage k) 18
          match claimFrom k cell ((surgeGroups t k).take 2) t with
          | some (d, u) =>
            u.setRadio k { x with claims := x.claims.map fun e => if e = m then { m with cores := m.cores ++ [d] } else e }
          | none => t.setRadio k { x with claims := x.claims.map fun e => if e = m then { m with cores := m.cores ++ [n] } else e })

/-- SURGE_RETURN (R303): the last task of the claim's slot on the core is complete; it returns unless a claim for a later slot names it.
DEDUCED: log entry 76. -/
def execSurgeReturn (c : Fin 160) (s : State) : Host.Outcome State Fault Refusal :=
  let n := c.val
  .next (match (s.core n).lentTo with
    | none => s
    | some k =>
      let x := s.radioOf k
      if !s.working then s
      else
        match x.claims.filter fun m => m.ready == some n with
        | [] => countSurge k (giveBack n s)
        | m :: rest =>
          let t := s.setRadio k { x with claims := x.claims.filter (· != m) }
          if rest.isEmpty then countSurge k (giveBack n t) else t)

end Sys2Proof.Machine
end

