-- ==== Sys2Proof/Machine/Serving.lean ====
section
/-! DEFINITION. Inference serving (R316 to R349): streams, KV pages, groups, the composition of steps, the reshard engine, sampling
and token records. -/

namespace Sys2Proof.Machine

/-- Bits of a stream record or a group record: n from bit lo of the byte at off. -/
def recField {w : Nat} (d : BitVec w) (off lo n : Nat) : Nat := (d.extractLsb' (8 * off + lo) n).toNat

/-- A record has only bits of a list of fields (offset, lowest bit, width) set. -/
def recClean {w : Nat} (d : BitVec w) (used : List (Nat × Nat × Nat)) : Bool :=
  let mask := used.foldl (fun m f => m ||| (2 ^ f.2.2 - 1) * 2 ^ (8 * f.1 + f.2.1)) 0
  (d &&& ~~~BitVec.ofNat w mask) == 0

def State.stream (s : State) (n : Nat) : Option StreamRun := tabFind n s.serve.streams
def State.setStream (s : State) (n : Nat) (x : StreamRun) : State :=
  { s with serve := { s.serve with streams := tabSet n x s.serve.streams } }
def State.setGroup (s : State) (k g : Nat) (x : ServeGroup) : State :=
  { s with serve := { s.serve with groups := tabSet (k * 8 + g) x s.serve.groups } }

/-- Fields of a group record (R327). -/
def ServeGroup.stages (g : ServeGroup) : Nat := recField g.image 4 16 7
def ServeGroup.batchMax (g : ServeGroup) : Nat := recField g.image 8 16 14
def ServeGroup.prefillTokens (g : ServeGroup) : Nat := recField g.image 0xC 0 17
def ServeGroup.pageReserve (g : ServeGroup) : Nat := recField g.image 0x10 0 17
def ServeGroup.layerBytes (g : ServeGroup) : Nat := recField g.image 0x14 0 32
def ServeGroup.model (g : ServeGroup) : Nat := recField g.image 0x18 0 64
def groupCores (g : ServeGroup) (decode : Bool) : List Nat := (List.range 160).filter (groupBit g decode)

/-- Fields of a stream record (R317). -/
def StreamRun.promptLen (x : StreamRun) : Nat := recField x.image 8 0 22
def StreamRun.maxNew (x : StreamRun) : Nat := recField x.image 0xC 0 22
def StreamRun.seed (x : StreamRun) : BitVec 128 := BitVec.ofNat 128 (recField x.image 0x18 0 128)
def StreamRun.pageList (x : StreamRun) : Nat := recField x.image 0x30 0 64
def StreamRun.prefixPages (x : StreamRun) : Nat := recField x.image 0x3C 0 17
def StreamRun.route (x : StreamRun) : Nat := recField x.image 0x58 0 1
def StreamRun.target (x : StreamRun) : Nat := recField x.image 0x58 8 24
def StreamRun.held (x : StreamRun) : Bool := x.host || x.kv || x.output

/-- KV entries (R279, R324): the range of a partition, its free entries, the bytes of a page and where it lies. -/
def kvRange (s : State) (k : Nat) : List Nat :=
  (List.range (s.reg (partPage k) Rg.partKvCountCount)).map (· + s.reg (partPage k) Rg.partKvBaseBase)
def kvUsed (s : State) (e : Nat) : Bool := (tabFind e s.serve.kvs).isSome
def kvFree (s : State) (k : Nat) : List Nat :=
  if (tabFind k s.serve.pools).isNone then [] else (kvRange s k).filter fun e => !kvUsed s e
def kvPageBytes (p : KvPool) : Nat := (p.layerBytes * p.layers + 4095) / 4096 * 4096
def kvAddr (s : State) (k e : Nat) : Nat :=
  match tabFind k s.serve.pools with
  | none => 0
  | some p => p.base + (e - p.first) * kvPageBytes p

/-- The device writes an entry of a partition's KV range in its table (R281). -/
def writeKvEntry (k e : Nat) (s : State) : State :=
  let i := e - s.reg (partPage k) Rg.partKvBaseBase
  structWrite k (kvPart + i / 4096) (i % 4096) s

/-- The entry is uncorrectable in the table, and what a read of it then leaves (R523). -/
def kvEntryBad (s : State) (k e : Nat) : Bool :=
  let i := e - s.reg (partPage k) Rg.partKvBaseBase
  structBad s k (kvPart + i / 4096) (i % 4096)
def kvEntryTouch (k e : Nat) (s : State) : State :=
  let i := e - s.reg (partPage k) Rg.partKvBaseBase
  structTouch k (kvPart + i / 4096) (i % 4096) e s

/-- Where the page at a position of a stream's list lies, for a read or a write (R280); none where the access fails: the list cannot be read,
its index is out of the partition's range, or the entry is free, another stream's, or shared and to be written, or is uncorrectable (R523). -/
def kvPlace (s : State) (n : Nat) (x : StreamRun) (i : Nat) (write : Bool) : Option Nat :=
  match s.partNat x.part (x.pageList + 4 * i) 4 with
  | none => none
  | some e =>
    match tabFind e s.serve.kvs with
    | none => none
    | some y =>
      if !(kvRange s x.part).contains e || kvEntryBad s x.part e || (!y.shared && y.owner != n) || (y.shared && write) then none
      else some y.addr

/-- The words of a stream's record in the table (R317), one for each of its four lines; it is uncorrectable in one of them; and what a read
of it then leaves (R523). -/
def recordWords (s : State) (n k : Nat) : List (Nat × Nat) :=
  let i := n - s.reg (partPage k) Rg.partStreamBaseBase
  (List.range 4).map fun j => (streamPart + i / 128, i % 128 * 32 + 8 * j)
def recordBad (s : State) (n k : Nat) : Bool := (recordWords s n k).any fun w => structBad s k w.1 w.2
def recordTouch (n k : Nat) (s : State) : State := s.each (recordWords s n k) fun w => structTouch k w.1 w.2 n

/-- A stream's record, or a page of its list, cannot be reached: it ends as by poison (R347, R523). DESIGN CHOICE: log entry 68. -/
def streamBroken (s : State) (n : Nat) (x : StreamRun) : Bool :=
  recordBad s n x.part || (List.range x.pages.length).any fun i => (kvPlace s n x i false).isNone
def brokenTouch (n : Nat) (x : StreamRun) (s : State) : State := s.each x.pages (kvEntryTouch x.part) |> recordTouch n x.part

/-- Streams of a partition in a state, in ascending ADMIT. -/
def streamsOf (s : State) (p : StreamRun → Bool) : List (Nat × StreamRun) :=
  sortBy (fun a b => decide (a.2.admitNo ≤ b.2.admitNo)) (s.serve.streams.filter fun e => p e.2)

/-- Every DECODE stream of the partition holds for KV (R325). -/
def kvStuck (s : State) (k : Nat) : Bool :=
  let d := streamsOf s fun x => x.part == k && x.state == 4
  !d.isEmpty && d.all fun e => e.2.kv

/-- Do f; KV_STARVED is raised where that leaves every DECODE stream of the partition holding for KV (R325, R349). -/
def watchKv (k : Nat) (f : State → State) (s : State) : State :=
  let t := f s
  t.raiseBits (partPage k) (if kvStuck t k && !kvStuck s k then 2 ^ 20 else 0)

/-- Take the lowest free entry for a stream (R324). -/
def takeEntry (k n : Nat) (s : State) : Option (Nat × State) :=
  (kvFree s k).head?.map fun e =>
    (e, writeKvEntry k e { s with serve := { s.serve with kvs := tabSet e ⟨false, n, kvAddr s k e⟩ s.serve.kvs } })

/-- Free entries of a partition. -/
def freeEntries (k : Nat) (es : List Nat) (s : State) : State :=
  State.each (l := es) (f := writeKvEntry k) { s with serve := { s.serve with kvs := s.serve.kvs.filter fun e => !es.contains e.1 } }

/-- Write an index into a stream's page list (R324). -/
def listPage (x : StreamRun) (i e : Nat) (s : State) : State := s.partWrite x.part (x.pageList + 4 * i) (toBytes 4 e)

/-- A stream takes a page (R324). -/
def takePage (n : Nat) (s : State) : State :=
  match s.stream n with
  | none => s
  | some x =>
    match takeEntry x.part n s with
    | none => s
    | some (e, t) => (listPage x x.pages.length e t).setStream n { x with pages := x.pages ++ [e] }

/-- KV_BIND (R324): entry i of the range receives PAGE_ADDR = pool base + i × page size. A pool that is not a KV page pool object (HINT 1,
R253) large enough for the range is no parameter of it; a range with entries in use is not bound anew. DEDUCED: log entry 66. -/
def execKvBind (q : CmdRef) (object : BitVec 16) (layerBytes layers : Nat) (s : State) : Host.Outcome State Fault Refusal :=
  .next (startCmd q [0x17] true (fun c s =>
    let k := c.part
    let p : KvPool := { object := object.toNat, layerBytes := layerBytes, layers := layers }
    if cmdLen c ≠ 0 then complete c 0x0102 0 s
    else
      match tabFind (objKey k object.toNat) s.tier.objects with
      | none => complete c 0x0204 0 s
      | some o =>
        if o.hint ≠ 1 ∨ layerBytes = 0 ∨ layerBytes % 64 ≠ 0 ∨ layers = 0 ∨ o.size < (kvRange s k).length * kvPageBytes p then
          complete c 0x0201 0 s
        else if (kvRange s k).any (kvUsed s) then complete c 0x0205 0 s
        else
          let p := { p with first := s.reg (partPage k) Rg.partKvBaseBase, base := o.base }
          complete c 0 0 { s with serve := { s.serve with pools := tabSet k p s.serve.pools } }) s)

/-- KV_RELEASE (R326): it frees a shared page of the partition's range. DEDUCED: log entry 66. -/
def execKvRelease (q : CmdRef) (entry : Nat) (s : State) : Host.Outcome State Fault Refusal :=
  .next (startCmd q [0x18] true (fun c s =>
    if cmdLen c ≠ 0 then complete c 0x0102 0 s
    else if !(kvRange s c.part).contains entry ∨ !((tabFind entry s.serve.kvs).map (·.shared)).getD false then
      complete c 0x0110 0 s
    else complete c 0 0 (freeEntries c.part [entry] s)) s)

/-- The fields of a group record and of a stream record (R317, R327). -/
def groupFields (template : Nat) : List (Nat × Nat × Nat) :=
  [(0, 0, 3), (0, 8, 5), (0x18, 0, 64), (0x20, 0, 160), (0x34, 0, 160), (4, 0, 23), (8, 0, 8), (8, 16, 14), (0xC, 0, 17), (0x10, 0, 17),
   (0x14, 0, 32), (0x48, 0, 8 * template)]
def streamFields : List (Nat × Nat × Nat) :=
  [(0, 8, 3), (8, 0, 22), (0xC, 0, 22), (0x18, 0, 128), (0x28, 0, 64), (0x30, 0, 64), (0x3C, 0, 17), (0x40, 0, 12), (0x40, 16, 16),
   (0x44, 0, 17), (0x48, 0, 128), (0x58, 0, 1), (0x58, 8, 24), (0x5C, 0, 32)]

/-- A group record is out of range (R327). DEDUCED: log entry 66. -/
def groupWrong (s : State) (k : Nat) (d : BitVec 1024) : Bool :=
  let x : ServeGroup := { image := d }
  let g := recField d 0 0 3
  let t := recField d 0 8 5
  let pre := groupCores x false
  let dec := groupCores x true
  let other := fun c => s.serve.groups.any fun e => e.1 / 8 == k && e.1 % 8 != g && (groupBit e.2 false c || groupBit e.2 true c)
  !recClean d (groupFields t) || !(t == 14 || t == 18) || pre.isEmpty || dec.isEmpty || pre.any dec.contains ||
    (pre ++ dec).any (fun c => !maskBit s (partPage k) Rg.partCoreMaskCores c || other c) ||
    recField d 4 0 8 * recField d 4 8 8 != pre.length || x.stages == 0 || decide (x.stages > 64) || recField d 8 0 8 == 0 ||
    decide (recField d 8 0 8 > dec.length) || x.batchMax == 0 || decide (x.batchMax > 8192) || decide (x.prefillTokens < 32) ||
    decide (x.prefillTokens > 65536) || decide (x.pageReserve > 65536) || x.layerBytes % 64 != 0 || decide (x.model ≥ 2 ^ 46)

/-- SERVE_GROUP (R327). A group with open streams does not change. DEDUCED: log entry 66. -/
def execServeGroup (q : CmdRef) (data : HostData) (s : State) : Host.Outcome State Fault Refusal :=
  .next (startCmd q [0x20] true (fun c s =>
    let k := c.part
    if cmdLen c ≠ 128 ∨ !paramsClean c [] then complete c 0x0102 0 s
    else withData c data 128 (fun b s =>
      let d := BitVec.ofNat 1024 (leNat b)
      let g := recField d 0 0 3
      if groupWrong s k d then complete c 0x0110 0 s
      else if s.serve.streams.any fun e => e.2.part == k && e.2.group == g then complete c 0x0111 0 s
      else complete c 0 0 (s.setGroup k g { image := d })) s) s)

/-- A command names a stream (R316, R320): f goes on where the number lies in the partition's range and the entry is well formed. -/
def streamCmd (len : Nat) (used : List (Nat × Nat × Nat)) (c : Cmd) (f : Nat → State → State) (s : State) : State :=
  let n := c.field 0x18 0 16
  if !inRange s c.part Rg.partStreamBaseBase Rg.partStreamCountCount n then complete c 0x0613 0 s
  else if cmdLen c ≠ len ∨ !paramsClean c used then complete c 0x0102 0 s
  else f n s

/-- A stream record is out of range (R317, R319, R344). A prefix leaves at least one token of the prompt to prefill; the CQ of a stream
whose records go to a lead is the lead's (R416). DEDUCED: log entry 67. -/
def streamWrong (s : State) (k : Nat) (lead : Option Nat) (d : BitVec 2048) : Bool :=
  let x : StreamRun := { part := k, image := d, group := 0, admitNo := 0 }
  let topP := recField d 0x44 0 17
  !recClean d streamFields || x.promptLen == 0 || decide (x.promptLen > 2097152) || x.maxNew == 0 || decide (x.maxNew > 2097152) ||
    decide (x.prefixPages * 32 ≥ x.promptLen) || decide (recField d 0x40 0 11 > 1024) || recField d 0x40 16 16 == 0 || topP == 0 ||
    decide (topP > 65536) ||
    (if x.route = 1 then decide (x.target > 65535)
     else if lead.isSome then decide (x.target > 262143)
     else decide (x.target > 262143) ||
      (s.cq (.num (Fin.ofNat 262144 x.target))).isNone || cqFn s (.num (Fin.ofNat 262144 x.target)) != functionOf s k)

/-- STREAM_OPEN (R317, R319): the record's prefix pages are read from its page list; a list that cannot be read is no parameter. DEDUCED:
log entry 67. -/
def execStreamOpen (q : CmdRef) (data : HostData) (s : State) : Host.Outcome State Fault Refusal :=
  .next (startCmd q [0x21] true (fun c s => streamCmd 256 [(0x18, 0, 16)] c (fun n s =>
    withData c data 256 (fun b s =>
      let k := c.part
      let d := BitVec.ofNat 2048 (leNat b)
      let g := recField d 0 8 3
      let lead := if s.host.linkUp then none else c.lead
      let x : StreamRun := { part := k, image := d, group := g, admitNo := s.serve.admits + 1, lead := lead }
      if streamWrong s k lead d then complete c 0x0110 0 s
      else if (s.stream n).isSome then complete c 0x0111 0 s
      else if (groupImage s k g).isNone then complete c 0x0112 0 s
      else
        match s.partBytesAll k x.pageList (4 * x.prefixPages) with
        | none => complete c 0x0110 0 s
        | some l =>
          let pages := (List.range x.prefixPages).map fun i => leNat ((l.drop (4 * i)).take 4)
          let t := recordSeed k 1 n x.seed (s.partTouch k x.pageList (4 * x.prefixPages))
          complete c 0 0 ({ t with serve := { t.serve with admits := x.admitNo } }.setStream n
            { x with pages := pages, position := 32 * x.prefixPages })) s) s) s)

/-- A token record (R343). -/
def tokenWord (n token position reason step : Nat) (last : Bool) : BitVec 128 :=
  BitVec.ofNat 128 (token % 2 ^ 32 + 2 ^ 32 * (position % 2 ^ 22) + 2 ^ 54 * reason + 2 ^ 57 * bit last + 2 ^ 64 * n + 2 ^ 96 * (step % 2 ^ 32))

/-- A stream emits a record: its group counts it (R348). -/
def emitRecord (n : Nat) (r : TokenRec) (s : State) : State :=
  match s.stream n with
  | none => s
  | some x =>
    let t := s.setStream n { x with records := x.records ++ [r] }
    let t := match groupImage t x.part x.group with
      | some g => t.setGroup x.part x.group { g with tokens := g.tokens + 1 }
      | none => t
    noteOutput x.part 1 (toBytes 16 r.word.toNat) t

/-- A stream ends (R318, R322, R323, R347): its end record is formed, the pages to keep become SHARED, and the closes that waited
complete. Pages that only a reshard still held go back with the others. -/
def endStream (n reason token step status : Nat) (group : Option Nat) (s : State) : State :=
  match s.stream n with
  | none => s
  | some x =>
    let kept := if x.closing.isEmpty then [] else x.pages.take x.keep
    let t := s.setStream n { x with
      state := 5, endReason := reason, closing := [], inStep := false, left := [], op := none
      keep := if x.closing.isEmpty then 0 else x.keep }
    let t := { t with serve := { t.serve with
      kvs := t.serve.kvs.map fun (e : Nat × KvEntry) => if kept.contains e.1 then (e.1, { e.2 with shared := true }) else e } }
    emitRecord n ⟨tokenWord n token x.position reason step true, status, true, group⟩ (t.each x.closing fun c u => complete c 0 0 u)

/-- The stream reaches FREE (R318, R323): its own pages return to the range. -/
def freeStream (n : Nat) (s : State) : State :=
  match s.stream n with
  | none => s
  | some x =>
    let own := (x.pages.drop x.keep).filter fun e =>
      match tabFind e s.serve.kvs with
      | some y => !y.shared && y.owner == n
      | none => false
    freeEntries x.part own { s with serve := { s.serve with streams := tabDel n s.serve.streams } }

/-- STREAM_CLOSE (R320, R323, R336): at the next step boundary; a stream in no running step is at one. DEDUCED: log entry 67. -/
def execStreamClose (q : CmdRef) (s : State) : Host.Outcome State Fault Refusal :=
  .next (startCmd q [0x22] true (fun c s => streamCmd 0 [(0x18, 0, 16), (0x1C, 0, 17)] c (fun n s =>
    let keep := c.field 0x1C 0 17
    match s.stream n with
    | none => complete c 0x0110 0 s
    | some x =>
      if keep > x.pages.length then complete c 0x0110 0 s
      else if x.state = 5 then complete c 0 0 s
      else
        let t := (markStarted c s).setStream n { x with
          closing := x.closing ++ [{ c with started := true }], keep := if x.closing.isEmpty then keep else x.keep }
        if x.inStep then t else watchKv x.part (endStream n 4 0xFFFFFFFF x.step 0 none) t) s) s)

/-- A stream joins the microbatch of its group with the fewest streams, the lowest on a tie (R331), and decodes (R318). -/
def joinDecode (n : Nat) (s : State) : State :=
  match s.stream n with
  | none => s
  | some x =>
    let stages := ((groupImage s x.part x.group).map (·.stages)).getD 1
    let count := fun m => (s.serve.streams.filter fun e => e.1 != n && e.2.part == x.part && e.2.group == x.group && e.2.state == 4 && e.2.mb == m).length
    let best := (List.range stages).foldl (fun b m => if count m < count b then m else b) 0
    s.setStream n { x with state := 4, mb := best, resharded := false }

/-- A step boundary of a stream applies a hold or release that waits (R319). -/
def holdBoundary (n : Nat) (s : State) : State :=
  match s.stream n with
  | none => s
  | some x =>
    match x.hostNext with
    | none => s
    | some b =>
      let t := s.setStream n { x with host := b, hostNext := none }
      if !b && x.resharded && !x.kv && !x.output then joinDecode n t else t

/-- STREAM_HOLD and STREAM_RELEASE (R319). -/
def streamHold (on : Bool) (c : Cmd) (s : State) : State :=
  streamCmd 0 [(0x18, 0, 16)] c (fun n s =>
    match s.stream n with
    | none => complete c 0x0110 0 s
    | some x =>
      if x.state = 5 then complete c 0x0110 0 s
      else
        let t := s.setStream n { x with hostNext := some on }
        complete c 0 0 (if x.inStep then t else holdBoundary n t)) s
def execStreamHold (q : CmdRef) (s : State) : Host.Outcome State Fault Refusal := .next (startCmd q [0x23] true (streamHold true) s)
def execStreamRelease (q : CmdRef) (s : State) : Host.Outcome State Fault Refusal := .next (startCmd q [0x24] true (streamHold false) s)

/-- The record of a stream (R317). -/
def streamImage (s : State) (n : Nat) : List Byte :=
  match s.stream n with
  | none => List.replicate 256 0
  | some x =>
    toBytes 256 (streamRecord x)

/-- STREAM_QUERY (R317, R320). -/
def execStreamQuery (q : CmdRef) (s : State) : Host.Outcome State Fault Refusal :=
  .next (startCmd q [0x25] true (fun c s => streamCmd 256 [(0x18, 0, 16)] c (fun n s =>
    match if cmdLocal c then s.partWriteCheck c.part (cmdAddr c) 256 else .done with
    | .done => complete c 0 0 (writeData c (streamImage s n) s)
    | .waits => s
    | .error _ _ => complete c 0x0103 0 s) s) s)

/-- The group holds a set of its cores (R327): they are the partition's, and nothing else has them. -/
def holdsCores (s : State) (k : Nat) (cs : List Nat) : Bool :=
  cs.all fun c =>
    maskBit s (partPage k) Rg.partCoreMaskCores c && (s.core c).ctx.isNone && (s.core c).lentTo.isNone && (s.core c).surgeFor.isNone &&
      !s.flag (corePage c) Rg.pageStatusFenced

/-- Strict mode (R503). -/
def strict (s : State) : Bool := s.flag globPage Rg.globModeStrict

/-- A step of the partition runs. -/
def stepsRun (s : State) (k : Nat) : Bool :=
  s.serve.groups.any fun e => e.1 / 8 == k && (e.2.prefill.isSome || !e.2.decode.isEmpty)

/-- The compositions of a round (R510): for each group one prefill step, then one decode step of each microbatch. DEDUCED: log entry 71. -/
def roundItems (s : State) (k : Nat) : List (Nat × Nat) :=
  ((s.serve.groups.filter fun e => e.1 / 8 == k).map fun e => (List.range (e.2.stages + 1)).map fun i => (e.1 % 8, i)).flatten

/-- The round that a composition belongs to in strict mode: what is still to come of it, this composition first. A partition that records or
replays begins a round at RECORD_BOUNDARY; another does so with its first composition (R510, R511). DEDUCED: log entry 71. -/
def roundFor (s : State) (k : Nat) (item : Nat × Nat) : Option (List (Nat × Nat)) :=
  let r := (tabGet {} k s.parts).round
  let r := if r.isEmpty && !stepsRun s k && (recordOf s k).mode == 0 then roundItems s k else r
  if r.head? = some item then some r else none

/-- Compose a step: in strict mode only as the next one of its round, whose start counts as a boundary (R510, R511). DEDUCED: log entry 71. -/
def inRound (k : Nat) (item : Nat × Nat) (f : State → State) (s : State) : State :=
  if !strict s then f s
  else
    match roundFor s k item with
    | none => s
    | some r =>
      let fresh := (tabGet {} k s.parts).round.isEmpty
      let t := f { s with parts := tabPut {} k { tabGet {} k s.parts with round := r.drop 1 } s.parts }
      if fresh then t.addReg (partPage k) Rg.partBoundaryCount 1 else t

/-- The batch composer loads the generator key of the anchor stream, the one of smallest ADMIT, on every core of a step's set (R508).
DEDUCED: log entry 70. -/
def loadKey (cs : List Nat) (anchor : Option StreamRun) (s : State) : State :=
  match anchor with
  | none => s
  | some x => s.each cs fun c t =>
    let t := t.modCore c fun y => { y with serving := true }
    let t := t.setReg (corePage c) Rg.coreRngStepStep x.step
    t.each (List.range 4) fun i u => u.setReg (corePage c) Rg.coreRngSeedSeed (x.seed.toNat / 2 ^ (32 * i)) i

/-- The group may compose: the device works, the partition is enabled, and the group holds all of its cores. DESIGN CHOICE: log entry 15. -/
def mayCompose (s : State) (k : Nat) (g : ServeGroup) : Bool :=
  s.working && s.partOn k && !s.frozen (partPage k) && !(tabGet {} k s.parts).exported && holdsCores s k (groupCores g false ++ groupCores g true)

/-- One stream's turn in a prefill composition (R325, R331): the state, the budget left, the batch, and whether it goes on. -/
def prefillTurn (k : Nat) (g : ServeGroup) (r : State × Nat × List (Nat × Nat) × Bool) (e : Nat × StreamRun) :
    State × Nat × List (Nat × Nat) × Bool :=
  let (s, budget, batch, go) := r
  let x := e.2
  let need := (x.promptLen + 31) / 32 - x.prefixPages
  if !go || budget == 0 || x.held then r
  else if x.state = 1 ∧ (kvFree s k).length < need + g.pageReserve then (s, budget, batch, false)
  else
    let t := if x.state = 1 then s.each (List.range need) fun _ u => takePage e.1 u else s
    let n := min budget (x.promptLen - x.position)
    let y := (t.stream e.1).getD x
    (t.setStream e.1 { y with state := 2, inStep := true }, budget - n, batch ++ [(e.1, n)], true)

/-- PREFILL_STEP_COMPOSE (R325, R331, R332). -/
def execPrefillStepCompose (k : Fin 64) (g : Fin 8) (s : State) : Host.Outcome State Fault Refusal :=
  .next (match groupImage s k g with
    | none => s
    | some x =>
      if x.prefill.isSome || !mayCompose s k x then s
      else inRound k (g.val, 0) (fun s =>
        let cand := streamsOf s fun y => y.part == k.val && y.group == g.val && (y.state == 1 || y.state == 2) && !y.inStep
        let r := cand.foldl (prefillTurn k x) (s, x.prefillTokens, [], true)
        let batch := r.2.2.1
        if batch.isEmpty then r.1
        else
          loadKey (groupCores x false) ((batch.head?.bind fun e => r.1.stream e.1))
            (r.1.setGroup k g { (groupImage r.1 k g).getD x with prefill := some batch })) s)

/-- One stream's turn in a decode composition (R325, R331, R346). -/
def decodeTurn (k max : Nat) (r : State × List Nat) (e : Nat × StreamRun) : State × List Nat :=
  let (s, batch) := r
  let x := e.2
  let x := { x with kv := x.kv && (kvFree s k).isEmpty, output := x.output || !x.records.isEmpty }
  let s := s.setStream e.1 x
  let starved := fun (s : State) => s.bump (partPage k) Rg.partKvStarvedCount
  if batch.length = max ∨ x.op.isSome then r
  else if x.held then
    let t := if x.kv then starved s else s
    (if x.output then t.bump (partPage k) Rg.partOutputHeldCount else t, batch)
  else if x.position % 32 = 0 ∧ x.position = 32 * x.pages.length then
    if (kvFree s k).isEmpty then (starved (s.setStream e.1 { x with kv := true }), batch)
    else
      let t := takePage e.1 s
      (t.setStream e.1 { (t.stream e.1).getD x with inStep := true }, batch ++ [e.1])
  else (s.setStream e.1 { x with inStep := true }, batch ++ [e.1])

/-- DECODE_STEP_COMPOSE (R325, R331, R332). -/
def execDecodeStepCompose (k : Fin 64) (g : Fin 8) (mb : Fin 64) (s : State) : Host.Outcome State Fault Refusal :=
  .next (match groupImage s k g with
    | none => s
    | some x =>
      if mb.val ≥ x.stages ∨ (tabFind mb.val x.decode).isSome = true ∨ !mayCompose s k x then s
      else inRound k (g.val, mb.val + 1) (watchKv k fun s =>
        let cand := streamsOf s fun y => y.part == k.val && y.group == g.val && y.state == 4 && y.mb == mb.val && !y.inStep
        let r := cand.foldl (decodeTurn k x.batchMax) (s, [])
        if r.2.isEmpty then r.1
        else
          let y := (groupImage r.1 k g).getD x
          loadKey (groupCores x true) ((r.2.head?.bind fun n => r.1.stream n))
            (r.1.setGroup k g { y with decode := tabSet mb.val r.2 y.decode, last := r.2.length })) s)

/-- Degrees of the wide mapping and expert groups (R327). -/
def ServeGroup.seqW (g : ServeGroup) : Nat := recField g.image 4 8 8

/-- The layers of each stage of the deep mapping (R329): contiguous, differing by at most one, earlier stages taking the extra ones. -/
def stageLayers (stages layers : Nat) : List (List Nat) :=
  let n := max 1 stages
  (List.range n).map fun i => (List.range (layers / n + (if i < layers % n then 1 else 0))).map (· + i * (layers / n) + min i (layers % n))

/-- The tokens of a prefill step, by stream and position, in SEQ_W contiguous ranges, one for each core row (R328): where the ranges end is
not stated. DESIGN CHOICE: log entry 68. -/
def seqRanges (w : Nat) (l : List (Nat × Nat)) : List (List (Nat × Nat)) :=
  let n := max 1 w
  (List.range n).map fun i => (l.drop (i * l.length / n)).take ((i + 1) * l.length / n - i * l.length / n)

/-- Blocks of a token in one part of a layer of a KV page, K or V (R279, R330): Z8 in blocks of 32, each with its exponent byte. -/
def kvBlocks (layerBytes : Nat) : Nat := layerBytes / 2112

/-- KV heads of a group's model; the descriptor is the Jexonalin reference's (R327). DESIGN CHOICE: log entry 68. -/
def kvHeads (model blocks : Nat) : Nat :=
  let h := Config.kvHeads model
  if h ≠ 0 ∧ blocks % h = 0 then h else 1

/-- The place of block j (head × blocks of a head + block of the head) of token t in its part's order of blocks (R330): wide is token, head,
dimension, deep is head, token, dimension. And the token and block that a place holds. -/
def kvIndex (blocks heads : Nat) (deep : Bool) (t j : Nat) : Nat :=
  let b := max 1 (blocks / max 1 heads)
  if deep then (j / b * 32 + t) * b + j % b else t * blocks + j
def kvToken (blocks heads : Nat) (deep : Bool) (ix : Nat) : Nat × Nat :=
  let b := max 1 (blocks / max 1 heads)
  if deep then (ix / b % 32, ix / (32 * b) * b + ix % b) else (ix / max 1 blocks, ix % max 1 blocks)

/-- What a byte of a layer of a KV page holds: an element or exponent byte of a block, by part, place and byte (32 for the exponent); none
beyond the two parts. Each part's exponents follow its elements. DESIGN CHOICE: log entry 68. -/
def kvByte (blocks off : Nat) : Option (Nat × Nat × Nat) :=
  let part := 1056 * blocks
  let r := off % max 1 part
  if off ≥ 2 * part then none
  else if r < 1024 * blocks then some (off / part, r / 32, r % 32)
  else some (off / part, r - 1024 * blocks, 32)
def kvOffset (blocks : Nat) (p : Nat × Nat × Nat) : Nat :=
  p.1 * (1056 * blocks) + (if p.2.2 = 32 then 1024 * blocks + p.2.1 else 32 * p.2.1 + p.2.2)

/-- The bytes of a layer that hold a token's blocks (R330). -/
def kvTokenBytes (blocks heads : Nat) (deep : Bool) (t : Nat) : List Nat :=
  ((List.range 2).map fun p => ((List.range blocks).map fun j =>
    (List.range 33).map fun i => kvOffset blocks (p, kvIndex blocks heads deep t j, i)).flatten).flatten

/-- The KV of the token at a position of a stream is written, stage by stage and layer by layer, to its page (R280, R328 to R330). The
values are the model's and free here; a page that R280 denies takes nothing. DESIGN CHOICE: log entry 68. -/
def writeToken (n pos : Nat) (s : State) : State :=
  match s.stream n with
  | none => s
  | some x =>
    match kvPlace s n x (pos / 32) true, tabFind x.part s.serve.pools, groupImage s x.part x.group with
    | some base, some p, some g =>
      let blocks := kvBlocks g.layerBytes
      s.each (stageLayers g.stages p.layers).flatten fun l u =>
        u.each (kvTokenBytes blocks (kvHeads g.model blocks) x.deep (pos % 32)) fun off v =>
          (v.partWrite x.part (base + l * g.layerBytes + off) [v.free 8]).usedFree
    | _, _, _ => s

/-- The KV of a prefill step is written: each core row writes that of its own tokens (R328). -/
def writePrefill (g : ServeGroup) (batch : List (Nat × Nat)) (s : State) : State :=
  let tokens := (batch.map fun e => (List.range e.2).map fun i => (e.1, ((s.stream e.1).map (·.position)).getD 0 + i)).flatten
  s.each (seqRanges g.seqW tokens) fun row t => t.each row fun e => writeToken e.1 e.2

/-- Positions of a stream's list whose pages a reshard copies: those that are not SHARED (R334). -/
def toReshard (s : State) (x : StreamRun) : List Nat :=
  (List.range x.pages.length).filter fun i => !((tabFind (x.pages.getD i 0) s.serve.kvs).map (·.shared)).getD true

/-- A stream's part of a prefill step is complete (R318, R321, R323). -/
def prefillEnd (e : Nat × Nat) (s : State) : State :=
  let s := holdBoundary e.1 s
  match s.stream e.1 with
  | none => s
  | some x =>
    let y := { x with inStep := false, step := x.step + 1, position := x.position + e.2 }
    let t := s.setStream e.1 y
    if !y.closing.isEmpty then endStream e.1 4 0xFFFFFFFF y.step 0 none t
    else if y.position ≥ y.promptLen then t.setStream e.1 { y with state := 3, left := toReshard t y }
    else t

/-- Order of logits by exact value (R61). -/
def logitLe (a b : Int × Int) : Bool :=
  let e := min a.2 b.2
  decide (a.1 * 2 ^ (a.2 - e).toNat ≤ b.1 * 2 ^ (b.2 - e).toNat)

/-- The candidates in ranked order: largest exact logit first, ascending token on a tie (R339, R340). -/
def ranked (row : List (Int × Int)) : List (Nat × Int × Int) :=
  sortBy (fun a b => !logitLe a.2 b.2 || (logitLe b.2 a.2 && decide (a.1 ≤ b.1))) ((List.range row.length).zip row)

/-- d of a logit in Q15.16 (R338). PRESUMED: log entry 69. -/
def logitD (temp : Nat) (x m : Int × Int) : Int :=
  let e := min x.2 m.2
  scaleEven ((x.1 * 2 ^ (x.2 - e).toNat - m.1 * 2 ^ (m.2 - e).toNat) * temp) (e + 8)

/-- 2^(2^-i) for i = 1 to 16, in 2⁻⁴⁰. -/
def exp2Roots : List Nat :=
  [1554944255988, 1307547050779, 1199025932245, 1148191166361, 1123587797336, 1111484524408, 1105481867187, 1102492706220,
   1101001158050, 1100256140847, 1099883821316, 1099697708800, 1099604664352, 1099558145080, 1099534886182, 1099523256917]

/-- 2^f at a fraction of f sixteenth-bits in Q15.16, rounded down (R338). -/
def exp2Floor (f : Nat) : Nat :=
  (((List.range 16).zip exp2Roots).foldl (fun p e => if f.testBit (15 - e.1) then p * e.2 / 2 ^ 40 else p) (2 ^ 40)) / 2 ^ 24

/-- What Jexonalin's table gives for 2^f: in [1, 2) and within 2 units of the exact value (R153, R154, R338); which of these values is the
table's. DESIGN CHOICE: log entry 8. -/
def exp2Of (f : Nat) : Nat := max 65536 (min 131071 (exp2Floor f - 1 + Config.exp2Table f % 4))

/-- A candidate's weight (R338): the unnormalized part of the integer softmax of "The compute core", with log2 e in Q15.16. PRESUMED: log
entry 69. -/
def logitWeight (d : Int) : Nat :=
  let t := roundEven (d * 94548) 16
  let n := -(t / 65536)
  let f := (t % 65536).toNat
  let p : Int := if f = 0 then 65536 else exp2Of f
  if n > 31 then 0 else (roundEven p n.toNat).toNat

/-- Prefix sums. -/
def prefixSums (ws : List Nat) : List Nat := (List.range ws.length).map fun i => (ws.take (i + 1)).foldl (· + ·) 0

/-- The token that a stream samples from its logit row (R338 to R342). PRESUMED: log entry 69. -/
def sampleToken (x : StreamRun) (row : List (Int × Int)) : Nat :=
  let order := ranked row
  match order with
  | [] => 0
  | (t0, m) :: _ =>
    if recField x.image 0x40 11 1 = 0 then t0
    else
      let k := recField x.image 0x40 0 11
      let ws := (order.take (if k = 0 then 1024 else k)).map fun e => (e.1, logitWeight (logitD (recField x.image 0x40 16 16) e.2 m))
      let cand := (ws.take 1) ++ (ws.drop 1).filter fun e => e.2 != 0
      let c := prefixSums (cand.map Prod.snd)
      let total := c.getLastD 0
      let keep := ((List.range c.length).find? fun j => decide (c.getD j 0 * 65536 ≥ recField x.image 0x44 0 17 * total)).getD (c.length - 1) + 1
      let kept := c.getD (keep - 1) 0
      let u := (gen x.seed (BitVec.ofNat 64 x.step) 0x53414D50 0).toNat % 2 ^ 32
      let j := ((List.range keep).find? fun j => decide (c.getD j 0 * 2 ^ 32 > u * kept)).getD (keep - 1)
      (cand.getD j (t0, 0)).1

/-- The end condition that a sampled token meets, if any (R322). -/
def endReason (x : StreamRun) (token made position : Nat) : Nat :=
  if (List.range 4).any fun i => recField x.image (0x48 + 4 * i) 0 32 == token && token != 0xFFFFFFFF then 1
  else if made ≥ x.maxNew then 2
  else if position = 2097152 then 3
  else 0

/-- Some unit of a partition is lost, so that its steps may have consumed it (R273). -/
def anyLost (s : State) (k : Nat) : Bool := s.tier.units.any fun e => e.1 / 2 ^ 34 == k && e.2 == .lost

/-- A stream's part of a decode step is complete (R318, R321 to R323, R334, R347). A step has consumed a lost unit only where the partition
has one (R273). -/
def decodeEnd (serial : Nat) (rows : List LogitRow) (n : Nat) (s : State) : State :=
  let s := holdBoundary n s
  match s.stream n, rows.find? fun r => r.stream == n with
  | some x, some r =>
    let wrote := if x.first then 0 else 1
    let y := { x with inStep := false, first := false, step := x.step + 1, position := x.position + wrote }
    let poisoned := r.poisoned || streamBroken s n x
    let t := ((s.when (streamBroken s n x) (brokenTouch n x)).each (List.range wrote) fun _ => writeToken n x.position).setStream n y
    if !y.closing.isEmpty then endStream n 4 0xFFFFFFFF y.step 0 none t
    else if poisoned then
      if r.lostWeight && anyLost s x.part then endStream n 6 0xFFFFFFFF x.step 0x0207 (some serial) t
      else (endStream n 5 0xFFFFFFFF x.step 0x020A (some serial) t).raise (partPage x.part) 21
    else
      let token := sampleToken x r.logits
      let made := x.made + 1
      let t := t.setStream n { y with made := made }
      match endReason x token made y.position with
      | 0 => emitRecord n ⟨tokenWord n token y.position 0 x.step false, 0, false, some serial⟩ t
      | why => endStream n why token x.step 0 (some serial) t
  | _, _ => s

/-- The cores of a set leave a serving step: the key is the context's again, which they do not hold (R508). -/
def leaveStep (cs : List Nat) (s : State) : State := s.each cs fun c t => t.modCore c fun y => { y with serving := false }

/-- A step may complete in strict mode once its round has been composed whole, since each composition uses the state that the round before
left (R510). DEDUCED: log entry 71. -/
def mayEnd (s : State) (k : Nat) : Bool := !strict s || (tabGet {} k s.parts).round.isEmpty

/-- SERVE_STEP_DONE (R318, R321, R322, R328, R333, R338 to R347): rows holds a logit row for every stream of a decode step. While a core of its
set is claimed or held by a context, the step's work on it has not resumed and the step has not ended. -/
def execServeStepDone (k : Fin 64) (g : Fin 8) (step : ServeStep) (rows : List LogitRow) (s : State) :
    Host.Outcome State Fault Refusal :=
  .next (match groupImage s k g with
    | none => s
    | some x =>
      if !s.working || !mayEnd s k then s
      else if !holdsCores s k (groupCores x (step != .prefill)) then s
      else
        match step with
        | .prefill =>
          match x.prefill with
          | none => s
          | some batch =>
            watchKv k (fun s => leaveStep (groupCores x false) ((writePrefill x batch s).each batch prefillEnd))
              (s.setGroup k g { x with prefill := none })
        | .decode mb =>
          match tabFind mb.val x.decode with
          | none => s
          | some batch =>
            if batch.all fun n => rows.any fun r => r.stream == n && (r.poisoned || !r.logits.isEmpty) then
              watchKv k (fun s => leaveStep (groupCores x true) (s.each batch (decodeEnd x.steps rows)))
                (s.setGroup k g { x with decode := tabDel mb.val x.decode, steps := x.steps + 1 })
            else s)

/-- The byte of a page that a byte of a layer comes from when its layout changes (R330): was tells that the old page is deep, deep that the new one is. -/
def kvSource (blocks heads : Nat) (was deep : Bool) (off : Nat) : Nat :=
  match kvByte blocks off with
  | none => off
  | some (p, ix, i) =>
    let t := kvToken blocks heads deep ix
    kvOffset blocks (p, kvIndex blocks heads was t.1 t.2, i)

/-- A page of n bytes as a reshard copies it (R330, R334): no bit changes, but for a block of which a byte cannot be read, which is poisoned:
its exponent is 0x80 and its elements are free values. -/
def kvCopy (s : State) (lb blocks heads : Nat) (was deep : Bool) (b : List (Option Byte)) (n : Nat) : List Byte :=
  let at_ := fun o => b.getD (o / lb * lb + kvSource blocks heads was deep (o % lb)) none
  (List.range n).map fun o =>
    match kvByte blocks (o % lb) with
    | some (p, ix, 32) =>
      if (List.range 33).any fun i => (at_ (o / lb * lb + kvOffset blocks (p, ix, i))).isNone then 0x80 else (at_ o).getD 0x80
    | _ => (at_ o).getD (s.free 8 o)

/-- Bytes of a page that a stream of a group uses. -/
def kvUsedBytes (s : State) (k : Nat) (g : ServeGroup) : Nat := g.layerBytes * ((tabFind k s.serve.pools).map (·.layers)).getD 0

/-- The page at a position of a stream's list waits for its data (R272). -/
def pageWaits (s : State) (n i : Nat) : Bool :=
  match s.stream n with
  | none => false
  | some x =>
    match kvPlace s n x i false, groupImage s x.part x.group with
    | some a, some g => match s.partRead x.part a (kvUsedBytes s x.part g) with
      | .held _ => true
      | _ => false
    | _, _ => false

/-- What a page that waits leaves: its unit is being re-sourced. -/
def pageTouch (n i : Nat) (s : State) : State :=
  match s.stream n with
  | none => s
  | some x =>
    match kvPlace s n x i false, groupImage s x.part x.group with
    | some a, some g => s.partTouch x.part a (kvUsedBytes s x.part g)
    | _, _ => s

/-- Copy the page at a position of a stream's list to an address, from one layout to another or as it is (R330, R334, R337). A page that R280
denies gives poisoned blocks. -/
def copyKvPage (n i dst : Nat) (was deep : Bool) (s : State) : State :=
  match s.stream n with
  | none => s
  | some x =>
    match groupImage s x.part x.group with
    | none => s
    | some g =>
      let len := kvUsedBytes s x.part g
      let blocks := kvBlocks g.layerBytes
      let b := match kvPlace s n x i false with
        | some a => match s.partRead x.part a len with
          | .data b => b
          | _ => List.replicate len none
        | none => List.replicate len none
      ((pageTouch n i s).partWrite x.part dst (kvCopy s (max 1 g.layerBytes) blocks (kvHeads g.model blocks) was deep b len)).usedFree len

/-- Move the page at a position of a stream's list to a new entry (R334). None where no entry is free. -/
def movePage (n i : Nat) (was deep : Bool) (s : State) : Option State :=
  match s.stream n with
  | none => none
  | some x =>
    let old := x.pages.getD i 0
    (takeEntry x.part n s).map fun r =>
      let t := listPage x i r.1 (copyKvPage n i (kvAddr s x.part r.1) was deep r.2)
      let len := ((groupImage s x.part x.group).map (kvUsedBytes s x.part)).getD 0
      (freeEntries x.part [old] (t.setStream n { x with pages := x.pages.set i r.1 })).addReg (partPage x.part) Rg.partReshardBytesBytes len

/-- RESHARD_PAGE (R334, R335): an engine copies the next page; without a free entry it waits and counts in KV_STARVED. A page whose unit is being
re-sourced is waited for (R272). -/
def execReshardPage (k : Fin 64) (stream : Fin 65536) (s : State) : Host.Outcome State Fault Refusal :=
  .next (match s.stream stream with
    | none => s
    | some x =>
      match x.left with
      | [] => s
      | i :: rest =>
        if !s.working || x.part != k.val || x.state != 3 then s
        else if pageWaits s stream i then pageTouch stream i s
        else
          match movePage stream i false true s with
          | none => s.bump (partPage k) Rg.partKvStarvedCount
          | some t => t.setStream stream { (t.stream stream).getD x with left := rest })

/-- RESHARD_DONE (R318, R329, R334): every page and the hidden row have moved; a held stream stays in RESHARD. -/
def execReshardDone (k : Fin 64) (stream : Fin 65536) (s : State) : Host.Outcome State Fault Refusal :=
  .next (match s.stream stream with
    | none => s
    | some x =>
      if !s.working || x.part != k.val || x.state != 3 || !x.left.isEmpty || x.resharded then s
      else
        let t := s.setStream stream { x with first := true, resharded := true, deep := true }
        if x.held then t else watchKv k (joinDecode stream) t)

/-- RESHARD (R337): a long operation on a DECODE stream; its group must have the same MODEL and LAYER_BYTES. -/
def execReshard (q : CmdRef) (stream : BitVec 16) (group : Fin 8) (s : State) : Host.Outcome State Fault Refusal :=
  .next (startCmd q [0x26] true (fun c s =>
    let n := stream.toNat
    let k := c.part
    if !inRange s k Rg.partStreamBaseBase Rg.partStreamCountCount n then complete c 0x0613 0 s
    else if cmdLen c ≠ 0 then complete c 0x0102 0 s
    else
      match s.stream n with
      | none => complete c 0x0110 0 s
      | some x =>
        if x.state ≠ 4 ∨ x.op.isSome = true then complete c 0x0110 0 s
        else
          match groupImage s k group, groupImage s k x.group with
          | some a, some b =>
            if a.model ≠ b.model ∨ a.layerBytes ≠ b.layerBytes then complete c 0x0110 0 s
            else
              let left := toReshard s x
              let t := s.setStream n { x with op := some ⟨group.val, left⟩ }
              if left.isEmpty then complete c 0 0 (joinDecode n (t.setStream n { x with group := group.val }))
              else startLong c left.length [] t 0 n group
          | _, _ => complete c 0x0112 0 s) s)

/-- A chunk of a RESHARD copies up to n pages (R337, R405): with its own group named, the layout changes over; a stream in a running step
is first at its boundary. The stream goes to the group's microbatch when all pages have moved. -/
def reshardChunk (l : LongOp) (n : Nat) (s : State) : State :=
  match s.stream l.unit with
  | none => endLong l 0x0110 s
  | some x =>
    match x.op with
    | none => endLong l 0x0110 s
    | some o =>
      if x.inStep then s
      else if (o.left.take n).any (pageWaits s l.unit) then s.each ((o.left.take n).filter (pageWaits s l.unit)) (pageTouch l.unit)
      else
        let deep := if o.group ≠ x.group then x.deep else !x.deep
        let go := o.left.take n
        let r := go.foldl (fun (a : State × Nat) i => match movePage l.unit i x.deep deep a.1 with
          | some t => (t, a.2 + 1)
          | none => a) (s, 0)
        let t := if r.2 < go.length then r.1.bump (partPage x.part) Rg.partKvStarvedCount else r.1
        let y := (t.stream l.unit).getD x
        let left := o.left.drop r.2
        let t := t.setStream l.unit { y with op := if left.isEmpty || l.cancelled then none else some { o with left := left } }
        let t := if left.isEmpty then
            let y := (t.stream l.unit).getD y
            if o.group ≠ x.group then joinDecode l.unit (t.setStream l.unit { y with group := o.group, op := none })
            else t.setStream l.unit { y with deep := !x.deep, op := none }
          else t
        chunkDone l r.2 t

/-- Accept a stream's front record: its OUTPUT hold clears, and with the end record the stream reaches FREE (R318, R346). DEDUCED: log entry
72. -/
def recordTaken (n : Nat) (s : State) : State :=
  match s.stream n with
  | none => s
  | some x =>
    match x.records with
    | [] => s
    | r :: rest =>
      if r.last then watchKv x.part (freeStream n) s
      else
        let y := { x with records := rest, output := x.output && !rest.isEmpty }
        let t := s.setStream n y
        if y.resharded && !y.held then joinDecode n t else t

/-- A token record goes to its completion queue (R344, R346): one entry, where the CQ has room and no earlier completion waits; one whose CQ
fails translation is dropped and recorded (R411); that of a member without a host link goes to its lead (R416). DEDUCED: log entry 72. -/
def recordToCq (n : Nat) (x : StreamRun) (r : TokenRec) (translates : Bool) (s : State) : State :=
  let cq := CqRef.num (Fin.ofNat 262144 x.target)
  match x.lead, s.cq cq with
  | some l, _ => recordTaken n (s.emit (.memberRecord l x.target r.word r.status))
  | none, none => s
  | none, some y =>
    if !s.host.linkUp || s.frozen qmgrPage || cqFull y || !y.waiting.isEmpty then s
    else if !translates then recordTaken n (s.error hostPage 0x0122 0 x.target)
    else recordTaken n (writeEntry cq y ⟨r.word, 0, 0, r.status, 0, false, true⟩ s)

end Sys2Proof.Machine
end

