-- ==== Sys2Proof/Machine/Sigc.lean ====
section
/-! DEFINITION. The signal cores' own instructions (R189 to R209), their events and DMA channels, and ENABLE of a signal core
(R190). -/

namespace Sys2Proof.Machine

/-- shr_rne of R194. -/
def shrRne (x : Int) (n : Nat) : Int := if n > 39 then 0 else roundEven x n

/-- The products of one multiply-accumulate, by part of the accumulator (R194). -/
def macProducts (op : MacOp) (a b : List Int) : List Int :=
  (List.range 32).map fun j =>
    let re := fun (l : List Int) => l.getD (j / 2 * 2) 0
    let im := fun (l : List Int) => l.getD (j / 2 * 2 + 1) 0
    match op with
    | .rmac => a.getD j 0 * b.getD j 0
    | .cmac => if j % 2 = 0 then re a * re b - im a * im b else re a * im b + im a * re b
    | .cmacj => if j % 2 = 0 then re a * re b + im a * im b else im a * re b - re a * im b

/-- A part of an accumulator; an empty one holds zeros. -/
def accPart (x : SAcc) (j : Nat) : Int := if x.empty then 0 else x.parts.getD j 0

/-- CMAC, CMACJ and RMAC on two d values (R194): the accumulator, and whether SAT and POISON are set. -/
def macStep (op : MacOp) (x : SAcc) (da db : DReg) : SAcc × Bool × Bool :=
  if x.poison then (x, false, false)
  else if dPoison da ∨ dPoison db then ({ x with poison := true }, false, true)
  else
    let ep := da.exp.toInt + db.exp.toInt
    let r := if x.empty then ep else max x.scale ep
    let ps := macProducts op (dElems da) (dElems db)
    let vs := ps.mapIdx fun j p =>
      if x.empty then p else shrRne (accPart x j) (r - x.scale).toNat + shrRne p (r - ep).toNat
    let lim : Int := 2 ^ 39 - 1
    ({ parts := vs.map (clampSym lim), scale := r, empty := false, poison := false },
      vs.any (fun v => decide (v > lim ∨ v < -lim)), false)

/-- Accumulate into a register and set the flags; the instruction is complete but for the program counter. -/
def macInto (k acc : Nat) (op : MacOp) (da db : DReg) (s : State) : State :=
  let r := macStep op (getAcc (s.sigc k) acc) da db
  sFlags k r.2.1 r.2.2 (s.setSigc k (setAcc acc r.1 (s.sigc k)))

/-- CMAC, CMACJ, RMAC (R194, R195). -/
def execCmac (k : Fin 64) (op : MacOp) (acc : Fin 8) (da db : Fin 64) (s : State) : Host.Outcome State Fault Refusal :=
  .next (runSInsn k (fun t => sDone k (macInto k acc op (getD (t.sigc k) da) (getD (t.sigc k) db) t)) s)

/-- ACLR (R194). -/
def execAclr (k : Fin 64) (acc : Fin 8) (s : State) : Host.Outcome State Fault Refusal :=
  .next (runSInsn k (fun t =>
    sDone k (t.setSigc k (setAcc acc { getAcc (t.sigc k) acc with empty := true, poison := false, parts := [] } (t.sigc k)))) s)

/-- The block that SST forms (R196), and whether SAT is set. DEDUCED: log entry 49. -/
def sstBlock (form : SstForm) (x : SAcc) : DReg × Bool :=
  if x.poison then (⟨0, 0x80⟩, false)
  else
    let ps := (List.range 32).map (accPart x)
    match form with
    | .norm =>
      let o := storeExact 16 false (ps.map fun v => (v, x.scale))
      (⟨dPack o.elems, o.exp⟩, o.sat)
    | .fixed shift =>
      let e0 := x.scale + shift.val
      let e := max (-127) (min 127 e0)
      let form := fun v => if e - x.scale < 0 then v * 2 ^ (x.scale - e).toNat else shrRne v (e - x.scale).toNat
      let ms := ps.map form
      let sat := decide (e0 > 127) || ms.any fun m => decide (m.natAbs > 32767)
      let out := ms.map (clampSym 32767)
      (⟨dPack out, if out.all (· == 0) then 0x81 else BitVec.ofInt 8 e⟩, sat)

/-- SST (R196): the accumulator is left as it is. -/
def execSst (k : Fin 64) (acc : Fin 8) (dd : Fin 64) (form : SstForm) (s : State) : Host.Outcome State Fault Refusal :=
  .next (runSInsn k (fun t =>
    let x := getAcc (t.sigc k) acc
    let r := sstBlock form x
    sDone k (sFlags k r.2 x.poison (t.setSigc k (setD dd r.1 (t.sigc k))))) s)

/-- What a line access meets (R198, R210): a trap with its detail, or nothing. DEDUCED: log entry 49. -/
def lineTrap (a : BitVec 64) : Option (Nat × Nat) :=
  if a.toNat % 64 ≠ 0 then some (0x03, a.toNat) else if a.toNat ≥ 2 ^ 19 then some (0x04, a.toNat) else none

/-- A line with its tag as ZLD delivers it (R191, R193): poisoned where a word of it or its tag cannot be read; the elements of a poisoned
register are a free value. DEDUCED: log entry 49. -/
def readLine (s : State) (k a : Nat) : DReg :=
  match readAll .dmem s.mem.dmem (dmemKey k a) 64, readByte .tag s.mem.tags (tagKey k a) with
  | some b, some t => ⟨BitVec.ofNat 512 (leNat b), t⟩
  | _, _ => ⟨s.free 512, 0x80⟩

/-- Write a line and its tag. -/
def writeLine (k a : Nat) (v : DReg) (s : State) : State :=
  (s.store .dmem (dmemKey k a) (toBytes 64 v.data.toNat)).store .tag (tagKey k a) [v.exp]

/-- What a read of a line with its tag does to the state: errors in either are corrected or counted (R189, R521, R522). -/
def touchLine (k a : Nat) (s : State) : State := (s.readEffect .dmem (dmemKey k a) 64).readEffect .tag (tagKey k a) 1

/-- A line instruction's common checks: the step is legal, and each line lies where it may (R198). f gets the modified address. -/
def lineInsn (k : Nat) (a : Nat) (step : Int) (f : BitVec 64 → State → State) (s : State) : State :=
  let x := s.sigc k
  match postModify (getK x a) (getA x a) (s.free 64 1) 64 step with
  | none => sIllegal k s
  | some next =>
    match lineTrap (getA x a) with
    | some (cause, detail) => strap k cause detail s
    | none => sDone k (dmemWait k false ((f next s).usedFree 2))

/-- ZLD (R193): a line and its tag into a d register. -/
def zldBody (k a dd : Nat) (post : BitVec 64) (s : State) : State :=
  lineInsn k a post.toInt (fun next t =>
    let at_ := (getA (t.sigc k) a).toNat
    let v := readLine t k at_
    let t := touchLine k at_ t
    t.setSigc k (setA a next (setD dd v (t.sigc k)))) s

/-- ZLD. -/
def execZld (k : Fin 64) (dd : Fin 64) (a : Fin 16) (post : BitVec 64) (s : State) : Host.Outcome State Fault Refusal :=
  .next (runSInsn k (zldBody k a dd post) s)

/-- ZST (R193): a d register and its exponent as a line and tag. -/
def zstBody (k ds a : Nat) (post : BitVec 64) (s : State) : State :=
  lineInsn k a post.toInt (fun next t =>
    let t := writeLine k (getA (t.sigc k) a).toNat (getD (t.sigc k) ds) t
    t.setSigc k (setA a next (t.sigc k))) s

/-- ZST. -/
def execZst (k : Fin 64) (ds : Fin 64) (a : Fin 16) (post : BitVec 64) (s : State) : Host.Outcome State Fault Refusal :=
  .next (runSInsn k (zstBody k ds a post) s)

/-- Lane 0 of a coefficient line for every channel (R199). -/
def lane0All (v : DReg) : DReg :=
  { v with data := dPack ((List.range 32).map fun j => (dElems v).getD (j % 2) 0) }

/-- TAPM and TAPMB (R199, R200): one tap, and the sample moves one line down; three lines that do not lie in three banks wait. -/
def tapmBody (k acc : Nat) (lane0 : Bool) (ac ax : Nat) (s : State) : State :=
  let x := s.sigc k
  let a1 := getA x ac
  let a2 := getA x ax
  let m2 := getK x ax
  match postModify (getK x ac) a1 (s.free 64 2) 64 64, postModify m2 a2 (s.free 64 3) 64 64,
      postModify m2 a2 (s.free 64 4) 64 (-64) with
  | some next1, some dest, some next2 =>
    match [a1, a2, dest].findSome? lineTrap with
    | some (cause, detail) => strap k cause detail s
    | none =>
      let c := readLine s k a1.toNat
      let v := readLine s.usedFree k a2.toNat
      let t := touchLine k a2.toNat (touchLine k a1.toNat s)
      let t := macInto k acc .cmac v (if lane0 then lane0All c else c) t
      let t := writeLine k dest.toNat v t
      let y := setA ac next1 (t.sigc k)
      let last := if ac = ax then (postModify m2 next1 (s.free 64 4) 64 (-64)).getD next2 else next2
      let waits := decide (bankOf a1 = bankOf a2 ∨ bankOf a1 = bankOf dest ∨ bankOf a2 = bankOf dest)
      sDone k (dmemWait k waits ((t.setSigc k (setA ax last y)).usedFree 5))
  | _, _, _ => sIllegal k s

/-- TAPM. -/
def execTapm (k : Fin 64) (lane0 : Bool) (acc : Fin 8) (ac ax : Fin 16) (s : State) : Host.Outcome State Fault Refusal :=
  .next (runSInsn k (tapmBody k acc lane0 ac ax) s)

/-- The innermost active level outside level n. -/
def enclosing (x : Sigc) (n : Nat) : Option LoopLevel :=
  ((List.range n).reverse.map (levelOf x)).find? (·.active)

/-- LOOP (R202): a level that is active, one outside an active level, and an end past the enclosing level's end trap with LOOP_NEST; a count
of 0 skips the body. DEDUCED: log entry 49. -/
def loopBody (k n : Nat) (count : LoopCount) (last : BitVec 16) (s : State) : State :=
  let x := s.sigc k
  let cnt : BitVec 32 := match count with
    | .imm v => v.setWidth 32
    | .reg a => (getA x a).setWidth 32
  let past : Bool := match enclosing x n with
    | some l => decide (last.toNat > l.last.toNat)
    | none => false
  if ((List.range 3).any fun j => decide (n ≤ j) && (levelOf x j).active) || past then strap k 0x10 x.pc.toNat s
  else if cnt = 0 then s.setSigc k { x with pc := last + 4 }
  else
    let y := sNext x
    s.setSigc k { y with loops := y.loops.set n ⟨true, x.pc + 4, last, cnt⟩ }

/-- LOOP. -/
def execLoop (k : Fin 64) (level : Fin 3) (count : LoopCount) (last : BitVec 16) (s : State) :
    Host.Outcome State Fault Refusal :=
  .next (runSInsn k (loopBody k level count last) s)

/-- The 48-byte image of LSAVE (R206). -/
def loopImage (x : Sigc) : List Byte :=
  let active := (List.range 3).foldl (fun t i => if (levelOf x i).active then t + 2 ^ i else t) 0
  toBytes 2 0x4C53 ++ toBytes 1 active ++ toBytes 1 x.iprio ++ toBytes 2 x.ipc.toNat ++ toBytes 2 0 ++
    ((List.range 3).map fun i =>
      let l := levelOf x i
      toBytes 2 l.start.toNat ++ toBytes 2 l.last.toNat ++ toBytes 4 l.count.toNat).flatten ++ toBytes 16 0

/-- LSAVE (R206): a reserved MODE of the modifier traps with ILLEGAL (R198). DEDUCED: log entry 51. -/
def lsaveBody (k a : Nat) (s : State) : State :=
  let x := s.sigc k
  let at_ := (getA x a).toNat
  if kMode (getK x a) = 3 then sIllegal k s
  else if at_ + 48 > 2 ^ 19 then strap k 0x04 at_ s
  else
    let t := s.store .dmem (dmemKey k at_) (loopImage x)
    let y := t.sigc k
    let y := setA a (getA x a + 48) { y with loops := y.loops.map fun l => { l with active := false }, loopHold := false }
    sDone k (t.setSigc k y)

/-- LSAVE. -/
def execLsave (k : Fin 64) (a : Fin 16) (s : State) : Host.Outcome State Fault Refusal :=
  .next (runSInsn k (lsaveBody k a) s)

/-- The loop state that an image holds (R206): none where LRESTORE traps with LOOP_STATE. -/
def imageState (b : List Byte) (x : Sigc) : Option Sigc :=
  let n := fun off len => leNat ((b.drop off).take len)
  let active := n 2 1
  let prio := n 3 1
  let on := fun i => active.testBit i
  if n 0 2 ≠ 0x4C53 ∨ active ≥ 8 ∨ prio ≥ 8 ∨ n 6 2 ≠ 0 ∨ n 32 16 ≠ 0 ∨ (on 1 ∧ !on 0) ∨ (on 2 ∧ !on 1) ∨ prio > 4 then none
  else some { x with
    loops := (List.range 3).map fun i =>
      ⟨on i, BitVec.ofNat 16 (n (8 + 8 * i) 2), BitVec.ofNat 16 (n (10 + 8 * i) 2), BitVec.ofNat 32 (n (12 + 8 * i) 4)⟩
    ipc := BitVec.ofNat 16 (n 4 2), iprio := prio, loopHold := true }

/-- LRESTORE (R206): a reserved MODE traps with ILLEGAL (R198), and a raw load of a word that cannot be read traps with DATA_UE (R191).
DEDUCED: log entry 51. -/
def lrestoreBody (k a : Nat) (s : State) : State :=
  let x := s.sigc k
  let na := getA x a - 48
  let at_ := na.toNat
  if kMode (getK x a) = 3 then sIllegal k s
  else if at_ + 48 > 2 ^ 19 then strap k 0x04 at_ s
  else
    let t := s.readEffect .dmem (dmemKey k at_) 48
    match readAll .dmem s.mem.dmem (dmemKey k at_) 48 with
    | none => strapDataUe k at_ t
    | some b =>
      match imageState b (t.sigc k) with
      | none => strap k 0x11 at_ t
      | some y => sDone k (t.setSigc k (setA a na y))

/-- LRESTORE. -/
def execLrestore (k : Fin 64) (a : Fin 16) (s : State) : Host.Outcome State Fault Refusal :=
  .next (runSInsn k (lrestoreBody k a) s)

/-- RETI (R206). -/
def execReti (k : Fin 64) (s : State) : Host.Outcome State Fault Refusal :=
  .next (runSInsn k (fun t =>
    let x := t.sigc k
    t.setSigc k { x with prio := x.iprio, loopHold := false, ie := true, pc := x.ipc }) s)

/-- EI (R207). -/
def execEi (k : Fin 64) (s : State) : Host.Outcome State Fault Refusal :=
  .next (runSInsn k (fun t => sDone k (t.setSigc k { t.sigc k with ie := true })) s)

/-- DI (R207). -/
def execDi (k : Fin 64) (s : State) : Host.Outcome State Fault Refusal :=
  .next (runSInsn k (fun t => sDone k (t.setSigc k { t.sigc k with ie := false })) s)

/-- ALARM (R209): armed for the time in aS; one already passed fires at once. -/
def alarmBody (k n a : Nat) (s : State) : State :=
  let x := s.sigc k
  let v := getA x a
  let t := s.setSigc k { x with alarms := if s.now % 2 ^ 64 ≥ v.toNat then tabDel n x.alarms else tabSet n v x.alarms }
  sDone k (if s.now % 2 ^ 64 ≥ v.toNat then sEvent k (2 + n) t else t)

/-- ALARM. -/
def execAlarm (k : Fin 64) (n : Fin 2) (a : Fin 16) (s : State) : Host.Outcome State Fault Refusal :=
  .next (runSInsn k (alarmBody k n a) s)

/-- ALARM_FIRE (R203): device time has reached an armed alarm. -/
def execAlarmFire (k : Fin 64) (n : Fin 2) (s : State) : Host.Outcome State Fault Refusal :=
  .next (match tabFind n.val (s.sigc k).alarms with
    | some v =>
      if s.working ∧ s.now % 2 ^ 64 ≥ v.toNat then
        sEvent k (2 + n.val) (s.setSigc k { s.sigc k with alarms := tabDel n (s.sigc k).alarms })
      else s
    | none => s)

/-- DOORBELL_RING (R203, R211): a write of 1 raises source 4. -/
def execDoorbellRing (who : Requester) (k : Fin 64) (value : BitVec 32) (s : State) : Host.Outcome State Fault Refusal :=
  .next (writeAccess who (sigcPage k) 0x64 (fun t => if value.getLsbD 0 then sEvent k 4 t else t) s)

/-- The priority of an event source (R204). -/
def eventPrio (s : State) (k src : Nat) : Nat :=
  s.reg (sigcPage k) (([Rg.sigcEventPrioPrio0, Rg.sigcEventPrioPrio1, Rg.sigcEventPrioPrio2, Rg.sigcEventPrioPrio3,
    Rg.sigcEventPrioPrio4] : List RegField).getD src Rg.sigcEventPrioPrio5)

/-- The pending event that would be taken first (R204). -/
def nextEvent (s : State) (k : Nat) : Option Nat :=
  let l := (List.range 6).filter fun e => (s.sigc k).events.contains e && decide (eventPrio s k e > (s.sigc k).prio)
  match l with
  | [] => none
  | e :: es => some (es.foldl (fun b d => if eventPrio s k d > eventPrio s k b then d else b) e)

/-- The program of a signal core is at an instruction boundary, or blocked in a wait, and may go on. -/
def sigcBoundary (s : State) (k : Nat) : Bool :=
  sigcReady s k ||
    (s.working && !s.flag (sigcPage k) Rg.sigcTrapCauseValid && s.flag (sigcPage k) Rg.pageStatusEnabled &&
      (blockedOf s (.sigc (Fin.ofNat 64 k))).isSome)

/-- INTERRUPT_TAKEN (R204, R205, R208): the event is taken; a wait that is blocked is abandoned and runs again. -/
def execInterruptTaken (k : Fin 64) (s : State) : Host.Outcome State Fault Refusal :=
  let x := s.sigc k
  .next (match nextEvent s k with
    | some e =>
      if sigcBoundary s k ∧ x.ie ∧ !x.loopHold then
        let t := leaveWaits (.sigc k) s
        t.setSigc k { x with
          ipc := x.pc, iprio := x.prio, prio := eventPrio s k e, ie := false, loopHold := true
          pc := BitVec.ofNat 16 (16 * (e + 1)), run := .running, events := x.events.erase e }
      else s
    | none => s)

/-- The block sizes of a DMA descriptor with ZBLOCKS (R192). -/
def dmaSizes : List Nat := [32, 48, 64]

/-- A DMA channel of a signal core, and setting it. -/
def dmaOf (s : State) (k ch : Nat) : StreamSlot := tabGet {} ch (s.sigc k).dma
def setDma (k ch : Nat) (v : StreamSlot) (s : State) : State :=
  s.setSigc k { s.sigc k with dma := tabPut {} ch v (s.sigc k).dma }

/-- SIGC.DMA_STATUS of a channel. -/
def dmaStatus (k ch state err : Nat) (s : State) : State :=
  s.setReg (sigcPage k) Rg.sigcDmaStatusState state ch |>.setReg (sigcPage k) Rg.sigcDmaStatusError err ch

/-- A channel halts (R158, R192): it records its state, DMA_HALT is raised, and its event source is raised (R203). -/
def dmaHalt (k ch code : Nat) (addr : Option Nat) (s : State) : State :=
  let v := dmaOf s k ch
  let t := dmaStatus k ch 3 code (setDma k ch { v with queue := [], started := false, moved := 0 } s)
  let t := match addr with
    | some a => t.setReg (sigcPage k) Rg.sigcDmaErrorAddrAddress a ch
    | none => t
  sEvent k ch (t.raise (sigcPage k) 2)

/-- A signal core's channels run: it is neither frozen nor fenced; under FREEZE a descriptor that has begun goes on (R627). -/
def dmaRuns (s : State) (k : Nat) : Bool :=
  s.working && !s.flag (sigcPage k) Rg.pageStatusFrozen && !s.flag (sigcPage k) Rg.pageStatusFenced

/-- SIGC_DMA_START (R192): a channel that is not running begins the descriptor at an address of the data memory; a descriptor
that is misaligned, has a field out of range or a block size other than 32, 48 or 64 halts it with DESCRIPTOR. -/
def execSigcDmaStart (k : Fin 64) (ch : Fin 2) (addr : BitVec 19) (s : State) : Host.Outcome State Fault Refusal :=
  let v := dmaOf s k ch
  let key := dmemKey k addr.toNat
  .next (if dmaRuns s k ∧ !s.frozen (sigcPage k) ∧ v.queue.isEmpty then
      let t := s.readEffect .dmem key 64
      match readAll .dmem s.mem.dmem key 64 with
      | none => dmaHalt k ch 1 none (t.error (sigcPage k) 0x0503 ch addr.toNat)
      | some b =>
        let d := BitVec.ofNat 512 (leNat b)
        if addr.toNat % 64 ≠ 0 ∨ (leastOf (streamFieldErrs d dmaSizes (2 ^ 19))).isSome then dmaHalt k ch 4 none t
        else dmaStatus k ch 1 0 (setDma k ch { v with queue := [⟨d, 0, none⟩], started := true, moved := 0 } t)
    else s)

/-- Units that a channel moves: lines, or with ZBLOCKS blocks, each of which is one line of the data memory (R192). -/
def dmaUnit (p : StreamDesc) : Nat := if p.zblocks then p.blockBytes else 64
def dmaCount (p : StreamDesc) : Nat := 64 * streamLines p / dmaUnit p

/-- The line of the pattern in which unit n begins, and where in that line. -/
def dmaLine (p : StreamDesc) (n : Nat) : Nat × Nat := (dmaUnit p * n / 64, dmaUnit p * n % 64)

/-- The memory offset of unit n, from MEM_ADDR; none where its gather index cannot be read. -/
def dmaOffset (s : State) (k : Nat) (p : StreamDesc) (n : Nat) : Option Int :=
  let l := dmaLine p n
  (lineIndex s .dmem (dmemKey k 0) p l.1).map fun i1 => lineOffset p l.1 i1 + l.2

/-- The memory addresses of unit n: its elements, and its exponent. -/
def dmaAddr (p : StreamDesc) (off : Int) : Nat × Nat := (addrAt p.mem off, addrAt p.scaleMem (off / (max 1 p.blockBytes : Nat)))

/-- What unit n of a channel meets. -/
def dmaMeets (s : State) (k part : Nat) (p : StreamDesc) (base n : Nat) : LineMeets :=
  match dmaOffset s k p n with
  | none => .halts 1 (indexPlace p (dmaLine p n).1)
  | some off =>
    let a := dmaAddr p off
    if p.out then
      let raw := if !p.zblocks && (readAll .dmem s.mem.dmem (dmemKey k (ringLine p base n)) 64).isNone then LineMeets.halts 1 a.1 else .moves
      meetBoth raw (meetBoth (writeMeets s part a.1 (dmaUnit p)) (if p.zblocks then writeMeets s part a.2 1 else .moves))
    else meetBoth (readMeets s part a.1 (dmaUnit p) (!p.zblocks)) (if p.zblocks then readMeets s part a.2 1 false else .moves)

/-- Move unit n into the ring (R192): a block from lane 0 upward with zeros after it and its exponent as the tag; a raw line leaves
the tag as it is. -/
def dmaIn (k part : Nat) (p : StreamDesc) (base n : Nat) (off : Int) (s : State) : State :=
  let a := dmaAddr p off
  let b := readOpt s part a.1 (dmaUnit p)
  let t := s.partTouch part a.1 (dmaUnit p) p.cacheHint
  let data := b.mapIdx fun i o => o.getD ((s.free 512).extractLsb' (8 * i) 8)
  let line := data ++ List.replicate (64 - dmaUnit p) 0
  if p.zblocks then
    let e := (readOpt s part a.2 1).getD 0 none
    let t := t.partTouch part a.2 1 p.cacheHint
    (writeLine k (ringLine p base n) ⟨BitVec.ofNat 512 (leNat line), if b.any Option.isNone then 0x80 else e.getD 0x80⟩ t).usedFree
  else (t.store .dmem (dmemKey k (ringLine p base n)) line).usedFree

/-- Move unit n out of the ring (R192): elements beyond the block are dropped, and the tag is the block's exponent. -/
def dmaOut (k part : Nat) (p : StreamDesc) (base n : Nat) (off : Int) (s : State) : State :=
  let a := dmaAddr p off
  let v := readLine s k (ringLine p base n)
  let t := touchLine k (ringLine p base n) s
  let raw := (readAll .dmem s.mem.dmem (dmemKey k (ringLine p base n)) 64).getD (toBytes 64 v.data.toNat)
  let t := (t.partStore part a.1 ((if p.zblocks then toBytes 64 v.data.toNat else raw).take (dmaUnit p))).usedFree
  if p.zblocks then t.partStore part a.2 [v.exp] else t

/-- The running descriptor of a channel and the partition that owns the core. -/
def runningDma (s : State) (k ch : Nat) : Option (StreamSlot × StreamDesc × Option Nat) :=
  let v := dmaOf s k ch
  match v.queue with
  | q :: _ => if v.started && dmaRuns s k then some (v, streamDesc q.desc, ownerOfSigc s k) else none
  | [] => none

/-- SIGC_DMA_LINE (R157, R192): one line moves. -/
def execSigcDmaLine (k : Fin 64) (ch : Fin 2) (s : State) : Host.Outcome State Fault Refusal :=
  .next (match runningDma s k ch with
    | some (v, p, some part) =>
      if v.moved < dmaCount p ∧ ringAllows p v then
        match dmaMeets s k part p (ringBase v) v.moved, dmaOffset s k p v.moved with
        | .moves, some off =>
          let t := if p.out then dmaOut k part p (ringBase v) v.moved off s else dmaIn k part p (ringBase v) v.moved off s
          setDma k ch { v with moved := v.moved + 1, produced := v.produced + 1 } t
        | .waits, some off =>
          if p.out then s
          else
            let t := s.partTouch part (dmaAddr p off).1 (dmaUnit p) p.cacheHint
            if p.zblocks then t.partTouch part (dmaAddr p off).2 1 p.cacheHint else t
        | _, _ => s
      else s
    | _ => s)

/-- SIGC_DMA_DONE (R192, R203). -/
def execSigcDmaDone (k : Fin 64) (ch : Fin 2) (s : State) : Host.Outcome State Fault Refusal :=
  .next (match runningDma s k ch with
    | some (v, p, _) =>
      if v.moved = dmaCount p then
        sEvent k ch (dmaStatus k ch 2 0 (setDma k ch { v with queue := [], started := false, moved := 0 } s))
      else s
    | none => s)

/-- SIGC_DMA_HALT (R158, R192, R203): the next line meets an error; a core that no partition owns translates nothing. -/
def execSigcDmaHalt (k : Fin 64) (ch : Fin 2) (s : State) : Host.Outcome State Fault Refusal :=
  .next (match runningDma s k ch with
    | some (_, p, none) => dmaHalt k ch 2 (some p.mem) s
    | some (v, p, some part) =>
      if v.moved < dmaCount p ∧ ringAllows p v then
        match dmaMeets s k part p (ringBase v) v.moved with
        | .halts code addr =>
          let t := match dmaOffset s k p v.moved with
            | some off =>
              if code = 2 then s.faultTouch part addr 1 p.out
              else if code = 1 ∧ !p.out then s.partTouch part (dmaAddr p off).1 (dmaUnit p) p.cacheHint else s
            | none => s
          dmaHalt k ch code (some addr) (if code = 1 then t.error (sigcPage k) 0x0503 ch addr else t)
        | _ => s
      else s
    | none => s)

/-- The program of a signal core starts at address 0 (R190): no loop level, event, alarm or trap is left of an earlier program, and lines
are counted from now on (R192, R209). DEDUCED: log entry 51. -/
def startProgram (k : Nat) (s : State) : State :=
  let x := s.sigc k
  let t := s.setReg (sigcPage k) Rg.sigcTrapCauseValid 0 |>.setReg (sigcPage k) Rg.sigcIngressProducedCount 0
  t.setSigc k { x with
    loops := [{}, {}, {}], ie := false, loopHold := false, prio := 0, iprio := 0, ipc := 0, pc := 0, run := .running
    events := [], alarms := [], ingressReturned := 0, locks := 0, lateGrants := []
    dma := x.dma.map fun e => (e.1, { e.2 with produced := 0, returned := 0 }) }

/-- Whether a program of a signal core runs. -/
def programRuns (x : Sigc) : Bool :=
  match x.run with
  | .running | .blocked _ => true
  | _ => false

/-- ENABLE of a signal core's page (R190, R627): setting it starts the program, clearing it ends the program. -/
def setSigcEnable (k : Nat) (on : Bool) (s : State) : State :=
  let p := sigcPage k
  let t := s.setReg p Rg.pageControlEnable (bit on) |>.setReg p Rg.pageStatusEnabled (bit on)
  if on then if programRuns (s.sigc k) then t else startProgram k t
  else
    let u := if programRuns (s.sigc k) then endProgram k t else t
    u.setSigc k { u.sigc k with run := .idle }

/-- SIGC_ENABLE (R190). DEDUCED: log entry 16. -/
def execSigcEnable (who : Requester) (k : Fin 64) (on : Bool) (s : State) : Host.Outcome State Fault Refusal :=
  .next (writeAccess who (sigcPage k) 0x10 (setSigcEnable k on) s)

end Sys2Proof.Machine
end

