-- ==== Sys2Proof/Machine/Time.lean ====
section
/-! DEFINITION. The time unit (R33, R36, R488 to R494, R596, R619): the tick, the servo, steps, holdover, and the time pins. -/

namespace Sys2Proof.Machine

/-- A number as a two's-complement field of 64 bits. -/
def int64 (x : Int) : Nat := (BitVec.ofInt 64 x).toNat

/-- A register field as a signed number. -/
def State.sreg (s : State) (p : Page) (f : RegField) : Int :=
  let v := s.reg p f
  if v < 2 ^ (f.len - 1) then v else (v : Int) - 2 ^ f.len

/-- The frequency correction y, in 2⁻⁴⁸ (R492). -/
def freqY (s : State) : Int := s.sreg timePage Rg.timeFreqAdjY

/-- Units of TimeUnit.sub in a second. -/
def unitsPerSec : Nat := 1000000000 * unitsPerNs

/-- Device time in units of TimeUnit.sub. -/
def timeUnits (s : State) : Nat := s.time.sec * unitsPerSec + s.time.sub

/-- Set device time; its seconds count modulo 2⁴⁸ (R32). -/
def setUnits (u : Int) (s : State) : State :=
  let v := (u % ((2 ^ 48 * unitsPerSec : Nat) : Int)).toNat
  { s with time := { s.time with sec := v / unitsPerSec, sub := v % unitsPerSec } }

/-- What one tick adds: 0.8 ns × (1 + y) (R33, R492). DESIGN CHOICE: log entry 108. -/
def tickUnits (s : State) : Int := 4 * 2 ^ 48 + 4 * freqY s

/-- A forced step counts when it is taken (R493). -/
def countForced (s : State) : State := s.when s.time.forced fun t => t.bump timePage Rg.timeStepsCount

/-- One tick of the 1.25 GHz clock (R33): device time grows, and a step or a TIME_LOAD that waits for the tick is taken (R492, R493, R596).
DESIGN CHOICE: log entry 2. -/
def tick (s : State) : State :=
  if !s.alive then s
  else
    let t := countForced s
    match s.time.loadSec with
    | some v => { t with time := { t.time with sec := v, sub := 0, loadSec := none, step := 0, forced := false } }
    | none =>
      setUnits ((timeUnits s : Int) + tickUnits s + s.time.step * (5 * 2 ^ 32))
        { t with time := { t.time with step := 0, forced := false } }

/-- Clamp y to ±200 ppm (R492). -/
def clampY (y : Int) : Int :=
  let lim : Int := 2 ^ 48 * 200 / 1000000
  max (-lim) (min lim y)

/-- Set y. -/
def setY (y : Int) (s : State) : State := s.setReg timePage Rg.timeFreqAdjY (int64 (clampY y))

/-- num / den in 2⁻⁴⁸: how the last place is rounded is not stated. DESIGN CHOICE: log entry 98. -/
def servoQuot (num : Int) (den : Nat) (up : BitVec 1) : Int :=
  num / den + (if num % den ≠ 0 ∧ up = 1 then 1 else 0)

/-- gain × θ / T in 2⁻⁴⁸, from a gain of TIME.SERVO_GAIN, θ in 2⁻¹⁶ ns and T in ns (R492). -/
def servoTerm (gain : Nat) (theta : Int) (tNs : Nat) (up : BitVec 1) : Int := servoQuot (gain * theta * 65536) (max 1 tNs) up

/-- The servo state after a sample (R494): LOCKED with the last 16 within SLEW_LIMIT / 4. -/
def lockState (theta : Int) (slew : Nat) (s : State) : State :=
  let n := if 4 * theta.natAbs ≤ slew then s.time.good + 1 else 0
  let was := s.reg timePage Rg.timeServoStatusState
  let now := if n ≥ 16 then 2 else 1
  let t := { s with time := { s.time with good := min n 16, acceptedAt := s.now } }
  (t.setReg timePage Rg.timeServoStatusState now).raiseBits timePage (if now = 2 ∧ was ≠ 2 then 8 else 0)

/-- A phase sample θ in 2⁻¹⁶ ns (R492, R494): refused beyond STEP_LIMIT, a step beyond SLEW_LIMIT, slewed otherwise. A sample taken before a
forced step that waits for its tick is discarded (R493). The first sample has no interval; what it acts as is open. DESIGN CHOICE: log entry
98. -/
def servo (theta : Int) (s : State) : State :=
  if s.time.forced then s
  else
    let limit := s.reg timePage Rg.timeStepLimitNano * 65536
    let slew := min (s.reg timePage Rg.timeSlewLimitNano * 65536) limit
    let tNs := match s.time.sampleAt with
      | some at_ => s.now - at_
      | none => 1 + (s.free 31 2).toNat
    let t := { s with time := { s.time with sampleAt := some s.now } }.setReg timePage Rg.timeLastOffsetOffset (int64 theta)
    let t := t.usedFree 3
    if theta.natAbs > limit then (t.bump timePage Rg.timeStepsRefusedCount).raise timePage 1
    else if theta.natAbs > slew then
      lockState theta slew ({ t with time := { t.time with step := t.time.step - theta } }.bump timePage Rg.timeStepsCount)
    else
      let integ := s.time.integ + servoTerm (s.reg timePage Rg.timeServoGainKi) theta tNs (s.free 1 0)
      let prop := servoTerm (s.reg timePage Rg.timeServoGainKp) theta tNs (s.free 1 1)
      lockState theta slew (setY (s.time.yf - (prop + integ)) { t with time := { t.time with integ := integ } })


/-- STEP_FORCE_WRITE (R493): the step is taken at the next tick whatever its size, and keeps the integral. -/
def execStepForceWrite (who : Requester) (value : BitVec 64) (s : State) : Host.Outcome State Fault Refusal :=
  .next (writeAccess who timePage 0x070 (fun s =>
    { s with time := { s.time with step := s.time.step + value.toInt, forced := true } }) s)

/-- OFFSET_IN_WRITE (R493): a sample under PHASE_SOURCE 2, else 0x0371. -/
def execOffsetInWrite (who : Requester) (value : BitVec 64) (s : State) : Host.Outcome State Fault Refusal :=
  .next (writeAccess who timePage 0x068 (fun s =>
    if s.reg timePage Rg.timeSourceControlPhaseSource = 2 then servo value.toInt s else s.error timePage 0x0371 0 0x068) s)

/-- The servo enters HOLDOVER: y = y_f − integ, with the integral frozen (R494). -/
def enterHoldover (s : State) : State :=
  ((setY (s.time.yf - s.time.integ) s).setReg timePage Rg.timeServoStatusState 3).raise timePage 2

/-- HOLDOVER_ENTRY (R494): no accepted sample for HOLD_TIME, from ACQUIRING or LOCKED. -/
def execHoldoverEntry (s : State) : Host.Outcome State Fault Refusal :=
  let st := s.reg timePage Rg.timeServoStatusState
  .next (if s.alive ∧ (st = 1 ∨ st = 2) ∧ s.now ≥ s.time.acceptedAt + 1000000 * s.reg timePage Rg.timeHoldTimeMillis then
      enterHoldover s
    else s)

/-- Set y_f; in FREE_RUN and HOLDOVER y follows it at once (R494). -/
def setYf (y : Int) (s : State) : State :=
  let t := { s with time := { s.time with yf := y } }
  let st := s.reg timePage Rg.timeServoStatusState
  if st = 0 then setY y t else if st = 3 then setY (y - s.time.integ) t else t

/-- FREQ_SOURCE_LOSS (R494): FREQ_LOSS is raised; in holdover y_f is frozen at its average over the last 100 s, and it is 0 without a source
otherwise (R492). -/
def execFreqSourceLoss (average : Int) (s : State) : Host.Outcome State Fault Refusal :=
  .next (if s.alive ∧ s.flag timePage Rg.timeServoStatusFreqValid then
      (setYf (if s.reg timePage Rg.timeServoStatusState = 3 then average else 0)
        (s.setReg timePage Rg.timeServoStatusFreqValid 0)).raise timePage 4
    else s)

/-- FREQ_SOURCE_VALID (R490, R494). -/
def execFreqSourceValid (y : Int) (s : State) : Host.Outcome State Fault Refusal :=
  let src := s.reg timePage Rg.timeSourceControlFreqSource
  .next (if s.alive ∧ (src = 1 ∨ src = 2) then setYf y (s.setReg timePage Rg.timeServoStatusFreqValid 1) else s)

/-- A write of SOURCE_CONTROL chooses the sources (R494): without a phase source the servo runs free, and without a frequency source y_f
is 0. -/
def setSources (v : Nat) (s : State) : State :=
  let old := s.reg timePage Rg.timeSourceControlPhaseSource
  let t := s.setReg timePage Rg.timeSourceControlPhaseSource v |>.setReg timePage Rg.timeSourceControlFreqSource (v / 2 ^ 3)
    |>.setReg timePage Rg.timeSourceControlFreqOption (v / 2 ^ 5) |>.setReg timePage Rg.timeSourceControlRecovPort (v / 2 ^ 8)
    |>.setReg timePage Rg.timeSourceControlFreqOut (v / 2 ^ 16)
  let t := if t.reg timePage Rg.timeSourceControlFreqSource = 0 then
      setYf 0 (t.setReg timePage Rg.timeServoStatusFreqValid 0) else t
  if v % 8 = old then t
  else if v % 8 = 0 then setY t.time.yf (t.setReg timePage Rg.timeServoStatusState 0)
  else
    { t with time := { t.time with good := 0, acceptedAt := t.now, sampleAt := none } }.setReg timePage Rg.timeServoStatusState 1

/-- The 96-bit layout of R32 in 2⁻¹⁶ ns. -/
def timeFine (t : BitVec 96) : Nat := t.toNat / 2 ^ 48 * (1000000000 * 65536) + t.toNat % 2 ^ 48

/-- The difference of two times in 2⁻¹⁶ ns. -/
def timeDiff (a b : BitVec 96) : Int := (timeFine a : Int) - timeFine b

/-- The mean path delay over the last 16 exchanges (R489), from twice the delay of each. How the average's last place is rounded is not
stated. DESIGN CHOICE: log entry 98. -/
def notePath (twice : Int) (s : State) : State :=
  let l := (twice :: s.time.paths).take 16
  let mean := servoQuot (l.foldl (· + ·) 0) (2 * l.length) (s.free 1)
  ({ s with time := { s.time with paths := l } }.setReg timePage Rg.timeMeanPathDelay (int64 mean)).usedFree

/-- SERVO_SAMPLE (R489, R492): with PHASE_SOURCE 1 the PTP engine pairs a Sync of the slave port, t1 and t2 with correctionField applied,
and an exchange of Delay_Req and Delay_Resp, t3 and t4, where one has ended; what lies on both sides of a step is discarded. While the
controller restarts no Delay_Req is sent and the mean path delay holds (R569). DESIGN CHOICE: log entry 98. -/
def execServoSample (t1 t2 : BitVec 96) (exchange : Option (BitVec 96 × BitVec 96)) (across : Bool) (s : State) :
    Host.Outcome State Fault Refusal :=
  .next (if s.alive ∧ !s.frozen timePage ∧ s.reg timePage Rg.timeSourceControlPhaseSource = 1 ∧ !across then
      let t := match exchange with
        | some (t3, t4) => if s.firmware then notePath (timeDiff t2 t1 + timeDiff t4 t3) s else s
        | none => s
      servo (timeDiff t2 t1 - t.sreg timePage Rg.timeMeanPathDelay) t
    else s)

/-- θ of a PPS_IN edge (R491): the edge less the nearest whole second and PPS_IN_DELAY. -/
def ppsTheta (edge : Nat) (delay : Int) : Int :=
  let sec := 1000000000 * 65536
  let e := edge % sec
  (if 2 * e ≥ sec then (e : Int) - sec else e) - delay

/-- PPS_IN_EDGE (R491, R619): an edge with both levels of 100 ns is accepted; one within 0.5 s of the last is not fed to the servo. -/
def execPpsInEdge (lowNs highNs : Nat) (edge : BitVec 96) (s : State) : Host.Outcome State Fault Refusal :=
  let e := timeFine edge
  let far : Bool := match s.time.ppsIn with
    | some l => decide (e ≥ l + 500000000 * 65536)
    | none => true
  .next (if s.alive ∧ lowNs ≥ 100 ∧ highNs ≥ 100 then
      let t := { s with time := { s.time with ppsIn := some e } }
      if far && s.reg timePage Rg.timeSourceControlPhaseSource == 3 then
        servo (ppsTheta e (s.sreg timePage Rg.timePpsInDelayDelay)) t
      else t
    else s)

/-- PPS_OUT_EDGE (R491): one edge for each whole second plus PPS_OUT_OFFSET, none repeated after a backward step. -/
def execPpsOutEdge (s : State) : Host.Outcome State Fault Refusal :=
  let n : Int := ((s.now : Int) - s.sreg timePage Rg.timePpsOutOffsetNano) / 1000000000
  let fresh : Bool := match s.time.ppsOut with
    | some m => decide (n > m)
    | none => true
  .next (if s.alive ∧ s.flag timePage Rg.timePpsOutEnable ∧ fresh then
      { s with time := { s.time with ppsOut := some n } }.emit (.pin .ppsOut)
    else s)

/-- A read of TIME.NOW latches all 96 bits of one tick (R497). -/
def latchNow (s : State) : State :=
  let v := s.timeBits.toNat
  s.setReg timePage Rg.timeNowSeconds (v / 2 ^ 48) |>.setReg timePage Rg.timeNowNanoNano (v / 2 ^ 16 % 2 ^ 32)
    |>.setReg timePage Rg.timeNowFracFraction v

/-- TIME_LOAD (R596): accepted once per reset, with no partition enabled; the seconds are set at the next tick. -/
def execTimeLoad (who : Requester) (seconds : BitVec 48) (s : State) : Host.Outcome State Fault Refusal :=
  .next (writeAccess who rsetPage 0x050 (fun s =>
    if s.time.loaded ∨ s.anyPart then s.error rsetPage 0x0903 0 0x050
    else { s with time := { s.time with loadSec := some seconds.toNat, loaded := true } }) s)

end Sys2Proof.Machine
end

