-- ==== Sys2Proof/Machine/Eth.lean ====
section
/-! DEFINITION. Ethernet ports (R470 to R476), the traffic manager (R477 to R481, R498, R499), policers (R482, R483, R500), transmit
timestamps (R484 to R487), and token frames (R345, R346). -/

namespace Sys2Proof.Machine

/-- A port's unshown state, and setting it. -/
def State.ethPort (s : State) (p : Nat) : EthPort := tabGet {} p s.eth.ports
def State.setEthPort (s : State) (p : Nat) (x : EthPort) : State := { s with eth := { s.eth with ports := tabPut {} p x s.eth.ports } }

/-- The page of a lane's group's first port (R470). -/
def groupPage (p : Nat) : Page := ethpPage (p / 8 * 8)

/-- Lanes of each port in a group mode, and whether a page is a port (R470). -/
def groupLanes (mode : Nat) : Nat := 8 / 2 ^ mode
def portInUse (s : State) (p : Nat) : Bool := p % groupLanes (s.reg (groupPage p) Rg.ethpConfigGroupMode) == 0

/-- PORT_STATUS.SPEED of a page (R496): 100, 200, 400 or 800 Gbit/s as 1 to 4; none where it is no port. -/
def portSpeed (s : State) (p : Nat) : Nat := if portInUse s p then 4 - s.reg (groupPage p) Rg.ethpConfigGroupMode else 0

/-- A port operates: it is in use, enabled and not held. -/
def portOn (s : State) (p : Nat) : Bool :=
  s.alive && portInUse s p && s.flag (ethpPage p) Rg.pageControlEnable && !s.frozen (ethpPage p)

/-- A write of ETHP[8g].CONFIG (R470, R496): GROUP_MODE changes only while every page of the group has ENABLE = 0; the other pages show
a copy. -/
def writeGroupMode (g value : Nat) (s : State) : State :=
  let page := ethpPage (8 * g)
  let t := s.setReg page Rg.ethpConfigInterface (value / 4) |>.setReg page Rg.ethpConfigAutoneg (value / 16)
    |>.setReg page Rg.ethpConfigMaxFrame (value / 2 ^ 16)
  if value % 4 = s.reg page Rg.ethpConfigGroupMode then t
  else if (List.range 8).any fun i => s.flag (ethpPage (8 * g + i)) Rg.pageControlEnable then t.error page 0x0361 0 0x040
  else t.each (List.range 8) fun i t => t.setReg (ethpPage (8 * g + i)) Rg.ethpConfigGroupMode (value % 4)

/-- GROUP_MODE_WRITE. -/
def execGroupModeWrite (who : Requester) (g : Fin 8) (value : BitVec 32) (s : State) : Host.Outcome State Fault Refusal :=
  .next (writeAccess who (ethpPage (8 * g.val)) 0x040 (writeGroupMode g.val value.toNat) s)

/-- ETH_LINK_CHANGE (R471, R496): the link of an enabled port comes up, or a link goes down. -/
def execEthLinkChange (p : Fin 64) (up : Bool) (s : State) : Host.Outcome State Fault Refusal :=
  let page := ethpPage p.val
  let was := s.flag page Rg.ethpPortStatusLinkUp
  .next (if !s.alive ∨ up = was ∨ (up ∧ !(portInUse s p.val && s.flag page Rg.pageControlEnable)) then s
    else (s.setReg page Rg.ethpPortStatusLinkUp (bit up)).when (!up) noteTraining |>.raise page (if up then 1 else 2))

/-! ### Timestamps -/

/-- A time of 2⁻¹⁶ ns units in the layout of R32; one before the epoch is its start. -/
def timeOf (fine : Int) : BitVec 96 :=
  let n := fine.toNat
  BitVec.ofNat 96 (n / (1000000000 * 65536) * 2 ^ 48 + n % (1000000000 * 65536))

/-- A timestamp taken at the lands, moved to the timestamp point (R484). -/
def rxStamp (s : State) (p : Nat) (t : BitVec 96) : BitVec 96 := timeOf ((timeFine t : Int) - signed 32 (s.reg (ethpPage p) Rg.ethpRxDelayDelay))
def txStamp (s : State) (p : Nat) (t : BitVec 96) : BitVec 96 := timeOf ((timeFine t : Int) + signed 32 (s.reg (ethpPage p) Rg.ethpTxDelayDelay))

/-- The time of a timestamp as RDTIME gives it. -/
def stampNs (t : BitVec 96) : Nat := timeFine t / 65536

/-- TXTS_ENTRY (R487): the entry of a frame that has been sent; with 128 entries held, the newest is lost. -/
def execTxtsEntry (p : Fin 64) (tag : BitVec 16) (time : BitVec 96) (s : State) : Host.Outcome State Fault Refusal :=
  let x := s.ethPort p.val
  .next (match x.awaited.find? fun t => t == some tag || t == none with
    | none => s
    | some a =>
      let x := { x with awaited := x.awaited.erase a }
      if x.stamps.length ≥ 128 then ((s.setEthPort p.val x).bump (ethpPage p.val) Rg.ethpTxtsDroppedCount).raise (ethpPage p.val) 3
      else s.setEthPort p.val { x with stamps := x.stamps ++ [(tag, txStamp s p.val time)] })

/-- A read of TXTS_POP (R487): the oldest entry's tag with VALID, its time latched; an empty queue leaves the latch. -/
def popStamp (p : Nat) (s : State) : State × Nat :=
  let page := ethpPage p
  let x := s.ethPort p
  match x.stamps with
  | [] => (s, 0)
  | (tag, t) :: rest =>
    let n := t.toNat
    ((s.setEthPort p { x with stamps := rest }).setReg page Rg.ethpTxtsSecondsSeconds (n / 2 ^ 48)
      |>.setReg page Rg.ethpTxtsNanoNano (n / 2 ^ 16 % 2 ^ 32) |>.setReg page Rg.ethpTxtsFracFraction (n % 2 ^ 16), tag.toNat + 2 ^ 31)

/-- TXTS_POP_READ. -/
def execTxtsPopRead (who : Requester) (p : Fin 64) (s : State) : Host.Outcome State Fault Refusal :=
  let page := ethpPage p.val
  .next (if !pathUp s who then readRefused who s
    else if !canSee s who page then (s.error hostPage 0x0124 (Requester.fnNat who) (pageBase page + 0x0A0)).emit (.readData (some (toBytes 4 0)))
    else if s.flag page Rg.pageControlSoftReset then s.emit (.readData (some (toBytes 4 0)))
    else
      let r := popStamp p.val s
      r.1.emit (.readData (some (toBytes 4 r.2))))

/-! ### Nodes -/

/-- The levels of R477 and R498, and the key of a node. -/
def levelSub : Nat := 0
def levelClass : Nat := 1
def levelPort : Nat := 2
def nodeKey (level index : Nat) : Nat := level * 2 ^ 20 + index

/-- A node, and setting it. -/
def State.node (s : State) (key : Nat) : Node := tabGet {} key s.eth.nodes
def State.setNode (s : State) (key : Nat) (x : Node) : State := { s with eth := { s.eth with nodes := tabPut {} key x s.eth.nodes } }

/-- Nodes of a level. -/
def levelSize (level : Nat) : Nat := if level = levelSub then 65536 else if level = levelClass then 524288 else if level = levelPort then 64 else 0

/-- A 32-bit word of a record as a number, and its bits. -/
def recWord (ws : List (BitVec 32)) (i : Nat) : Nat := (ws.getD i 0).toNat
def recBits (ws : List (BitVec 32)) (i lo len : Nat) : Nat := recWord ws i / 2 ^ lo % 2 ^ len

/-- Fields of a record (R499): rates capped at 800 Gbit/s (R478), burst sizes, OVERHEAD, WEIGHT and QUEUE_LIMIT. -/
def recCir (ws : List (BitVec 32)) : Nat := min (recBits ws 0 0 27) 100000000
def recPir (ws : List (BitVec 32)) : Nat := min (recBits ws 1 0 27) 100000000
def recCbs (ws : List (BitVec 32)) : Nat := recBits ws 2 0 24
def recPbs (ws : List (BitVec 32)) : Nat := recBits ws 3 0 24
def recOverhead (ws : List (BitVec 32)) : Int := signed 7 (recBits ws 4 0 7)
def recWeight (ws : List (BitVec 32)) : Nat := recBits ws 4 16 16
def recQueueLimit (ws : List (BitVec 32)) : Nat := recBits ws 5 0 20

/-- Fields of a subscriber's record (R499). -/
def subPort (ws : List (BitVec 32)) : Nat := recBits ws 5 0 6
def subKind (ws : List (BitVec 32)) : Nat := recBits ws 5 7 2
def subPart (ws : List (BitVec 32)) : Nat := recBits ws 5 16 6
def subValid (ws : List (BitVec 32)) : Bool := recBits ws 5 31 1 == 1
def subTagged (ws : List (BitVec 32)) : Bool := recBits ws 6 12 1 == 1
def subVlan (ws : List (BitVec 32)) : Nat := recBits ws 6 0 12
def subMac (ws : List (BitVec 32)) : Nat := recWord ws 7 + 2 ^ 32 * recBits ws 8 0 16
def subType (ws : List (BitVec 32)) : Nat := recBits ws 8 16 16
def subPolicer (ws : List (BitVec 32)) : Option Nat := if recBits ws 9 31 1 = 1 then some (recBits ws 9 0 16) else none
def subRing (ws : List (BitVec 32)) : Nat := recWord ws 10 + 2 ^ 32 * recWord ws 11
def subSlots (ws : List (BitVec 32)) : Nat := recBits ws 12 0 16
def subFull (ws : List (BitVec 32)) : Nat := recBits ws 13 0 16
def subFree (ws : List (BitVec 32)) : Nat := recBits ws 13 16 16

/-- A frame's counted length (R478): never less than 1 byte. -/
def counted (ws : List (BitVec 32)) (len : Nat) : Nat := max 1 ((len : Int) + recOverhead ws).toNat

/-- A bucket in 10⁻⁶ bytes after ns of device time at a rate of 8 kbit/s units, which are 10⁻⁶ bytes a ns, up to its size. -/
def filled (level : Int) (rate size ns : Nat) : Int := min (level + (rate * ns : Nat)) ((size * 1000000 : Nat))

/-- A node at a time: its buckets filled (R478). -/
def Node.fill (x : Node) (now : Nat) : Node :=
  { x with
    c := filled x.c (recCir x.words) (recCbs x.words) (now - x.at_)
    p := filled x.p (recPir x.words) (recPbs x.words) (now - x.at_)
    at_ := now }

/-- Eligibility of a filled node (R478, R479): a rate of 0 gives none. -/
def Node.peak (x : Node) : Bool := recPir x.words != 0 && decide (x.p ≥ 0)
def Node.committed (x : Node) : Bool := x.peak && recCir x.words != 0 && decide (x.c ≥ 0)

/-- A node now is eligible in a pass (R479). DEDUCED: log entry 94. -/
def eligible (s : State) (committed : Bool) (key : Nat) : Bool :=
  let x := (s.node key).fill s.now
  if committed then x.committed else x.peak

/-- A sent frame's counted length leaves both buckets of a node (R479). -/
def chargeNode (key len : Nat) (s : State) : State :=
  let x := (s.node key).fill s.now
  let b := counted x.words len * 1000000
  s.setNode key { x with c := x.c - b, p := x.p - b }

/-- Descriptors that a node's queue holds change. -/
def setQueue (key : Nat) (q : List TxFrame) (s : State) : State :=
  let x := s.node key
  let used := s.reg shapPage Rg.shapDescUsedCount
  (s.setNode key { x with queue := q }).setReg shapPage Rg.shapDescUsedCount (used + q.length - x.queue.length)

/-- The store is full (R481). -/
def storeFull (s : State) : Bool := decide (s.reg shapPage Rg.shapDescUsedCount ≥ 1048576)

/-- A frame fits its class queue (R481). -/
def fitsClass (s : State) (x c : Nat) : Bool :=
  let n := s.node (nodeKey levelClass (8 * x + c))
  !storeFull s && decide (n.queue.length + 1 ≤ recQueueLimit n.words)

/-- The words of a subscriber's record. -/
def subWords (s : State) (x : Nat) : List (BitVec 32) := (s.node (nodeKey levelSub x)).words

/-- A frame for a subscriber enters a class queue, or is dropped (R477, R481). -/
def queueFrame (x c : Nat) (f : TxFrame) (s : State) : State :=
  let key := nodeKey levelClass (8 * x + c)
  if fitsClass s x c then setQueue key ((s.node key).queue ++ [f]) s
  else
    let t := s.bump (ethpPage (subPort (subWords s x))) Rg.ethpDropQueueCount
    match f.cell with
    | some (k, cell) =>
      let r := t.radioOf k
      t.setRadio k { r with uplaneLate := addCell 1 cell r.uplaneLate }
    | none => t

/-- A frame enters the management queue of a port, or is dropped (R477). -/
def queueManagement (p : Nat) (f : TxFrame) (s : State) : State :=
  let key := nodeKey levelPort p
  let q := (s.node key).queue
  if storeFull s ∨ q.length ≥ 256 then s.bump (ethpPage p) Rg.ethpDropQueueCount else setQueue key (q ++ [f]) s

/-- A frame formed for a partition's subscriber: the digest counts it, and a replay with SUPPRESS_EGRESS does not send it (R516, R517). -/
def formFrame (k x c : Nat) (f : TxFrame) (s : State) : State :=
  let t := noteOutput k 2 f.data s
  if egressSuppressed s k then t else queueFrame x c f t

/-- PTP_FRAME_HANDOFF (R472, R477): a frame that answers a subscriber goes into its class 0, another into the management queue of the port.
DESIGN CHOICE: log entry 97. -/
def execPtpFrameHandoff (p : Fin 64) (subscriber : Option (Fin 65536)) (bytes : Nat) (tag : Option (BitVec 16)) (oneStep : Bool) (s : State) :
    Host.Outcome State Fault Refusal :=
  let f : TxFrame := { len := bytes, tag := tag, oneStep := oneStep }
  .next (if !s.firmware ∨ !portInUse s p.val then s
    else
      match subscriber with
      | some x => queueFrame x.val 0 f s
      | none => queueManagement p.val f s)

/-- A sent frame leaves its queue: it is counted, and its timestamp awaited (R484, R486, R487). -/
def departs (p key : Nat) (f : TxFrame) (s : State) : State :=
  let x := s.ethPort p
  let t := setQueue key ((s.node key).queue.drop 1) s
  let t := t.setEthPort p { x with awaited := if f.tag.isSome || f.oneStep then x.awaited ++ [f.tag] else x.awaited }
  (t.addReg (ethpPage p) Rg.ethpTxFramesCount 1).emit (.frame p f.len f.data)

/-- The lowest class of a subscriber with a queued frame that is eligible in a pass together with the subscriber (R480). -/
def readyClass (s : State) (committed : Bool) (x : Nat) : Option Nat :=
  if !eligible s committed (nodeKey levelSub x) then none
  else (List.range 8).find? fun c =>
    let key := nodeKey levelClass (8 * x + c)
    !(s.node key).queue.isEmpty && eligible s committed key

/-- Send the head frame of a class of a subscriber (R479, R480). -/
def sendClass (p x c : Nat) (f : TxFrame) (s : State) : State :=
  let key := nodeKey levelClass (8 * x + c)
  let sub := nodeKey levelSub x
  let t := departs p key f (chargeNode (nodeKey levelPort p) f.len (chargeNode sub f.len (chargeNode key f.len s)))
  let n := t.node sub
  let empty := (List.range 8).all fun c => (t.node (nodeKey levelClass (8 * x + c))).queue.isEmpty
  let t := t.setNode sub { n with deficit := if empty then 0 else n.deficit - counted n.words f.len }
  t.setEthPort p { t.ethPort p with last := some x }

/-- One pass of R480 over the subscribers of a port: whether a frame was sent. DEDUCED: log entry 94. -/
def runPass (p : Nat) (committed : Bool) : List Nat → State → State × Bool
  | [], s => (s, false)
  | x :: xs, s =>
    match (readyClass s committed x).bind fun c => (s.node (nodeKey levelClass (8 * x + c))).queue.head?.map (c, ·) with
    | none => runPass p committed xs s
    | some (c, f) =>
      let n := s.node (nodeKey levelSub x)
      if n.deficit < counted n.words f.len then
        runPass p committed xs (s.setNode (nodeKey levelSub x) { n with deficit := n.deficit + recWeight n.words * 64 })
      else (sendClass p x c f s, true)

/-- The subscribers of a port in ascending order from the one served last (R480). -/
def portSubs (s : State) (p : Nat) : List Nat :=
  let all := (s.eth.nodes.filter fun (e : Nat × Node) => decide (e.1 < 65536) && subValid e.2.words && subPort e.2.words == p).map (·.1)
  let start := (s.ethPort p).last.getD 0
  (all.filter fun x => decide (start ≤ x)) ++ (all.filter fun x => decide (x < start))

/-- ETH_FRAME_TX (R480): an idle port chooses and starts a frame. DEDUCED: log entry 94. -/
def execEthFrameTx (p : Fin 64) (s : State) : Host.Outcome State Fault Refusal :=
  let port := nodeKey levelPort p.val
  .next (if !portOn s p.val ∨ !s.flag (ethpPage p.val) Rg.ethpPortStatusLinkUp ∨ !s.serves shapPage ∨ !eligible s false port then s
    else
      match (s.node port).queue with
      | f :: _ => departs p.val port f (chargeNode port f.len s)
      | [] =>
        let subs := portSubs s p.val
        let r := runPass p.val true subs s
        if r.2 then r.1 else (runPass p.val false subs r.1).1)

/-- Words of NODE_DATA. -/
def nodeData (s : State) : List (BitVec 32) := (List.range 16).map fun i => BitVec.ofNat 32 (s.reg shapPage Rg.shapNodeDataData i)

/-- The words of a record with its reserved bits 0 (R15, R499), by level. DEDUCED: log entry 94. -/
def cleanRecord (level : Nat) (ws : List (BitVec 32)) : List (BitVec 32) :=
  let masks : List (BitVec 32) :=
    if level = levelSub then
      [0x07FFFFFF, 0x07FFFFFF, 0x00FFFFFF, 0x00FFFFFF, 0xFFFF007F, 0x803F01BF, 0x0000FFFF, 0xFFFFFFFF, 0xFFFFFFFF, 0x8000FFFF, 0xFFFFFFFF,
        0xFFFFFFFF, 0x0000FFFF, 0xFFFFFFFF, 0, 0]
    else [0x07FFFFFF, 0x07FFFFFF, 0x00FFFFFF, 0x00FFFFFF, 0x0000007F, if level = levelClass then 0x000FFFFF else 0] ++ List.replicate 10 0
  (List.range 16).map fun i => ws.getD i 0 &&& masks.getD i 0

/-- A valid subscriber's record that is refused (R498, R499): a field out of range, a PORT that is not in use, fields of inference on a
radio unit, one written by another than the physical function, or the match of another valid subscriber. DEDUCED: log entry 94. -/
def subRefused (s : State) (who : Requester) (x : Nat) (ws : List (BitVec 32)) : Bool :=
  subValid ws && (
    subKind ws > 1 || recWeight ws == 0 || !portInUse s (subPort ws) ||
    (if subKind ws = 0 then
      (who != .function 0 && who != .clear 0) || subType ws != 0 || subRing ws != 0 || recWord ws 12 != 0 || recWord ws 13 != 0
    else
      subRing ws % 2048 != 0 || !((List.range 15).any fun i => subSlots ws == 2 ^ (i + 1)) ||
        decide (subFull ws ≥ s.reg (partPage (subPart ws)) Rg.partSemCountCount) ||
        decide (subFree ws ≥ s.reg (partPage (subPart ws)) Rg.partSemCountCount)) ||
    s.eth.nodes.any fun (e : Nat × Node) =>
      decide (e.1 < 65536) && e.1 != x && subValid e.2.words && subPort e.2.words == subPort ws && subMac e.2.words == subMac ws &&
        subTagged e.2.words == subTagged ws && (!subTagged ws || subVlan e.2.words == subVlan ws))

/-- A node's record is written (R476, R479): its buckets are clamped to the new burst sizes; a subscriber that becomes valid starts with
full ones; frames written to its ring count from 0. -/
def writeNode (level index : Nat) (ws : List (BitVec 32)) (s : State) : State :=
  let key := nodeKey level index
  let x := (s.node key).fill s.now
  let full := level = levelSub ∧ !subValid x.words
  let c : Int := (recCbs ws * 1000000 : Nat)
  let p : Int := (recPbs ws * 1000000 : Nat)
  let t := s.setNode key { x with words := ws, c := if full then c else min x.c c, p := if full then p else min x.p p }
  if level = levelSub then { t with eth := { t.eth with rings := tabPut 0 index 0 t.eth.rings } } else t

/-- RESULT of a command of SHAP. -/
def nodeResult (v : Nat) (s : State) : State := s.setReg shapPage Rg.shapNodeCommandResult v

/-- A node command is refused (R498). -/
def nodeRefuse (index : Nat) (s : State) : State := nodeResult 0x0372 (s.error shapPage 0x0372 0 index)

/-- NODE_READ (R498). -/
def execNodeRead (who : Requester) (s : State) : Host.Outcome State Fault Refusal :=
  let level := s.reg shapPage Rg.shapNodeSelectLevel
  let index := s.reg shapPage Rg.shapNodeSelectIndex
  .next (writeAccess who shapPage 0x044 (fun s =>
    if index ≥ levelSize level then nodeRefuse index s
    else
      let ws := (s.node (nodeKey level index)).words
      nodeResult 0 (s.each (List.range 16) fun i t => t.setReg shapPage Rg.shapNodeDataData (recWord ws i) i)) s)

/-- NODE_WRITE (R498). DEDUCED: log entry 94. -/
def execNodeWrite (who : Requester) (s : State) : Host.Outcome State Fault Refusal :=
  let level := s.reg shapPage Rg.shapNodeSelectLevel
  let index := s.reg shapPage Rg.shapNodeSelectIndex
  .next (writeAccess who shapPage 0x044 (fun s =>
    let ws := cleanRecord level (nodeData s)
    if index ≥ levelSize level ∨ (level = levelSub ∧ subRefused s who index ws = true) then nodeRefuse index s
    else nodeResult 0 (writeNode level index ws s)) s)

/-! ### Policers -/

/-- A policer, and setting it. -/
def State.policer (s : State) (n : Nat) : Policer := tabGet {} n s.eth.policers
def State.setPolicer (s : State) (n : Nat) (x : Policer) : State := { s with eth := { s.eth with policers := tabPut {} n x s.eth.policers } }

/-- Colors of RFC 2698. -/
inductive Color where
  | green | yellow | red
  deriving DecidableEq, Repr

/-- A policer meters a frame (R482, R483). DEDUCED: log entry 95. -/
def meter (n len : Nat) (preYellow : Bool) (s : State) : State × Color :=
  let x := s.policer n
  let ns := s.now - x.at_
  let tc := filled x.tc (recCir x.words) (recCbs x.words) ns
  let tp := filled x.tp (recPir x.words) (recPbs x.words) ns
  let b : Int := (counted x.words len * 1000000 : Nat)
  let aware := recBits x.words 4 8 1 = 1
  let color : Color := if tp < b then .red else if (aware ∧ preYellow) ∨ tc < b then .yellow else .green
  let y := { x with
    at_ := s.now
    tc := if color = .green then tc - b else tc
    tp := if color = .red then tp else tp - b
    green := min (x.green + bit (color == .green)) (2 ^ 32 - 1)
    yellow := min (x.yellow + bit (color == .yellow)) (2 ^ 32 - 1)
    red := min (x.red + bit (color == .red)) (2 ^ 32 - 1) }
  (s.setPolicer n y, color)

/-- A policer drops a frame (R482). -/
def policed (s : State) (n : Nat) (color : Color) : Bool := color == .red || (color == .yellow && recBits (s.policer n).words 4 9 1 == 1)

/-- RESULT of a command of POLC. -/
def policerResult (v : Nat) (s : State) : State := s.setReg polcPage Rg.polcCommandResult v

/-- POLICER_READ (R500). -/
def execPolicerRead (who : Requester) (s : State) : Host.Outcome State Fault Refusal :=
  .next (writeAccess who polcPage 0x044 (fun s =>
    let ws := (s.policer (s.reg polcPage Rg.polcSelectPolicer)).words
    policerResult 0 (s.each (List.range 5) fun i t => t.setReg polcPage Rg.polcData (recWord ws i) i)) s)

/-- POLICER_WRITE (R500): CIR greater than PIR is refused; the buckets of a marker of RFC 2698 start full. DEDUCED: log entry 95. -/
def execPolicerWrite (who : Requester) (s : State) : Host.Outcome State Fault Refusal :=
  .next (writeAccess who polcPage 0x044 (fun s =>
    let n := s.reg polcPage Rg.polcSelectPolicer
    let masks : List (BitVec 32) := [0x07FFFFFF, 0x07FFFFFF, 0x00FFFFFF, 0x00FFFFFF, 0x0000037F]
    let ws := (List.range 5).map fun i => BitVec.ofNat 32 (s.reg polcPage Rg.polcData i) &&& masks.getD i 0
    if recBits ws 0 0 27 > recBits ws 1 0 27 then policerResult 0x0373 (s.error polcPage 0x0373 0 n)
    else policerResult 0 (s.setPolicer n { s.policer n with
      words := ws, tc := (recCbs ws * 1000000 : Nat), tp := (recPbs ws * 1000000 : Nat), at_ := s.now })) s)

/-! ### Receiving -/

/-- A number of wire bytes, most significant first. PRESUMED: log entry 93. -/
def wireNat (b : List Byte) : Nat := b.foldl (fun n x => n * 256 + x.toNat) 0

/-- A received frame's addresses, outer tag (its TCI), and EtherType behind at most two tags (R471). -/
structure FrameHead where
  dest : Nat
  src : Nat
  tag : Option Nat
  etherType : Nat
  payload : List Byte
  deriving DecidableEq, Repr

/-- Parse the head of a frame. -/
def frameHead (b : List Byte) : FrameHead :=
  let dest := wireNat (b.take 6)
  let src := wireNat ((b.drop 6).take 6)
  let typeAt := fun off => wireNat ((b.drop off).take 2)
  if typeAt 12 = 0x8100 ∨ typeAt 12 = 0x88A8 then
    let tci := some (typeAt 14)
    if typeAt 16 = 0x8100 then ⟨dest, src, tci, typeAt 20, b.drop 22⟩ else ⟨dest, src, tci, typeAt 16, b.drop 18⟩
  else ⟨dest, src, none, typeAt 12, b.drop 14⟩

/-- The group addresses that a port takes (R473): PTP's two (IEEE 1588, G.8275.1), ESMC's and broadcast. PRESUMED: log entry 93. -/
def groupAddress (a : Nat) : Bool := a == 0x011B19000000 || a == 0x0180C200000E || a == 0x0180C2000002 || a == 0xFFFFFFFFFFFF

/-- The valid subscriber that a frame matches (R473 step 5). -/
def matchSub (s : State) (p : Nat) (h : FrameHead) : Option Nat :=
  (s.eth.nodes.find? fun (e : Nat × Node) =>
    decide (e.1 < 65536) && subValid e.2.words && subPort e.2.words == p && subMac e.2.words == h.src &&
      match h.tag with
      | some t => subTagged e.2.words && subVlan e.2.words == t % 4096
      | none => !subTagged e.2.words).map (·.1)

/-- A PRB of a cell is dropped or lost. DEDUCED: log entry 96. -/
def prbLate (k cell : Nat) (s : State) : State :=
  let x := s.radioOf k
  s.setRadio k { x with uplaneLate := addCell 1 cell x.uplaneLate }

/-- A line of an ingress ring (R293): the block, the eAxC, symbol and slot, and the PRB number. -/
def ingressLine (eaxc symbol slot prb : Nat) (block : List Int) : BitVec 512 :=
  let elems := (List.range 24).map (fun i => (block.getD i 0 % 65536).toNat) ++ [eaxc, symbol % 16 + 16 * (slot % 128), prb]
  BitVec.ofNat 512 (leNat ((elems.map (toBytes 2)).flatten))

/-- Note that a PRB has arrived (R298). -/
def noteArrived (k : Nat) (e : ArrivedPrb) (s : State) : State :=
  s.modRadio k fun x => if x.arrived.contains e then x else { x with arrived := e :: x.arrived }

/-- A PRB reaches its signal core's ring (R89, R293, R298): outside its window, without a valid entry, or with the ring full, it is dropped;
that of a slot whose command was late is discarded (R289). DEDUCED: log entry 96. -/
def ingestPrb (k : Nat) (y : Cell) (m : EcpriMsg) (ns : Nat) (e : Nat × Nat × List Int) (s : State) : State :=
  let r := y.info
  let n := slotNamed r ns m.frame m.slot
  let d : Int := (96 * 2 ^ r.mu : Nat)
  let air := airNum r n m.symbol
  let inside : Bool := decide (air + 1000 * r.ta4Min * d ≤ ns * d) && decide ((ns : Int) * d ≤ air + 1000 * r.ta4Max * d) &&
    decide (m.symbol < 14) && decide (m.slot < slotsPerFrame r.mu) && decide (e.1 < r.prb)
  let i := m.eaxc.toNat - r.eaxcBase
  let drop := fun s => (if inside then noteArrived k ⟨r.cell, n, m.symbol, i, e.1, false⟩ s else s) |> prbLate k r.cell
  if (s.radioOf k).discarded.contains (r.cell, n) then s
  else match tabFind i r.ingress with
  | some (u, base, bytes) =>
    let page := sigcPage u
    let made := s.reg page Rg.sigcIngressProducedCount
    let held := (made + 2 ^ 32 - (s.sigc u).ingressReturned % 2 ^ 32) % 2 ^ 32
    if !inside ∨ held ≥ bytes / 64 then drop s
    else
      let w := r.compUl.2
      let b := ingressPrb w (r.eref.getD i 0) (if r.compUl.1 = 0 then 0 else e.2.1) e.2.2
      let a := base + 64 * (made % max 1 (bytes / 64))
      let t := writeLine u a ⟨ingressLine m.eaxc.toNat m.symbol m.slot e.1 b.2, BitVec.ofInt 8 b.1⟩ s
      noteArrived k ⟨r.cell, n, m.symbol, i, e.1, true⟩ (t.addReg page Rg.sigcIngressProducedCount 1)
  | none => drop s

/-- The running cell of a subscriber that holds an eAxC (R475), with its partition. -/
def cellOfEaxc (s : State) (x eaxc : Nat) : Option (Nat × Cell) :=
  s.radio.parts.findSome? fun (q : Nat × RadioPart) =>
    (q.2.cells.find? fun (c : Nat × Cell) =>
      c.2.info.subscriber == x && decide (c.2.info.eaxcBase ≤ eaxc) && decide (eaxc < c.2.info.eaxcBase + c.2.info.eaxcCount)).map
      fun c => (q.1, c.2)

/-- Sequence numbers of an eAxC that are missing (R475). DEDUCED: log entry 96. -/
def seqGap (p x : Nat) (m : EcpriMsg) (s : State) : State :=
  let key := x * 65536 + m.eaxc.toNat
  let t := { s with eth := { s.eth with seqids := tabSet key m.seqid s.eth.seqids } }
  match tabFind key s.eth.seqids with
  | some last => t.bump (ethpPage p) Rg.ethpEcpriSeqGapsCount (m.seqid - last - 1).toNat
  | none => t

/-- An eCPRI message (R475): whether it is taken. A standby cell discards its ingress (R540). -/
def ecpriMessage (p x : Nat) (frame : List Byte) (time : BitVec 96) (m : EcpriMsg) (s : State) : State × Bool :=
  if m.msgType = 0 then
    match cellOfEaxc s x m.eaxc.toNat with
    | none => (s, false)
    | some (k, y) =>
      let t := seqGap p x m s
      (if y.standby then t else t.each m.prbs (ingestPrb k y m (stampNs time)), true)
  else if m.msgType = 5 then
    if m.action = 0 ∨ m.action = 2 ∨ m.action = 4 then
      let b := Config.delayResponse frame time
      (queueFrame x 0 { len := b.length + 4, data := b } s, true)
    else (s, true)
  else (s, false)

/-- The messages of an eCPRI frame: one that is dropped counts the frame once (R473, R475). DEDUCED: log entry 96. -/
def ecpriFrame (p x : Nat) (f : EthFrame) (time : BitVec 96) (s : State) : State :=
  let r := f.ecpri.foldl (fun (a : State × Bool) m =>
    let b := ecpriMessage p x f.bytes time m a.1
    (b.1, a.2 && b.2)) (s, !f.ecpri.isEmpty)
  if r.2 then r.1 else r.1.bump (ethpPage p) Rg.ethpDropUnmatchedCount

/-- A semaphore of a partition's range (R163). DEDUCED: log entry 96. -/
def ringSem (s : State) (k ix : Nat) : Nat := s.reg (partPage k) Rg.partSemBaseBase + ix

/-- Inference ingress of a frame (R476): it needs a slot from FREE_SEM, and a ring that can be written. DEDUCED: log entry 96. -/
def ingressFrame (p x : Nat) (ns : Nat) (data : List Byte) (s : State) : State :=
  let ws := subWords s x
  let k := subPart ws
  let free := ringSem s k (subFree ws)
  let m := s.sem free
  let n := tabGet 0 x s.eth.rings
  let a := subRing ws + 2048 * (n % max 1 (subSlots ws))
  let b := toBytes 2 data.length ++ toBytes 1 p ++ toBytes 5 0 ++ toBytes 8 ns ++ data
  let broken : Bool := match s.partWriteCheck k a b.length with
    | .error _ _ => true
    | _ => false
  if data.length > 2032 ∨ !s.partOn k ∨ m.lock ∨ m.count = 0 ∨ !m.waiters.isEmpty ∨ broken then s.bump (ethpPage p) Rg.ethpDropRingCount
  else
    let t := (s.setSem free { m with count := m.count - 1 }).partStore k a b
    let t := { t with eth := { t.eth with rings := tabPut 0 x (n + 1) t.eth.rings } }
    let full := ringSem t k (subFull ws)
    let f := t.sem full
    if f.lock then t else t.setSem full { f with count := min (f.count + 1) (2 ^ 32 - 1) }

/-- A frame of an inference subscriber: a replay drops it, a recorded partition holds it to its boundary (R476, R513, R517). -/
def inferenceFrame (p x : Nat) (time : BitVec 96) (data : List Byte) (s : State) : State :=
  let k := subPart (subWords s x)
  if replaying s k then s.bump (ethpPage p) Rg.ethpDropUnmatchedCount
  else if recording s k then
    let r := recordOf s k
    setRecord k { r with held := r.held ++ [(.frame p x data, time)] } s
  else ingressFrame p x (stampNs time) data s

/-- Steps 5 to 8 of R473. -/
def subscriberFrame (p : Nat) (f : EthFrame) (h : FrameHead) (time : BitVec 96) (s : State) : State :=
  match matchSub s p h with
  | none => s.bump (ethpPage p) Rg.ethpDropUnmatchedCount
  | some x =>
    let ws := subWords s x
    let r := match subPolicer ws with
      | some n =>
        let m := meter n (f.bytes.length + 4) ((h.tag.getD 0).testBit 12) s
        (m.1, policed s n m.2)
      | none => (s, false)
    if r.2 then r.1.bump (ethpPage p) Rg.ethpDropPoliceCount
    else if subKind ws = 0 ∧ h.etherType = 0xAEFE then ecpriFrame p x f time r.1
    else if subKind ws = 1 ∧ h.etherType = subType ws then inferenceFrame p x time f.bytes r.1
    else r.1.bump (ethpPage p) Rg.ethpDropUnmatchedCount

/-- What RS-FEC corrected, and the codewords that it did not, with their lanes (R496). DEDUCED: log entry 110. -/
def noteFec (p : Nat) (f : EthFrame) (s : State) : State :=
  (s.addReg (ethpPage p) Rg.ethpFecCorrectedCount f.fecCorrected).each f.fecLost fun lane t =>
    (t.bump (ethpPage p) Rg.ethpFecUncorrectedCount).error (ethpPage p) 0x0362 0 lane

/-- The path of a frame (R473): PAUSE and PFC frames are counted for themselves (R471), and a frame that comes to a policer waits while
FREEZE holds the policers (R46). PRESUMED: log entry 93. -/
def receiveFrame (p : Nat) (f : EthFrame) (s : State) : State :=
  let page := ethpPage p
  let h := frameHead f.bytes
  let time := rxStamp s p f.rxTime
  let len := f.bytes.length + 4
  if !f.fcsOk then s.bump page Rg.ethpFcsErrorsCount
  else
    let t := s.addReg page Rg.ethpRxFramesCount 1
    if len < 64 ∨ len > min 9216 (s.reg page Rg.ethpConfigMaxFrame) then t.bump page Rg.ethpDropUnmatchedCount
    else if h.etherType = 0x8808 ∧ (wireNat (h.payload.take 2) = 0x0001 ∨ wireNat (h.payload.take 2) = 0x0101) then
      t.bump page Rg.ethpPauseRxCount
    else if h.dest ≠ s.reg page Rg.ethpMacAddrAddress ∧ !groupAddress h.dest then t.bump page Rg.ethpDropUnmatchedCount
    else if h.etherType = 0x88F7 ∨ f.udpPort = some 319 ∨ f.udpPort = some 320 then t.emit (.toController p (some time) f.bytes)
    else if h.etherType = 0x8809 ∧ wireNat (h.payload.take 1) = 0x0A then t.emit (.toController p none f.bytes)
    else if s.frozen polcPage then s
    else subscriberFrame p f h time t

/-- ETH_FRAME_RX. DEDUCED: log entry 96. -/
def execEthFrameRx (p : Fin 64) (frame : EthFrame) (s : State) : Host.Outcome State Fault Refusal :=
  .next (if portOn s p.val && s.flag (ethpPage p.val) Rg.ethpPortStatusLinkUp then receiveFrame p.val frame (noteFec p.val frame s) else s)

/-! ### What the device sends -/

/-- The core in whose flags the saturation of a downlink symbol is set (R87, R90): that of the downlink task that ends in the symbol. DESIGN
CHOICE: log entry 97. -/
def egressCore (r : SlotRun) (symbol : Nat) : Option Nat :=
  r.tasks.findSome? fun t =>
    match t.place with
    | .core c => if !t.uplink ∧ t.symbol = symbol then some c.val else none
    | _ => none

/-- One block of a symbol as the egress path sends it (R90): X, mantissas and saturation. Where the cell's downlink is not compressed by
block floating point X is 0, and modulation compression gets the block as it is. DESIGN CHOICE: log entry 97. -/
def egressBlock (c : CellRec) (b : EgressBlock) : Nat × List Int × Bool :=
  let es := b.elems.map (·.toInt)
  let w := c.compDl.2
  let eref := c.eref.getD b.eaxc 0
  if b.exp = 0x80 ∨ c.compDl.1 = 1 then egressPrb w eref b.exp es
  else if c.compDl.1 = 0 then
    let ms := egressAt w eref b.exp.toInt 0 es
    let lim : Int := 2 ^ (w - 1) - 1
    (0, ms.map (clampSym lim), ms.any fun m => decide (m.natAbs > lim.natAbs))
  else (0, es, false)

/-- UPLANE_HANDOFF (R90, R289, R294, R297, R310, R312): at air(n, s) − T1A_MAX_UP a downlink symbol that is ready goes to the traffic
manager, once; a category B cell's C-plane for it goes before. Each of its blocks becomes one PRB; poisoned ones are counted. DESIGN CHOICE:
log entry 97. -/
def execUplaneHandoff (k : Fin 64) (cell : Fin 384) (frame slot : Nat) (symbol : Fin 14) (ready : Bool) (blocks : List EgressBlock)
    (s : State) : Host.Outcome State Fault Refusal :=
  let x := s.radioOf k.val
  .next (match tabFind cell.val x.cells, slotOfCell x cell.val frame slot with
    | some y, some r =>
      let due : Int := airNs y.info r.index symbol - 1000 * (y.info.t1aMaxUp : Int)
      let out := blocks.map fun b => (b.eaxc.val, b.prb.val, egressBlock y.info b)
      if s.working ∧ !y.standby ∧ ready = true ∧ !x.discarded.contains (cell.val, r.index) ∧ !r.withheld.contains symbol.val ∧ !r.handed.contains symbol.val ∧ (s.now : Int) ≥ due then
        let t := setSlotRun k.val r { r with handed := r.handed ++ [symbol.val] } s
        let t := t.modRadio k.val fun x => { x with poison := addCell (blocks.filter fun b => b.exp == 0x80).length cell.val x.poison }
        let t := match egressCore r symbol.val with
          | some c => if out.any fun o => o.2.2.2.2 then orFlags c 1 t else t
          | none => t
        let sub := y.info.subscriber
        let t := t.each (if y.info.categoryB then Config.cplaneFrames s.freeIx cell slot symbol else []) fun b t =>
          formFrame k.val sub 1 { len := b.length + 4, data := b } t
        (t.each (Config.uplaneFrames s.freeIx cell slot symbol (out.map fun o => (o.1, o.2.1, o.2.2.1, o.2.2.2.1))) fun b t =>
          formFrame k.val sub 2 { len := b.length + 4, data := b, cell := some (k.val, cell.val) } t).usedFree
      else s
    | _, _ => s)

/-- Streams whose front records go into frames with that of a stream (R345): the same group, subscriber and step, in ADMIT order. -/
def frameMates (s : State) (x : StreamRun) (r : TokenRec) : List (Nat × StreamRun × TokenRec) :=
  (streamsOf s fun y => y.part == x.part && y.group == x.group && y.route == 1 && y.target == x.target).filterMap fun e =>
    match e.2.records with
    | q :: _ => if q.step = r.step then some (e.1, e.2, q) else none
    | [] => none

/-- The bytes of a frame of token records (R345): TEMPLATE, FLOW_TAG, record count and sequence number, and the records. DEDUCED: log entry
72. -/
def tokenFrame (g : ServeGroup) (x : StreamRun) (seq : Nat) (rs : List TokenRec) : List Byte :=
  let len := g.image.toNat / 256 % 32
  ((List.range len).map fun i => BitVec.ofNat 8 (g.image.toNat / 2 ^ (8 * (0x48 + i)))) ++
    toBytes 4 (recField x.image 0x5C 0 32) ++ toBytes 2 rs.length ++ toBytes 2 seq ++ (rs.map fun r => toBytes 16 r.word.toNat).flatten

/-- Records go to a subscriber (R345, R346): up to 64 of a step in one frame, which is formed where it fits its queue. DEDUCED: log entry
72. -/
def recordToFrame (n : Nat) (x : StreamRun) (r : TokenRec) (s : State) : State :=
  let mates := frameMates s x r
  let at_ := (mates.findIdx fun e => e.1 == n) / 64 * 64
  let chunk := (mates.drop at_).take 64
  let quiet := egressSuppressed s x.part
  match groupImage s x.part x.group, chunk with
  | some g, e :: _ =>
    if !quiet && !fitsClass s x.target 3 then s
    else
      let seq := tabGet 0 x.target s.serve.seqs
      let b := tokenFrame g e.2.1 seq (chunk.map fun e => e.2.2)
      let t := formFrame x.part x.target 3 { len := b.length + 4, data := b } s
      let t := { t with serve := { t.serve with seqs := tabPut 0 x.target ((seq + 1) % 65536) t.serve.seqs } }
      t.each (chunk.map (·.1)) recordTaken
  | _, _ => s

/-- TOKEN_RECORD_ACCEPTED (R344 to R346): the stream's oldest record takes its route. DEDUCED: log entry 72. -/
def execTokenRecordAccepted (stream : Fin 65536) (translates : Bool) (s : State) : Host.Outcome State Fault Refusal :=
  .next (match s.stream stream.val with
    | none => s
    | some x =>
      match x.records with
      | [] => s
      | r :: _ => if !s.working then s else if x.route = 0 then recordToCq stream.val x r translates s else recordToFrame stream.val x r s)

/-! ### Ports that stop -/

/-- A port's link drops. -/
def linkDrops (p : Nat) (s : State) : State :=
  if s.flag (ethpPage p) Rg.ethpPortStatusLinkUp then noteTraining ((s.setReg (ethpPage p) Rg.ethpPortStatusLinkUp 0).raise (ethpPage p) 2) else s

/-- SOFT_RESET of an ETHP page (R598): the link drops; queued frames of the port are discarded and counted in DROP_QUEUE; the timestamp queue
is emptied. -/
def resetPort (p : Nat) (s : State) : State :=
  let subs := portSubs s p
  let keys := nodeKey levelPort p :: (subs.map fun x => (List.range 8).map fun c => nodeKey levelClass (8 * x + c)).flatten
  let t := (linkDrops p s).each subs fun x t => t.setNode (nodeKey levelSub x) { t.node (nodeKey levelSub x) with deficit := 0 }
  let t := t.each keys fun key t =>
    let n := (t.node key).queue.length
    if n = 0 then t else (setQueue key [] t).bump (ethpPage p) Rg.ethpDropQueueCount n
  t.setEthPort p {}

end Sys2Proof.Machine
end

