-- ==== Sys2Proof/Machine/ZLine.lean ====
section
/-! DEFINITION. The Z-format lines of REDUCE (R446, R466): 64 bytes of whole blocks and their exponents, their combination under R75
and R81, and the fixed tree of a strict reduction. -/

namespace Sys2Proof.Machine

/-- A line of elements with one exponent byte for each block. -/
structure ZLine where
  data : List Byte
  exps : List Byte
  deriving DecidableEq, Repr

/-- Element width and block length of a REDUCE's FUNC, FORMAT in [1:0] and BLOCK_LEN in [3:2] coded as R142; none for a format that a
REDUCE line has not: Z8, Z4, or Z16 with block length 16 or 32. -/
def zForm (func : Nat) : Option (Nat × Nat) :=
  let bl := func / 4 % 4
  match func % 4 with
  | 0 => if bl = 2 then some (8, 32) else none
  | 1 => if bl = 2 then some (4, 32) else none
  | 3 => if bl = 0 then some (16, 16) else if bl = 2 then some (16, 32) else none
  | _ => none

/-- Blocks of a line. -/
def zBlocks (w len : Nat) : Nat := 512 / w / len

/-- Elements of block b of a line, lowest first. -/
def zElems (w len b : Nat) (data : List Byte) : List Int :=
  let n := leNat data
  (List.range len).map fun i => signed w (n / 2 ^ (w * (b * len + i)))

/-- An element as a partial result: its value with 8 fraction bits at the scale of its block (R65). -/
def zAcc (exp : Byte) (m : Int) : Acc :=
  if exp = 0x80 then accPoison else ⟨BitVec.ofInt 48 (m * 256), exp.toInt, .none, false⟩

/-- One block of two lines combined, a the earlier operand: R75 element by element, stored under R81 with q = 1, s = 0 and rounding half
to even; poison propagates (R85). -/
def zBlock (w len b : Nat) (x y : ZLine) : StoreOut :=
  let ex := x.exps.getD b 0x80
  let ey := y.exps.getD b 0x80
  storeBlock w .even ((List.zip (zElems w len b x.data) (zElems w len b y.data)).map fun e =>
    ⟨accCombine (zAcc ex e.1) (zAcc ey e.2), 1, 0⟩)

/-- The bytes of elements of width w, lowest first. -/
def zBytes (w : Nat) (elems : List Int) : List Byte :=
  toBytes (w * elems.length / 8) (elems.foldr (fun x t => (BitVec.ofInt w x).toNat + 2 ^ w * t) 0)

/-- The combination of two lines, x the earlier operand. -/
def zCombine (func : Nat) (x y : ZLine) : ZLine :=
  match zForm func with
  | none => x
  | some (w, len) =>
    let o := (List.range (zBlocks w len)).map fun b => zBlock w len b x y
    ⟨zBytes w (o.map (·.elems)).flatten, o.map (·.exp)⟩

/-- A poisoned line. -/
def zPoison (func : Nat) : ZLine :=
  let n := match zForm func with
    | some (w, len) => zBlocks w len
    | none => 0
  ⟨List.replicate 64 0, List.replicate n 0x80⟩

/-- A line as memory or a packet delivers it: a block with a byte that cannot be read is poisoned (R62). -/
def zRead (func : Nat) (data exps : List (Option Byte)) : ZLine :=
  match zForm func with
  | none => zPoison func
  | some (w, len) =>
    let size := w * len / 8
    ⟨data.map (·.getD 0), (List.range (zBlocks w len)).map fun b =>
      if ((data.drop (size * b)).take size).any Option.isNone then 0x80 else (exps.getD b none).getD 0x80⟩

/-- The line that a REDUCE packet carries: the element plane, then its exponents. -/
def zPacket (p : Packet) : ZLine := ⟨p.data.take 64, p.data.drop 64⟩

/-- The node over contributor indices [lo, hi) of a strict reduction (R466), to a depth of n. -/
def zTree (func : Nat) (leaf : Nat → ZLine) : Nat → Nat → Nat → ZLine
  | 0, lo, _ => leaf lo
  | n + 1, lo, hi =>
    if hi ≤ lo + 1 then leaf lo
    else
      let mid := lo + 2 ^ (bitlen (hi - lo - 1) - 1)
      zCombine func (zTree func leaf n lo mid) (zTree func leaf n mid hi)

end Sys2Proof.Machine
end

