-- ==== Sys2Proof/Machine/FabCore.lean ====
section
/-! DEFINITION. The fabric engine of a core: descriptors and their checks (R447), the requests that a command makes, and what a response does
at the source (R448 to R451). -/

namespace Sys2Proof.Machine

/-- A fabric descriptor (R447). -/
structure FabDesc where
  op : Nat
  func : Nat
  size : Nat
  count : Nat
  remote : Nat
  local_ : Nat
  result : Nat
  mask : BitVec 64
  mem : Nat
  length : Nat
  index : Nat
  contributors : Nat
  form : Nat
  deriving DecidableEq, Repr

/-- Read a fabric descriptor; form holds FORMAT and BLOCK_LEN. -/
def fabDesc (d : BitVec 512) : FabDesc :=
  { op := dField d 0 0 8
    func := dField d 1 0 4
    size := dField d 1 4 3
    count := dField d 4 0 16
    remote := dField d 8 0 64
    local_ := dField d 0x10 0 22
    result := dField d 0x14 0 22
    mask := BitVec.ofNat 64 (dField d 0x18 0 64)
    mem := dField d 0x20 0 64
    length := dField d 0x28 0 64
    index := dField d 0x30 0 12
    contributors := dField d 0x30 16 13
    form := dField d 0x34 0 4 }

/-- Bytes of a SIZE code (R445). -/
def sizeBytes : Nat → Nat
  | 0 => 4
  | 1 => 8
  | 2 => 16
  | _ => 64

/-- A function and a size fit an atomic operation (R446); nr tells ATOMIC_NR. -/
def atomicOk (nr : Bool) (func size : Nat) : Bool :=
  if func ≤ 2 then decide (size ≤ 1)
  else if func ≤ 5 then decide (size ≤ 2)
  else !nr && decide (func ≤ 7) && decide (size ≤ 2)

/-- Bytes of an item's operands in the scratchpad, and of its result there. A CAS takes its operand and then its compare operand. -/
def operandBytes (p : FabDesc) : Nat :=
  match p.op with
  | 2 => sizeBytes p.size
  | 3 => if p.func = 7 then 2 * sizeBytes p.size else sizeBytes p.size
  | 4 => sizeBytes p.size
  | 5 => 64
  | 6 => sizeBytes p.size
  | _ => 0
def resultBytes (p : FabDesc) : Nat := if p.op = 1 ∨ p.op = 3 then sizeBytes p.size else 0

/-- Bytes at the remote address of one item. DEDUCED: log entry 88. -/
def remoteBytes (p : FabDesc) : Nat := if p.op = 5 ∨ p.op = 7 ∨ p.op = 8 then 64 else sizeBytes p.size

/-- Exponents of a REDUCE line. -/
def lineExps (form : Nat) : Nat :=
  match zForm form with
  | some (w, len) => zBlocks w len
  | none => 0

/-- The failures of a fabric descriptor at issue, as byte offsets (R137, R447). -/
def fabErrs (strict : Bool) (d : BitVec 512) : List Nat :=
  let p := fabDesc d
  let atomic := p.op = 3 ∨ p.op = 4
  let dma := p.op = 7 ∨ p.op = 8
  let sized := !(decide (p.op = 5) || decide dma)
  reservedErrs d [(15, 32), (48, 64), (0x10 * 8 + 22, 0x14 * 8), (0x14 * 8 + 22, 0x18 * 8), (0x30 * 8 + 12, 0x30 * 8 + 16),
      (0x30 * 8 + 29, 0x34 * 8), (0x34 * 8 + 4, 512)]
    ++ (if p.op = 0 ∨ p.op > 8 then [0] else [])
    ++ (if p.size > 3 ∨ (atomic ∧ !atomicOk (p.op == 4) p.func p.size) then [1] else [])
    ++ (if p.count = 0 then [4] else [])
    ++ (if p.remote % remoteBytes p ≠ 0 then [if sized then 1 else 8] else [])
    ++ (if operandBytes p ≠ 0 ∧ p.local_ % remoteBytes p ≠ 0 then [if sized then 1 else 0x10] else [])
    ++ (if resultBytes p ≠ 0 ∧ p.result % resultBytes p ≠ 0 then [1] else [])
    ++ (if p.local_ + p.count * operandBytes p > 2 ^ 22 ∧ operandBytes p ≠ 0 then [if sized then 1 else 4] else [])
    ++ (if p.result + p.count * resultBytes p > 2 ^ 22 ∧ resultBytes p ≠ 0 then [1] else [])
    ++ (if dma ∧ (p.length % 64 ≠ 0 ∨ p.length = 0 ∨ p.length > 2 ^ 32) then [0x28] else [])
    ++ (if dma ∧ p.mem % 64 ≠ 0 then [0x20] else [])
    ++ (if p.op = 5 ∧ (zForm p.form).isNone then [0x34] else [])
    ++ (if p.op = 5 then reservedErrs d [(0x28 * 8 + 22, 0x30 * 8)] else [])
    ++ (if p.op = 5 ∧ p.length % 2 ^ 22 + p.count * lineExps p.form > 2 ^ 22 then [4] else [])
    ++ (if p.op = 5 ∧ strict then
        (if p.contributors = 0 ∨ p.contributors > 4096 ∨ p.index ≥ p.contributors then [0x30] else [])
      else if p.index ≠ 0 ∨ p.contributors ≠ 0 then [0x30] else [])

/-- Atomics and reductions make the work of a core not repeatable (R534). -/
def fabRepeats (op : Nat) : Bool := op < 3 || op > 6

/-- ISSUE_FABRIC (R136, R137, R447). -/
def execIssueFabric (c : Fin 160) (w : IssueWord) (s : State) : Host.Outcome State Fault Refusal :=
  .next (runInsn c (· == issueWord 3 w) (issueBody c 3 w (fun d t => leastOf (fabErrs (t.flag globPage Rg.globModeStrict) d)) (fun _ _ => none)
    (fun _ t => decide ((t.core c).fabricQueue.length ≥ 32))
    (fun q x _ => { x with
      fabricQueue := x.fabricQueue ++ [{ cmd := q, serial := x.fabricSerial }], fabricSerial := x.fabricSerial + 1
      nonidem := x.nonidem || !fabRepeats (fabDesc q.desc).op })) s)

/-- The requests of a command: one for each item, or for a DMA one for each 4 KiB unit of its remote range. DEDUCED: log entry 92. -/
def fabItems (p : FabDesc) : Nat :=
  if p.op = 7 ∨ p.op = 8 then (p.remote % 4096 + p.count * p.length + 4095) / 4096 else p.count

/-- The remote address and the bytes of request i. DEDUCED: log entry 92. -/
def itemRange (p : FabDesc) (i : Nat) : Nat × Nat :=
  if p.op = 7 ∨ p.op = 8 then
    let lo := max p.remote ((p.remote / 4096 + i) * 4096)
    (lo, min (p.remote + p.count * p.length) ((p.remote / 4096 + i + 1) * 4096) - lo)
  else (p.remote + i * remoteBytes p, remoteBytes p)

/-- The local address of request i of a DMA. -/
def itemLocal (p : FabDesc) (i : Nat) : Nat := p.mem + ((itemRange p i).1 - p.remote)

/-- A posted operation (R446). -/
def postedOp (op : Nat) : Bool := op == 2 || op == 4 || op == 5 || op == 6 || op == 8

/-- Record a fault of a request (R448); a posted one sets REMOTE_FAULT. -/
def remoteFault (posted : Bool) (code dest : Nat) (s : State) : State :=
  (s.error fabrPage code 0 dest).raiseBits fabrPage (if posted then 8 else 0)

/-- A command has failed. -/
def failCommand (cmd : Nat) (x : Core) : Core :=
  { x with fabricQueue := x.fabricQueue.map fun (q : FabricCmd) => if q.serial = cmd then { q with error := true } else q }

/-- The result of a non-posted request that succeeded goes to RESULT_ADDR or to local memory (R448). -/
def putResult (c k : Nat) (p : FabDesc) (r : FabReq) (data : List Byte) (s : State) : State :=
  if p.op = 7 then s.partWrite k (itemLocal p r.item) data
  else if resultBytes p ≠ 0 then s.spadWrite c (p.result + r.item * resultBytes p) (data.take (resultBytes p))
  else s

/-- The descriptor of a request's command. -/
def cmdDesc (x : Core) (cmd : Nat) : Option FabDesc := (x.fabricQueue.find? fun q => q.serial == cmd).map fun q => fabDesc q.cmd.desc

/-- Account one answer to a request of a core; the last one removes it. -/
def countAnswer (r : FabReq) (x : Core) : Core :=
  { x with requests := if r.left ≤ 1 then x.requests.filter (fun q => q.order != r.order)
      else x.requests.map fun (q : FabReq) => if q.order = r.order then { q with left := q.left - 1 } else q }

/-- A local write of a response cannot yet be made: its page is under copy (R256). -/
def resultWaits (s : State) (c : Nat) (r : FabReq) (n : Nat) : Bool :=
  match (s.core c).ctx, cmdDesc (s.core c) r.cmd with
  | some ctx, some p => p.op == 7 && s.partWriteCheck ctx.part (itemLocal p r.item) n == .waits
  | _, _ => false

/-- An answer with a status to a request of a core (R448, R450, R451): 0 OK, 1 MERGED, 2 REFUSED with its hint, 3 DENIED, 4 FAULT,
5 UE; code is what a fault is recorded as. -/
def answerReq (c : Nat) (r : FabReq) (status hint code : Nat) (data : List Byte) (s : State) : State :=
  let x := s.core c
  let k := (x.ctx.map (·.part)).getD r.packet.part.val
  if status = 2 then
    s.setCore c { x with requests := x.requests.map fun (q : FabReq) =>
      if q.order = r.order then { q with refusedUntil := some (s.now + hint) } else q }
  else
    let t := s.setCore c (countAnswer r x)
    if status = 0 ∨ status = 1 then
      let t := if status = 1 then t.modCore c fun y => { y with
          merged := if y.merged.contains r.dest then y.merged else y.merged ++ [r.dest] } else t
      match cmdDesc x r.cmd with
      | none => t
      | some p =>
        if p.op = 7 ∧ (accessError s k (itemLocal p r.item) data.length true).isSome then t.modCore c (failCommand r.cmd)
        else putResult c k p r data t
    else
      let u := remoteFault r.posted code r.dest t
      if r.posted then u else u.modCore c (failCommand r.cmd)

/-- The code under which a fault status is recorded (R448). -/
def faultCode (status : Nat) : Nat := if status = 3 then 0x0342 else 0x0343

/-- A response to a LOAD or an ATOMIC sent outside the replay set enters the record when it arrives (R513). -/
def recordResponse (pkt : Packet) (s : State) : State :=
  if (pkt.op = 0x81 ∨ pkt.op = 0x83) ∧ !inReplaySet s pkt.part pkt.src.toNat then
    putEntry pkt.part 5 (s.reg (partPage pkt.part) Rg.partBoundaryCount) s.timeBits (packetBytes pkt (packetFlits pkt)) s
  else s

/-- A member that refuses a multicast: the request is to be sent again to those members only. -/
def noteRefusal (pkt : Packet) (c : Nat) (r : FabReq) (s : State) : State :=
  if pkt.op = 0x86 ∧ pkt.status = 2 then
    let member : BitVec 64 := 1 <<< (pkt.src.toNat % 64)
    let mask := if r.refusedUntil.isSome then r.packet.ext ||| member else member
    s.modCore c fun x => { x with requests := x.requests.map fun (q : FabReq) =>
      if q.order = r.order then { q with packet := { q.packet with ext := mask } } else q }
  else s

/-- A response reaches the core that made the request; one that matches none is late and discarded (R450). -/
def takeResponse (pkt : Packet) (s : State) : State :=
  let c := pkt.core.toNat
  match (s.core c).requests.find? fun r => r.req == pkt.req.toNat with
  | none => s
  | some r =>
    if resultWaits s c r pkt.data.length then s
    else noteRefusal pkt c r <| answerReq c r pkt.status.toNat pkt.ext.toNat (faultCode pkt.status.toNat) pkt.data (recordResponse pkt s)

/-- An answer to READ_S or READ_X brings the line (R452): stores that wait are performed once it is exclusive. FUNC = 1 tells an exclusive
answer to READ_S. -/
def takeLine (pkt : Packet) (s : State) : State :=
  let ck := copyKey pkt.src.toNat pkt.part pkt.addr.toNat
  let x := copyOf s ck
  let excl : Bool := pkt.op == 0x91 || pkt.func == 1
  if !x.asked then s
  else if pkt.status = 0 ∧ pkt.data.length = 64 then
    if x.pend.isEmpty then setCopy ck { data := some pkt.data, excl := excl } s
    else if excl then setCopy ck { data := some (overlay pkt.data x.pend), excl := true, dirty := true } s
    else (setCopy ck { x with data := some pkt.data, excl := false } s).sendPackets
      [linePacket s opReadX pkt.src.toNat pkt.part pkt.addr.toNat 0]
  else
    let t := setCopy ck { bad := true } s
    if x.pend.isEmpty then t else remoteFault true (faultCode pkt.status.toNat) pkt.src.toNat t

end Sys2Proof.Machine
end

