-- ==== Sys2Proof/Machine/Route.lean ====
section
/-! DEFINITION. Routing (R443, R449, R456, R458 to R462, R464): outputs, combining buffers, the queues of a port, quenched partitions'
stores, moves and their seals, and reachability. -/

namespace Sys2Proof.Machine

/-- A port's link, and setting it. -/
def linkOf (s : State) (p : Nat) : Link := tabGet {} p s.fabric.links
def setLink (p : Nat) (x : Link) (s : State) : State := { s with fabric := { s.fabric with links := tabPut {} p x s.fabric.links } }
def modLink (p : Nat) (f : Link → Link) (s : State) : State := setLink p (f (linkOf s p)) s

/-- A port's link is up. -/
def portUp (s : State) (p : Nat) : Bool := s.reg (aqzlPage p) Rg.aqzlLinkStatusState == 3

/-- Send a gate message (R426): its type and its fields packed above each other. -/
def State.gate (s : State) (p code value : Nat) : State := s.emit (.gate p code value)

/-- The dimensions of the span and a member's coordinates (R442, R443). -/
def spanDims (s : State) : Nat × Nat × Nat :=
  (s.reg fabrPage Rg.fabrSpanShapeX + 1, s.reg fabrPage Rg.fabrSpanShapeY + 1, s.reg fabrPage Rg.fabrSpanShapeZ + 1)
def spanSize (s : State) : Nat := (spanDims s).1 * (spanDims s).2.1 * (spanDims s).2.2
def coordsOf (s : State) (m : Nat) : Nat × Nat × Nat :=
  let d := spanDims s
  (m % d.1, m / d.1 % d.2.1, m / (d.1 * d.2.1))

/-- The ports of a ring of size n that lead from coordinate a toward b, the preferred one first: the shorter way, and + where both are
equally long (R458). -/
def ringWays (n a b plus minus : Nat) : List Nat :=
  let up := (b + n - a % n) % n
  let down := (a + n - b % n) % n
  if up = 0 then [] else if up < down then [plus] else if down < up then [minus] else [plus, minus]

/-- The ports that shorten the path to a member, in routing order: x, then y, then z (R458). -/
def shortWays (s : State) (m : Nat) : List Nat :=
  let d := spanDims s
  let a := coordsOf s (selfDevice s % 64)
  let b := coordsOf s m
  ringWays d.1 a.1 b.1 0 1 ++ ringWays d.2.1 a.2.1 b.2.1 2 3 ++ ringWays d.2.2 a.2.2 b.2.2 4 5

/-- The fabric ports within the span that are in use (R443). -/
def ringPorts (s : State) : List Nat :=
  let d := spanDims s
  (if d.1 > 1 then [0, 1] else []) ++ (if d.2.1 > 1 then [2, 3] else []) ++ (if d.2.2 > 1 then [4, 5] else [])

/-- Where traffic for a device goes first: a member of this span, or an inter-span port; none where the span is not routed (R458). -/
def firstGoal (s : State) (d : Nat) : Option (Nat ⊕ Nat) :=
  let span := d / 64
  if span = selfDevice s / 64 then some (.inl (d % 64))
  else if !s.flag fabrPage Rg.fabrSpanRouteValid span then none
  else
    let g := s.reg fabrPage Rg.fabrSpanRouteGateway span
    if g = selfDevice s % 64 then some (.inr (6 + s.reg fabrPage Rg.fabrSpanRoutePort span)) else some (.inl g)

/-- Every output that offers a path to a device, the default first, then those that shorten the path, then detours (R458, R459). -/
def waysTo (s : State) (d : Nat) : List Nat :=
  match firstGoal s d with
  | none => []
  | some (.inr p) => [p]
  | some (.inl m) =>
    let short := shortWays s m
    short ++ (if short.isEmpty then [] else (ringPorts s).filter fun p => !short.contains p)

/-- The output for a device among those that are available. -/
def outputAmong (s : State) (avail : Nat → Bool) (d : Nat) : Option Nat := (waysTo s d).find? avail

/-- An output that a destination may take: its link is up, and since it last left link-up the destination has returned to it (R459). -/
def usable (s : State) (d p : Nat) : Bool := portUp s p && (!(linkOf s p).away || (linkOf s p).back.contains d)

/-- The output for a device without a move of its own: where no other offers a path, one that is up again. -/
def plainOutput (s : State) (d : Nat) : Option Nat :=
  match outputAmong s (usable s d) d with
  | some p => some p
  | none => outputAmong s (portUp s) d

/-- The virtual channel of a packet (R446, R457). -/
def vcOf (p : Packet) : Nat :=
  let o := p.op.toNat % 128
  let resp := p.op.getLsbD 7
  if o = 7 ∨ o = 8 then 6
  else if o = 5 ∨ o = 6 then (if resp then 4 else 5)
  else if o < 8 then (if resp then 4 else 3)
  else if o < 0x18 then (if resp then 2 else 1)
  else if resp then 1 else if p.func = 2 then 5 else 2

/-- The output that traffic for a device on a VC takes: a moved destination's, else the first that is up (R458, R459). Under strict mode VC5
leaves its default output only where that is not up. DEDUCED: log entry 90. DESIGN CHOICE: log entry 112. -/
def outputOf (s : State) (d vc : Nat) : Option Nat :=
  let plain := plainOutput s d
  match tabFind d s.fabric.moves with
  | none => plain
  | some m => if (s.flag globPage Rg.globModeStrict && vc == 5) || !portUp s m.output then plain else some m.output

/-- A partition is quenched on this device (R464). DEDUCED: log entry 91. -/
def quenched (s : State) (k : Nat) : Bool := (s.reg fabrPage Rg.fabrQuenchStatePartitions).testBit k

/-- The flits of a packet that are still to be sent. -/
def QPacket.left (q : QPacket) : Nat := packetFlits q.pkt - q.sent

/-- Flits leave an input port's buffer: its running count goes back in CREDIT (R436). -/
def freeFlits (p vc n : Nat) (s : State) : State :=
  if n = 0 then s
  else
    let x := linkOf s p
    let v := (x.freed.getD vc 0 + n) % 1024
    (setLink p { x with freed := x.freed.set vc v } s).gate p 7 (vc + 8 * v)

/-- Free what a packet still holds in its input port's buffer. -/
def freeSource (q : QPacket) (n : Nat) (s : State) : State :=
  match q.src with
  | some p => freeFlits p (vcOf q.pkt) n s
  | none => s

/-- Issue a seal at a port (R427, R460): after every flit sent so far; three times. -/
def sendSeal (p : Nat) (m : GateSeal) (s : State) : State :=
  let x := linkOf s p
  let m := { m with fseq := x.txSeq }
  let code := if m.ret then 4 else 3
  let v := m.tag + 64 * m.dest + 2 ^ 18 * m.fseq
  (((setLink p { x with sealsSent := x.sealsSent ++ [m] } s).gate p code v).gate p code v).gate p code v

/-- A packet of a VC for a device has left an output or is gone: the seals behind it move up, and those with none ahead go (R460). -/
def sealsAdvance (p vc d : Nat) (s : State) : State :=
  let x := linkOf s p
  let l := x.sealsOut.map fun (w : WaitingSeal) =>
    if w.msg.dest = d then { w with ahead := w.ahead.set vc (w.ahead.getD vc 0 - 1) } else w
  let go := l.filter fun w => w.ahead.all (· == 0)
  (setLink p { x with sealsOut := l.filter fun w => !w.ahead.all (· == 0) } s).each go fun w t => sendSeal p w.msg t

/-- Flits that the store of a port's quenched partitions holds (R464). -/
def storedFlits (x : Link) : Nat :=
  x.queues.foldl (fun n (e : Nat × List QPacket) => e.2.foldl (fun m q => if q.stored then m + q.left else m) n) 0

/-- Move a quenched partition's packet out of the VC buffers into the port's store: beyond 256 flits it is discarded, its input buffer is
freed, and a packet that was cut off starts again from its first flit (R464). none tells that it is discarded. DEDUCED: log entry 91. -/
def storePacket (p : Nat) (q : QPacket) (s : State) : Option QPacket × State :=
  let t := freeSource q q.left s
  if storedFlits (linkOf s p) + packetFlits q.pkt > 256 then (none, sealsAdvance p (vcOf q.pkt) q.pkt.dest.toNat t)
  else (some { q with sent := 0, src := none, stored := true }, t)

/-- Two requests merge in a combining buffer (R456): a waiting one, and a later one with the same header. REDUCE does not merge under strict
mode. -/
def merges (s : State) (w : QPacket) (p : Packet) : Bool :=
  let a := w.pkt
  let same := a.dest == p.dest && a.addr == p.addr && a.op == p.op && a.func == p.func && a.size == p.size && a.part == p.part
  let kind := (p.op == opAtomicNr && p.func == 0) || (p.op == opAtomic && p.func == 0) ||
    (p.op == opReduce && !s.flag globPage Rg.globModeStrict && a.ext == p.ext)
  same && kind && w.sent == 0 && !w.stored && !a.retry && !p.retry

/-- The operand of an integer atomic. -/
def operandOf (p : Packet) : Nat := leNat (p.data.take (sizeBytes p.size))

/-- The merged request's data (R456). -/
def mergedData (a p : Packet) : List Byte :=
  if p.op = opReduce then
    let z := zCombine p.func (zPacket a) (zPacket p)
    z.data ++ z.exps
  else toBytes (sizeBytes p.size) (operandOf a + operandOf p)

/-- A response to a request, from this device (R445). -/
def responseTo (s : State) (p : Packet) (status : Nat) (ext : Nat) (data : List Byte) : Packet :=
  { p with op := p.op ||| 0x80, src := BitVec.ofNat 12 (selfDevice s), dest := p.src, retry := false, index := 0, contributors := 0
           status := BitVec.ofNat 8 status, ext := BitVec.ofNat 64 ext, data := data
           func := if p.op = opReadS ∨ p.op = opInvalidate then p.func else 0 }

/-- Keep a merged ATOMIC with the sum of the operands before its own (R456). -/
def keepPair (w p : Packet) (s : State) : State :=
  let mine := fun (m : MergedPair) => m.src == w.src.toNat && m.core == w.core.toNat && m.req == w.req.toNat
  let l := if s.fabric.pairs.any mine then s.fabric.pairs else s.fabric.pairs ++ [⟨w.src.toNat, w.core.toNat, w.req.toNat, []⟩]
  { s with fabric := { s.fabric with
    pairs := l.map fun (m : MergedPair) => if mine m then { m with others := m.others ++ [(p, operandOf w)] } else m } }

/-- Put a packet into its queue at an output, or merge it into a request that waits in the 16 entries of the combining buffer. DESIGN
CHOICE: log entry 112. -/
def enqueueAt (p : Nat) (q : QPacket) (s : State) : State :=
  let vc := vcOf q.pkt
  let l := tabGet [] vc (linkOf s p).queues
  match (l.take 16).findIdx? fun w => merges s w q.pkt with
  | some i =>
    let w := l.getD i q
    let t := modLink p (fun x => { x with queues := tabPut [] vc (l.set i { w with pkt := { w.pkt with data := mergedData w.pkt q.pkt } }) x.queues }) s
    let t := (freeSource q q.left t).addReg fabrPage Rg.fabrCombinedCount 1
    if q.pkt.op = opAtomic then keepPair w.pkt q.pkt t else t.sendPackets [responseTo s q.pkt 1 0 []]
  | none =>
    let r := if quenched s q.pkt.part ∧ !q.stored then storePacket p q s else (some q, s)
    match r.1 with
    | none => r.2
    | some q => modLink p (fun x => { x with queues := tabPut [] vc (tabGet [] vc x.queues ++ [q]) x.queues }) r.2

/-- The pseudo-port of packets that this device sends to itself. -/
def selfPort : Nat := 9

/-- Hold an item of a moved destination until its seal returns, or of a down output until DRAINED (R460, R461); none where nothing holds it. -/
def holdItem (s : State) (d : Nat) (i : HeldItem) : Option State :=
  match s.fabric.draining.find? fun e =>
      e.2.dests.contains d || outputAmong s (fun p => usable s d p || p == e.1) d == some e.1 with
  | some e => some { s with fabric := { s.fabric with draining := tabSet e.1 { e.2 with held := e.2.held ++ [i] } s.fabric.draining } }
  | none =>
    match tabFind d s.fabric.moves with
    | some m =>
      if m.tag.isSome then
        some { s with fabric := { s.fabric with moves := tabSet d { m with held := m.held ++ [i] } s.fabric.moves } }
      else none
    | none => none

/-- Deliver a packet for this device: it waits there for its operation. -/
def deliver (q : QPacket) (s : State) : State := modLink (q.src.getD selfPort) (fun x => { x with rx := x.rx ++ [q.pkt] }) s

/-- A request for which no output offers a path: at its source it is answered FAULT and recorded (R462). -/
def unreachable (q : QPacket) (s : State) : State :=
  let t := freeSource q q.left s
  if q.pkt.src.toNat = selfDevice s ∧ !q.pkt.op.getLsbD 7 then
    let t := t.error fabrPage 0x0341 0 q.pkt.dest.toNat
    if q.pkt.core = 255 then t
    else
      match (t.core q.pkt.core.toNat).requests.find? fun r => r.req == q.pkt.req.toNat with
      | none => t
      | some r =>
        let t := t.modCore q.pkt.core.toNat (countAnswer r)
        if r.posted then t.raise fabrPage 3 else t.modCore q.pkt.core.toNat (failCommand r.cmd)
  else t

/-- Route a packet that is not a multicast. -/
def routeOne (q : QPacket) (s : State) : State :=
  let d := q.pkt.dest.toNat
  if d = selfDevice s then deliver q s
  else
    match holdItem s d (.packet q) with
    | some t => t
    | none =>
      match outputOf s d (vcOf q.pkt) with
      | none => unreachable q s
      | some p => enqueueAt p q s

/-- The members of a multicast's mask. DEDUCED: log entry 89. -/
def maskMembers (m : BitVec 64) : List Nat := (List.range 64).filter m.getLsbD

/-- The copies of a multicast that this device sends on: one for each output, with the members behind it (R445, R446). DEDUCED: log entry
89. -/
def mcastCopies (s : State) (q : QPacket) : List (Option Nat × BitVec 64) :=
  let span := q.pkt.dest.toNat / 64 * 64
  let outs := (maskMembers q.pkt.ext).map fun m => (outputOf s (span + m) 5, m)
  ((outs.map (·.1)).eraseDups).map fun o =>
    (o, (outs.filter fun e => e.1 == o).foldl (fun (v : BitVec 64) e => v ||| 1 <<< e.2) 0)

/-- Route a packet. A multicast is delivered here where its mask names this device, and goes on to the others. -/
def routePacket (q : QPacket) (s : State) : State :=
  if q.pkt.op ≠ opMcast then routeOne q s
  else
    let me := q.pkt.dest.toNat / 64 == selfDevice s / 64 && q.pkt.ext.getLsbD (selfDevice s % 64)
    let t := if me then deliver { q with pkt := { q.pkt with ext := 1 <<< (selfDevice s % 64) } } s else s
    let rest := if me then { q with pkt := { q.pkt with ext := q.pkt.ext &&& ~~~(1#64 <<< (selfDevice s % 64)) } } else q
    let l := mcastCopies s rest
    let t := if me then t else if l.length = 1 then t else freeSource q q.left t
    t.each l fun e u =>
      match e.1 with
      | some p => enqueueAt p { rest with pkt := { rest.pkt with ext := e.2 }, src := if l.length = 1 ∧ !me then q.src else none } u
      | none => u

/-- Place a seal toward a device (R460): held with the destination's packets, or behind those that wait at its output. -/
def placeSeal (m : GateSeal) (s : State) : State :=
  match holdItem s m.dest (.gate m) with
  | some t => t
  | none =>
    match outputOf s m.dest 0 with
    | none => s
    | some p =>
      let x := linkOf s p
      let ahead := (List.range 8).map fun vc => ((tabGet [] vc x.queues).filter fun q => q.pkt.dest.toNat == m.dest).length
      if m.ret ∨ ahead.all (· == 0) then sendSeal p m s
      else setLink p { x with sealsOut := x.sealsOut ++ [⟨m, ahead⟩] } s

/-- Release what was held. -/
def releaseHeld (l : List HeldItem) (s : State) : State :=
  s.each l fun i t =>
    match i with
    | .packet q => routePacket q t
    | .gate m => placeSeal m t

/-- Hand everything that this device has formed to the outputs: packets, then the seals of its fences. -/
def flush (s : State) : State :=
  let t := { s with fabric := { s.fabric with out := [], sent := [] } }
  let t := t.each s.fabric.out fun p u => routePacket { pkt := p } u
  t.each s.fabric.sent fun e u => placeSeal ⟨false, e.1, e.2, 0⟩ u

/-- A free seal tag (R460). -/
def freeTag (s : State) : Option Nat := (List.range 64).find? fun g => (tabFind g s.fabric.seals).isNone

/-- Issue a seal toward a destination; fences that concern the destination wait for it too (R463). -/
def issueSeal (g d : Nat) (kind : SealKind) (s : State) : State :=
  let t := { s with fabric := { s.fabric with seals := tabSet g ⟨d, kind⟩ s.fabric.seals } }
  let t := t.addReg fabrPage Rg.fabrSealsOpenCount 1
  { t with cores := t.cores.map fun (e : Nat × Core) =>
    match e.2.run with
    | .blocked b =>
      if b.kind = .fence 3 ∧ e.2.sentTo.contains d then (e.1, { e.2 with fenceSeals := e.2.fenceSeals ++ [g] }) else e
    | _ => e }

/-- DRAINED goes to the partner of a down link once no seal for it is wanted or open (R461). DESIGN CHOICE: log entry 111. -/
def settleDrain (port : Nat) (s : State) : State :=
  match tabFind port s.fabric.draining with
  | none => s
  | some e =>
    let open_ := s.fabric.seals.any (fun (x : Nat × Seal) => x.2.kind == .drain port) || s.fabric.wanted.any fun w => w.1 == port
    if e.owes && !open_ then
      let t := { s with fabric := { s.fabric with draining := tabSet port { e with owes := false } s.fabric.draining } }
      match e.peer with
      | some d => t.emit (.drained d)
      | none => t
    else s

/-- Drain seals that wait for a free tag, as far as tags go. -/
def issueWanted (s : State) : State :=
  s.each s.fabric.wanted fun w t =>
    match freeTag t with
    | none => t
    | some g =>
      placeSeal ⟨false, g, w.2, 0⟩ (issueSeal g w.2 (.drain w.1)
        { t with fabric := { t.fabric with wanted := t.fabric.wanted.erase w } })

/-- The seals of fences that wait for a free tag (R460, R463). -/
def issueFences (s : State) : State :=
  let cs := (s.cores.filter fun (e : Nat × Core) =>
    match e.2.run with
    | .blocked b => b.kind == .fence 3 && !e.2.merged.isEmpty
    | _ => false).map (·.1)
  flush (s.each cs sendSeals)

/-- A seal has returned (R460, R461, R463): its tag is free, fences no longer wait for it, and what was held for a move is released. -/
def sealDone (g : Nat) (s : State) : State :=
  match tabFind g s.fabric.seals with
  | none => s
  | some x =>
    let t := { s with fabric := { s.fabric with seals := tabDel g s.fabric.seals } }
    let t := t.setReg fabrPage Rg.fabrSealsOpenCount (t.reg fabrPage Rg.fabrSealsOpenCount - 1)
    let t := { t with cores := t.cores.map fun (e : Nat × Core) => (e.1, { e.2 with fenceSeals := e.2.fenceSeals.erase g }) }
    let t := match x.kind with
      | .fence => t
      | .drain p => settleDrain p t
      | .move =>
        match tabFind x.dest t.fabric.moves with
        | none => t
        | some m =>
          let held := m.held
          let m := { m with tag := none, held := [] }
          let t := if m.back then modLink m.output (fun y => { y with back := if y.away && !y.back.contains x.dest then y.back ++ [x.dest] else y.back }) t else t
          releaseHeld held { t with fabric := { t.fabric with
            moves := if m.back then tabDel x.dest t.fabric.moves else tabSet x.dest m t.fabric.moves } }
    issueFences (issueWanted t)

/-- The members that some output reaches (R462), this device among them. -/
def reachableNow (s : State) : Nat :=
  let span := selfDevice s / 64 * 64
  (List.range (spanSize s)).foldl (fun v m =>
    if m = selfDevice s % 64 ∨ (outputAmong s (portUp s) (span + m)).isSome then v + 2 ^ m else v) 0

/-- Bring FABR.REACHABLE up to date; UNREACHABLE is raised where a member's bit clears. DEDUCED: log entry 90. -/
def updateReach (s : State) : State :=
  let old := s.reg fabrPage Rg.fabrReachableMembers
  let new := if s.flag fabrPage Rg.fabrDeviceIdValid then reachableNow s else 0
  (s.setReg fabrPage Rg.fabrReachableMembers new).raiseBits fabrPage (if (List.range 64).any fun m => old.testBit m && !new.testBit m then 4 else 0)

/-- Move a destination from an output that is up to another, with a seal behind its last flit (R460). DEDUCED: log entry 90. -/
def moveDest (d from_ dst : Nat) (back : Bool) (s : State) : State :=
  match freeTag s with
  | none => s
  | some g =>
    let t := placeSeal ⟨false, g, d, 0⟩ (issueSeal g d .move s)
    let t := { t with fabric := { t.fabric with moves := tabSet d { output := dst, tag := some g, back := back } t.fabric.moves } }
    (t.bump fabrPage Rg.fabrReroutesCount).raiseBits fabrPage (if from_ = dst then 0 else 2)

/-- Some VC of an output holds a credit. -/
def hasCredit (s : State) (p : Nat) : Bool :=
  let x := linkOf s p
  (List.range 8).any fun vc => decide (x.inFlight.getD vc 0 < x.peerDivision.getD vc 0)

/-- ROUTE_MOVE (R459, R460): an output has given no credit for ADAPT_TIME while another has; the output that still shortens the path is
preferred. -/
def execRouteMove (dest : BitVec 12) (output : Fin 8) (s : State) : Host.Outcome State Fault Refusal :=
  let s := flush s
  let d := dest.toNat
  let adapt := max 1 (s.reg fabrPage Rg.fabrAdaptControlAdaptTime) * 1000
  .next (match outputOf s d 0 with
    | none => s
    | some a =>
      let ways := (waysTo s d).filter fun p => portUp s p && hasCredit s p && p != a
      let short := match firstGoal s d with
        | some (.inl m) => ways.filter (shortWays s m).contains
        | _ => []
      let busy : Bool := match tabFind d s.fabric.moves with
        | some m => m.tag.isSome
        | none => decide (s.fabric.moves.length ≥ 1024)
      if s.working ∧ s.flag fabrPage Rg.fabrAdaptControlEnable ∧ s.now ≥ (linkOf s a).creditAt + adapt ∧ ways.contains output.val ∧
          (short.isEmpty ∨ short.contains output.val) ∧ !busy then
        moveDest d a output.val false s
      else s)

/-- ROUTE_RETURN (R459): the default output has run uncongested for 1 ms, and takes back a destination that has moved, or that went away
when it left link-up. DEDUCED: log entry 90. -/
def execRouteReturn (dest : BitVec 12) (s : State) : Host.Outcome State Fault Refusal :=
  let s := flush s
  let d := dest.toNat
  let busy : Bool := match tabFind d s.fabric.moves with
    | some m => m.tag.isSome
    | none => decide (s.fabric.moves.length ≥ 1024)
  .next (match outputOf s d 0, (waysTo s d).head? with
    | some a, some p =>
      if s.working ∧ !busy ∧ a ≠ p ∧ portUp s p ∧ s.now ≥ (linkOf s p).starvedAt + 1000000 then moveDest d a p true s else s
    | _, _ => s)

/-- The destinations of packets received from an input port that still wait here (R461). -/
def heldFrom (s : State) (p : Nat) : List Nat :=
  ((s.fabric.links.map fun (e : Nat × Link) => (e.2.queues.map fun (f : Nat × List QPacket) =>
    (f.2.filter fun q => q.src == some p).map fun q => q.pkt.dest.toNat).flatten).flatten).eraseDups

/-- Everything that waits at an output: its packets, unsent, and its seals. -/
def outputItems (x : Link) : List HeldItem :=
  (x.queues.map fun (e : Nat × List QPacket) => e.2.map fun q => HeldItem.packet { q with sent := 0 }).flatten ++
    x.sealsOut.map fun w => HeldItem.gate w.msg

/-- OUTPUT_DOWN (R461): the destinations of an output that has left link-up move; later flits for them are held until DRAINED. As the far end
of the other direction, this device seals toward every destination of what it received from that input and still holds. -/
def execOutputDown (p : Fin 8) (s : State) : Host.Outcome State Fault Refusal :=
  let s := flush s
  let x := linkOf s p
  .next (if s.alive ∧ x.wasUp ∧ !portUp s p ∧ !x.downHandled then
      let items := outputItems x
      let moved := (s.fabric.moves.filter fun (e : Nat × MoveEntry) => e.2.output == p.val).map (·.1)
      let wants := (heldFrom s p).map fun d => (p.val, d)
      let peer := if s.flag fabrPage Rg.fabrPortPeerValid p then some (s.reg fabrPage Rg.fabrPortPeerDevice p) else none
      let t := setLink p { x with queues := [], sealsOut := [], downHandled := true, away := true, back := [] } s
      let t := { t with fabric := { t.fabric with
        draining := tabSet p.val { since := s.now, peer := peer, dests := moved } t.fabric.draining
        wanted := t.fabric.wanted ++ wants
        moves := t.fabric.moves.filter fun (e : Nat × MoveEntry) => e.2.output != p.val || e.2.tag.isSome } }
      let t := updateReach ((t.bump fabrPage Rg.fabrReroutesCount).raise fabrPage 1)
      settleDrain p (issueWanted (releaseHeld items t))
    else s)

/-- What a down output held is released (R461). -/
def endDrain (p : Nat) (s : State) : State :=
  match tabFind p s.fabric.draining with
  | none => s
  | some e => releaseHeld e.held { s with fabric := { s.fabric with draining := tabDel p s.fabric.draining } }

/-- DRAINED (R461). DESIGN CHOICE: log entry 111. -/
def execDrained (p : Fin 8) (s : State) : Host.Outcome State Fault Refusal :=
  .next (if s.alive then endDrain p (flush s) else s)

/-- DRAIN_TIMEOUT (R461): the far end is taken as failed, and the held flits are released. -/
def execDrainTimeout (p : Fin 8) (s : State) : Host.Outcome State Fault Refusal :=
  .next (match tabFind p.val s.fabric.draining with
    | none => s
    | some e =>
      if s.alive ∧ s.now ≥ e.since + 1000 * s.reg fabrPage Rg.fabrDrainTimeoutMicros then
        endDrain p ((flush s).error fabrPage 0x0345 0 (e.peer.getD 0))
      else s)

/-- Put a packet at the end of its queue. -/
def appendAt (p vc : Nat) (q : QPacket) (s : State) : State :=
  modLink p (fun x => { x with queues := tabPut [] vc (tabGet [] vc x.queues ++ [q]) x.queues }) s

/-- Move the packets of quenched partitions into the stores of their outputs, and those of released ones out again (R464, R465). -/
def storeQuenched (s : State) : State :=
  s.each (List.range 9) fun p t =>
    t.each (List.range 8) fun vc u =>
      let l := tabGet [] vc (linkOf u p).queues
      (modLink p (fun x => { x with queues := tabPut [] vc [] x.queues }) u).each l fun q w =>
        if quenched w q.pkt.part && !q.stored then
          let r := storePacket p q w
          match r.1 with
          | some q => appendAt p vc q r.2
          | none => r.2
        else appendAt p vc { q with stored := q.stored && quenched w q.pkt.part } w

/-- Send QUENCH or its release on every port that is up, on each active lane (R427, R464). -/
def gateQuench (k : Nat) (on : Bool) (s : State) : State :=
  s.each ((List.range 9).filter (portUp s)) fun p t => t.gate p 2 (k + 64 * bit on)

/-- Bring QUENCH_STATE up to date with the local and the learned quenches (R464). -/
def updateQuench (s : State) : State :=
  let old := s.reg fabrPage Rg.fabrQuenchStatePartitions
  let new := s.reg fabrPage Rg.fabrQuenchPartitions ||| s.fabric.learned.toNat
  let t := s.setReg fabrPage Rg.fabrQuenchStatePartitions new
  let fresh := (List.range 64).filter fun k => new.testBit k && !old.testBit k
  let t := t.each fresh fun k u => gateQuench k true u
  storeQuenched (t.raiseBits fabrPage (if fresh.isEmpty then 0 else 32))

/-- Set the local quench (R464, R465): a bit that clears sends the release and forgets the learned quench. -/
def setQuench (v : Nat) (s : State) : State :=
  let s := flush s
  let old := s.reg fabrPage Rg.fabrQuenchPartitions
  let gone := (List.range 64).filter fun k => old.testBit k && !v.testBit k
  let t := s.setReg fabrPage Rg.fabrQuenchPartitions v
  let t := t.each gone fun k u => gateQuench k false
    { u with fabric := { u.fabric with learned := u.fabric.learned &&& ~~~(1#64 <<< k) } }
  updateQuench t

/-- QUENCH_WRITE (R464, R465). DEDUCED: log entry 91. -/
def execQuenchWrite (who : Requester) (value : BitVec 64) (s : State) : Host.Outcome State Fault Refusal :=
  .next (writeAccess who fabrPage 0x098 (setQuench value.toNat) s)

/-- QUENCH (R464, R465): a device learns a quench; a release makes it forget, goes on to the other ports, and closes its ears for 10 µs.
DEDUCED: log entry 91. -/
def execQuench (p : Fin 9) (part : Fin 64) (on : Bool) (s : State) : Host.Outcome State Fault Refusal :=
  let k := part.val
  let deaf := decide (s.now < tabGet 0 k s.fabric.ignoreUntil)
  .next (if !(s.alive && portUp s p) || deaf then s
    else if on then updateQuench { (flush s) with fabric := { (flush s).fabric with learned := s.fabric.learned ||| 1#64 <<< k } }
    else
      let t := flush s
      let t := { t with fabric := { t.fabric with
        learned := t.fabric.learned &&& ~~~(1#64 <<< k), ignoreUntil := tabSet k (s.now + 10000) t.fabric.ignoreUntil } }
      let t := t.each ((List.range 9).filter fun q => portUp s q && q != p.val) fun q u => u.gate q 2 k
      updateQuench t)

end Sys2Proof.Machine
end

