-- ==== Sys2Proof/Machine/Home.lean ====
section
/-! DEFINITION. Operations at their home (R444, R446, R450 to R457, R466): checks, the coherence directory, the absorber, refusals, atomics,
reductions, and what a holder of a line answers. -/

namespace Sys2Proof.Machine

/-- What becomes of a request at its home: it is answered, with the state that it leaves; it is taken and its answer follows; or it cannot
be performed yet and stays. -/
inductive Served where
  | answer (s : State) (status hint : Nat) (data : List Byte)
  | taken (s : State)
  | later (s : State)
  deriving DecidableEq, Repr

/-- The new value of an integer atomic (R446): ADD wraps, MIN and MAX compare as two's complement, CAS writes where the old value equals the
compare operand. DESIGN CHOICE: log entry 84. -/
def atomicValue (func bytes old operand compare : Nat) : Nat :=
  let w := 8 * bytes
  match func with
  | 0 => (old + operand) % 2 ^ w
  | 1 => if signed w operand < signed w old then operand else old
  | 2 => if signed w operand > signed w old then operand else old
  | 3 => old &&& operand
  | 4 => old ||| operand
  | 5 => old ^^^ operand
  | 6 => operand
  | _ => if old = compare then operand else old

/-- The bytes that a request reaches at its address (R446). -/
def requestBytes (p : Packet) : Nat :=
  if p.op = opDmaRead ∨ p.op = opDmaWrite then p.ext.toNat
  else if p.op = opReduce ∨ p.op.toNat ≥ 0x10 then 64
  else sizeBytes p.size

/-- A request has a form that R445 and R446 give its operation. DEDUCED: log entry 88. -/
def requestOk (p : Packet) : Bool :=
  let n := requestBytes p
  let align := if p.op = opDmaRead ∨ p.op = opDmaWrite ∨ p.op.toNat ≥ 0x10 then 64 else n
  p.addr.toNat % max 1 align == 0 && decide (p.size.val ≤ 3) &&
    (if p.op = opAtomic then atomicOk false p.func p.size && p.data.length == (if p.func = 7 then 2 * n else n)
     else if p.op = opAtomicNr then atomicOk true p.func p.size && p.data.length == n
     else if p.op = opReduce then
       (zForm p.func).isSome && p.data.length == 64 + lineExps p.func && (p.contributors == 0 || p.index.toNat < p.contributors.toNat) &&
         decide (p.contributors.toNat ≤ 4096)
     else if p.op = opDmaRead ∨ p.op = opDmaWrite then
       decide (64 ≤ n) && decide (n ≤ 4096) && n % 64 == 0 && (p.op == opDmaRead || p.data.length == n)
     else if p.op = opStore ∨ p.op = opMcast then p.data.length == n
     else true)

/-- A request writes, and it ends every copy (R452, R453). -/
def requestWrites (p : Packet) : Bool := p.op != opLoad && p.op != opDmaRead
def requestEnds (p : Packet) : Bool := p.op != opLoad

/-- The first line of a request's range for which copies or replicas must first be removed. -/
def blockedLine (s : State) (p : Packet) : Option Nat :=
  ((linesOf p.addr.toNat (requestBytes p)).map (·.1)).find? fun a =>
    lineBlock s p.part a (requestWrites p) (requestEnds p) != .none

/-- The status of an access that fails translation (R242, R444). -/
def accessStatus : AccessError → Nat
  | .fault => 4
  | .denied => 3

/-- The home agent of a byte: the memory-side die that serves it (R18, R454). -/
def homeDie (s : State) (k a : Nat) : Nat :=
  match s.pageOf k a with
  | none => 0
  | some e =>
    match placeOf s e a with
    | .here .hbm key => dieOfStack (stackOf key)
    | .here .buf key => key / 2 ^ 27
    | .here _ key => key / 2 ^ 44 / 2
    | _ => 0

/-- One line passes through its home agent's absorber (R454): it merges into the line's entry, takes a free one, or reuses the least recently
written one. -/
def absorbLine (k a : Nat) (s : State) : State :=
  let m := homeDie s k a
  let l := tabGet [] m s.fabric.absorber
  let dk := dirKey k a
  let l := if l.any fun e => e.1 == dk then l.filter fun e => e.1 != dk else if l.length ≥ 64 then l.drop 1 else l
  { s with fabric := { s.fabric with absorber := tabSet m (l ++ [(dk, s.now)]) s.fabric.absorber } }

/-- A request goes through the absorber: its data is for a line that its source does not share in the coherence group. -/
def absorbed (s : State) (p : Packet) : Bool :=
  (p.op == opStore || p.op == opAtomicNr || p.op == opMcast || p.op == opDmaWrite) && !inGroup s p.src.toNat

/-- A request needs an entry of a full absorber. Whether one can be reused within 200 ns is not stated (R455). -/
def absorberFull (s : State) (p : Packet) : Bool :=
  (linesOf p.addr.toNat (requestBytes p)).any fun l =>
    let e := tabGet [] (homeDie s p.part l.1) s.fabric.absorber
    decide (e.length ≥ 64) && !e.any fun x => x.1 == dirKey p.part l.1

/-- An absorbed request is counted, and its lines are in the absorber. DEDUCED: log entry 88. -/
def absorb (p : Packet) (s : State) : State :=
  if absorbed s p then
    (s.each (linesOf p.addr.toNat (requestBytes p)) fun l t => absorbLine p.part l.1 t).addReg fabrPage Rg.fabrAbsorbedCount 1
  else s

/-- A refusal (R451, R455): the hint is the home's estimate, and every later request of the source on the VC is refused too. DEDUCED: log
entry 88. -/
def refuse (p : Packet) (s : State) : Served :=
  let x := (p.src.toNat, vcOf p)
  let t := { s with fabric := { s.fabric with
    refusing := if s.fabric.refusing.contains x then s.fabric.refusing else s.fabric.refusing ++ [x] } }
  .answer t.usedFree 2 (64 + (s.free 16).toNat % 65472) []

/-- A LOAD from a member of the span enters the readers of its page; enough of them within 100 µs replicate a page that has had no write for
10 ms (R457). -/
def noteLoad (p : Packet) (s : State) : State :=
  let d := p.src.toNat
  let rk := repKey p.part p.addr.toNat
  let e := repOf s rk
  if !s.flag fabrPage Rg.fabrReplControlEnable ∨ d / 64 ≠ selfDevice s / 64 ∨ d = selfDevice s ∨ inGroup s d ∨ !e.awaits.isEmpty then s
  else if !e.mask.isEmpty then setRep rk { e with mask := if e.mask.contains d then e.mask else e.mask ++ [d] } s
  else
    let r := tabSet d s.now (e.readers.filter fun (x : Nat × Nat) => decide (s.now ≤ x.2 + 100000))
    let quiet := pastWrite s e.wroteAt
    let room := (s.fabric.reps.filter fun (x : Nat × RepPage) => !x.2.mask.isEmpty).length < 4096
    setRep rk (if r.length ≥ s.reg fabrPage Rg.fabrReplControlReaders ∧ quiet ∧ room then
      { e with readers := [], mask := r.map (·.1) } else { e with readers := r }) s
where
  pastWrite (s : State) (t : Option Nat) : Bool :=
    match t with
    | none => true
    | some w => decide (s.now ≥ w + 10000000)

/-- A request that reads bytes and writes others (R446): what it reads is delivered whole, or it is answered UE. -/
def readServed (p : Packet) (done : List Byte → State → Served) (s : State) : Served :=
  let k := p.part.val
  let a := p.addr.toNat
  let n := requestBytes p
  match s.partRead k a n with
  | .error e _ => .answer (s.faultTouch k a n false) (accessStatus e) 0 []
  | .held _ => .later (s.partTouch k a n)
  | .data b =>
    match b.mapM id with
    | none => .answer (s.partTouch k a n) 5 0 []
    | some bytes => done bytes (s.partTouch k a n)

/-- A request that writes bytes. -/
def writeServed (p : Packet) (bytes : List Byte) (status : Nat) (data : List Byte) (s : State) : Served :=
  match s.partWriteCheck p.part p.addr.toNat bytes.length with
  | .error e _ => .answer (s.faultTouch p.part p.addr.toNat bytes.length true) (accessStatus e) 0 []
  | .waits => .later s
  | .done => .answer (absorb p (s.partStore p.part p.addr.toNat bytes)) status 0 data

/-- An integer atomic at the home of the word (R446). -/
def atomicServed (p : Packet) (s : State) : Served :=
  match accessError s p.part p.addr.toNat (requestBytes p) true with
  | some (e, _) => .answer (s.faultTouch p.part p.addr.toNat (requestBytes p) true) (accessStatus e) 0 []
  | none =>
    if writeWaits s p.part p.addr.toNat (requestBytes p) then .later s
    else
      readServed p (fun old t =>
        let n := requestBytes p
        let v := atomicValue p.func n (leNat old) (leNat (p.data.take n)) (leNat (p.data.drop n))
        writeServed p (toBytes n v) 0 (if p.op = opAtomic then old else []) t) s

/-- The line at a REDUCE's address with its exponents; none where it cannot be read yet. -/
def memoryLine (s : State) (k a sa func : Nat) : Option ZLine :=
  match s.partRead k a 64, s.partRead k sa (lineExps func) with
  | .data x, .data y => some (zRead func x y)
  | _, _ => none

/-- Write a line and its exponents. -/
def putLine (k a sa : Nat) (z : ZLine) (s : State) : State := (s.partStore k a z.data).partStore k sa z.exps

/-- The answers to the contributions of a strict reduction that has been performed. DEDUCED: log entry 89. -/
def gatherAnswers (s : State) (g : Gather) (last : Packet) : List Packet :=
  ((g.got.map (·.2)).filter fun p => p != last).map fun p => responseTo s p 0 0 []

/-- A contribution to a strict reduction (R466): the line is written once all are there; a later one with the same index adds nothing.
DEDUCED: log entry 89. -/
def gatherServed (p : Packet) (s : State) : Served :=
  let a := p.addr.toNat
  let sa := p.ext.toNat
  let gk := p.part.val * 2 ^ 64 + a
  let set := fun (v : Table Gather) (t : State) => { t with fabric := { t.fabric with gathers := v } }
  let go := fun (g : Gather) =>
    if g.count ≠ p.contributors.toNat ∨ g.func ≠ p.func.val ∨ g.scaleAddr ≠ sa then Served.answer s 4 0 []
    else if (tabFind p.index.toNat g.got).isSome then .answer s 0 0 []
    else
      let g := { g with got := tabSet p.index.toNat p g.got }
      if g.got.length < g.count then .taken (set (tabSet gk g s.fabric.gathers) s)
      else
        match memoryLine s p.part a sa p.func with
        | none => .later ((s.partTouch p.part a 64).partTouch p.part sa (lineExps p.func))
        | some m =>
          let leaf := fun i => match tabFind i g.got with
            | some q => zPacket q
            | none => zPoison p.func
          let t := (s.partTouch p.part a 64).partTouch p.part sa (lineExps p.func)
          let t := putLine p.part a sa (zCombine p.func m (zTree p.func leaf 13 0 g.count)) t
          .answer (set (tabDel gk s.fabric.gathers) t |>.sendPackets (gatherAnswers s g p)) 0 0 []
  match tabFind gk s.fabric.gathers with
  | some g => go g
  | none =>
    if s.fabric.gathers.length ≥ 64 then refuse p (s.bump fabrPage Rg.fabrRefusedCount)
    else go { count := p.contributors.toNat, scaleAddr := sa, func := p.func, since := s.now }

/-- REDUCE (R446, R466): the line in memory is the earlier operand (R75). -/
def reduceServed (p : Packet) (s : State) : Served :=
  let a := p.addr.toNat
  let sa := p.ext.toNat
  let n := lineExps p.func
  match accessError s p.part a 64 true, accessError s p.part sa n true with
  | some (e, _), _ => .answer (s.faultTouch p.part a 64 true) (accessStatus e) 0 []
  | none, some (e, _) => .answer (s.faultTouch p.part sa n true) (accessStatus e) 0 []
  | none, none =>
    if writeWaits s p.part a 64 ∨ writeWaits s p.part sa n then .later s
    else if p.contributors ≠ 0 then gatherServed p s
    else
      match memoryLine s p.part a sa p.func with
      | none => .later ((s.partTouch p.part a 64).partTouch p.part sa n)
      | some m =>
        .answer (putLine p.part a sa (zCombine p.func m (zPacket p)) ((s.partTouch p.part a 64).partTouch p.part sa n)) 0 0 []

/-- Make room in a full directory (R453): its least recently used entry is asked for. DEDUCED: log entry 88. -/
def dirRoom (s : State) : State :=
  if s.fabric.dir.length < 4 * 8388608 then s
  else
    match s.fabric.dir.filter fun (e : Nat × DirEntry) => e.2.awaits.isEmpty with
    | [] => s
    | x :: xs =>
      let l := xs.foldl (fun (b : Nat × DirEntry) e => if e.2.used < b.2.used then e else b) x
      dirAsk l.1 l.2 none true s

/-- Data of a line to a member that asks for it (R453), with its new directory entry. DESIGN CHOICE: log entry 84. -/
def grantLine (p : Packet) (e : DirEntry) (excl : Bool) (s : State) : Served :=
  let k := p.part.val
  let a := p.addr.toNat
  let r := p.src.toNat
  match s.pageOf k a with
  | none => .answer s 4 0 []
  | some pe =>
    let b := partBytes s k (a, 64) 0
    let t := s.when (!placeCached s (placeOf s pe a)) (warm k a)
    let t := match placeOf s pe a with
      | .here rg key => fetchLine k .allocate rg key 64 t
      | _ => t
    match b.mapM id with
    | none => .answer t 5 0 []
    | some bytes =>
      let e := if excl then { e with sharers := [], owner := some r, used := s.now }
        else { e with sharers := if e.sharers.contains r then e.sharers else e.sharers ++ [r], used := s.now }
      .answer (setDir (dirKey k a) e t) 0 0 bytes

/-- READ_S and READ_X at the home (R453). -/
def coherentServed (p : Packet) (grantE : Bool) (s : State) : Served :=
  let k := p.part.val
  let a := p.addr.toNat
  let r := p.src.toNat
  let x := p.op == opReadX
  let here : Bool := match s.pageOf k a with
    | some e => match placeOf s e a with
      | .here _ _ => true
      | _ => false
    | none => false
  match accessError s k a 64 x with
  | some (e, _) => .answer (s.faultTouch k a 64 x) (accessStatus e) 0 []
  | none =>
    if !inGroup s r ∨ !here then .answer s 4 0 []
    else if unitHeld s k (a, 64) then .later (s.partTouch k a 64)
    else if (s.pageOf k a).any fun e => placeHeld s (placeOf s e a) then .later s
    else if x ∧ writeWaits s k a 64 then .later s
    else if x ∧ lineBlock s k a true false = .page then .taken (lineWait k a true true (.request p grantE) s)
    else
      match dirFind s (dirKey k a) with
      | none => grantLine p {} (x || grantE) (dirRoom s)
      | some e =>
        let wait := fun (ending : Bool) =>
          let e := { e with waiting := e.waiting ++ [.request p grantE], used := s.now }
          Served.taken (if e.awaits.isEmpty then dirAsk (dirKey k a) e (some r) ending s else setDir (dirKey k a) e s)
        if !e.awaits.isEmpty then wait x
        else
          match e.owner with
          | some o => if o = r then grantLine p e true s else wait x
          | none =>
            if !x then grantLine p e false s
            else if e.sharers.all (· == r) then grantLine p e true s
            else wait true

/-- A request at its home, its permissions checked and no copy in the way. -/
def serve (p : Packet) (grantE : Bool) (s : State) : Served :=
  let n := requestBytes p
  if p.op = opReadS ∨ p.op = opReadX then coherentServed p grantE s
  else if p.op = opLoad then readServed p (fun b t => .answer (noteLoad p t) 0 0 b) s
  else if p.op = opDmaRead then readServed p (fun b t => .answer t 0 0 b) s
  else if p.op = opStore ∨ p.op = opMcast ∨ p.op = opDmaWrite then writeServed p (p.data.take n) 0 [] s
  else if p.op = opAtomic ∨ p.op = opAtomicNr then atomicServed p s
  else reduceServed p s

/-- A request in its turn: copies and replicas are removed first (R452, R453, R457), and a full absorber refuses (R455). -/
def serveTurn (p : Packet) (grantE : Bool) (s : State) : Served :=
  if !requestOk p then .answer s 4 0 []
  else if p.op = opReadS ∨ p.op = opReadX then serve p grantE s
  else if absorbed s p ∧ absorberFull s p ∧ s.free 1 1 = 1 then refuse p (s.bump fabrPage Rg.fabrRefusedCount)
  else
    let s := if absorbed s p ∧ absorberFull s p then s.usedFree 2 else s
    match blockedLine s p with
    | some a => .taken (lineWait p.part a (requestWrites p) (requestEnds p) (.request p grantE) s)
    | none => serve p grantE s

/-- The permission of a request (R444): partition k is enabled and not being cleared (R577), and the source lies in its PEER_RANGE. -/
def permitted (s : State) (p : Packet) : Bool :=
  s.partOn p.part && !zeroizing s p.part && (p.src.toNat == selfDevice s || peerAllowed s p.part p.src.toNat)

/-- A request comes from outside the replay set of a partition that records. -/
def recordedIn (s : State) (p : Packet) : Bool := recording s p.part && !inReplaySet s p.part p.src.toNat

/-- A request arrives at its home (R444, R451, R513): a posted one of a recorded partition from outside the replay set is answered at once and
held to the boundary; a non-posted atomic is denied. -/
def arrive (p : Packet) (grantE : Bool) (s : State) : Served :=
  let x := (p.src.toNat, vcOf p)
  if !permitted s p then .answer s 3 0 []
  else if s.fabric.refusing.contains x ∧ !p.retry then refuse p s
  else
    let s := { s with fabric := { s.fabric with refusing := s.fabric.refusing.erase x } }
    if recordedIn s p ∧ p.op = opAtomic then .answer s 3 0 []
    else if recordedIn s p ∧ postedOp p.op.toNat then .answer (holdInput p.part (.packet p) s) 0 0 []
    else serveTurn p grantE s

/-- The response of a request that has been served. An exclusive answer to READ_S carries FUNC = 1. -/
def answerTo (s : State) (p : Packet) (grantE : Bool) (status hint : Nat) (data : List Byte) : Packet :=
  let r := responseTo s p status hint data
  if p.op = opReadS then { r with func := if (dirFind s (dirKey p.part p.addr.toNat)).any (fun e => e.owner == some p.src.toNat) && grantE then 1 else 0 }
  else r

/-- The posted request of a recorded partition is performed at its boundary (R513); its answer has gone. -/
def performPosted (p : Packet) (s : State) : State :=
  match serveTurn p false s with
  | .answer t _ _ _ => t
  | .taken t => t
  | .later t => t

/-- What waited for a line or a page goes on, in order (R453). -/
def runWaiting (l : List DirWait) (s : State) : State :=
  s.each l fun w t =>
    match w with
    | .write k a bytes =>
      match t.pageOf k a with
      | some e =>
        match placeOf t e a with
        | .here r key => t.storeHome k a r key bytes
        | _ => t
      | none => t
    | .request p g =>
      match serveTurn p g t with
      | .answer u st hint data => u.sendPackets [answerTo u p g st hint data]
      | .taken u => u
      | .later u => deliver { pkt := p } u

/-- A holder of a line has given it up or answered for it; the last answer lets what waits go on (R453). -/
def lineAnswered (dk d : Nat) (gone : Bool) (s : State) : State :=
  match dirFind s dk with
  | none => s
  | some e =>
    let out := gone || e.ending
    let sharers := if out then e.sharers.filter (· != d) else if e.owner = some d then e.sharers ++ [d] else e.sharers
    let owner := if e.owner = some d then none else e.owner
    let awaits := e.awaits.filter (· != d)
    let e := { e with sharers := sharers, owner := owner, awaits := awaits }
    if awaits.isEmpty then runWaiting e.waiting (setDir dk { e with waiting := [] } s) else setDir dk e s

/-- Bytes that an owner hands back go to memory; where it has none to hand, the line reads back poisoned. -/
def lineBack (p : Packet) (s : State) : State :=
  let k := p.part.val
  let a := p.addr.toNat
  match s.pageOf k a with
  | none => s
  | some e =>
    match placeOf s e a with
    | .here r key => if p.status ≠ 0 then s.partSpoil k a 64 else if p.data.length = 64 then s.store r key p.data else s
    | _ => s

/-- An answer to INVALIDATE or RECALL reaches the home (R453, R457). -/
def takeAnswer (p : Packet) (s : State) : State :=
  let d := p.src.toNat
  if p.op = 0x98 ∧ p.func = 2 then
    let rk := repKey p.part p.addr.toNat
    let e := repOf s rk
    if !e.awaits.contains d then s
    else
      let e := { e with awaits := e.awaits.filter (· != d) }
      if e.awaits.isEmpty then runWaiting e.waiting (setRep rk { e with waiting := [], wroteAt := some s.now } s) else setRep rk e s
  else
    let dk := dirKey p.part p.addr.toNat
    match dirFind s dk with
    | none => s
    | some e => if !e.awaits.contains d then s else lineAnswered dk d false (if p.op = 0x99 then lineBack p s else s)

/-- A packet is the next of its source and VC among those received at a port (R449), and taking it frees its flits (R436). -/
def rxReady (s : State) (p : Packet) : Bool :=
  s.fabric.links.all fun (e : Nat × Link) =>
    match e.2.rx.find? fun q => q.src == p.src && vcOf q == vcOf p with
    | some q => !e.2.rx.contains p || q == p
    | none => true
def takeRx (p : Packet) (s : State) : State :=
  match s.fabric.links.find? fun (e : Nat × Link) => e.2.rx.contains p with
  | none => s
  | some e =>
    let t := setLink e.1 { e.2 with rx := e.2.rx.erase p } s
    if e.1 = selfPort then t else freeFlits e.1 (vcOf p) (packetFlits p) t

/-- A request is for this device. -/
def forHere (s : State) (p : Packet) : Bool :=
  if p.op = opMcast then p.dest.toNat / 64 == selfDevice s / 64 && p.ext.getLsbD (selfDevice s % 64) else p.dest.toNat == selfDevice s

/-- A request packet is served at this device and answered. DEDUCED: log entry 83. -/
def homeCommand (op : BitVec 8) (p : Packet) (grantE : Bool) (s : State) : State :=
  if !(s.working && s.serves fabrPage && s.flag fabrPage Rg.fabrDeviceIdValid) || p.op != op || !forHere s p || !rxReady s p then s
  else
    match arrive p grantE s with
    | .answer t st hint data => (takeRx p t).sendPackets [answerTo t p grantE st hint data]
    | .taken t => takeRx p t
    | .later t => t

/-- LOAD (R446). -/
def execLoad (pkt : Packet) (s : State) : Host.Outcome State Fault Refusal := .next (homeCommand opLoad pkt false s)

/-- STORE (R446, R454). -/
def execStore (pkt : Packet) (s : State) : Host.Outcome State Fault Refusal := .next (homeCommand opStore pkt false s)

/-- ATOMIC (R446). -/
def execAtomic (pkt : Packet) (s : State) : Host.Outcome State Fault Refusal := .next (homeCommand opAtomic pkt false s)

/-- ATOMIC_NR (R446, R454). -/
def execAtomicNr (pkt : Packet) (s : State) : Host.Outcome State Fault Refusal := .next (homeCommand opAtomicNr pkt false s)

/-- REDUCE (R446, R466). -/
def execReduce (pkt : Packet) (s : State) : Host.Outcome State Fault Refusal := .next (homeCommand opReduce pkt false s)

/-- MCAST_STORE at a member that its mask names (R446). -/
def execMcastStore (pkt : Packet) (s : State) : Host.Outcome State Fault Refusal := .next (homeCommand opMcast pkt false s)

/-- DMA_READ (R446). -/
def execDmaRead (pkt : Packet) (s : State) : Host.Outcome State Fault Refusal := .next (homeCommand opDmaRead pkt false s)

/-- DMA_WRITE (R446, R454). -/
def execDmaWrite (pkt : Packet) (s : State) : Host.Outcome State Fault Refusal := .next (homeCommand opDmaWrite pkt false s)

/-- READ_S (R453): from state I the home may grant the line exclusively. -/
def execReadS (pkt : Packet) (grantE : Bool) (s : State) : Host.Outcome State Fault Refusal :=
  .next (homeCommand opReadS pkt grantE s)

/-- READ_X (R453). -/
def execReadX (pkt : Packet) (s : State) : Host.Outcome State Fault Refusal := .next (homeCommand opReadX pkt false s)

/-- A message about a line that is always taken: it does its work and is answered OK, or DENIED under R444. DEDUCED: log entry 83. -/
def lineCommand (op : BitVec 8) (p : Packet) (work : State → State × List Byte) (s : State) : State :=
  if !(s.working && s.serves fabrPage && s.flag fabrPage Rg.fabrDeviceIdValid) || p.op != op || !forHere s p || !rxReady s p then s
  else if !permitted s p then (takeRx p s).sendPackets [responseTo s p 3 0 []]
  else
    let r := work s
    (takeRx p r.1).sendPackets [responseTo s p 0 0 r.2]

/-- WRITEBACK (R453): the owner's line is written; one that meets a RECALL is its answer. -/
def execWriteback (pkt : Packet) (s : State) : Host.Outcome State Fault Refusal :=
  .next (lineCommand opWriteback pkt (fun t =>
    let dk := dirKey pkt.part pkt.addr.toNat
    match dirFind t dk with
    | some e => if e.owner = some pkt.src.toNat then (lineAnswered dk pkt.src.toNat true (lineBack pkt t), []) else (t, [])
    | none => (t, [])) s)

/-- EVICT (R453): the holder is removed. -/
def execEvict (pkt : Packet) (s : State) : Host.Outcome State Fault Refusal :=
  .next (lineCommand opEvict pkt (fun t =>
    let dk := dirKey pkt.part pkt.addr.toNat
    match dirFind t dk with
    | some e =>
      let d := pkt.src.toNat
      (setDir dk { e with sharers := e.sharers.filter (· != d), owner := if e.owner = some d then none else e.owner } t, [])
    | none => (t, [])) s)

/-- INVALIDATE at a holder (R453, R457): its copy or replica is dropped. Stores that still wait for the line keep waiting for it. -/
def execInvalidate (pkt : Packet) (s : State) : Host.Outcome State Fault Refusal :=
  .next (lineCommand opInvalidate pkt (fun t =>
    let ck := copyKey pkt.src.toNat pkt.part pkt.addr.toNat
    let x := copyOf t ck
    (if pkt.func = 2 then t else setCopy ck { x with data := none, excl := false, dirty := false } t, [])) s)

/-- RECALL at an owner (R453): it hands back a dirty line and keeps it shared, or drops it with FUNC = 1. -/
def execRecall (pkt : Packet) (s : State) : Host.Outcome State Fault Refusal :=
  .next (lineCommand opRecall pkt (fun t =>
    let ck := copyKey pkt.src.toNat pkt.part pkt.addr.toNat
    let x := copyOf t ck
    let out := if x.excl ∧ x.dirty then x.data.getD [] else []
    (setCopy ck (if pkt.func = 1 then { x with data := none, excl := false, dirty := false }
      else { x with excl := false, dirty := false }) t, out)) s)

/-- GATHER_TIMEOUT (R466): the line is written poisoned and recorded as 0x0344. DEDUCED: log entry 89. -/
def execGatherTimeout (part : Fin 64) (addr : BitVec 64) (s : State) : Host.Outcome State Fault Refusal :=
  let gk := part.val * 2 ^ 64 + addr.toNat
  .next (match tabFind gk s.fabric.gathers with
    | none => s
    | some g =>
      if s.alive ∧ s.now ≥ g.since + 1000 * s.reg fabrPage Rg.fabrReqTimeoutMicros then
        let t := { s with fabric := { s.fabric with gathers := tabDel gk s.fabric.gathers } }
        (putLine part addr.toNat g.scaleAddr (zPoison g.func) t).error fabrPage 0x0344 0 (selfDevice s)
      else s)

/-- ABSORBER_WRITEBACK (R454): an entry idle for 1 µs writes its line back. Memory holds what the entry does from the request on, which
no access can tell apart. -/
def execAbsorberWriteback (m : Fin 4) (line : Nat) (s : State) : Host.Outcome State Fault Refusal :=
  let l := tabGet [] m.val s.fabric.absorber
  .next (if s.alive ∧ l.any (fun e => e.1 == line && decide (s.now ≥ e.2 + 1000)) then
      { s with fabric := { s.fabric with absorber := tabPut [] m.val (l.filter fun e => e.1 != line) s.fabric.absorber } }
    else s)

end Sys2Proof.Machine
end

