-- ==== Sys2Proof/Machine/Determinism.lean ====
section
/-! DEFINITION. Strict mode (R502 to R504) and the boundaries of recorded and replayed partitions (R510 to R518). -/

namespace Sys2Proof.Machine

/-- A write of GLOB.MODE (R504): a strict round that has not been composed whole is given up when STRICT is cleared. -/
def writeMode (value : Nat) (s : State) : State :=
  let t := s.setReg globPage Rg.globModeStrict (value % 2)
  if value % 2 = 1 then t else { t with parts := t.parts.map fun (e : Nat × PartRun) => (e.1, { e.2 with round := [] }) }

/-- STRICT_WRITE. DEDUCED: log entry 71. -/
def execStrictWrite (who : Requester) (value : BitVec 32) (s : State) : Host.Outcome State Fault Refusal :=
  .next (writeAccess who globPage 0x040 (writeMode value.toNat) s)

/-- A partition has serving groups. -/
def hasGroups (s : State) (k : Nat) : Bool := s.serve.groups.any fun e => e.1 / 8 == k

/-- A partition that records or replays is at a boundary (R511): a round is to start; without serving groups, a CPMARK of context 0's rank-0
core has been executed. Where strict mode has ended, a moment at which no step runs. DEDUCED: log entry 71. -/
def atBoundary (s : State) (k : Nat) : Bool :=
  if hasGroups s k then !stepsRun s k && (tabGet {} k s.parts).round.isEmpty else (recordOf s k).due

/-- The payload of a DIGEST entry (R513). -/
def digestBytes (x : RecordRun) : List Byte :=
  (x.crc.map fun c => toBytes 8 c.toNat).flatten ++ (x.counts.map fun n => toBytes 4 n).flatten

/-- Apply a held input at a boundary, and record it unless the recording ends (R513). DEDUCED: log entry 100. -/
def applyInput (k n : Nat) (i : HeldInput × BitVec 96) (s : State) : State :=
  match i.1 with
  | .cmd c => dispatchCmd { c with recorded := if recording s k then some (n, i.2) else none } (some k) s
  | .window a data => (putEntry k 2 n i.2 (toBytes 8 a ++ data) s).partStore k a data
  | .frame p x data => ingressFrame p x (stampNs i.2) data (putEntry k 3 n i.2 (toBytes 2 p ++ toBytes 2 x ++ toBytes 4 0 ++ data) s)
  | .packet p => performPosted p (putEntry k 4 n i.2 (packetBytes p (packetFlits p)) s)

/-- The SQ to whose completion queue a replayed command answers: the record does not name it, so it is one of the partition's. DEDUCED: log
entry 99. -/
def replaySq (s : State) (k : Nat) : Option (Nat × SqState) :=
  let l := s.host.sqs.filter fun (e : Nat × SqState) => decide (e.1 < 1048576) && sqPart s e.1 == some k
  l[(s.free 32).toNat % max 1 l.length]?

/-- Apply a recorded entry (R517). Seeds follow from the commands that set them, and responses are used when they are asked for. -/
def applyEntry (k : Nat) (e : RingEntry) (s : State) : State :=
  let b := e.payload
  match e.kind with
  | 1 =>
    match replaySq s k with
    | none => s
    | some (q, x) =>
      let entry := BitVec.ofNat 512 (leNat (b.take 64))
      dispatchCmd
        { sq := .num (Fin.ofNat 1048576 q), cq := x.cq, id := entry.extractLsb' 16 16, part := k, entry := entry, sqHead := x.head
          arrival := s.now, replay := some (b.drop 64) } (some k) s.usedFree
  | 2 => s.partWrite k (leNat (b.take 8)) (b.drop 8)
  | 3 => ingressFrame (leNat (b.take 2)) (leNat ((b.drop 2).take 2)) (stampNs e.time) (b.drop 8) s
  | 4 => performPosted (packetOf b) s
  | _ => s

/-- The first kind of output whose digest or count differs from a DIGEST entry's (R518). -/
def digestDiffers (x : RecordRun) (b : List Byte) : Option Nat :=
  (List.range 4).find? fun i =>
    (x.crc.getD i 0).toNat != leNat ((b.drop (8 * i)).take 8) || x.counts.getD i 0 != leNat ((b.drop (32 + 4 * i)).take 4)

/-- Entries of boundary n from the place that a replay has reached, at most so many: each is compared or applied (R517, R518). DEDUCED: log
entry 99. -/
def replayEntries (k n : Nat) (loadDataOk : Bool) : Nat → State → State
  | 0, s => s
  | fuel + 1, s =>
    let x := recordOf s k
    match if x.stopped then none else ringEntry s k x.at_ with
    | none => s
    | some e =>
      if e.boundary > n then s
      else
        let t := (setRecord k { x with at_ := e.next } s).setReg (partPage k) Rg.partRecordHeadBytes e.next
        let t : State :=
          if e.kind = 7 then
            match digestDiffers x e.payload with
            | some i => diverge k i t
            | none => t
          else
            let u := applyEntry k e t
            if e.kind = 1 ∧ leNat (e.payload.take 1) % 256 = 0x13 ∧ !loadDataOk then diverge k 4 u else u
        replayEntries k n loadDataOk fuel t

/-- The next interval begins: outputs are counted anew, the boundary is counted and a round begins. -/
def nextInterval (k : Nat) (s : State) : State :=
  let t := setRecord k { recordOf s k with crc := [0, 0, 0, 0], counts := [0, 0, 0, 0], due := false } s
  let t := t.addReg (partPage k) Rg.partBoundaryCount 1
  if strict t then { t with parts := tabPut {} k { tabGet {} k t.parts with round := roundItems t k } t.parts } else t

/-- Recording or replay ends in a state (R512, R517, R519). DEDUCED: log entry 99. -/
def endRecord (k state : Nat) (s : State) : State :=
  let t := setRecord k { recordOf s k with mode := 0, held := [], due := false } s
  if s.reg (partPage k) Rg.partRecordStatusState = 3 then t
  else (t.setReg (partPage k) Rg.partRecordStatusState state).raise (partPage k) 5

/-- A boundary while recording: the digest of the interval, then the inputs that have arrived, in order (R513, R516). A recording whose MODE
or STRICT has been cleared ends here. DEDUCED: log entry 99. -/
def recordingBoundary (k : Nat) (inputsFirst : Bool) (s : State) : State :=
  let p := partPage k
  let n := s.reg p Rg.partBoundaryCount
  let t := putEntry k 7 n s.timeBits (digestBytes (recordOf s k)) s
  if !strict t ∨ s.reg p Rg.partRecordControlMode = 0 then
    let held := (recordOf t k).held
    nextInterval k ((endRecord k (if strict t then 4 else 5) t).each held (applyInput k n))
  else
    let held := (recordOf t k).held
    let now := held.filter fun i => inputsFirst || i.2 != s.timeBits
    let t := setRecord k { recordOf t k with held := held.filter fun i => !(inputsFirst || i.2 != s.timeBits) } t
    nextInterval k (t.each now (applyInput k n))

/-- A boundary in replay: the record's entries of it, in ring order; after the last entry the replay ends (R517). DEDUCED: log entry 99. -/
def replayBoundary (k : Nat) (loadDataOk : Bool) (s : State) : State :=
  let p := partPage k
  let t := replayEntries k (s.reg p Rg.partBoundaryCount) loadDataOk (s.reg p Rg.partRecordBytesBytes / 64) s
  let x := recordOf t k
  let ends := !x.stopped && (ringEntry t k x.at_).isNone
  nextInterval k (if ends || s.reg p Rg.partRecordControlMode == 0 then endRecord k 4 t else t)

/-- RECORD_BOUNDARY (R511, R516): an input that meets the boundary is applied at it or at the next. DEDUCED: log entry 99. -/
def execRecordBoundary (k : Fin 64) (inputsFirst loadDataOk : Bool) (s : State) : Host.Outcome State Fault Refusal :=
  let x := recordOf s k.val
  .next (if !s.working ∨ !s.partOn k.val ∨ x.mode = 0 ∨ !atBoundary s k.val then s
    else if x.mode = 1 then recordingBoundary k.val inputsFirst s
    else replayBoundary k.val loadDataOk s)

end Sys2Proof.Machine
end

