-- ==== Sys2Proof/Machine/Blob.lean ====
section
/-! DEFINITION. The state blob of a partition (R380, R381, R576): what it carries, its taking and its laying down again. -/

namespace Sys2Proof.Machine

/-- What a blob carries. Ranges are given by offset from their BASE, pages with the bytes that they hold. -/
structure PartBlob where
  /-- Registers of the PART page but FUNCTION, by bit offset in the page. -/
  regs : Table Nat
  cores : List Nat
  sigcs : List Nat
  ctxs : Table Ctx
  streams : Table StreamRun
  groups : Table ServeGroup
  kvs : Table KvEntry
  pool : Option KvPool
  sems : Table Sem
  sqs : Table SqState
  cqs : Table CqState
  objects : Table ObjectRec
  pages : List (Nat × PageEntry × List Host.Cell)
  deriving DecidableEq, Repr

end Sys2Proof.Machine

namespace Sys2Proof.Config

/-- The bytes of a blob: encrypted under a migration key with the slot's nonce, with a header and the signature of the device with a
UDS (R576); its layout is opaque (R380). -/
opaque blobBytes (key : BitVec 256) (nonce : Nat) (uds : BitVec 256) (b : Machine.PartBlob) : List Byte

/-- The blob that bytes hold, where their signature verifies with the peer's key and their tag with the migration key (R576). -/
opaque blobOpen (key : BitVec 256) (peer : BitVec 456) (bytes : List Byte) : Option Machine.PartBlob

end Sys2Proof.Config

namespace Sys2Proof.Machine

/-- The entries of a table whose keys lie in a range, by offset. -/
def tabRange {α : Type} (base count : Nat) (t : Table α) : Table α :=
  (t.filter fun e => decide (base ≤ e.1) && decide (e.1 < base + count)).map fun e => (e.1 - base, e.2)

/-- A table without the keys of a range, with offsets put in their place. -/
def tabInto {α : Type} (base count : Nat) (new t : Table α) : Table α :=
  new.foldl (fun m e => tabSet (base + e.1) e.2 m) (t.filter fun e => !(decide (base ≤ e.1) && decide (e.1 < base + count)))

/-- A range of a partition. -/
def baseOf (s : State) (k : Nat) (f : RegField) : Nat := s.reg (partPage k) f

/-- The cores and signal cores of a partition. -/
def ownCores (s : State) (k : Nat) : List Nat := (List.range 160).filter (maskBit s (partPage k) Rg.partCoreMaskCores)
def ownSigcs (s : State) (k : Nat) : List Nat := (List.range 64).filter (maskBit s (partPage k) Rg.partSigcMaskCores)

/-- The bytes of a frame that can be read, by offset: a codeword that is uncorrectable stays so in the blob. -/
def frameCells (s : State) (e : PageEntry) : List Host.Cell :=
  (List.range 512).foldl (fun l u =>
    match placeOf s { e with compressed := false } (u * 4096) with
    | .here r key => l ++ ((s.memory r).cells.filter fun c =>
        decide (key ≤ c.1) && decide (c.1 < key + 4096) && !cwBad r (s.memory r) (c.1 / cwBytes r)).map fun c =>
        (u * 4096 + (c.1 - key), c.2)
    | _ => l) []

/-- Take the blob of a stopped partition (R380). DESIGN CHOICE: log entry 57. -/
def takeBlob (s : State) (k : Nat) : PartBlob :=
  let b := pageBase (partPage k) * 8
  let range := fun {α : Type} (f g : RegField) (t : Table α) => tabRange (baseOf s k f) (baseOf s k g) t
  { regs := (tabRange b 0x8000 s.regs).filter fun e => e.1 != 0x40 * 8 + 8
    cores := ownCores s k, sigcs := ownSigcs s k
    ctxs := tabRange (k * 256) 256 s.ctxs
    streams := range Rg.partStreamBaseBase Rg.partStreamCountCount s.serve.streams
    groups := tabRange (k * 8) 8 s.serve.groups
    kvs := range Rg.partKvBaseBase Rg.partKvCountCount s.serve.kvs
    pool := tabFind k s.serve.pools
    sems := range Rg.partSemBaseBase Rg.partSemCountCount s.sems
    sqs := range Rg.partSqBaseBase Rg.partSqCountCount s.host.sqs
    cqs := range Rg.partCqBaseBase Rg.partCqCountCount s.host.cqs
    objects := tabRange (k * 65536) 65536 s.tier.objects
    pages := (partPages s k).map fun e => (e.1 % 2 ^ 25, e.2, frameCells s e.2) }

/-- A register of the source as the blob carries it. -/
def blobReg (b : PartBlob) (f : RegField) : Nat := tabGet f.reset (f.off * 8 + f.lo) b.regs

/-- The destination has the blob's shape (R381). DESIGN CHOICE: log entry 57. -/
def blobFits (s : State) (k : Nat) (b : PartBlob) : Bool :=
  let same := fun f => blobReg b f == baseOf s k f
  !s.partOn k && b.cores.length == (ownCores s k).length && b.sigcs.length == (ownSigcs s k).length &&
    same Rg.partSqCountCount && same Rg.partCqCountCount && same Rg.partSemCountCount && same Rg.partStreamCountCount &&
    same Rg.partKvCountCount && decide (baseOf s k Rg.partHbmAllotUnits ≥ blobReg b Rg.partHbmUsedUnits) &&
    decide (baseOf s k Rg.partBulkAllotUnits ≥ blobReg b Rg.partBulkUsedUnits)

/-- The destination's core for a core of the source, by rank (R381). -/
def coreMap (old new : List Nat) (c : Nat) : Nat :=
  match old.idxOf? c with
  | some i => new.getD i c
  | none => c

/-- A mask of cores mapped by rank. -/
def maskMap (old new : List Nat) (m : BitVec 160) : BitVec 160 :=
  (maskCores m).foldl (fun r c => r ||| (1#160 <<< coreMap old new c)) 0

/-- Set n bits of a record from bit lo on. -/
def setRec {w : Nat} (d : BitVec w) (lo n v : Nat) : BitVec w :=
  (d &&& ~~~BitVec.ofNat w ((2 ^ n - 1) * 2 ^ lo)) ||| BitVec.ofNat w (v % 2 ^ n * 2 ^ lo)

/-- Write the bytes that a page held into its new frame. -/
def layPage (e : PageEntry) (cells : List Host.Cell) (s : State) : State :=
  s.each cells fun c t =>
    match placeOf t { e with compressed := false } c.1 with
    | .here r key => { t with mem := setRegion r (writeCellAt r key c.2 (t.memory r)) t.mem }
    | _ => t
where
  writeCellAt (r : Region) (key : Nat) (b : Byte) (m : Memory) : Memory :=
    { cells := tabSet key b m.cells, flips := tabDel (key / cwBytes r) m.flips }

/-- Lay a blob down in a partition of its shape (R381): registers but the ownership ones, objects with their contents, contexts READY where
they were, and every range by offset. DESIGN CHOICE: log entry 57. -/
def layBlob (k : Nat) (b : PartBlob) (s : State) : State :=
  let p := partPage k
  let bits := pageBase p * 8
  let cs := coreMap b.cores (ownCores s k)
  let sqB := baseOf s k Rg.partSqBaseBase
  let cqB := baseOf s k Rg.partCqBaseBase
  let stB := baseOf s k Rg.partStreamBaseBase
  let kvB := baseOf s k Rg.partKvBaseBase
  let kv := fun e => e - blobReg b Rg.partKvBaseBase + kvB
  let st := fun n => n - blobReg b Rg.partStreamBaseBase + stB
  let cq := fun n => n - blobReg b Rg.partCqBaseBase + cqB
  let s := { s with regs := tabInto (bits + 0x800) 0x7800 (tabRange 0x800 0x7800 b.regs) s.regs }
  let s := s.setReg p Rg.partConfigKind (blobReg b Rg.partConfigKind)
  let s := s.each b.pages fun e t =>
    match freeFrames t e.2.1.tier 1 with
    | f :: _ =>
      let y := { e.2.1 with frame := f, migrating := false }
      layPage y e.2.2 { (clearFrame y.tier f t) with tier := { t.tier with pages := tabSet (pageKey k e.1) y t.tier.pages } }
    | [] => t
  let streams := b.streams.map fun e => (e.1, { e.2 with
    part := k, pages := e.2.pages.map kv
    image := if e.2.route = 0 then setRec e.2.image (8 * 0x58 + 8) 24 (cq e.2.target) else e.2.image })
  let groups := b.groups.map fun e => (e.1, { e.2 with
    image :=
      setRec (setRec e.2.image (8 * 0x20) 160 (maskMap b.cores (ownCores s k) (BitVec.ofNat 160 (recField e.2.image 0x20 0 160))).toNat)
        (8 * 0x34) 160 (maskMap b.cores (ownCores s k) (BitVec.ofNat 160 (recField e.2.image 0x34 0 160))).toNat })
  let ctxs := b.ctxs.map fun e => (e.1, { e.2 with
    mask := maskMap b.cores (ownCores s k) e.2.mask
    saved := e.2.saved.foldl (fun t (v : Nat × SavedCore) => tabSet (cs v.1) v.2 t) [] })
  let tag := fun (t : BitVec 24) =>
    BitVec.ofNat 24 (k * 2 ^ 18 + t.toNat % 2 ^ 18 / 2 ^ 10 * 2 ^ 10 + (if t.toNat % 2 ^ 10 < 256 then cs (t.toNat % 256) else t.toNat % 2 ^ 10))
  let s := { s with
    tier := { s.tier with objects := tabInto (k * 65536) 65536 b.objects s.tier.objects }
    ctxs := tabInto (k * 256) 256 ctxs s.ctxs
    sems := tabInto (baseOf s k Rg.partSemBaseBase) (baseOf s k Rg.partSemCountCount)
      (b.sems.map fun (e : Nat × Sem) => (e.1, { e.2 with owner := e.2.owner.map tag, waiters := [] })) s.sems
    serve := { s.serve with
      streams := tabInto stB (baseOf s k Rg.partStreamCountCount) streams s.serve.streams
      groups := tabInto (k * 8) 8 groups s.serve.groups
      kvs := tabInto kvB (baseOf s k Rg.partKvCountCount) (b.kvs.map fun (e : Nat × KvEntry) => (e.1, { e.2 with owner := st e.2.owner })) s.serve.kvs
      pools := match b.pool with
        | some v => tabSet k { v with first := kv v.first } s.serve.pools
        | none => tabDel k s.serve.pools }
    host := { s.host with
      sqs := tabInto sqB (baseOf s k Rg.partSqCountCount)
        (b.sqs.map fun (e : Nat × SqState) => (e.1, { e.2 with cq := match e.2.cq with
          | .num q => .num (Fin.ofNat 262144 (cq q.val))
          | .admin => .admin })) s.host.sqs
      cqs := tabInto cqB (baseOf s k Rg.partCqCountCount) b.cqs s.host.cqs } }
  let s := s.each ctxs fun e t =>
    (t.partWrite k (ctxAddr t k e.1 + 8) (toBytes 20 e.2.mask.toNat)).writeCtx k e.1 (t.ctx k e.1)
  s.each streams fun e t => t.each ((List.range e.2.pages.length).zip e.2.pages) fun i u => listPage e.2 i.1 i.2 u

end Sys2Proof.Machine
end

