-- ==== Sys2Proof/Machine/Partitions.lean ====
section
/-! DEFINITION. Partitions (R350 to R354, R376 to R381): enabling and disabling, resizing, allotments, the dirty log, export and import,
and the FLRs (R414, R415), with DELETE_CQ (R391). -/

namespace Sys2Proof.Machine

/-- Change what a partition does beside its registers. -/
def modPart (k : Nat) (f : PartRun → PartRun) (s : State) : State :=
  { s with parts := tabPut {} k (f (tabGet {} k s.parts)) s.parts }

/-- The ranges of R350: BASE, COUNT and the device's resources. -/
def ranges : List (RegField × RegField × Nat) :=
  [(Rg.partSqBaseBase, Rg.partSqCountCount, 1048576), (Rg.partCqBaseBase, Rg.partCqCountCount, 262144),
   (Rg.partSemBaseBase, Rg.partSemCountCount, 65536), (Rg.partStreamBaseBase, Rg.partStreamCountCount, 65536),
   (Rg.partKvBaseBase, Rg.partKvCountCount, 2097152)]

/-- The other enabled partitions. -/
def othersOn (s : State) (k : Nat) : List Nat := (List.range 64).filter fun j => j != k && s.partOn j

/-- The capacity that allotments of a tier may cover together (R351). -/
def tierUnits (s : State) (bulk : Bool) : Nat := (tierFrames s (if bulk then 1 else 0)).foldl (fun t r => t + r.2) 0
def allotField (bulk : Bool) : RegField := if bulk then Rg.partBulkAllotUnits else Rg.partHbmAllotUnits

/-- The sum of a register over partitions. -/
def sumReg (s : State) (ks : List Nat) (f : RegField) (i : Nat := 0) : Nat := ks.foldl (fun t j => t + s.reg (partPage j) f i) 0

/-- What breaks R350, R351 or R374 when a partition is enabled: code and register offset, the lowest offset first (R352). Masks never
overlap, since resizing refuses that. DEDUCED: log entry 55. -/
def partConflict (s : State) (k : Nat) : Option (Nat × Nat) :=
  let others := othersOn s k
  let allot := [false, true].findSome? fun b =>
    if sumReg s (k :: others) (allotField b) > tierUnits s b then some (0x0602, (allotField b).off) else none
  let range := ranges.findSome? fun r =>
    let b := baseOf s k r.1
    let n := baseOf s k r.2.1
    if b + n > r.2.2 then some (0x0601, r.1.off)
    else if n ≠ 0 ∧ others.any (fun j => baseOf s j r.2.1 != 0 && decide (b < baseOf s j r.1 + baseOf s j r.2.1) &&
        decide (baseOf s j r.1 < b + n)) = true then some (0x0602, r.1.off)
    else none
  let quota := (List.range 6).findSome? fun v =>
    if sumReg s (k :: others) Rg.partFabricQuotaQuota v > 16384 then some (0x0602, 0x0C8 + 4 * v) else none
  allot.orElse fun _ => range.orElse fun _ => quota

/-- Bytes of the structures that enabling a partition creates (R351). -/
def freshBytes (s : State) (k : Nat) : Nat :=
  65536 + 256 * baseOf s k Rg.partStreamCountCount + 8 * baseOf s k Rg.partKvCountCount +
    32768 * levelTwo ((partPages s k).map fun e => e.1 % 2 ^ 25)

/-- The record ring lies in an HBM or bulk object of HINT 5 (R512). -/
def ringOk (s : State) (k : Nat) : Bool :=
  let p := partPage k
  let base := s.reg p Rg.partRecordBaseAddress
  let len := s.reg p Rg.partRecordBytesBytes
  match objectAt s k base with
  | some (_, o) => o.hint == 5 && decide (o.tier ≤ 1) && decide (o.base ≤ base) && decide (base + len ≤ o.base + o.size)
  | none => false

/-- The register whose value refuses the start of a recording (R512). -/
def recordRefused (s : State) (k : Nat) : Option Nat :=
  let p := partPage k
  if s.reg p Rg.partRecordControlMode ≠ 1 then none
  else if !strict s ∨ s.reg p Rg.partConfigKind ≠ 1 then some 0x340
  else if !ringOk s k then some 0x348
  else if !(groupDevices s).all (inReplaySet s k) then some 0x360
  else none

/-- What refuses ENABLE = 1: code, unit and detail (R352, R512, R564, R579, R597). DEDUCED: log entry 55. -/
def enableRefused (s : State) (k : Nat) : Option (Nat × Nat × Nat) :=
  if s.reg mgmtPage Rg.mgmtBootStatusState ≠ 2 then some (0x0601, 0, 0)
  else if s.flag mgmtPage Rg.mgmtZeroizeStatusPending then some (0x0808, 0, 0)
  else
    match (List.range 20).find? fun x => !(s.reg rsetPage Rg.rsetHbmReadyStacks).testBit x with
    | some x => some (0x0902, x, 0)
    | none =>
      if s.reg (partPage k) Rg.partConfigKind = 0 then some (0x0601, 0, 0x040)
      else
        match partConflict s k with
        | some (c, d) => some (c, 0, d)
        | none =>
          if pagesIn s k 0 * pageBytes + freshBytes s k > s.reg (partPage k) Rg.partHbmAllotUnits * pageBytes then some (0x0603, 0, 0x090)
          else (recordRefused s k).map fun d => (0x0614, 0, d)

/-- FLOOR_CORES of a radio partition (R313). -/
def setFloor (k : Nat) (s : State) : State :=
  if isRadio s k then s.setReg (partPage k) Rg.partRadioStatusFloorCores (ownCores s k).length else s

/-- Recording or replay starts with the partition (R512, R517). -/
def startRecord (k kind : Nat) (s : State) : State :=
  let p := partPage k
  let m := s.reg p Rg.partRecordControlMode
  if m = 1 ∨ m = 2 then
    let t := setRecord k { mode := m } (s.setReg p Rg.partRecordStatusState 2 |>.setReg p Rg.partRecordHeadBytes 0)
    putEntry k 8 0 t.timeBits (toBytes 8 kind) t
  else s

/-- The partition becomes enabled. -/
def enableNow (k kind : Nat) (s : State) : State :=
  let p := partPage k
  let t := s.setReg p Rg.pageControlEnable 1 |>.setReg p Rg.pageStatusEnabled 1 |>.setReg p Rg.partBoundaryCount 0
  let t := modPart k (fun _ => {}) t
  choose k (startRecord k kind (setBudgets (setFloor k (recount k t))))

/-- PART_ENABLE (R352): a write of CONTROL.ENABLE = 1. -/
def execPartEnable (who : Requester) (k : Fin 64) (s : State) : Host.Outcome State Fault Refusal :=
  .next (writeAccess who (partPage k) 0x010 (fun s =>
    if s.partOn k then s
    else
      match enableRefused s k with
      | some (c, u, d) => s.error (partPage k) c u d
      | none => enableNow k 0 s) s)

/-- Clear ENABLE of a partition (R354): it stays enabled where it owns cores, memory in use or active contexts. DEDUCED: log entry 55. -/
def disablePart (k : Nat) (s : State) : State :=
  let p := partPage k
  if !s.partOn k then s.setReg p Rg.pageControlEnable 0
  else if !(ownCores s k).isEmpty ∨ !(ownSigcs s k).isEmpty ∨ !(partPages s k).isEmpty ∨ !(ctxsOf s k).isEmpty then
    s.error p 0x0604 0 0x010
  else
    recount k (setRecord k {} ({ s with parts := tabDel k s.parts }.setReg p Rg.pageControlEnable 0 |>.setReg p Rg.pageStatusEnabled 0
      |>.setReg p Rg.partRecordStatusState 0))

/-- A masks' bits as written in a register array. -/
def targetBits (s : State) (k n : Nat) (f : RegField) : List Nat := (List.range n).filter (maskBit s (partPage k) f)

/-- Give a partition a set of cores, or of signal cores. -/
def setOwned (k words : Nat) (f : RegField) (cs : List Nat) (s : State) : State :=
  s.each (List.range words) fun i t =>
    t.setReg (partPage k) f ((cs.filter fun c => c / 32 == i).foldl (fun m c => m ||| 2 ^ (c % 32)) 0) i

/-- Cores that a context of a partition that is READY, RUNNING or TRAPPED, or a serving group, names (R376). -/
def namedCores (s : State) (k c : Nat) : Bool :=
  groupCore s k c || (ctxsOf s k).any fun n =>
    let x := s.ctx k n
    (x.state == 1 || x.state == 2 || x.state == 5) && x.mask.getLsbD c

/-- RESIZE_START (R376): the physical function's write of RESIZE.START. DEDUCED: log entry 55. -/
def execResizeStart (who : Requester) (k : Fin 64) (s : State) : Host.Outcome State Fault Refusal :=
  let p := partPage k
  .next (writeAccess who p 0x088 (fun s =>
    if s.flag p Rg.partResizeBusy then s.error p 0x0605 0 0x088
    else
      let tgt := targetBits s k 160 Rg.partCoreTargetCores
      let stg := targetBits s k 64 Rg.partSigcTargetCores
      let own := ownCores s k
      let sown := ownSigcs s k
      if own.any (fun c => !tgt.contains c && namedCores s k c) ∨
          sown.any (fun u => !stg.contains u && s.flag (sigcPage u) Rg.pageControlEnable) then
        s.setReg p Rg.partResizeResult 0x0604
      else if tgt.any (fun c => !own.contains c && (ownerOfCore s c).isSome) ∨
          stg.any (fun u => !sown.contains u && (ownerOfSigc s u).isSome) then
        s.setReg p Rg.partResizeResult 0x0602
      else
        let t := setOwned k 5 Rg.partCoreMaskCores ((List.range 160).filter fun c => own.contains c || tgt.contains c) s
        let t := setOwned k 2 Rg.partSigcMaskCores stg t
        let t := modPart k (fun x => { x with
          resize := some (BitVec.ofNat 160 (tgt.foldl (fun m c => m ||| 2 ^ c) 0), BitVec.ofNat 64 (stg.foldl (fun m c => m ||| 2 ^ c) 0)) }) t
        choose k (setFloor k (t.setReg p Rg.partResizeBusy 1))) s)

/-- RESIZE_DONE (R376): every removed core is free of its context and has returned where it was lent. DEDUCED: log entry 55. -/
def execResizeDone (k : Fin 64) (s : State) : Host.Outcome State Fault Refusal :=
  let p := partPage k
  .next (match (tabGet {} k.val s.parts).resize with
    | none => s
    | some (m, _) =>
      let gone := (ownCores s k).filter fun c => !m.getLsbD c
      if !s.alive ∨ gone.any fun c => (s.core c).ctx.isSome || (s.core c).lentTo.isSome || (s.core c).surgeFor.isSome then s
      else
        let t := setOwned k 5 Rg.partCoreMaskCores (maskCores m) s
        let t := modPart k (fun x => { x with resize := none }) t
        (setBudgets (setFloor k (t.setReg p Rg.partResizeBusy 0 |>.setReg p Rg.partResizeResult 0))).raise p 1)

/-- ALLOT_WRITE (R352, R377): a value below USED or one that breaks R351 is ignored and recorded while the partition is enabled. DEDUCED:
log entry 34. -/
def execAllotWrite (who : Requester) (k : Fin 64) (bulk : Bool) (value : BitVec 32) (s : State) : Host.Outcome State Fault Refusal :=
  let p := partPage k
  let f := allotField bulk
  let v := value.toNat % 2 ^ f.len
  .next (writeAccess who p f.off (fun s =>
    if !s.partOn k then s.setReg p f v
    else if v < s.reg p (if bulk then Rg.partBulkUsedUnits else Rg.partHbmUsedUnits) then s.error p 0x0603 0 f.off
    else if v + sumReg s (othersOn s k) f > tierUnits s bulk then s.error p 0x0602 0 f.off
    else s.setReg p f v) s)

/-- DIRTY_ATOMIC_COMPLETION (R379): a CompareAndSwap that fails as a request stops the log. DESIGN CHOICE: log entry 56. -/
def execDirtyAtomicCompletion (k : Fin 64) (ok : Bool) (s : State) : Host.Outcome State Fault Refusal :=
  let p := partPage k
  .next (if !s.alive ∨ ok = true ∨ s.flag p Rg.partDirtyControlEnable = false then s
    else
      ((s.setReg p Rg.partDirtyControlEnable 0 |>.setReg p Rg.partDirtyControlAtomicFail 1).error p 0x0609 0 0x280).raise p 4)

/-- DELETE_CQ (R388, R391): a CQ to which an SQ is bound or that an open stream names is busy. -/
def execDeleteCq (q : CmdRef) (s : State) : Host.Outcome State Fault Refusal :=
  .next (startCmd q [0x05] false (fun c s =>
    let n := c.field 0x18 0 18
    let cqr := CqRef.num (Fin.ofNat 262144 n)
    if lockedQueue s c (cqFn s cqr) then complete c 0x0501 0 s
    else if !mayName s c Rg.partCqBaseBase Rg.partCqCountCount n then complete c 0x0104 0 s
    else if (s.cq cqr).isNone then complete c 0x010A 0 s
    else if (s.host.sqs.any fun e => e.2.cq == cqr) ∨ (s.serve.streams.any fun e => e.2.route == 0 && e.2.target == n) then
      complete c 0x0109 0 s
    else complete c 0 0 (deleteCqState cqr s)) s)

/-- Delete queues by number, without completions. -/
def deleteQueues (sqs cqs : List Nat) (s : State) : State :=
  let t := s.each sqs fun n u => deleteSqState (.num (Fin.ofNat 1048576 n)) u
  t.each cqs fun n u => deleteCqState (.num (Fin.ofNat 262144 n)) u

/-- The numbered queues that satisfy a test on their partition. -/
def queuesOf (s : State) (p : Option Nat → Bool) : List Nat × List Nat :=
  ((s.host.sqs.filter fun e => decide (e.1 < 1048576) && p (sqPart s e.1)).map Prod.fst,
   (s.host.cqs.filter fun e => decide (e.1 < 262144) && p (cqPart s e.1)).map Prod.fst)

/-- The FLR of a virtual function (R414). -/
def flrVf (fn : Nat) (s : State) : State :=
  let ks := (List.range 64).filter fun k => functionOf s k == fn
  let q := queuesOf s fun p => match p with
    | some k => ks.contains k
    | none => false
  let t := deleteQueues q.1 q.2 s
  let t := t.each ks fun k u => choose k (u.each (ctxsOf u k) fun n v => suspend k n v)
  { t with host := { t.host with
    msix := t.host.msix.filter fun e => e.1 / 4096 != fn
    vectorPending := t.host.vectorPending.filter fun key => key / 4096 != fn } }

/-- FLR_VF (R414). PRESUMED: log entry 63. -/
def execFlrVf (fn : Fin 256) (s : State) : Host.Outcome State Fault Refusal :=
  .next (if s.alive ∧ s.host.linkUp = true ∧ fn.val ≠ 0 then flrVf fn s else s)

/-- FLR_PF (R415): every virtual function's, and the PF's own queues; the cells of its radio partitions stop. PRESUMED: log entry 63. -/
def execFlrPf (s : State) : Host.Outcome State Fault Refusal :=
  .next (if s.alive ∧ s.host.linkUp = true then
      let t := s.each ((List.range 255).map (· + 1)) flrVf
      let q := queuesOf t fun p => match p with
        | some k => functionOf t k == 0
        | none => true
      let t := deleteCqState .admin (deleteSqState .admin (deleteQueues q.1 q.2 t))
      let t := t.setReg hostPage Rg.hostAdminControlEnable 0 |>.setReg hostPage Rg.hostAdminControlReady 0
      t.each ((List.range 64).filter fun k => functionOf t k == 0 && isRadio t k) fun k u =>
        let x := u.radioOf k
        u.setRadio k { x with cells := x.cells.map fun e => (e.1, { e.2 with flr := true }) }
    else s)

/-- EXPORT_STATE (R380, R576): the partition's queues, contexts and serving stop at once, a trapped context by forced full save (R185); the
blob is taken when all have. DESIGN CHOICE: log entry 57. -/
def execExportState (q : CmdRef) (s : State) : Host.Outcome State Fault Refusal :=
  .next (startCmd q [0x40] true (fun c s =>
    let k := c.part
    let slot := c.field 0x18 0 3
    if !paramsClean c [(0x18, 0, 3)] then complete c 0x0102 0 s
    else if isRadio s k then complete c 0x0608 0 s
    else if s.host.longs.any fun l => cmdOp l.cmd == 0x40 && l.cmd.part == k then complete c 0x060A 0 s
    else if (tabFind slot s.mgmt.keySlots).isNone then complete c 0x0504 0 s
    else
      let t := modPart k (fun x => { x with exported := true }) s
      let t := t.each ((ctxsOf t k).filter fun n => (t.ctx k n).state == 2) fun n u => askPreempt k n u
      let t := t.each ((ctxsOf t k).filter fun n => (t.ctx k n).state == 5) fun n u => forceSave k n u
      startLong c 1 [] t 0 slot) s)

/-- A chunk of EXPORT_STATE (R380): the blob is taken once no context of the partition is on a core and no serving step runs. DESIGN CHOICE:
log entry 57. -/
def exportChunk (l : LongOp) (bytes : Nat) (s : State) : State :=
  let k := l.cmd.part
  let busy := stepsRun s k || (ctxsOf s k).any fun n => !(coresHeld s k n).isEmpty
  match tabFind l.unit s.mgmt.keySlots with
  | none => s
  | some slot =>
    let go := fun (l : LongOp) (s : State) =>
      let n := min bytes (l.total - l.done)
      chunkDone l n (hostWrite k (cmdAddr l.cmd + l.done) ((l.data.drop l.done).take n) s)
    if busy then s
    else if l.kind = 0 then
      let b := Config.blobBytes slot.key slot.nonce s.fuses.uds (takeBlob s k)
      let m := { l with kind := 1, data := b, total := b.length }
      let t := { s with mgmt := { s.mgmt with keySlots := tabSet l.unit { slot with nonce := slot.nonce + 1 } s.mgmt.keySlots } }
      go m (setLong m t)
    else go l s

/-- LOAD_OBJECT_STATE (R381, R576): LOAD_OBJECT of kind partition state: the key slot, the blob's signature and tag, and its shape are
checked before anything is written. DESIGN CHOICE: log entry 57. -/
def execLoadObjectState (q : CmdRef) (data : HostData) (s : State) : Host.Outcome State Fault Refusal :=
  .next (startCmd q [0x13] true (fun c s =>
    match tabFind (c.field 0x18 0 3) s.mgmt.keySlots with
    | none => complete c 0x0504 0 s
    | some slot => withData c data (cmdLen c) (fun b s =>
      match Config.blobOpen slot.key slot.peer b with
      | none => complete c 0x0503 0 s
      | some blob =>
        if !blobFits s c.part blob then complete c 0x0606 0 s
        else
          match enableRefused (s.setReg (partPage c.part) Rg.partConfigKind (blobReg blob Rg.partConfigKind)) c.part with
          | some e => complete c e.1 0 s
          | none => startLong c b.length b s 3 (c.field 0x18 0 3)) s) s)

/-- A chunk of an import; with the last one the blob is laid down and the partition enabled. DESIGN CHOICE: log entry 57. -/
def importChunk (l : LongOp) (bytes : Nat) (s : State) : State :=
  let k := l.cmd.part
  let n := min bytes (l.total - l.done)
  if l.done + n < l.total then chunkDone l n s
  else
    match (tabFind l.unit s.mgmt.keySlots).bind fun v => Config.blobOpen v.key v.peer l.data with
    | none => endLong l 0x0503 s
    | some b => chunkDone l n (enableNow k 1 (layBlob k b s))

end Sys2Proof.Machine
end

