-- ==== Sys2Proof/Machine/Fences.lean ====
section
/-! DEFINITION. The wave-rate monitors (R28 to R30), fences of arrays and cores (R114, R116, R533, R536), replacement by spare cores
(R535, R537), CORE_RETIRE (R531), the arming of an injection (R528, R529) and post-package repair (R532). -/

namespace Sys2Proof.Machine

/-- A monitor's page, its number among all monitors, and its die (R28, R18). -/
def monitorPage : MonitorUnit → Page
  | .core c => corePage c
  | .sigc k => sigcPage k
def monitorNo : MonitorUnit → Nat
  | .core c => c
  | .sigc k => 160 + k
def monitorDie : MonitorUnit → Nat
  | .core c => c / 40
  | .sigc k => k / 16

/-- Array commands of a core that a fence meets while they run (R116). -/
def spoilCmds (meets : ArrayCmd → Bool) (x : Core) : Core :=
  { x with arrayQueue := x.arrayQueue.map fun (q : ArrayCmd) => if q.started && meets q then { q with spoiled := true } else q }

/-- A free spare core, or signal core, of a die: the lowest (R530). DEDUCED: log entry 25. -/
def spareCore (s : State) (d : Nat) : Option Nat := s.plat.freeCores.find? fun p => p / 44 == d
def spareSigc (s : State) (d : Nat) : Option Nat := s.plat.freeSigcs.find? fun p => p / 17 == d

/-- RASP.SPARES counts the free spares (R530). -/
def countSpares (s : State) : State :=
  let n := fun d => (s.plat.freeCores.filter fun p => p / 44 == d).length
  let m := fun d => (s.plat.freeSigcs.filter fun p => p / 17 == d).length
  s.setReg raspPage Rg.raspSparesFreeCores0 (n 0) |>.setReg raspPage Rg.raspSparesFreeCores1 (n 1)
    |>.setReg raspPage Rg.raspSparesFreeCores2 (n 2) |>.setReg raspPage Rg.raspSparesFreeCores3 (n 3)
    |>.setReg raspPage Rg.raspSparesFreeSigc0 (m 0) |>.setReg raspPage Rg.raspSparesFreeSigc1 (m 1)
    |>.setReg raspPage Rg.raspSparesFreeSigc2 (m 2) |>.setReg raspPage Rg.raspSparesFreeSigc3 (m 3)

/-- A spare core is no longer free. DEDUCED: log entry 25. -/
def takeSpare (ph : Nat) (s : State) : State :=
  countSpares { s with plat := { s.plat with freeCores := s.plat.freeCores.filter (· != ph) } }

/-- The device retires a physical core that it fences (R531). DEDUCED: log entry 25. -/
def retirePhysical (ph : Nat) (s : State) : State :=
  s.setReg raspPage Rg.raspCoreRetirePhysical (s.reg raspPage Rg.raspCoreRetirePhysical (ph / 44) ||| 2 ^ (ph % 44)) (ph / 44)

/-- FAIL goes to the twin where pairing is on (R541). -/
def sendFail (s : State) : State :=
  if s.flag raspPage Rg.raspTwinControlEnable then { s with twin := { s.twin with failSent := true } }.emit .fail else s

/-- No spare is free for a core: CORE_LOST is raised, every context whose mask names it is suspended, and a radio floor that loses it sends
FAIL (R536). -/
def coreLost (c : Nat) (s : State) : State :=
  let t := s.raise raspPage 3
  let named := (t.ctxs.filter fun e => e.2.mask.getLsbD c).map (·.1)
  let t := t.each named fun n u => choose (n / 256) (suspend (n / 256) (n % 256) u)
  if (List.range 64).any fun k => t.partOn k && isRadio t k && maskBit t (partPage k) Rg.partCoreMaskCores c then sendFail t else t

/-- A logical core is fenced (R533): it issues nothing further, passes in flight complete poisoned, and its physical core is retired;
without a free spare of its die the core is lost. -/
def fenceCore (c : Nat) (s : State) : State :=
  if s.flag (corePage c) Rg.pageStatusFenced then s
  else
    let t := (s.setReg (corePage c) Rg.pageStatusFenced 1).modCore c (spoilCmds fun _ => true)
    let t := match tabFind c s.plat.corePhysical with
      | some ph => retirePhysical ph t
      | none => t
    if (spareCore t (c / 40)).isSome then t else coreLost c t

/-- A signal core is fenced in the same way (R537). -/
def fenceSigc (k : Nat) (s : State) : State :=
  if s.flag (sigcPage k) Rg.pageStatusFenced then s
  else
    let t := s.setReg (sigcPage k) Rg.pageStatusFenced 1
    if (spareSigc t (k / 16)).isSome then t else t.raise raspPage 3

/-- A monitor's windows: those that no later one falls below, and the lowest of the first 1,000 (R27, R304). DEDUCED: log entry 24. -/
def noteWindow (c rate : Nat) (s : State) : State :=
  let kept := (tabGet [] c s.radio.lows).filter fun (e : Nat × Nat) => decide (e.2 < rate)
  let b := tabGet (rate, 0) c s.radio.boot
  { s with radio := { s.radio with
    lows := tabSet c (kept ++ [(s.now, rate)]) s.radio.lows
    boot := if b.2 < 1000 then tabSet c (min b.1 rate, b.2 + 1) s.radio.boot else s.radio.boot } }

/-- A window ended below the floor (R30, R533): the event is counted and raised, the controller owes its die a step, or at 0.85 V the third
such window in a row is a floor violation that fences the core. DEDUCED: log entry 24. -/
def lowWindow (u : MonitorUnit) (s : State) : State :=
  let p := monitorPage u
  let i := monitorNo u
  let d := monitorDie u
  let t := (s.countErrors p 1).raise p 0
  if vddOf s d < 850 then
    { t with plat := { t.plat with
      floorRun := tabDel i t.plat.floorRun
      stepDue := if t.plat.stepDue.contains d then t.plat.stepDue else t.plat.stepDue ++ [d] } }
  else
    let n := tabGet 0 i t.plat.floorRun + 1
    if n < 3 then { t with plat := { t.plat with floorRun := tabSet i n t.plat.floorRun } }
    else
      let t := { t with plat := { t.plat with floorRun := tabDel i t.plat.floorRun } }.error raspPage 0x0701 (i % 160) 0
      match u with
      | .core c => fenceCore c t
      | .sigc k => fenceSigc k t

/-- WAVE_WINDOW_END (R28 to R30): a window that completes during the read that clears WAVE_RATE_MIN is what the register holds after it.
DEDUCED: log entry 24. -/
def execWaveWindowEnd (unit : MonitorUnit) (rate : BitVec 16) (readMeets : Bool) (s : State) : Host.Outcome State Fault Refusal :=
  let p := monitorPage unit
  let r := rate.toNat
  let low := decide (r < 1550)
  .next (if s.alive then
      let t := s.setReg p Rg.coreWaveRateRate r |>.setReg p Rg.coreWaveRateLow (bit low)
        |>.setReg p Rg.coreWaveRateMinRate (if readMeets then r else min r (s.reg p Rg.coreWaveRateMinRate))
      let t := noteWindow (monitorNo unit) r t
      if low then lowWindow unit t
      else { t with plat := { t.plat with floorRun := tabDel (monitorNo unit) t.plat.floorRun } }
    else s)

/-- An array, or a weight feeder, of a core is fenced (R114, R116): commands in flight on it are spoiled and FORCED_GANG follows; with all
four of a kind fenced the core is. -/
def fenceArray (c a : Nat) (feeder : Bool) (s : State) : State :=
  let p := corePage c
  let oldA := s.reg p Rg.coreArrayStateArrayFenced
  let oldF := s.reg p Rg.coreArrayStateFeederFenced
  let arrays := if feeder then oldA else oldA ||| 2 ^ a
  let feeders := if feeder then oldF ||| 2 ^ a else oldF
  let t := (setArrayState c arrays feeders s).modCore c (spoilCmds fun q => q.members.contains a)
  let t := t.raiseBits p (if arrays = oldA ∧ feeders = oldF then 0 else 2 ^ 9)
  if arrays = 15 ∨ feeders = 15 then fenceCore c t else t

/-- ARRAY_FENCE (R114, R116). -/
def execArrayFence (c : Fin 160) (array : Fin 4) (feeder : Bool) (s : State) : Host.Outcome State Fault Refusal :=
  .next (if s.alive then fenceArray c array feeder s else s)

/-- SKEW_PROBE_DONE (R120 to R122): a core whose every array is fenced is fenced (R114). DEDUCED: log entry 27. -/
def execSkewProbeDone (c : Fin 160) (failed : BitVec 4) (detail : BitVec 32) (s : State) : Host.Outcome State Fault Refusal :=
  .next (if s.alive ∧ s.flag (corePage c) Rg.coreSkewProbeBusy then
      let t := probeDone c failed.toNat detail.toNat s
      if t.reg (corePage c) Rg.coreArrayStateArrayFenced = 15 then fenceCore c t else t
    else s)

/-- The probe of step 4 of bring-up has ended on a logical core (R120, R122, R125, R126): DONE and FAILED tell its result, a failing array
is fenced with 0x0301, and a core whose every array failed is fenced and replaced (R114). DEDUCED: log entry 27. -/
def resetProbe (c : Nat) (s : State) : State :=
  let ph := tabGet 0 c s.plat.corePhysical
  let bad := ((List.range 4).filter fun a => s.plat.probeFails.contains (ph, a)).foldl (fun m a => m ||| 2 ^ a) 0
  let t := probeDone c bad (s.free 17 c).toNat (s.setReg (corePage c) Rg.coreSkewProbeDone 15)
  if bad = 15 then fenceCore c t else t

/-- BRINGUP_DONE (R593, R597): steps 1 to 8 are complete and the boot has ended; a stack that failed step 7 leaves its
HBM_READY bit 0 and its HBMC page FENCED; DONE sets and BRINGUP_DONE is raised. -/
def execBringupDone (s : State) : Host.Outcome State Fault Refusal :=
  let boot := s.reg mgmtPage Rg.mgmtBootStatusState
  .next (if s.plat.phase = .bringup ∧ s.alive ∧ (boot = 2 ∨ boot = 3) then
      let env := s.plat.env.getD ⟨true, true, [], [], [], [], 0, []⟩
      let t := { s with plat := { s.plat with phase := .running, broughtUp := true, env := none } }
      let t := (t.each (List.range 160) resetProbe).usedFree 160
      let t := t.setReg rsetPage Rg.rsetHbmReadyStacks (~~~env.hbmFailed).toNat
      let t := t.each ((List.range 20).filter env.hbmFailed.getLsbD) fun x u => u.setReg (hbmcPage x) Rg.pageStatusFenced 1
      let t := formBulkSet env.bulkModules t
      (t.setReg rsetPage Rg.rsetBringupStep 0 |>.setReg rsetPage Rg.rsetBringupDone 1).raise rsetPage 1
    else s)

/-- CORE_FENCE_WRITE (R533). -/
def execCoreFenceWrite (who : Requester) (value : BitVec 32) (s : State) : Host.Outcome State Fault Refusal :=
  .next (writeAccess who raspPage 0x068 (fun s =>
    let c := value.toNat % 256
    if value.getLsbD 31 ∧ c < 160 then fenceCore c s else s) s)

/-- CORE_CHECK_FAIL (R533). -/
def execCoreCheckFail (c : Fin 160) (s : State) : Host.Outcome State Fault Refusal :=
  .next (if s.alive then fenceCore c s else s)

/-- The repairs of a logical core are those of the fuse map for the physical core behind it: volatile ones belong to the core that it has
left (R530, R535). -/
def freshRepairs (c : Nat) (s : State) : State :=
  let p := corePage c
  let clear := fun (a : Nat) (f : RegField × RegField × RegField) (u : State) =>
    ((u.setReg p f.1 0 a).setReg p f.2.1 0 a).setReg p f.2.2 0 a
  let t := s.each (List.range 4) fun a u =>
    (u.each (List.range 4) fun g v => clear a (rowRepairFields g) v).each (List.range 2) fun j v => clear a (colRepairFields j) v
  let ph := tabGet 0 c s.plat.corePhysical
  t.each (s.plat.fuseRepairs.filter fun r => r.core == ph) applyFuseRepair

/-- A logical core stands on a fresh physical core: nothing is queued, its arrays are empty and in service (R535). DESIGN CHOICE: log entry
4. -/
def freshCore (c : Nat) (s : State) : State :=
  let t := s.modCore c fun x => { x with
    arrays := [], arrayQueue := [], fabricQueue := [], codingQueue := [], requests := [], live := none, deferred := none }
  freshRepairs c ((setArrayState c 0 0 t).setReg (corePage c) Rg.pageStatusFenced 0 |>.setReg (corePage c) Rg.coreSkewProbeBusy 0)

/-- Every codeword of a core's instruction memory, and of the ranges that a shadow names, can be read (R535). -/
def copyReadable (s : State) (c : Nat) (h : Shadow) : Bool :=
  let bad := fun (r : Region) (m : Memory) (a n : Nat) => (wordsOf r a n).any (cwBad r m)
  !bad .imem s.mem.imem (imemKey c 0) (2 ^ 18) &&
    h.ranges.all fun e => !bad .spad s.mem.spad (spadKey c (64 * e.1)) (64 * e.2)

/-- Of a core's scratchpad only the ranges that its shadow names are copied (R535). -/
def keepRanges (c : Nat) (ranges : List (Nat × Nat)) (s : State) : State :=
  let live := fun (a : Nat) => ranges.any fun r => decide (r.1 * 64 ≤ a % 2 ^ 22) && decide (a % 2 ^ 22 < (r.1 + r.2) * 64)
  let m := s.mem.spad
  { s with mem := { s.mem with spad := {
      cells := m.cells.filter fun (e : Host.Cell) => e.1 / 2 ^ 22 != c || live e.1
      flips := m.flips.filter fun (e : Nat × Nat) => e.1 * 8 / 2 ^ 22 != c || live (8 * e.1) } } }

/-- The context of a core resumes at its last cheap point (R534, R535): what the shadow holds is restored; a save in progress goes on with
that state. DEDUCED: log entry 79. -/
def restartFrom (c : Nat) (h : Shadow) (s : State) : State :=
  let t := (leaveWaits (coreAgent c) s).modCore c fun x => { x with
    gpr := h.gpr, vreg := h.vreg, tags := h.tags, streams := h.streams, pc := h.pc, cheapAt := some s.now, blockedNs := 0
    run := match x.run with
      | .restoring => .restoring
      | .forcedSave => .forcedSave
      | .ending => .ending
      | _ => .running }
  keepRanges c h.ranges ((putFlags c h.flags t).setReg (corePage c) Rg.coreRngStepStep h.rngStep)

/-- A core's context at its replacement (R535). DEDUCED: log entry 79. -/
def resumeOnSpare (c : Nat) (copyOk : Bool) (s : State) : State :=
  match (s.core c).ctx with
  | none => keepRanges c [] s
  | some r =>
    if (s.core c).run = .ending then keepRanges c [] s
    else
      match (s.core c).shadow with
      | some h =>
        if !(s.core c).nonidem ∧ copyOk ∧ copyReadable s c h then restartFrom c h s
        else choose r.part (endContext r.part r.ctx (keepRanges c [] (s.error raspPage 0x0709 c r.ctx)))
      | none => choose r.part (endContext r.part r.ctx (keepRanges c [] (s.error raspPage 0x0709 c r.ctx)))

/-- Tasks of slot commands that ran on a core that was replaced (R311): one whose time at the floor rate from its last cheap point does not
fit before its tidemark is dropped. How much of a task is left is open. DEDUCED: log entry 79. -/
def dropTasks (c : Nat) (s : State) : State :=
  match ownerOfCore s c with
  | none => s
  | some k =>
    let t := s.each (s.radioOf k).slots fun r t => t.each (List.range r.tasks.length) fun i t =>
      missWhere k r.cell r.frame r.slot i (fun q =>
        let left := (s.free 64 i).toNat % (q.waves + 1)
        match q.place with
        | .core d => d.val == c && decide (s.now ≤ q.tidemark.toNat) && decide (s.now + (1000 * left + 1549) / 1550 > q.tidemark.toNat)
        | _ => false) t
    t.usedFree 4096

/-- SPARE_REPLACE_DONE (R311, R535): a spare that fails its probe is retired, and the core waits for the next one or is lost. DEDUCED: log
entry 79. -/
def execSpareReplaceDone (c : Fin 160) (copyOk probeOk : Bool) (s : State) : Host.Outcome State Fault Refusal :=
  .next (match spareCore s (c / 40) with
    | none => s
    | some ph =>
      if !(s.alive ∧ s.flag (corePage c) Rg.pageStatusFenced) then s
      else
        let t := takeSpare ph s
        if !probeOk then
          let t := retirePhysical ph t
          if (spareCore t (c / 40)).isSome then t else coreLost c t
        else
          let t := { t with plat := { t.plat with corePhysical := tabSet c ph t.plat.corePhysical } }
          ((dropTasks c (freshCore c (resumeOnSpare c copyOk (cutByFence c t)))).bump raspPage Rg.raspReplaceCountCount).raise raspPage 2)

/-- Lines of a signal core's data memory, by key / 64, of which a word or the tag has too many flipped bits to be read (R537). -/
def lostLines (s : State) (k : Nat) : List Nat :=
  ((s.mem.dmem.flips.filter fun (e : Nat × Nat) => e.1 / 2 ^ 16 == k && cwBad .dmem s.mem.dmem e.1).map fun e => e.1 / 8) ++
    (s.mem.tags.flips.filter fun (e : Nat × Nat) => e.1 / 2 ^ 13 == k && cwBad .tag s.mem.tags e.1).map (·.1)

/-- SIGC_REPLACE_DONE (R537): lines of the data memory that cannot be read are left unwritten, and a program whose ENABLE is set restarts at
address 0. DEDUCED: log entry 79. -/
def execSigcReplaceDone (k : Fin 64) (s : State) : Host.Outcome State Fault Refusal :=
  .next (match spareSigc s (k / 16) with
    | none => s
    | some ph =>
      if !(s.alive ∧ s.flag (sigcPage k) Rg.pageStatusFenced) then s
      else
        let lost := lostLines s k
        let t := { s with
          plat := { s.plat with
            freeSigcs := s.plat.freeSigcs.filter (· != ph), sigcPhysical := tabSet k.val ph s.plat.sigcPhysical }
          mem := { s.mem with
            dmem := lost.foldl (fun m l => spoilBytes .dmem (64 * l) 64 m) s.mem.dmem, tags := lost.foldl (fun m l => spoilWord .tag m l) s.mem.tags } }
        let t := (countSpares t).setReg (sigcPage k) Rg.pageStatusFenced 0
        let t := if t.flag (sigcPage k) Rg.pageControlEnable then startProgram k t else t
        (t.bump raspPage Rg.raspReplaceCountCount).raise raspPage 2)

/-- The die's cores are renumbered under R530, and those that stand on another physical core are probed; one that has none left is fenced
and lost (R531, R536). DEDUCED: log entry 25. -/
def renumberDie (d : Nat) (s : State) : State :=
  let u := assignNumbers s
  let mine := fun (e : Nat × Nat) => e.1 / 40 == d
  let t := countSpares { s with plat := { s.plat with
    corePhysical := (u.plat.corePhysical.filter mine).foldl (fun m e => tabSet e.1 e.2 m) (s.plat.corePhysical.filter fun e => !mine e)
    freeCores := s.plat.freeCores.filter (fun p => p / 44 != d) ++ u.plat.freeCores.filter fun p => p / 44 == d } }
  t.each ((List.range 40).map (· + 40 * d)) fun c v =>
    match tabFind c t.plat.corePhysical with
    | none => if v.flag (corePage c) Rg.pageStatusFenced then v else coreLost c (v.setReg (corePage c) Rg.pageStatusFenced 1)
    | some ph => if tabFind c s.plat.corePhysical = some ph then v else startProbe c 15 (freshCore c v)

/-- CORE_RETIRE_WRITE (R531): taken only while no partition is enabled. -/
def execCoreRetireWrite (who : Requester) (die : Fin 4) (value : BitVec 64) (s : State) : Host.Outcome State Fault Refusal :=
  .next (writeAccess who raspPage (0x070 + 8 * die) (fun s =>
    if s.anyPart then s.error raspPage 0x0707 die 0
    else renumberDie die (s.setReg raspPage Rg.raspCoreRetirePhysical value.toNat die)) s)

/-- FLIP_ARM (R528, R529): a write of FLIP_CONTROL. DEDUCED: log entry 78. -/
def execFlipArm (who : Requester) (value : BitVec 32) (s : State) : Host.Outcome State Fault Refusal :=
  .next (writeAccess who raspPage 0x05C (fun s =>
    let t := if value.getLsbD 0 then s.setReg raspPage Rg.raspFlipControlArm 1 else s
    if value.getLsbD 1 then t.setReg raspPage Rg.raspFlipControlFired 0 else t) s)

/-- PPR_START (R532): a write of PPR_CONTROL. START is refused while a radio partition is enabled. -/
def execPprStart (who : Requester) (value : BitVec 32) (s : State) : Host.Outcome State Fault Refusal :=
  .next (writeAccess who raspPage 0x098 (fun s =>
    let v := value.toNat
    let t := s.setReg raspPage Rg.raspPprControlStack v |>.setReg raspPage Rg.raspPprControlChannel (v / 2 ^ 5)
      |>.setReg raspPage Rg.raspPprControlPseudo (v / 2 ^ 9) |>.setReg raspPage Rg.raspPprControlBank (v / 2 ^ 10)
      |>.setReg raspPage Rg.raspPprControlHard (v / 2 ^ 16)
    let row := s.reg raspPage Rg.raspPprRowRow
    if !value.getLsbD 17 ∨ s.flag raspPage Rg.raspPprControlBusy then t
    else if s.anyRadio then (t.setReg raspPage Rg.raspPprStatusResult 0x0706).error raspPage 0x0706 (v % 32) row
    else { t with ras := { t.ras with ppr := some (BitVec.ofNat 64 (v % 2 ^ 17 + 2 ^ 32 * row)) } }.setReg raspPage Rg.raspPprControlBusy 1) s)

/-- The lines of the row under repair that hold flipped bits: reading them corrects those that can be, and the others are written poisoned
(R532). Which lines a row holds is not stated. -/
def rewriteRow (v : BitVec 64) (s : State) : State :=
  let lines := (s.mem.hbm.flips.filter fun (e : Nat × Nat) => stackOf (e.1 * 64) == v.toNat % 32 && channelOf (e.1 * 64) == v.toNat / 2 ^ 5 % 16 && Config.inRow v e.1).map (·.1)
  let bad := lines.filter (cwBad .hbm s.mem.hbm)
  let t := s.readWords .hbm lines
  { t with mem := { t.mem with hbm := bad.foldl (spoilWord .hbm) t.mem.hbm } }

/-- PPR_DONE (R532): a sequence that fails, or a bank with no spare row, leaves the row as it was. -/
def execPprDone (outcome : PprOutcome) (s : State) : Host.Outcome State Fault Refusal :=
  .next (match s.ras.ppr with
    | none => s
    | some v =>
      if !s.alive then s
      else
        let t := { s with ras := { s.ras with ppr := none } }.setReg raspPage Rg.raspPprControlBusy 0
        let t := match outcome with
          | .done =>
            let t := (rewriteRow v t).setReg raspPage Rg.raspPprStatusResult 0
            if v.getLsbD 16 then { t with ras := { t.ras with hardRepairs := t.ras.hardRepairs ++ [v.toNat] } }
            else { t with ras := { t.ras with softRepairs := t.ras.softRepairs ++ [v.toNat] } }
          | _ => (t.setReg raspPage Rg.raspPprStatusResult 0x0705).error raspPage 0x0705 (v.toNat % 32) (v.toNat / 2 ^ 32)
        t.raise raspPage 4)

end Sys2Proof.Machine
end

