-- ==== Sys2Proof/Machine/Inject.lean ====
section
/-! DEFINITION. The source's side of the fabric (R374, R447 to R451, R462): injection, responses, completion, resending and timeouts. -/

namespace Sys2Proof.Machine

/-- The fabric engine of a core injects; under FREEZE every command that has been issued goes on (R367, R533, R628). DESIGN CHOICE: log
entry 15. -/
def injects (s : State) (c : Nat) : Bool :=
  let x := s.core c
  s.working && !s.flag (corePage c) Rg.pageStatusFrozen && !s.flag (corePage c) Rg.pageStatusFenced && x.ctx.isSome &&
    x.run != .forcedSave && x.run != .restoring && x.run != .idle

/-- The first command with a request still to inject (R139). -/
def injecting (x : Core) : Option FabricCmd :=
  x.fabricQueue.find? fun q => !q.error && decide (q.injected < fabItems (fabDesc q.cmd.desc))

/-- Requests of a partition that are outstanding on a VC (R374). -/
def outstanding (s : State) (k vc : Nat) : Nat :=
  (s.cores.map fun (e : Nat × Core) =>
    if (e.2.ctx.map (·.part)) = some k then (e.2.requests.filter fun r => r.vc == vc).length else 0).foldl (· + ·) 0

/-- A refused request to a device on a VC waits to be resent, so that no later one may go (R451). -/
def resendDue (s : State) (dest vc : Nat) : Bool :=
  s.cores.any fun (e : Nat × Core) => e.2.requests.any fun r => r.refusedUntil.isSome && r.dest == dest && r.vc == vc

/-- One request of a command has been injected. -/
def countInjected (serial : Nat) (x : Core) : Core :=
  { x with fabricQueue := x.fabricQueue.map fun (q : FabricCmd) => if q.serial = serial then { q with injected := q.injected + 1 } else q }

/-- What a request carries as data, from the scratchpad or, for a DMA_WRITE, from local memory. -/
inductive Operand where
  | ready (b : List Byte)
  | waits
  | bad
  deriving DecidableEq, Repr
def operandData (s : State) (c k : Nat) (p : FabDesc) (i : Nat) : Operand :=
  if p.op = 8 then
    match s.partRead k (itemLocal p i) (itemRange p i).2 with
    | .data b => match b.mapM id with
      | some x => .ready x
      | none => .bad
    | .held _ => .waits
    | .error _ _ => .bad
  else
    let n := operandBytes p
    let e := if p.op = 5 then lineExps p.form else 0
    match s.spadRead c (p.local_ + i * n) n, s.spadRead c (p.length % 2 ^ 22 + i * e) e with
    | some a, some b => .ready (a ++ b)
    | _, _ => .bad

/-- What reading the operands leaves (R521, R522, R272). -/
def operandTouch (c k : Nat) (p : FabDesc) (i : Nat) (s : State) : State :=
  if p.op = 8 then s.partTouch k (itemLocal p i) (itemRange p i).2
  else
    let n := operandBytes p
    let t := if n = 0 then s else s.readEffect .spad (spadKey c (p.local_ + i * n)) n
    if p.op = 5 then t.readEffect .spad (spadKey c (p.length % 2 ^ 22 + i * lineExps p.form)) (lineExps p.form) else t

/-- The request packet of item i (R445). A REDUCE carries its format in FUNC and the address of its exponents in the last field. -/
def itemPacket (s : State) (c k : Nat) (p : FabDesc) (i dest addr req : Nat) (data : List Byte) : Packet :=
  { op := BitVec.ofNat 8 p.op, size := Fin.ofNat 8 (if p.op = 5 ∨ p.op = 7 ∨ p.op = 8 then 3 else p.size)
    src := BitVec.ofNat 12 (selfDevice s), dest := BitVec.ofNat 12 dest, part := Fin.ofNat 64 k, retry := false
    func := Fin.ofNat 16 (if p.op = 3 ∨ p.op = 4 then p.func else if p.op = 5 then p.form else 0)
    core := BitVec.ofNat 8 c, req := BitVec.ofNat 8 req, index := BitVec.ofNat 12 p.index
    contributors := BitVec.ofNat 13 p.contributors, status := 0, addr := BitVec.ofNat 64 addr
    ext := if p.op = 6 then p.mask else if p.op = 7 ∨ p.op = 8 then BitVec.ofNat 64 (itemRange p i).2
      else if p.op = 5 then BitVec.ofNat 64 (p.mem + i * lineExps p.form) else 0
    data := data }

/-- A request that fails at the source (R242, R444, R447). DEDUCED: log entry 92. -/
def failItem (c : Nat) (q : FabricCmd) (posted : Bool) (code dest : Nat) (s : State) : State :=
  let t := (remoteFault posted code dest s).modCore c (countInjected q.serial)
  if posted then t else t.modCore c (failCommand q.serial)

/-- The request index that a core uses next. -/
def freeReq (x : Core) : Option Nat := (List.range 256).find? fun n => x.requests.all fun r => r.req != n

/-- Enter a request among those outstanding. -/
def enterReq (c : Nat) (q : FabricCmd) (pkt : Packet) (dest left : Nat) (posted : Bool) (s : State) : State :=
  let r : FabReq := { req := pkt.req.toNat, cmd := q.serial, dest := dest, vc := vcOf pkt, posted := posted, sentAt := s.now, item := q.injected
                      packet := pkt, order := s.fabric.serial, left := left }
  let t := { s with fabric := { s.fabric with serial := s.fabric.serial + 1 } }
  t.modCore c fun x =>
    let y := countInjected q.serial x
    { y with requests := y.requests ++ [r]
             sentTo := if posted ∧ !y.sentTo.contains dest then y.sentTo ++ [dest] else y.sentTo }

/-- A request that leaves the replay set of its partition is an output (R516). -/
def noteRequest (k : Nat) (pkt : Packet) (s : State) : State :=
  if inReplaySet s k pkt.dest.toNat then s else noteOutput k 3 (packetBytes pkt (packetFlits pkt)) s

/-- While a partition replays, a request outside its replay set is not sent (R517): a posted one counts as answered, a LOAD or an ATOMIC
takes the next recorded response, and one for which there is none diverges (R518). DEDUCED: log entry 92. -/
def replayRequest (c k : Nat) (q : FabricCmd) (pkt : Packet) (posted : Bool) (s : State) : State :=
  let t := noteRequest k pkt s
  if posted then t.modCore c (countInjected q.serial)
  else
    match if pkt.op = opDmaRead then none else findEntry t k 5 (t.reg (partPage k) Rg.partRecordBytesBytes / 64) (recordOf t k).respAt with
    | some e =>
      let u := setRecord k { recordOf t k with respAt := e.next } t
      let u := enterReq c q pkt pkt.dest.toNat 1 false u
      match (u.core c).requests.getLast? with
      | some r => answerReq c r (leNat ((e.payload.drop 14).take 1)) 0 (faultCode (leNat ((e.payload.drop 14).take 1))) (e.payload.drop 32) u
      | none => u
    | none => failItem c q false 0x0343 pkt.dest.toNat (diverge k 5 t)

/-- Send a request to another device, within its partition's quota (R374, R451). DEDUCED: log entry 88. -/
def sendRequest (c k : Nat) (q : FabricCmd) (pkt : Packet) (dest left : Nat) (posted : Bool) (s : State) : State :=
  let vc := vcOf pkt
  if !s.flag fabrPage Rg.fabrDeviceIdValid || resendDue s dest vc ||
      decide (outstanding s k vc ≥ s.reg (partPage k) Rg.partFabricQuotaQuota (vc - 1)) then s
  else
    let t := operandTouch c k (fabDesc q.cmd.desc) q.injected s
    if replaying s k && !inReplaySet s k dest then replayRequest c k q pkt posted t
    else flush ((enterReq c q pkt dest left posted (noteRequest k pkt t)).sendPackets [pkt])

/-- A request to memory of this device is served here by the same rules (R447). -/
def localRequest (c k : Nat) (q : FabricCmd) (pkt : Packet) (posted : Bool) (s : State) : State :=
  match serveTurn pkt false s with
  | .later t => t
  | .taken t => enterReq c q pkt (selfDevice s) 1 posted (operandTouch c k (fabDesc q.cmd.desc) q.injected t)
  | .answer t st hint data =>
    let u := enterReq c q pkt (selfDevice s) 1 posted (operandTouch c k (fabDesc q.cmd.desc) q.injected t)
    match (u.core c).requests.getLast? with
    | some r => answerReq c r st hint (faultCode st) data u
    | none => u

/-- A LOAD or STORE of a line whose home is a member of the coherence group goes through this device's cache (R452). -/
def coherentRequest (c k : Nat) (q : FabricCmd) (p : FabDesc) (data : List Byte) (dest : Nat) (s : State) : State :=
  let r := itemRange p q.injected
  if p.op = 1 then
    match s.partRead k r.1 r.2 with
    | .held _ => s.partTouch k r.1 r.2
    | .error e _ => failItem c q false (faultCode (accessStatus e)) dest (s.faultTouch k r.1 r.2 false)
    | .data b =>
      let t := s.partTouch k r.1 r.2
      match b.mapM id with
      | some bytes => (t.spadWrite c (p.result + q.injected * resultBytes p) bytes).modCore c (countInjected q.serial)
      | none => failItem c q false 0x0343 dest t
  else
    match s.partWriteCheck k r.1 r.2 with
    | .waits => s
    | .error e _ => failItem c q true (faultCode (accessStatus e)) dest (s.faultTouch k r.1 r.2 true)
    | .done => ((operandTouch c k p q.injected s).partStore k r.1 data).modCore c (countInjected q.serial)

/-- MCAST_STORE (R447): members that are not reachable, or outside PEER_RANGE, are left out and recorded. -/
def mcastRequest (c k : Nat) (q : FabricCmd) (p : FabDesc) (req : Nat) (data : List Byte) (s : State) : State :=
  let span := selfDevice s / 64 * 64
  let members := maskMembers p.mask
  let lost := members.filter fun m => m != selfDevice s % 64 && (outputOf s (span + m) 5).isNone
  let denied := members.filter fun m => !lost.contains m && m != selfDevice s % 64 && !peerAllowed s k (span + m)
  let good := members.filter fun m => !lost.contains m && !denied.contains m
  let mask := good.foldl (fun (v : BitVec 64) m => v ||| 1#64 <<< m) 0
  let record := fun (t : State) =>
    (t.each lost fun m u => u.error fabrPage 0x0341 0 (span + m)).each denied fun m u => remoteFault true 0x0342 (span + m) u
  if good.isEmpty then (record s).modCore c (countInjected q.serial)
  else
    let pkt := { itemPacket s c k p q.injected span (itemRange p q.injected).1 req data with ext := mask }
    let t := sendRequest c k q pkt span good.length true s
    if (t.core c).fabricQueue = (s.core c).fabricQueue then t else record t

/-- FABRIC_INJECT (R139, R374, R444, R447, R464). -/
def execFabricInject (c : Fin 160) (s : State) : Host.Outcome State Fault Refusal :=
  let x := s.core c
  .next (match x.ctx, injecting x, freeReq x with
    | some ctx, some q, some req =>
      let k := ctx.part
      let p := fabDesc q.cmd.desc
      let i := q.injected
      let posted := postedOp p.op
      let r := itemRange p i
      if !injects s c || !s.serves fabrPage || quenched s k then s
      else
        match operandData s c k p i with
        | .waits => operandTouch c k p i s
        | .bad => ((operandTouch c k p i s).modCore c (countInjected q.serial)).modCore c (failCommand q.serial)
        | .ready data =>
          if p.op = 6 then mcastRequest c k q p req data s
          else
            match translate s k r.1 (p.op != 1 && p.op != 7) with
            | .inr e =>
              let d := match s.pageOf k r.1 with
                | some pe => if pe.tier = 3 then pe.device else selfDevice s
                | none => selfDevice s
              failItem c q posted (faultCode (accessStatus e)) d (s.faultTouch k r.1 r.2 (p.op != 1 && p.op != 7))
            | .inl pe =>
              match placeOf s pe r.1 with
              | .remote d addr =>
                if inGroup s d ∧ p.op ≤ 2 then coherentRequest c k q p data d s
                else sendRequest c k q (itemPacket s c k p i d addr req data) d 1 posted s
              | _ => localRequest c k q (itemPacket s c k p i (selfDevice s) r.1 req data) posted s
    | _, _, _ => s)

/-- The answer to a survivor of a combining buffer serves the requests that merged into it (R456). -/
def splitPairs (pkt : Packet) (s : State) : State :=
  let mine := fun (m : MergedPair) => m.src == pkt.dest.toNat && m.core == pkt.core.toNat && m.req == pkt.req.toNat
  if pkt.op ≠ 0x83 then s
  else
    match s.fabric.pairs.find? mine with
    | none => s
    | some m =>
      let n := sizeBytes pkt.size
      let t := { s with fabric := { s.fabric with pairs := s.fabric.pairs.filter fun x => !mine x } }
      t.sendPackets (m.others.map fun e =>
        { pkt with dest := e.1.src, core := e.1.core, req := e.1.req, data := toBytes n (leNat pkt.data + e.2) })

/-- FABRIC_RESPONSE (R448, R450 to R453): a response reaches this device. -/
def execFabricResponse (pkt : Packet) (s : State) : Host.Outcome State Fault Refusal :=
  .next (if !s.working || !pkt.op.getLsbD 7 || pkt.dest.toNat != selfDevice s || !rxReady s pkt then s
    else
      let t := splitPairs pkt s
      if pkt.core.toNat < 160 then
        match (t.core pkt.core.toNat).requests.find? fun r => r.req == pkt.req.toNat with
        | some r =>
          if resultWaits t pkt.core.toNat r pkt.data.length then s else takeRx pkt (takeResponse pkt t)
        | none => takeRx pkt t
      else if pkt.op = 0x90 ∨ pkt.op = 0x91 then takeRx pkt (takeLine pkt t)
      else if pkt.op = 0x98 ∨ pkt.op = 0x99 then takeRx pkt (takeAnswer pkt t)
      else takeRx pkt t)

/-- A command has nothing left to do (R448): a posted one has injected its last request, a non-posted one has all its answers. -/
def commandOver (x : Core) (q : FabricCmd) : Bool :=
  let p := fabDesc q.cmd.desc
  (q.error || q.injected == fabItems p) && (postedOp p.op || x.requests.all fun r => r.cmd != q.serial)

/-- FABRIC_COMMAND_DONE (R140, R448). -/
def execFabricCommandDone (c : Fin 160) (s : State) : Host.Outcome State Fault Refusal :=
  let x := s.core c
  .next (match x.fabricQueue.find? (commandOver x) with
    | none => s
    | some q =>
      if s.working then
        s.setCore c (finishTag q.cmd.tag q.error { x with fabricQueue := x.fabricQueue.filter fun e => e.serial != q.serial })
      else s)

/-- REFUSED_RETRY (R451): the refused requests of this device to one device and VC are resent in their original order, each with RETRY = 1,
no earlier than its hint. -/
def execRefusedRetry (c : Fin 160) (s : State) : Host.Outcome State Fault Refusal :=
  .next (match (s.core c).requests.find? fun r => r.refusedUntil.isSome with
    | none => s
    | some r =>
      let earlier := s.cores.any fun (e : Nat × Core) => e.2.requests.any fun q =>
        q.refusedUntil.isSome && q.dest == r.dest && q.vc == r.vc && decide (q.order < r.order)
      if injects s c ∧ !earlier ∧ decide (s.now ≥ r.refusedUntil.getD 0) ∧ !quenched s r.packet.part then
        let pkt := { r.packet with retry := true }
        let t := s.modCore c fun x => { x with requests := x.requests.map fun (q : FabReq) =>
          if q.order = r.order then { q with refusedUntil := none, sentAt := s.now } else q }
        if r.dest = selfDevice s then
          match serveTurn pkt false t with
          | .answer u st hint data => answerReq c { r with refusedUntil := none } st hint (faultCode st) data u
          | .taken u => u
          | .later _ => s
        else flush (t.sendPackets [pkt])
      else s)

/-- REQ_TIMEOUT (R450): a request unanswered after REQ_TIMEOUT is answered locally as FAULT and recorded as 0x0344. -/
def execReqTimeout (c : Fin 160) (req : BitVec 8) (s : State) : Host.Outcome State Fault Refusal :=
  .next (match (s.core c).requests.find? fun r => r.req == req.toNat with
    | none => s
    | some r =>
      if s.alive ∧ s.now ≥ r.sentAt + 1000 * s.reg fabrPage Rg.fabrReqTimeoutMicros then
        answerReq c { r with left := 1 } 4 0 0x0344 [] s
      else s)

end Sys2Proof.Machine
end

