-- ==== Sys2Proof/Machine/Link.lean ====
section
/-! DEFINITION. The Aqzer link (R421 to R441, R460, R467, R468): training, codewords, flits and retry, credits, gate messages, lane power
and the time exchange. -/

namespace Sys2Proof.Machine

/-- The lanes of a port in its mode (R422). -/
def modeLanes (s : State) (p : Nat) : Nat := if (linkOf s p).simplex then 3 else 15

/-- A training takes up MODE (R422, R441). -/
def takeMode (p : Nat) (s : State) : State :=
  modLink p (fun x => { x with simplex := s.flag (aqzlPage p) Rg.aqzlLinkControlMode }) s

/-- Flits in the receive buffers when nothing is divided otherwise, and a division that R436 allows. DEDUCED: log entry 86. -/
def resetDivision : List Nat := (List.range 8).map vcBufferReset
def setDivision (s : State) (p : Nat) : List Nat := (List.range 8).map fun v => s.reg (aqzlPage p) Rg.aqzlVcBufferFlits v
def divisionOk (l : List Nat) : Bool :=
  decide (l.foldl (· + ·) 0 ≤ 2048) && decide (l.getD 0 0 ≥ 16) && decide (l.getD 7 0 ≥ 16)

/-- The lanes of a port carry no flits. -/
def lanesDown (p : Nat) (s : State) : State :=
  let t := s.setReg (aqzlPage p) Rg.aqzlLinkStatusActive 0 |>.setReg (aqzlPage p) Rg.aqzlLinkStatusAsleep 0
  modLink p (fun x => { x with locked := [], sleptAt := [], partials := [] }) t

/-- A port leaves link-up, if it was up: LINK_DOWN is raised, and the fabric does not know a partner there. DEDUCED: log entry 86. -/
def leaveUp (p : Nat) (s : State) : State :=
  let up := portUp s p
  let t := (lanesDown p s).raiseBits (aqzlPage p) (if up then 4 else 0)
  if p < 8 then t.setReg fabrPage Rg.fabrPortPeerValid 0 p else t

/-- The packets whose last flit stands in the replay buffer are returned to the fabric as undelivered, and go out first on the new outputs
(R434, R439, R461). -/
def returnFlits (p : Nat) (s : State) : State :=
  let x := linkOf s p
  let l := x.replay.filterMap fun (r : ReplayFlit) => r.ends
  let t := setLink p { x with
    replay := [], resend := none, queues := x.queues.map fun (e : Nat × List QPacket) => (e.1, e.2.map fun q => { q with sent := 0 }) } s
  let seals := x.sealsSent.map HeldItem.gate
  releaseHeld (l.map (fun k => HeldItem.packet { pkt := k }) ++ seals) (modLink p (fun y => { y with sealsSent := [] }) t)

/-- Training starts at phase 0 (R429, R432): RETRAINS counts it after the first link up. -/
def startTraining (p : Nat) (s : State) : State :=
  let g := aqzlPage p
  let was := (linkOf s p).wasUp
  let t := leaveUp p s
  let t := t.setReg g Rg.aqzlLinkStatusState 1 |>.setReg g Rg.aqzlLinkStatusPhase 0 |>.setReg g Rg.aqzlLinkControlRetrain 0
  let t := if was then noteTraining ((t.bump g Rg.aqzlRetrainsCount).raise g 4) else t
  let t := takeMode p t
  let t := modLink p (fun x => { x with kept := modeLanes t p, restarts := 0, phaseAt := s.now, discarding := false, xoff := [] }) t
  updateReach t

/-- The port is switched off (R439): every lane is off, the link is down, and its flits go back to the fabric. -/
def portOff (p : Nat) (s : State) : State :=
  let g := aqzlPage p
  let t := leaveUp p s
  let t := t.setReg g Rg.aqzlLinkStatusState 0 |>.setReg g Rg.aqzlLinkStatusPhase 0
  let t := returnFlits p t
  updateReach (modLink p (fun x => { x with keepSeq := false, restarts := 0 }) t)

/-- The port trains no further (R431). -/
def trainFail (p code detail : Nat) (s : State) : State :=
  let g := aqzlPage p
  let t := (leaveUp p s).setReg g Rg.aqzlLinkStatusState 4
  modLink p (fun x => { x with keepSeq := false }) (returnFlits p (t.error g code 0 detail))

/-- TRAIN_START (R429, R432): ENABLE was set, RETRAIN was written, a flit has been sent 8 times, a level has drifted, or the far end has gone
back to phase 0. -/
def execTrainStart (p : Fin 9) (cause : TrainCause) (s : State) : Host.Outcome State Fault Refusal :=
  let g := aqzlPage p
  let st := s.reg g Rg.aqzlLinkStatusState
  let due : Bool := match cause with
    | .enable => st == 0 && !s.frozen g
    | .retrainWrite => s.flag g Rg.aqzlLinkControlRetrain
    | .retryLimit => (linkOf s p).replay.any fun r => decide (r.sends ≥ 8)
    | .levelDrift => st == 3
    | .partner => st == 2 || st == 3
  .next (if s.alive ∧ s.flag g Rg.pageStatusEnabled ∧ due then startTraining p s else s)

/-- RETRAIN_WRITE (R441). -/
def execRetrainWrite (who : Requester) (p : Fin 9) (s : State) : Host.Outcome State Fault Refusal :=
  .next (writeAccess who (aqzlPage p) 0x040 (fun t => t.setReg (aqzlPage p) Rg.aqzlLinkControlRetrain 1) s)

/-- A lane carries flits. -/
def laneActive (s : State) (p lane : Nat) : Bool := (s.reg (aqzlPage p) Rg.aqzlLinkStatusActive).testBit lane

/-- LEVEL_DRIFT (R429). -/
def execLevelDrift (p : Fin 9) (lane : Fin 4) (s : State) : Host.Outcome State Fault Refusal :=
  .next (if s.alive ∧ portUp s p ∧ laneActive s p lane then startTraining p s else s)

/-- The numbers of R443's table: the members that a port may link to; an inter-span port links to another span. -/
def peerFits (s : State) (p d : Nat) : Bool :=
  let me := selfDevice s
  if p ≥ 6 then d / 64 != me / 64
  else
    let n := spanDims s
    let c := coordsOf s (me % 64)
    let step := fun (n a : Nat) (up : Bool) => if up then (a + 1) % n else (a + n - 1) % n
    let up := p % 2 = 0
    let t := if p < 2 then (step n.1 c.1 up, c.2.1, c.2.2) else if p < 4 then (c.1, step n.2.1 c.2.1 up, c.2.2)
      else (c.1, c.2.1, step n.2.2 c.2.2 up)
    (ringPorts s).contains p && d == me / 64 * 64 + t.1 + n.1 * (t.2.1 + n.2.1 * t.2.2)

/-- A phase of training begins. -/
def beginPhase (p ph : Nat) (s : State) : State :=
  modLink p (fun x => { x with phaseAt := s.now }) (s.setReg (aqzlPage p) Rg.aqzlLinkStatusPhase ph)

/-- The longest time of each phase of training, in ns (R431). -/
def phaseMax : Nat → Nat
  | 0 => 2000000
  | 1 => 4000000
  | 2 => 4000000
  | 3 => 6000000
  | 4 => 3000000
  | _ => 1000000

/-- Exchange of phase 0 (R423, R429, R431): a port kind or mode that does not match fails the training. The larger serial number leads;
where the link loops back, the port of lower number does. A serial number that is equal without a loop leaves the role open. DEDUCED: log
entry 86. -/
def detectDone (p : Nat) (info : TrainInfo) (s : State) : State :=
  let g := aqzlPage p
  let me := s.fuses.serial.toNat
  let role := if me ≠ info.serial.toNat then bit (decide (me > info.serial.toNat))
    else match info.loop with
      | some q => bit (decide (p < q.val))
      | none => (s.free 1).toNat
  let t := (s.setReg g Rg.aqzlPartnerIdSerial info.serial.toNat |>.setReg g Rg.aqzlLinkStatusRole role).usedFree
  let t := if p = 8 then t.setReg raspPage Rg.raspTwinPeerSerial info.serial.toNat |>.setReg raspPage Rg.raspTwinStatusRole
    (bit (t.flag raspPage Rg.raspTwinControlEnable && role == 1)) else t
  if !info.samePortKind then trainFail p 0x0335 0 t
  else if !info.sameMode then trainFail p 0x0334 0 t
  else beginPhase p 1 (t.setReg g Rg.aqzlLinkStatusState 2)

/-- Lanes that fail are retired (R423). -/
def retireLanes (p lanes : Nat) (s : State) : State :=
  let g := aqzlPage p
  let lost := modeLanes s p - (modeLanes s p &&& lanes)
  let old := s.reg g Rg.aqzlLinkStatusRetired
  let t := modLink p (fun x => { x with kept := modeLanes s p &&& lanes }) (s.setReg g Rg.aqzlLinkStatusRetired lost)
  t.raiseBits g (if (List.range 4).any fun i => lost.testBit i && !old.testBit i then 8 else 0)

/-- Link up (R429, R434, R436, R443): the partner's device number must fit the port; a link that has been up resumes with a NAK and keeps
its replay buffer. DEDUCED: log entries 86, 90. -/
def linkUp (p : Nat) (info : TrainInfo) (s : State) : State :=
  let g := aqzlPage p
  let d := info.peer.toNat
  let s := if p < 8 then s.setReg fabrPage Rg.fabrPortPeerDevice d p |>.setReg fabrPage Rg.fabrPortPeerValid 1 p else s
  if p < 8 ∧ !peerFits s p d then
    ((leaveUp p s).setReg g Rg.aqzlLinkStatusState 0).error fabrPage 0x0346 0 (d + p * 2 ^ 16)
      |>.setReg fabrPage Rg.fabrPortPeerDevice d p |>.setReg fabrPage Rg.fabrPortPeerValid 1 p
  else
    let ok := divisionOk (setDivision s p)
    let t := if ok then s else s.error g 0x0336 0 0
    let x := linkOf s p
    let base : Link := if x.keepSeq then x else
      { x with txSeq := 0, replay := [], resend := none, rxSeq := 0, unacked := 0, rxAny := false
               inFlight := List.replicate 8 0, told := List.replicate 8 0, freed := List.replicate 8 0
               sealsSent := [], sealsIn := [], sealsSeen := [] }
    let t := setLink p { base with
      wasUp := true, keepSeq := true, restarts := 0, downHandled := false, division := if ok then setDivision s p else resetDivision
      peerDivision := info.peerBuffers, creditAt := s.now, starvedAt := s.now, ackedAt := s.now, discarding := x.keepSeq
      resend := if x.replay.isEmpty ∨ !x.keepSeq then none else some 0
      locked := (List.range 4).filter x.kept.testBit } t
    let t := t.setReg g Rg.aqzlLinkStatusState 3 |>.setReg g Rg.aqzlLinkStatusActive x.kept
    let t := if x.keepSeq then t.gate p 6 x.rxSeq else t
    let lead := selfDevice s / 64 * 64 + s.reg fabrPage Rg.fabrSpanShapeLead
    let t := if p < 8 ∧ !s.flag fabrPage Rg.fabrTimeControlMaster ∧ (waysTo s lead).head? = some p then
      modLink p (fun y => { y with timeHeard := s.now }) (t.setReg fabrPage Rg.fabrTimeControlUpstream p) else t
    updateReach (t.raise g 1)

/-- TRAIN_PHASE_DONE (R429): in simplex mode phases 1 and 2 run together. -/
def execTrainPhaseDone (p : Fin 9) (info : TrainInfo) (s : State) : Host.Outcome State Fault Refusal :=
  let g := aqzlPage p
  let st := s.reg g Rg.aqzlLinkStatusState
  let ph := s.reg g Rg.aqzlLinkStatusPhase
  let t := modLink p (fun x => { x with
    gains := if info.gains.isEmpty then x.gains else info.gains
    residuals := if info.residuals.isEmpty then x.residuals else info.residuals }) s
  .next (if !s.alive ∨ !(st = 1 ∨ st = 2) then s
    else if st = 1 then detectDone p info s
    else match ph with
      | 1 => beginPhase p (if (linkOf s p).simplex then 3 else 2) t
      | 2 => beginPhase p 3 t
      | 3 => if info.lanes.toNat &&& modeLanes s p = 0 then s else beginPhase p 4 (retireLanes p info.lanes.toNat t)
      | 4 => if info.lanes.toNat &&& modeLanes s p = 0 then s else beginPhase p 5 (retireLanes p info.lanes.toNat t)
      | _ => linkUp p info t)

/-- TRAIN_PHASE_TIMEOUT (R431): a phase has run past its maximum, so training restarts, and fails after three restarts in a row. DEDUCED:
log entry 86. -/
def execTrainPhaseTimeout (p : Fin 9) (s : State) : Host.Outcome State Fault Refusal :=
  let g := aqzlPage p
  let st := s.reg g Rg.aqzlLinkStatusState
  .next (if s.alive ∧ (st = 1 ∨ st = 2) ∧ s.now > (linkOf s p).phaseAt + phaseMax (s.reg g Rg.aqzlLinkStatusPhase) then
      if (linkOf s p).restarts ≥ 3 then trainFail p 0x0331 (s.reg g Rg.aqzlLinkStatusPhase) s
      else
        modLink p (fun x => { x with restarts := x.restarts + 1 })
          (beginPhase p 0 ((takeMode p (noteTraining (s.bump g Rg.aqzlRetrainsCount))).setReg g Rg.aqzlLinkStatusState 1))
    else s)

/-- Send a NAK for the first flit not yet accepted (R428, R434). -/
def sendNak (p : Nat) (s : State) : State :=
  (modLink p (fun x => { x with discarding := true }) s).gate p 6 (linkOf s p).rxSeq

/-- CODEWORD_RX (R425, R428): FEC corrects a codeword, or it is discarded whole. The number of symbol errors of a codeword beyond correction is
not known. -/
def execCodewordRx (p : Fin 9) (lane : Fin 4) (seq : BitVec 10) (fec : FecResult) (s : State) : Host.Outcome State Fault Refusal :=
  let g := aqzlPage p
  let st := s.reg g Rg.aqzlLinkStatusState
  .next (if !s.alive ∨ !(laneActive s p lane ∨ st = 2) then s
    else
      let lock := fun (x : Link) => { x with locked := if x.locked.contains lane.val then x.locked else x.locked ++ [lane.val] }
      let count := fun (n : Nat) (x : Link) => { x with errors := tabMod 0 lane.val (fun v => min (v + n) (2 ^ 32 - 1)) x.errors }
      match fec with
      | .corrected n => (modLink p (fun x => lock (count n x)) s).addReg g Rg.aqzlFecCorrectedCount n
      | .uncorrectable =>
        let t := (modLink p (fun x => lock (count (11 + (s.free 8).toNat) x)) s).usedFree
        let t := (t.bump g Rg.aqzlFecUncorrectedCount).error g 0x0332 0 (lane.val + seq.toNat * 2 ^ 16)
        if portUp s p then sendNak p t else t)

/-- CODEWORD_LOCK_LOSS (R425): 8 consecutive misses. DEDUCED: log entry 86. -/
def execCodewordLockLoss (p : Fin 9) (lane : Fin 4) (s : State) : Host.Outcome State Fault Refusal :=
  .next (if s.alive then modLink p (fun x => { x with locked := x.locked.filter (· != lane.val) }) s else s)

/-- The FSEQ a comes at or before b, in the half circle behind it. -/
def seqUpTo (a b : Nat) : Bool := decide ((b + 4096 - a % 4096) % 4096 < 2048)

/-- A seal that arrived goes on toward its destination, or is answered there, or frees its tag (R460). A SEAL names no source: the return goes
back to the port from which the seal came, with a destination that is open. -/
def applySeal (p : Nat) (m : GateSeal) (s : State) : State :=
  if m.dest ≠ selfDevice s then placeSeal m (flush s)
  else if m.ret then sealDone m.tag (flush s)
  else (sendSeal p { m with ret := true, dest := (s.free 12).toNat } s).usedFree

/-- The seals that every flit before them has reached (R427). -/
def sealsArrive (p : Nat) (s : State) : State :=
  let x := linkOf s p
  let due := fun (m : GateSeal) => m.fseq == x.rxSeq || seqUpTo m.fseq x.rxSeq
  (setLink p { x with sealsIn := x.sealsIn.filter fun m => !due m } s).each (x.sealsIn.filter due) fun m t => applySeal p m t

/-- A SEAL or SEAL_RETURN arrives (R427): three copies come, and it is applied once. DESIGN CHOICE: log entry 85. -/
def sealArrives (p : Nat) (m : GateSeal) (s : State) : State :=
  let x := linkOf s p
  if !(s.alive && portUp s p) || x.sealsSeen.contains m then s
  else
    sealsArrive p (setLink p { x with
      sealsSeen := (x.sealsSeen ++ [m]).drop ((x.sealsSeen.length + 1) - 64), sealsIn := x.sealsIn ++ [m] } s)

/-- SEAL (R427, R460). DESIGN CHOICE: log entry 85. -/
def execSeal (p : Fin 9) (tag : Fin 64) (dest fseq : BitVec 12) (s : State) : Host.Outcome State Fault Refusal :=
  .next (sealArrives p ⟨false, tag, dest.toNat, fseq.toNat⟩ s)

/-- SEAL_RETURN (R427, R460). DESIGN CHOICE: log entry 85. -/
def execSealReturn (p : Fin 9) (tag : Fin 64) (dest fseq : BitVec 12) (s : State) : Host.Outcome State Fault Refusal :=
  .next (sealArrives p ⟨true, tag, dest.toNat, fseq.toNat⟩ s)

/-- A packet has come whole: it goes on, or waits here for its operation. DEDUCED: log entry 83. -/
def packetArrives (p : Nat) (k : Packet) (s : State) : State := flush (routePacket { pkt := k, src := some p } (splitPairs k (flush s)))

/-- An accepted flit joins the packet of its VC (R445). -/
def takeFlit (p : Nat) (f : Flit) (s : State) : State :=
  let x := linkOf s p
  match f.packet with
  | some k =>
    if packetFlits k ≤ 1 then packetArrives p k (setLink p { x with partials := tabDel f.vc x.partials } s)
    else setLink p { x with partials := tabSet f.vc (k, packetFlits k - 1) x.partials } s
  | none =>
    match tabFind f.vc.val x.partials with
    | none => freeFlits p f.vc 1 s
    | some (k, n) =>
      if n ≤ 1 then packetArrives p k (setLink p { x with partials := tabDel f.vc x.partials } s)
      else setLink p { x with partials := tabSet f.vc (k, n - 1) x.partials } s

/-- FLIT_RX (R433, R434): flits are accepted in FSEQ order only; a CRC failure or a gap sends a NAK, and flits are discarded until the one
expected comes. DEDUCED: log entry 83. -/
def execFlitRx (p : Fin 9) (flit : Flit) (crcOk : Bool) (s : State) : Host.Outcome State Fault Refusal :=
  let g := aqzlPage p
  let x := linkOf s p
  .next (if !(s.alive ∧ portUp s p) then s
    else if !crcOk then sendNak p (s.bump g Rg.aqzlCrcErrorsCount)
    else if flit.null then s
    else if flit.fseq.toNat = x.rxSeq then
      let t := setLink p { x with rxSeq := (x.rxSeq + 1) % 4096, discarding := false, unacked := x.unacked + 1, rxAny := true } s
      sealsArrive p (takeFlit p flit t)
    else if x.discarding then s
    else sendNak p s)

/-- A VC of a port can send its next flit (R435 to R437, R464). -/
def vcFront (x : Link) (vc : Nat) : Option QPacket := (tabGet [] vc x.queues).find? fun q => !q.stored
def vcSends (x : Link) (vc : Nat) : Bool :=
  (vcFront x vc).isSome && !((1 ≤ vc && vc ≤ 6) && x.xoff.contains vc) && decide (x.inFlight.getD vc 0 < x.peerDivision.getD vc 0)

/-- The next VC (R435): VC0, then VC7, then VC1 to VC6 by deficit round robin in units of flits; with the turn that it leaves. -/
def chooseVc (s : State) (p : Nat) (x : Link) : Option (Nat × (Nat × Nat)) :=
  if vcSends x 0 then some (0, x.turn)
  else if vcSends x 7 then some (7, x.turn)
  else if x.turn.2 > 0 ∧ vcSends x x.turn.1 then some (x.turn.1, (x.turn.1, x.turn.2 - 1))
  else
    (((List.range 6).map fun i => (x.turn.1 + i) % 6 + 1).find? (vcSends x)).map fun v =>
      (v, (v, max 1 (s.reg (aqzlPage p) Rg.aqzlVcWeightWeight v) - 1))

/-- A NULL flit goes out. -/
def sendNull (p : Nat) (s : State) : State := s.emit (.flit p ⟨0, 0, true, none⟩)

/-- Send the next flit of a VC (R433 to R436). -/
def sendFlit (p vc : Nat) (turn : Nat × Nat) (q : QPacket) (s : State) : State :=
  let x := linkOf s p
  let f : Flit := ⟨BitVec.ofNat 12 x.txSeq, Fin.ofNat 8 vc, false, if q.sent = 0 then some q.pkt else none⟩
  let last := q.sent + 1 ≥ packetFlits q.pkt
  let l := tabGet [] vc x.queues
  let l := if last then l.erase q else l.replace q { q with sent := q.sent + 1 }
  let y := { x with
    txSeq := (x.txSeq + 1) % 4096, turn := turn, queues := tabPut [] vc l x.queues
    inFlight := x.inFlight.set vc (x.inFlight.getD vc 0 + 1)
    replay := x.replay ++ [⟨f, 1, if last then some q.pkt else none⟩] }
  let t := freeSource q 1 ((setLink p y s).emit (.flit p f))
  if last then sealsAdvance p vc q.pkt.dest.toNat t else t

/-- FLIT_TX (R434, R435): flits to be sent again come first; while the replay buffer is full, FREEZE holds the
port or nothing can go, NULL flits are sent. -/
def execFlitTx (p : Fin 9) (s : State) : Host.Outcome State Fault Refusal :=
  let s := flush s
  let x := linkOf s p
  .next (if !(s.alive ∧ portUp s p) then s
    else
      match x.resend with
      | some i =>
        match x.replay[i]? with
        | none => sendNull p (setLink p { x with resend := none } s)
        | some r =>
          if r.sends ≥ 8 then sendNull p s
          else
            let t := setLink p { x with
              replay := x.replay.set i { r with sends := r.sends + 1 }
              resend := if i + 1 < x.replay.length then some (i + 1) else none } s
            t.emit (.flit p r.flit)
      | none =>
        if x.replay.length ≥ 512 || s.frozen (aqzlPage p) then sendNull p s
        else
          match chooseVc s p x with
          | some (vc, turn) =>
            match vcFront x vc with
            | some q => sendFlit p vc turn q s
            | none => sendNull p s
          | none =>
            let starved := (List.range 8).any fun vc => (vcFront x vc).isSome && decide (x.inFlight.getD vc 0 ≥ x.peerDivision.getD vc 0)
            sendNull p (if starved then setLink p { x with starvedAt := s.now } s else s))

/-- FLOW (R427, R437): XOFF for VC0 or VC7 is ignored and counted. DEDUCED: log entry 86. DESIGN CHOICE: log entry 87. -/
def execFlow (p : Fin 9) (vc : Fin 8) (xoff : Bool) (s : State) : Host.Outcome State Fault Refusal :=
  .next (if !(s.alive ∧ portUp s p) then s
    else if vc = 0 ∨ vc = 7 then (if xoff then s.countErrors (aqzlPage p) 1 else s)
    else modLink p (fun x => { x with
      xoff := if xoff then (if x.xoff.contains vc.val then x.xoff else x.xoff ++ [vc.val]) else x.xoff.filter (· != vc.val) }) s)

/-- The replay buffer without the flits up to an FSEQ (R434). -/
def dropAcked (fseq : Nat) (x : Link) : Link :=
  let n := (x.replay.takeWhile fun r => seqUpTo r.flit.fseq.toNat fseq).length
  { x with
    replay := x.replay.drop n
    resend := match x.resend with
      | some i => if x.replay.length ≤ n then none else some (i - n)
      | none => none
    sealsSent := x.sealsSent.filter fun m => !seqUpTo m.fseq fseq }

/-- ACK (R434). -/
def execAck (p : Fin 9) (fseq : BitVec 12) (s : State) : Host.Outcome State Fault Refusal :=
  .next (if s.alive ∧ portUp s p then modLink p (dropAcked fseq.toNat) s else s)

/-- NAK (R427, R434): the sender goes back to the flit named, and sends again the seals that it issued after it. -/
def execNak (p : Fin 9) (fseq : BitVec 12) (s : State) : Host.Outcome State Fault Refusal :=
  .next (if s.alive ∧ portUp s p then
      let t := s.bump (aqzlPage p) Rg.aqzlRetriesCount
      let t := modLink p (fun x =>
        let y := dropAcked ((fseq.toNat + 4095) % 4096) x
        { y with resend := if y.replay.isEmpty then none else some 0 }) t
      t.each (linkOf t p).sealsSent fun m u => u.gate p (if m.ret then 4 else 3) (m.tag + 64 * m.dest + 2 ^ 18 * m.fseq)
    else s)

/-- CREDIT (R436): the running count of freed flits. -/
def execCredit (p : Fin 9) (vc : Fin 8) (count : BitVec 10) (s : State) : Host.Outcome State Fault Refusal :=
  .next (if s.alive ∧ portUp s p then
      modLink p (fun x =>
        let n := (count.toNat + 1024 - x.told.getD vc 0) % 1024
        { x with inFlight := x.inFlight.set vc (x.inFlight.getD vc 0 - n), told := x.told.set vc count.toNat
                 creditAt := if n = 0 then x.creditAt else s.now }) s
    else s)

/-- ACK_TIMER (R434): 32 flits or 500 ns without an ACK. -/
def execAckTimer (p : Fin 9) (s : State) : Host.Outcome State Fault Refusal :=
  let x := linkOf s p
  .next (if s.alive ∧ portUp s p ∧ x.rxAny ∧ (x.unacked ≥ 32 ∨ s.now ≥ x.ackedAt + 500) then
      (setLink p { x with unacked := 0, ackedAt := s.now } s).gate p 5 ((x.rxSeq + 4095) % 4096)
    else s)

/-- RETRY_LIMIT (R434): 0x0333 with the FSEQ, and a retrain. -/
def execRetryLimit (p : Fin 9) (s : State) : Host.Outcome State Fault Refusal :=
  .next (match (linkOf s p).replay.find? fun r => decide (r.sends ≥ 8) with
    | none => s
    | some r => if s.alive ∧ portUp s p then startTraining p (s.error (aqzlPage p) 0x0333 0 r.flit.fseq.toNat) else s)

/-- GATE_STATE_RESEND (R427): the state of every quenched partition. This device puts no VC in XOFF, which R437 leaves to the receiver. -/
def execGateStateResend (p : Fin 9) (s : State) : Host.Outcome State Fault Refusal :=
  .next (if s.alive ∧ portUp s p then s.each ((List.range 64).filter (quenched s)) fun k t => t.gate p 2 (k + 64) else s)

/-- TIME_EXCHANGE_TX (R467): kind 0 with the time of sending, and kind 1 with the time at which the partner's latest kind 0 arrived. -/
def execTimeExchangeTx (p : Fin 9) (s : State) : Host.Outcome State Fault Refusal :=
  let x := linkOf s p
  let now := timeFine s.timeBits % 2 ^ 50
  .next (if s.alive ∧ portUp s p then
      let t := (setLink p { x with timeSent := some now } s).gate p 8 (64 * now)
      match x.timeGot with
      | some (_, got) => t.gate p 8 (1 + 64 * got)
      | none => t
    else s)

/-- One exchange of the upstream link (R468): 2 × offset from the four times, and after 64 of them their average, with PHASE_SOURCE 4 to the servo (R489). How the average's
last place is rounded is not stated. -/
def timeOffset (t1 t2 t3 t4 : Nat) (s : State) : State :=
  let twice := signed 50 ((t2 + 2 ^ 50 - t1) % 2 ^ 50) - signed 50 ((t4 + 2 ^ 50 - t3) % 2 ^ 50)
  let sum := s.fabric.offsetSum + twice
  let n := s.fabric.offsetCount + 1
  if n < 64 then { s with fabric := { s.fabric with offsetSum := sum, offsetCount := n } }
  else
    let avg := servoQuot sum 128 (s.free 1)
    let t := { s with fabric := { s.fabric with offsetSum := 0, offsetCount := 0 } }.usedFree
    let t := t.setReg fabrPage Rg.fabrTimeOffsetOffset (int64 avg)
    if s.reg timePage Rg.timeSourceControlPhaseSource = 4 then servo avg t else t

/-- TIME (R467, R468): kind 0 gives t1 with its arrival t2, kind 1 gives t4 for the kind 0 that this end sent at t3. -/
def execTime (p : Fin 9) (kind : BitVec 6) (value localTime : BitVec 50) (s : State) : Host.Outcome State Fault Refusal :=
  let x := linkOf s p
  let upstream := p.val < 8 ∧ !s.flag fabrPage Rg.fabrTimeControlMaster ∧ s.reg fabrPage Rg.fabrTimeControlUpstream = p.val
  .next (if !(s.alive ∧ portUp s p) then s
    else if kind = 0 then setLink p { x with timeGot := some (value.toNat, localTime.toNat), timeHeard := s.now } s
    else if kind = 1 then
      let t := setLink p { x with timeHeard := s.now } s
      match x.timeGot, x.timeSent with
      | some (t1, t2), some t3 => if upstream then timeOffset t1 t2 t3 value.toNat t else t
      | _, _ => t
    else s)

/-- TIME_UPSTREAM_LOSS (R468): nothing from upstream for 10 µs moves it to another port toward the master, or the member enters holdover and
TIME_LOSS sets. -/
def execTimeUpstreamLoss (next : Option (Fin 8)) (s : State) : Host.Outcome State Fault Refusal :=
  let up := s.reg fabrPage Rg.fabrTimeControlUpstream
  let clear := fun (t : State) => { t with fabric := { t.fabric with offsetSum := 0, offsetCount := 0 } }
  .next (if !s.alive ∨ s.flag fabrPage Rg.fabrTimeControlMaster ∨ s.now < (linkOf s up).timeHeard + 10000 then s
    else
      match next with
      | some q =>
        if portUp s q ∧ q.val ≠ up then
          modLink q (fun x => { x with timeHeard := s.now }) ((clear s).setReg fabrPage Rg.fabrTimeControlUpstream q)
        else s
      | none => (enterHoldover (clear s)).raise fabrPage 4)

/-- POWER (R438): the far end's wanted sleep mask with the SEQ at which a sleep takes effect. A wake is carried out by LANE_WAKE. -/
def execPower (p : Fin 9) (mask : BitVec 4) (wake : Bool) (seq : BitVec 10) (s : State) : Host.Outcome State Fault Refusal :=
  .next (if s.alive ∧ portUp s p then
      modLink p (fun x => { x with peerMask := if wake then 0 else mask.toNat, peerSeq := seq.toNat }) s
    else s)

/-- Set a bit of a port's ACTIVE and ASLEEP lanes. -/
def setAsleep (p lane : Nat) (asleep : Bool) (s : State) : State :=
  let g := aqzlPage p
  let a := s.reg g Rg.aqzlLinkStatusActive
  let z := s.reg g Rg.aqzlLinkStatusAsleep
  let off := fun (v : Nat) => if v.testBit lane then v - 2 ^ lane else v
  s.setReg g Rg.aqzlLinkStatusActive (if asleep then off a else a ||| 2 ^ lane)
    |>.setReg g Rg.aqzlLinkStatusAsleep (if asleep then z ||| 2 ^ lane else off z)

/-- The SEQ at which a sleep takes effect (R438): the leader names one, which is open, and the follower takes it from the far end's POWER. -/
def sleepSeq (s : State) (p : Nat) : Nat :=
  if s.flag (aqzlPage p) Rg.aqzlLinkStatusRole then (s.free 10).toNat else (linkOf s p).peerSeq

/-- LANE_SLEEP (R438): lane 0 never sleeps, and a lane sleeps only while both ends' masks include it; this end's goes out in POWER. -/
def execLaneSleep (p : Fin 9) (lane : Fin 4) (s : State) : Host.Outcome State Fault Refusal :=
  let x := linkOf s p
  .next (if s.alive ∧ portUp s p ∧ s.flag (aqzlPage p) Rg.aqzlPowerAllowSleep ∧ lane ≠ 0 ∧ laneActive s p lane ∧ x.peerMask.testBit lane then
      let t := setAsleep p lane true (setLink p { x with sleptAt := tabSet lane.val s.now x.sleptAt } s)
      (t.gate p 9 (t.reg (aqzlPage p) Rg.aqzlLinkStatusAsleep + 64 * sleepSeq s p)).usedFree
    else s)

/-- A lane is asleep. -/
def laneAsleep (s : State) (p lane : Nat) : Bool := (s.reg (aqzlPage p) Rg.aqzlLinkStatusAsleep).testBit lane

/-- LANE_WAKE (R438): this end's POWER, with WAKE, names the lanes that it still wants asleep; a lane whose error ratio is too high after a wake retrains. -/
def execLaneWake (p : Fin 9) (lane : Fin 4) (errors : Bool) (s : State) : Host.Outcome State Fault Refusal :=
  let x := linkOf s p
  .next (if s.alive ∧ portUp s p ∧ laneAsleep s p lane then
      let t := setAsleep p lane false (setLink p { x with sleptAt := tabDel lane.val x.sleptAt } s)
      let t := t.gate p 9 (t.reg (aqzlPage p) Rg.aqzlLinkStatusAsleep + 16)
      if errors then startTraining p t else t
    else s)

/-- LANE_REFRESH (R438): a lane asleep for 100 ms refreshes its canceller, and sleeps on if both masks still include it. -/
def execLaneRefresh (p : Fin 9) (lane : Fin 4) (s : State) : Host.Outcome State Fault Refusal :=
  let x := linkOf s p
  .next (if s.alive ∧ portUp s p ∧ laneAsleep s p lane ∧ s.now ≥ tabGet 0 lane.val x.sleptAt + 100000000 then
      if s.flag (aqzlPage p) Rg.aqzlPowerAllowSleep ∧ x.peerMask.testBit lane then
        setLink p { x with sleptAt := tabSet lane.val s.now x.sleptAt } s
      else setAsleep p lane false (setLink p { x with sleptAt := tabDel lane.val x.sleptAt } s)
    else s)

end Sys2Proof.Machine
end

