-- ==== Sys2Proof/Machine/SelfTest.lean ====
section
/-! DEFINITION. Rake passes (R524 to R527) and SELFTEST: ADMIT (R552) and SOAK (R305). -/

namespace Sys2Proof.Machine

/-- Bytes of all HBM: 20 stacks of 36 GiB (R18). -/
def hbmBytes : Nat := 20 * 36 * 2 ^ 30

/-- Fields of RAKE (R524). -/
def rakeTarget (c : Cmd) : Nat := c.field 0x18 0 3
def rakeUnit (c : Cmd) : Nat := c.field 0x18 8 8
def rakeStart (c : Cmd) : Nat := c.field 0x20 0 64
def rakeLength (c : Cmd) : Nat := c.field 0x28 0 64

/-- A reserved value in RAKE's parameters (R524). -/
def rakeReserved (c : Cmd) : Bool :=
  let t := rakeTarget c
  let u := rakeUnit c
  !paramsClean c [(0x18, 0, 3), (0x18, 8, 8), (0x20, 0, 64), (0x28, 0, 64)] || decide (t > 3) || cmdLen c != 64 ||
    (if t < 2 then u != 0 || rakeStart c % 64 != 0 || rakeLength c % 64 != 0 else decide (u ≥ if t = 2 then 160 else 64))

/-- A partition range is wholly mapped and holds no TIER 3 page (R524). -/
def rakeMapped (s : State) (k a n : Nat) : Bool :=
  n == 0 || (decide (a + n ≤ 2 ^ 46) && (List.range ((a + n - 1) / pageBytes - a / pageBytes + 1)).all fun i =>
    match tabFind (pageKey k (a / pageBytes + i)) s.tier.pages with
    | some e => e.tier != 3
    | none => false)

/-- A core holds a RUNNING or SUSPENDING context, or is lent; a signal core operates (R524). -/
def rakeBusy (s : State) (t u : Nat) : Bool :=
  if t = 2 then
    (s.core u).lentTo.isSome || (match (s.core u).ctx with
      | some r => (s.ctx r.part r.ctx).state == 2 || (s.ctx r.part r.ctx).state == 3
      | none => false)
  else if t = 3 then s.flag (sigcPage u) Rg.pageControlEnable
  else false

/-- Bytes that a rake counts (R526): a core is its scratchpad and its instruction memory, a signal core likewise. -/
def rakeTotal (c : Cmd) : Nat :=
  if rakeTarget c < 2 then rakeLength c else if rakeTarget c = 2 then 2 ^ 22 + 2 ^ 18 else 2 ^ 19 + 2 ^ 16

/-- RAKE (R524). -/
def execRake (q : CmdRef) (s : State) : Host.Outcome State Fault Refusal :=
  .next (startCmd q [0x42] false (fun c s =>
    let t := rakeTarget c
    if t = 0 ∧ (c.sq == .admin && tdiLocked s (functionOf s c.part)) = true then complete c 0x0501 0 s
    else if t = 0 ∧ zeroizing s c.part = true then complete c 0x0502 0 s
    else if rakeReserved c then complete c 0x0102 0 s
    else if t = 0 ∧ !rakeMapped s c.part (rakeStart c) (rakeLength c) then complete c 0x0206 0 s
    else if t = 1 ∧ rakeStart c + rakeLength c > hbmBytes then complete c 0x0206 0 s
    else if rakeBusy s t (rakeUnit c) then complete c 0x0205 0 s
    else startLong c (rakeTotal c) [] s t (rakeUnit c) (if t < 2 then rakeStart c else 0)) s)

/-- Where a 64-byte line of a rake lies, by its offset in what is raked. -/
def rakePlace (s : State) (l : LongOp) (off : Nat) : Place :=
  let a := l.start + off
  match l.kind with
  | 0 =>
    match s.pageOf l.cmd.part a with
    | none => .unreachable 0
    | some e => if e.compressed then bulkPlace s (e.frame * pageBytes + a % pageBytes) else placeOf s e a
  | 1 => .here .hbm a
  | 2 => if off < 2 ^ 22 then .here .spad (spadKey l.unit off) else .here .imem (imemKey l.unit (off - 2 ^ 22))
  | _ => if off < 2 ^ 19 then .here .dmem (dmemKey l.unit off) else .here .simem (simemKey l.unit (off - 2 ^ 19))

/-- The address that a summary gives for an offset: of the memory that holds it (R526). DEDUCED: log entry 80. -/
def rakeAddr (l : LongOp) (off : Nat) : Nat :=
  match l.kind with
  | 2 => if off < 2 ^ 22 then off else off - 2 ^ 22
  | 3 => if off < 2 ^ 19 then off else off - 2 ^ 19
  | _ => l.start + off

/-- A line that a running FILL has still to write (R525). -/
def underFill (s : State) (l : LongOp) (off : Nat) : Bool :=
  s.host.longs.any fun f =>
    cmdOp f.cmd == 0x14 && (match l.kind with
      | 0 => f.kind == 0 && f.cmd.part == l.cmd.part && decide (f.start + f.done ≤ l.start + off) && decide (l.start + off < f.start + f.total)
      | 1 => f.kind == 0 && s.tier.pages.any fun e =>
          e.2.tier == 0 && e.1 / 2 ^ 25 == f.cmd.part && e.2.frame == (l.start + off) / pageBytes &&
            (let a := e.1 % 2 ^ 25 * pageBytes + (l.start + off) % pageBytes
             decide (f.start + f.done ≤ a) && decide (a < f.start + f.total))
      | 2 => f.kind == 1 && f.unit == l.unit && decide (f.done ≤ off) && decide (off < 2 ^ 22)
      | _ => f.kind == 2 && f.unit == l.unit && decide (f.done ≤ off) && decide (off < 2 ^ 19))

/-- A rake counts a codeword at an address: corrected, or uncorrectable. -/
def countWord (addr : Nat) (fixed bad : Bool) (l : LongOp) : LongOp :=
  if !fixed ∧ !bad then l
  else { l with
    corrected := l.corrected + bit (fixed && !bad), bad := l.bad + bit bad
    first := if l.first.isSome then l.first else some (addr, bad), last := some (addr, bad) }

/-- The codewords of a memory's range are read by a rake, which corrects and counts them under R521 and R522 (R525). -/
def rakeWords (reg : Region) (key n addr : Nat) (fill : Bool) (r : State × LongOp) : State × LongOp :=
  let m := r.1.memory reg
  let ws := wordsOf reg key n
  (r.1.readWords reg ws, ws.foldl (fun l w =>
    countWord (addr + (w * cwBytes reg - key)) (tabGet 0 w m.flips != 0 && !cwBad reg m w) (cwBad reg m w || fill) l) r.2)

/-- One line of a rake: every codeword is read, a data-memory line's tag among them (R525). DEDUCED: log entry 80. -/
def rakeLine (r : State × LongOp) (off : Nat) : State × LongOp :=
  let s := r.1
  let l := r.2
  let fill := underFill s l off
  match rakePlace s l off with
  | .here .dmem key => rakeWords .tag (tagKey l.unit off) 1 off fill (rakeWords .dmem key 64 off fill r)
  | .here reg key => rakeWords reg key 64 (rakeAddr l off) fill r
  | .unreachable p => ((s.addReg raspPage Rg.raspUncorrectedCount 1).countErrors (bulkPage p) 1, countWord (rakeAddr l off) false true l)
  | _ => (s, l)

/-- The test of a core's tiles and banks (R525): how many cells fail, and where the first and last do, is a matter of the device. It leaves
tiles and banks empty. DEDUCED: log entry 80. -/
def rakeTiles (l : LongOp) (s : State) : State × LongOp :=
  let n := (s.free 8).toNat
  let place := fun i => 0x80000000 + (s.free 2 i).toNat * 0x1000 + (s.free 7 i).toNat
  let a := min (place 1) (place 2)
  let z := max (place 1) (place 2)
  let m := if n = 0 then l
    else { l with
      bad := l.bad + n, first := if l.first.isSome then l.first else some (a, true)
      last := some (if n = 1 then a else z, true) }
  ((s.modCore l.unit fun x => { x with arrays := [] }).usedFree 3, m)

/-- The summary of a rake (R526). -/
def rakeSummary (l : LongOp) (now : Nat) : List Byte :=
  let at_ := fun (e : Option (Nat × Bool)) => (e.map Prod.fst).getD 0
  let ue := fun (e : Option (Nat × Bool)) => bit ((e.map Prod.snd).getD false)
  toBytes 8 l.corrected ++ toBytes 8 l.bad ++ toBytes 8 (at_ l.first) ++ toBytes 8 (at_ l.last) ++ toBytes 8 l.done ++
    toBytes 8 (ue l.first + 2 * ue l.last) ++ toBytes 8 l.startedAt ++ toBytes 8 now

/-- One chunk of a rake (R525, R526): the last one, or the one at which it is cancelled, writes the summary. -/
def rakeChunk (l : LongOp) (bytes : Nat) (s : State) : State :=
  let n := min (bytes / 64 * 64) (l.total - l.done)
  let r := ((List.range (n / 64)).map fun i => l.done + 64 * i).foldl rakeLine (s, l)
  let ends := decide (l.done + n ≥ l.total)
  let r := if ends && l.kind == 2 then rakeTiles r.2 r.1 else r
  let t := if ends || l.cancelled then
    writeData l.cmd (rakeSummary { r.2 with done := l.done + n } r.1.now) r.1 else r.1
  chunkDone r.2 n t

/-- SELFTEST CLASS (R552). -/
def selftestClass (c : Cmd) : Nat := c.field 0x18 0 4

/-- SELFTEST with CLASS 0, ADMIT (R552). DEDUCED: log entry 80. -/
def execSelftestAdmit (q : CmdRef) (env : SelftestEnv) (s : State) : Host.Outcome State Fault Refusal :=
  .next (startCmd q [0x41] false (fun c s =>
    if selftestClass c = 1 then s
    else if selftestClass c ≠ 0 ∨ !paramsClean c [(0x18, 0, 4)] then complete c 0x0102 0 s
    else if s.anyPart then complete c 0x0604 0 s
    else
      let fails := (env.failedArrays.flatMap fun e => [BitVec.ofNat 8 e.1, BitVec.ofNat 8 e.2])
      startLong c env.total fails s 0 0 (env.failedArrays.length + env.failedOthers)) s)

/-- A partition holds cores (R305). -/
def coresHeldByParts (s : State) : Bool := (List.range 64).any fun k => s.partOn k && !((ownCores s k).isEmpty && (ownSigcs s k).isEmpty)

/-- SELFTEST with CLASS 1, SOAK (R305): 0 seconds stand for the 300 of a command that sets no duration. DEDUCED: log entry 80. -/
def execSelftestSoak (q : CmdRef) (seconds : Nat) (record : SoakRecord) (s : State) : Host.Outcome State Fault Refusal :=
  .next (startCmd q [0x41] false (fun c s =>
    let n := if seconds = 0 then 300 else seconds
    if selftestClass c ≠ 1 then s
    else if n < 120 ∨ n > 3600 then complete c 0x0102 0 s
    else if coresHeldByParts s then complete c 0x0407 0 s
    else
      let r := { record with serial := s.fuses.serial, steppingB0 := true, signature := 0 }
      let b := Config.soakBytes { r with signature := Config.idkSign s.fuses.uds 1 (Config.soakBytes r) }
      startLong c 1 b s 1 n) s)

/-- A memory of n bytes that holds 0 with valid check bits (R552). DEDUCED: log entry 80. -/
def zeroMemory (n : Nat) : Memory := ⟨(List.range n).map fun i => (i, (0 : Byte)), []⟩

/-- Every on-die memory and all of HBM hold 0, the line tags of the signal cores among them (R552). -/
def zeroMemories (s : State) : State :=
  { s with
    mem := { s.mem with
      spad := zeroMemory (160 * 2 ^ 22), imem := zeroMemory (160 * 2 ^ 18), dmem := zeroMemory (64 * 2 ^ 19)
      simem := zeroMemory (64 * 2 ^ 16), tags := zeroMemory (64 * 2 ^ 13), buf := zeroMemory (4 * 2 ^ 27), hbm := zeroMemory hbmBytes }
    sems := []
    cores := s.cores.map fun (e : Nat × Core) => (e.1, { e.2 with arrays := [] }) }

/-- The probes of SELFTEST ADMIT: every array of every core, with those that fail as operands (R122, R552). -/
def probeAll (fails : List (Nat × Nat)) (s : State) : State :=
  s.each (List.range 160) fun c t =>
    let mask := (List.range 4).foldl (fun m a => if fails.contains (c, a) then m ||| 2 ^ a else m) 0
    let u := (probeDone c mask (t.free 32).toNat (startProbe c 15 t)).usedFree
    if u.reg (corePage c) Rg.coreArrayStateArrayFenced = 15 then fenceCore c u else u

/-- Pairs of bytes as numbers. -/
def bytePairs : List Byte → List (Nat × Nat)
  | a :: b :: l => (a.toNat, b.toNat) :: bytePairs l
  | _ => []

/-- A long operation ends with a status and a RESULT of its own. -/
def endLongWith (l : LongOp) (status : Nat) (result : BitVec 128) (s : State) : State :=
  complete l.cmd status result { s with host := { s.host with longs := s.host.longs.filter fun m => m.cmd != l.cmd } }

/-- One chunk of a SELFTEST: so many tests complete. With the last of an ADMIT the memories hold 0, failed arrays are fenced and the report,
whose layout is not stated, is written; a soak ends with its record (R305, R552). DEDUCED: log entry 80. -/
def selftestChunk (l : LongOp) (tests : Nat) (s : State) : State :=
  if l.kind = 1 then
    if s.now < l.startedAt + l.unit * 1000000000 then chunkDone l 0 s
    else if l.cancelled then chunkDone l 0 s
    else chunkDone l 1 (writeData l.cmd l.data s)
  else
    let n := min tests (l.total - l.done)
    if l.done + n < l.total ∨ l.cancelled then chunkDone l n s
    else
      let t := zeroMemories (probeAll (bytePairs l.data) s)
      let report := (List.range 4096).map fun i => t.free 8 i
      let t := (writeData l.cmd report t).usedFree 4096
      let m := { l with done := l.total, seq := (l.seq + 1) % 2 ^ 32 }
      endLongWith m 0 (BitVec.ofNat 128 (l.total % 2 ^ 64 + 2 ^ 64 * l.start)) (writeProgress m t)

end Sys2Proof.Machine
end

