-- ==== Sys2Proof/Machine/Zeroize.lean ====
section
/-! DEFINITION. ZEROIZE and the teardown of partitions (R577 to R580), and the TDIs that leave their locked states through it (R413). -/

namespace Sys2Proof.Machine

/-- Partitions that a ZEROIZE clears: the one of its PARTITION field, or with SCOPE 1 all. -/
def zeroScope (c : Cmd) : Bool := c.field 0x18 0 1 == 1
def zeroParts (c : Cmd) : List Nat := if zeroScope c then List.range 64 else [c.part]

/-- Subscriber records of a partition become invalid and their queued frames are discarded (R577 step 4). -/
def dropSubscribers (k : Nat) (s : State) : State :=
  let subs := (s.eth.nodes.filter fun (e : Nat × Node) => decide (e.1 < 65536) && subValid e.2.words && subPart e.2.words == k).map (·.1)
  s.each subs fun x t =>
    let n := t.node (nodeKey levelSub x)
    let t := t.setNode (nodeKey levelSub x) { n with words := n.words.set 5 (n.words.getD 5 0 &&& 0x7FFFFFFF) }
    t.each (List.range 8) fun c t => setQueue (nodeKey levelClass (8 * x + c)) [] t

/-- What stops when the ZEROIZE of a partition starts (R577 steps 1, 2 and 4): its queues, contexts, streams, sluice lists, moves and
claims; its cells stop at their next slot boundary. -/
def stopPart (k : Nat) (s : State) : State :=
  let q := queuesOf s fun p => p == some k
  let t := deleteQueues q.1 q.2 s
  let t := t.each (ctxsOf t k) fun n u => endContext k n u
  let t := t.each ((t.serve.streams.filter fun (e : Nat × StreamRun) => e.2.part == k).map (·.1)) freeStream
  let cores := ((t.serve.groups.filter fun (e : Nat × ServeGroup) => e.1 / 8 == k).map fun e => groupCores e.2 false ++ groupCores e.2 true).flatten
  let t := dropSluices (fun _ r => r.part == k) (leaveStep cores t)
  let t := { t with
    serve := { t.serve with groups := t.serve.groups.filter fun (e : Nat × ServeGroup) => e.1 / 8 != k }
    tier := { t.tier with moves := tabDel k t.tier.moves } }
  let x := t.radioOf k
  let t := if x.cells.isEmpty && x.claims.isEmpty then t
    else t.setRadio k { x with claims := [], cells := x.cells.map fun (e : Nat × Cell) => (e.1, { e.2 with flr := true }) }
  dropSubscribers k t

/-- What a ZEROIZE waits for before it clears a partition (R577 steps 2 and 3): its cells have stopped, its cores are free of their contexts,
and no core is lent by it or to it. -/
def stopped (s : State) (k : Nat) : Bool :=
  (s.radioOf k).cells.isEmpty &&
    ((List.range 160).all fun c =>
      let x := s.core c
      (if maskBit s (partPage k) Rg.partCoreMaskCores c then x.ctx.isNone && x.lentTo.isNone && x.surgeFor.isNone else true) &&
        x.lentTo != some k && (x.surgeFor.map (·.1)) != some k)

/-- The pages that a ZEROIZE of SCOPE 0 clears, in ascending order. -/
def zeroPages (s : State) (c : Cmd) : Table PageEntry := if zeroScope c then [] else partPages s c.part

/-- Bytes of a compute core's and of a signal core's memories. -/
def coreBytes : Nat := 2 ^ 22 + 2 ^ 18
def sigcBytes : Nat := 2 ^ 19 + 2 ^ 16

/-- The parts of HBM that hold a partition's tables, by address / 32 KiB (R239, R279, R317). -/
def zeroTables (s : State) (k : Nat) : List Nat := (s.tier.tables.filter fun (e : Nat × Nat) => e.1 / 65536 == k).map (·.2)

/-- Bytes that a ZEROIZE clears: pages and the memories of cores, or with SCOPE 1 every memory. DEDUCED: log entry 105. -/
def zeroTotal (s : State) (c : Cmd) : Nat :=
  if zeroScope c then
    (((List.range 3).map fun t => (tierFrames s t).foldl (fun n r => n + r.2) 0).foldl (· + ·) 0) * pageBytes + 160 * coreBytes + 64 * sigcBytes
  else (zeroPages s c).length * pageBytes + (zeroTables s c.part).length * 32768 + (ownCores s c.part).length * coreBytes + (ownSigcs s c.part).length * sigcBytes

/-- Write zeros with valid check bits. -/
def zeroMem (r : Region) (key n : Nat) (s : State) : State := s.store r key (List.replicate n 0)

/-- Clear one 4 KiB unit of a page (R578). DEDUCED: log entry 105. -/
def zeroUnit (e : PageEntry) (u : Nat) (s : State) : State :=
  match placeOf s { e with compressed := false } (u * 4096) with
  | .here r key => zeroMem r key 4096 s
  | _ => s

/-- Clear the units of a partition's pages that the next bytes of a ZEROIZE cover. -/
def zeroSpan (s : State) (c : Cmd) (done n : Nat) : State :=
  let ps := zeroPages s c
  s.each ((List.range ((done + n) / 4096 - done / 4096)).map (· + done / 4096)) fun i t =>
    match ps[i / 512]? with
    | some e => zeroUnit e.2 (i % 512) t
    | none => t

/-- Clear a compute core: memories, accumulator banks, tiles, registers and stream slots. -/
def zeroCore (c : Nat) (s : State) : State :=
  clearRegs c ((zeroMem .imem (imemKey c 0) (2 ^ 18) (zeroMem .spad (spadKey c 0) (2 ^ 22) s)).setCore c {})

/-- Clear a signal core. -/
def zeroSigc (k : Nat) (s : State) : State :=
  ((zeroMem .simem (simemKey k 0) (2 ^ 16) (zeroMem .tag (tagKey k 0) (2 ^ 13) (zeroMem .dmem (dmemKey k 0) (2 ^ 19) s))).setSigc k {}).setReg (sigcPage k) Rg.pageControlEnable 0
    |>.setReg (sigcPage k) Rg.pageStatusEnabled 0

/-- Entries of a table but those of a partition, by what gives an entry's partition. -/
def without {α : Type} (k : Nat) (f : Nat → Nat) (t : Table α) : Table α := t.filter fun e => f e.1 != k

/-- Everything that a partition holds beside its pages is cleared, and its registers return to their reset values (R577 steps 5 and 6,
R578). DEDUCED: log entry 105. -/
def clearPart (k : Nat) (s : State) : State :=
  let inSems := fun n => inRange s k Rg.partSemBaseBase Rg.partSemCountCount n
  let inKv := fun n => inRange s k Rg.partKvBaseBase Rg.partKvCountCount n
  let bits := pageBase (partPage k) * 8
  let t := (s.each (ownCores s k) zeroCore).each (ownSigcs s k) zeroSigc
  let t := t.each (zeroTables s k) fun u t => zeroMem .hbm (32768 * u) 32768 t
  let t := { t with
    sems := t.sems.filter fun (e : Nat × Sem) => !inSems e.1
    ctxs := without k (· / 256) t.ctxs
    parts := tabDel k t.parts
    records := tabDel k t.records
    radio := { t.radio with parts := tabDel k t.radio.parts }
    serve := { t.serve with
      groups := without k (· / 8) t.serve.groups
      kvs := t.serve.kvs.filter fun (e : Nat × KvEntry) => !inKv e.1
      pools := tabDel k t.serve.pools }
    tier := { t.tier with
      pages := without k (· / 2 ^ 25) t.tier.pages
      objects := without k (· / 65536) t.tier.objects
      moves := tabDel k t.tier.moves
      tables := without k (· / 65536) t.tier.tables
      cache := t.tier.cache.filter fun (e : Nat × CacheLine) => e.2.part != k
      units := without k (· / 2 ^ 34) t.tier.units }
    fabric := { t.fabric with
      dir := without k (· / 2 ^ 40) t.fabric.dir
      reps := without k (· / 2 ^ 34) t.fabric.reps
      gathers := without k (· / 2 ^ 64) t.fabric.gathers }
    coding := { t.coding with
      queues := t.coding.queues.map fun (q : Nat × List CodingItem) => (q.1, q.2.filter fun e => e.ctx.part != k)
      running := t.coding.running.filter fun (r : Nat × CodingItem × Nat) => r.2.1.ctx.part != k }
    regs := t.regs.filter fun (e : Nat × Nat) => !(decide (bits ≤ e.1) && decide (e.1 < bits + 0x8000)) }
  let t := t.each ((List.range 24) ++ (List.range 24).map (· + 32) ++ (List.range 8).map (· + 64)) fun key t =>
    let f := ownerFields key
    if t.flag codePage f.2.1 f.2.2 ∧ t.reg codePage f.1 f.2.2 = k then
      (t.setReg codePage f.1 0 f.2.2).setReg codePage f.2.1 0 f.2.2
    else t
  t.each (List.range 4) fun m t => t.setReg (msidPage m) Rg.msidWayMaskWays 0 k

/-- All device memory is cleared, and the migration key slots are emptied (R578, SCOPE 1). -/
def clearDevice (s : State) : State :=
  let t := (s.each (List.range 160) zeroCore).each (List.range 64) zeroSigc
  let t := t.each [0, 1, 2] fun tier t =>
    t.each (tierFrames t tier) fun r t => t.each ((List.range r.2).map (· + r.1)) fun f t =>
      t.each (List.range 512) fun u t =>
        zeroUnit { writable := true, tier := tier, pinned := false, compressed := false, frame := f, object := 0, index := 0 } u t
  { t with mgmt := { t.mgmt with keySlots := [] } }

/-- ACTIVE and PARTITION of ZEROIZE_STATUS as the running operations have them (R586). DEDUCED: log entry 105. -/
def showZeroize (s : State) : State :=
  let l := s.host.longs.filter fun l => cmdOp l.cmd == 0x43
  let t := s.setReg mgmtPage Rg.mgmtZeroizeStatusActive (bit (!l.isEmpty))
  match l.find? fun m => !zeroScope m.cmd with
  | some m => t.setReg mgmtPage Rg.mgmtZeroizeStatusPartition m.cmd.part
  | none => t.setReg mgmtPage Rg.mgmtZeroizeStatusPartition 0

/-- A ZEROIZE starts (R577, R579). DEDUCED: log entry 105. -/
def startZeroize (c : Cmd) (s : State) : State :=
  let t := startLong c (zeroTotal s c) [] s
  showZeroize ((t.each (zeroParts c) stopPart).setReg mgmtPage Rg.mgmtZeroizeStatusPending 1)

/-- ZEROIZE of either scope: on the PF admin SQ alone, which its dispatch has checked; one of a partition that a ZEROIZE clears completes
with ZEROIZE_ACTIVE. -/
def zeroizeCmd (q : CmdRef) (scope : Bool) (s : State) : State :=
  startCmd q [0x43] true (fun c s =>
    if zeroScope c ≠ scope then s
    else if cmdLen c ≠ 0 ∨ !paramsClean c [(0x18, 0, 1)] then complete c 0x0102 0 s
    else if (zeroParts c).any (zeroizing s) then complete c 0x0502 0 s
    else startZeroize c s) s

/-- ZEROIZE_PARTITION (R577). -/
def execZeroizePartition (q : CmdRef) (s : State) : Host.Outcome State Fault Refusal := .next (zeroizeCmd q false s)

/-- ZEROIZE_DEVICE (R578). -/
def execZeroizeDevice (q : CmdRef) (s : State) : Host.Outcome State Fault Refusal := .next (zeroizeCmd q true s)

/-- A TDI's state. -/
def setTdi (fn : Nat) (x : Tdi) (s : State) : State := { s with host := { s.host with tdis := tabSet fn x s.host.tdis } }

/-- A ZEROIZE that the device starts itself is not complete for a TDI. -/
def tdiClearing (s : State) (fn : Nat) : Bool :=
  s.host.longs.any fun l => match l.cmd.forTdi with
    | some (f, _) => f == fn
    | none => false

/-- A ZEROIZE is complete (R577, R579, R580): PENDING clears unless it has stood since a reset, which only SCOPE 1 ends; a TDI whose last
one it is moves, and its response is sent. DEDUCED: log entry 105. -/
def endZeroize (l : LongOp) (s : State) : State :=
  let all := zeroScope l.cmd
  let t := endLong { l with done := l.total } 0 s
  let t := if all then { t with mgmt := { t.mgmt with stale := false } } else t
  let t := showZeroize t
  let more := t.host.longs.any fun m => cmdOp m.cmd == 0x43
  let t := t.setReg mgmtPage Rg.mgmtZeroizeStatusPending (bit (t.mgmt.stale || more))
  match l.cmd.forTdi with
  | some (fn, err) => if tdiClearing t fn then t else (setTdi fn (if err then .error else .unlocked) t).emit (.security fn true)
  | none => t

/-- A chunk of a ZEROIZE: clearing begins when what it waits for has stopped. -/
def zeroChunk (l : LongOp) (bytes : Nat) (s : State) : State :=
  let ks := zeroParts l.cmd
  if !ks.all (stopped s) then s
  else
    let n := min bytes (l.total - l.done)
    if l.done + n < l.total then chunkDone l n (zeroSpan s l.cmd l.done n)
    else
      let t := (zeroSpan s l.cmd l.done n).each ks clearPart
      endZeroize l (if zeroScope l.cmd then clearDevice t else t)

/-- The partitions of a function (R355). -/
def partsOfFn (s : State) (fn : Nat) : List Nat := (List.range 64).filter fun k => functionOf s k == fn && s.partOn k

/-- A TDI leaves CONFIG_LOCKED or RUN (R580): the device starts a ZEROIZE of SCOPE 0 for each of its partitions; the TDI moves and
the response is sent when they are complete, at once where it has none. -/
def leaveLocked (fn : Nat) (toError : Bool) (s : State) : State :=
  match partsOfFn s fn with
  | [] => (setTdi fn (if toError then .error else .unlocked) s).emit (.security fn true)
  | ks =>
    s.each ks fun k t =>
      startZeroize
        { sq := .admin, cq := .admin, id := 0, part := k, entry := BitVec.ofNat 512 (0x43 + k * 2 ^ 32), sqHead := 0
          arrival := t.now, started := true, forTdi := some (fn, toError) } t

/-- TDISP_REQUEST (R413, R580): only a virtual function is a TDI. DEDUCED: log entry 103. -/
def execTdispRequest (fn : Fin 256) (msg : TdispMsg) (s : State) : Host.Outcome State Fault Refusal :=
  let f := fn.val
  let st := (tabFind f s.host.tdis).getD .unlocked
  .next (if !s.firmware || f == 0 || tdiClearing s f then s
    else
      match msg, st with
      | .lock, .unlocked => (setTdi f .locked s).emit (.security f true)
      | .start, .locked => (setTdi f .run s).emit (.security f true)
      | .stop, .unlocked | .stop, .error => (setTdi f .unlocked s).emit (.security f true)
      | .stop, .locked | .stop, .run => leaveLocked f false s
      | .error, .locked | .error, .run => leaveLocked f true s
      | .error, _ => s
      | _, _ => s.emit (.security f false))

end Sys2Proof.Machine
end

