-- ==== Sys2Proof/Machine/LongOps.lean ====
section
/-! DEFINITION. LONG_OP_CHUNK (R405 to R407): the next chunk of a running long operation ends. -/

namespace Sys2Proof.Machine

/-- The running long operation that a partition, an SQ key and a CMD_ID name. -/
def runningLong (s : State) (part sq : Nat) (id : BitVec 16) : Option LongOp :=
  s.host.longs.find? fun l => l.cmd.part == part && sqKey l.cmd.sq == sq && l.cmd.id == id

/-- One chunk, by opcode. -/
def longChunk (l : LongOp) (bytes : Nat) (s : State) : State :=
  match cmdOp l.cmd with
  | 0x13 => if l.kind = 3 then importChunk l bytes s else loadChunk l bytes s
  | 0x14 => fillChunk l bytes s
  | 0x26 => reshardChunk l bytes s
  | 0x40 => exportChunk l bytes s
  | 0x41 => selftestChunk l bytes s
  | 0x42 => rakeChunk l bytes s
  | 0x43 => zeroChunk l bytes s
  | _ => s

/-- LONG_OP_CHUNK: sq is the number of its SQ, 1,048,576 for the PF admin SQ. A thermal hold or the loss of the clock stops it (R37, R585). -/
def execLongOpChunk (part : Fin 64) (sq : Nat) (cmd : BitVec 16) (bytes : Nat) (s : State) : Host.Outcome State Fault Refusal :=
  .next (match runningLong s part.val sq cmd with
    | some l => if s.working then longChunk l bytes s else s
    | none => s)

end Sys2Proof.Machine
end

