-- ==== Sys2Proof/Machine/Words.lean ====
section
/-! DEFINITION. The 32-bit registers of a page as their fields give them. -/

namespace Sys2Proof.Machine

/-- The 32-bit register at a page offset as its fields hold it (R15: an offset that no register occupies reads 0). -/
def rawWord (s : State) (p : Page) (off : Nat) : Nat :=
  (fieldsOf p.kind).foldl (fun v f =>
    match fieldIndexAt f off with
    | some i => v + fieldPart f off i (s.reg p f i)
    | none => v) 0

/-- The registers of a page from an offset on, n of them, as bytes. -/
def rawBytes (s : State) (p : Page) (off n : Nat) : List Byte :=
  ((List.range n).map fun i => toBytes 4 (rawWord s p (off + 4 * i))).flatten

end Sys2Proof.Machine
end

