-- ==== Sys2Proof/Machine/Mgmt.lean ====
section
/-! DEFINITION. The Nymav controller (R556 to R576): its boot chain, fuses, telemetry, sideband protocols and attestation; the power limiter
and the thermal policy (R581 to R585, R606). -/

namespace Sys2Proof.Machine

/-! ### Boot -/

/-- A little-endian field of an image. -/
def imgField (b : List Byte) (off n : Nat) : Nat := leNat ((b.drop off).take n)

/-- Bytes of an image that its layout reserves (R562). -/
def imgReserved (b : List Byte) : List Byte :=
  (b.drop 0x18).take 40 ++ (b.drop 0x79).take 7 ++ (b.drop 0xF2).take 14 ++ (b.drop 0x139).take 7 ++ (b.drop 0x1B2).take 78

/-- The signed digest D of an image: bytes 0x000 to 0x03F and the payload (R562). -/
def imgDigest (b : List Byte) : BitVec 512 := Config.shake256 (b.take 0x40 ++ (b.drop 0x200).take (imgField b 0xC 4))

/-- Steps 1 to 5 of R563 on an image: the code of the first that fails. DEDUCED: log entry 101. -/
def imageFails (fuses : Fuses) (b : List Byte) : Option Nat :=
  let len := imgField b 0xC 4
  let signed := fun key sig owner hash =>
    Config.shake256 ((b.drop key).take 57) == hash && Config.edVerifies ((b.drop key).take 57) owner (imgDigest b) ((b.drop sig).take 114)
  if imgField b 0 4 ≠ 0x4E594D56 ∨ imgField b 4 4 ≠ 1 ∨ len % 64 ≠ 0 ∨ len > 1835008 ∨ b.length < 0x200 + len ∨
      (imgReserved b).any (· != 0) then some 0x0801
  else if !signed 0x40 0x80 false fuses.rootHash then some 0x0803
  else if fuses.ownerHash ≠ 0 ∧ !signed 0x100 0x140 true fuses.ownerHash then some 0x0804
  else if imgField b 8 4 < fuses.svn then some 0x0802
  else none

/-- STATE of BOOT_STATUS. -/
def bootState (s : State) : Nat := s.reg mgmtPage Rg.mgmtBootStatusState

/-- The firmware of a verified image runs (R563, R565). DEDUCED: log entry 101. -/
def runImage (b : List Byte) (persist : Bool) (s : State) : State :=
  let t := { s with mgmt := { s.mgmt with sram := b, booting := none, recovered := [], restartAt := none } }
  let t := t.setReg mgmtPage Rg.mgmtBootStatusState 2 |>.setReg mgmtPage Rg.mgmtBootStatusImageSvn (imgField b 8 4)
    |>.setReg mgmtPage Rg.mgmtFwBuildBuild (imgField b 0x10 8) |>.setReg mgmtPage Rg.mgmtRecoveryControlBusy 0
  (if persist then t.emit (.flashWrite b) else t).raise mgmtPage 1

/-- A boot or recovery has failed: the controller awaits recovery (R563, R565). -/
def awaitRecovery (code : Nat) (s : State) : State :=
  let t := { s with mgmt := { s.mgmt with sram := [], booting := none, recovered := [] } }
  (t.setReg mgmtPage Rg.mgmtBootCodeCode code |>.setReg mgmtPage Rg.mgmtBootStatusState 3
    |>.setReg mgmtPage Rg.mgmtBootStatusImageSvn 0 |>.setReg mgmtPage Rg.mgmtFwBuildBuild 0
    |>.setReg mgmtPage Rg.mgmtRecoveryControlBusy 0).raise mgmtPage 2

/-- BOOT_START (R563, R593): step 6 of bring-up releases the controller. DEDUCED: log entry 101. -/
def execBootStart (s : State) : Host.Outcome State Fault Refusal :=
  .next (if s.alive ∧ bootState s = 0 ∧ s.mgmt.booting = none ∧ s.reg rsetPage Rg.rsetBringupStep ≥ 4 then
      { s with mgmt := { s.mgmt with booting := some .cold } }.setReg mgmtPage Rg.mgmtBootStatusState 1
    else s)

/-- BOOT_DONE (R563, R565, R566, R569): the operand is what the boot ROM read from the flash; a recovery verifies what it read from the
host, a watchdog restart the image in SRAM before it. DEDUCED: log entry 101. -/
def execBootDone (image : ImageData) (s : State) : Host.Outcome State Fault Refusal :=
  let flash := fun s : State => match imageFails s.fuses image.bytes with
    | none => runImage image.bytes false s
    | some c => awaitRecovery c s
  .next (if !s.alive then s
    else
      match s.mgmt.booting with
      | none => s
      | some .cold => flash s
      | some .activate => flash s
      | some .restart => if (imageFails s.fuses s.mgmt.sram).isNone then runImage s.mgmt.sram false s else flash s
      | some (.recovery persist) =>
        match imageFails s.fuses s.mgmt.recovered with
        | none => runImage s.mgmt.recovered persist s
        | some c => awaitRecovery c s)

/-- The firmware stops: what it holds for its requesters is gone. -/
def stopFirmware (kind : BootKind) (s : State) : State :=
  { s with mgmt := { s.mgmt with
      booting := some kind, restartAt := some s.now, events := [], sessions := [], spdm := [], chunks := [], large := [], updated := false } }.setReg
    mgmtPage Rg.mgmtBootStatusState 4

/-- WATCHDOG_EXPIRY (R554, R569). DEDUCED: log entry 101. -/
def execWatchdogExpiry (s : State) : Host.Outcome State Fault Refusal :=
  .next (if s.firmware then
      (((stopFirmware .restart s).bump mgmtPage Rg.mgmtWatchdogCountCount).error mgmtPage 0x0807 0 0).raise mgmtPage 6
    else s)

/-- CONTROLLER_NOT_SERVING (R541, R554): not serving 1 s after the restart. -/
def execControllerNotServing (s : State) : Host.Outcome State Fault Refusal :=
  .next (match s.mgmt.restartAt with
    | some t => if s.alive ∧ bootState s ≠ 2 ∧ s.now ≥ t + 1000000000 ∧ !s.twin.failSent then sendFail s else s
    | none => s)

/-- RECOVERY_GO (R565, R569): a write of RECOVERY_CONTROL; during a restart it is ignored. DEDUCED: log entry 101. -/
def execRecoveryGo (who : Requester) (value : BitVec 32) (image : HostData) (s : State) : Host.Outcome State Fault Refusal :=
  .next (writeAccess who mgmtPage 0x05C (fun s =>
    if bootState s = 4 then s
    else
      let t := s.setReg mgmtPage Rg.mgmtRecoveryControlPersist (bit (value.getLsbD 1))
      if !value.getLsbD 0 then t
      else if bootState s ≠ 3 then t.error mgmtPage 0x0806 0 0x05C
      else
        let b := if s.host.linkUp ∧ image.status = .ok then image.bytes.take (s.reg mgmtPage Rg.mgmtRecoveryLenBytes) else []
        { t with mgmt := { t.mgmt with booting := some (.recovery (value.getLsbD 1)), recovered := b } }.setReg
          mgmtPage Rg.mgmtRecoveryControlBusy 1 |>.setReg mgmtPage Rg.mgmtBootStatusState 1) s)

/-- SVN_COMMIT (R567, R569). -/
def execSvnCommit (who : Requester) (value : BitVec 32) (s : State) : Host.Outcome State Fault Refusal :=
  .next (writeAccess who mgmtPage 0x060 (fun s =>
    if bootState s = 4 ∨ value.toNat % 256 ≠ 0xA5 ∨ !value.getLsbD 8 then s
    else
      let svn := s.reg mgmtPage Rg.mgmtBootStatusImageSvn
      if bootState s ≠ 2 ∨ svn ≤ s.fuses.svn then s.error mgmtPage 0x0805 0 0x060
      else { s with fuses := { s.fuses with svn := svn } }.setReg mgmtPage Rg.mgmtFuseStateFusedSvn svn) s)

/-- The staged owner hash (R568). -/
def stagedHash (s : State) : BitVec 512 :=
  BitVec.ofNat 512 ((List.range 16).foldl (fun v i => v + s.reg mgmtPage Rg.mgmtOwnerStageHash i * 2 ^ (32 * i)) 0)

/-- OWNER_COMMIT (R568, R569). -/
def execOwnerCommit (who : Requester) (value : BitVec 32) (s : State) : Host.Outcome State Fault Refusal :=
  .next (writeAccess who mgmtPage 0x068 (fun s =>
    if bootState s = 4 ∨ value.toNat % 256 ≠ 0x5A ∨ !value.getLsbD 8 then s
    else if s.fuses.ownerHash ≠ 0 ∨ stagedHash s = 0 ∨ s.anyPart = true then s.error mgmtPage 0x0805 0 0x068
    else { s with fuses := { s.fuses with ownerHash := stagedHash s } }.setReg mgmtPage Rg.mgmtFuseStateOwnerSet 1) s)

/-! ### Power and temperature -/

/-- The inlet as the policy takes it, in 0.1 °C: 55 °C where the sensor is lost (R606). -/
def inletNow (s : State) : Option Nat := if s.power.inletLost then some 550 else s.mgmt.sample.bind (·.inlet)

/-- SUSTAINED as the policies lower it (R581, R585, R586). -/
def sustained (s : State) : Nat :=
  let w := max 1000 (min 2200 (s.reg mgmtPage Rg.mgmtPowerLimitSustained))
  w - (match s.power.inletHigh with
    | some t => (t - 500) * 4
    | none => 0) - (if s.power.warm then 100 else 0)

/-- WARN, HOT_THROTTLE and COOLANT of MGMT.THERMAL (R586). -/
def setThermal (s : State) : State :=
  s.setReg mgmtPage Rg.mgmtThermalWarn (bit (s.power.warm || !s.power.hotStacks.isEmpty))
    |>.setReg mgmtPage Rg.mgmtThermalHotThrottle (bit (!s.power.hotDies.isEmpty))
    |>.setReg mgmtPage Rg.mgmtThermalCoolant (bit s.power.inletHigh.isSome)

/-- A throttle of R581 begins; the allowance is used. DEDUCED: log entry 104. -/
def beginThrottle (s : State) : State :=
  if s.power.throttling then s else { s with power := { s.power with throttling := true, allowance := false } }.raise mgmtPage 3

/-- Nanoseconds of 10 µs that a throttle holds the cores of inference partitions (R582). -/
def heldNs (s : State) : Nat :=
  (List.range 160).foldl (fun t c =>
    if inferenceCore s c then t + (if s.power.hotDies.contains (c / 40) then 10000 else 10 * s.power.fraction) else t) 0

/-- POWER_OVERRUN (R583): once per episode, P0 above SUSTAINED for 10 ms or above 2,600 W with every inference core held at f = 1. -/
def checkOverrun (s : State) : State :=
  match s.power.fullSince with
  | none => s
  | some t =>
    if !s.power.overrun ∧ (s.power.p0 > 2600 ∨ s.now ≥ t + 10000000) then
      ({ s with power := { s.power with overrun := true } }.error mgmtPage 0x0809 0 0).raise mgmtPage 7
    else s

/-- POWER_ESTIMATE (R581 to R583): P and P0 of 10 µs, and the fraction of a throttle that holds. DEDUCED: log entry 104. -/
def execPowerEstimate (p p0 : Nat) (f : Fin 1001) (s : State) : Host.Outcome State Fault Refusal :=
  let x := s.power
  let above := decide (p0 > sustained s)
  let under := if above then none else some (x.underSince.getD s.now)
  let rested := match under with
    | some t => decide (s.now ≥ t + 90000000)
    | none => false
  .next (if !s.alive then s
    else
      let t := { s with power := { x with
        p := p, p0 := p0, recent := (p :: x.recent).take 100, underSince := under
        overSince := if above then some (x.overSince.getD s.now) else none
        throttling := x.throttling && above, allowance := x.allowance || rested, overrun := x.overrun && above } }
      let t := if above && (decide (p0 > 2600) || !x.allowance) then beginThrottle t else t
      let fr := if t.power.throttling then f.val else 0
      let full := fr == 1000
      let t := { t with power := { t.power with
        fraction := fr
        fullSince := if full then some (x.fullSince.getD s.now) else none
        overrun := t.power.overrun && full } }
      let t := t.addReg mgmtPage Rg.mgmtThrottleTimeTime (heldNs t)
      settleGaps (checkOverrun (t.setReg mgmtPage Rg.mgmtPowerNowFraction fr)))

/-- POWER_ALLOWANCE_EXPIRY (R581): P0 has been above SUSTAINED for 10 ms without a break. DEDUCED: log entry 104. -/
def execPowerAllowanceExpiry (s : State) : Host.Outcome State Fault Refusal :=
  .next (match s.power.overSince with
    | some t => if s.alive ∧ s.now ≥ t + 10000000 then beginThrottle s else s
    | none => s)

/-- COOLANT_HIGH (R585): the inlet has been above 50 °C for 1 s. DEDUCED: log entry 104. -/
def execCoolantHigh (inlet : Nat) (s : State) : Host.Outcome State Fault Refusal :=
  .next (match s.power.inletSince with
    | some t =>
      if s.firmware ∧ inletNow s = some inlet ∧ inlet > 500 ∧ s.now ≥ t + 1000000000 ∧ s.power.inletHigh = none then
        (setThermal { s with power := { s.power with inletHigh := some inlet } }).raise mgmtPage 5
      else s
    | none => s)

/-- The inlet reading that the policy takes changes, with the radio partitions' coolant tests (R307, R585, R586, R606). -/
def setInlet (v : Nat) (s : State) : State :=
  { s with
    radio := { s.radio with parts := s.radio.parts.map fun (e : Nat × RadioPart) => (e.1, { e.2 with warmSince := warmFrom s.now v e.2 }) }
    power := { s.power with
      inletSince := if v > 500 then some (s.power.inletSince.getD s.now) else none
      inletHigh := if v > 500 then s.power.inletHigh.map fun _ => v else none } }.setReg mgmtPage Rg.mgmtThermalInlet (v / 10)

/-- INLET_SENSOR_LOSS (R606): no reading for 1 s. DEDUCED: log entry 104. -/
def execInletSensorLoss (s : State) : Host.Outcome State Fault Refusal :=
  .next (if s.firmware ∧ !s.power.inletLost ∧ s.now ≥ s.power.inletAt + 1000000000 then
      setInlet 550 (({ s with power := { s.power with inletLost := true } }.error rsetPage 0x0905 0 0).raise rsetPage 4)
    else s)

/-- A die with cores of inference partitions. -/
def inferenceDie (s : State) (d : Nat) : Bool := decide (d < 4) && (List.range 40).any fun i => inferenceCore s (40 * d + i)

/-- The actions on junctions and stacks of R585 for a sample: old and new half degrees of each die, and stacks. DEDUCED: log entry 104. -/
def thermalPolicy (old new stackTemps : List Nat) (s : State) : State :=
  let hottest := new.foldl max 0
  let at_ := new.findIdx (· == hottest)
  let warmed := decide (hottest ≥ 200) && !s.power.warm
  let cold := (List.range 10).filter fun d => decide (new.getD d 0 ≥ 210) && decide (old.getD d 0 < 210) && !inferenceDie s d
  let kept := s.power.hotDies.filter fun d => decide (new.getD d 0 ≥ 206)
  let hot := if hottest ≥ 210 ∧ inferenceDie s at_ ∧ !kept.contains at_ then kept ++ [at_] else kept
  let hotStacks := (List.range 20).filter fun x => decide (stackTemps.getD x 0 ≥ 95)
  let stacked := hotStacks.any fun x => !s.power.hotStacks.contains x
  let t := { s with power := { s.power with
    warm := decide (hottest ≥ 200) || (s.power.warm && new.any fun v => decide (v ≥ 196))
    hotDies := hot, hotStacks := hotStacks } }
  let t := settleGaps t
  let t := t.raiseBits mgmtPage (if warmed || stacked || !cold.isEmpty then 2 ^ 4 else 0)
  t.each cold fun d t => (t.error mgmtPage 0x0809 d 0).raise mgmtPage 7

/-! ### Telemetry -/

/-- Every sensor of R561. -/
def allSensors : List SensorId :=
  (List.finRange 10).map .junction ++ (List.finRange 20).map .stackTemp ++ [.inlet] ++ (List.finRange 4).map .vddCore ++ [.power] ++
    (List.finRange 4).map .diePower ++ (List.finRange 4).map .lowestWave ++ [.score, .throttle, .corrected, .uncorrected] ++
    (List.finRange 82).map .linkState ++ (List.finRange 64).map .missed

/-- The page and LINK_UP of a port: PCIe, CXL 0 to 7, Aqzer 0 to 8, Ethernet 0 to 63. -/
def portLink (s : State) (p : Nat) : Bool :=
  if p = 0 then s.host.linkUp
  else if p < 9 then s.flag (bulkPage (p - 1)) Rg.bulkPortStatusLinkUp
  else if p < 18 then s.reg (aqzlPage (p - 9)) Rg.aqzlLinkStatusState == 3
  else s.flag (ethpPage (p - 18)) Rg.ethpPortStatusLinkUp

/-- The lowest window of the cores and signal cores of a die in the last ms; open where none ended in it. -/
def lowestOnDie (s : State) (d : Nat) : Nat := leastNat (s.free 16).toNat ((monitorsOf d).map (recentLows s)).flatten

/-- SMB_ALERT_N is asserted while a PLDM platform event awaits collection (R617). -/
def smbAlert (s : State) : Bool := !s.mgmt.events.isEmpty

/-- What a sensor reads in a sample (R561), in its unit and resolution; none where it gives no reading. -/
def readSensor (s : State) (env : SensorEnv) : SensorId → Option Nat
  | .junction d => env.dies[d.val]?
  | .stackTemp x => env.stackTemps[x.val]?
  | .inlet => inletNow { s with mgmt := { s.mgmt with sample := some env } }
  | .vddCore d => some (vddOf s d.val)
  | .power => some env.watts
  | .diePower d => env.dieWatts[d.val]?
  | .lowestWave d => some (lowestOnDie s d.val)
  | .score => some (s.reg raspPage Rg.raspSaltScoreScore)
  | .throttle => some s.power.fraction
  | .corrected => some (s.reg raspPage Rg.raspCorrectedCount)
  | .uncorrected => some (s.reg raspPage Rg.raspUncorrectedCount)
  | .linkState p => some (bit (portLink s p.val))
  | .missed k => some (s.reg (partPage k.val) Rg.partMissTotalCount)

/-- The thresholds of a numeric sensor: those at which R585 acts. -/
def thresholds : SensorId → List Nat
  | .junction _ => [200, 210, 230]
  | .stackTemp _ => [95]
  | .inlet => [501]
  | _ => []

/-- Sensors that cross a threshold between two samples (R561). -/
def crossings (old new : List (SensorId × Nat)) : List (SensorId × Nat) :=
  new.filter fun e => match old.find? fun o => o.1 == e.1 with
    | some o => (thresholds e.1).any fun t => decide (o.2 < t) != decide (e.2 < t)
    | none => (thresholds e.1).any fun t => decide (t ≤ e.2)

/-- SENSOR_SAMPLE (R561, R581, R585, R606): every 1 ms of device time. POWER_NOW averages the estimates of the last 1 ms, rounded to a whole
watt either way. -/
def execSensorSample (env : SensorEnv) (s : State) : Host.Outcome State Fault Refusal :=
  .next (if !s.firmware then s
    else
      let old := (s.mgmt.sample.map (·.dies)).getD []
      let t := { s with
        plat := { s.plat with junctions := env.dies.mapIdx fun i v => (i, v / 2) }
        power := { s.power with inletLost := s.power.inletLost && env.inlet.isNone, inletAt := if env.inlet.isSome then s.now else s.power.inletAt } }
      let t := match env.inlet with
        | some v => setInlet v t
        | none => t
      let t := setThermal (thermalPolicy old env.dies env.stackTemps t)
      let readings := allSensors.filterMap fun i => (readSensor t env i).map (i, ·)
      let events := crossings s.mgmt.readings readings
      let n := s.power.recent.length
      let watts := s.power.recent.foldl (· + ·) 0 / max 1 n + (if n = 0 then 0 else (s.free 1 1).toNat)
      let t := (t.setReg mgmtPage Rg.mgmtThermalHottest (env.dies.foldl max 0 / 2)).setReg mgmtPage Rg.mgmtPowerNowWatts watts
      let t := { t with mgmt := { t.mgmt with sample := some env, readings := readings, events := t.mgmt.events ++ events } }
      (t.each events fun e t => t.emit (.platformEvent e.1 e.2)).usedFree 2)

/-! ### Requests -/

/-- The number of a transport, and whether it is MCTP (R559). -/
def transport : MgmtSource → Nat
  | .i3c => 0
  | .smbus => 1
  | .pcieVdm => 2
  | .pfDoe => 3
  | .vfDoe fn => 256 + fn.val
def isMctp : MgmtSource → Bool
  | .i3c | .smbus | .pcieVdm => true
  | _ => false

/-- The controller serves a request that comes over a transport (R559, R560). -/
def serves (s : State) (src : MgmtSource) : Bool :=
  s.firmware && !s.frozen mgmtPage && match src with
    | .i3c => s.flag mgmtPage Rg.mgmtSidebandI3cEnable && s.mgmt.dynAddr.isSome
    | .smbus => s.flag mgmtPage Rg.mgmtSidebandSmbEnable
    | .pcieVdm | .pfDoe => s.host.linkUp
    | .vfDoe fn => s.host.linkUp && fn.val != 0

/-- Answer a request: an answer of bytes is also what CHUNK_GET would collect. -/
def answer (src : MgmtSource) (r : MgmtReply) (s : State) : State :=
  let t := match r with
    | .bytes b => { s with mgmt := { s.mgmt with large := tabSet (transport src) b s.mgmt.large } }
    | _ => s
  t.emit (.mgmt src r)

/-- Serve a PLDM request: only over MCTP. PRESUMED: log entry 102. -/
def pldm (src : MgmtSource) (f : State → State) (s : State) : State := if serves s src && isMctp src then f s else s

/-- GET_SENSOR_READING (R561): the latest sample; a sensor without a reading answers an error. -/
def execGetSensorReading (src : MgmtSource) (sensor : SensorId) (s : State) : Host.Outcome State Fault Refusal :=
  .next (pldm src (fun s =>
    match s.mgmt.readings.find? fun e => e.1 == sensor with
    | some e => answer src (.value e.2) s
    | none => answer src (.code 1) s) s)

/-- PLDM_DISCOVERY (R559). -/
def execPldmDiscovery (src : MgmtSource) (req : PldmDiscovery) (s : State) : Host.Outcome State Fault Refusal :=
  .next (pldm src (answer src (.bytes (Config.pldmAnswer (match req with
    | .getTid => 0
    | .getTypes => 1
    | .getCommands => 2
    | .getVersion => 3)))) s)

/-- PLDM_FRU_READ (R559): part, stepping, serial and SVN. -/
def execPldmFruRead (src : MgmtSource) (s : State) : Host.Outcome State Fault Refusal :=
  .next (pldm src (answer src (.bytes (Config.fruData s.fuses.serial s.fuses.svn))) s)

/-- FIRMWARE_UPDATE (R566): an image that fails a check is refused with the PLDM code of a failed verification. PRESUMED: log entry 102. -/
def execFirmwareUpdate (src : MgmtSource) (image : ImageData) (s : State) : Host.Outcome State Fault Refusal :=
  .next (pldm src (fun s =>
    match imageFails s.fuses image.bytes with
    | some _ => answer src (.code 2) s
    | none => answer src (.code 0) ({ s with mgmt := { s.mgmt with updated := true } }.emit (.flashWrite image.bytes))) s)

/-- ACTIVATE_FIRMWARE (R566): without an update there is nothing to activate. PRESUMED: log entry 102. -/
def execActivateFirmware (src : MgmtSource) (s : State) : Host.Outcome State Fault Refusal :=
  .next (pldm src (fun s =>
    if s.mgmt.updated then stopFirmware .activate (answer src (.code 0) s) else answer src (.code 0x85) s) s)

/-- PDR_REPOSITORY_REQUEST (R559): the repository, or the oldest event not collected yet. -/
def execPdrRepositoryRequest (src : MgmtSource) (req : PdrRequest) (s : State) : Host.Outcome State Fault Refusal :=
  .next (pldm src (fun s =>
    match req with
    | .getPdr => answer src (.bytes Config.pdrRepository) s
    | .pollEvent =>
      match s.mgmt.events with
      | e :: rest => answer src (.value e.2) { s with mgmt := { s.mgmt with events := rest } }
      | [] => answer src (.bytes []) s) s)

/-- DYNAMIC_ADDRESS (R559). -/
def execDynamicAddress (addr : BitVec 7) (s : State) : Host.Outcome State Fault Refusal :=
  .next (if s.firmware ∧ s.flag mgmtPage Rg.mgmtSidebandI3cEnable then { s with mgmt := { s.mgmt with dynAddr := some addr } } else s)

/-! ### SPDM -/

/-- SPDM error codes of DSP0274. -/
def invalidRequest : Nat := 0x01
def unexpectedRequest : Nat := 0x04
def decryptError : Nat := 0x06
def sessionLimit : Nat := 0x0A

/-- Serve an SPDM request on a connection that has come at least so far (R573). PRESUMED: log entry 102. -/
def spdm (src : MgmtSource) (stage : Nat) (f : State → State) (s : State) : State :=
  if !serves s src then s
  else if tabGet 0 (transport src) s.mgmt.spdm < stage then answer src (.code unexpectedRequest) s
  else f s

/-- The connection of a transport has come to a stage. -/
def setStage (src : MgmtSource) (n : Nat) (s : State) : State := { s with mgmt := { s.mgmt with spdm := tabPut 0 (transport src) n s.mgmt.spdm } }

/-- An answer whose bytes the standard fixes. -/
def standard (src : MgmtSource) (n : Nat) (s : State) : State := (answer src (.bytes (Config.spdmAnswer n s.freeIx)) s).usedFree

/-- GET_VERSION (R573): versions 1.2 and 1.3; the connection begins anew. -/
def execGetVersion (src : MgmtSource) (s : State) : Host.Outcome State Fault Refusal :=
  .next (spdm src 0 (fun s =>
    let t := setStage src 1 s
    answer src (.bytes [0x12, 0x13]) { t with mgmt := { t.mgmt with sessions := tabDel (transport src) t.mgmt.sessions } }) s)

/-- GET_CAPABILITIES (R573). -/
def execGetCapabilities (src : MgmtSource) (s : State) : Host.Outcome State Fault Refusal :=
  .next (spdm src 1 (fun s => standard src 1 (setStage src 2 s)) s)

/-- NEGOTIATE_ALGORITHMS (R573). -/
def execNegotiateAlgorithms (src : MgmtSource) (supported : Bool) (s : State) : Host.Outcome State Fault Refusal :=
  .next (spdm src 2 (fun s =>
    if supported then standard src 2 (setStage src 3 s) else answer src (.code invalidRequest) s) s)

/-- GET_DIGESTS (R573): of the chain of slot 0. -/
def execGetDigests (src : MgmtSource) (s : State) : Host.Outcome State Fault Refusal :=
  .next (spdm src 3 (answer src (.bytes (toBytes 64 (Config.sha3 (Config.certChain s.fuses.serial)).toNat))) s)

/-- GET_CERTIFICATE (R573): slot 0. -/
def execGetCertificate (src : MgmtSource) (slot : Fin 8) (offset length : Nat) (s : State) : Host.Outcome State Fault Refusal :=
  let chain := Config.certChain s.fuses.serial
  .next (spdm src 3 (fun s =>
    if slot ≠ 0 ∨ offset ≥ chain.length then answer src (.code invalidRequest) s
    else answer src (.bytes ((chain.drop offset).take length)) s) s)

/-- An IDK signature over an SPDM transcript that ends with some bytes (R571). -/
def signTranscript (s : State) (b : List Byte) : List Byte := toBytes 114 (Config.idkSign s.fuses.uds 0 (Config.spdmAnswer 0 s.freeIx ++ b)).toNat

/-- CHALLENGE (R571, R573). -/
def execChallenge (src : MgmtSource) (slot : Fin 8) (nonce : BitVec 256) (s : State) : Host.Outcome State Fault Refusal :=
  .next (spdm src 3 (fun s =>
    if slot ≠ 0 then answer src (.code invalidRequest) s
    else (answer src (.bytes (signTranscript s (toBytes 32 nonce.toNat))) s).usedFree) s)

/-- The configuration that measurement 4 describes (R574). -/
def configBytes (s : State) : List Byte :=
  toBytes 4 (rawWord s globPage 0x040) ++ (((List.range 64).filter s.partOn).map fun k => rawBytes s (partPage k) 0x40 48).flatten

/-- The imported soak record, or zeros (R574). DEDUCED: log entry 103. -/
def soakContent (s : State) : List Byte :=
  match s.radio.parts.findSome? fun (e : Nat × RadioPart) => e.2.soak with
  | some r => Config.soakBytes r
  | none => List.replicate 4096 0

/-- The image that runs, as R574 measures it. -/
def imageContent (s : State) : List Byte := s.mgmt.sram.take 0x40 ++ (s.mgmt.sram.drop 0x200).take (imgField s.mgmt.sram 0xC 4)

/-- Measurement blocks (R574). DEDUCED: log entry 103. -/
def measurement (s : State) (i : Nat) : List Byte :=
  toBytes 64 (Config.sha3 (match i with
    | 1 => Config.bootRom
    | 2 => imageContent s
    | 3 => Config.securityState s.fuses.svn (s.reg mgmtPage Rg.mgmtBootStatusImageSvn) s.fuses.ownerHash
    | 4 => configBytes s
    | _ => soakContent s)).toNat

/-- GET_MEASUREMENTS (R571, R574): over a VF's DOE indices 1 to 3 only. -/
def execGetMeasurements (src : MgmtSource) (index : BitVec 8) (signed : Bool) (nonce : BitVec 256) (s : State) :
    Host.Outcome State Fault Refusal :=
  let blocks := match src with
    | .vfDoe _ => [1, 2, 3]
    | _ => [1, 2, 3, 4, 5]
  let i := index.toNat
  .next (spdm src 3 (fun s =>
    if i = 0 then answer src (.value blocks.length) s
    else if i ≠ 0xFF ∧ !blocks.contains i then answer src (.code invalidRequest) s
    else
      let b := ((if i = 0xFF then blocks else [i]).map fun i => measurement s i).flatten
      (answer src (.bytes (b ++ if signed then signTranscript s (toBytes 32 nonce.toNat ++ b) else [])) s).usedFree) s)

/-- The session of a transport, and setting it. -/
def sessionOf (s : State) (src : MgmtSource) : Option Session := tabFind (transport src) s.mgmt.sessions
def setSession (src : MgmtSource) (x : Option Session) (s : State) : State :=
  { s with mgmt := { s.mgmt with sessions := match x with
      | some v => tabSet (transport src) v s.mgmt.sessions
      | none => tabDel (transport src) s.mgmt.sessions } }

/-- KEY_EXCHANGE (R571, R573): a transport has one session at a time. PRESUMED: log entry 102. -/
def execKeyExchange (src : MgmtSource) (exchange : BitVec 768) (s : State) : Host.Outcome State Fault Refusal :=
  .next (spdm src 3 (fun s =>
    if sessionOf s src = some .established then answer src (.code sessionLimit) s
    else (answer src (.bytes (signTranscript s (toBytes 96 exchange.toNat))) (setSession src (some .handshake) s)).usedFree) s)

/-- FINISH (R573). -/
def execFinish (src : MgmtSource) (verifies : Bool) (s : State) : Host.Outcome State Fault Refusal :=
  .next (spdm src 3 (fun s =>
    if sessionOf s src ≠ some .handshake then answer src (.code unexpectedRequest) s
    else if verifies then standard src 3 (setSession src (some .established) s)
    else answer src (.code decryptError) (setSession src none s)) s)

/-- A request within an established session. -/
def inSession (src : MgmtSource) (f : State → State) (s : State) : State :=
  spdm src 3 (fun s => if sessionOf s src = some .established then f s else answer src (.code unexpectedRequest) s) s

/-- KEY_UPDATE (R573). -/
def execKeyUpdate (src : MgmtSource) (s : State) : Host.Outcome State Fault Refusal := .next (inSession src (standard src 4) s)

/-- HEARTBEAT (R573). -/
def execHeartbeat (src : MgmtSource) (s : State) : Host.Outcome State Fault Refusal := .next (inSession src (standard src 5) s)

/-- END_SESSION (R573). -/
def execEndSession (src : MgmtSource) (s : State) : Host.Outcome State Fault Refusal :=
  .next (inSession src (fun s => standard src 6 (setSession src none s)) s)

/-- CHUNK_SEND (R573): chunks in order; with the last the message is whole. PRESUMED: log entry 102. -/
def execChunkSend (src : MgmtSource) (chunk : BitVec 16) (last : Bool) (data : List Byte) (s : State) : Host.Outcome State Fault Refusal :=
  .next (spdm src 3 (fun s =>
    let c := tabGet (0, []) (transport src) s.mgmt.chunks
    let c := if chunk = 0 then (0, []) else c
    if chunk.toNat ≠ c.1 then answer src (.code invalidRequest) { s with mgmt := { s.mgmt with chunks := tabDel (transport src) s.mgmt.chunks } }
    else standard src 7 { s with mgmt := { s.mgmt with
      chunks := if last then tabDel (transport src) s.mgmt.chunks else tabSet (transport src) (c.1 + 1, c.2 ++ data) s.mgmt.chunks } }) s)

/-- CHUNK_GET (R573): a part of the transport's last answer of bytes. PRESUMED: log entry 102. -/
def execChunkGet (src : MgmtSource) (chunk : BitVec 16) (s : State) : Host.Outcome State Fault Refusal :=
  .next (spdm src 3 (fun s =>
    let n := max 1 (Config.chunkBytes (transport src))
    match tabFind (transport src) s.mgmt.large with
    | some b =>
      if chunk.toNat * n < b.length then s.emit (.mgmt src (.bytes ((b.drop (chunk.toNat * n)).take n)))
      else answer src (.code invalidRequest) s
    | none => answer src (.code unexpectedRequest) s) s)

/-- A TDI's state in a report (R575): none for the physical function. -/
def tdiCode (s : State) (fn : Nat) : Nat :=
  if fn = 0 then 0
  else match tabFind fn s.host.tdis with
    | some .locked => 2
    | some .run => 3
    | some .error => 4
    | _ => 1

/-- EXPOSURE of a partition (R575). -/
def exposure (s : State) (k : Nat) : Nat :=
  let p := partPage k
  let shared := (List.range 4).any fun m => (List.range 64).any fun j =>
    j != k && s.partOn j && (s.reg (msidPage m) Rg.msidWayMaskWays j &&& s.reg (msidPage m) Rg.msidWayMaskWays k) != 0
  let donor := (List.range 64).any fun j => isRadio s j && (s.reg (partPage j) Rg.partSurgeDonorsMask).testBit k
  bit shared + 2 * bit donor + 4 * s.reg p Rg.partHeatControlEnable + 8 * bit (s.reg p Rg.partRecordControlMode != 0) +
    16 * s.reg p Rg.partDirtyControlEnable

/-- Owned coding engines as bit masks of decoders, encoders and polar units (R235). -/
def ownedEngines (s : State) (k : Nat) : Nat × Nat × Nat :=
  let owned := fun (f : RegField) (v : RegField) (n : Nat) =>
    (List.range n).foldl (fun m i => if s.flag codePage v i ∧ s.reg codePage f i = k then m + 2 ^ i else m) 0
  (owned Rg.codeDecOwnerPartition Rg.codeDecOwnerValid 24, owned Rg.codeEncOwnerPartition Rg.codeEncOwnerValid 24,
    owned Rg.codePolarOwnerPartition Rg.codePolarOwnerValid 8)

/-- Bytes 0x000 to 0x17F of a partition's report (R575). -/
def reportBody (s : State) (k : Nat) (nonce : BitVec 256) : List Byte :=
  let p := partPage k
  let w := fun (f : RegField) => toBytes 4 (rawWord s p f.off)
  let e := ownedEngines s k
  toBytes 2 0x5052 ++ toBytes 1 1 ++ toBytes 1 (s.reg p Rg.partConfigKind) ++ toBytes 1 k ++ toBytes 1 (functionOf s k) ++
    toBytes 1 (tdiCode s (functionOf s k)) ++ toBytes 1 0 ++ toBytes 8 s.fuses.serial.toNat ++ toBytes 12 s.timeBits.toNat ++ toBytes 4 0 ++
    toBytes 32 nonce.toNat ++ rawBytes s p Rg.partCoreMaskCores.off 5 ++ rawBytes s p Rg.partSigcMaskCores.off 2 ++ toBytes 4 0 ++
    w Rg.partHbmAllotUnits ++ w Rg.partBulkAllotUnits ++ w Rg.partSqBaseBase ++ w Rg.partSqCountCount ++ w Rg.partCqBaseBase ++
    w Rg.partCqCountCount ++ w Rg.partSemBaseBase ++ w Rg.partSemCountCount ++ w Rg.partStreamBaseBase ++ w Rg.partStreamCountCount ++
    w Rg.partKvBaseBase ++ w Rg.partKvCountCount ++ toBytes 8 0 ++ rawBytes s p Rg.partFabricQuotaQuota.off 6 ++
    toBytes 4 (rawWord s fabrPage (Rg.fabrPeerRangeLow.off + 4 * k)) ++ toBytes 4 (rawWord s globPage 0x040) ++
    ((List.range 4).map fun m => toBytes 2 (s.reg (msidPage m) Rg.msidWayMaskWays k)).flatten ++ toBytes 3 e.1 ++ toBytes 3 e.2.1 ++
    toBytes 1 e.2.2 ++ toBytes 1 0 ++ toBytes 4 (exposure s k) ++ toBytes 4 (s.reg mgmtPage Rg.mgmtBootStatusImageSvn) ++ measurement s 2 ++
    toBytes 112 0

/-- Who may ask for a partition's report (R575). -/
def mayReport (s : State) (src : MgmtSource) (k : Nat) : Bool :=
  match src with
  | .vfDoe fn => functionOf s k == fn.val
  | _ => true

/-- PARTITION_REPORT (R571, R575). -/
def execPartitionReport (src : MgmtSource) (k : Fin 64) (nonce : BitVec 256) (s : State) : Host.Outcome State Fault Refusal :=
  .next (spdm src 3 (fun s =>
    if !mayReport s src k.val then answer src (.code invalidRequest) s
    else
      let b := reportBody s k.val nonce
      answer src (.bytes (b ++ toBytes 114 (Config.idkSign s.fuses.uds 2 b).toNat ++ toBytes 14 0)) s) s)

/-- SET_MIGRATION_KEY (R576): within a secured session on the physical function. DEDUCED: log entry 103. -/
def execSetMigrationKey (src : MgmtSource) (slot : Fin 8) (key : BitVec 256) (peer : BitVec 456) (s : State) :
    Host.Outcome State Fault Refusal :=
  .next (spdm src 3 (fun s =>
    if (src ≠ .pfDoe ∧ src ≠ .pcieVdm) ∨ sessionOf s src ≠ some .established then answer src (.code invalidRequest) s
    else standard src 8 { s with mgmt := { s.mgmt with keySlots := tabSet slot.val ⟨key, peer, 0⟩ s.mgmt.keySlots } }) s)

end Sys2Proof.Machine
end

