-- ==== Sys2Proof/Machine/Saltmeter.lean ====
section
/-! DEFINITION. The salinometer (R546 to R552): scores, messages, votes, expulsion, isolation and admission. -/

namespace Sys2Proof.Machine

/-- A count as it stood at the newest score that is at least so old; 0 where there is none. -/
def atMark (s : State) (ns : Nat) (f : Nat × Nat × Nat → Nat) : Nat :=
  ((s.salt.marks.find? fun m => decide (m.1 + ns ≤ s.now)).map f).getD 0

/-- The windows of the last 1,000 ms of the cores and signal cores that are in service (R546). -/
def servingLows (s : State) : List Nat :=
  ((List.range 4).map fun d => ((monitorsOf d).map fun i =>
    if s.flag (if i < 160 then corePage i else sigcPage (i - 160)) Rg.pageStatusFenced then []
    else ((tabGet [] i s.radio.lows).filter fun e => decide (e.1 + 1000000000 ≥ s.now)).map (·.2)).flatten).flatten

/-- The hottest reading of the last sample, rounded up to whole °C (R546, R561). Without a sample it is open. DEDUCED: log entry 82. -/
def hottestRead (s : State) : Nat :=
  match s.mgmt.sample with
  | some e => max ((e.dies.foldl max 0 + 1) / 2) (e.stackTemps.foldl max 0)
  | none => (s.free 8 1).toNat

/-- This moment among the scores. -/
def markScore (s : State) : State :=
  let young := fun (m : Nat × Nat × Nat) => decide (m.1 + 60000000000 > s.now)
  { s with salt := { s.salt with
    scoredAt := some s.now
    marks := (s.now, s.reg raspPage Rg.raspCorrectedCount, s.salt.trainings) ::
      (s.salt.marks.takeWhile young ++ (s.salt.marks.dropWhile young).take 1) } }

/-- SALT_SCORE (R546): the four terms and the score; where no window has ended the lowest one is open. DEDUCED: log entry 82. -/
def execSaltScore (s : State) : Host.Outcome State Fault Refusal :=
  let mem := min 250 ((s.reg raspPage Rg.raspCorrectedCount - atMark s 1000000000 (·.2.1)) / 4)
  let link := min 250 (50 * (s.salt.trainings - atMark s 60000000000 (·.2.2)))
  let lowest := leastNat (s.free 16).toNat (servingLows s)
  let hottest := hottestRead s
  let wave := if lowest < 1550 then 250 else min 250 (2 * (100 - (lowest - 1550)))
  let heat := if hottest > 105 then 250 else 25 * (10 - (105 - hottest))
  .next (if s.firmware then
      let t := s.setReg raspPage Rg.raspSaltPartsMem mem |>.setReg raspPage Rg.raspSaltPartsLink link
        |>.setReg raspPage Rg.raspSaltPartsWave wave |>.setReg raspPage Rg.raspSaltPartsThermal heat
        |>.setReg raspPage Rg.raspSaltScoreScore (1000 - (mem + link + wave + heat)) |>.setReg raspPage Rg.raspSaltScoreStale 0
      (markScore t).usedFree
    else s)

/-- This device's member number, and the members of its span. -/
def ownMember (s : State) : Nat := selfDevice s % 64
def spanMembers (s : State) : List Nat := List.range (spanSize s)

/-- The salinometer runs. -/
def saltOn (s : State) : Bool := s.alive && s.flag raspPage Rg.raspSaltControlEnable && s.flag fabrPage Rg.fabrDeviceIdValid

/-- The effective threshold (R549). DEDUCED: log entry 82. -/
def saltThreshold (s : State) : Nat :=
  if s.reg raspPage Rg.raspSaltBudgetSparePool < s.reg raspPage Rg.raspSaltBudgetSpareReserve then s.reg raspPage Rg.raspSaltControlLowThreshold
  else s.reg raspPage Rg.raspSaltControlExpelThreshold

/-- Device time in ns since which nothing has come from a member. -/
def heardFrom (s : State) (m : Nat) : Nat := max s.salt.enabledAt (tabGet 0 m s.salt.heardAt)

/-- This device votes to expel a member (R548): its last three scores lie below the threshold, or nothing came from it for 3 ms. -/
def votesAgainst (s : State) (m : Nat) : Bool :=
  let l := tabGet [] m s.salt.scores
  m != ownMember s &&
    ((l.length == 3 && l.all fun v => decide (v < saltThreshold s)) || decide (s.now ≥ heardFrom s m + 3000000))

/-- This device's vote mask. -/
def ownVotes (s : State) : BitVec 64 :=
  (spanMembers s).foldl (fun (v : BitVec 64) m => if votesAgainst s m then v ||| 1#64 <<< m else v) 0

/-- More than half of the span's members vote against a member (R548). -/
def agreed (s : State) (m : Nat) : Bool :=
  let n := ((spanMembers s).filter fun v => if v = ownMember s then votesAgainst s m else (tabGet 0 v s.salt.votes).getLsbD m).length
  decide (2 * n > spanSize s)

/-- The members whose expulsion is agreed, ascending. -/
def saltCandidates (s : State) : List Nat := (spanMembers s).filter (agreed s)

/-- The announcer (R548): the lead, or the lowest member that is not a candidate where the lead is one. -/
def announcer (s : State) : Option Nat :=
  let lead := s.reg fabrPage Rg.fabrSpanShapeLead
  let c := saltCandidates s
  if c.contains lead then (spanMembers s).find? fun m => !c.contains m else some lead

/-- Set or clear a member's bit of a 64-bit register. -/
def memberBit (f : RegField) (m : Nat) (on : Bool) (s : State) : State :=
  let v := s.reg raspPage f
  s.setReg raspPage f (if on then v ||| 2 ^ m else if v.testBit m then v - 2 ^ m else v)

/-- USED counts the expulsions of the last 3,600 s (R549). -/
def countUsed (s : State) : State :=
  let l := s.salt.expulsions.filter fun t => decide (s.now < t + 3600000000000)
  { s with salt := { s.salt with expulsions := l } }.setReg raspPage Rg.raspSaltBudgetUsed (min 255 l.length)

/-- An expelled member has let go of every line that it held (R453, R550): the dirty ones read back poisoned. The home does not know which
of the lines that it owned were dirty. DEDUCED: log entry 88. -/
def expelHolder (d : Nat) (s : State) : State :=
  let held := s.fabric.dir.filter fun (e : Nat × DirEntry) => e.2.sharers.contains d || e.2.owner == some d || e.2.awaits.contains d
  let t := s.each held fun e u =>
    let u := if e.2.owner = some d then
        (if u.free 1 = 1 then u.partSpoil (dirPart e.1) (dirAddr e.1) 64 else u).usedFree else u
    lineAnswered e.1 d true u
  let t := t.each s.fabric.reps fun e u =>
    let p := repOf u e.1
    let p := { p with mask := p.mask.filter (· != d), awaits := p.awaits.filter (· != d), readers := tabDel d p.readers }
    if p.awaits.isEmpty && !p.waiting.isEmpty then runWaiting p.waiting (setRep e.1 { p with waiting := [] } u) else setRep e.1 p u
  { t with fabric := { t.fabric with copies := t.fabric.copies.filter fun (e : Nat × CopyLine) => e.1 / 2 ^ 58 / 64 != d } }

/-- A partition's PEER_RANGE covers a device other than d. DEDUCED: log entry 82. -/
def peersBeside (s : State) (k d : Nat) : Bool :=
  s.flag fabrPage Rg.fabrPeerRangeValid k &&
    (decide (s.reg fabrPage Rg.fabrPeerRangeLow k < s.reg fabrPage Rg.fabrPeerRangeHigh k) || s.reg fabrPage Rg.fabrPeerRangeLow k != d)

/-- Set QUENCH bits. -/
def quenchParts (ks : List Nat) (s : State) : State :=
  setQuench (ks.foldl (fun v k => v ||| 2 ^ k) (s.reg fabrPage Rg.fabrQuenchPartitions)) s

/-- An expulsion takes effect on this device (R550): partitions that span beside the member are quenched, radio ones never. -/
def expelHere (m : Nat) (s : State) : State :=
  let d := selfDevice s / 64 * 64 + m
  let ks := (List.range 64).filter fun k =>
    peerAllowed s k d && peersBeside s k d && s.reg (partPage k) Rg.partConfigKind != 2
  let t := quenchParts ks s
  let t := expelHolder d (memberBit Rg.raspExpelledMembers m true (memberBit Rg.raspDegradedKeptMembers m false t))
  countUsed { t with salt := { t.salt with expulsions := t.salt.expulsions ++ [t.now] } } |>.raise raspPage 8

/-- A member is kept in its jobs although it is voted against (R549). -/
def keepMember (m : Nat) (s : State) : State := (memberBit Rg.raspDegradedKeptMembers m true s).raise raspPage 9

/-- The announcer announces what has been agreed, in ascending order (R548, R549); kept bits clear where the votes have lapsed. DEDUCED: log
entry 82. -/
def announceAgreed (s : State) : State :=
  let kept := s.reg raspPage Rg.raspDegradedKeptMembers
  let gone := s.reg raspPage Rg.raspExpelledMembers
  let t := s.each ((spanMembers s).filter fun m => kept.testBit m && !agreed s m) fun m u => memberBit Rg.raspDegradedKeptMembers m false u
  if announcer s ≠ some (ownMember s) then t
  else
    t.each ((saltCandidates s).filter fun m => !gone.testBit m) fun m u =>
      let u := countUsed u
      if u.reg raspPage Rg.raspSaltBudgetUsed < u.reg raspPage Rg.raspSaltBudgetBudget then expelHere m (u.emit (.announce m .expelled))
      else if (u.reg raspPage Rg.raspDegradedKeptMembers).testBit m then u
      else keepMember m (u.emit (.announce m .kept))

/-- SALT_MESSAGE_TX (R547): the message to each reachable member; STALE after 10 ms without a score, and 0 after 500 ms. -/
def execSaltMessageTx (s : State) : Host.Outcome State Fault Refusal :=
  let since := max s.salt.enabledAt (s.salt.scoredAt.getD 0)
  let stale := decide (s.now ≥ since + 10000000)
  let score := if s.now ≥ since + 500000000 then 0 else s.reg raspPage Rg.raspSaltScoreScore
  .next (if saltOn s then
      let t := { s with salt := { s.salt with seq := s.salt.seq + 1 } }.setReg raspPage Rg.raspSaltScoreStale (bit stale)
      let msg : SaltMessage := ⟨Fin.ofNat 64 (ownMember s), BitVec.ofNat 10 score, s.salt.seq, ownVotes s, stale⟩
      announceAgreed (t.emit (.salt msg))
    else s)

/-- SALT_MESSAGE_RX (R548): a member's score and votes. -/
def execSaltMessageRx (msg : SaltMessage) (s : State) : Host.Outcome State Fault Refusal :=
  let m := msg.member.val
  .next (if saltOn s ∧ m < spanSize s ∧ m ≠ ownMember s then
      announceAgreed { s with salt := { s.salt with
        scores := tabSet m ((msg.score.toNat :: tabGet [] m s.salt.scores).take 3) s.salt.scores
        heardAt := tabSet m s.now s.salt.heardAt
        staleFrom := if msg.stale then (if s.salt.staleFrom.contains m then s.salt.staleFrom else s.salt.staleFrom ++ [m])
          else s.salt.staleFrom.filter (· != m)
        votes := tabSet m msg.votes s.salt.votes } }
    else s)

/-- A member is admitted (R552): its EXPELLED bit clears, and what it sent before counts no more. -/
def admitHere (m : Nat) (s : State) : State :=
  memberBit Rg.raspExpelledMembers m false
    { s with salt := { s.salt with scores := tabDel m s.salt.scores, heardAt := tabSet m s.now s.salt.heardAt } }

/-- EXPEL_ANNOUNCE (R549, R550, R552): an announcement reaches this device. DEDUCED: log entry 82. -/
def execExpelAnnounce (member : Fin 64) (news : SaltNews) (s : State) : Host.Outcome State Fault Refusal :=
  .next (if saltOn s ∧ member.val < spanSize s then
      match news with
      | .expelled => expelHere member s
      | .kept => keepMember member s
      | .admitted => admitHere member s
    else s)

/-- ISOLATION (R551): nothing came from more than half of the span's members for 5 ms. DEDUCED: log entry 82. -/
def execIsolation (s : State) : Host.Outcome State Fault Refusal :=
  let silent := ((spanMembers s).filter fun m => m != ownMember s && decide (s.now ≥ heardFrom s m + 5000000)).length
  .next (if saltOn s ∧ 2 * silent > spanSize s then
      (quenchParts ((List.range 64).filter fun k => peersBeside s k (selfDevice s)) s).raise raspPage 11
    else s)

/-- ADMIT_WRITE (R552): the lead announces the member, and its EXPELLED bit clears. -/
def execAdmitWrite (who : Requester) (value : BitVec 32) (s : State) : Host.Outcome State Fault Refusal :=
  let m := value.toNat % 64
  .next (writeAccess who raspPage 0x0E8 (fun s =>
    if value.getLsbD 31 ∧ ownMember s = s.reg fabrPage Rg.fabrSpanShapeLead ∧ m < spanSize s then
      (admitHere m s).emit (.announce m .admitted)
    else s) s)

/-- SALT_USED_EXPIRY (R549): USED falls, and a kept member that is still voted against is expelled. -/
def execSaltUsedExpiry (s : State) : Host.Outcome State Fault Refusal :=
  .next (if saltOn s then announceAgreed (countUsed s) else s)

end Sys2Proof.Machine
end

