-- ==== Sys2Proof/Machine/Twin.lean ====
section
/-! DEFINITION. The twin (R538 to R545, R552, R553): pulses, failure, takeover, mirror batches and drain. -/

namespace Sys2Proof.Machine

/-- The AQZL page of the TW port (R421). -/
abbrev twPage : Page := aqzlPage 8

/-- Pairing is on. -/
def twinOn (s : State) : Bool := s.alive && s.flag raspPage Rg.raspTwinControlEnable

/-- The TW link has codeword lock on some lane (R425). -/
def twLocked (s : State) : Bool := !(linkOf s 8).locked.isEmpty

/-- This device leads: its serial number is the larger (R429). -/
def twinLeads (s : State) : Bool := decide (s.fuses.serial.toNat > s.reg raspPage Rg.raspTwinPeerSerial)

/-- A time at least n ns after a moment; true where there was no such moment. -/
def pastNs (s : State) (at_ : Option Nat) (n : Nat) : Bool :=
  match at_ with
  | none => true
  | some t => decide (s.now ≥ t + n)

/-- TWIN_PULSE_TX (R538): the leader pulses every 10 µs; the follower 5 µs after a leader's pulse, and on its own cadence where it has detected
none for 30 µs. -/
def execTwinPulseTx (s : State) : Host.Outcome State Fault Refusal :=
  let cadence := pastNs s s.twin.pulsedAt 10000
  let answer : Bool := match s.twin.pulseDue with
    | some t => decide (s.now ≥ t)
    | none => false
  let due := if twinLeads s then cadence else answer || (cadence && pastNs s s.twin.heardAt 30000)
  .next (if twinOn s ∧ due then
      { s with twin := { s.twin with pulsedAt := some s.now, pulseDue := none } }.emit (.pin .twinAlive)
    else s)

/-- TWIN_PULSE_RX (R538). -/
def execTwinPulseRx (s : State) : Host.Outcome State Fault Refusal :=
  .next (if twinOn s then
      { s with twin := { s.twin with
        heardAt := some s.now, pulseDue := if twinLeads s then none else some (s.now + 5000) } }
    else s)

/-- TWIN_PIN_FAULT (R538): PIN_FAULT sets and 0x0708 is recorded. -/
def execTwinPinFault (s : State) : Host.Outcome State Fault Refusal :=
  .next (if twinOn s then (s.setReg raspPage Rg.raspTwinStatusPinFault 1).error raspPage 0x0708 0 0 else s)

/-- Standby cells, by partition and cell. -/
def standbyCells (s : State) : List (Nat × Nat) :=
  (s.radio.parts.map fun (e : Nat × RadioPart) => (e.2.cells.filter fun (f : Nat × Cell) => f.2.standby).map fun f => (e.1, f.1)).flatten

/-- Held slot commands of a cell. -/
def heldSlots (s : State) (k cell : Nat) : List SlotRun := (s.radioOf k).slots.filter fun r => r.cell == cell && r.held

/-- A standby cell becomes active. -/
def activateCell (k cell : Nat) (s : State) : State :=
  let x := s.radioOf k
  match tabFind cell x.cells with
  | none => s
  | some y => s.setRadio k { x with cells := tabSet cell { y with standby := false, slot := slotAt y.info s.now } x.cells }

/-- A held command is served if its tasks can still meet their tidemarks; if not, it completes with RADIO_MISS and its tasks have missed
(R542, R310). DEDUCED: log entry 81. -/
def serveHeld (k : Nat) (r : SlotRun) (s : State) : State :=
  let t := setSlotRun k r { r with held := false } s
  if r.tasks.all fun t => decide (s.now < t.tidemark.toNat) then t
  else
    let u := ((r.tasks.mapIdx fun i t => (i, t)).foldl (fun (v : State × SlotRun) (e : Nat × SlotTask) =>
      (missTask k v.2 e.1 e.2 v.1, { v.2 with
        missed := v.2.missed ++ [e.1], withheld := if e.2.uplink then v.2.withheld else v.2.withheld ++ [e.2.symbol] }))
      (t, { r with held := false }))
    completeSlot r 0x0401 (dropSlotRun k u.2 u.1)

/-- The takeover (R542): every standby cell becomes active, its held commands are served or missed, TAKEOVER is raised and STATE reads 4.
The device clears TWIN_CONTROL.TAKEOVER here. DEDUCED: log entry 81. DESIGN CHOICE: log entry 115. -/
def takeOver (s : State) : State :=
  let t := s.each (standbyCells s) fun e u => u.each (heldSlots s e.1 e.2) (serveHeld e.1) |> activateCell e.1 e.2
  (t.setReg raspPage Rg.raspTwinControlTakeover 0 |>.setReg raspPage Rg.raspTwinStatusState 4).raise raspPage 6

/-- The state of standby cells that were still being copied is lost (R553): their held commands complete with STATE_LOST and they stop.
DEDUCED: log entries 81, 113. -/
def loseState (s : State) : State :=
  let t := s.each (standbyCells s) fun e u =>
    removeCell e.1 e.2 (u.each (heldSlots s e.1 e.2) fun r v => completeSlot r 0x0615 (dropSlotRun e.1 r v))
  (t.setReg raspPage Rg.raspTwinStatusState 3).raise raspPage 10

/-- The twin is judged failed (R541, R553). DEDUCED: log entry 81. -/
def judgeTwin (s : State) : State :=
  if !twinOn s || s.twin.failed then s
  else
    let t := { s with twin := { s.twin with failed := true } }
    let cells := !(standbyCells s).isEmpty
    if cells && s.reg raspPage Rg.raspTwinStatusState == 1 then loseState t
    else if cells && s.flag raspPage Rg.raspTwinControlAuto && !s.flag raspPage Rg.raspTwinStatusPinFault then takeOver t
    else (t.setReg raspPage Rg.raspTwinStatusState 3).raise raspPage 5

/-- TWIN_FAIL_TIMEOUT (R541): 30 µs with no lock on any lane of TW and no twin pulse. -/
def execTwinFailTimeout (s : State) : Host.Outcome State Fault Refusal :=
  .next (if !twLocked s ∧ pastNs s s.twin.heardAt 30000 then judgeTwin s else s)

/-- TWIN_FAIL_MSG (R541). -/
def execTwinFailMsg (s : State) : Host.Outcome State Fault Refusal := .next (judgeTwin s)

/-- TWIN_TAKEOVER (R541, R542): the host driver has set TAKEOVER. -/
def execTwinTakeover (s : State) : Host.Outcome State Fault Refusal :=
  .next (if twinOn s ∧ s.flag raspPage Rg.raspTwinControlTakeover then takeOver s else s)

/-- MIRROR_BATCH (R539, R552): the batch is applied whole; the first one of a partition is its full copy, and with the first slot batch
after it STATE reads 2. DEDUCED: log entry 81. -/
def execMirrorBatch (k : Fin 64) (writes : List (BitVec 64 × List Byte)) (s : State) : Host.Outcome State Fault Refusal :=
  .next (if twinOn s ∧ s.serves raspPage ∧ s.partOn k then
      let t := s.each writes fun (e : BitVec 64 × List Byte) u => u.partWrite k e.1.toNat e.2
      let again := s.twin.mapped.contains k.val
      let t := { t with twin := { t.twin with mapped := if again then t.twin.mapped else t.twin.mapped ++ [k.val] } }
      if again && isRadio s k && s.reg raspPage Rg.raspTwinStatusState == 1 then t.setReg raspPage Rg.raspTwinStatusState 2 else t
    else s)

/-- The readable lines of an object with the addresses of its copy (R539). -/
def objectLines (s : State) (k : Nat) (o : ObjectRec) : List (BitVec 64 × List Byte) :=
  (linesOf o.base o.size).filterMap fun l => (s.partBytesAll k l.1 l.2).map fun b => (o.replicaAddr + BitVec.ofNat 64 (l.1 - o.base), b)

/-- A full copy of every mirrored object goes to the twin (R539, R552). -/
def sendCopies (s : State) : State :=
  s.each ((List.range 64).filter fun k => s.partOn k && s.flag raspPage Rg.raspTwinMapValid k) fun k t =>
    let os := (s.tier.objects.filter fun (e : Nat × ObjectRec) => e.1 / 65536 == k && e.2.replica == 1 && e.2.hint != 4).map (·.2)
    if os.isEmpty then t
    else { t with twin := { t.twin with toMirror := tabDel k t.twin.toMirror } }.emit
      (.mirror (s.reg raspPage Rg.raspTwinMapPartition k) (os.map (objectLines s k)).flatten)

/-- Every cell has moved: DRAIN_DONE sets and STATE reads 5 (R545). The device clears TWIN_CONTROL.DRAIN here. DESIGN CHOICE: log entry 115. -/
def drainDone (s : State) : State :=
  (s.setReg raspPage Rg.raspTwinControlDrain 0 |>.setReg raspPage Rg.raspTwinStatusState 5).raise raspPage 7

/-- The first slot boundary of a cell that lies at least two of its slots after now (R545). -/
def handoverAt (s : State) (c : CellRec) : Nat :=
  let x : Int := s.now + 2 * 1000000 / 2 ^ c.mu
  (airNs c (slotAt c (x - 1) + 1) 0).toNat

/-- Schedule the handover of every twinned cell (R545). -/
def startDrain (s : State) : State :=
  let cells := ((s.radio.parts.filter fun (e : Nat × RadioPart) => s.flag raspPage Rg.raspTwinMapValid e.1).map fun e =>
    (e.2.cells.filter fun (f : Nat × Cell) => !f.2.standby).map fun f => Handover.mk e.1 f.1 (handoverAt s f.2.info)).flatten
  if cells.isEmpty then drainDone s
  else { s with twin := { s.twin with handovers := cells } }.setReg raspPage Rg.raspTwinControlDrain 1

/-- Pairing goes on, and the full copies are sent; or it goes off. A DRAIN that stands is scheduled. DESIGN CHOICE: log entry 115. -/
def setPairing (on : Bool) (s : State) : State :=
  if on == s.flag raspPage Rg.raspTwinControlEnable then s
  else
    let t := { s with twin := { s.twin with
      failed := false, failSent := false, heardAt := none, pulsedAt := none, pulseDue := none, mapped := [], handovers := [] } }
    let t := t.setReg raspPage Rg.raspTwinControlEnable (bit on) |>.setReg raspPage Rg.raspTwinStatusState (bit on)
      |>.setReg raspPage Rg.raspTwinStatusRole (bit (on && twinLeads s))
    if on then
      let u := sendCopies t
      if u.flag raspPage Rg.raspTwinControlDrain then startDrain u else u
    else t

/-- A write of TWIN_CONTROL (R545, R552, R555): its W1S bits are set (R13). A DRAIN set while pairing is off stands until pairing goes on.
DESIGN CHOICE: log entry 115. -/
def writeTwinControl (v : Nat) (s : State) : State :=
  let t := setPairing (v.testBit 0) s
  let t := t.setReg raspPage Rg.raspTwinControlAuto (bit (v.testBit 1))
  let t := if v.testBit 2 then t.setReg raspPage Rg.raspTwinControlTakeover 1 else t
  if v.testBit 3 ∧ !t.flag raspPage Rg.raspTwinControlDrain then
    let t := t.setReg raspPage Rg.raspTwinControlDrain 1
    if t.flag raspPage Rg.raspTwinControlEnable then startDrain t else t
  else t

/-- DRAIN_WRITE (R545). -/
def execDrainWrite (who : Requester) (value : BitVec 32) (s : State) : Host.Outcome State Fault Refusal :=
  .next (writeAccess who raspPage 0x0B0 (writeTwinControl value.toNat) s)

/-- The departing device's side of a handover: a final mirror batch, and the cell ends (R545). DEDUCED: log entry 81. -/
def handOver (h : Handover) (s : State) : State :=
  let n := match tabFind h.cell (s.radioOf h.part).cells with
    | some y => slotAt y.info s.now
    | none => 0
  let t := removeCell h.part h.cell (cutSlots h.part h.cell (n - 1) false (sendMirror h.part s))
  let t := { t with twin := { t.twin with handovers := t.twin.handovers.filter (· != h) } }.emit (.handover h.part h.cell)
  if t.twin.handovers.isEmpty then drainDone t else t

/-- The receiving device's side: the cell becomes active, and its commands whose slots have not passed are served. -/
def receiveCell (k cell : Nat) (y : Cell) (s : State) : State :=
  let n := slotAt y.info s.now
  let t := s.each (heldSlots s k cell) fun r u =>
    if r.index ≥ n then setSlotRun k r { r with held := false } u else completeSlot r 0x0011 (dropSlotRun k r u)
  let t := activateCell k cell t
  if (standbyCells t).isEmpty then drainDone t else t

/-- DRAIN_HANDOVER (R545): at the boundary scheduled, on either device. DEDUCED: log entry 81. -/
def execDrainHandover (k : Fin 64) (cell : Fin 384) (s : State) : Host.Outcome State Fault Refusal :=
  .next (match tabFind cell.val (s.radioOf k).cells with
    | none => s
    | some y =>
      if !twinOn s then s
      else if y.standby then receiveCell k cell y s
      else
        match s.twin.handovers.find? fun h => h.part == k.val && h.cell == cell.val with
        | some h => if s.now ≥ h.due then handOver h s else s
        | none => s)

end Sys2Proof.Machine
end

