-- ==== Sys2Proof/Machine/RegRead.lean ====
section
/-! DEFINITION. Reads of the control window (R13 to R15, R39, R40, R47, R130, R314): what each register shows, what a read of it does. -/

namespace Sys2Proof.Machine

/-- The 64-bit counters whose upper half is latched (R130), by page. -/
def latchedFields : PageKind → List RegField
  | .core => [Rg.coreArrayWaves, Rg.coreArrayStall, Rg.coreSpadWaitTime, Rg.coreRngStepStep]
  | .sigc => [Rg.sigcMemWaitTime]
  | .code => [Rg.codeDecBusyTime, Rg.codeEncBusyTime, Rg.codePolarBusyTime]
  | .msid => [Rg.msidDecodeBusyTime]
  | .bulk => [Rg.bulkReadBytesBytes]
  | .host => [Rg.hostAtcInvalidationsCount]
  | .qmgr => [Rg.qmgrFetchedCount]
  | .aqzl => [Rg.aqzlFecCorrectedCount]
  | .fabr => [Rg.fabrAbsorbedCount, Rg.fabrCombinedCount]
  | .ethp => [Rg.ethpRxFramesCount, Rg.ethpTxFramesCount, Rg.ethpFecCorrectedCount]
  | .part => [Rg.partStallTimeTime, Rg.partCtxTimeTime, Rg.partCtxVtimeVtime, Rg.partDonatedTimeTime, Rg.partServeStepsCount,
      Rg.partServeTokensCount, Rg.partReshardBytesBytes, Rg.partRecordHeadBytes, Rg.partBoundaryCount, Rg.partDivergeBoundaryCount]
  | .rasp => [Rg.raspCorrectedCount, Rg.raspUncorrectedCount]
  | .mgmt => [Rg.mgmtThrottleTimeTime]
  | _ => []

/-- The values that registers of a page show for what another register selects, or that other state holds. With OFFSET_SELECT 0, physical
row 0 of array 0 is a stage (R117, R119), so OFFSET_DATA.IN_USE reads 1 from reset on, whatever its Reset column. DEDUCED: log entry 27. -/
def shownCore (s : State) (c : Nat) (f : RegField) : Option Nat :=
  let p := corePage c
  let pos := s.reg p Rg.coreOffsetSelectPhysical
  let entry := offsetEntry s c (s.reg p Rg.coreOffsetSelectArray) (s.flag p Rg.coreOffsetSelectTable) pos
  if f = Rg.coreOffsetDataLogical ∨ f = Rg.coreOffsetDataOffset then some (entry.getD 0)
  else if f = Rg.coreOffsetDataInUse then some (bit entry.isSome)
  else none

/-- QMGR shows the selected SQ and CQ (R420). -/
def shownQmgr (s : State) (f : RegField) : Option Nat :=
  let q := tabFind (s.reg qmgrPage Rg.qmgrSqSelectSq) s.host.sqs
  let c := tabFind (s.reg qmgrPage Rg.qmgrCqSelectCq) s.host.cqs
  if f = Rg.qmgrSqStateHead then some ((q.map (·.head)).getD 0)
  else if f = Rg.qmgrSqStateTail then some ((q.map (·.tail)).getD 0)
  else if f = Rg.qmgrSqInfoCq then some ((q.map fun x => cqKey x.cq).getD 0)
  else if f = Rg.qmgrSqInfoClass then some ((q.map (·.cls)).getD 0)
  else if f = Rg.qmgrSqInfoExists then some (bit q.isSome)
  else if f = Rg.qmgrCqStateHead then some ((c.map (·.head)).getD 0)
  else if f = Rg.qmgrCqStateTail then some ((c.map (·.tail)).getD 0)
  else if f = Rg.qmgrCqWaitingCount then some ((c.map fun x => x.waiting.length).getD 0)
  else none

/-- HOST shows the selected function's window and the selected page's route (R419). -/
def shownHost (s : State) (f : RegField) : Option Nat :=
  let w : Window := tabGet {} (s.reg hostPage Rg.hostWinSelectFunction) s.host.windows
  let r := tabFind (s.reg hostPage Rg.hostRouteSelectPage) s.host.routes
  if f = Rg.hostWinPartPartition then some w.part
  else if f = Rg.hostWinPartValid then some (bit w.valid)
  else if f = Rg.hostWinBaseAddress then some w.base
  else if f = Rg.hostRouteFunction then some ((r.map (·.fn)).getD 0)
  else if f = Rg.hostRouteVector then some ((r.map (·.vector)).getD 0)
  else if f = Rg.hostRouteValid then some (bit r.isSome)
  else none

/-- A port shows its selected lane (R441). -/
def shownAqzl (s : State) (p : Nat) (f : RegField) : Option Nat :=
  let g := aqzlPage p
  let x := linkOf s p
  let l := s.reg g Rg.aqzlLaneSelectLane
  if f = Rg.aqzlLaneStatusGain then some (x.gains.getD l 0)
  else if f = Rg.aqzlLaneStatusResidual then some (x.residuals.getD l 0)
  else if f = Rg.aqzlLaneStatusState then
    some (if (s.reg g Rg.aqzlLinkStatusRetired).testBit l then 3
      else if (s.reg g Rg.aqzlLinkStatusAsleep).testBit l then 2
      else if (s.reg g Rg.aqzlLinkStatusActive).testBit l then 1 else 0)
  else if f = Rg.aqzlLaneErrorsCount then some (tabGet 0 l x.errors)
  else none

/-- An Ethernet page shows its port's state (R470, R487, R496): a page that is not in use shows no ENABLE. -/
def shownEthp (s : State) (p : Nat) (f : RegField) : Option Nat :=
  if f = Rg.ethpPortStatusInUse then some (bit (portInUse s p))
  else if f = Rg.ethpPortStatusSpeed then some (portSpeed s p)
  else if f = Rg.ethpConfigGroupMode then some (s.reg (groupPage p) Rg.ethpConfigGroupMode)
  else if f = Rg.ethpTxtsLevelCount then some (s.ethPort p).stamps.length
  else if (f = Rg.pageControlEnable ∨ f = Rg.pageStatusEnabled) ∧ !portInUse s p then some 0
  else none

/-- A PART page shows the selected context, cell and serving group, and the free KV entries (R314, R348, R382); its radio registers read 0
where the partition is no radio partition (R313). -/
def shownPart (s : State) (k : Nat) (f : RegField) : Option Nat :=
  let p := partPage k
  let n := s.reg p Rg.partCtxSelectContext
  let x := (accountCtx k n s).ctx k n
  let r := s.radioOf k
  let cell := s.reg p Rg.partCellSelectCell
  let gi := s.reg p Rg.partServeSelectGroup
  let g := tabFind (k * 8 + gi) s.serve.groups
  if decide (0x300 ≤ f.off) && decide (f.off < 0x340) && !isRadio s k then some 0
  else if f = Rg.partCtxStateState then some x.state
  else if f = Rg.partCtxTimeTime then some (x.time % 2 ^ 64)
  else if f = Rg.partCtxVtimeVtime then some (x.vtime % 2 ^ 64)
  else if f = Rg.partCellMissCount then some (tabGet 0 cell r.miss)
  else if f = Rg.partCellUplaneLateCount then some (tabGet 0 cell r.uplaneLate)
  else if f = Rg.partCellPoisonPrbCount then some (tabGet 0 cell r.poison)
  else if f = Rg.partServeStepsCount then some ((g.map (·.steps)).getD 0)
  else if f = Rg.partServeTokensCount then some ((g.map (·.tokens)).getD 0)
  else if f = Rg.partServeBatchLast then some ((g.map (·.last)).getD 0)
  else if f = Rg.partServeBatchHeld then
    some (streamsOf s fun x => x.part == k && x.group == gi && x.state == 4 && x.held).length
  else if f = Rg.partKvFreeCount then some (kvFree s k).length
  else none

/-- RASP shows the selected member's last message, and the state of the TW port and its pulses (R538, R547, R555). DEDUCED: log entry 82. -/
def shownRasp (s : State) (f : RegField) : Option Nat :=
  let m := s.reg raspPage Rg.raspSaltPeerSelectMember
  if f = Rg.raspTwinStatusLinkOk then some (bit (twLocked s))
  else if f = Rg.raspTwinStatusPulsesOk then some (bit (s.twin.heardAt.isSome && !pastNs s s.twin.heardAt 30000))
  else if f = Rg.raspSaltPeerScore then some ((tabGet [] m s.salt.scores).headD 0)
  else if f = Rg.raspSaltPeerStale then some (bit (s.salt.staleFrom.contains m))
  else if f = Rg.raspSaltPeerVote then some (bit (votesAgainst s m))
  else if f = Rg.raspSaltPeerValid then
    some (bit (match tabFind m s.salt.heardAt with
      | some t => decide (s.now < t + 3000000)
      | none => false))
  else none

/-- POLC shows the selected policer's counts (R500). -/
def shownPolc (s : State) (f : RegField) : Option Nat :=
  let x := s.policer (s.reg polcPage Rg.polcSelectPolicer)
  if f = Rg.polcGreenCount then some x.green
  else if f = Rg.polcYellowCount then some x.yellow
  else if f = Rg.polcRedCount then some x.red
  else none

/-- CODE's busy counters include the time that a running descriptor has taken so far (R235). -/
def shownCode (s : State) (f : RegField) (i : Nat) : Option Nat :=
  let busy := fun (key : Nat) => (tabFind key s.coding.running).map fun r => s.reg codePage f i + (s.now - r.2)
  if f = Rg.codeDecBusyTime then busy i
  else if f = Rg.codeEncBusyTime then busy (32 + i)
  else if f = Rg.codePolarBusyTime then busy (64 + i)
  else none

/-- What a field shows where it is not the stored value. -/
def shown (s : State) (p : Page) (f : RegField) (i : Nat) : Option Nat :=
  match p.kind with
  | .code => shownCode s f i
  | .core => shownCore s p.inst f
  | .qmgr => shownQmgr s f
  | .host => shownHost s f
  | .aqzl => shownAqzl s p.inst f
  | .ethp => shownEthp s p.inst f
  | .part => shownPart s p.inst f
  | .rasp => shownRasp s f
  | .polc => shownPolc s f
  | _ => none

/-- The value that a read of a field returns: 0 for a WO field (R13). -/
def fieldRead (s : State) (p : Page) (f : RegField) (i : Nat) : Nat :=
  if f.acc = .wo then 0 else (shown s p f i).getD (s.reg p f i)

/-- Put a value into an RC field (R13, R14, R314): per-cell, per-lane and per-policer counters stand with what they count. -/
def putRc (p : Page) (f : RegField) (i v : Nat) (s : State) : State :=
  let k := p.inst
  let cell := s.reg p Rg.partCellSelectCell
  let r := s.radioOf k
  let n := s.reg polcPage Rg.polcSelectPolicer
  let y := s.policer n
  if p.kind = .part ∧ f = Rg.partCellMissCount then s.setRadio k { r with miss := tabPut 0 cell v r.miss }
  else if p.kind = .part ∧ f = Rg.partCellUplaneLateCount then s.setRadio k { r with uplaneLate := tabPut 0 cell v r.uplaneLate }
  else if p.kind = .part ∧ f = Rg.partCellPoisonPrbCount then s.setRadio k { r with poison := tabPut 0 cell v r.poison }
  else if p.kind = .aqzl ∧ f = Rg.aqzlLaneErrorsCount then
    modLink k (fun x => { x with errors := tabPut 0 (s.reg p Rg.aqzlLaneSelectLane) v x.errors }) s
  else if p.kind = .polc ∧ f = Rg.polcGreenCount then s.setPolicer n { y with green := v }
  else if p.kind = .polc ∧ f = Rg.polcYellowCount then s.setPolicer n { y with yellow := v }
  else if p.kind = .polc ∧ f = Rg.polcRedCount then s.setPolicer n { y with red := v }
  else s.setReg p f v i

/-- An RC field that holds a minimum or a maximum (R14). -/
def extremeField (k : PageKind) (f : RegField) : Bool :=
  ((k == .core || k == .sigc) && f == Rg.coreWaveRateMinRate) || (k == .core && f == Rg.coreCheapGapMaxGap)

/-- What an RC field holds after the read that clears it (R13, R14): its reset value, or where an event arrived during the read the value
that arrived, 1 for a counter. DEDUCED: log entry 12. -/
def afterRc (p : Page) (f : RegField) (i off : Nat) (event : Option (BitVec 32)) : Nat :=
  match event with
  | none => resetAt p f i
  | some w =>
    let v := fieldMerge f off i 0 w.toNat
    if extremeField p.kind f then v else min v 1

/-- A 32-bit read of the register at a page offset (R13, R14, R130, R487, R497): what it returns and the state after. -/
def readPage (p : Page) (off : Nat) (event : Option (BitVec 32)) (s : State) : State × Nat :=
  if p.kind = .ethp ∧ off = 0x0A0 then popStamp p.inst s
  else
    let s := if p.kind = .time ∧ off = 0x048 then latchNow s else s
    let fs := fieldsOf p.kind
    let v := fs.foldl (fun (v : Nat) f =>
      match fieldIndexAt f off with
      | some i => v + fieldPart f off i (fieldRead s p f i)
      | none => v) 0
    let rcs := fs.filterMap fun f => if f.acc = .rc then (fieldIndexAt f off).map fun i => (f, i) else none
    let t := s.each rcs fun e t => putRc p e.1 e.2 (afterRc p e.1 e.2 off event) t
    let key := pageBase p + off
    let low := (latchedFields p.kind).any fun f => (fieldIndexAt f off).isSome && (off - f.off) % f.stride.max 8 == 0
    let high := (latchedFields p.kind).any fun f => (fieldIndexAt f off).isSome && (off - f.off) % f.stride.max 8 == 4
    if low then
      let up := fs.foldl (fun (v : Nat) f =>
        match fieldIndexAt f (off + 4) with
        | some i => v + fieldPart f (off + 4) i (fieldRead s p f i)
        | none => v) 0
      ({ t with latches := tabSet (key + 4) up t.latches }, v)
    else if high then
      match tabFind key s.latches with
      | some u => ({ t with latches := tabDel key t.latches }, u)
      | none => (t, v)
    else (t, v)

/-- A 32-bit read of one register by a requester (R15, R40, R47): an offset that no page occupies reads 0, a hidden page reads 0 and is
counted, and registers from 0x040 up read 0 during SOFT_RESET. -/
def readOne (who : Requester) (off : Nat) (event : Option (BitVec 32)) (s : State) : State × Nat :=
  match pageAt off with
  | none => (s, 0)
  | some p =>
    let o := off % 0x1000
    if !canSee s who p then (s.error hostPage 0x0124 (Requester.fnNat who) off, 0)
    else if s.flag p Rg.pageControlSoftReset ∧ o ≥ 0x40 then (s, 0)
    else readPage p o event s

/-- A read of bytes (R39): one 32-bit read of each register whose bytes it covers, in ascending order; it returns the bytes addressed.
DEDUCED: log entry 12. -/
def readWindow (who : Requester) (bytes offset : Nat) (event : Option (BitVec 32)) (s : State) : State :=
  if !pathUp s who then readRefused who s
  else
    let first := offset / 4
    let n := (offset + bytes + 3) / 4 - first
    let r := (List.range n).foldl (fun (r : State × List Byte) i =>
      let q := readOne who (4 * (first + i)) (if i = 0 then event else none) r.1
      (q.1, r.2 ++ toBytes 4 q.2)) (s, [])
    r.1.emit (.readData (some ((r.2.drop (offset % 4)).take bytes)))

/-- REGISTER_READ_CLEAR (R13, R14, R39). DEDUCED: log entry 12. -/
def execRegisterReadClear (who : Requester) (bytes offset : Nat) (event : Option (BitVec 32)) (s : State) : Host.Outcome State Fault Refusal :=
  .next (readWindow who bytes offset event s)

/-- TIME_NOW_READ (R497): a read of offset 0x048 of the TIME page. -/
def execTimeNowRead (who : Requester) (s : State) : Host.Outcome State Fault Refusal :=
  .next (readWindow who 4 (pageBase timePage + 0x048) none s)

/-- COUNTER_LATCH_READ (R130). DEDUCED: log entry 12. -/
def execCounterLatchRead (who : Requester) (offset : Nat) (s : State) : Host.Outcome State Fault Refusal :=
  .next (readWindow who 4 (offset / 4 * 4) none s)

end Sys2Proof.Machine
end

