-- ==== Sys2Proof/Machine/RegPages.lean ====
section
/-! DEFINITION. Writes of the control window and the common controls of every page (R13 to R15, R39 to R41, R46 to R54, R409, R598, R599,
R627, R628). -/

namespace Sys2Proof.Machine

/-! ### REGISTER_WRITE -/

/-- A register whose write is a command of its own: REGISTER_WRITE leaves it as it is. DEDUCED: log entry 10. -/
def ownCommand (p : Page) (off : Nat) : Bool :=
  off == 0x010 || off == 0x020 || off == 0x028 ||
    match p.kind with
    | .glob => off == 0x040
    | .rset => off == 0x050 || off == 0x054
    | .host => off == 0x05C || off == 0x060 || off == 0x064 || off == 0x07C
    | .core => off == 0x070 || off == 0x204 || (decide (0x210 ≤ off) && decide (off < 0x230))
    | .sigc => off == 0x060 || off == 0x064
    | .code => decide (0x040 ≤ off) && decide (off < 0x120)
    | .msid => off == 0x040
    | .fabr => off == 0x098 || off == 0x09C
    | .ethp => off == 0x040 && p.inst % 8 == 0
    | .part => off == 0x088 || off == 0x090 || off == 0x094 || off == 0x110
    | .rasp => off == 0x05C || off == 0x068 || (decide (0x070 ≤ off) && decide (off < 0x090)) || off == 0x098 || off == 0x0B0 || off == 0x0E8
    | .mgmt => off == 0x05C || off == 0x060 || off == 0x068
    | .time => decide (0x068 ≤ off) && decide (off < 0x078)
    | .shap => off == 0x044
    | .polc => off == 0x044
    | _ => false

/-- A register that holds its value now: context tables and ownership of an enabled partition (R352, R382), a record ring while MODE is not 0
(R519), a radio register of another partition (R313), a cheap table of a core that is not frozen (R188), the admin pair's place while it is on (R419), the device number while an AQ
port is enabled (R469), and the window of a function whose TDI is locked (R413). -/
def heldNow (s : State) (p : Page) (off w : Nat) : Bool :=
  match p.kind with
  | .part =>
    (s.partOn p.inst && ((decide (0x040 ≤ off) && decide (off < 0x100) && !(decide (0x060 ≤ off) && decide (off < 0x074)) &&
      !(decide (0x080 ≤ off) && decide (off < 0x088))) || off == 0x108 || off == 0x10C)) ||
    (s.reg p Rg.partRecordControlMode != 0 && (off == 0x348 || off == 0x34C)) ||
    (decide (0x300 ≤ off) && decide (off < 0x340) && !isRadio s p.inst)
  | .core => !s.flag p Rg.pageStatusFrozen && (off == 0x078 || off == 0x07C || off == 0x080)
  | .host =>
    (s.flag p Rg.hostAdminControlEnable && decide (0x048 ≤ off) && decide (off < 0x05C)) ||
    (off == 0x068 && tdiLocked s (w % 256)) ||
    ((off == 0x06C || off == 0x070 || off == 0x074) && tdiLocked s (s.reg hostPage Rg.hostWinSelectFunction))
  | .fabr => off == 0x040 && (List.range 8).any fun a => s.flag (aqzlPage a) Rg.pageControlEnable
  | _ => false

/-- The part of a register write that each field takes by its access code (R13, R15). -/
def writeField (p : Page) (off w : Nat) (f : RegField) (s : State) : State :=
  match fieldIndexAt f off with
  | none => s
  | some i =>
    let old := s.reg p f i
    let ones := fieldMerge f off i 0 w
    match f.acc with
    | .rw => s.setReg p f (fieldMerge f off i old w) i
    | .w1s => s.setReg p f (old ||| ones) i
    | .w1c => s.setReg p f (old - (old &&& ones)) i
    | .ro => s
    | .wo => s
    | .rc => s

/-- A write of the selected function's window registers (R386, R419). DEDUCED: log entry 13. -/
def writeWindow (off w : Nat) (s : State) : State :=
  let fn := s.reg hostPage Rg.hostWinSelectFunction
  let x : Window := tabGet {} fn s.host.windows
  let y : Window :=
    if off = 0x06C then { x with part := w % 64, valid := w.testBit 7 }
    else if off = 0x070 then { x with base := x.base / 2 ^ 32 * 2 ^ 32 + w }
    else { x with base := x.base % 2 ^ 32 + w * 2 ^ 32 }
  { s with host := { s.host with windows := tabPut {} fn y s.host.windows } }

/-- What follows a write beside the stored value: an enabled interrupt that stands is signalled (R52, R409), an emptied error record (R53), an
injection that is disarmed (R528), the reachable members (R442, R459), the moment from which silence counts (R548), the
budget of a partition whose donors change (R304), and the start of a heat epoch (R258). -/
def afterWrite (p : Page) (off w : Nat) (was : State) (s : State) : State :=
  if off = 0x024 then
    let r := routeOf s p
    let b := !intCondition was.regs p && intCondition s.regs p
    (s.signal b r.1 r.2).tellLead b
  else if off = 0x034 ∧ w.testBit 31 ∧ was.flag p Rg.pageErrorFirst0Valid then
    s.setReg p Rg.pageErrorFirst0Code 0 |>.setReg p Rg.pageErrorFirst0Unit 0 |>.setReg p Rg.pageErrorFirst1Detail 0
      |>.setReg p Rg.pageErrorFirst2When 0
  else
    match p.kind with
    | .rasp =>
      if off = 0x040 ∧ s.reg p Rg.raspFlipSelectTarget = 0 then s.setReg p Rg.raspFlipControlArm 0
      else if off = 0x0C8 ∧ !was.flag p Rg.raspSaltControlEnable ∧ s.flag p Rg.raspSaltControlEnable then
        { s with salt := { s.salt with enabledAt := s.now } }
      else s
    | .fabr => if off = 0x040 ∨ off = 0x044 ∨ (0x100 ≤ off ∧ off < 0x200) then updateReach s else s
    | .part =>
      if off = 0x310 ∨ off = 0x314 then setBudget p.inst s
      else if off = 0x200 ∧ !heatRuns was p.inst ∧ heatRuns s p.inst then
        { s with parts := tabMod {} p.inst (fun x => { x with heatAt := s.now }) s.parts }
      else s
    | _ => s

/-- A 32-bit write that is taken. -/
def writePage (p : Page) (off w : Nat) (s : State) : State :=
  if ownCommand p off || heldNow s p off w then s
  else if p.kind = .time ∧ off = 0x040 then setSources w s
  else if p.kind = .host ∧ (off = 0x06C ∨ off = 0x070 ∨ off = 0x074) then writeWindow off w s
  else
    let fs := (fieldsOf p.kind).filter fun f => !(p.kind == .ethp && off == 0x040 && f == Rg.ethpConfigGroupMode)
    afterWrite p off w s (s.each fs fun f t => writeField p off w f t)

/-- A 32-bit write by a requester; an offset that no page occupies takes nothing (R15). -/
def writeOne (who : Requester) (off w : Nat) (s : State) : State :=
  match pageAt off with
  | none => s
  | some p => writeAccess who p (off % 0x1000) (writePage p (off % 0x1000) w) s

/-- REGISTER_WRITE (R13, R39): a 64-bit write is two of 32 bits, lower address first; a narrow or misaligned one is ignored and recorded.
DEDUCED: log entry 10. -/
def execRegisterWrite (who : Requester) (bytes offset : Nat) (value : BitVec 64) (s : State) : Host.Outcome State Fault Refusal :=
  .next (if !pathUp s who then s
    else if bytes < 4 ∨ offset % max 1 bytes ≠ 0 then s.error hostPage 0x0123 (Requester.fnNat who) offset
    else if bytes = 4 then writeOne who offset (value.toNat % 2 ^ 32) s
    else if bytes = 8 then writeOne who (offset + 4) (value.toNat / 2 ^ 32) (writeOne who offset (value.toNat % 2 ^ 32) s)
    else s)

/-! ### Interrupts -/

/-- INT_STATUS_CLEAR (R14, R51, R409): bits that events set in the same access stay; a condition that still holds is signalled again. -/
def clearStatus (p : Page) (value event : Nat) (s : State) : State :=
  let old := s.reg p Rg.pageIntStatus
  let t := s.setReg p Rg.pageIntStatus ((old - (old &&& value)) ||| event)
  let r := routeOf t p
  let b := intCondition t.regs p
  (t.signal b r.1 r.2).tellLead b

/-- INT_STATUS_CLEAR. DEDUCED: log entry 14. -/
def execIntStatusClear (who : Requester) (page : Page) (value event : BitVec 32) (s : State) : Host.Outcome State Fault Refusal :=
  .next (if !pageOk page then s
    else if writeTaken s who page 0x020 then clearStatus page value.toNat event.toNat s
    else writeAccess who page 0x020 id (s.raiseBits page event.toNat))

/-- INT_FORCE_WRITE (R51, R52). -/
def execIntForceWrite (who : Requester) (page : Page) (value : BitVec 32) (s : State) : Host.Outcome State Fault Refusal :=
  .next (if !pageOk page then s else writeAccess who page 0x028 (fun t => t.raiseBits page value.toNat) s)

/-! ### SOFT_RESET -/

/-- Every Aqzer port is disabled. -/
def portsOff (s : State) : Bool := (List.range 9).all fun p => !s.flag (aqzlPage p) Rg.pageControlEnable

/-- Every Ethernet page is disabled. -/
def ethOff (s : State) : Bool := (List.range 64).all fun p => !s.flag (ethpPage p) Rg.pageControlEnable

/-- SOFT_RESET of a page is accepted (R598). DEDUCED: log entry 17. -/
def resetAccepts (s : State) (p : Page) : Bool :=
  match p.kind with
  | .core => (s.core p.inst).ctx.isNone && (s.core p.inst).lentTo.isNone
  | .msid => !s.anyPart
  | .hbmc => !s.anyPart
  | .rasp => !s.anyPart
  | .fabr => !s.anyPart && portsOff s
  | .shap => ethOff s
  | .polc => ethOff s
  | .part => !s.flag p Rg.pageControlEnable
  | _ => true

/-- The registers of a page that keep their values: a bulk port's place in the set and its module (R245), and an Ethernet page's copy of
GROUP_MODE (R496). DEDUCED: log entry 17. -/
def keptFields (p : Page) : List RegField :=
  match p.kind with
  | .bulk => [Rg.bulkPortStatusInSet, Rg.bulkCapacityUsed, Rg.bulkCapacityModule]
  | .ethp => if p.inst % 8 = 0 then [] else [Rg.ethpConfigGroupMode]
  | _ => []

/-- The registers of a page from 0x040 up go to their reset values (R47). DEDUCED: log entry 17. -/
def resetRegs (p : Page) (s : State) : State :=
  let lo := (pageBase p + 0x40) * 8
  let hi := (pageBase p + 0x1000) * 8
  let inPage := fun (k : Nat) => decide (lo ≤ k) && decide (k < hi)
  let kept := keptFields p
  let old := kept.map fun f => (f, s.reg p f)
  let t := { s with
    regs := s.regs.filter fun e => !inPage e.1
    latches := s.latches.filter fun e => !inPage (e.1 * 8) }
  t.each old fun e t => t.setReg p e.1 e.2

/-- What a block holds beside its registers is discarded (R47, R598). DEDUCED: log entry 17. -/
def discardWork (p : Page) (s : State) : State :=
  let k := p.inst
  match p.kind with
  | .core =>
    let t := s.setCore k { s.core k with
      gpr := [], vreg := [], tags := [], streams := [], arrays := [], arrayQueue := [], fabricQueue := [], codingQueue := []
      requests := [], shadow := none, live := none, deferred := none, run := .idle, cheapAt := none }
    { t with mem := { t.mem with
      spad := forgetRange .spad (spadKey k 0) (2 ^ 22) t.mem.spad, imem := forgetRange .imem (imemKey k 0) (2 ^ 18) t.mem.imem } }
  | .sigc =>
    let t := if programRuns (s.sigc k) then endProgram k s else s
    t.setSigc k { t.sigc k with run := .idle, dma := [] }
  | .code => let t := abortCoding s
    { t with coding := { t.coding with replaced := [] } }
  | .bulk => s
  | .aqzl => modLink k (fun x => { x with errors := [], gains := [], residuals := [] }) (portOff k s)
  | .ethp => resetPort k s
  | .msid =>
    let t := dropSluices (fun e _ => e / 16 == k) s
    { t with
      tier := { t.tier with codeTables := tabDel k t.tier.codeTables, cache := t.tier.cache.filter fun e => e.1 / 2 ^ 21 != k }
      mem := { t.mem with buf := forgetRange .buf (bufKey k 0) (2 ^ 27) t.mem.buf } }
  | .hbmc => s.setReg rsetPage Rg.rsetHbmReadyStacks (s.reg rsetPage Rg.rsetHbmReadyStacks &&& (2 ^ 20 - 1 - 2 ^ k))
  | .rasp => { setPairing false s with salt := {}, ras := { s.ras with ppr := none } }
  | .fabr => { s with fabric := { links := s.fabric.links.map fun (e : Nat × Link) => (e.1, { e.2 with queues := [] }) } }
  | .shap => { s with eth := { s.eth with nodes := [], rings := [], seqids := [] } }
  | .polc => { s with eth := { s.eth with policers := [] } }
  | .part => setRecord k {} { s with
      parts := tabDel k s.parts, radio := { s.radio with parts := tabDel k s.radio.parts }
      serve := { s.serve with groups := s.serve.groups.map fun (e : Nat × ServeGroup) =>
        if e.1 / 8 = k then (e.1, { e.2 with steps := 0, tokens := 0, last := 0 }) else e } }
  | _ => s

/-- What follows once a page's registers stand at their reset values: the fuse map's repairs of a core stand (R124), CORE_RETIRE, now 0,
lets cores be numbered again (R531), the serial number of a twin is known from its port alone, and a bulk port's link retrains (R245, R598).
DEDUCED: log entry 17. -/
def afterReset (p : Page) (s : State) : State :=
  match p.kind with
  | .core => freshRepairs p.inst s
  | .rasp => countSpares (s.each (List.range 4) fun d t => renumberDie d t)
  | .bulk =>
    if s.flag p Rg.bulkPortStatusInSet then
      { s with tier := { s.tier with lostPorts := s.tier.lostPorts.filter (· != p.inst) ++ [p.inst] } }.raise p 1
    else s
  | .part => recount p.inst s
  | .fabr => updateReach s
  | _ => s

/-- An accepted SOFT_RESET (R16, R47, R598): it takes effect first, and RESET_BUSY reads 1 until it completes. -/
def beginReset (p : Page) (s : State) : State :=
  let t := resetRegs p (discardWork p s)
  let t := t.setReg p Rg.pageIntStatus 0 |>.setReg p Rg.pageIntEnable 0 |>.setReg p Rg.pageControlEnable 0 |>.setReg p Rg.pageControlFreeze 0
    |>.setReg p Rg.pageStatusEnabled 0 |>.setReg p Rg.pageStatusFrozen 0
    |>.setReg p Rg.pageControlSoftReset 1 |>.setReg p Rg.pageStatusResetBusy 1
  afterReset p t

/-- SOFT_RESET (R47, R48, R598, R599): a write of CONTROL with bit 0 set. DEDUCED: log entry 17. -/
def execSoftReset (who : Requester) (page : Page) (value : BitVec 32) (s : State) : Host.Outcome State Fault Refusal :=
  .next (if !pageOk page || !value.getLsbD 0 then s
    else writeAccess who page 0x010 (fun t =>
      if enableFixed page.kind ∨ t.flag page Rg.pageControlSoftReset then t
      else if resetAccepts t page then beginReset page t
      else t.error page 0x0901 0 0x010) s)

/-- SOFT_RESET_DONE (R47, R598): the device clears SOFT_RESET; a core is probed before it can be enabled, and a stack that has retrained is
ready. -/
def execSoftResetDone (page : Page) (s : State) : Host.Outcome State Fault Refusal :=
  .next (if !s.alive || !pageOk page || !s.flag page Rg.pageControlSoftReset then s
    else
      let t := s.setReg page Rg.pageControlSoftReset 0 |>.setReg page Rg.pageStatusResetBusy 0
      match page.kind with
      | .core => startProbe page.inst 15 t
      | .sigc => if t.flag page Rg.pageControlEnable then setSigcEnable page.inst true t else t
      | .hbmc => (t.setReg rsetPage Rg.rsetHbmReadyStacks (t.reg rsetPage Rg.rsetHbmReadyStacks ||| 2 ^ page.inst)).setReg page
          Rg.pageStatusFenced 0
      | _ => t)

/-! ### ENABLE and FREEZE -/

/-- A write of ENABLE on a page (R46, R190, R352, R354, R439, R470). DEDUCED: log entry 16. -/
def setEnable (p : Page) (on : Bool) (s : State) : State :=
  let k := p.inst
  if enableFixed p.kind then s
  else
    match p.kind with
    | .part =>
      if !on then disablePart k s
      else if s.partOn k then s
      else
        match enableRefused s k with
        | some (c, u, d) => s.error p c u d
        | none => enableNow k 0 s
    | .sigc => setSigcEnable k on s
    | .aqzl => if on then s.setReg p Rg.pageControlEnable 1 else portOff k (s.setReg p Rg.pageControlEnable 0)
    | .ethp =>
      if !portInUse s k then s
      else if on then s.setReg p Rg.pageControlEnable 1 else linkDrops k (s.setReg p Rg.pageControlEnable 0)
    | _ => s.setReg p Rg.pageControlEnable (bit on)

/-- A write of ENABLE while SOFT_RESET reads 1 (R47): the header takes it, and the block acts on it once the reset is complete. A
partition's is checked as ever. DEDUCED: log entry 16. -/
def storeEnable (p : Page) (on : Bool) (s : State) : State :=
  if p.kind = .part then setEnable p on s
  else if enableFixed p.kind || (p.kind == .ethp && !portInUse s p.inst) then s
  else s.setReg p Rg.pageControlEnable (bit on)

/-- ENABLE_WRITE (R46, R47, R627). -/
def execEnableWrite (who : Requester) (page : Page) (on : Bool) (s : State) : Host.Outcome State Fault Refusal :=
  .next (if !pageOk page then s
    else writeAccess who page 0x010 (fun t => if t.flag page Rg.pageControlSoftReset then storeEnable page on t else setEnable page on t) s)

/-- BLOCK_OPERATING (R125, R627): the block of an enabled page operates; a core only after its probe, that of bring-up too. DEDUCED: log
entry 16. -/
def execBlockOperating (page : Page) (s : State) : Host.Outcome State Fault Refusal :=
  .next (if s.alive && pageOk page && s.flag page Rg.pageControlEnable && !s.flag page Rg.pageControlSoftReset &&
      !(page.kind == .core && (s.flag page Rg.coreSkewProbeBusy || s.plat.phase != .running)) then s.setReg page Rg.pageStatusEnabled 1
    else s)

/-- BLOCK_STOPPED (R627): the block of a page whose ENABLE was cleared takes no more work. DEDUCED: log entry 16. -/
def execBlockStopped (page : Page) (s : State) : Host.Outcome State Fault Refusal :=
  .next (if s.alive && pageOk page && !s.flag page Rg.pageControlEnable then s.setReg page Rg.pageStatusEnabled 0 else s)

/-- FREEZE is set on a page: a wait in which a core is blocked is abandoned, to run again when FREEZE clears (R628). -/
def freezePage (page : Page) (s : State) : State :=
  let t := s.setReg page Rg.pageControlFreeze 1
  match page.kind with
  | .core =>
    settleGap page.inst (match (t.core page.inst).run with
      | .blocked _ => (leaveWaits (coreAgent page.inst) t).modCore page.inst fun x => { x with run := .running }
      | _ => t)
  | _ => t

/-- FREEZE is cleared on a page: the block resumes at once (R627). -/
def thawPage (page : Page) (s : State) : State :=
  let t := s.setReg page Rg.pageControlFreeze 0 |>.setReg page Rg.pageStatusFrozen 0
  match page.kind with
  | .core => settleGap page.inst t
  | .part => choose page.inst t
  | _ => t

/-- FREEZE_WRITE (R46, R47, R627, R628). DESIGN CHOICE: log entry 15. -/
def execFreezeWrite (who : Requester) (page : Page) (on : Bool) (s : State) : Host.Outcome State Fault Refusal :=
  .next (if !pageOk page then s
    else writeAccess who page 0x010 (fun t => if on then freezePage page t else thawPage page t) s)

/-- The unit of work of a page's block is done (R627, R628): a core's engine commands and probe, a signal core's DMA descriptors, the coding
descriptors and the fills that run, the host commands that have started, the requests that the fabric serves, the flits of a port, the
timestamps of a port's frames, a stack's repair, and the steps of a partition's streams. DESIGN CHOICE: log entry 15. -/
def unitDone (s : State) (p : Page) : Bool :=
  match p.kind with
  | .core => enginesIdle (s.core p.inst) && !s.flag p Rg.coreSkewProbeBusy
  | .sigc => (s.sigc p.inst).dma.all fun e => e.2.queue.isEmpty || !e.2.started
  | .code => s.coding.running.isEmpty
  | .msid => s.tier.sluices.all fun e => e.1 / 16 != p.inst || !e.2.filling
  | .qmgr => s.host.longs.isEmpty && s.host.cmds.all fun c => !c.started
  | .fabr => s.fabric.out.isEmpty && (s.fabric.dir.all fun e => e.2.awaits.isEmpty && e.2.waiting.isEmpty) &&
      (s.fabric.reps.all fun e => e.2.awaits.isEmpty && e.2.waiting.isEmpty) && s.fabric.copies.all fun e => !e.2.asked
  | .aqzl => (linkOf s p.inst).replay.isEmpty && (linkOf s p.inst).partials.isEmpty
  | .ethp => (tabGet {} p.inst s.eth.ports).awaited.isEmpty
  | .hbmc => match s.ras.ppr with
    | some v => v.toNat % 32 != p.inst
    | none => true
  | .part => s.serve.streams.all fun e => e.2.part != p.inst || !e.2.inStep
  | _ => true

/-- BLOCK_FROZEN (R627, R628): FROZEN reads 1 once the block holds. DESIGN CHOICE: log entry 15. -/
def execBlockFrozen (page : Page) (s : State) : Host.Outcome State Fault Refusal :=
  .next (if s.alive && pageOk page && s.frozen page && unitDone s page then s.setReg page Rg.pageStatusFrozen 1 else s)

end Sys2Proof.Machine
end

