-- ==== Sys2Proof/Machine/Scalar.lean ====
section
/-! DEFINITION. The scalar instructions of a compute core: arithmetic, branches, LD and ST (R132, R135, R162). -/

namespace Sys2Proof.Machine

/-- The second operand of a scalar instruction. -/
def scalarSrc (x : Core) : ScalarSrc → BitVec 64
  | .reg r => getG x r
  | .imm v => v

/-- A divide or remainder by zero (R135). -/
def divByZero (o : ScalarOp) (b : BitVec 64) : Bool :=
  b == 0 && (o == .divS || o == .divU || o == .remS || o == .remU)

/-- A truth value in a general register. -/
def boolWord (b : Bool) : BitVec 64 := if b then 1 else 0

/-- The result of a scalar operation. A shift by 64 or more and a signed quotient that 64 bits cannot hold have no stated value. DESIGN
CHOICE: log entry 40. -/
def scalarValue (o : ScalarOp) (a b : BitVec 64) : BitVec 64 :=
  let big := decide (b.toNat ≥ 64)
  let ovf := a == BitVec.intMin 64 && b == BitVec.allOnes 64
  match o with
  | .add => a + b
  | .sub => a - b
  | .and => a &&& b
  | .or => a ||| b
  | .xor => a ^^^ b
  | .shl => if big then Config.scalarOpen o a b else a <<< b.toNat
  | .shr => if big then Config.scalarOpen o a b else a >>> b.toNat
  | .sar => if big then Config.scalarOpen o a b else a.sshiftRight b.toNat
  | .mul => a * b
  | .divS => if ovf then Config.scalarOpen o a b else a.sdiv b
  | .divU => a / b
  | .remS => if ovf then Config.scalarOpen o a b else a.srem b
  | .remU => a % b
  | .cmpEq => boolWord (a == b)
  | .cmpLtS => boolWord (a.slt b)
  | .cmpLtU => boolWord (a.ult b)

/-- Leading zeros of a 64-bit word. -/
def clz64 (a : BitVec 64) : Nat := 64 - bitlen a.toNat

/-- A scalar arithmetic instruction on a core that executes it. -/
def scalarBody (c : Nat) (insn : ScalarInsn) (s : State) : State :=
  let x := s.core c
  match insn with
  | .op o rd ra b =>
    if divByZero o (scalarSrc x b) then trap c 0x06 0 s
    else s.setCore c (advance (setG rd (scalarValue o (getG x ra) (scalarSrc x b)) x))
  | .select rd rc ra b => s.setCore c (advance (setG rd (if getG x rc != 0 then getG x ra else scalarSrc x b) x))
  | .clz rd ra => s.setCore c (advance (setG rd (BitVec.ofNat 64 (clz64 (getG x ra))) x))
  | .illegal word => trapIllegal c word.toNat s

/-- A word of the scalar arithmetic group; an illegal word is the one given, wherever its codes are reserved (R134, R135). DEDUCED: log
entry 116. -/
def scalarSpelled (insn : ScalarInsn) (w : Nat) : Bool :=
  match insn with
  | .illegal word => w == word.toNat && mayBeReserved w
  | _ => inGroupOf 0x00 0x0F w

/-- SCALAR_INSTRUCTION (R132, R135). -/
def execScalarInstruction (c : Fin 160) (insn : ScalarInsn) (s : State) : Host.Outcome State Fault Refusal :=
  .next (runInsn c (scalarSpelled insn) (scalarBody c insn) s)

/-- Whether a branch is taken. -/
def branchTaken (k : BranchCond) (a b : BitVec 64) : Bool :=
  match k with
  | .eq => a == b
  | .ne => a != b
  | .ltS => a.slt b
  | .geS => !a.slt b
  | .ltU => a.ult b
  | .geU => !a.ult b

/-- An instruction address from a target: the program counter is always a multiple of 4 (R132). -/
def pcAt (t : BitVec 18) : BitVec 18 := t &&& 0x3FFFC

/-- A branch or jump on a core that executes it; an indirect jump to an address that is no multiple of 4 traps, and one to an address of
2^18 or above keeps its low 18 bits. DESIGN CHOICE: log entry 114. -/
def branchBody (c : Nat) (insn : BranchInsn) (s : State) : State :=
  let x := s.core c
  match insn with
  | .cond k ra rb t =>
    s.setCore c (if branchTaken k (getG x ra) (getG x rb) then { x with pc := pcAt t } else advance x)
  | .jump t => s.setCore c { x with pc := pcAt t }
  | .jumpLink rd t => s.setCore c { setG rd (BitVec.ofNat 64 (x.pc + 4).toNat) x with pc := pcAt t }
  | .indirect ra =>
    if (getG x ra).toNat % 4 ≠ 0 then trap c 0x03 (getG x ra).toNat s
    else s.setCore c { x with pc := (getG x ra).setWidth 18 }
  | .illegal word => trapIllegal c word.toNat s

/-- A word of the branch group (R134). DEDUCED: log entry 116. -/
def branchSpelled (insn : BranchInsn) (w : Nat) : Bool :=
  inGroupOf 0x10 0x17 w && match insn with
    | .illegal word => w == word.toNat
    | _ => true

/-- BRANCH_INSTRUCTION (R132, R135). -/
def execBranchInstruction (c : Fin 160) (insn : BranchInsn) (s : State) : Host.Outcome State Fault Refusal :=
  .next (runInsn c (branchSpelled insn) (branchBody c insn) s)

/-- Bytes of a scalar access. -/
def widthBytes : ScalarWidth → Nat
  | .b8 => 1
  | .b16 => 2
  | .b32 => 4
  | .b64 => 8

/-- A loaded value in a general register. -/
def extendLoad (w : ScalarWidth) (sgn : Bool) (v : Nat) : BitVec 64 :=
  if sgn then BitVec.ofInt 64 (signed (8 * widthBytes w) v) else BitVec.ofNat 64 v

/-- LD: read the scratchpad (R133, R152). -/
def ldBody (c : Nat) (w : ScalarWidth) (sgn : Bool) (rd ra : Fin 32) (offset : BitVec 64) (s : State) : State :=
  let x := s.core c
  let a := (getG x ra + offset).toNat
  let n := widthBytes w
  if a % n ≠ 0 then trap c 0x03 a s
  else if a ≥ 2 ^ 22 then trap c 0x04 a s
  else
    let t := s.readEffect .spad (spadKey c a) n
    match s.spadRead c a n with
    | none => trapDataUe c a t
    | some bs => (spadWait c t).setCore c (advance (setG rd (extendLoad w sgn (leNat bs)) x))

/-- A raw load of a signal core (R191, R198): data that cannot be read trap with DATA_UE. The loaded value stands where the register is the
address register too. DEDUCED: log entry 119. -/
def rawLoad (k a : Nat) (pre : Bool) (step : Int) (w : ScalarWidth) (sgn : Bool) (rd : Fin 32) (s : State) : State :=
  rawInsn k a (widthBytes w) pre step (fun next at_ t =>
    let u := t.readEffect .dmem (dmemKey k at_) (widthBytes w)
    match readAll .dmem t.mem.dmem (dmemKey k at_) (widthBytes w) with
    | none => strapDataUe k at_ u
    | some bs => sDone k (dmemWait k false (u.setSigc k (setAK rd (extendLoad w sgn (leNat bs)) (setA a next (u.sigc k)))))) s

/-- LD (R133, R152, R191). -/
def execLd (place : ScalarPlace) (width : ScalarWidth) (signed : Bool) (rd : Fin 32) (s : State) : Host.Outcome State Fault Refusal :=
  .next (match place with
    | .core c ra offset => runInsn c (inGroupOf 0x18 0x1B) (ldBody c width signed rd ra offset) s
    | .post k a step => runSInsn k (rawLoad k a false step.toInt width signed rd) s
    | .pre k a step => runSInsn k (rawLoad k a true step.toInt width signed rd) s)

/-- ST: write the scratchpad; a store narrower than its 64-bit word reads the rest of the word, and where that is
uncorrectable it traps and writes nothing (R162). -/
def stBody (c : Nat) (w : ScalarWidth) (rs ra : Fin 32) (offset : BitVec 64) (s : State) : State :=
  let x := s.core c
  let a := (getG x ra + offset).toNat
  let n := widthBytes w
  if a % n ≠ 0 then trap c 0x03 a s
  else if a ≥ 2 ^ 22 then trap c 0x04 a s
  else if n < 8 ∧ cwBad .spad s.mem.spad (spadKey c a / 8) then
    trapDataUe c a (s.readEffect .spad (spadKey c a) n)
  else
    let t := if n < 8 then s.readEffect .spad (spadKey c a) n else s
    (spadWait c (t.spadWrite c a (toBytes n (getG x rs).toNat))).setCore c (advance x)

/-- A raw store of a signal core (R198): it leaves the line's tag as it is, and a word that it writes in part follows R631. DEDUCED: log
entry 119. -/
def rawStore (k a : Nat) (pre : Bool) (step : Int) (w : ScalarWidth) (rs : Fin 32) (s : State) : State :=
  rawInsn k a (widthBytes w) pre step (fun next at_ t =>
    let u := t.store .dmem (dmemKey k at_) (toBytes (widthBytes w) (getAK (t.sigc k) rs).toNat)
    sDone k (dmemWait k false (u.setSigc k (setA a next (u.sigc k))))) s

/-- ST (R133, R162, R198). -/
def execSt (place : ScalarPlace) (width : ScalarWidth) (rs : Fin 32) (s : State) : Host.Outcome State Fault Refusal :=
  .next (match place with
    | .core c ra offset => runInsn c (inGroupOf 0x18 0x1B) (stBody c width rs ra offset) s
    | .post k a step => runSInsn k (rawStore k a false step.toInt width rs) s
    | .pre k a step => runSInsn k (rawStore k a true step.toInt width rs) s)

end Sys2Proof.Machine
end

