-- ==== Sys2Proof/Machine/Vector.lean ====
section
/-! DEFINITION. The vector unit (R148 to R154). -/

namespace Sys2Proof.Machine

/-- Element width in bits of a lane code (R148). -/
def laneBits : Lane → Nat
  | .z8 | .i8 => 8
  | .z4 => 4
  | .z16b16 | .z16b24 | .z16b32 | .i16 => 16
  | .i32 => 32

/-- Elements of a register under a lane code (R148). -/
def laneCount : Lane → Nat
  | .z8 | .i8 => 256
  | .z4 => 512
  | .z16b24 => 120
  | .z16b16 | .z16b32 | .i16 => 128
  | .i32 => 64

/-- Elements of a block; 0 for a raw lane (R148). -/
def laneBlock : Lane → Nat
  | .z8 | .z4 | .z16b32 => 32
  | .z16b16 => 16
  | .z16b24 => 24
  | .i8 | .i16 | .i32 => 0

/-- The LANE code (R148). -/
def laneCode : Lane → Nat
  | .z8 => 0
  | .z4 => 1
  | .z16b16 => 2
  | .z16b24 => 3
  | .z16b32 => 4
  | .i8 => 5
  | .i16 => 6
  | .i32 => 7

/-- A word of a vector class with the registers that the operation names and its lane code (R150). The function codes are not given.
DEDUCED: log entry 116. -/
def vecSpelled (cls : Nat) (d a : Fin 32) (b : Option (Fin 32)) (lane : Option Lane) (w : Nat) : Bool :=
  majorOf w == cls && wordField w 25 21 == d.val && wordField w 20 16 == a.val &&
    (b.map fun r => wordField w 15 11 == r.val).getD true && (lane.map fun l => wordField w 10 8 == laneCode l).getD true

/-- A raw integer lane: its companion is unused. -/
def laneRaw (l : Lane) : Bool := laneBlock l == 0

/-- Blocks of a register under a lane code (R148). -/
def laneBlocks (l : Lane) : Nat := if laneRaw l then 0 else laneCount l / laneBlock l

/-- A vector register. -/
def getV (x : Core) (r : Fin 32) : VReg := tabGet {} r.val x.vreg

/-- Write a vector register. -/
def setV (r : Fin 32) (v : VReg) (x : Core) : Core := { x with vreg := tabPut {} r.val v x.vreg }

/-- The elements of a register as signed integers. -/
def vElems (l : Lane) (v : VReg) : List Int :=
  (List.range (laneCount l)).map fun i => (v.data.extractLsb' (laneBits l * i) (laneBits l)).toInt

/-- The exponent byte of a block. -/
def vExp (v : VReg) (b : Nat) : BitVec 8 := v.scale.extractLsb' (8 * b) 8

/-- A block is poisoned (R61). -/
def vPoisoned (v : VReg) (b : Nat) : Bool := vExp v b == 0x80

/-- Elements packed into 2,048 bits, each wrapped to its lane width; positions past them are 0. -/
def vPack (l : Lane) (xs : List Int) : BitVec 2048 :=
  BitVec.ofNat 2048 (xs.foldr (fun x t => (BitVec.ofInt (laneBits l) x).toNat + 2 ^ laneBits l * t) 0)

/-- Exponent bytes packed into a companion; the bytes past them keep old's. -/
def scalePack (es : List (BitVec 8)) (old : BitVec 128) : BitVec 128 :=
  let n := 8 * es.length
  BitVec.ofNat 128 (es.foldr (fun e t => e.toNat + 256 * t) 0 + old.toNat / 2 ^ n * 2 ^ n)

/-- A value of a Z-format element: mantissa and exponent of two. -/
abbrev ExactVal := Int × Int

/-- The exact values of a register's elements, an integer of a raw lane having exponent 0, and whether each element's block
is poisoned. -/
def vValues (l : Lane) (v : VReg) : List (ExactVal × Bool) :=
  (vElems l v).mapIdx fun i m =>
    if laneRaw l then ((m, 0), false)
    else ((m, (vExp v (i / laneBlock l)).toInt), vPoisoned v (i / laneBlock l))

/-- A register's new contents from exact element values, with the flags they set: blocks by R81 with q = 1 and s = 0 for a
Z-format (R149), lanes wrapped modulo their width for a raw integer. -/
def vForm (l : Lane) (vals : List (ExactVal × Bool)) (old : VReg) : VReg × Nat :=
  if laneRaw l then ({ old with data := vPack l (vals.map fun x => scaleEven x.1.1 x.1.2) }, 0)
  else
    let blk := fun b => (vals.drop (b * laneBlock l)).take (laneBlock l)
    let outs := (List.range (laneBlocks l)).map fun b => storeExact (laneBits l) ((blk b).any (·.2)) ((blk b).map (·.1))
    ({ data := vPack l (outs.map (·.elems)).flatten, scale := scalePack (outs.map (·.exp)) old.scale },
     bit (outs.any (·.sat)) + 8 * bit (outs.any (·.poison)))

/-- Write a vector result of a core and its flags, and go on. -/
def vWrite (c : Nat) (vd : Fin 32) (r : VReg × Nat) (s : State) : State :=
  orFlags c r.2 (s.setCore c (advance (setV vd r.1 (s.core c))))

/-- The sum of two exact values. -/
def evAdd (a b : ExactVal) : ExactVal :=
  let p := min a.2 b.2
  (a.1 * 2 ^ (a.2 - p).toNat + b.1 * 2 ^ (b.2 - p).toNat, p)

/-- The product of two exact values. -/
def evMul (a b : ExactVal) : ExactVal := (a.1 * b.1, a.2 + b.2)

/-- The negative of an exact value. -/
def evNeg (a : ExactVal) : ExactVal := (-a.1, a.2)

/-- a < b, exactly. -/
def evLt (a b : ExactVal) : Bool := decide ((evAdd a (evNeg b)).1 < 0)

/-- a = b, exactly. -/
def evEq (a b : ExactVal) : Bool := decide ((evAdd a (evNeg b)).1 = 0)

/-- Combine two lists of values lane by lane; poison is the OR (R85). -/
def vZip (f : ExactVal → ExactVal → ExactVal) (a b : List (ExactVal × Bool)) : List (ExactVal × Bool) :=
  List.zipWith (fun x y => (f x.1 y.1, x.2 || y.2)) a b

/-- An elementwise operation (class 0x24); multiply-add adds the product to vd. -/
def vElemValues (op : VecElem) (d a b : List (ExactVal × Bool)) : List (ExactVal × Bool) :=
  match op with
  | .add => vZip evAdd a b
  | .sub => vZip (fun x y => evAdd x (evNeg y)) a b
  | .mul => vZip evMul a b
  | .madd => vZip evAdd d (vZip evMul a b)
  | .abs => a.map fun x => (((x.1.1.natAbs : Int), x.1.2), x.2)
  | .neg => a.map fun x => (evNeg x.1, x.2)

/-- The exact values of a d register's elements, and whether it is poisoned (R193). DEDUCED: log entry 119. -/
def dValues (v : DReg) : List (ExactVal × Bool) := (dElems v).map fun m => ((m, v.exp.toInt), dPoison v)

/-- A vector result of a signal core (R149, R193): one Z16 block of 32 formed by R81 from exact values, with its flags, and the instruction
is complete. DEDUCED: log entry 119. -/
def dWrite (k : Nat) (dd : Fin 64) (vals : List (ExactVal × Bool)) (s : State) : State :=
  let o := storeExact 16 (vals.any (·.2)) (vals.map (·.1))
  sDone k (sFlags k o.sat o.poison (s.setSigc k (setD dd ⟨dPack o.elems, o.exp⟩ (s.sigc k))))

/-- VECTOR_ELEMENTWISE (R149, R150, R193). -/
def execVectorElementwise (op : VecElem) (regs : VecRegs) (s : State) : Host.Outcome State Fault Refusal :=
  .next (match regs with
    | .core c vd va vb lane =>
      runInsn c (vecSpelled 0x24 vd va (if op = .abs ∨ op = .neg then none else some vb) (some lane)) (fun t =>
        let x := t.core c
        let vals := vElemValues op (vValues lane (getV x vd)) (vValues lane (getV x va)) (vValues lane (getV x vb))
        vWrite c vd (vForm lane vals (getV x vd)) t) s
    | .sigc k dd da db =>
      runSInsn k (fun t =>
        let x := t.sigc k
        dWrite k dd (vElemValues op (dValues (getD x dd)) (dValues (getD x da)) (dValues (getD x db))) t) s)

/-- The unsigned amount of a shift lane. -/
def shiftAmount (l : Lane) (m : Int) : Nat := (BitVec.ofInt (laneBits l) m).toNat

/-- A shift, compare, select, minimum or maximum (class 0x25). Shifts take each lane's amount from vb; select takes va where
the lane of vd is not the false value. -/
def vShiftValues (op : VecShiftCmp) (l : Lane) (d a b : List (ExactVal × Bool)) : List (ExactVal × Bool) :=
  let truth := fun (t : Bool) => ((if t then Config.compareTrue l else Config.compareFalse l, 0) : ExactVal)
  match op with
  | .shl => vZip (fun x y => (x.1, x.2 + shiftAmount l y.1)) a b
  | .shrRound => vZip (fun x y => (x.1, x.2 - shiftAmount l y.1)) a b
  | .cmpEq => vZip (fun x y => truth (evEq x y)) a b
  | .cmpLt => vZip (fun x y => truth (evLt x y)) a b
  | .cmpLe => vZip (fun x y => truth (!evLt y x)) a b
  | .select =>
    List.zipWith (fun m xy => ((if evEq m.1 (truth false) then xy.2.1 else xy.1.1), m.2 || xy.1.2 || xy.2.2)) d (a.zip b)
  | .min => vZip (fun x y => if evLt y x then y else x) a b
  | .max => vZip (fun x y => if evLt x y then y else x) a b

/-- VECTOR_SHIFT_COMPARE (R149, R150, R193). DESIGN CHOICE: log entry 41. -/
def execVectorShiftCompare (op : VecShiftCmp) (regs : VecRegs) (s : State) : Host.Outcome State Fault Refusal :=
  .next (match regs with
    | .core c vd va vb lane =>
      runInsn c (vecSpelled 0x25 vd va (some vb) (some lane)) (fun t =>
        let x := t.core c
        let vals := vShiftValues op lane (vValues lane (getV x vd)) (vValues lane (getV x va)) (vValues lane (getV x vb))
        vWrite c vd (vForm lane vals (getV x vd)) t) s
    | .sigc k dd da db =>
      runSInsn k (fun t =>
        let x := t.sigc k
        dWrite k dd (vShiftValues op .z16b32 (dValues (getD x dd)) (dValues (getD x da)) (dValues (getD x db))) t) s)

/-- One level of the pairwise tree of R151: neighbours are combined in lane order. -/
def pairUp (f : ExactVal → ExactVal → ExactVal) : List ExactVal → List ExactVal
  | x :: y :: r => f x y :: pairUp f r
  | l => l

/-- The pairwise tree over the lanes (R151); n bounds its depth. -/
def treeReduce (f : ExactVal → ExactVal → ExactVal) : Nat → List ExactVal → ExactVal
  | _, [] => (0, 0)
  | _, [x] => x
  | 0, x :: _ => x
  | n + 1, l => treeReduce f n (pairUp f l)

/-- The combining step of a reduction. -/
def redStep : VecRed → ExactVal → ExactVal → ExactVal
  | .sum => evAdd
  | .max => fun x y => if evLt x y then y else x
  | .min => fun x y => if evLt y x then y else x

/-- A reduced value in a general register: an integer of a raw lane, a Z-format value in Q15.16 (the softmax sequence); none
where Q15.16 does not hold it. -/
def redWord (l : Lane) (v : ExactVal) : Option (BitVec 64) :=
  if laneRaw l then some (BitVec.ofInt 64 (scaleEven v.1 v.2))
  else
    let p := v.2 + 16
    if p < 0 ∧ v.1 % 2 ^ (-p).toNat ≠ 0 then none else some (BitVec.ofInt 64 (scaleEven v.1 p))

/-- The lane code in which a reduction's result stands in lane 0: a raw sum in an I32 lane (R151). -/
def redLane (op : VecRed) (l : Lane) : Lane := if laneRaw l ∧ op = .sum then .i32 else l

/-- Replace n bits of a word from bit lo on. -/
def putBits {k : Nat} (d : BitVec k) (lo n v : Nat) : BitVec k :=
  (d &&& ~~~((BitVec.ofNat k (2 ^ n - 1)) <<< lo)) ||| ((BitVec.ofNat k (v % 2 ^ n)) <<< lo)

/-- A register with one lane replaced, and the flags that this sets: a raw lane wraps; the block of a Z-format lane is formed by R81 from
the lane's new value and the exact values of its other elements, and is poisoned where the value or the block is (R85, R149). The other
blocks stay as they are. DESIGN CHOICE: log entry 114. -/
def vSetLane (l : Lane) (i : Nat) (val : ExactVal × Bool) (v : VReg) : VReg × Nat :=
  if laneRaw l then ({ v with data := putBits v.data (laneBits l * i) (laneBits l) (BitVec.ofInt 64 (scaleEven val.1.1 val.1.2)).toNat }, 0)
  else
    let b := i / laneBlock l
    let blk := (((vValues l v).set i val).drop (b * laneBlock l)).take (laneBlock l)
    let o := storeExact (laneBits l) (blk.any (·.2)) (blk.map (·.1))
    let w := laneBits l * laneBlock l
    ({ data := putBits v.data (w * b) w (vPack l o.elems).toNat, scale := putBits v.scale (8 * b) 8 o.exp.toNat },
     bit o.sat + 8 * bit o.poison)

/-- The register in which a reduction's result goes. -/
def redReg : RedDest → Fin 32
  | .lane0 vd => vd
  | .gpr gd => gd

/-- The value that a reduction of lanes gives, and whether an operand is poisoned (R151). -/
def redValue (op : VecRed) (vals : List (ExactVal × Bool)) : ExactVal × Bool :=
  (treeReduce (redStep op) 10 (vals.map (·.1)), vals.any (·.2))

/-- A reduction on a core that executes it: a poisoned operand gives lane 0 a poisoned block and a general register no stated value. -/
def reduceBody (c : Nat) (op : VecRed) (dest : RedDest) (va : Fin 32) (lane : Lane) (t : State) : State :=
  let x := t.core c
  let r := redValue op (vValues lane (getV x va))
  match dest with
  | .lane0 vd => vWrite c vd (vSetLane (redLane op lane) 0 r (getV x vd)) t
  | .gpr gd =>
    let w := (if r.2 then none else redWord lane r.1).getD (t.free 64)
    (orFlags c (if r.2 then 8 else 0) (t.setCore c (advance (setG gd w x)))).usedFree

/-- VECTOR_REDUCE (R150, R151, R193). DESIGN CHOICE: log entry 114. -/
def execVectorReduce (op : VecRed) (regs : RedRegs) (s : State) : Host.Outcome State Fault Refusal :=
  .next (match regs with
    | .core c dest va lane => runInsn c (vecSpelled 0x26 (redReg dest) va none (some lane)) (reduceBody c op dest va lane) s
    | .sigc k dd da =>
      runSInsn k (fun t =>
        let x := t.sigc k
        dWrite k dd ((dValues (getD x dd)).set 0 (redValue op (dValues (getD x da)))) t) s)

/-- The value of an element under another lane code (class 0x27): the value itself between Z-formats and between raw lanes,
Q15.16 in an I32 lane, and for raw lanes of 8 and 16 bits an integer that the spec does not state. -/
def convertValue (l m : Lane) (v : ExactVal) : ExactVal :=
  match laneRaw l, laneRaw m with
  | false, true => if m = .i32 then (scaleEven v.1 (v.2 + 16), 0) else (Config.zToRaw m v.1 v.2, 0)
  | true, false => (v.1, if l = .i32 then -16 else Config.rawExponent l)
  | _, _ => v

/-- A list cut or filled with zeros to n entries. -/
def fitTo (n : Nat) (l : List (ExactVal × Bool)) : List (ExactVal × Bool) :=
  (l ++ List.replicate (n - l.length) ((0, 0), false)).take n

/-- The requantization entry of lane i in a register of R79 entries. -/
def vEntry (v : VReg) (i : Nat) : Nat × Nat :=
  let w := (v.data.extractLsb' (32 * (i % 64)) 32).toNat
  (w % 2 ^ 16, w / 2 ^ 16 % 64)

/-- VECTOR_REQUANTIZE (R79, R150). A raw lane converted from a poisoned block has no stated value. DESIGN CHOICE: log entry 114. -/
def execVectorRequantize (c : Fin 160) (op : VecConv) (vd va vb : Fin 32) (lane target : Lane) (s : State) :
    Host.Outcome State Fault Refusal :=
  .next (runInsn c (vecSpelled 0x27 vd va (if op = .requantize then some vb else none) (some lane)) (fun t =>
    let x := t.core c
    let vals := vValues lane (getV x va)
    let vals := if op = .requantize then
        (vals.mapIdx fun i v =>
          ((v.1.1 * ((vEntry (getV x vb) i).1 : Int), v.1.2 - ((vEntry (getV x vb) i).2 : Int)), v.2) : List (ExactVal × Bool))
      else vals
    let vals := if op = .requantize ∧ laneRaw lane ∧ laneRaw target then vals
      else vals.map fun v => (convertValue lane target v.1, v.2)
    let open_ := t.free 2048
    let vals := if laneRaw target then vals.mapIdx fun i v =>
        if v.2 then (((open_.extractLsb' (laneBits target * i) (laneBits target)).toInt, 0), false) else v
      else vals
    let r := vForm target (fitTo (laneCount target) vals) (getV x vd)
    (vWrite c vd (r.1, r.2 ||| (if (vValues lane (getV x va)).any (·.2) then 8 else 0)) t).usedFree) s)

/-- The table of VPOLY (R153): XMIN, SEGSHIFT, SEGMENTS, DEGREE and the coefficients, segment by segment. -/
structure PolyTable where
  xmin : Int
  segShift : Nat
  segments : Nat
  degree : Nat
  coef : List Int
  deriving DecidableEq, Repr

/-- Clamp to the I32 range, and whether that changed the value. -/
def satI32 (x : Int) : Int × Bool :=
  if x > 2 ^ 31 - 1 then (2 ^ 31 - 1, true) else if x < -(2 ^ 31) then (-(2 ^ 31), true) else (x, false)

/-- VPOLY on one lane (R153): the clamped input, its segment, and Horner's rule with each product rounded half to even to 16
fraction bits. -/
def polyEval (p : PolyTable) (x : Int) : Int × Bool :=
  let top := p.xmin + p.segments * 2 ^ p.segShift - 1
  let x := max p.xmin (min x top)
  let k := ((x - p.xmin) / 2 ^ p.segShift).toNat
  let t := (x - p.xmin) % 2 ^ p.segShift
  let cs := (p.coef.drop (k * (p.degree + 1))).take (p.degree + 1)
  match cs.reverse with
  | [] => (0, false)
  | h :: r => satI32 (r.foldl (fun a k => roundEven (a * t) 16 + k) h)

/-- Read a signed 32-bit number of a core's scratchpad. -/
def spadI32 (s : State) (c a : Nat) : Option Int := (s.spadRead c a 4).map fun b => signed 32 (leNat b)

/-- The coefficients that a header of VPOLY's table counts. -/
def polyCount (h : List Byte) : Nat := (h.getD 5 0).toNat * ((h.getD 6 0).toNat + 1)

/-- Read the table of VPOLY after its header: none where a coefficient cannot be read. -/
def readPoly (s : State) (c a : Nat) (h : List Byte) : Option PolyTable :=
    let g := fun i => ((h.getD i 0).toNat)
    match (List.range (polyCount h)).mapM fun i => spadI32 s c (a + 16 + 4 * i) with
    | none => none
    | some cs => some ⟨signed 32 (leNat (h.take 4)), g 4, g 5, g 6, cs⟩

/-- The header's values lie in the ranges of R153. -/
def polyOk (p : PolyTable) : Bool :=
  decide (p.segShift ≤ 31 ∧ 1 ≤ p.segments ∧ p.segments ≤ 64 ∧ 1 ≤ p.degree ∧ p.degree ≤ 3)

/-- VPOLY (R153): a table out of its ranges gives lanes without a stated value; one that cannot be read traps DATA_UE, one
past 4 MiB traps SPAD_RANGE. -/
def execVpoly (c : Fin 160) (vd va gb : Fin 32) (s : State) : Host.Outcome State Fault Refusal :=
  .next (runInsn c (vecSpelled 0x28 vd va (some gb) none) (fun t =>
    let x := t.core c
    let a := (getG x gb).toNat
    if a + 16 > 2 ^ 22 then trap c 0x04 a t
    else
      match t.spadRead c a 16 with
      | none => trapDataUe c a (t.readEffect .spad (spadKey c a) 16)
      | some h =>
        let n := 16 + 4 * polyCount h
        if a + n > 2 ^ 22 then trap c 0x04 a t
        else
          let u := t.readEffect .spad (spadKey c a) n
          match readPoly t c a h with
          | none => trapDataUe c a u
          | some p =>
            if polyOk p then
              let rs := (vElems .i32 (getV x va)).map (polyEval p)
              vWrite c vd ({ getV x vd with data := vPack .i32 (rs.map (·.1)) }, bit (rs.any (·.2))) (spadWait c u)
            else (vWrite c vd ({ getV x vd with data := t.free 2048 }, 0) u).usedFree) s)

/-- A permute, broadcast, interleave or de-interleave of n lanes (class 0x29). -/
def vPermValues (op : VecPerm) (l : Lane) (n : Nat) (a b : List (ExactVal × Bool)) : List (ExactVal × Bool) :=
  let at_ := fun (v : List (ExactVal × Bool)) i => v.getD i ((0, 0), false)
  match op with
  | .permute =>
    b.map fun ix =>
      let i := (BitVec.ofInt (laneBits l) ix.1.1).toNat
      let e := if i < n then at_ a i else ((Config.permuteOutside l i, 0), false)
      (e.1, e.2 || ix.2)
  | .broadcast => (List.range n).map fun _ => at_ a 0
  | .interleave => (List.range n).map fun i => if i % 2 = 0 then at_ a (i / 2) else at_ b (i / 2)
  | .deinterleave => (List.range n).map fun i => if i < n / 2 then at_ a (2 * i) else at_ a (2 * (i - n / 2) + 1)

/-- VECTOR_PERMUTE (R149, R150, R193). DESIGN CHOICE: log entry 41. -/
def execVectorPermute (op : VecPerm) (regs : VecRegs) (s : State) : Host.Outcome State Fault Refusal :=
  .next (match regs with
    | .core c vd va vb lane =>
      runInsn c (vecSpelled 0x29 vd va (if op = .permute ∨ op = .interleave then some vb else none) (some lane)) (fun t =>
        let x := t.core c
        let vals := vPermValues op lane (laneCount lane) (vValues lane (getV x va)) (vValues lane (getV x vb))
        vWrite c vd (vForm lane vals (getV x vd)) t) s
    | .sigc k dd da db =>
      runSInsn k (fun t =>
        let x := t.sigc k
        dWrite k dd (vPermValues op .z16b32 32 (dValues (getD x da)) (dValues (getD x db))) t) s)

/-- A move's word: its class, its two registers and its lane code (R150). -/
def moveSpelled (op : VecMove) (lane : Lane) : Nat → Bool :=
  match op with
  | .toLane vd ga _ => vecSpelled 0x2A vd ga none (some lane)
  | .fromLane gd va _ => vecSpelled 0x2A gd va none (some lane)

/-- VECTOR_MOVE (R150). An integer goes to a raw lane and comes from it as it is; a general register holds the value of a Z-format lane in
Q15.16, as a reduction gives it, and a lane of a poisoned block gives no stated value and sets POISON (R85, R86). DESIGN CHOICE: log entries
41, 114. -/
def execVectorMove (c : Fin 160) (op : VecMove) (lane : Lane) (s : State) : Host.Outcome State Fault Refusal :=
  .next (runInsn c (moveSpelled op lane) (fun t =>
    let x := t.core c
    match op with
    | .toLane vd ga i =>
      let v : ExactVal := ((getG x ga).toInt, if laneRaw lane then 0 else -16)
      vWrite c vd (vSetLane lane (i % laneCount lane) (v, false) (getV x vd)) t
    | .fromLane gd va i =>
      let e := (vValues lane (getV x va)).getD (i % laneCount lane) ((0, 0), false)
      let w := (if e.2 then none else redWord lane e.1).getD (t.free 64)
      (orFlags c (8 * bit e.2) (t.setCore c (advance (setG gd w x)))).usedFree) s)

/-- The faults of a vector load or store before it accesses memory (R135, R137, R152): none, or the trap's cause and
detail. -/
def vAddrTrap (x : Core) (ga gb : Fin 32) (lane : Lane) (rsvd : BitVec 8) : Option (Nat × Nat) :=
  let a := (getG x ga).toNat
  let e := (getG x gb).toNat
  if rsvd ≠ 0 ∨ (!laneRaw lane ∧ gb = 0) then some (0x02, 0)
  else if a % 64 ≠ 0 then some (0x03, a)
  else if a + 256 > 2 ^ 22 then some (0x04, a)
  else if !laneRaw lane ∧ e + laneBlocks lane > 2 ^ 22 then some (0x04, e)
  else none

/-- The instruction word of VLD or VST, for TRAP_DETAIL of ILLEGAL (R152, R184). -/
def vWord (major : Nat) (v ga gb : Fin 32) (lane : Lane) (rsvd : BitVec 8) : Nat :=
  major * 2 ^ 26 + v.val * 2 ^ 21 + ga.val * 2 ^ 16 + gb.val * 2 ^ 11 + laneCode lane * 2 ^ 8 + rsvd.toNat

/-- VLD (R152): a Z-format block that meets an uncorrectable error in either plane arrives poisoned, its elements without a
stated value; a raw load traps DATA_UE. -/
def vldBody (c : Nat) (vd ga gb : Fin 32) (lane : Lane) (rsvd : BitVec 8) (s : State) : State :=
  let x := s.core c
  match vAddrTrap x ga gb lane rsvd with
  | some (cause, d) => trap c cause (if cause = 0x02 then vWord 0x1C vd ga gb lane rsvd else d) s
  | none =>
    let a := (getG x ga).toNat
    let n := laneCount lane * laneBits lane / 8
    let bs := readBytes .spad s.mem.spad (spadKey c a) n
    let t := s.readEffect .spad (spadKey c a) n
    if laneRaw lane then
      if bs.any Option.isNone then trapDataUe c a t
      else (spadWait c t).setCore c (advance (setV vd { getV x vd with data := BitVec.ofNat 2048 (leNat (bs.map (·.getD 0))) } x))
    else
      let e := (getG x gb).toNat
      let es := readBytes .spad s.mem.spad (spadKey c e) (laneBlocks lane)
      let t := t.readEffect .spad (spadKey c e) (laneBlocks lane)
      let free := s.free 2048
      let per := laneBlock lane * laneBits lane / 8
      let exps := es.mapIdx fun b e =>
        if ((bs.drop (b * per)).take per).any Option.isNone then (0x80 : BitVec 8) else e.getD 0x80
      let data := bs.mapIdx fun i o => o.getD (free.extractLsb' (8 * i) 8)
      ((spadWait c t).setCore c (advance (setV vd ⟨BitVec.ofNat 2048 (leNat data), scalePack exps (getV x vd).scale⟩ x))).usedFree

/-- VLD (R152). -/
def execVld (c : Fin 160) (vd ga gb : Fin 32) (lane : Lane) (rsvd : BitVec 8) (s : State) :
    Host.Outcome State Fault Refusal :=
  .next (runInsn c (· == vWord 0x1C vd ga gb lane rsvd) (vldBody c vd ga gb lane rsvd) s)

/-- The register's 256 bytes as VST writes them: elements 120 to 127 of a block-24 lane are written 0 (R148). DEDUCED: log entry 42. -/
def vstBytes (lane : Lane) (v : VReg) : List Byte :=
  let d := if lane = .z16b24 then v.data &&& BitVec.ofNat 2048 (2 ^ 1920 - 1) else v.data
  toBytes 256 d.toNat

/-- VST (R152). Its exponent bytes in the scale plane follow R631: a partly written word whose rest cannot be read raises no trap (R162),
and its element write always covers whole words. DEDUCED: log entry 42. -/
def vstBody (c : Nat) (vs ga gb : Fin 32) (lane : Lane) (rsvd : BitVec 8) (s : State) : State :=
  let x := s.core c
  match vAddrTrap x ga gb lane rsvd with
  | some (cause, d) => trap c cause (if cause = 0x02 then vWord 0x1D vs ga gb lane rsvd else d) s
  | none =>
    let a := (getG x ga).toNat
    let v := getV x vs
    if laneRaw lane then (spadWait c (s.spadWrite c a (vstBytes lane v))).setCore c (advance x)
    else
      let e := (getG x gb).toNat
      (spadWait c ((s.spadWrite c a (vstBytes lane v)).spadWrite c e (toBytes (laneBlocks lane) v.scale.toNat))).setCore c (advance x)

/-- VST (R152). -/
def execVst (c : Fin 160) (vs ga gb : Fin 32) (lane : Lane) (rsvd : BitVec 8) (s : State) :
    Host.Outcome State Fault Refusal :=
  .next (runInsn c (· == vWord 0x1D vs ga gb lane rsvd) (vstBody c vs ga gb lane rsvd) s)

end Sys2Proof.Machine
end

