-- ==== Sys2Proof/Machine/Dispatch.lean ====
section
/-! DEFINITION. The dispatcher: one arm per command, each a direct call of its meaning. -/

namespace Sys2Proof.Machine

/-- What a command does to everything but the queue. DESIGN CHOICE: log entry 6. -/
def exec (i : Instr) (s : State) : Host.Outcome State Fault Refusal :=
  match i with
  | .powerOn vbatHeld => Sys2Proof.Machine.execPowerOn vbatHeld s
  | .supplyDrop rail ns => Sys2Proof.Machine.execSupplyDrop rail ns s
  | .resetAccept lowNs sinceReleaseNs arb => Sys2Proof.Machine.execResetAccept lowNs sinceReleaseNs arb s
  | .resetRelease netHigh => Sys2Proof.Machine.execResetRelease netHigh s
  | .bringupStart env => Sys2Proof.Machine.execBringupStart env s
  | .bringupDone => Sys2Proof.Machine.execBringupDone s
  | .refclkALoss => Sys2Proof.Machine.execRefclkALoss s
  | .thermalTrip die degrees => Sys2Proof.Machine.execThermalTrip die degrees s
  | .waveWindowEnd unit rate readMeets => Sys2Proof.Machine.execWaveWindowEnd unit rate readMeets s
  | .vddCoreStepUp die => Sys2Proof.Machine.execVddCoreStepUp die s
  | .vddCorePolicy die mvPower mvRate mvFloor => Sys2Proof.Machine.execVddCorePolicy die mvPower mvRate mvFloor s
  | .avsTransaction die mv ok => Sys2Proof.Machine.execAvsTransaction die mv ok s
  | .registerWrite who bytes offset value => Sys2Proof.Machine.execRegisterWrite who bytes offset value s
  | .registerReadClear who bytes offset event => Sys2Proof.Machine.execRegisterReadClear who bytes offset event s
  | .counterLatchRead who offset => Sys2Proof.Machine.execCounterLatchRead who offset s
  | .intStatusClear who page value event => Sys2Proof.Machine.execIntStatusClear who page value event s
  | .intForceWrite who page value => Sys2Proof.Machine.execIntForceWrite who page value s
  | .softReset who page value => Sys2Proof.Machine.execSoftReset who page value s
  | .softResetDone page => Sys2Proof.Machine.execSoftResetDone page s
  | .enableWrite who page on => Sys2Proof.Machine.execEnableWrite who page on s
  | .blockOperating page => Sys2Proof.Machine.execBlockOperating page s
  | .blockStopped page => Sys2Proof.Machine.execBlockStopped page s
  | .freezeWrite who page on => Sys2Proof.Machine.execFreezeWrite who page on s
  | .blockFrozen page => Sys2Proof.Machine.execBlockFrozen page s
  | .scalarInstruction c insn => Sys2Proof.Machine.execScalarInstruction c insn s
  | .branchInstruction c insn => Sys2Proof.Machine.execBranchInstruction c insn s
  | .ld place width signed rd => Sys2Proof.Machine.execLd place width signed rd s
  | .st place width rs => Sys2Proof.Machine.execSt place width rs s
  | .vld c vd ga gb lane rsvd => Sys2Proof.Machine.execVld c vd ga gb lane rsvd s
  | .vst c vs ga gb lane rsvd => Sys2Proof.Machine.execVst c vs ga gb lane rsvd s
  | .vectorElementwise op regs => Sys2Proof.Machine.execVectorElementwise op regs s
  | .vectorShiftCompare op regs => Sys2Proof.Machine.execVectorShiftCompare op regs s
  | .vectorReduce op regs => Sys2Proof.Machine.execVectorReduce op regs s
  | .vectorRequantize c op vd va vb lane target => Sys2Proof.Machine.execVectorRequantize c op vd va vb lane target s
  | .vpoly c vd va gb => Sys2Proof.Machine.execVpoly c vd va gb s
  | .vectorPermute op regs => Sys2Proof.Machine.execVectorPermute op regs s
  | .vectorMove c op lane => Sys2Proof.Machine.execVectorMove c op lane s
  | .issueArrayPass c w => Sys2Proof.Machine.execIssueArrayPass c w s
  | .issueTileLoad c w => Sys2Proof.Machine.execIssueTileLoad c w s
  | .issueStream c w => Sys2Proof.Machine.execIssueStream c w s
  | .issueFabric c w => Sys2Proof.Machine.execIssueFabric c w s
  | .issueCoding c w => Sys2Proof.Machine.execIssueCoding c w s
  | .arrayPassStart c array defects => Sys2Proof.Machine.execArrayPassStart c array defects s
  | .arrayPassDone c array stalls => Sys2Proof.Machine.execArrayPassDone c array stalls s
  | .tileLoadStart c array => Sys2Proof.Machine.execTileLoadStart c array s
  | .tileLoadDone c array => Sys2Proof.Machine.execTileLoadDone c array s
  | .arrayFence c array feeder => Sys2Proof.Machine.execArrayFence c array feeder s
  | .skewProbeStart who c value => Sys2Proof.Machine.execSkewProbeStart who c value s
  | .skewProbeDone c failed detail => Sys2Proof.Machine.execSkewProbeDone c failed detail s
  | .rowRepairWrite who c array value => Sys2Proof.Machine.execRowRepairWrite who c array value s
  | .colRepairWrite who c array value => Sys2Proof.Machine.execColRepairWrite who c array value s
  | .streamSlotStart c slot => Sys2Proof.Machine.execStreamSlotStart c slot s
  | .streamLineMoved c slot => Sys2Proof.Machine.execStreamLineMoved c slot s
  | .streamSlotDone c slot => Sys2Proof.Machine.execStreamSlotDone c slot s
  | .streamHalt c slot => Sys2Proof.Machine.execStreamHalt c slot s
  | .semacq a w => Sys2Proof.Machine.execSemacq a w s
  | .semrel a gd gs count rsvd => Sys2Proof.Machine.execSemrel a gd gs count rsvd s
  | .semtry a w => Sys2Proof.Machine.execSemtry a w s
  | .semset a w => Sys2Proof.Machine.execSemset a w s
  | .semaphoreGrant sem arb => Sys2Proof.Machine.execSemaphoreGrant sem arb s
  | .wait a w => Sys2Proof.Machine.execWait a w s
  | .waitEventArrival a => Sys2Proof.Machine.execWaitEventArrival a s
  | .waitDeadline a => Sys2Proof.Machine.execWaitDeadline a s
  | .fence a gd scope gt cp rsvd => Sys2Proof.Machine.execFence a gd scope gt cp rsvd s
  | .fenceComplete a => Sys2Proof.Machine.execFenceComplete a s
  | .srel a w => Sys2Proof.Machine.execSrel a w s
  | .cpmark c id rsvd => Sys2Proof.Machine.execCpmark c id rsvd s
  | .cheapSaveDone c => Sys2Proof.Machine.execCheapSaveDone c s
  | .rdtime c rd => Sys2Proof.Machine.execRdtime c rd s
  | .rdflags c rd => Sys2Proof.Machine.execRdflags c rd s
  | .clrflags c imm => Sys2Proof.Machine.execClrflags c imm s
  | .brk c imm => Sys2Proof.Machine.execBrk c imm s
  | .halt c => Sys2Proof.Machine.execHalt c s
  | .rdwave c rd => Sys2Proof.Machine.execRdwave c rd s
  | .deferredTrap c => Sys2Proof.Machine.execDeferredTrap c s
  | .trapResume who c => Sys2Proof.Machine.execTrapResume who c s
  | .trapSkip who c => Sys2Proof.Machine.execTrapSkip who c s
  | .trapAbort who c => Sys2Proof.Machine.execTrapAbort who c s
  | .sigcEnable who k on => Sys2Proof.Machine.execSigcEnable who k on s
  | .cmac k op acc da db => Sys2Proof.Machine.execCmac k op acc da db s
  | .tapm k lane0 acc ac ax => Sys2Proof.Machine.execTapm k lane0 acc ac ax s
  | .sst k acc dd form => Sys2Proof.Machine.execSst k acc dd form s
  | .aclr k acc => Sys2Proof.Machine.execAclr k acc s
  | .zld k dd a post => Sys2Proof.Machine.execZld k dd a post s
  | .zst k ds a post => Sys2Proof.Machine.execZst k ds a post s
  | .loop k level count last => Sys2Proof.Machine.execLoop k level count last s
  | .lsave k a => Sys2Proof.Machine.execLsave k a s
  | .lrestore k a => Sys2Proof.Machine.execLrestore k a s
  | .reti k => Sys2Proof.Machine.execReti k s
  | .ei k => Sys2Proof.Machine.execEi k s
  | .di k => Sys2Proof.Machine.execDi k s
  | .alarm k n a => Sys2Proof.Machine.execAlarm k n a s
  | .alarmFire k n => Sys2Proof.Machine.execAlarmFire k n s
  | .doorbellRing who k value => Sys2Proof.Machine.execDoorbellRing who k value s
  | .interruptTaken k => Sys2Proof.Machine.execInterruptTaken k s
  | .sigcDmaStart k ch addr => Sys2Proof.Machine.execSigcDmaStart k ch addr s
  | .sigcDmaLine k ch => Sys2Proof.Machine.execSigcDmaLine k ch s
  | .sigcDmaDone k ch => Sys2Proof.Machine.execSigcDmaDone k ch s
  | .sigcDmaHalt k ch => Sys2Proof.Machine.execSigcDmaHalt k ch s
  | .sigcTrapResume who k => Sys2Proof.Machine.execSigcTrapResume who k s
  | .sigcTrapSkip who k => Sys2Proof.Machine.execSigcTrapSkip who k s
  | .sigcTrapAbort who k => Sys2Proof.Machine.execSigcTrapAbort who k s
  | .codingQueueAdmit c => Sys2Proof.Machine.execCodingQueueAdmit c s
  | .codingDescriptorStart engine ownerWriteFirst => Sys2Proof.Machine.execCodingDescriptorStart engine ownerWriteFirst s
  | .codingDescriptorDone engine => Sys2Proof.Machine.execCodingDescriptorDone engine s
  | .codeOwnerWrite who engine value => Sys2Proof.Machine.execCodeOwnerWrite who engine value s
  | .memoryRead part addr hint agent => Sys2Proof.Machine.execMemoryRead part addr hint agent s
  | .memoryWrite part addr data agent => Sys2Proof.Machine.execMemoryWrite part addr data agent s
  | .bulkLinkDown p => Sys2Proof.Machine.execBulkLinkDown p s
  | .bufferWaysWrite who m value => Sys2Proof.Machine.execBufferWaysWrite who m value s
  | .objectDeclare q data => Sys2Proof.Machine.execObjectDeclare q data s
  | .objectRelease q object => Sys2Proof.Machine.execObjectRelease q object s
  | .objectMove q object tier => Sys2Proof.Machine.execObjectMove q object tier s
  | .objectPageMoved part => Sys2Proof.Machine.execObjectPageMoved part s
  | .loadObject q kind data => Sys2Proof.Machine.execLoadObject q kind data s
  | .loadObjectState q data => Sys2Proof.Machine.execLoadObjectState q data s
  | .fill q target pattern => Sys2Proof.Machine.execFill q target pattern s
  | .longOpChunk part sq cmd bytes => Sys2Proof.Machine.execLongOpChunk part sq cmd bytes s
  | .heatEpoch part => Sys2Proof.Machine.execHeatEpoch part s
  | .heatMove part => Sys2Proof.Machine.execHeatMove part s
  | .heatMoveDone part => Sys2Proof.Machine.execHeatMoveDone part s
  | .sluiceStart q list => Sys2Proof.Machine.execSluiceStart q list s
  | .sluiceStop q list => Sys2Proof.Machine.execSluiceStop q list s
  | .sluicePrefetch engine => Sys2Proof.Machine.execSluicePrefetch engine s
  | .sluiceFillStart engine => Sys2Proof.Machine.execSluiceFillStart engine s
  | .sluiceFillDone engine => Sys2Proof.Machine.execSluiceFillDone engine s
  | .resourceDone part unit source data writeFails => Sys2Proof.Machine.execResourceDone part unit source data writeFails s
  | .resourceTimeout part unit error => Sys2Proof.Machine.execResourceTimeout part unit error s
  | .cellStart q => Sys2Proof.Machine.execCellStart q s
  | .cellStop q cell => Sys2Proof.Machine.execCellStop q cell s
  | .slot q data tasks arb => Sys2Proof.Machine.execSlot q data tasks arb s
  | .slotBoundary k cell => Sys2Proof.Machine.execSlotBoundary k cell s
  | .calCoolantStale k => Sys2Proof.Machine.execCalCoolantStale k s
  | .calImport q k record => Sys2Proof.Machine.execCalImport q k record s
  | .tidemarkMiss k cell frame slot task => Sys2Proof.Machine.execTidemarkMiss k cell frame slot task s
  | .slotComplete k cell frame slot taskNs poisonPrbs => Sys2Proof.Machine.execSlotComplete k cell frame slot taskNs poisonPrbs s
  | .uplaneHandoff k cell frame slot symbol ready blocks => Sys2Proof.Machine.execUplaneHandoff k cell frame slot symbol ready blocks s
  | .uplaneWindowClose k cell frame slot symbol eaxc named => Sys2Proof.Machine.execUplaneWindowClose k cell frame slot symbol eaxc named s
  | .surgeClaim k cell frame slot => Sys2Proof.Machine.execSurgeClaim k cell frame slot s
  | .surgeCoreReady c => Sys2Proof.Machine.execSurgeCoreReady c s
  | .claimLate c => Sys2Proof.Machine.execClaimLate c s
  | .surgeReturn c => Sys2Proof.Machine.execSurgeReturn c s
  | .selftestAdmit q env => Sys2Proof.Machine.execSelftestAdmit q env s
  | .selftestSoak q seconds record => Sys2Proof.Machine.execSelftestSoak q seconds record s
  | .serveGroup q data => Sys2Proof.Machine.execServeGroup q data s
  | .streamOpen q data => Sys2Proof.Machine.execStreamOpen q data s
  | .streamClose q => Sys2Proof.Machine.execStreamClose q s
  | .streamHold q => Sys2Proof.Machine.execStreamHold q s
  | .streamRelease q => Sys2Proof.Machine.execStreamRelease q s
  | .streamQuery q => Sys2Proof.Machine.execStreamQuery q s
  | .kvBind q object layerBytes layers => Sys2Proof.Machine.execKvBind q object layerBytes layers s
  | .kvRelease q entry => Sys2Proof.Machine.execKvRelease q entry s
  | .reshard q stream group => Sys2Proof.Machine.execReshard q stream group s
  | .prefillStepCompose k g => Sys2Proof.Machine.execPrefillStepCompose k g s
  | .decodeStepCompose k g mb => Sys2Proof.Machine.execDecodeStepCompose k g mb s
  | .serveStepDone k g step rows => Sys2Proof.Machine.execServeStepDone k g step rows s
  | .reshardPage k stream => Sys2Proof.Machine.execReshardPage k stream s
  | .reshardDone k stream => Sys2Proof.Machine.execReshardDone k stream s
  | .tokenRecordAccepted stream translates => Sys2Proof.Machine.execTokenRecordAccepted stream translates s
  | .partEnable who k => Sys2Proof.Machine.execPartEnable who k s
  | .ctxActivate who k ctx => Sys2Proof.Machine.execCtxActivate who k ctx s
  | .ctxSuspend who k ctx => Sys2Proof.Machine.execCtxSuspend who k ctx s
  | .ctxResume who k ctx => Sys2Proof.Machine.execCtxResume who k ctx s
  | .ctxDestroy who k ctx => Sys2Proof.Machine.execCtxDestroy who k ctx s
  | .sliceEnd k ctx => Sys2Proof.Machine.execSliceEnd k ctx s
  | .preemptDelivered c => Sys2Proof.Machine.execPreemptDelivered c s
  | .forcedPreempt c => Sys2Proof.Machine.execForcedPreempt c s
  | .forcedSaveDone c => Sys2Proof.Machine.execForcedSaveDone c s
  | .contextStart k ctx => Sys2Proof.Machine.execContextStart k ctx s
  | .contextRestoreDone c => Sys2Proof.Machine.execContextRestoreDone c s
  | .donationStart c => Sys2Proof.Machine.execDonationStart c s
  | .resizeStart who k => Sys2Proof.Machine.execResizeStart who k s
  | .resizeDone k => Sys2Proof.Machine.execResizeDone k s
  | .allotWrite who k bulk value => Sys2Proof.Machine.execAllotWrite who k bulk value s
  | .dirtyAtomicCompletion k ok => Sys2Proof.Machine.execDirtyAtomicCompletion k ok s
  | .exportState q => Sys2Proof.Machine.execExportState q s
  | .pcieLinkDown => Sys2Proof.Machine.execPcieLinkDown s
  | .pcieLinkUp speed width flit => Sys2Proof.Machine.execPcieLinkUp speed width flit s
  | .pcieConfigRequest fn register => Sys2Proof.Machine.execPcieConfigRequest fn register s
  | .sqTailDoorbell fn sq low secure => Sys2Proof.Machine.execSqTailDoorbell fn sq low secure s
  | .cqHeadDoorbell fn sq high secure => Sys2Proof.Machine.execCqHeadDoorbell fn sq high secure s
  | .windowRead fn off len secure => Sys2Proof.Machine.execWindowRead fn off len secure s
  | .windowWrite fn off data secure => Sys2Proof.Machine.execWindowWrite fn off data secure s
  | .windowAtomic fn off op wide operand compare secure => Sys2Proof.Machine.execWindowAtomic fn off op wide operand compare secure s
  | .sqEntryFetch admin entry => Sys2Proof.Machine.execSqEntryFetch admin entry s
  | .nop q => Sys2Proof.Machine.execNop q s
  | .cancel q cancelFirst => Sys2Proof.Machine.execCancel q cancelFirst s
  | .createSq q => Sys2Proof.Machine.execCreateSq q s
  | .createCq q => Sys2Proof.Machine.execCreateCq q s
  | .deleteSq q => Sys2Proof.Machine.execDeleteSq q s
  | .deleteCq q => Sys2Proof.Machine.execDeleteCq q s
  | .completionWrite cq translates => Sys2Proof.Machine.execCompletionWrite cq translates s
  | .cqCoalesceTimer cq => Sys2Proof.Machine.execCqCoalesceTimer cq s
  | .msixVectorUnmask fn vector => Sys2Proof.Machine.execMsixVectorUnmask fn vector s
  | .routeWrite who value => Sys2Proof.Machine.execRouteWrite who value s
  | .adminQueueEnable who on => Sys2Proof.Machine.execAdminQueueEnable who on s
  | .atsInvalidate fn pasid addr size => Sys2Proof.Machine.execAtsInvalidate fn pasid addr size s
  | .ideKmRequest stream msg => Sys2Proof.Machine.execIdeKmRequest stream msg s
  | .tdispRequest fn msg => Sys2Proof.Machine.execTdispRequest fn msg s
  | .flrVf fn => Sys2Proof.Machine.execFlrVf fn s
  | .flrPf => Sys2Proof.Machine.execFlrPf s
  | .forwardedEntryArrive remoteSq entry lead => Sys2Proof.Machine.execForwardedEntryArrive remoteSq entry lead s
  | .memberCompletionArrive sq id status result => Sys2Proof.Machine.execMemberCompletionArrive sq id status result s
  | .forwardTimeout sq id => Sys2Proof.Machine.execForwardTimeout sq id s
  | .memberRead q value reachable => Sys2Proof.Machine.execMemberRead q value reachable s
  | .memberWrite q reachable => Sys2Proof.Machine.execMemberWrite q reachable s
  | .memberEvent m => Sys2Proof.Machine.execMemberEvent m s
  | .trainStart p cause => Sys2Proof.Machine.execTrainStart p cause s
  | .retrainWrite who p => Sys2Proof.Machine.execRetrainWrite who p s
  | .levelDrift p lane => Sys2Proof.Machine.execLevelDrift p lane s
  | .trainPhaseDone p info => Sys2Proof.Machine.execTrainPhaseDone p info s
  | .trainPhaseTimeout p => Sys2Proof.Machine.execTrainPhaseTimeout p s
  | .codewordRx p lane seq fec => Sys2Proof.Machine.execCodewordRx p lane seq fec s
  | .flitRx p flit crcOk => Sys2Proof.Machine.execFlitRx p flit crcOk s
  | .flitTx p => Sys2Proof.Machine.execFlitTx p s
  | .flow p vc xoff => Sys2Proof.Machine.execFlow p vc xoff s
  | .quench p part on => Sys2Proof.Machine.execQuench p part on s
  | .seal p tag dest fseq => Sys2Proof.Machine.execSeal p tag dest fseq s
  | .sealReturn p tag dest fseq => Sys2Proof.Machine.execSealReturn p tag dest fseq s
  | .ack p fseq => Sys2Proof.Machine.execAck p fseq s
  | .nak p fseq => Sys2Proof.Machine.execNak p fseq s
  | .credit p vc count => Sys2Proof.Machine.execCredit p vc count s
  | .time p kind value localTime => Sys2Proof.Machine.execTime p kind value localTime s
  | .power p mask wake seq => Sys2Proof.Machine.execPower p mask wake seq s
  | .ackTimer p => Sys2Proof.Machine.execAckTimer p s
  | .retryLimit p => Sys2Proof.Machine.execRetryLimit p s
  | .gateStateResend p => Sys2Proof.Machine.execGateStateResend p s
  | .laneSleep p lane => Sys2Proof.Machine.execLaneSleep p lane s
  | .laneWake p lane errors => Sys2Proof.Machine.execLaneWake p lane errors s
  | .laneRefresh p lane => Sys2Proof.Machine.execLaneRefresh p lane s
  | .timeExchangeTx p => Sys2Proof.Machine.execTimeExchangeTx p s
  | .load pkt => Sys2Proof.Machine.execLoad pkt s
  | .store pkt => Sys2Proof.Machine.execStore pkt s
  | .atomic pkt => Sys2Proof.Machine.execAtomic pkt s
  | .atomicNr pkt => Sys2Proof.Machine.execAtomicNr pkt s
  | .reduce pkt => Sys2Proof.Machine.execReduce pkt s
  | .mcastStore pkt => Sys2Proof.Machine.execMcastStore pkt s
  | .dmaRead pkt => Sys2Proof.Machine.execDmaRead pkt s
  | .dmaWrite pkt => Sys2Proof.Machine.execDmaWrite pkt s
  | .readS pkt grantE => Sys2Proof.Machine.execReadS pkt grantE s
  | .readX pkt => Sys2Proof.Machine.execReadX pkt s
  | .writeback pkt => Sys2Proof.Machine.execWriteback pkt s
  | .evict pkt => Sys2Proof.Machine.execEvict pkt s
  | .invalidate pkt => Sys2Proof.Machine.execInvalidate pkt s
  | .recall pkt => Sys2Proof.Machine.execRecall pkt s
  | .drained p => Sys2Proof.Machine.execDrained p s
  | .fabricInject c => Sys2Proof.Machine.execFabricInject c s
  | .fabricResponse pkt => Sys2Proof.Machine.execFabricResponse pkt s
  | .fabricCommandDone c => Sys2Proof.Machine.execFabricCommandDone c s
  | .refusedRetry c => Sys2Proof.Machine.execRefusedRetry c s
  | .reqTimeout c req => Sys2Proof.Machine.execReqTimeout c req s
  | .gatherTimeout part addr => Sys2Proof.Machine.execGatherTimeout part addr s
  | .absorberWriteback m line => Sys2Proof.Machine.execAbsorberWriteback m line s
  | .routeMove dest output => Sys2Proof.Machine.execRouteMove dest output s
  | .routeReturn dest => Sys2Proof.Machine.execRouteReturn dest s
  | .outputDown p => Sys2Proof.Machine.execOutputDown p s
  | .drainTimeout p => Sys2Proof.Machine.execDrainTimeout p s
  | .quenchWrite who value => Sys2Proof.Machine.execQuenchWrite who value s
  | .timeUpstreamLoss next => Sys2Proof.Machine.execTimeUpstreamLoss next s
  | .groupModeWrite who g value => Sys2Proof.Machine.execGroupModeWrite who g value s
  | .ethLinkChange p up => Sys2Proof.Machine.execEthLinkChange p up s
  | .ethFrameRx p frame => Sys2Proof.Machine.execEthFrameRx p frame s
  | .ethFrameTx p => Sys2Proof.Machine.execEthFrameTx p s
  | .txtsEntry p tag time => Sys2Proof.Machine.execTxtsEntry p tag time s
  | .txtsPopRead who p => Sys2Proof.Machine.execTxtsPopRead who p s
  | .servoSample t1 t2 exchange across => Sys2Proof.Machine.execServoSample t1 t2 exchange across s
  | .stepForceWrite who value => Sys2Proof.Machine.execStepForceWrite who value s
  | .offsetInWrite who value => Sys2Proof.Machine.execOffsetInWrite who value s
  | .holdoverEntry => Sys2Proof.Machine.execHoldoverEntry s
  | .freqSourceLoss average => Sys2Proof.Machine.execFreqSourceLoss average s
  | .ppsInEdge lowNs highNs edge => Sys2Proof.Machine.execPpsInEdge lowNs highNs edge s
  | .ppsOutEdge => Sys2Proof.Machine.execPpsOutEdge s
  | .timeNowRead who => Sys2Proof.Machine.execTimeNowRead who s
  | .nodeRead who => Sys2Proof.Machine.execNodeRead who s
  | .nodeWrite who => Sys2Proof.Machine.execNodeWrite who s
  | .policerRead who => Sys2Proof.Machine.execPolicerRead who s
  | .policerWrite who => Sys2Proof.Machine.execPolicerWrite who s
  | .strictWrite who value => Sys2Proof.Machine.execStrictWrite who value s
  | .recordBoundary k inputsFirst loadDataOk => Sys2Proof.Machine.execRecordBoundary k inputsFirst loadDataOk s
  | .rake q => Sys2Proof.Machine.execRake q s
  | .flipArm who value => Sys2Proof.Machine.execFlipArm who value s
  | .coreRetireWrite who die value => Sys2Proof.Machine.execCoreRetireWrite who die value s
  | .pprStart who value => Sys2Proof.Machine.execPprStart who value s
  | .pprDone outcome => Sys2Proof.Machine.execPprDone outcome s
  | .coreFenceWrite who value => Sys2Proof.Machine.execCoreFenceWrite who value s
  | .coreCheckFail c => Sys2Proof.Machine.execCoreCheckFail c s
  | .spareReplaceDone c copyOk probeOk => Sys2Proof.Machine.execSpareReplaceDone c copyOk probeOk s
  | .sigcReplaceDone k => Sys2Proof.Machine.execSigcReplaceDone k s
  | .twinPulseTx => Sys2Proof.Machine.execTwinPulseTx s
  | .twinPulseRx => Sys2Proof.Machine.execTwinPulseRx s
  | .twinPinFault => Sys2Proof.Machine.execTwinPinFault s
  | .twinFailTimeout => Sys2Proof.Machine.execTwinFailTimeout s
  | .twinFailMsg => Sys2Proof.Machine.execTwinFailMsg s
  | .twinTakeover => Sys2Proof.Machine.execTwinTakeover s
  | .mirrorBatch k writes => Sys2Proof.Machine.execMirrorBatch k writes s
  | .drainWrite who value => Sys2Proof.Machine.execDrainWrite who value s
  | .drainHandover k cell => Sys2Proof.Machine.execDrainHandover k cell s
  | .saltScore => Sys2Proof.Machine.execSaltScore s
  | .saltMessageTx => Sys2Proof.Machine.execSaltMessageTx s
  | .saltMessageRx msg => Sys2Proof.Machine.execSaltMessageRx msg s
  | .expelAnnounce member news => Sys2Proof.Machine.execExpelAnnounce member news s
  | .isolation => Sys2Proof.Machine.execIsolation s
  | .admitWrite who value => Sys2Proof.Machine.execAdmitWrite who value s
  | .watchdogExpiry => Sys2Proof.Machine.execWatchdogExpiry s
  | .bootStart => Sys2Proof.Machine.execBootStart s
  | .bootDone image => Sys2Proof.Machine.execBootDone image s
  | .recoveryGo who value image => Sys2Proof.Machine.execRecoveryGo who value image s
  | .svnCommit who value => Sys2Proof.Machine.execSvnCommit who value s
  | .ownerCommit who value => Sys2Proof.Machine.execOwnerCommit who value s
  | .sensorSample env => Sys2Proof.Machine.execSensorSample env s
  | .getSensorReading src sensor => Sys2Proof.Machine.execGetSensorReading src sensor s
  | .pldmDiscovery src req => Sys2Proof.Machine.execPldmDiscovery src req s
  | .pldmFruRead src => Sys2Proof.Machine.execPldmFruRead src s
  | .firmwareUpdate src image => Sys2Proof.Machine.execFirmwareUpdate src image s
  | .activateFirmware src => Sys2Proof.Machine.execActivateFirmware src s
  | .getVersion src => Sys2Proof.Machine.execGetVersion src s
  | .getCapabilities src => Sys2Proof.Machine.execGetCapabilities src s
  | .negotiateAlgorithms src supported => Sys2Proof.Machine.execNegotiateAlgorithms src supported s
  | .getDigests src => Sys2Proof.Machine.execGetDigests src s
  | .getCertificate src slot offset length => Sys2Proof.Machine.execGetCertificate src slot offset length s
  | .challenge src slot nonce => Sys2Proof.Machine.execChallenge src slot nonce s
  | .getMeasurements src index signed nonce => Sys2Proof.Machine.execGetMeasurements src index signed nonce s
  | .keyExchange src exchange => Sys2Proof.Machine.execKeyExchange src exchange s
  | .finish src verifies => Sys2Proof.Machine.execFinish src verifies s
  | .keyUpdate src => Sys2Proof.Machine.execKeyUpdate src s
  | .heartbeat src => Sys2Proof.Machine.execHeartbeat src s
  | .endSession src => Sys2Proof.Machine.execEndSession src s
  | .chunkSend src chunk last data => Sys2Proof.Machine.execChunkSend src chunk last data s
  | .chunkGet src chunk => Sys2Proof.Machine.execChunkGet src chunk s
  | .partitionReport src k nonce => Sys2Proof.Machine.execPartitionReport src k nonce s
  | .setMigrationKey src slot key peer => Sys2Proof.Machine.execSetMigrationKey src slot key peer s
  | .zeroizePartition q => Sys2Proof.Machine.execZeroizePartition q s
  | .zeroizeDevice q => Sys2Proof.Machine.execZeroizeDevice q s
  | .powerEstimate p p0 f => Sys2Proof.Machine.execPowerEstimate p p0 f s
  | .powerAllowanceExpiry => Sys2Proof.Machine.execPowerAllowanceExpiry s
  | .coolantHigh inlet => Sys2Proof.Machine.execCoolantHigh inlet s
  | .inletSensorLoss => Sys2Proof.Machine.execInletSensorLoss s
  | .timeLoad who seconds => Sys2Proof.Machine.execTimeLoad who seconds s
  | .refclkAPresent => Sys2Proof.Machine.execRefclkAPresent s
  | .hotWaitEnd => Sys2Proof.Machine.execHotWaitEnd s
  | .codewordLockLoss p lane => Sys2Proof.Machine.execCodewordLockLoss p lane s
  | .bulkLinkUp p width speed => Sys2Proof.Machine.execBulkLinkUp p width speed s
  | .vbatLow low => Sys2Proof.Machine.execVbatLow low s
  | .freqSourceValid y => Sys2Proof.Machine.execFreqSourceValid y s
  | .ptpFrameHandoff p subscriber bytes tag oneStep => Sys2Proof.Machine.execPtpFrameHandoff p subscriber bytes tag oneStep s
  | .saltUsedExpiry => Sys2Proof.Machine.execSaltUsedExpiry s
  | .twinCopyStale k object q => Sys2Proof.Machine.execTwinCopyStale k object q s
  | .controllerNotServing => Sys2Proof.Machine.execControllerNotServing s
  | .pdrRepositoryRequest src req => Sys2Proof.Machine.execPdrRepositoryRequest src req s
  | .dynamicAddress addr => Sys2Proof.Machine.execDynamicAddress addr s

end Sys2Proof.Machine
end

