-- ==== Sys2Proof/Machine/Idle.lean ====
section
/-! DEFINITION. What a tick of device time does beside the clock: the stall counters of R270. -/

namespace Sys2Proof.Machine

/-- The semaphores that are the gates of a list's slots (R265). -/
def gatesOf (s : State) (r : SluiceRun) : List Nat :=
  match sluiceHead s r.part r.list with
  | none => []
  | some h => (List.range h.slots).filterMap fun i => partSem s r.part (h.gateBase + i)

/-- A core of a partition is blocked on a semaphore. -/
def blockedOn (s : State) (k n : Nat) : Bool :=
  s.cores.any fun e =>
    match e.2.run, e.2.ctx with
    | .blocked b, some r => r.part == k && b.kind == .sem n
    | _, _ => false

/-- The partition stalls (R270): a core of it is blocked on a gate of one of its lists whose fill is incomplete, so that its count is 0. -/
def stalled (s : State) (k : Nat) : Bool :=
  s.tier.sluices.any fun e => e.2.part == k && (gatesOf s e.2).any fun n => (s.sem n).count == 0 && blockedOn s k n

/-- The earliest-started incomplete fill of a partition: its engine and list (R270). -/
def firstFill (s : State) (k : Nat) : Option (Nat × SluiceRun) :=
  match s.tier.sluices.filter fun e => e.2.part == k && e.2.filling with
  | [] => none
  | e :: es => some (es.foldl (fun (b x : Nat × SluiceRun) => if x.2.fillAt < b.2.fillAt then x else b) e)

/-- The oldest incomplete unit of a fill moves on by a free amount, but past no unit that is awaited, and not past the last one before
SLUICE_FILL_DONE (R267). DESIGN CHOICE: log entry 120. -/
def fillUnit (s : State) (k src len : Nat) (r : SluiceRun) : Nat :=
  let n := min (r.unit + (s.free 32).toNat) (len / 4096 - 1)
  ((List.range (n - r.unit)).find? fun i => awaited s k (src + 4096 * (r.unit + i))).map (r.unit + ·) |>.getD n

/-- The stall counter of a unit (R270, R271): 4 POISON_WAIT, 2 FABRIC_LATE, 0 BULK_LATE, 3 DECOMP_BUSY, 1 HBM_BUSY; how far a unit that is
not awaited has come is a free value. DESIGN CHOICE: log entry 120. -/
def stallKind (s : State) (k a : Nat) : Nat :=
  if awaited s k a then 4
  else
    match s.pageOf k a with
    | none => 1
    | some e =>
      let late := s.free 1 1 = 1
      if e.tier = 3 then (if late then 2 else 1)
      else if e.tier = 1 then (if late then 0 else if e.compressed ∧ s.free 1 2 = 1 then 3 else 1)
      else 1

/-- A nanosecond of a partition's stall is counted once, in the counter of the oldest incomplete unit of its earliest fill (R270). DESIGN
CHOICE: log entry 120. -/
def countStall (k : Nat) (s : State) : State :=
  match firstFill s k with
  | none => s
  | some (e, r) =>
    match sluiceEntry s k r.list r.entry with
    | none => s
    | some (_, src, len) =>
      let u := fillUnit s k src len r
      ((setSluice e { r with unit := u } s).addReg (partPage k) Rg.partStallTimeTime 1 (stallKind s k (src + 4096 * u))).usedFree 3

/-- A tick of device time (R33), and the stalls of a nanosecond that it ends (R270). DESIGN CHOICE: log entries 2, 120. -/
def idleTick (s : State) : State :=
  let t := tick s
  let parts := (t.tier.sluices.map fun e => e.2.part).eraseDups.filter (stalled t)
  if t.now ≠ s.now ∧ t.working then t.each parts countStall else t

end Sys2Proof.Machine
end

