-- ==== Sys2Proof/WellFormed.lean ====
section
/-! DEFINITION. Well-formed commands: what the types of the operands do not say already. A sender gives none but these; exec is defined
on the others too. -/

namespace Sys2Proof

open Machine (pageOk)

/-- A register access has 8, 16, 32 or 64 bits (R39). -/
def bytesOk (n : Nat) : Bool := n == 1 || n == 2 || n == 4 || n == 8

/-- An offset of the control window, which has 64 MiB. -/
def windowOk (off : Nat) : Bool := decide (off < 67108864)

/-- Bytes of one 64-byte line at most, and at least one. -/
def lineOk (data : List Byte) : Bool := decide (0 < data.length) && decide (data.length ≤ 64)

/-- A frame number of 10 bits and a slot of a frame at the highest numerology (R287). -/
def slotOk (frame slot : Nat) : Bool := decide (frame < 1024) && decide (slot < 80)

/-- One repair of the fuse map (R530, R118): a group of 33 rows has one spare; a column is one of 66. -/
def repairOk (r : ArrayRepair) : Bool :=
  decide (r.core < 176) && decide (r.array < 4) && decide (r.index < (if r.isColumn then 2 else 4)) &&
    decide (r.target < (if r.isColumn then 66 else 33))

/-- What bring-up finds names cores, arrays, ports, widths and rates that exist (R245, R530). -/
def envOk (e : BringEnv) : Bool :=
  (e.fusedCores.all fun c => decide (c < 176)) && (e.fusedSigcs.all fun c => decide (c < 68)) && e.repairs.all repairOk &&
    (e.probeFails.all fun f => decide (f.1 < 176) && decide (f.2 < 4)) &&
    e.bulkModules.all fun m => decide (m.1 < 8) && (m.2.2.1 == 1 || m.2.2.1 == 2) && (m.2.2.2 == 1 || m.2.2.2 == 2)

/-- A link of the host port trains at 32, 64 or 128 GT/s on 4, 8 or 16 lanes (R419). -/
def linkOk (speed : Fin 4) (width : Fin 17) : Bool := speed != 0 && (width == 4 || width == 8 || width == 16)

/-- A packet's data fit its 17 flits (R445). -/
def packetOk (p : Packet) : Bool := decide (p.data.length ≤ 4096)

/-- A null flit carries no packet (R433). -/
def flitOk (f : Flit) : Bool :=
  match f.packet with
  | none => true
  | some p => !f.null && packetOk p

/-- A partner's division names all eight VCs (R436). -/
def trainOk (i : TrainInfo) : Bool := i.peerBuffers.isEmpty || i.peerBuffers.length == 8

/-- The PRBs of an eCPRI message have 24 mantissas each (R296). -/
def frameOk (f : EthFrame) : Bool := f.ecpri.all fun m => m.prbs.all fun r => r.2.2.length == 24

/-- A lane move names one of at most 128 elements. -/
def moveOk : VecMove → Bool
  | .toLane _ _ i => decide (i < 128)
  | .fromLane _ _ i => decide (i < 128)

/-- A sample covers 10 dies, 20 stacks and 4 compute dies (R561). -/
def sampleOk (e : SensorEnv) : Bool := e.dies.length == 10 && e.stackTemps.length == 20 && e.dieWatts.length == 4

/-- The command is well formed. -/
def wellFormed : Instr → Bool
  | .powerOn _ => true
  | .supplyDrop _ _ => true
  | .resetAccept _ _ _ => true
  | .resetRelease _ => true
  | .bringupStart env => envOk env
  | .bringupDone => true
  | .refclkALoss => true
  | .thermalTrip _ _ => true
  | .waveWindowEnd _ _ _ => true
  | .vddCoreStepUp _ => true
  | .vddCorePolicy _ _ _ _ => true
  | .avsTransaction _ _ _ => true
  | .registerWrite _ bytes offset _ => bytesOk bytes && windowOk offset
  | .registerReadClear _ bytes offset _ => bytesOk bytes && windowOk offset
  | .counterLatchRead _ offset => windowOk offset && offset % 4 == 0
  | .intStatusClear _ page _ _ => pageOk page
  | .intForceWrite _ page _ => pageOk page
  | .softReset _ page value => pageOk page && value.getLsbD 0
  | .softResetDone page => pageOk page
  | .enableWrite _ page _ => pageOk page
  | .blockOperating page => pageOk page
  | .blockStopped page => pageOk page
  | .freezeWrite _ page _ => pageOk page
  | .blockFrozen page => pageOk page
  | .scalarInstruction _ _ => true
  | .branchInstruction _ _ => true
  | .ld _ _ _ _ => true
  | .st _ _ _ => true
  | .vld _ _ _ _ _ _ => true
  | .vst _ _ _ _ _ _ => true
  | .vectorElementwise _ _ => true
  | .vectorShiftCompare _ _ => true
  | .vectorReduce _ _ => true
  | .vectorRequantize _ _ _ _ _ _ _ => true
  | .vpoly _ _ _ _ => true
  | .vectorPermute _ _ => true
  | .vectorMove _ op _ => moveOk op
  | .issueArrayPass _ _ => true
  | .issueTileLoad _ _ => true
  | .issueStream _ _ => true
  | .issueFabric _ _ => true
  | .issueCoding _ _ => true
  | .arrayPassStart _ _ _ => true
  | .arrayPassDone _ _ _ => true
  | .tileLoadStart _ _ => true
  | .tileLoadDone _ _ => true
  | .arrayFence _ _ _ => true
  | .skewProbeStart _ _ _ => true
  | .skewProbeDone _ _ _ => true
  | .rowRepairWrite _ _ _ _ => true
  | .colRepairWrite _ _ _ _ => true
  | .streamSlotStart _ _ => true
  | .streamLineMoved _ _ => true
  | .streamSlotDone _ _ => true
  | .streamHalt _ _ => true
  | .semacq _ _ => true
  | .semrel _ _ _ _ _ => true
  | .semtry _ _ => true
  | .semset _ _ => true
  | .semaphoreGrant _ _ => true
  | .wait _ _ => true
  | .waitEventArrival _ => true
  | .waitDeadline _ => true
  | .fence _ _ _ _ _ _ => true
  | .fenceComplete _ => true
  | .srel _ _ => true
  | .cpmark _ _ _ => true
  | .cheapSaveDone _ => true
  | .rdtime _ _ => true
  | .rdflags _ _ => true
  | .clrflags _ _ => true
  | .brk _ _ => true
  | .halt _ => true
  | .rdwave _ _ => true
  | .deferredTrap _ => true
  | .trapResume _ _ => true
  | .trapSkip _ _ => true
  | .trapAbort _ _ => true
  | .sigcEnable _ _ _ => true
  | .cmac _ _ _ _ _ => true
  | .tapm _ _ _ _ _ => true
  | .sst _ _ _ _ => true
  | .aclr _ _ => true
  | .zld _ _ _ _ => true
  | .zst _ _ _ _ => true
  | .loop _ _ _ _ => true
  | .lsave _ _ => true
  | .lrestore _ _ => true
  | .reti _ => true
  | .ei _ => true
  | .di _ => true
  | .alarm _ _ _ => true
  | .alarmFire _ _ => true
  | .doorbellRing _ _ _ => true
  | .interruptTaken _ => true
  | .sigcDmaStart _ _ _ => true
  | .sigcDmaLine _ _ => true
  | .sigcDmaDone _ _ => true
  | .sigcDmaHalt _ _ => true
  | .sigcTrapResume _ _ => true
  | .sigcTrapSkip _ _ => true
  | .sigcTrapAbort _ _ => true
  | .codingQueueAdmit _ => true
  | .codingDescriptorStart _ _ => true
  | .codingDescriptorDone _ => true
  | .codeOwnerWrite _ _ _ => true
  | .memoryRead _ _ _ _ => true
  | .memoryWrite _ _ data _ => lineOk data
  | .bulkLinkDown _ => true
  | .bufferWaysWrite _ _ _ => true
  | .objectDeclare _ _ => true
  | .objectRelease _ _ => true
  | .objectMove _ _ _ => true
  | .objectPageMoved _ => true
  | .loadObject _ _ _ => true
  | .loadObjectState _ _ => true
  | .fill _ _ _ => true
  | .longOpChunk _ sq _ bytes => decide (sq ≤ 1048576) && decide (0 < bytes)
  | .heatEpoch _ => true
  | .heatMove _ => true
  | .heatMoveDone _ => true
  | .sluiceStart _ _ => true
  | .sluiceStop _ _ => true
  | .sluicePrefetch _ => true
  | .sluiceFillStart _ => true
  | .sluiceFillDone _ => true
  | .resourceDone _ _ _ data _ => data.length == 4096
  | .resourceTimeout _ _ _ => true
  | .cellStart _ => true
  | .cellStop _ _ => true
  | .slot _ _ _ _ => true
  | .slotBoundary _ _ => true
  | .calCoolantStale _ => true
  | .calImport _ _ _ => true
  | .tidemarkMiss _ _ frame slot _ => slotOk frame slot
  | .slotComplete _ _ frame slot _ _ => slotOk frame slot
  | .uplaneHandoff _ _ frame slot _ _ blocks => slotOk frame slot && blocks.all fun b => b.elems.length == 24
  | .uplaneWindowClose _ _ frame slot _ _ named => slotOk frame slot && named.all fun n => decide (n < 273)
  | .surgeClaim _ _ frame slot => slotOk frame slot
  | .surgeCoreReady _ => true
  | .claimLate _ => true
  | .surgeReturn _ => true
  | .selftestAdmit _ _ => true
  | .selftestSoak _ _ _ => true
  | .serveGroup _ _ => true
  | .streamOpen _ _ => true
  | .streamClose _ => true
  | .streamHold _ => true
  | .streamRelease _ => true
  | .streamQuery _ => true
  | .kvBind _ _ _ _ => true
  | .kvRelease _ _ => true
  | .reshard _ _ _ => true
  | .prefillStepCompose _ _ => true
  | .decodeStepCompose _ _ _ => true
  | .serveStepDone _ _ _ _ => true
  | .reshardPage _ _ => true
  | .reshardDone _ _ => true
  | .tokenRecordAccepted _ _ => true
  | .partEnable _ _ => true
  | .ctxActivate _ _ _ => true
  | .ctxSuspend _ _ _ => true
  | .ctxResume _ _ _ => true
  | .ctxDestroy _ _ _ => true
  | .sliceEnd _ _ => true
  | .preemptDelivered _ => true
  | .forcedPreempt _ => true
  | .forcedSaveDone _ => true
  | .contextStart _ _ => true
  | .contextRestoreDone _ => true
  | .donationStart _ => true
  | .resizeStart _ _ => true
  | .resizeDone _ => true
  | .allotWrite _ _ _ _ => true
  | .dirtyAtomicCompletion _ _ => true
  | .exportState _ => true
  | .pcieLinkDown => true
  | .pcieLinkUp speed width _ => linkOk speed width
  | .pcieConfigRequest _ register => decide (register < 4096)
  | .sqTailDoorbell _ _ _ _ => true
  | .cqHeadDoorbell _ _ _ _ => true
  | .windowRead _ _ len _ => decide (0 < len)
  | .windowWrite _ _ data _ => !data.isEmpty
  | .windowAtomic _ off _ wide _ _ _ => off % (if wide then 8 else 4) == 0
  | .sqEntryFetch _ _ => true
  | .nop _ => true
  | .cancel _ _ => true
  | .createSq _ => true
  | .createCq _ => true
  | .deleteSq _ => true
  | .deleteCq _ => true
  | .completionWrite _ _ => true
  | .cqCoalesceTimer _ => true
  | .msixVectorUnmask _ _ => true
  | .routeWrite _ _ => true
  | .adminQueueEnable _ _ => true
  | .atsInvalidate _ _ _ _ => true
  | .ideKmRequest _ _ => true
  | .tdispRequest _ _ => true
  | .flrVf _ => true
  | .flrPf => true
  | .forwardedEntryArrive _ _ _ => true
  | .memberCompletionArrive _ _ _ _ => true
  | .forwardTimeout _ _ => true
  | .memberRead _ _ _ => true
  | .memberWrite _ _ => true
  | .memberEvent _ => true
  | .trainStart _ _ => true
  | .retrainWrite _ _ => true
  | .levelDrift _ _ => true
  | .trainPhaseDone _ info => trainOk info
  | .trainPhaseTimeout _ => true
  | .codewordRx _ _ _ _ => true
  | .flitRx _ flit _ => flitOk flit
  | .flitTx _ => true
  | .flow _ _ _ => true
  | .quench _ _ _ => true
  | .seal _ _ _ _ => true
  | .sealReturn _ _ _ _ => true
  | .ack _ _ => true
  | .nak _ _ => true
  | .credit _ _ _ => true
  | .time _ _ _ _ => true
  | .power _ _ _ _ => true
  | .ackTimer _ => true
  | .retryLimit _ => true
  | .gateStateResend _ => true
  | .laneSleep _ _ => true
  | .laneWake _ _ _ => true
  | .laneRefresh _ _ => true
  | .timeExchangeTx _ => true
  | .load pkt => packetOk pkt
  | .store pkt => packetOk pkt
  | .atomic pkt => packetOk pkt
  | .atomicNr pkt => packetOk pkt
  | .reduce pkt => packetOk pkt
  | .mcastStore pkt => packetOk pkt
  | .dmaRead pkt => packetOk pkt
  | .dmaWrite pkt => packetOk pkt
  | .readS pkt _ => packetOk pkt
  | .readX pkt => packetOk pkt
  | .writeback pkt => packetOk pkt
  | .evict pkt => packetOk pkt
  | .invalidate pkt => packetOk pkt
  | .recall pkt => packetOk pkt
  | .drained _ => true
  | .fabricInject _ => true
  | .fabricResponse pkt => packetOk pkt
  | .fabricCommandDone _ => true
  | .refusedRetry _ => true
  | .reqTimeout _ _ => true
  | .gatherTimeout _ _ => true
  | .absorberWriteback _ _ => true
  | .routeMove _ _ => true
  | .routeReturn _ => true
  | .outputDown _ => true
  | .drainTimeout _ => true
  | .quenchWrite _ _ => true
  | .timeUpstreamLoss _ => true
  | .groupModeWrite _ _ _ => true
  | .ethLinkChange _ _ => true
  | .ethFrameRx _ frame => frameOk frame
  | .ethFrameTx _ => true
  | .txtsEntry _ _ _ => true
  | .txtsPopRead _ _ => true
  | .servoSample _ _ _ _ => true
  | .stepForceWrite _ _ => true
  | .offsetInWrite _ _ => true
  | .holdoverEntry => true
  | .freqSourceLoss _ => true
  | .ppsInEdge lowNs _ _ => decide (0 < lowNs)
  | .ppsOutEdge => true
  | .timeNowRead _ => true
  | .nodeRead _ => true
  | .nodeWrite _ => true
  | .policerRead _ => true
  | .policerWrite _ => true
  | .strictWrite _ _ => true
  | .recordBoundary _ _ _ => true
  | .rake _ => true
  | .flipArm _ _ => true
  | .coreRetireWrite _ _ _ => true
  | .pprStart _ _ => true
  | .pprDone _ => true
  | .coreFenceWrite _ _ => true
  | .coreCheckFail _ => true
  | .spareReplaceDone _ _ _ => true
  | .sigcReplaceDone _ => true
  | .twinPulseTx => true
  | .twinPulseRx => true
  | .twinPinFault => true
  | .twinFailTimeout => true
  | .twinFailMsg => true
  | .twinTakeover => true
  | .mirrorBatch _ writes => writes.all fun w => lineOk w.2
  | .drainWrite _ _ => true
  | .drainHandover _ _ => true
  | .saltScore => true
  | .saltMessageTx => true
  | .saltMessageRx _ => true
  | .expelAnnounce _ _ => true
  | .isolation => true
  | .admitWrite _ _ => true
  | .watchdogExpiry => true
  | .bootStart => true
  | .bootDone _ => true
  | .recoveryGo _ _ _ => true
  | .svnCommit _ _ => true
  | .ownerCommit _ _ => true
  | .sensorSample env => sampleOk env
  | .getSensorReading _ _ => true
  | .pldmDiscovery _ _ => true
  | .pldmFruRead _ => true
  | .firmwareUpdate _ _ => true
  | .activateFirmware _ => true
  | .getVersion _ => true
  | .getCapabilities _ => true
  | .negotiateAlgorithms _ _ => true
  | .getDigests _ => true
  | .getCertificate _ _ offset length => decide (offset < 65536) && decide (length < 65536)
  | .challenge _ _ _ => true
  | .getMeasurements _ _ _ _ => true
  | .keyExchange _ _ => true
  | .finish _ _ => true
  | .keyUpdate _ => true
  | .heartbeat _ => true
  | .endSession _ => true
  | .chunkSend _ _ _ data => !data.isEmpty
  | .chunkGet _ _ => true
  | .partitionReport _ _ _ => true
  | .setMigrationKey _ _ _ _ => true
  | .zeroizePartition _ => true
  | .zeroizeDevice _ => true
  | .powerEstimate _ _ _ => true
  | .powerAllowanceExpiry => true
  | .coolantHigh _ => true
  | .inletSensorLoss => true
  | .timeLoad _ _ => true
  | .refclkAPresent => true
  | .hotWaitEnd => true
  | .codewordLockLoss _ _ => true
  | .bulkLinkUp _ width speed => (width == 1 || width == 2) && (speed == 1 || speed == 2)
  | .vbatLow _ => true
  | .freqSourceValid _ => true
  | .ptpFrameHandoff _ _ bytes _ _ => decide (64 ≤ bytes) && decide (bytes ≤ 9216)
  | .saltUsedExpiry => true
  | .twinCopyStale _ _ _ => true
  | .controllerNotServing => true
  | .pdrRepositoryRequest _ _ => true
  | .dynamicAddress _ => true

end Sys2Proof
end

