-- ==== Sys2Proof/Safety.lean ====
section
/-! DEFINITION. The terms in which the statements speak: when each command has its own effect, what it leaves, which parts of the state it
may touch, and the invariant. -/

namespace Sys2Proof.Machine

/-- A command answers a next state, of which p holds. -/
def Runs (c : Instr) (s : State) (p : State → Prop) : Prop := ∃ t, exec c s = .next t ∧ p t

/-- What a read of a range delivers, where it is answered at once. -/
def readsData (s : State) (k a n : Nat) : Option (List (Option Byte)) :=
  match s.partRead k a n with
  | .data b => some b
  | _ => none

/-- The bytes that a read of a range delivers, where it is answered at once and whole. -/
def rangeBytes (s : State) (k a n : Nat) : Option (List Byte) := (readsData s k a n).bind fun d => d.mapM id

/-- The words of instruction memory that a core's next fetch reads are good. -/
def coreExecutes (s : State) (c : Nat) : Bool :=
  coreReady s c && (wordsOf .imem (imemKey c (s.core c).pc.toNat) 4).all fun w => !cwBad .imem s.mem.imem w

/-- The same for a signal core. -/
def sigcExecutes (s : State) (k : Nat) : Bool :=
  sigcReady s k && (wordsOf .simem (simemKey k (s.sigc k).pc.toNat) 4).all fun w => !cwBad .simem s.mem.simem w

/-- A core executes the instruction that the word at its program counter spells. -/
def coreRuns (s : State) (c : Nat) (spells : Nat → Bool) : Bool := coreExecutes s c && spells (wordAt s c)

/-- The same for an agent of the semaphore and system instructions; the encodings of a signal core are not given. -/
def agentRuns (s : State) (a : Agent) (spells : Nat → Bool) : Bool :=
  match a with
  | .core c => coreRuns s c spells
  | .sigc k => sigcExecutes s k

/-- What the fetch of a core's next instruction does to the state. -/
def fetchCore (c : Nat) (s : State) : State := s.readEffect .imem (imemKey c (s.core c).pc.toNat) 4

def fetchSigc (k : Nat) (s : State) : State := s.readEffect .simem (simemKey k (s.sigc k).pc.toNat) 4

def fetchAgent (a : Agent) (s : State) : State :=
  match a with
  | .core c => fetchCore c s
  | .sigc k => fetchSigc k s

/-- A scalar instruction with a result: legal, and no division by zero (R135). -/
def scalarPlain (x : Core) : ScalarInsn → Bool
  | .op o _ _ b => !divByZero o (scalarSrc x b)
  | .select _ _ _ _ => true
  | .clz _ _ => true
  | .illegal _ => false

/-- A branch that is legal and whose target is aligned. -/
def branchPlain (x : Core) : BranchInsn → Bool
  | .cond _ _ _ _ => true
  | .jump _ => true
  | .jumpLink _ _ => true
  | .indirect ra => decide ((getG x ra).toNat % 4 = 0)
  | .illegal _ => false

/-- An agent's instruction has written v to the register it names and completed: the program counter stands at the next instruction. -/
def Wrote (a : Agent) (rd : Fin 32) (v : BitVec 64) (s t : State) : Prop :=
  match a with
  | .core c => t.core c = advance (setG rd v (s.core c))
  | .sigc k => t.sigc k = sNext (setA rd v (s.sigc k))

/-- The cores and signal cores other than one agent are as before. -/
def OthersSame (a : Agent) (s t : State) : Prop :=
  (∀ d, (∀ c, a = .core c → d ≠ c.val) → t.core d = s.core d) ∧ (∀ j, (∀ k, a = .sigc k → j ≠ k.val) → t.sigc j = s.sigc j)

/-- An agent's precise trap of a cause and a detail (R182, R183, R210): u is the state with the trap recorded at the agent's program
counter, and the scheduler then learns of a core's trap (R360). -/
def Trapped (a : Agent) (cause detail : Nat) (s t : State) : Prop :=
  match a with
  | .core c => ∃ u, t = ctxTrapped c u ∧ u.reg (corePage c) Rg.coreTrapCauseCause = cause ∧ u.reg (corePage c) Rg.coreTrapCauseValid = 1 ∧
      u.reg (corePage c) Rg.coreTrapDetailDetail = detail ∧ u.reg (corePage c) Rg.coreTrapPcPc = (s.core c).pc.toNat
  | .sigc k => t.reg (sigcPage k) Rg.sigcTrapCauseCause = cause ∧ t.reg (sigcPage k) Rg.sigcTrapCauseValid = 1 ∧
      t.reg (sigcPage k) Rg.sigcTrapDetailDetail = detail ∧ t.reg (sigcPage k) Rg.sigcTrapPcPc = (s.sigc k).pc.toNat

/-- A semaphore instruction is legal: its reserved bits are zero and its registers exist (R168, R209). -/
def syncLegal (a : Agent) (w : SyncWord) (rs : List (Fin 32)) : Bool := !w.rsvd && !lacks a rs && !(isSigc a && decide (w.cp ≠ 0))

/-- The semaphore that the register gs names can be taken at once by an agent (R164, R165, R172). -/
def semOffers (s : State) (a : Agent) (gs : Fin 32) : Bool :=
  match semOf s a (agentReg s a gs) with
  | none => false
  | some n => grantable (s.sem n) && (s.sem n).waiters.isEmpty && !(lateOf s a).contains n && !ownsSem s a n &&
      !((s.sem n).lock && decide (agentLocks s a ≥ 255))

/-- A semaphore as it is once an agent has taken it (R164, R167). -/
def semTaken (s : State) (a : Agent) (n : Nat) : Sem :=
  if (s.sem n).lock then { s.sem n with owner := some (agentTag s a), aborted := false } else { s.sem n with count := (s.sem n).count - 1 }

/-- The semaphore that gs names: a lock that the agent owns, or a counter (R164). -/
def semReturns (s : State) (a : Agent) (gs : Fin 32) : Bool :=
  match semOf s a (agentReg s a gs) with
  | none => false
  | some n => !(s.sem n).lock || ownsSem s a n

/-- The semaphore that gs names is neither waited for nor owned, and the value is a legal one (R164). -/
def semSettable (s : State) (a : Agent) (gs : Fin 32) (v : BitVec 64) : Bool :=
  match semOf s a (agentReg s a gs) with
  | none => false
  | some n => (s.sem n).waiters.isEmpty && !((s.sem n).lock && (s.sem n).owner.isSome) &&
      (if v.getLsbD 63 then v.toNat % 2 ^ 63 == 0 else decide (v.toNat % 2 ^ 63 < 2 ^ 32))

/-- The waiter in front of a semaphore that can be granted, and the wait in which it is blocked (R164, R172). -/
def semFront (s : State) (n : Nat) (arb : Bool) : Option (Agent × Blocked) :=
  match (s.sem n).waiters with
  | [] => none
  | .sluice _ :: _ => none
  | .agent a :: _ =>
    match blockedOf s a with
    | some b => if s.working ∧ b.kind = .sem n ∧ grantable (s.sem n) ∧ !passed s b (!arb) then some (a, b) else none
    | none => none

/-- A sluice engine is the waiter in front of a counter above 0 (R164, R267). -/
def semFeeds (s : State) (n : Nat) : Bool :=
  s.working && !(s.sem n).lock && decide ((s.sem n).count > 0) && match (s.sem n).waiters with
    | .sluice _ :: _ => true
    | _ => false

/-- The event that a blocked WAIT waits for, where it has arrived in time (R170, R172). -/
def waitDue (s : State) (a : Agent) : Option (Blocked × BitVec 64) :=
  match blockedOf s a with
  | some b =>
    match b.kind with
    | .event sel => if s.working ∧ eventArrived s a sel ∧ !passed s b false then some (b, sel) else none
    | _ => none
  | none => none

/-- The scope of a blocked FENCE whose conditions hold in time (R171, R463). -/
def fenceDue (s : State) (a : Agent) : Option (Blocked × Nat) :=
  match blockedOf s a with
  | some b =>
    match b.kind with
    | .fence scope => if s.working ∧ fenceHolds s a scope ∧ !passed s b false then some (b, scope) else none
    | _ => none
  | none => none

/-- A wait whose deadline has passed (R172). -/
def deadlineDue (s : State) (a : Agent) : Option Blocked :=
  match blockedOf s a with
  | some b => if s.working ∧ passed s b true then some b else none
  | none => none

/-- The context that a blocked core can give its slice to, and the lock (R370, R371). -/
def donationDue (s : State) (c : Nat) : Option (CtxRef × Nat × Nat) :=
  match (s.core c).ctx, (s.core c).run with
  | some r, .blocked b =>
    match b.kind with
    | .sem n =>
      match (s.sem n).owner with
      | some g =>
        match donee s r.part g with
        | some m =>
          if s.working ∧ (s.sem n).lock ∧ !(s.ctx r.part m).donors.contains (r.ctx, n) ∧ donationDepth s r.part 8 r.ctx < 8 then some (r, n, m)
          else none
        | none => none
      | none => none
    | _ => none
  | _, _ => none

/-- The state in which a FENCE tests its conditions: with scope FABRIC the seals of R463 have been sent. -/
def fenceSealed (a : Agent) (scope : Nat) (s : State) : State :=
  match a with
  | .core c => if scope = 3 then sendSeals c s else s
  | .sigc _ => s

/-- The stream slots and channels of an agent that SREL can name (R157, R209). -/
def slotLimit : Agent → Nat
  | .core _ => 16
  | .sigc _ => 3

/-- CTX_RESULT reports that an action has completed (R359). -/
def ctxDone (k : Nat) (s : State) : State := (s.setReg (partPage k) Rg.partCtxResultCode 0).setReg (partPage k) Rg.partCtxResultDone 1

/-- A write of CTX_CONTROL is taken and no action runs (R359). -/
def ctxFree (s : State) (who : Requester) (k : Nat) : Bool := writeTaken s who (partPage k) 0x110 && s.flag (partPage k) Rg.partCtxResultDone

/-- The record that ACTIVATE reads is readable and right (R359). -/
def activateReads (s : State) (k c : Nat) : Bool := (readCtx s k c {}).any fun r => !(recordWrong r.1 r.2 || !maskOwned s k r.1)

/-- The record that RESUME reads is readable and right, and no core of its mask is lost (R359, R536). -/
def resumeReads (s : State) (k c : Nat) : Bool := (readCtx s k c (s.ctx k c)).any fun r => !recordWrong r.1 r.2 && !maskLost s k r.1

/-- The fetched command that a reference names and that the device starts: it has one of the opcodes, may start, and is neither kept
from a locked TDI nor from a partition that is being cleared (R396, R397, R413, R577). -/
def startedCmd (s : State) (q : CmdRef) (ops : List Nat) (named : Bool) : Option Cmd :=
  if !s.alive then none
  else (findCmd s q ops 0 s.host.cmds).filter fun c =>
    !(named && c.sq == .admin && tdiLocked s (functionOf s c.part)) && !(named && zeroizing s c.part)

/-- The state in which a started command has its effect: a recorded command without data is in the ring (R513). -/
def startedState (c : Cmd) (s : State) : State := if dataOps.contains (cmdOp c) then s else recordCmd c [] s

/-- The data of a command, where they can be read (R398). -/
def cmdData (s : State) (c : Cmd) (data : HostData) (n : Nat) : Option (List Byte) :=
  match readData s c data n with
  | .ok b => some b
  | _ => none

/-- The state in which a command with data has its effect. -/
def dataState (c : Cmd) (n : Nat) (b : List Byte) (s : State) : State := recordCmd c b (touchData c n s)

/-- A doorbell write that R400 takes: through the window of the function of the SQ's partition, with the T bit set
where its TDI runs, or the HOST page for the admin pair. -/
def ringTaken (s : State) (fn : Nat) (q : SqRef) (secure : Bool) : Bool :=
  match q with
  | .admin => writeTaken s (.function (Fin.ofNat 256 fn)) hostPage 0x060
  | .num _ => s.alive && s.host.linkUp && !(tabFind fn s.host.tdis == some .run && !secure) && sqFn s q == fn

/-- None of the refusals of CREATE_SQ applies (R388 to R390). -/
def sqCreatable (s : State) (c : Cmd) : Bool :=
  let n := c.field 0x18 0 20
  let sqr := SqRef.num (Fin.ofNat 1048576 n)
  let cqr := CqRef.num (Fin.ofNat 262144 (c.field 0x1C 0 18))
  let radio := match sqPart s n with
    | some k => s.reg (partPage k) Rg.partConfigKind == 2
    | none => false
  !lockedQueue s c (sqFn s sqr) &&
  !decide ((c.field 0x18 22 1 = 1 ∧ c.sq ≠ .admin) ∨ !mayName s c Rg.partSqBaseBase Rg.partSqCountCount n ∨
    !mayName s c Rg.partCqBaseBase Rg.partCqCountCount (c.field 0x1C 0 18)) &&
  !decide (!paramsClean c [(0x18, 0, 32), (0x1C, 0, 18), (0x20, 0, 17), (0x24, 0, 20), (0x24, 31, 1), (0x28, 0, 64), (0x30, 0, 64), (0x38, 0, 6), (0x3C, 0, 20)] ∨
    c.field 0x18 20 2 = 3 ∨ c.field 0x18 24 8 = 0 ∨ c.field 0x20 0 17 < 2 ∨ c.field 0x20 0 17 > 65536 ∨ c.field 0x28 0 12 ≠ 0 ∨ c.field 0x30 0 4 ≠ 0) &&
  !decide ((s.sq sqr).isSome ∨ (s.cq cqr).isNone ∨ cqFn s cqr ≠ sqFn s sqr) &&
  !decide (c.field 0x18 20 2 = 0 ∧ !radio) &&
  !decide (c.field 0x18 23 1 = 1 ∧ !memberKnown s (c.field 0x38 0 6))

/-- None of the refusals of CREATE_CQ applies (R388 to R390). -/
def cqCreatable (s : State) (c : Cmd) : Bool :=
  let cqr := CqRef.num (Fin.ofNat 262144 (c.field 0x18 0 18))
  !lockedQueue s c (cqFn s cqr) && mayName s c Rg.partCqBaseBase Rg.partCqCountCount (c.field 0x18 0 18) &&
  !decide (!paramsClean c [(0x18, 0, 18), (0x1C, 0, 12), (0x1C, 16, 16), (0x20, 0, 17), (0x24, 0, 20), (0x24, 31, 1), (0x28, 0, 64)] ∨
    c.field 0x20 0 17 < 2 ∨ c.field 0x20 0 17 > 65536 ∨ c.field 0x28 0 12 ≠ 0) && (s.cq cqr).isNone

/-- ISSUE takes the descriptor (R137): the word is legal, the address aligned and in the scratchpad, the tag free, every word of the
descriptor good, and the engine has no ground against it. -/
def issueTakes (s : State) (c engine : Nat) (w : IssueWord) (bad : BitVec 512 → State → Bool) : Bool :=
  let u := fetchCore c s
  let a := (getG (s.core c) w.gs).toNat
  coreRuns s c (· == issueWord engine w) && !issueIllegal engine w && decide (a % 64 = 0) && decide (a < 2 ^ 22) &&
    !decide (w.notag = false ∧ (tagOf (s.core c) w.tag.val).isSome = true) && (firstBadWord u c a).isNone && !bad (readDesc u c a) u

/-- The descriptor that an ISSUE copies. -/
def issuedDesc (s : State) (c : Nat) (w : IssueWord) : BitVec 512 := readDesc (fetchCore c s) c (getG (s.core c) w.gs).toNat

/-- ISSUE has completed (R136, R137, R140): the core stands at the next instruction with its registers, its tag is pending where it has
one, and no other core or signal core is changed. -/
def Issued (c : Fin 160) (w : IssueWord) (s t : State) : Prop :=
  (t.core c).pc = (s.core c).pc + 4 ∧ (t.core c).gpr = (s.core c).gpr ∧ (w.notag = false → tagOf (t.core c) w.tag.val = some .pending) ∧
    OthersSame (.core c) s t

/-- The request that FABRIC_INJECT sends to another device: the operands can be read, the translation leads there, the line is not one that
the coherence group keeps, and the quota has room (R374, R444, R447, R451). It answers the partition, the command, the packet and the device. -/
def injectsRemote (s : State) (c : Nat) : Option (Nat × FabricCmd × Packet × Nat) :=
  match (s.core c).ctx, injecting (s.core c), freeReq (s.core c) with
  | some ctx, some q, some req =>
    let p := fabDesc q.cmd.desc
    let r := itemRange p q.injected
    match operandData s c ctx.part p q.injected, translate s ctx.part r.1 (p.op != 1 && p.op != 7) with
    | .ready data, .inl pe =>
      match placeOf s pe r.1 with
      | .remote d addr =>
        let pkt := itemPacket s c ctx.part p q.injected d addr req data
        if injects s c && s.serves fabrPage && !quenched s ctx.part && p.op != 6 && !(inGroup s d && decide (p.op ≤ 2)) &&
            s.flag fabrPage Rg.fabrDeviceIdValid && !resendDue s d (vcOf pkt) &&
            decide (outstanding s ctx.part (vcOf pkt) < s.reg (partPage ctx.part) Rg.partFabricQuotaQuota (vcOf pkt - 1)) && !replaying s ctx.part
        then some (ctx.part, q, pkt, d) else none
      | _ => none
    | _, _ => none
  | _, _, _ => none

/-- The request of another core or device that a response answers (R450). -/
def answeredReq (s : State) (pkt : Packet) : Option FabReq :=
  ((splitPairs pkt s).core pkt.core.toNat).requests.find? fun r => r.req == pkt.req.toNat

/-- The refused request of a core that is due, the oldest to its device and VC (R451). -/
def retryDue (s : State) (c : Nat) : Option FabReq :=
  ((s.core c).requests.find? fun r => r.refusedUntil.isSome).filter fun r =>
    injects s c && !(s.cores.any fun (e : Nat × Core) => e.2.requests.any fun q =>
      q.refusedUntil.isSome && q.dest == r.dest && q.vc == r.vc && decide (q.order < r.order)) &&
    decide (s.now ≥ r.refusedUntil.getD 0) && !quenched s r.packet.part

/-- A packet with nothing in it. -/
def emptyPacket : Packet :=
  { op := 0, size := 0, src := 0, dest := 0, part := 0, retry := false, func := 0, core := 0, req := 0, index := 0, contributors := 0, status := 0
    addr := 0, ext := 0, data := [] }

/-- A request of an operation reaches its home here and is performed in its turn: it is allowed, of right form, not refused, not held to a
boundary, and no copy of its lines must first be removed (R444, R449, R451, R453, R455, R457, R513). -/
def homeTaken (s : State) (op : BitVec 8) (p : Packet) : Bool :=
  s.working && s.serves fabrPage && s.flag fabrPage Rg.fabrDeviceIdValid && p.op == op && forHere s p && rxReady s p && permitted s p &&
    !decide (s.fabric.refusing.contains (p.src.toNat, vcOf p) = true ∧ (!p.retry) = true) && !recordedIn s p && requestOk p &&
    !(absorbed s p && absorberFull s p) && (op == opReadS || op == opReadX || (blockedLine s p).isNone)

/-- The state in which it is performed: the source is no longer refused. -/
def heardState (s : State) (p : Packet) : State :=
  { s with fabric := { s.fabric with refusing := s.fabric.refusing.erase (p.src.toNat, vcOf p) } }

/-- It has been answered with status OK and data, leaving u. -/
def Answered (p : Packet) (grantE : Bool) (u : State) (data : List Byte) (t : State) : Prop :=
  t = (takeRx p u).sendPackets [answerTo u p grantE 0 0 data]

/-- The bytes that a request reaches, where they can be read. -/
def homeBytes (s : State) (p : Packet) : Option (List Byte) := rangeBytes (heardState s p) p.part p.addr.toNat (requestBytes p)

/-- A write of the request's bytes is taken. -/
def homeWrites (s : State) (p : Packet) : Bool :=
  (heardState s p).partWriteCheck p.part p.addr.toNat (p.data.take (requestBytes p)).length == .done

/-- An atomic can read its word and write it. -/
def homeAtomic (s : State) (p : Packet) : Bool :=
  let u := heardState s p
  (accessError u p.part p.addr.toNat (requestBytes p) true).isNone && !writeWaits u p.part p.addr.toNat (requestBytes p) && (homeBytes s p).isSome &&
    (u.partTouch p.part p.addr.toNat (requestBytes p)).partWriteCheck p.part p.addr.toNat (requestBytes p) == .done

/-- The state that an atomic leaves over an old value. -/
def atomicDone (p : Packet) (old : List Byte) (s : State) : State :=
  let n := requestBytes p
  absorb p (((heardState s p).partTouch p.part p.addr.toNat n).partStore p.part p.addr.toNat
    (toBytes n (atomicValue p.func n (leNat old) (leNat (p.data.take n)) (leNat (p.data.drop n)))))

/-- A line that no member holds yet can be granted to a member that asks (R453). -/
def lineGrants (s : State) (p : Packet) (x : Bool) : Bool :=
  let u := heardState s p
  let k := p.part.val
  let a := p.addr.toNat
  (accessError u k a 64 x).isNone && inGroup u p.src.toNat && !unitHeld u k (a, 64) && !(x && writeWaits u k a 64) && !(x && lineBlock u k a true false == .page) &&
    (dirFind u (dirKey k a)).isNone && decide (u.fabric.dir.length < 4 * 8388608) && (u.pageOf k a).any fun e =>
      (match placeOf u e a with
        | .here _ _ => true
        | _ => false) && !placeHeld u (placeOf u e a) && ((partBytes u k (a, 64) 0).mapM id).isSome

/-- A message about a line is taken (R444, R449, R453). -/
def lineTaken (s : State) (op : BitVec 8) (p : Packet) : Bool :=
  s.working && s.serves fabrPage && s.flag fabrPage Rg.fabrDeviceIdValid && p.op == op && forHere s p && rxReady s p && permitted s p

/-- The output from which ROUTE_MOVE takes a destination (R459): it has given no credit for ADAPT_TIME, the other output is up, has credit and offers a
path that no better one beats, and a route entry and a seal tag are free. -/
def routeMoves (s : State) (d output : Nat) : Option Nat :=
  let short := fun a => match firstGoal s d with
    | some (.inl m) => ((waysTo s d).filter fun p => portUp s p && hasCredit s p && p != a).filter (shortWays s m).contains
    | _ => []
  let busy : Bool := match tabFind d s.fabric.moves with
    | some m => m.tag.isSome
    | none => decide (s.fabric.moves.length ≥ 1024)
  (outputOf s d 0).filter fun a =>
    s.working && s.flag fabrPage Rg.fabrAdaptControlEnable &&
      decide (s.now ≥ (linkOf s a).creditAt + max 1 (s.reg fabrPage Rg.fabrAdaptControlAdaptTime) * 1000) &&
      ((waysTo s d).filter fun p => portUp s p && hasCredit s p && p != a).contains output && ((short a).isEmpty || (short a).contains output) && !busy

/-- The outputs between which ROUTE_RETURN moves a destination (R459). -/
def routeReturns (s : State) (d : Nat) : Option (Nat × Nat) :=
  let busy : Bool := match tabFind d s.fabric.moves with
    | some m => m.tag.isSome
    | none => decide (s.fabric.moves.length ≥ 1024)
  match outputOf s d 0, (waysTo s d).head? with
  | some a, some p =>
    if s.working ∧ !busy ∧ a ≠ p ∧ portUp s p ∧ s.now ≥ (linkOf s p).starvedAt + 1000000 then some (a, p) else none
  | _, _ => none

/-- The downlink symbol that is due for hand-off (R297): the cell and its slot command. -/
def uplaneDue (s : State) (k cell frame slot symbol : Nat) (ready : Bool) : Option (Cell × SlotRun) :=
  match tabFind cell (s.radioOf k).cells, slotOfCell (s.radioOf k) cell frame slot with
  | some y, some r =>
    if s.working ∧ !y.standby ∧ ready = true ∧ !(s.radioOf k).discarded.contains (cell, r.index) ∧ !r.withheld.contains symbol ∧ !r.handed.contains symbol ∧
        (s.now : Int) ≥ airNs y.info r.index symbol - 1000 * (y.info.t1aMaxUp : Int) then some (y, r) else none
  | _, _ => none

/-- The completion queue of a stream's records takes one (R344, R346). -/
def cqTakes (s : State) (target : Nat) : Bool :=
  s.host.linkUp && !s.frozen qmgrPage && (s.cq (.num (Fin.ofNat 262144 target))).any fun y => !cqFull y && y.waiting.isEmpty

/-- A frame with a stream's oldest record can be formed (R345, R346). -/
def frameTakes (s : State) (n : Nat) (x : StreamRun) (r : TokenRec) : Bool :=
  let mates := frameMates s x r
  (groupImage s x.part x.group).isSome && !((mates.drop (mates.findIdx (fun e => e.1 == n) / 64 * 64)).take 64).isEmpty &&
    (egressSuppressed s x.part || fitsClass s x.target 3)

/-- A vector instruction of a signal core has formed dd's block from values (R149, R193). -/
def DWrote (k : Fin 64) (dd : Fin 64) (vals : List (ExactVal × Bool)) (s t : State) : Prop :=
  let o := storeExact 16 (vals.any (·.2)) (vals.map (·.1))
  t.sigc k = sNext (setD dd ⟨dPack o.elems, o.exp⟩ (s.sigc k)) ∧ OthersSame (.sigc k) s t ∧
    (o.sat = true → t.flag (sigcPage k) Rg.sigcArithFlagsSat = true) ∧ (o.poison = true → t.flag (sigcPage k) Rg.sigcArithFlagsPoison = true)

/-- The raw access of a signal core at aN, modified by a step under kN after it or before it, is right (R198): the modified register and the
address. -/
def rawAt (s : State) (k : Nat) (a : Fin 16) (pre : Bool) (step : Int) (n : Nat) : Option (BitVec 64 × Nat) :=
  let x := s.sigc k
  (postModify (getK x a) (getA x a) (s.free 64 1) n step).bind fun next =>
    let at_ := (if pre then next else getA x a).toNat
    if n ≠ 1 ∧ at_ % n = 0 ∧ at_ < 2 ^ 19 then some (next, at_) else none

/-- The place of a raw access of a signal core: the register, whether it is modified first, and the step. -/
def placeRaw : ScalarPlace → Option (Fin 64 × Fin 16 × Bool × Int)
  | .core _ _ _ => none
  | .post k a step => some (k, a, false, step.toInt)
  | .pre k a step => some (k, a, true, step.toInt)

/-- A vector instruction has written vd and or-ed flags into ARITH_FLAGS (R87, R150): u is the state its operands were read in. -/
def VWrote (c : Fin 160) (vd : Fin 32) (r : VReg × Nat) (s t : State) : Prop :=
  t.core c = advance (setV vd r.1 (s.core c)) ∧ OthersSame (.core c) s t ∧
    t.reg (corePage c) Rg.coreArithFlagsSat = (getFlags s c ||| r.2) % 2 ∧ t.reg (corePage c) Rg.coreArithFlagsPoison = (getFlags s c ||| r.2) / 8 % 2

/-- The values that a class 0x27 instruction writes to its lanes, and whether an operand was poisoned (R150). -/
def convertedValues (op : VecConv) (va vb : VReg) (lane target : Lane) : List (ExactVal × Bool) :=
  let vals := vValues lane va
  let vals := if op = .requantize then
      (vals.mapIdx fun i v => ((v.1.1 * ((vEntry vb i).1 : Int), v.1.2 - ((vEntry vb i).2 : Int)), v.2) : List (ExactVal × Bool))
    else vals
  if op = .requantize ∧ laneRaw lane ∧ laneRaw target then vals else vals.map fun v => (convertValue lane target v.1, v.2)

/-- The exponents that VLD loads: a block with an unreadable byte in either plane is poisoned (R152). -/
def loadedExps (s : State) (c a e : Nat) (lane : Lane) : List (BitVec 8) :=
  let per := laneBlock lane * laneBits lane / 8
  (readBytes .spad s.mem.spad (spadKey c e) (laneBlocks lane)).mapIdx fun b x =>
    if (((readBytes .spad s.mem.spad (spadKey c a) (laneCount lane * laneBits lane / 8)).drop (b * per)).take per).any Option.isNone then 0x80 else x.getD 0x80

/-- The line at which ZLD, ZST or TAPM accesses data memory, and the register's next value, where the access is right (R193, R198, R199). -/
def lineAccess (s : State) (k : Nat) (a : Fin 16) (step : Int) : Bool :=
  (postModify (getK (s.sigc k) a) (getA (s.sigc k) a) 0 64 step).isSome && (lineTrap (getA (s.sigc k) a)).isNone

/-- TAPM's three accesses are right (R198, R199): the two registers after it and the line it writes. -/
def tapmMoves (s : State) (k : Nat) (ac ax : Fin 16) : Option (BitVec 64 × BitVec 64 × BitVec 64) :=
  let x := s.sigc k
  match postModify (getK x ac) (getA x ac) 0 64 64, postModify (getK x ax) (getA x ax) 0 64 64, postModify (getK x ax) (getA x ax) 0 64 (-64) with
  | some next1, some dest, some next2 =>
    if ([getA x ac, getA x ax, dest].findSome? lineTrap).isNone then
      some (next1, dest, if ac = ax then (postModify (getK x ax) next1 0 64 (-64)).getD next2 else next2) else none
  | _, _, _ => none

/-- LOOP's count (R202). -/
def loopCount (x : Sigc) : LoopCount → BitVec 32
  | .imm v => v.setWidth 32
  | .reg a => (getA x a).setWidth 32

/-- The loop that LOOP opens nests rightly (R202). -/
def loopNests (x : Sigc) (n : Nat) (last : BitVec 16) : Bool :=
  !((List.range 3).any fun j => decide (n ≤ j) && (levelOf x j).active) &&
    (match enclosing x n with
      | some l => decide (last.toNat ≤ l.last.toNat)
      | none => true)

/-- The line that a running DMA channel moves next, and the partition that it belongs to (R157, R192). -/
def dmaDue (s : State) (k ch : Nat) : Option (StreamSlot × StreamDesc × Nat) :=
  match runningDma s k ch with
  | some (v, p, some part) => if v.moved < dmaCount p ∧ ringAllows p v then some (v, p, part) else none
  | _ => none

/-- The ways of a die's buffer whose share BUFFER_WAYS changes (R251). -/
def changedWays (s : State) (m : Nat) (value : BitVec 32) : List Nat :=
  (List.range 16).filter fun w => (s.reg (msidPage m) Rg.msidBufferWaysWays).testBit w != (value.toNat % 65536).testBit w

/-- A command of partition c with DATA_LEN and an object record as its data meets no refusal of OBJECT_DECLARE (R253, R254). -/
def declares (u : State) (k : Nat) (d : BitVec 512) : Bool :=
  let o := objectRec d
  let pages := (List.range (objectPages o)).map (· + o.base / pageBytes)
  !objectWrong u k d o (dField d 0 0 16) && !allotExceeded u k o.tier (objectPages o) pages && !pages.any fun p => (tabFind (pageKey k p) u.tier.pages).isSome

/-- The object of a command that no sluice list and no FILL names and that stays where it is (R255, R256). -/
def objectFree (u : State) (k id : Nat) : Option ObjectRec :=
  (tabFind (objKey k id) u.tier.objects).filter fun o => !sluiceNames u k o && !fillNames u k o && !movingObject u k id

/-- OBJECT_MOVE meets no refusal (R256). -/
def objectMovable (u : State) (k id tier : Nat) : Option ObjectRec :=
  (tabFind (objKey k id) u.tier.objects).filter fun o =>
    !sluiceNames u k o && tier != 3 && !tierForbidden u k { o with tier := tier } && (tier == o.tier ||
      (!allotExceeded u k tier ((partPages u k).filter fun e => e.2.object == id && e.2.tier != tier).length [] && (tabFind k u.tier.moves).isNone))

/-- The page that heat placement moves next, and where to (R257, R258). -/
def heatChoice (s : State) (k : Nat) : Option (Nat × Nat) :=
  match pickPage (fun a b => decide (a > b)) ((coveredPages s k 1).filter fun e => decide (e.2.heat ≥ 16 * s.reg (partPage k) Rg.partHeatControlThreshold)) with
  | none => none
  | some (ck, c) =>
    if !allotExceeded s k 0 1 [] then some (ck % 2 ^ 25, 0)
    else
      match pickPage (fun a b => decide (a < b)) ((coveredPages s k 0).filter fun e => mayLeaveHbm s k e.2) with
      | none => none
      | some (vk, v) => if 2 * v.heat < c.heat ∧ !allotExceeded s k 1 1 [] then some (vk % 2 ^ 25, 1) else none

/-- The entry at which a sluice engine stands, of a kind, with its list's header: source and length (R265, R267). -/
def sluiceAt (s : State) (e kind : Nat) : Option (SluiceRun × SluiceHead × Nat × Nat) :=
  (sluiceRuns s e).bind fun r =>
    match sluiceHead s r.part r.list, sluiceEntry s r.part r.list r.entry with
    | some h, some (k, src, len) => if k = kind then some (r, h, src, len) else none
    | _, _ => none

/-- A phase sample is taken: refused beyond STEP_LIMIT, stepped beyond SLEW_LIMIT, slewed otherwise (R492 to R494). -/
def Sampled (theta : Int) (s t : State) : Prop :=
  let limit := s.reg timePage Rg.timeStepLimitNano * 65536
  let slew := min (s.reg timePage Rg.timeSlewLimitNano * 65536) limit
  t.time.sampleAt = some s.now ∧ t.reg timePage Rg.timeLastOffsetOffset = int64 theta ∧
    (theta.natAbs > limit → t.time.step = s.time.step ∧ t.time.integ = s.time.integ ∧ t.reg timePage Rg.timeFreqAdjY = s.reg timePage Rg.timeFreqAdjY ∧
      (t.reg timePage Rg.pageIntStatus).testBit 1 = true) ∧
    (theta.natAbs ≤ limit → theta.natAbs > slew → t.time.step = s.time.step - theta ∧ t.time.integ = s.time.integ ∧ t.time.acceptedAt = s.now) ∧
    (theta.natAbs ≤ slew → t.time.step = s.time.step ∧ t.time.acceptedAt = s.now ∧ ∀ at_, s.time.sampleAt = some at_ → ∃ up : BitVec 1,
      t.time.integ = s.time.integ + servoTerm (s.reg timePage Rg.timeServoGainKi) theta (s.now - at_) up)

/-- The pairing is on and the twin is not yet judged failed (R541). -/
def twinWatched (s : State) : Bool := twinOn s && !s.twin.failed

/-- What judging the twin failed does (R541, R542, R553): standby cells whose state is still being copied are lost; else they take over with
AUTO where the twin wire works; else TWIN_DOWN is raised. -/
def TwinJudged (s t : State) : Prop :=
  t.twin.failed = true ∧
    ((standbyCells s).isEmpty = true → t.reg raspPage Rg.raspTwinStatusState = 3 ∧ (t.reg raspPage Rg.pageIntStatus).testBit 5 = true ∧ t.radio = s.radio) ∧
    ((standbyCells s).isEmpty = false → s.reg raspPage Rg.raspTwinStatusState = 1 → t.reg raspPage Rg.raspTwinStatusState = 3 ∧
      (t.reg raspPage Rg.pageIntStatus).testBit 10 = true) ∧
    ((standbyCells s).isEmpty = false → s.reg raspPage Rg.raspTwinStatusState ≠ 1 → s.flag raspPage Rg.raspTwinControlAuto = true →
      s.flag raspPage Rg.raspTwinStatusPinFault = false → t.reg raspPage Rg.raspTwinStatusState = 4 ∧ (t.reg raspPage Rg.pageIntStatus).testBit 6 = true)

/-- The cell that CELL_START starts from its 256 bytes, where none of its refusals applies (R285, R286). -/
def cellStarts (u : State) (k : Nat) (b : List Byte) : Option CellRec :=
  let r := cellFields b
  if cellReserved b || cellRangeBad r || !harqOk u k r.harqObject || (tabFind r.cell (u.radioOf k).cells).isSome then none
  else
    match u.partBytesAll k (leAt b 0x38 8) (8 * r.eaxcCount), u.partBytesAll k (leAt b 0x20 8) r.eaxcCount with
    | some m, some e =>
      (ingressMap u k m r.eaxcCount).bind fun t =>
        if ringsAgree u t && !(e.any fun x => decide (x.toInt < -64) || decide (x.toInt > 64)) then some { r with eref := e.map fun x => x.toInt, ingress := t } else none
    | _, _ => none

/-- The slot command that SLOT takes from its 32 bytes, where none of its refusals applies and it is in time (R288, R289). -/
def slotStarts (u : State) (c : Cmd) (b : List Byte) (tasks : List SlotTask) (arb : Bool) : Option SlotRun :=
  let w := fun off => leAt b off 4
  if w 0 / 2 ^ 9 % 2 ^ 7 ≠ 0 ∨ w 0 / 2 ^ 18 ≠ 0 ∨ w 4 / 2 ^ 10 % 2 ^ 6 ≠ 0 ∨ w 4 / 2 ^ 23 ≠ 0 ∨ w 8 / 2 ^ 13 ≠ 0 ∨ w 0xC / 2 ^ 18 ≠ 0 then none
  else
    (tabFind (w 0 % 512) (u.radioOf c.part).cells).bind fun y =>
      let slot := w 4 / 2 ^ 16 % 128
      let n := slotNamed y.info c.arrival (w 4 % 1024) slot
      let limit := airNum y.info (n - if y.info.mu = 3 then 2 else 1) 0
      let at_ : Int := (c.arrival * (96 * 2 ^ y.info.mu) : Nat)
      if slot < slotsPerFrame y.info.mu ∧ (at_ < limit ∨ (at_ = limit ∧ arb)) ∧ tasksOk u c.part (w 0 / 2 ^ 16 % 4) (w 8) tasks then
        some { cmd := { c with started := true }, cq := .num (Fin.ofNat 262144 (w 0xC)), cell := y.info.cell, frame := w 4 % 1024, slot := slot
               index := n, predicted := leAt b 0x10 8, tasks := tasks, held := y.standby }
      else none

/-- The completion status of a slot command (R290, R306, R312). -/
def slotOutcome (s : State) (k : Nat) (r : SlotRun) (poisonPrbs : Nat) : Nat :=
  if !r.missed.isEmpty then 0x0401
  else if !r.erased.isEmpty then 0x0404
  else if poisonPrbs ≠ 0 then 0x0405
  else if s.reg (partPage k) Rg.partRadioStatusCalState = 1 then 0x0010
  else 0

/-- The state in which a slot command completes: its tasks with a descriptor that ended LATE have missed (R299, R310). -/
def lateMissed (k cell frame slot : Nat) (r : SlotRun) (s : State) : State :=
  s.each (List.range r.tasks.length) fun i t => missWhere k cell frame slot i (hasLate (s.radioOf k)) t

/-- A slot command's tasks may be done: where some run on surge cores, a claim for its slot has been served (R292). -/
def surgeReady (s : State) (k : Nat) (r : SlotRun) : Bool :=
  (surgeTasks r).isEmpty || r.served || (claimsFor (s.radioOf k) (slotMates (s.radioOf k) r)).any fun m => m.ready.isSome

/-- The user-plane window of a symbol closes for an eAxC: its time has come, or every PRB named has been written (R289, R293, R298). It answers
the cell, the slot's number, the PRBs erased and, of them, those that did not arrive. -/
def uplaneCloses (s : State) (k cell frame slot symbol eaxc : Nat) (named : List Nat) : Option (Cell × Int × List Nat × List Nat) :=
  (tabFind cell (s.radioOf k).cells).bind fun y =>
    let x := s.radioOf k
    let n := slotNamed y.info s.now frame slot
    let mine := x.arrived.filter fun e => e.cell == cell && e.index == n && e.symbol == symbol && e.eaxc == eaxc
    let unwritten := named.eraseDups.filter fun p => !mine.any fun e => e.prb == p && e.written
    if s.alive ∧ !y.standby ∧ eaxc < y.info.eaxcCount ∧ !x.discarded.contains (cell, n) ∧ !x.closed.contains (cell, n, symbol, eaxc) ∧
        ((s.now : Int) ≥ airNs y.info n symbol + 1000 * (y.info.ta4Max : Int) ∨ unwritten.isEmpty) then
      some (y, n, unwritten, unwritten.filter fun p => !mine.any fun e => e.prb == p)
    else none

/-- A claim for a slot command may be issued (R300, R308, R309). -/
def claimsMore (s : State) (k : Nat) (r : SlotRun) : Bool :=
  claimInTime s k r && decide ((claimsFor (s.radioOf k) (slotMates (s.radioOf k) r)).length < surgeNeed s k r)

/-- The claim that a surge core's readiness serves (R300, R301). -/
def claimDue (s : State) (c : Nat) : Option (Nat × Claim) :=
  (s.core c).surgeFor.bind fun f =>
    if s.working ∧ (s.core c).ctx.isNone ∧ enginesIdle (s.core c) ∧ streamsIdle (s.core c) then (claimOf (s.radioOf f.1) c).map fun m => (f.1, m) else none

/-- The claim that is late for the first time (R302). -/
def claimPast (s : State) (c : Nat) : Option (Nat × Nat × Claim) :=
  (s.core c).surgeFor.bind fun f =>
    (claimOf (s.radioOf f.1) c).bind fun m =>
      if s.working ∧ s.now ≥ f.2.2 + 60000 ∧ m.cores.head? = some c ∧ m.cores.length = 1 then some (f.1, f.2.1, m) else none

/-- A stream command names a STREAM_ID of its partition's range, with the DATA_LEN and the parameters it has (R320). -/
def streamNamed (u : State) (c : Cmd) (len : Nat) (used : List (Nat × Nat × Nat)) : Bool :=
  inRange u c.part Rg.partStreamBaseBase Rg.partStreamCountCount (c.field 0x18 0 16) && decide (cmdLen c = len) && paramsClean c used

/-- The stream of such a command. -/
def streamIn (u : State) (c : Cmd) (len : Nat) (used : List (Nat × Nat × Nat)) : Option StreamRun :=
  if streamNamed u c len used then u.stream (c.field 0x18 0 16) else none

/-- STREAM_OPEN meets no refusal (R317, R319). -/
def streamOpens (u : State) (c : Cmd) (n : Nat) (b : List Byte) : Bool :=
  let k := c.part
  let d := BitVec.ofNat 2048 (leNat b)
  let x : StreamRun := { part := k, image := d, group := recField d 0 8 3, admitNo := 0 }
  !streamWrong u k (if u.host.linkUp then none else c.lead) d && (u.stream n).isNone && (groupImage u k x.group).isSome && (u.partBytesAll k x.pageList (4 * x.prefixPages)).isSome

/-- RESHARD meets no refusal (R337). -/
def reshards (u : State) (k n : Nat) (group : Nat) : Option StreamRun :=
  if inRange u k Rg.partStreamBaseBase Rg.partStreamCountCount n then
    (u.stream n).filter fun x => x.state == 4 && x.op.isNone && (match groupImage u k group, groupImage u k x.group with
      | some a, some b => a.model == b.model && a.layerBytes == b.layerBytes
      | _, _ => false)
  else none

/-- The state in which a step of a group is composed: in strict mode it is the next one of its round (R510, R511). -/
def composeState (s : State) (k : Nat) (item : Nat × Nat) : Option State :=
  if !strict s then some s
  else (roundFor s k item).map fun r => { s with parts := tabPut {} k { tabGet {} k s.parts with round := r.drop 1 } s.parts }

/-- The prefill step that a group composes from a state: the state it leaves, and its streams with their tokens (R325, R331). -/
def prefillBatch (u : State) (k g : Nat) (x : ServeGroup) : State × List (Nat × Nat) :=
  let r := (streamsOf u fun y => y.part == k && y.group == g && (y.state == 1 || y.state == 2) && !y.inStep).foldl (prefillTurn k x) (u, x.prefillTokens, [], true)
  (r.1, r.2.2.1)

/-- The decode step of a microbatch that a group composes from a state (R331). -/
def decodeBatch (u : State) (k g mb : Nat) (x : ServeGroup) : State × List Nat :=
  (streamsOf u fun y => y.part == k && y.group == g && y.state == 4 && y.mb == mb && !y.inStep).foldl (decodeTurn k x.batchMax) (u, [])

/-- An SPDM request is taken on a transport: the firmware serves it and the connection has reached the stage (R573). -/
def stageAt (s : State) (src : MgmtSource) (stage : Nat) : Bool := serves s src && decide (stage ≤ tabGet 0 (transport src) s.mgmt.spdm)

/-- A PLDM request is taken (R559, R561). -/
def pldmTaken (s : State) (src : MgmtSource) : Bool := serves s src && isMctp src

/-- A request has been answered with bytes; nothing but the answer, the last large answer and the free values used is changed. -/
def AnsweredBytes (src : MgmtSource) (b : List Byte) (s t : State) : Prop :=
  t.out = (answer src (.bytes b) s).out ∧ tabFind (transport src) t.mgmt.large = some b ∧ t.regs = s.regs ∧ t.fuses = s.fuses

/-- The device runs a firmware image (R563, R565). -/
def ImageRuns (b : List Byte) (t : State) : Prop :=
  t.mgmt.sram = b ∧ t.mgmt.booting = none ∧ bootState t = 2 ∧ t.reg mgmtPage Rg.mgmtBootStatusImageSvn = imgField b 8 4 % 2 ^ Rg.mgmtBootStatusImageSvn.len ∧
    (t.reg mgmtPage Rg.pageIntStatus).testBit 1 = true

/-- No image verifies: BOOT_CODE says why, and the controller awaits recovery (R563, R565). -/
def RecoveryAwaited (code : Nat) (t : State) : Prop :=
  t.mgmt.sram = [] ∧ t.mgmt.booting = none ∧ bootState t = 3 ∧ t.reg mgmtPage Rg.mgmtBootCodeCode = code ∧ (t.reg mgmtPage Rg.pageIntStatus).testBit 2 = true

/-- The measurement blocks that a transport may ask for (R574). -/
def measuredFor : MgmtSource → List Nat
  | .vfDoe _ => [1, 2, 3]
  | _ => [1, 2, 3, 4, 5]

/-- The owner under which an engine takes its next descriptor: an owner write of the same instant may come after the boundary (R213, R218). -/
def startOwner (s : State) (engine : CodingEngine) (ownerWriteFirst : Bool) : Option Nat :=
  match tabFind (engineKey engine) s.coding.replaced with
  | some (at_, old) => if at_ = s.now ∧ !ownerWriteFirst then old else ownerReg s (engineKey engine)
  | none => ownerReg s (engineKey engine)

/-- The first byte that a descriptor needs and that is not the partition's HBM (R229). -/
def codingFault (s : State) (k : Nat) (p : CodingDesc) : Option Nat := (codingRanges p).findSome? fun r => notHbm s k r.1 r.2.1 r.2.2

/-- The reads of a coding descriptor: its input, and the HARQ buffers that it combines with (R221, R224). -/
def codingReads (s : State) (k : Nat) (p : CodingDesc) : State :=
  let t := s.partTouch k p.inAddr (codingSpan p).1
  if p.op = 0 ∧ p.combine then
    t.each (selected p (segments p).c) fun i u => u.partTouch k (p.harqAddr + i * harqBytes (segments p).ncb) (harqBytes (segments p).ncb)
  else t

/-- A sluice engine takes a counter at once: it is its turn, or the count is above 0 and nobody waits before it (R164, R267). -/
def sluiceTakes (s : State) (r : SluiceRun) (ix : Nat) : Bool :=
  r.granted || (partSem s r.part ix).any fun n => !(s.sem n).lock && r.waits.isNone && decide ((s.sem n).count > 0) && (s.sem n).waiters.isEmpty

/-- The state in which it has taken it. -/
def sluiceTaken (s : State) (r : SluiceRun) (ix : Nat) : State :=
  if r.granted then s
  else
    match partSem s r.part ix with
    | some n => s.setSem n { s.sem n with count := (s.sem n).count - 1 }
    | none => s

/-- The counter in whose queue a sluice engine takes its place (R164, R267). -/
def sluiceQueues (s : State) (r : SluiceRun) (ix : Nat) : Option Nat :=
  (partSem s r.part ix).filter fun n => !r.granted && !(s.sem n).lock && r.waits.isNone && !(decide ((s.sem n).count > 0) && (s.sem n).waiters.isEmpty)

/-- A downlink symbol is marked as handed off: its poisoned blocks are counted, and saturation sets the flag of its task's core (R87, R90,
R297, R312). -/
def symbolHanded (k cell : Nat) (symbol : Fin 14) (y : Cell) (r : SlotRun) (blocks : List EgressBlock) (s : State) : State :=
  let t := (setSlotRun k r { r with handed := r.handed ++ [symbol.val] } s).modRadio k fun x =>
    { x with poison := addCell (blocks.filter fun b => b.exp == 0x80).length cell x.poison }
  match egressCore r symbol.val with
  | some c => if blocks.any fun b => (egressBlock y.info b).2.2 then orFlags c 1 t else t
  | none => t

/-- The PRBs of a downlink symbol as they leave (R90): eAxC position, PRB, X and mantissas. -/
def egressPrbs (y : Cell) (blocks : List EgressBlock) : List (Nat × Nat × Nat × List Int) :=
  blocks.map fun b => (b.eaxc.val, b.prb.val, (egressBlock y.info b).1, (egressBlock y.info b).2.1)

/-! ### Frames, register writes and the invariant -/

/-- The parts of the state that a command may change: the fields of State but for the queue. -/
inductive StatePart where
  | out | freeIx | regs | latches | resets | plat | fuses | time | cores
  | fabric | sigcs | sems | ctxs | tier | coding | parts | radio | serve
  | records | eth | mem | host | mgmt | power | ras | twin | salt
  deriving DecidableEq, Repr

/-- A part of two states is the same. -/
def samePart (p : StatePart) (s t : State) : Prop :=
  match p with
  | .out => t.out = s.out
  | .freeIx => t.freeIx = s.freeIx
  | .regs => t.regs = s.regs
  | .latches => t.latches = s.latches
  | .resets => t.resets = s.resets
  | .plat => t.plat = s.plat
  | .fuses => t.fuses = s.fuses
  | .time => t.time = s.time
  | .cores => t.cores = s.cores
  | .fabric => t.fabric = s.fabric
  | .sigcs => t.sigcs = s.sigcs
  | .sems => t.sems = s.sems
  | .ctxs => t.ctxs = s.ctxs
  | .tier => t.tier = s.tier
  | .coding => t.coding = s.coding
  | .parts => t.parts = s.parts
  | .radio => t.radio = s.radio
  | .serve => t.serve = s.serve
  | .records => t.records = s.records
  | .eth => t.eth = s.eth
  | .mem => t.mem = s.mem
  | .host => t.host = s.host
  | .mgmt => t.mgmt = s.mgmt
  | .power => t.power = s.power
  | .ras => t.ras = s.ras
  | .twin => t.twin = s.twin
  | .salt => t.salt = s.salt

/-- The parts of the state that a command may change; every other part it leaves as it is. -/
def touched : Instr → List StatePart
  | .powerOn .. | .resetAccept .. =>
    [.out, .freeIx, .regs, .latches, .resets, .plat, .fuses, .time, .cores, .fabric, .sigcs, .sems, .ctxs, .tier, .coding, .parts, .radio,
      .serve, .records, .eth, .mem, .host, .mgmt, .power, .ras, .twin, .salt]
  | .supplyDrop .. =>
    [.plat, .host]
  | .resetRelease .. =>
    [.plat]
  | .bringupStart .. | .refclkAPresent | .hotWaitEnd =>
    [.regs, .plat, .time]
  | .bringupDone =>
    [.out, .freeIx, .regs, .plat, .cores, .fabric, .sems, .ctxs, .tier, .mem, .host, .twin]
  | .refclkALoss =>
    [.regs, .plat, .mem, .host]
  | .thermalTrip .. =>
    [.out, .plat, .twin]
  | .waveWindowEnd .. =>
    [.out, .regs, .plat, .cores, .fabric, .sems, .ctxs, .tier, .radio, .mem, .host, .twin]
  | .vddCoreStepUp .. | .vddCorePolicy .. =>
    [.out, .plat]
  | .avsTransaction .. =>
    [.out, .regs, .plat, .host]
  | .registerWrite .. =>
    [.out, .freeIx, .regs, .time, .parts, .host, .salt]
  | .registerReadClear .. | .counterLatchRead .. | .timeNowRead .. =>
    [.out, .regs, .latches, .fabric, .radio, .eth, .host]
  | .intStatusClear .. | .intForceWrite .. | .sigcTrapResume .. | .allotWrite .. | .dirtyAtomicCompletion .. | .pcieLinkDown | .pcieLinkUp ..
  | .sqTailDoorbell .. | .cqHeadDoorbell .. | .completionWrite .. | .adminQueueEnable .. | .memberEvent .. | .retrainWrite ..
  | .groupModeWrite .. | .holdoverEntry | .nodeRead .. | .policerRead .. | .flipArm .. | .twinPinFault | .vbatLow .. =>
    [.out, .regs, .host]
  | .softReset .. =>
    [.out, .regs, .latches, .plat, .cores, .fabric, .sigcs, .sems, .ctxs, .tier, .coding, .parts, .radio, .serve, .records, .eth, .mem,
      .host, .ras, .twin, .salt]
  | .softResetDone .. =>
    [.regs, .cores, .sigcs, .sems]
  | .enableWrite .. =>
    [.out, .freeIx, .regs, .cores, .fabric, .sigcs, .sems, .ctxs, .tier, .parts, .records, .mem, .host, .twin, .salt]
  | .blockOperating .. | .blockStopped .. | .blockFrozen .. | .bulkLinkUp .. =>
    [.regs]
  | .freezeWrite .. =>
    [.out, .regs, .cores, .sems, .ctxs, .host]
  | .scalarInstruction .. | .branchInstruction .. | .cheapSaveDone .. | .brk .. | .trapResume .. | .trapSkip .. | .ctxActivate ..
  | .ctxResume .. | .sliceEnd .. | .contextStart .. =>
    [.out, .regs, .cores, .fabric, .ctxs, .tier, .mem, .host, .twin]
  | .ld .. | .st .. | .vectorReduce .. =>
    [.out, .freeIx, .regs, .cores, .fabric, .sigcs, .ctxs, .tier, .mem, .host, .twin]
  | .vld .. | .vst .. | .vectorRequantize .. | .vpoly .. | .vectorMove .. | .issueArrayPass .. | .issueTileLoad .. | .issueStream ..
  | .issueFabric .. | .issueCoding .. | .forcedSaveDone .. =>
    [.out, .freeIx, .regs, .cores, .fabric, .ctxs, .tier, .mem, .host, .twin]
  | .vectorElementwise .. | .vectorShiftCompare .. | .vectorPermute .. | .wait .. | .fence .. | .srel .. | .rdtime .. | .rdflags ..
  | .clrflags .. | .rdwave .. =>
    [.out, .regs, .cores, .fabric, .sigcs, .ctxs, .tier, .mem, .host, .twin]
  | .arrayPassStart .. | .arrayPassDone .. | .tileLoadStart .. =>
    [.out, .freeIx, .regs, .cores, .mem, .host]
  | .tileLoadDone .. | .skewProbeStart .. | .rowRepairWrite .. | .colRepairWrite .. =>
    [.out, .regs, .cores, .host]
  | .arrayFence .. | .deferredTrap .. | .trapAbort .. | .ctxSuspend .. | .ctxDestroy .. | .flrVf .. | .coreFenceWrite .. | .coreCheckFail .. =>
    [.out, .regs, .cores, .fabric, .sems, .ctxs, .tier, .mem, .host, .twin]
  | .skewProbeDone .. | .coreRetireWrite .. =>
    [.out, .regs, .plat, .cores, .fabric, .sems, .ctxs, .tier, .mem, .host, .twin]
  | .streamSlotStart .. | .streamSlotDone .. =>
    [.regs, .cores]
  | .streamLineMoved .. | .fabricResponse .. | .refusedRetry .. =>
    [.out, .freeIx, .regs, .cores, .fabric, .tier, .mem, .host, .twin]
  | .streamHalt .. =>
    [.out, .freeIx, .regs, .cores, .fabric, .tier, .mem, .host]
  | .semacq .. | .semrel .. | .semtry .. | .semset .. | .waitDeadline .. | .halt .. =>
    [.out, .regs, .cores, .fabric, .sigcs, .sems, .ctxs, .tier, .mem, .host, .twin]
  | .semaphoreGrant .. =>
    [.regs, .cores, .sigcs, .sems, .tier]
  | .waitEventArrival .. | .fenceComplete .. =>
    [.cores, .sigcs]
  | .cpmark .. =>
    [.out, .regs, .cores, .fabric, .ctxs, .tier, .records, .mem, .host, .twin]
  | .sigcEnable .. | .sigcTrapAbort .. =>
    [.out, .regs, .sigcs, .sems, .host]
  | .cmac .. | .sst .. | .aclr .. | .loop .. | .lsave .. | .lrestore .. | .reti .. | .ei .. | .di .. | .alarm .. | .sigcDmaStart .. =>
    [.out, .regs, .sigcs, .mem, .host]
  | .tapm .. | .zld .. | .zst .. =>
    [.out, .freeIx, .regs, .sigcs, .mem, .host]
  | .alarmFire .. =>
    [.sigcs]
  | .doorbellRing .. | .sigcTrapSkip .. =>
    [.out, .regs, .sigcs, .host]
  | .interruptTaken .. =>
    [.sigcs, .sems]
  | .sigcDmaLine .. =>
    [.out, .freeIx, .regs, .fabric, .sigcs, .tier, .mem, .host, .twin]
  | .sigcDmaDone .. =>
    [.regs, .sigcs]
  | .sigcDmaHalt .. =>
    [.out, .freeIx, .regs, .fabric, .sigcs, .tier, .mem, .host]
  | .codingQueueAdmit .. =>
    [.regs, .cores, .coding]
  | .codingDescriptorStart .. =>
    [.out, .regs, .cores, .fabric, .tier, .coding, .radio, .mem, .host, .twin]
  | .codingDescriptorDone .. =>
    [.out, .freeIx, .regs, .cores, .fabric, .tier, .coding, .radio, .mem, .host, .twin]
  | .codeOwnerWrite .. =>
    [.out, .regs, .coding, .host]
  | .memoryRead .. | .windowRead .. =>
    [.out, .freeIx, .regs, .fabric, .tier, .mem, .host]
  | .memoryWrite .. | .gatherTimeout .. | .mirrorBatch .. =>
    [.out, .regs, .fabric, .tier, .mem, .host, .twin]
  | .bulkLinkDown .. =>
    [.out, .regs, .tier, .host]
  | .bufferWaysWrite .. | .heatMove .. | .heatMoveDone .. =>
    [.out, .regs, .tier, .mem, .host]
  | .objectDeclare .. | .loadObject .. | .loadObjectState .. | .sluiceStart .. | .load .. | .store .. | .atomic .. | .atomicNr ..
  | .reduce .. | .mcastStore .. | .dmaRead .. | .dmaWrite .. | .readS .. | .readX .. =>
    [.out, .freeIx, .regs, .fabric, .tier, .records, .mem, .host, .twin]
  | .objectRelease .. | .objectMove .. | .fill .. | .selftestAdmit .. | .selftestSoak .. | .streamQuery .. | .windowWrite ..
  | .sqEntryFetch .. | .nop .. | .cancel .. | .createSq .. | .createCq .. | .deleteSq .. | .deleteCq .. | .forwardedEntryArrive ..
  | .memberRead .. | .memberWrite .. | .rake .. =>
    [.out, .regs, .fabric, .tier, .records, .mem, .host, .twin]
  | .objectPageMoved .. =>
    [.out, .freeIx, .regs, .fabric, .tier, .records, .mem, .host]
  | .longOpChunk .. =>
    [.out, .freeIx, .regs, .plat, .cores, .fabric, .sigcs, .sems, .ctxs, .tier, .coding, .parts, .radio, .serve, .records, .mem, .host, .mgmt, .twin]
  | .heatEpoch .. =>
    [.tier, .parts]
  | .sluiceStop .. =>
    [.out, .freeIx, .regs, .fabric, .sems, .tier, .records, .mem, .host, .twin]
  | .sluicePrefetch .. | .sluiceFillStart .. =>
    [.out, .freeIx, .regs, .fabric, .sems, .tier, .mem, .host]
  | .sluiceFillDone .. =>
    [.out, .regs, .fabric, .sems, .tier, .mem, .host, .twin]
  | .resourceDone .. =>
    [.out, .regs, .fabric, .tier, .mem, .host]
  | .resourceTimeout .. =>
    [.regs, .tier]
  | .cellStart .. | .slot .. | .calImport .. =>
    [.out, .freeIx, .regs, .fabric, .tier, .radio, .records, .mem, .host, .twin]
  | .cellStop .. =>
    [.out, .regs, .fabric, .tier, .radio, .records, .mem, .host, .twin]
  | .slotBoundary .. | .twinTakeover =>
    [.out, .regs, .radio, .records, .host]
  | .calCoolantStale .. | .routeWrite .. =>
    [.out, .freeIx, .regs, .host]
  | .tidemarkMiss .. =>
    [.out, .regs, .radio, .host]
  | .slotComplete .. =>
    [.out, .freeIx, .regs, .radio, .records, .host, .twin]
  | .uplaneHandoff .. =>
    [.freeIx, .regs, .radio, .records, .eth]
  | .uplaneWindowClose .. =>
    [.sigcs, .radio]
  | .surgeClaim .. =>
    [.cores, .radio]
  | .surgeCoreReady .. =>
    [.regs, .cores, .ctxs, .radio, .mem]
  | .claimLate .. =>
    [.out, .regs, .cores, .radio, .host]
  | .surgeReturn .. =>
    [.regs, .cores, .ctxs, .radio]
  | .serveGroup .. | .streamOpen .. =>
    [.out, .freeIx, .regs, .fabric, .tier, .serve, .records, .mem, .host, .twin]
  | .streamClose .. | .streamHold .. | .streamRelease .. | .kvBind .. | .kvRelease .. | .reshard .. =>
    [.out, .regs, .fabric, .tier, .serve, .records, .mem, .host, .twin]
  | .prefillStepCompose .. | .decodeStepCompose .. =>
    [.out, .regs, .cores, .fabric, .tier, .parts, .serve, .mem, .host, .twin]
  | .serveStepDone .. =>
    [.out, .freeIx, .regs, .cores, .fabric, .tier, .serve, .records, .mem, .host, .twin]
  | .reshardPage .. =>
    [.out, .freeIx, .regs, .fabric, .tier, .serve, .mem, .host, .twin]
  | .reshardDone .. =>
    [.out, .regs, .serve, .host]
  | .tokenRecordAccepted .. =>
    [.out, .regs, .radio, .serve, .records, .eth, .mem, .host]
  | .partEnable .. =>
    [.out, .freeIx, .regs, .cores, .fabric, .ctxs, .tier, .parts, .records, .mem, .host, .twin]
  | .preemptDelivered .. =>
    [.out, .regs, .cores, .sems, .host]
  | .forcedPreempt .. =>
    [.cores, .sems]
  | .contextRestoreDone .. =>
    [.out, .freeIx, .regs, .cores, .fabric, .sems, .ctxs, .tier, .mem, .host, .twin]
  | .donationStart .. =>
    [.cores, .ctxs]
  | .resizeStart .. =>
    [.out, .regs, .cores, .ctxs, .parts, .host]
  | .resizeDone .. =>
    [.out, .freeIx, .regs, .parts, .host]
  | .exportState .. =>
    [.out, .regs, .cores, .fabric, .sems, .tier, .parts, .records, .mem, .host, .twin]
  | .pcieConfigRequest .. | .gateStateResend .. =>
    [.out]
  | .windowAtomic .. | .writeback .. =>
    [.out, .freeIx, .regs, .fabric, .tier, .mem, .host, .twin]
  | .cqCoalesceTimer .. | .msixVectorUnmask .. | .ideKmRequest .. =>
    [.out, .host]
  | .atsInvalidate .. =>
    [.out, .regs]
  | .tdispRequest .. =>
    [.out, .regs, .cores, .fabric, .sems, .ctxs, .tier, .radio, .serve, .eth, .mem, .host, .twin]
  | .flrPf =>
    [.out, .regs, .cores, .fabric, .sems, .ctxs, .tier, .radio, .mem, .host, .twin]
  | .memberCompletionArrive .. | .forwardTimeout .. =>
    [.records, .host]
  | .trainStart .. | .levelDrift .. | .retryLimit .. | .laneWake .. =>
    [.out, .regs, .fabric, .host, .salt]
  | .trainPhaseDone .. | .flitRx .. | .seal .. | .sealReturn .. =>
    [.out, .freeIx, .regs, .cores, .fabric, .host]
  | .trainPhaseTimeout .. =>
    [.out, .regs, .cores, .fabric, .host, .salt]
  | .codewordRx .. =>
    [.out, .freeIx, .regs, .fabric, .host]
  | .flitTx .. | .quench .. | .drained .. | .routeMove .. | .routeReturn .. | .outputDown .. | .drainTimeout .. | .quenchWrite ..
  | .isolation =>
    [.out, .regs, .cores, .fabric, .host]
  | .flow .. | .timeUpstreamLoss .. =>
    [.out, .regs, .fabric, .host]
  | .ack .. | .credit .. | .power .. | .absorberWriteback .. | .codewordLockLoss .. =>
    [.fabric]
  | .nak .. =>
    [.out, .regs, .fabric]
  | .time .. =>
    [.out, .freeIx, .regs, .time, .fabric, .host]
  | .ackTimer .. | .timeExchangeTx .. | .evict .. | .invalidate .. | .recall .. =>
    [.out, .fabric]
  | .laneSleep .. =>
    [.out, .freeIx, .regs, .fabric]
  | .laneRefresh .. =>
    [.regs, .fabric]
  | .fabricInject .. =>
    [.out, .freeIx, .regs, .cores, .fabric, .tier, .records, .mem, .host, .twin]
  | .fabricCommandDone .. =>
    [.cores]
  | .reqTimeout .. =>
    [.out, .regs, .cores, .fabric, .tier, .mem, .host, .twin]
  | .ethLinkChange .. | .admitWrite .. =>
    [.out, .regs, .host, .salt]
  | .ethFrameRx .. =>
    [.out, .regs, .fabric, .sems, .tier, .radio, .records, .eth, .mem, .host, .twin]
  | .ethFrameTx .. =>
    [.out, .regs, .eth]
  | .txtsEntry .. | .txtsPopRead .. | .nodeWrite .. | .policerWrite .. =>
    [.out, .regs, .eth, .host]
  | .servoSample .. | .offsetInWrite .. | .ppsInEdge .. =>
    [.out, .freeIx, .regs, .time, .host]
  | .stepForceWrite .. | .freqSourceLoss .. | .timeLoad .. =>
    [.out, .regs, .time, .host]
  | .ppsOutEdge =>
    [.out, .time]
  | .strictWrite .. =>
    [.out, .regs, .parts, .host]
  | .recordBoundary .. =>
    [.out, .freeIx, .regs, .fabric, .sems, .tier, .parts, .records, .eth, .mem, .host, .twin]
  | .pprStart .. =>
    [.out, .regs, .host, .ras]
  | .pprDone .. =>
    [.out, .regs, .mem, .host, .ras]
  | .spareReplaceDone .. =>
    [.out, .freeIx, .regs, .plat, .cores, .fabric, .sems, .ctxs, .tier, .radio, .mem, .host, .twin]
  | .sigcReplaceDone .. =>
    [.out, .regs, .plat, .sigcs, .mem, .host]
  | .twinPulseTx | .controllerNotServing =>
    [.out, .twin]
  | .twinPulseRx =>
    [.twin]
  | .twinFailTimeout | .twinFailMsg | .drainHandover .. =>
    [.out, .regs, .radio, .records, .host, .twin]
  | .drainWrite .. =>
    [.out, .regs, .host, .twin]
  | .saltScore =>
    [.freeIx, .regs, .salt]
  | .saltMessageTx | .saltMessageRx .. | .expelAnnounce .. | .saltUsedExpiry =>
    [.out, .freeIx, .regs, .cores, .fabric, .tier, .mem, .host, .twin, .salt]
  | .watchdogExpiry | .bootDone .. | .recoveryGo .. =>
    [.out, .regs, .host, .mgmt]
  | .bootStart =>
    [.regs, .mgmt]
  | .svnCommit .. | .ownerCommit .. =>
    [.out, .regs, .fuses, .host]
  | .sensorSample .. =>
    [.out, .freeIx, .regs, .plat, .cores, .radio, .host, .mgmt, .power]
  | .getSensorReading .. | .pldmDiscovery .. | .pldmFruRead .. | .firmwareUpdate .. | .getVersion .. | .getDigests .. | .getCertificate ..
  | .chunkGet .. | .partitionReport .. | .pdrRepositoryRequest .. =>
    [.out, .mgmt]
  | .activateFirmware .. =>
    [.out, .regs, .mgmt]
  | .getCapabilities .. | .negotiateAlgorithms .. | .challenge .. | .getMeasurements .. | .keyExchange .. | .finish .. | .keyUpdate ..
  | .heartbeat .. | .endSession .. | .chunkSend .. | .setMigrationKey .. =>
    [.out, .freeIx, .mgmt]
  | .zeroizePartition .. | .zeroizeDevice .. =>
    [.out, .regs, .cores, .fabric, .sems, .ctxs, .tier, .radio, .serve, .records, .eth, .mem, .host, .twin]
  | .powerEstimate .. =>
    [.out, .regs, .cores, .host, .power]
  | .powerAllowanceExpiry | .coolantHigh .. =>
    [.out, .regs, .host, .power]
  | .inletSensorLoss =>
    [.out, .regs, .radio, .host, .power]
  | .freqSourceValid .. =>
    [.regs, .time]
  | .ptpFrameHandoff .. =>
    [.regs, .radio, .eth]
  | .twinCopyStale .. =>
    [.out, .records, .host, .twin]
  | .dynamicAddress .. =>
    [.mgmt]

/-- The invariant of the machine: the register file and the memories keep their one form, and device time is a moment of the 48-bit
seconds of R32, as is a time that waits to be loaded. -/
structure Invariant (s : State) : Prop where
  regs : tabWf s.regs = true
  mem : s.mem.wf = true
  sec : s.time.sec < 2 ^ 48
  sub : s.time.sub < unitsPerSec
  loadSec : ∀ v, s.time.loadSec = some v → v < 2 ^ 48

/-- The commands from which device time starts again at 0: power and reset, and the end of step 1 of bring-up (R593). -/
def startsTime : Instr → Bool
  | .powerOn .. | .resetAccept .. | .bringupStart .. | .refclkAPresent | .hotWaitEnd => true
  | _ => false

/-- Where a command that is a register write is addressed: who writes, to which page, at which offset of it (R39 to R41). -/
def target : Instr → Option (Requester × Page × Nat)
  | .registerWrite who bytes off _ => if bytes = 4 ∧ off % 4 = 0 then (pageAt off).map fun p => (who, p, off % 0x1000) else none
  | .intForceWrite who p _ => some (who, p, 0x028)
  | .softReset who p value => if value.getLsbD 0 then some (who, p, 0x010) else none
  | .enableWrite who p _ => some (who, p, 0x010)
  | .freezeWrite who p _ => some (who, p, 0x010)
  | .skewProbeStart who c _ => some (who, corePage c, 0x204)
  | .rowRepairWrite who c a _ => some (who, corePage c, 0x210 + 4 * a.val)
  | .colRepairWrite who c a _ => some (who, corePage c, 0x220 + 4 * a.val)
  | .trapResume who c => some (who, corePage c, 0x070)
  | .trapSkip who c => some (who, corePage c, 0x070)
  | .trapAbort who c => some (who, corePage c, 0x070)
  | .sigcEnable who k _ => some (who, sigcPage k, 0x010)
  | .doorbellRing who k _ => some (who, sigcPage k, 0x064)
  | .sigcTrapResume who k => some (who, sigcPage k, 0x060)
  | .sigcTrapSkip who k => some (who, sigcPage k, 0x060)
  | .sigcTrapAbort who k => some (who, sigcPage k, 0x060)
  | .bufferWaysWrite who m _ => some (who, msidPage m, 0x040)
  | .partEnable who k => some (who, partPage k, 0x010)
  | .ctxActivate who k _ => some (who, partPage k, 0x110)
  | .ctxSuspend who k _ => some (who, partPage k, 0x110)
  | .ctxResume who k _ => some (who, partPage k, 0x110)
  | .ctxDestroy who k _ => some (who, partPage k, 0x110)
  | .resizeStart who k => some (who, partPage k, 0x088)
  | .allotWrite who k bulk _ => some (who, partPage k, (allotField bulk).off)
  | .routeWrite who _ => some (who, hostPage, 0x07C)
  | .adminQueueEnable who _ => some (who, hostPage, 0x05C)
  | .retrainWrite who p => some (who, aqzlPage p, 0x040)
  | .quenchWrite who _ => some (who, fabrPage, 0x098)
  | .groupModeWrite who g _ => some (who, ethpPage (8 * g.val), 0x040)
  | .stepForceWrite who _ => some (who, timePage, 0x070)
  | .offsetInWrite who _ => some (who, timePage, 0x068)
  | .nodeRead who => some (who, shapPage, 0x044)
  | .nodeWrite who => some (who, shapPage, 0x044)
  | .policerRead who => some (who, polcPage, 0x044)
  | .policerWrite who => some (who, polcPage, 0x044)
  | .strictWrite who _ => some (who, globPage, 0x040)
  | .flipArm who _ => some (who, raspPage, 0x05C)
  | .coreRetireWrite who die _ => some (who, raspPage, 0x070 + 8 * die.val)
  | .pprStart who _ => some (who, raspPage, 0x098)
  | .coreFenceWrite who _ => some (who, raspPage, 0x068)
  | .drainWrite who _ => some (who, raspPage, 0x0B0)
  | .admitWrite who _ => some (who, raspPage, 0x0E8)
  | .recoveryGo who _ _ => some (who, mgmtPage, 0x05C)
  | .svnCommit who _ => some (who, mgmtPage, 0x060)
  | .ownerCommit who _ => some (who, mgmtPage, 0x068)
  | .timeLoad who _ => some (who, rsetPage, 0x050)
  | _ => none

/-- What a 32-bit write makes of a field that holds old: by its access code the bits of the field that stand in the register take those of
the word w (R13). -/
def writtenValue (f : RegField) (off i old w : Nat) : Nat :=
  match f.acc with
  | .rw => fieldMerge f off i old w % 2 ^ f.len
  | .w1s => (old ||| fieldMerge f off i 0 w) % 2 ^ f.len
  | .w1c => (old - (old &&& fieldMerge f off i 0 w)) % 2 ^ f.len
  | .ro | .wo | .rc => old

/-- A write of the register at a page offset is REGISTER_WRITE's and takes the access codes alone: it has no command of its own, is not held,
and changes nothing beside the register file that follows from it. -/
def plainRegister (s : State) (p : Page) (off w : Nat) : Bool :=
  !ownCommand p off && !heldNow s p off w && p.kind != .host && p.kind != .ethp && p.kind != .fabr && p.kind != .part && p.kind != .rasp &&
    !(p.kind == .time && off == 0x040) && off != 0x024 && off != 0x034

/-- A field's element stands inside its page of 4 KiB. -/
def inPage (f : RegField) (i : Nat) : Bool := decide ((f.off + f.stride * i) * 8 + f.lo < 0x8000)

/-- The pages whose SOFT_RESET ends no work that could record an error or change another page's registers (R47, R598). -/
def plainReset (p : Page) : Bool :=
  match p.kind with
  | .core | .sigc | .msid | .hbmc | .ethp | .shap | .polc => true
  | _ => false

/-- The message that the lead of a span gets when an interrupt condition becomes true on a page of this member (R418). -/
def leadMessage (s : State) : List Emission :=
  let lead := s.reg fabrPage Rg.fabrSpanShapeLead
  if s.flag fabrPage Rg.fabrDeviceIdValid && lead != s.reg fabrPage Rg.fabrDeviceIdDevice % 64 then [.memberEvent lead] else []

/-- A byte of a memory, the same before and after. -/
def ByteSame (r : Region) (a : Nat) (s t : State) : Prop := readByte r (t.memory r) a = readByte r (s.memory r) a

/-- What no instruction of an agent between its registers touches: only cores, signal cores, the flips of words that its fetch corrects,
registers and the count of used free values may differ, every other core and signal core is the same, and every byte of every memory reads as
before. -/
def MemoryAndOthersSame (a : Agent) (s t : State) : Prop :=
  t = { s with cores := t.cores, sigcs := t.sigcs, mem := t.mem, regs := t.regs, freeIx := t.freeIx } ∧ OthersSame a s t ∧ ∀ r n, ByteSame r n s t

/-- A field is neither of RASP's two counters of corrected and uncorrectable words, which the fetch of an instruction counts in (R522). -/
def notEccCount (p : Page) (f : RegField) (i : Nat) : Prop :=
  fieldBit p f i ≠ fieldBit raspPage Rg.raspCorrectedCount 0 ∧ fieldBit p f i ≠ fieldBit raspPage Rg.raspUncorrectedCount 0

/-- A field is none of the sticky flags of an agent (R87, R211). -/
def notArithFlag (a : Agent) (p : Page) (f : RegField) (i : Nat) : Prop :=
  match a with
  | .core c => fieldBit p f i ≠ fieldBit (corePage c) Rg.coreArithFlagsSat 0 ∧ fieldBit p f i ≠ fieldBit (corePage c) Rg.coreArithFlagsAccOvf 0 ∧
      fieldBit p f i ≠ fieldBit (corePage c) Rg.coreArithFlagsTernaryCode 0 ∧ fieldBit p f i ≠ fieldBit (corePage c) Rg.coreArithFlagsPoison 0
  | .sigc k => fieldBit p f i ≠ fieldBit (sigcPage k) Rg.sigcArithFlagsSat 0 ∧ fieldBit p f i ≠ fieldBit (sigcPage k) Rg.sigcArithFlagsPoison 0

/-! ### The system instructions complete, a deferred trap is taken, and a write of TRAP_CONTROL ends a trap -/

/-- When RDTIME has its own effect (R186). -/
def canRdtime (c : Agent) (rd : Fin 32) (s : State) : Bool :=
  agentRuns s c (sysSpelled 1 (some rd) none) && !lacks c [rd]

/-- When RDFLAGS has its own effect (R186). -/
def canRdflags (c : Agent) (rd : Fin 32) (s : State) : Bool :=
  agentRuns s c (sysSpelled 2 (some rd) none) && !lacks c [rd]

/-- When RDWAVE has its own effect (R186). -/
def canRdwave (c : Agent) (rd : Fin 32) (s : State) : Bool :=
  agentRuns s c (sysSpelled 6 (some rd) none) && !lacks c [rd]

/-- When BRK has its own effect (R186). -/
def canBrk (c : Agent) (imm : BitVec 16) (s : State) : Bool :=
  agentRuns s c (sysSpelled 4 none (some imm))

/-- When CLRFLAGS has its own effect (R186). -/
def canClrflags (c : Agent) (imm : BitVec 16) (s : State) : Bool :=
  agentRuns s c (sysSpelled 3 none (some imm))

/-- When HALT has its own effect (R186). -/
def canHalt (c : Agent) (s : State) : Bool :=
  agentRuns s c (sysSpelled 5 none none) && (match c with
    | .core d => enginesIdle (s.core d) && streamsIdle (s.core d)
    | .sigc _ => true)

/-- When DEFERRED_TRAP has its own effect (R183). -/
def canDeferredTrap (c : Fin 160) (s : State) : Bool :=
  s.working && !s.flag (corePage c) Rg.coreTrapCauseValid && (s.core c).ctx.isSome && (s.core c).run != .ending && (s.core c).deferred.isSome

/-- When TRAP_RESUME has its own effect (R185). -/
def canTrapResume (who : Requester) (c : Fin 160) (s : State) : Bool :=
  writeTaken s who (corePage c) 0x70 && s.flag (corePage c) Rg.coreTrapCauseValid

/-- When TRAP_SKIP has its own effect (R185). -/
def canTrapSkip (who : Requester) (c : Fin 160) (s : State) : Bool :=
  writeTaken s who (corePage c) 0x70 && s.flag (corePage c) Rg.coreTrapCauseValid

/-- When TRAP_ABORT has its own effect (R185). -/
def canTrapAbort (who : Requester) (c : Fin 160) (s : State) : Bool :=
  writeTaken s who (corePage c) 0x70 && s.flag (corePage c) Rg.coreTrapCauseValid && (s.core c).ctx.isSome

/-- When SIGC_TRAP_RESUME has its own effect (R210). -/
def canSigcTrapResume (who : Requester) (k : Fin 64) (s : State) : Bool :=
  writeTaken s who (sigcPage k) 0x60 && s.flag (sigcPage k) Rg.sigcTrapCauseValid

/-- When SIGC_TRAP_SKIP has its own effect (R210). -/
def canSigcTrapSkip (who : Requester) (k : Fin 64) (s : State) : Bool :=
  writeTaken s who (sigcPage k) 0x60 && s.flag (sigcPage k) Rg.sigcTrapCauseValid

/-- When SIGC_TRAP_ABORT has its own effect (R210). -/
def canSigcTrapAbort (who : Requester) (k : Fin 64) (s : State) : Bool :=
  writeTaken s who (sigcPage k) 0x60 && s.flag (sigcPage k) Rg.sigcTrapCauseValid

/-! ### Array passes and tile loads start and end, the probe starts, and repairs are written -/

/-- When ARRAY_PASS_START has its own effect (R95). -/
def canArrayPassStart (c : Fin 160) (array : Fin 4) (_defects : List Nat) (s : State) : Bool :=
  (nextCmd (s.core c) true array.val).any fun e => enginesRun s c && mayStart (s.core c) e.1 e.2 &&
    !e.2.members.any (s.reg (corePage c) Rg.coreArrayStateArrayFenced).testBit && (orderFault (s.core c) (passDesc e.2.desc) e.2.members).isNone

/-- When ARRAY_PASS_DONE has its own effect (R96). -/
def canArrayPassDone (c : Fin 160) (array : Fin 4) (_stalls : List Nat) (s : State) : Bool :=
  s.working && (((s.core c).arrayQueue.mapIdx fun i q => (i, q)).find? fun e => e.2.pass && e.2.started && e.2.members.head? == some array.val).isSome

/-- When TILE_LOAD_START has its own effect (R100). -/
def canTileLoadStart (c : Fin 160) (array : Fin 4) (s : State) : Bool :=
  (nextCmd (s.core c) false array.val).any fun e => enginesRun s c && mayStart (s.core c) e.1 e.2 &&
    !e.2.members.any (s.reg (corePage c) Rg.coreArrayStateArrayFenced).testBit

/-- When TILE_LOAD_DONE has its own effect (R100). -/
def canTileLoadDone (c : Fin 160) (array : Fin 4) (s : State) : Bool :=
  s.working && (((s.core c).arrayQueue.mapIdx fun i q => (i, q)).find? fun e => !e.2.pass && e.2.started && e.2.members.head? == some array.val).isSome

/-- When SKEW_PROBE_START has its own effect (R123). -/
def canSkewProbeStart (who : Requester) (c : Fin 160) (value : BitVec 32) (s : State) : Bool :=
  writeTaken s who (corePage c) 0x204 && (!value.getLsbD 4 || repairTaken s c)

/-- When ROW_REPAIR_WRITE has its own effect (R123). -/
def canRowRepairWrite (who : Requester) (c : Fin 160) (array : Fin 4) (_value : BitVec 32) (s : State) : Bool :=
  writeTaken s who (corePage c) (0x210 + 4 * array.val) && repairTaken s c

/-- When COL_REPAIR_WRITE has its own effect (R128). -/
def canColRepairWrite (who : Requester) (c : Fin 160) (array : Fin 4) (value : BitVec 32) (s : State) : Bool :=
  writeTaken s who (corePage c) (0x220 + 4 * array.val) && repairTaken s c && !columnsClash s c array.val value.toNat

/-! ### A cheap point is passed or saves, and forced preemption saves and delivers -/

/-- When CPMARK has its own effect (R178). -/
def canCpmark (c : Fin 160) (id : BitVec 16) (rsvd : BitVec 6) (s : State) : Bool :=
  coreRuns s c (· == cpmarkWord id rsvd) && rsvd == 0 && id != 0 && !(decide (locksHeld (fetchCore c s) c ≠ 0) && (fetchCore c s).flag (corePage c) Rg.coreExecControlChecked)

/-- When CHEAP_SAVE_DONE has its own effect (R178). -/
def canCheapSaveDone (c : Fin 160) (s : State) : Bool :=
  s.working && !s.frozen (corePage c) && (s.core c).deferred.isNone && (s.core c).run == .cheapSave && enginesIdle (s.core c) && (s.core c).ctx.isSome && (s.core c).live.isSome

/-- When FORCED_PREEMPT has its own effect (R367). -/
def canForcedPreempt (c : Fin 160) (s : State) : Bool :=
  s.working && !s.frozen (corePage c) && (s.core c).preempt && (match (s.core c).run with
    | .running | .blocked _ | .halted => true
    | _ => false) &&
  ((s.core c).preemptAt.any (fun t => decide (s.now ≥ t + 100000)) || s.flag (corePage c) Rg.coreTrapCauseValid)

/-- When FORCED_SAVE_DONE has its own effect (R367). -/
def canForcedSaveDone (c : Fin 160) (s : State) : Bool :=
  s.working && !s.frozen (corePage c) && (s.core c).run == .forcedSave && (s.core c).codingOut == 0 && (s.core c).requests.isEmpty && (s.core c).ctx.isSome

/-- When PREEMPT_DELIVERED has its own effect (R369). -/
def canPreemptDelivered (c : Fin 160) (s : State) : Bool :=
  s.working && (s.core c).asked && (s.core c).ctx.isSome

/-! ### ISSUE queues a descriptor on its engine, and coding descriptors are admitted, run and complete -/

/-- When CODING_QUEUE_ADMIT has its own effect (R214). -/
def canCodingQueueAdmit (c : Fin 160) (s : State) : Bool :=
  s.working && !(s.core c).codingQueue.isEmpty && (s.core c).ctx.any (fun r => decide ((codingQueueOf s r.part).length < 1024)) && (s.core c).run != .forcedSave && (s.core c).run != .restoring

/-- When CODING_DESCRIPTOR_START has its own effect (R215). -/
def canCodingDescriptorStart (engine : CodingEngine) (ownerWriteFirst : Bool) (s : State) : Bool :=
  blockOn s codePage && (tabFind (engineKey engine) s.coding.running).isNone &&
    (startOwner s engine ownerWriteFirst).any fun k => (earliest (engineKey engine / 32) (codingQueueOf s k)).isSome

/-- When CODING_DESCRIPTOR_DONE has its own effect (R217). -/
def canCodingDescriptorDone (engine : CodingEngine) (s : State) : Bool :=
  s.working && !s.flag codePage Rg.pageControlSoftReset && (tabFind (engineKey engine) s.coding.running).any fun e =>
    paramFails (codingDesc e.1.cmd.desc) || (codingFault s e.1.ctx.part (codingDesc e.1.cmd.desc)).isSome ||
    (!codingWaits s e.1.ctx.part (codingDesc e.1.cmd.desc) &&
     match s.partRead e.1.ctx.part (codingDesc e.1.cmd.desc).inAddr (codingSpan (codingDesc e.1.cmd.desc)).1 with
     | .data _ => true
     | _ => false)

/-- When CODE_OWNER_WRITE has its own effect (R218). -/
def canCodeOwnerWrite (who : Requester) (engine : CodingEngine) (_value : BitVec 32) (s : State) : Bool :=
  writeTaken s who codePage ((ownerFields (engineKey engine)).1.off + 4 * (ownerFields (engineKey engine)).2.2)

/-- When ISSUE_ARRAY_PASS has its own effect (R137). -/
def canIssueArrayPass (c : Fin 160) (w : IssueWord) (s : State) : Bool :=
  issueTakes s c 0 w fun d t => (leastOf (passErrs c d t)).isSome || (arrayFencedBy c d t).isSome || arrayFull c d t

/-- When ISSUE_TILE_LOAD has its own effect (R147). -/
def canIssueTileLoad (c : Fin 160) (w : IssueWord) (s : State) : Bool :=
  issueTakes s c 1 w fun d t => (leastOf (loadErrs c d t)).isSome || (arrayFencedBy c d t).isSome || arrayFull c d t

/-- When ISSUE_STREAM has its own effect (R156). -/
def canIssueStream (c : Fin 160) (w : IssueWord) (s : State) : Bool :=
  issueTakes s c 2 w fun d t => (leastOf (streamErrs d)).isSome || decide ((slotOf (t.core c) w.unit.val).queue.length ≥ 2)

/-- When ISSUE_CODING has its own effect (R213). -/
def canIssueCoding (c : Fin 160) (w : IssueWord) (s : State) : Bool :=
  issueTakes s c 4 w fun d t => (leastOf (codingErrs c d t)).isSome || decide ((t.core c).codingQueue.length + (t.core c).codingOut ≥ 16)

/-- When ISSUE_FABRIC has its own effect (R447). -/
def canIssueFabric (c : Fin 160) (w : IssueWord) (s : State) : Bool :=
  issueTakes s c 3 w fun d t => (leastOf (fabErrs (t.flag globPage Rg.globModeStrict) d)).isSome || decide ((t.core c).fabricQueue.length ≥ 32)

/-! ### CTX_CONTROL activates, suspends, resumes and destroys a context -/

/-- When CTX_ACTIVATE has its own effect (R359). -/
def canCtxActivate (who : Requester) (k : Fin 64) (ctx : Fin 256) (s : State) : Bool :=
  ctxFree s who k && (s.ctx k ctx).state == 0 && activateReads s k ctx

/-- When CTX_SUSPEND has its own effect (R359). -/
def canCtxSuspend (who : Requester) (k : Fin 64) (ctx : Fin 256) (s : State) : Bool :=
  ctxFree s who k && ((s.ctx k ctx).state == 1 || (s.ctx k ctx).state == 2 || (s.ctx k ctx).state == 5)

/-- When CTX_RESUME has its own effect (R359). -/
def canCtxResume (who : Requester) (k : Fin 64) (ctx : Fin 256) (s : State) : Bool :=
  ctxFree s who k && (s.ctx k ctx).state == 4 && resumeReads s k ctx

/-- When CTX_DESTROY has its own effect (R359). -/
def canCtxDestroy (who : Requester) (k : Fin 64) (ctx : Fin 256) (s : State) : Bool :=
  ctxFree s who k && (s.ctx k ctx).state != 0

/-! ### The scheduler ends a slice, starts a context and restores one -/

/-- When SLICE_END has its own effect (R366). -/
def canSliceEnd (k : Fin 64) (ctx : Fin 256) (s : State) : Bool :=
  s.working && (s.ctx k ctx).state == 2 && !(s.ctx k ctx).sliceOver && decide (s.now ≥ (s.ctx k ctx).sliceAt + sliceNs s k) && s.reg (partPage k) Rg.partConfigKind != 2

/-- When CONTEXT_START has its own effect (R361). -/
def canContextStart (k : Fin 64) (ctx : Fin 256) (s : State) : Bool :=
  s.working && (s.ctx k ctx).claiming && ((s.ctx k ctx).state == 1 || ((s.ctx k ctx).state == 4 && !(s.ctx k ctx).donors.isEmpty)) &&
    (maskCores (s.ctx k ctx).mask).all (coreFree s)

/-- When CONTEXT_RESTORE_DONE has its own effect (R368). -/
def canContextRestoreDone (c : Fin 160) (s : State) : Bool :=
  s.working && (s.core c).run == .restoring && (s.core c).ctx.isSome

/-! ### Ethernet frames, timestamps, tokens, nodes and policers: each command has its effect -/

/-- When GROUP_MODE_WRITE has its own effect (R470). -/
def canGroupModeWrite (who : Requester) (g : Fin 8) (value : BitVec 32) (s : State) : Bool :=
  writeTaken s who (ethpPage (8 * g.val)) 0x040 && (value.toNat % 4 == s.reg (ethpPage (8 * g.val)) Rg.ethpConfigGroupMode ||
    !(List.range 8).any fun i => s.flag (ethpPage (8 * g.val + i)) Rg.pageControlEnable)

/-- When ETH_LINK_CHANGE has its own effect (R471). -/
def canEthLinkChange (p : Fin 64) (up : Bool) (s : State) : Bool :=
  s.alive && up != s.flag (ethpPage p) Rg.ethpPortStatusLinkUp && (!up || (portInUse s p && s.flag (ethpPage p) Rg.pageControlEnable))

/-- When TXTS_ENTRY has its own effect (R487). -/
def canTxtsEntry (p : Fin 64) (tag : BitVec 16) (_time : BitVec 96) (s : State) : Bool :=
  ((s.ethPort p).awaited.find? fun t => t == some tag || t == none).isSome

/-- When TXTS_POP_READ has its own effect (R487). -/
def canTxtsPopRead (who : Requester) (p : Fin 64) (s : State) : Bool :=
  pathUp s who && canSee s who (ethpPage p) && !s.flag (ethpPage p) Rg.pageControlSoftReset

/-- When PTP_FRAME_HANDOFF has its own effect (R472). -/
def canPtpFrameHandoff (p : Fin 64) (_subscriber : Option (Fin 65536)) (_bytes : Nat) (_tag : Option (BitVec 16)) (_oneStep : Bool) (s : State) : Bool :=
  s.firmware && portInUse s p

/-- When ETH_FRAME_TX has its own effect (R480). -/
def canEthFrameTx (p : Fin 64) (s : State) : Bool :=
  portOn s p && s.flag (ethpPage p) Rg.ethpPortStatusLinkUp && s.serves shapPage && eligible s false (nodeKey levelPort p) &&
    (!(s.node (nodeKey levelPort p)).queue.isEmpty || (runPass p true (portSubs s p) s).2 || (runPass p false (portSubs s p) (runPass p true (portSubs s p) s).1).2)

/-- When ETH_FRAME_RX has its own effect (R473). -/
def canEthFrameRx (p : Fin 64) (_frame : EthFrame) (s : State) : Bool :=
  portOn s p && s.flag (ethpPage p) Rg.ethpPortStatusLinkUp

/-- When UPLANE_HANDOFF has its own effect (R297). -/
def canUplaneHandoff (k : Fin 64) (cell : Fin 384) (frame : Nat) (slot : Nat) (symbol : Fin 14) (ready : Bool) (_blocks : List EgressBlock) (s : State) : Bool :=
  (uplaneDue s k cell frame slot symbol ready).isSome

/-- When TOKEN_RECORD_ACCEPTED has its own effect (R346). -/
def canTokenRecordAccepted (stream : Fin 65536) (_translates : Bool) (s : State) : Bool :=
  s.working && (s.stream stream.val).any fun x => match x.records with
    | [] => false
    | r :: _ => if x.route = 0 then x.lead.isSome || cqTakes s x.target else frameTakes s stream.val x r

/-- When NODE_READ has its own effect (R498). -/
def canNodeRead (who : Requester) (s : State) : Bool :=
  writeTaken s who shapPage 0x044 && decide (s.reg shapPage Rg.shapNodeSelectIndex < levelSize (s.reg shapPage Rg.shapNodeSelectLevel))

/-- When NODE_WRITE has its own effect (R498). -/
def canNodeWrite (who : Requester) (s : State) : Bool :=
  writeTaken s who shapPage 0x044 && decide (s.reg shapPage Rg.shapNodeSelectIndex < levelSize (s.reg shapPage Rg.shapNodeSelectLevel)) &&
    !(s.reg shapPage Rg.shapNodeSelectLevel == levelSub && subRefused s who (s.reg shapPage Rg.shapNodeSelectIndex) (cleanRecord (s.reg shapPage Rg.shapNodeSelectLevel) (nodeData s)))

/-- When POLICER_READ has its own effect (R500). -/
def canPolicerRead (who : Requester) (s : State) : Bool :=
  writeTaken s who polcPage 0x044

/-- When POLICER_WRITE has its own effect (R500). -/
def canPolicerWrite (who : Requester) (s : State) : Bool :=
  writeTaken s who polcPage 0x044 && decide (s.reg polcPage Rg.polcData 0 % 2 ^ 27 ≤ s.reg polcPage Rg.polcData 1 % 2 ^ 27)

/-! ### A wave window ends, arrays and cores are fenced, and a probe ends -/

/-- When WAVE_WINDOW_END has its own effect (R30). -/
def canWaveWindowEnd (_unit : MonitorUnit) (_rate : BitVec 16) (_readMeets : Bool) (s : State) : Bool :=
  s.alive

/-- When ARRAY_FENCE has its own effect (R114). -/
def canArrayFence (_c : Fin 160) (_array : Fin 4) (_feeder : Bool) (s : State) : Bool :=
  s.alive

/-- When SKEW_PROBE_DONE has its own effect (R121). -/
def canSkewProbeDone (c : Fin 160) (_failed : BitVec 4) (_detail : BitVec 32) (s : State) : Bool :=
  s.alive && s.flag (corePage c) Rg.coreSkewProbeBusy

/-- When CORE_FENCE_WRITE has its own effect (R533). -/
def canCoreFenceWrite (who : Requester) (value : BitVec 32) (s : State) : Bool :=
  writeTaken s who raspPage 0x068 && value.getLsbD 31 && decide (value.toNat % 256 < 160)

/-- When CORE_CHECK_FAIL has its own effect (R533). -/
def canCoreCheckFail (c : Fin 160) (s : State) : Bool :=
  s.alive && !s.flag (corePage c) Rg.pageStatusFenced && (spareCore s (c / 40)).isSome

/-! ### Spares take the place of cores, an injection is armed, and a package repair runs -/

/-- When SPARE_REPLACE_DONE has its own effect (R535). -/
def canSpareReplaceDone (c : Fin 160) (_copyOk : Bool) (_probeOk : Bool) (s : State) : Bool :=
  s.alive && s.flag (corePage c) Rg.pageStatusFenced && (spareCore s (c / 40)).isSome

/-- When SIGC_REPLACE_DONE has its own effect (R537). -/
def canSigcReplaceDone (k : Fin 64) (s : State) : Bool :=
  s.alive && s.flag (sigcPage k) Rg.pageStatusFenced && (spareSigc s (k / 16)).isSome

/-- When CORE_RETIRE_WRITE has its own effect (R531). -/
def canCoreRetireWrite (who : Requester) (die : Fin 4) (_value : BitVec 64) (s : State) : Bool :=
  writeTaken s who raspPage (0x070 + 8 * die.val) && !s.anyPart

/-- When FLIP_ARM has its own effect (R528). -/
def canFlipArm (who : Requester) (_value : BitVec 32) (s : State) : Bool :=
  writeTaken s who raspPage 0x05C

/-- When PPR_START has its own effect (R532). -/
def canPprStart (who : Requester) (value : BitVec 32) (s : State) : Bool :=
  writeTaken s who raspPage 0x098 && value.getLsbD 17 && !s.flag raspPage Rg.raspPprControlBusy && !s.anyRadio

/-- When PPR_DONE has its own effect (R532). -/
def canPprDone (_outcome : PprOutcome) (s : State) : Bool :=
  s.alive && s.ras.ppr.isSome

/-! ### A fabric request that reaches its home is performed and answered -/

/-- When LOAD has its own effect (R446). -/
def canLoad (pkt : Packet) (s : State) : Bool :=
  homeTaken s opLoad pkt && (homeBytes s pkt).isSome

/-- When STORE has its own effect (R446). -/
def canStore (pkt : Packet) (s : State) : Bool :=
  homeTaken s opStore pkt && homeWrites s pkt

/-- When ATOMIC has its own effect (R446). -/
def canAtomic (pkt : Packet) (s : State) : Bool :=
  homeTaken s opAtomic pkt && homeAtomic s pkt

/-- When ATOMIC_NR has its own effect (R446). -/
def canAtomicNr (pkt : Packet) (s : State) : Bool :=
  homeTaken s opAtomicNr pkt && homeAtomic s pkt

/-- When REDUCE has its own effect (R446). -/
def canReduce (pkt : Packet) (s : State) : Bool :=
  homeTaken s opReduce pkt && (accessError (heardState s pkt) pkt.part pkt.addr.toNat 64 true).isNone &&
    (accessError (heardState s pkt) pkt.part pkt.ext.toNat (lineExps pkt.func) true).isNone &&
    !writeWaits (heardState s pkt) pkt.part pkt.addr.toNat 64 && !writeWaits (heardState s pkt) pkt.part pkt.ext.toNat (lineExps pkt.func) &&
    (if pkt.contributors = 0 then (memoryLine (heardState s pkt) pkt.part pkt.addr.toNat pkt.ext.toNat pkt.func).isSome
     else decide (pkt.contributors.toNat > 1) && decide (s.fabric.gathers.length < 64) && (tabFind (pkt.part.val * 2 ^ 64 + pkt.addr.toNat) s.fabric.gathers).isNone)

/-- When MCAST_STORE has its own effect (R446). -/
def canMcastStore (pkt : Packet) (s : State) : Bool :=
  homeTaken s opMcast pkt && homeWrites s pkt

/-- When DMA_READ has its own effect (R446). -/
def canDmaRead (pkt : Packet) (s : State) : Bool :=
  homeTaken s opDmaRead pkt && (homeBytes s pkt).isSome

/-- When DMA_WRITE has its own effect (R446). -/
def canDmaWrite (pkt : Packet) (s : State) : Bool :=
  homeTaken s opDmaWrite pkt && homeWrites s pkt

/-- When READ_S has its own effect (R453). -/
def canReadS (pkt : Packet) (_grantE : Bool) (s : State) : Bool :=
  homeTaken s opReadS pkt && lineGrants s pkt false

/-- When READ_X has its own effect (R453). -/
def canReadX (pkt : Packet) (s : State) : Bool :=
  homeTaken s opReadX pkt && lineGrants s pkt true

/-! ### The messages about cached lines are performed, a gather times out, and the absorber writes back -/

/-- When WRITEBACK has its own effect (R453). -/
def canWriteback (pkt : Packet) (s : State) : Bool :=
  lineTaken s opWriteback pkt && (dirFind s (dirKey pkt.part pkt.addr.toNat)).any fun e => e.owner == some pkt.src.toNat

/-- When EVICT has its own effect (R453). -/
def canEvict (pkt : Packet) (s : State) : Bool :=
  lineTaken s opEvict pkt && (dirFind s (dirKey pkt.part pkt.addr.toNat)).isSome

/-- When INVALIDATE has its own effect (R453). -/
def canInvalidate (pkt : Packet) (s : State) : Bool :=
  lineTaken s opInvalidate pkt

/-- When RECALL has its own effect (R453). -/
def canRecall (pkt : Packet) (s : State) : Bool :=
  lineTaken s opRecall pkt

/-- When GATHER_TIMEOUT has its own effect (R466). -/
def canGatherTimeout (part : Fin 64) (addr : BitVec 64) (s : State) : Bool :=
  s.alive && (tabFind (part.val * 2 ^ 64 + addr.toNat) s.fabric.gathers).any fun g => decide (s.now ≥ g.since + 1000 * s.reg fabrPage Rg.fabrReqTimeoutMicros)

/-- When ABSORBER_WRITEBACK has its own effect (R454). -/
def canAbsorberWriteback (m : Fin 4) (line : Nat) (s : State) : Bool :=
  s.alive && (tabGet [] m.val s.fabric.absorber).any (fun e => e.1 == line && decide (s.now ≥ e.2 + 1000))

/-! ### The PCIe link goes down and up, configuration is answered, and the memory window reads, writes and updates -/

/-- When PCIE_LINK_DOWN has its own effect (R384). -/
def canPcieLinkDown (s : State) : Bool :=
  s.alive && s.host.linkUp

/-- When PCIE_LINK_UP has its own effect (R384). -/
def canPcieLinkUp (speed : Fin 4) (width : Fin 17) (flit : Bool) (s : State) : Bool :=
  s.alive && speed != 0 && (width == 4 || width == 8 || width == 16) && (flit || speed == 1)

/-- When PCIE_CONFIG_REQUEST has its own effect (R593). -/
def canPcieConfigRequest (_fn : Fin 256) (_register : Nat) (s : State) : Bool :=
  s.alive

/-- When WINDOW_READ has its own effect (R386). -/
def canWindowRead (fn : Fin 256) (off : Nat) (len : Nat) (secure : Bool) (s : State) : Bool :=
  s.alive && s.host.linkUp && !s.frozen hostPage && !windowLocked s fn.val off secure && (decide (off < 0x100000) ||
    ((windowOf s fn.val).valid && (rangeBytes s (windowOf s fn.val).part (windowAddr (windowOf s fn.val) off) len).isSome))

/-- When WINDOW_WRITE has its own effect (R387). -/
def canWindowWrite (fn : Fin 256) (off : Nat) (data : List Byte) (secure : Bool) (s : State) : Bool :=
  s.alive && s.host.linkUp && !s.frozen hostPage && !windowLocked s fn.val off secure && (decide (off < 0x100000) ||
    ((windowOf s fn.val).valid && s.partWriteCheck (windowOf s fn.val).part (windowAddr (windowOf s fn.val) off) data.length == .done))

/-- When WINDOW_ATOMIC has its own effect (R387). -/
def canWindowAtomic (fn : Fin 256) (off : Nat) (_op : WindowAtomicOp) (wide : Bool) (_operand _compare : BitVec 64) (secure : Bool) (s : State) : Bool :=
  s.alive && s.host.linkUp && !s.frozen hostPage && !windowLocked s fn.val off secure && !decide (off < 0x100000) && off % (if wide then 8 else 4) == 0 &&
    (windowOf s fn.val).valid && s.partWriteCheck (windowOf s fn.val).part (windowAddr (windowOf s fn.val) off) (if wide then 8 else 4) == .done &&
    (rangeBytes s (windowOf s fn.val).part (windowAddr (windowOf s fn.val) off) (if wide then 8 else 4)).isSome

/-! ### Routes, translations, IDE keys and the messages between members: each command has its effect -/

/-- When ROUTE_WRITE has its own effect (R409). -/
def canRouteWrite (who : Requester) (value : BitVec 32) (s : State) : Bool :=
  writeTaken s who hostPage 0x07C && (pageAt (s.reg hostPage Rg.hostRouteSelectPage * 4096)).any fun p => !pageLocked s p && functionSees s (value.toNat % 256) p

/-- When ATS_INVALIDATE has its own effect (R411). -/
def canAtsInvalidate (_fn : Fin 256) (_pasid : Option (BitVec 20)) (_addr _size : BitVec 64) (s : State) : Bool :=
  s.alive && s.host.linkUp

/-- When IDE_KM_REQUEST has its own effect (R412). -/
def canIdeKmRequest (stream : Fin 9) (msg : IdeKmMsg) (s : State) : Bool :=
  s.firmware && (match msg with
    | .setGo => (tabGet {} stream.val s.host.ide).next.isSome
    | _ => true)

/-- When FORWARDED_ENTRY_ARRIVE has its own effect (R416). -/
def canForwardedEntryArrive (_remoteSq : Fin 1048576) (_entry : BitVec 512) (_lead : BitVec 12) (s : State) : Bool :=
  s.working

/-- When MEMBER_COMPLETION_ARRIVE has its own effect (R416). -/
def canMemberCompletionArrive (sq : Fin 1048576) (id : BitVec 16) (_status : BitVec 16) (_result : BitVec 128) (s : State) : Bool :=
  s.alive && (forwardedOf s sq.val id).isSome

/-- When FORWARD_TIMEOUT has its own effect (R417). -/
def canForwardTimeout (sq : Fin 1048576) (id : BitVec 16) (s : State) : Bool :=
  s.alive && (forwardedOf s sq.val id).any fun f => decide (s.now ≥ f.at_ + 10000000)

/-- When MEMBER_READ has its own effect (R418). -/
def canMemberRead (q : CmdRef) (_value : BitVec 32) (reachable : Bool) (s : State) : Bool :=
  (startedCmd s q [0x70] false).any fun c => (memberFault (startedState c s) c reachable).isNone

/-- When MEMBER_WRITE has its own effect (R418). -/
def canMemberWrite (q : CmdRef) (reachable : Bool) (s : State) : Bool :=
  (startedCmd s q [0x71] false).any fun c => (memberFault (startedState c s) c reachable).isNone

/-- When MEMBER_EVENT has its own effect (R418). -/
def canMemberEvent (_m : Fin 64) (s : State) : Bool :=
  s.alive

/-! ### A link starts training, passes its phases, and falls back -/

/-- When TRAIN_START has its own effect (R429). -/
def canTrainStart (p : Fin 9) (cause : TrainCause) (s : State) : Bool :=
  s.alive && s.flag (aqzlPage p) Rg.pageStatusEnabled && (match cause with
    | .enable => s.reg (aqzlPage p) Rg.aqzlLinkStatusState == 0 && !s.frozen (aqzlPage p)
    | .retrainWrite => s.flag (aqzlPage p) Rg.aqzlLinkControlRetrain
    | .retryLimit => (linkOf s p).replay.any fun r => decide (r.sends ≥ 8)
    | .levelDrift => s.reg (aqzlPage p) Rg.aqzlLinkStatusState == 3
    | .partner => s.reg (aqzlPage p) Rg.aqzlLinkStatusState == 2 || s.reg (aqzlPage p) Rg.aqzlLinkStatusState == 3)

/-- When RETRAIN_WRITE has its own effect (R441). -/
def canRetrainWrite (who : Requester) (p : Fin 9) (s : State) : Bool :=
  writeTaken s who (aqzlPage p) 0x040

/-- When LEVEL_DRIFT has its own effect (R429). -/
def canLevelDrift (p : Fin 9) (lane : Fin 4) (s : State) : Bool :=
  s.alive && portUp s p && laneActive s p lane

/-- When TRAIN_PHASE_DONE has its own effect (R429). -/
def canTrainPhaseDone (p : Fin 9) (info : TrainInfo) (s : State) : Bool :=
  s.alive && (s.reg (aqzlPage p) Rg.aqzlLinkStatusState == 1 || s.reg (aqzlPage p) Rg.aqzlLinkStatusState == 2) && info.lanes.toNat &&& modeLanes s p != 0

/-- When TRAIN_PHASE_TIMEOUT has its own effect (R431). -/
def canTrainPhaseTimeout (p : Fin 9) (s : State) : Bool :=
  s.alive && (s.reg (aqzlPage p) Rg.aqzlLinkStatusState == 1 || s.reg (aqzlPage p) Rg.aqzlLinkStatusState == 2) &&
    decide (s.now > (linkOf s p).phaseAt + phaseMax (s.reg (aqzlPage p) Rg.aqzlLinkStatusPhase))

/-- When CODEWORD_RX has its own effect (R428). -/
def canCodewordRx (p : Fin 9) (lane : Fin 4) (_seq : BitVec 10) (_fec : FecResult) (s : State) : Bool :=
  s.alive && (laneActive s p lane || s.reg (aqzlPage p) Rg.aqzlLinkStatusState == 2)

/-- When CODEWORD_LOCK_LOSS has its own effect (R425). -/
def canCodewordLockLoss (_p : Fin 9) (_lane : Fin 4) (s : State) : Bool :=
  s.alive

/-- When RETRY_LIMIT has its own effect (R434). -/
def canRetryLimit (p : Fin 9) (s : State) : Bool :=
  s.alive && portUp s p && ((linkOf s p).replay.find? fun r => decide (r.sends ≥ 8)).isSome

/-! ### Flits are sent, received, acknowledged and credited; seals go out and come back -/

/-- When FLIT_RX has its own effect (R434). -/
def canFlitRx (p : Fin 9) (_flit : Flit) (_crcOk : Bool) (s : State) : Bool :=
  s.alive && portUp s p

/-- When FLIT_TX has its own effect (R435). -/
def canFlitTx (p : Fin 9) (s : State) : Bool :=
  s.alive && portUp (flush s) p && (linkOf (flush s) p).resend.isNone && decide ((linkOf (flush s) p).replay.length < 512)

/-- When FLOW has its own effect (R437). -/
def canFlow (p : Fin 9) (_vc : Fin 8) (_xoff : Bool) (s : State) : Bool :=
  s.alive && portUp s p

/-- When ACK has its own effect (R434). -/
def canAck (p : Fin 9) (_fseq : BitVec 12) (s : State) : Bool :=
  s.alive && portUp s p

/-- When NAK has its own effect (R434). -/
def canNak (p : Fin 9) (_fseq : BitVec 12) (s : State) : Bool :=
  s.alive && portUp s p

/-- When CREDIT has its own effect (R436). -/
def canCredit (p : Fin 9) (_vc : Fin 8) (_count : BitVec 10) (s : State) : Bool :=
  s.alive && portUp s p

/-- When ACK_TIMER has its own effect (R434). -/
def canAckTimer (p : Fin 9) (s : State) : Bool :=
  s.alive && portUp s p && (linkOf s p).rxAny && (decide ((linkOf s p).unacked ≥ 32) || decide (s.now ≥ (linkOf s p).ackedAt + 500))

/-- When SEAL has its own effect (R460). -/
def canSeal (p : Fin 9) (tag : Fin 64) (dest : BitVec 12) (fseq : BitVec 12) (s : State) : Bool :=
  s.alive && portUp s p && !(linkOf s p).sealsSeen.contains ⟨false, tag, dest.toNat, fseq.toNat⟩

/-- When SEAL_RETURN has its own effect (R460). -/
def canSealReturn (p : Fin 9) (tag : Fin 64) (dest : BitVec 12) (fseq : BitVec 12) (s : State) : Bool :=
  s.alive && portUp s p && !(linkOf s p).sealsSeen.contains ⟨true, tag, dest.toNat, fseq.toNat⟩

/-- When GATE_STATE_RESEND has its own effect (R427). -/
def canGateStateResend (p : Fin 9) (s : State) : Bool :=
  s.alive && portUp s p

/-! ### Time crosses a link, and lanes sleep, wake and are refreshed -/

/-- When TIME_EXCHANGE_TX has its own effect (R467). -/
def canTimeExchangeTx (p : Fin 9) (s : State) : Bool :=
  s.alive && portUp s p

/-- When TIME has its own effect (R468). -/
def canTime (p : Fin 9) (kind : BitVec 6) (_value : BitVec 50) (_localTime : BitVec 50) (s : State) : Bool :=
  s.alive && portUp s p && (kind == 0 || kind == 1)

/-- When TIME_UPSTREAM_LOSS has its own effect (R468). -/
def canTimeUpstreamLoss (next : Option (Fin 8)) (s : State) : Bool :=
  s.alive && !s.flag fabrPage Rg.fabrTimeControlMaster && decide (s.now ≥ (linkOf s (s.reg fabrPage Rg.fabrTimeControlUpstream)).timeHeard + 10000) &&
    next.all fun (q : Fin 8) => portUp s q && q.val != s.reg fabrPage Rg.fabrTimeControlUpstream

/-- When POWER has its own effect (R438). -/
def canPower (p : Fin 9) (_mask : BitVec 4) (_wake : Bool) (_seq : BitVec 10) (s : State) : Bool :=
  s.alive && portUp s p

/-- When LANE_SLEEP has its own effect (R438). -/
def canLaneSleep (p : Fin 9) (lane : Fin 4) (s : State) : Bool :=
  s.alive && portUp s p && s.flag (aqzlPage p) Rg.aqzlPowerAllowSleep && lane != 0 && laneActive s p lane && (linkOf s p).peerMask.testBit lane

/-- When LANE_WAKE has its own effect (R438). -/
def canLaneWake (p : Fin 9) (lane : Fin 4) (_errors : Bool) (s : State) : Bool :=
  s.alive && portUp s p && laneAsleep s p lane

/-- When LANE_REFRESH has its own effect (R438). -/
def canLaneRefresh (p : Fin 9) (lane : Fin 4) (s : State) : Bool :=
  s.alive && portUp s p && laneAsleep s p lane && decide (s.now ≥ tabGet 0 lane.val (linkOf s p).sleptAt + 100000000)

/-! ### The firmware starts, is verified, recovered, updated and committed -/

/-- When BOOT_START has its own effect (R563). -/
def canBootStart (s : State) : Bool :=
  s.alive && bootState s == 0 && s.mgmt.booting.isNone && decide (s.reg rsetPage Rg.rsetBringupStep ≥ 4)

/-- When BOOT_DONE has its own effect (R563). -/
def canBootDone (_image : ImageData) (s : State) : Bool :=
  s.alive && s.mgmt.booting.isSome

/-- When RECOVERY_GO has its own effect (R565). -/
def canRecoveryGo (who : Requester) (value : BitVec 32) (_image : HostData) (s : State) : Bool :=
  writeTaken s who mgmtPage 0x05C && value.getLsbD 0 && bootState s == 3

/-- When WATCHDOG_EXPIRY has its own effect (R554). -/
def canWatchdogExpiry (s : State) : Bool :=
  s.firmware

/-- When CONTROLLER_NOT_SERVING has its own effect (R541). -/
def canControllerNotServing (s : State) : Bool :=
  s.alive && bootState s != 2 && !s.twin.failSent && s.mgmt.restartAt.any fun at_ => decide (s.now ≥ at_ + 1000000000)

/-- When SVN_COMMIT has its own effect (R567). -/
def canSvnCommit (who : Requester) (value : BitVec 32) (s : State) : Bool :=
  writeTaken s who mgmtPage 0x060 && decide (value.toNat % 256 = 0xA5) && value.getLsbD 8 && bootState s != 4

/-- When OWNER_COMMIT has its own effect (R568). -/
def canOwnerCommit (who : Requester) (value : BitVec 32) (s : State) : Bool :=
  writeTaken s who mgmtPage 0x068 && decide (value.toNat % 256 = 0x5A) && value.getLsbD 8 && bootState s != 4

/-- When DYNAMIC_ADDRESS has its own effect (R559). -/
def canDynamicAddress (_addr : BitVec 7) (s : State) : Bool :=
  s.firmware && s.flag mgmtPage Rg.mgmtSidebandI3cEnable

/-- When FIRMWARE_UPDATE has its own effect (R566). -/
def canFirmwareUpdate (src : MgmtSource) (_image : ImageData) (s : State) : Bool :=
  pldmTaken s src

/-- When ACTIVATE_FIRMWARE has its own effect (R566). -/
def canActivateFirmware (src : MgmtSource) (s : State) : Bool :=
  pldmTaken s src

/-! ### Sensors and power are sampled, and PLDM requests are answered -/

/-- When SENSOR_SAMPLE has its own effect (R561). -/
def canSensorSample (_env : SensorEnv) (s : State) : Bool :=
  s.firmware

/-- When POWER_ESTIMATE has its own effect (R581). -/
def canPowerEstimate (_p _p0 : Nat) (_f : Fin 1001) (s : State) : Bool :=
  s.alive

/-- When POWER_ALLOWANCE_EXPIRY has its own effect (R581). -/
def canPowerAllowanceExpiry (s : State) : Bool :=
  s.alive && s.power.overSince.any fun at_ => decide (s.now ≥ at_ + 10000000)

/-- When COOLANT_HIGH has its own effect (R585). -/
def canCoolantHigh (inlet : Nat) (s : State) : Bool :=
  s.firmware && decide (inletNow s = some inlet) && decide (inlet > 500) && s.power.inletHigh.isNone && s.power.inletSince.any fun at_ => decide (s.now ≥ at_ + 1000000000)

/-- When INLET_SENSOR_LOSS has its own effect (R606). -/
def canInletSensorLoss (s : State) : Bool :=
  s.firmware && !s.power.inletLost && decide (s.now ≥ s.power.inletAt + 1000000000)

/-- When GET_SENSOR_READING has its own effect (R561). -/
def canGetSensorReading (src : MgmtSource) (sensor : SensorId) (s : State) : Bool :=
  pldmTaken s src && (s.mgmt.readings.find? fun e => e.1 == sensor).isSome

/-- When PLDM_DISCOVERY has its own effect (R559). -/
def canPldmDiscovery (src : MgmtSource) (_req : PldmDiscovery) (s : State) : Bool :=
  pldmTaken s src

/-- When PLDM_FRU_READ has its own effect (R559). -/
def canPldmFruRead (src : MgmtSource) (s : State) : Bool :=
  pldmTaken s src

/-- When PDR_REPOSITORY_REQUEST has its own effect (R559). -/
def canPdrRepositoryRequest (src : MgmtSource) (_req : PdrRequest) (s : State) : Bool :=
  pldmTaken s src

/-! ### SPDM requests are answered in their order, and the partition report and migration keys are served -/

/-- When GET_VERSION has its own effect (R573). -/
def canGetVersion (src : MgmtSource) (s : State) : Bool :=
  serves s src

/-- When GET_CAPABILITIES has its own effect (R573). -/
def canGetCapabilities (src : MgmtSource) (s : State) : Bool :=
  stageAt s src 1

/-- When NEGOTIATE_ALGORITHMS has its own effect (R573). -/
def canNegotiateAlgorithms (src : MgmtSource) (_supported : Bool) (s : State) : Bool :=
  stageAt s src 2

/-- When GET_DIGESTS has its own effect (R573). -/
def canGetDigests (src : MgmtSource) (s : State) : Bool :=
  stageAt s src 3

/-- When GET_CERTIFICATE has its own effect (R573). -/
def canGetCertificate (src : MgmtSource) (slot : Fin 8) (_offset _length : Nat) (s : State) : Bool :=
  stageAt s src 3 && slot == 0

/-- When CHALLENGE has its own effect (R573). -/
def canChallenge (src : MgmtSource) (slot : Fin 8) (_nonce : BitVec 256) (s : State) : Bool :=
  stageAt s src 3 && slot == 0

/-- When GET_MEASUREMENTS has its own effect (R574). -/
def canGetMeasurements (src : MgmtSource) (index : BitVec 8) (_signed : Bool) (_nonce : BitVec 256) (s : State) : Bool :=
  stageAt s src 3 && (index == 0 || index == 0xFF || (measuredFor src).contains index.toNat)

/-- When KEY_EXCHANGE has its own effect (R573). -/
def canKeyExchange (src : MgmtSource) (_exchange : BitVec 768) (s : State) : Bool :=
  stageAt s src 3 && sessionOf s src != some .established

/-- When FINISH has its own effect (R573). -/
def canFinish (src : MgmtSource) (_verifies : Bool) (s : State) : Bool :=
  stageAt s src 3 && sessionOf s src == some .handshake

/-- When KEY_UPDATE has its own effect (R573). -/
def canKeyUpdate (src : MgmtSource) (s : State) : Bool :=
  stageAt s src 3 && sessionOf s src == some .established

/-- When HEARTBEAT has its own effect (R573). -/
def canHeartbeat (src : MgmtSource) (s : State) : Bool :=
  stageAt s src 3 && sessionOf s src == some .established

/-- When END_SESSION has its own effect (R573). -/
def canEndSession (src : MgmtSource) (s : State) : Bool :=
  stageAt s src 3 && sessionOf s src == some .established

/-- When CHUNK_SEND has its own effect (R573). -/
def canChunkSend (src : MgmtSource) (chunk : BitVec 16) (_last : Bool) (_data : List Byte) (s : State) : Bool :=
  stageAt s src 3 && decide (chunk.toNat = if chunk = 0 then 0 else (tabGet (0, []) (transport src) s.mgmt.chunks).1)

/-- When CHUNK_GET has its own effect (R573). -/
def canChunkGet (src : MgmtSource) (_chunk : BitVec 16) (s : State) : Bool :=
  stageAt s src 3 && (tabFind (transport src) s.mgmt.large).isSome

/-- When PARTITION_REPORT has its own effect (R575). -/
def canPartitionReport (src : MgmtSource) (k : Fin 64) (_nonce : BitVec 256) (s : State) : Bool :=
  stageAt s src 3 && mayReport s src k

/-- When SET_MIGRATION_KEY has its own effect (R576). -/
def canSetMigrationKey (src : MgmtSource) (_slot : Fin 8) (_key : BitVec 256) (_peer : BitVec 456) (s : State) : Bool :=
  stageAt s src 3 && (src == .pfDoe || src == .pcieVdm) && sessionOf s src == some .established

/-! ### Strict mode, recording boundaries, long operations, self-test, zeroization and TDISP complete -/

/-- When STRICT_WRITE has its own effect (R504). -/
def canStrictWrite (who : Requester) (_value : BitVec 32) (s : State) : Bool :=
  writeTaken s who globPage 0x040

/-- When RECORD_BOUNDARY has its own effect (R516). -/
def canRecordBoundary (k : Fin 64) (_inputsFirst : Bool) (_loadDataOk : Bool) (s : State) : Bool :=
  s.working && s.partOn k && (recordOf s k).mode != 0 && atBoundary s k

/-- When LONG_OP_CHUNK has its own effect (R405). -/
def canLongOpChunk (part : Fin 64) (sq : Nat) (cmd : BitVec 16) (_bytes : Nat) (s : State) : Bool :=
  s.working && (runningLong s part sq cmd).any fun l => ([0x13, 0x14, 0x26, 0x40, 0x41, 0x42, 0x43] : List Nat).contains (cmdOp l.cmd)

/-- When RAKE has its own effect (R525). -/
def canRake (q : CmdRef) (s : State) : Bool :=
  (startedCmd s q [0x42] false).any fun c => !(rakeTarget c == 0 && (c.sq == .admin && tdiLocked (startedState c s) (functionOf (startedState c s) c.part))) && !(rakeTarget c == 0 && zeroizing (startedState c s) c.part) &&
    !rakeReserved c && !(rakeTarget c == 0 && !rakeMapped (startedState c s) c.part (rakeStart c) (rakeLength c)) && !(rakeTarget c == 1 && decide (rakeStart c + rakeLength c > hbmBytes)) && !rakeBusy (startedState c s) (rakeTarget c) (rakeUnit c)

/-- When SELFTEST_ADMIT has its own effect (R552). -/
def canSelftestAdmit (q : CmdRef) (_env : SelftestEnv) (s : State) : Bool :=
  (startedCmd s q [0x41] false).any fun c => selftestClass c == 0 && paramsClean c [(0x18, 0, 4)] && !(startedState c s).anyPart

/-- When SELFTEST_SOAK has its own effect (R305). -/
def canSelftestSoak (q : CmdRef) (seconds : Nat) (_record : SoakRecord) (s : State) : Bool :=
  (startedCmd s q [0x41] false).any fun c => selftestClass c == 1 && (seconds == 0 || (decide (120 ≤ seconds) && decide (seconds ≤ 3600))) && !coresHeldByParts (startedState c s)

/-- When ZEROIZE_PARTITION has its own effect (R577). -/
def canZeroizePartition (q : CmdRef) (s : State) : Bool :=
  (startedCmd s q [0x43] true).any fun c => !zeroScope c && cmdLen c == 0 && paramsClean c [(0x18, 0, 1)] && !(zeroParts c).any (zeroizing (startedState c s))

/-- When ZEROIZE_DEVICE has its own effect (R578). -/
def canZeroizeDevice (q : CmdRef) (s : State) : Bool :=
  (startedCmd s q [0x43] true).any fun c => zeroScope c && cmdLen c == 0 && paramsClean c [(0x18, 0, 1)] && !(zeroParts c).any (zeroizing (startedState c s))

/-- When TDISP_REQUEST has its own effect (R413). -/
def canTdispRequest (fn : Fin 256) (_msg : TdispMsg) (s : State) : Bool :=
  s.firmware && fn != 0 && !tdiClearing s fn

/-! ### A stream slot starts, moves lines, and ends or halts -/

/-- When STREAM_SLOT_START has its own effect (R155). -/
def canStreamSlotStart (c : Fin 160) (slot : Fin 16) (s : State) : Bool :=
  slotsRun s c && !(slotOf (s.core c) slot).started && !(slotOf (s.core c) slot).queue.isEmpty

/-- When STREAM_LINE_MOVED has its own effect (R157). -/
def canStreamLineMoved (c : Fin 160) (slot : Fin 16) (s : State) : Bool :=
  (runningSlot s c slot).any fun r => decide (r.1.moved < streamLines r.2.2.1) && ringAllows r.2.2.1 r.1 && lineMeets s r.2.2.2 c r.2.2.1 (ringBase r.1) r.1.moved == .moves

/-- When STREAM_SLOT_DONE has its own effect (R141). -/
def canStreamSlotDone (c : Fin 160) (slot : Fin 16) (s : State) : Bool :=
  (runningSlot s c slot).any fun r => r.1.moved == streamLines r.2.2.1

/-- When STREAM_HALT has its own effect (R158). -/
def canStreamHalt (c : Fin 160) (slot : Fin 16) (s : State) : Bool :=
  (runningSlot s c slot).any fun r => decide (r.1.moved < streamLines r.2.2.1) && ringAllows r.2.2.1 r.1 && (match lineMeets s r.2.2.2 c r.2.2.1 (ringBase r.1) r.1.moved with
    | .halts _ _ => true
    | _ => false)

/-! ### A core's fabric command is sent, answered, retried and done -/

/-- When FABRIC_INJECT has its own effect (R374). -/
def canFabricInject (c : Fin 160) (s : State) : Bool :=
  (injectsRemote s c).isSome

/-- When FABRIC_RESPONSE has its own effect (R448). -/
def canFabricResponse (pkt : Packet) (s : State) : Bool :=
  s.working && pkt.op.getLsbD 7 && pkt.dest.toNat == selfDevice s && rxReady s pkt && decide (pkt.core.toNat < 160) &&
    (answeredReq s pkt).any fun r => !resultWaits (splitPairs pkt s) pkt.core.toNat r pkt.data.length

/-- When FABRIC_COMMAND_DONE has its own effect (R448). -/
def canFabricCommandDone (c : Fin 160) (s : State) : Bool :=
  s.working && ((s.core c).fabricQueue.find? (commandOver (s.core c))).isSome

/-- When REFUSED_RETRY has its own effect (R451). -/
def canRefusedRetry (c : Fin 160) (s : State) : Bool :=
  (retryDue s c).any fun r => r.dest != selfDevice s

/-- When REQ_TIMEOUT has its own effect (R450). -/
def canReqTimeout (c : Fin 160) (req : BitVec 8) (s : State) : Bool :=
  s.alive && ((s.core c).requests.find? fun r => r.req == req.toNat).any fun r => decide (s.now ≥ r.sentAt + 1000 * s.reg fabrPage Rg.fabrReqTimeoutMicros)

/-! ### Memory is read and written, pages move between the tiers, and sluices fill -/

/-- When MEMORY_READ has its own effect (R237). -/
def canMemoryRead (part : Fin 64) (addr : BitVec 64) (_hint : CacheHint) (_agent : MemAgent) (s : State) : Bool :=
  s.working && (readsData s part addr.toNat 64).isSome

/-- When MEMORY_WRITE has its own effect (R631). -/
def canMemoryWrite (part : Fin 64) (addr : BitVec 64) (data : List Byte) (_agent : MemAgent) (s : State) : Bool :=
  s.working && s.partWriteCheck part addr.toNat data.length == .done

/-- When BULK_LINK_DOWN has its own effect (R245). -/
def canBulkLinkDown (p : Fin 8) (s : State) : Bool :=
  s.alive && s.flag (bulkPage p) Rg.bulkPortStatusLinkUp

/-- When BULK_LINK_UP has its own effect (R248). -/
def canBulkLinkUp (_p : Fin 8) (width speed : Fin 4) (s : State) : Bool :=
  s.alive && ((speed.val == 1 && (width.val == 1 || width.val == 2)) || (speed.val == 2 && width.val == 2))

/-- When BUFFER_WAYS_WRITE has its own effect (R251). -/
def canBufferWaysWrite (who : Requester) (m : Fin 4) (value : BitVec 32) (s : State) : Bool :=
  writeTaken s who (msidPage m) 0x040 && !(changedWays s m value).any fun w => (s.reg (msidPage m) Rg.msidBufferWaysWays).testBit w && (wayFrames m w).any (usedFrames s 2).contains

/-- When HEAT_EPOCH has its own effect (R258). -/
def canHeatEpoch (part : Fin 64) (s : State) : Bool :=
  s.working && heatRuns s part && decide (s.now ≥ (tabGet {} part.val s.parts).heatAt + heatEpochNs s part)

/-- When HEAT_MOVE has its own effect (R258). -/
def canHeatMove (part : Fin 64) (s : State) : Bool :=
  s.working && heatRuns s part && (tabFind part.val s.tier.moves).isNone && (heatChoice s part).isSome

/-- When HEAT_MOVE_DONE has its own effect (R258). -/
def canHeatMoveDone (part : Fin 64) (s : State) : Bool :=
  s.working && (tabFind part.val s.tier.moves).any fun m => m.1.heat

/-- When SLUICE_PREFETCH has its own effect (R267). -/
def canSluicePrefetch (engine : Fin 64) (s : State) : Bool :=
  (sluiceAt s engine 0).any fun r => sluiceTakes s r.1 r.2.1.pace || (sluiceQueues s r.1 r.2.1.pace).isSome

/-- When SLUICE_FILL_START has its own effect (R267). -/
def canSluiceFillStart (engine : Fin 64) (s : State) : Bool :=
  (sluiceAt s engine 1).any fun r => !r.1.filling && r.2.1.slots != 0 && decide (r.2.2.2 ≤ r.2.1.slotBytes) &&
    (sluiceTakes s r.1 (r.2.1.freeBase + r.1.fills % r.2.1.slots) || (sluiceQueues s r.1 (r.2.1.freeBase + r.1.fills % r.2.1.slots)).isSome)

/-- When SLUICE_FILL_DONE has its own effect (R268). -/
def canSluiceFillDone (engine : Fin 64) (s : State) : Bool :=
  (sluiceAt s engine 1).any fun r => r.1.filling && (s.partBytesAll r.1.part r.2.2.1 r.2.2.2).isSome && (partSem s r.1.part (r.2.1.gateBase + r.1.fills % max 1 r.2.1.slots)).isSome &&
    s.partWriteCheck r.1.part (fillSlot r.2.1 r.1) r.2.2.2 == .done

/-- When RESOURCE_DONE has its own effect (R272). -/
def canResourceDone (part : Fin 64) (unit : BitVec 64) (source : ReplicaSource) (_data : List Byte) (_writeFails : Bool) (s : State) : Bool :=
  s.working && awaited s part unit.toNat && (objectAt s part unit.toNat).any fun o => o.2.replica == (if source = .twin then 1 else 2) &&
    !(source == .twin && s.twin.stale.contains (objKey part o.1))

/-- When RESOURCE_TIMEOUT has its own effect (R273). -/
def canResourceTimeout (part : Fin 64) (unit : BitVec 64) (error : Bool) (s : State) : Bool :=
  s.working && match unitState s part unit.toNat with
    | some (.awaited since) => error || decide (s.now ≥ since + 10000000)
    | _ => false

/-! ### Objects are declared, released, moved, loaded and filled; sluices start and stop -/

/-- When OBJECT_DECLARE has its own effect (R254). -/
def canObjectDeclare (q : CmdRef) (data : HostData) (s : State) : Bool :=
  (startedCmd s q [0x10] true).any fun c => decide (64 ≤ cmdLen c) && (cmdData s c data 64).any fun b => declares (dataState c 64 b s) c.part (BitVec.ofNat 512 (leNat b))

/-- When OBJECT_RELEASE has its own effect (R256). -/
def canObjectRelease (q : CmdRef) (object : BitVec 16) (s : State) : Bool :=
  (startedCmd s q [0x11] true).any fun c => (objectFree (startedState c s) c.part object.toNat).isSome

/-- When OBJECT_MOVE has its own effect (R256). -/
def canObjectMove (q : CmdRef) (object : BitVec 16) (tier : Fin 4) (s : State) : Bool :=
  (startedCmd s q [0x12] true).any fun c => (objectMovable (startedState c s) c.part object.toNat tier).isSome

/-- When OBJECT_PAGE_MOVED has its own effect (R256). -/
def canObjectPageMoved (part : Fin 64) (s : State) : Bool :=
  s.working && (tabFind part.val s.tier.moves).any fun m => !m.1.heat

/-- When LOAD_OBJECT has its own effect (R255). -/
def canLoadObject (q : CmdRef) (kind : LoadKind) (data : HostData) (s : State) : Bool :=
  (startedCmd s q [0x13] true).any fun c => (cmdData s c data (cmdLen c)).isSome && (match kind with
    | .object i => (tabFind (objKey c.part i.toNat) s.tier.objects).any fun o => decide (cmdLen c ≤ objectPages o * pageBytes)
    | .coreProgram n => maskBit s (partPage c.part) Rg.partCoreMaskCores n.val && decide (cmdLen c ≤ 2 ^ 18) && (s.core n.val).ctx.isNone
    | .sigcProgram n => maskBit s (partPage c.part) Rg.partSigcMaskCores n.val && decide (cmdLen c ≤ 2 ^ 16) && !s.flag (sigcPage n.val) Rg.pageControlEnable)

/-- When FILL has its own effect (R276). -/
def canFill (q : CmdRef) (target : FillTarget) (_pattern : BitVec 64) (s : State) : Bool :=
  (startedCmd s q [0x14] true).any fun c => let u := startedState c s
    match target with
    | .range a n => a.toNat % 64 == 0 && n.toNat % 64 == 0 && (n == 0 || fillRangeOk u c.part a.toNat n.toNat)
    | .core m => maskBit u (partPage c.part) Rg.partCoreMaskCores m.val && !fillBusy u (corePage m.val) (u.core m.val).ctx.isSome
    | .sigc m => maskBit u (partPage c.part) Rg.partSigcMaskCores m.val && !fillBusy u (sigcPage m.val) ((u.sigc m.val).run == .running)

/-- When SLUICE_START has its own effect (R266). -/
def canSluiceStart (q : CmdRef) (list : BitVec 64) (s : State) : Bool :=
  (startedCmd s q [0x15] true).any fun c => let u := startedState c s
    u.reg (partPage c.part) Rg.partConfigKind != 2 && decide ((u.tier.sluices.filter fun e => e.2.part == c.part).length < 4) && (freeEngine u).isSome &&
      (sluiceHead u c.part list.toNat).any fun h => !decide (h.entries = 0 ∨ h.slots = 1 ∨ h.slots > 64 ∨ h.consumers = 0 ∨ h.slotBase % 4096 ≠ 0 ∨ h.slotBytes % 4096 ≠ 0)

/-- When SLUICE_STOP has its own effect (R267). -/
def canSluiceStop (q : CmdRef) (list : BitVec 64) (s : State) : Bool :=
  (startedCmd s q [0x16] true).any fun c => ((startedState c s).tier.sluices.find? fun e => e.2.part == c.part && e.2.list == list.toNat).isSome

/-- When TWIN_COPY_STALE has its own effect (R539). -/
def canTwinCopyStale (k : Fin 64) (object : BitVec 16) (q : CmdRef) (s : State) : Bool :=
  s.alive && (longOf s q.sq q.id).any fun l => cmdOp l.cmd == 0x13 && l.kind == 0 && l.unit == object.toNat && l.cmd.part == k.val && (twinCopy s l).isSome &&
    decide (l.done ≥ l.total) && decide (s.now ≥ l.startedAt + 10000000)

/-! ### Partitions are enabled, resized, exported and imported, and functions are reset -/

/-- When PART_ENABLE has its own effect (R352). -/
def canPartEnable (who : Requester) (k : Fin 64) (s : State) : Bool :=
  writeTaken s who (partPage k) 0x010 && !s.partOn k && (enableRefused s k).isNone

/-- When RESIZE_START has its own effect (R376). -/
def canResizeStart (who : Requester) (k : Fin 64) (s : State) : Bool :=
  writeTaken s who (partPage k) 0x088 && !s.flag (partPage k) Rg.partResizeBusy &&
    (ownCores s k).all (fun c => (targetBits s k 160 Rg.partCoreTargetCores).contains c || !namedCores s k c) &&
    (ownSigcs s k).all (fun u => (targetBits s k 64 Rg.partSigcTargetCores).contains u || !s.flag (sigcPage u) Rg.pageControlEnable) &&
    (targetBits s k 160 Rg.partCoreTargetCores).all (fun c => (ownCores s k).contains c || (ownerOfCore s c).isNone) &&
    (targetBits s k 64 Rg.partSigcTargetCores).all (fun u => (ownSigcs s k).contains u || (ownerOfSigc s u).isNone)

/-- When RESIZE_DONE has its own effect (R376). -/
def canResizeDone (k : Fin 64) (s : State) : Bool :=
  s.alive && (tabGet {} k.val s.parts).resize.any fun r => ((ownCores s k).filter fun c => !r.1.getLsbD c).all fun c =>
    (s.core c).ctx.isNone && (s.core c).lentTo.isNone && (s.core c).surgeFor.isNone

/-- When ALLOT_WRITE has its own effect (R377). -/
def canAllotWrite (who : Requester) (k : Fin 64) (bulk : Bool) (value : BitVec 32) (s : State) : Bool :=
  writeTaken s who (partPage k) (allotField bulk).off && (!s.partOn k ||
    (decide (s.reg (partPage k) (if bulk then Rg.partBulkUsedUnits else Rg.partHbmUsedUnits) ≤ value.toNat % 2 ^ (allotField bulk).len) &&
     decide (value.toNat % 2 ^ (allotField bulk).len + sumReg s (othersOn s k) (allotField bulk) ≤ tierUnits s bulk)))

/-- When DIRTY_ATOMIC_COMPLETION has its own effect (R379). -/
def canDirtyAtomicCompletion (k : Fin 64) (ok : Bool) (s : State) : Bool :=
  s.alive && !ok && s.flag (partPage k) Rg.partDirtyControlEnable

/-- When EXPORT_STATE has its own effect (R380). -/
def canExportState (q : CmdRef) (s : State) : Bool :=
  (startedCmd s q [0x40] true).any fun c => paramsClean c [(0x18, 0, 3)] && !isRadio (startedState c s) c.part &&
    !((startedState c s).host.longs.any fun l => cmdOp l.cmd == 0x40 && l.cmd.part == c.part) && (tabFind (c.field 0x18 0 3) (startedState c s).mgmt.keySlots).isSome

/-- When LOAD_OBJECT_STATE has its own effect (R381). -/
def canLoadObjectState (q : CmdRef) (data : HostData) (s : State) : Bool :=
  (startedCmd s q [0x13] true).any fun c => (tabFind (c.field 0x18 0 3) s.mgmt.keySlots).isSome && (cmdData s c data (cmdLen c)).isSome

/-- When DELETE_CQ has its own effect (R391). -/
def canDeleteCq (q : CmdRef) (s : State) : Bool :=
  (startedCmd s q [0x05] false).any fun c => !lockedQueue (startedState c s) c (cqFn (startedState c s) (.num (Fin.ofNat 262144 (c.field 0x18 0 18)))) &&
    mayName (startedState c s) c Rg.partCqBaseBase Rg.partCqCountCount (c.field 0x18 0 18) && ((startedState c s).cq (.num (Fin.ofNat 262144 (c.field 0x18 0 18)))).isSome &&
    !((startedState c s).host.sqs.any fun e => e.2.cq == .num (Fin.ofNat 262144 (c.field 0x18 0 18))) &&
    !((startedState c s).serve.streams.any fun e => e.2.route == 0 && e.2.target == c.field 0x18 0 18)

/-- When FLR_VF has its own effect (R414). -/
def canFlrVf (fn : Fin 256) (s : State) : Bool :=
  s.alive && s.host.linkUp && fn != 0

/-- When FLR_PF has its own effect (R415). -/
def canFlrPf (s : State) : Bool :=
  s.alive && s.host.linkUp

/-! ### Power, reset, bring-up, clock loss, the thermal trip and the supplies: each event has its effect -/

/-- When POWER_ON has its own effect (R588). -/
def canPowerOn (_vbatHeld : Bool) (s : State) : Bool :=
  decide (s.plat.phase = .railsDown)

/-- When SUPPLY_DROP has its own effect (R603). -/
def canSupplyDrop (_rail : Rail) (ns : Nat) (s : State) : Bool :=
  decide (ns ≥ 1000) && s.plat.phase != .railsDown

/-- When RESET_ACCEPT has its own effect (R590). -/
def canResetAccept (lowNs : Nat) (sinceReleaseNs : Option Nat) (arb : Bool) (s : State) : Bool :=
  resetAccepted lowNs sinceReleaseNs arb s

/-- When RESET_RELEASE has its own effect (R590). -/
def canResetRelease (_netHigh : Bool) (s : State) : Bool :=
  s.plat.phase == .inReset || s.plat.phase == .netLow

/-- When BRINGUP_START has its own effect (R593). -/
def canBringupStart (_env : BringEnv) (s : State) : Bool :=
  decide (s.plat.phase = .released)

/-- When REFCLK_A_PRESENT has its own effect (R593). -/
def canRefclkAPresent (s : State) : Bool :=
  decide (s.plat.phase = .bringup) && s.plat.waitRefclk

/-- When HOT_WAIT_END has its own effect (R593). -/
def canHotWaitEnd (s : State) : Bool :=
  decide (s.plat.phase = .bringup) && s.plat.waitHot

/-- When BRINGUP_DONE has its own effect (R593). -/
def canBringupDone (s : State) : Bool :=
  decide (s.plat.phase = .bringup) && s.alive && (s.reg mgmtPage Rg.mgmtBootStatusState == 2 || s.reg mgmtPage Rg.mgmtBootStatusState == 3)

/-- When REFCLK_A_LOSS has its own effect (R37). -/
def canRefclkALoss (s : State) : Bool :=
  s.alive

/-- When VDD_CORE_STEP_UP has its own effect (R30). -/
def canVddCoreStepUp (die : Fin 4) (s : State) : Bool :=
  s.plat.stepDue.contains die.val && s.firmware

/-- When VDD_CORE_POLICY has its own effect (R584). -/
def canVddCorePolicy (_die : Fin 4) (_mvPower : Nat) (_mvRate : Nat) (_mvFloor : Nat) (s : State) : Bool :=
  s.firmware

/-- When AVS_TRANSACTION has its own effect (R604). -/
def canAvsTransaction (_die : Fin 4) (_mv : Nat) (_ok : Bool) (s : State) : Bool :=
  s.firmware

/-- When VBAT_LOW has its own effect (R609). -/
def canVbatLow (_low : Bool) (s : State) : Bool :=
  s.alive

/-! ### Doorbells are taken, entries are fetched, and NOP and CANCEL complete -/

/-- When SQ_TAIL_DOORBELL has its own effect (R399). -/
def canSqTailDoorbell (fn : Fin 256) (sq : SqRef) (low : BitVec 32) (secure : Bool) (s : State) : Bool :=
  ringTaken s fn.val sq secure && low.getLsbD 31 && (s.sq sq).any fun x => decide (low.toNat % 65536 < x.depth)

/-- When CQ_HEAD_DOORBELL has its own effect (R401). -/
def canCqHeadDoorbell (fn : Fin 256) (sq : SqRef) (high : BitVec 32) (secure : Bool) (s : State) : Bool :=
  ringTaken s fn.val sq secure && high.getLsbD 31 && (s.sq sq).any fun x => (s.cq x.cq).any fun y => decide (high.toNat % 65536 < y.depth) &&
    decide ((high.toNat % 65536 + y.depth - y.head) % y.depth ≤ (y.tail + y.depth - y.head) % y.depth)

/-- When ADMIN_QUEUE_ENABLE has its own effect (R419). -/
def canAdminQueueEnable (who : Requester) (on : Bool) (s : State) : Bool :=
  writeTaken s who hostPage 0x05C && (!on || ((s.sq .admin).isNone && s.reg hostPage Rg.hostAdminSizeSqDepth != 0 && s.reg hostPage Rg.hostAdminSizeCqDepth != 0))

/-- When SQ_ENTRY_FETCH has its own effect (R392). -/
def canSqEntryFetch (admin : Bool) (_entry : BitVec 512) (s : State) : Bool :=
  s.working && s.host.linkUp && !s.frozen qmgrPage && (if admin then (s.sq .admin).any fun x => !x.arrivals.isEmpty
    else (pickSq s).any fun r => (tabFind r.2.1 s.host.sqs).isSome)

/-- When NOP has its own effect (R398). -/
def canNop (q : CmdRef) (s : State) : Bool :=
  (startedCmd s q [0x00] false).isSome

/-- When CANCEL has its own effect (R407). -/
def canCancel (q : CmdRef) (cancelFirst : Bool) (s : State) : Bool :=
  (startedCmd s q [0x01] false).any fun c => match longOf (startedState c s) c.sq (BitVec.ofNat 16 (c.field 0x18 0 16)) with
    | some l => !(cmdOp l.cmd == 0x43 || cmdOp l.cmd == 0x40) && cancelFirst
    | none => ((startedState c s).host.cmds.find? fun d => d.sq == c.sq && d.id == BitVec.ofNat 16 (c.field 0x18 0 16) && isLong d && !d.started).any fun d =>
        !(cmdOp d == 0x43 || cmdOp d == 0x40)

/-! ### Queues are created and deleted, completions written, interrupts coalesced and unmasked -/

/-- When CREATE_SQ has its own effect (R390). -/
def canCreateSq (q : CmdRef) (s : State) : Bool :=
  (startedCmd s q [0x02] false).any fun c => sqCreatable (startedState c s) c

/-- When CREATE_CQ has its own effect (R390). -/
def canCreateCq (q : CmdRef) (s : State) : Bool :=
  (startedCmd s q [0x03] false).any fun c => cqCreatable (startedState c s) c

/-- When DELETE_SQ has its own effect (R391). -/
def canDeleteSq (q : CmdRef) (s : State) : Bool :=
  (startedCmd s q [0x04] false).any fun c => !lockedQueue (startedState c s) c (sqFn (startedState c s) (.num (Fin.ofNat 1048576 (c.field 0x18 0 20)))) &&
    mayName (startedState c s) c Rg.partSqBaseBase Rg.partSqCountCount (c.field 0x18 0 20) && ((startedState c s).sq (.num (Fin.ofNat 1048576 (c.field 0x18 0 20)))).isSome

/-- When COMPLETION_WRITE has its own effect (R402). -/
def canCompletionWrite (cq : CqRef) (translates : Bool) (s : State) : Bool :=
  s.alive && s.host.linkUp && !s.frozen qmgrPage && translates && (s.cq cq).any fun y => !y.waiting.isEmpty && !cqFull y

/-- When CQ_COALESCE_TIMER has its own effect (R408). -/
def canCqCoalesceTimer (cq : CqRef) (s : State) : Bool :=
  s.alive && (s.cq cq).any fun y => decide (y.signalled ≠ y.tail) && decide (s.now ≥ y.oldest + 1000 * max 1 y.coalesceTime)

/-- When MSIX_VECTOR_UNMASK has its own effect (R410). -/
def canMsixVectorUnmask (_fn : Fin 256) (_vector : Fin 4096) (s : State) : Bool :=
  s.alive && s.host.linkUp

/-! ### Cells, slots, windows and surge claims: each radio command has its effect -/

/-- When CELL_START has its own effect (R285). -/
def canCellStart (q : CmdRef) (s : State) : Bool :=
  (startedCmd s q [0x30] true).any fun c => let u := startedState c s
    cmdLocal c && decide (cmdLen c = 256) && isRadio u c.part && (cmdData u c ⟨.ok, []⟩ 256).any fun b => (cellStarts (dataState c 256 b u) c.part b).isSome

/-- When CELL_STOP has its own effect (R286). -/
def canCellStop (q : CmdRef) (cell : Fin 384) (s : State) : Bool :=
  (startedCmd s q [0x31] true).any fun c => (tabFind cell.val ((startedState c s).radioOf c.part).cells).any fun y => y.stopping.isNone

/-- When SLOT has its own effect (R289). -/
def canSlot (q : CmdRef) (data : HostData) (tasks : List SlotTask) (arb : Bool) (s : State) : Bool :=
  (startedCmd s q [0x32] true).any fun c => let u := startedState c s
    decide (cmdLen c = 32) && (cmdData u c data 32).any fun b => (slotStarts (dataState c 32 b u) c b tasks arb).isSome

/-- When SLOT_BOUNDARY has its own effect (R287). -/
def canSlotBoundary (k : Fin 64) (cell : Fin 384) (s : State) : Bool :=
  s.alive && (tabFind cell.val (s.radioOf k).cells).any fun y => decide (slotAt y.info s.now > y.slot)

/-- When CAL_COOLANT_STALE has its own effect (R307). -/
def canCalCoolantStale (k : Fin 64) (s : State) : Bool :=
  s.firmware && s.partOn k && isRadio s k && (s.radioOf k).warmSince.any fun t => decide (s.now ≥ t + 10000000000)

/-- When CAL_IMPORT has its own effect (R305). -/
def canCalImport (q : CmdRef) (k : Fin 64) (_record : SoakRecord) (s : State) : Bool :=
  (startedCmd s q [0x33] true).any fun c => c.part == k.val

/-- When TIDEMARK_MISS has its own effect (R310). -/
def canTidemarkMiss (k : Fin 64) (cell : Fin 384) (frame : Nat) (slot : Nat) (task : Nat) (s : State) : Bool :=
  s.alive && (slotOfCell (s.radioOf k) cell frame slot).any fun r => (r.tasks[task]?).any fun a => !r.held && !r.missed.contains task && decide (s.now ≥ a.tidemark.toNat)

/-- When SLOT_COMPLETE has its own effect (R290). -/
def canSlotComplete (k : Fin 64) (cell : Fin 384) (frame : Nat) (slot : Nat) (_taskNs : Nat) (_poisonPrbs : Nat) (s : State) : Bool :=
  s.working && (slotOfCell (s.radioOf k) cell frame slot).any fun r => !r.held && surgeReady s k r &&
    (slotOfCell ((lateMissed k cell frame slot r s).radioOf k) cell frame slot).isSome

/-- When UPLANE_WINDOW_CLOSE has its own effect (R298). -/
def canUplaneWindowClose (k : Fin 64) (cell : Fin 384) (frame : Nat) (slot : Nat) (symbol : Fin 14) (eaxc : Fin 128) (named : List Nat) (s : State) : Bool :=
  (uplaneCloses s k cell frame slot symbol eaxc named).isSome

/-- When SURGE_CLAIM has its own effect (R300). -/
def canSurgeClaim (k : Fin 64) (cell : Fin 384) (frame : Nat) (slot : Nat) (s : State) : Bool :=
  s.working && (slotOfCell (s.radioOf k) cell frame slot).any fun r => !r.held && claimsMore s k r &&
    ((idleSurge s k r.index).isSome || (claimFrom k cell (surgeGroups s k) s).isSome)

/-- When SURGE_CORE_READY has its own effect (R301). -/
def canSurgeCoreReady (c : Fin 160) (s : State) : Bool :=
  (claimDue s c).isSome

/-- When CLAIM_LATE has its own effect (R302). -/
def canClaimLate (c : Fin 160) (s : State) : Bool :=
  (claimPast s c).isSome

/-- When SURGE_RETURN has its own effect (R303). -/
def canSurgeReturn (c : Fin 160) (s : State) : Bool :=
  s.working && (s.core c).lentTo.isSome

/-! ### Register reads and writes of every page complete -/

/-- When REGISTER_WRITE has its own effect (R13). -/
def canRegisterWrite (who : Requester) (bytes : Nat) (offset : Nat) (value : BitVec 64) (s : State) : Bool :=
  pathUp s who && bytes == 4 && offset % 4 == 0 && (match pageAt offset with
    | some p => writeTaken s who p (offset % 0x1000) && !ownCommand p (offset % 0x1000) && !heldNow s p (offset % 0x1000) (value.toNat % 2 ^ 32) &&
      p.kind != .time && p.kind != .host && p.kind != .ethp
    | none => false)

/-- When REGISTER_READ_CLEAR has its own effect (R14). -/
def canRegisterReadClear (who : Requester) (bytes : Nat) (offset : Nat) (_event : Option (BitVec 32)) (s : State) : Bool :=
  pathUp s who && bytes == 4 && offset % 4 == 0

/-- When COUNTER_LATCH_READ has its own effect (R130). -/
def canCounterLatchRead (who : Requester) (_offset : Nat) (s : State) : Bool :=
  pathUp s who

/-- When INT_STATUS_CLEAR has its own effect (R409). -/
def canIntStatusClear (who : Requester) (page : Page) (_value : BitVec 32) (_event : BitVec 32) (s : State) : Bool :=
  pageOk page && writeTaken s who page 0x020

/-- When INT_FORCE_WRITE has its own effect (R51). -/
def canIntForceWrite (who : Requester) (page : Page) (_value : BitVec 32) (s : State) : Bool :=
  pageOk page && writeTaken s who page 0x028

/-! ### SOFT_RESET, ENABLE and FREEZE of every page take effect and are reported -/

/-- When SOFT_RESET has its own effect (R47). -/
def canSoftReset (who : Requester) (page : Page) (value : BitVec 32) (s : State) : Bool :=
  pageOk page && value.getLsbD 0 && writeTaken s who page 0x010 && !enableFixed page.kind && !s.flag page Rg.pageControlSoftReset && resetAccepts s page

/-- When SOFT_RESET_DONE has its own effect (R47). -/
def canSoftResetDone (page : Page) (s : State) : Bool :=
  s.alive && pageOk page && s.flag page Rg.pageControlSoftReset

/-- When ENABLE_WRITE has its own effect (R627). -/
def canEnableWrite (who : Requester) (page : Page) (_on : Bool) (s : State) : Bool :=
  pageOk page && writeTaken s who page 0x010

/-- When BLOCK_OPERATING has its own effect (R627). -/
def canBlockOperating (page : Page) (s : State) : Bool :=
  s.alive && pageOk page && s.flag page Rg.pageControlEnable && !s.flag page Rg.pageControlSoftReset && !(page.kind == .core && (s.flag page Rg.coreSkewProbeBusy || s.plat.phase != .running))

/-- When BLOCK_STOPPED has its own effect (R627). -/
def canBlockStopped (page : Page) (s : State) : Bool :=
  s.alive && pageOk page && !s.flag page Rg.pageControlEnable

/-- When FREEZE_WRITE has its own effect (R627). -/
def canFreezeWrite (who : Requester) (page : Page) (_on : Bool) (s : State) : Bool :=
  pageOk page && writeTaken s who page 0x010

/-- When BLOCK_FROZEN has its own effect (R628). -/
def canBlockFrozen (page : Page) (s : State) : Bool :=
  s.alive && pageOk page && s.frozen page && unitDone s page

/-! ### Destinations move between outputs, outputs drain and go down, and partitions are quenched -/

/-- When ROUTE_MOVE has its own effect (R460). -/
def canRouteMove (dest : BitVec 12) (output : Fin 8) (s : State) : Bool :=
  (routeMoves (flush s) dest.toNat output).isSome && (freeTag (flush s)).isSome

/-- When ROUTE_RETURN has its own effect (R459). -/
def canRouteReturn (dest : BitVec 12) (s : State) : Bool :=
  (routeReturns (flush s) dest.toNat).isSome && (freeTag (flush s)).isSome

/-- When OUTPUT_DOWN has its own effect (R461). -/
def canOutputDown (p : Fin 8) (s : State) : Bool :=
  s.alive && (linkOf (flush s) p).wasUp && !portUp (flush s) p && !(linkOf (flush s) p).downHandled

/-- When DRAINED has its own effect (R461). -/
def canDrained (_p : Fin 8) (s : State) : Bool :=
  s.alive

/-- When DRAIN_TIMEOUT has its own effect (R461). -/
def canDrainTimeout (p : Fin 8) (s : State) : Bool :=
  s.alive && (tabFind p.val s.fabric.draining).any fun e => decide (s.now ≥ e.since + 1000 * s.reg fabrPage Rg.fabrDrainTimeoutMicros)

/-- When QUENCH_WRITE has its own effect (R464). -/
def canQuenchWrite (who : Requester) (_value : BitVec 64) (s : State) : Bool :=
  writeTaken s who fabrPage 0x098

/-- When QUENCH has its own effect (R464). -/
def canQuench (p : Fin 9) (part : Fin 64) (_on : Bool) (s : State) : Bool :=
  s.alive && portUp s p && !decide (s.now < tabGet 0 part.val s.fabric.ignoreUntil)

/-! ### Scores are sent and heard, a member is voted out, isolated and admitted -/

/-- When SALT_SCORE has its own effect (R546). -/
def canSaltScore (s : State) : Bool :=
  s.firmware

/-- When SALT_MESSAGE_TX has its own effect (R547). -/
def canSaltMessageTx (s : State) : Bool :=
  saltOn s

/-- When SALT_MESSAGE_RX has its own effect (R548). -/
def canSaltMessageRx (msg : SaltMessage) (s : State) : Bool :=
  saltOn s && decide (msg.member.val < spanSize s) && msg.member.val != ownMember s

/-- When EXPEL_ANNOUNCE has its own effect (R550). -/
def canExpelAnnounce (member : Fin 64) (_news : SaltNews) (s : State) : Bool :=
  saltOn s && decide (member.val < spanSize s)

/-- When ISOLATION has its own effect (R551). -/
def canIsolation (s : State) : Bool :=
  saltOn s && decide (2 * ((spanMembers s).filter fun m => m != ownMember s && decide (s.now ≥ heardFrom s m + 5000000)).length > spanSize s)

/-- When ADMIT_WRITE has its own effect (R552). -/
def canAdmitWrite (who : Requester) (value : BitVec 32) (s : State) : Bool :=
  writeTaken s who raspPage 0x0E8 && value.getLsbD 31 && ownMember s == s.reg fabrPage Rg.fabrSpanShapeLead && decide (value.toNat % 64 < spanSize s)

/-- When SALT_USED_EXPIRY has its own effect (R549). -/
def canSaltUsedExpiry (s : State) : Bool :=
  saltOn s

/-! ### Scalar, branch, LD and ST complete with the values of their rules -/

/-- When SCALAR_INSTRUCTION has its own effect (R135). -/
def canScalarInstruction (c : Fin 160) (insn : ScalarInsn) (s : State) : Bool :=
  coreRuns s c (scalarSpelled insn) && scalarPlain (s.core c) insn

/-- When BRANCH_INSTRUCTION has its own effect (R132). -/
def canBranchInstruction (c : Fin 160) (insn : BranchInsn) (s : State) : Bool :=
  coreRuns s c (branchSpelled insn) && branchPlain (s.core c) insn

/-- When LD has its own effect (R152). -/
def canLd (place : ScalarPlace) (width : ScalarWidth) (_signed : Bool) (_rd : Fin 32) (s : State) : Bool :=
  match placeRaw place with
  | some (k, a, pre, step) => sigcExecutes s k && (rawAt s k a pre step (widthBytes width)).any fun r =>
      (readAll .dmem s.mem.dmem (dmemKey k r.2) (widthBytes width)).isSome
  | none => match place with
    | .core c ra offset => coreRuns s c (inGroupOf 0x18 0x1B) && decide ((getG (s.core c) ra + offset).toNat % widthBytes width = 0) &&
        decide ((getG (s.core c) ra + offset).toNat < 2 ^ 22) && (s.spadRead c (getG (s.core c) ra + offset).toNat (widthBytes width)).isSome
    | _ => false

/-- When ST has its own effect (R162). -/
def canSt (place : ScalarPlace) (width : ScalarWidth) (_rs : Fin 32) (s : State) : Bool :=
  match placeRaw place with
  | some (k, a, pre, step) => sigcExecutes s k && (rawAt s k a pre step (widthBytes width)).isSome
  | none => match place with
    | .core c ra offset => coreRuns s c (inGroupOf 0x18 0x1B) && decide ((getG (s.core c) ra + offset).toNat % widthBytes width = 0) &&
        decide ((getG (s.core c) ra + offset).toNat < 2 ^ 22) && (width == .b64 || !cwBad .spad s.mem.spad (spadKey c (getG (s.core c) ra + offset).toNat / 8))
    | _ => false

/-! ### Serving groups, streams and KV ranges: each command completes -/

/-- When SERVE_GROUP has its own effect (R327). -/
def canServeGroup (q : CmdRef) (data : HostData) (s : State) : Bool :=
  (startedCmd s q [0x20] true).any fun c => decide (cmdLen c = 128) && paramsClean c [] && (cmdData s c data 128).any fun b => let u := dataState c 128 b s
    !groupWrong u c.part (BitVec.ofNat 1024 (leNat b)) && !u.serve.streams.any fun e => e.2.part == c.part && e.2.group == recField (BitVec.ofNat 1024 (leNat b)) 0 0 3

/-- When STREAM_OPEN has its own effect (R319). -/
def canStreamOpen (q : CmdRef) (data : HostData) (s : State) : Bool :=
  (startedCmd s q [0x21] true).any fun c => streamNamed s c 256 [(0x18, 0, 16)] && (cmdData s c data 256).any fun b => streamOpens (dataState c 256 b s) c (c.field 0x18 0 16) b

/-- When STREAM_CLOSE has its own effect (R323). -/
def canStreamClose (q : CmdRef) (s : State) : Bool :=
  (startedCmd s q [0x22] true).any fun c => (streamIn (startedState c s) c 0 [(0x18, 0, 16), (0x1C, 0, 17)]).any fun x => decide (c.field 0x1C 0 17 ≤ x.pages.length)

/-- When STREAM_HOLD has its own effect (R319). -/
def canStreamHold (q : CmdRef) (s : State) : Bool :=
  (startedCmd s q [0x23] true).any fun c => (streamIn (startedState c s) c 0 [(0x18, 0, 16)]).any fun x => x.state != 5

/-- When STREAM_RELEASE has its own effect (R319). -/
def canStreamRelease (q : CmdRef) (s : State) : Bool :=
  (startedCmd s q [0x24] true).any fun c => (streamIn (startedState c s) c 0 [(0x18, 0, 16)]).any fun x => x.state != 5

/-- When STREAM_QUERY has its own effect (R320). -/
def canStreamQuery (q : CmdRef) (s : State) : Bool :=
  (startedCmd s q [0x25] true).any fun c => let u := startedState c s
    streamNamed u c 256 [(0x18, 0, 16)] && (!cmdLocal c || u.partWriteCheck c.part (cmdAddr c) 256 == .done)

/-- When KV_BIND has its own effect (R324). -/
def canKvBind (q : CmdRef) (object : BitVec 16) (layerBytes layers : Nat) (s : State) : Bool :=
  (startedCmd s q [0x17] true).any fun c => let u := startedState c s
    decide (cmdLen c = 0) && decide (layerBytes ≠ 0 ∧ layerBytes % 64 = 0 ∧ layers ≠ 0) && !(kvRange u c.part).any (kvUsed u) &&
      (tabFind (objKey c.part object.toNat) u.tier.objects).any fun o => o.hint == 1 && decide ((kvRange u c.part).length * kvPageBytes { object := object.toNat, layerBytes := layerBytes, layers := layers } ≤ o.size)

/-- When KV_RELEASE has its own effect (R326). -/
def canKvRelease (q : CmdRef) (entry : Nat) (s : State) : Bool :=
  (startedCmd s q [0x18] true).any fun c => let u := startedState c s
    decide (cmdLen c = 0) && (kvRange u c.part).contains entry && ((tabFind entry u.serve.kvs).map (·.shared)).getD false

/-- When RESHARD has its own effect (R337). -/
def canReshard (q : CmdRef) (stream : BitVec 16) (group : Fin 8) (s : State) : Bool :=
  (startedCmd s q [0x26] true).any fun c => decide (cmdLen c = 0) && (reshards (startedState c s) c.part stream.toNat group).isSome

/-! ### Prefill and decode steps are composed and end, and a stream is resharded -/

/-- When PREFILL_STEP_COMPOSE has its own effect (R331). -/
def canPrefillStepCompose (k : Fin 64) (g : Fin 8) (s : State) : Bool :=
  (groupImage s k g).any fun x => x.prefill.isNone && mayCompose s k x && (composeState s k (g.val, 0)).isSome

/-- When DECODE_STEP_COMPOSE has its own effect (R331). -/
def canDecodeStepCompose (k : Fin 64) (g : Fin 8) (mb : Fin 64) (s : State) : Bool :=
  (groupImage s k g).any fun x => decide (mb.val < x.stages) && (tabFind mb.val x.decode).isNone && mayCompose s k x && (composeState s k (g.val, mb.val + 1)).isSome

/-- When SERVE_STEP_DONE has its own effect (R321). -/
def canServeStepDone (k : Fin 64) (g : Fin 8) (step : ServeStep) (rows : List LogitRow) (s : State) : Bool :=
  s.working && mayEnd s k && (groupImage s k g).any fun x => holdsCores s k (groupCores x (step != .prefill)) && match step with
    | .prefill => x.prefill.isSome
    | .decode mb => (tabFind mb.val x.decode).any fun batch => batch.all fun n => rows.any fun r => r.stream == n && (r.poisoned || !r.logits.isEmpty)

/-- When RESHARD_PAGE has its own effect (R334). -/
def canReshardPage (k : Fin 64) (stream : Fin 65536) (s : State) : Bool :=
  s.working && (s.stream stream).any fun x => x.part == k.val && x.state == 3 && !x.left.isEmpty && !pageWaits s stream (x.left.headD 0)

/-- When RESHARD_DONE has its own effect (R334). -/
def canReshardDone (k : Fin 64) (stream : Fin 65536) (s : State) : Bool :=
  s.working && (s.stream stream).any fun x => x.part == k.val && x.state == 3 && x.left.isEmpty && !x.resharded

/-! ### The signal core's arithmetic, memory and loop instructions complete -/

/-- When CMAC has its own effect (R194). -/
def canCmac (k : Fin 64) (_op : MacOp) (_acc : Fin 8) (_da _db : Fin 64) (s : State) : Bool :=
  sigcExecutes s k

/-- When TAPM has its own effect (R199). -/
def canTapm (k : Fin 64) (_lane0 : Bool) (_acc : Fin 8) (ac ax : Fin 16) (s : State) : Bool :=
  sigcExecutes s k && (tapmMoves s k ac ax).isSome

/-- When SST has its own effect (R196). -/
def canSst (k : Fin 64) (_acc : Fin 8) (_dd : Fin 64) (_form : SstForm) (s : State) : Bool :=
  sigcExecutes s k

/-- When ACLR has its own effect (R194). -/
def canAclr (k : Fin 64) (_acc : Fin 8) (s : State) : Bool :=
  sigcExecutes s k

/-- When ZLD has its own effect (R193). -/
def canZld (k : Fin 64) (_dd : Fin 64) (a : Fin 16) (post : BitVec 64) (s : State) : Bool :=
  sigcExecutes s k && lineAccess s k a post.toInt

/-- When ZST has its own effect (R193). -/
def canZst (k : Fin 64) (_ds : Fin 64) (a : Fin 16) (post : BitVec 64) (s : State) : Bool :=
  sigcExecutes s k && lineAccess s k a post.toInt

/-- When LOOP has its own effect (R202). -/
def canLoop (k : Fin 64) (level : Fin 3) (_count : LoopCount) (last : BitVec 16) (s : State) : Bool :=
  sigcExecutes s k && loopNests (s.sigc k) level last

/-- When LSAVE has its own effect (R206). -/
def canLsave (k : Fin 64) (a : Fin 16) (s : State) : Bool :=
  sigcExecutes s k && decide (kMode (getK (s.sigc k) a) ≠ 3) && decide ((getA (s.sigc k) a).toNat + 48 ≤ 2 ^ 19)

/-- When LRESTORE has its own effect (R206). -/
def canLrestore (k : Fin 64) (a : Fin 16) (s : State) : Bool :=
  sigcExecutes s k && decide (kMode (getK (s.sigc k) a) ≠ 3) && decide ((getA (s.sigc k) a - 48).toNat + 48 ≤ 2 ^ 19) &&
    (readAll .dmem s.mem.dmem (dmemKey k (getA (s.sigc k) a - 48).toNat) 48).any fun b => (imageState b (s.sigc k)).isSome

/-! ### Interrupts, alarms, doorbells and DMA of a signal core: each has its effect -/

/-- When RETI has its own effect (R206). -/
def canReti (k : Fin 64) (s : State) : Bool :=
  sigcExecutes s k

/-- When EI has its own effect (R207). -/
def canEi (k : Fin 64) (s : State) : Bool :=
  sigcExecutes s k

/-- When DI has its own effect (R207). -/
def canDi (k : Fin 64) (s : State) : Bool :=
  sigcExecutes s k

/-- When ALARM has its own effect (R209). -/
def canAlarm (k : Fin 64) (_n : Fin 2) (_a : Fin 16) (s : State) : Bool :=
  sigcExecutes s k

/-- When ALARM_FIRE has its own effect (R203). -/
def canAlarmFire (k : Fin 64) (n : Fin 2) (s : State) : Bool :=
  s.working && (tabFind n.val (s.sigc k).alarms).any fun v => decide (s.now % 2 ^ 64 ≥ v.toNat)

/-- When DOORBELL_RING has its own effect (R211). -/
def canDoorbellRing (who : Requester) (k : Fin 64) (_value : BitVec 32) (s : State) : Bool :=
  writeTaken s who (sigcPage k) 0x64

/-- When INTERRUPT_TAKEN has its own effect (R205). -/
def canInterruptTaken (k : Fin 64) (s : State) : Bool :=
  sigcBoundary s k && (s.sigc k).ie && !(s.sigc k).loopHold && (nextEvent s k).isSome

/-- When SIGC_ENABLE has its own effect (R190). -/
def canSigcEnable (who : Requester) (k : Fin 64) (_on : Bool) (s : State) : Bool :=
  writeTaken s who (sigcPage k) 0x10

/-- When SIGC_DMA_START has its own effect (R192). -/
def canSigcDmaStart (k : Fin 64) (ch : Fin 2) (addr : BitVec 19) (s : State) : Bool :=
  dmaRuns s k && !s.frozen (sigcPage k) && (dmaOf s k ch).queue.isEmpty && decide (addr.toNat % 64 = 0) &&
    (readAll .dmem s.mem.dmem (dmemKey k addr.toNat) 64).any fun b => (leastOf (streamFieldErrs (BitVec.ofNat 512 (leNat b)) dmaSizes (2 ^ 19))).isNone

/-- When SIGC_DMA_LINE has its own effect (R192). -/
def canSigcDmaLine (k : Fin 64) (ch : Fin 2) (s : State) : Bool :=
  (dmaDue s k ch).any fun r => dmaMeets s k r.2.2 r.2.1 (ringBase r.1) r.1.moved == .moves && (dmaOffset s k r.2.1 r.1.moved).isSome

/-- When SIGC_DMA_DONE has its own effect (R203). -/
def canSigcDmaDone (k : Fin 64) (ch : Fin 2) (s : State) : Bool :=
  (runningDma s k ch).any fun r => decide (r.1.moved = dmaCount r.2.1)

/-- When SIGC_DMA_HALT has its own effect (R192). -/
def canSigcDmaHalt (k : Fin 64) (ch : Fin 2) (s : State) : Bool :=
  (runningDma s k ch).any fun r => match r.2.2 with
    | none => true
    | some part => decide (r.1.moved < dmaCount r.2.1) && ringAllows r.2.1 r.1 && match dmaMeets s k part r.2.1 (ringBase r.1) r.1.moved with
      | .halts _ _ => true
      | _ => false

/-! ### The semaphore instructions take, try, return and set, and a waiter is granted -/

/-- When SEMACQ has its own effect (R164). -/
def canSemacq (a : Agent) (w : SyncWord) (s : State) : Bool :=
  agentRuns s a (· == syncWord 0x30 w) && syncLegal a w [w.gd, w.gs, w.gt] && semOffers (fetchAgent a s) a w.gs

/-- When SEMTRY has its own effect (R164). -/
def canSemtry (a : Agent) (w : SyncWord) (s : State) : Bool :=
  agentRuns s a (· == syncWord 0x32 w) && syncLegal a w [w.gd, w.gs] && semOffers (fetchAgent a s) a w.gs

/-- When SEMREL has its own effect (R164). -/
def canSemrel (a : Agent) (gd gs : Fin 32) (count : BitVec 8) (rsvd : BitVec 8) (s : State) : Bool :=
  agentRuns s a (· == semrelWord gd gs count rsvd) && rsvd == 0 && !lacks a [gd, gs] && semReturns (fetchAgent a s) a gs

/-- When SEMSET has its own effect (R164). -/
def canSemset (a : Agent) (w : SyncWord) (s : State) : Bool :=
  agentRuns s a (· == syncWord 0x36 w) && syncLegal a w [w.gd, w.gs, w.gt] && semSettable (fetchAgent a s) a w.gs (agentReg s a w.gt)

/-- When SEMAPHORE_GRANT has its own effect (R164). -/
def canSemaphoreGrant (sem : Fin 65536) (arb : Bool) (s : State) : Bool :=
  (semFront s sem arb).isSome || semFeeds s sem

/-! ### WAIT, FENCE and SREL complete, at once or when what they wait for comes -/

/-- When WAIT has its own effect (R169). -/
def canWait (a : Agent) (w : SyncWord) (s : State) : Bool :=
  agentRuns s a (· == syncWord 0x33 w) && syncLegal a w [w.gd, w.gs, w.gt] && !selectorIllegal a (agentReg s a w.gs) && eventArrived (fetchAgent a s) a (agentReg s a w.gs)

/-- When WAIT_EVENT_ARRIVAL has its own effect (R172). -/
def canWaitEventArrival (a : Agent) (s : State) : Bool :=
  (waitDue s a).isSome

/-- When WAIT_DEADLINE has its own effect (R172). -/
def canWaitDeadline (a : Agent) (s : State) : Bool :=
  (deadlineDue s a).isSome

/-- When FENCE has its own effect (R171). -/
def canFence (a : Agent) (gd : Fin 32) (scope : Fin 8) (gt : Fin 32) (cp : Fin 1024) (rsvd : BitVec 3) (s : State) : Bool :=
  agentRuns s a (· == fenceWord gd scope gt cp rsvd) && rsvd == 0 && decide (scope.val ≤ 3) && !lacks a [gd, gt] && !(isSigc a && decide (cp ≠ 0)) &&
    fenceHolds (fenceSealed a scope (fetchAgent a s)) a scope

/-- When FENCE_COMPLETE has its own effect (R463). -/
def canFenceComplete (a : Agent) (s : State) : Bool :=
  (fenceDue s a).isSome

/-- When SREL has its own effect (R157). -/
def canSrel (a : Agent) (w : SyncWord) (s : State) : Bool :=
  agentRuns s a (· == syncWord 0x35 w) && !w.rsvd && w.cp == 0 && !lacks a [w.gd, w.gs, w.gt] && decide ((agentReg s a w.gs).toNat < slotLimit a)

/-- When DONATION_START has its own effect (R370). -/
def canDonationStart (c : Fin 160) (s : State) : Bool :=
  (donationDue s c).isSome

/-! ### The servo, the pins and the registers of device time: each command has its effect -/

/-- When SERVO_SAMPLE has its own effect (R492). -/
def canServoSample (_t1 _t2 : BitVec 96) (_exchange : Option (BitVec 96 × BitVec 96)) (_across : Bool) (s : State) : Bool :=
  s.alive && !s.frozen timePage && s.reg timePage Rg.timeSourceControlPhaseSource == 1

/-- When OFFSET_IN_WRITE has its own effect (R493). -/
def canOffsetInWrite (who : Requester) (_value : BitVec 64) (s : State) : Bool :=
  writeTaken s who timePage 0x068

/-- When STEP_FORCE_WRITE has its own effect (R493). -/
def canStepForceWrite (who : Requester) (_value : BitVec 64) (s : State) : Bool :=
  writeTaken s who timePage 0x070

/-- When HOLDOVER_ENTRY has its own effect (R494). -/
def canHoldoverEntry (s : State) : Bool :=
  s.alive && (s.reg timePage Rg.timeServoStatusState == 1 || s.reg timePage Rg.timeServoStatusState == 2) && decide (s.now ≥ s.time.acceptedAt + 1000000 * s.reg timePage Rg.timeHoldTimeMillis)

/-- When FREQ_SOURCE_LOSS has its own effect (R494). -/
def canFreqSourceLoss (_average : Int) (s : State) : Bool :=
  s.alive && s.flag timePage Rg.timeServoStatusFreqValid

/-- When FREQ_SOURCE_VALID has its own effect (R494). -/
def canFreqSourceValid (_y : Int) (s : State) : Bool :=
  s.alive && (s.reg timePage Rg.timeSourceControlFreqSource == 1 || s.reg timePage Rg.timeSourceControlFreqSource == 2)

/-- When PPS_IN_EDGE has its own effect (R619). -/
def canPpsInEdge (lowNs highNs : Nat) (_edge : BitVec 96) (s : State) : Bool :=
  s.alive && decide (lowNs ≥ 100) && decide (highNs ≥ 100)

/-- When PPS_OUT_EDGE has its own effect (R491). -/
def canPpsOutEdge (s : State) : Bool :=
  s.alive && s.flag timePage Rg.timePpsOutEnable && (match s.time.ppsOut with
    | some m => decide (((s.now : Int) - s.sreg timePage Rg.timePpsOutOffsetNano) / 1000000000 > m)
    | none => true)

/-- When TIME_NOW_READ has its own effect (R497). -/
def canTimeNowRead (who : Requester) (s : State) : Bool :=
  pathUp s who && canSee s who timePage && !s.flag timePage Rg.pageControlSoftReset

/-- When TIME_LOAD has its own effect (R596). -/
def canTimeLoad (who : Requester) (_seconds : BitVec 48) (s : State) : Bool :=
  writeTaken s who rsetPage 0x050

/-! ### Twinned devices exchange pulses, mirror, take over and drain -/

/-- When TWIN_PULSE_TX has its own effect (R538). -/
def canTwinPulseTx (s : State) : Bool :=
  twinOn s && (if twinLeads s then pastNs s s.twin.pulsedAt 10000 else (match s.twin.pulseDue with
      | some t => decide (s.now ≥ t)
      | none => false) || (pastNs s s.twin.pulsedAt 10000 && pastNs s s.twin.heardAt 30000))

/-- When TWIN_PULSE_RX has its own effect (R538). -/
def canTwinPulseRx (s : State) : Bool :=
  twinOn s

/-- When TWIN_PIN_FAULT has its own effect (R538). -/
def canTwinPinFault (s : State) : Bool :=
  twinOn s

/-- When TWIN_FAIL_TIMEOUT has its own effect (R541). -/
def canTwinFailTimeout (s : State) : Bool :=
  twinWatched s && !twLocked s && pastNs s s.twin.heardAt 30000

/-- When TWIN_FAIL_MSG has its own effect (R541). -/
def canTwinFailMsg (s : State) : Bool :=
  twinWatched s

/-- When TWIN_TAKEOVER has its own effect (R542). -/
def canTwinTakeover (s : State) : Bool :=
  twinOn s && s.flag raspPage Rg.raspTwinControlTakeover

/-- When MIRROR_BATCH has its own effect (R539). -/
def canMirrorBatch (k : Fin 64) (_writes : List (BitVec 64 × List Byte)) (s : State) : Bool :=
  twinOn s && s.serves raspPage && s.partOn k

/-- When DRAIN_WRITE has its own effect (R545). -/
def canDrainWrite (who : Requester) (_value : BitVec 32) (s : State) : Bool :=
  writeTaken s who raspPage 0x0B0

/-- When DRAIN_HANDOVER has its own effect (R545). -/
def canDrainHandover (k : Fin 64) (cell : Fin 384) (s : State) : Bool :=
  twinOn s && (tabFind cell.val (s.radioOf k).cells).any fun y => y.standby || (s.twin.handovers.find? fun h => h.part == k.val && h.cell == cell.val).any fun h => decide (s.now ≥ h.due)

/-! ### The vector instructions complete with the lanes of their rules -/

/-- When VLD has its own effect (R152). -/
def canVld (c : Fin 160) (vd : Fin 32) (ga gb : Fin 32) (lane : Lane) (rsvd : BitVec 8) (s : State) : Bool :=
  coreRuns s c (· == vWord 0x1C vd ga gb lane rsvd) && (vAddrTrap (s.core c) ga gb lane rsvd).isNone && (!laneRaw lane || (readAll .spad s.mem.spad (spadKey c (getG (s.core c) ga).toNat) 256).isSome)

/-- When VST has its own effect (R152). -/
def canVst (c : Fin 160) (vs : Fin 32) (ga gb : Fin 32) (lane : Lane) (rsvd : BitVec 8) (s : State) : Bool :=
  coreRuns s c (· == vWord 0x1D vs ga gb lane rsvd) && (vAddrTrap (s.core c) ga gb lane rsvd).isNone

/-- When VECTOR_ELEMENTWISE has its own effect (R149). -/
def canVectorElementwise (op : VecElem) (regs : VecRegs) (s : State) : Bool :=
  match regs with
  | .core c vd va vb lane => coreRuns s c (vecSpelled 0x24 vd va (if op = .abs ∨ op = .neg then none else some vb) (some lane))
  | .sigc k _ _ _ => sigcExecutes s k

/-- When VECTOR_SHIFT_COMPARE has its own effect (R150). -/
def canVectorShiftCompare (_op : VecShiftCmp) (regs : VecRegs) (s : State) : Bool :=
  match regs with
  | .core c vd va vb lane => coreRuns s c (vecSpelled 0x25 vd va (some vb) (some lane))
  | .sigc k _ _ _ => sigcExecutes s k

/-- When VECTOR_REDUCE has its own effect (R151). -/
def canVectorReduce (_op : VecRed) (regs : RedRegs) (s : State) : Bool :=
  match regs with
  | .core c dest va lane => coreRuns s c (vecSpelled 0x26 (redReg dest) va none (some lane))
  | .sigc k _ _ => sigcExecutes s k

/-- When VECTOR_REQUANTIZE has its own effect (R149). -/
def canVectorRequantize (c : Fin 160) (op : VecConv) (vd va vb : Fin 32) (lane : Lane) (_target : Lane) (s : State) : Bool :=
  coreRuns s c (vecSpelled 0x27 vd va (if op = .requantize then some vb else none) (some lane))

/-- When VPOLY has its own effect (R153). -/
def canVpoly (c : Fin 160) (vd va : Fin 32) (gb : Fin 32) (s : State) : Bool :=
  coreRuns s c (vecSpelled 0x28 vd va (some gb) none) && decide ((getG (s.core c) gb).toNat + 16 ≤ 2 ^ 22) && (s.spadRead c (getG (s.core c) gb).toNat 16).any fun b =>
    decide ((getG (s.core c) gb).toNat + 16 + 4 * polyCount b ≤ 2 ^ 22) && (readPoly s c (getG (s.core c) gb).toNat b).any polyOk

/-- When VECTOR_PERMUTE has its own effect (R150). -/
def canVectorPermute (op : VecPerm) (regs : VecRegs) (s : State) : Bool :=
  match regs with
  | .core c vd va vb lane => coreRuns s c (vecSpelled 0x29 vd va (if op = .permute ∨ op = .interleave then some vb else none) (some lane))
  | .sigc k _ _ _ => sigcExecutes s k

/-- When VECTOR_MOVE has its own effect (R150). -/
def canVectorMove (c : Fin 160) (op : VecMove) (lane : Lane) (s : State) : Bool :=
  coreRuns s c (moveSpelled op lane)

end Sys2Proof.Machine
end

