-- ==== Sys2Proof/Certificates/Slice0/Obligations.lean ====
section
/-! DEFINITION. The statements for the provers. -/

section

open Sys2Proof Sys2Proof.Machine

/-- A step runs the command at the front of the queue. For every command c and every state whose queue begins with c, a step is exec of c on the
state with the rest of the queue. The queue of commands is the model's form of what happens one after another (log entry 1). (R26, R41) -/
def Obligations.FrontCommandRuns : Prop :=
  ∀ (c : Instr) (q : List Instr) (s : State), s.pending = c :: q → step s = exec c { s with pending := q }

/-- With no command waiting, the clock ticks: device time grows by 0.8 ns corrected by the servo, a waiting step or load is taken, and a stall
is counted once. A step on an empty queue is one tick of the 1.25 GHz clock with the stall counters of R270 (that the tick stands there is
the model's choice, log entries 2 and 120). Where the block is not alive nothing happens. Else, with no TIME_LOAD waiting, device time in
units of 2^-48 / 5 ns grows by 4 * 2^48 (0.8 ns) plus four times the frequency adjustment y plus the waiting phase step in 2^-16 ns, modulo
2^48 seconds, and the step is used up; with a TIME_LOAD waiting, the seconds are the loaded ones and the rest 0. Nothing but device time,
the progress of the sluice fills, the used free values and the registers changes, and of the registers only TIME.STEPS and the STALL_TIME
counters of stalled partitions; where the whole nanoseconds grow and one partition stalls with a fill in progress, exactly one of its five
counters counts. (R32, R33, R36, R270, R492, R493, R596) -/
def Obligations.TickAdvancesDeviceTime : Prop :=
  ∀ s : State, s.pending = [] →
  step s = .next (idleTick s) ∧
  (s.alive = false → idleTick s = s) ∧
  (s.alive = true → s.time.loadSec = none →
    (timeUnits (idleTick s) : Int) = ((timeUnits s : Int) + (4 * 2 ^ 48 + 4 * freqY s) + s.time.step * (5 * 2 ^ 32)) % ((2 ^ 48 * unitsPerSec : Nat) : Int) ∧
    (idleTick s).time.step = 0 ∧ (idleTick s).time.sub < unitsPerSec) ∧
  (∀ v, s.alive = true → s.time.loadSec = some v →
    (idleTick s).time.sec = v ∧ (idleTick s).time.sub = 0 ∧ (idleTick s).time.loadSec = none ∧ (idleTick s).time.step = 0) ∧
  idleTick s = { s with time := (idleTick s).time, regs := (idleTick s).regs, tier := (idleTick s).tier, freeIx := (idleTick s).freeIx } ∧
  (∀ p f i, fieldBit p f i ≠ fieldBit timePage Rg.timeStepsCount 0 →
    (∀ k j, stalled (tick s) k = true → fieldBit p f i ≠ fieldBit (partPage k) Rg.partStallTimeTime j) → (idleTick s).reg p f i = s.reg p f i) ∧
  ((tick s).now = s.now → idleTick s = tick s) ∧
  (∀ k e r h src len, (tick s).now ≠ s.now → (tick s).working = true →
    ((tick s).tier.sluices.map fun e => e.2.part).eraseDups.filter (stalled (tick s)) = [k] → firstFill (tick s) k = some (e, r) →
    sluiceEntry (tick s) k r.list r.entry = some (h, src, len) → ∃ j, j < 5 ∧
      (idleTick s).reg (partPage k) Rg.partStallTimeTime j = (s.reg (partPage k) Rg.partStallTimeTime j + 1) % 2 ^ 64 ∧
      ∀ i, i < 5 → i ≠ j → (idleTick s).reg (partPage k) Rg.partStallTimeTime i = s.reg (partPage k) Rg.partStallTimeTime i) ∧
  (s.time.forced = false → (tick s).regs = s.regs) ∧
  (s.alive = true → s.time.forced = true →
    (tick s).regs = (s.bump timePage Rg.timeStepsCount).regs)

/-- After reset every register field holds its table's reset value, but for the four that the accepted reset itself sets. Every field of every
page reads its reset value after State.reset, but for RESET_COUNT and RESET_CAUSE (power-on, VBAT_FRESH) of RSET and ZEROIZE_STATUS.PENDING
of MGMT, which hold 1; and the reset values of some fields are the ones printed in the tables. The queue is empty, and nothing has been
sent. (That reset stands right after the first accepted reset, the VBAT domain having started empty, is the model's choice, log entry 3.)
(R16, R43, R46, R441, R579, R588, R595) -/
def Obligations.RegistersAtReset : Prop :=
  (∀ (p : Page) (f : RegField) (i : Nat),
    fieldBit p f i ≠ fieldBit rsetPage Rg.rsetResetCountCount 0 → fieldBit p f i ≠ fieldBit rsetPage Rg.rsetResetCauseCause 0 →
    fieldBit p f i ≠ fieldBit rsetPage Rg.rsetResetCauseVbatFresh 0 → fieldBit p f i ≠ fieldBit mgmtPage Rg.mgmtZeroizeStatusPending 0 →
    State.reset.reg p f i = resetAt p f i) ∧
  State.reset.reg rsetPage Rg.rsetResetCountCount = 1 ∧ State.reset.reg rsetPage Rg.rsetResetCauseCause = 1 ∧
  State.reset.reg rsetPage Rg.rsetResetCauseVbatFresh = 1 ∧ State.reset.reg mgmtPage Rg.mgmtZeroizeStatusPending = 1 ∧
  (∀ c : Fin 160, State.reset.reg (corePage c) Rg.pagePageIdMnemonic = 0x434F5245 ∧ State.reset.reg (corePage c) Rg.pagePageVersionInstance = c.val ∧
    State.reset.reg (corePage c) Rg.pageControlEnable = 0 ∧ State.reset.reg (corePage c) Rg.coreWaveRateMinRate = 0xFFFF) ∧
  State.reset.reg timePage Rg.pageControlEnable = 1 ∧ State.reset.reg globPage Rg.pagePageIdMnemonic = 0x474C4F42 ∧
  (∀ p : Fin 9, [0, 1, 2, 3, 4, 5, 6, 7].map (State.reset.reg (aqzlPage p) Rg.aqzlVcBufferFlits ·) = [64, 256, 256, 384, 384, 256, 384, 64]) ∧
  State.reset.pending = [] ∧ State.reset.out = []

/-- The invariant holds right after reset. The invariant (the register file and the memories in their one form, device time a moment of 48-bit
seconds) holds in State.reset. (R16, R32, R593) -/
def Obligations.ResetMeetsInvariant : Prop :=
  Invariant State.reset

/-- Every step keeps the invariant. From every state that meets the invariant, reached or not, a step, be it any command or a tick, leads to a
state that meets it: the register file and all eight memories keep their canonical forms, so that equal contents are equal data, and device
time stays a whole number of units within 2^48 seconds. (R32, R33, R493, R593, R596) -/
def Obligations.EveryStepKeepsInvariant : Prop :=
  ∀ s t : State, Invariant s → step s = .next t → Invariant t

/-- Every command is taken: none stops the machine, none unsends what was sent, none returns a free value. For every command and every state
there is a next state: no command faults or is refused. In it the queue is as it was, what the block had sent out before is a prefix of what
it has sent, and the count of used free values has not fallen. (R4, R26, R41) -/
def Obligations.EveryCommandAnswersAState : Prop :=
  ∀ (c : Instr) (s : State), ∃ t, exec c s = .next t ∧ t.pending = s.pending ∧ s.out <+: t.out ∧ s.freeIx ≤ t.freeIx

/-- Frame of every command: each part of the state that touched does not name for it is unchanged. For every command c and every part p of the
state (registers, latches, each kind of core, memory, queues, tiers, fabric, Ethernet, time, security and so on) that touched c does not
list, exec of c leaves p exactly as it was. touched names for each of the 350 commands the parts that its effect may reach. (R40, R46, R159,
R182, R513, R577) -/
def Obligations.CommandsTouchOnlyTheirParts : Prop :=
  ∀ (c : Instr) (s t : State), exec c s = .next t → ∀ p : StatePart, p ∉ touched c → samePart p s t

/-- A 32-bit write takes every field of the register by its access code and leaves every other field of every page. A taken 32-bit write of a
register that has no command of its own and is not held answers a next state in which every field of the page that stands in the register
has its new value by its access code (RW stores, W1S sets, W1C clears, RO, WO and RC ignore), every field of the page elsewhere and every
field of every other page is unchanged, and nothing but the register file is changed. A write at an offset that no page occupies changes
nothing. (R13, R15, R39, R42) -/
def Obligations.RegisterWritesFollowAccessCodes : Prop :=
  (∀ (who : Requester) (off : Nat) (value : BitVec 64) (s : State) (p : Page), pageAt off = some p → off % 4 = 0 →
    writeTaken s who p (off % 0x1000) = true → plainRegister s p (off % 0x1000) (value.toNat % 2 ^ 32) = true →
    ∃ t, exec (.registerWrite who 4 off value) s = .next t ∧ t = { s with regs := t.regs } ∧
      (∀ f, f ∈ fieldsOf p.kind → ∀ i, i < f.count → t.reg p f i =
        if fieldIndexAt f (off % 0x1000) = some i then writtenValue f (off % 0x1000) i (s.reg p f i) (value.toNat % 2 ^ 32) else s.reg p f i) ∧
      (∀ q f i, pageOk q = true → q ≠ p → inPage f i = true → t.reg q f i = s.reg q f i)) ∧
  (∀ (who : Requester) (off : Nat) (value : BitVec 64) (s : State), pageAt off = none → off % 4 = 0 → pathUp s who = true →
    exec (.registerWrite who 4 off value) s = .next s)

/-- A page that a function may not see takes no write, reads 0, and the access is counted in HOST.ERROR_COUNT. The physical function sees every
page; a virtual function sees only the PART pages of the partitions that map to it and the CORE and SIGC pages that those own (a lent core's
page by the borrower). Every command that is a write to a page hidden from its function changes nothing but HOST's error record and its
interrupt: HOST.ERROR_COUNT counts one more, and nothing is answered to the function. A read of a hidden page is counted in the same way and
returns zeros. (R40) -/
def Obligations.HiddenPagesTakeNothing : Prop :=
  (∀ (s : State) (p : Page), canSee s (.function 0) p = true) ∧
  (∀ (s : State) (fn : Fin 256) (p : Page), fn ≠ 0 → (canSee s (.function fn) p = true ↔
    (p.kind = .part ∧ functionOf s p.inst = fn.val) ∨
    (p.kind = .core ∧ ((∃ k, (s.core p.inst).lentTo = some k ∧ functionOf s k = fn.val) ∨
      ((s.core p.inst).lentTo = none ∧ ∃ k, ownerOfCore s p.inst = some k ∧ functionOf s k = fn.val))) ∨
    (p.kind = .sigc ∧ ∃ k, ownerOfSigc s p.inst = some k ∧ functionOf s k = fn.val))) ∧
  (∀ (c : Instr) (fn : Fin 256) (p : Page) (off : Nat) (s : State), target c = some (.function fn, p, off) → pageOk p = true →
    pathUp s (.function fn) = true → canSee s (.function fn) p = false →
    ∃ t, exec c s = .next t ∧ t = s.error hostPage 0x0124 fn.val (pageBase p + off) ∧
      t.reg hostPage Rg.pageErrorCountCount = min (s.reg hostPage Rg.pageErrorCountCount + 1) (2 ^ 32 - 1)) ∧
  (∀ (fn : Fin 256) (p : Page) (off : Nat) (event : Option (BitVec 32)) (s : State), pageAt off = some p → off % 4 = 0 →
    pathUp s (.function fn) = true → canSee s (.function fn) p = false →
    ∃ t, exec (.registerReadClear (.function fn) 4 off event) s = .next (t.emit (.readData (some [0, 0, 0, 0]))) ∧
      t = s.error hostPage 0x0124 fn.val off ∧
      t.reg hostPage Rg.pageErrorCountCount = min (s.reg hostPage Rg.pageErrorCountCount + 1) (2 ^ 32 - 1))

/-- On a PART page that it sees, a virtual function writes only the scheduling, serving and heat registers; other writes are ignored and
counted. Every command that is a write of a virtual function to a PART page that it sees, at an offset outside 0x100 to 0x13F, 0x240 to
0x27F and 0x200, changes nothing but the count and interrupt of HOST.ERROR_COUNT. At those offsets, and for the physical function and the
controller at every offset, the write of a page that is not in SOFT_RESET is taken, but where R413 keeps the physical function from a locked
TDI's page. (R356) -/
def Obligations.PartPagesTakeOnlyTheirFunctionsRegisters : Prop :=
  (∀ (c : Instr) (fn : Fin 256) (p : Page) (off : Nat) (s : State), target c = some (.function fn, p, off) → pageOk p = true → fn ≠ 0 →
    p.kind = .part → pathUp s (.function fn) = true → canSee s (.function fn) p = true →
    ¬((0x100 ≤ off ∧ off < 0x140) ∨ (0x240 ≤ off ∧ off < 0x280) ∨ off = 0x200) →
    ∃ t, exec c s = .next t ∧ t = s.countErrors hostPage 1 ∧
      t.reg hostPage Rg.pageErrorCountCount = min (s.reg hostPage Rg.pageErrorCountCount + 1) (2 ^ 32 - 1)) ∧
  (∀ (fn : Fin 256) (p : Page) (off : Nat) (value : BitVec 64) (s : State), pageAt off = some p → off % 4 = 0 → p.kind = .part → fn ≠ 0 →
    pathUp s (.function fn) = true → canSee s (.function fn) p = true → s.flag p Rg.pageControlSoftReset = false →
    ((0x100 ≤ off % 0x1000 ∧ off % 0x1000 < 0x140) ∨ (0x240 ≤ off % 0x1000 ∧ off % 0x1000 < 0x280) ∨ off % 0x1000 = 0x200) →
    exec (.registerWrite (.function fn) 4 off value) s = .next (writePage p (off % 0x1000) (value.toNat % 2 ^ 32) s)) ∧
  (∀ (who : Requester) (p : Page) (off : Nat) (value : BitVec 64) (s : State), pageAt off = some p → off % 4 = 0 → p.kind = .part →
    (who = .controller ∨ who = .function 0) → pathUp s who = true → s.flag p Rg.pageControlSoftReset = false → lockedWrite s who p = false →
    exec (.registerWrite who 4 off value) s = .next (writePage p (off % 0x1000) (value.toNat % 2 ^ 32) s))

/-- An error is counted and sets ERROR, and ERROR_FIRST keeps the first one until VALID is cleared. Recording an error on a page adds 1 to
ERROR_COUNT, which saturates, and sets bit 0 of INT_STATUS but on CORE and SIGC pages. Where VALID is 0 the record takes the code, the unit,
the detail and the nanoseconds of device time; where it is 1 the record stays. Every other field of every page is unchanged, and nothing but
the registers, the messages sent and the pending vectors changes. A narrow REGISTER_WRITE records 0x0123 in this way and has no other
effect; a taken write of 1 to VALID empties the record. (R39, R51, R53, R54) -/
def Obligations.ErrorsAreCountedAndTheFirstKept : Prop :=
  (∀ (s : State) (p : Page) (code unit detail : Nat), ∃ t, t = s.error p code unit detail ∧
    t = { s with regs := t.regs, out := t.out, host := { s.host with vectorPending := t.host.vectorPending } } ∧
    t.reg p Rg.pageErrorCountCount = min (s.reg p Rg.pageErrorCountCount + 1) (2 ^ 32 - 1) ∧
    (p.kind ≠ .core → p.kind ≠ .sigc → (t.reg p Rg.pageIntStatus).testBit 0 = true) ∧
    (s.reg p Rg.pageErrorFirst0Valid = 0 → t.reg p Rg.pageErrorFirst0Valid = 1 ∧ t.reg p Rg.pageErrorFirst0Code = code % 2 ^ 16 ∧
      t.reg p Rg.pageErrorFirst0Unit = unit % 2 ^ 15 ∧ t.reg p Rg.pageErrorFirst1Detail = detail % 2 ^ 32 ∧
      t.reg p Rg.pageErrorFirst2When = s.subNs % 2 ^ 32) ∧
    (s.reg p Rg.pageErrorFirst0Valid ≠ 0 → t.reg p Rg.pageErrorFirst0Valid = s.reg p Rg.pageErrorFirst0Valid ∧
      t.reg p Rg.pageErrorFirst0Code = s.reg p Rg.pageErrorFirst0Code ∧ t.reg p Rg.pageErrorFirst0Unit = s.reg p Rg.pageErrorFirst0Unit ∧
      t.reg p Rg.pageErrorFirst1Detail = s.reg p Rg.pageErrorFirst1Detail ∧ t.reg p Rg.pageErrorFirst2When = s.reg p Rg.pageErrorFirst2When) ∧
    (∀ q f i, fieldBit q f i < (pageBase p + 0x020) * 8 ∨ (pageBase p + 0x040) * 8 ≤ fieldBit q f i → t.reg q f i = s.reg q f i)) ∧
  (∀ (who : Requester) (bytes off : Nat) (value : BitVec 64) (s : State), bytes < 4 → pathUp s who = true →
    exec (.registerWrite who bytes off value) s = .next (s.error hostPage 0x0123 (Requester.fnNat who) off)) ∧
  (∀ (who : Requester) (p : Page) (off : Nat) (value : BitVec 64) (s : State), pageAt off = some p → off % 0x1000 = 0x034 →
    writeTaken s who p 0x034 = true → value.getLsbD 31 = true → s.flag p Rg.pageErrorFirst0Valid = true →
    ∃ t, exec (.registerWrite who 4 off value) s = .next t ∧ t.reg p Rg.pageErrorFirst0Code = 0 ∧ t.reg p Rg.pageErrorFirst0Unit = 0 ∧
      t.reg p Rg.pageErrorFirst1Detail = 0 ∧ t.reg p Rg.pageErrorFirst2When = 0 ∧
      t.reg p Rg.pageErrorCountCount = s.reg p Rg.pageErrorCountCount)

/-- An interrupt sends its routed vector's message once when its condition becomes true; a masked vector holds one message until it is unmasked.
INT_FORCE_WRITE makes the bits stand in INT_STATUS. Where the condition of R52 becomes true by it, the routed vector's message is sent where
the vector is unmasked and the link up, and its pending bit is set where it is masked; where it was true already or stays false, nothing is
sent and no pending bit changes. A second event on a vector whose bit is set changes no pending bit, and no other vector's bit is touched.
Unmasking a pending vector sends its one message and clears its bit. (R410) -/
def Obligations.MaskedVectorsHoldOneMessage : Prop :=
  (∀ (who : Requester) (p : Page) (v : BitVec 32) (s : State), pageOk p = true → writeTaken s who p 0x028 = true →
    ∃ t, exec (.intForceWrite who p v) s = .next t ∧ t.reg p Rg.pageIntStatus = (s.reg p Rg.pageIntStatus ||| v.toNat) % 2 ^ 32 ∧
    (intCondition s.regs p = true ∨ intCondition t.regs p = false → t.out = s.out ∧ t.host = s.host) ∧
    (intCondition s.regs p = false → intCondition t.regs p = true →
      (vectorMasked s (msixKey (routeOf s p).1 (routeOf s p).2) = false → s.host.linkUp = true →
        t.out = s.out ++ [.msix (routeOf s p).1 (routeOf s p).2] ++ leadMessage s ∧ t.host = s.host) ∧
      (vectorMasked s (msixKey (routeOf s p).1 (routeOf s p).2) = true →
        t.out = s.out ++ leadMessage s ∧ t.host.vectorPending.contains (msixKey (routeOf s p).1 (routeOf s p).2) = true ∧
        (s.host.vectorPending.contains (msixKey (routeOf s p).1 (routeOf s p).2) = true → t.host.vectorPending = s.host.vectorPending) ∧
        (∀ key, key ≠ msixKey (routeOf s p).1 (routeOf s p).2 → t.host.vectorPending.contains key = s.host.vectorPending.contains key)))) ∧
  (∀ (fn : Fin 256) (vector : Fin 4096) (before after : List Nat) (s : State), s.alive = true → s.host.linkUp = true →
    s.host.vectorPending = before ++ msixKey fn.val vector.val :: after →
    (∀ key, key ∈ before ++ after → key ≠ msixKey fn.val vector.val ∧ vectorMasked s key = true) →
    ∃ t, exec (.msixVectorUnmask fn vector) s = .next t ∧ t.out = s.out ++ [.msix fn.val vector.val] ∧ t.host.vectorPending = before ++ after ∧
      vectorMasked t (msixKey fn.val vector.val) = false)

/-- A scalar, branch, LD or ST instruction that is illegal, divides by zero, or addresses wrongly traps precisely with its cause and has no
effect. On a compute core whose word at the program counter spells the instruction, an illegal scalar or branch word traps with ILLEGAL and
the word, a division by zero with DIV_ZERO, an indirect jump to an address that is not a multiple of 4 and a misaligned LD or ST with
MISALIGNED and the address, and an LD or ST beyond the scratchpad with SPAD_RANGE and the address: TRAP_CAUSE, TRAP_PC and TRAP_DETAIL are
recorded, the core's general registers and its place are as before, no other core changes, and no byte of the scratchpads changes. On a
signal core a raw LD or ST of one byte, or whose modification kN does not allow, traps with ILLEGAL, and a misaligned one or one beyond the
data memory with its address; no signal core and no byte of the data memories changes. (Which words spell an instruction is the model's
reading, log entry 116; the access of a signal core, log entry 119.) (R133, R135, R159, R182, R184, R198, R210) -/
def Obligations.ScalarFailuresTrap : Prop :=
  (∀ (c : Fin 160) (s : State), coreExecutes s c = true →
  let Fails : Instr → Nat → Nat → Prop := fun i cause detail => Runs i s fun t =>
    Trapped (.core c) cause detail s t ∧ (t.core c).gpr = (s.core c).gpr ∧ (t.core c).pc = (s.core c).pc ∧ OthersSame (.core c) s t ∧ t.mem.spad = s.mem.spad
  (∀ w : BitVec 32, wordAt s c = w.toNat → mayBeReserved w.toNat = true → Fails (.scalarInstruction c (.illegal w)) 0x02 w.toNat) ∧
  (∀ w : BitVec 32, wordAt s c = w.toNat → inGroupOf 0x10 0x17 w.toNat = true → Fails (.branchInstruction c (.illegal w)) 0x02 w.toNat) ∧
  (inGroupOf 0x00 0x0F (wordAt s c) = true →
    ∀ o rd ra b, divByZero o (scalarSrc (s.core c) b) = true → Fails (.scalarInstruction c (.op o rd ra b)) 0x06 0) ∧
  (inGroupOf 0x10 0x17 (wordAt s c) = true →
    ∀ ra, (getG (s.core c) ra).toNat % 4 ≠ 0 → Fails (.branchInstruction c (.indirect ra)) 0x03 (getG (s.core c) ra).toNat) ∧
  (inGroupOf 0x18 0x1B (wordAt s c) = true →
    (∀ width signed rd ra offset, (getG (s.core c) ra + offset).toNat % widthBytes width ≠ 0 →
      Fails (.ld (.core c ra offset) width signed rd) 0x03 (getG (s.core c) ra + offset).toNat) ∧
    (∀ width signed rd ra offset, (getG (s.core c) ra + offset).toNat % widthBytes width = 0 → (getG (s.core c) ra + offset).toNat ≥ 2 ^ 22 →
      Fails (.ld (.core c ra offset) width signed rd) 0x04 (getG (s.core c) ra + offset).toNat) ∧
    (∀ width rs ra offset, (getG (s.core c) ra + offset).toNat % widthBytes width ≠ 0 →
      Fails (.st (.core c ra offset) width rs) 0x03 (getG (s.core c) ra + offset).toNat) ∧
    (∀ width rs ra offset, (getG (s.core c) ra + offset).toNat % widthBytes width = 0 → (getG (s.core c) ra + offset).toNat ≥ 2 ^ 22 →
      Fails (.st (.core c ra offset) width rs) 0x04 (getG (s.core c) ra + offset).toNat))) ∧
(∀ place k a pre step (width : ScalarWidth) (s : State), placeRaw place = some (k, a, pre, step) → sigcExecutes s k = true →
  let Fails : Nat → Nat → Prop := fun cause detail => ∀ i : Instr, (∃ signed rd, i = .ld place width signed rd) ∨ (∃ rs, i = .st place width rs) →
    Runs i s fun t => Trapped (.sigc k) cause detail s t ∧ t.sigcs = s.sigcs ∧ t.mem.dmem = s.mem.dmem
  let moved := postModify (getK (s.sigc k) a) (getA (s.sigc k) a) (s.free 64 1) (widthBytes width) step
  let at_ := fun next => (if pre then next else getA (s.sigc k) a).toNat
  (width = .b8 ∨ moved = none → Fails 0x02 ((s.loadNat .simem (simemKey k (s.sigc k).pc.toNat) 4).getD 0)) ∧
  (∀ next, moved = some next → width ≠ .b8 → at_ next % widthBytes width ≠ 0 → Fails 0x03 (at_ next)) ∧
  (∀ next, moved = some next → width ≠ .b8 → at_ next % widthBytes width = 0 → at_ next ≥ 2 ^ 19 → Fails 0x04 (at_ next)))

/-- Frame: an instruction between registers changes its core, a vector one also its sticky flags, and no byte of any memory. A scalar or branch
instruction that completes changes nothing but the state of its core: every byte of every memory reads as before, no other core, signal core
or other part of the machine changes, and no register field but the counters of corrected words, in which the fetch of the instruction
counts. A vector element, shift, compare, convert, requantize or permute instruction changes beside these only the ARITH_FLAGS of its page
and, where it converts, the count of used free values; on d registers of a signal core the same holds of that core and its page. (R87, R133,
R135, R150, R193, R522) -/
def Obligations.RegisterInstructionsChangeOnlyTheirCore : Prop :=
  (∀ (c : Fin 160) (s : State), coreExecutes s c = true →
  let After : Instr → Prop := fun i => Runs i s fun t =>
    MemoryAndOthersSame (.core c) s t ∧ ∀ p f i, notEccCount p f i → notArithFlag (.core c) p f i → t.reg p f i = s.reg p f i
  let w := wordAt s c
  (∀ insn, scalarSpelled insn w = true → scalarPlain (s.core c) insn = true → Runs (.scalarInstruction c insn) s fun t =>
    MemoryAndOthersSame (.core c) s t ∧ t.freeIx = s.freeIx ∧ ∀ p f i, notEccCount p f i → t.reg p f i = s.reg p f i) ∧
  (∀ insn, branchSpelled insn w = true → branchPlain (s.core c) insn = true → Runs (.branchInstruction c insn) s fun t =>
    MemoryAndOthersSame (.core c) s t ∧ t.freeIx = s.freeIx ∧ ∀ p f i, notEccCount p f i → t.reg p f i = s.reg p f i) ∧
  (∀ op vd va vb lane, vecSpelled 0x24 vd va (if op = .abs ∨ op = .neg then none else some vb) (some lane) w = true →
    After (.vectorElementwise op (.core c vd va vb lane))) ∧
  (∀ op vd va vb lane, vecSpelled 0x25 vd va (some vb) (some lane) w = true → After (.vectorShiftCompare op (.core c vd va vb lane))) ∧
  (∀ op vd va vb lane target, vecSpelled 0x27 vd va (if op = .requantize then some vb else none) (some lane) w = true →
    After (.vectorRequantize c op vd va vb lane target)) ∧
  (∀ op vd va vb lane, vecSpelled 0x29 vd va (if op = .permute ∨ op = .interleave then some vb else none) (some lane) w = true →
    After (.vectorPermute op (.core c vd va vb lane)))) ∧
(∀ (k : Fin 64) (dd da db : Fin 64) (s : State), sigcExecutes s k = true →
  ∀ i : Instr, (∃ op, i = .vectorElementwise op (.sigc k dd da db)) ∨ (∃ op, i = .vectorShiftCompare op (.sigc k dd da db)) ∨
      (∃ op, i = .vectorPermute op (.sigc k dd da db)) →
    Runs i s fun t => MemoryAndOthersSame (.sigc k) s t ∧ t.freeIx = s.freeIx ∧
      ∀ p f i, notEccCount p f i → notArithFlag (.sigc k) p f i → t.reg p f i = s.reg p f i)

/-- Frame: ST and VST change the bytes that they store and no other byte of any memory. A completing ST or VST, with no injection armed, leaves
every byte outside the stored ones as it reads: the stored bytes are the bytes of the width from ga plus the offset for ST, on a signal core
from the address that its modification gives, and for VST the bytes of the element plane from ga and, for block lanes, one byte a block from
gb. Every byte of the other memories is as before, no other core or signal core changes, the core stands at the next instruction with its
registers (a signal core with the modified aN), and after ST no register field but the counters of corrected words and of the wait for banks
has changed. (R133, R152, R159, R160, R198, R200, R522, R631) -/
def Obligations.StoresChangeOnlyTheirBytes : Prop :=
  (∀ place width rs (s : State), canSt place width rs s = true → s.flag raspPage Rg.raspFlipControlArm = false →
    Runs (.st place width rs) s fun t =>
      (∀ c ra offset, place = .core c ra offset → t.core c = advance (s.core c) ∧ OthersSame (.core c) s t ∧
        (∀ a, ¬(spadKey c (getG (s.core c) ra + offset).toNat ≤ a ∧ a < spadKey c (getG (s.core c) ra + offset).toNat + widthBytes width) → ByteSame .spad a s t) ∧
        (∀ r a, r ≠ .spad → ByteSame r a s t) ∧
        (∀ p f i, notEccCount p f i → fieldBit p f i ≠ fieldBit (corePage c) Rg.coreSpadWaitTime 0 → t.reg p f i = s.reg p f i)) ∧
      (∀ k a pre step, placeRaw place = some (k, a, pre, step) → ∃ next at_, rawAt s k a pre step (widthBytes width) = some (next, at_) ∧
        t.sigc k = sNext (setA a next (s.sigc k)) ∧ OthersSame (.sigc k) s t ∧
        (∀ b, ¬(dmemKey k at_ ≤ b ∧ b < dmemKey k at_ + widthBytes width) → ByteSame .dmem b s t) ∧ (∀ r b, r ≠ .dmem → ByteSame r b s t) ∧
        (∀ p f i, notEccCount p f i → fieldBit p f i ≠ fieldBit (sigcPage k) Rg.sigcMemWaitTime 0 → t.reg p f i = s.reg p f i))) ∧
  (∀ (c : Fin 160) vs ga gb lane rsvd (s : State), canVst c vs ga gb lane rsvd s = true → s.flag raspPage Rg.raspFlipControlArm = false →
    Runs (.vst c vs ga gb lane rsvd) s fun t =>
      t.core c = advance (s.core c) ∧ OthersSame (.core c) s t ∧
      (∀ a, ¬(spadKey c (getG (s.core c) ga).toNat ≤ a ∧ a < spadKey c (getG (s.core c) ga).toNat + (vstBytes lane (getV (s.core c) vs)).length) →
        (laneRaw lane = true ∨ ¬(spadKey c (getG (s.core c) gb).toNat ≤ a ∧ a < spadKey c (getG (s.core c) gb).toNat + laneBlocks lane)) →
        ByteSame .spad a s t) ∧
      (∀ r a, r ≠ .spad → ByteSame r a s t))

/-- Device time never runs backwards except through a phase step, a load or a reset; no command moves it. No command changes device time, except
that power, reset and the end of step 1 of bring-up start it at 0. A tick of a block that is alive, with no phase step and no load waiting
and short of 2^48 seconds, moves it forward for every frequency adjustment above -1. (R33, R36, R492, R593) -/
def Obligations.DeviceTimeNeverRunsBackwards : Prop :=
  (∀ (c : Instr) (s t : State), exec c s = .next t →
    (t.time.sec = s.time.sec ∧ t.time.sub = s.time.sub) ∨ (startsTime c = true ∧ t.time.sec = 0 ∧ t.time.sub = 0)) ∧
  (∀ s : State, s.alive = true → s.time.loadSec = none → s.time.step = 0 → s.time.sub < unitsPerSec → -(2 ^ 48) < freqY s →
    (timeUnits s : Int) + (4 * 2 ^ 48 + 4 * freqY s) < ((2 ^ 48 * unitsPerSec : Nat) : Int) → timeUnits s < timeUnits (idleTick s))

/-- An accepted SOFT_RESET brings the block's registers to their reset values and keeps its error record. For an accepted SOFT_RESET of a CORE,
SIGC, MSID, HBMC, ETHP, SHAP or POLC page: every field of the page from 0x040 up that the block does not keep (a core's array fences and the
repairs of the fuse map, an Ethernet page's copy of GROUP_MODE) reads its reset value, ERROR_COUNT and ERROR_FIRST are unchanged,
CONTROL.ENABLE, CONTROL.FREEZE and INT_STATUS read 0, and SOFT_RESET and RESET_BUSY read 1. (R46, R47, R124, R125, R496, R598) -/
def Obligations.SoftResetRestoresRegisters : Prop :=
  ∀ (who : Requester) (p : Page) (value : BitVec 32) (s : State), canSoftReset who p value s = true → plainReset p = true →
  ∃ t, exec (.softReset who p value) s = .next t ∧
    (∀ f, f ∈ fieldsOf p.kind → ∀ i, i < f.count → 0x040 ≤ f.off → f ∉ keptFields p →
      (p.kind = .core → ¬(0x210 ≤ f.off ∧ f.off < 0x230)) → t.reg p f i = resetAt p f i) ∧
    t.reg p Rg.pageErrorCountCount = s.reg p Rg.pageErrorCountCount ∧ t.reg p Rg.pageErrorFirst0Code = s.reg p Rg.pageErrorFirst0Code ∧
    t.reg p Rg.pageErrorFirst0Unit = s.reg p Rg.pageErrorFirst0Unit ∧ t.reg p Rg.pageErrorFirst0Valid = s.reg p Rg.pageErrorFirst0Valid ∧
    t.reg p Rg.pageErrorFirst1Detail = s.reg p Rg.pageErrorFirst1Detail ∧ t.reg p Rg.pageErrorFirst2When = s.reg p Rg.pageErrorFirst2When ∧
    t.reg p Rg.pageControlEnable = 0 ∧ t.reg p Rg.pageControlFreeze = 0 ∧ t.reg p Rg.pageIntStatus = 0 ∧
    t.reg p Rg.pageControlSoftReset = 1 ∧ t.reg p Rg.pageStatusResetBusy = 1

/-- The system instructions complete, a deferred trap is taken, and a write of TRAP_CONTROL ends a trap. Each of the commands RDTIME, RDFLAGS,
RDWAVE, BRK, CLRFLAGS, HALT, DEFERRED_TRAP, TRAP_RESUME, TRAP_SKIP, TRAP_ABORT, SIGC_TRAP_RESUME, SIGC_TRAP_SKIP, SIGC_TRAP_ABORT completes:
for every state and all operands of which its hypothesis holds (the can definition of Safety.lean named after the command, which speaks of
the state and the operands alone; none where none stands), exec answers a next state, and in it holds what the command's clause states.
Where a clause rests on a choice or reading of the model, the docstring of the command's meaning names the log entry. -/
def Obligations.SystemInstructionsAndTrapsComplete : Prop :=
  -- RDTIME (R186)
  (∀ (c : Agent) (rd : Fin 32) (s : State), canRdtime c rd s = true → Runs (.rdtime c rd) s fun t =>
    Wrote c rd (BitVec.ofNat 64 s.now) s t ∧ OthersSame c s t) ∧
  -- RDFLAGS (R186)
  (∀ (c : Agent) (rd : Fin 32) (s : State), canRdflags c rd s = true → Runs (.rdflags c rd) s fun t =>
    Wrote c rd (BitVec.ofNat 64 (agentFlags s c)) s t ∧ OthersSame c s t) ∧
  -- RDWAVE (R186)
  (∀ (c : Agent) (rd : Fin 32) (s : State), canRdwave c rd s = true → Runs (.rdwave c rd) s fun t =>
    Wrote c rd (BitVec.ofNat 64 (s.reg (agentPage c) Rg.coreWaveRateRate)) s t ∧ OthersSame c s t) ∧
  -- BRK (R186)
  (∀ (c : Agent) (imm : BitVec 16) (s : State), canBrk c imm s = true → Runs (.brk c imm) s fun t =>
    Trapped c 0x0F imm.toNat s t) ∧
  -- CLRFLAGS (R186)
  (∀ (c : Agent) (imm : BitVec 16) (s : State), canClrflags c imm s = true → Runs (.clrflags c imm) s fun t =>
    agentFlags t c = clearMask (agentFlags s c) imm.toNat % (if isSigc c then 4 else 16) ∧
    (∀ d, c = .core d → t.core d = advance (s.core d)) ∧ (∀ k, c = .sigc k → t.sigc k = sNext (s.sigc k)) ∧ OthersSame c s t) ∧
  -- HALT (R186)
  (∀ (c : Agent) (s : State), canHalt c s = true → Runs (.halt c) s fun t =>
    (∀ d, c = .core d → ∃ u, (u.core d).run = .halted ∧ u.reg (corePage d) Rg.coreLocksHeldCount = 0 ∧
      (t = u ∨ ∃ r, (s.core d).ctx = some r ∧ t = choose r.part (endContext r.part r.ctx u))) ∧
    (∀ k, c = .sigc k → (t.sigc k).run = .halted ∧ (t.sigc k).locks = 0)) ∧
  -- DEFERRED_TRAP (R183)
  (∀ (c : Fin 160) (s : State), canDeferredTrap c s = true → Runs (.deferredTrap c) s fun t =>
    ∃ cause unit detail pc u, (s.core c).deferred = some (cause, unit, detail, pc) ∧ t = ctxTrapped c u ∧
    u.reg (corePage c) Rg.coreTrapCauseCause = cause % 256 ∧ u.reg (corePage c) Rg.coreTrapCauseDeferred = 1 ∧ u.reg (corePage c) Rg.coreTrapCauseValid = 1 ∧
    u.reg (corePage c) Rg.coreTrapPcPc = pc.toNat ∧ u.reg (corePage c) Rg.coreTrapStopPcPc = (s.core c).pc.toNat ∧ (u.core c).deferred = none) ∧
  -- TRAP_RESUME (R185)
  (∀ (who : Requester) (c : Fin 160) (s : State), canTrapResume who c s = true → Runs (.trapResume who c) s fun t =>
    ∃ u, t = (match (s.core c).ctx with
      | some r => ctxUntrapped r u
      | none => u) ∧ u.flag (corePage c) Rg.coreTrapCauseValid = false ∧ (u.core c).pc = (s.core c).pc ∧ (∀ d, d ≠ c.val → u.core d = s.core d)) ∧
  -- TRAP_SKIP (R185)
  (∀ (who : Requester) (c : Fin 160) (s : State), canTrapSkip who c s = true → Runs (.trapSkip who c) s fun t =>
    ∃ u, t = (match (s.core c).ctx with
      | some r => ctxUntrapped r u
      | none => u) ∧ u.flag (corePage c) Rg.coreTrapCauseValid = false ∧
    (u.core c).pc = (if s.flag (corePage c) Rg.coreTrapCauseDeferred then (s.core c).pc else (s.core c).pc + 4) ∧ (∀ d, d ≠ c.val → u.core d = s.core d)) ∧
  -- TRAP_ABORT (R185)
  (∀ (who : Requester) (c : Fin 160) (s : State), canTrapAbort who c s = true → Runs (.trapAbort who c) s fun t =>
    ∃ r, (s.core c).ctx = some r ∧ t = choose r.part (endContext r.part r.ctx s)) ∧
  -- SIGC_TRAP_RESUME (R210)
  (∀ (who : Requester) (k : Fin 64) (s : State), canSigcTrapResume who k s = true → Runs (.sigcTrapResume who k) s fun t =>
    t = s.setReg (sigcPage k) Rg.sigcTrapCauseValid 0) ∧
  -- SIGC_TRAP_SKIP (R210)
  (∀ (who : Requester) (k : Fin 64) (s : State), canSigcTrapSkip who k s = true → Runs (.sigcTrapSkip who k) s fun t =>
    t.flag (sigcPage k) Rg.sigcTrapCauseValid = false ∧ t.sigc k = { s.sigc k with pc := (s.sigc k).pc + 4 } ∧ (∀ j, j ≠ k.val → t.sigc j = s.sigc j)) ∧
  -- SIGC_TRAP_ABORT (R210)
  (∀ (who : Requester) (k : Fin 64) (s : State), canSigcTrapAbort who k s = true → Runs (.sigcTrapAbort who k) s fun t =>
    (t.sigc k).run = .halted ∧ (t.sigc k).locks = 0 ∧ t.flag (sigcPage k) Rg.sigcTrapCauseValid = false)

/-- Array passes and tile loads start and end, the probe starts, and repairs are written. Each of the commands ARRAY_PASS_START,
ARRAY_PASS_DONE, TILE_LOAD_START, TILE_LOAD_DONE, SKEW_PROBE_START, ROW_REPAIR_WRITE, COL_REPAIR_WRITE completes: for every state and all
operands of which its hypothesis holds (the can definition of Safety.lean named after the command, which speaks of the state and the
operands alone; none where none stands), exec answers a next state, and in it holds what the command's clause states. Where a clause rests
on a choice or reading of the model, the docstring of the command's meaning names the log entry. -/
def Obligations.ArrayCommandsComplete : Prop :=
  -- ARRAY_PASS_START (R95)
  (∀ (c : Fin 160) (array : Fin 4) (defects : List Nat) (s : State), canArrayPassStart c array defects s = true → Runs (.arrayPassStart c array defects) s fun t =>
    ∃ i q y, nextCmd (s.core c) true array.val = some (i, q) ∧
    y = (if (passDesc q.desc).swap then q.members.foldl (fun y a => swapTiles a y) (s.core c) else s.core c) ∧
    t.core c = { y with arrayQueue := y.arrayQueue.set i { q with started := true, rows := (formPass (s.setCore c y) c (passDesc q.desc) q.members defects).1, flags := (formPass (s.setCore c y) c (passDesc q.desc) q.members defects).2 } }) ∧
  -- ARRAY_PASS_DONE (R96)
  (∀ (c : Fin 160) (array : Fin 4) (stalls : List Nat) (s : State), canArrayPassDone c array stalls s = true → Runs (.arrayPassDone c array stalls) s fun t =>
    ∃ i q, (((s.core c).arrayQueue.mapIdx fun i q => (i, q)).find? fun e => e.2.pass && e.2.started && e.2.members.head? == some array.val) = some (i, q) ∧
    (t.core c).arrayQueue = (s.core c).arrayQueue.eraseIdx i ∧ (∀ tag, q.tag = some tag → tagOf (t.core c) tag = some (.done false)) ∧ t.sems = s.sems) ∧
  -- TILE_LOAD_START (R100)
  (∀ (c : Fin 160) (array : Fin 4) (s : State), canTileLoadStart c array s = true → Runs (.tileLoadStart c array) s fun t =>
    ∃ i q, nextCmd (s.core c) false array.val = some (i, q) ∧
    t.core c = { (s.core c) with arrayQueue := (s.core c).arrayQueue.set i { q with started := true, tile := formTile s c q.desc } }) ∧
  -- TILE_LOAD_DONE (R100)
  (∀ (c : Fin 160) (array : Fin 4) (s : State), canTileLoadDone c array s = true → Runs (.tileLoadDone c array) s fun t =>
    ∃ i q, (((s.core c).arrayQueue.mapIdx fun i q => (i, q)).find? fun e => !e.2.pass && e.2.started && e.2.members.head? == some array.val) = some (i, q) ∧
    (t.core c).arrayQueue = (s.core c).arrayQueue.eraseIdx i ∧ (∀ tag, q.tag = some tag → tagOf (t.core c) tag = some (.done false)) ∧
    (s.flag raspPage Rg.raspFlipControlArm = false → q.spoiled = false → ∀ a ∈ q.members, (tabGet {} a (t.core c).arrays).shadow = q.tile)) ∧
  -- SKEW_PROBE_START (R123)
  (∀ (who : Requester) (c : Fin 160) (value : BitVec 32) (s : State), canSkewProbeStart who c value s = true → Runs (.skewProbeStart who c value) s fun t =>
    (value.getLsbD 4 = false → t = s.setReg (corePage c) Rg.coreSkewProbeSelect (value.toNat % 16)) ∧
    (value.getLsbD 4 = true → t = startProbe c (value.toNat % 16) (s.setReg (corePage c) Rg.coreSkewProbeSelect (value.toNat % 16)) ∧
    t.reg (corePage c) Rg.coreSkewProbeBusy = 1 ∧ t.reg (corePage c) Rg.coreSkewProbeDone = value.toNat % 16)) ∧
  -- ROW_REPAIR_WRITE (R123)
  (∀ (who : Requester) (c : Fin 160) (array : Fin 4) (value : BitVec 32) (s : State), canRowRepairWrite who c array value s = true → Runs (.rowRepairWrite who c array value) s fun t =>
    t = repairWrite c array.val false value.toNat s) ∧
  -- COL_REPAIR_WRITE (R128)
  (∀ (who : Requester) (c : Fin 160) (array : Fin 4) (value : BitVec 32) (s : State), canColRepairWrite who c array value s = true → Runs (.colRepairWrite who c array value) s fun t =>
    t = repairWrite c array.val true value.toNat s)

/-- A cheap point is passed or saves, and forced preemption saves and delivers. Each of the commands CPMARK, CHEAP_SAVE_DONE, FORCED_PREEMPT,
FORCED_SAVE_DONE, PREEMPT_DELIVERED completes: for every state and all operands of which its hypothesis holds (the can definition of
Safety.lean named after the command, which speaks of the state and the operands alone; none where none stands), exec answers a next state,
and in it holds what the command's clause states. Where a clause rests on a choice or reading of the model, the docstring of the command's
meaning names the log entry. -/
def Obligations.CheapPointsComplete : Prop :=
  -- CPMARK (R178)
  (∀ (c : Fin 160) (id : BitVec 16) (rsvd : BitVec 6) (s : State), canCpmark c id rsvd s = true → Runs (.cpmark c id rsvd) s fun t =>
    (t.core c).pc = (s.core c).pc + 4 ∧ (t.core c).ctxStep = (s.core c).ctxStep + 1 ∧ (t.core c).gpr = (s.core c).gpr ∧ t.mem.spad = s.mem.spad ∧ t.sems = s.sems) ∧
  -- CHEAP_SAVE_DONE (R178)
  (∀ (c : Fin 160) (s : State), canCheapSaveDone c s = true → Runs (.cheapSaveDone c) s fun t =>
    ∃ r l, (s.core c).ctx = some r ∧ (s.core c).live = some l ∧
    t = choose r.part (releaseCore c (((saveCore c (liveSave s c l) s).raise (corePage c) 5).bump (partPage r.part) Rg.partPreemptCheapCount))) ∧
  -- FORCED_PREEMPT (R367)
  (∀ (c : Fin 160) (s : State), canForcedPreempt c s = true → Runs (.forcedPreempt c) s fun t =>
    (t.core c).run = .forcedSave ∧ (t.core c).pc = (s.core c).pc ∧ (∀ d, d ≠ c.val → t.core d = s.core d) ∧ t.regs = s.regs ∧ t.mem = s.mem) ∧
  -- FORCED_SAVE_DONE (R367)
  (∀ (c : Fin 160) (s : State), canForcedSaveDone c s = true → Runs (.forcedSaveDone c) s fun t =>
    ∃ r, (s.core c).ctx = some r ∧
    t = choose r.part (releaseCore c (((saveCore c (fullSave (cutPasses c s) c) (cutPasses c s)).bump (partPage r.part) Rg.partPreemptForcedCount).raise (partPage r.part) 3))) ∧
  -- PREEMPT_DELIVERED (R369)
  (∀ (c : Fin 160) (s : State), canPreemptDelivered c s = true → Runs (.preemptDelivered c) s fun t =>
    (t.core c).asked = false ∧ (t.core c).preempt = true ∧ (t.core c).preemptAt = some s.now ∧ (∀ d, d ≠ c.val → t.core d = s.core d) ∧ t.mem = s.mem)

/-- ISSUE queues a descriptor on its engine, and coding descriptors are admitted, run and complete. Each of the commands CODING_QUEUE_ADMIT,
CODING_DESCRIPTOR_START, CODING_DESCRIPTOR_DONE, CODE_OWNER_WRITE, ISSUE_ARRAY_PASS, ISSUE_TILE_LOAD, ISSUE_STREAM, ISSUE_CODING,
ISSUE_FABRIC completes: for every state and all operands of which its hypothesis holds (the can definition of Safety.lean named after the
command, which speaks of the state and the operands alone; none where none stands), exec answers a next state, and in it holds what the
command's clause states. Where a clause rests on a choice or reading of the model, the docstring of the command's meaning names the log
entry. -/
def Obligations.IssuesAndCodingComplete : Prop :=
  -- CODING_QUEUE_ADMIT (R214)
  (∀ (c : Fin 160) (s : State), canCodingQueueAdmit c s = true → Runs (.codingQueueAdmit c) s fun t =>
    ∃ q rest r, (s.core c).codingQueue = q :: rest ∧ (s.core c).ctx = some r ∧ codingQueueOf t r.part = codingQueueOf s r.part ++ [⟨c, r, q⟩] ∧
    (t.core c).codingQueue = rest ∧ (t.core c).codingOut = (s.core c).codingOut + 1 ∧ t.mem = s.mem) ∧
  -- CODING_DESCRIPTOR_START (R215)
  (∀ (engine : CodingEngine) (ownerWriteFirst : Bool) (s : State), canCodingDescriptorStart engine ownerWriteFirst s = true → Runs (.codingDescriptorStart engine ownerWriteFirst) s fun t =>
    ∃ k i e, startOwner s engine ownerWriteFirst = some k ∧ earliest (engineKey engine / 32) (codingQueueOf s k) = some (i, e) ∧
    ((codingDesc e.cmd.desc).tidemark = 0 ∨ (codingDesc e.cmd.desc).tidemark > s.now % 2 ^ 64 → tabFind (engineKey engine) t.coding.running = some (e, s.now) ∧ codingQueueOf t k = (codingQueueOf s k).eraseIdx i) ∧
    ((codingDesc e.cmd.desc).tidemark ≠ 0 → (codingDesc e.cmd.desc).tidemark ≤ s.now % 2 ^ 64 →
      t = completeCoding (engineKey engine) e { outcome := 2 } (setCodingQueue k ((codingQueueOf s k).eraseIdx i) s))) ∧
  -- CODING_DESCRIPTOR_DONE (R217)
  (∀ (engine : CodingEngine) (s : State), canCodingDescriptorDone engine s = true → Runs (.codingDescriptorDone engine) s fun t =>
    ∃ e start v u, tabFind (engineKey engine) s.coding.running = some (e, start) ∧ u.coding = s.coding ∧ t = finishCoding (engineKey engine) e start v u ∧
    (paramFails (codingDesc e.cmd.desc) = true → v = { outcome := 5 } ∧ u = s) ∧
    (paramFails (codingDesc e.cmd.desc) = false → (codingFault s e.ctx.part (codingDesc e.cmd.desc)).isSome = true → v = { outcome := 4 }) ∧
    (paramFails (codingDesc e.cmd.desc) = false → codingFault s e.ctx.part (codingDesc e.cmd.desc) = none →
      (s.partBytesAll e.ctx.part (codingDesc e.cmd.desc).inAddr (codingSpan (codingDesc e.cmd.desc)).1 = none → v = { outcome := 3 }) ∧
      ∀ b, s.partBytesAll e.ctx.part (codingDesc e.cmd.desc).inAddr (codingSpan (codingDesc e.cmd.desc)).1 = some b →
        v = (codingResult s e.ctx.part e.cmd.desc b).status ∧
        u.mem = ((codingReads s e.ctx.part (codingDesc e.cmd.desc)).each (codingResult s e.ctx.part e.cmd.desc b).writes fun w x => x.partStore e.ctx.part w.1 w.2).mem)) ∧
  -- CODE_OWNER_WRITE (R218)
  (∀ (who : Requester) (engine : CodingEngine) (value : BitVec 32) (s : State), canCodeOwnerWrite who engine value s = true → Runs (.codeOwnerWrite who engine value) s fun t =>
    ownerReg t (engineKey engine) = (if value.getLsbD 7 then some (value.toNat % 64) else none) ∧ t.coding.running = s.coding.running ∧ t.coding.queues = s.coding.queues) ∧
  -- ISSUE_ARRAY_PASS (R137)
  (∀ (c : Fin 160) (w : IssueWord) (s : State), canIssueArrayPass c w s = true → Runs (.issueArrayPass c w) s fun t =>
    Issued c w s t ∧ ∃ e, (t.core c).arrayQueue = (s.core c).arrayQueue ++ [e] ∧ e.pass = true ∧ e.desc = issuedDesc s c w ∧ e.pc = (s.core c).pc ∧ e.tag = issueTag w ∧ e.started = false) ∧
  -- ISSUE_TILE_LOAD (R147)
  (∀ (c : Fin 160) (w : IssueWord) (s : State), canIssueTileLoad c w s = true → Runs (.issueTileLoad c w) s fun t =>
    Issued c w s t ∧ ∃ e, (t.core c).arrayQueue = (s.core c).arrayQueue ++ [e] ∧ e.pass = false ∧ e.desc = issuedDesc s c w ∧ e.pc = (s.core c).pc ∧ e.tag = issueTag w ∧ e.started = false) ∧
  -- ISSUE_STREAM (R156)
  (∀ (c : Fin 160) (w : IssueWord) (s : State), canIssueStream c w s = true → Runs (.issueStream c w) s fun t =>
    Issued c w s t ∧ (slotOf (t.core c) w.unit.val).queue = (slotOf (s.core c) w.unit.val).queue ++ [⟨issuedDesc s c w, (s.core c).pc, issueTag w⟩]) ∧
  -- ISSUE_CODING (R213)
  (∀ (c : Fin 160) (w : IssueWord) (s : State), canIssueCoding c w s = true → Runs (.issueCoding c w) s fun t =>
    Issued c w s t ∧ (t.core c).codingQueue = (s.core c).codingQueue ++ [⟨issuedDesc s c w, (s.core c).pc, issueTag w⟩] ∧
    (t.core c).nonidem = ((s.core c).nonidem || (codingDesc (issuedDesc s c w)).combine)) ∧
  -- ISSUE_FABRIC (R447)
  (∀ (c : Fin 160) (w : IssueWord) (s : State), canIssueFabric c w s = true → Runs (.issueFabric c w) s fun t =>
    Issued c w s t ∧ (t.core c).fabricQueue = (s.core c).fabricQueue ++ [{ cmd := ⟨issuedDesc s c w, (s.core c).pc, issueTag w⟩, serial := (s.core c).fabricSerial }] ∧
    (t.core c).nonidem = ((s.core c).nonidem || !fabRepeats (fabDesc (issuedDesc s c w)).op))

/-- CTX_CONTROL activates, suspends, resumes and destroys a context. Each of the commands CTX_ACTIVATE, CTX_SUSPEND, CTX_RESUME, CTX_DESTROY
completes: for every state and all operands of which its hypothesis holds (the can definition of Safety.lean named after the command, which
speaks of the state and the operands alone; none where none stands), exec answers a next state, and in it holds what the command's clause
states. Where a clause rests on a choice or reading of the model, the docstring of the command's meaning names the log entry. -/
def Obligations.ContextActionsComplete : Prop :=
  -- CTX_ACTIVATE (R359)
  (∀ (who : Requester) (k : Fin 64) (ctx : Fin 256) (s : State), canCtxActivate who k ctx s = true → Runs (.ctxActivate who k ctx) s fun t =>
    ∃ y b, readCtx s k ctx {} = some (y, b) ∧ t.reg (partPage k) Rg.partCtxResultCode = 0 ∧ t.reg (partPage k) Rg.partCtxResultDone = 1 ∧
    t = ctxDone k (choose k (recordSeed k 0 ctx y.seed (s.writeCtx k ctx (raiseVtime s k ctx { y with
      state := 1, step := leNat ((b.drop 0x58).take 8), cheapLimit := if y.cheapLimit = 0 then 20 else y.cheapLimit }))))) ∧
  -- CTX_SUSPEND (R359)
  (∀ (who : Requester) (k : Fin 64) (ctx : Fin 256) (s : State), canCtxSuspend who k ctx s = true → Runs (.ctxSuspend who k ctx) s fun t =>
    t = ctxDone k (choose k (suspend k ctx s)) ∧ t.reg (partPage k) Rg.partCtxResultCode = 0 ∧ t.reg (partPage k) Rg.partCtxResultDone = 1) ∧
  -- CTX_RESUME (R359)
  (∀ (who : Requester) (k : Fin 64) (ctx : Fin 256) (s : State), canCtxResume who k ctx s = true → Runs (.ctxResume who k ctx) s fun t =>
    ∃ y b, readCtx s k ctx (s.ctx k ctx) = some (y, b) ∧ t.reg (partPage k) Rg.partCtxResultCode = 0 ∧ t.reg (partPage k) Rg.partCtxResultDone = 1 ∧
    t = ctxDone k (choose k (s.writeCtx k ctx (raiseVtime s k ctx { y with
      state := 1, saved := reranked (s.ctx k ctx) y, cheapLimit := if y.cheapLimit = 0 then 20 else y.cheapLimit })))) ∧
  -- CTX_DESTROY (R359)
  (∀ (who : Requester) (k : Fin 64) (ctx : Fin 256) (s : State), canCtxDestroy who k ctx s = true → Runs (.ctxDestroy who k ctx) s fun t =>
    t = ctxDone k (choose k (endContext k ctx s)) ∧ t.reg (partPage k) Rg.partCtxResultCode = 0 ∧ t.reg (partPage k) Rg.partCtxResultDone = 1)

/-- The scheduler ends a slice, starts a context and restores one. Each of the commands SLICE_END, CONTEXT_START, CONTEXT_RESTORE_DONE
completes: for every state and all operands of which its hypothesis holds (the can definition of Safety.lean named after the command, which
speaks of the state and the operands alone; none where none stands), exec answers a next state, and in it holds what the command's clause
states. Where a clause rests on a choice or reading of the model, the docstring of the command's meaning names the log entry. -/
def Obligations.ContextSchedulingComplete : Prop :=
  -- SLICE_END (R366)
  (∀ (k : Fin 64) (ctx : Fin 256) (s : State), canSliceEnd k ctx s = true → Runs (.sliceEnd k ctx) s fun t =>
    t = choose k ((accountCtx k ctx s).setCtx k ctx { (accountCtx k ctx s).ctx k ctx with sliceOver := true }) ∧ t.sems = s.sems ∧ t.power = s.power) ∧
  -- CONTEXT_START (R361)
  (∀ (k : Fin 64) (ctx : Fin 256) (s : State), canContextStart k ctx s = true → Runs (.contextStart k ctx) s fun t =>
    t = (s.each (maskCores (s.ctx k ctx).mask) fun c u => clearRegs c (u.setCore c { ctx := some ⟨k, ctx⟩, run := .restoring, heldSince := some s.now })).writeCtx
      k ctx { s.ctx k ctx with state := if (s.ctx k ctx).state = 4 then 3 else 2, claiming := false, sliceAt := s.now, sliceOver := false }) ∧
  -- CONTEXT_RESTORE_DONE (R368)
  (∀ (c : Fin 160) (s : State), canContextRestoreDone c s = true → Runs (.contextRestoreDone c) s fun t =>
    ∃ r, (s.core c).ctx = some r ∧ (tabFind c.val (s.ctx r.part r.ctx).saved = none → t = firstStart r.part c (s.ctx r.part r.ctx) s) ∧
    (∀ v, tabFind c.val (s.ctx r.part r.ctx).saved = some v →
      (spillBad s r.part (s.ctx r.part r.ctx) c = true → t = choose r.part (endContext r.part r.ctx ((s.error raspPage 0x0703 r.part r.ctx).raise (partPage r.part) 2))) ∧
      (spillBad s r.part (s.ctx r.part r.ctx) c = false →
      ∃ y : Ctx, y.saved = tabDel c.val (s.ctx r.part r.ctx).saved ∧
        (holdsTrap (restoreCore r.part c (s.ctx r.part r.ctx) v s) r.part r.ctx = false →
          t = (restoreCore r.part c (s.ctx r.part r.ctx) v s).setCtx r.part r.ctx y) ∧
        (holdsTrap (restoreCore r.part c (s.ctx r.part r.ctx) v s) r.part r.ctx = true →
          t = (restoreCore r.part c (s.ctx r.part r.ctx) v s).writeCtx r.part r.ctx { y with state := 5 }))))

/-- Ethernet frames, timestamps, tokens, nodes and policers: each command has its effect. Each of the commands GROUP_MODE_WRITE,
ETH_LINK_CHANGE, TXTS_ENTRY, TXTS_POP_READ, PTP_FRAME_HANDOFF, ETH_FRAME_TX, ETH_FRAME_RX, UPLANE_HANDOFF, TOKEN_RECORD_ACCEPTED, NODE_READ,
NODE_WRITE, POLICER_READ, POLICER_WRITE completes: for every state and all operands of which its hypothesis holds (the can definition of
Safety.lean named after the command, which speaks of the state and the operands alone; none where none stands), exec answers a next state,
and in it holds what the command's clause states. Where a clause rests on a choice or reading of the model, the docstring of the command's
meaning names the log entry. -/
def Obligations.EthernetCommandsComplete : Prop :=
  -- GROUP_MODE_WRITE (R470)
  (∀ (who : Requester) (g : Fin 8) (value : BitVec 32) (s : State), canGroupModeWrite who g value s = true → Runs (.groupModeWrite who g value) s fun t =>
    t = writeGroupMode g value.toNat s ∧ t.reg (ethpPage (8 * g.val)) Rg.ethpConfigGroupMode = value.toNat % 4) ∧
  -- ETH_LINK_CHANGE (R471)
  (∀ (p : Fin 64) (up : Bool) (s : State), canEthLinkChange p up s = true → Runs (.ethLinkChange p up) s fun t =>
    t.flag (ethpPage p) Rg.ethpPortStatusLinkUp = up ∧ (t.reg (ethpPage p) Rg.pageIntStatus).testBit (if up then 1 else 2) = true ∧ t.mem = s.mem ∧ t.eth = s.eth) ∧
  -- TXTS_ENTRY (R487)
  (∀ (p : Fin 64) (tag : BitVec 16) (time : BitVec 96) (s : State), canTxtsEntry p tag time s = true → Runs (.txtsEntry p tag time) s fun t =>
    ((s.ethPort p).stamps.length < 128 → (t.ethPort p).stamps = (s.ethPort p).stamps ++ [(tag, txStamp s p time)] ∧ t.regs = s.regs) ∧
    ((s.ethPort p).stamps.length ≥ 128 → (t.ethPort p).stamps = (s.ethPort p).stamps ∧ (t.reg (ethpPage p) Rg.pageIntStatus).testBit 3 = true)) ∧
  -- TXTS_POP_READ (R487)
  (∀ (who : Requester) (p : Fin 64) (s : State), canTxtsPopRead who p s = true → Runs (.txtsPopRead who p) s fun t =>
    t = (popStamp p s).1.emit (.readData (some (toBytes 4 (popStamp p s).2))) ∧ (t.ethPort p).stamps = (s.ethPort p).stamps.drop 1) ∧
  -- PTP_FRAME_HANDOFF (R472)
  (∀ (p : Fin 64) (subscriber : Option (Fin 65536)) (bytes : Nat) (tag : Option (BitVec 16)) (oneStep : Bool) (s : State), canPtpFrameHandoff p subscriber bytes tag oneStep s = true → Runs (.ptpFrameHandoff p subscriber bytes tag oneStep) s fun t =>
    t = (match subscriber with
      | some x => queueFrame x.val 0 { len := bytes, tag := tag, oneStep := oneStep } s
      | none => queueManagement p { len := bytes, tag := tag, oneStep := oneStep } s)) ∧
  -- ETH_FRAME_TX (R480)
  (∀ (p : Fin 64) (s : State), canEthFrameTx p s = true → Runs (.ethFrameTx p) s fun t =>
    (∀ f rest, (s.node (nodeKey levelPort p)).queue = f :: rest → t = departs p (nodeKey levelPort p) f (chargeNode (nodeKey levelPort p) f.len s)) ∧
    ((s.node (nodeKey levelPort p)).queue = [] → (runPass p true (portSubs s p) s).2 = true → t = (runPass p true (portSubs s p) s).1) ∧
    ((s.node (nodeKey levelPort p)).queue = [] → (runPass p true (portSubs s p) s).2 = false → t = (runPass p false (portSubs s p) (runPass p true (portSubs s p) s).1).1)) ∧
  -- ETH_FRAME_RX (R473)
  (∀ (p : Fin 64) (frame : EthFrame) (s : State), canEthFrameRx p frame s = true → Runs (.ethFrameRx p frame) s fun t =>
    t = receiveFrame p frame (noteFec p frame s)) ∧
  -- UPLANE_HANDOFF (R297)
  (∀ (k : Fin 64) (cell : Fin 384) (frame : Nat) (slot : Nat) (symbol : Fin 14) (ready : Bool) (blocks : List EgressBlock) (s : State), canUplaneHandoff k cell frame slot symbol ready blocks s = true → Runs (.uplaneHandoff k cell frame slot symbol ready blocks) s fun t =>
    ∃ y r, uplaneDue s k cell frame slot symbol ready = some (y, r) ∧
    t = (((symbolHanded k cell symbol y r blocks s).each
        (if y.info.categoryB then Config.cplaneFrames s.freeIx cell slot symbol else []) fun b t => formFrame k y.info.subscriber 1 { len := b.length + 4, data := b } t).each
        (Config.uplaneFrames s.freeIx cell slot symbol (egressPrbs y blocks)) fun b t => formFrame k y.info.subscriber 2 { len := b.length + 4, data := b, cell := some (k.val, cell.val) } t).usedFree) ∧
  -- TOKEN_RECORD_ACCEPTED (R346)
  (∀ (stream : Fin 65536) (translates : Bool) (s : State), canTokenRecordAccepted stream translates s = true → Runs (.tokenRecordAccepted stream translates) s fun t =>
    ∃ x r rest, s.stream stream.val = some x ∧ x.records = r :: rest ∧
    (x.route = 0 → ∀ l, x.lead = some l → t = recordTaken stream.val (s.emit (.memberRecord l x.target r.word r.status))) ∧
    (x.route = 0 → x.lead = none → (translates = false → t = recordTaken stream.val (s.error hostPage 0x0122 0 x.target)) ∧
      (translates = true → ∃ y, s.cq (.num (Fin.ofNat 262144 x.target)) = some y ∧
        t = recordTaken stream.val (writeEntry (.num (Fin.ofNat 262144 x.target)) y ⟨r.word, 0, 0, r.status, 0, false, true⟩ s))) ∧
    (x.route ≠ 0 → t = recordToFrame stream.val x r s)) ∧
  -- NODE_READ (R498)
  (∀ (who : Requester) (s : State), canNodeRead who s = true → Runs (.nodeRead who) s fun t =>
    t.reg shapPage Rg.shapNodeCommandResult = 0 ∧
    (∀ i, i < 16 → t.reg shapPage Rg.shapNodeDataData i = recWord (s.node (nodeKey (s.reg shapPage Rg.shapNodeSelectLevel) (s.reg shapPage Rg.shapNodeSelectIndex))).words i) ∧ t.eth = s.eth) ∧
  -- NODE_WRITE (R498)
  (∀ (who : Requester) (s : State), canNodeWrite who s = true → Runs (.nodeWrite who) s fun t =>
    t.reg shapPage Rg.shapNodeCommandResult = 0 ∧ (t.node (nodeKey (s.reg shapPage Rg.shapNodeSelectLevel) (s.reg shapPage Rg.shapNodeSelectIndex))).words =
      cleanRecord (s.reg shapPage Rg.shapNodeSelectLevel) (nodeData s) ∧ t.mem = s.mem) ∧
  -- POLICER_READ (R500)
  (∀ (who : Requester) (s : State), canPolicerRead who s = true → Runs (.policerRead who) s fun t =>
    t.reg polcPage Rg.polcCommandResult = 0 ∧ (∀ i, i < 5 → t.reg polcPage Rg.polcData i = recWord (s.policer (s.reg polcPage Rg.polcSelectPolicer)).words i) ∧ t.eth = s.eth) ∧
  -- POLICER_WRITE (R500)
  (∀ (who : Requester) (s : State), canPolicerWrite who s = true → Runs (.policerWrite who) s fun t =>
    t.reg polcPage Rg.polcCommandResult = 0 ∧ recBits (t.policer (s.reg polcPage Rg.polcSelectPolicer)).words 0 0 27 = s.reg polcPage Rg.polcData 0 % 2 ^ 27 ∧
    recBits (t.policer (s.reg polcPage Rg.polcSelectPolicer)).words 1 0 27 = s.reg polcPage Rg.polcData 1 % 2 ^ 27 ∧ t.mem = s.mem)

/-- A wave window ends, arrays and cores are fenced, and a probe ends. Each of the commands WAVE_WINDOW_END, ARRAY_FENCE, SKEW_PROBE_DONE,
CORE_FENCE_WRITE, CORE_CHECK_FAIL completes: for every state and all operands of which its hypothesis holds (the can definition of
Safety.lean named after the command, which speaks of the state and the operands alone; none where none stands), exec answers a next state,
and in it holds what the command's clause states. Where a clause rests on a choice or reading of the model, the docstring of the command's
meaning names the log entry. -/
def Obligations.FencesComplete : Prop :=
  -- WAVE_WINDOW_END (R30)
  (∀ (unit : MonitorUnit) (rate : BitVec 16) (readMeets : Bool) (s : State), canWaveWindowEnd unit rate readMeets s = true → Runs (.waveWindowEnd unit rate readMeets) s fun t =>
    (rate.toNat < 1550 → ∃ u, t = lowWindow unit u ∧ u.reg (monitorPage unit) Rg.coreWaveRateRate = rate.toNat ∧ u.reg (monitorPage unit) Rg.coreWaveRateLow = 1) ∧
    (rate.toNat ≥ 1550 → t.reg (monitorPage unit) Rg.coreWaveRateRate = rate.toNat ∧ t.reg (monitorPage unit) Rg.coreWaveRateLow = 0 ∧
      (readMeets = false → t.reg (monitorPage unit) Rg.coreWaveRateMinRate = min rate.toNat (s.reg (monitorPage unit) Rg.coreWaveRateMinRate)) ∧
      (readMeets = true → t.reg (monitorPage unit) Rg.coreWaveRateMinRate = rate.toNat) ∧ t.mem = s.mem ∧ t.cores = s.cores)) ∧
  -- ARRAY_FENCE (R114)
  (∀ (c : Fin 160) (array : Fin 4) (feeder : Bool) (s : State), canArrayFence c array feeder s = true → Runs (.arrayFence c array feeder) s fun t =>
    t = fenceArray c array feeder s) ∧
  -- SKEW_PROBE_DONE (R121)
  (∀ (c : Fin 160) (failed : BitVec 4) (detail : BitVec 32) (s : State), canSkewProbeDone c failed detail s = true → Runs (.skewProbeDone c failed detail) s fun t =>
    ∃ u, u = probeDone c failed.toNat detail.toNat s ∧ t = if u.reg (corePage c) Rg.coreArrayStateArrayFenced = 15 then fenceCore c u else u) ∧
  -- CORE_FENCE_WRITE (R533)
  (∀ (who : Requester) (value : BitVec 32) (s : State), canCoreFenceWrite who value s = true → Runs (.coreFenceWrite who value) s fun t =>
    t = fenceCore (value.toNat % 256) s) ∧
  -- CORE_CHECK_FAIL (R533)
  (∀ (c : Fin 160) (s : State), canCoreCheckFail c s = true → Runs (.coreCheckFail c) s fun t =>
    t = fenceCore c s ∧ t.reg (corePage c) Rg.pageStatusFenced = 1 ∧ t.mem = s.mem ∧ t.ctxs = s.ctxs)

/-- Spares take the place of cores, an injection is armed, and a package repair runs. Each of the commands SPARE_REPLACE_DONE,
SIGC_REPLACE_DONE, CORE_RETIRE_WRITE, FLIP_ARM, PPR_START, PPR_DONE completes: for every state and all operands of which its hypothesis
holds (the can definition of Safety.lean named after the command, which speaks of the state and the operands alone; none where none stands),
exec answers a next state, and in it holds what the command's clause states. Where a clause rests on a choice or reading of the model, the
docstring of the command's meaning names the log entry. -/
def Obligations.ReplacementComplete : Prop :=
  -- SPARE_REPLACE_DONE (R535)
  (∀ (c : Fin 160) (copyOk : Bool) (probeOk : Bool) (s : State), canSpareReplaceDone c copyOk probeOk s = true → Runs (.spareReplaceDone c copyOk probeOk) s fun t =>
    ∃ ph, spareCore s (c / 40) = some ph ∧ (probeOk = true → tabFind c.val t.plat.corePhysical = some ph ∧ (t.reg raspPage Rg.pageIntStatus).testBit 2 = true) ∧
    (probeOk = false → t = if (spareCore (retirePhysical ph (takeSpare ph s)) (c / 40)).isSome then retirePhysical ph (takeSpare ph s) else
      coreLost c (retirePhysical ph (takeSpare ph s)))) ∧
  -- SIGC_REPLACE_DONE (R537)
  (∀ (k : Fin 64) (s : State), canSigcReplaceDone k s = true → Runs (.sigcReplaceDone k) s fun t =>
    ∃ ph, spareSigc s (k / 16) = some ph ∧ tabFind k.val t.plat.sigcPhysical = some ph ∧ (t.reg raspPage Rg.pageIntStatus).testBit 2 = true ∧ t.mem.simem = s.mem.simem) ∧
  -- CORE_RETIRE_WRITE (R531)
  (∀ (who : Requester) (die : Fin 4) (value : BitVec 64) (s : State), canCoreRetireWrite who die value s = true → Runs (.coreRetireWrite who die value) s fun t =>
    t = renumberDie die (s.setReg raspPage Rg.raspCoreRetirePhysical value.toNat die)) ∧
  -- FLIP_ARM (R528)
  (∀ (who : Requester) (value : BitVec 32) (s : State), canFlipArm who value s = true → Runs (.flipArm who value) s fun t =>
    t.reg raspPage Rg.raspFlipControlArm = (if value.getLsbD 0 then 1 else s.reg raspPage Rg.raspFlipControlArm) ∧
    t.reg raspPage Rg.raspFlipControlFired = (if value.getLsbD 1 then 0 else s.reg raspPage Rg.raspFlipControlFired) ∧ t = { s with regs := t.regs } ∧
    (value.getLsbD 0 = false → value.getLsbD 1 = false → t = s)) ∧
  -- PPR_START (R532)
  (∀ (who : Requester) (value : BitVec 32) (s : State), canPprStart who value s = true → Runs (.pprStart who value) s fun t =>
    t.ras.ppr = some (BitVec.ofNat 64 (value.toNat % 2 ^ 17 + 2 ^ 32 * s.reg raspPage Rg.raspPprRowRow)) ∧ t.reg raspPage Rg.raspPprControlBusy = 1 ∧
    t.reg raspPage Rg.raspPprControlStack = value.toNat % 32 ∧ t.mem = s.mem) ∧
  -- PPR_DONE (R532)
  (∀ (outcome : PprOutcome) (s : State), canPprDone outcome s = true → Runs (.pprDone outcome) s fun t =>
    t.ras.ppr = none ∧ (t.reg raspPage Rg.pageIntStatus).testBit 4 = true ∧
    (outcome ≠ .done → t.reg raspPage Rg.raspPprControlBusy = 0 ∧ t.reg raspPage Rg.raspPprStatusResult = 0x0705 ∧ t.mem = s.mem ∧ t.ras = { s.ras with ppr := none }) ∧
    (outcome = .done → ∃ v, s.ras.ppr = some v ∧ t.ras = (if v.getLsbD 16 then { s.ras with ppr := none, hardRepairs := s.ras.hardRepairs ++ [v.toNat] } else { s.ras with ppr := none, softRepairs := s.ras.softRepairs ++ [v.toNat] })))

/-- A fabric request that reaches its home is performed and answered. Each of the commands LOAD, STORE, ATOMIC, ATOMIC_NR, REDUCE, MCAST_STORE,
DMA_READ, DMA_WRITE, READ_S, READ_X completes: for every state and all operands of which its hypothesis holds (the can definition of
Safety.lean named after the command, which speaks of the state and the operands alone; none where none stands), exec answers a next state,
and in it holds what the command's clause states. Where a clause rests on a choice or reading of the model, the docstring of the command's
meaning names the log entry. -/
def Obligations.RequestsAtHomeComplete : Prop :=
  -- LOAD (R446)
  (∀ (pkt : Packet) (s : State), canLoad pkt s = true → Runs (.load pkt) s fun t =>
    ∃ b, homeBytes s pkt = some b ∧ Answered pkt false (noteLoad pkt ((heardState s pkt).partTouch pkt.part pkt.addr.toNat (requestBytes pkt))) b t) ∧
  -- STORE (R446)
  (∀ (pkt : Packet) (s : State), canStore pkt s = true → Runs (.store pkt) s fun t =>
    Answered pkt false (absorb pkt ((heardState s pkt).partStore pkt.part pkt.addr.toNat (pkt.data.take (requestBytes pkt)))) [] t) ∧
  -- ATOMIC (R446)
  (∀ (pkt : Packet) (s : State), canAtomic pkt s = true → Runs (.atomic pkt) s fun t =>
    ∃ old, homeBytes s pkt = some old ∧ Answered pkt false (atomicDone pkt old s) old t) ∧
  -- ATOMIC_NR (R446)
  (∀ (pkt : Packet) (s : State), canAtomicNr pkt s = true → Runs (.atomicNr pkt) s fun t =>
    ∃ old, homeBytes s pkt = some old ∧ Answered pkt false (atomicDone pkt old s) [] t) ∧
  -- REDUCE (R446)
  (∀ (pkt : Packet) (s : State), canReduce pkt s = true → Runs (.reduce pkt) s fun t =>
    (pkt.contributors = 0 → ∃ m, memoryLine (heardState s pkt) pkt.part pkt.addr.toNat pkt.ext.toNat pkt.func = some m ∧
      Answered pkt false (putLine pkt.part pkt.addr.toNat pkt.ext.toNat (zCombine pkt.func m (zPacket pkt))
        (((heardState s pkt).partTouch pkt.part pkt.addr.toNat 64).partTouch pkt.part pkt.ext.toNat (lineExps pkt.func))) [] t) ∧
    (pkt.contributors ≠ 0 → ∃ g, tabFind (pkt.part.val * 2 ^ 64 + pkt.addr.toNat) t.fabric.gathers = some g ∧ g.count = pkt.contributors.toNat ∧
      g.got = [(pkt.index.toNat, pkt)] ∧ t.mem = s.mem)) ∧
  -- MCAST_STORE (R446)
  (∀ (pkt : Packet) (s : State), canMcastStore pkt s = true → Runs (.mcastStore pkt) s fun t =>
    Answered pkt false (absorb pkt ((heardState s pkt).partStore pkt.part pkt.addr.toNat (pkt.data.take (requestBytes pkt)))) [] t) ∧
  -- DMA_READ (R446)
  (∀ (pkt : Packet) (s : State), canDmaRead pkt s = true → Runs (.dmaRead pkt) s fun t =>
    ∃ b, homeBytes s pkt = some b ∧ Answered pkt false ((heardState s pkt).partTouch pkt.part pkt.addr.toNat (requestBytes pkt)) b t) ∧
  -- DMA_WRITE (R446)
  (∀ (pkt : Packet) (s : State), canDmaWrite pkt s = true → Runs (.dmaWrite pkt) s fun t =>
    Answered pkt false (absorb pkt ((heardState s pkt).partStore pkt.part pkt.addr.toNat (pkt.data.take (requestBytes pkt)))) [] t) ∧
  -- READ_S (R453)
  (∀ (pkt : Packet) (grantE : Bool) (s : State), canReadS pkt grantE s = true → Runs (.readS pkt grantE) s fun t =>
    ∃ e b u, grantLine pkt {} grantE (heardState s pkt) = .answer u 0 0 b ∧ dirFind u (dirKey pkt.part pkt.addr.toNat) = some e ∧
    e.owner = (if grantE then some pkt.src.toNat else none) ∧ e.sharers = (if grantE then [] else [pkt.src.toNat]) ∧ Answered pkt grantE u b t) ∧
  -- READ_X (R453)
  (∀ (pkt : Packet) (s : State), canReadX pkt s = true → Runs (.readX pkt) s fun t =>
    ∃ e b u, grantLine pkt {} true (heardState s pkt) = .answer u 0 0 b ∧ dirFind u (dirKey pkt.part pkt.addr.toNat) = some e ∧
    e.owner = some pkt.src.toNat ∧ e.sharers = [] ∧ Answered pkt false u b t)

/-- The messages about cached lines are performed, a gather times out, and the absorber writes back. Each of the commands WRITEBACK, EVICT,
INVALIDATE, RECALL, GATHER_TIMEOUT, ABSORBER_WRITEBACK completes: for every state and all operands of which its hypothesis holds (the can
definition of Safety.lean named after the command, which speaks of the state and the operands alone; none where none stands), exec answers a
next state, and in it holds what the command's clause states. Where a clause rests on a choice or reading of the model, the docstring of the
command's meaning names the log entry. -/
def Obligations.LineMessagesComplete : Prop :=
  -- WRITEBACK (R453)
  (∀ (pkt : Packet) (s : State), canWriteback pkt s = true → Runs (.writeback pkt) s fun t =>
    t = (takeRx pkt (lineAnswered (dirKey pkt.part pkt.addr.toNat) pkt.src.toNat true (lineBack pkt s))).sendPackets [responseTo s pkt 0 0 []]) ∧
  -- EVICT (R453)
  (∀ (pkt : Packet) (s : State), canEvict pkt s = true → Runs (.evict pkt) s fun t =>
    ∃ e, dirFind s (dirKey pkt.part pkt.addr.toNat) = some e ∧ t = (takeRx pkt (setDir (dirKey pkt.part pkt.addr.toNat)
      { e with sharers := e.sharers.filter (· != pkt.src.toNat), owner := if e.owner = some pkt.src.toNat then none else e.owner } s)).sendPackets [responseTo s pkt 0 0 []]) ∧
  -- INVALIDATE (R453)
  (∀ (pkt : Packet) (s : State), canInvalidate pkt s = true → Runs (.invalidate pkt) s fun t =>
    t = (takeRx pkt (if pkt.func = 2 then s else setCopy (copyKey pkt.src.toNat pkt.part pkt.addr.toNat)
      { (copyOf s (copyKey pkt.src.toNat pkt.part pkt.addr.toNat)) with data := none, excl := false, dirty := false } s)).sendPackets [responseTo s pkt 0 0 []]) ∧
  -- RECALL (R453)
  (∀ (pkt : Packet) (s : State), canRecall pkt s = true → Runs (.recall pkt) s fun t =>
    t = (takeRx pkt (setCopy (copyKey pkt.src.toNat pkt.part pkt.addr.toNat) (if pkt.func = 1
        then { (copyOf s (copyKey pkt.src.toNat pkt.part pkt.addr.toNat)) with data := none, excl := false, dirty := false }
        else { (copyOf s (copyKey pkt.src.toNat pkt.part pkt.addr.toNat)) with excl := false, dirty := false }) s)).sendPackets [responseTo s pkt 0 0
      (if (copyOf s (copyKey pkt.src.toNat pkt.part pkt.addr.toNat)).excl ∧ (copyOf s (copyKey pkt.src.toNat pkt.part pkt.addr.toNat)).dirty
        then (copyOf s (copyKey pkt.src.toNat pkt.part pkt.addr.toNat)).data.getD [] else [])]) ∧
  -- GATHER_TIMEOUT (R466)
  (∀ (part : Fin 64) (addr : BitVec 64) (s : State), canGatherTimeout part addr s = true → Runs (.gatherTimeout part addr) s fun t =>
    ∃ g, tabFind (part.val * 2 ^ 64 + addr.toNat) s.fabric.gathers = some g ∧
    t = (putLine part addr.toNat g.scaleAddr (zPoison g.func) { s with fabric := { s.fabric with gathers := tabDel (part.val * 2 ^ 64 + addr.toNat) s.fabric.gathers } }).error fabrPage 0x0344 0 (selfDevice s)) ∧
  -- ABSORBER_WRITEBACK (R454)
  (∀ (m : Fin 4) (line : Nat) (s : State), canAbsorberWriteback m line s = true → Runs (.absorberWriteback m line) s fun t =>
    tabGet [] m.val t.fabric.absorber = (tabGet [] m.val s.fabric.absorber).filter (fun e => e.1 != line) ∧ t.mem = s.mem ∧ t.regs = s.regs)

/-- The PCIe link goes down and up, configuration is answered, and the memory window reads, writes and updates. Each of the commands
PCIE_LINK_DOWN, PCIE_LINK_UP, PCIE_CONFIG_REQUEST, WINDOW_READ, WINDOW_WRITE, WINDOW_ATOMIC completes: for every state and all operands of
which its hypothesis holds (the can definition of Safety.lean named after the command, which speaks of the state and the operands alone;
none where none stands), exec answers a next state, and in it holds what the command's clause states. Where a clause rests on a choice or
reading of the model, the docstring of the command's meaning names the log entry. -/
def Obligations.LinkAndWindowComplete : Prop :=
  -- PCIE_LINK_DOWN (R384)
  (∀ (s : State), canPcieLinkDown s = true → Runs .pcieLinkDown s fun t =>
    t.host.linkUp = false ∧ t.reg hostPage Rg.hostLinkStatusSpeed = 0 ∧ t.reg hostPage Rg.hostLinkStatusWidth = 0 ∧ (t.reg hostPage Rg.pageIntStatus).testBit 1 = true) ∧
  -- PCIE_LINK_UP (R384)
  (∀ (speed : Fin 4) (width : Fin 17) (flit : Bool) (s : State), canPcieLinkUp speed width flit s = true → Runs (.pcieLinkUp speed width flit) s fun t =>
    t.host.linkUp = true ∧ t.reg hostPage Rg.hostLinkStatusSpeed = speed.val ∧ t.reg hostPage Rg.hostLinkStatusWidth = width.val ∧
    t.reg hostPage Rg.hostLinkStatusFlit = bit flit) ∧
  -- PCIE_CONFIG_REQUEST (R593)
  (∀ (fn : Fin 256) (register : Nat) (s : State), canPcieConfigRequest fn register s = true → Runs (.pcieConfigRequest fn register) s fun t =>
    t = s.emit (if s.host.linkUp then .configDone fn register else .retryStatus)) ∧
  -- WINDOW_READ (R386)
  (∀ (fn : Fin 256) (off : Nat) (len : Nat) (secure : Bool) (s : State), canWindowRead fn off len secure s = true → Runs (.windowRead fn off len secure) s fun t =>
    (off < 0x100000 → t = s.emit (.readData (some ((List.range len).map fun i => msixByte s fn.val (off + i))))) ∧
    (off ≥ 0x100000 → ∃ b, rangeBytes s (windowOf s fn.val).part (windowAddr (windowOf s fn.val) off) len = some b ∧
      t = (s.partTouch (windowOf s fn.val).part (windowAddr (windowOf s fn.val) off) len).emit (.readData (some b)))) ∧
  -- WINDOW_WRITE (R387)
  (∀ (fn : Fin 256) (off : Nat) (data : List Byte) (secure : Bool) (s : State), canWindowWrite fn off data secure s = true → Runs (.windowWrite fn off data secure) s fun t =>
    (off < 0x100000 → t = sendPending (s.each ((List.range data.length).zip data) fun e u => msixWrite fn.val (off + e.1) e.2 u)) ∧
    (off ≥ 0x100000 → t = if recording s (windowOf s fn.val).part then
        holdInput (windowOf s fn.val).part (.window (windowAddr (windowOf s fn.val) off) data) s
      else s.partStore (windowOf s fn.val).part (windowAddr (windowOf s fn.val) off) data)) ∧
  -- WINDOW_ATOMIC (R387)
  (∀ (fn : Fin 256) (off : Nat) (op : WindowAtomicOp) (wide : Bool) (operand compare : BitVec 64) (secure : Bool) (s : State), canWindowAtomic fn off op wide operand compare secure s = true → Runs (.windowAtomic fn off op wide operand compare secure) s fun t =>
    ∃ b, rangeBytes s (windowOf s fn.val).part (windowAddr (windowOf s fn.val) off) (if wide then 8 else 4) = some b ∧
    t = ((s.partTouch (windowOf s fn.val).part (windowAddr (windowOf s fn.val) off) (if wide then 8 else 4)).partStore (windowOf s fn.val).part
      (windowAddr (windowOf s fn.val) off) (toBytes (if wide then 8 else 4) (windowOp op (leNat b) (operand.toNat % 2 ^ (8 * (if wide then 8 else 4)))
        (compare.toNat % 2 ^ (8 * (if wide then 8 else 4)))))).emit (.readData (some b)))

/-- Routes, translations, IDE keys and the messages between members: each command has its effect. Each of the commands ROUTE_WRITE,
ATS_INVALIDATE, IDE_KM_REQUEST, FORWARDED_ENTRY_ARRIVE, MEMBER_COMPLETION_ARRIVE, FORWARD_TIMEOUT, MEMBER_READ, MEMBER_WRITE, MEMBER_EVENT
completes: for every state and all operands of which its hypothesis holds (the can definition of Safety.lean named after the command, which
speaks of the state and the operands alone; none where none stands), exec answers a next state, and in it holds what the command's clause
states. Where a clause rests on a choice or reading of the model, the docstring of the command's meaning names the log entry. -/
def Obligations.HostServicesComplete : Prop :=
  -- ROUTE_WRITE (R409)
  (∀ (who : Requester) (value : BitVec 32) (s : State), canRouteWrite who value s = true → Runs (.routeWrite who value) s fun t =>
    (value.getLsbD 31 = true → tabFind (s.reg hostPage Rg.hostRouteSelectPage) t.host.routes = some ⟨value.toNat % 256, value.toNat / 256 % 4096⟩) ∧
    (value.getLsbD 31 = false → tabFind (s.reg hostPage Rg.hostRouteSelectPage) t.host.routes = none) ∧ t.regs = s.regs) ∧
  -- ATS_INVALIDATE (R411)
  (∀ (fn : Fin 256) (pasid : Option (BitVec 20)) (addr size : BitVec 64) (s : State), canAtsInvalidate fn pasid addr size s = true → Runs (.atsInvalidate fn pasid addr size) s fun t =>
    t = (s.addReg hostPage Rg.hostAtcInvalidationsCount 1).emit (.atsInvalidated fn)) ∧
  -- IDE_KM_REQUEST (R412)
  (∀ (stream : Fin 9) (msg : IdeKmMsg) (s : State), canIdeKmRequest stream msg s = true → Runs (.ideKmRequest stream msg) s fun t =>
    t.out = s.out ++ [.security 0 true] ∧
    (∀ key, msg = .keyProg key → (tabGet {} stream.val t.host.ide).next = some key ∧ (tabGet {} stream.val t.host.ide).active = (tabGet {} stream.val s.host.ide).active) ∧
    (msg = .setGo → (tabGet {} stream.val t.host.ide).active = (tabGet {} stream.val s.host.ide).next ∧ (tabGet {} stream.val t.host.ide).next = none) ∧
    (msg = .setStop → tabGet {} stream.val t.host.ide = {})) ∧
  -- FORWARDED_ENTRY_ARRIVE (R416)
  (∀ (remoteSq : Fin 1048576) (entry : BitVec 512) (lead : BitVec 12) (s : State), canForwardedEntryArrive remoteSq entry lead s = true → Runs (.forwardedEntryArrive remoteSq entry lead) s fun t =>
    t = dispatchCmd { sq := .num remoteSq, cq := .admin, id := entry.extractLsb' 16 16, part := (sqPart s remoteSq.val).getD 0, entry := entry, sqHead := 0, arrival := s.now, lead := some lead.toNat } (sqPart s remoteSq.val) s) ∧
  -- MEMBER_COMPLETION_ARRIVE (R416)
  (∀ (sq : Fin 1048576) (id : BitVec 16) (status : BitVec 16) (result : BitVec 128) (s : State), canMemberCompletionArrive sq id status result s = true → Runs (.memberCompletionArrive sq id status result) s fun t =>
    ∃ f, forwardedOf s sq.val id = some f ∧ t = endForwarded f status.toNat result s) ∧
  -- FORWARD_TIMEOUT (R417)
  (∀ (sq : Fin 1048576) (id : BitVec 16) (s : State), canForwardTimeout sq id s = true → Runs (.forwardTimeout sq id) s fun t =>
    ∃ f, forwardedOf s sq.val id = some f ∧ t = endForwarded f 0x0301 0 s) ∧
  -- MEMBER_READ (R418)
  (∀ (q : CmdRef) (value : BitVec 32) (reachable : Bool) (s : State), canMemberRead q value reachable s = true → Runs (.memberRead q value reachable) s fun t =>
    ∃ c, startedCmd s q [0x70] false = some c ∧ t = complete c 0 (value.setWidth 128) ((startedState c s).emit (.memberAccess (c.field 0x18 0 6) (c.field 0x1C 0 32) none))) ∧
  -- MEMBER_WRITE (R418)
  (∀ (q : CmdRef) (reachable : Bool) (s : State), canMemberWrite q reachable s = true → Runs (.memberWrite q reachable) s fun t =>
    ∃ c, startedCmd s q [0x71] false = some c ∧ t = complete c 0 0 ((startedState c s).emit (.memberAccess (c.field 0x18 0 6) (c.field 0x1C 0 32) (some (BitVec.ofNat 32 (c.field 0x20 0 32)))))) ∧
  -- MEMBER_EVENT (R418)
  (∀ (m : Fin 64) (s : State), canMemberEvent m s = true → Runs (.memberEvent m) s fun t =>
    t = (s.setReg hostPage Rg.hostMemberEventsMembers (s.reg hostPage Rg.hostMemberEventsMembers ||| 2 ^ m.val)).raise hostPage 2 ∧
    (t.reg hostPage Rg.hostMemberEventsMembers).testBit m.val = true ∧ (t.reg hostPage Rg.pageIntStatus).testBit 2 = true)

/-- A link starts training, passes its phases, and falls back. Each of the commands TRAIN_START, RETRAIN_WRITE, LEVEL_DRIFT, TRAIN_PHASE_DONE,
TRAIN_PHASE_TIMEOUT, CODEWORD_RX, CODEWORD_LOCK_LOSS, RETRY_LIMIT completes: for every state and all operands of which its hypothesis holds
(the can definition of Safety.lean named after the command, which speaks of the state and the operands alone; none where none stands), exec
answers a next state, and in it holds what the command's clause states. Where a clause rests on a choice or reading of the model, the
docstring of the command's meaning names the log entry. -/
def Obligations.LinkTrainingComplete : Prop :=
  -- TRAIN_START (R429)
  (∀ (p : Fin 9) (cause : TrainCause) (s : State), canTrainStart p cause s = true → Runs (.trainStart p cause) s fun t =>
    t = startTraining p s) ∧
  -- RETRAIN_WRITE (R441)
  (∀ (who : Requester) (p : Fin 9) (s : State), canRetrainWrite who p s = true → Runs (.retrainWrite who p) s fun t =>
    t = s.setReg (aqzlPage p) Rg.aqzlLinkControlRetrain 1 ∧ t.flag (aqzlPage p) Rg.aqzlLinkControlRetrain = true) ∧
  -- LEVEL_DRIFT (R429)
  (∀ (p : Fin 9) (lane : Fin 4) (s : State), canLevelDrift p lane s = true → Runs (.levelDrift p lane) s fun t =>
    t = startTraining p s) ∧
  -- TRAIN_PHASE_DONE (R429)
  (∀ (p : Fin 9) (info : TrainInfo) (s : State), canTrainPhaseDone p info s = true → Runs (.trainPhaseDone p info) s fun t =>
    (s.reg (aqzlPage p) Rg.aqzlLinkStatusState = 1 → t = detectDone p info s) ∧
    (s.reg (aqzlPage p) Rg.aqzlLinkStatusState = 2 → s.reg (aqzlPage p) Rg.aqzlLinkStatusPhase = 1 →
      t.reg (aqzlPage p) Rg.aqzlLinkStatusPhase = if (linkOf s p).simplex then 3 else 2) ∧
    (s.reg (aqzlPage p) Rg.aqzlLinkStatusState = 2 → s.reg (aqzlPage p) Rg.aqzlLinkStatusPhase = 2 → t.reg (aqzlPage p) Rg.aqzlLinkStatusPhase = 3) ∧
    (s.reg (aqzlPage p) Rg.aqzlLinkStatusState = 2 → s.reg (aqzlPage p) Rg.aqzlLinkStatusPhase = 3 → t.reg (aqzlPage p) Rg.aqzlLinkStatusPhase = 4) ∧
    (s.reg (aqzlPage p) Rg.aqzlLinkStatusState = 2 → s.reg (aqzlPage p) Rg.aqzlLinkStatusPhase = 4 → t.reg (aqzlPage p) Rg.aqzlLinkStatusPhase = 5) ∧
    (s.reg (aqzlPage p) Rg.aqzlLinkStatusState = 2 → s.reg (aqzlPage p) Rg.aqzlLinkStatusPhase = 5 → ∃ u, t = linkUp p info u ∧ u.regs = s.regs)) ∧
  -- TRAIN_PHASE_TIMEOUT (R431)
  (∀ (p : Fin 9) (s : State), canTrainPhaseTimeout p s = true → Runs (.trainPhaseTimeout p) s fun t =>
    ((linkOf s p).restarts ≥ 3 → t = trainFail p 0x0331 (s.reg (aqzlPage p) Rg.aqzlLinkStatusPhase) s) ∧
    ((linkOf s p).restarts < 3 → (linkOf t p).restarts = (linkOf s p).restarts + 1 ∧ t.reg (aqzlPage p) Rg.aqzlLinkStatusState = 1 ∧
      t.reg (aqzlPage p) Rg.aqzlLinkStatusPhase = 0 ∧ t.mem = s.mem)) ∧
  -- CODEWORD_RX (R428)
  (∀ (p : Fin 9) (lane : Fin 4) (seq : BitVec 10) (fec : FecResult) (s : State), canCodewordRx p lane seq fec s = true → Runs (.codewordRx p lane seq fec) s fun t =>
    (∀ n, fec = .corrected n → (linkOf t p).locked.contains lane.val = true ∧ tabGet 0 lane.val (linkOf t p).errors = min (tabGet 0 lane.val (linkOf s p).errors + n) (2 ^ 32 - 1) ∧ t.mem = s.mem) ∧
    (fec = .uncorrectable → portUp s p = true → ∃ u, t = sendNak p u ∧ (linkOf u p).locked.contains lane.val = true)) ∧
  -- CODEWORD_LOCK_LOSS (R425)
  (∀ (p : Fin 9) (lane : Fin 4) (s : State), canCodewordLockLoss p lane s = true → Runs (.codewordLockLoss p lane) s fun t =>
    linkOf t p = { (linkOf s p) with locked := (linkOf s p).locked.filter (· != lane.val) } ∧ t.regs = s.regs ∧ t.mem = s.mem) ∧
  -- RETRY_LIMIT (R434)
  (∀ (p : Fin 9) (s : State), canRetryLimit p s = true → Runs (.retryLimit p) s fun t =>
    ∃ r, ((linkOf s p).replay.find? fun r => decide (r.sends ≥ 8)) = some r ∧ t = startTraining p (s.error (aqzlPage p) 0x0333 0 r.flit.fseq.toNat))

/-- Flits are sent, received, acknowledged and credited; seals go out and come back. Each of the commands FLIT_RX, FLIT_TX, FLOW, ACK, NAK,
CREDIT, ACK_TIMER, SEAL, SEAL_RETURN, GATE_STATE_RESEND completes: for every state and all operands of which its hypothesis holds (the can
definition of Safety.lean named after the command, which speaks of the state and the operands alone; none where none stands), exec answers a
next state, and in it holds what the command's clause states. Where a clause rests on a choice or reading of the model, the docstring of the
command's meaning names the log entry. -/
def Obligations.FlitsAndSealsComplete : Prop :=
  -- FLIT_RX (R434)
  (∀ (p : Fin 9) (flit : Flit) (crcOk : Bool) (s : State), canFlitRx p flit crcOk s = true → Runs (.flitRx p flit crcOk) s fun t =>
    (crcOk = false → t = sendNak p (s.bump (aqzlPage p) Rg.aqzlCrcErrorsCount)) ∧ (crcOk = true → flit.null = true → t = s) ∧
    (crcOk = true → flit.null = false → flit.fseq.toNat = (linkOf s p).rxSeq → t = sealsArrive p (takeFlit p flit (setLink p
      { (linkOf s p) with rxSeq := ((linkOf s p).rxSeq + 1) % 4096, discarding := false, unacked := (linkOf s p).unacked + 1, rxAny := true } s))) ∧
    (crcOk = true → flit.null = false → flit.fseq.toNat ≠ (linkOf s p).rxSeq → t = if (linkOf s p).discarding then s else sendNak p s)) ∧
  -- FLIT_TX (R435)
  (∀ (p : Fin 9) (s : State), canFlitTx p s = true → Runs (.flitTx p) s fun t =>
    (∀ vc turn q, (flush s).frozen (aqzlPage p) = false → chooseVc (flush s) p (linkOf (flush s) p) = some (vc, turn) → vcFront (linkOf (flush s) p) vc = some q → t = sendFlit p vc turn q (flush s)) ∧
    ((flush s).frozen (aqzlPage p) = true ∨ chooseVc (flush s) p (linkOf (flush s) p) = none → ∃ u, t = sendNull p u ∧ u.out = (flush s).out ∧ (linkOf u p).replay = (linkOf (flush s) p).replay)) ∧
  -- FLOW (R437)
  (∀ (p : Fin 9) (vc : Fin 8) (xoff : Bool) (s : State), canFlow p vc xoff s = true → Runs (.flow p vc xoff) s fun t =>
    (vc ≠ 0 → vc ≠ 7 → ((linkOf t p).xoff.contains vc.val = xoff) ∧ t.regs = s.regs ∧ t.mem = s.mem) ∧
    (vc = 0 ∨ vc = 7 → t = if xoff then s.countErrors (aqzlPage p) 1 else s)) ∧
  -- ACK (R434)
  (∀ (p : Fin 9) (fseq : BitVec 12) (s : State), canAck p fseq s = true → Runs (.ack p fseq) s fun t =>
    linkOf t p = dropAcked fseq.toNat (linkOf s p) ∧ t.regs = s.regs ∧ t.mem = s.mem) ∧
  -- NAK (R434)
  (∀ (p : Fin 9) (fseq : BitVec 12) (s : State), canNak p fseq s = true → Runs (.nak p fseq) s fun t =>
    (linkOf t p).replay = (dropAcked ((fseq.toNat + 4095) % 4096) (linkOf s p)).replay ∧
    (linkOf t p).resend = (if (linkOf t p).replay.isEmpty then none else some 0) ∧ t.mem = s.mem) ∧
  -- CREDIT (R436)
  (∀ (p : Fin 9) (vc : Fin 8) (count : BitVec 10) (s : State), canCredit p vc count s = true → Runs (.credit p vc count) s fun t =>
    linkOf t p = { (linkOf s p) with inFlight := (linkOf s p).inFlight.set vc ((linkOf s p).inFlight.getD vc 0 - (count.toNat + 1024 - (linkOf s p).told.getD vc 0) % 1024), told := (linkOf s p).told.set vc count.toNat, creditAt := if (count.toNat + 1024 - (linkOf s p).told.getD vc 0) % 1024 = 0 then (linkOf s p).creditAt else s.now } ∧ t.regs = s.regs ∧ t.mem = s.mem) ∧
  -- ACK_TIMER (R434)
  (∀ (p : Fin 9) (s : State), canAckTimer p s = true → Runs (.ackTimer p) s fun t =>
    t.out = s.out ++ [.gate p 5 (((linkOf s p).rxSeq + 4095) % 4096)] ∧ (linkOf t p).unacked = 0 ∧ (linkOf t p).ackedAt = s.now ∧ t.regs = s.regs) ∧
  -- SEAL (R460)
  (∀ (p : Fin 9) (tag : Fin 64) (dest : BitVec 12) (fseq : BitVec 12) (s : State), canSeal p tag dest fseq s = true → Runs (.seal p tag dest fseq) s fun t =>
    ∃ u, t = sealsArrive p u ∧ (linkOf u p).sealsIn = (linkOf s p).sealsIn ++ [⟨false, tag, dest.toNat, fseq.toNat⟩] ∧ u.regs = s.regs) ∧
  -- SEAL_RETURN (R460)
  (∀ (p : Fin 9) (tag : Fin 64) (dest : BitVec 12) (fseq : BitVec 12) (s : State), canSealReturn p tag dest fseq s = true → Runs (.sealReturn p tag dest fseq) s fun t =>
    ∃ u, t = sealsArrive p u ∧ (linkOf u p).sealsIn = (linkOf s p).sealsIn ++ [⟨true, tag, dest.toNat, fseq.toNat⟩] ∧ u.regs = s.regs) ∧
  -- GATE_STATE_RESEND (R427)
  (∀ (p : Fin 9) (s : State), canGateStateResend p s = true → Runs (.gateStateResend p) s fun t =>
    t.out = s.out ++ ((List.range 64).filter (quenched s)).map (fun k => .gate p 2 (k + 64)) ∧ t.regs = s.regs ∧ t.fabric = s.fabric)

/-- Time crosses a link, and lanes sleep, wake and are refreshed. Each of the commands TIME_EXCHANGE_TX, TIME, TIME_UPSTREAM_LOSS, POWER,
LANE_SLEEP, LANE_WAKE, LANE_REFRESH completes: for every state and all operands of which its hypothesis holds (the can definition of
Safety.lean named after the command, which speaks of the state and the operands alone; none where none stands), exec answers a next state,
and in it holds what the command's clause states. Where a clause rests on a choice or reading of the model, the docstring of the command's
meaning names the log entry. -/
def Obligations.LinkTimeAndPowerComplete : Prop :=
  -- TIME_EXCHANGE_TX (R467)
  (∀ (p : Fin 9) (s : State), canTimeExchangeTx p s = true → Runs (.timeExchangeTx p) s fun t =>
    (linkOf t p).timeSent = some (timeFine s.timeBits % 2 ^ 50) ∧ (linkOf t p).timeGot = (linkOf s p).timeGot ∧
    t.out = s.out ++ [.gate p 8 (64 * (timeFine s.timeBits % 2 ^ 50))] ++ (match (linkOf s p).timeGot with
      | some (_, got) => [.gate p 8 (1 + 64 * got)]
      | none => []) ∧ t.regs = s.regs) ∧
  -- TIME (R468)
  (∀ (p : Fin 9) (kind : BitVec 6) (value : BitVec 50) (localTime : BitVec 50) (s : State), canTime p kind value localTime s = true → Runs (.time p kind value localTime) s fun t =>
    (linkOf t p).timeHeard = s.now ∧ (kind = 0 → (linkOf t p).timeGot = some (value.toNat, localTime.toNat)) ∧ t.mem = s.mem) ∧
  -- TIME_UPSTREAM_LOSS (R468)
  (∀ (next : Option (Fin 8)) (s : State), canTimeUpstreamLoss next s = true → Runs (.timeUpstreamLoss next) s fun t =>
    (∀ q, next = some q → t.reg fabrPage Rg.fabrTimeControlUpstream = q.val ∧ (linkOf t q).timeHeard = s.now ∧ t.fabric.offsetCount = 0) ∧
    (next = none → (t.reg fabrPage Rg.pageIntStatus).testBit 4 = true)) ∧
  -- POWER (R438)
  (∀ (p : Fin 9) (mask : BitVec 4) (wake : Bool) (seq : BitVec 10) (s : State), canPower p mask wake seq s = true → Runs (.power p mask wake seq) s fun t =>
    linkOf t p = { (linkOf s p) with peerMask := if wake then 0 else mask.toNat, peerSeq := seq.toNat } ∧ t.regs = s.regs ∧ t.mem = s.mem) ∧
  -- LANE_SLEEP (R438)
  (∀ (p : Fin 9) (lane : Fin 4) (s : State), canLaneSleep p lane s = true → Runs (.laneSleep p lane) s fun t =>
    laneActive t p lane = false ∧ laneAsleep t p lane = true ∧ tabFind lane.val (linkOf t p).sleptAt = some s.now ∧ t.mem = s.mem) ∧
  -- LANE_WAKE (R438)
  (∀ (p : Fin 9) (lane : Fin 4) (errors : Bool) (s : State), canLaneWake p lane errors s = true → Runs (.laneWake p lane errors) s fun t =>
    (errors = false → laneActive t p lane = true ∧ laneAsleep t p lane = false ∧ t.mem = s.mem) ∧ (errors = true → ∃ u, t = startTraining p u ∧ laneAsleep u p lane = false)) ∧
  -- LANE_REFRESH (R438)
  (∀ (p : Fin 9) (lane : Fin 4) (s : State), canLaneRefresh p lane s = true → Runs (.laneRefresh p lane) s fun t =>
    (s.flag (aqzlPage p) Rg.aqzlPowerAllowSleep = true → (linkOf s p).peerMask.testBit lane = true → tabFind lane.val (linkOf t p).sleptAt = some s.now ∧ t.regs = s.regs) ∧
    (s.flag (aqzlPage p) Rg.aqzlPowerAllowSleep = false ∨ (linkOf s p).peerMask.testBit lane = false → laneActive t p lane = true ∧ laneAsleep t p lane = false))

/-- The firmware starts, is verified, recovered, updated and committed. Each of the commands BOOT_START, BOOT_DONE, RECOVERY_GO,
WATCHDOG_EXPIRY, CONTROLLER_NOT_SERVING, SVN_COMMIT, OWNER_COMMIT, DYNAMIC_ADDRESS, FIRMWARE_UPDATE, ACTIVATE_FIRMWARE completes: for every
state and all operands of which its hypothesis holds (the can definition of Safety.lean named after the command, which speaks of the state
and the operands alone; none where none stands), exec answers a next state, and in it holds what the command's clause states. Where a clause
rests on a choice or reading of the model, the docstring of the command's meaning names the log entry. -/
def Obligations.FirmwareCommandsComplete : Prop :=
  -- BOOT_START (R563)
  (∀ (s : State), canBootStart s = true → Runs .bootStart s fun t =>
    t.mgmt.booting = some .cold ∧ bootState t = 1 ∧ t.mem = s.mem) ∧
  -- BOOT_DONE (R563)
  (∀ (image : ImageData) (s : State), canBootDone image s = true → Runs (.bootDone image) s fun t =>
    ((s.mgmt.booting = some .cold ∨ s.mgmt.booting = some .activate ∨ (s.mgmt.booting = some .restart ∧ (imageFails s.fuses s.mgmt.sram).isSome = true)) →
      (imageFails s.fuses image.bytes = none → ImageRuns image.bytes t) ∧ (∀ code, imageFails s.fuses image.bytes = some code → RecoveryAwaited code t)) ∧
    (s.mgmt.booting = some .restart → imageFails s.fuses s.mgmt.sram = none → ImageRuns s.mgmt.sram t) ∧
    (∀ persist, s.mgmt.booting = some (.recovery persist) → (imageFails s.fuses s.mgmt.recovered = none → ImageRuns s.mgmt.recovered t ∧ (persist = true → .flashWrite s.mgmt.recovered ∈ t.out)) ∧
      (∀ code, imageFails s.fuses s.mgmt.recovered = some code → RecoveryAwaited code t))) ∧
  -- RECOVERY_GO (R565)
  (∀ (who : Requester) (value : BitVec 32) (image : HostData) (s : State), canRecoveryGo who value image s = true → Runs (.recoveryGo who value image) s fun t =>
    bootState t = 1 ∧ t.mgmt.booting = some (.recovery (value.getLsbD 1)) ∧ t.reg mgmtPage Rg.mgmtRecoveryControlBusy = 1 ∧
    t.reg mgmtPage Rg.mgmtRecoveryControlPersist = bit (value.getLsbD 1) ∧
    t.mgmt.recovered = (if s.host.linkUp ∧ image.status = .ok then image.bytes.take (s.reg mgmtPage Rg.mgmtRecoveryLenBytes) else [])) ∧
  -- WATCHDOG_EXPIRY (R554)
  (∀ (s : State), canWatchdogExpiry s = true → Runs .watchdogExpiry s fun t =>
    bootState t = 4 ∧ t.mgmt.booting = some .restart ∧ t.mgmt.sessions = [] ∧ t.mgmt.spdm = [] ∧ t.mgmt.restartAt = some s.now ∧ (t.reg mgmtPage Rg.pageIntStatus).testBit 6 = true ∧
    t.mem = s.mem) ∧
  -- CONTROLLER_NOT_SERVING (R541)
  (∀ (s : State), canControllerNotServing s = true → Runs .controllerNotServing s fun t =>
    t = sendFail s) ∧
  -- SVN_COMMIT (R567)
  (∀ (who : Requester) (value : BitVec 32) (s : State), canSvnCommit who value s = true → Runs (.svnCommit who value) s fun t =>
    (bootState s = 2 → s.fuses.svn < s.reg mgmtPage Rg.mgmtBootStatusImageSvn →
      t.fuses = { s.fuses with svn := s.reg mgmtPage Rg.mgmtBootStatusImageSvn }) ∧
    (bootState s ≠ 2 ∨ s.reg mgmtPage Rg.mgmtBootStatusImageSvn ≤ s.fuses.svn → t = s.error mgmtPage 0x0805 0 0x060)) ∧
  -- OWNER_COMMIT (R568)
  (∀ (who : Requester) (value : BitVec 32) (s : State), canOwnerCommit who value s = true → Runs (.ownerCommit who value) s fun t =>
    (s.fuses.ownerHash = 0 → stagedHash s ≠ 0 → s.anyPart = false → t.fuses = { s.fuses with ownerHash := stagedHash s } ∧ t.reg mgmtPage Rg.mgmtFuseStateOwnerSet = 1) ∧
    (s.fuses.ownerHash ≠ 0 ∨ stagedHash s = 0 ∨ s.anyPart = true → t = s.error mgmtPage 0x0805 0 0x068)) ∧
  -- DYNAMIC_ADDRESS (R559)
  (∀ (addr : BitVec 7) (s : State), canDynamicAddress addr s = true → Runs (.dynamicAddress addr) s fun t =>
    t.mgmt.dynAddr = some addr ∧ t.regs = s.regs) ∧
  -- FIRMWARE_UPDATE (R566)
  (∀ (src : MgmtSource) (image : ImageData) (s : State), canFirmwareUpdate src image s = true → Runs (.firmwareUpdate src image) s fun t =>
    (imageFails s.fuses image.bytes = none → t.mgmt.updated = true ∧ t = answer src (.code 0) ({ s with mgmt := { s.mgmt with updated := true } }.emit (.flashWrite image.bytes))) ∧
    (∀ code, imageFails s.fuses image.bytes = some code → t = answer src (.code 2) s)) ∧
  -- ACTIVATE_FIRMWARE (R566)
  (∀ (src : MgmtSource) (s : State), canActivateFirmware src s = true → Runs (.activateFirmware src) s fun t =>
    (s.mgmt.updated = true → bootState t = 4 ∧ t.mgmt.booting = some .activate ∧ t.mgmt.sessions = []) ∧ (s.mgmt.updated = false → t = answer src (.code 0x85) s))

/-- Sensors and power are sampled, and PLDM requests are answered. Each of the commands SENSOR_SAMPLE, POWER_ESTIMATE, POWER_ALLOWANCE_EXPIRY,
COOLANT_HIGH, INLET_SENSOR_LOSS, GET_SENSOR_READING, PLDM_DISCOVERY, PLDM_FRU_READ, PDR_REPOSITORY_REQUEST completes: for every state and
all operands of which its hypothesis holds (the can definition of Safety.lean named after the command, which speaks of the state and the
operands alone; none where none stands), exec answers a next state, and in it holds what the command's clause states. Where a clause rests
on a choice or reading of the model, the docstring of the command's meaning names the log entry. -/
def Obligations.PowerAndSensorsComplete : Prop :=
  -- SENSOR_SAMPLE (R561)
  (∀ (env : SensorEnv) (s : State), canSensorSample env s = true → Runs (.sensorSample env) s fun t =>
    t.mgmt.sample = some env ∧ t.reg mgmtPage Rg.mgmtThermalHottest = env.dies.foldl max 0 / 2 % 2 ^ Rg.mgmtThermalHottest.len ∧
    t.plat.junctions = env.dies.mapIdx (fun i v => (i, v / 2)) ∧ t.power.hotStacks = (List.range 20).filter (fun x => decide (env.stackTemps.getD x 0 ≥ 95)) ∧
    (∀ v, env.inlet = some v → t.power.inletAt = s.now ∧ t.power.inletLost = false)) ∧
  -- POWER_ESTIMATE (R581)
  (∀ (p p0 : Nat) (f : Fin 1001) (s : State), canPowerEstimate p p0 f s = true → Runs (.powerEstimate p p0 f) s fun t =>
    t.power.p = p ∧ t.power.p0 = p0 ∧ t.power.fraction = (if t.power.throttling then f.val else 0) ∧ t.reg mgmtPage Rg.mgmtPowerNowFraction = t.power.fraction % 2 ^ Rg.mgmtPowerNowFraction.len ∧
    (p0 ≤ sustained s → t.power.throttling = false ∧ t.power.overSince = none) ∧ (p0 > 2600 → p0 > sustained s → t.power.throttling = true) ∧
    (p0 > sustained s → s.power.allowance = false → t.power.throttling = true)) ∧
  -- POWER_ALLOWANCE_EXPIRY (R581)
  (∀ (s : State), canPowerAllowanceExpiry s = true → Runs .powerAllowanceExpiry s fun t =>
    t.power.throttling = true ∧ (s.power.throttling = false → t.power.allowance = false ∧ (t.reg mgmtPage Rg.pageIntStatus).testBit 3 = true)) ∧
  -- COOLANT_HIGH (R585)
  (∀ (inlet : Nat) (s : State), canCoolantHigh inlet s = true → Runs (.coolantHigh inlet) s fun t =>
    t.power.inletHigh = some inlet ∧ t.reg mgmtPage Rg.mgmtThermalCoolant = 1 ∧ (t.reg mgmtPage Rg.pageIntStatus).testBit 5 = true) ∧
  -- INLET_SENSOR_LOSS (R606)
  (∀ (s : State), canInletSensorLoss s = true → Runs .inletSensorLoss s fun t =>
    t.power.inletLost = true ∧ t.power.inletSince = some (s.power.inletSince.getD s.now) ∧ t.reg mgmtPage Rg.mgmtThermalInlet = 55 ∧
    (t.reg rsetPage Rg.pageIntStatus).testBit 4 = true) ∧
  -- GET_SENSOR_READING (R561)
  (∀ (src : MgmtSource) (sensor : SensorId) (s : State), canGetSensorReading src sensor s = true → Runs (.getSensorReading src sensor) s fun t =>
    ∃ e, s.mgmt.readings.find? (fun e => e.1 == sensor) = some e ∧ t = answer src (.value e.2) s) ∧
  -- PLDM_DISCOVERY (R559)
  (∀ (src : MgmtSource) (req : PldmDiscovery) (s : State), canPldmDiscovery src req s = true → Runs (.pldmDiscovery src req) s fun t =>
    ∃ b, AnsweredBytes src b s t) ∧
  -- PLDM_FRU_READ (R559)
  (∀ (src : MgmtSource) (s : State), canPldmFruRead src s = true → Runs (.pldmFruRead src) s fun t =>
    AnsweredBytes src (Config.fruData s.fuses.serial s.fuses.svn) s t) ∧
  -- PDR_REPOSITORY_REQUEST (R559)
  (∀ (src : MgmtSource) (req : PdrRequest) (s : State), canPdrRepositoryRequest src req s = true → Runs (.pdrRepositoryRequest src req) s fun t =>
    (req = .getPdr → AnsweredBytes src Config.pdrRepository s t) ∧
    (∀ e rest, req = .pollEvent → s.mgmt.events = e :: rest → t = answer src (.value e.2) { s with mgmt := { s.mgmt with events := rest } }) ∧
    (req = .pollEvent → s.mgmt.events = [] → AnsweredBytes src [] s t))

/-- SPDM requests are answered in their order, and the partition report and migration keys are served. Each of the commands GET_VERSION,
GET_CAPABILITIES, NEGOTIATE_ALGORITHMS, GET_DIGESTS, GET_CERTIFICATE, CHALLENGE, GET_MEASUREMENTS, KEY_EXCHANGE, FINISH, KEY_UPDATE,
HEARTBEAT, END_SESSION, CHUNK_SEND, CHUNK_GET, PARTITION_REPORT, SET_MIGRATION_KEY completes: for every state and all operands of which its
hypothesis holds (the can definition of Safety.lean named after the command, which speaks of the state and the operands alone; none where
none stands), exec answers a next state, and in it holds what the command's clause states. Where a clause rests on a choice or reading of
the model, the docstring of the command's meaning names the log entry. -/
def Obligations.AttestationComplete : Prop :=
  -- GET_VERSION (R573)
  (∀ (src : MgmtSource) (s : State), canGetVersion src s = true → Runs (.getVersion src) s fun t =>
    AnsweredBytes src [0x12, 0x13] s t ∧ tabGet 0 (transport src) t.mgmt.spdm = 1 ∧ sessionOf t src = none) ∧
  -- GET_CAPABILITIES (R573)
  (∀ (src : MgmtSource) (s : State), canGetCapabilities src s = true → Runs (.getCapabilities src) s fun t =>
    (∃ b, AnsweredBytes src b s t) ∧ tabGet 0 (transport src) t.mgmt.spdm = 2) ∧
  -- NEGOTIATE_ALGORITHMS (R573)
  (∀ (src : MgmtSource) (supported : Bool) (s : State), canNegotiateAlgorithms src supported s = true → Runs (.negotiateAlgorithms src supported) s fun t =>
    (supported = true → (∃ b, AnsweredBytes src b s t) ∧ tabGet 0 (transport src) t.mgmt.spdm = 3) ∧ (supported = false → t = answer src (.code invalidRequest) s)) ∧
  -- GET_DIGESTS (R573)
  (∀ (src : MgmtSource) (s : State), canGetDigests src s = true → Runs (.getDigests src) s fun t =>
    AnsweredBytes src (toBytes 64 (Config.sha3 (Config.certChain s.fuses.serial)).toNat) s t) ∧
  -- GET_CERTIFICATE (R573)
  (∀ (src : MgmtSource) (slot : Fin 8) (offset length : Nat) (s : State), canGetCertificate src slot offset length s = true → Runs (.getCertificate src slot offset length) s fun t =>
    (offset < (Config.certChain s.fuses.serial).length → AnsweredBytes src (((Config.certChain s.fuses.serial).drop offset).take length) s t) ∧
    (¬offset < (Config.certChain s.fuses.serial).length → t = answer src (.code invalidRequest) s)) ∧
  -- CHALLENGE (R573)
  (∀ (src : MgmtSource) (slot : Fin 8) (nonce : BitVec 256) (s : State), canChallenge src slot nonce s = true → Runs (.challenge src slot nonce) s fun t =>
    AnsweredBytes src (signTranscript s (toBytes 32 nonce.toNat)) s t) ∧
  -- GET_MEASUREMENTS (R574)
  (∀ (src : MgmtSource) (index : BitVec 8) (signed : Bool) (nonce : BitVec 256) (s : State), canGetMeasurements src index signed nonce s = true → Runs (.getMeasurements src index signed nonce) s fun t =>
    (index = 0 → t = answer src (.value (measuredFor src).length) s) ∧
    (index ≠ 0 → index ≠ 0xFF → signed = false → AnsweredBytes src (measurement s index.toNat) s t) ∧
    (index ≠ 0 → index ≠ 0xFF → signed = true → AnsweredBytes src (measurement s index.toNat ++ signTranscript s (toBytes 32 nonce.toNat ++ measurement s index.toNat)) s t) ∧
    (index = 0xFF → signed = false → AnsweredBytes src ((measuredFor src).map (measurement s)).flatten s t)) ∧
  -- KEY_EXCHANGE (R573)
  (∀ (src : MgmtSource) (exchange : BitVec 768) (s : State), canKeyExchange src exchange s = true → Runs (.keyExchange src exchange) s fun t =>
    sessionOf t src = some .handshake ∧ AnsweredBytes src (signTranscript s (toBytes 96 exchange.toNat)) s t) ∧
  -- FINISH (R573)
  (∀ (src : MgmtSource) (verifies : Bool) (s : State), canFinish src verifies s = true → Runs (.finish src verifies) s fun t =>
    (verifies = true → sessionOf t src = some .established ∧ ∃ b, AnsweredBytes src b s t) ∧ (verifies = false → sessionOf t src = none ∧ t.out = (answer src (.code decryptError) s).out)) ∧
  -- KEY_UPDATE (R573)
  (∀ (src : MgmtSource) (s : State), canKeyUpdate src s = true → Runs (.keyUpdate src) s fun t =>
    (∃ b, AnsweredBytes src b s t) ∧ sessionOf t src = some .established) ∧
  -- HEARTBEAT (R573)
  (∀ (src : MgmtSource) (s : State), canHeartbeat src s = true → Runs (.heartbeat src) s fun t =>
    (∃ b, AnsweredBytes src b s t) ∧ sessionOf t src = some .established) ∧
  -- END_SESSION (R573)
  (∀ (src : MgmtSource) (s : State), canEndSession src s = true → Runs (.endSession src) s fun t =>
    (∃ b, AnsweredBytes src b s t) ∧ sessionOf t src = none) ∧
  -- CHUNK_SEND (R573)
  (∀ (src : MgmtSource) (chunk : BitVec 16) (last : Bool) (data : List Byte) (s : State), canChunkSend src chunk last data s = true → Runs (.chunkSend src chunk last data) s fun t =>
    (∃ b, AnsweredBytes src b s t) ∧ (last = true → tabFind (transport src) t.mgmt.chunks = none) ∧
    (last = false → chunk = 0 → tabFind (transport src) t.mgmt.chunks = some (1, data)) ∧
    (last = false → chunk ≠ 0 → tabFind (transport src) t.mgmt.chunks = some (chunk.toNat + 1, (tabGet (0, []) (transport src) s.mgmt.chunks).2 ++ data))) ∧
  -- CHUNK_GET (R573)
  (∀ (src : MgmtSource) (chunk : BitVec 16) (s : State), canChunkGet src chunk s = true → Runs (.chunkGet src chunk) s fun t =>
    ∃ b, tabFind (transport src) s.mgmt.large = some b ∧
    (chunk.toNat * max 1 (Config.chunkBytes (transport src)) < b.length →
      t = s.emit (.mgmt src (.bytes ((b.drop (chunk.toNat * max 1 (Config.chunkBytes (transport src)))).take (max 1 (Config.chunkBytes (transport src))))))) ∧
    (¬chunk.toNat * max 1 (Config.chunkBytes (transport src)) < b.length → t = answer src (.code invalidRequest) s)) ∧
  -- PARTITION_REPORT (R575)
  (∀ (src : MgmtSource) (k : Fin 64) (nonce : BitVec 256) (s : State), canPartitionReport src k nonce s = true → Runs (.partitionReport src k nonce) s fun t =>
    AnsweredBytes src (reportBody s k nonce ++ toBytes 114 (Config.idkSign s.fuses.uds 2 (reportBody s k nonce)).toNat ++ toBytes 14 0) s t) ∧
  -- SET_MIGRATION_KEY (R576)
  (∀ (src : MgmtSource) (slot : Fin 8) (key : BitVec 256) (peer : BitVec 456) (s : State), canSetMigrationKey src slot key peer s = true → Runs (.setMigrationKey src slot key peer) s fun t =>
    tabFind slot.val t.mgmt.keySlots = some ⟨key, peer, 0⟩ ∧ ∃ b, AnsweredBytes src b s t)

/-- Strict mode, recording boundaries, long operations, self-test, zeroization and TDISP complete. Each of the commands STRICT_WRITE,
RECORD_BOUNDARY, LONG_OP_CHUNK, RAKE, SELFTEST_ADMIT, SELFTEST_SOAK, ZEROIZE_PARTITION, ZEROIZE_DEVICE, TDISP_REQUEST completes: for every
state and all operands of which its hypothesis holds (the can definition of Safety.lean named after the command, which speaks of the state
and the operands alone; none where none stands), exec answers a next state, and in it holds what the command's clause states. Where a clause
rests on a choice or reading of the model, the docstring of the command's meaning names the log entry. -/
def Obligations.LongAndGlobalOperationsComplete : Prop :=
  -- STRICT_WRITE (R504)
  (∀ (who : Requester) (value : BitVec 32) (s : State), canStrictWrite who value s = true → Runs (.strictWrite who value) s fun t =>
    t.reg globPage Rg.globModeStrict = value.toNat % 2 ∧ t.mem = s.mem ∧ t.records = s.records) ∧
  -- RECORD_BOUNDARY (R516)
  (∀ (k : Fin 64) (inputsFirst : Bool) (loadDataOk : Bool) (s : State), canRecordBoundary k inputsFirst loadDataOk s = true → Runs (.recordBoundary k inputsFirst loadDataOk) s fun t =>
    ((recordOf s k).mode = 1 → t = recordingBoundary k inputsFirst s) ∧ ((recordOf s k).mode ≠ 1 → t = replayBoundary k loadDataOk s)) ∧
  -- LONG_OP_CHUNK (R405)
  (∀ (part : Fin 64) (sq : Nat) (cmd : BitVec 16) (bytes : Nat) (s : State), canLongOpChunk part sq cmd bytes s = true → Runs (.longOpChunk part sq cmd bytes) s fun t =>
    ∃ l, runningLong s part sq cmd = some l ∧ t = longChunk l bytes s) ∧
  -- RAKE (R525)
  (∀ (q : CmdRef) (s : State), canRake q s = true → Runs (.rake q) s fun t =>
    ∃ c, startedCmd s q [0x42] false = some c ∧ t = startLong c (rakeTotal c) [] (startedState c s) (rakeTarget c) (rakeUnit c) (if rakeTarget c < 2 then rakeStart c else 0)) ∧
  -- SELFTEST_ADMIT (R552)
  (∀ (q : CmdRef) (env : SelftestEnv) (s : State), canSelftestAdmit q env s = true → Runs (.selftestAdmit q env) s fun t =>
    ∃ c, startedCmd s q [0x41] false = some c ∧ t = startLong c env.total (env.failedArrays.flatMap fun e => [BitVec.ofNat 8 e.1, BitVec.ofNat 8 e.2]) (startedState c s) 0 0 (env.failedArrays.length + env.failedOthers)) ∧
  -- SELFTEST_SOAK (R305)
  (∀ (q : CmdRef) (seconds : Nat) (record : SoakRecord) (s : State), canSelftestSoak q seconds record s = true → Runs (.selftestSoak q seconds record) s fun t =>
    ∃ c b, startedCmd s q [0x41] false = some c ∧ t = startLong c 1 b (startedState c s) 1 (if seconds = 0 then 300 else seconds)) ∧
  -- ZEROIZE_PARTITION (R577)
  (∀ (q : CmdRef) (s : State), canZeroizePartition q s = true → Runs (.zeroizePartition q) s fun t =>
    ∃ c, startedCmd s q [0x43] true = some c ∧ t = startZeroize c (startedState c s) ∧ t.reg mgmtPage Rg.mgmtZeroizeStatusPending = 1) ∧
  -- ZEROIZE_DEVICE (R578)
  (∀ (q : CmdRef) (s : State), canZeroizeDevice q s = true → Runs (.zeroizeDevice q) s fun t =>
    ∃ c, startedCmd s q [0x43] true = some c ∧ t = startZeroize c (startedState c s) ∧ t.reg mgmtPage Rg.mgmtZeroizeStatusPending = 1) ∧
  -- TDISP_REQUEST (R413)
  (∀ (fn : Fin 256) (msg : TdispMsg) (s : State), canTdispRequest fn msg s = true → Runs (.tdispRequest fn msg) s fun t =>
    (msg = .lock → (tabFind fn.val s.host.tdis).getD .unlocked = .unlocked → tabFind fn.val t.host.tdis = some .locked) ∧
    (msg = .start → tabFind fn.val s.host.tdis = some .locked → tabFind fn.val t.host.tdis = some .run) ∧
    (msg = .stop → tabFind fn.val s.host.tdis = some .run → t = leaveLocked fn.val false s) ∧
    (msg = .error → tabFind fn.val s.host.tdis = some .run → t = leaveLocked fn.val true s))

/-- A stream slot starts, moves lines, and ends or halts. Each of the commands STREAM_SLOT_START, STREAM_LINE_MOVED, STREAM_SLOT_DONE,
STREAM_HALT completes: for every state and all operands of which its hypothesis holds (the can definition of Safety.lean named after the
command, which speaks of the state and the operands alone; none where none stands), exec answers a next state, and in it holds what the
command's clause states. Where a clause rests on a choice or reading of the model, the docstring of the command's meaning names the log
entry. -/
def Obligations.StreamActionsComplete : Prop :=
  -- STREAM_SLOT_START (R155)
  (∀ (c : Fin 160) (slot : Fin 16) (s : State), canStreamSlotStart c slot s = true → Runs (.streamSlotStart c slot) s fun t =>
    (slotOf (t.core c) slot).started = true ∧ (slotOf (t.core c) slot).moved = 0 ∧ (slotOf (t.core c) slot).queue = (slotOf (s.core c) slot).queue ∧
    t.reg (corePage c) Rg.coreStreamStatusState slot = 1 ∧ t.mem = s.mem) ∧
  -- STREAM_LINE_MOVED (R157)
  (∀ (c : Fin 160) (slot : Fin 16) (s : State), canStreamLineMoved c slot s = true → Runs (.streamLineMoved c slot) s fun t =>
    ∃ v q p k, runningSlot s c slot = some (v, q, p, k) ∧ (let u := spadWait c (if p.out then moveOut k c p (ringBase v) v.moved s else moveIn k c p (ringBase v) v.moved s)
    t = u.setCore c (setSlot slot { v with moved := v.moved + 1, produced := v.produced + 1 } (u.core c)))) ∧
  -- STREAM_SLOT_DONE (R141)
  (∀ (c : Fin 160) (slot : Fin 16) (s : State), canStreamSlotDone c slot s = true → Runs (.streamSlotDone c slot) s fun t =>
    ∃ v q p k, runningSlot s c slot = some (v, q, p, k) ∧ (slotOf (t.core c) slot).queue = v.queue.drop 1 ∧ (slotOf (t.core c) slot).started = false ∧
    (∀ tag, q.tag = some tag → tagOf (t.core c) tag = some (.done false)) ∧ t.reg (corePage c) Rg.coreStreamStatusState slot = 2 ∧ t.mem = s.mem) ∧
  -- STREAM_HALT (R158)
  (∀ (c : Fin 160) (slot : Fin 16) (s : State), canStreamHalt c slot s = true → Runs (.streamHalt c slot) s fun t =>
    ∃ v q p k code addr, runningSlot s c slot = some (v, q, p, k) ∧ lineMeets s k c p (ringBase v) v.moved = .halts code addr ∧
    (slotOf (t.core c) slot).queue = v.queue.drop 1 ∧ (∀ tag, q.tag = some tag → tagOf (t.core c) tag = some (.done true)) ∧
    (t.reg (corePage c) Rg.pageIntStatus).testBit 4 = true)

/-- A core's fabric command is sent, answered, retried and done. Each of the commands FABRIC_INJECT, FABRIC_RESPONSE, FABRIC_COMMAND_DONE,
REFUSED_RETRY, REQ_TIMEOUT completes: for every state and all operands of which its hypothesis holds (the can definition of Safety.lean
named after the command, which speaks of the state and the operands alone; none where none stands), exec answers a next state, and in it
holds what the command's clause states. Where a clause rests on a choice or reading of the model, the docstring of the command's meaning
names the log entry. -/
def Obligations.FabricRequestsComplete : Prop :=
  -- FABRIC_INJECT (R374)
  (∀ (c : Fin 160) (s : State), canFabricInject c s = true → Runs (.fabricInject c) s fun t =>
    ∃ k q pkt d, injectsRemote s c = some (k, q, pkt, d) ∧
    t = flush ((enterReq c q pkt d 1 (postedOp (fabDesc q.cmd.desc).op) (noteRequest k pkt (operandTouch c k (fabDesc q.cmd.desc) q.injected s))).sendPackets [pkt])) ∧
  -- FABRIC_RESPONSE (R448)
  (∀ (pkt : Packet) (s : State), canFabricResponse pkt s = true → Runs (.fabricResponse pkt) s fun t =>
    t = takeRx pkt (takeResponse pkt (splitPairs pkt s))) ∧
  -- FABRIC_COMMAND_DONE (R448)
  (∀ (c : Fin 160) (s : State), canFabricCommandDone c s = true → Runs (.fabricCommandDone c) s fun t =>
    ∃ q, (s.core c).fabricQueue.find? (commandOver (s.core c)) = some q ∧ (t.core c).fabricQueue = (s.core c).fabricQueue.filter (fun e => e.serial != q.serial) ∧
    (∀ tag, q.cmd.tag = some tag → tagOf (t.core c) tag = some (.done q.error)) ∧ t.regs = s.regs ∧ t.mem = s.mem) ∧
  -- REFUSED_RETRY (R451)
  (∀ (c : Fin 160) (s : State), canRefusedRetry c s = true → Runs (.refusedRetry c) s fun t =>
    ∃ r, retryDue s c = some r ∧ t = flush ((s.modCore c fun x => { x with requests := x.requests.map fun (q : FabReq) =>
      if q.order = r.order then { q with refusedUntil := none, sentAt := s.now } else q }).sendPackets [{ r.packet with retry := true }])) ∧
  -- REQ_TIMEOUT (R450)
  (∀ (c : Fin 160) (req : BitVec 8) (s : State), canReqTimeout c req s = true → Runs (.reqTimeout c req) s fun t =>
    ∃ r, ((s.core c).requests.find? fun r => r.req == req.toNat) = some r ∧ t = answerReq c { r with left := 1 } 4 0 0x0344 [] s)

/-- Memory is read and written, pages move between the tiers, and sluices fill. Each of the commands MEMORY_READ, MEMORY_WRITE, BULK_LINK_DOWN,
BULK_LINK_UP, BUFFER_WAYS_WRITE, HEAT_EPOCH, HEAT_MOVE, HEAT_MOVE_DONE, SLUICE_PREFETCH, SLUICE_FILL_START, SLUICE_FILL_DONE, RESOURCE_DONE,
RESOURCE_TIMEOUT completes: for every state and all operands of which its hypothesis holds (the can definition of Safety.lean named after
the command, which speaks of the state and the operands alone; none where none stands), exec answers a next state, and in it holds what the
command's clause states. Where a clause rests on a choice or reading of the model, the docstring of the command's meaning names the log
entry. -/
def Obligations.MemoryCommandsComplete : Prop :=
  -- MEMORY_READ (R237)
  (∀ (part : Fin 64) (addr : BitVec 64) (hint : CacheHint) (agent : MemAgent) (s : State), canMemoryRead part addr hint agent s = true → Runs (.memoryRead part addr hint agent) s fun t =>
    ∃ b, readsData s part addr.toNat 64 = some b ∧ t = (s.partTouch part addr.toNat 64 hint).emit (.readData (b.mapM id))) ∧
  -- MEMORY_WRITE (R631)
  (∀ (part : Fin 64) (addr : BitVec 64) (data : List Byte) (agent : MemAgent) (s : State), canMemoryWrite part addr data agent s = true → Runs (.memoryWrite part addr data agent) s fun t =>
    t = s.partStore part addr.toNat data) ∧
  -- BULK_LINK_DOWN (R245)
  (∀ (p : Fin 8) (s : State), canBulkLinkDown p s = true → Runs (.bulkLinkDown p) s fun t =>
    t.reg (bulkPage p) Rg.bulkPortStatusLinkUp = 0 ∧ t.reg (bulkPage p) Rg.bulkPortStatusWidth = 0 ∧ t.reg (bulkPage p) Rg.bulkPortStatusSpeed = 0 ∧
    (s.flag (bulkPage p) Rg.bulkPortStatusInSet = true → p.val ∈ t.tier.lostPorts ∧ (t.reg (bulkPage p) Rg.pageIntStatus).testBit 1 = true) ∧ t.mem = s.mem) ∧
  -- BULK_LINK_UP (R248)
  (∀ (p : Fin 8) (width speed : Fin 4) (s : State), canBulkLinkUp p width speed s = true → Runs (.bulkLinkUp p width speed) s fun t =>
    t.reg (bulkPage p) Rg.bulkPortStatusLinkUp = 1 ∧ t.reg (bulkPage p) Rg.bulkPortStatusWidth = width ∧ t.reg (bulkPage p) Rg.bulkPortStatusSpeed = speed ∧ t.mem = s.mem) ∧
  -- BUFFER_WAYS_WRITE (R251)
  (∀ (who : Requester) (m : Fin 4) (value : BitVec 32) (s : State), canBufferWaysWrite who m value s = true → Runs (.bufferWaysWrite who m value) s fun t =>
    t.reg (msidPage m) Rg.msidBufferWaysWays = value.toNat % 65536 ∧
    (∀ w ∈ changedWays s m value, ∀ i, i < 2 ^ 23 → tabFind (bufKey m (w * 2 ^ 23) + i) t.mem.buf.cells = none) ∧
    t.mem = { s.mem with buf := t.mem.buf }) ∧
  -- HEAT_EPOCH (R258)
  (∀ (part : Fin 64) (s : State), canHeatEpoch part s = true → Runs (.heatEpoch part) s fun t =>
    t = { s with tier := { s.tier with pages := t.tier.pages }, parts := t.parts } ∧
    (tabGet {} part.val t.parts).heatAt = (tabGet {} part.val s.parts).heatAt + heatEpochNs s part ∧ t.tier.pages.map (·.1) = s.tier.pages.map (·.1) ∧
    ∀ key e, tabFind key s.tier.pages = some e → tabFind key t.tier.pages = some (if key / 2 ^ 25 = part.val ∧ !e.pinned ∧ !e.compressed then { e with heat := e.heat / 2 } else e)) ∧
  -- HEAT_MOVE (R258)
  (∀ (part : Fin 64) (s : State), canHeatMove part s = true → Runs (.heatMove part) s fun t =>
    ∃ page tier, heatChoice s part = some (page, tier) ∧ t = startMove part page tier true none s) ∧
  -- HEAT_MOVE_DONE (R258)
  (∀ (part : Fin 64) (s : State), canHeatMoveDone part s = true → Runs (.heatMoveDone part) s fun t =>
    ∃ m, tabFind part.val s.tier.moves = some m ∧ t = (finishPage part m.1 s).bump (partPage part) Rg.partHeatMovesCount) ∧
  -- SLUICE_PREFETCH (R267)
  (∀ (engine : Fin 64) (s : State), canSluicePrefetch engine s = true → Runs (.sluicePrefetch engine) s fun t =>
    ∃ r h src len, sluiceAt s engine 0 = some (r, h, src, len) ∧
    (sluiceTakes s r h.pace = true → t = nextEntry engine { r with granted := false } h ((sluiceTaken s r h.pace).partTouch r.part src len .keep)) ∧
    (∀ n, sluiceQueues s r h.pace = some n → (t.sem n).waiters = (s.sem n).waiters ++ [.sluice engine] ∧ (t.sem n).count = (s.sem n).count ∧
      tabFind engine.val t.tier.sluices = some { r with waits := some n } ∧ t.mem = s.mem)) ∧
  -- SLUICE_FILL_START (R267)
  (∀ (engine : Fin 64) (s : State), canSluiceFillStart engine s = true → Runs (.sluiceFillStart engine) s fun t =>
    ∃ r h src len, sluiceAt s engine 1 = some (r, h, src, len) ∧
    (sluiceTakes s r (h.freeBase + r.fills % h.slots) = true →
      t = setSluice engine { r with granted := false, filling := true, fillAt := s.now, unit := 0 } ((sluiceTaken s r (h.freeBase + r.fills % h.slots)).partTouch r.part src len)) ∧
    (∀ n, sluiceQueues s r (h.freeBase + r.fills % h.slots) = some n → (t.sem n).waiters = (s.sem n).waiters ++ [.sluice engine] ∧ (t.sem n).count = (s.sem n).count ∧
      tabFind engine.val t.tier.sluices = some { r with waits := some n } ∧ t.mem = s.mem)) ∧
  -- SLUICE_FILL_DONE (R268)
  (∀ (engine : Fin 64) (s : State), canSluiceFillDone engine s = true → Runs (.sluiceFillDone engine) s fun t =>
    ∃ r h src len b gate, sluiceAt s engine 1 = some (r, h, src, len) ∧ s.partBytesAll r.part src len = some b ∧ partSem s r.part (h.gateBase + r.fills % max 1 h.slots) = some gate ∧
    (rangeClear s r.part (fillSlot h r) len = true → t = nextEntry engine { r with fills := r.fills + 1 } h (addCount gate h.consumers (s.partStore r.part (fillSlot h r) b))) ∧
    (rangeClear s r.part (fillSlot h r) len = false → t = s.partStore r.part (fillSlot h r) b)) ∧
  -- RESOURCE_DONE (R272)
  (∀ (part : Fin 64) (unit : BitVec 64) (source : ReplicaSource) (data : List Byte) (writeFails : Bool) (s : State), canResourceDone part unit source data writeFails s = true → Runs (.resourceDone part unit source data writeFails) s fun t =>
    ∃ i o, objectAt s part unit.toNat = some (i, o) ∧
    ((if o.compressed then decodeStored o data else some (data.take 4096)) = none → t = loseUnit part unit.toNat s) ∧
    (∀ good, (if o.compressed then decodeStored o data else some (data.take 4096)) = some good →
      (writeFails = true → tabFind (unitOf s part unit.toNat) t.tier.units = some (.ready good (List.range ((good.length + 63) / 64))) ∧ t.mem = s.mem) ∧
      (writeFails = false → tabFind (unitOf s part unit.toNat) t.tier.units = none ∧
        t.mem = (ownWrite part (storedPlace (s.bump (partPage part) Rg.partResourceCountResourced) part unit.toNat o)
          (if o.compressed then data else data.take 4096) (s.bump (partPage part) Rg.partResourceCountResourced)).mem))) ∧
  -- RESOURCE_TIMEOUT (R273)
  (∀ (part : Fin 64) (unit : BitVec 64) (error : Bool) (s : State), canResourceTimeout part unit error s = true → Runs (.resourceTimeout part unit error) s fun t =>
    t = loseUnit part unit.toNat s ∧ tabFind (unitOf s part unit.toNat) t.tier.units = some .lost ∧ t.mem = s.mem)

/-- Objects are declared, released, moved, loaded and filled; sluices start and stop. Each of the commands OBJECT_DECLARE, OBJECT_RELEASE,
OBJECT_MOVE, OBJECT_PAGE_MOVED, LOAD_OBJECT, FILL, SLUICE_START, SLUICE_STOP, TWIN_COPY_STALE completes: for every state and all operands of
which its hypothesis holds (the can definition of Safety.lean named after the command, which speaks of the state and the operands alone;
none where none stands), exec answers a next state, and in it holds what the command's clause states. Where a clause rests on a choice or
reading of the model, the docstring of the command's meaning names the log entry. -/
def Obligations.ObjectCommandsComplete : Prop :=
  -- OBJECT_DECLARE (R254)
  (∀ (q : CmdRef) (data : HostData) (s : State), canObjectDeclare q data s = true → Runs (.objectDeclare q data) s fun t =>
    ∃ c b, startedCmd s q [0x10] true = some c ∧ cmdData s c data 64 = some b ∧
    t = complete c 0 0 (declareObject c.part (BitVec.ofNat 512 (leNat b)) (dataState c 64 b s)).2 ∧
    tabFind (objKey c.part (dField (BitVec.ofNat 512 (leNat b)) 0 0 16)) (declareObject c.part (BitVec.ofNat 512 (leNat b)) (dataState c 64 b s)).2.tier.objects =
      some (objectRec (BitVec.ofNat 512 (leNat b)))) ∧
  -- OBJECT_RELEASE (R256)
  (∀ (q : CmdRef) (object : BitVec 16) (s : State), canObjectRelease q object s = true → Runs (.objectRelease q object) s fun t =>
    ∃ c o, startedCmd s q [0x11] true = some c ∧ objectFree (startedState c s) c.part object.toNat = some o ∧
    t = complete c 0 0 (dropObject c.part object.toNat o (startedState c s)) ∧
    tabFind (objKey c.part object.toNat) (dropObject c.part object.toNat o (startedState c s)).tier.objects = none) ∧
  -- OBJECT_MOVE (R256)
  (∀ (q : CmdRef) (object : BitVec 16) (tier : Fin 4) (s : State), canObjectMove q object tier s = true → Runs (.objectMove q object tier) s fun t =>
    ∃ c o, startedCmd s q [0x12] true = some c ∧ objectMovable (startedState c s) c.part object.toNat tier = some o ∧
    (tier.val = o.tier → t = complete c 0 0 (startedState c s)) ∧
    (tier.val ≠ o.tier → ∀ page, nextToMove (startedState c s) c.part object.toNat tier = some page →
      t = startMove c.part page tier false (some (sqKey c.sq, c.id.toNat)) (markStarted c (startedState c s))) ∧
    (tier.val ≠ o.tier → nextToMove (startedState c s) c.part object.toNat tier = none → ∃ u, t = complete c 0 0 u ∧ u.mem = (startedState c s).mem ∧
      tabFind (objKey c.part object.toNat) u.tier.objects = some { o with tier := tier })) ∧
  -- OBJECT_PAGE_MOVED (R256)
  (∀ (part : Fin 64) (s : State), canObjectPageMoved part s = true → Runs (.objectPageMoved part) s fun t =>
    ∃ m cmd, tabFind part.val s.tier.moves = some (m, cmd) ∧
    (copyHeld s part m.page ≠ [] → t = s.each (copyHeld s part m.page) (touchPart .allocate part)) ∧
    (copyHeld s part m.page = [] →
    (∀ page, nextToMove (finishPage part m s) part m.object m.tier = some page → t = startMove part page m.tier false cmd (finishPage part m s)) ∧
    (nextToMove (finishPage part m s) part m.object m.tier = none → ∃ u, t = moveComplete cmd u ∧ u.mem = (finishPage part m s).mem ∧
      ∀ o, tabFind (objKey part m.object) (finishPage part m s).tier.objects = some o → tabFind (objKey part m.object) u.tier.objects = some { o with tier := m.tier }))) ∧
  -- LOAD_OBJECT (R255)
  (∀ (q : CmdRef) (kind : LoadKind) (data : HostData) (s : State), canLoadObject q kind data s = true → Runs (.loadObject q kind data) s fun t =>
    ∃ c b, startedCmd s q [0x13] true = some c ∧ cmdData s c data (cmdLen c) = some b ∧
    (∀ i, kind = .object i → t = startLong c (cmdLen c) b (dataState c (cmdLen c) b s) 0 i.toNat) ∧
    (∀ n, kind = .coreProgram n → t = startLong c (cmdLen c) b (dataState c (cmdLen c) b s) 1 n.val) ∧
    (∀ n, kind = .sigcProgram n → t = startLong c (cmdLen c) b (dataState c (cmdLen c) b s) 2 n.val)) ∧
  -- FILL (R276)
  (∀ (q : CmdRef) (target : FillTarget) (pattern : BitVec 64) (s : State), canFill q target pattern s = true → Runs (.fill q target pattern) s fun t =>
    ∃ c, startedCmd s q [0x14] true = some c ∧
    (∀ a n, target = .range a n → t = if n = 0 then complete c 0 0 (startedState c s) else startLong c n.toNat (toBytes 8 pattern.toNat) (startedState c s) 0 0 a.toNat) ∧
    (∀ m, target = .core m → t = startLong c (2 ^ 22) (toBytes 8 pattern.toNat) (startedState c s) 1 m.val) ∧
    (∀ m, target = .sigc m → t = startLong c (2 ^ 19) (toBytes 8 pattern.toNat) (startedState c s) 2 m.val)) ∧
  -- SLUICE_START (R266)
  (∀ (q : CmdRef) (list : BitVec 64) (s : State), canSluiceStart q list s = true → Runs (.sluiceStart q list) s fun t =>
    ∃ c e u, startedCmd s q [0x15] true = some c ∧ freeEngine (startedState c s) = some e ∧ t = complete c 0 0 u ∧
    tabFind e u.tier.sluices = some { part := c.part, list := list.toNat }) ∧
  -- SLUICE_STOP (R267)
  (∀ (q : CmdRef) (list : BitVec 64) (s : State), canSluiceStop q list s = true → Runs (.sluiceStop q list) s fun t =>
    ∃ c e r u, startedCmd s q [0x16] true = some c ∧ (startedState c s).tier.sluices.find? (fun e => e.2.part == c.part && e.2.list == list.toNat) = some (e, r) ∧
    t = complete c 0 0 u ∧ tabFind e u.tier.sluices = none ∧ (r.filling = false → u = dropSluices (fun n _ => n == e) (startedState c s))) ∧
  -- TWIN_COPY_STALE (R539)
  (∀ (k : Fin 64) (object : BitVec 16) (q : CmdRef) (s : State), canTwinCopyStale k object q s = true → Runs (.twinCopyStale k object q) s fun t =>
    ∃ l, longOf s q.sq q.id = some l ∧ t = endLong l 0 { s with twin := { s.twin with stale := s.twin.stale ++ [objKey k object.toNat] } })

/-- Partitions are enabled, resized, exported and imported, and functions are reset. Each of the commands PART_ENABLE, RESIZE_START,
RESIZE_DONE, ALLOT_WRITE, DIRTY_ATOMIC_COMPLETION, EXPORT_STATE, LOAD_OBJECT_STATE, DELETE_CQ, FLR_VF, FLR_PF completes: for every state and
all operands of which its hypothesis holds (the can definition of Safety.lean named after the command, which speaks of the state and the
operands alone; none where none stands), exec answers a next state, and in it holds what the command's clause states. Where a clause rests
on a choice or reading of the model, the docstring of the command's meaning names the log entry. -/
def Obligations.PartitionCommandsComplete : Prop :=
  -- PART_ENABLE (R352)
  (∀ (who : Requester) (k : Fin 64) (s : State), canPartEnable who k s = true → Runs (.partEnable who k) s fun t =>
    t = enableNow k 0 s) ∧
  -- RESIZE_START (R376)
  (∀ (who : Requester) (k : Fin 64) (s : State), canResizeStart who k s = true → Runs (.resizeStart who k) s fun t =>
    t.reg (partPage k) Rg.partResizeBusy = 1 ∧ (tabGet {} k.val t.parts).resize.isSome) ∧
  -- RESIZE_DONE (R376)
  (∀ (k : Fin 64) (s : State), canResizeDone k s = true → Runs (.resizeDone k) s fun t =>
    ∃ m g, (tabGet {} k.val s.parts).resize = some (m, g) ∧ (tabGet {} k.val t.parts).resize = none ∧
    t = (setBudgets (setFloor k ((modPart k (fun x => { x with resize := none }) (setOwned k 5 Rg.partCoreMaskCores (maskCores m) s)).setReg (partPage k) Rg.partResizeBusy 0
      |>.setReg (partPage k) Rg.partResizeResult 0))).raise (partPage k) 1) ∧
  -- ALLOT_WRITE (R377)
  (∀ (who : Requester) (k : Fin 64) (bulk : Bool) (value : BitVec 32) (s : State), canAllotWrite who k bulk value s = true → Runs (.allotWrite who k bulk value) s fun t =>
    t = s.setReg (partPage k) (allotField bulk) value.toNat) ∧
  -- DIRTY_ATOMIC_COMPLETION (R379)
  (∀ (k : Fin 64) (ok : Bool) (s : State), canDirtyAtomicCompletion k ok s = true → Runs (.dirtyAtomicCompletion k ok) s fun t =>
    t.reg (partPage k) Rg.partDirtyControlEnable = 0 ∧ t.reg (partPage k) Rg.partDirtyControlAtomicFail = 1 ∧ t.mem = s.mem) ∧
  -- EXPORT_STATE (R380)
  (∀ (q : CmdRef) (s : State), canExportState q s = true → Runs (.exportState q) s fun t =>
    ∃ c, startedCmd s q [0x40] true = some c ∧ (tabGet {} c.part t.parts).exported = true ∧
    (∃ l, t.host.longs = (startedState c s).host.longs ++ [l] ∧ l.cmd = { c with started := true } ∧ l.unit = c.field 0x18 0 3)) ∧
  -- LOAD_OBJECT_STATE (R381)
  (∀ (q : CmdRef) (data : HostData) (s : State), canLoadObjectState q data s = true → Runs (.loadObjectState q data) s fun t =>
    ∃ c slot b, startedCmd s q [0x13] true = some c ∧ tabFind (c.field 0x18 0 3) s.mgmt.keySlots = some slot ∧ cmdData s c data (cmdLen c) = some b ∧
    (∀ blob, Config.blobOpen slot.key slot.peer b = some blob → blobFits (dataState c (cmdLen c) b s) c.part blob = true →
      enableRefused ((dataState c (cmdLen c) b s).setReg (partPage c.part) Rg.partConfigKind (blobReg blob Rg.partConfigKind)) c.part = none → t = startLong c b.length b (dataState c (cmdLen c) b s) 3 (c.field 0x18 0 3)) ∧
    (Config.blobOpen slot.key slot.peer b = none → t = complete c 0x0503 0 (dataState c (cmdLen c) b s))) ∧
  -- DELETE_CQ (R391)
  (∀ (q : CmdRef) (s : State), canDeleteCq q s = true → Runs (.deleteCq q) s fun t =>
    ∃ c, startedCmd s q [0x05] false = some c ∧ t = complete c 0 0 (deleteCqState (.num (Fin.ofNat 262144 (c.field 0x18 0 18))) (startedState c s))) ∧
  -- FLR_VF (R414)
  (∀ (fn : Fin 256) (s : State), canFlrVf fn s = true → Runs (.flrVf fn) s fun t =>
    t = flrVf fn s ∧ (∀ e ∈ t.host.msix, e.1 / 4096 ≠ fn) ∧ (∀ v ∈ t.host.vectorPending, v / 4096 ≠ fn)) ∧
  -- FLR_PF (R415)
  (∀ (s : State), canFlrPf s = true → Runs .flrPf s fun t =>
    t.reg hostPage Rg.hostAdminControlEnable = 0 ∧ t.reg hostPage Rg.hostAdminControlReady = 0)

/-- Power, reset, bring-up, clock loss, the thermal trip and the supplies: each event has its effect. Each of the commands POWER_ON,
SUPPLY_DROP, RESET_ACCEPT, RESET_RELEASE, BRINGUP_START, REFCLK_A_PRESENT, HOT_WAIT_END, BRINGUP_DONE, REFCLK_A_LOSS, THERMAL_TRIP,
VDD_CORE_STEP_UP, VDD_CORE_POLICY, AVS_TRANSACTION, VBAT_LOW completes: for every state and all operands of which its hypothesis holds (the
can definition of Safety.lean named after the command, which speaks of the state and the operands alone; none where none stands), exec
answers a next state, and in it holds what the command's clause states. Where a clause rests on a choice or reading of the model, the
docstring of the command's meaning names the log entry. -/
def Obligations.PowerAndResetComplete : Prop :=
  -- POWER_ON (R588)
  (∀ (vbatHeld : Bool) (s : State), canPowerOn vbatHeld s = true → Runs (.powerOn vbatHeld) s fun t =>
    t.plat.phase = .inReset ∧ t.reg rsetPage Rg.rsetResetCauseCause = 1 ∧ t.reg rsetPage Rg.rsetResetCauseVbatFresh = bit (!vbatHeld) ∧
    t.reg rsetPage Rg.rsetResetCountCount = (if vbatHeld then (s.reg rsetPage Rg.rsetResetCountCount + 1) % 2 ^ 32 else 1) ∧ t.fuses = s.fuses ∧ t.cores = []) ∧
  -- SUPPLY_DROP (R603)
  (∀ (rail : Rail) (ns : Nat) (s : State), canSupplyDrop rail ns s = true → Runs (.supplyDrop rail ns) s fun t =>
    t.plat.phase = .railsDown ∧ t.plat.dropped = true ∧ t.host.linkUp = false ∧ t.regs = s.regs ∧ t.mem = s.mem) ∧
  -- RESET_ACCEPT (R590)
  (∀ (lowNs : Nat) (sinceReleaseNs : Option Nat) (arb : Bool) (s : State), canResetAccept lowNs sinceReleaseNs arb s = true → Runs (.resetAccept lowNs sinceReleaseNs arb) s fun t =>
    t.plat.phase = .inReset ∧ t.reg rsetPage Rg.rsetResetCauseCause = 2 ∧ t.fuses = s.fuses ∧ t.cores = [] ∧ t.host = {} ∧
    t.reg rsetPage Rg.rsetResetCountCount = (s.reg rsetPage Rg.rsetResetCountCount + 1) % 2 ^ 32) ∧
  -- RESET_RELEASE (R590)
  (∀ (netHigh : Bool) (s : State), canResetRelease netHigh s = true → Runs (.resetRelease netHigh) s fun t =>
    t.plat.phase = (if netHigh then .released else .netLow) ∧ t.regs = s.regs) ∧
  -- BRINGUP_START (R593)
  (∀ (env : BringEnv) (s : State), canBringupStart env s = true → Runs (.bringupStart env) s fun t =>
    t.plat.phase = .bringup ∧ t.reg rsetPage Rg.rsetBringupStep = (if env.refclk && env.cool then 4 else 1)) ∧
  -- REFCLK_A_PRESENT (R593)
  (∀ (s : State), canRefclkAPresent s = true → Runs .refclkAPresent s fun t =>
    t.plat.waitRefclk = false ∧ (s.plat.waitHot = false → t.reg rsetPage Rg.rsetBringupStep = 4 ∧ t.time = {}) ∧
    (s.plat.waitHot = true → t.reg rsetPage Rg.rsetBringupRefclkOk = 1 ∧ t.time = s.time)) ∧
  -- HOT_WAIT_END (R593)
  (∀ (s : State), canHotWaitEnd s = true → Runs .hotWaitEnd s fun t =>
    t.plat.waitHot = false ∧ (s.plat.waitRefclk = false → t.reg rsetPage Rg.rsetBringupStep = 4 ∧ t.time = {}) ∧
    (s.plat.waitRefclk = true → t.reg rsetPage Rg.rsetBringupHotWait = 0 ∧ t.time = s.time)) ∧
  -- BRINGUP_DONE (R593)
  (∀ (s : State), canBringupDone s = true → Runs .bringupDone s fun t =>
    t.plat.phase = .running ∧ t.reg rsetPage Rg.rsetBringupDone = 1 ∧ t.reg rsetPage Rg.rsetBringupStep = 0 ∧ t.plat.env = none) ∧
  -- REFCLK_A_LOSS (R37)
  (∀ (s : State), canRefclkALoss s = true → Runs .refclkALoss s fun t =>
    t.plat.clockHold = true ∧ t.mem.hbm = {} ∧ t.host.linkUp = false ∧ t.reg rsetPage Rg.rsetBringupRefclkOk = 0 ∧ t.cores = s.cores) ∧
  -- THERMAL_TRIP (R585)
  (∀ (die : Fin 10) (degrees : Nat) (s : State), Runs (.thermalTrip die degrees) s fun t =>
    tabGet 0 die.val t.plat.junctions = degrees ∧
    (degrees ≥ 115 → s.plat.phase ≠ .railsDown → t.plat.thermN = true ∧ (s.working = true → t.plat.thermalHold = true)) ∧
    (degrees < 115 → t.plat.thermN = s.plat.thermN ∧ t.plat.thermalHold = s.plat.thermalHold ∧ t.out = s.out)) ∧
  -- VDD_CORE_STEP_UP (R30)
  (∀ (die : Fin 4) (s : State), canVddCoreStepUp die s = true → Runs (.vddCoreStepUp die) s fun t =>
    t.out = s.out ++ [.avs die.val (max 600 (min 850 ((vddRequested s die.val + 5) / 5 * 5)))] ∧ t.plat.stepDue = s.plat.stepDue.erase die.val) ∧
  -- VDD_CORE_POLICY (R584)
  (∀ (die : Fin 4) (mvPower : Nat) (mvRate : Nat) (mvFloor : Nat) (s : State), canVddCorePolicy die mvPower mvRate mvFloor s = true → Runs (.vddCorePolicy die mvPower mvRate mvFloor) s fun t =>
    t.regs = s.regs ∧ ∃ v, t.out = s.out ++ [.avs die.val v] ∧ 600 ≤ v ∧ v ≤ 850 ∧ v % 5 = 0 ∧ tabGet 0 die.val t.plat.vddRequest = v ∧
    (belowFloorAllowed s die.val = false → 680 ≤ v) ∧
    (vddRequested s die.val % 5 = 0 → vddRequested s die.val ≤ 850 → v < vddRequested s die.val → v + 5 = vddRequested s die.val ∧
      tabFind die.val t.plat.loweredAt = some s.now ∧ ∀ at_, tabFind die.val s.plat.loweredAt = some at_ → s.now ≥ at_ + 1000000)) ∧
  -- AVS_TRANSACTION (R604)
  (∀ (die : Fin 4) (mv : Nat) (ok : Bool) (s : State), canAvsTransaction die mv ok s = true → Runs (.avsTransaction die mv ok) s fun t =>
    (ok = true → tabGet 750 die.val t.plat.vddCore = mv ∧ tabFind die.val t.plat.avsFails = none) ∧
    (ok = false → tabGet 0 die.val s.plat.avsFails < 2 → tabGet 0 die.val t.plat.avsFails = tabGet 0 die.val s.plat.avsFails + 1 ∧ t.regs = s.regs) ∧
    (ok = false → tabGet 0 die.val s.plat.avsFails ≥ 2 → (t.reg rsetPage Rg.rsetSupplyStatusAvsFault).testBit die.val = true ∧
      tabFind die.val t.plat.avsFails = none ∧ vddRequested t die.val = vddOf s die.val)) ∧
  -- VBAT_LOW (R609)
  (∀ (low : Bool) (s : State), canVbatLow low s = true → Runs (.vbatLow low) s fun t =>
    t.reg rsetPage Rg.rsetSupplyStatusVbatLow = bit low ∧
    (low = true → s.flag rsetPage Rg.rsetSupplyStatusVbatLow = false → (t.reg rsetPage Rg.pageIntStatus).testBit 2 = true) ∧ t.plat = s.plat)

/-- Doorbells are taken, entries are fetched, and NOP and CANCEL complete. Each of the commands SQ_TAIL_DOORBELL, CQ_HEAD_DOORBELL,
ADMIN_QUEUE_ENABLE, SQ_ENTRY_FETCH, NOP, CANCEL completes: for every state and all operands of which its hypothesis holds (the can
definition of Safety.lean named after the command, which speaks of the state and the operands alone; none where none stands), exec answers a
next state, and in it holds what the command's clause states. Where a clause rests on a choice or reading of the model, the docstring of the
command's meaning names the log entry. -/
def Obligations.DoorbellsAndFetchComplete : Prop :=
  -- SQ_TAIL_DOORBELL (R399)
  (∀ (fn : Fin 256) (sq : SqRef) (low : BitVec 32) (secure : Bool) (s : State), canSqTailDoorbell fn sq low secure s = true → Runs (.sqTailDoorbell fn sq low secure) s fun t =>
    ∃ x, s.sq sq = some x ∧ t = s.setSq sq { x with tail := low.toNat % 65536, arrivals := x.arrivals ++ List.replicate ((low.toNat % 65536 + x.depth - x.tail) % x.depth) s.now }) ∧
  -- CQ_HEAD_DOORBELL (R401)
  (∀ (fn : Fin 256) (sq : SqRef) (high : BitVec 32) (secure : Bool) (s : State), canCqHeadDoorbell fn sq high secure s = true → Runs (.cqHeadDoorbell fn sq high secure) s fun t =>
    ∃ x y, s.sq sq = some x ∧ s.cq x.cq = some y ∧
    (((high.toNat % 65536 + y.depth - y.head) % y.depth > 0 ∧ (y.signalled + y.depth - y.head) % y.depth ≤ (high.toNat % 65536 + y.depth - y.head) % y.depth →
      t = s.setCq x.cq { y with head := high.toNat % 65536, unsignalled := 0, oldest := s.now }) ∧
     (¬((high.toNat % 65536 + y.depth - y.head) % y.depth > 0 ∧ (y.signalled + y.depth - y.head) % y.depth ≤ (high.toNat % 65536 + y.depth - y.head) % y.depth) →
      t = s.setCq x.cq { y with head := high.toNat % 65536 }))) ∧
  -- ADMIN_QUEUE_ENABLE (R419)
  (∀ (who : Requester) (on : Bool) (s : State), canAdminQueueEnable who on s = true → Runs (.adminQueueEnable who on) s fun t =>
    t.reg hostPage Rg.hostAdminControlEnable = bit on ∧ t.reg hostPage Rg.hostAdminControlReady = bit on ∧ (t.sq .admin).isSome = on ∧ (t.cq .admin).isSome = on) ∧
  -- SQ_ENTRY_FETCH (R392)
  (∀ (admin : Bool) (entry : BitVec 512) (s : State), canSqEntryFetch admin entry s = true → Runs (.sqEntryFetch admin entry) s fun t =>
    (admin = true → ∃ x, s.sq .admin = some x ∧ t = fetchFrom .admin x entry s) ∧
    (admin = false → ∃ cls n left x, pickSq s = some (cls, n, left) ∧ tabFind n s.host.sqs = some x ∧
      t = fetchFrom (.num (Fin.ofNat 1048576 n)) x entry { s with host := { s.host with turns := tabSet cls (n, left) s.host.turns } })) ∧
  -- NOP (R398)
  (∀ (q : CmdRef) (s : State), canNop q s = true → Runs (.nop q) s fun t =>
    ∃ c, startedCmd s q [0x00] false = some c ∧ t = complete c 0 0 (startedState c s)) ∧
  -- CANCEL (R407)
  (∀ (q : CmdRef) (cancelFirst : Bool) (s : State), canCancel q cancelFirst s = true → Runs (.cancel q cancelFirst) s fun t =>
    ∃ c, startedCmd s q [0x01] false = some c ∧
    (∀ l, longOf (startedState c s) c.sq (BitVec.ofNat 16 (c.field 0x18 0 16)) = some l → t = complete c 0 0 (setLong { l with cancelled := true } (startedState c s))) ∧
    (longOf (startedState c s) c.sq (BitVec.ofNat 16 (c.field 0x18 0 16)) = none → ∃ d, cmdOp d ≠ 0x43 ∧ t = complete c 0 0 (complete d 0x0107 0 (startedState c s))))

/-- Queues are created and deleted, completions written, interrupts coalesced and unmasked. Each of the commands CREATE_SQ, CREATE_CQ,
DELETE_SQ, COMPLETION_WRITE, CQ_COALESCE_TIMER, MSIX_VECTOR_UNMASK completes: for every state and all operands of which its hypothesis holds
(the can definition of Safety.lean named after the command, which speaks of the state and the operands alone; none where none stands), exec
answers a next state, and in it holds what the command's clause states. Where a clause rests on a choice or reading of the model, the
docstring of the command's meaning names the log entry. -/
def Obligations.QueuesAndCompletionsComplete : Prop :=
  -- CREATE_SQ (R390)
  (∀ (q : CmdRef) (s : State), canCreateSq q s = true → Runs (.createSq q) s fun t =>
    ∃ c x, startedCmd s q [0x02] false = some c ∧ x.head = 0 ∧ x.tail = 0 ∧ x.depth = c.field 0x20 0 17 ∧ x.base = c.field 0x28 0 64 ∧ x.cls = c.field 0x18 20 2 ∧
    x.weight = c.field 0x18 24 8 ∧ x.cq = .num (Fin.ofNat 262144 (c.field 0x1C 0 18)) ∧
    t = complete c 0 0 ((startedState c s).setSq (.num (Fin.ofNat 1048576 (c.field 0x18 0 20))) x)) ∧
  -- CREATE_CQ (R390)
  (∀ (q : CmdRef) (s : State), canCreateCq q s = true → Runs (.createCq q) s fun t =>
    ∃ c x, startedCmd s q [0x03] false = some c ∧ x.head = 0 ∧ x.tail = 0 ∧ x.depth = c.field 0x20 0 17 ∧ x.base = c.field 0x28 0 64 ∧ x.phase = true ∧ x.vector = c.field 0x1C 0 12 ∧
    t = complete c 0 0 ((startedState c s).setCq (.num (Fin.ofNat 262144 (c.field 0x18 0 18))) x)) ∧
  -- DELETE_SQ (R391)
  (∀ (q : CmdRef) (s : State), canDeleteSq q s = true → Runs (.deleteSq q) s fun t =>
    ∃ c, startedCmd s q [0x04] false = some c ∧ t = complete c 0 0 (deleteSqState (.num (Fin.ofNat 1048576 (c.field 0x18 0 20))) (startedState c s))) ∧
  -- COMPLETION_WRITE (R402)
  (∀ (cq : CqRef) (translates : Bool) (s : State), canCompletionWrite cq translates s = true → Runs (.completionWrite cq translates) s fun t =>
    ∃ y e rest, s.cq cq = some y ∧ y.waiting = e :: rest ∧ t = writeEntry cq { y with waiting := rest } e s) ∧
  -- CQ_COALESCE_TIMER (R408)
  (∀ (cq : CqRef) (s : State), canCqCoalesceTimer cq s = true → Runs (.cqCoalesceTimer cq) s fun t =>
    ∃ y, s.cq cq = some y ∧ t = (s.setCq cq { y with unsignalled := 0, signalled := y.tail }).signal true
      (cqFn (s.setCq cq { y with unsignalled := 0, signalled := y.tail }) cq) y.vector) ∧
  -- MSIX_VECTOR_UNMASK (R410)
  (∀ (fn : Fin 256) (vector : Fin 4096) (s : State), canMsixVectorUnmask fn vector s = true → Runs (.msixVectorUnmask fn vector) s fun t =>
    vectorMasked t (msixKey fn.val vector.val) = false ∧ msixKey fn.val vector.val ∉ t.host.vectorPending ∧
    (s.host.vectorPending.contains (msixKey fn.val vector.val) = true → Emission.msix fn.val vector.val ∈ t.out))

/-- Cells, slots, windows and surge claims: each radio command has its effect. Each of the commands CELL_START, CELL_STOP, SLOT, SLOT_BOUNDARY,
CAL_COOLANT_STALE, CAL_IMPORT, TIDEMARK_MISS, SLOT_COMPLETE, UPLANE_WINDOW_CLOSE, SURGE_CLAIM, SURGE_CORE_READY, CLAIM_LATE, SURGE_RETURN
completes: for every state and all operands of which its hypothesis holds (the can definition of Safety.lean named after the command, which
speaks of the state and the operands alone; none where none stands), exec answers a next state, and in it holds what the command's clause
states. Where a clause rests on a choice or reading of the model, the docstring of the command's meaning names the log entry. -/
def Obligations.RadioCommandsComplete : Prop :=
  -- CELL_START (R285)
  (∀ (q : CmdRef) (s : State), canCellStart q s = true → Runs (.cellStart q) s fun t =>
    ∃ c b r, startedCmd s q [0x30] true = some c ∧ cmdData (startedState c s) c ⟨.ok, []⟩ 256 = some b ∧ cellStarts (dataState c 256 b (startedState c s)) c.part b = some r ∧
    ∃ u, t = complete c 0 0 u ∧ tabFind r.cell (u.radioOf c.part).cells =
      some { info := r, slot := slotAt r s.now, standby := standsBy (dataState c 256 b (startedState c s)) c.part }) ∧
  -- CELL_STOP (R286)
  (∀ (q : CmdRef) (cell : Fin 384) (s : State), canCellStop q cell s = true → Runs (.cellStop q cell) s fun t =>
    ∃ c y, startedCmd s q [0x31] true = some c ∧ tabFind cell.val ((startedState c s).radioOf c.part).cells = some y ∧
    t = (markStarted c (startedState c s)).setRadio c.part { (startedState c s).radioOf c.part with cells := tabSet cell.val { y with stopping := some c } ((startedState c s).radioOf c.part).cells }) ∧
  -- SLOT (R289)
  (∀ (q : CmdRef) (data : HostData) (tasks : List SlotTask) (arb : Bool) (s : State), canSlot q data tasks arb s = true → Runs (.slot q data tasks arb) s fun t =>
    ∃ c b r, startedCmd s q [0x32] true = some c ∧ cmdData (startedState c s) c data 32 = some b ∧ slotStarts (dataState c 32 b (startedState c s)) c b tasks arb = some r ∧
    (t.radioOf c.part).slots = ((dataState c 32 b (startedState c s)).radioOf c.part).slots ++ [r] ∧ t.regs = (dataState c 32 b (startedState c s)).regs) ∧
  -- SLOT_BOUNDARY (R287)
  (∀ (k : Fin 64) (cell : Fin 384) (s : State), canSlotBoundary k cell s = true → Runs (.slotBoundary k cell) s fun t =>
    ∃ y, tabFind cell.val (s.radioOf k).cells = some y ∧
    (y.stopping = none → y.flr = false → ((s.radioOf k).slots.filter fun r => r.cell == cell.val && r.held && decide (r.index < slotAt y.info s.now)) = [] →
      t = s.setRadio k (forgetSlots cell.val (slotAt y.info s.now) { s.radioOf k with cells := tabSet cell.val { y with slot := slotAt y.info s.now } (s.radioOf k).cells })) ∧
    (∀ c, y.stopping = some c → y.flr = false → ∃ u, t = complete c 0 0 (removeCell k cell u)) ∧
    (∀ c, y.stopping = some c → y.flr = true → ∃ u, t = complete c 0x0105 0 (removeCell k cell u))) ∧
  -- CAL_COOLANT_STALE (R307)
  (∀ (k : Fin 64) (s : State), canCalCoolantStale k s = true → Runs (.calCoolantStale k) s fun t =>
    t.reg (partPage k) Rg.partRadioStatusCalState = 3 ∧ (t.reg (partPage k) Rg.pageIntStatus).testBit 17 = true ∧ t.radio = s.radio) ∧
  -- CAL_IMPORT (R305)
  (∀ (q : CmdRef) (k : Fin 64) (record : SoakRecord) (s : State), canCalImport q k record s = true → Runs (.calImport q k record) s fun t =>
    ∃ c, startedCmd s q [0x33] true = some c ∧
    (isRadio (startedState c s) k = true → record.serial = s.fuses.serial → record.steppingB0 = true →
      Config.idkVerifies s.fuses.uds 1 (Config.soakBytes { record with signature := 0 }) record.signature = true →
      (s.reg (partPage k) Rg.partRadioStatusCalState ≠ 3 ∨ (s.radioOf k).imported.contains record = false →
        ∃ u, t = complete c 0 0 u ∧ (u.radioOf k).soak = some record) ∧
      (s.reg (partPage k) Rg.partRadioStatusCalState = 3 → (s.radioOf k).imported.contains record = true → t = complete c 0 0 (startedState c s))) ∧
    (isRadio (startedState c s) k = false ∨ record.serial ≠ s.fuses.serial ∨ record.steppingB0 = false ∨
      Config.idkVerifies s.fuses.uds 1 (Config.soakBytes { record with signature := 0 }) record.signature = false → t = complete c 0x0406 0 (startedState c s))) ∧
  -- TIDEMARK_MISS (R310)
  (∀ (k : Fin 64) (cell : Fin 384) (frame : Nat) (slot : Nat) (task : Nat) (s : State), canTidemarkMiss k cell frame slot task s = true → Runs (.tidemarkMiss k cell frame slot task) s fun t =>
    ∃ r a, slotOfCell (s.radioOf k) cell frame slot = some r ∧ r.tasks[task]? = some a ∧ t = missTask k r task a s ∧ (t.reg (partPage k) Rg.pageIntStatus).testBit 16 = true) ∧
  -- SLOT_COMPLETE (R290)
  (∀ (k : Fin 64) (cell : Fin 384) (frame : Nat) (slot : Nat) (taskNs : Nat) (poisonPrbs : Nat) (s : State), canSlotComplete k cell frame slot taskNs poisonPrbs s = true → Runs (.slotComplete k cell frame slot taskNs poisonPrbs) s fun t =>
    ∃ r q, slotOfCell (s.radioOf k) cell frame slot = some r ∧ slotOfCell ((lateMissed k cell frame slot r s).radioOf k) cell frame slot = some q ∧
    ∃ u, u = ((lateMissed k cell frame slot r s).modRadio k fun x => { x with poison := addCell poisonPrbs cell x.poison }).emit
        (.slotResults k cell frame slot (slotOutcomes (((lateMissed k cell frame slot r s).modRadio k fun x => { x with poison := addCell poisonPrbs cell x.poison }).radioOf k) q) (slotPlaces q)) ∧
    t = calWindow k taskNs q.predicted (sendMirror k (completeSlot q (slotOutcome s k q poisonPrbs) (dropSlotRun k q (forgetBlocks k q.tasks u))))) ∧
  -- UPLANE_WINDOW_CLOSE (R298)
  (∀ (k : Fin 64) (cell : Fin 384) (frame : Nat) (slot : Nat) (symbol : Fin 14) (eaxc : Fin 128) (named : List Nat) (s : State), canUplaneWindowClose k cell frame slot symbol eaxc named s = true → Runs (.uplaneWindowClose k cell frame slot symbol eaxc named) s fun t =>
    ∃ y n erased missing, uplaneCloses s k cell frame slot symbol eaxc named = some (y, n, erased, missing) ∧
    (t.radioOf k).uplaneLate = addCell missing.length cell (s.radioOf k).uplaneLate ∧ (t.radioOf k).closed = (cell.val, n, symbol.val, eaxc.val) :: (s.radioOf k).closed ∧
    (∀ e, tabFind eaxc.val y.info.ingress = some e → (t.sigc e.1).events.contains 5 = true) ∧
    (∀ r, slotOfCell (s.radioOf k) cell frame slot = some r →
      (t.radioOf k).slots = (s.radioOf k).slots.map fun e => if e = r then { r with erased := r.erased ++ erased.map fun p => (symbol.val, eaxc.val, p) } else e) ∧
    (slotOfCell (s.radioOf k) cell frame slot = none → (t.radioOf k).slots = (s.radioOf k).slots)) ∧
  -- SURGE_CLAIM (R300)
  (∀ (k : Fin 64) (cell : Fin 384) (frame : Nat) (slot : Nat) (s : State), canSurgeClaim k cell frame slot s = true → Runs (.surgeClaim k cell frame slot) s fun t =>
    ∃ r, slotOfCell (s.radioOf k) cell frame slot = some r ∧
    (∀ c, idleSurge s k r.index = some c →
      t = surgeServed k cell r.index (s.setRadio k { s.radioOf k with claims := (s.radioOf k).claims ++ [⟨cell, r.index, [c], s.now, some c⟩] })) ∧
    (idleSurge s k r.index = none → ∃ c u, claimFrom k cell (surgeGroups s k) s = some (c, u) ∧
      t = u.setRadio k { s.radioOf k with claims := (s.radioOf k).claims ++ [⟨cell, r.index, [c], s.now, none⟩] })) ∧
  -- SURGE_CORE_READY (R301)
  (∀ (c : Fin 160) (s : State), canSurgeCoreReady c s = true → Runs (.surgeCoreReady c) s fun t =>
    ∃ k m, claimDue s c = some (k, m) ∧ (t.core c).lentTo = some k ∧ (t.core c).surgeFor = none ∧
    (t.radioOf k).claims = (s.radioOf k).claims.map (fun d => if d = m then { m with ready := some c.val } else d) ∧
    t.mem = (loadRadio k c s).mem) ∧
  -- CLAIM_LATE (R302)
  (∀ (c : Fin 160) (s : State), canClaimLate c s = true → Runs (.claimLate c) s fun t =>
    ∃ k cell m, claimPast s c = some (k, cell, m) ∧ (t.reg (partPage k) Rg.pageIntStatus).testBit 18 = true ∧
    t.reg (partPage k) Rg.partClaimLateCount = ((s.bump (partPage k) Rg.partClaimLateCount).raise (partPage k) 18).reg (partPage k) Rg.partClaimLateCount) ∧
  -- SURGE_RETURN (R303)
  (∀ (c : Fin 160) (s : State), canSurgeReturn c s = true → Runs (.surgeReturn c) s fun t =>
    ∃ k, (s.core c).lentTo = some k ∧
    ((s.radioOf k).claims.filter (fun m => m.ready == some c.val) = [] → t = countSurge k (giveBack c s)) ∧
    (∀ m rest, (s.radioOf k).claims.filter (fun m => m.ready == some c.val) = m :: rest →
      (rest = [] → t = countSurge k (giveBack c (s.setRadio k { s.radioOf k with claims := (s.radioOf k).claims.filter (· != m) }))) ∧
      (rest ≠ [] → t = s.setRadio k { s.radioOf k with claims := (s.radioOf k).claims.filter (· != m) })))

/-- Register reads and writes of every page complete. Each of the commands REGISTER_WRITE, REGISTER_READ_CLEAR, COUNTER_LATCH_READ,
INT_STATUS_CLEAR, INT_FORCE_WRITE completes: for every state and all operands of which its hypothesis holds (the can definition of
Safety.lean named after the command, which speaks of the state and the operands alone; none where none stands), exec answers a next state,
and in it holds what the command's clause states. Where a clause rests on a choice or reading of the model, the docstring of the command's
meaning names the log entry. -/
def Obligations.RegisterCommandsComplete : Prop :=
  -- REGISTER_WRITE (R13)
  (∀ (who : Requester) (bytes : Nat) (offset : Nat) (value : BitVec 64) (s : State), canRegisterWrite who bytes offset value s = true → Runs (.registerWrite who bytes offset value) s fun t =>
    ∃ p, pageAt offset = some p ∧
    t = afterWrite p (offset % 0x1000) (value.toNat % 2 ^ 32) s
      (s.each (fieldsOf p.kind) fun f u => writeField p (offset % 0x1000) (value.toNat % 2 ^ 32) f u)) ∧
  -- REGISTER_READ_CLEAR (R14)
  (∀ (who : Requester) (bytes : Nat) (offset : Nat) (event : Option (BitVec 32)) (s : State), canRegisterReadClear who bytes offset event s = true → Runs (.registerReadClear who bytes offset event) s fun t =>
    t = (readOne who offset event s).1.emit (.readData (some (toBytes 4 (readOne who offset event s).2)))) ∧
  -- COUNTER_LATCH_READ (R130)
  (∀ (who : Requester) (offset : Nat) (s : State), canCounterLatchRead who offset s = true → Runs (.counterLatchRead who offset) s fun t =>
    t = (readOne who (offset / 4 * 4) none s).1.emit (.readData (some (toBytes 4 (readOne who (offset / 4 * 4) none s).2)))) ∧
  -- INT_STATUS_CLEAR (R409)
  (∀ (who : Requester) (page : Page) (value : BitVec 32) (event : BitVec 32) (s : State), canIntStatusClear who page value event s = true → Runs (.intStatusClear who page value event) s fun t =>
    t.reg page Rg.pageIntStatus = ((s.reg page Rg.pageIntStatus - (s.reg page Rg.pageIntStatus &&& value.toNat)) ||| event.toNat) % 2 ^ 32 ∧
    t.cores = s.cores ∧ t.mem = s.mem) ∧
  -- INT_FORCE_WRITE (R51)
  (∀ (who : Requester) (page : Page) (value : BitVec 32) (s : State), canIntForceWrite who page value s = true → Runs (.intForceWrite who page value) s fun t =>
    t.reg page Rg.pageIntStatus = (s.reg page Rg.pageIntStatus ||| value.toNat) % 2 ^ 32 ∧ t.cores = s.cores ∧ t.mem = s.mem)

/-- SOFT_RESET, ENABLE and FREEZE of every page take effect and are reported. Each of the commands SOFT_RESET, SOFT_RESET_DONE, ENABLE_WRITE,
BLOCK_OPERATING, BLOCK_STOPPED, FREEZE_WRITE, BLOCK_FROZEN completes: for every state and all operands of which its hypothesis holds (the
can definition of Safety.lean named after the command, which speaks of the state and the operands alone; none where none stands), exec
answers a next state, and in it holds what the command's clause states. Where a clause rests on a choice or reading of the model, the
docstring of the command's meaning names the log entry. -/
def Obligations.BlockControlComplete : Prop :=
  -- SOFT_RESET (R47)
  (∀ (who : Requester) (page : Page) (value : BitVec 32) (s : State), canSoftReset who page value s = true → Runs (.softReset who page value) s fun t =>
    t = beginReset page s ∧ ((page.kind = .core ∨ page.kind = .sigc ∨ page.kind = .code ∨ page.kind = .msid ∨ page.kind = .hbmc ∨ page.kind = .aqzl ∨
      page.kind = .ethp ∨ page.kind = .shap ∨ page.kind = .polc) → t.reg page Rg.pageControlSoftReset = 1 ∧ t.reg page Rg.pageStatusResetBusy = 1 ∧
      t.reg page Rg.pageControlEnable = 0)) ∧
  -- SOFT_RESET_DONE (R47)
  (∀ (page : Page) (s : State), canSoftResetDone page s = true → Runs (.softResetDone page) s fun t =>
    (page.kind ≠ .core → t.reg page Rg.pageControlSoftReset = 0 ∧ t.reg page Rg.pageStatusResetBusy = 0) ∧
    (page.kind = .core → t = startProbe page.inst 15 ((s.setReg page Rg.pageControlSoftReset 0).setReg page Rg.pageStatusResetBusy 0)) ∧
    (page.kind = .hbmc → t.reg page Rg.pageStatusFenced = 0)) ∧
  -- ENABLE_WRITE (R627)
  (∀ (who : Requester) (page : Page) (on : Bool) (s : State), canEnableWrite who page on s = true → Runs (.enableWrite who page on) s fun t =>
    t = (if s.flag page Rg.pageControlSoftReset then storeEnable page on s else setEnable page on s) ∧ (enableFixed page.kind = true → t = s) ∧
    ((page.kind = .core ∨ page.kind = .code ∨ page.kind = .msid ∨ page.kind = .hbmc ∨ page.kind = .bulk ∨ page.kind = .fabr ∨ page.kind = .rasp ∨
      page.kind = .shap ∨ page.kind = .polc) → t.reg page Rg.pageControlEnable = bit on) ∧
    (page.kind = .part → on = true → s.partOn page.inst = false → enableRefused s page.inst = none → t = enableNow page.inst 0 s)) ∧
  -- BLOCK_OPERATING (R627)
  (∀ (page : Page) (s : State), canBlockOperating page s = true → Runs (.blockOperating page) s fun t =>
    t = s.setReg page Rg.pageStatusEnabled 1) ∧
  -- BLOCK_STOPPED (R627)
  (∀ (page : Page) (s : State), canBlockStopped page s = true → Runs (.blockStopped page) s fun t =>
    t = s.setReg page Rg.pageStatusEnabled 0) ∧
  -- FREEZE_WRITE (R627)
  (∀ (who : Requester) (page : Page) (on : Bool) (s : State), canFreezeWrite who page on s = true → Runs (.freezeWrite who page on) s fun t =>
    t = (if on then freezePage page s else thawPage page s) ∧ (on = true → t.reg page Rg.pageControlFreeze = 1) ∧
    (on = false → page.kind ≠ .part → t.reg page Rg.pageControlFreeze = 0 ∧ t.reg page Rg.pageStatusFrozen = 0)) ∧
  -- BLOCK_FROZEN (R628)
  (∀ (page : Page) (s : State), canBlockFrozen page s = true → Runs (.blockFrozen page) s fun t =>
    t = s.setReg page Rg.pageStatusFrozen 1)

/-- Destinations move between outputs, outputs drain and go down, and partitions are quenched. Each of the commands ROUTE_MOVE, ROUTE_RETURN,
OUTPUT_DOWN, DRAINED, DRAIN_TIMEOUT, QUENCH_WRITE, QUENCH completes: for every state and all operands of which its hypothesis holds (the can
definition of Safety.lean named after the command, which speaks of the state and the operands alone; none where none stands), exec answers a
next state, and in it holds what the command's clause states. Where a clause rests on a choice or reading of the model, the docstring of the
command's meaning names the log entry. -/
def Obligations.RoutingComplete : Prop :=
  -- ROUTE_MOVE (R460)
  (∀ (dest : BitVec 12) (output : Fin 8) (s : State), canRouteMove dest output s = true → Runs (.routeMove dest output) s fun t =>
    ∃ a g, routeMoves (flush s) dest.toNat output = some a ∧ freeTag (flush s) = some g ∧ t = moveDest dest.toNat a output.val false (flush s) ∧
    tabFind dest.toNat t.fabric.moves = some { output := output.val, tag := some g, back := false }) ∧
  -- ROUTE_RETURN (R459)
  (∀ (dest : BitVec 12) (s : State), canRouteReturn dest s = true → Runs (.routeReturn dest) s fun t =>
    ∃ a p g, routeReturns (flush s) dest.toNat = some (a, p) ∧ freeTag (flush s) = some g ∧ t = moveDest dest.toNat a p true (flush s) ∧
    tabFind dest.toNat t.fabric.moves = some { output := p, tag := some g, back := true }) ∧
  -- OUTPUT_DOWN (R461)
  (∀ (p : Fin 8) (s : State), canOutputDown p s = true → Runs (.outputDown p) s fun t =>
    ∃ v, t = settleDrain p (issueWanted (releaseHeld (outputItems (linkOf (flush s) p)) v)) ∧ (linkOf v p).queues = [] ∧ (linkOf v p).downHandled = true) ∧
  -- DRAINED (R461)
  (∀ (p : Fin 8) (s : State), canDrained p s = true → Runs (.drained p) s fun t =>
    t = endDrain p (flush s)) ∧
  -- DRAIN_TIMEOUT (R461)
  (∀ (p : Fin 8) (s : State), canDrainTimeout p s = true → Runs (.drainTimeout p) s fun t =>
    ∃ e, tabFind p.val s.fabric.draining = some e ∧ t = endDrain p ((flush s).error fabrPage 0x0345 0 (e.peer.getD 0))) ∧
  -- QUENCH_WRITE (R464)
  (∀ (who : Requester) (value : BitVec 64) (s : State), canQuenchWrite who value s = true → Runs (.quenchWrite who value) s fun t =>
    t = setQuench value.toNat s) ∧
  -- QUENCH (R464)
  (∀ (p : Fin 9) (part : Fin 64) (on : Bool) (s : State), canQuench p part on s = true → Runs (.quench p part on) s fun t =>
    (on = true → t = updateQuench { (flush s) with fabric := { (flush s).fabric with learned := s.fabric.learned ||| 1#64 <<< part.val } }) ∧
    (on = false → ∃ u, t = updateQuench u ∧ ¬u.fabric.learned.getLsbD part.val ∧ tabGet 0 part.val u.fabric.ignoreUntil = s.now + 10000))

/-- Scores are sent and heard, a member is voted out, isolated and admitted. Each of the commands SALT_SCORE, SALT_MESSAGE_TX, SALT_MESSAGE_RX,
EXPEL_ANNOUNCE, ISOLATION, ADMIT_WRITE, SALT_USED_EXPIRY completes: for every state and all operands of which its hypothesis holds (the can
definition of Safety.lean named after the command, which speaks of the state and the operands alone; none where none stands), exec answers a
next state, and in it holds what the command's clause states. Where a clause rests on a choice or reading of the model, the docstring of the
command's meaning names the log entry. -/
def Obligations.SalinometerComplete : Prop :=
  -- SALT_SCORE (R546)
  (∀ (s : State), canSaltScore s = true → Runs .saltScore s fun t =>
    t.reg raspPage Rg.raspSaltPartsMem = min 250 ((s.reg raspPage Rg.raspCorrectedCount - atMark s 1000000000 (·.2.1)) / 4) ∧
    t.reg raspPage Rg.raspSaltPartsLink = min 250 (50 * (s.salt.trainings - atMark s 60000000000 (·.2.2))) ∧
    (servingLows s ≠ [] → t.reg raspPage Rg.raspSaltPartsWave =
      if leastNat 0 (servingLows s) < 1550 then 250 else min 250 (2 * (100 - (leastNat 0 (servingLows s) - 1550)))) ∧
    (s.mgmt.sample.isSome = true → t.reg raspPage Rg.raspSaltPartsThermal = if hottestRead s > 105 then 250 else 25 * (10 - (105 - hottestRead s))) ∧
    t.reg raspPage Rg.raspSaltScoreScore = 1000 - (t.reg raspPage Rg.raspSaltPartsMem + t.reg raspPage Rg.raspSaltPartsLink + t.reg raspPage Rg.raspSaltPartsWave + t.reg raspPage Rg.raspSaltPartsThermal) ∧
    t.reg raspPage Rg.raspSaltScoreStale = 0 ∧ t.salt.scoredAt = some s.now ∧ t.mem = s.mem) ∧
  -- SALT_MESSAGE_TX (R547)
  (∀ (s : State), canSaltMessageTx s = true → Runs .saltMessageTx s fun t =>
    ∃ msg v, t = announceAgreed v ∧ v.out = s.out ++ [.salt msg] ∧ msg.member = Fin.ofNat 64 (ownMember s) ∧ msg.seq = s.salt.seq ∧ msg.votes = ownVotes s ∧
    (s.now ≥ max s.salt.enabledAt (s.salt.scoredAt.getD 0) + 500000000 → msg.score = 0) ∧
    (s.now < max s.salt.enabledAt (s.salt.scoredAt.getD 0) + 500000000 → msg.score = BitVec.ofNat 10 (s.reg raspPage Rg.raspSaltScoreScore)) ∧
    (msg.stale = true ↔ s.now ≥ max s.salt.enabledAt (s.salt.scoredAt.getD 0) + 10000000)) ∧
  -- SALT_MESSAGE_RX (R548)
  (∀ (msg : SaltMessage) (s : State), canSaltMessageRx msg s = true → Runs (.saltMessageRx msg) s fun t =>
    ∃ v, t = announceAgreed v ∧ tabGet [] msg.member.val v.salt.scores = (msg.score.toNat :: tabGet [] msg.member.val s.salt.scores).take 3 ∧
    tabGet 0 msg.member.val v.salt.heardAt = s.now ∧ tabFind msg.member.val v.salt.votes = some msg.votes ∧ v.regs = s.regs) ∧
  -- EXPEL_ANNOUNCE (R550)
  (∀ (member : Fin 64) (news : SaltNews) (s : State), canExpelAnnounce member news s = true → Runs (.expelAnnounce member news) s fun t =>
    (news = .expelled → t = expelHere member s) ∧ (news = .kept → t = keepMember member s) ∧ (news = .admitted → t = admitHere member s)) ∧
  -- ISOLATION (R551)
  (∀ (s : State), canIsolation s = true → Runs .isolation s fun t =>
    t = (quenchParts ((List.range 64).filter fun k => peersBeside s k (selfDevice s)) s).raise raspPage 11 ∧ (t.reg raspPage Rg.pageIntStatus).testBit 11 = true) ∧
  -- ADMIT_WRITE (R552)
  (∀ (who : Requester) (value : BitVec 32) (s : State), canAdmitWrite who value s = true → Runs (.admitWrite who value) s fun t =>
    (t.reg raspPage Rg.raspExpelledMembers).testBit (value.toNat % 64) = false ∧ t.out = s.out ++ [.announce (value.toNat % 64) .admitted] ∧
    tabFind (value.toNat % 64) t.salt.scores = none ∧ t.mem = s.mem) ∧
  -- SALT_USED_EXPIRY (R549)
  (∀ (s : State), canSaltUsedExpiry s = true → Runs .saltUsedExpiry s fun t =>
    t = announceAgreed (countUsed s))

/-- Scalar, branch, LD and ST complete with the values of their rules. Each of the commands SCALAR_INSTRUCTION, BRANCH_INSTRUCTION, LD, ST
completes: for every state and all operands of which its hypothesis holds (the can definition of Safety.lean named after the command, which
speaks of the state and the operands alone; none where none stands), exec answers a next state, and in it holds what the command's clause
states. Where a clause rests on a choice or reading of the model, the docstring of the command's meaning names the log entry. -/
def Obligations.ScalarInstructionsComplete : Prop :=
  -- SCALAR_INSTRUCTION (R135)
  (∀ (c : Fin 160) (insn : ScalarInsn) (s : State), canScalarInstruction c insn s = true → Runs (.scalarInstruction c insn) s fun t =>
    (∀ o rd ra b, insn = .op o rd ra b →
        t.core c = advance (setG rd (scalarValue o (getG (s.core c) ra) (scalarSrc (s.core c) b)) (s.core c))) ∧
    (∀ rd rc ra b, insn = .select rd rc ra b →
        t.core c = advance (setG rd (if getG (s.core c) rc != 0 then getG (s.core c) ra else scalarSrc (s.core c) b) (s.core c))) ∧
    (∀ rd ra, insn = .clz rd ra → t.core c = advance (setG rd (BitVec.ofNat 64 (clz64 (getG (s.core c) ra))) (s.core c))) ∧
    ∀ d, d ≠ c.val → t.core d = s.core d) ∧
  -- BRANCH_INSTRUCTION (R132)
  (∀ (c : Fin 160) (insn : BranchInsn) (s : State), canBranchInstruction c insn s = true → Runs (.branchInstruction c insn) s fun t =>
    (∀ k ra rb target, insn = .cond k ra rb target →
        t.core c = if branchTaken k (getG (s.core c) ra) (getG (s.core c) rb) then { s.core c with pc := pcAt target } else advance (s.core c)) ∧
    (∀ target, insn = .jump target → t.core c = { s.core c with pc := pcAt target }) ∧
    (∀ rd target, insn = .jumpLink rd target →
        t.core c = { setG rd (BitVec.ofNat 64 ((s.core c).pc + 4).toNat) (s.core c) with pc := pcAt target }) ∧
    (∀ ra, insn = .indirect ra → t.core c = { s.core c with pc := (getG (s.core c) ra).setWidth 18 }) ∧
    ∀ d, d ≠ c.val → t.core d = s.core d) ∧
  -- LD (R152)
  (∀ (place : ScalarPlace) (width : ScalarWidth) (signed : Bool) (rd : Fin 32) (s : State), canLd place width signed rd s = true → Runs (.ld place width signed rd) s fun t =>
    (∀ c ra offset, place = .core c ra offset → OthersSame (.core c) s t ∧
      t.core c = advance (setG rd (extendLoad width signed (leNat ((s.spadRead c (getG (s.core c) ra + offset).toNat (widthBytes width)).getD []))) (s.core c))) ∧
    (∀ k a pre step, placeRaw place = some (k, a, pre, step) → ∃ next at_ b, rawAt s k a pre step (widthBytes width) = some (next, at_) ∧
      readAll .dmem s.mem.dmem (dmemKey k at_) (widthBytes width) = some b ∧ OthersSame (.sigc k) s t ∧
      t.sigc k = sNext (setAK rd (extendLoad width signed (leNat b)) (setA a next (s.sigc k))))) ∧
  -- ST (R162)
  (∀ (place : ScalarPlace) (width : ScalarWidth) (rs : Fin 32) (s : State), canSt place width rs s = true → Runs (.st place width rs) s fun t =>
    (∀ c ra offset, place = .core c ra offset → OthersSame (.core c) s t ∧ t.core c = advance (s.core c) ∧
      (s.flag raspPage Rg.raspFlipControlArm = false → t.mem.spad =
        writeBytes .spad (spadKey c (getG (s.core c) ra + offset).toNat) (toBytes (widthBytes width) (getG (s.core c) rs).toNat) s.mem.spad)) ∧
    (∀ k a pre step, placeRaw place = some (k, a, pre, step) → ∃ next at_, rawAt s k a pre step (widthBytes width) = some (next, at_) ∧
      OthersSame (.sigc k) s t ∧ t.sigc k = sNext (setA a next (s.sigc k)) ∧
      (s.flag raspPage Rg.raspFlipControlArm = false → t.mem.dmem =
        writeBytes .dmem (dmemKey k at_) (toBytes (widthBytes width) (getAK (s.sigc k) rs).toNat) s.mem.dmem)))

/-- Serving groups, streams and KV ranges: each command completes. Each of the commands SERVE_GROUP, STREAM_OPEN, STREAM_CLOSE, STREAM_HOLD,
STREAM_RELEASE, STREAM_QUERY, KV_BIND, KV_RELEASE, RESHARD completes: for every state and all operands of which its hypothesis holds (the
can definition of Safety.lean named after the command, which speaks of the state and the operands alone; none where none stands), exec
answers a next state, and in it holds what the command's clause states. Where a clause rests on a choice or reading of the model, the
docstring of the command's meaning names the log entry. -/
def Obligations.ServingCommandsComplete : Prop :=
  -- SERVE_GROUP (R327)
  (∀ (q : CmdRef) (data : HostData) (s : State), canServeGroup q data s = true → Runs (.serveGroup q data) s fun t =>
    ∃ c b, startedCmd s q [0x20] true = some c ∧ cmdData s c data 128 = some b ∧
    t = complete c 0 0 ((dataState c 128 b s).setGroup c.part (recField (BitVec.ofNat 1024 (leNat b)) 0 0 3) { image := BitVec.ofNat 1024 (leNat b) })) ∧
  -- STREAM_OPEN (R319)
  (∀ (q : CmdRef) (data : HostData) (s : State), canStreamOpen q data s = true → Runs (.streamOpen q data) s fun t =>
    ∃ c b u x, startedCmd s q [0x21] true = some c ∧ cmdData s c data 256 = some b ∧ t = complete c 0 0 u ∧ u.stream (c.field 0x18 0 16) = some x ∧ x.part = c.part ∧
    x.image = BitVec.ofNat 2048 (leNat b) ∧ x.state = 1 ∧ x.position = 32 * x.prefixPages ∧ x.pages.length = x.prefixPages ∧
    x.admitNo = (dataState c 256 b s).serve.admits + 1 ∧ u.serve.admits = x.admitNo) ∧
  -- STREAM_CLOSE (R323)
  (∀ (q : CmdRef) (s : State), canStreamClose q s = true → Runs (.streamClose q) s fun t =>
    ∃ c x, startedCmd s q [0x22] true = some c ∧ streamIn (startedState c s) c 0 [(0x18, 0, 16), (0x1C, 0, 17)] = some x ∧
    (x.state = 5 → t = complete c 0 0 (startedState c s)) ∧
    (x.state ≠ 5 → x.inStep = true → t.stream (c.field 0x18 0 16) =
      some { x with closing := x.closing ++ [{ c with started := true }], keep := if x.closing.isEmpty then c.field 0x1C 0 17 else x.keep }) ∧
    (x.state ≠ 5 → x.inStep = false → ∃ y, t.stream (c.field 0x18 0 16) = some y ∧ y.state = 5 ∧ y.endReason = 4 ∧ y.closing = [])) ∧
  -- STREAM_HOLD (R319)
  (∀ (q : CmdRef) (s : State), canStreamHold q s = true → Runs (.streamHold q) s fun t =>
    ∃ c x u y, startedCmd s q [0x23] true = some c ∧ streamIn (startedState c s) c 0 [(0x18, 0, 16)] = some x ∧ t = complete c 0 0 u ∧
    u.stream (c.field 0x18 0 16) = some y ∧ (x.inStep = true → y = { x with hostNext := some true }) ∧ (x.inStep = false → y = { x with host := true, hostNext := none })) ∧
  -- STREAM_RELEASE (R319)
  (∀ (q : CmdRef) (s : State), canStreamRelease q s = true → Runs (.streamRelease q) s fun t =>
    ∃ c x u y, startedCmd s q [0x24] true = some c ∧ streamIn (startedState c s) c 0 [(0x18, 0, 16)] = some x ∧ t = complete c 0 0 u ∧
    u.stream (c.field 0x18 0 16) = some y ∧ (x.inStep = true → y = { x with hostNext := some false }) ∧ (x.inStep = false → y.host = false ∧ y.hostNext = none) ∧
    (x.inStep = false → x.resharded = true → x.kv = false → x.output = false → y.state = 4)) ∧
  -- STREAM_QUERY (R320)
  (∀ (q : CmdRef) (s : State), canStreamQuery q s = true → Runs (.streamQuery q) s fun t =>
    ∃ c, startedCmd s q [0x25] true = some c ∧ t = complete c 0 0 (writeData c (streamImage (startedState c s) (c.field 0x18 0 16)) (startedState c s))) ∧
  -- KV_BIND (R324)
  (∀ (q : CmdRef) (object : BitVec 16) (layerBytes layers : Nat) (s : State), canKvBind q object layerBytes layers s = true → Runs (.kvBind q object layerBytes layers) s fun t =>
    ∃ c o, startedCmd s q [0x17] true = some c ∧ tabFind (objKey c.part object.toNat) (startedState c s).tier.objects = some o ∧
    let p : KvPool := ⟨object.toNat, layerBytes, layers, (startedState c s).reg (partPage c.part) Rg.partKvBaseBase, o.base⟩
    t = complete c 0 0 { (startedState c s) with serve := { (startedState c s).serve with pools := tabSet c.part p (startedState c s).serve.pools } }) ∧
  -- KV_RELEASE (R326)
  (∀ (q : CmdRef) (entry : Nat) (s : State), canKvRelease q entry s = true → Runs (.kvRelease q entry) s fun t =>
    ∃ c, startedCmd s q [0x18] true = some c ∧ t = complete c 0 0 (freeEntries c.part [entry] (startedState c s)) ∧ kvUsed (freeEntries c.part [entry] (startedState c s)) entry = false) ∧
  -- RESHARD (R337)
  (∀ (q : CmdRef) (stream : BitVec 16) (group : Fin 8) (s : State), canReshard q stream group s = true → Runs (.reshard q stream group) s fun t =>
    ∃ c x, startedCmd s q [0x26] true = some c ∧ reshards (startedState c s) c.part stream.toNat group = some x ∧
    (toReshard (startedState c s) x = [] → ∃ u y, t = complete c 0 0 u ∧ u.stream stream.toNat = some y ∧ y.group = group.val ∧ y.state = 4) ∧
    (toReshard (startedState c s) x ≠ [] → t = startLong c (toReshard (startedState c s) x).length []
      ((startedState c s).setStream stream.toNat { x with op := some ⟨group.val, toReshard (startedState c s) x⟩ }) 0 stream.toNat group))

/-- Prefill and decode steps are composed and end, and a stream is resharded. Each of the commands PREFILL_STEP_COMPOSE, DECODE_STEP_COMPOSE,
SERVE_STEP_DONE, RESHARD_PAGE, RESHARD_DONE completes: for every state and all operands of which its hypothesis holds (the can definition of
Safety.lean named after the command, which speaks of the state and the operands alone; none where none stands), exec answers a next state,
and in it holds what the command's clause states. Where a clause rests on a choice or reading of the model, the docstring of the command's
meaning names the log entry. -/
def Obligations.ServingStepsComplete : Prop :=
  -- PREFILL_STEP_COMPOSE (R331)
  (∀ (k : Fin 64) (g : Fin 8) (s : State), canPrefillStepCompose k g s = true → Runs (.prefillStepCompose k g) s fun t =>
    ∃ x u, groupImage s k g = some x ∧ composeState s k (g.val, 0) = some u ∧
    ((prefillBatch u k g x).2 = [] → t.serve = (prefillBatch u k g x).1.serve) ∧
    ((prefillBatch u k g x).2 ≠ [] →
      t.serve = ((prefillBatch u k g x).1.setGroup k g { (groupImage (prefillBatch u k g x).1 k g).getD x with prefill := some (prefillBatch u k g x).2 }).serve ∧
      ∀ y, ((prefillBatch u k g x).2.head?.bind fun e => (prefillBatch u k g x).1.stream e.1) = some y → ∀ c ∈ groupCores x false, (t.core c).serving = true)) ∧
  -- DECODE_STEP_COMPOSE (R331)
  (∀ (k : Fin 64) (g : Fin 8) (mb : Fin 64) (s : State), canDecodeStepCompose k g mb s = true → Runs (.decodeStepCompose k g mb) s fun t =>
    ∃ x u, groupImage s k g = some x ∧ composeState s k (g.val, mb.val + 1) = some u ∧
    ((decodeBatch u k g mb x).2 = [] → t.serve = (decodeBatch u k g mb x).1.serve) ∧
    ((decodeBatch u k g mb x).2 ≠ [] → t.serve = ((decodeBatch u k g mb x).1.setGroup k g { (groupImage (decodeBatch u k g mb x).1 k g).getD x with decode := tabSet mb.val (decodeBatch u k g mb x).2 ((groupImage (decodeBatch u k g mb x).1 k g).getD x).decode, last := (decodeBatch u k g mb x).2.length }).serve ∧
      ∀ y, ((decodeBatch u k g mb x).2.head?.bind fun n => (decodeBatch u k g mb x).1.stream n) = some y → ∀ c ∈ groupCores x true, (t.core c).serving = true)) ∧
  -- SERVE_STEP_DONE (R321)
  (∀ (k : Fin 64) (g : Fin 8) (step : ServeStep) (rows : List LogitRow) (s : State), canServeStepDone k g step rows s = true → Runs (.serveStepDone k g step rows) s fun t =>
    ∃ x, groupImage s k g = some x ∧
    (∀ batch, step = .prefill → x.prefill = some batch → (∀ c ∈ groupCores x false, (t.core c).serving = false) ∧
      t = watchKv k (fun u => leaveStep (groupCores x false) ((writePrefill x batch u).each batch prefillEnd)) (s.setGroup k g { x with prefill := none })) ∧
    (∀ mb batch, step = .decode mb → tabFind mb.val x.decode = some batch → (∀ c ∈ groupCores x true, (t.core c).serving = false) ∧
      t = watchKv k (fun u => leaveStep (groupCores x true) (u.each batch (decodeEnd x.steps rows))) (s.setGroup k g { x with decode := tabDel mb.val x.decode, steps := x.steps + 1 }))) ∧
  -- RESHARD_PAGE (R334)
  (∀ (k : Fin 64) (stream : Fin 65536) (s : State), canReshardPage k stream s = true → Runs (.reshardPage k stream) s fun t =>
    ∃ x i rest, s.stream stream = some x ∧ x.left = i :: rest ∧
    (movePage stream i false true s = none → t = s.bump (partPage k) Rg.partKvStarvedCount) ∧
    (∀ u, movePage stream i false true s = some u → t = u.setStream stream { (u.stream stream).getD x with left := rest })) ∧
  -- RESHARD_DONE (R334)
  (∀ (k : Fin 64) (stream : Fin 65536) (s : State), canReshardDone k stream s = true → Runs (.reshardDone k stream) s fun t =>
    ∃ x, s.stream stream = some x ∧ (x.held = true → t.stream stream = some { x with first := true, resharded := true, deep := true }) ∧
    (x.held = false → ∃ y, t.stream stream = some y ∧ y.state = 4 ∧ y.first = true ∧ y.resharded = false ∧ y.deep = true))

/-- The signal core's arithmetic, memory and loop instructions complete. Each of the commands CMAC, TAPM, SST, ACLR, ZLD, ZST, LOOP, LSAVE,
LRESTORE completes: for every state and all operands of which its hypothesis holds (the can definition of Safety.lean named after the
command, which speaks of the state and the operands alone; none where none stands), exec answers a next state, and in it holds what the
command's clause states. Where a clause rests on a choice or reading of the model, the docstring of the command's meaning names the log
entry. -/
def Obligations.SignalInstructionsComplete : Prop :=
  -- CMAC (R194)
  (∀ (k : Fin 64) (op : MacOp) (acc : Fin 8) (da db : Fin 64) (s : State), canCmac k op acc da db s = true → Runs (.cmac k op acc da db) s fun t =>
    t.sigc k = sNext (setAcc acc (macStep op (getAcc (s.sigc k) acc) (getD (s.sigc k) da) (getD (s.sigc k) db)).1 (s.sigc k)) ∧ OthersSame (.sigc k) s t) ∧
  -- TAPM (R199)
  (∀ (k : Fin 64) (lane0 : Bool) (acc : Fin 8) (ac ax : Fin 16) (s : State), canTapm k lane0 acc ac ax s = true → Runs (.tapm k lane0 acc ac ax) s fun t =>
    ∃ next1 dest last, tapmMoves s k ac ax = some (next1, dest, last) ∧ OthersSame (.sigc k) s t ∧
    t.sigc k = sNext (setA ax last (setA ac next1 (setAcc acc (macStep .cmac (getAcc (s.sigc k) acc) (readLine s.usedFree k (getA (s.sigc k) ax).toNat) (if lane0 then lane0All (readLine s k (getA (s.sigc k) ac).toNat) else readLine s k (getA (s.sigc k) ac).toNat)).1 (s.sigc k)))) ∧
    (s.flag raspPage Rg.raspFlipControlArm = false →
      t.mem.dmem = writeBytes .dmem (dmemKey k dest.toNat) (toBytes 64 (readLine s.usedFree k (getA (s.sigc k) ax).toNat).data.toNat) (touchLine k (getA (s.sigc k) ax).toNat (touchLine k (getA (s.sigc k) ac).toNat s)).mem.dmem ∧
      t.mem.tags = writeBytes .tag (tagKey k dest.toNat) [(readLine s.usedFree k (getA (s.sigc k) ax).toNat).exp] (touchLine k (getA (s.sigc k) ax).toNat (touchLine k (getA (s.sigc k) ac).toNat s)).mem.tags)) ∧
  -- SST (R196)
  (∀ (k : Fin 64) (acc : Fin 8) (dd : Fin 64) (form : SstForm) (s : State), canSst k acc dd form s = true → Runs (.sst k acc dd form) s fun t =>
    t.sigc k = sNext (setD dd (sstBlock form (getAcc (s.sigc k) acc)).1 (s.sigc k)) ∧ OthersSame (.sigc k) s t ∧
    ((sstBlock form (getAcc (s.sigc k) acc)).2 = true → t.flag (sigcPage k) Rg.sigcArithFlagsSat = true) ∧
    ((getAcc (s.sigc k) acc).poison = true → t.flag (sigcPage k) Rg.sigcArithFlagsPoison = true)) ∧
  -- ACLR (R194)
  (∀ (k : Fin 64) (acc : Fin 8) (s : State), canAclr k acc s = true → Runs (.aclr k acc) s fun t =>
    t.sigc k = sNext (setAcc acc { getAcc (s.sigc k) acc with empty := true, poison := false, parts := [] } (s.sigc k)) ∧ OthersSame (.sigc k) s t) ∧
  -- ZLD (R193)
  (∀ (k : Fin 64) (dd : Fin 64) (a : Fin 16) (post : BitVec 64) (s : State), canZld k dd a post s = true → Runs (.zld k dd a post) s fun t =>
    ∃ next, t.sigc k = sNext (setA a next (setD dd (readLine s k (getA (s.sigc k) a).toNat) (s.sigc k))) ∧ OthersSame (.sigc k) s t ∧
    (kMode (getK (s.sigc k) a) ≠ 1 ∨ kLength (getK (s.sigc k) a) ≠ 0 → postModify (getK (s.sigc k) a) (getA (s.sigc k) a) 0 64 post.toInt = some next)) ∧
  -- ZST (R193)
  (∀ (k : Fin 64) (ds : Fin 64) (a : Fin 16) (post : BitVec 64) (s : State), canZst k ds a post s = true → Runs (.zst k ds a post) s fun t =>
    ∃ next, t.sigc k = sNext (setA a next (s.sigc k)) ∧ OthersSame (.sigc k) s t ∧
    (kMode (getK (s.sigc k) a) ≠ 1 ∨ kLength (getK (s.sigc k) a) ≠ 0 → postModify (getK (s.sigc k) a) (getA (s.sigc k) a) 0 64 post.toInt = some next) ∧
    (s.flag raspPage Rg.raspFlipControlArm = false → t.mem.dmem = writeBytes .dmem (dmemKey k (getA (s.sigc k) a).toNat) (toBytes 64 (getD (s.sigc k) ds).data.toNat) s.mem.dmem ∧
      t.mem.tags = writeBytes .tag (tagKey k (getA (s.sigc k) a).toNat) [(getD (s.sigc k) ds).exp] s.mem.tags)) ∧
  -- LOOP (R202)
  (∀ (k : Fin 64) (level : Fin 3) (count : LoopCount) (last : BitVec 16) (s : State), canLoop k level count last s = true → Runs (.loop k level count last) s fun t =>
    (loopCount (s.sigc k) count = 0 → t.sigc k = { s.sigc k with pc := last + 4 }) ∧
    (loopCount (s.sigc k) count ≠ 0 → t.sigc k = { sNext (s.sigc k) with loops := (sNext (s.sigc k)).loops.set level ⟨true, (s.sigc k).pc + 4, last, loopCount (s.sigc k) count⟩ }) ∧
    OthersSame (.sigc k) s t) ∧
  -- LSAVE (R206)
  (∀ (k : Fin 64) (a : Fin 16) (s : State), canLsave k a s = true → Runs (.lsave k a) s fun t =>
    t.sigc k = sNext (setA a (getA (s.sigc k) a + 48) { s.sigc k with loops := (s.sigc k).loops.map fun l => { l with active := false }, loopHold := false }) ∧
    OthersSame (.sigc k) s t ∧ (s.flag raspPage Rg.raspFlipControlArm = false →
      t.mem.dmem = writeBytes .dmem (dmemKey k (getA (s.sigc k) a).toNat) (loopImage (s.sigc k)) s.mem.dmem)) ∧
  -- LRESTORE (R206)
  (∀ (k : Fin 64) (a : Fin 16) (s : State), canLrestore k a s = true → Runs (.lrestore k a) s fun t =>
    ∃ b y, readAll .dmem s.mem.dmem (dmemKey k (getA (s.sigc k) a - 48).toNat) 48 = some b ∧ imageState b (s.sigc k) = some y ∧
    t.sigc k = sNext (setA a (getA (s.sigc k) a - 48) y) ∧ OthersSame (.sigc k) s t)

/-- Interrupts, alarms, doorbells and DMA of a signal core: each has its effect. Each of the commands RETI, EI, DI, ALARM, ALARM_FIRE,
DOORBELL_RING, INTERRUPT_TAKEN, SIGC_ENABLE, SIGC_DMA_START, SIGC_DMA_LINE, SIGC_DMA_DONE, SIGC_DMA_HALT completes: for every state and all
operands of which its hypothesis holds (the can definition of Safety.lean named after the command, which speaks of the state and the
operands alone; none where none stands), exec answers a next state, and in it holds what the command's clause states. Where a clause rests
on a choice or reading of the model, the docstring of the command's meaning names the log entry. -/
def Obligations.SignalCoreCommandsComplete : Prop :=
  -- RETI (R206)
  (∀ (k : Fin 64) (s : State), canReti k s = true → Runs (.reti k) s fun t =>
    t.sigc k = { s.sigc k with prio := (s.sigc k).iprio, loopHold := false, ie := true, pc := (s.sigc k).ipc } ∧ OthersSame (.sigc k) s t) ∧
  -- EI (R207)
  (∀ (k : Fin 64) (s : State), canEi k s = true → Runs (.ei k) s fun t =>
    t.sigc k = sNext { s.sigc k with ie := true } ∧ OthersSame (.sigc k) s t) ∧
  -- DI (R207)
  (∀ (k : Fin 64) (s : State), canDi k s = true → Runs (.di k) s fun t =>
    t.sigc k = sNext { s.sigc k with ie := false } ∧ OthersSame (.sigc k) s t) ∧
  -- ALARM (R209)
  (∀ (k : Fin 64) (n : Fin 2) (a : Fin 16) (s : State), canAlarm k n a s = true → Runs (.alarm k n a) s fun t =>
    OthersSame (.sigc k) s t ∧ (s.now % 2 ^ 64 < (getA (s.sigc k) a).toNat → t.sigc k = sNext { s.sigc k with alarms := tabSet n (getA (s.sigc k) a) (s.sigc k).alarms }) ∧
    (¬s.now % 2 ^ 64 < (getA (s.sigc k) a).toNat → tabFind n (t.sigc k).alarms = none ∧ (t.sigc k).events.contains (2 + n.val) = true ∧ (t.sigc k).pc = (sNext (s.sigc k)).pc)) ∧
  -- ALARM_FIRE (R203)
  (∀ (k : Fin 64) (n : Fin 2) (s : State), canAlarmFire k n s = true → Runs (.alarmFire k n) s fun t =>
    tabFind n (t.sigc k).alarms = none ∧ (t.sigc k).events.contains (2 + n.val) = true ∧ (t.sigc k).pc = (s.sigc k).pc ∧ OthersSame (.sigc k) s t) ∧
  -- DOORBELL_RING (R211)
  (∀ (who : Requester) (k : Fin 64) (value : BitVec 32) (s : State), canDoorbellRing who k value s = true → Runs (.doorbellRing who k value) s fun t =>
    (value.getLsbD 0 = true → (t.sigc k).events.contains 4 = true ∧ (t.sigc k).pc = (s.sigc k).pc) ∧ (value.getLsbD 0 = false → t = s) ∧ OthersSame (.sigc k) s t) ∧
  -- INTERRUPT_TAKEN (R205)
  (∀ (k : Fin 64) (s : State), canInterruptTaken k s = true → Runs (.interruptTaken k) s fun t =>
    ∃ e, nextEvent s k = some e ∧ OthersSame (.sigc k) s t ∧
    t.sigc k = { s.sigc k with ipc := (s.sigc k).pc, iprio := (s.sigc k).prio, prio := eventPrio s k e, ie := false, loopHold := true, pc := BitVec.ofNat 16 (16 * (e + 1)), run := .running, events := (s.sigc k).events.erase e }) ∧
  -- SIGC_ENABLE (R190)
  (∀ (who : Requester) (k : Fin 64) (on : Bool) (s : State), canSigcEnable who k on s = true → Runs (.sigcEnable who k on) s fun t =>
    t.reg (sigcPage k) Rg.pageStatusEnabled = bit on ∧ t.reg (sigcPage k) Rg.pageControlEnable = bit on ∧ (on = false → (t.sigc k).run = .idle) ∧
    (on = true → programRuns (s.sigc k) = false → (t.sigc k).run = .running ∧ (t.sigc k).pc = 0 ∧ (t.sigc k).ie = false ∧ (t.sigc k).events = [] ∧ (t.sigc k).a = (s.sigc k).a)) ∧
  -- SIGC_DMA_START (R192)
  (∀ (k : Fin 64) (ch : Fin 2) (addr : BitVec 19) (s : State), canSigcDmaStart k ch addr s = true → Runs (.sigcDmaStart k ch addr) s fun t =>
    ∃ b, readAll .dmem s.mem.dmem (dmemKey k addr.toNat) 64 = some b ∧ t.reg (sigcPage k) Rg.sigcDmaStatusState ch = 1 ∧
    dmaOf t k ch = { dmaOf s k ch with queue := [⟨BitVec.ofNat 512 (leNat b), 0, none⟩], started := true, moved := 0 }) ∧
  -- SIGC_DMA_LINE (R192)
  (∀ (k : Fin 64) (ch : Fin 2) (s : State), canSigcDmaLine k ch s = true → Runs (.sigcDmaLine k ch) s fun t =>
    ∃ v p part off, dmaDue s k ch = some (v, p, part) ∧ dmaOffset s k p v.moved = some off ∧
    t = setDma k ch { v with moved := v.moved + 1, produced := v.produced + 1 } (if p.out then dmaOut k part p (ringBase v) v.moved off s else dmaIn k part p (ringBase v) v.moved off s)) ∧
  -- SIGC_DMA_DONE (R203)
  (∀ (k : Fin 64) (ch : Fin 2) (s : State), canSigcDmaDone k ch s = true → Runs (.sigcDmaDone k ch) s fun t =>
    ∃ r, runningDma s k ch = some r ∧ (dmaOf t k ch) = { r.1 with queue := [], started := false, moved := 0 } ∧ t.reg (sigcPage k) Rg.sigcDmaStatusState ch = 2 ∧
    (t.sigc k).events.contains ch.val = true) ∧
  -- SIGC_DMA_HALT (R192)
  (∀ (k : Fin 64) (ch : Fin 2) (s : State), canSigcDmaHalt k ch s = true → Runs (.sigcDmaHalt k ch) s fun t =>
    ∃ v p owner code addr, runningDma s k ch = some (v, p, owner) ∧
    (owner = none → code = 2 ∧ addr = p.mem) ∧ (∀ part, owner = some part → dmaMeets s k part p (ringBase v) v.moved = .halts code addr) ∧
    dmaOf t k ch = { v with queue := [], started := false, moved := 0 } ∧
    t.reg (sigcPage k) Rg.sigcDmaStatusState ch = 3 ∧ t.reg (sigcPage k) Rg.sigcDmaStatusError ch = code % 2 ^ Rg.sigcDmaStatusError.len ∧
    t.reg (sigcPage k) Rg.sigcDmaErrorAddrAddress ch = addr % 2 ^ 64 ∧ (t.sigc k).events.contains ch.val = true)

/-- The semaphore instructions take, try, return and set, and a waiter is granted. Each of the commands SEMACQ, SEMTRY, SEMREL, SEMSET,
SEMAPHORE_GRANT completes: for every state and all operands of which its hypothesis holds (the can definition of Safety.lean named after the
command, which speaks of the state and the operands alone; none where none stands), exec answers a next state, and in it holds what the
command's clause states. Where a clause rests on a choice or reading of the model, the docstring of the command's meaning names the log
entry. -/
def Obligations.SemaphoreInstructionsComplete : Prop :=
  -- SEMACQ (R164)
  (∀ (a : Agent) (w : SyncWord) (s : State), canSemacq a w s = true → Runs (.semacq a w) s fun t =>
    ∃ n, semOf (fetchAgent a s) a (agentReg s a w.gs) = some n ∧ t.sem n = semTaken (fetchAgent a s) a n ∧ (∀ m, m ≠ n → t.sem m = s.sem m) ∧
    t = agentDone a w.gd (grantStatus (s.sem n)) (takeSem a n (markCounter a n (fetchAgent a s)))) ∧
  -- SEMTRY (R164)
  (∀ (a : Agent) (w : SyncWord) (s : State), canSemtry a w s = true → Runs (.semtry a w) s fun t =>
    ∃ n, semOf (fetchAgent a s) a (agentReg s a w.gs) = some n ∧ t.sem n = semTaken (fetchAgent a s) a n ∧ (∀ m, m ≠ n → t.sem m = s.sem m) ∧
    t = agentDone a w.gd (grantStatus (s.sem n)) (takeSem a n (fetchAgent a s))) ∧
  -- SEMREL (R164)
  (∀ (a : Agent) (gd gs : Fin 32) (count : BitVec 8) (rsvd : BitVec 8) (s : State), canSemrel a gd gs count rsvd s = true → Runs (.semrel a gd gs count rsvd) s fun t =>
    ∃ n, semOf (fetchAgent a s) a (agentReg s a gs) = some n ∧ (∀ m, m ≠ n → t.sem m = s.sem m) ∧
    ((s.sem n).lock = true → (t.sem n).owner = none) ∧
    ((s.sem n).lock = false → t.sem n = { s.sem n with count := min ((s.sem n).count + (if count = 0 then 1 else count.toNat)) (2 ^ 32 - 1) })) ∧
  -- SEMSET (R164)
  (∀ (a : Agent) (w : SyncWord) (s : State), canSemset a w s = true → Runs (.semset a w) s fun t =>
    ∃ n, semOf (fetchAgent a s) a (agentReg s a w.gs) = some n ∧ (∀ m, m ≠ n → t.sem m = s.sem m) ∧
    t.sem n = { lock := (agentReg s a w.gt).getLsbD 63, count := (agentReg s a w.gt).toNat % 2 ^ 63, owner := none, aborted := false, waiters := [] }) ∧
  -- SEMAPHORE_GRANT (R164)
  (∀ (sem : Fin 65536) (arb : Bool) (s : State), canSemaphoreGrant sem arb s = true → Runs (.semaphoreGrant sem arb) s fun t =>
    (∀ a b, semFront s sem arb = some (a, b) → ∃ rest, (s.sem sem).waiters = .agent a :: rest ∧ (t.sem sem).waiters = rest ∧
      t = wake a b (grantStatus (s.sem sem)) (takeSem a sem (s.setSem sem { s.sem sem with waiters := rest }))) ∧
    (semFeeds s sem = true → ∃ e rest, (s.sem sem).waiters = .sluice e :: rest ∧ t.sem sem = { s.sem sem with count := (s.sem sem).count - 1, waiters := rest } ∧
      (∀ r, sluiceRuns s e = some r → ∃ r', sluiceRuns t e = some r' ∧ r'.waits = none ∧ r'.granted = true ∧ r'.entry = r.entry)))

/-- WAIT, FENCE and SREL complete, at once or when what they wait for comes. Each of the commands WAIT, WAIT_EVENT_ARRIVAL, WAIT_DEADLINE,
FENCE, FENCE_COMPLETE, SREL, DONATION_START completes: for every state and all operands of which its hypothesis holds (the can definition of
Safety.lean named after the command, which speaks of the state and the operands alone; none where none stands), exec answers a next state,
and in it holds what the command's clause states. Where a clause rests on a choice or reading of the model, the docstring of the command's
meaning names the log entry. -/
def Obligations.WaitInstructionsComplete : Prop :=
  -- WAIT (R169)
  (∀ (a : Agent) (w : SyncWord) (s : State), canWait a w s = true → Runs (.wait a w) s fun t =>
    t = agentDone a w.gd (consume (fetchAgent a s) a (agentReg s a w.gs)).2 (consume (fetchAgent a s) a (agentReg s a w.gs)).1 ∧ t.sems = s.sems ∧
    t.mem.spad = s.mem.spad) ∧
  -- WAIT_EVENT_ARRIVAL (R172)
  (∀ (a : Agent) (s : State), canWaitEventArrival a s = true → Runs (.waitEventArrival a) s fun t =>
    ∃ b sel, waitDue s a = some (b, sel) ∧ t = wake a b (consume s a sel).2 (consume s a sel).1) ∧
  -- WAIT_DEADLINE (R172)
  (∀ (a : Agent) (s : State), canWaitDeadline a s = true → Runs (.waitDeadline a) s fun t =>
    ∃ b, deadlineDue s a = some b ∧
    ((∀ n, b.kind ≠ .sem n) → t = wake a b (if waitArrived s a b.kind then 2 else 1) s) ∧
    (∀ n, b.kind = .sem n → t = if waitArrived s a b.kind then
        wake a b 2 (setLate a (lateOf (leaveWaits a s) a ++ [n]) (takeSem a n (leaveWaits a s)))
      else timeoutDonation a n (wake a b 1 (leaveWaits a s)))) ∧
  -- FENCE (R171)
  (∀ (a : Agent) (gd : Fin 32) (scope : Fin 8) (gt : Fin 32) (cp : Fin 1024) (rsvd : BitVec 3) (s : State), canFence a gd scope gt cp rsvd s = true → Runs (.fence a gd scope gt cp rsvd) s fun t =>
    t = agentDone a gd 0 (fenceClears a scope (fenceSealed a scope (fetchAgent a s))) ∧ t.sems = s.sems ∧ t.parts = s.parts) ∧
  -- FENCE_COMPLETE (R463)
  (∀ (a : Agent) (s : State), canFenceComplete a s = true → Runs (.fenceComplete a) s fun t =>
    ∃ b scope, fenceDue s a = some (b, scope) ∧ t = wake a b 0 (fenceClears a scope s) ∧ t.regs = s.regs ∧ t.mem = s.mem) ∧
  -- SREL (R157)
  (∀ (a : Agent) (w : SyncWord) (s : State), canSrel a w s = true → Runs (.srel a w) s fun t =>
    (∀ c, a = .core c → (slotOf (t.core c) (agentReg s a w.gs).toNat).returned = (slotOf (s.core c) (agentReg s a w.gs).toNat).returned + (agentReg s a w.gt).toNat) ∧
    (∀ k, a = .sigc k → (agentReg s a w.gs).toNat = 2 → (t.sigc k).ingressReturned = (s.sigc k).ingressReturned + (agentReg s a w.gt).toNat) ∧
    (∀ k, a = .sigc k → (agentReg s a w.gs).toNat < 2 → (tabGet {} (agentReg s a w.gs).toNat (t.sigc k).dma).returned =
      (tabGet {} (agentReg s a w.gs).toNat (s.sigc k).dma).returned + (agentReg s a w.gt).toNat)) ∧
  -- DONATION_START (R370)
  (∀ (c : Fin 160) (s : State), canDonationStart c s = true → Runs (.donationStart c) s fun t =>
    ∃ r n m, donationDue s c = some (r, n, m) ∧ t = choose r.part (s.setCtx r.part m { s.ctx r.part m with donors := (s.ctx r.part m).donors ++ [(r.ctx, n)] }))

/-- The servo, the pins and the registers of device time: each command has its effect. Each of the commands SERVO_SAMPLE, OFFSET_IN_WRITE,
STEP_FORCE_WRITE, HOLDOVER_ENTRY, FREQ_SOURCE_LOSS, FREQ_SOURCE_VALID, PPS_IN_EDGE, PPS_OUT_EDGE, TIME_NOW_READ, TIME_LOAD completes: for
every state and all operands of which its hypothesis holds (the can definition of Safety.lean named after the command, which speaks of the
state and the operands alone; none where none stands), exec answers a next state, and in it holds what the command's clause states. Where a
clause rests on a choice or reading of the model, the docstring of the command's meaning names the log entry. -/
def Obligations.TimeUnitComplete : Prop :=
  -- SERVO_SAMPLE (R492)
  (∀ (t1 t2 : BitVec 96) (exchange : Option (BitVec 96 × BitVec 96)) (across : Bool) (s : State), canServoSample t1 t2 exchange across s = true → Runs (.servoSample t1 t2 exchange across) s fun t =>
    (across = true → t = s) ∧ (across = false →
    (exchange = none ∨ s.firmware = false → t.time.paths = s.time.paths ∧ t.reg timePage Rg.timeMeanPathDelay = s.reg timePage Rg.timeMeanPathDelay) ∧
    (∀ t3 t4, exchange = some (t3, t4) → s.firmware = true → t.time.paths = ((timeDiff t2 t1 + timeDiff t4 t3) :: s.time.paths).take 16 ∧
      ∃ up, t.reg timePage Rg.timeMeanPathDelay = int64 (servoQuot (t.time.paths.foldl (· + ·) 0) (2 * t.time.paths.length) up)) ∧
    (s.time.forced = false → Sampled (timeDiff t2 t1 - t.sreg timePage Rg.timeMeanPathDelay) s t) ∧
    (s.time.forced = true → t.time.step = s.time.step ∧ t.time.integ = s.time.integ ∧ t.time.sampleAt = s.time.sampleAt ∧ t.reg timePage Rg.timeFreqAdjY = s.reg timePage Rg.timeFreqAdjY))) ∧
  -- OFFSET_IN_WRITE (R493)
  (∀ (who : Requester) (value : BitVec 64) (s : State), canOffsetInWrite who value s = true → Runs (.offsetInWrite who value) s fun t =>
    (s.reg timePage Rg.timeSourceControlPhaseSource = 2 → s.time.forced = false → Sampled value.toInt s t) ∧
    (s.reg timePage Rg.timeSourceControlPhaseSource ≠ 2 → t = s.error timePage 0x0371 0 0x068)) ∧
  -- STEP_FORCE_WRITE (R493)
  (∀ (who : Requester) (value : BitVec 64) (s : State), canStepForceWrite who value s = true → Runs (.stepForceWrite who value) s fun t =>
    t = { s with time := { s.time with step := s.time.step + value.toInt, forced := true } }) ∧
  -- HOLDOVER_ENTRY (R494)
  (∀ (s : State), canHoldoverEntry s = true → Runs .holdoverEntry s fun t =>
    t.reg timePage Rg.timeServoStatusState = 3 ∧ t.reg timePage Rg.timeFreqAdjY = int64 (clampY (s.time.yf - s.time.integ)) ∧ t.time = s.time ∧
    (t.reg timePage Rg.pageIntStatus).testBit 2 = true) ∧
  -- FREQ_SOURCE_LOSS (R494)
  (∀ (average : Int) (s : State), canFreqSourceLoss average s = true → Runs (.freqSourceLoss average) s fun t =>
    t.reg timePage Rg.timeServoStatusFreqValid = 0 ∧ (t.reg timePage Rg.pageIntStatus).testBit 4 = true ∧
    t.time.yf = (if s.reg timePage Rg.timeServoStatusState = 3 then average else 0)) ∧
  -- FREQ_SOURCE_VALID (R494)
  (∀ (y : Int) (s : State), canFreqSourceValid y s = true → Runs (.freqSourceValid y) s fun t =>
    t.reg timePage Rg.timeServoStatusFreqValid = 1 ∧ t.time.yf = y ∧ (s.reg timePage Rg.timeServoStatusState = 0 → t.reg timePage Rg.timeFreqAdjY = int64 (clampY y)) ∧
    (s.reg timePage Rg.timeServoStatusState = 3 → t.reg timePage Rg.timeFreqAdjY = int64 (clampY (y - s.time.integ)))) ∧
  -- PPS_IN_EDGE (R619)
  (∀ (lowNs highNs : Nat) (edge : BitVec 96) (s : State), canPpsInEdge lowNs highNs edge s = true → Runs (.ppsInEdge lowNs highNs edge) s fun t =>
    t.time.ppsIn = some (timeFine edge) ∧ (s.reg timePage Rg.timeSourceControlPhaseSource ≠ 3 → t = { s with time := { s.time with ppsIn := some (timeFine edge) } }) ∧
    (s.reg timePage Rg.timeSourceControlPhaseSource = 3 → s.time.forced = false → (∀ l, s.time.ppsIn = some l → timeFine edge ≥ l + 500000000 * 65536) →
      Sampled (ppsTheta (timeFine edge) (s.sreg timePage Rg.timePpsInDelayDelay)) s t)) ∧
  -- PPS_OUT_EDGE (R491)
  (∀ (s : State), canPpsOutEdge s = true → Runs .ppsOutEdge s fun t =>
    t = { s with time := { s.time with ppsOut := some (((s.now : Int) - s.sreg timePage Rg.timePpsOutOffsetNano) / 1000000000) } }.emit (.pin .ppsOut)) ∧
  -- TIME_NOW_READ (R497)
  (∀ (who : Requester) (s : State), canTimeNowRead who s = true → Runs (.timeNowRead who) s fun t =>
    t.reg timePage Rg.timeNowSeconds = s.timeBits.toNat / 2 ^ 48 ∧ t.reg timePage Rg.timeNowNanoNano = s.timeBits.toNat / 2 ^ 16 % 2 ^ 32 ∧
    t.reg timePage Rg.timeNowFracFraction = s.timeBits.toNat % 2 ^ 16 ∧ t.time = s.time ∧
    t.out = s.out ++ [.readData (some (toBytes 4 (s.timeBits.toNat / 2 ^ 48 % 2 ^ 32)))]) ∧
  -- TIME_LOAD (R596)
  (∀ (who : Requester) (seconds : BitVec 48) (s : State), canTimeLoad who seconds s = true → Runs (.timeLoad who seconds) s fun t =>
    (s.time.loaded = false → s.anyPart = false → t = { s with time := { s.time with loadSec := some seconds.toNat, loaded := true } }) ∧
    (s.time.loaded = true ∨ s.anyPart = true → t = s.error rsetPage 0x0903 0 0x050))

/-- Twinned devices exchange pulses, mirror, take over and drain. Each of the commands TWIN_PULSE_TX, TWIN_PULSE_RX, TWIN_PIN_FAULT,
TWIN_FAIL_TIMEOUT, TWIN_FAIL_MSG, TWIN_TAKEOVER, MIRROR_BATCH, DRAIN_WRITE, DRAIN_HANDOVER completes: for every state and all operands of
which its hypothesis holds (the can definition of Safety.lean named after the command, which speaks of the state and the operands alone;
none where none stands), exec answers a next state, and in it holds what the command's clause states. Where a clause rests on a choice or
reading of the model, the docstring of the command's meaning names the log entry. -/
def Obligations.TwinCommandsComplete : Prop :=
  -- TWIN_PULSE_TX (R538)
  (∀ (s : State), canTwinPulseTx s = true → Runs .twinPulseTx s fun t =>
    t = { s with twin := { s.twin with pulsedAt := some s.now, pulseDue := none } }.emit (.pin .twinAlive)) ∧
  -- TWIN_PULSE_RX (R538)
  (∀ (s : State), canTwinPulseRx s = true → Runs .twinPulseRx s fun t =>
    t.twin.heardAt = some s.now ∧ t.twin.pulseDue = (if twinLeads s then none else some (s.now + 5000)) ∧ t.regs = s.regs) ∧
  -- TWIN_PIN_FAULT (R538)
  (∀ (s : State), canTwinPinFault s = true → Runs .twinPinFault s fun t =>
    t.reg raspPage Rg.raspTwinStatusPinFault = 1 ∧ t.mem = s.mem ∧ t.radio = s.radio) ∧
  -- TWIN_FAIL_TIMEOUT (R541)
  (∀ (s : State), canTwinFailTimeout s = true → Runs .twinFailTimeout s fun t =>
    TwinJudged s t) ∧
  -- TWIN_FAIL_MSG (R541)
  (∀ (s : State), canTwinFailMsg s = true → Runs .twinFailMsg s fun t =>
    TwinJudged s t) ∧
  -- TWIN_TAKEOVER (R542)
  (∀ (s : State), canTwinTakeover s = true → Runs .twinTakeover s fun t =>
    t = takeOver s ∧ t.reg raspPage Rg.raspTwinControlTakeover = 0 ∧ t.reg raspPage Rg.raspTwinStatusState = 4 ∧ (t.reg raspPage Rg.pageIntStatus).testBit 6 = true) ∧
  -- MIRROR_BATCH (R539)
  (∀ (k : Fin 64) (writes : List (BitVec 64 × List Byte)) (s : State), canMirrorBatch k writes s = true → Runs (.mirrorBatch k writes) s fun t =>
    t.twin.mapped.contains k.val = true ∧ t.mem = (s.each writes fun (e : BitVec 64 × List Byte) u => u.partWrite k e.1.toNat e.2).mem) ∧
  -- DRAIN_WRITE (R545)
  (∀ (who : Requester) (value : BitVec 32) (s : State), canDrainWrite who value s = true → Runs (.drainWrite who value) s fun t =>
    t = writeTwinControl value.toNat s ∧ t.reg raspPage Rg.raspTwinControlAuto = bit (value.getLsbD 1) ∧
    (value.getLsbD 2 = true → t.reg raspPage Rg.raspTwinControlTakeover = 1)) ∧
  -- DRAIN_HANDOVER (R545)
  (∀ (k : Fin 64) (cell : Fin 384) (s : State), canDrainHandover k cell s = true → Runs (.drainHandover k cell) s fun t =>
    ∃ y, tabFind cell.val (s.radioOf k).cells = some y ∧ (y.standby = true → t = receiveCell k cell y s) ∧
    (y.standby = false → ∃ h, s.twin.handovers.find? (fun h => h.part == k.val && h.cell == cell.val) = some h ∧ t = handOver h s))

/-- The vector instructions complete with the lanes of their rules. Each of the commands VLD, VST, VECTOR_ELEMENTWISE, VECTOR_SHIFT_COMPARE,
VECTOR_REDUCE, VECTOR_REQUANTIZE, VPOLY, VECTOR_PERMUTE, VECTOR_MOVE completes: for every state and all operands of which its hypothesis
holds (the can definition of Safety.lean named after the command, which speaks of the state and the operands alone; none where none stands),
exec answers a next state, and in it holds what the command's clause states. Where a clause rests on a choice or reading of the model, the
docstring of the command's meaning names the log entry. -/
def Obligations.VectorInstructionsComplete : Prop :=
  -- VLD (R152)
  (∀ (c : Fin 160) (vd : Fin 32) (ga gb : Fin 32) (lane : Lane) (rsvd : BitVec 8) (s : State), canVld c vd ga gb lane rsvd s = true → Runs (.vld c vd ga gb lane rsvd) s fun t =>
    OthersSame (.core c) s t ∧
    (laneRaw lane = true → ∃ b, readAll .spad s.mem.spad (spadKey c (getG (s.core c) ga).toNat) 256 = some b ∧
      t.core c = advance (setV vd { getV (s.core c) vd with data := BitVec.ofNat 2048 (leNat b) } (s.core c))) ∧
    (laneRaw lane = false → ∃ d, t.core c = advance (setV vd ⟨d, scalePack (loadedExps s c (getG (s.core c) ga).toNat (getG (s.core c) gb).toNat lane) (getV (s.core c) vd).scale⟩ (s.core c)) ∧
      ∀ i, i < laneCount lane * laneBits lane / 8 → ∀ v, readByte .spad s.mem.spad (spadKey c (getG (s.core c) ga).toNat + i) = some v → d.extractLsb' (8 * i) 8 = v)) ∧
  -- VST (R152)
  (∀ (c : Fin 160) (vs : Fin 32) (ga gb : Fin 32) (lane : Lane) (rsvd : BitVec 8) (s : State), canVst c vs ga gb lane rsvd s = true → Runs (.vst c vs ga gb lane rsvd) s fun t =>
    t.core c = advance (s.core c) ∧ OthersSame (.core c) s t ∧ (s.flag raspPage Rg.raspFlipControlArm = false →
      t.mem.spad = if laneRaw lane then writeBytes .spad (spadKey c (getG (s.core c) ga).toNat) (vstBytes lane (getV (s.core c) vs)) s.mem.spad
        else writeBytes .spad (spadKey c (getG (s.core c) gb).toNat) (toBytes (laneBlocks lane) (getV (s.core c) vs).scale.toNat)
          (writeBytes .spad (spadKey c (getG (s.core c) ga).toNat) (vstBytes lane (getV (s.core c) vs)) s.mem.spad))) ∧
  -- VECTOR_ELEMENTWISE (R149)
  (∀ (op : VecElem) (regs : VecRegs) (s : State), canVectorElementwise op regs s = true → Runs (.vectorElementwise op regs) s fun t =>
    (∀ c vd va vb lane, regs = .core c vd va vb lane → VWrote c vd (vForm lane (vElemValues op (vValues lane (getV (s.core c) vd)) (vValues lane (getV (s.core c) va)) (vValues lane (getV (s.core c) vb))) (getV (s.core c) vd)) s t) ∧
    (∀ k dd da db, regs = .sigc k dd da db → DWrote k dd (vElemValues op (dValues (getD (s.sigc k) dd)) (dValues (getD (s.sigc k) da)) (dValues (getD (s.sigc k) db))) s t)) ∧
  -- VECTOR_SHIFT_COMPARE (R150)
  (∀ (op : VecShiftCmp) (regs : VecRegs) (s : State), canVectorShiftCompare op regs s = true → Runs (.vectorShiftCompare op regs) s fun t =>
    (∀ c vd va vb lane, regs = .core c vd va vb lane → VWrote c vd (vForm lane (vShiftValues op lane (vValues lane (getV (s.core c) vd)) (vValues lane (getV (s.core c) va)) (vValues lane (getV (s.core c) vb))) (getV (s.core c) vd)) s t) ∧
    (∀ k dd da db, regs = .sigc k dd da db → DWrote k dd (vShiftValues op .z16b32 (dValues (getD (s.sigc k) dd)) (dValues (getD (s.sigc k) da)) (dValues (getD (s.sigc k) db))) s t)) ∧
  -- VECTOR_REDUCE (R151)
  (∀ (op : VecRed) (regs : RedRegs) (s : State), canVectorReduce op regs s = true → Runs (.vectorReduce op regs) s fun t =>
    (∀ c vd va lane, regs = .core c (.lane0 vd) va lane →
      VWrote c vd (vSetLane (redLane op lane) 0 (redValue op (vValues lane (getV (s.core c) va))) (getV (s.core c) vd)) s t) ∧
    (∀ c gd va lane, regs = .core c (.gpr gd) va lane → OthersSame (.core c) s t ∧ ∃ w, t.core c = advance (setG gd w (s.core c)) ∧
      ((vValues lane (getV (s.core c) va)).any (·.2) = true → t.reg (corePage c) Rg.coreArithFlagsPoison = 1) ∧
      ∀ v, (vValues lane (getV (s.core c) va)).any (·.2) = false → redWord lane (redValue op (vValues lane (getV (s.core c) va))).1 = some v → w = v) ∧
    (∀ k dd da, regs = .sigc k dd da → DWrote k dd ((dValues (getD (s.sigc k) dd)).set 0 (redValue op (dValues (getD (s.sigc k) da)))) s t)) ∧
  -- VECTOR_REQUANTIZE (R149)
  (∀ (c : Fin 160) (op : VecConv) (vd va vb : Fin 32) (lane : Lane) (target : Lane) (s : State), canVectorRequantize c op vd va vb lane target s = true → Runs (.vectorRequantize c op vd va vb lane target) s fun t =>
    OthersSame (.core c) s t ∧ ∃ vals, vals.length = (convertedValues op (getV (s.core c) va) (getV (s.core c) vb) lane target).length ∧
    (∀ (i : Nat) (x : ExactVal × Bool), (convertedValues op (getV (s.core c) va) (getV (s.core c) vb) lane target)[i]? = some x → (laneRaw target = false ∨ x.2 = false) → vals[i]? = some x) ∧
    t.core c = advance (setV vd (vForm target (fitTo (laneCount target) vals) (getV (s.core c) vd)).1 (s.core c)) ∧
    ((vValues lane (getV (s.core c) va)).any (·.2) = true → t.reg (corePage c) Rg.coreArithFlagsPoison = 1)) ∧
  -- VPOLY (R153)
  (∀ (c : Fin 160) (vd va : Fin 32) (gb : Fin 32) (s : State), canVpoly c vd va gb s = true → Runs (.vpoly c vd va gb) s fun t =>
    ∃ b p, s.spadRead c (getG (s.core c) gb).toNat 16 = some b ∧ readPoly s c (getG (s.core c) gb).toNat b = some p ∧
    VWrote c vd ({ getV (s.core c) vd with data := vPack .i32 (((vElems .i32 (getV (s.core c) va)).map (polyEval p)).map (·.1)) },
      bit (((vElems .i32 (getV (s.core c) va)).map (polyEval p)).any (·.2))) s t) ∧
  -- VECTOR_PERMUTE (R150)
  (∀ (op : VecPerm) (regs : VecRegs) (s : State), canVectorPermute op regs s = true → Runs (.vectorPermute op regs) s fun t =>
    (∀ c vd va vb lane, regs = .core c vd va vb lane → VWrote c vd (vForm lane (vPermValues op lane (laneCount lane) (vValues lane (getV (s.core c) va)) (vValues lane (getV (s.core c) vb))) (getV (s.core c) vd)) s t) ∧
    (∀ k dd da db, regs = .sigc k dd da db → DWrote k dd (vPermValues op .z16b32 32 (dValues (getD (s.sigc k) da)) (dValues (getD (s.sigc k) db))) s t)) ∧
  -- VECTOR_MOVE (R150)
  (∀ (c : Fin 160) (op : VecMove) (lane : Lane) (s : State), canVectorMove c op lane s = true → Runs (.vectorMove c op lane) s fun t =>
    (∀ vd ga i, op = .toLane vd ga i → VWrote c vd (vSetLane lane (i % laneCount lane)
      (((getG (s.core c) ga).toInt, if laneRaw lane then 0 else -16), false) (getV (s.core c) vd)) s t) ∧
    (∀ gd va i, op = .fromLane gd va i → OthersSame (.core c) s t ∧ ∃ w e, (vValues lane (getV (s.core c) va))[i % laneCount lane]? = some e ∧
      t.core c = advance (setG gd w (s.core c)) ∧ (e.2 = true → t.reg (corePage c) Rg.coreArithFlagsPoison = 1) ∧
      ∀ v, e.2 = false → redWord lane e.1 = some v → w = v))

end
end

