-- ==== Sys2Proof/Laws/Table.lean ====
section
/-! SUPPORT. Laws of the sparse tables: read after write, other keys, and that every operation keeps the canonical form. -/

namespace Sys2Proof.Machine

variable {α : Type}

@[simp] theorem tabFind_del_same (k : Nat) (m : Table α) : tabFind k (tabDel k m) = none := by
  induction m with
  | nil => rfl
  | cons e m ih =>
    obtain ⟨j, w⟩ := e
    by_cases h : j = k <;> simp [tabDel, tabFind, h, ih]

theorem tabFind_del_other {j k : Nat} (h : j ≠ k) (m : Table α) : tabFind j (tabDel k m) = tabFind j m := by
  induction m with
  | nil => rfl
  | cons e m ih =>
    obtain ⟨i, w⟩ := e
    by_cases hk : i = k
    · subst hk; simp [tabDel, tabFind, ih, Ne.symm h]
    · by_cases hj : i = j
      · subst hj; simp [tabDel, tabFind, hk]
      · simp [tabDel, tabFind, hk, hj, ih]

theorem tabFind_ins_same (k : Nat) (v : α) (m : Table α) (h : tabFind k m = none) :
    tabFind k (tabIns k v m) = some v := by
  induction m with
  | nil => simp [tabIns, tabFind]
  | cons e m ih =>
    obtain ⟨j, w⟩ := e
    by_cases hj : j = k
    · simp [tabFind, hj] at h
    · simp only [tabFind, hj, if_false] at h
      by_cases hl : k < j <;> simp [tabIns, tabFind, hl, hj, ih h]

theorem tabFind_ins_other {j k : Nat} (h : j ≠ k) (v : α) (m : Table α) :
    tabFind j (tabIns k v m) = tabFind j m := by
  induction m with
  | nil => simp [tabIns, tabFind, Ne.symm h]
  | cons e m ih =>
    obtain ⟨i, w⟩ := e
    by_cases hl : k < i
    · simp [tabIns, tabFind, hl, Ne.symm h]
    · by_cases hi : i = j
      · subst hi; simp [tabIns, tabFind, hl]
      · simp [tabIns, tabFind, hl, hi, ih]

@[simp] theorem tabFind_set_same (k : Nat) (v : α) (m : Table α) : tabFind k (tabSet k v m) = some v :=
  tabFind_ins_same k v _ (tabFind_del_same k m)

theorem tabFind_set_other {j k : Nat} (h : j ≠ k) (v : α) (m : Table α) :
    tabFind j (tabSet k v m) = tabFind j m := by
  rw [tabSet, tabFind_ins_other h, tabFind_del_other h]

@[simp] theorem tabGet_put_same [DecidableEq α] (d : α) (k : Nat) (v : α) (m : Table α) :
    tabGet d k (tabPut d k v m) = v := by
  unfold tabPut tabGet
  split
  · next h => simp [h]
  · simp

theorem tabGet_put_other [DecidableEq α] (d e : α) {j k : Nat} (h : j ≠ k) (v : α) (m : Table α) :
    tabGet e j (tabPut d k v m) = tabGet e j m := by
  unfold tabPut tabGet
  split
  · rw [tabFind_del_other h]
  · rw [tabFind_set_other h]

theorem tabSorted_mono {a b : Nat} (h : a ≤ b) (m : Table α) (hm : tabSorted b m = true) : tabSorted a m = true := by
  cases m with
  | nil => rfl
  | cons e m =>
    simp only [tabSorted, Bool.and_eq_true, decide_eq_true_eq] at *
    exact ⟨by omega, hm.2⟩

theorem tabSorted_del (lo k : Nat) (m : Table α) (h : tabSorted lo m = true) : tabSorted lo (tabDel k m) = true := by
  induction m generalizing lo with
  | nil => rfl
  | cons e m ih =>
    obtain ⟨j, w⟩ := e
    simp only [tabSorted, Bool.and_eq_true, decide_eq_true_eq] at h
    by_cases hj : j = k
    · simp only [tabDel, hj, if_true]
      exact ih lo (tabSorted_mono (by omega) m h.2)
    · simp only [tabDel, hj, if_false, tabSorted, Bool.and_eq_true, decide_eq_true_eq]
      exact ⟨h.1, ih _ h.2⟩

theorem tabSorted_ins (lo k : Nat) (v : α) (m : Table α) (hk : lo ≤ k) (hn : tabFind k m = none)
    (h : tabSorted lo m = true) : tabSorted lo (tabIns k v m) = true := by
  induction m generalizing lo with
  | nil => simp [tabIns, tabSorted, hk]
  | cons e m ih =>
    obtain ⟨j, w⟩ := e
    simp only [tabSorted, Bool.and_eq_true, decide_eq_true_eq] at h
    by_cases hj : j = k
    · simp [tabFind, hj] at hn
    · simp only [tabFind, hj, if_false] at hn
      by_cases hl : k < j
      · simp only [tabIns, hl, if_true, tabSorted, Bool.and_eq_true, decide_eq_true_eq]
        exact ⟨hk, by omega, h.2⟩
      · simp only [tabIns, hl, if_false, tabSorted, Bool.and_eq_true, decide_eq_true_eq]
        exact ⟨h.1, ih (j + 1) (by omega) hn h.2⟩

theorem tabWf_del (k : Nat) (m : Table α) (h : tabWf m = true) : tabWf (tabDel k m) = true :=
  tabSorted_del 0 k m h

theorem tabWf_set (k : Nat) (v : α) (m : Table α) (h : tabWf m = true) : tabWf (tabSet k v m) = true :=
  tabSorted_ins 0 k v _ (Nat.zero_le k) (tabFind_del_same k m) (tabSorted_del 0 k m h)

theorem tabWf_put [DecidableEq α] (d : α) (k : Nat) (v : α) (m : Table α) (h : tabWf m = true) :
    tabWf (tabPut d k v m) = true := by
  unfold tabPut
  split
  · exact tabWf_del k m h
  · exact tabWf_set k v m h

end Sys2Proof.Machine
end

