-- ==== Sys2Proof/Laws/Only.lean ====
section
/-! SUPPORT. What a change of the state may touch. Each part of the state has a bit of a mask; Only m s t says that t
differs from s at most in the parts of m, that the queue of commands is the same, that what was sent out before still
stands in front of what is sent out, that no free value is used twice, and that the register file and the memories keep
their canonical forms. Every operation of the model has one lemma of this form, its name followed by _only. -/

namespace Sys2Proof.Machine

/-- t follows from s by changes of the parts in the mask m. -/
structure Only (m : Nat) (s t : State) : Prop where
  pending : t.pending = s.pending
  outGrows : s.out <+: t.out
  freeGrows : s.freeIx ≤ t.freeIx
  regsWf : tabWf s.regs = true → tabWf t.regs = true
  memWf : s.mem.wf = true → t.mem.wf = true
  out : m.testBit 1 = false → t.out = s.out
  freeIx : m.testBit 2 = false → t.freeIx = s.freeIx
  regs : m.testBit 3 = false → t.regs = s.regs
  latches : m.testBit 4 = false → t.latches = s.latches
  resets : m.testBit 5 = false → t.resets = s.resets
  plat : m.testBit 6 = false → t.plat = s.plat
  fuses : m.testBit 7 = false → t.fuses = s.fuses
  time : m.testBit 8 = false → t.time = s.time
  cores : m.testBit 9 = false → t.cores = s.cores
  fabric : m.testBit 10 = false → t.fabric = s.fabric
  sigcs : m.testBit 11 = false → t.sigcs = s.sigcs
  sems : m.testBit 12 = false → t.sems = s.sems
  ctxs : m.testBit 13 = false → t.ctxs = s.ctxs
  tier : m.testBit 14 = false → t.tier = s.tier
  coding : m.testBit 15 = false → t.coding = s.coding
  parts : m.testBit 16 = false → t.parts = s.parts
  radio : m.testBit 17 = false → t.radio = s.radio
  serve : m.testBit 18 = false → t.serve = s.serve
  records : m.testBit 19 = false → t.records = s.records
  eth : m.testBit 20 = false → t.eth = s.eth
  mem : m.testBit 21 = false → t.mem = s.mem
  host : m.testBit 22 = false → t.host = s.host
  mgmt : m.testBit 23 = false → t.mgmt = s.mgmt
  power : m.testBit 24 = false → t.power = s.power
  ras : m.testBit 25 = false → t.ras = s.ras
  twin : m.testBit 26 = false → t.twin = s.twin
  salt : m.testBit 27 = false → t.salt = s.salt

/-- t is the next state of an outcome, and follows by changes of the parts in the mask m; a stop has none. -/
def OnlyNext (m : Nat) (s : State) (o : Host.Outcome State Fault Refusal) : Prop := ∀ t, o = .next t → Only m s t

/-- The same for an action that answers a state or a code. -/
def OnlySum (m : Nat) (s : State) (o : State ⊕ Nat) : Prop := ∀ t, o = .inl t → Only m s t

/-- The same for an operation that may answer no state, and for one that answers a number with it. -/
def OnlyOpt (m : Nat) (s : State) (o : Option State) : Prop := ∀ t, o = some t → Only m s t
def OnlyOptNat (m : Nat) (s : State) (o : Option (Nat × State)) : Prop := ∀ x t, o = some (x, t) → Only m s t

theorem OnlyOpt.get {m : Nat} {s t : State} {o : Option State} (h : OnlyOpt m s o) (e : o = some t) : Only m s t := h t e
theorem OnlyOptNat.get {m x : Nat} {s t : State} {o : Option (Nat × State)} (h : OnlyOptNat m s o) (e : o = some (x, t)) :
    Only m s t := h x t e
theorem OnlyOpt.none {m : Nat} {s : State} : OnlyOpt m s none := by intro t e; cases e
theorem OnlyOptNat.none {m : Nat} {s : State} : OnlyOptNat m s none := by intro x t e; cases e
theorem OnlyOpt.some {m : Nat} {s t : State} (h : Only m s t) : OnlyOpt m s (some t) := by
  intro u e; injection e with e; subst e; exact h
theorem OnlyOptNat.some {m x : Nat} {s t : State} (h : Only m s t) : OnlyOptNat m s (some (x, t)) := by
  intro y u e; injection e with e; injection e with e1 e2; subst e2; exact h

theorem OnlyOptNat.map {m : Nat} {s : State} {o : Option Nat} {f : Nat → State} (h : ∀ e, Only m s (f e)) :
    OnlyOptNat m s (o.map fun e => (e, f e)) := by
  cases o with
  | none => intro x t e; cases e
  | some n => intro x t e; injection e with e; injection e with e1 e2; subst e2; exact h n

theorem OnlyOpt.map {m : Nat} {s : State} {o : Option (Nat × State)} {f : Nat × State → State}
    (h : ∀ x t, o = Option.some (x, t) → Only m s (f (x, t))) : OnlyOpt m s (o.map f) := by
  cases o with
  | none => intro t e; cases e
  | some r => intro t e; injection e with e; subst e; exact h r.1 r.2 rfl

theorem bit_of_sub {a m i : Nat} (h : m ||| a = m) (hi : m.testBit i = false) : a.testBit i = false := by
  rw [← h, Nat.testBit_or, Bool.or_eq_false_iff] at hi
  exact hi.2

theorem Only.refl (m : Nat) (s : State) : Only m s s := by
  constructor <;> intros <;> first | rfl | assumption | exact List.prefix_refl _

theorem Only.trans {m : Nat} {s t u : State} (h : Only m s t) (g : Only m t u) : Only m s u := by
  refine ⟨g.pending.trans h.pending, h.outGrows.trans g.outGrows, Nat.le_trans h.freeGrows g.freeGrows,
    fun w => g.regsWf (h.regsWf w), fun w => g.memWf (h.memWf w), fun b => (g.out b).trans (h.out b),
    fun b => (g.freeIx b).trans (h.freeIx b),
    fun b => (g.regs b).trans (h.regs b),
    fun b => (g.latches b).trans (h.latches b),
    fun b => (g.resets b).trans (h.resets b),
    fun b => (g.plat b).trans (h.plat b),
    fun b => (g.fuses b).trans (h.fuses b),
    fun b => (g.time b).trans (h.time b),
    fun b => (g.cores b).trans (h.cores b),
    fun b => (g.fabric b).trans (h.fabric b),
    fun b => (g.sigcs b).trans (h.sigcs b),
    fun b => (g.sems b).trans (h.sems b),
    fun b => (g.ctxs b).trans (h.ctxs b),
    fun b => (g.tier b).trans (h.tier b),
    fun b => (g.coding b).trans (h.coding b),
    fun b => (g.parts b).trans (h.parts b),
    fun b => (g.radio b).trans (h.radio b),
    fun b => (g.serve b).trans (h.serve b),
    fun b => (g.records b).trans (h.records b),
    fun b => (g.eth b).trans (h.eth b),
    fun b => (g.mem b).trans (h.mem b),
    fun b => (g.host b).trans (h.host b),
    fun b => (g.mgmt b).trans (h.mgmt b),
    fun b => (g.power b).trans (h.power b),
    fun b => (g.ras b).trans (h.ras b),
    fun b => (g.twin b).trans (h.twin b),
    fun b => (g.salt b).trans (h.salt b)⟩

/-- A wider mask allows what a narrower one allows. -/
theorem Only.mono {a m : Nat} {s t : State} (h : Only a s t) (w : m ||| a = m) : Only m s t := by
  refine ⟨h.pending, h.outGrows, h.freeGrows, h.regsWf, h.memWf,
    fun b => h.out (bit_of_sub w b),
    fun b => h.freeIx (bit_of_sub w b),
    fun b => h.regs (bit_of_sub w b),
    fun b => h.latches (bit_of_sub w b),
    fun b => h.resets (bit_of_sub w b),
    fun b => h.plat (bit_of_sub w b),
    fun b => h.fuses (bit_of_sub w b),
    fun b => h.time (bit_of_sub w b),
    fun b => h.cores (bit_of_sub w b),
    fun b => h.fabric (bit_of_sub w b),
    fun b => h.sigcs (bit_of_sub w b),
    fun b => h.sems (bit_of_sub w b),
    fun b => h.ctxs (bit_of_sub w b),
    fun b => h.tier (bit_of_sub w b),
    fun b => h.coding (bit_of_sub w b),
    fun b => h.parts (bit_of_sub w b),
    fun b => h.radio (bit_of_sub w b),
    fun b => h.serve (bit_of_sub w b),
    fun b => h.records (bit_of_sub w b),
    fun b => h.eth (bit_of_sub w b),
    fun b => h.mem (bit_of_sub w b),
    fun b => h.host (bit_of_sub w b),
    fun b => h.mgmt (bit_of_sub w b),
    fun b => h.power (bit_of_sub w b),
    fun b => h.ras (bit_of_sub w b),
    fun b => h.twin (bit_of_sub w b),
    fun b => h.salt (bit_of_sub w b)⟩

/-- Chain a lemma of an operation after what came before it. -/
theorem Only.step {a m : Nat} {s t u : State} (g : Only a t u) (w : m ||| a = m) (h : Only m s t) : Only m s u :=
  h.trans (g.mono w)

theorem Only.pair {a : Nat} {α : Type} {s : State} {p : State × α} {t : State} {x : α} (g : Only a s p.1) (e : p = (t, x)) :
    Only a s t := by subst e; exact g

/-- Chain a lemma that holds for the same mask. -/
theorem Only.after {m : Nat} {s t u : State} (g : Only m t u) (h : Only m s t) : Only m s u := h.trans g

theorem sub_of {a b m : Nat} (h : m ||| a = m) (w : a ||| b = a) : m ||| b = m := by
  rw [← h, Nat.or_assoc, w]

theorem bit_of {a i m : Nat} (h : m ||| a = m) (w : a.testBit i = true) : m.testBit i = true := by
  rw [← h, Nat.testBit_or, w, Bool.or_true]

theorem OnlyNext.next {m : Nat} {s t : State} (h : Only m s t) : OnlyNext m s (.next t) := by
  intro u e; injection e with e; subst e; exact h

theorem OnlySum.inl {m : Nat} {s t : State} (h : Only m s t) : OnlySum m s (.inl t) := by
  intro u e; injection e with e; subst e; exact h

theorem OnlySum.inr {m : Nat} {s : State} {n : Nat} : OnlySum m s (.inr n) := by
  intro u e; cases e

theorem OnlyNext.mono {a m : Nat} {s : State} {o : Host.Outcome State Fault Refusal} (h : OnlyNext a s o) (w : m ||| a = m) :
    OnlyNext m s o := fun t e => (h t e).mono w

/-- Doing an operation for each entry of a list. -/
theorem each_only {α : Type} {m : Nat} {s t : State} {l : List α} {f : α → State → State}
    (hf : ∀ x u, Only m s u → Only m s (f x u)) (h : Only m s t) : Only m s (t.each l f) := by
  unfold State.each
  induction l generalizing t with
  | nil => exact h
  | cons x l ih => exact ih (hf x t h)

theorem foldl_only {α : Type} {m : Nat} {s t : State} {l : List α} {f : State → α → State}
    (hf : ∀ x u, Only m s u → Only m s (f u x)) (h : Only m s t) : Only m s (l.foldl f t) := by
  induction l generalizing t with
  | nil => exact h
  | cons x l ih => exact ih (hf x t h)

theorem foldl_pair_only {α β : Type} {m : Nat} {s : State} {t : State × β} {l : List α} {f : State × β → α → State × β}
    (hf : ∀ x u, Only m s u.1 → Only m s (f u x).1) (h : Only m s t.1) : Only m s (l.foldl f t).1 := by
  induction l generalizing t with
  | nil => exact h
  | cons x l ih => exact ih (hf x t h)

theorem when_only {m : Nat} {s t : State} {b : Bool} {f : State → State} (hf : ∀ u, Only m s u → Only m s (f u))
    (h : Only m s t) : Only m s (t.when b f) := by
  unfold State.when
  cases b
  · exact h
  · exact hf t h

theorem Only.upd_coding {m : Nat} {s t : State} {v_coding} (h_coding : m.testBit 15 = true) (h : Only m s t) :
    Only m s { t with coding := v_coding } := by
  exact ⟨h.pending, h.outGrows, h.freeGrows, h.regsWf, h.memWf, h.out, h.freeIx, h.regs, h.latches, h.resets, h.plat, h.fuses, h.time, h.cores, h.fabric, h.sigcs, h.sems, h.ctxs, h.tier, fun b => absurd b (by simp [h_coding]), h.parts, h.radio, h.serve, h.records, h.eth, h.mem, h.host, h.mgmt, h.power, h.ras, h.twin, h.salt⟩

theorem Only.upd_cores {m : Nat} {s t : State} {v_cores} (h_cores : m.testBit 9 = true) (h : Only m s t) :
    Only m s { t with cores := v_cores } := by
  exact ⟨h.pending, h.outGrows, h.freeGrows, h.regsWf, h.memWf, h.out, h.freeIx, h.regs, h.latches, h.resets, h.plat, h.fuses, h.time, fun b => absurd b (by simp [h_cores]), h.fabric, h.sigcs, h.sems, h.ctxs, h.tier, h.coding, h.parts, h.radio, h.serve, h.records, h.eth, h.mem, h.host, h.mgmt, h.power, h.ras, h.twin, h.salt⟩

theorem Only.upd_ctxs {m : Nat} {s t : State} {v_ctxs} (h_ctxs : m.testBit 13 = true) (h : Only m s t) :
    Only m s { t with ctxs := v_ctxs } := by
  exact ⟨h.pending, h.outGrows, h.freeGrows, h.regsWf, h.memWf, h.out, h.freeIx, h.regs, h.latches, h.resets, h.plat, h.fuses, h.time, h.cores, h.fabric, h.sigcs, h.sems, fun b => absurd b (by simp [h_ctxs]), h.tier, h.coding, h.parts, h.radio, h.serve, h.records, h.eth, h.mem, h.host, h.mgmt, h.power, h.ras, h.twin, h.salt⟩

theorem Only.upd_eth {m : Nat} {s t : State} {v_eth} (h_eth : m.testBit 20 = true) (h : Only m s t) :
    Only m s { t with eth := v_eth } := by
  exact ⟨h.pending, h.outGrows, h.freeGrows, h.regsWf, h.memWf, h.out, h.freeIx, h.regs, h.latches, h.resets, h.plat, h.fuses, h.time, h.cores, h.fabric, h.sigcs, h.sems, h.ctxs, h.tier, h.coding, h.parts, h.radio, h.serve, h.records, fun b => absurd b (by simp [h_eth]), h.mem, h.host, h.mgmt, h.power, h.ras, h.twin, h.salt⟩

theorem Only.upd_fabric {m : Nat} {s t : State} {v_fabric} (h_fabric : m.testBit 10 = true) (h : Only m s t) :
    Only m s { t with fabric := v_fabric } := by
  exact ⟨h.pending, h.outGrows, h.freeGrows, h.regsWf, h.memWf, h.out, h.freeIx, h.regs, h.latches, h.resets, h.plat, h.fuses, h.time, h.cores, fun b => absurd b (by simp [h_fabric]), h.sigcs, h.sems, h.ctxs, h.tier, h.coding, h.parts, h.radio, h.serve, h.records, h.eth, h.mem, h.host, h.mgmt, h.power, h.ras, h.twin, h.salt⟩

theorem Only.upd_freeIx {m : Nat} {s t : State} {v_freeIx} (h_freeIx : m.testBit 2 = true) (h : Only m s t) (w_freeIx : t.freeIx ≤ v_freeIx) :
    Only m s { t with freeIx := v_freeIx } := by
  exact ⟨h.pending, h.outGrows, Nat.le_trans h.freeGrows w_freeIx, h.regsWf, h.memWf, h.out, fun b => absurd b (by simp [h_freeIx]), h.regs, h.latches, h.resets, h.plat, h.fuses, h.time, h.cores, h.fabric, h.sigcs, h.sems, h.ctxs, h.tier, h.coding, h.parts, h.radio, h.serve, h.records, h.eth, h.mem, h.host, h.mgmt, h.power, h.ras, h.twin, h.salt⟩

theorem Only.upd_fuses {m : Nat} {s t : State} {v_fuses} (h_fuses : m.testBit 7 = true) (h : Only m s t) :
    Only m s { t with fuses := v_fuses } := by
  exact ⟨h.pending, h.outGrows, h.freeGrows, h.regsWf, h.memWf, h.out, h.freeIx, h.regs, h.latches, h.resets, h.plat, fun b => absurd b (by simp [h_fuses]), h.time, h.cores, h.fabric, h.sigcs, h.sems, h.ctxs, h.tier, h.coding, h.parts, h.radio, h.serve, h.records, h.eth, h.mem, h.host, h.mgmt, h.power, h.ras, h.twin, h.salt⟩

theorem Only.upd_host {m : Nat} {s t : State} {v_host} (h_host : m.testBit 22 = true) (h : Only m s t) :
    Only m s { t with host := v_host } := by
  exact ⟨h.pending, h.outGrows, h.freeGrows, h.regsWf, h.memWf, h.out, h.freeIx, h.regs, h.latches, h.resets, h.plat, h.fuses, h.time, h.cores, h.fabric, h.sigcs, h.sems, h.ctxs, h.tier, h.coding, h.parts, h.radio, h.serve, h.records, h.eth, h.mem, fun b => absurd b (by simp [h_host]), h.mgmt, h.power, h.ras, h.twin, h.salt⟩

theorem Only.upd_latches {m : Nat} {s t : State} {v_latches} (h_latches : m.testBit 4 = true) (h : Only m s t) :
    Only m s { t with latches := v_latches } := by
  exact ⟨h.pending, h.outGrows, h.freeGrows, h.regsWf, h.memWf, h.out, h.freeIx, h.regs, fun b => absurd b (by simp [h_latches]), h.resets, h.plat, h.fuses, h.time, h.cores, h.fabric, h.sigcs, h.sems, h.ctxs, h.tier, h.coding, h.parts, h.radio, h.serve, h.records, h.eth, h.mem, h.host, h.mgmt, h.power, h.ras, h.twin, h.salt⟩

theorem Only.upd_mem {m : Nat} {s t : State} {v_mem} (h_mem : m.testBit 21 = true) (h : Only m s t) (w_mem : t.mem.wf = true → v_mem.wf = true) :
    Only m s { t with mem := v_mem } := by
  exact ⟨h.pending, h.outGrows, h.freeGrows, h.regsWf, fun w => w_mem (h.memWf w), h.out, h.freeIx, h.regs, h.latches, h.resets, h.plat, h.fuses, h.time, h.cores, h.fabric, h.sigcs, h.sems, h.ctxs, h.tier, h.coding, h.parts, h.radio, h.serve, h.records, h.eth, fun b => absurd b (by simp [h_mem]), h.host, h.mgmt, h.power, h.ras, h.twin, h.salt⟩

theorem Only.upd_mgmt {m : Nat} {s t : State} {v_mgmt} (h_mgmt : m.testBit 23 = true) (h : Only m s t) :
    Only m s { t with mgmt := v_mgmt } := by
  exact ⟨h.pending, h.outGrows, h.freeGrows, h.regsWf, h.memWf, h.out, h.freeIx, h.regs, h.latches, h.resets, h.plat, h.fuses, h.time, h.cores, h.fabric, h.sigcs, h.sems, h.ctxs, h.tier, h.coding, h.parts, h.radio, h.serve, h.records, h.eth, h.mem, h.host, fun b => absurd b (by simp [h_mgmt]), h.power, h.ras, h.twin, h.salt⟩

theorem Only.upd_out {m : Nat} {s t : State} {v_out} (h_out : m.testBit 1 = true) (h : Only m s t) (w_out : t.out <+: v_out) :
    Only m s { t with out := v_out } := by
  exact ⟨h.pending, h.outGrows.trans w_out, h.freeGrows, h.regsWf, h.memWf, fun b => absurd b (by simp [h_out]), h.freeIx, h.regs, h.latches, h.resets, h.plat, h.fuses, h.time, h.cores, h.fabric, h.sigcs, h.sems, h.ctxs, h.tier, h.coding, h.parts, h.radio, h.serve, h.records, h.eth, h.mem, h.host, h.mgmt, h.power, h.ras, h.twin, h.salt⟩

theorem Only.upd_parts {m : Nat} {s t : State} {v_parts} (h_parts : m.testBit 16 = true) (h : Only m s t) :
    Only m s { t with parts := v_parts } := by
  exact ⟨h.pending, h.outGrows, h.freeGrows, h.regsWf, h.memWf, h.out, h.freeIx, h.regs, h.latches, h.resets, h.plat, h.fuses, h.time, h.cores, h.fabric, h.sigcs, h.sems, h.ctxs, h.tier, h.coding, fun b => absurd b (by simp [h_parts]), h.radio, h.serve, h.records, h.eth, h.mem, h.host, h.mgmt, h.power, h.ras, h.twin, h.salt⟩

theorem Only.upd_plat {m : Nat} {s t : State} {v_plat} (h_plat : m.testBit 6 = true) (h : Only m s t) :
    Only m s { t with plat := v_plat } := by
  exact ⟨h.pending, h.outGrows, h.freeGrows, h.regsWf, h.memWf, h.out, h.freeIx, h.regs, h.latches, h.resets, fun b => absurd b (by simp [h_plat]), h.fuses, h.time, h.cores, h.fabric, h.sigcs, h.sems, h.ctxs, h.tier, h.coding, h.parts, h.radio, h.serve, h.records, h.eth, h.mem, h.host, h.mgmt, h.power, h.ras, h.twin, h.salt⟩

theorem Only.upd_power {m : Nat} {s t : State} {v_power} (h_power : m.testBit 24 = true) (h : Only m s t) :
    Only m s { t with power := v_power } := by
  exact ⟨h.pending, h.outGrows, h.freeGrows, h.regsWf, h.memWf, h.out, h.freeIx, h.regs, h.latches, h.resets, h.plat, h.fuses, h.time, h.cores, h.fabric, h.sigcs, h.sems, h.ctxs, h.tier, h.coding, h.parts, h.radio, h.serve, h.records, h.eth, h.mem, h.host, h.mgmt, fun b => absurd b (by simp [h_power]), h.ras, h.twin, h.salt⟩

theorem Only.upd_radio {m : Nat} {s t : State} {v_radio} (h_radio : m.testBit 17 = true) (h : Only m s t) :
    Only m s { t with radio := v_radio } := by
  exact ⟨h.pending, h.outGrows, h.freeGrows, h.regsWf, h.memWf, h.out, h.freeIx, h.regs, h.latches, h.resets, h.plat, h.fuses, h.time, h.cores, h.fabric, h.sigcs, h.sems, h.ctxs, h.tier, h.coding, h.parts, fun b => absurd b (by simp [h_radio]), h.serve, h.records, h.eth, h.mem, h.host, h.mgmt, h.power, h.ras, h.twin, h.salt⟩

theorem Only.upd_ras {m : Nat} {s t : State} {v_ras} (h_ras : m.testBit 25 = true) (h : Only m s t) :
    Only m s { t with ras := v_ras } := by
  exact ⟨h.pending, h.outGrows, h.freeGrows, h.regsWf, h.memWf, h.out, h.freeIx, h.regs, h.latches, h.resets, h.plat, h.fuses, h.time, h.cores, h.fabric, h.sigcs, h.sems, h.ctxs, h.tier, h.coding, h.parts, h.radio, h.serve, h.records, h.eth, h.mem, h.host, h.mgmt, h.power, fun b => absurd b (by simp [h_ras]), h.twin, h.salt⟩

theorem Only.upd_records {m : Nat} {s t : State} {v_records} (h_records : m.testBit 19 = true) (h : Only m s t) :
    Only m s { t with records := v_records } := by
  exact ⟨h.pending, h.outGrows, h.freeGrows, h.regsWf, h.memWf, h.out, h.freeIx, h.regs, h.latches, h.resets, h.plat, h.fuses, h.time, h.cores, h.fabric, h.sigcs, h.sems, h.ctxs, h.tier, h.coding, h.parts, h.radio, h.serve, fun b => absurd b (by simp [h_records]), h.eth, h.mem, h.host, h.mgmt, h.power, h.ras, h.twin, h.salt⟩

theorem Only.upd_regs {m : Nat} {s t : State} {v_regs} (h_regs : m.testBit 3 = true) (h : Only m s t) (w_regs : tabWf t.regs = true → tabWf v_regs = true) :
    Only m s { t with regs := v_regs } := by
  exact ⟨h.pending, h.outGrows, h.freeGrows, fun w => w_regs (h.regsWf w), h.memWf, h.out, h.freeIx, fun b => absurd b (by simp [h_regs]), h.latches, h.resets, h.plat, h.fuses, h.time, h.cores, h.fabric, h.sigcs, h.sems, h.ctxs, h.tier, h.coding, h.parts, h.radio, h.serve, h.records, h.eth, h.mem, h.host, h.mgmt, h.power, h.ras, h.twin, h.salt⟩

theorem Only.upd_salt {m : Nat} {s t : State} {v_salt} (h_salt : m.testBit 27 = true) (h : Only m s t) :
    Only m s { t with salt := v_salt } := by
  exact ⟨h.pending, h.outGrows, h.freeGrows, h.regsWf, h.memWf, h.out, h.freeIx, h.regs, h.latches, h.resets, h.plat, h.fuses, h.time, h.cores, h.fabric, h.sigcs, h.sems, h.ctxs, h.tier, h.coding, h.parts, h.radio, h.serve, h.records, h.eth, h.mem, h.host, h.mgmt, h.power, h.ras, h.twin, fun b => absurd b (by simp [h_salt])⟩

theorem Only.upd_sems {m : Nat} {s t : State} {v_sems} (h_sems : m.testBit 12 = true) (h : Only m s t) :
    Only m s { t with sems := v_sems } := by
  exact ⟨h.pending, h.outGrows, h.freeGrows, h.regsWf, h.memWf, h.out, h.freeIx, h.regs, h.latches, h.resets, h.plat, h.fuses, h.time, h.cores, h.fabric, h.sigcs, fun b => absurd b (by simp [h_sems]), h.ctxs, h.tier, h.coding, h.parts, h.radio, h.serve, h.records, h.eth, h.mem, h.host, h.mgmt, h.power, h.ras, h.twin, h.salt⟩

theorem Only.upd_serve {m : Nat} {s t : State} {v_serve} (h_serve : m.testBit 18 = true) (h : Only m s t) :
    Only m s { t with serve := v_serve } := by
  exact ⟨h.pending, h.outGrows, h.freeGrows, h.regsWf, h.memWf, h.out, h.freeIx, h.regs, h.latches, h.resets, h.plat, h.fuses, h.time, h.cores, h.fabric, h.sigcs, h.sems, h.ctxs, h.tier, h.coding, h.parts, h.radio, fun b => absurd b (by simp [h_serve]), h.records, h.eth, h.mem, h.host, h.mgmt, h.power, h.ras, h.twin, h.salt⟩

theorem Only.upd_sigcs {m : Nat} {s t : State} {v_sigcs} (h_sigcs : m.testBit 11 = true) (h : Only m s t) :
    Only m s { t with sigcs := v_sigcs } := by
  exact ⟨h.pending, h.outGrows, h.freeGrows, h.regsWf, h.memWf, h.out, h.freeIx, h.regs, h.latches, h.resets, h.plat, h.fuses, h.time, h.cores, h.fabric, fun b => absurd b (by simp [h_sigcs]), h.sems, h.ctxs, h.tier, h.coding, h.parts, h.radio, h.serve, h.records, h.eth, h.mem, h.host, h.mgmt, h.power, h.ras, h.twin, h.salt⟩

theorem Only.upd_tier {m : Nat} {s t : State} {v_tier} (h_tier : m.testBit 14 = true) (h : Only m s t) :
    Only m s { t with tier := v_tier } := by
  exact ⟨h.pending, h.outGrows, h.freeGrows, h.regsWf, h.memWf, h.out, h.freeIx, h.regs, h.latches, h.resets, h.plat, h.fuses, h.time, h.cores, h.fabric, h.sigcs, h.sems, h.ctxs, fun b => absurd b (by simp [h_tier]), h.coding, h.parts, h.radio, h.serve, h.records, h.eth, h.mem, h.host, h.mgmt, h.power, h.ras, h.twin, h.salt⟩

theorem Only.upd_time {m : Nat} {s t : State} {v_time} (h_time : m.testBit 8 = true) (h : Only m s t) :
    Only m s { t with time := v_time } := by
  exact ⟨h.pending, h.outGrows, h.freeGrows, h.regsWf, h.memWf, h.out, h.freeIx, h.regs, h.latches, h.resets, h.plat, h.fuses, fun b => absurd b (by simp [h_time]), h.cores, h.fabric, h.sigcs, h.sems, h.ctxs, h.tier, h.coding, h.parts, h.radio, h.serve, h.records, h.eth, h.mem, h.host, h.mgmt, h.power, h.ras, h.twin, h.salt⟩

theorem Only.upd_twin {m : Nat} {s t : State} {v_twin} (h_twin : m.testBit 26 = true) (h : Only m s t) :
    Only m s { t with twin := v_twin } := by
  exact ⟨h.pending, h.outGrows, h.freeGrows, h.regsWf, h.memWf, h.out, h.freeIx, h.regs, h.latches, h.resets, h.plat, h.fuses, h.time, h.cores, h.fabric, h.sigcs, h.sems, h.ctxs, h.tier, h.coding, h.parts, h.radio, h.serve, h.records, h.eth, h.mem, h.host, h.mgmt, h.power, h.ras, fun b => absurd b (by simp [h_twin]), h.salt⟩

theorem Only.upd_out_host {m : Nat} {s t : State} {v_out v_host} (h_out : m.testBit 1 = true) (h_host : m.testBit 22 = true) (h : Only m s t) (w_out : t.out <+: v_out) :
    Only m s { t with out := v_out, host := v_host } := by
  exact ⟨h.pending, h.outGrows.trans w_out, h.freeGrows, h.regsWf, h.memWf, fun b => absurd b (by simp [h_out]), h.freeIx, h.regs, h.latches, h.resets, h.plat, h.fuses, h.time, h.cores, h.fabric, h.sigcs, h.sems, h.ctxs, h.tier, h.coding, h.parts, h.radio, h.serve, h.records, h.eth, h.mem, fun b => absurd b (by simp [h_host]), h.mgmt, h.power, h.ras, h.twin, h.salt⟩

theorem Only.upd_out_plat {m : Nat} {s t : State} {v_out v_plat} (h_out : m.testBit 1 = true) (h_plat : m.testBit 6 = true) (h : Only m s t) (w_out : t.out <+: v_out) :
    Only m s { t with out := v_out, plat := v_plat } := by
  exact ⟨h.pending, h.outGrows.trans w_out, h.freeGrows, h.regsWf, h.memWf, fun b => absurd b (by simp [h_out]), h.freeIx, h.regs, h.latches, h.resets, fun b => absurd b (by simp [h_plat]), h.fuses, h.time, h.cores, h.fabric, h.sigcs, h.sems, h.ctxs, h.tier, h.coding, h.parts, h.radio, h.serve, h.records, h.eth, h.mem, h.host, h.mgmt, h.power, h.ras, h.twin, h.salt⟩

theorem Only.upd_plat_host {m : Nat} {s t : State} {v_plat v_host} (h_plat : m.testBit 6 = true) (h_host : m.testBit 22 = true) (h : Only m s t) :
    Only m s { t with plat := v_plat, host := v_host } := by
  exact ⟨h.pending, h.outGrows, h.freeGrows, h.regsWf, h.memWf, h.out, h.freeIx, h.regs, h.latches, h.resets, fun b => absurd b (by simp [h_plat]), h.fuses, h.time, h.cores, h.fabric, h.sigcs, h.sems, h.ctxs, h.tier, h.coding, h.parts, h.radio, h.serve, h.records, h.eth, h.mem, fun b => absurd b (by simp [h_host]), h.mgmt, h.power, h.ras, h.twin, h.salt⟩

theorem Only.upd_plat_mem {m : Nat} {s t : State} {v_plat v_mem} (h_plat : m.testBit 6 = true) (h_mem : m.testBit 21 = true) (h : Only m s t) (w_mem : t.mem.wf = true → v_mem.wf = true) :
    Only m s { t with plat := v_plat, mem := v_mem } := by
  exact ⟨h.pending, h.outGrows, h.freeGrows, h.regsWf, fun w => w_mem (h.memWf w), h.out, h.freeIx, h.regs, h.latches, h.resets, fun b => absurd b (by simp [h_plat]), h.fuses, h.time, h.cores, h.fabric, h.sigcs, h.sems, h.ctxs, h.tier, h.coding, h.parts, h.radio, h.serve, h.records, h.eth, fun b => absurd b (by simp [h_mem]), h.host, h.mgmt, h.power, h.ras, h.twin, h.salt⟩

theorem Only.upd_plat_power {m : Nat} {s t : State} {v_plat v_power} (h_plat : m.testBit 6 = true) (h_power : m.testBit 24 = true) (h : Only m s t) :
    Only m s { t with plat := v_plat, power := v_power } := by
  exact ⟨h.pending, h.outGrows, h.freeGrows, h.regsWf, h.memWf, h.out, h.freeIx, h.regs, h.latches, h.resets, fun b => absurd b (by simp [h_plat]), h.fuses, h.time, h.cores, h.fabric, h.sigcs, h.sems, h.ctxs, h.tier, h.coding, h.parts, h.radio, h.serve, h.records, h.eth, h.mem, h.host, h.mgmt, fun b => absurd b (by simp [h_power]), h.ras, h.twin, h.salt⟩

theorem Only.upd_plat_time {m : Nat} {s t : State} {v_plat v_time} (h_plat : m.testBit 6 = true) (h_time : m.testBit 8 = true) (h : Only m s t) :
    Only m s { t with plat := v_plat, time := v_time } := by
  exact ⟨h.pending, h.outGrows, h.freeGrows, h.regsWf, h.memWf, h.out, h.freeIx, h.regs, h.latches, h.resets, fun b => absurd b (by simp [h_plat]), h.fuses, fun b => absurd b (by simp [h_time]), h.cores, h.fabric, h.sigcs, h.sems, h.ctxs, h.tier, h.coding, h.parts, h.radio, h.serve, h.records, h.eth, h.mem, h.host, h.mgmt, h.power, h.ras, h.twin, h.salt⟩

theorem Only.upd_radio_power {m : Nat} {s t : State} {v_radio v_power} (h_radio : m.testBit 17 = true) (h_power : m.testBit 24 = true) (h : Only m s t) :
    Only m s { t with radio := v_radio, power := v_power } := by
  exact ⟨h.pending, h.outGrows, h.freeGrows, h.regsWf, h.memWf, h.out, h.freeIx, h.regs, h.latches, h.resets, h.plat, h.fuses, h.time, h.cores, h.fabric, h.sigcs, h.sems, h.ctxs, h.tier, h.coding, h.parts, fun b => absurd b (by simp [h_radio]), h.serve, h.records, h.eth, h.mem, h.host, h.mgmt, fun b => absurd b (by simp [h_power]), h.ras, h.twin, h.salt⟩

theorem Only.upd_ras_salt {m : Nat} {s t : State} {v_ras v_salt} (h_ras : m.testBit 25 = true) (h_salt : m.testBit 27 = true) (h : Only m s t) :
    Only m s { t with ras := v_ras, salt := v_salt } := by
  exact ⟨h.pending, h.outGrows, h.freeGrows, h.regsWf, h.memWf, h.out, h.freeIx, h.regs, h.latches, h.resets, h.plat, h.fuses, h.time, h.cores, h.fabric, h.sigcs, h.sems, h.ctxs, h.tier, h.coding, h.parts, h.radio, h.serve, h.records, h.eth, h.mem, h.host, h.mgmt, h.power, fun b => absurd b (by simp [h_ras]), h.twin, fun b => absurd b (by simp [h_salt])⟩

theorem Only.upd_regs_latches {m : Nat} {s t : State} {v_regs v_latches} (h_regs : m.testBit 3 = true) (h_latches : m.testBit 4 = true) (h : Only m s t) (w_regs : tabWf t.regs = true → tabWf v_regs = true) :
    Only m s { t with regs := v_regs, latches := v_latches } := by
  exact ⟨h.pending, h.outGrows, h.freeGrows, fun w => w_regs (h.regsWf w), h.memWf, h.out, h.freeIx, fun b => absurd b (by simp [h_regs]), fun b => absurd b (by simp [h_latches]), h.resets, h.plat, h.fuses, h.time, h.cores, h.fabric, h.sigcs, h.sems, h.ctxs, h.tier, h.coding, h.parts, h.radio, h.serve, h.records, h.eth, h.mem, h.host, h.mgmt, h.power, h.ras, h.twin, h.salt⟩

theorem Only.upd_regs_mem {m : Nat} {s t : State} {v_regs v_mem} (h_regs : m.testBit 3 = true) (h_mem : m.testBit 21 = true) (h : Only m s t) (w_regs : tabWf t.regs = true → tabWf v_regs = true) (w_mem : t.mem.wf = true → v_mem.wf = true) :
    Only m s { t with regs := v_regs, mem := v_mem } := by
  exact ⟨h.pending, h.outGrows, h.freeGrows, fun w => w_regs (h.regsWf w), fun w => w_mem (h.memWf w), h.out, h.freeIx, fun b => absurd b (by simp [h_regs]), h.latches, h.resets, h.plat, h.fuses, h.time, h.cores, h.fabric, h.sigcs, h.sems, h.ctxs, h.tier, h.coding, h.parts, h.radio, h.serve, h.records, h.eth, fun b => absurd b (by simp [h_mem]), h.host, h.mgmt, h.power, h.ras, h.twin, h.salt⟩

theorem Only.upd_sems_tier {m : Nat} {s t : State} {v_sems v_tier} (h_sems : m.testBit 12 = true) (h_tier : m.testBit 14 = true) (h : Only m s t) :
    Only m s { t with sems := v_sems, tier := v_tier } := by
  exact ⟨h.pending, h.outGrows, h.freeGrows, h.regsWf, h.memWf, h.out, h.freeIx, h.regs, h.latches, h.resets, h.plat, h.fuses, h.time, h.cores, h.fabric, h.sigcs, fun b => absurd b (by simp [h_sems]), h.ctxs, fun b => absurd b (by simp [h_tier]), h.coding, h.parts, h.radio, h.serve, h.records, h.eth, h.mem, h.host, h.mgmt, h.power, h.ras, h.twin, h.salt⟩

theorem Only.upd_tier_mem {m : Nat} {s t : State} {v_tier v_mem} (h_tier : m.testBit 14 = true) (h_mem : m.testBit 21 = true) (h : Only m s t) (w_mem : t.mem.wf = true → v_mem.wf = true) :
    Only m s { t with tier := v_tier, mem := v_mem } := by
  exact ⟨h.pending, h.outGrows, h.freeGrows, h.regsWf, fun w => w_mem (h.memWf w), h.out, h.freeIx, h.regs, h.latches, h.resets, h.plat, h.fuses, h.time, h.cores, h.fabric, h.sigcs, h.sems, h.ctxs, fun b => absurd b (by simp [h_tier]), h.coding, h.parts, h.radio, h.serve, h.records, h.eth, fun b => absurd b (by simp [h_mem]), h.host, h.mgmt, h.power, h.ras, h.twin, h.salt⟩

theorem Only.upd_tier_parts {m : Nat} {s t : State} {v_tier v_parts} (h_tier : m.testBit 14 = true) (h_parts : m.testBit 16 = true) (h : Only m s t) :
    Only m s { t with tier := v_tier, parts := v_parts } := by
  exact ⟨h.pending, h.outGrows, h.freeGrows, h.regsWf, h.memWf, h.out, h.freeIx, h.regs, h.latches, h.resets, h.plat, h.fuses, h.time, h.cores, h.fabric, h.sigcs, h.sems, h.ctxs, fun b => absurd b (by simp [h_tier]), h.coding, fun b => absurd b (by simp [h_parts]), h.radio, h.serve, h.records, h.eth, h.mem, h.host, h.mgmt, h.power, h.ras, h.twin, h.salt⟩

theorem Only.upd_tier_serve {m : Nat} {s t : State} {v_tier v_serve} (h_tier : m.testBit 14 = true) (h_serve : m.testBit 18 = true) (h : Only m s t) :
    Only m s { t with tier := v_tier, serve := v_serve } := by
  exact ⟨h.pending, h.outGrows, h.freeGrows, h.regsWf, h.memWf, h.out, h.freeIx, h.regs, h.latches, h.resets, h.plat, h.fuses, h.time, h.cores, h.fabric, h.sigcs, h.sems, h.ctxs, fun b => absurd b (by simp [h_tier]), h.coding, h.parts, h.radio, fun b => absurd b (by simp [h_serve]), h.records, h.eth, h.mem, h.host, h.mgmt, h.power, h.ras, h.twin, h.salt⟩

theorem Only.upd_cores_sems_mem {m : Nat} {s t : State} {v_cores v_sems v_mem} (h_cores : m.testBit 9 = true) (h_sems : m.testBit 12 = true) (h_mem : m.testBit 21 = true) (h : Only m s t) (w_mem : t.mem.wf = true → v_mem.wf = true) :
    Only m s { t with cores := v_cores, sems := v_sems, mem := v_mem } := by
  exact ⟨h.pending, h.outGrows, h.freeGrows, h.regsWf, fun w => w_mem (h.memWf w), h.out, h.freeIx, h.regs, h.latches, h.resets, h.plat, h.fuses, h.time, fun b => absurd b (by simp [h_cores]), h.fabric, h.sigcs, fun b => absurd b (by simp [h_sems]), h.ctxs, h.tier, h.coding, h.parts, h.radio, h.serve, h.records, h.eth, fun b => absurd b (by simp [h_mem]), h.host, h.mgmt, h.power, h.ras, h.twin, h.salt⟩

theorem Only.upd_out_plat_twin {m : Nat} {s t : State} {v_out v_plat v_twin} (h_out : m.testBit 1 = true) (h_plat : m.testBit 6 = true) (h_twin : m.testBit 26 = true) (h : Only m s t) (w_out : t.out <+: v_out) :
    Only m s { t with out := v_out, plat := v_plat, twin := v_twin } := by
  exact ⟨h.pending, h.outGrows.trans w_out, h.freeGrows, h.regsWf, h.memWf, fun b => absurd b (by simp [h_out]), h.freeIx, h.regs, h.latches, h.resets, fun b => absurd b (by simp [h_plat]), h.fuses, h.time, h.cores, h.fabric, h.sigcs, h.sems, h.ctxs, h.tier, h.coding, h.parts, h.radio, h.serve, h.records, h.eth, h.mem, h.host, h.mgmt, h.power, h.ras, fun b => absurd b (by simp [h_twin]), h.salt⟩

theorem Only.upd_parts_radio_serve {m : Nat} {s t : State} {v_parts v_radio v_serve} (h_parts : m.testBit 16 = true) (h_radio : m.testBit 17 = true) (h_serve : m.testBit 18 = true) (h : Only m s t) :
    Only m s { t with parts := v_parts, radio := v_radio, serve := v_serve } := by
  exact ⟨h.pending, h.outGrows, h.freeGrows, h.regsWf, h.memWf, h.out, h.freeIx, h.regs, h.latches, h.resets, h.plat, h.fuses, h.time, h.cores, h.fabric, h.sigcs, h.sems, h.ctxs, h.tier, h.coding, fun b => absurd b (by simp [h_parts]), fun b => absurd b (by simp [h_radio]), fun b => absurd b (by simp [h_serve]), h.records, h.eth, h.mem, h.host, h.mgmt, h.power, h.ras, h.twin, h.salt⟩

theorem Only.upd_plat_mem_host {m : Nat} {s t : State} {v_plat v_mem v_host} (h_plat : m.testBit 6 = true) (h_mem : m.testBit 21 = true) (h_host : m.testBit 22 = true) (h : Only m s t) (w_mem : t.mem.wf = true → v_mem.wf = true) :
    Only m s { t with plat := v_plat, mem := v_mem, host := v_host } := by
  exact ⟨h.pending, h.outGrows, h.freeGrows, h.regsWf, fun w => w_mem (h.memWf w), h.out, h.freeIx, h.regs, h.latches, h.resets, fun b => absurd b (by simp [h_plat]), h.fuses, h.time, h.cores, h.fabric, h.sigcs, h.sems, h.ctxs, h.tier, h.coding, h.parts, h.radio, h.serve, h.records, h.eth, fun b => absurd b (by simp [h_mem]), fun b => absurd b (by simp [h_host]), h.mgmt, h.power, h.ras, h.twin, h.salt⟩

theorem Only.upd_sems_ctxs_tier_serve_host {m : Nat} {s t : State} {v_sems v_ctxs v_tier v_serve v_host} (h_sems : m.testBit 12 = true) (h_ctxs : m.testBit 13 = true) (h_tier : m.testBit 14 = true) (h_serve : m.testBit 18 = true) (h_host : m.testBit 22 = true) (h : Only m s t) :
    Only m s { t with sems := v_sems, ctxs := v_ctxs, tier := v_tier, serve := v_serve, host := v_host } := by
  exact ⟨h.pending, h.outGrows, h.freeGrows, h.regsWf, h.memWf, h.out, h.freeIx, h.regs, h.latches, h.resets, h.plat, h.fuses, h.time, h.cores, h.fabric, h.sigcs, fun b => absurd b (by simp [h_sems]), fun b => absurd b (by simp [h_ctxs]), fun b => absurd b (by simp [h_tier]), h.coding, h.parts, h.radio, fun b => absurd b (by simp [h_serve]), h.records, h.eth, h.mem, fun b => absurd b (by simp [h_host]), h.mgmt, h.power, h.ras, h.twin, h.salt⟩

theorem Only.upd_regs_fabric_sems_ctxs_tier_coding_parts_radio_serve_records {m : Nat} {s t : State} {v_regs v_fabric v_sems v_ctxs v_tier v_coding v_parts v_radio v_serve v_records} (h_regs : m.testBit 3 = true) (h_fabric : m.testBit 10 = true) (h_sems : m.testBit 12 = true) (h_ctxs : m.testBit 13 = true) (h_tier : m.testBit 14 = true) (h_coding : m.testBit 15 = true) (h_parts : m.testBit 16 = true) (h_radio : m.testBit 17 = true) (h_serve : m.testBit 18 = true) (h_records : m.testBit 19 = true) (h : Only m s t) (w_regs : tabWf t.regs = true → tabWf v_regs = true) :
    Only m s { t with regs := v_regs, fabric := v_fabric, sems := v_sems, ctxs := v_ctxs, tier := v_tier, coding := v_coding, parts := v_parts, radio := v_radio, serve := v_serve, records := v_records } := by
  exact ⟨h.pending, h.outGrows, h.freeGrows, fun w => w_regs (h.regsWf w), h.memWf, h.out, h.freeIx, fun b => absurd b (by simp [h_regs]), h.latches, h.resets, h.plat, h.fuses, h.time, h.cores, fun b => absurd b (by simp [h_fabric]), h.sigcs, fun b => absurd b (by simp [h_sems]), fun b => absurd b (by simp [h_ctxs]), fun b => absurd b (by simp [h_tier]), fun b => absurd b (by simp [h_coding]), fun b => absurd b (by simp [h_parts]), fun b => absurd b (by simp [h_radio]), fun b => absurd b (by simp [h_serve]), fun b => absurd b (by simp [h_records]), h.eth, h.mem, h.host, h.mgmt, h.power, h.ras, h.twin, h.salt⟩

/-- A choice follows where each of its sides does. -/
theorem if_only {m : Nat} {s t u : State} {p : Prop} [Decidable p] (h : Only m s t) (g : Only m s u) : Only m s (if p then t else u) := by
  split
  · exact h
  · exact g

theorem wf_spad {x : MemState} {v : Memory} (hm : v.wf = true) (h : x.wf = true) : ({ x with spad := v } : MemState).wf = true := by
  simp only [MemState.wf, Bool.and_eq_true] at *
  simp [h, hm]

theorem wf_of_spad {x : MemState} (h : x.wf = true) : x.spad.wf = true := by
  simp only [MemState.wf, Bool.and_eq_true] at h
  simp [h]

theorem wf_imem {x : MemState} {v : Memory} (hm : v.wf = true) (h : x.wf = true) : ({ x with imem := v } : MemState).wf = true := by
  simp only [MemState.wf, Bool.and_eq_true] at *
  simp [h, hm]

theorem wf_of_imem {x : MemState} (h : x.wf = true) : x.imem.wf = true := by
  simp only [MemState.wf, Bool.and_eq_true] at h
  simp [h]

theorem wf_dmem {x : MemState} {v : Memory} (hm : v.wf = true) (h : x.wf = true) : ({ x with dmem := v } : MemState).wf = true := by
  simp only [MemState.wf, Bool.and_eq_true] at *
  simp [h, hm]

theorem wf_of_dmem {x : MemState} (h : x.wf = true) : x.dmem.wf = true := by
  simp only [MemState.wf, Bool.and_eq_true] at h
  simp [h]

theorem wf_simem {x : MemState} {v : Memory} (hm : v.wf = true) (h : x.wf = true) : ({ x with simem := v } : MemState).wf = true := by
  simp only [MemState.wf, Bool.and_eq_true] at *
  simp [h, hm]

theorem wf_of_simem {x : MemState} (h : x.wf = true) : x.simem.wf = true := by
  simp only [MemState.wf, Bool.and_eq_true] at h
  simp [h]

theorem wf_hbm {x : MemState} {v : Memory} (hm : v.wf = true) (h : x.wf = true) : ({ x with hbm := v } : MemState).wf = true := by
  simp only [MemState.wf, Bool.and_eq_true] at *
  simp [h, hm]

theorem wf_of_hbm {x : MemState} (h : x.wf = true) : x.hbm.wf = true := by
  simp only [MemState.wf, Bool.and_eq_true] at h
  simp [h]

theorem wf_buf {x : MemState} {v : Memory} (hm : v.wf = true) (h : x.wf = true) : ({ x with buf := v } : MemState).wf = true := by
  simp only [MemState.wf, Bool.and_eq_true] at *
  simp [h, hm]

theorem wf_of_buf {x : MemState} (h : x.wf = true) : x.buf.wf = true := by
  simp only [MemState.wf, Bool.and_eq_true] at h
  simp [h]

theorem wf_bulk {x : MemState} {v : Memory} (hm : v.wf = true) (h : x.wf = true) : ({ x with bulk := v } : MemState).wf = true := by
  simp only [MemState.wf, Bool.and_eq_true] at *
  simp [h, hm]

theorem wf_of_bulk {x : MemState} (h : x.wf = true) : x.bulk.wf = true := by
  simp only [MemState.wf, Bool.and_eq_true] at h
  simp [h]

theorem wf_tags {x : MemState} {v : Memory} (hm : v.wf = true) (h : x.wf = true) : ({ x with tags := v } : MemState).wf = true := by
  simp only [MemState.wf, Bool.and_eq_true] at *
  simp [h, hm]

theorem wf_of_tags {x : MemState} (h : x.wf = true) : x.tags.wf = true := by
  simp only [MemState.wf, Bool.and_eq_true] at h
  simp [h]

theorem wf_mem_mk {a b c d e f g k : Memory} (ha : a.wf = true) (hb : b.wf = true) (hc : c.wf = true) (hd : d.wf = true)
    (he : e.wf = true) (hf : f.wf = true) (hg : g.wf = true) (hk : k.wf = true) : (MemState.mk a b c d e f g k).wf = true := by
  simp [MemState.wf, ha, hb, hc, hd, he, hf, hg, hk]

theorem wf_empty : ({} : Memory).wf = true := rfl

theorem Only.pair2 {a : Nat} {α : Type} {s : State} {p : α × State} {t : State} {x : α} (g : Only a s p.2) (e : p = (x, t)) :
    Only a s t := by subst e; exact g

theorem fieldSet_wf {p : Page} {f : RegField} {i v : Nat} {m : RegFile} (h : tabWf m = true) : tabWf (fieldSet p f i v m) = true :=
  tabWf_put _ _ _ _ h

theorem setRegion_wf {r : Region} {m : Memory} {x : MemState} (hm : m.wf = true) (h : x.wf = true) :
    (setRegion r m x).wf = true := by
  simp only [MemState.wf, Bool.and_eq_true] at h
  cases r <;> simp [setRegion, MemState.wf, h, hm]

theorem memory_wf {s : State} (r : Region) (h : s.mem.wf = true) : (s.memory r).wf = true := by
  simp only [MemState.wf, Bool.and_eq_true] at h
  cases r <;> simp [State.memory, h]

theorem wf_parts {m : Memory} : m.wf = true ↔ tabWf m.cells = true ∧ tabWf m.flips = true ∧ m.flips.all (fun e => e.2 != 0) = true := by
  simp [Memory.wf, and_assoc]

theorem tabSorted_tail {lo : Nat} {e : Nat × Nat} {m : Table Nat} (h : tabSorted lo (e :: m) = true) : tabSorted (e.1 + 1) m = true := by
  obtain ⟨k, v⟩ := e
  simp only [tabSorted, Bool.and_eq_true] at h
  exact h.2

theorem all_del {α : Type} {p : Nat × α → Bool} (k : Nat) {m : Table α} (h : m.all p = true) : (tabDel k m).all p = true := by
  induction m with
  | nil => rfl
  | cons e m ih =>
    obtain ⟨j, v⟩ := e
    simp only [List.all_cons, Bool.and_eq_true] at h
    unfold tabDel
    split
    · exact ih h.2
    · simp [h.1, ih h.2]

theorem all_ins {α : Type} {p : Nat × α → Bool} {k : Nat} {v : α} {m : Table α} (hv : p (k, v) = true) (h : m.all p = true) :
    (tabIns k v m).all p = true := by
  induction m with
  | nil => simp [tabIns, hv]
  | cons e m ih =>
    obtain ⟨j, w⟩ := e
    simp only [List.all_cons, Bool.and_eq_true] at h
    unfold tabIns
    split
    · simp [hv, h.1, h.2]
    · simp [h.1, ih h.2]

theorem all_set {α : Type} {p : Nat × α → Bool} {k : Nat} {v : α} {m : Table α} (hv : p (k, v) = true) (h : m.all p = true) :
    (tabSet k v m).all p = true := all_ins hv (all_del k h)

theorem tabSorted_filter {α : Type} (p : Nat × α → Bool) {lo : Nat} {m : Table α} (h : tabSorted lo m = true) :
    tabSorted lo (m.filter p) = true := by
  induction m generalizing lo with
  | nil => rfl
  | cons e m ih =>
    obtain ⟨k, v⟩ := e
    simp only [tabSorted, Bool.and_eq_true, decide_eq_true_eq] at h
    cases hp : p (k, v)
    · rw [List.filter_cons_of_neg (by simp [hp])]
      exact ih (tabSorted_mono (by omega) m h.2)
    · rw [List.filter_cons_of_pos (by simp [hp])]
      simp only [tabSorted, Bool.and_eq_true, decide_eq_true_eq]
      exact ⟨h.1, ih h.2⟩

/-- Flips put into a memory of canonical form. -/
theorem wf_put_flips {w v : Nat} {m : Memory} (h : m.wf = true) : ({ m with flips := tabPut 0 w v m.flips } : Memory).wf = true := by
  rw [wf_parts] at *
  refine ⟨h.1, tabWf_put _ _ _ _ h.2.1, ?_⟩
  unfold tabPut
  split
  · exact all_del _ h.2.2
  · next hv => exact all_set (by simp [hv]) h.2.2

theorem wf_del_flips {w : Nat} {m : Memory} (h : m.wf = true) : ({ m with flips := tabDel w m.flips } : Memory).wf = true := by
  rw [wf_parts] at *
  exact ⟨h.1, tabWf_del _ _ h.2.1, all_del _ h.2.2⟩

theorem writeCells_wf {a : Nat} {bs : List Byte} {m : List Host.Cell} (h : tabWf m = true) : tabWf (writeCells a bs m) = true := by
  induction bs generalizing a m with
  | nil => exact h
  | cons b bs ih => exact ih (tabWf_set _ _ _ h)

theorem clearCells_wf {a n : Nat} {m : List Host.Cell} (h : tabWf m = true) : tabWf (clearCells a n m) = true := by
  induction n generalizing a m with
  | zero => exact h
  | succ n ih => exact ih (tabWf_del _ _ h)

theorem spoilWord_wf {r : Region} {w : Nat} {m : Memory} (h : m.wf = true) : (spoilWord r m w).wf = true := by
  rw [wf_parts] at h
  unfold spoilWord
  split
  · exact wf_parts.mpr ⟨h.1, tabWf_set _ _ _ h.2.1, all_set (by simp) h.2.2⟩
  · exact wf_parts.mpr ⟨clearCells_wf h.1, tabWf_del _ _ h.2.1, all_del _ h.2.2⟩

theorem writeWord_wf {r : Region} {a w : Nat} {bs : List Byte} {m : Memory} (h : m.wf = true) : (writeWord r a bs m w).wf = true := by
  unfold writeWord
  extract_lets
  split
  · rw [wf_parts] at h
    exact wf_parts.mpr ⟨writeCells_wf h.1, tabWf_del _ _ h.2.1, all_del _ h.2.2⟩
  · exact spoilWord_wf h

theorem foldl_wf {α : Type} {f : Memory → α → Memory} (hf : ∀ m x, m.wf = true → (f m x).wf = true) {l : List α} {m : Memory}
    (h : m.wf = true) : (l.foldl f m).wf = true := by
  induction l generalizing m with
  | nil => exact h
  | cons x l ih => exact ih (hf m x h)

/-- Every write of bytes keeps a memory's canonical form. -/
theorem writeBytes_wf {r : Region} {a : Nat} {bs : List Byte} {m : Memory} (h : m.wf = true) : (writeBytes r a bs m).wf = true :=
  foldl_wf (fun _ _ => writeWord_wf) h

theorem spoilBytes_wf {r : Region} {a n : Nat} {m : Memory} (h : m.wf = true) : (spoilBytes r a n m).wf = true :=
  foldl_wf (fun _ _ => spoilWord_wf) h

theorem wf_filter_cells {p : Host.Cell → Bool} {m : Memory} (h : m.wf = true) :
    ({ m with cells := m.cells.filter p } : Memory).wf = true := by
  exact wf_parts.mpr ⟨tabSorted_filter p (wf_parts.mp h).1, (wf_parts.mp h).2⟩

theorem wf_mk {c : List Host.Cell} {f : Table Nat} (hc : tabWf c = true) (hf : tabWf f = true) (ha : f.all (fun e => e.2 != 0) = true) :
    (Memory.mk c f).wf = true := wf_parts.mpr ⟨hc, hf, ha⟩

theorem wf_cells {m : Memory} (h : m.wf = true) : tabWf m.cells = true := (wf_parts.mp h).1
theorem wf_flips {m : Memory} (h : m.wf = true) : tabWf m.flips = true := (wf_parts.mp h).2.1
theorem wf_flips_set {m : Memory} (h : m.wf = true) : m.flips.all (fun e => e.2 != 0) = true := (wf_parts.mp h).2.2

theorem all_filter {α : Type} {p q : α → Bool} {l : List α} (h : l.all p = true) : (l.filter q).all p = true := by
  rw [List.all_eq_true] at *
  exact fun x hx => h x (List.mem_of_mem_filter hx)

theorem foldl_set_wf {α β : Type} {k : β → Nat} {v : β → α} {l : List β} {m : Table α} (h : tabWf m = true) :
    tabWf (l.foldl (fun t e => tabSet (k e) (v e) t) m) = true := by
  induction l generalizing m with
  | nil => exact h
  | cons x l ih => exact ih (tabWf_set _ _ _ h)

theorem delFlips_wf {l : List Nat} {m : Memory} (h : m.wf = true) :
    ({ m with flips := l.foldl (fun f w => tabDel w f) m.flips } : Memory).wf = true := by
  rw [wf_parts] at *
  refine ⟨h.1, ?_⟩
  obtain ⟨_, h⟩ := h
  generalize m.flips = f at h
  induction l generalizing f with
  | nil => exact h
  | cons w l ih => exact ih _ ⟨tabWf_del _ _ h.1, all_del _ h.2⟩

end Sys2Proof.Machine
end

