-- ==== Sys2Proof/Laws/OnlyOps.lean ====
section
/-! SUPPORT. What each operation of Machine/Ops.lean may touch: one lemma per operation, in the form of Laws/Only.lean. -/

namespace Sys2Proof.Machine

set_option linter.unusedTactic false
set_option linter.unreachableTactic false
set_option linter.unusedVariables false

theorem State.setReg_only (s : State) (a1 : Page) (a2 : RegField) (a3 : Nat) (a4 : Nat) :
    Only 8 s (State.setReg s a1 a2 a3 a4) := by
  unfold State.setReg
  repeat' (first
    | with_reducible intro _
    | with_reducible apply Only.refl
    | with_reducible assumption
    | with_reducible apply fieldSet_wf
    | decide
    | with_reducible apply Only.upd_regs
    | dsimp +zetaDelta only [id])

theorem State.bump_only (s : State) (a1 : Page) (a2 : RegField) (a3 : Nat) (a4 : Nat) :
    Only 8 s (State.bump s a1 a2 a3 a4) := by
  unfold State.bump
  repeat' (first
    | with_reducible intro _
    | with_reducible apply Only.refl
    | with_reducible assumption
    | with_reducible apply Only.step (State.setReg_only ..)
    | decide
    | dsimp +zetaDelta only [id])

theorem State.addReg_only (s : State) (a1 : Page) (a2 : RegField) (a3 : Nat) (a4 : Nat) :
    Only 8 s (State.addReg s a1 a2 a3 a4) := by
  unfold State.addReg
  repeat' (first
    | with_reducible intro _
    | with_reducible apply Only.refl
    | with_reducible assumption
    | with_reducible apply Only.step (State.setReg_only ..)
    | decide
    | dsimp +zetaDelta only [id])



theorem State.emit_only (s : State) (a1 : Emission) :
    Only 2 s (State.emit s a1) := by
  unfold State.emit
  repeat' (first
    | with_reducible intro _
    | with_reducible apply Only.refl
    | with_reducible assumption
    | with_reducible apply List.prefix_append
    | with_reducible apply List.prefix_refl
    | decide
    | with_reducible apply Only.upd_out
    | dsimp +zetaDelta only [id])

theorem State.usedFree_only (s : State) (a1 : Nat) :
    Only 4 s (State.usedFree s a1) := by
  unfold State.usedFree
  repeat' (first
    | with_reducible intro _
    | with_reducible apply Only.refl
    | with_reducible assumption
    | with_reducible apply Nat.le_add_right
    | decide
    | with_reducible apply Only.upd_freeIx
    | dsimp +zetaDelta only [id])

theorem State.signal_only (s : State) (a1 : Bool) (a2 : Nat) (a3 : Nat) :
    Only 4194306 s (State.signal s a1 a2 a3) := by
  unfold State.signal
  repeat' (first
    | with_reducible intro _
    | with_reducible apply Only.refl
    | with_reducible assumption
    | with_reducible apply List.prefix_append
    | with_reducible apply List.prefix_refl
    | decide
    | fail_if_no_progress extract_lets
    | split
    | with_reducible apply Only.upd_out_host
    | dsimp +zetaDelta only [id])

theorem State.tellLead_only (s : State) (a1 : Bool) :
    Only 2 s (State.tellLead s a1) := by
  unfold State.tellLead
  repeat' (first
    | with_reducible intro _
    | with_reducible apply Only.refl
    | with_reducible assumption
    | with_reducible apply List.prefix_append
    | with_reducible apply List.prefix_refl
    | decide
    | fail_if_no_progress extract_lets
    | split
    | with_reducible apply Only.upd_out
    | dsimp +zetaDelta only [id])

theorem State.raiseBits_only (s : State) (a1 : Page) (a2 : Nat) :
    Only 4194314 s (State.raiseBits s a1 a2) := by
  unfold State.raiseBits
  repeat' (first
    | with_reducible intro _
    | with_reducible apply Only.refl
    | with_reducible assumption
    | with_reducible apply Only.step (State.setReg_only ..)
    | with_reducible apply Only.step (State.tellLead_only ..)
    | with_reducible apply Only.step (State.signal_only ..)
    | decide
    | fail_if_no_progress extract_lets
    | dsimp +zetaDelta only [id])

theorem State.raise_only (s : State) (a1 : Page) (a2 : Nat) :
    Only 4194314 s (State.raise s a1 a2) := by
  unfold State.raise
  repeat' (first
    | with_reducible intro _
    | with_reducible apply Only.refl
    | with_reducible assumption
    | with_reducible apply Only.step (State.raiseBits_only ..)
    | decide
    | dsimp +zetaDelta only [id])

theorem noteTraining_only (s : State) :
    Only 134217728 s (noteTraining s) := by
  unfold noteTraining
  repeat' (first
    | with_reducible intro _
    | with_reducible apply Only.refl
    | with_reducible assumption
    | decide
    | with_reducible apply Only.upd_salt
    | dsimp +zetaDelta only [id])

theorem State.countErrors_only (s : State) (a1 : Page) (a2 : Nat) :
    Only 4194314 s (State.countErrors s a1 a2) := by
  unfold State.countErrors
  repeat' (first
    | with_reducible intro _
    | with_reducible apply Only.refl
    | with_reducible assumption
    | with_reducible apply Only.step (State.raiseBits_only ..)
    | with_reducible apply Only.step (State.bump_only ..)
    | decide
    | split
    | dsimp +zetaDelta only [id])

theorem State.capture_only (s : State) (a1 : Page) (a2 : Nat) (a3 : Nat) (a4 : Nat) :
    Only 8 s (State.capture s a1 a2 a3 a4) := by
  unfold State.capture
  repeat' (first
    | with_reducible intro _
    | with_reducible apply Only.refl
    | with_reducible assumption
    | with_reducible apply fieldSet_wf
    | decide
    | fail_if_no_progress extract_lets
    | split
    | with_reducible apply Only.upd_regs
    | dsimp +zetaDelta only [id])

theorem State.error_only (s : State) (a1 : Page) (a2 : Nat) (a3 : Nat) (a4 : Nat) :
    Only 4194314 s (State.error s a1 a2 a3 a4) := by
  unfold State.error
  repeat' (first
    | with_reducible intro _
    | with_reducible apply Only.refl
    | with_reducible assumption
    | with_reducible apply Only.step (State.countErrors_only ..)
    | with_reducible apply Only.step (State.capture_only ..)
    | decide
    | dsimp +zetaDelta only [id])

theorem State.setCore_only (s : State) (a1 : Nat) (a2 : Core) :
    Only 512 s (State.setCore s a1 a2) := by
  unfold State.setCore
  repeat' (first
    | with_reducible intro _
    | with_reducible apply Only.refl
    | with_reducible assumption
    | decide
    | with_reducible apply Only.upd_cores
    | dsimp +zetaDelta only [id])

theorem State.modCore_only (s : State) (a1 : Nat) (a2 : Core → Core) :
    Only 512 s (State.modCore s a1 a2) := by
  unfold State.modCore
  repeat' (first
    | with_reducible intro _
    | with_reducible apply Only.refl
    | with_reducible assumption
    | with_reducible apply Only.step (State.setCore_only ..)
    | decide
    | dsimp +zetaDelta only [id])

theorem State.setSigc_only (s : State) (a1 : Nat) (a2 : Sigc) :
    Only 2048 s (State.setSigc s a1 a2) := by
  unfold State.setSigc
  repeat' (first
    | with_reducible intro _
    | with_reducible apply Only.refl
    | with_reducible assumption
    | decide
    | with_reducible apply Only.upd_sigcs
    | dsimp +zetaDelta only [id])

theorem State.setSem_only (s : State) (a1 : Nat) (a2 : Sem) :
    Only 4096 s (State.setSem s a1 a2) := by
  unfold State.setSem
  repeat' (first
    | with_reducible intro _
    | with_reducible apply Only.refl
    | with_reducible assumption
    | decide
    | with_reducible apply Only.upd_sems
    | dsimp +zetaDelta only [id])

theorem State.setCtx_only (s : State) (a1 : Nat) (a2 : Nat) (a3 : Ctx) :
    Only 8192 s (State.setCtx s a1 a2 a3) := by
  unfold State.setCtx
  repeat' (first
    | with_reducible intro _
    | with_reducible apply Only.refl
    | with_reducible assumption
    | decide
    | with_reducible apply Only.upd_ctxs
    | dsimp +zetaDelta only [id])

end Sys2Proof.Machine
end

