-- ==== Sys2Proof/Laws/OnlyAccess.lean ====
section
/-! SUPPORT. What each operation of Machine/Access.lean may touch: one lemma per operation, in the form of Laws/Only.lean. -/

namespace Sys2Proof.Machine

set_option linter.unusedTactic false
set_option linter.unreachableTactic false
set_option linter.unusedVariables false

theorem readRefused_only (a0 : Requester) (s : State) :
    Only 2 s (readRefused a0 s) := by
  unfold readRefused
  repeat' (first
    | with_reducible intro _
    | with_reducible apply Only.refl
    | with_reducible assumption
    | with_reducible apply Only.step (State.emit_only ..)
    | decide
    | split
    | dsimp +zetaDelta only [id])

theorem writeAccess_only {m : Nat} (a0 : Requester) (a1 : Page) (a2 : Nat) (a3 : State → State) (s : State) (w : m ||| 4194314 = m) (h3 : ∀ u, Only m u (a3 u)) :
    Only m s (writeAccess a0 a1 a2 a3 s) := by
  unfold writeAccess
  repeat' (first
    | with_reducible intro _
    | with_reducible apply Only.refl
    | with_reducible assumption
    | with_reducible apply Only.step (State.error_only ..)
    | with_reducible apply Only.step (State.countErrors_only ..)
    | with_reducible apply Only.after (h3 ..)
    | with_reducible exact sub_of w (by decide)
    | with_reducible exact bit_of w (by decide)
    | decide
    | split
    | dsimp +zetaDelta only [id])

end Sys2Proof.Machine
end

