-- ==== Sys2Proof/Laws/Access.lean ====
section
/-! SUPPORT. What a register access does: writeAccess answers one of four things, and a write that is taken is its effect. -/

namespace Sys2Proof.Machine

/-- Everything writeAccess can do: leave the state, record a hidden page, count a refused PART write, or perform the write. -/
theorem writeAccess_cases (who : Requester) (p : Page) (off : Nat) (f : State → State) (s : State) :
    (writeTaken s who p off = true ∧ writeAccess who p off f s = f s) ∨
    (writeTaken s who p off = false ∧ (writeAccess who p off f s = s ∨
      writeAccess who p off f s = s.error hostPage 0x0124 (Requester.fnNat who) (pageBase p + off) ∨
      writeAccess who p off f s = s.countErrors hostPage 1)) := by
  unfold writeTaken writeAccess
  generalize pathUp s who = a
  generalize canSee s who p = b
  generalize partRefused who p off = c
  generalize lockedWrite s who p = d
  generalize s.flag p Rg.pageControlSoftReset = e
  cases a <;> cases b <;> cases c <;> cases d <;> cases e <;> by_cases h : off ≥ 64 <;> simp [h]

/-- A write that is taken is its effect. -/
theorem writeAccess_taken {who : Requester} {p : Page} {off : Nat} {f : State → State} {s : State}
    (h : writeTaken s who p off = true) : writeAccess who p off f s = f s := by
  rcases writeAccess_cases who p off f s with ⟨_, e⟩ | ⟨e, _⟩
  · exact e
  · rw [h] at e; cases e

end Sys2Proof.Machine
end

