-- ==== Sys2Proof/Laws/OnlyMem.lean ====
section
/-! SUPPORT. What each operation of Machine/Mem.lean may touch: one lemma per operation, in the form of Laws/Only.lean. -/

namespace Sys2Proof.Machine

set_option linter.unusedTactic false
set_option linter.unreachableTactic false
set_option linter.unusedVariables false

theorem flipFired_only (a0 : Nat) (s : State) :
    Only 4194314 s (flipFired a0 s) := by
  unfold flipFired
  repeat' (first
    | with_reducible intro _
    | with_reducible apply Only.refl
    | with_reducible assumption
    | with_reducible apply Only.step (State.raise_only ..)
    | with_reducible apply Only.step (State.setReg_only ..)
    | decide
    | dsimp +zetaDelta only [id])

theorem detectBad_only (a0 : Region) (a1 : Nat) (s : State) :
    Only 4194314 s (detectBad a0 a1 s) := by
  unfold detectBad
  repeat' (first
    | with_reducible intro _
    | with_reducible apply Only.refl
    | with_reducible assumption
    | with_reducible apply Only.step (State.raise_only ..)
    | with_reducible apply Only.step (State.bump_only ..)
    | with_reducible apply Only.step (State.error_only ..)
    | with_reducible apply Only.step (State.countErrors_only ..)
    | decide
    | fail_if_no_progress extract_lets
    | split
    | dsimp +zetaDelta only [id])

theorem State.readWords_only (s : State) (a1 : Region) (a2 : List Nat) :
    Only 6291466 s (State.readWords s a1 a2) := by
  unfold State.readWords
  repeat' (first
    | with_reducible intro _
    | with_reducible apply Only.refl
    | with_reducible assumption
    | with_reducible apply Only.after (State.each_only ..)
    | with_reducible apply Only.step (detectBad_only ..)
    | with_reducible apply fieldSet_wf
    | with_reducible apply setRegion_wf
    | with_reducible apply writeBytes_wf
    | with_reducible apply spoilBytes_wf
    | with_reducible apply delFlips_wf
    | with_reducible apply wf_put_flips
    | with_reducible apply wf_del_flips
    | with_reducible apply memory_wf
    | with_reducible apply wf_spad
    | with_reducible apply wf_of_spad
    | with_reducible apply wf_imem
    | with_reducible apply wf_of_imem
    | with_reducible apply wf_dmem
    | with_reducible apply wf_of_dmem
    | with_reducible apply wf_simem
    | with_reducible apply wf_of_simem
    | with_reducible apply wf_hbm
    | with_reducible apply wf_of_hbm
    | with_reducible apply wf_buf
    | with_reducible apply wf_of_buf
    | with_reducible apply wf_tags
    | with_reducible apply wf_of_tags
    | with_reducible apply wf_bulk
    | with_reducible apply wf_of_bulk
    | with_reducible apply wf_empty
    | with_reducible apply wf_filter_cells
    | with_reducible apply forgetRange_wf
    | with_reducible apply foldl_wf
    | with_reducible apply spoilWord_wf
    | with_reducible apply each_only
    | with_reducible apply foldl_only
    | with_reducible apply foldl_pair_only
    | decide
    | fail_if_no_progress extract_lets
    | with_reducible apply Only.upd_regs_mem
    | dsimp +zetaDelta only [id])

theorem State.readEffect_only (s : State) (a1 : Region) (a2 : Nat) (a3 : Nat) :
    Only 6291466 s (State.readEffect s a1 a2 a3) := by
  unfold State.readEffect
  repeat' (first
    | with_reducible intro _
    | with_reducible apply Only.refl
    | with_reducible assumption
    | with_reducible apply Only.step (State.readWords_only ..)
    | decide
    | dsimp +zetaDelta only [id])

theorem State.store_only (s : State) (a1 : Region) (a2 : Nat) (a3 : List Byte) :
    Only 6291466 s (State.store s a1 a2 a3) := by
  unfold State.store
  repeat' (first
    | with_reducible intro _
    | with_reducible apply Only.refl
    | with_reducible assumption
    | with_reducible apply Only.step (State.readWords_only ..)
    | with_reducible apply Only.step (flipFired_only ..)
    | with_reducible apply setRegion_wf
    | with_reducible apply writeBytes_wf
    | with_reducible apply spoilBytes_wf
    | with_reducible apply delFlips_wf
    | with_reducible apply wf_put_flips
    | with_reducible apply wf_del_flips
    | with_reducible apply memory_wf
    | with_reducible apply wf_spad
    | with_reducible apply wf_of_spad
    | with_reducible apply wf_imem
    | with_reducible apply wf_of_imem
    | with_reducible apply wf_dmem
    | with_reducible apply wf_of_dmem
    | with_reducible apply wf_simem
    | with_reducible apply wf_of_simem
    | with_reducible apply wf_hbm
    | with_reducible apply wf_of_hbm
    | with_reducible apply wf_buf
    | with_reducible apply wf_of_buf
    | with_reducible apply wf_tags
    | with_reducible apply wf_of_tags
    | with_reducible apply wf_bulk
    | with_reducible apply wf_of_bulk
    | with_reducible apply wf_empty
    | with_reducible apply wf_filter_cells
    | with_reducible apply forgetRange_wf
    | with_reducible apply foldl_wf
    | with_reducible apply spoilWord_wf
    | decide
    | fail_if_no_progress extract_lets
    | split
    | with_reducible apply Only.upd_mem
    | dsimp +zetaDelta only [id])

theorem State.spadWrite_only (s : State) (a1 : Nat) (a2 : Nat) (a3 : List Byte) :
    Only 6291466 s (State.spadWrite s a1 a2 a3) := by
  unfold State.spadWrite
  repeat' (first
    | with_reducible intro _
    | with_reducible apply Only.refl
    | with_reducible assumption
    | with_reducible apply Only.step (State.store_only ..)
    | decide
    | dsimp +zetaDelta only [id])

end Sys2Proof.Machine
end

