-- ==== Sys2Proof/Laws/OnlyLines.lean ====
section
/-! SUPPORT. What each operation of Machine/Lines.lean may touch: one lemma per operation, in the form of Laws/Only.lean. -/

namespace Sys2Proof.Machine

set_option linter.unusedTactic false
set_option linter.unreachableTactic false
set_option linter.unusedVariables false

theorem State.sendPackets_only (s : State) (a1 : List Packet) :
    Only 1024 s (State.sendPackets s a1) := by
  unfold State.sendPackets
  repeat' (first
    | with_reducible intro _
    | with_reducible apply Only.refl
    | with_reducible assumption
    | decide
    | with_reducible apply Only.upd_fabric
    | dsimp +zetaDelta only [id])

theorem setDir_only (a0 : Nat) (a1 : DirEntry) (s : State) :
    Only 1024 s (setDir a0 a1 s) := by
  unfold setDir
  repeat' (first
    | with_reducible intro _
    | with_reducible apply Only.refl
    | with_reducible assumption
    | decide
    | split
    | with_reducible apply Only.upd_fabric
    | dsimp +zetaDelta only [id])

theorem dirAsk_only (a0 : Nat) (a1 : DirEntry) (a2 : Option Nat) (a3 : Bool) (s : State) :
    Only 1024 s (dirAsk a0 a1 a2 a3 s) := by
  unfold dirAsk
  repeat' (first
    | with_reducible intro _
    | with_reducible apply Only.refl
    | with_reducible assumption
    | with_reducible apply Only.step (State.sendPackets_only ..)
    | with_reducible apply Only.step (setDir_only ..)
    | decide
    | fail_if_no_progress extract_lets
    | split
    | dsimp +zetaDelta only [id])

theorem dirRead_only (a0 : Nat) (a1 : Nat) (s : State) :
    Only 1024 s (dirRead a0 a1 s) := by
  unfold dirRead
  repeat' (first
    | with_reducible intro _
    | with_reducible apply Only.refl
    | with_reducible assumption
    | with_reducible apply Only.step (dirAsk_only ..)
    | decide
    | split
    | dsimp +zetaDelta only [id])

theorem setRep_only (a0 : Nat) (a1 : RepPage) (s : State) :
    Only 1024 s (setRep a0 a1 s) := by
  unfold setRep
  repeat' (first
    | with_reducible intro _
    | with_reducible apply Only.refl
    | with_reducible assumption
    | decide
    | with_reducible apply Only.upd_fabric
    | dsimp +zetaDelta only [id])

theorem noteWrite_only (a0 : Nat) (a1 : Nat) (s : State) :
    Only 1024 s (noteWrite a0 a1 s) := by
  unfold noteWrite
  repeat' (first
    | with_reducible intro _
    | with_reducible apply Only.refl
    | with_reducible assumption
    | with_reducible apply Only.step (setRep_only ..)
    | decide
    | split
    | dsimp +zetaDelta only [id])

theorem repAsk_only (a0 : Nat) (a1 : RepPage) (s : State) :
    Only 1024 s (repAsk a0 a1 s) := by
  unfold repAsk
  repeat' (first
    | with_reducible intro _
    | with_reducible apply Only.refl
    | with_reducible assumption
    | with_reducible apply Only.step (State.sendPackets_only ..)
    | with_reducible apply Only.step (setRep_only ..)
    | decide
    | dsimp +zetaDelta only [id])

theorem lineWait_only (a0 : Nat) (a1 : Nat) (a2 : Bool) (a3 : Bool) (a4 : DirWait) (s : State) :
    Only 1024 s (lineWait a0 a1 a2 a3 a4 s) := by
  unfold lineWait
  repeat' (first
    | with_reducible intro _
    | with_reducible apply Only.refl
    | with_reducible assumption
    | with_reducible apply Only.step (repAsk_only ..)
    | with_reducible apply Only.step (setRep_only ..)
    | with_reducible apply Only.step (dirAsk_only ..)
    | with_reducible apply Only.step (setDir_only ..)
    | decide
    | fail_if_no_progress extract_lets
    | split
    | dsimp +zetaDelta only [id])

theorem State.storeHome_only (s : State) (a1 : Nat) (a2 : Nat) (a3 : Region) (a4 : Nat) (a5 : List Byte) :
    Only 6292490 s (State.storeHome s a1 a2 a3 a4 a5) := by
  unfold State.storeHome
  repeat' (first
    | with_reducible intro _
    | with_reducible apply Only.refl
    | with_reducible assumption
    | with_reducible apply Only.step (State.store_only ..)
    | with_reducible apply Only.step (noteWrite_only ..)
    | with_reducible apply Only.step (lineWait_only ..)
    | decide
    | split
    | dsimp +zetaDelta only [id])

theorem setCopy_only (a0 : Nat) (a1 : CopyLine) (s : State) :
    Only 1024 s (setCopy a0 a1 s) := by
  unfold setCopy
  repeat' (first
    | with_reducible intro _
    | with_reducible apply Only.refl
    | with_reducible assumption
    | decide
    | with_reducible apply Only.upd_fabric
    | dsimp +zetaDelta only [id])

theorem copyRead_only (a0 : Nat) (a1 : Nat) (a2 : Nat) (s : State) :
    Only 1024 s (copyRead a0 a1 a2 s) := by
  unfold copyRead
  repeat' (first
    | with_reducible intro _
    | with_reducible apply Only.refl
    | with_reducible assumption
    | with_reducible apply Only.step (setCopy_only ..)
    | with_reducible apply Only.step (State.sendPackets_only ..)
    | decide
    | fail_if_no_progress extract_lets
    | split
    | dsimp +zetaDelta only [id])

theorem copyWrite_only (a0 : Nat) (a1 : Nat) (a2 : Nat) (a3 : List Byte) (s : State) :
    Only 1024 s (copyWrite a0 a1 a2 a3 s) := by
  unfold copyWrite
  repeat' (first
    | with_reducible intro _
    | with_reducible apply Only.refl
    | with_reducible assumption
    | with_reducible apply Only.step (setCopy_only ..)
    | with_reducible apply Only.step (State.sendPackets_only ..)
    | decide
    | fail_if_no_progress extract_lets
    | split
    | dsimp +zetaDelta only [id])

end Sys2Proof.Machine
end

