-- ==== Sys2Proof/Laws/OnlyTier.lean ====
section
/-! SUPPORT. What each operation of Machine/Tier.lean may touch: one lemma per operation, in the form of Laws/Only.lean. -/

namespace Sys2Proof.Machine

set_option linter.unusedTactic false
set_option linter.unreachableTactic false
set_option linter.unusedVariables false

theorem cacheFill_only (a0 : Nat) (a1 : CacheHint) (a2 : Region) (a3 : Nat) (s : State) :
    Only 16388 s (cacheFill a0 a1 a2 a3 s) := by
  unfold cacheFill
  repeat' (first
    | with_reducible intro _
    | with_reducible apply Only.refl
    | with_reducible assumption
    | with_reducible apply Only.step (State.usedFree_only ..)
    | decide
    | fail_if_no_progress extract_lets
    | split
    | with_reducible apply Only.upd_tier
    | dsimp +zetaDelta only [id])

theorem fetchLine_only (a0 : Nat) (a1 : CacheHint) (a2 : Region) (a3 : Nat) (a4 : Nat) (s : State) :
    Only 6307854 s (fetchLine a0 a1 a2 a3 a4 s) := by
  unfold fetchLine
  repeat' (first
    | with_reducible intro _
    | with_reducible apply Only.refl
    | with_reducible assumption
    | with_reducible apply Only.step (State.readEffect_only ..)
    | with_reducible apply Only.step (cacheFill_only ..)
    | with_reducible apply Only.after (State.when_only ..)
    | with_reducible apply Only.step (State.addReg_only ..)
    | with_reducible apply when_only
    | decide
    | fail_if_no_progress extract_lets
    | split
    | dsimp +zetaDelta only [id])

theorem structTouch_only (a0 : Nat) (a1 : Nat) (a2 : Nat) (a3 : Nat) (s : State) :
    Only 4194314 s (structTouch a0 a1 a2 a3 s) := by
  unfold structTouch
  repeat' (first
    | with_reducible intro _
    | with_reducible apply Only.refl
    | with_reducible assumption
    | with_reducible apply Only.step (State.error_only ..)
    | with_reducible apply Only.step (State.countErrors_only ..)
    | with_reducible apply Only.step (State.addReg_only ..)
    | decide
    | split
    | dsimp +zetaDelta only [id])

theorem structWrite_only (k u x : Nat) (s : State) : Only 6291466 s (structWrite k u x s) := by
  unfold structWrite
  split
  · exact Only.refl _ _
  · split
    · exact Only.refl _ _
    · refine if_only ?_ ?_
      · exact Only.upd_mem (by decide) (Only.refl _ _) fun h => wf_hbm (wf_del_flips (wf_of_hbm h)) h
      · refine Only.step (flipFired_only ..) (by decide) (Only.upd_mem (by decide) ?_ fun h => wf_hbm (wf_put_flips (wf_of_hbm h)) h)
        exact Only.upd_mem (by decide) (Only.refl _ _) fun h => wf_hbm (wf_del_flips (wf_of_hbm h)) h

theorem writePageEntry_only (a0 : Nat) (a1 : Nat) (s : State) :
    Only 6291466 s (writePageEntry a0 a1 s) := by
  unfold writePageEntry
  repeat' (first
    | with_reducible intro _
    | with_reducible apply Only.refl
    | with_reducible assumption
    | with_reducible apply Only.step (structWrite_only ..)
    | decide
    | dsimp +zetaDelta only [id])

theorem State.faultTouch_only (s : State) (a1 : Nat) (a2 : Nat) (a3 : Nat) (a4 : Bool) :
    Only 4194314 s (State.faultTouch s a1 a2 a3 a4) := by
  unfold State.faultTouch
  repeat' (first
    | with_reducible intro _
    | with_reducible apply Only.refl
    | with_reducible assumption
    | with_reducible apply Only.after (State.each_only ..)
    | with_reducible apply Only.step (structTouch_only ..)
    | with_reducible apply each_only
    | decide
    | split
    | dsimp +zetaDelta only [id])

theorem fabricTouch_only (a0 : Nat) (a1 : Nat) (a2 : Place) (s : State) :
    Only 1024 s (fabricTouch a0 a1 a2 s) := by
  unfold fabricTouch
  repeat' (first
    | with_reducible intro _
    | with_reducible apply Only.refl
    | with_reducible assumption
    | with_reducible apply Only.step (dirRead_only ..)
    | with_reducible apply Only.step (copyRead_only ..)
    | decide
    | split
    | dsimp +zetaDelta only [id])

theorem setUnit_only (a0 : Nat) (a1 : Nat) (a2 : Option UnitState) (s : State) :
    Only 16384 s (setUnit a0 a1 a2 s) := by
  unfold setUnit
  repeat' (first
    | with_reducible intro _
    | with_reducible apply Only.refl
    | with_reducible assumption
    | decide
    | split
    | with_reducible apply Only.upd_tier
    | dsimp +zetaDelta only [id])

theorem warm_only (a0 : Nat) (a1 : Nat) (s : State) :
    Only 16384 s (warm a0 a1 s) := by
  unfold warm
  repeat' (first
    | with_reducible intro _
    | with_reducible apply Only.refl
    | with_reducible assumption
    | decide
    | split
    | with_reducible apply Only.upd_tier
    | dsimp +zetaDelta only [id])

theorem touchLost_only (a0 : Nat) (s : State) :
    Only 4194314 s (touchLost a0 s) := by
  unfold touchLost
  repeat' (first
    | with_reducible intro _
    | with_reducible apply Only.refl
    | with_reducible assumption
    | with_reducible apply Only.step (State.countErrors_only ..)
    | with_reducible apply Only.step (State.addReg_only ..)
    | decide
    | dsimp +zetaDelta only [id])

theorem fetchStored_only (a0 : Nat) (a1 : CacheHint) (a2 : ObjectRec) (a3 : Nat) (s : State) :
    Only 6307854 s (fetchStored a0 a1 a2 a3 s) := by
  unfold fetchStored
  repeat' (first
    | with_reducible intro _
    | with_reducible apply Only.refl
    | with_reducible assumption
    | with_reducible apply Only.after (State.each_only ..)
    | with_reducible apply Only.step (fetchLine_only ..)
    | with_reducible apply Only.step (touchLost_only ..)
    | with_reducible apply each_only
    | decide
    | fail_if_no_progress extract_lets
    | split
    | dsimp +zetaDelta only [id])

theorem useTable_only (a0 : Nat) (a1 : Nat) (s : State) :
    Only 16392 s (useTable a0 a1 s) := by
  unfold useTable
  repeat' (first
    | with_reducible intro _
    | with_reducible apply Only.refl
    | with_reducible assumption
    | with_reducible apply Only.step (State.bump_only ..)
    | decide
    | fail_if_no_progress extract_lets
    | split
    | with_reducible apply Only.upd_tier
    | dsimp +zetaDelta only [id])

theorem decodeEffect_only (a0 : Nat) (a1 : CacheHint) (a2 : ObjectRec) (a3 : Nat) (s : State) :
    Only 6307854 s (decodeEffect a0 a1 a2 a3 s) := by
  unfold decodeEffect
  repeat' (first
    | with_reducible intro _
    | with_reducible apply Only.refl
    | with_reducible assumption
    | with_reducible apply Only.step (useTable_only ..)
    | with_reducible apply Only.step (fetchStored_only ..)
    | with_reducible apply Only.step (State.usedFree_only ..)
    | with_reducible apply Only.step (State.addReg_only ..)
    | with_reducible apply Only.step (State.countErrors_only ..)
    | decide
    | fail_if_no_progress extract_lets
    | split
    | dsimp +zetaDelta only [id])

theorem touchPart_only (a0 : CacheHint) (a1 : Nat) (a2 : Prod Nat Nat) (s : State) :
    Only 6308878 s (touchPart a0 a1 a2 s) := by
  unfold touchPart
  repeat' (first
    | with_reducible intro _
    | with_reducible apply Only.refl
    | with_reducible assumption
    | with_reducible apply Only.step (fabricTouch_only ..)
    | with_reducible apply Only.after (State.when_only ..)
    | with_reducible apply Only.step (warm_only ..)
    | with_reducible apply Only.step (setUnit_only ..)
    | with_reducible apply Only.step (fetchLine_only ..)
    | with_reducible apply Only.step (touchLost_only ..)
    | with_reducible apply Only.step (decodeEffect_only ..)
    | with_reducible apply Only.step (copyRead_only ..)
    | with_reducible apply Only.step (State.usedFree_only ..)
    | with_reducible apply when_only
    | decide
    | fail_if_no_progress extract_lets
    | split
    | dsimp +zetaDelta only [id])

theorem State.partTouch_only (s : State) (a1 : Nat) (a2 : Nat) (a3 : Nat) (a4 : CacheHint) :
    Only 6308878 s (State.partTouch s a1 a2 a3 a4) := by
  unfold State.partTouch
  repeat' (first
    | with_reducible intro _
    | with_reducible apply Only.refl
    | with_reducible assumption
    | with_reducible apply Only.step (State.faultTouch_only ..)
    | with_reducible apply Only.after (State.each_only ..)
    | with_reducible apply Only.step (touchPart_only ..)
    | with_reducible apply each_only
    | decide
    | split
    | dsimp +zetaDelta only [id])

theorem logMirror_only (a0 : Nat) (a1 : Nat) (a2 : List Byte) (s : State) :
    Only 67108864 s (logMirror a0 a1 a2 s) := by
  unfold logMirror
  repeat' (first
    | with_reducible intro _
    | with_reducible apply Only.refl
    | with_reducible assumption
    | decide
    | split
    | with_reducible apply Only.upd_twin
    | dsimp +zetaDelta only [id])

theorem writePart_only (a0 : Nat) (a1 : Nat) (a2 : List Byte) (s : State) :
    Only 73417738 s (writePart a0 a1 a2 s) := by
  unfold writePart
  repeat' (first
    | with_reducible intro _
    | with_reducible apply Only.refl
    | with_reducible assumption
    | with_reducible apply Only.step (logMirror_only ..)
    | with_reducible apply Only.after (State.when_only ..)
    | with_reducible apply Only.step (warm_only ..)
    | with_reducible apply Only.step (State.storeHome_only ..)
    | with_reducible apply Only.step (State.countErrors_only ..)
    | with_reducible apply Only.step (copyWrite_only ..)
    | with_reducible apply Only.step (State.emit_only ..)
    | with_reducible apply when_only
    | decide
    | fail_if_no_progress extract_lets
    | split
    | dsimp +zetaDelta only [id])

theorem State.partStore_only (s : State) (a1 : Nat) (a2 : Nat) (a3 : List Byte) :
    Only 73417738 s (State.partStore s a1 a2 a3) := by
  unfold State.partStore
  repeat' (first
    | with_reducible intro _
    | with_reducible apply Only.refl
    | with_reducible assumption
    | with_reducible apply Only.after (State.each_only ..)
    | with_reducible apply Only.step (writePart_only ..)
    | with_reducible apply each_only
    | decide
    | dsimp +zetaDelta only [id])

theorem State.partWrite_only (s : State) (a1 : Nat) (a2 : Nat) (a3 : List Byte) :
    Only 73417738 s (State.partWrite s a1 a2 a3) := by
  unfold State.partWrite
  repeat' (first
    | with_reducible intro _
    | with_reducible apply Only.refl
    | with_reducible assumption
    | with_reducible apply Only.step (State.partStore_only ..)
    | decide
    | split
    | dsimp +zetaDelta only [id])

theorem State.partSpoil_only (s : State) (a1 : Nat) (a2 : Nat) (a3 : Nat) :
    Only 2097152 s (State.partSpoil s a1 a2 a3) := by
  unfold State.partSpoil
  repeat' (first
    | with_reducible intro _
    | with_reducible apply Only.refl
    | with_reducible assumption
    | with_reducible apply Only.after (State.each_only ..)
    | with_reducible apply setRegion_wf
    | with_reducible apply writeBytes_wf
    | with_reducible apply spoilBytes_wf
    | with_reducible apply delFlips_wf
    | with_reducible apply wf_put_flips
    | with_reducible apply wf_del_flips
    | with_reducible apply memory_wf
    | with_reducible apply wf_spad
    | with_reducible apply wf_of_spad
    | with_reducible apply wf_imem
    | with_reducible apply wf_of_imem
    | with_reducible apply wf_dmem
    | with_reducible apply wf_of_dmem
    | with_reducible apply wf_simem
    | with_reducible apply wf_of_simem
    | with_reducible apply wf_hbm
    | with_reducible apply wf_of_hbm
    | with_reducible apply wf_buf
    | with_reducible apply wf_of_buf
    | with_reducible apply wf_tags
    | with_reducible apply wf_of_tags
    | with_reducible apply wf_bulk
    | with_reducible apply wf_of_bulk
    | with_reducible apply wf_empty
    | with_reducible apply wf_filter_cells
    | with_reducible apply forgetRange_wf
    | with_reducible apply foldl_wf
    | with_reducible apply spoilWord_wf
    | with_reducible apply each_only
    | decide
    | split
    | with_reducible apply Only.upd_mem
    | dsimp +zetaDelta only [id])

theorem State.partWriteOpt_only (s : State) (a1 : Nat) (a2 : Nat) (a3 : List (Option Byte)) :
    Only 73417738 s (State.partWriteOpt s a1 a2 a3) := by
  unfold State.partWriteOpt
  repeat' (first
    | with_reducible intro _
    | with_reducible apply Only.refl
    | with_reducible assumption
    | with_reducible apply Only.after (State.each_only ..)
    | with_reducible apply Only.step (writePart_only ..)
    | with_reducible apply Only.step (State.partSpoil_only ..)
    | with_reducible apply each_only
    | decide
    | split
    | dsimp +zetaDelta only [id])

end Sys2Proof.Machine
end

