-- ==== Sys2Proof/Laws/OnlyCtxRec.lean ====
section
/-! SUPPORT. What each operation of Machine/CtxRec.lean may touch: one lemma per operation, in the form of Laws/Only.lean. -/

namespace Sys2Proof.Machine

set_option linter.unusedTactic false
set_option linter.unreachableTactic false
set_option linter.unusedVariables false

theorem State.writeCtx_only (s : State) (a1 : Nat) (a2 : Nat) (a3 : Ctx) :
    Only 73425930 s (State.writeCtx s a1 a2 a3) := by
  unfold State.writeCtx
  repeat' (first
    | with_reducible intro _
    | with_reducible apply Only.refl
    | with_reducible assumption
    | with_reducible apply Only.step (State.setCtx_only ..)
    | with_reducible apply Only.step (State.partStore_only ..)
    | decide
    | fail_if_no_progress extract_lets
    | dsimp +zetaDelta only [id])

theorem ctxTrapped_only (a0 : Nat) (s : State) :
    Only 73425930 s (ctxTrapped a0 s) := by
  unfold ctxTrapped
  repeat' (first
    | with_reducible intro _
    | with_reducible apply Only.refl
    | with_reducible assumption
    | with_reducible apply Only.step (State.writeCtx_only ..)
    | with_reducible apply Only.step (State.raise_only ..)
    | decide
    | fail_if_no_progress extract_lets
    | split
    | dsimp +zetaDelta only [id])

end Sys2Proof.Machine
end

