-- ==== Sys2Proof/Laws/OnlyExec.lean ====
section
/-! SUPPORT. What each operation of Machine/Exec.lean may touch: one lemma per operation, in the form of Laws/Only.lean. -/

namespace Sys2Proof.Machine

set_option linter.unusedTactic false
set_option linter.unreachableTactic false
set_option linter.unusedVariables false

theorem settleGap_only (a0 : Nat) (s : State) :
    Only 512 s (settleGap a0 s) := by
  unfold settleGap
  repeat' (first
    | with_reducible intro _
    | with_reducible apply Only.refl
    | with_reducible assumption
    | with_reducible apply Only.step (State.modCore_only ..)
    | decide
    | split
    | dsimp +zetaDelta only [id])

theorem settleGaps_only (s : State) :
    Only 512 s (settleGaps s) := by
  unfold settleGaps
  repeat' (first
    | with_reducible intro _
    | with_reducible apply Only.refl
    | with_reducible assumption
    | with_reducible apply Only.after (State.each_only ..)
    | with_reducible apply Only.step (settleGap_only ..)
    | with_reducible apply each_only
    | decide
    | dsimp +zetaDelta only [id])

theorem recordTrap_only (a0 : Nat) (a1 : Nat) (a2 : Nat) (a3 : Nat) (a4 : Bool) (a5 : BitVec 18) (a6 : BitVec 18) (s : State) :
    Only 73426442 s (recordTrap a0 a1 a2 a3 a4 a5 a6 s) := by
  unfold recordTrap
  repeat' (first
    | with_reducible intro _
    | with_reducible apply Only.refl
    | with_reducible assumption
    | with_reducible apply Only.step (ctxTrapped_only ..)
    | with_reducible apply Only.step (settleGap_only ..)
    | with_reducible apply Only.step (State.raise_only ..)
    | with_reducible apply Only.step (State.setReg_only ..)
    | decide
    | fail_if_no_progress extract_lets
    | dsimp +zetaDelta only [id])

theorem trap_only (a0 : Nat) (a1 : Nat) (a2 : Nat) (s : State) :
    Only 73426442 s (trap a0 a1 a2 s) := by
  unfold trap
  repeat' (first
    | with_reducible intro _
    | with_reducible apply Only.refl
    | with_reducible assumption
    | with_reducible apply Only.step (recordTrap_only ..)
    | decide
    | dsimp +zetaDelta only [id])

theorem trapDataUe_only (a0 : Nat) (a1 : Nat) (s : State) :
    Only 73426442 s (trapDataUe a0 a1 s) := by
  unfold trapDataUe
  repeat' (first
    | with_reducible intro _
    | with_reducible apply Only.refl
    | with_reducible assumption
    | with_reducible apply Only.step (trap_only ..)
    | with_reducible apply Only.step (State.capture_only ..)
    | decide
    | dsimp +zetaDelta only [id])

theorem runInsn_only {m : Nat} (a0 : Nat) (a1 : Nat → Bool) (a2 : State → State) (s : State) (w : m ||| 73426442 = m) (h2 : ∀ u, Only m u (a2 u)) :
    Only m s (runInsn a0 a1 a2 s) := by
  unfold runInsn
  repeat' (first
    | with_reducible intro _
    | with_reducible apply Only.refl
    | with_reducible assumption
    | with_reducible apply Only.step (trap_only ..)
    | with_reducible apply Only.step (State.capture_only ..)
    | with_reducible apply Only.step (State.readEffect_only ..)
    | with_reducible apply Only.after (h2 ..)
    | with_reducible exact sub_of w (by decide)
    | with_reducible exact bit_of w (by decide)
    | decide
    | fail_if_no_progress extract_lets
    | split
    | dsimp +zetaDelta only [id])

theorem spadWait_only (a0 : Nat) (s : State) :
    Only 12 s (spadWait a0 s) := by
  unfold spadWait
  repeat' (first
    | with_reducible intro _
    | with_reducible apply Only.refl
    | with_reducible assumption
    | with_reducible apply Only.step (State.usedFree_only ..)
    | with_reducible apply Only.step (State.addReg_only ..)
    | decide
    | dsimp +zetaDelta only [id])

theorem trapIllegal_only (a0 : Nat) (a1 : Nat) (s : State) :
    Only 73426442 s (trapIllegal a0 a1 s) := by
  unfold trapIllegal
  repeat' (first
    | with_reducible intro _
    | with_reducible apply Only.refl
    | with_reducible assumption
    | with_reducible apply Only.step (trap_only ..)
    | decide
    | dsimp +zetaDelta only [id])

theorem putFlags_only (a0 : Nat) (a1 : Nat) (s : State) :
    Only 8 s (putFlags a0 a1 s) := by
  unfold putFlags
  repeat' (first
    | with_reducible intro _
    | with_reducible apply Only.refl
    | with_reducible assumption
    | with_reducible apply Only.step (State.setReg_only ..)
    | decide
    | fail_if_no_progress extract_lets
    | dsimp +zetaDelta only [id])

theorem orFlags_only (a0 : Nat) (a1 : Nat) (s : State) :
    Only 8 s (orFlags a0 a1 s) := by
  unfold orFlags
  repeat' (first
    | with_reducible intro _
    | with_reducible apply Only.refl
    | with_reducible assumption
    | with_reducible apply Only.step (putFlags_only ..)
    | decide
    | dsimp +zetaDelta only [id])

end Sys2Proof.Machine
end

