-- ==== Sys2Proof/Laws/OnlyIssue.lean ====
section
/-! SUPPORT. What each operation of Machine/Issue.lean may touch: one lemma per operation, in the form of Laws/Only.lean. -/

namespace Sys2Proof.Machine

set_option linter.unusedTactic false
set_option linter.unreachableTactic false
set_option linter.unusedVariables false

theorem issueBody_only (a0 : Nat) (a1 : Nat) (a2 : IssueWord) (a3 : BitVec 512 → State → Option Nat) (a4 : BitVec 512 → State → Option Nat) (a5 : BitVec 512 → State → Bool) (a6 : QueuedCmd → Core → State → Core) (s : State) :
    Only 73426446 s (issueBody a0 a1 a2 a3 a4 a5 a6 s) := by
  unfold issueBody
  repeat' (first
    | with_reducible intro _
    | with_reducible apply Only.refl
    | with_reducible assumption
    | with_reducible apply Only.step (trapIllegal_only ..)
    | with_reducible apply Only.step (trap_only ..)
    | with_reducible apply Only.step (State.readEffect_only ..)
    | with_reducible apply Only.step (trapDataUe_only ..)
    | with_reducible apply Only.step (recordTrap_only ..)
    | with_reducible apply Only.step (State.setCore_only ..)
    | with_reducible apply Only.step (spadWait_only ..)
    | decide
    | fail_if_no_progress extract_lets
    | split
    | dsimp +zetaDelta only [id])

theorem deferCause_only (a0 : Nat) (a1 : Nat) (a2 : Nat) (a3 : Nat) (a4 : BitVec 18) (s : State) :
    Only 4194826 s (deferCause a0 a1 a2 a3 a4 s) := by
  unfold deferCause
  repeat' (first
    | with_reducible intro _
    | with_reducible apply Only.refl
    | with_reducible assumption
    | with_reducible apply Only.step (State.modCore_only ..)
    | with_reducible apply Only.step (State.countErrors_only ..)
    | decide
    | split
    | dsimp +zetaDelta only [id])

end Sys2Proof.Machine
end

