-- ==== Sys2Proof/Laws/OnlyPlatform.lean ====
section
/-! SUPPORT. What each operation of Machine/Platform.lean may touch: one lemma per operation, in the form of Laws/Only.lean. -/

namespace Sys2Proof.Machine

set_option linter.unusedTactic false
set_option linter.unreachableTactic false
set_option linter.unusedVariables false

theorem memoriesAfterReset_wf {n : Nat} {x : MemState} (h : x.wf = true) : (memoriesAfterReset n x).wf = true := by
  simp only [MemState.wf, Bool.and_eq_true] at *
  simp [memoriesAfterReset, memAfterReset, wf_filter_cells, h]

theorem acceptReset_only (a0 : Nat) (a1 : Bool) (s : State) : Only 268435454 s (acceptReset a0 a1 s) := by
  constructor
  · rfl
  · unfold acceptReset
    dsimp only
    exact List.prefix_append _ _
  · exact Nat.le_refl _
  · intro _
    unfold acceptReset
    dsimp only
    repeat (with_reducible apply fieldSet_wf)
    rfl
  · intro h
    show (if a0 = 1 then ({ State.reset.mem with bulk := s.mem.bulk } : MemState) else memoriesAfterReset s.resets s.mem).wf = true
    split
    · exact wf_bulk (wf_of_bulk h) rfl
    · exact memoriesAfterReset_wf h
  all_goals exact fun b => absurd b (by decide)

theorem execPowerOn_only (a0 : Bool) (s : State) :
    OnlyNext 268435454 s (execPowerOn a0 s) := by
  unfold execPowerOn
  repeat' (first
    | with_reducible intro _
    | with_reducible apply Only.refl
    | with_reducible assumption
    | with_reducible apply OnlyNext.next
    | with_reducible apply Only.step (State.usedFree_only ..)
    | with_reducible apply Only.step (acceptReset_only ..)
    | decide
    | split
    | dsimp +zetaDelta only [id])

theorem execSupplyDrop_only (a0 : Rail) (a1 : Nat) (s : State) :
    OnlyNext 4194368 s (execSupplyDrop a0 a1 s) := by
  unfold execSupplyDrop
  repeat' (first
    | with_reducible intro _
    | with_reducible apply Only.refl
    | with_reducible assumption
    | with_reducible apply OnlyNext.next
    | decide
    | split
    | with_reducible apply Only.upd_plat_host
    | dsimp +zetaDelta only [id])

theorem execResetAccept_only (a0 : Nat) (a1 : Option Nat) (a2 : Bool) (s : State) :
    OnlyNext 268435454 s (execResetAccept a0 a1 a2 s) := by
  unfold execResetAccept
  repeat' (first
    | with_reducible intro _
    | with_reducible apply Only.refl
    | with_reducible assumption
    | with_reducible apply OnlyNext.next
    | with_reducible apply Only.step (State.usedFree_only ..)
    | with_reducible apply Only.step (acceptReset_only ..)
    | decide
    | split
    | dsimp +zetaDelta only [id])

theorem execResetRelease_only (a0 : Bool) (s : State) :
    OnlyNext 64 s (execResetRelease a0 s) := by
  unfold execResetRelease
  repeat' (first
    | with_reducible intro _
    | with_reducible apply Only.refl
    | with_reducible assumption
    | with_reducible apply OnlyNext.next
    | decide
    | split
    | with_reducible apply Only.upd_plat
    | dsimp +zetaDelta only [id])

theorem assignNumbers_only (s : State) :
    Only 72 s (assignNumbers s) := by
  unfold assignNumbers
  repeat' (first
    | with_reducible intro _
    | with_reducible apply Only.refl
    | with_reducible assumption
    | with_reducible apply Only.step (State.setReg_only ..)
    | decide
    | fail_if_no_progress extract_lets
    | split
    | with_reducible apply Only.upd_plat
    | dsimp +zetaDelta only [id])

theorem applyFuseRepair_only (a0 : ArrayRepair) (s : State) :
    Only 8 s (applyFuseRepair a0 s) := by
  unfold applyFuseRepair
  repeat' (first
    | with_reducible intro _
    | with_reducible apply Only.refl
    | with_reducible assumption
    | with_reducible apply Only.step (State.setReg_only ..)
    | decide
    | fail_if_no_progress extract_lets
    | split
    | dsimp +zetaDelta only [id])

theorem setArrayState_only (a0 : Nat) (a1 : Nat) (a2 : Nat) (s : State) :
    Only 8 s (setArrayState a0 a1 a2 s) := by
  unfold setArrayState
  repeat' (first
    | with_reducible intro _
    | with_reducible apply Only.refl
    | with_reducible assumption
    | with_reducible apply Only.step (State.setReg_only ..)
    | decide
    | dsimp +zetaDelta only [id])

theorem afterStep1_only (s : State) :
    Only 328 s (afterStep1 s) := by
  unfold afterStep1
  repeat' (first
    | with_reducible intro _
    | with_reducible apply Only.refl
    | with_reducible assumption
    | with_reducible apply Only.step (State.setReg_only ..)
    | with_reducible apply Only.after (State.each_only ..)
    | with_reducible apply Only.step (assignNumbers_only ..)
    | with_reducible apply Only.step (applyFuseRepair_only ..)
    | with_reducible apply each_only
    | decide
    | fail_if_no_progress extract_lets
    | split
    | with_reducible apply Only.upd_plat_time
    | dsimp +zetaDelta only [id])

theorem execBringupStart_only (a0 : BringEnv) (s : State) :
    OnlyNext 328 s (execBringupStart a0 s) := by
  unfold execBringupStart
  repeat' (first
    | with_reducible intro _
    | with_reducible apply Only.refl
    | with_reducible assumption
    | with_reducible apply OnlyNext.next
    | with_reducible apply Only.step (afterStep1_only ..)
    | with_reducible apply Only.step (State.setReg_only ..)
    | decide
    | fail_if_no_progress extract_lets
    | split
    | with_reducible apply Only.upd_plat
    | dsimp +zetaDelta only [id])

theorem execRefclkAPresent_only (s : State) :
    OnlyNext 328 s (execRefclkAPresent s) := by
  unfold execRefclkAPresent
  repeat' (first
    | with_reducible intro _
    | with_reducible apply Only.refl
    | with_reducible assumption
    | with_reducible apply OnlyNext.next
    | with_reducible apply Only.step (afterStep1_only ..)
    | with_reducible apply Only.step (State.setReg_only ..)
    | decide
    | split
    | with_reducible apply Only.upd_plat
    | dsimp +zetaDelta only [id])

theorem execHotWaitEnd_only (s : State) :
    OnlyNext 328 s (execHotWaitEnd s) := by
  unfold execHotWaitEnd
  repeat' (first
    | with_reducible intro _
    | with_reducible apply Only.refl
    | with_reducible assumption
    | with_reducible apply OnlyNext.next
    | with_reducible apply Only.step (afterStep1_only ..)
    | with_reducible apply Only.step (State.setReg_only ..)
    | decide
    | split
    | with_reducible apply Only.upd_plat
    | dsimp +zetaDelta only [id])

theorem joinBulkPort_only (a0 : Prod Nat (Prod Nat (Prod Nat Nat))) (s : State) :
    Only 8 s (joinBulkPort a0 s) := by
  unfold joinBulkPort
  repeat' (first
    | with_reducible intro _
    | with_reducible apply Only.refl
    | with_reducible assumption
    | with_reducible apply Only.step (State.setReg_only ..)
    | decide
    | fail_if_no_progress extract_lets
    | dsimp +zetaDelta only [id])

theorem formBulkSet_only (a0 : List (Prod Nat (Prod Nat (Prod Nat Nat)))) (s : State) :
    Only 16392 s (formBulkSet a0 s) := by
  unfold formBulkSet
  repeat' (first
    | with_reducible intro _
    | with_reducible apply Only.refl
    | with_reducible assumption
    | with_reducible apply Only.after (State.each_only ..)
    | with_reducible apply Only.step (joinBulkPort_only ..)
    | with_reducible apply Only.step (State.setReg_only ..)
    | with_reducible apply each_only
    | with_reducible apply foldl_only
    | with_reducible apply foldl_pair_only
    | decide
    | fail_if_no_progress extract_lets
    | split
    | with_reducible apply Only.upd_tier
    | dsimp +zetaDelta only [id])

theorem execRefclkALoss_only (s : State) :
    OnlyNext 6291528 s (execRefclkALoss s) := by
  unfold execRefclkALoss
  repeat' (first
    | with_reducible intro _
    | with_reducible apply Only.refl
    | with_reducible assumption
    | with_reducible apply OnlyNext.next
    | with_reducible apply Only.step (State.setReg_only ..)
    | with_reducible apply setRegion_wf
    | with_reducible apply writeBytes_wf
    | with_reducible apply spoilBytes_wf
    | with_reducible apply delFlips_wf
    | with_reducible apply wf_put_flips
    | with_reducible apply wf_del_flips
    | with_reducible apply memory_wf
    | with_reducible apply wf_spad
    | with_reducible apply wf_of_spad
    | with_reducible apply wf_imem
    | with_reducible apply wf_of_imem
    | with_reducible apply wf_dmem
    | with_reducible apply wf_of_dmem
    | with_reducible apply wf_simem
    | with_reducible apply wf_of_simem
    | with_reducible apply wf_hbm
    | with_reducible apply wf_of_hbm
    | with_reducible apply wf_buf
    | with_reducible apply wf_of_buf
    | with_reducible apply wf_tags
    | with_reducible apply wf_of_tags
    | with_reducible apply wf_bulk
    | with_reducible apply wf_of_bulk
    | with_reducible apply wf_empty
    | with_reducible apply wf_filter_cells
    | with_reducible apply forgetRange_wf
    | with_reducible apply foldl_wf
    | with_reducible apply spoilWord_wf
    | decide
    | split
    | with_reducible apply Only.upd_plat
    | with_reducible apply Only.upd_plat_mem_host
    | dsimp +zetaDelta only [id])

theorem execThermalTrip_only (a0 : Fin 10) (a1 : Nat) (s : State) :
    OnlyNext 67108930 s (execThermalTrip a0 a1 s) := by
  unfold execThermalTrip
  repeat' (first
    | with_reducible intro _
    | with_reducible apply Only.refl
    | with_reducible assumption
    | with_reducible apply OnlyNext.next
    | with_reducible apply List.prefix_append
    | with_reducible apply List.prefix_refl
    | decide
    | fail_if_no_progress extract_lets
    | split
    | with_reducible apply Only.upd_out_plat_twin
    | with_reducible apply Only.upd_plat
    | dsimp +zetaDelta only [id])

theorem requestVdd_only (a0 : Nat) (a1 : Nat) (s : State) :
    Only 66 s (requestVdd a0 a1 s) := by
  unfold requestVdd
  repeat' (first
    | with_reducible intro _
    | with_reducible apply Only.refl
    | with_reducible assumption
    | with_reducible apply List.prefix_append
    | with_reducible apply List.prefix_refl
    | decide
    | fail_if_no_progress extract_lets
    | split
    | with_reducible apply Only.upd_out_plat
    | dsimp +zetaDelta only [id])

theorem execVddCoreStepUp_only (a0 : Fin 4) (s : State) :
    OnlyNext 66 s (execVddCoreStepUp a0 s) := by
  unfold execVddCoreStepUp
  repeat' (first
    | with_reducible intro _
    | with_reducible apply Only.refl
    | with_reducible assumption
    | with_reducible apply OnlyNext.next
    | with_reducible apply Only.step (requestVdd_only ..)
    | decide
    | split
    | with_reducible apply Only.upd_plat
    | dsimp +zetaDelta only [id])

theorem execVddCorePolicy_only (a0 : Fin 4) (a1 : Nat) (a2 : Nat) (a3 : Nat) (s : State) :
    OnlyNext 66 s (execVddCorePolicy a0 a1 a2 a3 s) := by
  unfold execVddCorePolicy
  repeat' (first
    | with_reducible intro _
    | with_reducible apply Only.refl
    | with_reducible assumption
    | with_reducible apply OnlyNext.next
    | with_reducible apply Only.step (requestVdd_only ..)
    | decide
    | fail_if_no_progress extract_lets
    | split
    | with_reducible apply Only.upd_plat
    | dsimp +zetaDelta only [id])

theorem execAvsTransaction_only (a0 : Fin 4) (a1 : Nat) (a2 : Bool) (s : State) :
    OnlyNext 4194378 s (execAvsTransaction a0 a1 a2 s) := by
  unfold execAvsTransaction
  repeat' (first
    | with_reducible intro _
    | with_reducible apply Only.refl
    | with_reducible assumption
    | with_reducible apply OnlyNext.next
    | with_reducible apply Only.step (State.setReg_only ..)
    | with_reducible apply Only.step (State.raise_only ..)
    | with_reducible apply Only.step (State.error_only ..)
    | decide
    | fail_if_no_progress extract_lets
    | split
    | with_reducible apply Only.upd_plat
    | dsimp +zetaDelta only [id])

theorem execVbatLow_only (a0 : Bool) (s : State) :
    OnlyNext 4194314 s (execVbatLow a0 s) := by
  unfold execVbatLow
  repeat' (first
    | with_reducible intro _
    | with_reducible apply Only.refl
    | with_reducible assumption
    | with_reducible apply OnlyNext.next
    | with_reducible apply Only.step (State.raiseBits_only ..)
    | with_reducible apply Only.step (State.setReg_only ..)
    | decide
    | fail_if_no_progress extract_lets
    | split
    | dsimp +zetaDelta only [id])

end Sys2Proof.Machine
end

