-- ==== Sys2Proof/Laws/OnlyArrays.lean ====
section
/-! SUPPORT. What each operation of Machine/Arrays.lean may touch: one lemma per operation, in the form of Laws/Only.lean. -/

namespace Sys2Proof.Machine

set_option linter.unusedTactic false
set_option linter.unreachableTactic false
set_option linter.unusedVariables false

theorem execIssueArrayPass_only (a0 : Fin 160) (a1 : IssueWord) (s : State) :
    OnlyNext 73426446 s (execIssueArrayPass a0 a1 s) := by
  unfold execIssueArrayPass
  repeat' (first
    | with_reducible intro _
    | with_reducible apply Only.refl
    | with_reducible assumption
    | with_reducible apply OnlyNext.next
    | with_reducible apply Only.after (runInsn_only ..)
    | with_reducible apply Only.step (issueBody_only ..)
    | decide
    | dsimp +zetaDelta only [id])

theorem execIssueTileLoad_only (a0 : Fin 160) (a1 : IssueWord) (s : State) :
    OnlyNext 73426446 s (execIssueTileLoad a0 a1 s) := by
  unfold execIssueTileLoad
  repeat' (first
    | with_reducible intro _
    | with_reducible apply Only.refl
    | with_reducible assumption
    | with_reducible apply OnlyNext.next
    | with_reducible apply Only.after (runInsn_only ..)
    | with_reducible apply Only.step (issueBody_only ..)
    | decide
    | dsimp +zetaDelta only [id])

theorem countParity_only (a0 : Nat) (a1 : List Nat) (s : State) :
    Only 8 s (countParity a0 a1 s) := by
  unfold countParity
  repeat' (first
    | with_reducible intro _
    | with_reducible apply Only.refl
    | with_reducible assumption
    | with_reducible apply Only.step (State.bump_only ..)
    | with_reducible apply Only.step (State.addReg_only ..)
    | with_reducible apply foldl_only
    | with_reducible apply foldl_pair_only
    | decide
    | fail_if_no_progress extract_lets
    | dsimp +zetaDelta only [id])

theorem failArrayCmd_only (a0 : Nat) (a1 : Nat) (a2 : ArrayCmd) (a3 : Nat) (a4 : Nat) (a5 : Nat) (s : State) :
    Only 4194826 s (failArrayCmd a0 a1 a2 a3 a4 a5 s) := by
  unfold failArrayCmd
  repeat' (first
    | with_reducible intro _
    | with_reducible apply Only.refl
    | with_reducible assumption
    | with_reducible apply Only.step (deferCause_only ..)
    | with_reducible apply Only.step (State.setCore_only ..)
    | with_reducible apply foldl_only
    | with_reducible apply foldl_pair_only
    | decide
    | fail_if_no_progress extract_lets
    | dsimp +zetaDelta only [id])

theorem countBank_only (a0 : Nat) (a1 : PassDesc) (a2 : List Nat) (s : State) :
    Only 8 s (countBank a0 a1 a2 s) := by
  unfold countBank
  repeat' (first
    | with_reducible intro _
    | with_reducible apply Only.refl
    | with_reducible assumption
    | with_reducible apply Only.step (State.bump_only ..)
    | with_reducible apply Only.step (State.addReg_only ..)
    | decide
    | fail_if_no_progress extract_lets
    | split
    | dsimp +zetaDelta only [id])

theorem execArrayPassStart_only (a0 : Fin 160) (a1 : Fin 4) (a2 : List Nat) (s : State) :
    OnlyNext 6291982 s (execArrayPassStart a0 a1 a2 s) := by
  unfold execArrayPassStart
  repeat' (first
    | with_reducible intro _
    | with_reducible apply Only.refl
    | with_reducible assumption
    | with_reducible apply OnlyNext.next
    | with_reducible apply Only.step (failArrayCmd_only ..)
    | with_reducible apply Only.step (State.setCore_only ..)
    | with_reducible apply Only.step (countBank_only ..)
    | with_reducible apply Only.step (countParity_only ..)
    | with_reducible apply Only.step (State.readWords_only ..)
    | with_reducible apply Only.step (State.usedFree_only ..)
    | with_reducible apply foldl_only
    | with_reducible apply foldl_pair_only
    | decide
    | fail_if_no_progress extract_lets
    | split
    | dsimp +zetaDelta only [id])

theorem storePass_only (a0 : Nat) (a1 : ArrayCmd) (a2 : PassDesc) (a3 : List (List (BitVec 64))) (s : State) :
    Only 6291466 s (storePass a0 a1 a2 a3 s) := by
  unfold storePass
  repeat' (first
    | with_reducible intro _
    | with_reducible apply Only.refl
    | with_reducible assumption
    | with_reducible apply Only.after (State.each_only ..)
    | with_reducible apply Only.step (State.spadWrite_only ..)
    | with_reducible apply Only.step (State.readWords_only ..)
    | with_reducible apply Only.step (orFlags_only ..)
    | with_reducible apply each_only
    | decide
    | fail_if_no_progress extract_lets
    | split
    | dsimp +zetaDelta only [id])

theorem recordPass_only (a0 : Nat) (a1 : PassDesc) (a2 : List (List (BitVec 64))) (s : State) :
    Only 6291466 s (recordPass a0 a1 a2 s) := by
  unfold recordPass
  repeat' (first
    | with_reducible intro _
    | with_reducible apply Only.refl
    | with_reducible assumption
    | with_reducible apply Only.after (State.each_only ..)
    | with_reducible apply Only.step (State.spadWrite_only ..)
    | with_reducible apply each_only
    | decide
    | dsimp +zetaDelta only [id])

theorem bankFlip_only (a0 : Nat) (a1 : PassDesc) (a2 : List Nat) (s : State) :
    Only 4194826 s (bankFlip a0 a1 a2 s) := by
  unfold bankFlip
  repeat' (first
    | with_reducible intro _
    | with_reducible apply Only.refl
    | with_reducible assumption
    | with_reducible apply Only.step (flipFired_only ..)
    | with_reducible apply Only.step (State.setCore_only ..)
    | decide
    | fail_if_no_progress extract_lets
    | split
    | dsimp +zetaDelta only [id])

theorem countPass_only (a0 : Nat) (a1 : Nat) (a2 : List Nat) (a3 : List Nat) (s : State) :
    Only 8 s (countPass a0 a1 a2 a3 s) := by
  unfold countPass
  repeat' (first
    | with_reducible intro _
    | with_reducible apply Only.refl
    | with_reducible assumption
    | with_reducible apply Only.after (State.each_only ..)
    | with_reducible apply Only.step (State.addReg_only ..)
    | with_reducible apply each_only
    | decide
    | dsimp +zetaDelta only [id])

theorem cutPasses_only (a0 : Nat) (s : State) :
    Only 524 s (cutPasses a0 s) := by
  unfold cutPasses
  repeat' (first
    | with_reducible intro _
    | with_reducible apply Only.refl
    | with_reducible assumption
    | with_reducible apply Only.after (State.each_only ..)
    | with_reducible apply Only.step (State.addReg_only ..)
    | with_reducible apply Only.step (State.usedFree_only ..)
    | with_reducible apply Only.step (State.setCore_only ..)
    | with_reducible apply each_only
    | decide
    | fail_if_no_progress extract_lets
    | split
    | dsimp +zetaDelta only [id])

theorem cutByFence_only (a0 : Nat) (s : State) :
    Only 12 s (cutByFence a0 s) := by
  unfold cutByFence
  repeat' (first
    | with_reducible intro _
    | with_reducible apply Only.refl
    | with_reducible assumption
    | with_reducible apply Only.after (State.each_only ..)
    | with_reducible apply Only.step (State.addReg_only ..)
    | with_reducible apply Only.step (State.usedFree_only ..)
    | with_reducible apply each_only
    | decide
    | fail_if_no_progress extract_lets
    | split
    | dsimp +zetaDelta only [id])

theorem execArrayPassDone_only (a0 : Fin 160) (a1 : Fin 4) (a2 : List Nat) (s : State) :
    OnlyNext 6291982 s (execArrayPassDone a0 a1 a2 s) := by
  unfold execArrayPassDone
  repeat' (first
    | with_reducible intro _
    | with_reducible apply Only.refl
    | with_reducible assumption
    | with_reducible apply OnlyNext.next
    | with_reducible apply Only.step (State.setCore_only ..)
    | with_reducible apply Only.step (storePass_only ..)
    | with_reducible apply Only.step (recordPass_only ..)
    | with_reducible apply Only.step (bankFlip_only ..)
    | with_reducible apply Only.step (orFlags_only ..)
    | with_reducible apply Only.step (State.usedFree_only ..)
    | with_reducible apply Only.step (countPass_only ..)
    | decide
    | fail_if_no_progress extract_lets
    | split
    | dsimp +zetaDelta only [id])

theorem execTileLoadStart_only (a0 : Fin 160) (a1 : Fin 4) (s : State) :
    OnlyNext 6291982 s (execTileLoadStart a0 a1 s) := by
  unfold execTileLoadStart
  repeat' (first
    | with_reducible intro _
    | with_reducible apply Only.refl
    | with_reducible assumption
    | with_reducible apply OnlyNext.next
    | with_reducible apply Only.step (failArrayCmd_only ..)
    | with_reducible apply Only.step (State.usedFree_only ..)
    | with_reducible apply Only.step (State.readWords_only ..)
    | with_reducible apply Only.step (State.setCore_only ..)
    | decide
    | fail_if_no_progress extract_lets
    | split
    | dsimp +zetaDelta only [id])

theorem tileFlip_only (a0 : Nat) (a1 : List Nat) (s : State) :
    Only 4194826 s (tileFlip a0 a1 s) := by
  unfold tileFlip
  repeat' (first
    | with_reducible intro _
    | with_reducible apply Only.refl
    | with_reducible assumption
    | with_reducible apply Only.step (flipFired_only ..)
    | with_reducible apply Only.step (State.setCore_only ..)
    | decide
    | fail_if_no_progress extract_lets
    | split
    | dsimp +zetaDelta only [id])

theorem execTileLoadDone_only (a0 : Fin 160) (a1 : Fin 4) (s : State) :
    OnlyNext 4194826 s (execTileLoadDone a0 a1 s) := by
  unfold execTileLoadDone
  repeat' (first
    | with_reducible intro _
    | with_reducible apply Only.refl
    | with_reducible assumption
    | with_reducible apply OnlyNext.next
    | with_reducible apply Only.step (tileFlip_only ..)
    | with_reducible apply Only.step (State.setCore_only ..)
    | with_reducible apply foldl_only
    | with_reducible apply foldl_pair_only
    | decide
    | fail_if_no_progress extract_lets
    | split
    | dsimp +zetaDelta only [id])

theorem startProbe_only (a0 : Nat) (a1 : Nat) (s : State) :
    Only 520 s (startProbe a0 a1 s) := by
  unfold startProbe
  repeat' (first
    | with_reducible intro _
    | with_reducible apply Only.refl
    | with_reducible assumption
    | with_reducible apply Only.step (State.modCore_only ..)
    | with_reducible apply Only.step (State.setReg_only ..)
    | with_reducible apply foldl_only
    | with_reducible apply foldl_pair_only
    | decide
    | fail_if_no_progress extract_lets
    | dsimp +zetaDelta only [id])

theorem execSkewProbeStart_only (a0 : Requester) (a1 : Fin 160) (a2 : BitVec 32) (s : State) :
    OnlyNext 4194826 s (execSkewProbeStart a0 a1 a2 s) := by
  unfold execSkewProbeStart
  repeat' (first
    | with_reducible intro _
    | with_reducible apply Only.refl
    | with_reducible assumption
    | with_reducible apply OnlyNext.next
    | with_reducible apply Only.after (writeAccess_only ..)
    | with_reducible apply Only.step (State.setReg_only ..)
    | with_reducible apply Only.step (startProbe_only ..)
    | with_reducible apply Only.step (State.error_only ..)
    | decide
    | fail_if_no_progress extract_lets
    | split
    | dsimp +zetaDelta only [id])

theorem probeDone_only (a0 : Nat) (a1 : Nat) (a2 : Nat) (s : State) :
    Only 4194378 s (probeDone a0 a1 a2 s) := by
  unfold probeDone
  repeat' (first
    | with_reducible intro _
    | with_reducible apply Only.refl
    | with_reducible assumption
    | with_reducible apply Only.step (setArrayState_only ..)
    | with_reducible apply Only.step (State.setReg_only ..)
    | with_reducible apply Only.after (State.each_only ..)
    | with_reducible apply Only.step (State.error_only ..)
    | with_reducible apply Only.step (State.raiseBits_only ..)
    | with_reducible apply each_only
    | decide
    | fail_if_no_progress extract_lets
    | split
    | with_reducible apply Only.upd_plat
    | dsimp +zetaDelta only [id])

theorem writeRepair_only (a0 : Nat) (a1 : Nat) (a2 : Bool) (a3 : Nat) (a4 : Nat) (s : State) :
    Only 8 s (writeRepair a0 a1 a2 a3 a4 s) := by
  unfold writeRepair
  repeat' (first
    | with_reducible intro _
    | with_reducible apply Only.refl
    | with_reducible assumption
    | with_reducible apply Only.step (State.setReg_only ..)
    | decide
    | fail_if_no_progress extract_lets
    | split
    | dsimp +zetaDelta only [id])

theorem repairWrite_only (a0 : Nat) (a1 : Nat) (a2 : Bool) (a3 : Nat) (s : State) :
    Only 520 s (repairWrite a0 a1 a2 a3 s) := by
  unfold repairWrite
  repeat' (first
    | with_reducible intro _
    | with_reducible apply Only.refl
    | with_reducible assumption
    | with_reducible apply Only.after (State.each_only ..)
    | with_reducible apply Only.step (writeRepair_only ..)
    | with_reducible apply Only.step (startProbe_only ..)
    | with_reducible apply each_only
    | decide
    | fail_if_no_progress extract_lets
    | split
    | dsimp +zetaDelta only [id])

theorem execRowRepairWrite_only (a0 : Requester) (a1 : Fin 160) (a2 : Fin 4) (a3 : BitVec 32) (s : State) :
    OnlyNext 4194826 s (execRowRepairWrite a0 a1 a2 a3 s) := by
  unfold execRowRepairWrite
  repeat' (first
    | with_reducible intro _
    | with_reducible apply Only.refl
    | with_reducible assumption
    | with_reducible apply OnlyNext.next
    | with_reducible apply Only.after (writeAccess_only ..)
    | with_reducible apply Only.step (repairWrite_only ..)
    | with_reducible apply Only.step (State.error_only ..)
    | decide
    | split
    | dsimp +zetaDelta only [id])

theorem execColRepairWrite_only (a0 : Requester) (a1 : Fin 160) (a2 : Fin 4) (a3 : BitVec 32) (s : State) :
    OnlyNext 4194826 s (execColRepairWrite a0 a1 a2 a3 s) := by
  unfold execColRepairWrite
  repeat' (first
    | with_reducible intro _
    | with_reducible apply Only.refl
    | with_reducible assumption
    | with_reducible apply OnlyNext.next
    | with_reducible apply Only.after (writeAccess_only ..)
    | with_reducible apply Only.step (repairWrite_only ..)
    | with_reducible apply Only.step (State.error_only ..)
    | decide
    | split
    | dsimp +zetaDelta only [id])

end Sys2Proof.Machine
end

