-- ==== Sys2Proof/Laws/OnlyRecord.lean ====
section
/-! SUPPORT. What each operation of Machine/Record.lean may touch: one lemma per operation, in the form of Laws/Only.lean. -/

namespace Sys2Proof.Machine

set_option linter.unusedTactic false
set_option linter.unreachableTactic false
set_option linter.unusedVariables false

theorem setRecord_only (a0 : Nat) (a1 : RecordRun) (s : State) :
    Only 524288 s (setRecord a0 a1 s) := by
  unfold setRecord
  repeat' (first
    | with_reducible intro _
    | with_reducible apply Only.refl
    | with_reducible assumption
    | decide
    | with_reducible apply Only.upd_records
    | dsimp +zetaDelta only [id])

theorem noteOutput_only (a0 : Nat) (a1 : Nat) (a2 : List Byte) (s : State) :
    Only 524288 s (noteOutput a0 a1 a2 s) := by
  unfold noteOutput
  repeat' (first
    | with_reducible intro _
    | with_reducible apply Only.refl
    | with_reducible assumption
    | with_reducible apply Only.step (setRecord_only ..)
    | decide
    | fail_if_no_progress extract_lets
    | split
    | dsimp +zetaDelta only [id])

theorem putEntry_only (a0 : Nat) (a1 : Nat) (a2 : Nat) (a3 : BitVec 96) (a4 : List Byte) (s : State) :
    Only 73417738 s (putEntry a0 a1 a2 a3 a4 s) := by
  unfold putEntry
  repeat' (first
    | with_reducible intro _
    | with_reducible apply Only.refl
    | with_reducible assumption
    | with_reducible apply Only.step (State.raise_only ..)
    | with_reducible apply Only.step (State.setReg_only ..)
    | with_reducible apply Only.step (State.partStore_only ..)
    | decide
    | fail_if_no_progress extract_lets
    | split
    | dsimp +zetaDelta only [id])

theorem holdInput_only (a0 : Nat) (a1 : HeldInput) (s : State) :
    Only 524288 s (holdInput a0 a1 s) := by
  unfold holdInput
  repeat' (first
    | with_reducible intro _
    | with_reducible apply Only.refl
    | with_reducible assumption
    | with_reducible apply Only.step (setRecord_only ..)
    | decide
    | fail_if_no_progress extract_lets
    | dsimp +zetaDelta only [id])

theorem recordSeed_only (a0 : Nat) (a1 : Nat) (a2 : Nat) (a3 : BitVec 128) (s : State) :
    Only 73417738 s (recordSeed a0 a1 a2 a3 s) := by
  unfold recordSeed
  repeat' (first
    | with_reducible intro _
    | with_reducible apply Only.refl
    | with_reducible assumption
    | with_reducible apply Only.step (putEntry_only ..)
    | decide
    | dsimp +zetaDelta only [id])

theorem noteMark_only (a0 : Nat) (s : State) :
    Only 524288 s (noteMark a0 s) := by
  unfold noteMark
  repeat' (first
    | with_reducible intro _
    | with_reducible apply Only.refl
    | with_reducible assumption
    | with_reducible apply Only.step (setRecord_only ..)
    | decide
    | fail_if_no_progress extract_lets
    | split
    | dsimp +zetaDelta only [id])

theorem diverge_only (a0 : Nat) (a1 : Nat) (s : State) :
    Only 4718602 s (diverge a0 a1 s) := by
  unfold diverge
  repeat' (first
    | with_reducible intro _
    | with_reducible apply Only.refl
    | with_reducible assumption
    | with_reducible apply Only.step (State.setReg_only ..)
    | with_reducible apply Only.step (State.raise_only ..)
    | with_reducible apply Only.step (setRecord_only ..)
    | decide
    | fail_if_no_progress extract_lets
    | split
    | dsimp +zetaDelta only [id])

end Sys2Proof.Machine
end

