-- ==== Sys2Proof/Laws/OnlySched.lean ====
section
/-! SUPPORT. What each operation of Machine/Sched.lean may touch: one lemma per operation, in the form of Laws/Only.lean. -/

namespace Sys2Proof.Machine

set_option linter.unusedTactic false
set_option linter.unreachableTactic false
set_option linter.unusedVariables false

theorem accountCtx_only (a0 : Nat) (a1 : Nat) (s : State) :
    Only 73426442 s (accountCtx a0 a1 s) := by
  unfold accountCtx
  repeat' (first
    | with_reducible intro _
    | with_reducible apply Only.refl
    | with_reducible assumption
    | with_reducible apply Only.after (State.each_only ..)
    | with_reducible apply Only.step (State.modCore_only ..)
    | with_reducible apply Only.step (State.writeCtx_only ..)
    | with_reducible apply Only.step (State.addReg_only ..)
    | with_reducible apply each_only
    | with_reducible apply foldl_only
    | with_reducible apply foldl_pair_only
    | decide
    | fail_if_no_progress extract_lets
    | split
    | dsimp +zetaDelta only [id])

theorem askPreempt_only (a0 : Nat) (a1 : Nat) (s : State) :
    Only 512 s (askPreempt a0 a1 s) := by
  unfold askPreempt
  repeat' (first
    | with_reducible intro _
    | with_reducible apply Only.refl
    | with_reducible assumption
    | with_reducible apply Only.after (State.each_only ..)
    | with_reducible apply Only.step (State.modCore_only ..)
    | with_reducible apply each_only
    | decide
    | split
    | dsimp +zetaDelta only [id])

theorem chooseOne_only (a0 : Nat) (r : Prod State (List Nat)) (a2 : Nat) :
    Only 8704 r.1 (chooseOne a0 r a2).1 := by
  unfold chooseOne
  repeat' (first
    | with_reducible intro _
    | with_reducible apply Only.refl
    | with_reducible assumption
    | with_reducible apply Only.step (State.setCtx_only ..)
    | with_reducible apply Only.step (askPreempt_only ..)
    | with_reducible apply foldl_only
    | with_reducible apply foldl_pair_only
    | decide
    | fail_if_no_progress extract_lets
    | split
    | dsimp +zetaDelta only [id])

theorem choose_only (a0 : Nat) (s : State) :
    Only 8704 s (choose a0 s) := by
  unfold choose
  repeat' (first
    | with_reducible intro _
    | with_reducible apply Only.refl
    | with_reducible assumption
    | with_reducible apply Only.after (State.each_only ..)
    | with_reducible apply Only.step (State.setCtx_only ..)
    | with_reducible apply Only.step (chooseOne_only ..)
    | with_reducible refine Only.step (Only.pair (chooseOne_only ..) (by assumption)) (by decide) ?_
    | with_reducible apply each_only
    | with_reducible apply foldl_only
    | with_reducible apply foldl_pair_only
    | decide
    | fail_if_no_progress extract_lets
    | split
    | dsimp +zetaDelta only [id])

theorem freeLocks_only (a0 : BitVec 24 → Bool) (s : State) :
    Only 4096 s (freeLocks a0 s) := by
  unfold freeLocks
  repeat' (first
    | with_reducible intro _
    | with_reducible apply Only.refl
    | with_reducible assumption
    | decide
    | split
    | with_reducible apply Only.upd_sems
    | dsimp +zetaDelta only [id])

theorem leaveWaits_only (a0 : Agent) (s : State) :
    Only 4096 s (leaveWaits a0 s) := by
  unfold leaveWaits
  repeat' (first
    | with_reducible intro _
    | with_reducible apply Only.refl
    | with_reducible assumption
    | decide
    | split
    | with_reducible apply Only.upd_sems
    | dsimp +zetaDelta only [id])

theorem loadRegs_only (a0 : Nat) (a1 : List Nat) (s : State) :
    Only 8 s (loadRegs a0 a1 s) := by
  unfold loadRegs
  repeat' (first
    | with_reducible intro _
    | with_reducible apply Only.refl
    | with_reducible assumption
    | with_reducible apply Only.after (State.each_only ..)
    | with_reducible apply Only.step (State.setReg_only ..)
    | with_reducible apply each_only
    | decide
    | dsimp +zetaDelta only [id])

theorem clearRegs_only (a0 : Nat) (s : State) :
    Only 8 s (clearRegs a0 s) := by
  unfold clearRegs
  repeat' (first
    | with_reducible intro _
    | with_reducible apply Only.refl
    | with_reducible assumption
    | with_reducible apply Only.after (State.each_only ..)
    | with_reducible apply Only.step (State.setReg_only ..)
    | with_reducible apply each_only
    | decide
    | dsimp +zetaDelta only [id])

theorem afterRelease_only (a0 : Nat) (a1 : Nat) (s : State) :
    Only 73425930 s (afterRelease a0 a1 s) := by
  unfold afterRelease
  repeat' (first
    | with_reducible intro _
    | with_reducible apply Only.refl
    | with_reducible assumption
    | with_reducible apply Only.step (State.writeCtx_only ..)
    | decide
    | fail_if_no_progress extract_lets
    | split
    | dsimp +zetaDelta only [id])

theorem releaseCore_only (a0 : Nat) (s : State) :
    Only 73426442 s (releaseCore a0 s) := by
  unfold releaseCore
  repeat' (first
    | with_reducible intro _
    | with_reducible apply Only.refl
    | with_reducible assumption
    | with_reducible apply Only.step (accountCtx_only ..)
    | with_reducible apply Only.step (clearRegs_only ..)
    | with_reducible apply Only.step (State.setCore_only ..)
    | with_reducible apply Only.step (afterRelease_only ..)
    | decide
    | fail_if_no_progress extract_lets
    | split
    | dsimp +zetaDelta only [id])

theorem saveCore_only (a0 : Nat) (a1 : SavedCore) (s : State) :
    Only 73425930 s (saveCore a0 a1 s) := by
  unfold saveCore
  repeat' (first
    | with_reducible intro _
    | with_reducible apply Only.refl
    | with_reducible assumption
    | with_reducible apply Only.step (State.writeCtx_only ..)
    | with_reducible apply Only.step (State.partWrite_only ..)
    | with_reducible apply Only.step (State.readWords_only ..)
    | decide
    | fail_if_no_progress extract_lets
    | split
    | dsimp +zetaDelta only [id])

theorem endContext_only (a0 : Nat) (a1 : Nat) (s : State) :
    Only 73430538 s (endContext a0 a1 s) := by
  unfold endContext
  repeat' (first
    | with_reducible intro _
    | with_reducible apply Only.refl
    | with_reducible assumption
    | with_reducible apply Only.step (accountCtx_only ..)
    | with_reducible apply Only.step (freeLocks_only ..)
    | with_reducible apply Only.after (State.each_only ..)
    | with_reducible apply Only.step (clearRegs_only ..)
    | with_reducible apply Only.step (State.modCore_only ..)
    | with_reducible apply Only.step (leaveWaits_only ..)
    | with_reducible apply Only.step (State.setCtx_only ..)
    | with_reducible apply Only.step (State.writeCtx_only ..)
    | with_reducible apply each_only
    | decide
    | fail_if_no_progress extract_lets
    | dsimp +zetaDelta only [id])

theorem endDonation_only (a0 : Nat) (a1 : Nat) (a2 : Prod Nat Nat → Bool) (s : State) :
    Only 73426442 s (endDonation a0 a1 a2 s) := by
  unfold endDonation
  repeat' (first
    | with_reducible intro _
    | with_reducible apply Only.refl
    | with_reducible assumption
    | with_reducible apply Only.step (accountCtx_only ..)
    | with_reducible apply Only.step (State.setCtx_only ..)
    | with_reducible apply Only.step (askPreempt_only ..)
    | decide
    | fail_if_no_progress extract_lets
    | split
    | dsimp +zetaDelta only [id])

end Sys2Proof.Machine
end

