-- ==== Sys2Proof/Laws/OnlyCheap.lean ====
section
/-! SUPPORT. What each operation of Machine/Cheap.lean may touch: one lemma per operation, in the form of Laws/Only.lean. -/

namespace Sys2Proof.Machine

set_option linter.unusedTactic false
set_option linter.unreachableTactic false
set_option linter.unusedVariables false

theorem cheapPassed_only (a0 : Nat) (s : State) :
    Only 4194826 s (cheapPassed a0 s) := by
  unfold cheapPassed
  repeat' (first
    | with_reducible intro _
    | with_reducible apply Only.refl
    | with_reducible assumption
    | with_reducible apply Only.step (State.setCore_only ..)
    | with_reducible apply Only.step (State.setReg_only ..)
    | with_reducible apply Only.step (State.raise_only ..)
    | with_reducible apply Only.step (State.bump_only ..)
    | decide
    | fail_if_no_progress extract_lets
    | split
    | dsimp +zetaDelta only [id])

theorem formShadow_only (a0 : Nat) (a1 : Option LiveSet) (a2 : BitVec 18) (s : State) :
    Only 512 s (formShadow a0 a1 a2 s) := by
  unfold formShadow
  repeat' (first
    | with_reducible intro _
    | with_reducible apply Only.refl
    | with_reducible assumption
    | with_reducible apply Only.step (State.modCore_only ..)
    | decide
    | split
    | dsimp +zetaDelta only [id])

theorem takeCheap_only (a0 : Nat) (a1 : Nat) (a2 : Option LiveSet) (s : State) :
    Only 4194826 s (takeCheap a0 a1 a2 s) := by
  unfold takeCheap
  repeat' (first
    | with_reducible intro _
    | with_reducible apply Only.refl
    | with_reducible assumption
    | with_reducible apply Only.step (State.modCore_only ..)
    | with_reducible apply Only.step (State.error_only ..)
    | decide
    | split
    | dsimp +zetaDelta only [id])

theorem skipCheap_only (a0 : Nat) (s : State) :
    Only 4194314 s (skipCheap a0 s) := by
  unfold skipCheap
  repeat' (first
    | with_reducible intro _
    | with_reducible apply Only.refl
    | with_reducible assumption
    | with_reducible apply Only.step (State.raise_only ..)
    | with_reducible apply Only.step (State.bump_only ..)
    | decide
    | dsimp +zetaDelta only [id])

theorem cpmarkBody_only (a0 : Nat) (a1 : BitVec 16) (a2 : BitVec 6) (s : State) :
    Only 73950730 s (cpmarkBody a0 a1 a2 s) := by
  unfold cpmarkBody
  repeat' (first
    | with_reducible intro _
    | with_reducible apply Only.refl
    | with_reducible assumption
    | with_reducible apply Only.step (trapIllegal_only ..)
    | with_reducible apply Only.step (trap_only ..)
    | with_reducible apply Only.step (State.modCore_only ..)
    | with_reducible apply Only.step (State.addReg_only ..)
    | with_reducible apply Only.step (noteMark_only ..)
    | with_reducible apply Only.step (formShadow_only ..)
    | with_reducible apply Only.step (cheapPassed_only ..)
    | with_reducible apply Only.step (skipCheap_only ..)
    | with_reducible apply Only.step (takeCheap_only ..)
    | decide
    | fail_if_no_progress extract_lets
    | split
    | dsimp +zetaDelta only [id])

theorem execCpmark_only (a0 : Fin 160) (a1 : BitVec 16) (a2 : BitVec 6) (s : State) :
    OnlyNext 73950730 s (execCpmark a0 a1 a2 s) := by
  unfold execCpmark
  repeat' (first
    | with_reducible intro _
    | with_reducible apply Only.refl
    | with_reducible assumption
    | with_reducible apply OnlyNext.next
    | with_reducible apply Only.after (runInsn_only ..)
    | with_reducible apply Only.step (cpmarkBody_only ..)
    | decide
    | dsimp +zetaDelta only [id])

theorem chooseFor_only (a0 : Option CtxRef) (s : State) :
    Only 8704 s (chooseFor a0 s) := by
  unfold chooseFor
  repeat' (first
    | with_reducible intro _
    | with_reducible apply Only.refl
    | with_reducible assumption
    | with_reducible apply Only.step (choose_only ..)
    | decide
    | split
    | dsimp +zetaDelta only [id])

theorem execCheapSaveDone_only (a0 : Fin 160) (s : State) :
    OnlyNext 73426442 s (execCheapSaveDone a0 s) := by
  unfold execCheapSaveDone
  repeat' (first
    | with_reducible intro _
    | with_reducible apply Only.refl
    | with_reducible assumption
    | with_reducible apply OnlyNext.next
    | with_reducible apply Only.step (saveCore_only ..)
    | with_reducible apply Only.step (State.bump_only ..)
    | with_reducible apply Only.step (State.raise_only ..)
    | with_reducible apply Only.step (choose_only ..)
    | with_reducible apply Only.step (releaseCore_only ..)
    | decide
    | fail_if_no_progress extract_lets
    | split
    | dsimp +zetaDelta only [id])

theorem execForcedPreempt_only (a0 : Fin 160) (s : State) :
    OnlyNext 4608 s (execForcedPreempt a0 s) := by
  unfold execForcedPreempt
  repeat' (first
    | with_reducible intro _
    | with_reducible apply Only.refl
    | with_reducible assumption
    | with_reducible apply OnlyNext.next
    | with_reducible apply Only.step (State.modCore_only ..)
    | with_reducible apply Only.step (leaveWaits_only ..)
    | decide
    | fail_if_no_progress extract_lets
    | split
    | dsimp +zetaDelta only [id])

theorem execForcedSaveDone_only (a0 : Fin 160) (s : State) :
    OnlyNext 73426446 s (execForcedSaveDone a0 s) := by
  unfold execForcedSaveDone
  repeat' (first
    | with_reducible intro _
    | with_reducible apply Only.refl
    | with_reducible assumption
    | with_reducible apply OnlyNext.next
    | with_reducible apply Only.step (cutPasses_only ..)
    | with_reducible apply Only.step (saveCore_only ..)
    | with_reducible apply Only.step (State.raise_only ..)
    | with_reducible apply Only.step (State.bump_only ..)
    | with_reducible apply Only.step (choose_only ..)
    | with_reducible apply Only.step (releaseCore_only ..)
    | decide
    | fail_if_no_progress extract_lets
    | split
    | dsimp +zetaDelta only [id])

theorem execPreemptDelivered_only (a0 : Fin 160) (s : State) :
    OnlyNext 4198922 s (execPreemptDelivered a0 s) := by
  unfold execPreemptDelivered
  repeat' (first
    | with_reducible intro _
    | with_reducible apply Only.refl
    | with_reducible assumption
    | with_reducible apply OnlyNext.next
    | with_reducible apply Only.step (State.setCore_only ..)
    | with_reducible apply Only.step (takeCheap_only ..)
    | with_reducible apply Only.step (leaveWaits_only ..)
    | decide
    | fail_if_no_progress extract_lets
    | split
    | dsimp +zetaDelta only [id])

end Sys2Proof.Machine
end

