-- ==== Sys2Proof/Laws/OnlySigcBase.lean ====
section
/-! SUPPORT. What each operation of Machine/SigcBase.lean may touch: one lemma per operation, in the form of Laws/Only.lean. -/

namespace Sys2Proof.Machine

set_option linter.unusedTactic false
set_option linter.unreachableTactic false
set_option linter.unusedVariables false

theorem strap_only (a0 : Nat) (a1 : Nat) (a2 : Nat) (s : State) :
    Only 4194314 s (strap a0 a1 a2 s) := by
  unfold strap
  repeat' (first
    | with_reducible intro _
    | with_reducible apply Only.refl
    | with_reducible assumption
    | with_reducible apply Only.step (State.raise_only ..)
    | with_reducible apply Only.step (State.setReg_only ..)
    | decide
    | fail_if_no_progress extract_lets
    | dsimp +zetaDelta only [id])

theorem sIllegal_only (a0 : Nat) (s : State) :
    Only 4194314 s (sIllegal a0 s) := by
  unfold sIllegal
  repeat' (first
    | with_reducible intro _
    | with_reducible apply Only.refl
    | with_reducible assumption
    | with_reducible apply Only.step (strap_only ..)
    | decide
    | dsimp +zetaDelta only [id])

theorem runSInsn_only {m : Nat} (a0 : Nat) (a1 : State → State) (s : State) (w : m ||| 6291466 = m) (h1 : ∀ u, Only m u (a1 u)) :
    Only m s (runSInsn a0 a1 s) := by
  unfold runSInsn
  repeat' (first
    | with_reducible intro _
    | with_reducible apply Only.refl
    | with_reducible assumption
    | with_reducible apply Only.step (strap_only ..)
    | with_reducible apply Only.step (State.capture_only ..)
    | with_reducible apply Only.step (State.readEffect_only ..)
    | with_reducible apply Only.after (h1 ..)
    | with_reducible exact sub_of w (by decide)
    | with_reducible exact bit_of w (by decide)
    | decide
    | fail_if_no_progress extract_lets
    | split
    | dsimp +zetaDelta only [id])

theorem strapDataUe_only (a0 : Nat) (a1 : Nat) (s : State) :
    Only 4194314 s (strapDataUe a0 a1 s) := by
  unfold strapDataUe
  repeat' (first
    | with_reducible intro _
    | with_reducible apply Only.refl
    | with_reducible assumption
    | with_reducible apply Only.step (strap_only ..)
    | with_reducible apply Only.step (State.capture_only ..)
    | decide
    | dsimp +zetaDelta only [id])

theorem sFlags_only (a0 : Nat) (a1 : Bool) (a2 : Bool) (s : State) :
    Only 8 s (sFlags a0 a1 a2 s) := by
  unfold sFlags
  repeat' (first
    | with_reducible intro _
    | with_reducible apply Only.refl
    | with_reducible assumption
    | with_reducible apply Only.step (State.setReg_only ..)
    | decide
    | fail_if_no_progress extract_lets
    | dsimp +zetaDelta only [id])

theorem sDone_only (a0 : Nat) (s : State) :
    Only 2048 s (sDone a0 s) := by
  unfold sDone
  repeat' (first
    | with_reducible intro _
    | with_reducible apply Only.refl
    | with_reducible assumption
    | with_reducible apply Only.step (State.setSigc_only ..)
    | decide
    | dsimp +zetaDelta only [id])

theorem dmemWait_only (a0 : Nat) (a1 : Bool) (s : State) :
    Only 12 s (dmemWait a0 a1 s) := by
  unfold dmemWait
  repeat' (first
    | with_reducible intro _
    | with_reducible apply Only.refl
    | with_reducible assumption
    | with_reducible apply Only.step (State.usedFree_only ..)
    | with_reducible apply Only.step (State.addReg_only ..)
    | decide
    | split
    | dsimp +zetaDelta only [id])

theorem rawInsn_only {m : Nat} (a0 : Nat) (a1 : Nat) (a2 : Nat) (a3 : Bool) (a4 : Int) (a5 : BitVec 64 → Nat → State → State) (s : State) (w : m ||| 4194318 = m) (h5 : ∀ x0 x1 u, Only m u (a5 x0 x1 u)) :
    Only m s (rawInsn a0 a1 a2 a3 a4 a5 s) := by
  unfold rawInsn
  repeat' (first
    | with_reducible intro _
    | with_reducible apply Only.refl
    | with_reducible assumption
    | with_reducible apply Only.step (sIllegal_only ..)
    | with_reducible apply Only.step (strap_only ..)
    | with_reducible apply Only.step (State.usedFree_only ..)
    | with_reducible apply Only.after (h5 ..)
    | with_reducible exact sub_of w (by decide)
    | with_reducible exact bit_of w (by decide)
    | decide
    | fail_if_no_progress extract_lets
    | split
    | dsimp +zetaDelta only [id])

theorem sEvent_only (a0 : Nat) (a1 : Nat) (s : State) :
    Only 2048 s (sEvent a0 a1 s) := by
  unfold sEvent
  repeat' (first
    | with_reducible intro _
    | with_reducible apply Only.refl
    | with_reducible assumption
    | with_reducible apply Only.step (State.setSigc_only ..)
    | decide
    | fail_if_no_progress extract_lets
    | split
    | dsimp +zetaDelta only [id])

end Sys2Proof.Machine
end

