-- ==== Sys2Proof/Laws/OnlyStream.lean ====
section
/-! SUPPORT. What each operation of Machine/Stream.lean may touch: one lemma per operation, in the form of Laws/Only.lean. -/

namespace Sys2Proof.Machine

set_option linter.unusedTactic false
set_option linter.unreachableTactic false
set_option linter.unusedVariables false

theorem execIssueStream_only (a0 : Fin 160) (a1 : IssueWord) (s : State) :
    OnlyNext 73426446 s (execIssueStream a0 a1 s) := by
  unfold execIssueStream
  repeat' (first
    | with_reducible intro _
    | with_reducible apply Only.refl
    | with_reducible assumption
    | with_reducible apply OnlyNext.next
    | with_reducible apply Only.after (runInsn_only ..)
    | with_reducible apply Only.step (issueBody_only ..)
    | decide
    | dsimp +zetaDelta only [id])

theorem moveIn_only (a0 : Nat) (a1 : Nat) (a2 : StreamDesc) (a3 : Nat) (a4 : Nat) (s : State) :
    Only 6308878 s (moveIn a0 a1 a2 a3 a4 s) := by
  unfold moveIn
  repeat' (first
    | with_reducible intro _
    | with_reducible apply Only.refl
    | with_reducible assumption
    | with_reducible apply Only.step (State.usedFree_only ..)
    | with_reducible apply Only.step (State.spadWrite_only ..)
    | with_reducible apply Only.step (State.partTouch_only ..)
    | with_reducible apply Only.after (State.each_only ..)
    | with_reducible apply each_only
    | decide
    | fail_if_no_progress extract_lets
    | split
    | dsimp +zetaDelta only [id])

theorem moveOut_only (a0 : Nat) (a1 : Nat) (a2 : StreamDesc) (a3 : Nat) (a4 : Nat) (s : State) :
    Only 73417742 s (moveOut a0 a1 a2 a3 a4 s) := by
  unfold moveOut
  repeat' (first
    | with_reducible intro _
    | with_reducible apply Only.refl
    | with_reducible assumption
    | with_reducible apply Only.step (State.readEffect_only ..)
    | with_reducible apply Only.step (State.usedFree_only ..)
    | with_reducible apply Only.step (State.partStore_only ..)
    | with_reducible apply Only.after (State.each_only ..)
    | with_reducible apply Only.step (State.partWrite_only ..)
    | with_reducible apply each_only
    | decide
    | fail_if_no_progress extract_lets
    | split
    | dsimp +zetaDelta only [id])

theorem slotStatus_only (a0 : Nat) (a1 : Nat) (a2 : Nat) (a3 : Nat) (s : State) :
    Only 8 s (slotStatus a0 a1 a2 a3 s) := by
  unfold slotStatus
  repeat' (first
    | with_reducible intro _
    | with_reducible apply Only.refl
    | with_reducible assumption
    | with_reducible apply Only.step (State.setReg_only ..)
    | decide
    | dsimp +zetaDelta only [id])

theorem execStreamSlotStart_only (a0 : Fin 160) (a1 : Fin 16) (s : State) :
    OnlyNext 520 s (execStreamSlotStart a0 a1 s) := by
  unfold execStreamSlotStart
  repeat' (first
    | with_reducible intro _
    | with_reducible apply Only.refl
    | with_reducible assumption
    | with_reducible apply OnlyNext.next
    | with_reducible apply Only.step (slotStatus_only ..)
    | with_reducible apply Only.step (State.setCore_only ..)
    | decide
    | fail_if_no_progress extract_lets
    | split
    | dsimp +zetaDelta only [id])

theorem execStreamLineMoved_only (a0 : Fin 160) (a1 : Fin 16) (s : State) :
    OnlyNext 73418254 s (execStreamLineMoved a0 a1 s) := by
  unfold execStreamLineMoved
  repeat' (first
    | with_reducible intro _
    | with_reducible apply Only.refl
    | with_reducible assumption
    | with_reducible apply OnlyNext.next
    | with_reducible apply Only.step (spadWait_only ..)
    | with_reducible apply Only.step (moveOut_only ..)
    | with_reducible apply Only.step (moveIn_only ..)
    | with_reducible apply Only.step (State.setCore_only ..)
    | with_reducible apply Only.step (State.partTouch_only ..)
    | decide
    | fail_if_no_progress extract_lets
    | split
    | dsimp +zetaDelta only [id])

theorem execStreamSlotDone_only (a0 : Fin 160) (a1 : Fin 16) (s : State) :
    OnlyNext 520 s (execStreamSlotDone a0 a1 s) := by
  unfold execStreamSlotDone
  repeat' (first
    | with_reducible intro _
    | with_reducible apply Only.refl
    | with_reducible assumption
    | with_reducible apply OnlyNext.next
    | with_reducible apply Only.step (slotStatus_only ..)
    | with_reducible apply Only.step (State.setCore_only ..)
    | decide
    | split
    | dsimp +zetaDelta only [id])

theorem execStreamHalt_only (a0 : Fin 160) (a1 : Fin 16) (s : State) :
    OnlyNext 6309390 s (execStreamHalt a0 a1 s) := by
  unfold execStreamHalt
  repeat' (first
    | with_reducible intro _
    | with_reducible apply Only.refl
    | with_reducible assumption
    | with_reducible apply OnlyNext.next
    | with_reducible apply Only.step (State.faultTouch_only ..)
    | with_reducible apply Only.step (State.partTouch_only ..)
    | with_reducible apply Only.step (State.error_only ..)
    | with_reducible apply Only.step (State.setCore_only ..)
    | with_reducible apply Only.step (State.raise_only ..)
    | with_reducible apply Only.step (State.setReg_only ..)
    | with_reducible apply Only.step (slotStatus_only ..)
    | decide
    | fail_if_no_progress extract_lets
    | split
    | dsimp +zetaDelta only [id])

end Sys2Proof.Machine
end

