-- ==== Sys2Proof/Laws/OnlySync.lean ====
section
/-! SUPPORT. What each operation of Machine/Sync.lean may touch: one lemma per operation, in the form of Laws/Only.lean. -/

namespace Sys2Proof.Machine

set_option linter.unusedTactic false
set_option linter.unreachableTactic false
set_option linter.unusedVariables false

theorem runAgent_only {m : Nat} (a0 : Agent) (a1 : Nat → Bool) (a2 : State → State) (s : State) (w : m ||| 73426442 = m) (h2 : ∀ u, Only m u (a2 u)) :
    Only m s (runAgent a0 a1 a2 s) := by
  unfold runAgent
  repeat' (first
    | with_reducible intro _
    | with_reducible apply Only.refl
    | with_reducible assumption
    | with_reducible apply Only.after (runInsn_only ..)
    | with_reducible apply Only.after (runSInsn_only ..)
    | with_reducible apply Only.after (h2 ..)
    | with_reducible exact sub_of w (by decide)
    | with_reducible exact bit_of w (by decide)
    | decide
    | split
    | dsimp +zetaDelta only [id])

theorem agentDone_only (a0 : Agent) (a1 : Fin 32) (a2 : BitVec 64) (s : State) :
    Only 2560 s (agentDone a0 a1 a2 s) := by
  unfold agentDone
  repeat' (first
    | with_reducible intro _
    | with_reducible apply Only.refl
    | with_reducible assumption
    | with_reducible apply Only.step (State.modCore_only ..)
    | with_reducible apply Only.step (State.setSigc_only ..)
    | decide
    | split
    | dsimp +zetaDelta only [id])

theorem agentTrap_only (a0 : Agent) (a1 : Nat) (a2 : Nat) (s : State) :
    Only 73426442 s (agentTrap a0 a1 a2 s) := by
  unfold agentTrap
  repeat' (first
    | with_reducible intro _
    | with_reducible apply Only.refl
    | with_reducible assumption
    | with_reducible apply Only.step (trap_only ..)
    | with_reducible apply Only.step (sIllegal_only ..)
    | with_reducible apply Only.step (strap_only ..)
    | decide
    | split
    | dsimp +zetaDelta only [id])

theorem setLocks_only (a0 : Agent) (a1 : Nat) (s : State) :
    Only 2056 s (setLocks a0 a1 s) := by
  unfold setLocks
  repeat' (first
    | with_reducible intro _
    | with_reducible apply Only.refl
    | with_reducible assumption
    | with_reducible apply Only.step (State.setReg_only ..)
    | with_reducible apply Only.step (State.setSigc_only ..)
    | decide
    | split
    | dsimp +zetaDelta only [id])

theorem setLate_only (a0 : Agent) (a1 : List Nat) (s : State) :
    Only 2560 s (setLate a0 a1 s) := by
  unfold setLate
  repeat' (first
    | with_reducible intro _
    | with_reducible apply Only.refl
    | with_reducible assumption
    | with_reducible apply Only.step (State.modCore_only ..)
    | with_reducible apply Only.step (State.setSigc_only ..)
    | decide
    | split
    | dsimp +zetaDelta only [id])

theorem markCounter_only (a0 : Agent) (a1 : Nat) (s : State) :
    Only 512 s (markCounter a0 a1 s) := by
  unfold markCounter
  repeat' (first
    | with_reducible intro _
    | with_reducible apply Only.refl
    | with_reducible assumption
    | with_reducible apply Only.step (State.modCore_only ..)
    | decide
    | split
    | dsimp +zetaDelta only [id])

theorem takeSem_only (a0 : Agent) (a1 : Nat) (s : State) :
    Only 6152 s (takeSem a0 a1 s) := by
  unfold takeSem
  repeat' (first
    | with_reducible intro _
    | with_reducible apply Only.refl
    | with_reducible assumption
    | with_reducible apply Only.step (setLocks_only ..)
    | with_reducible apply Only.step (State.setSem_only ..)
    | decide
    | fail_if_no_progress extract_lets
    | split
    | dsimp +zetaDelta only [id])

theorem blockIn_only {m : Nat} {u : State} (a0 : Agent) (a1 : WaitKind) (a2 : Fin 32) (a3 : Option (BitVec 64)) (a4 : Nat) {s t : State}
    (hs : Only m u s) (ht : Only m u t) (w : m ||| 73428490 = m) : Only m u (blockIn a0 a1 a2 a3 a4 s t) := by
  unfold blockIn
  repeat' (first
    | with_reducible intro _
    | with_reducible assumption
    | with_reducible apply Only.step (agentTrap_only ..)
    | with_reducible apply Only.step (State.setSigc_only ..)
    | with_reducible apply Only.step (cheapPassed_only ..)
    | with_reducible apply Only.step (skipCheap_only ..)
    | with_reducible apply Only.step (takeCheap_only ..)
    | with_reducible apply Only.step (settleGap_only ..)
    | with_reducible apply Only.step (State.modCore_only ..)
    | with_reducible exact sub_of w (by decide)
    | fail_if_no_progress extract_lets
    | split
    | dsimp +zetaDelta only [id])

theorem queueWaiter_only (a0 : Agent) (a1 : Nat) (s : State) :
    Only 4096 s (queueWaiter a0 a1 s) := by
  unfold queueWaiter
  repeat' (first
    | with_reducible intro _
    | with_reducible apply Only.refl
    | with_reducible assumption
    | with_reducible apply Only.step (State.setSem_only ..)
    | decide
    | fail_if_no_progress extract_lets
    | split
    | dsimp +zetaDelta only [id])

theorem semacqBody_only (a0 : Agent) (a1 : SyncWord) (s : State) :
    Only 73432586 s (semacqBody a0 a1 s) := by
  unfold semacqBody
  repeat' (first
    | with_reducible intro _
    | with_reducible apply Only.refl
    | with_reducible assumption
    | with_reducible apply Only.step (agentTrap_only ..)
    | with_reducible apply Only.step (agentDone_only ..)
    | with_reducible apply Only.step (setLate_only ..)
    | with_reducible apply Only.step (markCounter_only ..)
    | with_reducible apply Only.step (takeSem_only ..)
    | with_reducible apply Only.step (queueWaiter_only ..)
    | with_reducible apply blockIn_only
    | decide
    | fail_if_no_progress extract_lets
    | split
    | dsimp +zetaDelta only [id])

theorem execSemacq_only (a0 : Agent) (a1 : SyncWord) (s : State) :
    OnlyNext 73432586 s (execSemacq a0 a1 s) := by
  unfold execSemacq
  repeat' (first
    | with_reducible intro _
    | with_reducible apply Only.refl
    | with_reducible assumption
    | with_reducible apply OnlyNext.next
    | with_reducible apply Only.after (runAgent_only ..)
    | with_reducible apply Only.step (semacqBody_only ..)
    | decide
    | dsimp +zetaDelta only [id])

theorem semtryBody_only (a0 : Agent) (a1 : SyncWord) (s : State) :
    Only 73432586 s (semtryBody a0 a1 s) := by
  unfold semtryBody
  repeat' (first
    | with_reducible intro _
    | with_reducible apply Only.refl
    | with_reducible assumption
    | with_reducible apply Only.step (agentTrap_only ..)
    | with_reducible apply Only.step (agentDone_only ..)
    | with_reducible apply Only.step (takeSem_only ..)
    | decide
    | fail_if_no_progress extract_lets
    | split
    | dsimp +zetaDelta only [id])

theorem execSemtry_only (a0 : Agent) (a1 : SyncWord) (s : State) :
    OnlyNext 73432586 s (execSemtry a0 a1 s) := by
  unfold execSemtry
  repeat' (first
    | with_reducible intro _
    | with_reducible apply Only.refl
    | with_reducible assumption
    | with_reducible apply OnlyNext.next
    | with_reducible apply Only.after (runAgent_only ..)
    | with_reducible apply Only.step (semtryBody_only ..)
    | decide
    | dsimp +zetaDelta only [id])

theorem releaseDonation_only (a0 : Agent) (a1 : Nat) (s : State) :
    Only 73426442 s (releaseDonation a0 a1 s) := by
  unfold releaseDonation
  repeat' (first
    | with_reducible intro _
    | with_reducible apply Only.refl
    | with_reducible assumption
    | with_reducible apply Only.step (endDonation_only ..)
    | decide
    | split
    | dsimp +zetaDelta only [id])

theorem semrelBody_only (a0 : Agent) (a1 : Fin 32) (a2 : Fin 32) (a3 : BitVec 8) (a4 : BitVec 8) (s : State) :
    Only 73432586 s (semrelBody a0 a1 a2 a3 a4 s) := by
  unfold semrelBody
  repeat' (first
    | with_reducible intro _
    | with_reducible apply Only.refl
    | with_reducible assumption
    | with_reducible apply Only.step (agentTrap_only ..)
    | with_reducible apply Only.step (setLocks_only ..)
    | with_reducible apply Only.step (State.setSem_only ..)
    | with_reducible apply Only.step (setLate_only ..)
    | with_reducible apply Only.step (releaseDonation_only ..)
    | with_reducible apply Only.step (agentDone_only ..)
    | with_reducible apply Only.step (markCounter_only ..)
    | decide
    | fail_if_no_progress extract_lets
    | split
    | dsimp +zetaDelta only [id])

theorem execSemrel_only (a0 : Agent) (a1 : Fin 32) (a2 : Fin 32) (a3 : BitVec 8) (a4 : BitVec 8) (s : State) :
    OnlyNext 73432586 s (execSemrel a0 a1 a2 a3 a4 s) := by
  unfold execSemrel
  repeat' (first
    | with_reducible intro _
    | with_reducible apply Only.refl
    | with_reducible assumption
    | with_reducible apply OnlyNext.next
    | with_reducible apply Only.after (runAgent_only ..)
    | with_reducible apply Only.step (semrelBody_only ..)
    | decide
    | dsimp +zetaDelta only [id])

theorem semsetBody_only (a0 : Agent) (a1 : SyncWord) (s : State) :
    Only 73432586 s (semsetBody a0 a1 s) := by
  unfold semsetBody
  repeat' (first
    | with_reducible intro _
    | with_reducible apply Only.refl
    | with_reducible assumption
    | with_reducible apply Only.step (agentTrap_only ..)
    | with_reducible apply Only.step (agentDone_only ..)
    | with_reducible apply Only.step (State.setSem_only ..)
    | with_reducible apply Only.step (markCounter_only ..)
    | decide
    | fail_if_no_progress extract_lets
    | split
    | dsimp +zetaDelta only [id])

theorem execSemset_only (a0 : Agent) (a1 : SyncWord) (s : State) :
    OnlyNext 73432586 s (execSemset a0 a1 s) := by
  unfold execSemset
  repeat' (first
    | with_reducible intro _
    | with_reducible apply Only.refl
    | with_reducible assumption
    | with_reducible apply OnlyNext.next
    | with_reducible apply Only.after (runAgent_only ..)
    | with_reducible apply Only.step (semsetBody_only ..)
    | decide
    | dsimp +zetaDelta only [id])

theorem wake_only (a0 : Agent) (a1 : Blocked) (a2 : BitVec 64) (s : State) :
    Only 2560 s (wake a0 a1 a2 s) := by
  unfold wake
  repeat' (first
    | with_reducible intro _
    | with_reducible apply Only.refl
    | with_reducible assumption
    | with_reducible apply Only.step (settleGap_only ..)
    | with_reducible apply Only.step (State.modCore_only ..)
    | with_reducible apply Only.step (State.setSigc_only ..)
    | decide
    | split
    | dsimp +zetaDelta only [id])

theorem execSemaphoreGrant_only (a0 : Fin 65536) (a1 : Bool) (s : State) :
    OnlyNext 23048 s (execSemaphoreGrant a0 a1 s) := by
  unfold execSemaphoreGrant
  repeat' (first
    | with_reducible intro _
    | with_reducible apply Only.refl
    | with_reducible assumption
    | with_reducible apply OnlyNext.next
    | with_reducible apply Only.step (State.setSem_only ..)
    | with_reducible apply Only.step (wake_only ..)
    | with_reducible apply Only.step (takeSem_only ..)
    | decide
    | fail_if_no_progress extract_lets
    | split
    | with_reducible apply Only.upd_tier
    | dsimp +zetaDelta only [id])

theorem consume_only (s : State) (a1 : Agent) (a2 : BitVec 64) :
    Only 512 s (consume s a1 a2).1 := by
  unfold consume
  repeat' (first
    | with_reducible intro _
    | with_reducible apply Only.refl
    | with_reducible assumption
    | with_reducible apply Only.step (State.setCore_only ..)
    | with_reducible apply foldl_only
    | with_reducible apply foldl_pair_only
    | decide
    | fail_if_no_progress extract_lets
    | split
    | dsimp +zetaDelta only [id])

theorem waitBody_only (a0 : Agent) (a1 : SyncWord) (s : State) :
    Only 73428490 s (waitBody a0 a1 s) := by
  unfold waitBody
  repeat' (first
    | with_reducible intro _
    | with_reducible apply Only.refl
    | with_reducible assumption
    | with_reducible apply Only.step (agentTrap_only ..)
    | with_reducible apply Only.step (consume_only ..)
    | with_reducible apply Only.step (agentDone_only ..)
    | with_reducible apply blockIn_only
    | with_reducible refine Only.step (Only.pair (consume_only ..) (by assumption)) (by decide) ?_
    | decide
    | fail_if_no_progress extract_lets
    | split
    | dsimp +zetaDelta only [id])

theorem execWait_only (a0 : Agent) (a1 : SyncWord) (s : State) :
    OnlyNext 73428490 s (execWait a0 a1 s) := by
  unfold execWait
  repeat' (first
    | with_reducible intro _
    | with_reducible apply Only.refl
    | with_reducible assumption
    | with_reducible apply OnlyNext.next
    | with_reducible apply Only.after (runAgent_only ..)
    | with_reducible apply Only.step (waitBody_only ..)
    | decide
    | dsimp +zetaDelta only [id])

theorem execWaitEventArrival_only (a0 : Agent) (s : State) :
    OnlyNext 2560 s (execWaitEventArrival a0 s) := by
  unfold execWaitEventArrival
  repeat' (first
    | with_reducible intro _
    | with_reducible apply Only.refl
    | with_reducible assumption
    | with_reducible apply OnlyNext.next
    | with_reducible apply Only.step (consume_only ..)
    | with_reducible apply Only.step (wake_only ..)
    | with_reducible refine Only.step (Only.pair (consume_only ..) (by assumption)) (by decide) ?_
    | decide
    | fail_if_no_progress extract_lets
    | split
    | dsimp +zetaDelta only [id])

theorem fenceClears_only (a0 : Agent) (a1 : Nat) (s : State) :
    Only 512 s (fenceClears a0 a1 s) := by
  unfold fenceClears
  repeat' (first
    | with_reducible intro _
    | with_reducible apply Only.refl
    | with_reducible assumption
    | with_reducible apply Only.step (State.modCore_only ..)
    | decide
    | split
    | dsimp +zetaDelta only [id])

theorem sendSeals_only (a0 : Nat) (s : State) :
    Only 1544 s (sendSeals a0 s) := by
  unfold sendSeals
  repeat' (first
    | with_reducible intro _
    | with_reducible apply Only.refl
    | with_reducible assumption
    | with_reducible apply Only.after (State.each_only ..)
    | with_reducible apply Only.step (State.addReg_only ..)
    | with_reducible apply Only.step (State.modCore_only ..)
    | with_reducible apply each_only
    | decide
    | fail_if_no_progress extract_lets
    | split
    | with_reducible apply Only.upd_fabric
    | dsimp +zetaDelta only [id])

theorem fenceBody_only (a0 : Agent) (a1 : Fin 32) (a2 : Fin 8) (a3 : Fin 32) (a4 : Fin 1024) (a5 : BitVec 3) (s : State) :
    Only 73428490 s (fenceBody a0 a1 a2 a3 a4 a5 s) := by
  unfold fenceBody
  repeat' (first
    | with_reducible intro _
    | with_reducible apply Only.refl
    | with_reducible assumption
    | with_reducible apply Only.step (agentTrap_only ..)
    | with_reducible apply Only.step (sendSeals_only ..)
    | with_reducible apply Only.step (agentDone_only ..)
    | with_reducible apply Only.step (fenceClears_only ..)
    | with_reducible apply blockIn_only
    | decide
    | fail_if_no_progress extract_lets
    | split
    | dsimp +zetaDelta only [id])

theorem execFence_only (a0 : Agent) (a1 : Fin 32) (a2 : Fin 8) (a3 : Fin 32) (a4 : Fin 1024) (a5 : BitVec 3) (s : State) :
    OnlyNext 73428490 s (execFence a0 a1 a2 a3 a4 a5 s) := by
  unfold execFence
  repeat' (first
    | with_reducible intro _
    | with_reducible apply Only.refl
    | with_reducible assumption
    | with_reducible apply OnlyNext.next
    | with_reducible apply Only.after (runAgent_only ..)
    | with_reducible apply Only.step (fenceBody_only ..)
    | decide
    | dsimp +zetaDelta only [id])

theorem execFenceComplete_only (a0 : Agent) (s : State) :
    OnlyNext 2560 s (execFenceComplete a0 s) := by
  unfold execFenceComplete
  repeat' (first
    | with_reducible intro _
    | with_reducible apply Only.refl
    | with_reducible assumption
    | with_reducible apply OnlyNext.next
    | with_reducible apply Only.step (wake_only ..)
    | with_reducible apply Only.step (fenceClears_only ..)
    | decide
    | split
    | dsimp +zetaDelta only [id])

theorem timeoutDonation_only (a0 : Agent) (a1 : Nat) (s : State) :
    Only 73426442 s (timeoutDonation a0 a1 s) := by
  unfold timeoutDonation
  repeat' (first
    | with_reducible intro _
    | with_reducible apply Only.refl
    | with_reducible assumption
    | with_reducible apply Only.step (endDonation_only ..)
    | decide
    | split
    | dsimp +zetaDelta only [id])

theorem execWaitDeadline_only (a0 : Agent) (s : State) :
    OnlyNext 73432586 s (execWaitDeadline a0 s) := by
  unfold execWaitDeadline
  repeat' (first
    | with_reducible intro _
    | with_reducible apply Only.refl
    | with_reducible assumption
    | with_reducible apply OnlyNext.next
    | with_reducible apply Only.step (leaveWaits_only ..)
    | with_reducible apply Only.step (wake_only ..)
    | with_reducible apply Only.step (setLate_only ..)
    | with_reducible apply Only.step (takeSem_only ..)
    | with_reducible apply Only.step (timeoutDonation_only ..)
    | decide
    | fail_if_no_progress extract_lets
    | split
    | dsimp +zetaDelta only [id])

theorem srelBody_only (a0 : Agent) (a1 : SyncWord) (s : State) :
    Only 73428490 s (srelBody a0 a1 s) := by
  unfold srelBody
  repeat' (first
    | with_reducible intro _
    | with_reducible apply Only.refl
    | with_reducible assumption
    | with_reducible apply Only.step (agentTrap_only ..)
    | with_reducible apply Only.step (State.modCore_only ..)
    | with_reducible apply Only.step (State.setSigc_only ..)
    | with_reducible apply Only.step (agentDone_only ..)
    | decide
    | fail_if_no_progress extract_lets
    | split
    | dsimp +zetaDelta only [id])

theorem execSrel_only (a0 : Agent) (a1 : SyncWord) (s : State) :
    OnlyNext 73428490 s (execSrel a0 a1 s) := by
  unfold execSrel
  repeat' (first
    | with_reducible intro _
    | with_reducible apply Only.refl
    | with_reducible assumption
    | with_reducible apply OnlyNext.next
    | with_reducible apply Only.after (runAgent_only ..)
    | with_reducible apply Only.step (srelBody_only ..)
    | decide
    | dsimp +zetaDelta only [id])

theorem execDonationStart_only (a0 : Fin 160) (s : State) :
    OnlyNext 8704 s (execDonationStart a0 s) := by
  unfold execDonationStart
  repeat' (first
    | with_reducible intro _
    | with_reducible apply Only.refl
    | with_reducible assumption
    | with_reducible apply OnlyNext.next
    | with_reducible apply Only.step (choose_only ..)
    | with_reducible apply Only.step (State.setCtx_only ..)
    | decide
    | fail_if_no_progress extract_lets
    | split
    | dsimp +zetaDelta only [id])

end Sys2Proof.Machine
end

