-- ==== Sys2Proof/Laws/OnlyAgents.lean ====
section
/-! SUPPORT. What each operation of Machine/Agents.lean may touch: one lemma per operation, in the form of Laws/Only.lean. -/

namespace Sys2Proof.Machine

set_option linter.unusedTactic false
set_option linter.unreachableTactic false
set_option linter.unusedVariables false

theorem sysRead_only (a0 : Nat) (a1 : Agent) (a2 : Fin 32) (a3 : State → BitVec 64) (s : State) :
    Only 73428490 s (sysRead a0 a1 a2 a3 s) := by
  unfold sysRead
  repeat' (first
    | with_reducible intro _
    | with_reducible apply Only.refl
    | with_reducible assumption
    | with_reducible apply Only.after (runAgent_only ..)
    | with_reducible apply Only.step (agentTrap_only ..)
    | with_reducible apply Only.step (agentDone_only ..)
    | decide
    | split
    | dsimp +zetaDelta only [id])

theorem execRdtime_only (a0 : Agent) (a1 : Fin 32) (s : State) :
    OnlyNext 73428490 s (execRdtime a0 a1 s) := by
  unfold execRdtime
  repeat' (first
    | with_reducible intro _
    | with_reducible apply Only.refl
    | with_reducible assumption
    | with_reducible apply OnlyNext.next
    | with_reducible apply Only.step (sysRead_only ..)
    | decide
    | dsimp +zetaDelta only [id])

theorem execRdflags_only (a0 : Agent) (a1 : Fin 32) (s : State) :
    OnlyNext 73428490 s (execRdflags a0 a1 s) := by
  unfold execRdflags
  repeat' (first
    | with_reducible intro _
    | with_reducible apply Only.refl
    | with_reducible assumption
    | with_reducible apply OnlyNext.next
    | with_reducible apply Only.step (sysRead_only ..)
    | decide
    | dsimp +zetaDelta only [id])

theorem agentSkip_only (a0 : Agent) (s : State) :
    Only 2560 s (agentSkip a0 s) := by
  unfold agentSkip
  repeat' (first
    | with_reducible intro _
    | with_reducible apply Only.refl
    | with_reducible assumption
    | with_reducible apply Only.step (State.modCore_only ..)
    | with_reducible apply Only.step (State.setSigc_only ..)
    | decide
    | split
    | dsimp +zetaDelta only [id])

theorem clrflagsBody_only (a0 : Agent) (a1 : BitVec 16) (s : State) :
    Only 2568 s (clrflagsBody a0 a1 s) := by
  unfold clrflagsBody
  repeat' (first
    | with_reducible intro _
    | with_reducible apply Only.refl
    | with_reducible assumption
    | with_reducible apply Only.step (agentSkip_only ..)
    | with_reducible apply Only.step (putFlags_only ..)
    | with_reducible apply Only.step (State.setReg_only ..)
    | decide
    | fail_if_no_progress extract_lets
    | split
    | dsimp +zetaDelta only [id])

theorem execClrflags_only (a0 : Agent) (a1 : BitVec 16) (s : State) :
    OnlyNext 73428490 s (execClrflags a0 a1 s) := by
  unfold execClrflags
  repeat' (first
    | with_reducible intro _
    | with_reducible apply Only.refl
    | with_reducible assumption
    | with_reducible apply OnlyNext.next
    | with_reducible apply Only.after (runAgent_only ..)
    | with_reducible apply Only.step (clrflagsBody_only ..)
    | decide
    | dsimp +zetaDelta only [id])

theorem execBrk_only (a0 : Agent) (a1 : BitVec 16) (s : State) :
    OnlyNext 73426442 s (execBrk a0 a1 s) := by
  unfold execBrk
  repeat' (first
    | with_reducible intro _
    | with_reducible apply Only.refl
    | with_reducible assumption
    | with_reducible apply OnlyNext.next
    | with_reducible apply Only.after (runAgent_only ..)
    | with_reducible apply Only.step (agentTrap_only ..)
    | decide
    | dsimp +zetaDelta only [id])

theorem execRdwave_only (a0 : Agent) (a1 : Fin 32) (s : State) :
    OnlyNext 73428490 s (execRdwave a0 a1 s) := by
  unfold execRdwave
  repeat' (first
    | with_reducible intro _
    | with_reducible apply Only.refl
    | with_reducible assumption
    | with_reducible apply OnlyNext.next
    | with_reducible apply Only.step (sysRead_only ..)
    | decide
    | dsimp +zetaDelta only [id])

theorem haltCore_only (a0 : Nat) (s : State) :
    Only 73430538 s (haltCore a0 s) := by
  unfold haltCore
  repeat' (first
    | with_reducible intro _
    | with_reducible apply Only.refl
    | with_reducible assumption
    | with_reducible apply Only.step (State.setReg_only ..)
    | with_reducible apply Only.step (freeLocks_only ..)
    | with_reducible apply Only.step (settleGap_only ..)
    | with_reducible apply Only.step (State.modCore_only ..)
    | with_reducible apply Only.step (choose_only ..)
    | with_reducible apply Only.step (endContext_only ..)
    | decide
    | fail_if_no_progress extract_lets
    | split
    | dsimp +zetaDelta only [id])

theorem endProgram_only (a0 : Nat) (s : State) :
    Only 6144 s (endProgram a0 s) := by
  unfold endProgram
  repeat' (first
    | with_reducible intro _
    | with_reducible apply Only.refl
    | with_reducible assumption
    | with_reducible apply Only.step (leaveWaits_only ..)
    | with_reducible apply Only.step (freeLocks_only ..)
    | with_reducible apply Only.step (State.setSigc_only ..)
    | decide
    | fail_if_no_progress extract_lets
    | dsimp +zetaDelta only [id])

theorem haltBody_only (a0 : Agent) (s : State) :
    Only 73432586 s (haltBody a0 s) := by
  unfold haltBody
  repeat' (first
    | with_reducible intro _
    | with_reducible apply Only.refl
    | with_reducible assumption
    | with_reducible apply Only.step (haltCore_only ..)
    | with_reducible apply Only.step (State.raise_only ..)
    | with_reducible apply Only.step (endProgram_only ..)
    | decide
    | split
    | dsimp +zetaDelta only [id])

theorem execHalt_only (a0 : Agent) (s : State) :
    OnlyNext 73432586 s (execHalt a0 s) := by
  unfold execHalt
  repeat' (first
    | with_reducible intro _
    | with_reducible apply Only.refl
    | with_reducible assumption
    | with_reducible apply OnlyNext.next
    | with_reducible apply Only.after (runAgent_only ..)
    | with_reducible apply Only.step (haltBody_only ..)
    | decide
    | dsimp +zetaDelta only [id])

theorem execDeferredTrap_only (a0 : Fin 160) (s : State) :
    OnlyNext 73430538 s (execDeferredTrap a0 s) := by
  unfold execDeferredTrap
  repeat' (first
    | with_reducible intro _
    | with_reducible apply Only.refl
    | with_reducible assumption
    | with_reducible apply OnlyNext.next
    | with_reducible apply Only.step (State.setCore_only ..)
    | with_reducible apply Only.step (State.modCore_only ..)
    | with_reducible apply Only.step (leaveWaits_only ..)
    | with_reducible apply Only.step (recordTrap_only ..)
    | decide
    | fail_if_no_progress extract_lets
    | split
    | dsimp +zetaDelta only [id])

theorem ctxUntrapped_only (a0 : CtxRef) (s : State) :
    Only 73425930 s (ctxUntrapped a0 s) := by
  unfold ctxUntrapped
  repeat' (first
    | with_reducible intro _
    | with_reducible apply Only.refl
    | with_reducible assumption
    | with_reducible apply Only.step (State.writeCtx_only ..)
    | decide
    | fail_if_no_progress extract_lets
    | split
    | dsimp +zetaDelta only [id])

theorem endTrap_only (a0 : Requester) (a1 : Nat) (a2 : Core → Core) (s : State) :
    Only 73426442 s (endTrap a0 a1 a2 s) := by
  unfold endTrap
  repeat' (first
    | with_reducible intro _
    | with_reducible apply Only.refl
    | with_reducible assumption
    | with_reducible apply Only.after (writeAccess_only ..)
    | with_reducible apply Only.step (settleGap_only ..)
    | with_reducible apply Only.step (State.setReg_only ..)
    | with_reducible apply Only.step (State.modCore_only ..)
    | with_reducible apply Only.step (ctxUntrapped_only ..)
    | decide
    | fail_if_no_progress extract_lets
    | split
    | dsimp +zetaDelta only [id])

theorem execTrapResume_only (a0 : Requester) (a1 : Fin 160) (s : State) :
    OnlyNext 73426442 s (execTrapResume a0 a1 s) := by
  unfold execTrapResume
  repeat' (first
    | with_reducible intro _
    | with_reducible apply Only.refl
    | with_reducible assumption
    | with_reducible apply OnlyNext.next
    | with_reducible apply Only.step (endTrap_only ..)
    | decide
    | dsimp +zetaDelta only [id])

theorem execTrapSkip_only (a0 : Requester) (a1 : Fin 160) (s : State) :
    OnlyNext 73426442 s (execTrapSkip a0 a1 s) := by
  unfold execTrapSkip
  repeat' (first
    | with_reducible intro _
    | with_reducible apply Only.refl
    | with_reducible assumption
    | with_reducible apply OnlyNext.next
    | with_reducible apply Only.step (endTrap_only ..)
    | decide
    | fail_if_no_progress extract_lets
    | split
    | dsimp +zetaDelta only [id])

theorem execTrapAbort_only (a0 : Requester) (a1 : Fin 160) (s : State) :
    OnlyNext 73430538 s (execTrapAbort a0 a1 s) := by
  unfold execTrapAbort
  repeat' (first
    | with_reducible intro _
    | with_reducible apply Only.refl
    | with_reducible assumption
    | with_reducible apply OnlyNext.next
    | with_reducible apply Only.after (writeAccess_only ..)
    | with_reducible apply Only.step (choose_only ..)
    | with_reducible apply Only.step (endContext_only ..)
    | decide
    | split
    | dsimp +zetaDelta only [id])

theorem endSTrap_only {m : Nat} (a0 : Requester) (a1 : Nat) (a2 : State → State) (s : State) (w : m ||| 4194314 = m) (h2 : ∀ u, Only m u (a2 u)) :
    Only m s (endSTrap a0 a1 a2 s) := by
  unfold endSTrap
  repeat' (first
    | with_reducible intro _
    | with_reducible apply Only.refl
    | with_reducible assumption
    | with_reducible apply Only.after (writeAccess_only ..)
    | with_reducible apply Only.step (State.setReg_only ..)
    | with_reducible apply Only.after (h2 ..)
    | with_reducible exact sub_of w (by decide)
    | with_reducible exact bit_of w (by decide)
    | decide
    | split
    | dsimp +zetaDelta only [id])

theorem execSigcTrapResume_only (a0 : Requester) (a1 : Fin 64) (s : State) :
    OnlyNext 4194314 s (execSigcTrapResume a0 a1 s) := by
  unfold execSigcTrapResume
  repeat' (first
    | with_reducible intro _
    | with_reducible apply Only.refl
    | with_reducible assumption
    | with_reducible apply OnlyNext.next
    | with_reducible apply Only.after (endSTrap_only ..)
    | decide
    | dsimp +zetaDelta only [id])

theorem execSigcTrapSkip_only (a0 : Requester) (a1 : Fin 64) (s : State) :
    OnlyNext 4196362 s (execSigcTrapSkip a0 a1 s) := by
  unfold execSigcTrapSkip
  repeat' (first
    | with_reducible intro _
    | with_reducible apply Only.refl
    | with_reducible assumption
    | with_reducible apply OnlyNext.next
    | with_reducible apply Only.after (endSTrap_only ..)
    | with_reducible apply Only.step (State.setSigc_only ..)
    | decide
    | dsimp +zetaDelta only [id])

theorem execSigcTrapAbort_only (a0 : Requester) (a1 : Fin 64) (s : State) :
    OnlyNext 4200458 s (execSigcTrapAbort a0 a1 s) := by
  unfold execSigcTrapAbort
  repeat' (first
    | with_reducible intro _
    | with_reducible apply Only.refl
    | with_reducible assumption
    | with_reducible apply OnlyNext.next
    | with_reducible apply Only.after (endSTrap_only ..)
    | with_reducible apply Only.step (State.raise_only ..)
    | with_reducible apply Only.step (endProgram_only ..)
    | decide
    | dsimp +zetaDelta only [id])

end Sys2Proof.Machine
end

