-- ==== Sys2Proof/Laws/OnlyContexts.lean ====
section
/-! SUPPORT. What each operation of Machine/Contexts.lean may touch: one lemma per operation, in the form of Laws/Only.lean. -/

namespace Sys2Proof.Machine

set_option linter.unusedTactic false
set_option linter.unreachableTactic false
set_option linter.unusedVariables false

theorem ctxAction_only {m : Nat} (a0 : Requester) (a1 : Nat) (a2 : Nat) (a3 : State → Sum State Nat) (s : State) (w : m ||| 4194314 = m) (h3 : ∀ u, OnlySum m u (a3 u)) :
    Only m s (ctxAction a0 a1 a2 a3 s) := by
  unfold ctxAction
  repeat' (first
    | with_reducible intro _
    | with_reducible apply Only.refl
    | with_reducible assumption
    | with_reducible apply Only.after (writeAccess_only ..)
    | with_reducible apply Only.step (State.error_only ..)
    | with_reducible apply Only.step (State.setReg_only ..)
    | with_reducible exact sub_of w (by decide)
    | with_reducible exact bit_of w (by decide)
    | with_reducible refine Only.after (h3 _ _ (by assumption)) ?_
    | exact h3 _ _ (by assumption)
    | decide
    | fail_if_no_progress extract_lets
    | split
    | dsimp +zetaDelta only [id])

theorem execCtxActivate_only (a0 : Requester) (a1 : Fin 64) (a2 : Fin 256) (s : State) :
    OnlyNext 73426442 s (execCtxActivate a0 a1 a2 s) := by
  unfold execCtxActivate
  repeat' (first
    | with_reducible intro _
    | with_reducible apply Only.refl
    | with_reducible assumption
    | with_reducible apply OnlyNext.next
    | with_reducible apply OnlySum.inl
    | with_reducible apply OnlySum.inr
    | with_reducible apply Only.after (ctxAction_only ..)
    | with_reducible apply Only.step (choose_only ..)
    | with_reducible apply Only.step (recordSeed_only ..)
    | with_reducible apply Only.step (State.writeCtx_only ..)
    | decide
    | fail_if_no_progress extract_lets
    | split
    | dsimp +zetaDelta only [id])

theorem forceSave_only (a0 : Nat) (a1 : Nat) (s : State) :
    Only 4608 s (forceSave a0 a1 s) := by
  unfold forceSave
  repeat' (first
    | with_reducible intro _
    | with_reducible apply Only.refl
    | with_reducible assumption
    | with_reducible apply Only.after (State.each_only ..)
    | with_reducible apply Only.step (State.modCore_only ..)
    | with_reducible apply Only.step (leaveWaits_only ..)
    | with_reducible apply each_only
    | decide
    | split
    | dsimp +zetaDelta only [id])

theorem suspend_only (a0 : Nat) (a1 : Nat) (s : State) :
    Only 73430538 s (suspend a0 a1 s) := by
  unfold suspend
  repeat' (first
    | with_reducible intro _
    | with_reducible apply Only.refl
    | with_reducible assumption
    | with_reducible apply Only.step (State.writeCtx_only ..)
    | with_reducible apply Only.step (askPreempt_only ..)
    | with_reducible apply Only.step (forceSave_only ..)
    | decide
    | fail_if_no_progress extract_lets
    | split
    | dsimp +zetaDelta only [id])

theorem execCtxSuspend_only (a0 : Requester) (a1 : Fin 64) (a2 : Fin 256) (s : State) :
    OnlyNext 73430538 s (execCtxSuspend a0 a1 a2 s) := by
  unfold execCtxSuspend
  repeat' (first
    | with_reducible intro _
    | with_reducible apply Only.refl
    | with_reducible assumption
    | with_reducible apply OnlyNext.next
    | with_reducible apply OnlySum.inl
    | with_reducible apply OnlySum.inr
    | with_reducible apply Only.after (ctxAction_only ..)
    | with_reducible apply Only.step (choose_only ..)
    | with_reducible apply Only.step (suspend_only ..)
    | decide
    | fail_if_no_progress extract_lets
    | split
    | dsimp +zetaDelta only [id])

theorem execCtxResume_only (a0 : Requester) (a1 : Fin 64) (a2 : Fin 256) (s : State) :
    OnlyNext 73426442 s (execCtxResume a0 a1 a2 s) := by
  unfold execCtxResume
  repeat' (first
    | with_reducible intro _
    | with_reducible apply Only.refl
    | with_reducible assumption
    | with_reducible apply OnlyNext.next
    | with_reducible apply OnlySum.inl
    | with_reducible apply OnlySum.inr
    | with_reducible apply Only.after (ctxAction_only ..)
    | with_reducible apply Only.step (choose_only ..)
    | with_reducible apply Only.step (State.writeCtx_only ..)
    | decide
    | fail_if_no_progress extract_lets
    | split
    | dsimp +zetaDelta only [id])

theorem execCtxDestroy_only (a0 : Requester) (a1 : Fin 64) (a2 : Fin 256) (s : State) :
    OnlyNext 73430538 s (execCtxDestroy a0 a1 a2 s) := by
  unfold execCtxDestroy
  repeat' (first
    | with_reducible intro _
    | with_reducible apply Only.refl
    | with_reducible assumption
    | with_reducible apply OnlyNext.next
    | with_reducible apply OnlySum.inl
    | with_reducible apply OnlySum.inr
    | with_reducible apply Only.after (ctxAction_only ..)
    | with_reducible apply Only.step (choose_only ..)
    | with_reducible apply Only.step (endContext_only ..)
    | decide
    | split
    | dsimp +zetaDelta only [id])

theorem execSliceEnd_only (a0 : Fin 64) (a1 : Fin 256) (s : State) :
    OnlyNext 73426442 s (execSliceEnd a0 a1 s) := by
  unfold execSliceEnd
  repeat' (first
    | with_reducible intro _
    | with_reducible apply Only.refl
    | with_reducible assumption
    | with_reducible apply OnlyNext.next
    | with_reducible apply Only.step (accountCtx_only ..)
    | with_reducible apply Only.step (choose_only ..)
    | with_reducible apply Only.step (State.setCtx_only ..)
    | decide
    | fail_if_no_progress extract_lets
    | split
    | dsimp +zetaDelta only [id])

theorem execContextStart_only (a0 : Fin 64) (a1 : Fin 256) (s : State) :
    OnlyNext 73426442 s (execContextStart a0 a1 s) := by
  unfold execContextStart
  repeat' (first
    | with_reducible intro _
    | with_reducible apply Only.refl
    | with_reducible assumption
    | with_reducible apply OnlyNext.next
    | with_reducible apply Only.after (State.each_only ..)
    | with_reducible apply Only.step (clearRegs_only ..)
    | with_reducible apply Only.step (State.setCore_only ..)
    | with_reducible apply Only.step (State.writeCtx_only ..)
    | with_reducible apply each_only
    | decide
    | fail_if_no_progress extract_lets
    | split
    | dsimp +zetaDelta only [id])

theorem loadImage_only (a0 : Nat) (a1 : Nat) (a2 : Nat) (s : State) :
    Only 6308878 s (loadImage a0 a1 a2 s) := by
  unfold loadImage
  repeat' (first
    | with_reducible intro _
    | with_reducible apply Only.refl
    | with_reducible assumption
    | with_reducible apply Only.after (State.each_only ..)
    | with_reducible apply Only.step (State.partTouch_only ..)
    | with_reducible apply Only.step (State.store_only ..)
    | with_reducible apply setRegion_wf
    | with_reducible apply writeBytes_wf
    | with_reducible apply spoilBytes_wf
    | with_reducible apply delFlips_wf
    | with_reducible apply wf_put_flips
    | with_reducible apply wf_del_flips
    | with_reducible apply memory_wf
    | with_reducible apply wf_spad
    | with_reducible apply wf_of_spad
    | with_reducible apply wf_imem
    | with_reducible apply wf_of_imem
    | with_reducible apply wf_dmem
    | with_reducible apply wf_of_dmem
    | with_reducible apply wf_simem
    | with_reducible apply wf_of_simem
    | with_reducible apply wf_hbm
    | with_reducible apply wf_of_hbm
    | with_reducible apply wf_buf
    | with_reducible apply wf_of_buf
    | with_reducible apply wf_tags
    | with_reducible apply wf_of_tags
    | with_reducible apply wf_bulk
    | with_reducible apply wf_of_bulk
    | with_reducible apply wf_empty
    | with_reducible apply wf_filter_cells
    | with_reducible apply forgetRange_wf
    | with_reducible apply foldl_wf
    | with_reducible apply spoilWord_wf
    | with_reducible apply each_only
    | decide
    | fail_if_no_progress extract_lets
    | split
    | with_reducible apply Only.upd_mem
    | dsimp +zetaDelta only [id])

theorem restoreSpad_only (a0 : Nat) (a1 : SavedCore) (s : State) :
    Only 2097152 s (restoreSpad a0 a1 s) := by
  unfold restoreSpad
  repeat' (first
    | with_reducible intro _
    | with_reducible apply Only.refl
    | with_reducible assumption
    | with_reducible apply setRegion_wf
    | with_reducible apply writeBytes_wf
    | with_reducible apply spoilBytes_wf
    | with_reducible apply delFlips_wf
    | with_reducible apply wf_put_flips
    | with_reducible apply wf_del_flips
    | with_reducible apply memory_wf
    | with_reducible apply wf_spad
    | with_reducible apply wf_of_spad
    | with_reducible apply wf_imem
    | with_reducible apply wf_of_imem
    | with_reducible apply wf_dmem
    | with_reducible apply wf_of_dmem
    | with_reducible apply wf_simem
    | with_reducible apply wf_of_simem
    | with_reducible apply wf_hbm
    | with_reducible apply wf_of_hbm
    | with_reducible apply wf_buf
    | with_reducible apply wf_of_buf
    | with_reducible apply wf_tags
    | with_reducible apply wf_of_tags
    | with_reducible apply wf_bulk
    | with_reducible apply wf_of_bulk
    | with_reducible apply wf_empty
    | with_reducible apply wf_filter_cells
    | with_reducible apply forgetRange_wf
    | with_reducible apply foldl_wf
    | with_reducible apply spoilWord_wf
    | with_reducible apply foldl_only
    | with_reducible apply foldl_pair_only
    | decide
    | fail_if_no_progress extract_lets
    | with_reducible apply wf_mk
    | with_reducible apply wf_cells
    | with_reducible apply wf_flips
    | with_reducible apply wf_flips_set
    | with_reducible apply all_filter
    | with_reducible apply tabSorted_filter
    | with_reducible apply foldl_set_wf
    | with_reducible apply Only.upd_mem
    | dsimp +zetaDelta only [id])

theorem firstStart_only (a0 : Nat) (a1 : Nat) (a2 : Ctx) (s : State) :
    Only 6309390 s (firstStart a0 a1 a2 s) := by
  unfold firstStart
  repeat' (first
    | with_reducible intro _
    | with_reducible apply Only.refl
    | with_reducible assumption
    | with_reducible apply Only.step (clearRegs_only ..)
    | with_reducible apply Only.step (State.setCore_only ..)
    | with_reducible apply Only.step (State.setReg_only ..)
    | with_reducible apply Only.after (State.each_only ..)
    | with_reducible apply Only.step (settleGap_only ..)
    | with_reducible apply Only.step (loadImage_only ..)
    | with_reducible apply each_only
    | decide
    | fail_if_no_progress extract_lets
    | dsimp +zetaDelta only [id])

theorem restoreCore_only (a0 : Nat) (a1 : Nat) (a2 : Ctx) (a3 : SavedCore) (s : State) :
    Only 6309390 s (restoreCore a0 a1 a2 a3 s) := by
  unfold restoreCore
  repeat' (first
    | with_reducible intro _
    | with_reducible apply Only.refl
    | with_reducible assumption
    | with_reducible apply Only.step (loadRegs_only ..)
    | with_reducible apply Only.step (State.setCore_only ..)
    | with_reducible apply Only.step (settleGap_only ..)
    | with_reducible apply Only.step (loadImage_only ..)
    | with_reducible apply Only.step (restoreSpad_only ..)
    | decide
    | fail_if_no_progress extract_lets
    | split
    | dsimp +zetaDelta only [id])

theorem execContextRestoreDone_only (a0 : Fin 160) (s : State) :
    OnlyNext 73430542 s (execContextRestoreDone a0 s) := by
  unfold execContextRestoreDone
  repeat' (first
    | with_reducible intro _
    | with_reducible apply Only.refl
    | with_reducible assumption
    | with_reducible apply OnlyNext.next
    | with_reducible apply Only.step (firstStart_only ..)
    | with_reducible apply Only.step (choose_only ..)
    | with_reducible apply Only.step (endContext_only ..)
    | with_reducible apply Only.step (State.raise_only ..)
    | with_reducible apply Only.step (State.error_only ..)
    | with_reducible apply Only.step (restoreCore_only ..)
    | with_reducible apply Only.step (State.writeCtx_only ..)
    | with_reducible apply Only.step (State.setCtx_only ..)
    | decide
    | fail_if_no_progress extract_lets
    | split
    | dsimp +zetaDelta only [id])

end Sys2Proof.Machine
end

