-- ==== Sys2Proof/Laws/OnlyHostBase.lean ====
section
/-! SUPPORT. What each operation of Machine/HostBase.lean may touch: one lemma per operation, in the form of Laws/Only.lean. -/

namespace Sys2Proof.Machine

set_option linter.unusedTactic false
set_option linter.unreachableTactic false
set_option linter.unusedVariables false

theorem State.setSq_only (s : State) (a1 : SqRef) (a2 : SqState) :
    Only 4194304 s (State.setSq s a1 a2) := by
  unfold State.setSq
  repeat' (first
    | with_reducible intro _
    | with_reducible apply Only.refl
    | with_reducible assumption
    | decide
    | with_reducible apply Only.upd_host
    | dsimp +zetaDelta only [id])

theorem State.setCq_only (s : State) (a1 : CqRef) (a2 : CqState) :
    Only 4194304 s (State.setCq s a1 a2) := by
  unfold State.setCq
  repeat' (first
    | with_reducible intro _
    | with_reducible apply Only.refl
    | with_reducible assumption
    | decide
    | with_reducible apply Only.upd_host
    | dsimp +zetaDelta only [id])

theorem formCompletion_only (a0 : CqRef) (a1 : CqEntry) (s : State) :
    Only 4718592 s (formCompletion a0 a1 s) := by
  unfold formCompletion
  repeat' (first
    | with_reducible intro _
    | with_reducible apply Only.refl
    | with_reducible assumption
    | with_reducible apply Only.step (State.setCq_only ..)
    | with_reducible apply Only.step (noteOutput_only ..)
    | decide
    | fail_if_no_progress extract_lets
    | split
    | dsimp +zetaDelta only [id])

theorem postCompletion_only (a0 : Cmd) (a1 : Nat) (a2 : BitVec 128) (s : State) :
    Only 4718594 s (postCompletion a0 a1 a2 s) := by
  unfold postCompletion
  repeat' (first
    | with_reducible intro _
    | with_reducible apply Only.refl
    | with_reducible assumption
    | with_reducible apply Only.step (State.emit_only ..)
    | with_reducible apply Only.step (formCompletion_only ..)
    | decide
    | split
    | dsimp +zetaDelta only [id])

theorem complete_only (a0 : Cmd) (a1 : Nat) (a2 : (BitVec 128)) (s : State) :
    Only 4718594 s (complete a0 a1 a2 s) := by
  unfold complete
  repeat' (first
    | with_reducible intro _
    | with_reducible apply Only.refl
    | with_reducible assumption
    | with_reducible apply Only.step (postCompletion_only ..)
    | decide
    | with_reducible apply Only.upd_host
    | dsimp +zetaDelta only [id])

theorem recordCmd_only (a0 : Cmd) (a1 : List Byte) (s : State) :
    Only 73417738 s (recordCmd a0 a1 s) := by
  unfold recordCmd
  repeat' (first
    | with_reducible intro _
    | with_reducible apply Only.refl
    | with_reducible assumption
    | with_reducible apply Only.step (putEntry_only ..)
    | decide
    | split
    | dsimp +zetaDelta only [id])

theorem startCmd_only {m : Nat} (a0 : CmdRef) (a1 : List Nat) (a2 : Bool) (a3 : Cmd → State → State) (s : State) (w : m ||| 73942026 = m) (h3 : ∀ x0 u, Only m u (a3 x0 u)) :
    Only m s (startCmd a0 a1 a2 a3 s) := by
  unfold startCmd
  repeat' (first
    | with_reducible intro _
    | with_reducible apply Only.refl
    | with_reducible assumption
    | with_reducible apply Only.step (complete_only ..)
    | with_reducible apply Only.step (recordCmd_only ..)
    | with_reducible apply Only.after (h3 ..)
    | with_reducible exact sub_of w (by decide)
    | with_reducible exact bit_of w (by decide)
    | decide
    | split
    | dsimp +zetaDelta only [id])

theorem touchData_only (a0 : Cmd) (a1 : Nat) (s : State) :
    Only 6308878 s (touchData a0 a1 s) := by
  unfold touchData
  repeat' (first
    | with_reducible intro _
    | with_reducible apply Only.refl
    | with_reducible assumption
    | with_reducible apply Only.step (State.partTouch_only ..)
    | decide
    | split
    | dsimp +zetaDelta only [id])

theorem withData_only {m : Nat} (a0 : Cmd) (a1 : HostData) (a2 : Nat) (a3 : List Byte → State → State) (s : State) (w : m ||| 73942030 = m) (h3 : ∀ x0 u, Only m u (a3 x0 u)) :
    Only m s (withData a0 a1 a2 a3 s) := by
  unfold withData
  repeat' (first
    | with_reducible intro _
    | with_reducible apply Only.refl
    | with_reducible assumption
    | with_reducible apply Only.step (touchData_only ..)
    | with_reducible apply Only.step (recordCmd_only ..)
    | with_reducible apply Only.step (complete_only ..)
    | with_reducible apply Only.after (h3 ..)
    | with_reducible exact sub_of w (by decide)
    | with_reducible exact bit_of w (by decide)
    | decide
    | fail_if_no_progress extract_lets
    | split
    | dsimp +zetaDelta only [id])

theorem startLong_only (a0 : Cmd) (a1 : Nat) (a2 : List Byte) (s : State) (a4 : Nat) (a5 : Nat) (a6 : Nat) :
    Only 4194304 s (startLong a0 a1 a2 s a4 a5 a6) := by
  unfold startLong
  repeat' (first
    | with_reducible intro _
    | with_reducible apply Only.refl
    | with_reducible assumption
    | decide
    | fail_if_no_progress extract_lets
    | split
    | with_reducible apply Only.upd_host
    | dsimp +zetaDelta only [id])

theorem markStarted_only (a0 : Cmd) (s : State) :
    Only 4194304 s (markStarted a0 s) := by
  unfold markStarted
  repeat' (first
    | with_reducible intro _
    | with_reducible apply Only.refl
    | with_reducible assumption
    | decide
    | split
    | with_reducible apply Only.upd_host
    | dsimp +zetaDelta only [id])

theorem setLong_only (a0 : LongOp) (s : State) :
    Only 4194304 s (setLong a0 s) := by
  unfold setLong
  repeat' (first
    | with_reducible intro _
    | with_reducible apply Only.refl
    | with_reducible assumption
    | decide
    | split
    | with_reducible apply Only.upd_host
    | dsimp +zetaDelta only [id])

theorem endLong_only (a0 : LongOp) (a1 : Nat) (s : State) :
    Only 4718594 s (endLong a0 a1 s) := by
  unfold endLong
  repeat' (first
    | with_reducible intro _
    | with_reducible apply Only.refl
    | with_reducible assumption
    | with_reducible apply Only.step (complete_only ..)
    | decide
    | with_reducible apply Only.upd_host
    | dsimp +zetaDelta only [id])

theorem logDirty_only (a0 : Nat) (a1 : Nat) (a2 : Nat) (s : State) :
    Only 2 s (logDirty a0 a1 a2 s) := by
  unfold logDirty
  repeat' (first
    | with_reducible intro _
    | with_reducible apply Only.refl
    | with_reducible assumption
    | with_reducible apply Only.after (State.each_only ..)
    | with_reducible apply Only.step (State.emit_only ..)
    | with_reducible apply each_only
    | decide
    | fail_if_no_progress extract_lets
    | split
    | dsimp +zetaDelta only [id])

theorem hostWrite_only (a0 : Nat) (a1 : Nat) (a2 : List Byte) (s : State) :
    Only 2 s (hostWrite a0 a1 a2 s) := by
  unfold hostWrite
  repeat' (first
    | with_reducible intro _
    | with_reducible apply Only.refl
    | with_reducible assumption
    | with_reducible apply Only.step (State.emit_only ..)
    | with_reducible apply Only.step (logDirty_only ..)
    | decide
    | dsimp +zetaDelta only [id])

theorem hostWriteFor_only (a0 : Option Nat) (a1 : Nat) (a2 : List Byte) (s : State) :
    Only 2 s (hostWriteFor a0 a1 a2 s) := by
  unfold hostWriteFor
  repeat' (first
    | with_reducible intro _
    | with_reducible apply Only.refl
    | with_reducible assumption
    | with_reducible apply Only.step (hostWrite_only ..)
    | with_reducible apply Only.step (State.emit_only ..)
    | decide
    | split
    | dsimp +zetaDelta only [id])

theorem writeData_only (a0 : Cmd) (a1 : List Byte) (s : State) :
    Only 73417738 s (writeData a0 a1 s) := by
  unfold writeData
  repeat' (first
    | with_reducible intro _
    | with_reducible apply Only.refl
    | with_reducible assumption
    | with_reducible apply Only.step (State.partWrite_only ..)
    | with_reducible apply Only.step (hostWrite_only ..)
    | decide
    | split
    | dsimp +zetaDelta only [id])

theorem writeProgress_only (a0 : LongOp) (s : State) :
    Only 2 s (writeProgress a0 s) := by
  unfold writeProgress
  repeat' (first
    | with_reducible intro _
    | with_reducible apply Only.refl
    | with_reducible assumption
    | with_reducible apply Only.step (hostWrite_only ..)
    | decide
    | split
    | dsimp +zetaDelta only [id])

theorem chunkDone_only (a0 : LongOp) (a1 : Nat) (s : State) :
    Only 4718594 s (chunkDone a0 a1 s) := by
  unfold chunkDone
  repeat' (first
    | with_reducible intro _
    | with_reducible apply Only.refl
    | with_reducible assumption
    | with_reducible apply Only.step (writeProgress_only ..)
    | with_reducible apply Only.step (endLong_only ..)
    | with_reducible apply Only.step (formCompletion_only ..)
    | with_reducible apply Only.step (setLong_only ..)
    | decide
    | fail_if_no_progress extract_lets
    | split
    | dsimp +zetaDelta only [id])

end Sys2Proof.Machine
end

