-- ==== Sys2Proof/Laws/OnlyQueues.lean ====
section
/-! SUPPORT. What each operation of Machine/Queues.lean may touch: one lemma per operation, in the form of Laws/Only.lean. -/

namespace Sys2Proof.Machine

set_option linter.unusedTactic false
set_option linter.unreachableTactic false
set_option linter.unusedVariables false

theorem doorbellFault_only (a0 : Nat) (s : State) :
    Only 4194314 s (doorbellFault a0 s) := by
  unfold doorbellFault
  repeat' (first
    | with_reducible intro _
    | with_reducible apply Only.refl
    | with_reducible assumption
    | with_reducible apply Only.step (State.error_only ..)
    | with_reducible apply Only.step (State.bump_only ..)
    | decide
    | dsimp +zetaDelta only [id])

theorem ring_only {m : Nat} (a0 : Nat) (a1 : SqRef) (a2 : Bool) (a3 : SqState → State → State) (s : State) (w : m ||| 4194314 = m) (h3 : ∀ x0 u, Only m u (a3 x0 u)) :
    Only m s (ring a0 a1 a2 a3 s) := by
  unfold ring
  repeat' (first
    | with_reducible intro _
    | with_reducible apply Only.refl
    | with_reducible assumption
    | with_reducible apply Only.step (doorbellFault_only ..)
    | with_reducible apply Only.after (writeAccess_only ..)
    | with_reducible apply Only.step (State.emit_only ..)
    | with_reducible apply Only.step (State.bump_only ..)
    | with_reducible apply Only.after (h3 ..)
    | with_reducible exact sub_of w (by decide)
    | with_reducible exact bit_of w (by decide)
    | decide
    | fail_if_no_progress extract_lets
    | split
    | dsimp +zetaDelta only [id])

theorem execSqTailDoorbell_only (a0 : Fin 256) (a1 : SqRef) (a2 : BitVec 32) (a3 : Bool) (s : State) :
    OnlyNext 4194314 s (execSqTailDoorbell a0 a1 a2 a3 s) := by
  unfold execSqTailDoorbell
  repeat' (first
    | with_reducible intro _
    | with_reducible apply Only.refl
    | with_reducible assumption
    | with_reducible apply OnlyNext.next
    | with_reducible apply Only.after (ring_only ..)
    | with_reducible apply Only.step (doorbellFault_only ..)
    | with_reducible apply Only.step (State.setSq_only ..)
    | decide
    | fail_if_no_progress extract_lets
    | split
    | dsimp +zetaDelta only [id])

theorem execCqHeadDoorbell_only (a0 : Fin 256) (a1 : SqRef) (a2 : BitVec 32) (a3 : Bool) (s : State) :
    OnlyNext 4194314 s (execCqHeadDoorbell a0 a1 a2 a3 s) := by
  unfold execCqHeadDoorbell
  repeat' (first
    | with_reducible intro _
    | with_reducible apply Only.refl
    | with_reducible assumption
    | with_reducible apply OnlyNext.next
    | with_reducible apply Only.after (ring_only ..)
    | with_reducible apply Only.step (doorbellFault_only ..)
    | with_reducible apply Only.step (State.setCq_only ..)
    | decide
    | fail_if_no_progress extract_lets
    | split
    | dsimp +zetaDelta only [id])

theorem dispatchCmd_only (a0 : Cmd) (a1 : Option Nat) (s : State) :
    Only 73942026 s (dispatchCmd a0 a1 s) := by
  unfold dispatchCmd
  repeat' (first
    | with_reducible intro _
    | with_reducible apply Only.refl
    | with_reducible assumption
    | with_reducible apply Only.step (postCompletion_only ..)
    | with_reducible apply Only.step (recordCmd_only ..)
    | decide
    | split
    | with_reducible apply Only.upd_host
    | dsimp +zetaDelta only [id])

theorem fetchFrom_only (a0 : SqRef) (a1 : SqState) (a2 : BitVec 512) (s : State) :
    Only 73942026 s (fetchFrom a0 a1 a2 s) := by
  unfold fetchFrom
  repeat' (first
    | with_reducible intro _
    | with_reducible apply Only.refl
    | with_reducible assumption
    | with_reducible apply Only.step (State.addReg_only ..)
    | with_reducible apply Only.step (State.setSq_only ..)
    | with_reducible apply Only.step (holdInput_only ..)
    | with_reducible apply Only.step (dispatchCmd_only ..)
    | with_reducible apply Only.step (postCompletion_only ..)
    | with_reducible apply Only.step (State.emit_only ..)
    | decide
    | fail_if_no_progress extract_lets
    | split
    | with_reducible apply Only.upd_host
    | dsimp +zetaDelta only [id])

theorem execSqEntryFetch_only (a0 : Bool) (a1 : BitVec 512) (s : State) :
    OnlyNext 73942026 s (execSqEntryFetch a0 a1 s) := by
  unfold execSqEntryFetch
  repeat' (first
    | with_reducible intro _
    | with_reducible apply Only.refl
    | with_reducible assumption
    | with_reducible apply OnlyNext.next
    | with_reducible apply Only.step (fetchFrom_only ..)
    | decide
    | split
    | with_reducible apply Only.upd_host
    | dsimp +zetaDelta only [id])

theorem execNop_only (a0 : CmdRef) (s : State) :
    OnlyNext 73942026 s (execNop a0 s) := by
  unfold execNop
  repeat' (first
    | with_reducible intro _
    | with_reducible apply Only.refl
    | with_reducible assumption
    | with_reducible apply OnlyNext.next
    | with_reducible apply Only.after (startCmd_only ..)
    | with_reducible apply Only.step (complete_only ..)
    | decide
    | dsimp +zetaDelta only [id])

theorem execCancel_only (a0 : CmdRef) (a1 : Bool) (s : State) :
    OnlyNext 73942026 s (execCancel a0 a1 s) := by
  unfold execCancel
  repeat' (first
    | with_reducible intro _
    | with_reducible apply Only.refl
    | with_reducible assumption
    | with_reducible apply OnlyNext.next
    | with_reducible apply Only.after (startCmd_only ..)
    | with_reducible apply Only.step (complete_only ..)
    | with_reducible apply Only.step (setLong_only ..)
    | decide
    | fail_if_no_progress extract_lets
    | split
    | dsimp +zetaDelta only [id])

theorem execCreateSq_only (a0 : CmdRef) (s : State) :
    OnlyNext 73942026 s (execCreateSq a0 s) := by
  unfold execCreateSq
  repeat' (first
    | with_reducible intro _
    | with_reducible apply Only.refl
    | with_reducible assumption
    | with_reducible apply OnlyNext.next
    | with_reducible apply Only.after (startCmd_only ..)
    | with_reducible apply Only.step (complete_only ..)
    | with_reducible apply Only.step (State.setSq_only ..)
    | decide
    | fail_if_no_progress extract_lets
    | split
    | dsimp +zetaDelta only [id])

theorem execCreateCq_only (a0 : CmdRef) (s : State) :
    OnlyNext 73942026 s (execCreateCq a0 s) := by
  unfold execCreateCq
  repeat' (first
    | with_reducible intro _
    | with_reducible apply Only.refl
    | with_reducible assumption
    | with_reducible apply OnlyNext.next
    | with_reducible apply Only.after (startCmd_only ..)
    | with_reducible apply Only.step (complete_only ..)
    | with_reducible apply Only.step (State.setCq_only ..)
    | decide
    | fail_if_no_progress extract_lets
    | split
    | dsimp +zetaDelta only [id])

theorem deleteSqState_only (a0 : SqRef) (s : State) :
    Only 4194304 s (deleteSqState a0 s) := by
  unfold deleteSqState
  repeat' (first
    | with_reducible intro _
    | with_reducible apply Only.refl
    | with_reducible assumption
    | decide
    | split
    | with_reducible apply Only.upd_host
    | dsimp +zetaDelta only [id])

theorem deleteCqState_only (a0 : CqRef) (s : State) :
    Only 4194304 s (deleteCqState a0 s) := by
  unfold deleteCqState
  repeat' (first
    | with_reducible intro _
    | with_reducible apply Only.refl
    | with_reducible assumption
    | decide
    | with_reducible apply Only.upd_host
    | dsimp +zetaDelta only [id])

theorem execDeleteSq_only (a0 : CmdRef) (s : State) :
    OnlyNext 73942026 s (execDeleteSq a0 s) := by
  unfold execDeleteSq
  repeat' (first
    | with_reducible intro _
    | with_reducible apply Only.refl
    | with_reducible assumption
    | with_reducible apply OnlyNext.next
    | with_reducible apply Only.after (startCmd_only ..)
    | with_reducible apply Only.step (complete_only ..)
    | with_reducible apply Only.step (deleteSqState_only ..)
    | decide
    | fail_if_no_progress extract_lets
    | split
    | dsimp +zetaDelta only [id])

theorem signalCq_only (a0 : CqRef) (a1 : CqState) (s : State) :
    Only 4194306 s (signalCq a0 a1 s) := by
  unfold signalCq
  repeat' (first
    | with_reducible intro _
    | with_reducible apply Only.refl
    | with_reducible assumption
    | with_reducible apply Only.step (State.signal_only ..)
    | with_reducible apply Only.step (State.setCq_only ..)
    | decide
    | dsimp +zetaDelta only [id])

theorem writeEntry_only (a0 : CqRef) (a1 : CqState) (a2 : CqEntry) (s : State) :
    Only 4194306 s (writeEntry a0 a1 a2 s) := by
  unfold writeEntry
  repeat' (first
    | with_reducible intro _
    | with_reducible apply Only.refl
    | with_reducible assumption
    | with_reducible apply Only.step (logDirty_only ..)
    | with_reducible apply Only.step (State.emit_only ..)
    | with_reducible apply Only.step (signalCq_only ..)
    | with_reducible apply Only.step (State.setCq_only ..)
    | decide
    | fail_if_no_progress extract_lets
    | split
    | dsimp +zetaDelta only [id])

theorem execCompletionWrite_only (a0 : CqRef) (a1 : Bool) (s : State) :
    OnlyNext 4194314 s (execCompletionWrite a0 a1 s) := by
  unfold execCompletionWrite
  repeat' (first
    | with_reducible intro _
    | with_reducible apply Only.refl
    | with_reducible assumption
    | with_reducible apply OnlyNext.next
    | with_reducible apply Only.step (State.error_only ..)
    | with_reducible apply Only.step (State.setCq_only ..)
    | with_reducible apply Only.step (writeEntry_only ..)
    | decide
    | split
    | dsimp +zetaDelta only [id])

theorem execCqCoalesceTimer_only (a0 : CqRef) (s : State) :
    OnlyNext 4194306 s (execCqCoalesceTimer a0 s) := by
  unfold execCqCoalesceTimer
  repeat' (first
    | with_reducible intro _
    | with_reducible apply Only.refl
    | with_reducible assumption
    | with_reducible apply OnlyNext.next
    | with_reducible apply Only.step (signalCq_only ..)
    | decide
    | split
    | dsimp +zetaDelta only [id])

theorem sendPending_only (s : State) :
    Only 4194306 s (sendPending s) := by
  unfold sendPending
  repeat' (first
    | with_reducible intro _
    | with_reducible apply Only.refl
    | with_reducible assumption
    | with_reducible apply List.prefix_append
    | with_reducible apply List.prefix_refl
    | decide
    | fail_if_no_progress extract_lets
    | with_reducible apply Only.upd_out_host
    | dsimp +zetaDelta only [id])

theorem execMsixVectorUnmask_only (a0 : Fin 256) (a1 : Fin 4096) (s : State) :
    OnlyNext 4194306 s (execMsixVectorUnmask a0 a1 s) := by
  unfold execMsixVectorUnmask
  repeat' (first
    | with_reducible intro _
    | with_reducible apply Only.refl
    | with_reducible assumption
    | with_reducible apply OnlyNext.next
    | with_reducible apply Only.step (sendPending_only ..)
    | decide
    | fail_if_no_progress extract_lets
    | split
    | with_reducible apply Only.upd_host
    | dsimp +zetaDelta only [id])

theorem execAdminQueueEnable_only (a0 : Requester) (a1 : Bool) (s : State) :
    OnlyNext 4194314 s (execAdminQueueEnable a0 a1 s) := by
  unfold execAdminQueueEnable
  repeat' (first
    | with_reducible intro _
    | with_reducible apply Only.refl
    | with_reducible assumption
    | with_reducible apply OnlyNext.next
    | with_reducible apply Only.after (writeAccess_only ..)
    | with_reducible apply Only.step (State.setReg_only ..)
    | with_reducible apply Only.step (deleteCqState_only ..)
    | with_reducible apply Only.step (deleteSqState_only ..)
    | with_reducible apply Only.step (State.setCq_only ..)
    | with_reducible apply Only.step (State.setSq_only ..)
    | decide
    | fail_if_no_progress extract_lets
    | split
    | dsimp +zetaDelta only [id])

end Sys2Proof.Machine
end

