-- ==== Sys2Proof/Laws/OnlyHostIface.lean ====
section
/-! SUPPORT. What each operation of Machine/HostIface.lean may touch: one lemma per operation, in the form of Laws/Only.lean. -/

namespace Sys2Proof.Machine

set_option linter.unusedTactic false
set_option linter.unreachableTactic false
set_option linter.unusedVariables false

theorem execPcieLinkDown_only (s : State) :
    OnlyNext 4194314 s (execPcieLinkDown s) := by
  unfold execPcieLinkDown
  repeat' (first
    | with_reducible intro _
    | with_reducible apply Only.refl
    | with_reducible assumption
    | with_reducible apply OnlyNext.next
    | with_reducible apply Only.step (State.raise_only ..)
    | with_reducible apply Only.step (State.setReg_only ..)
    | decide
    | split
    | with_reducible apply Only.upd_host
    | dsimp +zetaDelta only [id])

theorem execPcieLinkUp_only (a0 : Fin 4) (a1 : Fin 17) (a2 : Bool) (s : State) :
    OnlyNext 4194314 s (execPcieLinkUp a0 a1 a2 s) := by
  unfold execPcieLinkUp
  repeat' (first
    | with_reducible intro _
    | with_reducible apply Only.refl
    | with_reducible assumption
    | with_reducible apply OnlyNext.next
    | with_reducible apply Only.step (State.setReg_only ..)
    | with_reducible apply Only.step (sendPending_only ..)
    | with_reducible apply Only.after (State.each_only ..)
    | with_reducible apply Only.step (writeProgress_only ..)
    | with_reducible apply Only.step (State.raiseBits_only ..)
    | with_reducible apply each_only
    | decide
    | fail_if_no_progress extract_lets
    | split
    | with_reducible apply Only.upd_host
    | dsimp +zetaDelta only [id])

theorem execPcieConfigRequest_only (a0 : Fin 256) (a1 : Nat) (s : State) :
    OnlyNext 2 s (execPcieConfigRequest a0 a1 s) := by
  unfold execPcieConfigRequest
  repeat' (first
    | with_reducible intro _
    | with_reducible apply Only.refl
    | with_reducible assumption
    | with_reducible apply OnlyNext.next
    | with_reducible apply Only.step (State.emit_only ..)
    | decide
    | split
    | dsimp +zetaDelta only [id])

theorem winFault_only (a0 : Nat) (a1 : Nat) (s : State) :
    Only 4194314 s (winFault a0 a1 s) := by
  unfold winFault
  repeat' (first
    | with_reducible intro _
    | with_reducible apply Only.refl
    | with_reducible assumption
    | with_reducible apply Only.step (State.error_only ..)
    | with_reducible apply Only.step (State.bump_only ..)
    | decide
    | dsimp +zetaDelta only [id])

theorem execWindowRead_only (a0 : Fin 256) (a1 : Nat) (a2 : Nat) (a3 : Bool) (s : State) :
    OnlyNext 6308878 s (execWindowRead a0 a1 a2 a3 s) := by
  unfold execWindowRead
  repeat' (first
    | with_reducible intro _
    | with_reducible apply Only.refl
    | with_reducible assumption
    | with_reducible apply OnlyNext.next
    | with_reducible apply Only.step (State.emit_only ..)
    | with_reducible apply Only.step (winFault_only ..)
    | with_reducible apply Only.step (State.faultTouch_only ..)
    | with_reducible apply Only.step (State.partTouch_only ..)
    | decide
    | fail_if_no_progress extract_lets
    | split
    | dsimp +zetaDelta only [id])

theorem msixWrite_only (a0 : Nat) (a1 : Nat) (a2 : Byte) (s : State) :
    Only 4194304 s (msixWrite a0 a1 a2 s) := by
  unfold msixWrite
  repeat' (first
    | with_reducible intro _
    | with_reducible apply Only.refl
    | with_reducible assumption
    | decide
    | split
    | with_reducible apply Only.upd_host
    | dsimp +zetaDelta only [id])

theorem execWindowWrite_only (a0 : Fin 256) (a1 : Nat) (a2 : List Byte) (a3 : Bool) (s : State) :
    OnlyNext 73942026 s (execWindowWrite a0 a1 a2 a3 s) := by
  unfold execWindowWrite
  repeat' (first
    | with_reducible intro _
    | with_reducible apply Only.refl
    | with_reducible assumption
    | with_reducible apply OnlyNext.next
    | with_reducible apply Only.step (State.emit_only ..)
    | with_reducible apply Only.step (sendPending_only ..)
    | with_reducible apply Only.after (State.each_only ..)
    | with_reducible apply Only.step (msixWrite_only ..)
    | with_reducible apply Only.step (winFault_only ..)
    | with_reducible apply Only.step (holdInput_only ..)
    | with_reducible apply Only.step (State.partStore_only ..)
    | with_reducible apply Only.step (State.faultTouch_only ..)
    | with_reducible apply each_only
    | decide
    | fail_if_no_progress extract_lets
    | split
    | dsimp +zetaDelta only [id])

theorem execWindowAtomic_only (a0 : Fin 256) (a1 : Nat) (a2 : WindowAtomicOp) (a3 : Bool) (a4 : BitVec 64) (a5 : BitVec 64) (a6 : Bool) (s : State) :
    OnlyNext 73417742 s (execWindowAtomic a0 a1 a2 a3 a4 a5 a6 s) := by
  unfold execWindowAtomic
  extract_lets f w a n t
  have ht : Only 73417742 s t := Only.step (State.partTouch_only ..) (by decide) (Only.refl _ _)
  clear_value t n a w f
  repeat' (first
    | with_reducible intro _
    | with_reducible apply Only.refl
    | with_reducible assumption
    | with_reducible apply OnlyNext.next
    | with_reducible apply Only.step (State.emit_only ..)
    | with_reducible apply Only.step (winFault_only ..)
    | with_reducible apply Only.step (State.faultTouch_only ..)
    | with_reducible apply Only.step (State.partTouch_only ..)
    | with_reducible apply Only.step (State.partStore_only ..)
    | decide
    | fail_if_no_progress extract_lets
    | split
    | dsimp +zetaDelta only [id])

theorem execRouteWrite_only (a0 : Requester) (a1 : BitVec 32) (s : State) :
    OnlyNext 4194318 s (execRouteWrite a0 a1 s) := by
  unfold execRouteWrite
  repeat' (first
    | with_reducible intro _
    | with_reducible apply Only.refl
    | with_reducible assumption
    | with_reducible apply OnlyNext.next
    | with_reducible apply Only.after (writeAccess_only ..)
    | with_reducible apply Only.step (State.usedFree_only ..)
    | with_reducible apply Only.step (State.error_only ..)
    | decide
    | fail_if_no_progress extract_lets
    | split
    | with_reducible apply Only.upd_host
    | dsimp +zetaDelta only [id])

theorem execAtsInvalidate_only (a0 : Fin 256) (a1 : Option (BitVec 20)) (a2 : BitVec 64) (a3 : BitVec 64) (s : State) :
    OnlyNext 10 s (execAtsInvalidate a0 a1 a2 a3 s) := by
  unfold execAtsInvalidate
  repeat' (first
    | with_reducible intro _
    | with_reducible apply Only.refl
    | with_reducible assumption
    | with_reducible apply OnlyNext.next
    | with_reducible apply Only.step (State.emit_only ..)
    | with_reducible apply Only.step (State.addReg_only ..)
    | decide
    | split
    | dsimp +zetaDelta only [id])

theorem execIdeKmRequest_only (a0 : Fin 9) (a1 : IdeKmMsg) (s : State) :
    OnlyNext 4194306 s (execIdeKmRequest a0 a1 s) := by
  unfold execIdeKmRequest
  repeat' (first
    | with_reducible intro _
    | with_reducible apply Only.refl
    | with_reducible assumption
    | with_reducible apply OnlyNext.next
    | with_reducible apply Only.step (State.emit_only ..)
    | decide
    | fail_if_no_progress extract_lets
    | split
    | with_reducible apply Only.upd_host
    | dsimp +zetaDelta only [id])

theorem execForwardedEntryArrive_only (a0 : Fin 1048576) (a1 : BitVec 512) (a2 : BitVec 12) (s : State) :
    OnlyNext 73942026 s (execForwardedEntryArrive a0 a1 a2 s) := by
  unfold execForwardedEntryArrive
  repeat' (first
    | with_reducible intro _
    | with_reducible apply Only.refl
    | with_reducible assumption
    | with_reducible apply OnlyNext.next
    | with_reducible apply Only.step (dispatchCmd_only ..)
    | decide
    | fail_if_no_progress extract_lets
    | split
    | dsimp +zetaDelta only [id])

theorem endForwarded_only (a0 : Forwarded) (a1 : Nat) (a2 : BitVec 128) (s : State) :
    Only 4718592 s (endForwarded a0 a1 a2 s) := by
  unfold endForwarded
  repeat' (first
    | with_reducible intro _
    | with_reducible apply Only.refl
    | with_reducible assumption
    | with_reducible apply Only.step (formCompletion_only ..)
    | decide
    | with_reducible apply Only.upd_host
    | dsimp +zetaDelta only [id])

theorem execMemberCompletionArrive_only (a0 : Fin 1048576) (a1 : BitVec 16) (a2 : BitVec 16) (a3 : BitVec 128) (s : State) :
    OnlyNext 4718592 s (execMemberCompletionArrive a0 a1 a2 a3 s) := by
  unfold execMemberCompletionArrive
  repeat' (first
    | with_reducible intro _
    | with_reducible apply Only.refl
    | with_reducible assumption
    | with_reducible apply OnlyNext.next
    | with_reducible apply Only.step (endForwarded_only ..)
    | decide
    | split
    | dsimp +zetaDelta only [id])

theorem execForwardTimeout_only (a0 : Fin 1048576) (a1 : BitVec 16) (s : State) :
    OnlyNext 4718592 s (execForwardTimeout a0 a1 s) := by
  unfold execForwardTimeout
  repeat' (first
    | with_reducible intro _
    | with_reducible apply Only.refl
    | with_reducible assumption
    | with_reducible apply OnlyNext.next
    | with_reducible apply Only.step (endForwarded_only ..)
    | decide
    | split
    | dsimp +zetaDelta only [id])

theorem execMemberRead_only (a0 : CmdRef) (a1 : BitVec 32) (a2 : Bool) (s : State) :
    OnlyNext 73942026 s (execMemberRead a0 a1 a2 s) := by
  unfold execMemberRead
  repeat' (first
    | with_reducible intro _
    | with_reducible apply Only.refl
    | with_reducible assumption
    | with_reducible apply OnlyNext.next
    | with_reducible apply Only.after (startCmd_only ..)
    | with_reducible apply Only.step (complete_only ..)
    | with_reducible apply Only.step (State.emit_only ..)
    | decide
    | split
    | dsimp +zetaDelta only [id])

theorem execMemberWrite_only (a0 : CmdRef) (a1 : Bool) (s : State) :
    OnlyNext 73942026 s (execMemberWrite a0 a1 s) := by
  unfold execMemberWrite
  repeat' (first
    | with_reducible intro _
    | with_reducible apply Only.refl
    | with_reducible assumption
    | with_reducible apply OnlyNext.next
    | with_reducible apply Only.after (startCmd_only ..)
    | with_reducible apply Only.step (complete_only ..)
    | with_reducible apply Only.step (State.emit_only ..)
    | decide
    | split
    | dsimp +zetaDelta only [id])

theorem execMemberEvent_only (a0 : Fin 64) (s : State) :
    OnlyNext 4194314 s (execMemberEvent a0 s) := by
  unfold execMemberEvent
  repeat' (first
    | with_reducible intro _
    | with_reducible apply Only.refl
    | with_reducible assumption
    | with_reducible apply OnlyNext.next
    | with_reducible apply Only.step (State.raise_only ..)
    | with_reducible apply Only.step (State.setReg_only ..)
    | decide
    | split
    | dsimp +zetaDelta only [id])

end Sys2Proof.Machine
end

