-- ==== Sys2Proof/Laws/OnlyObjects.lean ====
section
/-! SUPPORT. What each operation of Machine/Objects.lean may touch: one lemma per operation, in the form of Laws/Only.lean. -/

namespace Sys2Proof.Machine

set_option linter.unusedTactic false
set_option linter.unreachableTactic false
set_option linter.unusedVariables false

theorem forgetRange_wf {r : Region} {lo n : Nat} {m : Memory} (h : m.wf = true) : (forgetRange r lo n m).wf = true :=
  wf_mk (tabSorted_filter _ (wf_cells h)) (tabSorted_filter _ (wf_flips h)) (all_filter (wf_flips_set h))

theorem execMemoryRead_only (a0 : Fin 64) (a1 : BitVec 64) (a2 : CacheHint) (a3 : MemAgent) (s : State) :
    OnlyNext 6308878 s (execMemoryRead a0 a1 a2 a3 s) := by
  unfold execMemoryRead
  repeat' (first
    | with_reducible intro _
    | with_reducible apply Only.refl
    | with_reducible assumption
    | with_reducible apply OnlyNext.next
    | with_reducible apply Only.step (State.faultTouch_only ..)
    | with_reducible apply Only.step (State.partTouch_only ..)
    | with_reducible apply Only.step (State.emit_only ..)
    | decide
    | split
    | dsimp +zetaDelta only [id])

theorem execMemoryWrite_only (a0 : Fin 64) (a1 : BitVec 64) (a2 : List Byte) (a3 : MemAgent) (s : State) :
    OnlyNext 73417738 s (execMemoryWrite a0 a1 a2 a3 s) := by
  unfold execMemoryWrite
  repeat' (first
    | with_reducible intro _
    | with_reducible apply Only.refl
    | with_reducible assumption
    | with_reducible apply OnlyNext.next
    | with_reducible apply Only.step (State.partStore_only ..)
    | with_reducible apply Only.step (State.faultTouch_only ..)
    | decide
    | split
    | dsimp +zetaDelta only [id])

theorem bulkDown_only (a0 : Nat) (s : State) :
    Only 4210698 s (bulkDown a0 s) := by
  unfold bulkDown
  repeat' (first
    | with_reducible intro _
    | with_reducible apply Only.refl
    | with_reducible assumption
    | with_reducible apply Only.step (State.setReg_only ..)
    | with_reducible apply Only.step (State.raise_only ..)
    | decide
    | fail_if_no_progress extract_lets
    | split
    | with_reducible apply Only.upd_tier
    | dsimp +zetaDelta only [id])

theorem execBulkLinkDown_only (a0 : Fin 8) (s : State) :
    OnlyNext 4210698 s (execBulkLinkDown a0 s) := by
  unfold execBulkLinkDown
  repeat' (first
    | with_reducible intro _
    | with_reducible apply Only.refl
    | with_reducible assumption
    | with_reducible apply OnlyNext.next
    | with_reducible apply Only.step (bulkDown_only ..)
    | decide
    | split
    | dsimp +zetaDelta only [id])

theorem execBulkLinkUp_only (a0 : Fin 8) (a1 : Fin 4) (a2 : Fin 4) (s : State) :
    OnlyNext 8 s (execBulkLinkUp a0 a1 a2 s) := by
  unfold execBulkLinkUp
  repeat' (first
    | with_reducible intro _
    | with_reducible apply Only.refl
    | with_reducible assumption
    | with_reducible apply OnlyNext.next
    | with_reducible apply Only.step (State.setReg_only ..)
    | decide
    | fail_if_no_progress extract_lets
    | split
    | dsimp +zetaDelta only [id])

theorem execBufferWaysWrite_only (a0 : Requester) (a1 : Fin 4) (a2 : BitVec 32) (s : State) :
    OnlyNext 6307850 s (execBufferWaysWrite a0 a1 a2 s) := by
  unfold execBufferWaysWrite
  repeat' (first
    | with_reducible intro _
    | with_reducible apply Only.refl
    | with_reducible assumption
    | with_reducible apply OnlyNext.next
    | with_reducible apply Only.after (writeAccess_only ..)
    | with_reducible apply Only.step (State.error_only ..)
    | with_reducible apply Only.step (State.setReg_only ..)
    | with_reducible apply setRegion_wf
    | with_reducible apply writeBytes_wf
    | with_reducible apply spoilBytes_wf
    | with_reducible apply delFlips_wf
    | with_reducible apply wf_put_flips
    | with_reducible apply wf_del_flips
    | with_reducible apply memory_wf
    | with_reducible apply wf_spad
    | with_reducible apply wf_of_spad
    | with_reducible apply wf_imem
    | with_reducible apply wf_of_imem
    | with_reducible apply wf_dmem
    | with_reducible apply wf_of_dmem
    | with_reducible apply wf_simem
    | with_reducible apply wf_of_simem
    | with_reducible apply wf_hbm
    | with_reducible apply wf_of_hbm
    | with_reducible apply wf_buf
    | with_reducible apply wf_of_buf
    | with_reducible apply wf_tags
    | with_reducible apply wf_of_tags
    | with_reducible apply wf_bulk
    | with_reducible apply wf_of_bulk
    | with_reducible apply wf_empty
    | with_reducible apply wf_filter_cells
    | with_reducible apply forgetRange_wf
    | with_reducible apply foldl_wf
    | with_reducible apply spoilWord_wf
    | with_reducible apply foldl_only
    | with_reducible apply foldl_pair_only
    | decide
    | fail_if_no_progress extract_lets
    | split
    | with_reducible apply Only.upd_tier_mem
    | dsimp +zetaDelta only [id])

theorem clearFrame_only (a0 : Nat) (a1 : Nat) (s : State) :
    Only 2113536 s (clearFrame a0 a1 s) := by
  unfold clearFrame
  repeat' (first
    | with_reducible intro _
    | with_reducible apply Only.refl
    | with_reducible assumption
    | with_reducible apply setRegion_wf
    | with_reducible apply writeBytes_wf
    | with_reducible apply spoilBytes_wf
    | with_reducible apply delFlips_wf
    | with_reducible apply wf_put_flips
    | with_reducible apply wf_del_flips
    | with_reducible apply memory_wf
    | with_reducible apply wf_spad
    | with_reducible apply wf_of_spad
    | with_reducible apply wf_imem
    | with_reducible apply wf_of_imem
    | with_reducible apply wf_dmem
    | with_reducible apply wf_of_dmem
    | with_reducible apply wf_simem
    | with_reducible apply wf_of_simem
    | with_reducible apply wf_hbm
    | with_reducible apply wf_of_hbm
    | with_reducible apply wf_buf
    | with_reducible apply wf_of_buf
    | with_reducible apply wf_tags
    | with_reducible apply wf_of_tags
    | with_reducible apply wf_bulk
    | with_reducible apply wf_of_bulk
    | with_reducible apply wf_empty
    | with_reducible apply wf_filter_cells
    | with_reducible apply forgetRange_wf
    | with_reducible apply foldl_wf
    | with_reducible apply spoilWord_wf
    | decide
    | fail_if_no_progress extract_lets
    | split
    | with_reducible apply Only.upd_mem
    | with_reducible apply Only.upd_tier
    | dsimp +zetaDelta only [id])

theorem placeStructs_only (a0 : Nat) (s : State) :
    Only 6307850 s (placeStructs a0 s) := by
  unfold placeStructs
  repeat' (first
    | with_reducible intro _
    | with_reducible apply Only.refl
    | with_reducible assumption
    | with_reducible apply Only.after (State.each_only ..)
    | with_reducible apply Only.step (clearFrame_only ..)
    | with_reducible apply Only.step (structWrite_only ..)
    | with_reducible apply setRegion_wf
    | with_reducible apply writeBytes_wf
    | with_reducible apply spoilBytes_wf
    | with_reducible apply delFlips_wf
    | with_reducible apply wf_put_flips
    | with_reducible apply wf_del_flips
    | with_reducible apply memory_wf
    | with_reducible apply wf_spad
    | with_reducible apply wf_of_spad
    | with_reducible apply wf_imem
    | with_reducible apply wf_of_imem
    | with_reducible apply wf_dmem
    | with_reducible apply wf_of_dmem
    | with_reducible apply wf_simem
    | with_reducible apply wf_of_simem
    | with_reducible apply wf_hbm
    | with_reducible apply wf_of_hbm
    | with_reducible apply wf_buf
    | with_reducible apply wf_of_buf
    | with_reducible apply wf_tags
    | with_reducible apply wf_of_tags
    | with_reducible apply wf_bulk
    | with_reducible apply wf_of_bulk
    | with_reducible apply wf_empty
    | with_reducible apply wf_filter_cells
    | with_reducible apply forgetRange_wf
    | with_reducible apply foldl_wf
    | with_reducible apply spoilWord_wf
    | with_reducible apply each_only
    | with_reducible apply foldl_only
    | with_reducible apply foldl_pair_only
    | with_reducible apply wf_del_flips
    | decide
    | fail_if_no_progress extract_lets
    | split
    | with_reducible apply wf_mk
    | with_reducible apply wf_cells
    | with_reducible apply wf_flips
    | with_reducible apply wf_flips_set
    | with_reducible apply all_filter
    | with_reducible apply tabSorted_filter
    | with_reducible apply foldl_set_wf
    | with_reducible apply Only.upd_tier_mem
    | dsimp +zetaDelta only [id])

theorem recount_only (a0 : Nat) (s : State) :
    Only 6307850 s (recount a0 s) := by
  unfold recount
  repeat' (first
    | with_reducible intro _
    | with_reducible apply Only.refl
    | with_reducible assumption
    | with_reducible apply Only.step (State.setReg_only ..)
    | with_reducible apply Only.step (placeStructs_only ..)
    | decide
    | dsimp +zetaDelta only [id])

theorem mapPages_only (a0 : Nat) (a1 : Nat) (a2 : ObjectRec) (a3 : List Nat) (s : State) :
    Only 2113536 s (mapPages a0 a1 a2 a3 s) := by
  unfold mapPages
  repeat' (first
    | with_reducible intro _
    | with_reducible apply Only.refl
    | with_reducible assumption
    | with_reducible apply Only.after (State.each_only ..)
    | with_reducible apply Only.step (clearFrame_only ..)
    | with_reducible apply each_only
    | decide
    | fail_if_no_progress extract_lets
    | with_reducible apply Only.upd_tier
    | dsimp +zetaDelta only [id])

theorem declareObject_only (a0 : Nat) (a1 : BitVec 512) (s : State) :
    Only 6307850 s (declareObject a0 a1 s).2 := by
  unfold declareObject
  repeat' (first
    | with_reducible intro _
    | with_reducible apply Only.refl
    | with_reducible assumption
    | with_reducible apply Only.step (mapPages_only ..)
    | with_reducible apply Only.after (State.each_only ..)
    | with_reducible apply Only.step (recount_only ..)
    | with_reducible apply Only.step (writePageEntry_only ..)
    | with_reducible apply each_only
    | decide
    | fail_if_no_progress extract_lets
    | split
    | with_reducible apply Only.upd_tier
    | dsimp +zetaDelta only [id])

theorem execObjectDeclare_only (a0 : CmdRef) (a1 : HostData) (s : State) :
    OnlyNext 73942030 s (execObjectDeclare a0 a1 s) := by
  unfold execObjectDeclare
  repeat' (first
    | with_reducible intro _
    | with_reducible apply Only.refl
    | with_reducible assumption
    | with_reducible apply OnlyNext.next
    | with_reducible apply Only.after (startCmd_only ..)
    | with_reducible apply Only.step (complete_only ..)
    | with_reducible apply Only.after (withData_only ..)
    | with_reducible apply Only.step (declareObject_only ..)
    | with_reducible refine Only.step (Only.pair2 (declareObject_only ..) (by assumption)) (by decide) ?_
    | decide
    | fail_if_no_progress extract_lets
    | split
    | dsimp +zetaDelta only [id])

theorem dropObject_only (a0 : Nat) (a1 : Nat) (a2 : ObjectRec) (s : State) :
    Only 6307850 s (dropObject a0 a1 a2 s) := by
  unfold dropObject
  repeat' (first
    | with_reducible intro _
    | with_reducible apply Only.refl
    | with_reducible assumption
    | with_reducible apply Only.step (recount_only ..)
    | with_reducible apply Only.after (State.each_only ..)
    | with_reducible apply Only.step (writePageEntry_only ..)
    | with_reducible apply each_only
    | decide
    | fail_if_no_progress extract_lets
    | with_reducible apply Only.upd_tier
    | dsimp +zetaDelta only [id])

theorem execObjectRelease_only (a0 : CmdRef) (a1 : BitVec 16) (s : State) :
    OnlyNext 73942026 s (execObjectRelease a0 a1 s) := by
  unfold execObjectRelease
  repeat' (first
    | with_reducible intro _
    | with_reducible apply Only.refl
    | with_reducible assumption
    | with_reducible apply OnlyNext.next
    | with_reducible apply Only.after (startCmd_only ..)
    | with_reducible apply Only.step (complete_only ..)
    | with_reducible apply Only.step (dropObject_only ..)
    | decide
    | fail_if_no_progress extract_lets
    | split
    | dsimp +zetaDelta only [id])

theorem startMove_only (a0 : Nat) (a1 : Nat) (a2 : Nat) (a3 : Bool) (a4 : Option (Prod Nat Nat)) (s : State) :
    Only 6307850 s (startMove a0 a1 a2 a3 a4 s) := by
  unfold startMove
  repeat' (first
    | with_reducible intro _
    | with_reducible apply Only.refl
    | with_reducible assumption
    | with_reducible apply Only.step (clearFrame_only ..)
    | with_reducible apply Only.step (recount_only ..)
    | with_reducible apply Only.step (writePageEntry_only ..)
    | decide
    | fail_if_no_progress extract_lets
    | split
    | with_reducible apply Only.upd_tier
    | dsimp +zetaDelta only [id])

theorem execObjectMove_only (a0 : CmdRef) (a1 : BitVec 16) (a2 : Fin 4) (s : State) :
    OnlyNext 73942026 s (execObjectMove a0 a1 a2 s) := by
  unfold execObjectMove
  repeat' (first
    | with_reducible intro _
    | with_reducible apply Only.refl
    | with_reducible assumption
    | with_reducible apply OnlyNext.next
    | with_reducible apply Only.after (startCmd_only ..)
    | with_reducible apply Only.step (complete_only ..)
    | with_reducible apply Only.step (startMove_only ..)
    | with_reducible apply Only.step (markStarted_only ..)
    | decide
    | fail_if_no_progress extract_lets
    | split
    | with_reducible apply Only.upd_tier
    | dsimp +zetaDelta only [id])

theorem copyPage_only (a0 : Nat) (a1 : Nat) (a2 : Nat) (a3 : Nat) (a4 : PageEntry) (s : State) :
    Only 6291466 s (copyPage a0 a1 a2 a3 a4 s) := by
  unfold copyPage
  repeat' (first
    | with_reducible intro _
    | with_reducible apply Only.refl
    | with_reducible assumption
    | with_reducible apply Only.after (State.each_only ..)
    | with_reducible apply Only.after (State.when_only ..)
    | with_reducible apply Only.step (State.readEffect_only ..)
    | with_reducible apply Only.step (State.addReg_only ..)
    | with_reducible apply Only.step (State.store_only ..)
    | with_reducible apply Only.step (touchLost_only ..)
    | with_reducible apply Only.step (State.countErrors_only ..)
    | with_reducible apply setRegion_wf
    | with_reducible apply writeBytes_wf
    | with_reducible apply spoilBytes_wf
    | with_reducible apply delFlips_wf
    | with_reducible apply wf_put_flips
    | with_reducible apply wf_del_flips
    | with_reducible apply memory_wf
    | with_reducible apply wf_spad
    | with_reducible apply wf_of_spad
    | with_reducible apply wf_imem
    | with_reducible apply wf_of_imem
    | with_reducible apply wf_dmem
    | with_reducible apply wf_of_dmem
    | with_reducible apply wf_simem
    | with_reducible apply wf_of_simem
    | with_reducible apply wf_hbm
    | with_reducible apply wf_of_hbm
    | with_reducible apply wf_buf
    | with_reducible apply wf_of_buf
    | with_reducible apply wf_tags
    | with_reducible apply wf_of_tags
    | with_reducible apply wf_bulk
    | with_reducible apply wf_of_bulk
    | with_reducible apply wf_empty
    | with_reducible apply wf_filter_cells
    | with_reducible apply forgetRange_wf
    | with_reducible apply foldl_wf
    | with_reducible apply spoilWord_wf
    | with_reducible apply each_only
    | with_reducible apply when_only
    | decide
    | fail_if_no_progress extract_lets
    | split
    | with_reducible apply Only.upd_mem
    | dsimp +zetaDelta only [id])

theorem finishPage_only (a0 : Nat) (a1 : PageMove) (s : State) :
    Only 6307850 s (finishPage a0 a1 s) := by
  unfold finishPage
  repeat' (first
    | with_reducible intro _
    | with_reducible apply Only.refl
    | with_reducible assumption
    | with_reducible apply Only.step (copyPage_only ..)
    | with_reducible apply Only.step (recount_only ..)
    | with_reducible apply Only.step (writePageEntry_only ..)
    | decide
    | fail_if_no_progress extract_lets
    | split
    | with_reducible apply Only.upd_tier
    | dsimp +zetaDelta only [id])

theorem moveComplete_only (a0 : Option (Prod Nat Nat)) (s : State) :
    Only 4718594 s (moveComplete a0 s) := by
  unfold moveComplete
  repeat' (first
    | with_reducible intro _
    | with_reducible apply Only.refl
    | with_reducible assumption
    | with_reducible apply Only.step (complete_only ..)
    | decide
    | split
    | dsimp +zetaDelta only [id])

theorem execObjectPageMoved_only (a0 : Fin 64) (s : State) :
    OnlyNext 6833166 s (execObjectPageMoved a0 s) := by
  unfold execObjectPageMoved
  repeat' (first
    | with_reducible intro _
    | with_reducible apply Only.refl
    | with_reducible assumption
    | with_reducible apply OnlyNext.next
    | with_reducible apply Only.after (State.each_only ..)
    | with_reducible apply Only.step (touchPart_only ..)
    | with_reducible apply Only.step (finishPage_only ..)
    | with_reducible apply Only.step (startMove_only ..)
    | with_reducible apply Only.step (moveComplete_only ..)
    | with_reducible apply each_only
    | decide
    | fail_if_no_progress extract_lets
    | split
    | with_reducible apply Only.upd_tier
    | dsimp +zetaDelta only [id])

theorem execHeatEpoch_only (a0 : Fin 64) (s : State) :
    OnlyNext 81920 s (execHeatEpoch a0 s) := by
  unfold execHeatEpoch
  repeat' (first
    | with_reducible intro _
    | with_reducible apply Only.refl
    | with_reducible assumption
    | with_reducible apply OnlyNext.next
    | decide
    | fail_if_no_progress extract_lets
    | split
    | with_reducible apply Only.upd_tier_parts
    | dsimp +zetaDelta only [id])

theorem execHeatMove_only (a0 : Fin 64) (s : State) :
    OnlyNext 6307850 s (execHeatMove a0 s) := by
  unfold execHeatMove
  repeat' (first
    | with_reducible intro _
    | with_reducible apply Only.refl
    | with_reducible assumption
    | with_reducible apply OnlyNext.next
    | with_reducible apply Only.step (startMove_only ..)
    | decide
    | fail_if_no_progress extract_lets
    | split
    | dsimp +zetaDelta only [id])

theorem execHeatMoveDone_only (a0 : Fin 64) (s : State) :
    OnlyNext 6307850 s (execHeatMoveDone a0 s) := by
  unfold execHeatMoveDone
  repeat' (first
    | with_reducible intro _
    | with_reducible apply Only.refl
    | with_reducible assumption
    | with_reducible apply OnlyNext.next
    | with_reducible apply Only.step (State.bump_only ..)
    | with_reducible apply Only.step (finishPage_only ..)
    | decide
    | fail_if_no_progress extract_lets
    | split
    | dsimp +zetaDelta only [id])

theorem execSluiceStart_only (a0 : CmdRef) (a1 : BitVec 64) (s : State) :
    OnlyNext 73942030 s (execSluiceStart a0 a1 s) := by
  unfold execSluiceStart
  repeat' (first
    | with_reducible intro _
    | with_reducible apply Only.refl
    | with_reducible assumption
    | with_reducible apply OnlyNext.next
    | with_reducible apply Only.after (startCmd_only ..)
    | with_reducible apply Only.step (complete_only ..)
    | with_reducible apply Only.step (State.partTouch_only ..)
    | decide
    | fail_if_no_progress extract_lets
    | split
    | with_reducible apply Only.upd_tier
    | dsimp +zetaDelta only [id])

theorem ownWrite_only (a0 : Nat) (a1 : Nat) (a2 : List Byte) (s : State) :
    Only 6292490 s (ownWrite a0 a1 a2 s) := by
  unfold ownWrite
  repeat' (first
    | with_reducible intro _
    | with_reducible apply Only.refl
    | with_reducible assumption
    | with_reducible apply Only.after (State.each_only ..)
    | with_reducible apply Only.step (State.storeHome_only ..)
    | with_reducible apply Only.step (State.countErrors_only ..)
    | with_reducible apply each_only
    | decide
    | split
    | dsimp +zetaDelta only [id])

theorem dropSluices_only (a0 : Nat → SluiceRun → Bool) (s : State) :
    Only 20480 s (dropSluices a0 s) := by
  unfold dropSluices
  repeat' (first
    | with_reducible intro _
    | with_reducible apply Only.refl
    | with_reducible assumption
    | decide
    | split
    | with_reducible apply Only.upd_sems_tier
    | dsimp +zetaDelta only [id])

theorem execSluiceStop_only (a0 : CmdRef) (a1 : BitVec 64) (s : State) :
    OnlyNext 73946126 s (execSluiceStop a0 a1 s) := by
  unfold execSluiceStop
  repeat' (first
    | with_reducible intro _
    | with_reducible apply Only.refl
    | with_reducible assumption
    | with_reducible apply OnlyNext.next
    | with_reducible apply Only.after (startCmd_only ..)
    | with_reducible apply Only.step (complete_only ..)
    | with_reducible apply Only.after (State.each_only ..)
    | with_reducible apply Only.step (State.usedFree_only ..)
    | with_reducible apply Only.step (State.partWrite_only ..)
    | with_reducible apply Only.step (dropSluices_only ..)
    | with_reducible apply each_only
    | decide
    | fail_if_no_progress extract_lets
    | split
    | dsimp +zetaDelta only [id])

theorem setSluice_only (a0 : Nat) (a1 : SluiceRun) (s : State) :
    Only 16384 s (setSluice a0 a1 s) := by
  unfold setSluice
  repeat' (first
    | with_reducible intro _
    | with_reducible apply Only.refl
    | with_reducible assumption
    | decide
    | with_reducible apply Only.upd_tier
    | dsimp +zetaDelta only [id])

theorem sluiceAcquire_only {m : Nat} (a0 : Nat) (a1 : SluiceRun) (a2 : Nat) (a3 : SluiceRun → State → State) (s : State) (w : m ||| 20480 = m) (h3 : ∀ x0 u, Only m u (a3 x0 u)) :
    Only m s (sluiceAcquire a0 a1 a2 a3 s) := by
  unfold sluiceAcquire
  repeat' (first
    | with_reducible intro _
    | with_reducible apply Only.refl
    | with_reducible assumption
    | with_reducible apply Only.step (State.setSem_only ..)
    | with_reducible apply Only.step (setSluice_only ..)
    | with_reducible apply Only.after (h3 ..)
    | with_reducible exact sub_of w (by decide)
    | with_reducible exact bit_of w (by decide)
    | decide
    | fail_if_no_progress extract_lets
    | split
    | dsimp +zetaDelta only [id])

theorem addCount_only (a0 : Nat) (a1 : Nat) (s : State) :
    Only 4096 s (addCount a0 a1 s) := by
  unfold addCount
  repeat' (first
    | with_reducible intro _
    | with_reducible apply Only.refl
    | with_reducible assumption
    | with_reducible apply Only.step (State.setSem_only ..)
    | decide
    | dsimp +zetaDelta only [id])

theorem nextEntry_only (a0 : Nat) (a1 : SluiceRun) (a2 : SluiceHead) (s : State) :
    Only 16384 s (nextEntry a0 a1 a2 s) := by
  unfold nextEntry
  repeat' (first
    | with_reducible intro _
    | with_reducible apply Only.refl
    | with_reducible assumption
    | with_reducible apply Only.step (setSluice_only ..)
    | decide
    | dsimp +zetaDelta only [id])

theorem execSluicePrefetch_only (a0 : Fin 64) (s : State) :
    OnlyNext 6312974 s (execSluicePrefetch a0 s) := by
  unfold execSluicePrefetch
  repeat' (first
    | with_reducible intro _
    | with_reducible apply Only.refl
    | with_reducible assumption
    | with_reducible apply OnlyNext.next
    | with_reducible apply Only.after (sluiceAcquire_only ..)
    | with_reducible apply Only.step (nextEntry_only ..)
    | with_reducible apply Only.step (State.partTouch_only ..)
    | decide
    | fail_if_no_progress extract_lets
    | split
    | dsimp +zetaDelta only [id])

theorem execSluiceFillStart_only (a0 : Fin 64) (s : State) :
    OnlyNext 6312974 s (execSluiceFillStart a0 s) := by
  unfold execSluiceFillStart
  repeat' (first
    | with_reducible intro _
    | with_reducible apply Only.refl
    | with_reducible assumption
    | with_reducible apply OnlyNext.next
    | with_reducible apply Only.after (sluiceAcquire_only ..)
    | with_reducible apply Only.step (setSluice_only ..)
    | with_reducible apply Only.step (State.partTouch_only ..)
    | decide
    | fail_if_no_progress extract_lets
    | split
    | dsimp +zetaDelta only [id])

theorem execSluiceFillDone_only (a0 : Fin 64) (s : State) :
    OnlyNext 73421834 s (execSluiceFillDone a0 s) := by
  unfold execSluiceFillDone
  repeat' (first
    | with_reducible intro _
    | with_reducible apply Only.refl
    | with_reducible assumption
    | with_reducible apply OnlyNext.next
    | with_reducible apply Only.step (State.partStore_only ..)
    | with_reducible apply Only.step (nextEntry_only ..)
    | with_reducible apply Only.step (addCount_only ..)
    | decide
    | fail_if_no_progress extract_lets
    | split
    | dsimp +zetaDelta only [id])

theorem loseUnit_only (a0 : Nat) (a1 : Nat) (s : State) :
    Only 16392 s (loseUnit a0 a1 s) := by
  unfold loseUnit
  repeat' (first
    | with_reducible intro _
    | with_reducible apply Only.refl
    | with_reducible assumption
    | with_reducible apply Only.step (setUnit_only ..)
    | with_reducible apply Only.step (State.bump_only ..)
    | decide
    | dsimp +zetaDelta only [id])

theorem execResourceDone_only (a0 : Fin 64) (a1 : BitVec 64) (a2 : ReplicaSource) (a3 : List Byte) (a4 : Bool) (s : State) :
    OnlyNext 6308874 s (execResourceDone a0 a1 a2 a3 a4 s) := by
  unfold execResourceDone
  repeat' (first
    | with_reducible intro _
    | with_reducible apply Only.refl
    | with_reducible assumption
    | with_reducible apply OnlyNext.next
    | with_reducible apply Only.step (loseUnit_only ..)
    | with_reducible apply Only.step (State.bump_only ..)
    | with_reducible apply Only.step (setUnit_only ..)
    | with_reducible apply Only.step (ownWrite_only ..)
    | decide
    | fail_if_no_progress extract_lets
    | split
    | dsimp +zetaDelta only [id])

theorem execResourceTimeout_only (a0 : Fin 64) (a1 : BitVec 64) (a2 : Bool) (s : State) :
    OnlyNext 16392 s (execResourceTimeout a0 a1 a2 s) := by
  unfold execResourceTimeout
  repeat' (first
    | with_reducible intro _
    | with_reducible apply Only.refl
    | with_reducible assumption
    | with_reducible apply OnlyNext.next
    | with_reducible apply Only.step (loseUnit_only ..)
    | decide
    | fail_if_no_progress extract_lets
    | split
    | dsimp +zetaDelta only [id])

theorem execLoadObject_only (a0 : CmdRef) (a1 : LoadKind) (a2 : HostData) (s : State) :
    OnlyNext 73942030 s (execLoadObject a0 a1 a2 s) := by
  unfold execLoadObject
  repeat' (first
    | with_reducible intro _
    | with_reducible apply Only.refl
    | with_reducible assumption
    | with_reducible apply OnlyNext.next
    | with_reducible apply Only.after (startCmd_only ..)
    | with_reducible apply Only.after (withData_only ..)
    | with_reducible apply Only.step (startLong_only ..)
    | with_reducible apply Only.step (complete_only ..)
    | decide
    | fail_if_no_progress extract_lets
    | split
    | dsimp +zetaDelta only [id])

theorem loadBytes_only (a0 : LongOp) (a1 : Nat) (s : State) :
    Only 6308874 s (loadBytes a0 a1 s) := by
  unfold loadBytes
  repeat' (first
    | with_reducible intro _
    | with_reducible apply Only.refl
    | with_reducible assumption
    | with_reducible apply Only.step (State.store_only ..)
    | with_reducible apply Only.step (ownWrite_only ..)
    | decide
    | fail_if_no_progress extract_lets
    | split
    | with_reducible apply Only.upd_tier
    | dsimp +zetaDelta only [id])

theorem loadChunk_only (a0 : LongOp) (a1 : Nat) (s : State) :
    Only 73942026 s (loadChunk a0 a1 s) := by
  unfold loadChunk
  repeat' (first
    | with_reducible intro _
    | with_reducible apply Only.refl
    | with_reducible assumption
    | with_reducible apply Only.step (chunkDone_only ..)
    | with_reducible apply Only.step (loadBytes_only ..)
    | with_reducible apply Only.step (endLong_only ..)
    | with_reducible apply Only.step (State.emit_only ..)
    | with_reducible apply Only.step (writeProgress_only ..)
    | with_reducible apply Only.step (setLong_only ..)
    | decide
    | fail_if_no_progress extract_lets
    | split
    | with_reducible apply Only.upd_twin
    | dsimp +zetaDelta only [id])

theorem execTwinCopyStale_only (a0 : Fin 64) (a1 : BitVec 16) (a2 : CmdRef) (s : State) :
    OnlyNext 71827458 s (execTwinCopyStale a0 a1 a2 s) := by
  unfold execTwinCopyStale
  repeat' (first
    | with_reducible intro _
    | with_reducible apply Only.refl
    | with_reducible assumption
    | with_reducible apply OnlyNext.next
    | with_reducible apply Only.step (endLong_only ..)
    | decide
    | split
    | with_reducible apply Only.upd_twin
    | dsimp +zetaDelta only [id])

theorem execFill_only (a0 : CmdRef) (a1 : FillTarget) (a2 : BitVec 64) (s : State) :
    OnlyNext 73942026 s (execFill a0 a1 a2 s) := by
  unfold execFill
  repeat' (first
    | with_reducible intro _
    | with_reducible apply Only.refl
    | with_reducible assumption
    | with_reducible apply OnlyNext.next
    | with_reducible apply Only.after (startCmd_only ..)
    | with_reducible apply Only.step (complete_only ..)
    | with_reducible apply Only.step (startLong_only ..)
    | decide
    | fail_if_no_progress extract_lets
    | split
    | dsimp +zetaDelta only [id])

theorem fillChunk_only (a0 : LongOp) (a1 : Nat) (s : State) :
    Only 73942030 s (fillChunk a0 a1 s) := by
  unfold fillChunk
  repeat' (first
    | with_reducible intro _
    | with_reducible apply Only.refl
    | with_reducible assumption
    | with_reducible apply Only.step (chunkDone_only ..)
    | with_reducible apply Only.step (State.spadWrite_only ..)
    | with_reducible apply Only.step (State.store_only ..)
    | with_reducible apply Only.step (State.usedFree_only ..)
    | with_reducible apply Only.step (endLong_only ..)
    | with_reducible apply Only.step (State.faultTouch_only ..)
    | with_reducible apply Only.step (State.partStore_only ..)
    | with_reducible apply Only.step (setLong_only ..)
    | decide
    | fail_if_no_progress extract_lets
    | split
    | dsimp +zetaDelta only [id])

end Sys2Proof.Machine
end

