-- ==== Sys2Proof/Laws/OnlyRadio.lean ====
section
/-! SUPPORT. What each operation of Machine/Radio.lean may touch: one lemma per operation, in the form of Laws/Only.lean. -/

namespace Sys2Proof.Machine

set_option linter.unusedTactic false
set_option linter.unreachableTactic false
set_option linter.unusedVariables false

theorem tabSorted_append {α : Type} {l k : Table α} {a b : Nat} (h : tabSorted a l = true) (g : tabSorted b k = true)
    (hl : ∀ e ∈ l, e.1 < b) (hab : a ≤ b) : tabSorted a (l ++ k) = true := by
  induction l generalizing a with
  | nil => exact tabSorted_mono hab k g
  | cons x l ih =>
    simp only [tabSorted, List.cons_append, Bool.and_eq_true, decide_eq_true_eq] at *
    exact ⟨h.1, ih h.2 (fun e he => hl e (List.mem_cons_of_mem _ he)) (hl x List.mem_cons_self)⟩

theorem tabSorted_shift {α : Type} {l : Table α} {a c d : Nat} (h : tabSorted a l = true) (hl : ∀ e ∈ l, c ≤ e.1) :
    tabSorted (a - c + d) (l.map fun e => (e.1 - c + d, e.2)) = true := by
  induction l generalizing a with
  | nil => rfl
  | cons x l ih =>
    have hx := hl x List.mem_cons_self
    simp only [tabSorted, List.map_cons, Bool.and_eq_true, decide_eq_true_eq] at *
    refine ⟨by omega, ?_⟩
    have := ih h.2 fun e he => hl e (List.mem_cons_of_mem _ he)
    rwa [show x.1 + 1 - c + d = x.1 - c + d + 1 by omega] at this

theorem tabSorted_ge {α : Type} {l : Table α} {a b : Nat} (h : tabSorted a l = true) (hl : ∀ e ∈ l, b ≤ e.1) : tabSorted b l = true := by
  cases l with
  | nil => rfl
  | cons x l =>
    simp only [tabSorted, Bool.and_eq_true, decide_eq_true_eq] at *
    exact ⟨hl x List.mem_cons_self, h.2⟩

/-- Three parts of a table, the middle one moved to stand between the others. -/
theorem tabWf_move {α : Type} {l : Table α} {src lo n : Nat} (h : tabWf l = true) :
    tabWf ((l.filter fun e => decide (e.1 < lo)) ++
      ((l.filter fun e => decide (src ≤ e.1) && decide (e.1 < src + n)).map fun e => (e.1 - src + lo, e.2)) ++
      l.filter fun e => decide (lo + n ≤ e.1)) = true := by
  refine tabSorted_append (b := lo + n) (tabSorted_append (b := lo) (tabSorted_filter _ h) ?_ ?_ (Nat.zero_le _)) ?_ ?_ (Nat.zero_le _)
  · have hm : ∀ e ∈ l.filter fun e => decide (src ≤ e.1) && decide (e.1 < src + n), src ≤ e.1 := by
      intro e he
      simp only [List.mem_filter, Bool.and_eq_true, decide_eq_true_eq] at he
      exact he.2.1
    have := tabSorted_shift (d := lo) (tabSorted_ge (tabSorted_filter _ h) hm) hm
    rwa [Nat.sub_self, Nat.zero_add] at this
  · intro e he
    simp only [List.mem_filter, decide_eq_true_eq] at he
    exact he.2
  · refine tabSorted_ge (tabSorted_filter _ h) ?_
    intro e he
    simp only [List.mem_filter, decide_eq_true_eq] at he
    exact he.2
  · intro e he
    simp only [List.mem_append, List.mem_map, List.mem_filter, Bool.and_eq_true, decide_eq_true_eq] at he
    rcases he with ⟨_, h⟩ | ⟨y, ⟨_, h1, h2⟩, rfl⟩
    · omega
    · dsimp only; omega

theorem copyRange_wf {r : Region} {src lo n : Nat} {m : Memory} (hn : n % cwBytes r = 0) (h : m.wf = true) : (copyRange r src lo n m).wf = true := by
  have hc : 0 < cwBytes r := by cases r <;> decide
  have e1 : ∀ x, (x + n) / cwBytes r = x / cwBytes r + n / cwBytes r := fun x => by
    obtain ⟨q, rfl⟩ := Nat.dvd_of_mod_eq_zero hn
    rw [Nat.add_mul_div_left _ _ hc, Nat.mul_div_cancel_left _ hc]
  unfold copyRange
  refine wf_mk (tabWf_move (wf_cells h)) ?_ ?_
  · rw [e1, e1]; exact tabWf_move (wf_flips h)
  · have := wf_flips_set h
    simp only [List.all_append, Bool.and_eq_true, List.all_map]
    exact ⟨⟨all_filter this, all_filter this⟩, all_filter this⟩

theorem State.setRadio_only (s : State) (a1 : Nat) (a2 : RadioPart) :
    Only 131072 s (State.setRadio s a1 a2) := by
  unfold State.setRadio
  repeat' (first
    | with_reducible intro _
    | with_reducible apply Only.refl
    | with_reducible assumption
    | decide
    | with_reducible apply Only.upd_radio
    | dsimp +zetaDelta only [id])

theorem State.modRadio_only (s : State) (a1 : Nat) (a2 : RadioPart → RadioPart) :
    Only 131072 s (State.modRadio s a1 a2) := by
  unfold State.modRadio
  repeat' (first
    | with_reducible intro _
    | with_reducible apply Only.refl
    | with_reducible assumption
    | with_reducible apply Only.step (State.setRadio_only ..)
    | decide
    | dsimp +zetaDelta only [id])

theorem execCellStart_only (a0 : CmdRef) (s : State) :
    OnlyNext 74073102 s (execCellStart a0 s) := by
  unfold execCellStart
  repeat' (first
    | with_reducible intro _
    | with_reducible apply Only.refl
    | with_reducible assumption
    | with_reducible apply OnlyNext.next
    | with_reducible apply Only.after (startCmd_only ..)
    | with_reducible apply Only.step (complete_only ..)
    | with_reducible apply Only.after (withData_only ..)
    | with_reducible apply Only.step (State.partTouch_only ..)
    | with_reducible apply Only.step (State.setRadio_only ..)
    | decide
    | fail_if_no_progress extract_lets
    | split
    | dsimp +zetaDelta only [id])

theorem execCellStop_only (a0 : CmdRef) (a1 : Fin 384) (s : State) :
    OnlyNext 74073098 s (execCellStop a0 a1 s) := by
  unfold execCellStop
  repeat' (first
    | with_reducible intro _
    | with_reducible apply Only.refl
    | with_reducible assumption
    | with_reducible apply OnlyNext.next
    | with_reducible apply Only.after (startCmd_only ..)
    | with_reducible apply Only.step (complete_only ..)
    | with_reducible apply Only.step (State.setRadio_only ..)
    | with_reducible apply Only.step (markStarted_only ..)
    | decide
    | fail_if_no_progress extract_lets
    | split
    | dsimp +zetaDelta only [id])

theorem completeSlot_only (a0 : SlotRun) (a1 : Nat) (s : State) :
    Only 4718594 s (completeSlot a0 a1 s) := by
  unfold completeSlot
  repeat' (first
    | with_reducible intro _
    | with_reducible apply Only.refl
    | with_reducible assumption
    | with_reducible apply Only.step (complete_only ..)
    | decide
    | dsimp +zetaDelta only [id])

theorem slotLate_only (a0 : Nat) (s : State) :
    Only 4194314 s (slotLate a0 s) := by
  unfold slotLate
  repeat' (first
    | with_reducible intro _
    | with_reducible apply Only.refl
    | with_reducible assumption
    | with_reducible apply Only.step (State.raise_only ..)
    | with_reducible apply Only.step (State.bump_only ..)
    | decide
    | dsimp +zetaDelta only [id])

theorem forgetBlocks_only (a0 : Nat) (a1 : List SlotTask) (s : State) :
    Only 131072 s (forgetBlocks a0 a1 s) := by
  unfold forgetBlocks
  repeat' (first
    | with_reducible intro _
    | with_reducible apply Only.refl
    | with_reducible assumption
    | with_reducible apply Only.step (State.modRadio_only ..)
    | decide
    | dsimp +zetaDelta only [id])

theorem execSlot_only (a0 : CmdRef) (a1 : HostData) (a2 : List SlotTask) (a3 : Bool) (s : State) :
    OnlyNext 74073102 s (execSlot a0 a1 a2 a3 s) := by
  unfold execSlot
  repeat' (first
    | with_reducible intro _
    | with_reducible apply Only.refl
    | with_reducible assumption
    | with_reducible apply OnlyNext.next
    | with_reducible apply Only.after (startCmd_only ..)
    | with_reducible apply Only.step (complete_only ..)
    | with_reducible apply Only.after (withData_only ..)
    | with_reducible apply Only.step (State.modRadio_only ..)
    | with_reducible apply Only.step (slotLate_only ..)
    | with_reducible apply Only.step (forgetBlocks_only ..)
    | with_reducible apply Only.step (markStarted_only ..)
    | decide
    | fail_if_no_progress extract_lets
    | split
    | dsimp +zetaDelta only [id])

theorem setSlotRun_only (a0 : Nat) (a1 : SlotRun) (a2 : SlotRun) (s : State) :
    Only 131072 s (setSlotRun a0 a1 a2 s) := by
  unfold setSlotRun
  repeat' (first
    | with_reducible intro _
    | with_reducible apply Only.refl
    | with_reducible assumption
    | with_reducible apply Only.step (State.setRadio_only ..)
    | decide
    | fail_if_no_progress extract_lets
    | split
    | dsimp +zetaDelta only [id])

theorem dropSlotRun_only (a0 : Nat) (a1 : SlotRun) (s : State) :
    Only 131072 s (dropSlotRun a0 a1 s) := by
  unfold dropSlotRun
  repeat' (first
    | with_reducible intro _
    | with_reducible apply Only.refl
    | with_reducible assumption
    | with_reducible apply Only.step (State.setRadio_only ..)
    | decide
    | fail_if_no_progress extract_lets
    | dsimp +zetaDelta only [id])

theorem missTask_only (a0 : Nat) (a1 : SlotRun) (a2 : Nat) (a3 : SlotTask) (s : State) :
    Only 4325386 s (missTask a0 a1 a2 a3 s) := by
  unfold missTask
  repeat' (first
    | with_reducible intro _
    | with_reducible apply Only.refl
    | with_reducible assumption
    | with_reducible apply Only.step (setSlotRun_only ..)
    | with_reducible apply Only.step (State.bump_only ..)
    | with_reducible apply Only.step (State.modRadio_only ..)
    | with_reducible apply Only.step (State.raise_only ..)
    | with_reducible apply Only.step (State.emit_only ..)
    | decide
    | fail_if_no_progress extract_lets
    | split
    | dsimp +zetaDelta only [id])

theorem missWhere_only (a0 : Nat) (a1 : Nat) (a2 : Nat) (a3 : Nat) (a4 : Nat) (a5 : SlotTask → Bool) (s : State) :
    Only 4325386 s (missWhere a0 a1 a2 a3 a4 a5 s) := by
  unfold missWhere
  repeat' (first
    | with_reducible intro _
    | with_reducible apply Only.refl
    | with_reducible assumption
    | with_reducible apply Only.step (missTask_only ..)
    | decide
    | split
    | dsimp +zetaDelta only [id])

theorem execTidemarkMiss_only (a0 : Fin 64) (a1 : Fin 384) (a2 : Nat) (a3 : Nat) (a4 : Nat) (s : State) :
    OnlyNext 4325386 s (execTidemarkMiss a0 a1 a2 a3 a4 s) := by
  unfold execTidemarkMiss
  repeat' (first
    | with_reducible intro _
    | with_reducible apply Only.refl
    | with_reducible assumption
    | with_reducible apply OnlyNext.next
    | with_reducible apply Only.step (missWhere_only ..)
    | decide
    | split
    | dsimp +zetaDelta only [id])

theorem setBudget_only (a0 : Nat) (s : State) :
    Only 12 s (setBudget a0 s) := by
  unfold setBudget
  repeat' (first
    | with_reducible intro _
    | with_reducible apply Only.refl
    | with_reducible assumption
    | with_reducible apply Only.step (State.usedFree_only ..)
    | with_reducible apply Only.step (State.setReg_only ..)
    | decide
    | fail_if_no_progress extract_lets
    | split
    | dsimp +zetaDelta only [id])

theorem setBudgets_only (s : State) :
    Only 12 s (setBudgets s) := by
  unfold setBudgets
  repeat' (first
    | with_reducible intro _
    | with_reducible apply Only.refl
    | with_reducible assumption
    | with_reducible apply Only.after (State.each_only ..)
    | with_reducible apply Only.step (setBudget_only ..)
    | with_reducible apply each_only
    | decide
    | dsimp +zetaDelta only [id])

theorem goStale_only (a0 : Nat) (s : State) :
    Only 4194318 s (goStale a0 s) := by
  unfold goStale
  repeat' (first
    | with_reducible intro _
    | with_reducible apply Only.refl
    | with_reducible assumption
    | with_reducible apply Only.step (State.raise_only ..)
    | with_reducible apply Only.step (State.usedFree_only ..)
    | with_reducible apply Only.step (State.setReg_only ..)
    | decide
    | fail_if_no_progress extract_lets
    | dsimp +zetaDelta only [id])

theorem calWindow_only (a0 : Nat) (a1 : Nat) (a2 : Nat) (s : State) :
    Only 4325390 s (calWindow a0 a1 a2 s) := by
  unfold calWindow
  repeat' (first
    | with_reducible intro _
    | with_reducible apply Only.refl
    | with_reducible assumption
    | with_reducible apply Only.step (State.setRadio_only ..)
    | with_reducible apply Only.step (State.setReg_only ..)
    | with_reducible apply Only.step (goStale_only ..)
    | with_reducible apply foldl_only
    | with_reducible apply foldl_pair_only
    | decide
    | fail_if_no_progress extract_lets
    | split
    | dsimp +zetaDelta only [id])

theorem sendMirror_only (a0 : Nat) (s : State) :
    Only 67108866 s (sendMirror a0 s) := by
  unfold sendMirror
  repeat' (first
    | with_reducible intro _
    | with_reducible apply Only.refl
    | with_reducible assumption
    | with_reducible apply Only.step (State.emit_only ..)
    | decide
    | split
    | with_reducible apply Only.upd_twin
    | dsimp +zetaDelta only [id])

theorem surgeServed_only (a0 : Nat) (a1 : Nat) (a2 : Int) (s : State) :
    Only 131072 s (surgeServed a0 a1 a2 s) := by
  unfold surgeServed
  repeat' (first
    | with_reducible intro _
    | with_reducible apply Only.refl
    | with_reducible assumption
    | with_reducible apply Only.step (State.modRadio_only ..)
    | decide
    | fail_if_no_progress extract_lets
    | split
    | dsimp +zetaDelta only [id])

theorem execSlotComplete_only (a0 : Fin 64) (a1 : Fin 384) (a2 : Nat) (a3 : Nat) (a4 : Nat) (a5 : Nat) (s : State) :
    OnlyNext 71958542 s (execSlotComplete a0 a1 a2 a3 a4 a5 s) := by
  unfold execSlotComplete
  repeat' (first
    | with_reducible intro _
    | with_reducible apply Only.refl
    | with_reducible assumption
    | with_reducible apply OnlyNext.next
    | with_reducible apply Only.after (State.each_only ..)
    | with_reducible apply Only.step (missWhere_only ..)
    | with_reducible apply Only.step (State.modRadio_only ..)
    | with_reducible apply Only.step (State.emit_only ..)
    | with_reducible apply Only.step (calWindow_only ..)
    | with_reducible apply Only.step (sendMirror_only ..)
    | with_reducible apply Only.step (completeSlot_only ..)
    | with_reducible apply Only.step (dropSlotRun_only ..)
    | with_reducible apply Only.step (forgetBlocks_only ..)
    | with_reducible apply each_only
    | decide
    | fail_if_no_progress extract_lets
    | split
    | dsimp +zetaDelta only [id])

theorem execCalCoolantStale_only (a0 : Fin 64) (s : State) :
    OnlyNext 4194318 s (execCalCoolantStale a0 s) := by
  unfold execCalCoolantStale
  repeat' (first
    | with_reducible intro _
    | with_reducible apply Only.refl
    | with_reducible assumption
    | with_reducible apply OnlyNext.next
    | with_reducible apply Only.step (goStale_only ..)
    | decide
    | split
    | dsimp +zetaDelta only [id])

theorem execCalImport_only (a0 : CmdRef) (a1 : Fin 64) (a2 : SoakRecord) (s : State) :
    OnlyNext 74073102 s (execCalImport a0 a1 a2 s) := by
  unfold execCalImport
  repeat' (first
    | with_reducible intro _
    | with_reducible apply Only.refl
    | with_reducible assumption
    | with_reducible apply OnlyNext.next
    | with_reducible apply Only.after (startCmd_only ..)
    | with_reducible apply Only.step (complete_only ..)
    | with_reducible apply Only.step (State.modRadio_only ..)
    | with_reducible apply Only.step (setBudget_only ..)
    | with_reducible apply Only.step (State.setReg_only ..)
    | decide
    | fail_if_no_progress extract_lets
    | split
    | dsimp +zetaDelta only [id])

theorem execUplaneWindowClose_only (a0 : Fin 64) (a1 : Fin 384) (a2 : Nat) (a3 : Nat) (a4 : Fin 14) (a5 : Fin 128) (a6 : List Nat) (s : State) :
    OnlyNext 133120 s (execUplaneWindowClose a0 a1 a2 a3 a4 a5 a6 s) := by
  unfold execUplaneWindowClose
  repeat' (first
    | with_reducible intro _
    | with_reducible apply Only.refl
    | with_reducible assumption
    | with_reducible apply OnlyNext.next
    | with_reducible apply Only.step (State.setRadio_only ..)
    | with_reducible apply Only.step (setSlotRun_only ..)
    | with_reducible apply Only.step (sEvent_only ..)
    | decide
    | fail_if_no_progress extract_lets
    | split
    | dsimp +zetaDelta only [id])

theorem cutSlots_only (a0 : Nat) (a1 : Nat) (a2 : Int) (a3 : Bool) (s : State) :
    Only 4849674 s (cutSlots a0 a1 a2 a3 s) := by
  unfold cutSlots
  repeat' (first
    | with_reducible intro _
    | with_reducible apply Only.refl
    | with_reducible assumption
    | with_reducible apply Only.after (State.each_only ..)
    | with_reducible apply Only.step (dropSlotRun_only ..)
    | with_reducible apply Only.step (State.bump_only ..)
    | with_reducible apply Only.step (completeSlot_only ..)
    | with_reducible apply each_only
    | decide
    | fail_if_no_progress extract_lets
    | split
    | with_reducible apply Only.upd_host
    | dsimp +zetaDelta only [id])

theorem removeCell_only (a0 : Nat) (a1 : Nat) (s : State) :
    Only 131072 s (removeCell a0 a1 s) := by
  unfold removeCell
  repeat' (first
    | with_reducible intro _
    | with_reducible apply Only.refl
    | with_reducible assumption
    | with_reducible apply Only.step (State.setRadio_only ..)
    | decide
    | fail_if_no_progress extract_lets
    | dsimp +zetaDelta only [id])

theorem execSlotBoundary_only (a0 : Fin 64) (a1 : Fin 384) (s : State) :
    OnlyNext 4849674 s (execSlotBoundary a0 a1 s) := by
  unfold execSlotBoundary
  repeat' (first
    | with_reducible intro _
    | with_reducible apply Only.refl
    | with_reducible assumption
    | with_reducible apply OnlyNext.next
    | with_reducible apply Only.step (State.setRadio_only ..)
    | with_reducible apply Only.after (State.each_only ..)
    | with_reducible apply Only.step (completeSlot_only ..)
    | with_reducible apply Only.step (dropSlotRun_only ..)
    | with_reducible apply Only.step (removeCell_only ..)
    | with_reducible apply Only.step (cutSlots_only ..)
    | with_reducible apply Only.step (complete_only ..)
    | with_reducible apply each_only
    | decide
    | fail_if_no_progress extract_lets
    | split
    | dsimp +zetaDelta only [id])

theorem claimCore_only (a0 : Nat) (a1 : Nat) (a2 : Nat) (s : State) :
    Only 512 s (claimCore a0 a1 a2 s) := by
  unfold claimCore
  repeat' (first
    | with_reducible intro _
    | with_reducible apply Only.refl
    | with_reducible assumption
    | with_reducible apply Only.step (State.modCore_only ..)
    | with_reducible apply Only.step (askPreempt_only ..)
    | decide
    | fail_if_no_progress extract_lets
    | split
    | dsimp +zetaDelta only [id])

theorem countSurge_only (a0 : Nat) (s : State) :
    Only 8 s (countSurge a0 s) := by
  unfold countSurge
  repeat' (first
    | with_reducible intro _
    | with_reducible apply Only.refl
    | with_reducible assumption
    | with_reducible apply Only.step (State.setReg_only ..)
    | decide
    | dsimp +zetaDelta only [id])

theorem claimFrom_only (a0 : Nat) (a1 : Nat) (a2 : List (List Nat)) (s : State) :
    OnlyOptNat 512 s (claimFrom a0 a1 a2 s) := by
  unfold claimFrom
  repeat' (first
    | with_reducible intro _
    | with_reducible apply Only.refl
    | with_reducible assumption
    | with_reducible apply OnlyOptNat.some
    | with_reducible apply OnlyOptNat.none
    | with_reducible apply OnlyOptNat.map
    | with_reducible apply Only.step (claimCore_only ..)
    | decide
    | split
    | dsimp +zetaDelta only [id])

theorem execSurgeClaim_only (a0 : Fin 64) (a1 : Fin 384) (a2 : Nat) (a3 : Nat) (s : State) :
    OnlyNext 131584 s (execSurgeClaim a0 a1 a2 a3 s) := by
  unfold execSurgeClaim
  repeat' (first
    | with_reducible intro _
    | with_reducible apply Only.refl
    | with_reducible assumption
    | with_reducible apply OnlyNext.next
    | with_reducible apply Only.step (surgeServed_only ..)
    | with_reducible apply Only.step (State.setRadio_only ..)
    | with_reducible refine Only.step (OnlyOptNat.get (claimFrom_only ..) (by assumption)) (by decide) ?_
    | decide
    | fail_if_no_progress extract_lets
    | split
    | dsimp +zetaDelta only [id])

theorem giveBack_only (a0 : Nat) (s : State) :
    Only 8704 s (giveBack a0 s) := by
  unfold giveBack
  repeat' (first
    | with_reducible intro _
    | with_reducible apply Only.refl
    | with_reducible assumption
    | with_reducible apply Only.step (State.modCore_only ..)
    | with_reducible apply Only.step (choose_only ..)
    | decide
    | fail_if_no_progress extract_lets
    | split
    | dsimp +zetaDelta only [id])

theorem loadRadio_only (a0 : Nat) (a1 : Nat) (s : State) :
    Only 2097152 s (loadRadio a0 a1 s) := by
  unfold loadRadio
  repeat' (first
    | with_reducible intro _
    | with_reducible apply Only.refl
    | with_reducible assumption
    | with_reducible apply setRegion_wf
    | with_reducible apply writeBytes_wf
    | with_reducible apply spoilBytes_wf
    | with_reducible apply delFlips_wf
    | with_reducible apply wf_put_flips
    | with_reducible apply wf_del_flips
    | with_reducible apply memory_wf
    | with_reducible apply wf_spad
    | with_reducible apply wf_of_spad
    | with_reducible apply wf_imem
    | with_reducible apply wf_of_imem
    | with_reducible apply wf_dmem
    | with_reducible apply wf_of_dmem
    | with_reducible apply wf_simem
    | with_reducible apply wf_of_simem
    | with_reducible apply wf_hbm
    | with_reducible apply wf_of_hbm
    | with_reducible apply wf_buf
    | with_reducible apply wf_of_buf
    | with_reducible apply wf_tags
    | with_reducible apply wf_of_tags
    | with_reducible apply wf_bulk
    | with_reducible apply wf_of_bulk
    | with_reducible apply wf_empty
    | with_reducible apply wf_filter_cells
    | with_reducible apply forgetRange_wf
    | with_reducible apply foldl_wf
    | with_reducible apply spoilWord_wf
    | with_reducible apply copyRange_wf
    | rfl
    | decide
    | split
    | with_reducible apply wf_mem_mk
    | with_reducible apply Only.upd_mem
    | dsimp +zetaDelta only [id])

theorem execSurgeCoreReady_only (a0 : Fin 160) (s : State) :
    OnlyNext 2236936 s (execSurgeCoreReady a0 s) := by
  unfold execSurgeCoreReady
  repeat' (first
    | with_reducible intro _
    | with_reducible apply Only.refl
    | with_reducible assumption
    | with_reducible apply OnlyNext.next
    | with_reducible apply Only.step (giveBack_only ..)
    | with_reducible apply Only.step (State.modCore_only ..)
    | with_reducible apply Only.step (State.setRadio_only ..)
    | with_reducible apply Only.step (loadRadio_only ..)
    | with_reducible apply Only.step (countSurge_only ..)
    | with_reducible apply Only.step (surgeServed_only ..)
    | decide
    | fail_if_no_progress extract_lets
    | split
    | with_reducible apply wf_mem_mk
    | with_reducible apply wf_mk
    | with_reducible apply wf_cells
    | with_reducible apply wf_flips
    | with_reducible apply wf_flips_set
    | with_reducible apply all_filter
    | with_reducible apply tabSorted_filter
    | with_reducible apply foldl_set_wf
    | dsimp +zetaDelta only [id])

theorem execClaimLate_only (a0 : Fin 160) (s : State) :
    OnlyNext 4325898 s (execClaimLate a0 s) := by
  unfold execClaimLate
  repeat' (first
    | with_reducible intro _
    | with_reducible apply Only.refl
    | with_reducible assumption
    | with_reducible apply OnlyNext.next
    | with_reducible apply Only.step (State.raise_only ..)
    | with_reducible apply Only.step (State.bump_only ..)
    | with_reducible apply Only.step (State.setRadio_only ..)
    | with_reducible refine Only.step (OnlyOptNat.get (claimFrom_only ..) (by assumption)) (by decide) ?_
    | decide
    | fail_if_no_progress extract_lets
    | split
    | dsimp +zetaDelta only [id])

theorem execSurgeReturn_only (a0 : Fin 160) (s : State) :
    OnlyNext 139784 s (execSurgeReturn a0 s) := by
  unfold execSurgeReturn
  repeat' (first
    | with_reducible intro _
    | with_reducible apply Only.refl
    | with_reducible assumption
    | with_reducible apply OnlyNext.next
    | with_reducible apply Only.step (countSurge_only ..)
    | with_reducible apply Only.step (giveBack_only ..)
    | with_reducible apply Only.step (State.setRadio_only ..)
    | decide
    | fail_if_no_progress extract_lets
    | split
    | dsimp +zetaDelta only [id])

end Sys2Proof.Machine
end

