-- ==== Sys2Proof/Laws/OnlyServing.lean ====
section
/-! SUPPORT. What each operation of Machine/Serving.lean may touch: one lemma per operation, in the form of Laws/Only.lean. -/

namespace Sys2Proof.Machine

set_option linter.unusedTactic false
set_option linter.unreachableTactic false
set_option linter.unusedVariables false

theorem State.setStream_only (s : State) (a1 : Nat) (a2 : StreamRun) :
    Only 262144 s (State.setStream s a1 a2) := by
  unfold State.setStream
  repeat' (first
    | with_reducible intro _
    | with_reducible apply Only.refl
    | with_reducible assumption
    | decide
    | with_reducible apply Only.upd_serve
    | dsimp +zetaDelta only [id])

theorem State.setGroup_only (s : State) (a1 : Nat) (a2 : Nat) (a3 : ServeGroup) :
    Only 262144 s (State.setGroup s a1 a2 a3) := by
  unfold State.setGroup
  repeat' (first
    | with_reducible intro _
    | with_reducible apply Only.refl
    | with_reducible assumption
    | decide
    | with_reducible apply Only.upd_serve
    | dsimp +zetaDelta only [id])

theorem writeKvEntry_only (a0 : Nat) (a1 : Nat) (s : State) :
    Only 6291466 s (writeKvEntry a0 a1 s) := by
  unfold writeKvEntry
  repeat' (first
    | with_reducible intro _
    | with_reducible apply Only.refl
    | with_reducible assumption
    | with_reducible apply Only.step (structWrite_only ..)
    | decide
    | fail_if_no_progress extract_lets
    | dsimp +zetaDelta only [id])

theorem kvEntryTouch_only (a0 : Nat) (a1 : Nat) (s : State) :
    Only 4194314 s (kvEntryTouch a0 a1 s) := by
  unfold kvEntryTouch
  repeat' (first
    | with_reducible intro _
    | with_reducible apply Only.refl
    | with_reducible assumption
    | with_reducible apply Only.step (structTouch_only ..)
    | decide
    | fail_if_no_progress extract_lets
    | dsimp +zetaDelta only [id])

theorem recordTouch_only (a0 : Nat) (a1 : Nat) (s : State) :
    Only 4194314 s (recordTouch a0 a1 s) := by
  unfold recordTouch
  repeat' (first
    | with_reducible intro _
    | with_reducible apply Only.refl
    | with_reducible assumption
    | with_reducible apply Only.after (State.each_only ..)
    | with_reducible apply Only.step (structTouch_only ..)
    | with_reducible apply each_only
    | decide
    | dsimp +zetaDelta only [id])

theorem brokenTouch_only (a0 : Nat) (a1 : StreamRun) (s : State) :
    Only 4194314 s (brokenTouch a0 a1 s) := by
  unfold brokenTouch
  repeat' (first
    | with_reducible intro _
    | with_reducible apply Only.refl
    | with_reducible assumption
    | with_reducible apply Only.step (recordTouch_only ..)
    | with_reducible apply Only.after (State.each_only ..)
    | with_reducible apply Only.step (kvEntryTouch_only ..)
    | with_reducible apply each_only
    | decide
    | dsimp +zetaDelta only [id])

theorem watchKv_only {m : Nat} (a0 : Nat) (a1 : State → State) (s : State) (w : m ||| 4194314 = m) (h1 : ∀ u, Only m u (a1 u)) :
    Only m s (watchKv a0 a1 s) := by
  unfold watchKv
  repeat' (first
    | with_reducible intro _
    | with_reducible apply Only.refl
    | with_reducible assumption
    | with_reducible apply Only.step (State.raiseBits_only ..)
    | with_reducible apply Only.after (h1 ..)
    | with_reducible exact sub_of w (by decide)
    | with_reducible exact bit_of w (by decide)
    | decide
    | fail_if_no_progress extract_lets
    | split
    | dsimp +zetaDelta only [id])

theorem takeEntry_only (a0 : Nat) (a1 : Nat) (s : State) :
    OnlyOptNat 6553610 s (takeEntry a0 a1 s) := by
  unfold takeEntry
  repeat' (first
    | with_reducible intro _
    | with_reducible apply Only.refl
    | with_reducible assumption
    | with_reducible apply OnlyOptNat.some
    | with_reducible apply OnlyOptNat.none
    | with_reducible apply OnlyOptNat.map
    | with_reducible apply Only.step (writeKvEntry_only ..)
    | decide
    | with_reducible apply Only.upd_serve
    | dsimp +zetaDelta only [id])

theorem freeEntries_only (a0 : Nat) (a1 : List Nat) (s : State) :
    Only 6553610 s (freeEntries a0 a1 s) := by
  unfold freeEntries
  repeat' (first
    | with_reducible intro _
    | with_reducible apply Only.refl
    | with_reducible assumption
    | with_reducible apply Only.after (State.each_only ..)
    | with_reducible apply Only.step (writeKvEntry_only ..)
    | with_reducible apply each_only
    | decide
    | with_reducible apply Only.upd_serve
    | dsimp +zetaDelta only [id])

theorem listPage_only (a0 : StreamRun) (a1 : Nat) (a2 : Nat) (s : State) :
    Only 73417738 s (listPage a0 a1 a2 s) := by
  unfold listPage
  repeat' (first
    | with_reducible intro _
    | with_reducible apply Only.refl
    | with_reducible assumption
    | with_reducible apply Only.step (State.partWrite_only ..)
    | decide
    | dsimp +zetaDelta only [id])

theorem takePage_only (a0 : Nat) (s : State) :
    Only 73679882 s (takePage a0 s) := by
  unfold takePage
  repeat' (first
    | with_reducible intro _
    | with_reducible apply Only.refl
    | with_reducible assumption
    | with_reducible apply Only.step (State.setStream_only ..)
    | with_reducible apply Only.step (listPage_only ..)
    | with_reducible refine Only.step (OnlyOptNat.get (takeEntry_only ..) (by assumption)) (by decide) ?_
    | decide
    | split
    | dsimp +zetaDelta only [id])

theorem execKvBind_only (a0 : CmdRef) (a1 : BitVec 16) (a2 : Nat) (a3 : Nat) (s : State) :
    OnlyNext 74204170 s (execKvBind a0 a1 a2 a3 s) := by
  unfold execKvBind
  repeat' (first
    | with_reducible intro _
    | with_reducible apply Only.refl
    | with_reducible assumption
    | with_reducible apply OnlyNext.next
    | with_reducible apply Only.after (startCmd_only ..)
    | with_reducible apply Only.step (complete_only ..)
    | decide
    | fail_if_no_progress extract_lets
    | split
    | with_reducible apply Only.upd_serve
    | dsimp +zetaDelta only [id])

theorem execKvRelease_only (a0 : CmdRef) (a1 : Nat) (s : State) :
    OnlyNext 74204170 s (execKvRelease a0 a1 s) := by
  unfold execKvRelease
  repeat' (first
    | with_reducible intro _
    | with_reducible apply Only.refl
    | with_reducible assumption
    | with_reducible apply OnlyNext.next
    | with_reducible apply Only.after (startCmd_only ..)
    | with_reducible apply Only.step (complete_only ..)
    | with_reducible apply Only.step (freeEntries_only ..)
    | decide
    | split
    | dsimp +zetaDelta only [id])

theorem execServeGroup_only (a0 : CmdRef) (a1 : HostData) (s : State) :
    OnlyNext 74204174 s (execServeGroup a0 a1 s) := by
  unfold execServeGroup
  repeat' (first
    | with_reducible intro _
    | with_reducible apply Only.refl
    | with_reducible assumption
    | with_reducible apply OnlyNext.next
    | with_reducible apply Only.after (startCmd_only ..)
    | with_reducible apply Only.step (complete_only ..)
    | with_reducible apply Only.after (withData_only ..)
    | with_reducible apply Only.step (State.setGroup_only ..)
    | decide
    | fail_if_no_progress extract_lets
    | split
    | dsimp +zetaDelta only [id])

theorem streamCmd_only {m : Nat} (a0 : Nat) (a1 : List (Prod Nat (Prod Nat Nat))) (a2 : Cmd) (a3 : Nat → State → State) (s : State) (w : m ||| 4718594 = m) (h3 : ∀ x0 u, Only m u (a3 x0 u)) :
    Only m s (streamCmd a0 a1 a2 a3 s) := by
  unfold streamCmd
  repeat' (first
    | with_reducible intro _
    | with_reducible apply Only.refl
    | with_reducible assumption
    | with_reducible apply Only.step (complete_only ..)
    | with_reducible apply Only.after (h3 ..)
    | with_reducible exact sub_of w (by decide)
    | with_reducible exact bit_of w (by decide)
    | decide
    | fail_if_no_progress extract_lets
    | split
    | dsimp +zetaDelta only [id])

theorem execStreamOpen_only (a0 : CmdRef) (a1 : HostData) (s : State) :
    OnlyNext 74204174 s (execStreamOpen a0 a1 s) := by
  unfold execStreamOpen
  repeat' (first
    | with_reducible intro _
    | with_reducible apply Only.refl
    | with_reducible assumption
    | with_reducible apply OnlyNext.next
    | with_reducible apply Only.after (startCmd_only ..)
    | with_reducible apply Only.after (streamCmd_only ..)
    | with_reducible apply Only.after (withData_only ..)
    | with_reducible apply Only.step (complete_only ..)
    | with_reducible apply Only.step (recordSeed_only ..)
    | with_reducible apply Only.step (State.partTouch_only ..)
    | with_reducible apply Only.step (State.setStream_only ..)
    | decide
    | fail_if_no_progress extract_lets
    | split
    | with_reducible apply Only.upd_serve
    | dsimp +zetaDelta only [id])

theorem emitRecord_only (a0 : Nat) (a1 : TokenRec) (s : State) :
    Only 786432 s (emitRecord a0 a1 s) := by
  unfold emitRecord
  repeat' (first
    | with_reducible intro _
    | with_reducible apply Only.refl
    | with_reducible assumption
    | with_reducible apply Only.step (State.setStream_only ..)
    | with_reducible apply Only.step (State.setGroup_only ..)
    | with_reducible apply Only.step (noteOutput_only ..)
    | decide
    | fail_if_no_progress extract_lets
    | split
    | dsimp +zetaDelta only [id])

theorem endStream_only (a0 : Nat) (a1 : Nat) (a2 : Nat) (a3 : Nat) (a4 : Nat) (a5 : Option Nat) (s : State) :
    Only 4980738 s (endStream a0 a1 a2 a3 a4 a5 s) := by
  unfold endStream
  repeat' (first
    | with_reducible intro _
    | with_reducible apply Only.refl
    | with_reducible assumption
    | with_reducible apply Only.step (State.setStream_only ..)
    | with_reducible apply Only.step (emitRecord_only ..)
    | with_reducible apply Only.after (State.each_only ..)
    | with_reducible apply Only.step (complete_only ..)
    | with_reducible apply each_only
    | decide
    | fail_if_no_progress extract_lets
    | split
    | with_reducible apply Only.upd_serve
    | dsimp +zetaDelta only [id])

theorem freeStream_only (a0 : Nat) (s : State) :
    Only 6553610 s (freeStream a0 s) := by
  unfold freeStream
  repeat' (first
    | with_reducible intro _
    | with_reducible apply Only.refl
    | with_reducible assumption
    | with_reducible apply Only.step (freeEntries_only ..)
    | decide
    | fail_if_no_progress extract_lets
    | split
    | with_reducible apply Only.upd_serve
    | dsimp +zetaDelta only [id])

theorem execStreamClose_only (a0 : CmdRef) (s : State) :
    OnlyNext 74204170 s (execStreamClose a0 s) := by
  unfold execStreamClose
  repeat' (first
    | with_reducible intro _
    | with_reducible apply Only.refl
    | with_reducible assumption
    | with_reducible apply OnlyNext.next
    | with_reducible apply Only.after (startCmd_only ..)
    | with_reducible apply Only.after (streamCmd_only ..)
    | with_reducible apply Only.step (complete_only ..)
    | with_reducible apply Only.step (State.setStream_only ..)
    | with_reducible apply Only.step (markStarted_only ..)
    | with_reducible apply Only.after (watchKv_only ..)
    | with_reducible apply Only.step (endStream_only ..)
    | decide
    | fail_if_no_progress extract_lets
    | split
    | dsimp +zetaDelta only [id])

theorem joinDecode_only (a0 : Nat) (s : State) :
    Only 262144 s (joinDecode a0 s) := by
  unfold joinDecode
  repeat' (first
    | with_reducible intro _
    | with_reducible apply Only.refl
    | with_reducible assumption
    | with_reducible apply Only.step (State.setStream_only ..)
    | with_reducible apply foldl_only
    | with_reducible apply foldl_pair_only
    | decide
    | fail_if_no_progress extract_lets
    | split
    | dsimp +zetaDelta only [id])

theorem holdBoundary_only (a0 : Nat) (s : State) :
    Only 262144 s (holdBoundary a0 s) := by
  unfold holdBoundary
  repeat' (first
    | with_reducible intro _
    | with_reducible apply Only.refl
    | with_reducible assumption
    | with_reducible apply Only.step (State.setStream_only ..)
    | with_reducible apply Only.step (joinDecode_only ..)
    | decide
    | fail_if_no_progress extract_lets
    | split
    | dsimp +zetaDelta only [id])

theorem streamHold_only (a0 : Bool) (a1 : Cmd) (s : State) :
    Only 4980738 s (streamHold a0 a1 s) := by
  unfold streamHold
  repeat' (first
    | with_reducible intro _
    | with_reducible apply Only.refl
    | with_reducible assumption
    | with_reducible apply Only.after (streamCmd_only ..)
    | with_reducible apply Only.step (complete_only ..)
    | with_reducible apply Only.step (State.setStream_only ..)
    | with_reducible apply Only.step (holdBoundary_only ..)
    | decide
    | fail_if_no_progress extract_lets
    | split
    | dsimp +zetaDelta only [id])

theorem execStreamHold_only (a0 : CmdRef) (s : State) :
    OnlyNext 74204170 s (execStreamHold a0 s) := by
  unfold execStreamHold
  repeat' (first
    | with_reducible intro _
    | with_reducible apply Only.refl
    | with_reducible assumption
    | with_reducible apply OnlyNext.next
    | with_reducible apply Only.after (startCmd_only ..)
    | with_reducible apply Only.step (streamHold_only ..)
    | decide
    | dsimp +zetaDelta only [id])

theorem execStreamRelease_only (a0 : CmdRef) (s : State) :
    OnlyNext 74204170 s (execStreamRelease a0 s) := by
  unfold execStreamRelease
  repeat' (first
    | with_reducible intro _
    | with_reducible apply Only.refl
    | with_reducible assumption
    | with_reducible apply OnlyNext.next
    | with_reducible apply Only.after (startCmd_only ..)
    | with_reducible apply Only.step (streamHold_only ..)
    | decide
    | dsimp +zetaDelta only [id])

theorem execStreamQuery_only (a0 : CmdRef) (s : State) :
    OnlyNext 73942026 s (execStreamQuery a0 s) := by
  unfold execStreamQuery
  repeat' (first
    | with_reducible intro _
    | with_reducible apply Only.refl
    | with_reducible assumption
    | with_reducible apply OnlyNext.next
    | with_reducible apply Only.after (startCmd_only ..)
    | with_reducible apply Only.after (streamCmd_only ..)
    | with_reducible apply Only.step (complete_only ..)
    | with_reducible apply Only.step (writeData_only ..)
    | decide
    | split
    | dsimp +zetaDelta only [id])

theorem inRound_only {m : Nat} (a0 : Nat) (a1 : Prod Nat Nat) (a2 : State → State) (s : State) (w : m ||| 65544 = m) (h2 : ∀ u, Only m u (a2 u)) :
    Only m s (inRound a0 a1 a2 s) := by
  unfold inRound
  repeat' (first
    | with_reducible intro _
    | with_reducible apply Only.refl
    | with_reducible assumption
    | with_reducible apply Only.step (State.addReg_only ..)
    | with_reducible apply Only.after (h2 ..)
    | with_reducible exact sub_of w (by decide)
    | with_reducible exact bit_of w (by decide)
    | decide
    | fail_if_no_progress extract_lets
    | split
    | with_reducible apply Only.upd_parts
    | dsimp +zetaDelta only [id])

theorem loadKey_only (a0 : List Nat) (a1 : Option StreamRun) (s : State) :
    Only 520 s (loadKey a0 a1 s) := by
  unfold loadKey
  repeat' (first
    | with_reducible intro _
    | with_reducible apply Only.refl
    | with_reducible assumption
    | with_reducible apply Only.after (State.each_only ..)
    | with_reducible apply Only.step (State.modCore_only ..)
    | with_reducible apply Only.step (State.setReg_only ..)
    | with_reducible apply each_only
    | decide
    | fail_if_no_progress extract_lets
    | split
    | dsimp +zetaDelta only [id])

theorem prefillTurn_only (a0 : Nat) (a1 : ServeGroup) (r : Prod State (Prod Nat (Prod (List (Prod Nat Nat)) Bool))) (a3 : Prod Nat StreamRun) :
    Only 73679882 r.1 (prefillTurn a0 a1 r a3).1 := by
  unfold prefillTurn
  repeat' (first
    | with_reducible intro _
    | with_reducible apply Only.refl
    | with_reducible assumption
    | with_reducible apply Only.after (State.each_only ..)
    | with_reducible apply Only.step (takePage_only ..)
    | with_reducible apply Only.step (State.setStream_only ..)
    | with_reducible apply each_only
    | decide
    | fail_if_no_progress extract_lets
    | split
    | dsimp +zetaDelta only [id])

theorem execPrefillStepCompose_only (a0 : Fin 64) (a1 : Fin 8) (s : State) :
    OnlyNext 73745930 s (execPrefillStepCompose a0 a1 s) := by
  unfold execPrefillStepCompose
  repeat' (first
    | with_reducible intro _
    | with_reducible apply Only.refl
    | with_reducible assumption
    | with_reducible apply OnlyNext.next
    | with_reducible apply Only.after (inRound_only ..)
    | with_reducible apply Only.step (prefillTurn_only ..)
    | with_reducible apply Only.step (loadKey_only ..)
    | with_reducible apply Only.step (State.setGroup_only ..)
    | with_reducible refine Only.step (Only.pair (prefillTurn_only ..) (by assumption)) (by decide) ?_
    | with_reducible apply foldl_only
    | with_reducible apply foldl_pair_only
    | decide
    | fail_if_no_progress extract_lets
    | split
    | dsimp +zetaDelta only [id])

theorem decodeTurn_only (a0 : Nat) (a1 : Nat) (r : Prod State (List Nat)) (a3 : Prod Nat StreamRun) :
    Only 73679882 r.1 (decodeTurn a0 a1 r a3).1 := by
  unfold decodeTurn
  repeat' (first
    | with_reducible intro _
    | with_reducible apply Only.refl
    | with_reducible assumption
    | with_reducible apply Only.step (State.setStream_only ..)
    | with_reducible apply Only.step (State.bump_only ..)
    | with_reducible apply Only.step (takePage_only ..)
    | decide
    | fail_if_no_progress extract_lets
    | split
    | dsimp +zetaDelta only [id])

theorem execDecodeStepCompose_only (a0 : Fin 64) (a1 : Fin 8) (a2 : Fin 64) (s : State) :
    OnlyNext 73745930 s (execDecodeStepCompose a0 a1 a2 s) := by
  unfold execDecodeStepCompose
  repeat' (first
    | with_reducible intro _
    | with_reducible apply Only.refl
    | with_reducible assumption
    | with_reducible apply OnlyNext.next
    | with_reducible apply Only.after (inRound_only ..)
    | with_reducible apply Only.after (watchKv_only ..)
    | with_reducible apply Only.step (decodeTurn_only ..)
    | with_reducible apply Only.step (loadKey_only ..)
    | with_reducible apply Only.step (State.setGroup_only ..)
    | with_reducible refine Only.step (Only.pair (decodeTurn_only ..) (by assumption)) (by decide) ?_
    | with_reducible apply foldl_only
    | with_reducible apply foldl_pair_only
    | decide
    | fail_if_no_progress extract_lets
    | split
    | dsimp +zetaDelta only [id])

theorem writeToken_only (a0 : Nat) (a1 : Nat) (s : State) :
    Only 73417742 s (writeToken a0 a1 s) := by
  unfold writeToken
  repeat' (first
    | with_reducible intro _
    | with_reducible apply Only.refl
    | with_reducible assumption
    | with_reducible apply Only.after (State.each_only ..)
    | with_reducible apply Only.step (State.usedFree_only ..)
    | with_reducible apply Only.step (State.partWrite_only ..)
    | with_reducible apply each_only
    | decide
    | fail_if_no_progress extract_lets
    | split
    | dsimp +zetaDelta only [id])

theorem writePrefill_only (a0 : ServeGroup) (a1 : List (Prod Nat Nat)) (s : State) :
    Only 73417742 s (writePrefill a0 a1 s) := by
  unfold writePrefill
  repeat' (first
    | with_reducible intro _
    | with_reducible apply Only.refl
    | with_reducible assumption
    | with_reducible apply Only.after (State.each_only ..)
    | with_reducible apply Only.step (writeToken_only ..)
    | with_reducible apply each_only
    | decide
    | fail_if_no_progress extract_lets
    | dsimp +zetaDelta only [id])

theorem prefillEnd_only (a0 : Prod Nat Nat) (s : State) :
    Only 4980738 s (prefillEnd a0 s) := by
  unfold prefillEnd
  repeat' (first
    | with_reducible intro _
    | with_reducible apply Only.refl
    | with_reducible assumption
    | with_reducible apply Only.step (holdBoundary_only ..)
    | with_reducible apply Only.step (State.setStream_only ..)
    | with_reducible apply Only.step (endStream_only ..)
    | decide
    | fail_if_no_progress extract_lets
    | split
    | dsimp +zetaDelta only [id])

theorem decodeEnd_only (a0 : Nat) (a1 : List LogitRow) (a2 : Nat) (s : State) :
    Only 74204174 s (decodeEnd a0 a1 a2 s) := by
  unfold decodeEnd
  repeat' (first
    | with_reducible intro _
    | with_reducible apply Only.refl
    | with_reducible assumption
    | with_reducible apply Only.step (holdBoundary_only ..)
    | with_reducible apply Only.step (State.setStream_only ..)
    | with_reducible apply Only.after (State.each_only ..)
    | with_reducible apply Only.after (State.when_only ..)
    | with_reducible apply Only.step (brokenTouch_only ..)
    | with_reducible apply Only.step (writeToken_only ..)
    | with_reducible apply Only.step (endStream_only ..)
    | with_reducible apply Only.step (State.raise_only ..)
    | with_reducible apply Only.step (emitRecord_only ..)
    | with_reducible apply each_only
    | with_reducible apply when_only
    | decide
    | fail_if_no_progress extract_lets
    | split
    | dsimp +zetaDelta only [id])

theorem leaveStep_only (a0 : List Nat) (s : State) :
    Only 512 s (leaveStep a0 s) := by
  unfold leaveStep
  repeat' (first
    | with_reducible intro _
    | with_reducible apply Only.refl
    | with_reducible assumption
    | with_reducible apply Only.after (State.each_only ..)
    | with_reducible apply Only.step (State.modCore_only ..)
    | with_reducible apply each_only
    | decide
    | dsimp +zetaDelta only [id])

theorem execServeStepDone_only (a0 : Fin 64) (a1 : Fin 8) (a2 : ServeStep) (a3 : List LogitRow) (s : State) :
    OnlyNext 74204686 s (execServeStepDone a0 a1 a2 a3 s) := by
  unfold execServeStepDone
  repeat' (first
    | with_reducible intro _
    | with_reducible apply Only.refl
    | with_reducible assumption
    | with_reducible apply OnlyNext.next
    | with_reducible apply Only.after (watchKv_only ..)
    | with_reducible apply Only.step (leaveStep_only ..)
    | with_reducible apply Only.after (State.each_only ..)
    | with_reducible apply Only.step (writePrefill_only ..)
    | with_reducible apply Only.step (prefillEnd_only ..)
    | with_reducible apply Only.step (State.setGroup_only ..)
    | with_reducible apply Only.step (decodeEnd_only ..)
    | with_reducible apply each_only
    | decide
    | split
    | dsimp +zetaDelta only [id])

theorem pageTouch_only (a0 : Nat) (a1 : Nat) (s : State) :
    Only 6308878 s (pageTouch a0 a1 s) := by
  unfold pageTouch
  repeat' (first
    | with_reducible intro _
    | with_reducible apply Only.refl
    | with_reducible assumption
    | with_reducible apply Only.step (State.partTouch_only ..)
    | decide
    | split
    | dsimp +zetaDelta only [id])

theorem copyKvPage_only (a0 : Nat) (a1 : Nat) (a2 : Nat) (a3 : Bool) (a4 : Bool) (s : State) :
    Only 73417742 s (copyKvPage a0 a1 a2 a3 a4 s) := by
  unfold copyKvPage
  repeat' (first
    | with_reducible intro _
    | with_reducible apply Only.refl
    | with_reducible assumption
    | with_reducible apply Only.step (State.usedFree_only ..)
    | with_reducible apply Only.step (State.partWrite_only ..)
    | with_reducible apply Only.step (pageTouch_only ..)
    | decide
    | fail_if_no_progress extract_lets
    | split
    | dsimp +zetaDelta only [id])

theorem movePage_only (a0 : Nat) (a1 : Nat) (a2 : Bool) (a3 : Bool) (s : State) :
    OnlyOpt 73679886 s (movePage a0 a1 a2 a3 s) := by
  unfold movePage
  repeat' (first
    | with_reducible intro _
    | with_reducible apply Only.refl
    | with_reducible assumption
    | with_reducible apply OnlyOpt.some
    | with_reducible apply OnlyOpt.none
    | with_reducible apply OnlyOpt.map
    | with_reducible apply Only.step (listPage_only ..)
    | with_reducible apply Only.step (copyKvPage_only ..)
    | with_reducible apply Only.step (State.addReg_only ..)
    | with_reducible apply Only.step (freeEntries_only ..)
    | with_reducible apply Only.step (State.setStream_only ..)
    | with_reducible refine Only.step (OnlyOptNat.get (takeEntry_only ..) (by assumption)) (by decide) ?_
    | decide
    | fail_if_no_progress extract_lets
    | split
    | dsimp +zetaDelta only [id])

theorem execReshardPage_only (a0 : Fin 64) (a1 : Fin 65536) (s : State) :
    OnlyNext 73679886 s (execReshardPage a0 a1 s) := by
  unfold execReshardPage
  repeat' (first
    | with_reducible intro _
    | with_reducible apply Only.refl
    | with_reducible assumption
    | with_reducible apply OnlyNext.next
    | with_reducible apply Only.step (pageTouch_only ..)
    | with_reducible apply Only.step (State.bump_only ..)
    | with_reducible apply Only.step (State.setStream_only ..)
    | with_reducible refine Only.step (OnlyOpt.get (movePage_only ..) (by assumption)) (by decide) ?_
    | decide
    | split
    | dsimp +zetaDelta only [id])

theorem execReshardDone_only (a0 : Fin 64) (a1 : Fin 65536) (s : State) :
    OnlyNext 4456458 s (execReshardDone a0 a1 s) := by
  unfold execReshardDone
  repeat' (first
    | with_reducible intro _
    | with_reducible apply Only.refl
    | with_reducible assumption
    | with_reducible apply OnlyNext.next
    | with_reducible apply Only.step (State.setStream_only ..)
    | with_reducible apply Only.after (watchKv_only ..)
    | with_reducible apply Only.step (joinDecode_only ..)
    | decide
    | fail_if_no_progress extract_lets
    | split
    | dsimp +zetaDelta only [id])

theorem execReshard_only (a0 : CmdRef) (a1 : BitVec 16) (a2 : Fin 8) (s : State) :
    OnlyNext 74204170 s (execReshard a0 a1 a2 s) := by
  unfold execReshard
  repeat' (first
    | with_reducible intro _
    | with_reducible apply Only.refl
    | with_reducible assumption
    | with_reducible apply OnlyNext.next
    | with_reducible apply Only.after (startCmd_only ..)
    | with_reducible apply Only.step (complete_only ..)
    | with_reducible apply Only.step (State.setStream_only ..)
    | with_reducible apply Only.step (joinDecode_only ..)
    | with_reducible apply Only.step (startLong_only ..)
    | decide
    | fail_if_no_progress extract_lets
    | split
    | dsimp +zetaDelta only [id])

theorem reshardChunk_only (a0 : LongOp) (a1 : Nat) (s : State) :
    Only 74204174 s (reshardChunk a0 a1 s) := by
  unfold reshardChunk
  repeat' (first
    | with_reducible intro _
    | with_reducible apply Only.refl
    | with_reducible assumption
    | with_reducible apply Only.step (endLong_only ..)
    | with_reducible apply Only.after (State.each_only ..)
    | with_reducible apply Only.step (pageTouch_only ..)
    | with_reducible apply Only.step (State.bump_only ..)
    | with_reducible apply Only.step (State.setStream_only ..)
    | with_reducible apply Only.step (joinDecode_only ..)
    | with_reducible apply Only.step (chunkDone_only ..)
    | with_reducible refine Only.step (OnlyOpt.get (movePage_only ..) (by assumption)) (by decide) ?_
    | with_reducible apply each_only
    | with_reducible apply foldl_only
    | with_reducible apply foldl_pair_only
    | decide
    | fail_if_no_progress extract_lets
    | split
    | dsimp +zetaDelta only [id])

theorem recordTaken_only (a0 : Nat) (s : State) :
    Only 6553610 s (recordTaken a0 s) := by
  unfold recordTaken
  repeat' (first
    | with_reducible intro _
    | with_reducible apply Only.refl
    | with_reducible assumption
    | with_reducible apply Only.after (watchKv_only ..)
    | with_reducible apply Only.step (freeStream_only ..)
    | with_reducible apply Only.step (State.setStream_only ..)
    | with_reducible apply Only.step (joinDecode_only ..)
    | decide
    | fail_if_no_progress extract_lets
    | split
    | dsimp +zetaDelta only [id])

theorem recordToCq_only (a0 : Nat) (a1 : StreamRun) (a2 : TokenRec) (a3 : Bool) (s : State) :
    Only 6553610 s (recordToCq a0 a1 a2 a3 s) := by
  unfold recordToCq
  repeat' (first
    | with_reducible intro _
    | with_reducible apply Only.refl
    | with_reducible assumption
    | with_reducible apply Only.step (recordTaken_only ..)
    | with_reducible apply Only.step (State.emit_only ..)
    | with_reducible apply Only.step (State.error_only ..)
    | with_reducible apply Only.step (writeEntry_only ..)
    | decide
    | fail_if_no_progress extract_lets
    | split
    | dsimp +zetaDelta only [id])

end Sys2Proof.Machine
end

