-- ==== Sys2Proof/Laws/OnlyBlob.lean ====
section
/-! SUPPORT. What each operation of Machine/Blob.lean may touch: one lemma per operation, in the form of Laws/Only.lean. -/

namespace Sys2Proof.Machine

set_option linter.unusedTactic false
set_option linter.unreachableTactic false
set_option linter.unusedVariables false

theorem writeCellAt_wf {r : Region} {k : Nat} {b : Byte} {m : Memory} (h : m.wf = true) : (layPage.writeCellAt r k b m).wf = true :=
  wf_mk (tabWf_set _ _ _ (wf_cells h)) (tabWf_del _ _ (wf_flips h)) (all_del _ (wf_flips_set h))

theorem tabInto_wf {α : Type} {b n : Nat} {x t : Table α} (h : tabWf t = true) : tabWf (tabInto b n x t) = true :=
  foldl_set_wf (tabSorted_filter _ h)

theorem layPage_only (a0 : PageEntry) (a1 : List Host.Cell) (s : State) :
    Only 2097152 s (layPage a0 a1 s) := by
  unfold layPage
  repeat' (first
    | with_reducible intro _
    | with_reducible apply Only.refl
    | with_reducible assumption
    | with_reducible apply Only.after (State.each_only ..)
    | with_reducible apply setRegion_wf
    | with_reducible apply writeBytes_wf
    | with_reducible apply spoilBytes_wf
    | with_reducible apply delFlips_wf
    | with_reducible apply wf_put_flips
    | with_reducible apply wf_del_flips
    | with_reducible apply memory_wf
    | with_reducible apply wf_spad
    | with_reducible apply wf_of_spad
    | with_reducible apply wf_imem
    | with_reducible apply wf_of_imem
    | with_reducible apply wf_dmem
    | with_reducible apply wf_of_dmem
    | with_reducible apply wf_simem
    | with_reducible apply wf_of_simem
    | with_reducible apply wf_hbm
    | with_reducible apply wf_of_hbm
    | with_reducible apply wf_buf
    | with_reducible apply wf_of_buf
    | with_reducible apply wf_tags
    | with_reducible apply wf_of_tags
    | with_reducible apply wf_bulk
    | with_reducible apply wf_of_bulk
    | with_reducible apply wf_empty
    | with_reducible apply wf_filter_cells
    | with_reducible apply forgetRange_wf
    | with_reducible apply foldl_wf
    | with_reducible apply spoilWord_wf
    | with_reducible apply each_only
    | with_reducible apply writeCellAt_wf
    | decide
    | split
    | with_reducible apply Only.upd_mem
    | dsimp +zetaDelta only [id])

theorem layBlob_only (a0 : Nat) (a1 : PartBlob) (s : State) :
    Only 73692170 s (layBlob a0 a1 s) := by
  unfold layBlob
  repeat' (first
    | with_reducible intro _
    | with_reducible apply Only.refl
    | with_reducible assumption
    | with_reducible apply Only.step (State.setReg_only ..)
    | with_reducible apply Only.after (State.each_only ..)
    | with_reducible apply Only.step (layPage_only ..)
    | with_reducible apply Only.step (clearFrame_only ..)
    | with_reducible apply Only.step (State.writeCtx_only ..)
    | with_reducible apply Only.step (State.partWrite_only ..)
    | with_reducible apply Only.step (listPage_only ..)
    | with_reducible apply fieldSet_wf
    | with_reducible apply each_only
    | with_reducible apply foldl_only
    | with_reducible apply foldl_pair_only
    | with_reducible apply tabInto_wf
    | decide
    | fail_if_no_progress extract_lets
    | split
    | with_reducible apply Only.upd_regs
    | with_reducible apply Only.upd_sems_ctxs_tier_serve_host
    | with_reducible apply Only.upd_tier
    | dsimp +zetaDelta only [id])

end Sys2Proof.Machine
end

