-- ==== Sys2Proof/Laws/OnlyCoding.lean ====
section
/-! SUPPORT. What each operation of Machine/Coding.lean may touch: one lemma per operation, in the form of Laws/Only.lean. -/

namespace Sys2Proof.Machine

set_option linter.unusedTactic false
set_option linter.unreachableTactic false
set_option linter.unusedVariables false

theorem execIssueCoding_only (a0 : Fin 160) (a1 : IssueWord) (s : State) :
    OnlyNext 73426446 s (execIssueCoding a0 a1 s) := by
  unfold execIssueCoding
  repeat' (first
    | with_reducible intro _
    | with_reducible apply Only.refl
    | with_reducible assumption
    | with_reducible apply OnlyNext.next
    | with_reducible apply Only.after (runInsn_only ..)
    | with_reducible apply Only.step (issueBody_only ..)
    | decide
    | dsimp +zetaDelta only [id])

theorem setCodingQueue_only (a0 : Nat) (a1 : List CodingItem) (s : State) :
    Only 32776 s (setCodingQueue a0 a1 s) := by
  unfold setCodingQueue
  repeat' (first
    | with_reducible intro _
    | with_reducible apply Only.refl
    | with_reducible assumption
    | with_reducible apply Only.step (State.setReg_only ..)
    | decide
    | with_reducible apply Only.upd_coding
    | dsimp +zetaDelta only [id])

theorem execCodingQueueAdmit_only (a0 : Fin 160) (s : State) :
    OnlyNext 33288 s (execCodingQueueAdmit a0 s) := by
  unfold execCodingQueueAdmit
  repeat' (first
    | with_reducible intro _
    | with_reducible apply Only.refl
    | with_reducible assumption
    | with_reducible apply OnlyNext.next
    | with_reducible apply Only.step (setCodingQueue_only ..)
    | with_reducible apply Only.step (State.setCore_only ..)
    | decide
    | fail_if_no_progress extract_lets
    | split
    | dsimp +zetaDelta only [id])

theorem noteResult_only (a0 : Nat) (a1 : Nat) (a2 : Nat) (s : State) :
    Only 131072 s (noteResult a0 a1 a2 s) := by
  unfold noteResult
  repeat' (first
    | with_reducible intro _
    | with_reducible apply Only.refl
    | with_reducible assumption
    | decide
    | split
    | with_reducible apply Only.upd_radio
    | dsimp +zetaDelta only [id])

theorem completeCoding_only (a0 : Nat) (a1 : CodingItem) (a2 : CodingStatus) (s : State) :
    Only 73549322 s (completeCoding a0 a1 a2 s) := by
  unfold completeCoding
  repeat' (first
    | with_reducible intro _
    | with_reducible apply Only.refl
    | with_reducible assumption
    | with_reducible apply Only.step (State.partStore_only ..)
    | with_reducible apply Only.step (State.error_only ..)
    | with_reducible apply Only.step (noteResult_only ..)
    | with_reducible apply Only.step (State.raise_only ..)
    | with_reducible apply Only.step (State.bump_only ..)
    | with_reducible apply Only.step (State.modCore_only ..)
    | decide
    | fail_if_no_progress extract_lets
    | split
    | dsimp +zetaDelta only [id])

theorem execCodingDescriptorStart_only (a0 : CodingEngine) (a1 : Bool) (s : State) :
    OnlyNext 73582090 s (execCodingDescriptorStart a0 a1 s) := by
  unfold execCodingDescriptorStart
  repeat' (first
    | with_reducible intro _
    | with_reducible apply Only.refl
    | with_reducible assumption
    | with_reducible apply OnlyNext.next
    | with_reducible apply Only.step (setCodingQueue_only ..)
    | with_reducible apply Only.step (completeCoding_only ..)
    | decide
    | fail_if_no_progress extract_lets
    | split
    | with_reducible apply Only.upd_coding
    | dsimp +zetaDelta only [id])

theorem addBusy_only (a0 : Nat) (a1 : Nat) (s : State) :
    Only 8 s (addBusy a0 a1 s) := by
  unfold addBusy
  repeat' (first
    | with_reducible intro _
    | with_reducible apply Only.refl
    | with_reducible assumption
    | with_reducible apply Only.step (State.addReg_only ..)
    | decide
    | split
    | dsimp +zetaDelta only [id])

theorem finishCoding_only (a0 : Nat) (a1 : CodingItem) (a2 : Nat) (a3 : CodingStatus) (s : State) :
    Only 73582090 s (finishCoding a0 a1 a2 a3 s) := by
  unfold finishCoding
  repeat' (first
    | with_reducible intro _
    | with_reducible apply Only.refl
    | with_reducible assumption
    | with_reducible apply Only.step (addBusy_only ..)
    | with_reducible apply Only.step (completeCoding_only ..)
    | decide
    | fail_if_no_progress extract_lets
    | with_reducible apply Only.upd_coding
    | dsimp +zetaDelta only [id])

theorem execCodingDescriptorDone_only (a0 : CodingEngine) (s : State) :
    OnlyNext 73582094 s (execCodingDescriptorDone a0 s) := by
  unfold execCodingDescriptorDone
  repeat' (first
    | with_reducible intro _
    | with_reducible apply Only.refl
    | with_reducible assumption
    | with_reducible apply OnlyNext.next
    | with_reducible apply Only.step (finishCoding_only ..)
    | with_reducible apply Only.step (State.faultTouch_only ..)
    | with_reducible apply Only.step (State.error_only ..)
    | with_reducible apply Only.step (State.partTouch_only ..)
    | with_reducible apply Only.after (State.each_only ..)
    | with_reducible apply Only.step (State.usedFree_only ..)
    | with_reducible apply Only.step (State.partStore_only ..)
    | with_reducible apply each_only
    | decide
    | fail_if_no_progress extract_lets
    | split
    | dsimp +zetaDelta only [id])

theorem execCodeOwnerWrite_only (a0 : Requester) (a1 : CodingEngine) (a2 : BitVec 32) (s : State) :
    OnlyNext 4227082 s (execCodeOwnerWrite a0 a1 a2 s) := by
  unfold execCodeOwnerWrite
  repeat' (first
    | with_reducible intro _
    | with_reducible apply Only.refl
    | with_reducible assumption
    | with_reducible apply OnlyNext.next
    | with_reducible apply Only.after (writeAccess_only ..)
    | with_reducible apply Only.step (State.setReg_only ..)
    | decide
    | fail_if_no_progress extract_lets
    | with_reducible apply Only.upd_coding
    | dsimp +zetaDelta only [id])

theorem drainCores_only (s : State) :
    Only 512 s (drainCores s) := by
  unfold drainCores
  repeat' (first
    | with_reducible intro _
    | with_reducible apply Only.refl
    | with_reducible assumption
    | with_reducible apply Only.after (State.each_only ..)
    | with_reducible apply Only.step (State.modCore_only ..)
    | with_reducible apply each_only
    | decide
    | dsimp +zetaDelta only [id])

theorem abortItems_only (a0 : List CodingItem) (s : State) :
    Only 73549322 s (abortItems a0 s) := by
  unfold abortItems
  repeat' (first
    | with_reducible intro _
    | with_reducible apply Only.refl
    | with_reducible assumption
    | with_reducible apply Only.after (State.each_only ..)
    | with_reducible apply Only.step (completeCoding_only ..)
    | with_reducible apply each_only
    | decide
    | dsimp +zetaDelta only [id])

theorem abortCoding_only (s : State) :
    Only 73582090 s (abortCoding s) := by
  unfold abortCoding
  repeat' (first
    | with_reducible intro _
    | with_reducible apply Only.refl
    | with_reducible assumption
    | with_reducible apply Only.step (drainCores_only ..)
    | with_reducible apply Only.after (State.each_only ..)
    | with_reducible apply Only.step (completeCoding_only ..)
    | with_reducible apply Only.step (setCodingQueue_only ..)
    | with_reducible apply Only.step (abortItems_only ..)
    | with_reducible apply each_only
    | decide
    | fail_if_no_progress extract_lets
    | with_reducible apply Only.upd_coding
    | dsimp +zetaDelta only [id])

end Sys2Proof.Machine
end

