-- ==== Sys2Proof/Laws/OnlySigc.lean ====
section
/-! SUPPORT. What each operation of Machine/Sigc.lean may touch: one lemma per operation, in the form of Laws/Only.lean. -/

namespace Sys2Proof.Machine

set_option linter.unusedTactic false
set_option linter.unreachableTactic false
set_option linter.unusedVariables false

theorem macInto_only (a0 : Nat) (a1 : Nat) (a2 : MacOp) (a3 : DReg) (a4 : DReg) (s : State) :
    Only 2056 s (macInto a0 a1 a2 a3 a4 s) := by
  unfold macInto
  repeat' (first
    | with_reducible intro _
    | with_reducible apply Only.refl
    | with_reducible assumption
    | with_reducible apply Only.step (sFlags_only ..)
    | with_reducible apply Only.step (State.setSigc_only ..)
    | decide
    | fail_if_no_progress extract_lets
    | dsimp +zetaDelta only [id])

theorem execCmac_only (a0 : Fin 64) (a1 : MacOp) (a2 : Fin 8) (a3 : Fin 64) (a4 : Fin 64) (s : State) :
    OnlyNext 6293514 s (execCmac a0 a1 a2 a3 a4 s) := by
  unfold execCmac
  repeat' (first
    | with_reducible intro _
    | with_reducible apply Only.refl
    | with_reducible assumption
    | with_reducible apply OnlyNext.next
    | with_reducible apply Only.after (runSInsn_only ..)
    | with_reducible apply Only.step (sDone_only ..)
    | with_reducible apply Only.step (macInto_only ..)
    | decide
    | dsimp +zetaDelta only [id])

theorem execAclr_only (a0 : Fin 64) (a1 : Fin 8) (s : State) :
    OnlyNext 6293514 s (execAclr a0 a1 s) := by
  unfold execAclr
  repeat' (first
    | with_reducible intro _
    | with_reducible apply Only.refl
    | with_reducible assumption
    | with_reducible apply OnlyNext.next
    | with_reducible apply Only.after (runSInsn_only ..)
    | with_reducible apply Only.step (sDone_only ..)
    | with_reducible apply Only.step (State.setSigc_only ..)
    | decide
    | dsimp +zetaDelta only [id])

theorem execSst_only (a0 : Fin 64) (a1 : Fin 8) (a2 : Fin 64) (a3 : SstForm) (s : State) :
    OnlyNext 6293514 s (execSst a0 a1 a2 a3 s) := by
  unfold execSst
  repeat' (first
    | with_reducible intro _
    | with_reducible apply Only.refl
    | with_reducible assumption
    | with_reducible apply OnlyNext.next
    | with_reducible apply Only.after (runSInsn_only ..)
    | with_reducible apply Only.step (sDone_only ..)
    | with_reducible apply Only.step (sFlags_only ..)
    | with_reducible apply Only.step (State.setSigc_only ..)
    | decide
    | fail_if_no_progress extract_lets
    | dsimp +zetaDelta only [id])

theorem writeLine_only (a0 : Nat) (a1 : Nat) (a2 : DReg) (s : State) :
    Only 6291466 s (writeLine a0 a1 a2 s) := by
  unfold writeLine
  repeat' (first
    | with_reducible intro _
    | with_reducible apply Only.refl
    | with_reducible assumption
    | with_reducible apply Only.step (State.store_only ..)
    | decide
    | dsimp +zetaDelta only [id])

theorem touchLine_only (a0 : Nat) (a1 : Nat) (s : State) :
    Only 6291466 s (touchLine a0 a1 s) := by
  unfold touchLine
  repeat' (first
    | with_reducible intro _
    | with_reducible apply Only.refl
    | with_reducible assumption
    | with_reducible apply Only.step (State.readEffect_only ..)
    | decide
    | dsimp +zetaDelta only [id])

theorem lineInsn_only {m : Nat} (a0 : Nat) (a1 : Nat) (a2 : Int) (a3 : BitVec 64 → State → State) (s : State) (w : m ||| 4196366 = m) (h3 : ∀ x0 u, Only m u (a3 x0 u)) :
    Only m s (lineInsn a0 a1 a2 a3 s) := by
  unfold lineInsn
  repeat' (first
    | with_reducible intro _
    | with_reducible apply Only.refl
    | with_reducible assumption
    | with_reducible apply Only.step (sIllegal_only ..)
    | with_reducible apply Only.step (strap_only ..)
    | with_reducible apply Only.step (sDone_only ..)
    | with_reducible apply Only.step (dmemWait_only ..)
    | with_reducible apply Only.step (State.usedFree_only ..)
    | with_reducible apply Only.after (h3 ..)
    | with_reducible exact sub_of w (by decide)
    | with_reducible exact bit_of w (by decide)
    | decide
    | fail_if_no_progress extract_lets
    | split
    | dsimp +zetaDelta only [id])

theorem zldBody_only (a0 : Nat) (a1 : Nat) (a2 : Nat) (a3 : BitVec 64) (s : State) :
    Only 6293518 s (zldBody a0 a1 a2 a3 s) := by
  unfold zldBody
  repeat' (first
    | with_reducible intro _
    | with_reducible apply Only.refl
    | with_reducible assumption
    | with_reducible apply Only.after (lineInsn_only ..)
    | with_reducible apply Only.step (touchLine_only ..)
    | with_reducible apply Only.step (State.setSigc_only ..)
    | decide
    | fail_if_no_progress extract_lets
    | dsimp +zetaDelta only [id])

theorem execZld_only (a0 : Fin 64) (a1 : Fin 64) (a2 : Fin 16) (a3 : BitVec 64) (s : State) :
    OnlyNext 6293518 s (execZld a0 a1 a2 a3 s) := by
  unfold execZld
  repeat' (first
    | with_reducible intro _
    | with_reducible apply Only.refl
    | with_reducible assumption
    | with_reducible apply OnlyNext.next
    | with_reducible apply Only.after (runSInsn_only ..)
    | with_reducible apply Only.step (zldBody_only ..)
    | decide
    | dsimp +zetaDelta only [id])

theorem zstBody_only (a0 : Nat) (a1 : Nat) (a2 : Nat) (a3 : BitVec 64) (s : State) :
    Only 6293518 s (zstBody a0 a1 a2 a3 s) := by
  unfold zstBody
  repeat' (first
    | with_reducible intro _
    | with_reducible apply Only.refl
    | with_reducible assumption
    | with_reducible apply Only.after (lineInsn_only ..)
    | with_reducible apply Only.step (writeLine_only ..)
    | with_reducible apply Only.step (State.setSigc_only ..)
    | decide
    | fail_if_no_progress extract_lets
    | dsimp +zetaDelta only [id])

theorem execZst_only (a0 : Fin 64) (a1 : Fin 64) (a2 : Fin 16) (a3 : BitVec 64) (s : State) :
    OnlyNext 6293518 s (execZst a0 a1 a2 a3 s) := by
  unfold execZst
  repeat' (first
    | with_reducible intro _
    | with_reducible apply Only.refl
    | with_reducible assumption
    | with_reducible apply OnlyNext.next
    | with_reducible apply Only.after (runSInsn_only ..)
    | with_reducible apply Only.step (zstBody_only ..)
    | decide
    | dsimp +zetaDelta only [id])

theorem tapmBody_only (a0 : Nat) (a1 : Nat) (a2 : Bool) (a3 : Nat) (a4 : Nat) (s : State) :
    Only 6293518 s (tapmBody a0 a1 a2 a3 a4 s) := by
  unfold tapmBody
  repeat' (first
    | with_reducible intro _
    | with_reducible apply Only.refl
    | with_reducible assumption
    | with_reducible apply Only.step (strap_only ..)
    | with_reducible apply Only.step (State.usedFree_only ..)
    | with_reducible apply Only.step (touchLine_only ..)
    | with_reducible apply Only.step (macInto_only ..)
    | with_reducible apply Only.step (writeLine_only ..)
    | with_reducible apply Only.step (sDone_only ..)
    | with_reducible apply Only.step (dmemWait_only ..)
    | with_reducible apply Only.step (State.setSigc_only ..)
    | with_reducible apply Only.step (sIllegal_only ..)
    | decide
    | fail_if_no_progress extract_lets
    | split
    | dsimp +zetaDelta only [id])

theorem execTapm_only (a0 : Fin 64) (a1 : Bool) (a2 : Fin 8) (a3 : Fin 16) (a4 : Fin 16) (s : State) :
    OnlyNext 6293518 s (execTapm a0 a1 a2 a3 a4 s) := by
  unfold execTapm
  repeat' (first
    | with_reducible intro _
    | with_reducible apply Only.refl
    | with_reducible assumption
    | with_reducible apply OnlyNext.next
    | with_reducible apply Only.after (runSInsn_only ..)
    | with_reducible apply Only.step (tapmBody_only ..)
    | decide
    | dsimp +zetaDelta only [id])

theorem loopBody_only (a0 : Nat) (a1 : Nat) (a2 : LoopCount) (a3 : BitVec 16) (s : State) :
    Only 4196362 s (loopBody a0 a1 a2 a3 s) := by
  unfold loopBody
  repeat' (first
    | with_reducible intro _
    | with_reducible apply Only.refl
    | with_reducible assumption
    | with_reducible apply Only.step (strap_only ..)
    | with_reducible apply Only.step (State.setSigc_only ..)
    | decide
    | fail_if_no_progress extract_lets
    | split
    | dsimp +zetaDelta only [id])

theorem execLoop_only (a0 : Fin 64) (a1 : Fin 3) (a2 : LoopCount) (a3 : BitVec 16) (s : State) :
    OnlyNext 6293514 s (execLoop a0 a1 a2 a3 s) := by
  unfold execLoop
  repeat' (first
    | with_reducible intro _
    | with_reducible apply Only.refl
    | with_reducible assumption
    | with_reducible apply OnlyNext.next
    | with_reducible apply Only.after (runSInsn_only ..)
    | with_reducible apply Only.step (loopBody_only ..)
    | decide
    | dsimp +zetaDelta only [id])

theorem lsaveBody_only (a0 : Nat) (a1 : Nat) (s : State) :
    Only 6293514 s (lsaveBody a0 a1 s) := by
  unfold lsaveBody
  repeat' (first
    | with_reducible intro _
    | with_reducible apply Only.refl
    | with_reducible assumption
    | with_reducible apply Only.step (sIllegal_only ..)
    | with_reducible apply Only.step (strap_only ..)
    | with_reducible apply Only.step (State.store_only ..)
    | with_reducible apply Only.step (sDone_only ..)
    | with_reducible apply Only.step (State.setSigc_only ..)
    | decide
    | fail_if_no_progress extract_lets
    | split
    | dsimp +zetaDelta only [id])

theorem execLsave_only (a0 : Fin 64) (a1 : Fin 16) (s : State) :
    OnlyNext 6293514 s (execLsave a0 a1 s) := by
  unfold execLsave
  repeat' (first
    | with_reducible intro _
    | with_reducible apply Only.refl
    | with_reducible assumption
    | with_reducible apply OnlyNext.next
    | with_reducible apply Only.after (runSInsn_only ..)
    | with_reducible apply Only.step (lsaveBody_only ..)
    | decide
    | dsimp +zetaDelta only [id])

theorem lrestoreBody_only (a0 : Nat) (a1 : Nat) (s : State) :
    Only 6293514 s (lrestoreBody a0 a1 s) := by
  unfold lrestoreBody
  repeat' (first
    | with_reducible intro _
    | with_reducible apply Only.refl
    | with_reducible assumption
    | with_reducible apply Only.step (sIllegal_only ..)
    | with_reducible apply Only.step (strap_only ..)
    | with_reducible apply Only.step (State.readEffect_only ..)
    | with_reducible apply Only.step (strapDataUe_only ..)
    | with_reducible apply Only.step (sDone_only ..)
    | with_reducible apply Only.step (State.setSigc_only ..)
    | decide
    | fail_if_no_progress extract_lets
    | split
    | dsimp +zetaDelta only [id])

theorem execLrestore_only (a0 : Fin 64) (a1 : Fin 16) (s : State) :
    OnlyNext 6293514 s (execLrestore a0 a1 s) := by
  unfold execLrestore
  repeat' (first
    | with_reducible intro _
    | with_reducible apply Only.refl
    | with_reducible assumption
    | with_reducible apply OnlyNext.next
    | with_reducible apply Only.after (runSInsn_only ..)
    | with_reducible apply Only.step (lrestoreBody_only ..)
    | decide
    | dsimp +zetaDelta only [id])

theorem execReti_only (a0 : Fin 64) (s : State) :
    OnlyNext 6293514 s (execReti a0 s) := by
  unfold execReti
  repeat' (first
    | with_reducible intro _
    | with_reducible apply Only.refl
    | with_reducible assumption
    | with_reducible apply OnlyNext.next
    | with_reducible apply Only.after (runSInsn_only ..)
    | with_reducible apply Only.step (State.setSigc_only ..)
    | decide
    | fail_if_no_progress extract_lets
    | dsimp +zetaDelta only [id])

theorem execEi_only (a0 : Fin 64) (s : State) :
    OnlyNext 6293514 s (execEi a0 s) := by
  unfold execEi
  repeat' (first
    | with_reducible intro _
    | with_reducible apply Only.refl
    | with_reducible assumption
    | with_reducible apply OnlyNext.next
    | with_reducible apply Only.after (runSInsn_only ..)
    | with_reducible apply Only.step (sDone_only ..)
    | with_reducible apply Only.step (State.setSigc_only ..)
    | decide
    | dsimp +zetaDelta only [id])

theorem execDi_only (a0 : Fin 64) (s : State) :
    OnlyNext 6293514 s (execDi a0 s) := by
  unfold execDi
  repeat' (first
    | with_reducible intro _
    | with_reducible apply Only.refl
    | with_reducible assumption
    | with_reducible apply OnlyNext.next
    | with_reducible apply Only.after (runSInsn_only ..)
    | with_reducible apply Only.step (sDone_only ..)
    | with_reducible apply Only.step (State.setSigc_only ..)
    | decide
    | dsimp +zetaDelta only [id])

theorem alarmBody_only (a0 : Nat) (a1 : Nat) (a2 : Nat) (s : State) :
    Only 2048 s (alarmBody a0 a1 a2 s) := by
  unfold alarmBody
  repeat' (first
    | with_reducible intro _
    | with_reducible apply Only.refl
    | with_reducible assumption
    | with_reducible apply Only.step (State.setSigc_only ..)
    | with_reducible apply Only.step (sDone_only ..)
    | with_reducible apply Only.step (sEvent_only ..)
    | decide
    | fail_if_no_progress extract_lets
    | split
    | dsimp +zetaDelta only [id])

theorem execAlarm_only (a0 : Fin 64) (a1 : Fin 2) (a2 : Fin 16) (s : State) :
    OnlyNext 6293514 s (execAlarm a0 a1 a2 s) := by
  unfold execAlarm
  repeat' (first
    | with_reducible intro _
    | with_reducible apply Only.refl
    | with_reducible assumption
    | with_reducible apply OnlyNext.next
    | with_reducible apply Only.after (runSInsn_only ..)
    | with_reducible apply Only.step (alarmBody_only ..)
    | decide
    | dsimp +zetaDelta only [id])

theorem execAlarmFire_only (a0 : Fin 64) (a1 : Fin 2) (s : State) :
    OnlyNext 2048 s (execAlarmFire a0 a1 s) := by
  unfold execAlarmFire
  repeat' (first
    | with_reducible intro _
    | with_reducible apply Only.refl
    | with_reducible assumption
    | with_reducible apply OnlyNext.next
    | with_reducible apply Only.step (sEvent_only ..)
    | with_reducible apply Only.step (State.setSigc_only ..)
    | decide
    | split
    | dsimp +zetaDelta only [id])

theorem execDoorbellRing_only (a0 : Requester) (a1 : Fin 64) (a2 : BitVec 32) (s : State) :
    OnlyNext 4196362 s (execDoorbellRing a0 a1 a2 s) := by
  unfold execDoorbellRing
  repeat' (first
    | with_reducible intro _
    | with_reducible apply Only.refl
    | with_reducible assumption
    | with_reducible apply OnlyNext.next
    | with_reducible apply Only.after (writeAccess_only ..)
    | with_reducible apply Only.step (sEvent_only ..)
    | decide
    | split
    | dsimp +zetaDelta only [id])

theorem execInterruptTaken_only (a0 : Fin 64) (s : State) :
    OnlyNext 6144 s (execInterruptTaken a0 s) := by
  unfold execInterruptTaken
  repeat' (first
    | with_reducible intro _
    | with_reducible apply Only.refl
    | with_reducible assumption
    | with_reducible apply OnlyNext.next
    | with_reducible apply Only.step (leaveWaits_only ..)
    | with_reducible apply Only.step (State.setSigc_only ..)
    | decide
    | fail_if_no_progress extract_lets
    | split
    | dsimp +zetaDelta only [id])

theorem setDma_only (a0 : Nat) (a1 : Nat) (a2 : StreamSlot) (s : State) :
    Only 2048 s (setDma a0 a1 a2 s) := by
  unfold setDma
  repeat' (first
    | with_reducible intro _
    | with_reducible apply Only.refl
    | with_reducible assumption
    | with_reducible apply Only.step (State.setSigc_only ..)
    | decide
    | dsimp +zetaDelta only [id])

theorem dmaStatus_only (a0 : Nat) (a1 : Nat) (a2 : Nat) (a3 : Nat) (s : State) :
    Only 8 s (dmaStatus a0 a1 a2 a3 s) := by
  unfold dmaStatus
  repeat' (first
    | with_reducible intro _
    | with_reducible apply Only.refl
    | with_reducible assumption
    | with_reducible apply Only.step (State.setReg_only ..)
    | decide
    | dsimp +zetaDelta only [id])

theorem dmaHalt_only (a0 : Nat) (a1 : Nat) (a2 : Nat) (a3 : Option Nat) (s : State) :
    Only 4196362 s (dmaHalt a0 a1 a2 a3 s) := by
  unfold dmaHalt
  repeat' (first
    | with_reducible intro _
    | with_reducible apply Only.refl
    | with_reducible assumption
    | with_reducible apply Only.step (dmaStatus_only ..)
    | with_reducible apply Only.step (setDma_only ..)
    | with_reducible apply Only.step (State.setReg_only ..)
    | with_reducible apply Only.step (sEvent_only ..)
    | with_reducible apply Only.step (State.raise_only ..)
    | decide
    | fail_if_no_progress extract_lets
    | split
    | dsimp +zetaDelta only [id])

theorem execSigcDmaStart_only (a0 : Fin 64) (a1 : Fin 2) (a2 : BitVec 19) (s : State) :
    OnlyNext 6293514 s (execSigcDmaStart a0 a1 a2 s) := by
  unfold execSigcDmaStart
  repeat' (first
    | with_reducible intro _
    | with_reducible apply Only.refl
    | with_reducible assumption
    | with_reducible apply OnlyNext.next
    | with_reducible apply Only.step (State.readEffect_only ..)
    | with_reducible apply Only.step (dmaHalt_only ..)
    | with_reducible apply Only.step (State.error_only ..)
    | with_reducible apply Only.step (dmaStatus_only ..)
    | with_reducible apply Only.step (setDma_only ..)
    | decide
    | fail_if_no_progress extract_lets
    | split
    | dsimp +zetaDelta only [id])

theorem dmaIn_only (a0 : Nat) (a1 : Nat) (a2 : StreamDesc) (a3 : Nat) (a4 : Nat) (a5 : Int) (s : State) :
    Only 6308878 s (dmaIn a0 a1 a2 a3 a4 a5 s) := by
  unfold dmaIn
  repeat' (first
    | with_reducible intro _
    | with_reducible apply Only.refl
    | with_reducible assumption
    | with_reducible apply Only.step (State.partTouch_only ..)
    | with_reducible apply Only.step (State.usedFree_only ..)
    | with_reducible apply Only.step (writeLine_only ..)
    | with_reducible apply Only.step (State.store_only ..)
    | decide
    | fail_if_no_progress extract_lets
    | split
    | dsimp +zetaDelta only [id])

theorem dmaOut_only (a0 : Nat) (a1 : Nat) (a2 : StreamDesc) (a3 : Nat) (a4 : Nat) (a5 : Int) (s : State) :
    Only 73417742 s (dmaOut a0 a1 a2 a3 a4 a5 s) := by
  unfold dmaOut
  repeat' (first
    | with_reducible intro _
    | with_reducible apply Only.refl
    | with_reducible assumption
    | with_reducible apply Only.step (touchLine_only ..)
    | with_reducible apply Only.step (State.usedFree_only ..)
    | with_reducible apply Only.step (State.partStore_only ..)
    | decide
    | fail_if_no_progress extract_lets
    | split
    | dsimp +zetaDelta only [id])

theorem execSigcDmaLine_only (a0 : Fin 64) (a1 : Fin 2) (s : State) :
    OnlyNext 73419790 s (execSigcDmaLine a0 a1 s) := by
  unfold execSigcDmaLine
  repeat' (first
    | with_reducible intro _
    | with_reducible apply Only.refl
    | with_reducible assumption
    | with_reducible apply OnlyNext.next
    | with_reducible apply Only.step (dmaOut_only ..)
    | with_reducible apply Only.step (dmaIn_only ..)
    | with_reducible apply Only.step (setDma_only ..)
    | with_reducible apply Only.step (State.partTouch_only ..)
    | decide
    | fail_if_no_progress extract_lets
    | split
    | dsimp +zetaDelta only [id])

theorem execSigcDmaDone_only (a0 : Fin 64) (a1 : Fin 2) (s : State) :
    OnlyNext 2056 s (execSigcDmaDone a0 a1 s) := by
  unfold execSigcDmaDone
  repeat' (first
    | with_reducible intro _
    | with_reducible apply Only.refl
    | with_reducible assumption
    | with_reducible apply OnlyNext.next
    | with_reducible apply Only.step (sEvent_only ..)
    | with_reducible apply Only.step (dmaStatus_only ..)
    | with_reducible apply Only.step (setDma_only ..)
    | decide
    | split
    | dsimp +zetaDelta only [id])

theorem execSigcDmaHalt_only (a0 : Fin 64) (a1 : Fin 2) (s : State) :
    OnlyNext 6310926 s (execSigcDmaHalt a0 a1 s) := by
  unfold execSigcDmaHalt
  repeat' (first
    | with_reducible intro _
    | with_reducible apply Only.refl
    | with_reducible assumption
    | with_reducible apply OnlyNext.next
    | with_reducible apply Only.step (dmaHalt_only ..)
    | with_reducible apply Only.step (State.faultTouch_only ..)
    | with_reducible apply Only.step (State.partTouch_only ..)
    | with_reducible apply Only.step (State.error_only ..)
    | decide
    | fail_if_no_progress extract_lets
    | split
    | dsimp +zetaDelta only [id])

theorem startProgram_only (a0 : Nat) (s : State) :
    Only 2056 s (startProgram a0 s) := by
  unfold startProgram
  repeat' (first
    | with_reducible intro _
    | with_reducible apply Only.refl
    | with_reducible assumption
    | with_reducible apply Only.step (State.setReg_only ..)
    | with_reducible apply Only.step (State.setSigc_only ..)
    | decide
    | fail_if_no_progress extract_lets
    | dsimp +zetaDelta only [id])

theorem setSigcEnable_only (a0 : Nat) (a1 : Bool) (s : State) :
    Only 6152 s (setSigcEnable a0 a1 s) := by
  unfold setSigcEnable
  repeat' (first
    | with_reducible intro _
    | with_reducible apply Only.refl
    | with_reducible assumption
    | with_reducible apply Only.step (State.setReg_only ..)
    | with_reducible apply Only.step (startProgram_only ..)
    | with_reducible apply Only.step (endProgram_only ..)
    | with_reducible apply Only.step (State.setSigc_only ..)
    | decide
    | fail_if_no_progress extract_lets
    | split
    | dsimp +zetaDelta only [id])

theorem execSigcEnable_only (a0 : Requester) (a1 : Fin 64) (a2 : Bool) (s : State) :
    OnlyNext 4200458 s (execSigcEnable a0 a1 a2 s) := by
  unfold execSigcEnable
  repeat' (first
    | with_reducible intro _
    | with_reducible apply Only.refl
    | with_reducible assumption
    | with_reducible apply OnlyNext.next
    | with_reducible apply Only.after (writeAccess_only ..)
    | with_reducible apply Only.step (setSigcEnable_only ..)
    | decide
    | dsimp +zetaDelta only [id])

end Sys2Proof.Machine
end

