-- ==== Sys2Proof/Laws/OnlyTime.lean ====
section
/-! SUPPORT. What each operation of Machine/Time.lean may touch: one lemma per operation, in the form of Laws/Only.lean. -/

namespace Sys2Proof.Machine

set_option linter.unusedTactic false
set_option linter.unreachableTactic false
set_option linter.unusedVariables false

theorem setUnits_only (a0 : Int) (s : State) :
    Only 256 s (setUnits a0 s) := by
  unfold setUnits
  repeat' (first
    | with_reducible intro _
    | with_reducible apply Only.refl
    | with_reducible assumption
    | decide
    | fail_if_no_progress extract_lets
    | with_reducible apply Only.upd_time
    | dsimp +zetaDelta only [id])

theorem countForced_only (s : State) :
    Only 8 s (countForced s) := by
  unfold countForced
  repeat' (first
    | with_reducible intro _
    | with_reducible apply Only.refl
    | with_reducible assumption
    | with_reducible apply Only.after (State.when_only ..)
    | with_reducible apply Only.step (State.bump_only ..)
    | with_reducible apply when_only
    | decide
    | dsimp +zetaDelta only [id])

theorem tick_only (s : State) :
    Only 264 s (tick s) := by
  unfold tick
  repeat' (first
    | with_reducible intro _
    | with_reducible apply Only.refl
    | with_reducible assumption
    | with_reducible apply Only.step (countForced_only ..)
    | with_reducible apply Only.step (setUnits_only ..)
    | decide
    | fail_if_no_progress extract_lets
    | split
    | with_reducible apply Only.upd_time
    | dsimp +zetaDelta only [id])

theorem setY_only (a0 : Int) (s : State) :
    Only 8 s (setY a0 s) := by
  unfold setY
  repeat' (first
    | with_reducible intro _
    | with_reducible apply Only.refl
    | with_reducible assumption
    | with_reducible apply Only.step (State.setReg_only ..)
    | decide
    | dsimp +zetaDelta only [id])

theorem lockState_only (a0 : Int) (a1 : Nat) (s : State) :
    Only 4194570 s (lockState a0 a1 s) := by
  unfold lockState
  repeat' (first
    | with_reducible intro _
    | with_reducible apply Only.refl
    | with_reducible assumption
    | with_reducible apply Only.step (State.raiseBits_only ..)
    | with_reducible apply Only.step (State.setReg_only ..)
    | decide
    | fail_if_no_progress extract_lets
    | split
    | with_reducible apply Only.upd_time
    | dsimp +zetaDelta only [id])

theorem servo_only (a0 : Int) (s : State) :
    Only 4194574 s (servo a0 s) := by
  unfold servo
  repeat' (first
    | with_reducible intro _
    | with_reducible apply Only.refl
    | with_reducible assumption
    | with_reducible apply Only.step (State.setReg_only ..)
    | with_reducible apply Only.step (State.usedFree_only ..)
    | with_reducible apply Only.step (State.raise_only ..)
    | with_reducible apply Only.step (State.bump_only ..)
    | with_reducible apply Only.step (lockState_only ..)
    | with_reducible apply Only.step (setY_only ..)
    | decide
    | fail_if_no_progress extract_lets
    | split
    | with_reducible apply Only.upd_time
    | dsimp +zetaDelta only [id])

theorem execStepForceWrite_only (a0 : Requester) (a1 : BitVec 64) (s : State) :
    OnlyNext 4194570 s (execStepForceWrite a0 a1 s) := by
  unfold execStepForceWrite
  repeat' (first
    | with_reducible intro _
    | with_reducible apply Only.refl
    | with_reducible assumption
    | with_reducible apply OnlyNext.next
    | with_reducible apply Only.after (writeAccess_only ..)
    | decide
    | with_reducible apply Only.upd_time
    | dsimp +zetaDelta only [id])

theorem execOffsetInWrite_only (a0 : Requester) (a1 : BitVec 64) (s : State) :
    OnlyNext 4194574 s (execOffsetInWrite a0 a1 s) := by
  unfold execOffsetInWrite
  repeat' (first
    | with_reducible intro _
    | with_reducible apply Only.refl
    | with_reducible assumption
    | with_reducible apply OnlyNext.next
    | with_reducible apply Only.after (writeAccess_only ..)
    | with_reducible apply Only.step (servo_only ..)
    | with_reducible apply Only.step (State.error_only ..)
    | decide
    | split
    | dsimp +zetaDelta only [id])

theorem enterHoldover_only (s : State) :
    Only 4194314 s (enterHoldover s) := by
  unfold enterHoldover
  repeat' (first
    | with_reducible intro _
    | with_reducible apply Only.refl
    | with_reducible assumption
    | with_reducible apply Only.step (State.raise_only ..)
    | with_reducible apply Only.step (State.setReg_only ..)
    | with_reducible apply Only.step (setY_only ..)
    | decide
    | dsimp +zetaDelta only [id])

theorem execHoldoverEntry_only (s : State) :
    OnlyNext 4194314 s (execHoldoverEntry s) := by
  unfold execHoldoverEntry
  repeat' (first
    | with_reducible intro _
    | with_reducible apply Only.refl
    | with_reducible assumption
    | with_reducible apply OnlyNext.next
    | with_reducible apply Only.step (enterHoldover_only ..)
    | decide
    | fail_if_no_progress extract_lets
    | split
    | dsimp +zetaDelta only [id])

theorem setYf_only (a0 : Int) (s : State) :
    Only 264 s (setYf a0 s) := by
  unfold setYf
  repeat' (first
    | with_reducible intro _
    | with_reducible apply Only.refl
    | with_reducible assumption
    | with_reducible apply Only.step (setY_only ..)
    | decide
    | fail_if_no_progress extract_lets
    | split
    | with_reducible apply Only.upd_time
    | dsimp +zetaDelta only [id])

theorem execFreqSourceLoss_only (a0 : Int) (s : State) :
    OnlyNext 4194570 s (execFreqSourceLoss a0 s) := by
  unfold execFreqSourceLoss
  repeat' (first
    | with_reducible intro _
    | with_reducible apply Only.refl
    | with_reducible assumption
    | with_reducible apply OnlyNext.next
    | with_reducible apply Only.step (State.raise_only ..)
    | with_reducible apply Only.step (setYf_only ..)
    | with_reducible apply Only.step (State.setReg_only ..)
    | decide
    | split
    | dsimp +zetaDelta only [id])

theorem execFreqSourceValid_only (a0 : Int) (s : State) :
    OnlyNext 264 s (execFreqSourceValid a0 s) := by
  unfold execFreqSourceValid
  repeat' (first
    | with_reducible intro _
    | with_reducible apply Only.refl
    | with_reducible assumption
    | with_reducible apply OnlyNext.next
    | with_reducible apply Only.step (setYf_only ..)
    | with_reducible apply Only.step (State.setReg_only ..)
    | decide
    | fail_if_no_progress extract_lets
    | split
    | dsimp +zetaDelta only [id])

theorem setSources_only (a0 : Nat) (s : State) :
    Only 264 s (setSources a0 s) := by
  unfold setSources
  repeat' (first
    | with_reducible intro _
    | with_reducible apply Only.refl
    | with_reducible assumption
    | with_reducible apply Only.step (State.setReg_only ..)
    | with_reducible apply Only.step (setYf_only ..)
    | with_reducible apply Only.step (setY_only ..)
    | decide
    | fail_if_no_progress extract_lets
    | split
    | with_reducible apply Only.upd_time
    | dsimp +zetaDelta only [id])

theorem notePath_only (a0 : Int) (s : State) :
    Only 268 s (notePath a0 s) := by
  unfold notePath
  repeat' (first
    | with_reducible intro _
    | with_reducible apply Only.refl
    | with_reducible assumption
    | with_reducible apply Only.step (State.usedFree_only ..)
    | with_reducible apply Only.step (State.setReg_only ..)
    | with_reducible apply foldl_only
    | with_reducible apply foldl_pair_only
    | decide
    | fail_if_no_progress extract_lets
    | with_reducible apply Only.upd_time
    | dsimp +zetaDelta only [id])

theorem execServoSample_only (a0 : BitVec 96) (a1 : BitVec 96) (a2 : Option (Prod (BitVec 96) (BitVec 96))) (a3 : Bool) (s : State) :
    OnlyNext 4194574 s (execServoSample a0 a1 a2 a3 s) := by
  unfold execServoSample
  repeat' (first
    | with_reducible intro _
    | with_reducible apply Only.refl
    | with_reducible assumption
    | with_reducible apply OnlyNext.next
    | with_reducible apply Only.step (notePath_only ..)
    | with_reducible apply Only.step (servo_only ..)
    | decide
    | fail_if_no_progress extract_lets
    | split
    | dsimp +zetaDelta only [id])

theorem execPpsInEdge_only (a0 : Nat) (a1 : Nat) (a2 : BitVec 96) (s : State) :
    OnlyNext 4194574 s (execPpsInEdge a0 a1 a2 s) := by
  unfold execPpsInEdge
  repeat' (first
    | with_reducible intro _
    | with_reducible apply Only.refl
    | with_reducible assumption
    | with_reducible apply OnlyNext.next
    | with_reducible apply Only.step (servo_only ..)
    | decide
    | fail_if_no_progress extract_lets
    | split
    | with_reducible apply Only.upd_time
    | dsimp +zetaDelta only [id])

theorem execPpsOutEdge_only (s : State) :
    OnlyNext 258 s (execPpsOutEdge s) := by
  unfold execPpsOutEdge
  repeat' (first
    | with_reducible intro _
    | with_reducible apply Only.refl
    | with_reducible assumption
    | with_reducible apply OnlyNext.next
    | with_reducible apply Only.step (State.emit_only ..)
    | decide
    | fail_if_no_progress extract_lets
    | split
    | with_reducible apply Only.upd_time
    | dsimp +zetaDelta only [id])

theorem latchNow_only (s : State) :
    Only 8 s (latchNow s) := by
  unfold latchNow
  repeat' (first
    | with_reducible intro _
    | with_reducible apply Only.refl
    | with_reducible assumption
    | with_reducible apply Only.step (State.setReg_only ..)
    | decide
    | fail_if_no_progress extract_lets
    | dsimp +zetaDelta only [id])

theorem execTimeLoad_only (a0 : Requester) (a1 : BitVec 48) (s : State) :
    OnlyNext 4194570 s (execTimeLoad a0 a1 s) := by
  unfold execTimeLoad
  repeat' (first
    | with_reducible intro _
    | with_reducible apply Only.refl
    | with_reducible assumption
    | with_reducible apply OnlyNext.next
    | with_reducible apply Only.after (writeAccess_only ..)
    | with_reducible apply Only.step (State.error_only ..)
    | decide
    | split
    | with_reducible apply Only.upd_time
    | dsimp +zetaDelta only [id])

end Sys2Proof.Machine
end

