-- ==== Sys2Proof/Laws/OnlyEth.lean ====
section
/-! SUPPORT. What each operation of Machine/Eth.lean may touch: one lemma per operation, in the form of Laws/Only.lean. -/

namespace Sys2Proof.Machine

set_option linter.unusedTactic false
set_option linter.unreachableTactic false
set_option linter.unusedVariables false

theorem State.setEthPort_only (s : State) (a1 : Nat) (a2 : EthPort) :
    Only 1048576 s (State.setEthPort s a1 a2) := by
  unfold State.setEthPort
  repeat' (first
    | with_reducible intro _
    | with_reducible apply Only.refl
    | with_reducible assumption
    | decide
    | with_reducible apply Only.upd_eth
    | dsimp +zetaDelta only [id])

theorem writeGroupMode_only (a0 : Nat) (a1 : Nat) (s : State) :
    Only 4194314 s (writeGroupMode a0 a1 s) := by
  unfold writeGroupMode
  repeat' (first
    | with_reducible intro _
    | with_reducible apply Only.refl
    | with_reducible assumption
    | with_reducible apply Only.step (State.setReg_only ..)
    | with_reducible apply Only.step (State.error_only ..)
    | with_reducible apply Only.after (State.each_only ..)
    | with_reducible apply each_only
    | decide
    | fail_if_no_progress extract_lets
    | split
    | dsimp +zetaDelta only [id])

theorem execGroupModeWrite_only (a0 : Requester) (a1 : Fin 8) (a2 : BitVec 32) (s : State) :
    OnlyNext 4194314 s (execGroupModeWrite a0 a1 a2 s) := by
  unfold execGroupModeWrite
  repeat' (first
    | with_reducible intro _
    | with_reducible apply Only.refl
    | with_reducible assumption
    | with_reducible apply OnlyNext.next
    | with_reducible apply Only.after (writeAccess_only ..)
    | with_reducible apply Only.step (writeGroupMode_only ..)
    | decide
    | dsimp +zetaDelta only [id])

theorem execEthLinkChange_only (a0 : Fin 64) (a1 : Bool) (s : State) :
    OnlyNext 138412042 s (execEthLinkChange a0 a1 s) := by
  unfold execEthLinkChange
  repeat' (first
    | with_reducible intro _
    | with_reducible apply Only.refl
    | with_reducible assumption
    | with_reducible apply OnlyNext.next
    | with_reducible apply Only.step (State.raise_only ..)
    | with_reducible apply Only.after (State.when_only ..)
    | with_reducible apply Only.step (State.setReg_only ..)
    | with_reducible apply Only.step (noteTraining_only ..)
    | with_reducible apply when_only
    | decide
    | fail_if_no_progress extract_lets
    | split
    | dsimp +zetaDelta only [id])

theorem execTxtsEntry_only (a0 : Fin 64) (a1 : BitVec 16) (a2 : BitVec 96) (s : State) :
    OnlyNext 5242890 s (execTxtsEntry a0 a1 a2 s) := by
  unfold execTxtsEntry
  repeat' (first
    | with_reducible intro _
    | with_reducible apply Only.refl
    | with_reducible assumption
    | with_reducible apply OnlyNext.next
    | with_reducible apply Only.step (State.raise_only ..)
    | with_reducible apply Only.step (State.bump_only ..)
    | with_reducible apply Only.step (State.setEthPort_only ..)
    | decide
    | fail_if_no_progress extract_lets
    | split
    | dsimp +zetaDelta only [id])

theorem popStamp_only (a0 : Nat) (s : State) :
    Only 1048584 s (popStamp a0 s).1 := by
  unfold popStamp
  repeat' (first
    | with_reducible intro _
    | with_reducible apply Only.refl
    | with_reducible assumption
    | with_reducible apply Only.step (State.setReg_only ..)
    | with_reducible apply Only.step (State.setEthPort_only ..)
    | decide
    | fail_if_no_progress extract_lets
    | split
    | dsimp +zetaDelta only [id])

theorem execTxtsPopRead_only (a0 : Requester) (a1 : Fin 64) (s : State) :
    OnlyNext 5242890 s (execTxtsPopRead a0 a1 s) := by
  unfold execTxtsPopRead
  repeat' (first
    | with_reducible intro _
    | with_reducible apply Only.refl
    | with_reducible assumption
    | with_reducible apply OnlyNext.next
    | with_reducible apply Only.step (readRefused_only ..)
    | with_reducible apply Only.step (State.emit_only ..)
    | with_reducible apply Only.step (State.error_only ..)
    | with_reducible apply Only.step (popStamp_only ..)
    | with_reducible refine Only.step (Only.pair (popStamp_only ..) (by assumption)) (by decide) ?_
    | decide
    | fail_if_no_progress extract_lets
    | split
    | dsimp +zetaDelta only [id])

theorem State.setNode_only (s : State) (a1 : Nat) (a2 : Node) :
    Only 1048576 s (State.setNode s a1 a2) := by
  unfold State.setNode
  repeat' (first
    | with_reducible intro _
    | with_reducible apply Only.refl
    | with_reducible assumption
    | decide
    | with_reducible apply Only.upd_eth
    | dsimp +zetaDelta only [id])

theorem chargeNode_only (a0 : Nat) (a1 : Nat) (s : State) :
    Only 1048576 s (chargeNode a0 a1 s) := by
  unfold chargeNode
  repeat' (first
    | with_reducible intro _
    | with_reducible apply Only.refl
    | with_reducible assumption
    | with_reducible apply Only.step (State.setNode_only ..)
    | decide
    | fail_if_no_progress extract_lets
    | dsimp +zetaDelta only [id])

theorem setQueue_only (a0 : Nat) (a1 : List TxFrame) (s : State) :
    Only 1048584 s (setQueue a0 a1 s) := by
  unfold setQueue
  repeat' (first
    | with_reducible intro _
    | with_reducible apply Only.refl
    | with_reducible assumption
    | with_reducible apply Only.step (State.setReg_only ..)
    | with_reducible apply Only.step (State.setNode_only ..)
    | decide
    | fail_if_no_progress extract_lets
    | dsimp +zetaDelta only [id])

theorem queueFrame_only (a0 : Nat) (a1 : Nat) (a2 : TxFrame) (s : State) :
    Only 1179656 s (queueFrame a0 a1 a2 s) := by
  unfold queueFrame
  repeat' (first
    | with_reducible intro _
    | with_reducible apply Only.refl
    | with_reducible assumption
    | with_reducible apply Only.step (setQueue_only ..)
    | with_reducible apply Only.step (State.bump_only ..)
    | with_reducible apply Only.step (State.setRadio_only ..)
    | decide
    | fail_if_no_progress extract_lets
    | split
    | dsimp +zetaDelta only [id])

theorem queueManagement_only (a0 : Nat) (a1 : TxFrame) (s : State) :
    Only 1048584 s (queueManagement a0 a1 s) := by
  unfold queueManagement
  repeat' (first
    | with_reducible intro _
    | with_reducible apply Only.refl
    | with_reducible assumption
    | with_reducible apply Only.step (State.bump_only ..)
    | with_reducible apply Only.step (setQueue_only ..)
    | decide
    | fail_if_no_progress extract_lets
    | split
    | dsimp +zetaDelta only [id])

theorem formFrame_only (a0 : Nat) (a1 : Nat) (a2 : Nat) (a3 : TxFrame) (s : State) :
    Only 1703944 s (formFrame a0 a1 a2 a3 s) := by
  unfold formFrame
  repeat' (first
    | with_reducible intro _
    | with_reducible apply Only.refl
    | with_reducible assumption
    | with_reducible apply Only.step (noteOutput_only ..)
    | with_reducible apply Only.step (queueFrame_only ..)
    | decide
    | fail_if_no_progress extract_lets
    | split
    | dsimp +zetaDelta only [id])

theorem execPtpFrameHandoff_only (a0 : Fin 64) (a1 : Option (Fin 65536)) (a2 : Nat) (a3 : Option (BitVec 16)) (a4 : Bool) (s : State) :
    OnlyNext 1179656 s (execPtpFrameHandoff a0 a1 a2 a3 a4 s) := by
  unfold execPtpFrameHandoff
  repeat' (first
    | with_reducible intro _
    | with_reducible apply Only.refl
    | with_reducible assumption
    | with_reducible apply OnlyNext.next
    | with_reducible apply Only.step (queueFrame_only ..)
    | with_reducible apply Only.step (queueManagement_only ..)
    | decide
    | fail_if_no_progress extract_lets
    | split
    | dsimp +zetaDelta only [id])

theorem departs_only (a0 : Nat) (a1 : Nat) (a2 : TxFrame) (s : State) :
    Only 1048586 s (departs a0 a1 a2 s) := by
  unfold departs
  repeat' (first
    | with_reducible intro _
    | with_reducible apply Only.refl
    | with_reducible assumption
    | with_reducible apply Only.step (setQueue_only ..)
    | with_reducible apply Only.step (State.setEthPort_only ..)
    | with_reducible apply Only.step (State.emit_only ..)
    | with_reducible apply Only.step (State.addReg_only ..)
    | decide
    | fail_if_no_progress extract_lets
    | split
    | dsimp +zetaDelta only [id])

theorem sendClass_only (a0 : Nat) (a1 : Nat) (a2 : Nat) (a3 : TxFrame) (s : State) :
    Only 1048586 s (sendClass a0 a1 a2 a3 s) := by
  unfold sendClass
  repeat' (first
    | with_reducible intro _
    | with_reducible apply Only.refl
    | with_reducible assumption
    | with_reducible apply Only.step (departs_only ..)
    | with_reducible apply Only.step (chargeNode_only ..)
    | with_reducible apply Only.step (State.setNode_only ..)
    | with_reducible apply Only.step (State.setEthPort_only ..)
    | decide
    | fail_if_no_progress extract_lets
    | split
    | dsimp +zetaDelta only [id])

theorem runPass_only (a0 : Nat) (a1 : Bool) (a2 : List Nat) (s : State) : Only 1048586 s (runPass a0 a1 a2 s).1 := by
  induction a2 generalizing s with
  | nil => exact Only.refl _ _
  | cons x xs ih =>
    unfold runPass
    repeat' (first
      | with_reducible apply Only.refl
      | with_reducible exact ih _
      | with_reducible apply Only.step (State.setNode_only ..)
      | with_reducible apply Only.step (sendClass_only ..)
      | with_reducible apply Only.after (ih _)
      | decide
      | fail_if_no_progress extract_lets
      | split
      | dsimp +zetaDelta only)

theorem execEthFrameTx_only (a0 : Fin 64) (s : State) :
    OnlyNext 1048586 s (execEthFrameTx a0 s) := by
  unfold execEthFrameTx
  repeat' (first
    | with_reducible intro _
    | with_reducible apply Only.refl
    | with_reducible assumption
    | with_reducible apply OnlyNext.next
    | with_reducible apply Only.step (departs_only ..)
    | with_reducible apply Only.step (chargeNode_only ..)
    | with_reducible apply Only.step (runPass_only ..)
    | with_reducible refine Only.step (Only.pair (runPass_only ..) (by assumption)) (by decide) ?_
    | decide
    | fail_if_no_progress extract_lets
    | split
    | dsimp +zetaDelta only [id])

theorem writeNode_only (a0 : Nat) (a1 : Nat) (a2 : List (BitVec 32)) (s : State) :
    Only 1048576 s (writeNode a0 a1 a2 s) := by
  unfold writeNode
  repeat' (first
    | with_reducible intro _
    | with_reducible apply Only.refl
    | with_reducible assumption
    | with_reducible apply Only.step (State.setNode_only ..)
    | decide
    | fail_if_no_progress extract_lets
    | split
    | with_reducible apply Only.upd_eth
    | dsimp +zetaDelta only [id])

theorem nodeResult_only (a0 : Nat) (s : State) :
    Only 8 s (nodeResult a0 s) := by
  unfold nodeResult
  repeat' (first
    | with_reducible intro _
    | with_reducible apply Only.refl
    | with_reducible assumption
    | with_reducible apply Only.step (State.setReg_only ..)
    | decide
    | dsimp +zetaDelta only [id])

theorem nodeRefuse_only (a0 : Nat) (s : State) :
    Only 4194314 s (nodeRefuse a0 s) := by
  unfold nodeRefuse
  repeat' (first
    | with_reducible intro _
    | with_reducible apply Only.refl
    | with_reducible assumption
    | with_reducible apply Only.step (nodeResult_only ..)
    | with_reducible apply Only.step (State.error_only ..)
    | decide
    | dsimp +zetaDelta only [id])

theorem execNodeRead_only (a0 : Requester) (s : State) :
    OnlyNext 4194314 s (execNodeRead a0 s) := by
  unfold execNodeRead
  repeat' (first
    | with_reducible intro _
    | with_reducible apply Only.refl
    | with_reducible assumption
    | with_reducible apply OnlyNext.next
    | with_reducible apply Only.after (writeAccess_only ..)
    | with_reducible apply Only.step (nodeRefuse_only ..)
    | with_reducible apply Only.step (nodeResult_only ..)
    | with_reducible apply Only.after (State.each_only ..)
    | with_reducible apply Only.step (State.setReg_only ..)
    | with_reducible apply each_only
    | decide
    | fail_if_no_progress extract_lets
    | split
    | dsimp +zetaDelta only [id])

theorem execNodeWrite_only (a0 : Requester) (s : State) :
    OnlyNext 5242890 s (execNodeWrite a0 s) := by
  unfold execNodeWrite
  repeat' (first
    | with_reducible intro _
    | with_reducible apply Only.refl
    | with_reducible assumption
    | with_reducible apply OnlyNext.next
    | with_reducible apply Only.after (writeAccess_only ..)
    | with_reducible apply Only.step (nodeRefuse_only ..)
    | with_reducible apply Only.step (nodeResult_only ..)
    | with_reducible apply Only.step (writeNode_only ..)
    | decide
    | fail_if_no_progress extract_lets
    | split
    | dsimp +zetaDelta only [id])

theorem State.setPolicer_only (s : State) (a1 : Nat) (a2 : Policer) :
    Only 1048576 s (State.setPolicer s a1 a2) := by
  unfold State.setPolicer
  repeat' (first
    | with_reducible intro _
    | with_reducible apply Only.refl
    | with_reducible assumption
    | decide
    | with_reducible apply Only.upd_eth
    | dsimp +zetaDelta only [id])

theorem meter_only (a0 : Nat) (a1 : Nat) (a2 : Bool) (s : State) :
    Only 1048576 s (meter a0 a1 a2 s).1 := by
  unfold meter
  repeat' (first
    | with_reducible intro _
    | with_reducible apply Only.refl
    | with_reducible assumption
    | with_reducible apply Only.step (State.setPolicer_only ..)
    | decide
    | fail_if_no_progress extract_lets
    | split
    | dsimp +zetaDelta only [id])

theorem policerResult_only (a0 : Nat) (s : State) :
    Only 8 s (policerResult a0 s) := by
  unfold policerResult
  repeat' (first
    | with_reducible intro _
    | with_reducible apply Only.refl
    | with_reducible assumption
    | with_reducible apply Only.step (State.setReg_only ..)
    | decide
    | dsimp +zetaDelta only [id])

theorem execPolicerRead_only (a0 : Requester) (s : State) :
    OnlyNext 4194314 s (execPolicerRead a0 s) := by
  unfold execPolicerRead
  repeat' (first
    | with_reducible intro _
    | with_reducible apply Only.refl
    | with_reducible assumption
    | with_reducible apply OnlyNext.next
    | with_reducible apply Only.after (writeAccess_only ..)
    | with_reducible apply Only.step (policerResult_only ..)
    | with_reducible apply Only.after (State.each_only ..)
    | with_reducible apply Only.step (State.setReg_only ..)
    | with_reducible apply each_only
    | decide
    | fail_if_no_progress extract_lets
    | dsimp +zetaDelta only [id])

theorem execPolicerWrite_only (a0 : Requester) (s : State) :
    OnlyNext 5242890 s (execPolicerWrite a0 s) := by
  unfold execPolicerWrite
  repeat' (first
    | with_reducible intro _
    | with_reducible apply Only.refl
    | with_reducible assumption
    | with_reducible apply OnlyNext.next
    | with_reducible apply Only.after (writeAccess_only ..)
    | with_reducible apply Only.step (policerResult_only ..)
    | with_reducible apply Only.step (State.error_only ..)
    | with_reducible apply Only.step (State.setPolicer_only ..)
    | decide
    | fail_if_no_progress extract_lets
    | split
    | dsimp +zetaDelta only [id])

theorem prbLate_only (a0 : Nat) (a1 : Nat) (s : State) :
    Only 131072 s (prbLate a0 a1 s) := by
  unfold prbLate
  repeat' (first
    | with_reducible intro _
    | with_reducible apply Only.refl
    | with_reducible assumption
    | with_reducible apply Only.step (State.setRadio_only ..)
    | decide
    | fail_if_no_progress extract_lets
    | dsimp +zetaDelta only [id])

theorem noteArrived_only (a0 : Nat) (a1 : ArrivedPrb) (s : State) :
    Only 131072 s (noteArrived a0 a1 s) := by
  unfold noteArrived
  repeat' (first
    | with_reducible intro _
    | with_reducible apply Only.refl
    | with_reducible assumption
    | with_reducible apply Only.step (State.modRadio_only ..)
    | decide
    | split
    | dsimp +zetaDelta only [id])

theorem ingestPrb_only (a0 : Nat) (a1 : Cell) (a2 : EcpriMsg) (a3 : Nat) (a4 : Prod Nat (Prod Nat (List Int))) (s : State) :
    Only 6422538 s (ingestPrb a0 a1 a2 a3 a4 s) := by
  unfold ingestPrb
  repeat' (first
    | with_reducible intro _
    | with_reducible apply Only.refl
    | with_reducible assumption
    | with_reducible apply Only.step (prbLate_only ..)
    | with_reducible apply Only.step (noteArrived_only ..)
    | with_reducible apply Only.step (writeLine_only ..)
    | with_reducible apply Only.step (State.addReg_only ..)
    | decide
    | fail_if_no_progress extract_lets
    | split
    | dsimp +zetaDelta only [id])

theorem seqGap_only (a0 : Nat) (a1 : Nat) (a2 : EcpriMsg) (s : State) :
    Only 1048584 s (seqGap a0 a1 a2 s) := by
  unfold seqGap
  repeat' (first
    | with_reducible intro _
    | with_reducible apply Only.refl
    | with_reducible assumption
    | with_reducible apply Only.step (State.bump_only ..)
    | decide
    | fail_if_no_progress extract_lets
    | split
    | with_reducible apply Only.upd_eth
    | dsimp +zetaDelta only [id])

theorem ecpriMessage_only (a0 : Nat) (a1 : Nat) (a2 : List Byte) (a3 : BitVec 96) (a4 : EcpriMsg) (s : State) :
    Only 7471114 s (ecpriMessage a0 a1 a2 a3 a4 s).1 := by
  unfold ecpriMessage
  repeat' (first
    | with_reducible intro _
    | with_reducible apply Only.refl
    | with_reducible assumption
    | with_reducible apply Only.step (seqGap_only ..)
    | with_reducible apply Only.after (State.each_only ..)
    | with_reducible apply Only.step (ingestPrb_only ..)
    | with_reducible apply Only.step (queueFrame_only ..)
    | with_reducible apply each_only
    | decide
    | fail_if_no_progress extract_lets
    | split
    | dsimp +zetaDelta only [id])

theorem ecpriFrame_only (a0 : Nat) (a1 : Nat) (a2 : EthFrame) (a3 : BitVec 96) (s : State) :
    Only 7471114 s (ecpriFrame a0 a1 a2 a3 s) := by
  unfold ecpriFrame
  repeat' (first
    | with_reducible intro _
    | with_reducible apply Only.refl
    | with_reducible assumption
    | with_reducible apply Only.step (ecpriMessage_only ..)
    | with_reducible apply Only.step (State.bump_only ..)
    | with_reducible refine Only.step (Only.pair (ecpriMessage_only ..) (by assumption)) (by decide) ?_
    | with_reducible apply foldl_only
    | with_reducible apply foldl_pair_only
    | decide
    | fail_if_no_progress extract_lets
    | split
    | dsimp +zetaDelta only [id])

theorem ingressFrame_only (a0 : Nat) (a1 : Nat) (a2 : Nat) (a3 : List Byte) (s : State) :
    Only 74470410 s (ingressFrame a0 a1 a2 a3 s) := by
  unfold ingressFrame
  repeat' (first
    | with_reducible intro _
    | with_reducible apply Only.refl
    | with_reducible assumption
    | with_reducible apply Only.step (State.bump_only ..)
    | with_reducible apply Only.step (State.partStore_only ..)
    | with_reducible apply Only.step (State.setSem_only ..)
    | decide
    | fail_if_no_progress extract_lets
    | split
    | with_reducible apply Only.upd_eth
    | dsimp +zetaDelta only [id])

theorem inferenceFrame_only (a0 : Nat) (a1 : Nat) (a2 : BitVec 96) (a3 : List Byte) (s : State) :
    Only 74994698 s (inferenceFrame a0 a1 a2 a3 s) := by
  unfold inferenceFrame
  repeat' (first
    | with_reducible intro _
    | with_reducible apply Only.refl
    | with_reducible assumption
    | with_reducible apply Only.step (State.bump_only ..)
    | with_reducible apply Only.step (setRecord_only ..)
    | with_reducible apply Only.step (ingressFrame_only ..)
    | decide
    | fail_if_no_progress extract_lets
    | split
    | dsimp +zetaDelta only [id])

theorem subscriberFrame_only (a0 : Nat) (a1 : EthFrame) (a2 : FrameHead) (a3 : BitVec 96) (s : State) :
    Only 75125770 s (subscriberFrame a0 a1 a2 a3 s) := by
  unfold subscriberFrame
  repeat' (first
    | with_reducible intro _
    | with_reducible apply Only.refl
    | with_reducible assumption
    | with_reducible apply Only.step (State.bump_only ..)
    | with_reducible apply Only.step (meter_only ..)
    | with_reducible apply Only.step (ecpriFrame_only ..)
    | with_reducible apply Only.step (inferenceFrame_only ..)
    | with_reducible refine Only.step (Only.pair (meter_only ..) (by assumption)) (by decide) ?_
    | decide
    | fail_if_no_progress extract_lets
    | split
    | dsimp +zetaDelta only [id])

theorem noteFec_only (a0 : Nat) (a1 : EthFrame) (s : State) :
    Only 4194314 s (noteFec a0 a1 s) := by
  unfold noteFec
  repeat' (first
    | with_reducible intro _
    | with_reducible apply Only.refl
    | with_reducible assumption
    | with_reducible apply Only.after (State.each_only ..)
    | with_reducible apply Only.step (State.addReg_only ..)
    | with_reducible apply Only.step (State.error_only ..)
    | with_reducible apply Only.step (State.bump_only ..)
    | with_reducible apply each_only
    | decide
    | dsimp +zetaDelta only [id])

theorem receiveFrame_only (a0 : Nat) (a1 : EthFrame) (s : State) :
    Only 75125770 s (receiveFrame a0 a1 s) := by
  unfold receiveFrame
  repeat' (first
    | with_reducible intro _
    | with_reducible apply Only.refl
    | with_reducible assumption
    | with_reducible apply Only.step (State.bump_only ..)
    | with_reducible apply Only.step (State.addReg_only ..)
    | with_reducible apply Only.step (State.emit_only ..)
    | with_reducible apply Only.step (subscriberFrame_only ..)
    | decide
    | fail_if_no_progress extract_lets
    | split
    | dsimp +zetaDelta only [id])

theorem execEthFrameRx_only (a0 : Fin 64) (a1 : EthFrame) (s : State) :
    OnlyNext 75125770 s (execEthFrameRx a0 a1 s) := by
  unfold execEthFrameRx
  repeat' (first
    | with_reducible intro _
    | with_reducible apply Only.refl
    | with_reducible assumption
    | with_reducible apply OnlyNext.next
    | with_reducible apply Only.step (receiveFrame_only ..)
    | with_reducible apply Only.step (noteFec_only ..)
    | decide
    | split
    | dsimp +zetaDelta only [id])

theorem execUplaneHandoff_only (a0 : Fin 64) (a1 : Fin 384) (a2 : Nat) (a3 : Nat) (a4 : Fin 14) (a5 : Bool) (a6 : List EgressBlock) (s : State) :
    OnlyNext 1703948 s (execUplaneHandoff a0 a1 a2 a3 a4 a5 a6 s) := by
  unfold execUplaneHandoff
  repeat' (first
    | with_reducible intro _
    | with_reducible apply Only.refl
    | with_reducible assumption
    | with_reducible apply OnlyNext.next
    | with_reducible apply Only.step (setSlotRun_only ..)
    | with_reducible apply Only.step (State.modRadio_only ..)
    | with_reducible apply Only.step (orFlags_only ..)
    | with_reducible apply Only.after (State.each_only ..)
    | with_reducible apply Only.step (formFrame_only ..)
    | with_reducible apply Only.step (State.usedFree_only ..)
    | with_reducible apply each_only
    | decide
    | fail_if_no_progress extract_lets
    | split
    | dsimp +zetaDelta only [id])

theorem recordToFrame_only (a0 : Nat) (a1 : StreamRun) (a2 : TokenRec) (s : State) :
    Only 8257546 s (recordToFrame a0 a1 a2 s) := by
  unfold recordToFrame
  repeat' (first
    | with_reducible intro _
    | with_reducible apply Only.refl
    | with_reducible assumption
    | with_reducible apply Only.step (formFrame_only ..)
    | with_reducible apply Only.after (State.each_only ..)
    | with_reducible apply Only.step (recordTaken_only ..)
    | with_reducible apply each_only
    | decide
    | fail_if_no_progress extract_lets
    | split
    | with_reducible apply Only.upd_serve
    | dsimp +zetaDelta only [id])

theorem execTokenRecordAccepted_only (a0 : Fin 65536) (a1 : Bool) (s : State) :
    OnlyNext 8257546 s (execTokenRecordAccepted a0 a1 s) := by
  unfold execTokenRecordAccepted
  repeat' (first
    | with_reducible intro _
    | with_reducible apply Only.refl
    | with_reducible assumption
    | with_reducible apply OnlyNext.next
    | with_reducible apply Only.step (recordToCq_only ..)
    | with_reducible apply Only.step (recordToFrame_only ..)
    | decide
    | split
    | dsimp +zetaDelta only [id])

theorem linkDrops_only (a0 : Nat) (s : State) :
    Only 138412042 s (linkDrops a0 s) := by
  unfold linkDrops
  repeat' (first
    | with_reducible intro _
    | with_reducible apply Only.refl
    | with_reducible assumption
    | with_reducible apply Only.step (noteTraining_only ..)
    | with_reducible apply Only.step (State.raise_only ..)
    | with_reducible apply Only.step (State.setReg_only ..)
    | decide
    | split
    | dsimp +zetaDelta only [id])

theorem resetPort_only (a0 : Nat) (s : State) :
    Only 139460618 s (resetPort a0 s) := by
  unfold resetPort
  repeat' (first
    | with_reducible intro _
    | with_reducible apply Only.refl
    | with_reducible assumption
    | with_reducible apply Only.after (State.each_only ..)
    | with_reducible apply Only.step (linkDrops_only ..)
    | with_reducible apply Only.step (State.setNode_only ..)
    | with_reducible apply Only.step (State.bump_only ..)
    | with_reducible apply Only.step (setQueue_only ..)
    | with_reducible apply Only.step (State.setEthPort_only ..)
    | with_reducible apply each_only
    | decide
    | fail_if_no_progress extract_lets
    | split
    | dsimp +zetaDelta only [id])

end Sys2Proof.Machine
end

