-- ==== Sys2Proof/Laws/OnlyFabCore.lean ====
section
/-! SUPPORT. What each operation of Machine/FabCore.lean may touch: one lemma per operation, in the form of Laws/Only.lean. -/

namespace Sys2Proof.Machine

set_option linter.unusedTactic false
set_option linter.unreachableTactic false
set_option linter.unusedVariables false

theorem execIssueFabric_only (a0 : Fin 160) (a1 : IssueWord) (s : State) :
    OnlyNext 73426446 s (execIssueFabric a0 a1 s) := by
  unfold execIssueFabric
  repeat' (first
    | with_reducible intro _
    | with_reducible apply Only.refl
    | with_reducible assumption
    | with_reducible apply OnlyNext.next
    | with_reducible apply Only.after (runInsn_only ..)
    | with_reducible apply Only.step (issueBody_only ..)
    | decide
    | dsimp +zetaDelta only [id])

theorem remoteFault_only (a0 : Bool) (a1 : Nat) (a2 : Nat) (s : State) :
    Only 4194314 s (remoteFault a0 a1 a2 s) := by
  unfold remoteFault
  repeat' (first
    | with_reducible intro _
    | with_reducible apply Only.refl
    | with_reducible assumption
    | with_reducible apply Only.step (State.raiseBits_only ..)
    | with_reducible apply Only.step (State.error_only ..)
    | decide
    | split
    | dsimp +zetaDelta only [id])

theorem putResult_only (a0 : Nat) (a1 : Nat) (a2 : FabDesc) (a3 : FabReq) (a4 : List Byte) (s : State) :
    Only 73417738 s (putResult a0 a1 a2 a3 a4 s) := by
  unfold putResult
  repeat' (first
    | with_reducible intro _
    | with_reducible apply Only.refl
    | with_reducible assumption
    | with_reducible apply Only.step (State.partWrite_only ..)
    | with_reducible apply Only.step (State.spadWrite_only ..)
    | decide
    | split
    | dsimp +zetaDelta only [id])

theorem answerReq_only (a0 : Nat) (a1 : FabReq) (a2 : Nat) (a3 : Nat) (a4 : Nat) (a5 : List Byte) (s : State) :
    Only 73418250 s (answerReq a0 a1 a2 a3 a4 a5 s) := by
  unfold answerReq
  repeat' (first
    | with_reducible intro _
    | with_reducible apply Only.refl
    | with_reducible assumption
    | with_reducible apply Only.step (State.setCore_only ..)
    | with_reducible apply Only.step (State.modCore_only ..)
    | with_reducible apply Only.step (putResult_only ..)
    | with_reducible apply Only.step (remoteFault_only ..)
    | decide
    | fail_if_no_progress extract_lets
    | split
    | dsimp +zetaDelta only [id])

theorem recordResponse_only (a0 : Packet) (s : State) :
    Only 73417738 s (recordResponse a0 s) := by
  unfold recordResponse
  repeat' (first
    | with_reducible intro _
    | with_reducible apply Only.refl
    | with_reducible assumption
    | with_reducible apply Only.step (putEntry_only ..)
    | decide
    | split
    | dsimp +zetaDelta only [id])

theorem noteRefusal_only (a0 : Packet) (a1 : Nat) (a2 : FabReq) (s : State) :
    Only 512 s (noteRefusal a0 a1 a2 s) := by
  unfold noteRefusal
  repeat' (first
    | with_reducible intro _
    | with_reducible apply Only.refl
    | with_reducible assumption
    | with_reducible apply Only.step (State.modCore_only ..)
    | decide
    | fail_if_no_progress extract_lets
    | split
    | dsimp +zetaDelta only [id])

theorem takeResponse_only (a0 : Packet) (s : State) :
    Only 73418250 s (takeResponse a0 s) := by
  unfold takeResponse
  repeat' (first
    | with_reducible intro _
    | with_reducible apply Only.refl
    | with_reducible assumption
    | with_reducible apply Only.step (noteRefusal_only ..)
    | with_reducible apply Only.step (answerReq_only ..)
    | with_reducible apply Only.step (recordResponse_only ..)
    | decide
    | fail_if_no_progress extract_lets
    | split
    | dsimp +zetaDelta only [id])

theorem takeLine_only (a0 : Packet) (s : State) :
    Only 4195338 s (takeLine a0 s) := by
  unfold takeLine
  repeat' (first
    | with_reducible intro _
    | with_reducible apply Only.refl
    | with_reducible assumption
    | with_reducible apply Only.step (setCopy_only ..)
    | with_reducible apply Only.step (State.sendPackets_only ..)
    | with_reducible apply Only.step (remoteFault_only ..)
    | decide
    | fail_if_no_progress extract_lets
    | split
    | dsimp +zetaDelta only [id])

end Sys2Proof.Machine
end

