-- ==== Sys2Proof/Laws/OnlyRoute.lean ====
section
/-! SUPPORT. What each operation of Machine/Route.lean may touch: one lemma per operation, in the form of Laws/Only.lean. -/

namespace Sys2Proof.Machine

set_option linter.unusedTactic false
set_option linter.unreachableTactic false
set_option linter.unusedVariables false

theorem setLink_only (a0 : Nat) (a1 : Link) (s : State) :
    Only 1024 s (setLink a0 a1 s) := by
  unfold setLink
  repeat' (first
    | with_reducible intro _
    | with_reducible apply Only.refl
    | with_reducible assumption
    | decide
    | with_reducible apply Only.upd_fabric
    | dsimp +zetaDelta only [id])

theorem modLink_only (a0 : Nat) (a1 : Link → Link) (s : State) :
    Only 1024 s (modLink a0 a1 s) := by
  unfold modLink
  repeat' (first
    | with_reducible intro _
    | with_reducible apply Only.refl
    | with_reducible assumption
    | with_reducible apply Only.step (setLink_only ..)
    | decide
    | dsimp +zetaDelta only [id])

theorem State.gate_only (s : State) (a1 : Nat) (a2 : Nat) (a3 : Nat) :
    Only 2 s (State.gate s a1 a2 a3) := by
  unfold State.gate
  repeat' (first
    | with_reducible intro _
    | with_reducible apply Only.refl
    | with_reducible assumption
    | with_reducible apply Only.step (State.emit_only ..)
    | decide
    | dsimp +zetaDelta only [id])

theorem freeFlits_only (a0 : Nat) (a1 : Nat) (a2 : Nat) (s : State) :
    Only 1026 s (freeFlits a0 a1 a2 s) := by
  unfold freeFlits
  repeat' (first
    | with_reducible intro _
    | with_reducible apply Only.refl
    | with_reducible assumption
    | with_reducible apply Only.step (State.gate_only ..)
    | with_reducible apply Only.step (setLink_only ..)
    | decide
    | fail_if_no_progress extract_lets
    | split
    | dsimp +zetaDelta only [id])

theorem freeSource_only (a0 : QPacket) (a1 : Nat) (s : State) :
    Only 1026 s (freeSource a0 a1 s) := by
  unfold freeSource
  repeat' (first
    | with_reducible intro _
    | with_reducible apply Only.refl
    | with_reducible assumption
    | with_reducible apply Only.step (freeFlits_only ..)
    | decide
    | split
    | dsimp +zetaDelta only [id])

theorem sendSeal_only (a0 : Nat) (a1 : GateSeal) (s : State) :
    Only 1026 s (sendSeal a0 a1 s) := by
  unfold sendSeal
  repeat' (first
    | with_reducible intro _
    | with_reducible apply Only.refl
    | with_reducible assumption
    | with_reducible apply Only.step (State.gate_only ..)
    | with_reducible apply Only.step (setLink_only ..)
    | decide
    | fail_if_no_progress extract_lets
    | split
    | dsimp +zetaDelta only [id])

theorem sealsAdvance_only (a0 : Nat) (a1 : Nat) (a2 : Nat) (s : State) :
    Only 1026 s (sealsAdvance a0 a1 a2 s) := by
  unfold sealsAdvance
  repeat' (first
    | with_reducible intro _
    | with_reducible apply Only.refl
    | with_reducible assumption
    | with_reducible apply Only.after (State.each_only ..)
    | with_reducible apply Only.step (setLink_only ..)
    | with_reducible apply Only.step (sendSeal_only ..)
    | with_reducible apply each_only
    | decide
    | fail_if_no_progress extract_lets
    | split
    | dsimp +zetaDelta only [id])

theorem storePacket_only (a0 : Nat) (a1 : QPacket) (s : State) :
    Only 1026 s (storePacket a0 a1 s).2 := by
  unfold storePacket
  repeat' (first
    | with_reducible intro _
    | with_reducible apply Only.refl
    | with_reducible assumption
    | with_reducible apply Only.step (freeSource_only ..)
    | with_reducible apply Only.step (sealsAdvance_only ..)
    | decide
    | fail_if_no_progress extract_lets
    | split
    | dsimp +zetaDelta only [id])

theorem keepPair_only (a0 : Packet) (a1 : Packet) (s : State) :
    Only 1024 s (keepPair a0 a1 s) := by
  unfold keepPair
  repeat' (first
    | with_reducible intro _
    | with_reducible apply Only.refl
    | with_reducible assumption
    | decide
    | fail_if_no_progress extract_lets
    | split
    | with_reducible apply Only.upd_fabric
    | dsimp +zetaDelta only [id])

theorem enqueueAt_only (a0 : Nat) (a1 : QPacket) (s : State) :
    Only 1034 s (enqueueAt a0 a1 s) := by
  unfold enqueueAt
  repeat' (first
    | with_reducible intro _
    | with_reducible apply Only.refl
    | with_reducible assumption
    | with_reducible apply Only.step (modLink_only ..)
    | with_reducible apply Only.step (State.addReg_only ..)
    | with_reducible apply Only.step (freeSource_only ..)
    | with_reducible apply Only.step (keepPair_only ..)
    | with_reducible apply Only.step (State.sendPackets_only ..)
    | with_reducible apply Only.step (storePacket_only ..)
    | with_reducible refine Only.step (Only.pair2 (storePacket_only ..) (by assumption)) (by decide) ?_
    | decide
    | fail_if_no_progress extract_lets
    | split
    | dsimp +zetaDelta only [id])

theorem holdItem_only (s : State) (a1 : Nat) (a2 : HeldItem) :
    OnlyOpt 1024 s (holdItem s a1 a2) := by
  unfold holdItem
  repeat' (first
    | with_reducible intro _
    | with_reducible apply Only.refl
    | with_reducible assumption
    | with_reducible apply OnlyOpt.some
    | with_reducible apply OnlyOpt.none
    | with_reducible apply OnlyOpt.map
    | decide
    | split
    | with_reducible apply Only.upd_fabric
    | dsimp +zetaDelta only [id])

theorem deliver_only (a0 : QPacket) (s : State) :
    Only 1024 s (deliver a0 s) := by
  unfold deliver
  repeat' (first
    | with_reducible intro _
    | with_reducible apply Only.refl
    | with_reducible assumption
    | with_reducible apply Only.step (modLink_only ..)
    | decide
    | dsimp +zetaDelta only [id])

theorem unreachable_only (a0 : QPacket) (s : State) :
    Only 4195850 s (unreachable a0 s) := by
  unfold unreachable
  repeat' (first
    | with_reducible intro _
    | with_reducible apply Only.refl
    | with_reducible assumption
    | with_reducible apply Only.step (freeSource_only ..)
    | with_reducible apply Only.step (State.error_only ..)
    | with_reducible apply Only.step (State.modCore_only ..)
    | with_reducible apply Only.step (State.raise_only ..)
    | decide
    | fail_if_no_progress extract_lets
    | split
    | dsimp +zetaDelta only [id])

theorem routeOne_only (a0 : QPacket) (s : State) :
    Only 4195850 s (routeOne a0 s) := by
  unfold routeOne
  repeat' (first
    | with_reducible intro _
    | with_reducible apply Only.refl
    | with_reducible assumption
    | with_reducible apply Only.step (deliver_only ..)
    | with_reducible apply Only.step (unreachable_only ..)
    | with_reducible apply Only.step (enqueueAt_only ..)
    | with_reducible refine Only.step (OnlyOpt.get (holdItem_only ..) (by assumption)) (by decide) ?_
    | decide
    | fail_if_no_progress extract_lets
    | split
    | dsimp +zetaDelta only [id])

theorem routePacket_only (a0 : QPacket) (s : State) :
    Only 4195850 s (routePacket a0 s) := by
  unfold routePacket
  repeat' (first
    | with_reducible intro _
    | with_reducible apply Only.refl
    | with_reducible assumption
    | with_reducible apply Only.step (routeOne_only ..)
    | with_reducible apply Only.step (deliver_only ..)
    | with_reducible apply Only.step (freeSource_only ..)
    | with_reducible apply Only.after (State.each_only ..)
    | with_reducible apply Only.step (enqueueAt_only ..)
    | with_reducible apply each_only
    | decide
    | fail_if_no_progress extract_lets
    | split
    | dsimp +zetaDelta only [id])

theorem placeSeal_only (a0 : GateSeal) (s : State) :
    Only 1026 s (placeSeal a0 s) := by
  unfold placeSeal
  repeat' (first
    | with_reducible intro _
    | with_reducible apply Only.refl
    | with_reducible assumption
    | with_reducible apply Only.step (sendSeal_only ..)
    | with_reducible apply Only.step (setLink_only ..)
    | with_reducible refine Only.step (OnlyOpt.get (holdItem_only ..) (by assumption)) (by decide) ?_
    | decide
    | fail_if_no_progress extract_lets
    | split
    | dsimp +zetaDelta only [id])

theorem releaseHeld_only (a0 : List HeldItem) (s : State) :
    Only 4195850 s (releaseHeld a0 s) := by
  unfold releaseHeld
  repeat' (first
    | with_reducible intro _
    | with_reducible apply Only.refl
    | with_reducible assumption
    | with_reducible apply Only.after (State.each_only ..)
    | with_reducible apply Only.step (routePacket_only ..)
    | with_reducible apply Only.step (placeSeal_only ..)
    | with_reducible apply each_only
    | decide
    | split
    | dsimp +zetaDelta only [id])

theorem flush_only (s : State) :
    Only 4195850 s (flush s) := by
  unfold flush
  repeat' (first
    | with_reducible intro _
    | with_reducible apply Only.refl
    | with_reducible assumption
    | with_reducible apply Only.after (State.each_only ..)
    | with_reducible apply Only.step (routePacket_only ..)
    | with_reducible apply Only.step (placeSeal_only ..)
    | with_reducible apply each_only
    | decide
    | fail_if_no_progress extract_lets
    | with_reducible apply Only.upd_fabric
    | dsimp +zetaDelta only [id])

theorem issueSeal_only (a0 : Nat) (a1 : Nat) (a2 : SealKind) (s : State) :
    Only 1544 s (issueSeal a0 a1 a2 s) := by
  unfold issueSeal
  repeat' (first
    | with_reducible intro _
    | with_reducible apply Only.refl
    | with_reducible assumption
    | with_reducible apply Only.step (State.addReg_only ..)
    | decide
    | fail_if_no_progress extract_lets
    | split
    | with_reducible apply Only.upd_cores
    | with_reducible apply Only.upd_fabric
    | dsimp +zetaDelta only [id])

theorem settleDrain_only (a0 : Nat) (s : State) :
    Only 1026 s (settleDrain a0 s) := by
  unfold settleDrain
  repeat' (first
    | with_reducible intro _
    | with_reducible apply Only.refl
    | with_reducible assumption
    | with_reducible apply Only.step (State.emit_only ..)
    | decide
    | fail_if_no_progress extract_lets
    | split
    | with_reducible apply Only.upd_fabric
    | dsimp +zetaDelta only [id])

theorem issueWanted_only (s : State) :
    Only 1546 s (issueWanted s) := by
  unfold issueWanted
  repeat' (first
    | with_reducible intro _
    | with_reducible apply Only.refl
    | with_reducible assumption
    | with_reducible apply Only.after (State.each_only ..)
    | with_reducible apply Only.step (placeSeal_only ..)
    | with_reducible apply Only.step (issueSeal_only ..)
    | with_reducible apply each_only
    | decide
    | split
    | with_reducible apply Only.upd_fabric
    | dsimp +zetaDelta only [id])

theorem issueFences_only (s : State) :
    Only 4195850 s (issueFences s) := by
  unfold issueFences
  repeat' (first
    | with_reducible intro _
    | with_reducible apply Only.refl
    | with_reducible assumption
    | with_reducible apply Only.step (flush_only ..)
    | with_reducible apply Only.after (State.each_only ..)
    | with_reducible apply Only.step (sendSeals_only ..)
    | with_reducible apply each_only
    | decide
    | fail_if_no_progress extract_lets
    | split
    | dsimp +zetaDelta only [id])

theorem sealDone_only (a0 : Nat) (s : State) :
    Only 4195850 s (sealDone a0 s) := by
  unfold sealDone
  repeat' (first
    | with_reducible intro _
    | with_reducible apply Only.refl
    | with_reducible assumption
    | with_reducible apply Only.step (State.setReg_only ..)
    | with_reducible apply Only.step (settleDrain_only ..)
    | with_reducible apply Only.step (modLink_only ..)
    | with_reducible apply Only.step (releaseHeld_only ..)
    | with_reducible apply Only.step (issueFences_only ..)
    | with_reducible apply Only.step (issueWanted_only ..)
    | decide
    | fail_if_no_progress extract_lets
    | split
    | with_reducible apply Only.upd_cores
    | with_reducible apply Only.upd_fabric
    | dsimp +zetaDelta only [id])

theorem updateReach_only (s : State) :
    Only 4194314 s (updateReach s) := by
  unfold updateReach
  repeat' (first
    | with_reducible intro _
    | with_reducible apply Only.refl
    | with_reducible assumption
    | with_reducible apply Only.step (State.raiseBits_only ..)
    | with_reducible apply Only.step (State.setReg_only ..)
    | decide
    | fail_if_no_progress extract_lets
    | split
    | dsimp +zetaDelta only [id])

theorem moveDest_only (a0 : Nat) (a1 : Nat) (a2 : Nat) (a3 : Bool) (s : State) :
    Only 4195850 s (moveDest a0 a1 a2 a3 s) := by
  unfold moveDest
  repeat' (first
    | with_reducible intro _
    | with_reducible apply Only.refl
    | with_reducible assumption
    | with_reducible apply Only.step (placeSeal_only ..)
    | with_reducible apply Only.step (issueSeal_only ..)
    | with_reducible apply Only.step (State.raiseBits_only ..)
    | with_reducible apply Only.step (State.bump_only ..)
    | decide
    | fail_if_no_progress extract_lets
    | split
    | with_reducible apply Only.upd_fabric
    | dsimp +zetaDelta only [id])

theorem execRouteMove_only (a0 : BitVec 12) (a1 : Fin 8) (s : State) :
    OnlyNext 4195850 s (execRouteMove a0 a1 s) := by
  unfold execRouteMove
  repeat' (first
    | with_reducible intro _
    | with_reducible apply Only.refl
    | with_reducible assumption
    | with_reducible apply OnlyNext.next
    | with_reducible apply Only.step (flush_only ..)
    | with_reducible apply Only.step (moveDest_only ..)
    | decide
    | fail_if_no_progress extract_lets
    | split
    | dsimp +zetaDelta only [id])

theorem execRouteReturn_only (a0 : BitVec 12) (s : State) :
    OnlyNext 4195850 s (execRouteReturn a0 s) := by
  unfold execRouteReturn
  repeat' (first
    | with_reducible intro _
    | with_reducible apply Only.refl
    | with_reducible assumption
    | with_reducible apply OnlyNext.next
    | with_reducible apply Only.step (flush_only ..)
    | with_reducible apply Only.step (moveDest_only ..)
    | decide
    | fail_if_no_progress extract_lets
    | split
    | dsimp +zetaDelta only [id])

theorem execOutputDown_only (a0 : Fin 8) (s : State) :
    OnlyNext 4195850 s (execOutputDown a0 s) := by
  unfold execOutputDown
  repeat' (first
    | with_reducible intro _
    | with_reducible apply Only.refl
    | with_reducible assumption
    | with_reducible apply OnlyNext.next
    | with_reducible apply Only.step (flush_only ..)
    | with_reducible apply Only.step (setLink_only ..)
    | with_reducible apply Only.step (updateReach_only ..)
    | with_reducible apply Only.step (State.raise_only ..)
    | with_reducible apply Only.step (State.bump_only ..)
    | with_reducible apply Only.step (settleDrain_only ..)
    | with_reducible apply Only.step (issueWanted_only ..)
    | with_reducible apply Only.step (releaseHeld_only ..)
    | decide
    | fail_if_no_progress extract_lets
    | split
    | with_reducible apply Only.upd_fabric
    | dsimp +zetaDelta only [id])

theorem endDrain_only (a0 : Nat) (s : State) :
    Only 4195850 s (endDrain a0 s) := by
  unfold endDrain
  repeat' (first
    | with_reducible intro _
    | with_reducible apply Only.refl
    | with_reducible assumption
    | with_reducible apply Only.step (releaseHeld_only ..)
    | decide
    | split
    | with_reducible apply Only.upd_fabric
    | dsimp +zetaDelta only [id])

theorem execDrained_only (a0 : Fin 8) (s : State) :
    OnlyNext 4195850 s (execDrained a0 s) := by
  unfold execDrained
  repeat' (first
    | with_reducible intro _
    | with_reducible apply Only.refl
    | with_reducible assumption
    | with_reducible apply OnlyNext.next
    | with_reducible apply Only.step (endDrain_only ..)
    | with_reducible apply Only.step (flush_only ..)
    | decide
    | split
    | dsimp +zetaDelta only [id])

theorem execDrainTimeout_only (a0 : Fin 8) (s : State) :
    OnlyNext 4195850 s (execDrainTimeout a0 s) := by
  unfold execDrainTimeout
  repeat' (first
    | with_reducible intro _
    | with_reducible apply Only.refl
    | with_reducible assumption
    | with_reducible apply OnlyNext.next
    | with_reducible apply Only.step (endDrain_only ..)
    | with_reducible apply Only.step (State.error_only ..)
    | with_reducible apply Only.step (flush_only ..)
    | decide
    | split
    | dsimp +zetaDelta only [id])

theorem appendAt_only (a0 : Nat) (a1 : Nat) (a2 : QPacket) (s : State) :
    Only 1024 s (appendAt a0 a1 a2 s) := by
  unfold appendAt
  repeat' (first
    | with_reducible intro _
    | with_reducible apply Only.refl
    | with_reducible assumption
    | with_reducible apply Only.step (modLink_only ..)
    | decide
    | dsimp +zetaDelta only [id])

theorem storeQuenched_only (s : State) :
    Only 1026 s (storeQuenched s) := by
  unfold storeQuenched
  repeat' (first
    | with_reducible intro _
    | with_reducible apply Only.refl
    | with_reducible assumption
    | with_reducible apply Only.after (State.each_only ..)
    | with_reducible apply Only.step (modLink_only ..)
    | with_reducible apply Only.step (storePacket_only ..)
    | with_reducible apply Only.step (appendAt_only ..)
    | with_reducible refine Only.step (Only.pair2 (storePacket_only ..) (by assumption)) (by decide) ?_
    | with_reducible apply each_only
    | decide
    | fail_if_no_progress extract_lets
    | split
    | dsimp +zetaDelta only [id])

theorem gateQuench_only (a0 : Nat) (a1 : Bool) (s : State) :
    Only 2 s (gateQuench a0 a1 s) := by
  unfold gateQuench
  repeat' (first
    | with_reducible intro _
    | with_reducible apply Only.refl
    | with_reducible assumption
    | with_reducible apply Only.after (State.each_only ..)
    | with_reducible apply Only.step (State.gate_only ..)
    | with_reducible apply each_only
    | decide
    | dsimp +zetaDelta only [id])

theorem updateQuench_only (s : State) :
    Only 4195338 s (updateQuench s) := by
  unfold updateQuench
  repeat' (first
    | with_reducible intro _
    | with_reducible apply Only.refl
    | with_reducible assumption
    | with_reducible apply Only.step (State.setReg_only ..)
    | with_reducible apply Only.after (State.each_only ..)
    | with_reducible apply Only.step (gateQuench_only ..)
    | with_reducible apply Only.step (storeQuenched_only ..)
    | with_reducible apply Only.step (State.raiseBits_only ..)
    | with_reducible apply each_only
    | decide
    | fail_if_no_progress extract_lets
    | split
    | dsimp +zetaDelta only [id])

theorem setQuench_only (a0 : Nat) (s : State) :
    Only 4195850 s (setQuench a0 s) := by
  unfold setQuench
  repeat' (first
    | with_reducible intro _
    | with_reducible apply Only.refl
    | with_reducible assumption
    | with_reducible apply Only.step (flush_only ..)
    | with_reducible apply Only.step (State.setReg_only ..)
    | with_reducible apply Only.after (State.each_only ..)
    | with_reducible apply Only.step (gateQuench_only ..)
    | with_reducible apply Only.step (updateQuench_only ..)
    | with_reducible apply each_only
    | decide
    | fail_if_no_progress extract_lets
    | with_reducible apply Only.upd_fabric
    | dsimp +zetaDelta only [id])

theorem execQuenchWrite_only (a0 : Requester) (a1 : BitVec 64) (s : State) :
    OnlyNext 4195850 s (execQuenchWrite a0 a1 s) := by
  unfold execQuenchWrite
  repeat' (first
    | with_reducible intro _
    | with_reducible apply Only.refl
    | with_reducible assumption
    | with_reducible apply OnlyNext.next
    | with_reducible apply Only.after (writeAccess_only ..)
    | with_reducible apply Only.step (setQuench_only ..)
    | decide
    | dsimp +zetaDelta only [id])

theorem execQuench_only (a0 : Fin 9) (a1 : Fin 64) (a2 : Bool) (s : State) :
    OnlyNext 4195850 s (execQuench a0 a1 a2 s) := by
  unfold execQuench
  repeat' (first
    | with_reducible intro _
    | with_reducible apply Only.refl
    | with_reducible assumption
    | with_reducible apply OnlyNext.next
    | with_reducible apply Only.step (updateQuench_only ..)
    | with_reducible apply Only.step (flush_only ..)
    | with_reducible apply Only.after (State.each_only ..)
    | with_reducible apply Only.step (State.gate_only ..)
    | with_reducible apply each_only
    | decide
    | fail_if_no_progress extract_lets
    | split
    | with_reducible apply Only.upd_fabric
    | dsimp +zetaDelta only [id])

end Sys2Proof.Machine
end

