-- ==== Sys2Proof/Laws/OnlyHome.lean ====
section
/-! SUPPORT. What each operation of Machine/Home.lean may touch: one lemma per operation, in the form of Laws/Only.lean. -/

namespace Sys2Proof.Machine

set_option linter.unusedTactic false
set_option linter.unreachableTactic false
set_option linter.unusedVariables false

/-- The state that an answer of a home carries follows by changes of the parts in the mask m. -/
def OnlyServed (m : Nat) (s : State) : Served → Prop
  | .answer t _ _ _ => Only m s t
  | .taken t => Only m s t
  | .later t => Only m s t

theorem OnlyServed.answer {m a b : Nat} {l : List Byte} {s t : State} (h : Only m s t) : OnlyServed m s (.answer t a b l) := h
theorem OnlyServed.taken {m : Nat} {s t : State} (h : Only m s t) : OnlyServed m s (.taken t) := h
theorem OnlyServed.later {m : Nat} {s t : State} (h : Only m s t) : OnlyServed m s (.later t) := h
theorem OnlyServed.get_answer {m a b : Nat} {l : List Byte} {s t : State} {v : Served} (h : OnlyServed m s v)
    (e : v = .answer t a b l) : Only m s t := by subst e; exact h
theorem OnlyServed.get_taken {m : Nat} {s t : State} {v : Served} (h : OnlyServed m s v) (e : v = .taken t) : Only m s t := by
  subst e; exact h
theorem OnlyServed.get_later {m : Nat} {s t : State} {v : Served} (h : OnlyServed m s v) (e : v = .later t) : Only m s t := by
  subst e; exact h
theorem OnlyServed.after {m : Nat} {s t : State} {v : Served} (g : OnlyServed m t v) (h : Only m s t) : OnlyServed m s v := by
  cases v <;> exact h.trans g
theorem OnlyServed.step {a m : Nat} {s t : State} {v : Served} (g : OnlyServed a t v) (w : m ||| a = m) (h : Only m s t) :
    OnlyServed m s v := by
  cases v <;> exact h.trans (g.mono w)

theorem absorbLine_only (a0 : Nat) (a1 : Nat) (s : State) :
    Only 1024 s (absorbLine a0 a1 s) := by
  unfold absorbLine
  repeat' (first
    | with_reducible intro _
    | with_reducible apply Only.refl
    | with_reducible assumption
    | decide
    | fail_if_no_progress extract_lets
    | split
    | with_reducible apply Only.upd_fabric
    | dsimp +zetaDelta only [id])

theorem absorb_only (a0 : Packet) (s : State) :
    Only 1032 s (absorb a0 s) := by
  unfold absorb
  repeat' (first
    | with_reducible intro _
    | with_reducible apply Only.refl
    | with_reducible assumption
    | with_reducible apply OnlyServed.answer
    | with_reducible apply OnlyServed.taken
    | with_reducible apply OnlyServed.later
    | with_reducible apply Only.step (State.addReg_only ..)
    | with_reducible apply Only.after (State.each_only ..)
    | with_reducible apply Only.step (absorbLine_only ..)
    | with_reducible apply each_only
    | decide
    | split
    | dsimp +zetaDelta only [id])

theorem refuse_only (a0 : Packet) (s : State) :
    OnlyServed 1028 s (refuse a0 s) := by
  unfold refuse
  repeat' (first
    | with_reducible intro _
    | with_reducible apply Only.refl
    | with_reducible assumption
    | with_reducible apply OnlyServed.answer
    | with_reducible apply OnlyServed.taken
    | with_reducible apply OnlyServed.later
    | with_reducible apply Only.step (State.usedFree_only ..)
    | decide
    | fail_if_no_progress extract_lets
    | split
    | with_reducible apply Only.upd_fabric
    | dsimp +zetaDelta only [id])

theorem noteLoad_only (a0 : Packet) (s : State) :
    Only 1024 s (noteLoad a0 s) := by
  unfold noteLoad
  repeat' (first
    | with_reducible intro _
    | with_reducible apply Only.refl
    | with_reducible assumption
    | with_reducible apply Only.step (setRep_only ..)
    | decide
    | fail_if_no_progress extract_lets
    | split
    | dsimp +zetaDelta only [id])

theorem readServed_only {m : Nat} (a0 : Packet) (a1 : List Byte → State → Served) (s : State) (w : m ||| 6308878 = m) (h1 : ∀ x0 u, OnlyServed m u (a1 x0 u)) :
    OnlyServed m s (readServed a0 a1 s) := by
  unfold readServed
  repeat' (first
    | with_reducible intro _
    | with_reducible apply Only.refl
    | with_reducible assumption
    | with_reducible apply OnlyServed.answer
    | with_reducible apply OnlyServed.taken
    | with_reducible apply OnlyServed.later
    | with_reducible apply Only.step (State.faultTouch_only ..)
    | with_reducible apply Only.step (State.partTouch_only ..)
    | with_reducible apply OnlyServed.after (h1 ..)
    | with_reducible exact sub_of w (by decide)
    | with_reducible exact bit_of w (by decide)
    | decide
    | fail_if_no_progress extract_lets
    | split
    | dsimp +zetaDelta only [id])

theorem writeServed_only (a0 : Packet) (a1 : List Byte) (a2 : Nat) (a3 : List Byte) (s : State) :
    OnlyServed 73417738 s (writeServed a0 a1 a2 a3 s) := by
  unfold writeServed
  repeat' (first
    | with_reducible intro _
    | with_reducible apply Only.refl
    | with_reducible assumption
    | with_reducible apply OnlyServed.answer
    | with_reducible apply OnlyServed.taken
    | with_reducible apply OnlyServed.later
    | with_reducible apply Only.step (State.faultTouch_only ..)
    | with_reducible apply Only.step (absorb_only ..)
    | with_reducible apply Only.step (State.partStore_only ..)
    | decide
    | split
    | dsimp +zetaDelta only [id])

theorem atomicServed_only (a0 : Packet) (s : State) :
    OnlyServed 73417742 s (atomicServed a0 s) := by
  unfold atomicServed
  repeat' (first
    | with_reducible intro _
    | with_reducible apply Only.refl
    | with_reducible assumption
    | with_reducible apply OnlyServed.answer
    | with_reducible apply OnlyServed.taken
    | with_reducible apply OnlyServed.later
    | with_reducible apply Only.step (State.faultTouch_only ..)
    | with_reducible apply OnlyServed.after (readServed_only ..)
    | with_reducible apply OnlyServed.step (writeServed_only ..)
    | with_reducible refine Only.step (OnlyServed.get_answer (writeServed_only ..) (by assumption)) (by decide) ?_
    | with_reducible refine Only.step (OnlyServed.get_taken (writeServed_only ..) (by assumption)) (by decide) ?_
    | with_reducible refine Only.step (OnlyServed.get_later (writeServed_only ..) (by assumption)) (by decide) ?_
    | decide
    | fail_if_no_progress extract_lets
    | split
    | dsimp +zetaDelta only [id])

theorem putLine_only (a0 : Nat) (a1 : Nat) (a2 : Nat) (a3 : ZLine) (s : State) :
    Only 73417738 s (putLine a0 a1 a2 a3 s) := by
  unfold putLine
  repeat' (first
    | with_reducible intro _
    | with_reducible apply Only.refl
    | with_reducible assumption
    | with_reducible apply Only.step (State.partStore_only ..)
    | decide
    | dsimp +zetaDelta only [id])

theorem gatherServed_only (a0 : Packet) (s : State) :
    OnlyServed 73417742 s (gatherServed a0 s) := by
  unfold gatherServed
  repeat' (first
    | with_reducible intro _
    | with_reducible apply Only.refl
    | with_reducible assumption
    | with_reducible apply OnlyServed.answer
    | with_reducible apply OnlyServed.taken
    | with_reducible apply OnlyServed.later
    | with_reducible apply Only.step (State.partTouch_only ..)
    | with_reducible apply Only.step (putLine_only ..)
    | with_reducible apply Only.step (State.sendPackets_only ..)
    | with_reducible apply OnlyServed.step (refuse_only ..)
    | with_reducible apply Only.step (State.bump_only ..)
    | with_reducible refine Only.step (OnlyServed.get_answer (refuse_only ..) (by assumption)) (by decide) ?_
    | with_reducible refine Only.step (OnlyServed.get_taken (refuse_only ..) (by assumption)) (by decide) ?_
    | with_reducible refine Only.step (OnlyServed.get_later (refuse_only ..) (by assumption)) (by decide) ?_
    | decide
    | fail_if_no_progress extract_lets
    | split
    | with_reducible apply Only.upd_fabric
    | dsimp +zetaDelta only [id])

theorem reduceServed_only (a0 : Packet) (s : State) :
    OnlyServed 73417742 s (reduceServed a0 s) := by
  unfold reduceServed
  repeat' (first
    | with_reducible intro _
    | with_reducible apply Only.refl
    | with_reducible assumption
    | with_reducible apply OnlyServed.answer
    | with_reducible apply OnlyServed.taken
    | with_reducible apply OnlyServed.later
    | with_reducible apply Only.step (State.faultTouch_only ..)
    | with_reducible apply OnlyServed.step (gatherServed_only ..)
    | with_reducible apply Only.step (State.partTouch_only ..)
    | with_reducible apply Only.step (putLine_only ..)
    | with_reducible refine Only.step (OnlyServed.get_answer (gatherServed_only ..) (by assumption)) (by decide) ?_
    | with_reducible refine Only.step (OnlyServed.get_taken (gatherServed_only ..) (by assumption)) (by decide) ?_
    | with_reducible refine Only.step (OnlyServed.get_later (gatherServed_only ..) (by assumption)) (by decide) ?_
    | decide
    | fail_if_no_progress extract_lets
    | split
    | dsimp +zetaDelta only [id])

theorem dirRoom_only (s : State) :
    Only 1024 s (dirRoom s) := by
  unfold dirRoom
  repeat' (first
    | with_reducible intro _
    | with_reducible apply Only.refl
    | with_reducible assumption
    | with_reducible apply Only.step (dirAsk_only ..)
    | with_reducible apply foldl_only
    | with_reducible apply foldl_pair_only
    | decide
    | fail_if_no_progress extract_lets
    | split
    | dsimp +zetaDelta only [id])

theorem grantLine_only (a0 : Packet) (a1 : DirEntry) (a2 : Bool) (s : State) :
    OnlyServed 6308878 s (grantLine a0 a1 a2 s) := by
  unfold grantLine
  repeat' (first
    | with_reducible intro _
    | with_reducible apply Only.refl
    | with_reducible assumption
    | with_reducible apply OnlyServed.answer
    | with_reducible apply OnlyServed.taken
    | with_reducible apply OnlyServed.later
    | with_reducible apply Only.after (State.when_only ..)
    | with_reducible apply Only.step (warm_only ..)
    | with_reducible apply Only.step (fetchLine_only ..)
    | with_reducible apply Only.step (setDir_only ..)
    | with_reducible apply when_only
    | decide
    | fail_if_no_progress extract_lets
    | split
    | dsimp +zetaDelta only [id])

theorem coherentServed_only (a0 : Packet) (a1 : Bool) (s : State) :
    OnlyServed 6308878 s (coherentServed a0 a1 s) := by
  unfold coherentServed
  repeat' (first
    | with_reducible intro _
    | with_reducible apply Only.refl
    | with_reducible assumption
    | with_reducible apply OnlyServed.answer
    | with_reducible apply OnlyServed.taken
    | with_reducible apply OnlyServed.later
    | with_reducible apply Only.step (State.faultTouch_only ..)
    | with_reducible apply Only.step (State.partTouch_only ..)
    | with_reducible apply Only.step (lineWait_only ..)
    | with_reducible apply OnlyServed.step (grantLine_only ..)
    | with_reducible apply Only.step (dirRoom_only ..)
    | with_reducible apply Only.step (dirAsk_only ..)
    | with_reducible apply Only.step (setDir_only ..)
    | with_reducible refine Only.step (OnlyServed.get_answer (grantLine_only ..) (by assumption)) (by decide) ?_
    | with_reducible refine Only.step (OnlyServed.get_taken (grantLine_only ..) (by assumption)) (by decide) ?_
    | with_reducible refine Only.step (OnlyServed.get_later (grantLine_only ..) (by assumption)) (by decide) ?_
    | decide
    | fail_if_no_progress extract_lets
    | split
    | dsimp +zetaDelta only [id])

theorem serve_only (a0 : Packet) (a1 : Bool) (s : State) :
    OnlyServed 73417742 s (serve a0 a1 s) := by
  unfold serve
  repeat' (first
    | with_reducible intro _
    | with_reducible apply Only.refl
    | with_reducible assumption
    | with_reducible apply OnlyServed.answer
    | with_reducible apply OnlyServed.taken
    | with_reducible apply OnlyServed.later
    | with_reducible apply OnlyServed.step (coherentServed_only ..)
    | with_reducible apply OnlyServed.after (readServed_only ..)
    | with_reducible apply Only.step (noteLoad_only ..)
    | with_reducible apply OnlyServed.step (writeServed_only ..)
    | with_reducible apply OnlyServed.step (atomicServed_only ..)
    | with_reducible apply OnlyServed.step (reduceServed_only ..)
    | with_reducible refine Only.step (OnlyServed.get_answer (coherentServed_only ..) (by assumption)) (by decide) ?_
    | with_reducible refine Only.step (OnlyServed.get_taken (coherentServed_only ..) (by assumption)) (by decide) ?_
    | with_reducible refine Only.step (OnlyServed.get_later (coherentServed_only ..) (by assumption)) (by decide) ?_
    | with_reducible refine Only.step (OnlyServed.get_answer (writeServed_only ..) (by assumption)) (by decide) ?_
    | with_reducible refine Only.step (OnlyServed.get_taken (writeServed_only ..) (by assumption)) (by decide) ?_
    | with_reducible refine Only.step (OnlyServed.get_later (writeServed_only ..) (by assumption)) (by decide) ?_
    | with_reducible refine Only.step (OnlyServed.get_answer (atomicServed_only ..) (by assumption)) (by decide) ?_
    | with_reducible refine Only.step (OnlyServed.get_taken (atomicServed_only ..) (by assumption)) (by decide) ?_
    | with_reducible refine Only.step (OnlyServed.get_later (atomicServed_only ..) (by assumption)) (by decide) ?_
    | with_reducible refine Only.step (OnlyServed.get_answer (reduceServed_only ..) (by assumption)) (by decide) ?_
    | with_reducible refine Only.step (OnlyServed.get_taken (reduceServed_only ..) (by assumption)) (by decide) ?_
    | with_reducible refine Only.step (OnlyServed.get_later (reduceServed_only ..) (by assumption)) (by decide) ?_
    | decide
    | fail_if_no_progress extract_lets
    | split
    | dsimp +zetaDelta only [id])

theorem serveTurn_only (a0 : Packet) (a1 : Bool) (s : State) :
    OnlyServed 73417742 s (serveTurn a0 a1 s) := by
  unfold serveTurn
  repeat' (first
    | with_reducible intro _
    | with_reducible apply Only.refl
    | with_reducible assumption
    | with_reducible apply OnlyServed.answer
    | with_reducible apply OnlyServed.taken
    | with_reducible apply OnlyServed.later
    | with_reducible apply OnlyServed.step (serve_only ..)
    | with_reducible apply OnlyServed.step (refuse_only ..)
    | with_reducible apply Only.step (State.bump_only ..)
    | with_reducible apply Only.step (State.usedFree_only ..)
    | with_reducible apply Only.step (lineWait_only ..)
    | with_reducible refine Only.step (OnlyServed.get_answer (serve_only ..) (by assumption)) (by decide) ?_
    | with_reducible refine Only.step (OnlyServed.get_taken (serve_only ..) (by assumption)) (by decide) ?_
    | with_reducible refine Only.step (OnlyServed.get_later (serve_only ..) (by assumption)) (by decide) ?_
    | with_reducible refine Only.step (OnlyServed.get_answer (refuse_only ..) (by assumption)) (by decide) ?_
    | with_reducible refine Only.step (OnlyServed.get_taken (refuse_only ..) (by assumption)) (by decide) ?_
    | with_reducible refine Only.step (OnlyServed.get_later (refuse_only ..) (by assumption)) (by decide) ?_
    | decide
    | fail_if_no_progress extract_lets
    | split
    | dsimp +zetaDelta only [id])

theorem arrive_only (a0 : Packet) (a1 : Bool) (s : State) :
    OnlyServed 73942030 s (arrive a0 a1 s) := by
  unfold arrive
  repeat' (first
    | with_reducible intro _
    | with_reducible apply Only.refl
    | with_reducible assumption
    | with_reducible apply OnlyServed.answer
    | with_reducible apply OnlyServed.taken
    | with_reducible apply OnlyServed.later
    | with_reducible apply OnlyServed.step (refuse_only ..)
    | with_reducible apply Only.step (holdInput_only ..)
    | with_reducible apply OnlyServed.step (serveTurn_only ..)
    | with_reducible refine Only.step (OnlyServed.get_answer (refuse_only ..) (by assumption)) (by decide) ?_
    | with_reducible refine Only.step (OnlyServed.get_taken (refuse_only ..) (by assumption)) (by decide) ?_
    | with_reducible refine Only.step (OnlyServed.get_later (refuse_only ..) (by assumption)) (by decide) ?_
    | with_reducible refine Only.step (OnlyServed.get_answer (serveTurn_only ..) (by assumption)) (by decide) ?_
    | with_reducible refine Only.step (OnlyServed.get_taken (serveTurn_only ..) (by assumption)) (by decide) ?_
    | with_reducible refine Only.step (OnlyServed.get_later (serveTurn_only ..) (by assumption)) (by decide) ?_
    | decide
    | fail_if_no_progress extract_lets
    | split
    | with_reducible apply Only.upd_fabric
    | dsimp +zetaDelta only [id])

theorem performPosted_only (a0 : Packet) (s : State) :
    Only 73417742 s (performPosted a0 s) := by
  unfold performPosted
  repeat' (first
    | with_reducible intro _
    | with_reducible apply Only.refl
    | with_reducible assumption
    | with_reducible apply OnlyServed.step (serveTurn_only ..)
    | with_reducible refine Only.step (OnlyServed.get_answer (serveTurn_only ..) (by assumption)) (by decide) ?_
    | with_reducible refine Only.step (OnlyServed.get_taken (serveTurn_only ..) (by assumption)) (by decide) ?_
    | with_reducible refine Only.step (OnlyServed.get_later (serveTurn_only ..) (by assumption)) (by decide) ?_
    | decide
    | split
    | dsimp +zetaDelta only [id])

theorem runWaiting_only (a0 : List DirWait) (s : State) :
    Only 73417742 s (runWaiting a0 s) := by
  unfold runWaiting
  repeat' (first
    | with_reducible intro _
    | with_reducible apply Only.refl
    | with_reducible assumption
    | with_reducible apply OnlyServed.answer
    | with_reducible apply OnlyServed.taken
    | with_reducible apply OnlyServed.later
    | with_reducible apply Only.after (State.each_only ..)
    | with_reducible apply Only.step (State.storeHome_only ..)
    | with_reducible apply OnlyServed.step (serveTurn_only ..)
    | with_reducible apply Only.step (State.sendPackets_only ..)
    | with_reducible apply Only.step (deliver_only ..)
    | with_reducible refine Only.step (OnlyServed.get_answer (serveTurn_only ..) (by assumption)) (by decide) ?_
    | with_reducible refine Only.step (OnlyServed.get_taken (serveTurn_only ..) (by assumption)) (by decide) ?_
    | with_reducible refine Only.step (OnlyServed.get_later (serveTurn_only ..) (by assumption)) (by decide) ?_
    | with_reducible apply each_only
    | decide
    | split
    | dsimp +zetaDelta only [id])

theorem lineAnswered_only (a0 : Nat) (a1 : Nat) (a2 : Bool) (s : State) :
    Only 73417742 s (lineAnswered a0 a1 a2 s) := by
  unfold lineAnswered
  repeat' (first
    | with_reducible intro _
    | with_reducible apply Only.refl
    | with_reducible assumption
    | with_reducible apply Only.step (runWaiting_only ..)
    | with_reducible apply Only.step (setDir_only ..)
    | decide
    | fail_if_no_progress extract_lets
    | split
    | dsimp +zetaDelta only [id])

theorem lineBack_only (a0 : Packet) (s : State) :
    Only 6291466 s (lineBack a0 s) := by
  unfold lineBack
  repeat' (first
    | with_reducible intro _
    | with_reducible apply Only.refl
    | with_reducible assumption
    | with_reducible apply Only.step (State.partSpoil_only ..)
    | with_reducible apply Only.step (State.store_only ..)
    | decide
    | fail_if_no_progress extract_lets
    | split
    | dsimp +zetaDelta only [id])

theorem takeAnswer_only (a0 : Packet) (s : State) :
    Only 73417742 s (takeAnswer a0 s) := by
  unfold takeAnswer
  repeat' (first
    | with_reducible intro _
    | with_reducible apply Only.refl
    | with_reducible assumption
    | with_reducible apply Only.step (runWaiting_only ..)
    | with_reducible apply Only.step (setRep_only ..)
    | with_reducible apply Only.step (lineAnswered_only ..)
    | with_reducible apply Only.step (lineBack_only ..)
    | decide
    | fail_if_no_progress extract_lets
    | split
    | dsimp +zetaDelta only [id])

theorem takeRx_only (a0 : Packet) (s : State) :
    Only 1026 s (takeRx a0 s) := by
  unfold takeRx
  repeat' (first
    | with_reducible intro _
    | with_reducible apply Only.refl
    | with_reducible assumption
    | with_reducible apply Only.step (setLink_only ..)
    | with_reducible apply Only.step (freeFlits_only ..)
    | decide
    | fail_if_no_progress extract_lets
    | split
    | dsimp +zetaDelta only [id])

theorem homeCommand_only (a0 : BitVec 8) (a1 : Packet) (a2 : Bool) (s : State) :
    Only 73942030 s (homeCommand a0 a1 a2 s) := by
  unfold homeCommand
  repeat' (first
    | with_reducible intro _
    | with_reducible apply Only.refl
    | with_reducible assumption
    | with_reducible apply OnlyServed.step (arrive_only ..)
    | with_reducible apply Only.step (State.sendPackets_only ..)
    | with_reducible apply Only.step (takeRx_only ..)
    | with_reducible refine Only.step (OnlyServed.get_answer (arrive_only ..) (by assumption)) (by decide) ?_
    | with_reducible refine Only.step (OnlyServed.get_taken (arrive_only ..) (by assumption)) (by decide) ?_
    | with_reducible refine Only.step (OnlyServed.get_later (arrive_only ..) (by assumption)) (by decide) ?_
    | decide
    | split
    | dsimp +zetaDelta only [id])

theorem execLoad_only (a0 : Packet) (s : State) :
    OnlyNext 73942030 s (execLoad a0 s) := by
  unfold execLoad
  repeat' (first
    | with_reducible intro _
    | with_reducible apply Only.refl
    | with_reducible assumption
    | with_reducible apply OnlyNext.next
    | with_reducible apply Only.step (homeCommand_only ..)
    | decide
    | dsimp +zetaDelta only [id])

theorem execStore_only (a0 : Packet) (s : State) :
    OnlyNext 73942030 s (execStore a0 s) := by
  unfold execStore
  repeat' (first
    | with_reducible intro _
    | with_reducible apply Only.refl
    | with_reducible assumption
    | with_reducible apply OnlyNext.next
    | with_reducible apply Only.step (homeCommand_only ..)
    | decide
    | dsimp +zetaDelta only [id])

theorem execAtomic_only (a0 : Packet) (s : State) :
    OnlyNext 73942030 s (execAtomic a0 s) := by
  unfold execAtomic
  repeat' (first
    | with_reducible intro _
    | with_reducible apply Only.refl
    | with_reducible assumption
    | with_reducible apply OnlyNext.next
    | with_reducible apply Only.step (homeCommand_only ..)
    | decide
    | dsimp +zetaDelta only [id])

theorem execAtomicNr_only (a0 : Packet) (s : State) :
    OnlyNext 73942030 s (execAtomicNr a0 s) := by
  unfold execAtomicNr
  repeat' (first
    | with_reducible intro _
    | with_reducible apply Only.refl
    | with_reducible assumption
    | with_reducible apply OnlyNext.next
    | with_reducible apply Only.step (homeCommand_only ..)
    | decide
    | dsimp +zetaDelta only [id])

theorem execReduce_only (a0 : Packet) (s : State) :
    OnlyNext 73942030 s (execReduce a0 s) := by
  unfold execReduce
  repeat' (first
    | with_reducible intro _
    | with_reducible apply Only.refl
    | with_reducible assumption
    | with_reducible apply OnlyNext.next
    | with_reducible apply Only.step (homeCommand_only ..)
    | decide
    | dsimp +zetaDelta only [id])

theorem execMcastStore_only (a0 : Packet) (s : State) :
    OnlyNext 73942030 s (execMcastStore a0 s) := by
  unfold execMcastStore
  repeat' (first
    | with_reducible intro _
    | with_reducible apply Only.refl
    | with_reducible assumption
    | with_reducible apply OnlyNext.next
    | with_reducible apply Only.step (homeCommand_only ..)
    | decide
    | dsimp +zetaDelta only [id])

theorem execDmaRead_only (a0 : Packet) (s : State) :
    OnlyNext 73942030 s (execDmaRead a0 s) := by
  unfold execDmaRead
  repeat' (first
    | with_reducible intro _
    | with_reducible apply Only.refl
    | with_reducible assumption
    | with_reducible apply OnlyNext.next
    | with_reducible apply Only.step (homeCommand_only ..)
    | decide
    | dsimp +zetaDelta only [id])

theorem execDmaWrite_only (a0 : Packet) (s : State) :
    OnlyNext 73942030 s (execDmaWrite a0 s) := by
  unfold execDmaWrite
  repeat' (first
    | with_reducible intro _
    | with_reducible apply Only.refl
    | with_reducible assumption
    | with_reducible apply OnlyNext.next
    | with_reducible apply Only.step (homeCommand_only ..)
    | decide
    | dsimp +zetaDelta only [id])

theorem execReadS_only (a0 : Packet) (a1 : Bool) (s : State) :
    OnlyNext 73942030 s (execReadS a0 a1 s) := by
  unfold execReadS
  repeat' (first
    | with_reducible intro _
    | with_reducible apply Only.refl
    | with_reducible assumption
    | with_reducible apply OnlyNext.next
    | with_reducible apply Only.step (homeCommand_only ..)
    | decide
    | dsimp +zetaDelta only [id])

theorem execReadX_only (a0 : Packet) (s : State) :
    OnlyNext 73942030 s (execReadX a0 s) := by
  unfold execReadX
  repeat' (first
    | with_reducible intro _
    | with_reducible apply Only.refl
    | with_reducible assumption
    | with_reducible apply OnlyNext.next
    | with_reducible apply Only.step (homeCommand_only ..)
    | decide
    | dsimp +zetaDelta only [id])

theorem lineCommand_only {m : Nat} (a0 : BitVec 8) (a1 : Packet) (a2 : State → Prod State (List Byte)) (s : State) (w : m ||| 1026 = m) (h2 : ∀ u, Only m u (a2 u).1) :
    Only m s (lineCommand a0 a1 a2 s) := by
  unfold lineCommand
  repeat' (first
    | with_reducible intro _
    | with_reducible apply Only.refl
    | with_reducible assumption
    | with_reducible apply OnlyServed.answer
    | with_reducible apply OnlyServed.taken
    | with_reducible apply OnlyServed.later
    | with_reducible apply Only.step (State.sendPackets_only ..)
    | with_reducible apply Only.step (takeRx_only ..)
    | with_reducible apply Only.after (h2 ..)
    | with_reducible exact sub_of w (by decide)
    | with_reducible exact bit_of w (by decide)
    | decide
    | fail_if_no_progress extract_lets
    | split
    | dsimp +zetaDelta only [id])

theorem execWriteback_only (a0 : Packet) (s : State) :
    OnlyNext 73417742 s (execWriteback a0 s) := by
  unfold execWriteback
  repeat' (first
    | with_reducible intro _
    | with_reducible apply Only.refl
    | with_reducible assumption
    | with_reducible apply OnlyNext.next
    | with_reducible apply OnlyServed.answer
    | with_reducible apply OnlyServed.taken
    | with_reducible apply OnlyServed.later
    | with_reducible apply Only.after (lineCommand_only ..)
    | with_reducible apply Only.step (lineAnswered_only ..)
    | with_reducible apply Only.step (lineBack_only ..)
    | decide
    | fail_if_no_progress extract_lets
    | split
    | dsimp +zetaDelta only [id])

theorem execEvict_only (a0 : Packet) (s : State) :
    OnlyNext 1026 s (execEvict a0 s) := by
  unfold execEvict
  repeat' (first
    | with_reducible intro _
    | with_reducible apply Only.refl
    | with_reducible assumption
    | with_reducible apply OnlyNext.next
    | with_reducible apply OnlyServed.answer
    | with_reducible apply OnlyServed.taken
    | with_reducible apply OnlyServed.later
    | with_reducible apply Only.after (lineCommand_only ..)
    | with_reducible apply Only.step (setDir_only ..)
    | decide
    | fail_if_no_progress extract_lets
    | split
    | dsimp +zetaDelta only [id])

theorem execInvalidate_only (a0 : Packet) (s : State) :
    OnlyNext 1026 s (execInvalidate a0 s) := by
  unfold execInvalidate
  repeat' (first
    | with_reducible intro _
    | with_reducible apply Only.refl
    | with_reducible assumption
    | with_reducible apply OnlyNext.next
    | with_reducible apply OnlyServed.answer
    | with_reducible apply OnlyServed.taken
    | with_reducible apply OnlyServed.later
    | with_reducible apply Only.after (lineCommand_only ..)
    | with_reducible apply Only.step (setCopy_only ..)
    | decide
    | fail_if_no_progress extract_lets
    | split
    | dsimp +zetaDelta only [id])

theorem execRecall_only (a0 : Packet) (s : State) :
    OnlyNext 1026 s (execRecall a0 s) := by
  unfold execRecall
  repeat' (first
    | with_reducible intro _
    | with_reducible apply Only.refl
    | with_reducible assumption
    | with_reducible apply OnlyNext.next
    | with_reducible apply OnlyServed.answer
    | with_reducible apply OnlyServed.taken
    | with_reducible apply OnlyServed.later
    | with_reducible apply Only.after (lineCommand_only ..)
    | with_reducible apply Only.step (setCopy_only ..)
    | decide
    | fail_if_no_progress extract_lets
    | split
    | dsimp +zetaDelta only [id])

theorem execGatherTimeout_only (a0 : Fin 64) (a1 : BitVec 64) (s : State) :
    OnlyNext 73417738 s (execGatherTimeout a0 a1 s) := by
  unfold execGatherTimeout
  repeat' (first
    | with_reducible intro _
    | with_reducible apply Only.refl
    | with_reducible assumption
    | with_reducible apply OnlyNext.next
    | with_reducible apply Only.step (State.error_only ..)
    | with_reducible apply Only.step (putLine_only ..)
    | decide
    | fail_if_no_progress extract_lets
    | split
    | with_reducible apply Only.upd_fabric
    | dsimp +zetaDelta only [id])

theorem execAbsorberWriteback_only (a0 : Fin 4) (a1 : Nat) (s : State) :
    OnlyNext 1024 s (execAbsorberWriteback a0 a1 s) := by
  unfold execAbsorberWriteback
  repeat' (first
    | with_reducible intro _
    | with_reducible apply Only.refl
    | with_reducible assumption
    | with_reducible apply OnlyNext.next
    | decide
    | fail_if_no_progress extract_lets
    | split
    | with_reducible apply Only.upd_fabric
    | dsimp +zetaDelta only [id])

end Sys2Proof.Machine
end

