-- ==== Sys2Proof/Laws/OnlyDeterminism.lean ====
section
/-! SUPPORT. What each operation of Machine/Determinism.lean may touch: one lemma per operation, in the form of Laws/Only.lean. -/

namespace Sys2Proof.Machine

set_option linter.unusedTactic false
set_option linter.unreachableTactic false
set_option linter.unusedVariables false

theorem writeMode_only (a0 : Nat) (s : State) :
    Only 65544 s (writeMode a0 s) := by
  unfold writeMode
  repeat' (first
    | with_reducible intro _
    | with_reducible apply Only.refl
    | with_reducible assumption
    | with_reducible apply Only.step (State.setReg_only ..)
    | decide
    | fail_if_no_progress extract_lets
    | split
    | with_reducible apply Only.upd_parts
    | dsimp +zetaDelta only [id])

theorem execStrictWrite_only (a0 : Requester) (a1 : BitVec 32) (s : State) :
    OnlyNext 4259850 s (execStrictWrite a0 a1 s) := by
  unfold execStrictWrite
  repeat' (first
    | with_reducible intro _
    | with_reducible apply Only.refl
    | with_reducible assumption
    | with_reducible apply OnlyNext.next
    | with_reducible apply Only.after (writeAccess_only ..)
    | with_reducible apply Only.step (writeMode_only ..)
    | decide
    | dsimp +zetaDelta only [id])

theorem applyInput_only (a0 : Nat) (a1 : Nat) (a2 : Prod HeldInput (BitVec 96)) (s : State) :
    Only 74994702 s (applyInput a0 a1 a2 s) := by
  unfold applyInput
  repeat' (first
    | with_reducible intro _
    | with_reducible apply Only.refl
    | with_reducible assumption
    | with_reducible apply Only.step (dispatchCmd_only ..)
    | with_reducible apply Only.step (State.partStore_only ..)
    | with_reducible apply Only.step (putEntry_only ..)
    | with_reducible apply Only.step (ingressFrame_only ..)
    | with_reducible apply Only.step (performPosted_only ..)
    | decide
    | split
    | dsimp +zetaDelta only [id])

theorem applyEntry_only (a0 : Nat) (a1 : RingEntry) (s : State) :
    Only 74994702 s (applyEntry a0 a1 s) := by
  unfold applyEntry
  repeat' (first
    | with_reducible intro _
    | with_reducible apply Only.refl
    | with_reducible assumption
    | with_reducible apply Only.step (dispatchCmd_only ..)
    | with_reducible apply Only.step (State.usedFree_only ..)
    | with_reducible apply Only.step (State.partWrite_only ..)
    | with_reducible apply Only.step (ingressFrame_only ..)
    | with_reducible apply Only.step (performPosted_only ..)
    | decide
    | fail_if_no_progress extract_lets
    | split
    | dsimp +zetaDelta only [id])

theorem replayEntries_only (a0 a1 : Nat) (a2 : Bool) (a3 : Nat) (s : State) : Only 74994702 s (replayEntries a0 a1 a2 a3 s) := by
  induction a3 generalizing s with
  | zero => exact Only.refl _ _
  | succ n ih =>
    unfold replayEntries
    repeat' (first
      | with_reducible apply Only.refl
      | with_reducible apply Only.step (State.setReg_only ..)
      | with_reducible apply Only.step (setRecord_only ..)
      | with_reducible apply Only.step (diverge_only ..)
      | with_reducible apply Only.step (applyEntry_only ..)
      | with_reducible apply Only.after (ih _)
      | decide
      | fail_if_no_progress extract_lets
      | split
      | dsimp +zetaDelta only)

theorem nextInterval_only (a0 : Nat) (s : State) :
    Only 589832 s (nextInterval a0 s) := by
  unfold nextInterval
  repeat' (first
    | with_reducible intro _
    | with_reducible apply Only.refl
    | with_reducible assumption
    | with_reducible apply Only.step (setRecord_only ..)
    | with_reducible apply Only.step (State.addReg_only ..)
    | decide
    | fail_if_no_progress extract_lets
    | split
    | with_reducible apply Only.upd_parts
    | dsimp +zetaDelta only [id])

theorem endRecord_only (a0 : Nat) (a1 : Nat) (s : State) :
    Only 4718602 s (endRecord a0 a1 s) := by
  unfold endRecord
  repeat' (first
    | with_reducible intro _
    | with_reducible apply Only.refl
    | with_reducible assumption
    | with_reducible apply Only.step (setRecord_only ..)
    | with_reducible apply Only.step (State.raise_only ..)
    | with_reducible apply Only.step (State.setReg_only ..)
    | decide
    | fail_if_no_progress extract_lets
    | split
    | dsimp +zetaDelta only [id])

theorem recordingBoundary_only (a0 : Nat) (a1 : Bool) (s : State) :
    Only 75060238 s (recordingBoundary a0 a1 s) := by
  unfold recordingBoundary
  repeat' (first
    | with_reducible intro _
    | with_reducible apply Only.refl
    | with_reducible assumption
    | with_reducible apply Only.step (putEntry_only ..)
    | with_reducible apply Only.step (nextInterval_only ..)
    | with_reducible apply Only.after (State.each_only ..)
    | with_reducible apply Only.step (endRecord_only ..)
    | with_reducible apply Only.step (applyInput_only ..)
    | with_reducible apply Only.step (setRecord_only ..)
    | with_reducible apply each_only
    | decide
    | fail_if_no_progress extract_lets
    | split
    | dsimp +zetaDelta only [id])

theorem replayBoundary_only (a0 : Nat) (a1 : Bool) (s : State) :
    Only 75060238 s (replayBoundary a0 a1 s) := by
  unfold replayBoundary
  repeat' (first
    | with_reducible intro _
    | with_reducible apply Only.refl
    | with_reducible assumption
    | with_reducible apply Only.step (replayEntries_only ..)
    | with_reducible apply Only.step (nextInterval_only ..)
    | with_reducible apply Only.step (endRecord_only ..)
    | decide
    | fail_if_no_progress extract_lets
    | split
    | dsimp +zetaDelta only [id])

theorem execRecordBoundary_only (a0 : Fin 64) (a1 : Bool) (a2 : Bool) (s : State) :
    OnlyNext 75060238 s (execRecordBoundary a0 a1 a2 s) := by
  unfold execRecordBoundary
  repeat' (first
    | with_reducible intro _
    | with_reducible apply Only.refl
    | with_reducible assumption
    | with_reducible apply OnlyNext.next
    | with_reducible apply Only.step (recordingBoundary_only ..)
    | with_reducible apply Only.step (replayBoundary_only ..)
    | decide
    | fail_if_no_progress extract_lets
    | split
    | dsimp +zetaDelta only [id])

end Sys2Proof.Machine
end

