-- ==== Sys2Proof/Laws/OnlyPartitions.lean ====
section
/-! SUPPORT. What each operation of Machine/Partitions.lean may touch: one lemma per operation, in the form of Laws/Only.lean. -/

namespace Sys2Proof.Machine

set_option linter.unusedTactic false
set_option linter.unreachableTactic false
set_option linter.unusedVariables false

theorem modPart_only (a0 : Nat) (a1 : PartRun → PartRun) (s : State) :
    Only 65536 s (modPart a0 a1 s) := by
  unfold modPart
  repeat' (first
    | with_reducible intro _
    | with_reducible apply Only.refl
    | with_reducible assumption
    | decide
    | with_reducible apply Only.upd_parts
    | dsimp +zetaDelta only [id])

theorem setFloor_only (a0 : Nat) (s : State) :
    Only 8 s (setFloor a0 s) := by
  unfold setFloor
  repeat' (first
    | with_reducible intro _
    | with_reducible apply Only.refl
    | with_reducible assumption
    | with_reducible apply Only.step (State.setReg_only ..)
    | decide
    | split
    | dsimp +zetaDelta only [id])

theorem startRecord_only (a0 : Nat) (a1 : Nat) (s : State) :
    Only 73942026 s (startRecord a0 a1 s) := by
  unfold startRecord
  repeat' (first
    | with_reducible intro _
    | with_reducible apply Only.refl
    | with_reducible assumption
    | with_reducible apply Only.step (setRecord_only ..)
    | with_reducible apply Only.step (State.setReg_only ..)
    | with_reducible apply Only.step (putEntry_only ..)
    | decide
    | fail_if_no_progress extract_lets
    | split
    | dsimp +zetaDelta only [id])

theorem enableNow_only (a0 : Nat) (a1 : Nat) (s : State) :
    Only 74016270 s (enableNow a0 a1 s) := by
  unfold enableNow
  repeat' (first
    | with_reducible intro _
    | with_reducible apply Only.refl
    | with_reducible assumption
    | with_reducible apply Only.step (State.setReg_only ..)
    | with_reducible apply Only.step (modPart_only ..)
    | with_reducible apply Only.step (choose_only ..)
    | with_reducible apply Only.step (startRecord_only ..)
    | with_reducible apply Only.step (setBudgets_only ..)
    | with_reducible apply Only.step (setFloor_only ..)
    | with_reducible apply Only.step (recount_only ..)
    | decide
    | fail_if_no_progress extract_lets
    | dsimp +zetaDelta only [id])

theorem execPartEnable_only (a0 : Requester) (a1 : Fin 64) (s : State) :
    OnlyNext 74016270 s (execPartEnable a0 a1 s) := by
  unfold execPartEnable
  repeat' (first
    | with_reducible intro _
    | with_reducible apply Only.refl
    | with_reducible assumption
    | with_reducible apply OnlyNext.next
    | with_reducible apply Only.after (writeAccess_only ..)
    | with_reducible apply Only.step (State.error_only ..)
    | with_reducible apply Only.step (enableNow_only ..)
    | decide
    | split
    | dsimp +zetaDelta only [id])

theorem disablePart_only (a0 : Nat) (s : State) :
    Only 6897674 s (disablePart a0 s) := by
  unfold disablePart
  repeat' (first
    | with_reducible intro _
    | with_reducible apply Only.refl
    | with_reducible assumption
    | with_reducible apply Only.step (State.setReg_only ..)
    | with_reducible apply Only.step (State.error_only ..)
    | with_reducible apply Only.step (recount_only ..)
    | with_reducible apply Only.step (setRecord_only ..)
    | decide
    | fail_if_no_progress extract_lets
    | split
    | with_reducible apply Only.upd_parts
    | dsimp +zetaDelta only [id])

theorem setOwned_only (a0 : Nat) (a1 : Nat) (a2 : RegField) (a3 : List Nat) (s : State) :
    Only 8 s (setOwned a0 a1 a2 a3 s) := by
  unfold setOwned
  repeat' (first
    | with_reducible intro _
    | with_reducible apply Only.refl
    | with_reducible assumption
    | with_reducible apply Only.after (State.each_only ..)
    | with_reducible apply Only.step (State.setReg_only ..)
    | with_reducible apply each_only
    | with_reducible apply foldl_only
    | with_reducible apply foldl_pair_only
    | decide
    | dsimp +zetaDelta only [id])

theorem execResizeStart_only (a0 : Requester) (a1 : Fin 64) (s : State) :
    OnlyNext 4268554 s (execResizeStart a0 a1 s) := by
  unfold execResizeStart
  repeat' (first
    | with_reducible intro _
    | with_reducible apply Only.refl
    | with_reducible assumption
    | with_reducible apply OnlyNext.next
    | with_reducible apply Only.after (writeAccess_only ..)
    | with_reducible apply Only.step (State.error_only ..)
    | with_reducible apply Only.step (State.setReg_only ..)
    | with_reducible apply Only.step (setOwned_only ..)
    | with_reducible apply Only.step (modPart_only ..)
    | with_reducible apply Only.step (choose_only ..)
    | with_reducible apply Only.step (setFloor_only ..)
    | with_reducible apply foldl_only
    | with_reducible apply foldl_pair_only
    | decide
    | fail_if_no_progress extract_lets
    | split
    | dsimp +zetaDelta only [id])

theorem execResizeDone_only (a0 : Fin 64) (s : State) :
    OnlyNext 4259854 s (execResizeDone a0 s) := by
  unfold execResizeDone
  repeat' (first
    | with_reducible intro _
    | with_reducible apply Only.refl
    | with_reducible assumption
    | with_reducible apply OnlyNext.next
    | with_reducible apply Only.step (setOwned_only ..)
    | with_reducible apply Only.step (modPart_only ..)
    | with_reducible apply Only.step (State.raise_only ..)
    | with_reducible apply Only.step (setBudgets_only ..)
    | with_reducible apply Only.step (setFloor_only ..)
    | with_reducible apply Only.step (State.setReg_only ..)
    | decide
    | fail_if_no_progress extract_lets
    | split
    | dsimp +zetaDelta only [id])

theorem execAllotWrite_only (a0 : Requester) (a1 : Fin 64) (a2 : Bool) (a3 : BitVec 32) (s : State) :
    OnlyNext 4194314 s (execAllotWrite a0 a1 a2 a3 s) := by
  unfold execAllotWrite
  repeat' (first
    | with_reducible intro _
    | with_reducible apply Only.refl
    | with_reducible assumption
    | with_reducible apply OnlyNext.next
    | with_reducible apply Only.after (writeAccess_only ..)
    | with_reducible apply Only.step (State.setReg_only ..)
    | with_reducible apply Only.step (State.error_only ..)
    | decide
    | fail_if_no_progress extract_lets
    | split
    | dsimp +zetaDelta only [id])

theorem execDirtyAtomicCompletion_only (a0 : Fin 64) (a1 : Bool) (s : State) :
    OnlyNext 4194314 s (execDirtyAtomicCompletion a0 a1 s) := by
  unfold execDirtyAtomicCompletion
  repeat' (first
    | with_reducible intro _
    | with_reducible apply Only.refl
    | with_reducible assumption
    | with_reducible apply OnlyNext.next
    | with_reducible apply Only.step (State.raise_only ..)
    | with_reducible apply Only.step (State.error_only ..)
    | with_reducible apply Only.step (State.setReg_only ..)
    | decide
    | fail_if_no_progress extract_lets
    | split
    | dsimp +zetaDelta only [id])

theorem execDeleteCq_only (a0 : CmdRef) (s : State) :
    OnlyNext 73942026 s (execDeleteCq a0 s) := by
  unfold execDeleteCq
  repeat' (first
    | with_reducible intro _
    | with_reducible apply Only.refl
    | with_reducible assumption
    | with_reducible apply OnlyNext.next
    | with_reducible apply Only.after (startCmd_only ..)
    | with_reducible apply Only.step (complete_only ..)
    | with_reducible apply Only.step (deleteCqState_only ..)
    | decide
    | fail_if_no_progress extract_lets
    | split
    | dsimp +zetaDelta only [id])

theorem deleteQueues_only (a0 : List Nat) (a1 : List Nat) (s : State) :
    Only 4194304 s (deleteQueues a0 a1 s) := by
  unfold deleteQueues
  repeat' (first
    | with_reducible intro _
    | with_reducible apply Only.refl
    | with_reducible assumption
    | with_reducible apply Only.after (State.each_only ..)
    | with_reducible apply Only.step (deleteSqState_only ..)
    | with_reducible apply Only.step (deleteCqState_only ..)
    | with_reducible apply each_only
    | decide
    | fail_if_no_progress extract_lets
    | dsimp +zetaDelta only [id])

theorem flrVf_only (a0 : Nat) (s : State) :
    Only 73430538 s (flrVf a0 s) := by
  unfold flrVf
  repeat' (first
    | with_reducible intro _
    | with_reducible apply Only.refl
    | with_reducible assumption
    | with_reducible apply Only.step (deleteQueues_only ..)
    | with_reducible apply Only.after (State.each_only ..)
    | with_reducible apply Only.step (choose_only ..)
    | with_reducible apply Only.step (suspend_only ..)
    | with_reducible apply each_only
    | decide
    | fail_if_no_progress extract_lets
    | split
    | with_reducible apply Only.upd_host
    | dsimp +zetaDelta only [id])

theorem execFlrVf_only (a0 : Fin 256) (s : State) :
    OnlyNext 73430538 s (execFlrVf a0 s) := by
  unfold execFlrVf
  repeat' (first
    | with_reducible intro _
    | with_reducible apply Only.refl
    | with_reducible assumption
    | with_reducible apply OnlyNext.next
    | with_reducible apply Only.step (flrVf_only ..)
    | decide
    | split
    | dsimp +zetaDelta only [id])

theorem execFlrPf_only (s : State) :
    OnlyNext 73561610 s (execFlrPf s) := by
  unfold execFlrPf
  repeat' (first
    | with_reducible intro _
    | with_reducible apply Only.refl
    | with_reducible assumption
    | with_reducible apply OnlyNext.next
    | with_reducible apply Only.after (State.each_only ..)
    | with_reducible apply Only.step (flrVf_only ..)
    | with_reducible apply Only.step (deleteCqState_only ..)
    | with_reducible apply Only.step (deleteSqState_only ..)
    | with_reducible apply Only.step (deleteQueues_only ..)
    | with_reducible apply Only.step (State.setReg_only ..)
    | with_reducible apply Only.step (State.setRadio_only ..)
    | with_reducible apply each_only
    | decide
    | fail_if_no_progress extract_lets
    | split
    | dsimp +zetaDelta only [id])

theorem execExportState_only (a0 : CmdRef) (s : State) :
    OnlyNext 74012170 s (execExportState a0 s) := by
  unfold execExportState
  repeat' (first
    | with_reducible intro _
    | with_reducible apply Only.refl
    | with_reducible assumption
    | with_reducible apply OnlyNext.next
    | with_reducible apply Only.after (startCmd_only ..)
    | with_reducible apply Only.step (complete_only ..)
    | with_reducible apply Only.step (modPart_only ..)
    | with_reducible apply Only.after (State.each_only ..)
    | with_reducible apply Only.step (askPreempt_only ..)
    | with_reducible apply Only.step (forceSave_only ..)
    | with_reducible apply Only.step (startLong_only ..)
    | with_reducible apply each_only
    | decide
    | fail_if_no_progress extract_lets
    | split
    | dsimp +zetaDelta only [id])

theorem exportChunk_only (a0 : LongOp) (a1 : Nat) (s : State) :
    Only 13107202 s (exportChunk a0 a1 s) := by
  unfold exportChunk
  repeat' (first
    | with_reducible intro _
    | with_reducible apply Only.refl
    | with_reducible assumption
    | with_reducible apply Only.step (chunkDone_only ..)
    | with_reducible apply Only.step (hostWrite_only ..)
    | with_reducible apply Only.step (setLong_only ..)
    | decide
    | fail_if_no_progress extract_lets
    | split
    | with_reducible apply Only.upd_mgmt
    | dsimp +zetaDelta only [id])

theorem execLoadObjectState_only (a0 : CmdRef) (a1 : HostData) (s : State) :
    OnlyNext 73942030 s (execLoadObjectState a0 a1 s) := by
  unfold execLoadObjectState
  repeat' (first
    | with_reducible intro _
    | with_reducible apply Only.refl
    | with_reducible assumption
    | with_reducible apply OnlyNext.next
    | with_reducible apply Only.after (startCmd_only ..)
    | with_reducible apply Only.step (complete_only ..)
    | with_reducible apply Only.after (withData_only ..)
    | with_reducible apply Only.step (State.setReg_only ..)
    | with_reducible apply Only.step (startLong_only ..)
    | decide
    | split
    | dsimp +zetaDelta only [id])

theorem importChunk_only (a0 : LongOp) (a1 : Nat) (s : State) :
    Only 74282510 s (importChunk a0 a1 s) := by
  unfold importChunk
  repeat' (first
    | with_reducible intro _
    | with_reducible apply Only.refl
    | with_reducible assumption
    | with_reducible apply Only.step (chunkDone_only ..)
    | with_reducible apply Only.step (endLong_only ..)
    | with_reducible apply Only.step (enableNow_only ..)
    | with_reducible apply Only.step (layBlob_only ..)
    | decide
    | fail_if_no_progress extract_lets
    | split
    | dsimp +zetaDelta only [id])

end Sys2Proof.Machine
end

