-- ==== Sys2Proof/Laws/OnlyFences.lean ====
section
/-! SUPPORT. What each operation of Machine/Fences.lean may touch: one lemma per operation, in the form of Laws/Only.lean. -/

namespace Sys2Proof.Machine

set_option linter.unusedTactic false
set_option linter.unreachableTactic false
set_option linter.unusedVariables false

theorem countSpares_only (s : State) :
    Only 8 s (countSpares s) := by
  unfold countSpares
  repeat' (first
    | with_reducible intro _
    | with_reducible apply Only.refl
    | with_reducible assumption
    | with_reducible apply Only.step (State.setReg_only ..)
    | decide
    | fail_if_no_progress extract_lets
    | dsimp +zetaDelta only [id])

theorem takeSpare_only (a0 : Nat) (s : State) :
    Only 72 s (takeSpare a0 s) := by
  unfold takeSpare
  repeat' (first
    | with_reducible intro _
    | with_reducible apply Only.refl
    | with_reducible assumption
    | with_reducible apply Only.step (countSpares_only ..)
    | decide
    | with_reducible apply Only.upd_plat
    | dsimp +zetaDelta only [id])

theorem retirePhysical_only (a0 : Nat) (s : State) :
    Only 8 s (retirePhysical a0 s) := by
  unfold retirePhysical
  repeat' (first
    | with_reducible intro _
    | with_reducible apply Only.refl
    | with_reducible assumption
    | with_reducible apply Only.step (State.setReg_only ..)
    | decide
    | dsimp +zetaDelta only [id])

theorem sendFail_only (s : State) :
    Only 67108866 s (sendFail s) := by
  unfold sendFail
  repeat' (first
    | with_reducible intro _
    | with_reducible apply Only.refl
    | with_reducible assumption
    | with_reducible apply Only.step (State.emit_only ..)
    | decide
    | split
    | with_reducible apply Only.upd_twin
    | dsimp +zetaDelta only [id])

theorem coreLost_only (a0 : Nat) (s : State) :
    Only 73430538 s (coreLost a0 s) := by
  unfold coreLost
  repeat' (first
    | with_reducible intro _
    | with_reducible apply Only.refl
    | with_reducible assumption
    | with_reducible apply Only.step (State.raise_only ..)
    | with_reducible apply Only.after (State.each_only ..)
    | with_reducible apply Only.step (choose_only ..)
    | with_reducible apply Only.step (suspend_only ..)
    | with_reducible apply Only.step (sendFail_only ..)
    | with_reducible apply each_only
    | decide
    | fail_if_no_progress extract_lets
    | split
    | dsimp +zetaDelta only [id])

theorem fenceCore_only (a0 : Nat) (s : State) :
    Only 73430538 s (fenceCore a0 s) := by
  unfold fenceCore
  repeat' (first
    | with_reducible intro _
    | with_reducible apply Only.refl
    | with_reducible assumption
    | with_reducible apply Only.step (State.modCore_only ..)
    | with_reducible apply Only.step (State.setReg_only ..)
    | with_reducible apply Only.step (retirePhysical_only ..)
    | with_reducible apply Only.step (coreLost_only ..)
    | decide
    | fail_if_no_progress extract_lets
    | split
    | dsimp +zetaDelta only [id])

theorem fenceSigc_only (a0 : Nat) (s : State) :
    Only 4194314 s (fenceSigc a0 s) := by
  unfold fenceSigc
  repeat' (first
    | with_reducible intro _
    | with_reducible apply Only.refl
    | with_reducible assumption
    | with_reducible apply Only.step (State.setReg_only ..)
    | with_reducible apply Only.step (State.raise_only ..)
    | decide
    | fail_if_no_progress extract_lets
    | split
    | dsimp +zetaDelta only [id])

theorem noteWindow_only (a0 : Nat) (a1 : Nat) (s : State) :
    Only 131072 s (noteWindow a0 a1 s) := by
  unfold noteWindow
  repeat' (first
    | with_reducible intro _
    | with_reducible apply Only.refl
    | with_reducible assumption
    | decide
    | fail_if_no_progress extract_lets
    | split
    | with_reducible apply Only.upd_radio
    | dsimp +zetaDelta only [id])

theorem lowWindow_only (a0 : MonitorUnit) (s : State) :
    Only 73430602 s (lowWindow a0 s) := by
  unfold lowWindow
  repeat' (first
    | with_reducible intro _
    | with_reducible apply Only.refl
    | with_reducible assumption
    | with_reducible apply Only.step (State.raise_only ..)
    | with_reducible apply Only.step (State.countErrors_only ..)
    | with_reducible apply Only.step (State.error_only ..)
    | with_reducible apply Only.step (fenceCore_only ..)
    | with_reducible apply Only.step (fenceSigc_only ..)
    | decide
    | fail_if_no_progress extract_lets
    | split
    | with_reducible apply Only.upd_plat
    | dsimp +zetaDelta only [id])

theorem execWaveWindowEnd_only (a0 : MonitorUnit) (a1 : BitVec 16) (a2 : Bool) (s : State) :
    OnlyNext 73561674 s (execWaveWindowEnd a0 a1 a2 s) := by
  unfold execWaveWindowEnd
  repeat' (first
    | with_reducible intro _
    | with_reducible apply Only.refl
    | with_reducible assumption
    | with_reducible apply OnlyNext.next
    | with_reducible apply Only.step (State.setReg_only ..)
    | with_reducible apply Only.step (noteWindow_only ..)
    | with_reducible apply Only.step (lowWindow_only ..)
    | decide
    | fail_if_no_progress extract_lets
    | split
    | with_reducible apply Only.upd_plat
    | dsimp +zetaDelta only [id])

theorem fenceArray_only (a0 : Nat) (a1 : Nat) (a2 : Bool) (s : State) :
    Only 73430538 s (fenceArray a0 a1 a2 s) := by
  unfold fenceArray
  repeat' (first
    | with_reducible intro _
    | with_reducible apply Only.refl
    | with_reducible assumption
    | with_reducible apply Only.step (State.modCore_only ..)
    | with_reducible apply Only.step (setArrayState_only ..)
    | with_reducible apply Only.step (State.raiseBits_only ..)
    | with_reducible apply Only.step (fenceCore_only ..)
    | decide
    | fail_if_no_progress extract_lets
    | split
    | dsimp +zetaDelta only [id])

theorem execArrayFence_only (a0 : Fin 160) (a1 : Fin 4) (a2 : Bool) (s : State) :
    OnlyNext 73430538 s (execArrayFence a0 a1 a2 s) := by
  unfold execArrayFence
  repeat' (first
    | with_reducible intro _
    | with_reducible apply Only.refl
    | with_reducible assumption
    | with_reducible apply OnlyNext.next
    | with_reducible apply Only.step (fenceArray_only ..)
    | decide
    | split
    | dsimp +zetaDelta only [id])

theorem execSkewProbeDone_only (a0 : Fin 160) (a1 : BitVec 4) (a2 : BitVec 32) (s : State) :
    OnlyNext 73430602 s (execSkewProbeDone a0 a1 a2 s) := by
  unfold execSkewProbeDone
  repeat' (first
    | with_reducible intro _
    | with_reducible apply Only.refl
    | with_reducible assumption
    | with_reducible apply OnlyNext.next
    | with_reducible apply Only.step (probeDone_only ..)
    | with_reducible apply Only.step (fenceCore_only ..)
    | decide
    | fail_if_no_progress extract_lets
    | split
    | dsimp +zetaDelta only [id])

theorem resetProbe_only (a0 : Nat) (s : State) :
    Only 73430602 s (resetProbe a0 s) := by
  unfold resetProbe
  repeat' (first
    | with_reducible intro _
    | with_reducible apply Only.refl
    | with_reducible assumption
    | with_reducible apply Only.step (probeDone_only ..)
    | with_reducible apply Only.step (State.setReg_only ..)
    | with_reducible apply Only.step (fenceCore_only ..)
    | with_reducible apply foldl_only
    | with_reducible apply foldl_pair_only
    | decide
    | fail_if_no_progress extract_lets
    | split
    | dsimp +zetaDelta only [id])

theorem execBringupDone_only (s : State) :
    OnlyNext 73430606 s (execBringupDone s) := by
  unfold execBringupDone
  repeat' (first
    | with_reducible intro _
    | with_reducible apply Only.refl
    | with_reducible assumption
    | with_reducible apply OnlyNext.next
    | with_reducible apply Only.step (State.usedFree_only ..)
    | with_reducible apply Only.after (State.each_only ..)
    | with_reducible apply Only.step (resetProbe_only ..)
    | with_reducible apply Only.step (State.setReg_only ..)
    | with_reducible apply Only.step (formBulkSet_only ..)
    | with_reducible apply Only.step (State.raise_only ..)
    | with_reducible apply each_only
    | decide
    | fail_if_no_progress extract_lets
    | split
    | with_reducible apply Only.upd_plat
    | dsimp +zetaDelta only [id])

theorem execCoreFenceWrite_only (a0 : Requester) (a1 : BitVec 32) (s : State) :
    OnlyNext 73430538 s (execCoreFenceWrite a0 a1 s) := by
  unfold execCoreFenceWrite
  repeat' (first
    | with_reducible intro _
    | with_reducible apply Only.refl
    | with_reducible assumption
    | with_reducible apply OnlyNext.next
    | with_reducible apply Only.after (writeAccess_only ..)
    | with_reducible apply Only.step (fenceCore_only ..)
    | decide
    | fail_if_no_progress extract_lets
    | split
    | dsimp +zetaDelta only [id])

theorem execCoreCheckFail_only (a0 : Fin 160) (s : State) :
    OnlyNext 73430538 s (execCoreCheckFail a0 s) := by
  unfold execCoreCheckFail
  repeat' (first
    | with_reducible intro _
    | with_reducible apply Only.refl
    | with_reducible assumption
    | with_reducible apply OnlyNext.next
    | with_reducible apply Only.step (fenceCore_only ..)
    | decide
    | split
    | dsimp +zetaDelta only [id])

theorem freshRepairs_only (a0 : Nat) (s : State) :
    Only 8 s (freshRepairs a0 s) := by
  unfold freshRepairs
  repeat' (first
    | with_reducible intro _
    | with_reducible apply Only.refl
    | with_reducible assumption
    | with_reducible apply Only.step (State.setReg_only ..)
    | with_reducible apply Only.after (State.each_only ..)
    | with_reducible apply Only.step (applyFuseRepair_only ..)
    | with_reducible apply each_only
    | decide
    | fail_if_no_progress extract_lets
    | dsimp +zetaDelta only [id])

theorem freshCore_only (a0 : Nat) (s : State) :
    Only 520 s (freshCore a0 s) := by
  unfold freshCore
  repeat' (first
    | with_reducible intro _
    | with_reducible apply Only.refl
    | with_reducible assumption
    | with_reducible apply Only.step (State.modCore_only ..)
    | with_reducible apply Only.step (freshRepairs_only ..)
    | with_reducible apply Only.step (State.setReg_only ..)
    | with_reducible apply Only.step (setArrayState_only ..)
    | decide
    | fail_if_no_progress extract_lets
    | dsimp +zetaDelta only [id])

theorem keepRanges_only (a0 : Nat) (a1 : List (Prod Nat Nat)) (s : State) :
    Only 2097152 s (keepRanges a0 a1 s) := by
  unfold keepRanges
  repeat' (first
    | with_reducible intro _
    | with_reducible apply Only.refl
    | with_reducible assumption
    | with_reducible apply setRegion_wf
    | with_reducible apply writeBytes_wf
    | with_reducible apply spoilBytes_wf
    | with_reducible apply delFlips_wf
    | with_reducible apply wf_put_flips
    | with_reducible apply wf_del_flips
    | with_reducible apply memory_wf
    | with_reducible apply wf_spad
    | with_reducible apply wf_of_spad
    | with_reducible apply wf_imem
    | with_reducible apply wf_of_imem
    | with_reducible apply wf_dmem
    | with_reducible apply wf_of_dmem
    | with_reducible apply wf_simem
    | with_reducible apply wf_of_simem
    | with_reducible apply wf_hbm
    | with_reducible apply wf_of_hbm
    | with_reducible apply wf_buf
    | with_reducible apply wf_of_buf
    | with_reducible apply wf_tags
    | with_reducible apply wf_of_tags
    | with_reducible apply wf_bulk
    | with_reducible apply wf_of_bulk
    | with_reducible apply wf_empty
    | with_reducible apply wf_filter_cells
    | with_reducible apply forgetRange_wf
    | with_reducible apply foldl_wf
    | with_reducible apply spoilWord_wf
    | decide
    | fail_if_no_progress extract_lets
    | with_reducible apply wf_mk
    | with_reducible apply wf_cells
    | with_reducible apply wf_flips
    | with_reducible apply wf_flips_set
    | with_reducible apply all_filter
    | with_reducible apply tabSorted_filter
    | with_reducible apply foldl_set_wf
    | with_reducible apply Only.upd_mem
    | dsimp +zetaDelta only [id])

theorem restartFrom_only (a0 : Nat) (a1 : Shadow) (s : State) :
    Only 2101768 s (restartFrom a0 a1 s) := by
  unfold restartFrom
  repeat' (first
    | with_reducible intro _
    | with_reducible apply Only.refl
    | with_reducible assumption
    | with_reducible apply Only.step (State.modCore_only ..)
    | with_reducible apply Only.step (leaveWaits_only ..)
    | with_reducible apply Only.step (keepRanges_only ..)
    | with_reducible apply Only.step (State.setReg_only ..)
    | with_reducible apply Only.step (putFlags_only ..)
    | decide
    | fail_if_no_progress extract_lets
    | split
    | dsimp +zetaDelta only [id])

theorem resumeOnSpare_only (a0 : Nat) (a1 : Bool) (s : State) :
    Only 73430538 s (resumeOnSpare a0 a1 s) := by
  unfold resumeOnSpare
  repeat' (first
    | with_reducible intro _
    | with_reducible apply Only.refl
    | with_reducible assumption
    | with_reducible apply Only.step (keepRanges_only ..)
    | with_reducible apply Only.step (restartFrom_only ..)
    | with_reducible apply Only.step (choose_only ..)
    | with_reducible apply Only.step (endContext_only ..)
    | with_reducible apply Only.step (State.error_only ..)
    | decide
    | split
    | dsimp +zetaDelta only [id])

theorem dropTasks_only (a0 : Nat) (s : State) :
    Only 4325390 s (dropTasks a0 s) := by
  unfold dropTasks
  repeat' (first
    | with_reducible intro _
    | with_reducible apply Only.refl
    | with_reducible assumption
    | with_reducible apply Only.after (State.each_only ..)
    | with_reducible apply Only.step (missWhere_only ..)
    | with_reducible apply Only.step (State.usedFree_only ..)
    | with_reducible apply each_only
    | decide
    | fail_if_no_progress extract_lets
    | split
    | dsimp +zetaDelta only [id])

theorem execSpareReplaceDone_only (a0 : Fin 160) (a1 : Bool) (a2 : Bool) (s : State) :
    OnlyNext 73561678 s (execSpareReplaceDone a0 a1 a2 s) := by
  unfold execSpareReplaceDone
  repeat' (first
    | with_reducible intro _
    | with_reducible apply Only.refl
    | with_reducible assumption
    | with_reducible apply OnlyNext.next
    | with_reducible apply Only.step (takeSpare_only ..)
    | with_reducible apply Only.step (retirePhysical_only ..)
    | with_reducible apply Only.step (coreLost_only ..)
    | with_reducible apply Only.step (State.raise_only ..)
    | with_reducible apply Only.step (State.bump_only ..)
    | with_reducible apply Only.step (dropTasks_only ..)
    | with_reducible apply Only.step (freshCore_only ..)
    | with_reducible apply Only.step (resumeOnSpare_only ..)
    | with_reducible apply Only.step (cutByFence_only ..)
    | decide
    | fail_if_no_progress extract_lets
    | split
    | with_reducible apply Only.upd_plat
    | dsimp +zetaDelta only [id])

theorem execSigcReplaceDone_only (a0 : Fin 64) (s : State) :
    OnlyNext 6293578 s (execSigcReplaceDone a0 s) := by
  unfold execSigcReplaceDone
  repeat' (first
    | with_reducible intro _
    | with_reducible apply Only.refl
    | with_reducible assumption
    | with_reducible apply OnlyNext.next
    | with_reducible apply Only.step (State.setReg_only ..)
    | with_reducible apply Only.step (countSpares_only ..)
    | with_reducible apply Only.step (startProgram_only ..)
    | with_reducible apply Only.step (State.raise_only ..)
    | with_reducible apply Only.step (State.bump_only ..)
    | with_reducible apply setRegion_wf
    | with_reducible apply writeBytes_wf
    | with_reducible apply spoilBytes_wf
    | with_reducible apply delFlips_wf
    | with_reducible apply wf_put_flips
    | with_reducible apply wf_del_flips
    | with_reducible apply memory_wf
    | with_reducible apply wf_spad
    | with_reducible apply wf_of_spad
    | with_reducible apply wf_imem
    | with_reducible apply wf_of_imem
    | with_reducible apply wf_dmem
    | with_reducible apply wf_of_dmem
    | with_reducible apply wf_simem
    | with_reducible apply wf_of_simem
    | with_reducible apply wf_hbm
    | with_reducible apply wf_of_hbm
    | with_reducible apply wf_buf
    | with_reducible apply wf_of_buf
    | with_reducible apply wf_tags
    | with_reducible apply wf_of_tags
    | with_reducible apply wf_bulk
    | with_reducible apply wf_of_bulk
    | with_reducible apply wf_empty
    | with_reducible apply wf_filter_cells
    | with_reducible apply forgetRange_wf
    | with_reducible apply foldl_wf
    | with_reducible apply spoilWord_wf
    | with_reducible apply foldl_only
    | with_reducible apply foldl_pair_only
    | decide
    | fail_if_no_progress extract_lets
    | split
    | with_reducible apply wf_mem_mk
    | with_reducible apply Only.upd_plat_mem
    | dsimp +zetaDelta only [id])

theorem renumberDie_only (a0 : Nat) (s : State) :
    Only 73430602 s (renumberDie a0 s) := by
  unfold renumberDie
  repeat' (first
    | with_reducible intro _
    | with_reducible apply Only.refl
    | with_reducible assumption
    | with_reducible apply Only.step (assignNumbers_only ..)
    | with_reducible apply Only.step (countSpares_only ..)
    | with_reducible apply Only.after (State.each_only ..)
    | with_reducible apply Only.step (coreLost_only ..)
    | with_reducible apply Only.step (State.setReg_only ..)
    | with_reducible apply Only.step (startProbe_only ..)
    | with_reducible apply Only.step (freshCore_only ..)
    | with_reducible apply each_only
    | with_reducible apply foldl_only
    | with_reducible apply foldl_pair_only
    | decide
    | fail_if_no_progress extract_lets
    | split
    | with_reducible apply Only.upd_plat
    | dsimp +zetaDelta only [id])

theorem execCoreRetireWrite_only (a0 : Requester) (a1 : Fin 4) (a2 : BitVec 64) (s : State) :
    OnlyNext 73430602 s (execCoreRetireWrite a0 a1 a2 s) := by
  unfold execCoreRetireWrite
  repeat' (first
    | with_reducible intro _
    | with_reducible apply Only.refl
    | with_reducible assumption
    | with_reducible apply OnlyNext.next
    | with_reducible apply Only.after (writeAccess_only ..)
    | with_reducible apply Only.step (State.error_only ..)
    | with_reducible apply Only.step (renumberDie_only ..)
    | with_reducible apply Only.step (State.setReg_only ..)
    | decide
    | split
    | dsimp +zetaDelta only [id])

theorem execFlipArm_only (a0 : Requester) (a1 : BitVec 32) (s : State) :
    OnlyNext 4194314 s (execFlipArm a0 a1 s) := by
  unfold execFlipArm
  repeat' (first
    | with_reducible intro _
    | with_reducible apply Only.refl
    | with_reducible assumption
    | with_reducible apply OnlyNext.next
    | with_reducible apply Only.after (writeAccess_only ..)
    | with_reducible apply Only.step (State.setReg_only ..)
    | decide
    | fail_if_no_progress extract_lets
    | split
    | dsimp +zetaDelta only [id])

theorem execPprStart_only (a0 : Requester) (a1 : BitVec 32) (s : State) :
    OnlyNext 37748746 s (execPprStart a0 a1 s) := by
  unfold execPprStart
  repeat' (first
    | with_reducible intro _
    | with_reducible apply Only.refl
    | with_reducible assumption
    | with_reducible apply OnlyNext.next
    | with_reducible apply Only.after (writeAccess_only ..)
    | with_reducible apply Only.step (State.setReg_only ..)
    | with_reducible apply Only.step (State.error_only ..)
    | decide
    | fail_if_no_progress extract_lets
    | split
    | with_reducible apply Only.upd_ras
    | dsimp +zetaDelta only [id])

theorem rewriteRow_only (a0 : BitVec 64) (s : State) :
    Only 6291466 s (rewriteRow a0 s) := by
  unfold rewriteRow
  repeat' (first
    | with_reducible intro _
    | with_reducible apply Only.refl
    | with_reducible assumption
    | with_reducible apply Only.step (State.readWords_only ..)
    | with_reducible apply setRegion_wf
    | with_reducible apply writeBytes_wf
    | with_reducible apply spoilBytes_wf
    | with_reducible apply delFlips_wf
    | with_reducible apply wf_put_flips
    | with_reducible apply wf_del_flips
    | with_reducible apply memory_wf
    | with_reducible apply wf_spad
    | with_reducible apply wf_of_spad
    | with_reducible apply wf_imem
    | with_reducible apply wf_of_imem
    | with_reducible apply wf_dmem
    | with_reducible apply wf_of_dmem
    | with_reducible apply wf_simem
    | with_reducible apply wf_of_simem
    | with_reducible apply wf_hbm
    | with_reducible apply wf_of_hbm
    | with_reducible apply wf_buf
    | with_reducible apply wf_of_buf
    | with_reducible apply wf_tags
    | with_reducible apply wf_of_tags
    | with_reducible apply wf_bulk
    | with_reducible apply wf_of_bulk
    | with_reducible apply wf_empty
    | with_reducible apply wf_filter_cells
    | with_reducible apply forgetRange_wf
    | with_reducible apply foldl_wf
    | with_reducible apply spoilWord_wf
    | with_reducible apply foldl_only
    | with_reducible apply foldl_pair_only
    | decide
    | fail_if_no_progress extract_lets
    | with_reducible apply Only.upd_mem
    | dsimp +zetaDelta only [id])

theorem execPprDone_only (a0 : PprOutcome) (s : State) :
    OnlyNext 39845898 s (execPprDone a0 s) := by
  unfold execPprDone
  repeat' (first
    | with_reducible intro _
    | with_reducible apply Only.refl
    | with_reducible assumption
    | with_reducible apply OnlyNext.next
    | with_reducible apply Only.step (State.setReg_only ..)
    | with_reducible apply Only.step (rewriteRow_only ..)
    | with_reducible apply Only.step (State.error_only ..)
    | with_reducible apply Only.step (State.raise_only ..)
    | decide
    | fail_if_no_progress extract_lets
    | split
    | with_reducible apply wf_mk
    | with_reducible apply wf_cells
    | with_reducible apply wf_flips
    | with_reducible apply wf_flips_set
    | with_reducible apply all_filter
    | with_reducible apply tabSorted_filter
    | with_reducible apply foldl_set_wf
    | with_reducible apply Only.upd_ras
    | dsimp +zetaDelta only [id])

end Sys2Proof.Machine
end

