-- ==== Sys2Proof/Laws/OnlyIdle.lean ====
section
/-! SUPPORT. What each operation of Machine/Idle.lean may touch: one lemma per operation, in the form of Laws/Only.lean. -/

namespace Sys2Proof.Machine

set_option linter.unusedTactic false
set_option linter.unreachableTactic false
set_option linter.unusedVariables false

theorem countStall_only (a0 : Nat) (s : State) :
    Only 16396 s (countStall a0 s) := by
  unfold countStall
  repeat' (first
    | with_reducible intro _
    | with_reducible apply Only.refl
    | with_reducible assumption
    | with_reducible apply Only.step (State.usedFree_only ..)
    | with_reducible apply Only.step (State.addReg_only ..)
    | with_reducible apply Only.step (setSluice_only ..)
    | decide
    | fail_if_no_progress extract_lets
    | split
    | dsimp +zetaDelta only [id])

theorem idleTick_only (s : State) :
    Only 16652 s (idleTick s) := by
  unfold idleTick
  repeat' (first
    | with_reducible intro _
    | with_reducible apply Only.refl
    | with_reducible assumption
    | with_reducible apply Only.step (tick_only ..)
    | with_reducible apply Only.after (State.each_only ..)
    | with_reducible apply Only.step (countStall_only ..)
    | with_reducible apply each_only
    | decide
    | fail_if_no_progress extract_lets
    | split
    | dsimp +zetaDelta only [id])

end Sys2Proof.Machine
end

