-- ==== Sys2Proof/Laws/OnlyInject.lean ====
section
/-! SUPPORT. What each operation of Machine/Inject.lean may touch: one lemma per operation, in the form of Laws/Only.lean. -/

namespace Sys2Proof.Machine

set_option linter.unusedTactic false
set_option linter.unreachableTactic false
set_option linter.unusedVariables false

theorem operandTouch_only (a0 : Nat) (a1 : Nat) (a2 : FabDesc) (a3 : Nat) (s : State) :
    Only 6308878 s (operandTouch a0 a1 a2 a3 s) := by
  unfold operandTouch
  repeat' (first
    | with_reducible intro _
    | with_reducible apply Only.refl
    | with_reducible assumption
    | with_reducible apply Only.step (State.partTouch_only ..)
    | with_reducible apply Only.step (State.readEffect_only ..)
    | decide
    | fail_if_no_progress extract_lets
    | split
    | dsimp +zetaDelta only [id])

theorem failItem_only (a0 : Nat) (a1 : FabricCmd) (a2 : Bool) (a3 : Nat) (a4 : Nat) (s : State) :
    Only 4194826 s (failItem a0 a1 a2 a3 a4 s) := by
  unfold failItem
  repeat' (first
    | with_reducible intro _
    | with_reducible apply Only.refl
    | with_reducible assumption
    | with_reducible apply Only.step (State.modCore_only ..)
    | with_reducible apply Only.step (remoteFault_only ..)
    | decide
    | fail_if_no_progress extract_lets
    | split
    | dsimp +zetaDelta only [id])

theorem enterReq_only (a0 : Nat) (a1 : FabricCmd) (a2 : Packet) (a3 : Nat) (a4 : Nat) (a5 : Bool) (s : State) :
    Only 1536 s (enterReq a0 a1 a2 a3 a4 a5 s) := by
  unfold enterReq
  repeat' (first
    | with_reducible intro _
    | with_reducible apply Only.refl
    | with_reducible assumption
    | with_reducible apply Only.step (State.modCore_only ..)
    | decide
    | fail_if_no_progress extract_lets
    | split
    | with_reducible apply Only.upd_fabric
    | dsimp +zetaDelta only [id])

theorem noteRequest_only (a0 : Nat) (a1 : Packet) (s : State) :
    Only 524288 s (noteRequest a0 a1 s) := by
  unfold noteRequest
  repeat' (first
    | with_reducible intro _
    | with_reducible apply Only.refl
    | with_reducible assumption
    | with_reducible apply Only.step (noteOutput_only ..)
    | decide
    | split
    | dsimp +zetaDelta only [id])

theorem replayRequest_only (a0 : Nat) (a1 : Nat) (a2 : FabricCmd) (a3 : Packet) (a4 : Bool) (s : State) :
    Only 73942538 s (replayRequest a0 a1 a2 a3 a4 s) := by
  unfold replayRequest
  repeat' (first
    | with_reducible intro _
    | with_reducible apply Only.refl
    | with_reducible assumption
    | with_reducible apply Only.step (noteRequest_only ..)
    | with_reducible apply Only.step (State.modCore_only ..)
    | with_reducible apply Only.step (setRecord_only ..)
    | with_reducible apply Only.step (enterReq_only ..)
    | with_reducible apply Only.step (answerReq_only ..)
    | with_reducible apply Only.step (failItem_only ..)
    | with_reducible apply Only.step (diverge_only ..)
    | decide
    | fail_if_no_progress extract_lets
    | split
    | dsimp +zetaDelta only [id])

theorem sendRequest_only (a0 : Nat) (a1 : Nat) (a2 : FabricCmd) (a3 : Packet) (a4 : Nat) (a5 : Nat) (a6 : Bool) (s : State) :
    Only 73942542 s (sendRequest a0 a1 a2 a3 a4 a5 a6 s) := by
  unfold sendRequest
  repeat' (first
    | with_reducible intro _
    | with_reducible apply Only.refl
    | with_reducible assumption
    | with_reducible apply Only.step (operandTouch_only ..)
    | with_reducible apply Only.step (replayRequest_only ..)
    | with_reducible apply Only.step (flush_only ..)
    | with_reducible apply Only.step (State.sendPackets_only ..)
    | with_reducible apply Only.step (enterReq_only ..)
    | with_reducible apply Only.step (noteRequest_only ..)
    | decide
    | fail_if_no_progress extract_lets
    | split
    | dsimp +zetaDelta only [id])

theorem localRequest_only (a0 : Nat) (a1 : Nat) (a2 : FabricCmd) (a3 : Packet) (a4 : Bool) (s : State) :
    Only 73418254 s (localRequest a0 a1 a2 a3 a4 s) := by
  unfold localRequest
  repeat' (first
    | with_reducible intro _
    | with_reducible apply Only.refl
    | with_reducible assumption
    | with_reducible apply OnlyServed.step (serveTurn_only ..)
    | with_reducible apply Only.step (enterReq_only ..)
    | with_reducible apply Only.step (operandTouch_only ..)
    | with_reducible apply Only.step (answerReq_only ..)
    | with_reducible refine Only.step (OnlyServed.get_answer (serveTurn_only ..) (by assumption)) (by decide) ?_
    | with_reducible refine Only.step (OnlyServed.get_taken (serveTurn_only ..) (by assumption)) (by decide) ?_
    | with_reducible refine Only.step (OnlyServed.get_later (serveTurn_only ..) (by assumption)) (by decide) ?_
    | decide
    | fail_if_no_progress extract_lets
    | split
    | dsimp +zetaDelta only [id])

theorem coherentRequest_only (a0 : Nat) (a1 : Nat) (a2 : FabricCmd) (a3 : FabDesc) (a4 : List Byte) (a5 : Nat) (s : State) :
    Only 73418254 s (coherentRequest a0 a1 a2 a3 a4 a5 s) := by
  unfold coherentRequest
  repeat' (first
    | with_reducible intro _
    | with_reducible apply Only.refl
    | with_reducible assumption
    | with_reducible apply Only.step (State.partTouch_only ..)
    | with_reducible apply Only.step (failItem_only ..)
    | with_reducible apply Only.step (State.faultTouch_only ..)
    | with_reducible apply Only.step (State.modCore_only ..)
    | with_reducible apply Only.step (State.spadWrite_only ..)
    | with_reducible apply Only.step (State.partStore_only ..)
    | with_reducible apply Only.step (operandTouch_only ..)
    | decide
    | fail_if_no_progress extract_lets
    | split
    | dsimp +zetaDelta only [id])

theorem mcastRequest_only (a0 : Nat) (a1 : Nat) (a2 : FabricCmd) (a3 : FabDesc) (a4 : Nat) (a5 : List Byte) (s : State) :
    Only 73942542 s (mcastRequest a0 a1 a2 a3 a4 a5 s) := by
  unfold mcastRequest
  repeat' (first
    | with_reducible intro _
    | with_reducible apply Only.refl
    | with_reducible assumption
    | with_reducible apply Only.after (State.each_only ..)
    | with_reducible apply Only.step (State.error_only ..)
    | with_reducible apply Only.step (remoteFault_only ..)
    | with_reducible apply Only.step (State.modCore_only ..)
    | with_reducible apply Only.step (sendRequest_only ..)
    | with_reducible apply each_only
    | with_reducible apply foldl_only
    | with_reducible apply foldl_pair_only
    | decide
    | fail_if_no_progress extract_lets
    | split
    | dsimp +zetaDelta only [id])

theorem execFabricInject_only (a0 : Fin 160) (s : State) :
    OnlyNext 73942542 s (execFabricInject a0 s) := by
  unfold execFabricInject
  repeat' (first
    | with_reducible intro _
    | with_reducible apply Only.refl
    | with_reducible assumption
    | with_reducible apply OnlyNext.next
    | with_reducible apply Only.step (operandTouch_only ..)
    | with_reducible apply Only.step (State.modCore_only ..)
    | with_reducible apply Only.step (mcastRequest_only ..)
    | with_reducible apply Only.step (failItem_only ..)
    | with_reducible apply Only.step (State.faultTouch_only ..)
    | with_reducible apply Only.step (coherentRequest_only ..)
    | with_reducible apply Only.step (sendRequest_only ..)
    | with_reducible apply Only.step (localRequest_only ..)
    | decide
    | fail_if_no_progress extract_lets
    | split
    | dsimp +zetaDelta only [id])

theorem splitPairs_only (a0 : Packet) (s : State) :
    Only 1024 s (splitPairs a0 s) := by
  unfold splitPairs
  repeat' (first
    | with_reducible intro _
    | with_reducible apply Only.refl
    | with_reducible assumption
    | with_reducible apply Only.step (State.sendPackets_only ..)
    | decide
    | fail_if_no_progress extract_lets
    | split
    | with_reducible apply Only.upd_fabric
    | dsimp +zetaDelta only [id])

theorem execFabricResponse_only (a0 : Packet) (s : State) :
    OnlyNext 73418254 s (execFabricResponse a0 s) := by
  unfold execFabricResponse
  repeat' (first
    | with_reducible intro _
    | with_reducible apply Only.refl
    | with_reducible assumption
    | with_reducible apply OnlyNext.next
    | with_reducible apply Only.step (splitPairs_only ..)
    | with_reducible apply Only.step (takeRx_only ..)
    | with_reducible apply Only.step (takeResponse_only ..)
    | with_reducible apply Only.step (takeLine_only ..)
    | with_reducible apply Only.step (takeAnswer_only ..)
    | decide
    | fail_if_no_progress extract_lets
    | split
    | dsimp +zetaDelta only [id])

theorem execFabricCommandDone_only (a0 : Fin 160) (s : State) :
    OnlyNext 512 s (execFabricCommandDone a0 s) := by
  unfold execFabricCommandDone
  repeat' (first
    | with_reducible intro _
    | with_reducible apply Only.refl
    | with_reducible assumption
    | with_reducible apply OnlyNext.next
    | with_reducible apply Only.step (State.setCore_only ..)
    | decide
    | fail_if_no_progress extract_lets
    | split
    | dsimp +zetaDelta only [id])

theorem execRefusedRetry_only (a0 : Fin 160) (s : State) :
    OnlyNext 73418254 s (execRefusedRetry a0 s) := by
  unfold execRefusedRetry
  repeat' (first
    | with_reducible intro _
    | with_reducible apply Only.refl
    | with_reducible assumption
    | with_reducible apply OnlyNext.next
    | with_reducible apply Only.step (State.modCore_only ..)
    | with_reducible apply OnlyServed.step (serveTurn_only ..)
    | with_reducible apply Only.step (answerReq_only ..)
    | with_reducible apply Only.step (flush_only ..)
    | with_reducible apply Only.step (State.sendPackets_only ..)
    | with_reducible refine Only.step (OnlyServed.get_answer (serveTurn_only ..) (by assumption)) (by decide) ?_
    | with_reducible refine Only.step (OnlyServed.get_taken (serveTurn_only ..) (by assumption)) (by decide) ?_
    | with_reducible refine Only.step (OnlyServed.get_later (serveTurn_only ..) (by assumption)) (by decide) ?_
    | decide
    | fail_if_no_progress extract_lets
    | split
    | dsimp +zetaDelta only [id])

theorem execReqTimeout_only (a0 : Fin 160) (a1 : BitVec 8) (s : State) :
    OnlyNext 73418250 s (execReqTimeout a0 a1 s) := by
  unfold execReqTimeout
  repeat' (first
    | with_reducible intro _
    | with_reducible apply Only.refl
    | with_reducible assumption
    | with_reducible apply OnlyNext.next
    | with_reducible apply Only.step (answerReq_only ..)
    | decide
    | split
    | dsimp +zetaDelta only [id])

end Sys2Proof.Machine
end

