-- ==== Sys2Proof/Laws/OnlyLink.lean ====
section
/-! SUPPORT. What each operation of Machine/Link.lean may touch: one lemma per operation, in the form of Laws/Only.lean. -/

namespace Sys2Proof.Machine

set_option linter.unusedTactic false
set_option linter.unreachableTactic false
set_option linter.unusedVariables false

theorem takeMode_only (a0 : Nat) (s : State) :
    Only 1024 s (takeMode a0 s) := by
  unfold takeMode
  repeat' (first
    | with_reducible intro _
    | with_reducible apply Only.refl
    | with_reducible assumption
    | with_reducible apply Only.step (modLink_only ..)
    | decide
    | dsimp +zetaDelta only [id])

theorem lanesDown_only (a0 : Nat) (s : State) :
    Only 1032 s (lanesDown a0 s) := by
  unfold lanesDown
  repeat' (first
    | with_reducible intro _
    | with_reducible apply Only.refl
    | with_reducible assumption
    | with_reducible apply Only.step (State.setReg_only ..)
    | with_reducible apply Only.step (modLink_only ..)
    | decide
    | fail_if_no_progress extract_lets
    | dsimp +zetaDelta only [id])

theorem leaveUp_only (a0 : Nat) (s : State) :
    Only 4195338 s (leaveUp a0 s) := by
  unfold leaveUp
  repeat' (first
    | with_reducible intro _
    | with_reducible apply Only.refl
    | with_reducible assumption
    | with_reducible apply Only.step (State.raiseBits_only ..)
    | with_reducible apply Only.step (lanesDown_only ..)
    | with_reducible apply Only.step (State.setReg_only ..)
    | decide
    | fail_if_no_progress extract_lets
    | split
    | dsimp +zetaDelta only [id])

theorem returnFlits_only (a0 : Nat) (s : State) :
    Only 4195850 s (returnFlits a0 s) := by
  unfold returnFlits
  repeat' (first
    | with_reducible intro _
    | with_reducible apply Only.refl
    | with_reducible assumption
    | with_reducible apply Only.step (setLink_only ..)
    | with_reducible apply Only.step (releaseHeld_only ..)
    | with_reducible apply Only.step (modLink_only ..)
    | decide
    | fail_if_no_progress extract_lets
    | dsimp +zetaDelta only [id])

theorem startTraining_only (a0 : Nat) (s : State) :
    Only 138413066 s (startTraining a0 s) := by
  unfold startTraining
  repeat' (first
    | with_reducible intro _
    | with_reducible apply Only.refl
    | with_reducible assumption
    | with_reducible apply Only.step (leaveUp_only ..)
    | with_reducible apply Only.step (State.setReg_only ..)
    | with_reducible apply Only.step (noteTraining_only ..)
    | with_reducible apply Only.step (State.raise_only ..)
    | with_reducible apply Only.step (State.bump_only ..)
    | with_reducible apply Only.step (takeMode_only ..)
    | with_reducible apply Only.step (modLink_only ..)
    | with_reducible apply Only.step (updateReach_only ..)
    | decide
    | fail_if_no_progress extract_lets
    | split
    | dsimp +zetaDelta only [id])

theorem portOff_only (a0 : Nat) (s : State) :
    Only 4195850 s (portOff a0 s) := by
  unfold portOff
  repeat' (first
    | with_reducible intro _
    | with_reducible apply Only.refl
    | with_reducible assumption
    | with_reducible apply Only.step (leaveUp_only ..)
    | with_reducible apply Only.step (State.setReg_only ..)
    | with_reducible apply Only.step (returnFlits_only ..)
    | with_reducible apply Only.step (updateReach_only ..)
    | with_reducible apply Only.step (modLink_only ..)
    | decide
    | fail_if_no_progress extract_lets
    | dsimp +zetaDelta only [id])

theorem trainFail_only (a0 : Nat) (a1 : Nat) (a2 : Nat) (s : State) :
    Only 4195850 s (trainFail a0 a1 a2 s) := by
  unfold trainFail
  repeat' (first
    | with_reducible intro _
    | with_reducible apply Only.refl
    | with_reducible assumption
    | with_reducible apply Only.step (State.setReg_only ..)
    | with_reducible apply Only.step (leaveUp_only ..)
    | with_reducible apply Only.step (modLink_only ..)
    | with_reducible apply Only.step (returnFlits_only ..)
    | with_reducible apply Only.step (State.error_only ..)
    | decide
    | fail_if_no_progress extract_lets
    | dsimp +zetaDelta only [id])

theorem execTrainStart_only (a0 : Fin 9) (a1 : TrainCause) (s : State) :
    OnlyNext 138413066 s (execTrainStart a0 a1 s) := by
  unfold execTrainStart
  repeat' (first
    | with_reducible intro _
    | with_reducible apply Only.refl
    | with_reducible assumption
    | with_reducible apply OnlyNext.next
    | with_reducible apply Only.step (startTraining_only ..)
    | decide
    | fail_if_no_progress extract_lets
    | split
    | dsimp +zetaDelta only [id])

theorem execRetrainWrite_only (a0 : Requester) (a1 : Fin 9) (s : State) :
    OnlyNext 4194314 s (execRetrainWrite a0 a1 s) := by
  unfold execRetrainWrite
  repeat' (first
    | with_reducible intro _
    | with_reducible apply Only.refl
    | with_reducible assumption
    | with_reducible apply OnlyNext.next
    | with_reducible apply Only.after (writeAccess_only ..)
    | with_reducible apply Only.step (State.setReg_only ..)
    | decide
    | dsimp +zetaDelta only [id])

theorem execLevelDrift_only (a0 : Fin 9) (a1 : Fin 4) (s : State) :
    OnlyNext 138413066 s (execLevelDrift a0 a1 s) := by
  unfold execLevelDrift
  repeat' (first
    | with_reducible intro _
    | with_reducible apply Only.refl
    | with_reducible assumption
    | with_reducible apply OnlyNext.next
    | with_reducible apply Only.step (startTraining_only ..)
    | decide
    | split
    | dsimp +zetaDelta only [id])

theorem beginPhase_only (a0 : Nat) (a1 : Nat) (s : State) :
    Only 1032 s (beginPhase a0 a1 s) := by
  unfold beginPhase
  repeat' (first
    | with_reducible intro _
    | with_reducible apply Only.refl
    | with_reducible assumption
    | with_reducible apply Only.step (modLink_only ..)
    | with_reducible apply Only.step (State.setReg_only ..)
    | decide
    | dsimp +zetaDelta only [id])

theorem detectDone_only (a0 : Nat) (a1 : TrainInfo) (s : State) :
    Only 4195854 s (detectDone a0 a1 s) := by
  unfold detectDone
  repeat' (first
    | with_reducible intro _
    | with_reducible apply Only.refl
    | with_reducible assumption
    | with_reducible apply Only.step (State.usedFree_only ..)
    | with_reducible apply Only.step (State.setReg_only ..)
    | with_reducible apply Only.step (trainFail_only ..)
    | with_reducible apply Only.step (beginPhase_only ..)
    | decide
    | fail_if_no_progress extract_lets
    | split
    | dsimp +zetaDelta only [id])

theorem retireLanes_only (a0 : Nat) (a1 : Nat) (s : State) :
    Only 4195338 s (retireLanes a0 a1 s) := by
  unfold retireLanes
  repeat' (first
    | with_reducible intro _
    | with_reducible apply Only.refl
    | with_reducible assumption
    | with_reducible apply Only.step (modLink_only ..)
    | with_reducible apply Only.step (State.setReg_only ..)
    | with_reducible apply Only.step (State.raiseBits_only ..)
    | decide
    | fail_if_no_progress extract_lets
    | split
    | dsimp +zetaDelta only [id])

theorem linkUp_only (a0 : Nat) (a1 : TrainInfo) (s : State) :
    Only 4195338 s (linkUp a0 a1 s) := by
  unfold linkUp
  repeat' (first
    | with_reducible intro _
    | with_reducible apply Only.refl
    | with_reducible assumption
    | with_reducible apply Only.step (State.setReg_only ..)
    | with_reducible apply Only.step (State.error_only ..)
    | with_reducible apply Only.step (leaveUp_only ..)
    | with_reducible apply Only.step (setLink_only ..)
    | with_reducible apply Only.step (State.gate_only ..)
    | with_reducible apply Only.step (modLink_only ..)
    | with_reducible apply Only.step (updateReach_only ..)
    | with_reducible apply Only.step (State.raise_only ..)
    | decide
    | fail_if_no_progress extract_lets
    | split
    | dsimp +zetaDelta only [id])

theorem execTrainPhaseDone_only (a0 : Fin 9) (a1 : TrainInfo) (s : State) :
    OnlyNext 4195854 s (execTrainPhaseDone a0 a1 s) := by
  unfold execTrainPhaseDone
  repeat' (first
    | with_reducible intro _
    | with_reducible apply Only.refl
    | with_reducible assumption
    | with_reducible apply OnlyNext.next
    | with_reducible apply Only.step (modLink_only ..)
    | with_reducible apply Only.step (detectDone_only ..)
    | with_reducible apply Only.step (beginPhase_only ..)
    | with_reducible apply Only.step (retireLanes_only ..)
    | with_reducible apply Only.step (linkUp_only ..)
    | decide
    | fail_if_no_progress extract_lets
    | split
    | dsimp +zetaDelta only [id])

theorem execTrainPhaseTimeout_only (a0 : Fin 9) (s : State) :
    OnlyNext 138413578 s (execTrainPhaseTimeout a0 s) := by
  unfold execTrainPhaseTimeout
  repeat' (first
    | with_reducible intro _
    | with_reducible apply Only.refl
    | with_reducible assumption
    | with_reducible apply OnlyNext.next
    | with_reducible apply Only.step (trainFail_only ..)
    | with_reducible apply Only.step (modLink_only ..)
    | with_reducible apply Only.step (beginPhase_only ..)
    | with_reducible apply Only.step (State.setReg_only ..)
    | with_reducible apply Only.step (takeMode_only ..)
    | with_reducible apply Only.step (noteTraining_only ..)
    | with_reducible apply Only.step (State.bump_only ..)
    | decide
    | fail_if_no_progress extract_lets
    | split
    | dsimp +zetaDelta only [id])

theorem sendNak_only (a0 : Nat) (s : State) :
    Only 1026 s (sendNak a0 s) := by
  unfold sendNak
  repeat' (first
    | with_reducible intro _
    | with_reducible apply Only.refl
    | with_reducible assumption
    | with_reducible apply Only.step (State.gate_only ..)
    | with_reducible apply Only.step (modLink_only ..)
    | decide
    | dsimp +zetaDelta only [id])

theorem execCodewordRx_only (a0 : Fin 9) (a1 : Fin 4) (a2 : BitVec 10) (a3 : FecResult) (s : State) :
    OnlyNext 4195342 s (execCodewordRx a0 a1 a2 a3 s) := by
  unfold execCodewordRx
  repeat' (first
    | with_reducible intro _
    | with_reducible apply Only.refl
    | with_reducible assumption
    | with_reducible apply OnlyNext.next
    | with_reducible apply Only.step (State.addReg_only ..)
    | with_reducible apply Only.step (modLink_only ..)
    | with_reducible apply Only.step (State.usedFree_only ..)
    | with_reducible apply Only.step (State.error_only ..)
    | with_reducible apply Only.step (State.bump_only ..)
    | with_reducible apply Only.step (sendNak_only ..)
    | decide
    | fail_if_no_progress extract_lets
    | split
    | dsimp +zetaDelta only [id])

theorem execCodewordLockLoss_only (a0 : Fin 9) (a1 : Fin 4) (s : State) :
    OnlyNext 1024 s (execCodewordLockLoss a0 a1 s) := by
  unfold execCodewordLockLoss
  repeat' (first
    | with_reducible intro _
    | with_reducible apply Only.refl
    | with_reducible assumption
    | with_reducible apply OnlyNext.next
    | with_reducible apply Only.step (modLink_only ..)
    | decide
    | split
    | dsimp +zetaDelta only [id])

theorem applySeal_only (a0 : Nat) (a1 : GateSeal) (s : State) :
    Only 4195854 s (applySeal a0 a1 s) := by
  unfold applySeal
  repeat' (first
    | with_reducible intro _
    | with_reducible apply Only.refl
    | with_reducible assumption
    | with_reducible apply Only.step (placeSeal_only ..)
    | with_reducible apply Only.step (flush_only ..)
    | with_reducible apply Only.step (sealDone_only ..)
    | with_reducible apply Only.step (State.usedFree_only ..)
    | with_reducible apply Only.step (sendSeal_only ..)
    | decide
    | split
    | dsimp +zetaDelta only [id])

theorem sealsArrive_only (a0 : Nat) (s : State) :
    Only 4195854 s (sealsArrive a0 s) := by
  unfold sealsArrive
  repeat' (first
    | with_reducible intro _
    | with_reducible apply Only.refl
    | with_reducible assumption
    | with_reducible apply Only.after (State.each_only ..)
    | with_reducible apply Only.step (setLink_only ..)
    | with_reducible apply Only.step (applySeal_only ..)
    | with_reducible apply each_only
    | decide
    | fail_if_no_progress extract_lets
    | dsimp +zetaDelta only [id])

theorem sealArrives_only (a0 : Nat) (a1 : GateSeal) (s : State) :
    Only 4195854 s (sealArrives a0 a1 s) := by
  unfold sealArrives
  repeat' (first
    | with_reducible intro _
    | with_reducible apply Only.refl
    | with_reducible assumption
    | with_reducible apply Only.step (sealsArrive_only ..)
    | with_reducible apply Only.step (setLink_only ..)
    | decide
    | fail_if_no_progress extract_lets
    | split
    | dsimp +zetaDelta only [id])

theorem execSeal_only (a0 : Fin 9) (a1 : Fin 64) (a2 : BitVec 12) (a3 : BitVec 12) (s : State) :
    OnlyNext 4195854 s (execSeal a0 a1 a2 a3 s) := by
  unfold execSeal
  repeat' (first
    | with_reducible intro _
    | with_reducible apply Only.refl
    | with_reducible assumption
    | with_reducible apply OnlyNext.next
    | with_reducible apply Only.step (sealArrives_only ..)
    | decide
    | dsimp +zetaDelta only [id])

theorem execSealReturn_only (a0 : Fin 9) (a1 : Fin 64) (a2 : BitVec 12) (a3 : BitVec 12) (s : State) :
    OnlyNext 4195854 s (execSealReturn a0 a1 a2 a3 s) := by
  unfold execSealReturn
  repeat' (first
    | with_reducible intro _
    | with_reducible apply Only.refl
    | with_reducible assumption
    | with_reducible apply OnlyNext.next
    | with_reducible apply Only.step (sealArrives_only ..)
    | decide
    | dsimp +zetaDelta only [id])

theorem packetArrives_only (a0 : Nat) (a1 : Packet) (s : State) :
    Only 4195850 s (packetArrives a0 a1 s) := by
  unfold packetArrives
  repeat' (first
    | with_reducible intro _
    | with_reducible apply Only.refl
    | with_reducible assumption
    | with_reducible apply Only.step (flush_only ..)
    | with_reducible apply Only.step (routePacket_only ..)
    | with_reducible apply Only.step (splitPairs_only ..)
    | decide
    | dsimp +zetaDelta only [id])

theorem takeFlit_only (a0 : Nat) (a1 : Flit) (s : State) :
    Only 4195850 s (takeFlit a0 a1 s) := by
  unfold takeFlit
  repeat' (first
    | with_reducible intro _
    | with_reducible apply Only.refl
    | with_reducible assumption
    | with_reducible apply Only.step (packetArrives_only ..)
    | with_reducible apply Only.step (setLink_only ..)
    | with_reducible apply Only.step (freeFlits_only ..)
    | decide
    | fail_if_no_progress extract_lets
    | split
    | dsimp +zetaDelta only [id])

theorem execFlitRx_only (a0 : Fin 9) (a1 : Flit) (a2 : Bool) (s : State) :
    OnlyNext 4195854 s (execFlitRx a0 a1 a2 s) := by
  unfold execFlitRx
  repeat' (first
    | with_reducible intro _
    | with_reducible apply Only.refl
    | with_reducible assumption
    | with_reducible apply OnlyNext.next
    | with_reducible apply Only.step (sendNak_only ..)
    | with_reducible apply Only.step (State.bump_only ..)
    | with_reducible apply Only.step (setLink_only ..)
    | with_reducible apply Only.step (sealsArrive_only ..)
    | with_reducible apply Only.step (takeFlit_only ..)
    | decide
    | fail_if_no_progress extract_lets
    | split
    | dsimp +zetaDelta only [id])

theorem sendNull_only (a0 : Nat) (s : State) :
    Only 2 s (sendNull a0 s) := by
  unfold sendNull
  repeat' (first
    | with_reducible intro _
    | with_reducible apply Only.refl
    | with_reducible assumption
    | with_reducible apply Only.step (State.emit_only ..)
    | decide
    | dsimp +zetaDelta only [id])

theorem sendFlit_only (a0 : Nat) (a1 : Nat) (a2 : Prod Nat Nat) (a3 : QPacket) (s : State) :
    Only 1026 s (sendFlit a0 a1 a2 a3 s) := by
  unfold sendFlit
  repeat' (first
    | with_reducible intro _
    | with_reducible apply Only.refl
    | with_reducible assumption
    | with_reducible apply Only.step (freeSource_only ..)
    | with_reducible apply Only.step (State.emit_only ..)
    | with_reducible apply Only.step (setLink_only ..)
    | with_reducible apply Only.step (sealsAdvance_only ..)
    | decide
    | fail_if_no_progress extract_lets
    | split
    | dsimp +zetaDelta only [id])

theorem execFlitTx_only (a0 : Fin 9) (s : State) :
    OnlyNext 4195850 s (execFlitTx a0 s) := by
  unfold execFlitTx
  repeat' (first
    | with_reducible intro _
    | with_reducible apply Only.refl
    | with_reducible assumption
    | with_reducible apply OnlyNext.next
    | with_reducible apply Only.step (flush_only ..)
    | with_reducible apply Only.step (sendNull_only ..)
    | with_reducible apply Only.step (setLink_only ..)
    | with_reducible apply Only.step (State.emit_only ..)
    | with_reducible apply Only.step (sendFlit_only ..)
    | decide
    | fail_if_no_progress extract_lets
    | split
    | dsimp +zetaDelta only [id])

theorem execFlow_only (a0 : Fin 9) (a1 : Fin 8) (a2 : Bool) (s : State) :
    OnlyNext 4195338 s (execFlow a0 a1 a2 s) := by
  unfold execFlow
  repeat' (first
    | with_reducible intro _
    | with_reducible apply Only.refl
    | with_reducible assumption
    | with_reducible apply OnlyNext.next
    | with_reducible apply Only.step (State.countErrors_only ..)
    | with_reducible apply Only.step (modLink_only ..)
    | decide
    | split
    | dsimp +zetaDelta only [id])

theorem execAck_only (a0 : Fin 9) (a1 : BitVec 12) (s : State) :
    OnlyNext 1024 s (execAck a0 a1 s) := by
  unfold execAck
  repeat' (first
    | with_reducible intro _
    | with_reducible apply Only.refl
    | with_reducible assumption
    | with_reducible apply OnlyNext.next
    | with_reducible apply Only.step (modLink_only ..)
    | decide
    | split
    | dsimp +zetaDelta only [id])

theorem execNak_only (a0 : Fin 9) (a1 : BitVec 12) (s : State) :
    OnlyNext 1034 s (execNak a0 a1 s) := by
  unfold execNak
  repeat' (first
    | with_reducible intro _
    | with_reducible apply Only.refl
    | with_reducible assumption
    | with_reducible apply OnlyNext.next
    | with_reducible apply Only.step (State.bump_only ..)
    | with_reducible apply Only.step (modLink_only ..)
    | with_reducible apply Only.after (State.each_only ..)
    | with_reducible apply Only.step (State.gate_only ..)
    | with_reducible apply each_only
    | decide
    | fail_if_no_progress extract_lets
    | split
    | dsimp +zetaDelta only [id])

theorem execCredit_only (a0 : Fin 9) (a1 : Fin 8) (a2 : BitVec 10) (s : State) :
    OnlyNext 1024 s (execCredit a0 a1 a2 s) := by
  unfold execCredit
  repeat' (first
    | with_reducible intro _
    | with_reducible apply Only.refl
    | with_reducible assumption
    | with_reducible apply OnlyNext.next
    | with_reducible apply Only.step (modLink_only ..)
    | decide
    | fail_if_no_progress extract_lets
    | split
    | dsimp +zetaDelta only [id])

theorem execAckTimer_only (a0 : Fin 9) (s : State) :
    OnlyNext 1026 s (execAckTimer a0 s) := by
  unfold execAckTimer
  repeat' (first
    | with_reducible intro _
    | with_reducible apply Only.refl
    | with_reducible assumption
    | with_reducible apply OnlyNext.next
    | with_reducible apply Only.step (State.gate_only ..)
    | with_reducible apply Only.step (setLink_only ..)
    | decide
    | fail_if_no_progress extract_lets
    | split
    | dsimp +zetaDelta only [id])

theorem execRetryLimit_only (a0 : Fin 9) (s : State) :
    OnlyNext 138413066 s (execRetryLimit a0 s) := by
  unfold execRetryLimit
  repeat' (first
    | with_reducible intro _
    | with_reducible apply Only.refl
    | with_reducible assumption
    | with_reducible apply OnlyNext.next
    | with_reducible apply Only.step (startTraining_only ..)
    | with_reducible apply Only.step (State.error_only ..)
    | decide
    | split
    | dsimp +zetaDelta only [id])

theorem execGateStateResend_only (a0 : Fin 9) (s : State) :
    OnlyNext 2 s (execGateStateResend a0 s) := by
  unfold execGateStateResend
  repeat' (first
    | with_reducible intro _
    | with_reducible apply Only.refl
    | with_reducible assumption
    | with_reducible apply OnlyNext.next
    | with_reducible apply Only.after (State.each_only ..)
    | with_reducible apply Only.step (State.gate_only ..)
    | with_reducible apply each_only
    | decide
    | split
    | dsimp +zetaDelta only [id])

theorem execTimeExchangeTx_only (a0 : Fin 9) (s : State) :
    OnlyNext 1026 s (execTimeExchangeTx a0 s) := by
  unfold execTimeExchangeTx
  repeat' (first
    | with_reducible intro _
    | with_reducible apply Only.refl
    | with_reducible assumption
    | with_reducible apply OnlyNext.next
    | with_reducible apply Only.step (State.gate_only ..)
    | with_reducible apply Only.step (setLink_only ..)
    | decide
    | fail_if_no_progress extract_lets
    | split
    | dsimp +zetaDelta only [id])

theorem timeOffset_only (a0 : Nat) (a1 : Nat) (a2 : Nat) (a3 : Nat) (s : State) :
    Only 4195598 s (timeOffset a0 a1 a2 a3 s) := by
  unfold timeOffset
  repeat' (first
    | with_reducible intro _
    | with_reducible apply Only.refl
    | with_reducible assumption
    | with_reducible apply Only.step (State.usedFree_only ..)
    | with_reducible apply Only.step (State.setReg_only ..)
    | with_reducible apply Only.step (servo_only ..)
    | decide
    | fail_if_no_progress extract_lets
    | split
    | with_reducible apply Only.upd_fabric
    | dsimp +zetaDelta only [id])

theorem execTime_only (a0 : Fin 9) (a1 : BitVec 6) (a2 : BitVec 50) (a3 : BitVec 50) (s : State) :
    OnlyNext 4195598 s (execTime a0 a1 a2 a3 s) := by
  unfold execTime
  repeat' (first
    | with_reducible intro _
    | with_reducible apply Only.refl
    | with_reducible assumption
    | with_reducible apply OnlyNext.next
    | with_reducible apply Only.step (setLink_only ..)
    | with_reducible apply Only.step (timeOffset_only ..)
    | decide
    | fail_if_no_progress extract_lets
    | split
    | dsimp +zetaDelta only [id])

theorem execTimeUpstreamLoss_only (a0 : Option (Fin 8)) (s : State) :
    OnlyNext 4195338 s (execTimeUpstreamLoss a0 s) := by
  unfold execTimeUpstreamLoss
  repeat' (first
    | with_reducible intro _
    | with_reducible apply Only.refl
    | with_reducible assumption
    | with_reducible apply OnlyNext.next
    | with_reducible apply Only.step (modLink_only ..)
    | with_reducible apply Only.step (State.setReg_only ..)
    | with_reducible apply Only.step (State.raise_only ..)
    | with_reducible apply Only.step (enterHoldover_only ..)
    | decide
    | fail_if_no_progress extract_lets
    | split
    | with_reducible apply Only.upd_fabric
    | dsimp +zetaDelta only [id])

theorem execPower_only (a0 : Fin 9) (a1 : BitVec 4) (a2 : Bool) (a3 : BitVec 10) (s : State) :
    OnlyNext 1024 s (execPower a0 a1 a2 a3 s) := by
  unfold execPower
  repeat' (first
    | with_reducible intro _
    | with_reducible apply Only.refl
    | with_reducible assumption
    | with_reducible apply OnlyNext.next
    | with_reducible apply Only.step (modLink_only ..)
    | decide
    | split
    | dsimp +zetaDelta only [id])

theorem setAsleep_only (a0 : Nat) (a1 : Nat) (a2 : Bool) (s : State) :
    Only 8 s (setAsleep a0 a1 a2 s) := by
  unfold setAsleep
  repeat' (first
    | with_reducible intro _
    | with_reducible apply Only.refl
    | with_reducible assumption
    | with_reducible apply Only.step (State.setReg_only ..)
    | decide
    | fail_if_no_progress extract_lets
    | split
    | dsimp +zetaDelta only [id])

theorem execLaneSleep_only (a0 : Fin 9) (a1 : Fin 4) (s : State) :
    OnlyNext 1038 s (execLaneSleep a0 a1 s) := by
  unfold execLaneSleep
  repeat' (first
    | with_reducible intro _
    | with_reducible apply Only.refl
    | with_reducible assumption
    | with_reducible apply OnlyNext.next
    | with_reducible apply Only.step (setAsleep_only ..)
    | with_reducible apply Only.step (setLink_only ..)
    | with_reducible apply Only.step (State.usedFree_only ..)
    | with_reducible apply Only.step (State.gate_only ..)
    | decide
    | fail_if_no_progress extract_lets
    | split
    | dsimp +zetaDelta only [id])

theorem execLaneWake_only (a0 : Fin 9) (a1 : Fin 4) (a2 : Bool) (s : State) :
    OnlyNext 138413066 s (execLaneWake a0 a1 a2 s) := by
  unfold execLaneWake
  repeat' (first
    | with_reducible intro _
    | with_reducible apply Only.refl
    | with_reducible assumption
    | with_reducible apply OnlyNext.next
    | with_reducible apply Only.step (setAsleep_only ..)
    | with_reducible apply Only.step (setLink_only ..)
    | with_reducible apply Only.step (State.gate_only ..)
    | with_reducible apply Only.step (startTraining_only ..)
    | decide
    | fail_if_no_progress extract_lets
    | split
    | dsimp +zetaDelta only [id])

theorem execLaneRefresh_only (a0 : Fin 9) (a1 : Fin 4) (s : State) :
    OnlyNext 1032 s (execLaneRefresh a0 a1 s) := by
  unfold execLaneRefresh
  repeat' (first
    | with_reducible intro _
    | with_reducible apply Only.refl
    | with_reducible assumption
    | with_reducible apply OnlyNext.next
    | with_reducible apply Only.step (setLink_only ..)
    | with_reducible apply Only.step (setAsleep_only ..)
    | decide
    | fail_if_no_progress extract_lets
    | split
    | dsimp +zetaDelta only [id])

end Sys2Proof.Machine
end

