-- ==== Sys2Proof/Laws/OnlySelfTest.lean ====
section
/-! SUPPORT. What each operation of Machine/SelfTest.lean may touch: one lemma per operation, in the form of Laws/Only.lean. -/

namespace Sys2Proof.Machine

set_option linter.unusedTactic false
set_option linter.unreachableTactic false
set_option linter.unusedVariables false

theorem tabSorted_range {α : Type} (v : α) (a n : Nat) : tabSorted a ((List.range' a n).map fun i => (i, v)) = true := by
  induction n generalizing a with
  | zero => rfl
  | succ n ih =>
    simp only [List.range'_succ, List.map_cons, tabSorted, Bool.and_eq_true, decide_eq_true_eq]
    exact ⟨Nat.le_refl a, ih (a + 1)⟩

theorem zeroMemory_wf (n : Nat) : (zeroMemory n).wf = true := by
  have h := tabSorted_range (0 : Byte) 0 n
  rw [← List.range_eq_range'] at h
  exact wf_mk h rfl rfl

theorem execRake_only (a0 : CmdRef) (s : State) :
    OnlyNext 73942026 s (execRake a0 s) := by
  unfold execRake
  repeat' (first
    | with_reducible intro _
    | with_reducible apply Only.refl
    | with_reducible assumption
    | with_reducible apply OnlyNext.next
    | with_reducible apply Only.after (startCmd_only ..)
    | with_reducible apply Only.step (complete_only ..)
    | with_reducible apply Only.step (startLong_only ..)
    | decide
    | fail_if_no_progress extract_lets
    | split
    | dsimp +zetaDelta only [id])

theorem rakeWords_only (a0 : Region) (a1 : Nat) (a2 : Nat) (a3 : Nat) (a4 : Bool) (r : Prod State LongOp) :
    Only 6291466 r.1 (rakeWords a0 a1 a2 a3 a4 r).1 := by
  unfold rakeWords
  repeat' (first
    | with_reducible intro _
    | with_reducible apply Only.refl
    | with_reducible assumption
    | with_reducible apply Only.step (State.readWords_only ..)
    | with_reducible apply foldl_only
    | with_reducible apply foldl_pair_only
    | decide
    | fail_if_no_progress extract_lets
    | dsimp +zetaDelta only [id])

theorem rakeLine_only (r : Prod State LongOp) (a1 : Nat) :
    Only 6291466 r.1 (rakeLine r a1).1 := by
  unfold rakeLine
  repeat' (first
    | with_reducible intro _
    | with_reducible apply Only.refl
    | with_reducible assumption
    | with_reducible apply Only.step (rakeWords_only ..)
    | with_reducible apply Only.step (State.countErrors_only ..)
    | with_reducible apply Only.step (State.addReg_only ..)
    | with_reducible refine Only.step (Only.pair (rakeWords_only ..) (by assumption)) (by decide) ?_
    | decide
    | fail_if_no_progress extract_lets
    | split
    | dsimp +zetaDelta only [id])

theorem rakeTiles_only (a0 : LongOp) (s : State) :
    Only 516 s (rakeTiles a0 s).1 := by
  unfold rakeTiles
  repeat' (first
    | with_reducible intro _
    | with_reducible apply Only.refl
    | with_reducible assumption
    | with_reducible apply Only.step (State.usedFree_only ..)
    | with_reducible apply Only.step (State.modCore_only ..)
    | decide
    | fail_if_no_progress extract_lets
    | split
    | dsimp +zetaDelta only [id])

theorem rakeChunk_only (a0 : LongOp) (a1 : Nat) (s : State) :
    Only 73942542 s (rakeChunk a0 a1 s) := by
  unfold rakeChunk
  repeat' (first
    | with_reducible intro _
    | with_reducible apply Only.refl
    | with_reducible assumption
    | with_reducible apply Only.step (rakeLine_only ..)
    | with_reducible apply Only.step (rakeTiles_only ..)
    | with_reducible apply Only.step (writeData_only ..)
    | with_reducible apply Only.step (chunkDone_only ..)
    | with_reducible refine Only.step (Only.pair (rakeLine_only ..) (by assumption)) (by decide) ?_
    | with_reducible refine Only.step (Only.pair (rakeTiles_only ..) (by assumption)) (by decide) ?_
    | with_reducible apply foldl_only
    | with_reducible apply foldl_pair_only
    | decide
    | fail_if_no_progress extract_lets
    | split
    | dsimp +zetaDelta only [id])

theorem execSelftestAdmit_only (a0 : CmdRef) (a1 : SelftestEnv) (s : State) :
    OnlyNext 73942026 s (execSelftestAdmit a0 a1 s) := by
  unfold execSelftestAdmit
  repeat' (first
    | with_reducible intro _
    | with_reducible apply Only.refl
    | with_reducible assumption
    | with_reducible apply OnlyNext.next
    | with_reducible apply Only.after (startCmd_only ..)
    | with_reducible apply Only.step (complete_only ..)
    | with_reducible apply Only.step (startLong_only ..)
    | decide
    | fail_if_no_progress extract_lets
    | split
    | dsimp +zetaDelta only [id])

theorem execSelftestSoak_only (a0 : CmdRef) (a1 : Nat) (a2 : SoakRecord) (s : State) :
    OnlyNext 73942026 s (execSelftestSoak a0 a1 a2 s) := by
  unfold execSelftestSoak
  repeat' (first
    | with_reducible intro _
    | with_reducible apply Only.refl
    | with_reducible assumption
    | with_reducible apply OnlyNext.next
    | with_reducible apply Only.after (startCmd_only ..)
    | with_reducible apply Only.step (complete_only ..)
    | with_reducible apply Only.step (startLong_only ..)
    | decide
    | fail_if_no_progress extract_lets
    | split
    | dsimp +zetaDelta only [id])

theorem zeroMemories_only (s : State) :
    Only 2101760 s (zeroMemories s) := by
  unfold zeroMemories
  repeat' (first
    | with_reducible intro _
    | with_reducible apply Only.refl
    | with_reducible assumption
    | with_reducible apply setRegion_wf
    | with_reducible apply writeBytes_wf
    | with_reducible apply spoilBytes_wf
    | with_reducible apply delFlips_wf
    | with_reducible apply wf_put_flips
    | with_reducible apply wf_del_flips
    | with_reducible apply memory_wf
    | with_reducible apply wf_spad
    | with_reducible apply wf_of_spad
    | with_reducible apply wf_imem
    | with_reducible apply wf_of_imem
    | with_reducible apply wf_dmem
    | with_reducible apply wf_of_dmem
    | with_reducible apply wf_simem
    | with_reducible apply wf_of_simem
    | with_reducible apply wf_hbm
    | with_reducible apply wf_of_hbm
    | with_reducible apply wf_buf
    | with_reducible apply wf_of_buf
    | with_reducible apply wf_tags
    | with_reducible apply wf_of_tags
    | with_reducible apply wf_bulk
    | with_reducible apply wf_of_bulk
    | with_reducible apply wf_empty
    | with_reducible apply wf_filter_cells
    | with_reducible apply forgetRange_wf
    | with_reducible apply foldl_wf
    | with_reducible apply spoilWord_wf
    | with_reducible apply zeroMemory_wf
    | decide
    | with_reducible apply wf_mem_mk
    | with_reducible apply wf_mk
    | with_reducible apply wf_cells
    | with_reducible apply wf_flips
    | with_reducible apply wf_flips_set
    | with_reducible apply all_filter
    | with_reducible apply tabSorted_filter
    | with_reducible apply foldl_set_wf
    | with_reducible apply Only.upd_cores_sems_mem
    | dsimp +zetaDelta only [id])

theorem probeAll_only (a0 : List (Prod Nat Nat)) (s : State) :
    Only 73430606 s (probeAll a0 s) := by
  unfold probeAll
  repeat' (first
    | with_reducible intro _
    | with_reducible apply Only.refl
    | with_reducible assumption
    | with_reducible apply Only.after (State.each_only ..)
    | with_reducible apply Only.step (State.usedFree_only ..)
    | with_reducible apply Only.step (probeDone_only ..)
    | with_reducible apply Only.step (startProbe_only ..)
    | with_reducible apply Only.step (fenceCore_only ..)
    | with_reducible apply each_only
    | with_reducible apply foldl_only
    | with_reducible apply foldl_pair_only
    | decide
    | fail_if_no_progress extract_lets
    | split
    | dsimp +zetaDelta only [id])

theorem endLongWith_only (a0 : LongOp) (a1 : Nat) (a2 : BitVec 128) (s : State) :
    Only 4718594 s (endLongWith a0 a1 a2 s) := by
  unfold endLongWith
  repeat' (first
    | with_reducible intro _
    | with_reducible apply Only.refl
    | with_reducible assumption
    | with_reducible apply Only.step (complete_only ..)
    | decide
    | with_reducible apply Only.upd_host
    | dsimp +zetaDelta only [id])

theorem selftestChunk_only (a0 : LongOp) (a1 : Nat) (s : State) :
    Only 73954894 s (selftestChunk a0 a1 s) := by
  unfold selftestChunk
  repeat' (first
    | with_reducible intro _
    | with_reducible apply Only.refl
    | with_reducible assumption
    | with_reducible apply Only.step (chunkDone_only ..)
    | with_reducible apply Only.step (writeData_only ..)
    | with_reducible apply Only.step (zeroMemories_only ..)
    | with_reducible apply Only.step (probeAll_only ..)
    | with_reducible apply Only.step (State.usedFree_only ..)
    | with_reducible apply Only.step (endLongWith_only ..)
    | with_reducible apply Only.step (writeProgress_only ..)
    | decide
    | fail_if_no_progress extract_lets
    | split
    | dsimp +zetaDelta only [id])

end Sys2Proof.Machine
end

