-- ==== Sys2Proof/Laws/OnlyZeroize.lean ====
section
/-! SUPPORT. What each operation of Machine/Zeroize.lean may touch: one lemma per operation, in the form of Laws/Only.lean. -/

namespace Sys2Proof.Machine

set_option linter.unusedTactic false
set_option linter.unreachableTactic false
set_option linter.unusedVariables false

theorem dropSubscribers_only (a0 : Nat) (s : State) :
    Only 1048584 s (dropSubscribers a0 s) := by
  unfold dropSubscribers
  repeat' (first
    | with_reducible intro _
    | with_reducible apply Only.refl
    | with_reducible assumption
    | with_reducible apply Only.after (State.each_only ..)
    | with_reducible apply Only.step (State.setNode_only ..)
    | with_reducible apply Only.step (setQueue_only ..)
    | with_reducible apply each_only
    | decide
    | fail_if_no_progress extract_lets
    | dsimp +zetaDelta only [id])

theorem stopPart_only (a0 : Nat) (s : State) :
    Only 74872330 s (stopPart a0 s) := by
  unfold stopPart
  repeat' (first
    | with_reducible intro _
    | with_reducible apply Only.refl
    | with_reducible assumption
    | with_reducible apply Only.step (deleteQueues_only ..)
    | with_reducible apply Only.after (State.each_only ..)
    | with_reducible apply Only.step (endContext_only ..)
    | with_reducible apply Only.step (freeStream_only ..)
    | with_reducible apply Only.step (dropSluices_only ..)
    | with_reducible apply Only.step (leaveStep_only ..)
    | with_reducible apply Only.step (State.setRadio_only ..)
    | with_reducible apply Only.step (dropSubscribers_only ..)
    | with_reducible apply each_only
    | decide
    | fail_if_no_progress extract_lets
    | split
    | with_reducible apply Only.upd_tier_serve
    | dsimp +zetaDelta only [id])

theorem zeroMem_only (a0 : Region) (a1 : Nat) (a2 : Nat) (s : State) :
    Only 6291466 s (zeroMem a0 a1 a2 s) := by
  unfold zeroMem
  repeat' (first
    | with_reducible intro _
    | with_reducible apply Only.refl
    | with_reducible assumption
    | with_reducible apply Only.step (State.store_only ..)
    | decide
    | dsimp +zetaDelta only [id])

theorem zeroUnit_only (a0 : PageEntry) (a1 : Nat) (s : State) :
    Only 6291466 s (zeroUnit a0 a1 s) := by
  unfold zeroUnit
  repeat' (first
    | with_reducible intro _
    | with_reducible apply Only.refl
    | with_reducible assumption
    | with_reducible apply Only.step (zeroMem_only ..)
    | decide
    | split
    | dsimp +zetaDelta only [id])

theorem zeroSpan_only (s : State) (a1 : Cmd) (a2 : Nat) (a3 : Nat) :
    Only 6291466 s (zeroSpan s a1 a2 a3) := by
  unfold zeroSpan
  repeat' (first
    | with_reducible intro _
    | with_reducible apply Only.refl
    | with_reducible assumption
    | with_reducible apply Only.after (State.each_only ..)
    | with_reducible apply Only.step (zeroUnit_only ..)
    | with_reducible apply each_only
    | decide
    | fail_if_no_progress extract_lets
    | split
    | dsimp +zetaDelta only [id])

theorem zeroCore_only (a0 : Nat) (s : State) :
    Only 6291978 s (zeroCore a0 s) := by
  unfold zeroCore
  repeat' (first
    | with_reducible intro _
    | with_reducible apply Only.refl
    | with_reducible assumption
    | with_reducible apply Only.step (clearRegs_only ..)
    | with_reducible apply Only.step (State.setCore_only ..)
    | with_reducible apply Only.step (zeroMem_only ..)
    | decide
    | dsimp +zetaDelta only [id])

theorem zeroSigc_only (a0 : Nat) (s : State) :
    Only 6293514 s (zeroSigc a0 s) := by
  unfold zeroSigc
  repeat' (first
    | with_reducible intro _
    | with_reducible apply Only.refl
    | with_reducible assumption
    | with_reducible apply Only.step (State.setReg_only ..)
    | with_reducible apply Only.step (State.setSigc_only ..)
    | with_reducible apply Only.step (zeroMem_only ..)
    | decide
    | dsimp +zetaDelta only [id])

theorem clearPart_only (a0 : Nat) (s : State) :
    Only 7339530 s (clearPart a0 s) := by
  unfold clearPart
  repeat' (first
    | with_reducible intro _
    | with_reducible apply Only.refl
    | with_reducible assumption
    | with_reducible apply Only.after (State.each_only ..)
    | with_reducible apply Only.step (zeroCore_only ..)
    | with_reducible apply Only.step (zeroSigc_only ..)
    | with_reducible apply Only.step (zeroMem_only ..)
    | with_reducible apply Only.step (State.setReg_only ..)
    | with_reducible apply fieldSet_wf
    | with_reducible apply each_only
    | with_reducible apply tabSorted_filter
    | decide
    | fail_if_no_progress extract_lets
    | split
    | with_reducible apply Only.upd_regs_fabric_sems_ctxs_tier_coding_parts_radio_serve_records
    | dsimp +zetaDelta only [id])

theorem clearDevice_only (s : State) :
    Only 14682634 s (clearDevice s) := by
  unfold clearDevice
  repeat' (first
    | with_reducible intro _
    | with_reducible apply Only.refl
    | with_reducible assumption
    | with_reducible apply Only.after (State.each_only ..)
    | with_reducible apply Only.step (zeroCore_only ..)
    | with_reducible apply Only.step (zeroSigc_only ..)
    | with_reducible apply Only.step (zeroUnit_only ..)
    | with_reducible apply each_only
    | decide
    | fail_if_no_progress extract_lets
    | with_reducible apply Only.upd_mgmt
    | dsimp +zetaDelta only [id])

theorem showZeroize_only (s : State) :
    Only 8 s (showZeroize s) := by
  unfold showZeroize
  repeat' (first
    | with_reducible intro _
    | with_reducible apply Only.refl
    | with_reducible assumption
    | with_reducible apply Only.step (State.setReg_only ..)
    | decide
    | fail_if_no_progress extract_lets
    | split
    | dsimp +zetaDelta only [id])

theorem startZeroize_only (a0 : Cmd) (s : State) :
    Only 74872330 s (startZeroize a0 s) := by
  unfold startZeroize
  repeat' (first
    | with_reducible intro _
    | with_reducible apply Only.refl
    | with_reducible assumption
    | with_reducible apply Only.step (startLong_only ..)
    | with_reducible apply Only.step (showZeroize_only ..)
    | with_reducible apply Only.step (State.setReg_only ..)
    | with_reducible apply Only.after (State.each_only ..)
    | with_reducible apply Only.step (stopPart_only ..)
    | with_reducible apply each_only
    | decide
    | fail_if_no_progress extract_lets
    | dsimp +zetaDelta only [id])

theorem zeroizeCmd_only (a0 : CmdRef) (a1 : Bool) (s : State) :
    Only 75396618 s (zeroizeCmd a0 a1 s) := by
  unfold zeroizeCmd
  repeat' (first
    | with_reducible intro _
    | with_reducible apply Only.refl
    | with_reducible assumption
    | with_reducible apply Only.after (startCmd_only ..)
    | with_reducible apply Only.step (complete_only ..)
    | with_reducible apply Only.step (startZeroize_only ..)
    | decide
    | split
    | dsimp +zetaDelta only [id])

theorem execZeroizePartition_only (a0 : CmdRef) (s : State) :
    OnlyNext 75396618 s (execZeroizePartition a0 s) := by
  unfold execZeroizePartition
  repeat' (first
    | with_reducible intro _
    | with_reducible apply Only.refl
    | with_reducible assumption
    | with_reducible apply OnlyNext.next
    | with_reducible apply Only.step (zeroizeCmd_only ..)
    | decide
    | dsimp +zetaDelta only [id])

theorem execZeroizeDevice_only (a0 : CmdRef) (s : State) :
    OnlyNext 75396618 s (execZeroizeDevice a0 s) := by
  unfold execZeroizeDevice
  repeat' (first
    | with_reducible intro _
    | with_reducible apply Only.refl
    | with_reducible assumption
    | with_reducible apply OnlyNext.next
    | with_reducible apply Only.step (zeroizeCmd_only ..)
    | decide
    | dsimp +zetaDelta only [id])

theorem setTdi_only (a0 : Nat) (a1 : Tdi) (s : State) :
    Only 4194304 s (setTdi a0 a1 s) := by
  unfold setTdi
  repeat' (first
    | with_reducible intro _
    | with_reducible apply Only.refl
    | with_reducible assumption
    | decide
    | with_reducible apply Only.upd_host
    | dsimp +zetaDelta only [id])

theorem endZeroize_only (a0 : LongOp) (s : State) :
    Only 13107210 s (endZeroize a0 s) := by
  unfold endZeroize
  repeat' (first
    | with_reducible intro _
    | with_reducible apply Only.refl
    | with_reducible assumption
    | with_reducible apply Only.step (endLong_only ..)
    | with_reducible apply Only.step (showZeroize_only ..)
    | with_reducible apply Only.step (State.setReg_only ..)
    | with_reducible apply Only.step (State.emit_only ..)
    | with_reducible apply Only.step (setTdi_only ..)
    | decide
    | fail_if_no_progress extract_lets
    | split
    | with_reducible apply Only.upd_mgmt
    | dsimp +zetaDelta only [id])

theorem zeroChunk_only (a0 : LongOp) (a1 : Nat) (s : State) :
    Only 15728138 s (zeroChunk a0 a1 s) := by
  unfold zeroChunk
  repeat' (first
    | with_reducible intro _
    | with_reducible apply Only.refl
    | with_reducible assumption
    | with_reducible apply Only.step (chunkDone_only ..)
    | with_reducible apply Only.step (zeroSpan_only ..)
    | with_reducible apply Only.after (State.each_only ..)
    | with_reducible apply Only.step (clearPart_only ..)
    | with_reducible apply Only.step (endZeroize_only ..)
    | with_reducible apply Only.step (clearDevice_only ..)
    | with_reducible apply each_only
    | decide
    | fail_if_no_progress extract_lets
    | split
    | dsimp +zetaDelta only [id])

theorem leaveLocked_only (a0 : Nat) (a1 : Bool) (s : State) :
    Only 74872330 s (leaveLocked a0 a1 s) := by
  unfold leaveLocked
  repeat' (first
    | with_reducible intro _
    | with_reducible apply Only.refl
    | with_reducible assumption
    | with_reducible apply Only.step (State.emit_only ..)
    | with_reducible apply Only.step (setTdi_only ..)
    | with_reducible apply Only.after (State.each_only ..)
    | with_reducible apply Only.step (startZeroize_only ..)
    | with_reducible apply each_only
    | decide
    | split
    | dsimp +zetaDelta only [id])

theorem execTdispRequest_only (a0 : Fin 256) (a1 : TdispMsg) (s : State) :
    OnlyNext 74872330 s (execTdispRequest a0 a1 s) := by
  unfold execTdispRequest
  repeat' (first
    | with_reducible intro _
    | with_reducible apply Only.refl
    | with_reducible assumption
    | with_reducible apply OnlyNext.next
    | with_reducible apply Only.step (State.emit_only ..)
    | with_reducible apply Only.step (setTdi_only ..)
    | with_reducible apply Only.step (leaveLocked_only ..)
    | decide
    | fail_if_no_progress extract_lets
    | split
    | dsimp +zetaDelta only [id])

end Sys2Proof.Machine
end

