-- ==== Sys2Proof/Laws/OnlyLongOps.lean ====
section
/-! SUPPORT. What each operation of Machine/LongOps.lean may touch: one lemma per operation, in the form of Laws/Only.lean. -/

namespace Sys2Proof.Machine

set_option linter.unusedTactic false
set_option linter.unreachableTactic false
set_option linter.unusedVariables false

theorem longChunk_only (a0 : LongOp) (a1 : Nat) (s : State) :
    Only 82837070 s (longChunk a0 a1 s) := by
  unfold longChunk
  repeat' (first
    | with_reducible intro _
    | with_reducible apply Only.refl
    | with_reducible assumption
    | with_reducible apply Only.step (importChunk_only ..)
    | with_reducible apply Only.step (loadChunk_only ..)
    | with_reducible apply Only.step (fillChunk_only ..)
    | with_reducible apply Only.step (reshardChunk_only ..)
    | with_reducible apply Only.step (exportChunk_only ..)
    | with_reducible apply Only.step (selftestChunk_only ..)
    | with_reducible apply Only.step (rakeChunk_only ..)
    | with_reducible apply Only.step (zeroChunk_only ..)
    | decide
    | split
    | dsimp +zetaDelta only [id])

theorem execLongOpChunk_only (a0 : Fin 64) (a1 : Nat) (a2 : BitVec 16) (a3 : Nat) (s : State) :
    OnlyNext 82837070 s (execLongOpChunk a0 a1 a2 a3 s) := by
  unfold execLongOpChunk
  repeat' (first
    | with_reducible intro _
    | with_reducible apply Only.refl
    | with_reducible assumption
    | with_reducible apply OnlyNext.next
    | with_reducible apply Only.step (longChunk_only ..)
    | decide
    | split
    | dsimp +zetaDelta only [id])

end Sys2Proof.Machine
end

