-- ==== Sys2Proof/Laws/OnlyMgmt.lean ====
section
/-! SUPPORT. What each operation of Machine/Mgmt.lean may touch: one lemma per operation, in the form of Laws/Only.lean. -/

namespace Sys2Proof.Machine

set_option linter.unusedTactic false
set_option linter.unreachableTactic false
set_option linter.unusedVariables false

theorem runImage_only (a0 : List Byte) (a1 : Bool) (s : State) :
    Only 12582922 s (runImage a0 a1 s) := by
  unfold runImage
  repeat' (first
    | with_reducible intro _
    | with_reducible apply Only.refl
    | with_reducible assumption
    | with_reducible apply Only.step (State.setReg_only ..)
    | with_reducible apply Only.step (State.raise_only ..)
    | with_reducible apply Only.step (State.emit_only ..)
    | decide
    | fail_if_no_progress extract_lets
    | split
    | with_reducible apply Only.upd_mgmt
    | dsimp +zetaDelta only [id])

theorem awaitRecovery_only (a0 : Nat) (s : State) :
    Only 12582922 s (awaitRecovery a0 s) := by
  unfold awaitRecovery
  repeat' (first
    | with_reducible intro _
    | with_reducible apply Only.refl
    | with_reducible assumption
    | with_reducible apply Only.step (State.raise_only ..)
    | with_reducible apply Only.step (State.setReg_only ..)
    | decide
    | fail_if_no_progress extract_lets
    | with_reducible apply Only.upd_mgmt
    | dsimp +zetaDelta only [id])

theorem execBootStart_only (s : State) :
    OnlyNext 8388616 s (execBootStart s) := by
  unfold execBootStart
  repeat' (first
    | with_reducible intro _
    | with_reducible apply Only.refl
    | with_reducible assumption
    | with_reducible apply OnlyNext.next
    | with_reducible apply Only.step (State.setReg_only ..)
    | decide
    | split
    | with_reducible apply Only.upd_mgmt
    | dsimp +zetaDelta only [id])

theorem execBootDone_only (a0 : ImageData) (s : State) :
    OnlyNext 12582922 s (execBootDone a0 s) := by
  unfold execBootDone
  repeat' (first
    | with_reducible intro _
    | with_reducible apply Only.refl
    | with_reducible assumption
    | with_reducible apply OnlyNext.next
    | with_reducible apply Only.step (runImage_only ..)
    | with_reducible apply Only.step (awaitRecovery_only ..)
    | decide
    | fail_if_no_progress extract_lets
    | split
    | dsimp +zetaDelta only [id])

theorem stopFirmware_only (a0 : BootKind) (s : State) :
    Only 8388616 s (stopFirmware a0 s) := by
  unfold stopFirmware
  repeat' (first
    | with_reducible intro _
    | with_reducible apply Only.refl
    | with_reducible assumption
    | with_reducible apply Only.step (State.setReg_only ..)
    | decide
    | with_reducible apply Only.upd_mgmt
    | dsimp +zetaDelta only [id])

theorem execWatchdogExpiry_only (s : State) :
    OnlyNext 12582922 s (execWatchdogExpiry s) := by
  unfold execWatchdogExpiry
  repeat' (first
    | with_reducible intro _
    | with_reducible apply Only.refl
    | with_reducible assumption
    | with_reducible apply OnlyNext.next
    | with_reducible apply Only.step (State.raise_only ..)
    | with_reducible apply Only.step (State.error_only ..)
    | with_reducible apply Only.step (State.bump_only ..)
    | with_reducible apply Only.step (stopFirmware_only ..)
    | decide
    | split
    | dsimp +zetaDelta only [id])

theorem execControllerNotServing_only (s : State) :
    OnlyNext 67108866 s (execControllerNotServing s) := by
  unfold execControllerNotServing
  repeat' (first
    | with_reducible intro _
    | with_reducible apply Only.refl
    | with_reducible assumption
    | with_reducible apply OnlyNext.next
    | with_reducible apply Only.step (sendFail_only ..)
    | decide
    | split
    | dsimp +zetaDelta only [id])

theorem execRecoveryGo_only (a0 : Requester) (a1 : BitVec 32) (a2 : HostData) (s : State) :
    OnlyNext 12582922 s (execRecoveryGo a0 a1 a2 s) := by
  unfold execRecoveryGo
  repeat' (first
    | with_reducible intro _
    | with_reducible apply Only.refl
    | with_reducible assumption
    | with_reducible apply OnlyNext.next
    | with_reducible apply Only.after (writeAccess_only ..)
    | with_reducible apply Only.step (State.setReg_only ..)
    | with_reducible apply Only.step (State.error_only ..)
    | decide
    | fail_if_no_progress extract_lets
    | split
    | with_reducible apply Only.upd_mgmt
    | dsimp +zetaDelta only [id])

theorem execSvnCommit_only (a0 : Requester) (a1 : BitVec 32) (s : State) :
    OnlyNext 4194442 s (execSvnCommit a0 a1 s) := by
  unfold execSvnCommit
  repeat' (first
    | with_reducible intro _
    | with_reducible apply Only.refl
    | with_reducible assumption
    | with_reducible apply OnlyNext.next
    | with_reducible apply Only.after (writeAccess_only ..)
    | with_reducible apply Only.step (State.error_only ..)
    | with_reducible apply Only.step (State.setReg_only ..)
    | decide
    | fail_if_no_progress extract_lets
    | split
    | with_reducible apply Only.upd_fuses
    | dsimp +zetaDelta only [id])

theorem execOwnerCommit_only (a0 : Requester) (a1 : BitVec 32) (s : State) :
    OnlyNext 4194442 s (execOwnerCommit a0 a1 s) := by
  unfold execOwnerCommit
  repeat' (first
    | with_reducible intro _
    | with_reducible apply Only.refl
    | with_reducible assumption
    | with_reducible apply OnlyNext.next
    | with_reducible apply Only.after (writeAccess_only ..)
    | with_reducible apply Only.step (State.error_only ..)
    | with_reducible apply Only.step (State.setReg_only ..)
    | decide
    | split
    | with_reducible apply Only.upd_fuses
    | dsimp +zetaDelta only [id])

theorem setThermal_only (s : State) :
    Only 8 s (setThermal s) := by
  unfold setThermal
  repeat' (first
    | with_reducible intro _
    | with_reducible apply Only.refl
    | with_reducible assumption
    | with_reducible apply Only.step (State.setReg_only ..)
    | decide
    | dsimp +zetaDelta only [id])

theorem beginThrottle_only (s : State) :
    Only 20971530 s (beginThrottle s) := by
  unfold beginThrottle
  repeat' (first
    | with_reducible intro _
    | with_reducible apply Only.refl
    | with_reducible assumption
    | with_reducible apply Only.step (State.raise_only ..)
    | decide
    | split
    | with_reducible apply Only.upd_power
    | dsimp +zetaDelta only [id])

theorem checkOverrun_only (s : State) :
    Only 20971530 s (checkOverrun s) := by
  unfold checkOverrun
  repeat' (first
    | with_reducible intro _
    | with_reducible apply Only.refl
    | with_reducible assumption
    | with_reducible apply Only.step (State.raise_only ..)
    | with_reducible apply Only.step (State.error_only ..)
    | decide
    | split
    | with_reducible apply Only.upd_power
    | dsimp +zetaDelta only [id])

theorem execPowerEstimate_only (a0 : Nat) (a1 : Nat) (a2 : Fin 1001) (s : State) :
    OnlyNext 20972042 s (execPowerEstimate a0 a1 a2 s) := by
  unfold execPowerEstimate
  repeat' (first
    | with_reducible intro _
    | with_reducible apply Only.refl
    | with_reducible assumption
    | with_reducible apply OnlyNext.next
    | with_reducible apply Only.step (beginThrottle_only ..)
    | with_reducible apply Only.step (State.addReg_only ..)
    | with_reducible apply Only.step (settleGaps_only ..)
    | with_reducible apply Only.step (checkOverrun_only ..)
    | with_reducible apply Only.step (State.setReg_only ..)
    | decide
    | fail_if_no_progress extract_lets
    | split
    | with_reducible apply Only.upd_power
    | dsimp +zetaDelta only [id])

theorem execPowerAllowanceExpiry_only (s : State) :
    OnlyNext 20971530 s (execPowerAllowanceExpiry s) := by
  unfold execPowerAllowanceExpiry
  repeat' (first
    | with_reducible intro _
    | with_reducible apply Only.refl
    | with_reducible assumption
    | with_reducible apply OnlyNext.next
    | with_reducible apply Only.step (beginThrottle_only ..)
    | decide
    | split
    | dsimp +zetaDelta only [id])

theorem execCoolantHigh_only (a0 : Nat) (s : State) :
    OnlyNext 20971530 s (execCoolantHigh a0 s) := by
  unfold execCoolantHigh
  repeat' (first
    | with_reducible intro _
    | with_reducible apply Only.refl
    | with_reducible assumption
    | with_reducible apply OnlyNext.next
    | with_reducible apply Only.step (State.raise_only ..)
    | with_reducible apply Only.step (setThermal_only ..)
    | decide
    | fail_if_no_progress extract_lets
    | split
    | with_reducible apply Only.upd_power
    | dsimp +zetaDelta only [id])

theorem setInlet_only (a0 : Nat) (s : State) :
    Only 16908296 s (setInlet a0 s) := by
  unfold setInlet
  repeat' (first
    | with_reducible intro _
    | with_reducible apply Only.refl
    | with_reducible assumption
    | with_reducible apply Only.step (State.setReg_only ..)
    | decide
    | fail_if_no_progress extract_lets
    | split
    | with_reducible apply Only.upd_radio_power
    | dsimp +zetaDelta only [id])

theorem execInletSensorLoss_only (s : State) :
    OnlyNext 21102602 s (execInletSensorLoss s) := by
  unfold execInletSensorLoss
  repeat' (first
    | with_reducible intro _
    | with_reducible apply Only.refl
    | with_reducible assumption
    | with_reducible apply OnlyNext.next
    | with_reducible apply Only.step (setInlet_only ..)
    | with_reducible apply Only.step (State.raise_only ..)
    | with_reducible apply Only.step (State.error_only ..)
    | decide
    | fail_if_no_progress extract_lets
    | split
    | with_reducible apply Only.upd_power
    | dsimp +zetaDelta only [id])

theorem thermalPolicy_only (a0 : List Nat) (a1 : List Nat) (a2 : List Nat) (s : State) :
    Only 20972042 s (thermalPolicy a0 a1 a2 s) := by
  unfold thermalPolicy
  repeat' (first
    | with_reducible intro _
    | with_reducible apply Only.refl
    | with_reducible assumption
    | with_reducible apply Only.step (settleGaps_only ..)
    | with_reducible apply Only.step (State.raiseBits_only ..)
    | with_reducible apply Only.after (State.each_only ..)
    | with_reducible apply Only.step (State.raise_only ..)
    | with_reducible apply Only.step (State.error_only ..)
    | with_reducible apply each_only
    | with_reducible apply foldl_only
    | with_reducible apply foldl_pair_only
    | decide
    | fail_if_no_progress extract_lets
    | split
    | with_reducible apply Only.upd_power
    | dsimp +zetaDelta only [id])

theorem execSensorSample_only (a0 : SensorEnv) (s : State) :
    OnlyNext 29491790 s (execSensorSample a0 s) := by
  unfold execSensorSample
  repeat' (first
    | with_reducible intro _
    | with_reducible apply Only.refl
    | with_reducible assumption
    | with_reducible apply OnlyNext.next
    | with_reducible apply Only.step (setInlet_only ..)
    | with_reducible apply Only.step (setThermal_only ..)
    | with_reducible apply Only.step (thermalPolicy_only ..)
    | with_reducible apply Only.step (State.setReg_only ..)
    | with_reducible apply Only.step (State.usedFree_only ..)
    | with_reducible apply Only.after (State.each_only ..)
    | with_reducible apply Only.step (State.emit_only ..)
    | with_reducible apply each_only
    | with_reducible apply foldl_only
    | with_reducible apply foldl_pair_only
    | decide
    | fail_if_no_progress extract_lets
    | split
    | with_reducible apply Only.upd_mgmt
    | with_reducible apply Only.upd_plat_power
    | dsimp +zetaDelta only [id])

theorem answer_only (a0 : MgmtSource) (a1 : MgmtReply) (s : State) :
    Only 8388610 s (answer a0 a1 s) := by
  unfold answer
  repeat' (first
    | with_reducible intro _
    | with_reducible apply Only.refl
    | with_reducible assumption
    | with_reducible apply Only.step (State.emit_only ..)
    | decide
    | fail_if_no_progress extract_lets
    | split
    | with_reducible apply Only.upd_mgmt
    | dsimp +zetaDelta only [id])

theorem pldm_only {m : Nat} (a0 : MgmtSource) (a1 : State → State) (s : State) (w : m ||| 0 = m) (h1 : ∀ u, Only m u (a1 u)) :
    Only m s (pldm a0 a1 s) := by
  unfold pldm
  repeat' (first
    | with_reducible intro _
    | with_reducible apply Only.refl
    | with_reducible assumption
    | with_reducible apply Only.after (h1 ..)
    | with_reducible exact sub_of w (by decide)
    | with_reducible exact bit_of w (by decide)
    | decide
    | split
    | dsimp +zetaDelta only [id])

theorem execGetSensorReading_only (a0 : MgmtSource) (a1 : SensorId) (s : State) :
    OnlyNext 8388610 s (execGetSensorReading a0 a1 s) := by
  unfold execGetSensorReading
  repeat' (first
    | with_reducible intro _
    | with_reducible apply Only.refl
    | with_reducible assumption
    | with_reducible apply OnlyNext.next
    | with_reducible apply Only.after (pldm_only ..)
    | with_reducible apply Only.step (answer_only ..)
    | decide
    | split
    | dsimp +zetaDelta only [id])

theorem execPldmDiscovery_only (a0 : MgmtSource) (a1 : PldmDiscovery) (s : State) :
    OnlyNext 8388610 s (execPldmDiscovery a0 a1 s) := by
  unfold execPldmDiscovery
  repeat' (first
    | with_reducible intro _
    | with_reducible apply Only.refl
    | with_reducible assumption
    | with_reducible apply OnlyNext.next
    | with_reducible apply Only.after (pldm_only ..)
    | with_reducible apply Only.step (answer_only ..)
    | decide
    | split
    | dsimp +zetaDelta only [id])

theorem execPldmFruRead_only (a0 : MgmtSource) (s : State) :
    OnlyNext 8388610 s (execPldmFruRead a0 s) := by
  unfold execPldmFruRead
  repeat' (first
    | with_reducible intro _
    | with_reducible apply Only.refl
    | with_reducible assumption
    | with_reducible apply OnlyNext.next
    | with_reducible apply Only.after (pldm_only ..)
    | with_reducible apply Only.step (answer_only ..)
    | decide
    | dsimp +zetaDelta only [id])

theorem execFirmwareUpdate_only (a0 : MgmtSource) (a1 : ImageData) (s : State) :
    OnlyNext 8388610 s (execFirmwareUpdate a0 a1 s) := by
  unfold execFirmwareUpdate
  repeat' (first
    | with_reducible intro _
    | with_reducible apply Only.refl
    | with_reducible assumption
    | with_reducible apply OnlyNext.next
    | with_reducible apply Only.after (pldm_only ..)
    | with_reducible apply Only.step (answer_only ..)
    | with_reducible apply Only.step (State.emit_only ..)
    | decide
    | split
    | with_reducible apply Only.upd_mgmt
    | dsimp +zetaDelta only [id])

theorem execActivateFirmware_only (a0 : MgmtSource) (s : State) :
    OnlyNext 8388618 s (execActivateFirmware a0 s) := by
  unfold execActivateFirmware
  repeat' (first
    | with_reducible intro _
    | with_reducible apply Only.refl
    | with_reducible assumption
    | with_reducible apply OnlyNext.next
    | with_reducible apply Only.after (pldm_only ..)
    | with_reducible apply Only.step (stopFirmware_only ..)
    | with_reducible apply Only.step (answer_only ..)
    | decide
    | split
    | dsimp +zetaDelta only [id])

theorem execPdrRepositoryRequest_only (a0 : MgmtSource) (a1 : PdrRequest) (s : State) :
    OnlyNext 8388610 s (execPdrRepositoryRequest a0 a1 s) := by
  unfold execPdrRepositoryRequest
  repeat' (first
    | with_reducible intro _
    | with_reducible apply Only.refl
    | with_reducible assumption
    | with_reducible apply OnlyNext.next
    | with_reducible apply Only.after (pldm_only ..)
    | with_reducible apply Only.step (answer_only ..)
    | decide
    | split
    | with_reducible apply Only.upd_mgmt
    | dsimp +zetaDelta only [id])

theorem execDynamicAddress_only (a0 : BitVec 7) (s : State) :
    OnlyNext 8388608 s (execDynamicAddress a0 s) := by
  unfold execDynamicAddress
  repeat' (first
    | with_reducible intro _
    | with_reducible apply Only.refl
    | with_reducible assumption
    | with_reducible apply OnlyNext.next
    | decide
    | split
    | with_reducible apply Only.upd_mgmt
    | dsimp +zetaDelta only [id])

theorem spdm_only {m : Nat} (a0 : MgmtSource) (a1 : Nat) (a2 : State → State) (s : State) (w : m ||| 8388610 = m) (h2 : ∀ u, Only m u (a2 u)) :
    Only m s (spdm a0 a1 a2 s) := by
  unfold spdm
  repeat' (first
    | with_reducible intro _
    | with_reducible apply Only.refl
    | with_reducible assumption
    | with_reducible apply Only.step (answer_only ..)
    | with_reducible apply Only.after (h2 ..)
    | with_reducible exact sub_of w (by decide)
    | with_reducible exact bit_of w (by decide)
    | decide
    | split
    | dsimp +zetaDelta only [id])

theorem setStage_only (a0 : MgmtSource) (a1 : Nat) (s : State) :
    Only 8388608 s (setStage a0 a1 s) := by
  unfold setStage
  repeat' (first
    | with_reducible intro _
    | with_reducible apply Only.refl
    | with_reducible assumption
    | decide
    | with_reducible apply Only.upd_mgmt
    | dsimp +zetaDelta only [id])

theorem standard_only (a0 : MgmtSource) (a1 : Nat) (s : State) :
    Only 8388614 s (standard a0 a1 s) := by
  unfold standard
  repeat' (first
    | with_reducible intro _
    | with_reducible apply Only.refl
    | with_reducible assumption
    | with_reducible apply Only.step (State.usedFree_only ..)
    | with_reducible apply Only.step (answer_only ..)
    | decide
    | dsimp +zetaDelta only [id])

theorem execGetVersion_only (a0 : MgmtSource) (s : State) :
    OnlyNext 8388610 s (execGetVersion a0 s) := by
  unfold execGetVersion
  repeat' (first
    | with_reducible intro _
    | with_reducible apply Only.refl
    | with_reducible assumption
    | with_reducible apply OnlyNext.next
    | with_reducible apply Only.after (spdm_only ..)
    | with_reducible apply Only.step (setStage_only ..)
    | with_reducible apply Only.step (answer_only ..)
    | decide
    | fail_if_no_progress extract_lets
    | with_reducible apply Only.upd_mgmt
    | dsimp +zetaDelta only [id])

theorem execGetCapabilities_only (a0 : MgmtSource) (s : State) :
    OnlyNext 8388614 s (execGetCapabilities a0 s) := by
  unfold execGetCapabilities
  repeat' (first
    | with_reducible intro _
    | with_reducible apply Only.refl
    | with_reducible assumption
    | with_reducible apply OnlyNext.next
    | with_reducible apply Only.after (spdm_only ..)
    | with_reducible apply Only.step (standard_only ..)
    | with_reducible apply Only.step (setStage_only ..)
    | decide
    | dsimp +zetaDelta only [id])

theorem execNegotiateAlgorithms_only (a0 : MgmtSource) (a1 : Bool) (s : State) :
    OnlyNext 8388614 s (execNegotiateAlgorithms a0 a1 s) := by
  unfold execNegotiateAlgorithms
  repeat' (first
    | with_reducible intro _
    | with_reducible apply Only.refl
    | with_reducible assumption
    | with_reducible apply OnlyNext.next
    | with_reducible apply Only.after (spdm_only ..)
    | with_reducible apply Only.step (standard_only ..)
    | with_reducible apply Only.step (setStage_only ..)
    | with_reducible apply Only.step (answer_only ..)
    | decide
    | split
    | dsimp +zetaDelta only [id])

theorem execGetDigests_only (a0 : MgmtSource) (s : State) :
    OnlyNext 8388610 s (execGetDigests a0 s) := by
  unfold execGetDigests
  repeat' (first
    | with_reducible intro _
    | with_reducible apply Only.refl
    | with_reducible assumption
    | with_reducible apply OnlyNext.next
    | with_reducible apply Only.after (spdm_only ..)
    | with_reducible apply Only.step (answer_only ..)
    | decide
    | dsimp +zetaDelta only [id])

theorem execGetCertificate_only (a0 : MgmtSource) (a1 : Fin 8) (a2 : Nat) (a3 : Nat) (s : State) :
    OnlyNext 8388610 s (execGetCertificate a0 a1 a2 a3 s) := by
  unfold execGetCertificate
  repeat' (first
    | with_reducible intro _
    | with_reducible apply Only.refl
    | with_reducible assumption
    | with_reducible apply OnlyNext.next
    | with_reducible apply Only.after (spdm_only ..)
    | with_reducible apply Only.step (answer_only ..)
    | decide
    | fail_if_no_progress extract_lets
    | split
    | dsimp +zetaDelta only [id])

theorem execChallenge_only (a0 : MgmtSource) (a1 : Fin 8) (a2 : BitVec 256) (s : State) :
    OnlyNext 8388614 s (execChallenge a0 a1 a2 s) := by
  unfold execChallenge
  repeat' (first
    | with_reducible intro _
    | with_reducible apply Only.refl
    | with_reducible assumption
    | with_reducible apply OnlyNext.next
    | with_reducible apply Only.after (spdm_only ..)
    | with_reducible apply Only.step (answer_only ..)
    | with_reducible apply Only.step (State.usedFree_only ..)
    | decide
    | split
    | dsimp +zetaDelta only [id])

theorem execGetMeasurements_only (a0 : MgmtSource) (a1 : BitVec 8) (a2 : Bool) (a3 : BitVec 256) (s : State) :
    OnlyNext 8388614 s (execGetMeasurements a0 a1 a2 a3 s) := by
  unfold execGetMeasurements
  repeat' (first
    | with_reducible intro _
    | with_reducible apply Only.refl
    | with_reducible assumption
    | with_reducible apply OnlyNext.next
    | with_reducible apply Only.after (spdm_only ..)
    | with_reducible apply Only.step (answer_only ..)
    | with_reducible apply Only.step (State.usedFree_only ..)
    | decide
    | fail_if_no_progress extract_lets
    | split
    | dsimp +zetaDelta only [id])

theorem setSession_only (a0 : MgmtSource) (a1 : Option Session) (s : State) :
    Only 8388608 s (setSession a0 a1 s) := by
  unfold setSession
  repeat' (first
    | with_reducible intro _
    | with_reducible apply Only.refl
    | with_reducible assumption
    | decide
    | split
    | with_reducible apply Only.upd_mgmt
    | dsimp +zetaDelta only [id])

theorem execKeyExchange_only (a0 : MgmtSource) (a1 : BitVec 768) (s : State) :
    OnlyNext 8388614 s (execKeyExchange a0 a1 s) := by
  unfold execKeyExchange
  repeat' (first
    | with_reducible intro _
    | with_reducible apply Only.refl
    | with_reducible assumption
    | with_reducible apply OnlyNext.next
    | with_reducible apply Only.after (spdm_only ..)
    | with_reducible apply Only.step (answer_only ..)
    | with_reducible apply Only.step (State.usedFree_only ..)
    | with_reducible apply Only.step (setSession_only ..)
    | decide
    | split
    | dsimp +zetaDelta only [id])

theorem execFinish_only (a0 : MgmtSource) (a1 : Bool) (s : State) :
    OnlyNext 8388614 s (execFinish a0 a1 s) := by
  unfold execFinish
  repeat' (first
    | with_reducible intro _
    | with_reducible apply Only.refl
    | with_reducible assumption
    | with_reducible apply OnlyNext.next
    | with_reducible apply Only.after (spdm_only ..)
    | with_reducible apply Only.step (answer_only ..)
    | with_reducible apply Only.step (standard_only ..)
    | with_reducible apply Only.step (setSession_only ..)
    | decide
    | split
    | dsimp +zetaDelta only [id])

theorem inSession_only {m : Nat} (a0 : MgmtSource) (a1 : State → State) (s : State) (w : m ||| 8388610 = m) (h1 : ∀ u, Only m u (a1 u)) :
    Only m s (inSession a0 a1 s) := by
  unfold inSession
  repeat' (first
    | with_reducible intro _
    | with_reducible apply Only.refl
    | with_reducible assumption
    | with_reducible apply Only.after (spdm_only ..)
    | with_reducible apply Only.step (answer_only ..)
    | with_reducible apply Only.after (h1 ..)
    | with_reducible exact sub_of w (by decide)
    | with_reducible exact bit_of w (by decide)
    | decide
    | split
    | dsimp +zetaDelta only [id])

theorem execKeyUpdate_only (a0 : MgmtSource) (s : State) :
    OnlyNext 8388614 s (execKeyUpdate a0 s) := by
  unfold execKeyUpdate
  repeat' (first
    | with_reducible intro _
    | with_reducible apply Only.refl
    | with_reducible assumption
    | with_reducible apply OnlyNext.next
    | with_reducible apply Only.after (inSession_only ..)
    | with_reducible apply Only.step (standard_only ..)
    | decide
    | dsimp +zetaDelta only [id])

theorem execHeartbeat_only (a0 : MgmtSource) (s : State) :
    OnlyNext 8388614 s (execHeartbeat a0 s) := by
  unfold execHeartbeat
  repeat' (first
    | with_reducible intro _
    | with_reducible apply Only.refl
    | with_reducible assumption
    | with_reducible apply OnlyNext.next
    | with_reducible apply Only.after (inSession_only ..)
    | with_reducible apply Only.step (standard_only ..)
    | decide
    | dsimp +zetaDelta only [id])

theorem execEndSession_only (a0 : MgmtSource) (s : State) :
    OnlyNext 8388614 s (execEndSession a0 s) := by
  unfold execEndSession
  repeat' (first
    | with_reducible intro _
    | with_reducible apply Only.refl
    | with_reducible assumption
    | with_reducible apply OnlyNext.next
    | with_reducible apply Only.after (inSession_only ..)
    | with_reducible apply Only.step (standard_only ..)
    | with_reducible apply Only.step (setSession_only ..)
    | decide
    | dsimp +zetaDelta only [id])

theorem execChunkSend_only (a0 : MgmtSource) (a1 : BitVec 16) (a2 : Bool) (a3 : List Byte) (s : State) :
    OnlyNext 8388614 s (execChunkSend a0 a1 a2 a3 s) := by
  unfold execChunkSend
  repeat' (first
    | with_reducible intro _
    | with_reducible apply Only.refl
    | with_reducible assumption
    | with_reducible apply OnlyNext.next
    | with_reducible apply Only.after (spdm_only ..)
    | with_reducible apply Only.step (answer_only ..)
    | with_reducible apply Only.step (standard_only ..)
    | decide
    | fail_if_no_progress extract_lets
    | split
    | with_reducible apply Only.upd_mgmt
    | dsimp +zetaDelta only [id])

theorem execChunkGet_only (a0 : MgmtSource) (a1 : BitVec 16) (s : State) :
    OnlyNext 8388610 s (execChunkGet a0 a1 s) := by
  unfold execChunkGet
  repeat' (first
    | with_reducible intro _
    | with_reducible apply Only.refl
    | with_reducible assumption
    | with_reducible apply OnlyNext.next
    | with_reducible apply Only.after (spdm_only ..)
    | with_reducible apply Only.step (State.emit_only ..)
    | with_reducible apply Only.step (answer_only ..)
    | decide
    | fail_if_no_progress extract_lets
    | split
    | dsimp +zetaDelta only [id])

theorem execPartitionReport_only (a0 : MgmtSource) (a1 : Fin 64) (a2 : BitVec 256) (s : State) :
    OnlyNext 8388610 s (execPartitionReport a0 a1 a2 s) := by
  unfold execPartitionReport
  repeat' (first
    | with_reducible intro _
    | with_reducible apply Only.refl
    | with_reducible assumption
    | with_reducible apply OnlyNext.next
    | with_reducible apply Only.after (spdm_only ..)
    | with_reducible apply Only.step (answer_only ..)
    | decide
    | fail_if_no_progress extract_lets
    | split
    | dsimp +zetaDelta only [id])

theorem execSetMigrationKey_only (a0 : MgmtSource) (a1 : Fin 8) (a2 : BitVec 256) (a3 : BitVec 456) (s : State) :
    OnlyNext 8388614 s (execSetMigrationKey a0 a1 a2 a3 s) := by
  unfold execSetMigrationKey
  repeat' (first
    | with_reducible intro _
    | with_reducible apply Only.refl
    | with_reducible assumption
    | with_reducible apply OnlyNext.next
    | with_reducible apply Only.after (spdm_only ..)
    | with_reducible apply Only.step (answer_only ..)
    | with_reducible apply Only.step (standard_only ..)
    | decide
    | split
    | with_reducible apply Only.upd_mgmt
    | dsimp +zetaDelta only [id])

end Sys2Proof.Machine
end

