-- ==== Sys2Proof/Laws/OnlySaltmeter.lean ====
section
/-! SUPPORT. What each operation of Machine/Saltmeter.lean may touch: one lemma per operation, in the form of Laws/Only.lean. -/

namespace Sys2Proof.Machine

set_option linter.unusedTactic false
set_option linter.unreachableTactic false
set_option linter.unusedVariables false

theorem markScore_only (s : State) :
    Only 134217728 s (markScore s) := by
  unfold markScore
  repeat' (first
    | with_reducible intro _
    | with_reducible apply Only.refl
    | with_reducible assumption
    | decide
    | fail_if_no_progress extract_lets
    | with_reducible apply Only.upd_salt
    | dsimp +zetaDelta only [id])

theorem execSaltScore_only (s : State) :
    OnlyNext 134217740 s (execSaltScore s) := by
  unfold execSaltScore
  repeat' (first
    | with_reducible intro _
    | with_reducible apply Only.refl
    | with_reducible assumption
    | with_reducible apply OnlyNext.next
    | with_reducible apply Only.step (State.setReg_only ..)
    | with_reducible apply Only.step (State.usedFree_only ..)
    | with_reducible apply Only.step (markScore_only ..)
    | decide
    | fail_if_no_progress extract_lets
    | split
    | dsimp +zetaDelta only [id])

theorem memberBit_only (a0 : RegField) (a1 : Nat) (a2 : Bool) (s : State) :
    Only 8 s (memberBit a0 a1 a2 s) := by
  unfold memberBit
  repeat' (first
    | with_reducible intro _
    | with_reducible apply Only.refl
    | with_reducible assumption
    | with_reducible apply Only.step (State.setReg_only ..)
    | decide
    | fail_if_no_progress extract_lets
    | split
    | dsimp +zetaDelta only [id])

theorem countUsed_only (s : State) :
    Only 134217736 s (countUsed s) := by
  unfold countUsed
  repeat' (first
    | with_reducible intro _
    | with_reducible apply Only.refl
    | with_reducible assumption
    | with_reducible apply Only.step (State.setReg_only ..)
    | decide
    | fail_if_no_progress extract_lets
    | with_reducible apply Only.upd_salt
    | dsimp +zetaDelta only [id])

theorem expelHolder_only (a0 : Nat) (s : State) :
    Only 73417742 s (expelHolder a0 s) := by
  unfold expelHolder
  repeat' (first
    | with_reducible intro _
    | with_reducible apply Only.refl
    | with_reducible assumption
    | with_reducible apply Only.after (State.each_only ..)
    | with_reducible apply Only.step (State.usedFree_only ..)
    | with_reducible apply Only.step (State.partSpoil_only ..)
    | with_reducible apply Only.step (lineAnswered_only ..)
    | with_reducible apply Only.step (runWaiting_only ..)
    | with_reducible apply Only.step (setRep_only ..)
    | with_reducible apply each_only
    | decide
    | fail_if_no_progress extract_lets
    | split
    | with_reducible apply Only.upd_fabric
    | dsimp +zetaDelta only [id])

theorem quenchParts_only (a0 : List Nat) (s : State) :
    Only 4195850 s (quenchParts a0 s) := by
  unfold quenchParts
  repeat' (first
    | with_reducible intro _
    | with_reducible apply Only.refl
    | with_reducible assumption
    | with_reducible apply Only.step (setQuench_only ..)
    | with_reducible apply foldl_only
    | with_reducible apply foldl_pair_only
    | decide
    | dsimp +zetaDelta only [id])

theorem expelHere_only (a0 : Nat) (s : State) :
    Only 207635982 s (expelHere a0 s) := by
  unfold expelHere
  repeat' (first
    | with_reducible intro _
    | with_reducible apply Only.refl
    | with_reducible assumption
    | with_reducible apply Only.step (quenchParts_only ..)
    | with_reducible apply Only.step (expelHolder_only ..)
    | with_reducible apply Only.step (memberBit_only ..)
    | with_reducible apply Only.step (State.raise_only ..)
    | with_reducible apply Only.step (countUsed_only ..)
    | decide
    | fail_if_no_progress extract_lets
    | with_reducible apply Only.upd_salt
    | dsimp +zetaDelta only [id])

theorem keepMember_only (a0 : Nat) (s : State) :
    Only 4194314 s (keepMember a0 s) := by
  unfold keepMember
  repeat' (first
    | with_reducible intro _
    | with_reducible apply Only.refl
    | with_reducible assumption
    | with_reducible apply Only.step (State.raise_only ..)
    | with_reducible apply Only.step (memberBit_only ..)
    | decide
    | dsimp +zetaDelta only [id])

theorem announceAgreed_only (s : State) :
    Only 207635982 s (announceAgreed s) := by
  unfold announceAgreed
  repeat' (first
    | with_reducible intro _
    | with_reducible apply Only.refl
    | with_reducible assumption
    | with_reducible apply Only.after (State.each_only ..)
    | with_reducible apply Only.step (memberBit_only ..)
    | with_reducible apply Only.step (countUsed_only ..)
    | with_reducible apply Only.step (expelHere_only ..)
    | with_reducible apply Only.step (State.emit_only ..)
    | with_reducible apply Only.step (keepMember_only ..)
    | with_reducible apply each_only
    | decide
    | fail_if_no_progress extract_lets
    | split
    | dsimp +zetaDelta only [id])

theorem execSaltMessageTx_only (s : State) :
    OnlyNext 207635982 s (execSaltMessageTx s) := by
  unfold execSaltMessageTx
  repeat' (first
    | with_reducible intro _
    | with_reducible apply Only.refl
    | with_reducible assumption
    | with_reducible apply OnlyNext.next
    | with_reducible apply Only.step (State.setReg_only ..)
    | with_reducible apply Only.step (announceAgreed_only ..)
    | with_reducible apply Only.step (State.emit_only ..)
    | decide
    | fail_if_no_progress extract_lets
    | split
    | with_reducible apply Only.upd_salt
    | dsimp +zetaDelta only [id])

theorem execSaltMessageRx_only (a0 : SaltMessage) (s : State) :
    OnlyNext 207635982 s (execSaltMessageRx a0 s) := by
  unfold execSaltMessageRx
  repeat' (first
    | with_reducible intro _
    | with_reducible apply Only.refl
    | with_reducible assumption
    | with_reducible apply OnlyNext.next
    | with_reducible apply Only.step (announceAgreed_only ..)
    | decide
    | fail_if_no_progress extract_lets
    | split
    | with_reducible apply Only.upd_salt
    | dsimp +zetaDelta only [id])

theorem admitHere_only (a0 : Nat) (s : State) :
    Only 134217736 s (admitHere a0 s) := by
  unfold admitHere
  repeat' (first
    | with_reducible intro _
    | with_reducible apply Only.refl
    | with_reducible assumption
    | with_reducible apply Only.step (memberBit_only ..)
    | decide
    | with_reducible apply Only.upd_salt
    | dsimp +zetaDelta only [id])

theorem execExpelAnnounce_only (a0 : Fin 64) (a1 : SaltNews) (s : State) :
    OnlyNext 207635982 s (execExpelAnnounce a0 a1 s) := by
  unfold execExpelAnnounce
  repeat' (first
    | with_reducible intro _
    | with_reducible apply Only.refl
    | with_reducible assumption
    | with_reducible apply OnlyNext.next
    | with_reducible apply Only.step (expelHere_only ..)
    | with_reducible apply Only.step (keepMember_only ..)
    | with_reducible apply Only.step (admitHere_only ..)
    | decide
    | split
    | dsimp +zetaDelta only [id])

theorem execIsolation_only (s : State) :
    OnlyNext 4195850 s (execIsolation s) := by
  unfold execIsolation
  repeat' (first
    | with_reducible intro _
    | with_reducible apply Only.refl
    | with_reducible assumption
    | with_reducible apply OnlyNext.next
    | with_reducible apply Only.step (State.raise_only ..)
    | with_reducible apply Only.step (quenchParts_only ..)
    | decide
    | fail_if_no_progress extract_lets
    | split
    | dsimp +zetaDelta only [id])

theorem execAdmitWrite_only (a0 : Requester) (a1 : BitVec 32) (s : State) :
    OnlyNext 138412042 s (execAdmitWrite a0 a1 s) := by
  unfold execAdmitWrite
  repeat' (first
    | with_reducible intro _
    | with_reducible apply Only.refl
    | with_reducible assumption
    | with_reducible apply OnlyNext.next
    | with_reducible apply Only.after (writeAccess_only ..)
    | with_reducible apply Only.step (State.emit_only ..)
    | with_reducible apply Only.step (admitHere_only ..)
    | decide
    | fail_if_no_progress extract_lets
    | split
    | dsimp +zetaDelta only [id])

theorem execSaltUsedExpiry_only (s : State) :
    OnlyNext 207635982 s (execSaltUsedExpiry s) := by
  unfold execSaltUsedExpiry
  repeat' (first
    | with_reducible intro _
    | with_reducible apply Only.refl
    | with_reducible assumption
    | with_reducible apply OnlyNext.next
    | with_reducible apply Only.step (announceAgreed_only ..)
    | with_reducible apply Only.step (countUsed_only ..)
    | decide
    | split
    | dsimp +zetaDelta only [id])

end Sys2Proof.Machine
end

