-- ==== Sys2Proof/Laws/OnlyTwin.lean ====
section
/-! SUPPORT. What each operation of Machine/Twin.lean may touch: one lemma per operation, in the form of Laws/Only.lean. -/

namespace Sys2Proof.Machine

set_option linter.unusedTactic false
set_option linter.unreachableTactic false
set_option linter.unusedVariables false

theorem execTwinPulseTx_only (s : State) :
    OnlyNext 67108866 s (execTwinPulseTx s) := by
  unfold execTwinPulseTx
  repeat' (first
    | with_reducible intro _
    | with_reducible apply Only.refl
    | with_reducible assumption
    | with_reducible apply OnlyNext.next
    | with_reducible apply Only.step (State.emit_only ..)
    | decide
    | fail_if_no_progress extract_lets
    | split
    | with_reducible apply Only.upd_twin
    | dsimp +zetaDelta only [id])

theorem execTwinPulseRx_only (s : State) :
    OnlyNext 67108864 s (execTwinPulseRx s) := by
  unfold execTwinPulseRx
  repeat' (first
    | with_reducible intro _
    | with_reducible apply Only.refl
    | with_reducible assumption
    | with_reducible apply OnlyNext.next
    | decide
    | split
    | with_reducible apply Only.upd_twin
    | dsimp +zetaDelta only [id])

theorem execTwinPinFault_only (s : State) :
    OnlyNext 4194314 s (execTwinPinFault s) := by
  unfold execTwinPinFault
  repeat' (first
    | with_reducible intro _
    | with_reducible apply Only.refl
    | with_reducible assumption
    | with_reducible apply OnlyNext.next
    | with_reducible apply Only.step (State.error_only ..)
    | with_reducible apply Only.step (State.setReg_only ..)
    | decide
    | split
    | dsimp +zetaDelta only [id])

theorem activateCell_only (a0 : Nat) (a1 : Nat) (s : State) :
    Only 131072 s (activateCell a0 a1 s) := by
  unfold activateCell
  repeat' (first
    | with_reducible intro _
    | with_reducible apply Only.refl
    | with_reducible assumption
    | with_reducible apply Only.step (State.setRadio_only ..)
    | decide
    | fail_if_no_progress extract_lets
    | split
    | dsimp +zetaDelta only [id])

theorem serveHeld_only (a0 : Nat) (a1 : SlotRun) (s : State) :
    Only 4849674 s (serveHeld a0 a1 s) := by
  unfold serveHeld
  repeat' (first
    | with_reducible intro _
    | with_reducible apply Only.refl
    | with_reducible assumption
    | with_reducible apply Only.step (setSlotRun_only ..)
    | with_reducible apply Only.step (missTask_only ..)
    | with_reducible apply Only.step (completeSlot_only ..)
    | with_reducible apply Only.step (dropSlotRun_only ..)
    | with_reducible apply foldl_only
    | with_reducible apply foldl_pair_only
    | decide
    | fail_if_no_progress extract_lets
    | split
    | dsimp +zetaDelta only [id])

theorem takeOver_only (s : State) :
    Only 4849674 s (takeOver s) := by
  unfold takeOver
  repeat' (first
    | with_reducible intro _
    | with_reducible apply Only.refl
    | with_reducible assumption
    | with_reducible apply Only.after (State.each_only ..)
    | with_reducible apply Only.step (activateCell_only ..)
    | with_reducible apply Only.step (serveHeld_only ..)
    | with_reducible apply Only.step (State.raise_only ..)
    | with_reducible apply Only.step (State.setReg_only ..)
    | with_reducible apply each_only
    | decide
    | fail_if_no_progress extract_lets
    | dsimp +zetaDelta only [id])

theorem loseState_only (s : State) :
    Only 4849674 s (loseState s) := by
  unfold loseState
  repeat' (first
    | with_reducible intro _
    | with_reducible apply Only.refl
    | with_reducible assumption
    | with_reducible apply Only.after (State.each_only ..)
    | with_reducible apply Only.step (removeCell_only ..)
    | with_reducible apply Only.step (completeSlot_only ..)
    | with_reducible apply Only.step (dropSlotRun_only ..)
    | with_reducible apply Only.step (State.raise_only ..)
    | with_reducible apply Only.step (State.setReg_only ..)
    | with_reducible apply each_only
    | decide
    | fail_if_no_progress extract_lets
    | dsimp +zetaDelta only [id])

theorem judgeTwin_only (s : State) :
    Only 71958538 s (judgeTwin s) := by
  unfold judgeTwin
  repeat' (first
    | with_reducible intro _
    | with_reducible apply Only.refl
    | with_reducible assumption
    | with_reducible apply Only.step (loseState_only ..)
    | with_reducible apply Only.step (takeOver_only ..)
    | with_reducible apply Only.step (State.raise_only ..)
    | with_reducible apply Only.step (State.setReg_only ..)
    | decide
    | fail_if_no_progress extract_lets
    | split
    | with_reducible apply Only.upd_twin
    | dsimp +zetaDelta only [id])

theorem execTwinFailTimeout_only (s : State) :
    OnlyNext 71958538 s (execTwinFailTimeout s) := by
  unfold execTwinFailTimeout
  repeat' (first
    | with_reducible intro _
    | with_reducible apply Only.refl
    | with_reducible assumption
    | with_reducible apply OnlyNext.next
    | with_reducible apply Only.step (judgeTwin_only ..)
    | decide
    | split
    | dsimp +zetaDelta only [id])

theorem execTwinFailMsg_only (s : State) :
    OnlyNext 71958538 s (execTwinFailMsg s) := by
  unfold execTwinFailMsg
  repeat' (first
    | with_reducible intro _
    | with_reducible apply Only.refl
    | with_reducible assumption
    | with_reducible apply OnlyNext.next
    | with_reducible apply Only.step (judgeTwin_only ..)
    | decide
    | dsimp +zetaDelta only [id])

theorem execTwinTakeover_only (s : State) :
    OnlyNext 4849674 s (execTwinTakeover s) := by
  unfold execTwinTakeover
  repeat' (first
    | with_reducible intro _
    | with_reducible apply Only.refl
    | with_reducible assumption
    | with_reducible apply OnlyNext.next
    | with_reducible apply Only.step (takeOver_only ..)
    | decide
    | split
    | dsimp +zetaDelta only [id])

theorem execMirrorBatch_only (a0 : Fin 64) (a1 : List (Prod (BitVec 64) (List Byte))) (s : State) :
    OnlyNext 73417738 s (execMirrorBatch a0 a1 s) := by
  unfold execMirrorBatch
  repeat' (first
    | with_reducible intro _
    | with_reducible apply Only.refl
    | with_reducible assumption
    | with_reducible apply OnlyNext.next
    | with_reducible apply Only.after (State.each_only ..)
    | with_reducible apply Only.step (State.partWrite_only ..)
    | with_reducible apply Only.step (State.setReg_only ..)
    | with_reducible apply each_only
    | decide
    | fail_if_no_progress extract_lets
    | split
    | with_reducible apply Only.upd_twin
    | dsimp +zetaDelta only [id])

theorem sendCopies_only (s : State) :
    Only 67108866 s (sendCopies s) := by
  unfold sendCopies
  repeat' (first
    | with_reducible intro _
    | with_reducible apply Only.refl
    | with_reducible assumption
    | with_reducible apply Only.after (State.each_only ..)
    | with_reducible apply Only.step (State.emit_only ..)
    | with_reducible apply each_only
    | decide
    | fail_if_no_progress extract_lets
    | split
    | with_reducible apply Only.upd_twin
    | dsimp +zetaDelta only [id])

theorem drainDone_only (s : State) :
    Only 4194314 s (drainDone s) := by
  unfold drainDone
  repeat' (first
    | with_reducible intro _
    | with_reducible apply Only.refl
    | with_reducible assumption
    | with_reducible apply Only.step (State.raise_only ..)
    | with_reducible apply Only.step (State.setReg_only ..)
    | decide
    | dsimp +zetaDelta only [id])

theorem startDrain_only (s : State) :
    Only 71303178 s (startDrain s) := by
  unfold startDrain
  repeat' (first
    | with_reducible intro _
    | with_reducible apply Only.refl
    | with_reducible assumption
    | with_reducible apply Only.step (drainDone_only ..)
    | with_reducible apply Only.step (State.setReg_only ..)
    | decide
    | fail_if_no_progress extract_lets
    | split
    | with_reducible apply Only.upd_twin
    | dsimp +zetaDelta only [id])

theorem setPairing_only (a0 : Bool) (s : State) :
    Only 71303178 s (setPairing a0 s) := by
  unfold setPairing
  repeat' (first
    | with_reducible intro _
    | with_reducible apply Only.refl
    | with_reducible assumption
    | with_reducible apply Only.step (State.setReg_only ..)
    | with_reducible apply Only.step (sendCopies_only ..)
    | with_reducible apply Only.step (startDrain_only ..)
    | decide
    | fail_if_no_progress extract_lets
    | split
    | with_reducible apply Only.upd_twin
    | dsimp +zetaDelta only [id])

theorem writeTwinControl_only (a0 : Nat) (s : State) :
    Only 71303178 s (writeTwinControl a0 s) := by
  unfold writeTwinControl
  repeat' (first
    | with_reducible intro _
    | with_reducible apply Only.refl
    | with_reducible assumption
    | with_reducible apply Only.step (setPairing_only ..)
    | with_reducible apply Only.step (State.setReg_only ..)
    | with_reducible apply Only.step (startDrain_only ..)
    | decide
    | fail_if_no_progress extract_lets
    | split
    | dsimp +zetaDelta only [id])

theorem execDrainWrite_only (a0 : Requester) (a1 : BitVec 32) (s : State) :
    OnlyNext 71303178 s (execDrainWrite a0 a1 s) := by
  unfold execDrainWrite
  repeat' (first
    | with_reducible intro _
    | with_reducible apply Only.refl
    | with_reducible assumption
    | with_reducible apply OnlyNext.next
    | with_reducible apply Only.after (writeAccess_only ..)
    | with_reducible apply Only.step (writeTwinControl_only ..)
    | decide
    | dsimp +zetaDelta only [id])

theorem handOver_only (a0 : Handover) (s : State) :
    Only 71958538 s (handOver a0 s) := by
  unfold handOver
  repeat' (first
    | with_reducible intro _
    | with_reducible apply Only.refl
    | with_reducible assumption
    | with_reducible apply Only.step (removeCell_only ..)
    | with_reducible apply Only.step (cutSlots_only ..)
    | with_reducible apply Only.step (sendMirror_only ..)
    | with_reducible apply Only.step (State.emit_only ..)
    | with_reducible apply Only.step (drainDone_only ..)
    | decide
    | fail_if_no_progress extract_lets
    | split
    | with_reducible apply Only.upd_twin
    | dsimp +zetaDelta only [id])

theorem receiveCell_only (a0 : Nat) (a1 : Nat) (a2 : Cell) (s : State) :
    Only 4849674 s (receiveCell a0 a1 a2 s) := by
  unfold receiveCell
  repeat' (first
    | with_reducible intro _
    | with_reducible apply Only.refl
    | with_reducible assumption
    | with_reducible apply Only.after (State.each_only ..)
    | with_reducible apply Only.step (setSlotRun_only ..)
    | with_reducible apply Only.step (completeSlot_only ..)
    | with_reducible apply Only.step (dropSlotRun_only ..)
    | with_reducible apply Only.step (activateCell_only ..)
    | with_reducible apply Only.step (drainDone_only ..)
    | with_reducible apply each_only
    | decide
    | fail_if_no_progress extract_lets
    | split
    | dsimp +zetaDelta only [id])

theorem execDrainHandover_only (a0 : Fin 64) (a1 : Fin 384) (s : State) :
    OnlyNext 71958538 s (execDrainHandover a0 a1 s) := by
  unfold execDrainHandover
  repeat' (first
    | with_reducible intro _
    | with_reducible apply Only.refl
    | with_reducible assumption
    | with_reducible apply OnlyNext.next
    | with_reducible apply Only.step (receiveCell_only ..)
    | with_reducible apply Only.step (handOver_only ..)
    | decide
    | split
    | dsimp +zetaDelta only [id])

end Sys2Proof.Machine
end

