-- ==== Sys2Proof/Laws/OnlyRegRead.lean ====
section
/-! SUPPORT. What each operation of Machine/RegRead.lean may touch: one lemma per operation, in the form of Laws/Only.lean. -/

namespace Sys2Proof.Machine

set_option linter.unusedTactic false
set_option linter.unreachableTactic false
set_option linter.unusedVariables false

theorem putRc_only (a0 : Page) (a1 : RegField) (a2 : Nat) (a3 : Nat) (s : State) :
    Only 1180680 s (putRc a0 a1 a2 a3 s) := by
  unfold putRc
  repeat' (first
    | with_reducible intro _
    | with_reducible apply Only.refl
    | with_reducible assumption
    | with_reducible apply Only.step (State.setRadio_only ..)
    | with_reducible apply Only.step (modLink_only ..)
    | with_reducible apply Only.step (State.setPolicer_only ..)
    | with_reducible apply Only.step (State.setReg_only ..)
    | decide
    | fail_if_no_progress extract_lets
    | split
    | dsimp +zetaDelta only [id])

theorem readPage_only (a0 : Page) (a1 : Nat) (a2 : Option (BitVec 32)) (s : State) :
    Only 1180696 s (readPage a0 a1 a2 s).1 := by
  unfold readPage
  repeat' (first
    | with_reducible intro _
    | with_reducible apply Only.refl
    | with_reducible assumption
    | with_reducible apply Only.step (popStamp_only ..)
    | with_reducible apply Only.step (latchNow_only ..)
    | with_reducible apply Only.after (State.each_only ..)
    | with_reducible apply Only.step (putRc_only ..)
    | with_reducible refine Only.step (Only.pair (popStamp_only ..) (by assumption)) (by decide) ?_
    | with_reducible apply each_only
    | with_reducible apply foldl_only
    | with_reducible apply foldl_pair_only
    | decide
    | fail_if_no_progress extract_lets
    | split
    | with_reducible apply Only.upd_latches
    | dsimp +zetaDelta only [id])

theorem readOne_only (a0 : Requester) (a1 : Nat) (a2 : Option (BitVec 32)) (s : State) :
    Only 5375002 s (readOne a0 a1 a2 s).1 := by
  unfold readOne
  repeat' (first
    | with_reducible intro _
    | with_reducible apply Only.refl
    | with_reducible assumption
    | with_reducible apply Only.step (State.error_only ..)
    | with_reducible apply Only.step (readPage_only ..)
    | with_reducible refine Only.step (Only.pair (readPage_only ..) (by assumption)) (by decide) ?_
    | decide
    | fail_if_no_progress extract_lets
    | split
    | dsimp +zetaDelta only [id])

theorem readWindow_only (a0 : Requester) (a1 : Nat) (a2 : Nat) (a3 : Option (BitVec 32)) (s : State) :
    Only 5375002 s (readWindow a0 a1 a2 a3 s) := by
  unfold readWindow
  repeat' (first
    | with_reducible intro _
    | with_reducible apply Only.refl
    | with_reducible assumption
    | with_reducible apply Only.step (readRefused_only ..)
    | with_reducible apply Only.step (readOne_only ..)
    | with_reducible apply Only.step (State.emit_only ..)
    | with_reducible refine Only.step (Only.pair (readOne_only ..) (by assumption)) (by decide) ?_
    | with_reducible apply foldl_only
    | with_reducible apply foldl_pair_only
    | decide
    | fail_if_no_progress extract_lets
    | split
    | dsimp +zetaDelta only [id])

theorem execRegisterReadClear_only (a0 : Requester) (a1 : Nat) (a2 : Nat) (a3 : Option (BitVec 32)) (s : State) :
    OnlyNext 5375002 s (execRegisterReadClear a0 a1 a2 a3 s) := by
  unfold execRegisterReadClear
  repeat' (first
    | with_reducible intro _
    | with_reducible apply Only.refl
    | with_reducible assumption
    | with_reducible apply OnlyNext.next
    | with_reducible apply Only.step (readWindow_only ..)
    | decide
    | dsimp +zetaDelta only [id])

theorem execTimeNowRead_only (a0 : Requester) (s : State) :
    OnlyNext 5375002 s (execTimeNowRead a0 s) := by
  unfold execTimeNowRead
  repeat' (first
    | with_reducible intro _
    | with_reducible apply Only.refl
    | with_reducible assumption
    | with_reducible apply OnlyNext.next
    | with_reducible apply Only.step (readWindow_only ..)
    | decide
    | dsimp +zetaDelta only [id])

theorem execCounterLatchRead_only (a0 : Requester) (a1 : Nat) (s : State) :
    OnlyNext 5375002 s (execCounterLatchRead a0 a1 s) := by
  unfold execCounterLatchRead
  repeat' (first
    | with_reducible intro _
    | with_reducible apply Only.refl
    | with_reducible assumption
    | with_reducible apply OnlyNext.next
    | with_reducible apply Only.step (readWindow_only ..)
    | decide
    | dsimp +zetaDelta only [id])

end Sys2Proof.Machine
end

