-- ==== Sys2Proof/Laws/OnlyRegPages.lean ====
section
/-! SUPPORT. What each operation of Machine/RegPages.lean may touch: one lemma per operation, in the form of Laws/Only.lean. -/

namespace Sys2Proof.Machine

set_option linter.unusedTactic false
set_option linter.unreachableTactic false
set_option linter.unusedVariables false

theorem writeField_only (a0 : Page) (a1 : Nat) (a2 : Nat) (a3 : RegField) (s : State) :
    Only 8 s (writeField a0 a1 a2 a3 s) := by
  unfold writeField
  repeat' (first
    | with_reducible intro _
    | with_reducible apply Only.refl
    | with_reducible assumption
    | with_reducible apply Only.step (State.setReg_only ..)
    | decide
    | fail_if_no_progress extract_lets
    | split
    | dsimp +zetaDelta only [id])

theorem writeWindow_only (a0 : Nat) (a1 : Nat) (s : State) :
    Only 4194304 s (writeWindow a0 a1 s) := by
  unfold writeWindow
  repeat' (first
    | with_reducible intro _
    | with_reducible apply Only.refl
    | with_reducible assumption
    | decide
    | fail_if_no_progress extract_lets
    | split
    | with_reducible apply Only.upd_host
    | dsimp +zetaDelta only [id])

theorem afterWrite_only (a0 : Page) (a1 : Nat) (a2 : Nat) (a3 : State) (s : State) :
    Only 138477582 s (afterWrite a0 a1 a2 a3 s) := by
  unfold afterWrite
  repeat' (first
    | with_reducible intro _
    | with_reducible apply Only.refl
    | with_reducible assumption
    | with_reducible apply Only.step (State.tellLead_only ..)
    | with_reducible apply Only.step (State.signal_only ..)
    | with_reducible apply Only.step (State.setReg_only ..)
    | with_reducible apply Only.step (updateReach_only ..)
    | with_reducible apply Only.step (setBudget_only ..)
    | decide
    | fail_if_no_progress extract_lets
    | split
    | with_reducible apply Only.upd_parts
    | with_reducible apply Only.upd_salt
    | dsimp +zetaDelta only [id])

theorem writePage_only (a0 : Page) (a1 : Nat) (a2 : Nat) (s : State) :
    Only 138477838 s (writePage a0 a1 a2 s) := by
  unfold writePage
  repeat' (first
    | with_reducible intro _
    | with_reducible apply Only.refl
    | with_reducible assumption
    | with_reducible apply Only.step (setSources_only ..)
    | with_reducible apply Only.step (writeWindow_only ..)
    | with_reducible apply Only.step (afterWrite_only ..)
    | with_reducible apply Only.after (State.each_only ..)
    | with_reducible apply Only.step (writeField_only ..)
    | with_reducible apply each_only
    | decide
    | fail_if_no_progress extract_lets
    | split
    | dsimp +zetaDelta only [id])

theorem writeOne_only (a0 : Requester) (a1 : Nat) (a2 : Nat) (s : State) :
    Only 138477838 s (writeOne a0 a1 a2 s) := by
  unfold writeOne
  repeat' (first
    | with_reducible intro _
    | with_reducible apply Only.refl
    | with_reducible assumption
    | with_reducible apply Only.after (writeAccess_only ..)
    | with_reducible apply Only.step (writePage_only ..)
    | decide
    | split
    | dsimp +zetaDelta only [id])

theorem execRegisterWrite_only (a0 : Requester) (a1 : Nat) (a2 : Nat) (a3 : BitVec 64) (s : State) :
    OnlyNext 138477838 s (execRegisterWrite a0 a1 a2 a3 s) := by
  unfold execRegisterWrite
  repeat' (first
    | with_reducible intro _
    | with_reducible apply Only.refl
    | with_reducible assumption
    | with_reducible apply OnlyNext.next
    | with_reducible apply Only.step (State.error_only ..)
    | with_reducible apply Only.step (writeOne_only ..)
    | decide
    | split
    | dsimp +zetaDelta only [id])

theorem clearStatus_only (a0 : Page) (a1 : Nat) (a2 : Nat) (s : State) :
    Only 4194314 s (clearStatus a0 a1 a2 s) := by
  unfold clearStatus
  repeat' (first
    | with_reducible intro _
    | with_reducible apply Only.refl
    | with_reducible assumption
    | with_reducible apply Only.step (State.setReg_only ..)
    | with_reducible apply Only.step (State.tellLead_only ..)
    | with_reducible apply Only.step (State.signal_only ..)
    | decide
    | fail_if_no_progress extract_lets
    | dsimp +zetaDelta only [id])

theorem execIntStatusClear_only (a0 : Requester) (a1 : Page) (a2 : BitVec 32) (a3 : BitVec 32) (s : State) :
    OnlyNext 4194314 s (execIntStatusClear a0 a1 a2 a3 s) := by
  unfold execIntStatusClear
  repeat' (first
    | with_reducible intro _
    | with_reducible apply Only.refl
    | with_reducible assumption
    | with_reducible apply OnlyNext.next
    | with_reducible apply Only.step (clearStatus_only ..)
    | with_reducible apply Only.after (writeAccess_only ..)
    | with_reducible apply Only.step (State.raiseBits_only ..)
    | decide
    | split
    | dsimp +zetaDelta only [id])

theorem execIntForceWrite_only (a0 : Requester) (a1 : Page) (a2 : BitVec 32) (s : State) :
    OnlyNext 4194314 s (execIntForceWrite a0 a1 a2 s) := by
  unfold execIntForceWrite
  repeat' (first
    | with_reducible intro _
    | with_reducible apply Only.refl
    | with_reducible assumption
    | with_reducible apply OnlyNext.next
    | with_reducible apply Only.after (writeAccess_only ..)
    | with_reducible apply Only.step (State.raiseBits_only ..)
    | decide
    | split
    | dsimp +zetaDelta only [id])

theorem resetRegs_only (a0 : Page) (s : State) :
    Only 24 s (resetRegs a0 s) := by
  unfold resetRegs
  repeat' (first
    | with_reducible intro _
    | with_reducible apply Only.refl
    | with_reducible assumption
    | with_reducible apply Only.after (State.each_only ..)
    | with_reducible apply Only.step (State.setReg_only ..)
    | with_reducible apply fieldSet_wf
    | with_reducible apply each_only
    | with_reducible apply tabSorted_filter
    | decide
    | fail_if_no_progress extract_lets
    | with_reducible apply Only.upd_regs_latches
    | dsimp +zetaDelta only [id])

theorem discardWork_only (a0 : Page) (s : State) :
    Only 243260938 s (discardWork a0 s) := by
  unfold discardWork
  repeat' (first
    | with_reducible intro _
    | with_reducible apply Only.refl
    | with_reducible assumption
    | with_reducible apply Only.step (State.setCore_only ..)
    | with_reducible apply Only.step (endProgram_only ..)
    | with_reducible apply Only.step (State.setSigc_only ..)
    | with_reducible apply Only.step (abortCoding_only ..)
    | with_reducible apply Only.step (modLink_only ..)
    | with_reducible apply Only.step (portOff_only ..)
    | with_reducible apply Only.step (resetPort_only ..)
    | with_reducible apply Only.step (dropSluices_only ..)
    | with_reducible apply Only.step (State.setReg_only ..)
    | with_reducible apply Only.step (setPairing_only ..)
    | with_reducible apply Only.step (setRecord_only ..)
    | with_reducible apply setRegion_wf
    | with_reducible apply writeBytes_wf
    | with_reducible apply spoilBytes_wf
    | with_reducible apply delFlips_wf
    | with_reducible apply wf_put_flips
    | with_reducible apply wf_del_flips
    | with_reducible apply memory_wf
    | with_reducible apply wf_spad
    | with_reducible apply wf_of_spad
    | with_reducible apply wf_imem
    | with_reducible apply wf_of_imem
    | with_reducible apply wf_dmem
    | with_reducible apply wf_of_dmem
    | with_reducible apply wf_simem
    | with_reducible apply wf_of_simem
    | with_reducible apply wf_hbm
    | with_reducible apply wf_of_hbm
    | with_reducible apply wf_buf
    | with_reducible apply wf_of_buf
    | with_reducible apply wf_tags
    | with_reducible apply wf_of_tags
    | with_reducible apply wf_bulk
    | with_reducible apply wf_of_bulk
    | with_reducible apply wf_empty
    | with_reducible apply wf_filter_cells
    | with_reducible apply forgetRange_wf
    | with_reducible apply foldl_wf
    | with_reducible apply spoilWord_wf
    | decide
    | fail_if_no_progress extract_lets
    | split
    | with_reducible apply wf_mem_mk
    | with_reducible apply Only.upd_coding
    | with_reducible apply Only.upd_eth
    | with_reducible apply Only.upd_fabric
    | with_reducible apply Only.upd_mem
    | with_reducible apply Only.upd_parts_radio_serve
    | with_reducible apply Only.upd_ras_salt
    | with_reducible apply Only.upd_tier_mem
    | dsimp +zetaDelta only [id])

theorem afterReset_only (a0 : Page) (s : State) :
    Only 73430602 s (afterReset a0 s) := by
  unfold afterReset
  repeat' (first
    | with_reducible intro _
    | with_reducible apply Only.refl
    | with_reducible assumption
    | with_reducible apply Only.step (freshRepairs_only ..)
    | with_reducible apply Only.step (countSpares_only ..)
    | with_reducible apply Only.after (State.each_only ..)
    | with_reducible apply Only.step (renumberDie_only ..)
    | with_reducible apply Only.step (State.raise_only ..)
    | with_reducible apply Only.step (recount_only ..)
    | with_reducible apply Only.step (updateReach_only ..)
    | with_reducible apply each_only
    | decide
    | split
    | with_reducible apply Only.upd_tier
    | dsimp +zetaDelta only [id])

theorem beginReset_only (a0 : Page) (s : State) :
    Only 243269210 s (beginReset a0 s) := by
  unfold beginReset
  repeat' (first
    | with_reducible intro _
    | with_reducible apply Only.refl
    | with_reducible assumption
    | with_reducible apply Only.step (resetRegs_only ..)
    | with_reducible apply Only.step (discardWork_only ..)
    | with_reducible apply Only.step (State.setReg_only ..)
    | with_reducible apply Only.step (afterReset_only ..)
    | decide
    | fail_if_no_progress extract_lets
    | dsimp +zetaDelta only [id])

theorem execSoftReset_only (a0 : Requester) (a1 : Page) (a2 : BitVec 32) (s : State) :
    OnlyNext 243269210 s (execSoftReset a0 a1 a2 s) := by
  unfold execSoftReset
  repeat' (first
    | with_reducible intro _
    | with_reducible apply Only.refl
    | with_reducible assumption
    | with_reducible apply OnlyNext.next
    | with_reducible apply Only.after (writeAccess_only ..)
    | with_reducible apply Only.step (beginReset_only ..)
    | with_reducible apply Only.step (State.error_only ..)
    | decide
    | split
    | dsimp +zetaDelta only [id])

theorem execSoftResetDone_only (a0 : Page) (s : State) :
    OnlyNext 6664 s (execSoftResetDone a0 s) := by
  unfold execSoftResetDone
  repeat' (first
    | with_reducible intro _
    | with_reducible apply Only.refl
    | with_reducible assumption
    | with_reducible apply OnlyNext.next
    | with_reducible apply Only.step (State.setReg_only ..)
    | with_reducible apply Only.step (startProbe_only ..)
    | with_reducible apply Only.step (setSigcEnable_only ..)
    | decide
    | fail_if_no_progress extract_lets
    | split
    | dsimp +zetaDelta only [id])

theorem setEnable_only (a0 : Page) (a1 : Bool) (s : State) :
    Only 208240142 s (setEnable a0 a1 s) := by
  unfold setEnable
  repeat' (first
    | with_reducible intro _
    | with_reducible apply Only.refl
    | with_reducible assumption
    | with_reducible apply Only.step (disablePart_only ..)
    | with_reducible apply Only.step (State.error_only ..)
    | with_reducible apply Only.step (enableNow_only ..)
    | with_reducible apply Only.step (setSigcEnable_only ..)
    | with_reducible apply Only.step (State.setReg_only ..)
    | with_reducible apply Only.step (portOff_only ..)
    | with_reducible apply Only.step (linkDrops_only ..)
    | decide
    | fail_if_no_progress extract_lets
    | split
    | dsimp +zetaDelta only [id])

theorem storeEnable_only (a0 : Page) (a1 : Bool) (s : State) :
    Only 208240142 s (storeEnable a0 a1 s) := by
  unfold storeEnable
  repeat' (first
    | with_reducible intro _
    | with_reducible apply Only.refl
    | with_reducible assumption
    | with_reducible apply Only.step (setEnable_only ..)
    | with_reducible apply Only.step (State.setReg_only ..)
    | decide
    | split
    | dsimp +zetaDelta only [id])

theorem execEnableWrite_only (a0 : Requester) (a1 : Page) (a2 : Bool) (s : State) :
    OnlyNext 208240142 s (execEnableWrite a0 a1 a2 s) := by
  unfold execEnableWrite
  repeat' (first
    | with_reducible intro _
    | with_reducible apply Only.refl
    | with_reducible assumption
    | with_reducible apply OnlyNext.next
    | with_reducible apply Only.after (writeAccess_only ..)
    | with_reducible apply Only.step (storeEnable_only ..)
    | with_reducible apply Only.step (setEnable_only ..)
    | decide
    | split
    | dsimp +zetaDelta only [id])

theorem execBlockOperating_only (a0 : Page) (s : State) :
    OnlyNext 8 s (execBlockOperating a0 s) := by
  unfold execBlockOperating
  repeat' (first
    | with_reducible intro _
    | with_reducible apply Only.refl
    | with_reducible assumption
    | with_reducible apply OnlyNext.next
    | with_reducible apply Only.step (State.setReg_only ..)
    | decide
    | split
    | dsimp +zetaDelta only [id])

theorem execBlockStopped_only (a0 : Page) (s : State) :
    OnlyNext 8 s (execBlockStopped a0 s) := by
  unfold execBlockStopped
  repeat' (first
    | with_reducible intro _
    | with_reducible apply Only.refl
    | with_reducible assumption
    | with_reducible apply OnlyNext.next
    | with_reducible apply Only.step (State.setReg_only ..)
    | decide
    | split
    | dsimp +zetaDelta only [id])

theorem freezePage_only (a0 : Page) (s : State) :
    Only 4616 s (freezePage a0 s) := by
  unfold freezePage
  repeat' (first
    | with_reducible intro _
    | with_reducible apply Only.refl
    | with_reducible assumption
    | with_reducible apply Only.step (State.setReg_only ..)
    | with_reducible apply Only.step (settleGap_only ..)
    | with_reducible apply Only.step (State.modCore_only ..)
    | with_reducible apply Only.step (leaveWaits_only ..)
    | decide
    | fail_if_no_progress extract_lets
    | split
    | dsimp +zetaDelta only [id])

theorem thawPage_only (a0 : Page) (s : State) :
    Only 8712 s (thawPage a0 s) := by
  unfold thawPage
  repeat' (first
    | with_reducible intro _
    | with_reducible apply Only.refl
    | with_reducible assumption
    | with_reducible apply Only.step (State.setReg_only ..)
    | with_reducible apply Only.step (settleGap_only ..)
    | with_reducible apply Only.step (choose_only ..)
    | decide
    | fail_if_no_progress extract_lets
    | split
    | dsimp +zetaDelta only [id])

theorem execFreezeWrite_only (a0 : Requester) (a1 : Page) (a2 : Bool) (s : State) :
    OnlyNext 4207114 s (execFreezeWrite a0 a1 a2 s) := by
  unfold execFreezeWrite
  repeat' (first
    | with_reducible intro _
    | with_reducible apply Only.refl
    | with_reducible assumption
    | with_reducible apply OnlyNext.next
    | with_reducible apply Only.after (writeAccess_only ..)
    | with_reducible apply Only.step (freezePage_only ..)
    | with_reducible apply Only.step (thawPage_only ..)
    | decide
    | split
    | dsimp +zetaDelta only [id])

theorem execBlockFrozen_only (a0 : Page) (s : State) :
    OnlyNext 8 s (execBlockFrozen a0 s) := by
  unfold execBlockFrozen
  repeat' (first
    | with_reducible intro _
    | with_reducible apply Only.refl
    | with_reducible assumption
    | with_reducible apply OnlyNext.next
    | with_reducible apply Only.step (State.setReg_only ..)
    | decide
    | split
    | dsimp +zetaDelta only [id])

end Sys2Proof.Machine
end

