-- ==== Sys2Proof/Laws/OnlyScalar.lean ====
section
/-! SUPPORT. What each operation of Machine/Scalar.lean may touch: one lemma per operation, in the form of Laws/Only.lean. -/

namespace Sys2Proof.Machine

set_option linter.unusedTactic false
set_option linter.unreachableTactic false
set_option linter.unusedVariables false

theorem scalarBody_only (a0 : Nat) (a1 : ScalarInsn) (s : State) :
    Only 73426442 s (scalarBody a0 a1 s) := by
  unfold scalarBody
  repeat' (first
    | with_reducible intro _
    | with_reducible apply Only.refl
    | with_reducible assumption
    | with_reducible apply Only.step (trap_only ..)
    | with_reducible apply Only.step (State.setCore_only ..)
    | with_reducible apply Only.step (trapIllegal_only ..)
    | decide
    | fail_if_no_progress extract_lets
    | split
    | dsimp +zetaDelta only [id])

theorem execScalarInstruction_only (a0 : Fin 160) (a1 : ScalarInsn) (s : State) :
    OnlyNext 73426442 s (execScalarInstruction a0 a1 s) := by
  unfold execScalarInstruction
  repeat' (first
    | with_reducible intro _
    | with_reducible apply Only.refl
    | with_reducible assumption
    | with_reducible apply OnlyNext.next
    | with_reducible apply Only.after (runInsn_only ..)
    | with_reducible apply Only.step (scalarBody_only ..)
    | decide
    | dsimp +zetaDelta only [id])

theorem branchBody_only (a0 : Nat) (a1 : BranchInsn) (s : State) :
    Only 73426442 s (branchBody a0 a1 s) := by
  unfold branchBody
  repeat' (first
    | with_reducible intro _
    | with_reducible apply Only.refl
    | with_reducible assumption
    | with_reducible apply Only.step (State.setCore_only ..)
    | with_reducible apply Only.step (trap_only ..)
    | with_reducible apply Only.step (trapIllegal_only ..)
    | decide
    | fail_if_no_progress extract_lets
    | split
    | dsimp +zetaDelta only [id])

theorem execBranchInstruction_only (a0 : Fin 160) (a1 : BranchInsn) (s : State) :
    OnlyNext 73426442 s (execBranchInstruction a0 a1 s) := by
  unfold execBranchInstruction
  repeat' (first
    | with_reducible intro _
    | with_reducible apply Only.refl
    | with_reducible assumption
    | with_reducible apply OnlyNext.next
    | with_reducible apply Only.after (runInsn_only ..)
    | with_reducible apply Only.step (branchBody_only ..)
    | decide
    | dsimp +zetaDelta only [id])

theorem ldBody_only (a0 : Nat) (a1 : ScalarWidth) (a2 : Bool) (a3 : Fin 32) (a4 : Fin 32) (a5 : BitVec 64) (s : State) :
    Only 73426446 s (ldBody a0 a1 a2 a3 a4 a5 s) := by
  unfold ldBody
  repeat' (first
    | with_reducible intro _
    | with_reducible apply Only.refl
    | with_reducible assumption
    | with_reducible apply Only.step (trap_only ..)
    | with_reducible apply Only.step (State.readEffect_only ..)
    | with_reducible apply Only.step (trapDataUe_only ..)
    | with_reducible apply Only.step (State.setCore_only ..)
    | with_reducible apply Only.step (spadWait_only ..)
    | decide
    | fail_if_no_progress extract_lets
    | split
    | dsimp +zetaDelta only [id])

theorem rawLoad_only (a0 : Nat) (a1 : Nat) (a2 : Bool) (a3 : Int) (a4 : ScalarWidth) (a5 : Bool) (a6 : Fin 32) (s : State) :
    Only 6293518 s (rawLoad a0 a1 a2 a3 a4 a5 a6 s) := by
  unfold rawLoad
  repeat' (first
    | with_reducible intro _
    | with_reducible apply Only.refl
    | with_reducible assumption
    | with_reducible apply Only.after (rawInsn_only ..)
    | with_reducible apply Only.step (State.readEffect_only ..)
    | with_reducible apply Only.step (strapDataUe_only ..)
    | with_reducible apply Only.step (sDone_only ..)
    | with_reducible apply Only.step (dmemWait_only ..)
    | with_reducible apply Only.step (State.setSigc_only ..)
    | decide
    | fail_if_no_progress extract_lets
    | split
    | dsimp +zetaDelta only [id])

theorem execLd_only (a0 : ScalarPlace) (a1 : ScalarWidth) (a2 : Bool) (a3 : Fin 32) (s : State) :
    OnlyNext 73428494 s (execLd a0 a1 a2 a3 s) := by
  unfold execLd
  repeat' (first
    | with_reducible intro _
    | with_reducible apply Only.refl
    | with_reducible assumption
    | with_reducible apply OnlyNext.next
    | with_reducible apply Only.after (runInsn_only ..)
    | with_reducible apply Only.step (ldBody_only ..)
    | with_reducible apply Only.after (runSInsn_only ..)
    | with_reducible apply Only.step (rawLoad_only ..)
    | decide
    | split
    | dsimp +zetaDelta only [id])

theorem stBody_only (a0 : Nat) (a1 : ScalarWidth) (a2 : Fin 32) (a3 : Fin 32) (a4 : BitVec 64) (s : State) :
    Only 73426446 s (stBody a0 a1 a2 a3 a4 s) := by
  unfold stBody
  repeat' (first
    | with_reducible intro _
    | with_reducible apply Only.refl
    | with_reducible assumption
    | with_reducible apply Only.step (trap_only ..)
    | with_reducible apply Only.step (trapDataUe_only ..)
    | with_reducible apply Only.step (State.readEffect_only ..)
    | with_reducible apply Only.step (State.setCore_only ..)
    | with_reducible apply Only.step (spadWait_only ..)
    | with_reducible apply Only.step (State.spadWrite_only ..)
    | decide
    | fail_if_no_progress extract_lets
    | split
    | dsimp +zetaDelta only [id])

theorem rawStore_only (a0 : Nat) (a1 : Nat) (a2 : Bool) (a3 : Int) (a4 : ScalarWidth) (a5 : Fin 32) (s : State) :
    Only 6293518 s (rawStore a0 a1 a2 a3 a4 a5 s) := by
  unfold rawStore
  repeat' (first
    | with_reducible intro _
    | with_reducible apply Only.refl
    | with_reducible assumption
    | with_reducible apply Only.after (rawInsn_only ..)
    | with_reducible apply Only.step (State.store_only ..)
    | with_reducible apply Only.step (sDone_only ..)
    | with_reducible apply Only.step (dmemWait_only ..)
    | with_reducible apply Only.step (State.setSigc_only ..)
    | decide
    | fail_if_no_progress extract_lets
    | dsimp +zetaDelta only [id])

theorem execSt_only (a0 : ScalarPlace) (a1 : ScalarWidth) (a2 : Fin 32) (s : State) :
    OnlyNext 73428494 s (execSt a0 a1 a2 s) := by
  unfold execSt
  repeat' (first
    | with_reducible intro _
    | with_reducible apply Only.refl
    | with_reducible assumption
    | with_reducible apply OnlyNext.next
    | with_reducible apply Only.after (runInsn_only ..)
    | with_reducible apply Only.step (stBody_only ..)
    | with_reducible apply Only.after (runSInsn_only ..)
    | with_reducible apply Only.step (rawStore_only ..)
    | decide
    | split
    | dsimp +zetaDelta only [id])

end Sys2Proof.Machine
end

