-- ==== Sys2Proof/Laws/OnlyVector.lean ====
section
/-! SUPPORT. What each operation of Machine/Vector.lean may touch: one lemma per operation, in the form of Laws/Only.lean. -/

namespace Sys2Proof.Machine

set_option linter.unusedTactic false
set_option linter.unreachableTactic false
set_option linter.unusedVariables false

theorem vWrite_only (a0 : Nat) (a1 : Fin 32) (a2 : Prod VReg Nat) (s : State) :
    Only 520 s (vWrite a0 a1 a2 s) := by
  unfold vWrite
  repeat' (first
    | with_reducible intro _
    | with_reducible apply Only.refl
    | with_reducible assumption
    | with_reducible apply Only.step (orFlags_only ..)
    | with_reducible apply Only.step (State.setCore_only ..)
    | decide
    | dsimp +zetaDelta only [id])

theorem dWrite_only (a0 : Nat) (a1 : Fin 64) (a2 : List (Prod ExactVal Bool)) (s : State) :
    Only 2056 s (dWrite a0 a1 a2 s) := by
  unfold dWrite
  repeat' (first
    | with_reducible intro _
    | with_reducible apply Only.refl
    | with_reducible assumption
    | with_reducible apply Only.step (sDone_only ..)
    | with_reducible apply Only.step (sFlags_only ..)
    | with_reducible apply Only.step (State.setSigc_only ..)
    | decide
    | fail_if_no_progress extract_lets
    | dsimp +zetaDelta only [id])

theorem execVectorElementwise_only (a0 : VecElem) (a1 : VecRegs) (s : State) :
    OnlyNext 73428490 s (execVectorElementwise a0 a1 s) := by
  unfold execVectorElementwise
  repeat' (first
    | with_reducible intro _
    | with_reducible apply Only.refl
    | with_reducible assumption
    | with_reducible apply OnlyNext.next
    | with_reducible apply Only.after (runInsn_only ..)
    | with_reducible apply Only.step (vWrite_only ..)
    | with_reducible apply Only.after (runSInsn_only ..)
    | with_reducible apply Only.step (dWrite_only ..)
    | decide
    | fail_if_no_progress extract_lets
    | split
    | dsimp +zetaDelta only [id])

theorem execVectorShiftCompare_only (a0 : VecShiftCmp) (a1 : VecRegs) (s : State) :
    OnlyNext 73428490 s (execVectorShiftCompare a0 a1 s) := by
  unfold execVectorShiftCompare
  repeat' (first
    | with_reducible intro _
    | with_reducible apply Only.refl
    | with_reducible assumption
    | with_reducible apply OnlyNext.next
    | with_reducible apply Only.after (runInsn_only ..)
    | with_reducible apply Only.step (vWrite_only ..)
    | with_reducible apply Only.after (runSInsn_only ..)
    | with_reducible apply Only.step (dWrite_only ..)
    | decide
    | fail_if_no_progress extract_lets
    | split
    | dsimp +zetaDelta only [id])

theorem reduceBody_only (a0 : Nat) (a1 : VecRed) (a2 : RedDest) (a3 : Fin 32) (a4 : Lane) (s : State) :
    Only 524 s (reduceBody a0 a1 a2 a3 a4 s) := by
  unfold reduceBody
  repeat' (first
    | with_reducible intro _
    | with_reducible apply Only.refl
    | with_reducible assumption
    | with_reducible apply Only.step (vWrite_only ..)
    | with_reducible apply Only.step (State.usedFree_only ..)
    | with_reducible apply Only.step (orFlags_only ..)
    | with_reducible apply Only.step (State.setCore_only ..)
    | decide
    | fail_if_no_progress extract_lets
    | split
    | dsimp +zetaDelta only [id])

theorem execVectorReduce_only (a0 : VecRed) (a1 : RedRegs) (s : State) :
    OnlyNext 73428494 s (execVectorReduce a0 a1 s) := by
  unfold execVectorReduce
  repeat' (first
    | with_reducible intro _
    | with_reducible apply Only.refl
    | with_reducible assumption
    | with_reducible apply OnlyNext.next
    | with_reducible apply Only.after (runInsn_only ..)
    | with_reducible apply Only.step (reduceBody_only ..)
    | with_reducible apply Only.after (runSInsn_only ..)
    | with_reducible apply Only.step (dWrite_only ..)
    | decide
    | fail_if_no_progress extract_lets
    | split
    | dsimp +zetaDelta only [id])

theorem execVectorRequantize_only (a0 : Fin 160) (a1 : VecConv) (a2 : Fin 32) (a3 : Fin 32) (a4 : Fin 32) (a5 : Lane) (a6 : Lane) (s : State) :
    OnlyNext 73426446 s (execVectorRequantize a0 a1 a2 a3 a4 a5 a6 s) := by
  unfold execVectorRequantize
  repeat' (first
    | with_reducible intro _
    | with_reducible apply Only.refl
    | with_reducible assumption
    | with_reducible apply OnlyNext.next
    | with_reducible apply Only.after (runInsn_only ..)
    | with_reducible apply Only.step (State.usedFree_only ..)
    | with_reducible apply Only.step (vWrite_only ..)
    | decide
    | fail_if_no_progress extract_lets
    | split
    | dsimp +zetaDelta only [id])

theorem execVpoly_only (a0 : Fin 160) (a1 : Fin 32) (a2 : Fin 32) (a3 : Fin 32) (s : State) :
    OnlyNext 73426446 s (execVpoly a0 a1 a2 a3 s) := by
  unfold execVpoly
  repeat' (first
    | with_reducible intro _
    | with_reducible apply Only.refl
    | with_reducible assumption
    | with_reducible apply OnlyNext.next
    | with_reducible apply Only.after (runInsn_only ..)
    | with_reducible apply Only.step (trap_only ..)
    | with_reducible apply Only.step (trapDataUe_only ..)
    | with_reducible apply Only.step (State.readEffect_only ..)
    | with_reducible apply Only.step (vWrite_only ..)
    | with_reducible apply Only.step (spadWait_only ..)
    | with_reducible apply Only.step (State.usedFree_only ..)
    | decide
    | fail_if_no_progress extract_lets
    | split
    | dsimp +zetaDelta only [id])

theorem execVectorPermute_only (a0 : VecPerm) (a1 : VecRegs) (s : State) :
    OnlyNext 73428490 s (execVectorPermute a0 a1 s) := by
  unfold execVectorPermute
  repeat' (first
    | with_reducible intro _
    | with_reducible apply Only.refl
    | with_reducible assumption
    | with_reducible apply OnlyNext.next
    | with_reducible apply Only.after (runInsn_only ..)
    | with_reducible apply Only.step (vWrite_only ..)
    | with_reducible apply Only.after (runSInsn_only ..)
    | with_reducible apply Only.step (dWrite_only ..)
    | decide
    | fail_if_no_progress extract_lets
    | split
    | dsimp +zetaDelta only [id])

theorem execVectorMove_only (a0 : Fin 160) (a1 : VecMove) (a2 : Lane) (s : State) :
    OnlyNext 73426446 s (execVectorMove a0 a1 a2 s) := by
  unfold execVectorMove
  repeat' (first
    | with_reducible intro _
    | with_reducible apply Only.refl
    | with_reducible assumption
    | with_reducible apply OnlyNext.next
    | with_reducible apply Only.after (runInsn_only ..)
    | with_reducible apply Only.step (vWrite_only ..)
    | with_reducible apply Only.step (State.usedFree_only ..)
    | with_reducible apply Only.step (orFlags_only ..)
    | with_reducible apply Only.step (State.setCore_only ..)
    | decide
    | fail_if_no_progress extract_lets
    | split
    | dsimp +zetaDelta only [id])

theorem vldBody_only (a0 : Nat) (a1 : Fin 32) (a2 : Fin 32) (a3 : Fin 32) (a4 : Lane) (a5 : BitVec 8) (s : State) :
    Only 73426446 s (vldBody a0 a1 a2 a3 a4 a5 s) := by
  unfold vldBody
  repeat' (first
    | with_reducible intro _
    | with_reducible apply Only.refl
    | with_reducible assumption
    | with_reducible apply Only.step (trap_only ..)
    | with_reducible apply Only.step (State.readEffect_only ..)
    | with_reducible apply Only.step (trapDataUe_only ..)
    | with_reducible apply Only.step (State.setCore_only ..)
    | with_reducible apply Only.step (spadWait_only ..)
    | with_reducible apply Only.step (State.usedFree_only ..)
    | decide
    | fail_if_no_progress extract_lets
    | split
    | dsimp +zetaDelta only [id])

theorem execVld_only (a0 : Fin 160) (a1 : Fin 32) (a2 : Fin 32) (a3 : Fin 32) (a4 : Lane) (a5 : BitVec 8) (s : State) :
    OnlyNext 73426446 s (execVld a0 a1 a2 a3 a4 a5 s) := by
  unfold execVld
  repeat' (first
    | with_reducible intro _
    | with_reducible apply Only.refl
    | with_reducible assumption
    | with_reducible apply OnlyNext.next
    | with_reducible apply Only.after (runInsn_only ..)
    | with_reducible apply Only.step (vldBody_only ..)
    | decide
    | dsimp +zetaDelta only [id])

theorem vstBody_only (a0 : Nat) (a1 : Fin 32) (a2 : Fin 32) (a3 : Fin 32) (a4 : Lane) (a5 : BitVec 8) (s : State) :
    Only 73426446 s (vstBody a0 a1 a2 a3 a4 a5 s) := by
  unfold vstBody
  repeat' (first
    | with_reducible intro _
    | with_reducible apply Only.refl
    | with_reducible assumption
    | with_reducible apply Only.step (trap_only ..)
    | with_reducible apply Only.step (State.setCore_only ..)
    | with_reducible apply Only.step (spadWait_only ..)
    | with_reducible apply Only.step (State.spadWrite_only ..)
    | decide
    | fail_if_no_progress extract_lets
    | split
    | dsimp +zetaDelta only [id])

theorem execVst_only (a0 : Fin 160) (a1 : Fin 32) (a2 : Fin 32) (a3 : Fin 32) (a4 : Lane) (a5 : BitVec 8) (s : State) :
    OnlyNext 73426446 s (execVst a0 a1 a2 a3 a4 a5 s) := by
  unfold execVst
  repeat' (first
    | with_reducible intro _
    | with_reducible apply Only.refl
    | with_reducible assumption
    | with_reducible apply OnlyNext.next
    | with_reducible apply Only.after (runInsn_only ..)
    | with_reducible apply Only.step (vstBody_only ..)
    | decide
    | dsimp +zetaDelta only [id])

end Sys2Proof.Machine
end

