-- ==== Sys2Proof/Laws/State.lean ====
section
/-! SUPPORT. One lemma per field and basic update of the state, so that no proof unfolds a record update. -/

namespace Sys2Proof.Machine

variable (s : State)

@[simp] theorem State.setReg_pending (p : Page) (f : RegField) (v i : Nat) : (s.setReg p f v i).pending = s.pending := rfl
@[simp] theorem State.setReg_out (p : Page) (f : RegField) (v i : Nat) : (s.setReg p f v i).out = s.out := rfl
@[simp] theorem State.setReg_freeIx (p : Page) (f : RegField) (v i : Nat) : (s.setReg p f v i).freeIx = s.freeIx := rfl
@[simp] theorem State.setReg_latches (p : Page) (f : RegField) (v i : Nat) : (s.setReg p f v i).latches = s.latches := rfl
@[simp] theorem State.setReg_resets (p : Page) (f : RegField) (v i : Nat) : (s.setReg p f v i).resets = s.resets := rfl
@[simp] theorem State.setReg_plat (p : Page) (f : RegField) (v i : Nat) : (s.setReg p f v i).plat = s.plat := rfl
@[simp] theorem State.setReg_fuses (p : Page) (f : RegField) (v i : Nat) : (s.setReg p f v i).fuses = s.fuses := rfl
@[simp] theorem State.setReg_time (p : Page) (f : RegField) (v i : Nat) : (s.setReg p f v i).time = s.time := rfl
@[simp] theorem State.setReg_cores (p : Page) (f : RegField) (v i : Nat) : (s.setReg p f v i).cores = s.cores := rfl
@[simp] theorem State.setReg_fabric (p : Page) (f : RegField) (v i : Nat) : (s.setReg p f v i).fabric = s.fabric := rfl
@[simp] theorem State.setReg_sigcs (p : Page) (f : RegField) (v i : Nat) : (s.setReg p f v i).sigcs = s.sigcs := rfl
@[simp] theorem State.setReg_sems (p : Page) (f : RegField) (v i : Nat) : (s.setReg p f v i).sems = s.sems := rfl
@[simp] theorem State.setReg_ctxs (p : Page) (f : RegField) (v i : Nat) : (s.setReg p f v i).ctxs = s.ctxs := rfl
@[simp] theorem State.setReg_tier (p : Page) (f : RegField) (v i : Nat) : (s.setReg p f v i).tier = s.tier := rfl
@[simp] theorem State.setReg_coding (p : Page) (f : RegField) (v i : Nat) : (s.setReg p f v i).coding = s.coding := rfl
@[simp] theorem State.setReg_parts (p : Page) (f : RegField) (v i : Nat) : (s.setReg p f v i).parts = s.parts := rfl
@[simp] theorem State.setReg_radio (p : Page) (f : RegField) (v i : Nat) : (s.setReg p f v i).radio = s.radio := rfl
@[simp] theorem State.setReg_serve (p : Page) (f : RegField) (v i : Nat) : (s.setReg p f v i).serve = s.serve := rfl
@[simp] theorem State.setReg_records (p : Page) (f : RegField) (v i : Nat) : (s.setReg p f v i).records = s.records := rfl
@[simp] theorem State.setReg_eth (p : Page) (f : RegField) (v i : Nat) : (s.setReg p f v i).eth = s.eth := rfl
@[simp] theorem State.setReg_mem (p : Page) (f : RegField) (v i : Nat) : (s.setReg p f v i).mem = s.mem := rfl
@[simp] theorem State.setReg_host (p : Page) (f : RegField) (v i : Nat) : (s.setReg p f v i).host = s.host := rfl
@[simp] theorem State.setReg_mgmt (p : Page) (f : RegField) (v i : Nat) : (s.setReg p f v i).mgmt = s.mgmt := rfl
@[simp] theorem State.setReg_power (p : Page) (f : RegField) (v i : Nat) : (s.setReg p f v i).power = s.power := rfl
@[simp] theorem State.setReg_ras (p : Page) (f : RegField) (v i : Nat) : (s.setReg p f v i).ras = s.ras := rfl
@[simp] theorem State.setReg_twin (p : Page) (f : RegField) (v i : Nat) : (s.setReg p f v i).twin = s.twin := rfl
@[simp] theorem State.setReg_salt (p : Page) (f : RegField) (v i : Nat) : (s.setReg p f v i).salt = s.salt := rfl

@[simp] theorem State.emit_pending (e : Emission) : (s.emit e).pending = s.pending := rfl
@[simp] theorem State.emit_freeIx (e : Emission) : (s.emit e).freeIx = s.freeIx := rfl
@[simp] theorem State.emit_regs (e : Emission) : (s.emit e).regs = s.regs := rfl
@[simp] theorem State.emit_latches (e : Emission) : (s.emit e).latches = s.latches := rfl
@[simp] theorem State.emit_resets (e : Emission) : (s.emit e).resets = s.resets := rfl
@[simp] theorem State.emit_plat (e : Emission) : (s.emit e).plat = s.plat := rfl
@[simp] theorem State.emit_fuses (e : Emission) : (s.emit e).fuses = s.fuses := rfl
@[simp] theorem State.emit_time (e : Emission) : (s.emit e).time = s.time := rfl
@[simp] theorem State.emit_cores (e : Emission) : (s.emit e).cores = s.cores := rfl
@[simp] theorem State.emit_fabric (e : Emission) : (s.emit e).fabric = s.fabric := rfl
@[simp] theorem State.emit_sigcs (e : Emission) : (s.emit e).sigcs = s.sigcs := rfl
@[simp] theorem State.emit_sems (e : Emission) : (s.emit e).sems = s.sems := rfl
@[simp] theorem State.emit_ctxs (e : Emission) : (s.emit e).ctxs = s.ctxs := rfl
@[simp] theorem State.emit_tier (e : Emission) : (s.emit e).tier = s.tier := rfl
@[simp] theorem State.emit_coding (e : Emission) : (s.emit e).coding = s.coding := rfl
@[simp] theorem State.emit_parts (e : Emission) : (s.emit e).parts = s.parts := rfl
@[simp] theorem State.emit_radio (e : Emission) : (s.emit e).radio = s.radio := rfl
@[simp] theorem State.emit_serve (e : Emission) : (s.emit e).serve = s.serve := rfl
@[simp] theorem State.emit_records (e : Emission) : (s.emit e).records = s.records := rfl
@[simp] theorem State.emit_eth (e : Emission) : (s.emit e).eth = s.eth := rfl
@[simp] theorem State.emit_mem (e : Emission) : (s.emit e).mem = s.mem := rfl
@[simp] theorem State.emit_host (e : Emission) : (s.emit e).host = s.host := rfl
@[simp] theorem State.emit_mgmt (e : Emission) : (s.emit e).mgmt = s.mgmt := rfl
@[simp] theorem State.emit_power (e : Emission) : (s.emit e).power = s.power := rfl
@[simp] theorem State.emit_ras (e : Emission) : (s.emit e).ras = s.ras := rfl
@[simp] theorem State.emit_twin (e : Emission) : (s.emit e).twin = s.twin := rfl
@[simp] theorem State.emit_salt (e : Emission) : (s.emit e).salt = s.salt := rfl

@[simp] theorem State.usedFree_pending (n : Nat) : (s.usedFree n).pending = s.pending := rfl
@[simp] theorem State.usedFree_out (n : Nat) : (s.usedFree n).out = s.out := rfl
@[simp] theorem State.usedFree_regs (n : Nat) : (s.usedFree n).regs = s.regs := rfl
@[simp] theorem State.usedFree_latches (n : Nat) : (s.usedFree n).latches = s.latches := rfl
@[simp] theorem State.usedFree_resets (n : Nat) : (s.usedFree n).resets = s.resets := rfl
@[simp] theorem State.usedFree_plat (n : Nat) : (s.usedFree n).plat = s.plat := rfl
@[simp] theorem State.usedFree_fuses (n : Nat) : (s.usedFree n).fuses = s.fuses := rfl
@[simp] theorem State.usedFree_time (n : Nat) : (s.usedFree n).time = s.time := rfl
@[simp] theorem State.usedFree_cores (n : Nat) : (s.usedFree n).cores = s.cores := rfl
@[simp] theorem State.usedFree_fabric (n : Nat) : (s.usedFree n).fabric = s.fabric := rfl
@[simp] theorem State.usedFree_sigcs (n : Nat) : (s.usedFree n).sigcs = s.sigcs := rfl
@[simp] theorem State.usedFree_sems (n : Nat) : (s.usedFree n).sems = s.sems := rfl
@[simp] theorem State.usedFree_ctxs (n : Nat) : (s.usedFree n).ctxs = s.ctxs := rfl
@[simp] theorem State.usedFree_tier (n : Nat) : (s.usedFree n).tier = s.tier := rfl
@[simp] theorem State.usedFree_coding (n : Nat) : (s.usedFree n).coding = s.coding := rfl
@[simp] theorem State.usedFree_parts (n : Nat) : (s.usedFree n).parts = s.parts := rfl
@[simp] theorem State.usedFree_radio (n : Nat) : (s.usedFree n).radio = s.radio := rfl
@[simp] theorem State.usedFree_serve (n : Nat) : (s.usedFree n).serve = s.serve := rfl
@[simp] theorem State.usedFree_records (n : Nat) : (s.usedFree n).records = s.records := rfl
@[simp] theorem State.usedFree_eth (n : Nat) : (s.usedFree n).eth = s.eth := rfl
@[simp] theorem State.usedFree_mem (n : Nat) : (s.usedFree n).mem = s.mem := rfl
@[simp] theorem State.usedFree_host (n : Nat) : (s.usedFree n).host = s.host := rfl
@[simp] theorem State.usedFree_mgmt (n : Nat) : (s.usedFree n).mgmt = s.mgmt := rfl
@[simp] theorem State.usedFree_power (n : Nat) : (s.usedFree n).power = s.power := rfl
@[simp] theorem State.usedFree_ras (n : Nat) : (s.usedFree n).ras = s.ras := rfl
@[simp] theorem State.usedFree_twin (n : Nat) : (s.usedFree n).twin = s.twin := rfl
@[simp] theorem State.usedFree_salt (n : Nat) : (s.usedFree n).salt = s.salt := rfl

@[simp] theorem State.setCore_pending (c : Nat) (x : Core) : (s.setCore c x).pending = s.pending := rfl
@[simp] theorem State.setCore_out (c : Nat) (x : Core) : (s.setCore c x).out = s.out := rfl
@[simp] theorem State.setCore_freeIx (c : Nat) (x : Core) : (s.setCore c x).freeIx = s.freeIx := rfl
@[simp] theorem State.setCore_regs (c : Nat) (x : Core) : (s.setCore c x).regs = s.regs := rfl
@[simp] theorem State.setCore_latches (c : Nat) (x : Core) : (s.setCore c x).latches = s.latches := rfl
@[simp] theorem State.setCore_resets (c : Nat) (x : Core) : (s.setCore c x).resets = s.resets := rfl
@[simp] theorem State.setCore_plat (c : Nat) (x : Core) : (s.setCore c x).plat = s.plat := rfl
@[simp] theorem State.setCore_fuses (c : Nat) (x : Core) : (s.setCore c x).fuses = s.fuses := rfl
@[simp] theorem State.setCore_time (c : Nat) (x : Core) : (s.setCore c x).time = s.time := rfl
@[simp] theorem State.setCore_fabric (c : Nat) (x : Core) : (s.setCore c x).fabric = s.fabric := rfl
@[simp] theorem State.setCore_sigcs (c : Nat) (x : Core) : (s.setCore c x).sigcs = s.sigcs := rfl
@[simp] theorem State.setCore_sems (c : Nat) (x : Core) : (s.setCore c x).sems = s.sems := rfl
@[simp] theorem State.setCore_ctxs (c : Nat) (x : Core) : (s.setCore c x).ctxs = s.ctxs := rfl
@[simp] theorem State.setCore_tier (c : Nat) (x : Core) : (s.setCore c x).tier = s.tier := rfl
@[simp] theorem State.setCore_coding (c : Nat) (x : Core) : (s.setCore c x).coding = s.coding := rfl
@[simp] theorem State.setCore_parts (c : Nat) (x : Core) : (s.setCore c x).parts = s.parts := rfl
@[simp] theorem State.setCore_radio (c : Nat) (x : Core) : (s.setCore c x).radio = s.radio := rfl
@[simp] theorem State.setCore_serve (c : Nat) (x : Core) : (s.setCore c x).serve = s.serve := rfl
@[simp] theorem State.setCore_records (c : Nat) (x : Core) : (s.setCore c x).records = s.records := rfl
@[simp] theorem State.setCore_eth (c : Nat) (x : Core) : (s.setCore c x).eth = s.eth := rfl
@[simp] theorem State.setCore_mem (c : Nat) (x : Core) : (s.setCore c x).mem = s.mem := rfl
@[simp] theorem State.setCore_host (c : Nat) (x : Core) : (s.setCore c x).host = s.host := rfl
@[simp] theorem State.setCore_mgmt (c : Nat) (x : Core) : (s.setCore c x).mgmt = s.mgmt := rfl
@[simp] theorem State.setCore_power (c : Nat) (x : Core) : (s.setCore c x).power = s.power := rfl
@[simp] theorem State.setCore_ras (c : Nat) (x : Core) : (s.setCore c x).ras = s.ras := rfl
@[simp] theorem State.setCore_twin (c : Nat) (x : Core) : (s.setCore c x).twin = s.twin := rfl
@[simp] theorem State.setCore_salt (c : Nat) (x : Core) : (s.setCore c x).salt = s.salt := rfl

@[simp] theorem State.modCore_pending (c : Nat) (f : Core → Core) : (s.modCore c f).pending = s.pending := rfl
@[simp] theorem State.modCore_out (c : Nat) (f : Core → Core) : (s.modCore c f).out = s.out := rfl
@[simp] theorem State.modCore_freeIx (c : Nat) (f : Core → Core) : (s.modCore c f).freeIx = s.freeIx := rfl
@[simp] theorem State.modCore_regs (c : Nat) (f : Core → Core) : (s.modCore c f).regs = s.regs := rfl
@[simp] theorem State.modCore_latches (c : Nat) (f : Core → Core) : (s.modCore c f).latches = s.latches := rfl
@[simp] theorem State.modCore_resets (c : Nat) (f : Core → Core) : (s.modCore c f).resets = s.resets := rfl
@[simp] theorem State.modCore_plat (c : Nat) (f : Core → Core) : (s.modCore c f).plat = s.plat := rfl
@[simp] theorem State.modCore_fuses (c : Nat) (f : Core → Core) : (s.modCore c f).fuses = s.fuses := rfl
@[simp] theorem State.modCore_time (c : Nat) (f : Core → Core) : (s.modCore c f).time = s.time := rfl
@[simp] theorem State.modCore_fabric (c : Nat) (f : Core → Core) : (s.modCore c f).fabric = s.fabric := rfl
@[simp] theorem State.modCore_sigcs (c : Nat) (f : Core → Core) : (s.modCore c f).sigcs = s.sigcs := rfl
@[simp] theorem State.modCore_sems (c : Nat) (f : Core → Core) : (s.modCore c f).sems = s.sems := rfl
@[simp] theorem State.modCore_ctxs (c : Nat) (f : Core → Core) : (s.modCore c f).ctxs = s.ctxs := rfl
@[simp] theorem State.modCore_tier (c : Nat) (f : Core → Core) : (s.modCore c f).tier = s.tier := rfl
@[simp] theorem State.modCore_coding (c : Nat) (f : Core → Core) : (s.modCore c f).coding = s.coding := rfl
@[simp] theorem State.modCore_parts (c : Nat) (f : Core → Core) : (s.modCore c f).parts = s.parts := rfl
@[simp] theorem State.modCore_radio (c : Nat) (f : Core → Core) : (s.modCore c f).radio = s.radio := rfl
@[simp] theorem State.modCore_serve (c : Nat) (f : Core → Core) : (s.modCore c f).serve = s.serve := rfl
@[simp] theorem State.modCore_records (c : Nat) (f : Core → Core) : (s.modCore c f).records = s.records := rfl
@[simp] theorem State.modCore_eth (c : Nat) (f : Core → Core) : (s.modCore c f).eth = s.eth := rfl
@[simp] theorem State.modCore_mem (c : Nat) (f : Core → Core) : (s.modCore c f).mem = s.mem := rfl
@[simp] theorem State.modCore_host (c : Nat) (f : Core → Core) : (s.modCore c f).host = s.host := rfl
@[simp] theorem State.modCore_mgmt (c : Nat) (f : Core → Core) : (s.modCore c f).mgmt = s.mgmt := rfl
@[simp] theorem State.modCore_power (c : Nat) (f : Core → Core) : (s.modCore c f).power = s.power := rfl
@[simp] theorem State.modCore_ras (c : Nat) (f : Core → Core) : (s.modCore c f).ras = s.ras := rfl
@[simp] theorem State.modCore_twin (c : Nat) (f : Core → Core) : (s.modCore c f).twin = s.twin := rfl
@[simp] theorem State.modCore_salt (c : Nat) (f : Core → Core) : (s.modCore c f).salt = s.salt := rfl

@[simp] theorem State.setSigc_pending (k : Nat) (x : Sigc) : (s.setSigc k x).pending = s.pending := rfl
@[simp] theorem State.setSigc_out (k : Nat) (x : Sigc) : (s.setSigc k x).out = s.out := rfl
@[simp] theorem State.setSigc_freeIx (k : Nat) (x : Sigc) : (s.setSigc k x).freeIx = s.freeIx := rfl
@[simp] theorem State.setSigc_regs (k : Nat) (x : Sigc) : (s.setSigc k x).regs = s.regs := rfl
@[simp] theorem State.setSigc_latches (k : Nat) (x : Sigc) : (s.setSigc k x).latches = s.latches := rfl
@[simp] theorem State.setSigc_resets (k : Nat) (x : Sigc) : (s.setSigc k x).resets = s.resets := rfl
@[simp] theorem State.setSigc_plat (k : Nat) (x : Sigc) : (s.setSigc k x).plat = s.plat := rfl
@[simp] theorem State.setSigc_fuses (k : Nat) (x : Sigc) : (s.setSigc k x).fuses = s.fuses := rfl
@[simp] theorem State.setSigc_time (k : Nat) (x : Sigc) : (s.setSigc k x).time = s.time := rfl
@[simp] theorem State.setSigc_cores (k : Nat) (x : Sigc) : (s.setSigc k x).cores = s.cores := rfl
@[simp] theorem State.setSigc_fabric (k : Nat) (x : Sigc) : (s.setSigc k x).fabric = s.fabric := rfl
@[simp] theorem State.setSigc_sems (k : Nat) (x : Sigc) : (s.setSigc k x).sems = s.sems := rfl
@[simp] theorem State.setSigc_ctxs (k : Nat) (x : Sigc) : (s.setSigc k x).ctxs = s.ctxs := rfl
@[simp] theorem State.setSigc_tier (k : Nat) (x : Sigc) : (s.setSigc k x).tier = s.tier := rfl
@[simp] theorem State.setSigc_coding (k : Nat) (x : Sigc) : (s.setSigc k x).coding = s.coding := rfl
@[simp] theorem State.setSigc_parts (k : Nat) (x : Sigc) : (s.setSigc k x).parts = s.parts := rfl
@[simp] theorem State.setSigc_radio (k : Nat) (x : Sigc) : (s.setSigc k x).radio = s.radio := rfl
@[simp] theorem State.setSigc_serve (k : Nat) (x : Sigc) : (s.setSigc k x).serve = s.serve := rfl
@[simp] theorem State.setSigc_records (k : Nat) (x : Sigc) : (s.setSigc k x).records = s.records := rfl
@[simp] theorem State.setSigc_eth (k : Nat) (x : Sigc) : (s.setSigc k x).eth = s.eth := rfl
@[simp] theorem State.setSigc_mem (k : Nat) (x : Sigc) : (s.setSigc k x).mem = s.mem := rfl
@[simp] theorem State.setSigc_host (k : Nat) (x : Sigc) : (s.setSigc k x).host = s.host := rfl
@[simp] theorem State.setSigc_mgmt (k : Nat) (x : Sigc) : (s.setSigc k x).mgmt = s.mgmt := rfl
@[simp] theorem State.setSigc_power (k : Nat) (x : Sigc) : (s.setSigc k x).power = s.power := rfl
@[simp] theorem State.setSigc_ras (k : Nat) (x : Sigc) : (s.setSigc k x).ras = s.ras := rfl
@[simp] theorem State.setSigc_twin (k : Nat) (x : Sigc) : (s.setSigc k x).twin = s.twin := rfl
@[simp] theorem State.setSigc_salt (k : Nat) (x : Sigc) : (s.setSigc k x).salt = s.salt := rfl

@[simp] theorem State.setSem_pending (n : Nat) (x : Sem) : (s.setSem n x).pending = s.pending := rfl
@[simp] theorem State.setSem_out (n : Nat) (x : Sem) : (s.setSem n x).out = s.out := rfl
@[simp] theorem State.setSem_freeIx (n : Nat) (x : Sem) : (s.setSem n x).freeIx = s.freeIx := rfl
@[simp] theorem State.setSem_regs (n : Nat) (x : Sem) : (s.setSem n x).regs = s.regs := rfl
@[simp] theorem State.setSem_latches (n : Nat) (x : Sem) : (s.setSem n x).latches = s.latches := rfl
@[simp] theorem State.setSem_resets (n : Nat) (x : Sem) : (s.setSem n x).resets = s.resets := rfl
@[simp] theorem State.setSem_plat (n : Nat) (x : Sem) : (s.setSem n x).plat = s.plat := rfl
@[simp] theorem State.setSem_fuses (n : Nat) (x : Sem) : (s.setSem n x).fuses = s.fuses := rfl
@[simp] theorem State.setSem_time (n : Nat) (x : Sem) : (s.setSem n x).time = s.time := rfl
@[simp] theorem State.setSem_cores (n : Nat) (x : Sem) : (s.setSem n x).cores = s.cores := rfl
@[simp] theorem State.setSem_fabric (n : Nat) (x : Sem) : (s.setSem n x).fabric = s.fabric := rfl
@[simp] theorem State.setSem_sigcs (n : Nat) (x : Sem) : (s.setSem n x).sigcs = s.sigcs := rfl
@[simp] theorem State.setSem_ctxs (n : Nat) (x : Sem) : (s.setSem n x).ctxs = s.ctxs := rfl
@[simp] theorem State.setSem_tier (n : Nat) (x : Sem) : (s.setSem n x).tier = s.tier := rfl
@[simp] theorem State.setSem_coding (n : Nat) (x : Sem) : (s.setSem n x).coding = s.coding := rfl
@[simp] theorem State.setSem_parts (n : Nat) (x : Sem) : (s.setSem n x).parts = s.parts := rfl
@[simp] theorem State.setSem_radio (n : Nat) (x : Sem) : (s.setSem n x).radio = s.radio := rfl
@[simp] theorem State.setSem_serve (n : Nat) (x : Sem) : (s.setSem n x).serve = s.serve := rfl
@[simp] theorem State.setSem_records (n : Nat) (x : Sem) : (s.setSem n x).records = s.records := rfl
@[simp] theorem State.setSem_eth (n : Nat) (x : Sem) : (s.setSem n x).eth = s.eth := rfl
@[simp] theorem State.setSem_mem (n : Nat) (x : Sem) : (s.setSem n x).mem = s.mem := rfl
@[simp] theorem State.setSem_host (n : Nat) (x : Sem) : (s.setSem n x).host = s.host := rfl
@[simp] theorem State.setSem_mgmt (n : Nat) (x : Sem) : (s.setSem n x).mgmt = s.mgmt := rfl
@[simp] theorem State.setSem_power (n : Nat) (x : Sem) : (s.setSem n x).power = s.power := rfl
@[simp] theorem State.setSem_ras (n : Nat) (x : Sem) : (s.setSem n x).ras = s.ras := rfl
@[simp] theorem State.setSem_twin (n : Nat) (x : Sem) : (s.setSem n x).twin = s.twin := rfl
@[simp] theorem State.setSem_salt (n : Nat) (x : Sem) : (s.setSem n x).salt = s.salt := rfl

@[simp] theorem State.setCtx_pending (k c : Nat) (x : Ctx) : (s.setCtx k c x).pending = s.pending := rfl
@[simp] theorem State.setCtx_out (k c : Nat) (x : Ctx) : (s.setCtx k c x).out = s.out := rfl
@[simp] theorem State.setCtx_freeIx (k c : Nat) (x : Ctx) : (s.setCtx k c x).freeIx = s.freeIx := rfl
@[simp] theorem State.setCtx_regs (k c : Nat) (x : Ctx) : (s.setCtx k c x).regs = s.regs := rfl
@[simp] theorem State.setCtx_latches (k c : Nat) (x : Ctx) : (s.setCtx k c x).latches = s.latches := rfl
@[simp] theorem State.setCtx_resets (k c : Nat) (x : Ctx) : (s.setCtx k c x).resets = s.resets := rfl
@[simp] theorem State.setCtx_plat (k c : Nat) (x : Ctx) : (s.setCtx k c x).plat = s.plat := rfl
@[simp] theorem State.setCtx_fuses (k c : Nat) (x : Ctx) : (s.setCtx k c x).fuses = s.fuses := rfl
@[simp] theorem State.setCtx_time (k c : Nat) (x : Ctx) : (s.setCtx k c x).time = s.time := rfl
@[simp] theorem State.setCtx_cores (k c : Nat) (x : Ctx) : (s.setCtx k c x).cores = s.cores := rfl
@[simp] theorem State.setCtx_fabric (k c : Nat) (x : Ctx) : (s.setCtx k c x).fabric = s.fabric := rfl
@[simp] theorem State.setCtx_sigcs (k c : Nat) (x : Ctx) : (s.setCtx k c x).sigcs = s.sigcs := rfl
@[simp] theorem State.setCtx_sems (k c : Nat) (x : Ctx) : (s.setCtx k c x).sems = s.sems := rfl
@[simp] theorem State.setCtx_tier (k c : Nat) (x : Ctx) : (s.setCtx k c x).tier = s.tier := rfl
@[simp] theorem State.setCtx_coding (k c : Nat) (x : Ctx) : (s.setCtx k c x).coding = s.coding := rfl
@[simp] theorem State.setCtx_parts (k c : Nat) (x : Ctx) : (s.setCtx k c x).parts = s.parts := rfl
@[simp] theorem State.setCtx_radio (k c : Nat) (x : Ctx) : (s.setCtx k c x).radio = s.radio := rfl
@[simp] theorem State.setCtx_serve (k c : Nat) (x : Ctx) : (s.setCtx k c x).serve = s.serve := rfl
@[simp] theorem State.setCtx_records (k c : Nat) (x : Ctx) : (s.setCtx k c x).records = s.records := rfl
@[simp] theorem State.setCtx_eth (k c : Nat) (x : Ctx) : (s.setCtx k c x).eth = s.eth := rfl
@[simp] theorem State.setCtx_mem (k c : Nat) (x : Ctx) : (s.setCtx k c x).mem = s.mem := rfl
@[simp] theorem State.setCtx_host (k c : Nat) (x : Ctx) : (s.setCtx k c x).host = s.host := rfl
@[simp] theorem State.setCtx_mgmt (k c : Nat) (x : Ctx) : (s.setCtx k c x).mgmt = s.mgmt := rfl
@[simp] theorem State.setCtx_power (k c : Nat) (x : Ctx) : (s.setCtx k c x).power = s.power := rfl
@[simp] theorem State.setCtx_ras (k c : Nat) (x : Ctx) : (s.setCtx k c x).ras = s.ras := rfl
@[simp] theorem State.setCtx_twin (k c : Nat) (x : Ctx) : (s.setCtx k c x).twin = s.twin := rfl
@[simp] theorem State.setCtx_salt (k c : Nat) (x : Ctx) : (s.setCtx k c x).salt = s.salt := rfl

@[simp] theorem State.emit_out (e : Emission) : (s.emit e).out = s.out ++ [e] := rfl
@[simp] theorem State.usedFree_freeIx (n : Nat) : (s.usedFree n).freeIx = s.freeIx + n := rfl
@[simp] theorem State.setReg_regs (p : Page) (f : RegField) (v i : Nat) : (s.setReg p f v i).regs = fieldSet p f i v s.regs := rfl

@[simp] theorem State.core_setCore_same (c : Nat) (x : Core) : (s.setCore c x).core c = x := tabGet_put_same _ _ _ _
theorem State.core_setCore_other {c d : Nat} (h : d ≠ c) (x : Core) : (s.setCore c x).core d = s.core d := tabGet_put_other _ _ h _ _
@[simp] theorem State.core_modCore_same (c : Nat) (f : Core → Core) : (s.modCore c f).core c = f (s.core c) := tabGet_put_same _ _ _ _
theorem State.core_modCore_other {c d : Nat} (h : d ≠ c) (f : Core → Core) : (s.modCore c f).core d = s.core d := tabGet_put_other _ _ h _ _
@[simp] theorem State.sigc_setSigc_same (k : Nat) (x : Sigc) : (s.setSigc k x).sigc k = x := tabGet_put_same _ _ _ _
theorem State.sigc_setSigc_other {k d : Nat} (h : d ≠ k) (x : Sigc) : (s.setSigc k x).sigc d = s.sigc d := tabGet_put_other _ _ h _ _
@[simp] theorem State.sem_setSem_same (n : Nat) (x : Sem) : (s.setSem n x).sem n = x := tabGet_put_same _ _ _ _
theorem State.sem_setSem_other {n d : Nat} (h : d ≠ n) (x : Sem) : (s.setSem n x).sem d = s.sem d := tabGet_put_other _ _ h _ _
@[simp] theorem State.ctx_setCtx_same (k c : Nat) (x : Ctx) : (s.setCtx k c x).ctx k c = x := tabGet_put_same _ _ _ _

@[simp] theorem State.signal_pending (b : Bool) (fn v : Nat) : (s.signal b fn v).pending = s.pending := (State.signal_only ..).pending
@[simp] theorem State.signal_freeIx (b : Bool) (fn v : Nat) : (s.signal b fn v).freeIx = s.freeIx := (State.signal_only ..).freeIx rfl
@[simp] theorem State.signal_regs (b : Bool) (fn v : Nat) : (s.signal b fn v).regs = s.regs := (State.signal_only ..).regs rfl
@[simp] theorem State.signal_latches (b : Bool) (fn v : Nat) : (s.signal b fn v).latches = s.latches := (State.signal_only ..).latches rfl
@[simp] theorem State.signal_resets (b : Bool) (fn v : Nat) : (s.signal b fn v).resets = s.resets := (State.signal_only ..).resets rfl
@[simp] theorem State.signal_plat (b : Bool) (fn v : Nat) : (s.signal b fn v).plat = s.plat := (State.signal_only ..).plat rfl
@[simp] theorem State.signal_fuses (b : Bool) (fn v : Nat) : (s.signal b fn v).fuses = s.fuses := (State.signal_only ..).fuses rfl
@[simp] theorem State.signal_time (b : Bool) (fn v : Nat) : (s.signal b fn v).time = s.time := (State.signal_only ..).time rfl
@[simp] theorem State.signal_cores (b : Bool) (fn v : Nat) : (s.signal b fn v).cores = s.cores := (State.signal_only ..).cores rfl
@[simp] theorem State.signal_fabric (b : Bool) (fn v : Nat) : (s.signal b fn v).fabric = s.fabric := (State.signal_only ..).fabric rfl
@[simp] theorem State.signal_sigcs (b : Bool) (fn v : Nat) : (s.signal b fn v).sigcs = s.sigcs := (State.signal_only ..).sigcs rfl
@[simp] theorem State.signal_sems (b : Bool) (fn v : Nat) : (s.signal b fn v).sems = s.sems := (State.signal_only ..).sems rfl
@[simp] theorem State.signal_ctxs (b : Bool) (fn v : Nat) : (s.signal b fn v).ctxs = s.ctxs := (State.signal_only ..).ctxs rfl
@[simp] theorem State.signal_tier (b : Bool) (fn v : Nat) : (s.signal b fn v).tier = s.tier := (State.signal_only ..).tier rfl
@[simp] theorem State.signal_coding (b : Bool) (fn v : Nat) : (s.signal b fn v).coding = s.coding := (State.signal_only ..).coding rfl
@[simp] theorem State.signal_parts (b : Bool) (fn v : Nat) : (s.signal b fn v).parts = s.parts := (State.signal_only ..).parts rfl
@[simp] theorem State.signal_radio (b : Bool) (fn v : Nat) : (s.signal b fn v).radio = s.radio := (State.signal_only ..).radio rfl
@[simp] theorem State.signal_serve (b : Bool) (fn v : Nat) : (s.signal b fn v).serve = s.serve := (State.signal_only ..).serve rfl
@[simp] theorem State.signal_records (b : Bool) (fn v : Nat) : (s.signal b fn v).records = s.records := (State.signal_only ..).records rfl
@[simp] theorem State.signal_eth (b : Bool) (fn v : Nat) : (s.signal b fn v).eth = s.eth := (State.signal_only ..).eth rfl
@[simp] theorem State.signal_mem (b : Bool) (fn v : Nat) : (s.signal b fn v).mem = s.mem := (State.signal_only ..).mem rfl
@[simp] theorem State.signal_mgmt (b : Bool) (fn v : Nat) : (s.signal b fn v).mgmt = s.mgmt := (State.signal_only ..).mgmt rfl
@[simp] theorem State.signal_power (b : Bool) (fn v : Nat) : (s.signal b fn v).power = s.power := (State.signal_only ..).power rfl
@[simp] theorem State.signal_ras (b : Bool) (fn v : Nat) : (s.signal b fn v).ras = s.ras := (State.signal_only ..).ras rfl
@[simp] theorem State.signal_twin (b : Bool) (fn v : Nat) : (s.signal b fn v).twin = s.twin := (State.signal_only ..).twin rfl
@[simp] theorem State.signal_salt (b : Bool) (fn v : Nat) : (s.signal b fn v).salt = s.salt := (State.signal_only ..).salt rfl

@[simp] theorem State.tellLead_pending (b : Bool) : (s.tellLead b).pending = s.pending := (State.tellLead_only ..).pending
@[simp] theorem State.tellLead_freeIx (b : Bool) : (s.tellLead b).freeIx = s.freeIx := (State.tellLead_only ..).freeIx rfl
@[simp] theorem State.tellLead_regs (b : Bool) : (s.tellLead b).regs = s.regs := (State.tellLead_only ..).regs rfl
@[simp] theorem State.tellLead_latches (b : Bool) : (s.tellLead b).latches = s.latches := (State.tellLead_only ..).latches rfl
@[simp] theorem State.tellLead_resets (b : Bool) : (s.tellLead b).resets = s.resets := (State.tellLead_only ..).resets rfl
@[simp] theorem State.tellLead_plat (b : Bool) : (s.tellLead b).plat = s.plat := (State.tellLead_only ..).plat rfl
@[simp] theorem State.tellLead_fuses (b : Bool) : (s.tellLead b).fuses = s.fuses := (State.tellLead_only ..).fuses rfl
@[simp] theorem State.tellLead_time (b : Bool) : (s.tellLead b).time = s.time := (State.tellLead_only ..).time rfl
@[simp] theorem State.tellLead_cores (b : Bool) : (s.tellLead b).cores = s.cores := (State.tellLead_only ..).cores rfl
@[simp] theorem State.tellLead_fabric (b : Bool) : (s.tellLead b).fabric = s.fabric := (State.tellLead_only ..).fabric rfl
@[simp] theorem State.tellLead_sigcs (b : Bool) : (s.tellLead b).sigcs = s.sigcs := (State.tellLead_only ..).sigcs rfl
@[simp] theorem State.tellLead_sems (b : Bool) : (s.tellLead b).sems = s.sems := (State.tellLead_only ..).sems rfl
@[simp] theorem State.tellLead_ctxs (b : Bool) : (s.tellLead b).ctxs = s.ctxs := (State.tellLead_only ..).ctxs rfl
@[simp] theorem State.tellLead_tier (b : Bool) : (s.tellLead b).tier = s.tier := (State.tellLead_only ..).tier rfl
@[simp] theorem State.tellLead_coding (b : Bool) : (s.tellLead b).coding = s.coding := (State.tellLead_only ..).coding rfl
@[simp] theorem State.tellLead_parts (b : Bool) : (s.tellLead b).parts = s.parts := (State.tellLead_only ..).parts rfl
@[simp] theorem State.tellLead_radio (b : Bool) : (s.tellLead b).radio = s.radio := (State.tellLead_only ..).radio rfl
@[simp] theorem State.tellLead_serve (b : Bool) : (s.tellLead b).serve = s.serve := (State.tellLead_only ..).serve rfl
@[simp] theorem State.tellLead_records (b : Bool) : (s.tellLead b).records = s.records := (State.tellLead_only ..).records rfl
@[simp] theorem State.tellLead_eth (b : Bool) : (s.tellLead b).eth = s.eth := (State.tellLead_only ..).eth rfl
@[simp] theorem State.tellLead_mem (b : Bool) : (s.tellLead b).mem = s.mem := (State.tellLead_only ..).mem rfl
@[simp] theorem State.tellLead_host (b : Bool) : (s.tellLead b).host = s.host := (State.tellLead_only ..).host rfl
@[simp] theorem State.tellLead_mgmt (b : Bool) : (s.tellLead b).mgmt = s.mgmt := (State.tellLead_only ..).mgmt rfl
@[simp] theorem State.tellLead_power (b : Bool) : (s.tellLead b).power = s.power := (State.tellLead_only ..).power rfl
@[simp] theorem State.tellLead_ras (b : Bool) : (s.tellLead b).ras = s.ras := (State.tellLead_only ..).ras rfl
@[simp] theorem State.tellLead_twin (b : Bool) : (s.tellLead b).twin = s.twin := (State.tellLead_only ..).twin rfl
@[simp] theorem State.tellLead_salt (b : Bool) : (s.tellLead b).salt = s.salt := (State.tellLead_only ..).salt rfl

@[simp] theorem State.raiseBits_pending (p : Page) (bits : Nat) : (s.raiseBits p bits).pending = s.pending := (State.raiseBits_only ..).pending
@[simp] theorem State.raiseBits_freeIx (p : Page) (bits : Nat) : (s.raiseBits p bits).freeIx = s.freeIx := (State.raiseBits_only ..).freeIx rfl
@[simp] theorem State.raiseBits_latches (p : Page) (bits : Nat) : (s.raiseBits p bits).latches = s.latches := (State.raiseBits_only ..).latches rfl
@[simp] theorem State.raiseBits_resets (p : Page) (bits : Nat) : (s.raiseBits p bits).resets = s.resets := (State.raiseBits_only ..).resets rfl
@[simp] theorem State.raiseBits_plat (p : Page) (bits : Nat) : (s.raiseBits p bits).plat = s.plat := (State.raiseBits_only ..).plat rfl
@[simp] theorem State.raiseBits_fuses (p : Page) (bits : Nat) : (s.raiseBits p bits).fuses = s.fuses := (State.raiseBits_only ..).fuses rfl
@[simp] theorem State.raiseBits_time (p : Page) (bits : Nat) : (s.raiseBits p bits).time = s.time := (State.raiseBits_only ..).time rfl
@[simp] theorem State.raiseBits_cores (p : Page) (bits : Nat) : (s.raiseBits p bits).cores = s.cores := (State.raiseBits_only ..).cores rfl
@[simp] theorem State.raiseBits_fabric (p : Page) (bits : Nat) : (s.raiseBits p bits).fabric = s.fabric := (State.raiseBits_only ..).fabric rfl
@[simp] theorem State.raiseBits_sigcs (p : Page) (bits : Nat) : (s.raiseBits p bits).sigcs = s.sigcs := (State.raiseBits_only ..).sigcs rfl
@[simp] theorem State.raiseBits_sems (p : Page) (bits : Nat) : (s.raiseBits p bits).sems = s.sems := (State.raiseBits_only ..).sems rfl
@[simp] theorem State.raiseBits_ctxs (p : Page) (bits : Nat) : (s.raiseBits p bits).ctxs = s.ctxs := (State.raiseBits_only ..).ctxs rfl
@[simp] theorem State.raiseBits_tier (p : Page) (bits : Nat) : (s.raiseBits p bits).tier = s.tier := (State.raiseBits_only ..).tier rfl
@[simp] theorem State.raiseBits_coding (p : Page) (bits : Nat) : (s.raiseBits p bits).coding = s.coding := (State.raiseBits_only ..).coding rfl
@[simp] theorem State.raiseBits_parts (p : Page) (bits : Nat) : (s.raiseBits p bits).parts = s.parts := (State.raiseBits_only ..).parts rfl
@[simp] theorem State.raiseBits_radio (p : Page) (bits : Nat) : (s.raiseBits p bits).radio = s.radio := (State.raiseBits_only ..).radio rfl
@[simp] theorem State.raiseBits_serve (p : Page) (bits : Nat) : (s.raiseBits p bits).serve = s.serve := (State.raiseBits_only ..).serve rfl
@[simp] theorem State.raiseBits_records (p : Page) (bits : Nat) : (s.raiseBits p bits).records = s.records := (State.raiseBits_only ..).records rfl
@[simp] theorem State.raiseBits_eth (p : Page) (bits : Nat) : (s.raiseBits p bits).eth = s.eth := (State.raiseBits_only ..).eth rfl
@[simp] theorem State.raiseBits_mem (p : Page) (bits : Nat) : (s.raiseBits p bits).mem = s.mem := (State.raiseBits_only ..).mem rfl
@[simp] theorem State.raiseBits_mgmt (p : Page) (bits : Nat) : (s.raiseBits p bits).mgmt = s.mgmt := (State.raiseBits_only ..).mgmt rfl
@[simp] theorem State.raiseBits_power (p : Page) (bits : Nat) : (s.raiseBits p bits).power = s.power := (State.raiseBits_only ..).power rfl
@[simp] theorem State.raiseBits_ras (p : Page) (bits : Nat) : (s.raiseBits p bits).ras = s.ras := (State.raiseBits_only ..).ras rfl
@[simp] theorem State.raiseBits_twin (p : Page) (bits : Nat) : (s.raiseBits p bits).twin = s.twin := (State.raiseBits_only ..).twin rfl
@[simp] theorem State.raiseBits_salt (p : Page) (bits : Nat) : (s.raiseBits p bits).salt = s.salt := (State.raiseBits_only ..).salt rfl

@[simp] theorem State.raise_pending (p : Page) (b : Nat) : (s.raise p b).pending = s.pending := (State.raise_only ..).pending
@[simp] theorem State.raise_freeIx (p : Page) (b : Nat) : (s.raise p b).freeIx = s.freeIx := (State.raise_only ..).freeIx rfl
@[simp] theorem State.raise_latches (p : Page) (b : Nat) : (s.raise p b).latches = s.latches := (State.raise_only ..).latches rfl
@[simp] theorem State.raise_resets (p : Page) (b : Nat) : (s.raise p b).resets = s.resets := (State.raise_only ..).resets rfl
@[simp] theorem State.raise_plat (p : Page) (b : Nat) : (s.raise p b).plat = s.plat := (State.raise_only ..).plat rfl
@[simp] theorem State.raise_fuses (p : Page) (b : Nat) : (s.raise p b).fuses = s.fuses := (State.raise_only ..).fuses rfl
@[simp] theorem State.raise_time (p : Page) (b : Nat) : (s.raise p b).time = s.time := (State.raise_only ..).time rfl
@[simp] theorem State.raise_cores (p : Page) (b : Nat) : (s.raise p b).cores = s.cores := (State.raise_only ..).cores rfl
@[simp] theorem State.raise_fabric (p : Page) (b : Nat) : (s.raise p b).fabric = s.fabric := (State.raise_only ..).fabric rfl
@[simp] theorem State.raise_sigcs (p : Page) (b : Nat) : (s.raise p b).sigcs = s.sigcs := (State.raise_only ..).sigcs rfl
@[simp] theorem State.raise_sems (p : Page) (b : Nat) : (s.raise p b).sems = s.sems := (State.raise_only ..).sems rfl
@[simp] theorem State.raise_ctxs (p : Page) (b : Nat) : (s.raise p b).ctxs = s.ctxs := (State.raise_only ..).ctxs rfl
@[simp] theorem State.raise_tier (p : Page) (b : Nat) : (s.raise p b).tier = s.tier := (State.raise_only ..).tier rfl
@[simp] theorem State.raise_coding (p : Page) (b : Nat) : (s.raise p b).coding = s.coding := (State.raise_only ..).coding rfl
@[simp] theorem State.raise_parts (p : Page) (b : Nat) : (s.raise p b).parts = s.parts := (State.raise_only ..).parts rfl
@[simp] theorem State.raise_radio (p : Page) (b : Nat) : (s.raise p b).radio = s.radio := (State.raise_only ..).radio rfl
@[simp] theorem State.raise_serve (p : Page) (b : Nat) : (s.raise p b).serve = s.serve := (State.raise_only ..).serve rfl
@[simp] theorem State.raise_records (p : Page) (b : Nat) : (s.raise p b).records = s.records := (State.raise_only ..).records rfl
@[simp] theorem State.raise_eth (p : Page) (b : Nat) : (s.raise p b).eth = s.eth := (State.raise_only ..).eth rfl
@[simp] theorem State.raise_mem (p : Page) (b : Nat) : (s.raise p b).mem = s.mem := (State.raise_only ..).mem rfl
@[simp] theorem State.raise_mgmt (p : Page) (b : Nat) : (s.raise p b).mgmt = s.mgmt := (State.raise_only ..).mgmt rfl
@[simp] theorem State.raise_power (p : Page) (b : Nat) : (s.raise p b).power = s.power := (State.raise_only ..).power rfl
@[simp] theorem State.raise_ras (p : Page) (b : Nat) : (s.raise p b).ras = s.ras := (State.raise_only ..).ras rfl
@[simp] theorem State.raise_twin (p : Page) (b : Nat) : (s.raise p b).twin = s.twin := (State.raise_only ..).twin rfl
@[simp] theorem State.raise_salt (p : Page) (b : Nat) : (s.raise p b).salt = s.salt := (State.raise_only ..).salt rfl

@[simp] theorem State.countErrors_pending (p : Page) (n : Nat) : (s.countErrors p n).pending = s.pending := (State.countErrors_only ..).pending
@[simp] theorem State.countErrors_freeIx (p : Page) (n : Nat) : (s.countErrors p n).freeIx = s.freeIx := (State.countErrors_only ..).freeIx rfl
@[simp] theorem State.countErrors_latches (p : Page) (n : Nat) : (s.countErrors p n).latches = s.latches := (State.countErrors_only ..).latches rfl
@[simp] theorem State.countErrors_resets (p : Page) (n : Nat) : (s.countErrors p n).resets = s.resets := (State.countErrors_only ..).resets rfl
@[simp] theorem State.countErrors_plat (p : Page) (n : Nat) : (s.countErrors p n).plat = s.plat := (State.countErrors_only ..).plat rfl
@[simp] theorem State.countErrors_fuses (p : Page) (n : Nat) : (s.countErrors p n).fuses = s.fuses := (State.countErrors_only ..).fuses rfl
@[simp] theorem State.countErrors_time (p : Page) (n : Nat) : (s.countErrors p n).time = s.time := (State.countErrors_only ..).time rfl
@[simp] theorem State.countErrors_cores (p : Page) (n : Nat) : (s.countErrors p n).cores = s.cores := (State.countErrors_only ..).cores rfl
@[simp] theorem State.countErrors_fabric (p : Page) (n : Nat) : (s.countErrors p n).fabric = s.fabric := (State.countErrors_only ..).fabric rfl
@[simp] theorem State.countErrors_sigcs (p : Page) (n : Nat) : (s.countErrors p n).sigcs = s.sigcs := (State.countErrors_only ..).sigcs rfl
@[simp] theorem State.countErrors_sems (p : Page) (n : Nat) : (s.countErrors p n).sems = s.sems := (State.countErrors_only ..).sems rfl
@[simp] theorem State.countErrors_ctxs (p : Page) (n : Nat) : (s.countErrors p n).ctxs = s.ctxs := (State.countErrors_only ..).ctxs rfl
@[simp] theorem State.countErrors_tier (p : Page) (n : Nat) : (s.countErrors p n).tier = s.tier := (State.countErrors_only ..).tier rfl
@[simp] theorem State.countErrors_coding (p : Page) (n : Nat) : (s.countErrors p n).coding = s.coding := (State.countErrors_only ..).coding rfl
@[simp] theorem State.countErrors_parts (p : Page) (n : Nat) : (s.countErrors p n).parts = s.parts := (State.countErrors_only ..).parts rfl
@[simp] theorem State.countErrors_radio (p : Page) (n : Nat) : (s.countErrors p n).radio = s.radio := (State.countErrors_only ..).radio rfl
@[simp] theorem State.countErrors_serve (p : Page) (n : Nat) : (s.countErrors p n).serve = s.serve := (State.countErrors_only ..).serve rfl
@[simp] theorem State.countErrors_records (p : Page) (n : Nat) : (s.countErrors p n).records = s.records := (State.countErrors_only ..).records rfl
@[simp] theorem State.countErrors_eth (p : Page) (n : Nat) : (s.countErrors p n).eth = s.eth := (State.countErrors_only ..).eth rfl
@[simp] theorem State.countErrors_mem (p : Page) (n : Nat) : (s.countErrors p n).mem = s.mem := (State.countErrors_only ..).mem rfl
@[simp] theorem State.countErrors_mgmt (p : Page) (n : Nat) : (s.countErrors p n).mgmt = s.mgmt := (State.countErrors_only ..).mgmt rfl
@[simp] theorem State.countErrors_power (p : Page) (n : Nat) : (s.countErrors p n).power = s.power := (State.countErrors_only ..).power rfl
@[simp] theorem State.countErrors_ras (p : Page) (n : Nat) : (s.countErrors p n).ras = s.ras := (State.countErrors_only ..).ras rfl
@[simp] theorem State.countErrors_twin (p : Page) (n : Nat) : (s.countErrors p n).twin = s.twin := (State.countErrors_only ..).twin rfl
@[simp] theorem State.countErrors_salt (p : Page) (n : Nat) : (s.countErrors p n).salt = s.salt := (State.countErrors_only ..).salt rfl

@[simp] theorem State.capture_pending (p : Page) (c u d : Nat) : (s.capture p c u d).pending = s.pending := (State.capture_only ..).pending
@[simp] theorem State.capture_out (p : Page) (c u d : Nat) : (s.capture p c u d).out = s.out := (State.capture_only ..).out rfl
@[simp] theorem State.capture_freeIx (p : Page) (c u d : Nat) : (s.capture p c u d).freeIx = s.freeIx := (State.capture_only ..).freeIx rfl
@[simp] theorem State.capture_latches (p : Page) (c u d : Nat) : (s.capture p c u d).latches = s.latches := (State.capture_only ..).latches rfl
@[simp] theorem State.capture_resets (p : Page) (c u d : Nat) : (s.capture p c u d).resets = s.resets := (State.capture_only ..).resets rfl
@[simp] theorem State.capture_plat (p : Page) (c u d : Nat) : (s.capture p c u d).plat = s.plat := (State.capture_only ..).plat rfl
@[simp] theorem State.capture_fuses (p : Page) (c u d : Nat) : (s.capture p c u d).fuses = s.fuses := (State.capture_only ..).fuses rfl
@[simp] theorem State.capture_time (p : Page) (c u d : Nat) : (s.capture p c u d).time = s.time := (State.capture_only ..).time rfl
@[simp] theorem State.capture_cores (p : Page) (c u d : Nat) : (s.capture p c u d).cores = s.cores := (State.capture_only ..).cores rfl
@[simp] theorem State.capture_fabric (p : Page) (c u d : Nat) : (s.capture p c u d).fabric = s.fabric := (State.capture_only ..).fabric rfl
@[simp] theorem State.capture_sigcs (p : Page) (c u d : Nat) : (s.capture p c u d).sigcs = s.sigcs := (State.capture_only ..).sigcs rfl
@[simp] theorem State.capture_sems (p : Page) (c u d : Nat) : (s.capture p c u d).sems = s.sems := (State.capture_only ..).sems rfl
@[simp] theorem State.capture_ctxs (p : Page) (c u d : Nat) : (s.capture p c u d).ctxs = s.ctxs := (State.capture_only ..).ctxs rfl
@[simp] theorem State.capture_tier (p : Page) (c u d : Nat) : (s.capture p c u d).tier = s.tier := (State.capture_only ..).tier rfl
@[simp] theorem State.capture_coding (p : Page) (c u d : Nat) : (s.capture p c u d).coding = s.coding := (State.capture_only ..).coding rfl
@[simp] theorem State.capture_parts (p : Page) (c u d : Nat) : (s.capture p c u d).parts = s.parts := (State.capture_only ..).parts rfl
@[simp] theorem State.capture_radio (p : Page) (c u d : Nat) : (s.capture p c u d).radio = s.radio := (State.capture_only ..).radio rfl
@[simp] theorem State.capture_serve (p : Page) (c u d : Nat) : (s.capture p c u d).serve = s.serve := (State.capture_only ..).serve rfl
@[simp] theorem State.capture_records (p : Page) (c u d : Nat) : (s.capture p c u d).records = s.records := (State.capture_only ..).records rfl
@[simp] theorem State.capture_eth (p : Page) (c u d : Nat) : (s.capture p c u d).eth = s.eth := (State.capture_only ..).eth rfl
@[simp] theorem State.capture_mem (p : Page) (c u d : Nat) : (s.capture p c u d).mem = s.mem := (State.capture_only ..).mem rfl
@[simp] theorem State.capture_host (p : Page) (c u d : Nat) : (s.capture p c u d).host = s.host := (State.capture_only ..).host rfl
@[simp] theorem State.capture_mgmt (p : Page) (c u d : Nat) : (s.capture p c u d).mgmt = s.mgmt := (State.capture_only ..).mgmt rfl
@[simp] theorem State.capture_power (p : Page) (c u d : Nat) : (s.capture p c u d).power = s.power := (State.capture_only ..).power rfl
@[simp] theorem State.capture_ras (p : Page) (c u d : Nat) : (s.capture p c u d).ras = s.ras := (State.capture_only ..).ras rfl
@[simp] theorem State.capture_twin (p : Page) (c u d : Nat) : (s.capture p c u d).twin = s.twin := (State.capture_only ..).twin rfl
@[simp] theorem State.capture_salt (p : Page) (c u d : Nat) : (s.capture p c u d).salt = s.salt := (State.capture_only ..).salt rfl

@[simp] theorem State.error_pending (p : Page) (c u d : Nat) : (s.error p c u d).pending = s.pending := (State.error_only ..).pending
@[simp] theorem State.error_freeIx (p : Page) (c u d : Nat) : (s.error p c u d).freeIx = s.freeIx := (State.error_only ..).freeIx rfl
@[simp] theorem State.error_latches (p : Page) (c u d : Nat) : (s.error p c u d).latches = s.latches := (State.error_only ..).latches rfl
@[simp] theorem State.error_resets (p : Page) (c u d : Nat) : (s.error p c u d).resets = s.resets := (State.error_only ..).resets rfl
@[simp] theorem State.error_plat (p : Page) (c u d : Nat) : (s.error p c u d).plat = s.plat := (State.error_only ..).plat rfl
@[simp] theorem State.error_fuses (p : Page) (c u d : Nat) : (s.error p c u d).fuses = s.fuses := (State.error_only ..).fuses rfl
@[simp] theorem State.error_time (p : Page) (c u d : Nat) : (s.error p c u d).time = s.time := (State.error_only ..).time rfl
@[simp] theorem State.error_cores (p : Page) (c u d : Nat) : (s.error p c u d).cores = s.cores := (State.error_only ..).cores rfl
@[simp] theorem State.error_fabric (p : Page) (c u d : Nat) : (s.error p c u d).fabric = s.fabric := (State.error_only ..).fabric rfl
@[simp] theorem State.error_sigcs (p : Page) (c u d : Nat) : (s.error p c u d).sigcs = s.sigcs := (State.error_only ..).sigcs rfl
@[simp] theorem State.error_sems (p : Page) (c u d : Nat) : (s.error p c u d).sems = s.sems := (State.error_only ..).sems rfl
@[simp] theorem State.error_ctxs (p : Page) (c u d : Nat) : (s.error p c u d).ctxs = s.ctxs := (State.error_only ..).ctxs rfl
@[simp] theorem State.error_tier (p : Page) (c u d : Nat) : (s.error p c u d).tier = s.tier := (State.error_only ..).tier rfl
@[simp] theorem State.error_coding (p : Page) (c u d : Nat) : (s.error p c u d).coding = s.coding := (State.error_only ..).coding rfl
@[simp] theorem State.error_parts (p : Page) (c u d : Nat) : (s.error p c u d).parts = s.parts := (State.error_only ..).parts rfl
@[simp] theorem State.error_radio (p : Page) (c u d : Nat) : (s.error p c u d).radio = s.radio := (State.error_only ..).radio rfl
@[simp] theorem State.error_serve (p : Page) (c u d : Nat) : (s.error p c u d).serve = s.serve := (State.error_only ..).serve rfl
@[simp] theorem State.error_records (p : Page) (c u d : Nat) : (s.error p c u d).records = s.records := (State.error_only ..).records rfl
@[simp] theorem State.error_eth (p : Page) (c u d : Nat) : (s.error p c u d).eth = s.eth := (State.error_only ..).eth rfl
@[simp] theorem State.error_mem (p : Page) (c u d : Nat) : (s.error p c u d).mem = s.mem := (State.error_only ..).mem rfl
@[simp] theorem State.error_mgmt (p : Page) (c u d : Nat) : (s.error p c u d).mgmt = s.mgmt := (State.error_only ..).mgmt rfl
@[simp] theorem State.error_power (p : Page) (c u d : Nat) : (s.error p c u d).power = s.power := (State.error_only ..).power rfl
@[simp] theorem State.error_ras (p : Page) (c u d : Nat) : (s.error p c u d).ras = s.ras := (State.error_only ..).ras rfl
@[simp] theorem State.error_twin (p : Page) (c u d : Nat) : (s.error p c u d).twin = s.twin := (State.error_only ..).twin rfl
@[simp] theorem State.error_salt (p : Page) (c u d : Nat) : (s.error p c u d).salt = s.salt := (State.error_only ..).salt rfl

@[simp] theorem State.bump_pending (p : Page) (f : RegField) (n i : Nat) : (s.bump p f n i).pending = s.pending := (State.bump_only ..).pending
@[simp] theorem State.bump_out (p : Page) (f : RegField) (n i : Nat) : (s.bump p f n i).out = s.out := (State.bump_only ..).out rfl
@[simp] theorem State.bump_freeIx (p : Page) (f : RegField) (n i : Nat) : (s.bump p f n i).freeIx = s.freeIx := (State.bump_only ..).freeIx rfl
@[simp] theorem State.bump_latches (p : Page) (f : RegField) (n i : Nat) : (s.bump p f n i).latches = s.latches := (State.bump_only ..).latches rfl
@[simp] theorem State.bump_resets (p : Page) (f : RegField) (n i : Nat) : (s.bump p f n i).resets = s.resets := (State.bump_only ..).resets rfl
@[simp] theorem State.bump_plat (p : Page) (f : RegField) (n i : Nat) : (s.bump p f n i).plat = s.plat := (State.bump_only ..).plat rfl
@[simp] theorem State.bump_fuses (p : Page) (f : RegField) (n i : Nat) : (s.bump p f n i).fuses = s.fuses := (State.bump_only ..).fuses rfl
@[simp] theorem State.bump_time (p : Page) (f : RegField) (n i : Nat) : (s.bump p f n i).time = s.time := (State.bump_only ..).time rfl
@[simp] theorem State.bump_cores (p : Page) (f : RegField) (n i : Nat) : (s.bump p f n i).cores = s.cores := (State.bump_only ..).cores rfl
@[simp] theorem State.bump_fabric (p : Page) (f : RegField) (n i : Nat) : (s.bump p f n i).fabric = s.fabric := (State.bump_only ..).fabric rfl
@[simp] theorem State.bump_sigcs (p : Page) (f : RegField) (n i : Nat) : (s.bump p f n i).sigcs = s.sigcs := (State.bump_only ..).sigcs rfl
@[simp] theorem State.bump_sems (p : Page) (f : RegField) (n i : Nat) : (s.bump p f n i).sems = s.sems := (State.bump_only ..).sems rfl
@[simp] theorem State.bump_ctxs (p : Page) (f : RegField) (n i : Nat) : (s.bump p f n i).ctxs = s.ctxs := (State.bump_only ..).ctxs rfl
@[simp] theorem State.bump_tier (p : Page) (f : RegField) (n i : Nat) : (s.bump p f n i).tier = s.tier := (State.bump_only ..).tier rfl
@[simp] theorem State.bump_coding (p : Page) (f : RegField) (n i : Nat) : (s.bump p f n i).coding = s.coding := (State.bump_only ..).coding rfl
@[simp] theorem State.bump_parts (p : Page) (f : RegField) (n i : Nat) : (s.bump p f n i).parts = s.parts := (State.bump_only ..).parts rfl
@[simp] theorem State.bump_radio (p : Page) (f : RegField) (n i : Nat) : (s.bump p f n i).radio = s.radio := (State.bump_only ..).radio rfl
@[simp] theorem State.bump_serve (p : Page) (f : RegField) (n i : Nat) : (s.bump p f n i).serve = s.serve := (State.bump_only ..).serve rfl
@[simp] theorem State.bump_records (p : Page) (f : RegField) (n i : Nat) : (s.bump p f n i).records = s.records := (State.bump_only ..).records rfl
@[simp] theorem State.bump_eth (p : Page) (f : RegField) (n i : Nat) : (s.bump p f n i).eth = s.eth := (State.bump_only ..).eth rfl
@[simp] theorem State.bump_mem (p : Page) (f : RegField) (n i : Nat) : (s.bump p f n i).mem = s.mem := (State.bump_only ..).mem rfl
@[simp] theorem State.bump_host (p : Page) (f : RegField) (n i : Nat) : (s.bump p f n i).host = s.host := (State.bump_only ..).host rfl
@[simp] theorem State.bump_mgmt (p : Page) (f : RegField) (n i : Nat) : (s.bump p f n i).mgmt = s.mgmt := (State.bump_only ..).mgmt rfl
@[simp] theorem State.bump_power (p : Page) (f : RegField) (n i : Nat) : (s.bump p f n i).power = s.power := (State.bump_only ..).power rfl
@[simp] theorem State.bump_ras (p : Page) (f : RegField) (n i : Nat) : (s.bump p f n i).ras = s.ras := (State.bump_only ..).ras rfl
@[simp] theorem State.bump_twin (p : Page) (f : RegField) (n i : Nat) : (s.bump p f n i).twin = s.twin := (State.bump_only ..).twin rfl
@[simp] theorem State.bump_salt (p : Page) (f : RegField) (n i : Nat) : (s.bump p f n i).salt = s.salt := (State.bump_only ..).salt rfl

@[simp] theorem State.addReg_pending (p : Page) (f : RegField) (n i : Nat) : (s.addReg p f n i).pending = s.pending := (State.addReg_only ..).pending
@[simp] theorem State.addReg_out (p : Page) (f : RegField) (n i : Nat) : (s.addReg p f n i).out = s.out := (State.addReg_only ..).out rfl
@[simp] theorem State.addReg_freeIx (p : Page) (f : RegField) (n i : Nat) : (s.addReg p f n i).freeIx = s.freeIx := (State.addReg_only ..).freeIx rfl
@[simp] theorem State.addReg_latches (p : Page) (f : RegField) (n i : Nat) : (s.addReg p f n i).latches = s.latches := (State.addReg_only ..).latches rfl
@[simp] theorem State.addReg_resets (p : Page) (f : RegField) (n i : Nat) : (s.addReg p f n i).resets = s.resets := (State.addReg_only ..).resets rfl
@[simp] theorem State.addReg_plat (p : Page) (f : RegField) (n i : Nat) : (s.addReg p f n i).plat = s.plat := (State.addReg_only ..).plat rfl
@[simp] theorem State.addReg_fuses (p : Page) (f : RegField) (n i : Nat) : (s.addReg p f n i).fuses = s.fuses := (State.addReg_only ..).fuses rfl
@[simp] theorem State.addReg_time (p : Page) (f : RegField) (n i : Nat) : (s.addReg p f n i).time = s.time := (State.addReg_only ..).time rfl
@[simp] theorem State.addReg_cores (p : Page) (f : RegField) (n i : Nat) : (s.addReg p f n i).cores = s.cores := (State.addReg_only ..).cores rfl
@[simp] theorem State.addReg_fabric (p : Page) (f : RegField) (n i : Nat) : (s.addReg p f n i).fabric = s.fabric := (State.addReg_only ..).fabric rfl
@[simp] theorem State.addReg_sigcs (p : Page) (f : RegField) (n i : Nat) : (s.addReg p f n i).sigcs = s.sigcs := (State.addReg_only ..).sigcs rfl
@[simp] theorem State.addReg_sems (p : Page) (f : RegField) (n i : Nat) : (s.addReg p f n i).sems = s.sems := (State.addReg_only ..).sems rfl
@[simp] theorem State.addReg_ctxs (p : Page) (f : RegField) (n i : Nat) : (s.addReg p f n i).ctxs = s.ctxs := (State.addReg_only ..).ctxs rfl
@[simp] theorem State.addReg_tier (p : Page) (f : RegField) (n i : Nat) : (s.addReg p f n i).tier = s.tier := (State.addReg_only ..).tier rfl
@[simp] theorem State.addReg_coding (p : Page) (f : RegField) (n i : Nat) : (s.addReg p f n i).coding = s.coding := (State.addReg_only ..).coding rfl
@[simp] theorem State.addReg_parts (p : Page) (f : RegField) (n i : Nat) : (s.addReg p f n i).parts = s.parts := (State.addReg_only ..).parts rfl
@[simp] theorem State.addReg_radio (p : Page) (f : RegField) (n i : Nat) : (s.addReg p f n i).radio = s.radio := (State.addReg_only ..).radio rfl
@[simp] theorem State.addReg_serve (p : Page) (f : RegField) (n i : Nat) : (s.addReg p f n i).serve = s.serve := (State.addReg_only ..).serve rfl
@[simp] theorem State.addReg_records (p : Page) (f : RegField) (n i : Nat) : (s.addReg p f n i).records = s.records := (State.addReg_only ..).records rfl
@[simp] theorem State.addReg_eth (p : Page) (f : RegField) (n i : Nat) : (s.addReg p f n i).eth = s.eth := (State.addReg_only ..).eth rfl
@[simp] theorem State.addReg_mem (p : Page) (f : RegField) (n i : Nat) : (s.addReg p f n i).mem = s.mem := (State.addReg_only ..).mem rfl
@[simp] theorem State.addReg_host (p : Page) (f : RegField) (n i : Nat) : (s.addReg p f n i).host = s.host := (State.addReg_only ..).host rfl
@[simp] theorem State.addReg_mgmt (p : Page) (f : RegField) (n i : Nat) : (s.addReg p f n i).mgmt = s.mgmt := (State.addReg_only ..).mgmt rfl
@[simp] theorem State.addReg_power (p : Page) (f : RegField) (n i : Nat) : (s.addReg p f n i).power = s.power := (State.addReg_only ..).power rfl
@[simp] theorem State.addReg_ras (p : Page) (f : RegField) (n i : Nat) : (s.addReg p f n i).ras = s.ras := (State.addReg_only ..).ras rfl
@[simp] theorem State.addReg_twin (p : Page) (f : RegField) (n i : Nat) : (s.addReg p f n i).twin = s.twin := (State.addReg_only ..).twin rfl
@[simp] theorem State.addReg_salt (p : Page) (f : RegField) (n i : Nat) : (s.addReg p f n i).salt = s.salt := (State.addReg_only ..).salt rfl

/-- Reading a field just written gives the value, as far as its width holds it. -/
@[simp] theorem fieldGet_set_same (p : Page) (f : RegField) (i v : Nat) (m : RegFile) :
    fieldGet (fieldSet p f i v m) p f i = v % 2 ^ f.len := tabGet_put_same _ _ _ _

/-- A write leaves every field at another position alone. -/
theorem fieldGet_set_other {p q : Page} {f g : RegField} {i j : Nat} (h : fieldBit q g j ≠ fieldBit p f i) (v : Nat) (m : RegFile) :
    fieldGet (fieldSet p f i v m) q g j = fieldGet m q g j := tabGet_put_other _ _ h _ _

@[simp] theorem State.reg_setReg_same (p : Page) (f : RegField) (v i : Nat) : (s.setReg p f v i).reg p f i = v % 2 ^ f.len :=
  fieldGet_set_same p f i v s.regs

theorem State.reg_setReg_other {p q : Page} {f g : RegField} {i j : Nat} (h : fieldBit q g j ≠ fieldBit p f i) (v : Nat) :
    (s.setReg p f v i).reg q g j = s.reg q g j := fieldGet_set_other h v s.regs

/-- Where a field of a page stands: its page's bits, then its own. -/
theorem fieldBit_split (p : Page) (f : RegField) (i : Nat) :
    fieldBit p f i = pageBase p * 8 + ((f.off + f.stride * i) * 8 + f.lo) := by
  unfold fieldBit; omega

/-- Fields of one page at different places have different keys. -/
theorem fieldBit_ne {p : Page} {f g : RegField} {i j : Nat}
    (h : (g.off + g.stride * j) * 8 + g.lo ≠ (f.off + f.stride * i) * 8 + f.lo) : fieldBit p g j ≠ fieldBit p f i := by
  rw [fieldBit_split, fieldBit_split]; omega

@[simp] theorem State.reg_signal (b : Bool) (fn v : Nat) (q : Page) (g : RegField) (j : Nat) : (s.signal b fn v).reg q g j = s.reg q g j := rfl
@[simp] theorem State.reg_tellLead (b : Bool) (q : Page) (g : RegField) (j : Nat) : (s.tellLead b).reg q g j = s.reg q g j := rfl

/-- What raising interrupt bits does to the registers: INT_STATUS takes the bits, and nothing else changes. -/
theorem State.reg_raiseBits (p : Page) (bits : Nat) (q : Page) (g : RegField) (j : Nat) :
    (s.raiseBits p bits).reg q g j = (s.setReg p Rg.pageIntStatus (s.reg p Rg.pageIntStatus ||| bits)).reg q g j := rfl

/-- Raising interrupt bits leaves every other field alone. -/
theorem State.reg_raiseBits_other {p q : Page} {g : RegField} {j : Nat} (h : fieldBit q g j ≠ fieldBit p Rg.pageIntStatus 0) (bits : Nat) :
    (s.raiseBits p bits).reg q g j = s.reg q g j := by
  rw [State.reg_raiseBits, State.reg_setReg_other _ h]

theorem State.reg_raise_other {p q : Page} {g : RegField} {j : Nat} (h : fieldBit q g j ≠ fieldBit p Rg.pageIntStatus 0) (b : Nat) :
    (s.raise p b).reg q g j = s.reg q g j := s.reg_raiseBits_other h _

theorem pageBase_mod (p : Page) : pageBase p % 4096 = 0 := by
  obtain ⟨k, n⟩ := p
  cases k <;> simp only [pageBase] <;> omega

/-- A field of a page that stands above its common header, or stands on another page. -/
def offHeader (p q : Page) (g : RegField) (j : Nat) : Prop :=
  (q = p ∧ 64 ≤ g.off + g.stride * j) ∨ (pageBase p ≠ pageBase q ∧ (g.off + g.stride * j) * 8 + g.lo < 32768)

theorem offHeader_same {p : Page} {g : RegField} {j : Nat} (h : 64 ≤ g.off + g.stride * j) : offHeader p p g j := .inl ⟨rfl, h⟩

theorem offHeader_ne {p q : Page} {f g : RegField} {j : Nat} (h : offHeader p q g j) (hf : f.off * 8 + f.lo < 512) (hs : f.stride = 0) :
    fieldBit q g j ≠ fieldBit p f 0 := by
  rcases h with ⟨rfl, h⟩ | ⟨h, hg⟩
  · rw [fieldBit_split, fieldBit_split, hs]; omega
  · have hp := pageBase_mod p
    have hq := pageBase_mod q
    rw [fieldBit_split, fieldBit_split, hs]; omega

/-- Recording and counting errors and raising interrupts leave every field above the common header alone. -/
theorem State.reg_raiseBits_off {p q : Page} {g : RegField} {j : Nat} (h : offHeader p q g j) (bits : Nat) :
    (s.raiseBits p bits).reg q g j = s.reg q g j := s.reg_raiseBits_other (offHeader_ne h (by decide) rfl) bits

theorem State.reg_raise_off {p q : Page} {g : RegField} {j : Nat} (h : offHeader p q g j) (b : Nat) :
    (s.raise p b).reg q g j = s.reg q g j := s.reg_raiseBits_off h _

theorem State.reg_countErrors_off {p q : Page} {g : RegField} {j : Nat} (h : offHeader p q g j) (n : Nat) :
    (s.countErrors p n).reg q g j = s.reg q g j := by
  unfold State.countErrors State.bump
  rw [State.reg_raiseBits_off _ h, State.reg_setReg_other _ (offHeader_ne h (by decide) rfl)]

theorem State.reg_capture_off {p q : Page} {g : RegField} {j : Nat} (h : offHeader p q g j) (c u d : Nat) :
    (s.capture p c u d).reg q g j = s.reg q g j := by
  unfold State.capture State.reg
  dsimp only
  split
  · rfl
  · iterate 5 rw [fieldGet_set_other (offHeader_ne h (by decide) rfl)]

theorem State.reg_error_off {p q : Page} {g : RegField} {j : Nat} (h : offHeader p q g j) (c u d : Nat) :
    (s.error p c u d).reg q g j = s.reg q g j := by
  unfold State.error
  rw [State.reg_countErrors_off _ h, State.reg_capture_off _ h]

/-- Fields of different pages have different keys. -/
theorem fieldBit_ne_page {p q : Page} {f g : RegField} {i j : Nat} (h : pageBase p ≠ pageBase q)
    (hf : (f.off + f.stride * i) * 8 + f.lo < 32768) (hg : (g.off + g.stride * j) * 8 + g.lo < 32768) :
    fieldBit q g j ≠ fieldBit p f i := by
  have hp := pageBase_mod p
  have hq := pageBase_mod q
  rw [fieldBit_split, fieldBit_split]
  omega

@[simp] theorem State.reg_emit (e : Emission) (q : Page) (g : RegField) (j : Nat) : (s.emit e).reg q g j = s.reg q g j := rfl
@[simp] theorem State.reg_usedFree (n : Nat) (q : Page) (g : RegField) (j : Nat) : (s.usedFree n).reg q g j = s.reg q g j := rfl
@[simp] theorem State.reg_setCore (c : Nat) (x : Core) (q : Page) (g : RegField) (j : Nat) : (s.setCore c x).reg q g j = s.reg q g j := rfl
@[simp] theorem State.reg_modCore (c : Nat) (f : Core → Core) (q : Page) (g : RegField) (j : Nat) : (s.modCore c f).reg q g j = s.reg q g j := rfl
@[simp] theorem State.reg_setSigc (k : Nat) (x : Sigc) (q : Page) (g : RegField) (j : Nat) : (s.setSigc k x).reg q g j = s.reg q g j := rfl
@[simp] theorem State.reg_setSem (n : Nat) (x : Sem) (q : Page) (g : RegField) (j : Nat) : (s.setSem n x).reg q g j = s.reg q g j := rfl
@[simp] theorem State.reg_setCtx (k c : Nat) (x : Ctx) (q : Page) (g : RegField) (j : Nat) : (s.setCtx k c x).reg q g j = s.reg q g j := rfl
@[simp] theorem State.flag_emit (e : Emission) (q : Page) (g : RegField) (j : Nat) : (s.emit e).flag q g j = s.flag q g j := rfl
@[simp] theorem State.flag_usedFree (n : Nat) (q : Page) (g : RegField) (j : Nat) : (s.usedFree n).flag q g j = s.flag q g j := rfl
@[simp] theorem State.flag_setCore (c : Nat) (x : Core) (q : Page) (g : RegField) (j : Nat) : (s.setCore c x).flag q g j = s.flag q g j := rfl
@[simp] theorem State.flag_modCore (c : Nat) (f : Core → Core) (q : Page) (g : RegField) (j : Nat) : (s.modCore c f).flag q g j = s.flag q g j := rfl
@[simp] theorem State.flag_setSigc (k : Nat) (x : Sigc) (q : Page) (g : RegField) (j : Nat) : (s.setSigc k x).flag q g j = s.flag q g j := rfl
@[simp] theorem State.flag_setSem (n : Nat) (x : Sem) (q : Page) (g : RegField) (j : Nat) : (s.setSem n x).flag q g j = s.flag q g j := rfl
@[simp] theorem State.flag_setCtx (k c : Nat) (x : Ctx) (q : Page) (g : RegField) (j : Nat) : (s.setCtx k c x).flag q g j = s.flag q g j := rfl

@[simp] theorem State.core_setReg (p : Page) (f : RegField) (v i : Nat) (d0 : Nat) : (s.setReg p f v i).core d0 = s.core d0 := by unfold State.core; rw [State.setReg_cores]
@[simp] theorem State.core_emit (e : Emission) (d0 : Nat) : (s.emit e).core d0 = s.core d0 := by unfold State.core; rw [State.emit_cores]
@[simp] theorem State.core_usedFree (n : Nat) (d0 : Nat) : (s.usedFree n).core d0 = s.core d0 := by unfold State.core; rw [State.usedFree_cores]
@[simp] theorem State.core_setSigc (k : Nat) (x : Sigc) (d0 : Nat) : (s.setSigc k x).core d0 = s.core d0 := by unfold State.core; rw [State.setSigc_cores]
@[simp] theorem State.core_setSem (n : Nat) (x : Sem) (d0 : Nat) : (s.setSem n x).core d0 = s.core d0 := by unfold State.core; rw [State.setSem_cores]
@[simp] theorem State.core_setCtx (k c : Nat) (x : Ctx) (d0 : Nat) : (s.setCtx k c x).core d0 = s.core d0 := by unfold State.core; rw [State.setCtx_cores]
@[simp] theorem State.core_signal (b : Bool) (fn v : Nat) (d0 : Nat) : (s.signal b fn v).core d0 = s.core d0 := by unfold State.core; rw [State.signal_cores]
@[simp] theorem State.core_tellLead (b : Bool) (d0 : Nat) : (s.tellLead b).core d0 = s.core d0 := by unfold State.core; rw [State.tellLead_cores]
@[simp] theorem State.core_raiseBits (p : Page) (bits : Nat) (d0 : Nat) : (s.raiseBits p bits).core d0 = s.core d0 := by unfold State.core; rw [State.raiseBits_cores]
@[simp] theorem State.core_raise (p : Page) (b : Nat) (d0 : Nat) : (s.raise p b).core d0 = s.core d0 := by unfold State.core; rw [State.raise_cores]
@[simp] theorem State.core_countErrors (p : Page) (n : Nat) (d0 : Nat) : (s.countErrors p n).core d0 = s.core d0 := by unfold State.core; rw [State.countErrors_cores]
@[simp] theorem State.core_capture (p : Page) (c u d : Nat) (d0 : Nat) : (s.capture p c u d).core d0 = s.core d0 := by unfold State.core; rw [State.capture_cores]
@[simp] theorem State.core_error (p : Page) (c u d : Nat) (d0 : Nat) : (s.error p c u d).core d0 = s.core d0 := by unfold State.core; rw [State.error_cores]
@[simp] theorem State.core_bump (p : Page) (f : RegField) (n i : Nat) (d0 : Nat) : (s.bump p f n i).core d0 = s.core d0 := by unfold State.core; rw [State.bump_cores]
@[simp] theorem State.core_addReg (p : Page) (f : RegField) (n i : Nat) (d0 : Nat) : (s.addReg p f n i).core d0 = s.core d0 := by unfold State.core; rw [State.addReg_cores]
@[simp] theorem State.sigc_setReg (p : Page) (f : RegField) (v i : Nat) (d0 : Nat) : (s.setReg p f v i).sigc d0 = s.sigc d0 := by unfold State.sigc; rw [State.setReg_sigcs]
@[simp] theorem State.sigc_emit (e : Emission) (d0 : Nat) : (s.emit e).sigc d0 = s.sigc d0 := by unfold State.sigc; rw [State.emit_sigcs]
@[simp] theorem State.sigc_usedFree (n : Nat) (d0 : Nat) : (s.usedFree n).sigc d0 = s.sigc d0 := by unfold State.sigc; rw [State.usedFree_sigcs]
@[simp] theorem State.sigc_setCore (c : Nat) (x : Core) (d0 : Nat) : (s.setCore c x).sigc d0 = s.sigc d0 := by unfold State.sigc; rw [State.setCore_sigcs]
@[simp] theorem State.sigc_modCore (c : Nat) (f : Core → Core) (d0 : Nat) : (s.modCore c f).sigc d0 = s.sigc d0 := by unfold State.sigc; rw [State.modCore_sigcs]
@[simp] theorem State.sigc_setSem (n : Nat) (x : Sem) (d0 : Nat) : (s.setSem n x).sigc d0 = s.sigc d0 := by unfold State.sigc; rw [State.setSem_sigcs]
@[simp] theorem State.sigc_setCtx (k c : Nat) (x : Ctx) (d0 : Nat) : (s.setCtx k c x).sigc d0 = s.sigc d0 := by unfold State.sigc; rw [State.setCtx_sigcs]
@[simp] theorem State.sigc_signal (b : Bool) (fn v : Nat) (d0 : Nat) : (s.signal b fn v).sigc d0 = s.sigc d0 := by unfold State.sigc; rw [State.signal_sigcs]
@[simp] theorem State.sigc_tellLead (b : Bool) (d0 : Nat) : (s.tellLead b).sigc d0 = s.sigc d0 := by unfold State.sigc; rw [State.tellLead_sigcs]
@[simp] theorem State.sigc_raiseBits (p : Page) (bits : Nat) (d0 : Nat) : (s.raiseBits p bits).sigc d0 = s.sigc d0 := by unfold State.sigc; rw [State.raiseBits_sigcs]
@[simp] theorem State.sigc_raise (p : Page) (b : Nat) (d0 : Nat) : (s.raise p b).sigc d0 = s.sigc d0 := by unfold State.sigc; rw [State.raise_sigcs]
@[simp] theorem State.sigc_countErrors (p : Page) (n : Nat) (d0 : Nat) : (s.countErrors p n).sigc d0 = s.sigc d0 := by unfold State.sigc; rw [State.countErrors_sigcs]
@[simp] theorem State.sigc_capture (p : Page) (c u d : Nat) (d0 : Nat) : (s.capture p c u d).sigc d0 = s.sigc d0 := by unfold State.sigc; rw [State.capture_sigcs]
@[simp] theorem State.sigc_error (p : Page) (c u d : Nat) (d0 : Nat) : (s.error p c u d).sigc d0 = s.sigc d0 := by unfold State.sigc; rw [State.error_sigcs]
@[simp] theorem State.sigc_bump (p : Page) (f : RegField) (n i : Nat) (d0 : Nat) : (s.bump p f n i).sigc d0 = s.sigc d0 := by unfold State.sigc; rw [State.bump_sigcs]
@[simp] theorem State.sigc_addReg (p : Page) (f : RegField) (n i : Nat) (d0 : Nat) : (s.addReg p f n i).sigc d0 = s.sigc d0 := by unfold State.sigc; rw [State.addReg_sigcs]
@[simp] theorem State.sem_setReg (p : Page) (f : RegField) (v i : Nat) (d0 : Nat) : (s.setReg p f v i).sem d0 = s.sem d0 := by unfold State.sem; rw [State.setReg_sems]
@[simp] theorem State.sem_emit (e : Emission) (d0 : Nat) : (s.emit e).sem d0 = s.sem d0 := by unfold State.sem; rw [State.emit_sems]
@[simp] theorem State.sem_usedFree (n : Nat) (d0 : Nat) : (s.usedFree n).sem d0 = s.sem d0 := by unfold State.sem; rw [State.usedFree_sems]
@[simp] theorem State.sem_setCore (c : Nat) (x : Core) (d0 : Nat) : (s.setCore c x).sem d0 = s.sem d0 := by unfold State.sem; rw [State.setCore_sems]
@[simp] theorem State.sem_modCore (c : Nat) (f : Core → Core) (d0 : Nat) : (s.modCore c f).sem d0 = s.sem d0 := by unfold State.sem; rw [State.modCore_sems]
@[simp] theorem State.sem_setSigc (k : Nat) (x : Sigc) (d0 : Nat) : (s.setSigc k x).sem d0 = s.sem d0 := by unfold State.sem; rw [State.setSigc_sems]
@[simp] theorem State.sem_setCtx (k c : Nat) (x : Ctx) (d0 : Nat) : (s.setCtx k c x).sem d0 = s.sem d0 := by unfold State.sem; rw [State.setCtx_sems]
@[simp] theorem State.sem_signal (b : Bool) (fn v : Nat) (d0 : Nat) : (s.signal b fn v).sem d0 = s.sem d0 := by unfold State.sem; rw [State.signal_sems]
@[simp] theorem State.sem_tellLead (b : Bool) (d0 : Nat) : (s.tellLead b).sem d0 = s.sem d0 := by unfold State.sem; rw [State.tellLead_sems]
@[simp] theorem State.sem_raiseBits (p : Page) (bits : Nat) (d0 : Nat) : (s.raiseBits p bits).sem d0 = s.sem d0 := by unfold State.sem; rw [State.raiseBits_sems]
@[simp] theorem State.sem_raise (p : Page) (b : Nat) (d0 : Nat) : (s.raise p b).sem d0 = s.sem d0 := by unfold State.sem; rw [State.raise_sems]
@[simp] theorem State.sem_countErrors (p : Page) (n : Nat) (d0 : Nat) : (s.countErrors p n).sem d0 = s.sem d0 := by unfold State.sem; rw [State.countErrors_sems]
@[simp] theorem State.sem_capture (p : Page) (c u d : Nat) (d0 : Nat) : (s.capture p c u d).sem d0 = s.sem d0 := by unfold State.sem; rw [State.capture_sems]
@[simp] theorem State.sem_error (p : Page) (c u d : Nat) (d0 : Nat) : (s.error p c u d).sem d0 = s.sem d0 := by unfold State.sem; rw [State.error_sems]
@[simp] theorem State.sem_bump (p : Page) (f : RegField) (n i : Nat) (d0 : Nat) : (s.bump p f n i).sem d0 = s.sem d0 := by unfold State.sem; rw [State.bump_sems]
@[simp] theorem State.sem_addReg (p : Page) (f : RegField) (n i : Nat) (d0 : Nat) : (s.addReg p f n i).sem d0 = s.sem d0 := by unfold State.sem; rw [State.addReg_sems]
@[simp] theorem State.ctx_setReg (p : Page) (f : RegField) (v i : Nat) (k0 d : Nat) : (s.setReg p f v i).ctx k0 d = s.ctx k0 d := by unfold State.ctx; rw [State.setReg_ctxs]
@[simp] theorem State.ctx_emit (e : Emission) (k0 d : Nat) : (s.emit e).ctx k0 d = s.ctx k0 d := by unfold State.ctx; rw [State.emit_ctxs]
@[simp] theorem State.ctx_usedFree (n : Nat) (k0 d : Nat) : (s.usedFree n).ctx k0 d = s.ctx k0 d := by unfold State.ctx; rw [State.usedFree_ctxs]
@[simp] theorem State.ctx_setCore (c : Nat) (x : Core) (k0 d : Nat) : (s.setCore c x).ctx k0 d = s.ctx k0 d := by unfold State.ctx; rw [State.setCore_ctxs]
@[simp] theorem State.ctx_modCore (c : Nat) (f : Core → Core) (k0 d : Nat) : (s.modCore c f).ctx k0 d = s.ctx k0 d := by unfold State.ctx; rw [State.modCore_ctxs]
@[simp] theorem State.ctx_setSigc (k : Nat) (x : Sigc) (k0 d : Nat) : (s.setSigc k x).ctx k0 d = s.ctx k0 d := by unfold State.ctx; rw [State.setSigc_ctxs]
@[simp] theorem State.ctx_setSem (n : Nat) (x : Sem) (k0 d : Nat) : (s.setSem n x).ctx k0 d = s.ctx k0 d := by unfold State.ctx; rw [State.setSem_ctxs]
@[simp] theorem State.ctx_signal (b : Bool) (fn v : Nat) (k0 d : Nat) : (s.signal b fn v).ctx k0 d = s.ctx k0 d := by unfold State.ctx; rw [State.signal_ctxs]
@[simp] theorem State.ctx_tellLead (b : Bool) (k0 d : Nat) : (s.tellLead b).ctx k0 d = s.ctx k0 d := by unfold State.ctx; rw [State.tellLead_ctxs]
@[simp] theorem State.ctx_raiseBits (p : Page) (bits : Nat) (k0 d : Nat) : (s.raiseBits p bits).ctx k0 d = s.ctx k0 d := by unfold State.ctx; rw [State.raiseBits_ctxs]
@[simp] theorem State.ctx_raise (p : Page) (b : Nat) (k0 d : Nat) : (s.raise p b).ctx k0 d = s.ctx k0 d := by unfold State.ctx; rw [State.raise_ctxs]
@[simp] theorem State.ctx_countErrors (p : Page) (n : Nat) (k0 d : Nat) : (s.countErrors p n).ctx k0 d = s.ctx k0 d := by unfold State.ctx; rw [State.countErrors_ctxs]
@[simp] theorem State.ctx_capture (p : Page) (c u d : Nat) (k0 d : Nat) : (s.capture p c u d).ctx k0 d = s.ctx k0 d := by unfold State.ctx; rw [State.capture_ctxs]
@[simp] theorem State.ctx_error (p : Page) (c u d : Nat) (k0 d : Nat) : (s.error p c u d).ctx k0 d = s.ctx k0 d := by unfold State.ctx; rw [State.error_ctxs]
@[simp] theorem State.ctx_bump (p : Page) (f : RegField) (n i : Nat) (k0 d : Nat) : (s.bump p f n i).ctx k0 d = s.ctx k0 d := by unfold State.ctx; rw [State.bump_ctxs]
@[simp] theorem State.ctx_addReg (p : Page) (f : RegField) (n i : Nat) (k0 d : Nat) : (s.addReg p f n i).ctx k0 d = s.ctx k0 d := by unfold State.ctx; rw [State.addReg_ctxs]
@[simp] theorem State.now_setReg (p : Page) (f : RegField) (v i : Nat)  : (s.setReg p f v i).now  = s.now  := by unfold State.now State.subNs; rw [State.setReg_time]
@[simp] theorem State.now_emit (e : Emission)  : (s.emit e).now  = s.now  := by unfold State.now State.subNs; rw [State.emit_time]
@[simp] theorem State.now_usedFree (n : Nat)  : (s.usedFree n).now  = s.now  := by unfold State.now State.subNs; rw [State.usedFree_time]
@[simp] theorem State.now_setCore (c : Nat) (x : Core)  : (s.setCore c x).now  = s.now  := by unfold State.now State.subNs; rw [State.setCore_time]
@[simp] theorem State.now_modCore (c : Nat) (f : Core → Core)  : (s.modCore c f).now  = s.now  := by unfold State.now State.subNs; rw [State.modCore_time]
@[simp] theorem State.now_setSigc (k : Nat) (x : Sigc)  : (s.setSigc k x).now  = s.now  := by unfold State.now State.subNs; rw [State.setSigc_time]
@[simp] theorem State.now_setSem (n : Nat) (x : Sem)  : (s.setSem n x).now  = s.now  := by unfold State.now State.subNs; rw [State.setSem_time]
@[simp] theorem State.now_setCtx (k c : Nat) (x : Ctx)  : (s.setCtx k c x).now  = s.now  := by unfold State.now State.subNs; rw [State.setCtx_time]
@[simp] theorem State.now_signal (b : Bool) (fn v : Nat)  : (s.signal b fn v).now  = s.now  := by unfold State.now State.subNs; rw [State.signal_time]
@[simp] theorem State.now_tellLead (b : Bool)  : (s.tellLead b).now  = s.now  := by unfold State.now State.subNs; rw [State.tellLead_time]
@[simp] theorem State.now_raiseBits (p : Page) (bits : Nat)  : (s.raiseBits p bits).now  = s.now  := by unfold State.now State.subNs; rw [State.raiseBits_time]
@[simp] theorem State.now_raise (p : Page) (b : Nat)  : (s.raise p b).now  = s.now  := by unfold State.now State.subNs; rw [State.raise_time]
@[simp] theorem State.now_countErrors (p : Page) (n : Nat)  : (s.countErrors p n).now  = s.now  := by unfold State.now State.subNs; rw [State.countErrors_time]
@[simp] theorem State.now_capture (p : Page) (c u d : Nat)  : (s.capture p c u d).now  = s.now  := by unfold State.now State.subNs; rw [State.capture_time]
@[simp] theorem State.now_error (p : Page) (c u d : Nat)  : (s.error p c u d).now  = s.now  := by unfold State.now State.subNs; rw [State.error_time]
@[simp] theorem State.now_bump (p : Page) (f : RegField) (n i : Nat)  : (s.bump p f n i).now  = s.now  := by unfold State.now State.subNs; rw [State.bump_time]
@[simp] theorem State.now_addReg (p : Page) (f : RegField) (n i : Nat)  : (s.addReg p f n i).now  = s.now  := by unfold State.now State.subNs; rw [State.addReg_time]

end Sys2Proof.Machine
end

