-- ==== Sys2Proof/Laws/Exec.lean ====
section
/-! SUPPORT. What the shared operations of the commands do, for the proofs of the statements: fetching, storing, traps, semaphores, host
commands, issues and requests of the fabric. -/

namespace Sys2Proof.Machine

/-! ### Reading good words, and fetching an instruction -/

/-- Reading words that can all be corrected writes corrected words back and counts them, and does nothing else. -/
theorem readWords_good {s : State} {r : Region} {ws : List Nat} (h : ws.all (fun w => !cwBad r (s.memory r) w) = true) :
    s.readWords r ws = { s with
      mem := setRegion r { s.memory r with flips :=
        (ws.filter fun w => tabGet 0 w (s.memory r).flips != 0 && !cwBad r (s.memory r) w).foldl (fun f w => tabDel w f) (s.memory r).flips } s.mem
      regs := fieldSet raspPage Rg.raspUncorrectedCount 0 (s.reg raspPage Rg.raspUncorrectedCount)
        (fieldSet raspPage Rg.raspCorrectedCount 0 (s.reg raspPage Rg.raspCorrectedCount +
          (ws.filter fun w => tabGet 0 w (s.memory r).flips != 0 && !cwBad r (s.memory r) w).length) s.regs) } := by
  have e : ws.filter (cwBad r (s.memory r)) = [] := by
    rw [List.filter_eq_nil_iff]
    intro w hw
    simpa using List.all_eq_true.mp h w hw
  unfold State.readWords
  simp only [e]
  rfl

/-- A read of good words leaves every register but the two counters of R522 alone. -/
theorem reg_readWords_good {s : State} {r : Region} {ws : List Nat} (h : ws.all (fun w => !cwBad r (s.memory r) w) = true)
    {q : Page} {g : RegField} {j : Nat} (h1 : fieldBit q g j ≠ fieldBit raspPage Rg.raspCorrectedCount 0)
    (h2 : fieldBit q g j ≠ fieldBit raspPage Rg.raspUncorrectedCount 0) : (s.readWords r ws).reg q g j = s.reg q g j := by
  rw [readWords_good h]
  unfold State.reg
  dsimp only
  rw [fieldGet_set_other h2, fieldGet_set_other h1]

theorem out_readWords_good {s : State} {r : Region} {ws : List Nat} (h : ws.all (fun w => !cwBad r (s.memory r) w) = true) :
    (s.readWords r ws).out = s.out := by
  rw [readWords_good h]

theorem first_word_good {r : Region} {m : Memory} {a n : Nat} (hn : n ≠ 0)
    (h : (wordsOf r a n).all (fun w => !cwBad r m w) = true) : cwBad r m (a / cwBytes r) = false := by
  have hm : a / cwBytes r ∈ wordsOf r a n := by
    unfold wordsOf
    rw [if_neg hn, List.mem_map]
    exact ⟨0, by simp, by simp⟩
  simpa using List.all_eq_true.mp h _ hm

theorem coreRuns_executes {s : State} {c : Nat} {sp : Nat → Bool} (h : coreRuns s c sp = true) : coreExecutes s c = true := by
  unfold coreRuns at h
  rw [Bool.and_eq_true] at h
  exact h.1

/-- An instruction of a core that executes it, and whose word stands at the program counter, runs on the state that its fetch leaves. -/
theorem runInsn_runs {s : State} {c : Nat} {sp : Nat → Bool} (h : coreRuns s c sp = true) (body : State → State) :
    runInsn c sp body s = body (fetchCore c s) := by
  unfold coreRuns coreExecutes at h
  rw [Bool.and_eq_true, Bool.and_eq_true] at h
  unfold runInsn
  rw [if_pos h.1.1]
  dsimp only
  rw [if_neg (by have := first_word_good (by decide) h.1.2; simpa [cwBytes] using this), if_pos h.2]
  rfl

theorem runSInsn_runs {s : State} {k : Nat} (h : sigcExecutes s k = true) (body : State → State) :
    runSInsn k body s = body (fetchSigc k s) := by
  unfold sigcExecutes at h
  rw [Bool.and_eq_true] at h
  unfold runSInsn
  rw [if_pos h.1]
  dsimp only
  rw [if_neg (by have := first_word_good (by decide) h.2; simpa [cwBytes] using this)]
  rfl

theorem runAgent_runs {s : State} {a : Agent} {sp : Nat → Bool} (h : agentRuns s a sp = true) (body : State → State) :
    runAgent a sp body s = body (fetchAgent a s) := by
  cases a with
  | core c => exact runInsn_runs h body
  | sigc k => exact runSInsn_runs h body

/-- The fetch leaves every register but the two counters of R522 alone. -/
theorem reg_fetchCore {s : State} {c : Nat} (h : coreExecutes s c = true) {q : Page} {g : RegField} {j : Nat}
    (h1 : fieldBit q g j ≠ fieldBit raspPage Rg.raspCorrectedCount 0)
    (h2 : fieldBit q g j ≠ fieldBit raspPage Rg.raspUncorrectedCount 0) : (fetchCore c s).reg q g j = s.reg q g j := by
  unfold coreExecutes at h
  rw [Bool.and_eq_true] at h
  exact reg_readWords_good h.2 h1 h2

theorem reg_fetchSigc {s : State} {k : Nat} (h : sigcExecutes s k = true) {q : Page} {g : RegField} {j : Nat}
    (h1 : fieldBit q g j ≠ fieldBit raspPage Rg.raspCorrectedCount 0)
    (h2 : fieldBit q g j ≠ fieldBit raspPage Rg.raspUncorrectedCount 0) : (fetchSigc k s).reg q g j = s.reg q g j := by
  unfold sigcExecutes at h
  rw [Bool.and_eq_true] at h
  exact reg_readWords_good h.2 h1 h2

/-- A page that is not RASP. -/
theorem fieldBit_ne_rasp {q : Page} {g f : RegField} {j : Nat} (hq : q.kind ≠ .rasp ∧ pageBase q ≠ pageBase raspPage)
    (hg : (g.off + g.stride * j) * 8 + g.lo < 32768) (hf : (f.off + f.stride * 0) * 8 + f.lo < 32768) :
    fieldBit q g j ≠ fieldBit raspPage f 0 := fieldBit_ne_page (Ne.symm hq.2) hf hg

theorem out_fetchCore {s : State} {c : Nat} (h : coreExecutes s c = true) : (fetchCore c s).out = s.out := by
  unfold coreExecutes at h
  rw [Bool.and_eq_true] at h
  exact out_readWords_good h.2

theorem fetchCore_only (c : Nat) (s : State) : Only 6291466 s (fetchCore c s) := State.readEffect_only ..
theorem fetchSigc_only (k : Nat) (s : State) : Only 6291466 s (fetchSigc k s) := State.readEffect_only ..
theorem fetchAgent_only (a : Agent) (s : State) : Only 6291466 s (fetchAgent a s) := by
  cases a <;> exact State.readEffect_only ..

@[simp] theorem fetchCore_core (c d : Nat) (s : State) : (fetchCore c s).core d = s.core d := by
  unfold State.core; rw [(fetchCore_only c s).cores rfl]
@[simp] theorem fetchSigc_sigc (k d : Nat) (s : State) : (fetchSigc k s).sigc d = s.sigc d := by
  unfold State.sigc; rw [(fetchSigc_only k s).sigcs rfl]
@[simp] theorem fetchAgent_core (a : Agent) (d : Nat) (s : State) : (fetchAgent a s).core d = s.core d := by
  unfold State.core; rw [(fetchAgent_only a s).cores rfl]
@[simp] theorem fetchAgent_sigc (a : Agent) (d : Nat) (s : State) : (fetchAgent a s).sigc d = s.sigc d := by
  unfold State.sigc; rw [(fetchAgent_only a s).sigcs rfl]
@[simp] theorem fetchAgent_sem (a : Agent) (n : Nat) (s : State) : (fetchAgent a s).sem n = s.sem n := by
  unfold State.sem; rw [(fetchAgent_only a s).sems rfl]
@[simp] theorem fetchAgent_time (a : Agent) (s : State) : (fetchAgent a s).time = s.time := (fetchAgent_only a s).time rfl
@[simp] theorem fetchAgent_now (a : Agent) (s : State) : (fetchAgent a s).now = s.now := by
  unfold State.now State.subNs; rw [fetchAgent_time]

/-! ### Writing whole words -/

theorem badHalves_aligned {r : Region} {a n : Nat} {m : Memory} (hr : cwBytes r = 8) (ha : a % 8 = 0) (hn : n % 8 = 0) :
    badHalves r a n m = [] := by
  unfold badHalves
  rw [List.filter_eq_nil_iff]
  intro w hw
  simp only [wordsOf, hr] at hw
  split at hw
  · simp at hw
  · simp only [List.mem_map, List.mem_range] at hw
    obtain ⟨i, hi, rfl⟩ := hw
    simp only [hr, Bool.and_eq_true, decide_eq_true_eq, not_and, not_or]
    intro _
    constructor <;> omega

/-- A write of whole words, no injection being armed, is what writeBytes says. -/
theorem store_memory {s : State} {r : Region} {a : Nat} {bytes : List Byte} (hb : badHalves r a bytes.length (s.memory r) = [])
    (ha : s.flag raspPage Rg.raspFlipControlArm = false) : (s.store r a bytes).memory r = writeBytes r a bytes (s.memory r) := by
  have hg : ([] : List Nat).all (fun w => !cwBad r (s.memory r) w) = true := rfl
  have hm : (s.readWords r []).memory r = s.memory r := by
    rw [readWords_good hg]; cases r <;> rfl
  have hf : (s.readWords r []).flag raspPage Rg.raspFlipControlArm = false := by
    unfold State.flag
    rw [reg_readWords_good hg (by decide) (by decide)]
    exact ha
  unfold State.store
  rw [hb]
  simp only [flipHit, hf, Bool.not_false, if_true, hm]
  cases r <;> rfl


theorem store_spad {s : State} {a : Nat} {bytes : List Byte} (ha : a % 8 = 0) (hn : bytes.length % 8 = 0)
    (hf : s.flag raspPage Rg.raspFlipControlArm = false) : (s.store .spad a bytes).mem.spad = writeBytes .spad a bytes s.mem.spad :=
  store_memory (r := .spad) (badHalves_aligned rfl ha hn) hf

theorem toBytes_length (n v : Nat) : (toBytes n v).length = n := by simp [toBytes]

/-! ### What an agent's instruction writes -/

theorem wrote_done (a : Agent) (rd : Fin 32) (v : BitVec 64) (s : State) : Wrote a rd v s (agentDone a rd v (fetchAgent a s)) := by
  cases a <;> simp [Wrote, agentDone]

theorem others_done (a : Agent) (rd : Fin 32) (v : BitVec 64) (s : State) : OthersSame a s (agentDone a rd v (fetchAgent a s)) := by
  cases a with
  | core c =>
    refine ⟨fun d hd => ?_, fun j _ => ?_⟩
    · exact (State.core_setCore_other _ (hd c rfl) _).trans (fetchAgent_core ..)
    · rw [agentDone, State.sigc_modCore]; exact fetchAgent_sigc ..
  | sigc k =>
    refine ⟨fun d _ => ?_, fun j hj => ?_⟩
    · rw [agentDone, State.core_setSigc]; exact fetchAgent_core ..
    · exact (State.sigc_setSigc_other _ (hj k rfl) _).trans (fetchAgent_sigc ..)

theorem coreRaspBase : ∀ c : Fin 160, pageBase (corePage c) ≠ pageBase raspPage := by decide
theorem sigcRaspBase : ∀ k : Fin 64, pageBase (sigcPage k) ≠ pageBase raspPage := by decide

theorem reg_fetchAgent {s : State} {a : Agent} {sp : Nat → Bool} (h : agentRuns s a sp = true) {q : Page} {g : RegField} {j : Nat}
    (hq : pageBase q ≠ pageBase raspPage) (hg : (g.off + g.stride * j) * 8 + g.lo < 32768) : (fetchAgent a s).reg q g j = s.reg q g j := by
  have h1 := fieldBit_ne_page (p := raspPage) (q := q) (f := Rg.raspCorrectedCount) (g := g) (i := 0) (j := j) (Ne.symm hq) (by decide) hg
  have h2 := fieldBit_ne_page (p := raspPage) (q := q) (f := Rg.raspUncorrectedCount) (g := g) (i := 0) (j := j) (Ne.symm hq) (by decide) hg
  cases a with
  | core c => exact reg_fetchCore (coreRuns_executes h) h1 h2
  | sigc k => exact reg_fetchSigc h h1 h2

theorem agentFlags_fetch {s : State} {a : Agent} {sp : Nat → Bool} (h : agentRuns s a sp = true) : agentFlags (fetchAgent a s) a = agentFlags s a := by
  cases a with
  | core c =>
    have r := fun (g : RegField) (hg : (g.off + g.stride * 0) * 8 + g.lo < 32768) => reg_fetchAgent h (coreRaspBase c) hg
    simp only [agentFlags, getFlags, r Rg.coreArithFlagsSat (by decide), r Rg.coreArithFlagsAccOvf (by decide), r Rg.coreArithFlagsTernaryCode (by decide),
      r Rg.coreArithFlagsPoison (by decide)]
  | sigc k =>
    have r := fun (g : RegField) (hg : (g.off + g.stride * 0) * 8 + g.lo < 32768) => reg_fetchAgent h (sigcRaspBase k) hg
    simp only [agentFlags, r Rg.sigcArithFlagsSat (by decide), r Rg.sigcArithFlagsPoison (by decide)]

theorem settleGap_eq (c : Nat) (s : State) : ∃ x, settleGap c s = { s with cores := x } := by
  unfold settleGap
  split
  · exact ⟨_, rfl⟩
  · exact ⟨_, rfl⟩
@[simp] theorem reg_settleGap (c : Nat) (s : State) (p : Page) (f : RegField) (i : Nat) : (settleGap c s).reg p f i = s.reg p f i := by
  obtain ⟨x, e⟩ := settleGap_eq c s
  rw [e]; rfl
@[simp] theorem settleGap_mem (c : Nat) (s : State) : (settleGap c s).mem = s.mem := by
  obtain ⟨x, e⟩ := settleGap_eq c s
  rw [e]
@[simp] theorem settleGap_regs (c : Nat) (s : State) : (settleGap c s).regs = s.regs := by
  obtain ⟨x, e⟩ := settleGap_eq c s
  rw [e]
@[simp] theorem settleGap_sigc (c k : Nat) (s : State) : (settleGap c s).sigc k = s.sigc k := by
  obtain ⟨x, e⟩ := settleGap_eq c s
  rw [e]; rfl
theorem settleGap_sem (c : Nat) (s : State) (n : Nat) : (settleGap c s).sem n = s.sem n := by
  obtain ⟨x, e⟩ := settleGap_eq c s
  rw [e]; rfl
theorem settleGap_other (c : Nat) (s : State) {d : Nat} (h : d ≠ c) : (settleGap c s).core d = s.core d := by
  unfold settleGap
  split
  · rfl
  · exact State.core_setCore_other _ h _

theorem trapped_trap (a : Agent) {cause detail : Nat} (hc : cause < 256) (h2 : cause ≠ 2) (hd : detail < 2 ^ 64) (s : State) :
    Trapped a cause detail s (agentTrap a cause detail (fetchAgent a s)) := by
  have hd' : detail % 2 ^ 64 = detail := Nat.mod_eq_of_lt hd
  have hc' : cause % 2 ^ 8 = cause := Nat.mod_eq_of_lt hc
  cases a with
  | core c =>
    refine ⟨_, rfl, ?_⟩
    have := (s.core c).pc.isLt
    simp +decide (disch := first | decide | (refine offHeader_same ?_; decide) | (refine fieldBit_ne ?_; decide)) [State.reg_setReg_other, State.reg_raise_off, hc', hd', Rg.coreTrapCauseCause, Rg.coreTrapDetailDetail, Rg.coreTrapPcPc, Rg.coreTrapCauseValid]
    omega
  | sigc k =>
    have := (s.sigc k).pc.isLt
    simp +decide (disch := first | decide | (refine offHeader_same ?_; decide) | (refine fieldBit_ne ?_; decide)) [Trapped, agentTrap, h2, strap, State.reg_setReg_other, State.reg_raise_off, hc', hd', Rg.sigcTrapCauseCause, Rg.sigcTrapDetailDetail, Rg.sigcTrapPcPc, Rg.sigcTrapCauseValid]
    omega

/-! ### Fields of a core that the gap's accounts and the next instruction leave alone -/

@[simp] theorem advance_pc (x : Core) : (advance x).pc = x.pc + 4 := by cases x; rfl
@[simp] theorem advance_gpr (x : Core) : (advance x).gpr = x.gpr := by cases x; rfl
@[simp] theorem gapRuns_gpr (b : Bool) (n : Nat) (x : Core) : (gapRuns b n x).gpr = x.gpr := by unfold gapRuns; split <;> rfl
@[simp] theorem advance_run (x : Core) : (advance x).run = x.run := by cases x; rfl
@[simp] theorem gapRuns_run (b : Bool) (n : Nat) (x : Core) : (gapRuns b n x).run = x.run := by unfold gapRuns; split <;> rfl
@[simp] theorem advance_ctx (x : Core) : (advance x).ctx = x.ctx := by cases x; rfl
@[simp] theorem gapRuns_ctx (b : Bool) (n : Nat) (x : Core) : (gapRuns b n x).ctx = x.ctx := by unfold gapRuns; split <;> rfl
@[simp] theorem advance_deferred (x : Core) : (advance x).deferred = x.deferred := by cases x; rfl
@[simp] theorem gapRuns_deferred (b : Bool) (n : Nat) (x : Core) : (gapRuns b n x).deferred = x.deferred := by unfold gapRuns; split <;> rfl
@[simp] theorem advance_tags (x : Core) : (advance x).tags = x.tags := by cases x; rfl
@[simp] theorem gapRuns_tags (b : Bool) (n : Nat) (x : Core) : (gapRuns b n x).tags = x.tags := by unfold gapRuns; split <;> rfl
@[simp] theorem advance_codingQueue (x : Core) : (advance x).codingQueue = x.codingQueue := by cases x; rfl
@[simp] theorem gapRuns_codingQueue (b : Bool) (n : Nat) (x : Core) : (gapRuns b n x).codingQueue = x.codingQueue := by unfold gapRuns; split <;> rfl
@[simp] theorem advance_fabricQueue (x : Core) : (advance x).fabricQueue = x.fabricQueue := by cases x; rfl
@[simp] theorem gapRuns_fabricQueue (b : Bool) (n : Nat) (x : Core) : (gapRuns b n x).fabricQueue = x.fabricQueue := by unfold gapRuns; split <;> rfl
@[simp] theorem advance_streams (x : Core) : (advance x).streams = x.streams := by cases x; rfl
@[simp] theorem gapRuns_streams (b : Bool) (n : Nat) (x : Core) : (gapRuns b n x).streams = x.streams := by unfold gapRuns; split <;> rfl
@[simp] theorem advance_arrays (x : Core) : (advance x).arrays = x.arrays := by cases x; rfl
@[simp] theorem gapRuns_arrays (b : Bool) (n : Nat) (x : Core) : (gapRuns b n x).arrays = x.arrays := by unfold gapRuns; split <;> rfl
@[simp] theorem advance_arrayQueue (x : Core) : (advance x).arrayQueue = x.arrayQueue := by cases x; rfl
@[simp] theorem gapRuns_arrayQueue (b : Bool) (n : Nat) (x : Core) : (gapRuns b n x).arrayQueue = x.arrayQueue := by unfold gapRuns; split <;> rfl
@[simp] theorem advance_preempt (x : Core) : (advance x).preempt = x.preempt := by cases x; rfl
@[simp] theorem gapRuns_preempt (b : Bool) (n : Nat) (x : Core) : (gapRuns b n x).preempt = x.preempt := by unfold gapRuns; split <;> rfl
@[simp] theorem advance_vreg (x : Core) : (advance x).vreg = x.vreg := by cases x; rfl
@[simp] theorem gapRuns_vreg (b : Bool) (n : Nat) (x : Core) : (gapRuns b n x).vreg = x.vreg := by unfold gapRuns; split <;> rfl
@[simp] theorem gapRuns_pc (b : Bool) (n : Nat) (x : Core) : (gapRuns b n x).pc = x.pc := by unfold gapRuns; split <;> rfl

/-! ### Taking a semaphore -/

@[simp] theorem agentReg_fetch (a : Agent) (r : Fin 32) (s : State) : agentReg (fetchAgent a s) a r = agentReg s a r := by
  cases a <;> simp [agentReg]

theorem sem_agentDone (a : Agent) (r : Fin 32) (v : BitVec 64) (s : State) (n : Nat) : (agentDone a r v s).sem n = s.sem n := by
  cases a <;> rfl
theorem sem_setLocks (a : Agent) (k : Nat) (s : State) (n : Nat) : (setLocks a k s).sem n = s.sem n := by
  cases a <;> rfl
theorem sem_markCounter (a : Agent) (m : Nat) (s : State) (n : Nat) : (markCounter a m s).sem n = s.sem n := by
  cases a with
  | core c => unfold markCounter; dsimp only; split <;> rfl
  | sigc k => rfl
theorem agentTag_markCounter (a : Agent) (m : Nat) (s : State) : agentTag (markCounter a m s) a = agentTag s a := by
  cases a with
  | core c =>
    have hc : ((markCounter (.core c) m s).core c).ctx = (s.core c).ctx := by
      unfold markCounter; dsimp only
      cases (s.sem m).lock
      · rw [if_neg (by decide), State.core_modCore_same]
      · rw [if_pos rfl]
    unfold agentTag; dsimp only; rw [hc]
  | sigc k => rfl

theorem sem_taken (a : Agent) (n : Nat) (rd : Fin 32) (v : BitVec 64) (s : State) :
    (agentDone a rd v (takeSem a n (markCounter a n s))).sem n = semTaken s a n := by
  rw [sem_agentDone]
  unfold takeSem semTaken
  rw [sem_markCounter, agentTag_markCounter]
  dsimp only
  split
  · rw [sem_setLocks, State.sem_setSem_same]
  · rw [State.sem_setSem_same]

theorem sem_taken_other (a : Agent) {n m : Nat} (h : m ≠ n) (rd : Fin 32) (v : BitVec 64) (s : State) :
    (agentDone a rd v (takeSem a n (markCounter a n s))).sem m = s.sem m := by
  rw [sem_agentDone]
  unfold takeSem
  dsimp only
  split
  · rw [sem_setLocks, State.sem_setSem_other _ h, sem_markCounter]
  · rw [State.sem_setSem_other _ h, sem_markCounter]
theorem sem_takeSem (a : Agent) (n : Nat) (s : State) : (takeSem a n s).sem n = semTaken s a n := by
  unfold takeSem semTaken
  dsimp only
  split
  · rw [sem_setLocks, State.sem_setSem_same]
  · rw [State.sem_setSem_same]
theorem sem_takeSem_other (a : Agent) {n m : Nat} (h : m ≠ n) (s : State) : (takeSem a n s).sem m = s.sem m := by
  unfold takeSem
  dsimp only
  split
  · rw [sem_setLocks, State.sem_setSem_other _ h]
  · rw [State.sem_setSem_other _ h]
theorem sem_setLate (a : Agent) (l : List Nat) (s : State) (n : Nat) : (setLate a l s).sem n = s.sem n := by
  cases a <;> rfl
theorem sem_releaseDonation (a : Agent) (m : Nat) (s : State) (n : Nat) : (releaseDonation a m s).sem n = s.sem n := by
  unfold State.sem; rw [(releaseDonation_only ..).sems rfl]

theorem syncLegal_not {a : Agent} {w : SyncWord} {rs : List (Fin 32)} (h : syncLegal a w rs = true) :
    ¬(w.rsvd = true ∨ lacks a rs = true ∨ isSigc a = true ∧ w.cp ≠ 0) := by
  unfold syncLegal at h
  revert h
  generalize lacks a rs = x; generalize isSigc a = y; generalize w.rsvd = z
  by_cases hc : w.cp ≠ 0 <;> cases x <;> cases y <;> cases z <;> simp [hc]

theorem semOffers_some {s : State} {a : Agent} {gs : Fin 32} (h : semOffers s a gs = true) :
    ∃ n, semOf s a (agentReg s a gs) = some n ∧ grantable (s.sem n) = true ∧ (s.sem n).waiters = [] ∧ (lateOf s a).contains n = false ∧
      ownsSem s a n = false ∧ ¬((s.sem n).lock = true ∧ agentLocks s a ≥ 255) := by
  unfold semOffers at h
  cases hn : semOf s a (agentReg s a gs) with
  | none => simp [hn] at h
  | some n =>
    simp only [hn, Bool.and_eq_true, Bool.not_eq_true', Bool.and_eq_false_iff, decide_eq_false_iff_not, List.isEmpty_iff] at h
    obtain ⟨⟨⟨⟨g1, g2⟩, g3⟩, g4⟩, g5⟩ := h
    exact ⟨n, rfl, g1, g2, g3, g4, fun ⟨a1, a2⟩ => by rcases g5 with g5 | g5 <;> simp_all⟩

theorem semReturns_some {s : State} {a : Agent} {gs : Fin 32} (h : semReturns s a gs = true) :
    ∃ n, semOf s a (agentReg s a gs) = some n ∧ ((s.sem n).lock = false ∨ ownsSem s a n = true) := by
  unfold semReturns at h
  cases hn : semOf s a (agentReg s a gs) with
  | none => simp [hn] at h
  | some n => exact ⟨n, rfl, by simpa [hn] using h⟩

theorem semSettable_some {s : State} {a : Agent} {gs : Fin 32} {v : BitVec 64} (h : semSettable s a gs v = true) :
    ∃ n, semOf s a (agentReg s a gs) = some n ∧ (s.sem n).waiters = [] ∧ ¬((s.sem n).lock = true ∧ (s.sem n).owner.isSome = true) ∧
      ¬(v.getLsbD 63 = true ∧ v.toNat % 2 ^ 63 ≠ 0 ∨ v.toNat % 2 ^ 63 > 2 ^ 32 - 1) := by
  unfold semSettable at h
  cases hn : semOf s a (agentReg s a gs) with
  | none => simp [hn] at h
  | some n =>
    simp only [hn, Bool.and_eq_true, Bool.not_eq_true', List.isEmpty_iff] at h
    obtain ⟨⟨g1, g2⟩, g3⟩ := h
    refine ⟨n, rfl, g1, fun ⟨a1, a2⟩ => by simp_all, ?_⟩
    split at g3
    · simp only [beq_iff_eq] at g3; omega
    · simp only [decide_eq_true_eq] at g3; rename_i hl; simp only [hl, Bool.false_eq_true, false_and, false_or]; omega
theorem sem_wake (a : Agent) (b : Blocked) (v : BitVec 64) (s : State) (n : Nat) : (wake a b v s).sem n = s.sem n := by
  cases a
  · exact settleGap_sem ..
  · rfl
theorem fetchCore_mem {s : State} {c : Nat} (h : coreExecutes s c = true) : ∃ m, (fetchCore c s).mem = setRegion .imem m s.mem := by
  unfold coreExecutes at h
  rw [Bool.and_eq_true] at h
  unfold fetchCore State.readEffect
  rw [readWords_good h.2]
  exact ⟨_, rfl⟩

theorem fetchSigc_mem {s : State} {k : Nat} (h : sigcExecutes s k = true) : ∃ m, (fetchSigc k s).mem = setRegion .simem m s.mem := by
  unfold sigcExecutes at h
  rw [Bool.and_eq_true] at h
  unfold fetchSigc State.readEffect
  rw [readWords_good h.2]
  exact ⟨_, rfl⟩

theorem spad_fetchAgent {s : State} {a : Agent} {sp : Nat → Bool} (h : agentRuns s a sp = true) : (fetchAgent a s).mem.spad = s.mem.spad := by
  cases a with
  | core c =>
    simp only [agentRuns, coreRuns, Bool.and_eq_true] at h
    obtain ⟨m, e⟩ := fetchCore_mem h.1
    rw [fetchAgent, e]; rfl
  | sigc k =>
    obtain ⟨m, e⟩ := fetchSigc_mem h
    rw [fetchAgent, e]; rfl
theorem sNext_ingress (x : Sigc) : (sNext x).ingressReturned = x.ingressReturned := by
  unfold sNext; split <;> rfl
theorem sNext_dma (x : Sigc) : (sNext x).dma = x.dma := by
  unfold sNext; split <;> rfl
theorem setA_dma (r : Nat) (v : BitVec 64) (x : Sigc) : (setA r v x).dma = x.dma := rfl
theorem advance_streams' (x : Core) : (advance x).streams = x.streams := rfl
theorem setG_streams (r : Fin 32) (v : BitVec 64) (x : Core) : (setG r v x).streams = x.streams := by
  unfold setG; split <;> rfl
theorem slotOf_done (n l : Nat) (r : Fin 32) (v : BitVec 64) (x : Core) :
    (slotOf (advance (setG r v (setSlot n { slotOf x n with returned := (slotOf x n).returned + l } x))) n).returned = (slotOf x n).returned + l := by
  unfold slotOf
  rw [advance_streams, setG_streams]
  unfold setSlot
  rw [tabGet_put_same]
theorem core_leaveWaits (a : Agent) (s : State) (d : Nat) : (leaveWaits a s).core d = s.core d := rfl

/-- Program counter, step count, registers of a core. -/
def pcStepGpr (c : Nat) (s : State) : BitVec 18 × Nat × Table (BitVec 64) := ((s.core c).pc, (s.core c).ctxStep, (s.core c).gpr)

theorem psg_cheapPassed (c : Nat) (s : State) : pcStepGpr c (cheapPassed c s) = pcStepGpr c s := by
  unfold cheapPassed pcStepGpr
  dsimp only
  split
  · rw [State.core_setCore_same]
  · split
    · rw [State.core_raise, State.core_bump, State.core_setReg, State.core_setCore_same]
    · rw [State.core_setReg, State.core_setCore_same]
theorem psg_formShadow (c : Nat) (l : Option LiveSet) (pc : BitVec 18) (s : State) : pcStepGpr c (formShadow c l pc s) = pcStepGpr c s := by
  unfold formShadow pcStepGpr
  rw [State.core_modCore_same]
  cases l <;> rfl
theorem psg_noteMark (c : Nat) (s : State) : pcStepGpr c (noteMark c s) = pcStepGpr c s := by
  unfold pcStepGpr State.core; rw [(noteMark_only ..).cores rfl]
theorem psg_skipCheap (c : Nat) (s : State) : pcStepGpr c (skipCheap c s) = pcStepGpr c s := by
  unfold pcStepGpr State.core; rw [(skipCheap_only ..).cores rfl]
theorem psg_takeCheap (c id : Nat) (l : Option LiveSet) (s : State) : pcStepGpr c (takeCheap c id l s) = pcStepGpr c s := by
  unfold takeCheap pcStepGpr
  split
  · rw [State.core_modCore_same]
  · rw [State.core_modCore_same, State.core_error]
theorem psg_setReg (c : Nat) (s : State) (p : Page) (f : RegField) (v : Nat) : pcStepGpr c (s.setReg p f v) = pcStepGpr c s := rfl
theorem psg_addReg (c : Nat) (s : State) (p : Page) (f : RegField) (v : Nat) : pcStepGpr c (s.addReg p f v) = pcStepGpr c s := rfl

/-! ### Host commands -/

theorem any_some {α : Type} {o : Option α} {p : α → Bool} (h : o.any p = true) : ∃ a, o = some a ∧ p a = true := by
  cases o with
  | none => cases h
  | some a => exact ⟨a, rfl, h⟩

theorem startCmd_runs {s : State} {q : CmdRef} {ops : List Nat} {named : Bool} {c : Cmd} (h : startedCmd s q ops named = some c) (f : Cmd → State → State) :
    startCmd q ops named f s = f c (startedState c s) := by
  unfold startedCmd at h
  unfold startCmd
  cases ha : s.alive
  · rw [ha] at h; cases h
  · rw [ha] at h
    simp only [Bool.not_true, Bool.false_eq_true, if_false] at h ⊢
    cases hf : findCmd s q ops 0 s.host.cmds with
    | none => rw [hf] at h; cases h
    | some d =>
      rw [hf, Option.filter_eq_some_iff] at h
      obtain ⟨h1, h2⟩ := h
      cases h1
      simp only [Bool.and_eq_true, Bool.not_eq_true'] at h2
      simp only [h2.1, h2.2, Bool.false_eq_true, if_false]
      rfl

theorem withData_ok {s : State} {c : Cmd} {data : HostData} {n : Nat} {b : List Byte} (h : cmdData s c data n = some b) (f : List Byte → State → State) :
    withData c data n f s = f b (dataState c n b s) := by
  unfold cmdData at h
  unfold withData
  cases hr : readData s c data n with
  | ok d => rw [hr] at h; cases h; rfl
  | fails e => rw [hr] at h; cases h
  | waits => rw [hr] at h; cases h
theorem findCmd_op {s : State} {q : CmdRef} {ops : List Nat} : ∀ {cs : List Cmd} {i : Nat} {c : Cmd}, findCmd s q ops i cs = some c → ops.contains (cmdOp c) = true := by
  intro cs
  induction cs with
  | nil => intro i c h; cases h
  | cons d cs ih =>
    intro i c h
    unfold findCmd at h
    split at h
    · rename_i hd
      cases h
      simp only [Bool.and_eq_true] at hd
      exact hd.1.2
    · exact ih h
theorem startedCmd_find {s : State} {q : CmdRef} {ops : List Nat} {named : Bool} {c : Cmd} (h : startedCmd s q ops named = some c) :
    findCmd s q ops 0 s.host.cmds = some c := by
  unfold startedCmd at h
  split at h
  · cases h
  · exact (Option.filter_eq_some_iff.mp h).1
theorem startedCmd_op {s : State} {q : CmdRef} {n : Nat} {named : Bool} {c : Cmd} (h : startedCmd s q [n] named = some c) : cmdOp c = n := by
  simpa using findCmd_op (startedCmd_find h)

theorem ring_taken {s : State} {fn : Nat} {q : SqRef} {secure : Bool} {x : SqState} (h : ringTaken s fn q secure = true) (hx : s.sq q = some x)
    (f : SqState → State → State) : ring fn q secure f s = f x s := by
  unfold ringTaken at h
  unfold ring
  cases q with
  | admin => dsimp only at h ⊢; rw [writeAccess_taken h, hx]
  | num n =>
    simp only [Bool.and_eq_true, beq_iff_eq] at h
    dsimp only
    rw [if_neg (by rw [h.1.1.1, h.1.1.2]; decide), if_neg (by have := h.1.2; intro g; rw [g] at this; cases this), if_neg (by rw [h.2]; simp), hx]
theorem nd {P : Prop} [Decidable P] (h : (!decide P) = true) : ¬P := by simpa using h
theorem nb {b : Bool} (h : (!b) = true) : ¬b = true := by simpa using h
theorem nn {b : Bool} (h : b = true) : ¬(!b) = true := by simpa using h
theorem ns {α : Type} {o : Option α} (h : o.isNone = true) : ¬o.isSome = true := by cases o <;> simp_all
theorem ni {α : Type} {o : Option α} (h : o.isSome = true) : ¬o.isNone = true := by cases o <;> simp_all
theorem host_raise_link (s : State) (p : Page) (b : Nat) : (s.raise p b).host.linkUp = s.host.linkUp := rfl
theorem host_raiseBits_link (s : State) (p : Page) (b : Nat) : (s.raiseBits p b).host.linkUp = s.host.linkUp := rfl
theorem raised_bit (s : State) (p : Page) (b : Nat) (hb : b < 32) : ((s.raise p b).reg p Rg.pageIntStatus).testBit b = true := by
  rw [State.raise, State.reg_raiseBits, State.reg_setReg_same, show Rg.pageIntStatus.len = 32 from rfl, Nat.testBit_mod_two_pow, Nat.testBit_or,
    Nat.testBit_two_pow_self, Bool.or_true]
  simpa using hb
theorem reg_of_regs {s t : State} (h : t.regs = s.regs) (p : Page) (f : RegField) (j : Nat) : t.reg p f j = s.reg p f j := by
  unfold State.reg; rw [h]
theorem frames {m : Nat} {s t : State} (h : Only m s t) (hm : m.testBit 3 = false := by rfl) (p : Page) (f : RegField) (j : Nat) : t.reg p f j = s.reg p f j :=
  reg_of_regs (h.regs hm) p f j
/-- What ISSUE leaves once it takes its descriptor. -/
theorem issueBody_takes {s : State} {c : Fin 160} {engine : Nat} {w : IssueWord} {contents fenced : BitVec 512 → State → Option Nat}
    {full : BitVec 512 → State → Bool} (enq : QueuedCmd → Core → State → Core)
    (h : issueTakes s c engine w (fun d t => (contents d t).isSome || (fenced d t).isSome || full d t) = true) :
    ∃ u v : State, (∀ n, u.core n = s.core n) ∧ (∀ n, v.core n = s.core n) ∧ (∀ n, v.sigc n = s.sigc n) ∧
    runInsn c (· == issueWord engine w) (issueBody c engine w contents fenced full enq) s = v.setCore c (advance (
      if w.notag then enq ⟨issuedDesc s c w, (s.core c).pc, issueTag w⟩ (s.core c) u
      else { (enq ⟨issuedDesc s c w, (s.core c).pc, issueTag w⟩ (s.core c) u) with
        tags := tabSet w.tag.val .pending (enq ⟨issuedDesc s c w, (s.core c).pc, issueTag w⟩ (s.core c) u).tags })) := by
  simp only [issueTakes, Bool.and_eq_true, Bool.not_eq_true', decide_eq_true_eq, decide_eq_false_iff_not] at h
  obtain ⟨⟨⟨⟨⟨⟨h1, h2⟩, h3⟩, h4⟩, h5⟩, h6⟩, h7⟩ := h
  simp only [Bool.or_eq_false_iff] at h7
  obtain ⟨⟨h8, h9⟩, h10⟩ := h7
  refine ⟨(fetchCore c s).readEffect .spad (spadKey c (getG (s.core c) w.gs).toNat) 64,
    spadWait c ((fetchCore c s).readEffect .spad (spadKey c (getG (s.core c) w.gs).toNat) 64), fun n => ?_, fun n => ?_, fun n => ?_, ?_⟩
  · unfold State.core; rw [(State.readEffect_only ..).cores rfl]; exact fetchCore_core c n s
  · unfold State.core; rw [(spadWait_only ..).cores rfl, (State.readEffect_only ..).cores rfl]; exact fetchCore_core c n s
  · unfold State.sigc; rw [(spadWait_only ..).sigcs rfl, (State.readEffect_only ..).sigcs rfl, (fetchCore_only c s).sigcs rfl]
  rw [runInsn_runs h1]
  unfold issueBody
  have hc : (fetchCore c s).core c = s.core c := fetchCore_core ..
  have hc2 : ((fetchCore c s).readEffect .spad (spadKey c (getG (s.core c) w.gs).toNat) 64).core c = s.core c := by
    unfold State.core; rw [(State.readEffect_only ..).cores rfl]; exact fetchCore_core c c s
  dsimp only
  rw [hc, if_neg (by rw [h2]; decide), if_neg (by omega), if_neg (by omega), if_neg (by simpa using h5)]
  cases hf : firstBadWord (fetchCore c s) c (getG (s.core c) w.gs).toNat with
  | some b => rw [hf] at h6; cases h6
  | none =>
    dsimp only
    cases hb : contents (readDesc (fetchCore c s) c (getG (s.core c) w.gs).toNat) (fetchCore c s) with
    | some b => rw [hb] at h8; cases h8
    | none =>
      dsimp only
      cases hd : fenced (readDesc (fetchCore c s) c (getG (s.core c) w.gs).toNat) (fetchCore c s) with
      | some b => rw [hd] at h9; cases h9
      | none =>
        dsimp only
        rw [if_neg (by rw [h10]; decide), hc2]
        rfl
theorem issued_of {s u : State} {c : Fin 160} {w : IssueWord} {y : Core} (hu : ∀ n, u.core n = s.core n) (hs : ∀ n, u.sigc n = s.sigc n)
    (hp : y.pc = (s.core c).pc) (hg : y.gpr = (s.core c).gpr) :
    Issued c w s (u.setCore c (advance (if w.notag then y else { y with tags := tabSet w.tag.val .pending y.tags }))) := by
  refine ⟨?_, ?_, ?_, ?_, ?_⟩
  · rw [State.core_setCore_same, advance_pc]; split <;> simp only [hp]
  · rw [State.core_setCore_same, advance_gpr]; split <;> simp only [hg]
  · intro h; rw [State.core_setCore_same]; unfold tagOf; rw [advance_tags, if_neg (by rw [h]; decide)]; exact tabFind_set_same ..
  · intro d hd; rw [State.core_setCore_other _ (hd c rfl)]; exact hu d
  · intro j _; exact hs j
theorem ite_prop {α : Type} {p : Prop} [Decidable p] {a b : α} (P : α → Prop) (ha : p → P a) (hb : ¬p → P b) : P (if p then a else b) := by
  split
  · exact ha ‹_›
  · exact hb ‹_›
theorem core_flipFired (s : State) (c a : Nat) (x : Core) : (flipFired a (s.setCore c x)).core c = x := State.core_setCore_same s c x
theorem bankFlip_kept (c : Nat) (p : PassDesc) (ms : List Nat) (s : State) :
    ((bankFlip c p ms s).core c).arrayQueue = (s.core c).arrayQueue ∧ ((bankFlip c p ms s).core c).tags = (s.core c).tags := by
  refine ite_prop (fun u : State => (u.core c).arrayQueue = (s.core c).arrayQueue ∧ (u.core c).tags = (s.core c).tags) (fun _ => ?_) (fun _ => ⟨rfl, rfl⟩)
  rw [core_flipFired]
  exact ⟨rfl, rfl⟩
theorem tileFlip_kept (c : Nat) (ms : List Nat) (s : State) :
    ((tileFlip c ms s).core c).arrayQueue = (s.core c).arrayQueue ∧ ((tileFlip c ms s).core c).tags = (s.core c).tags ∧
      (s.flag raspPage Rg.raspFlipControlArm = false → tileFlip c ms s = s) := by
  refine ite_prop (fun u : State => (u.core c).arrayQueue = (s.core c).arrayQueue ∧ (u.core c).tags = (s.core c).tags ∧
    (s.flag raspPage Rg.raspFlipControlArm = false → u = s)) (fun h => ?_) (fun _ => ⟨rfl, rfl, fun _ => rfl⟩)
  refine ⟨?_, ?_, fun e => ?_⟩
  · rw [core_flipFired]
  · rw [core_flipFired]
  · rw [h.1] at e; cases e
theorem foldl_keep {α β γ : Type} (f : β → α → β) (g : β → γ) (h : ∀ b a, g (f b a) = g b) : ∀ (l : List α) (b : β), g (l.foldl f b) = g b
  | [], _ => rfl
  | a :: l, b => by rw [List.foldl_cons, foldl_keep f g h l, h]
theorem bankPass_queue (p : PassDesc) (ms : List Nat) (rows : List (List (BitVec 64))) (x : Core) :
    (bankPass p ms rows x).arrayQueue = x.arrayQueue := by
  unfold bankPass
  refine foldl_keep _ Core.arrayQueue (fun _ _ => ?_) _ _
  rfl
theorem finishTag_queue (tag : Option Nat) (e : Bool) (x : Core) : (finishTag tag e x).arrayQueue = x.arrayQueue := by
  cases tag <;> rfl
theorem finishTag_arrays (tag : Option Nat) (e : Bool) (x : Core) : (finishTag tag e x).arrays = x.arrays := by
  cases tag <;> rfl
theorem finishTag_done {tag : Option Nat} {n : Nat} (h : tag = some n) (e : Bool) (x : Core) : tagOf (finishTag tag e x) n = some (.done e) := by
  subst h; exact tabFind_set_same ..
theorem lineCommand_taken {s : State} {op : BitVec 8} {p : Packet} (h : lineTaken s op p = true) (work : State → State × List Byte) :
    lineCommand op p work s = (takeRx p (work s).1).sendPackets [responseTo s p 0 0 (work s).2] := by
  simp only [lineTaken, Bool.and_eq_true, beq_iff_eq] at h
  obtain ⟨⟨⟨⟨⟨⟨h0, h1⟩, h2⟩, h3⟩, h4⟩, h5⟩, h6⟩ := h
  unfold lineCommand
  rw [if_neg (by rw [h0, h1, h2, h3, h4, h5]; simp), if_neg (by rw [h6]; decide)]
theorem serveTurn_plain {p : Packet} {s : State} (g : Bool) (h9 : requestOk p = true) (hd : ¬(absorbed s p = true ∧ absorberFull s p = true))
    (h : (p.op = opReadS ∨ p.op = opReadX) ∨ blockedLine s p = none) : serveTurn p g s = serve p g s := by
  unfold serveTurn
  rw [if_neg (by rw [h9]; decide)]
  by_cases hx : p.op = opReadS ∨ p.op = opReadX
  · rw [if_pos hx]
  · rw [if_neg hx, if_neg (fun h => hd ⟨h.1, h.2.1⟩)]
    dsimp only
    rw [if_neg hd, h.resolve_left hx]
theorem homeCommand_taken {s : State} {op : BitVec 8} {p : Packet} (h : homeTaken s op p = true) (g : Bool) :
    homeCommand op p g s = match serve p g (heardState s p) with
      | .answer t st hint data => (takeRx p t).sendPackets [answerTo t p g st hint data]
      | .taken t => takeRx p t
      | .later t => t := by
  simp only [homeTaken, Bool.and_eq_true, Bool.or_eq_true, Bool.not_eq_true', beq_iff_eq, decide_eq_false_iff_not] at h
  obtain ⟨⟨⟨⟨⟨⟨⟨⟨⟨⟨⟨h0, h1⟩, h2⟩, h3⟩, h4⟩, h5⟩, h6⟩, h7⟩, h8⟩, h9⟩, h10⟩, h11⟩ := h
  have e : arrive p g s = serve p g (heardState s p) := by
    have h8' : recordedIn (heardState s p) p = false := h8
    have hd : ¬(absorbed (heardState s p) p = true ∧ absorberFull (heardState s p) p = true) := by
      show ¬(absorbed s p = true ∧ absorberFull s p = true)
      rintro ⟨a, b⟩; rw [a, b] at h10; cases h10
    have hc : (p.op = opReadS ∨ p.op = opReadX) ∨ blockedLine (heardState s p) p = none := by
      show _ ∨ blockedLine s p = none
      rcases h11 with (h11 | h11) | h11
      · exact .inl (.inl (h3.trans h11))
      · exact .inl (.inr (h3.trans h11))
      · exact .inr (Option.isNone_iff_eq_none.mp h11)
    rw [← serveTurn_plain g h9 hd hc]
    have e1 : arrive p g s = (if recordedIn (heardState s p) p = true ∧ p.op = opAtomic then .answer (heardState s p) 3 0 []
        else if recordedIn (heardState s p) p = true ∧ postedOp p.op.toNat = true then .answer (holdInput p.part (.packet p) (heardState s p)) 0 0 []
        else serveTurn p g (heardState s p)) := by
      unfold arrive
      dsimp only
      rw [if_neg (by rw [h6]; decide), if_neg (by simpa using h7)]
      rfl
    rw [e1, if_neg (by rw [h8']; simp), if_neg (by rw [h8']; simp)]
  unfold homeCommand
  rw [if_neg (by rw [h0, h1, h2, h3, h4, h5]; simp), e]
  all_goals rfl
theorem homeTaken_op {s : State} {op : BitVec 8} {p : Packet} (h : homeTaken s op p = true) : p.op = op := by
  simp only [homeTaken, Bool.and_eq_true, beq_iff_eq] at h
  exact h.1.1.1.1.1.1.1.1.2
theorem rangeBytes_data {s : State} {k a n : Nat} {b : List Byte} (h : rangeBytes s k a n = some b) :
    ∃ d, s.partRead k a n = .data d ∧ d.mapM id = some b := by
  unfold rangeBytes readsData at h
  cases hr : s.partRead k a n with
  | data d => rw [hr] at h; exact ⟨d, rfl, h⟩
  | held u => rw [hr] at h; cases h
  | error e a => rw [hr] at h; cases h

/-! ### Signal cores -/


theorem others_sigc {s t : State} {k : Fin 64} (hc : t.cores = s.cores) (hs : ∀ j, j ≠ k.val → t.sigc j = s.sigc j) : OthersSame (.sigc k) s t :=
  ⟨fun d _ => by unfold State.core; rw [hc], fun j hj => hs j (hj k rfl)⟩

theorem fetchSigc_cores (k : Nat) (s : State) : (fetchSigc k s).cores = s.cores := (fetchSigc_only k s).cores rfl

theorem sDone_sigc (k : Nat) (u : State) : (sDone k u).sigc k = sNext (u.sigc k) := State.sigc_setSigc_same _ _ _

theorem sDone_other {k j : Nat} (h : j ≠ k) (u : State) : (sDone k u).sigc j = u.sigc j := State.sigc_setSigc_other _ h _

theorem sDone_cores (k : Nat) (u : State) : (sDone k u).cores = u.cores := rfl

theorem sFlags_sigc (k j : Nat) (a b : Bool) (u : State) : (sFlags k a b u).sigc j = u.sigc j := by
  unfold State.sigc; rw [(sFlags_only k a b u).sigcs rfl]

theorem sFlags_cores (k : Nat) (a b : Bool) (u : State) : (sFlags k a b u).cores = u.cores := (sFlags_only k a b u).cores rfl

theorem sEvent_cores (k n : Nat) (u : State) : (sEvent k n u).cores = u.cores := (sEvent_only k n u).cores rfl

theorem sEvent_other {k j : Nat} (h : j ≠ k) (n : Nat) (u : State) : (sEvent k n u).sigc j = u.sigc j := by
  unfold sEvent; dsimp only; split
  · rfl
  · exact State.sigc_setSigc_other _ h _

theorem sEvent_has (k n : Nat) (u : State) : ((sEvent k n u).sigc k).events.contains n = true := by
  unfold sEvent; dsimp only; split
  · assumption
  · rw [State.sigc_setSigc_same]; simp

theorem sEvent_keep (k n : Nat) (u : State) {α : Type} (f : Sigc → α) (hf : ∀ x l, f { x with events := l } = f x) : f ((sEvent k n u).sigc k) = f (u.sigc k) := by
  unfold sEvent; dsimp only; split
  · rfl
  · rw [State.sigc_setSigc_same]; exact hf _ _

theorem sNext_events (x : Sigc) : (sNext x).events = x.events := by unfold sNext; split <;> rfl

theorem sNext_alarms (x : Sigc) : (sNext x).alarms = x.alarms := by unfold sNext; split <;> rfl

theorem sNext_pc_congr {x y : Sigc} (h1 : x.pc = y.pc) (h2 : x.loops = y.loops) (h3 : x.loopHold = y.loopHold) : (sNext x).pc = (sNext y).pc := by
  unfold sNext; rw [h1, h2, h3]; split <;> rfl

theorem readEffect_sigc (s : State) (r : Region) (a n j : Nat) : (s.readEffect r a n).sigc j = s.sigc j := by
  unfold State.sigc; rw [(State.readEffect_only s r a n).sigcs rfl]

theorem readEffect_cores (s : State) (r : Region) (a n : Nat) : (s.readEffect r a n).cores = s.cores := (State.readEffect_only s r a n).cores rfl

theorem readEffect_free (s : State) (r : Region) (a n : Nat) : (s.readEffect r a n).freeIx = s.freeIx := (State.readEffect_only s r a n).freeIx rfl

theorem store_sigc (s : State) (r : Region) (a : Nat) (b : List Byte) (j : Nat) : (s.store r a b).sigc j = s.sigc j := by
  unfold State.sigc; rw [(State.store_only s r a b).sigcs rfl]

theorem store_cores (s : State) (r : Region) (a : Nat) (b : List Byte) : (s.store r a b).cores = s.cores := (State.store_only s r a b).cores rfl

theorem usedFree_sigc (s : State) (n j : Nat) : (s.usedFree n).sigc j = s.sigc j := rfl

theorem dmem_fetchSigc {s : State} {k : Nat} (h : sigcExecutes s k = true) : (fetchSigc k s).mem.dmem = s.mem.dmem := by
  obtain ⟨m, e⟩ := fetchSigc_mem h
  rw [e]; rfl

theorem readLine_congr {s t : State} (k a : Nat) (h1 : t.mem.dmem = s.mem.dmem) (h2 : t.freeIx = s.freeIx) (h3 : t.mem.tags = s.mem.tags) : readLine t k a = readLine s k a := by
  unfold readLine State.free; rw [h1, h2, h3]

theorem tags_fetchSigc {s : State} {k : Nat} (h : sigcExecutes s k = true) : (fetchSigc k s).mem.tags = s.mem.tags := by
  obtain ⟨m, e⟩ := fetchSigc_mem h
  rw [e]; rfl

theorem post_free {m a f g : BitVec 64} {u : Nat} {step : Int} (h : kMode m ≠ 1 ∨ kLength m ≠ 0) : postModify m a f u step = postModify m a g u step := by
  unfold postModify; dsimp only
  by_cases h1 : kMode m = 1
  · have h2 : kLength m ≠ 0 := h.resolve_left (by simpa using h1)
    simp only [h2, if_false]
  · simp only [h1, if_false]

theorem post_same {m a f g : BitVec 64} {u : Nat} {step : Int} (hs : 0 < step.natAbs) : postModify m a f u step = postModify m a g u step := by
  by_cases h : kMode m ≠ 1 ∨ kLength m ≠ 0
  · exact post_free h
  · have h1 : kMode m = 1 := by by_contra h1; exact h (.inl h1)
    have h2 : kLength m = 0 := by by_contra h2; exact h (.inr h2)
    unfold postModify; dsimp only
    rw [h1, h2]; simp [hs]

theorem post_some {m a f g : BitVec 64} {u : Nat} {step : Int} (h : (postModify m a f u step).isSome = true) : (postModify m a g u step).isSome = true := by
  unfold postModify at *; dsimp only at *
  repeat' split
  all_goals simp_all

theorem each_cons {α : Type} (s : State) (a : α) (l : List α) (f : α → State → State) : s.each (a :: l) f = (f a s).each l f := rfl
theorem each_mem {α : Type} (f : α → State → State) (h : ∀ x u, (f x u).mem = u.mem) (l : List α) (s : State) : (s.each l f).mem = s.mem := by
  induction l generalizing s with
  | nil => rfl
  | cons a l ih => rw [each_cons, ih, h]

theorem detectBad_mem (r : Region) (w : Nat) (u : State) (hr : r = .dmem) : (detectBad r w u).mem = u.mem := by
  subst hr; exact (detectBad_only _ _ _).mem rfl

theorem readWords_bad {s : State} {ws : List Nat} (h : ∀ w ∈ ws, cwBad .dmem s.mem.dmem w = true) : (s.readWords .dmem ws).mem = s.mem := by
  have e : ws.filter (fun w => tabGet 0 w s.mem.dmem.flips != 0 && !cwBad .dmem s.mem.dmem w) = [] := by
    rw [List.filter_eq_nil_iff]; intro w hw; rw [h w hw]; simp
  unfold State.readWords
  dsimp only
  rw [each_mem _ (fun x u => detectBad_mem _ _ _ rfl)]
  show setRegion .dmem _ s.mem = s.mem
  have e' : ws.filter (fun w => tabGet 0 w (s.memory .dmem).flips != 0 && !cwBad .dmem (s.memory .dmem) w) = [] := e
  rw [e']; rfl

theorem arm_off (k : Fin 64) : offHeader (sigcPage k) raspPage Rg.raspFlipControlArm 0 := .inr ⟨sigcRaspBase k, by decide⟩

theorem words_dmem {k : Fin 64} {a n w : Nat} (h : w ∈ wordsOf .dmem (dmemKey k a) n) (hb : a + n ≤ 2 ^ 19) : w * 8 / 2 ^ 19 = k := by
  unfold wordsOf dmemKey at h
  split at h
  · cases h
  · rename_i hn
    rw [List.mem_map] at h
    obtain ⟨i, hi, rfl⟩ := h
    rw [List.mem_range] at hi
    simp only [cwBytes] at *
    omega

theorem each_reg' {α : Type} {q : Page} {g : RegField} {j : Nat} (f : α → State → State) (l : List α) (h : ∀ x ∈ l, ∀ u, (f x u).reg q g j = u.reg q g j) (s : State) :
    (s.each l f).reg q g j = s.reg q g j := by
  induction l generalizing s with
  | nil => rfl
  | cons a l ih => rw [each_cons, ih (fun x hx => h x (List.mem_cons_of_mem _ hx)), h a (List.mem_cons_self ..)]

theorem readWords_arm {s : State} {ws : List Nat} (k : Fin 64) (h : ∀ w ∈ ws, w * 8 / 2 ^ 19 = k) : (s.readWords .dmem ws).flag raspPage Rg.raspFlipControlArm = s.flag raspPage Rg.raspFlipControlArm := by
  unfold State.flag State.readWords
  dsimp only
  rw [each_reg' (detectBad .dmem) _ (fun x hx u => by
    rw [List.mem_filter] at hx
    have e := h x hx.1
    show (u.countErrors (sigcPage (x * 8 / 2 ^ 19)) 1).reg _ _ _ = _
    rw [e]
    exact State.reg_countErrors_off _ (arm_off _) _)]
  unfold State.reg
  dsimp only
  rw [fieldGet_set_other (by decide), fieldGet_set_other (by decide)]

theorem store_dmem {s : State} {k : Fin 64} {a : Nat} {bytes : List Byte} (hb : a + bytes.length ≤ 2 ^ 19)
    (ha : s.flag raspPage Rg.raspFlipControlArm = false) : (s.store .dmem (dmemKey k a) bytes).mem.dmem = writeBytes .dmem (dmemKey k a) bytes s.mem.dmem := by
  unfold State.store
  have hm := readWords_bad (s := s) (ws := badHalves .dmem (dmemKey k a) bytes.length (s.memory .dmem)) (by
    intro w hw; unfold badHalves at hw; rw [List.mem_filter, Bool.and_eq_true] at hw; exact hw.2.1)
  have hf := readWords_arm (s := s) (ws := badHalves .dmem (dmemKey k a) bytes.length (s.memory .dmem)) k (by
    intro w hw; unfold badHalves at hw; rw [List.mem_filter] at hw; exact words_dmem hw.1 hb)
  generalize s.readWords .dmem (badHalves .dmem (dmemKey k a) bytes.length (s.memory .dmem)) = u at hm hf
  rw [ha] at hf
  simp only [flipHit, hf, Bool.not_false, if_true]
  show writeBytes .dmem (dmemKey k a) bytes u.mem.dmem = _
  rw [hm]

theorem flag_fetchSigc {s : State} {k : Fin 64} (h : sigcExecutes s k = true) (ha : s.flag raspPage Rg.raspFlipControlArm = false) : (fetchSigc k s).flag raspPage Rg.raspFlipControlArm = false := by
  unfold State.flag; rw [reg_fetchSigc h (by decide) (by decide)]; exact ha

theorem line_bound {a : BitVec 64} (h : lineTrap a = none) : a.toNat + 64 ≤ 2 ^ 19 := by
  unfold lineTrap at h
  by_cases h1 : a.toNat % 64 ≠ 0
  · rw [if_pos h1] at h; cases h
  · rw [if_neg h1] at h
    by_cases h2 : a.toNat ≥ 2 ^ 19
    · rw [if_pos h2] at h; cases h
    · omega

theorem bytes64 (v : Nat) : (toBytes 64 v).length = 64 := toBytes_length _ _

theorem image48 (x : Sigc) : (loopImage x).length = 48 := by
  unfold loopImage
  simp only [List.length_append, toBytes_length, List.length_flatten, List.map_map]
  rfl

theorem sDone_mem (k : Nat) (u : State) : (sDone k u).mem = u.mem := rfl

theorem setSigc_mem (k : Nat) (x : Sigc) (u : State) : (u.setSigc k x).mem = u.mem := rfl

theorem usedFree_mem (n : Nat) (u : State) : (u.usedFree n).mem = u.mem := rfl

theorem leaveWaits_sigc (a : Agent) (j : Nat) (s : State) : (leaveWaits a s).sigc j = s.sigc j := rfl

theorem leaveWaits_cores (a : Agent) (s : State) : (leaveWaits a s).cores = s.cores := rfl

theorem dmaOf_set (k ch : Nat) (v : StreamSlot) (s : State) : dmaOf (setDma k ch v s) k ch = v := by
  unfold dmaOf setDma; rw [State.sigc_setSigc_same]; exact tabGet_put_same _ _ _ _

theorem dmaOf_congr {s t : State} {k : Nat} (h : t.sigc k = s.sigc k) (ch : Nat) : dmaOf t k ch = dmaOf s k ch := by unfold dmaOf; rw [h]

theorem dmaOf_sEvent (k n ch : Nat) (s : State) : dmaOf (sEvent k n s) k ch = dmaOf s k ch := by
  unfold dmaOf; rw [sEvent_keep _ _ _ (fun x => x.dma) (fun _ _ => rfl)]

theorem dmaStatus_sigc (k ch a b j : Nat) (s : State) : (dmaStatus k ch a b s).sigc j = s.sigc j := rfl

theorem sEvent_reg (k n : Nat) (s : State) (p : Page) (f : RegField) (j : Nat) : (sEvent k n s).reg p f j = s.reg p f j :=
  reg_of_regs ((sEvent_only k n s).regs rfl) _ _ _

theorem dmaStatus_state (k : Nat) (ch : Fin 2) (a b : Nat) (s : State) (ha : a < 4) : (dmaStatus k ch a b s).reg (sigcPage k) Rg.sigcDmaStatusState ch = a := by
  unfold dmaStatus
  rw [State.reg_setReg_other _ (by
    have h1 : Rg.sigcDmaStatusState.off = Rg.sigcDmaStatusError.off := rfl
    have h2 : Rg.sigcDmaStatusState.stride = Rg.sigcDmaStatusError.stride := rfl
    have h3 : Rg.sigcDmaStatusState.lo ≠ Rg.sigcDmaStatusError.lo := by decide
    rw [fieldBit_split, fieldBit_split, h1, h2]; omega), State.reg_setReg_same]
  exact Nat.mod_eq_of_lt (Nat.lt_of_lt_of_le ha (by decide))

theorem setSigc_cores (k : Nat) (x : Sigc) (u : State) : (u.setSigc k x).cores = u.cores := rfl

theorem usedFree_cores (n : Nat) (u : State) : (u.usedFree n).cores = u.cores := rfl

theorem or_bit (n : Nat) : (n ||| bit true) % 2 ^ 1 = 1 := by
  show (n ||| 1) % 2 ^ 1 = 1
  rw [Nat.or_mod_two_pow]
  rcases Nat.mod_two_eq_zero_or_one n with e | e <;> simp [e]

theorem sFlags_sat (k : Nat) (b : Bool) (u : State) : (sFlags k true b u).flag (sigcPage k) Rg.sigcArithFlagsSat = true := by
  unfold State.flag sFlags; dsimp only
  rw [State.reg_setReg_other _ (by refine fieldBit_ne ?_; decide), State.reg_setReg_same]
  rw [show Rg.sigcArithFlagsSat.len = 1 from rfl, or_bit]; rfl

theorem sFlags_poison (k : Nat) (b : Bool) (u : State) : (sFlags k b true u).flag (sigcPage k) Rg.sigcArithFlagsPoison = true := by
  unfold State.flag sFlags; dsimp only
  rw [State.reg_setReg_same]
  rw [show Rg.sigcArithFlagsPoison.len = 1 from rfl, or_bit]; rfl

theorem loopCount_eq (x : Sigc) (c : LoopCount) : (match c with | .imm v => v.setWidth 32 | .reg a => (getA x a).setWidth 32 : BitVec 32) = loopCount x c := by
  cases c <;> rfl

theorem sDone_flag (k : Nat) (u : State) (p : Page) (f : RegField) : (sDone k u).flag p f = u.flag p f := rfl

theorem dmaHalt_of (k ch code : Nat) (a : Option Nat) (u : State) : dmaOf (dmaHalt k ch code a u) k ch = { dmaOf u k ch with queue := [], started := false, moved := 0 } := by
  unfold dmaHalt; dsimp only
  rw [dmaOf_sEvent]
  refine (dmaOf_congr (s := setDma k ch { dmaOf u k ch with queue := [], started := false, moved := 0 } u) ?_ ch).trans (dmaOf_set _ _ _ _)
  unfold State.sigc
  rw [(State.raise_only ..).sigcs rfl]
  cases a <;> rfl

theorem dmaHalt_state (k : Fin 64) (ch : Fin 2) (code a : Nat) (u : State) : (dmaHalt k ch code (some a) u).reg (sigcPage k) Rg.sigcDmaStatusState ch = 3 := by
  unfold dmaHalt; dsimp only
  rw [sEvent_reg, State.reg_raise_off _ (offHeader_same (by show 64 ≤ 120 + _; omega)), State.reg_setReg_other _ (by
    have := ch.isLt
    refine fieldBit_ne ?_
    show (120 + 4 * ch.val) * 8 + 0 ≠ (128 + 8 * ch.val) * 8 + 0
    omega)]
  exact dmaStatus_state _ _ _ _ _ (by decide)

theorem dmaHalt_addr (k : Fin 64) (ch : Fin 2) (code a : Nat) (u : State) : (dmaHalt k ch code (some a) u).reg (sigcPage k) Rg.sigcDmaErrorAddrAddress ch = a % 2 ^ 64 := by
  unfold dmaHalt; dsimp only
  rw [sEvent_reg, State.reg_raise_off _ (offHeader_same (by show 64 ≤ 128 + _; omega)), State.reg_setReg_same]
  rfl

/-- A vector instruction of a signal core forms dd's block (R149, R193). -/
theorem dwrote (k : Fin 64) (dd : Fin 64) (vals : List (ExactVal × Bool)) (s : State) : DWrote k dd vals s (dWrite k dd vals (fetchSigc k s)) := by
  unfold DWrote dWrite
  dsimp only
  refine ⟨?_, others_sigc ?_ fun j hj => ?_, fun e => ?_, fun e => ?_⟩
  · rw [sDone_sigc, sFlags_sigc, State.sigc_setSigc_same, fetchSigc_sigc]
  · rw [sDone_cores, sFlags_cores]; exact fetchSigc_cores _ _
  · rw [sDone_other hj, sFlags_sigc, State.sigc_setSigc_other _ hj, fetchSigc_sigc]
  · rw [e, sDone_flag]; exact sFlags_sat _ _ _
  · rw [e, sDone_flag]; exact sFlags_poison _ _ _

/-! ### Vector instructions -/

theorem getFlags_fetch {s : State} {c : Fin 160} {sp : Nat → Bool} (h : coreRuns s c sp = true) : getFlags (fetchCore c s) c = getFlags s c := by
  have r := fun (g : RegField) (hg : (g.off + g.stride * 0) * 8 + g.lo < 32768) => reg_fetchAgent (a := .core c) h (coreRaspBase c) hg
  simp only [fetchAgent] at r
  simp only [getFlags, r Rg.coreArithFlagsSat (by decide), r Rg.coreArithFlagsAccOvf (by decide), r Rg.coreArithFlagsTernaryCode (by decide),
    r Rg.coreArithFlagsPoison (by decide)]

theorem getFlags_setCore (t : State) (n : Nat) (x : Core) (c : Nat) : getFlags (t.setCore n x) c = getFlags t c := rfl

/-- The operation that every vector instruction ends with does what VWrote says. -/
theorem vwrote {s : State} {c : Fin 160} {sp : Nat → Bool} (h : coreRuns s c sp = true) (vd : Fin 32) (r : VReg × Nat) : VWrote c vd r s (vWrite c vd r (fetchCore c s)) := by
  have hf : getFlags ((fetchCore c s).setCore c (advance (setV vd r.1 ((fetchCore c s).core c)))) c = getFlags s c :=
    (getFlags_setCore ..).trans (getFlags_fetch h)
  have hc : ∀ d, (vWrite c vd r (fetchCore c s)).core d = ((fetchCore c s).setCore c (advance (setV vd r.1 ((fetchCore c s).core c)))).core d := by
    intro d
    have e : (vWrite c vd r (fetchCore c s)).cores = ((fetchCore c s).setCore c (advance (setV vd r.1 ((fetchCore c s).core c)))).cores := (orFlags_only ..).cores rfl
    unfold State.core at e ⊢
    rw [e]
  refine ⟨?_, ⟨fun d hd => ?_, fun j _ => ?_⟩, ?_, ?_⟩
  · rw [hc, State.core_setCore_same, fetchCore_core]
  · rw [hc, State.core_setCore_other _ (hd c rfl), fetchCore_core]
  · unfold State.sigc
    rw [(vWrite_only ..).sigcs rfl, (fetchCore_only ..).sigcs rfl]
  · unfold vWrite orFlags putFlags
    rw [hf]
    simp +decide (disch := first | decide | (refine fieldBit_ne ?_; decide)) [State.reg_setReg_other, Rg.coreArithFlagsSat]
  · unfold vWrite orFlags putFlags
    rw [hf]
    simp +decide (disch := first | decide | (refine fieldBit_ne ?_; decide)) [State.reg_setReg_other, Rg.coreArithFlagsPoison]

/-- Where a field stands within its page. -/
theorem fieldBit_mod {q : Page} {g : RegField} {j : Nat} (h : (g.off + g.stride * j) * 8 + g.lo < 32768) :
    fieldBit q g j % 32768 = (g.off + g.stride * j) * 8 + g.lo := by
  rw [fieldBit_split]
  have := pageBase_mod q
  omega


theorem each_reg {α : Type} {q : Page} {g : RegField} {j : Nat} (f : α → State → State) (h : ∀ x u, (f x u).reg q g j = u.reg q g j) (l : List α) (s : State) :
    (s.each l f).reg q g j = s.reg q g j := foldl_keep (fun t x => f x t) (fun u => u.reg q g j) (fun u x => h x u) l s

theorem fieldBit_ne_repair {q : Page} {g : RegField} {j : Nat} (hg : (g.off + g.stride * j) * 8 + g.lo < 4224 ∨ (4480 ≤ (g.off + g.stride * j) * 8 + g.lo ∧ (g.off + g.stride * j) * 8 + g.lo < 32768))
    (c : Nat) (f : RegField) (hs : f.off = 528 ∨ f.off = 544) (ht : f.stride = 4) (hl : f.lo < 32) (a : Nat) (ha : a < 4) : fieldBit q g j ≠ fieldBit (corePage c) f a := by
  intro e
  have h1 : fieldBit q g j % 32768 = (g.off + g.stride * j) * 8 + g.lo := fieldBit_mod (by omega)
  have h2 : fieldBit (corePage c) f a % 32768 = (f.off + f.stride * a) * 8 + f.lo := fieldBit_mod (by rw [ht]; omega)
  rw [e, h2, ht] at h1
  omega

/-- The repairs of a core stand in its two repair registers (R127, R128): freshRepairs leaves every field elsewhere. -/
theorem freshRepairs_reg {q : Page} {g : RegField} {j : Nat}
    (hg : (g.off + g.stride * j) * 8 + g.lo < 4224 ∨ (4480 ≤ (g.off + g.stride * j) * 8 + g.lo ∧ (g.off + g.stride * j) * 8 + g.lo < 32768))
    (c : Nat) (s : State) : (freshRepairs c s).reg q g j = s.reg q g j := by
  have hrow : ∀ n, (rowRepairFields n).1.off = 528 ∧ (rowRepairFields n).1.stride = 4 ∧ (rowRepairFields n).1.lo < 32 ∧
      (rowRepairFields n).2.1.off = 528 ∧ (rowRepairFields n).2.1.stride = 4 ∧ (rowRepairFields n).2.1.lo < 32 ∧
      (rowRepairFields n).2.2.off = 528 ∧ (rowRepairFields n).2.2.stride = 4 ∧ (rowRepairFields n).2.2.lo < 32 := by
    intro n; unfold rowRepairFields; split <;> decide
  have hcol : ∀ n, (colRepairFields n).1.off = 544 ∧ (colRepairFields n).1.stride = 4 ∧ (colRepairFields n).1.lo < 32 ∧
      (colRepairFields n).2.1.off = 544 ∧ (colRepairFields n).2.1.stride = 4 ∧ (colRepairFields n).2.1.lo < 32 ∧
      (colRepairFields n).2.2.off = 544 ∧ (colRepairFields n).2.2.stride = 4 ∧ (colRepairFields n).2.2.lo < 32 := by
    intro n; unfold colRepairFields; split <;> decide
  have three : ∀ (u : State) (e : Nat) (f : RegField × RegField × RegField) (a : Nat), a < 4 →
      (f.1.off = 528 ∨ f.1.off = 544) → f.1.stride = 4 → f.1.lo < 32 → (f.2.1.off = 528 ∨ f.2.1.off = 544) → f.2.1.stride = 4 → f.2.1.lo < 32 →
      (f.2.2.off = 528 ∨ f.2.2.off = 544) → f.2.2.stride = 4 → f.2.2.lo < 32 →
      (((u.setReg (corePage e) f.1 0 a).setReg (corePage e) f.2.1 0 a).setReg (corePage e) f.2.2 0 a).reg q g j = u.reg q g j := by
    intro u e f a ha h1 h2 h3 h4 h5 h6 h7 h8 h9
    rw [State.reg_setReg_other _ (fieldBit_ne_repair hg e _ h7 h8 h9 a ha), State.reg_setReg_other _ (fieldBit_ne_repair hg e _ h4 h5 h6 a ha),
      State.reg_setReg_other _ (fieldBit_ne_repair hg e _ h1 h2 h3 a ha)]
  unfold freshRepairs
  dsimp only
  refine (each_reg _ (fun r u => ?_) _ _).trans ?_
  · unfold applyFuseRepair
    split
    · rfl
    · split
      · obtain ⟨h1, h2, h3, h4, h5, h6, _⟩ := hcol r.index
        rw [State.reg_setReg_other _ (fieldBit_ne_repair hg _ _ (Or.inr h4) h5 h6 _ (Nat.mod_lt _ (by decide))),
          State.reg_setReg_other _ (fieldBit_ne_repair hg _ _ (Or.inr h1) h2 h3 _ (Nat.mod_lt _ (by decide)))]
      · obtain ⟨h1, h2, h3, h4, h5, h6, _⟩ := hrow r.index
        rw [State.reg_setReg_other _ (fieldBit_ne_repair hg _ _ (Or.inl h4) h5 h6 _ (Nat.mod_lt _ (by decide))),
          State.reg_setReg_other _ (fieldBit_ne_repair hg _ _ (Or.inl h1) h2 h3 _ (Nat.mod_lt _ (by decide)))]
  · have ha : ∀ a ∈ List.range 4, a < 4 := fun a h => List.mem_range.mp h
    have hf : ∀ (l : List Nat), (∀ a ∈ l, a < 4) → ∀ u : State, (u.each l fun a u =>
        (u.each (List.range 4) fun n v => ((v.setReg (corePage c) (rowRepairFields n).1 0 a).setReg (corePage c) (rowRepairFields n).2.1 0 a).setReg (corePage c) (rowRepairFields n).2.2 0 a).each
          (List.range 2) fun n v => ((v.setReg (corePage c) (colRepairFields n).1 0 a).setReg (corePage c) (colRepairFields n).2.1 0 a).setReg (corePage c) (colRepairFields n).2.2 0 a).reg q g j = u.reg q g j := by
      intro l
      induction l with
      | nil => intro _ u; rfl
      | cons a l ih =>
        intro hl u
        have hal := hl a (List.mem_cons_self ..)
        rw [each_cons, ih (fun b hb => hl b (List.mem_cons_of_mem _ hb)), each_reg, each_reg] <;> intro n v
        · obtain ⟨h1, h2, h3, h4, h5, h6, h7, h8, h9⟩ := hrow n
          exact three v c _ a hal (.inl h1) h2 h3 (.inl h4) h5 h6 (.inl h7) h8 h9
        · obtain ⟨h1, h2, h3, h4, h5, h6, h7, h8, h9⟩ := hcol n
          exact three v c _ a hal (.inr h1) h2 h3 (.inr h4) h5 h6 (.inr h7) h8 h9
    exact hf _ ha s

end Sys2Proof.Machine
end

