-- ==== Sys2Proof/Tests/Slice0.lean ====
section
/-! SUPPORT. Tests: ill-formed commands that WellFormed refuses, states and operands that meet each statement's hypotheses, and the values
of some registers at reset. -/

namespace Sys2Proof.Machine

set_option Elab.async false

/-- The blocks that serve memory, the fabric and the network. -/
def servingPages : List Page :=
  (List.range 20).map hbmcPage ++ (List.range 4).map msidPage ++ (List.range 8).map bulkPage ++ [fabrPage, shapPage, raspPage]

/-- A state of the running block with every register but the boot state at its reset value, and the blocks that serve memory, the fabric
and the network operating. -/
def upState : State :=
  { State.reset with
    plat := { phase := .running, broughtUp := true }
    host := { State.reset.host with linkUp := true }
    regs := servingPages.foldl (fun r p => fieldSet p Rg.pageStatusEnabled 0 1 r) (fieldSet mgmtPage Rg.mgmtBootStatusState 0 2 State.reset.regs) }

/-- The running block with core 0 in a context of partition 0 at address 0 of an instruction memory and a scratchpad of zeros. -/
def coreUp : State :=
  { upState with
    regs := upState.regs |> fieldSet (corePage 0) Rg.pageStatusEnabled 0 1
    cores := [(0, { ctx := some ⟨0, 0⟩, run := .running })]
    mem := { imem := { cells := (List.range 8).map fun i => (i, 0) }, spad := { cells := (List.range 8).map fun i => (0x3FFFF8 + i, 0) } } }

/-- A state with an instruction word at address 0 of core 0. -/
def withWord (w : Nat) (s : State) : State :=
  { s with mem := { s.mem with imem := { cells := (List.range 8).map fun i => (i, BitVec.ofNat 8 (w / 256 ^ i)) } } }

/-- The running block with signal core 0 at address 0 of an instruction memory of zeros. -/
def sigcUp : State :=
  { upState with
    regs := upState.regs |> fieldSet (sigcPage 0) Rg.pageStatusEnabled 0 1
    sigcs := [(0, { run := .running })]
    mem := { simem := { cells := (List.range 8).map fun i => (i, 0) } } }

/-- The signal core of sigcUp owned by partition 0, whose semaphore 0 is a free lock. -/
def sigcSem : State :=
  { sigcUp with regs := sigcUp.regs |> fieldSet (partPage 0) Rg.partSigcMaskCores 0 1 |> fieldSet (partPage 0) Rg.partSemCountCount 0 4
                sems := [(0, { lock := true })] }

/-- Signal core 0 blocked in SEMACQ on semaphore 0, a free lock. -/
def sigcWaits : State :=
  { sigcSem with sigcs := [(0, { run := .blocked ⟨.sem 0, 1, some 5, 0⟩ })], sems := [(0, { lock := true, waiters := [.agent (.sigc 0)] })] }

/-- Core 0 blocked in a wait. -/
def coreWaits (k : WaitKind) (d : Option (BitVec 64)) : State :=
  { coreUp with cores := [(0, { ctx := some ⟨0, 0⟩, run := .blocked ⟨k, 1, d, 0⟩, tags := [(4, .done false)] })] }

/-- Partition 0 owning core 0, with a result reported, a writable page of bulk port 0 at address 0 and, there, a context table whose
record 0 has weight 1 and the mask of core 0. -/
def partUp : State :=
  { upState with
    regs := upState.regs |> fieldSet (partPage 0) Rg.partCtxResultDone 0 1 |> fieldSet (partPage 0) Rg.partCoreMaskCores 0 1
      |> fieldSet (bulkPage 0) Rg.bulkPortStatusInSet 0 1 |> fieldSet (bulkPage 0) Rg.bulkPortStatusLinkUp 0 1
    tier := { bulkFrames := 1024, pages := [(0, { writable := true, tier := 1, pinned := true, compressed := false, frame := 0, object := 1, index := 0 })] }
    mem := { bulk := { cells := (List.range 128).map fun i => (i, if i = 2 ∨ i = 8 then 1 else 0) } } }

/-- A state with one fetched command of SQ 0, for partition 0. -/
def cmdUp (s : State) (entry : Nat) : State :=
  { s with host := { s.host with
    cmds := [{ sq := .num 0, cq := .num 0, id := 0, part := 0, entry := BitVec.ofNat 512 entry, sqHead := 0, arrival := 0 }] } }

/-- The reference that names it. -/
abbrev cmdRef : CmdRef := ⟨.num 0, 0⟩

/-- An SQ of depth 8 bound to CQ 0 with two entries that wait, and that CQ with one completion that waits. -/
def queueUp : State :=
  { upState with
    regs := upState.regs |> fieldSet (partPage 0) Rg.partSqCountCount 0 16 |> fieldSet (partPage 0) Rg.partCqCountCount 0 16
    host := { upState.host with
      sqs := [(0, { cls := 1, admin := false, remote := none, weight := 1, cq := .num 0, depth := 8, pasid := none, base := 0, progress := 0, tail := 2, arrivals := [0, 0] })]
      cqs := [(0, { vector := 0, coalesceCount := 1, coalesceTime := 0, depth := 4, pasid := none, base := 0, tail := 2, waiting := [⟨0, 0, 0, 0, 0, false, false⟩] })] } }

/-- coreUp with a descriptor at address 0 of the scratchpad of core 0, and encoder 0 owned by partition 0. -/
def issueUp (d : Nat) : State :=
  { coreUp with
    regs := coreUp.regs |> fieldSet codePage Rg.codeEncOwnerValid 0 1
    mem := { coreUp.mem with spad := { cells := (List.range 64).map fun i => (i, BitVec.ofNat 8 (d / 256 ^ i)) } } }

/-- partUp with its page in HBM and the first 64 bytes of it written. -/
def hbmUp : State :=
  { partUp with
    regs := partUp.regs |> fieldSet codePage Rg.pageStatusEnabled 0 1 |> fieldSet codePage Rg.codePolarOwnerValid 0 1
    tier := { pages := [(0, { writable := true, tier := 0, pinned := true, compressed := false, frame := 0, object := 1, index := 0 })] }
    mem := { partUp.mem with hbm := { cells := (List.range 64).map fun i => (i, 0) } } }

/-- coreUp with core 0 running and a fabric LOAD of device 1 in its queue, that device's page being mapped, and device 0 its own number. -/
def fabUp : State :=
  { coreUp with
    regs := coreUp.regs |> fieldSet fabrPage Rg.fabrDeviceIdValid 0 1 |> fieldSet fabrPage Rg.fabrPeerRangeValid 0 1 |> fieldSet fabrPage Rg.fabrPeerRangeHigh 0 9
      |> fieldSet (partPage 0) Rg.partFabricQuotaQuota 2 8 |> fieldSet fabrPage Rg.pageStatusEnabled 0 1
    tier := { pages := [(0, { writable := true, tier := 3, pinned := true, compressed := false, frame := 0, device := 1, object := 1, index := 0 })] }
    cores := [(0, { ctx := some ⟨0, 0⟩, run := .running, fabricQueue := [{ cmd := ⟨1 + 2 ^ 32, 0, some 3⟩, serial := 0 }] })] }

/-- Device 0 with partition 0 enabled for devices 0 to 9, devices 0 and 1 in one coherence group, and a page of buffer space mapped. -/
def homeUp : State :=
  { partUp with
    tier := { pages := [(0, { writable := true, tier := 2, pinned := true, compressed := false, frame := 0, object := 1, index := 0 })] }
    mem := { buf := { cells := (List.range 64).map fun i => (i, 0) } }
    regs := partUp.regs |> fieldSet fabrPage Rg.fabrDeviceIdValid 0 1 |> fieldSet fabrPage Rg.fabrPeerRangeValid 0 1 |> fieldSet fabrPage Rg.fabrPeerRangeHigh 0 9
      |> fieldSet fabrPage Rg.fabrGroupMembersValid0 0 1 |> fieldSet fabrPage Rg.fabrGroupMembersValid1 0 1 |> fieldSet fabrPage Rg.fabrGroupMembersMember1 0 1
      |> fieldSet (partPage 0) Rg.pageStatusEnabled 0 1 |> fieldSet mgmtPage Rg.mgmtZeroizeStatusPending 0 0 }

/-- Device 0 of a ring of four with ports 0 and 1 up, one second after reset. -/
def ringUp : State :=
  { homeUp with
    regs := homeUp.regs |> fieldSet fabrPage Rg.fabrSpanShapeX 0 3 |> fieldSet fabrPage Rg.fabrAdaptControlEnable 0 1 |> fieldSet (aqzlPage 0) Rg.aqzlLinkStatusState 0 3
      |> fieldSet (aqzlPage 1) Rg.aqzlLinkStatusState 0 3 |> fieldSet raspPage Rg.raspSaltControlEnable 0 1
    fabric := { homeUp.fabric with links := [(0, { peerDivision := [8, 8, 8, 8, 8, 8, 8, 8] }), (1, { peerDivision := [8, 8, 8, 8, 8, 8, 8, 8] })] }
    time := { sec := 1 } }

/-- Ethernet port 0 enabled with its link up; subscriber 0 is unlimited and holds one frame of 100 bytes in its class 0. -/
def ethUp : State :=
  { upState with
    regs := upState.regs |> fieldSet (ethpPage 0) Rg.pageControlEnable 0 1 |> fieldSet (ethpPage 0) Rg.ethpPortStatusLinkUp 0 1 |> fieldSet shapPage Rg.pageStatusEnabled 0 1
    eth := { upState.eth with nodes := [(0, { words := [1000, 1000, 8, 8, 0x20000, 0x80000000] }), (2 ^ 20, { words := [1000, 1000, 8, 8, 0x10000, 9], queue := [{ len := 100 }] }),
      (2 * 2 ^ 20, { words := [1000, 1000, 8, 8, 0, 0] })] } }

/-- A running cell of one antenna at 15 kHz, and a slot command of it. -/
def cellUp : Cell :=
  { info := { cell := 0, mu := 0, categoryB := false, prb := 20, txAnt := 1, rxAnt := 1, dlLayers := 1, ulLayers := 1, frameOffset := 0, port := 0, subscriber := 0, eaxcBase := 0
              eaxcCount := 1, compDl := (0, 0), compUl := (0, 0), t1aMaxUp := 100, t1aMinUp := 50, ta4Min := 10, ta4Max := 300, txMargin := 0, ulTide := 0, harqObject := 0
              eref := [], ingress := [] }
    slot := 0 }

def slotUp : SlotRun :=
  { cmd := { sq := .num 0, cq := .num 0, id := 0, part := 0, entry := 0, sqHead := 0, arrival := 0 }, cq := .num 0, cell := 0, frame := 0, slot := 0, index := 0, predicted := 0
    tasks := [] }

/-- The state in which a signal core's channel 0 moves lines of HBM. -/
def dmaUp (d moved : Nat) : State :=
  { partUp with
    regs := partUp.regs |> fieldSet (sigcPage 0) Rg.pageStatusEnabled 0 1 |> fieldSet (partPage 0) Rg.partSigcMaskCores 0 1
    sigcs := [(0, { run := .running, dma := [(0, { queue := [⟨BitVec.ofNat 512 d, 0, none⟩], started := true, moved := moved })] })] }

/-- homeUp with an object of one page, allotments, and a sluice list of one entry of a kind at address 0. -/
def objUp (kind : Nat) : State :=
  { homeUp with
    regs := homeUp.regs |> fieldSet (partPage 0) Rg.partHbmAllotUnits 0 4 |> fieldSet (partPage 0) Rg.partSemCountCount 0 4 |> fieldSet (partPage 0) Rg.partConfigKind 0 1
      |> fieldSet (partPage 0) Rg.partHeatControlEnable 0 1
    sems := [(0, { count := 1 })]
    tier := { homeUp.tier with
      objects := [(1, { hint := 0, tier := 2, pinned := true, compressed := false, writable := true, replica := 0, base := 0, size := 2097152, indexAddr := 0, replicaAddr := 0, pasid := 0,
                        elemTable := 0, scaleTable := 0, blockBytes := 0 })] }
    mem := { buf := { cells := (List.range 128).map fun i => (i, if i = 0 ∨ i = 3 then 1 else if i = 2 then 2 else if i = 0x19 then 16 else if i = 64 then BitVec.ofNat 8 kind
      else if i = 80 then 64 else 0) } } }

/-- The servo of the time unit with a phase source, locked. -/
def timeUp : State :=
  { upState with
    regs := upState.regs |> fieldSet timePage Rg.timeSourceControlPhaseSource 0 1 |> fieldSet timePage Rg.timeServoStatusState 0 2
      |> fieldSet timePage Rg.timeServoStatusFreqValid 0 1 |> fieldSet timePage Rg.timeSourceControlFreqSource 0 1 |> fieldSet timePage Rg.timePpsOutEnable 0 1
    time := { sec := 4, sampleAt := some 0 } }

/-- Pairing on, with the twin's copy complete and a standby cell 0 of partition 0. -/
def twinUp (standby : Bool) : State :=
  { partUp with
    regs := partUp.regs |> fieldSet raspPage Rg.raspTwinControlEnable 0 1 |> fieldSet raspPage Rg.raspTwinStatusState 0 2 |> fieldSet raspPage Rg.raspTwinMapValid 0 1
      |> fieldSet (partPage 0) Rg.pageStatusEnabled 0 1 |> fieldSet raspPage Rg.raspTwinControlTakeover 0 1
    time := { sec := 1 }
    radio := { partUp.radio with parts := [(0, { cells := [(0, { cellUp with standby := standby })] })] } }

/-- Partition 0 a radio partition with a running cell 0, a slot command of its frame 0 slot 0, partition 1 an inference partition that lends
its idle core 1. -/
def radioUp : State :=
  { homeUp with
    regs := homeUp.regs |> fieldSet (partPage 0) Rg.partConfigKind 0 2 |> fieldSet (partPage 1) Rg.pageStatusEnabled 0 1 |> fieldSet (partPage 1) Rg.partConfigKind 0 1
      |> fieldSet (partPage 1) Rg.partCoreMaskCores 0 2 |> fieldSet (partPage 0) Rg.partSurgeDonorsMask 0 2 |> fieldSet (partPage 0) Rg.partSurgeControlMaxSurge 0 4
    time := { sec := 694656019 }
    radio := { homeUp.radio with parts := [(0, { cells := [(0, { cellUp with info := { cellUp.info with prb := 20 } })], slots := [slotUp] })] } }

/-- The 256 bytes of a cell, its ingress map and its EREF table, at address 0. -/
def cellBytes : Nat :=
  (20 + 2 ^ 16 + 2 ^ 24) * 2 ^ 32 + (1 + 2 ^ 8) * 2 ^ 64 + 2 ^ 16 * 2 ^ 160 + (8 + 2 ^ 19) * 2 ^ 192 + 264 * 2 ^ 256 + (100 + 50 * 2 ^ 16) * 2 ^ 320 +
    (10 + 300 * 2 ^ 16) * 2 ^ 352 + (1 + 100 * 2 ^ 16) * 2 ^ 384 + 256 * 2 ^ 448

/-- The image of a group of one prefill core 0 and one decode core 1, and of a stream with a prompt of 33 tokens. -/
def groupUp : Nat := 14 * 2 ^ 8 + (1 + 2 ^ 8 + 2 ^ 16) * 2 ^ 32 + (1 + 2 ^ 16) * 2 ^ 64 + 32 * 2 ^ 96 + 2 ^ 256 + 2 * 2 ^ 416

def streamUp : Nat := 33 * 2 ^ 64 + 2 ^ 96 + 2 ^ 528 + 2 ^ 544 + 2 ^ 704

/-- Partition 0 serving with that group and, in a state, stream 0, four KV entries bound to an object. -/
def serveUp (x : StreamRun) : State :=
  { homeUp with
    regs := homeUp.regs |> fieldSet (partPage 0) Rg.partConfigKind 0 1 |> fieldSet (partPage 0) Rg.partCoreMaskCores 0 3 |> fieldSet (partPage 0) Rg.partStreamCountCount 0 8
      |> fieldSet (partPage 0) Rg.partKvCountCount 0 4
    tier := { homeUp.tier with
      objects := [(1, { hint := 1, tier := 2, pinned := true, compressed := false, writable := true, replica := 0, base := 0, size := 2097152, indexAddr := 0, replicaAddr := 0, pasid := 0,
                        elemTable := 0, scaleTable := 0, blockBytes := 0 })] }
    serve := { homeUp.serve with groups := [(0, { image := BitVec.ofNat 1024 groupUp })], pools := [(0, { object := 1, layerBytes := 64, layers := 1 })], streams := [(0, x)] } }

abbrev streamZero (state : Nat) : StreamRun := { part := 0, image := BitVec.ofNat 2048 streamUp, group := 0, state := state, admitNo := 1 }

/-- The management controller serving its sideband ports with an I3C address, an SPDM connection with a session on the PF's mailbox. -/
def mgmtUp : State :=
  { upState with
    regs := upState.regs |> fieldSet mgmtPage Rg.mgmtSidebandI3cEnable 0 1
    mgmt := { upState.mgmt with dynAddr := some 8, spdm := [(0, 3), (3, 3)], sessions := [(3, .established)], readings := [(.inlet, 300)] } }

/-! ### WellFormed refuses an ill-formed command for each of its checks -/

theorem test_bytes_refused : wellFormed (.registerWrite .controller 3 0 0) = false := by decide

theorem test_window_refused : wellFormed (.counterLatchRead .controller 67108864) = false := by decide

theorem test_page_refused : wellFormed (.blockFrozen (corePage 160)) = false := by decide

theorem test_line_refused : lineOk [] = false ∧ lineOk (List.replicate 65 0) = false := by decide

theorem test_slot_refused : slotOk 1024 0 = false ∧ slotOk 0 80 = false := by decide

theorem test_repair_refused : repairOk ⟨0, 4, false, 0, 0⟩ = false ∧ repairOk ⟨0, 0, false, 0, 33⟩ = false := by decide

theorem test_env_refused : wellFormed (.bringupStart ⟨true, true, [176], [], [], [], 0, []⟩) = false := by decide

theorem test_link_refused : linkOk 0 16 = false ∧ linkOk 3 5 = false := by decide

theorem test_packet_refused : wellFormed (.load { emptyPacket with data := List.replicate 4097 0 }) = false := by decide +kernel

theorem test_flit_refused : flitOk ⟨0, 1, true, some emptyPacket⟩ = false := by decide

theorem test_train_refused : trainOk ⟨0, none, true, true, 15, 0, [8], [], []⟩ = false := by decide

theorem test_frame_refused : frameOk ⟨true, 0, [], [], none, [⟨0, 0, 0, 0, 0, 0, 0, [(0, 0, [])]⟩], 0⟩ = false := by decide

theorem test_move_refused : moveOk (.toLane 0 0 128) = false := by decide

theorem test_sample_refused : sampleOk ⟨[], [], none, 0, []⟩ = false := by decide

/-! ### The table gives no bits -/

theorem test_no_word : decodeTableWord 32 0x12345678 = none := rfl

theorem test_no_fetch : State.reset.withFetchWord 32 0 = State.reset := rfl

/-! ### States and operands that meet the hypotheses of the statements beside the completion statements -/

/-- The running block with a command in front of its queue. -/
def waitingUp : State := { upState with pending := [.rdtime (.core 0) 1] }

theorem witness_frontCommand : waitingUp.pending = .rdtime (.core 0) 1 :: [] := rfl

theorem witness_tick : upState.pending = [] ∧ upState.alive = true ∧ upState.time.loadSec = none ∧ upState.time.step = 0 ∧
    upState.time.sub < unitsPerSec ∧ -(2 ^ 48) < freqY upState ∧
    (timeUnits upState : Int) + (4 * 2 ^ 48 + 4 * freqY upState) < ((2 ^ 48 * unitsPerSec : Nat) : Int) := by decide +kernel

theorem witness_tick_load : ({ upState with time := { loadSec := some 7, forced := true } } : State).alive = true := by decide +kernel

theorem witness_invariant : Invariant State.reset ∧ step State.reset = .next (idleTick State.reset) :=
  ⟨⟨by decide, by decide, by decide, by decide, by intro v h; cases h⟩, rfl⟩

theorem witness_frame : ∃ t, exec .refclkALoss upState = .next t := ⟨_, rfl⟩

theorem witness_plainWrite : pageAt 0x00100074 = some (corePage 0) ∧ writeTaken upState .controller (corePage 0) 0x074 = true ∧
    plainRegister upState (corePage 0) 0x074 1 = true := by decide +kernel

theorem witness_noPage : pageAt 0x00005000 = none ∧ pathUp upState .controller = true := by decide +kernel

theorem witness_hiddenPage : target (.freezeWrite (.function 5) (corePage 3) true) = some (.function 5, corePage 3, 0x010) ∧
    pageOk (corePage 3) = true ∧ pathUp upState (.function 5) = true ∧ canSee upState (.function 5) (corePage 3) = false := by decide +kernel

theorem witness_hiddenRead : pageAt 0x00103040 = some (corePage 3) ∧ canSee upState (.function 5) (corePage 3) = false := by decide +kernel

/-- The running block whose partition 0 maps to function 5. -/
def mappedUp : State := { upState with regs := fieldSet (partPage 0) Rg.partConfigFunction 0 5 upState.regs }

theorem witness_partRefused : target (.resizeStart (.function 5) 0) = some (.function 5, partPage 0, 0x088) ∧ pageOk (partPage 0) = true ∧
    pathUp mappedUp (.function 5) = true ∧ canSee mappedUp (.function 5) (partPage 0) = true ∧
    ¬((0x100 ≤ (0x088 : Nat) ∧ (0x088 : Nat) < 0x140) ∨ (0x240 ≤ (0x088 : Nat) ∧ (0x088 : Nat) < 0x280) ∨ (0x088 : Nat) = 0x200) := by decide +kernel

theorem witness_partWritable : pageAt 0x0030013C = some (partPage 0) ∧ canSee mappedUp (.function 5) (partPage 0) = true ∧
    mappedUp.flag (partPage 0) Rg.pageControlSoftReset = false ∧ (0x100 ≤ 0x0030013C % 0x1000 ∧ 0x0030013C % 0x1000 < 0x140) := by decide +kernel

theorem witness_partServing : pageAt 0x00300240 = some (partPage 0) ∧ pageAt 0x0030027C = some (partPage 0) ∧ pageAt 0x00300200 = some (partPage 0) := by
  decide +kernel

theorem witness_partPrivileged : pageAt 0x00300040 = some (partPage 0) ∧ pathUp mappedUp (.function 0) = true ∧
    lockedWrite mappedUp (.function 0) (partPage 0) = false := by decide +kernel

theorem witness_firstError : upState.reg hostPage Rg.pageErrorFirst0Valid = 0 := by decide +kernel

/-- The running block with an error record on the HOST page. -/
def recordUp : State := upState.error hostPage 0x0123 0 0

theorem witness_laterError : recordUp.reg hostPage Rg.pageErrorFirst0Valid ≠ 0 ∧ pageAt 0x00010034 = some hostPage ∧
    writeTaken recordUp .controller hostPage 0x034 = true ∧ recordUp.flag hostPage Rg.pageErrorFirst0Valid = true := by decide +kernel

/-- The running block with bit 1 of GLOB enabled as an interrupt, and its vector 0 of the physical function unmasked or masked. -/
def irqUp (masked : Bool) : State :=
  { upState with
    regs := fieldSet globPage Rg.pageIntEnable 0 2 upState.regs
    host := { upState.host with msix := if masked then [] else [(0, 0)], vectorPending := if masked then [] else [0] } }

theorem witness_irqSent : writeTaken (irqUp false) .controller globPage 0x028 = true ∧ intCondition (irqUp false).regs globPage = false ∧
    intCondition ((irqUp false).raiseBits globPage 2).regs globPage = true ∧
    vectorMasked (irqUp false) (msixKey (routeOf (irqUp false) globPage).1 (routeOf (irqUp false) globPage).2) = false ∧
    (irqUp false).host.linkUp = true := by decide +kernel

theorem witness_irqHeld : intCondition (irqUp true).regs globPage = false ∧ intCondition ((irqUp true).raiseBits globPage 2).regs globPage = true ∧
    vectorMasked (irqUp true) (msixKey (routeOf (irqUp true) globPage).1 (routeOf (irqUp true) globPage).2) = true := by decide +kernel

theorem witness_irqUnmask : (irqUp false).alive = true ∧ (irqUp false).host.vectorPending = [] ++ msixKey 0 0 :: [] := by decide +kernel

/-- coreUp with 2²² + 1 in g1 and 2²² in g2, and a word at the program counter. -/
def farUp (w : Nat) : State :=
  withWord w { coreUp with cores := [(0, { ctx := some ⟨0, 0⟩, run := .running, gpr := [(1, 0x400001), (2, 0x400000)] })] }

theorem witness_trapIllegal : coreExecutes (farUp 5) 0 = true ∧ wordAt (farUp 5) 0 = 5 ∧ mayBeReserved 5 = true := by decide +kernel

theorem witness_trapBranch : coreExecutes (farUp (0x10 * 2 ^ 26)) 0 = true ∧ wordAt (farUp (0x10 * 2 ^ 26)) 0 = 0x10 * 2 ^ 26 ∧
    inGroupOf 0x10 0x17 (0x10 * 2 ^ 26) = true ∧ (getG ((farUp 0).core 0) 1).toNat % 4 ≠ 0 := by decide +kernel

theorem witness_trapDivide : coreExecutes (farUp 0) 0 = true ∧ inGroupOf 0x00 0x0F (wordAt (farUp 0) 0) = true ∧
    divByZero .divS (scalarSrc ((farUp 0).core 0) (.imm 0)) = true := by decide +kernel

theorem witness_trapAddress : coreExecutes (farUp (0x18 * 2 ^ 26)) 0 = true ∧ inGroupOf 0x18 0x1B (wordAt (farUp (0x18 * 2 ^ 26)) 0) = true ∧
    (getG ((farUp 0).core 0) 1 + 0).toNat % widthBytes .b64 ≠ 0 ∧ (getG ((farUp 0).core 0) 2 + 0).toNat % widthBytes .b64 = 0 ∧
    (getG ((farUp 0).core 0) 2 + 0).toNat ≥ 2 ^ 22 := by decide +kernel

theorem witness_trapRaw : placeRaw (.post 0 0 0) = some (0, 0, false, 0) ∧ sigcExecutes sigcUp 0 = true ∧
    postModify (getK (sigcUp.sigc 0) 0) (getA (sigcUp.sigc 0) 0) (sigcUp.free 64 1) (widthBytes .b64) 0 = some 0 := by decide +kernel

/-- sigcUp with 1 in a0 and 2¹⁹ in a1. -/
def farSigc : State := { sigcUp with sigcs := [(0, { run := .running, a := [(0, 1), (1, 2 ^ 19)] })] }

theorem witness_trapRawAddress : (getA (farSigc.sigc 0) 0).toNat % widthBytes .b64 ≠ 0 ∧ (getA (farSigc.sigc 0) 1).toNat % widthBytes .b64 = 0 ∧
    (getA (farSigc.sigc 0) 1).toNat ≥ 2 ^ 19 := by decide +kernel

theorem witness_between : scalarSpelled (.clz 1 1) (wordAt coreUp 0) = true ∧ vecSpelled 0x24 0 0 (some 0) (some .z8) 0x90000000 = true := by
  decide +kernel

/-- A core of partition 0 that is blocked on the gate of a fill in progress, 0.8 ns after a whole nanosecond. -/
def stallUp : State :=
  { objUp 1 with
    sems := [], time := { sub := 4 * 2 ^ 48 }
    cores := [(0, { ctx := some ⟨0, 0⟩, run := .blocked { kind := .sem 0, gd := 0, deadline := none, cp := 0 } })]
    tier := { (objUp 1).tier with sluices := [(0, { part := 0, list := 0, filling := true })] } }

theorem witness_stall : (tick stallUp).now ≠ stallUp.now ∧ (tick stallUp).working = true ∧
    ((tick stallUp).tier.sluices.map fun e => e.2.part).eraseDups.filter (stalled (tick stallUp)) = [0] ∧
    (firstFill (tick stallUp) 0).isSome = true ∧ (sluiceEntry (tick stallUp) 0 0 0).isSome = true := by decide +kernel

theorem witness_unarmed : coreUp.flag raspPage Rg.raspFlipControlArm = false := by decide +kernel

theorem witness_plainReset : plainReset (corePage 3) = true ∧ plainReset polcPage = true := by decide

/-! ### The system instructions complete, a deferred trap is taken, and a write of TRAP_CONTROL ends a trap -/

theorem witness_rdtime : canRdtime (.core 0) 3 (withWord (0x38 * 2 ^ 26 + 2 ^ 22 + 3 * 2 ^ 17) coreUp) = true := by decide +kernel

theorem witness_rdflags : canRdflags (.core 0) 31 (withWord (0x38 * 2 ^ 26 + 2 * 2 ^ 22 + 31 * 2 ^ 17) coreUp) = true := by decide +kernel

theorem witness_rdwave : canRdwave (.sigc 0) 15 sigcUp = true := by decide +kernel

theorem witness_brk : canBrk (.sigc 0) 0xFFFF sigcUp = true := by decide +kernel

theorem witness_clrflags : canClrflags (.core 0) 0xF (withWord (0x38 * 2 ^ 26 + 3 * 2 ^ 22 + 0xF) coreUp) = true := by decide +kernel

theorem witness_halt : canHalt (.core 0) (withWord (0x38 * 2 ^ 26 + 5 * 2 ^ 22) coreUp) = true := by decide +kernel

theorem witness_deferredTrap : canDeferredTrap 0 { coreUp with cores := [(0, { ctx := some ⟨0, 0⟩, run := .running, deferred := some (8, 0, 5, 0x40) })] } = true := by decide +kernel

theorem witness_trapResume : canTrapResume .controller 0 { coreUp with regs := coreUp.regs |> fieldSet (corePage 0) Rg.coreTrapCauseValid 0 1 } = true := by decide +kernel

theorem witness_trapSkip : canTrapSkip .controller 0 { coreUp with regs := coreUp.regs |> fieldSet (corePage 0) Rg.coreTrapCauseValid 0 1 } = true := by decide +kernel

theorem witness_trapAbort : canTrapAbort .controller 0 { coreUp with regs := coreUp.regs |> fieldSet (corePage 0) Rg.coreTrapCauseValid 0 1 } = true := by decide +kernel

theorem witness_sigcTrapResume : canSigcTrapResume .controller 0 { sigcUp with regs := sigcUp.regs |> fieldSet (sigcPage 0) Rg.sigcTrapCauseValid 0 1 } = true := by decide +kernel

theorem witness_sigcTrapSkip : canSigcTrapSkip .controller 0 { sigcUp with regs := sigcUp.regs |> fieldSet (sigcPage 0) Rg.sigcTrapCauseValid 0 1 } = true := by decide +kernel

theorem witness_sigcTrapAbort : canSigcTrapAbort .controller 0 { sigcUp with regs := sigcUp.regs |> fieldSet (sigcPage 0) Rg.sigcTrapCauseValid 0 1 } = true := by decide +kernel

/-! ### Array passes and tile loads start and end, the probe starts, and repairs are written -/

theorem witness_arrayPassStart : canArrayPassStart 0 0 [5] { coreUp with cores := [(0, { ctx := some ⟨0, 0⟩, run := .running, arrayQueue := [{ pass := true, desc := 0, members := [0], pc := 0, tag := some 3, seed := 0, step := 0 }] })] } = true := by decide +kernel

theorem witness_arrayPassDone : canArrayPassDone 0 0 [7] { coreUp with cores := [(0, { ctx := some ⟨0, 0⟩, run := .running, arrayQueue := [{ pass := true, desc := 0, members := [0], pc := 0, tag := some 3, seed := 0, step := 0, started := true }] })] } = true := by decide +kernel

theorem witness_tileLoadStart : canTileLoadStart 0 0 { coreUp with cores := [(0, { ctx := some ⟨0, 0⟩, run := .running, arrayQueue := [{ pass := false, desc := 0, members := [0], pc := 0, tag := some 3, seed := 0, step := 0 }] })] } = true := by decide +kernel

theorem witness_tileLoadDone : canTileLoadDone 0 0 { coreUp with cores := [(0, { ctx := some ⟨0, 0⟩, run := .running, arrayQueue := [{ pass := false, desc := 0, members := [0], pc := 0, tag := some 3, seed := 0, step := 0, started := true }] })] } = true := by decide +kernel

theorem witness_skewProbeStart : canSkewProbeStart .controller 0 0x1F { coreUp with regs := coreUp.regs |> fieldSet (corePage 0) Rg.pageStatusFrozen 0 1 } = true := by decide +kernel

theorem witness_rowRepairWrite : canRowRepairWrite .controller 0 1 0x2F { coreUp with regs := coreUp.regs |> fieldSet (corePage 0) Rg.pageStatusFrozen 0 1 } = true := by decide +kernel

theorem witness_colRepairWrite : canColRepairWrite .controller 0 1 0x41 { coreUp with regs := coreUp.regs |> fieldSet (corePage 0) Rg.pageStatusFrozen 0 1 } = true := by decide +kernel

/-! ### A cheap point is passed or saves, and forced preemption saves and delivers -/

theorem witness_cpmark : canCpmark 0 1 0 (withWord (cpmarkWord 1 0) coreUp) = true := by decide +kernel

theorem witness_cheapSaveDone : canCheapSaveDone 0 { coreUp with cores := [(0, { ctx := some ⟨0, 0⟩, run := .cheapSave, live := some ⟨0, 0, []⟩ })] } = true := by decide +kernel

theorem witness_forcedPreempt : canForcedPreempt 0 { coreUp with cores := [(0, { ctx := some ⟨0, 0⟩, run := .running, preempt := true, preemptAt := some 0 })], time := { sec := 1 } } = true := by decide +kernel

theorem witness_forcedSaveDone : canForcedSaveDone 0 { coreUp with cores := [(0, { ctx := some ⟨0, 0⟩, run := .forcedSave })] } = true := by decide +kernel

theorem witness_preemptDelivered : canPreemptDelivered 0 { coreUp with cores := [(0, { ctx := some ⟨0, 0⟩, run := .running, asked := true })] } = true := by decide +kernel

/-! ### ISSUE queues a descriptor on its engine, and coding descriptors are admitted, run and complete -/

theorem witness_codingQueueAdmit : canCodingQueueAdmit 0 { coreUp with cores := [(0, { ctx := some ⟨0, 0⟩, run := .running, codingQueue := [⟨1, 0, none⟩] })] } = true := by decide +kernel

theorem witness_codingDescriptorStart : canCodingDescriptorStart (.polar 0) false { hbmUp with coding := { queues := [(0, [⟨0, ⟨0, 0⟩, ⟨3, 0, none⟩⟩])] } } = true := by decide +kernel

theorem witness_codingDescriptorDone : canCodingDescriptorDone (.polar 0) { hbmUp with coding := { running := [(64, (⟨0, ⟨0, 0⟩, ⟨3 + 2 ^ 17 + 12 * 2 ^ 32 + 32 * 2 ^ 64, 0, none⟩⟩, 0))] } } = true := by decide +kernel

theorem witness_codeOwnerWrite : canCodeOwnerWrite .controller (.decoder 3) 0x85 upState = true := by decide +kernel

theorem witness_issueArrayPass : canIssueArrayPass 0 ⟨0, 0, 3, false, 0⟩ (withWord (issueWord 0 ⟨0, 0, 3, false, 0⟩) (issueUp (2 ^ 153 + 2 ^ 281))) = true := by decide +kernel

theorem witness_issueTileLoad : canIssueTileLoad 0 ⟨0, 0, 3, false, 0⟩ (withWord (issueWord 1 ⟨0, 0, 3, false, 0⟩) (issueUp (2 ^ 153))) = true := by decide +kernel

theorem witness_issueStream : canIssueStream 0 ⟨0, 5, 3, false, 0⟩ (withWord (issueWord 2 ⟨0, 5, 3, false, 0⟩) (issueUp (2 ^ 32 + 2 ^ 48 + 2 ^ 64 + 64 * 2 ^ 416))) = true := by decide +kernel

theorem witness_issueCoding : canIssueCoding 0 ⟨0, 0, 3, false, 0⟩ (withWord (issueWord 4 ⟨0, 0, 3, false, 0⟩) (issueUp (1 + 24 * 2 ^ 32))) = true := by decide +kernel

theorem witness_issueFabric : canIssueFabric 0 ⟨0, 0, 3, false, 0⟩ (withWord (issueWord 3 ⟨0, 0, 3, false, 0⟩) (issueUp (1 + 2 ^ 32))) = true := by decide +kernel

/-! ### CTX_CONTROL activates, suspends, resumes and destroys a context -/

theorem witness_ctxActivate : canCtxActivate .controller 0 0 partUp = true := by decide +kernel

theorem witness_ctxSuspend : canCtxSuspend .controller 0 3 (partUp.setCtx 0 3 { state := 5 }) = true := by decide +kernel

theorem witness_ctxResume : canCtxResume .controller 0 0 (partUp.setCtx 0 0 { state := 4 }) = true := by decide +kernel

theorem witness_ctxDestroy : canCtxDestroy .controller 0 3 (partUp.setCtx 0 3 { state := 5 }) = true := by decide +kernel

/-! ### The scheduler ends a slice, starts a context and restores one -/

theorem witness_sliceEnd : canSliceEnd 0 3 { upState with ctxs := [(3, { state := 2 })], time := { sec := 1 } } = true := by decide +kernel

theorem witness_contextStart : canContextStart 0 3 { upState with ctxs := [(3, { state := 1, claiming := true, mask := 2 })] } = true := by decide +kernel

theorem witness_contextRestoreDone : canContextRestoreDone 0 { coreUp with cores := [(0, { ctx := some ⟨0, 0⟩, run := .restoring })] } = true := by decide +kernel

/-! ### Ethernet frames, timestamps, tokens, nodes and policers: each command has its effect -/

theorem witness_groupModeWrite : canGroupModeWrite .controller 1 2 upState = true := by decide +kernel

theorem witness_ethLinkChange : canEthLinkChange 0 false ethUp = true := by decide +kernel

theorem witness_txtsEntry : canTxtsEntry 0 5 77 { ethUp with eth := { ethUp.eth with ports := [(0, { awaited := [some 5] })] } } = true := by decide +kernel

theorem witness_txtsPopRead : canTxtsPopRead .controller 0 ethUp = true := by decide +kernel

theorem witness_ptpFrameHandoff : canPtpFrameHandoff 0 none 64 (some 5) false ethUp = true := by decide +kernel

theorem witness_ethFrameTx : canEthFrameTx 0 ethUp = true := by decide +kernel

theorem witness_ethFrameRx : canEthFrameRx 0 ⟨true, 0, [], List.replicate 64 0, none, [], 0⟩ ethUp = true := by decide +kernel

theorem witness_uplaneHandoff : canUplaneHandoff 0 0 0 0 2 true [⟨0, 0, 0x80, []⟩] { ethUp with radio := { ethUp.radio with parts := [(0, { cells := [(0, cellUp)], slots := [slotUp] })] }, time := { sec := 694656020 } } = true := by decide +kernel

theorem witness_tokenRecordAccepted : canTokenRecordAccepted 3 true { queueUp with serve := { queueUp.serve with streams := [(3, { part := 0, image := 0, group := 0, admitNo := 0, records := [⟨7, 0, false, none⟩] })] }, host := { queueUp.host with cqs := queueUp.host.cqs.map fun (e : Nat × CqState) => (e.1, { e.2 with waiting := [] }) } } = true := by decide +kernel

theorem witness_nodeRead : canNodeRead .controller ethUp = true := by decide +kernel

theorem witness_nodeWrite : canNodeWrite .controller ethUp = true := by decide +kernel

theorem witness_policerRead : canPolicerRead .controller ethUp = true := by decide +kernel

theorem witness_policerWrite : canPolicerWrite .controller ethUp = true := by decide +kernel

/-! ### A wave window ends, arrays and cores are fenced, and a probe ends -/

theorem witness_waveWindowEnd : canWaveWindowEnd (.core 3) 1600 false upState = true := by decide +kernel

theorem witness_arrayFence : canArrayFence 3 2 false upState = true := by decide +kernel

theorem witness_skewProbeDone : canSkewProbeDone 3 2 0 { upState with regs := upState.regs |> fieldSet (corePage 3) Rg.coreSkewProbeBusy 0 1 } = true := by decide +kernel

theorem witness_coreFenceWrite : canCoreFenceWrite .controller 0x80000005 upState = true := by decide +kernel

theorem witness_coreCheckFail : canCoreCheckFail 3 { upState with plat := { upState.plat with freeCores := [40, 84] } } = true := by decide +kernel

/-! ### Spares take the place of cores, an injection is armed, and a package repair runs -/

theorem witness_spareReplaceDone : canSpareReplaceDone 3 true true { upState with plat := { upState.plat with freeCores := [40, 84] }, regs := upState.regs |> fieldSet (corePage 3) Rg.pageStatusFenced 0 1 } = true := by decide +kernel

theorem witness_sigcReplaceDone : canSigcReplaceDone 3 { upState with plat := { upState.plat with freeSigcs := [16] }, regs := upState.regs |> fieldSet (sigcPage 3) Rg.pageStatusFenced 0 1 } = true := by decide +kernel

theorem witness_coreRetireWrite : canCoreRetireWrite .controller 1 6 upState = true := by decide +kernel

theorem witness_flipArm : canFlipArm .controller 1 { upState with regs := upState.regs |> fieldSet raspPage Rg.raspFlipSelectTarget 0 3 } = true := by decide +kernel

theorem witness_pprStart : canPprStart .controller 0x20003 upState = true := by decide +kernel

theorem witness_pprDone : canPprDone .failed { upState with ras := { upState.ras with ppr := some 5 } } = true := by decide +kernel

/-! ### A fabric request that reaches its home is performed and answered -/

theorem witness_load : canLoad { emptyPacket with op := 1, src := 1 } homeUp = true := by decide +kernel

theorem witness_store : canStore { emptyPacket with op := 2, src := 1, data := [1, 2, 3, 4] } homeUp = true := by decide +kernel

theorem witness_atomic : canAtomic { emptyPacket with op := 3, src := 1, data := [1, 2, 3, 4] } homeUp = true := by decide +kernel

theorem witness_atomicNr : canAtomicNr { emptyPacket with op := 4, src := 1, data := [1, 2, 3, 4] } homeUp = true := by decide +kernel

theorem witness_reduce : canReduce { emptyPacket with op := 5, src := 1, func := 8, contributors := 3, index := 1, data := List.replicate 66 0 } homeUp = true := by decide +kernel

theorem witness_mcastStore : canMcastStore { emptyPacket with op := 6, src := 1, ext := 1, data := [1, 2, 3, 4] } homeUp = true := by decide +kernel

theorem witness_dmaRead : canDmaRead { emptyPacket with op := 7, src := 1, ext := 64 } homeUp = true := by decide +kernel

theorem witness_dmaWrite : canDmaWrite { emptyPacket with op := 8, src := 1, ext := 64, data := List.replicate 64 7 } homeUp = true := by decide +kernel

theorem witness_readS : canReadS { emptyPacket with op := 0x10, src := 1 } true homeUp = true := by decide +kernel

theorem witness_readX : canReadX { emptyPacket with op := 0x11, src := 1 } homeUp = true := by decide +kernel

/-! ### The messages about cached lines are performed, a gather times out, and the absorber writes back -/

theorem witness_writeback : canWriteback { emptyPacket with op := opWriteback, src := 1, data := List.replicate 64 7 } { homeUp with fabric := { homeUp.fabric with dir := [(0, { owner := some 1 })] } } = true := by decide +kernel

theorem witness_evict : canEvict { emptyPacket with op := opEvict, src := 1 } { homeUp with fabric := { homeUp.fabric with dir := [(0, { owner := some 1 })] } } = true := by decide +kernel

theorem witness_invalidate : canInvalidate { emptyPacket with op := opInvalidate, src := 1 } homeUp = true := by decide +kernel

theorem witness_recall : canRecall { emptyPacket with op := opRecall, src := 1 } homeUp = true := by decide +kernel

theorem witness_gatherTimeout : canGatherTimeout 0 0 { homeUp with fabric := { homeUp.fabric with gathers := [(0, { count := 2, scaleAddr := 0, func := 0, since := 0 })] }, time := { sec := 1 } } = true := by decide +kernel

theorem witness_absorberWriteback : canAbsorberWriteback 0 5 { homeUp with fabric := { homeUp.fabric with absorber := [(0, [(5, 0)])] }, time := { sec := 1 } } = true := by decide +kernel

/-! ### The PCIe link goes down and up, configuration is answered, and the memory window reads, writes and updates -/

theorem witness_pcieLinkDown : canPcieLinkDown upState = true := by decide +kernel

theorem witness_pcieLinkUp : canPcieLinkUp 3 16 true upState = true := by decide +kernel

theorem witness_pcieConfigRequest : canPcieConfigRequest 0 4 upState = true := by decide +kernel

theorem witness_windowRead : canWindowRead 0 0x100000 4 false { partUp with host := { partUp.host with windows := [(0, { valid := true, part := 0, base := 0 })] } } = true := by decide +kernel

theorem witness_windowWrite : canWindowWrite 0 0x100000 [7, 8] false { partUp with host := { partUp.host with windows := [(0, { valid := true, part := 0, base := 0 })] } } = true := by decide +kernel

theorem witness_windowAtomic : canWindowAtomic 0 0x100008 .fetchAdd true 5 0 false { partUp with host := { partUp.host with windows := [(0, { valid := true, part := 0, base := 0 })] } } = true := by decide +kernel

/-! ### Routes, translations, IDE keys and the messages between members: each command has its effect -/

theorem witness_routeWrite : canRouteWrite .controller 0x80000500 { upState with regs := upState.regs |> fieldSet hostPage Rg.hostRouteSelectPage 0 0x100 } = true := by decide +kernel

theorem witness_atsInvalidate : canAtsInvalidate 0 none 0 4096 upState = true := by decide +kernel

theorem witness_ideKmRequest : canIdeKmRequest 0 (.keyProg 5) upState = true := by decide +kernel

theorem witness_forwardedEntryArrive : canForwardedEntryArrive 3 0x10 1 upState = true := by decide +kernel

theorem witness_memberCompletionArrive : canMemberCompletionArrive 0 0 0 0 { upState with host := { upState.host with forwarded := [Forwarded.mk 0 (.num 0) 0 1 0 0] } } = true := by decide +kernel

theorem witness_forwardTimeout : canForwardTimeout 0 0 { upState with host := { upState.host with forwarded := [Forwarded.mk 0 (.num 0) 0 1 0 0] }, time := { sec := 1 } } = true := by decide +kernel

theorem witness_memberRead : canMemberRead cmdRef 5 true { (cmdUp upState 0x70) with regs := upState.regs |> fieldSet fabrPage Rg.fabrReachableMembers 0 1 } = true := by decide +kernel

theorem witness_memberWrite : canMemberWrite cmdRef true { (cmdUp upState 0x71) with regs := upState.regs |> fieldSet fabrPage Rg.fabrReachableMembers 0 1 } = true := by decide +kernel

theorem witness_memberEvent : canMemberEvent 5 upState = true := by decide +kernel

/-! ### A link starts training, passes its phases, and falls back -/

theorem witness_trainStart : canTrainStart 2 .enable { ringUp with regs := ringUp.regs |> fieldSet (aqzlPage 2) Rg.pageStatusEnabled 0 1 } = true := by decide +kernel

theorem witness_retrainWrite : canRetrainWrite .controller 2 ringUp = true := by decide +kernel

theorem witness_levelDrift : canLevelDrift 0 1 { ringUp with regs := ringUp.regs |> fieldSet (aqzlPage 0) Rg.aqzlLinkStatusActive 0 15 } = true := by decide +kernel

theorem witness_trainPhaseDone : canTrainPhaseDone 2 ⟨5, none, true, true, 15, 1, [8, 8, 8, 8, 8, 8, 8, 8], [], []⟩ { ringUp with regs := ringUp.regs |> fieldSet (aqzlPage 2) Rg.aqzlLinkStatusState 0 2 |> fieldSet (aqzlPage 2) Rg.aqzlLinkStatusPhase 0 1 } = true := by decide +kernel

theorem witness_trainPhaseTimeout : canTrainPhaseTimeout 2 { ringUp with regs := ringUp.regs |> fieldSet (aqzlPage 2) Rg.aqzlLinkStatusState 0 2, time := { ringUp.time with sec := 1 } } = true := by decide +kernel

theorem witness_codewordRx : canCodewordRx 0 1 5 (.corrected 3) { ringUp with regs := ringUp.regs |> fieldSet (aqzlPage 0) Rg.aqzlLinkStatusActive 0 15 } = true := by decide +kernel

theorem witness_codewordLockLoss : canCodewordLockLoss 0 1 ringUp = true := by decide +kernel

theorem witness_retryLimit : canRetryLimit 0 { ringUp with fabric := { ringUp.fabric with links := [(0, { replay := [⟨⟨0, 1, false, none⟩, 8, none⟩] })] } } = true := by decide +kernel

/-! ### Flits are sent, received, acknowledged and credited; seals go out and come back -/

theorem witness_flitRx : canFlitRx 0 ⟨0, 1, false, some { emptyPacket with op := 1, src := 1 }⟩ true ringUp = true := by decide +kernel

theorem witness_flitTx : canFlitTx 0 { ringUp with fabric := { ringUp.fabric with links := [(0, { peerDivision := [8, 8, 8, 8, 8, 8, 8, 8], queues := [(1, [{ pkt := { emptyPacket with op := 1, dest := 1 } }])] })] } } = true := by decide +kernel

theorem witness_flow : canFlow 0 3 true ringUp = true := by decide +kernel

theorem witness_ack : canAck 0 5 ringUp = true := by decide +kernel

theorem witness_nak : canNak 0 5 ringUp = true := by decide +kernel

theorem witness_credit : canCredit 0 1 5 ringUp = true := by decide +kernel

theorem witness_ackTimer : canAckTimer 0 { ringUp with fabric := { ringUp.fabric with links := [(0, { rxAny := true, rxSeq := 4 })] } } = true := by decide +kernel

theorem witness_seal : canSeal 0 3 1 0 ringUp = true := by decide +kernel

theorem witness_sealReturn : canSealReturn 0 3 1 0 ringUp = true := by decide +kernel

theorem witness_gateStateResend : canGateStateResend 0 ringUp = true := by decide +kernel

/-! ### Time crosses a link, and lanes sleep, wake and are refreshed -/

theorem witness_timeExchangeTx : canTimeExchangeTx 0 ringUp = true := by decide +kernel

theorem witness_time : canTime 0 0 5 6 ringUp = true := by decide +kernel

theorem witness_timeUpstreamLoss : canTimeUpstreamLoss (some 1) ringUp = true := by decide +kernel

theorem witness_power : canPower 0 6 false 9 ringUp = true := by decide +kernel

theorem witness_laneSleep : canLaneSleep 0 1 { ringUp with regs := ringUp.regs |> fieldSet (aqzlPage 0) Rg.aqzlLinkStatusActive 0 15 |> fieldSet (aqzlPage 0) Rg.aqzlPowerAllowSleep 0 1, fabric := { ringUp.fabric with links := [(0, { peerMask := 2 })] } } = true := by decide +kernel

theorem witness_laneWake : canLaneWake 0 1 false { ringUp with regs := ringUp.regs |> fieldSet (aqzlPage 0) Rg.aqzlLinkStatusAsleep 0 2 } = true := by decide +kernel

theorem witness_laneRefresh : canLaneRefresh 0 1 { ringUp with regs := ringUp.regs |> fieldSet (aqzlPage 0) Rg.aqzlLinkStatusAsleep 0 2 } = true := by decide +kernel

/-! ### The firmware starts, is verified, recovered, updated and committed -/

theorem witness_bootStart : canBootStart { upState with regs := upState.regs |> fieldSet mgmtPage Rg.mgmtBootStatusState 0 0 |> fieldSet rsetPage Rg.rsetBringupStep 0 4 } = true := by decide +kernel

theorem witness_bootDone : canBootDone ⟨[]⟩ { upState with mgmt := { upState.mgmt with booting := some .cold } } = true := by decide +kernel

theorem witness_recoveryGo : canRecoveryGo .controller 1 ⟨.ok, []⟩ { upState with regs := upState.regs |> fieldSet mgmtPage Rg.mgmtBootStatusState 0 3 } = true := by decide +kernel

theorem witness_watchdogExpiry : canWatchdogExpiry upState = true := by decide +kernel

theorem witness_controllerNotServing : canControllerNotServing { upState with regs := upState.regs |> fieldSet mgmtPage Rg.mgmtBootStatusState 0 4, time := { sec := 2 }, mgmt := { upState.mgmt with restartAt := some 0 } } = true := by decide +kernel

theorem witness_svnCommit : canSvnCommit .controller 0x1A5 { upState with regs := upState.regs |> fieldSet mgmtPage Rg.mgmtBootStatusImageSvn 0 9 } = true := by decide +kernel

theorem witness_ownerCommit : canOwnerCommit .controller 0x15A upState = true := by decide +kernel

theorem witness_dynamicAddress : canDynamicAddress 9 mgmtUp = true := by decide +kernel

theorem witness_firmwareUpdate : canFirmwareUpdate .i3c ⟨[]⟩ mgmtUp = true := by decide +kernel

theorem witness_activateFirmware : canActivateFirmware .i3c mgmtUp = true := by decide +kernel

/-! ### Sensors and power are sampled, and PLDM requests are answered -/

theorem witness_sensorSample : canSensorSample { dies := [], stackTemps := [], inlet := none, watts := 0, dieWatts := [] } upState = true := by decide +kernel

theorem witness_powerEstimate : canPowerEstimate 2000 2700 500 upState = true := by decide +kernel

theorem witness_powerAllowanceExpiry : canPowerAllowanceExpiry { upState with power := { upState.power with overSince := some 0 }, time := { sec := 1 } } = true := by decide +kernel

theorem witness_coolantHigh : canCoolantHigh 550 { upState with power := { upState.power with inletLost := true, inletSince := some 0 }, time := { sec := 2 } } = true := by decide +kernel

theorem witness_inletSensorLoss : canInletSensorLoss { upState with time := { sec := 2 } } = true := by decide +kernel

theorem witness_getSensorReading : canGetSensorReading .i3c .inlet mgmtUp = true := by decide +kernel

theorem witness_pldmDiscovery : canPldmDiscovery .i3c .getTid mgmtUp = true := by decide +kernel

theorem witness_pldmFruRead : canPldmFruRead .i3c mgmtUp = true := by decide +kernel

theorem witness_pdrRepositoryRequest : canPdrRepositoryRequest .i3c .pollEvent mgmtUp = true := by decide +kernel

/-! ### SPDM requests are answered in their order, and the partition report and migration keys are served -/

theorem witness_getVersion : canGetVersion .pfDoe mgmtUp = true := by decide +kernel

theorem witness_getCapabilities : canGetCapabilities .pfDoe mgmtUp = true := by decide +kernel

theorem witness_negotiateAlgorithms : canNegotiateAlgorithms .pfDoe true mgmtUp = true := by decide +kernel

theorem witness_getDigests : canGetDigests .pfDoe mgmtUp = true := by decide +kernel

theorem witness_getCertificate : canGetCertificate .pfDoe 0 0 5 mgmtUp = true := by decide +kernel

theorem witness_challenge : canChallenge .pfDoe 0 5 mgmtUp = true := by decide +kernel

theorem witness_getMeasurements : canGetMeasurements .pfDoe 2 false 0 mgmtUp = true := by decide +kernel

theorem witness_keyExchange : canKeyExchange .i3c 7 mgmtUp = true := by decide +kernel

theorem witness_finish : canFinish .i3c true { mgmtUp with mgmt := { mgmtUp.mgmt with sessions := [(0, .handshake)] } } = true := by decide +kernel

theorem witness_keyUpdate : canKeyUpdate .pfDoe mgmtUp = true := by decide +kernel

theorem witness_heartbeat : canHeartbeat .pfDoe mgmtUp = true := by decide +kernel

theorem witness_endSession : canEndSession .pfDoe mgmtUp = true := by decide +kernel

theorem witness_chunkSend : canChunkSend .pfDoe 0 false [1, 2] mgmtUp = true := by decide +kernel

theorem witness_chunkGet : canChunkGet .pfDoe 0 { mgmtUp with mgmt := { mgmtUp.mgmt with large := [(3, [1, 2])] } } = true := by decide +kernel

theorem witness_partitionReport : canPartitionReport .pfDoe 0 7 mgmtUp = true := by decide +kernel

theorem witness_setMigrationKey : canSetMigrationKey .pfDoe 3 7 8 mgmtUp = true := by decide +kernel

/-! ### Strict mode, recording boundaries, long operations, self-test, zeroization and TDISP complete -/

theorem witness_strictWrite : canStrictWrite .controller 1 upState = true := by decide +kernel

theorem witness_recordBoundary : canRecordBoundary 0 true true { upState with regs := upState.regs |> fieldSet (partPage 0) Rg.pageStatusEnabled 0 1, records := [(0, { mode := 1, due := true })] } = true := by decide +kernel

theorem witness_longOpChunk : canLongOpChunk 0 0 0 64 { upState with host := { upState.host with longs := [{ cmd := { sq := .num 0, cq := .num 0, id := 0, part := 0, entry := 0x42, sqHead := 0, arrival := 0, started := true }, total := 64 }] } } = true := by decide +kernel

theorem witness_rake : canRake cmdRef (cmdUp { upState with regs := upState.regs |> fieldSet (corePage 0) Rg.pageStatusFrozen 0 1 } (0x42 + 64 * 2 ^ 128 + 2 * 2 ^ 192)) = true := by decide +kernel

theorem witness_selftestAdmit : canSelftestAdmit cmdRef ⟨10, [], 0⟩ (cmdUp upState 0x41) = true := by decide +kernel

theorem witness_selftestSoak : canSelftestSoak cmdRef 0 ⟨[], [], 0, [], 0, true, 0⟩ (cmdUp upState (0x41 + 2 ^ 192)) = true := by decide +kernel

theorem witness_zeroizePartition : canZeroizePartition cmdRef (cmdUp upState 0x43) = true := by decide +kernel

theorem witness_zeroizeDevice : canZeroizeDevice cmdRef (cmdUp upState (0x43 + 2 ^ 192)) = true := by decide +kernel

theorem witness_tdispRequest : canTdispRequest 3 .lock upState = true := by decide +kernel

/-! ### A stream slot starts, moves lines, and ends or halts -/

theorem witness_streamSlotStart : canStreamSlotStart 0 5 { coreUp with cores := [(0, { ctx := some ⟨0, 0⟩, run := .running, streams := [(5, { queue := [⟨0, 0, some 3⟩] })] })] } = true := by decide +kernel

theorem witness_streamLineMoved : canStreamLineMoved 0 5 { hbmUp with regs := hbmUp.regs |> fieldSet (corePage 0) Rg.pageStatusEnabled 0 1, cores := [(0, { ctx := some ⟨0, 0⟩, run := .running, streams := [(5, { queue := [⟨4 + 64 * 2 ^ 352 + 2 ^ 32 + 2 ^ 48 + 2 ^ 64 + 64 * 2 ^ 416, 0, some 3⟩], started := true })] })] } = true := by decide +kernel

theorem witness_streamSlotDone : canStreamSlotDone 0 5 { hbmUp with regs := hbmUp.regs |> fieldSet (corePage 0) Rg.pageStatusEnabled 0 1, cores := [(0, { ctx := some ⟨0, 0⟩, run := .running, streams := [(5, { queue := [⟨2 ^ 32 + 2 ^ 48 + 2 ^ 64 + 64 * 2 ^ 416, 0, some 3⟩], started := true, moved := 1 })] })] } = true := by decide +kernel

theorem witness_streamHalt : canStreamHalt 0 5 { hbmUp with regs := hbmUp.regs |> fieldSet (corePage 0) Rg.pageStatusEnabled 0 1, tier := {}, cores := [(0, { ctx := some ⟨0, 0⟩, run := .running, streams := [(5, { queue := [⟨2 ^ 32 + 2 ^ 48 + 2 ^ 64 + 64 * 2 ^ 416, 0, some 3⟩], started := true })] })] } = true := by decide +kernel

/-! ### A core's fabric command is sent, answered, retried and done -/

theorem witness_fabricInject : canFabricInject 0 fabUp = true := by decide +kernel

theorem witness_fabricResponse : canFabricResponse { emptyPacket with op := 0x81, src := 1, core := 0, req := 0, data := [1, 2, 3, 4] } { fabUp with cores := [(0, { ctx := some ⟨0, 0⟩, run := .running, fabricQueue := [{ cmd := ⟨1 + 2 ^ 32, 0, some 3⟩, serial := 0, injected := 1 }], requests := [{ req := 0, cmd := 0, dest := 1, vc := 1, posted := false, sentAt := 0, item := 0, packet := emptyPacket, order := 0 }] })] } = true := by decide +kernel

theorem witness_fabricCommandDone : canFabricCommandDone 0 { fabUp with cores := [(0, { ctx := some ⟨0, 0⟩, run := .running, fabricQueue := [{ cmd := ⟨1 + 2 ^ 32, 0, some 3⟩, serial := 0, injected := 1 }] })] } = true := by decide +kernel

theorem witness_refusedRetry : canRefusedRetry 0 { fabUp with cores := [(0, { ctx := some ⟨0, 0⟩, run := .running, requests := [{ req := 0, cmd := 0, dest := 1, vc := 1, posted := false, sentAt := 0, item := 0, packet := emptyPacket, order := 0, refusedUntil := some 0 }] })] } = true := by decide +kernel

theorem witness_reqTimeout : canReqTimeout 0 0 { fabUp with cores := [(0, { ctx := some ⟨0, 0⟩, run := .running, requests := [{ req := 0, cmd := 0, dest := 1, vc := 1, posted := false, sentAt := 0, item := 0, packet := emptyPacket, order := 0 }] })], time := { sec := 1 } } = true := by decide +kernel

/-! ### Memory is read and written, pages move between the tiers, and sluices fill -/

theorem witness_memoryRead : canMemoryRead 0 0 .allocate .device homeUp = true := by decide +kernel

theorem witness_memoryWrite : canMemoryWrite 0 0 [1, 2, 3] .device homeUp = true := by decide +kernel

theorem witness_bulkLinkDown : canBulkLinkDown 0 partUp = true := by decide +kernel

theorem witness_bulkLinkUp : canBulkLinkUp 3 2 2 upState = true := by decide +kernel

theorem witness_bufferWaysWrite : canBufferWaysWrite .controller 2 0x30 upState = true := by decide +kernel

theorem witness_heatEpoch : canHeatEpoch 0 { objUp 0 with time := { sec := 1 } } = true := by decide +kernel

theorem witness_heatMove : canHeatMove 0 { objUp 0 with tier := { pages := [(0, { writable := true, tier := 1, pinned := false, compressed := false, frame := 0, object := 1, index := 0, heat := 8000 })] } } = true := by decide +kernel

theorem witness_heatMoveDone : canHeatMoveDone 0 { objUp 0 with tier := { moves := [(0, ⟨1, 0, true, 0, 5⟩, none)] } } = true := by decide +kernel

theorem witness_sluicePrefetch : canSluicePrefetch 0 { objUp 0 with tier := { (objUp 0).tier with sluices := [(0, { part := 0, list := 0 })] } } = true := by decide +kernel

theorem witness_sluiceFillStart : canSluiceFillStart 0 { objUp 1 with tier := { (objUp 1).tier with sluices := [(0, { part := 0, list := 0 })] } } = true := by decide +kernel

theorem witness_sluiceFillDone : canSluiceFillDone 0 { objUp 1 with tier := { (objUp 1).tier with sluices := [(0, { part := 0, list := 0, filling := true })] } } = true := by decide +kernel

theorem witness_resourceDone : canResourceDone 0 0 .host [] false { objUp 0 with tier := { (objUp 0).tier with objects := [(1, { hint := 0, tier := 2, pinned := true, compressed := false, writable := true, replica := 2, base := 0, size := 2097152, indexAddr := 0, replicaAddr := 0, pasid := 0, elemTable := 0, scaleTable := 0, blockBytes := 0 })], units := [(0, .awaited 0)] } } = true := by decide +kernel

theorem witness_resourceTimeout : canResourceTimeout 0 0 true { objUp 0 with tier := { (objUp 0).tier with units := [(0, .awaited 0)] } } = true := by decide +kernel

/-! ### Objects are declared, released, moved, loaded and filled; sluices start and stop -/

theorem witness_objectDeclare : canObjectDeclare cmdRef ⟨.ok, (List.range 64).map fun i => if i = 0 then 2 else if i = 10 ∨ i = 18 then 32 else 0⟩ (cmdUp (objUp 0) (0x10 + 64 * 2 ^ 128)) = true := by decide +kernel

theorem witness_objectRelease : canObjectRelease cmdRef 1 (cmdUp (objUp 0) 0x11) = true := by decide +kernel

theorem witness_objectMove : canObjectMove cmdRef 1 0 (cmdUp (objUp 0) 0x12) = true := by decide +kernel

theorem witness_objectPageMoved : canObjectPageMoved 0 { objUp 0 with tier := { moves := [(0, ⟨1, 0, false, 0, 5⟩, none)] } } = true := by decide +kernel

theorem witness_loadObject : canLoadObject cmdRef (.object 1) ⟨.ok, [1, 2, 3, 4]⟩ (cmdUp (objUp 0) (0x13 + 64 * 2 ^ 128)) = true := by decide +kernel

theorem witness_fill : canFill cmdRef (.range 64 128) 7 (cmdUp (objUp 0) 0x14) = true := by decide +kernel

theorem witness_sluiceStart : canSluiceStart cmdRef 0 (cmdUp (objUp 1) 0x15) = true := by decide +kernel

theorem witness_sluiceStop : canSluiceStop cmdRef 0 (cmdUp { objUp 1 with tier := { (objUp 1).tier with sluices := [(0, { part := 0, list := 0 })] } } 0x16) = true := by decide +kernel

theorem witness_twinCopyStale : canTwinCopyStale 0 1 cmdRef { objUp 0 with regs := (objUp 0).regs |> fieldSet raspPage Rg.raspTwinMapValid 0 1, time := { sec := 1 }, tier := { (objUp 0).tier with objects := [(1, { hint := 0, tier := 2, pinned := true, compressed := false, writable := true, replica := 1, base := 0, size := 2097152, indexAddr := 0, replicaAddr := 0, pasid := 0, elemTable := 0, scaleTable := 0, blockBytes := 0 })] }, host := { (objUp 0).host with longs := [{ cmd := { sq := .num 0, cq := .num 0, id := 0, part := 0, entry := 0x13, sqHead := 0, arrival := 0, started := true }, total := 0, unit := 1 }] } } = true := by decide +kernel

/-! ### Partitions are enabled, resized, exported and imported, and functions are reset -/

theorem witness_partEnable : canPartEnable .controller 0 { upState with regs := upState.regs |> fieldSet rsetPage Rg.rsetHbmReadyStacks 0 0xFFFFF |> fieldSet mgmtPage Rg.mgmtZeroizeStatusPending 0 0 |> fieldSet (partPage 0) Rg.partConfigKind 0 1 |> fieldSet (partPage 0) Rg.partHbmAllotUnits 0 16 |> fieldSet rsetPage Rg.rsetHbmReadyStacks 0 0xFFFFF } = true := by decide +kernel

theorem witness_resizeStart : canResizeStart .controller 0 { upState with regs := upState.regs |> fieldSet (partPage 0) Rg.partCoreTargetCores 0 3 } = true := by decide +kernel

theorem witness_resizeDone : canResizeDone 0 { upState with parts := [(0, { resize := some (1, 0) })] } = true := by decide +kernel

theorem witness_allotWrite : canAllotWrite .controller 0 false 5 upState = true := by decide +kernel

theorem witness_dirtyAtomicCompletion : canDirtyAtomicCompletion 0 false { upState with regs := upState.regs |> fieldSet (partPage 0) Rg.partDirtyControlEnable 0 1 } = true := by decide +kernel

theorem witness_exportState : canExportState cmdRef (cmdUp { upState with mgmt := { upState.mgmt with keySlots := [(0, { key := 0, nonce := 0, peer := 0 })] } } 0x40) = true := by decide +kernel

theorem witness_loadObjectState : canLoadObjectState cmdRef ⟨.ok, []⟩ (cmdUp { upState with mgmt := { upState.mgmt with keySlots := [(0, { key := 0, nonce := 0, peer := 0 })] } } 0x13) = true := by decide +kernel

theorem witness_deleteCq : canDeleteCq cmdRef (cmdUp { upState with host := { upState.host with cqs := [(3, { vector := 0, coalesceCount := 0, coalesceTime := 0, depth := 4, pasid := none, base := 0 })] }, regs := upState.regs |> fieldSet (partPage 0) Rg.partCqCountCount 0 16 } (0x05 + 3 * 2 ^ 192)) = true := by decide +kernel

theorem witness_flrVf : canFlrVf 3 upState = true := by decide +kernel

theorem witness_flrPf : canFlrPf upState = true := by decide +kernel

/-! ### Power, reset, bring-up, clock loss, the thermal trip and the supplies: each event has its effect -/

theorem witness_powerOn : canPowerOn true { State.reset with plat := { phase := .railsDown } } = true := by decide +kernel

theorem witness_supplyDrop : canSupplyDrop (.vddCore 3) 1000 State.reset = true := by decide +kernel

theorem witness_resetAccept : canResetAccept 1000 (some 10000) true { State.reset with plat := { phase := .running } } = true := by decide +kernel

theorem witness_resetRelease : canResetRelease false State.reset = true := by decide +kernel

theorem witness_bringupStart : canBringupStart ⟨true, false, [], [], [], [], 0, []⟩ { State.reset with plat := { phase := .released } } = true := by decide +kernel

theorem witness_refclkAPresent : canRefclkAPresent { State.reset with plat := { phase := .bringup, waitRefclk := true } } = true := by decide +kernel

theorem witness_hotWaitEnd : canHotWaitEnd { State.reset with plat := { phase := .bringup, waitHot := true } } = true := by decide +kernel

theorem witness_bringupDone : canBringupDone { State.reset with plat := { phase := .bringup }, regs := fieldSet mgmtPage Rg.mgmtBootStatusState 0 3 State.reset.regs } = true := by decide +kernel

theorem witness_refclkALoss : canRefclkALoss { State.reset with plat := { phase := .running } } = true := by decide +kernel

theorem witness_vddCoreStepUp : canVddCoreStepUp 3 { State.reset with plat := { phase := .running, stepDue := [3] }, regs := fieldSet mgmtPage Rg.mgmtBootStatusState 0 2 State.reset.regs } = true := by decide +kernel

theorem witness_vddCorePolicy : canVddCorePolicy 0 850 700 600 { State.reset with plat := { phase := .running }, regs := fieldSet mgmtPage Rg.mgmtBootStatusState 0 2 State.reset.regs } = true := by decide +kernel

theorem witness_avsTransaction : canAvsTransaction 0 850 true { State.reset with plat := { phase := .running }, regs := fieldSet mgmtPage Rg.mgmtBootStatusState 0 2 State.reset.regs } = true := by decide +kernel

theorem witness_vbatLow : canVbatLow true { State.reset with plat := { phase := .running } } = true := by decide +kernel

/-! ### Doorbells are taken, entries are fetched, and NOP and CANCEL complete -/

theorem witness_sqTailDoorbell : canSqTailDoorbell 0 (.num 0) 0x80000003 false queueUp = true := by decide +kernel

theorem witness_cqHeadDoorbell : canCqHeadDoorbell 0 (.num 0) 0x80000001 false queueUp = true := by decide +kernel

theorem witness_adminQueueEnable : canAdminQueueEnable .controller true { upState with regs := upState.regs |> fieldSet hostPage Rg.hostAdminSizeSqDepth 0 7 |> fieldSet hostPage Rg.hostAdminSizeCqDepth 0 7 } = true := by decide +kernel

theorem witness_sqEntryFetch : canSqEntryFetch false 0x10 queueUp = true := by decide +kernel

theorem witness_nop : canNop cmdRef (cmdUp upState 0) = true := by decide +kernel

theorem witness_cancel : canCancel cmdRef true { (cmdUp upState 0x01) with host := { (cmdUp upState 0x01).host with longs := [{ cmd := { sq := .num 0, cq := .num 0, id := 0, part := 0, entry := 0x14, sqHead := 0, arrival := 0, started := true }, total := 5 }] } } = true := by decide +kernel

/-! ### Queues are created and deleted, completions written, interrupts coalesced and unmasked -/

theorem witness_createSq : canCreateSq cmdRef (cmdUp queueUp (0x02 + 2 ^ 192 * (3 + 2 ^ 20 + 2 ^ 24) + 2 ^ 256 * 4)) = true := by decide +kernel

theorem witness_createCq : canCreateCq cmdRef (cmdUp queueUp (0x03 + 2 ^ 192 * 3 + 2 ^ 256 * 4)) = true := by decide +kernel

theorem witness_deleteSq : canDeleteSq cmdRef (cmdUp queueUp 0x04) = true := by decide +kernel

theorem witness_completionWrite : canCompletionWrite (.num 0) true queueUp = true := by decide +kernel

theorem witness_cqCoalesceTimer : canCqCoalesceTimer (.num 0) { queueUp with time := { sec := 1 } } = true := by decide +kernel

theorem witness_msixVectorUnmask : canMsixVectorUnmask 2 5 queueUp = true := by decide +kernel

/-! ### Cells, slots, windows and surge claims: each radio command has its effect -/

theorem witness_cellStart : canCellStart cmdRef (cmdUp { radioUp with regs := radioUp.regs |> fieldSet (msidPage 0) Rg.msidWayMaskWays 0 0, radio := {}, tier := { pages := partUp.tier.pages, objects := [(0, { hint := 4, tier := 0, pinned := true, compressed := false, writable := true, replica := 0, base := 0, size := 0, indexAddr := 0, replicaAddr := 0, pasid := 0, elemTable := 0, scaleTable := 0, blockBytes := 0 })] }, mem := { bulk := { cells := (List.range 272).map fun i => (i, BitVec.ofNat 8 (cellBytes / 256 ^ i)) } } } (0x30 + 2 ^ 10 + 256 * 2 ^ 128)) = true := by decide +kernel

theorem witness_cellStop : canCellStop cmdRef 0 (cmdUp radioUp 0x31) = true := by decide +kernel

theorem witness_slot : canSlot cmdRef ⟨.ok, [0, 0, 0, 0, 0, 0, 2, 0, 1]⟩ [{ uplink := false, stage := 1, place := .sigc 0, inputs := [], outputs := [], waves := 0, tidemark := 0, symbol := 0, blocks := [] }] false { (cmdUp radioUp (0x32 + 32 * 2 ^ 128)) with regs := radioUp.regs |> fieldSet (partPage 0) Rg.partSigcMaskCores 0 1, host := { radioUp.host with cmds := [{ sq := .num 0, cq := .num 0, id := 0, part := 0, entry := BitVec.ofNat 512 (0x32 + 32 * 2 ^ 128), sqHead := 0, arrival := 694656019000000000 }] } } = true := by decide +kernel

theorem witness_slotBoundary : canSlotBoundary 0 0 { radioUp with time := { sec := 694656020 } } = true := by decide +kernel

theorem witness_calCoolantStale : canCalCoolantStale 0 { radioUp with radio := { parts := [(0, { warmSince := some 0 })] } } = true := by decide +kernel

theorem witness_calImport : canCalImport cmdRef 0 { serial := 0, steppingB0 := true, inlet := 400, cores := [], sigcs := [], vdd := [], signature := 0 } (cmdUp radioUp 0x33) = true := by decide +kernel

theorem witness_tidemarkMiss : canTidemarkMiss 0 0 0 0 0 { radioUp with radio := { parts := [(0, { slots := [{ slotUp with tasks := [{ uplink := false, stage := 1, place := .sigc 0, inputs := [], outputs := [], waves := 0, tidemark := 0, symbol := 0, blocks := [] }] }] })] } } = true := by decide +kernel

theorem witness_slotComplete : canSlotComplete 0 0 0 0 5 0 radioUp = true := by decide +kernel

theorem witness_uplaneWindowClose : canUplaneWindowClose 0 0 0 0 5 0 [] radioUp = true := by decide +kernel

theorem witness_surgeClaim : canSurgeClaim 0 0 0 0 { radioUp with radio := { radioUp.radio with parts := [(0, { cells := [(0, cellUp)], slots := [{ slotUp with tasks := [{ uplink := true, stage := 1, place := .surge, inputs := [], outputs := [], waves := 10, tidemark := BitVec.ofNat 64 (2 ^ 63), symbol := 0, blocks := [] }] }] })] } } = true := by decide +kernel

theorem witness_surgeCoreReady : canSurgeCoreReady 1 { radioUp with cores := [(1, { surgeFor := some (0, 0, 0) })], radio := { parts := [(0, { claims := [⟨0, 0, [1], 0, none⟩] })] } } = true := by decide +kernel

theorem witness_claimLate : canClaimLate 1 { radioUp with cores := [(1, { surgeFor := some (0, 0, 0) })], radio := { parts := [(0, { claims := [⟨0, 0, [1], 0, none⟩] })] } } = true := by decide +kernel

theorem witness_surgeReturn : canSurgeReturn 1 { radioUp with cores := [(1, { lentTo := some 0 })] } = true := by decide +kernel

/-! ### Register reads and writes of every page complete -/

theorem witness_registerWrite : canRegisterWrite .controller 4 0x00100024 0xFFFFFFFF upState = true := by decide +kernel

theorem witness_registerReadClear : canRegisterReadClear (.function 0) 4 0x00100000 none upState = true := by decide +kernel

theorem witness_counterLatchRead : canCounterLatchRead .controller 0x00100104 upState = true := by decide +kernel

theorem witness_intStatusClear : canIntStatusClear .controller (corePage 159) 2 4 upState = true := by decide +kernel

theorem witness_intForceWrite : canIntForceWrite .controller globPage 1 upState = true := by decide +kernel

/-! ### SOFT_RESET, ENABLE and FREEZE of every page take effect and are reported -/

theorem witness_softReset : canSoftReset .controller (corePage 3) 1 upState = true := by decide +kernel

theorem witness_softResetDone : canSoftResetDone (hbmcPage 19) { upState with regs := fieldSet (hbmcPage 19) Rg.pageControlSoftReset 0 1 upState.regs } = true := by decide +kernel

theorem witness_enableWrite : canEnableWrite .controller (corePage 0) true upState = true := by decide +kernel

theorem witness_blockOperating : canBlockOperating (polcPage) { upState with regs := fieldSet polcPage Rg.pageControlEnable 0 1 upState.regs } = true := by decide +kernel

theorem witness_blockStopped : canBlockStopped (bulkPage 7) upState = true := by decide +kernel

theorem witness_freezeWrite : canFreezeWrite .controller (sigcPage 63) true upState = true := by decide +kernel

theorem witness_blockFrozen : canBlockFrozen timePage { upState with regs := fieldSet timePage Rg.pageControlFreeze 0 1 upState.regs } = true := by decide +kernel

/-! ### Destinations move between outputs, outputs drain and go down, and partitions are quenched -/

theorem witness_routeMove : canRouteMove 1 1 ringUp = true := by decide +kernel

theorem witness_routeReturn : canRouteReturn 1 { ringUp with fabric := { ringUp.fabric with moves := [(1, { output := 1, tag := none, back := false })] } } = true := by decide +kernel

theorem witness_outputDown : canOutputDown 2 { ringUp with fabric := { ringUp.fabric with links := [(2, { wasUp := true })] } } = true := by decide +kernel

theorem witness_drained : canDrained 2 { ringUp with fabric := { ringUp.fabric with draining := [(2, { since := 0, peer := none, dests := [] })] } } = true := by decide +kernel

theorem witness_drainTimeout : canDrainTimeout 2 { ringUp with fabric := { ringUp.fabric with draining := [(2, { since := 0, peer := none, dests := [] })] } } = true := by decide +kernel

theorem witness_quenchWrite : canQuenchWrite .controller 3 ringUp = true := by decide +kernel

theorem witness_quench : canQuench 1 7 true ringUp = true := by decide +kernel

/-! ### Scores are sent and heard, a member is voted out, isolated and admitted -/

theorem witness_saltScore : canSaltScore upState = true := by decide +kernel

theorem witness_saltMessageTx : canSaltMessageTx ringUp = true := by decide +kernel

theorem witness_saltMessageRx : canSaltMessageRx ⟨1, 900, 0, 0, false⟩ ringUp = true := by decide +kernel

theorem witness_expelAnnounce : canExpelAnnounce 1 .expelled ringUp = true := by decide +kernel

theorem witness_isolation : canIsolation ringUp = true := by decide +kernel

theorem witness_admitWrite : canAdmitWrite .controller 0x80000001 { ringUp with regs := ringUp.regs |> fieldSet raspPage Rg.raspExpelledMembers 0 2 } = true := by decide +kernel

theorem witness_saltUsedExpiry : canSaltUsedExpiry ringUp = true := by decide +kernel

/-! ### Scalar, branch, LD and ST complete with the values of their rules -/

theorem witness_scalarInstruction : canScalarInstruction 0 (.op .divS 31 1 (.imm 7)) coreUp = true := by decide +kernel

theorem witness_branchInstruction : canBranchInstruction 0 (.indirect 0) (withWord (0x10 * 2 ^ 26) coreUp) = true := by decide +kernel

theorem witness_ld : canLd (.core 0 0 0x3FFFF8) .b64 true 1 (withWord (0x18 * 2 ^ 26) coreUp) = true := by decide +kernel

theorem witness_st : canSt (.core 0 0 0x3FFFFF) .b8 1 (withWord (0x18 * 2 ^ 26) coreUp) = true := by decide +kernel

/-! ### Serving groups, streams and KV ranges: each command completes -/

theorem witness_serveGroup : canServeGroup cmdRef ⟨.ok, (List.range 128).map fun i => BitVec.ofNat 8 (groupUp / 256 ^ i)⟩ (cmdUp { serveUp (streamZero 1) with serve := {} } (0x20 + 128 * 2 ^ 128)) = true := by decide +kernel

theorem witness_streamOpen : canStreamOpen cmdRef ⟨.ok, (List.range 256).map fun i => BitVec.ofNat 8 (streamUp / 256 ^ i)⟩ (cmdUp { serveUp (streamZero 1) with serve := { (serveUp (streamZero 1)).serve with streams := [] } } (0x21 + 256 * 2 ^ 128)) = true := by decide +kernel

theorem witness_streamClose : canStreamClose cmdRef (cmdUp (serveUp (streamZero 4)) 0x22) = true := by decide +kernel

theorem witness_streamHold : canStreamHold cmdRef (cmdUp (serveUp (streamZero 4)) 0x23) = true := by decide +kernel

theorem witness_streamRelease : canStreamRelease cmdRef (cmdUp (serveUp (streamZero 4)) 0x24) = true := by decide +kernel

theorem witness_streamQuery : canStreamQuery cmdRef (cmdUp (serveUp (streamZero 4)) (0x25 + 256 * 2 ^ 128)) = true := by decide +kernel

theorem witness_kvBind : canKvBind cmdRef 1 64 3 (cmdUp (serveUp (streamZero 4)) 0x17) = true := by decide +kernel

theorem witness_kvRelease : canKvRelease cmdRef 2 (cmdUp { serveUp (streamZero 4) with serve := { (serveUp (streamZero 4)).serve with kvs := [(2, ⟨true, 0, 0⟩)] } } 0x18) = true := by decide +kernel

theorem witness_reshard : canReshard cmdRef 0 0 (cmdUp (serveUp (streamZero 4)) 0x26) = true := by decide +kernel

/-! ### Prefill and decode steps are composed and end, and a stream is resharded -/

theorem witness_prefillStepCompose : canPrefillStepCompose 0 0 (serveUp (streamZero 1)) = true := by decide +kernel

theorem witness_decodeStepCompose : canDecodeStepCompose 0 0 0 (serveUp (streamZero 4)) = true := by decide +kernel

theorem witness_serveStepDone : canServeStepDone 0 0 (.decode 0) [⟨0, false, false, [(1, 0)]⟩] { serveUp (streamZero 4) with serve := { (serveUp (streamZero 4)).serve with groups := [(0, { image := BitVec.ofNat 1024 groupUp, decode := [(0, [0])] })] } } = true := by decide +kernel

theorem witness_reshardPage : canReshardPage 0 0 (serveUp { streamZero 3 with left := [0], pages := [1] }) = true := by decide +kernel

theorem witness_reshardDone : canReshardDone 0 0 (serveUp (streamZero 3)) = true := by decide +kernel

/-! ### The signal core's arithmetic, memory and loop instructions complete -/

theorem witness_cmac : canCmac 0 .cmacj 1 2 3 sigcUp = true := by decide +kernel

theorem witness_tapm : canTapm 0 true 1 2 3 { sigcUp with sigcs := [(0, { run := .running, a := [(2, 64), (3, 128)] })] } = true := by decide +kernel

theorem witness_sst : canSst 0 1 2 (.fixed 3) sigcUp = true := by decide +kernel

theorem witness_aclr : canAclr 0 7 sigcUp = true := by decide +kernel

theorem witness_zld : canZld 0 1 2 64 sigcUp = true := by decide +kernel

theorem witness_zst : canZst 0 1 2 64 sigcUp = true := by decide +kernel

theorem witness_loop : canLoop 0 0 (.imm 3) 64 sigcUp = true := by decide +kernel

theorem witness_lsave : canLsave 0 1 sigcUp = true := by decide +kernel

theorem witness_lrestore : canLrestore 0 1 { sigcUp with sigcs := [(0, { run := .running, a := [(1, 48)] })], mem := { sigcUp.mem with dmem := { cells := (List.range 48).map fun i => (i, if i = 0 then 0x53 else if i = 1 then 0x4C else 0) } } } = true := by decide +kernel

/-! ### Interrupts, alarms, doorbells and DMA of a signal core: each has its effect -/

theorem witness_reti : canReti 0 sigcUp = true := by decide +kernel

theorem witness_ei : canEi 0 sigcUp = true := by decide +kernel

theorem witness_di : canDi 0 sigcUp = true := by decide +kernel

theorem witness_alarm : canAlarm 0 1 2 sigcUp = true := by decide +kernel

theorem witness_alarmFire : canAlarmFire 0 1 { sigcUp with sigcs := [(0, { run := .running, alarms := [(1, 0)] })] } = true := by decide +kernel

theorem witness_doorbellRing : canDoorbellRing .controller 0 1 sigcUp = true := by decide +kernel

theorem witness_interruptTaken : canInterruptTaken 0 { sigcUp with sigcs := [(0, { run := .running, ie := true, events := [0, 4] })], regs := sigcUp.regs |> fieldSet (sigcPage 0) Rg.sigcEventPrioPrio0 0 2 |> fieldSet (sigcPage 0) Rg.sigcEventPrioPrio4 0 3 } = true := by decide +kernel

theorem witness_sigcEnable : canSigcEnable .controller 0 true upState = true := by decide +kernel

theorem witness_sigcDmaStart : canSigcDmaStart 0 1 0 { sigcUp with mem := { sigcUp.mem with dmem := { cells := (List.range 64).map fun i => (i, BitVec.ofNat 8 ((2 ^ 32 + 2 ^ 48 + 2 ^ 64 + 64 * 2 ^ 416) / 256 ^ i)) } } } = true := by decide +kernel

theorem witness_sigcDmaLine : canSigcDmaLine 0 0 (dmaUp (2 ^ 32 + 2 ^ 48 + 2 ^ 64 + 64 * 2 ^ 416) 0) = true := by decide +kernel

theorem witness_sigcDmaDone : canSigcDmaDone 0 0 (dmaUp (2 ^ 32 + 2 ^ 48 + 2 ^ 64 + 64 * 2 ^ 416) 1) = true := by decide +kernel

theorem witness_sigcDmaHalt : canSigcDmaHalt 0 0 { dmaUp (2 ^ 32 + 2 ^ 48 + 2 ^ 64 + 64 * 2 ^ 416) 0 with tier := {} } = true := by decide +kernel

/-! ### The semaphore instructions take, try, return and set, and a waiter is granted -/

theorem witness_semacq : canSemacq (.sigc 0) ⟨1, 2, 3, 0, false⟩ sigcSem = true := by decide +kernel

theorem witness_semtry : canSemtry (.sigc 0) ⟨1, 2, 3, 0, false⟩ sigcSem = true := by decide +kernel

theorem witness_semrel : canSemrel (.sigc 0) 1 2 0 0 { sigcSem with sems := [] } = true := by decide +kernel

theorem witness_semset : canSemset (.sigc 0) ⟨1, 2, 3, 0, false⟩ sigcSem = true := by decide +kernel

theorem witness_semaphoreGrant : canSemaphoreGrant 0 false sigcWaits = true := by decide +kernel

/-! ### WAIT, FENCE and SREL complete, at once or when what they wait for comes -/

theorem witness_wait : canWait (.core 0) ⟨1, 0, 0, 0, false⟩ { (withWord (syncWord 0x33 ⟨1, 0, 0, 0, false⟩) coreUp) with cores := [(0, { ctx := some ⟨0, 0⟩, run := .running, tags := [(0, .done false)] })] } = true := by decide +kernel

theorem witness_waitEventArrival : canWaitEventArrival (.core 0) (coreWaits (.event 4) none) = true := by decide +kernel

theorem witness_waitDeadline : canWaitDeadline (.core 0) (coreWaits (.event 9) (some 0)) = true := by decide +kernel

theorem witness_fence : canFence (.core 0) 1 3 0 0 0 (withWord (fenceWord 1 3 0 0 0) coreUp) = true := by decide +kernel

theorem witness_fenceComplete : canFenceComplete (.core 0) (coreWaits (.fence 1) none) = true := by decide +kernel

theorem witness_srel : canSrel (.core 0) ⟨1, 0, 0, 0, false⟩ (withWord (syncWord 0x35 ⟨1, 0, 0, 0, false⟩) coreUp) = true := by decide +kernel

theorem witness_donationStart : canDonationStart 0 { (coreWaits (.sem 0) none) with sems := [(0, { lock := true, owner := some (coreTag 0 1 1) })], ctxs := [(1, { state := 3, saved := [(1, ⟨{}, [], [], [], true⟩)] })] } = true := by decide +kernel

/-! ### The servo, the pins and the registers of device time: each command has its effect -/

theorem witness_servoSample : canServoSample 5 9 (some (12, 14)) false timeUp = true := by decide +kernel

theorem witness_offsetInWrite : canOffsetInWrite .controller 5 timeUp = true := by decide +kernel

theorem witness_stepForceWrite : canStepForceWrite .controller 5 timeUp = true := by decide +kernel

theorem witness_holdoverEntry : canHoldoverEntry { timeUp with time := { timeUp.time with sec := 100000 } } = true := by decide +kernel

theorem witness_freqSourceLoss : canFreqSourceLoss 7 timeUp = true := by decide +kernel

theorem witness_freqSourceValid : canFreqSourceValid 7 timeUp = true := by decide +kernel

theorem witness_ppsInEdge : canPpsInEdge 100 100 0 timeUp = true := by decide +kernel

theorem witness_ppsOutEdge : canPpsOutEdge timeUp = true := by decide +kernel

theorem witness_timeNowRead : canTimeNowRead .controller timeUp = true := by decide +kernel

theorem witness_timeLoad : canTimeLoad .controller 5 timeUp = true := by decide +kernel

/-! ### Twinned devices exchange pulses, mirror, take over and drain -/

theorem witness_twinPulseTx : canTwinPulseTx (twinUp false) = true := by decide +kernel

theorem witness_twinPulseRx : canTwinPulseRx (twinUp false) = true := by decide +kernel

theorem witness_twinPinFault : canTwinPinFault (twinUp false) = true := by decide +kernel

theorem witness_twinFailTimeout : canTwinFailTimeout (twinUp true) = true := by decide +kernel

theorem witness_twinFailMsg : canTwinFailMsg (twinUp true) = true := by decide +kernel

theorem witness_twinTakeover : canTwinTakeover (twinUp true) = true := by decide +kernel

theorem witness_mirrorBatch : canMirrorBatch 0 [(0, [1, 2])] (twinUp true) = true := by decide +kernel

theorem witness_drainWrite : canDrainWrite .controller 9 (twinUp false) = true := by decide +kernel

theorem witness_drainHandover : canDrainHandover 0 0 (twinUp true) = true := by decide +kernel

/-! ### The vector instructions complete with the lanes of their rules -/

theorem witness_vld : canVld 0 1 0 2 .z8 0 { (withWord (vWord 0x1C 1 0 2 .z8 0) coreUp) with cores := [(0, { ctx := some ⟨0, 0⟩, run := .running, gpr := [(2, 64)] })] } = true := by decide +kernel

theorem witness_vst : canVst 0 1 0 0 .i8 0 (withWord (vWord 0x1D 1 0 0 .i8 0) coreUp) = true := by decide +kernel

theorem witness_vectorElementwise : canVectorElementwise .add (.core 0 1 2 3 .z8) (withWord (vWord 0x24 1 2 3 .z8 0) coreUp) = true := by decide +kernel

theorem witness_vectorShiftCompare : canVectorShiftCompare .cmpEq (.core 0 1 2 3 .i16) (withWord (vWord 0x25 1 2 3 .i16 0) coreUp) = true := by decide +kernel

theorem witness_vectorReduce : canVectorReduce .sum (.core 0 (.gpr 1) 2 .i32) (withWord (vWord 0x26 1 2 0 .i32 0) coreUp) = true := by decide +kernel

theorem witness_vectorRequantize : canVectorRequantize 0 .convert 1 2 3 .z8 .i16 (withWord (vWord 0x27 1 2 3 .z8 0) coreUp) = true := by decide +kernel

theorem witness_vpoly : canVpoly 0 1 2 3 { (withWord (vWord 0x28 1 2 3 .z8 0) coreUp) with mem := { (withWord (vWord 0x28 1 2 3 .z8 0) coreUp).mem with spad := { cells := (List.range 24).map fun i => (i, if i = 5 ∨ i = 6 then 1 else 0) } } } = true := by decide +kernel

theorem witness_vectorPermute : canVectorPermute .broadcast (.core 0 1 2 3 .i16) (withWord (vWord 0x29 1 2 3 .i16 0) coreUp) = true := by decide +kernel

theorem witness_vectorMove : canVectorMove 0 (.fromLane 1 2 3) .i16 (withWord (vWord 0x2A 1 2 0 .i16 0) coreUp) = true := by decide +kernel

end Sys2Proof.Machine
end

section
/-! SUPPORT. Where the register pages and their fields stand in the control window (R38, R39): each page has a range of its own, and within a
page no two elements of fields begin at the same bit, so that a write of one leaves every other alone. -/

namespace Sys2Proof.Machine

/-! ### Pages -/

/-- An offset that a page holds belongs to a page that exists. -/
theorem pageOk_of_pageAt {off : Nat} {p : Page} (h : pageAt off = some p) : pageOk p = true := by
  obtain ⟨k, _, hk⟩ := List.exists_of_findSome?_eq_some h
  dsimp only at hk
  split at hk
  · next hr =>
    cases hk
    have hlt : (off - pageBase ⟨k, 0⟩) / 0x1000 < pageCount k := Nat.div_lt_of_lt_mul (by omega)
    exact decide_eq_true hlt
  · cases hk

/-- The pages of a kind follow one another in steps of 4 KiB. -/
theorem pageBase_eq {p : Page} (h : pageOk p = true) : pageBase p = pageBase ⟨p.kind, 0⟩ + p.inst * 0x1000 := by
  obtain ⟨k, n⟩ := p
  have hn : n < pageCount k := of_decide_eq_true h
  cases k <;> simp only [pageCount] at hn <;> simp only [pageBase] <;> omega

/-- The ranges of two kinds of pages do not meet. -/
theorem pageRanges_apart {k l : PageKind} (h : k ≠ l) :
    pageBase ⟨k, 0⟩ + pageCount k * 0x1000 ≤ pageBase ⟨l, 0⟩ ∨ pageBase ⟨l, 0⟩ + pageCount l * 0x1000 ≤ pageBase ⟨k, 0⟩ := by
  revert h
  cases k <;> cases l <;> decide

/-- Different pages stand at different offsets. -/
theorem pageBase_ne {p q : Page} (hp : pageOk p = true) (hq : pageOk q = true) (h : p ≠ q) : pageBase p ≠ pageBase q := by
  rw [pageBase_eq hp, pageBase_eq hq]
  have np : p.inst < pageCount p.kind := of_decide_eq_true hp
  have nq : q.inst < pageCount q.kind := of_decide_eq_true hq
  by_cases hk : p.kind = q.kind
  · have hi : p.inst ≠ q.inst := fun hi => h (by cases p; cases q; cases hk; cases hi; rfl)
    rw [hk]
    omega
  · have := pageRanges_apart hk
    omega

/-! ### Fields of a page -/

/-- Where a field's first element begins in its page, in bits. -/
def firstBit (f : RegField) : Nat := f.off * 8 + f.lo

/-- Where a field's last element begins in its page, in bits. -/
def lastBit (f : RegField) : Nat := firstBit f + f.stride * (f.count - 1) * 8

/-- No element of the one field begins where an element of the other does: one field ends before the other begins, or they alternate in
equal steps. -/
def apart (f g : RegField) : Bool :=
  decide (lastBit f < firstBit g) || decide (lastBit g < firstBit f) ||
    (f.stride == g.stride && firstBit f % (8 * f.stride) != firstBit g % (8 * g.stride))

/-- The elements of a field of several begin at different bits, and all begin in the page. -/
def fits (f : RegField) : Bool := (f.count == 1 || decide (0 < f.stride)) && decide (lastBit f < 0x8000)

theorem fieldBit_eq (p : Page) (f : RegField) (i : Nat) : fieldBit p f i = pageBase p * 8 + (firstBit f + f.stride * i * 8) := by
  rw [fieldBit_split]
  unfold firstBit
  omega

theorem firstBit_le_last {f : RegField} {i : Nat} (h : i < f.count) : firstBit f + f.stride * i * 8 ≤ lastBit f := by
  have : f.stride * i ≤ f.stride * (f.count - 1) := Nat.mul_le_mul_left _ (by omega)
  unfold lastBit
  omega

theorem fieldBit_ne_of_apart {f g : RegField} {i j : Nat} (h : apart f g = true) (hi : i < f.count) (hj : j < g.count) (p : Page) :
    fieldBit p f i ≠ fieldBit p g j := by
  have hf := firstBit_le_last hi
  have hg := firstBit_le_last hj
  rw [fieldBit_eq, fieldBit_eq]
  simp only [apart, Bool.or_eq_true, Bool.and_eq_true, decide_eq_true_eq, beq_iff_eq, bne_iff_ne] at h
  rcases h with (h | h) | ⟨hs, h⟩
  · omega
  · omega
  · intro e
    have e : firstBit f + f.stride * i * 8 = firstBit g + g.stride * j * 8 := by omega
    have step : ∀ a s n : Nat, (a + s * n * 8) % (8 * s) = a % (8 * s) := fun a s n => by
      rw [show s * n * 8 = 8 * s * n by ac_rfl, Nat.add_mul_mod_self_left]
    exact h (by rw [← step _ f.stride i, e, hs, step])

/-- Two elements of one field begin at different bits. -/
theorem fieldBit_ne_of_fits {f : RegField} {i j : Nat} (h : fits f = true) (hi : i < f.count) (hj : j < f.count) (hij : i ≠ j) (p : Page) :
    fieldBit p f i ≠ fieldBit p f j := by
  simp only [fits, Bool.and_eq_true, Bool.or_eq_true, decide_eq_true_eq, beq_iff_eq] at h
  have hs : 0 < f.stride := by omega
  have hne : f.stride * i ≠ f.stride * j := fun e => hij (Nat.eq_of_mul_eq_mul_left hs e)
  rw [fieldBit_eq, fieldBit_eq]
  omega

theorem inPage_of_fits {f : RegField} {i : Nat} (h : fits f = true) (hi : i < f.count) : inPage f i = true := by
  simp only [fits, Bool.and_eq_true, decide_eq_true_eq] at h
  have hl := firstBit_le_last hi
  unfold firstBit at hl
  exact decide_eq_true (by omega)

/-- The register tables of R42 and of each chapter give no bit to two fields. -/
theorem fieldsOf_apart (k : PageKind) : (fieldsOf k).Pairwise fun f g => apart f g = true := by
  cases k <;> decide +kernel

theorem fieldsOf_fits (k : PageKind) : ∀ f ∈ fieldsOf k, fits f = true := by
  cases k <;> decide +kernel

/-- Fields that begin in their pages, on two pages, begin at different bits. -/
theorem fieldBit_ne_pages {p q : Page} (hp : pageOk p = true) (hq : pageOk q = true) (h : p ≠ q) {f g : RegField} {i j : Nat}
    (hf : inPage f i = true) (hg : inPage g j = true) : fieldBit q g j ≠ fieldBit p f i :=
  fieldBit_ne_page (pageBase_ne hp hq h) (of_decide_eq_true hf) (of_decide_eq_true hg)

/-- The element that a register holds part of is an element of the field. -/
theorem fieldIndexAt_lt {f : RegField} {off i : Nat} (h : fieldIndexAt f off = some i) : i < f.count := by
  unfold fieldIndexAt at h
  simp only [Option.ite_none_right_eq_some, Option.some.injEq] at h
  obtain ⟨⟨hlt, _⟩, rfl⟩ := h
  exact hlt

end Sys2Proof.Machine
end

section
/-! SUPPORT. What a 32-bit write of a register does (R13, R15, R39): each field takes its part by its access code, and the writes of the fields
of a page do not meet. -/

namespace Sys2Proof.Machine

/-- A change that may touch the register file alone is a change of the register file. -/
theorem Only.eq_regs {s t : State} (h : Only 8 s t) : t = { s with regs := t.regs } := by
  obtain ⟨⟩ := t
  simp only [State.mk.injEq, true_and]
  exact ⟨h.pending, h.out rfl, h.freeIx rfl, h.latches rfl, h.resets rfl, h.plat rfl, h.fuses rfl, h.time rfl, h.cores rfl, h.fabric rfl,
    h.sigcs rfl, h.sems rfl, h.ctxs rfl, h.tier rfl, h.coding rfl, h.parts rfl, h.radio rfl, h.serve rfl, h.records rfl, h.eth rfl, h.mem rfl,
    h.host rfl, h.mgmt rfl, h.power rfl, h.ras rfl, h.twin rfl, h.salt rfl⟩

/-! ### One field -/

/-- A field that stands in the written register takes its new value by its access code. -/
theorem reg_writeField_same {p : Page} {off w : Nat} {f : RegField} {i : Nat} (h : fieldIndexAt f off = some i) (s : State) :
    (writeField p off w f s).reg p f i = writtenValue f off i (s.reg p f i) w := by
  unfold writeField writtenValue
  rw [h]
  dsimp only
  cases f.acc
  case rw | w1s | w1c => exact State.reg_setReg_same ..
  case ro | wo | rc => rfl

/-- Every field at another place than the written one is left alone. -/
theorem reg_writeField_other {p q : Page} {off w : Nat} {f g : RegField} {j : Nat}
    (h : ∀ i, fieldIndexAt f off = some i → fieldBit q g j ≠ fieldBit p f i) (s : State) :
    (writeField p off w f s).reg q g j = s.reg q g j := by
  unfold writeField
  split
  · rfl
  · next i hi =>
    dsimp only
    cases f.acc
    case rw | w1s | w1c => exact State.reg_setReg_other _ (h i hi) _
    case ro | wo | rc => rfl

/-! ### All fields of a page -/

/-- Writes of fields at other places leave a field alone. -/
theorem reg_writeFields_other {p q : Page} {off w : Nat} {g : RegField} {j : Nat} {l : List RegField}
    (h : ∀ f ∈ l, ∀ i, fieldIndexAt f off = some i → fieldBit q g j ≠ fieldBit p f i) (s : State) :
    (s.each l fun f u => writeField p off w f u).reg q g j = s.reg q g j :=
  each_reg' _ l (fun f hf u => reg_writeField_other (h f hf) u) s

/-- The element of a field that one write leaves: its new value where it stands in the register, its old one elsewhere. -/
theorem reg_writeField {p : Page} {off w : Nat} {f : RegField} {i : Nat} (hf : fits f = true) (hi : i < f.count) (s : State) :
    (writeField p off w f s).reg p f i = if fieldIndexAt f off = some i then writtenValue f off i (s.reg p f i) w else s.reg p f i := by
  split
  · next h => exact reg_writeField_same h s
  · next h =>
    refine reg_writeField_other (fun j hj => fieldBit_ne_of_fits hf hi (fieldIndexAt_lt hj) ?_ p) s
    rintro rfl
    exact h hj

/-- Where no two fields meet, writing them in turn gives each what it takes by itself. -/
theorem reg_writeFields {p : Page} {off w : Nat} {l : List RegField} (ha : l.Pairwise fun f g => apart f g = true)
    {f : RegField} (hm : f ∈ l) (hf : fits f = true) {i : Nat} (hi : i < f.count) (s : State) :
    (s.each l fun g u => writeField p off w g u).reg p f i =
      if fieldIndexAt f off = some i then writtenValue f off i (s.reg p f i) w else s.reg p f i := by
  induction l generalizing s with
  | nil => cases hm
  | cons g l ih =>
    obtain ⟨hg, hl⟩ := List.pairwise_cons.mp ha
    rw [each_cons]
    rcases List.mem_cons.mp hm with rfl | hm
    · rw [reg_writeFields_other (fun g hgl j hj => fieldBit_ne_of_apart (hg g hgl) hi (fieldIndexAt_lt hj) p), reg_writeField hf hi]
    · have hne : ∀ j, fieldIndexAt g off = some j → fieldBit p f i ≠ fieldBit p g j :=
        fun j hj => (fieldBit_ne_of_apart (hg f hm) (fieldIndexAt_lt hj) hi p).symm
      rw [ih hl hm, reg_writeField_other hne]

/-- Writing the fields of a page touches the register file alone. -/
theorem writeFields_only (p : Page) (off w : Nat) (l : List RegField) (s : State) :
    Only 8 s (s.each l fun f u => writeField p off w f u) :=
  each_only (fun f u h => h.trans (writeField_only p off w f u)) (Only.refl 8 s)

/-! ### REGISTER_WRITE -/

/-- A write of a register that has no command of its own, is not held and is neither a time source nor on a page whose writes go elsewhere. -/
theorem writePage_fields {p : Page} {off w : Nat} {s : State} (hc : ownCommand p off = false) (hh : heldNow s p off w = false)
    (hhost : p.kind ≠ .host) (hethp : p.kind ≠ .ethp) (htime : ¬(p.kind = .time ∧ off = 0x040)) :
    writePage p off w s = afterWrite p off w s (s.each (fieldsOf p.kind) fun f u => writeField p off w f u) := by
  have hall : ((fieldsOf p.kind).filter fun f => !(p.kind == .ethp && off == 0x040 && f == Rg.ethpConfigGroupMode)) = fieldsOf p.kind := by
    simp [hethp]
  unfold writePage
  rw [hc, hh, if_neg (by simp), if_neg htime, if_neg (fun h => hhost h.1)]
  dsimp only
  rw [hall]

/-- Nothing follows a plain write beside the stored values. -/
theorem writePage_plain {p : Page} {off w : Nat} {s : State} (h : plainRegister s p off w = true) :
    writePage p off w s = s.each (fieldsOf p.kind) fun f u => writeField p off w f u := by
  simp only [plainRegister, Bool.and_eq_true, Bool.not_eq_true', bne_iff_ne, Bool.and_eq_false_iff, beq_eq_false_iff_ne] at h
  obtain ⟨⟨⟨⟨⟨⟨⟨⟨⟨hc, hh⟩, hhost⟩, hethp⟩, hfabr⟩, hpart⟩, hrasp⟩, htime⟩, henable⟩, hfirst⟩ := h
  rw [writePage_fields hc hh hhost hethp (by rintro ⟨hk, ho⟩; exact htime.elim (· hk) (· ho))]
  unfold afterWrite
  rw [if_neg henable, if_neg (fun h => hfirst h.1)]
  split
  · next hk => exact absurd hk hrasp
  · next hk => exact absurd hk hfabr
  · next hk => exact absurd hk hpart
  · rfl

/-- A taken 32-bit REGISTER_WRITE is the write of its page. -/
theorem exec_registerWrite_taken {who : Requester} {off : Nat} {value : BitVec 64} {s : State} {p : Page} (hp : pageAt off = some p)
    (ha : off % 4 = 0) (ht : writeTaken s who p (off % 0x1000) = true) :
    exec (.registerWrite who 4 off value) s = .next (writePage p (off % 0x1000) (value.toNat % 2 ^ 32) s) := by
  have hup : pathUp s who = true := by
    simp only [writeTaken, Bool.and_eq_true] at ht
    exact ht.1.1.1.1
  show Host.Outcome.next _ = _
  rw [hup, if_neg (by simp), if_neg (by simp [ha]), if_pos rfl, writeOne, hp]
  exact congrArg _ (writeAccess_taken ht)

/-- A 32-bit REGISTER_WRITE at an offset that no page occupies takes nothing. -/
theorem exec_registerWrite_unoccupied {who : Requester} {off : Nat} {value : BitVec 64} {s : State} (hp : pageAt off = none)
    (ha : off % 4 = 0) (hup : pathUp s who = true) : exec (.registerWrite who 4 off value) s = .next s := by
  show Host.Outcome.next _ = _
  rw [hup, if_neg (by simp), if_neg (by simp [ha]), if_pos rfl, writeOne, hp]

/-- Settles O8: the fields of the page are written in turn, and no two of them meet. -/
theorem registerWritesFollowAccessCodes : Obligations.RegisterWritesFollowAccessCodes := by
  unfold Obligations.RegisterWritesFollowAccessCodes
  refine ⟨fun who off value s p hp ha ht hplain => ?_, fun who off value s hp ha hup => exec_registerWrite_unoccupied hp ha hup⟩
  refine ⟨_, exec_registerWrite_taken hp ha ht, ?_⟩
  rw [writePage_plain hplain]
  refine ⟨(writeFields_only ..).eq_regs, fun f hf i hi => reg_writeFields (fieldsOf_apart _) hf (fieldsOf_fits _ f hf) hi s, ?_⟩
  intro q g j hq hne hg
  refine reg_writeFields_other (fun f hf i hi => ?_) s
  exact fieldBit_ne_pages (pageOk_of_pageAt hp) hq hne.symm (inPage_of_fits (fieldsOf_fits _ f hf) (fieldIndexAt_lt hi)) hg

end Sys2Proof.Machine
end

section
/-! SUPPORT. Reads of the control window and the commands of INT_STATUS (R13, R14, R39, R51, R130, R409). -/

namespace Sys2Proof.Machine

/-- An aligned read of four bytes is one read of one register (R39). -/
theorem readWindow_word {who : Requester} {off : Nat} {event : Option (BitVec 32)} {s : State} (hup : pathUp s who = true)
    (ha : off % 4 = 0) :
    readWindow who 4 off event s = (readOne who off event s).1.emit (.readData (some (toBytes 4 (readOne who off event s).2))) := by
  have hn : (off + 4 + 3) / 4 - off / 4 = 1 := by omega
  have hoff : 4 * (off / 4 + 0) = off := by omega
  unfold readWindow
  rw [hup, if_neg (by simp)]
  dsimp only
  rw [hn, ha]
  simp only [List.range_one, List.foldl_cons, List.foldl_nil, if_true, hoff, List.nil_append, List.drop_zero]
  rw [List.take_of_length_le (by rw [toBytes_length])]

/-- What clearing INT_STATUS leaves in it: the old bits but for those written as 1, and the bits of simultaneous events (R14, R51). -/
theorem reg_clearStatus (p : Page) (value event : Nat) (s : State) :
    (clearStatus p value event s).reg p Rg.pageIntStatus =
      ((s.reg p Rg.pageIntStatus - (s.reg p Rg.pageIntStatus &&& value)) ||| event) % 2 ^ 32 :=
  State.reg_setReg_same ..

/-- What raising bits leaves in INT_STATUS. -/
theorem reg_raiseBits_same (p : Page) (bits : Nat) (s : State) :
    (s.raiseBits p bits).reg p Rg.pageIntStatus = (s.reg p Rg.pageIntStatus ||| bits) % 2 ^ 32 := by
  rw [State.reg_raiseBits]
  exact State.reg_setReg_same ..

/-- A taken INT_STATUS_CLEAR. -/
theorem exec_intStatusClear_taken {who : Requester} {p : Page} {value event : BitVec 32} {s : State} (hp : pageOk p = true)
    (ht : writeTaken s who p 0x020 = true) :
    exec (.intStatusClear who p value event) s = .next (clearStatus p value.toNat event.toNat s) := by
  show Host.Outcome.next _ = _
  rw [hp, if_neg (by simp), if_pos ht]

/-- A taken INT_FORCE_WRITE. -/
theorem exec_intForceWrite_taken {who : Requester} {p : Page} {value : BitVec 32} {s : State} (hp : pageOk p = true)
    (ht : writeTaken s who p 0x028 = true) : exec (.intForceWrite who p value) s = .next (s.raiseBits p value.toNat) := by
  show Host.Outcome.next _ = _
  rw [hp, if_neg (by simp), writeAccess_taken ht]

/-- REGISTER_WRITE writes the fields of the page it is addressed to. -/
theorem registerWrite_runs {who : Requester} {bytes off : Nat} {value : BitVec 64} {s : State}
    (h : canRegisterWrite who bytes off value s = true) : Runs (.registerWrite who bytes off value) s fun t =>
      ∃ p, pageAt off = some p ∧ t = afterWrite p (off % 0x1000) (value.toNat % 2 ^ 32) s
        (s.each (fieldsOf p.kind) fun f u => writeField p (off % 0x1000) (value.toNat % 2 ^ 32) f u) := by
  simp only [canRegisterWrite, Bool.and_eq_true, beq_iff_eq] at h
  obtain ⟨⟨⟨-, rfl⟩, ha⟩, h⟩ := h
  split at h
  · next p hp =>
    simp only [Bool.and_eq_true, Bool.not_eq_true', bne_iff_ne] at h
    obtain ⟨⟨⟨⟨⟨ht, hc⟩, hh⟩, htime⟩, hhost⟩, hethp⟩ := h
    exact ⟨_, exec_registerWrite_taken hp ha ht, p, hp, writePage_fields hc hh hhost hethp fun e => htime e.1⟩
  · cases h

/-- REGISTER_READ_CLEAR answers the register's four bytes. -/
theorem registerReadClear_runs {who : Requester} {bytes off : Nat} {event : Option (BitVec 32)} {s : State}
    (h : canRegisterReadClear who bytes off event s = true) : Runs (.registerReadClear who bytes off event) s fun t =>
      t = (readOne who off event s).1.emit (.readData (some (toBytes 4 (readOne who off event s).2))) := by
  simp only [canRegisterReadClear, Bool.and_eq_true, beq_iff_eq] at h
  obtain ⟨⟨hup, rfl⟩, ha⟩ := h
  exact ⟨_, rfl, readWindow_word hup ha⟩

/-- COUNTER_LATCH_READ answers the four bytes of the register that holds its offset. -/
theorem counterLatchRead_runs {who : Requester} {off : Nat} {s : State} (h : canCounterLatchRead who off s = true) :
    Runs (.counterLatchRead who off) s fun t =>
      t = (readOne who (off / 4 * 4) none s).1.emit (.readData (some (toBytes 4 (readOne who (off / 4 * 4) none s).2))) :=
  ⟨_, rfl, readWindow_word h (Nat.mul_mod_left ..)⟩

/-- INT_STATUS_CLEAR changes INT_STATUS, and neither a core nor a memory. -/
theorem intStatusClear_runs {who : Requester} {p : Page} {value event : BitVec 32} {s : State}
    (h : canIntStatusClear who p value event s = true) : Runs (.intStatusClear who p value event) s fun t =>
      t.reg p Rg.pageIntStatus = ((s.reg p Rg.pageIntStatus - (s.reg p Rg.pageIntStatus &&& value.toNat)) ||| event.toNat) % 2 ^ 32 ∧
      t.cores = s.cores ∧ t.mem = s.mem := by
  simp only [canIntStatusClear, Bool.and_eq_true] at h
  obtain ⟨hp, ht⟩ := h
  have keeps := clearStatus_only p value.toNat event.toNat s
  exact ⟨_, exec_intStatusClear_taken hp ht, reg_clearStatus .., keeps.cores rfl, keeps.mem rfl⟩

/-- INT_FORCE_WRITE changes INT_STATUS, and neither a core nor a memory. -/
theorem intForceWrite_runs {who : Requester} {p : Page} {value : BitVec 32} {s : State} (h : canIntForceWrite who p value s = true) :
    Runs (.intForceWrite who p value) s fun t =>
      t.reg p Rg.pageIntStatus = (s.reg p Rg.pageIntStatus ||| value.toNat) % 2 ^ 32 ∧ t.cores = s.cores ∧ t.mem = s.mem := by
  simp only [canIntForceWrite, Bool.and_eq_true] at h
  obtain ⟨hp, ht⟩ := h
  exact ⟨_, exec_intForceWrite_taken hp ht, reg_raiseBits_same .., s.raiseBits_cores .., s.raiseBits_mem ..⟩

/-- Settles O47: each command has a lemma of its own above. -/
theorem registerCommandsComplete : Obligations.RegisterCommandsComplete := by
  unfold Obligations.RegisterCommandsComplete
  exact ⟨fun _ _ _ _ _ => registerWrite_runs, fun _ _ _ _ _ => registerReadClear_runs, fun _ _ _ => counterLatchRead_runs,
    fun _ _ _ _ _ => intStatusClear_runs, fun _ _ _ _ => intForceWrite_runs⟩

end Sys2Proof.Machine
end

section
/-! SUPPORT. The state right after reset (R16, R32, R588, R595): the register file lists the four fields that the accepted reset sets. -/

namespace Sys2Proof.Machine

/-- Every field but the four that the accepted reset sets reads its reset value. -/
theorem reg_reset {p : Page} {f : RegField} {i : Nat} (hcount : fieldBit p f i ≠ fieldBit rsetPage Rg.rsetResetCountCount 0)
    (hcause : fieldBit p f i ≠ fieldBit rsetPage Rg.rsetResetCauseCause 0)
    (hfresh : fieldBit p f i ≠ fieldBit rsetPage Rg.rsetResetCauseVbatFresh 0)
    (hpending : fieldBit p f i ≠ fieldBit mgmtPage Rg.mgmtZeroizeStatusPending 0) : State.reset.reg p f i = resetAt p f i := by
  unfold State.reg State.reset
  dsimp only
  rw [fieldGet_set_other hpending, fieldGet_set_other hfresh, fieldGet_set_other hcause, fieldGet_set_other hcount]
  rfl

/-- A field of a page beside RSET and MGMT reads its reset value. -/
theorem reg_reset_page {p : Page} {f : RegField} {i : Nat} (hp : pageOk p = true) (hrset : p ≠ rsetPage) (hmgmt : p ≠ mgmtPage)
    (hf : inPage f i = true) : State.reset.reg p f i = resetAt p f i := by
  refine reg_reset ?_ ?_ ?_ ?_
  · exact fieldBit_ne_pages rfl hp hrset.symm rfl hf
  · exact fieldBit_ne_pages rfl hp hrset.symm rfl hf
  · exact fieldBit_ne_pages rfl hp hrset.symm rfl hf
  · exact fieldBit_ne_pages rfl hp hmgmt.symm rfl hf

/-- What the header and MIN_RATE of a core read after reset. -/
theorem reg_reset_core (c : Fin 160) :
    State.reset.reg (corePage c) Rg.pagePageIdMnemonic = 0x434F5245 ∧ State.reset.reg (corePage c) Rg.pagePageVersionInstance = c.val ∧
    State.reset.reg (corePage c) Rg.pageControlEnable = 0 ∧ State.reset.reg (corePage c) Rg.coreWaveRateMinRate = 0xFFFF := by
  have h : ∀ f, inPage f 0 = true → State.reset.reg (corePage c) f = resetAt (corePage c) f 0 :=
    fun f hf => reg_reset_page (decide_eq_true c.isLt) nofun nofun hf
  exact ⟨h _ rfl, h _ rfl, h _ rfl, h _ rfl⟩

/-- A port's receive buffer is divided among the virtual channels as its register table says. -/
theorem reg_reset_vcBuffer (p : Fin 9) {vc : Nat} (h : vc < 8) : State.reset.reg (aqzlPage p) Rg.aqzlVcBufferFlits vc = vcBufferReset vc :=
  reg_reset_page (decide_eq_true p.isLt) nofun nofun (inPage_of_fits rfl h)

/-- Settles O3: the register file after reset lists four fields. -/
theorem registersAtReset : Obligations.RegistersAtReset := by
  unfold Obligations.RegistersAtReset
  refine ⟨fun p f i => reg_reset, by decide, by decide, by decide, by decide, reg_reset_core, ?_, ?_, fun p => ?_, rfl, rfl⟩
  · exact reg_reset_page rfl nofun nofun rfl
  · exact reg_reset_page rfl nofun nofun rfl
  · exact List.map_congr_left (g := vcBufferReset) fun vc h => reg_reset_vcBuffer p (by revert vc; decide)

/-- Settles O4: the register file of reset is written from the empty one, the memories are empty, and device time is 0. -/
theorem resetMeetsInvariant : Obligations.ResetMeetsInvariant := by
  unfold Obligations.ResetMeetsInvariant
  have hempty : tabWf ([] : RegFile) = true := rfl
  have hregs : tabWf State.reset.regs = true := by
    unfold State.reset
    dsimp only
    exact fieldSet_wf (fieldSet_wf (fieldSet_wf (fieldSet_wf hempty)))
  exact { regs := hregs, mem := rfl, sec := by decide, sub := by decide, loadSec := nofun }

end Sys2Proof.Machine
end

section
/-! SUPPORT. What every command does to the state: it answers a next state, and changes only the parts that touched names for it. -/

namespace Sys2Proof.Machine

/-- The bit of a part of the state in the masks of Only. -/
def partBit : StatePart → Nat
  | .out => 1
  | .freeIx => 2
  | .regs => 3
  | .latches => 4
  | .resets => 5
  | .plat => 6
  | .fuses => 7
  | .time => 8
  | .cores => 9
  | .fabric => 10
  | .sigcs => 11
  | .sems => 12
  | .ctxs => 13
  | .tier => 14
  | .coding => 15
  | .parts => 16
  | .radio => 17
  | .serve => 18
  | .records => 19
  | .eth => 20
  | .mem => 21
  | .host => 22
  | .mgmt => 23
  | .power => 24
  | .ras => 25
  | .twin => 26
  | .salt => 27

/-- The mask of a list of parts. -/
def partMask (l : List StatePart) : Nat := l.foldl (fun m p => m ||| 2 ^ partBit p) 0

/-- Every command changes only the parts that touched names for it, keeps the queue, what was sent and the count of used free values, and
keeps the canonical forms: its meaning's lemma, by the dispatcher's arms. -/
theorem exec_only (c : Instr) (s : State) : OnlyNext (partMask (touched c)) s (exec c s) :=
  match c with
  | .powerOn vbatHeld => execPowerOn_only vbatHeld s
  | .supplyDrop rail ns => execSupplyDrop_only rail ns s
  | .resetAccept lowNs sinceReleaseNs arb => execResetAccept_only lowNs sinceReleaseNs arb s
  | .resetRelease netHigh => execResetRelease_only netHigh s
  | .bringupStart env => execBringupStart_only env s
  | .bringupDone => execBringupDone_only s
  | .refclkALoss => execRefclkALoss_only s
  | .thermalTrip die degrees => execThermalTrip_only die degrees s
  | .waveWindowEnd unit rate readMeets => execWaveWindowEnd_only unit rate readMeets s
  | .vddCoreStepUp die => execVddCoreStepUp_only die s
  | .vddCorePolicy die mvPower mvRate mvFloor => execVddCorePolicy_only die mvPower mvRate mvFloor s
  | .avsTransaction die mv ok => execAvsTransaction_only die mv ok s
  | .registerWrite who bytes offset value => execRegisterWrite_only who bytes offset value s
  | .registerReadClear who bytes offset event => execRegisterReadClear_only who bytes offset event s
  | .counterLatchRead who offset => execCounterLatchRead_only who offset s
  | .intStatusClear who page value event => execIntStatusClear_only who page value event s
  | .intForceWrite who page value => execIntForceWrite_only who page value s
  | .softReset who page value => execSoftReset_only who page value s
  | .softResetDone page => execSoftResetDone_only page s
  | .enableWrite who page on => execEnableWrite_only who page on s
  | .blockOperating page => execBlockOperating_only page s
  | .blockStopped page => execBlockStopped_only page s
  | .freezeWrite who page on => execFreezeWrite_only who page on s
  | .blockFrozen page => execBlockFrozen_only page s
  | .scalarInstruction c insn => execScalarInstruction_only c insn s
  | .branchInstruction c insn => execBranchInstruction_only c insn s
  | .ld place width signed rd => execLd_only place width signed rd s
  | .st place width rs => execSt_only place width rs s
  | .vld c vd ga gb lane rsvd => execVld_only c vd ga gb lane rsvd s
  | .vst c vs ga gb lane rsvd => execVst_only c vs ga gb lane rsvd s
  | .vectorElementwise op regs => execVectorElementwise_only op regs s
  | .vectorShiftCompare op regs => execVectorShiftCompare_only op regs s
  | .vectorReduce op regs => execVectorReduce_only op regs s
  | .vectorRequantize c op vd va vb lane target => execVectorRequantize_only c op vd va vb lane target s
  | .vpoly c vd va gb => execVpoly_only c vd va gb s
  | .vectorPermute op regs => execVectorPermute_only op regs s
  | .vectorMove c op lane => execVectorMove_only c op lane s
  | .issueArrayPass c w => execIssueArrayPass_only c w s
  | .issueTileLoad c w => execIssueTileLoad_only c w s
  | .issueStream c w => execIssueStream_only c w s
  | .issueFabric c w => execIssueFabric_only c w s
  | .issueCoding c w => execIssueCoding_only c w s
  | .arrayPassStart c array defects => execArrayPassStart_only c array defects s
  | .arrayPassDone c array stalls => execArrayPassDone_only c array stalls s
  | .tileLoadStart c array => execTileLoadStart_only c array s
  | .tileLoadDone c array => execTileLoadDone_only c array s
  | .arrayFence c array feeder => execArrayFence_only c array feeder s
  | .skewProbeStart who c value => execSkewProbeStart_only who c value s
  | .skewProbeDone c failed detail => execSkewProbeDone_only c failed detail s
  | .rowRepairWrite who c array value => execRowRepairWrite_only who c array value s
  | .colRepairWrite who c array value => execColRepairWrite_only who c array value s
  | .streamSlotStart c slot => execStreamSlotStart_only c slot s
  | .streamLineMoved c slot => execStreamLineMoved_only c slot s
  | .streamSlotDone c slot => execStreamSlotDone_only c slot s
  | .streamHalt c slot => execStreamHalt_only c slot s
  | .semacq a w => execSemacq_only a w s
  | .semrel a gd gs count rsvd => execSemrel_only a gd gs count rsvd s
  | .semtry a w => execSemtry_only a w s
  | .semset a w => execSemset_only a w s
  | .semaphoreGrant sem arb => execSemaphoreGrant_only sem arb s
  | .wait a w => execWait_only a w s
  | .waitEventArrival a => execWaitEventArrival_only a s
  | .waitDeadline a => execWaitDeadline_only a s
  | .fence a gd scope gt cp rsvd => execFence_only a gd scope gt cp rsvd s
  | .fenceComplete a => execFenceComplete_only a s
  | .srel a w => execSrel_only a w s
  | .cpmark c id rsvd => execCpmark_only c id rsvd s
  | .cheapSaveDone c => execCheapSaveDone_only c s
  | .rdtime c rd => execRdtime_only c rd s
  | .rdflags c rd => execRdflags_only c rd s
  | .clrflags c imm => execClrflags_only c imm s
  | .brk c imm => execBrk_only c imm s
  | .halt c => execHalt_only c s
  | .rdwave c rd => execRdwave_only c rd s
  | .deferredTrap c => execDeferredTrap_only c s
  | .trapResume who c => execTrapResume_only who c s
  | .trapSkip who c => execTrapSkip_only who c s
  | .trapAbort who c => execTrapAbort_only who c s
  | .sigcEnable who k on => execSigcEnable_only who k on s
  | .cmac k op acc da db => execCmac_only k op acc da db s
  | .tapm k lane0 acc ac ax => execTapm_only k lane0 acc ac ax s
  | .sst k acc dd form => execSst_only k acc dd form s
  | .aclr k acc => execAclr_only k acc s
  | .zld k dd a post => execZld_only k dd a post s
  | .zst k ds a post => execZst_only k ds a post s
  | .loop k level count last => execLoop_only k level count last s
  | .lsave k a => execLsave_only k a s
  | .lrestore k a => execLrestore_only k a s
  | .reti k => execReti_only k s
  | .ei k => execEi_only k s
  | .di k => execDi_only k s
  | .alarm k n a => execAlarm_only k n a s
  | .alarmFire k n => execAlarmFire_only k n s
  | .doorbellRing who k value => execDoorbellRing_only who k value s
  | .interruptTaken k => execInterruptTaken_only k s
  | .sigcDmaStart k ch addr => execSigcDmaStart_only k ch addr s
  | .sigcDmaLine k ch => execSigcDmaLine_only k ch s
  | .sigcDmaDone k ch => execSigcDmaDone_only k ch s
  | .sigcDmaHalt k ch => execSigcDmaHalt_only k ch s
  | .sigcTrapResume who k => execSigcTrapResume_only who k s
  | .sigcTrapSkip who k => execSigcTrapSkip_only who k s
  | .sigcTrapAbort who k => execSigcTrapAbort_only who k s
  | .codingQueueAdmit c => execCodingQueueAdmit_only c s
  | .codingDescriptorStart engine ownerWriteFirst => execCodingDescriptorStart_only engine ownerWriteFirst s
  | .codingDescriptorDone engine => execCodingDescriptorDone_only engine s
  | .codeOwnerWrite who engine value => execCodeOwnerWrite_only who engine value s
  | .memoryRead part addr hint agent => execMemoryRead_only part addr hint agent s
  | .memoryWrite part addr data agent => execMemoryWrite_only part addr data agent s
  | .bulkLinkDown p => execBulkLinkDown_only p s
  | .bufferWaysWrite who m value => execBufferWaysWrite_only who m value s
  | .objectDeclare q data => execObjectDeclare_only q data s
  | .objectRelease q object => execObjectRelease_only q object s
  | .objectMove q object tier => execObjectMove_only q object tier s
  | .objectPageMoved part => execObjectPageMoved_only part s
  | .loadObject q kind data => execLoadObject_only q kind data s
  | .loadObjectState q data => execLoadObjectState_only q data s
  | .fill q target pattern => execFill_only q target pattern s
  | .longOpChunk part sq cmd bytes => execLongOpChunk_only part sq cmd bytes s
  | .heatEpoch part => execHeatEpoch_only part s
  | .heatMove part => execHeatMove_only part s
  | .heatMoveDone part => execHeatMoveDone_only part s
  | .sluiceStart q list => execSluiceStart_only q list s
  | .sluiceStop q list => execSluiceStop_only q list s
  | .sluicePrefetch engine => execSluicePrefetch_only engine s
  | .sluiceFillStart engine => execSluiceFillStart_only engine s
  | .sluiceFillDone engine => execSluiceFillDone_only engine s
  | .resourceDone part unit source data writeFails => execResourceDone_only part unit source data writeFails s
  | .resourceTimeout part unit error => execResourceTimeout_only part unit error s
  | .cellStart q => execCellStart_only q s
  | .cellStop q cell => execCellStop_only q cell s
  | .slot q data tasks arb => execSlot_only q data tasks arb s
  | .slotBoundary k cell => execSlotBoundary_only k cell s
  | .calCoolantStale k => execCalCoolantStale_only k s
  | .calImport q k record => execCalImport_only q k record s
  | .tidemarkMiss k cell frame slot task => execTidemarkMiss_only k cell frame slot task s
  | .slotComplete k cell frame slot taskNs poisonPrbs => execSlotComplete_only k cell frame slot taskNs poisonPrbs s
  | .uplaneHandoff k cell frame slot symbol ready blocks => execUplaneHandoff_only k cell frame slot symbol ready blocks s
  | .uplaneWindowClose k cell frame slot symbol eaxc named => execUplaneWindowClose_only k cell frame slot symbol eaxc named s
  | .surgeClaim k cell frame slot => execSurgeClaim_only k cell frame slot s
  | .surgeCoreReady c => execSurgeCoreReady_only c s
  | .claimLate c => execClaimLate_only c s
  | .surgeReturn c => execSurgeReturn_only c s
  | .selftestAdmit q env => execSelftestAdmit_only q env s
  | .selftestSoak q seconds record => execSelftestSoak_only q seconds record s
  | .serveGroup q data => execServeGroup_only q data s
  | .streamOpen q data => execStreamOpen_only q data s
  | .streamClose q => execStreamClose_only q s
  | .streamHold q => execStreamHold_only q s
  | .streamRelease q => execStreamRelease_only q s
  | .streamQuery q => execStreamQuery_only q s
  | .kvBind q object layerBytes layers => execKvBind_only q object layerBytes layers s
  | .kvRelease q entry => execKvRelease_only q entry s
  | .reshard q stream group => execReshard_only q stream group s
  | .prefillStepCompose k g => execPrefillStepCompose_only k g s
  | .decodeStepCompose k g mb => execDecodeStepCompose_only k g mb s
  | .serveStepDone k g step rows => execServeStepDone_only k g step rows s
  | .reshardPage k stream => execReshardPage_only k stream s
  | .reshardDone k stream => execReshardDone_only k stream s
  | .tokenRecordAccepted stream translates => execTokenRecordAccepted_only stream translates s
  | .partEnable who k => execPartEnable_only who k s
  | .ctxActivate who k ctx => execCtxActivate_only who k ctx s
  | .ctxSuspend who k ctx => execCtxSuspend_only who k ctx s
  | .ctxResume who k ctx => execCtxResume_only who k ctx s
  | .ctxDestroy who k ctx => execCtxDestroy_only who k ctx s
  | .sliceEnd k ctx => execSliceEnd_only k ctx s
  | .preemptDelivered c => execPreemptDelivered_only c s
  | .forcedPreempt c => execForcedPreempt_only c s
  | .forcedSaveDone c => execForcedSaveDone_only c s
  | .contextStart k ctx => execContextStart_only k ctx s
  | .contextRestoreDone c => execContextRestoreDone_only c s
  | .donationStart c => execDonationStart_only c s
  | .resizeStart who k => execResizeStart_only who k s
  | .resizeDone k => execResizeDone_only k s
  | .allotWrite who k bulk value => execAllotWrite_only who k bulk value s
  | .dirtyAtomicCompletion k ok => execDirtyAtomicCompletion_only k ok s
  | .exportState q => execExportState_only q s
  | .pcieLinkDown => execPcieLinkDown_only s
  | .pcieLinkUp speed width flit => execPcieLinkUp_only speed width flit s
  | .pcieConfigRequest fn register => execPcieConfigRequest_only fn register s
  | .sqTailDoorbell fn sq low secure => execSqTailDoorbell_only fn sq low secure s
  | .cqHeadDoorbell fn sq high secure => execCqHeadDoorbell_only fn sq high secure s
  | .windowRead fn off len secure => execWindowRead_only fn off len secure s
  | .windowWrite fn off data secure => execWindowWrite_only fn off data secure s
  | .windowAtomic fn off op wide operand compare secure => execWindowAtomic_only fn off op wide operand compare secure s
  | .sqEntryFetch admin entry => execSqEntryFetch_only admin entry s
  | .nop q => execNop_only q s
  | .cancel q cancelFirst => execCancel_only q cancelFirst s
  | .createSq q => execCreateSq_only q s
  | .createCq q => execCreateCq_only q s
  | .deleteSq q => execDeleteSq_only q s
  | .deleteCq q => execDeleteCq_only q s
  | .completionWrite cq translates => execCompletionWrite_only cq translates s
  | .cqCoalesceTimer cq => execCqCoalesceTimer_only cq s
  | .msixVectorUnmask fn vector => execMsixVectorUnmask_only fn vector s
  | .routeWrite who value => execRouteWrite_only who value s
  | .adminQueueEnable who on => execAdminQueueEnable_only who on s
  | .atsInvalidate fn pasid addr size => execAtsInvalidate_only fn pasid addr size s
  | .ideKmRequest stream msg => execIdeKmRequest_only stream msg s
  | .tdispRequest fn msg => execTdispRequest_only fn msg s
  | .flrVf fn => execFlrVf_only fn s
  | .flrPf => execFlrPf_only s
  | .forwardedEntryArrive remoteSq entry lead => execForwardedEntryArrive_only remoteSq entry lead s
  | .memberCompletionArrive sq id status result => execMemberCompletionArrive_only sq id status result s
  | .forwardTimeout sq id => execForwardTimeout_only sq id s
  | .memberRead q value reachable => execMemberRead_only q value reachable s
  | .memberWrite q reachable => execMemberWrite_only q reachable s
  | .memberEvent m => execMemberEvent_only m s
  | .trainStart p cause => execTrainStart_only p cause s
  | .retrainWrite who p => execRetrainWrite_only who p s
  | .levelDrift p lane => execLevelDrift_only p lane s
  | .trainPhaseDone p info => execTrainPhaseDone_only p info s
  | .trainPhaseTimeout p => execTrainPhaseTimeout_only p s
  | .codewordRx p lane seq fec => execCodewordRx_only p lane seq fec s
  | .flitRx p flit crcOk => execFlitRx_only p flit crcOk s
  | .flitTx p => execFlitTx_only p s
  | .flow p vc xoff => execFlow_only p vc xoff s
  | .quench p part on => execQuench_only p part on s
  | .seal p tag dest fseq => execSeal_only p tag dest fseq s
  | .sealReturn p tag dest fseq => execSealReturn_only p tag dest fseq s
  | .ack p fseq => execAck_only p fseq s
  | .nak p fseq => execNak_only p fseq s
  | .credit p vc count => execCredit_only p vc count s
  | .time p kind value localTime => execTime_only p kind value localTime s
  | .power p mask wake seq => execPower_only p mask wake seq s
  | .ackTimer p => execAckTimer_only p s
  | .retryLimit p => execRetryLimit_only p s
  | .gateStateResend p => execGateStateResend_only p s
  | .laneSleep p lane => execLaneSleep_only p lane s
  | .laneWake p lane errors => execLaneWake_only p lane errors s
  | .laneRefresh p lane => execLaneRefresh_only p lane s
  | .timeExchangeTx p => execTimeExchangeTx_only p s
  | .load pkt => execLoad_only pkt s
  | .store pkt => execStore_only pkt s
  | .atomic pkt => execAtomic_only pkt s
  | .atomicNr pkt => execAtomicNr_only pkt s
  | .reduce pkt => execReduce_only pkt s
  | .mcastStore pkt => execMcastStore_only pkt s
  | .dmaRead pkt => execDmaRead_only pkt s
  | .dmaWrite pkt => execDmaWrite_only pkt s
  | .readS pkt grantE => execReadS_only pkt grantE s
  | .readX pkt => execReadX_only pkt s
  | .writeback pkt => execWriteback_only pkt s
  | .evict pkt => execEvict_only pkt s
  | .invalidate pkt => execInvalidate_only pkt s
  | .recall pkt => execRecall_only pkt s
  | .drained p => execDrained_only p s
  | .fabricInject c => execFabricInject_only c s
  | .fabricResponse pkt => execFabricResponse_only pkt s
  | .fabricCommandDone c => execFabricCommandDone_only c s
  | .refusedRetry c => execRefusedRetry_only c s
  | .reqTimeout c req => execReqTimeout_only c req s
  | .gatherTimeout part addr => execGatherTimeout_only part addr s
  | .absorberWriteback m line => execAbsorberWriteback_only m line s
  | .routeMove dest output => execRouteMove_only dest output s
  | .routeReturn dest => execRouteReturn_only dest s
  | .outputDown p => execOutputDown_only p s
  | .drainTimeout p => execDrainTimeout_only p s
  | .quenchWrite who value => execQuenchWrite_only who value s
  | .timeUpstreamLoss next => execTimeUpstreamLoss_only next s
  | .groupModeWrite who g value => execGroupModeWrite_only who g value s
  | .ethLinkChange p up => execEthLinkChange_only p up s
  | .ethFrameRx p frame => execEthFrameRx_only p frame s
  | .ethFrameTx p => execEthFrameTx_only p s
  | .txtsEntry p tag time => execTxtsEntry_only p tag time s
  | .txtsPopRead who p => execTxtsPopRead_only who p s
  | .servoSample t1 t2 exchange across => execServoSample_only t1 t2 exchange across s
  | .stepForceWrite who value => execStepForceWrite_only who value s
  | .offsetInWrite who value => execOffsetInWrite_only who value s
  | .holdoverEntry => execHoldoverEntry_only s
  | .freqSourceLoss average => execFreqSourceLoss_only average s
  | .ppsInEdge lowNs highNs edge => execPpsInEdge_only lowNs highNs edge s
  | .ppsOutEdge => execPpsOutEdge_only s
  | .timeNowRead who => execTimeNowRead_only who s
  | .nodeRead who => execNodeRead_only who s
  | .nodeWrite who => execNodeWrite_only who s
  | .policerRead who => execPolicerRead_only who s
  | .policerWrite who => execPolicerWrite_only who s
  | .strictWrite who value => execStrictWrite_only who value s
  | .recordBoundary k inputsFirst loadDataOk => execRecordBoundary_only k inputsFirst loadDataOk s
  | .rake q => execRake_only q s
  | .flipArm who value => execFlipArm_only who value s
  | .coreRetireWrite who die value => execCoreRetireWrite_only who die value s
  | .pprStart who value => execPprStart_only who value s
  | .pprDone outcome => execPprDone_only outcome s
  | .coreFenceWrite who value => execCoreFenceWrite_only who value s
  | .coreCheckFail c => execCoreCheckFail_only c s
  | .spareReplaceDone c copyOk probeOk => execSpareReplaceDone_only c copyOk probeOk s
  | .sigcReplaceDone k => execSigcReplaceDone_only k s
  | .twinPulseTx => execTwinPulseTx_only s
  | .twinPulseRx => execTwinPulseRx_only s
  | .twinPinFault => execTwinPinFault_only s
  | .twinFailTimeout => execTwinFailTimeout_only s
  | .twinFailMsg => execTwinFailMsg_only s
  | .twinTakeover => execTwinTakeover_only s
  | .mirrorBatch k writes => execMirrorBatch_only k writes s
  | .drainWrite who value => execDrainWrite_only who value s
  | .drainHandover k cell => execDrainHandover_only k cell s
  | .saltScore => execSaltScore_only s
  | .saltMessageTx => execSaltMessageTx_only s
  | .saltMessageRx msg => execSaltMessageRx_only msg s
  | .expelAnnounce member news => execExpelAnnounce_only member news s
  | .isolation => execIsolation_only s
  | .admitWrite who value => execAdmitWrite_only who value s
  | .watchdogExpiry => execWatchdogExpiry_only s
  | .bootStart => execBootStart_only s
  | .bootDone image => execBootDone_only image s
  | .recoveryGo who value image => execRecoveryGo_only who value image s
  | .svnCommit who value => execSvnCommit_only who value s
  | .ownerCommit who value => execOwnerCommit_only who value s
  | .sensorSample env => execSensorSample_only env s
  | .getSensorReading src sensor => execGetSensorReading_only src sensor s
  | .pldmDiscovery src req => execPldmDiscovery_only src req s
  | .pldmFruRead src => execPldmFruRead_only src s
  | .firmwareUpdate src image => execFirmwareUpdate_only src image s
  | .activateFirmware src => execActivateFirmware_only src s
  | .getVersion src => execGetVersion_only src s
  | .getCapabilities src => execGetCapabilities_only src s
  | .negotiateAlgorithms src supported => execNegotiateAlgorithms_only src supported s
  | .getDigests src => execGetDigests_only src s
  | .getCertificate src slot offset length => execGetCertificate_only src slot offset length s
  | .challenge src slot nonce => execChallenge_only src slot nonce s
  | .getMeasurements src index signed nonce => execGetMeasurements_only src index signed nonce s
  | .keyExchange src exchange => execKeyExchange_only src exchange s
  | .finish src verifies => execFinish_only src verifies s
  | .keyUpdate src => execKeyUpdate_only src s
  | .heartbeat src => execHeartbeat_only src s
  | .endSession src => execEndSession_only src s
  | .chunkSend src chunk last data => execChunkSend_only src chunk last data s
  | .chunkGet src chunk => execChunkGet_only src chunk s
  | .partitionReport src k nonce => execPartitionReport_only src k nonce s
  | .setMigrationKey src slot key peer => execSetMigrationKey_only src slot key peer s
  | .zeroizePartition q => execZeroizePartition_only q s
  | .zeroizeDevice q => execZeroizeDevice_only q s
  | .powerEstimate p p0 f => execPowerEstimate_only p p0 f s
  | .powerAllowanceExpiry => execPowerAllowanceExpiry_only s
  | .coolantHigh inlet => execCoolantHigh_only inlet s
  | .inletSensorLoss => execInletSensorLoss_only s
  | .timeLoad who seconds => execTimeLoad_only who seconds s
  | .refclkAPresent => execRefclkAPresent_only s
  | .hotWaitEnd => execHotWaitEnd_only s
  | .codewordLockLoss p lane => execCodewordLockLoss_only p lane s
  | .bulkLinkUp p width speed => execBulkLinkUp_only p width speed s
  | .vbatLow low => execVbatLow_only low s
  | .freqSourceValid y => execFreqSourceValid_only y s
  | .ptpFrameHandoff p subscriber bytes tag oneStep => execPtpFrameHandoff_only p subscriber bytes tag oneStep s
  | .saltUsedExpiry => execSaltUsedExpiry_only s
  | .twinCopyStale k object q => execTwinCopyStale_only k object q s
  | .controllerNotServing => execControllerNotServing_only s
  | .pdrRepositoryRequest src req => execPdrRepositoryRequest_only src req s
  | .dynamicAddress addr => execDynamicAddress_only addr s

/-- Every command answers a next state: the meaning of each is a next state, whatever it decides on the way. -/
theorem exec_answers (c : Instr) (s : State) : ∃ t, exec c s = .next t := by
  cases c <;> exact ⟨_, rfl⟩

/-- Settles O6: every command answers a next state, and what exec_only says of that state holds of its queue, its output and its free
values. -/
theorem everyCommandAnswersAState : Obligations.EveryCommandAnswersAState := by
  unfold Obligations.EveryCommandAnswersAState
  intro c s
  obtain ⟨t, ht⟩ := exec_answers c s
  have keeps := exec_only c s t ht
  exact ⟨t, ht, keeps.pending, keeps.outGrows, keeps.freeGrows⟩

end Sys2Proof.Machine
end

section
/-! SUPPORT. A step runs the front command (R26, R41), and a command leaves the parts that touched does not name. -/

namespace Sys2Proof.Machine

theorem step_cons {c : Instr} {q : List Instr} {s : State} (h : s.pending = c :: q) : step s = exec c { s with pending := q } := by
  unfold step
  rw [h]

theorem step_nil {s : State} (h : s.pending = []) : step s = .next (idleTick s) := by
  unfold step
  rw [h]

/-- Settles O1: it is the step's own case of a queue that is not empty. -/
theorem frontCommandRuns : Obligations.FrontCommandRuns := by
  unfold Obligations.FrontCommandRuns
  exact fun c q s h => step_cons h

theorem partBit_inj {p q : StatePart} (h : partBit p = partBit q) : p = q := by
  have inverse : ∀ p : StatePart, StatePart.ofNat (partBit p - 1) = p := by intro p; cases p <;> rfl
  rw [← inverse p, ← inverse q, h]

/-- The mask that a list adds to a mask has a part's bit where the mask had it or the list names the part. -/
theorem testBit_addParts (p : StatePart) (l : List StatePart) (m : Nat) :
    (l.foldl (fun m p => m ||| 2 ^ partBit p) m).testBit (partBit p) = (m.testBit (partBit p) || decide (p ∈ l)) := by
  induction l generalizing m with
  | nil => simp
  | cons q l ih =>
    have hbit : (2 ^ partBit q).testBit (partBit p) = decide (p = q) := by
      rw [Nat.testBit_two_pow]
      exact decide_eq_decide.mpr ⟨fun h => (partBit_inj h).symm, fun h => by rw [h]⟩
    rw [List.foldl_cons, ih, Nat.testBit_or, hbit, Bool.or_assoc, ← Bool.decide_or]
    simp only [List.mem_cons]

theorem testBit_partMask (p : StatePart) (l : List StatePart) : (partMask l).testBit (partBit p) = decide (p ∈ l) := by
  rw [partMask, testBit_addParts, Nat.zero_testBit, Bool.false_or]

/-- A change that a mask allows leaves every part whose bit the mask has not. -/
theorem Only.samePart {m : Nat} {s t : State} (h : Only m s t) {p : StatePart} (hp : m.testBit (partBit p) = false) : samePart p s t := by
  cases p with
  | out => exact h.out hp
  | freeIx => exact h.freeIx hp
  | regs => exact h.regs hp
  | latches => exact h.latches hp
  | resets => exact h.resets hp
  | plat => exact h.plat hp
  | fuses => exact h.fuses hp
  | time => exact h.time hp
  | cores => exact h.cores hp
  | fabric => exact h.fabric hp
  | sigcs => exact h.sigcs hp
  | sems => exact h.sems hp
  | ctxs => exact h.ctxs hp
  | tier => exact h.tier hp
  | coding => exact h.coding hp
  | parts => exact h.parts hp
  | radio => exact h.radio hp
  | serve => exact h.serve hp
  | records => exact h.records hp
  | eth => exact h.eth hp
  | mem => exact h.mem hp
  | host => exact h.host hp
  | mgmt => exact h.mgmt hp
  | power => exact h.power hp
  | ras => exact h.ras hp
  | twin => exact h.twin hp
  | salt => exact h.salt hp

theorem exec_samePart {c : Instr} {s t : State} (h : exec c s = .next t) {p : StatePart} (hp : p ∉ touched c) : samePart p s t :=
  (exec_only c s t h).samePart (by rw [testBit_partMask, decide_eq_false hp])

/-- Settles O7: exec_only, with the mask of touched read bit by bit. -/
theorem commandsTouchOnlyTheirParts : Obligations.CommandsTouchOnlyTheirParts := by
  unfold Obligations.CommandsTouchOnlyTheirParts
  exact fun c s t h p hp => exec_samePart h hp

end Sys2Proof.Machine
end

section
/-! SUPPORT. Device time under the commands (R33, R492, R493, R593, R596): what each operation that writes the time unit leaves of it. -/

namespace Sys2Proof.Machine

/-- Device time is as before, and a load that waits was waiting before or is one of 48 bits (R32, R596). -/
structure TimeStands (s t : State) : Prop where
  sec : t.time.sec = s.time.sec
  sub : t.time.sub = s.time.sub
  load : ∀ v, t.time.loadSec = some v → s.time.loadSec = some v ∨ v < 2 ^ 48

theorem TimeStands.refl (s : State) : TimeStands s s := ⟨rfl, rfl, fun _ => .inl⟩

theorem TimeStands.trans {s t u : State} (h : TimeStands s t) (g : TimeStands t u) : TimeStands s u :=
  ⟨g.sec.trans h.sec, g.sub.trans h.sub, fun v e => (g.load v e).elim (h.load v) .inr⟩

/-- The later change is named first. -/
theorem TimeStands.after {s t u : State} (g : TimeStands t u) (h : TimeStands s t) : TimeStands s u := h.trans g

theorem TimeStands.of_time {s t : State} (h : t.time = s.time) : TimeStands s t := by
  refine ⟨?_, ?_, ?_⟩ <;> rw [h]
  exact fun _ => .inl

theorem Only.timeStands {m : Nat} {s t : State} (h : Only m s t) (hm : m.testBit 8 = false) : TimeStands s t :=
  .of_time (h.time hm)

theorem writeAccess_timeStands {f : State → State} (hf : ∀ s, TimeStands s (f s)) (who : Requester) (p : Page) (off : Nat) (s : State) :
    TimeStands s (writeAccess who p off f s) := by
  unfold writeAccess
  split
  · exact .refl s
  split
  · exact .of_time (State.error_time ..)
  split
  · exact .of_time (State.countErrors_time ..)
  split
  · exact .refl s
  split
  · exact .refl s
  · exact hf s

/-! ### The servo -/

theorem lockState_timeStands (theta : Int) (slew : Nat) (s : State) : TimeStands s (lockState theta slew s) := by
  unfold lockState
  dsimp only
  refine .trans (t := { s with time := { s.time with
    good := min (if 4 * theta.natAbs ≤ slew then s.time.good + 1 else 0) 16, acceptedAt := s.now } }) ⟨rfl, rfl, fun _ => .inl⟩ ?_
  exact .of_time (State.raiseBits_time ..)

theorem setY_timeStands (y : Int) (s : State) : TimeStands s (setY y s) := (setY_only y s).timeStands rfl

/-- A phase sample leaves device time: the step that it orders is the next tick's (R492). -/
theorem servo_timeStands (theta : Int) (s : State) : TimeStands s (servo theta s) := by
  unfold servo
  split
  · exact .refl s
  extract_lets limit slew tNs t u
  have hu : TimeStands s u := ⟨rfl, rfl, fun _ => .inl⟩
  split
  · exact hu.trans (.of_time ((State.raise_time ..).trans (State.bump_time ..)))
  split
  · refine .trans ?_ (lockState_timeStands ..)
    have hstep : TimeStands u { u with time := { u.time with step := u.time.step - theta } } := ⟨rfl, rfl, fun _ => .inl⟩
    exact (hu.trans hstep).trans (.of_time (State.bump_time ..))
  · refine (lockState_timeStands ..).after ((setY_timeStands ..).after (hu.trans ?_))
    exact ⟨rfl, rfl, fun _ => .inl⟩

theorem setYf_timeStands (y : Int) (s : State) : TimeStands s (setYf y s) := by
  have ht : TimeStands s { s with time := { s.time with yf := y } } := ⟨rfl, rfl, fun _ => .inl⟩
  unfold setYf
  dsimp only
  split
  · exact ht.trans (setY_timeStands ..)
  split
  · exact ht.trans (setY_timeStands ..)
  · exact ht

theorem setSources_timeStands (v : Nat) (s : State) : TimeStands s (setSources v s) := by
  unfold setSources
  extract_lets old t u
  have hu : TimeStands s u := by
    have ht : TimeStands s t := .of_time rfl
    unfold u
    split
    · exact (setYf_timeStands ..).after (ht.trans (.of_time rfl))
    · exact ht
  split
  · exact hu
  split
  · exact (setY_timeStands ..).after (hu.trans (.of_time rfl))
  · exact hu.trans ⟨rfl, rfl, fun _ => .inl⟩

theorem notePath_timeStands (twice : Int) (s : State) : TimeStands s (notePath twice s) := by
  have hpaths : TimeStands s { s with time := { s.time with paths := (twice :: s.time.paths).take 16 } } := ⟨rfl, rfl, fun _ => .inl⟩
  exact hpaths.trans (.of_time ((State.usedFree_time ..).trans (State.setReg_time ..)))

theorem timeOffset_timeStands (t1 t2 t3 t4 : Nat) (s : State) : TimeStands s (timeOffset t1 t2 t3 t4 s) := by
  unfold timeOffset
  dsimp only
  split
  · exact .of_time rfl
  split
  · exact (servo_timeStands ..).after (.of_time rfl)
  · exact .of_time rfl

/-! ### Register writes -/

theorem writePage_timeStands (p : Page) (off w : Nat) (s : State) : TimeStands s (writePage p off w s) := by
  unfold writePage
  split
  · exact .refl s
  split
  · exact setSources_timeStands ..
  split
  · exact (writeWindow_only ..).timeStands rfl
  · exact .trans ((writeFields_only ..).timeStands rfl) ((afterWrite_only ..).timeStands rfl)

theorem writeOne_timeStands (who : Requester) (off w : Nat) (s : State) : TimeStands s (writeOne who off w s) := by
  unfold writeOne
  split
  · exact .refl s
  · exact writeAccess_timeStands (writePage_timeStands _ _ _) ..

/-! ### Power, reset and bring-up -/

theorem acceptReset_time (cause : Nat) (vbat : Bool) (s : State) : (acceptReset cause vbat s).time = {} := rfl

/-- The end of step 1 of bring-up starts device time at 0; until then it stands (R593). -/
theorem afterStep1_time (s : State) : (afterStep1 s).time = s.time ∨ (afterStep1 s).time = {} := by
  unfold afterStep1
  split
  · exact .inl rfl
  · refine .inr ?_
    show (State.each (assignNumbers _) _ applyFuseRepair).time = {}
    rw [(each_only (fun r u h => ((applyFuseRepair_only r u).mono (by decide)).after h) (Only.refl 8 _)).time rfl, (assignNumbers_only _).time rfl]

/-- An outcome's next state is one in which device time stands. -/
def TimeStandsNext (s : State) (o : Host.Outcome State Fault Refusal) : Prop := ∀ t, o = .next t → TimeStands s t

theorem TimeStandsNext.next {s t : State} (h : TimeStands s t) : TimeStandsNext s (.next t) := fun _ e => Host.Outcome.next.inj e ▸ h

/-! ### The commands that write the time unit -/

theorem execRegisterWrite_timeStands (who : Requester) (bytes off : Nat) (value : BitVec 64) (s : State) :
    TimeStandsNext s (execRegisterWrite who bytes off value s) := by
  refine .next (ite_prop (TimeStands s) (fun _ => .refl s) fun _ => ite_prop (TimeStands s) (fun _ => .of_time (State.error_time ..)) fun _ => ?_)
  refine ite_prop (TimeStands s) (fun _ => writeOne_timeStands ..) fun _ => ite_prop (TimeStands s) (fun _ => ?_) (fun _ => .refl s)
  exact (writeOne_timeStands ..).trans (writeOne_timeStands ..)

theorem execTime_timeStands (p : Fin 9) (kind : BitVec 6) (value localTime : BitVec 50) (s : State) :
    TimeStandsNext s (execTime p kind value localTime s) := by
  have hlink : ∀ x, TimeStands s (setLink p x s) := fun x => (setLink_only p x s).timeStands rfl
  refine .next (ite_prop (TimeStands s) (fun _ => .refl s) fun _ => ite_prop (TimeStands s) (fun _ => hlink _) fun _ => ?_)
  refine ite_prop (TimeStands s) (fun _ => ?_) (fun _ => .refl s)
  dsimp only
  split
  · split
    · exact (hlink _).trans (timeOffset_timeStands ..)
    · exact hlink _
  · exact hlink _

theorem execServoSample_timeStands (t1 t2 : BitVec 96) (exchange : Option (BitVec 96 × BitVec 96)) (across : Bool) (s : State) :
    TimeStandsNext s (execServoSample t1 t2 exchange across s) := by
  refine .next (ite_prop (TimeStands s) (fun _ => (servo_timeStands ..).after ?_) (fun _ => .refl s))
  split
  · exact ite_prop (TimeStands s) (fun _ => notePath_timeStands ..) (fun _ => .refl s)
  · exact .refl s

theorem execOffsetInWrite_timeStands (who : Requester) (value : BitVec 64) (s : State) : TimeStandsNext s (execOffsetInWrite who value s) :=
  .next (writeAccess_timeStands
    (fun u => ite_prop (TimeStands u) (fun _ => servo_timeStands ..) (fun _ => .of_time (State.error_time ..))) ..)

theorem execPpsInEdge_timeStands (lowNs highNs : Nat) (edge : BitVec 96) (s : State) :
    TimeStandsNext s (execPpsInEdge lowNs highNs edge s) := by
  have hedge : TimeStands s { s with time := { s.time with ppsIn := some (timeFine edge) } } := ⟨rfl, rfl, fun _ => .inl⟩
  refine .next (ite_prop (TimeStands s) (fun _ => ?_) (fun _ => .refl s))
  exact ite_prop (TimeStands s) (fun _ => (servo_timeStands ..).after hedge) (fun _ => hedge)

theorem execStepForceWrite_timeStands (who : Requester) (value : BitVec 64) (s : State) :
    TimeStandsNext s (execStepForceWrite who value s) := by
  refine .next (writeAccess_timeStands (fun u => ?_) ..)
  exact ⟨rfl, rfl, fun _ => .inl⟩

theorem execFreqSourceLoss_timeStands (average : Int) (s : State) : TimeStandsNext s (execFreqSourceLoss average s) := by
  refine .next (ite_prop (TimeStands s) (fun _ => ?_) (fun _ => .refl s))
  exact .after (.of_time (State.raise_time ..)) ((setYf_timeStands ..).after (.of_time (State.setReg_time ..)))

theorem execFreqSourceValid_timeStands (y : Int) (s : State) : TimeStandsNext s (execFreqSourceValid y s) := by
  refine .next (ite_prop (TimeStands s) (fun _ => ?_) (fun _ => .refl s))
  exact (setYf_timeStands ..).after (.of_time (State.setReg_time ..))

theorem execTimeLoad_timeStands (who : Requester) (seconds : BitVec 48) (s : State) : TimeStandsNext s (execTimeLoad who seconds s) := by
  refine .next (writeAccess_timeStands (fun u => ite_prop (TimeStands u) (fun _ => .of_time (State.error_time ..)) fun _ => ?_) ..)
  exact ⟨rfl, rfl, fun v hv => .inr (Option.some.inj hv ▸ seconds.isLt)⟩

theorem execPpsOutEdge_timeStands (s : State) : TimeStandsNext s (execPpsOutEdge s) := by
  refine .next (ite_prop (TimeStands s) (fun _ => ?_) (fun _ => .refl s))
  exact ⟨rfl, rfl, fun _ => .inl⟩

/-- A command that is not of power, reset or bring-up leaves device time: ten of those that may write the time unit write another part of
it. -/
theorem exec_timeStands {c : Instr} {s : State} (hc : startsTime c = false) : TimeStandsNext s (exec c s) := by
  by_cases ht : (touched c).contains StatePart.time = true
  · cases c
    case powerOn | resetAccept | bringupStart | refclkAPresent | hotWaitEnd => cases hc
    case registerWrite who bytes off value => exact execRegisterWrite_timeStands who bytes off value s
    case time p kind value localTime => exact execTime_timeStands p kind value localTime s
    case servoSample t1 t2 exchange across => exact execServoSample_timeStands t1 t2 exchange across s
    case offsetInWrite who value => exact execOffsetInWrite_timeStands who value s
    case ppsInEdge lowNs highNs edge => exact execPpsInEdge_timeStands lowNs highNs edge s
    case stepForceWrite who value => exact execStepForceWrite_timeStands who value s
    case freqSourceLoss average => exact execFreqSourceLoss_timeStands average s
    case freqSourceValid y => exact execFreqSourceValid_timeStands y s
    case timeLoad who seconds => exact execTimeLoad_timeStands who seconds s
    case ppsOutEdge => exact execPpsOutEdge_timeStands s
    all_goals exact absurd ht Bool.false_ne_true
  · exact fun t h => .of_time (exec_samePart h (p := .time) fun hm => ht (List.contains_iff_mem.mpr hm))

/-- An outcome's next state is one in which the time unit is as before or starts again. -/
def TimeStartsNext (s : State) (o : Host.Outcome State Fault Refusal) : Prop := ∀ t, o = .next t → t.time = s.time ∨ t.time = {}

/-- Such an outcome of a command that has its effect on a condition. -/
theorem TimeStartsNext.ite {p : Prop} [Decidable p] {s t : State} (h : t.time = s.time ∨ t.time = {}) :
    TimeStartsNext s (.next (if p then t else s)) := fun _ e =>
  Host.Outcome.next.inj e ▸ ite_prop (fun u : State => u.time = s.time ∨ u.time = {}) (fun _ => h) (fun _ => .inl rfl)

theorem execPowerOn_timeStarts (vbat : Bool) (s : State) : TimeStartsNext s (execPowerOn vbat s) :=
  .ite (.inr (acceptReset_time 1 vbat s))

theorem execResetAccept_timeStarts (lowNs : Nat) (since : Option Nat) (arb : Bool) (s : State) :
    TimeStartsNext s (execResetAccept lowNs since arb s) := .ite (.inr (acceptReset_time 2 true s))

theorem execBringupStart_timeStarts (env : BringEnv) (s : State) : TimeStartsNext s (execBringupStart env s) := .ite (afterStep1_time _)

theorem execRefclkAPresent_timeStarts (s : State) : TimeStartsNext s (execRefclkAPresent s) := .ite (afterStep1_time _)

theorem execHotWaitEnd_timeStarts (s : State) : TimeStartsNext s (execHotWaitEnd s) := .ite (afterStep1_time _)

/-- Power, reset and bring-up leave device time or start it at 0. -/
theorem exec_timeStarts {c : Instr} {s : State} (hc : startsTime c = true) : TimeStartsNext s (exec c s) := by
  cases c
  case powerOn vbat => exact execPowerOn_timeStarts vbat s
  case resetAccept lowNs since arb => exact execResetAccept_timeStarts lowNs since arb s
  case bringupStart env => exact execBringupStart_timeStarts env s
  case refclkAPresent => exact execRefclkAPresent_timeStarts s
  case hotWaitEnd => exact execHotWaitEnd_timeStarts s
  all_goals exact absurd hc Bool.false_ne_true

/-! ### The tick -/

theorem countForced_time (s : State) : (countForced s).time = s.time := (countForced_only s).time rfl

theorem stalls_only (l : List Nat) (s : State) : Only 16396 s (s.each l countStall) :=
  each_only (fun k u h => (countStall_only k u).after h) (Only.refl 16396 s)

/-- The partitions whose stall a tick counts. -/
def stalledParts (s : State) : List Nat := ((tick s).tier.sluices.map fun e => e.2.part).eraseDups.filter (stalled (tick s))

/-- A tick is the clock's, and the stalls of the nanosecond that it ends. -/
theorem idleTick_eq (s : State) :
    idleTick s = if (tick s).now ≠ s.now ∧ (tick s).working then (tick s).each (stalledParts s) countStall else tick s := rfl

/-- The stalls that a tick counts leave what the clock left but for the counters, the fills and the used free values. -/
theorem idleTick_of_tick (s : State) : Only 16396 (tick s) (idleTick s) := by
  rw [idleTick_eq]
  exact ite_prop (Only 16396 (tick s)) (fun _ => stalls_only ..) (fun _ => Only.refl ..)

/-- The stalls that a tick counts leave device time as the clock left it. -/
theorem idleTick_time (s : State) : (idleTick s).time = (tick s).time := (idleTick_of_tick s).time rfl

theorem tick_dead {s : State} (h : s.alive = false) : tick s = s := by
  unfold tick
  rw [h]
  rfl

theorem tick_load {s : State} {v : Nat} (ha : s.alive = true) (hl : s.time.loadSec = some v) :
    (tick s).time = { s.time with sec := v, sub := 0, loadSec := none, step := 0, forced := false } := by
  unfold tick
  rw [ha, hl, ← countForced_time s]
  rfl

/-- What device time is after a tick without a load, in units. -/
def tickedUnits (s : State) : Int := (timeUnits s : Int) + tickUnits s + s.time.step * (5 * 2 ^ 32)

/-- Units of time in the 2^48 seconds that device time counts (R32). -/
def timeSpan : Nat := 2 ^ 48 * unitsPerSec

theorem timeSpan_pos : 0 < timeSpan := by decide
theorem unitsPerSec_pos : 0 < unitsPerSec := by decide

theorem tick_plain {s : State} (ha : s.alive = true) (hl : s.time.loadSec = none) :
    (tick s).time = { s.time with step := 0, forced := false, sec := (tickedUnits s % (timeSpan : Int)).toNat / unitsPerSec
                                  sub := (tickedUnits s % (timeSpan : Int)).toNat % unitsPerSec } := by
  unfold tick
  rw [ha, hl]
  show (setUnits (tickedUnits s) _).time = _
  unfold setUnits
  dsimp only
  rw [countForced_time]
  rfl

theorem toNat_emod_span (u : Int) : ((u % (timeSpan : Int)).toNat : Int) = u % (timeSpan : Int) :=
  Int.toNat_of_nonneg (Int.emod_nonneg u (Int.ofNat_ne_zero.mpr timeSpan_pos.ne'))

theorem toNat_emod_span_lt (u : Int) : (u % (timeSpan : Int)).toNat < timeSpan := by
  have h := Int.emod_lt_of_pos u (Int.ofNat_lt.mpr timeSpan_pos)
  rw [← toNat_emod_span] at h
  exact Int.ofNat_lt.mp h

theorem idleTick_plain {s : State} (ha : s.alive = true) (hl : s.time.loadSec = none) :
    (timeUnits (idleTick s) : Int) = tickedUnits s % (timeSpan : Int) ∧ (idleTick s).time.step = 0 ∧
      (idleTick s).time.sub < unitsPerSec := by
  have ht := (idleTick_time s).trans (tick_plain ha hl)
  have hunits : timeUnits (idleTick s) = (tickedUnits s % (timeSpan : Int)).toNat := by
    unfold timeUnits
    rw [ht]
    exact Nat.div_add_mod' _ unitsPerSec
  refine ⟨by rw [hunits, toNat_emod_span], by rw [ht], ?_⟩
  rw [ht]
  exact Nat.mod_lt _ unitsPerSec_pos

theorem idleTick_load {s : State} {v : Nat} (ha : s.alive = true) (hl : s.time.loadSec = some v) :
    (idleTick s).time.sec = v ∧ (idleTick s).time.sub = 0 ∧ (idleTick s).time.loadSec = none ∧ (idleTick s).time.step = 0 := by
  rw [idleTick_time, tick_load ha hl]
  exact ⟨rfl, rfl, rfl, rfl⟩

theorem idleTick_dead {s : State} (h : s.alive = false) : idleTick s = s := by
  rw [idleTick_eq, tick_dead h]
  exact if_neg fun hnow => hnow.1 rfl

/-- Settles O16: the commands by what they leave of the time unit, the tick by its units. -/
theorem deviceTimeNeverRunsBackwards : Obligations.DeviceTimeNeverRunsBackwards := by
  unfold Obligations.DeviceTimeNeverRunsBackwards
  refine ⟨fun c s t h => ?_, fun s ha hl hstep hsub hy hspan => ?_⟩
  · cases hc : startsTime c with
    | false => exact .inl ⟨(exec_timeStands hc t h).sec, (exec_timeStands hc t h).sub⟩
    | true => exact (exec_timeStarts hc t h).imp (fun e => by rw [e]; exact ⟨rfl, rfl⟩) (fun e => by rw [e]; exact ⟨rfl, rfl, rfl⟩)
  · have hticked : tickedUnits s = (timeUnits s : Int) + (4 * 2 ^ 48 + 4 * freqY s) := by
      unfold tickedUnits tickUnits
      rw [hstep]
      omega
    have hmod : tickedUnits s % (timeSpan : Int) = tickedUnits s :=
      Int.emod_eq_of_lt (by omega) (by rw [hticked]; exact hspan)
    have hunits := (idleTick_plain ha hl).1
    rw [hmod, hticked] at hunits
    omega

/-! ### The invariant -/

/-- A change that keeps the canonical forms keeps the invariant where device time stays a moment. -/
theorem Invariant.of_only {m : Nat} {s t : State} (hi : Invariant s) (h : Only m s t) (sec : t.time.sec < 2 ^ 48)
    (sub : t.time.sub < unitsPerSec) (loadSec : ∀ v, t.time.loadSec = some v → v < 2 ^ 48) : Invariant t :=
  { regs := h.regsWf hi.regs, mem := h.memWf hi.mem, sec, sub, loadSec }

theorem exec_invariant {c : Instr} {s t : State} (hi : Invariant s) (h : exec c s = .next t) : Invariant t := by
  have keeps := exec_only c s t h
  cases hc : startsTime c with
  | false =>
    have stands := exec_timeStands hc t h
    exact hi.of_only keeps (stands.sec ▸ hi.sec) (stands.sub ▸ hi.sub) fun v hv => (stands.load v hv).elim (hi.loadSec v) id
  | true =>
    rcases exec_timeStarts hc t h with e | e
    · exact hi.of_only keeps (e ▸ hi.sec) (e ▸ hi.sub) (e ▸ hi.loadSec)
    · exact hi.of_only keeps (e ▸ by decide) (e ▸ unitsPerSec_pos) (e ▸ nofun)

theorem idleTick_invariant {s : State} (hi : Invariant s) : Invariant (idleTick s) := by
  cases ha : s.alive with
  | false => rwa [idleTick_dead ha]
  | true =>
    cases hl : s.time.loadSec with
    | some v =>
      obtain ⟨hsec, hsub, hload, -⟩ := idleTick_load ha hl
      exact hi.of_only (idleTick_only s) (hsec ▸ hi.loadSec v hl) (hsub ▸ unitsPerSec_pos) (hload ▸ nofun)
    | none =>
      have ht := (idleTick_time s).trans (tick_plain ha hl)
      refine hi.of_only (idleTick_only s) ?_ (idleTick_plain ha hl).2.2 ?_
      · rw [ht]
        exact Nat.div_lt_of_lt_mul (Nat.mul_comm .. ▸ toNat_emod_span_lt _)
      · rw [ht]
        exact hi.loadSec

/-- Settles O5: a step is a command, which keeps the canonical forms and lets device time stand or start, or a tick, which counts modulo
2^48 seconds. -/
theorem everyStepKeepsInvariant : Obligations.EveryStepKeepsInvariant := by
  unfold Obligations.EveryStepKeepsInvariant
  intro s t hi h
  cases hq : s.pending with
  | nil =>
    rw [step_nil hq] at h
    cases h
    exact idleTick_invariant hi
  | cons c q =>
    rw [step_cons hq] at h
    exact exec_invariant (s := { s with pending := q }) { hi with } h

/-! ### What a tick touches -/

/-- A change of device time, the fills, the used free values and the registers is one of those parts. -/
theorem Only.eq_idle {s t : State} (h : Only 16652 s t) : t = { s with time := t.time, regs := t.regs, tier := t.tier, freeIx := t.freeIx } := by
  obtain ⟨⟩ := t
  simp only [State.mk.injEq, true_and]
  exact ⟨h.pending, h.out rfl, h.latches rfl, h.resets rfl, h.plat rfl, h.fuses rfl, h.cores rfl, h.fabric rfl,
    h.sigcs rfl, h.sems rfl, h.ctxs rfl, h.coding rfl, h.parts rfl, h.radio rfl, h.serve rfl, h.records rfl, h.eth rfl, h.mem rfl,
    h.host rfl, h.mgmt rfl, h.power rfl, h.ras rfl, h.twin rfl, h.salt rfl⟩

/-- A tick's registers are those in which a forced step has been counted. -/
theorem tick_regs {s : State} (ha : s.alive = true) : (tick s).regs = (countForced s).regs := by
  unfold tick
  rw [ha]
  cases s.time.loadSec <;> rfl

theorem countForced_regs_unforced {s : State} (h : s.time.forced = false) : (countForced s).regs = s.regs := by
  unfold countForced
  rw [h]
  rfl

theorem countForced_regs_forced {s : State} (h : s.time.forced = true) : (countForced s).regs = (s.bump timePage Rg.timeStepsCount).regs := by
  unfold countForced
  rw [h]
  rfl

theorem tick_regs_unforced {s : State} (h : s.time.forced = false) : (tick s).regs = s.regs := by
  cases ha : s.alive with
  | false => rw [tick_dead ha]
  | true => rw [tick_regs ha, countForced_regs_unforced h]

theorem tick_regs_forced {s : State} (ha : s.alive = true) (h : s.time.forced = true) :
    (tick s).regs = (s.bump timePage Rg.timeStepsCount).regs := by
  rw [tick_regs ha, countForced_regs_forced h]

/-- The clock changes no field but TIME.STEPS (R493). -/
theorem reg_tick {s : State} {p : Page} {f : RegField} {i : Nat} (h : fieldBit p f i ≠ fieldBit timePage Rg.timeStepsCount 0) :
    (tick s).reg p f i = s.reg p f i := by
  cases ha : s.alive with
  | false => rw [tick_dead ha]
  | true =>
    cases hf : s.time.forced with
    | false => exact reg_of_regs (tick_regs_unforced hf) ..
    | true => exact (reg_of_regs (tick_regs_forced ha hf) ..).trans (State.reg_setReg_other _ h _)

/-- A stall of a partition with a fill in progress counts one nanosecond in the counter of its kind (R270). -/
theorem countStall_counts {k e : Nat} {r : SluiceRun} {h src len : Nat} {s : State} (hr : firstFill s k = some (e, r))
    (hs : sluiceEntry s k r.list r.entry = some (h, src, len)) :
    countStall k s = ((setSluice e { r with unit := fillUnit s k src len r } s).addReg (partPage k) Rg.partStallTimeTime 1
      (stallKind s k (src + 4096 * fillUnit s k src len r))).usedFree 3 := by
  unfold countStall
  rw [hr]
  dsimp only
  rw [hs]

theorem reg_setSluice (e : Nat) (r : SluiceRun) (s : State) (p : Page) (f : RegField) (i : Nat) :
    (setSluice e r s).reg p f i = s.reg p f i := frames (setSluice_only e r s) rfl p f i

/-- A stall changes no field but the stall counters of its partition. -/
theorem reg_countStall {k : Nat} {s : State} {p : Page} {f : RegField} {i : Nat}
    (h : ∀ j, fieldBit p f i ≠ fieldBit (partPage k) Rg.partStallTimeTime j) : (countStall k s).reg p f i = s.reg p f i := by
  unfold countStall
  split
  · rfl
  · split
    · rfl
    · exact (State.reg_setReg_other _ (h _) _).trans (reg_setSluice ..)

theorem stallKind_lt (s : State) (k a : Nat) : stallKind s k a < 5 := by
  unfold stallKind
  split
  · decide
  split
  · decide
  dsimp only
  split
  · split <;> decide
  split
  · split
    · decide
    split <;> decide
  · decide

theorem stallTime_ne_steps (k j : Nat) (hj : j < 5) : fieldBit (partPage k) Rg.partStallTimeTime j ≠ fieldBit timePage Rg.timeStepsCount 0 := by
  intro e
  have hstall := fieldBit_mod (q := partPage k) (g := Rg.partStallTimeTime) (j := j) (by show (0x208 + 8 * j) * 8 + 0 < 32768; omega)
  have hsteps := fieldBit_mod (q := timePage) (g := Rg.timeStepsCount) (j := 0) (by decide)
  rw [e, hsteps] at hstall
  have : (0x8c + 0 * 0) * 8 + 0 = (0x208 + 8 * j) * 8 + 0 := hstall
  omega

theorem stallTime_ne (k : Nat) {i j : Nat} (h : i ≠ j) : fieldBit (partPage k) Rg.partStallTimeTime i ≠ fieldBit (partPage k) Rg.partStallTimeTime j :=
  fieldBit_ne (by show (0x208 + 8 * i) * 8 + 0 ≠ (0x208 + 8 * j) * 8 + 0; omega)

/-- A tick changes no field but TIME.STEPS and the stall counters of stalled partitions. -/
theorem reg_idleTick {s : State} {p : Page} {f : RegField} {i : Nat} (hsteps : fieldBit p f i ≠ fieldBit timePage Rg.timeStepsCount 0)
    (hstall : ∀ k j, stalled (tick s) k = true → fieldBit p f i ≠ fieldBit (partPage k) Rg.partStallTimeTime j) :
    (idleTick s).reg p f i = s.reg p f i := by
  rw [idleTick_eq]
  split
  · refine (each_reg' countStall _ (fun k hk u => reg_countStall fun j => hstall k j ?_) _).trans (reg_tick hsteps)
    exact (List.mem_filter.mp hk).2
  · exact reg_tick hsteps

/-- Where one partition stalls, a tick that ends a nanosecond counts its stall. -/
theorem idleTick_one {s : State} {k : Nat} (hnow : (tick s).now ≠ s.now) (hw : (tick s).working = true) (hk : stalledParts s = [k]) :
    idleTick s = countStall k (tick s) := by
  rw [idleTick_eq, if_pos ⟨hnow, hw⟩, hk]
  rfl

/-- Settles O2: the tick's equation for device time, its frame, and the one stall that it counts. -/
theorem tickAdvancesDeviceTime : Obligations.TickAdvancesDeviceTime := by
  unfold Obligations.TickAdvancesDeviceTime
  intro s hq
  refine ⟨step_nil hq, idleTick_dead, idleTick_plain, fun v => idleTick_load, (idleTick_only s).eq_idle, fun p f i => reg_idleTick,
    fun hnow => ?_, fun k e r h src len hnow hw hk hr hs => ?_, tick_regs_unforced, tick_regs_forced⟩
  · rw [idleTick_eq, if_neg fun h => h.1 hnow]
  · refine ⟨_, stallKind_lt (tick s) k (src + 4096 * fillUnit (tick s) k src len r), ?_, fun i hi hij => ?_⟩ <;>
      rw [idleTick_one hnow hw hk, countStall_counts hr hs]
    · refine (State.reg_setReg_same ..).trans ?_
      rw [reg_setSluice, reg_tick (stallTime_ne_steps k _ (stallKind_lt ..))]
      rfl
    · refine (State.reg_setReg_other _ (stallTime_ne k hij) _).trans ?_
      rw [reg_setSluice, reg_tick (stallTime_ne_steps k i hi)]

end Sys2Proof.Machine
end


section
/-! SUPPORT. Error records (R53, R54): what counting and recording an error leave in the header of a page and beside it. -/

namespace Sys2Proof.Machine

/-! ### Counting -/

theorem reg_countErrors_count (s : State) (p : Page) (n : Nat) :
    (s.countErrors p n).reg p Rg.pageErrorCountCount = min (s.reg p Rg.pageErrorCountCount + n) (2 ^ 32 - 1) := by
  unfold State.countErrors State.bump
  rw [State.reg_raiseBits_other _ (fieldBit_ne (by decide)), State.reg_setReg_same]
  exact Nat.mod_eq_of_lt (Nat.lt_of_le_of_lt (Nat.min_le_right ..) (by decide))

theorem reg_countErrors_other {s : State} {p q : Page} {g : RegField} {j : Nat} (hc : fieldBit q g j ≠ fieldBit p Rg.pageErrorCountCount 0)
    (hi : fieldBit q g j ≠ fieldBit p Rg.pageIntStatus 0) (n : Nat) : (s.countErrors p n).reg q g j = s.reg q g j := by
  unfold State.countErrors State.bump
  rw [State.reg_raiseBits_other _ hi, State.reg_setReg_other _ hc]

/-- Bit 0 of INT_STATUS, ERROR, is set on every page but CORE and SIGC (R51). -/
theorem reg_countErrors_status {p : Page} {n : Nat} (hn : n ≠ 0) (hc : p.kind ≠ .core) (hs : p.kind ≠ .sigc) (s : State) :
    ((s.countErrors p n).reg p Rg.pageIntStatus).testBit 0 = true := by
  unfold State.countErrors
  rw [if_neg (by simp [hn, hc, hs])]
  exact raised_bit _ p 0 (by decide)

/-! ### The record -/

theorem capture_full {s : State} {p : Page} (h : s.reg p Rg.pageErrorFirst0Valid ≠ 0) (code unit detail : Nat) :
    s.capture p code unit detail = s := by
  unfold State.capture
  rw [State.flag, bne_iff_ne.mpr h]
  rfl

/-- The record that an error leaves where the page had none. -/
theorem capture_empty {s : State} {p : Page} (h : s.reg p Rg.pageErrorFirst0Valid = 0) (code unit detail : Nat) :
    s.capture p code unit detail = (s.setReg p Rg.pageErrorFirst0Code code |>.setReg p Rg.pageErrorFirst0Unit unit
      |>.setReg p Rg.pageErrorFirst0Valid 1 |>.setReg p Rg.pageErrorFirst1Detail detail |>.setReg p Rg.pageErrorFirst2When s.subNs) := by
  unfold State.capture
  rw [State.flag, h]
  rfl

theorem reg_capture_empty {s : State} {p : Page} (h : s.reg p Rg.pageErrorFirst0Valid = 0) (code unit detail : Nat) :
    (s.capture p code unit detail).reg p Rg.pageErrorFirst0Valid = 1 ∧
    (s.capture p code unit detail).reg p Rg.pageErrorFirst0Code = code % 2 ^ 16 ∧
    (s.capture p code unit detail).reg p Rg.pageErrorFirst0Unit = unit % 2 ^ 15 ∧
    (s.capture p code unit detail).reg p Rg.pageErrorFirst1Detail = detail % 2 ^ 32 ∧
    (s.capture p code unit detail).reg p Rg.pageErrorFirst2When = s.subNs % 2 ^ 32 := by
  rw [capture_empty h]
  refine ⟨?_, ?_, ?_, ?_, State.reg_setReg_same ..⟩
  · iterate 2 rw [State.reg_setReg_other _ (fieldBit_ne (by decide))]
    exact State.reg_setReg_same ..
  · iterate 4 rw [State.reg_setReg_other _ (fieldBit_ne (by decide))]
    exact State.reg_setReg_same ..
  · iterate 3 rw [State.reg_setReg_other _ (fieldBit_ne (by decide))]
    exact State.reg_setReg_same ..
  · rw [State.reg_setReg_other _ (fieldBit_ne (by decide))]
    exact State.reg_setReg_same ..

theorem reg_capture_other {s : State} {p q : Page} {g : RegField} {j : Nat}
    (h : fieldBit q g j < (pageBase p + 0x034) * 8 ∨ (pageBase p + 0x040) * 8 ≤ fieldBit q g j) (code unit detail : Nat) :
    (s.capture p code unit detail).reg q g j = s.reg q g j := by
  have hne : ∀ f : RegField, f.stride = 0 → 0x034 * 8 ≤ f.off * 8 + f.lo → f.off * 8 + f.lo < 0x040 * 8 → fieldBit q g j ≠ fieldBit p f 0 := by
    intro f hs hlo hhi
    rw [fieldBit_split p, hs]
    omega
  by_cases hv : s.reg p Rg.pageErrorFirst0Valid = 0
  · rw [capture_empty hv, State.reg_setReg_other _ (hne _ rfl (by decide) (by decide)), State.reg_setReg_other _ (hne _ rfl (by decide) (by decide)),
      State.reg_setReg_other _ (hne _ rfl (by decide) (by decide)), State.reg_setReg_other _ (hne _ rfl (by decide) (by decide)),
      State.reg_setReg_other _ (hne _ rfl (by decide) (by decide))]
  · rw [capture_full hv]

theorem reg_error_count (s : State) (p : Page) (code unit detail : Nat) :
    (s.error p code unit detail).reg p Rg.pageErrorCountCount = min (s.reg p Rg.pageErrorCountCount + 1) (2 ^ 32 - 1) := by
  unfold State.error
  rw [reg_countErrors_count, reg_capture_other (.inl _)]
  rw [fieldBit_split]
  show pageBase p * 8 + 384 < _
  omega

/-- The record stands as the capture leaves it: counting does not reach it. -/
theorem reg_error_record (s : State) (p : Page) (code unit detail : Nat) :
    (s.error p code unit detail).reg p Rg.pageErrorFirst0Valid = (s.capture p code unit detail).reg p Rg.pageErrorFirst0Valid ∧
    (s.error p code unit detail).reg p Rg.pageErrorFirst0Code = (s.capture p code unit detail).reg p Rg.pageErrorFirst0Code ∧
    (s.error p code unit detail).reg p Rg.pageErrorFirst0Unit = (s.capture p code unit detail).reg p Rg.pageErrorFirst0Unit ∧
    (s.error p code unit detail).reg p Rg.pageErrorFirst1Detail = (s.capture p code unit detail).reg p Rg.pageErrorFirst1Detail ∧
    (s.error p code unit detail).reg p Rg.pageErrorFirst2When = (s.capture p code unit detail).reg p Rg.pageErrorFirst2When := by
  unfold State.error
  refine ⟨?_, ?_, ?_, ?_, ?_⟩ <;> exact reg_countErrors_other (fieldBit_ne (by decide)) (fieldBit_ne (by decide)) 1

theorem reg_error_outside {s : State} {p q : Page} {g : RegField} {j : Nat}
    (h : fieldBit q g j < (pageBase p + 0x020) * 8 ∨ (pageBase p + 0x040) * 8 ≤ fieldBit q g j) (code unit detail : Nat) :
    (s.error p code unit detail).reg q g j = s.reg q g j := by
  unfold State.error
  have hcount : fieldBit p Rg.pageErrorCountCount 0 = pageBase p * 8 + 384 := fieldBit_split ..
  have hstatus : fieldBit p Rg.pageIntStatus 0 = pageBase p * 8 + 256 := fieldBit_split ..
  rw [reg_countErrors_other (by omega) (by omega), reg_capture_other (by omega)]

/-- A change of the registers, what is sent and the host interface is one of those parts. -/
theorem Only.eq_error {s t : State} (h : Only 4194314 s t) : t = { s with regs := t.regs, out := t.out, host := t.host } := by
  obtain ⟨⟩ := t
  simp only [State.mk.injEq, true_and]
  exact ⟨h.pending, h.freeIx rfl, h.latches rfl, h.resets rfl, h.plat rfl, h.fuses rfl, h.time rfl, h.cores rfl, h.fabric rfl,
    h.sigcs rfl, h.sems rfl, h.ctxs rfl, h.tier rfl, h.coding rfl, h.parts rfl, h.radio rfl, h.serve rfl, h.records rfl, h.eth rfl, h.mem rfl,
    h.mgmt rfl, h.power rfl, h.ras rfl, h.twin rfl, h.salt rfl⟩

/-- An interrupt changes nothing of the host interface but the pending vectors. -/
theorem raiseBits_host (s : State) (p : Page) (bits : Nat) :
    (s.raiseBits p bits).host = { s.host with vectorPending := (s.raiseBits p bits).host.vectorPending } := rfl

theorem error_host (s : State) (p : Page) (code unit detail : Nat) :
    (s.error p code unit detail).host = { s.host with vectorPending := (s.error p code unit detail).host.vectorPending } :=
  raiseBits_host ((s.capture p code unit detail).bump p Rg.pageErrorCountCount 1) p _

/-- Recording an error changes the registers, what is sent and the pending vectors alone. -/
theorem error_parts (s : State) (p : Page) (code unit detail : Nat) : s.error p code unit detail =
    { s with regs := (s.error p code unit detail).regs, out := (s.error p code unit detail).out
             host := { s.host with vectorPending := (s.error p code unit detail).host.vectorPending } } := by
  rw [← error_host]
  exact (State.error_only s p code unit detail).eq_error

/-! ### Emptying the record -/

theorem apart_symm {f g : RegField} (h : apart f g = true) : apart g f = true := by
  simp only [apart, Bool.or_eq_true, Bool.and_eq_true, decide_eq_true_eq, beq_iff_eq, bne_iff_ne] at h ⊢
  rcases h with (h | h) | ⟨hs, h⟩
  · exact .inl (.inr h)
  · exact .inl (.inl h)
  · exact .inr ⟨hs.symm, hs ▸ h.symm⟩

/-- Two fields of a page's table are apart. -/
theorem apart_of_ne {k : PageKind} {f g : RegField} (hf : f ∈ fieldsOf k) (hg : g ∈ fieldsOf k) (h : f ≠ g) : apart f g = true := by
  have : Std.Symm fun f g => apart f g = true := ⟨fun _ _ => apart_symm⟩
  exact (fieldsOf_apart k).forall hf hg h

/-- The fields of the common header stand in every page's table (R42). -/
theorem fieldsOf_header {f : RegField} (h : f ∈ pageFields) (k : PageKind) : f ∈ fieldsOf k := List.mem_append_left _ h

/-- A page's record with its fields but VALID at 0. -/
def emptyRecord (p : Page) (s : State) : State :=
  s.setReg p Rg.pageErrorFirst0Code 0 |>.setReg p Rg.pageErrorFirst0Unit 0 |>.setReg p Rg.pageErrorFirst1Detail 0
    |>.setReg p Rg.pageErrorFirst2When 0

theorem reg_emptyRecord (p : Page) (s : State) : (emptyRecord p s).reg p Rg.pageErrorFirst0Code = 0 ∧
    (emptyRecord p s).reg p Rg.pageErrorFirst0Unit = 0 ∧ (emptyRecord p s).reg p Rg.pageErrorFirst1Detail = 0 ∧
    (emptyRecord p s).reg p Rg.pageErrorFirst2When = 0 ∧
    (emptyRecord p s).reg p Rg.pageErrorCountCount = s.reg p Rg.pageErrorCountCount := by
  unfold emptyRecord
  refine ⟨?_, ?_, ?_, State.reg_setReg_same .., ?_⟩
  · iterate 3 rw [State.reg_setReg_other _ (fieldBit_ne (by decide))]
    exact State.reg_setReg_same ..
  · iterate 2 rw [State.reg_setReg_other _ (fieldBit_ne (by decide))]
    exact State.reg_setReg_same ..
  · rw [State.reg_setReg_other _ (fieldBit_ne (by decide))]
    exact State.reg_setReg_same ..
  · iterate 4 rw [State.reg_setReg_other _ (fieldBit_ne (by decide))]

/-- A write of the register of VALID leaves ERROR_COUNT, which stands in another. -/
theorem reg_writeField_count {p : Page} {w : Nat} {f : RegField} (hf : f ∈ fieldsOf p.kind) (s : State) :
    (writeField p 0x034 w f s).reg p Rg.pageErrorCountCount = s.reg p Rg.pageErrorCountCount := by
  by_cases h : f = Rg.pageErrorCountCount
  · rw [h]
    rfl
  · refine reg_writeField_other (fun i hi => (fieldBit_ne_of_apart ?_ (fieldIndexAt_lt hi) (Nat.zero_lt_one) p).symm) s
    exact apart_of_ne hf (fieldsOf_header (by decide) _) h

/-- A write of 1 to VALID while it reads 1 empties the record (R53): VALID has no command of its own and is never held. -/
theorem writePage_valid {p : Page} {w : Nat} {s : State} (hw : w.testBit 31 = true) (hv : s.flag p Rg.pageErrorFirst0Valid = true) :
    ∃ u, writePage p 0x034 w s = emptyRecord p u ∧ u.reg p Rg.pageErrorCountCount = s.reg p Rg.pageErrorCountCount := by
  have hown : ownCommand p 0x034 = false := by
    obtain ⟨k, n⟩ := p
    cases k <;> rfl
  have hheld : heldNow s p 0x034 w = false := by
    obtain ⟨k, n⟩ := p
    cases k <;> simp [heldNow]
  have hother : ¬(p.kind = .time ∧ 0x034 = 0x040) ∧ ¬(p.kind = .host ∧ (0x034 = 0x06C ∨ 0x034 = 0x070 ∨ 0x034 = 0x074)) := by simp
  have hafter : ∀ u, afterWrite p 0x034 w s u = emptyRecord p u := fun u => by
    unfold afterWrite
    rw [if_neg (by decide), if_pos ⟨rfl, hw, hv⟩]
    rfl
  unfold writePage
  rw [hown, hheld, if_neg (by decide), if_neg hother.1, if_neg hother.2]
  exact ⟨_, hafter _, each_reg' _ _ (fun f hf u => reg_writeField_count (List.mem_filter.mp hf).1 u) s⟩

/-- A narrow REGISTER_WRITE records 0x0123 on the HOST page (R39). -/
theorem exec_registerWrite_narrow {who : Requester} {bytes off : Nat} {value : BitVec 64} {s : State} (hb : bytes < 4)
    (hup : pathUp s who = true) : exec (.registerWrite who bytes off value) s = .next (s.error hostPage 0x0123 (Requester.fnNat who) off) := by
  show Host.Outcome.next _ = _
  rw [hup, if_neg (by simp), if_pos (.inl hb)]

/-- Settles O11: counting, capturing and emptying, each by its own lemmas. -/
theorem errorsAreCountedAndTheFirstKept : Obligations.ErrorsAreCountedAndTheFirstKept := by
  unfold Obligations.ErrorsAreCountedAndTheFirstKept
  refine ⟨fun s p code unit detail => ⟨_, rfl, error_parts .., reg_error_count .., fun hc hs => reg_countErrors_status Nat.one_ne_zero hc hs _, fun hv => ?_, fun hv => ?_,
    fun q f i h => reg_error_outside h ..⟩, fun who bytes off value s hb hup => ?_, fun who p off value s hp ho ht hw hv => ?_⟩
  · obtain ⟨hvalid, hcode, hunit, hdetail, hwhen⟩ := reg_error_record s p code unit detail
    rw [hvalid, hcode, hunit, hdetail, hwhen]
    exact reg_capture_empty hv code unit detail
  · obtain ⟨hvalid, hcode, hunit, hdetail, hwhen⟩ := reg_error_record s p code unit detail
    rw [hvalid, hcode, hunit, hdetail, hwhen, capture_full hv]
    exact ⟨rfl, rfl, rfl, rfl, rfl⟩
  · exact exec_registerWrite_narrow hb hup
  · have h31 : (value.toNat % 2 ^ 32).testBit 31 = true := by
      rw [Nat.testBit_mod_two_pow]
      exact hw
    obtain ⟨u, hu, hcount⟩ := writePage_valid h31 hv
    obtain ⟨hcode, hunit, hdetail, hwhen, hkeep⟩ := reg_emptyRecord p u
    refine ⟨_, exec_registerWrite_taken hp (by omega) (ho ▸ ht), ?_⟩
    rw [ho, hu]
    exact ⟨hcode, hunit, hdetail, hwhen, hkeep.trans hcount⟩

end Sys2Proof.Machine
end

section
/-! SUPPORT. Hidden pages (R40): which pages a function sees, and what an access to one that it does not see leaves. -/

namespace Sys2Proof.Machine

/-- The physical function sees every page. -/
theorem canSee_physical (s : State) (p : Page) : canSee s (.function 0) p = true := rfl

/-- The pages that a virtual function sees (R40, R355, R357). -/
theorem canSee_virtual (s : State) {fn : Fin 256} (p : Page) (h : fn ≠ 0) : canSee s (.function fn) p = true ↔
    (p.kind = .part ∧ functionOf s p.inst = fn.val) ∨
    (p.kind = .core ∧ ((∃ k, (s.core p.inst).lentTo = some k ∧ functionOf s k = fn.val) ∨
      ((s.core p.inst).lentTo = none ∧ ∃ k, ownerOfCore s p.inst = some k ∧ functionOf s k = fn.val))) ∨
    (p.kind = .sigc ∧ ∃ k, ownerOfSigc s p.inst = some k ∧ functionOf s k = fn.val) := by
  have hfn : (fn.val == 0) = false := beq_eq_false_iff_ne.mpr fun e => h (Fin.ext e)
  obtain ⟨kind, n⟩ := p
  show functionSees s fn.val ⟨kind, n⟩ = true ↔ _
  unfold functionSees
  rw [hfn, Bool.false_or]
  cases kind
  case part => simp
  case core =>
    cases hl : (s.core n).lentTo with
    | some k => simp
    | none => cases ownerOfCore s n <;> simp
  case sigc => cases ownerOfSigc s n <;> simp
  all_goals simp

/-- A write to a hidden page is recorded as 0x0124 with the function and the window offset (R40). -/
theorem writeAccess_hidden {who : Requester} {p : Page} {off : Nat} {s : State} (hup : pathUp s who = true) (hsee : canSee s who p = false)
    (f : State → State) : writeAccess who p off f s = s.error hostPage 0x0124 (Requester.fnNat who) (pageBase p + off) := by
  unfold writeAccess
  rw [hup, hsee, if_neg (by decide), if_pos (by decide)]

/-- A read of a hidden page is recorded in the same way and reads 0. -/
theorem readOne_hidden {who : Requester} {p : Page} {off : Nat} {s : State} (hp : pageAt off = some p) (hsee : canSee s who p = false)
    (event : Option (BitVec 32)) : readOne who off event s = (s.error hostPage 0x0124 (Requester.fnNat who) off, 0) := by
  unfold readOne
  rw [hp]
  dsimp only
  rw [hsee, if_pos (by decide)]

/-- A 32-bit write of the control window is a write access of the page at its offset. -/
theorem exec_registerWrite_access {who : Requester} {off : Nat} {value : BitVec 64} {s : State} {p : Page} (hp : pageAt off = some p)
    (ha : off % 4 = 0) : exec (.registerWrite who 4 off value) s =
      .next (writeAccess who p (off % 0x1000) (writePage p (off % 0x1000) (value.toNat % 2 ^ 32)) s) := by
  show Host.Outcome.next _ = _
  cases hup : pathUp s who with
  | false =>
    unfold writeAccess
    rw [hup, if_pos (by decide), if_pos (by decide)]
  | true => rw [if_neg (by decide), if_neg (by simp [ha]), if_pos rfl, writeOne, hp]

/-- What an action of CTX_CONTROL does once its write is taken (R359). -/
def ctxTaken (k c : Nat) (f : State → State ⊕ Nat) (s : State) : State :=
  if !s.flag (partPage k) Rg.partCtxResultDone then s.error (partPage k) 0x060B 0 c
  else
    match f s with
    | .inl t => ctxDone k t
    | .inr code => ((s.error (partPage k) code 0 c).setReg (partPage k) Rg.partCtxResultCode code).setReg (partPage k) Rg.partCtxResultDone 1

theorem ctxAction_access (who : Requester) (k c : Nat) (f : State → State ⊕ Nat) (s : State) :
    ctxAction who k c f s = writeAccess who (partPage k) 0x110 (ctxTaken k c f) s := rfl

/-- Every command that is a write of a register is a write access of the register that it is addressed to (R39 to R41). -/
theorem exec_target {c : Instr} {who : Requester} {p : Page} {off : Nat} (h : target c = some (who, p, off)) (hp : pageOk p = true) (s : State) :
    ∃ f, exec c s = .next (writeAccess who p off f s) := by
  cases c
  case registerWrite w bytes o value =>
    simp only [target, Option.ite_none_right_eq_some, Option.map_eq_some_iff, Prod.mk.injEq] at h
    obtain ⟨⟨rfl, ha⟩, q, hq, rfl, rfl, rfl⟩ := h
    exact ⟨_, exec_registerWrite_access hq ha⟩
  case softReset w page value =>
    simp only [target, Option.ite_none_right_eq_some, Option.some.injEq, Prod.mk.injEq] at h
    obtain ⟨hbit, rfl, rfl, rfl⟩ := h
    exact ⟨_, congrArg Host.Outcome.next (if_neg (by rw [hp, hbit]; decide))⟩
  case intForceWrite | enableWrite | freezeWrite =>
    cases h
    exact ⟨_, congrArg Host.Outcome.next (if_neg (by rw [hp]; decide))⟩
  case ctxActivate | ctxSuspend | ctxResume | ctxDestroy =>
    cases h
    exact ⟨_, congrArg Host.Outcome.next (ctxAction_access ..)⟩
  case skewProbeStart | rowRepairWrite | colRepairWrite | trapResume | trapSkip | trapAbort | sigcEnable | doorbellRing | sigcTrapResume |
      sigcTrapSkip | sigcTrapAbort | bufferWaysWrite | partEnable | resizeStart | allotWrite |
      routeWrite | adminQueueEnable | retrainWrite | quenchWrite | groupModeWrite | stepForceWrite | offsetInWrite | nodeRead | nodeWrite |
      policerRead | policerWrite | strictWrite | flipArm | coreRetireWrite | pprStart | coreFenceWrite | drainWrite | admitWrite | recoveryGo |
      svnCommit | ownerCommit | timeLoad =>
    cases h
    exact ⟨_, rfl⟩
  all_goals cases h

/-- Settles O9: a write of a register is a write access, and a hidden page answers both accesses with its record alone. -/
theorem hiddenPagesTakeNothing : Obligations.HiddenPagesTakeNothing := by
  unfold Obligations.HiddenPagesTakeNothing
  refine ⟨canSee_physical, fun s fn p => canSee_virtual s p, fun c fn p off s ht hp hup hsee => ?_, fun fn p off event s hp ha hup hsee => ?_⟩
  · obtain ⟨f, hf⟩ := exec_target ht hp s
    exact ⟨_, hf.trans (congrArg _ (writeAccess_hidden hup hsee f)), rfl, reg_error_count ..⟩
  · refine ⟨_, ?_, rfl, reg_error_count ..⟩
    show Host.Outcome.next (readWindow _ 4 off event s) = _
    have hzero : toBytes 4 0 = [0, 0, 0, 0] := by decide
    rw [readWindow_word hup ha, readOne_hidden hp hsee, hzero]
    rfl

end Sys2Proof.Machine
end


section
/-! SUPPORT. SOFT_RESET of a page (R47, R598): what it leaves of the page's registers. -/

namespace Sys2Proof.Machine

/-! ### Registers from 0x040 up -/

theorem tabFind_filter {α : Type} (keep : Nat → Bool) (k : Nat) (m : Table α) :
    tabFind k (m.filter fun e => keep e.1) = if keep k = true then tabFind k m else none := by
  induction m with
  | nil => simp [tabFind]
  | cons e m ih =>
    obtain ⟨j, v⟩ := e
    by_cases hj : j = k
    · subst hj
      cases hk : keep j <;> simp [tabFind, hk, ih]
    · cases hk : keep j <;> simp [tabFind, hk, hj, ih]

/-- A position that SOFT_RESET of a page resets: of the page, from 0x040 up. -/
def resetsBit (p : Page) (k : Nat) : Bool := decide ((pageBase p + 0x40) * 8 ≤ k) && decide (k < (pageBase p + 0x1000) * 8)

/-- The register file without the entries of a page from 0x040 up. -/
def clearedRegs (p : Page) (s : State) : State :=
  { s with regs := s.regs.filter fun e => !resetsBit p e.1, latches := s.latches.filter fun e => !resetsBit p (e.1 * 8) }

theorem resetRegs_eq (p : Page) (s : State) : resetRegs p s =
    (clearedRegs p s).each ((keptFields p).map fun f => (f, s.reg p f)) fun e t => t.setReg p e.1 e.2 := rfl

theorem reg_clearedRegs (p q : Page) (f : RegField) (i : Nat) (s : State) :
    (clearedRegs p s).reg q f i = if resetsBit p (fieldBit q f i) = true then resetAt q f i else s.reg q f i := by
  unfold State.reg fieldGet tabGet clearedRegs
  dsimp only
  rw [tabFind_filter fun k => !resetsBit p k]
  cases resetsBit p (fieldBit q f i) <;> rfl

theorem keptFields_spec {p : Page} {f : RegField} (h : f ∈ keptFields p) : f ∈ fieldsOf p.kind ∧ 0x040 ≤ f.off ∧ 0 < f.count := by
  obtain ⟨k, n⟩ := p
  unfold keptFields at h
  cases k
  case bulk =>
    have hbulk : ∀ f ∈ [Rg.bulkPortStatusInSet, Rg.bulkCapacityUsed, Rg.bulkCapacityModule],
        f ∈ fieldsOf .bulk ∧ 0x040 ≤ f.off ∧ 0 < f.count := by decide
    exact hbulk f h
  case ethp =>
    have hethp : ∀ f ∈ [Rg.ethpConfigGroupMode], f ∈ fieldsOf .ethp ∧ 0x040 ≤ f.off ∧ 0 < f.count := by decide
    dsimp only at h
    split at h
    · cases h
    · exact hethp f h
  all_goals cases h

/-- The header's fields below 0x040 stand, whatever the page keeps. -/
theorem reg_resetRegs_header {p : Page} {f : RegField} (hs : f.stride = 0) (h : f.off * 8 + f.lo < 512) (s : State) :
    (resetRegs p s).reg p f = s.reg p f := by
  have hbit : fieldBit p f 0 = pageBase p * 8 + (f.off * 8 + f.lo) := by rw [fieldBit_split, hs, Nat.zero_mul, Nat.add_zero]
  rw [resetRegs_eq, each_reg', reg_clearedRegs, if_neg]
  · simp only [resetsBit, Bool.and_eq_true, decide_eq_true_eq, hbit]
    omega
  · intro e he u
    obtain ⟨g, hg, rfl⟩ := List.mem_map.mp he
    have hoff := (keptFields_spec hg).2.1
    refine State.reg_setReg_other _ ?_ _
    rw [hbit, fieldBit_split]
    show _ ≠ _ + ((g.off + g.stride * 0) * 8 + g.lo)
    omega

/-- A field of the page from 0x040 up that the page does not keep goes to its reset value. -/
theorem reg_resetRegs_block {p : Page} {f : RegField} {i : Nat} (hf : f ∈ fieldsOf p.kind) (hi : i < f.count) (hoff : 0x040 ≤ f.off)
    (hk : f ∉ keptFields p) (s : State) : (resetRegs p s).reg p f i = resetAt p f i := by
  have hlast : lastBit f < 0x8000 := by
    have := fieldsOf_fits _ f hf
    simp only [fits, Bool.and_eq_true, decide_eq_true_eq] at this
    exact this.2
  have hle := firstBit_le_last hi
  rw [resetRegs_eq, each_reg', reg_clearedRegs, if_pos]
  · simp only [resetsBit, Bool.and_eq_true, decide_eq_true_eq, fieldBit_eq]
    unfold firstBit at *
    omega
  · intro e he u
    obtain ⟨g, hg, rfl⟩ := List.mem_map.mp he
    obtain ⟨hgf, -, hg0⟩ := keptFields_spec hg
    exact State.reg_setReg_other _ (fieldBit_ne_of_apart (apart_of_ne hf hgf (ne_of_mem_of_not_mem hg hk).symm) hi hg0 p) _

/-! ### The header -/

/-- The header of a page under an accepted SOFT_RESET (R16, R47). -/
def resetHeader (p : Page) (s : State) : State :=
  s.setReg p Rg.pageIntStatus 0 |>.setReg p Rg.pageIntEnable 0 |>.setReg p Rg.pageControlEnable 0 |>.setReg p Rg.pageControlFreeze 0
    |>.setReg p Rg.pageStatusEnabled 0 |>.setReg p Rg.pageStatusFrozen 0
    |>.setReg p Rg.pageControlSoftReset 1 |>.setReg p Rg.pageStatusResetBusy 1

theorem beginReset_eq (p : Page) (s : State) : beginReset p s = afterReset p (resetHeader p (resetRegs p (discardWork p s))) := rfl

theorem reg_resetHeader (p : Page) (s : State) : (resetHeader p s).reg p Rg.pageControlSoftReset = 1 ∧
    (resetHeader p s).reg p Rg.pageStatusResetBusy = 1 ∧ (resetHeader p s).reg p Rg.pageControlEnable = 0 ∧
    (resetHeader p s).reg p Rg.pageControlFreeze = 0 ∧ (resetHeader p s).reg p Rg.pageIntStatus = 0 := by
  unfold resetHeader
  refine ⟨?_, State.reg_setReg_same .., ?_, ?_, ?_⟩
  · rw [State.reg_setReg_other _ (fieldBit_ne (by decide))]
    exact State.reg_setReg_same ..
  · iterate 5 rw [State.reg_setReg_other _ (fieldBit_ne (by decide))]
    exact State.reg_setReg_same ..
  · iterate 4 rw [State.reg_setReg_other _ (fieldBit_ne (by decide))]
    exact State.reg_setReg_same ..
  · iterate 7 rw [State.reg_setReg_other _ (fieldBit_ne (by decide))]
    exact State.reg_setReg_same ..

/-- Every field from ERROR_COUNT up stands under the header's reset. -/
theorem reg_resetHeader_other {p : Page} {f : RegField} {i : Nat} (h : 0x030 ≤ f.off) (s : State) :
    (resetHeader p s).reg p f i = s.reg p f i := by
  have hne : ∀ g : RegField, g.stride = 0 → g.off * 8 + g.lo < 384 → fieldBit p f i ≠ fieldBit p g 0 := fun g hs hg => by
    refine fieldBit_ne ?_
    rw [hs]
    omega
  unfold resetHeader
  rw [State.reg_setReg_other _ (hne _ rfl (by decide)), State.reg_setReg_other _ (hne _ rfl (by decide)),
    State.reg_setReg_other _ (hne _ rfl (by decide)), State.reg_setReg_other _ (hne _ rfl (by decide)),
    State.reg_setReg_other _ (hne _ rfl (by decide)), State.reg_setReg_other _ (hne _ rfl (by decide)),
    State.reg_setReg_other _ (hne _ rfl (by decide)), State.reg_setReg_other _ (hne _ rfl (by decide))]

/-! ### After the reset -/

/-- Kinds of pages on which nothing follows the reset values but, on a core's, the repairs of the fuse map (R124). -/
def plainAfter : PageKind → Bool
  | .core | .sigc | .code | .msid | .hbmc | .aqzl | .ethp | .shap | .polc => true
  | _ => false

/-- What follows reaches a core's two repair registers alone. -/
theorem reg_afterReset {p q : Page} {g : RegField} {j : Nat} (hp : plainAfter p.kind = true)
    (hg : p.kind = .core → (g.off + g.stride * j) * 8 + g.lo < 4224 ∨
      (4480 ≤ (g.off + g.stride * j) * 8 + g.lo ∧ (g.off + g.stride * j) * 8 + g.lo < 32768)) (s : State) :
    (afterReset p s).reg q g j = s.reg q g j := by
  obtain ⟨k, n⟩ := p
  cases k
  case core => exact freshRepairs_reg (hg rfl) n s
  case sigc | code | msid | hbmc | aqzl | ethp | shap | polc => rfl
  all_goals cases hp

/-- A field of a core's page outside the repair registers begins and ends outside them. -/
theorem coreField_outside_repairs {f : RegField} (hf : f ∈ fieldsOf .core) (h : ¬(0x210 ≤ f.off ∧ f.off < 0x230)) :
    lastBit f < 4224 ∨ 4480 ≤ firstBit f := by
  have hall : ∀ f ∈ fieldsOf .core, ¬(0x210 ≤ f.off ∧ f.off < 0x230) → lastBit f < 4224 ∨ 4480 ≤ firstBit f := by decide +kernel
  exact hall f hf h

/-! ### The work that is discarded -/

/-- An element of a field in the registers of the error record, 0x030 to 0x03F of its page. -/
def inRecord (f : RegField) (i : Nat) : Prop := 384 ≤ (f.off + f.stride * i) * 8 + f.lo ∧ (f.off + f.stride * i) * 8 + f.lo < 512

/-- Fields at different positions of their pages begin at different bits, whichever the pages are. -/
theorem fieldBit_ne_position {p q : Page} {f g : RegField} {i j : Nat} (hf : (f.off + f.stride * i) * 8 + f.lo < 32768)
    (hg : (g.off + g.stride * j) * 8 + g.lo < 32768) (h : (f.off + f.stride * i) * 8 + f.lo ≠ (g.off + g.stride * j) * 8 + g.lo) :
    fieldBit p f i ≠ fieldBit q g j := fun e => h (by rw [← fieldBit_mod (q := p) hf, ← fieldBit_mod (q := q) hg, e])

theorem fieldBit_ne_record {p q : Page} {f g : RegField} {i j : Nat} (hf : inRecord f i)
    (hg : (g.off + g.stride * j) * 8 + g.lo < 384 ∨ (512 ≤ (g.off + g.stride * j) * 8 + g.lo ∧ (g.off + g.stride * j) * 8 + g.lo < 32768)) :
    fieldBit p f i ≠ fieldBit q g j := by
  unfold inRecord at hf
  exact fieldBit_ne_position (by omega) (by omega) (by omega)

theorem reg_noteTraining (s : State) (q : Page) (f : RegField) (i : Nat) : (noteTraining s).reg q f i = s.reg q f i := reg_of_regs rfl ..

theorem reg_linkDrops_record {q : Page} {f : RegField} {i : Nat} (hf : inRecord f i) (n : Nat) (s : State) :
    (linkDrops n s).reg q f i = s.reg q f i := by
  unfold linkDrops
  refine ite_prop (fun u : State => u.reg q f i = s.reg q f i) (fun _ => ?_) (fun _ => rfl)
  rw [reg_noteTraining, State.reg_raise_other _ (fieldBit_ne_record hf (.inl (by decide))),
    State.reg_setReg_other _ (fieldBit_ne_record hf (.inr (by decide)))]

/-- The reset of an Ethernet port drops its link and counts the frames that it discards, and records no error. -/
theorem reg_resetPort_record {q : Page} {f : RegField} {i : Nat} (hf : inRecord f i) (n : Nat) (s : State) :
    (resetPort n s).reg q f i = s.reg q f i := by
  have hport : ∀ u : State, (u.setEthPort n {}).reg q f i = u.reg q f i := fun u => reg_of_regs rfl ..
  refine (hport _).trans ?_
  rw [each_reg, each_reg, reg_linkDrops_record hf]
  · exact fun x u => reg_of_regs rfl ..
  · intro key u
    refine ite_prop (fun v : State => v.reg q f i = u.reg q f i) (fun _ => rfl) (fun _ => ?_)
    exact (State.reg_setReg_other _ (fieldBit_ne_record hf (.inr (by decide))) _).trans
      (State.reg_setReg_other _ (fieldBit_ne_record hf (.inr (by decide))) _)

/-- What a block of plainReset discards holds no error record. -/
theorem reg_discardWork_record {p : Page} (hp : plainReset p = true) {f : RegField} {i : Nat} (hf : inRecord f i) (s : State) :
    (discardWork p s).reg p f i = s.reg p f i := by
  obtain ⟨k, n⟩ := p
  cases k
  case core | msid | shap | polc => rfl
  case sigc => exact ite_prop (fun u : State => u.reg _ f i = s.reg _ f i) (fun _ => frames (endProgram_only n s) rfl ..) (fun _ => rfl)
  case hbmc => exact State.reg_setReg_other _ (fieldBit_ne_record hf (.inr (by decide))) _
  case ethp => exact reg_resetPort_record hf n s
  all_goals cases hp

/-- A register of the error record stands under an accepted SOFT_RESET (R47). -/
theorem reg_beginReset_record {p : Page} (hp : plainReset p = true) (hk : plainAfter p.kind = true) {f : RegField} (hs : f.stride = 0)
    (hlo : 0x030 ≤ f.off) (hhi : f.off * 8 + f.lo < 512) (s : State) : (beginReset p s).reg p f = s.reg p f := by
  have hrec : inRecord f 0 := by
    unfold inRecord
    omega
  rw [beginReset_eq, reg_afterReset hk (fun _ => .inl (by omega)), reg_resetHeader_other hlo, reg_resetRegs_header hs hhi,
    reg_discardWork_record hp hrec]

/-- A register from 0x040 up that the block does not keep reads its reset value (R47, R598). -/
theorem reg_beginReset_block {p : Page} (hk : plainAfter p.kind = true) {f : RegField} {i : Nat} (hf : f ∈ fieldsOf p.kind) (hi : i < f.count)
    (hoff : 0x040 ≤ f.off) (hkept : f ∉ keptFields p) (hrepair : p.kind = .core → ¬(0x210 ≤ f.off ∧ f.off < 0x230)) (s : State) :
    (beginReset p s).reg p f i = resetAt p f i := by
  rw [beginReset_eq, reg_afterReset hk, reg_resetHeader_other (by omega), reg_resetRegs_block hf hi hoff hkept]
  intro hcore
  have hle := firstBit_le_last hi
  have hout := coreField_outside_repairs (hcore ▸ hf) (hrepair hcore)
  have hin := inPage_of_fits (fieldsOf_fits _ f hf) hi
  unfold inPage at hin
  have hin := of_decide_eq_true hin
  unfold firstBit at hle hout
  rw [Nat.add_mul]
  omega

theorem reg_beginReset_header {p : Page} (hk : plainAfter p.kind = true) (s : State) :
    (beginReset p s).reg p Rg.pageControlSoftReset = 1 ∧ (beginReset p s).reg p Rg.pageStatusResetBusy = 1 ∧
    (beginReset p s).reg p Rg.pageControlEnable = 0 ∧ (beginReset p s).reg p Rg.pageControlFreeze = 0 ∧
    (beginReset p s).reg p Rg.pageIntStatus = 0 := by
  rw [beginReset_eq]
  iterate 5 rw [reg_afterReset hk fun _ => .inl (by decide)]
  exact reg_resetHeader ..

/-! ### The command -/

/-- What an accepted SOFT_RESET does. -/
theorem exec_softReset {who : Requester} {p : Page} {value : BitVec 32} {s : State} (h : canSoftReset who p value s = true) :
    exec (.softReset who p value) s = .next (beginReset p s) := by
  simp only [canSoftReset, Bool.and_eq_true, Bool.not_eq_true'] at h
  obtain ⟨⟨⟨⟨⟨hok, hbit⟩, htaken⟩, hfixed⟩, hoff⟩, haccepts⟩ := h
  show Host.Outcome.next _ = _
  rw [hok, hbit, if_neg (by decide), writeAccess_taken htaken, hfixed, hoff, haccepts, if_neg (by decide), if_pos rfl]

theorem plainAfter_of_plainReset {p : Page} (h : plainReset p = true) : plainAfter p.kind = true := by
  obtain ⟨k, n⟩ := p
  cases k
  case core | sigc | msid | hbmc | ethp | shap | polc => rfl
  all_goals cases h

/-- Settles O17: the block's registers, its error record and its header, each by its own lemma. -/
theorem softResetRestoresRegisters : Obligations.SoftResetRestoresRegisters := by
  unfold Obligations.SoftResetRestoresRegisters
  intro who p value s hcan hplain
  have hk := plainAfter_of_plainReset hplain
  obtain ⟨hsoft, hbusy, henable, hfreeze, hstatus⟩ := reg_beginReset_header hk s
  have record := fun {f : RegField} => reg_beginReset_record (s := s) (f := f) hplain hk
  exact ⟨_, exec_softReset hcan, fun f hf i hi hoff hkept hrepair => reg_beginReset_block hk hf hi hoff hkept hrepair s,
    record rfl (by decide) (by decide), record rfl (by decide) (by decide), record rfl (by decide) (by decide),
    record rfl (by decide) (by decide), record rfl (by decide) (by decide), record rfl (by decide) (by decide),
    henable, hfreeze, hstatus, hsoft, hbusy⟩

end Sys2Proof.Machine
end


section
/-! SUPPORT. SOFT_RESET, ENABLE and FREEZE of a page (R47, R627, R628): what each leaves in CONTROL and STATUS. -/

namespace Sys2Proof.Machine

/-! ### The end of a reset -/

/-- The header when a reset ends (R47). -/
def endHeader (p : Page) (s : State) : State := s.setReg p Rg.pageControlSoftReset 0 |>.setReg p Rg.pageStatusResetBusy 0

theorem reg_endHeader (p : Page) (s : State) :
    (endHeader p s).reg p Rg.pageControlSoftReset = 0 ∧ (endHeader p s).reg p Rg.pageStatusResetBusy = 0 := by
  unfold endHeader
  refine ⟨?_, State.reg_setReg_same ..⟩
  rw [State.reg_setReg_other _ (fieldBit_ne (by decide))]
  exact State.reg_setReg_same ..

/-- What follows the end of a page's reset (R47, R598). -/
def resetEnd (p : Page) (t : State) : State :=
  match p.kind with
  | .core => startProbe p.inst 15 t
  | .sigc => if t.flag p Rg.pageControlEnable then setSigcEnable p.inst true t else t
  | .hbmc => (t.setReg rsetPage Rg.rsetHbmReadyStacks (t.reg rsetPage Rg.rsetHbmReadyStacks ||| 2 ^ p.inst)).setReg p
      Rg.pageStatusFenced 0
  | _ => t

theorem exec_softResetDone {p : Page} {s : State} (h : canSoftResetDone p s = true) :
    exec (.softResetDone p) s = .next (resetEnd p (endHeader p s)) := by
  simp only [canSoftResetDone, Bool.and_eq_true] at h
  obtain ⟨⟨halive, hok⟩, hreset⟩ := h
  show Host.Outcome.next _ = _
  rw [halive, hok, hreset, if_neg (by decide)]
  rfl

/-- The registers that the start of a signal core's program writes (R190). -/
def programStartFields : List RegField := [Rg.pageControlEnable, Rg.pageStatusEnabled, Rg.sigcTrapCauseValid, Rg.sigcIngressProducedCount]

theorem startProgram_regs (n : Nat) (s : State) : (startProgram n s).regs =
    ((s.setReg (sigcPage n) Rg.sigcTrapCauseValid 0).setReg (sigcPage n) Rg.sigcIngressProducedCount 0).regs := rfl

theorem setSigcEnable_on (n : Nat) (s : State) : setSigcEnable n true s =
    if programRuns (s.sigc n) then (s.setReg (sigcPage n) Rg.pageControlEnable 1).setReg (sigcPage n) Rg.pageStatusEnabled 1
    else startProgram n ((s.setReg (sigcPage n) Rg.pageControlEnable 1).setReg (sigcPage n) Rg.pageStatusEnabled 1) := rfl

theorem reg_setSigcEnable_on {n : Nat} {f : RegField} {i : Nat}
    (h : ∀ g ∈ programStartFields, (f.off + f.stride * i) * 8 + f.lo ≠ (g.off + g.stride * 0) * 8 + g.lo) (s : State) :
    (setSigcEnable n true s).reg (sigcPage n) f i = s.reg (sigcPage n) f i := by
  have hne : ∀ g ∈ programStartFields, fieldBit (sigcPage n) f i ≠ fieldBit (sigcPage n) g 0 := fun g hg => fieldBit_ne (h g hg)
  have hheader : ((s.setReg (sigcPage n) Rg.pageControlEnable 1).setReg (sigcPage n) Rg.pageStatusEnabled 1).reg (sigcPage n) f i =
      s.reg (sigcPage n) f i := by
    rw [State.reg_setReg_other _ (hne _ (by decide)), State.reg_setReg_other _ (hne _ (by decide))]
  rw [setSigcEnable_on]
  refine ite_prop (fun u : State => u.reg (sigcPage n) f i = s.reg (sigcPage n) f i) (fun _ => hheader) (fun _ => ?_)
  rw [reg_of_regs (startProgram_regs ..), State.reg_setReg_other _ (hne _ (by decide)), State.reg_setReg_other _ (hne _ (by decide)), hheader]

theorem reg_resetEnd_header {p : Page} (hc : p.kind ≠ .core) (t : State) :
    (resetEnd p t).reg p Rg.pageControlSoftReset = t.reg p Rg.pageControlSoftReset ∧
    (resetEnd p t).reg p Rg.pageStatusResetBusy = t.reg p Rg.pageStatusResetBusy := by
  obtain ⟨k, n⟩ := p
  cases k
  case core => exact absurd rfl hc
  case sigc =>
    refine ite_prop (fun u : State => u.reg _ Rg.pageControlSoftReset = t.reg _ Rg.pageControlSoftReset ∧
      u.reg _ Rg.pageStatusResetBusy = t.reg _ Rg.pageStatusResetBusy) (fun _ => ⟨?_, ?_⟩) (fun _ => ⟨rfl, rfl⟩)
    · exact reg_setSigcEnable_on (by decide) t
    · exact reg_setSigcEnable_on (by decide) t
  case hbmc =>
    refine ⟨?_, ?_⟩
    · exact (State.reg_setReg_other _ (fieldBit_ne (by decide)) _).trans
        (State.reg_setReg_other _ (fieldBit_ne_position (by decide) (by decide) (by decide)) _)
    · exact (State.reg_setReg_other _ (fieldBit_ne (by decide)) _).trans
        (State.reg_setReg_other _ (fieldBit_ne_position (by decide) (by decide) (by decide)) _)
  all_goals exact ⟨rfl, rfl⟩

theorem resetEnd_core {p : Page} (h : p.kind = .core) (t : State) : resetEnd p t = startProbe p.inst 15 t := by
  unfold resetEnd
  rw [h]

/-- A stack that has retrained is fenced no more (R47). -/
theorem reg_resetEnd_fenced {p : Page} (h : p.kind = .hbmc) (t : State) : (resetEnd p t).reg p Rg.pageStatusFenced = 0 := by
  unfold resetEnd
  rw [h]
  exact State.reg_setReg_same ..

/-! ### ENABLE -/

/-- Whether a write of ENABLE stores the written bit at once and does nothing else (R627). -/
def plainEnable (k : PageKind) : Prop :=
  k = .core ∨ k = .code ∨ k = .msid ∨ k = .hbmc ∨ k = .bulk ∨ k = .fabr ∨ k = .rasp ∨ k = .shap ∨ k = .polc

/-- What a taken write of ENABLE does, while a reset runs and else. -/
def enableWritten (p : Page) (on : Bool) (s : State) : State :=
  if s.flag p Rg.pageControlSoftReset then storeEnable p on s else setEnable p on s

theorem exec_enableWrite {who : Requester} {p : Page} {on : Bool} {s : State} (h : canEnableWrite who p on s = true) :
    exec (.enableWrite who p on) s = .next (enableWritten p on s) := by
  simp only [canEnableWrite, Bool.and_eq_true] at h
  obtain ⟨hok, htaken⟩ := h
  show Host.Outcome.next _ = _
  rw [hok, if_neg (by decide), writeAccess_taken htaken]
  rfl

theorem setEnable_fixed {p : Page} (h : enableFixed p.kind = true) (on : Bool) (s : State) : setEnable p on s = s := by
  unfold setEnable
  rw [if_pos h]

theorem storeEnable_fixed {p : Page} (h : enableFixed p.kind = true) (on : Bool) (s : State) : storeEnable p on s = s := by
  unfold storeEnable
  refine ite_prop (fun u : State => u = s) (fun _ => setEnable_fixed h on s) (fun _ => ?_)
  rw [h, Bool.true_or, if_pos rfl]

theorem enableWritten_fixed {p : Page} (h : enableFixed p.kind = true) (on : Bool) (s : State) : enableWritten p on s = s :=
  ite_prop (fun u : State => u = s) (fun _ => storeEnable_fixed h on s) (fun _ => setEnable_fixed h on s)

theorem setEnable_plain {p : Page} (h : plainEnable p.kind) (on : Bool) (s : State) :
    setEnable p on s = s.setReg p Rg.pageControlEnable (bit on) := by
  obtain ⟨k, n⟩ := p
  rcases h with h | h | h | h | h | h | h | h | h <;> cases h <;> rfl

theorem storeEnable_plain {p : Page} (h : plainEnable p.kind) (on : Bool) (s : State) :
    storeEnable p on s = s.setReg p Rg.pageControlEnable (bit on) := by
  obtain ⟨k, n⟩ := p
  rcases h with h | h | h | h | h | h | h | h | h <;> cases h <;> rfl

theorem reg_enableWritten_plain {p : Page} (h : plainEnable p.kind) (on : Bool) (s : State) :
    (enableWritten p on s).reg p Rg.pageControlEnable = bit on := by
  have hw : enableWritten p on s = s.setReg p Rg.pageControlEnable (bit on) :=
    ite_prop (fun u : State => u = s.setReg p Rg.pageControlEnable (bit on)) (fun _ => storeEnable_plain h on s) (fun _ => setEnable_plain h on s)
  rw [hw, State.reg_setReg_same]
  cases on <;> rfl

/-- A partition that is off and that nothing refuses is enabled (R352), while its page is being reset too. -/
theorem enableWritten_part {p : Page} (hp : p.kind = .part) {s : State} (hoff : s.partOn p.inst = false) (hfree : enableRefused s p.inst = none) :
    enableWritten p true s = enableNow p.inst 0 s := by
  have hset : setEnable p true s = enableNow p.inst 0 s := by
    unfold setEnable
    rw [hp, if_neg (by decide)]
    show (if !true then _ else if _ then _ else _) = _
    rw [if_neg (by decide), hoff, if_neg (by decide), hfree]
  refine ite_prop (fun u : State => u = enableNow p.inst 0 s) (fun _ => ?_) (fun _ => hset)
  unfold storeEnable
  rw [if_pos hp, hset]

/-! ### FREEZE -/

theorem exec_freezeWrite {who : Requester} {p : Page} {on : Bool} {s : State} (h : canFreezeWrite who p on s = true) :
    exec (.freezeWrite who p on) s = .next (if on then freezePage p s else thawPage p s) := by
  simp only [canFreezeWrite, Bool.and_eq_true] at h
  obtain ⟨hok, htaken⟩ := h
  show Host.Outcome.next _ = _
  rw [hok, if_neg (by decide), writeAccess_taken htaken]

/-- A core's wait that is abandoned and its gap leave the registers as they are. -/
theorem freezePage_regs (p : Page) (s : State) : (freezePage p s).regs = (s.setReg p Rg.pageControlFreeze 1).regs := by
  obtain ⟨k, n⟩ := p
  cases k
  case core =>
    refine (settleGap_regs ..).trans ?_
    split <;> rfl
  all_goals rfl

theorem reg_freezePage (p : Page) (s : State) : (freezePage p s).reg p Rg.pageControlFreeze = 1 := by
  rw [reg_of_regs (freezePage_regs p s)]
  exact State.reg_setReg_same ..

theorem thawPage_regs {p : Page} (h : p.kind ≠ .part) (s : State) :
    (thawPage p s).regs = ((s.setReg p Rg.pageControlFreeze 0).setReg p Rg.pageStatusFrozen 0).regs := by
  obtain ⟨k, n⟩ := p
  cases k
  case core => exact settleGap_regs ..
  case part => exact absurd rfl h
  all_goals rfl

theorem reg_thawPage {p : Page} (h : p.kind ≠ .part) (s : State) :
    (thawPage p s).reg p Rg.pageControlFreeze = 0 ∧ (thawPage p s).reg p Rg.pageStatusFrozen = 0 := by
  rw [reg_of_regs (thawPage_regs h s), reg_of_regs (thawPage_regs h s)]
  refine ⟨?_, State.reg_setReg_same ..⟩
  rw [State.reg_setReg_other _ (fieldBit_ne (by decide))]
  exact State.reg_setReg_same ..

/-! ### The statement -/

/-- Settles O48: each command by its equation, and the bits of CONTROL and STATUS by the lemmas about the state it leads to. -/
theorem blockControlComplete : Obligations.BlockControlComplete := by
  unfold Obligations.BlockControlComplete
  refine ⟨?softReset, ?softResetDone, ?enableWrite, ?blockOperating, ?blockStopped, ?freezeWrite, ?blockFrozen⟩
  case softReset =>
    intro who p value s h
    refine ⟨_, exec_softReset h, rfl, fun hk => ?_⟩
    have hplain : plainAfter p.kind = true := by
      rcases hk with e | e | e | e | e | e | e | e | e <;> rw [e] <;> rfl
    obtain ⟨hsoft, hbusy, henable, -, -⟩ := reg_beginReset_header hplain s
    exact ⟨hsoft, hbusy, henable⟩
  case softResetDone =>
    intro p s h
    refine ⟨_, exec_softResetDone h, fun hk => ?_, fun hk => resetEnd_core hk _, fun hk => reg_resetEnd_fenced hk _⟩
    obtain ⟨hsoft, hbusy⟩ := reg_resetEnd_header hk (endHeader p s)
    rw [hsoft, hbusy]
    exact reg_endHeader p s
  case enableWrite =>
    intro who p on s h
    refine ⟨_, exec_enableWrite h, rfl, fun hk => enableWritten_fixed hk on s, fun hk => reg_enableWritten_plain hk on s, ?_⟩
    rintro hp rfl hoff hfree
    exact enableWritten_part hp hoff hfree
  case blockOperating => exact fun p s h => ⟨_, congrArg Host.Outcome.next (if_pos h), rfl⟩
  case blockStopped => exact fun p s h => ⟨_, congrArg Host.Outcome.next (if_pos h), rfl⟩
  case freezeWrite =>
    intro who p on s h
    refine ⟨_, exec_freezeWrite h, rfl, ?_, ?_⟩
    · rintro rfl
      exact reg_freezePage p s
    · rintro rfl hp
      exact reg_thawPage hp s
  case blockFrozen => exact fun p s h => ⟨_, congrArg Host.Outcome.next (if_pos h), rfl⟩

end Sys2Proof.Machine
end


section
/-! SUPPORT. Wave windows and fences (R30, R114, R121, R533). -/

namespace Sys2Proof.Machine

/-! ### The end of a wave window -/

/-- The registers of a monitor when a window of a rate ends (R28 to R30). -/
def windowRegs (unit : MonitorUnit) (rate : Nat) (readMeets : Bool) (s : State) : State :=
  s.setReg (monitorPage unit) Rg.coreWaveRateRate rate |>.setReg (monitorPage unit) Rg.coreWaveRateLow (bit (decide (rate < 1550)))
    |>.setReg (monitorPage unit) Rg.coreWaveRateMinRate (if readMeets then rate else min rate (s.reg (monitorPage unit) Rg.coreWaveRateMinRate))

/-- A window ended at or above the floor: no run of low ones is left (R30). -/
def endFloorRun (unit : MonitorUnit) (t : State) : State :=
  { t with plat := { t.plat with floorRun := tabDel (monitorNo unit) t.plat.floorRun } }

theorem exec_waveWindowEnd {s : State} (h : s.alive = true) (unit : MonitorUnit) (rate : BitVec 16) (readMeets : Bool) :
    exec (.waveWindowEnd unit rate readMeets) s =
      .next (if decide (rate.toNat < 1550) = true then lowWindow unit (noteWindow (monitorNo unit) rate.toNat (windowRegs unit rate.toNat readMeets s))
        else endFloorRun unit (noteWindow (monitorNo unit) rate.toNat (windowRegs unit rate.toNat readMeets s))) :=
  congrArg Host.Outcome.next (if_pos h)

theorem reg_windowRegs (unit : MonitorUnit) (rate : BitVec 16) (readMeets : Bool) (s : State) :
    (windowRegs unit rate.toNat readMeets s).reg (monitorPage unit) Rg.coreWaveRateRate = rate.toNat ∧
    (windowRegs unit rate.toNat readMeets s).reg (monitorPage unit) Rg.coreWaveRateLow = bit (decide (rate.toNat < 1550)) ∧
    (windowRegs unit rate.toNat readMeets s).reg (monitorPage unit) Rg.coreWaveRateMinRate =
      (if readMeets then rate.toNat else min rate.toNat (s.reg (monitorPage unit) Rg.coreWaveRateMinRate)) := by
  have hrate : rate.toNat < 2 ^ 16 := rate.isLt
  unfold windowRegs
  refine ⟨?_, ?_, ?_⟩
  · iterate 2 rw [State.reg_setReg_other _ (fieldBit_ne (by decide))]
    rw [State.reg_setReg_same]
    exact Nat.mod_eq_of_lt hrate
  · rw [State.reg_setReg_other _ (fieldBit_ne (by decide)), State.reg_setReg_same]
    cases decide (rate.toNat < 1550) <;> rfl
  · rw [State.reg_setReg_same]
    refine Nat.mod_eq_of_lt (?_ : _ < 2 ^ 16)
    cases readMeets
    · exact Nat.lt_of_le_of_lt (Nat.min_le_left ..) hrate
    · exact hrate

/-- A note of the window, and the end of a run of low ones, leave the registers as they are. -/
theorem reg_noteWindow (c rate : Nat) (s : State) (q : Page) (f : RegField) (i : Nat) : (noteWindow c rate s).reg q f i = s.reg q f i := reg_of_regs rfl ..

theorem reg_endFloorRun (unit : MonitorUnit) (s : State) (q : Page) (f : RegField) (i : Nat) : (endFloorRun unit s).reg q f i = s.reg q f i :=
  reg_of_regs rfl ..

/-! ### The fence of a core -/

/-- The state when a core's fence has set FENCED and spoiled its passes (R533). -/
def fencedCore (c : Nat) (s : State) : State := (s.setReg (corePage c) Rg.pageStatusFenced 1).modCore c (spoilCmds fun _ => true)

/-- The core's physical core, where it has one, is retired (R531). -/
def retireCore (c : Nat) (phys : Table Nat) (t : State) : State :=
  match tabFind c phys with
  | some ph => retirePhysical ph t
  | none => t

theorem retireCore_plat (c : Nat) (phys : Table Nat) (t : State) : (retireCore c phys t).plat = t.plat := by
  unfold retireCore
  cases tabFind c phys <;> rfl

theorem retireCore_mem (c : Nat) (phys : Table Nat) (t : State) : (retireCore c phys t).mem = t.mem := by
  unfold retireCore
  cases tabFind c phys <;> rfl

theorem retireCore_ctxs (c : Nat) (phys : Table Nat) (t : State) : (retireCore c phys t).ctxs = t.ctxs := by
  unfold retireCore
  cases tabFind c phys <;> rfl

/-- CORE_RETIRE stands above every core's page, whatever the number of the physical core. -/
theorem fieldBit_ne_coreRetire {c : Nat} (hc : c < 160) {f : RegField} (hs : f.stride = 0) (hf : f.off * 8 + f.lo < 32768) (i : Nat) :
    fieldBit (corePage c) f 0 ≠ fieldBit raspPage Rg.raspCoreRetirePhysical i := by
  rw [fieldBit_split, fieldBit_split, hs]
  show (0x00100000 + c * 0x1000) * 8 + ((f.off + 0 * 0) * 8 + f.lo) ≠ 0x00340000 * 8 + ((0x70 + 8 * i) * 8 + 0)
  omega

theorem reg_retireCore {c : Nat} (hc : c < 160) {f : RegField} (hs : f.stride = 0) (hf : f.off * 8 + f.lo < 32768) (phys : Table Nat) (t : State) :
    (retireCore c phys t).reg (corePage c) f = t.reg (corePage c) f := by
  unfold retireCore
  cases tabFind c phys with
  | none => rfl
  | some ph => exact State.reg_setReg_other _ (fieldBit_ne_coreRetire hc hs hf _) _

/-- A core that is not fenced and whose die has a free spare is fenced, and is not lost (R533, R536). -/
theorem fenceCore_spared {c : Nat} {s : State} (hf : s.flag (corePage c) Rg.pageStatusFenced = false) (hsp : (spareCore s (c / 40)).isSome = true) :
    fenceCore c s = retireCore c s.plat.corePhysical (fencedCore c s) := by
  have hsp' : (spareCore (retireCore c s.plat.corePhysical (fencedCore c s)) (c / 40)).isSome = true := by
    unfold spareCore
    rw [retireCore_plat]
    exact hsp
  unfold fenceCore
  rw [hf, if_neg (by decide)]
  exact if_pos hsp'

theorem reg_fenceCore_fenced {c : Nat} (hc : c < 160) {s : State} (hf : s.flag (corePage c) Rg.pageStatusFenced = false)
    (hsp : (spareCore s (c / 40)).isSome = true) : (fenceCore c s).reg (corePage c) Rg.pageStatusFenced = 1 := by
  rw [fenceCore_spared hf hsp, reg_retireCore hc rfl (by decide)]
  exact (reg_of_regs (s := s.setReg (corePage c) Rg.pageStatusFenced 1) rfl ..).trans (State.reg_setReg_same ..)

/-! ### The statement -/

/-- Settles O25: a window by the registers that it writes, the fences by their equations, and FENCED by the fence of a core with a spare. -/
theorem fencesComplete : Obligations.FencesComplete := by
  unfold Obligations.FencesComplete
  refine ⟨?waveWindowEnd, ?arrayFence, ?skewProbeDone, ?coreFenceWrite, ?coreCheckFail⟩
  case waveWindowEnd =>
    intro unit rate readMeets s halive
    obtain ⟨hrate, hlow, hmin⟩ := reg_windowRegs unit rate readMeets s
    refine ⟨_, exec_waveWindowEnd halive unit rate readMeets, fun h => ?_, fun h => ?_⟩
    · rw [decide_eq_true h] at hlow ⊢
      exact ⟨_, if_pos rfl, (reg_noteWindow ..).trans hrate, (reg_noteWindow ..).trans hlow⟩
    · rw [decide_eq_false (Nat.not_lt.mpr h)] at hlow ⊢
      rw [if_neg (by decide), reg_endFloorRun, reg_noteWindow, reg_endFloorRun, reg_noteWindow, reg_endFloorRun, reg_noteWindow]
      refine ⟨hrate, hlow, ?_, ?_, rfl, rfl⟩
      · rintro rfl
        exact hmin
      · rintro rfl
        exact hmin
  case arrayFence => exact fun c a feeder s h => ⟨_, congrArg Host.Outcome.next (if_pos h), rfl⟩
  case skewProbeDone =>
    intro c failed detail s h
    exact ⟨_, congrArg Host.Outcome.next (if_pos (Bool.and_eq_true _ _ ▸ h)), _, rfl, rfl⟩
  case coreFenceWrite =>
    intro who value s h
    simp only [canCoreFenceWrite, Bool.and_eq_true, decide_eq_true_eq] at h
    obtain ⟨⟨htaken, htop⟩, hcore⟩ := h
    exact ⟨_, congrArg Host.Outcome.next ((writeAccess_taken htaken).trans (if_pos ⟨htop, hcore⟩)), rfl⟩
  case coreCheckFail =>
    intro c s h
    simp only [canCoreCheckFail, Bool.and_eq_true, Bool.not_eq_true'] at h
    obtain ⟨⟨halive, hfenced⟩, hspare⟩ := h
    refine ⟨_, congrArg Host.Outcome.next (if_pos halive), rfl, reg_fenceCore_fenced c.isLt hfenced hspare, ?_, ?_⟩
    · rw [fenceCore_spared hfenced hspare, retireCore_mem]
      rfl
    · rw [fenceCore_spared hfenced hspare, retireCore_ctxs]
      rfl

end Sys2Proof.Machine
end


section
/-! SUPPORT. Power, reset and bring-up (R588 to R597): the registers, the platform and the time that each event leaves. -/

namespace Sys2Proof.Machine

/-! ### An accepted reset -/

/-- RESET_CAUSE and RESET_COUNT after an accepted reset (R588, R590). -/
theorem reg_acceptReset (cause : Nat) (hc : cause < 4) (vbat : Bool) (s : State) :
    (acceptReset cause vbat s).reg rsetPage Rg.rsetResetCauseCause = cause ∧
    (acceptReset cause vbat s).reg rsetPage Rg.rsetResetCauseVbatFresh = bit (!vbat) ∧
    (acceptReset cause vbat s).reg rsetPage Rg.rsetResetCountCount =
      (if vbat then (s.reg rsetPage Rg.rsetResetCountCount + 1) % 2 ^ 32 else 1) := by
  unfold State.reg acceptReset
  dsimp only
  refine ⟨?_, ?_, ?_⟩
  · iterate 6 rw [fieldGet_set_other (fieldBit_ne_position (by decide) (by decide) (by decide))]
    rw [fieldGet_set_same]
    exact Nat.mod_eq_of_lt (Nat.lt_of_lt_of_le hc (by decide))
  · iterate 2 rw [fieldGet_set_other (fieldBit_ne_position (by decide) (by decide) (by decide))]
    rw [fieldGet_set_same]
    cases vbat <;> rfl
  · iterate 7 rw [fieldGet_set_other (fieldBit_ne_position (by decide) (by decide) (by decide))]
    rw [fieldGet_set_same]
    cases vbat
    · rfl
    · exact Nat.mod_mod _ _

/-! ### Step 1 of bring-up -/

/-- The fuse map is in the registers and each physical core has its number, when step 1 has ended (R530, R593). -/
def numbered (s : State) : State :=
  let env := s.plat.env.getD ⟨true, true, [], [], [], [], 0, []⟩
  (assignNumbers { s with
    plat := { s.plat with
      fusedCores := env.fusedCores, fusedSigcs := env.fusedSigcs, fuseRepairs := env.repairs, probeFails := env.probeFails }
    time := {} }).each env.repairs applyFuseRepair

/-- What step 1 waits for, and the phase. -/
def State.waits (s : State) : Phase × Bool × Bool := (s.plat.phase, s.plat.waitRefclk, s.plat.waitHot)

theorem waits_of_plat {s t : State} (h : t.plat = s.plat) : t.waits = s.waits := by
  unfold State.waits
  rw [h]

/-- A run over a list keeps within the parts that its steps keep within. -/
theorem each_steps_only {α : Type} {m : Nat} {f : α → State → State} (h : ∀ x u, Only m u (f x u)) (l : List α) (s : State) : Only m s (s.each l f) :=
  each_only (fun x u hu => hu.trans (h x u)) (Only.refl ..)

theorem setReg_waits (s : State) (p : Page) (f : RegField) (v i : Nat) : (s.setReg p f v i).waits = s.waits := rfl

theorem assignNumbers_waits (s : State) : (assignNumbers s).waits = s.waits := by
  unfold assignNumbers
  simp only [setReg_waits]
  rfl

theorem assignNumbers_time (s : State) : (assignNumbers s).time = s.time := (assignNumbers_only s).time rfl

theorem numbered_waits (s : State) : (numbered s).waits = s.waits := by
  unfold numbered
  refine (waits_of_plat ((each_steps_only applyFuseRepair_only ..).plat rfl)).trans ((assignNumbers_waits _).trans ?_)
  rfl

theorem numbered_time (s : State) : (numbered s).time = {} :=
  ((each_steps_only applyFuseRepair_only ..).time rfl).trans (assignNumbers_time _)

theorem afterStep1_waiting {s : State} (h : (s.plat.waitRefclk || s.plat.waitHot) = true) : afterStep1 s = s := if_pos h

theorem afterStep1_ended {s : State} (h : (s.plat.waitRefclk || s.plat.waitHot) = false) : afterStep1 s =
    (((numbered s).setReg rsetPage Rg.rsetBringupStep 4).setReg mgmtPage Rg.mgmtFuseStateFusedSvn s.fuses.svn).setReg mgmtPage
      Rg.mgmtFuseStateOwnerSet (bit (s.fuses.ownerHash != 0)) := if_neg (by rw [h]; decide)

theorem afterStep1_waits (s : State) : (afterStep1 s).waits = s.waits := by
  cases h : s.plat.waitRefclk || s.plat.waitHot
  · rw [afterStep1_ended h]
    exact numbered_waits s
  · rw [afterStep1_waiting h]

/-- With nothing to wait for, step 4 is the lowest incomplete one and device time runs from 0 (R593, R609). -/
theorem afterStep1_done {s : State} (h : (s.plat.waitRefclk || s.plat.waitHot) = false) :
    (afterStep1 s).reg rsetPage Rg.rsetBringupStep = 4 ∧ (afterStep1 s).time = {} := by
  rw [afterStep1_ended h]
  refine ⟨?_, numbered_time s⟩
  iterate 2 rw [State.reg_setReg_other _ (fieldBit_ne_position (by decide) (by decide) (by decide))]
  exact State.reg_setReg_same ..

/-- The state in which bring-up begins (R593). -/
def bringupBegun (env : BringEnv) (s : State) : State :=
  { s with plat := { s.plat with phase := .bringup, env := some env, waitRefclk := !env.refclk, waitHot := !env.cool } }.setReg rsetPage
      Rg.rsetBringupStep 1 |>.setReg rsetPage Rg.rsetBringupRefclkOk (bit env.refclk) |>.setReg rsetPage Rg.rsetBringupHotWait (bit (!env.cool))

theorem exec_bringupStart {env : BringEnv} {s : State} (h : s.plat.phase = .released) :
    exec (.bringupStart env) s = .next (afterStep1 (bringupBegun env s)) := congrArg Host.Outcome.next (if_pos h)

theorem reg_bringupBegun_step (env : BringEnv) (s : State) : (bringupBegun env s).reg rsetPage Rg.rsetBringupStep = 1 := by
  unfold bringupBegun
  iterate 2 rw [State.reg_setReg_other _ (fieldBit_ne (by decide))]
  exact State.reg_setReg_same ..

theorem reg_bringupStart_step (env : BringEnv) (s : State) :
    (afterStep1 (bringupBegun env s)).reg rsetPage Rg.rsetBringupStep = (if env.refclk && env.cool then 4 else 1) := by
  have hwaits : ((bringupBegun env s).plat.waitRefclk || (bringupBegun env s).plat.waitHot) = !(env.refclk && env.cool) := (Bool.not_and ..).symm
  cases hr : env.refclk && env.cool <;> rw [hr] at hwaits
  · rw [afterStep1_waiting hwaits]
    exact reg_bringupBegun_step env s
  · exact (afterStep1_done hwaits).1

/-- REFCLK_A is present, or every junction is cool: what step 1 no longer waits for (R593). -/
def refclkSeen (s : State) : State := { s with plat := { s.plat with waitRefclk := false } }.setReg rsetPage Rg.rsetBringupRefclkOk 1
def hotOver (s : State) : State := { s with plat := { s.plat with waitHot := false } }.setReg rsetPage Rg.rsetBringupHotWait 0

theorem exec_refclkAPresent {s : State} (h : canRefclkAPresent s = true) : exec .refclkAPresent s = .next (afterStep1 (refclkSeen s)) := by
  simp only [canRefclkAPresent, Bool.and_eq_true, decide_eq_true_eq] at h
  exact congrArg Host.Outcome.next (if_pos h)

theorem exec_hotWaitEnd {s : State} (h : canHotWaitEnd s = true) : exec .hotWaitEnd s = .next (afterStep1 (hotOver s)) := by
  simp only [canHotWaitEnd, Bool.and_eq_true, decide_eq_true_eq] at h
  exact congrArg Host.Outcome.next (if_pos h)

/-! ### The end of bring-up -/

/-- The phase of the platform, and the environment that bring-up reads. -/
def State.stage (s : State) : Phase × Option BringEnv := (s.plat.phase, s.plat.env)

theorem stage_of_plat {s t : State} (h : t.plat = s.plat) : t.stage = s.stage := by
  unfold State.stage
  rw [h]

/-- The end of a core's probe changes of the platform only which arrays failed (R122). -/
theorem probeDone_stage (c failed detail : Nat) (s : State) : (probeDone c failed detail s).stage = s.stage := by
  unfold probeDone
  dsimp only
  refine (stage_of_plat ((State.raiseBits_only ..).plat rfl)).trans ?_
  refine (stage_of_plat ((each_steps_only (fun a u => State.error_only ..) ..).plat rfl)).trans ?_
  rfl

theorem resetProbe_stage (c : Nat) (s : State) : (resetProbe c s).stage = s.stage := by
  have hfence : ∀ u : State, (fenceCore c u).stage = u.stage := fun u => stage_of_plat ((fenceCore_only c u).plat rfl)
  unfold resetProbe
  dsimp only
  refine ite_prop (fun u : State => u.stage = s.stage) (fun _ => (hfence _).trans ?_) (fun _ => ?_)
  · exact probeDone_stage ..
  · exact probeDone_stage ..

theorem resetProbes_stage (l : List Nat) (s : State) : (s.each l resetProbe).stage = s.stage :=
  foldl_keep (fun u c => resetProbe c u) State.stage (fun u c => resetProbe_stage c u) l s

theorem setReg_stage (s : State) (p : Page) (f : RegField) (v i : Nat) : (s.setReg p f v i).stage = s.stage := rfl

theorem usedFree_stage (s : State) (n : Nat) : (s.usedFree n).stage = s.stage := rfl

/-- The state when the cores' probes, the stacks and the interleave set of bring-up are done (R593, R597). -/
def serviceReady (s : State) : State :=
  let env := s.plat.env.getD ⟨true, true, [], [], [], [], 0, []⟩
  let t := { s with plat := { s.plat with phase := .running, broughtUp := true, env := none } }
  let t := (t.each (List.range 160) resetProbe).usedFree 160
  let t := t.setReg rsetPage Rg.rsetHbmReadyStacks (~~~env.hbmFailed).toNat
  let t := t.each ((List.range 20).filter env.hbmFailed.getLsbD) fun x u => u.setReg (hbmcPage x) Rg.pageStatusFenced 1
  formBulkSet env.bulkModules t

theorem serviceReady_stage (s : State) : (serviceReady s).stage = (.running, none) := by
  unfold serviceReady
  dsimp only
  refine (stage_of_plat ((formBulkSet_only ..).plat rfl)).trans ?_
  refine (stage_of_plat ((each_steps_only (fun x u => State.setReg_only ..) ..).plat rfl)).trans ?_
  rw [setReg_stage, usedFree_stage, resetProbes_stage]
  rfl

theorem exec_bringupDone {s : State} (h : canBringupDone s = true) : exec .bringupDone s =
    .next ((((serviceReady s).setReg rsetPage Rg.rsetBringupStep 0).setReg rsetPage Rg.rsetBringupDone 1).raise rsetPage 1) := by
  simp only [canBringupDone, Bool.and_eq_true, Bool.or_eq_true, decide_eq_true_eq, beq_iff_eq] at h
  obtain ⟨⟨hphase, halive⟩, hboot⟩ := h
  show execBringupDone s = _
  unfold execBringupDone serviceReady
  dsimp only
  rw [if_pos ⟨hphase, halive, hboot⟩]

end Sys2Proof.Machine
end

section
/-! SUPPORT. The supplies and VDD_CORE (R27, R30, R584, R585, R604, R609). -/

namespace Sys2Proof.Machine

/-! ### Requests of VDD_CORE -/

/-- A voltage as it can be requested: whole steps of 5 mV within 600 to 850 mV (R604). -/
def avsValue (mv : Nat) : Nat := max 600 (min 850 (mv / 5 * 5))

/-- The state when a voltage has been requested for a die. -/
def vddAsked (d mv : Nat) (s : State) : State :=
  { s with plat := { s.plat with vddRequest := tabSet d (avsValue mv) s.plat.vddRequest }, out := s.out ++ [.avs d (avsValue mv)] }

theorem requestVdd_firmware {s : State} (h : s.firmware = true) (d mv : Nat) : requestVdd d mv s = vddAsked d mv s := if_pos h

theorem avsValue_range (mv : Nat) : 600 ≤ avsValue mv ∧ avsValue mv ≤ 850 ∧ avsValue mv % 5 = 0 := by
  unfold avsValue
  omega

theorem tabGet_set_same {α : Type} (d : α) (k : Nat) (v : α) (m : Table α) : tabGet d k (tabSet k v m) = v := by
  unfold tabGet
  rw [tabFind_set_same]
  rfl

/-! ### The policy -/

/-- Whether the last lowering of a die is 1 ms ago (R584). -/
def lowerNow (d : Nat) (s : State) : Bool :=
  match tabFind d s.plat.loweredAt with
  | some at_ => decide (s.now ≥ at_ + 1000000)
  | none => true

/-- The value that the policy of a die requests (R584). -/
def policyValue (d mvPower mvRate mvFloor : Nat) (s : State) : Nat :=
  vddTarget (vddRequested s d) mvPower mvRate mvFloor (belowFloorAllowed s d) (lowerNow d s)

/-- A lowering is noted with its time (R584). -/
def noteLowered (d v cur at_ : Nat) (t : State) : State :=
  if v < cur then { t with plat := { t.plat with loweredAt := tabSet d at_ t.plat.loweredAt } } else t

theorem noteLowered_regs (d v cur at_ : Nat) (t : State) : (noteLowered d v cur at_ t).regs = t.regs :=
  ite_prop (fun u : State => u.regs = t.regs) (fun _ => rfl) (fun _ => rfl)

theorem noteLowered_out (d v cur at_ : Nat) (t : State) : (noteLowered d v cur at_ t).out = t.out :=
  ite_prop (fun u : State => u.out = t.out) (fun _ => rfl) (fun _ => rfl)

theorem noteLowered_vddRequest (d v cur at_ : Nat) (t : State) : (noteLowered d v cur at_ t).plat.vddRequest = t.plat.vddRequest :=
  ite_prop (fun u : State => u.plat.vddRequest = t.plat.vddRequest) (fun _ => rfl) (fun _ => rfl)

theorem noteLowered_loweredAt {v cur : Nat} (h : v < cur) (d at_ : Nat) (t : State) :
    tabFind d (noteLowered d v cur at_ t).plat.loweredAt = some at_ := by
  unfold noteLowered
  rw [if_pos h]
  exact tabFind_set_same ..

theorem exec_vddCorePolicy {s : State} (h : s.firmware = true) (die : Fin 4) (mvPower mvRate mvFloor : Nat) :
    exec (.vddCorePolicy die mvPower mvRate mvFloor) s =
      .next (noteLowered die.val (policyValue die.val mvPower mvRate mvFloor s) (vddRequested s die.val) s.now
        (vddAsked die.val (policyValue die.val mvPower mvRate mvFloor s) s)) := by
  rw [← requestVdd_firmware h]
  show Host.Outcome.next (if policyValue die.val mvPower mvRate mvFloor s < vddRequested s die.val ∧ s.firmware = true then _ else _) = _
  rw [h]
  simp only [and_true]
  rfl

/-- The value that the policy wants, wherever the die stands (R27, R584). -/
def vddWanted (mvPower mvRate mvFloor : Nat) (low : Bool) : Nat :=
  let want := max mvFloor (min 850 (min mvPower mvRate))
  if want < 680 ∧ !low then 680 else want

theorem vddTarget_eq (cur mvPower mvRate mvFloor : Nat) (low lower : Bool) : vddTarget cur mvPower mvRate mvFloor low lower =
    if vddWanted mvPower mvRate mvFloor low < cur then (if lower then max (vddWanted mvPower mvRate mvFloor low) (cur - 5) else cur)
    else vddWanted mvPower mvRate mvFloor low := rfl

theorem vddWanted_floor (mvPower mvRate mvFloor : Nat) : 680 ≤ vddWanted mvPower mvRate mvFloor false := by
  unfold vddWanted
  simp only [Bool.not_false, and_true]
  split <;> omega

/-- Where no value below 680 mV is allowed, none is set. -/
theorem vddTarget_floor (cur mvPower mvRate mvFloor : Nat) (lower : Bool) : 680 ≤ vddTarget cur mvPower mvRate mvFloor false lower := by
  have hwant := vddWanted_floor mvPower mvRate mvFloor
  rw [vddTarget_eq]
  cases lower
  · simp only [Bool.false_eq_true, if_false]
    split <;> omega
  · simp only [if_true]
    split <;> omega

/-- A die is lowered by at most one step of 5 mV, and only where the time allows it (R584). -/
theorem vddTarget_lowers {cur mvPower mvRate mvFloor : Nat} {low lower : Bool} (h : vddTarget cur mvPower mvRate mvFloor low lower < cur) :
    cur ≤ vddTarget cur mvPower mvRate mvFloor low lower + 5 ∧ lower = true := by
  rw [vddTarget_eq] at h ⊢
  cases lower
  · simp only [Bool.false_eq_true, if_false] at h
    split at h <;> omega
  · simp only [if_true] at h ⊢
    split at h
    · rw [if_pos ‹_›]
      exact ⟨by omega, trivial⟩
    · omega

/-- A request that is lower than a value in whole steps is lower by one step, and its target is lower too. -/
theorem avsValue_lowers {v cur : Nat} (hcur : cur % 5 = 0) (htop : cur ≤ 850) (hstep : v < cur → cur ≤ v + 5) (h : avsValue v < cur) :
    v < cur ∧ avsValue v + 5 = cur := by
  unfold avsValue at *
  omega

theorem avsValue_floor {v : Nat} (h : 680 ≤ v) : 680 ≤ avsValue v := by
  unfold avsValue
  omega

theorem policyValue_floor {d : Nat} {s : State} (h : belowFloorAllowed s d = false) (mvPower mvRate mvFloor : Nat) :
    680 ≤ policyValue d mvPower mvRate mvFloor s := by
  unfold policyValue
  rw [h]
  exact vddTarget_floor ..

theorem of_lowerNow {d : Nat} {s : State} (h : lowerNow d s = true) {at_ : Nat} (hat : tabFind d s.plat.loweredAt = some at_) :
    s.now ≥ at_ + 1000000 := by
  unfold lowerNow at h
  rw [hat] at h
  exact of_decide_eq_true h

/-! ### AVSBus transactions -/

theorem not_not_firmware {s : State} (h : s.firmware = true) : ¬(!s.firmware) = true := by
  rw [h]
  decide

/-- A confirmed transaction (R604). -/
def avsConfirmed (d mv : Nat) (s : State) : State :=
  { s with plat := { s.plat with vddCore := tabSet d mv s.plat.vddCore, avsFails := tabDel d s.plat.avsFails } }.setReg rsetPage
    Rg.rsetSupplyStatusAvsFault (s.reg rsetPage Rg.rsetSupplyStatusAvsFault -
      (if (s.reg rsetPage Rg.rsetSupplyStatusAvsFault).testBit d then 2 ^ d else 0))

/-- A first or second failure in a row. -/
def avsFailed (d : Nat) (s : State) : State :=
  { s with plat := { s.plat with avsFails := tabSet d (tabGet 0 d s.plat.avsFails + 1) s.plat.avsFails } }

/-- The regulator is at fault: the last confirmed value is assumed. -/
def avsAssumed (d : Nat) (s : State) : State :=
  { s with plat := { s.plat with avsFails := tabDel d s.plat.avsFails, vddRequest := tabSet d (vddOf s d) s.plat.vddRequest } }.setReg rsetPage
    Rg.rsetSupplyStatusAvsFault (s.reg rsetPage Rg.rsetSupplyStatusAvsFault ||| 2 ^ d)

/-- The third failure in a row. -/
def avsFault (d : Nat) (s : State) : State := ((avsAssumed d s).error rsetPage 0x0904 d 0).raise rsetPage 3

theorem exec_avsTransaction_ok {s : State} (h : s.firmware = true) (die : Fin 4) (mv : Nat) :
    exec (.avsTransaction die mv true) s = .next (avsConfirmed die.val mv s) :=
  congrArg Host.Outcome.next ((if_neg (not_not_firmware h)).trans (if_pos rfl))

theorem exec_avsTransaction_failed {s : State} (h : s.firmware = true) (die : Fin 4) (mv : Nat) :
    exec (.avsTransaction die mv false) s = .next (if tabGet 0 die.val s.plat.avsFails + 1 < 3 then avsFailed die.val s else avsFault die.val s) :=
  congrArg Host.Outcome.next ((if_neg (not_not_firmware h)).trans (if_neg (by decide)))

theorem reg_avsFault {d : Nat} (hd : d < 4) (s : State) : ((avsFault d s).reg rsetPage Rg.rsetSupplyStatusAvsFault).testBit d = true := by
  unfold avsFault avsAssumed
  rw [State.reg_raise_off _ (offHeader_same (by decide)), State.reg_error_off _ (offHeader_same (by decide)), State.reg_setReg_same,
    show Rg.rsetSupplyStatusAvsFault.len = 4 from rfl, Nat.testBit_mod_two_pow, Nat.testBit_or, Nat.testBit_two_pow_self, Bool.or_true]
  exact Bool.and_eq_true_iff.mpr ⟨decide_eq_true hd, rfl⟩

theorem avsFault_plat (d : Nat) (s : State) : (avsFault d s).plat =
    { s.plat with avsFails := tabDel d s.plat.avsFails, vddRequest := tabSet d (vddOf s d) s.plat.vddRequest } := by
  unfold avsFault
  rw [State.raise_plat, State.error_plat]
  rfl

theorem vddRequested_avsFault (d : Nat) (s : State) : vddRequested (avsFault d s) d = vddOf s d := by
  unfold vddRequested
  rw [avsFault_plat]
  exact tabGet_set_same ..

/-! ### The clock, the junctions and VBAT -/

/-- The state when REFCLK_A is lost (R37). -/
def clockLost (s : State) : State :=
  { s with plat := { s.plat with clockHold := true }, mem := { s.mem with hbm := {} }, host := { s.host with linkUp := false } }.setReg
    rsetPage Rg.rsetBringupRefclkOk 0

theorem exec_refclkALoss {s : State} (h : s.alive = true) : exec .refclkALoss s = .next (clockLost s) := congrArg Host.Outcome.next (if_pos h)

/-- A junction sample (R585, R607). -/
def sampled (d degrees : Nat) (s : State) : State := { s with plat := { s.plat with junctions := tabPut 0 d degrees s.plat.junctions } }

/-- A trip at 115 °C or above. -/
def tripped (t : State) : State :=
  let hold := t.working
  { t with
    plat := { t.plat with thermN := true, thermalHold := t.plat.thermalHold || hold }
    out := t.out ++ (if hold && t.flag raspPage Rg.raspTwinControlEnable then [.fail] else [])
    twin := { t.twin with failSent := t.twin.failSent || (hold && t.flag raspPage Rg.raspTwinControlEnable) } }

theorem exec_thermalTrip (die : Fin 10) (degrees : Nat) (s : State) : exec (.thermalTrip die degrees) s =
    .next (if degrees ≥ 115 ∧ s.plat.phase ≠ .railsDown then tripped (sampled die.val degrees s) else sampled die.val degrees s) := rfl

/-- VBAT is low, or is not (R609). -/
def vbatSeen (low : Bool) (s : State) : State :=
  (s.setReg rsetPage Rg.rsetSupplyStatusVbatLow (bit low)).raiseBits rsetPage (if low && !s.flag rsetPage Rg.rsetSupplyStatusVbatLow then 4 else 0)

theorem exec_vbatLow {s : State} (h : s.alive = true) (low : Bool) : exec (.vbatLow low) s = .next (vbatSeen low s) := congrArg Host.Outcome.next (if_pos h)

theorem reg_vbatSeen (low : Bool) (s : State) : (vbatSeen low s).reg rsetPage Rg.rsetSupplyStatusVbatLow = bit low := by
  unfold vbatSeen
  rw [State.reg_raiseBits_off _ (offHeader_same (by decide)), State.reg_setReg_same]
  cases low <;> rfl

theorem vbatSeen_raises {s : State} (h : s.flag rsetPage Rg.rsetSupplyStatusVbatLow = false) :
    ((vbatSeen true s).reg rsetPage Rg.pageIntStatus).testBit 2 = true := by
  unfold vbatSeen
  rw [h]
  exact raised_bit _ rsetPage 2 (by decide)

end Sys2Proof.Machine
end

section
/-! SUPPORT. O43, a case per event. -/

namespace Sys2Proof.Machine

theorem vddCoreStepUp_runs {die : Fin 4} {s : State} (h : canVddCoreStepUp die s = true) : Runs (.vddCoreStepUp die) s fun t =>
    t.out = s.out ++ [.avs die.val (avsValue (vddRequested s die.val + 5))] ∧ t.plat.stepDue = s.plat.stepDue.erase die.val := by
  simp only [canVddCoreStepUp, Bool.and_eq_true] at h
  refine ⟨_, congrArg Host.Outcome.next ((if_pos h).trans (requestVdd_firmware ?_ ..)), rfl, rfl⟩
  exact h.2

theorem vddCorePolicy_runs {s : State} (h : s.firmware = true) (die : Fin 4) (mvPower mvRate mvFloor : Nat) :
    Runs (.vddCorePolicy die mvPower mvRate mvFloor) s fun t =>
    t.regs = s.regs ∧ ∃ v, t.out = s.out ++ [.avs die.val v] ∧ 600 ≤ v ∧ v ≤ 850 ∧ v % 5 = 0 ∧ tabGet 0 die.val t.plat.vddRequest = v ∧
    (belowFloorAllowed s die.val = false → 680 ≤ v) ∧
    (vddRequested s die.val % 5 = 0 → vddRequested s die.val ≤ 850 → v < vddRequested s die.val → v + 5 = vddRequested s die.val ∧
      tabFind die.val t.plat.loweredAt = some s.now ∧ ∀ at_, tabFind die.val s.plat.loweredAt = some at_ → s.now ≥ at_ + 1000000) := by
  refine ⟨_, exec_vddCorePolicy h die mvPower mvRate mvFloor, noteLowered_regs .., avsValue (policyValue die.val mvPower mvRate mvFloor s), ?_⟩
  obtain ⟨hlow, hhigh, hstep⟩ := avsValue_range (policyValue die.val mvPower mvRate mvFloor s)
  refine ⟨noteLowered_out .., hlow, hhigh, hstep, ?_, fun hfloor => avsValue_floor (policyValue_floor hfloor ..), fun hcur htop hless => ?_⟩
  · rw [noteLowered_vddRequest]
    exact tabGet_set_same ..
  · obtain ⟨hlower, hone⟩ := avsValue_lowers hcur htop (fun hv => (vddTarget_lowers hv).1) hless
    exact ⟨hone, noteLowered_loweredAt hlower .., fun at_ hat => of_lowerNow (vddTarget_lowers hlower).2 hat⟩

/-- Settles O43: each event by its equation, and its effects by the lemmas about the state it leads to. -/
theorem powerAndResetComplete : Obligations.PowerAndResetComplete := by
  unfold Obligations.PowerAndResetComplete
  refine ⟨?powerOn, ?supplyDrop, ?resetAccept, ?resetRelease, ?bringupStart, ?refclkAPresent, ?hotWaitEnd, ?bringupDone, ?refclkALoss,
    ?thermalTrip, ?vddCoreStepUp, ?vddCorePolicy, ?avsTransaction, ?vbatLow⟩
  case powerOn =>
    intro vbatHeld s h
    obtain ⟨hcause, hfresh, hcount⟩ := reg_acceptReset 1 (by decide) vbatHeld s
    exact ⟨_, congrArg Host.Outcome.next (if_pos (of_decide_eq_true h)), rfl, hcause, hfresh, hcount, rfl, rfl⟩
  case supplyDrop =>
    intro rail ns s h
    simp only [canSupplyDrop, Bool.and_eq_true, decide_eq_true_eq, bne_iff_ne] at h
    exact ⟨_, congrArg Host.Outcome.next (if_pos h), rfl, rfl, rfl, rfl, rfl⟩
  case resetAccept =>
    intro lowNs since arb s h
    obtain ⟨hcause, -, hcount⟩ := reg_acceptReset 2 (by decide) true s
    exact ⟨_, congrArg Host.Outcome.next (if_pos h), rfl, hcause, rfl, rfl, rfl, hcount⟩
  case resetRelease =>
    intro netHigh s h
    simp only [canResetRelease, Bool.or_eq_true, beq_iff_eq] at h
    exact ⟨_, congrArg Host.Outcome.next (if_pos h), rfl, rfl⟩
  case bringupStart =>
    intro env s h
    exact ⟨_, exec_bringupStart (of_decide_eq_true h), congrArg Prod.fst (afterStep1_waits (bringupBegun env s)), reg_bringupStart_step env s⟩
  case refclkAPresent =>
    intro s h
    refine ⟨_, exec_refclkAPresent h, congrArg (fun w => w.2.1) (afterStep1_waits (refclkSeen s)), fun hhot => ?_, fun hhot => ?_⟩
    · exact afterStep1_done hhot
    · rw [afterStep1_waiting (s := refclkSeen s) hhot]
      exact ⟨State.reg_setReg_same .., rfl⟩
  case hotWaitEnd =>
    intro s h
    refine ⟨_, exec_hotWaitEnd h, congrArg (fun w => w.2.2) (afterStep1_waits (hotOver s)), fun hclock => ?_, fun hclock => ?_⟩
    · exact afterStep1_done ((Bool.or_false _).trans hclock)
    · rw [afterStep1_waiting (s := hotOver s) ((Bool.or_false _).trans hclock)]
      exact ⟨State.reg_setReg_same .., rfl⟩
  case bringupDone =>
    intro s h
    have hstage := serviceReady_stage s
    refine ⟨_, exec_bringupDone h, ?_, ?_, ?_, ?_⟩
    · rw [State.raise_plat]
      exact congrArg Prod.fst hstage
    · rw [State.reg_raise_off _ (offHeader_same (by decide))]
      exact State.reg_setReg_same ..
    · rw [State.reg_raise_off _ (offHeader_same (by decide)), State.reg_setReg_other _ (fieldBit_ne (by decide))]
      exact State.reg_setReg_same ..
    · rw [State.raise_plat]
      exact congrArg Prod.snd hstage
  case refclkALoss => exact fun s h => ⟨_, exec_refclkALoss h, rfl, rfl, rfl, State.reg_setReg_same .., rfl⟩
  case thermalTrip =>
    intro die degrees s
    refine ⟨_, exec_thermalTrip die degrees s, ?_, fun hhot hrails => ?_, fun hcool => ?_⟩
    · exact ite_prop (fun u : State => tabGet 0 die.val u.plat.junctions = degrees) (fun _ => tabGet_put_same ..) (fun _ => tabGet_put_same ..)
    · rw [if_pos ⟨hhot, hrails⟩]
      refine ⟨rfl, fun hworking => ?_⟩
      show (s.plat.thermalHold || s.working) = true
      rw [hworking, Bool.or_true]
    · rw [if_neg (by omega)]
      exact ⟨rfl, rfl, rfl⟩
  case vddCoreStepUp => exact fun die s h => vddCoreStepUp_runs h
  case vddCorePolicy => exact fun die mvPower mvRate mvFloor s h => vddCorePolicy_runs h die mvPower mvRate mvFloor
  case avsTransaction =>
    intro die mv ok s h
    cases ok
    · refine ⟨_, exec_avsTransaction_failed h die mv, nofun, fun _ hfew => ?_, fun _ hmany => ?_⟩
      · rw [if_pos (by omega)]
        exact ⟨tabGet_set_same .., rfl⟩
      · rw [if_neg (by omega)]
        refine ⟨reg_avsFault die.isLt s, ?_, vddRequested_avsFault die.val s⟩
        rw [avsFault_plat]
        exact tabFind_del_same ..
    · exact ⟨_, exec_avsTransaction_ok h die mv, fun _ => ⟨tabGet_set_same .., tabFind_del_same ..⟩, nofun, nofun⟩
  case vbatLow =>
    intro low s h
    refine ⟨_, exec_vbatLow h low, reg_vbatSeen low s, ?_, (State.raiseBits_only ..).plat rfl⟩
    rintro rfl hwas
    exact vbatSeen_raises hwas

end Sys2Proof.Machine
end

section
/-! SUPPORT. An instruction between registers (R87, R133, R135, R150, R193, R522): the words that its fetch corrects read as before, and what
it does beside its own core or signal core. -/

namespace Sys2Proof.Machine

/-! ### Correcting words does not change what memory reads -/

theorem tabGet_foldl_del {α : Type} (d : α) (k : Nat) (ws : List Nat) (m : Table α) :
    tabGet d k (ws.foldl (fun f w => tabDel w f) m) = if k ∈ ws then d else tabGet d k m := by
  induction ws generalizing m with
  | nil => simp
  | cons w ws ih =>
    rw [List.foldl_cons, ih]
    by_cases hk : k = w
    · subst hk
      simp [tabGet]
    · simp [tabGet, hk, tabFind_del_other hk]

/-- A codeword without a flipped bit is within what its code corrects (R520). -/
theorem flipsBad_zero (r : Region) : flipsBad r 0 = false := by
  have hbits : popcount 72 0 = 0 := by simp [popcount]
  have hsymbols : badSymbols 0 = 0 := by simp [badSymbols]
  cases r <;> simp [flipsBad, hbits, hsymbols]

/-- A memory with the flipped bits of some codewords corrected. -/
def corrected (ws : List Nat) (m : Memory) : Memory := { m with flips := ws.foldl (fun f w => tabDel w f) m.flips }

theorem cwBad_corrected {r : Region} {m : Memory} {ws : List Nat} (h : ∀ w ∈ ws, cwBad r m w = false) (w : Nat) :
    cwBad r (corrected ws m) w = cwBad r m w := by
  have hcells : (corrected ws m).cells = m.cells := rfl
  have hflips : tabGet 0 w (corrected ws m).flips = if w ∈ ws then 0 else tabGet 0 w m.flips := tabGet_foldl_del ..
  by_cases hw : w ∈ ws
  · have hgood := h w hw
    unfold cwBad at hgood ⊢
    rw [Bool.or_eq_false_iff] at hgood
    rw [hflips, if_pos hw, hcells, flipsBad_zero, hgood.1]
  · unfold cwBad
    rw [hflips, if_neg hw, hcells]

theorem readByte_corrected {r : Region} {m : Memory} {ws : List Nat} (h : ∀ w ∈ ws, cwBad r m w = false) (a : Nat) :
    readByte r (corrected ws m) a = readByte r m a := by
  unfold readByte
  rw [cwBad_corrected h]
  rfl

theorem memory_of_setRegion {s t : State} {r : Region} {m : Memory} (h : t.mem = setRegion r m s.mem) (q : Region) :
    t.memory q = if q = r then m else s.memory q := by
  unfold State.memory
  rw [h]
  cases r <;> cases q <;> rfl

theorem byteSame_readWords_good {s : State} {r : Region} {ws : List Nat} (h : ws.all (fun w => !cwBad r (s.memory r) w) = true)
    (q : Region) (n : Nat) : ByteSame q n s (s.readWords r ws) := by
  let fixed := ws.filter fun w => tabGet 0 w (s.memory r).flips != 0 && !cwBad r (s.memory r) w
  have hgood : ∀ w ∈ fixed, cwBad r (s.memory r) w = false := by
    intro w hw
    simpa using List.all_eq_true.mp h w (List.mem_of_mem_filter hw)
  have hmem : (s.readWords r ws).mem = setRegion r (corrected fixed (s.memory r)) s.mem := by
    rw [readWords_good h]
    rfl
  unfold ByteSame
  rw [memory_of_setRegion hmem]
  split
  case isTrue hq => rw [hq, readByte_corrected hgood]
  case isFalse => rfl

/-! ### The fetch -/

/-- The fetch of an instruction that executes reads good words of one memory. -/
theorem fetchAgent_good {s : State} {a : Agent} {sp : Nat → Bool} (h : agentRuns s a sp = true) :
    ∃ r ws, fetchAgent a s = s.readWords r ws ∧ ws.all (fun w => !cwBad r (s.memory r) w) = true := by
  cases a with
  | core c => exact ⟨_, _, rfl, (Bool.and_eq_true_iff.mp (coreRuns_executes h)).2⟩
  | sigc k => exact ⟨_, _, rfl, (Bool.and_eq_true_iff.mp (show sigcExecutes s k = true from h)).2⟩

theorem reg_fetchAgent_notEccCount {s : State} {a : Agent} {sp : Nat → Bool} (h : agentRuns s a sp = true) {p : Page} {f : RegField} {i : Nat}
    (he : notEccCount p f i) : (fetchAgent a s).reg p f i = s.reg p f i := by
  obtain ⟨r, ws, e, hgood⟩ := fetchAgent_good h
  rw [e]
  exact reg_readWords_good hgood he.1 he.2

/-- A change of cores, signal cores, registers and the count of used free values is one of those parts. -/
theorem Only.eq_between {s t : State} (h : Only 2572 s t) :
    t = { s with cores := t.cores, sigcs := t.sigcs, regs := t.regs, freeIx := t.freeIx } := by
  obtain ⟨⟩ := t
  simp only [State.mk.injEq, true_and]
  exact ⟨h.pending, h.out rfl, h.latches rfl, h.resets rfl, h.plat rfl, h.fuses rfl, h.time rfl, h.fabric rfl, h.sems rfl, h.ctxs rfl,
    h.tier rfl, h.coding rfl, h.parts rfl, h.radio rfl, h.serve rfl, h.records rfl, h.eth rfl, h.mem rfl,
    h.host rfl, h.mgmt rfl, h.power rfl, h.ras rfl, h.twin rfl, h.salt rfl⟩

/-- An instruction that after its fetch changes only cores, signal cores, registers and the count of used free values, and of the cores and
signal cores only its own, leaves memory and the others as they are. -/
theorem memoryAndOthersSame_of_fetch {s t : State} {a : Agent} {sp : Nat → Bool} (h : agentRuns s a sp = true)
    (ho : Only 2572 (fetchAgent a s) t) (hs : OthersSame a s t) : MemoryAndOthersSame a s t := by
  obtain ⟨r, ws, e, hgood⟩ := fetchAgent_good h
  rw [e] at ho
  have hmem : t.mem = (s.readWords r ws).mem := ho.mem rfl
  have hmemory : ∀ q, t.memory q = (s.readWords r ws).memory q := fun q => by
    unfold State.memory
    rw [hmem]
  refine ⟨?_, hs, fun q n => ?_⟩
  · calc t = { s.readWords r ws with cores := t.cores, sigcs := t.sigcs, regs := t.regs, freeIx := t.freeIx } := ho.eq_between
      _ = { s with cores := t.cores, sigcs := t.sigcs, mem := (s.readWords r ws).mem, regs := t.regs, freeIx := t.freeIx } := by
        rw [readWords_good hgood]
      _ = _ := by rw [hmem]
  · have hb := byteSame_readWords_good hgood q n
    unfold ByteSame at hb ⊢
    rw [hmemory, hb]

theorem MemoryAndOthersSame.usedFree {a : Agent} {s t : State} (h : MemoryAndOthersSame a s t) (n : Nat) :
    MemoryAndOthersSame a s (t.usedFree n) := by
  obtain ⟨hparts, hothers, hbytes⟩ := h
  exact ⟨congrArg (State.usedFree · n) hparts, hothers, hbytes⟩

/-! ### The sticky flags -/

theorem reg_orFlags_other {c : Fin 160} {p : Page} {f : RegField} {i : Nat} (h : notArithFlag (.core c) p f i) (n : Nat) (s : State) :
    (orFlags c n s).reg p f i = s.reg p f i := by
  obtain ⟨hsat, hovf, hcode, hpoison⟩ := h
  unfold orFlags putFlags
  rw [State.reg_setReg_other _ hpoison, State.reg_setReg_other _ hcode, State.reg_setReg_other _ hovf, State.reg_setReg_other _ hsat]

theorem reg_sFlags_other {k : Fin 64} {p : Page} {f : RegField} {i : Nat} (h : notArithFlag (.sigc k) p f i) (sat poison : Bool) (s : State) :
    (sFlags k sat poison s).reg p f i = s.reg p f i := by
  obtain ⟨hsat, hpoison⟩ := h
  unfold sFlags
  rw [State.reg_setReg_other _ hpoison, State.reg_setReg_other _ hsat]

/-! ### Scalar and branch instructions -/

/-- A legal scalar instruction that does not divide by zero does no more than set its core. -/
theorem scalarBody_plain {c : Nat} {insn : ScalarInsn} {s : State} (h : scalarPlain (s.core c) insn = true) :
    ∃ x, scalarBody c insn s = s.setCore c x := by
  cases insn with
  | op o rd ra b => exact ⟨_, if_neg (by simpa [scalarPlain] using h)⟩
  | select rd rc ra b => exact ⟨_, rfl⟩
  | clz rd ra => exact ⟨_, rfl⟩
  | illegal word => cases h

/-- A legal branch to an aligned address does no more than set its core. -/
theorem branchBody_plain {c : Nat} {insn : BranchInsn} {s : State} (h : branchPlain (s.core c) insn = true) :
    ∃ x, branchBody c insn s = s.setCore c x := by
  cases insn with
  | cond k ra rb target => exact ⟨_, rfl⟩
  | jump target => exact ⟨_, rfl⟩
  | jumpLink rd target => exact ⟨_, rfl⟩
  | indirect ra => exact ⟨_, if_neg (not_not_intro (of_decide_eq_true h))⟩
  | illegal word => cases h

theorem othersSame_setCore (c : Fin 160) (x : Core) (s : State) : OthersSame (.core c) s ((fetchCore c s).setCore c x) := by
  refine ⟨fun d hd => ?_, fun j _ => ?_⟩
  · rw [State.core_setCore_other _ (hd c rfl), fetchCore_core]
  · rw [State.sigc_setCore]
    exact fetchAgent_sigc (.core c) j s

/-- What an instruction leaves that after its fetch sets its core alone. -/
theorem setCore_frame {s : State} {c : Fin 160} {sp : Nat → Bool} (h : coreRuns s c sp = true) (x : Core) :
    let t := (fetchCore c s).setCore c x
    MemoryAndOthersSame (.core c) s t ∧ t.freeIx = s.freeIx ∧ ∀ p f i, notEccCount p f i → t.reg p f i = s.reg p f i := by
  refine ⟨memoryAndOthersSame_of_fetch (a := .core c) h ((State.setCore_only ..).mono rfl) (othersSame_setCore c x s), ?_, fun p f i he => ?_⟩
  · exact (fetchCore_only c s).freeIx rfl
  · rw [State.reg_setCore]
    exact reg_fetchAgent_notEccCount (a := .core c) h he

/-! ### Vector instructions -/

/-- What a vector instruction between registers of a core leaves as it is. -/
def VectorFrame (c : Fin 160) (s t : State) : Prop :=
  MemoryAndOthersSame (.core c) s t ∧ ∀ p f i, notEccCount p f i → notArithFlag (.core c) p f i → t.reg p f i = s.reg p f i

theorem VectorFrame.usedFree {c : Fin 160} {s t : State} (h : VectorFrame c s t) : VectorFrame c s t.usedFree :=
  ⟨h.1.usedFree 1, h.2⟩

theorem vWrite_frame {s : State} {c : Fin 160} {sp : Nat → Bool} (h : coreRuns s c sp = true) (vd : Fin 32) (r : VReg × Nat) :
    VectorFrame c s (vWrite c vd r (fetchCore c s)) := by
  obtain ⟨-, hothers, -⟩ := vwrote h vd r
  refine ⟨memoryAndOthersSame_of_fetch (a := .core c) h ((vWrite_only ..).mono rfl) hothers, fun p f i he hf => ?_⟩
  calc (vWrite c vd r (fetchCore c s)).reg p f i = (fetchCore c s).reg p f i := reg_orFlags_other hf ..
    _ = s.reg p f i := reg_fetchAgent_notEccCount (a := .core c) h he

/-- What an instruction leaves that after its fetch writes a d register with its flags. -/
theorem dWrite_frame {s : State} {k : Fin 64} (h : sigcExecutes s k = true) (dd : Fin 64) (vals : List (ExactVal × Bool)) :
    let t := dWrite k dd vals (fetchSigc k s)
    MemoryAndOthersSame (.sigc k) s t ∧ t.freeIx = s.freeIx ∧
      ∀ p f i, notEccCount p f i → notArithFlag (.sigc k) p f i → t.reg p f i = s.reg p f i := by
  have hruns : agentRuns s (.sigc k) (fun _ => true) = true := h
  obtain ⟨-, hothers, -⟩ := dwrote k dd vals s
  refine ⟨memoryAndOthersSame_of_fetch hruns ((dWrite_only ..).mono rfl) hothers, ?_, fun p f i he hf => ?_⟩
  · exact ((dWrite_only ..).freeIx rfl).trans ((fetchSigc_only k s).freeIx rfl)
  · calc (dWrite k dd vals (fetchSigc k s)).reg p f i = (fetchSigc k s).reg p f i := reg_sFlags_other hf ..
      _ = s.reg p f i := reg_fetchAgent_notEccCount hruns he

/-! ### The statement -/

theorem coreRuns_of {s : State} {c : Nat} {sp : Nat → Bool} (h : coreExecutes s c = true) (hw : sp (wordAt s c) = true) :
    coreRuns s c sp = true := Bool.and_eq_true_iff.mpr ⟨h, hw⟩

/-- An instruction of a core that executes it leads to what its body makes of the state after the fetch. -/
theorem Runs.of_runInsn {i : Instr} {s : State} {c : Nat} {sp : Nat → Bool} {body : State → State} {p : State → Prop}
    (h : coreRuns s c sp = true) (he : exec i s = .next (runInsn c sp body s)) (hp : p (body (fetchCore c s))) : Runs i s p :=
  ⟨_, he.trans (congrArg _ (runInsn_runs h body)), hp⟩

theorem Runs.of_runSInsn {i : Instr} {s : State} {k : Nat} {body : State → State} {p : State → Prop}
    (h : sigcExecutes s k = true) (he : exec i s = .next (runSInsn k body s)) (hp : p (body (fetchSigc k s))) : Runs i s p :=
  ⟨_, he.trans (congrArg _ (runSInsn_runs h body)), hp⟩

/-- Settles O14: after the fetch, whose corrected words read as before, a scalar or branch instruction sets its core, and a vector one ends in
vWrite or dWrite; each of the three has its frame. -/
theorem registerInstructionsChangeOnlyTheirCore : Obligations.RegisterInstructionsChangeOnlyTheirCore := by
  unfold Obligations.RegisterInstructionsChangeOnlyTheirCore
  refine ⟨fun c s hc => ⟨?scalar, ?branch, ?elementwise, ?shiftCompare, ?requantize, ?permute⟩, ?dRegisters⟩
  case scalar =>
    intro insn hw hplain
    have h := coreRuns_of hc hw
    obtain ⟨x, hbody⟩ := scalarBody_plain (s := fetchCore c s) (insn := insn) (by rwa [fetchCore_core])
    refine Runs.of_runInsn h rfl ?_
    rw [hbody]
    exact setCore_frame h x
  case branch =>
    intro insn hw hplain
    have h := coreRuns_of hc hw
    obtain ⟨x, hbody⟩ := branchBody_plain (s := fetchCore c s) (insn := insn) (by rwa [fetchCore_core])
    refine Runs.of_runInsn h rfl ?_
    rw [hbody]
    exact setCore_frame h x
  case elementwise =>
    intro op vd va vb lane hw
    have h := coreRuns_of hc hw
    exact Runs.of_runInsn h rfl (vWrite_frame h ..)
  case shiftCompare =>
    intro op vd va vb lane hw
    have h := coreRuns_of hc hw
    exact Runs.of_runInsn h rfl (vWrite_frame h ..)
  case requantize =>
    intro op vd va vb lane target hw
    have h := coreRuns_of hc hw
    exact Runs.of_runInsn h rfl (vWrite_frame h ..).usedFree
  case permute =>
    intro op vd va vb lane hw
    have h := coreRuns_of hc hw
    exact Runs.of_runInsn h rfl (vWrite_frame h ..)
  case dRegisters =>
    intro k dd da db s hk i hi
    obtain ⟨op, rfl⟩ | ⟨op, rfl⟩ | ⟨op, rfl⟩ := hi
    · exact Runs.of_runSInsn hk rfl (dWrite_frame hk ..)
    · exact Runs.of_runSInsn hk rfl (dWrite_frame hk ..)
    · exact Runs.of_runSInsn hk rfl (dWrite_frame hk ..)

end Sys2Proof.Machine
end

section
/-! SUPPORT. Array passes, tile loads, the probe and the repairs (R95, R96, R100, R101, R116, R123, R128). -/

namespace Sys2Proof.Machine

/-- A change that touches no core leaves every core as it is. -/
theorem Only.core_same {m : Nat} {s t : State} (h : Only m s t) (hm : m.testBit 9 = false) (d : Nat) : t.core d = s.core d := by
  unfold State.core
  rw [h.cores hm]

/-! ### The start of a pass and of a load -/

/-- The core as a pass reaches wave 0: with SWAP the tiles of its members are exchanged (R101). -/
def swapped (q : ArrayCmd) (x : Core) : Core :=
  if (passDesc q.desc).swap then q.members.foldl (fun y a => swapTiles a y) x else x

/-- The core whose queue holds the pass at position i as started, with what it delivers (R95). -/
def passBegun (c i : Nat) (q : ArrayCmd) (defects : List Nat) (s : State) : Core :=
  { swapped q (s.core c) with arrayQueue := (swapped q (s.core c)).arrayQueue.set i { q with
    started := true
    rows := (formPass (s.setCore c (swapped q (s.core c))) c (passDesc q.desc) q.members defects).1
    flags := (formPass (s.setCore c (swapped q (s.core c))) c (passDesc q.desc) q.members defects).2 } }

/-- The core whose queue holds the load at position i as started, with the tile that it writes (R100). -/
def loadBegun (c i : Nat) (q : ArrayCmd) (s : State) : Core :=
  { s.core c with arrayQueue := (s.core c).arrayQueue.set i { q with started := true, tile := formTile s c q.desc } }

/-- A pass that may start leaves its core as passBegun says; the rest is counting and reading (R95). -/
theorem exec_arrayPassStart {c : Fin 160} {array : Fin 4} {defects : List Nat} {s : State} {i : Nat} {q : ArrayCmd}
    (hnext : nextCmd (s.core c) true array.val = some (i, q)) (hrun : (enginesRun s c && mayStart (s.core c) i q) = true)
    (hfence : q.members.any (s.reg (corePage c) Rg.coreArrayStateArrayFenced).testBit = false)
    (horder : orderFault (s.core c) (passDesc q.desc) q.members = none) :
    ∃ t, exec (.arrayPassStart c array defects) s = .next t ∧ t.core c = passBegun c i q defects s := by
  change ∃ t, execArrayPassStart c array defects s = .next t ∧ _
  unfold execArrayPassStart
  simp only [hnext, hrun, hfence, horder]
  refine ⟨_, rfl, ?_⟩
  rw [if_neg (by decide), if_neg (by decide), (countBank_only ..).core_same rfl, (countParity_only ..).core_same rfl,
    (State.readWords_only ..).core_same rfl]
  exact State.core_setCore_same ..

/-- A load that may start leaves its core as loadBegun says; the rest is reading (R100). -/
theorem exec_tileLoadStart {c : Fin 160} {array : Fin 4} {s : State} {i : Nat} {q : ArrayCmd}
    (hnext : nextCmd (s.core c) false array.val = some (i, q)) (hrun : (enginesRun s c && mayStart (s.core c) i q) = true)
    (hfence : q.members.any (s.reg (corePage c) Rg.coreArrayStateArrayFenced).testBit = false) :
    ∃ t, exec (.tileLoadStart c array) s = .next t ∧ t.core c = loadBegun c i q s := by
  change ∃ t, execTileLoadStart c array s = .next t ∧ _
  unfold execTileLoadStart
  simp only [hnext, hrun, hfence]
  refine ⟨_, rfl, ?_⟩
  rw [if_neg (by decide), if_neg (by decide), State.core_usedFree, (State.readWords_only ..).core_same rfl]
  exact State.core_setCore_same ..

/-! ### The end of a pass and of a load -/

/-- The command at position i of the queue of x is gone in y, and its tag is done (R96, R100, R140). -/
structure CmdEnded (i : Nat) (q : ArrayCmd) (x y : Core) : Prop where
  queue : y.arrayQueue = x.arrayQueue.eraseIdx i
  tag : ∀ n, q.tag = some n → tagOf y n = some (.done false)

/-- A change that keeps the queue and the tags leaves the command ended. -/
theorem CmdEnded.of_same {i : Nat} {q : ArrayCmd} {x y z : Core} (h : CmdEnded i q x y) (hq : z.arrayQueue = y.arrayQueue)
    (ht : z.tags = y.tags) : CmdEnded i q x z :=
  ⟨hq.trans h.queue, fun n hn => (congrArg (tabFind n) ht).trans (h.tag n hn)⟩

/-- Taking the command from the queue and finishing its tag ends it. -/
theorem cmdEnded_finishTag {i : Nat} {q : ArrayCmd} {x y : Core} (hq : y.arrayQueue = x.arrayQueue.eraseIdx i) :
    CmdEnded i q x (finishTag q.tag false y) :=
  ⟨(finishTag_queue ..).trans hq, fun _ hn => finishTag_done hn ..⟩

/-- Storing or recording the results of a pass changes no core (R77, R81). -/
theorem core_passResults (c : Nat) (q : ArrayCmd) (rows : List (List (BitVec 64))) (s : State) (d : Nat) :
    (if actStores (passDesc q.desc).action then storePass c q (passDesc q.desc) rows s
      else if actRecords (passDesc q.desc).action then recordPass c (passDesc q.desc) rows s else s).core d = s.core d := by
  split
  · exact (storePass_only ..).core_same rfl d
  · split
    · exact (recordPass_only ..).core_same rfl d
    · rfl

/-- A pass that has started ends, whatever its action and whether or not a fence met it (R96, R116). -/
theorem exec_arrayPassDone {c : Fin 160} {array : Fin 4} {stalls : List Nat} {s : State} {i : Nat} {q : ArrayCmd} (hwork : s.working = true)
    (hfound : (((s.core c).arrayQueue.mapIdx fun i q => (i, q)).find? fun e =>
      e.2.pass && e.2.started && e.2.members.head? == some array.val) = some (i, q)) :
    ∃ t, exec (.arrayPassDone c array stalls) s = .next t ∧ CmdEnded i q (s.core c) (t.core c) := by
  change ∃ t, execArrayPassDone c array stalls s = .next t ∧ _
  unfold execArrayPassDone
  simp only [hfound, hwork]
  refine ⟨_, rfl, ?_⟩
  rw [if_neg (by decide), State.core_usedFree, (countPass_only ..).core_same rfl, State.core_usedFree]
  refine CmdEnded.of_same ?_ (bankFlip_kept ..).1 (bankFlip_kept ..).2
  rw [(orFlags_only ..).core_same rfl, core_passResults, State.core_setCore_same]
  exact cmdEnded_finishTag (bankPass_queue ..)

/-- The core when a tile is loaded into the shadow of an array (R100). -/
def loadShadow (tile : Tile) (y : Core) (a : Nat) : Core :=
  { y with arrays := tabPut {} a { tabGet {} a y.arrays with shadow := tile } y.arrays }

theorem loadShadow_queue (tile : Tile) (members : List Nat) (x : Core) : (members.foldl (loadShadow tile) x).arrayQueue = x.arrayQueue :=
  foldl_keep (loadShadow tile) Core.arrayQueue (fun _ _ => rfl) members x

/-- After the load every member holds the tile in its shadow. -/
theorem shadow_loadShadow {tile : Tile} {a : Nat} {members : List Nat} (h : a ∈ members) (x : Core) :
    (tabGet {} a (members.foldl (loadShadow tile) x).arrays).shadow = tile := by
  induction members using List.reverseRecOn with
  | nil => cases h
  | append_singleton l b ih =>
    rw [List.foldl_append]
    by_cases hab : a = b
    · subst hab
      exact congrArg ArrayState.shadow (tabGet_put_same ..)
    · have hl : a ∈ l := (List.mem_append.mp h).resolve_right fun hb => hab (List.mem_singleton.mp hb)
      exact (congrArg ArrayState.shadow (tabGet_put_other _ _ hab ..)).trans (ih hl)

/-- A load that has started ends; where no fence met it and no injection is armed, every member holds its tile (R100, R116, R528). -/
theorem exec_tileLoadDone {c : Fin 160} {array : Fin 4} {s : State} {i : Nat} {q : ArrayCmd} (hwork : s.working = true)
    (hfound : (((s.core c).arrayQueue.mapIdx fun i q => (i, q)).find? fun e =>
      !e.2.pass && e.2.started && e.2.members.head? == some array.val) = some (i, q)) :
    ∃ t, exec (.tileLoadDone c array) s = .next t ∧ CmdEnded i q (s.core c) (t.core c) ∧
      (s.flag raspPage Rg.raspFlipControlArm = false → q.spoiled = false → ∀ a ∈ q.members, (tabGet {} a (t.core c).arrays).shadow = q.tile) := by
  change ∃ t, execTileLoadDone c array s = .next t ∧ _
  unfold execTileLoadDone
  simp only [hfound, hwork]
  refine ⟨_, rfl, ?_⟩
  rw [if_neg (by decide)]
  obtain ⟨hqueue, htags, hunarmed⟩ := tileFlip_kept c q.members _
  refine ⟨CmdEnded.of_same ?_ hqueue htags, fun harm hspoiled a ha => ?_⟩
  · rw [State.core_setCore_same]
    exact cmdEnded_finishTag (loadShadow_queue ..)
  · rw [hunarmed harm, State.core_setCore_same, finishTag_arrays, hspoiled]
    exact shadow_loadShadow ha _

/-! ### The probe and the repairs -/

/-- A probe that starts shows BUSY and the arrays that it tests (R123, R126). -/
theorem reg_startProbe (c mask : Nat) (s : State) : (startProbe c mask s).reg (corePage c) Rg.coreSkewProbeBusy = 1 ∧
    (startProbe c mask s).reg (corePage c) Rg.coreSkewProbeDone = mask % 16 := by
  unfold startProbe
  dsimp only
  rw [State.reg_modCore, State.reg_modCore]
  constructor
  · rw [State.reg_setReg_other _ (fieldBit_ne (by decide)), State.reg_setReg_other _ (fieldBit_ne (by decide))]
    exact State.reg_setReg_same ..
  · rw [State.reg_setReg_other _ (fieldBit_ne (by decide))]
    exact State.reg_setReg_same ..

/-! ### The statement -/

/-- Settles O19: a pass and a load start and end as the lemmas above say of the core, the probe shows the registers that it sets, and a repair
is the effect of a write that is taken. -/
theorem arrayCommandsComplete : Obligations.ArrayCommandsComplete := by
  unfold Obligations.ArrayCommandsComplete
  refine ⟨?passStart, ?passDone, ?loadStart, ?loadDone, ?probe, ?rowRepair, ?colRepair⟩
  case passStart =>
    intro c array defects s h
    obtain ⟨⟨i, q⟩, hnext, hcan⟩ := any_some h
    simp only [Bool.and_eq_true, Bool.not_eq_true', Option.isNone_iff_eq_none] at hcan
    obtain ⟨⟨hrun, hfence⟩, horder⟩ := hcan
    obtain ⟨t, ht, hcore⟩ := exec_arrayPassStart (defects := defects) hnext (Bool.and_eq_true_iff.mpr hrun) hfence horder
    exact ⟨t, ht, i, q, swapped q (s.core c), hnext, rfl, hcore⟩
  case passDone =>
    intro c array stalls s h
    obtain ⟨hwork, hsome⟩ := Bool.and_eq_true_iff.mp h
    obtain ⟨⟨i, q⟩, hfound⟩ := Option.isSome_iff_exists.mp hsome
    obtain ⟨t, ht, hended⟩ := exec_arrayPassDone (stalls := stalls) hwork hfound
    exact ⟨t, ht, i, q, hfound, hended.queue, hended.tag, (execArrayPassDone_only c array stalls s t ht).sems rfl⟩
  case loadStart =>
    intro c array s h
    obtain ⟨⟨i, q⟩, hnext, hcan⟩ := any_some h
    simp only [Bool.and_eq_true, Bool.not_eq_true'] at hcan
    obtain ⟨hrun, hfence⟩ := hcan
    obtain ⟨t, ht, hcore⟩ := exec_tileLoadStart hnext (Bool.and_eq_true_iff.mpr hrun) hfence
    exact ⟨t, ht, i, q, hnext, hcore⟩
  case loadDone =>
    intro c array s h
    obtain ⟨hwork, hsome⟩ := Bool.and_eq_true_iff.mp h
    obtain ⟨⟨i, q⟩, hfound⟩ := Option.isSome_iff_exists.mp hsome
    obtain ⟨t, ht, hended, htile⟩ := exec_tileLoadDone hwork hfound
    exact ⟨t, ht, i, q, hfound, hended.queue, hended.tag, htile⟩
  case probe =>
    intro who c value s h
    obtain ⟨htaken, hcan⟩ := Bool.and_eq_true_iff.mp h
    refine ⟨_, congrArg Host.Outcome.next (writeAccess_taken htaken), fun hselect => ?_, fun hstart => ?_⟩
    · exact if_pos (by rw [hselect]; rfl)
    · rw [hstart] at hcan ⊢
      dsimp only
      rw [if_neg (by decide), if_pos (by simpa using hcan)]
      obtain ⟨hbusy, hdone⟩ := reg_startProbe c (value.toNat % 16) (s.setReg (corePage c) Rg.coreSkewProbeSelect (value.toNat % 16))
      exact ⟨rfl, hbusy, hdone.trans (Nat.mod_mod ..)⟩
  case rowRepair =>
    intro who c array value s h
    obtain ⟨htaken, hrepair⟩ := Bool.and_eq_true_iff.mp h
    exact ⟨_, congrArg Host.Outcome.next ((writeAccess_taken htaken).trans (if_pos hrepair)), rfl⟩
  case colRepair =>
    intro who c array value s h
    obtain ⟨hand, hclash⟩ := Bool.and_eq_true_iff.mp h
    obtain ⟨htaken, hrepair⟩ := Bool.and_eq_true_iff.mp hand
    exact ⟨_, congrArg Host.Outcome.next ((writeAccess_taken htaken).trans (if_pos ⟨hrepair, hclash⟩)), rfl⟩

end Sys2Proof.Machine
end

section
/-! SUPPORT. What an access of one memory leaves of the others and of its readable bytes (R133, R521, R522, R631), and precise traps of both
kinds of cores (R182 to R184, R210). -/

namespace Sys2Proof.Machine

/-! ### Reads, good and bad -/

theorem detectBad_mem_same (r : Region) (w : Nat) (s : State) : (detectBad r w s).mem = s.mem := (detectBad_only r w s).mem rfl

/-- A read corrects flipped bits of good words of its memory, and changes no other memory. -/
theorem mem_readWords (s : State) (r : Region) (ws : List Nat) :
    ∃ fixed, (∀ w ∈ fixed, cwBad r (s.memory r) w = false) ∧ (s.readWords r ws).mem = setRegion r (corrected fixed (s.memory r)) s.mem := by
  refine ⟨ws.filter fun w => tabGet 0 w (s.memory r).flips != 0 && !cwBad r (s.memory r) w, fun w hw => ?_, ?_⟩
  · simpa using (Bool.and_eq_true_iff.mp (List.mem_filter.mp hw).2).2
  · unfold State.readWords
    dsimp only
    rw [each_mem _ (detectBad_mem_same r)]
    rfl

theorem memory_readWords_other {r q : Region} (h : q ≠ r) (s : State) (ws : List Nat) : (s.readWords r ws).memory q = s.memory q := by
  obtain ⟨fixed, -, hmem⟩ := mem_readWords s r ws
  rw [memory_of_setRegion hmem, if_neg h]

/-- A read leaves every byte of every memory as it reads, also where words of it are uncorrectable. -/
theorem byteSame_readWords (s : State) (r : Region) (ws : List Nat) (q : Region) (n : Nat) : ByteSame q n s (s.readWords r ws) := by
  obtain ⟨fixed, hgood, hmem⟩ := mem_readWords s r ws
  unfold ByteSame
  rw [memory_of_setRegion hmem]
  split
  case isTrue hq => rw [hq, readByte_corrected hgood]
  case isFalse => rfl

theorem readAll_congr {r : Region} {m m' : Memory} (h : ∀ a, readByte r m' a = readByte r m a) (a n : Nat) : readAll r m' a n = readAll r m a n := by
  unfold readAll
  simp only [h]

/-! ### Writes of one memory -/

theorem memory_store_other {r q : Region} (h : q ≠ r) (s : State) (a : Nat) (bytes : List Byte) : (s.store r a bytes).memory q = s.memory q := by
  have hread := memory_readWords_other h s (badHalves r a bytes.length (s.memory r))
  unfold State.store
  dsimp only
  split
  · exact (memory_of_setRegion rfl q).trans ((if_neg h).trans hread)
  · next w _ =>
    have hfired : ∀ t : State, (flipFired (flipTarget r (w * cwBytes r)).2.2 t).memory q = t.memory q := fun t => by
      unfold State.memory
      rw [(flipFired_only ..).mem rfl]
    rw [hfired]
    exact (memory_of_setRegion rfl q).trans ((if_neg h).trans hread)

/-! ### The record of a context lies in a partition's memory, not in a scratchpad -/

theorem bulkPlace_region {s : State} {a key : Nat} {r : Region} (h : bulkPlace s a = .here r key) : r = .bulk := by
  unfold bulkPlace at h
  dsimp only at h
  split at h
  · cases h
  · split at h <;> cases h
    rfl

/-- The memory of a partition's pages is none of a core (R239, R243, R244). -/
theorem placeOf_region {s : State} {e : PageEntry} {a key : Nat} {r : Region} (h : placeOf s e a = .here r key) : r ≠ .spad := by
  unfold placeOf at h
  dsimp only at h
  split at h
  · cases h
  · split at h
    · cases h; decide
    · split at h
      · rw [bulkPlace_region h]; decide
      · split at h <;> cases h
        decide

theorem spad_storeHome {r : Region} (h : r ≠ .spad) (s : State) (k a key : Nat) (bytes : List Byte) :
    (s.storeHome k a r key bytes).mem.spad = s.mem.spad := by
  unfold State.storeHome
  split
  · exact (memory_store_other (Ne.symm h) (noteWrite k a s) key bytes).trans (congrArg MemState.spad ((noteWrite_only ..).mem rfl))
  · exact congrArg MemState.spad ((lineWait_only ..).mem rfl)

theorem spad_writePart (k a : Nat) (bytes : List Byte) (s : State) : (writePart k a bytes s).mem.spad = s.mem.spad := by
  unfold writePart
  split
  · rfl
  · next e _ =>
    have hwarm : (s.when (!placeCached s (placeOf s e a)) (warm k a)).mem = s.mem := by
      unfold State.when
      cases !placeCached s (placeOf s e a)
      · rfl
      · exact (warm_only ..).mem rfl
    have hmirror : (logMirror k a bytes (s.when (!placeCached s (placeOf s e a)) (warm k a))).mem = s.mem :=
      ((logMirror_only ..).mem rfl).trans hwarm
    dsimp only
    split
    · next r key hp => exact (spad_storeHome (placeOf_region hp) ..).trans (congrArg MemState.spad hmirror)
    · exact congrArg MemState.spad (((State.countErrors_only ..).mem rfl).trans hmirror)
    · exact congrArg MemState.spad hmirror
    · split
      · exact congrArg MemState.spad (((copyWrite_only ..).mem rfl).trans hmirror)
      · exact congrArg MemState.spad hmirror

theorem spad_partStore (k a : Nat) (bytes : List Byte) (s : State) : (s.partStore k a bytes).mem.spad = s.mem.spad :=
  foldl_keep (fun (u : State) (l : Nat × Nat) => writePart k l.1 ((bytes.drop (l.1 - a)).take l.2) u) (fun u : State => u.mem.spad)
    (fun _ _ => spad_writePart ..) (linesOf a bytes.length) s

theorem spad_writeCtx (k n : Nat) (x : Ctx) (s : State) : (s.writeCtx k n x).mem.spad = s.mem.spad := by
  unfold State.writeCtx
  dsimp only
  rw [spad_partStore, spad_partStore]
  rfl

theorem spad_ctxTrapped (c : Nat) (s : State) : (ctxTrapped c s).mem.spad = s.mem.spad := by
  unfold ctxTrapped
  split
  · rfl
  · dsimp only
    rw [State.raise_mem]
    split
    · exact spad_writeCtx ..
    · rfl

/-! ### Traps of a compute core -/

/-- The trap registers of a core written, and its interrupt TRAP raised (R182, R183). -/
def trapRegs (c cause unit detail : Nat) (deferred : Bool) (pc stop : BitVec 18) (s : State) : State :=
  (s.setReg (corePage c) Rg.coreTrapCauseCause cause |>.setReg (corePage c) Rg.coreTrapCauseDeferred (bit deferred)
    |>.setReg (corePage c) Rg.coreTrapCauseUnit unit |>.setReg (corePage c) Rg.coreTrapCauseValid 1 |>.setReg (corePage c) Rg.coreTrapPcPc pc.toNat
    |>.setReg (corePage c) Rg.coreTrapDetailDetail detail |>.setReg (corePage c) Rg.coreTrapStopPcPc stop.toNat).raise (corePage c) 1

section
variable (c cause unit detail : Nat) (deferred : Bool) (pc stop : BitVec 18) (s : State)

theorem recordTrap_eq : recordTrap c cause unit detail deferred pc stop s = ctxTrapped c (settleGap c (trapRegs c cause unit detail deferred pc stop s)) :=
  rfl

theorem trapRegs_core (d : Nat) : (trapRegs c cause unit detail deferred pc stop s).core d = s.core d := by
  unfold trapRegs
  simp only [State.core_raise, State.core_setReg]

theorem trapRegs_mem : (trapRegs c cause unit detail deferred pc stop s).mem = s.mem := by
  unfold trapRegs
  simp only [State.raise_mem, State.setReg_mem]

theorem reg_trapRegs :
    let u := trapRegs c cause unit detail deferred pc stop s
    u.reg (corePage c) Rg.coreTrapCauseCause = cause % 2 ^ 8 ∧ u.reg (corePage c) Rg.coreTrapCauseDeferred = bit deferred ∧
      u.reg (corePage c) Rg.coreTrapCauseValid = 1 ∧ u.reg (corePage c) Rg.coreTrapPcPc = pc.toNat ∧
      u.reg (corePage c) Rg.coreTrapDetailDetail = detail % 2 ^ 64 ∧ u.reg (corePage c) Rg.coreTrapStopPcPc = stop.toNat := by
  have hpc : pc.toNat % 2 ^ Rg.coreTrapPcPc.len = pc.toNat := Nat.mod_eq_of_lt (Nat.lt_of_lt_of_le pc.isLt (by decide))
  have hstop : stop.toNat % 2 ^ Rg.coreTrapStopPcPc.len = stop.toNat := Nat.mod_eq_of_lt (Nat.lt_of_lt_of_le stop.isLt (by decide))
  have hdeferred : bit deferred % 2 ^ Rg.coreTrapCauseDeferred.len = bit deferred := by cases deferred <;> rfl
  unfold trapRegs
  refine ⟨?_, ?_, ?_, ?_, ?_, ?_⟩ <;> rw [State.reg_raise_off _ (offHeader_same (by decide))] <;>
    simp (disch := refine fieldBit_ne ?_; decide) only [State.reg_setReg_other, State.reg_setReg_same, hpc, hstop, hdeferred]
  all_goals rfl

/-- The account of a core's gap keeps each part of the core that gapRuns keeps. -/
theorem settleGap_keeps {α : Type} (f : Core → α) (hf : ∀ b n x, f (gapRuns b n x) = f x) : f ((settleGap c s).core c) = f (s.core c) := by
  unfold settleGap
  split
  · rfl
  · rw [State.core_modCore_same, hf]

theorem ctxTrapped_core (d : Nat) : (ctxTrapped c s).core d = s.core d := (ctxTrapped_only c s).core_same rfl d

end

/-- What a trap leaves as it is (R182): the core's general registers and its place, the other cores, and the scratchpads. -/
structure TrapLeaves (c : Fin 160) (s t : State) : Prop where
  gpr : (t.core c).gpr = (s.core c).gpr
  pc : (t.core c).pc = (s.core c).pc
  others : OthersSame (.core c) s t
  spad : t.mem.spad = s.mem.spad

theorem TrapLeaves.trans {c : Fin 160} {s t u : State} (h : TrapLeaves c s t) (g : TrapLeaves c t u) : TrapLeaves c s u :=
  ⟨g.gpr.trans h.gpr, g.pc.trans h.pc, ⟨fun d hd => (g.others.1 d hd).trans (h.others.1 d hd), fun j hj => (g.others.2 j hj).trans (h.others.2 j hj)⟩,
    g.spad.trans h.spad⟩

theorem recordTrap_leaves (c : Fin 160) (cause unit detail : Nat) (deferred : Bool) (pc stop : BitVec 18) (s : State) :
    TrapLeaves c s (recordTrap c cause unit detail deferred pc stop s) := by
  refine ⟨?_, ?_, ⟨fun d hd => ?_, fun j _ => ?_⟩, ?_⟩
  · rw [recordTrap_eq, ctxTrapped_core, settleGap_keeps _ _ Core.gpr fun _ _ _ => gapRuns_gpr .., trapRegs_core]
  · rw [recordTrap_eq, ctxTrapped_core, settleGap_keeps _ _ Core.pc fun _ _ _ => gapRuns_pc .., trapRegs_core]
  · rw [recordTrap_eq, ctxTrapped_core, settleGap_other _ _ (hd c rfl), trapRegs_core]
  · unfold State.sigc
    rw [(recordTrap_only ..).sigcs rfl]
  · rw [recordTrap_eq, spad_ctxTrapped, settleGap_mem, trapRegs_mem]

theorem fetchCore_leaves {s : State} {c : Fin 160} (h : coreExecutes s c = true) : TrapLeaves c s (fetchCore c s) :=
  ⟨congrArg Core.gpr (fetchCore_core ..), congrArg Core.pc (fetchCore_core ..), ⟨fun _ _ => fetchCore_core .., fun j _ => fetchAgent_sigc (.core c) j s⟩,
    spad_fetchAgent (a := .core c) (sp := fun _ => true) (Bool.and_eq_true_iff.mpr ⟨h, rfl⟩)⟩

/-- A precise trap of an instruction that a core executes: its cause and its detail stand in the trap registers, and it has had no effect (R182). -/
theorem trap_precise {s : State} {c : Fin 160} (h : coreExecutes s c = true) {cause detail : Nat} (hc : cause < 2 ^ 8) (hd : detail < 2 ^ 64) :
    Trapped (.core c) cause detail s (trap c cause detail (fetchCore c s)) ∧ TrapLeaves c s (trap c cause detail (fetchCore c s)) := by
  have hcore : (fetchCore c s).core c = s.core c := fetchCore_core ..
  constructor
  · obtain ⟨h1, -, h3, h4, h5, -⟩ := reg_trapRegs c cause 0 detail false ((fetchCore c s).core c).pc ((fetchCore c s).core c).pc (fetchCore c s)
    refine ⟨_, rfl, ?_, ?_, ?_, ?_⟩
    · rw [reg_settleGap]; exact h1.trans (Nat.mod_eq_of_lt hc)
    · rw [reg_settleGap]; exact h3
    · rw [reg_settleGap]; exact h5.trans (Nat.mod_eq_of_lt hd)
    · rw [reg_settleGap]; exact h4.trans (by rw [hcore])
  · exact (fetchCore_leaves h).trans (recordTrap_leaves ..)

/-! ### Traps of a signal core -/

/-- A precise trap of a signal core stands in its trap registers and changes no signal core and no memory (R210). -/
theorem strap_precise {s : State} {k : Fin 64} (h : sigcExecutes s k = true) {cause detail : Nat} (hc : cause < 2 ^ 8) (hd : detail < 2 ^ 64) :
    Trapped (.sigc k) cause detail s (strap k cause detail (fetchSigc k s)) ∧ (strap k cause detail (fetchSigc k s)).sigcs = s.sigcs ∧
      (strap k cause detail (fetchSigc k s)).mem.dmem = s.mem.dmem := by
  have hpc : ((fetchSigc k s).sigc k).pc.toNat % 2 ^ Rg.sigcTrapPcPc.len = (s.sigc k).pc.toNat := by
    rw [fetchSigc_sigc]
    exact Nat.mod_eq_of_lt (Nat.lt_of_lt_of_le (s.sigc k).pc.isLt (by decide))
  have hcause : cause % 2 ^ Rg.sigcTrapCauseCause.len = cause := Nat.mod_eq_of_lt hc
  have hdetail : detail % 2 ^ Rg.sigcTrapDetailDetail.len = detail := Nat.mod_eq_of_lt hd
  have hvalid : 1 % 2 ^ Rg.sigcTrapCauseValid.len = 1 := rfl
  refine ⟨?_, ((strap_only ..).sigcs rfl).trans ((fetchSigc_only ..).sigcs rfl),
    (congrArg MemState.dmem ((strap_only ..).mem rfl)).trans (dmem_fetchSigc h)⟩
  unfold strap
  refine ⟨?_, ?_, ?_, ?_⟩ <;> rw [State.reg_raise_off _ (offHeader_same (by decide))] <;>
    simp (disch := refine fieldBit_ne ?_; decide) only [State.reg_setReg_other, State.reg_setReg_same, hpc, hcause, hdetail, hvalid]

/-- The fetch leaves the word that it reads. -/
theorem loadNat_fetchSigc (k a n : Nat) (s : State) : (fetchSigc k s).loadNat .simem a n = s.loadNat .simem a n :=
  congrArg (Option.map leNat) (readAll_congr (fun b => byteSame_readWords s .simem _ .simem b) a n)

theorem leNat_lt (l : List Byte) : leNat l < 256 ^ l.length := by
  induction l with
  | nil => decide
  | cons b l ih =>
    have hb := b.isLt
    rw [leNat, List.length_cons, Nat.pow_succ]
    omega

theorem map_some_of_mapM {α : Type} {f : Nat → Option α} {l : List Nat} {b : List α} (h : l.mapM f = some b) : b.map some = l.map f := by
  induction l generalizing b with
  | nil => simp at h; subst h; rfl
  | cons x l ih =>
    simp only [List.mapM_cons, Option.bind_eq_bind, Option.bind_eq_some_iff, Option.pure_def, Option.some.injEq] at h
    obtain ⟨y, hy, ys, hys, rfl⟩ := h
    rw [List.map_cons, List.map_cons, hy, ih hys]

end Sys2Proof.Machine
end

section
/-! SUPPORT. Raw accesses of a signal core (R198), and the statement on the traps of scalar instructions (R182, R184, R210). -/

namespace Sys2Proof.Machine

/-! ### The address of a raw access -/

/-- What the modification of kN makes of aN (R198). -/
def rawMoved (s : State) (k : Nat) (a : Fin 16) (n : Nat) (step : Int) : Option (BitVec 64) :=
  postModify (getK (s.sigc k) a) (getA (s.sigc k) a) (s.free 64 1) n step

/-- The address of a raw access: aN before its step or after it. -/
def rawPlace (s : State) (k : Nat) (a : Fin 16) (pre : Bool) (next : BitVec 64) : Nat := (if pre then next else getA (s.sigc k) a).toNat

section
variable {s : State} {k : Nat} {a : Fin 16} {n : Nat} {pre : Bool} {step : Int} (f : BitVec 64 → Nat → State → State)

theorem rawInsn_illegal (h : n = 1 ∨ rawMoved s k a n step = none) : rawInsn k a n pre step f s = sIllegal k s := by
  unfold rawInsn
  unfold rawMoved at h
  dsimp only
  split
  · rfl
  · next hm => exact if_pos (h.resolve_right (by rw [hm]; exact Option.some_ne_none _))

theorem rawInsn_moved {next : BitVec 64} (hm : rawMoved s k a n step = some next) (hn : n ≠ 1) :
    rawInsn k a n pre step f s =
      if rawPlace s k a pre next % n ≠ 0 then strap k 0x03 (rawPlace s k a pre next) s
      else if rawPlace s k a pre next ≥ 2 ^ 19 then strap k 0x04 (rawPlace s k a pre next) s
      else f next (rawPlace s k a pre next) (s.usedFree 2) := by
  unfold rawMoved at hm
  unfold rawInsn
  simp only [hm, if_neg hn]
  rfl

theorem rawAt_some {next : BitVec 64} {at_ : Nat} (h : rawAt s k a pre step n = some (next, at_)) :
    rawMoved s k a n step = some next ∧ rawPlace s k a pre next = at_ ∧ n ≠ 1 ∧ at_ % n = 0 ∧ at_ < 2 ^ 19 := by
  obtain ⟨m, hm, hat⟩ := Option.bind_eq_some_iff.mp h
  obtain ⟨hlegal, hpair⟩ := (Option.ite_none_right_eq_some ..).mp hat
  cases hpair
  exact ⟨hm, rfl, hlegal⟩

theorem rawInsn_runs {next : BitVec 64} {at_ : Nat} (h : rawAt s k a pre step n = some (next, at_)) :
    rawInsn k a n pre step f s = f next at_ (s.usedFree 2) := by
  obtain ⟨hm, rfl, hn, hal, hrange⟩ := rawAt_some h
  rw [rawInsn_moved f hm hn, if_neg (not_not_intro hal), if_neg (Nat.not_le.mpr hrange)]

end

section
variable (s : State) (k : Nat) (a : Fin 16)

theorem rawMoved_fetch (n : Nat) (step : Int) : rawMoved (fetchSigc k s) k a n step = rawMoved s k a n step := by
  unfold rawMoved State.free
  rw [fetchSigc_sigc, (fetchSigc_only k s).freeIx rfl]

theorem rawPlace_fetch (pre : Bool) (next : BitVec 64) : rawPlace (fetchSigc k s) k a pre next = rawPlace s k a pre next := by
  unfold rawPlace
  rw [fetchSigc_sigc]

theorem rawAt_fetch (pre : Bool) (step : Int) (n : Nat) : rawAt (fetchSigc k s) k a pre step n = rawAt s k a pre step n := by
  unfold rawAt State.free
  rw [fetchSigc_sigc, (fetchSigc_only k s).freeIx rfl]

end

/-! ### The raw LD and ST of a signal core -/

section
variable {place : ScalarPlace} {k : Fin 64} {a : Fin 16} {pre : Bool} {step : Int} (h : placeRaw place = some (k, a, pre, step))
include h

theorem exec_ld_raw (width : ScalarWidth) (signed : Bool) (rd : Fin 32) (s : State) :
    exec (.ld place width signed rd) s = .next (runSInsn k (rawLoad k a pre step width signed rd) s) := by
  cases place <;> cases h <;> rfl

theorem exec_st_raw (width : ScalarWidth) (rs : Fin 32) (s : State) :
    exec (.st place width rs) s = .next (runSInsn k (rawStore k a pre step width rs) s) := by
  cases place <;> cases h <;> rfl

/-- Both run the modification and its checks before they access the data memory. -/
theorem exec_raw {i : Instr} {width : ScalarWidth} (hi : (∃ signed rd, i = .ld place width signed rd) ∨ ∃ rs, i = .st place width rs) (s : State) :
    ∃ f, exec i s = .next (runSInsn k (rawInsn k a (widthBytes width) pre step f) s) := by
  obtain ⟨signed, rd, rfl⟩ | ⟨rs, rfl⟩ := hi
  · exact ⟨_, exec_ld_raw h width signed rd s⟩
  · exact ⟨_, exec_st_raw h width rs s⟩

end

theorem widthBytes_eq_one {width : ScalarWidth} : widthBytes width = 1 ↔ width = .b8 := by cases width <;> decide

/-! ### The traps -/

/-- An instruction of a core whose body traps when it is fetched. -/
theorem runs_trap {s : State} {c : Fin 160} (h : coreExecutes s c = true) {i : Instr} {sp : Nat → Bool} {body : State → State}
    (hw : sp (wordAt s c) = true) (he : exec i s = .next (runInsn c sp body s)) {cause detail : Nat}
    (hb : body (fetchCore c s) = trap c cause detail (fetchCore c s)) (hc : cause < 2 ^ 8) (hd : detail < 2 ^ 64) :
    Runs i s fun t => Trapped (.core c) cause detail s t ∧ (t.core c).gpr = (s.core c).gpr ∧ (t.core c).pc = (s.core c).pc ∧
      OthersSame (.core c) s t ∧ t.mem.spad = s.mem.spad := by
  refine .of_runInsn (coreRuns_of h hw) he ?_
  rw [hb]
  obtain ⟨htrapped, hleaves⟩ := trap_precise h hc hd
  exact ⟨htrapped, hleaves.gpr, hleaves.pc, hleaves.others, hleaves.spad⟩

/-- A raw access of a signal core that traps when it is fetched. -/
theorem runs_strap {s : State} {k : Fin 64} (h : sigcExecutes s k = true) {i : Instr} {body : State → State}
    (he : exec i s = .next (runSInsn k body s)) {cause detail : Nat}
    (hb : body (fetchSigc k s) = strap k cause detail (fetchSigc k s)) (hc : cause < 2 ^ 8) (hd : detail < 2 ^ 64) :
    Runs i s fun t => Trapped (.sigc k) cause detail s t ∧ t.sigcs = s.sigcs ∧ t.mem.dmem = s.mem.dmem := by
  refine .of_runSInsn h he ?_
  rw [hb]
  exact strap_precise h hc hd

theorem loadNat_getD_lt (s : State) (r : Region) (a : Nat) : (s.loadNat r a 4).getD 0 < 2 ^ 64 := by
  cases hread : s.loadNat r a 4 with
  | none => decide
  | some v =>
    obtain ⟨b, hb, rfl⟩ := Option.map_eq_some_iff.mp hread
    have hlen : b.length = 4 := by simpa using congrArg List.length (map_some_of_mapM hb)
    have := leNat_lt b
    rw [hlen] at this
    exact Nat.lt_trans this (by decide)

/-- Settles O13: each failure is the first branch of its instruction's body that holds, and that branch traps with the state of the fetch. -/
theorem scalarFailuresTrap : Obligations.ScalarFailuresTrap := by
  unfold Obligations.ScalarFailuresTrap
  refine ⟨fun c s h => ?cores, fun place k a pre step width s hplace h => ?signalCores⟩
  case cores =>
    have hcore : (fetchCore c s).core c = s.core c := fetchCore_core ..
    refine ⟨fun w hw hres => ?illegalScalar, fun w hw hgroup => ?illegalBranch, fun hgroup o rd ra b hzero => ?divides, fun hgroup ra hpc => ?indirect,
      fun hgroup => ⟨fun width signed rd ra offset hal => ?misalignedLd, fun width signed rd ra offset hal hrange => ?farLd,
        fun width rs ra offset hal => ?misalignedSt, fun width rs ra offset hal hrange => ?farSt⟩⟩
    case illegalScalar =>
      exact runs_trap h (by rw [scalarSpelled, hw, beq_self_eq_true, hres]; rfl) rfl rfl (by decide) (Nat.lt_trans w.isLt (by decide))
    case illegalBranch =>
      exact runs_trap h (by rw [branchSpelled, hw, hgroup]; exact beq_self_eq_true _) rfl rfl (by decide) (Nat.lt_trans w.isLt (by decide))
    case divides =>
      refine runs_trap h (body := scalarBody c (.op o rd ra b)) hgroup rfl ?_ (by decide) (by decide)
      rw [← hcore] at hzero
      exact if_pos hzero
    case indirect =>
      refine runs_trap h (body := branchBody c (.indirect ra)) (Bool.and_eq_true_iff.mpr ⟨hgroup, rfl⟩) rfl ?_ (by decide) (BitVec.isLt _)
      rw [← hcore] at hpc ⊢
      exact if_pos hpc
    case misalignedLd =>
      refine runs_trap h (body := ldBody c width signed rd ra offset) hgroup rfl ?_ (by decide) (BitVec.isLt _)
      rw [← hcore] at hal ⊢
      exact if_pos hal
    case farLd =>
      refine runs_trap h (body := ldBody c width signed rd ra offset) hgroup rfl ?_ (by decide) (BitVec.isLt _)
      rw [← hcore] at hal hrange ⊢
      exact (if_neg (not_not_intro hal)).trans (if_pos hrange)
    case misalignedSt =>
      refine runs_trap h (body := stBody c width rs ra offset) hgroup rfl ?_ (by decide) (BitVec.isLt _)
      rw [← hcore] at hal ⊢
      exact if_pos hal
    case farSt =>
      refine runs_trap h (body := stBody c width rs ra offset) hgroup rfl ?_ (by decide) (BitVec.isLt _)
      rw [← hcore] at hal hrange ⊢
      exact (if_neg (not_not_intro hal)).trans (if_pos hrange)
  case signalCores =>
    refine ⟨fun hillegal i hi => ?illegal, fun next hmoved hwidth hal i hi => ?misaligned, fun next hmoved hwidth hal hrange i hi => ?far⟩
    all_goals obtain ⟨f, he⟩ := exec_raw hplace hi s
    case illegal =>
      refine runs_strap h he ?_ (by decide) (loadNat_getD_lt ..)
      rw [rawInsn_illegal f (by rw [rawMoved_fetch, widthBytes_eq_one]; exact hillegal), sIllegal, fetchSigc_sigc, loadNat_fetchSigc]
    all_goals
      have hn : widthBytes width ≠ 1 := fun h1 => hwidth (widthBytes_eq_one.mp h1)
      have hmovedFetch : rawMoved (fetchSigc k s) k a (widthBytes width) step = some next := (rawMoved_fetch ..).trans hmoved
    case misaligned =>
      refine runs_strap h he ?_ (by decide) (BitVec.isLt _)
      rw [rawInsn_moved f hmovedFetch hn, rawPlace_fetch]
      exact if_pos hal
    case far =>
      refine runs_strap h he ?_ (by decide) (BitVec.isLt _)
      rw [rawInsn_moved f hmovedFetch hn, rawPlace_fetch]
      exact (if_neg (not_not_intro hal)).trans (if_pos hrange)

end Sys2Proof.Machine
end

section
/-! SUPPORT. A store of a signal core that covers a word of the data memory in part counts an error where the word cannot be corrected (R522,
R631): the refutation of the statement on stores. -/

namespace Sys2Proof.Machine

/-- A 16-bit ST at a0 = 0 into the data memory of sigcUp, no byte of which is written: the word's other half cannot be corrected. -/
def narrowStore : Instr := .st (.post 0 0 0) .b16 0

theorem narrowStore_completes : canSt (.post 0 0 0) .b16 0 sigcUp = true ∧ sigcUp.flag raspPage Rg.raspFlipControlArm = false := by decide +kernel

theorem narrowStore_exec : exec narrowStore sigcUp = .next (runSInsn 0 (rawStore 0 0 false 0 .b16 0) sigcUp) :=
  exec_st_raw (place := .post 0 0 0) (k := 0) (a := 0) (pre := false) (step := 0) rfl .b16 0 sigcUp

/-- The error that the block detects stands in ERROR_COUNT of the signal core's page. -/
theorem narrowStore_counts :
    sigcUp.reg (sigcPage 0) Rg.pageErrorCountCount = 0 ∧
      (runSInsn 0 (rawStore 0 0 false 0 .b16 0) sigcUp).reg (sigcPage 0) Rg.pageErrorCountCount = 1 := by decide +kernel

/-- Refutes O15: a raw ST of a signal core that covers a word of the data memory in part reads the word's other half (R631). Where that half
cannot be corrected, as in a data memory not written since power-on, ERROR_COUNT of the core's page counts it (R522), a field that the
statement names unchanged. -/
theorem not_storesChangeOnlyTheirBytes : ¬ Obligations.StoresChangeOnlyTheirBytes := by
  unfold Obligations.StoresChangeOnlyTheirBytes
  intro h
  obtain ⟨hcan, hunarmed⟩ := narrowStore_completes
  obtain ⟨hbefore, hafter⟩ := narrowStore_counts
  obtain ⟨t, hexec, -, hraw⟩ := h.1 (.post 0 0 0) .b16 0 sigcUp hcan hunarmed
  obtain ⟨next, at_, -, -, -, -, -, hregs⟩ := hraw 0 0 false 0 rfl
  cases narrowStore_exec.symm.trans hexec
  have hsame := hregs (sigcPage 0) Rg.pageErrorCountCount 0 ⟨by decide, by decide⟩ (by decide)
  rw [hbefore, hafter] at hsame
  exact absurd hsame (by decide)

end Sys2Proof.Machine
end

section
/-! SUPPORT. Flags cleared, programs halted and traps ended (R183, R185, R186, R210): the statement on the system instructions. -/

namespace Sys2Proof.Machine

/-- An instruction of an agent that runs it leads to what its body makes of the state after the fetch. -/
theorem Runs.of_runAgent {i : Instr} {s : State} {a : Agent} {sp : Nat → Bool} {body : State → State} {p : State → Prop}
    (h : agentRuns s a sp = true) (he : exec i s = .next (runAgent a sp body s)) (hp : p (body (fetchAgent a s))) : Runs i s p :=
  ⟨_, he.trans (congrArg _ (runAgent_runs h body)), hp⟩

/-! ### Reading a value, and clearing the sticky flags (R186) -/

/-- RDTIME, RDFLAGS and RDWAVE write what they read after the fetch. -/
theorem runs_sysRead {i : Instr} {s : State} {a : Agent} {rd : Fin 32} {sub : Nat} {v : State → BitVec 64} {x : BitVec 64}
    (h : (agentRuns s a (sysSpelled sub (some rd) none) && !lacks a [rd]) = true) (he : exec i s = .next (sysRead sub a rd v s))
    (hv : agentRuns s a (sysSpelled sub (some rd) none) = true → v (fetchAgent a s) = x) : Runs i s fun t => Wrote a rd x s t ∧ OthersSame a s t := by
  obtain ⟨hruns, hlacks⟩ := Bool.and_eq_true_iff.mp h
  refine .of_runAgent hruns he ?_
  rw [if_neg (Bool.eq_false_iff.mp (Bool.not_eq_true' _ ▸ hlacks)), hv hruns]
  exact ⟨wrote_done .., others_done ..⟩

theorem getFlags_putFlags (c : Fin 160) (f : Nat) (s : State) : getFlags (putFlags c f s) c = f % 16 := by
  have hlen : 2 ^ Rg.coreArithFlagsSat.len = 2 ∧ 2 ^ Rg.coreArithFlagsAccOvf.len = 2 ∧ 2 ^ Rg.coreArithFlagsTernaryCode.len = 2 ∧
      2 ^ Rg.coreArithFlagsPoison.len = 2 := by decide
  unfold getFlags putFlags
  simp (disch := refine fieldBit_ne ?_; decide) only [State.reg_setReg_other, State.reg_setReg_same, hlen]
  omega

/-- The flags of a signal core, written one by one as CLRFLAGS does (R211). -/
def putSFlags (k f : Nat) (s : State) : State :=
  s.setReg (sigcPage k) Rg.sigcArithFlagsSat (f % 2) |>.setReg (sigcPage k) Rg.sigcArithFlagsPoison (f / 2 % 2)

theorem agentFlags_putSFlags (k : Fin 64) (f : Nat) (s : State) : agentFlags (putSFlags k f s) (.sigc k) = f % 4 := by
  have hlen : 2 ^ Rg.sigcArithFlagsSat.len = 2 ∧ 2 ^ Rg.sigcArithFlagsPoison.len = 2 := by decide
  unfold agentFlags putSFlags
  simp (disch := refine fieldBit_ne ?_; decide) only [State.reg_setReg_other, State.reg_setReg_same, hlen]
  omega

/-- The flags of an agent, written by CLRFLAGS. -/
def putAgentFlags (a : Agent) (f : Nat) (s : State) : State :=
  match a with
  | .core c => putFlags c f s
  | .sigc k => putSFlags k f s

theorem putAgentFlags_core (a : Agent) (f : Nat) (s : State) (d : Nat) : (putAgentFlags a f s).core d = s.core d := by
  cases a with
  | core c => exact (putFlags_only c f s).core_same rfl d
  | sigc k => rw [putAgentFlags, putSFlags, State.core_setReg, State.core_setReg]

theorem putAgentFlags_sigc (a : Agent) (f : Nat) (s : State) (j : Nat) : (putAgentFlags a f s).sigc j = s.sigc j := by
  cases a with
  | core c => unfold State.sigc; exact congrArg (tabGet {} j) ((putFlags_only c f s).sigcs rfl)
  | sigc k => rw [putAgentFlags, putSFlags, State.sigc_setReg, State.sigc_setReg]

theorem clrflagsBody_eq (a : Agent) (imm : BitVec 16) (s : State) :
    clrflagsBody a imm s = agentSkip a (putAgentFlags a (clearMask (agentFlags s a) imm.toNat) s) := by cases a <;> rfl

theorem agentFlags_agentSkip (a : Agent) (s : State) : agentFlags (agentSkip a s) a = agentFlags s a := by cases a <;> rfl

theorem agentFlags_putAgentFlags (a : Agent) (f : Nat) (s : State) :
    agentFlags (putAgentFlags a f s) a = f % (if isSigc a then 4 else 16) := by
  cases a with
  | core c => exact getFlags_putFlags c f s
  | sigc k => exact agentFlags_putSFlags k f s

/-- An agent that goes on to its next instruction changes nothing else of itself, and no other agent. -/
theorem agentSkip_steps (a : Agent) (s : State) :
    (∀ d, a = .core d → (agentSkip a s).core d = advance (s.core d)) ∧ (∀ k, a = .sigc k → (agentSkip a s).sigc k = sNext (s.sigc k)) ∧
      OthersSame a s (agentSkip a s) := by
  cases a with
  | core c =>
    refine ⟨fun d hd => ?_, fun k hk => (by cases hk), fun d hd => State.core_modCore_other _ (hd c rfl) _, fun j _ => State.sigc_modCore ..⟩
    cases hd
    exact State.core_modCore_same ..
  | sigc k =>
    refine ⟨fun d hd => (by cases hd), fun j hj => ?_, fun d _ => State.core_setSigc .., fun j hj => State.sigc_setSigc_other _ (hj k rfl) _⟩
    cases hj
    exact State.sigc_setSigc_same ..

/-! ### HALT (R186) -/

theorem coreExecutes_ctx {s : State} {c : Nat} (h : coreExecutes s c = true) : ∃ r, (s.core c).ctx = some r := by
  simp only [coreExecutes, coreReady, Bool.and_eq_true] at h
  exact Option.isSome_iff_exists.mp h.1.1.2

/-- A core whose engines and streams are idle halts and holds no lock; where it is the last of its context, the context ends. -/
theorem haltCore_halts {c : Fin 160} {r : CtxRef} {s : State} (hctx : (s.core c).ctx = some r)
    (hidle : (enginesIdle (s.core c) && streamsIdle (s.core c)) = true) :
    ∃ u, (u.core c).run = .halted ∧ u.reg (corePage c) Rg.coreLocksHeldCount = 0 ∧
      (haltCore c s = u ∨ haltCore c s = choose r.part (endContext r.part r.ctx u)) := by
  unfold haltCore
  simp only [hctx, hidle, if_true]
  refine ⟨_, ?_, ?_, ite_eq_or_eq .. |>.symm⟩
  · rw [settleGap_keeps _ _ Core.run fun _ _ _ => gapRuns_run .., State.core_modCore_same]
  · rw [reg_settleGap, State.reg_modCore, State.reg_setReg_same]
    rfl

theorem sigc_endProgram (k : Nat) (s : State) : ((endProgram k s).sigc k).run = .halted ∧ ((endProgram k s).sigc k).locks = 0 := by
  unfold endProgram
  rw [State.sigc_setSigc_same]
  exact ⟨rfl, rfl⟩

/-! ### The end of a trap (R185, R210) -/

theorem flag_setReg_zero (p : Page) (f : RegField) (s : State) : (s.setReg p f 0).flag p f = false := by
  unfold State.flag
  rw [State.reg_setReg_same]
  simp

/-- A core whose trap a write of TRAP_CONTROL ends: its context is no longer trapped. -/
theorem runs_endTrap {i : Instr} {who : Requester} {c : Fin 160} {f : Core → Core} {s : State} (he : exec i s = .next (endTrap who c f s))
    (h : (writeTaken s who (corePage c) 0x70 && s.flag (corePage c) Rg.coreTrapCauseValid) = true) :
    Runs i s fun t => ∃ u, t = (match (s.core c).ctx with
        | some r => ctxUntrapped r u
        | none => u) ∧ u.flag (corePage c) Rg.coreTrapCauseValid = false ∧ (u.core c).pc = (f (s.core c)).pc ∧
      ∀ d, d ≠ c.val → u.core d = s.core d := by
  obtain ⟨htaken, hvalid⟩ := Bool.and_eq_true_iff.mp h
  refine ⟨_, he, _, (writeAccess_taken htaken).trans (if_pos hvalid), ?_, ?_, fun d hd => ?_⟩
  · unfold State.flag
    rw [reg_settleGap]
    exact flag_setReg_zero ..
  · rw [settleGap_keeps _ _ Core.pc fun _ _ _ => gapRuns_pc .., State.core_setReg, State.core_modCore_same]
  · rw [settleGap_other _ _ hd, State.core_setReg, State.core_modCore_other _ hd]

/-- A write of TRAP_CONTROL of a signal core that has a trap is done on the state with TRAP_CAUSE.VALID cleared. -/
theorem runs_endSTrap {i : Instr} {who : Requester} {k : Fin 64} {f : State → State} {s : State} {p : State → Prop}
    (he : exec i s = .next (endSTrap who k f s))
    (h : (writeTaken s who (sigcPage k) 0x60 && s.flag (sigcPage k) Rg.sigcTrapCauseValid) = true)
    (hp : p (f (s.setReg (sigcPage k) Rg.sigcTrapCauseValid 0))) : Runs i s p := by
  obtain ⟨htaken, hvalid⟩ := Bool.and_eq_true_iff.mp h
  exact ⟨_, he.trans (congrArg _ ((writeAccess_taken htaken).trans (if_pos hvalid))), hp⟩

/-- The trap registers of a deferred trap: the core stands where it stopped, and the trap is no longer deferred (R183). -/
theorem recordTrap_deferred (c : Fin 160) (cause unit detail : Nat) (pc stop : BitVec 18) {s : State} (h : (s.core c).deferred = none) :
    ∃ u, recordTrap c cause unit detail true pc stop s = ctxTrapped c u ∧ u.reg (corePage c) Rg.coreTrapCauseCause = cause % 256 ∧
      u.reg (corePage c) Rg.coreTrapCauseDeferred = 1 ∧ u.reg (corePage c) Rg.coreTrapCauseValid = 1 ∧
      u.reg (corePage c) Rg.coreTrapPcPc = pc.toNat ∧ u.reg (corePage c) Rg.coreTrapStopPcPc = stop.toNat ∧ (u.core c).deferred = none := by
  obtain ⟨hcause, hdeferred, hvalid, hpc, -, hstop⟩ := reg_trapRegs c cause unit detail true pc stop s
  refine ⟨_, recordTrap_eq .., ?_⟩
  simp only [reg_settleGap]
  refine ⟨hcause, hdeferred, hvalid, hpc, hstop, ?_⟩
  rw [settleGap_keeps _ _ Core.deferred fun _ _ _ => gapRuns_deferred .., trapRegs_core, h]

/-- The state that DEFERRED_TRAP records in: the core's deferred trap is taken, and a core that waits or saves runs on. -/
def noDeferred (c : Fin 160) (s : State) : State :=
  let t := s.setCore c { s.core c with deferred := none }
  match (s.core c).run with
  | .blocked _ | .cheapSave => (leaveWaits (.core c) t).modCore c fun x => { x with run := .running, live := none }
  | _ => t

theorem execDeferredTrap_records {c : Fin 160} {s : State} {cause unit detail : Nat} {pc : BitVec 18}
    (h : s.working = true ∧ (!s.flag (corePage c) Rg.coreTrapCauseValid) = true ∧ (s.core c).ctx.isSome = true ∧ (s.core c).run ≠ .ending)
    (hd : (s.core c).deferred = some (cause, unit, detail, pc)) :
    exec (.deferredTrap c) s = .next (recordTrap c cause unit detail true pc (s.core c).pc (noDeferred c s)) := by
  simp only [exec, execDeferredTrap, hd]
  exact congrArg Host.Outcome.next (if_pos h)

theorem noDeferred_deferred (c : Fin 160) (s : State) : ((noDeferred c s).core c).deferred = none := by
  unfold noDeferred
  dsimp only
  split
  · rw [State.core_modCore_same, core_leaveWaits, State.core_setCore_same]
  · rw [State.core_modCore_same, core_leaveWaits, State.core_setCore_same]
  · rw [State.core_setCore_same]

/-- Settles O18: each command comes down to the operation of its name, whose effect a lemma above states. -/
theorem systemInstructionsAndTrapsComplete : Obligations.SystemInstructionsAndTrapsComplete := by
  unfold Obligations.SystemInstructionsAndTrapsComplete
  refine ⟨?rdtime, ?rdflags, ?rdwave, ?brk, ?clrflags, ?halt, ?deferredTrap, ?trapResume, ?trapSkip, ?trapAbort, ?sigcTrapResume, ?sigcTrapSkip,
    ?sigcTrapAbort⟩
  case rdtime =>
    intro a rd s h
    exact runs_sysRead h rfl fun _ => congrArg (BitVec.ofNat 64) (fetchAgent_now a s)
  case rdflags =>
    intro a rd s h
    exact runs_sysRead h rfl fun hruns => congrArg (BitVec.ofNat 64) (agentFlags_fetch hruns)
  case rdwave =>
    intro a rd s h
    refine runs_sysRead h rfl fun hruns => congrArg (BitVec.ofNat 64) (reg_fetchAgent hruns ?_ (by decide))
    cases a with
    | core c => exact coreRaspBase c
    | sigc k => exact sigcRaspBase k
  case brk =>
    intro a imm s h
    exact .of_runAgent h rfl (trapped_trap a (by decide) (by decide) (Nat.lt_trans imm.isLt (by decide)) s)
  case clrflags =>
    intro a imm s h
    refine .of_runAgent h rfl ?_
    rw [clrflagsBody_eq, agentFlags_agentSkip, agentFlags_putAgentFlags, agentFlags_fetch h]
    have hsteps := agentSkip_steps a (putAgentFlags a (clearMask (agentFlags s a) imm.toNat) (fetchAgent a s))
    simp only [OthersSame, putAgentFlags_core, putAgentFlags_sigc, fetchAgent_core, fetchAgent_sigc] at hsteps
    exact ⟨rfl, hsteps⟩
  case halt =>
    intro a s h
    obtain ⟨hruns, hidle⟩ := Bool.and_eq_true_iff.mp h
    refine .of_runAgent hruns rfl ?_
    cases a with
    | core c =>
      have hcore : (fetchCore c s).core c = s.core c := fetchCore_core ..
      obtain ⟨r, hctx⟩ := coreExecutes_ctx (coreRuns_executes hruns)
      obtain ⟨u, hrun, hlocks, hend⟩ := haltCore_halts (hcore ▸ hctx) (hcore ▸ hidle)
      refine ⟨fun d hd => ?_, fun k hk => by cases hk⟩
      cases hd
      exact ⟨u, hrun, hlocks, hend.imp id fun hchoose => ⟨r, hctx, hchoose⟩⟩
    | sigc k =>
      refine ⟨fun d hd => (by cases hd), fun j hj => ?_⟩
      cases hj
      exact sigc_endProgram ..
  case deferredTrap =>
    intro c s h
    simp only [canDeferredTrap, Bool.and_eq_true, bne_iff_ne] at h
    obtain ⟨⟨⟨⟨hworking, hvalid⟩, hctx⟩, hrun⟩, hdeferred⟩ := h
    obtain ⟨⟨cause, unit, detail, pc⟩, hd⟩ := Option.isSome_iff_exists.mp hdeferred
    refine ⟨_, execDeferredTrap_records ⟨hworking, hvalid, hctx, hrun⟩ hd, cause, unit, detail, pc, ?_⟩
    obtain ⟨u, hu⟩ := recordTrap_deferred c cause unit detail pc (s.core c).pc (noDeferred_deferred c s)
    exact ⟨u, hd, hu⟩
  case trapResume =>
    intro who c s h
    exact runs_endTrap (f := id) rfl h
  case trapSkip =>
    intro who c s h
    obtain ⟨t, ht, u, hu, hvalid, hpc, hothers⟩ := runs_endTrap (i := .trapSkip who c) rfl h
    refine ⟨t, ht, u, hu, hvalid, hpc.trans ?_, hothers⟩
    split
    · rfl
    · exact advance_pc _
  case trapAbort =>
    intro who c s h
    obtain ⟨hand, hctx⟩ := Bool.and_eq_true_iff.mp h
    obtain ⟨htaken, hvalid⟩ := Bool.and_eq_true_iff.mp hand
    obtain ⟨r, hr⟩ := Option.isSome_iff_exists.mp hctx
    refine ⟨_, rfl, r, hr, (writeAccess_taken htaken).trans ?_⟩
    simp only [hr, if_pos hvalid]
  case sigcTrapResume =>
    intro who k s h
    exact runs_endSTrap rfl h rfl
  case sigcTrapSkip =>
    intro who k s h
    refine runs_endSTrap rfl h ⟨flag_setReg_zero .., ?_, fun j hj => ?_⟩
    · rw [State.sigc_setSigc_same, State.sigc_setReg]
    · rw [State.sigc_setSigc_other _ hj, State.sigc_setReg]
  case sigcTrapAbort =>
    intro who k s h
    refine runs_endSTrap rfl h ?_
    rw [State.sigc_raise]
    refine ⟨(sigc_endProgram ..).1, (sigc_endProgram ..).2, ?_⟩
    unfold State.flag
    rw [State.reg_raise_off _ (offHeader_same (by decide))]
    exact flag_setReg_zero ..

end Sys2Proof.Machine
end

section
/-! SUPPORT. What CPMARK does to its core (R178), and the statement on cheap points and forced preemption. -/

namespace Sys2Proof.Machine

/-! ### The steps of CPMARK after its checks -/

/-- What the steps of CPMARK leave as it is: the core's place and registers, the memories, and the semaphores. -/
def MarkKeeps (c : Nat) (s t : State) : Prop := pcStepGpr c t = pcStepGpr c s ∧ t.mem = s.mem ∧ t.sems = s.sems

theorem MarkKeeps.trans {c : Nat} {s t u : State} (h : MarkKeeps c s t) (g : MarkKeeps c t u) : MarkKeeps c s u :=
  ⟨g.1.trans h.1, g.2.1.trans h.2.1, g.2.2.trans h.2.2⟩

section
variable (c : Nat) (s : State)

theorem cheapPassed_keeps : MarkKeeps c s (cheapPassed c s) :=
  ⟨psg_cheapPassed c s, (cheapPassed_only ..).mem rfl, (cheapPassed_only ..).sems rfl⟩

theorem formShadow_keeps (live : Option LiveSet) (resume : BitVec 18) : MarkKeeps c s (formShadow c live resume s) :=
  ⟨psg_formShadow c live resume s, rfl, rfl⟩

theorem noteMark_keeps : MarkKeeps c s (noteMark c s) := ⟨psg_noteMark c s, (noteMark_only ..).mem rfl, (noteMark_only ..).sems rfl⟩

theorem skipCheap_keeps : MarkKeeps c s (skipCheap c s) := ⟨psg_skipCheap c s, (skipCheap_only ..).mem rfl, (skipCheap_only ..).sems rfl⟩

theorem takeCheap_keeps (id : Nat) (live : Option LiveSet) : MarkKeeps c s (takeCheap c id live s) :=
  ⟨psg_takeCheap c id live s, (takeCheap_only ..).mem rfl, (takeCheap_only ..).sems rfl⟩

end

/-- The step of the program counter with which CPMARK begins: outside a serving program the core's random step moves too. -/
def markStep (c : Nat) (s : State) : State :=
  let t := s.modCore c fun y => { advance y with ctxStep := y.ctxStep + 1 }
  if (s.core c).serving then t else t.addReg (corePage c) Rg.coreRngStepStep 1

theorem markStep_effect (c : Nat) (s : State) :
    pcStepGpr c (markStep c s) = ((s.core c).pc + 4, (s.core c).ctxStep + 1, (s.core c).gpr) ∧ (markStep c s).mem = s.mem ∧
      (markStep c s).sems = s.sems := by
  have hstep : pcStepGpr c (s.modCore c fun y => { advance y with ctxStep := y.ctxStep + 1 }) =
      ((s.core c).pc + 4, (s.core c).ctxStep + 1, (s.core c).gpr) := by
    rw [pcStepGpr, State.core_modCore_same, advance_pc, advance_gpr]
  unfold markStep
  split
  · exact ⟨hstep, rfl, rfl⟩
  · exact ⟨(psg_addReg ..).trans hstep, rfl, rfl⟩

/-- The state in which CPMARK skips its point, takes it, or goes on. -/
def marked (c : Nat) (id : BitVec 16) (s : State) : State :=
  noteMark c (formShadow c (cheapEntry s c id.toNat (s.core c).pc) ((s.core c).pc + 4) (cheapPassed c (markStep c s)))

theorem marked_keeps (c : Nat) (id : BitVec 16) (s : State) : MarkKeeps c (markStep c s) (marked c id s) :=
  ((cheapPassed_keeps c _).trans (formShadow_keeps c _ _ _)).trans (noteMark_keeps c _)

/-- A legal CPMARK with no checked lock held. -/
theorem cpmarkBody_marks {c : Nat} {id : BitVec 16} {rsvd : BitVec 6} {s : State} (hlegal : ¬(rsvd ≠ 0 ∨ id = 0))
    (hlocks : ¬(locksHeld s c ≠ 0 ∧ s.flag (corePage c) Rg.coreExecControlChecked = true)) :
    cpmarkBody c id rsvd s = if locksHeld s c ≠ 0 then skipCheap c (marked c id s)
      else if (s.core c).preempt = true then takeCheap c id.toNat (cheapEntry s c id.toNat (s.core c).pc) (marked c id s) else marked c id s :=
  (if_neg hlegal).trans (if_neg hlocks)

theorem cpmarkBody_keeps {c : Nat} {id : BitVec 16} {rsvd : BitVec 6} {s : State} (hlegal : ¬(rsvd ≠ 0 ∨ id = 0))
    (hlocks : ¬(locksHeld s c ≠ 0 ∧ s.flag (corePage c) Rg.coreExecControlChecked = true)) :
    MarkKeeps c (markStep c s) (cpmarkBody c id rsvd s) := by
  rw [cpmarkBody_marks hlegal hlocks]
  have hmarked := marked_keeps c id s
  split
  · exact hmarked.trans (skipCheap_keeps c _)
  · split
    · exact hmarked.trans (takeCheap_keeps c _ _ _)
    · exact hmarked

/-! ### A preemption delivered to a core that waits (R369) -/

/-- A core that takes its cheap point, or whose point has no entry in the table, begins a save; nothing else of it changes. -/
theorem takeCheap_core (c id : Nat) (live : Option LiveSet) (s : State) :
    (∃ run saved, (takeCheap c id live s).core c = { s.core c with run := run, live := saved }) ∧
      ∀ d, d ≠ c → (takeCheap c id live s).core d = s.core d := by
  cases live with
  | some l => exact ⟨⟨_, _, State.core_modCore_same ..⟩, fun d hd => State.core_modCore_other _ hd _⟩
  | none =>
    have herror : ∀ d, (s.error (corePage c) 0x0104 0 id).core d = s.core d := (State.error_only ..).core_same rfl
    refine ⟨⟨.forcedSave, (s.core c).live, ?_⟩, fun d hd => (State.core_modCore_other _ hd _).trans (herror d)⟩
    rw [takeCheap, State.core_modCore_same, herror]

/-! ### Forced preemption (R367) -/

/-- A core that is preempted, can be stopped, and is late or trapped, leaves its waits and saves all. -/
theorem execForcedPreempt_saves {c : Fin 160} {s : State} (hworking : s.working = true) (hfrozen : (!s.frozen (corePage c)) = true)
    (hpreempt : (s.core c).preempt = true) (hstoppable : (match (s.core c).run with
      | .running | .blocked _ | .halted => true
      | _ => false) = true)
    (hdue : (s.core c).preemptAt.any (fun t => decide (s.now ≥ t + 100000)) = true ∨ s.flag (corePage c) Rg.coreTrapCauseValid = true) :
    exec (.forcedPreempt c) s = .next ((leaveWaits (coreAgent c) s).modCore c fun x => { x with run := .forcedSave }) := by
  refine congrArg Host.Outcome.next (if_pos ⟨hworking, hfrozen, hpreempt, hstoppable, hdue.imp_left fun hlate => ?_⟩)
  cases hat : (s.core c).preemptAt with
  | none => rw [hat, Option.any_none] at hlate; cases hlate
  | some at_ => rw [hat, Option.any_some] at hlate; exact hlate

/-! ### The statement -/

/-- Settles O20: CPMARK by the frame of its steps, the saves and the delivery by their guards. -/
theorem cheapPointsComplete : Obligations.CheapPointsComplete := by
  unfold Obligations.CheapPointsComplete
  refine ⟨?cpmark, ?cheapSaveDone, ?forcedPreempt, ?forcedSaveDone, ?preemptDelivered⟩
  case cpmark =>
    intro c id rsvd s h
    simp only [canCpmark, Bool.and_eq_true, beq_iff_eq, bne_iff_ne, Bool.not_eq_true', ← Bool.not_eq_true, decide_eq_true_eq] at h
    obtain ⟨⟨⟨hruns, hrsvd⟩, hid⟩, hlocks⟩ := h
    refine .of_runInsn hruns rfl ?_
    obtain ⟨hcore, hmem, hsems⟩ := cpmarkBody_keeps (not_or_intro (not_not_intro hrsvd) hid) hlocks
    obtain ⟨hstep, hstepMem, hstepSems⟩ := markStep_effect c (fetchCore c s)
    rw [hstep, fetchCore_core, pcStepGpr, Prod.mk.injEq, Prod.mk.injEq] at hcore
    obtain ⟨hpc, hctxStep, hgpr⟩ := hcore
    refine ⟨hpc, hctxStep, hgpr, ?_, hsems.trans (hstepSems.trans ((fetchCore_only ..).sems rfl))⟩
    rw [hmem, hstepMem]
    exact spad_fetchAgent (a := .core c) (sp := (· == cpmarkWord id rsvd)) hruns
  case cheapSaveDone =>
    intro c s h
    simp only [canCheapSaveDone, Bool.and_eq_true, beq_iff_eq] at h
    obtain ⟨⟨⟨⟨⟨⟨hworking, hfrozen⟩, hdeferred⟩, hrun⟩, hidle⟩, hctx⟩, hlive⟩ := h
    obtain ⟨r, hr⟩ := Option.isSome_iff_exists.mp hctx
    obtain ⟨l, hl⟩ := Option.isSome_iff_exists.mp hlive
    refine ⟨_, rfl, r, l, hr, hl, ?_⟩
    simp only [hr, hl]
    exact if_pos ⟨hworking, hfrozen, hrun, hidle, hdeferred⟩
  case forcedPreempt =>
    intro c s h
    simp only [canForcedPreempt, Bool.and_eq_true, Bool.or_eq_true] at h
    obtain ⟨⟨⟨⟨hworking, hfrozen⟩, hpreempt⟩, hstoppable⟩, hdue⟩ := h
    refine ⟨_, execForcedPreempt_saves hworking hfrozen hpreempt hstoppable hdue, ?_, ?_, fun d hd => ?_, rfl, rfl⟩
    · rw [State.core_modCore_same]
    · rw [State.core_modCore_same, core_leaveWaits]
    · rw [State.core_modCore_other _ hd, core_leaveWaits]
  case forcedSaveDone =>
    intro c s h
    simp only [canForcedSaveDone, Bool.and_eq_true, beq_iff_eq] at h
    obtain ⟨⟨⟨⟨⟨hworking, hfrozen⟩, hrun⟩, hcoding⟩, hrequests⟩, hctx⟩ := h
    obtain ⟨r, hr⟩ := Option.isSome_iff_exists.mp hctx
    refine ⟨_, rfl, r, hr, ?_⟩
    simp only [hr]
    exact if_pos ⟨hworking, hfrozen, hrun, hcoding, hrequests⟩
  case preemptDelivered =>
    intro c s h
    simp only [canPreemptDelivered, Bool.and_eq_true] at h
    obtain ⟨⟨hworking, hasked⟩, hctx⟩ := h
    refine ⟨_, congrArg Host.Outcome.next (if_pos ⟨hworking, hasked, hctx⟩), ?_⟩
    have hdelivered := State.core_setCore_same (s := s) c { s.core c with asked := false, preempt := true, preemptAt := some s.now }
    have hothers := fun d (hd : d ≠ c.val) =>
      State.core_setCore_other (s := s) hd { s.core c with asked := false, preempt := true, preemptAt := some s.now }
    dsimp only
    split
    · next b _ =>
      split
      · obtain ⟨⟨run, saved, hcore⟩, hrest⟩ := takeCheap_core c b.cp (cheapEntry s c b.cp (s.core c).pc) (leaveWaits (coreAgent c)
          (s.setCore c { s.core c with asked := false, preempt := true, preemptAt := some s.now }))
        rw [hcore, core_leaveWaits, hdelivered]
        exact ⟨rfl, rfl, rfl, fun d hd => (hrest d hd).trans (hothers d hd), (takeCheap_only ..).mem rfl⟩
      · rw [hdelivered]
        exact ⟨rfl, rfl, rfl, hothers, rfl⟩
    · rw [hdelivered]
      exact ⟨rfl, rfl, rfl, hothers, rfl⟩

end Sys2Proof.Machine
end

section
/-! SUPPORT. The coding queue and its engines (R213 to R218), and the statement on ISSUE and coding descriptors. -/

namespace Sys2Proof.Machine

/-! ### Fields of the CODE page -/

theorem codingQueueOf_setCodingQueue (k : Nat) (l : List CodingItem) (s : State) : codingQueueOf (setCodingQueue k l s) k = l :=
  tabGet_put_same ..

theorem core_setCodingQueue (k : Nat) (l : List CodingItem) (s : State) (d : Nat) : (setCodingQueue k l s).core d = s.core d := State.core_setReg ..

theorem engineKey_lt (e : CodingEngine) : engineKey e < 72 := by
  cases e with
  | decoder e => exact Nat.lt_trans e.isLt (by decide)
  | encoder e => exact Nat.lt_trans (Nat.add_lt_add_left e.isLt 32) (by decide)
  | polar u => exact Nat.add_lt_add_left u.isLt 64

/-- The owner of an engine, read from its fields. -/
theorem ownerReg_eq (s : State) (key : Nat) :
    ownerReg s key = if s.flag codePage (ownerFields key).2.1 (ownerFields key).2.2 then some (s.reg codePage (ownerFields key).1 (ownerFields key).2.2)
      else none := by
  unfold ownerReg ownerFields
  dsimp only
  split
  · rfl
  · split <;> rfl

/-- The two fields of an engine's owner register: a partition of six bits and the bit VALID. -/
theorem ownerFields_apart : ∀ key < 72, (ownerFields key).1.len = 6 ∧ (ownerFields key).2.1.len = 1 ∧
    fieldBit codePage (ownerFields key).1 (ownerFields key).2.2 ≠ fieldBit codePage (ownerFields key).2.1 (ownerFields key).2.2 := by
  decide

theorem ownerReg_setFields {key : Nat} (hk : key < 72) (v : Nat) (s : State) :
    ownerReg ((s.setReg codePage (ownerFields key).1 v (ownerFields key).2.2).setReg codePage (ownerFields key).2.1 (v / 128) (ownerFields key).2.2) key =
      if v / 128 % 2 ≠ 0 then some (v % 64) else none := by
  obtain ⟨hpart, hvalid, hapart⟩ := ownerFields_apart key hk
  rw [ownerReg_eq]
  unfold State.flag
  rw [State.reg_setReg_same, State.reg_setReg_other _ hapart, State.reg_setReg_same, hpart, hvalid]
  simp only [bne_iff_ne]
  rfl

/-! ### CODING_DESCRIPTOR_START (R215) -/

/-- The state in which an engine has taken an owner's descriptor, or has ended it where it is past its tidemark. -/
def codingStarted (key k i : Nat) (e : CodingItem) (s : State) : State :=
  let t := setCodingQueue k ((codingQueueOf s k).eraseIdx i) s
  if (codingDesc e.cmd.desc).tidemark ≠ 0 ∧ (codingDesc e.cmd.desc).tidemark ≤ s.now % 2 ^ 64 then completeCoding key e { outcome := 2 } t
  else { t with coding := { t.coding with running := tabSet key (e, s.now) t.coding.running } }

/-- An engine that is idle starts the earliest descriptor of its owner. -/
theorem execCodingDescriptorStart_starts {engine : CodingEngine} {first : Bool} {s : State} {k i : Nat} {e : CodingItem}
    (hk : startOwner s engine first = some k) (hon : blockOn s codePage = true ∧ (tabFind (engineKey engine) s.coding.running).isNone = true)
    (hi : earliest (engineKey engine / 32) (codingQueueOf s k) = some (i, e)) :
    exec (.codingDescriptorStart engine first) s = .next (codingStarted (engineKey engine) k i e s) := by
  have hexec : exec (.codingDescriptorStart engine first) s = .next (match startOwner s engine first with
      | none => s
      | some k => if blockOn s codePage ∧ (tabFind (engineKey engine) s.coding.running).isNone then
          match earliest (engineKey engine / 32) (codingQueueOf s k) with
          | none => s
          | some (i, e) => codingStarted (engineKey engine) k i e s
        else s) := rfl
  rw [hexec, hk]
  dsimp only
  rw [if_pos hon, hi]

/-! ### CODING_DESCRIPTOR_DONE (R217) -/

theorem findSome?_map_eq_none {α β γ : Type} (f : α → Option β) (g : α → β → γ) (l : List α) :
    (l.findSome? fun a => (f a).map (g a)) = none ↔ l.findSome? f = none := by
  simp only [List.findSome?_eq_none_iff, Option.map_eq_none_iff]

/-- A read that is answered at once has the bytes that the partition holds. -/
theorem partBytesAll_of_partRead {s : State} {k a n : Nat} {b : List (Option Byte)} (h : s.partRead k a n = .data b) :
    s.partBytesAll k a n = b.mapM id := by
  unfold State.partRead at h
  unfold State.partBytesAll
  split at h
  · cases h
  · next herr =>
    rw [herr]
    dsimp only
    split at h
    · cases h
    · next hfind =>
      cases h
      have hawaits : (linesOf a n).any (awaitsPart s k) = false := by
        rw [List.any_eq_false]
        intro l hl hwait
        have := List.find?_eq_none.mp hfind l hl
        exact this (by rw [heldPart, hwait]; rfl)
      rw [hawaits]
      rfl

theorem codingReads_only (s : State) (k : Nat) (p : CodingDesc) : Only 6308878 s (codingReads s k p) := by
  unfold codingReads
  dsimp only
  split
  · exact (State.partTouch_only ..).trans (each_steps_only (fun _ _ => State.partTouch_only ..) _ _)
  · exact State.partTouch_only ..

/-- The state in which a descriptor that has read its input ends: its results are written after its reads. -/
def codingWritten (key : Nat) (e : CodingItem) (input : List Byte) (s : State) : State :=
  let p := codingDesc e.cmd.desc
  let r := codingResult s e.ctx.part e.cmd.desc input
  let t := ((codingReads s e.ctx.part p).each r.writes fun w u => u.partStore e.ctx.part w.1 w.2).usedFree ((p.size + 7) / 8)
  if r.status.harqUe then t.error codePage 0x0513 key (p.harqAddr % 2 ^ 32) else t

theorem codingWritten_effect (key : Nat) (e : CodingItem) (input : List Byte) (s : State) :
    (codingWritten key e input s).coding = s.coding ∧
      (codingWritten key e input s).mem = ((codingReads s e.ctx.part (codingDesc e.cmd.desc)).each
        (codingResult s e.ctx.part e.cmd.desc input).writes fun w x => x.partStore e.ctx.part w.1 w.2).mem := by
  have hstores := each_steps_only (f := fun (w : Nat × List Byte) x => State.partStore x e.ctx.part w.1 w.2) (fun _ _ => State.partStore_only ..)
    (codingResult s e.ctx.part e.cmd.desc input).writes (codingReads s e.ctx.part (codingDesc e.cmd.desc))
  have hcoding := (hstores.coding rfl).trans ((codingReads_only ..).coding rfl)
  unfold codingWritten
  dsimp only
  split
  · exact ⟨((State.error_only ..).coding rfl).trans hcoding, (State.error_only ..).mem rfl⟩
  · exact ⟨hcoding, rfl⟩

section
variable {engine : CodingEngine} {e : CodingItem} {start : Nat} {s : State}
  (hrun : tabFind (engineKey engine) s.coding.running = some (e, start)) (hon : ¬(!s.working ∨ s.flag codePage Rg.pageControlSoftReset))
include hrun hon

/-- A descriptor whose parameters fail ends with outcome 5. -/
theorem codingDone_params (hp : paramFails (codingDesc e.cmd.desc) = true) :
    exec (.codingDescriptorDone engine) s = .next (finishCoding (engineKey engine) e start { outcome := 5 } s) := by
  simp only [exec, execCodingDescriptorDone, hrun]
  exact congrArg Host.Outcome.next ((if_neg hon).trans (if_pos hp))

/-- A descriptor one of whose ranges is not in HBM ends with outcome 4. -/
theorem codingDone_fault (hp : paramFails (codingDesc e.cmd.desc) = false)
    (hf : (codingFault s e.ctx.part (codingDesc e.cmd.desc)).isSome = true) :
    ∃ u, u.coding = s.coding ∧ exec (.codingDescriptorDone engine) s = .next (finishCoding (engineKey engine) e start { outcome := 4 } u) := by
  obtain ⟨⟨status, bad⟩, hbad⟩ := Option.ne_none_iff_exists'.mp fun hnone =>
    Option.isSome_iff_ne_none.mp hf ((findSome?_map_eq_none _ (fun r a => (r.1 == (codingDesc e.cmd.desc).statusAddr && r.2.1 == 32, a)) _).mp hnone)
  have hexec : exec (.codingDescriptorDone engine) s = .next (finishCoding (engineKey engine) e start { outcome := 4 }
      ((if status then s else s.error codePage 0x0511 (engineKey engine) (bad % 2 ^ 32)).faultTouch e.ctx.part bad 1 false)) := by
    simp only [exec, execCodingDescriptorDone, hrun]
    refine congrArg Host.Outcome.next ((if_neg hon).trans ((if_neg (Bool.eq_false_iff.mp hp)).trans ?_))
    rw [hbad]
  refine ⟨_, ((State.faultTouch_only ..).coding rfl).trans ?_, hexec⟩
  split
  · rfl
  · exact (State.error_only ..).coding rfl

section
variable (hp : paramFails (codingDesc e.cmd.desc) = false) (hf : codingFault s e.ctx.part (codingDesc e.cmd.desc) = none)
  (hw : codingWaits s e.ctx.part (codingDesc e.cmd.desc) = false) {b : List (Option Byte)}
  (hb : s.partRead e.ctx.part (codingDesc e.cmd.desc).inAddr (codingSpan (codingDesc e.cmd.desc)).1 = .data b)
include hp hf hw hb

/-- An input byte that cannot be corrected ends a descriptor with outcome 3. -/
theorem codingDone_unreadable (hbad : b.mapM id = none) :
    ∃ u, u.coding = s.coding ∧ exec (.codingDescriptorDone engine) s = .next (finishCoding (engineKey engine) e start { outcome := 3 } u) := by
  have hnone := (findSome?_map_eq_none (fun r : Nat × Nat × Bool => notHbm s e.ctx.part r.1 r.2.1 r.2.2)
    (fun r a => (r.1 == (codingDesc e.cmd.desc).statusAddr && r.2.1 == 32, a)) _).mpr hf
  refine ⟨(s.partTouch e.ctx.part (codingDesc e.cmd.desc).inAddr (codingSpan (codingDesc e.cmd.desc)).1).error codePage 0x0512 (engineKey engine)
    (((codingDesc e.cmd.desc).inAddr + (b.findIdx fun o => o.isNone)) % 2 ^ 32), ?_, ?_⟩
  · exact ((State.error_only ..).coding rfl).trans ((State.partTouch_only ..).coding rfl)
  · simp only [exec, execCodingDescriptorDone, hrun]
    refine congrArg Host.Outcome.next ((if_neg hon).trans ((if_neg (Bool.eq_false_iff.mp hp)).trans ?_))
    rw [hnone]
    refine (if_neg (Bool.eq_false_iff.mp hw)).trans ?_
    rw [hb]
    simp only [hbad]

theorem codingDone_written {input : List Byte} (hinput : b.mapM id = some input) :
    exec (.codingDescriptorDone engine) s = .next (finishCoding (engineKey engine) e start
      (codingResult s e.ctx.part e.cmd.desc input).status (codingWritten (engineKey engine) e input s)) := by
  have hnone := (findSome?_map_eq_none (fun r : Nat × Nat × Bool => notHbm s e.ctx.part r.1 r.2.1 r.2.2)
    (fun r a => (r.1 == (codingDesc e.cmd.desc).statusAddr && r.2.1 == 32, a)) _).mpr hf
  simp only [exec, execCodingDescriptorDone, hrun]
  refine congrArg Host.Outcome.next ((if_neg hon).trans ((if_neg (Bool.eq_false_iff.mp hp)).trans ?_))
  rw [hnone]
  refine (if_neg (Bool.eq_false_iff.mp hw)).trans ?_
  rw [hb]
  simp only [hinput]
  rfl

end

end

/-! ### ISSUE (R137, R147, R156, R213, R447) -/

/-- An ISSUE that its engine takes is queued there, beside the program counter and the tag. -/
theorem runs_issue {i : Instr} {s : State} {c : Fin 160} {engine : Nat} {w : IssueWord} {contents fenced : BitVec 512 → State → Option Nat}
    {full : BitVec 512 → State → Bool} {enq : QueuedCmd → Core → State → Core}
    (h : issueTakes s c engine w (fun d t => (contents d t).isSome || (fenced d t).isSome || full d t) = true)
    (he : exec i s = .next (runInsn c (· == issueWord engine w) (issueBody c engine w contents fenced full enq) s))
    (hpc : ∀ q x u, (enq q x u).pc = x.pc) (hgpr : ∀ q x u, (enq q x u).gpr = x.gpr) :
    Runs i s fun t => Issued c w s t ∧ ∃ u, ∀ {α : Type} (f : Core → α), (∀ x, f (advance x) = f x) → (∀ x l, f { x with tags := l } = f x) →
      f (t.core c) = f (enq ⟨issuedDesc s c w, (s.core c).pc, issueTag w⟩ (s.core c) u) := by
  obtain ⟨u, v, -, hv, hs, hrun⟩ := issueBody_takes enq h
  refine ⟨_, he.trans (congrArg _ hrun), issued_of hv hs (hpc ..) (hgpr ..), u, fun f hadvance htags => ?_⟩
  rw [State.core_setCore_same, hadvance]
  split
  · rfl
  · exact htags ..

/-! ### The statement -/

/-- Settles O21: each ISSUE by the one lemma on what an engine takes, the coding commands by their guards. -/
theorem issuesAndCodingComplete : Obligations.IssuesAndCodingComplete := by
  unfold Obligations.IssuesAndCodingComplete
  refine ⟨?admission, ?start, ?done, ?ownerWrite, ?arrayPass, ?tileLoad, ?stream, ?coding, ?fabric⟩
  case admission =>
    intro c s h
    simp only [canCodingQueueAdmit, Bool.and_eq_true, bne_iff_ne] at h
    obtain ⟨⟨⟨⟨hworking, hqueue⟩, hroom⟩, hforced⟩, hrestoring⟩ := h
    obtain ⟨r, hr, hlen⟩ := any_some hroom
    cases hq : (s.core c).codingQueue with
    | nil => rw [hq] at hqueue; cases hqueue
    | cons q rest =>
      have hexec : exec (.codingQueueAdmit c) s = .next (setCodingQueue r.part (codingQueueOf s r.part ++ [⟨c, r, q⟩])
          (s.setCore c { s.core c with codingQueue := rest, codingOut := (s.core c).codingOut + 1 })) := by
        simp only [exec, execCodingQueueAdmit, hq, hr]
        exact congrArg Host.Outcome.next (if_pos ⟨hworking, of_decide_eq_true hlen, hforced, hrestoring⟩)
      have hcore := core_setCodingQueue r.part (codingQueueOf s r.part ++ [⟨c, r, q⟩])
        (s.setCore c { s.core c with codingQueue := rest, codingOut := (s.core c).codingOut + 1 }) c
      rw [State.core_setCore_same] at hcore
      refine ⟨_, hexec, q, rest, r, rfl, hr, codingQueueOf_setCodingQueue .., ?_, ?_, rfl⟩
      · rw [hcore]
      · rw [hcore]
  case start =>
    intro engine first s h
    simp only [canCodingDescriptorStart, Bool.and_eq_true] at h
    obtain ⟨⟨hon, hidle⟩, howner⟩ := h
    obtain ⟨k, hk, hearliest⟩ := any_some howner
    obtain ⟨⟨i, e⟩, hi⟩ := Option.isSome_iff_exists.mp hearliest
    refine ⟨_, execCodingDescriptorStart_starts hk ⟨hon, hidle⟩ hi, k, i, e, hk, hi, fun hearly => ?_, fun hmarked hlate => if_pos ⟨hmarked, hlate⟩⟩
    rw [codingStarted, if_neg (by omega)]
    exact ⟨tabFind_set_same .., codingQueueOf_setCodingQueue ..⟩
  case done =>
    intro engine s h
    simp only [canCodingDescriptorDone, Bool.and_eq_true, Bool.not_eq_true'] at h
    obtain ⟨⟨hworking, hreset⟩, hrunning⟩ := h
    obtain ⟨⟨e, start⟩, hrun, hends⟩ := any_some hrunning
    have hon : ¬(!s.working ∨ s.flag codePage Rg.pageControlSoftReset) := by simp [hworking, hreset]
    cases hp : paramFails (codingDesc e.cmd.desc) with
    | true =>
      exact ⟨_, codingDone_params hrun hon hp, e, start, _, s, hrun, rfl, rfl, fun _ => ⟨rfl, rfl⟩, fun h => (by cases hp.symm.trans h),
        fun h => (by cases hp.symm.trans h)⟩
    | false =>
      cases hf : codingFault s e.ctx.part (codingDesc e.cmd.desc) with
      | some at_ =>
        obtain ⟨u, hu, hexec⟩ := codingDone_fault hrun hon hp (hf ▸ rfl)
        exact ⟨_, hexec, e, start, _, u, hrun, hu, rfl, fun h => (by cases hp.symm.trans h), fun _ _ => rfl, fun _ h => (by cases hf.symm.trans h)⟩
      | none =>
        rw [hp, hf] at hends
        obtain ⟨hwaits, hread⟩ := Bool.and_eq_true_iff.mp hends
        rw [Bool.not_eq_true'] at hwaits
        split at hread
        case h_2 => cases hread
        case h_1 b hb =>
          have hbytes := partBytesAll_of_partRead hb
          cases hinput : b.mapM id with
          | none =>
            obtain ⟨u, hu, hexec⟩ := codingDone_unreadable hrun hon hp hf hwaits hb hinput
            exact ⟨_, hexec, e, start, _, u, hrun, hu, rfl, fun h => (by cases hp.symm.trans h), fun _ h => (by rw [hf] at h; cases h),
              fun _ _ => ⟨fun _ => rfl, fun b h => by cases (hbytes.trans hinput).symm.trans h⟩⟩
          | some input =>
            obtain ⟨hcoding, hmem⟩ := codingWritten_effect (engineKey engine) e input s
            refine ⟨_, codingDone_written hrun hon hp hf hwaits hb hinput, e, start, _, _, hrun, hcoding, rfl, fun h => (by cases hp.symm.trans h),
              fun _ h => (by rw [hf] at h; cases h), fun _ _ => ⟨fun h => (by cases (hbytes.trans hinput).symm.trans h), fun b h => ?_⟩⟩
            cases (hbytes.trans hinput).symm.trans h
            exact ⟨rfl, hmem⟩
  case ownerWrite =>
    intro who engine value s h
    refine ⟨_, congrArg Host.Outcome.next (writeAccess_taken h), ?_, rfl, rfl⟩
    rw [ownerReg_setFields (engineKey_lt engine)]
    have hbit : value.getLsbD 7 = decide (value.toNat / 128 % 2 = 1) := Nat.testBit_eq_decide_div_mod_eq
    rw [hbit]
    have htwo := Nat.mod_two_eq_zero_or_one (value.toNat / 128)
    simp only [decide_eq_true_eq, Nat.mod_two_ne_zero]
  case arrayPass =>
    intro c w s h
    obtain ⟨t, ht, hissued, u, hfield⟩ := runs_issue (i := .issueArrayPass c w) h rfl (fun _ _ _ => rfl) (fun _ _ _ => rfl)
    exact ⟨t, ht, hissued, _, hfield Core.arrayQueue advance_arrayQueue fun _ _ => rfl, rfl, rfl, rfl, rfl, rfl⟩
  case tileLoad =>
    intro c w s h
    obtain ⟨t, ht, hissued, u, hfield⟩ := runs_issue (i := .issueTileLoad c w) h rfl (fun _ _ _ => rfl) (fun _ _ _ => rfl)
    exact ⟨t, ht, hissued, _, hfield Core.arrayQueue advance_arrayQueue fun _ _ => rfl, rfl, rfl, rfl, rfl, rfl⟩
  case stream =>
    intro c w s h
    obtain ⟨t, ht, hissued, u, hfield⟩ := runs_issue (i := .issueStream c w) (fenced := fun _ _ => none)
      (by simp only [Option.isSome_none, Bool.or_false]; exact h) rfl (fun _ _ _ => rfl) (fun _ _ _ => rfl)
    refine ⟨t, ht, hissued, ?_⟩
    rw [slotOf, hfield Core.streams advance_streams fun _ _ => rfl]
    exact congrArg StreamSlot.queue (tabGet_put_same ..)
  case coding =>
    intro c w s h
    obtain ⟨t, ht, hissued, u, hfield⟩ := runs_issue (i := .issueCoding c w) (fenced := fun _ _ => none)
      (by simp only [Option.isSome_none, Bool.or_false]; exact h) rfl (fun _ _ _ => rfl) (fun _ _ _ => rfl)
    exact ⟨t, ht, hissued, hfield Core.codingQueue advance_codingQueue fun _ _ => rfl, hfield Core.nonidem (fun _ => rfl) fun _ _ => rfl⟩
  case fabric =>
    intro c w s h
    obtain ⟨t, ht, hissued, u, hfield⟩ := runs_issue (i := .issueFabric c w) (fenced := fun _ _ => none)
      (by simp only [Option.isSome_none, Bool.or_false]; exact h) rfl (fun _ _ _ => rfl) (fun _ _ _ => rfl)
    exact ⟨t, ht, hissued, hfield Core.fabricQueue advance_fabricQueue fun _ _ => rfl, hfield Core.nonidem (fun _ => rfl) fun _ _ => rfl⟩

end Sys2Proof.Machine
end

section
/-! SUPPORT. The slots of a core's stream engine (R155 to R158), and the statement on their actions. -/

namespace Sys2Proof.Machine

/-! ### A slot of a core and its status -/

theorem slotOf_setSlot (n : Nat) (v : StreamSlot) (x : Core) : slotOf (setSlot n v x) n = v := tabGet_put_same ..

theorem slotOf_finishTag (tag : Option Nat) (error : Bool) (x : Core) (n : Nat) : slotOf (finishTag tag error x) n = slotOf x n := by
  cases tag <;> rfl

theorem core_slotStatus (c n state err : Nat) (s : State) (d : Nat) : (slotStatus c n state err s).core d = s.core d := by
  rw [slotStatus, State.core_setReg, State.core_setReg]

theorem mem_slotStatus (c n state err : Nat) (s : State) : (slotStatus c n state err s).mem = s.mem := (slotStatus_only ..).mem rfl

theorem streamStatus_apart (c : Fin 160) (slot : Fin 16) :
    fieldBit (corePage c) Rg.coreStreamStatusState slot ≠ fieldBit (corePage c) Rg.coreStreamStatusError slot := by
  refine fieldBit_ne ?_
  revert slot
  decide

theorem reg_slotStatus (c : Fin 160) (slot : Fin 16) (state err : Nat) (s : State) :
    (slotStatus c slot state err s).reg (corePage c) Rg.coreStreamStatusState slot = state % 2 ^ Rg.coreStreamStatusState.len := by
  rw [slotStatus, State.reg_setReg_other _ (streamStatus_apart c slot), State.reg_setReg_same]

/-! ### STREAM_HALT (R158) -/

/-- What a slot that meets a line it cannot move reports before it stops. -/
def haltReported (c slot k : Nat) (p : StreamDesc) (v : StreamSlot) (code addr : Nat) (s : State) : State :=
  let off := lineOffset p v.moved ((lineIndex s .spad (spadKey c 0) p v.moved).getD 0)
  let t := if code = 2 then s.faultTouch k addr 1 p.out
    else if code = 1 ∧ !p.out then s.partTouch k (addrAt p.mem off) 64 p.cacheHint else s
  if code = 1 then t.error (corePage c) 0x0103 slot addr else t

/-- The state of a slot that has stopped: the command leaves its queue, its tag is done with an error, and INT_STATUS bit 4 is set. -/
def streamHalted (c slot k : Nat) (v : StreamSlot) (q : QueuedCmd) (p : StreamDesc) (code addr : Nat) (s : State) : State :=
  let t := haltReported c slot k p v code addr s
  let t := t.setCore c (finishTag q.tag true (setSlot slot { v with queue := v.queue.drop 1, started := false, moved := 0 } (t.core c)))
  ((slotStatus c slot 3 code t).setReg (corePage c) Rg.coreStreamErrorAddrAddress addr slot).raise (corePage c) 4

theorem execStreamHalt_halts {c : Fin 160} {slot : Fin 16} {s : State} {v : StreamSlot} {q : QueuedCmd} {p : StreamDesc} {k code addr : Nat}
    (hrun : runningSlot s c slot = some (v, q, p, k)) (hline : v.moved < streamLines p ∧ ringAllows p v = true)
    (hmeets : lineMeets s k c p (ringBase v) v.moved = .halts code addr) :
    exec (.streamHalt c slot) s = .next (streamHalted c slot k v q p code addr s) := by
  simp only [exec, execStreamHalt, hrun]
  refine congrArg Host.Outcome.next ((if_pos hline).trans ?_)
  rw [hmeets]
  rfl

theorem core_streamHalted (c slot k : Nat) (v : StreamSlot) (q : QueuedCmd) (p : StreamDesc) (code addr : Nat) (s : State) :
    (streamHalted c slot k v q p code addr s).core c =
      finishTag q.tag true (setSlot slot { v with queue := v.queue.drop 1, started := false, moved := 0 } ((haltReported c slot k p v code addr s).core c)) := by
  rw [streamHalted, State.core_raise, State.core_setReg, core_slotStatus, State.core_setCore_same]

/-! ### The statement -/

/-- Settles O38: each action by its guard, and the slot, the tag and the status that it then sets. -/
theorem streamActionsComplete : Obligations.StreamActionsComplete := by
  unfold Obligations.StreamActionsComplete
  refine ⟨?slotStart, ?lineMoved, ?slotDone, ?halt⟩
  case slotStart =>
    intro c slot s h
    simp only [canStreamSlotStart, Bool.and_eq_true] at h
    obtain ⟨⟨hruns, hidle⟩, hqueue⟩ := h
    refine ⟨_, congrArg Host.Outcome.next (if_pos ⟨hruns, hidle, hqueue⟩), ?_⟩
    dsimp only
    rw [core_slotStatus, State.core_setCore_same, slotOf_setSlot, reg_slotStatus, mem_slotStatus]
    exact ⟨rfl, rfl, rfl, rfl, rfl⟩
  case lineMoved =>
    intro c slot s h
    obtain ⟨⟨v, q, p, k⟩, hrun, hmoves⟩ := any_some h
    simp only [Bool.and_eq_true, decide_eq_true_eq, beq_iff_eq] at hmoves
    obtain ⟨hline, hmeets⟩ := hmoves
    have hexec : exec (.streamLineMoved c slot) s = .next (
        let u := spadWait c (if p.out then moveOut k c p (ringBase v) v.moved s else moveIn k c p (ringBase v) v.moved s)
        u.setCore c (setSlot slot { v with moved := v.moved + 1, produced := v.produced + 1 } (u.core c))) := by
      simp only [exec, execStreamLineMoved, hrun]
      refine congrArg Host.Outcome.next ((if_pos hline).trans ?_)
      rw [hmeets]
    exact ⟨_, hexec, v, q, p, k, hrun, rfl⟩
  case slotDone =>
    intro c slot s h
    obtain ⟨⟨v, q, p, k⟩, hrun, hall⟩ := any_some h
    have hexec : exec (.streamSlotDone c slot) s = .next (slotStatus c slot 2 0 (s.setCore c (finishTag q.tag false
        (setSlot slot { v with queue := v.queue.drop 1, started := false, moved := 0 } (s.core c))))) := by
      simp only [exec, execStreamSlotDone, hrun]
      exact congrArg Host.Outcome.next (if_pos (beq_iff_eq.mp hall))
    refine ⟨_, hexec, v, q, p, k, hrun, ?_⟩
    rw [core_slotStatus, State.core_setCore_same, slotOf_finishTag, slotOf_setSlot, reg_slotStatus, mem_slotStatus]
    exact ⟨rfl, rfl, fun tag htag => finishTag_done htag .., rfl, rfl⟩
  case halt =>
    intro c slot s h
    obtain ⟨⟨v, q, p, k⟩, hrun, hhalts⟩ := any_some h
    simp only [Bool.and_eq_true, decide_eq_true_eq] at hhalts
    obtain ⟨hline, hstops⟩ := hhalts
    split at hstops
    case h_2 => cases hstops
    case h_1 code addr hmeets =>
      refine ⟨_, execStreamHalt_halts hrun hline hmeets, v, q, p, k, code, addr, hrun, hmeets, ?_⟩
      rw [core_streamHalted, slotOf_finishTag, slotOf_setSlot]
      exact ⟨rfl, fun tag htag => finishTag_done htag .., raised_bit _ _ 4 (by decide)⟩

end Sys2Proof.Machine
end

section
/-! SUPPORT. Loads and stores within one word of a memory (R152, R162, R631), and the statement on the scalar instructions. -/

namespace Sys2Proof.Machine

/-! ### What a core's instruction leaves of the other agents -/

theorem Only.sigc_same {m : Nat} {s t : State} (h : Only m s t) (hm : m.testBit 11 = false) (k : Nat) : t.sigc k = s.sigc k := by
  unfold State.sigc
  rw [h.sigcs hm]

/-- The end of an instruction that before it has left all cores and signal cores alone. -/
theorem setCore_agents {m : Nat} {s u : State} (h : Only m s u) (hcores : m.testBit 9 = false) (hsigcs : m.testBit 11 = false) (c : Fin 160) (x : Core) :
    (u.setCore c x).core c = x ∧ OthersSame (.core c) s (u.setCore c x) := by
  refine ⟨State.core_setCore_same .., fun d hd => ?_, fun j _ => ?_⟩
  · rw [State.core_setCore_other _ (hd c rfl), h.core_same hcores]
  · rw [State.sigc_setCore, h.sigc_same hsigcs]

theorem sDone_agents {m : Nat} {s u : State} (h : Only m s u) (hcores : m.testBit 9 = false) (hsigcs : m.testBit 11 = false) (k : Fin 64) (x : Sigc)
    (conflict : Bool) : let t := sDone k (dmemWait k conflict (u.setSigc k x))
    t.sigc k = sNext x ∧ OthersSame (.sigc k) s t := by
  have hwait : ∀ j, (dmemWait k conflict (u.setSigc k x)).sigc j = (u.setSigc k x).sigc j :=
    (dmemWait_only ..).sigc_same rfl
  refine ⟨?_, fun d _ => ?_, fun j hj => ?_⟩
  · rw [sDone_sigc, hwait, State.sigc_setSigc_same]
  · calc (sDone k (dmemWait k conflict (u.setSigc k x))).core d = (dmemWait k conflict (u.setSigc k x)).core d := State.core_setSigc ..
      _ = u.core d := ((dmemWait_only ..).core_same rfl d).trans (State.core_setSigc ..)
      _ = s.core d := h.core_same hcores d
  · rw [sDone_other (hj k rfl), hwait, State.sigc_setSigc_other _ (hj k rfl), h.sigc_same hsigcs]

theorem mem_sDone (k : Nat) (conflict : Bool) (x : Sigc) (u : State) : (sDone k (dmemWait k conflict (u.setSigc k x))).mem = u.mem := by
  rw [sDone, State.setSigc_mem, (dmemWait_only ..).mem rfl, State.setSigc_mem]

theorem flag_fetchCore {s : State} {c : Fin 160} {sp : Nat → Bool} (h : coreRuns s c sp = true)
    (ha : s.flag raspPage Rg.raspFlipControlArm = false) : (fetchCore c s).flag raspPage Rg.raspFlipControlArm = false := by
  unfold State.flag
  rw [reg_fetchCore (coreRuns_executes h) (by decide) (by decide)]
  exact ha

theorem spad_fetchCore {s : State} {c : Fin 160} {sp : Nat → Bool} (h : coreRuns s c sp = true) : (fetchCore c s).mem.spad = s.mem.spad :=
  spad_fetchAgent (a := .core c) h

/-! ### A write within one word -/

theorem tabDel_idem {α : Type} (k : Nat) (m : Table α) : tabDel k (tabDel k m) = tabDel k m := by
  induction m with
  | nil => rfl
  | cons e m ih =>
    by_cases h : e.1 = k
    · simp only [tabDel, if_pos h, ih]
    · simp only [tabDel, if_neg h, ih]

/-- An access that crosses no word is of the one word that it lies in. -/
theorem wordsOf_one {r : Region} {a n : Nat} (hn : n ≠ 0) (h : a % cwBytes r + n ≤ cwBytes r) : wordsOf r a n = [a / cwBytes r] := by
  have hpos : 0 < cwBytes r := by omega
  have hlast : (a + n - 1) / cwBytes r = a / cwBytes r := by
    rw [Nat.div_eq_iff hpos]
    have := Nat.div_add_mod a (cwBytes r)
    rw [Nat.mul_comm] at this
    omega
  rw [wordsOf, if_neg hn, hlast, Nat.sub_self]
  simp

/-- A write into a good word clears its flipped bits itself: it makes the same of the word corrected before. -/
theorem writeWord_corrected {r : Region} {m : Memory} {w : Nat} (h : cwBad r m w = false) (a : Nat) (bytes : List Byte) (p : Nat → Bool) :
    writeWord r a bytes (corrected ([w].filter p) m) w = writeWord r a bytes m w := by
  cases hp : p w with
  | false => rw [List.filter_cons_of_neg (by simp [hp]), List.filter_nil]; rfl
  | true =>
    rw [List.filter_cons_of_pos hp, List.filter_nil]
    have hgood : cwBad r (corrected [w] m) w = false := (cwBad_corrected (fun v hv => by rw [List.mem_singleton.mp hv, h]) w).trans h
    have hflips : tabDel w (corrected [w] m).flips = tabDel w m.flips := tabDel_idem w m.flips
    unfold writeWord
    simp only [h, hgood, hflips, Bool.not_false, or_true, if_true]
    rfl

section
variable {s : State} {a : Nat} {bytes : List Byte}

/-- ST reads the word that it writes in part. -/
def beforePartStore (a n : Nat) (s : State) : State := if n < 8 then s.readEffect .spad a n else s

theorem beforePartStore_only (a n : Nat) (s : State) : Only 6291466 s (beforePartStore a n s) := by
  unfold beforePartStore
  split
  · exact State.readEffect_only ..
  · exact Only.refl ..

/-- A scratchpad store of a scalar width, aligned, into a word that it covers or that is good, writes its bytes and no others. -/
theorem spad_scalarStore (hn : bytes.length ≠ 0) (hal : a % 8 + bytes.length ≤ 8) (hgood : bytes.length < 8 → cwBad .spad s.mem.spad (a / 8) = false)
    (harm : s.flag raspPage Rg.raspFlipControlArm = false) :
    ((beforePartStore a bytes.length s).store .spad a bytes).mem.spad = writeBytes .spad a bytes s.mem.spad := by
  unfold beforePartStore
  have hone : wordsOf .spad a bytes.length = [a / 8] := wordsOf_one hn hal
  split
  case isFalse hwhole => exact store_spad (by omega) (by omega) harm
  case isTrue hpart =>
    have hw := hgood hpart
    have hws : (wordsOf .spad a bytes.length).all (fun w => !cwBad .spad (s.memory .spad) w) = true := by
      rw [hone, List.all_cons, List.all_nil, Bool.and_true]
      exact congrArg not hw
    have hmem : ∃ p, (s.readEffect .spad a bytes.length).memory .spad = corrected ([a / 8].filter p) s.mem.spad := by
      unfold State.readEffect
      rw [readWords_good hws, hone]
      exact ⟨_, rfl⟩
    obtain ⟨p, hp⟩ := hmem
    have hfixed : ∀ w ∈ [a / 8].filter p, cwBad .spad s.mem.spad w = false := fun w hmem => by
      rw [List.mem_singleton.mp (List.mem_of_mem_filter hmem), hw]
    have harmed : (s.readEffect .spad a bytes.length).flag raspPage Rg.raspFlipControlArm = false := by
      unfold State.flag State.readEffect
      rw [reg_readWords_good hws (by decide) (by decide)]
      exact harm
    have hhalves : badHalves .spad a bytes.length ((s.readEffect .spad a bytes.length).memory .spad) = [] := by
      unfold badHalves
      rw [hp, hone, List.filter_cons_of_neg (by rw [cwBad_corrected hfixed, hw, Bool.false_and]; decide), List.filter_nil]
    have hstore := store_memory hhalves harmed
    calc ((s.readEffect .spad a bytes.length).store .spad a bytes).mem.spad
        = writeBytes .spad a bytes ((s.readEffect .spad a bytes.length).memory .spad) := hstore
      _ = writeBytes .spad a bytes s.mem.spad := by
        rw [hp]
        unfold writeBytes
        rw [hone]
        exact writeWord_corrected hw ..

end

/-! ### LD and ST of a core -/

section
variable {s : State} {c : Fin 160} {width : ScalarWidth} {ra : Fin 32} {offset : BitVec 64}
  (hal : (getG (s.core c) ra + offset).toNat % widthBytes width = 0) (hrange : (getG (s.core c) ra + offset).toNat < 2 ^ 22)
include hal hrange

theorem ldBody_loads {b : List Byte} (hb : s.spadRead c (getG (s.core c) ra + offset).toNat (widthBytes width) = some b) (signed : Bool) (rd : Fin 32) :
    ldBody c width signed rd ra offset s =
      (spadWait c (s.readEffect .spad (spadKey c (getG (s.core c) ra + offset).toNat) (widthBytes width))).setCore c
        (advance (setG rd (extendLoad width signed (leNat b)) (s.core c))) := by
  refine (if_neg (not_not_intro hal)).trans ((if_neg (Nat.not_le.mpr hrange)).trans ?_)
  rw [hb]

theorem stBody_stores (hgood : width = .b64 ∨ cwBad .spad s.mem.spad (spadKey c (getG (s.core c) ra + offset).toNat / 8) = false) (rs : Fin 32) :
    stBody c width rs ra offset s =
      (spadWait c ((beforePartStore (spadKey c (getG (s.core c) ra + offset).toNat) (widthBytes width) s).spadWrite c (getG (s.core c) ra + offset).toNat
        (toBytes (widthBytes width) (getG (s.core c) rs).toNat))).setCore c (advance (s.core c)) := by
  refine (if_neg (not_not_intro hal)).trans ((if_neg (Nat.not_le.mpr hrange)).trans (if_neg fun hbad => ?_))
  obtain hwhole | hgood := hgood
  · rw [hwhole] at hbad
    exact absurd hbad.1 (by decide)
  · rw [hgood] at hbad
    exact absurd hbad.2 (by decide)

end

/-- An aligned access of a scalar width crosses no word. -/
theorem widthBytes_within {a : Nat} {width : ScalarWidth} (h : a % widthBytes width = 0) (c : Nat) :
    spadKey c a % 8 + widthBytes width ≤ 8 ∧ widthBytes width ≠ 0 := by
  unfold spadKey
  cases width <;> simp only [widthBytes] at h ⊢ <;> omega

/-! ### LD and ST of a signal core -/

/-- A raw load of readable bytes sets its register, after the modification of aN. -/
theorem rawLoad_loads {s : State} {k : Fin 64} {a : Fin 16} {pre : Bool} {step : Int} {width : ScalarWidth} {next : BitVec 64} {at_ : Nat} {b : List Byte}
    (h : rawAt s k a pre step (widthBytes width) = some (next, at_)) (hb : readAll .dmem s.mem.dmem (dmemKey k at_) (widthBytes width) = some b)
    (signed : Bool) (rd : Fin 32) :
    rawLoad k a pre step width signed rd s =
      let u := (s.usedFree 2).readEffect .dmem (dmemKey k at_) (widthBytes width)
      sDone k (dmemWait k false (u.setSigc k (setAK rd (extendLoad width signed (leNat b)) (setA a next (u.sigc k))))) := by
  unfold rawLoad
  rw [rawInsn_runs _ h]
  dsimp only [State.usedFree_mem]
  rw [hb]

theorem rawStore_stores {s : State} {k : Fin 64} {a : Fin 16} {pre : Bool} {step : Int} {width : ScalarWidth} {next : BitVec 64} {at_ : Nat}
    (h : rawAt s k a pre step (widthBytes width) = some (next, at_)) (rs : Fin 32) :
    rawStore k a pre step width rs s =
      let u := (s.usedFree 2).store .dmem (dmemKey k at_) (toBytes (widthBytes width) (getAK (s.sigc k) rs).toNat)
      sDone k (dmemWait k false (u.setSigc k (setA a next (u.sigc k)))) :=
  rawInsn_runs _ h

/-- An aligned access below the end of the data memory ends in it. -/
theorem widthBytes_fits {a : Nat} {width : ScalarWidth} (h : a % widthBytes width = 0) (hlt : a < 2 ^ 19) : a + widthBytes width ≤ 2 ^ 19 := by
  cases width <;> simp only [widthBytes] at h ⊢ <;> omega

/-! ### The statement -/

/-- Settles O51: a scalar or branch instruction sets its core alone; LD and ST by the equations of their accesses. -/
theorem scalarInstructionsComplete : Obligations.ScalarInstructionsComplete := by
  unfold Obligations.ScalarInstructionsComplete
  refine ⟨?scalar, ?branch, ?ld, ?st⟩
  case scalar =>
    intro c insn s h
    obtain ⟨hruns, hplain⟩ := Bool.and_eq_true_iff.mp h
    have hcore : (fetchCore c s).core c = s.core c := fetchCore_core ..
    rw [← hcore] at hplain
    refine .of_runInsn hruns rfl ?_
    obtain ⟨x, hx⟩ := scalarBody_plain hplain
    refine ⟨?_, ?_, ?_, fun d hd => ?_⟩
    · rintro o rd ra b rfl
      have hbody : scalarBody c (.op o rd ra b) (fetchCore c s) = (fetchCore c s).setCore c _ :=
        if_neg (Bool.eq_false_iff.mp ((Bool.not_eq_true' _).mp hplain))
      rw [hbody, State.core_setCore_same, hcore]
    · rintro rd rc ra b rfl
      rw [scalarBody, State.core_setCore_same, hcore]
    · rintro rd ra rfl
      rw [scalarBody, State.core_setCore_same, hcore]
    · rw [hx]
      exact (othersSame_setCore c x s).1 d fun e he => by cases he; exact hd
  case branch =>
    intro c insn s h
    obtain ⟨hruns, hplain⟩ := Bool.and_eq_true_iff.mp h
    have hcore : (fetchCore c s).core c = s.core c := fetchCore_core ..
    rw [← hcore] at hplain
    refine .of_runInsn hruns rfl ?_
    obtain ⟨x, hx⟩ := branchBody_plain hplain
    refine ⟨?_, ?_, ?_, ?_, fun d hd => ?_⟩
    · rintro cond ra rb target rfl
      rw [branchBody, State.core_setCore_same, hcore]
    · rintro target rfl
      rw [branchBody, State.core_setCore_same, hcore]
    · rintro rd target rfl
      rw [branchBody, State.core_setCore_same, hcore]
    · rintro ra rfl
      have hbody : branchBody c (.indirect ra) (fetchCore c s) = (fetchCore c s).setCore c _ := if_neg (not_not_intro (of_decide_eq_true hplain))
      rw [hbody, State.core_setCore_same, hcore]
    · rw [hx]
      exact (othersSame_setCore c x s).1 d fun e he => by cases he; exact hd
  case ld =>
    intro place width signed rd s h
    unfold canLd at h
    cases hplace : placeRaw place with
    | none =>
      cases place with
      | post k a step => cases hplace
      | pre k a step => cases hplace
      | core c ra offset =>
        simp only [hplace, Bool.and_eq_true, decide_eq_true_eq] at h
        obtain ⟨⟨⟨hruns, hal⟩, hrange⟩, hread⟩ := h
        obtain ⟨b, hb⟩ := Option.isSome_iff_exists.mp hread
        have hcore : (fetchCore c s).core c = s.core c := fetchCore_core ..
        have hfetched : (fetchCore c s).spadRead c (getG (s.core c) ra + offset).toNat (widthBytes width) = some b := by
          rw [← hb, State.spadRead, State.spadRead, spad_fetchCore hruns]
        refine .of_runInsn hruns rfl ?_
        rw [ldBody_loads (hcore.symm ▸ hal) (hcore.symm ▸ hrange) (hcore.symm ▸ hfetched), hcore]
        refine ⟨fun c' ra' offset' he => ?_, fun _ _ _ _ he => by cases he⟩
        cases he
        rw [hb]
        exact (setCore_agents (m := 6291470) (((fetchCore_only c s).mono rfl).trans
          (((State.readEffect_only ..).mono rfl).trans ((spadWait_only ..).mono rfl))) rfl rfl c _).symm
    | some r =>
      obtain ⟨k, a, pre, step⟩ := r
      simp only [hplace, Bool.and_eq_true] at h
      obtain ⟨hruns, hreads⟩ := h
      obtain ⟨⟨next, at_⟩, hat, hread⟩ := any_some hreads
      obtain ⟨b, hb⟩ := Option.isSome_iff_exists.mp hread
      refine .of_runSInsn hruns (exec_ld_raw hplace width signed rd s) ?_
      rw [rawLoad_loads ((rawAt_fetch ..).trans hat) ((dmem_fetchSigc hruns).symm ▸ hb)]
      refine ⟨fun _ _ _ he => (by cases he; cases hplace), fun k' a' pre' step' he => ?_⟩
      cases he
      have honly : Only 6291470 s (((fetchSigc k s).usedFree 2).readEffect .dmem (dmemKey k at_) (widthBytes width)) :=
        ((fetchSigc_only k s).mono rfl).trans (((State.usedFree_only ..).mono rfl).trans ((State.readEffect_only ..).mono rfl))
      obtain ⟨hsame, hothers⟩ := sDone_agents honly rfl rfl k (setAK rd (extendLoad width signed (leNat b)) (setA a next (s.sigc k))) false
      dsimp only
      rw [honly.sigc_same rfl]
      exact ⟨next, at_, b, hat, hb, hothers, hsame⟩
  case st =>
    intro place width rs s h
    unfold canSt at h
    cases hplace : placeRaw place with
    | none =>
      cases place with
      | post k a step => cases hplace
      | pre k a step => cases hplace
      | core c ra offset =>
        simp only [hplace, Bool.and_eq_true, decide_eq_true_eq, Bool.or_eq_true, beq_iff_eq, Bool.not_eq_true'] at h
        obtain ⟨⟨⟨hruns, hal⟩, hrange⟩, hgood⟩ := h
        have hcore : (fetchCore c s).core c = s.core c := fetchCore_core ..
        refine .of_runInsn hruns rfl ?_
        rw [stBody_stores (hcore.symm ▸ hal) (hcore.symm ▸ hrange) (hcore.symm ▸ (spad_fetchCore hruns).symm ▸ hgood), hcore]
        refine ⟨fun c' ra' offset' he => ?_, fun _ _ _ _ he => by cases he⟩
        cases he
        obtain ⟨hsame, hothers⟩ := setCore_agents (m := 6291470) (((fetchCore_only c s).mono rfl).trans
          (((beforePartStore_only _ _ _).mono rfl).trans (((State.spadWrite_only _ _ _ _).mono rfl).trans ((spadWait_only c _).mono rfl)))) rfl rfl c _
        refine ⟨hothers, hsame, fun harm => ?_⟩
        obtain ⟨hwithin, hn⟩ := widthBytes_within hal c
        rw [← toBytes_length (widthBytes width) (getG (s.core c) rs).toNat] at hwithin hn
        have hstore := spad_scalarStore (s := fetchCore c s) hn hwithin (fun hpart => ?_) (flag_fetchCore hruns harm)
        · rw [toBytes_length, spad_fetchCore hruns] at hstore
          rw [State.setCore_mem, (spadWait_only ..).mem rfl]
          exact hstore
        · rw [spad_fetchCore hruns]
          refine hgood.resolve_left fun hwhole => ?_
          rw [hwhole, toBytes_length] at hpart
          exact absurd hpart (by decide)
    | some r =>
      obtain ⟨k, a, pre, step⟩ := r
      simp only [hplace, Bool.and_eq_true] at h
      obtain ⟨hruns, hlegal⟩ := h
      obtain ⟨⟨next, at_⟩, hat⟩ := Option.isSome_iff_exists.mp hlegal
      obtain ⟨-, -, -, hal, hrange⟩ := rawAt_some hat
      refine .of_runSInsn hruns (exec_st_raw hplace width rs s) ?_
      rw [rawStore_stores ((rawAt_fetch ..).trans hat), fetchSigc_sigc]
      refine ⟨fun _ _ _ he => (by cases he; cases hplace), fun k' a' pre' step' he => ?_⟩
      cases he
      have honly : Only 6291470 s (((fetchSigc k s).usedFree 2).store .dmem (dmemKey k at_) (toBytes (widthBytes width) (getAK (s.sigc k) rs).toNat)) :=
        ((fetchSigc_only k s).mono rfl).trans (((State.usedFree_only ..).mono rfl).trans ((State.store_only ..).mono rfl))
      obtain ⟨hsame, hothers⟩ := sDone_agents honly rfl rfl k (setA a next (s.sigc k)) false
      dsimp only
      rw [honly.sigc_same rfl]
      refine ⟨next, at_, hat, hothers, hsame, fun harm => ?_⟩
      have hstore := store_dmem (s := (fetchSigc k s).usedFree 2) (k := k) (bytes := toBytes (widthBytes width) (getAK (s.sigc k) rs).toNat)
        (by rw [toBytes_length]; exact widthBytes_fits hal hrange) (flag_fetchSigc hruns harm)
      rw [State.usedFree_mem, dmem_fetchSigc hruns] at hstore
      rw [mem_sDone, hstore]

end Sys2Proof.Machine
end

section
/-! SUPPORT. Semaphores taken, returned, set and granted (R164), and the statement on their instructions. -/

namespace Sys2Proof.Machine

/-! ### The bodies of the semaphore instructions where they succeed -/

section
variable {a : Agent} {w : SyncWord} {s : State} {n : Nat} (hn : semOf s a (agentReg s a w.gs) = some n)
include hn

theorem semacqBody_takes (hlegal : syncLegal a w [w.gd, w.gs, w.gt] = true) (hgrant : grantable (s.sem n) = true) (hwaiters : (s.sem n).waiters = [])
    (hlate : (lateOf s a).contains n = false) (howns : ownsSem s a n = false) (hlocks : ¬((s.sem n).lock = true ∧ agentLocks s a ≥ 255)) :
    semacqBody a w s = agentDone a w.gd (grantStatus (s.sem n)) (takeSem a n (markCounter a n s)) := by
  refine (if_neg (syncLegal_not hlegal)).trans ?_
  rw [hn]
  refine (if_neg (Bool.eq_false_iff.mp hlate)).trans ((if_neg (Bool.eq_false_iff.mp howns)).trans ((if_neg hlocks).trans (if_pos ⟨hgrant, ?_⟩)))
  rw [hwaiters]
  rfl

theorem semtryBody_takes (hlegal : syncLegal a w [w.gd, w.gs] = true) (hgrant : grantable (s.sem n) = true) (hwaiters : (s.sem n).waiters = [])
    (howns : ownsSem s a n = false) (hlocks : ¬((s.sem n).lock = true ∧ agentLocks s a ≥ 255)) :
    semtryBody a w s = agentDone a w.gd (grantStatus (s.sem n)) (takeSem a n s) := by
  refine (if_neg (syncLegal_not hlegal)).trans ?_
  rw [hn]
  refine (if_neg (Bool.eq_false_iff.mp howns)).trans ((if_neg hlocks).trans (if_pos ⟨hgrant, ?_⟩))
  rw [hwaiters]
  rfl

theorem semsetBody_sets (hlegal : syncLegal a w [w.gd, w.gs, w.gt] = true) (hwaiters : (s.sem n).waiters = [])
    (hheld : ¬((s.sem n).lock = true ∧ (s.sem n).owner.isSome = true))
    (hvalue : ¬((agentReg s a w.gt).getLsbD 63 = true ∧ (agentReg s a w.gt).toNat % 2 ^ 63 ≠ 0 ∨ (agentReg s a w.gt).toNat % 2 ^ 63 > 2 ^ 32 - 1)) :
    semsetBody a w s = agentDone a w.gd 0 (markCounter a n (s.setSem n
      { lock := (agentReg s a w.gt).getLsbD 63, count := (agentReg s a w.gt).toNat % 2 ^ 63, owner := none, aborted := false, waiters := [] })) := by
  refine (if_neg (syncLegal_not hlegal)).trans ?_
  rw [hn]
  refine (if_neg hvalue).trans (if_neg (not_or_intro ?_ hheld))
  rw [hwaiters]
  decide

end

section
variable {a : Agent} {gd gs : Fin 32} {count rsvd : BitVec 8} {s : State} {n : Nat} (hrsvd : rsvd = 0) (hlacks : lacks a [gd, gs] = false)
  (hn : semOf s a (agentReg s a gs) = some n)
include hrsvd hlacks hn

/-- A lock returned by its owner is free, and no other semaphore changes. -/
theorem semrelBody_lock (hlock : (s.sem n).lock = true) (howns : ownsSem s a n = true) :
    ((semrelBody a gd gs count rsvd s).sem n).owner = none ∧ ∀ m, m ≠ n → (semrelBody a gd gs count rsvd s).sem m = s.sem m := by
  have hbody : semrelBody a gd gs count rsvd s = releaseDonation a n (agentDone a gd 0
      (let t := setLocks a (agentLocks s a - 1) (s.setSem n { s.sem n with owner := none }); setLate a ((lateOf t a).erase n) t)) := by
    refine (if_neg (not_or_intro (not_not_intro hrsvd) (Bool.eq_false_iff.mp hlacks))).trans ?_
    rw [hn]
    exact (if_pos hlock).trans (if_pos howns)
  have hsem : ∀ m, (semrelBody a gd gs count rsvd s).sem m = (s.setSem n { s.sem n with owner := none }).sem m := fun m => by
    rw [hbody, sem_releaseDonation, sem_agentDone, sem_setLate, sem_setLocks]
  exact ⟨by rw [hsem, State.sem_setSem_same], fun m hm => (hsem m).trans (State.sem_setSem_other _ hm _)⟩

/-- A counter returned takes its count, and no other semaphore changes. -/
theorem semrelBody_counter (hlock : (s.sem n).lock = false) :
    (semrelBody a gd gs count rsvd s).sem n =
        { s.sem n with count := min ((s.sem n).count + (if count = 0 then 1 else count.toNat)) (2 ^ 32 - 1) } ∧
      ∀ m, m ≠ n → (semrelBody a gd gs count rsvd s).sem m = s.sem m := by
  have hbody : semrelBody a gd gs count rsvd s = agentDone a gd 0 (markCounter a n (s.setSem n
      { s.sem n with count := min ((s.sem n).count + (if count = 0 then 1 else count.toNat)) (2 ^ 32 - 1) })) := by
    refine (if_neg (not_or_intro (not_not_intro hrsvd) (Bool.eq_false_iff.mp hlacks))).trans ?_
    rw [hn]
    exact if_neg (Bool.eq_false_iff.mp hlock)
  rw [hbody]
  exact ⟨by rw [sem_agentDone, sem_markCounter, State.sem_setSem_same],
    fun m hm => by rw [sem_agentDone, sem_markCounter, State.sem_setSem_other _ hm]⟩

end

/-! ### SEMAPHORE_GRANT (R164, R267) -/

theorem semTaken_waiters (s : State) (a : Agent) (n : Nat) : (semTaken s a n).waiters = (s.sem n).waiters := by
  unfold semTaken
  split <;> rfl

/-- The first waiter is granted: it is awake, and the others wait on. -/
theorem semFront_grants {s : State} {sem : Fin 65536} {arb : Bool} {a : Agent} {b : Blocked} (h : semFront s sem arb = some (a, b)) :
    ∃ rest, (s.sem sem).waiters = .agent a :: rest ∧ exec (.semaphoreGrant sem arb) s =
      .next (wake a b (grantStatus (s.sem sem)) (takeSem a sem (s.setSem sem { s.sem sem with waiters := rest }))) := by
  unfold semFront at h
  split at h
  · cases h
  · cases h
  · next front rest hwaiters =>
    split at h
    · next blocked hblocked =>
      obtain ⟨hready, hpair⟩ := (Option.ite_none_right_eq_some ..).mp h
      cases hpair
      refine ⟨rest, hwaiters, ?_⟩
      simp only [exec, execSemaphoreGrant, hwaiters, hblocked]
      exact congrArg Host.Outcome.next (if_pos hready)
    · cases h

/-- A sluice run whose semaphore count is its own (R267). -/
def sluiceGranted (r : SluiceRun) : SluiceRun := { r with waits := none, granted := true }

/-- The entry e of a table changed. -/
def tabModify {α : Type} (e : Nat) (f : α → α) (m : Table α) : Table α := m.map fun v => if v.1 = e then (e, f v.2) else v

theorem tabFind_tabModify {α : Type} (e : Nat) (f : α → α) (m : Table α) : tabFind e (tabModify e f m) = (tabFind e m).map f := by
  induction m with
  | nil => rfl
  | cons v m ih =>
    by_cases h : v.1 = e
    · simp only [tabModify, List.map_cons, tabFind, if_pos h, if_true, Option.map_some]
    · simp only [tabModify, List.map_cons, tabFind, if_neg h] at ih ⊢
      exact ih

/-- The state in which a count has gone to the sluice run e. -/
def sluiceFed (e : Nat) (s : State) : State :=
  { s with tier := { s.tier with sluices := tabModify e sluiceGranted s.tier.sluices } }

theorem semFeeds_feeds {s : State} {sem : Fin 65536} (h : semFeeds s sem = true) (arb : Bool) :
    ∃ e rest, (s.sem sem).waiters = .sluice e :: rest ∧ exec (.semaphoreGrant sem arb) s =
      .next ((sluiceFed e s).setSem sem { s.sem sem with count := (s.sem sem).count - 1, waiters := rest }) := by
  simp only [semFeeds, Bool.and_eq_true, decide_eq_true_eq] at h
  obtain ⟨⟨⟨hworking, hlock⟩, hcount⟩, hfront⟩ := h
  split at hfront
  · next e rest hwaiters =>
    refine ⟨e, rest, hwaiters, ?_⟩
    simp only [exec, execSemaphoreGrant, hwaiters]
    exact congrArg Host.Outcome.next (if_pos ⟨hworking, hlock, hcount⟩)
  · cases hfront

/-- The run that got the count runs on, no longer waiting. -/
theorem sluiceRuns_fed {s : State} {e : Nat} {r : SluiceRun} (h : sluiceRuns s e = some r) (sem : Nat) (x : Sem) :
    sluiceRuns ((sluiceFed e s).setSem sem x) e = some (sluiceGranted r) := by
  obtain ⟨hworking, hfind⟩ := (Option.ite_none_right_eq_some ..).mp h
  obtain ⟨hrun, hserves⟩ := Option.filter_eq_some_iff.mp hfind
  refine (if_pos hworking).trans ?_
  have hfed : tabFind e ((sluiceFed e s).setSem sem x).tier.sluices = some (sluiceGranted r) := by
    rw [State.setSem_tier, sluiceFed, tabFind_tabModify, hrun]
    rfl
  rw [hfed]
  exact Option.filter_eq_some_iff.mpr ⟨rfl, hserves⟩

/-! ### The statement -/

/-- Settles O56: what each instruction does where it succeeds, and which semaphores that changes. -/
theorem semaphoreInstructionsComplete : Obligations.SemaphoreInstructionsComplete := by
  unfold Obligations.SemaphoreInstructionsComplete
  refine ⟨?acquire, ?tryAcquire, ?release, ?set, ?grant⟩
  case acquire =>
    intro a w s h
    simp only [canSemacq, Bool.and_eq_true] at h
    obtain ⟨⟨hruns, hlegal⟩, hoffers⟩ := h
    obtain ⟨n, hn, hgrant, hwaiters, hlate, howns, hlocks⟩ := semOffers_some hoffers
    refine .of_runAgent hruns rfl ?_
    rw [semacqBody_takes hn hlegal hgrant hwaiters hlate howns hlocks]
    refine ⟨n, (agentReg_fetch a w.gs s) ▸ hn, sem_taken .., fun m hm => ?_, ?_⟩
    · rw [sem_taken_other a hm, fetchAgent_sem]
    · rw [fetchAgent_sem]
  case tryAcquire =>
    intro a w s h
    simp only [canSemtry, Bool.and_eq_true] at h
    obtain ⟨⟨hruns, hlegal⟩, hoffers⟩ := h
    obtain ⟨n, hn, hgrant, hwaiters, -, howns, hlocks⟩ := semOffers_some hoffers
    refine .of_runAgent hruns rfl ?_
    rw [semtryBody_takes hn hlegal hgrant hwaiters howns hlocks]
    refine ⟨n, (agentReg_fetch a w.gs s) ▸ hn, ?_, fun m hm => ?_, ?_⟩
    · rw [sem_agentDone, sem_takeSem]
    · rw [sem_agentDone, sem_takeSem_other a hm, fetchAgent_sem]
    · rw [fetchAgent_sem]
  case release =>
    intro a gd gs count rsvd s h
    simp only [canSemrel, Bool.and_eq_true, beq_iff_eq, Bool.not_eq_true'] at h
    obtain ⟨⟨⟨hruns, hrsvd⟩, hlacks⟩, hreturns⟩ := h
    obtain ⟨n, hn, hheld⟩ := semReturns_some hreturns
    refine .of_runAgent hruns rfl ⟨n, (agentReg_fetch a gs s) ▸ hn, ?_⟩
    have hsem := fetchAgent_sem a (s := s)
    cases hlock : (s.sem n).lock with
    | true =>
      have hfetched : ((fetchAgent a s).sem n).lock = true := (hsem n).symm ▸ hlock
      obtain ⟨howner, hothers⟩ := semrelBody_lock (count := count) hrsvd hlacks hn hfetched (hheld.resolve_left (by rw [hfetched]; decide))
      exact ⟨fun m hm => (hothers m hm).trans (hsem m), fun _ => howner, fun h => by cases h⟩
    | false =>
      obtain ⟨hcount, hothers⟩ := semrelBody_counter (count := count) hrsvd hlacks hn ((hsem n).symm ▸ hlock)
      exact ⟨fun m hm => (hothers m hm).trans (hsem m), fun h => (by cases h), fun _ => hcount.trans (by rw [hsem])⟩
  case set =>
    intro a w s h
    simp only [canSemset, Bool.and_eq_true] at h
    obtain ⟨⟨hruns, hlegal⟩, hsettable⟩ := h
    rw [← agentReg_fetch a w.gt s] at hsettable
    obtain ⟨n, hn, hwaiters, hheld, hvalue⟩ := semSettable_some hsettable
    refine .of_runAgent hruns rfl ?_
    rw [semsetBody_sets hn hlegal hwaiters hheld hvalue, agentReg_fetch]
    refine ⟨n, (agentReg_fetch a w.gs s) ▸ hn, fun m hm => ?_, ?_⟩
    · rw [sem_agentDone, sem_markCounter, State.sem_setSem_other _ hm, fetchAgent_sem]
    · rw [sem_agentDone, sem_markCounter, State.sem_setSem_same]
  case grant =>
    intro sem arb s h
    obtain hfront | hfeeds := Bool.or_eq_true_iff.mp h
    · obtain ⟨⟨a, b⟩, hab⟩ := Option.isSome_iff_exists.mp hfront
      obtain ⟨rest, hwaiters, hexec⟩ := semFront_grants hab
      refine ⟨_, hexec, fun a' b' h => ?_, fun hfeeds => ?_⟩
      · cases hab.symm.trans h
        refine ⟨rest, hwaiters, ?_, rfl⟩
        rw [sem_wake, sem_takeSem, semTaken_waiters, State.sem_setSem_same]
      · obtain ⟨e, others, hsluice, -⟩ := semFeeds_feeds hfeeds arb
        cases hwaiters.symm.trans hsluice
    · obtain ⟨e, rest, hwaiters, hexec⟩ := semFeeds_feeds hfeeds arb
      refine ⟨_, hexec, fun a b h => ?_, fun _ => ⟨e, rest, hwaiters, State.sem_setSem_same .., fun r hr => ?_⟩⟩
      · obtain ⟨others, hagent, -⟩ := semFront_grants h
        cases hwaiters.symm.trans hagent
      · exact ⟨_, sluiceRuns_fed hr _ _, rfl, rfl, rfl⟩

end Sys2Proof.Machine
end

section
/-! SUPPORT. What an agent waits for and what comes (R157, R169 to R172, R370, R463), and the statement on WAIT, FENCE and SREL. -/

namespace Sys2Proof.Machine

/-! ### Waits that are over -/

theorem waitDue_wakes {s : State} {a : Agent} {b : Blocked} {sel : BitVec 64} (h : waitDue s a = some (b, sel)) :
    exec (.waitEventArrival a) s = .next (wake a b (consume s a sel).2 (consume s a sel).1) := by
  unfold waitDue at h
  split at h
  · next blocked hblocked =>
    split at h
    · next sel' hkind =>
      obtain ⟨hready, hpair⟩ := (Option.ite_none_right_eq_some ..).mp h
      cases hpair
      simp only [exec, execWaitEventArrival, hblocked, hkind]
      exact congrArg Host.Outcome.next (if_pos hready)
    · cases h
  · cases h

theorem fenceDue_wakes {s : State} {a : Agent} {b : Blocked} {scope : Nat} (h : fenceDue s a = some (b, scope)) :
    exec (.fenceComplete a) s = .next (wake a b 0 (fenceClears a scope s)) := by
  unfold fenceDue at h
  split at h
  · next blocked hblocked =>
    split at h
    · next scope' hkind =>
      obtain ⟨hready, hpair⟩ := (Option.ite_none_right_eq_some ..).mp h
      cases hpair
      simp only [exec, execFenceComplete, hblocked, hkind]
      exact congrArg Host.Outcome.next (if_pos hready)
    · cases h
  · cases h

/-- At its deadline a wait for a semaphore ends with what has come, late or not at all. -/
theorem deadlineDue_sem {s : State} {a : Agent} {b : Blocked} (h : deadlineDue s a = some b) {n : Nat} (hkind : b.kind = .sem n) :
    exec (.waitDeadline a) s = .next (if waitArrived s a b.kind then
        wake a b 2 (setLate a (lateOf (leaveWaits a s) a ++ [n]) (takeSem a n (leaveWaits a s)))
      else timeoutDonation a n (wake a b 1 (leaveWaits a s))) := by
  unfold deadlineDue at h
  split at h
  · next blocked hblocked =>
    obtain ⟨hready, hb⟩ := (Option.ite_none_right_eq_some ..).mp h
    cases hb
    simp only [exec, execWaitDeadline, hblocked, if_pos hready, hkind]
  · cases h

theorem deadlineDue_other {s : State} {a : Agent} {b : Blocked} (h : deadlineDue s a = some b) (hkind : ∀ n, b.kind ≠ .sem n) :
    exec (.waitDeadline a) s = .next (wake a b (if waitArrived s a b.kind then 2 else 1) s) := by
  unfold deadlineDue at h
  split at h
  · next blocked hblocked =>
    obtain ⟨hready, hb⟩ := (Option.ite_none_right_eq_some ..).mp h
    cases hb
    cases hk : b.kind with
    | sem n => exact absurd hk (hkind n)
    | event sel => simp only [exec, execWaitDeadline, hblocked, if_pos hready, hk]
    | fence scope => simp only [exec, execWaitDeadline, hblocked, if_pos hready, hk]
  · cases h

theorem donationDue_starts {s : State} {c : Fin 160} {r : CtxRef} {n m : Nat} (h : donationDue s c = some (r, n, m)) :
    exec (.donationStart c) s =
      .next (choose r.part (s.setCtx r.part m { s.ctx r.part m with donors := (s.ctx r.part m).donors ++ [(r.ctx, n)] })) := by
  unfold donationDue at h
  split at h
  case h_2 => cases h
  case h_1 r' b hctx hrun =>
    split at h
    case h_2 => cases h
    case h_1 n' hkind =>
      split at h
      case h_2 => cases h
      case h_1 g howner =>
        split at h
        case h_2 => cases h
        case h_1 m' hdonee =>
          obtain ⟨hready, htriple⟩ := (Option.ite_none_right_eq_some ..).mp h
          cases htriple
          simp only [exec, execDonationStart, hctx, hrun, hkind, howner, hdonee]
          exact congrArg Host.Outcome.next (if_pos hready)

/-! ### The bodies of WAIT, FENCE and SREL where they complete at once -/

theorem waitBody_arrived {a : Agent} {w : SyncWord} {s : State} (hlegal : syncLegal a w [w.gd, w.gs, w.gt] = true)
    (hsel : selectorIllegal a (agentReg s a w.gs) = false) (harrived : eventArrived s a (agentReg s a w.gs) = true) :
    waitBody a w s = agentDone a w.gd (consume s a (agentReg s a w.gs)).2 (consume s a (agentReg s a w.gs)).1 := by
  refine (if_neg fun hillegal => syncLegal_not hlegal ?_).trans (if_pos harrived)
  obtain h | h | h | h := hillegal
  · exact .inl h
  · exact .inr (.inl h)
  · exact .inr (.inr h)
  · rw [hsel] at h
    cases h

theorem fenceBody_holds {a : Agent} {gd gt : Fin 32} {scope : Fin 8} {cp : Fin 1024} {rsvd : BitVec 3} {s : State}
    (hlegal : ¬(rsvd ≠ 0 ∨ scope.val > 3 ∨ lacks a [gd, gt] = true ∨ (isSigc a = true ∧ cp ≠ 0)))
    (hholds : fenceHolds (fenceSealed a scope s) a scope = true) :
    fenceBody a gd scope gt cp rsvd s = agentDone a gd 0 (fenceClears a scope (fenceSealed a scope s)) := by
  refine (if_neg hlegal).trans ?_
  cases a with
  | core c => exact if_pos hholds
  | sigc k => exact if_pos hholds

/-- What SREL adds to its slot, its DMA engine or the ingress (R157, R206). -/
def linesReturned (a : Agent) (n lines : Nat) (s : State) : State :=
  match a with
  | .core c => s.modCore c fun x => setSlot n { slotOf x n with returned := (slotOf x n).returned + lines } x
  | .sigc k =>
    let x := s.sigc k
    let v := tabGet {} n x.dma
    s.setSigc k (if n = 2 then { x with ingressReturned := x.ingressReturned + lines }
      else { x with dma := tabPut {} n { v with returned := v.returned + lines } x.dma })

theorem srelBody_returns {a : Agent} {w : SyncWord} {s : State} (hrsvd : w.rsvd = false) (hcp : w.cp = 0) (hlacks : lacks a [w.gd, w.gs, w.gt] = false)
    (hslot : (agentReg s a w.gs).toNat < slotLimit a) :
    srelBody a w s = agentDone a w.gd 0 (linesReturned a (agentReg s a w.gs).toNat (agentReg s a w.gt).toNat s) := by
  have hlimit : ¬(w.rsvd = true ∨ w.cp ≠ 0 ∨ lacks a [w.gd, w.gs, w.gt] = true ∨ (agentReg s a w.gs).toNat ≥ slotLimit a) := by
    rw [hrsvd, hlacks]
    simpa [hcp] using hslot
  cases a with
  | core c => exact if_neg hlimit
  | sigc k => exact if_neg hlimit

/-! ### The statement -/

/-- Settles O57: each wait that is due wakes its agent, and WAIT, FENCE and SREL complete by their bodies. -/
theorem waitInstructionsComplete : Obligations.WaitInstructionsComplete := by
  unfold Obligations.WaitInstructionsComplete
  refine ⟨?wait, ?arrival, ?deadline, ?fence, ?fenceComplete, ?srel, ?donation⟩
  case wait =>
    intro a w s h
    simp only [canWait, Bool.and_eq_true, Bool.not_eq_true'] at h
    obtain ⟨⟨⟨hruns, hlegal⟩, hsel⟩, harrived⟩ := h
    rw [← agentReg_fetch] at hsel harrived
    refine .of_runAgent hruns rfl ?_
    rw [waitBody_arrived hlegal hsel harrived, agentReg_fetch]
    have hdone : ∀ v u, Only 2560 u (agentDone a w.gd v u) := fun v u => agentDone_only a w.gd v u
    have hconsume := consume_only (fetchAgent a s) a (agentReg s a w.gs)
    refine ⟨rfl, ((hdone ..).sems rfl).trans ((hconsume.sems rfl).trans ((fetchAgent_only a s).sems rfl)), ?_⟩
    rw [(hdone ..).mem rfl, hconsume.mem rfl, spad_fetchAgent hruns]
  case arrival =>
    intro a s h
    obtain ⟨⟨b, sel⟩, hdue⟩ := Option.isSome_iff_exists.mp h
    exact ⟨_, waitDue_wakes hdue, b, sel, hdue, rfl⟩
  case deadline =>
    intro a s h
    obtain ⟨b, hdue⟩ := Option.isSome_iff_exists.mp h
    by_cases hsem : ∃ n, b.kind = .sem n
    · obtain ⟨n, hkind⟩ := hsem
      refine ⟨_, deadlineDue_sem hdue hkind, b, hdue, fun hother => absurd hkind (hother n), fun m hm => ?_⟩
      cases hkind.symm.trans hm
      rfl
    · have hother : ∀ n, b.kind ≠ .sem n := fun n hn => hsem ⟨n, hn⟩
      exact ⟨_, deadlineDue_other hdue hother, b, hdue, fun _ => rfl, fun n hn => absurd hn (hother n)⟩
  case fence =>
    intro a gd scope gt cp rsvd s h
    simp only [canFence, Bool.and_eq_true, beq_iff_eq, decide_eq_true_eq, Bool.not_eq_true', ← Bool.not_eq_true] at h
    obtain ⟨⟨⟨⟨⟨hruns, hrsvd⟩, hscope⟩, hlacks⟩, hcp⟩, hholds⟩ := h
    refine .of_runAgent hruns rfl ?_
    rw [fenceBody_holds (by simp_all) hholds]
    have hsealed : Only 1544 (fetchAgent a s) (fenceSealed a scope (fetchAgent a s)) := by
      unfold fenceSealed
      split
      · split
        · exact sendSeals_only ..
        · exact Only.refl ..
      · exact Only.refl ..
    have honly : Only 6295050 s (agentDone a gd 0 (fenceClears a scope (fenceSealed a scope (fetchAgent a s)))) :=
      ((fetchAgent_only a s).mono rfl).trans ((hsealed.mono rfl).trans (((fenceClears_only ..).mono rfl).trans ((agentDone_only ..).mono rfl)))
    exact ⟨rfl, honly.sems rfl, honly.parts rfl⟩
  case fenceComplete =>
    intro a s h
    obtain ⟨⟨b, scope⟩, hdue⟩ := Option.isSome_iff_exists.mp h
    have honly : Only 2560 s (wake a b 0 (fenceClears a scope s)) := ((fenceClears_only ..).mono rfl).trans ((wake_only ..).mono rfl)
    exact ⟨_, fenceDue_wakes hdue, b, scope, hdue, rfl, honly.regs rfl, honly.mem rfl⟩
  case srel =>
    intro a w s h
    simp only [canSrel, Bool.and_eq_true, beq_iff_eq, decide_eq_true_eq, Bool.not_eq_true'] at h
    obtain ⟨⟨⟨⟨hruns, hrsvd⟩, hcp⟩, hlacks⟩, hslot⟩ := h
    refine .of_runAgent hruns rfl ?_
    rw [srelBody_returns hrsvd hcp hlacks ((agentReg_fetch a w.gs s).symm ▸ hslot), agentReg_fetch, agentReg_fetch]
    cases a with
    | core c =>
      refine ⟨fun d hd => ?_, fun k hk => (by cases hk), fun k hk => by cases hk⟩
      cases hd
      rw [linesReturned, agentDone, State.core_modCore_same, State.core_modCore_same, fetchAgent_core, slotOf_done]
    | sigc k =>
      refine ⟨fun d hd => (by cases hd), fun j hj htwo => ?_, fun j hj hdma => ?_⟩
      · cases hj
        rw [linesReturned, agentDone, State.sigc_setSigc_same, State.sigc_setSigc_same, fetchAgent_sigc, if_pos htwo, sNext_ingress]
        rfl
      · cases hj
        rw [linesReturned, agentDone, State.sigc_setSigc_same, State.sigc_setSigc_same, fetchAgent_sigc, if_neg (by omega), sNext_dma, setA_dma,
          tabGet_put_same]
  case donation =>
    intro c s h
    obtain ⟨⟨r, n, m⟩, hdue⟩ := Option.isSome_iff_exists.mp h
    exact ⟨_, donationDue_starts hdue, r, n, m, hdue, rfl⟩

end Sys2Proof.Machine
end

section
/-! SUPPORT. Stores with no injection armed, and the registers that reads leave alone (R522, R631), for the vector instructions. -/

namespace Sys2Proof.Machine

/-! ### Registers beyond a page's header -/

/-- A field stands beyond the header of its page, where errors are counted and interrupts raised. -/
def beyondHeader (g : RegField) (j : Nat) : Prop := 512 ≤ (g.off + g.stride * j) * 8 + g.lo ∧ (g.off + g.stride * j) * 8 + g.lo < 32768

theorem reg_detectBad_beyond {r : Region} (hr : r ≠ .bulk) {q : Page} {g : RegField} {j : Nat} (hg : beyondHeader g j) (w : Nat) (s : State) :
    (detectBad r w s).reg q g j = s.reg q g j := by
  obtain ⟨hlow, hhigh⟩ := hg
  have hcount : ∀ p, (s.countErrors p 1).reg q g j = s.reg q g j := fun p =>
    reg_countErrors_other (fieldBit_ne_position hhigh (by decide) (by simp only [Rg.pageErrorCountCount]; omega))
      (fieldBit_ne_position hhigh (by decide) (by simp only [Rg.pageIntStatus]; omega)) 1
  cases r
  case bulk => exact absurd rfl hr
  all_goals exact hcount _

/-- A read changes no register beyond the headers but the two counters of R522. -/
theorem reg_readWords_beyond {r : Region} (hr : r ≠ .bulk) {q : Page} {g : RegField} {j : Nat} (hg : beyondHeader g j) (he : notEccCount q g j)
    (ws : List Nat) (s : State) : (s.readWords r ws).reg q g j = s.reg q g j := by
  unfold State.readWords
  dsimp only
  rw [each_reg _ (reg_detectBad_beyond hr hg)]
  unfold State.reg
  dsimp only
  rw [fieldGet_set_other he.2, fieldGet_set_other he.1]

theorem flag_readWords_arm {r : Region} (hr : r ≠ .bulk) (ws : List Nat) (s : State) :
    (s.readWords r ws).flag raspPage Rg.raspFlipControlArm = s.flag raspPage Rg.raspFlipControlArm := by
  unfold State.flag
  rw [reg_readWords_beyond hr ⟨by decide, by decide⟩ ⟨by decide, by decide⟩]

/-! ### Stores -/

/-- Words that cannot be corrected are counted, and stand as they are. -/
theorem memory_readWords_bad {r : Region} {s : State} {ws : List Nat} (h : ∀ w ∈ ws, cwBad r (s.memory r) w = true) :
    (s.readWords r ws).memory r = s.memory r := by
  have hfixed : (ws.filter fun w => tabGet 0 w (s.memory r).flips != 0 && !cwBad r (s.memory r) w) = [] := by
    rw [List.filter_eq_nil_iff]
    intro w hw
    rw [h w hw]
    simp
  have hmem : (s.readWords r ws).mem = setRegion r (s.memory r) s.mem := by
    unfold State.readWords
    dsimp only
    rw [each_mem _ (detectBad_mem_same r), hfixed]
    rfl
  rw [memory_of_setRegion hmem, if_pos rfl]

/-- A store with no injection armed writes its bytes, and leaves the injection unarmed. -/
theorem store_unarmed {r : Region} (hr : r ≠ .bulk) {s : State} (harm : s.flag raspPage Rg.raspFlipControlArm = false) (a : Nat) (bytes : List Byte) :
    (s.store r a bytes).memory r = writeBytes r a bytes (s.memory r) ∧ (s.store r a bytes).flag raspPage Rg.raspFlipControlArm = false := by
  have hread : (s.readWords r (badHalves r a bytes.length (s.memory r))).memory r = s.memory r :=
    memory_readWords_bad fun w hw => (Bool.and_eq_true_iff.mp (List.mem_filter.mp hw).2).1
  have hflag := (flag_readWords_arm hr (badHalves r a bytes.length (s.memory r)) s).trans harm
  unfold State.store
  generalize s.readWords r (badHalves r a bytes.length (s.memory r)) = u at hread hflag
  simp only [flipHit, hflag, Bool.not_false, if_true, hread]
  exact ⟨(memory_of_setRegion rfl r).trans (if_pos rfl), hflag⟩

/-! ### Sticky flags -/

theorem reg_orFlags (c : Fin 160) (f : Nat) (s : State) :
    (orFlags c f s).reg (corePage c) Rg.coreArithFlagsSat = (getFlags s c ||| f) % 2 ∧
      (orFlags c f s).reg (corePage c) Rg.coreArithFlagsPoison = (getFlags s c ||| f) / 8 % 2 := by
  have hlen : 2 ^ Rg.coreArithFlagsSat.len = 2 ∧ 2 ^ Rg.coreArithFlagsPoison.len = 2 := by decide
  unfold orFlags putFlags
  constructor <;> simp (disch := refine fieldBit_ne ?_; decide) only [State.reg_setReg_other, State.reg_setReg_same, hlen, Nat.mod_mod]

/-- Or-ing bit 3 into the flags sets POISON. -/
theorem or_poison (x f : Nat) : (x ||| (f ||| 8)) / 8 % 2 = 1 := by
  have hbit : (x ||| (f ||| 8)).testBit 3 = true := by
    rw [Nat.testBit_or, Nat.testBit_or, show (8 : Nat).testBit 3 = true from rfl, Bool.or_true, Bool.or_true]
  rw [Nat.testBit_eq_decide_div_mod_eq] at hbit
  exact of_decide_eq_true hbit

theorem poison_orFlags (c : Fin 160) {f : Nat} (hf : f = 8) (s : State) : (orFlags c f s).reg (corePage c) Rg.coreArithFlagsPoison = 1 := by
  rw [(reg_orFlags c f s).2, hf, ← Nat.zero_or 8]
  exact or_poison ..

theorem orFlags_core (c f : Nat) (s : State) (d : Nat) : (orFlags c f s).core d = s.core d := (orFlags_only c f s).core_same rfl d

theorem orFlags_sigc (c f : Nat) (s : State) (j : Nat) : (orFlags c f s).sigc j = s.sigc j := (orFlags_only c f s).sigc_same rfl j

/-- An instruction that reads more than its word before it writes vd writes it all the same. -/
theorem vwrote_after {m : Nat} {s u : State} (h : Only m s u) (hcores : m.testBit 9 = false) (hsigcs : m.testBit 11 = false) {c : Fin 160}
    (hflags : getFlags u c = getFlags s c) (vd : Fin 32) (r : VReg × Nat) : VWrote c vd r s (vWrite c vd r u) := by
  obtain ⟨hsat, hpoison⟩ := reg_orFlags c r.2 (u.setCore c (advance (setV vd r.1 (u.core c))))
  rw [getFlags_setCore, hflags] at hsat hpoison
  obtain ⟨hsame, hothers⟩ := setCore_agents h hcores hsigcs c (advance (setV vd r.1 (u.core c)))
  refine ⟨?_, ⟨fun d hd => ?_, fun j hj => ?_⟩, hsat, hpoison⟩
  · rw [vWrite, orFlags_core, hsame, h.core_same hcores]
  · rw [vWrite, orFlags_core, hothers.1 d hd]
  · rw [vWrite, orFlags_sigc, hothers.2 j hj]

/-- An instruction that after its fetch sets its core, with flags and a used free value. -/
theorem orFlags_agents {s : State} {c : Fin 160} (x : Core) (f : Nat) :
    let t := (orFlags c f ((fetchCore c s).setCore c x)).usedFree
    t.core c = x ∧ OthersSame (.core c) s t ∧ (f = 8 → t.reg (corePage c) Rg.coreArithFlagsPoison = 1) := by
  obtain ⟨hsame, hothers⟩ := setCore_agents (fetchCore_only c s) rfl rfl c x
  refine ⟨?_, ⟨fun d hd => ?_, fun j hj => ?_⟩, fun hf => ?_⟩
  · rw [State.core_usedFree, orFlags_core, hsame]
  · rw [State.core_usedFree, orFlags_core, hothers.1 d hd]
  · rw [State.sigc_usedFree, orFlags_sigc, hothers.2 j hj]
  · rw [State.reg_usedFree, poison_orFlags c hf]

/-- The sticky flags stand beyond the header: no read and no wait changes them. -/
theorem getFlags_of_reg {s u : State} {c : Fin 160} (h : ∀ g : RegField, g.off = 0x48 ∧ g.stride = 0 ∧ g.lo < 4 →
    u.reg (corePage c) g = s.reg (corePage c) g) : getFlags u c = getFlags s c := by
  simp only [getFlags, h Rg.coreArithFlagsSat (by decide), h Rg.coreArithFlagsAccOvf (by decide), h Rg.coreArithFlagsTernaryCode (by decide),
    h Rg.coreArithFlagsPoison (by decide)]

theorem getFlags_spadRead (c : Fin 160) (a n : Nat) (s : State) : getFlags (spadWait c (s.readEffect .spad a n)) c = getFlags s c := by
  refine getFlags_of_reg fun g ⟨hoff, hstride, hlo⟩ => ?_
  have hwait : fieldBit (corePage c) g 0 ≠ fieldBit (corePage c) Rg.coreSpadWaitTime 0 :=
    fieldBit_ne (by simp only [hoff, hstride, Rg.coreSpadWaitTime]; omega)
  have hrasp : ∀ f : RegField, (f.off + f.stride * 0) * 8 + f.lo < 32768 → fieldBit (corePage c) g 0 ≠ fieldBit raspPage f 0 := fun f hf =>
    fieldBit_ne_page (coreRaspBase c).symm hf (by simp only [hoff, hstride]; omega)
  rw [spadWait, State.reg_usedFree, State.addReg, State.reg_setReg_other _ hwait]
  exact reg_readWords_beyond (by decide) ⟨by simp only [hoff, hstride]; omega, by simp only [hoff, hstride]; omega⟩
    ⟨hrasp _ (by decide), hrasp _ (by decide)⟩ _ s

end Sys2Proof.Machine
end

section
/-! SUPPORT. The bytes of a register and of an element plane (R148, R152), and the statement on the vector instructions. -/

namespace Sys2Proof.Machine

/-! ### Bytes of a number -/

theorem leNat_testBit (l : List Byte) (i j : Nat) (hj : j < 8) : (leNat l).testBit (8 * i + j) = (l.getD i 0).getLsbD j := by
  induction l generalizing i with
  | nil => simp [leNat]
  | cons b l ih =>
    have hsum : leNat (b :: l) = 2 ^ 8 * leNat l + b.toNat := by rw [leNat]; omega
    rw [hsum, Nat.testBit_two_pow_mul_add _ b.isLt]
    cases i with
    | zero =>
      rw [if_pos (by omega), Nat.mul_zero, Nat.zero_add]
      rfl
    | succ i =>
      rw [if_neg (by omega), show 8 * (i + 1) + j - 8 = 8 * i + j by omega, ih]
      rfl

/-- A register that holds a plane of bytes holds each of them at its place. -/
theorem extractLsb'_leNat {l : List Byte} {i : Nat} (hl : l.length ≤ 256) {v : Byte} (hv : l[i]? = some v) :
    (BitVec.ofNat 2048 (leNat l)).extractLsb' (8 * i) 8 = v := by
  have hi : i < l.length := (List.getElem?_eq_some_iff.mp hv).1
  ext j hj
  rw [BitVec.getElem_extractLsb', BitVec.getLsbD_ofNat, leNat_testBit l i j hj, List.getD_eq_getElem?_getD, hv]
  rw [decide_eq_true (by omega), Bool.true_and, Option.getD_some, BitVec.getLsbD_eq_getElem hj]

/-- Bytes that are all read are the bytes that a read delivers. -/
theorem readBytes_of_readAll {r : Region} {m : Memory} {a n : Nat} {b : List Byte} (h : readAll r m a n = some b) : readBytes r m a n = b.map some :=
  (map_some_of_mapM h).symm

theorem laneBytes_le (l : Lane) : laneCount l * laneBits l / 8 ≤ 256 := by cases l <;> decide

theorem laneBytes_raw {l : Lane} (h : laneRaw l = true) : laneCount l * laneBits l / 8 = 256 := by
  cases l
  case i8 | i16 | i32 => rfl
  all_goals cases h

theorem vValues_length (l : Lane) (v : VReg) : (vValues l v).length = laneCount l := by
  simp [vValues, vElems]

theorem laneCount_pos (l : Lane) : 0 < laneCount l := by cases l <;> decide

/-! ### VLD and VST (R152) -/

section
variable {s : State} {c : Fin 160} {ga gb : Fin 32} {lane : Lane} {rsvd : BitVec 8} (htrap : vAddrTrap (s.core c) ga gb lane rsvd = none)
include htrap

/-- A raw lane is loaded as it stands in the scratchpad. -/
theorem vldBody_raw (hraw : laneRaw lane = true) {b : List Byte} (hb : readAll .spad s.mem.spad (spadKey c (getG (s.core c) ga).toNat) 256 = some b)
    (vd : Fin 32) : vldBody c vd ga gb lane rsvd s =
      (spadWait c (s.readEffect .spad (spadKey c (getG (s.core c) ga).toNat) 256)).setCore c
        (advance (setV vd { getV (s.core c) vd with data := BitVec.ofNat 2048 (leNat b) } (s.core c))) := by
  have hread := readBytes_of_readAll hb
  have hgood : (b.map some).any Option.isNone = false := by simp
  have hbytes : (b.map some).map (fun o : Option Byte => o.getD 0) = b := by simp
  unfold vldBody
  simp only [htrap, laneBytes_raw hraw, hread, hraw, if_true, hgood, hbytes]
  rfl

/-- The element plane of a block lane, with free bytes where it cannot be read. -/
def loadedPlane (s : State) (c a : Nat) (lane : Lane) : List Byte :=
  (readBytes .spad s.mem.spad (spadKey c a) (laneCount lane * laneBits lane / 8)).mapIdx fun i o => o.getD ((s.free 2048).extractLsb' (8 * i) 8)

theorem vldBody_blocks (hraw : laneRaw lane = false) (vd : Fin 32) : vldBody c vd ga gb lane rsvd s =
    ((spadWait c ((s.readEffect .spad (spadKey c (getG (s.core c) ga).toNat) (laneCount lane * laneBits lane / 8)).readEffect .spad
        (spadKey c (getG (s.core c) gb).toNat) (laneBlocks lane))).setCore c
      (advance (setV vd ⟨BitVec.ofNat 2048 (leNat (loadedPlane s c (getG (s.core c) ga).toNat lane)),
        scalePack (loadedExps s c (getG (s.core c) ga).toNat (getG (s.core c) gb).toNat lane) (getV (s.core c) vd).scale⟩ (s.core c)))).usedFree := by
  unfold vldBody
  simp only [htrap, hraw]
  rfl

/-- The stores of VST: the element plane, and the exponents of a block lane. -/
def vstStored (c a e : Nat) (lane : Lane) (v : VReg) (s : State) : State :=
  if laneRaw lane then s.spadWrite c a (vstBytes lane v)
  else (s.spadWrite c a (vstBytes lane v)).spadWrite c e (toBytes (laneBlocks lane) v.scale.toNat)

theorem vstBody_stores (vs : Fin 32) : vstBody c vs ga gb lane rsvd s =
    (spadWait c (vstStored c (getG (s.core c) ga).toNat (getG (s.core c) gb).toNat lane (getV (s.core c) vs) s)).setCore c (advance (s.core c)) := by
  unfold vstBody vstStored
  simp only [htrap]
  split <;> rfl

end

theorem vstStored_only (c a e : Nat) (lane : Lane) (v : VReg) (s : State) : Only 6291466 s (vstStored c a e lane v s) := by
  unfold vstStored
  split
  · exact State.spadWrite_only ..
  · exact (State.spadWrite_only ..).trans (State.spadWrite_only ..)

theorem spadWrite_unarmed {s : State} (harm : s.flag raspPage Rg.raspFlipControlArm = false) (c a : Nat) (bytes : List Byte) :
    (s.spadWrite c a bytes).mem.spad = writeBytes .spad (spadKey c a) bytes s.mem.spad ∧
      (s.spadWrite c a bytes).flag raspPage Rg.raspFlipControlArm = false :=
  store_unarmed (r := .spad) (by decide) harm (spadKey c a) bytes

theorem spad_vstStored {s : State} (harm : s.flag raspPage Rg.raspFlipControlArm = false) (c a e : Nat) (lane : Lane) (v : VReg) :
    (vstStored c a e lane v s).mem.spad =
      if laneRaw lane then writeBytes .spad (spadKey c a) (vstBytes lane v) s.mem.spad
      else writeBytes .spad (spadKey c e) (toBytes (laneBlocks lane) v.scale.toNat) (writeBytes .spad (spadKey c a) (vstBytes lane v) s.mem.spad) := by
  obtain ⟨hplane, harmed⟩ := spadWrite_unarmed harm c a (vstBytes lane v)
  unfold vstStored
  split
  · exact hplane
  · obtain ⟨hexps, -⟩ := spadWrite_unarmed harmed c e (toBytes (laneBlocks lane) v.scale.toNat)
    rw [hexps, hplane]

theorem loadedPlane_byte {s : State} {c a : Nat} {lane : Lane} {i : Nat} (hi : i < laneCount lane * laneBits lane / 8) {v : Byte}
    (hv : readByte .spad s.mem.spad (spadKey c a + i) = some v) :
    (BitVec.ofNat 2048 (leNat (loadedPlane s c a lane))).extractLsb' (8 * i) 8 = v := by
  refine extractLsb'_leNat ?_ ?_
  · simpa [loadedPlane, readBytes] using laneBytes_le lane
  · rw [loadedPlane, List.getElem?_mapIdx, readBytes, List.getElem?_map, List.getElem?_range hi]
    simp [hv]

theorem loadedExps_fetch {s : State} {c : Fin 160} {sp : Nat → Bool} (h : coreRuns s c sp = true) (a e : Nat) (lane : Lane) :
    loadedExps (fetchCore c s) c a e lane = loadedExps s c a e lane := by
  unfold loadedExps
  rw [spad_fetchCore h]

/-! ### Instructions between registers (R150, R193) -/

theorem Runs.imp {i : Instr} {s : State} {p q : State → Prop} (h : Runs i s p) (hpq : ∀ t, p t → q t) : Runs i s q := by
  obtain ⟨t, ht, hp⟩ := h
  exact ⟨t, ht, hpq t hp⟩

theorem runs_vWrite {i : Instr} {s : State} {c : Fin 160} {sp : Nat → Bool} {vd : Fin 32} {f : Core → VReg × Nat} (h : coreRuns s c sp = true)
    (he : exec i s = .next (runInsn c sp (fun t => vWrite c vd (f (t.core c)) t) s)) : Runs i s (VWrote c vd (f (s.core c)) s) := by
  refine .of_runInsn h he ?_
  rw [fetchCore_core]
  exact vwrote h ..

theorem runs_dWrite {i : Instr} {s : State} {k dd : Fin 64} {f : Sigc → List (ExactVal × Bool)} (h : sigcExecutes s k = true)
    (he : exec i s = .next (runSInsn k (fun t => dWrite k dd (f (t.sigc k)) t) s)) : Runs i s (DWrote k dd (f (s.sigc k)) s) := by
  refine .of_runSInsn h he ?_
  rw [fetchSigc_sigc]
  exact dwrote ..

/-- The values of a class 0x27 instruction: free bits stand for the poisoned ones where the target has no exponent. -/
def unpoisoned (target : Lane) (free : BitVec 2048) (vals : List (ExactVal × Bool)) : List (ExactVal × Bool) :=
  if laneRaw target then vals.mapIdx fun i v =>
    if v.2 then (((free.extractLsb' (laneBits target * i) (laneBits target)).toInt, 0), false) else v
  else vals

theorem unpoisoned_length (target : Lane) (free : BitVec 2048) (vals : List (ExactVal × Bool)) : (unpoisoned target free vals).length = vals.length := by
  unfold unpoisoned
  split
  · exact List.length_mapIdx
  · rfl

theorem unpoisoned_keeps {target : Lane} {free : BitVec 2048} {vals : List (ExactVal × Bool)} {i : Nat} {x : ExactVal × Bool} (hx : vals[i]? = some x)
    (h : laneRaw target = false ∨ x.2 = false) : (unpoisoned target free vals)[i]? = some x := by
  unfold unpoisoned
  split
  case isTrue hraw =>
    rw [List.getElem?_mapIdx, hx, Option.map_some, h.resolve_left (by rw [hraw]; decide)]
    rfl
  case isFalse => exact hx

/-- What a class 0x27 instruction writes, and the flags that it ors in: POISON where an operand was poisoned. -/
def requantized (op : VecConv) (lane target : Lane) (free : BitVec 2048) (va vb old : VReg) : VReg × Nat :=
  let r := vForm target (fitTo (laneCount target) (unpoisoned target free (convertedValues op va vb lane target))) old
  (r.1, r.2 ||| (if (vValues lane va).any (·.2) then 8 else 0))

theorem exec_vectorRequantize (c : Fin 160) (op : VecConv) (vd va vb : Fin 32) (lane target : Lane) (s : State) :
    exec (.vectorRequantize c op vd va vb lane target) s =
      .next (runInsn c (vecSpelled 0x27 vd va (if op = .requantize then some vb else none) (some lane)) (fun t =>
        (vWrite c vd (requantized op lane target (t.free 2048) (getV (t.core c) va) (getV (t.core c) vb) (getV (t.core c) vd)) t).usedFree) s) := rfl

theorem VWrote.usedFree {c : Fin 160} {vd : Fin 32} {r : VReg × Nat} {s t : State} (h : VWrote c vd r s t) : VWrote c vd r s t.usedFree := h

/-- The word that a general register gets: a free one where the value is poisoned or none that the spec names (R151). -/
def wordOr (free : BitVec 64) (poisoned : Bool) (w : Option (BitVec 64)) : BitVec 64 := (if poisoned then none else w).getD free

theorem wordOr_clean {free v : BitVec 64} {poisoned : Bool} {w : Option (BitVec 64)} (h : poisoned = false) (hw : w = some v) :
    wordOr free poisoned w = v := by
  rw [wordOr, h, hw]
  rfl

theorem exec_fromLane (c : Fin 160) (gd va : Fin 32) (i : Nat) (lane : Lane) (s : State) :
    exec (.vectorMove c (.fromLane gd va i) lane) s = .next (runInsn c (moveSpelled (.fromLane gd va i) lane) (fun t =>
      let e := (vValues lane (getV (t.core c) va)).getD (i % laneCount lane) ((0, 0), false)
      (orFlags c (8 * bit e.2) (t.setCore c (advance (setG gd (wordOr (t.free 64) e.2 (redWord lane e.1)) (t.core c))))).usedFree) s) := rfl

/-! ### VPOLY reads its table in the scratchpad (R153) -/

theorem readPoly_fetch {s : State} {c : Fin 160} {sp : Nat → Bool} (h : coreRuns s c sp = true) (a : Nat) (b : List Byte) :
    readPoly (fetchCore c s) c a b = readPoly s c a b := by
  unfold readPoly spadI32 State.spadRead
  rw [spad_fetchCore h]

/-! ### The statement -/

/-- Settles O60: VLD and VST by the equations of their accesses, and every other instruction by what vWrite, dWrite and orFlags do. -/
theorem vectorInstructionsComplete : Obligations.VectorInstructionsComplete := by
  unfold Obligations.VectorInstructionsComplete
  refine ⟨?vld, ?vst, ?elementwise, ?shiftCompare, ?reduce, ?requantize, ?vpoly, ?permute, ?move⟩
  case vld =>
    intro c vd ga gb lane rsvd s h
    simp only [canVld, Bool.and_eq_true, Option.isNone_iff_eq_none, Bool.or_eq_true, Bool.not_eq_true'] at h
    obtain ⟨⟨hruns, htrap⟩, hread⟩ := h
    have hcore : (fetchCore c s).core c = s.core c := fetchCore_core ..
    have htrap' : vAddrTrap ((fetchCore c s).core c) ga gb lane rsvd = none := hcore.symm ▸ htrap
    refine .of_runInsn hruns rfl ?_
    cases hraw : laneRaw lane with
    | true =>
      obtain ⟨b, hb⟩ := Option.isSome_iff_exists.mp (hread.resolve_left (by rw [hraw]; decide))
      have hb' : readAll .spad (fetchCore c s).mem.spad (spadKey c (getG ((fetchCore c s).core c) ga).toNat) 256 = some b := by
        rw [spad_fetchCore hruns, hcore, hb]
      rw [vldBody_raw htrap' hraw hb', hcore]
      obtain ⟨hsame, hothers⟩ := setCore_agents (m := 6291470) (((fetchCore_only c s).mono rfl).trans
        (((State.readEffect_only _ .spad (spadKey c (getG (s.core c) ga).toNat) 256).mono rfl).trans ((spadWait_only c _).mono rfl))) rfl rfl c
        (advance (setV vd { getV (s.core c) vd with data := BitVec.ofNat 2048 (leNat b) } (s.core c)))
      exact ⟨hothers, fun _ => ⟨b, hb, hsame⟩, fun h => by cases h⟩
    | false =>
      rw [vldBody_blocks htrap' hraw, hcore, loadedExps_fetch hruns]
      obtain ⟨hsame, hothers⟩ := setCore_agents (m := 6291470) (((fetchCore_only c s).mono rfl).trans
        (((State.readEffect_only ..).mono rfl).trans (((State.readEffect_only ..).mono rfl).trans ((spadWait_only c _).mono rfl)))) rfl rfl c _
      refine ⟨hothers, fun h => (by cases h), fun _ => ⟨_, hsame, fun i hi v hv => loadedPlane_byte hi ?_⟩⟩
      rw [spad_fetchCore hruns, hv]
  case vst =>
    intro c vs ga gb lane rsvd s h
    simp only [canVst, Bool.and_eq_true, Option.isNone_iff_eq_none] at h
    obtain ⟨hruns, htrap⟩ := h
    have hcore : (fetchCore c s).core c = s.core c := fetchCore_core ..
    refine .of_runInsn hruns rfl ?_
    rw [vstBody_stores (hcore.symm ▸ htrap), hcore]
    obtain ⟨hsame, hothers⟩ := setCore_agents (m := 6291470) (((fetchCore_only c s).mono rfl).trans (((vstStored_only c (getG (s.core c) ga).toNat
      (getG (s.core c) gb).toNat lane (getV (s.core c) vs) _).mono rfl).trans ((spadWait_only c _).mono rfl))) rfl rfl c (advance (s.core c))
    refine ⟨hsame, hothers, fun harm => ?_⟩
    rw [State.setCore_mem, (spadWait_only ..).mem rfl, spad_vstStored (flag_fetchCore hruns harm), spad_fetchCore hruns]
  case elementwise =>
    intro op regs s h
    cases regs with
    | core c vd va vb lane =>
      have hruns := runs_vWrite (i := .vectorElementwise op (.core c vd va vb lane)) (vd := vd) (f := fun x => vForm lane
        (vElemValues op (vValues lane (getV x vd)) (vValues lane (getV x va)) (vValues lane (getV x vb))) (getV x vd)) h rfl
      exact hruns.imp fun t hw => ⟨fun _ _ _ _ _ he => (by cases he; exact hw), fun _ _ _ _ he => by cases he⟩
    | sigc k dd da db =>
      have hruns := runs_dWrite (i := .vectorElementwise op (.sigc k dd da db)) (dd := dd)
        (f := fun x => vElemValues op (dValues (getD x dd)) (dValues (getD x da)) (dValues (getD x db))) h rfl
      exact hruns.imp fun t hw => ⟨fun _ _ _ _ _ he => (by cases he), fun _ _ _ _ he => by cases he; exact hw⟩
  case shiftCompare =>
    intro op regs s h
    cases regs with
    | core c vd va vb lane =>
      have hruns := runs_vWrite (i := .vectorShiftCompare op (.core c vd va vb lane)) (vd := vd) (f := fun x => vForm lane
        (vShiftValues op lane (vValues lane (getV x vd)) (vValues lane (getV x va)) (vValues lane (getV x vb))) (getV x vd)) h rfl
      exact hruns.imp fun t hw => ⟨fun _ _ _ _ _ he => (by cases he; exact hw), fun _ _ _ _ he => by cases he⟩
    | sigc k dd da db =>
      have hruns := runs_dWrite (i := .vectorShiftCompare op (.sigc k dd da db)) (dd := dd)
        (f := fun x => vShiftValues op .z16b32 (dValues (getD x dd)) (dValues (getD x da)) (dValues (getD x db))) h rfl
      exact hruns.imp fun t hw => ⟨fun _ _ _ _ _ he => (by cases he), fun _ _ _ _ he => by cases he; exact hw⟩
  case reduce =>
    intro op regs s h
    cases regs with
    | core c dest va lane =>
      cases dest with
      | lane0 vd =>
        have hruns := runs_vWrite (i := .vectorReduce op (.core c (.lane0 vd) va lane)) (vd := vd)
          (f := fun x => vSetLane (redLane op lane) 0 (redValue op (vValues lane (getV x va))) (getV x vd)) h rfl
        exact hruns.imp fun t hw => ⟨fun _ _ _ _ he => (by cases he; exact hw), fun _ _ _ _ he => (by cases he), fun _ _ _ he => by cases he⟩
      | gpr gd =>
        refine .of_runInsn h rfl ⟨fun _ _ _ _ he => (by cases he), fun _ _ _ _ he => ?_, fun _ _ _ he => by cases he⟩
        cases he
        dsimp only [reduceBody]
        rw [fetchCore_core]
        obtain ⟨hsame, hothers, hflag⟩ := orFlags_agents (s := s) (c := c) (advance (setG gd (wordOr ((fetchCore c s).free 64)
          (redValue op (vValues lane (getV (s.core c) va))).2 (redWord lane (redValue op (vValues lane (getV (s.core c) va))).1)) (s.core c)))
          (if (redValue op (vValues lane (getV (s.core c) va))).2 then 8 else 0)
        exact ⟨hothers, _, hsame, fun hpoison => hflag (if_pos hpoison), fun v hclean hword => wordOr_clean hclean hword⟩
    | sigc k dd da =>
      have hruns := runs_dWrite (i := .vectorReduce op (.sigc k dd da)) (dd := dd)
        (f := fun x => (dValues (getD x dd)).set 0 (redValue op (dValues (getD x da)))) h rfl
      exact hruns.imp fun t hw => ⟨fun _ _ _ _ he => (by cases he), fun _ _ _ _ he => (by cases he), fun _ _ _ he => by cases he; exact hw⟩
  case requantize =>
    intro c op vd va vb lane target s h
    refine .of_runInsn h (exec_vectorRequantize ..) ?_
    rw [fetchCore_core]
    obtain ⟨hsame, hothers, -, hpoison⟩ := (vwrote h vd (requantized op lane target ((fetchCore c s).free 2048) (getV (s.core c) va)
      (getV (s.core c) vb) (getV (s.core c) vd))).usedFree
    refine ⟨hothers, unpoisoned target ((fetchCore c s).free 2048) (convertedValues op (getV (s.core c) va) (getV (s.core c) vb) lane target),
      unpoisoned_length .., fun i x hx hclean => unpoisoned_keeps hx hclean, hsame, fun hany => ?_⟩
    rw [hpoison, requantized, if_pos hany]
    exact or_poison ..
  case vpoly =>
    intro c vd va gb s h
    simp only [canVpoly, Bool.and_eq_true, decide_eq_true_eq] at h
    obtain ⟨⟨hruns, hhead⟩, htable⟩ := h
    obtain ⟨b, hb, hpoly⟩ := any_some htable
    simp only [Bool.and_eq_true, decide_eq_true_eq] at hpoly
    obtain ⟨hfits, hok⟩ := hpoly
    obtain ⟨p, hp, hok⟩ := any_some hok
    have hcore : (fetchCore c s).core c = s.core c := fetchCore_core ..
    have hb' : (fetchCore c s).spadRead c (getG (s.core c) gb).toNat 16 = some b := by
      rw [← hb, State.spadRead, State.spadRead, spad_fetchCore hruns]
    have hp' := (readPoly_fetch hruns (getG (s.core c) gb).toNat b).trans hp
    refine .of_runInsn hruns rfl ⟨b, p, hb, hp, ?_⟩
    dsimp only
    rw [hcore, if_neg (Nat.not_lt.mpr hhead), hb']
    dsimp only
    rw [if_neg (by omega), hp']
    dsimp only
    rw [if_pos hok]
    have honly : Only 6291470 s (spadWait c ((fetchCore c s).readEffect .spad (spadKey c (getG (s.core c) gb).toNat) (16 + 4 * polyCount b))) :=
      ((fetchCore_only c s).mono rfl).trans (((State.readEffect_only ..).mono rfl).trans ((spadWait_only ..).mono rfl))
    exact vwrote_after honly rfl rfl ((getFlags_spadRead ..).trans (getFlags_fetch hruns)) vd _
  case permute =>
    intro op regs s h
    cases regs with
    | core c vd va vb lane =>
      have hruns := runs_vWrite (i := .vectorPermute op (.core c vd va vb lane)) (vd := vd) (f := fun x => vForm lane
        (vPermValues op lane (laneCount lane) (vValues lane (getV x va)) (vValues lane (getV x vb))) (getV x vd)) h rfl
      exact hruns.imp fun t hw => ⟨fun _ _ _ _ _ he => (by cases he; exact hw), fun _ _ _ _ he => by cases he⟩
    | sigc k dd da db =>
      have hruns := runs_dWrite (i := .vectorPermute op (.sigc k dd da db)) (dd := dd)
        (f := fun x => vPermValues op .z16b32 32 (dValues (getD x da)) (dValues (getD x db))) h rfl
      exact hruns.imp fun t hw => ⟨fun _ _ _ _ _ he => (by cases he), fun _ _ _ _ he => by cases he; exact hw⟩
  case move =>
    intro c op lane s h
    cases op with
    | toLane vd ga i =>
      have hruns := runs_vWrite (i := .vectorMove c (.toLane vd ga i) lane) (vd := vd) (f := fun x => vSetLane lane (i % laneCount lane)
        (((getG x ga).toInt, if laneRaw lane then 0 else -16), false) (getV x vd)) h rfl
      exact hruns.imp fun t hw => ⟨fun _ _ _ he => (by cases he; exact hw), fun _ _ _ he => by cases he⟩
    | fromLane gd va i =>
      obtain ⟨e, hentry⟩ : ∃ e, (vValues lane (getV (s.core c) va))[i % laneCount lane]? = some e :=
        ⟨_, List.getElem?_eq_getElem (by rw [vValues_length]; exact Nat.mod_lt _ (laneCount_pos lane))⟩
      refine .of_runInsn h (exec_fromLane ..) ⟨fun _ _ _ he => (by cases he), fun _ _ _ he => ?_⟩
      cases he
      dsimp only
      rw [fetchCore_core, List.getD_eq_getElem?_getD, hentry, Option.getD_some]
      obtain ⟨hsame, hothers, hflag⟩ := orFlags_agents (s := s) (c := c)
        (advance (setG gd (wordOr ((fetchCore c s).free 64) e.2 (redWord lane e.1)) (s.core c))) (8 * bit e.2)
      exact ⟨hothers, _, e, rfl, hsame, fun hpoison => hflag (by rw [hpoison]; rfl), fun v hclean hword => wordOr_clean hclean hword⟩

end Sys2Proof.Machine
end

section
/-! SUPPORT. A signal core's instruction followed from operation to operation (R193, R198, R203), lines of the data memory with their tags
(R189, R191), and the statement on the signal core's arithmetic, memory and loop instructions. -/

namespace Sys2Proof.Machine

/-! ### The agents after each operation -/

/-- Signal core k stands at x in u, and the other agents of u are as in s. -/
def SigcAt (k : Fin 64) (x : Sigc) (s u : State) : Prop := u.sigc k = x ∧ OthersSame (.sigc k) s u

section
variable {k : Fin 64} {x : Sigc} {s u v : State}

theorem sigcAt_only {m : Nat} (h : Only m s u) (hcores : m.testBit 9 = false) (hsigcs : m.testBit 11 = false) : SigcAt k (s.sigc k) s u :=
  ⟨h.sigc_same hsigcs k, fun d _ => h.core_same hcores d, fun j _ => h.sigc_same hsigcs j⟩

theorem sigcAt_refl (k : Fin 64) (s : State) : SigcAt k (s.sigc k) s s := sigcAt_only (Only.refl 0 s) rfl rfl

theorem sigcAt_fetch (k : Fin 64) (s : State) : SigcAt k (s.sigc k) s (fetchSigc k s) := sigcAt_only (fetchSigc_only k s) rfl rfl

theorem SigcAt.then_only (h : SigcAt k x s u) {m : Nat} (hu : Only m u v) (hcores : m.testBit 9 = false) (hsigcs : m.testBit 11 = false) :
    SigcAt k x s v := by
  obtain ⟨hsame, hcore, hsigc⟩ := h
  exact ⟨(hu.sigc_same hsigcs k).trans hsame, fun d hd => (hu.core_same hcores d).trans (hcore d hd),
    fun j hj => (hu.sigc_same hsigcs j).trans (hsigc j hj)⟩

theorem SigcAt.set (h : SigcAt k x s u) (y : Sigc) : SigcAt k y s (u.setSigc k y) := by
  obtain ⟨-, hcore, hsigc⟩ := h
  exact ⟨State.sigc_setSigc_same .., fun d hd => (State.core_setSigc ..).trans (hcore d hd),
    fun j hj => (State.sigc_setSigc_other _ (hj k rfl) _).trans (hsigc j hj)⟩

theorem SigcAt.done (h : SigcAt k x s u) : SigcAt k (sNext x) s (sDone k u) := by
  rw [sDone, h.1]
  exact h.set _

theorem SigcAt.accumulated (h : SigcAt k x s u) (acc : Nat) (op : MacOp) (da db : DReg) :
    SigcAt k (setAcc acc (macStep op (getAcc x acc) da db).1 x) s (macInto k acc op da db u) := by
  unfold macInto
  rw [h.1]
  exact (h.set _).then_only (sFlags_only ..) rfl rfl

/-- An access to the data memory waits for its banks, and its instruction completes (R200). -/
theorem SigcAt.accessed (h : SigcAt k x s u) (conflict : Bool) (n : Nat) :
    SigcAt k (sNext x) s (sDone k (dmemWait k conflict (u.usedFree n))) :=
  ((h.then_only (State.usedFree_only u n) rfl rfl).then_only (dmemWait_only ..) rfl rfl).done

/-- An event source is raised (R203): it is pending, and nothing else of the signal core changes. -/
theorem SigcAt.raised (h : SigcAt k x s u) (src : Nat) :
    ∃ events, events.contains src = true ∧ SigcAt k { x with events := events } s (sEvent k src u) := by
  unfold sEvent
  rw [h.1]
  dsimp only
  split
  case isTrue hpending => exact ⟨x.events, hpending, h⟩
  case isFalse => exact ⟨_, by simp, h.set _⟩

/-- An instruction that sets its signal core to f of what it was, and completes. -/
theorem runs_sigcSet {i : Instr} {f : Sigc → Sigc} (h : sigcExecutes s k = true)
    (he : exec i s = .next (runSInsn k (fun t => sDone k (t.setSigc k (f (t.sigc k)))) s)) :
    Runs i s fun t => t.sigc k = sNext (f (s.sigc k)) ∧ OthersSame (.sigc k) s t := by
  refine .of_runSInsn h he ?_
  rw [fetchSigc_sigc]
  exact ((sigcAt_fetch k s).set _).done

end

/-! ### Reads correct their memory by what it holds -/

theorem mem_readWords_eq (s : State) (r : Region) (ws : List Nat) : (s.readWords r ws).mem =
    setRegion r (corrected (ws.filter fun w => tabGet 0 w (s.memory r).flips != 0 && !cwBad r (s.memory r) w) (s.memory r)) s.mem := by
  unfold State.readWords
  dsimp only
  rw [each_mem _ (detectBad_mem_same r)]
  rfl

/-- What a read leaves in a memory depends on that memory and the one it reads. -/
theorem memory_readEffect_congr {s t : State} {r q : Region} (hr : t.memory r = s.memory r) (hq : t.memory q = s.memory q) (a n : Nat) :
    (t.readEffect r a n).memory q = (s.readEffect r a n).memory q := by
  unfold State.readEffect
  rw [memory_of_setRegion (mem_readWords_eq ..), memory_of_setRegion (mem_readWords_eq ..), hr, hq]

/-- The same line is touched alike in two states with the same data memory and tags. -/
theorem touchLine_congr {s t : State} (hdmem : t.mem.dmem = s.mem.dmem) (htags : t.mem.tags = s.mem.tags) (k a : Nat) :
    (touchLine k a t).mem.dmem = (touchLine k a s).mem.dmem ∧ (touchLine k a t).mem.tags = (touchLine k a s).mem.tags := by
  have hline := memory_readEffect_congr (r := .dmem) (q := .dmem) hdmem hdmem (dmemKey k a) 64
  have htag := memory_readEffect_congr (r := .dmem) (q := .tag) hdmem htags (dmemKey k a) 64
  exact ⟨memory_readEffect_congr (r := .tag) (q := .dmem) htag hline .., memory_readEffect_congr (r := .tag) (q := .tag) htag htag ..⟩

theorem readLine_fetch {s : State} {k : Nat} (h : sigcExecutes s k = true) (a : Nat) : readLine (fetchSigc k s) k a = readLine s k a :=
  readLine_congr k a (dmem_fetchSigc h) ((fetchSigc_only k s).freeIx rfl) (tags_fetchSigc h)

theorem readLine_usedFree_fetch {s : State} {k : Nat} (h : sigcExecutes s k = true) (a : Nat) :
    readLine (fetchSigc k s).usedFree k a = readLine s.usedFree k a :=
  readLine_congr k a (by rw [State.usedFree_mem, dmem_fetchSigc h, State.usedFree_mem])
    (by rw [State.usedFree_freeIx, (fetchSigc_only k s).freeIx rfl, State.usedFree_freeIx]) (by rw [State.usedFree_mem, tags_fetchSigc h, State.usedFree_mem])

/-! ### A line is written with its tag, with no injection armed -/

theorem mem_accessed (k : Nat) (conflict : Bool) (n : Nat) (u : State) : (sDone k (dmemWait k conflict (u.usedFree n))).mem = u.mem := by
  rw [sDone_mem, (dmemWait_only ..).mem rfl, State.usedFree_mem]

theorem flag_touchLine_arm (k a : Nat) (s : State) :
    (touchLine k a s).flag raspPage Rg.raspFlipControlArm = s.flag raspPage Rg.raspFlipControlArm := by
  unfold touchLine State.readEffect
  rw [flag_readWords_arm (by decide), flag_readWords_arm (by decide)]

theorem flag_macInto_arm (k : Fin 64) (acc : Nat) (op : MacOp) (da db : DReg) (s : State) :
    (macInto k acc op da db s).flag raspPage Rg.raspFlipControlArm = s.flag raspPage Rg.raspFlipControlArm := by
  have hpage : notArithFlag (.sigc k) raspPage Rg.raspFlipControlArm 0 :=
    ⟨fieldBit_ne_page (sigcRaspBase k) (by decide) (by decide), fieldBit_ne_page (sigcRaspBase k) (by decide) (by decide)⟩
  unfold macInto State.flag
  rw [reg_sFlags_other hpage, State.reg_setSigc]

theorem writeLine_unarmed {s : State} (harm : s.flag raspPage Rg.raspFlipControlArm = false) (k a : Nat) (v : DReg) :
    (writeLine k a v s).mem.dmem = writeBytes .dmem (dmemKey k a) (toBytes 64 v.data.toNat) s.mem.dmem ∧
      (writeLine k a v s).mem.tags = writeBytes .tag (tagKey k a) [v.exp] s.mem.tags := by
  obtain ⟨hline, harmLine⟩ := store_unarmed (r := .dmem) (by decide) harm (dmemKey k a) (toBytes 64 v.data.toNat)
  obtain ⟨htag, -⟩ := store_unarmed (r := .tag) (by decide) harmLine (tagKey k a) [v.exp]
  exact ⟨(memory_store_other (q := .dmem) (by decide) ..).trans hline,
    htag.trans (congrArg (writeBytes .tag (tagKey k a) [v.exp]) (memory_store_other (r := .dmem) (by decide) ..))⟩

/-! ### ZLD and ZST -/

/-- A line access that is right modifies its register and completes; where the modification does not rest on a free value, it is the one that
postModify gives (R198). -/
theorem lineInsn_accesses {s u : State} {k : Nat} {a : Fin 16} {step : Int} (h : lineAccess s k a step = true) (hu : u.sigc k = s.sigc k)
    (f : BitVec 64 → State → State) :
    ∃ next, lineInsn k a step f u = sDone k (dmemWait k false ((f next u).usedFree 2)) ∧
      (kMode (getK (s.sigc k) a) ≠ 1 ∨ kLength (getK (s.sigc k) a) ≠ 0 → postModify (getK (s.sigc k) a) (getA (s.sigc k) a) 0 64 step = some next) := by
  obtain ⟨hmoves, htrap⟩ := Bool.and_eq_true_iff.mp h
  obtain ⟨next, hnext⟩ := Option.isSome_iff_exists.mp (post_some (g := u.free 64 1) hmoves)
  refine ⟨next, ?_, fun hfree => (post_free hfree).trans hnext⟩
  unfold lineInsn
  simp only [hu, hnext, Option.isNone_iff_eq_none.mp htrap]

/-- What ZLD does beside the checks that it shares with ZST. -/
def loadLine (k a dd : Nat) (next : BitVec 64) (s : State) : State :=
  (touchLine k (getA (s.sigc k) a).toNat s).setSigc k
    (setA a next (setD dd (readLine s k (getA (s.sigc k) a).toNat) ((touchLine k (getA (s.sigc k) a).toNat s).sigc k)))

/-- What ZST does beside the checks that it shares with ZLD. -/
def storeLine (k a ds : Nat) (next : BitVec 64) (s : State) : State :=
  let t := writeLine k (getA (s.sigc k) a).toNat (getD (s.sigc k) ds) s
  t.setSigc k (setA a next (t.sigc k))

theorem zldBody_eq (k a dd : Nat) (post : BitVec 64) (s : State) : zldBody k a dd post s = lineInsn k a post.toInt (loadLine k a dd) s := rfl

theorem zstBody_eq (k ds a : Nat) (post : BitVec 64) (s : State) : zstBody k ds a post s = lineInsn k a post.toInt (storeLine k a ds) s := rfl

theorem loadLine_sigcAt {k : Fin 64} {x : Sigc} {s u : State} (h : SigcAt k x s u) (a dd : Nat) (next : BitVec 64) :
    SigcAt k (setA a next (setD dd (readLine u k (getA x a).toNat) x)) s (loadLine k a dd next u) := by
  have htouched := h.then_only (touchLine_only k (getA x a).toNat u) rfl rfl
  unfold loadLine
  rw [h.1, htouched.1]
  exact htouched.set _

theorem storeLine_sigcAt {k : Fin 64} {x : Sigc} {s u : State} (h : SigcAt k x s u) (a ds : Nat) (next : BitVec 64) :
    SigcAt k (setA a next x) s (storeLine k a ds next u) := by
  have hwritten := h.then_only (writeLine_only k (getA x a).toNat (getD x ds) u) rfl rfl
  unfold storeLine
  rw [h.1]
  dsimp only
  rw [hwritten.1]
  exact hwritten.set _

/-! ### TAPM -/

theorem tapmMoves_some {s : State} {k : Nat} {ac ax : Fin 16} {next1 dest last : BitVec 64} (h : tapmMoves s k ac ax = some (next1, dest, last)) :
    ∃ next2, postModify (getK (s.sigc k) ac) (getA (s.sigc k) ac) 0 64 64 = some next1 ∧
      postModify (getK (s.sigc k) ax) (getA (s.sigc k) ax) 0 64 64 = some dest ∧
      postModify (getK (s.sigc k) ax) (getA (s.sigc k) ax) 0 64 (-64) = some next2 ∧
      [getA (s.sigc k) ac, getA (s.sigc k) ax, dest].findSome? lineTrap = none ∧
      last = if ac = ax then (postModify (getK (s.sigc k) ax) next1 0 64 (-64)).getD next2 else next2 := by
  unfold tapmMoves at h
  dsimp only at h
  split at h
  case h_2 => cases h
  case h_1 next1' dest' next2 hac hax hback =>
    obtain ⟨htraps, hmoves⟩ := (Option.ite_none_right_eq_some ..).mp h
    cases hmoves
    exact ⟨next2, hac, hax, hback, Option.isNone_iff_eq_none.mp htraps, rfl⟩

/-- TAPM has read its two lines and accumulated. -/
def tapmAdded (k acc : Nat) (lane0 : Bool) (a1 a2 : Nat) (s : State) : State :=
  macInto k acc .cmac (readLine s.usedFree k a2) (if lane0 then lane0All (readLine s k a1) else readLine s k a1) (touchLine k a2 (touchLine k a1 s))

/-- TAPM has moved its sample one line down. -/
def tapmMovedDown (k acc : Nat) (lane0 : Bool) (a1 a2 dest : Nat) (s : State) : State :=
  writeLine k dest (readLine s.usedFree k a2) (tapmAdded k acc lane0 a1 a2 s)

theorem tapmBody_moves {s : State} {k : Nat} {ac ax : Fin 16} {next1 dest last : BitVec 64} (h : tapmMoves s k ac ax = some (next1, dest, last))
    (acc : Nat) (lane0 : Bool) : ∃ waits, tapmBody k acc lane0 ac ax s =
      let u := tapmMovedDown k acc lane0 (getA (s.sigc k) ac).toNat (getA (s.sigc k) ax).toNat dest.toNat s
      sDone k (dmemWait k waits ((u.setSigc k (setA ax last (setA ac next1 (u.sigc k)))).usedFree 5)) := by
  obtain ⟨next2, hac, hax, hback, htraps, hlast⟩ := tapmMoves_some h
  rw [post_same (g := s.free 64 2) (by decide)] at hac
  rw [post_same (g := s.free 64 3) (by decide)] at hax
  rw [post_same (g := s.free 64 4) (by decide)] at hback
  rw [post_same (g := s.free 64 4) (by decide)] at hlast
  unfold tapmBody
  simp only [hac, hax, hback, htraps, Fin.val_inj]
  subst hlast
  exact ⟨_, rfl⟩

theorem tapmMovedDown_sigcAt {s u : State} {k : Fin 64} (h : SigcAt k (s.sigc k) s u) (acc : Nat) (lane0 : Bool) (a1 a2 dest : Nat) :
    SigcAt k (setAcc acc (macStep .cmac (getAcc (s.sigc k) acc) (readLine u.usedFree k a2)
      (if lane0 then lane0All (readLine u k a1) else readLine u k a1)).1 (s.sigc k)) s (tapmMovedDown k acc lane0 a1 a2 dest u) :=
  (((h.then_only (touchLine_only k a1 u) rfl rfl).then_only (touchLine_only ..) rfl rfl).accumulated ..).then_only (writeLine_only ..) rfl rfl

theorem tapmMovedDown_mem {s : State} {k : Fin 64} (harm : s.flag raspPage Rg.raspFlipControlArm = false) (acc : Nat) (lane0 : Bool)
    (a1 a2 dest : Nat) : let t := tapmMovedDown k acc lane0 a1 a2 dest s
    t.mem.dmem = writeBytes .dmem (dmemKey k dest) (toBytes 64 (readLine s.usedFree k a2).data.toNat) (touchLine k a2 (touchLine k a1 s)).mem.dmem ∧
      t.mem.tags = writeBytes .tag (tagKey k dest) [(readLine s.usedFree k a2).exp] (touchLine k a2 (touchLine k a1 s)).mem.tags := by
  have hadded : (tapmAdded k acc lane0 a1 a2 s).flag raspPage Rg.raspFlipControlArm = false := by
    rw [tapmAdded, flag_macInto_arm, flag_touchLine_arm, flag_touchLine_arm, harm]
  have hmem : (tapmAdded k acc lane0 a1 a2 s).mem = (touchLine k a2 (touchLine k a1 s)).mem := (macInto_only ..).mem rfl
  rw [← hmem]
  exact writeLine_unarmed hadded ..

/-! ### LOOP, LSAVE and LRESTORE -/

theorem loopBody_opens {x : Sigc} {s : State} {k n : Nat} {last : BitVec 16} (hx : s.sigc k = x) (h : loopNests x n last = true) (count : LoopCount) :
    loopBody k n count last s = s.setSigc k (if loopCount x count = 0 then { x with pc := last + 4 }
      else { sNext x with loops := (sNext x).loops.set n ⟨true, x.pc + 4, last, loopCount x count⟩ }) := by
  subst hx
  obtain ⟨hinner, houter⟩ := Bool.and_eq_true_iff.mp h
  refine (if_neg ?_).trans (apply_ite (s.setSigc k) (loopCount (s.sigc k) count = 0) ..).symm
  rw [(Bool.not_eq_true' _).mp hinner, Bool.false_or]
  cases hlevel : enclosing (s.sigc k) n with
  | none => exact Bool.false_ne_true
  | some l =>
    rw [hlevel] at houter
    exact fun hpast => Nat.not_lt.mpr (of_decide_eq_true houter) (of_decide_eq_true hpast)

theorem lsaveBody_saves {s : State} {k a : Nat} (hmode : kMode (getK (s.sigc k) a) ≠ 3) (hfits : (getA (s.sigc k) a).toNat + 48 ≤ 2 ^ 19) :
    lsaveBody k a s =
      let t := s.store .dmem (dmemKey k (getA (s.sigc k) a).toNat) (loopImage (s.sigc k))
      sDone k (t.setSigc k (setA a (getA (s.sigc k) a + 48)
        { t.sigc k with loops := (t.sigc k).loops.map fun l => { l with active := false }, loopHold := false })) :=
  (if_neg hmode).trans (if_neg (Nat.not_lt.mpr hfits))

theorem lrestoreBody_restores {s : State} {k a : Nat} {b : List Byte} {y : Sigc} (hmode : kMode (getK (s.sigc k) a) ≠ 3)
    (hfits : (getA (s.sigc k) a - 48).toNat + 48 ≤ 2 ^ 19) (hb : readAll .dmem s.mem.dmem (dmemKey k (getA (s.sigc k) a - 48).toNat) 48 = some b)
    (hy : imageState b (s.sigc k) = some y) :
    lrestoreBody k a s =
      sDone k ((s.readEffect .dmem (dmemKey k (getA (s.sigc k) a - 48).toNat) 48).setSigc k (setA a (getA (s.sigc k) a - 48) y)) := by
  refine (if_neg hmode).trans ((if_neg (Nat.not_lt.mpr hfits)).trans ?_)
  simp only [hb, readEffect_sigc, hy]

/-! ### The statement -/

/-- Settles O54: each body, run after the fetch, is followed from operation to operation. -/
theorem signalInstructionsComplete : Obligations.SignalInstructionsComplete := by
  unfold Obligations.SignalInstructionsComplete
  refine ⟨?cmac, ?tapm, ?sst, ?aclr, ?zld, ?zst, ?loop, ?lsave, ?lrestore⟩
  case cmac =>
    intro k op acc da db s h
    refine .of_runSInsn h rfl ?_
    rw [fetchSigc_sigc]
    exact ((sigcAt_fetch k s).accumulated ..).done
  case tapm =>
    intro k lane0 acc ac ax s h
    obtain ⟨hruns, hmoves⟩ := Bool.and_eq_true_iff.mp h
    obtain ⟨⟨next1, dest, last⟩, hmoves⟩ := Option.isSome_iff_exists.mp hmoves
    have hfetched : tapmMoves (fetchSigc k s) k ac ax = some (next1, dest, last) := by
      rw [← hmoves, tapmMoves, tapmMoves, fetchSigc_sigc]
    obtain ⟨waits, hbody⟩ := tapmBody_moves hfetched acc lane0
    refine .of_runSInsn hruns rfl ⟨next1, dest, last, hmoves, ?_⟩
    rw [hbody, fetchSigc_sigc]
    have hat := tapmMovedDown_sigcAt (sigcAt_fetch k s) acc lane0 (getA (s.sigc k) ac).toNat (getA (s.sigc k) ax).toNat dest.toNat
    rw [readLine_fetch hruns, readLine_usedFree_fetch hruns] at hat
    dsimp only
    rw [hat.1]
    obtain ⟨hsame, hothers⟩ := (hat.set (setA ax last (setA ac next1 _))).accessed waits 5
    refine ⟨hothers, hsame, fun harm => ?_⟩
    obtain ⟨hdmem, htags⟩ := tapmMovedDown_mem (flag_fetchSigc hruns harm) acc lane0 (getA (s.sigc k) ac).toNat (getA (s.sigc k) ax).toNat dest.toNat
    obtain ⟨hdmem1, htags1⟩ := touchLine_congr (dmem_fetchSigc hruns) (tags_fetchSigc hruns) k (getA (s.sigc k) ac).toNat
    obtain ⟨hdmem2, htags2⟩ := touchLine_congr hdmem1 htags1 k (getA (s.sigc k) ax).toNat
    rw [readLine_usedFree_fetch hruns] at hdmem htags
    rw [mem_accessed, State.setSigc_mem, hdmem, htags, hdmem2, htags2]
    exact ⟨rfl, rfl⟩
  case sst =>
    intro k acc dd form s h
    refine .of_runSInsn h rfl ?_
    dsimp only
    rw [fetchSigc_sigc]
    obtain ⟨hsame, hothers⟩ := (((sigcAt_fetch k s).set (setD dd (sstBlock form (getAcc (s.sigc k) acc)).1 (s.sigc k))).then_only
      (sFlags_only k (sstBlock form (getAcc (s.sigc k) acc)).2 (getAcc (s.sigc k) acc).poison _) rfl rfl).done
    refine ⟨hsame, hothers, fun hsat => ?_, fun hpoison => ?_⟩
    · rw [hsat, sDone_flag]
      exact sFlags_sat ..
    · rw [hpoison, sDone_flag]
      exact sFlags_poison ..
  case aclr =>
    exact fun k acc s h => runs_sigcSet (f := fun x => setAcc acc { getAcc x acc with empty := true, poison := false, parts := [] } x) h rfl
  case zld =>
    intro k dd a post s h
    obtain ⟨hruns, haccess⟩ := Bool.and_eq_true_iff.mp h
    obtain ⟨next, hbody, hnext⟩ := lineInsn_accesses haccess (fetchSigc_sigc k k s) (loadLine k a dd)
    refine .of_runSInsn hruns rfl ⟨next, ?_⟩
    obtain ⟨hsame, hothers⟩ := (loadLine_sigcAt (sigcAt_fetch k s) a dd next).accessed false 2
    rw [readLine_fetch hruns] at hsame
    rw [zldBody_eq, hbody]
    exact ⟨hsame, hothers, hnext⟩
  case zst =>
    intro k ds a post s h
    obtain ⟨hruns, haccess⟩ := Bool.and_eq_true_iff.mp h
    obtain ⟨next, hbody, hnext⟩ := lineInsn_accesses haccess (fetchSigc_sigc k k s) (storeLine k a ds)
    refine .of_runSInsn hruns rfl ⟨next, ?_⟩
    obtain ⟨hsame, hothers⟩ := (storeLine_sigcAt (sigcAt_fetch k s) a ds next).accessed false 2
    rw [zstBody_eq, hbody]
    refine ⟨hsame, hothers, hnext, fun harm => ?_⟩
    obtain ⟨hdmem, htags⟩ := writeLine_unarmed (flag_fetchSigc hruns harm) k (getA (s.sigc k) a).toNat (getD (s.sigc k) ds)
    rw [dmem_fetchSigc hruns] at hdmem
    rw [tags_fetchSigc hruns] at htags
    rw [mem_accessed, storeLine, State.setSigc_mem, fetchSigc_sigc]
    exact ⟨hdmem, htags⟩
  case loop =>
    intro k level count last s h
    obtain ⟨hruns, hnests⟩ := Bool.and_eq_true_iff.mp h
    refine .of_runSInsn hruns rfl ?_
    rw [loopBody_opens (fetchSigc_sigc ..) hnests]
    obtain ⟨hsame, hothers⟩ := (sigcAt_fetch k s).set (if loopCount (s.sigc k) count = 0 then { s.sigc k with pc := last + 4 }
      else { sNext (s.sigc k) with loops := (sNext (s.sigc k)).loops.set level ⟨true, (s.sigc k).pc + 4, last, loopCount (s.sigc k) count⟩ })
    exact ⟨fun hzero => hsame.trans (if_pos hzero), fun hzero => hsame.trans (if_neg hzero), hothers⟩
  case lsave =>
    intro k a s h
    simp only [canLsave, Bool.and_eq_true, decide_eq_true_eq] at h
    obtain ⟨⟨hruns, hmode⟩, hfits⟩ := h
    have hsigc : (fetchSigc k s).sigc k = s.sigc k := fetchSigc_sigc ..
    refine .of_runSInsn hruns rfl ?_
    rw [lsaveBody_saves (hsigc.symm ▸ hmode) (hsigc.symm ▸ hfits)]
    dsimp only
    rw [store_sigc, hsigc]
    obtain ⟨hsame, hothers⟩ := (((sigcAt_fetch k s).then_only (State.store_only (fetchSigc k s) .dmem (dmemKey k (getA (s.sigc k) a).toNat)
      (loopImage (s.sigc k))) rfl rfl).set _).done
    refine ⟨hsame, hothers, fun harm => ?_⟩
    have hfitted : (getA (s.sigc k) a).toNat + (loopImage (s.sigc k)).length ≤ 2 ^ 19 := by rw [image48]; exact hfits
    rw [sDone_mem, State.setSigc_mem, store_dmem hfitted (flag_fetchSigc hruns harm), dmem_fetchSigc hruns]
  case lrestore =>
    intro k a s h
    simp only [canLrestore, Bool.and_eq_true, decide_eq_true_eq] at h
    obtain ⟨⟨⟨hruns, hmode⟩, hfits⟩, himage⟩ := h
    obtain ⟨b, hb, himage⟩ := any_some himage
    obtain ⟨y, hy⟩ := Option.isSome_iff_exists.mp himage
    have hsigc : (fetchSigc k s).sigc k = s.sigc k := fetchSigc_sigc ..
    refine .of_runSInsn hruns rfl ⟨b, y, hb, hy, ?_⟩
    rw [lrestoreBody_restores (hsigc.symm ▸ hmode) (hsigc.symm ▸ hfits) (by rw [hsigc, dmem_fetchSigc hruns, hb]) (hsigc.symm ▸ hy), hsigc]
    exact (((sigcAt_fetch k s).then_only (State.readEffect_only ..) rfl rfl).set _).done

end Sys2Proof.Machine
end

section
/-! SUPPORT. ENABLE of a signal core (R190), its DMA channels (R192), and the statement on its interrupts, alarms, doorbells and DMA. -/

namespace Sys2Proof.Machine

/-! ### ALARM and ALARM_FIRE (R203, R209) -/

theorem alarmBody_armed {s : State} {k n a : Nat} (h : s.now % 2 ^ 64 < (getA (s.sigc k) a).toNat) :
    alarmBody k n a s = sDone k (s.setSigc k { s.sigc k with alarms := tabSet n (getA (s.sigc k) a) (s.sigc k).alarms }) := by
  unfold alarmBody
  simp only [if_neg (Nat.not_le.mpr h)]

theorem alarmBody_passed {s : State} {k n a : Nat} (h : ¬s.now % 2 ^ 64 < (getA (s.sigc k) a).toNat) :
    alarmBody k n a s = sDone k (sEvent k (2 + n) (s.setSigc k { s.sigc k with alarms := tabDel n (s.sigc k).alarms })) := by
  unfold alarmBody
  simp only [if_pos (Nat.not_lt.mp h)]

theorem now_fetchSigc (k : Nat) (s : State) : (fetchSigc k s).now = s.now := by
  unfold State.now State.subNs
  rw [(fetchSigc_only k s).time rfl]

/-- An alarm that fires is armed no more, and its event source is pending. -/
theorem SigcAt.fires {k : Fin 64} {x : Sigc} {s u : State} (h : SigcAt k x s u) (n : Nat) :
    ∃ events, events.contains (2 + n) = true ∧
      SigcAt k { x with alarms := tabDel n x.alarms, events := events } s (sEvent k (2 + n) (u.setSigc k { x with alarms := tabDel n x.alarms })) :=
  (h.set _).raised _

theorem exec_alarmFire {k : Fin 64} {n : Fin 2} {s : State} (h : canAlarmFire k n s = true) : exec (.alarmFire k n) s =
    .next (sEvent k (2 + n.val) (s.setSigc k { s.sigc k with alarms := tabDel n (s.sigc k).alarms })) := by
  obtain ⟨hworks, halarm⟩ := Bool.and_eq_true_iff.mp h
  obtain ⟨v, hv, hpassed⟩ := any_some halarm
  simp only [exec, execAlarmFire, hv]
  exact congrArg Host.Outcome.next (if_pos ⟨hworks, of_decide_eq_true hpassed⟩)

/-! ### INTERRUPT_TAKEN (R204, R205) -/

/-- A signal core that takes event e. -/
def interrupted (s : State) (k e : Nat) : Sigc :=
  { s.sigc k with
    ipc := (s.sigc k).pc, iprio := (s.sigc k).prio, prio := eventPrio s k e, ie := false, loopHold := true
    pc := BitVec.ofNat 16 (16 * (e + 1)), run := .running, events := (s.sigc k).events.erase e }

theorem exec_interruptTaken {k : Fin 64} {s : State} (h : canInterruptTaken k s = true) :
    ∃ e, nextEvent s k = some e ∧ exec (.interruptTaken k) s = .next ((leaveWaits (.sigc k) s).setSigc k (interrupted s k e)) := by
  simp only [canInterruptTaken, Bool.and_eq_true] at h
  obtain ⟨⟨⟨hboundary, hie⟩, hhold⟩, hevent⟩ := h
  obtain ⟨e, he⟩ := Option.isSome_iff_exists.mp hevent
  refine ⟨e, he, ?_⟩
  simp only [exec, execInterruptTaken, he]
  exact congrArg Host.Outcome.next (if_pos ⟨hboundary, hie, hhold⟩)

/-! ### ENABLE (R190, R627) -/

/-- The header of a signal core's page when ENABLE is written. -/
def enabledHeader (k : Nat) (on : Bool) (s : State) : State :=
  (s.setReg (sigcPage k) Rg.pageControlEnable (bit on)).setReg (sigcPage k) Rg.pageStatusEnabled (bit on)

theorem reg_enabledHeader (k : Nat) (on : Bool) (s : State) : (enabledHeader k on s).reg (sigcPage k) Rg.pageStatusEnabled = bit on ∧
    (enabledHeader k on s).reg (sigcPage k) Rg.pageControlEnable = bit on := by
  unfold enabledHeader
  rw [State.reg_setReg_same, State.reg_setReg_other _ (fieldBit_ne (by decide)), State.reg_setReg_same]
  cases on <;> exact ⟨rfl, rfl⟩

theorem setSigcEnable_eq (k : Nat) (on : Bool) (s : State) : setSigcEnable k on s =
    if on then if programRuns (s.sigc k) then enabledHeader k on s else startProgram k (enabledHeader k on s)
    else
      let u := if programRuns (s.sigc k) then endProgram k (enabledHeader k on s) else enabledHeader k on s
      u.setSigc k { u.sigc k with run := .idle } := rfl

/-- The start and the end of a program write neither ENABLE nor ENABLED. -/
theorem reg_setSigcEnable (k : Nat) (on : Bool) (s : State) : (setSigcEnable k on s).reg (sigcPage k) Rg.pageStatusEnabled = bit on ∧
    (setSigcEnable k on s).reg (sigcPage k) Rg.pageControlEnable = bit on := by
  have hheader := reg_enabledHeader k on s
  rw [setSigcEnable_eq]
  cases on with
  | true =>
    rw [if_pos rfl]
    split
    · exact hheader
    · simp only [reg_of_regs (startProgram_regs ..)]
      rw [State.reg_setReg_other _ (fieldBit_ne (by decide)), State.reg_setReg_other _ (fieldBit_ne (by decide)),
        State.reg_setReg_other _ (fieldBit_ne (by decide)), State.reg_setReg_other _ (fieldBit_ne (by decide))]
      exact hheader
  | false =>
    rw [if_neg (by decide)]
    dsimp only
    rw [State.reg_setSigc, State.reg_setSigc]
    split
    · rw [reg_of_regs ((endProgram_only ..).regs rfl), reg_of_regs ((endProgram_only ..).regs rfl)]
      exact hheader
    · exact hheader

theorem setSigcEnable_off_idle (k : Nat) (s : State) : ((setSigcEnable k false s).sigc k).run = .idle := by
  rw [setSigcEnable_eq, if_neg (by decide)]
  dsimp only
  rw [State.sigc_setSigc_same]

/-- A program that ENABLE starts begins at address 0, with its a registers as they were. -/
theorem setSigcEnable_starts {k : Nat} {s : State} (h : programRuns (s.sigc k) = false) : let x := (setSigcEnable k true s).sigc k
    x.run = .running ∧ x.pc = 0 ∧ x.ie = false ∧ x.events = [] ∧ x.a = (s.sigc k).a := by
  dsimp only
  rw [setSigcEnable_eq, if_pos rfl, h, if_neg (by decide), startProgram, State.sigc_setSigc_same]
  exact ⟨rfl, rfl, rfl, rfl, rfl⟩

/-! ### DMA channels (R192) -/

theorem dmaOf_setDma_status (k ch state err : Nat) (v : StreamSlot) (s : State) : dmaOf (dmaStatus k ch state err (setDma k ch v s)) k ch = v :=
  (dmaOf_congr (dmaStatus_sigc ..) ch).trans (dmaOf_set ..)

theorem runningDma_slot {s : State} {k ch : Nat} {v : StreamSlot} {p : StreamDesc} {owner : Option Nat} (h : runningDma s k ch = some (v, p, owner)) :
    v = dmaOf s k ch := by
  unfold runningDma at h
  dsimp only at h
  split at h
  · obtain ⟨-, hslot⟩ := (Option.ite_none_right_eq_some ..).mp h
    cases hslot
    rfl
  · cases h

theorem exec_sigcDmaStart {k : Fin 64} {ch : Fin 2} {addr : BitVec 19} {s : State} (h : canSigcDmaStart k ch addr s = true) :
    ∃ b, readAll .dmem s.mem.dmem (dmemKey k addr.toNat) 64 = some b ∧ exec (.sigcDmaStart k ch addr) s =
      .next (dmaStatus k ch 1 0 (setDma k ch { dmaOf s k ch with queue := [⟨BitVec.ofNat 512 (leNat b), 0, none⟩], started := true, moved := 0 }
        (s.readEffect .dmem (dmemKey k addr.toNat) 64))) := by
  simp only [canSigcDmaStart, Bool.and_eq_true, decide_eq_true_eq, Bool.not_eq_true'] at h
  obtain ⟨⟨⟨⟨hruns, hthawed⟩, hempty⟩, haligned⟩, hdesc⟩ := h
  obtain ⟨b, hb, hfields⟩ := any_some hdesc
  refine ⟨b, hb, ?_⟩
  simp only [exec, execSigcDmaStart, hb]
  refine congrArg Host.Outcome.next ((if_pos ⟨hruns, by rw [hthawed]; rfl, hempty⟩).trans (if_neg ?_))
  rw [Option.isNone_iff_eq_none.mp hfields]
  rintro (hal | hbad)
  · exact hal haligned
  · cases hbad

theorem dmaDue_some {s : State} {k ch : Nat} {v : StreamSlot} {p : StreamDesc} {part : Nat} (h : dmaDue s k ch = some (v, p, part)) :
    runningDma s k ch = some (v, p, some part) ∧ v.moved < dmaCount p ∧ ringAllows p v = true := by
  unfold dmaDue at h
  split at h
  case h_1 v' p' part' hrun =>
    obtain ⟨hline, hdue⟩ := (Option.ite_none_right_eq_some ..).mp h
    cases hdue
    exact ⟨hrun, hline⟩
  case h_2 => cases h

theorem exec_sigcDmaLine {k : Fin 64} {ch : Fin 2} {s : State} {v : StreamSlot} {p : StreamDesc} {part : Nat} {off : Int}
    (hdue : dmaDue s k ch = some (v, p, part)) (hmeets : dmaMeets s k part p (ringBase v) v.moved = .moves) (hoff : dmaOffset s k p v.moved = some off) :
    exec (.sigcDmaLine k ch) s = .next (setDma k ch { v with moved := v.moved + 1, produced := v.produced + 1 }
      (if p.out then dmaOut k part p (ringBase v) v.moved off s else dmaIn k part p (ringBase v) v.moved off s)) := by
  obtain ⟨hrun, hline⟩ := dmaDue_some hdue
  simp only [exec, execSigcDmaLine, hrun]
  refine congrArg Host.Outcome.next ((if_pos hline).trans ?_)
  rw [hmeets, hoff]

theorem exec_sigcDmaDone {k : Fin 64} {ch : Fin 2} {s : State} {v : StreamSlot} {p : StreamDesc} {owner : Option Nat}
    (hrun : runningDma s k ch = some (v, p, owner)) (hall : v.moved = dmaCount p) : exec (.sigcDmaDone k ch) s =
      .next (sEvent k ch (dmaStatus k ch 2 0 (setDma k ch { v with queue := [], started := false, moved := 0 } s))) := by
  simp only [exec, execSigcDmaDone, hrun]
  exact congrArg Host.Outcome.next (if_pos hall)

/-! ### SIGC_DMA_HALT (R158, R192) -/

theorem dmaStatus_error (k ch state err : Nat) (s : State) :
    (dmaStatus k ch state err s).reg (sigcPage k) Rg.sigcDmaStatusError ch = err % 2 ^ Rg.sigcDmaStatusError.len := State.reg_setReg_same ..

theorem dmaHalt_error (k : Fin 64) (ch : Fin 2) (code a : Nat) (u : State) :
    (dmaHalt k ch code (some a) u).reg (sigcPage k) Rg.sigcDmaStatusError ch = code % 2 ^ Rg.sigcDmaStatusError.len := by
  have hapart : fieldBit (sigcPage k) Rg.sigcDmaStatusError ch ≠ fieldBit (sigcPage k) Rg.sigcDmaErrorAddrAddress ch := by
    refine fieldBit_ne ?_
    revert ch
    decide
  unfold dmaHalt
  dsimp only
  rw [sEvent_reg, State.reg_raise_off _ (offHeader_same (by show 64 ≤ 120 + _; omega)), State.reg_setReg_other _ hapart]
  exact dmaStatus_error ..

/-- A halted channel holds no descriptor, and shows its state, its code and its address. -/
theorem dmaHalt_shows (k : Fin 64) (ch : Fin 2) (code addr : Nat) (u : State) : let t := dmaHalt k ch code (some addr) u
    dmaOf t k ch = { dmaOf u k ch with queue := [], started := false, moved := 0 } ∧ t.reg (sigcPage k) Rg.sigcDmaStatusState ch = 3 ∧
      t.reg (sigcPage k) Rg.sigcDmaStatusError ch = code % 2 ^ Rg.sigcDmaStatusError.len ∧
      t.reg (sigcPage k) Rg.sigcDmaErrorAddrAddress ch = addr % 2 ^ 64 ∧ (t.sigc k).events.contains ch.val = true :=
  ⟨dmaHalt_of .., dmaHalt_state .., dmaHalt_error .., dmaHalt_addr .., sEvent_has ..⟩

/-- What a channel that meets a unit it cannot move reports before it stops. -/
def dmaReported (k ch part : Nat) (p : StreamDesc) (moved code addr : Nat) (s : State) : State :=
  let t := match dmaOffset s k p moved with
    | some off =>
      if code = 2 then s.faultTouch part addr 1 p.out
      else if code = 1 ∧ !p.out then s.partTouch part (dmaAddr p off).1 (dmaUnit p) p.cacheHint else s
    | none => s
  if code = 1 then t.error (sigcPage k) 0x0503 ch addr else t

theorem dmaReported_only (k ch part : Nat) (p : StreamDesc) (moved code addr : Nat) (s : State) :
    Only 6308878 s (dmaReported k ch part p moved code addr s) := by
  have hcounted : ∀ u, Only 6308878 s u → Only 6308878 s (if code = 1 then u.error (sigcPage k) 0x0503 ch addr else u) := fun u hu =>
    ite_prop (Only 6308878 s) (fun _ => hu.trans ((State.error_only ..).mono rfl)) (fun _ => hu)
  refine hcounted _ ?_
  split
  · exact ite_prop (Only 6308878 s) (fun _ => (State.faultTouch_only ..).mono rfl)
      (fun _ => ite_prop (Only 6308878 s) (fun _ => State.partTouch_only ..) fun _ => Only.refl ..)
  · exact Only.refl ..

theorem exec_sigcDmaHalt_unowned {k : Fin 64} {ch : Fin 2} {s : State} {v : StreamSlot} {p : StreamDesc} (hrun : runningDma s k ch = some (v, p, none)) :
    exec (.sigcDmaHalt k ch) s = .next (dmaHalt k ch 2 (some p.mem) s) := by
  simp only [exec, execSigcDmaHalt, hrun]

theorem exec_sigcDmaHalt_meets {k : Fin 64} {ch : Fin 2} {s : State} {v : StreamSlot} {p : StreamDesc} {part code addr : Nat}
    (hrun : runningDma s k ch = some (v, p, some part)) (hline : v.moved < dmaCount p ∧ ringAllows p v = true)
    (hmeets : dmaMeets s k part p (ringBase v) v.moved = .halts code addr) :
    exec (.sigcDmaHalt k ch) s = .next (dmaHalt k ch code (some addr) (dmaReported k ch part p v.moved code addr s)) := by
  simp only [exec, execSigcDmaHalt, hrun]
  refine congrArg Host.Outcome.next ((if_pos hline).trans ?_)
  rw [hmeets]
  rfl

/-! ### The statement -/

/-- Settles O55: each command by its equation, and the signal core and the registers by the lemmas about the operations that it comes down to. -/
theorem signalCoreCommandsComplete : Obligations.SignalCoreCommandsComplete := by
  unfold Obligations.SignalCoreCommandsComplete
  refine ⟨?reti, ?ei, ?di, ?alarm, ?alarmFire, ?doorbell, ?interrupt, ?enable, ?dmaStart, ?dmaLine, ?dmaDone, ?dmaHalt⟩
  case reti =>
    intro k s h
    refine .of_runSInsn h rfl ?_
    dsimp only
    rw [fetchSigc_sigc]
    exact (sigcAt_fetch k s).set _
  case ei => exact fun k s h => runs_sigcSet (f := fun x => { x with ie := true }) h rfl
  case di => exact fun k s h => runs_sigcSet (f := fun x => { x with ie := false }) h rfl
  case alarm =>
    intro k n a s h
    have hsigc : (fetchSigc k s).sigc k = s.sigc k := fetchSigc_sigc ..
    have hnow : (fetchSigc k s).now = s.now := now_fetchSigc ..
    refine .of_runSInsn h rfl ?_
    by_cases hlater : s.now % 2 ^ 64 < (getA (s.sigc k) a).toNat
    · rw [alarmBody_armed (by rw [hsigc, hnow]; exact hlater), hsigc]
      obtain ⟨hsame, hothers⟩ := ((sigcAt_fetch k s).set { s.sigc k with alarms := tabSet n (getA (s.sigc k) a) (s.sigc k).alarms }).done
      exact ⟨hothers, fun _ => hsame, fun hpassed => absurd hlater hpassed⟩
    · rw [alarmBody_passed (by rw [hsigc, hnow]; exact hlater), hsigc]
      obtain ⟨events, hpending, hfired⟩ := (sigcAt_fetch k s).fires n
      obtain ⟨hsame, hothers⟩ := hfired.done
      refine ⟨hothers, fun h => absurd h hlater, fun _ => ?_⟩
      rw [hsame, sNext_alarms, sNext_events]
      exact ⟨tabFind_del_same .., hpending, sNext_pc_congr rfl rfl rfl⟩
  case alarmFire =>
    intro k n s h
    obtain ⟨events, hpending, hsame, hothers⟩ := (sigcAt_refl k s).fires n
    refine ⟨_, exec_alarmFire h, ?_⟩
    dsimp only
    rw [hsame]
    exact ⟨tabFind_del_same .., hpending, rfl, hothers⟩
  case doorbell =>
    intro who k value s h
    refine ⟨_, congrArg Host.Outcome.next (writeAccess_taken h), ?_⟩
    dsimp only
    cases hbit : value.getLsbD 0 with
    | true =>
      obtain ⟨events, hpending, hsame, hothers⟩ := (sigcAt_refl k s).raised 4
      rw [if_pos rfl, hsame]
      exact ⟨fun _ => ⟨hpending, rfl⟩, fun hzero => (by cases hzero), hothers⟩
    | false => exact ⟨fun hone => (by cases hone), fun _ => rfl, (sigcAt_refl k s).2⟩
  case interrupt =>
    intro k s h
    obtain ⟨e, he, hexec⟩ := exec_interruptTaken h
    obtain ⟨hsame, hothers⟩ := ((sigcAt_refl k s).then_only (leaveWaits_only (.sigc k) s) rfl rfl).set (interrupted s k e)
    exact ⟨_, hexec, e, he, hothers, hsame⟩
  case enable =>
    intro who k on s h
    obtain ⟨hstatus, hcontrol⟩ := reg_setSigcEnable k on s
    refine ⟨_, congrArg Host.Outcome.next (writeAccess_taken h), hstatus, hcontrol, fun hoff => ?_, fun hon hstops => ?_⟩
    · rw [hoff]
      exact setSigcEnable_off_idle k s
    · rw [hon]
      exact setSigcEnable_starts hstops
  case dmaStart =>
    intro k ch addr s h
    obtain ⟨b, hb, hexec⟩ := exec_sigcDmaStart h
    exact ⟨_, hexec, b, hb, dmaStatus_state _ _ _ _ _ (by decide), dmaOf_setDma_status ..⟩
  case dmaLine =>
    intro k ch s h
    obtain ⟨⟨v, p, part⟩, hdue, hmoves⟩ := any_some h
    obtain ⟨hmeets, hoffset⟩ := Bool.and_eq_true_iff.mp hmoves
    obtain ⟨off, hoff⟩ := Option.isSome_iff_exists.mp hoffset
    exact ⟨_, exec_sigcDmaLine hdue (eq_of_beq hmeets) hoff, v, p, part, off, hdue, hoff, rfl⟩
  case dmaDone =>
    intro k ch s h
    obtain ⟨⟨v, p, owner⟩, hrun, hall⟩ := any_some h
    refine ⟨_, exec_sigcDmaDone hrun (of_decide_eq_true hall), (v, p, owner), hrun, ?_, ?_, sEvent_has ..⟩
    · rw [dmaOf_sEvent, dmaOf_setDma_status]
    · rw [sEvent_reg, dmaStatus_state _ _ _ _ _ (by decide)]
  case dmaHalt =>
    intro k ch s h
    obtain ⟨⟨v, p, owner⟩, hrun, hstops⟩ := any_some h
    have hslot := runningDma_slot hrun
    cases owner with
    | none =>
      refine ⟨_, exec_sigcDmaHalt_unowned hrun, v, p, none, 2, p.mem, hrun, fun _ => ⟨rfl, rfl⟩, fun _ howned => (by cases howned), ?_⟩
      obtain ⟨hhalted, hshown⟩ := dmaHalt_shows k ch 2 p.mem s
      rw [← hslot] at hhalted
      exact ⟨hhalted, hshown⟩
    | some part =>
      simp only [Bool.and_eq_true, decide_eq_true_eq] at hstops
      obtain ⟨hline, hhalts⟩ := hstops
      split at hhalts
      case h_2 => cases hhalts
      case h_1 code addr hmeets =>
        refine ⟨_, exec_sigcDmaHalt_meets hrun hline hmeets, v, p, some part, code, addr, hrun, fun hnone => (by cases hnone),
          fun _ howned => (by cases howned; exact hmeets), ?_⟩
        have hreported := dmaReported_only k ch part p v.moved code addr s
        obtain ⟨hhalted, hshown⟩ := dmaHalt_shows k ch code addr (dmaReported k ch part p v.moved code addr s)
        rw [dmaOf_congr (hreported.sigc_same rfl k), ← hslot] at hhalted
        exact ⟨hhalted, hshown⟩

end Sys2Proof.Machine
end

section
/-! SUPPORT. Memory accesses, bulk ports, buffer ways, heat placement, sluice engines and re-sourcing (R237 to R274), and the statement on the
memory commands. -/

namespace Sys2Proof.Machine

/-! ### MEMORY_READ and MEMORY_WRITE (R237, R631) -/

theorem partRead_of_readsData {s : State} {k a n : Nat} {b : List (Option Byte)} (h : readsData s k a n = some b) : s.partRead k a n = .data b := by
  unfold readsData at h
  split at h
  case h_1 d hread => cases h; exact hread
  case h_2 => cases h

theorem exec_memoryRead {part : Fin 64} {addr : BitVec 64} {hint : CacheHint} {agent : MemAgent} {s : State} (h : canMemoryRead part addr hint agent s = true) :
    ∃ b, readsData s part addr.toNat 64 = some b ∧
      exec (.memoryRead part addr hint agent) s = .next ((s.partTouch part addr.toNat 64 hint).emit (.readData (b.mapM id))) := by
  obtain ⟨hworks, hdata⟩ := Bool.and_eq_true_iff.mp h
  obtain ⟨b, hb⟩ := Option.isSome_iff_exists.mp hdata
  refine ⟨b, hb, ?_⟩
  simp only [exec, execMemoryRead, hworks, partRead_of_readsData hb]
  rfl

theorem exec_memoryWrite {part : Fin 64} {addr : BitVec 64} {data : List Byte} {agent : MemAgent} {s : State}
    (h : canMemoryWrite part addr data agent s = true) : exec (.memoryWrite part addr data agent) s = .next (s.partStore part addr.toNat data) := by
  obtain ⟨hworks, hcheck⟩ := Bool.and_eq_true_iff.mp h
  simp only [exec, execMemoryWrite, eq_of_beq hcheck]
  exact congrArg Host.Outcome.next (if_pos hworks)

/-! ### Bulk ports (R245, R248) -/

/-- The state of a bulk port's link as its status shows it. -/
def linkShown (p up width speed : Nat) (s : State) : State :=
  s.setReg (bulkPage p) Rg.bulkPortStatusLinkUp up |>.setReg (bulkPage p) Rg.bulkPortStatusWidth width |>.setReg (bulkPage p) Rg.bulkPortStatusSpeed speed

theorem reg_linkShown {p up width speed : Nat} (hup : up < 2) (hwidth : width < 4) (hspeed : speed < 4) (s : State) : let t := linkShown p up width speed s
    t.reg (bulkPage p) Rg.bulkPortStatusLinkUp = up ∧ t.reg (bulkPage p) Rg.bulkPortStatusWidth = width ∧ t.reg (bulkPage p) Rg.bulkPortStatusSpeed = speed := by
  refine ⟨?_, ?_, ?_⟩
  · rw [linkShown, State.reg_setReg_other _ (fieldBit_ne (by decide)), State.reg_setReg_other _ (fieldBit_ne (by decide)), State.reg_setReg_same]
    exact Nat.mod_eq_of_lt hup
  · rw [linkShown, State.reg_setReg_other _ (fieldBit_ne (by decide)), State.reg_setReg_same]
    exact Nat.mod_eq_of_lt hwidth
  · rw [linkShown, State.reg_setReg_same]
    exact Nat.mod_eq_of_lt hspeed

theorem linkShown_mem (p up width speed : Nat) (s : State) : (linkShown p up width speed s).mem = s.mem := rfl

/-- A port of the interleave set whose units are lost: its page shows LINK_DOWN. -/
def portLost (p : Nat) (s : State) : State :=
  { s with tier := { s.tier with lostPorts := s.tier.lostPorts.filter (· != p) ++ [p] } }.raise (bulkPage p) 1

theorem reg_portLost {p : Nat} {f : RegField} (hf : 64 ≤ f.off + f.stride * 0) (s : State) : (portLost p s).reg (bulkPage p) f = s.reg (bulkPage p) f :=
  State.reg_raise_off _ (offHeader_same hf) 1

theorem lostPorts_portLost (p : Nat) (s : State) : p ∈ (portLost p s).tier.lostPorts := by
  rw [portLost, State.raise_tier]
  exact List.mem_append_right _ (List.mem_singleton_self p)

theorem bulkDown_up {p : Nat} {s : State} (h : s.flag (bulkPage p) Rg.bulkPortStatusLinkUp = true) :
    bulkDown p s = if s.flag (bulkPage p) Rg.bulkPortStatusInSet then portLost p (linkShown p 0 0 0 s) else linkShown p 0 0 0 s := by
  unfold bulkDown
  rw [if_neg (nn h)]
  rfl

theorem exec_bulkLinkDown {p : Fin 8} {s : State} (h : canBulkLinkDown p s = true) : exec (.bulkLinkDown p) s =
    .next (if s.flag (bulkPage p) Rg.bulkPortStatusInSet then portLost p (linkShown p 0 0 0 s) else linkShown p 0 0 0 s) := by
  obtain ⟨halive, hup⟩ := Bool.and_eq_true_iff.mp h
  exact congrArg Host.Outcome.next ((if_pos halive).trans (bulkDown_up hup))

theorem exec_bulkLinkUp {p : Fin 8} {width speed : Fin 4} {s : State} (h : canBulkLinkUp p width speed s = true) :
    exec (.bulkLinkUp p width speed) s = .next (linkShown p 1 width speed s) := by
  obtain ⟨halive, htrained⟩ := Bool.and_eq_true_iff.mp h
  have hlink : bulkLinkOk width speed = true := by
    revert htrained
    unfold bulkLinkOk
    generalize width.val = w
    generalize speed.val = v
    simp only [Bool.or_eq_true, Bool.and_eq_true, beq_iff_eq]
    omega
  exact congrArg Host.Outcome.next (if_pos ⟨halive, hlink⟩)

/-! ### BUFFER_WAYS_WRITE (R251) -/

theorem tabFind_forgetRange (r : Region) (lo n k : Nat) (m : Memory) :
    tabFind k (forgetRange r lo n m).cells = if !(decide (lo ≤ k) && decide (k < lo + n)) then tabFind k m.cells else none :=
  tabFind_filter (fun k => !(decide (lo ≤ k) && decide (k < lo + n))) k m.cells

theorem tabFind_forgetRange_none {k : Nat} {m : Memory} (h : tabFind k m.cells = none) (r : Region) (lo n : Nat) :
    tabFind k (forgetRange r lo n m).cells = none := by
  rw [tabFind_forgetRange, h, ite_self]

/-- Ways of a die's buffer hold nothing any more. -/
def forgetWays (m : Nat) (ways : List Nat) (b : Memory) : Memory :=
  ways.foldl (fun b w => forgetRange .buf (bufKey m (w * 2 ^ 23)) (2 ^ 23) b) b

theorem tabFind_forgetWays_none {k : Nat} (m : Nat) (ways : List Nat) {b : Memory} (h : tabFind k b.cells = none) :
    tabFind k (forgetWays m ways b).cells = none := by
  induction ways generalizing b with
  | nil => exact h
  | cons w ways ih => exact ih (tabFind_forgetRange_none h ..)

theorem tabFind_forgetWays {m w i : Nat} {ways : List Nat} (hw : w ∈ ways) (hi : i < 2 ^ 23) (b : Memory) :
    tabFind (bufKey m (w * 2 ^ 23) + i) (forgetWays m ways b).cells = none := by
  induction ways generalizing b with
  | nil => cases hw
  | cons v ways ih =>
    rcases List.mem_cons.mp hw with rfl | hw
    · refine tabFind_forgetWays_none m ways ?_
      rw [tabFind_forgetRange, if_neg]
      rw [decide_eq_true (Nat.le_add_right ..), decide_eq_true (Nat.add_lt_add_left hi _)]
      decide
    · exact ih hw _

/-- The ways of a die's buffer are those of a value: the ways that change hold nothing, and new buffer ways hold no cached line. -/
def waysSet (m : Nat) (value : BitVec 32) (s : State) : State :=
  { s.setReg (msidPage m) Rg.msidBufferWaysWays (value.toNat % 65536) with
    tier := { s.tier with cache := s.tier.cache.filter fun e => !(e.1 / 2 ^ 21 == m && (value.toNat % 65536).testBit (e.1 % 16)) }
    mem := { s.mem with buf := forgetWays m (changedWays s m value) s.mem.buf } }

/-- A way that stops being a buffer way is one that changes. -/
theorem wayGone_changes {old new w : Nat} (h : (old.testBit w && !new.testBit w) = true) : (old.testBit w != new.testBit w) = true := by
  obtain ⟨hold, hnew⟩ := Bool.and_eq_true_iff.mp h
  rw [hold, (Bool.not_eq_true' _).mp hnew]
  rfl

theorem exec_bufferWaysWrite {who : Requester} {m : Fin 4} {value : BitVec 32} {s : State} (h : canBufferWaysWrite who m value s = true) :
    exec (.bufferWaysWrite who m value) s = .next (waysSet m value s) := by
  obtain ⟨htaken, hfree⟩ := Bool.and_eq_true_iff.mp h
  have hnone : ((List.range 16).filter fun w => (s.reg (msidPage m) Rg.msidBufferWaysWays).testBit w && !(value.toNat % 65536).testBit w).find?
      (fun w => (wayFrames m w).any (usedFrames s 2).contains) = none := by
    refine List.find?_eq_none.mpr fun w hgone hused => ?_
    obtain ⟨hw, hstops⟩ := List.mem_filter.mp hgone
    refine nb hfree (List.any_eq_true.mpr ⟨w, List.mem_filter.mpr ⟨hw, wayGone_changes hstops⟩, Bool.and_eq_true_iff.mpr ⟨?_, hused⟩⟩)
    exact (Bool.and_eq_true_iff.mp hstops).1
  refine congrArg Host.Outcome.next ((writeAccess_taken htaken).trans ?_)
  dsimp only
  rw [hnone]
  rfl

/-! ### Heat placement (R257 to R259) -/

/-- What the end of a heat epoch makes of a page. -/
def cooled (k key : Nat) (e : PageEntry) : PageEntry :=
  if key / 2 ^ 25 = k ∧ !e.pinned ∧ !e.compressed then { e with heat := e.heat / 2 } else e

/-- The pages of a partition at the end of a heat epoch. -/
def pagesCooled (k : Nat) (m : Table PageEntry) : Table PageEntry := m.map fun e => (e.1, cooled k e.1 e.2)

theorem keys_pagesCooled (k : Nat) (m : Table PageEntry) : (pagesCooled k m).map (·.1) = m.map (·.1) := by
  rw [pagesCooled, List.map_map]
  rfl

theorem tabFind_pagesCooled (k key : Nat) (m : Table PageEntry) : tabFind key (pagesCooled k m) = (tabFind key m).map (cooled k key) := by
  induction m with
  | nil => rfl
  | cons x m ih =>
    obtain ⟨j, e⟩ := x
    by_cases h : j = key
    · subst h
      simp [pagesCooled, tabFind]
    · simpa [pagesCooled, tabFind, h] using ih

theorem pagesCooled_eq (k : Nat) (m : Table PageEntry) :
    (m.map fun e => if e.1 / 2 ^ 25 = k ∧ !e.2.pinned ∧ !e.2.compressed then (e.1, { e.2 with heat := e.2.heat / 2 }) else e) = pagesCooled k m := by
  refine List.map_congr_left fun e _ => ?_
  rw [cooled]
  split <;> rfl

theorem exec_heatEpoch {part : Fin 64} {s : State} (h : canHeatEpoch part s = true) : exec (.heatEpoch part) s =
    .next { s with
      parts := tabMod {} part.val (fun x => { x with heatAt := x.heatAt + heatEpochNs s part }) s.parts
      tier := { s.tier with pages := pagesCooled part s.tier.pages } } := by
  simp only [canHeatEpoch, Bool.and_eq_true, decide_eq_true_eq] at h
  obtain ⟨⟨hworks, hruns⟩, hover⟩ := h
  rw [← pagesCooled_eq]
  exact congrArg Host.Outcome.next (if_pos ⟨hworks, hruns, hover⟩)

/-- The hottest covered page of the bulk tier that reaches the threshold (R258). -/
def hotPage (s : State) (k : Nat) : Option (Nat × PageEntry) :=
  pickPage (fun a b => decide (a > b)) ((coveredPages s k 1).filter fun e => decide (e.2.heat ≥ 16 * s.reg (partPage k) Rg.partHeatControlThreshold))

/-- The coldest covered page of HBM that may leave it (R256, R258). -/
def coldPage (s : State) (k : Nat) : Option (Nat × PageEntry) :=
  pickPage (fun a b => decide (a < b)) ((coveredPages s k 0).filter fun e => mayLeaveHbm s k e.2)

/-- The page moved is the hottest one where HBM has room for it, and otherwise the coldest one where that is cold enough and the bulk tier has
room. -/
theorem heatChoice_some {s : State} {k page tier : Nat} (h : heatChoice s k = some (page, tier)) : ∃ ck c, hotPage s k = some (ck, c) ∧
    ((allotExceeded s k 0 1 [] = false ∧ page = ck % 2 ^ 25 ∧ tier = 0) ∨
      (allotExceeded s k 0 1 [] = true ∧ ∃ vk v, coldPage s k = some (vk, v) ∧ (2 * v.heat < c.heat ∧ (!allotExceeded s k 1 1 []) = true) ∧
        page = vk % 2 ^ 25 ∧ tier = 1)) := by
  unfold heatChoice at h
  generalize hhot : pickPage (fun a b => decide (a > b)) _ = hot at h
  generalize hcold : pickPage (fun a b => decide (a < b)) _ = cold at h
  cases hot with
  | none => cases h
  | some hottest =>
    obtain ⟨ck, c⟩ := hottest
    refine ⟨ck, c, hhot, ?_⟩
    dsimp only at h
    cases hfull : allotExceeded s k 0 1 [] with
    | false =>
      rw [if_pos (by rw [hfull]; rfl)] at h
      cases h
      exact .inl ⟨rfl, rfl, rfl⟩
    | true =>
      rw [if_neg (by rw [hfull]; decide)] at h
      cases cold with
      | none => cases h
      | some coldest =>
        obtain ⟨vk, v⟩ := coldest
        obtain ⟨hcolder, hmoves⟩ := (Option.ite_none_right_eq_some ..).mp h
        cases hmoves
        exact .inr ⟨rfl, vk, v, hcold, hcolder, rfl, rfl⟩

theorem exec_heatMove {part : Fin 64} {s : State} {page tier : Nat} (h : canHeatMove part s = true) (hchoice : heatChoice s part = some (page, tier)) :
    exec (.heatMove part) s = .next (startMove part page tier true none s) := by
  simp only [canHeatMove, Bool.and_eq_true] at h
  obtain ⟨⟨⟨hworks, hruns⟩, hidle⟩, -⟩ := h
  obtain ⟨ck, c, hhot, hmoved⟩ := heatChoice_some hchoice
  unfold hotPage at hhot
  refine congrArg Host.Outcome.next ((if_pos ⟨hworks, hruns, hidle⟩).trans ?_)
  dsimp only
  rw [hhot]
  rcases hmoved with ⟨hroom, rfl, rfl⟩ | ⟨hfull, vk, v, hcold, hcolder, rfl, rfl⟩
  · exact if_pos (by rw [hroom]; rfl)
  · unfold coldPage at hcold
    refine (if_neg (by rw [hfull]; decide)).trans ?_
    rw [hcold]
    exact if_pos hcolder

theorem exec_heatMoveDone {part : Fin 64} {s : State} (h : canHeatMoveDone part s = true) : ∃ m, tabFind part.val s.tier.moves = some m ∧
    exec (.heatMoveDone part) s = .next ((finishPage part m.1 s).bump (partPage part) Rg.partHeatMovesCount) := by
  obtain ⟨hworks, hmove⟩ := Bool.and_eq_true_iff.mp h
  obtain ⟨m, hm, hheat⟩ := any_some hmove
  refine ⟨m, hm, ?_⟩
  simp only [exec, execHeatMoveDone, hm]
  exact congrArg Host.Outcome.next (if_pos ⟨hworks, hheat⟩)

/-! ### Sluice engines (R265 to R268) -/

theorem sluiceAt_some {s : State} {e kind : Nat} {r : SluiceRun} {h : SluiceHead} {src len : Nat} (hat : sluiceAt s e kind = some (r, h, src, len)) :
    sluiceRuns s e = some r ∧ sluiceHead s r.part r.list = some h ∧ sluiceEntry s r.part r.list r.entry = some (kind, src, len) := by
  obtain ⟨r', hruns, hentry⟩ := Option.bind_eq_some_iff.mp hat
  split at hentry
  case h_1 h' k src' len' hhead hent =>
    obtain ⟨hkind, hsome⟩ := (Option.ite_none_right_eq_some ..).mp hentry
    cases hsome
    subst hkind
    exact ⟨hruns, hhead, hent⟩
  case h_2 => cases hentry

theorem ungranted_eq {r : SluiceRun} (h : r.granted = false) : { r with granted := false } = r := by
  cases r
  cases h
  rfl

/-- An engine that takes its counter goes on at once. -/
theorem sluiceAcquire_takes {s : State} {r : SluiceRun} {ix : Nat} (h : sluiceTakes s r ix = true) (e : Nat) (f : SluiceRun → State → State) :
    sluiceAcquire e r ix f s = f { r with granted := false } (sluiceTaken s r ix) := by
  unfold sluiceTakes at h
  unfold sluiceAcquire sluiceTaken
  cases hgranted : r.granted with
  | true => rfl
  | false =>
    rw [hgranted, Bool.false_or] at h
    obtain ⟨n, hsem, hfree⟩ := any_some h
    simp only [Bool.and_eq_true, decide_eq_true_eq, Bool.not_eq_true'] at hfree
    obtain ⟨⟨⟨hcounter, hwaits⟩, hcount⟩, hempty⟩ := hfree
    rw [ungranted_eq hgranted, hsem]
    dsimp only
    rw [if_neg (by decide), if_neg (by simp [hcounter, Option.isNone_iff_eq_none.mp hwaits]), if_pos ⟨hcount, hempty⟩]
    rfl

/-- The state in which an engine stands in the queue of a counter. -/
def sluiceQueued (e : Nat) (r : SluiceRun) (n : Nat) (s : State) : State :=
  (setSluice e { r with waits := some n } s).setSem n { s.sem n with waiters := (s.sem n).waiters ++ [.sluice e] }

theorem sluiceAcquire_queues {s : State} {r : SluiceRun} {ix n : Nat} (h : sluiceQueues s r ix = some n) (e : Nat) (f : SluiceRun → State → State) :
    sluiceAcquire e r ix f s = sluiceQueued e r n s := by
  obtain ⟨hsem, hheld⟩ := Option.filter_eq_some_iff.mp h
  simp only [Bool.and_eq_true, Bool.not_eq_true'] at hheld
  obtain ⟨⟨⟨hgranted, hcounter⟩, hwaits⟩, hbusy⟩ := hheld
  unfold sluiceAcquire
  rw [if_neg (by simp [hgranted]), hsem]
  dsimp only
  rw [if_neg (by simp [hcounter, Option.isNone_iff_eq_none.mp hwaits]), if_neg (by simpa using hbusy)]
  rfl

theorem sluiceQueued_shows (e : Nat) (r : SluiceRun) (n : Nat) (s : State) : let t := sluiceQueued e r n s
    (t.sem n).waiters = (s.sem n).waiters ++ [.sluice e] ∧ (t.sem n).count = (s.sem n).count ∧
      tabFind e t.tier.sluices = some { r with waits := some n } ∧ t.mem = s.mem := by
  dsimp only [sluiceQueued]
  rw [State.sem_setSem_same]
  exact ⟨rfl, rfl, tabFind_set_same .., rfl⟩

theorem exec_sluicePrefetch {engine : Fin 64} {s : State} {r : SluiceRun} {h : SluiceHead} {src len : Nat}
    (hat : sluiceAt s engine 0 = some (r, h, src, len)) : exec (.sluicePrefetch engine) s =
      .next (sluiceAcquire engine r h.pace (fun r t => nextEntry engine r h (t.partTouch r.part src len .keep)) s) := by
  obtain ⟨hruns, hhead, hentry⟩ := sluiceAt_some hat
  simp only [exec, execSluicePrefetch, hruns, hhead, hentry]

/-- A fill that an engine begins: its entry's layer has a slot, and fits into it. -/
theorem exec_sluiceFillStart {engine : Fin 64} {s : State} {r : SluiceRun} {h : SluiceHead} {src len : Nat}
    (hat : sluiceAt s engine 1 = some (r, h, src, len)) (hidle : r.filling = false) (hslots : h.slots ≠ 0) (hfits : len ≤ h.slotBytes) :
    exec (.sluiceFillStart engine) s = .next (sluiceAcquire engine r (h.freeBase + r.fills % h.slots)
      (fun r t => setSluice engine { r with filling := true, fillAt := s.now, unit := 0 } (t.partTouch r.part src len)) s) := by
  obtain ⟨hruns, hhead, hentry⟩ := sluiceAt_some hat
  simp only [exec, execSluiceFillStart, hruns, hhead, hentry]
  exact congrArg Host.Outcome.next (if_neg (by simp [hidle, hslots, hfits]))

theorem exec_sluiceFillDone {engine : Fin 64} {s : State} {r : SluiceRun} {h : SluiceHead} {src len gate : Nat} {b : List Byte}
    (hat : sluiceAt s engine 1 = some (r, h, src, len)) (hb : s.partBytesAll r.part src len = some b)
    (hgate : partSem s r.part (h.gateBase + r.fills % max 1 h.slots) = some gate) (hfilling : r.filling = true)
    (hcheck : s.partWriteCheck r.part (fillSlot h r) len = .done) : exec (.sluiceFillDone engine) s =
      .next (if rangeClear s r.part (fillSlot h r) len then
          nextEntry engine { r with fills := r.fills + 1 } h (addCount gate h.consumers (s.partStore r.part (fillSlot h r) b))
        else s.partStore r.part (fillSlot h r) b) := by
  obtain ⟨hruns, hhead, hentry⟩ := sluiceAt_some hat
  simp only [exec, execSluiceFillDone, hruns, hhead, hentry, hb, hgate]
  exact congrArg Host.Outcome.next (if_pos ⟨hfilling, hcheck⟩)

/-! ### Re-sourced units (R272 to R274) -/

/-- The unit of an address is known by the pages and the objects. -/
theorem unitOf_congr {s t : State} (h : t.tier = s.tier) (k a : Nat) : unitOf t k a = unitOf s k a := by
  unfold unitOf objectAt State.pageOf
  rw [h]

theorem tabFind_setUnit {s t : State} (h : t.tier = s.tier) (k a : Nat) (x : Option UnitState) : tabFind (unitOf s k a) (setUnit k a x t).tier.units = x := by
  rw [← unitOf_congr h]
  cases x with
  | none => exact tabFind_del_same ..
  | some v => exact tabFind_set_same ..

theorem setUnit_mem (k a : Nat) (x : Option UnitState) (s : State) : (setUnit k a x s).mem = s.mem := rfl

theorem ownWrite_tier (k a : Nat) (b : List Byte) (s : State) : (ownWrite k a b s).tier = s.tier := (ownWrite_only ..).tier rfl

/-- The good data of a unit that its replica has delivered, from its stored form. -/
def replicaData (o : ObjectRec) (data : List Byte) : Option (List Byte) := if o.compressed then decodeStored o data else some (data.take 4096)

/-- The state in which one more unit of a partition has been re-sourced. -/
def resourced (k : Nat) (s : State) : State := s.bump (partPage k) Rg.partResourceCountResourced

theorem resourced_tier (k : Nat) (s : State) : (resourced k s).tier = s.tier := State.bump_tier ..
theorem resourced_mem (k : Nat) (s : State) : (resourced k s).mem = s.mem := State.bump_mem ..

/-- What a replica's answer leaves: a lost unit, good data for its reads, or the unit written back. -/
def answered (k a : Nat) (o : ObjectRec) (data : List Byte) (writeFails : Bool) (s : State) : State :=
  match replicaData o data with
  | none => loseUnit k a s
  | some good =>
    if writeFails then setUnit k a (some (.ready good (List.range ((good.length + 63) / 64)))) (resourced k s)
    else setUnit k a none (ownWrite k (storedPlace (resourced k s) k a o) (if o.compressed then data else data.take 4096) (resourced k s))

theorem answered_bad {o : ObjectRec} {data : List Byte} (h : replicaData o data = none) (k a : Nat) (writeFails : Bool) (s : State) :
    answered k a o data writeFails s = loseUnit k a s := by
  rw [answered, h]

theorem answered_good {o : ObjectRec} {data good : List Byte} (h : replicaData o data = some good) (k a : Nat) (writeFails : Bool) (s : State) :
    answered k a o data writeFails s =
      if writeFails then setUnit k a (some (.ready good (List.range ((good.length + 63) / 64)))) (resourced k s)
      else setUnit k a none (ownWrite k (storedPlace (resourced k s) k a o) (if o.compressed then data else data.take 4096) (resourced k s)) := by
  rw [answered, h]

theorem exec_resourceDone {part : Fin 64} {unit : BitVec 64} {source : ReplicaSource} {data : List Byte} {writeFails : Bool} {s : State}
    (h : canResourceDone part unit source data writeFails s = true) : ∃ i o, objectAt s part unit.toNat = some (i, o) ∧
      exec (.resourceDone part unit source data writeFails) s = .next (answered part unit.toNat o data writeFails s) := by
  simp only [canResourceDone, Bool.and_eq_true] at h
  obtain ⟨⟨hworks, hawaited⟩, hobject⟩ := h
  obtain ⟨⟨i, o⟩, hat, hanswers⟩ := any_some hobject
  obtain ⟨hreplica, hfresh⟩ := Bool.and_eq_true_iff.mp hanswers
  refine ⟨i, o, hat, ?_⟩
  simp only [exec, execResourceDone, hat]
  refine congrArg Host.Outcome.next ((if_pos ⟨hworks, hawaited⟩).trans ((if_neg ?_).trans rfl))
  rintro (hother | ⟨htwin, hstale⟩)
  · exact hother (eq_of_beq hreplica)
  · simp only [htwin, hstale] at hfresh
    cases hfresh

theorem loseUnit_mem (k a : Nat) (s : State) : (loseUnit k a s).mem = s.mem := (loseUnit_only k a s).mem rfl

theorem exec_resourceTimeout {part : Fin 64} {unit : BitVec 64} {error : Bool} {s : State} (h : canResourceTimeout part unit error s = true) :
    exec (.resourceTimeout part unit error) s = .next (loseUnit part unit.toNat s) := by
  obtain ⟨hworks, hover⟩ := Bool.and_eq_true_iff.mp h
  split at hover
  case h_1 since hunit =>
    simp only [exec, execResourceTimeout, hunit]
    refine congrArg Host.Outcome.next (if_pos ⟨hworks, ?_⟩)
    simpa using hover
  case h_2 => cases hover

/-! ### The statement -/

/-- Settles O40: each command by its equation, and the registers, tables and memories by the lemmas about the state it leads to. -/
theorem memoryCommandsComplete : Obligations.MemoryCommandsComplete := by
  unfold Obligations.MemoryCommandsComplete
  refine ⟨?read, ?write, ?linkDown, ?linkUp, ?ways, ?epoch, ?move, ?moveDone, ?prefetch, ?fillStart, ?fillDone, ?resource, ?timeout⟩
  case read =>
    intro part addr hint agent s h
    obtain ⟨b, hb, hexec⟩ := exec_memoryRead h
    exact ⟨_, hexec, b, hb, rfl⟩
  case write => exact fun part addr data agent s h => ⟨_, exec_memoryWrite h, rfl⟩
  case linkDown =>
    intro p s h
    obtain ⟨hup, hwidth, hspeed⟩ := reg_linkShown (p := p) (up := 0) (width := 0) (speed := 0) (by decide) (by decide) (by decide) s
    refine ⟨_, exec_bulkLinkDown h, ?_⟩
    dsimp only
    split
    case isTrue hset =>
      rw [reg_portLost (by decide), reg_portLost (by decide), reg_portLost (by decide)]
      exact ⟨hup, hwidth, hspeed, fun _ => ⟨lostPorts_portLost .., raised_bit _ _ 1 (by decide)⟩, State.raise_mem ..⟩
    case isFalse hunset => exact ⟨hup, hwidth, hspeed, fun hset => absurd hset hunset, rfl⟩
  case linkUp =>
    intro p width speed s h
    obtain ⟨hup, hwidth, hspeed⟩ := reg_linkShown (p := p) (up := 1) (by decide) width.isLt speed.isLt s
    exact ⟨_, exec_bulkLinkUp h, hup, hwidth, hspeed, rfl⟩
  case ways =>
    intro who m value s h
    refine ⟨_, exec_bufferWaysWrite h, ?_, fun w hw i hi => tabFind_forgetWays hw hi _, rfl⟩
    exact (State.reg_setReg_same ..).trans (Nat.mod_mod ..)
  case epoch =>
    intro part s h
    refine ⟨_, exec_heatEpoch h, rfl, ?_, keys_pagesCooled .., fun key e he => ?_⟩
    · dsimp only
      rw [tabMod, tabGet_put_same]
    · exact (tabFind_pagesCooled ..).trans (congrArg (Option.map (cooled part key)) he)
  case move =>
    intro part s h
    obtain ⟨⟨page, tier⟩, hchoice⟩ := Option.isSome_iff_exists.mp (Bool.and_eq_true_iff.mp h).2
    exact ⟨_, exec_heatMove h hchoice, page, tier, hchoice, rfl⟩
  case moveDone =>
    intro part s h
    obtain ⟨m, hm, hexec⟩ := exec_heatMoveDone h
    exact ⟨_, hexec, m, hm, rfl⟩
  case prefetch =>
    intro engine s h
    obtain ⟨⟨r, h, src, len⟩, hat, -⟩ := any_some h
    refine ⟨_, exec_sluicePrefetch hat, r, h, src, len, hat, fun htakes => sluiceAcquire_takes htakes .., fun n hqueues => ?_⟩
    rw [sluiceAcquire_queues hqueues]
    exact sluiceQueued_shows ..
  case fillStart =>
    intro engine s h
    obtain ⟨⟨r, h, src, len⟩, hat, hbegins⟩ := any_some h
    simp only [Bool.and_eq_true, Bool.not_eq_true', bne_iff_ne, decide_eq_true_eq] at hbegins
    obtain ⟨⟨⟨hidle, hslots⟩, hfits⟩, -⟩ := hbegins
    refine ⟨_, exec_sluiceFillStart hat hidle hslots hfits, r, h, src, len, hat, fun htakes => sluiceAcquire_takes htakes .., fun n hqueues => ?_⟩
    rw [sluiceAcquire_queues hqueues]
    exact sluiceQueued_shows ..
  case fillDone =>
    intro engine s h
    obtain ⟨⟨r, h, src, len⟩, hat, hends⟩ := any_some h
    simp only [Bool.and_eq_true, beq_iff_eq] at hends
    obtain ⟨⟨⟨hfilling, hbytes⟩, hsem⟩, hcheck⟩ := hends
    obtain ⟨b, hb⟩ := Option.isSome_iff_exists.mp hbytes
    obtain ⟨gate, hgate⟩ := Option.isSome_iff_exists.mp hsem
    exact ⟨_, exec_sluiceFillDone hat hb hgate hfilling hcheck, r, h, src, len, b, gate, hat, hb, hgate, fun hclear => if_pos hclear, fun hheld => if_neg (by simp [hheld])⟩
  case resource =>
    intro part unit source data writeFails s h
    obtain ⟨i, o, hat, hexec⟩ := exec_resourceDone h
    refine ⟨_, hexec, i, o, hat, fun hbad => answered_bad hbad .., fun good hgood => ?_⟩
    rw [answered_good hgood]
    refine ⟨fun hfails => ?_, fun hwritten => ?_⟩
    · rw [if_pos hfails]
      exact ⟨tabFind_setUnit (resourced_tier ..) .., resourced_mem part s⟩
    · rw [if_neg (by simp [hwritten])]
      exact ⟨tabFind_setUnit ((ownWrite_tier ..).trans (resourced_tier ..)) .., rfl⟩
  case timeout =>
    exact fun part unit error s h => ⟨_, exec_resourceTimeout h, rfl, tabFind_setUnit (State.bump_tier ..) .., loseUnit_mem ..⟩

end Sys2Proof.Machine
end

section
/-! SUPPORT. Objects declared, released, moved, loaded and filled, and sluice lists started and stopped (R253 to R277, R539), and the statement on
the object commands. -/

namespace Sys2Proof.Machine

/-! ### What the operations of the tiers leave of the objects -/

/-- An operation done for each entry of a list keeps what a single one keeps. -/
theorem each_keep {α β : Type} (g : State → β) {f : α → State → State} (h : ∀ x u, g (f x u) = g u) (l : List α) (s : State) :
    g (s.each l f) = g s := foldl_keep (fun t x => f x t) g (fun t x => h x t) l s

theorem each_writePageEntry_tier (k : Nat) (pages : List Nat) (s : State) : (s.each pages (writePageEntry k)).tier = s.tier :=
  each_keep State.tier (fun page u => (writePageEntry_only k page u).tier rfl) pages s

theorem clearFrame_objects (tier f : Nat) (s : State) : (clearFrame tier f s).tier.objects = s.tier.objects := by
  unfold clearFrame
  split <;> rfl

theorem placeStructs_objects (k : Nat) (s : State) : (placeStructs k s).tier.objects = s.tier.objects := by
  unfold placeStructs
  extract_lets need mine was frames fresh slots stay move cleared tier mem hbm placed
  split
  case isTrue => rfl
  case isFalse =>
    rw [each_keep State.tier (fun u t => (structWrite_only k _ _ t).tier rfl)]
    have hcleared : cleared.tier.objects = s.tier.objects := each_keep (fun u => u.tier.objects) (clearFrame_objects 0) fresh s
    clear_value cleared
    exact hcleared

theorem recount_objects (k : Nat) (s : State) : (recount k s).tier.objects = s.tier.objects := by
  rw [recount, State.setReg_tier, State.setReg_tier, placeStructs_objects]

/-- An object of a partition as its record says. -/
def objectSet (k id : Nat) (o : ObjectRec) (s : State) : State :=
  { s with tier := { s.tier with objects := tabSet (objKey k id) o s.tier.objects } }

theorem tabFind_objectSet (k id : Nat) (o : ObjectRec) (s : State) : tabFind (objKey k id) (objectSet k id o s).tier.objects = some o :=
  tabFind_set_same ..

/-! ### The start of a command -/

theorem startedState_data {c : Cmd} (h : dataOps.contains (cmdOp c) = true) (s : State) : startedState c s = s := if_pos h

/-- A command with data has its effect in the state that it finds: its entry is recorded with the data. -/
theorem startCmd_data {s : State} {q : CmdRef} {op : Nat} {c : Cmd} (h : startedCmd s q [op] true = some c) (hop : dataOps.contains op = true)
    (f : Cmd → State → State) : startCmd q [op] true f s = f c s := by
  rw [startCmd_runs h, startedState_data (by rw [startedCmd_op h]; exact hop)]

/-! ### OBJECT_DECLARE (R253 to R255) -/

/-- The pages that an object's record names. -/
def namedPages (o : ObjectRec) : List Nat := (List.range (objectPages o)).map (· + o.base / pageBytes)

/-- An object is declared: frames are mapped to its pages, and its record stands in the table. -/
def objectDeclared (k : Nat) (d : BitVec 512) (s : State) : State :=
  (recount k (objectSet k (dField d 0 0 16) (objectRec d)
    (mapPages k (dField d 0 0 16) (objectRec d) (freeFrames s (objectRec d).tier (objectPages (objectRec d))) s))).each (namedPages (objectRec d)) (writePageEntry k)

theorem declareObject_declares {k : Nat} {d : BitVec 512} {s : State} (h : declares s k d = true) : declareObject k d s = (0, objectDeclared k d s) := by
  simp only [declares, Bool.and_eq_true, Bool.not_eq_true'] at h
  obtain ⟨⟨hright, hroom⟩, hfree⟩ := h
  unfold declareObject
  dsimp only
  rw [if_neg (by simp [hright]), if_neg (by simp [hroom]), if_neg (by rw [hfree]; decide)]
  rfl

theorem tabFind_objectDeclared (k : Nat) (d : BitVec 512) (s : State) :
    tabFind (objKey k (dField d 0 0 16)) (objectDeclared k d s).tier.objects = some (objectRec d) := by
  rw [objectDeclared, each_writePageEntry_tier, recount_objects]
  exact tabFind_objectSet ..

theorem exec_objectDeclare {q : CmdRef} {data : HostData} {s : State} {c : Cmd} {b : List Byte} (hc : startedCmd s q [0x10] true = some c)
    (hlen : 64 ≤ cmdLen c) (hb : cmdData s c data 64 = some b) (hdeclares : declares (dataState c 64 b s) c.part (BitVec.ofNat 512 (leNat b)) = true) :
    exec (.objectDeclare q data) s = .next (complete c 0 0 (declareObject c.part (BitVec.ofNat 512 (leNat b)) (dataState c 64 b s)).2) := by
  refine congrArg Host.Outcome.next ((startCmd_data hc (by decide) _).trans ((if_neg (Nat.not_lt.mpr hlen)).trans ?_))
  rw [withData_ok hb, declareObject_declares hdeclares]

/-! ### OBJECT_RELEASE (R254, R256) -/

theorem tabFind_dropObject (k id : Nat) (o : ObjectRec) (s : State) : tabFind (objKey k id) (dropObject k id o s).tier.objects = none := by
  unfold dropObject
  dsimp only
  rw [recount_objects, each_writePageEntry_tier]
  exact tabFind_del_same ..

theorem exec_objectRelease {q : CmdRef} {object : BitVec 16} {s : State} {c : Cmd} {o : ObjectRec} (hc : startedCmd s q [0x11] true = some c)
    (ho : objectFree (startedState c s) c.part object.toNat = some o) :
    exec (.objectRelease q object) s = .next (complete c 0 0 (dropObject c.part object.toNat o (startedState c s))) := by
  obtain ⟨hfind, hfree⟩ := Option.filter_eq_some_iff.mp ho
  simp only [Bool.and_eq_true, Bool.not_eq_true'] at hfree
  obtain ⟨⟨hsluices, hfills⟩, hstays⟩ := hfree
  refine congrArg Host.Outcome.next ((startCmd_runs hc _).trans ?_)
  dsimp only
  rw [hfind]
  dsimp only
  rw [if_neg (by simp [hsluices, hfills]), if_neg (by simp [hstays])]

/-! ### OBJECT_MOVE and OBJECT_PAGE_MOVED (R256) -/

/-- A move of an object to a tier begins: with its first page that lies elsewhere, where it has one; else it is complete. -/
def objectMoves (c : Cmd) (id tier : Nat) (o : ObjectRec) (s : State) : State :=
  match nextToMove s c.part id tier with
  | some page => startMove c.part page tier false (some (sqKey c.sq, c.id.toNat)) (markStarted c s)
  | none => complete c 0 0 (objectSet c.part id { o with tier := tier } s)

theorem exec_objectMove {q : CmdRef} {object : BitVec 16} {tier : Fin 4} {s : State} {c : Cmd} {o : ObjectRec} (hc : startedCmd s q [0x12] true = some c)
    (ho : objectMovable (startedState c s) c.part object.toNat tier = some o) : exec (.objectMove q object tier) s =
      .next (if tier.val = o.tier then complete c 0 0 (startedState c s) else objectMoves c object.toNat tier o (startedState c s)) := by
  obtain ⟨hfind, hmovable⟩ := Option.filter_eq_some_iff.mp ho
  simp only [Bool.and_eq_true, Bool.or_eq_true, Bool.not_eq_true', bne_iff_ne, beq_iff_eq] at hmovable
  obtain ⟨⟨⟨hsluices, hlocal⟩, hallowed⟩, hroom⟩ := hmovable
  refine congrArg Host.Outcome.next ((startCmd_runs hc _).trans ?_)
  dsimp only
  rw [hfind]
  dsimp only
  rw [if_neg (by simp [hsluices]), if_neg (by simp [hlocal, hallowed])]
  refine ite_congr rfl (fun _ => rfl) fun haway => ?_
  obtain ⟨hfits, hidle⟩ := hroom.resolve_left haway
  rw [if_neg (by simp [hfits]), if_neg (by simp [Option.isNone_iff_eq_none.mp hidle])]
  rfl

/-- The end of a page's copy in a state in which the page lies in its new tier: the object's next page follows, or its move is complete. -/
def pageMoved (k : Nat) (m : PageMove) (cmd : Option (Nat × Nat)) (t : State) : State :=
  match nextToMove t k m.object m.tier with
  | some page => startMove k page m.tier false cmd t
  | none => moveComplete cmd { t with tier := { t.tier with objects := match tabFind (objKey k m.object) t.tier.objects with
      | some o => tabSet (objKey k m.object) { o with tier := m.tier } t.tier.objects
      | none => t.tier.objects } }

theorem exec_objectPageMoved {part : Fin 64} {s : State} {m : PageMove} {cmd : Option (Nat × Nat)} (hm : tabFind part.val s.tier.moves = some (m, cmd))
    (hworks : s.working = true) (hheat : m.heat = false) : exec (.objectPageMoved part) s =
      .next (if copyHeld s part m.page = [] then pageMoved part m cmd (finishPage part m s) else s.each (copyHeld s part m.page) (touchPart .allocate part)) := by
  simp only [exec, execObjectPageMoved, hm]
  refine congrArg Host.Outcome.next ((if_pos ⟨hworks, by rw [hheat]; rfl⟩).trans ?_)
  cases copyHeld s part m.page with
  | nil => rfl
  | cons l ls => rfl

/-! ### LOAD_OBJECT and FILL (R255, R276) -/

/-- What a LOAD_OBJECT fills, as its long operation says it: an object, a core's or a signal core's instruction memory. -/
def loadTarget : LoadKind → Nat × Nat
  | .object i => (0, i.toNat)
  | .coreProgram n => (1, n.val)
  | .sigcProgram n => (2, n.val)

theorem exec_loadObject {q : CmdRef} {kind : LoadKind} {data : HostData} {s : State} (h : canLoadObject q kind data s = true) :
    ∃ c b, startedCmd s q [0x13] true = some c ∧ cmdData s c data (cmdLen c) = some b ∧
      exec (.loadObject q kind data) s = .next (startLong c (cmdLen c) b (dataState c (cmdLen c) b s) (loadTarget kind).1 (loadTarget kind).2) := by
  obtain ⟨c, hc, hloads⟩ := any_some h
  obtain ⟨hdata, htarget⟩ := Bool.and_eq_true_iff.mp hloads
  obtain ⟨b, hb⟩ := Option.isSome_iff_exists.mp hdata
  refine ⟨c, b, hc, hb, congrArg Host.Outcome.next ((startCmd_data hc (by decide) _).trans ?_)⟩
  cases kind with
  | object i =>
    obtain ⟨o, ho, hfits⟩ := any_some htarget
    dsimp only
    rw [ho]
    exact (if_neg (Nat.not_lt.mpr (of_decide_eq_true hfits))).trans (withData_ok hb _)
  | coreProgram n =>
    simp only [Bool.and_eq_true, decide_eq_true_eq] at htarget
    obtain ⟨⟨howned, hfits⟩, hfree⟩ := htarget
    exact (if_neg (not_or.mpr ⟨nn howned, Nat.not_lt.mpr hfits⟩)).trans ((if_neg (ns hfree)).trans (withData_ok hb _))
  | sigcProgram n =>
    simp only [Bool.and_eq_true, decide_eq_true_eq, Bool.not_eq_true'] at htarget
    obtain ⟨⟨howned, hfits⟩, hoff⟩ := htarget
    exact (if_neg (not_or.mpr ⟨nn howned, Nat.not_lt.mpr hfits⟩)).trans ((if_neg (ne_true_of_eq_false hoff)).trans (withData_ok hb _))

/-- A FILL that meets no refusal begins; one of no byte is complete at once. -/
def fillBegins (c : Cmd) (target : FillTarget) (pattern : List Byte) (s : State) : State :=
  match target with
  | .range a n => if n = 0 then complete c 0 0 s else startLong c n.toNat pattern s 0 0 a.toNat
  | .core m => startLong c (2 ^ 22) pattern s 1 m.val
  | .sigc m => startLong c (2 ^ 19) pattern s 2 m.val

theorem exec_fill {q : CmdRef} {target : FillTarget} {pattern : BitVec 64} {s : State} (h : canFill q target pattern s = true) :
    ∃ c, startedCmd s q [0x14] true = some c ∧
      exec (.fill q target pattern) s = .next (fillBegins c target (toBytes 8 pattern.toNat) (startedState c s)) := by
  obtain ⟨c, hc, hfills⟩ := any_some h
  refine ⟨c, hc, congrArg Host.Outcome.next ((startCmd_runs hc _).trans ?_)⟩
  cases target with
  | range a n =>
    simp only [Bool.and_eq_true, Bool.or_eq_true, beq_iff_eq] at hfills
    obtain ⟨⟨hstart, hlen⟩, hrange⟩ := hfills
    refine (if_neg (by simp [hstart, hlen])).trans (ite_congr rfl (fun _ => rfl) fun hsome => ?_)
    exact if_neg (by simp [hrange.resolve_left hsome])
  | core m =>
    obtain ⟨howned, hfree⟩ := Bool.and_eq_true_iff.mp hfills
    exact (if_neg (nn howned)).trans (if_neg (nb hfree))
  | sigc m =>
    obtain ⟨howned, hfree⟩ := Bool.and_eq_true_iff.mp hfills
    exact (if_neg (nn howned)).trans (if_neg (nb hfree))

/-! ### SLUICE_START and SLUICE_STOP (R266, R267) -/

theorem exec_sluiceStart {q : CmdRef} {list : BitVec 64} {s : State} (h : canSluiceStart q list s = true) :
    ∃ c e, startedCmd s q [0x15] true = some c ∧ freeEngine (startedState c s) = some e ∧ exec (.sluiceStart q list) s =
      .next (complete c 0 0 (setSluice e { part := c.part, list := list.toNat } ((startedState c s).partTouch c.part list.toNat 64))) := by
  obtain ⟨c, hc, hstarts⟩ := any_some h
  simp only [Bool.and_eq_true, bne_iff_ne, decide_eq_true_eq] at hstarts
  obtain ⟨⟨⟨hkind, hroom⟩, hengine⟩, hlist⟩ := hstarts
  obtain ⟨e, he⟩ := Option.isSome_iff_exists.mp hengine
  obtain ⟨header, hheader, hright⟩ := any_some hlist
  refine ⟨c, e, hc, he, congrArg Host.Outcome.next ((startCmd_runs hc _).trans ?_)⟩
  refine (if_neg hkind).trans ((if_neg (Nat.not_le.mpr hroom)).trans ?_)
  rw [he, hheader]
  exact if_neg (nd hright)

theorem tabFind_dropSluices (e : Nat) (s : State) : tabFind e (dropSluices (fun n _ => n == e) s).tier.sluices = none := by
  refine (tabFind_filter (fun n => !(n == e)) e s.tier.sluices).trans (if_neg ?_)
  rw [beq_self_eq_true]
  decide

/-- A list that stops abandons its fill in progress: any part of the slot may have been written. -/
def fillAbandoned (k : Nat) (r : SluiceRun) (s : State) : State :=
  match r.filling, sluiceHead s k r.list, sluiceEntry s k r.list r.entry with
  | true, some h, some (_, src, len) =>
    s.each (List.range (len / 4096)) fun i t =>
      if t.free 1 = 1 then
        match t.partBytesAll k (src + 4096 * i) 4096 with
        | some b => t.usedFree.partWrite k (fillSlot h r + 4096 * i) b
        | none => t.usedFree
      else t.usedFree
  | _, _, _ => s

theorem fillAbandoned_idle {r : SluiceRun} (h : r.filling = false) (k : Nat) (s : State) : fillAbandoned k r s = s := by
  rw [fillAbandoned, h]

theorem exec_sluiceStop {q : CmdRef} {list : BitVec 64} {s : State} {c : Cmd} {e : Nat} {r : SluiceRun} (hc : startedCmd s q [0x16] true = some c)
    (hr : (startedState c s).tier.sluices.find? (fun e => e.2.part == c.part && e.2.list == list.toNat) = some (e, r)) :
    exec (.sluiceStop q list) s = .next (complete c 0 0 (dropSluices (fun n _ => n == e) (fillAbandoned c.part r (startedState c s)))) := by
  refine congrArg Host.Outcome.next ((startCmd_runs hc _).trans ?_)
  dsimp only
  rw [hr]
  rfl

/-! ### TWIN_COPY_STALE (R539) -/

/-- A partition's object is one whose copy on the twin is stale. -/
def copyStale (k object : Nat) (s : State) : State := { s with twin := { s.twin with stale := s.twin.stale ++ [objKey k object] } }

theorem exec_twinCopyStale {k : Fin 64} {object : BitVec 16} {q : CmdRef} {s : State} (h : canTwinCopyStale k object q s = true) :
    ∃ l, longOf s q.sq q.id = some l ∧ exec (.twinCopyStale k object q) s = .next (endLong l 0 (copyStale k object.toNat s)) := by
  obtain ⟨halive, hlong⟩ := Bool.and_eq_true_iff.mp h
  obtain ⟨l, hl, hwaits⟩ := any_some hlong
  simp only [Bool.and_eq_true, beq_iff_eq, decide_eq_true_eq] at hwaits
  obtain ⟨⟨⟨⟨⟨⟨hop, hkind⟩, hunit⟩, hpart⟩, hcopy⟩, hdone⟩, hlate⟩ := hwaits
  refine ⟨l, hl, ?_⟩
  simp only [exec, execTwinCopyStale, hl]
  exact congrArg Host.Outcome.next (if_pos ⟨halive, hop, hkind, hunit, hpart, hcopy, hdone, hlate⟩)

/-! ### The statement -/

/-- Settles O41: each command by its equation, and the objects and sluices by the lemmas about the state it leads to. -/
theorem objectCommandsComplete : Obligations.ObjectCommandsComplete := by
  unfold Obligations.ObjectCommandsComplete
  refine ⟨?declare, ?release, ?move, ?pageMoved, ?load, ?fill, ?start, ?stop, ?stale⟩
  case declare =>
    intro q data s h
    obtain ⟨c, hc, hdeclares⟩ := any_some h
    obtain ⟨hlen, hrecord⟩ := Bool.and_eq_true_iff.mp hdeclares
    obtain ⟨b, hb, hdeclares⟩ := any_some hrecord
    refine ⟨_, exec_objectDeclare hc (of_decide_eq_true hlen) hb hdeclares, c, b, hc, hb, rfl, ?_⟩
    rw [declareObject_declares hdeclares]
    exact tabFind_objectDeclared ..
  case release =>
    intro q object s h
    obtain ⟨c, hc, hfree⟩ := any_some h
    obtain ⟨o, ho⟩ := Option.isSome_iff_exists.mp hfree
    exact ⟨_, exec_objectRelease hc ho, c, o, hc, ho, rfl, tabFind_dropObject ..⟩
  case move =>
    intro q object tier s h
    obtain ⟨c, hc, hmovable⟩ := any_some h
    obtain ⟨o, ho⟩ := Option.isSome_iff_exists.mp hmovable
    refine ⟨_, exec_objectMove hc ho, c, o, hc, ho, fun hsame => if_pos hsame, fun haway page hpage => ?_, fun haway hnone => ?_⟩
    · rw [if_neg haway, objectMoves, hpage]
    · rw [if_neg haway, objectMoves, hnone]
      exact ⟨_, rfl, rfl, tabFind_objectSet ..⟩
  case pageMoved =>
    intro part s h
    obtain ⟨hworks, hmove⟩ := Bool.and_eq_true_iff.mp h
    obtain ⟨⟨m, cmd⟩, hm, hheat⟩ := any_some hmove
    refine ⟨_, exec_objectPageMoved hm hworks ((Bool.not_eq_true' _).mp hheat), m, cmd, hm, fun hheld => if_neg hheld, fun hcopied => ?_⟩
    rw [if_pos hcopied]
    refine ⟨fun page hpage => ?_, fun hnone => ?_⟩
    · rw [pageMoved, hpage]
    · rw [pageMoved, hnone]
      refine ⟨_, rfl, rfl, fun o ho => ?_⟩
      dsimp only
      rw [ho]
      exact tabFind_set_same ..
  case load =>
    intro q kind data s h
    obtain ⟨c, b, hc, hb, hexec⟩ := exec_loadObject h
    refine ⟨_, hexec, c, b, hc, hb, ?_, ?_, ?_⟩
    all_goals
      rintro _ rfl
      rfl
  case fill =>
    intro q target pattern s h
    obtain ⟨c, hc, hexec⟩ := exec_fill h
    refine ⟨_, hexec, c, hc, ?_, ?_, ?_⟩
    · rintro a n rfl
      rfl
    all_goals
      rintro m rfl
      rfl
  case start =>
    intro q list s h
    obtain ⟨c, e, hc, he, hexec⟩ := exec_sluiceStart h
    exact ⟨_, hexec, c, e, _, hc, he, rfl, tabFind_set_same ..⟩
  case stop =>
    intro q list s h
    obtain ⟨c, hc, hruns⟩ := any_some h
    obtain ⟨⟨e, r⟩, hr⟩ := Option.isSome_iff_exists.mp hruns
    exact ⟨_, exec_sluiceStop hc hr, c, e, r, _, hc, hr, rfl, tabFind_dropSluices .., fun hidle => by rw [fillAbandoned_idle hidle]⟩
  case stale =>
    intro k object q s h
    obtain ⟨l, hl, hexec⟩ := exec_twinCopyStale h
    exact ⟨_, hexec, l, hl, rfl⟩

end Sys2Proof.Machine
end

section
/-! SUPPORT. Ethernet ports, the traffic manager's nodes, the policers, token records and the user plane's downlink (R297, R346, R470 to R500),
and the statement on their commands. -/

namespace Sys2Proof.Machine

/-! ### Fields written one after the other -/

/-- Of fields written for each number below n, at different bits, each keeps what it was given. -/
theorem reg_each_setReg {P : Nat → Page} {f : RegField} {v I : Nat → Nat} {n i : Nat}
    (hapart : ∀ j, j < n → j ≠ i → fieldBit (P i) f (I i) ≠ fieldBit (P j) f (I j)) (hi : i < n) (s : State) :
    (s.each (List.range n) fun j t => t.setReg (P j) f (v j) (I j)).reg (P i) f (I i) = v i % 2 ^ f.len := by
  induction n with
  | zero => exact absurd hi (Nat.not_lt_zero i)
  | succ n ih =>
    rw [State.each, List.range_succ, List.foldl_append]
    by_cases hlast : i = n
    · subst hlast
      exact State.reg_setReg_same ..
    · refine (State.reg_setReg_other _ (hapart n (Nat.lt_succ_self n) (Ne.symm hlast)) _).trans ?_
      exact ih (fun j hj => hapart j (Nat.lt_succ_of_lt hj)) (by omega)

/-! ### GROUP_MODE (R470) -/

theorem ethpPage_apart {m n : Nat} (h : m ≠ n) (f : RegField) : fieldBit (ethpPage m) f 0 ≠ fieldBit (ethpPage n) f 0 := by
  rw [fieldBit_split, fieldBit_split]
  simp only [pageBase]
  omega

/-- A write of GROUP_MODE that changes nothing, or finds no page of the group enabled, leaves GROUP_MODE as it was written. -/
theorem reg_writeGroupMode {g value : Nat} {s : State}
    (h : value % 4 = s.reg (ethpPage (8 * g)) Rg.ethpConfigGroupMode ∨
      ((List.range 8).any fun i => s.flag (ethpPage (8 * g + i)) Rg.pageControlEnable) = false) :
    (writeGroupMode g value s).reg (ethpPage (8 * g)) Rg.ethpConfigGroupMode = value % 4 := by
  unfold writeGroupMode
  dsimp only
  by_cases hsame : value % 4 = s.reg (ethpPage (8 * g)) Rg.ethpConfigGroupMode
  · rw [if_pos hsame]
    simp (disch := refine fieldBit_ne ?_; decide) only [State.reg_setReg_other]
    exact hsame.symm
  · rw [if_neg hsame, if_neg (by rw [h.resolve_left hsame]; decide)]
    refine (reg_each_setReg (P := fun i => ethpPage (8 * g + i)) (I := fun _ => 0) (i := 0) (fun j _ hj => ?_) (by decide) _).trans
      (Nat.mod_mod _ 4)
    exact ethpPage_apart (by omega) _

theorem exec_groupModeWrite {who : Requester} {g : Fin 8} {value : BitVec 32} {s : State} (h : writeTaken s who (ethpPage (8 * g.val)) 0x040 = true) :
    exec (.groupModeWrite who g value) s = .next (writeGroupMode g value.toNat s) :=
  congrArg Host.Outcome.next (writeAccess_taken h)

/-! ### The link of a port (R471) -/

/-- LINK_UP as it turns; a link that goes down counts for the score of R546. -/
def linkTurned (p : Nat) (up : Bool) (s : State) : State :=
  (s.setReg (ethpPage p) Rg.ethpPortStatusLinkUp (bit up)).when (!up) noteTraining

theorem flag_linkTurned (p : Nat) (up : Bool) (s : State) : (linkTurned p up s).flag (ethpPage p) Rg.ethpPortStatusLinkUp = up := by
  have hregs : (linkTurned p up s).regs = (s.setReg (ethpPage p) Rg.ethpPortStatusLinkUp (bit up)).regs := by cases up <;> rfl
  rw [State.flag, reg_of_regs hregs, State.reg_setReg_same]
  cases up <;> rfl

theorem exec_ethLinkChange {p : Fin 64} {up : Bool} {s : State} (h : canEthLinkChange p up s = true) :
    exec (.ethLinkChange p up) s = .next ((linkTurned p up s).raise (ethpPage p) (if up then 1 else 2)) := by
  simp only [canEthLinkChange, Bool.and_eq_true, Bool.or_eq_true, bne_iff_ne, Bool.not_eq_true'] at h
  obtain ⟨⟨halive, hturns⟩, hport⟩ := h
  refine congrArg Host.Outcome.next (if_neg ?_)
  rintro (hdead | hsame | ⟨hup, hoff⟩)
  · rw [halive] at hdead
    cases hdead
  · exact hturns hsame
  · obtain ⟨huse, hon⟩ := hport.resolve_left (by rw [hup]; decide)
    rw [huse, hon] at hoff
    cases hoff

/-! ### Timestamps of sent frames (R487) -/

theorem ethPort_setEthPort (p : Nat) (x : EthPort) (s : State) : (s.setEthPort p x).ethPort p = x := tabGet_put_same ..

theorem ethPort_of_eth {s t : State} (h : t.eth = s.eth) (p : Nat) : t.ethPort p = s.ethPort p := by
  unfold State.ethPort
  rw [h]

/-- A sent frame's timestamp is awaited no longer, and joins the entries where there is room. -/
def stampEntered (p : Nat) (a : Option (BitVec 16)) (entry : BitVec 16 × BitVec 96) (s : State) : State :=
  let x := { s.ethPort p with awaited := (s.ethPort p).awaited.erase a }
  if x.stamps.length ≥ 128 then ((s.setEthPort p x).bump (ethpPage p) Rg.ethpTxtsDroppedCount).raise (ethpPage p) 3
  else s.setEthPort p { x with stamps := x.stamps ++ [entry] }

theorem exec_txtsEntry {p : Fin 64} {tag : BitVec 16} {time : BitVec 96} {s : State} (h : canTxtsEntry p tag time s = true) :
    ∃ a, exec (.txtsEntry p tag time) s = .next (stampEntered p a (tag, txStamp s p time) s) := by
  obtain ⟨a, ha⟩ := Option.isSome_iff_exists.mp h
  refine ⟨a, ?_⟩
  simp only [exec, execTxtsEntry, ha]
  rfl

theorem stampEntered_room {p : Nat} {s : State} (h : (s.ethPort p).stamps.length < 128) (a : Option (BitVec 16)) (entry : BitVec 16 × BitVec 96) :
    ((stampEntered p a entry s).ethPort p).stamps = (s.ethPort p).stamps ++ [entry] ∧ (stampEntered p a entry s).regs = s.regs := by
  rw [stampEntered, if_neg (Nat.not_le.mpr h), ethPort_setEthPort]
  exact ⟨rfl, rfl⟩

theorem stampEntered_full {p : Nat} {s : State} (h : (s.ethPort p).stamps.length ≥ 128) (a : Option (BitVec 16)) (entry : BitVec 16 × BitVec 96) :
    ((stampEntered p a entry s).ethPort p).stamps = (s.ethPort p).stamps ∧
      ((stampEntered p a entry s).reg (ethpPage p) Rg.pageIntStatus).testBit 3 = true := by
  rw [stampEntered, if_pos h]
  refine ⟨?_, raised_bit _ _ 3 (by decide)⟩
  rw [ethPort_of_eth ((State.raise_eth ..).trans (State.bump_eth ..)), ethPort_setEthPort]

theorem popStamp_stamps (p : Nat) (s : State) : ((popStamp p s).1.ethPort p).stamps = (s.ethPort p).stamps.drop 1 := by
  unfold popStamp
  dsimp only
  cases hstamps : (s.ethPort p).stamps with
  | nil => exact hstamps
  | cons e rest => exact congrArg EthPort.stamps (ethPort_setEthPort p _ s)

theorem exec_txtsPopRead {who : Requester} {p : Fin 64} {s : State} (h : canTxtsPopRead who p s = true) :
    exec (.txtsPopRead who p) s = .next ((popStamp p s).1.emit (.readData (some (toBytes 4 (popStamp p s).2)))) := by
  simp only [canTxtsPopRead, Bool.and_eq_true, Bool.not_eq_true'] at h
  obtain ⟨⟨hpath, hsees⟩, hreset⟩ := h
  exact congrArg Host.Outcome.next ((if_neg (nn hpath)).trans ((if_neg (nn hsees)).trans (if_neg (ne_true_of_eq_false hreset))))

/-! ### Frames sent and received (R472, R473, R480) -/

/-- A frame of the controller goes to the subscriber it answers, else into the management queue of its port. -/
def handedOff (p : Nat) (f : TxFrame) (s : State) : Option (Fin 65536) → State
  | some x => queueFrame x.val 0 f s
  | none => queueManagement p f s

theorem exec_ptpFrameHandoff {p : Fin 64} {s : State} (h : (s.firmware && portInUse s p) = true) (subscriber : Option (Fin 65536)) (bytes : Nat)
    (tag : Option (BitVec 16)) (oneStep : Bool) : exec (.ptpFrameHandoff p subscriber bytes tag oneStep) s =
      .next (handedOff p { len := bytes, tag := tag, oneStep := oneStep } s subscriber) := by
  obtain ⟨hfirmware, huse⟩ := Bool.and_eq_true_iff.mp h
  refine congrArg Host.Outcome.next ((if_neg (by simp [hfirmware, huse])).trans ?_)
  cases subscriber <;> rfl

/-- An idle port sends the frame at the head of its management queue, else one that a pass over its subscribers finds. -/
def portSends (p : Nat) (s : State) : State :=
  match (s.node (nodeKey levelPort p)).queue with
  | f :: _ => departs p (nodeKey levelPort p) f (chargeNode (nodeKey levelPort p) f.len s)
  | [] => if (runPass p true (portSubs s p) s).2 then (runPass p true (portSubs s p) s).1
    else (runPass p false (portSubs s p) (runPass p true (portSubs s p) s).1).1

theorem exec_ethFrameTx {p : Fin 64} {s : State} (h : canEthFrameTx p s = true) : exec (.ethFrameTx p) s = .next (portSends p s) := by
  simp only [canEthFrameTx, Bool.and_eq_true] at h
  obtain ⟨⟨⟨⟨hon, hlink⟩, hserves⟩, heligible⟩, -⟩ := h
  exact congrArg Host.Outcome.next ((if_neg (by simp [hon, hlink, hserves, heligible])).trans rfl)

/-! ### The user plane's downlink (R297) -/

theorem uplaneDue_some {s : State} {k cell frame slot symbol : Nat} {ready : Bool} {y : Cell} {r : SlotRun}
    (h : uplaneDue s k cell frame slot symbol ready = some (y, r)) :
    tabFind cell (s.radioOf k).cells = some y ∧ slotOfCell (s.radioOf k) cell frame slot = some r ∧
      (s.working ∧ !y.standby ∧ ready = true ∧ !(s.radioOf k).discarded.contains (cell, r.index) ∧ !r.withheld.contains symbol ∧
        !r.handed.contains symbol ∧ (s.now : Int) ≥ airNs y.info r.index symbol - 1000 * (y.info.t1aMaxUp : Int)) := by
  unfold uplaneDue at h
  split at h
  · next y' r' hy hr =>
    split at h
    · next hdue =>
      cases h
      exact ⟨hy, hr, hdue⟩
    · cases h
  · cases h

/-- The frames of a symbol that is handed off go to its cell's subscriber: the C-plane of a category B cell, then the user plane. -/
def symbolSent (k : Nat) (cell : Fin 384) (slot : Nat) (symbol : Fin 14) (y : Cell) (r : SlotRun) (blocks : List EgressBlock) (s : State) : State :=
  (((symbolHanded k cell symbol y r blocks s).each
    (if y.info.categoryB then Config.cplaneFrames s.freeIx cell slot symbol else []) fun b t =>
      formFrame k y.info.subscriber 1 { len := b.length + 4, data := b } t).each
    (Config.uplaneFrames s.freeIx cell slot symbol (egressPrbs y blocks)) fun b t =>
      formFrame k y.info.subscriber 2 { len := b.length + 4, data := b, cell := some (k, cell.val) } t).usedFree

/-- The blocks of a symbol saturate as its hand-off computes them. -/
theorem egress_saturates (y : Cell) (blocks : List EgressBlock) :
    ((blocks.map fun b => (b.eaxc.val, b.prb.val, egressBlock y.info b)).any fun o => o.2.2.2.2) = blocks.any fun b => (egressBlock y.info b).2.2 :=
  List.any_map

theorem egress_prbs (y : Cell) (blocks : List EgressBlock) :
    ((blocks.map fun b => (b.eaxc.val, b.prb.val, egressBlock y.info b)).map fun o => (o.1, o.2.1, o.2.2.1, o.2.2.2.1)) = egressPrbs y blocks :=
  List.map_map

theorem exec_uplaneHandoff {k : Fin 64} {cell : Fin 384} {frame slot : Nat} {symbol : Fin 14} {ready : Bool} {blocks : List EgressBlock} {s : State}
    {y : Cell} {r : SlotRun} (h : uplaneDue s k cell frame slot symbol ready = some (y, r)) :
    exec (.uplaneHandoff k cell frame slot symbol ready blocks) s = .next (symbolSent k cell slot symbol y r blocks s) := by
  obtain ⟨hcell, hslot, hdue⟩ := uplaneDue_some h
  simp only [exec, execUplaneHandoff, hcell, hslot]
  refine congrArg Host.Outcome.next ((if_pos hdue).trans ?_)
  rw [egress_saturates, egress_prbs]
  rfl

/-! ### Token records (R344 to R346) -/

theorem exec_tokenRecordAccepted {stream : Fin 65536} {s : State} {x : StreamRun} {r : TokenRec} {rest : List TokenRec} (hworks : s.working = true)
    (hx : s.stream stream.val = some x) (hr : x.records = r :: rest) (translates : Bool) : exec (.tokenRecordAccepted stream translates) s =
      .next (if x.route = 0 then recordToCq stream.val x r translates s else recordToFrame stream.val x r s) := by
  simp only [exec, execTokenRecordAccepted, hx, hr]
  exact congrArg Host.Outcome.next (if_neg (nn hworks))

theorem recordToCq_lead {x : StreamRun} {l : Nat} (h : x.lead = some l) (n : Nat) (r : TokenRec) (translates : Bool) (s : State) :
    recordToCq n x r translates s = recordTaken n (s.emit (.memberRecord l x.target r.word r.status)) := by
  rw [recordToCq, h]

/-- A record's entry is written to a completion queue that takes one and translates. -/
def recordEntered (n target : Nat) (r : TokenRec) (y : CqState) (s : State) : State :=
  recordTaken n (writeEntry (.num (Fin.ofNat 262144 target)) y ⟨r.word, 0, 0, r.status, 0, false, true⟩ s)

theorem recordToCq_home {x : StreamRun} {s : State} (hlead : x.lead = none) (h : cqTakes s x.target = true) (n : Nat) (r : TokenRec) :
    ∃ y, s.cq (.num (Fin.ofNat 262144 x.target)) = some y ∧ recordToCq n x r false s = recordTaken n (s.error hostPage 0x0122 0 x.target) ∧
      recordToCq n x r true s = recordEntered n x.target r y s := by
  simp only [cqTakes, Bool.and_eq_true, Bool.not_eq_true'] at h
  obtain ⟨⟨hlink, hthawed⟩, hroom⟩ := h
  obtain ⟨y, hy, htakes⟩ := any_some hroom
  simp only [Bool.and_eq_true, Bool.not_eq_true'] at htakes
  obtain ⟨hfull, hwaiting⟩ := htakes
  have hopen : ¬(!s.host.linkUp || s.frozen qmgrPage || cqFull y || !y.waiting.isEmpty) = true := by simp [hlink, hthawed, hfull, hwaiting]
  refine ⟨y, hy, ?_, ?_⟩
  · rw [recordToCq, hlead, hy]
    exact (if_neg hopen).trans (if_pos rfl)
  · rw [recordToCq, hlead, hy]
    exact (if_neg hopen).trans (if_neg (by decide))

/-! ### Nodes of the traffic manager (R498, R499) -/

theorem recWord_lt (ws : List (BitVec 32)) (i : Nat) : recWord ws i < 2 ^ 32 := (ws.getD i 0).isLt

/-- A record stands in the data registers of its page: DATA[i] shows its word i. -/
theorem reg_recordShown {p : Page} {f : RegField} {n i : Nat} (hstride : 0 < f.stride) (hlen : f.len = 32) (hi : i < n) (ws : List (BitVec 32)) (s : State) :
    (s.each (List.range n) fun j t => t.setReg p f (recWord ws j) j).reg p f i = recWord ws i := by
  refine (reg_each_setReg (P := fun _ => p) (I := id) (v := recWord ws) (fun j _ hj => fieldBit_ne ?_) hi s).trans ?_
  · have hne : f.stride * i ≠ f.stride * j := fun e => hj (Nat.eq_of_mul_eq_mul_left hstride e).symm
    simp only [id]
    omega
  · rw [hlen]
    exact Nat.mod_eq_of_lt (recWord_lt ws i)

theorem recordShown_eth (p : Page) (f : RegField) (ws : List (BitVec 32)) (l : List Nat) (s : State) :
    (s.each l fun j t => t.setReg p f (recWord ws j) j).eth = s.eth :=
  each_keep State.eth (f := fun j t => t.setReg p f (recWord ws j) j) (fun _ _ => rfl) l s

/-- NODE_DATA shows a node's record, and RESULT is 0. -/
def nodeShown (key : Nat) (s : State) : State :=
  nodeResult 0 (s.each (List.range 16) fun i t => t.setReg shapPage Rg.shapNodeDataData (recWord (s.node key).words i) i)

theorem exec_nodeRead {who : Requester} {s : State} (h : canNodeRead who s = true) : exec (.nodeRead who) s =
    .next (nodeShown (nodeKey (s.reg shapPage Rg.shapNodeSelectLevel) (s.reg shapPage Rg.shapNodeSelectIndex)) s) := by
  obtain ⟨htaken, hindex⟩ := Bool.and_eq_true_iff.mp h
  exact congrArg Host.Outcome.next ((writeAccess_taken htaken).trans (if_neg (Nat.not_le.mpr (of_decide_eq_true hindex))))

theorem reg_nodeResult (v : Nat) (s : State) : (nodeResult v s).reg shapPage Rg.shapNodeCommandResult = v % 2 ^ 16 := State.reg_setReg_same ..

theorem reg_nodeShown {i : Nat} (hi : i < 16) (key : Nat) (s : State) :
    (nodeShown key s).reg shapPage Rg.shapNodeDataData i = recWord (s.node key).words i := by
  have hresult : fieldBit shapPage Rg.shapNodeDataData i ≠ fieldBit shapPage Rg.shapNodeCommandResult 0 := by
    refine fieldBit_ne ?_
    simp only [Rg.shapNodeDataData, Rg.shapNodeCommandResult]
    omega
  rw [nodeShown, nodeResult, State.reg_setReg_other _ hresult]
  exact reg_recordShown (by decide) rfl hi ..

theorem nodeShown_eth (key : Nat) (s : State) : (nodeShown key s).eth = s.eth := by
  rw [nodeShown, nodeResult, State.setReg_eth, recordShown_eth]

theorem node_writeNode (level index : Nat) (ws : List (BitVec 32)) (s : State) :
    ((writeNode level index ws s).node (nodeKey level index)).words = ws := by
  unfold writeNode
  dsimp only
  split
  all_goals
    refine (congrArg Node.words (tabGet_put_same ..)).trans ?_
    rfl

theorem writeNode_mem (level index : Nat) (ws : List (BitVec 32)) (s : State) : (writeNode level index ws s).mem = s.mem :=
  (writeNode_only ..).mem rfl

theorem exec_nodeWrite {who : Requester} {s : State} (h : canNodeWrite who s = true) : exec (.nodeWrite who) s =
    .next (nodeResult 0 (writeNode (s.reg shapPage Rg.shapNodeSelectLevel) (s.reg shapPage Rg.shapNodeSelectIndex)
      (cleanRecord (s.reg shapPage Rg.shapNodeSelectLevel) (nodeData s)) s)) := by
  simp only [canNodeWrite, Bool.and_eq_true, Bool.not_eq_true', decide_eq_true_eq] at h
  obtain ⟨⟨htaken, hindex⟩, htakes⟩ := h
  refine congrArg Host.Outcome.next ((writeAccess_taken htaken).trans (if_neg ?_))
  rintro (hout | ⟨hlevel, hrefused⟩)
  · exact absurd hindex (Nat.not_lt.mpr hout)
  · rw [hlevel, beq_self_eq_true, Bool.true_and, ← hlevel, hrefused] at htakes
    cases htakes

/-! ### Policers (R482, R483, R500) -/

/-- DATA shows a policer's record, and RESULT is 0. -/
def policerShown (n : Nat) (s : State) : State :=
  policerResult 0 (s.each (List.range 5) fun i t => t.setReg polcPage Rg.polcData (recWord (s.policer n).words i) i)

theorem exec_policerRead {who : Requester} {s : State} (h : writeTaken s who polcPage 0x044 = true) :
    exec (.policerRead who) s = .next (policerShown (s.reg polcPage Rg.polcSelectPolicer) s) :=
  congrArg Host.Outcome.next (writeAccess_taken h)

theorem reg_policerResult (v : Nat) (s : State) : (policerResult v s).reg polcPage Rg.polcCommandResult = v % 2 ^ 16 := State.reg_setReg_same ..

theorem reg_policerShown {i : Nat} (hi : i < 5) (n : Nat) (s : State) : (policerShown n s).reg polcPage Rg.polcData i = recWord (s.policer n).words i := by
  have hresult : fieldBit polcPage Rg.polcData i ≠ fieldBit polcPage Rg.polcCommandResult 0 := by
    refine fieldBit_ne ?_
    simp only [Rg.polcData, Rg.polcCommandResult]
    omega
  rw [policerShown, policerResult, State.reg_setReg_other _ hresult]
  exact reg_recordShown (by decide) rfl hi ..

theorem policerShown_eth (n : Nat) (s : State) : (policerShown n s).eth = s.eth := by
  rw [policerShown, policerResult, State.setReg_eth, recordShown_eth]

/-- The record that DATA holds for a policer, its reserved bits 0. -/
def policerData (s : State) : List (BitVec 32) :=
  (List.range 5).map fun i => BitVec.ofNat 32 (s.reg polcPage Rg.polcData i) &&&
    ([0x07FFFFFF, 0x07FFFFFF, 0x00FFFFFF, 0x00FFFFFF, 0x0000037F] : List (BitVec 32)).getD i 0

/-- A word under the mask of a rate is the rate in its low 27 bits. -/
theorem masked_rate (n : Nat) : (BitVec.ofNat 32 n &&& 0x07FFFFFF#32).toNat / 2 ^ 0 % 2 ^ 27 = n % 2 ^ 27 := by
  rw [BitVec.toNat_and, BitVec.toNat_ofNat, show (0x07FFFFFF#32).toNat = 2 ^ 27 - 1 from rfl, Nat.and_two_pow_sub_one_eq_mod]
  omega

theorem policerData_rates (s : State) : recBits (policerData s) 0 0 27 = s.reg polcPage Rg.polcData 0 % 2 ^ 27 ∧
    recBits (policerData s) 1 0 27 = s.reg polcPage Rg.polcData 1 % 2 ^ 27 := ⟨masked_rate _, masked_rate _⟩

/-- A policer's record is written, its buckets full. -/
def policerSet (n : Nat) (ws : List (BitVec 32)) (s : State) : State :=
  s.setPolicer n { s.policer n with words := ws, tc := (recCbs ws * 1000000 : Nat), tp := (recPbs ws * 1000000 : Nat), at_ := s.now }

theorem policer_policerSet (n : Nat) (ws : List (BitVec 32)) (s : State) : ((policerSet n ws s).policer n).words = ws :=
  congrArg Policer.words (tabGet_put_same ..)

theorem exec_policerWrite {who : Requester} {s : State} (h : canPolicerWrite who s = true) :
    exec (.policerWrite who) s = .next (policerResult 0 (policerSet (s.reg polcPage Rg.polcSelectPolicer) (policerData s) s)) := by
  simp only [canPolicerWrite, Bool.and_eq_true, decide_eq_true_eq] at h
  obtain ⟨htaken, hrates⟩ := h
  refine congrArg Host.Outcome.next ((writeAccess_taken htaken).trans (if_neg (Nat.not_lt.mpr ?_)))
  obtain ⟨hcir, hpir⟩ := policerData_rates s
  exact hcir.trans_le (hrates.trans_eq hpir.symm)

/-! ### The statement -/

/-- Settles O24: each command by its equation, and the ports, nodes and policers by the lemmas about the state it leads to. -/
theorem ethernetCommandsComplete : Obligations.EthernetCommandsComplete := by
  unfold Obligations.EthernetCommandsComplete
  refine ⟨?groupMode, ?linkChange, ?txtsEntry, ?txtsPop, ?handoff, ?frameTx, ?frameRx, ?uplane, ?token, ?nodeRead, ?nodeWrite, ?policerRead,
    ?policerWrite⟩
  case groupMode =>
    intro who g value s h
    obtain ⟨htaken, hfree⟩ := Bool.and_eq_true_iff.mp h
    refine ⟨_, exec_groupModeWrite htaken, rfl, reg_writeGroupMode ?_⟩
    simpa only [Bool.or_eq_true, beq_iff_eq, Bool.not_eq_true'] using hfree
  case linkChange =>
    intro p up s h
    refine ⟨_, exec_ethLinkChange h, ?_, raised_bit _ _ _ (by split <;> decide), ?_, ?_⟩
    · rw [State.flag, State.reg_raise_off _ (offHeader_same (by decide))]
      exact flag_linkTurned p up s
    · exact (State.raise_mem ..).trans (by cases up <;> rfl)
    · exact (State.raise_eth ..).trans (by cases up <;> rfl)
  case txtsEntry =>
    intro p tag time s h
    obtain ⟨a, hexec⟩ := exec_txtsEntry h
    exact ⟨_, hexec, fun hroom => stampEntered_room hroom .., fun hfull => stampEntered_full hfull ..⟩
  case txtsPop => exact fun who p s h => ⟨_, exec_txtsPopRead h, rfl, popStamp_stamps p s⟩
  case handoff =>
    intro p subscriber bytes tag oneStep s h
    refine ⟨_, exec_ptpFrameHandoff h .., ?_⟩
    cases subscriber <;> rfl
  case frameTx =>
    intro p s h
    refine ⟨_, exec_ethFrameTx h, fun f rest hqueue => ?_, fun hqueue hcommitted => ?_, fun hqueue hexcess => ?_⟩
    · rw [portSends, hqueue]
    · rw [portSends, hqueue]
      exact if_pos hcommitted
    · rw [portSends, hqueue]
      exact if_neg (ne_true_of_eq_false hexcess)
  case frameRx => exact fun p frame s h => ⟨_, congrArg Host.Outcome.next (if_pos h), rfl⟩
  case uplane =>
    intro k cell frame slot symbol ready blocks s h
    obtain ⟨⟨y, r⟩, hdue⟩ := Option.isSome_iff_exists.mp h
    exact ⟨_, exec_uplaneHandoff hdue, y, r, hdue, rfl⟩
  case token =>
    intro stream translates s h
    obtain ⟨hworks, hstream⟩ := Bool.and_eq_true_iff.mp h
    obtain ⟨x, hx, htakes⟩ := any_some hstream
    cases hr : x.records with
    | nil =>
      rw [hr] at htakes
      cases htakes
    | cons r rest =>
      rw [hr] at htakes
      refine ⟨_, exec_tokenRecordAccepted hworks hx hr translates, x, r, rest, hx, hr, fun hroute l hlead => ?_, fun hroute hlead => ?_,
        fun hroute => if_neg hroute⟩
      · rw [if_pos hroute, recordToCq_lead hlead]
      · dsimp only at htakes
        rw [if_pos hroute, hlead, Option.isSome_none, Bool.false_or] at htakes
        obtain ⟨y, hy, hdropped, hentered⟩ := recordToCq_home hlead htakes stream.val r
        rw [if_pos hroute]
        refine ⟨?_, ?_⟩
        · rintro rfl
          exact hdropped
        · rintro rfl
          exact ⟨y, hy, hentered⟩
  case nodeRead =>
    intro who s h
    exact ⟨_, exec_nodeRead h, reg_nodeResult .., fun i hi => reg_nodeShown hi .., nodeShown_eth ..⟩
  case nodeWrite =>
    intro who s h
    exact ⟨_, exec_nodeWrite h, reg_nodeResult .., node_writeNode .., writeNode_mem ..⟩
  case policerRead =>
    intro who s h
    exact ⟨_, exec_policerRead h, reg_policerResult .., fun i hi => reg_policerShown hi .., policerShown_eth ..⟩
  case policerWrite =>
    intro who s h
    obtain ⟨hcir, hpir⟩ := policerData_rates s
    refine ⟨_, exec_policerWrite h, reg_policerResult .., ?_, ?_, rfl⟩
    · exact (congrArg (recBits · 0 0 27) (policer_policerSet ..)).trans hcir
    · exact (congrArg (recBits · 1 0 27) (policer_policerSet ..)).trans hpir

end Sys2Proof.Machine
end

section
/-! SUPPORT. Strict mode, boundaries of recordings, long operations, ZEROIZE and TDISP (R405, R413, R504, R516, R524, R552, R577 to R580), and the
statement on them. -/

namespace Sys2Proof.Machine

/-! ### Strict mode and boundaries (R504, R516) -/

theorem exec_strictWrite {who : Requester} {s : State} (h : writeTaken s who globPage 0x040 = true) (value : BitVec 32) :
    exec (.strictWrite who value) s = .next (writeMode value.toNat s) :=
  congrArg Host.Outcome.next (writeAccess_taken h)

/-- STRICT stands as it was written; memories and recordings are not touched. -/
theorem writeMode_shows (value : Nat) (s : State) : (writeMode value s).reg globPage Rg.globModeStrict = value % 2 ∧
    (writeMode value s).mem = s.mem ∧ (writeMode value s).records = s.records := by
  refine ⟨?_, (writeMode_only ..).mem rfl, (writeMode_only ..).records rfl⟩
  have hregs : (writeMode value s).regs = (s.setReg globPage Rg.globModeStrict (value % 2)).regs := by
    unfold writeMode
    dsimp only
    split <;> rfl
  rw [reg_of_regs hregs, State.reg_setReg_same]
  exact Nat.mod_mod ..

theorem exec_recordBoundary {k : Fin 64} {inputsFirst loadDataOk : Bool} {s : State} (h : canRecordBoundary k inputsFirst loadDataOk s = true) :
    exec (.recordBoundary k inputsFirst loadDataOk) s =
      .next (if (recordOf s k).mode = 1 then recordingBoundary k inputsFirst s else replayBoundary k loadDataOk s) := by
  simp only [canRecordBoundary, Bool.and_eq_true, bne_iff_ne] at h
  obtain ⟨⟨⟨hworks, hon⟩, hmode⟩, hboundary⟩ := h
  exact congrArg Host.Outcome.next (if_neg (by simp [hworks, hon, hmode, hboundary]))

/-! ### Long operations (R405, R524, R552) -/

theorem exec_longOpChunk {part : Fin 64} {sq : Nat} {cmd : BitVec 16} {s : State} {l : LongOp} (hl : runningLong s part sq cmd = some l)
    (hworks : s.working = true) (bytes : Nat) : exec (.longOpChunk part sq cmd bytes) s = .next (longChunk l bytes s) := by
  simp only [exec, execLongOpChunk, hl]
  exact congrArg Host.Outcome.next (if_pos hworks)

/-- The rake of a RAKE command that meets no refusal begins. -/
def rakeBegins (c : Cmd) (s : State) : State :=
  startLong c (rakeTotal c) [] s (rakeTarget c) (rakeUnit c) (if rakeTarget c < 2 then rakeStart c else 0)

theorem exec_rake {q : CmdRef} {s : State} (h : canRake q s = true) :
    ∃ c, startedCmd s q [0x42] false = some c ∧ exec (.rake q) s = .next (rakeBegins c (startedState c s)) := by
  obtain ⟨c, hc, hbegins⟩ := any_some h
  refine ⟨c, hc, congrArg Host.Outcome.next ((startCmd_runs hc _).trans ?_)⟩
  simp only [Bool.and_eq_true, Bool.not_eq_true', Bool.and_eq_false_imp, beq_iff_eq, decide_eq_false_iff_not] at hbegins
  obtain ⟨⟨⟨⟨⟨hlocked, hzero⟩, hreserved⟩, hmapped⟩, hhbm⟩, hbusy⟩ := hbegins
  have hunlocked : ¬(rakeTarget c = 0 ∧ (c.sq == .admin && tdiLocked (startedState c s) (functionOf (startedState c s) c.part)) = true) := by
    rintro ⟨htarget, hheld⟩
    obtain ⟨hsq, htdi⟩ := Bool.and_eq_true_iff.mp hheld
    exact ne_true_of_eq_false (hlocked htarget (beq_iff_eq.mp hsq)) htdi
  dsimp only
  rw [if_neg hunlocked, if_neg fun h => ne_true_of_eq_false (hzero h.1) h.2, if_neg (ne_true_of_eq_false hreserved),
    if_neg fun h => ne_true_of_eq_false (hmapped h.1) h.2, if_neg fun h => hhbm h.1 h.2, if_neg (ne_true_of_eq_false hbusy)]
  rfl

theorem exec_selftestAdmit {q : CmdRef} {env : SelftestEnv} {s : State} (h : canSelftestAdmit q env s = true) :
    ∃ c, startedCmd s q [0x41] false = some c ∧ exec (.selftestAdmit q env) s = .next (startLong c env.total
      (env.failedArrays.flatMap fun e => [BitVec.ofNat 8 e.1, BitVec.ofNat 8 e.2]) (startedState c s) 0 0 (env.failedArrays.length + env.failedOthers)) := by
  obtain ⟨c, hc, hadmits⟩ := any_some h
  refine ⟨c, hc, congrArg Host.Outcome.next ((startCmd_runs hc _).trans ?_)⟩
  simp only [Bool.and_eq_true, beq_iff_eq, Bool.not_eq_true'] at hadmits
  obtain ⟨⟨hclass, hclean⟩, hparts⟩ := hadmits
  dsimp only
  rw [if_neg (by simp [hclass]), if_neg (by simp [hclass, hclean]), if_neg (by simp [hparts])]

/-- The signed record of a soak, as the self-test answers it. -/
def soakAnswer (record : SoakRecord) (s : State) : List Byte :=
  let r := { record with serial := s.fuses.serial, steppingB0 := true, signature := 0 }
  Config.soakBytes { r with signature := Config.idkSign s.fuses.uds 1 (Config.soakBytes r) }

theorem exec_selftestSoak {q : CmdRef} {seconds : Nat} {record : SoakRecord} {s : State} (h : canSelftestSoak q seconds record s = true) :
    ∃ c, startedCmd s q [0x41] false = some c ∧ exec (.selftestSoak q seconds record) s =
      .next (startLong c 1 (soakAnswer record (startedState c s)) (startedState c s) 1 (if seconds = 0 then 300 else seconds)) := by
  obtain ⟨c, hc, hsoaks⟩ := any_some h
  refine ⟨c, hc, congrArg Host.Outcome.next ((startCmd_runs hc _).trans ?_)⟩
  simp only [Bool.and_eq_true, Bool.or_eq_true, beq_iff_eq, decide_eq_true_eq, Bool.not_eq_true'] at hsoaks
  obtain ⟨⟨hclass, hseconds⟩, hcores⟩ := hsoaks
  dsimp only
  rw [if_neg (by simp [hclass]), if_neg (by split <;> omega), if_neg (by simp [hcores])]
  rfl

/-! ### ZEROIZE (R577 to R579) -/

theorem reg_showZeroize_pending (s : State) :
    (showZeroize s).reg mgmtPage Rg.mgmtZeroizeStatusPending = s.reg mgmtPage Rg.mgmtZeroizeStatusPending := by
  unfold showZeroize
  dsimp only
  split
  all_goals simp (disch := refine fieldBit_ne ?_; decide) only [State.reg_setReg_other]

theorem reg_startZeroize_pending (c : Cmd) (s : State) : (startZeroize c s).reg mgmtPage Rg.mgmtZeroizeStatusPending = 1 :=
  (reg_showZeroize_pending _).trans (State.reg_setReg_same ..)

/-- A ZEROIZE of the scope that its command says starts where nothing refuses it. -/
theorem zeroizeCmd_starts {q : CmdRef} {s : State} {c : Cmd} {scope : Bool} (hc : startedCmd s q [0x43] true = some c) (hscope : zeroScope c = scope)
    (hlen : cmdLen c = 0) (hclean : paramsClean c [(0x18, 0, 1)] = true) (hfree : (zeroParts c).any (zeroizing (startedState c s)) = false) :
    zeroizeCmd q scope s = startZeroize c (startedState c s) := by
  refine (startCmd_runs hc _).trans ((if_neg (not_not_intro hscope)).trans ((if_neg ?_).trans (if_neg (ne_true_of_eq_false hfree))))
  rintro (hdata | hparams)
  · exact hdata hlen
  · exact nn hclean hparams

/-! ### TDISP (R413, R580) -/

/-- What a TDISP message does to a TDI in a state. -/
def tdispDone (f : Nat) (s : State) : TdispMsg → Tdi → State
  | .lock, .unlocked => (setTdi f .locked s).emit (.security f true)
  | .start, .locked => (setTdi f .run s).emit (.security f true)
  | .stop, .unlocked | .stop, .error => (setTdi f .unlocked s).emit (.security f true)
  | .stop, .locked | .stop, .run => leaveLocked f false s
  | .error, .locked | .error, .run => leaveLocked f true s
  | .error, _ => s
  | _, _ => s.emit (.security f false)

theorem exec_tdispRequest {fn : Fin 256} {msg : TdispMsg} {s : State} (h : canTdispRequest fn msg s = true) :
    exec (.tdispRequest fn msg) s = .next (tdispDone fn s msg ((tabFind fn.val s.host.tdis).getD .unlocked)) := by
  simp only [canTdispRequest, Bool.and_eq_true, bne_iff_ne, Bool.not_eq_true'] at h
  obtain ⟨⟨hfirmware, hvirtual⟩, hclear⟩ := h
  have hfn : (fn.val == 0) = false := beq_false_of_ne fun e => hvirtual (Fin.ext e)
  refine congrArg Host.Outcome.next ((if_neg (by rw [hfirmware, hfn, hclear]; decide)).trans ?_)
  generalize (tabFind fn.val s.host.tdis).getD .unlocked = st
  cases msg <;> cases st <;> rfl

theorem tabFind_setTdi (f : Nat) (x : Tdi) (s : State) (e : Emission) : tabFind f ((setTdi f x s).emit e).host.tdis = some x := tabFind_set_same ..

/-! ### The statement -/

/-- Settles O37: each command by its equation, STRICT and PENDING by the registers that are written, TDISP by the state its TDI is in. -/
theorem longAndGlobalOperationsComplete : Obligations.LongAndGlobalOperationsComplete := by
  unfold Obligations.LongAndGlobalOperationsComplete
  refine ⟨?strict, ?boundary, ?chunk, ?rake, ?selftest, ?soak, ?zeroPartition, ?zeroDevice, ?tdisp⟩
  case strict => exact fun who value s h => ⟨_, exec_strictWrite h value, writeMode_shows ..⟩
  case boundary => exact fun k inputsFirst loadDataOk s h => ⟨_, exec_recordBoundary h, fun hrecords => if_pos hrecords, fun hreplays => if_neg hreplays⟩
  case chunk =>
    intro part sq cmd bytes s h
    obtain ⟨hworks, hruns⟩ := Bool.and_eq_true_iff.mp h
    obtain ⟨l, hl, -⟩ := any_some hruns
    exact ⟨_, exec_longOpChunk hl hworks bytes, l, hl, rfl⟩
  case rake =>
    intro q s h
    obtain ⟨c, hc, hexec⟩ := exec_rake h
    exact ⟨_, hexec, c, hc, rfl⟩
  case selftest =>
    intro q env s h
    obtain ⟨c, hc, hexec⟩ := exec_selftestAdmit h
    exact ⟨_, hexec, c, hc, rfl⟩
  case soak =>
    intro q seconds record s h
    obtain ⟨c, hc, hexec⟩ := exec_selftestSoak h
    exact ⟨_, hexec, c, _, hc, rfl⟩
  case zeroPartition =>
    intro q s h
    obtain ⟨c, hc, hstarts⟩ := any_some h
    simp only [Bool.and_eq_true, Bool.not_eq_true', beq_iff_eq] at hstarts
    obtain ⟨⟨⟨hscope, hlen⟩, hclean⟩, hfree⟩ := hstarts
    exact ⟨_, congrArg Host.Outcome.next (zeroizeCmd_starts hc hscope hlen hclean hfree), c, hc, rfl, reg_startZeroize_pending ..⟩
  case zeroDevice =>
    intro q s h
    obtain ⟨c, hc, hstarts⟩ := any_some h
    simp only [Bool.and_eq_true, Bool.not_eq_true', beq_iff_eq] at hstarts
    obtain ⟨⟨⟨hscope, hlen⟩, hclean⟩, hfree⟩ := hstarts
    exact ⟨_, congrArg Host.Outcome.next (zeroizeCmd_starts hc hscope hlen hclean hfree), c, hc, rfl, reg_startZeroize_pending ..⟩
  case tdisp =>
    intro fn msg s h
    refine ⟨_, exec_tdispRequest h, ?_, ?_, ?_, ?_⟩
    · rintro rfl hstate
      rw [hstate]
      exact tabFind_setTdi ..
    · rintro rfl hstate
      rw [hstate]
      exact tabFind_setTdi ..
    · rintro rfl hstate
      rw [hstate]
      rfl
    · rintro rfl hstate
      rw [hstate]
      rfl

end Sys2Proof.Machine
end

section
/-! SUPPORT. Registers from 0x200 up in their pages: no write of a memory, and no entry of a recording but its own, changes them (R513, R522). -/

namespace Sys2Proof.Machine

/-- An element of a field stands from 0x200 up in its page, beyond every register that an access of a memory changes. -/
def farField (g : RegField) (j : Nat) : Prop := 4096 ≤ (g.off + g.stride * j) * 8 + g.lo ∧ (g.off + g.stride * j) * 8 + g.lo < 32768

section
variable {q : Page} {g : RegField} {j : Nat} (hg : farField g j)
include hg

theorem fieldBit_ne_far {f : RegField} {i : Nat} (hf : (f.off + f.stride * i) * 8 + f.lo < 4096) (p : Page) : fieldBit q g j ≠ fieldBit p f i := by
  obtain ⟨hlow, hhigh⟩ := hg
  exact fieldBit_ne_position hhigh (by omega) (by omega)

theorem reg_countErrors_far (p : Page) (n : Nat) (s : State) : (s.countErrors p n).reg q g j = s.reg q g j :=
  reg_countErrors_other (fieldBit_ne_far hg (by decide) p) (fieldBit_ne_far hg (by decide) p) n

theorem reg_error_far (p : Page) (code unit detail : Nat) (s : State) : (s.error p code unit detail).reg q g j = s.reg q g j := by
  obtain ⟨hlow, hhigh⟩ := hg
  have hp := pageBase_mod p
  have hq := pageBase_mod q
  refine reg_error_outside ?_ ..
  rw [fieldBit_split]
  omega

theorem reg_raise_far (p : Page) (b : Nat) (s : State) : (s.raise p b).reg q g j = s.reg q g j :=
  s.reg_raise_other (fieldBit_ne_far hg (by decide) p) b

theorem reg_detectBad_far (r : Region) (w : Nat) (s : State) : (detectBad r w s).reg q g j = s.reg q g j := by
  cases r
  case bulk =>
    refine (reg_raise_far hg _ 2 _).trans ?_
    exact (State.reg_setReg_other _ (fieldBit_ne_far hg (by decide) _) _).trans (reg_error_far hg ..)
  all_goals exact reg_countErrors_far hg ..

theorem reg_readWords_far (r : Region) (ws : List Nat) (s : State) : (s.readWords r ws).reg q g j = s.reg q g j := by
  unfold State.readWords
  dsimp only
  rw [each_reg _ (reg_detectBad_far hg r)]
  unfold State.reg
  dsimp only
  rw [fieldGet_set_other (fieldBit_ne_far hg (by decide) _), fieldGet_set_other (fieldBit_ne_far hg (by decide) _)]

theorem reg_flipFired_far (addr : Nat) (s : State) : (flipFired addr s).reg q g j = s.reg q g j := by
  unfold flipFired
  rw [reg_raise_far hg, State.reg_setReg_other _ (fieldBit_ne_far hg (by decide) _), State.reg_setReg_other _ (fieldBit_ne_far hg (by decide) _),
    State.reg_setReg_other _ (fieldBit_ne_far hg (by decide) _)]

theorem reg_store_far (r : Region) (a : Nat) (bytes : List Byte) (s : State) : (s.store r a bytes).reg q g j = s.reg q g j := by
  unfold State.store
  dsimp only
  split
  · exact reg_readWords_far hg ..
  · exact (reg_flipFired_far hg ..).trans (reg_readWords_far hg r _ s)

theorem reg_storeHome_far (k a : Nat) (r : Region) (key : Nat) (bytes : List Byte) (s : State) : (s.storeHome k a r key bytes).reg q g j = s.reg q g j := by
  refine ite_prop (fun u : State => u.reg q g j = s.reg q g j) (fun _ => ?_) (fun _ => frames (lineWait_only ..) rfl ..)
  exact (reg_store_far hg ..).trans (frames (noteWrite_only ..) rfl ..)

theorem reg_writePart_far (k a : Nat) (bytes : List Byte) (s : State) : (writePart k a bytes s).reg q g j = s.reg q g j := by
  unfold writePart
  split
  · rfl
  · next e _ =>
    have hnoted : (logMirror k a bytes (s.when (!placeCached s (placeOf s e a)) (warm k a))).reg q g j = s.reg q g j := by
      refine (frames (logMirror_only ..) rfl ..).trans ?_
      cases !placeCached s (placeOf s e a)
      · rfl
      · exact frames (warm_only ..) rfl ..
    dsimp only
    split
    · exact (reg_storeHome_far hg ..).trans hnoted
    · exact (reg_countErrors_far hg ..).trans hnoted
    · exact hnoted
    · split
      · exact (frames (copyWrite_only ..) rfl ..).trans hnoted
      · exact hnoted

theorem reg_partStore_far (k a : Nat) (bytes : List Byte) (s : State) : (s.partStore k a bytes).reg q g j = s.reg q g j :=
  each_reg _ (fun _ _ => reg_writePart_far hg ..) _ s

/-- An entry of a recording changes no register beyond 0x200 but RECORD_STATUS and RECORD_HEAD of its partition. -/
theorem reg_putEntry_far {k : Nat} (hstatus : fieldBit q g j ≠ fieldBit (partPage k) Rg.partRecordStatusState 0)
    (hhead : fieldBit q g j ≠ fieldBit (partPage k) Rg.partRecordHeadBytes 0) (kind boundary : Nat) (time : BitVec 96) (payload : List Byte) (s : State) :
    (putEntry k kind boundary time payload s).reg q g j = s.reg q g j := by
  unfold putEntry
  dsimp only
  split
  · rfl
  · split
    · exact (reg_raise_far hg ..).trans (State.reg_setReg_other _ hstatus _)
    · exact (State.reg_setReg_other _ hhead _).trans (reg_partStore_far hg ..)

theorem reg_startedState_far {c : Cmd} (hstatus : fieldBit q g j ≠ fieldBit (partPage c.part) Rg.partRecordStatusState 0)
    (hhead : fieldBit q g j ≠ fieldBit (partPage c.part) Rg.partRecordHeadBytes 0) (s : State) : (startedState c s).reg q g j = s.reg q g j := by
  refine ite_prop (fun u : State => u.reg q g j = s.reg q g j) (fun _ => rfl) (fun _ => ?_)
  unfold recordCmd
  split
  · rfl
  · exact reg_putEntry_far hg hstatus hhead ..

end

theorem startedState_only (c : Cmd) (s : State) : Only 73417738 s (startedState c s) :=
  ite_prop (fun u : State => Only 73417738 s u) (fun _ => .refl ..) (fun _ => recordCmd_only ..)

theorem dataState_only (c : Cmd) (n : Nat) (b : List Byte) (s : State) : Only 73942030 s (dataState c n b s) :=
  .step (recordCmd_only ..) (by decide) (.step (touchData_only ..) (by decide) (.refl ..))

end Sys2Proof.Machine
end

section
/-! SUPPORT. Cells, their slots and slot commands, calibration and surge claims (R285 to R310), and the statement on the radio commands. -/

namespace Sys2Proof.Machine

/-! ### A radio partition's state -/

theorem radioOf_setRadio (k : Nat) (x : RadioPart) (s : State) : (s.setRadio k x).radioOf k = x := tabGet_put_same ..

theorem Only.radioOf_same {m : Nat} {s t : State} (h : Only m s t) (hm : m.testBit 17 = false) (k : Nat) : t.radioOf k = s.radioOf k := by
  unfold State.radioOf
  rw [h.radio hm]

theorem Only.now_same {m : Nat} {s t : State} (h : Only m s t) (hm : m.testBit 8 = false) : t.now = s.now := by
  unfold State.now State.subNs
  rw [h.time hm]

theorem radioOf_startedState (c : Cmd) (s : State) (k : Nat) : (startedState c s).radioOf k = s.radioOf k := (startedState_only c s).radioOf_same rfl k

/-! ### CELL_START and CELL_STOP (R285, R286) -/

/-- The state in which a cell has started: the tables of its eAxCs have been read, and it runs from the slot that the time stands in. -/
def cellBegun (k : Nat) (b : List Byte) (r : CellRec) (s : State) : State :=
  ((s.partTouch k (leAt b 0x38 8) (8 * r.eaxcCount)).partTouch k (leAt b 0x20 8) r.eaxcCount).setRadio k { s.radioOf k with
    cells := tabSet r.cell { info := r, slot := slotAt r s.now, standby := standsBy s k } (s.radioOf k).cells }

theorem cell_cellBegun (k : Nat) (b : List Byte) (r : CellRec) (s : State) : tabFind r.cell ((cellBegun k b r s).radioOf k).cells =
    some { info := r, slot := slotAt r s.now, standby := standsBy s k } := by
  rw [cellBegun, radioOf_setRadio]
  exact tabFind_set_same ..

/-- A record from which a cell starts: its fields are right, its cell does not run, and its tables can be read. -/
theorem cellStarts_some {u : State} {k : Nat} {b : List Byte} {r : CellRec} (h : cellStarts u k b = some r) :
    ¬(cellReserved b ∨ cellRangeBad (cellFields b) ∨ !harqOk u k (cellFields b).harqObject) ∧
    (tabFind (cellFields b).cell (u.radioOf k).cells).isSome = false ∧
    ∃ m e t, u.partBytesAll k (leAt b 0x38 8) (8 * (cellFields b).eaxcCount) = some m ∧
      u.partBytesAll k (leAt b 0x20 8) (cellFields b).eaxcCount = some e ∧ ingressMap u k m (cellFields b).eaxcCount = some t ∧
      ¬(!ringsAgree u t ∨ (e.map fun x => x.toInt).any fun x => decide (x < -64) || decide (x > 64)) ∧
      r = { cellFields b with eref := e.map fun x => x.toInt, ingress := t } := by
  unfold cellStarts at h
  dsimp only at h
  split at h
  · cases h
  · next hright =>
    simp only [Bool.or_eq_true, not_or, Bool.not_eq_true] at hright
    obtain ⟨⟨⟨hreserved, hrange⟩, hharq⟩, hidle⟩ := hright
    split at h
    · next m e hm he =>
      obtain ⟨t, ht, hagrees⟩ := Option.bind_eq_some_iff.mp h
      split at hagrees
      · next hok =>
        cases hagrees
        obtain ⟨hrings, heref⟩ := Bool.and_eq_true_iff.mp hok
        refine ⟨by simp [hreserved, hrange, hharq], hidle, m, e, t, hm, he, ht, ?_, rfl⟩
        rw [List.any_map]
        rintro (hapart | hbeyond)
        · exact nn hrings hapart
        · exact nb heref hbeyond
      · cases hagrees
    · cases h

theorem exec_cellStart {q : CmdRef} {s : State} {c : Cmd} {b : List Byte} {r : CellRec} (hc : startedCmd s q [0x30] true = some c)
    (hlocal : cmdLocal c = true) (hlen : cmdLen c = 256) (hradio : isRadio (startedState c s) c.part = true)
    (hb : cmdData (startedState c s) c ⟨.ok, []⟩ 256 = some b) (hr : cellStarts (dataState c 256 b (startedState c s)) c.part b = some r) :
    exec (.cellStart q) s = .next (complete c 0 0 (cellBegun c.part b r (dataState c 256 b (startedState c s)))) := by
  obtain ⟨hright, hidle, m, e, t, hm, he, ht, hagrees, rfl⟩ := cellStarts_some hr
  refine congrArg Host.Outcome.next ((startCmd_runs hc _).trans ?_)
  dsimp only
  rw [if_neg (by simp [hlocal, hlen]), if_neg (nn hradio), withData_ok hb]
  rw [if_neg hright, if_neg (by rw [hidle]; decide), hm, he]
  dsimp only
  rw [ht]
  exact if_neg hagrees

theorem exec_cellStop {q : CmdRef} {cell : Fin 384} {s : State} {c : Cmd} {y : Cell} (hc : startedCmd s q [0x31] true = some c)
    (hy : tabFind cell.val ((startedState c s).radioOf c.part).cells = some y) (hruns : y.stopping.isNone = true) :
    exec (.cellStop q cell) s = .next ((markStarted c (startedState c s)).setRadio c.part { (startedState c s).radioOf c.part with
      cells := tabSet cell.val { y with stopping := some c } ((startedState c s).radioOf c.part).cells }) := by
  refine congrArg Host.Outcome.next ((startCmd_runs hc _).trans ?_)
  dsimp only
  rw [hy]
  exact if_neg (ns hruns)

/-! ### SLOT and SLOT_BOUNDARY (R286 to R289) -/

/-- The state in which a slot command has been accepted. -/
def slotAccepted (k : Nat) (c : Cmd) (r : SlotRun) (s : State) : State :=
  (forgetBlocks k r.tasks (markStarted c s)).modRadio k fun x => { x with slots := x.slots ++ [r] }

theorem slots_forgetBlocks (k : Nat) (ts : List SlotTask) (s : State) : ((forgetBlocks k ts s).radioOf k).slots = (s.radioOf k).slots := by
  rw [forgetBlocks, State.modRadio, radioOf_setRadio]

theorem slots_slotAccepted (k : Nat) (c : Cmd) (r : SlotRun) (s : State) : ((slotAccepted k c r s).radioOf k).slots = (s.radioOf k).slots ++ [r] := by
  rw [slotAccepted, State.modRadio, radioOf_setRadio]
  dsimp only
  rw [slots_forgetBlocks, (markStarted_only ..).radioOf_same rfl]

/-- A slot command that is taken: its words are right, its cell runs, and it is in time. -/
theorem exec_slot {q : CmdRef} {data : HostData} {tasks : List SlotTask} {arb : Bool} {s : State} {c : Cmd} {b : List Byte} {r : SlotRun}
    (hc : startedCmd s q [0x32] true = some c) (hlen : cmdLen c = 32) (hb : cmdData (startedState c s) c data 32 = some b)
    (hr : slotStarts (dataState c 32 b (startedState c s)) c b tasks arb = some r) :
    exec (.slot q data tasks arb) s = .next (slotAccepted c.part c r (dataState c 32 b (startedState c s))) := by
  refine congrArg Host.Outcome.next ((startCmd_runs hc _).trans ?_)
  dsimp only
  rw [if_neg (by simp [hlen]), withData_ok hb]
  unfold slotStarts at hr
  dsimp only at hr
  split at hr
  · cases hr
  · next hwords =>
    obtain ⟨y, hy, htaken⟩ := Option.bind_eq_some_iff.mp hr
    obtain ⟨⟨hslot, htime, htasks⟩, hrun⟩ := Option.ite_none_right_eq_some.mp htaken
    cases hrun
    rw [if_neg hwords, hy]
    dsimp only
    rw [if_neg (Nat.not_le.mpr hslot), if_neg, if_neg (nn htasks)]
    · rfl
    · rintro (hlate | ⟨hlimit, hlost⟩)
      · rcases htime with hbefore | ⟨hat, -⟩ <;> omega
      · rcases htime with hbefore | ⟨-, hwon⟩
        · omega
        · exact nn hwon hlost

/-- The slot commands of a standby cell whose slot has passed (R540). -/
def passedSlots (k cell : Nat) (n : Int) (s : State) : List SlotRun :=
  (s.radioOf k).slots.filter fun r => r.cell == cell && r.held && decide (r.index < n)

/-- A cell's next slot has begun. -/
def slotBegun (k cell : Nat) (y : Cell) (s : State) : State :=
  s.setRadio k (forgetSlots cell (slotAt y.info s.now) { s.radioOf k with cells := tabSet cell { y with slot := slotAt y.info s.now } (s.radioOf k).cells })

/-- The passed slot commands of a standby cell complete. -/
def passedDone (k cell : Nat) (y : Cell) (s : State) : State :=
  (slotBegun k cell y s).each (passedSlots k cell (slotAt y.info s.now) s) fun r u => completeSlot r 0x0011 (dropSlotRun k r u)

theorem passedDone_none {k cell : Nat} {y : Cell} {s : State} (h : passedSlots k cell (slotAt y.info s.now) s = []) :
    passedDone k cell y s = slotBegun k cell y s := by
  rw [passedDone, h]
  rfl

/-- At a slot boundary a cell that stops is removed with its slot commands, and the command that stops it completes. -/
def boundaryPassed (k cell : Nat) (y : Cell) (s : State) : State :=
  let n := slotAt y.info s.now
  if y.flr then
    let t := removeCell k cell (cutSlots k cell n true (passedDone k cell y s))
    match y.stopping with
    | some c => complete c 0x0105 0 t
    | none => t
  else
    match y.stopping with
    | some c => complete c 0 0 (removeCell k cell (cutSlots k cell n false (passedDone k cell y s)))
    | none => passedDone k cell y s

section
variable {k cell : Nat} {y : Cell} {s : State}

theorem boundaryPassed_runs (hflr : y.flr = false) (hstop : y.stopping = none) : boundaryPassed k cell y s = passedDone k cell y s := by
  rw [boundaryPassed, hflr, hstop]
  rfl

theorem boundaryPassed_stops {c : Cmd} (hflr : y.flr = false) (hstop : y.stopping = some c) : boundaryPassed k cell y s =
    complete c 0 0 (removeCell k cell (cutSlots k cell (slotAt y.info s.now) false (passedDone k cell y s))) := by
  rw [boundaryPassed, hflr, hstop]
  rfl

theorem boundaryPassed_flr {c : Cmd} (hflr : y.flr = true) (hstop : y.stopping = some c) : boundaryPassed k cell y s =
    complete c 0x0105 0 (removeCell k cell (cutSlots k cell (slotAt y.info s.now) true (passedDone k cell y s))) := by
  rw [boundaryPassed, hflr, hstop]
  rfl

end

theorem exec_slotBoundary {k : Fin 64} {cell : Fin 384} {s : State} {y : Cell} (halive : s.alive = true)
    (hy : tabFind cell.val (s.radioOf k).cells = some y) (hnext : y.slot < slotAt y.info s.now) :
    exec (.slotBoundary k cell) s = .next (boundaryPassed k cell y s) := by
  simp only [exec, execSlotBoundary, hy]
  refine congrArg Host.Outcome.next ((if_neg ?_).trans rfl)
  rintro (hdead | hheld)
  · rw [halive] at hdead
    cases hdead
  · omega

/-! ### Calibration (R304 to R307) -/

theorem reg_goStale (k : Nat) (s : State) : (goStale k s).reg (partPage k) Rg.partRadioStatusCalState = 3 := by
  unfold goStale
  dsimp only
  rw [State.reg_raise_off _ (offHeader_same (by decide)), State.reg_usedFree, State.reg_setReg_same]
  rfl

theorem goStale_raises (k : Nat) (s : State) : ((goStale k s).reg (partPage k) Rg.pageIntStatus).testBit 17 = true := raised_bit _ _ 17 (by decide)

theorem exec_calCoolantStale {k : Fin 64} {s : State} (h : canCalCoolantStale k s = true) : exec (.calCoolantStale k) s = .next (goStale k s) := by
  simp only [canCalCoolantStale, Bool.and_eq_true] at h
  obtain ⟨⟨⟨hfirmware, hon⟩, hradio⟩, hwarm⟩ := h
  obtain ⟨t, ht, htime⟩ := any_some hwarm
  simp only [exec, execCalCoolantStale, ht]
  exact congrArg Host.Outcome.next (if_pos ⟨hfirmware, hon, hradio, of_decide_eq_true htime⟩)

/-- A soak record is imported: it becomes the partition's, and its budget is formed with it. -/
def soakImported (k : Nat) (record : SoakRecord) (s : State) : State :=
  setBudget k ((s.modRadio k fun x => { x with soak := some record, warmSince := none, imported := record :: x.imported.filter (· != record) }).setReg
    (partPage k) Rg.partRadioStatusCalState 2)

theorem soak_soakImported (k : Nat) (record : SoakRecord) (s : State) : ((soakImported k record s).radioOf k).soak = some record := by
  rw [soakImported, (setBudget_only ..).radioOf_same rfl]
  exact congrArg RadioPart.soak (radioOf_setRadio ..)

/-- CAL_STATE reads the same once CAL_IMPORT has been recorded. -/
theorem reg_startedState_calState (c : Cmd) (s : State) :
    (startedState c s).reg (partPage c.part) Rg.partRadioStatusCalState = s.reg (partPage c.part) Rg.partRadioStatusCalState :=
  reg_startedState_far ⟨by decide, by decide⟩ (fieldBit_ne (by decide)) (fieldBit_ne (by decide)) s

section
variable {q : CmdRef} {k : Fin 64} {record : SoakRecord} {s : State} {c : Cmd} (hc : startedCmd s q [0x33] true = some c) (hk : c.part = k.val)
include hc hk

/-- A soak record that is not of this device, or not signed by it, is refused. -/
theorem exec_calImport_refused (h : isRadio (startedState c s) k = false ∨ record.serial ≠ s.fuses.serial ∨ record.steppingB0 = false ∨
    Config.idkVerifies s.fuses.uds 1 (Config.soakBytes { record with signature := 0 }) record.signature = false) :
    exec (.calImport q k record) s = .next (complete c 0x0406 0 (startedState c s)) := by
  have hfuses := (startedState_only c s).fuses rfl
  refine congrArg Host.Outcome.next ((startCmd_runs hc _).trans ((if_neg (not_not_intro hk)).trans (if_pos ?_)))
  rw [hfuses]
  simpa only [Bool.not_eq_true'] using h

variable (hradio : isRadio (startedState c s) k = true) (hserial : record.serial = s.fuses.serial) (hstepping : record.steppingB0 = true)
  (hsigned : Config.idkVerifies s.fuses.uds 1 (Config.soakBytes { record with signature := 0 }) record.signature = true)
include hradio hserial hstepping hsigned

/-- A soak record that verifies is imported, unless the partition is stale and had it before (R306). -/
theorem exec_calImport_verified : exec (.calImport q k record) s = .next (
    if s.reg (partPage k) Rg.partRadioStatusCalState = 3 ∧ (s.radioOf k).imported.contains record then complete c 0 0 (startedState c s)
    else complete c 0 0 (soakImported k record (startedState c s))) := by
  have hfuses := (startedState_only c s).fuses rfl
  have hstate : (startedState c s).reg (partPage k) Rg.partRadioStatusCalState = s.reg (partPage k) Rg.partRadioStatusCalState :=
    hk ▸ reg_startedState_calState c s
  refine congrArg Host.Outcome.next ((startCmd_runs hc _).trans ((if_neg (not_not_intro hk)).trans ((if_neg ?_).trans ?_)))
  · rw [hfuses]
    rintro (hplain | hother | hstep | hforged)
    · exact nn hradio hplain
    · exact hother hserial
    · exact nn hstepping hstep
    · exact nn hsigned hforged
  · rw [hstate, radioOf_startedState]
    rfl

end

/-! ### Missed tidemarks and completed slots (R290, R299, R310) -/

theorem missWhere_misses {k cell frame slot i : Nat} {p : SlotTask → Bool} {s : State} {r : SlotRun} {a : SlotTask}
    (hr : slotOfCell (s.radioOf k) cell frame slot = some r) (ha : r.tasks[i]? = some a) (h : !r.held ∧ !r.missed.contains i ∧ p a) :
    missWhere k cell frame slot i p s = missTask k r i a s := by
  simp only [missWhere, hr, ha]
  exact if_pos h

theorem exec_tidemarkMiss {k : Fin 64} {cell : Fin 384} {frame slot task : Nat} {s : State} {r : SlotRun} {a : SlotTask} (halive : s.alive = true)
    (hr : slotOfCell (s.radioOf k) cell frame slot = some r) (ha : r.tasks[task]? = some a)
    (h : !r.held ∧ !r.missed.contains task ∧ decide (s.now ≥ a.tidemark.toNat)) :
    exec (.tidemarkMiss k cell frame slot task) s = .next (missTask k r task a s) :=
  congrArg Host.Outcome.next ((if_pos halive).trans (missWhere_misses hr ha h))

theorem missTask_raises (k : Nat) (r : SlotRun) (i : Nat) (a : SlotTask) (s : State) :
    ((missTask k r i a s).reg (partPage k) Rg.pageIntStatus).testBit 16 = true := by
  unfold missTask
  dsimp only
  split
  · rw [State.reg_emit]
    exact raised_bit _ _ 16 (by decide)
  · exact raised_bit _ _ 16 (by decide)

theorem reg_missTask_calState (k : Nat) (r : SlotRun) (i : Nat) (a : SlotTask) (s : State) :
    (missTask k r i a s).reg (partPage k) Rg.partRadioStatusCalState = s.reg (partPage k) Rg.partRadioStatusCalState := by
  have hcounted : ∀ u : State, ((u.bump (partPage k) Rg.partMissTotalCount).raise (partPage k) 16).reg (partPage k) Rg.partRadioStatusCalState =
      u.reg (partPage k) Rg.partRadioStatusCalState := fun u =>
    (State.reg_raise_off _ (offHeader_same (by decide)) 16).trans (State.reg_setReg_other _ (fieldBit_ne (by decide)) _)
  unfold missTask
  dsimp only
  split
  · rw [State.reg_emit, hcounted]
    rfl
  · rw [hcounted]
    rfl

theorem reg_lateMissed_calState (k cell frame slot : Nat) (r : SlotRun) (s : State) :
    (lateMissed k cell frame slot r s).reg (partPage k) Rg.partRadioStatusCalState = s.reg (partPage k) Rg.partRadioStatusCalState := by
  refine each_reg _ (fun i u => ?_) _ s
  unfold missWhere
  split
  · rfl
  · split
    · rfl
    · exact ite_prop (fun v : State => v.reg (partPage k) Rg.partRadioStatusCalState = u.reg (partPage k) Rg.partRadioStatusCalState)
        (fun _ => reg_missTask_calState ..) (fun _ => rfl)

/-- The poisoned PRBs of a slot are counted, and its results are written. -/
def slotReported (k : Nat) (cell : Fin 384) (frame slot poisonPrbs : Nat) (q : SlotRun) (s : State) : State :=
  (s.modRadio k fun x => { x with poison := addCell poisonPrbs cell x.poison }).emit
    (.slotResults k cell frame slot (slotOutcomes ((s.modRadio k fun x => { x with poison := addCell poisonPrbs cell x.poison }).radioOf k) q) (slotPlaces q))

/-- A slot command completes with a status: its blocks' results are forgotten, it is dropped, and its time joins the window of R306. -/
def slotEnded (k taskNs status : Nat) (q : SlotRun) (s : State) : State :=
  calWindow k taskNs q.predicted (sendMirror k (completeSlot q status (dropSlotRun k q (forgetBlocks k q.tasks s))))

theorem slotOutcome_congr {k : Nat} {s t : State} (h : t.reg (partPage k) Rg.partRadioStatusCalState = s.reg (partPage k) Rg.partRadioStatusCalState)
    (q : SlotRun) (poisonPrbs : Nat) : slotOutcome t k q poisonPrbs = slotOutcome s k q poisonPrbs := by
  unfold slotOutcome
  rw [h]

theorem exec_slotComplete {k : Fin 64} {cell : Fin 384} {frame slot taskNs poisonPrbs : Nat} {s : State} {r q : SlotRun} (hworks : s.working = true)
    (hr : slotOfCell (s.radioOf k) cell frame slot = some r) (hheld : r.held = false) (hready : surgeReady s k r = true)
    (hq : slotOfCell ((lateMissed k cell frame slot r s).radioOf k) cell frame slot = some q) :
    exec (.slotComplete k cell frame slot taskNs poisonPrbs) s =
      .next (slotEnded k taskNs (slotOutcome s k q poisonPrbs) q (slotReported k cell frame slot poisonPrbs q (lateMissed k cell frame slot r s))) := by
  have hopen : ¬(!s.working ∨ r.held ∨ (!(surgeTasks r).isEmpty ∧ !r.served ∧
      !(claimsFor (s.radioOf k) (slotMates (s.radioOf k) r)).any fun m => m.ready.isSome)) := by
    simp only [surgeReady, Bool.or_eq_true] at hready
    rintro (hidle | hh | ⟨htasks, hserved, hclaims⟩)
    · exact nn hworks hidle
    · rw [hheld] at hh
      cases hh
    · rcases hready with (hready | hready) | hready
      · exact nn hready htasks
      · exact nn hready hserved
      · exact nn hready hclaims
  simp only [exec, execSlotComplete, hr]
  refine congrArg Host.Outcome.next ((if_neg hopen).trans ?_)
  unfold lateMissed at hq
  rw [hq]
  have hcal : ((lateMissed k cell frame slot r s).modRadio k fun x => { x with poison := addCell poisonPrbs cell x.poison }).reg (partPage k)
      Rg.partRadioStatusCalState = s.reg (partPage k) Rg.partRadioStatusCalState := reg_lateMissed_calState ..
  rw [← slotOutcome_congr hcal]
  rfl

/-! ### UPLANE_WINDOW_CLOSE (R298) -/

/-- The slot command of a closed window keeps its erased PRBs. -/
def slotErased (k symbol eaxc : Nat) (erased : List Nat) (r : Option SlotRun) (s : State) : State :=
  match r with
  | some r => setSlotRun k r { r with erased := r.erased ++ erased.map fun p => (symbol, eaxc, p) } s
  | none => s

/-- The PRBs that did not arrive are counted, and the window is closed. -/
def windowCounted (k cell : Nat) (n : Int) (symbol eaxc late : Nat) (s : State) : State :=
  s.setRadio k { s.radioOf k with uplaneLate := addCell late cell (s.radioOf k).uplaneLate, closed := (cell, n, symbol, eaxc) :: (s.radioOf k).closed }

/-- The window of a symbol closes for an eAxC: its signal core is told. -/
def windowClosed (k cell frame slot symbol eaxc : Nat) (y : Cell) (n : Int) (erased missing : List Nat) (s : State) : State :=
  match tabFind eaxc y.info.ingress with
  | some e => sEvent e.1 5 (slotErased k symbol eaxc erased (slotOfCell (s.radioOf k) cell frame slot) (windowCounted k cell n symbol eaxc missing.length s))
  | none => slotErased k symbol eaxc erased (slotOfCell (s.radioOf k) cell frame slot) (windowCounted k cell n symbol eaxc missing.length s)

theorem exec_uplaneWindowClose {k : Fin 64} {cell : Fin 384} {frame slot : Nat} {symbol : Fin 14} {eaxc : Fin 128} {named : List Nat} {s : State}
    {y : Cell} {n : Int} {erased missing : List Nat} (h : uplaneCloses s k cell frame slot symbol eaxc named = some (y, n, erased, missing)) :
    exec (.uplaneWindowClose k cell frame slot symbol eaxc named) s = .next (windowClosed k cell frame slot symbol eaxc y n erased missing s) := by
  obtain ⟨y', hy, hcloses⟩ := Option.bind_eq_some_iff.mp h
  dsimp only at hcloses
  split at hcloses
  · next hopen =>
    cases hcloses
    obtain ⟨halive, hruns, heaxc, hkept, hfresh, hdue⟩ := hopen
    simp only [exec, execUplaneWindowClose, hy]
    refine congrArg Host.Outcome.next ((if_neg ?_).trans rfl)
    rintro (hdead | hstands | hnone | hgone | hclosed | ⟨hearly, hmore⟩)
    · exact nn halive hdead
    · exact nb hruns hstands
    · omega
    · exact nb hkept hgone
    · exact nb hfresh hclosed
    · rcases hdue with hdue | hdue
      · omega
      · exact nn hdue hmore
  · cases hcloses

theorem radioOf_windowClosed (k cell frame slot symbol eaxc : Nat) (y : Cell) (n : Int) (erased missing : List Nat) (s : State) :
    (windowClosed k cell frame slot symbol eaxc y n erased missing s).radioOf k =
      (slotErased k symbol eaxc erased (slotOfCell (s.radioOf k) cell frame slot) (windowCounted k cell n symbol eaxc missing.length s)).radioOf k := by
  unfold windowClosed
  split
  · exact (sEvent_only ..).radioOf_same rfl k
  · rfl

theorem radioOf_slotErased_some (k symbol eaxc : Nat) (erased : List Nat) (r : SlotRun) (s : State) :
    (slotErased k symbol eaxc erased (some r) s).radioOf k = { s.radioOf k with
      slots := (s.radioOf k).slots.map fun e => if e = r then { r with erased := r.erased ++ erased.map fun p => (symbol, eaxc, p) } else e } :=
  radioOf_setRadio ..

theorem radioOf_windowCounted (k cell : Nat) (n : Int) (symbol eaxc late : Nat) (s : State) :
    (windowCounted k cell n symbol eaxc late s).radioOf k = { s.radioOf k with
      uplaneLate := addCell late cell (s.radioOf k).uplaneLate, closed := (cell, n, symbol, eaxc) :: (s.radioOf k).closed } := radioOf_setRadio ..

/-- A raised event is pending. -/
theorem sEvent_pends (k src : Nat) (s : State) : ((sEvent k src s).sigc k).events.contains src = true := by
  unfold sEvent
  dsimp only
  by_cases h : (s.sigc k).events.contains src = true
  · rw [if_pos h]
    exact h
  · rw [if_neg h, State.sigc_setSigc_same]
    simp

/-! ### Surge claims (R300 to R303) -/

theorem exec_surgeClaim {k : Fin 64} {cell : Fin 384} {frame slot : Nat} {s : State} {r : SlotRun} (hworks : s.working = true)
    (hr : slotOfCell (s.radioOf k) cell frame slot = some r) (hheld : r.held = false) (hmore : claimsMore s k r = true) :
    exec (.surgeClaim k cell frame slot) s = .next (
      match idleSurge s k r.index with
      | some c => surgeServed k cell r.index (s.setRadio k { s.radioOf k with claims := (s.radioOf k).claims ++ [⟨cell, r.index, [c], s.now, some c⟩] })
      | none =>
        match claimFrom k cell (surgeGroups s k) s with
        | some (c, t) => t.setRadio k { s.radioOf k with claims := (s.radioOf k).claims ++ [⟨cell, r.index, [c], s.now, none⟩] }
        | none => s) := by
  simp only [claimsMore, Bool.and_eq_true, decide_eq_true_eq] at hmore
  obtain ⟨hintime, hneed⟩ := hmore
  simp only [exec, execSurgeClaim, hr]
  refine congrArg Host.Outcome.next ((if_neg ?_).trans ?_)
  · rintro (hidle | hh | hlate | henough)
    · exact nn hworks hidle
    · rw [hheld] at hh
      cases hh
    · exact nn hintime hlate
    · omega
  · rfl

theorem loadRadio_mem_congr {s t : State} (hregs : t.regs = s.regs) (hmem : t.mem = s.mem) (k c : Nat) : (loadRadio k c t).mem = (loadRadio k c s).mem := by
  have hmask : maskBit t (partPage k) Rg.partCoreMaskCores = maskBit s (partPage k) Rg.partCoreMaskCores := by
    funext i
    rw [maskBit, maskBit, reg_of_regs hregs]
  unfold loadRadio
  rw [hmask]
  split
  · exact hmem
  · split
    · exact hmem
    · dsimp only
      rw [hmem]

theorem claims_surgeServed (k cell : Nat) (index : Int) (s : State) : ((surgeServed k cell index s).radioOf k).claims = (s.radioOf k).claims := by
  refine (congrArg RadioPart.claims (radioOf_setRadio ..)).trans ?_
  dsimp only
  split <;> rfl

/-- A core becomes a radio partition's: it is lent, runs its program, and serves a claim. -/
def coreLent (k c : Nat) (m : Claim) (s : State) : State :=
  (loadRadio k c (s.modCore c fun x => { x with surgeFor := none, lentTo := some k })).setRadio k { s.radioOf k with
    claims := (s.radioOf k).claims.map fun d => if d = m then { m with ready := some c } else d }

theorem claimDue_some {s : State} {c k : Nat} {m : Claim} (h : claimDue s c = some (k, m)) :
    ∃ f, (s.core c).surgeFor = some (k, f) ∧ claimOf (s.radioOf k) c = some m ∧
      (s.working ∧ (s.core c).ctx.isNone ∧ enginesIdle (s.core c) ∧ streamsIdle (s.core c)) := by
  obtain ⟨⟨j, f⟩, hf, hdue⟩ := Option.bind_eq_some_iff.mp h
  split at hdue
  · next hfree =>
    obtain ⟨d, hd, heq⟩ := Option.map_eq_some_iff.mp hdue
    cases heq
    exact ⟨f, hf, hd, hfree⟩
  · cases hdue

theorem exec_surgeCoreReady {c : Fin 160} {s : State} {k : Nat} {m : Claim} (h : claimDue s c = some (k, m)) :
    exec (.surgeCoreReady c) s = .next (countSurge k (surgeServed k m.cell m.index (coreLent k c m s))) := by
  obtain ⟨f, hf, hm, hworks, hctx, hengines, hstreams⟩ := claimDue_some h
  simp only [exec, execSurgeCoreReady, hf, hm]
  exact congrArg Host.Outcome.next ((if_neg (by simp [hworks, Option.isNone_iff_eq_none.mp hctx, hengines, hstreams])).trans rfl)

theorem core_coreLent (k c : Nat) (m : Claim) (s : State) : (coreLent k c m s).core c = { s.core c with surgeFor := none, lentTo := some k } := by
  rw [coreLent, (State.setRadio_only ..).core_same rfl, (loadRadio_only ..).core_same rfl, State.core_modCore_same]

/-- The lateness of a claim is counted and raised. -/
def lateCounted (k : Nat) (s : State) : State := (s.bump (partPage k) Rg.partClaimLateCount).raise (partPage k) 18

theorem claimPast_some {s : State} {c k cell : Nat} {m : Claim} (h : claimPast s c = some (k, cell, m)) :
    ∃ since, (s.core c).surgeFor = some (k, cell, since) ∧ claimOf (s.radioOf k) c = some m ∧
      (s.working ∧ s.now ≥ since + 60000 ∧ m.cores.head? = some c ∧ m.cores.length = 1) := by
  obtain ⟨⟨j, d, since⟩, hf, hdue⟩ := Option.bind_eq_some_iff.mp h
  obtain ⟨n, hn, hlate⟩ := Option.bind_eq_some_iff.mp hdue
  split at hlate
  · next hpast =>
    cases hlate
    exact ⟨since, hf, hn, hpast⟩
  · cases hlate

/-- A late claim is counted, and what claims the next candidate changes no register. -/
theorem exec_claimLate {c : Fin 160} {s : State} {k cell : Nat} {m : Claim} (h : claimPast s c = some (k, cell, m)) :
    ∃ t, exec (.claimLate c) s = .next t ∧ t.regs = (lateCounted k s).regs := by
  obtain ⟨since, hf, hm, hworks, hlate, hhead, hone⟩ := claimPast_some h
  simp only [exec, execClaimLate, hf, hm]
  rw [if_neg (by simp [hworks, hhead, hone]; omega)]
  refine ⟨_, rfl, ?_⟩
  split
  · next d u hclaimed => exact (claimFrom_only _ _ _ _ _ _ hclaimed).regs rfl
  · rfl

theorem exec_surgeReturn {c : Fin 160} {s : State} {k : Nat} (hworks : s.working = true) (hk : (s.core c).lentTo = some k) :
    exec (.surgeReturn c) s = .next (match (s.radioOf k).claims.filter fun m => m.ready == some c.val with
      | [] => countSurge k (giveBack c s)
      | m :: rest => if rest.isEmpty then countSurge k (giveBack c (s.setRadio k { s.radioOf k with claims := (s.radioOf k).claims.filter (· != m) }))
        else s.setRadio k { s.radioOf k with claims := (s.radioOf k).claims.filter (· != m) }) := by
  simp only [exec, execSurgeReturn, hk]
  exact congrArg Host.Outcome.next ((if_neg (nn hworks)).trans rfl)

/-! ### The statement -/

/-- Settles O46: each command by its equation, and the cells, slots and claims by the lemmas about the state it leads to. -/
theorem radioCommandsComplete : Obligations.RadioCommandsComplete := by
  unfold Obligations.RadioCommandsComplete
  refine ⟨?cellStart, ?cellStop, ?slot, ?boundary, ?coolant, ?calImport, ?tidemark, ?slotComplete, ?window, ?claim, ?ready, ?late, ?returned⟩
  case cellStart =>
    intro q s h
    obtain ⟨c, hc, hstarts⟩ := any_some h
    simp only [Bool.and_eq_true, decide_eq_true_eq] at hstarts
    obtain ⟨⟨⟨hlocal, hlen⟩, hradio⟩, hdata⟩ := hstarts
    obtain ⟨b, hb, hcell⟩ := any_some hdata
    obtain ⟨r, hr⟩ := Option.isSome_iff_exists.mp hcell
    have hnow : (dataState c 256 b (startedState c s)).now = s.now :=
      ((dataState_only ..).now_same rfl).trans ((startedState_only ..).now_same rfl)
    refine ⟨_, exec_cellStart hc hlocal hlen hradio hb hr, c, b, r, hc, hb, hr, _, rfl, ?_⟩
    rw [cell_cellBegun, hnow]
  case cellStop =>
    intro q cell s h
    obtain ⟨c, hc, hcell⟩ := any_some h
    obtain ⟨y, hy, hruns⟩ := any_some hcell
    exact ⟨_, exec_cellStop hc hy hruns, c, y, hc, hy, rfl⟩
  case slot =>
    intro q data tasks arb s h
    obtain ⟨c, hc, hslot⟩ := any_some h
    obtain ⟨hlen, hdata⟩ := Bool.and_eq_true_iff.mp hslot
    obtain ⟨b, hb, htaken⟩ := any_some hdata
    obtain ⟨r, hr⟩ := Option.isSome_iff_exists.mp htaken
    exact ⟨_, exec_slot hc (of_decide_eq_true hlen) hb hr, c, b, r, hc, hb, hr, slots_slotAccepted .., rfl⟩
  case boundary =>
    intro k cell s h
    obtain ⟨halive, hcell⟩ := Bool.and_eq_true_iff.mp h
    obtain ⟨y, hy, hnext⟩ := any_some hcell
    refine ⟨_, exec_slotBoundary halive hy (of_decide_eq_true hnext), y, hy, fun hruns hkept hpassed => ?_,
      fun c hstops hkept => ?_, fun c hstops hflr => ?_⟩
    · exact (boundaryPassed_runs hkept hruns).trans (passedDone_none hpassed)
    · exact ⟨_, boundaryPassed_stops hkept hstops⟩
    · exact ⟨_, boundaryPassed_flr hflr hstops⟩
  case coolant => exact fun k s h => ⟨_, exec_calCoolantStale h, reg_goStale .., goStale_raises .., rfl⟩
  case calImport =>
    intro q k record s h
    obtain ⟨c, hc, hpart⟩ := any_some h
    have hk := beq_iff_eq.mp hpart
    obtain ⟨t, ht⟩ := exec_answers (.calImport q k record) s
    refine ⟨t, ht, c, hc, fun hradio hserial hstepping hsigned => ?_, fun hrefused => ?_⟩
    · have hverified := Host.Outcome.next.inj (ht.symm.trans (exec_calImport_verified hc hk hradio hserial hstepping hsigned))
      refine ⟨fun hnew => ?_, fun hstale hagain => ?_⟩
      · refine ⟨_, hverified.trans (if_neg ?_), soak_soakImported ..⟩
        rintro ⟨hstale, hagain⟩
        rcases hnew with hsoaked | hfresh
        · exact hsoaked hstale
        · rw [hfresh] at hagain
          cases hagain
      · exact hverified.trans (if_pos ⟨hstale, hagain⟩)
    · exact Host.Outcome.next.inj (ht.symm.trans (exec_calImport_refused hc hk hrefused))
  case tidemark =>
    intro k cell frame slot task s h
    obtain ⟨halive, hslot⟩ := Bool.and_eq_true_iff.mp h
    obtain ⟨r, hr, htask⟩ := any_some hslot
    obtain ⟨a, ha, hmisses⟩ := any_some htask
    obtain ⟨hopen, htime⟩ := Bool.and_eq_true_iff.mp hmisses
    obtain ⟨hheld, hmissed⟩ := Bool.and_eq_true_iff.mp hopen
    exact ⟨_, exec_tidemarkMiss halive hr ha ⟨hheld, hmissed, htime⟩, r, a, hr, ha, rfl, missTask_raises ..⟩
  case slotComplete =>
    intro k cell frame slot taskNs poisonPrbs s h
    obtain ⟨hworks, hslot⟩ := Bool.and_eq_true_iff.mp h
    obtain ⟨r, hr, hdone⟩ := any_some hslot
    simp only [Bool.and_eq_true, Bool.not_eq_true'] at hdone
    obtain ⟨⟨hheld, hready⟩, hlate⟩ := hdone
    obtain ⟨q, hq⟩ := Option.isSome_iff_exists.mp hlate
    exact ⟨_, exec_slotComplete hworks hr hheld hready hq, r, q, hr, hq, _, rfl, rfl⟩
  case window =>
    intro k cell frame slot symbol eaxc named s h
    obtain ⟨⟨y, n, erased, missing⟩, hcloses⟩ := Option.isSome_iff_exists.mp h
    refine ⟨_, exec_uplaneWindowClose hcloses, y, n, erased, missing, hcloses, ?_⟩
    have hsignals : ∀ e, tabFind eaxc.val y.info.ingress = some e →
        ((windowClosed k cell frame slot symbol eaxc y n erased missing s).sigc e.1).events.contains 5 = true := by
      intro e he
      rw [windowClosed, he]
      exact sEvent_pends ..
    rw [radioOf_windowClosed]
    cases hslot : slotOfCell (s.radioOf k) cell frame slot with
    | some r =>
      rw [radioOf_slotErased_some, radioOf_windowCounted]
      refine ⟨rfl, rfl, hsignals, ?_, fun hnone => nomatch hnone⟩
      rintro _ ⟨⟩
      rfl
    | none =>
      rw [slotErased, radioOf_windowCounted]
      refine ⟨rfl, rfl, hsignals, ?_, fun _ => rfl⟩
      rintro _ ⟨⟩
  case claim =>
    intro k cell frame slot s h
    obtain ⟨hworks, hslot⟩ := Bool.and_eq_true_iff.mp h
    obtain ⟨r, hr, hclaims⟩ := any_some hslot
    simp only [Bool.and_eq_true, Bool.or_eq_true, Bool.not_eq_true'] at hclaims
    obtain ⟨⟨hheld, hmore⟩, hcandidate⟩ := hclaims
    refine ⟨_, exec_surgeClaim hworks hr hheld hmore, r, hr, fun c hidle => ?_, fun hnone => ?_⟩
    · rw [hidle]
    · rw [hnone]
      rw [hnone] at hcandidate
      obtain ⟨⟨c, u⟩, hclaimed⟩ := Option.isSome_iff_exists.mp (hcandidate.resolve_left (by decide))
      refine ⟨c, u, hclaimed, ?_⟩
      rw [hclaimed]
  case ready =>
    intro c s h
    obtain ⟨⟨k, m⟩, hdue⟩ := Option.isSome_iff_exists.mp h
    have hcore : (countSurge k (surgeServed k m.cell m.index (coreLent k c m s))).core c = { s.core c with surgeFor := none, lentTo := some k } := by
      rw [(countSurge_only ..).core_same rfl, (surgeServed_only ..).core_same rfl, core_coreLent]
    refine ⟨_, exec_surgeCoreReady hdue, k, m, hdue, ?_, ?_, ?_, ?_⟩
    · rw [hcore]
    · rw [hcore]
    · rw [(countSurge_only ..).radioOf_same rfl, claims_surgeServed, coreLent, radioOf_setRadio]
    · rw [(countSurge_only ..).mem rfl, (surgeServed_only ..).mem rfl, coreLent, (State.setRadio_only ..).mem rfl]
      exact loadRadio_mem_congr (State.modCore_regs ..) (State.modCore_mem ..) ..
  case late =>
    intro c s h
    obtain ⟨⟨k, cell, m⟩, hpast⟩ := Option.isSome_iff_exists.mp h
    obtain ⟨t, ht, hregs⟩ := exec_claimLate hpast
    refine ⟨t, ht, k, cell, m, hpast, ?_, reg_of_regs hregs ..⟩
    rw [reg_of_regs hregs]
    exact raised_bit _ _ 18 (by decide)
  case returned =>
    intro c s h
    obtain ⟨hworks, hlent⟩ := Bool.and_eq_true_iff.mp h
    obtain ⟨k, hk⟩ := Option.isSome_iff_exists.mp hlent
    refine ⟨_, exec_surgeReturn hworks hk, k, hk, fun hnone => ?_, fun m rest hclaims => ⟨fun hlast => ?_, fun hmore => ?_⟩⟩
    · rw [hnone]
    · rw [hclaims, hlast]
      rfl
    · rw [hclaims]
      exact if_neg (by simpa using hmore)

end Sys2Proof.Machine
end

section
/-! SUPPORT. Serving groups, streams and KV ranges (R316 to R337): what the operations leave of a stream, and the statement on the serving
commands. -/

namespace Sys2Proof.Machine

/-! ### A stream after an operation -/

@[simp] theorem stream_setStream (s : State) (n : Nat) (x : StreamRun) : (s.setStream n x).stream n = some x := tabFind_set_same ..

theorem Only.stream_same {m : Nat} {s t : State} (h : Only m s t) (hm : m.testBit 18 = false) (n : Nat) : t.stream n = s.stream n := by
  unfold State.stream
  rw [h.serve hm]

/-- The watch for a partition whose decoding streams all hold for KV changes no stream and no group (R325). -/
@[simp] theorem serve_watchKv (k : Nat) (f : State → State) (s : State) : (watchKv k f s).serve = (f s).serve := State.raiseBits_serve ..

@[simp] theorem core_watchKv (k : Nat) (f : State → State) (s : State) (c : Nat) : (watchKv k f s).core c = (f s).core c := State.core_raiseBits ..

@[simp] theorem stream_watchKv (k : Nat) (f : State → State) (s : State) (n : Nat) : (watchKv k f s).stream n = (f s).stream n := by
  unfold State.stream
  rw [serve_watchKv]

theorem stream_completes (cs : List Cmd) (s : State) (n : Nat) : (s.each cs fun c u => complete c 0 0 u).stream n = s.stream n :=
  each_keep (fun u => u.stream n) (fun c u => (complete_only c 0 0 u).stream_same rfl n) cs s

/-- A stream that has ended, before its end record joins its records (R318). -/
def endedStream (reason : Nat) (x : StreamRun) : StreamRun :=
  { x with
    state := 5, endReason := reason, closing := [], inStep := false, left := [], op := none
    keep := if x.closing.isEmpty then 0 else x.keep }

section
variable {s : State} {n : Nat} {x : StreamRun} (h : s.stream n = some x)
include h

theorem stream_joinDecode : ∃ mb, (joinDecode n s).stream n = some { x with state := 4, mb := mb, resharded := false } := by
  unfold joinDecode
  rw [h]
  exact ⟨_, stream_setStream ..⟩

theorem stream_emitRecord (r : TokenRec) : (emitRecord n r s).stream n = some { x with records := x.records ++ [r] } := by
  unfold emitRecord
  rw [h]
  refine ((noteOutput_only ..).stream_same rfl n).trans ?_
  split <;> exact stream_setStream ..

/-- A stream that ends keeps its records, and its end record joins them (R318, R343). -/
theorem stream_endStream (reason token step status : Nat) (group : Option Nat) :
    ∃ r, (endStream n reason token step status group s).stream n = some { endedStream reason x with records := x.records ++ [r] } := by
  unfold endStream
  rw [h]
  refine ⟨_, stream_emitRecord (x := endedStream reason x) ((stream_completes ..).trans ?_) _⟩
  exact tabFind_set_same ..

/-- A step boundary applies the hold or release that waits; a released stream whose hidden row has moved decodes (R318, R319). -/
theorem holdBoundary_applies {b : Bool} (hnext : x.hostNext = some b) : holdBoundary n s =
    if (!b && x.resharded && !x.kv && !x.output) = true then joinDecode n (s.setStream n { x with host := b, hostNext := none })
    else s.setStream n { x with host := b, hostNext := none } := by
  unfold holdBoundary
  rw [h]
  dsimp only
  rw [hnext]

theorem holdBoundary_holds (hnext : x.hostNext = some true) : holdBoundary n s = s.setStream n { x with host := true, hostNext := none } :=
  holdBoundary_applies h hnext

theorem stream_holdBoundary_released (hnext : x.hostNext = some false) : ∃ y, (holdBoundary n s).stream n = some y ∧ y.host = false ∧
    y.hostNext = none ∧ (x.resharded = true → x.kv = false → x.output = false → y.state = 4) := by
  rw [holdBoundary_applies h hnext]
  split
  case isTrue =>
    obtain ⟨mb, hjoined⟩ := stream_joinDecode (stream_setStream s n { x with host := false, hostNext := none })
    exact ⟨_, hjoined, rfl, rfl, fun _ _ _ => rfl⟩
  case isFalse hstays =>
    refine ⟨_, stream_setStream .., rfl, rfl, fun hmoved hkv houtput => absurd ?_ hstays⟩
    rw [hmoved, hkv, houtput]
    rfl

end

/-! ### Commands that name a stream (R316, R320) -/

theorem streamCmd_named {u : State} {c : Cmd} {len : Nat} {used : List (Nat × Nat × Nat)} (h : streamNamed u c len used = true)
    (f : Nat → State → State) : streamCmd len used c f u = f (c.field 0x18 0 16) u := by
  simp only [streamNamed, Bool.and_eq_true, decide_eq_true_eq] at h
  obtain ⟨⟨hrange, hlen⟩, hclean⟩ := h
  exact (if_neg (nn hrange)).trans (if_neg (by simp [hlen, hclean]))

theorem streamIn_some {u : State} {c : Cmd} {len : Nat} {used : List (Nat × Nat × Nat)} {x : StreamRun} (h : streamIn u c len used = some x) :
    streamNamed u c len used = true ∧ u.stream (c.field 0x18 0 16) = some x := Option.ite_none_right_eq_some.mp h

/-! ### SERVE_GROUP (R327) -/

theorem exec_serveGroup {q : CmdRef} {data : HostData} {s : State} (h : canServeGroup q data s = true) :
    ∃ c b, startedCmd s q [0x20] true = some c ∧ cmdData s c data 128 = some b ∧ exec (.serveGroup q data) s = .next (complete c 0 0
      ((dataState c 128 b s).setGroup c.part (recField (BitVec.ofNat 1024 (leNat b)) 0 0 3) { image := BitVec.ofNat 1024 (leNat b) })) := by
  obtain ⟨c, hc, hgroup⟩ := any_some h
  simp only [Bool.and_eq_true, decide_eq_true_eq] at hgroup
  obtain ⟨⟨hlen, hclean⟩, hdata⟩ := hgroup
  obtain ⟨b, hb, hright⟩ := any_some hdata
  obtain ⟨hfields, hclosed⟩ := Bool.and_eq_true_iff.mp hright
  refine ⟨c, b, hc, hb, congrArg Host.Outcome.next ((startCmd_data hc (by decide) _).trans ?_)⟩
  refine (if_neg (by simp [hlen, hclean])).trans ?_
  rw [withData_ok hb]
  exact (if_neg (nb hfields)).trans (if_neg (nb hclosed))

/-! ### STREAM_OPEN (R319) -/

/-- A stream as STREAM_OPEN leaves it: the pages that its record brings stand in its list, and it is queued behind their tokens. -/
def openedStream (k : Nat) (b l : List Byte) (lead : Option Nat) (s : State) : StreamRun :=
  let d := BitVec.ofNat 2048 (leNat b)
  let x : StreamRun := { part := k, image := d, group := recField d 0 8 3, admitNo := s.serve.admits + 1, lead := lead }
  { x with pages := (List.range x.prefixPages).map fun i => leNat ((l.drop (4 * i)).take 4), position := 32 * x.prefixPages }

theorem openedStream_spec (k : Nat) (b l : List Byte) (lead : Option Nat) (s : State) :
    let x := openedStream k b l lead s
    x.part = k ∧ x.image = BitVec.ofNat 2048 (leNat b) ∧ x.state = 1 ∧ x.position = 32 * x.prefixPages ∧ x.pages.length = x.prefixPages ∧
      x.admitNo = s.serve.admits + 1 :=
  ⟨rfl, rfl, rfl, rfl, (List.length_map _).trans List.length_range, rfl⟩

/-- The state in which a stream has opened: its page list has been read, its seed is recorded, and its number counts as admitted. -/
def streamOpened (k n : Nat) (x : StreamRun) (s : State) : State :=
  let t := recordSeed k 1 n x.seed (s.partTouch k x.pageList (4 * x.prefixPages))
  { t with serve := { t.serve with admits := x.admitNo } }.setStream n x

theorem exec_streamOpen {q : CmdRef} {data : HostData} {s : State} (h : canStreamOpen q data s = true) :
    ∃ c b l lead, startedCmd s q [0x21] true = some c ∧ cmdData s c data 256 = some b ∧ exec (.streamOpen q data) s = .next (complete c 0 0
      (streamOpened c.part (c.field 0x18 0 16) (openedStream c.part b l lead (dataState c 256 b s)) (dataState c 256 b s))) := by
  obtain ⟨c, hc, hopens⟩ := any_some h
  obtain ⟨hnamed, hdata⟩ := Bool.and_eq_true_iff.mp hopens
  obtain ⟨b, hb, hright⟩ := any_some hdata
  simp only [streamOpens, Bool.and_eq_true] at hright
  obtain ⟨⟨⟨hfields, hfree⟩, hgroup⟩, hlist⟩ := hright
  obtain ⟨l, hl⟩ := Option.isSome_iff_exists.mp hlist
  refine ⟨c, b, l, if (dataState c 256 b s).host.linkUp then none else c.lead, hc, hb,
    congrArg Host.Outcome.next ((startCmd_data hc (by decide) _).trans ?_)⟩
  rw [streamCmd_named hnamed, withData_ok hb]
  refine (if_neg (nb hfields)).trans ((if_neg (ns hfree)).trans ((if_neg (ni hgroup)).trans ?_))
  simp only [StreamRun.pageList, StreamRun.prefixPages] at hl ⊢
  rw [hl]
  rfl

/-! ### STREAM_CLOSE (R323) -/

/-- A stream with one more STREAM_CLOSE that waits for its step boundary. -/
def closeAsked (c : Cmd) (x : StreamRun) : StreamRun :=
  { x with closing := x.closing ++ [{ c with started := true }], keep := if x.closing.isEmpty then c.field 0x1C 0 17 else x.keep }

/-- The state in which a STREAM_CLOSE waits for its stream's step boundary. -/
def closeWaits (c : Cmd) (x : StreamRun) (s : State) : State := (markStarted c s).setStream (c.field 0x18 0 16) (closeAsked c x)

theorem stream_closeWaits (c : Cmd) (x : StreamRun) (s : State) : (closeWaits c x s).stream (c.field 0x18 0 16) = some (closeAsked c x) :=
  stream_setStream ..

theorem exec_streamClose {q : CmdRef} {s : State} {c : Cmd} {x : StreamRun} (hc : startedCmd s q [0x22] true = some c)
    (hx : streamIn (startedState c s) c 0 [(0x18, 0, 16), (0x1C, 0, 17)] = some x) (hkeep : c.field 0x1C 0 17 ≤ x.pages.length) :
    exec (.streamClose q) s = .next (if x.state = 5 then complete c 0 0 (startedState c s)
      else if x.inStep = true then closeWaits c x (startedState c s)
      else watchKv x.part (endStream (c.field 0x18 0 16) 4 0xFFFFFFFF x.step 0 none) (closeWaits c x (startedState c s))) := by
  obtain ⟨hnamed, hstream⟩ := streamIn_some hx
  refine congrArg Host.Outcome.next ((startCmd_runs hc _).trans ?_)
  rw [streamCmd_named hnamed]
  dsimp only
  rw [hstream]
  exact if_neg (Nat.not_lt.mpr hkeep)

/-! ### STREAM_HOLD and STREAM_RELEASE (R319) -/

/-- The state in which a stream's hold or release has been asked for: at its step boundary it is applied at once. -/
def holdAsked (on : Bool) (n : Nat) (x : StreamRun) (s : State) : State :=
  let t := s.setStream n { x with hostNext := some on }
  if x.inStep then t else holdBoundary n t

/-- A hold or release of a stream that has not ended. -/
theorem streamHold_asks {on : Bool} {c : Cmd} {u : State} (h : ((streamIn u c 0 [(0x18, 0, 16)]).any fun x => x.state != 5) = true) :
    ∃ x, streamIn u c 0 [(0x18, 0, 16)] = some x ∧ streamHold on c u = complete c 0 0 (holdAsked on (c.field 0x18 0 16) x u) := by
  obtain ⟨x, hx, hopen⟩ := any_some h
  obtain ⟨hnamed, hstream⟩ := streamIn_some hx
  refine ⟨x, hx, (streamCmd_named hnamed _).trans ?_⟩
  dsimp only
  rw [hstream]
  exact if_neg (bne_iff_ne.mp hopen)

theorem exec_streamHold {q : CmdRef} {s : State} (h : canStreamHold q s = true) :
    ∃ c x, startedCmd s q [0x23] true = some c ∧ streamIn (startedState c s) c 0 [(0x18, 0, 16)] = some x ∧
      exec (.streamHold q) s = .next (complete c 0 0 (holdAsked true (c.field 0x18 0 16) x (startedState c s))) := by
  obtain ⟨c, hc, hopen⟩ := any_some h
  obtain ⟨x, hx, hasks⟩ := streamHold_asks hopen
  exact ⟨c, x, hc, hx, congrArg Host.Outcome.next ((startCmd_runs hc _).trans hasks)⟩

theorem exec_streamRelease {q : CmdRef} {s : State} (h : canStreamRelease q s = true) :
    ∃ c x, startedCmd s q [0x24] true = some c ∧ streamIn (startedState c s) c 0 [(0x18, 0, 16)] = some x ∧
      exec (.streamRelease q) s = .next (complete c 0 0 (holdAsked false (c.field 0x18 0 16) x (startedState c s))) := by
  obtain ⟨c, hc, hopen⟩ := any_some h
  obtain ⟨x, hx, hasks⟩ := streamHold_asks hopen
  exact ⟨c, x, hc, hx, congrArg Host.Outcome.next ((startCmd_runs hc _).trans hasks)⟩

theorem holdAsked_inStep {x : StreamRun} (h : x.inStep = true) (on : Bool) (n : Nat) (s : State) :
    holdAsked on n x s = s.setStream n { x with hostNext := some on } := if_pos h

theorem holdAsked_boundary {x : StreamRun} (h : x.inStep = false) (on : Bool) (n : Nat) (s : State) :
    holdAsked on n x s = holdBoundary n (s.setStream n { x with hostNext := some on }) := if_neg (ne_true_of_eq_false h)

theorem stream_holdAsked_hold (n : Nat) (x : StreamRun) (s : State) : ∃ y, (holdAsked true n x s).stream n = some y ∧
    (x.inStep = true → y = { x with hostNext := some true }) ∧ (x.inStep = false → y = { x with host := true, hostNext := none }) := by
  cases hstep : x.inStep with
  | true =>
    rw [holdAsked_inStep hstep]
    exact ⟨_, stream_setStream .., fun _ => hstep ▸ rfl, nofun⟩
  | false =>
    rw [holdAsked_boundary hstep, holdBoundary_holds (stream_setStream ..) rfl]
    exact ⟨_, stream_setStream .., nofun, fun _ => hstep ▸ rfl⟩

theorem stream_holdAsked_release (n : Nat) (x : StreamRun) (s : State) : ∃ y, (holdAsked false n x s).stream n = some y ∧
    (x.inStep = true → y = { x with hostNext := some false }) ∧ (x.inStep = false → y.host = false ∧ y.hostNext = none) ∧
    (x.inStep = false → x.resharded = true → x.kv = false → x.output = false → y.state = 4) := by
  cases hstep : x.inStep with
  | true =>
    rw [holdAsked_inStep hstep]
    exact ⟨_, stream_setStream .., fun _ => hstep ▸ rfl, nofun, nofun⟩
  | false =>
    rw [holdAsked_boundary hstep]
    obtain ⟨y, hy, hhost, hnext, hdecodes⟩ := stream_holdBoundary_released (stream_setStream s n { x with hostNext := some false }) rfl
    exact ⟨y, hy, nofun, fun _ => ⟨hhost, hnext⟩, fun _ => hdecodes⟩

/-! ### STREAM_QUERY (R320) -/

theorem exec_streamQuery {q : CmdRef} {s : State} (h : canStreamQuery q s = true) :
    ∃ c, startedCmd s q [0x25] true = some c ∧ exec (.streamQuery q) s =
      .next (complete c 0 0 (writeData c (streamImage (startedState c s) (c.field 0x18 0 16)) (startedState c s))) := by
  obtain ⟨c, hc, hquery⟩ := any_some h
  obtain ⟨hnamed, hplace⟩ := Bool.and_eq_true_iff.mp hquery
  have hdone : (if cmdLocal c then (startedState c s).partWriteCheck c.part (cmdAddr c) 256 else .done) = .done := by
    cases hlocal : cmdLocal c with
    | false => rfl
    | true =>
      rw [hlocal] at hplace
      exact beq_iff_eq.mp hplace
  refine ⟨c, hc, congrArg Host.Outcome.next ((startCmd_runs hc _).trans ?_)⟩
  rw [streamCmd_named hnamed, hdone]

/-! ### KV_BIND and KV_RELEASE (R324, R326) -/

theorem exec_kvBind {q : CmdRef} {object : BitVec 16} {layerBytes layers : Nat} {s : State} (h : canKvBind q object layerBytes layers s = true) :
    ∃ c o, startedCmd s q [0x17] true = some c ∧ tabFind (objKey c.part object.toNat) (startedState c s).tier.objects = some o ∧
      exec (.kvBind q object layerBytes layers) s = .next (complete c 0 0 { (startedState c s) with serve := { (startedState c s).serve with
        pools := tabSet c.part ⟨object.toNat, layerBytes, layers, (startedState c s).reg (partPage c.part) Rg.partKvBaseBase, o.base⟩
          (startedState c s).serve.pools } }) := by
  obtain ⟨c, hc, hbinds⟩ := any_some h
  simp only [Bool.and_eq_true, decide_eq_true_eq] at hbinds
  obtain ⟨⟨⟨hlen, hsome, hwhole, hlayers⟩, hidle⟩, hobject⟩ := hbinds
  obtain ⟨o, ho, hpool⟩ := any_some hobject
  simp only [Bool.and_eq_true, beq_iff_eq, decide_eq_true_eq] at hpool
  obtain ⟨hhint, hsize⟩ := hpool
  refine ⟨c, o, hc, ho, congrArg Host.Outcome.next ((startCmd_runs hc _).trans ?_)⟩
  refine (if_neg (not_not_intro hlen)).trans ?_
  rw [ho]
  refine (if_neg ?_).trans (if_neg (nb hidle))
  rintro (hother | hnone | hpart | hflat | hsmall)
  · exact hother hhint
  · exact hsome hnone
  · exact hpart hwhole
  · exact hlayers hflat
  · exact Nat.not_lt.mpr hsize hsmall

@[simp] theorem serve_writeKvEntry (k e : Nat) (s : State) : (writeKvEntry k e s).serve = s.serve := (writeKvEntry_only ..).serve rfl

theorem kvs_freeEntries (k : Nat) (es : List Nat) (s : State) :
    (freeEntries k es s).serve.kvs = s.serve.kvs.filter fun e => !es.contains e.1 :=
  congrArg ServeState.kvs (each_keep State.serve (serve_writeKvEntry k) es _)

theorem kvUsed_freeEntries {e : Nat} {es : List Nat} (h : es.contains e = true) (k : Nat) (s : State) : kvUsed (freeEntries k es s) e = false := by
  rw [kvUsed, kvs_freeEntries, tabFind_filter fun e => !es.contains e, if_neg (nn h)]
  rfl

theorem exec_kvRelease {q : CmdRef} {entry : Nat} {s : State} (h : canKvRelease q entry s = true) :
    ∃ c, startedCmd s q [0x18] true = some c ∧
      exec (.kvRelease q entry) s = .next (complete c 0 0 (freeEntries c.part [entry] (startedState c s))) := by
  obtain ⟨c, hc, hreleases⟩ := any_some h
  simp only [Bool.and_eq_true, decide_eq_true_eq] at hreleases
  obtain ⟨⟨hlen, hrange⟩, hshared⟩ := hreleases
  refine ⟨c, hc, congrArg Host.Outcome.next ((startCmd_runs hc _).trans ?_)⟩
  exact (if_neg (not_not_intro hlen)).trans (if_neg (not_or.mpr ⟨nn hrange, nn hshared⟩))

/-! ### RESHARD (R337) -/

/-- A RESHARD that meets no refusal begins; one with no page to copy is complete at once, and the stream joins the group. -/
def reshardBegins (c : Cmd) (n g : Nat) (x : StreamRun) (s : State) : State :=
  let t := s.setStream n { x with op := some ⟨g, toReshard s x⟩ }
  if (toReshard s x).isEmpty then complete c 0 0 (joinDecode n (t.setStream n { x with group := g }))
  else startLong c (toReshard s x).length [] t 0 n g

theorem reshardBegins_copies {s : State} {x : StreamRun} (h : toReshard s x ≠ []) (c : Cmd) (n g : Nat) : reshardBegins c n g x s =
    startLong c (toReshard s x).length [] (s.setStream n { x with op := some ⟨g, toReshard s x⟩ }) 0 n g := if_neg (mt List.isEmpty_iff.mp h)

/-- A RESHARD of a stream all of whose pages are SHARED leaves it decoding in the group. -/
theorem reshardBegins_joins {s : State} {x : StreamRun} (h : toReshard s x = []) (c : Cmd) (n g : Nat) :
    ∃ u y, reshardBegins c n g x s = complete c 0 0 u ∧ u.stream n = some y ∧ y.group = g ∧ y.state = 4 := by
  obtain ⟨mb, hjoined⟩ := stream_joinDecode (stream_setStream (s.setStream n { x with op := some ⟨g, toReshard s x⟩ }) n { x with group := g })
  exact ⟨_, _, if_pos (List.isEmpty_iff.mpr h), hjoined, rfl, rfl⟩

/-- A stream that RESHARD takes decodes, no other RESHARD runs on it, and the two groups agree on MODEL and LAYER_BYTES. -/
theorem reshards_some {u : State} {k n g : Nat} {x : StreamRun} (h : reshards u k n g = some x) :
    inRange u k Rg.partStreamBaseBase Rg.partStreamCountCount n = true ∧ u.stream n = some x ∧ (x.state = 4 ∧ x.op.isNone = true) ∧
      ∃ a b, groupImage u k g = some a ∧ groupImage u k x.group = some b ∧ a.model = b.model ∧ a.layerBytes = b.layerBytes := by
  obtain ⟨hrange, hstream⟩ := Option.ite_none_right_eq_some.mp h
  obtain ⟨hfind, hright⟩ := Option.filter_eq_some_iff.mp hstream
  simp only [Bool.and_eq_true, beq_iff_eq] at hright
  obtain ⟨hfree, hgroups⟩ := hright
  refine ⟨hrange, hfind, hfree, ?_⟩
  cases ha : groupImage u k g with
  | none =>
    rw [ha] at hgroups
    cases hgroups
  | some a =>
    cases hb : groupImage u k x.group with
    | none =>
      rw [ha, hb] at hgroups
      cases hgroups
    | some b =>
      rw [ha, hb] at hgroups
      obtain ⟨hmodel, hbytes⟩ := Bool.and_eq_true_iff.mp hgroups
      exact ⟨a, b, rfl, rfl, beq_iff_eq.mp hmodel, beq_iff_eq.mp hbytes⟩

theorem exec_reshard {q : CmdRef} {stream : BitVec 16} {group : Fin 8} {s : State} (h : canReshard q stream group s = true) :
    ∃ c x, startedCmd s q [0x26] true = some c ∧ reshards (startedState c s) c.part stream.toNat group = some x ∧
      exec (.reshard q stream group) s = .next (reshardBegins c stream.toNat group x (startedState c s)) := by
  obtain ⟨c, hc, hreshards⟩ := any_some h
  obtain ⟨hlen, hsome⟩ := Bool.and_eq_true_iff.mp hreshards
  obtain ⟨x, hx⟩ := Option.isSome_iff_exists.mp hsome
  obtain ⟨hrange, hfind, ⟨hdecodes, hidle⟩, a, b, ha, hb, hmodel, hbytes⟩ := reshards_some hx
  refine ⟨c, x, hc, hx, congrArg Host.Outcome.next ((startCmd_runs hc _).trans ?_)⟩
  refine (if_neg (nn hrange)).trans ((if_neg (not_not_intro (of_decide_eq_true hlen))).trans ?_)
  rw [hfind]
  refine (if_neg (not_or.mpr ⟨not_not_intro hdecodes, ns hidle⟩)).trans ?_
  rw [ha, hb]
  exact if_neg (not_or.mpr ⟨not_not_intro hmodel, not_not_intro hbytes⟩)

/-! ### The statement -/

/-- Settles O52: each command by its equation, and the streams by the lemmas about the state it leads to. -/
theorem servingCommandsComplete : Obligations.ServingCommandsComplete := by
  unfold Obligations.ServingCommandsComplete
  refine ⟨?group, ?opens, ?close, ?hold, ?release, ?query, ?bind, ?free, ?reshard⟩
  case group =>
    intro q data s h
    obtain ⟨c, b, hc, hb, hexec⟩ := exec_serveGroup h
    exact ⟨_, hexec, c, b, hc, hb, rfl⟩
  case opens =>
    intro q data s h
    obtain ⟨c, b, l, lead, hc, hb, hexec⟩ := exec_streamOpen h
    obtain ⟨hpart, himage, hstate, hposition, hpages, hadmit⟩ := openedStream_spec c.part b l lead (dataState c 256 b s)
    exact ⟨_, hexec, c, b, _, _, hc, hb, rfl, stream_setStream .., hpart, himage, hstate, hposition, hpages, hadmit, rfl⟩
  case close =>
    intro q s h
    obtain ⟨c, hc, hstream⟩ := any_some h
    obtain ⟨x, hx, hkeep⟩ := any_some hstream
    refine ⟨_, exec_streamClose hc hx (of_decide_eq_true hkeep), c, x, hc, hx, fun hended => if_pos hended, fun hopen hstep => ?_,
      fun hopen hstep => ?_⟩
    · rw [if_neg hopen, if_pos hstep]
      exact stream_closeWaits ..
    · rw [if_neg hopen, if_neg (ne_true_of_eq_false hstep), stream_watchKv]
      obtain ⟨r, hended⟩ := stream_endStream (stream_closeWaits c x (startedState c s)) 4 0xFFFFFFFF x.step 0 none
      exact ⟨_, hended, rfl, rfl, rfl⟩
  case hold =>
    intro q s h
    obtain ⟨c, x, hc, hx, hexec⟩ := exec_streamHold h
    obtain ⟨y, hy, hstep, hboundary⟩ := stream_holdAsked_hold (c.field 0x18 0 16) x (startedState c s)
    exact ⟨_, hexec, c, x, _, y, hc, hx, rfl, hy, hstep, hboundary⟩
  case release =>
    intro q s h
    obtain ⟨c, x, hc, hx, hexec⟩ := exec_streamRelease h
    obtain ⟨y, hy, hstep, hboundary, hdecodes⟩ := stream_holdAsked_release (c.field 0x18 0 16) x (startedState c s)
    exact ⟨_, hexec, c, x, _, y, hc, hx, rfl, hy, hstep, hboundary, hdecodes⟩
  case query =>
    intro q s h
    obtain ⟨c, hc, hexec⟩ := exec_streamQuery h
    exact ⟨_, hexec, c, hc, rfl⟩
  case bind =>
    intro q object layerBytes layers s h
    obtain ⟨c, o, hc, ho, hexec⟩ := exec_kvBind h
    exact ⟨_, hexec, c, o, hc, ho, rfl⟩
  case free =>
    intro q entry s h
    obtain ⟨c, hc, hexec⟩ := exec_kvRelease h
    exact ⟨_, hexec, c, hc, rfl, kvUsed_freeEntries (by simp) ..⟩
  case reshard =>
    intro q stream group s h
    obtain ⟨c, x, hc, hx, hexec⟩ := exec_reshard h
    exact ⟨_, hexec, c, x, hc, hx, fun hnone => reshardBegins_joins hnone .., fun hsome => reshardBegins_copies hsome ..⟩

end Sys2Proof.Machine
end

section
/-! SUPPORT. Steps of a serving group composed and ended, and a stream resharded (R321, R331, R334), and the statement on them. -/

namespace Sys2Proof.Machine

/-! ### The cores of a step's set (R508) -/

/-- What an operation done for each entry of a list establishes at one of them, and keeps at each, holds in the end. -/
theorem each_establishes {α : Type} {P : State → Prop} {f : α → State → State} {a : α} (hsets : ∀ u, P (f a u))
    (hkeeps : ∀ b u, P u → P (f b u)) : ∀ {l : List α}, a ∈ l → ∀ s : State, P (s.each l f)
  | b :: l, ha, s => by
    rw [each_cons]
    rcases List.mem_cons.mp ha with rfl | hrest
    · exact List.foldlRecOn l _ (hsets s) fun u hu b _ => hkeeps b u hu
    · exact each_establishes hsets hkeeps hrest _

/-- The generator key of a stream is loaded on a core of a step's set. -/
def keyLoaded (x : StreamRun) (c : Nat) (s : State) : State :=
  let t := (s.modCore c fun y => { y with serving := true }).setReg (corePage c) Rg.coreRngStepStep x.step
  t.each (List.range 4) fun i u => u.setReg (corePage c) Rg.coreRngSeedSeed (x.seed.toNat / 2 ^ (32 * i)) i

theorem loadKey_anchor (cs : List Nat) (x : StreamRun) (s : State) : loadKey cs (some x) s = s.each cs (keyLoaded x) := rfl

@[simp] theorem serve_loadKey (cs : List Nat) (anchor : Option StreamRun) (s : State) : (loadKey cs anchor s).serve = s.serve :=
  (loadKey_only ..).serve rfl

theorem core_keyLoaded (x : StreamRun) (c : Nat) (s : State) (d : Nat) :
    (keyLoaded x c s).core d = (s.modCore c fun y => { y with serving := true }).core d :=
  (each_keep (fun u => u.core d) (fun _ _ => State.core_setReg ..) _ _).trans (State.core_setReg ..)

/-- What marks each core of a set as serving, or as not serving, and changes no core more leaves every core of the set so. -/
theorem serving_each {b : Bool} {f : Nat → State → State} (hf : ∀ d u e, (f d u).core e = (u.modCore d fun y => { y with serving := b }).core e)
    {cs : List Nat} {c : Nat} (hc : c ∈ cs) (s : State) : ((s.each cs f).core c).serving = b := by
  refine each_establishes (P := fun u => (u.core c).serving = b) (fun u => ?_) (fun d u hu => ?_) hc s
  · rw [hf, State.core_modCore_same]
  · rw [hf]
    by_cases hd : c = d
    · rw [hd, State.core_modCore_same]
    · rw [u.core_modCore_other hd]
      exact hu

theorem serving_loadKey {cs : List Nat} {c : Nat} (hc : c ∈ cs) (x : StreamRun) (s : State) : ((loadKey cs (some x) s).core c).serving = true :=
  serving_each (core_keyLoaded x) hc s

theorem serving_leaveStep {cs : List Nat} {c : Nat} (hc : c ∈ cs) (s : State) : ((leaveStep cs s).core c).serving = false :=
  serving_each (fun _ _ _ => rfl) hc s

/-! ### PREFILL_STEP_COMPOSE and DECODE_STEP_COMPOSE (R331) -/

/-- A step that is the next one of its round is composed from the state with the rest of the round; beside it only BOUNDARY counts (R510, R511). -/
theorem inRound_composes {s u : State} {k : Nat} {item : Nat × Nat} (h : composeState s k item = some u) (f : State → State) :
    (inRound k item f s).serve = (f u).serve ∧ ∀ c, (inRound k item f s).core c = (f u).core c := by
  unfold composeState at h
  unfold inRound
  split at h
  case isTrue hfree =>
    cases h
    rw [if_pos hfree]
    exact ⟨rfl, fun _ => rfl⟩
  case isFalse hstrict =>
    obtain ⟨r, hr, rfl⟩ := Option.map_eq_some_iff.mp h
    rw [if_neg hstrict, hr]
    dsimp only
    split
    · exact ⟨State.addReg_serve .., fun _ => State.core_addReg ..⟩
    · exact ⟨rfl, fun _ => rfl⟩

/-- The state in which a group has composed a prefill step. -/
def prefillComposed (k g : Nat) (x : ServeGroup) (u : State) : State :=
  let r := prefillBatch u k g x
  if r.2.isEmpty then r.1
  else loadKey (groupCores x false) (r.2.head?.bind fun e => r.1.stream e.1) (r.1.setGroup k g { (groupImage r.1 k g).getD x with prefill := some r.2 })

theorem prefillComposed_empty {k g : Nat} {x : ServeGroup} {u : State} (h : (prefillBatch u k g x).2 = []) :
    prefillComposed k g x u = (prefillBatch u k g x).1 := if_pos (List.isEmpty_iff.mpr h)

theorem prefillComposed_some {k g : Nat} {x : ServeGroup} {u : State} (h : (prefillBatch u k g x).2 ≠ []) : prefillComposed k g x u =
    loadKey (groupCores x false) ((prefillBatch u k g x).2.head?.bind fun e => (prefillBatch u k g x).1.stream e.1)
      ((prefillBatch u k g x).1.setGroup k g { (groupImage (prefillBatch u k g x).1 k g).getD x with prefill := some (prefillBatch u k g x).2 }) :=
  if_neg (mt List.isEmpty_iff.mp h)

theorem exec_prefillStepCompose {k : Fin 64} {g : Fin 8} {s : State} (h : canPrefillStepCompose k g s = true) :
    ∃ x u, groupImage s k g = some x ∧ composeState s k (g.val, 0) = some u ∧
      exec (.prefillStepCompose k g) s = .next (inRound k (g.val, 0) (prefillComposed k g x) s) := by
  obtain ⟨x, hx, hcomposes⟩ := any_some h
  simp only [Bool.and_eq_true] at hcomposes
  obtain ⟨⟨hidle, hmay⟩, hround⟩ := hcomposes
  obtain ⟨u, hu⟩ := Option.isSome_iff_exists.mp hround
  refine ⟨x, u, hx, hu, ?_⟩
  simp only [exec, execPrefillStepCompose, hx]
  exact congrArg Host.Outcome.next (if_neg (by simp [Option.isNone_iff_eq_none.mp hidle, hmay]))

/-- The state in which a group has composed a decode step of a microbatch. -/
def decodeComposed (k g mb : Nat) (x : ServeGroup) (u : State) : State :=
  let r := decodeBatch u k g mb x
  if r.2.isEmpty then r.1
  else
    let y := (groupImage r.1 k g).getD x
    loadKey (groupCores x true) (r.2.head?.bind fun n => r.1.stream n)
      (r.1.setGroup k g { y with decode := tabSet mb r.2 y.decode, last := r.2.length })

theorem decodeComposed_empty {k g mb : Nat} {x : ServeGroup} {u : State} (h : (decodeBatch u k g mb x).2 = []) :
    decodeComposed k g mb x u = (decodeBatch u k g mb x).1 := if_pos (List.isEmpty_iff.mpr h)

theorem decodeComposed_some {k g mb : Nat} {x : ServeGroup} {u : State} (h : (decodeBatch u k g mb x).2 ≠ []) : decodeComposed k g mb x u =
    loadKey (groupCores x true) ((decodeBatch u k g mb x).2.head?.bind fun n => (decodeBatch u k g mb x).1.stream n)
      ((decodeBatch u k g mb x).1.setGroup k g { (groupImage (decodeBatch u k g mb x).1 k g).getD x with
        decode := tabSet mb (decodeBatch u k g mb x).2 ((groupImage (decodeBatch u k g mb x).1 k g).getD x).decode
        last := (decodeBatch u k g mb x).2.length }) :=
  if_neg (mt List.isEmpty_iff.mp h)

theorem exec_decodeStepCompose {k : Fin 64} {g : Fin 8} {mb : Fin 64} {s : State} (h : canDecodeStepCompose k g mb s = true) :
    ∃ x u, groupImage s k g = some x ∧ composeState s k (g.val, mb.val + 1) = some u ∧
      exec (.decodeStepCompose k g mb) s = .next (inRound k (g.val, mb.val + 1) (watchKv k (decodeComposed k g mb x)) s) := by
  obtain ⟨x, hx, hcomposes⟩ := any_some h
  simp only [Bool.and_eq_true, decide_eq_true_eq] at hcomposes
  obtain ⟨⟨⟨hstage, hidle⟩, hmay⟩, hround⟩ := hcomposes
  obtain ⟨u, hu⟩ := Option.isSome_iff_exists.mp hround
  refine ⟨x, u, hx, hu, ?_⟩
  simp only [exec, execDecodeStepCompose, hx]
  exact congrArg Host.Outcome.next (if_neg (not_or.mpr ⟨Nat.not_le.mpr hstage, not_or.mpr ⟨ns hidle, nn hmay⟩⟩))

/-! ### SERVE_STEP_DONE (R321) -/

/-- The state in which a group's prefill step has ended: its KV is written, and each stream's part is complete. -/
def prefillDone (k g : Nat) (x : ServeGroup) (batch : List (Nat × Nat)) (s : State) : State :=
  watchKv k (fun u => leaveStep (groupCores x false) ((writePrefill x batch u).each batch prefillEnd)) (s.setGroup k g { x with prefill := none })

/-- The state in which a decode step of a microbatch has ended: each stream's part is complete. -/
def decodeDone (k g mb : Nat) (x : ServeGroup) (batch : List Nat) (rows : List LogitRow) (s : State) : State :=
  watchKv k (fun u => leaveStep (groupCores x true) (u.each batch (decodeEnd x.steps rows)))
    (s.setGroup k g { x with decode := tabDel mb x.decode, steps := x.steps + 1 })

theorem serving_prefillDone {x : ServeGroup} {c : Nat} (hc : c ∈ groupCores x false) (k g : Nat) (batch : List (Nat × Nat)) (s : State) :
    ((prefillDone k g x batch s).core c).serving = false := by
  rw [prefillDone, core_watchKv]
  exact serving_leaveStep hc _

theorem serving_decodeDone {x : ServeGroup} {c : Nat} (hc : c ∈ groupCores x true) (k g mb : Nat) (batch : List Nat) (rows : List LogitRow)
    (s : State) : ((decodeDone k g mb x batch rows s).core c).serving = false := by
  rw [decodeDone, core_watchKv]
  exact serving_leaveStep hc _

section
variable {k : Fin 64} {g : Fin 8} {s : State} {x : ServeGroup} (hworks : s.working = true) (hends : mayEnd s k = true)
  (hx : groupImage s k g = some x) (rows : List LogitRow)
include hworks hends hx

theorem exec_serveStepDone_prefill (hholds : holdsCores s k (groupCores x false) = true) {batch : List (Nat × Nat)} (hbatch : x.prefill = some batch) :
    exec (.serveStepDone k g .prefill rows) s = .next (prefillDone k g x batch s) := by
  simp only [exec, execServeStepDone, hx]
  refine congrArg Host.Outcome.next ((if_neg (by simp [hworks, hends])).trans ((if_neg (nn hholds)).trans ?_))
  rw [hbatch]
  rfl

theorem exec_serveStepDone_decode (hholds : holdsCores s k (groupCores x true) = true) {mb : Fin 64} {batch : List Nat}
    (hbatch : tabFind mb.val x.decode = some batch)
    (hrows : (batch.all fun n => rows.any fun r => r.stream == n && (r.poisoned || !r.logits.isEmpty)) = true) :
    exec (.serveStepDone k g (.decode mb) rows) s = .next (decodeDone k g mb x batch rows s) := by
  simp only [exec, execServeStepDone, hx]
  refine congrArg Host.Outcome.next ((if_neg (by simp [hworks, hends])).trans ((if_neg (nn hholds)).trans ?_))
  rw [hbatch]
  exact if_pos hrows

end

/-! ### RESHARD_PAGE and RESHARD_DONE (R334) -/

theorem exec_reshardPage {k : Fin 64} {stream : Fin 65536} {s : State} (h : canReshardPage k stream s = true) :
    ∃ x i rest, s.stream stream = some x ∧ x.left = i :: rest ∧ exec (.reshardPage k stream) s =
      .next (match movePage stream i false true s with
        | none => s.bump (partPage k) Rg.partKvStarvedCount
        | some t => t.setStream stream { (t.stream stream).getD x with left := rest }) := by
  obtain ⟨hworks, hstream⟩ := Bool.and_eq_true_iff.mp h
  obtain ⟨x, hx, hmoves⟩ := any_some hstream
  simp only [Bool.and_eq_true, beq_iff_eq, Bool.not_eq_true'] at hmoves
  obtain ⟨⟨⟨hpart, hstate⟩, hmore⟩, hready⟩ := hmoves
  cases hleft : x.left with
  | nil =>
    rw [hleft] at hmore
    cases hmore
  | cons i rest =>
    rw [hleft] at hready
    refine ⟨x, i, rest, hx, hleft, ?_⟩
    simp only [exec, execReshardPage, hx, hleft]
    exact congrArg Host.Outcome.next ((if_neg (by simp [hworks, hpart, hstate])).trans (if_neg (ne_true_of_eq_false hready)))

/-- A stream whose pages and hidden row have moved. -/
def reshardedStream (x : StreamRun) : StreamRun := { x with first := true, resharded := true, deep := true }

theorem exec_reshardDone {k : Fin 64} {stream : Fin 65536} {s : State} (h : canReshardDone k stream s = true) :
    ∃ x, s.stream stream = some x ∧ exec (.reshardDone k stream) s =
      .next (if x.held = true then s.setStream stream (reshardedStream x)
        else watchKv k (joinDecode stream) (s.setStream stream (reshardedStream x))) := by
  obtain ⟨hworks, hstream⟩ := Bool.and_eq_true_iff.mp h
  obtain ⟨x, hx, hends⟩ := any_some hstream
  simp only [Bool.and_eq_true, beq_iff_eq, Bool.not_eq_true'] at hends
  obtain ⟨⟨⟨hpart, hstate⟩, hempty⟩, hstays⟩ := hends
  refine ⟨x, hx, ?_⟩
  simp only [exec, execReshardDone, hx]
  exact congrArg Host.Outcome.next (if_neg (by simp [hworks, hpart, hstate, hempty, hstays]))

/-! ### The statement -/

/-- Settles O53: each composition by the step that its round allows, each end by its equation, and the cores by what a set's key says of them. -/
theorem servingStepsComplete : Obligations.ServingStepsComplete := by
  unfold Obligations.ServingStepsComplete
  refine ⟨?prefill, ?decode, ?done, ?page, ?resharded⟩
  case prefill =>
    intro k g s h
    obtain ⟨x, u, hx, hu, hexec⟩ := exec_prefillStepCompose h
    obtain ⟨hserve, hcore⟩ := inRound_composes hu (prefillComposed k g x)
    refine ⟨_, hexec, x, u, hx, hu, fun hnone => ?_, fun hsome => ⟨?_, fun y hy c hc => ?_⟩⟩
    · rw [hserve, prefillComposed_empty hnone]
    · rw [hserve, prefillComposed_some hsome, serve_loadKey]
    · rw [hcore, prefillComposed_some hsome, hy]
      exact serving_loadKey hc ..
  case decode =>
    intro k g mb s h
    obtain ⟨x, u, hx, hu, hexec⟩ := exec_decodeStepCompose h
    obtain ⟨hserve, hcore⟩ := inRound_composes hu (watchKv k (decodeComposed k g mb x))
    refine ⟨_, hexec, x, u, hx, hu, fun hnone => ?_, fun hsome => ⟨?_, fun y hy c hc => ?_⟩⟩
    · rw [hserve, serve_watchKv, decodeComposed_empty hnone]
    · rw [hserve, serve_watchKv, decodeComposed_some hsome, serve_loadKey]
    · rw [hcore, core_watchKv, decodeComposed_some hsome, hy]
      exact serving_loadKey hc ..
  case done =>
    intro k g step rows s h
    simp only [canServeStepDone, Bool.and_eq_true] at h
    obtain ⟨⟨hworks, hends⟩, hgroup⟩ := h
    obtain ⟨x, hx, hstep⟩ := any_some hgroup
    obtain ⟨hholds, hbatch⟩ := Bool.and_eq_true_iff.mp hstep
    cases step with
    | prefill =>
      obtain ⟨batch, hbatch⟩ := Option.isSome_iff_exists.mp hbatch
      refine ⟨_, exec_serveStepDone_prefill hworks hends hx rows hholds hbatch, x, hx, fun b _ hb => ?_, nofun⟩
      cases hbatch.symm.trans hb
      exact ⟨fun _ hc => serving_prefillDone hc .., rfl⟩
    | decode mb =>
      obtain ⟨batch, hbatch, hrows⟩ := any_some hbatch
      refine ⟨_, exec_serveStepDone_decode hworks hends hx rows hholds hbatch hrows, x, hx, nofun, fun m b hm hb => ?_⟩
      cases hm
      cases hbatch.symm.trans hb
      exact ⟨fun _ hc => serving_decodeDone hc .., rfl⟩
  case page =>
    intro k stream s h
    obtain ⟨x, i, rest, hx, hleft, hexec⟩ := exec_reshardPage h
    refine ⟨_, hexec, x, i, rest, hx, hleft, fun hstarved => ?_, fun u hmoved => ?_⟩
    · rw [hstarved]
    · rw [hmoved]
  case resharded =>
    intro k stream s h
    obtain ⟨x, hx, hexec⟩ := exec_reshardDone h
    refine ⟨_, hexec, x, hx, fun hheld => ?_, fun hfree => ?_⟩
    · rw [if_pos hheld]
      exact stream_setStream ..
    · rw [if_neg (ne_true_of_eq_false hfree), stream_watchKv]
      obtain ⟨mb, hjoined⟩ := stream_joinDecode (stream_setStream s stream (reshardedStream x))
      exact ⟨_, hjoined, rfl, rfl, rfl, rfl⟩

end Sys2Proof.Machine
end

section
/-! SUPPORT. PART pages (R356): the write that a virtual function may not make is counted, the others are taken. -/

namespace Sys2Proof.Machine

/-- A write that R356 keeps a virtual function from is counted on the HOST page, and nothing else happens. -/
theorem writeAccess_refused {who : Requester} {p : Page} {off : Nat} {s : State} (hup : pathUp s who = true) (hsee : canSee s who p = true)
    (hrefused : partRefused who p off = true) (f : State → State) : writeAccess who p off f s = s.countErrors hostPage 1 := by
  unfold writeAccess
  rw [hup, hsee, hrefused, if_neg (by decide), if_neg (by decide), if_pos rfl]

/-- The offsets of a PART page that a virtual function may write. -/
theorem partWritable_iff (off : Nat) :
    partWritable off = true ↔ (0x100 ≤ off ∧ off < 0x140) ∨ (0x240 ≤ off ∧ off < 0x280) ∨ off = 0x200 := by
  simp [partWritable, or_assoc]

theorem privileged_virtual {fn : Fin 256} (h : fn ≠ 0) : Requester.privileged (.function fn) = false :=
  beq_eq_false_iff_ne.mpr fun e => h (Fin.ext e)

theorem partRefused_virtual {fn : Fin 256} {p : Page} {off : Nat} (hpart : p.kind = .part) (hfn : fn ≠ 0) :
    partRefused (.function fn) p off = !partWritable off := by
  rw [partRefused, hpart, privileged_virtual hfn]
  rfl

theorem partRefused_privileged {who : Requester} (h : Requester.privileged who = true) (p : Page) (off : Nat) : partRefused who p off = false := by
  simp [partRefused, h]

/-- R413 keeps the physical function alone from a page. -/
theorem lockedWrite_virtual {fn : Fin 256} (h : fn ≠ 0) (s : State) (p : Page) : lockedWrite s (.function fn) p = false := by
  have hfn : (fn.val == 0) = false := privileged_virtual h
  simp [lockedWrite, hfn]

/-- A write is taken where its requester sees the page and neither R356, R413 nor a SOFT_RESET of the page keeps it away. -/
theorem writeTaken_of {who : Requester} {p : Page} {off : Nat} {s : State} (hup : pathUp s who = true) (hsee : canSee s who p = true)
    (hfree : partRefused who p off = false) (hlock : lockedWrite s who p = false) (hreset : s.flag p Rg.pageControlSoftReset = false) :
    writeTaken s who p off = true := by
  rw [writeTaken, hup, hsee, hfree, hlock, hreset]
  rfl

/-- Settles O10: a refused write is counted whatever its command, and where nothing refuses it the write is that of the page. -/
theorem partPagesTakeOnlyTheirFunctionsRegisters : Obligations.PartPagesTakeOnlyTheirFunctionsRegisters := by
  unfold Obligations.PartPagesTakeOnlyTheirFunctionsRegisters
  refine ⟨?refused, ?virtual, ?privileged⟩
  case refused =>
    intro c fn p off s htarget hok hfn hpart hup hsee hoff
    obtain ⟨f, hexec⟩ := exec_target htarget hok s
    have hrefused : partRefused (.function fn) p off = true := by
      rw [partRefused_virtual hpart hfn, Bool.eq_false_iff.mpr (mt (partWritable_iff off).mp hoff)]
      rfl
    exact ⟨_, hexec.trans (congrArg _ (writeAccess_refused hup hsee hrefused f)), rfl, reg_countErrors_count ..⟩
  case virtual =>
    intro fn p off value s hp ha hpart hfn hup hsee hreset hoff
    have hfree : partRefused (.function fn) p (off % 0x1000) = false := by
      rw [partRefused_virtual hpart hfn, (partWritable_iff _).mpr hoff]
      rfl
    exact exec_registerWrite_taken hp ha (writeTaken_of hup hsee hfree (lockedWrite_virtual hfn s p) hreset)
  case privileged =>
    intro who p off value s hp ha hpart hwho hup hreset hlock
    have hprivileged : Requester.privileged who = true ∧ canSee s who p = true := by
      obtain rfl | rfl := hwho
      · exact ⟨rfl, rfl⟩
      · exact ⟨rfl, canSee_physical s p⟩
    exact exec_registerWrite_taken hp ha
      (writeTaken_of hup hprivileged.2 (partRefused_privileged hprivileged.1 ..) hlock hreset)

end Sys2Proof.Machine
end

section
/-! SUPPORT. The actions of CTX_CONTROL (R359), slices, starts and restores of contexts (R361 to R368), and the statements on them. -/

namespace Sys2Proof.Machine

/-! ### The actions of CTX_CONTROL (R359) -/

/-- CTX_RESULT reports an action without an error. -/
theorem ctxDone_result (k : Nat) (s : State) :
    (ctxDone k s).reg (partPage k) Rg.partCtxResultCode = 0 ∧ (ctxDone k s).reg (partPage k) Rg.partCtxResultDone = 1 := by
  refine ⟨?_, State.reg_setReg_same ..⟩
  rw [ctxDone, State.reg_setReg_other _ (fieldBit_ne (by decide)), State.reg_setReg_same]
  rfl

/-- An action that is free to run and meets no refusal is done. -/
theorem ctxAction_done {who : Requester} {k c : Nat} {f : State → State ⊕ Nat} {s t : State} (hfree : ctxFree s who k = true)
    (ht : f s = .inl t) : ctxAction who k c f s = ctxDone k t := by
  obtain ⟨htaken, hdone⟩ := Bool.and_eq_true_iff.mp hfree
  rw [ctxAction_access, writeAccess_taken htaken, ctxTaken, if_neg (by rw [hdone]; decide), ht]

/-- Settles O22: each action meets none of its refusals, and CTX_RESULT then reports it. -/
theorem contextActionsComplete : Obligations.ContextActionsComplete := by
  unfold Obligations.ContextActionsComplete
  refine ⟨?activate, ?suspend, ?resume, ?destroy⟩
  case activate =>
    intro who k ctx s h
    simp only [canCtxActivate, Bool.and_eq_true, beq_iff_eq] at h
    obtain ⟨⟨hfree, hempty⟩, hreads⟩ := h
    obtain ⟨⟨y, b⟩, hread, hright⟩ := any_some hreads
    obtain ⟨hrecord, howned⟩ : recordWrong y b = false ∧ maskOwned s k y = true := by simpa using hright
    refine ⟨_, congrArg Host.Outcome.next (ctxAction_done hfree ?_), y, b, hread, (ctxDone_result ..).1, (ctxDone_result ..).2, rfl⟩
    rw [if_neg (by simp [hempty]), hread]
    exact if_neg (by simp [hrecord, howned])
  case suspend =>
    intro who k ctx s h
    simp only [canCtxSuspend, Bool.and_eq_true, Bool.or_eq_true, beq_iff_eq, or_assoc] at h
    obtain ⟨hfree, hstate⟩ := h
    exact ⟨_, congrArg Host.Outcome.next (ctxAction_done hfree (if_pos hstate)), rfl, ctxDone_result ..⟩
  case resume =>
    intro who k ctx s h
    simp only [canCtxResume, Bool.and_eq_true, beq_iff_eq] at h
    obtain ⟨⟨hfree, hsuspended⟩, hreads⟩ := h
    obtain ⟨⟨y, b⟩, hread, hright⟩ := any_some hreads
    obtain ⟨hrecord, hcores⟩ : recordWrong y b = false ∧ maskLost s k y = false := by simpa using hright
    refine ⟨_, congrArg Host.Outcome.next (ctxAction_done hfree ?_), y, b, hread, (ctxDone_result ..).1, (ctxDone_result ..).2, rfl⟩
    rw [if_neg (by simp [hsuspended]), hread]
    exact (if_neg (ne_true_of_eq_false hrecord)).trans (if_neg (ne_true_of_eq_false hcores))
  case destroy =>
    intro who k ctx s h
    simp only [canCtxDestroy, Bool.and_eq_true, bne_iff_ne] at h
    obtain ⟨hfree, hpresent⟩ := h
    exact ⟨_, congrArg Host.Outcome.next (ctxAction_done hfree (if_neg hpresent)), rfl, ctxDone_result ..⟩

/-! ### Slices, starts and restores (R361 to R368) -/

/-- A slice ends: its context is accounted and marked, and the scheduler chooses (R365, R366). -/
def sliceEnded (k ctx : Nat) (s : State) : State :=
  choose k ((accountCtx k ctx s).setCtx k ctx { (accountCtx k ctx s).ctx k ctx with sliceOver := true })

theorem exec_sliceEnd {k : Fin 64} {ctx : Fin 256} {s : State} (h : canSliceEnd k ctx s = true) :
    exec (.sliceEnd k ctx) s = .next (sliceEnded k ctx s) := by
  simp only [canSliceEnd, Bool.and_eq_true, Bool.not_eq_true', beq_iff_eq, bne_iff_ne, decide_eq_true_eq] at h
  obtain ⟨⟨⟨⟨hworks, hruns⟩, hgoes⟩, hpast⟩, hkind⟩ := h
  exact congrArg Host.Outcome.next (if_pos ⟨hworks, hruns, by simp [hgoes], hpast, hkind⟩)

/-- The end of a slice takes no semaphore from its owner and leaves the power as it is. -/
theorem sliceEnded_keeps (k ctx : Nat) (s : State) : (sliceEnded k ctx s).sems = s.sems ∧ (sliceEnded k ctx s).power = s.power := by
  have honly : Only 73426442 s (sliceEnded k ctx s) :=
    .step (choose_only ..) (by decide) (.step (State.setCtx_only ..) (by decide) (accountCtx_only ..))
  exact ⟨honly.sems rfl, honly.power rfl⟩

theorem exec_contextStart {k : Fin 64} {ctx : Fin 256} {s : State} (h : canContextStart k ctx s = true) :
    exec (.contextStart k ctx) s = .next ((s.each (maskCores (s.ctx k ctx).mask) fun c u => clearRegs c (u.setCore c
      { ctx := some ⟨k, ctx⟩, run := .restoring, heldSince := some s.now })).writeCtx k ctx { s.ctx k ctx with
        state := if (s.ctx k ctx).state = 4 then 3 else 2, claiming := false, sliceAt := s.now, sliceOver := false }) := by
  simp only [canContextStart, Bool.and_eq_true, Bool.or_eq_true, beq_iff_eq] at h
  obtain ⟨⟨⟨hworks, hclaims⟩, hstate⟩, hfree⟩ := h
  exact congrArg Host.Outcome.next (if_pos ⟨hworks, hclaims, hstate, hfree⟩)

/-- What the end of a core's restore does to the context that it holds (R361, R368, R523). -/
def coreRestored (c : Nat) (r : CtxRef) (s : State) : State :=
  let x := s.ctx r.part r.ctx
  match tabFind c x.saved with
  | none => firstStart r.part c x s
  | some v =>
    if spillBad s r.part x c then
      choose r.part (endContext r.part r.ctx ((s.error raspPage 0x0703 r.part r.ctx).raise (partPage r.part) 2))
    else
      let t := restoreCore r.part c x v s
      let y := { t.ctx r.part r.ctx with saved := tabDel c x.saved }
      if holdsTrap t r.part r.ctx then t.writeCtx r.part r.ctx { y with state := 5 } else t.setCtx r.part r.ctx y

theorem exec_contextRestoreDone {c : Fin 160} {s : State} (h : canContextRestoreDone c s = true) :
    ∃ r, (s.core c).ctx = some r ∧ exec (.contextRestoreDone c) s = .next (coreRestored c r s) := by
  simp only [canContextRestoreDone, Bool.and_eq_true, beq_iff_eq] at h
  obtain ⟨⟨hworks, hrestores⟩, hheld⟩ := h
  obtain ⟨r, hr⟩ := Option.isSome_iff_exists.mp hheld
  refine ⟨r, hr, congrArg Host.Outcome.next ?_⟩
  rw [hr]
  exact if_pos ⟨hworks, hrestores⟩

theorem coreRestored_first {c : Nat} {r : CtxRef} {s : State} (h : tabFind c (s.ctx r.part r.ctx).saved = none) :
    coreRestored c r s = firstStart r.part c (s.ctx r.part r.ctx) s := by
  rw [coreRestored, h]

/-- The context as a restored core leaves it: the core's state is no longer among what is saved. -/
def ctxRestored (c : Nat) (r : CtxRef) (v : SavedCore) (s : State) : Ctx :=
  { (restoreCore r.part c (s.ctx r.part r.ctx) v s).ctx r.part r.ctx with saved := tabDel c (s.ctx r.part r.ctx).saved }

section
variable {c : Nat} {r : CtxRef} {s : State} {v : SavedCore} (hv : tabFind c (s.ctx r.part r.ctx).saved = some v)
include hv

theorem coreRestored_spillBad (h : spillBad s r.part (s.ctx r.part r.ctx) c = true) : coreRestored c r s =
    choose r.part (endContext r.part r.ctx ((s.error raspPage 0x0703 r.part r.ctx).raise (partPage r.part) 2)) := by
  rw [coreRestored, hv]
  exact if_pos h

theorem coreRestored_saved (h : spillBad s r.part (s.ctx r.part r.ctx) c = false) : coreRestored c r s =
    if holdsTrap (restoreCore r.part c (s.ctx r.part r.ctx) v s) r.part r.ctx then
      (restoreCore r.part c (s.ctx r.part r.ctx) v s).writeCtx r.part r.ctx { ctxRestored c r v s with state := 5 }
    else (restoreCore r.part c (s.ctx r.part r.ctx) v s).setCtx r.part r.ctx (ctxRestored c r v s) := by
  rw [coreRestored, hv]
  exact if_neg (ne_true_of_eq_false h)

end

/-- Settles O23: each event by its equation, a slice by its frame, a restore by what is saved of the core. -/
theorem contextSchedulingComplete : Obligations.ContextSchedulingComplete := by
  unfold Obligations.ContextSchedulingComplete
  refine ⟨?slice, ?start, ?restore⟩
  case slice => exact fun k ctx s h => ⟨_, exec_sliceEnd h, rfl, sliceEnded_keeps ..⟩
  case start => exact fun k ctx s h => ⟨_, exec_contextStart h, rfl⟩
  case restore =>
    intro c s h
    obtain ⟨r, hr, hexec⟩ := exec_contextRestoreDone h
    refine ⟨_, hexec, r, hr, coreRestored_first, fun v hv => ⟨coreRestored_spillBad hv, fun hgood => ?_⟩⟩
    rw [coreRestored_saved hv hgood]
    exact ⟨ctxRestored c r v s, rfl, fun hplain => if_neg (ne_true_of_eq_false hplain), fun htrap => if_pos htrap⟩

end Sys2Proof.Machine
end

section
/-! SUPPORT. The requests of a core's fabric engine (R374, R447 to R451), and the statement on them. -/

namespace Sys2Proof.Machine

/-! ### FABRIC_INJECT (R374, R447) -/

/-- A request that neither waits for a resend nor exceeds its quota nor is replayed is sent. -/
theorem sendRequest_sends {s : State} {k dest : Nat} {pkt : Packet} (hid : s.flag fabrPage Rg.fabrDeviceIdValid = true)
    (hresend : resendDue s dest (vcOf pkt) = false)
    (hquota : outstanding s k (vcOf pkt) < s.reg (partPage k) Rg.partFabricQuotaQuota (vcOf pkt - 1)) (hreplay : replaying s k = false)
    (c : Nat) (q : FabricCmd) (left : Nat) (posted : Bool) : sendRequest c k q pkt dest left posted s =
      flush ((enterReq c q pkt dest left posted (noteRequest k pkt (operandTouch c k (fabDesc q.cmd.desc) q.injected s))).sendPackets [pkt]) := by
  unfold sendRequest
  dsimp only
  rw [hid, hresend, decide_eq_false (Nat.not_le.mpr hquota), hreplay]
  rfl

theorem exec_fabricInject {c : Fin 160} {s : State} {k : Nat} {q : FabricCmd} {pkt : Packet} {d : Nat}
    (h : injectsRemote s c = some (k, q, pkt, d)) : exec (.fabricInject c) s =
      .next (flush ((enterReq c q pkt d 1 (postedOp (fabDesc q.cmd.desc).op)
        (noteRequest k pkt (operandTouch c k (fabDesc q.cmd.desc) q.injected s))).sendPackets [pkt])) := by
  unfold injectsRemote at h
  split at h
  case h_2 => cases h
  case h_1 ctx q' req hctx hq hreq =>
    dsimp only at h
    split at h
    case h_2 => cases h
    case h_1 data pe hdata hpe =>
      split at h
      case h_2 => cases h
      case h_1 d' addr hplace =>
        obtain ⟨hall, hsame⟩ := Option.ite_none_right_eq_some.mp h
        cases hsame
        simp only [Bool.and_eq_true, Bool.not_eq_true', bne_iff_ne, Bool.and_eq_false_iff, decide_eq_true_eq] at hall
        obtain ⟨⟨⟨⟨⟨⟨⟨⟨hinjects, hserves⟩, hquench⟩, hop⟩, hcached⟩, hid⟩, hresend⟩, hquota⟩, hreplay⟩ := hall
        have hgroup : ¬(inGroup s d = true ∧ (fabDesc q.cmd.desc).op ≤ 2) := fun hg => hcached.elim (by simp [hg.1]) (by simp [hg.2])
        simp only [exec, execFabricInject, hctx, hq, hreq]
        rw [if_neg (by simp [hinjects, hserves, hquench]), hdata]
        dsimp only
        rw [if_neg hop, hpe]
        dsimp only
        rw [hplace]
        exact congrArg Host.Outcome.next ((if_neg hgroup).trans (sendRequest_sends hid hresend hquota hreplay ..))

/-! ### FABRIC_RESPONSE (R448, R450) -/

theorem exec_fabricResponse {pkt : Packet} {s : State} (h : canFabricResponse pkt s = true) :
    exec (.fabricResponse pkt) s = .next (takeRx pkt (takeResponse pkt (splitPairs pkt s))) := by
  simp only [canFabricResponse, Bool.and_eq_true, beq_iff_eq, decide_eq_true_eq] at h
  obtain ⟨⟨⟨⟨⟨hworks, hanswer⟩, hhere⟩, hready⟩, hcore⟩, hasked⟩ := h
  obtain ⟨r, hr, hroom⟩ := any_some hasked
  refine congrArg Host.Outcome.next ((if_neg (by simp [hworks, hanswer, hhere, hready])).trans ((if_pos hcore).trans ?_))
  rw [show ((splitPairs pkt s).core pkt.core.toNat).requests.find? (fun r => r.req == pkt.req.toNat) = some r from hr]
  exact if_neg (nb hroom)

/-! ### FABRIC_COMMAND_DONE (R140, R448) -/

theorem finishTag_fabricQueue (tag : Option Nat) (e : Bool) (x : Core) : (finishTag tag e x).fabricQueue = x.fabricQueue := by
  cases tag <;> rfl

/-- A core whose fabric command is over: the command leaves the queue, and its tag is done. -/
def commandEnded (q : FabricCmd) (x : Core) : Core :=
  finishTag q.cmd.tag q.error { x with fabricQueue := x.fabricQueue.filter fun e => e.serial != q.serial }

theorem exec_fabricCommandDone {c : Fin 160} {s : State} (h : canFabricCommandDone c s = true) :
    ∃ q, (s.core c).fabricQueue.find? (commandOver (s.core c)) = some q ∧
      exec (.fabricCommandDone c) s = .next (s.setCore c (commandEnded q (s.core c))) := by
  obtain ⟨hworks, hover⟩ := Bool.and_eq_true_iff.mp h
  obtain ⟨q, hq⟩ := Option.isSome_iff_exists.mp hover
  refine ⟨q, hq, ?_⟩
  simp only [exec, execFabricCommandDone, hq]
  exact congrArg Host.Outcome.next (if_pos hworks)

/-! ### REFUSED_RETRY and REQ_TIMEOUT (R450, R451) -/

/-- A refused request of a core is sent once more: it is no longer refused, and it counts as sent now. -/
def resent (c : Nat) (r : FabReq) (s : State) : State :=
  s.modCore c fun x => { x with requests := x.requests.map fun (q : FabReq) =>
    if q.order = r.order then { q with refusedUntil := none, sentAt := s.now } else q }

theorem exec_refusedRetry {c : Fin 160} {s : State} {r : FabReq} (hr : retryDue s c = some r) (haway : r.dest ≠ selfDevice s) :
    exec (.refusedRetry c) s = .next (flush ((resent c r s).sendPackets [{ r.packet with retry := true }])) := by
  obtain ⟨hfind, hdue⟩ := Option.filter_eq_some_iff.mp hr
  simp only [Bool.and_eq_true] at hdue
  obtain ⟨⟨⟨hinjects, hfirst⟩, hpast⟩, hquench⟩ := hdue
  simp only [exec, execRefusedRetry, hfind]
  exact congrArg Host.Outcome.next ((if_pos ⟨hinjects, hfirst, hpast, hquench⟩).trans (if_neg haway))

theorem exec_reqTimeout {c : Fin 160} {req : BitVec 8} {s : State} (h : canReqTimeout c req s = true) :
    ∃ r, ((s.core c).requests.find? fun r => r.req == req.toNat) = some r ∧
      exec (.reqTimeout c req) s = .next (answerReq c { r with left := 1 } 4 0 0x0344 [] s) := by
  obtain ⟨halive, hasked⟩ := Bool.and_eq_true_iff.mp h
  obtain ⟨r, hr, hpast⟩ := any_some hasked
  refine ⟨r, hr, ?_⟩
  simp only [exec, execReqTimeout, hr]
  exact congrArg Host.Outcome.next (if_pos ⟨halive, of_decide_eq_true hpast⟩)

/-! ### The statement -/

/-- Settles O39: each command by its equation; a command that is over leaves the queue with its tag done. -/
theorem fabricRequestsComplete : Obligations.FabricRequestsComplete := by
  unfold Obligations.FabricRequestsComplete
  refine ⟨?inject, ?response, ?done, ?retry, ?timeout⟩
  case inject =>
    intro c s h
    obtain ⟨⟨k, q, pkt, d⟩, hsent⟩ := Option.isSome_iff_exists.mp h
    exact ⟨_, exec_fabricInject hsent, k, q, pkt, d, hsent, rfl⟩
  case response => exact fun pkt s h => ⟨_, exec_fabricResponse h, rfl⟩
  case done =>
    intro c s h
    obtain ⟨q, hq, hexec⟩ := exec_fabricCommandDone h
    refine ⟨_, hexec, q, hq, ?_, fun tag htag => ?_, rfl, rfl⟩
    · rw [State.core_setCore_same, commandEnded, finishTag_fabricQueue]
    · rw [State.core_setCore_same]
      exact finishTag_done htag ..
  case retry =>
    intro c s h
    obtain ⟨r, hr, haway⟩ := any_some h
    exact ⟨_, exec_refusedRetry hr (bne_iff_ne.mp haway), r, hr, rfl⟩
  case timeout =>
    intro c req s h
    obtain ⟨r, hr, hexec⟩ := exec_reqTimeout h
    exact ⟨_, hexec, r, hr, rfl⟩

end Sys2Proof.Machine
end

section
/-! SUPPORT. Partitions enabled, resized, exported and imported, and functions reset (R352, R376 to R381, R391, R414, R415), and the statement on
them. -/

namespace Sys2Proof.Machine

/-! ### PART_ENABLE (R352) -/

theorem exec_partEnable {who : Requester} {k : Fin 64} {s : State} (h : canPartEnable who k s = true) :
    exec (.partEnable who k) s = .next (enableNow k 0 s) := by
  simp only [canPartEnable, Bool.and_eq_true, Bool.not_eq_true'] at h
  obtain ⟨⟨htaken, hoff⟩, hright⟩ := h
  refine congrArg Host.Outcome.next ((writeAccess_taken htaken).trans ((if_neg (ne_true_of_eq_false hoff)).trans ?_))
  rw [Option.isNone_iff_eq_none.mp hright]

/-! ### RESIZE_START and RESIZE_DONE (R376) -/

/-- What holds of every entry of a list rules out what it excludes in each. -/
theorem not_any_of_all {α : Type} {l : List α} {p q : α → Bool} (h : l.all p = true) (hq : ∀ x, p x = true → q x = false) : ¬l.any q = true := by
  intro hany
  obtain ⟨x, hx, hqx⟩ := List.any_eq_true.mp hany
  rw [hq x (List.all_eq_true.mp h x hx)] at hqx
  cases hqx

theorem not_and_of_or_not {a b : Bool} (h : (a || !b) = true) : (!a && b) = false := by
  cases a
  · simpa using h
  · rfl

/-- The cores and signal cores that the targets of a partition name, as its resize remembers them. -/
def resizeTargets (k : Nat) (s : State) : BitVec 160 × BitVec 64 :=
  (BitVec.ofNat 160 ((targetBits s k 160 Rg.partCoreTargetCores).foldl (fun m c => m ||| 2 ^ c) 0),
   BitVec.ofNat 64 ((targetBits s k 64 Rg.partSigcTargetCores).foldl (fun m c => m ||| 2 ^ c) 0))

/-- The masks of a resize that begins: the cores of the target join those owned, and the signal cores are those of the target. -/
def masksWidened (k : Nat) (s : State) : State :=
  setOwned k 2 Rg.partSigcMaskCores (targetBits s k 64 Rg.partSigcTargetCores)
    (setOwned k 5 Rg.partCoreMaskCores
      ((List.range 160).filter fun c => (ownCores s k).contains c || (targetBits s k 160 Rg.partCoreTargetCores).contains c) s)

/-- The resize of a partition has begun. -/
def resizeBegun (k : Nat) (s : State) : State :=
  choose k (setFloor k ((modPart k (fun x => { x with resize := some (resizeTargets k s) }) (masksWidened k s)).setReg (partPage k) Rg.partResizeBusy 1))

theorem exec_resizeStart {who : Requester} {k : Fin 64} {s : State} (h : canResizeStart who k s = true) :
    exec (.resizeStart who k) s = .next (resizeBegun k s) := by
  simp only [canResizeStart, ← Option.not_isSome, Bool.and_eq_true, Bool.not_eq_true'] at h
  obtain ⟨⟨⟨⟨⟨htaken, hidle⟩, hcores⟩, hsigcs⟩, hcoresFree⟩, hsigcsFree⟩ := h
  refine congrArg Host.Outcome.next ((writeAccess_taken htaken).trans ((if_neg (ne_true_of_eq_false hidle)).trans ?_))
  have hkept := not_or.mpr ⟨not_any_of_all hcores fun _ => not_and_of_or_not, not_any_of_all hsigcs fun _ => not_and_of_or_not⟩
  have hfree := not_or.mpr ⟨not_any_of_all hcoresFree fun _ => not_and_of_or_not, not_any_of_all hsigcsFree fun _ => not_and_of_or_not⟩
  exact (if_neg hkept).trans (if_neg hfree)

theorem setFloor_other {k : Nat} {q : Page} {g : RegField} {j : Nat} (h : fieldBit q g j ≠ fieldBit (partPage k) Rg.partRadioStatusFloorCores 0)
    (s : State) : (setFloor k s).reg q g j = s.reg q g j :=
  ite_prop (fun u : State => u.reg q g j = s.reg q g j) (fun _ => State.reg_setReg_other _ h _) (fun _ => rfl)

theorem resizeBegun_busy (k : Nat) (s : State) : (resizeBegun k s).reg (partPage k) Rg.partResizeBusy = 1 := by
  rw [resizeBegun, frames (choose_only ..), setFloor_other (fieldBit_ne (by decide)), State.reg_setReg_same]
  rfl

theorem partRun_modPart (k : Nat) (f : PartRun → PartRun) (s : State) : tabGet {} k (modPart k f s).parts = f (tabGet {} k s.parts) :=
  tabGet_put_same ..

theorem resizeBegun_resize (k : Nat) (s : State) : (tabGet {} k (resizeBegun k s).parts).resize = some (resizeTargets k s) := by
  rw [resizeBegun, (choose_only ..).parts rfl, (setFloor_only ..).parts rfl, State.setReg_parts, partRun_modPart]

/-- The resize of a partition is done: it owns the cores of the target. -/
def resizeEnded (k : Nat) (m : BitVec 160) (s : State) : State :=
  (setBudgets (setFloor k ((modPart k (fun x => { x with resize := none }) (setOwned k 5 Rg.partCoreMaskCores (maskCores m) s)).setReg (partPage k) Rg.partResizeBusy 0
    |>.setReg (partPage k) Rg.partResizeResult 0))).raise (partPage k) 1

theorem exec_resizeDone {k : Fin 64} {s : State} (h : canResizeDone k s = true) :
    ∃ m g, (tabGet {} k.val s.parts).resize = some (m, g) ∧ exec (.resizeDone k) s = .next (resizeEnded k m s) := by
  obtain ⟨halive, hresizes⟩ := Bool.and_eq_true_iff.mp h
  obtain ⟨⟨m, g⟩, hresize, hfree⟩ := any_some hresizes
  refine ⟨m, g, hresize, ?_⟩
  simp only [exec, execResizeDone, hresize]
  refine congrArg Host.Outcome.next (if_neg ?_)
  exact not_or.mpr ⟨nn halive, not_any_of_all hfree fun c hc => by simpa [and_assoc] using hc⟩

theorem resizeEnded_resize (k : Nat) (m : BitVec 160) (s : State) : (tabGet {} k (resizeEnded k m s).parts).resize = none := by
  rw [resizeEnded, State.raise_parts, (setBudgets_only ..).parts rfl, (setFloor_only ..).parts rfl, State.setReg_parts, State.setReg_parts, partRun_modPart]

/-! ### ALLOT_WRITE and DIRTY_ATOMIC_COMPLETION (R377, R379) -/

/-- A field takes the bits of a value that its width holds. -/
theorem State.setReg_mod (s : State) (p : Page) (f : RegField) (v i : Nat) : s.setReg p f (v % 2 ^ f.len) i = s.setReg p f v i := by
  unfold State.setReg fieldSet
  rw [Nat.mod_mod]

theorem exec_allotWrite {who : Requester} {k : Fin 64} {bulk : Bool} {value : BitVec 32} {s : State} (h : canAllotWrite who k bulk value s = true) :
    exec (.allotWrite who k bulk value) s = .next (s.setReg (partPage k) (allotField bulk) value.toNat) := by
  simp only [canAllotWrite, Bool.and_eq_true, Bool.or_eq_true, decide_eq_true_eq] at h
  obtain ⟨htaken, hfits⟩ := h
  refine congrArg Host.Outcome.next ((writeAccess_taken htaken).trans (Eq.trans ?_ (State.setReg_mod ..)))
  rcases hfits with hoff | ⟨hused, hroom⟩
  · exact if_pos hoff
  · rw [if_neg (Nat.not_lt.mpr hused), if_neg (Nat.not_lt.mpr hroom)]
    exact ite_self _

/-- The dirty log of a partition has stopped, and its error is recorded. -/
def dirtyStopped (k : Nat) (s : State) : State :=
  (((s.setReg (partPage k) Rg.partDirtyControlEnable 0).setReg (partPage k) Rg.partDirtyControlAtomicFail 1).error (partPage k) 0x0609 0 0x280).raise
    (partPage k) 4

theorem exec_dirtyAtomicCompletion {k : Fin 64} {ok : Bool} {s : State} (h : canDirtyAtomicCompletion k ok s = true) :
    exec (.dirtyAtomicCompletion k ok) s = .next (dirtyStopped k s) := by
  simp only [canDirtyAtomicCompletion, Bool.and_eq_true] at h
  obtain ⟨⟨halive, hfails⟩, hlogs⟩ := h
  exact congrArg Host.Outcome.next (if_neg (by simp [halive, nb hfails, hlogs]))

theorem dirtyStopped_control (k : Nat) (s : State) : (dirtyStopped k s).reg (partPage k) Rg.partDirtyControlEnable = 0 ∧
    (dirtyStopped k s).reg (partPage k) Rg.partDirtyControlAtomicFail = 1 := by
  constructor
  · rw [dirtyStopped, State.reg_raise_off _ (offHeader_same (by decide)), State.reg_error_off _ (offHeader_same (by decide)),
      State.reg_setReg_other _ (fieldBit_ne (by decide)), State.reg_setReg_same]
    rfl
  · rw [dirtyStopped, State.reg_raise_off _ (offHeader_same (by decide)), State.reg_error_off _ (offHeader_same (by decide)), State.reg_setReg_same]
    rfl

/-! ### EXPORT_STATE and LOAD_OBJECT_STATE (R380, R381) -/

/-- A partition whose state is to be exported: it is marked, and the contexts that run or have trapped leave their cores. -/
def exportMarked (k : Nat) (s : State) : State :=
  let t := modPart k (fun x => { x with exported := true }) s
  let t := t.each ((ctxsOf t k).filter fun n => (t.ctx k n).state == 2) fun n u => askPreempt k n u
  t.each ((ctxsOf t k).filter fun n => (t.ctx k n).state == 5) fun n u => forceSave k n u

theorem exec_exportState {q : CmdRef} {s : State} {c : Cmd} (hc : startedCmd s q [0x40] true = some c) (hclean : paramsClean c [(0x18, 0, 3)] = true)
    (hkind : isRadio (startedState c s) c.part = false)
    (hfirst : ((startedState c s).host.longs.any fun l => cmdOp l.cmd == 0x40 && l.cmd.part == c.part) = false)
    (hslot : (tabFind (c.field 0x18 0 3) (startedState c s).mgmt.keySlots).isSome = true) :
    exec (.exportState q) s = .next (startLong c 1 [] (exportMarked c.part (startedState c s)) 0 (c.field 0x18 0 3)) := by
  refine congrArg Host.Outcome.next ((startCmd_runs hc _).trans ?_)
  dsimp only
  rw [if_neg (nn hclean), if_neg (ne_true_of_eq_false hkind), if_neg (ne_true_of_eq_false hfirst), if_neg (ni hslot)]
  rfl

theorem exportMarked_host (k : Nat) (s : State) : (exportMarked k s).host = s.host := by
  unfold exportMarked
  dsimp only
  rw [each_keep State.host fun n u => (forceSave_only k n u).host rfl, each_keep State.host fun n u => (askPreempt_only k n u).host rfl]
  rfl

theorem exportMarked_exported (k : Nat) (s : State) : (tabGet {} k (exportMarked k s).parts).exported = true := by
  unfold exportMarked
  dsimp only
  rw [each_keep State.parts fun n u => (forceSave_only k n u).parts rfl, each_keep State.parts fun n u => (askPreempt_only k n u).parts rfl, partRun_modPart]

/-- A long operation that begins is the last of those that run, and names its command, started, and its unit. -/
theorem startLong_longs (c : Cmd) (total : Nat) (data : List Byte) (s : State) (kind unit : Nat) :
    ∃ l, (startLong c total data s kind unit).host.longs = s.host.longs ++ [l] ∧ l.cmd = { c with started := true } ∧ l.unit = unit :=
  ⟨_, rfl, rfl, rfl⟩

/-- What LOAD_OBJECT of kind partition state does once its data have been read: the blob is opened, its shape compared, and what would refuse the
partition is looked for before the import begins. -/
def importTaken (c : Cmd) (slot : KeySlot) (b : List Byte) (s : State) : State :=
  match Config.blobOpen slot.key slot.peer b with
  | none => complete c 0x0503 0 s
  | some blob =>
    if !blobFits s c.part blob then complete c 0x0606 0 s
    else
      match enableRefused (s.setReg (partPage c.part) Rg.partConfigKind (blobReg blob Rg.partConfigKind)) c.part with
      | some e => complete c e.1 0 s
      | none => startLong c b.length b s 3 (c.field 0x18 0 3)

theorem exec_loadObjectState {q : CmdRef} {data : HostData} {s : State} (h : canLoadObjectState q data s = true) :
    ∃ c slot b, startedCmd s q [0x13] true = some c ∧ tabFind (c.field 0x18 0 3) s.mgmt.keySlots = some slot ∧ cmdData s c data (cmdLen c) = some b ∧
      exec (.loadObjectState q data) s = .next (importTaken c slot b (dataState c (cmdLen c) b s)) := by
  obtain ⟨c, hc, hloads⟩ := any_some h
  obtain ⟨hslot, hdata⟩ := Bool.and_eq_true_iff.mp hloads
  obtain ⟨slot, hslot⟩ := Option.isSome_iff_exists.mp hslot
  obtain ⟨b, hb⟩ := Option.isSome_iff_exists.mp hdata
  refine ⟨c, slot, b, hc, hslot, hb, congrArg Host.Outcome.next ((startCmd_data hc (by decide) _).trans ?_)⟩
  rw [hslot]
  exact withData_ok hb _

/-- A blob that opens, has the partition's shape and leaves nothing against enabling it is imported. -/
theorem importTaken_starts {c : Cmd} {slot : KeySlot} {b : List Byte} {s : State} {blob : PartBlob}
    (hopen : Config.blobOpen slot.key slot.peer b = some blob) (hfits : blobFits s c.part blob = true)
    (hright : enableRefused (s.setReg (partPage c.part) Rg.partConfigKind (blobReg blob Rg.partConfigKind)) c.part = none) :
    importTaken c slot b s = startLong c b.length b s 3 (c.field 0x18 0 3) := by
  rw [importTaken, hopen]
  dsimp only
  rw [if_neg (nn hfits), hright]

theorem importTaken_sealed {c : Cmd} {slot : KeySlot} {b : List Byte} (hopen : Config.blobOpen slot.key slot.peer b = none) (s : State) :
    importTaken c slot b s = complete c 0x0503 0 s := by
  rw [importTaken, hopen]

/-! ### DELETE_CQ (R391) -/

theorem exec_deleteCq {q : CmdRef} {s : State} (h : canDeleteCq q s = true) :
    ∃ c, startedCmd s q [0x05] false = some c ∧ exec (.deleteCq q) s =
      .next (complete c 0 0 (deleteCqState (.num (Fin.ofNat 262144 (c.field 0x18 0 18))) (startedState c s))) := by
  obtain ⟨c, hc, hdeletes⟩ := any_some h
  simp only [Bool.and_eq_true] at hdeletes
  obtain ⟨⟨⟨⟨hopen, hnamed⟩, hexists⟩, hsqs⟩, hstreams⟩ := hdeletes
  refine ⟨c, hc, congrArg Host.Outcome.next ((startCmd_runs hc _).trans ?_)⟩
  dsimp only
  rw [if_neg (nb hopen), if_neg (nn hnamed), if_neg (ni hexists), if_neg (not_or.mpr ⟨nb hsqs, nb hstreams⟩)]

/-! ### The FLRs (R414, R415) -/

theorem exec_flrVf {fn : Fin 256} {s : State} (h : canFlrVf fn s = true) : exec (.flrVf fn) s = .next (flrVf fn s) := by
  simp only [canFlrVf, Bool.and_eq_true, bne_iff_ne] at h
  obtain ⟨⟨halive, hlink⟩, hfn⟩ := h
  exact congrArg Host.Outcome.next (if_pos ⟨halive, hlink, fun e => hfn (Fin.ext e)⟩)

/-- The FLR of a function leaves none of its vectors, neither in the table nor pending. -/
theorem flrVf_vectors (fn : Nat) (s : State) :
    (∀ e ∈ (flrVf fn s).host.msix, e.1 / 4096 ≠ fn) ∧ (∀ v ∈ (flrVf fn s).host.vectorPending, v / 4096 ≠ fn) :=
  ⟨fun _ he => bne_iff_ne.mp (List.mem_filter.mp he).2, fun _ hv => bne_iff_ne.mp (List.mem_filter.mp hv).2⟩

/-- The virtual functions have been reset and the PF's own queues are gone, the admin pair with them. -/
def pfQueuesGone (s : State) : State :=
  let t := s.each ((List.range 255).map (· + 1)) flrVf
  let q := queuesOf t fun p => match p with
    | some k => functionOf t k == 0
    | none => true
  deleteCqState .admin (deleteSqState .admin (deleteQueues q.1 q.2 t))

/-- The admin pair is off, and the cells of the PF's radio partitions are marked to stop. -/
def pfStopped (s : State) : State :=
  let t := (s.setReg hostPage Rg.hostAdminControlEnable 0).setReg hostPage Rg.hostAdminControlReady 0
  t.each ((List.range 64).filter fun k => functionOf t k == 0 && isRadio t k) fun k u =>
    u.setRadio k { u.radioOf k with cells := (u.radioOf k).cells.map fun e => (e.1, { e.2 with flr := true }) }

theorem exec_flrPf {s : State} (h : canFlrPf s = true) : exec .flrPf s = .next (pfStopped (pfQueuesGone s)) := by
  obtain ⟨halive, hlink⟩ := Bool.and_eq_true_iff.mp h
  exact congrArg Host.Outcome.next (if_pos ⟨halive, hlink⟩)

theorem pfStopped_admin (s : State) : (pfStopped s).reg hostPage Rg.hostAdminControlEnable = 0 ∧
    (pfStopped s).reg hostPage Rg.hostAdminControlReady = 0 := by
  have hregs : (pfStopped s).regs = ((s.setReg hostPage Rg.hostAdminControlEnable 0).setReg hostPage Rg.hostAdminControlReady 0).regs := by
    rw [pfStopped]
    exact each_keep State.regs (fun k u => (State.setRadio_only u k _).regs rfl) ..
  constructor
  · rw [reg_of_regs hregs, State.reg_setReg_other _ (fieldBit_ne (by decide)), State.reg_setReg_same]
    rfl
  · rw [reg_of_regs hregs, State.reg_setReg_same]
    rfl

/-! ### The statement -/

/-- Settles O42: each command by its equation, and the registers, resizes and operations by the lemmas about the state it leads to. -/
theorem partitionCommandsComplete : Obligations.PartitionCommandsComplete := by
  unfold Obligations.PartitionCommandsComplete
  refine ⟨?enable, ?resizeStart, ?resizeDone, ?allot, ?dirty, ?exportState, ?loadState, ?deleteCq, ?flrVf, ?flrPf⟩
  case enable => exact fun who k s h => ⟨_, exec_partEnable h, rfl⟩
  case resizeStart =>
    exact fun who k s h => ⟨_, exec_resizeStart h, resizeBegun_busy .., Option.isSome_iff_exists.mpr ⟨_, resizeBegun_resize ..⟩⟩
  case resizeDone =>
    intro k s h
    obtain ⟨m, g, hresize, hexec⟩ := exec_resizeDone h
    exact ⟨_, hexec, m, g, hresize, resizeEnded_resize .., rfl⟩
  case allot => exact fun who k bulk value s h => ⟨_, exec_allotWrite h, rfl⟩
  case dirty =>
    intro k ok s h
    refine ⟨_, exec_dirtyAtomicCompletion h, (dirtyStopped_control ..).1, (dirtyStopped_control ..).2, ?_⟩
    rw [dirtyStopped, State.raise_mem, State.error_mem, State.setReg_mem, State.setReg_mem]
  case exportState =>
    intro q s h
    obtain ⟨c, hc, hexports⟩ := any_some h
    simp only [Bool.and_eq_true, Bool.not_eq_true'] at hexports
    obtain ⟨⟨⟨hclean, hkind⟩, hfirst⟩, hslot⟩ := hexports
    refine ⟨_, exec_exportState hc hclean hkind hfirst hslot, c, hc, ?_, ?_⟩
    · rw [(startLong_only ..).parts rfl]
      exact exportMarked_exported ..
    · rw [← exportMarked_host c.part (startedState c s)]
      exact startLong_longs ..
  case loadState =>
    intro q data s h
    obtain ⟨c, slot, b, hc, hslot, hb, hexec⟩ := exec_loadObjectState h
    exact ⟨_, hexec, c, slot, b, hc, hslot, hb, fun blob => importTaken_starts, fun hopen => importTaken_sealed hopen _⟩
  case deleteCq =>
    intro q s h
    obtain ⟨c, hc, hexec⟩ := exec_deleteCq h
    exact ⟨_, hexec, c, hc, rfl⟩
  case flrVf => exact fun fn s h => ⟨_, exec_flrVf h, rfl, flrVf_vectors ..⟩
  case flrPf => exact fun s h => ⟨_, exec_flrPf h, pfStopped_admin _⟩

end Sys2Proof.Machine
end

section
/-! SUPPORT. Interrupt messages: a vector is signalled where its condition becomes true, a masked one holds a message until it is unmasked (R52, R384,
R410), and the statement on them. -/

namespace Sys2Proof.Machine

/-! ### Signalling a vector, and telling the lead -/

theorem State.signal_false (s : State) (fn vector : Nat) : s.signal false fn vector = s := rfl

/-- A vector that nothing holds sends its message. -/
theorem State.signal_open {s : State} {fn vector : Nat} (hmask : vectorMasked s (msixKey fn vector) = false) (hlink : s.host.linkUp = true) :
    s.signal true fn vector = s.emit (.msix fn vector) := by
  have hheld : (vectorMasked s (msixKey fn vector) || !s.host.linkUp) = false := by
    rw [hmask, hlink]
    rfl
  unfold State.signal
  dsimp only
  rw [hheld]
  rfl

/-- The pending bits with a vector's bit set. -/
def pendingWith (key : Nat) (pending : List Nat) : List Nat := if pending.contains key then pending else pending ++ [key]

theorem contains_pendingWith_same (key : Nat) (pending : List Nat) : (pendingWith key pending).contains key = true := by
  unfold pendingWith
  split
  case isTrue h => exact h
  case isFalse => simp

theorem contains_pendingWith_other {key other : Nat} (h : other ≠ key) (pending : List Nat) :
    (pendingWith key pending).contains other = pending.contains other := by
  unfold pendingWith
  split
  case isTrue => rfl
  case isFalse => simp [h]

/-- A masked vector keeps its message back in its pending bit. -/
theorem State.signal_masked {s : State} {fn vector : Nat} (hmask : vectorMasked s (msixKey fn vector) = true) :
    s.signal true fn vector =
      { s with host := { s.host with vectorPending := pendingWith (msixKey fn vector) s.host.vectorPending } } := by
  simp only [State.signal, hmask, pendingWith]
  cases s.host.vectorPending.contains (msixKey fn vector) <;> rfl

theorem State.tellLead_false (s : State) : s.tellLead false = s := rfl

theorem State.tellLead_true (s : State) : s.tellLead true = { s with out := s.out ++ leadMessage s } := by
  unfold State.tellLead leadMessage
  dsimp only
  split <;> simp_all

/-! ### The condition of a page becomes true -/

/-- Bits of a page's INT_STATUS stand, and nothing else has changed. -/
def statusWith (p : Page) (bits : Nat) (s : State) : State := s.setReg p Rg.pageIntStatus (s.reg p Rg.pageIntStatus ||| bits)

/-- The condition of R52 does not stand on a page, and does with those bits. -/
def conditionRises (p : Page) (bits : Nat) (s : State) : Bool := !intCondition s.regs p && intCondition (statusWith p bits s).regs p

theorem raiseBits_eq (p : Page) (bits : Nat) (s : State) : s.raiseBits p bits =
    ((statusWith p bits s).signal (conditionRises p bits s) (routeOf s p).1 (routeOf s p).2).tellLead (conditionRises p bits s) := rfl

theorem raiseBits_regs (p : Page) (bits : Nat) (s : State) : (s.raiseBits p bits).regs = (statusWith p bits s).regs := rfl

/-- The lead and this device's number stand above the common header of FABR, where INT_STATUS of no page reaches. -/
theorem leadMessage_statusWith {p : Page} (hp : pageOk p = true) (bits : Nat) (s : State) : leadMessage (statusWith p bits s) = leadMessage s := by
  have hkeep : ∀ f : RegField, 64 ≤ f.off + f.stride * 0 → (f.off + f.stride * 0) * 8 + f.lo < 32768 →
      (statusWith p bits s).reg fabrPage f = s.reg fabrPage f := fun f hhigh hin => by
    refine State.reg_setReg_other _ (offHeader_ne ?_ (by decide) rfl) _
    by_cases h : fabrPage = p
    · exact .inl ⟨h, hhigh⟩
    · exact .inr ⟨pageBase_ne hp (by decide) (Ne.symm h), hin⟩
  unfold leadMessage State.flag
  rw [hkeep _ (by decide) (by decide), hkeep _ (by decide) (by decide), hkeep _ (by decide) (by decide)]

/-- A condition that stood already, or that does not stand after, signals nothing. -/
theorem raiseBits_quiet {s : State} {p : Page} {bits : Nat}
    (h : intCondition s.regs p = true ∨ intCondition (s.raiseBits p bits).regs p = false) : s.raiseBits p bits = statusWith p bits s := by
  have hquiet : conditionRises p bits s = false := by
    unfold conditionRises
    rcases h with h | h
    · rw [h]
      rfl
    · rw [← raiseBits_regs, h, Bool.and_false]
  rw [raiseBits_eq, hquiet, State.signal_false, State.tellLead_false]

/-- A condition that becomes true signals the routed vector and tells the lead. -/
theorem raiseBits_rises {s : State} {p : Page} {bits : Nat} (hbefore : intCondition s.regs p = false)
    (hafter : intCondition (s.raiseBits p bits).regs p = true) :
    s.raiseBits p bits = ((statusWith p bits s).signal true (routeOf s p).1 (routeOf s p).2).tellLead true := by
  have hrises : conditionRises p bits s = true := by
    rw [conditionRises, hbefore, ← raiseBits_regs, hafter]
    rfl
  rw [raiseBits_eq, hrises]

section
variable {s : State} {p : Page} {bits : Nat} (hp : pageOk p = true) (hbefore : intCondition s.regs p = false)
  (hafter : intCondition (s.raiseBits p bits).regs p = true)
include hp hbefore hafter

/-- An open vector's message is sent, before the one to the lead. -/
theorem raiseBits_open (hmask : vectorMasked s (msixKey (routeOf s p).1 (routeOf s p).2) = false) (hlink : s.host.linkUp = true) :
    (s.raiseBits p bits).out = s.out ++ [.msix (routeOf s p).1 (routeOf s p).2] ++ leadMessage s ∧ (s.raiseBits p bits).host = s.host := by
  rw [raiseBits_rises hbefore hafter, State.signal_open (s := statusWith p bits s) hmask hlink, State.tellLead_true, ← leadMessage_statusWith hp bits s]
  exact ⟨rfl, rfl⟩

/-- A masked vector's bit is set, and the lead alone is sent a message. -/
theorem raiseBits_masked (hmask : vectorMasked s (msixKey (routeOf s p).1 (routeOf s p).2) = true) :
    (s.raiseBits p bits).out = s.out ++ leadMessage s ∧ (s.raiseBits p bits).host.vectorPending =
      pendingWith (msixKey (routeOf s p).1 (routeOf s p).2) s.host.vectorPending := by
  rw [raiseBits_rises hbefore hafter, State.signal_masked (s := statusWith p bits s) hmask, State.tellLead_true, ← leadMessage_statusWith hp bits s]
  exact ⟨rfl, rfl⟩

end

/-! ### Unmasking a vector (R410) -/

theorem msixKey_fn (fn : Nat) (vector : Fin 4096) : msixKey fn vector.val / 4096 = fn := by
  unfold msixKey
  omega

theorem msixKey_vector (fn : Nat) (vector : Fin 4096) : msixKey fn vector.val % 4096 = vector.val := by
  unfold msixKey
  omega

/-- A vector's mask in the MSI-X table is clear. -/
def unmasked (key : Nat) (s : State) : State :=
  { s with host := { s.host with msix := tabMod (1#128 <<< 96) key (fun v => v &&& ~~~(1#128 <<< 96)) s.host.msix } }

theorem vectorMasked_unmasked_same (key : Nat) (s : State) : vectorMasked (unmasked key s) key = false := by
  unfold vectorMasked unmasked tabMod
  rw [tabGet_put_same, BitVec.getLsbD_and]
  simp

theorem vectorMasked_unmasked_other {key other : Nat} (h : other ≠ key) (s : State) : vectorMasked (unmasked key s) other = vectorMasked s other := by
  unfold vectorMasked unmasked tabMod
  rw [tabGet_put_other _ _ h]

theorem exec_msixVectorUnmask {fn : Fin 256} {vector : Fin 4096} {s : State} (h : canMsixVectorUnmask fn vector s = true) :
    exec (.msixVectorUnmask fn vector) s = .next (sendPending (unmasked (msixKey fn.val vector.val) s)) := by
  obtain ⟨halive, hlink⟩ := Bool.and_eq_true_iff.mp h
  exact congrArg Host.Outcome.next (if_pos ⟨halive, hlink⟩)

theorem vectorMasked_sendPending (key : Nat) (s : State) : vectorMasked (sendPending s) key = vectorMasked s key := rfl

/-- The pending vectors whose messages go out: those that no mask and no link that is down holds. -/
def openVectors (s : State) : List Nat := s.host.vectorPending.filter fun key => s.host.linkUp && !vectorMasked s key

theorem sendPending_out (s : State) : (sendPending s).out = s.out ++ (openVectors s).map fun key => .msix (key / 4096) (key % 4096) := rfl

theorem sendPending_pending (s : State) :
    (sendPending s).host.vectorPending = s.host.vectorPending.filter fun key => !(openVectors s).contains key := rfl

/-- Where one pending vector alone is not masked, it is the one whose message goes out. -/
theorem openVectors_one {s : State} {key : Nat} {before after : List Nat} (hlink : s.host.linkUp = true)
    (hpending : s.host.vectorPending = before ++ key :: after) (hopen : vectorMasked s key = false)
    (hmasked : ∀ k ∈ before ++ after, vectorMasked s k = true) : openVectors s = [key] := by
  have hnone : ∀ l : List Nat, (∀ k ∈ l, vectorMasked s k = true) → l.filter (fun k => true && !vectorMasked s k) = [] := fun l hl =>
    List.filter_eq_nil_iff.mpr fun k hk => by simp [hl k hk]
  obtain ⟨hbefore, hafter⟩ := List.forall_mem_append.mp hmasked
  rw [openVectors, hpending, hlink, List.filter_append, List.filter_cons, hnone _ hbefore, hnone _ hafter, hopen]
  rfl

/-- The vector's bit goes, and the others stay in their order. -/
theorem filter_notContains_singleton {key : Nat} {before after : List Nat} (hother : ∀ k ∈ before ++ after, k ≠ key) :
    (before ++ key :: after).filter (fun k => !List.contains [key] k) = before ++ after := by
  obtain ⟨hbefore, hafter⟩ := List.forall_mem_append.mp hother
  rw [List.filter_append, List.filter_cons, List.filter_eq_self.mpr, List.filter_eq_self.mpr]
  · simp
  · intro k hk
    simpa using hafter k hk
  · intro k hk
    simpa using hbefore k hk

/-! ### The statement -/

/-- Settles O12: a forced interrupt by the cases of its condition and its vector's mask, an unmasking by the one vector that it opens. -/
theorem maskedVectorsHoldOneMessage : Obligations.MaskedVectorsHoldOneMessage := by
  unfold Obligations.MaskedVectorsHoldOneMessage
  refine ⟨?force, ?unmask⟩
  case force =>
    intro who p v s hp htaken
    refine ⟨_, exec_intForceWrite_taken hp htaken, reg_raiseBits_same .., fun hquiet => ?_, fun hbefore hafter => ⟨?_, fun hmask => ?_⟩⟩
    · rw [raiseBits_quiet hquiet]
      exact ⟨rfl, rfl⟩
    · exact raiseBits_open hp hbefore hafter
    · obtain ⟨hout, hpending⟩ := raiseBits_masked hp hbefore hafter hmask
      rw [hpending]
      exact ⟨hout, contains_pendingWith_same .., fun hset => if_pos hset, fun key hkey => contains_pendingWith_other hkey _⟩
  case unmask =>
    intro fn vector before after s halive hlink hpending hothers
    have hopen := openVectors_one (s := unmasked (msixKey fn.val vector.val) s) hlink hpending (vectorMasked_unmasked_same ..)
      fun k hk => (vectorMasked_unmasked_other (hothers k hk).1 s).trans (hothers k hk).2
    refine ⟨_, exec_msixVectorUnmask (Bool.and_eq_true_iff.mpr ⟨halive, hlink⟩), ?_, ?_, vectorMasked_unmasked_same ..⟩
    · rw [sendPending_out, hopen, List.map_singleton, msixKey_fn, msixKey_vector]
      rfl
    · rw [sendPending_pending, hopen]
      exact (congrArg _ hpending).trans (filter_notContains_singleton fun k hk => (hothers k hk).1)

end Sys2Proof.Machine
end

section
/-! SUPPORT. Queues created and deleted, completions written, interrupts coalesced and unmasked (R388 to R391, R402, R408, R410), and the statement on
them. -/

namespace Sys2Proof.Machine

/-! ### CREATE_SQ, CREATE_CQ and DELETE_SQ (R388 to R391) -/

/-- The submission queue that a CREATE_SQ describes. -/
def createdSq (c : Cmd) : SqState :=
  { cls := c.field 0x18 20 2, admin := c.field 0x18 22 1 == 1
    remote := if c.field 0x18 23 1 = 1 then some (c.field 0x38 0 6, c.field 0x3C 0 20) else none
    weight := c.field 0x18 24 8, cq := .num (Fin.ofNat 262144 (c.field 0x1C 0 18)), depth := c.field 0x20 0 17
    pasid := if c.field 0x24 31 1 = 1 then some (BitVec.ofNat 20 (c.field 0x24 0 20)) else none
    base := c.field 0x28 0 64, progress := c.field 0x30 0 64 }

theorem exec_createSq {q : CmdRef} {s : State} (h : canCreateSq q s = true) : ∃ c, startedCmd s q [0x02] false = some c ∧
    exec (.createSq q) s =
      .next (complete c 0 0 ((startedState c s).setSq (.num (Fin.ofNat 1048576 (c.field 0x18 0 20))) (createdSq c))) := by
  obtain ⟨c, hc, hcreates⟩ := any_some h
  simp only [sqCreatable, Bool.and_eq_true] at hcreates
  obtain ⟨⟨⟨⟨⟨hopen, hnamed⟩, hright⟩, hqueues⟩, hradio⟩, hmember⟩ := hcreates
  refine ⟨c, hc, congrArg Host.Outcome.next ((startCmd_runs hc _).trans ?_)⟩
  dsimp only
  rw [if_neg (nb hopen), if_neg (nd hnamed), if_neg (nd hright), if_neg (nd hqueues)]
  exact (if_neg (nd hradio)).trans (if_neg (nd hmember))

/-- The completion queue that a CREATE_CQ describes. -/
def createdCq (c : Cmd) : CqState :=
  { vector := c.field 0x1C 0 12, coalesceCount := c.field 0x1C 16 8, coalesceTime := c.field 0x1C 24 8, depth := c.field 0x20 0 17
    pasid := if c.field 0x24 31 1 = 1 then some (BitVec.ofNat 20 (c.field 0x24 0 20)) else none
    base := c.field 0x28 0 64 }

theorem exec_createCq {q : CmdRef} {s : State} (h : canCreateCq q s = true) : ∃ c, startedCmd s q [0x03] false = some c ∧
    exec (.createCq q) s =
      .next (complete c 0 0 ((startedState c s).setCq (.num (Fin.ofNat 262144 (c.field 0x18 0 18))) (createdCq c))) := by
  obtain ⟨c, hc, hcreates⟩ := any_some h
  simp only [cqCreatable, Bool.and_eq_true] at hcreates
  obtain ⟨⟨⟨hopen, hnamed⟩, hright⟩, hfree⟩ := hcreates
  refine ⟨c, hc, congrArg Host.Outcome.next ((startCmd_runs hc _).trans ?_)⟩
  dsimp only
  rw [if_neg (nb hopen), if_neg (nn hnamed), if_neg (nd hright), if_neg (ns hfree)]
  rfl

theorem exec_deleteSq {q : CmdRef} {s : State} (h : canDeleteSq q s = true) : ∃ c, startedCmd s q [0x04] false = some c ∧
    exec (.deleteSq q) s =
      .next (complete c 0 0 (deleteSqState (.num (Fin.ofNat 1048576 (c.field 0x18 0 20))) (startedState c s))) := by
  obtain ⟨c, hc, hdeletes⟩ := any_some h
  simp only [Bool.and_eq_true] at hdeletes
  obtain ⟨⟨hopen, hnamed⟩, hexists⟩ := hdeletes
  refine ⟨c, hc, congrArg Host.Outcome.next ((startCmd_runs hc _).trans ?_)⟩
  dsimp only
  rw [if_neg (nb hopen), if_neg (nn hnamed), if_neg (ni hexists)]

/-! ### COMPLETION_WRITE and CQ_COALESCE_TIMER (R402, R408) -/

theorem exec_completionWrite {cq : CqRef} {translates : Bool} {s : State} (h : canCompletionWrite cq translates s = true) :
    ∃ y e rest, s.cq cq = some y ∧ y.waiting = e :: rest ∧
      exec (.completionWrite cq translates) s = .next (writeEntry cq { y with waiting := rest } e s) := by
  simp only [canCompletionWrite, Bool.and_eq_true, Bool.not_eq_true'] at h
  obtain ⟨⟨⟨⟨halive, hlink⟩, hfrozen⟩, htranslates⟩, hcq⟩ := h
  obtain ⟨y, hy, hwrites⟩ := any_some hcq
  obtain ⟨hwaits, hroom⟩ := Bool.and_eq_true_iff.mp hwrites
  obtain ⟨e, rest, hwaiting⟩ := List.exists_cons_of_ne_nil (l := y.waiting) (by simpa using hwaits)
  refine ⟨y, e, rest, hy, hwaiting, ?_⟩
  simp only [exec, execCompletionWrite, hy, hwaiting]
  rw [if_neg (by simp [halive, hlink, hfrozen]), if_neg (nb hroom), if_neg (nn htranslates)]

theorem exec_cqCoalesceTimer {cq : CqRef} {s : State} (h : canCqCoalesceTimer cq s = true) :
    ∃ y, s.cq cq = some y ∧ exec (.cqCoalesceTimer cq) s = .next (signalCq cq y s) := by
  obtain ⟨halive, hcq⟩ := Bool.and_eq_true_iff.mp h
  obtain ⟨y, hy, hdue⟩ := any_some hcq
  simp only [Bool.and_eq_true, decide_eq_true_eq] at hdue
  obtain ⟨hunsignalled, hpast⟩ := hdue
  refine ⟨y, hy, ?_⟩
  simp only [exec, execCqCoalesceTimer, hy]
  exact congrArg Host.Outcome.next (if_pos ⟨halive, hunsignalled, hpast⟩)

/-! ### MSIX_VECTOR_UNMASK (R410) -/

section
variable {s : State} {key : Nat} (hlink : s.host.linkUp = true) (hopen : vectorMasked s key = false)
include hlink hopen

theorem mem_openVectors : key ∈ openVectors s ↔ key ∈ s.host.vectorPending := by
  simp [openVectors, hlink, hopen]

/-- A vector that nothing holds is no longer pending once the messages that waited are sent. -/
theorem sendPending_clears : key ∉ (sendPending s).host.vectorPending := by
  rw [sendPending_pending, List.mem_filter, ← mem_openVectors hlink hopen]
  simp

theorem sendPending_sends (hpending : key ∈ s.host.vectorPending) : Emission.msix (key / 4096) (key % 4096) ∈ (sendPending s).out := by
  rw [sendPending_out]
  exact List.mem_append_right _ (List.mem_map_of_mem ((mem_openVectors hlink hopen).mpr hpending))

end

/-! ### The statement -/

/-- Settles O45: each command by its equation; a vector that is unmasked is open, so that its message goes out. -/
theorem queuesAndCompletionsComplete : Obligations.QueuesAndCompletionsComplete := by
  unfold Obligations.QueuesAndCompletionsComplete
  refine ⟨?createSq, ?createCq, ?deleteSq, ?write, ?timer, ?unmask⟩
  case createSq =>
    intro q s h
    obtain ⟨c, hc, hexec⟩ := exec_createSq h
    exact ⟨_, hexec, c, createdSq c, hc, rfl, rfl, rfl, rfl, rfl, rfl, rfl, rfl⟩
  case createCq =>
    intro q s h
    obtain ⟨c, hc, hexec⟩ := exec_createCq h
    exact ⟨_, hexec, c, createdCq c, hc, rfl, rfl, rfl, rfl, rfl, rfl, rfl⟩
  case deleteSq =>
    intro q s h
    obtain ⟨c, hc, hexec⟩ := exec_deleteSq h
    exact ⟨_, hexec, c, hc, rfl⟩
  case write =>
    intro cq translates s h
    obtain ⟨y, e, rest, hy, hwaiting, hexec⟩ := exec_completionWrite h
    exact ⟨_, hexec, y, e, rest, hy, hwaiting, rfl⟩
  case timer =>
    intro cq s h
    obtain ⟨y, hy, hexec⟩ := exec_cqCoalesceTimer h
    exact ⟨_, hexec, y, hy, rfl⟩
  case unmask =>
    intro fn vector s h
    have hlink : (unmasked (msixKey fn.val vector.val) s).host.linkUp = true := (Bool.and_eq_true_iff.mp h).2
    have hopen := vectorMasked_unmasked_same (msixKey fn.val vector.val) s
    refine ⟨_, exec_msixVectorUnmask h, hopen, sendPending_clears hlink hopen, fun hpending => ?_⟩
    have hsent := sendPending_sends hlink hopen (List.contains_iff_mem.mp hpending)
    rwa [msixKey_fn, msixKey_vector] at hsent

end Sys2Proof.Machine
end

section
/-! SUPPORT. Doorbells, the admin pair, fetched entries, NOP and CANCEL (R392, R395 to R401, R407, R419), and the statement on them. -/

namespace Sys2Proof.Machine

/-! ### Doorbells (R395, R399 to R401) -/

theorem exec_sqTailDoorbell {fn : Fin 256} {sq : SqRef} {low : BitVec 32} {secure : Bool} {s : State}
    (h : canSqTailDoorbell fn sq low secure s = true) : ∃ x, s.sq sq = some x ∧ exec (.sqTailDoorbell fn sq low secure) s =
      .next (s.setSq sq { x with
        tail := low.toNat % 65536
        arrivals := x.arrivals ++ List.replicate ((low.toNat % 65536 + x.depth - x.tail) % x.depth) s.now }) := by
  simp only [canSqTailDoorbell, Bool.and_eq_true] at h
  obtain ⟨⟨hring, hvalid⟩, hsq⟩ := h
  obtain ⟨x, hx, hfits⟩ := any_some hsq
  refine ⟨x, hx, congrArg Host.Outcome.next ((ring_taken hring hx _).trans ?_)⟩
  dsimp only
  rw [if_pos hvalid, if_neg (Nat.not_le.mpr (of_decide_eq_true hfits))]

/-- How many entries a doorbell consumes that moves the head of a CQ to another place. -/
def consumed (y : CqState) (head : Nat) : Nat := (head + y.depth - y.head) % y.depth

/-- A doorbell has moved the head of a CQ; where every signalled entry is consumed, both coalescing counts start again (R408). -/
def headMoved (q : CqRef) (y : CqState) (head : Nat) (s : State) : State :=
  if consumed y head > 0 ∧ consumed y y.signalled ≤ consumed y head then s.setCq q { y with head := head, unsignalled := 0, oldest := s.now }
  else s.setCq q { y with head := head }

theorem exec_cqHeadDoorbell {fn : Fin 256} {sq : SqRef} {high : BitVec 32} {secure : Bool} {s : State}
    (h : canCqHeadDoorbell fn sq high secure s = true) : ∃ x y, s.sq sq = some x ∧ s.cq x.cq = some y ∧
      exec (.cqHeadDoorbell fn sq high secure) s = .next (headMoved x.cq y (high.toNat % 65536) s) := by
  simp only [canCqHeadDoorbell, Bool.and_eq_true] at h
  obtain ⟨⟨hring, hvalid⟩, hsq⟩ := h
  obtain ⟨x, hx, hcq⟩ := any_some hsq
  obtain ⟨y, hy, hright⟩ := any_some hcq
  simp only [Bool.and_eq_true, decide_eq_true_eq] at hright
  obtain ⟨hfits, hwritten⟩ := hright
  refine ⟨x, y, hx, hy, congrArg Host.Outcome.next ((ring_taken hring hx _).trans ?_)⟩
  dsimp only
  rw [if_pos hvalid, hy]
  exact if_neg (not_or.mpr ⟨Nat.not_le.mpr hfits, Nat.not_lt.mpr hwritten⟩)

/-! ### ADMIN_QUEUE_ENABLE (R419) -/

/-- The PF admin pair as the HOST page describes it. -/
def adminSq (s : State) : SqState :=
  { cls := 1, admin := true, remote := none, weight := 1, cq := .admin, depth := s.reg hostPage Rg.hostAdminSizeSqDepth + 1, pasid := none
    base := s.reg hostPage Rg.hostAdminSqAddrAddress, progress := 0 }
def adminCq (s : State) : CqState :=
  { vector := 0, coalesceCount := 0, coalesceTime := 0, depth := s.reg hostPage Rg.hostAdminSizeCqDepth + 1, pasid := none
    base := s.reg hostPage Rg.hostAdminCqAddrAddress }

/-- The admin pair is set up with two queues, or deleted. -/
def adminPair (on : Bool) (x : SqState) (y : CqState) (s : State) : State :=
  if on then (s.setSq .admin x).setCq .admin y else deleteCqState .admin (deleteSqState .admin s)

theorem adminPair_regs (on : Bool) (x : SqState) (y : CqState) (s : State) : (adminPair on x y s).regs = s.regs := by
  cases on <;> rfl

/-- The PF admin pair has started, or is gone. -/
def adminSwitched (on : Bool) (s : State) : State :=
  (adminPair on (adminSq s) (adminCq s) (s.setReg hostPage Rg.hostAdminControlEnable (bit on))).setReg hostPage Rg.hostAdminControlReady (bit on)

theorem exec_adminQueueEnable {who : Requester} {on : Bool} {s : State} (h : canAdminQueueEnable who on s = true) :
    exec (.adminQueueEnable who on) s = .next (adminSwitched on s) := by
  obtain ⟨htaken, hfree⟩ := Bool.and_eq_true_iff.mp h
  refine congrArg Host.Outcome.next ((writeAccess_taken htaken).trans ?_)
  cases on with
  | false => rfl
  | true =>
    simp only [Bool.not_true, Bool.false_or, Bool.and_eq_true, bne_iff_ne] at hfree
    obtain ⟨⟨hnone, hsq⟩, hcq⟩ := hfree
    exact if_neg (not_or.mpr ⟨ns hnone, not_or.mpr ⟨hsq, hcq⟩⟩)

theorem adminSwitched_regs (on : Bool) (s : State) : (adminSwitched on s).reg hostPage Rg.hostAdminControlEnable = bit on ∧
    (adminSwitched on s).reg hostPage Rg.hostAdminControlReady = bit on := by
  have hbit : bit on % 2 ^ 1 = bit on := by cases on <;> rfl
  unfold adminSwitched
  refine ⟨?_, (State.reg_setReg_same ..).trans hbit⟩
  rw [State.reg_setReg_other _ (fieldBit_ne (by decide)), reg_of_regs (adminPair_regs ..)]
  exact (State.reg_setReg_same ..).trans hbit

theorem adminSwitched_queues (on : Bool) (s : State) :
    ((adminSwitched on s).sq .admin).isSome = on ∧ ((adminSwitched on s).cq .admin).isSome = on := by
  cases on with
  | false => exact ⟨congrArg Option.isSome (tabFind_del_same ..), congrArg Option.isSome (tabFind_del_same ..)⟩
  | true => exact ⟨congrArg Option.isSome (tabFind_set_same ..), congrArg Option.isSome (tabFind_set_same ..)⟩

/-! ### SQ_ENTRY_FETCH (R392, R395) -/

/-- The queue manager fetches: the block works, the link is up, and FREEZE does not hold it. -/
theorem sqEntryFetch_free {admin : Bool} {entry : BitVec 512} {s : State} (h : canSqEntryFetch admin entry s = true) :
    ¬(!s.working || !s.host.linkUp || s.frozen qmgrPage) = true := by
  simp only [canSqEntryFetch, Bool.and_eq_true] at h
  obtain ⟨⟨⟨hworks, hlink⟩, hfrozen⟩, -⟩ := h
  simp [hworks, hlink, nb hfrozen]

theorem exec_sqEntryFetch_admin {entry : BitVec 512} {s : State} (h : canSqEntryFetch true entry s = true) :
    ∃ x, s.sq .admin = some x ∧ exec (.sqEntryFetch true entry) s = .next (fetchFrom .admin x entry s) := by
  have hpending : ((s.sq .admin).any fun x => !x.arrivals.isEmpty) = true := (Bool.and_eq_true_iff.mp h).2
  obtain ⟨x, hx, hentries⟩ := any_some hpending
  refine ⟨x, hx, congrArg Host.Outcome.next ((if_neg (sqEntryFetch_free h)).trans ?_)⟩
  rw [if_pos rfl, hx]
  exact if_neg (nb hentries)

theorem exec_sqEntryFetch_numbered {entry : BitVec 512} {s : State} (h : canSqEntryFetch false entry s = true) :
    ∃ cls n left x, pickSq s = some (cls, n, left) ∧ tabFind n s.host.sqs = some x ∧ exec (.sqEntryFetch false entry) s =
      .next (fetchFrom (.num (Fin.ofNat 1048576 n)) x entry { s with host := { s.host with turns := tabSet cls (n, left) s.host.turns } }) := by
  have hpending : ((pickSq s).any fun r => (tabFind r.2.1 s.host.sqs).isSome) = true := (Bool.and_eq_true_iff.mp h).2
  obtain ⟨⟨cls, n, left⟩, hpick, hexists⟩ := any_some hpending
  obtain ⟨x, hx⟩ := Option.isSome_iff_exists.mp hexists
  dsimp only at hx
  refine ⟨cls, n, left, x, hpick, hx, congrArg Host.Outcome.next ((if_neg (sqEntryFetch_free h)).trans ?_)⟩
  rw [if_neg (by decide), hpick]
  dsimp only
  rw [hx]

/-! ### NOP and CANCEL (R398, R407) -/

theorem exec_nop {q : CmdRef} {s : State} {c : Cmd} (hc : startedCmd s q [0x00] false = some c) :
    exec (.nop q) s = .next (complete c 0 0 (startedState c s)) := congrArg Host.Outcome.next (startCmd_runs hc _)

/-- The CMD_ID that a CANCEL names. -/
def cancelId (c : Cmd) : BitVec 16 := BitVec.ofNat 16 (c.field 0x18 0 16)

/-- The long operation of a CANCEL's SQ that waits for its turn under that CMD_ID. -/
def waitingLong (s : State) (c : Cmd) : Option Cmd :=
  s.host.cmds.find? fun d => d.sq == c.sq && d.id == cancelId c && isLong d && !d.started

/-- A CANCEL that comes first marks a long operation that runs, but no ZEROIZE and no EXPORT_STATE. -/
theorem exec_cancel_running {q : CmdRef} {s : State} {c : Cmd} {l : LongOp} (hc : startedCmd s q [0x01] false = some c)
    (hl : longOf (startedState c s) c.sq (cancelId c) = some l) (hstops : (!(cmdOp l.cmd == 0x43 || cmdOp l.cmd == 0x40)) = true) :
    exec (.cancel q true) s = .next (complete c 0 0 (setLong { l with cancelled := true } (startedState c s))) := by
  refine congrArg Host.Outcome.next ((startCmd_runs hc _).trans ?_)
  unfold cancelId at hl
  dsimp only
  rw [hl]
  exact (if_neg (nb hstops)).trans (if_pos rfl)

/-- A CANCEL ends a long operation that waits. -/
theorem exec_cancel_waiting {q : CmdRef} {cancelFirst : Bool} {s : State} {c d : Cmd} (hc : startedCmd s q [0x01] false = some c)
    (hl : longOf (startedState c s) c.sq (cancelId c) = none) (hd : waitingLong (startedState c s) c = some d)
    (hstops : (!(cmdOp d == 0x43 || cmdOp d == 0x40)) = true) :
    exec (.cancel q cancelFirst) s = .next (complete c 0 0 (complete d 0x0107 0 (startedState c s))) := by
  refine congrArg Host.Outcome.next ((startCmd_runs hc _).trans ?_)
  unfold cancelId at hl
  unfold waitingLong cancelId at hd
  dsimp only
  rw [hl, hd]
  exact if_neg (nb hstops)

/-! ### The statement -/

/-- Settles O44: each command by its equation, CANCEL by whether the operation that it names runs or waits. -/
theorem doorbellsAndFetchComplete : Obligations.DoorbellsAndFetchComplete := by
  unfold Obligations.DoorbellsAndFetchComplete
  refine ⟨?tail, ?head, ?admin, ?fetch, ?nop, ?cancel⟩
  case tail =>
    intro fn sq low secure s h
    obtain ⟨x, hx, hexec⟩ := exec_sqTailDoorbell h
    exact ⟨_, hexec, x, hx, rfl⟩
  case head =>
    intro fn sq high secure s h
    obtain ⟨x, y, hx, hy, hexec⟩ := exec_cqHeadDoorbell h
    exact ⟨_, hexec, x, y, hx, hy, fun hall => if_pos hall, fun hsome => if_neg hsome⟩
  case admin =>
    intro who on s h
    obtain ⟨henable, hready⟩ := adminSwitched_regs on s
    obtain ⟨hsq, hcq⟩ := adminSwitched_queues on s
    exact ⟨_, exec_adminQueueEnable h, henable, hready, hsq, hcq⟩
  case fetch =>
    intro admin entry s h
    cases admin with
    | true =>
      obtain ⟨x, hx, hexec⟩ := exec_sqEntryFetch_admin h
      exact ⟨_, hexec, fun _ => ⟨x, hx, rfl⟩, nofun⟩
    | false =>
      obtain ⟨cls, n, left, x, hpick, hx, hexec⟩ := exec_sqEntryFetch_numbered h
      exact ⟨_, hexec, nofun, fun _ => ⟨cls, n, left, x, hpick, hx, rfl⟩⟩
  case nop =>
    intro q s h
    obtain ⟨c, hc⟩ := Option.isSome_iff_exists.mp h
    exact ⟨_, exec_nop hc, c, hc, rfl⟩
  case cancel =>
    intro q cancelFirst s h
    obtain ⟨c, hc, hcancels⟩ := any_some h
    cases hl : longOf (startedState c s) c.sq (cancelId c) with
    | some l =>
      unfold cancelId at hl
      rw [hl] at hcancels
      obtain ⟨hstops, rfl⟩ := Bool.and_eq_true_iff.mp hcancels
      refine ⟨_, exec_cancel_running hc hl hstops, c, hc, fun m hm => ?_, fun hnone => ?_⟩
      · rw [Option.some.inj (hl.symm.trans hm)]
      · cases hl.symm.trans hnone
    | none =>
      unfold cancelId at hl
      rw [hl] at hcancels
      obtain ⟨d, hd, hstops⟩ := any_some hcancels
      refine ⟨_, exec_cancel_waiting hc hl hd hstops, c, hc, fun m hm => ?_, fun _ => ⟨d, ?_, rfl⟩⟩
      · cases hl.symm.trans hm
      · intro hop
        rw [hop] at hstops
        cases hstops

end Sys2Proof.Machine
end

section
/-! SUPPORT. The PCIe link goes down and up (R383, R384), configuration requests (R593) and the memory window (R385 to R387), and the statement on
them. -/

namespace Sys2Proof.Machine

/-! ### The link and configuration requests (R383, R384, R593) -/

/-- The link stands up or down at a speed and width. -/
def linkAt (up : Bool) (speed width flit : Nat) (s : State) : State :=
  { s with host := { s.host with linkUp := up } }.setReg hostPage Rg.hostLinkStatusSpeed speed
    |>.setReg hostPage Rg.hostLinkStatusWidth width |>.setReg hostPage Rg.hostLinkStatusFlit flit

theorem linkAt_status (up : Bool) {speed width flit : Nat} (hspeed : speed < 2 ^ 2) (hwidth : width < 2 ^ 5) (hflit : flit < 2 ^ 1) (s : State) :
    (linkAt up speed width flit s).reg hostPage Rg.hostLinkStatusSpeed = speed ∧
    (linkAt up speed width flit s).reg hostPage Rg.hostLinkStatusWidth = width ∧
    (linkAt up speed width flit s).reg hostPage Rg.hostLinkStatusFlit = flit := by
  unfold linkAt
  refine ⟨?_, ?_, (State.reg_setReg_same ..).trans (Nat.mod_eq_of_lt hflit)⟩
  · rw [State.reg_setReg_other _ (fieldBit_ne (by decide)), State.reg_setReg_other _ (fieldBit_ne (by decide))]
    exact (State.reg_setReg_same ..).trans (Nat.mod_eq_of_lt hspeed)
  · rw [State.reg_setReg_other _ (fieldBit_ne (by decide))]
    exact (State.reg_setReg_same ..).trans (Nat.mod_eq_of_lt hwidth)

theorem exec_pcieLinkDown {s : State} (h : canPcieLinkDown s = true) : exec .pcieLinkDown s = .next ((linkAt false 0 0 0 s).raise hostPage 1) :=
  congrArg Host.Outcome.next (if_pos (Bool.and_eq_true_iff.mp h))

/-- What waited for the link is sent once it is up: progress words, then messages (R384). -/
def linkCaughtUp (s : State) : State := sendPending (s.each (s.host.longs.filter fun l => l.seq != 0) writeProgress)

theorem linkCaughtUp_only (s : State) : Only 4194306 s (linkCaughtUp s) :=
  .step (sendPending_only _) (by decide) (each_only (fun l u hu => .step (writeProgress_only l u) (by decide) hu) (.refl ..))

theorem linkCaughtUp_linkUp (s : State) : (linkCaughtUp s).host.linkUp = s.host.linkUp :=
  each_keep (fun u => u.host.linkUp) (fun l u => congrArg HostState.linkUp ((writeProgress_only l u).host rfl)) ..

/-- The link has come up: what waited is sent where it was down, and LINK_CHANGE is set where its speed or width is a new one. -/
def linkRisen (speed : Fin 4) (width : Fin 17) (flit : Bool) (s : State) : State :=
  let t := linkAt true speed.val width.val (bit flit) s
  (if s.host.linkUp then t else linkCaughtUp t).raiseBits hostPage
    (if s.reg hostPage Rg.hostLinkStatusSpeed ≠ speed.val ∨ s.reg hostPage Rg.hostLinkStatusWidth ≠ width.val then 2 else 0)

theorem exec_pcieLinkUp {speed : Fin 4} {width : Fin 17} {flit : Bool} {s : State} (h : canPcieLinkUp speed width flit s = true) :
    exec (.pcieLinkUp speed width flit) s = .next (linkRisen speed width flit s) := by
  simp only [canPcieLinkUp, Bool.and_eq_true, Bool.or_eq_true, bne_iff_ne, beq_iff_eq, or_assoc] at h
  obtain ⟨⟨⟨halive, hspeed⟩, hwidth⟩, hflit⟩ := h
  refine congrArg Host.Outcome.next (if_pos ⟨halive, fun e => hspeed (Fin.ext e), ?_, ?_⟩)
  · exact hwidth.imp (congrArg Fin.val) (Or.imp (congrArg Fin.val) (congrArg Fin.val))
  · rw [Bool.or_eq_true, beq_iff_eq]
    exact hflit.imp_right (congrArg Fin.val)

/-- The registers of the link are those that it came up with: what is sent and LINK_CHANGE leave them alone. -/
theorem linkRisen_status (speed : Fin 4) (width : Fin 17) (flit : Bool) (s : State) {f : RegField} (hf : 64 ≤ f.off + f.stride * 0) :
    (linkRisen speed width flit s).reg hostPage f = (linkAt true speed.val width.val (bit flit) s).reg hostPage f := by
  unfold linkRisen
  rw [State.reg_raiseBits_off _ (offHeader_same hf)]
  exact ite_prop (fun u : State => u.reg hostPage f = _) (fun _ => rfl) (fun _ => frames (linkCaughtUp_only _) rfl ..)

theorem linkRisen_linkUp (speed : Fin 4) (width : Fin 17) (flit : Bool) (s : State) : (linkRisen speed width flit s).host.linkUp = true := by
  unfold linkRisen
  rw [host_raiseBits_link]
  exact ite_prop (fun u : State => u.host.linkUp = true) (fun _ => rfl) (fun _ => linkCaughtUp_linkUp _)

theorem exec_pcieConfigRequest {fn : Fin 256} {register : Nat} {s : State} (h : canPcieConfigRequest fn register s = true) :
    exec (.pcieConfigRequest fn register) s = .next (s.emit (if s.host.linkUp then .configDone fn register else .retryStatus)) := by
  refine congrArg Host.Outcome.next ((if_neg (nn h)).trans ?_)
  split <;> rfl

/-! ### The memory window (R385 to R387) -/

/-- The window is open to an access: the block is alive, the link up, HOST not frozen, and TDISP does not refuse it (R413). -/
def windowOpen (s : State) (fn off : Nat) (secure : Bool) : Prop :=
  ¬(!s.alive || !s.host.linkUp || s.frozen hostPage) = true ∧ ¬windowLocked s fn off secure = true

theorem windowOpen_of {s : State} {fn off : Nat} {secure : Bool}
    (h : (s.alive && s.host.linkUp && !s.frozen hostPage && !windowLocked s fn off secure) = true) : windowOpen s fn off secure := by
  simp only [Bool.and_eq_true, Bool.not_eq_true'] at h
  obtain ⟨⟨⟨halive, hlink⟩, hfrozen⟩, hlocked⟩ := h
  exact ⟨by simp [halive, hlink, hfrozen], ne_true_of_eq_false hlocked⟩

theorem exec_windowRead_table {fn : Fin 256} {off len : Nat} {secure : Bool} {s : State} (hopen : windowOpen s fn.val off secure)
    (hoff : off < 0x100000) : exec (.windowRead fn off len secure) s =
      .next (s.emit (.readData (some ((List.range len).map fun i => msixByte s fn.val (off + i))))) :=
  congrArg Host.Outcome.next ((if_neg hopen.1).trans ((if_neg hopen.2).trans (if_pos hoff)))

theorem exec_windowRead_memory {fn : Fin 256} {off len : Nat} {secure : Bool} {s : State} {b : List Byte}
    (hopen : windowOpen s fn.val off secure) (hoff : off ≥ 0x100000) (hvalid : (windowOf s fn.val).valid = true)
    (hb : rangeBytes s (windowOf s fn.val).part (windowAddr (windowOf s fn.val) off) len = some b) :
    exec (.windowRead fn off len secure) s =
      .next ((s.partTouch (windowOf s fn.val).part (windowAddr (windowOf s fn.val) off) len).emit (.readData (some b))) := by
  obtain ⟨d, hread, hbytes⟩ := rangeBytes_data hb
  refine congrArg Host.Outcome.next ((if_neg hopen.1).trans ((if_neg hopen.2).trans ((if_neg (Nat.not_lt.mpr hoff)).trans ?_)))
  rw [if_neg (nn hvalid), hread]
  dsimp only
  rw [hbytes]

theorem exec_windowWrite_table {fn : Fin 256} {off : Nat} {data : List Byte} {secure : Bool} {s : State}
    (hopen : windowOpen s fn.val off secure) (hoff : off < 0x100000) : exec (.windowWrite fn off data secure) s =
      .next (sendPending (s.each ((List.range data.length).zip data) fun e u => msixWrite fn.val (off + e.1) e.2 u)) :=
  congrArg Host.Outcome.next ((if_neg hopen.1).trans ((if_neg hopen.2).trans (if_pos hoff)))

theorem exec_windowWrite_memory {fn : Fin 256} {off : Nat} {data : List Byte} {secure : Bool} {s : State}
    (hopen : windowOpen s fn.val off secure) (hoff : off ≥ 0x100000) (hvalid : (windowOf s fn.val).valid = true)
    (hcheck : s.partWriteCheck (windowOf s fn.val).part (windowAddr (windowOf s fn.val) off) data.length = .done) :
    exec (.windowWrite fn off data secure) s =
      .next (if recording s (windowOf s fn.val).part then
          holdInput (windowOf s fn.val).part (.window (windowAddr (windowOf s fn.val) off) data) s
        else s.partStore (windowOf s fn.val).part (windowAddr (windowOf s fn.val) off) data) := by
  refine congrArg Host.Outcome.next ((if_neg hopen.1).trans ((if_neg hopen.2).trans ((if_neg (Nat.not_lt.mpr hoff)).trans ?_)))
  rw [if_neg (nn hvalid), hcheck]

/-- The new bytes of a word of the window that an AtomicOp updates. -/
def atomicBytes (op : WindowAtomicOp) (n : Nat) (old : List Byte) (operand compare : BitVec 64) : List Byte :=
  toBytes n (windowOp op (leNat old) (operand.toNat % 2 ^ (8 * n)) (compare.toNat % 2 ^ (8 * n)))

theorem exec_windowAtomic {fn : Fin 256} {off : Nat} {op : WindowAtomicOp} {wide : Bool} {operand compare : BitVec 64} {secure : Bool} {s : State}
    {b : List Byte} (hopen : windowOpen s fn.val off secure) (hoff : ¬off < 0x100000) (halign : off % (if wide then 8 else 4) = 0)
    (hvalid : (windowOf s fn.val).valid = true)
    (hcheck : s.partWriteCheck (windowOf s fn.val).part (windowAddr (windowOf s fn.val) off) (if wide then 8 else 4) = .done)
    (hb : rangeBytes s (windowOf s fn.val).part (windowAddr (windowOf s fn.val) off) (if wide then 8 else 4) = some b) :
    exec (.windowAtomic fn off op wide operand compare secure) s =
      .next (((s.partTouch (windowOf s fn.val).part (windowAddr (windowOf s fn.val) off) (if wide then 8 else 4)).partStore (windowOf s fn.val).part
        (windowAddr (windowOf s fn.val) off) (atomicBytes op (if wide then 8 else 4) b operand compare)).emit (.readData (some b))) := by
  obtain ⟨d, hread, hbytes⟩ := rangeBytes_data hb
  refine congrArg Host.Outcome.next ((if_neg hopen.1).trans ((if_neg (by simp [hopen.2, hoff, halign])).trans ?_))
  rw [if_neg (nn hvalid), hcheck]
  dsimp only
  rw [hread]
  dsimp only
  rw [hbytes]
  rfl

/-! ### The statement -/

/-- Settles O29: the link by the registers it stands with, the window by where its offset lies. -/
theorem linkAndWindowComplete : Obligations.LinkAndWindowComplete := by
  unfold Obligations.LinkAndWindowComplete
  refine ⟨?down, ?up, ?config, ?read, ?write, ?atomic⟩
  case down =>
    intro s h
    obtain ⟨hspeed, hwidth, -⟩ := linkAt_status false (speed := 0) (width := 0) (flit := 0) (by decide) (by decide) (by decide) s
    refine ⟨_, exec_pcieLinkDown h, host_raise_link .., ?_, ?_, raised_bit _ _ _ (by decide)⟩
    · exact (State.reg_raise_off _ (offHeader_same (by decide)) _).trans hspeed
    · exact (State.reg_raise_off _ (offHeader_same (by decide)) _).trans hwidth
  case up =>
    intro speed width flit s h
    obtain ⟨hspeed, hwidth, hflit⟩ := linkAt_status true (speed := speed.val) (width := width.val) (flit := bit flit) speed.isLt
      (Nat.lt_trans width.isLt (by decide)) (by cases flit <;> decide) s
    refine ⟨_, exec_pcieLinkUp h, linkRisen_linkUp .., ?_, ?_, ?_⟩
    · exact (linkRisen_status _ _ _ _ (by decide)).trans hspeed
    · exact (linkRisen_status _ _ _ _ (by decide)).trans hwidth
    · exact (linkRisen_status _ _ _ _ (by decide)).trans hflit
  case config => exact fun fn register s h => ⟨_, exec_pcieConfigRequest h, rfl⟩
  case read =>
    intro fn off len secure s h
    obtain ⟨hopen, hplace⟩ := Bool.and_eq_true_iff.mp h
    by_cases hoff : off < 0x100000
    · exact ⟨_, exec_windowRead_table (windowOpen_of hopen) hoff, fun _ => rfl, fun hhigh => absurd hoff (Nat.not_lt.mpr hhigh)⟩
    · simp only [hoff, decide_false, Bool.false_or, Bool.and_eq_true] at hplace
      obtain ⟨hvalid, hbytes⟩ := hplace
      obtain ⟨b, hb⟩ := Option.isSome_iff_exists.mp hbytes
      exact ⟨_, exec_windowRead_memory (windowOpen_of hopen) (Nat.not_lt.mp hoff) hvalid hb, fun hlow => absurd hlow hoff, fun _ => ⟨b, hb, rfl⟩⟩
  case write =>
    intro fn off data secure s h
    obtain ⟨hopen, hplace⟩ := Bool.and_eq_true_iff.mp h
    by_cases hoff : off < 0x100000
    · exact ⟨_, exec_windowWrite_table (windowOpen_of hopen) hoff, fun _ => rfl, fun hhigh => absurd hoff (Nat.not_lt.mpr hhigh)⟩
    · simp only [hoff, decide_false, Bool.false_or, Bool.and_eq_true, beq_iff_eq] at hplace
      obtain ⟨hvalid, hcheck⟩ := hplace
      exact ⟨_, exec_windowWrite_memory (windowOpen_of hopen) (Nat.not_lt.mp hoff) hvalid hcheck, fun hlow => absurd hlow hoff, fun _ => rfl⟩
  case atomic =>
    intro fn off op wide operand compare secure s h
    simp only [canWindowAtomic, Bool.and_assoc (s.alive && s.host.linkUp && !s.frozen hostPage && !windowLocked s fn.val off secure)] at h
    obtain ⟨hopen, hword⟩ := Bool.and_eq_true_iff.mp h
    simp only [Bool.and_eq_true, beq_iff_eq] at hword
    obtain ⟨⟨⟨⟨hoff, halign⟩, hvalid⟩, hcheck⟩, hbytes⟩ := hword
    obtain ⟨b, hb⟩ := Option.isSome_iff_exists.mp hbytes
    exact ⟨_, exec_windowAtomic (windowOpen_of hopen) (nd hoff) halign hvalid hcheck hb, b, hb, rfl⟩

end Sys2Proof.Machine
end

section
/-! SUPPORT. Interrupt routes, translations, IDE keys and the messages between members (R409, R411, R412, R416 to R418), and the statement on them. -/

namespace Sys2Proof.Machine

/-! ### ROUTE_WRITE (R409) -/

/-- The route of a page to a function's vector is set, or goes. -/
def routeSet (ix fn vector : Nat) (valid : Bool) (s : State) : State :=
  if valid then
    { s with host := { s.host with
      routes := tabSet ix ⟨fn, vector⟩ s.host.routes, routesOf := tabSet (ix * 256 + fn) vector s.host.routesOf } }
  else { s with host := { s.host with routes := tabDel ix s.host.routes, routesOf := tabDel (ix * 256 + fn) s.host.routesOf } }

theorem exec_routeWrite {who : Requester} {value : BitVec 32} {s : State} (h : canRouteWrite who value s = true) :
    exec (.routeWrite who value) s = .next (routeSet (s.reg hostPage Rg.hostRouteSelectPage) (value.toNat % 256) (value.toNat / 256 % 4096)
      (value.getLsbD 31) s) := by
  obtain ⟨htaken, hselects⟩ := Bool.and_eq_true_iff.mp h
  obtain ⟨p, hp, hright⟩ := any_some hselects
  obtain ⟨hunlocked, hsees⟩ := Bool.and_eq_true_iff.mp hright
  refine congrArg Host.Outcome.next ((writeAccess_taken htaken).trans ?_)
  dsimp only
  rw [hp]
  exact (if_neg (nb hunlocked)).trans (if_neg (nn hsees))

theorem routeSet_regs (ix fn vector : Nat) (valid : Bool) (s : State) : (routeSet ix fn vector valid s).regs = s.regs := by
  cases valid <;> rfl

/-! ### ATS_INVALIDATE and IDE_KM_REQUEST (R411, R412) -/

theorem exec_atsInvalidate {fn : Fin 256} {pasid : Option (BitVec 20)} {addr size : BitVec 64} {s : State}
    (h : canAtsInvalidate fn pasid addr size s = true) : exec (.atsInvalidate fn pasid addr size) s =
      .next ((s.addReg hostPage Rg.hostAtcInvalidationsCount 1).emit (.atsInvalidated fn)) :=
  congrArg Host.Outcome.next (if_pos (Bool.and_eq_true_iff.mp h))

/-- The keys of a stream after a request: a key waits for the next set-go, which takes it; set-stop drops both. -/
def keysAfter (k : IdeKeys) : IdeKmMsg → IdeKeys
  | .keyProg key => { k with next := some key }
  | .setGo => { active := k.next, next := none }
  | .setStop => {}

/-- A stream has those keys. -/
def setIde (stream : Nat) (k : IdeKeys) (s : State) : State := { s with host := { s.host with ide := tabPut {} stream k s.host.ide } }

theorem exec_ideKmRequest {stream : Fin 9} {msg : IdeKmMsg} {s : State} (h : canIdeKmRequest stream msg s = true) :
    exec (.ideKmRequest stream msg) s =
      .next ((setIde stream.val (keysAfter (tabGet {} stream.val s.host.ide) msg) s).emit (.security 0 true)) := by
  obtain ⟨hfirmware, hgoes⟩ := Bool.and_eq_true_iff.mp h
  refine congrArg Host.Outcome.next ((if_neg (nn hfirmware)).trans ?_)
  cases msg with
  | keyProg key => rfl
  | setGo => exact if_pos hgoes
  | setStop => rfl

theorem ide_setIde (stream : Nat) (k : IdeKeys) (s : State) (e : Emission) : tabGet {} stream ((setIde stream k s).emit e).host.ide = k :=
  tabGet_put_same ..

/-! ### Forwarded commands (R416, R417) -/

theorem exec_forwardedEntryArrive {remoteSq : Fin 1048576} {entry : BitVec 512} {lead : BitVec 12} {s : State}
    (h : canForwardedEntryArrive remoteSq entry lead s = true) : exec (.forwardedEntryArrive remoteSq entry lead) s =
      .next (dispatchCmd
        { sq := .num remoteSq, cq := .admin, id := entry.extractLsb' 16 16, part := (sqPart s remoteSq.val).getD 0, entry := entry, sqHead := 0
          arrival := s.now, lead := some lead.toNat } (sqPart s remoteSq.val) s) := congrArg Host.Outcome.next (if_pos h)

theorem exec_memberCompletionArrive {sq : Fin 1048576} {id status : BitVec 16} {result : BitVec 128} {s : State}
    (h : canMemberCompletionArrive sq id status result s = true) : ∃ f, forwardedOf s sq.val id = some f ∧
      exec (.memberCompletionArrive sq id status result) s = .next (endForwarded f status.toNat result s) := by
  obtain ⟨halive, hforwarded⟩ := Bool.and_eq_true_iff.mp h
  obtain ⟨f, hf⟩ := Option.isSome_iff_exists.mp hforwarded
  refine ⟨f, hf, ?_⟩
  simp only [exec, execMemberCompletionArrive, hf]
  exact congrArg Host.Outcome.next (if_pos halive)

theorem exec_forwardTimeout {sq : Fin 1048576} {id : BitVec 16} {s : State} (h : canForwardTimeout sq id s = true) :
    ∃ f, forwardedOf s sq.val id = some f ∧ exec (.forwardTimeout sq id) s = .next (endForwarded f 0x0301 0 s) := by
  obtain ⟨halive, hforwarded⟩ := Bool.and_eq_true_iff.mp h
  obtain ⟨f, hf, hlate⟩ := any_some hforwarded
  refine ⟨f, hf, ?_⟩
  simp only [exec, execForwardTimeout, hf]
  exact congrArg Host.Outcome.next (if_pos ⟨halive, of_decide_eq_true hlate⟩)

/-! ### Registers of members, and their events (R418) -/

theorem exec_memberRead {q : CmdRef} {value : BitVec 32} {reachable : Bool} {s : State} (h : canMemberRead q value reachable s = true) :
    ∃ c, startedCmd s q [0x70] false = some c ∧ exec (.memberRead q value reachable) s =
      .next (complete c 0 (value.setWidth 128) ((startedState c s).emit (.memberAccess (c.field 0x18 0 6) (c.field 0x1C 0 32) none))) := by
  obtain ⟨c, hc, hreaches⟩ := any_some h
  refine ⟨c, hc, congrArg Host.Outcome.next ((startCmd_runs hc _).trans ?_)⟩
  rw [Option.isNone_iff_eq_none.mp hreaches]

theorem exec_memberWrite {q : CmdRef} {reachable : Bool} {s : State} (h : canMemberWrite q reachable s = true) :
    ∃ c, startedCmd s q [0x71] false = some c ∧ exec (.memberWrite q reachable) s =
      .next (complete c 0 0 ((startedState c s).emit
        (.memberAccess (c.field 0x18 0 6) (c.field 0x1C 0 32) (some (BitVec.ofNat 32 (c.field 0x20 0 32)))))) := by
  obtain ⟨c, hc, hreaches⟩ := any_some h
  refine ⟨c, hc, congrArg Host.Outcome.next ((startCmd_runs hc _).trans ?_)⟩
  rw [Option.isNone_iff_eq_none.mp hreaches]

/-- A member's bit stands in MEMBER_EVENTS. -/
def memberNoted (m : Nat) (s : State) : State :=
  s.setReg hostPage Rg.hostMemberEventsMembers (s.reg hostPage Rg.hostMemberEventsMembers ||| 2 ^ m)

theorem exec_memberEvent {m : Fin 64} {s : State} (h : canMemberEvent m s = true) :
    exec (.memberEvent m) s = .next ((memberNoted m.val s).raise hostPage 2) := congrArg Host.Outcome.next (if_pos h)

theorem memberNoted_bit (m : Fin 64) (s : State) : ((memberNoted m.val s).reg hostPage Rg.hostMemberEventsMembers).testBit m.val = true := by
  have hlen : Rg.hostMemberEventsMembers.len = 64 := rfl
  rw [memberNoted, State.reg_setReg_same, hlen, Nat.testBit_mod_two_pow, Nat.testBit_or, Nat.testBit_two_pow_self, Bool.or_true, Bool.and_true]
  exact decide_eq_true m.isLt

/-! ### The statement -/

/-- Settles O30: each command by its equation, and the routes, keys and events by what the table or register then holds. -/
theorem hostServicesComplete : Obligations.HostServicesComplete := by
  unfold Obligations.HostServicesComplete
  refine ⟨?route, ?ats, ?ide, ?entry, ?completion, ?timeout, ?read, ?write, ?event⟩
  case route =>
    intro who value s h
    refine ⟨_, exec_routeWrite h, fun hvalid => ?_, fun hvalid => ?_, routeSet_regs ..⟩
    · rw [hvalid]
      exact tabFind_set_same ..
    · rw [hvalid]
      exact tabFind_del_same ..
  case ats => exact fun fn pasid addr size s h => ⟨_, exec_atsInvalidate h, rfl⟩
  case ide =>
    intro stream msg s h
    refine ⟨_, exec_ideKmRequest h, rfl, ?_, ?_, ?_⟩
    all_goals rw [ide_setIde]
    · rintro key rfl
      exact ⟨rfl, rfl⟩
    · rintro rfl
      exact ⟨rfl, rfl⟩
    · rintro rfl
      rfl
  case entry => exact fun remoteSq entry lead s h => ⟨_, exec_forwardedEntryArrive h, rfl⟩
  case completion =>
    intro sq id status result s h
    obtain ⟨f, hf, hexec⟩ := exec_memberCompletionArrive h
    exact ⟨_, hexec, f, hf, rfl⟩
  case timeout =>
    intro sq id s h
    obtain ⟨f, hf, hexec⟩ := exec_forwardTimeout h
    exact ⟨_, hexec, f, hf, rfl⟩
  case read =>
    intro q value reachable s h
    obtain ⟨c, hc, hexec⟩ := exec_memberRead h
    exact ⟨_, hexec, c, hc, rfl⟩
  case write =>
    intro q reachable s h
    obtain ⟨c, hc, hexec⟩ := exec_memberWrite h
    exact ⟨_, hexec, c, hc, rfl⟩
  case event =>
    intro m s h
    refine ⟨_, exec_memberEvent h, rfl, ?_, raised_bit _ _ _ (by decide)⟩
    rw [State.reg_raise_off _ (offHeader_same (by decide))]
    exact memberNoted_bit m s

end Sys2Proof.Machine
end

section
/-! SUPPORT. The links of the fabric: what a port holds after an update of it, and what operations outside the fabric leave of it. -/

namespace Sys2Proof.Machine

theorem linkOf_setLink (p : Nat) (x : Link) (s : State) : linkOf (setLink p x s) p = x := tabGet_put_same ..

theorem linkOf_modLink (p : Nat) (f : Link → Link) (s : State) : linkOf (modLink p f s) p = f (linkOf s p) := tabGet_put_same ..

theorem linkOf_of_links {s t : State} (h : t.fabric.links = s.fabric.links) (p : Nat) : linkOf t p = linkOf s p := by
  unfold linkOf
  rw [h]

theorem linkOf_fabric {s t : State} (h : t.fabric = s.fabric) (p : Nat) : linkOf t p = linkOf s p :=
  linkOf_of_links (congrArg FabricState.links h) p

theorem Only.linkOf_same {m : Nat} {s t : State} (h : Only m s t) (hm : m.testBit 10 = false) (p : Nat) : linkOf t p = linkOf s p :=
  linkOf_fabric (h.fabric hm) p

theorem linkOf_setReg (q : Page) (f : RegField) (v i : Nat) (s : State) (p : Nat) : linkOf (s.setReg q f v i) p = linkOf s p := rfl

theorem linkOf_bump (q : Page) (f : RegField) (n i : Nat) (s : State) (p : Nat) : linkOf (s.bump q f n i) p = linkOf s p := rfl

theorem linkOf_addReg (q : Page) (f : RegField) (n i : Nat) (s : State) (p : Nat) : linkOf (s.addReg q f n i) p = linkOf s p := rfl

theorem linkOf_usedFree (n : Nat) (s : State) (p : Nat) : linkOf (s.usedFree n) p = linkOf s p := rfl

theorem linkOf_error (q : Page) (c u d : Nat) (s : State) (p : Nat) : linkOf (s.error q c u d) p = linkOf s p :=
  linkOf_fabric (State.error_fabric ..) p

theorem linkOf_raise (q : Page) (b : Nat) (s : State) (p : Nat) : linkOf (s.raise q b) p = linkOf s p := linkOf_fabric (State.raise_fabric ..) p

theorem reg_modLink (p : Nat) (f : Link → Link) (s : State) (q : Page) (g : RegField) (i : Nat) : (modLink p f s).reg q g i = s.reg q g i := rfl

/-- A value that fits its field reads back as it was written. -/
theorem reg_setReg_fits {p : Page} {f : RegField} {v i : Nat} (h : v < 2 ^ f.len) (s : State) : (s.setReg p f v i).reg p f i = v :=
  (State.reg_setReg_same ..).trans (Nat.mod_eq_of_lt h)

theorem flag_setReg_one {p : Page} {f : RegField} (h : f.len = 1) (s : State) : (s.setReg p f 1).flag p f = true := by
  unfold State.flag
  rw [State.reg_setReg_same, h]
  rfl

end Sys2Proof.Machine
end

section
/-! SUPPORT. A link starts training, passes its phases and falls back (R425 to R434, R441), and the statement on it. -/

namespace Sys2Proof.Machine

/-! ### The starts of a training (R429, R434, R441) -/

theorem exec_trainStart {p : Fin 9} {cause : TrainCause} {s : State} (h : canTrainStart p cause s = true) :
    exec (.trainStart p cause) s = .next (startTraining p s) := by
  simp only [canTrainStart, Bool.and_eq_true, and_assoc] at h
  exact congrArg Host.Outcome.next (if_pos h)

theorem exec_retrainWrite {who : Requester} {p : Fin 9} {s : State} (h : canRetrainWrite who p s = true) :
    exec (.retrainWrite who p) s = .next (s.setReg (aqzlPage p) Rg.aqzlLinkControlRetrain 1) :=
  congrArg Host.Outcome.next (writeAccess_taken h)

theorem exec_levelDrift {p : Fin 9} {lane : Fin 4} {s : State} (h : canLevelDrift p lane s = true) :
    exec (.levelDrift p lane) s = .next (startTraining p s) := by
  simp only [canLevelDrift, Bool.and_eq_true, and_assoc] at h
  exact congrArg Host.Outcome.next (if_pos h)

theorem exec_retryLimit {p : Fin 9} {s : State} (h : canRetryLimit p s = true) :
    ∃ r, ((linkOf s p).replay.find? fun r => decide (r.sends ≥ 8)) = some r ∧
      exec (.retryLimit p) s = .next (startTraining p (s.error (aqzlPage p) 0x0333 0 r.flit.fseq.toNat)) := by
  obtain ⟨hlive, hworn⟩ := Bool.and_eq_true_iff.mp h
  obtain ⟨r, hr⟩ := Option.isSome_iff_exists.mp hworn
  refine ⟨r, hr, ?_⟩
  simp only [exec, execRetryLimit, hr]
  exact congrArg Host.Outcome.next (if_pos (Bool.and_eq_true_iff.mp hlive))

/-! ### The phases (R429 to R431) -/

theorem reg_beginPhase {p : Nat} {ph : Nat} (h : ph < 8) (s : State) : (beginPhase p ph s).reg (aqzlPage p) Rg.aqzlLinkStatusPhase = ph :=
  reg_setReg_fits (s := s) (p := aqzlPage p) (f := Rg.aqzlLinkStatusPhase) (i := 0) h

/-- The gains and residuals that a training has measured. -/
def measured (p : Nat) (info : TrainInfo) (s : State) : State :=
  modLink p (fun x => { x with
    gains := if info.gains.isEmpty then x.gains else info.gains
    residuals := if info.residuals.isEmpty then x.residuals else info.residuals }) s

/-- The phase after phase ph of a training in which lanes remain. -/
def phasePassed (p : Nat) (info : TrainInfo) (ph : Nat) (s : State) : State :=
  match ph with
  | 1 => beginPhase p (if (linkOf s p).simplex then 3 else 2) (measured p info s)
  | 2 => beginPhase p 3 (measured p info s)
  | 3 => beginPhase p 4 (retireLanes p info.lanes.toNat (measured p info s))
  | 4 => beginPhase p 5 (retireLanes p info.lanes.toNat (measured p info s))
  | _ => linkUp p info (measured p info s)

theorem exec_trainPhaseDone {p : Fin 9} {info : TrainInfo} {s : State} (h : canTrainPhaseDone p info s = true) :
    exec (.trainPhaseDone p info) s = .next (if s.reg (aqzlPage p) Rg.aqzlLinkStatusState = 1 then detectDone p info s
      else phasePassed p info (s.reg (aqzlPage p) Rg.aqzlLinkStatusPhase) s) := by
  simp only [canTrainPhaseDone, Bool.and_eq_true, Bool.or_eq_true, beq_iff_eq, bne_iff_ne] at h
  obtain ⟨⟨halive, htrains⟩, hlanes⟩ := h
  refine congrArg Host.Outcome.next ((if_neg ?_).trans ?_)
  · rw [not_or]
    exact ⟨nn halive, nn (decide_eq_true htrains)⟩
  · iterate 2 rw [if_neg hlanes]
    rfl

/-- A restarted training: the first phase begins again, in the mode that LINK_CONTROL asks for. -/
def trainAgain (p : Nat) (s : State) : State :=
  beginPhase p 0 ((takeMode p (noteTraining (s.bump (aqzlPage p) Rg.aqzlRetrainsCount))).setReg (aqzlPage p) Rg.aqzlLinkStatusState 1)

theorem trainAgain_restarts (p : Nat) (s : State) : (linkOf (trainAgain p s) p).restarts = (linkOf s p).restarts := by
  unfold trainAgain beginPhase
  rw [linkOf_modLink, linkOf_setReg, linkOf_setReg, takeMode, linkOf_modLink]
  rfl

theorem trainAgain_phase (p : Nat) (s : State) : (trainAgain p s).reg (aqzlPage p) Rg.aqzlLinkStatusPhase = 0 := reg_beginPhase (by decide) _

theorem trainAgain_mem (p : Nat) (s : State) : (trainAgain p s).mem = s.mem := by
  unfold trainAgain beginPhase takeMode noteTraining
  rfl

theorem trainAgain_state (p : Nat) (s : State) : (trainAgain p s).reg (aqzlPage p) Rg.aqzlLinkStatusState = 1 := by
  unfold trainAgain beginPhase
  rw [reg_modLink, State.reg_setReg_other _ (fieldBit_ne (by decide))]
  exact reg_setReg_fits (by decide) _

theorem exec_trainPhaseTimeout {p : Fin 9} {s : State} (h : canTrainPhaseTimeout p s = true) :
    exec (.trainPhaseTimeout p) s = .next (if (linkOf s p).restarts ≥ 3 then
      trainFail p 0x0331 (s.reg (aqzlPage p) Rg.aqzlLinkStatusPhase) s
    else modLink p (fun x => { x with restarts := x.restarts + 1 }) (trainAgain p s)) := by
  simp only [canTrainPhaseTimeout, Bool.and_eq_true, Bool.or_eq_true, beq_iff_eq, decide_eq_true_eq, and_assoc] at h
  exact congrArg Host.Outcome.next (if_pos h)

/-! ### Codewords (R425, R428) -/

/-- A codeword on a lane has locked it, and its corrected symbols count. -/
def laneHeard (lane n : Nat) (x : Link) : Link :=
  { x with
    errors := tabMod 0 lane (fun v => min (v + n) (2 ^ 32 - 1)) x.errors
    locked := if x.locked.contains lane then x.locked else x.locked ++ [lane] }

theorem laneHeard_locked (lane n : Nat) (x : Link) : (laneHeard lane n x).locked.contains lane = true := by
  unfold laneHeard
  by_cases hlocked : lane ∈ x.locked <;> simp [hlocked]

theorem laneHeard_errors (lane n : Nat) (x : Link) :
    tabGet 0 lane (laneHeard lane n x).errors = min (tabGet 0 lane x.errors + n) (2 ^ 32 - 1) := tabGet_put_same ..

/-- A codeword beyond correction: at least 11 symbols count, and the error is recorded. -/
def codewordLost (p lane seq : Nat) (s : State) : State :=
  (((modLink p (laneHeard lane (11 + (s.free 8).toNat)) s).usedFree).bump (aqzlPage p) Rg.aqzlFecUncorrectedCount).error (aqzlPage p) 0x0332 0
    (lane + seq * 2 ^ 16)

theorem codewordLost_locked (p lane seq : Nat) (s : State) : (linkOf (codewordLost p lane seq s) p).locked.contains lane = true := by
  unfold codewordLost
  rw [linkOf_error, linkOf_bump, linkOf_usedFree, linkOf_modLink]
  exact laneHeard_locked ..

/-- What a codeword leaves: counted and locked, or lost and answered with a NAK where the link is up. -/
def codewordHeard (p lane seq : Nat) (fec : FecResult) (s : State) : State :=
  match fec with
  | .corrected n => (modLink p (laneHeard lane n) s).addReg (aqzlPage p) Rg.aqzlFecCorrectedCount n
  | .uncorrectable => if portUp s p then sendNak p (codewordLost p lane seq s) else codewordLost p lane seq s

theorem exec_codewordRx {p : Fin 9} {lane : Fin 4} {seq : BitVec 10} {fec : FecResult} {s : State} (h : canCodewordRx p lane seq fec s = true) :
    exec (.codewordRx p lane seq fec) s = .next (codewordHeard p lane seq.toNat fec s) := by
  simp only [canCodewordRx, Bool.and_eq_true, Bool.or_eq_true, beq_iff_eq] at h
  obtain ⟨halive, hhears⟩ := h
  refine congrArg Host.Outcome.next ((if_neg ?_).trans ?_)
  · rw [not_or]
    exact ⟨nn halive, nn (decide_eq_true hhears)⟩
  · cases fec <;> rfl

theorem exec_codewordLockLoss {p : Fin 9} {lane : Fin 4} {s : State} (h : canCodewordLockLoss p lane s = true) :
    exec (.codewordLockLoss p lane) s = .next (modLink p (fun x => { x with locked := x.locked.filter (· != lane.val) }) s) :=
  congrArg Host.Outcome.next (if_pos h)

/-! ### The statement -/

/-- Settles O31: a phase by the number it stands at, a codeword by whether it could be corrected. -/
theorem linkTrainingComplete : Obligations.LinkTrainingComplete := by
  unfold Obligations.LinkTrainingComplete
  refine ⟨?start, ?retrain, ?drift, ?done, ?timeout, ?codeword, ?lockLoss, ?limit⟩
  case start => exact fun p cause s h => ⟨_, exec_trainStart h, rfl⟩
  case retrain => exact fun who p s h => ⟨_, exec_retrainWrite h, rfl, flag_setReg_one rfl s⟩
  case drift => exact fun p lane s h => ⟨_, exec_levelDrift h, rfl⟩
  case done =>
    intro p info s h
    refine ⟨_, exec_trainPhaseDone h, fun hdetects => if_pos hdetects, ?_, ?_, ?_, ?_, ?_⟩
    all_goals
      intro htrains hphase
      rw [if_neg (by omega), hphase]
    · exact reg_beginPhase (by split <;> decide) _
    · exact reg_beginPhase (by decide) _
    · exact reg_beginPhase (by decide) _
    · exact reg_beginPhase (by decide) _
    · exact ⟨_, rfl, rfl⟩
  case timeout =>
    intro p s h
    refine ⟨_, exec_trainPhaseTimeout h, fun hspent => if_pos hspent, fun hleft => ?_⟩
    rw [if_neg (Nat.not_le.mpr hleft)]
    refine ⟨?_, trainAgain_state p s, trainAgain_phase p s, trainAgain_mem p s⟩
    rw [linkOf_modLink]
    exact congrArg (· + 1) (trainAgain_restarts p s)
  case codeword =>
    intro p lane seq fec s h
    refine ⟨_, exec_codewordRx h, ?_, ?_⟩
    · rintro n rfl
      rw [codewordHeard, linkOf_addReg, linkOf_modLink]
      exact ⟨laneHeard_locked .., laneHeard_errors .., State.addReg_mem ..⟩
    · rintro rfl hup
      exact ⟨_, if_pos hup, codewordLost_locked ..⟩
  case lockLoss => exact fun p lane s h => ⟨_, exec_codewordLockLoss h, linkOf_modLink .., rfl, rfl⟩
  case limit =>
    intro p s h
    obtain ⟨r, hr, hexec⟩ := exec_retryLimit h
    exact ⟨_, hexec, r, hr, rfl⟩

end Sys2Proof.Machine
end

section
/-! SUPPORT. Flits, acknowledgements, credits and seals of a link (R427, R434 to R437, R460), and the statement on them. -/

namespace Sys2Proof.Machine

/-! ### FLIT_RX (R434) -/

/-- The port's numbers once the flit it awaited has come. -/
def flitCounted (p : Nat) (s : State) : State :=
  setLink p { linkOf s p with rxSeq := ((linkOf s p).rxSeq + 1) % 4096, discarding := false, unacked := (linkOf s p).unacked + 1, rxAny := true } s

/-- A good flit is taken in its turn; one out of turn is asked for again, once. -/
def flitAccepted (p : Nat) (flit : Flit) (s : State) : State :=
  if flit.null then s
  else if flit.fseq.toNat = (linkOf s p).rxSeq then sealsArrive p (takeFlit p flit (flitCounted p s))
  else if (linkOf s p).discarding then s
  else sendNak p s

theorem exec_flitRx {p : Fin 9} {flit : Flit} {crcOk : Bool} {s : State} (h : canFlitRx p flit crcOk s = true) :
    exec (.flitRx p flit crcOk) s = .next (if !crcOk then sendNak p (s.bump (aqzlPage p) Rg.aqzlCrcErrorsCount) else flitAccepted p flit s) :=
  congrArg Host.Outcome.next (if_neg (nn (decide_eq_true (Bool.and_eq_true_iff.mp h))))

/-! ### FLIT_TX (R435) -/

theorem alive_flush (s : State) : (flush s).alive = s.alive := by
  unfold State.alive
  rw [(flush_only s).plat rfl]

/-- What a port whose replay buffer has room sends: the next flit of the channel that is chosen, or a null flit. -/
def flitSent (p : Nat) (s : State) : State :=
  if s.frozen (aqzlPage p) then sendNull p s
  else
    match chooseVc s p (linkOf s p) with
    | some (vc, turn) =>
      match vcFront (linkOf s p) vc with
      | some q => sendFlit p vc turn q s
      | none => sendNull p s
    | none =>
      sendNull p (if (List.range 8).any fun vc =>
          (vcFront (linkOf s p) vc).isSome && decide ((linkOf s p).inFlight.getD vc 0 ≥ (linkOf s p).peerDivision.getD vc 0)
        then setLink p { linkOf s p with starvedAt := s.now } s else s)

theorem exec_flitTx {p : Fin 9} {s : State} (h : canFlitTx p s = true) : exec (.flitTx p) s = .next (flitSent p (flush s)) := by
  simp only [canFlitTx, Bool.and_eq_true, decide_eq_true_eq, Option.isNone_iff_eq_none] at h
  obtain ⟨⟨⟨halive, hup⟩, hresend⟩, hroom⟩ := h
  have hserves : (flush s).alive = true ∧ portUp (flush s) p = true := ⟨(alive_flush s).trans halive, hup⟩
  refine congrArg Host.Outcome.next ((if_neg (nn (decide_eq_true hserves))).trans ?_)
  dsimp only
  split
  · next i hi => cases hi.symm.trans hresend
  · rw [decide_eq_false (Nat.not_le.mpr hroom), Bool.false_or]
    rfl

/-- A port that is frozen, or has no channel that may send, sends a null flit. -/
theorem flitSent_null {p : Nat} {s : State} (h : s.frozen (aqzlPage p) = true ∨ chooseVc s p (linkOf s p) = none) :
    ∃ u, flitSent p s = sendNull p u ∧ u.out = s.out ∧ (linkOf u p).replay = (linkOf s p).replay := by
  unfold flitSent
  by_cases hfrozen : s.frozen (aqzlPage p) = true
  · exact ⟨s, if_pos hfrozen, rfl, rfl⟩
  · rw [if_neg hfrozen, h.resolve_left hfrozen]
    refine ⟨_, rfl, ?_⟩
    refine ite_prop (fun u : State => u.out = s.out ∧ (linkOf u p).replay = (linkOf s p).replay) (fun _ => ⟨rfl, ?_⟩) (fun _ => ⟨rfl, rfl⟩)
    rw [linkOf_setLink]

/-! ### FLOW, ACK, NAK and CREDIT (R434, R436, R437) -/

/-- The channels that the partner has switched off. -/
def xoffAfter (vc : Nat) (xoff : Bool) (l : List Nat) : List Nat :=
  if xoff then (if l.contains vc then l else l ++ [vc]) else l.filter (· != vc)

theorem contains_xoffAfter (vc : Nat) (xoff : Bool) (l : List Nat) : (xoffAfter vc xoff l).contains vc = xoff := by
  cases xoff
  case false => simp [xoffAfter]
  case true => by_cases hoff : vc ∈ l <;> simp [xoffAfter, hoff]

theorem exec_flow {p : Fin 9} {vc : Fin 8} {xoff : Bool} {s : State} (h : canFlow p vc xoff s = true) :
    exec (.flow p vc xoff) s = .next (if vc = 0 ∨ vc = 7 then (if xoff then s.countErrors (aqzlPage p) 1 else s)
      else modLink p (fun x => { x with xoff := xoffAfter vc.val xoff x.xoff }) s) :=
  congrArg Host.Outcome.next (if_neg (nn (decide_eq_true (Bool.and_eq_true_iff.mp h))))

theorem exec_ack {p : Fin 9} {fseq : BitVec 12} {s : State} (h : canAck p fseq s = true) :
    exec (.ack p fseq) s = .next (modLink p (dropAcked fseq.toNat) s) := congrArg Host.Outcome.next (if_pos (Bool.and_eq_true_iff.mp h))

/-- What the NAK of a sequence number leaves to send again. -/
def resendFrom (fseq : Nat) (x : Link) : Link :=
  { dropAcked ((fseq + 4095) % 4096) x with
    resend := if (dropAcked ((fseq + 4095) % 4096) x).replay.isEmpty then none else some 0 }

/-- The flits that are not acknowledged go out again from the one named, and the seals with them. -/
def flitsResent (p fseq : Nat) (s : State) : State :=
  let t := modLink p (resendFrom fseq) (s.bump (aqzlPage p) Rg.aqzlRetriesCount)
  t.each (linkOf t p).sealsSent fun m u => u.gate p (if m.ret then 4 else 3) (m.tag + 64 * m.dest + 2 ^ 18 * m.fseq)

theorem exec_nak {p : Fin 9} {fseq : BitVec 12} {s : State} (h : canNak p fseq s = true) :
    exec (.nak p fseq) s = .next (flitsResent p fseq.toNat s) := congrArg Host.Outcome.next (if_pos (Bool.and_eq_true_iff.mp h))

theorem flitsResent_fabric (p fseq : Nat) (s : State) :
    (flitsResent p fseq s).fabric = (modLink p (resendFrom fseq) (s.bump (aqzlPage p) Rg.aqzlRetriesCount)).fabric := by
  unfold flitsResent
  exact each_keep State.fabric (by intros; rfl) ..

theorem flitsResent_link (p fseq : Nat) (s : State) : linkOf (flitsResent p fseq s) p = resendFrom fseq (linkOf s p) := by
  rw [linkOf_fabric (flitsResent_fabric ..), linkOf_modLink, linkOf_bump]

theorem flitsResent_mem (p fseq : Nat) (s : State) : (flitsResent p fseq s).mem = s.mem := by
  unfold flitsResent
  exact each_keep State.mem (by intros; rfl) ..

/-- A link after the partner has told how many credits it has freed in all. -/
def credited (vc count now : Nat) (x : Link) : Link :=
  { x with
    inFlight := x.inFlight.set vc (x.inFlight.getD vc 0 - (count + 1024 - x.told.getD vc 0) % 1024)
    told := x.told.set vc count
    creditAt := if (count + 1024 - x.told.getD vc 0) % 1024 = 0 then x.creditAt else now }

theorem exec_credit {p : Fin 9} {vc : Fin 8} {count : BitVec 10} {s : State} (h : canCredit p vc count s = true) :
    exec (.credit p vc count) s = .next (modLink p (credited vc count.toNat s.now) s) :=
  congrArg Host.Outcome.next (if_pos (Bool.and_eq_true_iff.mp h))

/-! ### ACK_TIMER (R434) -/

/-- The link has acknowledged what it has received. -/
def ackedNow (p : Nat) (s : State) : State := setLink p { linkOf s p with unacked := 0, ackedAt := s.now } s

theorem exec_ackTimer {p : Fin 9} {s : State} (h : canAckTimer p s = true) :
    exec (.ackTimer p) s = .next ((ackedNow p s).gate p 5 (((linkOf s p).rxSeq + 4095) % 4096)) := by
  simp only [canAckTimer, Bool.and_eq_true, Bool.or_eq_true, decide_eq_true_eq, and_assoc] at h
  exact congrArg Host.Outcome.next (if_pos h)

/-! ### Seals and the state of the gates (R427, R460) -/

/-- The seal stands among those that have come and wait for their flit. -/
def sealNoted (p : Nat) (m : GateSeal) (s : State) : State :=
  setLink p { linkOf s p with
    sealsSeen := ((linkOf s p).sealsSeen ++ [m]).drop (((linkOf s p).sealsSeen.length + 1) - 64), sealsIn := (linkOf s p).sealsIn ++ [m] } s

theorem sealNoted_in (p : Nat) (m : GateSeal) (s : State) : (linkOf (sealNoted p m s) p).sealsIn = (linkOf s p).sealsIn ++ [m] := by
  rw [sealNoted, linkOf_setLink]

theorem sealArrives_new {p : Nat} {m : GateSeal} {s : State} (h : (s.alive && portUp s p && !(linkOf s p).sealsSeen.contains m) = true) :
    sealArrives p m s = sealsArrive p (sealNoted p m s) := by
  obtain ⟨hserves, hnew⟩ := Bool.and_eq_true_iff.mp h
  refine if_neg ?_
  rw [Bool.or_eq_true, not_or]
  exact ⟨nn hserves, nb hnew⟩

theorem exec_seal {p : Fin 9} {tag : Fin 64} {dest fseq : BitVec 12} {s : State} (h : canSeal p tag dest fseq s = true) :
    exec (.seal p tag dest fseq) s = .next (sealsArrive p (sealNoted p ⟨false, tag, dest.toNat, fseq.toNat⟩ s)) :=
  congrArg Host.Outcome.next (sealArrives_new h)

theorem exec_sealReturn {p : Fin 9} {tag : Fin 64} {dest fseq : BitVec 12} {s : State} (h : canSealReturn p tag dest fseq s = true) :
    exec (.sealReturn p tag dest fseq) s = .next (sealsArrive p (sealNoted p ⟨true, tag, dest.toNat, fseq.toNat⟩ s)) :=
  congrArg Host.Outcome.next (sealArrives_new h)

theorem exec_gateStateResend {p : Fin 9} {s : State} (h : canGateStateResend p s = true) :
    exec (.gateStateResend p) s = .next (s.each ((List.range 64).filter (quenched s)) fun k t => t.gate p 2 (k + 64)) :=
  congrArg Host.Outcome.next (if_pos (Bool.and_eq_true_iff.mp h))

/-- What is sent for each of a list stands in its order behind what was sent before. -/
theorem out_each_emit {α : Type} (e : α → Emission) (l : List α) (s : State) : (s.each l fun a t => t.emit (e a)).out = s.out ++ l.map e := by
  induction l generalizing s with
  | nil => exact (List.append_nil _).symm
  | cons a l ih =>
    rw [each_cons, ih, List.map_cons, List.append_cons]
    rfl

/-! ### The statement -/

/-- Settles O32: a received flit by its check and its turn, a sent one by whether a channel may send, the rest by what the link then holds. -/
theorem flitsAndSealsComplete : Obligations.FlitsAndSealsComplete := by
  unfold Obligations.FlitsAndSealsComplete
  refine ⟨?rx, ?tx, ?flow, ?ack, ?nak, ?credit, ?timer, ?sealed, ?sealReturn, ?gates⟩
  case rx =>
    intro p flit crcOk s h
    refine ⟨_, exec_flitRx h, ?_, ?_, ?_, ?_⟩
    · rintro rfl
      rfl
    · rintro rfl hnull
      exact if_pos hnull
    · rintro rfl hflit hturn
      exact (if_neg (ne_true_of_eq_false hflit)).trans (if_pos hturn)
    · rintro rfl hflit hturn
      exact (if_neg (ne_true_of_eq_false hflit)).trans (if_neg hturn)
  case tx =>
    intro p s h
    refine ⟨_, exec_flitTx h, fun vc turn q hthawed hvc hfront => ?_, flitSent_null⟩
    rw [flitSent, if_neg (ne_true_of_eq_false hthawed), hvc]
    dsimp only
    rw [hfront]
  case flow =>
    intro p vc xoff s h
    refine ⟨_, exec_flow h, fun h0 h7 => ?_, fun hfixed => if_pos hfixed⟩
    rw [if_neg (by simp [h0, h7]), linkOf_modLink]
    exact ⟨contains_xoffAfter .., rfl, rfl⟩
  case ack => exact fun p fseq s h => ⟨_, exec_ack h, linkOf_modLink .., rfl, rfl⟩
  case nak =>
    intro p fseq s h
    refine ⟨_, exec_nak h, ?_, ?_, flitsResent_mem ..⟩ <;> rw [flitsResent_link] <;> rfl
  case credit => exact fun p vc count s h => ⟨_, exec_credit h, linkOf_modLink .., rfl, rfl⟩
  case timer =>
    intro p s h
    have hlink : linkOf ((ackedNow p s).gate p 5 (((linkOf s p).rxSeq + 4095) % 4096)) p = { linkOf s p with unacked := 0, ackedAt := s.now } :=
      linkOf_setLink ..
    exact ⟨_, exec_ackTimer h, rfl, congrArg Link.unacked hlink, congrArg Link.ackedAt hlink, rfl⟩
  case sealed => exact fun p tag dest fseq s h => ⟨_, exec_seal h, _, rfl, sealNoted_in .., rfl⟩
  case sealReturn => exact fun p tag dest fseq s h => ⟨_, exec_sealReturn h, _, rfl, sealNoted_in .., rfl⟩
  case gates =>
    intro p s h
    exact ⟨_, exec_gateStateResend h, out_each_emit (fun k => .gate p 2 (k + 64)) .., each_keep State.regs (by intros; rfl) ..,
      each_keep State.fabric (by intros; rfl) ..⟩

end Sys2Proof.Machine
end

section
/-! SUPPORT. Time across a link, and the lanes that sleep, wake and are refreshed (R438, R467, R468), and the statement on them. -/

namespace Sys2Proof.Machine

/-! ### TIME_EXCHANGE_TX and TIME (R467, R468) -/

/-- The link has sent its time, and sends back what it last got with the time of its arrival. -/
def timesSent (p now : Nat) (s : State) : State :=
  let t := (setLink p { linkOf s p with timeSent := some now } s).gate p 8 (64 * now)
  match (linkOf s p).timeGot with
  | some (_, got) => t.gate p 8 (1 + 64 * got)
  | none => t

theorem exec_timeExchangeTx {p : Fin 9} {s : State} (h : canTimeExchangeTx p s = true) :
    exec (.timeExchangeTx p) s = .next (timesSent p (timeFine s.timeBits % 2 ^ 50) s) :=
  congrArg Host.Outcome.next (if_pos (Bool.and_eq_true_iff.mp h))

theorem timesSent_link (p now : Nat) (s : State) : linkOf (timesSent p now s) p = { linkOf s p with timeSent := some now } := by
  unfold timesSent
  dsimp only
  split <;> exact linkOf_setLink ..

theorem timesSent_out (p now : Nat) (s : State) : (timesSent p now s).out = s.out ++ [.gate p 8 (64 * now)] ++
    (match (linkOf s p).timeGot with
      | some (_, got) => [.gate p 8 (1 + 64 * got)]
      | none => []) := by
  unfold timesSent
  dsimp only
  split
  · rfl
  · exact (List.append_nil _).symm

theorem timesSent_regs (p now : Nat) (s : State) : (timesSent p now s).regs = s.regs := by
  unfold timesSent
  dsimp only
  split <;> rfl

/-- The offset that the exchange over the upstream port gives, where both times are known. -/
def answerHeard (p value : Nat) (s : State) : State :=
  let t := setLink p { linkOf s p with timeHeard := s.now } s
  match (linkOf s p).timeGot, (linkOf s p).timeSent with
  | some (t1, t2), some t3 =>
    if p < 8 ∧ !s.flag fabrPage Rg.fabrTimeControlMaster ∧ s.reg fabrPage Rg.fabrTimeControlUpstream = p then timeOffset t1 t2 t3 value t else t
  | _, _ => t

/-- A time that a link hears: the partner's own, or its answer to what was sent. -/
def timeHeard (p value localTime : Nat) (asked : Bool) (s : State) : State :=
  if asked then setLink p { linkOf s p with timeGot := some (value, localTime), timeHeard := s.now } s else answerHeard p value s

theorem exec_time {p : Fin 9} {kind : BitVec 6} {value localTime : BitVec 50} {s : State} (h : canTime p kind value localTime s = true) :
    exec (.time p kind value localTime) s = .next (timeHeard p value.toNat localTime.toNat (kind == 0) s) := by
  obtain ⟨hserves, hkind⟩ := Bool.and_eq_true_iff.mp h
  simp only [Bool.or_eq_true, beq_iff_eq] at hkind
  refine congrArg Host.Outcome.next ((if_neg (nn (decide_eq_true (Bool.and_eq_true_iff.mp hserves)))).trans ?_)
  rcases hkind with rfl | rfl <;> rfl

/-- The offset of an exchange is no part of a link. -/
theorem timeOffset_links (t1 t2 t3 t4 : Nat) (s : State) : (timeOffset t1 t2 t3 t4 s).fabric.links = s.fabric.links := by
  unfold timeOffset
  refine ite_prop (fun u : State => u.fabric.links = s.fabric.links) (fun _ => rfl) (fun _ => ?_)
  exact ite_prop (fun u : State => u.fabric.links = s.fabric.links)
    (fun _ => (congrArg FabricState.links ((servo_only ..).fabric rfl)).trans rfl) (fun _ => rfl)

theorem answerHeard_link (p value : Nat) (s : State) : linkOf (answerHeard p value s) p = { linkOf s p with timeHeard := s.now } := by
  have hlink := linkOf_setLink p { linkOf s p with timeHeard := s.now } s
  unfold answerHeard
  dsimp only
  split
  · refine ite_prop (fun u : State => linkOf u p = { linkOf s p with timeHeard := s.now }) (fun _ => ?_) (fun _ => hlink)
    exact (linkOf_of_links (timeOffset_links ..) p).trans hlink
  · exact hlink

theorem answerHeard_mem (p value : Nat) (s : State) : (answerHeard p value s).mem = s.mem := by
  unfold answerHeard
  dsimp only
  split
  · exact ite_prop (fun u : State => u.mem = s.mem) (fun _ => (timeOffset_only ..).mem rfl) (fun _ => rfl)
  · rfl

/-! ### TIME_UPSTREAM_LOSS (R468) -/

/-- The offsets gathered from the upstream port are dropped. -/
def offsetsDropped (s : State) : State := { s with fabric := { s.fabric with offsetSum := 0, offsetCount := 0 } }

/-- Another port is upstream, or the device goes into holdover where none is. -/
def upstreamTaken (next : Option (Fin 8)) (s : State) : State :=
  match next with
  | some q => modLink q (fun x => { x with timeHeard := s.now }) ((offsetsDropped s).setReg fabrPage Rg.fabrTimeControlUpstream q)
  | none => (enterHoldover (offsetsDropped s)).raise fabrPage 4

theorem exec_timeUpstreamLoss {next : Option (Fin 8)} {s : State} (h : canTimeUpstreamLoss next s = true) :
    exec (.timeUpstreamLoss next) s = .next (upstreamTaken next s) := by
  simp only [canTimeUpstreamLoss, Bool.and_eq_true, decide_eq_true_eq] at h
  obtain ⟨⟨⟨halive, hslave⟩, hsilent⟩, hnext⟩ := h
  refine congrArg Host.Outcome.next ((if_neg ?_).trans ?_)
  · rw [not_or, not_or]
    exact ⟨nn halive, nb hslave, Nat.not_lt.mpr hsilent⟩
  · cases next with
    | none => rfl
    | some q =>
      simp only [Option.all_some, Bool.and_eq_true, bne_iff_ne] at hnext
      exact if_pos hnext

/-! ### POWER and the lanes (R438) -/

theorem exec_power {p : Fin 9} {mask : BitVec 4} {wake : Bool} {seq : BitVec 10} {s : State} (h : canPower p mask wake seq s = true) :
    exec (.power p mask wake seq) s =
      .next (modLink p (fun x => { x with peerMask := if wake then 0 else mask.toNat, peerSeq := seq.toNat }) s) :=
  congrArg Host.Outcome.next (if_pos (Bool.and_eq_true_iff.mp h))

/-- A number without a bit that is set in it. -/
theorem testBit_sub_two_pow {v i : Nat} (h : v.testBit i = true) : (v - 2 ^ i).testBit i = false := by
  have hodd : v / 2 ^ i % 2 = 1 := by simpa [Nat.testBit_eq_decide_div_mod_eq] using h
  have hle : 2 ^ i ≤ v := Nat.ge_two_pow_of_testBit h
  have hdiv : v / 2 ^ i = (v - 2 ^ i) / 2 ^ i + 1 := Nat.div_eq_sub_div (Nat.two_pow_pos i) hle
  rw [Nat.testBit_eq_decide_div_mod_eq, decide_eq_false_iff_not]
  omega

theorem testBit_cleared (v i : Nat) : (if v.testBit i then v - 2 ^ i else v).testBit i = false := by
  by_cases h : v.testBit i = true
  · rw [if_pos h]
    exact testBit_sub_two_pow h
  · rw [if_neg h]
    exact eq_false_of_ne_true h

theorem testBit_set (v i : Nat) : (v ||| 2 ^ i).testBit i = true := by rw [Nat.testBit_or, Nat.testBit_two_pow_self, Bool.or_true]

/-- A lane that is put to sleep is asleep and not active; one that is woken is active and not asleep. -/
theorem setAsleep_lane (p : Nat) (lane : Fin 4) (asleep : Bool) (s : State) :
    laneActive (setAsleep p lane asleep s) p lane = !asleep ∧ laneAsleep (setAsleep p lane asleep s) p lane = asleep := by
  have hlane : decide (lane.val < 4) = true := decide_eq_true lane.isLt
  unfold laneActive laneAsleep setAsleep
  dsimp only
  rw [State.reg_setReg_other _ (fieldBit_ne (by decide)), State.reg_setReg_same, State.reg_setReg_same]
  change (Nat.testBit (_ % 2 ^ 4) _ = _) ∧ (Nat.testBit (_ % 2 ^ 4) _ = _)
  rw [Nat.testBit_mod_two_pow, Nat.testBit_mod_two_pow, hlane, Bool.true_and, Bool.true_and]
  cases asleep
  case false => exact ⟨testBit_set .., testBit_cleared ..⟩
  case true => exact ⟨testBit_cleared .., testBit_set ..⟩

/-- The time since which a lane has slept is noted, or forgotten. -/
def sleptSince (p lane : Nat) (since : Option Nat) (s : State) : State :=
  setLink p { linkOf s p with
    sleptAt := match since with
      | some at_ => tabSet lane at_ (linkOf s p).sleptAt
      | none => tabDel lane (linkOf s p).sleptAt } s

theorem sleptSince_some (p lane at_ : Nat) (s : State) : tabFind lane (linkOf (sleptSince p lane (some at_) s) p).sleptAt = some at_ := by
  rw [sleptSince, linkOf_setLink]
  exact tabFind_set_same ..

/-- The lane is asleep or awake. -/
def laneTurned (p lane : Nat) (asleep : Bool) (s : State) : State :=
  setAsleep p lane asleep (sleptSince p lane (if asleep then some s.now else none) s)

/-- The partner is told that a lane sleeps, under the number of the message that it goes with. -/
def sleepTold (p : Nat) (s t : State) : State := (t.gate p 9 (t.reg (aqzlPage p) Rg.aqzlLinkStatusAsleep + 64 * sleepSeq s p)).usedFree

/-- The partner is told that a lane wakes. -/
def wakeTold (p : Nat) (s : State) : State := s.gate p 9 (s.reg (aqzlPage p) Rg.aqzlLinkStatusAsleep + 16)

theorem exec_laneSleep {p : Fin 9} {lane : Fin 4} {s : State} (h : canLaneSleep p lane s = true) :
    exec (.laneSleep p lane) s = .next (sleepTold p s (laneTurned p lane true s)) := by
  simp only [canLaneSleep, Bool.and_eq_true, bne_iff_ne, and_assoc] at h
  exact congrArg Host.Outcome.next (if_pos h)

theorem exec_laneWake {p : Fin 9} {lane : Fin 4} {errors : Bool} {s : State} (h : canLaneWake p lane errors s = true) :
    exec (.laneWake p lane errors) s =
      .next (if errors then startTraining p (wakeTold p (laneTurned p lane false s)) else wakeTold p (laneTurned p lane false s)) := by
  simp only [canLaneWake, Bool.and_eq_true, and_assoc] at h
  exact congrArg Host.Outcome.next (if_pos h)

theorem exec_laneRefresh {p : Fin 9} {lane : Fin 4} {s : State} (h : canLaneRefresh p lane s = true) :
    exec (.laneRefresh p lane) s =
      .next (if s.flag (aqzlPage p) Rg.aqzlPowerAllowSleep ∧ (linkOf s p).peerMask.testBit lane then sleptSince p lane (some s.now) s
        else laneTurned p lane false s) := by
  simp only [canLaneRefresh, Bool.and_eq_true, decide_eq_true_eq, and_assoc] at h
  exact congrArg Host.Outcome.next (if_pos h)

/-! ### The statement -/

/-- Settles O33: a time by its kind, the loss of the upstream port by whether another stands in, a lane by the bit that it then has. -/
theorem linkTimeAndPowerComplete : Obligations.LinkTimeAndPowerComplete := by
  unfold Obligations.LinkTimeAndPowerComplete
  refine ⟨?exchange, ?time, ?loss, ?power, ?sleep, ?wake, ?refresh⟩
  case exchange =>
    intro p s h
    have hlink := timesSent_link p (timeFine s.timeBits % 2 ^ 50) s
    exact ⟨_, exec_timeExchangeTx h, congrArg Link.timeSent hlink, (congrArg Link.timeGot hlink :), timesSent_out .., timesSent_regs ..⟩
  case time =>
    intro p kind value localTime s h
    refine ⟨_, exec_time h, ?_⟩
    by_cases hkind : kind = 0
    · have hlink := linkOf_setLink p { linkOf s p with timeGot := some (value.toNat, localTime.toNat), timeHeard := s.now } s
      rw [timeHeard, if_pos (beq_iff_eq.mpr hkind)]
      exact ⟨congrArg Link.timeHeard hlink, fun _ => congrArg Link.timeGot hlink, rfl⟩
    · rw [timeHeard, if_neg (beq_iff_eq.not.mpr hkind)]
      exact ⟨congrArg Link.timeHeard (answerHeard_link ..), fun hasked => absurd hasked hkind, answerHeard_mem ..⟩
  case loss =>
    intro next s h
    refine ⟨_, exec_timeUpstreamLoss h, ?_, ?_⟩
    · rintro q rfl
      have hq : q.val < 2 ^ 4 := Nat.lt_trans q.isLt (by decide)
      exact ⟨reg_setReg_fits (f := Rg.fabrTimeControlUpstream) (i := 0) hq _, congrArg Link.timeHeard (linkOf_modLink ..), rfl⟩
    · rintro rfl
      exact raised_bit _ _ _ (by decide)
  case power => exact fun p mask wake seq s h => ⟨_, exec_power h, linkOf_modLink .., rfl, rfl⟩
  case sleep =>
    intro p lane s h
    obtain ⟨hactive, hasleep⟩ := setAsleep_lane p lane true (sleptSince p lane (some s.now) s)
    exact ⟨_, exec_laneSleep h, hactive, hasleep, sleptSince_some .., rfl⟩
  case wake =>
    intro p lane errors s h
    obtain ⟨hactive, hasleep⟩ := setAsleep_lane p lane false (sleptSince p lane none s)
    refine ⟨_, exec_laneWake h, ?_, ?_⟩
    · rintro rfl
      exact ⟨hactive, hasleep, rfl⟩
    · rintro rfl
      exact ⟨_, rfl, hasleep⟩
  case refresh =>
    intro p lane s h
    obtain ⟨hactive, hasleep⟩ := setAsleep_lane p lane false (sleptSince p lane none s)
    refine ⟨_, exec_laneRefresh h, fun hallow hmask => ?_, fun hawake => ?_⟩
    · rw [if_pos ⟨hallow, hmask⟩]
      exact ⟨sleptSince_some .., rfl⟩
    · have hrefused : ¬(s.flag (aqzlPage p) Rg.aqzlPowerAllowSleep = true ∧ (linkOf s p).peerMask.testBit lane = true) := by
        rintro ⟨hallow, hmask⟩
        simp [hallow, hmask] at hawake
      rw [if_neg hrefused]
      exact ⟨hactive, hasleep⟩

end Sys2Proof.Machine
end

section
/-! SUPPORT. Requests of the fabric at their home (R446, R453, R466): what serving each kind of request comes to, and the statement on them. -/

namespace Sys2Proof.Machine

section
variable {pkt : Packet} {s : State}

/-! ### An answer at home -/

/-- A request that its home takes and serves at once with status 0 is answered with the data. -/
theorem homeCommand_answers {op : BitVec 8} {grantE : Bool} {t : State} {data : List Byte} (h : homeTaken s op pkt = true)
    (hserve : serve pkt grantE (heardState s pkt) = .answer t 0 0 data) : Answered pkt grantE t data (homeCommand op pkt grantE s) := by
  rw [homeCommand_taken h, hserve]
  rfl

/-! ### Reads, writes and atomics (R446) -/

theorem readServed_data {b : List Byte} (h : rangeBytes s pkt.part pkt.addr.toNat (requestBytes pkt) = some b)
    (done : List Byte → State → Served) :
    readServed pkt done s = done b (s.partTouch pkt.part pkt.addr.toNat (requestBytes pkt)) := by
  obtain ⟨d, hread, hbytes⟩ := rangeBytes_data h
  simp only [readServed, hread, hbytes]

theorem writeServed_done {bytes : List Byte} (h : s.partWriteCheck pkt.part pkt.addr.toNat bytes.length = .done) (status : Nat)
    (data : List Byte) : writeServed pkt bytes status data s = .answer (absorb pkt (s.partStore pkt.part pkt.addr.toNat bytes)) status 0 data := by
  simp only [writeServed, h]

/-- A LOAD and a DMA_READ are answered with the bytes at home. -/
theorem load_answers (h : canLoad pkt s = true) : ∃ b, homeBytes s pkt = some b ∧
    Answered pkt false (noteLoad pkt ((heardState s pkt).partTouch pkt.part pkt.addr.toNat (requestBytes pkt))) b (homeCommand opLoad pkt false s) := by
  obtain ⟨htaken, hbytes⟩ := Bool.and_eq_true_iff.mp h
  obtain ⟨b, hb⟩ := Option.isSome_iff_exists.mp hbytes
  have hop : pkt.op = opLoad := homeTaken_op htaken
  refine ⟨b, hb, homeCommand_answers htaken ?_⟩
  rw [serve, if_neg (by rw [hop]; decide), if_pos hop]
  exact readServed_data hb _

theorem dmaRead_answers (h : canDmaRead pkt s = true) : ∃ b, homeBytes s pkt = some b ∧
    Answered pkt false ((heardState s pkt).partTouch pkt.part pkt.addr.toNat (requestBytes pkt)) b (homeCommand opDmaRead pkt false s) := by
  obtain ⟨htaken, hbytes⟩ := Bool.and_eq_true_iff.mp h
  obtain ⟨b, hb⟩ := Option.isSome_iff_exists.mp hbytes
  have hop : pkt.op = opDmaRead := homeTaken_op htaken
  refine ⟨b, hb, homeCommand_answers htaken ?_⟩
  rw [serve, if_neg (by rw [hop]; decide), if_neg (by rw [hop]; decide), if_pos hop]
  exact readServed_data hb _

/-- A STORE, an MCAST_STORE and a DMA_WRITE store their bytes and are answered without data. -/
theorem store_answers {op : BitVec 8} (hop : op = opStore ∨ op = opMcast ∨ op = opDmaWrite)
    (h : (homeTaken s op pkt && homeWrites s pkt) = true) :
    Answered pkt false (absorb pkt ((heardState s pkt).partStore pkt.part pkt.addr.toNat (pkt.data.take (requestBytes pkt)))) []
      (homeCommand op pkt false s) := by
  obtain ⟨htaken, hwrites⟩ := Bool.and_eq_true_iff.mp h
  have hother : pkt.op ≠ opReadS ∧ pkt.op ≠ opReadX ∧ pkt.op ≠ opLoad ∧ pkt.op ≠ opDmaRead := by
    rw [homeTaken_op htaken]
    rcases hop with rfl | rfl | rfl <;> decide
  obtain ⟨hreadS, hreadX, hload, hread⟩ := hother
  refine homeCommand_answers htaken ?_
  rw [serve, if_neg (not_or.mpr ⟨hreadS, hreadX⟩), if_neg hload, if_neg hread, if_pos (by rw [homeTaken_op htaken]; exact hop)]
  exact writeServed_done (beq_iff_eq.mp hwrites) ..

/-- An atomic writes its result where nothing keeps the word, and is answered with the old value, or without data (ATOMIC_NR). -/
theorem atomic_answers {op : BitVec 8} (hop : op = opAtomic ∨ op = opAtomicNr) (h : (homeTaken s op pkt && homeAtomic s pkt) = true) :
    ∃ old, homeBytes s pkt = some old ∧
      Answered pkt false (atomicDone pkt old s) (if op = opAtomic then old else []) (homeCommand op pkt false s) := by
  obtain ⟨htaken, hplace⟩ := Bool.and_eq_true_iff.mp h
  simp only [homeAtomic, Bool.and_eq_true, Option.isNone_iff_eq_none, beq_iff_eq] at hplace
  obtain ⟨⟨⟨haccess, hfree⟩, hbytes⟩, hcheck⟩ := hplace
  obtain ⟨old, hold⟩ := Option.isSome_iff_exists.mp hbytes
  have hpkt : pkt.op = op := homeTaken_op htaken
  have hother : pkt.op ≠ opReadS ∧ pkt.op ≠ opReadX ∧ pkt.op ≠ opLoad ∧ pkt.op ≠ opDmaRead ∧
      ¬(pkt.op = opStore ∨ pkt.op = opMcast ∨ pkt.op = opDmaWrite) := by
    rw [hpkt]
    rcases hop with rfl | rfl <;> decide
  obtain ⟨hreadS, hreadX, hload, hread, hstore⟩ := hother
  refine ⟨old, hold, homeCommand_answers htaken ?_⟩
  rw [serve, if_neg (not_or.mpr ⟨hreadS, hreadX⟩), if_neg hload, if_neg hread, if_neg hstore, if_pos (by rw [hpkt]; exact hop)]
  rw [atomicServed, haccess]
  dsimp only
  rw [if_neg (nb hfree), readServed_data hold, ← hpkt]
  exact writeServed_done (by rw [toBytes_length]; exact hcheck) ..

/-! ### REDUCE (R446, R466) -/

/-- A single contribution is combined with the line in memory, once that is at hand. -/
def singleServed (pkt : Packet) (s : State) : Served :=
  match memoryLine s pkt.part pkt.addr.toNat pkt.ext.toNat pkt.func with
  | none => .later ((s.partTouch pkt.part pkt.addr.toNat 64).partTouch pkt.part pkt.ext.toNat (lineExps pkt.func))
  | some m => .answer (putLine pkt.part pkt.addr.toNat pkt.ext.toNat (zCombine pkt.func m (zPacket pkt))
      ((s.partTouch pkt.part pkt.addr.toNat 64).partTouch pkt.part pkt.ext.toNat (lineExps pkt.func))) 0 0 []

/-- REDUCE where the line and its exponents may be accessed and no write waits. -/
theorem reduceServed_free (haccess : accessError s pkt.part pkt.addr.toNat 64 true = none)
    (hexps : accessError s pkt.part pkt.ext.toNat (lineExps pkt.func) true = none)
    (hline : writeWaits s pkt.part pkt.addr.toNat 64 = false) (hwait : writeWaits s pkt.part pkt.ext.toNat (lineExps pkt.func) = false) :
    reduceServed pkt s = if pkt.contributors ≠ 0 then gatherServed pkt s else singleServed pkt s := by
  simp only [reduceServed, haccess, hexps, hline, hwait, Bool.false_eq_true, or_self, if_false]
  rfl

/-- The gather that a first contribution starts. -/
def gatherStarted (pkt : Packet) (now : Nat) : Gather :=
  { count := pkt.contributors.toNat, scaleAddr := pkt.ext.toNat, func := pkt.func, since := now, got := [(pkt.index.toNat, pkt)] }

theorem gatherServed_first (hmany : pkt.contributors.toNat > 1) (hroom : s.fabric.gathers.length < 64)
    (hnew : tabFind (pkt.part.val * 2 ^ 64 + pkt.addr.toNat) s.fabric.gathers = none) :
    gatherServed pkt s = .taken { s with fabric := { s.fabric with
      gathers := tabSet (pkt.part.val * 2 ^ 64 + pkt.addr.toNat) (gatherStarted pkt s.now) s.fabric.gathers } } := by
  unfold gatherServed
  dsimp only
  rw [hnew]
  dsimp only
  rw [if_neg (Nat.not_le.mpr hroom), if_neg (by simp), if_neg (by simp [tabFind]),
    if_pos (show (tabSet pkt.index.toNat pkt []).length < pkt.contributors.toNat from hmany)]
  rfl

/-- Taking a packet out of its port leaves the gathers and the memory. -/
theorem takeRx_gathers (pkt : Packet) (s : State) : (takeRx pkt s).fabric.gathers = s.fabric.gathers := by
  unfold takeRx
  split
  · rfl
  · refine ite_prop (fun u : State => u.fabric.gathers = s.fabric.gathers) (fun _ => rfl) (fun _ => ?_)
    unfold freeFlits
    exact ite_prop (fun u : State => u.fabric.gathers = s.fabric.gathers) (fun _ => rfl) (fun _ => rfl)

/-- What canReduce says of the home. -/
theorem canReduce_free (h : canReduce pkt s = true) : homeTaken s opReduce pkt = true ∧
    reduceServed pkt (heardState s pkt) =
      (if pkt.contributors ≠ 0 then gatherServed pkt (heardState s pkt) else singleServed pkt (heardState s pkt)) ∧
    (if pkt.contributors = 0 then (memoryLine (heardState s pkt) pkt.part pkt.addr.toNat pkt.ext.toNat pkt.func).isSome = true
      else pkt.contributors.toNat > 1 ∧ s.fabric.gathers.length < 64 ∧
        tabFind (pkt.part.val * 2 ^ 64 + pkt.addr.toNat) s.fabric.gathers = none) := by
  simp only [canReduce, Bool.and_eq_true, Option.isNone_iff_eq_none, Bool.not_eq_true'] at h
  obtain ⟨⟨⟨⟨⟨htaken, haccess⟩, hexps⟩, hline⟩, hwait⟩, hkind⟩ := h
  refine ⟨htaken, reduceServed_free haccess hexps hline hwait, ?_⟩
  by_cases hzero : pkt.contributors = 0
  · rw [if_pos hzero] at hkind ⊢
    exact hkind
  · rw [if_neg hzero] at hkind ⊢
    simpa only [Bool.and_eq_true, decide_eq_true_eq, Option.isNone_iff_eq_none, and_assoc] using hkind

theorem serve_reduce (hop : pkt.op = opReduce) (grantE : Bool) : serve pkt grantE s = reduceServed pkt s := by
  have hother : ¬(pkt.op = opReadS ∨ pkt.op = opReadX) ∧ pkt.op ≠ opLoad ∧ pkt.op ≠ opDmaRead ∧
      ¬(pkt.op = opStore ∨ pkt.op = opMcast ∨ pkt.op = opDmaWrite) ∧ ¬(pkt.op = opAtomic ∨ pkt.op = opAtomicNr) := by
    rw [hop]
    decide
  obtain ⟨hcoherent, hload, hread, hstore, hatomic⟩ := hother
  rw [serve, if_neg hcoherent, if_neg hload, if_neg hread, if_neg hstore, if_neg hatomic]

/-- A REDUCE of one contribution combines its line with the one in memory. -/
theorem reduce_answers (h : canReduce pkt s = true) (hsingle : pkt.contributors = 0) :
    ∃ m, memoryLine (heardState s pkt) pkt.part pkt.addr.toNat pkt.ext.toNat pkt.func = some m ∧
      Answered pkt false (putLine pkt.part pkt.addr.toNat pkt.ext.toNat (zCombine pkt.func m (zPacket pkt))
        (((heardState s pkt).partTouch pkt.part pkt.addr.toNat 64).partTouch pkt.part pkt.ext.toNat (lineExps pkt.func))) []
        (homeCommand opReduce pkt false s) := by
  obtain ⟨htaken, hserved, hkind⟩ := canReduce_free h
  rw [if_pos hsingle] at hkind
  obtain ⟨m, hm⟩ := Option.isSome_iff_exists.mp hkind
  refine ⟨m, hm, homeCommand_answers htaken ?_⟩
  rw [serve_reduce (homeTaken_op htaken), hserved, if_neg (not_not.mpr hsingle), singleServed, hm]

/-- The first of several contributions waits for the others. -/
theorem reduce_gathers (h : canReduce pkt s = true) (hmany : pkt.contributors ≠ 0) :
    let t := homeCommand opReduce pkt false s
    tabFind (pkt.part.val * 2 ^ 64 + pkt.addr.toNat) t.fabric.gathers = some (gatherStarted pkt s.now) ∧ t.mem = s.mem := by
  obtain ⟨htaken, hserved, hkind⟩ := canReduce_free h
  rw [if_neg hmany] at hkind
  obtain ⟨hcount, hroom, hnew⟩ := hkind
  dsimp only
  rw [homeCommand_taken htaken, serve_reduce (homeTaken_op htaken), hserved, if_pos hmany,
    gatherServed_first (s := heardState s pkt) hcount hroom hnew]
  dsimp only
  rw [takeRx_gathers, (takeRx_only ..).mem rfl]
  exact ⟨tabFind_set_same .., rfl⟩

/-! ### READ_S and READ_X (R453) -/

/-- The directory entry of a line that had none, once it is granted. -/
def granted (excl : Bool) (r now : Nat) : DirEntry :=
  if excl then { sharers := [], owner := some r, used := now } else { sharers := [r], used := now }

theorem dirFind_setDir_granted (dk : Nat) (excl : Bool) (r now : Nat) (s : State) :
    dirFind (setDir dk (granted excl r now) s) dk = some (granted excl r now) := by
  cases excl <;> exact tabFind_set_same ..

/-- A line that the home holds whole is granted with its bytes. -/
theorem grantLine_answers {pe : PageEntry} {bytes : List Byte} (hpage : s.pageOf pkt.part pkt.addr.toNat = some pe)
    (hbytes : (partBytes s pkt.part (pkt.addr.toNat, 64) 0).mapM id = some bytes) (excl : Bool) :
    ∃ u, grantLine pkt {} excl s = .answer u 0 0 bytes ∧
      dirFind u (dirKey pkt.part pkt.addr.toNat) = some (granted excl pkt.src.toNat s.now) := by
  unfold grantLine
  dsimp only
  rw [hpage]
  dsimp only
  rw [hbytes]
  cases excl <;> exact ⟨_, rfl, dirFind_setDir_granted ..⟩

theorem dirRoom_room (h : s.fabric.dir.length < 4 * 8388608) : dirRoom s = s := if_pos h

/-- A line without a directory entry that nothing keeps is served by granting it. -/
theorem coherentServed_grants {grantE : Bool} (h : lineGrants s pkt (pkt.op == opReadX) = true) :
    (∃ pe bytes, (heardState s pkt).pageOf pkt.part pkt.addr.toNat = some pe ∧
      (partBytes (heardState s pkt) pkt.part (pkt.addr.toNat, 64) 0).mapM id = some bytes) ∧
    coherentServed pkt grantE (heardState s pkt) = grantLine pkt {} ((pkt.op == opReadX) || grantE) (heardState s pkt) := by
  simp only [lineGrants, Bool.and_eq_true, Option.isNone_iff_eq_none, decide_eq_true_eq] at h
  obtain ⟨⟨⟨⟨⟨⟨⟨haccess, hgroup⟩, hunit⟩, hwrites⟩, hblock⟩, hdir⟩, hroom⟩, hplace⟩ := h
  obtain ⟨pe, hpage, hright⟩ := any_some hplace
  obtain ⟨hfree, hwhole⟩ := Bool.and_eq_true_iff.mp hright
  obtain ⟨hhere, hheld⟩ := Bool.and_eq_true_iff.mp hfree
  obtain ⟨region, key, hplaced⟩ : ∃ region key, placeOf (heardState s pkt) pe pkt.addr.toNat = .here region key := by
    cases hplaced : placeOf (heardState s pkt) pe pkt.addr.toNat with
    | here region key => exact ⟨region, key, rfl⟩
    | unreachable port => rw [hplaced] at hhere; exact absurd hhere Bool.false_ne_true
    | coded object off => rw [hplaced] at hhere; exact absurd hhere Bool.false_ne_true
    | remote device addr => rw [hplaced] at hhere; exact absurd hhere Bool.false_ne_true
  obtain ⟨bytes, hbytes⟩ := Option.isSome_iff_exists.mp hwhole
  refine ⟨⟨pe, bytes, hpage, hbytes⟩, ?_⟩
  unfold coherentServed
  dsimp only
  rw [haccess]
  dsimp only
  rw [if_neg (by rw [hpage, hgroup]; dsimp only; rw [hplaced]; simp), if_neg (nb hunit), if_neg (by rw [hpage]; simpa using hheld),
    if_neg (by simpa [imp_iff_not_or] using hwrites), if_neg (by simpa [imp_iff_not_or] using hblock), hdir]
  dsimp only
  rw [dirRoom_room hroom]

/-- READ_S and READ_X are answered with the line and leave the requester in the directory. -/
theorem read_answers {op : BitVec 8} {grantE : Bool} (hop : op = opReadS ∨ op = opReadX)
    (h : (homeTaken s op pkt && lineGrants s pkt (op == opReadX)) = true) :
    ∃ b u, grantLine pkt {} ((op == opReadX) || grantE) (heardState s pkt) = .answer u 0 0 b ∧
      dirFind u (dirKey pkt.part pkt.addr.toNat) = some (granted ((op == opReadX) || grantE) pkt.src.toNat s.now) ∧
      Answered pkt grantE u b (homeCommand op pkt grantE s) := by
  obtain ⟨htaken, hgrants⟩ := Bool.and_eq_true_iff.mp h
  have hpkt : pkt.op = op := homeTaken_op htaken
  rw [← hpkt] at hgrants
  obtain ⟨⟨pe, bytes, hpage, hbytes⟩, hserved⟩ := coherentServed_grants (grantE := grantE) hgrants
  obtain ⟨u, hu, hentry⟩ := grantLine_answers hpage hbytes ((pkt.op == opReadX) || grantE)
  rw [← hpkt]
  refine ⟨bytes, u, hu, hentry, ?_⟩
  rw [hpkt]
  refine homeCommand_answers htaken ?_
  rw [serve, if_pos (by rw [hpkt]; exact hop), hserved, hu]

end

/-! ### The statement -/

/-- Settles O27: each request by the part of serve that its operation selects. -/
theorem requestsAtHomeComplete : Obligations.RequestsAtHomeComplete := by
  unfold Obligations.RequestsAtHomeComplete
  refine ⟨?load, ?store, ?atomic, ?atomicNr, ?reduce, ?mcast, ?dmaRead, ?dmaWrite, ?readS, ?readX⟩
  case load => exact fun pkt s h => ⟨_, rfl, load_answers h⟩
  case store => exact fun pkt s h => ⟨_, rfl, store_answers (.inl rfl) h⟩
  case atomic => exact fun pkt s h => ⟨_, rfl, atomic_answers (.inl rfl) h⟩
  case atomicNr => exact fun pkt s h => ⟨_, rfl, atomic_answers (.inr rfl) h⟩
  case reduce =>
    intro pkt s h
    refine ⟨_, rfl, reduce_answers h, fun hmany => ?_⟩
    obtain ⟨hgather, hmem⟩ := reduce_gathers h hmany
    exact ⟨_, hgather, rfl, rfl, hmem⟩
  case mcast => exact fun pkt s h => ⟨_, rfl, store_answers (.inr (.inl rfl)) h⟩
  case dmaRead => exact fun pkt s h => ⟨_, rfl, dmaRead_answers h⟩
  case dmaWrite => exact fun pkt s h => ⟨_, rfl, store_answers (.inr (.inr rfl)) h⟩
  case readS =>
    intro pkt grantE s h
    obtain ⟨b, u, hu, hentry, hanswered⟩ := read_answers (grantE := grantE) (.inl rfl) h
    refine ⟨_, rfl, _, b, u, hu, hentry, ?_, ?_, hanswered⟩ <;> cases grantE <;> rfl
  case readX =>
    intro pkt s h
    obtain ⟨b, u, hu, hentry, hanswered⟩ := read_answers (grantE := false) (.inr rfl) h
    exact ⟨_, rfl, _, b, u, hu, hentry, rfl, rfl, hanswered⟩

end Sys2Proof.Machine
end

section
/-! SUPPORT. The messages about cached lines (R453), the timeout of a gather (R466) and the absorber's writeback (R454), and the statement on them. -/

namespace Sys2Proof.Machine

section
variable {pkt : Packet} {s : State}

theorem exec_writeback (h : canWriteback pkt s = true) : exec (.writeback pkt) s =
    .next ((takeRx pkt (lineAnswered (dirKey pkt.part pkt.addr.toNat) pkt.src.toNat true (lineBack pkt s))).sendPackets [responseTo s pkt 0 0 []]) := by
  obtain ⟨htaken, howned⟩ := Bool.and_eq_true_iff.mp h
  obtain ⟨e, he, howner⟩ := any_some howned
  refine congrArg Host.Outcome.next ((lineCommand_taken htaken _).trans ?_)
  simp only [he, if_pos (beq_iff_eq.mp howner)]

/-- A directory entry without a device. -/
def evicted (d : Nat) (e : DirEntry) : DirEntry :=
  { e with sharers := e.sharers.filter (· != d), owner := if e.owner = some d then none else e.owner }

theorem exec_evict (h : canEvict pkt s = true) : ∃ e, dirFind s (dirKey pkt.part pkt.addr.toNat) = some e ∧ exec (.evict pkt) s =
    .next ((takeRx pkt (setDir (dirKey pkt.part pkt.addr.toNat) (evicted pkt.src.toNat e) s)).sendPackets [responseTo s pkt 0 0 []]) := by
  obtain ⟨htaken, hentry⟩ := Bool.and_eq_true_iff.mp h
  obtain ⟨e, he⟩ := Option.isSome_iff_exists.mp hentry
  refine ⟨e, he, congrArg Host.Outcome.next ((lineCommand_taken htaken _).trans ?_)⟩
  simp only [he]
  rfl

theorem exec_invalidate (h : canInvalidate pkt s = true) : exec (.invalidate pkt) s =
    .next ((takeRx pkt (if pkt.func = 2 then s else setCopy (copyKey pkt.src.toNat pkt.part pkt.addr.toNat)
      { (copyOf s (copyKey pkt.src.toNat pkt.part pkt.addr.toNat)) with data := none, excl := false, dirty := false } s)).sendPackets
      [responseTo s pkt 0 0 []]) := congrArg Host.Outcome.next (lineCommand_taken h _)

/-- The copy that a RECALL leaves: none with FUNC 1, else a shared one. -/
def recalled (func : Fin 16) (x : CopyLine) : CopyLine :=
  if func = 1 then { x with data := none, excl := false, dirty := false } else { x with excl := false, dirty := false }

theorem exec_recall (h : canRecall pkt s = true) : exec (.recall pkt) s =
    .next ((takeRx pkt (setCopy (copyKey pkt.src.toNat pkt.part pkt.addr.toNat)
      (recalled pkt.func (copyOf s (copyKey pkt.src.toNat pkt.part pkt.addr.toNat))) s)).sendPackets [responseTo s pkt 0 0
      (if (copyOf s (copyKey pkt.src.toNat pkt.part pkt.addr.toNat)).excl ∧ (copyOf s (copyKey pkt.src.toNat pkt.part pkt.addr.toNat)).dirty
        then (copyOf s (copyKey pkt.src.toNat pkt.part pkt.addr.toNat)).data.getD [] else [])]) :=
  congrArg Host.Outcome.next (lineCommand_taken h _)

theorem exec_gatherTimeout {part : Fin 64} {addr : BitVec 64} (h : canGatherTimeout part addr s = true) :
    ∃ g, tabFind (part.val * 2 ^ 64 + addr.toNat) s.fabric.gathers = some g ∧ exec (.gatherTimeout part addr) s =
      .next ((putLine part addr.toNat g.scaleAddr (zPoison g.func)
        { s with fabric := { s.fabric with gathers := tabDel (part.val * 2 ^ 64 + addr.toNat) s.fabric.gathers } }).error fabrPage 0x0344 0
        (selfDevice s)) := by
  obtain ⟨halive, hgathers⟩ := Bool.and_eq_true_iff.mp h
  obtain ⟨g, hg, hlate⟩ := any_some hgathers
  refine ⟨g, hg, ?_⟩
  simp only [exec, execGatherTimeout, hg]
  exact congrArg Host.Outcome.next (if_pos ⟨halive, of_decide_eq_true hlate⟩)

/-- The absorber of a die without a line. -/
def absorberWithout (m line : Nat) (s : State) : State :=
  { s with fabric := { s.fabric with
    absorber := tabPut [] m ((tabGet [] m s.fabric.absorber).filter fun e => e.1 != line) s.fabric.absorber } }

theorem exec_absorberWriteback {m : Fin 4} {line : Nat} (h : canAbsorberWriteback m line s = true) :
    exec (.absorberWriteback m line) s = .next (absorberWithout m.val line s) := congrArg Host.Outcome.next (if_pos (Bool.and_eq_true_iff.mp h))

end

/-! ### The statement -/

/-- Settles O28: each message by its work on the directory or the copy, the absorber by what it then holds. -/
theorem lineMessagesComplete : Obligations.LineMessagesComplete := by
  unfold Obligations.LineMessagesComplete
  refine ⟨?writeback, ?evict, ?invalidate, ?recalled, ?timeout, ?absorber⟩
  case writeback => exact fun pkt s h => ⟨_, exec_writeback h, rfl⟩
  case evict =>
    intro pkt s h
    obtain ⟨e, he, hexec⟩ := exec_evict h
    exact ⟨_, hexec, e, he, rfl⟩
  case invalidate => exact fun pkt s h => ⟨_, exec_invalidate h, rfl⟩
  case recalled => exact fun pkt s h => ⟨_, exec_recall h, rfl⟩
  case timeout =>
    intro part addr s h
    obtain ⟨g, hg, hexec⟩ := exec_gatherTimeout h
    exact ⟨_, hexec, g, hg, rfl⟩
  case absorber => exact fun m line s h => ⟨_, exec_absorberWriteback h, tabGet_put_same .., rfl, rfl⟩

end Sys2Proof.Machine
end

section
/-! SUPPORT. Destinations move between outputs, outputs drain and go down, and partitions are quenched (R459 to R464), and the statement on it. -/

namespace Sys2Proof.Machine

/-! ### ROUTE_MOVE and ROUTE_RETURN (R459, R460) -/

theorem exec_routeMove {dest : BitVec 12} {output : Fin 8} {s : State} {a : Nat} (h : routeMoves (flush s) dest.toNat output = some a) :
    exec (.routeMove dest output) s = .next (moveDest dest.toNat a output.val false (flush s)) := by
  obtain ⟨hout, hdue⟩ := Option.filter_eq_some_iff.mp h
  simp only [Bool.and_eq_true, Bool.or_eq_true, decide_eq_true_eq, and_assoc] at hdue
  refine congrArg Host.Outcome.next ?_
  dsimp only
  rw [hout]
  exact if_pos hdue

theorem exec_routeReturn {dest : BitVec 12} {s : State} {a p : Nat} (h : routeReturns (flush s) dest.toNat = some (a, p)) :
    exec (.routeReturn dest) s = .next (moveDest dest.toNat a p true (flush s)) := by
  refine congrArg Host.Outcome.next ?_
  unfold routeReturns at h
  dsimp only at h ⊢
  cases hout : outputOf (flush s) dest.toNat 0 with
  | none => simp [hout] at h
  | some a' =>
    cases hway : (waysTo (flush s) dest.toNat).head? with
    | none => simp [hout, hway] at h
    | some p' =>
      rw [hout, hway] at h
      dsimp only at h ⊢
      obtain ⟨hdue, hway⟩ := Option.ite_none_right_eq_some.mp h
      obtain ⟨rfl, rfl⟩ := Prod.mk.inj (Option.some.inj hway)
      exact if_pos hdue

/-- A destination that moves stands in the table under its new output and the tag of its seal. -/
theorem moveDest_entry {d a dst g : Nat} {back : Bool} {s : State} (h : freeTag s = some g) :
    tabFind d (moveDest d a dst back s).fabric.moves = some { output := dst, tag := some g, back := back } := by
  unfold moveDest
  rw [h]
  dsimp only
  rw [State.raiseBits_fabric, State.bump_fabric]
  exact tabFind_set_same ..

/-! ### An output goes down and drains (R461) -/

/-- The output is down: its queues are empty, the destinations that had moved to it are listed, and its seals are wanted. -/
def outputFallen (p : Nat) (s : State) : State :=
  let x := linkOf s p
  let moved := (s.fabric.moves.filter fun (e : Nat × MoveEntry) => e.2.output == p).map (·.1)
  let wants := (heldFrom s p).map fun d => (p, d)
  let peer := if s.flag fabrPage Rg.fabrPortPeerValid p then some (s.reg fabrPage Rg.fabrPortPeerDevice p) else none
  let t := setLink p { x with queues := [], sealsOut := [], downHandled := true, away := true, back := [] } s
  let t := { t with fabric := { t.fabric with
    draining := tabSet p { since := s.now, peer := peer, dests := moved } t.fabric.draining
    wanted := t.fabric.wanted ++ wants
    moves := t.fabric.moves.filter fun (e : Nat × MoveEntry) => e.2.output != p || e.2.tag.isSome } }
  updateReach ((t.bump fabrPage Rg.fabrReroutesCount).raise fabrPage 1)

theorem exec_outputDown {p : Fin 8} {s : State} (h : canOutputDown p s = true) : exec (.outputDown p) s =
    .next (settleDrain p (issueWanted (releaseHeld (outputItems (linkOf (flush s) p)) (outputFallen p (flush s))))) := by
  simp only [canOutputDown, Bool.and_eq_true, and_assoc] at h
  rw [← alive_flush s] at h
  exact congrArg Host.Outcome.next (if_pos h)

theorem outputFallen_link (p : Nat) (s : State) : (linkOf (outputFallen p s) p).queues = [] ∧ (linkOf (outputFallen p s) p).downHandled = true := by
  have hlink : linkOf (outputFallen p s) p =
      { linkOf s p with queues := [], sealsOut := [], downHandled := true, away := true, back := [] } := by
    unfold outputFallen
    dsimp only
    rw [(updateReach_only _).linkOf_same rfl, (State.raise_only ..).linkOf_same rfl, (State.bump_only ..).linkOf_same rfl]
    exact linkOf_setLink ..
  rw [hlink]
  exact ⟨rfl, rfl⟩

theorem exec_drained {p : Fin 8} {s : State} (h : canDrained p s = true) : exec (.drained p) s = .next (endDrain p (flush s)) :=
  congrArg Host.Outcome.next (if_pos h)

theorem exec_drainTimeout {p : Fin 8} {s : State} (h : canDrainTimeout p s = true) :
    ∃ e, tabFind p.val s.fabric.draining = some e ∧
      exec (.drainTimeout p) s = .next (endDrain p ((flush s).error fabrPage 0x0345 0 (e.peer.getD 0))) := by
  obtain ⟨halive, hdrains⟩ := Bool.and_eq_true_iff.mp h
  obtain ⟨e, he, hlate⟩ := any_some hdrains
  refine ⟨e, he, ?_⟩
  simp only [exec, execDrainTimeout, he]
  exact congrArg Host.Outcome.next (if_pos ⟨halive, of_decide_eq_true hlate⟩)

/-! ### Quenching (R464) -/

theorem exec_quenchWrite {who : Requester} {value : BitVec 64} {s : State} (h : canQuenchWrite who value s = true) :
    exec (.quenchWrite who value) s = .next (setQuench value.toNat s) := congrArg Host.Outcome.next (writeAccess_taken h)

/-- The partition that a neighbour has quenched is learned. -/
def quenchLearned (k : Nat) (s : State) : State :=
  { (flush s) with fabric := { (flush s).fabric with learned := s.fabric.learned ||| 1#64 <<< k } }

/-- What was learned of the partition is dropped, no news of it is heard for a while, and the other neighbours are told. -/
def quenchForgotten (p k : Nat) (s : State) : State :=
  let t := { (flush s) with fabric := { (flush s).fabric with
    learned := (flush s).fabric.learned &&& ~~~(1#64 <<< k), ignoreUntil := tabSet k (s.now + 10000) (flush s).fabric.ignoreUntil } }
  t.each ((List.range 9).filter fun q => portUp s q && q != p) fun q u => u.gate q 2 k

theorem exec_quench {p : Fin 9} {part : Fin 64} {on : Bool} {s : State} (h : canQuench p part on s = true) :
    exec (.quench p part on) s = .next (updateQuench (if on then quenchLearned part.val s else quenchForgotten p part.val s)) := by
  obtain ⟨hserves, hhears⟩ := Bool.and_eq_true_iff.mp h
  refine congrArg Host.Outcome.next ((if_neg ?_).trans ?_)
  · rw [Bool.or_eq_true, not_or]
    exact ⟨nn hserves, nb hhears⟩
  · cases on <;> rfl

theorem quenchForgotten_fabric (p k : Nat) (s : State) : (quenchForgotten p k s).fabric = { (flush s).fabric with
    learned := (flush s).fabric.learned &&& ~~~(1#64 <<< k), ignoreUntil := tabSet k (s.now + 10000) (flush s).fabric.ignoreUntil } := by
  unfold quenchForgotten
  exact each_keep State.fabric (by intros; rfl) ..

/-- A word and the complement of one bit has not that bit. -/
theorem getLsbD_without (v : BitVec 64) (k : Fin 64) : (v &&& ~~~(1#64 <<< k.val)).getLsbD k.val = false := by
  simp

theorem quenchForgotten_learned (p : Nat) (k : Fin 64) (s : State) : ¬(quenchForgotten p k.val s).fabric.learned.getLsbD k.val = true := by
  rw [quenchForgotten_fabric]
  exact ne_true_of_eq_false (getLsbD_without ..)

theorem quenchForgotten_deaf (p k : Nat) (s : State) : tabGet 0 k (quenchForgotten p k s).fabric.ignoreUntil = s.now + 10000 := by
  rw [quenchForgotten_fabric]
  exact tabGet_set_same ..

/-! ### The statement -/

/-- Settles O49: a move by the table's entry, an output by its queues, a quench by what stays learned. -/
theorem routingComplete : Obligations.RoutingComplete := by
  unfold Obligations.RoutingComplete
  refine ⟨?move, ?back, ?down, ?drained, ?timeout, ?write, ?quench⟩
  case move =>
    intro dest output s h
    obtain ⟨hmoves, htag⟩ := Bool.and_eq_true_iff.mp h
    obtain ⟨a, ha⟩ := Option.isSome_iff_exists.mp hmoves
    obtain ⟨g, hg⟩ := Option.isSome_iff_exists.mp htag
    exact ⟨_, exec_routeMove ha, a, g, ha, hg, rfl, moveDest_entry hg⟩
  case back =>
    intro dest s h
    obtain ⟨hreturns, htag⟩ := Bool.and_eq_true_iff.mp h
    obtain ⟨⟨a, p⟩, hap⟩ := Option.isSome_iff_exists.mp hreturns
    obtain ⟨g, hg⟩ := Option.isSome_iff_exists.mp htag
    exact ⟨_, exec_routeReturn hap, a, p, g, hap, hg, rfl, moveDest_entry hg⟩
  case down =>
    intro p s h
    obtain ⟨hqueues, hhandled⟩ := outputFallen_link p (flush s)
    exact ⟨_, exec_outputDown h, _, rfl, hqueues, hhandled⟩
  case drained => exact fun p s h => ⟨_, exec_drained h, rfl⟩
  case timeout =>
    intro p s h
    obtain ⟨e, he, hexec⟩ := exec_drainTimeout h
    exact ⟨_, hexec, e, he, rfl⟩
  case write => exact fun who value s h => ⟨_, exec_quenchWrite h, rfl⟩
  case quench =>
    intro p part on s h
    refine ⟨_, exec_quench h, ?_, ?_⟩
    · rintro rfl
      rfl
    · rintro rfl
      exact ⟨_, rfl, quenchForgotten_learned _ _ _, quenchForgotten_deaf ..⟩

end Sys2Proof.Machine
end

section
/-! SUPPORT. The time unit (R491 to R497, R596, R619): the servo, holdover, the sources, the pins and the registers of device time, and the
statement on them. -/

namespace Sys2Proof.Machine

/-! ### The servo (R492, R493) -/

/-- The largest offset that the servo steps, and the largest that it slews, in units of 2^−16 ns. -/
def stepLimit (s : State) : Nat := s.reg timePage Rg.timeStepLimitNano * 65536
def slewLimit (s : State) : Nat := min (s.reg timePage Rg.timeSlewLimitNano * 65536) (stepLimit s)

/-- The time since the sample before, which is free for the first. -/
def sampleGap (s : State) : Nat :=
  match s.time.sampleAt with
  | some at_ => s.now - at_
  | none => 1 + (s.free 31 2).toNat

/-- The sample is taken: its time and its offset are kept. -/
def sampleNoted (theta : Int) (s : State) : State :=
  ({ s with time := { s.time with sampleAt := some s.now } }.setReg timePage Rg.timeLastOffsetOffset (int64 theta)).usedFree 3

/-- An offset above the step limit is refused, one above the slew limit steps, and any other steers the frequency. -/
def sampleRefused (theta : Int) (s : State) : State :=
  ((sampleNoted theta s).bump timePage Rg.timeStepsRefusedCount).raise timePage 1

def sampleStepped (theta : Int) (s : State) : State :=
  lockState theta (slewLimit s) ({ sampleNoted theta s with
    time := { (sampleNoted theta s).time with step := s.time.step - theta } }.bump timePage Rg.timeStepsCount)

def steeredInteg (theta : Int) (s : State) : Int :=
  s.time.integ + servoTerm (s.reg timePage Rg.timeServoGainKi) theta (sampleGap s) (s.free 1 0)

def sampleSteered (theta : Int) (s : State) : State :=
  lockState theta (slewLimit s) (setY
    (s.time.yf - (servoTerm (s.reg timePage Rg.timeServoGainKp) theta (sampleGap s) (s.free 1 1) + steeredInteg theta s))
    { sampleNoted theta s with time := { (sampleNoted theta s).time with integ := steeredInteg theta s } })

theorem servo_unforced {s : State} (h : s.time.forced = false) (theta : Int) : servo theta s =
    if theta.natAbs > stepLimit s then sampleRefused theta s
    else if theta.natAbs > slewLimit s then sampleStepped theta s else sampleSteered theta s :=
  if_neg (ne_true_of_eq_false h)

theorem servo_forced {s : State} (h : s.time.forced = true) (theta : Int) : servo theta s = s := if_pos h

theorem reg_lockState {f : RegField} (hoff : offHeader timePage timePage f 0)
    (hstate : fieldBit timePage f 0 ≠ fieldBit timePage Rg.timeServoStatusState 0) (theta : Int) (slew : Nat) (s : State) : (lockState theta slew s).reg timePage f = s.reg timePage f := by
  unfold lockState
  dsimp only
  rw [State.reg_raiseBits_off _ hoff, State.reg_setReg_other _ hstate]
  rfl

theorem lockState_time (theta : Int) (slew : Nat) (s : State) : (lockState theta slew s).time.acceptedAt = s.now ∧
    (lockState theta slew s).time.step = s.time.step ∧ (lockState theta slew s).time.integ = s.time.integ ∧
    (lockState theta slew s).time.sampleAt = s.time.sampleAt := ⟨rfl, rfl, rfl, rfl⟩

theorem sampleNoted_offset (theta : Int) (s : State) : (sampleNoted theta s).reg timePage Rg.timeLastOffsetOffset = int64 theta :=
  (State.reg_setReg_same ..).trans (Nat.mod_eq_of_lt (BitVec.isLt _))

theorem sampleNoted_freq (theta : Int) (s : State) :
    (sampleNoted theta s).reg timePage Rg.timeFreqAdjY = s.reg timePage Rg.timeFreqAdjY :=
  State.reg_setReg_other _ (fieldBit_ne (by decide)) _

theorem sampleRefused_regs (theta : Int) (s : State) :
    (sampleRefused theta s).reg timePage Rg.timeLastOffsetOffset = int64 theta ∧
    (sampleRefused theta s).reg timePage Rg.timeFreqAdjY = s.reg timePage Rg.timeFreqAdjY := by
  unfold sampleRefused State.bump
  rw [State.reg_raise_off _ (offHeader_same (by decide)), State.reg_raise_off _ (offHeader_same (by decide)),
    State.reg_setReg_other _ (fieldBit_ne (by decide)), State.reg_setReg_other _ (fieldBit_ne (by decide))]
  exact ⟨sampleNoted_offset .., sampleNoted_freq ..⟩

theorem sampleStepped_offset (theta : Int) (s : State) : (sampleStepped theta s).reg timePage Rg.timeLastOffsetOffset = int64 theta := by
  unfold sampleStepped State.bump
  rw [reg_lockState (offHeader_same (by decide)) (fieldBit_ne (by decide)), State.reg_setReg_other _ (fieldBit_ne (by decide))]
  exact sampleNoted_offset ..

theorem sampleSteered_offset (theta : Int) (s : State) : (sampleSteered theta s).reg timePage Rg.timeLastOffsetOffset = int64 theta := by
  unfold sampleSteered setY
  rw [reg_lockState (offHeader_same (by decide)) (fieldBit_ne (by decide)), State.reg_setReg_other _ (fieldBit_ne (by decide))]
  exact sampleNoted_offset ..

theorem sampleGap_some {s : State} {at_ : Nat} (h : s.time.sampleAt = some at_) : sampleGap s = s.now - at_ := by
  unfold sampleGap
  rw [h]

/-- The servo takes a sample where no step is forced. -/
theorem servo_sampled {s : State} (h : s.time.forced = false) (theta : Int) : Sampled theta s (servo theta s) := by
  have hlimits : slewLimit s ≤ stepLimit s := Nat.min_le_right ..
  rw [servo_unforced h]
  unfold Sampled
  dsimp only
  change _ ∧ _ ∧ (theta.natAbs > stepLimit s → _) ∧ (theta.natAbs ≤ stepLimit s → theta.natAbs > slewLimit s → _) ∧
    (theta.natAbs ≤ slewLimit s → _)
  by_cases hbig : theta.natAbs > stepLimit s
  · rw [if_pos hbig]
    obtain ⟨hoffset, hfreq⟩ := sampleRefused_regs theta s
    refine ⟨rfl, hoffset, fun _ => ⟨rfl, rfl, hfreq, raised_bit _ _ _ (by decide)⟩, fun hsmall => ?_, fun hsmall => ?_⟩
    · exact absurd hbig (Nat.not_lt.mpr hsmall)
    · exact absurd hbig (Nat.not_lt.mpr (Nat.le_trans hsmall hlimits))
  · rw [if_neg hbig]
    by_cases hstep : theta.natAbs > slewLimit s
    · rw [if_pos hstep]
      refine ⟨rfl, sampleStepped_offset .., fun hover => absurd hover hbig, fun _ _ => ⟨rfl, rfl, rfl⟩, fun hsmall => ?_⟩
      exact absurd hstep (Nat.not_lt.mpr hsmall)
    · rw [if_neg hstep]
      refine ⟨rfl, sampleSteered_offset .., fun hover => absurd hover hbig, fun _ hover => absurd hover hstep, fun _ => ⟨rfl, rfl, ?_⟩⟩
      intro at_ hat
      exact ⟨s.free 1 0, sampleGap_some hat ▸ rfl⟩

/-! ### Exchanges (R492) -/

theorem reg_notePath {f : RegField} (h : fieldBit timePage f 0 ≠ fieldBit timePage Rg.timeMeanPathDelay 0) (twice : Int) (s : State) :
    (notePath twice s).reg timePage f = s.reg timePage f := State.reg_setReg_other _ h _

/-- The path of an exchange is noted in registers and fields that the servo does not read. -/
theorem sampled_notePath {theta twice : Int} {s t : State} (h : Sampled theta (notePath twice s) t) : Sampled theta s t := by
  unfold Sampled at h ⊢
  iterate 4 rw [reg_notePath (fieldBit_ne (by decide))] at h
  exact h

theorem notePath_mean (twice : Int) (s : State) : (notePath twice s).reg timePage Rg.timeMeanPathDelay =
    int64 (servoQuot ((notePath twice s).time.paths.foldl (· + ·) 0) (2 * (notePath twice s).time.paths.length) (s.free 1)) :=
  (State.reg_setReg_same ..).trans (Nat.mod_eq_of_lt (BitVec.isLt _))

theorem notePath_forced (twice : Int) (s : State) : (notePath twice s).time.forced = s.time.forced := rfl

/-- The servo leaves the measured paths and their mean alone. -/
theorem servo_path (theta : Int) (s : State) : (servo theta s).time.paths = s.time.paths ∧
    (servo theta s).reg timePage Rg.timeMeanPathDelay = s.reg timePage Rg.timeMeanPathDelay := by
  cases h : s.time.forced
  case true => rw [servo_forced h]; exact ⟨rfl, rfl⟩
  case false =>
    rw [servo_unforced h]
    refine ite_prop (fun t : State => t.time.paths = s.time.paths ∧ t.reg timePage Rg.timeMeanPathDelay = s.reg timePage Rg.timeMeanPathDelay)
      (fun _ => ⟨rfl, ?refused⟩) (fun _ => ite_prop (fun t : State => t.time.paths = s.time.paths ∧
        t.reg timePage Rg.timeMeanPathDelay = s.reg timePage Rg.timeMeanPathDelay) (fun _ => ⟨rfl, ?stepped⟩) (fun _ => ⟨rfl, ?steered⟩))
    all_goals
      have hnoted : (sampleNoted theta s).reg timePage Rg.timeMeanPathDelay = s.reg timePage Rg.timeMeanPathDelay :=
        State.reg_setReg_other _ (fieldBit_ne (by decide)) _
    case refused =>
      unfold sampleRefused State.bump
      rw [State.reg_raise_off _ (offHeader_same (by decide)), State.reg_setReg_other _ (fieldBit_ne (by decide)), hnoted]
    case stepped =>
      unfold sampleStepped State.bump
      rw [reg_lockState (offHeader_same (by decide)) (fieldBit_ne (by decide)), State.reg_setReg_other _ (fieldBit_ne (by decide))]
      exact hnoted
    case steered =>
      unfold sampleSteered setY
      rw [reg_lockState (offHeader_same (by decide)) (fieldBit_ne (by decide)), State.reg_setReg_other _ (fieldBit_ne (by decide))]
      exact hnoted

/-- What SERVO_SAMPLE learns of the path before the servo takes the sample. -/
def exchanged (t1 t2 : BitVec 96) (exchange : Option (BitVec 96 × BitVec 96)) (s : State) : State :=
  match exchange with
  | some (t3, t4) => if s.firmware then notePath (timeDiff t2 t1 + timeDiff t4 t3) s else s
  | none => s

theorem exchanged_none {t1 t2 : BitVec 96} {exchange : Option (BitVec 96 × BitVec 96)} {s : State} (h : exchange = none ∨ s.firmware = false) :
    exchanged t1 t2 exchange s = s := by
  rcases h with rfl | hfirmware
  · rfl
  · cases exchange with
    | none => rfl
    | some e => exact if_neg (ne_true_of_eq_false hfirmware)

theorem exchanged_some {t1 t2 t3 t4 : BitVec 96} {s : State} (h : s.firmware = true) :
    exchanged t1 t2 (some (t3, t4)) s = notePath (timeDiff t2 t1 + timeDiff t4 t3) s := if_pos h

/-- Without a noted path the state before the servo is s itself; with one, it differs where the servo does not look. -/
theorem exchanged_cases (t1 t2 : BitVec 96) (exchange : Option (BitVec 96 × BitVec 96)) (s : State) :
    exchanged t1 t2 exchange s = s ∨ ∃ twice, exchanged t1 t2 exchange s = notePath twice s := by
  unfold exchanged
  split
  · exact ite_prop (fun u : State => u = s ∨ ∃ twice, u = notePath twice s) (fun _ => .inr ⟨_, rfl⟩) (fun _ => .inl rfl)
  · exact .inl rfl

/-- The state that SERVO_SAMPLE leaves. -/
def servoSampled (t1 t2 : BitVec 96) (exchange : Option (BitVec 96 × BitVec 96)) (s : State) : State :=
  servo (timeDiff t2 t1 - (exchanged t1 t2 exchange s).sreg timePage Rg.timeMeanPathDelay) (exchanged t1 t2 exchange s)

theorem exec_servoSample_across {t1 t2 : BitVec 96} {exchange : Option (BitVec 96 × BitVec 96)} (s : State) :
    exec (.servoSample t1 t2 exchange true) s = .next s :=
  congrArg Host.Outcome.next (if_neg fun hall => absurd hall.2.2.2 (by decide))

theorem exec_servoSample {t1 t2 : BitVec 96} {exchange : Option (BitVec 96 × BitVec 96)} {s : State}
    (h : canServoSample t1 t2 exchange false s = true) : exec (.servoSample t1 t2 exchange false) s = .next (servoSampled t1 t2 exchange s) := by
  simp only [canServoSample, Bool.and_eq_true, beq_iff_eq] at h
  obtain ⟨⟨halive, hthawed⟩, hsource⟩ := h
  exact congrArg Host.Outcome.next (if_pos ⟨halive, hthawed, hsource, rfl⟩)

/-- Without an exchange of the firmware the measured paths and their mean stay. -/
theorem servoSampled_path_none {t1 t2 : BitVec 96} {exchange : Option (BitVec 96 × BitVec 96)} {s : State}
    (h : exchange = none ∨ s.firmware = false) : (servoSampled t1 t2 exchange s).time.paths = s.time.paths ∧
    (servoSampled t1 t2 exchange s).reg timePage Rg.timeMeanPathDelay = s.reg timePage Rg.timeMeanPathDelay := by
  rw [servoSampled, exchanged_none h]
  exact servo_path ..

/-- With one, the path joins the measured ones, and the mean is theirs. -/
theorem servoSampled_path_some {t1 t2 t3 t4 : BitVec 96} {s : State} (h : s.firmware = true) :
    (servoSampled t1 t2 (some (t3, t4)) s).time.paths = ((timeDiff t2 t1 + timeDiff t4 t3) :: s.time.paths).take 16 ∧
    ∃ up, (servoSampled t1 t2 (some (t3, t4)) s).reg timePage Rg.timeMeanPathDelay =
      int64 (servoQuot ((servoSampled t1 t2 (some (t3, t4)) s).time.paths.foldl (· + ·) 0)
        (2 * (servoSampled t1 t2 (some (t3, t4)) s).time.paths.length) up) := by
  rw [servoSampled, exchanged_some h, (servo_path ..).1, (servo_path ..).2]
  exact ⟨rfl, _, notePath_mean ..⟩

theorem servoSampled_mean (t1 t2 : BitVec 96) (exchange : Option (BitVec 96 × BitVec 96)) (s : State) :
    (servoSampled t1 t2 exchange s).sreg timePage Rg.timeMeanPathDelay = (exchanged t1 t2 exchange s).sreg timePage Rg.timeMeanPathDelay := by
  unfold State.sreg
  rw [servoSampled, (servo_path ..).2]

theorem servoSampled_unforced {t1 t2 : BitVec 96} {exchange : Option (BitVec 96 × BitVec 96)} {s : State} (h : s.time.forced = false) :
    Sampled (timeDiff t2 t1 - (servoSampled t1 t2 exchange s).sreg timePage Rg.timeMeanPathDelay) s (servoSampled t1 t2 exchange s) := by
  rw [servoSampled_mean]
  unfold servoSampled
  rcases exchanged_cases t1 t2 exchange s with he | ⟨twice, he⟩ <;> rw [he]
  · exact servo_sampled h _
  · exact sampled_notePath (servo_sampled ((notePath_forced ..).trans h) _)

theorem servoSampled_forced {t1 t2 : BitVec 96} {exchange : Option (BitVec 96 × BitVec 96)} {s : State} (h : s.time.forced = true) :
    (servoSampled t1 t2 exchange s).time.step = s.time.step ∧ (servoSampled t1 t2 exchange s).time.integ = s.time.integ ∧
    (servoSampled t1 t2 exchange s).time.sampleAt = s.time.sampleAt ∧
    (servoSampled t1 t2 exchange s).reg timePage Rg.timeFreqAdjY = s.reg timePage Rg.timeFreqAdjY := by
  unfold servoSampled
  rcases exchanged_cases t1 t2 exchange s with he | ⟨twice, he⟩ <;> rw [he]
  · rw [servo_forced h]
    exact ⟨rfl, rfl, rfl, rfl⟩
  · rw [servo_forced ((notePath_forced ..).trans h)]
    exact ⟨rfl, rfl, rfl, reg_notePath (fieldBit_ne (by decide)) ..⟩

/-! ### OFFSET_IN_WRITE and STEP_FORCE_WRITE (R493) -/

theorem exec_offsetInWrite {who : Requester} {value : BitVec 64} {s : State} (h : canOffsetInWrite who value s = true) :
    exec (.offsetInWrite who value) s = .next (if s.reg timePage Rg.timeSourceControlPhaseSource = 2 then servo value.toInt s
      else s.error timePage 0x0371 0 0x068) := congrArg Host.Outcome.next (writeAccess_taken h)

theorem exec_stepForceWrite {who : Requester} {value : BitVec 64} {s : State} (h : canStepForceWrite who value s = true) :
    exec (.stepForceWrite who value) s = .next { s with time := { s.time with step := s.time.step + value.toInt, forced := true } } :=
  congrArg Host.Outcome.next (writeAccess_taken h)

/-! ### Holdover and the frequency source (R494) -/

theorem reg_setY (y : Int) (s : State) : (setY y s).reg timePage Rg.timeFreqAdjY = int64 (clampY y) :=
  (State.reg_setReg_same ..).trans (Nat.mod_eq_of_lt (BitVec.isLt _))

theorem reg_setY_other {f : RegField} (h : fieldBit timePage f 0 ≠ fieldBit timePage Rg.timeFreqAdjY 0) (y : Int) (s : State) :
    (setY y s).reg timePage f = s.reg timePage f := State.reg_setReg_other _ h _

theorem exec_holdoverEntry {s : State} (h : canHoldoverEntry s = true) : exec .holdoverEntry s = .next (enterHoldover s) := by
  simp only [canHoldoverEntry, Bool.and_eq_true, Bool.or_eq_true, beq_iff_eq, decide_eq_true_eq, and_assoc] at h
  exact congrArg Host.Outcome.next (if_pos h)

theorem enterHoldover_regs (s : State) : (enterHoldover s).reg timePage Rg.timeServoStatusState = 3 ∧
    (enterHoldover s).reg timePage Rg.timeFreqAdjY = int64 (clampY (s.time.yf - s.time.integ)) := by
  unfold enterHoldover
  rw [State.reg_raise_off _ (offHeader_same (by decide)), State.reg_raise_off _ (offHeader_same (by decide)), State.reg_setReg_same,
    State.reg_setReg_other _ (fieldBit_ne (by decide)), reg_setY]
  exact ⟨rfl, rfl⟩

theorem exec_freqSourceLoss {average : Int} {s : State} (h : canFreqSourceLoss average s = true) : exec (.freqSourceLoss average) s =
    .next ((setYf (if s.reg timePage Rg.timeServoStatusState = 3 then average else 0)
      (s.setReg timePage Rg.timeServoStatusFreqValid 0)).raise timePage 4) :=
  congrArg Host.Outcome.next (if_pos (Bool.and_eq_true_iff.mp h))

theorem exec_freqSourceValid {y : Int} {s : State} (h : canFreqSourceValid y s = true) :
    exec (.freqSourceValid y) s = .next (setYf y (s.setReg timePage Rg.timeServoStatusFreqValid 1)) := by
  simp only [canFreqSourceValid, Bool.and_eq_true, Bool.or_eq_true, beq_iff_eq] at h
  exact congrArg Host.Outcome.next (if_pos h)

theorem setYf_yf (y : Int) (s : State) : (setYf y s).time.yf = y := by
  unfold setYf
  exact ite_prop (fun t : State => t.time.yf = y) (fun _ => rfl) (fun _ => ite_prop (fun t : State => t.time.yf = y) (fun _ => rfl) (fun _ => rfl))

theorem reg_setYf_other {f : RegField} (h : fieldBit timePage f 0 ≠ fieldBit timePage Rg.timeFreqAdjY 0) (y : Int) (s : State) :
    (setYf y s).reg timePage f = s.reg timePage f := by
  unfold setYf
  exact ite_prop (fun t : State => t.reg timePage f = s.reg timePage f) (fun _ => reg_setY_other h ..)
    (fun _ => ite_prop (fun t : State => t.reg timePage f = s.reg timePage f) (fun _ => reg_setY_other h ..) (fun _ => rfl))

/-- Without a servo the frequency is the source's; in holdover the integral stays on top of it. -/
theorem reg_setYf_freq (y : Int) (s : State) :
    (s.reg timePage Rg.timeServoStatusState = 0 → (setYf y s).reg timePage Rg.timeFreqAdjY = int64 (clampY y)) ∧
    (s.reg timePage Rg.timeServoStatusState = 3 → (setYf y s).reg timePage Rg.timeFreqAdjY = int64 (clampY (y - s.time.integ))) := by
  unfold setYf
  dsimp only
  refine ⟨fun hoff => ?_, fun hhold => ?_⟩
  · rw [if_pos hoff]
    exact reg_setY ..
  · rw [if_neg (by omega), if_pos hhold]
    exact reg_setY ..

/-! ### The pins (R491, R619) -/

/-- The edge is far enough behind the one before. -/
def edgeFar (e : Nat) (s : State) : Bool :=
  match s.time.ppsIn with
  | some l => decide (e ≥ l + 500000000 * 65536)
  | none => true

theorem edgeFar_of {e : Nat} {s : State} (h : ∀ l, s.time.ppsIn = some l → e ≥ l + 500000000 * 65536) : edgeFar e s = true := by
  unfold edgeFar
  cases hlast : s.time.ppsIn with
  | none => rfl
  | some l => exact decide_eq_true (h l hlast)

def edgeNoted (e : Nat) (s : State) : State := { s with time := { s.time with ppsIn := some e } }

/-- An edge is noted, and is a sample of the servo where PPS is the source and the edge is far enough behind the one before. -/
def ppsTaken (e : Nat) (s : State) : State :=
  if edgeFar e s && s.reg timePage Rg.timeSourceControlPhaseSource == 3 then
    servo (ppsTheta e (s.sreg timePage Rg.timePpsInDelayDelay)) (edgeNoted e s)
  else edgeNoted e s

theorem exec_ppsInEdge {lowNs highNs : Nat} {edge : BitVec 96} {s : State} (h : canPpsInEdge lowNs highNs edge s = true) :
    exec (.ppsInEdge lowNs highNs edge) s = .next (ppsTaken (timeFine edge) s) := by
  simp only [canPpsInEdge, Bool.and_eq_true, decide_eq_true_eq, and_assoc] at h
  exact congrArg Host.Outcome.next (if_pos h)

theorem ppsTaken_other {e : Nat} {s : State} (h : s.reg timePage Rg.timeSourceControlPhaseSource ≠ 3) : ppsTaken e s = edgeNoted e s :=
  if_neg (by simp [h])

/-- The note of an edge is nothing that the servo reads. -/
theorem sampled_edgeNoted {theta : Int} {e : Nat} {s t : State} (h : Sampled theta (edgeNoted e s) t) : Sampled theta s t := h

theorem ppsTaken_sampled {e : Nat} {s : State} (hfar : edgeFar e s = true) (hsource : s.reg timePage Rg.timeSourceControlPhaseSource = 3)
    (h : s.time.forced = false) : Sampled (ppsTheta e (s.sreg timePage Rg.timePpsInDelayDelay)) s (ppsTaken e s) := by
  rw [ppsTaken, if_pos (by rw [hfar, hsource]; rfl)]
  exact sampled_edgeNoted (servo_sampled (s := edgeNoted e s) h _)

theorem servo_ppsIn (theta : Int) (s : State) : (servo theta s).time.ppsIn = s.time.ppsIn := by
  cases h : s.time.forced
  case true => rw [servo_forced h]
  case false =>
    rw [servo_unforced h]
    exact ite_prop (fun t : State => t.time.ppsIn = s.time.ppsIn) (fun _ => rfl)
      (fun _ => ite_prop (fun t : State => t.time.ppsIn = s.time.ppsIn) (fun _ => rfl) (fun _ => rfl))

theorem ppsTaken_ppsIn (e : Nat) (s : State) : (ppsTaken e s).time.ppsIn = some e :=
  ite_prop (fun t : State => t.time.ppsIn = some e) (fun _ => servo_ppsIn ..) (fun _ => rfl)

theorem exec_ppsOutEdge {s : State} (h : canPpsOutEdge s = true) : exec .ppsOutEdge s =
    .next ({ s with time := { s.time with ppsOut := some (((s.now : Int) - s.sreg timePage Rg.timePpsOutOffsetNano) / 1000000000) } }.emit
      (.pin .ppsOut)) := by
  simp only [canPpsOutEdge, Bool.and_eq_true, and_assoc] at h
  exact congrArg Host.Outcome.next (if_pos h)

/-! ### TIME_NOW_READ and TIME_LOAD (R497, R596) -/

theorem latchNow_regs (s : State) : (latchNow s).reg timePage Rg.timeNowSeconds = s.timeBits.toNat / 2 ^ 48 ∧
    (latchNow s).reg timePage Rg.timeNowNanoNano = s.timeBits.toNat / 2 ^ 16 % 2 ^ 32 ∧
    (latchNow s).reg timePage Rg.timeNowFracFraction = s.timeBits.toNat % 2 ^ 16 := by
  have hbits : s.timeBits.toNat < 2 ^ 96 := s.timeBits.isLt
  unfold latchNow
  refine ⟨?_, ?_, State.reg_setReg_same ..⟩
  · rw [State.reg_setReg_other _ (fieldBit_ne (by decide)), State.reg_setReg_other _ (fieldBit_ne (by decide))]
    exact (State.reg_setReg_same ..).trans (Nat.mod_eq_of_lt (show s.timeBits.toNat / 2 ^ 48 < 2 ^ 64 by omega))
  · rw [State.reg_setReg_other _ (fieldBit_ne (by decide))]
    exact (State.reg_setReg_same ..).trans (Nat.mod_eq_of_lt (Nat.mod_lt _ (by decide)))

theorem latchNow_keeps (s : State) : (latchNow s).time = s.time ∧ (latchNow s).out = s.out :=
  ⟨(State.setReg_time ..).trans ((State.setReg_time ..).trans (State.setReg_time ..)),
    (State.setReg_out ..).trans ((State.setReg_out ..).trans (State.setReg_out ..))⟩

/-- A fold passes over what its step leaves alone. -/
theorem foldl_filter_of_skip {α β : Type} {f : β → α → β} {p : α → Bool} (h : ∀ b a, p a = false → f b a = b) (l : List α) (b : β) :
    l.foldl f b = (l.filter p).foldl f b := by
  rw [List.foldl_filter]
  congr 1
  funext b a
  cases ha : p a
  · exact h b a ha
  · rfl

/-- TIME_NOW's seconds alone stand at 0x048 of TIME. -/
theorem timeFields_at_timeNow : (fieldsOf .time).filter (fun f => (fieldIndexAt f 0x048).isSome) = [Rg.timeNowSeconds] := by decide

/-- TIME has no field at 0x048 that a read changes. -/
theorem timeFields_keep : (fieldsOf .time).filterMap (fun f => if f.acc = .rc then (fieldIndexAt f 0x048).map fun i => (f, i) else none) = [] :=
  rfl

/-- TIME has no counter whose upper half a read latches. -/
theorem timeFields_unlatched (q : RegField → Bool) : (latchedFields .time).any q = false := rfl

theorem fieldRead_timeNow (s : State) : fieldRead s timePage Rg.timeNowSeconds 0 = s.reg timePage Rg.timeNowSeconds := rfl

theorem each_nil {α : Type} (s : State) (f : α → State → State) : s.each [] f = s := rfl

/-- A read of TIME_NOW latches device time, and answers the low word of its seconds. -/
theorem readPage_timeNow (s : State) : readPage timePage 0x048 none s = (latchNow s, s.timeBits.toNat / 2 ^ 48 % 2 ^ 32) := by
  obtain ⟨hseconds, -, -⟩ := latchNow_regs s
  unfold readPage
  rw [if_neg (by decide)]
  dsimp only
  rw [if_pos (⟨rfl, rfl⟩ : PageKind.time = .time ∧ 0x048 = 0x048), timeFields_unlatched, timeFields_unlatched,
    if_neg Bool.false_ne_true, if_neg Bool.false_ne_true, timeFields_keep,
    foldl_filter_of_skip (p := fun f => (fieldIndexAt f 0x048).isSome), timeFields_at_timeNow]
  · have hword (v : Nat) : fieldPart Rg.timeNowSeconds 0x048 0 v = v % 2 ^ 32 := by simp [fieldPart, Rg.timeNowSeconds]
    have hplace : fieldIndexAt Rg.timeNowSeconds 0x048 = some 0 := by decide
    rw [List.foldl_cons, List.foldl_nil, hplace]
    dsimp only
    rw [hword, fieldRead_timeNow, hseconds, Nat.zero_add, each_nil]
  · intro v f hf
    rw [Option.not_isSome_iff_eq_none.mp (ne_true_of_eq_false hf)]

theorem exec_timeNowRead {who : Requester} {s : State} (h : canTimeNowRead who s = true) : exec (.timeNowRead who) s =
    .next ((latchNow s).emit (.readData (some (toBytes 4 (s.timeBits.toNat / 2 ^ 48 % 2 ^ 32))))) := by
  simp only [canTimeNowRead, Bool.and_eq_true] at h
  obtain ⟨⟨hup, hsee⟩, hready⟩ := h
  have hone : readOne who (pageBase timePage + 0x048) none s = (latchNow s, s.timeBits.toNat / 2 ^ 48 % 2 ^ 32) := by
    have hpage : pageAt (pageBase timePage + 0x048) = some timePage := by decide
    unfold readOne
    rw [hpage]
    dsimp only
    rw [if_neg (nn hsee), if_neg fun hreset => nb hready hreset.1]
    exact readPage_timeNow s
  refine congrArg Host.Outcome.next ((readWindow_word hup (by decide)).trans ?_)
  rw [hone]

theorem exec_timeLoad {who : Requester} {seconds : BitVec 48} {s : State} (h : canTimeLoad who seconds s = true) :
    exec (.timeLoad who seconds) s = .next (if s.time.loaded ∨ s.anyPart then s.error rsetPage 0x0903 0 0x050
      else { s with time := { s.time with loadSec := some seconds.toNat, loaded := true } }) :=
  congrArg Host.Outcome.next (writeAccess_taken h)

/-! ### The statement -/

/-- Settles O58: a sample by whether a step is forced and how large its offset is, the other commands by their equations. -/
theorem timeUnitComplete : Obligations.TimeUnitComplete := by
  unfold Obligations.TimeUnitComplete
  refine ⟨?sample, ?offset, ?force, ?holdover, ?loss, ?valid, ?ppsIn, ?ppsOut, ?now, ?load⟩
  case sample =>
    intro t1 t2 exchange across s h
    cases across
    case true => exact ⟨s, exec_servoSample_across s, fun _ => rfl, nofun⟩
    case false =>
      refine ⟨_, exec_servoSample h, nofun, fun _ => ⟨servoSampled_path_none, ?_, servoSampled_unforced, servoSampled_forced⟩⟩
      rintro t3 t4 rfl hfirmware
      exact servoSampled_path_some hfirmware
  case offset =>
    intro who value s h
    refine ⟨_, exec_offsetInWrite h, fun hsource hforced => ?_, fun hsource => if_neg hsource⟩
    rw [if_pos hsource]
    exact servo_sampled hforced _
  case force => exact fun who value s h => ⟨_, exec_stepForceWrite h, rfl⟩
  case holdover =>
    intro s h
    obtain ⟨hstate, hfreq⟩ := enterHoldover_regs s
    exact ⟨_, exec_holdoverEntry h, hstate, hfreq, State.raise_time .., raised_bit _ _ _ (by decide)⟩
  case loss =>
    intro average s h
    refine ⟨_, exec_freqSourceLoss h, ?_, raised_bit _ _ _ (by decide), (congrArg TimeUnit.yf (State.raise_time ..)).trans (setYf_yf ..)⟩
    rw [State.reg_raise_off _ (offHeader_same (by decide)), reg_setYf_other (fieldBit_ne (by decide))]
    exact State.reg_setReg_same ..
  case valid =>
    intro y s h
    have hstate : (s.setReg timePage Rg.timeServoStatusFreqValid 1).reg timePage Rg.timeServoStatusState = s.reg timePage Rg.timeServoStatusState :=
      State.reg_setReg_other _ (fieldBit_ne (by decide)) _
    obtain ⟨hoff, hhold⟩ := reg_setYf_freq y (s.setReg timePage Rg.timeServoStatusFreqValid 1)
    rw [hstate] at hoff hhold
    exact ⟨_, exec_freqSourceValid h, (reg_setYf_other (fieldBit_ne (by decide)) ..).trans (State.reg_setReg_same ..), setYf_yf .., hoff, hhold⟩
  case ppsIn =>
    intro lowNs highNs edge s h
    exact ⟨_, exec_ppsInEdge h, ppsTaken_ppsIn .., ppsTaken_other, fun hsource hforced hfar => ppsTaken_sampled (edgeFar_of hfar) hsource hforced⟩
  case ppsOut => exact fun s h => ⟨_, exec_ppsOutEdge h, rfl⟩
  case now =>
    intro who s h
    obtain ⟨hseconds, hnano, hfraction⟩ := latchNow_regs s
    obtain ⟨htime, hout⟩ := latchNow_keeps s
    refine ⟨_, exec_timeNowRead h, ?_⟩
    dsimp only
    rw [State.reg_emit, State.reg_emit, State.reg_emit, State.emit_time, State.emit_out, hseconds, hnano, hfraction, htime, hout]
    exact ⟨rfl, rfl, rfl, rfl, rfl⟩
  case load =>
    intro who seconds s h
    refine ⟨_, exec_timeLoad h, fun hloaded hempty => if_neg ?_, fun hrefused => if_pos hrefused⟩
    rw [hloaded, hempty]
    decide

end Sys2Proof.Machine
end

section
/-! SUPPORT. Spares take the place of cores and signal cores (R535, R537), cores are retired (R531), injections armed (R528) and rows of HBM repaired
(R532), and the statement on them. -/

namespace Sys2Proof.Machine

/-! ### SPARE_REPLACE_DONE and SIGC_REPLACE_DONE (R535, R537) -/

/-- The spare is probed good: the core number is its own, and what the core ran goes on there. -/
def spareInstalled (c ph : Nat) (copyOk : Bool) (s : State) : State :=
  let t := { takeSpare ph s with plat := { (takeSpare ph s).plat with corePhysical := tabSet c ph (takeSpare ph s).plat.corePhysical } }
  dropTasks c (freshCore c (resumeOnSpare c copyOk (cutByFence c t)))

theorem spareInstalled_physical (c ph : Nat) (copyOk : Bool) (s : State) : tabFind c (spareInstalled c ph copyOk s).plat.corePhysical = some ph := by
  unfold spareInstalled
  dsimp only
  rw [(dropTasks_only ..).plat rfl, (freshCore_only ..).plat rfl, (resumeOnSpare_only ..).plat rfl, (cutByFence_only ..).plat rfl]
  exact tabFind_set_same ..

/-- The spare failed its probe: it is retired, and the next spare is tried, or the core is lost. -/
def spareRejected (c : Fin 160) (ph : Nat) (s : State) : State :=
  if (spareCore (retirePhysical ph (takeSpare ph s)) (c / 40)).isSome then retirePhysical ph (takeSpare ph s)
  else coreLost c (retirePhysical ph (takeSpare ph s))

theorem exec_spareReplaceDone {c : Fin 160} {copyOk probeOk : Bool} {s : State} (h : canSpareReplaceDone c copyOk probeOk s = true) :
    ∃ ph, spareCore s (c / 40) = some ph ∧ exec (.spareReplaceDone c copyOk probeOk) s = .next (if probeOk then
      ((spareInstalled c ph copyOk s).bump raspPage Rg.raspReplaceCountCount).raise raspPage 2 else spareRejected c ph s) := by
  obtain ⟨hlive, hspare⟩ := Bool.and_eq_true_iff.mp h
  obtain ⟨ph, hph⟩ := Option.isSome_iff_exists.mp hspare
  have hguard : ¬(!decide (s.alive = true ∧ s.flag (corePage c) Rg.pageStatusFenced = true)) = true :=
    nn (decide_eq_true (Bool.and_eq_true_iff.mp hlive))
  refine ⟨ph, hph, ?_⟩
  simp only [exec, execSpareReplaceDone, hph]
  rw [if_neg hguard]
  cases probeOk <;> rfl

/-- The signal core stands on the spare: its lost lines read as poisoned, and its program starts anew where it is enabled. -/
def sigcInstalled (k : Fin 64) (ph : Nat) (s : State) : State :=
  let t := { s with
    plat := { s.plat with freeSigcs := s.plat.freeSigcs.filter (· != ph), sigcPhysical := tabSet k.val ph s.plat.sigcPhysical }
    mem := { s.mem with
      dmem := (lostLines s k).foldl (fun m l => spoilBytes .dmem (64 * l) 64 m) s.mem.dmem
      tags := (lostLines s k).foldl (fun m l => spoilWord .tag m l) s.mem.tags } }
  let u := (countSpares t).setReg (sigcPage k) Rg.pageStatusFenced 0
  if u.flag (sigcPage k) Rg.pageControlEnable then startProgram k u else u

theorem sigcInstalled_keeps (k : Fin 64) (ph : Nat) (s : State) : tabFind k.val (sigcInstalled k ph s).plat.sigcPhysical = some ph ∧
    (sigcInstalled k ph s).mem.simem = s.mem.simem := by
  unfold sigcInstalled
  refine ite_prop (fun u : State => tabFind k.val u.plat.sigcPhysical = some ph ∧ u.mem.simem = s.mem.simem) (fun _ => ?started) (fun _ => ?idle)
  case started => exact ⟨tabFind_set_same .., rfl⟩
  case idle => exact ⟨tabFind_set_same .., rfl⟩

theorem exec_sigcReplaceDone {k : Fin 64} {s : State} (h : canSigcReplaceDone k s = true) :
    ∃ ph, spareSigc s (k / 16) = some ph ∧ exec (.sigcReplaceDone k) s =
      .next (((sigcInstalled k ph s).bump raspPage Rg.raspReplaceCountCount).raise raspPage 2) := by
  obtain ⟨hlive, hspare⟩ := Bool.and_eq_true_iff.mp h
  obtain ⟨ph, hph⟩ := Option.isSome_iff_exists.mp hspare
  have hguard : ¬(!decide (s.alive = true ∧ s.flag (sigcPage k) Rg.pageStatusFenced = true)) = true :=
    nn (decide_eq_true (Bool.and_eq_true_iff.mp hlive))
  refine ⟨ph, hph, ?_⟩
  simp only [exec, execSigcReplaceDone, hph]
  rw [if_neg hguard]
  rfl

/-! ### CORE_RETIRE_WRITE and FLIP_ARM (R528, R531) -/

theorem exec_coreRetireWrite {who : Requester} {die : Fin 4} {value : BitVec 64} {s : State} (h : canCoreRetireWrite who die value s = true) :
    exec (.coreRetireWrite who die value) s = .next (renumberDie die (s.setReg raspPage Rg.raspCoreRetirePhysical value.toNat die)) := by
  obtain ⟨htaken, hempty⟩ := Bool.and_eq_true_iff.mp h
  exact congrArg Host.Outcome.next ((writeAccess_taken htaken).trans (if_neg (nb hempty)))

/-- FLIP_CONTROL is written: bit 0 arms the injection, bit 1 clears FIRED. -/
def flipWritten (arm clear : Bool) (s : State) : State :=
  let t := if arm then s.setReg raspPage Rg.raspFlipControlArm 1 else s
  if clear then t.setReg raspPage Rg.raspFlipControlFired 0 else t

theorem exec_flipArm {who : Requester} {value : BitVec 32} {s : State} (h : canFlipArm who value s = true) :
    exec (.flipArm who value) s = .next (flipWritten (value.getLsbD 0) (value.getLsbD 1) s) :=
  congrArg Host.Outcome.next (writeAccess_taken h)

theorem flipWritten_arm (arm clear : Bool) (s : State) :
    (flipWritten arm clear s).reg raspPage Rg.raspFlipControlArm = if arm then 1 else s.reg raspPage Rg.raspFlipControlArm := by
  have hapart : fieldBit raspPage Rg.raspFlipControlArm 0 ≠ fieldBit raspPage Rg.raspFlipControlFired 0 := fieldBit_ne (by decide)
  cases arm <;> cases clear
  · rfl
  · exact State.reg_setReg_other _ hapart _
  · exact State.reg_setReg_same ..
  · exact (State.reg_setReg_other _ hapart _).trans (State.reg_setReg_same ..)

theorem flipWritten_fired (arm clear : Bool) (s : State) :
    (flipWritten arm clear s).reg raspPage Rg.raspFlipControlFired = if clear then 0 else s.reg raspPage Rg.raspFlipControlFired := by
  cases clear
  · cases arm
    · rfl
    · exact State.reg_setReg_other _ (fieldBit_ne (by decide)) _
  · exact State.reg_setReg_same ..

/-! ### PPR_START and PPR_DONE (R532) -/

/-- The fields of PPR_CONTROL that name the row are written. -/
def pprNamed (v : Nat) (s : State) : State :=
  s.setReg raspPage Rg.raspPprControlStack v |>.setReg raspPage Rg.raspPprControlChannel (v / 2 ^ 5)
    |>.setReg raspPage Rg.raspPprControlPseudo (v / 2 ^ 9) |>.setReg raspPage Rg.raspPprControlBank (v / 2 ^ 10)
    |>.setReg raspPage Rg.raspPprControlHard (v / 2 ^ 16)

/-- A repair of the row that PPR_CONTROL and PPR_ROW name runs. -/
def pprBegun (v : Nat) (s : State) : State :=
  { (pprNamed v s).setReg raspPage Rg.raspPprControlBusy 1 with
    ras := { s.ras with ppr := some (BitVec.ofNat 64 (v % 2 ^ 17 + 2 ^ 32 * s.reg raspPage Rg.raspPprRowRow)) } }

theorem exec_pprStart {who : Requester} {value : BitVec 32} {s : State} (h : canPprStart who value s = true) :
    exec (.pprStart who value) s = .next (pprBegun value.toNat s) := by
  simp only [canPprStart, Bool.and_eq_true] at h
  obtain ⟨⟨⟨htaken, hgo⟩, hidle⟩, hradio⟩ := h
  refine congrArg Host.Outcome.next ((writeAccess_taken htaken).trans ((if_neg ?_).trans (if_neg (nb hradio))))
  exact not_or.mpr ⟨nn hgo, nb hidle⟩

theorem pprNamed_stack (v : Nat) (s : State) : (pprNamed v s).reg raspPage Rg.raspPprControlStack = v % 32 := by
  unfold pprNamed
  iterate 4 rw [State.reg_setReg_other _ (fieldBit_ne (by decide))]
  exact State.reg_setReg_same ..

theorem pprBegun_reg (v : Nat) (s : State) (f : RegField) :
    (pprBegun v s).reg raspPage f = ((pprNamed v s).setReg raspPage Rg.raspPprControlBusy 1).reg raspPage f := rfl

theorem pprBegun_regs (v : Nat) (s : State) :
    (pprBegun v s).reg raspPage Rg.raspPprControlBusy = 1 ∧ (pprBegun v s).reg raspPage Rg.raspPprControlStack = v % 32 := by
  rw [pprBegun_reg, pprBegun_reg]
  exact ⟨State.reg_setReg_same .., (State.reg_setReg_other _ (fieldBit_ne (by decide)) _).trans (pprNamed_stack v s)⟩

/-- The repair that ran is over. -/
def pprFreed (s : State) : State := { s with ras := { s.ras with ppr := none } }.setReg raspPage Rg.raspPprControlBusy 0

/-- The row was repaired: its contents are those of the new row, and the repair is listed as hard or soft. -/
def rowRepaired (v : BitVec 64) (s : State) : State :=
  let t := (rewriteRow v (pprFreed s)).setReg raspPage Rg.raspPprStatusResult 0
  if v.getLsbD 16 then { t with ras := { t.ras with hardRepairs := t.ras.hardRepairs ++ [v.toNat] } }
  else { t with ras := { t.ras with softRepairs := t.ras.softRepairs ++ [v.toNat] } }

/-- The repair failed: RESULT and the error record say so. -/
def repairFailed (v : BitVec 64) (s : State) : State :=
  ((pprFreed s).setReg raspPage Rg.raspPprStatusResult 0x0705).error raspPage 0x0705 (v.toNat % 32) (v.toNat / 2 ^ 32)

theorem exec_pprDone {outcome : PprOutcome} {s : State} (h : canPprDone outcome s = true) :
    ∃ v, s.ras.ppr = some v ∧ exec (.pprDone outcome) s =
      .next ((if outcome = .done then rowRepaired v s else repairFailed v s).raise raspPage 4) := by
  obtain ⟨halive, hppr⟩ := Bool.and_eq_true_iff.mp h
  obtain ⟨v, hv⟩ := Option.isSome_iff_exists.mp hppr
  refine ⟨v, hv, ?_⟩
  simp only [exec, execPprDone, hv]
  rw [if_neg (nn halive)]
  cases outcome <;> rfl

theorem rowRepaired_ras (v : BitVec 64) (s : State) : (rowRepaired v s).ras =
    if v.getLsbD 16 then { s.ras with ppr := none, hardRepairs := s.ras.hardRepairs ++ [v.toNat] }
    else { s.ras with ppr := none, softRepairs := s.ras.softRepairs ++ [v.toNat] } := by
  have hkept : ((rewriteRow v (pprFreed s)).setReg raspPage Rg.raspPprStatusResult 0).ras = { s.ras with ppr := none } :=
    (rewriteRow_only ..).ras rfl
  unfold rowRepaired
  split <;> simp only [hkept]

theorem repairFailed_regs (v : BitVec 64) (s : State) : (repairFailed v s).reg raspPage Rg.raspPprControlBusy = 0 ∧
    (repairFailed v s).reg raspPage Rg.raspPprStatusResult = 0x0705 := by
  unfold repairFailed
  rw [State.reg_error_off _ (offHeader_same (by decide)), State.reg_error_off _ (offHeader_same (by decide)),
    State.reg_setReg_other _ (fieldBit_ne (by decide))]
  exact ⟨State.reg_setReg_same .., State.reg_setReg_same ..⟩

/-! ### The statement -/

/-- Settles O26: a replacement by the outcome of its probe, a package repair by its outcome. -/
theorem replacementComplete : Obligations.ReplacementComplete := by
  unfold Obligations.ReplacementComplete
  refine ⟨?spare, ?sigc, ?retire, ?flip, ?start, ?done⟩
  case spare =>
    intro c copyOk probeOk s h
    obtain ⟨ph, hph, hexec⟩ := exec_spareReplaceDone h
    refine ⟨_, hexec, ph, hph, ?_, ?_⟩
    · rintro rfl
      exact ⟨spareInstalled_physical .., raised_bit _ _ _ (by decide)⟩
    · rintro rfl
      rfl
  case sigc =>
    intro k s h
    obtain ⟨ph, hph, hexec⟩ := exec_sigcReplaceDone h
    obtain ⟨hphysical, hsimem⟩ := sigcInstalled_keeps k ph s
    exact ⟨_, hexec, ph, hph, hphysical, raised_bit _ _ _ (by decide), hsimem⟩
  case retire => exact fun who die value s h => ⟨_, exec_coreRetireWrite h, rfl⟩
  case flip =>
    intro who value s h
    refine ⟨_, exec_flipArm h, flipWritten_arm .., flipWritten_fired .., ?_, ?_⟩
    · cases value.getLsbD 0 <;> cases value.getLsbD 1 <;> rfl
    · intro harm hclear
      rw [harm, hclear]
      rfl
  case start =>
    intro who value s h
    obtain ⟨hbusy, hstack⟩ := pprBegun_regs value.toNat s
    exact ⟨_, exec_pprStart h, rfl, hbusy, hstack, rfl⟩
  case done =>
    intro outcome s h
    obtain ⟨v, hv, hexec⟩ := exec_pprDone h
    refine ⟨_, hexec, ?_, raised_bit _ _ _ (by decide), ?_, ?_⟩
    · rw [State.raise_ras]
      refine ite_prop (fun u : State => u.ras.ppr = none) (fun _ => ?_) (fun _ => ?_)
      · rw [rowRepaired_ras]
        split <;> rfl
      · exact congrArg Ras.ppr ((State.error_only ..).ras rfl)
    · intro hfailed
      obtain ⟨hbusy, hresult⟩ := repairFailed_regs v s
      rw [if_neg hfailed]
      refine ⟨?_, ?_, ?_, ?_⟩
      · exact (State.reg_raise_off _ (offHeader_same (by decide)) _).trans hbusy
      · exact (State.reg_raise_off _ (offHeader_same (by decide)) _).trans hresult
      · exact (State.raise_mem ..).trans (State.error_mem ..)
      · exact (State.raise_ras ..).trans (State.error_ras ..)
    · intro hdone
      refine ⟨v, hv, ?_⟩
      rw [if_pos hdone]
      exact (State.raise_ras ..).trans (rowRepaired_ras v s)

end Sys2Proof.Machine
end

section
/-! SUPPORT. The boot chain of the Nymav controller (R541, R554, R563 to R569): the verdict on an image, the restarts and the fuses, and the
statement on them. -/

namespace Sys2Proof.Machine

/-! ### A verified image runs, a failed one is awaited (R563, R565) -/

/-- Every code of a failed step of R563 fits BOOT_CODE. -/
theorem imageFails_lt (fuses : Fuses) (b : List Byte) : ∀ code ∈ imageFails fuses b, code < 2 ^ Rg.mgmtBootCodeCode.len := by
  unfold imageFails
  dsimp only
  refine ite_prop (fun o : Option Nat => ∀ code ∈ o, code < 2 ^ Rg.mgmtBootCodeCode.len) (fun _ => ?layout) (fun _ =>
    ite_prop (fun o : Option Nat => ∀ code ∈ o, code < 2 ^ Rg.mgmtBootCodeCode.len) (fun _ => ?root) (fun _ =>
      ite_prop (fun o : Option Nat => ∀ code ∈ o, code < 2 ^ Rg.mgmtBootCodeCode.len) (fun _ => ?owner) (fun _ =>
        ite_prop (fun o : Option Nat => ∀ code ∈ o, code < 2 ^ Rg.mgmtBootCodeCode.len) (fun _ => ?old) (fun _ => ?passes))))
  case passes => exact fun _ h => nomatch h
  all_goals
    rintro _ ⟨⟩
    decide

/-- What goes out beside a change of the state leaves the registers. -/
theorem reg_emitIf (c : Bool) (e : Emission) (t : State) (p : Page) (f : RegField) (i : Nat) :
    (if c then t.emit e else t).reg p f i = t.reg p f i := by cases c <;> rfl

theorem mgmt_emitIf (c : Bool) (e : Emission) (t : State) : (if c then t.emit e else t).mgmt = t.mgmt := by cases c <;> rfl

theorem runImage_runs (b : List Byte) (persist : Bool) (s : State) : ImageRuns b (runImage b persist s) := by
  unfold ImageRuns bootState runImage
  dsimp only
  rw [State.raise_mgmt, mgmt_emitIf, State.reg_raise_off _ (offHeader_same (by decide)), State.reg_raise_off _ (offHeader_same (by decide)),
    reg_emitIf, reg_emitIf]
  refine ⟨rfl, rfl, ?state, ?svn, raised_bit _ _ _ (by decide)⟩
  case state =>
    iterate 3 rw [State.reg_setReg_other _ (fieldBit_ne (by decide))]
    exact State.reg_setReg_same ..
  case svn =>
    iterate 2 rw [State.reg_setReg_other _ (fieldBit_ne (by decide))]
    exact State.reg_setReg_same ..

theorem flashWrite_runImage (b : List Byte) (s : State) : .flashWrite b ∈ (runImage b true s).out :=
  (State.raise_only ..).outGrows.subset (List.mem_append_right _ (List.mem_singleton_self _))

theorem awaitRecovery_awaited {code : Nat} (hcode : code < 2 ^ Rg.mgmtBootCodeCode.len) (s : State) :
    RecoveryAwaited code (awaitRecovery code s) := by
  unfold RecoveryAwaited bootState awaitRecovery
  dsimp only
  rw [State.raise_mgmt, State.reg_raise_off _ (offHeader_same (by decide)), State.reg_raise_off _ (offHeader_same (by decide))]
  refine ⟨rfl, rfl, ?state, ?code, raised_bit _ _ _ (by decide)⟩
  case state =>
    iterate 3 rw [State.reg_setReg_other _ (fieldBit_ne (by decide))]
    exact State.reg_setReg_same ..
  case code =>
    iterate 4 rw [State.reg_setReg_other _ (fieldBit_ne (by decide))]
    exact (State.reg_setReg_same ..).trans (Nat.mod_eq_of_lt hcode)

/-- The boot ROM's verdict on an image: it runs, or recovery is awaited. -/
def judgeImage (b : List Byte) (persist : Bool) (s : State) : State :=
  match imageFails s.fuses b with
  | none => runImage b persist s
  | some code => awaitRecovery code s

theorem judgeImage_good {b : List Byte} {s : State} (h : imageFails s.fuses b = none) (persist : Bool) :
    judgeImage b persist s = runImage b persist s := by simp only [judgeImage, h]

theorem judgeImage_bad {b : List Byte} {s : State} {code : Nat} (h : imageFails s.fuses b = some code) (persist : Bool) :
    RecoveryAwaited code (judgeImage b persist s) := by
  simp only [judgeImage, h]
  exact awaitRecovery_awaited (imageFails_lt _ _ _ h) s

/-! ### BOOT_START and BOOT_DONE (R563) -/

theorem exec_bootStart {s : State} (h : canBootStart s = true) : exec .bootStart s =
    .next ({ s with mgmt := { s.mgmt with booting := some .cold } }.setReg mgmtPage Rg.mgmtBootStatusState 1) := by
  simp only [canBootStart, Bool.and_eq_true, beq_iff_eq, Option.isNone_iff_eq_none, decide_eq_true_eq, and_assoc] at h
  exact congrArg Host.Outcome.next (if_pos h)

/-- The boot reads its image from the flash: a cold start, an update, or a restart whose image in SRAM no longer verifies. -/
theorem exec_bootDone_flash {image : ImageData} {s : State} (hlive : s.alive = true)
    (h : s.mgmt.booting = some .cold ∨ s.mgmt.booting = some .activate ∨
      (s.mgmt.booting = some .restart ∧ (imageFails s.fuses s.mgmt.sram).isSome = true)) :
    exec (.bootDone image) s = .next (judgeImage image.bytes false s) := by
  refine congrArg Host.Outcome.next ((if_neg (nn hlive)).trans ?_)
  obtain hcold | hactivate | ⟨hrestart, hfails⟩ := h
  · rw [hcold]; rfl
  · rw [hactivate]; rfl
  · rw [hrestart]
    exact if_neg (by simpa using Option.isSome_iff_ne_none.mp hfails)

theorem exec_bootDone_restart {image : ImageData} {s : State} (hlive : s.alive = true) (hrestart : s.mgmt.booting = some .restart)
    (hgood : imageFails s.fuses s.mgmt.sram = none) : exec (.bootDone image) s = .next (runImage s.mgmt.sram false s) := by
  refine congrArg Host.Outcome.next ((if_neg (nn hlive)).trans ?_)
  rw [hrestart]
  exact if_pos (Option.isNone_iff_eq_none.mpr hgood)

theorem exec_bootDone_recovery {image : ImageData} {s : State} {persist : Bool} (hlive : s.alive = true)
    (h : s.mgmt.booting = some (.recovery persist)) : exec (.bootDone image) s = .next (judgeImage s.mgmt.recovered persist s) := by
  refine congrArg Host.Outcome.next ((if_neg (nn hlive)).trans ?_)
  rw [h]
  rfl

/-! ### Recovery, restart, and a controller that does not serve (R541, R554, R565) -/

/-- What RECOVERY_GO reads of the host's memory. -/
def recoveryBytes (image : HostData) (s : State) : List Byte :=
  if s.host.linkUp ∧ image.status = .ok then image.bytes.take (s.reg mgmtPage Rg.mgmtRecoveryLenBytes) else []

/-- The recovery of the image read begins. -/
def recoveryBegun (persist : Bool) (b : List Byte) (s : State) : State :=
  let t := s.setReg mgmtPage Rg.mgmtRecoveryControlPersist (bit persist)
  { t with mgmt := { t.mgmt with booting := some (.recovery persist), recovered := b } }.setReg mgmtPage Rg.mgmtRecoveryControlBusy 1
    |>.setReg mgmtPage Rg.mgmtBootStatusState 1

theorem exec_recoveryGo {who : Requester} {value : BitVec 32} {image : HostData} {s : State} (h : canRecoveryGo who value image s = true) :
    exec (.recoveryGo who value image) s = .next (recoveryBegun (value.getLsbD 1) (recoveryBytes image s) s) := by
  simp only [canRecoveryGo, Bool.and_eq_true, beq_iff_eq] at h
  obtain ⟨⟨htaken, hgo⟩, hawaits⟩ := h
  refine congrArg Host.Outcome.next ((writeAccess_taken htaken).trans ((if_neg ?_).trans ((if_neg (nn hgo)).trans (if_neg ?_))))
  · rw [hawaits]
    decide
  · exact not_not_intro hawaits

theorem recoveryBegun_regs (persist : Bool) (b : List Byte) (s : State) : bootState (recoveryBegun persist b s) = 1 ∧
    (recoveryBegun persist b s).reg mgmtPage Rg.mgmtRecoveryControlBusy = 1 ∧
    (recoveryBegun persist b s).reg mgmtPage Rg.mgmtRecoveryControlPersist = bit persist := by
  refine ⟨State.reg_setReg_same .., ?busy, ?persist⟩
  case busy => exact (State.reg_setReg_other _ (fieldBit_ne (by decide)) _).trans (State.reg_setReg_same ..)
  case persist =>
    exact (State.reg_setReg_other _ (fieldBit_ne (by decide)) _).trans ((State.reg_setReg_other _ (fieldBit_ne (by decide)) _).trans
      (reg_setReg_fits (by cases persist <;> decide) s))

theorem bootState_stopFirmware (kind : BootKind) (s : State) : bootState (stopFirmware kind s) = 4 := State.reg_setReg_same ..

/-- The firmware has stopped for a restart that the watchdog asks for, and the event is told. -/
def watchdogFired (s : State) : State :=
  (((stopFirmware .restart s).bump mgmtPage Rg.mgmtWatchdogCountCount).error mgmtPage 0x0807 0 0).raise mgmtPage 6

theorem exec_watchdogExpiry {s : State} (h : canWatchdogExpiry s = true) : exec .watchdogExpiry s = .next (watchdogFired s) :=
  congrArg Host.Outcome.next (if_pos h)

theorem mgmt_watchdogFired (s : State) : (watchdogFired s).mgmt = (stopFirmware .restart s).mgmt :=
  (State.raise_mgmt ..).trans (State.error_mgmt ..)

theorem mem_watchdogFired (s : State) : (watchdogFired s).mem = s.mem := (State.raise_mem ..).trans (State.error_mem ..)

theorem bootState_watchdogFired (s : State) : bootState (watchdogFired s) = 4 := by
  unfold bootState watchdogFired State.bump
  rw [State.reg_raise_off _ (offHeader_same (by decide)), State.reg_error_off _ (offHeader_same (by decide)),
    State.reg_setReg_other _ (fieldBit_ne (by decide))]
  exact bootState_stopFirmware ..

theorem exec_controllerNotServing {s : State} (h : canControllerNotServing s = true) : exec .controllerNotServing s = .next (sendFail s) := by
  simp only [canControllerNotServing, Bool.and_eq_true, bne_iff_ne] at h
  obtain ⟨⟨⟨hlive, hboot⟩, hfirst⟩, hrestart⟩ := h
  obtain ⟨since, hsince, hlate⟩ := any_some hrestart
  simp only [exec, execControllerNotServing, hsince]
  exact congrArg Host.Outcome.next (if_pos ⟨hlive, hboot, of_decide_eq_true hlate, hfirst⟩)

/-! ### The fuses (R567, R568) -/

theorem exec_svnCommit {who : Requester} {value : BitVec 32} {s : State} (h : canSvnCommit who value s = true) :
    exec (.svnCommit who value) s = .next (
      if bootState s ≠ 2 ∨ s.reg mgmtPage Rg.mgmtBootStatusImageSvn ≤ s.fuses.svn then s.error mgmtPage 0x0805 0 0x060
      else { s with fuses := { s.fuses with svn := s.reg mgmtPage Rg.mgmtBootStatusImageSvn } }.setReg mgmtPage Rg.mgmtFuseStateFusedSvn
        (s.reg mgmtPage Rg.mgmtBootStatusImageSvn)) := by
  simp only [canSvnCommit, Bool.and_eq_true, bne_iff_ne, decide_eq_true_eq] at h
  obtain ⟨⟨⟨htaken, hconfirm⟩, hcommit⟩, hboot⟩ := h
  refine congrArg Host.Outcome.next ((writeAccess_taken htaken).trans (if_neg ?_))
  rintro (hrestarts | hother | hidle)
  · exact hboot hrestarts
  · exact hother hconfirm
  · exact nn hcommit hidle

theorem exec_ownerCommit {who : Requester} {value : BitVec 32} {s : State} (h : canOwnerCommit who value s = true) :
    exec (.ownerCommit who value) s = .next (
      if s.fuses.ownerHash ≠ 0 ∨ stagedHash s = 0 ∨ s.anyPart = true then s.error mgmtPage 0x0805 0 0x068
      else { s with fuses := { s.fuses with ownerHash := stagedHash s } }.setReg mgmtPage Rg.mgmtFuseStateOwnerSet 1) := by
  simp only [canOwnerCommit, Bool.and_eq_true, bne_iff_ne, decide_eq_true_eq] at h
  obtain ⟨⟨⟨htaken, hconfirm⟩, hcommit⟩, hboot⟩ := h
  refine congrArg Host.Outcome.next ((writeAccess_taken htaken).trans (if_neg ?_))
  rintro (hrestarts | hother | hidle)
  · exact hboot hrestarts
  · exact hother hconfirm
  · exact nn hcommit hidle

/-! ### The sideband commands on the firmware (R559, R566) -/

theorem exec_dynamicAddress {addr : BitVec 7} {s : State} (h : canDynamicAddress addr s = true) :
    exec (.dynamicAddress addr) s = .next { s with mgmt := { s.mgmt with dynAddr := some addr } } :=
  congrArg Host.Outcome.next (if_pos (Bool.and_eq_true_iff.mp h))

/-- A PLDM request that its transport serves is performed. -/
theorem pldm_taken {src : MgmtSource} {s : State} (h : pldmTaken s src = true) (f : State → State) : pldm src f s = f s := if_pos h

theorem exec_firmwareUpdate {src : MgmtSource} {image : ImageData} {s : State} (h : canFirmwareUpdate src image s = true) :
    exec (.firmwareUpdate src image) s = .next (match imageFails s.fuses image.bytes with
      | some _ => answer src (.code 2) s
      | none => answer src (.code 0) ({ s with mgmt := { s.mgmt with updated := true } }.emit (.flashWrite image.bytes))) :=
  congrArg Host.Outcome.next (pldm_taken h _)

theorem exec_activateFirmware {src : MgmtSource} {s : State} (h : canActivateFirmware src s = true) :
    exec (.activateFirmware src) s = .next (
      if s.mgmt.updated then stopFirmware .activate (answer src (.code 0) s) else answer src (.code 0x85) s) :=
  congrArg Host.Outcome.next (pldm_taken h _)

/-! ### The statement -/

/-- Settles O34: a boot by the image that its kind reads and the verdict on it, a commit by the condition that refuses it. -/
theorem firmwareCommandsComplete : Obligations.FirmwareCommandsComplete := by
  unfold Obligations.FirmwareCommandsComplete
  refine ⟨?start, ?done, ?recovery, ?watchdog, ?notServing, ?svn, ?owner, ?address, ?update, ?activate⟩
  case start => exact fun s h => ⟨_, exec_bootStart h, rfl, State.reg_setReg_same .., rfl⟩
  case done =>
    intro image s h
    obtain ⟨hlive, -⟩ := Bool.and_eq_true_iff.mp h
    obtain ⟨t, ht⟩ := exec_answers (.bootDone image) s
    have hnext {u : State} (hu : exec (.bootDone image) s = .next u) : t = u := Host.Outcome.next.inj (ht.symm.trans hu)
    refine ⟨t, ht, fun hflash => ?flash, fun hrestart hgood => ?restart, fun persist hrecovery => ?recovered⟩
    case flash =>
      rw [hnext (exec_bootDone_flash hlive hflash)]
      refine ⟨fun hgood => ?_, fun code hbad => judgeImage_bad hbad false⟩
      rw [judgeImage_good hgood]
      exact runImage_runs ..
    case restart =>
      rw [hnext (exec_bootDone_restart hlive hrestart hgood)]
      exact runImage_runs ..
    case recovered =>
      rw [hnext (exec_bootDone_recovery hlive hrecovery)]
      refine ⟨fun hgood => ?_, fun code hbad => judgeImage_bad hbad persist⟩
      rw [judgeImage_good hgood]
      refine ⟨runImage_runs .., ?_⟩
      rintro rfl
      exact flashWrite_runImage ..
  case recovery =>
    intro who value image s h
    obtain ⟨hstate, hbusy, hpersist⟩ := recoveryBegun_regs (value.getLsbD 1) (recoveryBytes image s) s
    exact ⟨_, exec_recoveryGo h, hstate, rfl, hbusy, hpersist, rfl⟩
  case watchdog =>
    intro s h
    refine ⟨_, exec_watchdogExpiry h, bootState_watchdogFired s, ?_⟩
    rw [mgmt_watchdogFired]
    exact ⟨rfl, rfl, rfl, rfl, raised_bit _ _ _ (by decide), mem_watchdogFired s⟩
  case notServing => exact fun s h => ⟨_, exec_controllerNotServing h, rfl⟩
  case svn =>
    intro who value s h
    refine ⟨_, exec_svnCommit h, fun hruns hnewer => ?_, fun hrefused => if_pos hrefused⟩
    rw [if_neg (not_or.mpr ⟨not_not_intro hruns, Nat.not_le.mpr hnewer⟩)]
    rfl
  case owner =>
    intro who value s h
    refine ⟨_, exec_ownerCommit h, fun hfree hstaged hempty => ?_, fun hrefused => if_pos hrefused⟩
    rw [if_neg (not_or.mpr ⟨not_not_intro hfree, not_or.mpr ⟨hstaged, ne_true_of_eq_false hempty⟩⟩)]
    exact ⟨rfl, State.reg_setReg_same ..⟩
  case address => exact fun addr s h => ⟨_, exec_dynamicAddress h, rfl, rfl⟩
  case update =>
    intro src image s h
    refine ⟨_, exec_firmwareUpdate h, fun hgood => ?_, fun code hbad => ?_⟩
    · rw [hgood]
      exact ⟨rfl, rfl⟩
    · simp only [hbad]
  case activate =>
    intro src s h
    refine ⟨_, exec_activateFirmware h, fun hupdated => ?_, fun hnone => if_neg (ne_true_of_eq_false hnone)⟩
    rw [if_pos hupdated]
    exact ⟨bootState_stopFirmware .., rfl, rfl⟩

end Sys2Proof.Machine
end

section
/-! SUPPORT. The salinometer (R546 to R552): scores, the messages that carry them, expulsions and admissions, and the statement on them. -/

namespace Sys2Proof.Machine

/-! ### SALT_SCORE (R546) -/

/-- The four terms of a score: memory, links, waves and heat. -/
def memTerm (s : State) : Nat := min 250 ((s.reg raspPage Rg.raspCorrectedCount - atMark s 1000000000 (·.2.1)) / 4)
def linkTerm (s : State) : Nat := min 250 (50 * (s.salt.trainings - atMark s 60000000000 (·.2.2)))
def waveTerm (lowest : Nat) : Nat := if lowest < 1550 then 250 else min 250 (2 * (100 - (lowest - 1550)))
def heatTerm (hottest : Nat) : Nat := if hottest > 105 then 250 else 25 * (10 - (105 - hottest))

theorem waveTerm_le (lowest : Nat) : waveTerm lowest ≤ 250 := by
  unfold waveTerm
  split <;> omega

theorem heatTerm_le (hottest : Nat) : heatTerm hottest ≤ 250 := by
  unfold heatTerm
  split <;> omega

/-- The terms and the score stand in their registers. -/
def termsSet (mem link wave heat : Nat) (s : State) : State :=
  s.setReg raspPage Rg.raspSaltPartsMem mem |>.setReg raspPage Rg.raspSaltPartsLink link
    |>.setReg raspPage Rg.raspSaltPartsWave wave |>.setReg raspPage Rg.raspSaltPartsThermal heat
    |>.setReg raspPage Rg.raspSaltScoreScore (1000 - (mem + link + wave + heat)) |>.setReg raspPage Rg.raspSaltScoreStale 0

/-- The score is marked with its time. -/
def scored (mem link wave heat : Nat) (s : State) : State := (markScore (termsSet mem link wave heat s)).usedFree

theorem exec_saltScore {s : State} (h : canSaltScore s = true) : exec .saltScore s =
    .next (scored (memTerm s) (linkTerm s) (waveTerm (leastNat (s.free 16).toNat (servingLows s))) (heatTerm (hottestRead s)) s) :=
  congrArg Host.Outcome.next (if_pos h)

theorem reg_scored (mem link wave heat : Nat) (s : State) (f : RegField) :
    (scored mem link wave heat s).reg raspPage f = (termsSet mem link wave heat s).reg raspPage f :=
  (State.reg_usedFree ..).trans (reg_of_regs ((markScore_only ..).regs rfl) ..)

theorem scored_parts {mem link wave heat : Nat} (hmem : mem < 2 ^ 8) (hlink : link < 2 ^ 8) (hwave : wave < 2 ^ 8) (hheat : heat < 2 ^ 8) (s : State) :
    (scored mem link wave heat s).reg raspPage Rg.raspSaltPartsMem = mem ∧
    (scored mem link wave heat s).reg raspPage Rg.raspSaltPartsLink = link ∧
    (scored mem link wave heat s).reg raspPage Rg.raspSaltPartsWave = wave ∧
    (scored mem link wave heat s).reg raspPage Rg.raspSaltPartsThermal = heat := by
  refine ⟨?_, ?_, ?_, ?_⟩ <;> rw [reg_scored, termsSet]
  · iterate 5 rw [State.reg_setReg_other _ (fieldBit_ne (by decide))]
    exact reg_setReg_fits hmem _
  · iterate 4 rw [State.reg_setReg_other _ (fieldBit_ne (by decide))]
    exact reg_setReg_fits hlink _
  · iterate 3 rw [State.reg_setReg_other _ (fieldBit_ne (by decide))]
    exact reg_setReg_fits hwave _
  · iterate 2 rw [State.reg_setReg_other _ (fieldBit_ne (by decide))]
    exact reg_setReg_fits hheat _

theorem scored_score (mem link wave heat : Nat) (s : State) :
    (scored mem link wave heat s).reg raspPage Rg.raspSaltScoreScore = 1000 - (mem + link + wave + heat) ∧
    (scored mem link wave heat s).reg raspPage Rg.raspSaltScoreStale = 0 := by
  have hscore : 1000 - (mem + link + wave + heat) < 2 ^ 10 := by omega
  rw [reg_scored, reg_scored, termsSet]
  exact ⟨(State.reg_setReg_other _ (fieldBit_ne (by decide)) _).trans (reg_setReg_fits (f := Rg.raspSaltScoreScore) hscore _),
    State.reg_setReg_same ..⟩

theorem termsSet_only (mem link wave heat : Nat) (s : State) : Only 8 s (termsSet mem link wave heat s) := by
  unfold termsSet
  iterate 5 refine Only.trans ?_ (State.setReg_only ..)
  exact State.setReg_only ..

theorem scored_keeps (mem link wave heat : Nat) (s : State) : (scored mem link wave heat s).salt.scoredAt = some s.now ∧
    (scored mem link wave heat s).mem = s.mem := by
  rw [scored, State.usedFree_salt, State.usedFree_mem, (markScore_only _).mem rfl, (termsSet_only ..).mem rfl]
  exact ⟨congrArg some ((termsSet_only ..).now_same rfl), rfl⟩

/-- The least of some numbers does not depend on the number that stands for none. -/
theorem leastNat_cons {l : List Nat} (h : l ≠ []) (d e : Nat) : leastNat d l = leastNat e l := by
  cases l with
  | nil => exact absurd rfl h
  | cons x xs => rfl

/-! ### The messages (R547 to R549) -/

/-- The moment from which the age of this device's score counts. -/
def scoreSince (s : State) : Nat := max s.salt.enabledAt (s.salt.scoredAt.getD 0)

/-- The message that this device sends. -/
def ownMessage (s : State) : SaltMessage :=
  ⟨Fin.ofNat 64 (ownMember s), BitVec.ofNat 10 (if s.now ≥ scoreSince s + 500000000 then 0 else s.reg raspPage Rg.raspSaltScoreScore), s.salt.seq,
    ownVotes s, decide (s.now ≥ scoreSince s + 10000000)⟩

/-- The message is sent. -/
def messageSent (s : State) : State :=
  ({ s with salt := { s.salt with seq := s.salt.seq + 1 } }.setReg raspPage Rg.raspSaltScoreStale
    (bit (decide (s.now ≥ scoreSince s + 10000000)))).emit (.salt (ownMessage s))

theorem messageSent_out (s : State) : (messageSent s).out = s.out ++ [.salt (ownMessage s)] := by
  rw [messageSent, State.emit_out, State.setReg_out]

theorem exec_saltMessageTx {s : State} (h : canSaltMessageTx s = true) : exec .saltMessageTx s = .next (announceAgreed (messageSent s)) :=
  congrArg Host.Outcome.next (if_pos h)

/-- A member's message is heard: its last three scores, when it came, whether its score is old, and its votes. -/
def messageHeard (msg : SaltMessage) (s : State) : State :=
  { s with salt := { s.salt with
    scores := tabSet msg.member.val ((msg.score.toNat :: tabGet [] msg.member.val s.salt.scores).take 3) s.salt.scores
    heardAt := tabSet msg.member.val s.now s.salt.heardAt
    staleFrom := if msg.stale then (if s.salt.staleFrom.contains msg.member.val then s.salt.staleFrom else s.salt.staleFrom ++ [msg.member.val])
      else s.salt.staleFrom.filter (· != msg.member.val)
    votes := tabSet msg.member.val msg.votes s.salt.votes } }

theorem exec_saltMessageRx {msg : SaltMessage} {s : State} (h : canSaltMessageRx msg s = true) :
    exec (.saltMessageRx msg) s = .next (announceAgreed (messageHeard msg s)) := by
  simp only [canSaltMessageRx, Bool.and_eq_true, decide_eq_true_eq, bne_iff_ne, and_assoc] at h
  exact congrArg Host.Outcome.next (if_pos h)

theorem exec_saltUsedExpiry {s : State} (h : canSaltUsedExpiry s = true) : exec .saltUsedExpiry s = .next (announceAgreed (countUsed s)) :=
  congrArg Host.Outcome.next (if_pos h)

/-! ### Expulsion, isolation and admission (R550 to R552) -/

theorem exec_expelAnnounce {member : Fin 64} {news : SaltNews} {s : State} (h : canExpelAnnounce member news s = true) :
    exec (.expelAnnounce member news) s = .next (match news with
      | .expelled => expelHere member s
      | .kept => keepMember member s
      | .admitted => admitHere member s) := by
  simp only [canExpelAnnounce, Bool.and_eq_true, decide_eq_true_eq] at h
  refine congrArg Host.Outcome.next ((if_pos h).trans ?_)
  cases news <;> rfl

theorem exec_isolation {s : State} (h : canIsolation s = true) : exec .isolation s =
    .next ((quenchParts ((List.range 64).filter fun k => peersBeside s k (selfDevice s)) s).raise raspPage 11) := by
  simp only [canIsolation, Bool.and_eq_true, decide_eq_true_eq] at h
  exact congrArg Host.Outcome.next (if_pos h)

theorem exec_admitWrite {who : Requester} {value : BitVec 32} {s : State} (h : canAdmitWrite who value s = true) :
    exec (.admitWrite who value) s = .next ((admitHere (value.toNat % 64) s).emit (.announce (value.toNat % 64) .admitted)) := by
  simp only [canAdmitWrite, Bool.and_eq_true, beq_iff_eq, decide_eq_true_eq] at h
  obtain ⟨⟨⟨htaken, hgo⟩, hlead⟩, hmember⟩ := h
  exact congrArg Host.Outcome.next ((writeAccess_taken htaken).trans (if_pos ⟨hgo, hlead, hmember⟩))

/-- A member that is admitted is no expelled one, and its scores are forgotten. -/
theorem admitHere_member (m : Nat) (s : State) : ((admitHere m s).reg raspPage Rg.raspExpelledMembers).testBit m = false ∧
    tabFind m (admitHere m s).salt.scores = none := by
  refine ⟨?_, tabFind_del_same ..⟩
  unfold admitHere memberBit
  dsimp only
  rw [State.reg_setReg_same]
  change Nat.testBit (_ % 2 ^ 64) m = false
  rw [Nat.testBit_mod_two_pow, if_neg (by decide), testBit_cleared, Bool.and_false]

/-! ### The statement -/

/-- Settles O50: a score by its four terms, a message by its fields, the others by their equations. -/
theorem salinometerComplete : Obligations.SalinometerComplete := by
  unfold Obligations.SalinometerComplete
  refine ⟨?score, ?tx, ?rx, ?expel, ?isolation, ?admission, ?used⟩
  case score =>
    intro s h
    obtain ⟨hmem, hlink, hwave, hheat⟩ := scored_parts (mem := memTerm s) (link := linkTerm s)
      (wave := waveTerm (leastNat (s.free 16).toNat (servingLows s))) (heat := heatTerm (hottestRead s))
      (Nat.lt_succ_of_le (Nat.le_trans (Nat.min_le_left ..) (by decide))) (Nat.lt_succ_of_le (Nat.le_trans (Nat.min_le_left ..) (by decide)))
      (Nat.lt_succ_of_le (Nat.le_trans (waveTerm_le _) (by decide))) (Nat.lt_succ_of_le (Nat.le_trans (heatTerm_le _) (by decide))) s
    obtain ⟨hscore, hstale⟩ := scored_score (memTerm s) (linkTerm s) (waveTerm (leastNat (s.free 16).toNat (servingLows s)))
      (heatTerm (hottestRead s)) s
    refine ⟨_, exec_saltScore h, hmem, hlink, fun hlows => ?_, fun _ => hheat, ?_, hstale, scored_keeps ..⟩
    · rw [hwave, leastNat_cons hlows _ 0]
      rfl
    · rw [hmem, hlink, hwave, hheat]
      exact hscore
  case tx =>
    intro s h
    refine ⟨_, exec_saltMessageTx h, ownMessage s, messageSent s, rfl, messageSent_out s, rfl, rfl, rfl, fun hold => ?_,
      fun hfresh => ?_, decide_eq_true_iff⟩
    · exact congrArg (BitVec.ofNat 10) (if_pos hold)
    · exact congrArg (BitVec.ofNat 10) (if_neg (Nat.not_le.mpr hfresh))
  case rx =>
    intro msg s h
    exact ⟨_, exec_saltMessageRx h, messageHeard msg s, rfl, tabGet_set_same .., tabGet_set_same .., tabFind_set_same .., rfl⟩
  case expel =>
    intro member news s h
    refine ⟨_, exec_expelAnnounce h, ?_, ?_, ?_⟩ <;> rintro rfl <;> rfl
  case isolation => exact fun s h => ⟨_, exec_isolation h, rfl, raised_bit _ _ _ (by decide)⟩
  case admission =>
    intro who value s h
    obtain ⟨hexpelled, hscores⟩ := admitHere_member (value.toNat % 64) s
    exact ⟨_, exec_admitWrite h, hexpelled, rfl, hscores, rfl⟩
  case used => exact fun s h => ⟨_, exec_saltUsedExpiry h, rfl⟩

end Sys2Proof.Machine
end

section
/-! SUPPORT. Twinned devices (R538 to R545): pulses, the judgement of a failed twin, the takeover, the mirror and the drain, and the statement on
them. -/

namespace Sys2Proof.Machine

/-! ### Pulses and the pin (R538) -/

theorem exec_twinPulseTx {s : State} (h : canTwinPulseTx s = true) : exec .twinPulseTx s =
    .next ({ s with twin := { s.twin with pulsedAt := some s.now, pulseDue := none } }.emit (.pin .twinAlive)) :=
  congrArg Host.Outcome.next (if_pos (Bool.and_eq_true_iff.mp h))

theorem exec_twinPulseRx {s : State} (h : canTwinPulseRx s = true) : exec .twinPulseRx s = .next { s with twin := { s.twin with
    heardAt := some s.now, pulseDue := if twinLeads s then none else some (s.now + 5000) } } := congrArg Host.Outcome.next (if_pos h)

theorem exec_twinPinFault {s : State} (h : canTwinPinFault s = true) : exec .twinPinFault s =
    .next ((s.setReg raspPage Rg.raspTwinStatusPinFault 1).error raspPage 0x0708 0 0) := congrArg Host.Outcome.next (if_pos h)

/-! ### A failed twin (R541, R542, R553) -/

theorem takeOver_regs (s : State) : (takeOver s).reg raspPage Rg.raspTwinControlTakeover = 0 ∧
    (takeOver s).reg raspPage Rg.raspTwinStatusState = 4 ∧ ((takeOver s).reg raspPage Rg.pageIntStatus).testBit 6 = true := by
  unfold takeOver
  dsimp only
  refine ⟨?_, ?_, raised_bit _ _ _ (by decide)⟩
  · rw [State.reg_raise_off _ (offHeader_same (by decide)), State.reg_setReg_other _ (fieldBit_ne (by decide))]
    exact State.reg_setReg_same ..
  · rw [State.reg_raise_off _ (offHeader_same (by decide))]
    exact State.reg_setReg_same ..

theorem loseState_regs (s : State) : (loseState s).reg raspPage Rg.raspTwinStatusState = 3 ∧
    ((loseState s).reg raspPage Rg.pageIntStatus).testBit 10 = true := by
  unfold loseState
  dsimp only
  rw [State.reg_raise_off _ (offHeader_same (by decide))]
  exact ⟨State.reg_setReg_same .., raised_bit _ _ _ (by decide)⟩

/-- The twin counts as failed. -/
def twinGone (s : State) : State := { s with twin := { s.twin with failed := true } }

/-- What the judgement of a failed twin comes to: a state that is lost, a takeover, or the news alone. -/
theorem judgeTwin_watched {s : State} (h : twinWatched s = true) : judgeTwin s =
    if (!(standbyCells s).isEmpty && s.reg raspPage Rg.raspTwinStatusState == 1) = true then loseState (twinGone s)
    else if (!(standbyCells s).isEmpty && s.flag raspPage Rg.raspTwinControlAuto && !s.flag raspPage Rg.raspTwinStatusPinFault) = true then
      takeOver (twinGone s)
    else ((twinGone s).setReg raspPage Rg.raspTwinStatusState 3).raise raspPage 5 := by
  obtain ⟨hon, hwatched⟩ := Bool.and_eq_true_iff.mp h
  refine if_neg ?_
  rw [Bool.or_eq_true, not_or]
  exact ⟨nn hon, nb hwatched⟩

theorem judgeTwin_judged {s : State} (h : twinWatched s = true) : TwinJudged s (judgeTwin s) := by
  rw [judgeTwin_watched h]
  refine ⟨?failed, fun hnone => ?alone, fun hcells hcopied => ?lost, fun hcells hcopied hauto hpin => ?taken⟩
  case failed =>
    refine ite_prop (fun t : State => t.twin.failed = true) (fun _ => ?_) (fun _ => ite_prop (fun t : State => t.twin.failed = true)
      (fun _ => ?_) (fun _ => ?_))
    · exact congrArg Twin.failed ((loseState_only (twinGone s)).twin rfl)
    · exact congrArg Twin.failed ((takeOver_only (twinGone s)).twin rfl)
    · exact congrArg Twin.failed (State.raise_twin ..)
  case alone =>
    rw [hnone, if_neg (by simp), if_neg (by simp), State.reg_raise_off _ (offHeader_same (by decide))]
    exact ⟨State.reg_setReg_same .., raised_bit _ _ _ (by decide), State.raise_radio ..⟩
  case lost =>
    rw [hcells, hcopied, if_pos (by decide)]
    exact loseState_regs _
  case taken =>
    obtain ⟨-, hstate, hbit⟩ := takeOver_regs (twinGone s)
    rw [if_neg (by simp [hcopied]), if_pos (by simp [hcells, hauto, hpin])]
    exact ⟨hstate, hbit⟩

theorem exec_twinFailTimeout {s : State} (h : canTwinFailTimeout s = true) : exec .twinFailTimeout s = .next (judgeTwin s) := by
  simp only [canTwinFailTimeout, Bool.and_eq_true] at h
  obtain ⟨⟨-, hunlocked⟩, hsilent⟩ := h
  exact congrArg Host.Outcome.next (if_pos ⟨hunlocked, hsilent⟩)

theorem exec_twinTakeover {s : State} (h : canTwinTakeover s = true) : exec .twinTakeover s = .next (takeOver s) :=
  congrArg Host.Outcome.next (if_pos (Bool.and_eq_true_iff.mp h))

/-! ### The mirror (R539) -/

/-- A write to a partition joins the batch of the mirror, and leaves the list of partitions that are copied. -/
theorem mapped_of_twin {s t : State} (h : t.twin = s.twin) : t.twin.mapped = s.twin.mapped := congrArg Twin.mapped h

theorem mapped_logMirror (k a : Nat) (bytes : List Byte) (s : State) : (logMirror k a bytes s).twin.mapped = s.twin.mapped := by
  unfold logMirror
  split
  · rfl
  · exact ite_prop (fun u : State => u.twin.mapped = s.twin.mapped) (fun _ => rfl) (fun _ => rfl)

theorem twin_storeHome (k a : Nat) (r : Region) (key : Nat) (bytes : List Byte) (s : State) : (s.storeHome k a r key bytes).twin = s.twin :=
  (State.storeHome_only ..).twin rfl

theorem mapped_writePart (k a : Nat) (bytes : List Byte) (s : State) : (writePart k a bytes s).twin.mapped = s.twin.mapped := by
  unfold writePart
  split
  · rfl
  · next e _ =>
    have hnoted : (logMirror k a bytes (s.when (!placeCached s (placeOf s e a)) (warm k a))).twin.mapped = s.twin.mapped := by
      refine (mapped_logMirror ..).trans ?_
      cases !placeCached s (placeOf s e a)
      · rfl
      · exact mapped_of_twin ((warm_only ..).twin rfl)
    dsimp only
    split
    · exact (mapped_of_twin (twin_storeHome ..)).trans hnoted
    · exact (mapped_of_twin (State.countErrors_twin ..)).trans hnoted
    · exact hnoted
    · split
      · exact (mapped_of_twin ((copyWrite_only ..).twin rfl)).trans hnoted
      · exact hnoted

theorem mapped_partWrite (k a : Nat) (bytes : List Byte) (s : State) : (s.partWrite k a bytes).twin.mapped = s.twin.mapped :=
  ite_prop (fun u : State => u.twin.mapped = s.twin.mapped) (fun _ => each_keep (fun u => u.twin.mapped) (fun _ _ => mapped_writePart ..) ..)
    (fun _ => rfl)

/-- A batch of the mirror is written. -/
def batchWritten (k : Nat) (writes : List (BitVec 64 × List Byte)) (s : State) : State :=
  s.each writes fun (e : BitVec 64 × List Byte) u => u.partWrite k e.1.toNat e.2

theorem batchWritten_mapped (k : Nat) (writes : List (BitVec 64 × List Byte)) (s : State) :
    (batchWritten k writes s).twin.mapped = s.twin.mapped := each_keep (fun u => u.twin.mapped) (fun _ _ => mapped_partWrite ..) ..

/-- The partition is listed among those that are copied; a radio partition that was listed before is now in step. -/
def batchMirrored (k : Nat) (writes : List (BitVec 64 × List Byte)) (s : State) : State :=
  let t := batchWritten k writes s
  let again := s.twin.mapped.contains k
  let t := { t with twin := { t.twin with mapped := if again then t.twin.mapped else t.twin.mapped ++ [k] } }
  if again && isRadio s k && s.reg raspPage Rg.raspTwinStatusState == 1 then t.setReg raspPage Rg.raspTwinStatusState 2 else t

theorem exec_mirrorBatch {k : Fin 64} {writes : List (BitVec 64 × List Byte)} {s : State} (h : canMirrorBatch k writes s = true) :
    exec (.mirrorBatch k writes) s = .next (batchMirrored k writes s) := by
  simp only [canMirrorBatch, Bool.and_eq_true, and_assoc] at h
  exact congrArg Host.Outcome.next (if_pos h)

theorem batchMirrored_mapped (k : Nat) (writes : List (BitVec 64 × List Byte)) (s : State) :
    (batchMirrored k writes s).twin.mapped.contains k = true := by
  unfold batchMirrored
  dsimp only
  rw [batchWritten_mapped]
  refine ite_prop (fun u : State => u.twin.mapped.contains k = true) (fun _ => ?_) (fun _ => ?_)
  all_goals
    by_cases hagain : k ∈ s.twin.mapped <;> simp [hagain]

theorem batchMirrored_mem (k : Nat) (writes : List (BitVec 64 × List Byte)) (s : State) :
    (batchMirrored k writes s).mem = (batchWritten k writes s).mem :=
  ite_prop (fun u : State => u.mem = (batchWritten k writes s).mem) (fun _ => rfl) (fun _ => rfl)

/-! ### TWIN_CONTROL and the drain (R545) -/

/-- A drain that starts or is done changes TWIN_CONTROL.DRAIN and TWIN_STATUS.STATE alone. -/
theorem reg_startDrain {f : RegField} (hoff : offHeader raspPage raspPage f 0)
    (hdrain : fieldBit raspPage f 0 ≠ fieldBit raspPage Rg.raspTwinControlDrain 0)
    (hstate : fieldBit raspPage f 0 ≠ fieldBit raspPage Rg.raspTwinStatusState 0)
    (s : State) : (startDrain s).reg raspPage f = s.reg raspPage f := by
  unfold startDrain
  dsimp only
  refine ite_prop (fun u : State => u.reg raspPage f = s.reg raspPage f) (fun _ => ?_) (fun _ => State.reg_setReg_other _ hdrain _)
  unfold drainDone
  rw [State.reg_raise_off _ hoff, State.reg_setReg_other _ hstate, State.reg_setReg_other _ hdrain]

/-- TWIN_CONTROL with its AUTO and TAKEOVER bits written. -/
def twinBitsWritten (auto takeover : Bool) (s : State) : State :=
  let t := s.setReg raspPage Rg.raspTwinControlAuto (bit auto)
  if takeover then t.setReg raspPage Rg.raspTwinControlTakeover 1 else t

/-- The DRAIN bit, where it is written and was clear: the drain starts where pairing is on. -/
def drainAsked (asked : Bool) (s : State) : State :=
  if asked ∧ !s.flag raspPage Rg.raspTwinControlDrain then
    let t := s.setReg raspPage Rg.raspTwinControlDrain 1
    if t.flag raspPage Rg.raspTwinControlEnable then startDrain t else t
  else s

theorem writeTwinControl_eq (v : Nat) (s : State) :
    writeTwinControl v s = drainAsked (v.testBit 3) (twinBitsWritten (v.testBit 1) (v.testBit 2) (setPairing (v.testBit 0) s)) := rfl

theorem reg_drainAsked {f : RegField} (hoff : offHeader raspPage raspPage f 0)
    (hdrain : fieldBit raspPage f 0 ≠ fieldBit raspPage Rg.raspTwinControlDrain 0)
    (hstate : fieldBit raspPage f 0 ≠ fieldBit raspPage Rg.raspTwinStatusState 0)
    (asked : Bool) (s : State) : (drainAsked asked s).reg raspPage f = s.reg raspPage f := by
  have hset : (s.setReg raspPage Rg.raspTwinControlDrain 1).reg raspPage f = s.reg raspPage f := State.reg_setReg_other _ hdrain _
  unfold drainAsked
  dsimp only
  refine ite_prop (fun u : State => u.reg raspPage f = s.reg raspPage f) (fun _ => ?_) (fun _ => rfl)
  exact ite_prop (fun u : State => u.reg raspPage f = s.reg raspPage f) (fun _ => (reg_startDrain hoff hdrain hstate _).trans hset) (fun _ => hset)

theorem twinBitsWritten_auto (auto takeover : Bool) (s : State) :
    (twinBitsWritten auto takeover s).reg raspPage Rg.raspTwinControlAuto = bit auto := by
  have hauto : (s.setReg raspPage Rg.raspTwinControlAuto (bit auto)).reg raspPage Rg.raspTwinControlAuto = bit auto :=
    reg_setReg_fits (by cases auto <;> decide) s
  cases takeover
  · exact hauto
  · exact (State.reg_setReg_other _ (fieldBit_ne (by decide)) _).trans hauto

theorem twinBitsWritten_takeover (auto : Bool) (s : State) :
    (twinBitsWritten auto true s).reg raspPage Rg.raspTwinControlTakeover = 1 := State.reg_setReg_same ..

theorem exec_drainWrite {who : Requester} {value : BitVec 32} {s : State} (h : canDrainWrite who value s = true) :
    exec (.drainWrite who value) s = .next (writeTwinControl value.toNat s) := congrArg Host.Outcome.next (writeAccess_taken h)

theorem exec_drainHandover {k : Fin 64} {cell : Fin 384} {s : State} (h : canDrainHandover k cell s = true) :
    ∃ y, tabFind cell.val (s.radioOf k).cells = some y ∧
      (y.standby = true → exec (.drainHandover k cell) s = .next (receiveCell k cell y s)) ∧
      (y.standby = false → ∃ h, s.twin.handovers.find? (fun h => h.part == k.val && h.cell == cell.val) = some h ∧
        exec (.drainHandover k cell) s = .next (handOver h s)) := by
  obtain ⟨hon, hcells⟩ := Bool.and_eq_true_iff.mp h
  obtain ⟨y, hy, hdue⟩ := any_some hcells
  refine ⟨y, hy, fun hstandby => ?_, fun hactive => ?_⟩
  · simp only [exec, execDrainHandover, hy]
    exact congrArg Host.Outcome.next ((if_neg (nn hon)).trans (if_pos hstandby))
  · rw [hactive, Bool.false_or] at hdue
    obtain ⟨v, hv, hlate⟩ := any_some hdue
    refine ⟨v, hv, ?_⟩
    simp only [exec, execDrainHandover, hy, hv]
    exact congrArg Host.Outcome.next ((if_neg (nn hon)).trans ((if_neg (ne_true_of_eq_false hactive)).trans (if_pos (of_decide_eq_true hlate))))

/-! ### The statement -/

/-- Settles O59: the judgement by the standby cells and their state, the mirror by what partition writes leave, TWIN_CONTROL bit by bit. -/
theorem twinCommandsComplete : Obligations.TwinCommandsComplete := by
  unfold Obligations.TwinCommandsComplete
  refine ⟨?pulseTx, ?pulseRx, ?pin, ?timeout, ?message, ?takeover, ?mirror, ?write, ?handover⟩
  case pulseTx => exact fun s h => ⟨_, exec_twinPulseTx h, rfl⟩
  case pulseRx => exact fun s h => ⟨_, exec_twinPulseRx h, rfl, rfl, rfl⟩
  case pin =>
    intro s h
    refine ⟨_, exec_twinPinFault h, ?_, State.error_mem .., State.error_radio ..⟩
    exact (State.reg_error_off _ (offHeader_same (by decide)) ..).trans (State.reg_setReg_same ..)
  case timeout =>
    intro s h
    simp only [canTwinFailTimeout, Bool.and_eq_true] at h
    exact ⟨_, exec_twinFailTimeout (by simpa [canTwinFailTimeout] using h), judgeTwin_judged h.1.1⟩
  case message => exact fun s h => ⟨_, rfl, judgeTwin_judged h⟩
  case takeover => exact fun s h => ⟨_, exec_twinTakeover h, rfl, takeOver_regs s⟩
  case mirror => exact fun k writes s h => ⟨_, exec_mirrorBatch h, batchMirrored_mapped .., batchMirrored_mem ..⟩
  case write =>
    intro who value s h
    refine ⟨_, exec_drainWrite h, rfl, ?_, fun htakeover => ?_⟩ <;> rw [writeTwinControl_eq, reg_drainAsked (offHeader_same (by decide)) (fieldBit_ne (by decide))
      (fieldBit_ne (by decide))]
    · exact twinBitsWritten_auto ..
    · change value.toNat.testBit 2 = true at htakeover
      rw [htakeover]
      exact twinBitsWritten_takeover ..
  case handover =>
    intro k cell s h
    obtain ⟨y, hy, hreceives, hhands⟩ := exec_drainHandover h
    cases hstandby : y.standby
    case true => exact ⟨_, hreceives hstandby, y, hy, fun _ => rfl, fun hactive => absurd (hstandby.symm.trans hactive) (by decide)⟩
    case false =>
      obtain ⟨v, hv, hexec⟩ := hhands hstandby
      exact ⟨_, hexec, y, hy, fun hother => absurd (hstandby.symm.trans hother) (by decide), fun _ => ⟨v, hv, rfl⟩⟩

end Sys2Proof.Machine
end

section
/-! SUPPORT. Samples of the sensors (R561), the power limiter (R581), the thermal policy (R585, R606) and the PLDM requests (R559), and the
statement on them. -/

namespace Sys2Proof.Machine

/-! ### SENSOR_SAMPLE (R561) -/

/-- The junctions and the inlet are taken from a sample. -/
def sampleTaken (env : SensorEnv) (s : State) : State :=
  let t := { s with
    plat := { s.plat with junctions := env.dies.mapIdx fun i v => (i, v / 2) }
    power := { s.power with inletLost := s.power.inletLost && env.inlet.isNone, inletAt := if env.inlet.isSome then s.now else s.power.inletAt } }
  match env.inlet with
  | some v => setInlet v t
  | none => t

/-- The thermal policy has acted on a sample. -/
def samplePoliced (env : SensorEnv) (s : State) : State :=
  setThermal (thermalPolicy ((s.mgmt.sample.map (·.dies)).getD []) env.dies env.stackTemps (sampleTaken env s))

/-- A sample is recorded in MGMT, and the sensors that cross a threshold are told as platform events. -/
def sampleTold (env : SensorEnv) (readings : List (SensorId × Nat)) (watts : Nat) (s t : State) : State :=
  let events := crossings s.mgmt.readings readings
  let u := (t.setReg mgmtPage Rg.mgmtThermalHottest (env.dies.foldl max 0 / 2)).setReg mgmtPage Rg.mgmtPowerNowWatts watts
  let u := { u with mgmt := { u.mgmt with sample := some env, readings := readings, events := u.mgmt.events ++ events } }
  (u.each events fun e u => u.emit (.platformEvent e.1 e.2)).usedFree 2

theorem exec_sensorSample {env : SensorEnv} {s : State} (h : canSensorSample env s = true) :
    ∃ readings watts, exec (.sensorSample env) s = .next (sampleTold env readings watts s (samplePoliced env s)) :=
  ⟨_, _, congrArg Host.Outcome.next (if_neg (nn h))⟩

theorem sampleTaken_plat (env : SensorEnv) (s : State) : (sampleTaken env s).plat.junctions = env.dies.mapIdx fun i v => (i, v / 2) := by
  unfold sampleTaken
  dsimp only
  split <;> rfl

theorem sampleTaken_inlet {env : SensorEnv} {v : Nat} (h : env.inlet = some v) (s : State) :
    (sampleTaken env s).power.inletAt = s.now ∧ (sampleTaken env s).power.inletLost = false := by
  simp only [sampleTaken, h]
  exact ⟨rfl, Bool.and_false _⟩

theorem thermalPolicy_power (old new stackTemps : List Nat) (s : State) :
    (thermalPolicy old new stackTemps s).power.hotStacks = (List.range 20).filter (fun x => decide (stackTemps.getD x 0 ≥ 95)) ∧
    (thermalPolicy old new stackTemps s).power.inletAt = s.power.inletAt ∧
    (thermalPolicy old new stackTemps s).power.inletLost = s.power.inletLost := by
  unfold thermalPolicy
  dsimp only
  rw [each_keep State.power (fun d u => (State.raise_power ..).trans (State.error_power ..)), State.raiseBits_power, (settleGaps_only _).power rfl]
  exact ⟨rfl, rfl, rfl⟩

theorem samplePoliced_power (env : SensorEnv) (s : State) : (samplePoliced env s).power =
    (thermalPolicy ((s.mgmt.sample.map (·.dies)).getD []) env.dies env.stackTemps (sampleTaken env s)).power := rfl

theorem samplePoliced_plat (env : SensorEnv) (s : State) :
    (samplePoliced env s).plat.junctions = env.dies.mapIdx fun i v => (i, v / 2) :=
  (congrArg Plat.junctions ((thermalPolicy_only ..).plat rfl)).trans (sampleTaken_plat env s)

/-- The events go out and leave what any part but the emissions holds. -/
theorem sampleTold_keeps {β : Type} (g : State → β) (hemit : ∀ e u, g (u.emit e) = g u) (hfree : ∀ u : State, g (u.usedFree 2) = g u)
    (env : SensorEnv) (readings : List (SensorId × Nat)) (watts : Nat) (s t : State) : g (sampleTold env readings watts s t) =
      g { (t.setReg mgmtPage Rg.mgmtThermalHottest (env.dies.foldl max 0 / 2)).setReg mgmtPage Rg.mgmtPowerNowWatts watts with
        mgmt := { t.mgmt with sample := some env, readings := readings, events := t.mgmt.events ++ crossings s.mgmt.readings readings } } :=
  (hfree _).trans (each_keep g (fun _ _ => hemit ..) ..)

theorem sampleTold_hottest (env : SensorEnv) (readings : List (SensorId × Nat)) (watts : Nat) (s t : State) :
    (sampleTold env readings watts s t).reg mgmtPage Rg.mgmtThermalHottest = env.dies.foldl max 0 / 2 % 2 ^ Rg.mgmtThermalHottest.len :=
  (sampleTold_keeps (fun u => u.reg mgmtPage Rg.mgmtThermalHottest) (fun _ _ => rfl) (fun _ => rfl) ..).trans
    ((State.reg_setReg_other _ (fieldBit_ne (by decide)) _).trans (State.reg_setReg_same ..))

/-! ### The power limiter (R581) -/

theorem beginThrottle_throttling (s : State) : (beginThrottle s).power.throttling = true :=
  ite_prop (fun u : State => u.power.throttling = true) id (fun _ => congrArg Power.throttling (State.raise_power ..))

theorem beginThrottle_power (s : State) : (beginThrottle s).power.p = s.power.p ∧ (beginThrottle s).power.p0 = s.power.p0 := by
  refine ite_prop (fun u : State => u.power.p = s.power.p ∧ u.power.p0 = s.power.p0) (fun _ => ⟨rfl, rfl⟩) (fun _ => ?_)
  rw [State.raise_power]
  exact ⟨rfl, rfl⟩

theorem beginThrottle_begins {s : State} (h : s.power.throttling = false) : (beginThrottle s).power.allowance = false ∧
    ((beginThrottle s).reg mgmtPage Rg.pageIntStatus).testBit 3 = true := by
  unfold beginThrottle
  rw [if_neg (ne_true_of_eq_false h), State.raise_power]
  exact ⟨rfl, raised_bit _ _ _ (by decide)⟩

/-- P and P0 of 10 µs are taken, with the times since when P0 is above or under SUSTAINED. -/
def estimateTaken (p p0 : Nat) (s : State) : State :=
  let x := s.power
  let above := decide (p0 > sustained s)
  let under := if above then none else some (x.underSince.getD s.now)
  let rested := match under with
    | some t => decide (s.now ≥ t + 90000000)
    | none => false
  { s with power := { x with
    p := p, p0 := p0, recent := (p :: x.recent).take 100, underSince := under
    overSince := if above then some (x.overSince.getD s.now) else none
    throttling := x.throttling && above, allowance := x.allowance || rested, overrun := x.overrun && above } }

/-- A throttle begins where P0 is above 2,600 W, or above SUSTAINED with the allowance used. -/
def throttleJudged (p p0 : Nat) (s : State) : State :=
  if decide (p0 > sustained s) && (decide (p0 > 2600) || !s.power.allowance) then beginThrottle (estimateTaken p p0 s) else estimateTaken p p0 s

/-- The fraction of a throttle that holds is set and shown; s is the state before the estimate. -/
def fractionSet (f : Nat) (s t : State) : State :=
  let fr := if t.power.throttling then f else 0
  let full := fr == 1000
  let t := { t with power := { t.power with
    fraction := fr
    fullSince := if full then some (s.power.fullSince.getD s.now) else none
    overrun := t.power.overrun && full } }
  let t := t.addReg mgmtPage Rg.mgmtThrottleTimeTime (heldNs t)
  t.setReg mgmtPage Rg.mgmtPowerNowFraction fr

theorem exec_powerEstimate {p p0 : Nat} {f : Fin 1001} {s : State} (h : canPowerEstimate p p0 f s = true) :
    exec (.powerEstimate p p0 f) s = .next (settleGaps (checkOverrun (fractionSet f s (throttleJudged p p0 s)))) :=
  congrArg Host.Outcome.next (if_neg (nn h))

theorem throttleJudged_power (p p0 : Nat) (s : State) : (throttleJudged p p0 s).power.p = p ∧ (throttleJudged p p0 s).power.p0 = p0 :=
  ite_prop (fun u : State => u.power.p = p ∧ u.power.p0 = p0) (fun _ => beginThrottle_power _) (fun _ => ⟨rfl, rfl⟩)

theorem throttleJudged_under {p p0 : Nat} {s : State} (h : p0 ≤ sustained s) :
    (throttleJudged p p0 s).power.throttling = false ∧ (throttleJudged p p0 s).power.overSince = none := by
  have hunder : decide (p0 > sustained s) = false := decide_eq_false (Nat.not_lt.mpr h)
  unfold throttleJudged estimateTaken
  rw [hunder]
  exact ⟨Bool.and_false _, rfl⟩

theorem throttleJudged_over {p p0 : Nat} {s : State} (habove : p0 > sustained s) (h : p0 > 2600 ∨ s.power.allowance = false) :
    (throttleJudged p p0 s).power.throttling = true := by
  unfold throttleJudged
  rw [if_pos (by simpa [habove] using h)]
  exact beginThrottle_throttling _

/-- POWER_OVERRUN leaves the power record but for its own mark. -/
theorem checkOverrun_power (s : State) : ∃ b, (checkOverrun s).power = { s.power with overrun := b } := by
  unfold checkOverrun
  split
  · exact ⟨_, rfl⟩
  · refine ite_prop (fun u : State => ∃ b, u.power = { s.power with overrun := b }) (fun _ => ⟨true, ?_⟩) (fun _ => ⟨_, rfl⟩)
    rw [State.raise_power, State.error_power]

theorem checkOverrun_fraction (s : State) :
    (checkOverrun s).reg mgmtPage Rg.mgmtPowerNowFraction = s.reg mgmtPage Rg.mgmtPowerNowFraction := by
  unfold checkOverrun
  split
  · rfl
  · refine ite_prop (fun u : State => u.reg mgmtPage Rg.mgmtPowerNowFraction = s.reg mgmtPage Rg.mgmtPowerNowFraction) (fun _ => ?_) (fun _ => rfl)
    rw [State.reg_raise_off _ (offHeader_same (by decide)), State.reg_error_off _ (offHeader_same (by decide))]
    rfl

/-! ### The expiry of the allowance, and the coolant (R581, R585, R606) -/

theorem exec_powerAllowanceExpiry {s : State} (h : canPowerAllowanceExpiry s = true) : exec .powerAllowanceExpiry s = .next (beginThrottle s) := by
  obtain ⟨hlive, hover⟩ := Bool.and_eq_true_iff.mp h
  obtain ⟨since, hsince, hlate⟩ := any_some hover
  simp only [exec, execPowerAllowanceExpiry, hsince]
  exact congrArg Host.Outcome.next (if_pos ⟨hlive, of_decide_eq_true hlate⟩)

/-- SUSTAINED falls for a warm inlet. -/
def coolantHigh (inlet : Nat) (s : State) : State := setThermal { s with power := { s.power with inletHigh := some inlet } }

theorem exec_coolantHigh {inlet : Nat} {s : State} (h : canCoolantHigh inlet s = true) :
    exec (.coolantHigh inlet) s = .next ((coolantHigh inlet s).raise mgmtPage 5) := by
  simp only [canCoolantHigh, Bool.and_eq_true, decide_eq_true_eq, Option.isNone_iff_eq_none] at h
  obtain ⟨⟨⟨⟨hfirmware, hinlet⟩, hwarm⟩, hnew⟩, hsince⟩ := h
  obtain ⟨since, hat, hlate⟩ := any_some hsince
  unfold exec execCoolantHigh
  refine congrArg Host.Outcome.next ?_
  split
  · next since' hat' =>
    obtain rfl := Option.some.inj (hat'.symm.trans hat)
    exact if_pos ⟨hfirmware, hinlet, hwarm, of_decide_eq_true hlate, hnew⟩
  · next hnone => cases hnone.symm.trans hat

/-- The loss of the inlet's sensor is told. -/
def inletLostTold (s : State) : State := ({ s with power := { s.power with inletLost := true } }.error rsetPage 0x0905 0 0).raise rsetPage 4

theorem exec_inletSensorLoss {s : State} (h : canInletSensorLoss s = true) : exec .inletSensorLoss s = .next (setInlet 550 (inletLostTold s)) := by
  simp only [canInletSensorLoss, Bool.and_eq_true, decide_eq_true_eq, and_assoc] at h
  exact congrArg Host.Outcome.next (if_pos h)

theorem inletLostTold_power (s : State) : (inletLostTold s).power = { s.power with inletLost := true } :=
  (State.raise_power ..).trans (State.error_power ..)

theorem reg_inletLostTold (s : State) : ((inletLostTold s).reg rsetPage Rg.pageIntStatus).testBit 4 = true := raised_bit _ _ _ (by decide)

theorem reg_setInlet_rset (v : Nat) (s : State) : (setInlet v s).reg rsetPage Rg.pageIntStatus = s.reg rsetPage Rg.pageIntStatus :=
  State.reg_setReg_other _ (fieldBit_ne_page (by decide) (by decide) (by decide)) _

theorem setInlet_warm {v : Nat} (h : v > 500) (s : State) : (setInlet v s).power.inletSince = some (s.power.inletSince.getD s.now) := if_pos h

/-! ### PLDM requests (R559, R561) -/

/-- An answer of bytes to a state that has sent and holds in its registers and fuses the same. -/
theorem answeredBytes_answer {src : MgmtSource} {b : List Byte} {s u : State} (hout : u.out = s.out) (hregs : u.regs = s.regs)
    (hfuses : u.fuses = s.fuses) : AnsweredBytes src b s (answer src (.bytes b) u) :=
  ⟨congrArg (· ++ [Emission.mgmt src (.bytes b)]) hout, tabFind_set_same .., hregs, hfuses⟩

theorem exec_getSensorReading {src : MgmtSource} {sensor : SensorId} {s : State} (h : canGetSensorReading src sensor s = true) :
    ∃ e, s.mgmt.readings.find? (fun e => e.1 == sensor) = some e ∧ exec (.getSensorReading src sensor) s = .next (answer src (.value e.2) s) := by
  obtain ⟨htaken, hknown⟩ := Bool.and_eq_true_iff.mp h
  obtain ⟨e, he⟩ := Option.isSome_iff_exists.mp hknown
  refine ⟨e, he, congrArg Host.Outcome.next ((pldm_taken htaken _).trans ?_)⟩
  simp only [he]

theorem exec_getPdr {src : MgmtSource} {s : State} (h : pldmTaken s src = true) :
    exec (.pdrRepositoryRequest src .getPdr) s = .next (answer src (.bytes Config.pdrRepository) s) :=
  congrArg Host.Outcome.next (pldm_taken h _)

theorem exec_pollEvent_some {src : MgmtSource} {s : State} {e : SensorId × Nat} {rest : List (SensorId × Nat)} (h : pldmTaken s src = true)
    (hevents : s.mgmt.events = e :: rest) : exec (.pdrRepositoryRequest src .pollEvent) s =
      .next (answer src (.value e.2) { s with mgmt := { s.mgmt with events := rest } }) := by
  refine congrArg Host.Outcome.next ((pldm_taken h _).trans ?_)
  simp only [hevents]

theorem exec_pollEvent_none {src : MgmtSource} {s : State} (h : pldmTaken s src = true) (hevents : s.mgmt.events = []) :
    exec (.pdrRepositoryRequest src .pollEvent) s = .next (answer src (.bytes []) s) := by
  refine congrArg Host.Outcome.next ((pldm_taken h _).trans ?_)
  simp only [hevents]

/-! ### The statement -/

/-- Settles O35: a sample by the policy that acts on it, an estimate by the throttle that it begins or ends, a request by its answer. -/
theorem powerAndSensorsComplete : Obligations.PowerAndSensorsComplete := by
  unfold Obligations.PowerAndSensorsComplete
  refine ⟨?sample, ?estimate, ?allowance, ?coolant, ?inlet, ?reading, ?discovery, ?fru, ?pdr⟩
  case sample =>
    intro env s h
    obtain ⟨readings, watts, hexec⟩ := exec_sensorSample h
    obtain ⟨hstacks, hinletAt, hinletLost⟩ :=
      thermalPolicy_power ((s.mgmt.sample.map (·.dies)).getD []) env.dies env.stackTemps (sampleTaken env s)
    refine ⟨_, hexec, ?_, sampleTold_hottest .., ?_, ?_⟩
    · exact congrArg Mgmt.sample (sampleTold_keeps State.mgmt (fun _ _ => rfl) (fun _ => rfl) ..)
    · exact (congrArg Plat.junctions (sampleTold_keeps State.plat (fun _ _ => rfl) (fun _ => rfl) ..)).trans (samplePoliced_plat env s)
    · rw [sampleTold_keeps State.power (fun _ _ => rfl) (fun _ => rfl)]
      refine ⟨hstacks, fun v hv => ?_⟩
      obtain ⟨hat, hlost⟩ := sampleTaken_inlet hv s
      exact ⟨hinletAt.trans hat, hinletLost.trans hlost⟩
  case estimate =>
    intro p p0 f s h
    obtain ⟨b, hpower⟩ := checkOverrun_power (fractionSet f s (throttleJudged p p0 s))
    obtain ⟨hp, hp0⟩ := throttleJudged_power p p0 s
    refine ⟨_, exec_powerEstimate h, ?_⟩
    dsimp only
    rw [(settleGaps_only _).power rfl, reg_of_regs ((settleGaps_only _).regs rfl), checkOverrun_fraction, hpower]
    exact ⟨hp, hp0, rfl, State.reg_setReg_same .., throttleJudged_under, fun hhigh habove => throttleJudged_over habove (.inl hhigh),
      fun habove hused => throttleJudged_over habove (.inr hused)⟩
  case allowance => exact fun s h => ⟨_, exec_powerAllowanceExpiry h, beginThrottle_throttling s, beginThrottle_begins⟩
  case coolant =>
    intro inlet s h
    refine ⟨_, exec_coolantHigh h, congrArg Power.inletHigh (State.raise_power ..), ?_, raised_bit _ _ _ (by decide)⟩
    exact (State.reg_raise_off _ (offHeader_same (by decide)) _).trans (State.reg_setReg_same ..)
  case inlet =>
    intro s h
    have hnow : (inletLostTold s).now = s.now := rfl
    refine ⟨_, exec_inletSensorLoss h, congrArg Power.inletLost (inletLostTold_power s), ?_, State.reg_setReg_same .., ?_⟩
    · rw [setInlet_warm (by decide), inletLostTold_power, hnow]
    · rw [reg_setInlet_rset]
      exact reg_inletLostTold s
  case reading =>
    intro src sensor s h
    obtain ⟨e, he, hexec⟩ := exec_getSensorReading h
    exact ⟨_, hexec, e, he, rfl⟩
  case discovery => exact fun src req s h => ⟨_, congrArg Host.Outcome.next (pldm_taken h _), _, answeredBytes_answer rfl rfl rfl⟩
  case fru => exact fun src s h => ⟨_, congrArg Host.Outcome.next (pldm_taken h _), answeredBytes_answer rfl rfl rfl⟩
  case pdr =>
    intro src req s h
    cases req with
    | getPdr => exact ⟨_, exec_getPdr h, fun _ => answeredBytes_answer rfl rfl rfl, nofun, nofun⟩
    | pollEvent =>
      cases hevents : s.mgmt.events with
      | nil => exact ⟨_, exec_pollEvent_none h hevents, nofun, nofun, fun _ _ => answeredBytes_answer rfl rfl rfl⟩
      | cons e rest =>
        refine ⟨_, exec_pollEvent_some h hevents, nofun, fun e' rest' _ heq => ?_, nofun⟩
        obtain ⟨rfl, rfl⟩ := List.cons.inj heq
        rfl

end Sys2Proof.Machine
end

section
/-! SUPPORT. SPDM requests (R571, R573 to R576): the stage that a connection has come to, sessions, and the answers of bytes; and the statement on
them. -/

namespace Sys2Proof.Machine

/-! ### Requests that the connection's stage serves (R573) -/

theorem spdm_served {src : MgmtSource} {s : State} (h : serves s src = true) (f : State → State) : spdm src 0 f s = f s :=
  (if_neg (nn h)).trans (if_neg (Nat.not_lt_zero _))

theorem spdm_reached {src : MgmtSource} {stage : Nat} {s : State} (h : stageAt s src stage = true) (f : State → State) :
    spdm src stage f s = f s := by
  obtain ⟨hserved, hstage⟩ := Bool.and_eq_true_iff.mp h
  exact (if_neg (nn hserved)).trans (if_neg (Nat.not_lt.mpr (of_decide_eq_true hstage)))

theorem inSession_taken {src : MgmtSource} {s : State} (hstage : stageAt s src 3 = true) (hsession : (sessionOf s src == some .established) = true)
    (f : State → State) : inSession src f s = f s := (spdm_reached hstage _).trans (if_pos (eq_of_beq hsession))

/-- An answer whose bytes the standard fixes, to a state that has sent and holds in its registers and fuses the same. -/
theorem standard_answered {s u : State} (hout : u.out = s.out) (hregs : u.regs = s.regs) (hfuses : u.fuses = s.fuses) (src : MgmtSource) (n : Nat) :
    ∃ b, AnsweredBytes src b s (standard src n u) := ⟨_, answeredBytes_answer hout hregs hfuses⟩

/-- Free values that an answer used leave the answer. -/
theorem AnsweredBytes.usedFree {src : MgmtSource} {b : List Byte} {s t : State} (h : AnsweredBytes src b s t) : AnsweredBytes src b s t.usedFree := h

theorem tabGet_setStage (src : MgmtSource) (n : Nat) (s : State) : tabGet 0 (transport src) (setStage src n s).mgmt.spdm = n := tabGet_put_same ..

theorem sessionOf_setSession (src : MgmtSource) (x : Option Session) (s : State) : sessionOf (setSession src x s) src = x := by
  cases x with
  | none => exact tabFind_del_same ..
  | some x => exact tabFind_set_same ..

/-! ### The requests -/

theorem exec_getVersion {src : MgmtSource} {s : State} (h : canGetVersion src s = true) : exec (.getVersion src) s =
    .next (answer src (.bytes [0x12, 0x13]) (setSession src none (setStage src 1 s))) := congrArg Host.Outcome.next (spdm_served h _)

theorem exec_getCapabilities {src : MgmtSource} {s : State} (h : canGetCapabilities src s = true) : exec (.getCapabilities src) s =
    .next (standard src 1 (setStage src 2 s)) := congrArg Host.Outcome.next (spdm_reached h _)

theorem exec_negotiateAlgorithms {src : MgmtSource} {supported : Bool} {s : State} (h : canNegotiateAlgorithms src supported s = true) :
    exec (.negotiateAlgorithms src supported) s =
      .next (if supported then standard src 2 (setStage src 3 s) else answer src (.code invalidRequest) s) :=
  congrArg Host.Outcome.next (spdm_reached h _)

theorem exec_getDigests {src : MgmtSource} {s : State} (h : canGetDigests src s = true) : exec (.getDigests src) s =
    .next (answer src (.bytes (toBytes 64 (Config.sha3 (Config.certChain s.fuses.serial)).toNat)) s) :=
  congrArg Host.Outcome.next (spdm_reached h _)

theorem exec_getCertificate {src : MgmtSource} {slot : Fin 8} {offset length : Nat} {s : State}
    (h : canGetCertificate src slot offset length s = true) : exec (.getCertificate src slot offset length) s =
      .next (if offset < (Config.certChain s.fuses.serial).length then
        answer src (.bytes (((Config.certChain s.fuses.serial).drop offset).take length)) s else answer src (.code invalidRequest) s) := by
  obtain ⟨hstage, hslot⟩ := Bool.and_eq_true_iff.mp h
  refine congrArg Host.Outcome.next ((spdm_reached hstage _).trans ?_)
  by_cases hinside : offset < (Config.certChain s.fuses.serial).length
  · rw [if_pos hinside]
    exact if_neg (not_or.mpr ⟨not_not_intro (eq_of_beq hslot), Nat.not_le.mpr hinside⟩)
  · rw [if_neg hinside]
    exact if_pos (.inr (Nat.not_lt.mp hinside))

theorem exec_challenge {src : MgmtSource} {slot : Fin 8} {nonce : BitVec 256} {s : State} (h : canChallenge src slot nonce s = true) :
    exec (.challenge src slot nonce) s = .next (answer src (.bytes (signTranscript s (toBytes 32 nonce.toNat))) s).usedFree := by
  obtain ⟨hstage, hslot⟩ := Bool.and_eq_true_iff.mp h
  exact congrArg Host.Outcome.next ((spdm_reached hstage _).trans (if_neg (not_not_intro (eq_of_beq hslot))))

/-- The measurement blocks that a request names, one after the other. -/
def blocksMeasured (src : MgmtSource) (index : Nat) (s : State) : List Byte :=
  ((if index = 0xFF then measuredFor src else [index]).map fun i => measurement s i).flatten

theorem exec_getMeasurements {src : MgmtSource} {index : BitVec 8} {signed : Bool} {nonce : BitVec 256} {s : State}
    (h : canGetMeasurements src index signed nonce s = true) : exec (.getMeasurements src index signed nonce) s =
      .next (if index.toNat = 0 then answer src (.value (measuredFor src).length) s
        else (answer src (.bytes (blocksMeasured src index.toNat s ++
          if signed then signTranscript s (toBytes 32 nonce.toNat ++ blocksMeasured src index.toNat s) else [])) s).usedFree) := by
  simp only [canGetMeasurements, Bool.and_eq_true, Bool.or_eq_true, beq_iff_eq] at h
  obtain ⟨hstage, hindex⟩ := h
  refine congrArg Host.Outcome.next ((spdm_reached hstage _).trans ?_)
  by_cases hcount : index.toNat = 0
  · rw [if_pos hcount, if_pos hcount]
    cases src <;> rfl
  · rw [if_neg hcount, if_neg hcount]
    refine (if_neg ?_).trans (by cases src <;> rfl)
    rintro ⟨hall, hunknown⟩
    obtain (hzero | hff) | hknown := hindex
    · exact hcount (congrArg BitVec.toNat hzero)
    · exact hall (congrArg BitVec.toNat hff)
    · exact nn hknown (by cases src <;> exact hunknown)

theorem exec_keyExchange {src : MgmtSource} {exchange : BitVec 768} {s : State} (h : canKeyExchange src exchange s = true) :
    exec (.keyExchange src exchange) s =
      .next (answer src (.bytes (signTranscript s (toBytes 96 exchange.toNat))) (setSession src (some .handshake) s)).usedFree := by
  obtain ⟨hstage, hfree⟩ := Bool.and_eq_true_iff.mp h
  exact congrArg Host.Outcome.next ((spdm_reached hstage _).trans (if_neg (bne_iff_ne.mp hfree)))

theorem exec_finish {src : MgmtSource} {verifies : Bool} {s : State} (h : canFinish src verifies s = true) : exec (.finish src verifies) s =
    .next (if verifies then standard src 3 (setSession src (some .established) s)
      else answer src (.code decryptError) (setSession src none s)) := by
  obtain ⟨hstage, hhandshake⟩ := Bool.and_eq_true_iff.mp h
  exact congrArg Host.Outcome.next ((spdm_reached hstage _).trans (if_neg (not_not_intro (eq_of_beq hhandshake))))

theorem exec_keyUpdate {src : MgmtSource} {s : State} (h : canKeyUpdate src s = true) : exec (.keyUpdate src) s = .next (standard src 4 s) := by
  obtain ⟨hstage, hsession⟩ := Bool.and_eq_true_iff.mp h
  exact congrArg Host.Outcome.next (inSession_taken hstage hsession _)

theorem exec_heartbeat {src : MgmtSource} {s : State} (h : canHeartbeat src s = true) : exec (.heartbeat src) s = .next (standard src 5 s) := by
  obtain ⟨hstage, hsession⟩ := Bool.and_eq_true_iff.mp h
  exact congrArg Host.Outcome.next (inSession_taken hstage hsession _)

theorem exec_endSession {src : MgmtSource} {s : State} (h : canEndSession src s = true) : exec (.endSession src) s =
    .next (standard src 6 (setSession src none s)) := by
  obtain ⟨hstage, hsession⟩ := Bool.and_eq_true_iff.mp h
  exact congrArg Host.Outcome.next (inSession_taken hstage hsession _)

/-- The chunks that a message has so far when a chunk comes: none where it is the first. -/
def chunksSoFar (src : MgmtSource) (chunk : BitVec 16) (s : State) : Nat × List Byte :=
  if chunk = 0 then (0, []) else tabGet (0, []) (transport src) s.mgmt.chunks

/-- A chunk joins its message; with the last the message is whole. -/
def chunkTaken (src : MgmtSource) (chunk : BitVec 16) (last : Bool) (data : List Byte) (s : State) : State :=
  { s with mgmt := { s.mgmt with
    chunks := if last then tabDel (transport src) s.mgmt.chunks
      else tabSet (transport src) ((chunksSoFar src chunk s).1 + 1, (chunksSoFar src chunk s).2 ++ data) s.mgmt.chunks } }

/-- A chunk in order is numbered as the chunks before it count. -/
theorem chunk_inOrder {src : MgmtSource} {chunk : BitVec 16} {last : Bool} {data : List Byte} {s : State}
    (h : canChunkSend src chunk last data s = true) : chunk.toNat = (chunksSoFar src chunk s).1 := by
  obtain ⟨-, horder⟩ := Bool.and_eq_true_iff.mp h
  refine (of_decide_eq_true horder).trans ?_
  unfold chunksSoFar
  split <;> rfl

theorem exec_chunkSend {src : MgmtSource} {chunk : BitVec 16} {last : Bool} {data : List Byte} {s : State}
    (h : canChunkSend src chunk last data s = true) : exec (.chunkSend src chunk last data) s =
      .next (standard src 7 (chunkTaken src chunk last data s)) := by
  obtain ⟨hstage, -⟩ := Bool.and_eq_true_iff.mp h
  exact congrArg Host.Outcome.next ((spdm_reached hstage _).trans (if_neg (not_not_intro (chunk_inOrder h))))

theorem exec_chunkGet {src : MgmtSource} {chunk : BitVec 16} {s : State} (h : canChunkGet src chunk s = true) :
    ∃ b, tabFind (transport src) s.mgmt.large = some b ∧ exec (.chunkGet src chunk) s =
      .next (if chunk.toNat * max 1 (Config.chunkBytes (transport src)) < b.length then
        s.emit (.mgmt src (.bytes ((b.drop (chunk.toNat * max 1 (Config.chunkBytes (transport src)))).take
          (max 1 (Config.chunkBytes (transport src))))))
        else answer src (.code invalidRequest) s) := by
  obtain ⟨hstage, hlarge⟩ := Bool.and_eq_true_iff.mp h
  obtain ⟨b, hb⟩ := Option.isSome_iff_exists.mp hlarge
  refine ⟨b, hb, congrArg Host.Outcome.next ((spdm_reached hstage _).trans ?_)⟩
  simp only [hb]

theorem exec_partitionReport {src : MgmtSource} {k : Fin 64} {nonce : BitVec 256} {s : State} (h : canPartitionReport src k nonce s = true) :
    exec (.partitionReport src k nonce) s = .next (answer src (.bytes (reportBody s k nonce ++
      toBytes 114 (Config.idkSign s.fuses.uds 2 (reportBody s k nonce)).toNat ++ toBytes 14 0)) s) := by
  obtain ⟨hstage, hmay⟩ := Bool.and_eq_true_iff.mp h
  exact congrArg Host.Outcome.next ((spdm_reached hstage _).trans (if_neg (nn hmay)))

/-- A migration key is set in its slot, with its peer and no records yet. -/
def migrationKeySet (slot : Fin 8) (key : BitVec 256) (peer : BitVec 456) (s : State) : State :=
  { s with mgmt := { s.mgmt with keySlots := tabSet slot.val ⟨key, peer, 0⟩ s.mgmt.keySlots } }

theorem exec_setMigrationKey {src : MgmtSource} {slot : Fin 8} {key : BitVec 256} {peer : BitVec 456} {s : State}
    (h : canSetMigrationKey src slot key peer s = true) : exec (.setMigrationKey src slot key peer) s =
      .next (standard src 8 (migrationKeySet slot key peer s)) := by
  simp only [canSetMigrationKey, Bool.and_eq_true, Bool.or_eq_true, beq_iff_eq] at h
  obtain ⟨⟨hstage, hport⟩, hsession⟩ := h
  refine congrArg Host.Outcome.next ((spdm_reached hstage _).trans (if_neg ?_))
  rintro (⟨hnotDoe, hnotVdm⟩ | hnone)
  · exact hport.elim hnotDoe hnotVdm
  · exact hnone hsession

/-! ### The statement -/

/-- Settles O36: each request by the stage or session that serves it, its answer by the state that it leaves the connection in. -/
theorem attestationComplete : Obligations.AttestationComplete := by
  unfold Obligations.AttestationComplete
  refine ⟨?version, ?capabilities, ?algorithms, ?digests, ?certificate, ?challenge, ?measurements, ?exchange, ?finish, ?update, ?heartbeat,
    ?endSession, ?send, ?get, ?report, ?key⟩
  case version =>
    exact fun src s h => ⟨_, exec_getVersion h, answeredBytes_answer rfl rfl rfl, tabGet_setStage src 1 s,
      sessionOf_setSession src none (setStage src 1 s)⟩
  case capabilities =>
    exact fun src s h => ⟨_, exec_getCapabilities h, standard_answered rfl rfl rfl src 1, tabGet_setStage src 2 s⟩
  case algorithms =>
    intro src supported s h
    refine ⟨_, exec_negotiateAlgorithms h, ?_, ?_⟩
    · rintro rfl
      exact ⟨standard_answered rfl rfl rfl src 2, tabGet_setStage src 3 s⟩
    · rintro rfl
      rfl
  case digests => exact fun src s h => ⟨_, exec_getDigests h, answeredBytes_answer rfl rfl rfl⟩
  case certificate =>
    intro src slot offset length s h
    refine ⟨_, exec_getCertificate h, fun hinside => ?_, fun houtside => if_neg houtside⟩
    rw [if_pos hinside]
    exact answeredBytes_answer rfl rfl rfl
  case challenge => exact fun src slot nonce s h => ⟨_, exec_challenge h, answeredBytes_answer rfl rfl rfl⟩
  case measurements =>
    intro src index signed nonce s h
    have hzero (hindex : index ≠ 0) : ¬index.toNat = 0 := fun e => hindex (BitVec.eq_of_toNat_eq e)
    have hone (hall : index ≠ 0xFF) : blocksMeasured src index.toNat s = measurement s index.toNat := by
      rw [blocksMeasured, if_neg fun e : index.toNat = 0xFF => hall (BitVec.eq_of_toNat_eq e)]
      exact List.append_nil _
    refine ⟨_, exec_getMeasurements h, ?count, ?one, ?signed, ?all⟩
    case count => exact fun hindex => if_pos (congrArg BitVec.toNat hindex)
    case one =>
      rintro hindex hall rfl
      rw [if_neg (hzero hindex), hone hall, if_neg (by decide), List.append_nil]
      exact answeredBytes_answer rfl rfl rfl
    case signed =>
      rintro hindex hall rfl
      rw [if_neg (hzero hindex), hone hall, if_pos rfl]
      exact answeredBytes_answer rfl rfl rfl
    case all =>
      rintro rfl rfl
      rw [if_neg (hzero (by decide)), if_neg (by decide), List.append_nil]
      exact answeredBytes_answer rfl rfl rfl
  case exchange =>
    exact fun src exchange s h => ⟨_, exec_keyExchange h, sessionOf_setSession src (some .handshake) s, answeredBytes_answer rfl rfl rfl⟩
  case finish =>
    intro src verifies s h
    refine ⟨_, exec_finish h, ?_, ?_⟩
    · rintro rfl
      exact ⟨sessionOf_setSession src (some .established) s, standard_answered rfl rfl rfl src 3⟩
    · rintro rfl
      exact ⟨sessionOf_setSession src none s, rfl⟩
  case update =>
    intro src s h
    obtain ⟨-, hsession⟩ := Bool.and_eq_true_iff.mp h
    exact ⟨_, exec_keyUpdate h, standard_answered rfl rfl rfl src 4, eq_of_beq hsession⟩
  case heartbeat =>
    intro src s h
    obtain ⟨-, hsession⟩ := Bool.and_eq_true_iff.mp h
    exact ⟨_, exec_heartbeat h, standard_answered rfl rfl rfl src 5, eq_of_beq hsession⟩
  case endSession => exact fun src s h => ⟨_, exec_endSession h, standard_answered rfl rfl rfl src 6, sessionOf_setSession src none s⟩
  case send =>
    intro src chunk last data s h
    refine ⟨_, exec_chunkSend h, standard_answered rfl rfl rfl src 7, ?last, ?first, ?next⟩
    case last =>
      rintro rfl
      exact tabFind_del_same ..
    case first =>
      rintro rfl rfl
      exact tabFind_set_same ..
    case next =>
      rintro rfl hlater
      have hsofar : chunksSoFar src chunk s = tabGet (0, []) (transport src) s.mgmt.chunks := if_neg hlater
      rw [chunk_inOrder h, ← hsofar]
      exact tabFind_set_same ..
  case get =>
    intro src chunk s h
    obtain ⟨b, hb, hexec⟩ := exec_chunkGet h
    exact ⟨_, hexec, b, hb, fun hinside => if_pos hinside, fun houtside => if_neg houtside⟩
  case report => exact fun src k nonce s h => ⟨_, exec_partitionReport h, answeredBytes_answer rfl rfl rfl⟩
  case key =>
    exact fun src slot key peer s h => ⟨_, exec_setMigrationKey h, tabFind_set_same .., standard_answered rfl rfl rfl src 8⟩

end Sys2Proof.Machine
end
